-- ==== Sys2Proof/Word.lean ====
section
/-!
DEFINITION. Word types, the sparse map type and the small closed sets of names that commands and
state share. Operand structures stand in Types.lean; every operation stands under Machine/.
-/
namespace Sys2Proof

/-- A 32-bit register of the management register space (R28). -/
abbrev Word := BitVec 32
/-- A byte of memory. -/
abbrev Byte := BitVec 8
/-- A sparse table: a list of key and value pairs, keys strictly rising, no entry equal to what an
unlisted key reads as. Its operations are in Machine/Maps.lean. -/
abbrev SMap (α : Type) := List (Nat × α)
/-- Byte-addressed memory in the same canonical form. -/
abbrev Mem := List (Nat × Byte)

/-- R6: the two grades. -/
inductive Grade where
  | dxg4140
  | dxg4120
  deriving DecidableEq, Repr

/-- R406 and R33: the module's operating states; `off` cannot be read in MODULE_STATE. -/
inductive OpState where
  | off | keepAlive | ready | serving | draining | parked | test
  deriving DecidableEq, Repr

/-- R86: states of a context slot. -/
inductive SlotSt where
  | empty | loading | ready | active | frozen | scanning
  deriving DecidableEq, Repr

/-- R30, R31, R165, R459: the paths by which a register is reached. A host session is named by its index,
a firmware hardware thread by its number; `tap` is the test access port. -/
inductive Path where
  | firmware (thread : Nat)
  | session (index : Nat)
  | mgmt
  | i3c
  | tap
  deriving DecidableEq, Repr

/-- R142: statuses of a command-list entry. -/
inductive EntrySt where
  | ok | refused | fault | bound | timeout
  deriving DecidableEq, Repr

/-- R141: fence classes of command-list entries. -/
inductive EClass where
  | load | select | param | dma | prefetch | dispatch | none
  deriving DecidableEq, Repr

/-- R233: states of a package handle. -/
inductive PkgSt where
  | absent | installing | stored | installed | loaded
  deriving DecidableEq, Repr

/-- R251: states of a request slot. -/
inductive ReqSt where
  | free | waiting | prefill | decode | preempted | ending
  deriving DecidableEq, Repr

/-- R268: final statuses of a request; `none` is code 0, no status yet. -/
inductive Final where
  | none | complete | cancelled | nobind | noprefix | noentitle | nofit | expired
  | bound | deadlock | timeout | aborted | moved
  deriving DecidableEq, Repr

/-- R280: states of a session. -/
inductive SessSt where
  | closed | opening | active | detached
  deriving DecidableEq, Repr

/-- R441: life-cycle states. -/
inductive LcSt where
  | blank | factory | provisioned | deployed | returned | retired
  deriving DecidableEq, Repr

/-- R291: kinds of function that DISABLE and ENABLE name. -/
inductive FnKind where
  | tenant | model | linkPort | die | context
  deriving DecidableEq, Repr

end Sys2Proof
end

