-- ==== Sys2Proof/Types.lean ====
section
/-!
DEFINITION. The structures that commands carry as operands and that the state stores: context images, scan
images, transfer records. Plain data only.
-/
namespace Sys2Proof

/-- A token: vector tokens use all 1,024 bits, scalar tokens the low 32, control tokens the low 8 (R83). -/
abbrev Tok := BitVec 1024

/-- A compute tile's part of a context image (R62, R78). -/
structure TileImage where
  y : Nat
  x : Nat
  prog : List (BitVec 64)
  params : List Word
  accBase : Nat
  accLen : Nat
  miBase : Nat
  miLen : Nat
  deriving DecidableEq, Repr

/-- A memory tile's part of a context image: its SRAM region in 4 KiB units and its descriptors, numbered
4a + d (R109, R112). -/
structure MtImage where
  y : Nat
  x : Nat
  sramBase : Nat
  sramLen : Nat
  descs : List (Nat × BitVec 512)
  deriving DecidableEq, Repr

/-- A queue's part of a context image: partition, extension and route (R84, R92, R123). -/
structure QImage where
  qid : Nat
  base : Nat
  len : Nat
  extDir : Nat
  extLen : Nat
  extBase : Nat
  outMask : Nat
  toPort : Bool
  lport : Nat
  deriving DecidableEq, Repr

/-- R156: a lane is a parameter set, an edge-port group for weights and one for inputs. -/
structure Lane where
  pset : Nat
  weightGroup : Nat
  inputGroup : Nat
  deriving DecidableEq, Repr

/-- A context image (R87): what a load writes into a slot. The byte format of the image is not given, so the command that loads it carries
its contents (notes/assumptions/10). `psets` names the tiles of each parameter set, `groups` the ports of each edge-port group, `wfmts`
the execution format of each group that carries weights (R231), `tables` the router tables of R170. -/
structure CtxImage where
  pkg : Nat
  idx : Nat
  grade : Grade
  linen : Bool
  tiles : List TileImage
  mts : List MtImage
  queues : List QImage
  edgeN : Nat
  edgeS : Nat
  psets : List (Nat × List (Nat × Nat))
  groups : List (Nat × List Nat)
  wfmts : List (Nat × Nat)
  lanes : List Lane
  tables : List (Nat × List Word)
  deriving DecidableEq, Repr

/-- One cell of an accumulator row (R49 to R53): the 96-bit fixed-point sum with the special values of R50, and
the FP32 running sum. -/
structure AccCell where
  sum : BitVec 96
  nan : Bool
  pinf : Bool
  ninf : Bool
  run : Nat
  /-- R371: the checker's residue of the sum. -/
  res : Nat
  deriving DecidableEq, Repr

/-- An accumulator row: 32 cells, the kind its tag records, and the products since its last clear (R69). -/
structure AccRow where
  fp : Bool
  extent : Nat
  cells : List AccCell
  deriving DecidableEq, Repr

/-- The state of one context slot in one compute tile (R62), with its entries of MI. The matrix sequencer's
position is its word, chunk and row; `mLive` says that the word's counts have been read, `mEnd` that a set was pending when
the sequencer last wrapped and is still to be adopted (R70). `comb` holds the ports of a VCOMB in arrival order that have
been taken, with their tokens (R75). -/
structure TileCtx where
  vregs : SMap Tok
  held : List Tok
  ahead : List Tok
  mWord : Nat
  mLive : Bool
  mRows : Nat
  mChunks : Nat
  mChunk : Nat
  mRow : Nat
  mEnd : Bool
  vWord : Nat
  vLive : Bool
  vCount : Nat
  vIter : Nat
  vEnd : Bool
  comb : List (Nat × Tok)
  vsum : Option Nat
  vparams : List Word
  mAdopted : Bool
  vAdopted : Bool
  mi : List Tok
  deriving DecidableEq, Repr

/-- A freshly loaded tile context. -/
def TileCtx.empty : TileCtx :=
  { vregs := [], held := [], ahead := [], mWord := 0, mLive := false, mRows := 0, mChunks := 0, mChunk := 0,
    mRow := 0, mEnd := false, vWord := 0, vLive := false, vCount := 0, vIter := 0, vEnd := false, comb := [],
    vsum := none, vparams := [], mAdopted := false, vAdopted := false, mi := [] }

/-- One address generator in one context (R111): the descriptor it stands at, whether it runs, whether its
nest is finished and its completion waits, the bounds read at issue and the loop indices. -/
structure AgState where
  desc : Nat
  running : Bool
  finished : Bool
  bounds : List Nat
  index : List Nat
  deriving DecidableEq, Repr

def AgState.idle : AgState := { desc := 0, running := false, finished := false, bounds := [], index := [] }

/-- One queue of one context (R83 to R85, R92, R93): its partition, its extension, the tokens in each, the
entries freed whose credit has not returned (R80), whether a spill is being set up, whether one has been set up and the
partition has stayed full since, and whether a token waits to enter. -/
structure Queue where
  base : Nat
  len : Nat
  extDir : Nat
  extLen : Nat
  extBase : Nat
  toks : List Tok
  ext : List Tok
  freed : Nat
  setup : Bool
  armed : Bool
  waiting : Bool
  deriving DecidableEq, Repr

def Queue.empty : Queue :=
  { base := 0, len := 0, extDir := 0, extLen := 0, extBase := 0, toks := [], ext := [], freed := 0,
    setup := false, armed := false, waiting := false }

/-- R103: the scan a die runs: its slot, direction, flags, the stream and ring index of its entry, the slot's
former state, the image address, whether the image has moved, its length and the result. -/
structure ScanJob where
  slot : Nat
  isIn : Bool
  clear : Bool
  sram : Bool
  discard : Bool
  stream : Nat
  entry : Nat
  addr : Nat
  former : Nat
  moved : Bool
  bytes : Nat
  result : Nat
  deriving DecidableEq, Repr

/-- Who asked for an agent's read. -/
inductive Asker where
  | stream (die st entry : Nat)
  | array (die qid ctx : Nat)
  | otherDie (die : Nat)
  | router (die slot : Nat)
  deriving DecidableEq, Repr

/-- A read that an agent holds for a page that is not near (R128); `via` is the strip of a weight-cache port (R134). -/
structure HeldRead where
  die : Nat
  agent : Nat
  addr : Nat
  len : Nat
  via : Option Nat
  asker : Asker
  deriving DecidableEq, Repr

/-- One way of a weight-cache set (R129, R130): the line address, its pins, whether its fill is in progress,
and the readers that wait for it with the ranges they asked for. -/
structure WcLine where
  line : Nat
  pins : Nat
  filling : Bool
  waiters : List (Asker × Nat × Nat)
  deriving DecidableEq, Repr

/-- An entry of a stream that has issued and not completed (R143). `entry` is its ring index, `word` the copy
the engine executes (R137); `a`, `b` and `c` hold what its completion needs: addresses and a length. -/
structure InFlight where
  entry : Nat
  word : BitVec 512
  cls : EClass
  slot : Nat
  a : Nat
  b : Nat
  len : Nat
  deriving DecidableEq, Repr

/-- Pins taken by a completed or running PREFETCH into the weight cache (R148). -/
structure PinSet where
  tag : Nat
  entry : Nat
  lines : List Nat
  target : Nat
  complete : Bool
  released : Bool
  deriving DecidableEq, Repr

/-- One group of a grouped dispatch (R157, R158); `todo` is the length of its input transfer while that has started and its data
is not all there. -/
structure GroupRec where
  index : Nat
  entry : Nat
  count : Nat
  waddr : Nat
  wlen : Nat
  input : BitVec 128
  lane : Option Nat
  todo : Option Nat
  deriving DecidableEq, Repr

/-- A dispatch in progress on a slot (R156 to R159): `groups` are pending or on a lane, `entries` the ring indices of its
GROUP entries; an abandoned one (R136) assigns nothing more. -/
structure Dispatch where
  stream : Nat
  entry : Nat
  total : Nat
  seen : Nat
  doneId : Nat
  countPm : Nat
  maxCount : Nat
  groups : List GroupRec
  entries : List Nat
  abandoned : Bool
  deriving DecidableEq, Repr

/-- One stream's state beyond its registers: issued entries, the entry that holds the stream (R143), the
PREFETCH entries that the lookahead has issued (R147) with its position, its pins, the absolute time of its step
deadline (R151), and whether it has issued an entry since its last STEP (R150). -/
structure StreamSt where
  flying : List InFlight
  holder : Option Nat
  looked : List Nat
  pins : List PinSet
  deadline : Option Nat
  inStep : Bool
  stepSlots : List Nat
  deriving DecidableEq, Repr

def StreamSt.empty : StreamSt :=
  { flying := [], holder := none, looked := [], pins := [], deadline := none, inStep := false, stepSlots := [] }

/-- A context select that has issued and waits for its switch cycle (R89, R90). -/
structure PendingSelect where
  stream : Nat
  entry : Nat
  slot : Nat
  deriving DecidableEq, Repr

/-- A page-table entry with VALID = 1 (R194), with the engine's sealing mark (R198) and whether the page's window
frame order (R216): `winSeq` rises with each fill. -/
structure Pte where
  isSealed : Bool
  near : Bool
  bulk : Bool
  deep : Bool
  moving : Bool
  freeing : Bool
  windowed : Bool
  place : Nat
  budget : Nat
  mwin : Nat
  nearStack : Nat
  nearFrame : Nat
  bulkFrame : Nat
  deepDrive : Nat
  deepExtent : Nat
  check : Word
  len : Nat
  access : Nat
  owner : Nat
  nodeep : Bool
  sealing : Bool
  winSeq : Nat
  deriving DecidableEq, Repr

/-- Work of the migration engines on one page (R207): a promotion into a frame, a demotion's copy to the bulk or
deep tier, a class 3 copy, the bulk copy of a SET_PLACE, or an explicit DEMOTE that waits for a pin or hold. -/
inductive MigKind where
  | promote
  | demoteBulk
  | demoteDeep
  | copyDeep
  | toStream
  | demoteWait
  deriving DecidableEq, Repr

/-- One page's migration in progress (R207). `stack` and `frame` name its near frame, its bulk frame, or its drive and
extent; `placed` says that it has one, `win` that it is a window frame (R216) and `pool` that the shared pool gives it (R210);
`left` are the engines whose part is still to be done (R203), `next` the class and die of a promotion that waits for this
migration to end (R215), and `retried` that the copy from this source has been repeated once (R374). -/
structure MigJob where
  page : Nat
  kind : MigKind
  cls : Nat
  die : Nat
  placed : Bool
  win : Bool
  pool : Bool
  stack : Nat
  frame : Nat
  left : List Nat
  next : Option (Nat × Nat)
  retried : Bool
  deriving DecidableEq, Repr

/-- A request of the migration ring that has been consumed and whose pages are not all done (R213, R214): the request as a
number, how many of its pages have been begun, those of them that are not done, and the pages done. -/
structure MigReq where
  word : Nat
  begun : Nat
  waiting : List Nat
  pagesDone : Nat
  status : Nat
  deriving DecidableEq, Repr

/-- A catalogue record of the deep tier and the data of its extent (R205). -/
structure DeepRec where
  page : Nat
  check : Word
  len : Nat
  owner : Nat
  seq : Nat
  data : Mem
  deriving DecidableEq, Repr

/-- A drive of the deep tier (R205): the module its header names, its slot there and its extents' records. -/
structure Drive where
  header : Nat
  slot : Nat
  extents : Nat
  records : SMap DeepRec
  retired : List Nat
  deriving DecidableEq, Repr

/-- A choice of a live row (R174 to R178): row, slot, position, rank, expert, preliminary weight, whether it has been
accepted. -/
structure RChoice where
  row : Nat
  slot : Nat
  pos : Nat
  rank : Nat
  expert : Nat
  weight : Nat
  accepted : Bool
  deriving DecidableEq, Repr

/-- A live row that the router has consumed (R171, R174): slot, position and its NaN scores. -/
structure RRow where
  slot : Nat
  pos : Nat
  nans : Nat
  deriving DecidableEq, Repr

/-- A router invocation (R168): its header, the rows consumed, the logits of the row under way, the choices, whether selection,
capacity and the lists are done, and how many of the writes that the edge agents had accepted at its last score token are left,
by boundary queue (R180). -/
structure Invocation where
  live : Nat
  streamed : Nat
  table : Nat
  consumed : Nat
  logits : List Nat
  ident : Option (Nat × Nat)
  rows : List RRow
  choices : List RChoice
  selected : Bool
  ordered : Bool
  listed : Bool
  writes : List (Nat × Nat)
  deriving DecidableEq, Repr

/-- An error record (R379); the reserved bytes are not kept. -/
structure ErrRec where
  time : Nat
  cls : Nat
  kind : Nat
  source : Nat
  die : Nat
  ctx : Nat
  action : Nat
  flags : Nat
  count : Nat
  slot : Nat
  last : Nat
  addr : Nat
  step : Nat
  detail : Nat
  seq : Nat
  detail2 : Nat
  deriving DecidableEq, Repr

/-- The header and body of a packet that a host or the rack manager sends (R276), beside MAGIC, VERSION and OPCODE,
which the command that carries the packet fixes. `qp` is the queue pair it arrives on; 4096 is the MGMT port. `ce` says that it
arrives marked CE (R274). -/
structure Pkt where
  qp : Nat
  flags : Nat
  session : Nat
  tenant : Nat
  len : Nat
  seq : Nat
  status : Nat
  credits : Nat
  detail : Nat
  resv : Nat
  tag : BitVec 128
  body : List Byte
  ce : Bool
  deriving DecidableEq, Repr

/-- R284: an entry of the reply journal: the command's number, TAG and opcode, its reply once it has one, the queue pair
to answer on, and the queue pairs of duplicates that wait. -/
structure JRep where
  seq : Nat
  tag : BitVec 128
  op : Nat
  reply : Option (Nat × Nat × List Byte)
  qp : Nat
  waiters : List Nat
  deriving DecidableEq, Repr

/-- R283: a command held for a gap; `extra` is what a command carries beside its packet, and `waiters` the queue pairs of
duplicates that wait for its reply (R284). -/
structure HeldCmd where
  op : Nat
  pkt : Pkt
  extra : List Byte
  since : Nat
  waiters : List Nat
  deriving DecidableEq, Repr

/-- An event that waits to be sent (R299, R300); `qp` is the queue pair a FINAL event prefers (R298). -/
structure Ev where
  cls : Nat
  count : Nat
  qp : Option Nat
  body : List Byte
  deriving DecidableEq, Repr

/-- A session (R279 to R284, R299, R300). `subject` is its credential's SUBJECT_KEY, `confirm` the confirmation value S_A
that OPEN_CONFIRM must carry; `closing` is 1 while a close waits for final statuses and 2 once only its reply is to leave. -/
structure Session where
  st : SessSt
  gen : Nat
  roles : Nat
  tenants : BitVec 4096
  subject : List Byte
  keyHm : List Byte
  keyMh : List Byte
  confirm : List Byte
  next : Nat
  attach : Nat
  qps : List Nat
  journal : List JRep
  held : List HeldCmd
  evSeq : Nat
  evLost : Nat
  events : List Ev
  mask : Nat
  since : Nat
  closing : Nat
  deriving DecidableEq, Repr

/-- A queue pair (R273 to R275): its host port, the session it is bound to, whether it is in the error state, the times of
its recent AUTH failures, the receive entries in use, its send rate in Mb/s and the times of congestion handling. -/
structure Qp where
  port : Nat
  bound : Option Nat
  error : Bool
  auth : List Nat
  used : Nat
  rate : Nat
  halved : Nat
  raised : Nat
  cnpAt : Option Nat
  deriving DecidableEq, Repr

/-- A token entry of a delivery ring (R298); `origin` names the module of a request taken over (R353). -/
structure RingTok where
  slot : Nat
  last : Bool
  token : Nat
  index : Nat
  subSeq : Nat
  time : Nat
  origin : Option Nat
  deriving DecidableEq, Repr

/-- A delivery ring (R297, R298): `produced` is P, `consumed` the count last used, `written` the entries from `consumed`
to P, oldest first, and `waiting` the committed tokens not yet written. -/
structure Ring where
  entries : Nat
  addr : Nat
  rkey : Nat
  cRkey : Nat
  cAddr : Nat
  produced : Nat
  consumed : Nat
  written : List RingTok
  waiting : List RingTok
  deriving DecidableEq, Repr

/-- R289, R293, R295: the protection set-up a die uses: tenant windows, package groups and context ownership. -/
structure Protection where
  tenants : SMap (Bool × Nat)
  groups : SMap Nat
  owners : SMap (Bool × Nat)
  deriving DecidableEq, Repr

def Protection.empty : Protection := { tenants := [], groups := [], owners := [] }

/-- A protection change (R289): `kind` 0 tenant window, 1 memory window, 2 context ownership, 3 package group; the object
and its new value; the dies that have still to apply it; the session index and SEQ to answer, with the reply's DETAIL. -/
structure ProtChange where
  kind : Nat
  index : Nat
  value : Nat
  waiting : List Nat
  session : Nat
  seq : Nat
  detail : Nat
  deriving DecidableEq, Repr

/-- A DATA or E2E flit as it travels end to end (R316); LSEQ, LACK and CRC belong to a hop. -/
structure Flit where
  vc : Nat
  last : Bool
  dst : Nat
  src : Nat
  flow : Nat
  fseq : Nat
  payload : List Byte
  deriving DecidableEq, Repr

/-- A flit not yet acknowledged end to end and the ports that have carried it (R322). -/
structure SentFlit where
  flit : Flit
  ports : List Nat
  deriving DecidableEq, Repr

/-- What one die sends another over velvet (R308): the relaying dies of the route in use, the fence signals sent on it and not
yet acknowledged, and those held back, each a fence counter and oldest first. -/
structure VelvetPair where
  via : List Nat
  sent : List Nat
  held : List Nat
  deriving DecidableEq, Repr

/-- A flow at its sender (R320, R322). -/
structure TxFlow where
  next : Nat
  unacked : List SentFlit
  deriving DecidableEq, Repr

/-- A flow at its receiver (R320 to R322): the next FSEQ, flits held out of order, the payload of the message under way,
flits delivered since the last acknowledgement and the time of the last one, and since when a gap has lasted. -/
structure RxFlow where
  expect : Nat
  store : List (Nat × Flit)
  part : List Byte
  count : Nat
  lastAt : Nat
  gapSince : Option Nat
  deriving DecidableEq, Repr

def RxFlow.empty : RxFlow := { expect := 0, store := [], part := [], count := 0, lastAt := 0, gapSince := none }

/-- What a port's partner reports in phase 4 of training (R313, R314), with the lanes that are good, the smallest eye
margin, and whether the test flits of phase 5 arrived clean. A switch states its buffer per virtual channel (R328). -/
structure Partner where
  lanes : Nat
  isSwitch : Bool
  id : Nat
  cls : Nat
  offset : Nat
  size : Nat
  credits : List Nat
  eye : Nat
  clean : Bool
  deriving DecidableEq, Repr

/-- A link port (R312 to R318): phases of training done and when training began; its transmit queue; the replay buffer
with LSEQ and send time of each flit; replays in a row; the next LSEQ to send and to expect; whether a NAK is
outstanding; credits per virtual channel; flits left to VC2 and VC3 in the round; the times of its faults; and the
deadline of a DISABLE. -/
structure Port where
  phase : Nat
  since : Nat
  queue : List Flit
  replay : List (Nat × Nat × Flit)
  tries : Nat
  next : Nat
  expect : Nat
  nakSent : Bool
  credits : List Nat
  share2 : Nat
  share3 : Nat
  faults : List Nat
  drain : Option Nat
  deriving DecidableEq, Repr

def Port.empty : Port :=
  { phase := 0, since := 0, queue := [], replay := [], tries := 0, next := 0, expect := 0, nakSent := false,
    credits := [0, 0, 0, 0], share2 := 0, share3 := 0, faults := [], drain := none }

/-- A message that waits for a route (R323). -/
structure WaitMsg where
  dst : Nat
  ty : Nat
  vc : Nat
  bytes : List Byte
  since : Nat
  deriving DecidableEq, Repr

/-- A message delivered whole by its flow (R325). -/
structure InMsg where
  src : Nat
  ty : Nat
  ref : Nat
  arg : List Byte
  body : List Byte
  deriving DecidableEq, Repr

/-- The payload of a journal record (R338). A REPLY keeps beside it the queue pair to answer on and the index of the
session whose key tags the reply, plus one, or 0 for a zero TAG. -/
inductive JPay where
  | accept (session sub tenant : Nat) (desc : BitVec 512) (input : List Byte)
  | commit (toks : List (Nat × Nat))
  | final (record : List Byte)
  | reply (qp key session seq : Nat) (tag : BitVec 128) (op status detail : Nat) (body : List Byte)
  | session (index : Nat) (v : Option Session) (rings : List (Nat × Ring))
  | configReg (addr value : Nat)
  | configProt (kind index value : Nat)
  | install (handle : Nat) (digest : List Byte) (code : Nat)
  | pfx (handle tenant parent refs acceptJsn : Nat) (released : Bool)
  | delivered (marks : List (Nat × Nat))
  | cancel (session sub : Nat)
  | status (session seq : Nat) (body : List Byte)
  deriving DecidableEq, Repr

/-- A journal record (R338): its JSN, the request slot or 0xFFFF, its payload, when it was sent to the partner, and the module
whose slot it concerns when that is not the sender's own (R347, R353). -/
structure JRec where
  jsn : Nat
  slot : Nat
  pay : JPay
  sent : Option Nat
  origin : Option Nat
  deriving DecidableEq, Repr

/-- A prefix handle (R259 to R261): its model's digest, adapter, positions, page run, the handle it continues, references,
whether it is released or its pages are lost, and the inputs and ACCEPT record of the request that registered it. -/
structure Pfx where
  digest : List Byte
  adapter : Nat
  positions : Nat
  pages : List Nat
  parent : Nat
  refs : Nat
  released : Bool
  lost : Bool
  chain : Nat
  input : List Byte
  acceptJsn : Nat
  deriving DecidableEq, Repr

/-- What a package's templates and contexts record (R242, R246, R254, R262, R296): KV bytes and input bytes per position, the
largest k of its router tables, the lanes of its adapter dispatch, its pipeline stages, the die of each context in pipeline
order, the streams its command lists need on each of those dies (R136), and in bucket mode the buckets: rows, positions (0 when
that dimension is not bucketed) and the index of the bucket's context (R154). The byte format of a template is not given: notes/assumptions/10. -/
structure Tmpl where
  kvb : Nat
  inBytes : Nat
  maxK : Nat
  lanes : Nat
  stages : Nat
  dies : List Nat
  streams : Nat
  buckets : List (Nat × Nat × Nat)
  deriving DecidableEq, Repr

def Tmpl.empty : Tmpl := { kvb := 0, inBytes := 0, maxK := 1, lanes := 1, stages := 1, dies := [], streams := 0, buckets := [] }

/-- A section directory entry (R224). -/
structure Section where
  ty : Nat
  place : Nat
  index : Nat
  offset : Nat
  len : Nat
  execOff : Nat
  deriving DecidableEq, Repr

/-- A switch-in (R242, R247): budget, LIMIT and WINDOW, the tenant it acts for (R295), the commands to answer, and whether it
has begun; before that it waits for an install. -/
structure Switch where
  budget : Nat
  limit : Nat
  window : Nat
  tenant : Option Nat
  users : List (Nat × Nat)
  begun : Bool
  deriving DecidableEq, Repr

/-- A package on the module (R222, R223, R233): its state, what its header and directory say (`bucket` marks bucket mode, R154), its
address ranges, its templates, the slots of its contexts in order with their budget, its adapter's base digest and tenant (R245), the
requests bound to it, whether an uninstall waits for them, and its switch-in. -/
structure Pkg where
  st : PkgSt
  digest : List Byte
  kind : Nat
  bucket : Bool
  contexts : Nat
  execPages : Nat
  imagePages : Nat
  minWindow : Nat
  minLimit : Nat
  sections : List Section
  imageBase : Nat
  execBase : Nat
  keepImage : Bool
  tmpl : Tmpl
  budget : Nat
  slots : List (Nat × Nat)
  switching : Option Switch
  adapter : Option (List Byte × Nat)
  bound : Nat
  leaving : Bool
  deriving DecidableEq, Repr

/-- An install (R234 to R240): the parameter block; the package as it was before; its phase (0 waits for a turn, 1 waits for
staging frames, 2 queries, 3 fetches and expands, 4 confirms, 5 has its commit record on the way) and when the phase began;
the hints' answers with their number; the pages' sources (8192 is the own deep tier, 8193 the near tier of a STAGED image),
the pages asked for, the pages verified with LEN and CHECK, and their bytes; the decoded blocks by section, plane and number;
the sections written with offset, length and PLACE; the pages sealed; the peers that confirmed with their trays; the commands to
answer; the pages it created; the saturations of requantisation (R232); the header and directory it was begun with; and the engines
that serve the source of each page fed (R229). -/
structure Inst where
  handle : Nat
  load : Bool
  staged : Bool
  hints : List Nat
  budget : Nat
  copies : Nat
  limit : Nat
  window : Nat
  tenant : Option Nat
  peers : List Nat
  old : Option Pkg
  phase : Nat
  since : Nat
  answers : List (Nat × Nat × List Nat)
  sources : List (Nat × Nat)
  asked : List Nat
  got : List (Nat × Nat × Nat)
  image : Mem
  stored : SMap (List Byte)
  done : List Nat
  extents : List (Nat × Nat × Nat)
  sealedPages : List Nat
  confirmed : List (Nat × Nat)
  users : List (Nat × Nat)
  created : List Nat
  sat : Nat
  header : List Byte
  fed : List (Nat × List Nat)
  deriving DecidableEq, Repr

/-- What a step returns for one request (R150, R269): the token it produced and whether that token ends the sequence. -/
structure StepResult where
  slot : Nat
  token : Option Nat
  eos : Bool
  deriving DecidableEq, Repr

/-- A request (R251 to R269). `sub` is the SEQ of its submission and `qp` the queue pair it came on; `order` its place in the order of
acceptance; `accepted` the time its ACCEPTED reply left; `need` and `done` the positions of its prefill and how many are computed;
`rebuilt` those of its prefill that lie before its prompt; `produced` the tokens produced and `tokens` those committed, oldest first;
`run` the first page of its KV run, with `mapped` prompt pages and `omapped` output pages mapped; `flying` the rows it has in a
micro-batch; `cancels` the commands to answer; `member` the home and origin slot of a request taken over from another module (R351), with
its priority there in `prio`; `awaitAck` is its token that waits for TAKEOVER_ACK. -/
structure Req where
  st : ReqSt
  session : Nat
  gen : Nat
  sub : Nat
  qp : Nat
  tenant : Nat
  desc : BitVec 512
  input : List Byte
  fetching : Bool
  order : Nat
  accepted : Option Nat
  need : Nat
  done : Nat
  rebuilt : Nat
  produced : Nat
  tokens : List Nat
  ended : Bool
  lastCommit : Nat
  ttft : Option Nat
  maxTbt : Nat
  charged : Nat
  dropped : Nat
  full : Nat
  nans : Nat
  preempts : Nat
  evict : Bool
  pfxRefused : Bool
  registered : Bool
  reserved : Nat
  run : Nat
  mapped : Nat
  omapped : Nat
  flying : Option Nat
  cancels : List (Nat × Nat)
  cancelled : Bool
  holdsPfx : Bool
  holdsAdapter : Bool
  final : Final
  finalAcked : Bool
  member : Option (Nat × Nat × Nat)
  wasAdmitted : Bool
  awaitAck : Option Nat
  prio : Option Nat
  acceptJsn : Nat
  deriving DecidableEq, Repr

/-- A micro-batch in flight (R262): rows by slot, the tabulated row count it is measured under, when it entered the first die, the dies it
has passed, whether it is a replay (R100, R376), whether its step has completed and its commit is awaited, with the slots that still have
a token to commit, and the entries of the drop reports of its steps (R182): stage, request slot, choices dropped, tokens fully dropped,
NaN scores. -/
structure Flight where
  rows : List (Nat × Nat)
  key : Nat
  since : Nat
  stage : Nat
  replayed : Bool
  stepped : Bool
  commits : List Nat
  drops : List (Nat × Nat × Nat × Nat × Nat)
  deriving DecidableEq, Repr

/-- A disable in progress (R266, R267): the function, RETIRE, the deadline, the dies that have passed a boundary since,
and the commands to answer. -/
structure Disable where
  kind : FnKind
  id : Nat
  retire : Bool
  deadline : Nat
  since : Nat
  passed : List Nat
  waiters : List (Nat × Nat)
  deriving DecidableEq, Repr

/-- A request that the home holds for a failed origin, or for itself after a move (R350 to R353): its slot, session and SEQ
there, descriptor, input, the prefix positions, the committed tokens, its CANCEL, acceptance time, whether it was admitted, its
member, the INDEX up to which tokens have been written and up to which they have been placed on a ring, the INDEX of its LAST
token or 0, its final record and whether that is acknowledged, the commands to answer, the time of the last commit, and since
when tokens are held for want of a session. -/
structure TkReq where
  origin : Nat
  slot : Nat
  session : Nat
  sub : Nat
  tenant : Nat
  desc : BitVec 512
  input : List Byte
  prefixPos : Nat
  tokens : List Nat
  cancelled : Bool
  accepted : Nat
  admitted : Bool
  member : Option Nat
  delivered : Nat
  placed : Nat
  lastIndex : Nat
  final : Option (List Byte)
  acked : Bool
  cancels : List (Nat × Nat)
  lastAt : Nat
  since : Option Nat
  deriving DecidableEq, Repr

/-- What a home knows of the other modules at a takeover: by origin slot, the modules that have its model and adapter LOADED
(R351), and by module its tray and the tray's free bulk frames (R363). -/
structure Fleet where
  able : List (Nat × Nat)
  trays : List (Nat × Nat × Nat)
  deriving DecidableEq, Repr

/-- A request's state as TAKEOVER_STATE carries it (R352). -/
structure TkState where
  slot : Nat
  origin : Nat
  session : Nat
  sub : Nat
  tenant : Nat
  desc : BitVec 512
  input : List Byte
  prefixPos : Nat
  tokens : List Nat
  accepted : Nat
  admitted : Bool
  cancelled : Bool
  deriving DecidableEq, Repr

/-- ARG of EXPERT_LIST and EXPERT_RESULT (R325). -/
structure ExpertPart where
  step : Nat
  table : Nat
  lastPart : Bool
  expert : Nat
  count : Nat
  first : Nat
  total : Nat
  deriving DecidableEq, Repr

/-- An expert list at another module, or one in assembly here (R185, R327): the module, the slot whose step waits for it (die
4 for a list received), its numbers, and the entries that have arrived. -/
structure Remote where
  module : Nat
  die : Nat
  slot : Nat
  step : Nat
  table : Nat
  expert : Nat
  total : Nat
  got : Nat
  rows : List Byte
  deriving DecidableEq, Repr

/-- What the NOR holds (R428, R429): the image and configuration regions, an erased one being empty; the boot count and the last
applied configuration SEQ of the epoch; AUTO_READY; the OVERVOLT record; the ageing history, by unit; the repair history: the
last run's duration and its results by item (R457), the epoch in which a full test last passed, and the units it found faulty;
the platform root public key and the identity certificate. -/
structure Nor where
  image : List Byte
  config : List Byte
  bootCount : Nat
  lastSeq : Nat
  autoReady : Bool
  overvolt : Bool
  ages : SMap (Nat × Nat)
  pclTime : Nat
  pcl : List (Nat × Nat × Nat)
  passed : Option Nat
  found : List (Nat × Nat)
  rootKey : List Byte
  cert : List Byte
  deriving DecidableEq, Repr

def Nor.empty : Nor :=
  { image := [], config := [], bootCount := 0, lastSeq := 0, autoReady := false, overvolt := false, ages := [], pclTime := 0,
    pcl := List.replicate 5 (0, 0, 0), passed := none, found := [], rootKey := [], cert := [] }

/-- A run of the Percale test engine (R449 to R458): full or field, the session that confirmed it, the state it started from,
when it and the running item began, the points and items still to run, the first being the running one, and when an item last
ended with a fault. -/
structure PclRun where
  full : Bool
  former : Nat
  began : Nat
  itemAt : Nat
  todo : List (Nat × Nat)
  foundAt : Option Nat
  deriving DecidableEq, Repr

/-- R378: what patrol scrub finds: a complete pass, a corrected error, an uncorrectable one. -/
inductive ScrubOut where
  | passed | corrected | uncorrectable
  deriving DecidableEq, Repr

/-- R459: instructions of the test access port: BYPASS, IDCODE, an access to a register of the Percale block, and the
boundary-scan instructions of the standards. -/
inductive TapOp where
  | bypass | idcode | boundary
  | read (addr : Nat)
  | write (addr value : Nat)
  deriving DecidableEq, Repr

/-- What start-up finds (R202, R205, R332, R431, R477): the UCIe modules up on each velvet edge, the stacks trained, per channel
the DIMMs' number, size code and organisation, whether an SPD hub failed to answer, the drives with port, link, whether they
offer the format, and their contents when the module did not write them, and the rate of each host port. -/
structure Found where
  edges : List Nat
  stackBits : Nat
  dimms : List (Nat × Nat × Nat)
  sbErr : Bool
  drives : List (Nat × Nat × Nat × Bool × Option Drive)
  host : List Nat
  deriving DecidableEq, Repr

/-- R273, R275, R294: the NAKs of RC transport that the module sends: receiver not ready, invalid request, remote access error. -/
inductive RcNak where
  | notReady
  | invalidRequest
  | remoteAccess
  deriving DecidableEq, Repr

/-- What the module puts on its ports and tells its firmware. -/
inductive Out where
  /-- R142: a completion notice to a stream's thread. -/
  | notice (die stream tag : Nat) (status : EntrySt)
  /-- R213: a migration request with NOTIFY has completed. -/
  | migNotice (tag status : Nat)
  /-- R87: a load's completion with the tokens it dropped. -/
  | loaded (die slot dropped : Nat)
  /-- R128: an agent returns an access fault to the asker. -/
  | accessFault (asker : Asker) (addr : Nat)
  /-- R125: an agent serves a read. -/
  | readServed (asker : Asker) (addr len : Nat)
  /-- R125: a request forwarded over velvet to the die that owns the stack. -/
  | forwarded (die owner addr : Nat)
  /-- R158: the transfer of a group's input endpoint into a lane's port group starts. -/
  | inputStart (die slot lane : Nat) (source : BitVec 128)
  /-- R146: a fence signal leaves for another die. -/
  | fenceSignal (die counter : Nat)
  /-- A request from firmware that the module refuses, with its rule's reason. -/
  | turnedAway (what : String)
  /-- R32: a request on the window of a die that does not answer is refused with the die's state: its power state, and 4 more
  once it is retired. -/
  | windowShut (what : String) (die state : Nat)
  /-- R363: the home has module `dest` fetch copies of the shards whose preferred holder is `origin`. -/
  | shardsTo (origin dest : Nat)
  /-- R371, R375: a tile's fault message on the reserved control entries: class, die, site and slot. -/
  | unitFault (cls die y x slot : Nat)
  /-- R31, R32: the reply to a write of a register: whether it was applied, the state of a die whose window is closed, and the
  value just after it, where the path may read it. -/
  | written (path : Path) (addr : Nat) (applied : Bool) (detail : Nat) (value : Option Word)
  /-- R277, R292: a reply to a command, on a queue pair. -/
  | reply (qp session op seq status credits detail : Nat) (dup : Bool) (tag : BitVec 128) (body : List Byte)
  /-- R299: an event to a session; `seq` is its event number. -/
  | event (qp session cls seq credits detail : Nat) (tag : BitVec 128) (body : List Byte)
  /-- R298: an RDMA WRITE with immediate data of a token entry. -/
  | rdmaWrite (qp addr rkey imm : Nat) (entry : List Byte)
  /-- R296, R298: an RDMA READ as requester. -/
  | rdmaRead (qp addr rkey len : Nat)
  /-- R262: a micro-batch enters the first die of a placement, or its step is run again: rows by slot. -/
  | microBatch (pkg : Nat) (rows : List (Nat × Nat))
  /-- R394: the first four uniform draws of an output token, as FP32 codes. -/
  | draws (slot index : Nat) (words : List Nat)
  /-- R264, R162: firmware selects a slot of a die to fill or end a bubble. -/
  | select (die slot : Nat)
  /-- R154: a piece of a step in bucket mode runs in the context of a bucket: package, context index, live rows, rows and positions
  of the bucket, and whether the context has to be loaded first. -/
  | bucket (pkg ctx live rows positions : Nat) (load : Bool)
  /-- R316: a DATA flit leaves a link port, with its hop fields and CRC. -/
  | flit (port : Nat) (bytes : List Byte)
  /-- R317, R318: a NAK and a CREDIT flit leave a link port. -/
  | nak (port lseq : Nat)
  | credit (port vc count lack : Nat)
  /-- R322: an E2E flit: the highest FSEQ delivered in order, or a missing range. -/
  | e2eAck (dst vc flow fseq : Nat)
  | e2eMissing (dst vc flow first last : Nat)
  /-- R471, R469: FAULT_N changes level: `low` while it is driven. -/
  | faultN (low : Bool)
  /-- R325: a message is handed to the links. -/
  | message (dst ty ref : Nat) (arg body : List Byte)
  /-- R294: data that a host's RDMA READ returns. -/
  | hostData (qp : Nat) (bytes : List Byte)
  /-- R273, R275, R294: a NAK of RC transport leaves for a queue pair's peer. -/
  | hostNak (qp : Nat) (kind : RcNak)
  /-- R274: a congestion notification packet leaves for a queue pair's peer. -/
  | cnp (qp : Nat)
  /-- R273: a connection request is rejected. -/
  | reject
  /-- R303: an I3C write is acknowledged or refused on its value byte. -/
  | i3cAck (ok : Bool)
  /-- R459: what the test access port answers. -/
  | tap (data : Nat)
  /-- R346: the FAULT notice to the journal partner, on entering Parked after a module fault (R20). -/
  | faultNotice (partner : Nat)
  /-- R355: firmware runs a command handed back by the home again: session, SEQ, opcode. -/
  | rerun (session seq op : Nat)
  /-- R322, R323: a message completes to its issuer without delivery: unreachable or no route. -/
  | undelivered (dst ty : Nat) (noRoute : Bool)
  deriving DecidableEq, Repr

end Sys2Proof
end

