-- ==== Sys2Proof/Syntax.lean ====
section
/-!
DEFINITION. The commands of the module: one constructor per row of spec/opcode_table.json, in its order.
-/
namespace Sys2Proof

/-- A command. Numbers are checked by WellFormed and by the meanings: a unit that does not exist is refused by name. -/
inductive Instr where
  /-- WRITE_REGISTER (R478). -/
  | writeRegister (path : Path) (addr value : Nat)
  /-- COUNTER_LOW_READ (R165). -/
  | counterLowRead (path : Path) (addr : Nat)
  /-- VELVET_EDGE_LOSS (R20). -/
  | velvetEdgeLoss (e : Nat)
  /-- MMAC (R71). -/
  | mmac (die y x : Nat)
  /-- VADD (R74). -/
  | vadd (die y x : Nat)
  /-- VSUB (R74). -/
  | vsub (die y x : Nat)
  /-- VMUL (R74). -/
  | vmul (die y x : Nat)
  /-- VFMA (R74). -/
  | vfma (die y x : Nat)
  /-- VMIN (R74). -/
  | vmin (die y x : Nat)
  /-- VMAX (R74). -/
  | vmax (die y x : Nat)
  /-- VCMP (R74). -/
  | vcmp (die y x : Nat)
  /-- VSEL (R74). -/
  | vsel (die y x : Nat)
  /-- VAND (R74). -/
  | vand (die y x : Nat)
  /-- VOR (R74). -/
  | vor (die y x : Nat)
  /-- VSHL (R74). -/
  | vshl (die y x : Nat)
  /-- VSHR (R74). -/
  | vshr (die y x : Nat)
  /-- VEXP2 (R57). -/
  | vexp2 (die y x : Nat)
  /-- VRCP (R57). -/
  | vrcp (die y x : Nat)
  /-- VRSQRT (R57). -/
  | vrsqrt (die y x : Nat)
  /-- VCVT (R46). -/
  | vcvt (die y x : Nat)
  /-- VMXPK (R47). -/
  | vmxpk (die y x : Nat)
  /-- VMXUP (R74). -/
  | vmxup (die y x : Nat)
  /-- VSHUF (R74). -/
  | vshuf (die y x : Nat)
  /-- VRED (R74). -/
  | vred (die y x : Nat)
  /-- VCOMB (R75). -/
  | vcomb (die y x : Nat)
  /-- VSSEND (R76). -/
  | vssend (die y x : Nat)
  /-- VMOV (R74). -/
  | vmov (die y x : Nat)
  /-- PARAM_COMMIT (R70). -/
  | paramCommit (die y x c : Nat)
  /-- PARAM_ADOPT (R70). -/
  | paramAdopt (die y x : Nat) (vec : Bool)
  /-- TOKEN_FORWARD (R80). -/
  | tokenForward (die qid : Nat)
  /-- CREDIT_RETURN (R80). -/
  | creditReturn (die qid c : Nat)
  /-- CTX_LOAD (R87). -/
  | ctxLoad (die st : Nat) (img : CtxImage)
  /-- CONTEXT_LOAD_COMPLETE (R87). -/
  | contextLoadComplete (die c : Nat) (ue : Bool)
  /-- RESET_ONLY_LOAD (R88). -/
  | resetOnlyLoad (die st : Nat)
  /-- CTX_SELECT (R89). -/
  | ctxSelect (die st : Nat)
  /-- CONTEXT_SWITCH_CYCLE (R89). -/
  | contextSwitchCycle (die : Nat)
  /-- DIE_POWER_DOWN (R91). -/
  | diePowerDown (die : Nat) (a3 : Bool)
  /-- SPILL_START (R93). -/
  | spillStart (die qid c : Nat)
  /-- SPILL_REFILL (R93). -/
  | spillRefill (die qid c : Nat)
  /-- WATCHDOG_FREEZE (R99). -/
  | watchdogFreeze (die : Nat)
  /-- FREEZE_MESSAGE (R99). -/
  | freezeMessage (die : Nat) (replica : Option Nat)
  /-- SCAN (R103). -/
  | scan (die st : Nat)
  /-- SCAN_OUT (R106). -/
  | scanOut (die : Nat) (ue : Bool)
  /-- SCAN_IN (R107). -/
  | scanIn (die : Nat) (ue : Bool)
  /-- SCAN_COMPLETE (R103). -/
  | scanComplete (die : Nat)
  /-- AG_DESCRIPTOR_ISSUE (R111). -/
  | agDescriptorIssue (die y x a : Nat)
  /-- AG_READ (R113). -/
  | agRead (die y x a : Nat)
  /-- AG_WRITE (R113). -/
  | agWrite (die y x a : Nat)
  /-- AG_FILL (R113). -/
  | agFill (die y x a : Nat)
  /-- SCATTER_ACC (R117). -/
  | scatterAcc (die y x a : Nat)
  /-- SCATTER_PLANE (R118). -/
  | scatterPlane (die y x a : Nat)
  /-- DESCRIPTOR_COMPLETE (R111). -/
  | descriptorComplete (die y x a : Nat)
  /-- AGENT_READ (R125). -/
  | agentRead (die k a n : Nat) (who : Asker)
  /-- AGENT_READ_RESUME (R128). -/
  | agentReadResume (die k : Nat)
  /-- AGENT_WRITE (R128). -/
  | agentWrite (die k a : Nat) (data : List Byte) (who : Asker)
  /-- WC_READ (R130). -/
  | wcRead (die strip a n : Nat) (who : Asker)
  /-- WC_FILL_COMPLETE (R130). -/
  | wcFillComplete (die strip a : Nat)
  /-- FLUSH (R134). -/
  | flush (die : Nat)
  /-- NOP (R141). -/
  | nop (die st : Nat)
  /-- PARAM_UPDATE (R144). -/
  | paramUpdate (die st : Nat)
  /-- WRITE_WORD (R141). -/
  | writeWord (die st : Nat)
  /-- DMA (R141). -/
  | dma (die st : Nat)
  /-- DMA_COMPLETE (R141). -/
  | dmaComplete (die st idx : Nat)
  /-- PREFETCH (R148). -/
  | prefetch (die st : Nat)
  /-- PREFETCH_COMPLETE (R148). -/
  | prefetchComplete (die st idx : Nat)
  /-- PF_RELEASE (R148). -/
  | pfRelease (die st : Nat)
  /-- LOOKAHEAD_ISSUE (R147). -/
  | lookaheadIssue (die st : Nat)
  /-- DISPATCH (R156). -/
  | dispatch (die st : Nat)
  /-- GROUP (R157). -/
  | group (die st : Nat)
  /-- GROUP_ASSIGN (R158). -/
  | groupAssign (die c : Nat)
  /-- GROUP_COMPLETE (R159). -/
  | groupComplete (die qid : Nat)
  /-- DISPATCH_COMPLETE (R159). -/
  | dispatchComplete (die c : Nat)
  /-- FENCE (R146). -/
  | fence (die st : Nat)
  /-- FENCE_WAIT_MET (R146). -/
  | fenceWaitMet (die st : Nat)
  /-- FENCE_SIGNAL (R146). -/
  | fenceSignal (src die : Nat)
  /-- SUMMARY_WAIT (R161). -/
  | summaryWait (die st : Nat)
  /-- SUMMARY_WAIT_MET (R161). -/
  | summaryWaitMet (die m : Nat)
  /-- SUMMARY_MESSAGE (R161). -/
  | summaryMessage (die qid : Nat)
  /-- COUNTER_READ (R165). -/
  | counterRead (die st : Nat)
  /-- STEP (R150). -/
  | step (die st : Nat)
  /-- STEP_COMPLETE (R150). -/
  | stepComplete (die st : Nat) (results : List StepResult)
  /-- IDLE_STEP_BOUNDARY (R150). -/
  | idleStepBoundary (die : Nat)
  /-- STEP_DEADLINE (R151). -/
  | stepDeadline (die st : Nat)
  /-- STREAM_TAIL_ADVANCE (R137). -/
  | streamTailAdvance (die st p : Nat) (es : List (BitVec 512))
  /-- START (R166). -/
  | start (die st : Nat)
  /-- STOP (R166). -/
  | stop (die st : Nat)
  /-- ABORT (R166). -/
  | abort (die st : Nat)
  /-- POP (R166). -/
  | pop (die m : Nat)
  /-- IDLE_NOTICE (R162). -/
  | idleNotice (die : Nat)
  /-- LOCKSTEP_MISMATCH (R136). -/
  | lockstepMismatch (die pair : Nat) (replica : Option Nat)
  /-- SERGE_PAIR_REJOIN (R136). -/
  | sergePairRejoin (die pair : Nat)
  /-- ROUTER_HEADER (R171). -/
  | routerHeader (die : Nat)
  /-- ROUTER_SELECTION (R174). -/
  | routerSelection (die : Nat)
  /-- ROUTER_CAPACITY (R177). -/
  | routerCapacity (die : Nat)
  /-- ROUTER_LISTS (R180). -/
  | routerLists (die : Nat)
  /-- EXPERT_LIST (R185). -/
  | expertList (src : Nat) (p : ExpertPart) (body data : List Byte)
  /-- EXPERT_RESULT (R185). -/
  | expertResult (src : Nat) (p : ExpertPart) (body : List Byte) (dataQ tagQ : Nat)
  /-- MAP (R197). -/
  | map (req : BitVec 256)
  /-- SEAL (R198). -/
  | seal (req : BitVec 256)
  /-- SEAL_FINISH (R198). -/
  | sealFinish (pn : Nat)
  /-- FREE (R199). -/
  | free (req : BitVec 256)
  /-- FREE_RELEASE (R199). -/
  | freeRelease (pn : Nat)
  /-- PROMOTE (R208). -/
  | promote (req : BitVec 256)
  /-- PROMOTION_COMPLETE (R200): `part` is the engine and the page whose part of a transfer it has done (R203). -/
  | promotionComplete (part : Nat × Nat) (ok : Bool)
  /-- DEMOTE (R209). -/
  | demote (req : BitVec 256)
  /-- SET_PLACE (R213). -/
  | setPlace (req : BitVec 256)
  /-- DROP (R213). -/
  | drop (req : BitVec 256)
  /-- PLACEMENT_DEMOTION (R210). -/
  | placementDemotion
  /-- BULK_TO_DEEP_COPY (R209). -/
  | bulkToDeepCopy
  /-- ACCESS_EPOCH (R210). -/
  | accessEpoch
  /-- DDR_CHANNEL_FAIL (R219). -/
  | ddrChannelFail (ch : Nat)
  /-- DRIVE_FAIL (R219). -/
  | driveFail (d : Nat)
  /-- STACK_RETIRE (R220). -/
  | stackRetire (k : Nat)
  /-- DEEP_CATALOGUE_SCAN (R206). -/
  | deepCatalogueScan
  /-- INSTALL (R235). -/
  | install (p : Pkt) (header : List Byte)
  /-- QUERY_TIMEOUT (R236). -/
  | queryTimeout (h : Nat)
  /-- TAFFETA_BLOCK_DECODE (R227). -/
  | taffetaBlockDecode (e h idx plane b : Nat)
  /-- STAGE_FRAMES_TIMEOUT (R238). -/
  | stageFramesTimeout (h : Nat)
  /-- CONFIRM_TIMEOUT (R239). -/
  | confirmTimeout (h : Nat)
  /-- INSTALL_COMMIT (R240). -/
  | installCommit (h : Nat) (t : Tmpl)
  /-- SWITCH_IN (R242). -/
  | switchIn (p : Pkt)
  /-- SWITCH_IN_LOADED (R242). -/
  | switchInLoaded (h : Nat) (refused : Bool)
  /-- UNINSTALL (R244). -/
  | uninstall (p : Pkt)
  /-- TENANT_REFILL (R255): `dies` come first at this tick's idle boundaries (R150). -/
  | tenantRefill (dies : List Nat)
  /-- LEVEL (R255). -/
  | level (t v : Nat)
  /-- STEWARD_TAKEOVER (R250). -/
  | stewardTakeover
  /-- DRAIN_DEADLINE (R266). -/
  | drainDeadline (k : FnKind) (id : Nat) (replica : Option Nat)
  /-- DISABLE_COMPLETE (R266). -/
  | disableComplete (k : FnKind) (id : Nat)
  /-- OPEN (R279). -/
  | openSession (p : Pkt)
  /-- OPEN_CONFIRM (R279). -/
  | openConfirm (p : Pkt)
  /-- OPEN_TIMEOUT (R279). -/
  | openTimeout (idx : Nat)
  /-- ATTACH (R280). -/
  | attach (p : Pkt)
  /-- CLOSE (R280). -/
  | close (p : Pkt)
  /-- SESSION_HOLD_EXPIRY (R280). -/
  | sessionHoldExpiry (idx : Nat)
  /-- HEARTBEAT (R287). -/
  | heartbeat (p : Pkt)
  /-- CLAIM (R286). -/
  | claim (p : Pkt)
  /-- HANDOVER (R288). -/
  | handover (p : Pkt)
  /-- RELEASE (R288). -/
  | release (p : Pkt)
  /-- SET_LEASE (R288). -/
  | setLease (p : Pkt)
  /-- LEASE_WARN (R287). -/
  | leaseWarn
  /-- LEASE_EXPIRY (R287). -/
  | leaseExpiry
  /-- SEAL_CONFIG (R291). -/
  | sealConfig (p : Pkt)
  /-- SET_TENANT_WINDOW (R293). -/
  | setTenantWindow (p : Pkt)
  /-- SET_MEM_WINDOW (R294). -/
  | setMemWindow (p : Pkt)
  /-- SET_CTX_OWNER (R295). -/
  | setCtxOwner (p : Pkt)
  /-- SET_PKG_GROUP (R293). -/
  | setPkgGroup (p : Pkt)
  /-- PROTECTION_APPLIED (R289). -/
  | protectionApplied
  /-- STAGE_MAP (R291). -/
  | stageMap (p : Pkt)
  /-- STAGE_SEAL (R291). -/
  | stageSeal (p : Pkt)
  /-- ADOPT_DRIVE (R205). -/
  | adoptDrive (p : Pkt)
  /-- SUBMIT (R296). -/
  | submit (p : Pkt)
  /-- INPUT_FETCH_COMPLETE (R296). -/
  | inputFetchComplete (slot : Nat) (data : Option (List Byte))
  /-- CANCEL (R265). -/
  | cancel (p : Pkt)
  /-- PREFIX_RELEASE (R261). -/
  | prefixRelease (p : Pkt)
  /-- REG_DELIVERY (R297). -/
  | regDelivery (p : Pkt) (count : Nat)
  /-- FINAL_READ (R291). -/
  | finalRead (p : Pkt)
  /-- DISABLE (R266). -/
  | disable (p : Pkt)
  /-- ENABLE (R291). -/
  | enable (p : Pkt)
  /-- REG_READ (R291). -/
  | regRead (p : Pkt)
  /-- REG_WRITE (R31). -/
  | regWrite (p : Pkt)
  /-- ATTEST (R446). -/
  | attest (p : Pkt)
  /-- EVENT_CFG (R299). -/
  | eventCfg (p : Pkt)
  /-- MALFORMED_PACKET (R277). -/
  | malformedPacket (magic version op : Nat) (p : Pkt)
  /-- UNKNOWN_OP (R291). -/
  | unknownOp (op : Nat) (p : Pkt)
  /-- SEQGAP_TIMEOUT (R283). -/
  | seqgapTimeout (idx seq : Nat)
  /-- CM_CONNECT (R273). -/
  | cmConnect (q port : Nat)
  /-- QP_ERROR (R280). -/
  | qpError (q : Nat)
  /-- HOST_RDMA_ACCESS (R294). -/
  | hostRdmaAccess (q rkey addr n : Nat) (data : Option (List Byte))
  /-- TOKEN_DELIVERY (R298). -/
  | tokenDelivery (idx ring : Nat)
  /-- CONSUMER_COUNT_READ (R298). -/
  | consumerCountRead (idx ring count : Nat)
  /-- FINAL_EVENT (R300). -/
  | finalEvent (origin : Option Nat) (slot : Nat)
  /-- FINAL_RECORD_EXPIRY (R300). -/
  | finalRecordExpiry
  /-- ERROR_EVENT_WINDOW (R383). -/
  | errorEventWindow (power : Bool) (idx cls : Nat)
  /-- PFC_PAUSE (R274). -/
  | pfcPause (p prio : Nat) (on : Bool)
  /-- PFC_STORM (R274). -/
  | pfcStorm (p : Nat)
  /-- CNP_RECEIVE (R274). -/
  | cnpReceive (q : Nat)
  /-- RATE_RECOVERY (R274). -/
  | rateRecovery (q : Nat)
  /-- I3C_WRITE (R303). -/
  | i3cWrite (addr : Nat) (value : Option Nat)
  /-- LINK_TRAINING (R313). -/
  | linkTraining (p : Nat) (q : Partner)
  /-- TRAINING_TIMEOUT (R313). -/
  | trainingTimeout (p : Nat)
  /-- LOSS_OF_SIGNAL (R315). -/
  | lossOfSignal (p : Nat)
  /-- RETRAIN (R315). -/
  | retrain (p : Nat)
  /-- ENABLE_PORT (R331). -/
  | enablePort (p : Nat) (en : Bool)
  /-- NAK_RECEIVE (R317). -/
  | nakReceive (p lseq : Nat)
  /-- REPLAY_TIMEOUT (R317). -/
  | replayTimeout (p : Nat)
  /-- CREDIT_RECEIVE (R318). -/
  | creditReceive (p vc n lack : Nat)
  /-- DATA_FLIT_RECEIVE (R320). -/
  | dataFlitReceive (p : Nat) (raw : List Byte)
  /-- E2E_ACK_TIMER (R322). -/
  | e2eAckTimer (src vc flow : Nat)
  /-- REORDER_TIMEOUT (R322). -/
  | reorderTimeout (src vc flow : Nat)
  /-- E2E_RECEIVE (R322). -/
  | e2eReceive (dst vc flow : Nat) (ack : Option Nat) (missing : Option (Nat × Nat))
  /-- E2E_DEAD (R322). -/
  | e2eDead (m : Nat) (able : List (Nat × Nat))
  /-- PROBE (R322). -/
  | probe (m : Nat) (inbound reset : Bool) (time : Nat)
  /-- PROBE_REPLY (R322). -/
  | probeReply (m : Nat)
  /-- NOROUTE_TIMEOUT (R323). -/
  | norouteTimeout (dst : Nat)
  /-- ROUTE (R319). -/
  | route (m primary alt : Nat)
  /-- PAGE_QUERY (R326). -/
  | pageQuery (src ref : Nat) (digest : List Byte) (first count : Nat)
  /-- PAGE_ANSWER (R236). -/
  | pageAnswer (src h : Nat) (digest : List Byte) (first : Nat) (held : List Bool)
  /-- PAGE_FETCH (R326). -/
  | pageFetch (src ref : Nat) (digest : List Byte) (first count : Nat)
  /-- PAGE_DATA (R237). -/
  | pageData (src h q check : Nat) (data : List Byte)
  /-- PAGE_REFUSE (R237). -/
  | pageRefuse (src h q : Nat)
  /-- CONFIRM_REQ (R326). -/
  | confirmReq (src ref : Nat) (digest : List Byte)
  /-- CONFIRM (R239). -/
  | confirm (src h tray : Nat) (digest : List Byte) (st : Nat) (allPages : Bool)
  /-- MALFORMED_MSG (R325). -/
  | malformedMsg (src ty : Nat)
  /-- VELVET_REPLAY (R307). -/
  | velvetReplay (e j n : Nat)
  /-- UCIE_RETRAIN (R307). -/
  | ucieRetrain (e j : Nat) (ok : Bool)
  /-- JRNL_RECORDS (R338). -/
  | jrnlRecords (src : Nat) (recs : List JRec)
  /-- JRNL_ACK (R340). -/
  | jrnlAck (src jsn free : Nat) (fleet : Fleet)
  /-- JRNL_HEARTBEAT (R346). -/
  | jrnlHeartbeat (src : Nat)
  /-- JOURNAL_BATCH (R342). -/
  | journalBatch
  /-- JOURNAL_HB_TIMER (R346). -/
  | journalHbTimer
  /-- PARTNER_TIMEOUT (R346). -/
  | partnerTimeout (able : List (Nat × Nat))
  /-- FAULT_NOTICE (R346). -/
  | faultNotice (src : Nat) (able : List (Nat × Nat))
  /-- PAIR_REQ (R347). -/
  | pairReq (src old jsn : Nat)
  /-- PAIR_RETRY (R347). -/
  | pairRetry
  /-- PAIR_GRANT (R347). -/
  | pairGrant (src granted size : Nat) (fleet : Fleet)
  /-- FENCE_OUT (R349). -/
  | fenceOut (src home : Nat)
  /-- RESYNC_DATA (R347). -/
  | resyncData (src : Nat) (recs : List JRec) (open' : List (Nat × Nat × Nat))
  /-- TAKEOVER_ASSIGN (R351). -/
  | takeoverAssign (src o oslot prio : Nat)
  /-- TAKEOVER_STATE (R352). -/
  | takeoverState (src : Nat) (t : TkState)
  /-- TAKEOVER_TOKEN (R353). -/
  | takeoverToken (src o oslot index tok : Nat) (last : Bool)
  /-- TAKEOVER_ACK (R353). -/
  | takeoverAck (src o oslot index : Nat)
  /-- TAKEOVER_CTRL (R351). -/
  | takeoverCtrl (src o oslot action : Nat) (rec' : List Byte) (able : List (Nat × Nat))
  /-- SPARE_CALL (R364). -/
  | spareCall (src failed tray : Nat)
  /-- SHARD_UPDATE (R336). -/
  | shardUpdate (src m h0 h1 h2 count : Nat) (inSvc : Bool) (able : List (Nat × Nat))
  /-- REJOIN_EXPIRY (R355). -/
  | rejoinExpiry
  /-- COLUMN_REPAIR (R359). -/
  | columnRepair (die y x : Nat)
  /-- FAULT_MESSAGE (R375). -/
  | faultMessage (cls kind source die : Nat) (slot : Option Nat) (addr step detail : Nat) (replica : Option Nat)
  /-- KNOWN_ANSWER_TEST (R372). -/
  | knownAnswerTest (die kind source : Nat) (ok : Bool) (first last : Nat)
  /-- PATROL_SCRUB (R378). -/
  | patrolScrub (mem : Nat) (out : ScrubOut) (kind source die addr : Nat)
  /-- AUTO_RETIRE (R380). -/
  | autoRetire (r : Nat)
  /-- ERR_RD (R386). -/
  | errRd (path : Path) (ring seq : Nat)
  /-- ERR_OVF_VALID (R380). -/
  | errOvfValid (path : Path) (ring half bits : Nat)
  /-- TIMING_PREP (R399). -/
  | timingPrep (path : Path) (dies : Nat)
  /-- DRAIN (R407). -/
  | drain (path : Path)
  /-- PARK (R407). -/
  | park (path : Path)
  /-- READY (R431). -/
  | ready (path : Path)
  /-- KEEPALIVE (R407). -/
  | keepalive (path : Path)
  /-- CAP_W (R410). -/
  | capW (path : Path) (watts : Nat)
  /-- POWER_CONTROL_TICK (R412). -/
  | powerControlTick (w volts amps inlet outlet : Nat) (railsOff : Bool)
  /-- VOLTAGE_SLEW_COMPLETE (R411). -/
  | voltageSlewComplete (d : Nat)
  /-- CAPDROP_N (R415). -/
  | capdropN (low : Bool)
  /-- PFW_N (R416). -/
  | pfwN
  /-- UNDERVOLT (R416). -/
  | undervolt
  /-- OVERVOLT (R471). -/
  | overvolt
  /-- OVERVOLT_CLEAR (R477). -/
  | overvoltClear (path : Path)
  /-- SAFE_CAP (R417). -/
  | safeCap
  /-- THROTTLE (R419). -/
  | throttle (d tj : Nat)
  /-- THERM_DRAIN (R420). -/
  | thermDrain (d tj : Nat)
  /-- THERM_TRIP (R421). -/
  | thermTrip (d tj : Nat)
  /-- SENSOR_FAIL (R422). -/
  | sensorFail (d k tj : Nat)
  /-- REGULATOR_FAULT (R422). -/
  | regulatorFault (d : Nat)
  /-- REFCLK_FAIL (R402). -/
  | refclkFail
  /-- A1_ENTRY (R404). -/
  | a1Entry (die : Nat)
  /-- A1_WAKE (R404). -/
  | a1Wake (die : Nat) (held : Option Nat) (cycles : Nat)
  /-- AGEING (R424). -/
  | ageing (unit days low90 : Nat)
  /-- POWER_APPLIED (R430). -/
  | powerApplied
  /-- SOFT_START_END (R430). -/
  | softStartEnd
  /-- POWER_LOSS (R407). -/
  | powerLoss
  /-- STARTUP_PHASE_COMPLETE (R431). -/
  | startupPhaseComplete (disagree misread : Bool) (found : Found)
  /-- BOOT_LIMIT (R434). -/
  | bootLimit
  /-- RECOVERY (R435). -/
  | recovery (got : Option (List Byte)) (whole disagree : Bool)
  /-- RECOVERY_RETRY (R435). -/
  | recoveryRetry
  /-- KEY (R432). -/
  | key (path : Path) (value : Nat)
  /-- MOD_RST_N (R469). -/
  | modRstN
  /-- STAGE_START (R436). -/
  | stageStart (path : Path) (kind : Nat)
  /-- STAGE_FETCH_COMPLETE (R436). -/
  | stageFetchComplete (got : Option (List Byte))
  /-- STAGE_FETCH_TIMEOUT (R436). -/
  | stageFetchTimeout
  /-- COMMIT (R437). -/
  | commit (path : Path) (kind : Nat)
  /-- COMMIT_COMPLETE (R437). -/
  | commitComplete (back : List Byte)
  /-- STAGE_ABORT (R448). -/
  | stageAbort (path : Path) (kind : Nat)
  /-- LC_REQUEST (R444). -/
  | lcRequest (path : Path) (target : Nat)
  /-- LC_CONFIRM (R444). -/
  | lcConfirm (path : Path) (value : Nat)
  /-- LC_ARM_EXPIRY (R444). -/
  | lcArmExpiry
  /-- TAP_INSTRUCTION (R459). -/
  | tapInstruction (op : TapOp)
  /-- TAP_LIFECYCLE_TRANSITION (R443). -/
  | tapLifecycleTransition (target : LcSt) (key cert : List Byte)
  /-- PCL_START (R452). -/
  | pclStart (path : Path) (full : Bool) (point : Nat)
  /-- PCL_CONFIRM (R453). -/
  | pclConfirm (path : Path) (value : Nat)
  /-- PCL_ARM_EXPIRY (R453). -/
  | pclArmExpiry
  /-- PCL_ABORT (R458). -/
  | pclAbort (path : Path)
  /-- PCL_ITEM_COMPLETE (R456). -/
  | pclItemComplete (faults : List Nat)
  /-- PCL_ITEM_TIMEOUT (R451): `found` is the faulty units found and the unit under test. -/
  | pclItemTimeout (found : List Nat × Nat)
  /-- PCL_LIMIT_ABORT (R454). -/
  | pclLimitAbort (why : Nat)
  /-- MOD_RST_N_RELEASE (R469). -/
  | modRstNRelease
  /-- PFW_N_RELEASE (R416). -/
  | pfwNRelease
  /-- REFCLK_RESTORED (R402). -/
  | refclkRestored
  /-- DIE_WAKE (R403). -/
  | dieWake (die : Nat)
  /-- PAGE_TRANSFER_COMPLETE (R203): `part` is the engine and the page. -/
  | pageTransferComplete (part : Nat × Nat) (ok : Bool)
  /-- LANE_FAILURE (R330). -/
  | laneFailure (p : Nat)
  /-- HOST_PORT_LINK_CHANGE (R272). -/
  | hostPortLinkChange (p : Nat) (up : Bool) (rate : Nat)
  /-- JOURNAL_HOLD_RECORD (R343). -/
  | journalHoldRecord
  /-- REFUSED_BATCH_ACK (R343). -/
  | refusedBatchAck
  deriving DecidableEq, Repr

end Sys2Proof
end

