-- ==== Sys2Proof/Config.lean ====
section
/-!
DEFINITION. What an implementation fixes and the values the manual leaves open. An `opaque` constant has no
body, so nothing can be proved about its value (notes/assumptions/2).
-/
namespace Sys2Proof.Config

/-- A value the manual leaves open: the n-th one used, of any width. -/
opaque freeNat : Nat → Nat

/-! What the fuses, the provisioning area and the boot ROM of one module hold (R429, R428, R446). -/

opaque serial : BitVec 64
/-- Digests of the firmware signing keys in slots 0 to 3. -/
opaque fwKey : Nat → BitVec 256
/-- The platform root public key and the identity certificate. -/
opaque rootKey : BitVec 512
opaque idCert : BitVec 1536
/-- The identity seed of each epoch. -/
opaque seed : Nat → BitVec 256
/-- M_ROM of a stepping, and M_LC of the life-cycle words, the RETIRED pair, the floor and the revocation fuses: how the digests'
inputs are laid out is not given. -/
opaque romDigest : Nat → BitVec 256
opaque lcDigest : List Nat → Nat → Nat → Nat → BitVec 256

end Sys2Proof.Config
end

