-- ==== Sys2Proof/Machine/Crypto.lean ====
section
/-!
DEFINITION. The checks and digests the manual names: CRC-32C, SM3 and HMAC-SM3, computed as their standards
define them (PRESUMED, notes/assumptions/14). SM2 stands in Machine/Sm2.lean.
-/
namespace Sys2Proof.Machine

/-- One bit step of the reflected CRC-32C polynomial. -/
def crcBit (c : BitVec 32) : BitVec 32 :=
  if c.getLsbD 0 then (c >>> 1) ^^^ 0x82F63B78#32 else c >>> 1
def crcByte (c : BitVec 32) (b : Byte) : BitVec 32 :=
  let x := c ^^^ b.zeroExtend 32
  crcBit (crcBit (crcBit (crcBit (crcBit (crcBit (crcBit (crcBit x)))))))
/-- CRC-32C of a byte string. -/
def crc32c (bs : List Byte) : BitVec 32 := ~~~ (bs.foldl crcByte 0xFFFFFFFF#32)

namespace Sm3

def p0 (x : BitVec 32) : BitVec 32 := x ^^^ x.rotateLeft 9 ^^^ x.rotateLeft 17
def p1 (x : BitVec 32) : BitVec 32 := x ^^^ x.rotateLeft 15 ^^^ x.rotateLeft 23
def iv : List (BitVec 32) :=
  [0x7380166f, 0x4914b2b9, 0x172442d7, 0xda8a0600, 0xa96f30bc, 0x163138aa, 0xe38dee4d, 0xb0fb0e4e]

/-- Message words 16 to 67 from the 16 of the block, newest first. -/
def expand : Nat → List (BitVec 32) → List (BitVec 32)
  | 0, w => w
  | n + 1, w =>
    let g := fun k => w.getD (k - 1) 0
    expand n ((p1 (g 16 ^^^ g 9 ^^^ (g 3).rotateLeft 15) ^^^ (g 13).rotateLeft 7 ^^^ g 6) :: w)

def round (w : List (BitVec 32)) (v : List (BitVec 32)) (j : Nat) : List (BitVec 32) :=
  match v with
  | [a, b, c, d, e, f, g, h] =>
    let t : BitVec 32 := if j < 16 then 0x79cc4519 else 0x7a879d8a
    let ss1 := (a.rotateLeft 12 + e + t.rotateLeft (j % 32)).rotateLeft 7
    let ss2 := ss1 ^^^ a.rotateLeft 12
    let ff := if j < 16 then a ^^^ b ^^^ c else (a &&& b) ||| (a &&& c) ||| (b &&& c)
    let gg := if j < 16 then e ^^^ f ^^^ g else (e &&& f) ||| (~~~ e &&& g)
    let wj := w.getD j 0
    let tt1 := ff + d + ss2 + (wj ^^^ w.getD (j + 4) 0)
    let tt2 := gg + h + ss1 + wj
    [tt1, a, b.rotateLeft 9, c, p0 tt2, e, f.rotateLeft 19, g]
  | _ => v

def compress (v : List (BitVec 32)) (block : List (BitVec 32)) : List (BitVec 32) :=
  let w := (expand 52 block.reverse).reverse
  List.zipWith (· ^^^ ·) v ((List.range 64).foldl (round w) v)

/-- Big-endian words of a byte string. -/
def words : List Byte → List (BitVec 32)
  | a :: b :: c :: d :: r => (a ++ b ++ c ++ d) :: words r
  | _ => []
def pad (bs : List Byte) : List Byte :=
  let n := bs.length
  let z := (119 - n % 64) % 64
  bs ++ [0x80#8] ++ List.replicate z 0#8 ++
    (List.range 8).map (fun i => BitVec.ofNat 8 (8 * n / 256 ^ (7 - i)))
/-- Blocks of 16 words. -/
def blocks : Nat → List (BitVec 32) → List (List (BitVec 32))
  | 0, _ => []
  | n + 1, ws => if ws.isEmpty then [] else ws.take 16 :: blocks n (ws.drop 16)

/-- The 32-byte SM3 digest of a byte string. -/
def digest (bs : List Byte) : List Byte :=
  let ws := words (pad bs)
  let v := (blocks (ws.length / 16 + 1) ws).foldl compress iv
  v.flatMap (fun x => [x.extractLsb' 24 8, x.extractLsb' 16 8, x.extractLsb' 8 8, x.extractLsb' 0 8])

end Sm3

/-- HMAC-SM3 under a key of at most 64 bytes. -/
def hmacSm3 (key msg : List Byte) : List Byte :=
  let k := key ++ List.replicate (64 - key.length) 0#8
  Sm3.digest (k.map (· ^^^ 0x5c#8) ++ Sm3.digest (k.map (· ^^^ 0x36#8) ++ msg))

/-- The `n` low bytes of a number, lowest first (R12), and back. -/
def toBytes (v : Nat) : Nat → List Byte
  | 0 => []
  | n + 1 => BitVec.ofNat 8 v :: toBytes (v / 256) n
def ofBytes : List Byte → Nat
  | [] => 0
  | b :: bs => b.toNat + 256 * ofBytes bs
/-- `n` bytes from `o`, as a number; bytes that are missing read as 0. -/
def at' (bs : List Byte) (o n : Nat) : Nat := ofBytes ((bs.drop o).take n)

end Sys2Proof.Machine
end

