-- ==== Sys2Proof/Machine/Maps.lean ====
section
/-!
DEFINITION. Sparse tables (`SMap`): reading, writing and removing an entry. Keys stay strictly rising, and a
write of the value that an unlisted key reads as removes the entry, so equal tables are equal lists.
-/
namespace Sys2Proof.Machine.SMap

variable {α : Type}

/-- The entry of a key, if one is listed. -/
def find? : SMap α → Nat → Option α
  | [], _ => none
  | (k', v) :: m, k => if k' = k then some v else find? m k

/-- The value of a key: its entry, or `d`. -/
def getD (m : SMap α) (k : Nat) (d : α) : α := (find? m k).getD d

/-- Remove a key. -/
def erase : SMap α → Nat → SMap α
  | [], _ => []
  | (k', v) :: m, k => if k' = k then erase m k else (k', v) :: erase m k

/-- Set a key, keeping the keys rising. -/
def insert : SMap α → Nat → α → SMap α
  | [], k, a => [(k, a)]
  | (k', v) :: m, k, a =>
    if k' = k then (k, a) :: m else if k < k' then (k, a) :: (k', v) :: m else (k', v) :: insert m k a

/-- Set a key whose unlisted value is `d`. -/
def setD [DecidableEq α] (m : SMap α) (k : Nat) (a d : α) : SMap α :=
  if a = d then erase m k else insert m k a

/-- Every key above `b`, and strictly rising. -/
def risesFrom : Nat → SMap α → Bool
  | _, [] => true
  | b, (k, _) :: m => decide (b ≤ k) && risesFrom (k + 1) m

/-- The canonical form: keys strictly rising, no entry equal to the unlisted value `d`. -/
def wfB [DecidableEq α] (d : α) (m : SMap α) : Bool :=
  risesFrom 0 m && m.all (fun e => decide (e.2 ≠ d))

/-- Keys strictly rising. -/
def sorted (m : SMap α) : Bool := risesFrom 0 m

/-- The first listed entry that satisfies `p`. -/
def findIdx? (m : SMap α) (p : Nat → α → Bool) : Option (Nat × α) := m.find? (fun e => p e.1 e.2)

/-- The number of listed entries that satisfy `p`. -/
def countIf (m : SMap α) (p : Nat → α → Bool) : Nat := (m.filter (fun e => p e.1 e.2)).length

/-- Keep the listed entries that satisfy `p`. -/
def keep (m : SMap α) (p : Nat → α → Bool) : SMap α := m.filter (fun e => p e.1 e.2)

/-- Change every listed entry; `f` keeps entries from the unlisted value. -/
def mapVals (m : SMap α) (f : Nat → α → α) : SMap α := m.map (fun e => (e.1, f e.1 e.2))

end Sys2Proof.Machine.SMap

/-- The canonical form of a byte memory whose unlisted bytes read as zero (notes/assumptions/30). -/
def Sys2Proof.Machine.Memory.wf (m : Sys2Proof.Mem) : Bool := Sys2Proof.Machine.SMap.wfB 0 m
end

