-- ==== Sys2Proof/Machine/Regs.lean ====
section
/-!
DEFINITION. The management register space (R28, R29): every register the chapters' tables define, with its
block offset, stride, count, width in words, fields, access codes (R15), reset values and the ranges its field
descriptions accept. A field whose reset is "Fused", "Site" or "From NOR" is written 0 here: it is a view,
computed in Machine/Views.lean from the fuses, the site or the NOR.
-/
namespace Sys2Proof.Machine

/-- Every register, by the name the manual gives it. -/
inductive Reg where
  | MODULE_IDENT
  | MODULE_NUM
  | MODULE_STATE
  | DIE_STATUS
  | ARRAY_SHAPE
  | STACKS_ONLINE
  | TILE_NUM_FLAGS
  | TILE_ID
  | TILE_STATUS
  | TILE_PART
  | TILE_PARAM_CTRL
  | TILE_MBUSY
  | TILE_VBUSY
  | TILE_PARAM
  | TILE_PARAM_ACTIVE
  | TILE_PROG
  | DIE_ACTIVE
  | CTX_SLOT
  | WDOG_CFG
  | WDOG_COUNT
  | FREEZE_INFO
  | FREEZE_CYCLE_LO
  | FREEZE_CYCLE_HI
  | STALL_SET
  | SPILL_TOKENS
  | SPILL_CYCLES
  | SCAN_STATUS
  | QUEUE_QUERY
  | QUEUE_PART
  | QUEUE_OCC
  | MT_STATUS
  | MT_PART
  | MT_EVENTS
  | MT_SA_COUNT
  | SW_ROUTE
  | MT_DESC
  | EDGE_SRC_N
  | EDGE_SRC_S
  | MEA_STATUS
  | MEA_TMISS
  | WC_CFG
  | WC_HITS
  | WC_MISSES
  | WC_MERGES
  | WC_PINNED
  | MT_NUM_FLAGS
  | DISPATCH_GROUPS
  | DISPATCH_SKIPPED
  | DISPATCH_MISS_CYCLES
  | SERGE_STATUS
  | STREAM_CTRL
  | STREAM_STATUS
  | STREAM_HEAD
  | STREAM_TAIL
  | STREAM_RESULT
  | IDLE_CFG
  | DISPATCH_STATUS
  | FENCE_CNT
  | MBOX_STATUS
  | MBOX_HEAD
  | STREAM_STALL
  | DIE_STALL
  | ROUTER_STATUS
  | ROUTER_INVOCATIONS
  | ROUTER_ACCEPTED
  | ROUTER_DROPPED
  | ROUTER_NAN
  | ROUTER_COUNT
  | ROUTER_TABLE
  | ROUTER_NUM_FLAGS
  | MIG_RING
  | MIG_CPL
  | MIG_PROMOTED
  | MIG_DEMOTED
  | MIG_BYTES
  | TIER_UE
  | MAS_CFG
  | NEAR_FRAMES
  | NEAR_FREE
  | NEAR_RETIRED
  | POOL_WATER
  | POOL_MIN
  | BULK_CFG
  | BULK_FRAMES
  | BULK_FREE
  | DEEP_DRIVE
  | DEEP_EXTENTS
  | DEEP_FREE
  | MIG_SIZE
  | MIG_TAIL
  | MIG_HEAD
  | MIG_CPL_TAIL
  | MIG_CPL_HEAD
  | MIG_STATUS
  | BUDGET
  | FETCH_NEIGHBOUR
  | FETCH_DEEP
  | FETCH_RETRY
  | TAFFETA_STATUS
  | TAFFETA_IN_BYTES
  | TAFFETA_OUT_BYTES
  | TAFFETA_ERRS
  | INSTALL_CFG
  | INSTALL_STATUS
  | TAFFETA_DIE_STATUS
  | TAFFETA_DIE_IN_BYTES
  | TAFFETA_DIE_OUT_BYTES
  | TAFFETA_DIE_ERRS
  | STEWARD_STATUS
  | SLOTS_IN_USE
  | SLOTS_WAITING
  | PREFIX_HANDLES
  | SCHED_CFG
  | SCHED_CHUNK
  | CLASS_CFG
  | CLASS_STATS
  | SLOT_QUERY
  | SLOT_INFO
  | TENANT_BUDGET
  | HOST_PORT_CFG
  | HOST_PORT_STATUS
  | OWNER_STATUS
  | LEASE_CFG
  | LEASE_LEFT
  | SESSION_CFG
  | SESSION_QUERY
  | SESSION_INFO
  | MALFORMED
  | AUTH_FAIL
  | SEQGAP_CNT
  | BADSESSION_CNT
  | TENANT_WINDOW
  | MEM_WINDOW
  | CTX_OWNER
  | PKG_GROUP
  | LINK_PLAN
  | GROUP_CFG
  | LINK_TIMING
  | LINK_VC_CFG
  | LINK_PORT_CFG
  | LINK_PORT_STATUS
  | LINK_CNT
  | LINK_MOD_CNT
  | VELVET_EDGE
  | VELVET_RETRY
  | ROUTE
  | JOURNAL_JSN
  | JOURNAL_ACKED
  | FAIL_DOMAIN
  | JOURNAL_PARTNER
  | JOURNAL_ALT
  | TAKEOVER_SET
  | SPARE_LIST
  | JOURNAL_TIMING
  | JOURNAL_STATUS
  | TAKEOVER_STATUS
  | SERVICE_CFG
  | REPAIR_STATUS
  | FAILOVER_CNT
  | HOLDER_ALT
  | ERR_CFG
  | ERR_RING_STATUS
  | ERR_WR
  | ERR_RD
  | ERR_QUERY
  | ERR_DATA
  | ERR_OVF_VALID
  | ERR_LAST
  | SCRUB_AGE
  | ERR_COUNT
  | NUM_MODE
  | SLOT_MODE
  | TIME_REPEAT
  | TIMING_PREP
  | DET_CYCLES
  | PKG_MODE
  | PWR_CTRL
  | PWR_DRAIN_MS
  | PWR_CAP
  | PWR_CAP_CFG
  | PWR_LIMIT
  | PWR_INPUT
  | PWR_CURRENT
  | PWR_STATUS
  | DIE_OPPOINT
  | A1_CFG
  | THERM_CFG
  | THERM_TEMP
  | COOLANT
  | MGMT_WATCH
  | AGE_CFG
  | AGEING
  | BOOT_STATUS
  | BOOT_CFG
  | COLD_RESET
  | BOOT_COUNT
  | FW_VERSION
  | FW_SVN
  | LC_STATE
  | LC_REQUEST
  | LC_CONFIRM
  | SERIAL_LO
  | SERIAL_HI
  | CFG_SEQ
  | STAGE_CTRL
  | STAGE_STATUS
  | STAGE_SERVER
  | STAGE_FILE
  | PCL_CTRL
  | PCL_SELECT
  | PCL_CONFIRM
  | PCL_STATUS
  | PCL_TIME
  | PCL_RESULT
  | PIN_STATUS
  deriving DecidableEq, Repr

/-- Where a register stands (R29): the global blocks, a compute-die window, or the window of a compute tile,
of a memory tile, or of either. -/
inductive Space where
  | glob | die | ct | mt | tile
  deriving DecidableEq, Repr

/-- The window of one access: the global blocks, die `n`'s window, or the window of tile (y, x) of die `n`. -/
inductive Win where
  | glob
  | die (n : Nat)
  | tile (n y x : Nat)
  deriving DecidableEq, Repr

/-- R15: field access codes. -/
inductive Acc where
  | ro | rw | wo | w1c | rwl
  deriving DecidableEq, Repr

/-- A field: bits `lo` to `lo + w - 1` of a register. -/
structure Fld where
  reg : Reg
  lo : Nat
  w : Nat
  deriving DecidableEq, Repr

/-- A field with its access code, reset value, and the least and greatest value its description accepts. -/
structure FieldDef where
  lo : Nat
  w : Nat
  acc : Acc
  reset : Nat
  least : Nat
  most : Nat
  deriving DecidableEq, Repr

/-- A register: its space, base offset, distance between instances, number of instances, width in 32-bit words
and fields. Bits no field covers are reserved (R16). -/
structure RegDef where
  space : Space
  base : Nat
  stride : Nat
  count : Nat
  words : Nat
  fields : List FieldDef
  deriving DecidableEq, Repr

/-- The register tables of the manual, R33 to R477. -/
def Reg.info : Reg → RegDef
  | .MODULE_IDENT => -- R33
    ⟨.glob, 0x0, 0, 1, 1, [⟨0, 8, .ro, 0, 0, 255⟩,
      ⟨8, 8, .ro, 0, 0, 255⟩,
      ⟨16, 16, .ro, 3332, 0, 65535⟩]⟩
  | .MODULE_NUM => -- R33
    ⟨.glob, 0x4, 0, 1, 1, [⟨0, 13, .rwl, 0, 0, 8191⟩,
      ⟨31, 1, .rwl, 0, 0, 1⟩]⟩
  | .MODULE_STATE => -- R33
    ⟨.glob, 0x8, 0, 1, 1, [⟨0, 4, .ro, 1, 0, 15⟩]⟩
  | .DIE_STATUS => -- R33
    ⟨.glob, 0xC, 0, 1, 1, [⟨0, 2, .ro, 3, 0, 3⟩,
      ⟨4, 2, .ro, 3, 0, 3⟩,
      ⟨8, 2, .ro, 3, 0, 3⟩,
      ⟨12, 2, .ro, 3, 0, 3⟩,
      ⟨2, 1, .ro, 0, 0, 1⟩,
      ⟨6, 1, .ro, 0, 0, 1⟩,
      ⟨10, 1, .ro, 0, 0, 1⟩,
      ⟨14, 1, .ro, 0, 0, 1⟩,
      ⟨3, 1, .ro, 0, 0, 1⟩,
      ⟨7, 1, .ro, 0, 0, 1⟩,
      ⟨11, 1, .ro, 0, 0, 1⟩,
      ⟨15, 1, .ro, 0, 0, 1⟩]⟩
  | .ARRAY_SHAPE => -- R33
    ⟨.glob, 0x10, 0, 1, 1, [⟨0, 5, .ro, 24, 0, 31⟩,
      ⟨5, 5, .ro, 0, 0, 31⟩,
      ⟨16, 4, .ro, 0, 0, 15⟩,
      ⟨20, 4, .ro, 0, 0, 15⟩,
      ⟨24, 4, .ro, 0, 0, 15⟩,
      ⟨28, 4, .ro, 0, 0, 15⟩]⟩
  | .STACKS_ONLINE => -- R33
    ⟨.glob, 0x14, 0, 1, 1, [⟨0, 20, .ro, 0, 0, 2 ^ 20 - 1⟩]⟩
  | .TILE_NUM_FLAGS => -- R58
    ⟨.ct, 0x100, 4, 4, 1, [⟨0, 1, .w1c, 0, 0, 1⟩,
      ⟨1, 1, .w1c, 0, 0, 1⟩,
      ⟨2, 1, .w1c, 0, 0, 1⟩,
      ⟨3, 1, .w1c, 0, 0, 1⟩,
      ⟨4, 1, .w1c, 0, 0, 1⟩,
      ⟨5, 1, .w1c, 0, 0, 1⟩,
      ⟨6, 1, .w1c, 0, 0, 1⟩]⟩
  | .TILE_ID => -- R78
    ⟨.tile, 0x0, 0, 1, 1, [⟨0, 5, .ro, 0, 0, 31⟩,
      ⟨5, 5, .ro, 0, 0, 31⟩,
      ⟨10, 5, .ro, 0, 0, 31⟩,
      ⟨15, 1, .ro, 0, 0, 1⟩]⟩
  | .TILE_STATUS => -- R78
    ⟨.ct, 0x4, 0, 1, 1, [⟨0, 2, .ro, 0, 0, 3⟩,
      ⟨2, 6, .ro, 0, 0, 63⟩,
      ⟨8, 6, .ro, 0, 0, 63⟩,
      ⟨14, 1, .w1c, 0, 0, 1⟩,
      ⟨16, 6, .ro, 0, 0, 63⟩,
      ⟨22, 2, .ro, 0, 0, 3⟩]⟩
  | .TILE_PART => -- R78
    ⟨.ct, 0x10, 4, 4, 1, [⟨0, 4, .ro, 0, 0, 15⟩,
      ⟨4, 5, .ro, 0, 0, 31⟩,
      ⟨12, 4, .ro, 0, 0, 15⟩,
      ⟨16, 5, .ro, 0, 0, 31⟩]⟩
  | .TILE_PARAM_CTRL => -- R78
    ⟨.ct, 0x20, 4, 4, 1, [⟨0, 1, .wo, 0, 0, 1⟩,
      ⟨1, 1, .ro, 0, 0, 1⟩]⟩
  | .TILE_MBUSY => -- R78
    ⟨.ct, 0x40, 4, 4, 1, [⟨0, 32, .ro, 0, 0, 2 ^ 32 - 1⟩]⟩
  | .TILE_VBUSY => -- R78
    ⟨.ct, 0x50, 4, 4, 1, [⟨0, 32, .ro, 0, 0, 2 ^ 32 - 1⟩]⟩
  | .TILE_PARAM => -- R78
    ⟨.ct, 0x200, 4, 64, 1, [⟨0, 32, .rw, 0, 0, 2 ^ 32 - 1⟩]⟩
  | .TILE_PARAM_ACTIVE => -- R78
    ⟨.ct, 0x300, 4, 64, 1, [⟨0, 32, .ro, 0, 0, 2 ^ 32 - 1⟩]⟩
  | .TILE_PROG => -- R78
    ⟨.ct, 0x800, 8, 256, 2, [⟨0, 64, .ro, 0, 0, 2 ^ 64 - 1⟩]⟩
  | .DIE_ACTIVE => -- R108
    ⟨.die, 0x0, 0, 1, 1, [⟨0, 2, .ro, 0, 0, 3⟩,
      ⟨2, 1, .ro, 1, 0, 1⟩,
      ⟨16, 16, .ro, 0, 0, 65535⟩]⟩
  | .CTX_SLOT => -- R108
    ⟨.die, 0x10, 4, 4, 1, [⟨0, 3, .ro, 0, 0, 7⟩,
      ⟨3, 1, .ro, 0, 0, 1⟩,
      ⟨4, 1, .ro, 0, 0, 1⟩,
      ⟨8, 24, .ro, 0, 0, 2 ^ 24 - 1⟩]⟩
  | .WDOG_CFG => -- R108
    ⟨.die, 0x40, 0, 1, 1, [⟨0, 5, .rw, 16, 10, 24⟩]⟩
  | .WDOG_COUNT => -- R108
    ⟨.die, 0x50, 4, 4, 1, [⟨0, 25, .ro, 0, 0, 2 ^ 25 - 1⟩]⟩
  | .FREEZE_INFO => -- R108
    ⟨.die, 0x100, 0, 1, 1, [⟨0, 2, .ro, 0, 0, 3⟩,
      ⟨2, 2, .ro, 0, 0, 3⟩,
      ⟨4, 1, .w1c, 0, 0, 1⟩,
      ⟨16, 10, .ro, 0, 0, 1023⟩]⟩
  | .FREEZE_CYCLE_LO => -- R108
    ⟨.die, 0x104, 0, 1, 1, [⟨0, 32, .ro, 0, 0, 2 ^ 32 - 1⟩]⟩
  | .FREEZE_CYCLE_HI => -- R108
    ⟨.die, 0x108, 0, 1, 1, [⟨0, 32, .ro, 0, 0, 2 ^ 32 - 1⟩]⟩
  | .STALL_SET => -- R108
    ⟨.die, 0x110, 4, 16, 1, [⟨0, 16, .ro, 0, 0, 65535⟩,
      ⟨31, 1, .ro, 0, 0, 1⟩]⟩
  | .SPILL_TOKENS => -- R108
    ⟨.die, 0x200, 4, 4, 1, [⟨0, 32, .ro, 0, 0, 2 ^ 32 - 1⟩]⟩
  | .SPILL_CYCLES => -- R108
    ⟨.die, 0x210, 4, 4, 1, [⟨0, 32, .ro, 0, 0, 2 ^ 32 - 1⟩]⟩
  | .SCAN_STATUS => -- R108
    ⟨.die, 0x300, 0, 1, 1, [⟨0, 1, .ro, 0, 0, 1⟩,
      ⟨1, 1, .ro, 0, 0, 1⟩,
      ⟨2, 2, .ro, 0, 0, 3⟩,
      ⟨4, 3, .ro, 0, 0, 7⟩,
      ⟨8, 24, .ro, 0, 0, 2 ^ 24 - 1⟩]⟩
  | .QUEUE_QUERY => -- R108
    ⟨.die, 0x400, 0, 1, 1, [⟨0, 16, .rw, 0, 0, 65535⟩]⟩
  | .QUEUE_PART => -- R108
    ⟨.die, 0x410, 4, 4, 1, [⟨0, 6, .ro, 0, 0, 63⟩,
      ⟨6, 7, .ro, 0, 0, 127⟩,
      ⟨13, 2, .ro, 0, 0, 3⟩,
      ⟨15, 5, .ro, 0, 0, 31⟩,
      ⟨20, 7, .ro, 0, 0, 127⟩]⟩
  | .QUEUE_OCC => -- R108
    ⟨.die, 0x420, 4, 4, 1, [⟨0, 7, .ro, 0, 0, 127⟩,
      ⟨7, 1, .ro, 0, 0, 1⟩,
      ⟨8, 17, .ro, 0, 0, 2 ^ 17 - 1⟩]⟩
  | .MT_STATUS => -- R133
    ⟨.mt, 0x4, 0, 1, 1, [⟨0, 2, .ro, 0, 0, 3⟩,
      ⟨2, 4, .ro, 0, 0, 15⟩,
      ⟨6, 1, .w1c, 0, 0, 1⟩,
      ⟨8, 2, .ro, 0, 0, 3⟩,
      ⟨10, 2, .ro, 0, 0, 3⟩,
      ⟨12, 3, .ro, 0, 0, 7⟩]⟩
  | .MT_PART => -- R133
    ⟨.mt, 0x10, 4, 4, 1, [⟨0, 7, .ro, 0, 0, 127⟩,
      ⟨7, 8, .ro, 0, 0, 255⟩]⟩
  | .MT_EVENTS => -- R133
    ⟨.mt, 0x20, 4, 4, 1, [⟨0, 8, .ro, 0, 0, 255⟩,
      ⟨8, 8, .ro, 0, 0, 255⟩,
      ⟨16, 8, .ro, 0, 0, 255⟩,
      ⟨24, 8, .ro, 0, 0, 255⟩]⟩
  | .MT_SA_COUNT => -- R133
    ⟨.mt, 0x40, 4, 4, 1, [⟨0, 32, .ro, 0, 0, 2 ^ 32 - 1⟩]⟩
  | .SW_ROUTE => -- R133
    ⟨.tile, 0x400, 4, 128, 1, [⟨0, 4, .ro, 0, 0, 15⟩,
      ⟨4, 1, .ro, 0, 0, 1⟩,
      ⟨5, 3, .ro, 0, 0, 7⟩,
      ⟨8, 1, .ro, 0, 0, 1⟩]⟩
  | .MT_DESC => -- R133
    ⟨.mt, 0x1000, 64, 64, 16, [⟨0, 512, .ro, 0, 0, 2 ^ 512 - 1⟩]⟩
  | .EDGE_SRC_N => -- R134
    ⟨.die, 0x300000, 4, 4, 1, [⟨0, 24, .ro, 0, 0, 2 ^ 24 - 1⟩]⟩
  | .EDGE_SRC_S => -- R134
    ⟨.die, 0x300010, 4, 4, 1, [⟨0, 24, .ro, 0, 0, 2 ^ 24 - 1⟩]⟩
  | .MEA_STATUS => -- R134
    ⟨.die, 0x300100, 4, 10, 1, [⟨0, 1, .ro, 0, 0, 1⟩,
      ⟨1, 1, .ro, 0, 0, 1⟩,
      ⟨2, 5, .ro, 0, 0, 31⟩]⟩
  | .MEA_TMISS => -- R134
    ⟨.die, 0x300140, 4, 10, 1, [⟨0, 32, .ro, 0, 0, 2 ^ 32 - 1⟩]⟩
  | .WC_CFG => -- R134
    ⟨.die, 0x300200, 0, 1, 1, [⟨0, 1, .rw, 1, 0, 1⟩,
      ⟨1, 1, .wo, 0, 0, 1⟩]⟩
  | .WC_HITS => -- R134
    ⟨.die, 0x300210, 0, 1, 1, [⟨0, 32, .ro, 0, 0, 2 ^ 32 - 1⟩]⟩
  | .WC_MISSES => -- R134
    ⟨.die, 0x300214, 0, 1, 1, [⟨0, 32, .ro, 0, 0, 2 ^ 32 - 1⟩]⟩
  | .WC_MERGES => -- R134
    ⟨.die, 0x300218, 0, 1, 1, [⟨0, 32, .ro, 0, 0, 2 ^ 32 - 1⟩]⟩
  | .WC_PINNED => -- R134
    ⟨.die, 0x300220, 0, 1, 1, [⟨0, 18, .ro, 0, 0, 2 ^ 18 - 1⟩]⟩
  | .MT_NUM_FLAGS => -- R133
    ⟨.mt, 0x100, 4, 4, 1, [⟨0, 1, .w1c, 0, 0, 1⟩,
      ⟨1, 1, .w1c, 0, 0, 1⟩,
      ⟨2, 1, .w1c, 0, 0, 1⟩,
      ⟨3, 1, .w1c, 0, 0, 1⟩,
      ⟨4, 1, .w1c, 0, 0, 1⟩,
      ⟨5, 1, .w1c, 0, 0, 1⟩,
      ⟨6, 1, .w1c, 0, 0, 1⟩]⟩
  | .DISPATCH_GROUPS => -- R166
    ⟨.die, 0x100620, 0, 1, 2, [⟨0, 64, .ro, 0, 0, 2 ^ 64 - 1⟩]⟩
  | .DISPATCH_SKIPPED => -- R166
    ⟨.die, 0x100628, 0, 1, 2, [⟨0, 64, .ro, 0, 0, 2 ^ 64 - 1⟩]⟩
  | .DISPATCH_MISS_CYCLES => -- R166
    ⟨.die, 0x100630, 0, 1, 2, [⟨0, 64, .ro, 0, 0, 2 ^ 64 - 1⟩]⟩
  | .SERGE_STATUS => -- R166
    ⟨.die, 0x100000, 4, 8, 1, [⟨0, 1, .ro, 0, 0, 1⟩,
      ⟨1, 1, .ro, 0, 0, 1⟩,
      ⟨2, 8, .ro, 0, 0, 255⟩]⟩
  | .STREAM_CTRL => -- R166
    ⟨.die, 0x100100, 4, 64, 1, [⟨0, 1, .wo, 0, 0, 1⟩,
      ⟨1, 1, .wo, 0, 0, 1⟩,
      ⟨2, 1, .wo, 0, 0, 1⟩,
      ⟨3, 1, .rw, 0, 0, 1⟩,
      ⟨4, 8, .rw, 64, 0, 255⟩]⟩
  | .STREAM_STATUS => -- R166
    ⟨.die, 0x100200, 4, 64, 1, [⟨0, 3, .ro, 3, 0, 7⟩,
      ⟨3, 3, .ro, 0, 0, 7⟩,
      ⟨6, 10, .ro, 0, 0, 1023⟩,
      ⟨16, 4, .ro, 0, 0, 15⟩,
      ⟨20, 12, .ro, 0, 0, 4095⟩]⟩
  | .STREAM_HEAD => -- R166
    ⟨.die, 0x100300, 4, 64, 1, [⟨0, 10, .ro, 0, 0, 1023⟩,
      ⟨10, 1, .ro, 0, 0, 1⟩]⟩
  | .STREAM_TAIL => -- R166
    ⟨.die, 0x100400, 4, 64, 1, [⟨0, 10, .rw, 0, 0, 1023⟩,
      ⟨10, 1, .rw, 0, 0, 1⟩]⟩
  | .STREAM_RESULT => -- R166
    ⟨.die, 0x100500, 4, 64, 1, [⟨0, 32, .rw, 0, 0, 2 ^ 32 - 1⟩]⟩
  | .IDLE_CFG => -- R166
    ⟨.die, 0x100600, 0, 1, 1, [⟨0, 5, .rw, 10, 6, 20⟩]⟩
  | .DISPATCH_STATUS => -- R166
    ⟨.die, 0x100610, 4, 4, 1, [⟨0, 1, .ro, 0, 0, 1⟩,
      ⟨1, 6, .ro, 0, 0, 63⟩,
      ⟨7, 11, .ro, 0, 0, 2047⟩,
      ⟨18, 11, .ro, 0, 0, 2047⟩]⟩
  | .FENCE_CNT => -- R166
    ⟨.die, 0x100800, 4, 64, 1, [⟨0, 32, .rw, 0, 0, 2 ^ 32 - 1⟩]⟩
  | .MBOX_STATUS => -- R166
    ⟨.die, 0x100C00, 4, 256, 1, [⟨0, 5, .ro, 0, 0, 31⟩,
      ⟨5, 2, .ro, 0, 0, 3⟩,
      ⟨7, 1, .wo, 0, 0, 1⟩]⟩
  | .MBOX_HEAD => -- R166
    ⟨.die, 0x101000, 4, 256, 1, [⟨0, 32, .ro, 0, 0, 2 ^ 32 - 1⟩]⟩
  | .STREAM_STALL => -- R166
    ⟨.die, 0x102000, 8, 1024, 2, [⟨0, 64, .ro, 0, 0, 2 ^ 64 - 1⟩]⟩
  | .DIE_STALL => -- R166
    ⟨.die, 0x104000, 8, 12, 2, [⟨0, 64, .ro, 0, 0, 2 ^ 64 - 1⟩]⟩
  | .ROUTER_STATUS => -- R189
    ⟨.die, 0x200000, 0, 1, 1, [⟨0, 4, .ro, 0, 0, 15⟩,
      ⟨4, 1, .ro, 0, 0, 1⟩,
      ⟨5, 2, .ro, 0, 0, 3⟩,
      ⟨7, 1, .w1c, 0, 0, 1⟩,
      ⟨8, 3, .ro, 0, 0, 7⟩,
      ⟨11, 2, .ro, 0, 0, 3⟩]⟩
  | .ROUTER_INVOCATIONS => -- R189
    ⟨.die, 0x200010, 4, 4, 1, [⟨0, 32, .ro, 0, 0, 2 ^ 32 - 1⟩]⟩
  | .ROUTER_ACCEPTED => -- R189
    ⟨.die, 0x200020, 4, 4, 1, [⟨0, 32, .ro, 0, 0, 2 ^ 32 - 1⟩]⟩
  | .ROUTER_DROPPED => -- R189
    ⟨.die, 0x200030, 4, 4, 1, [⟨0, 32, .ro, 0, 0, 2 ^ 32 - 1⟩]⟩
  | .ROUTER_NAN => -- R189
    ⟨.die, 0x200040, 4, 4, 1, [⟨0, 32, .ro, 0, 0, 2 ^ 32 - 1⟩]⟩
  | .ROUTER_COUNT => -- R189
    ⟨.die, 0x204000, 4, 4096, 1, [⟨0, 16, .ro, 0, 0, 65535⟩,
      ⟨16, 16, .ro, 0, 0, 65535⟩]⟩
  | .ROUTER_TABLE => -- R189
    ⟨.die, 0x210000, 16384, 32, 4096, [⟨0, 131072, .ro, 0, 0, 2 ^ 131072 - 1⟩]⟩
  | .ROUTER_NUM_FLAGS => -- R189
    ⟨.die, 0x200100, 4, 4, 1, [⟨0, 1, .w1c, 0, 0, 1⟩,
      ⟨1, 1, .w1c, 0, 0, 1⟩,
      ⟨2, 1, .w1c, 0, 0, 1⟩,
      ⟨3, 1, .w1c, 0, 0, 1⟩,
      ⟨4, 1, .w1c, 0, 0, 1⟩,
      ⟨5, 1, .w1c, 0, 0, 1⟩,
      ⟨6, 1, .w1c, 0, 0, 1⟩]⟩
  | .MIG_RING => -- R221
    ⟨.glob, 0x500200, 0, 1, 2, [⟨0, 64, .rw, 0, 0, 2 ^ 64 - 1⟩]⟩
  | .MIG_CPL => -- R221
    ⟨.glob, 0x500208, 0, 1, 2, [⟨0, 64, .rw, 0, 0, 2 ^ 64 - 1⟩]⟩
  | .MIG_PROMOTED => -- R221
    ⟨.glob, 0x500300, 0, 1, 2, [⟨0, 64, .ro, 0, 0, 2 ^ 64 - 1⟩]⟩
  | .MIG_DEMOTED => -- R221
    ⟨.glob, 0x500308, 0, 1, 2, [⟨0, 64, .ro, 0, 0, 2 ^ 64 - 1⟩]⟩
  | .MIG_BYTES => -- R221
    ⟨.glob, 0x500310, 0, 1, 2, [⟨0, 64, .ro, 0, 0, 2 ^ 64 - 1⟩]⟩
  | .TIER_UE => -- R221
    ⟨.glob, 0x500318, 0, 1, 2, [⟨0, 64, .ro, 0, 0, 2 ^ 64 - 1⟩]⟩
  | .MAS_CFG => -- R221
    ⟨.glob, 0x500000, 0, 1, 1, [⟨0, 16, .rw, 1000, 1, 65535⟩,
      ⟨16, 1, .rw, 1, 0, 1⟩]⟩
  | .NEAR_FRAMES => -- R221
    ⟨.glob, 0x500010, 0, 1, 1, [⟨0, 20, .ro, 0, 0, 2 ^ 20 - 1⟩]⟩
  | .NEAR_FREE => -- R221
    ⟨.glob, 0x500014, 0, 1, 1, [⟨0, 20, .ro, 0, 0, 2 ^ 20 - 1⟩]⟩
  | .NEAR_RETIRED => -- R221
    ⟨.glob, 0x500018, 0, 1, 1, [⟨0, 20, .ro, 0, 0, 2 ^ 20 - 1⟩]⟩
  | .POOL_WATER => -- R221
    ⟨.glob, 0x500020, 0, 1, 1, [⟨0, 16, .rw, 2048, 0, 65535⟩,
      ⟨16, 16, .rw, 4096, 0, 65535⟩]⟩
  | .POOL_MIN => -- R221
    ⟨.glob, 0x500024, 0, 1, 1, [⟨0, 20, .rwl, 4096, 0, 2 ^ 20 - 1⟩]⟩
  | .BULK_CFG => -- R221
    ⟨.glob, 0x500040, 0, 1, 1, [⟨0, 2, .ro, 0, 0, 3⟩,
      ⟨2, 1, .ro, 0, 0, 1⟩,
      ⟨3, 2, .ro, 0, 0, 3⟩,
      ⟨5, 1, .ro, 0, 0, 1⟩]⟩
  | .BULK_FRAMES => -- R221
    ⟨.glob, 0x500044, 0, 1, 1, [⟨0, 22, .ro, 0, 0, 2 ^ 22 - 1⟩]⟩
  | .BULK_FREE => -- R221
    ⟨.glob, 0x500048, 0, 1, 1, [⟨0, 22, .ro, 0, 0, 2 ^ 22 - 1⟩]⟩
  | .DEEP_DRIVE => -- R221
    ⟨.glob, 0x500080, 4, 16, 1, [⟨0, 3, .ro, 0, 0, 7⟩,
      ⟨3, 1, .ro, 0, 0, 1⟩,
      ⟨4, 3, .ro, 0, 0, 7⟩]⟩
  | .DEEP_EXTENTS => -- R221
    ⟨.glob, 0x5000C0, 4, 16, 1, [⟨0, 25, .ro, 0, 0, 2 ^ 25 - 1⟩]⟩
  | .DEEP_FREE => -- R221
    ⟨.glob, 0x500100, 4, 16, 1, [⟨0, 25, .ro, 0, 0, 2 ^ 25 - 1⟩]⟩
  | .MIG_SIZE => -- R221
    ⟨.glob, 0x500210, 0, 1, 1, [⟨0, 4, .rw, 10, 6, 14⟩]⟩
  | .MIG_TAIL => -- R221
    ⟨.glob, 0x500214, 0, 1, 1, [⟨0, 15, .rw, 0, 0, 32767⟩]⟩
  | .MIG_HEAD => -- R221
    ⟨.glob, 0x500218, 0, 1, 1, [⟨0, 15, .ro, 0, 0, 32767⟩]⟩
  | .MIG_CPL_TAIL => -- R221
    ⟨.glob, 0x50021C, 0, 1, 1, [⟨0, 15, .ro, 0, 0, 32767⟩]⟩
  | .MIG_CPL_HEAD => -- R221
    ⟨.glob, 0x500220, 0, 1, 1, [⟨0, 15, .rw, 0, 0, 32767⟩]⟩
  | .MIG_STATUS => -- R221
    ⟨.glob, 0x500240, 4, 2, 1, [⟨0, 1, .ro, 0, 0, 1⟩,
      ⟨1, 8, .ro, 0, 0, 255⟩,
      ⟨9, 8, .ro, 0, 0, 255⟩,
      ⟨17, 8, .ro, 0, 0, 255⟩,
      ⟨25, 7, .ro, 0, 0, 127⟩]⟩
  | .BUDGET => -- R221
    ⟨.glob, 0x501000, 16, 1024, 4, [⟨0, 20, .ro, 0, 0, 2 ^ 20 - 1⟩,
      ⟨32, 16, .ro, 0, 0, 65535⟩,
      ⟨64, 20, .ro, 0, 0, 2 ^ 20 - 1⟩,
      ⟨96, 16, .ro, 0, 0, 65535⟩]⟩
  | .FETCH_NEIGHBOUR => -- R248
    ⟨.glob, 0x600200, 0, 1, 2, [⟨0, 64, .ro, 0, 0, 2 ^ 64 - 1⟩]⟩
  | .FETCH_DEEP => -- R248
    ⟨.glob, 0x600208, 0, 1, 2, [⟨0, 64, .ro, 0, 0, 2 ^ 64 - 1⟩]⟩
  | .FETCH_RETRY => -- R248
    ⟨.glob, 0x600210, 0, 1, 2, [⟨0, 64, .ro, 0, 0, 2 ^ 64 - 1⟩]⟩
  | .TAFFETA_STATUS => -- R248
    ⟨.glob, 0x600000, 4, 2, 1, [⟨0, 1, .ro, 0, 0, 1⟩,
      ⟨1, 7, .ro, 0, 0, 127⟩,
      ⟨8, 1, .ro, 0, 0, 1⟩]⟩
  | .TAFFETA_IN_BYTES => -- R248
    ⟨.glob, 0x600010, 8, 2, 2, [⟨0, 64, .ro, 0, 0, 2 ^ 64 - 1⟩]⟩
  | .TAFFETA_OUT_BYTES => -- R248
    ⟨.glob, 0x600020, 8, 2, 2, [⟨0, 64, .ro, 0, 0, 2 ^ 64 - 1⟩]⟩
  | .TAFFETA_ERRS => -- R248
    ⟨.glob, 0x600030, 4, 2, 1, [⟨0, 16, .ro, 0, 0, 65535⟩,
      ⟨16, 16, .ro, 0, 0, 65535⟩]⟩
  | .INSTALL_CFG => -- R248
    ⟨.glob, 0x600100, 0, 1, 1, [⟨0, 12, .rw, 256, 2, 4095⟩,
      ⟨12, 8, .rw, 20, 1, 255⟩]⟩
  | .INSTALL_STATUS => -- R248
    ⟨.glob, 0x600104, 0, 1, 1, [⟨0, 4, .ro, 0, 0, 15⟩,
      ⟨4, 14, .ro, 0, 0, 16383⟩,
      ⟨18, 10, .ro, 0, 0, 1023⟩]⟩
  | .TAFFETA_DIE_STATUS => -- R249
    ⟨.die, 0x400000, 0, 1, 1, [⟨0, 1, .ro, 0, 0, 1⟩,
      ⟨1, 7, .ro, 0, 0, 127⟩,
      ⟨8, 1, .ro, 0, 0, 1⟩]⟩
  | .TAFFETA_DIE_IN_BYTES => -- R249
    ⟨.die, 0x400010, 0, 1, 2, [⟨0, 64, .ro, 0, 0, 2 ^ 64 - 1⟩]⟩
  | .TAFFETA_DIE_OUT_BYTES => -- R249
    ⟨.die, 0x400018, 0, 1, 2, [⟨0, 64, .ro, 0, 0, 2 ^ 64 - 1⟩]⟩
  | .TAFFETA_DIE_ERRS => -- R249
    ⟨.die, 0x400020, 0, 1, 1, [⟨0, 16, .ro, 0, 0, 65535⟩,
      ⟨16, 16, .ro, 0, 0, 65535⟩]⟩
  | .STEWARD_STATUS => -- R271
    ⟨.glob, 0x100000, 0, 1, 1, [⟨0, 1, .ro, 0, 0, 1⟩,
      ⟨1, 1, .ro, 0, 0, 1⟩,
      ⟨16, 16, .ro, 0, 0, 65535⟩]⟩
  | .SLOTS_IN_USE => -- R271
    ⟨.glob, 0x100004, 0, 1, 1, [⟨0, 21, .ro, 0, 0, 2 ^ 21 - 1⟩]⟩
  | .SLOTS_WAITING => -- R271
    ⟨.glob, 0x100008, 0, 1, 1, [⟨0, 21, .ro, 0, 0, 2 ^ 21 - 1⟩]⟩
  | .PREFIX_HANDLES => -- R271
    ⟨.glob, 0x10000C, 0, 1, 1, [⟨0, 21, .ro, 0, 0, 2 ^ 21 - 1⟩]⟩
  | .SCHED_CFG => -- R271
    ⟨.glob, 0x100010, 0, 1, 1, [⟨0, 15, .rw, 4096, 1, 16384⟩,
      ⟨15, 1, .rw, 1, 0, 1⟩,
      ⟨16, 1, .rw, 1, 0, 1⟩,
      ⟨17, 4, .rw, 4, 0, 15⟩]⟩
  | .SCHED_CHUNK => -- R271
    ⟨.glob, 0x100014, 0, 1, 1, [⟨0, 15, .rw, 2048, 0, 32767⟩]⟩
  | .CLASS_CFG => -- R271
    ⟨.glob, 0x100100, 8, 16, 2, [⟨0, 16, .rw, 150, 1, 65535⟩,
      ⟨16, 16, .rw, 40, 1, 65535⟩,
      ⟨32, 16, .rw, 1000, 1, 65535⟩,
      ⟨48, 4, .rw, 8, 0, 15⟩,
      ⟨52, 5, .rw, 16, 0, 16⟩,
      ⟨57, 1, .rw, 0, 0, 1⟩]⟩
  | .CLASS_STATS => -- R271
    ⟨.glob, 0x100200, 16, 16, 4, [⟨0, 32, .ro, 0, 0, 2 ^ 32 - 1⟩,
      ⟨32, 32, .ro, 0, 0, 2 ^ 32 - 1⟩,
      ⟨64, 32, .ro, 0, 0, 2 ^ 32 - 1⟩,
      ⟨96, 32, .ro, 0, 0, 2 ^ 32 - 1⟩]⟩
  | .SLOT_QUERY => -- R271
    ⟨.glob, 0x100400, 0, 1, 1, [⟨0, 16, .rw, 0, 0, 65535⟩]⟩
  | .SLOT_INFO => -- R271
    ⟨.glob, 0x100410, 0, 1, 4, [⟨0, 3, .ro, 0, 0, 7⟩,
      ⟨4, 4, .ro, 0, 0, 15⟩,
      ⟨8, 12, .ro, 0, 0, 4095⟩,
      ⟨32, 16, .ro, 0, 0, 65535⟩,
      ⟨48, 16, .ro, 0, 0, 65535⟩,
      ⟨64, 32, .ro, 0, 0, 2 ^ 32 - 1⟩,
      ⟨96, 16, .ro, 0, 0, 65535⟩,
      ⟨112, 8, .ro, 0, 0, 255⟩,
      ⟨120, 4, .ro, 0, 0, 15⟩]⟩
  | .TENANT_BUDGET => -- R271
    ⟨.glob, 0x110000, 16, 4096, 4, [⟨0, 32, .rw, 0, 0, 2 ^ 32 - 1⟩,
      ⟨32, 32, .rw, 0, 0, 2 ^ 32 - 1⟩,
      ⟨64, 32, .rw, 0, 0, 2147483647⟩,
      ⟨96, 32, .rw, 0, 0, 2 ^ 32 - 1⟩]⟩
  | .HOST_PORT_CFG => -- R304
    ⟨.glob, 0x200000, 4, 4, 1, [⟨0, 2, .rw, 2, 0, 2⟩,
      ⟨2, 3, .rw, 3, 0, 7⟩,
      ⟨5, 1, .rw, 1, 0, 1⟩]⟩
  | .HOST_PORT_STATUS => -- R304
    ⟨.glob, 0x200010, 4, 4, 1, [⟨0, 1, .ro, 0, 0, 1⟩,
      ⟨1, 2, .ro, 0, 0, 3⟩,
      ⟨3, 11, .ro, 0, 0, 2047⟩,
      ⟨14, 1, .w1c, 0, 0, 1⟩]⟩
  | .OWNER_STATUS => -- R304
    ⟨.glob, 0x200100, 0, 1, 1, [⟨0, 1, .ro, 0, 0, 1⟩,
      ⟨1, 16, .ro, 0, 0, 65535⟩]⟩
  | .LEASE_CFG => -- R304
    ⟨.glob, 0x200104, 0, 1, 1, [⟨0, 16, .rw, 5000, 1000, 60000⟩]⟩
  | .LEASE_LEFT => -- R304
    ⟨.glob, 0x200108, 0, 1, 1, [⟨0, 16, .ro, 0, 0, 65535⟩]⟩
  | .SESSION_CFG => -- R304
    ⟨.glob, 0x20010C, 0, 1, 1, [⟨0, 16, .rw, 600, 1, 65535⟩,
      ⟨16, 16, .rw, 600, 1, 65535⟩]⟩
  | .SESSION_QUERY => -- R304
    ⟨.glob, 0x200110, 0, 1, 1, [⟨0, 8, .rw, 0, 0, 255⟩]⟩
  | .SESSION_INFO => -- R304
    ⟨.glob, 0x200114, 0, 1, 2, [⟨0, 2, .ro, 0, 0, 3⟩,
      ⟨2, 3, .ro, 0, 0, 7⟩,
      ⟨5, 3, .ro, 0, 0, 7⟩,
      ⟨8, 8, .ro, 0, 0, 255⟩,
      ⟨32, 32, .ro, 0, 0, 2 ^ 32 - 1⟩]⟩
  | .MALFORMED => -- R304
    ⟨.glob, 0x200120, 0, 1, 1, [⟨0, 32, .ro, 0, 0, 2 ^ 32 - 1⟩]⟩
  | .AUTH_FAIL => -- R304
    ⟨.glob, 0x200124, 0, 1, 1, [⟨0, 32, .ro, 0, 0, 2 ^ 32 - 1⟩]⟩
  | .SEQGAP_CNT => -- R304
    ⟨.glob, 0x200128, 0, 1, 1, [⟨0, 32, .ro, 0, 0, 2 ^ 32 - 1⟩]⟩
  | .BADSESSION_CNT => -- R304
    ⟨.glob, 0x20012C, 0, 1, 1, [⟨0, 32, .ro, 0, 0, 2 ^ 32 - 1⟩]⟩
  | .TENANT_WINDOW => -- R304
    ⟨.glob, 0x210000, 16, 4096, 4, [⟨0, 1, .ro, 0, 0, 1⟩,
      ⟨32, 64, .ro, 0, 0, 2 ^ 64 - 1⟩]⟩
  | .MEM_WINDOW => -- R304
    ⟨.glob, 0x220000, 32, 4096, 8, [⟨0, 1, .ro, 0, 0, 1⟩,
      ⟨1, 1, .ro, 0, 0, 1⟩,
      ⟨2, 1, .ro, 0, 0, 1⟩,
      ⟨3, 1, .ro, 0, 0, 1⟩,
      ⟨4, 12, .ro, 0, 0, 4095⟩,
      ⟨32, 32, .ro, 0, 0, 2 ^ 32 - 1⟩,
      ⟨64, 52, .ro, 0, 0, 2 ^ 52 - 1⟩,
      ⟨128, 32, .ro, 0, 0, 2 ^ 32 - 1⟩]⟩
  | .CTX_OWNER => -- R304
    ⟨.glob, 0x240000, 4, 16, 1, [⟨0, 1, .ro, 0, 0, 1⟩,
      ⟨1, 12, .ro, 0, 0, 4095⟩]⟩
  | .PKG_GROUP => -- R304
    ⟨.glob, 0x250000, 4, 16384, 1, [⟨0, 6, .ro, 0, 0, 63⟩,
      ⟨8, 6, .ro, 0, 0, 63⟩,
      ⟨16, 6, .ro, 0, 0, 63⟩,
      ⟨24, 6, .ro, 0, 0, 63⟩]⟩
  | .LINK_PLAN => -- R331
    ⟨.glob, 0x300000, 0, 1, 1, [⟨0, 3, .rwl, 1, 0, 5⟩]⟩
  | .GROUP_CFG => -- R331
    ⟨.glob, 0x300010, 4, 4, 1, [⟨0, 2, .rwl, 0, 0, 3⟩,
      ⟨2, 13, .rwl, 0, 0, 8191⟩]⟩
  | .LINK_TIMING => -- R331
    ⟨.glob, 0x300020, 0, 1, 1, [⟨0, 8, .rw, 20, 1, 255⟩,
      ⟨8, 12, .rw, 1000, 1, 4095⟩,
      ⟨20, 12, .rw, 50, 1, 4095⟩]⟩
  | .LINK_VC_CFG => -- R331
    ⟨.glob, 0x300024, 0, 1, 1, [⟨0, 4, .rw, 3, 1, 15⟩,
      ⟨4, 4, .rw, 1, 1, 15⟩]⟩
  | .LINK_PORT_CFG => -- R331
    ⟨.glob, 0x300100, 4, 32, 1, [⟨0, 1, .rw, 1, 0, 1⟩,
      ⟨1, 1, .wo, 0, 0, 1⟩]⟩
  | .LINK_PORT_STATUS => -- R331
    ⟨.glob, 0x300200, 4, 32, 1, [⟨0, 3, .ro, 0, 0, 7⟩,
      ⟨3, 3, .ro, 0, 0, 7⟩,
      ⟨6, 2, .ro, 0, 0, 3⟩,
      ⟨8, 13, .ro, 0, 0, 8191⟩,
      ⟨21, 1, .ro, 0, 0, 1⟩,
      ⟨22, 2, .ro, 0, 0, 3⟩,
      ⟨24, 8, .ro, 0, 0, 255⟩]⟩
  | .LINK_CNT => -- R331
    ⟨.glob, 0x300400, 8, 256, 2, [⟨0, 64, .ro, 0, 0, 2 ^ 64 - 1⟩]⟩
  | .LINK_MOD_CNT => -- R331
    ⟨.glob, 0x300C00, 8, 7, 2, [⟨0, 64, .ro, 0, 0, 2 ^ 64 - 1⟩]⟩
  | .VELVET_EDGE => -- R331
    ⟨.glob, 0x300D00, 4, 6, 1, [⟨0, 16, .ro, 0, 0, 65535⟩,
      ⟨16, 2, .ro, 0, 0, 3⟩,
      ⟨24, 8, .ro, 0, 0, 255⟩]⟩
  | .VELVET_RETRY => -- R331
    ⟨.glob, 0x300D40, 8, 6, 2, [⟨0, 64, .ro, 0, 0, 2 ^ 64 - 1⟩]⟩
  | .ROUTE => -- R331
    ⟨.glob, 0x310000, 8, 8192, 2, [⟨0, 32, .rw, 0, 0, 2 ^ 32 - 1⟩,
      ⟨32, 32, .rw, 0, 0, 2 ^ 32 - 1⟩]⟩
  | .JOURNAL_JSN => -- R366
    ⟨.glob, 0x400020, 0, 1, 2, [⟨0, 64, .ro, 0, 0, 2 ^ 64 - 1⟩]⟩
  | .JOURNAL_ACKED => -- R366
    ⟨.glob, 0x400028, 0, 1, 2, [⟨0, 64, .ro, 0, 0, 2 ^ 64 - 1⟩]⟩
  | .FAIL_DOMAIN => -- R366
    ⟨.glob, 0x400000, 0, 1, 1, [⟨0, 12, .rwl, 0, 0, 4095⟩,
      ⟨12, 6, .rwl, 0, 0, 63⟩]⟩
  | .JOURNAL_PARTNER => -- R366
    ⟨.glob, 0x400004, 0, 1, 1, [⟨0, 13, .rw, 0, 0, 8191⟩,
      ⟨13, 1, .rw, 0, 0, 1⟩]⟩
  | .JOURNAL_ALT => -- R366
    ⟨.glob, 0x400008, 4, 4, 1, [⟨0, 13, .rw, 0, 0, 8191⟩,
      ⟨13, 1, .rw, 0, 0, 1⟩]⟩
  | .TAKEOVER_SET => -- R366
    ⟨.glob, 0x400040, 4, 8, 1, [⟨0, 13, .rw, 0, 0, 8191⟩,
      ⟨13, 1, .rw, 0, 0, 1⟩]⟩
  | .SPARE_LIST => -- R366
    ⟨.glob, 0x4000A0, 4, 8, 1, [⟨0, 13, .rw, 0, 0, 8191⟩,
      ⟨13, 1, .rw, 0, 0, 1⟩]⟩
  | .JOURNAL_TIMING => -- R366
    ⟨.glob, 0x400018, 0, 1, 1, [⟨0, 8, .rw, 10, 1, 100⟩,
      ⟨8, 8, .rw, 10, 2, 100⟩,
      ⟨16, 16, .rw, 600, 1, 65535⟩]⟩
  | .JOURNAL_STATUS => -- R366
    ⟨.glob, 0x40001C, 0, 1, 1, [⟨0, 3, .ro, 0, 0, 7⟩,
      ⟨3, 13, .ro, 0, 0, 8191⟩,
      ⟨16, 16, .ro, 0, 0, 65535⟩]⟩
  | .TAKEOVER_STATUS => -- R366
    ⟨.glob, 0x400060, 0, 1, 1, [⟨0, 1, .ro, 0, 0, 1⟩,
      ⟨1, 13, .ro, 0, 0, 8191⟩,
      ⟨14, 17, .ro, 0, 0, 2 ^ 17 - 1⟩]⟩
  | .SERVICE_CFG => -- R366
    ⟨.glob, 0x400064, 0, 1, 1, [⟨0, 1, .rwl, 0, 0, 1⟩,
      ⟨1, 1, .rw, 0, 0, 1⟩,
      ⟨2, 3, .rwl, 2, 2, 4⟩]⟩
  | .REPAIR_STATUS => -- R366
    ⟨.glob, 0x400080, 0, 1, 1, [⟨0, 5, .ro, 0, 0, 31⟩,
      ⟨5, 3, .ro, 0, 0, 7⟩,
      ⟨8, 6, .ro, 0, 0, 63⟩,
      ⟨14, 4, .ro, 0, 0, 15⟩,
      ⟨18, 1, .ro, 0, 0, 1⟩]⟩
  | .FAILOVER_CNT => -- R366
    ⟨.glob, 0x400100, 8, 6, 2, [⟨0, 64, .ro, 0, 0, 2 ^ 64 - 1⟩]⟩
  | .HOLDER_ALT => -- R366
    ⟨.glob, 0x410000, 8, 8192, 2, [⟨0, 13, .rw, 0, 0, 8191⟩,
      ⟨13, 13, .rw, 0, 0, 8191⟩,
      ⟨26, 13, .rw, 0, 0, 8191⟩,
      ⟨39, 2, .rw, 0, 0, 3⟩,
      ⟨41, 1, .ro, 0, 0, 1⟩]⟩
  | .ERR_CFG => -- R386
    ⟨.glob, 0x40000, 0, 1, 1, [⟨0, 1, .rw, 1, 0, 1⟩]⟩
  | .ERR_RING_STATUS => -- R386
    ⟨.glob, 0x40010, 4, 5, 1, [⟨0, 13, .ro, 0, 0, 8191⟩,
      ⟨13, 1, .ro, 0, 0, 1⟩,
      ⟨14, 7, .ro, 0, 0, 127⟩]⟩
  | .ERR_WR => -- R386
    ⟨.glob, 0x40030, 4, 5, 1, [⟨0, 32, .ro, 0, 0, 2 ^ 32 - 1⟩]⟩
  | .ERR_RD => -- R386
    ⟨.glob, 0x40050, 4, 5, 1, [⟨0, 32, .rw, 0, 0, 2 ^ 32 - 1⟩]⟩
  | .ERR_QUERY => -- R386
    ⟨.glob, 0x40070, 0, 1, 1, [⟨0, 3, .rw, 0, 0, 4⟩,
      ⟨3, 1, .rw, 0, 0, 1⟩,
      ⟨4, 12, .rw, 0, 0, 4095⟩]⟩
  | .ERR_DATA => -- R386
    ⟨.glob, 0x40080, 4, 16, 1, [⟨0, 32, .ro, 0, 0, 2 ^ 32 - 1⟩]⟩
  | .ERR_OVF_VALID => -- R386
    ⟨.glob, 0x40100, 8, 5, 2, [⟨0, 64, .w1c, 0, 0, 2 ^ 64 - 1⟩]⟩
  | .ERR_LAST => -- R386
    ⟨.glob, 0x40200, 64, 5, 16, [⟨0, 512, .ro, 0, 0, 2 ^ 512 - 1⟩]⟩
  | .SCRUB_AGE => -- R386
    ⟨.glob, 0x40400, 4, 4, 1, [⟨0, 32, .ro, 0, 0, 2 ^ 32 - 1⟩]⟩
  | .ERR_COUNT => -- R386
    ⟨.glob, 0x41000, 8, 320, 2, [⟨0, 64, .ro, 0, 0, 2 ^ 64 - 1⟩]⟩
  | .NUM_MODE => -- R399
    ⟨.glob, 0x50000, 0, 1, 1, [⟨0, 1, .rw, 0, 0, 1⟩]⟩
  | .SLOT_MODE => -- R399
    ⟨.glob, 0x50010, 0, 1, 1, [⟨0, 16, .ro, 0, 0, 65535⟩]⟩
  | .TIME_REPEAT => -- R399
    ⟨.glob, 0x50020, 0, 1, 1, [⟨0, 4, .rw, 0, 0, 15⟩]⟩
  | .TIMING_PREP => -- R399
    ⟨.glob, 0x50024, 0, 1, 1, [⟨0, 4, .wo, 0, 0, 15⟩]⟩
  | .DET_CYCLES => -- R399
    ⟨.glob, 0x50100, 8, 4, 2, [⟨0, 64, .ro, 0, 0, 2 ^ 64 - 1⟩]⟩
  | .PKG_MODE => -- R399
    ⟨.glob, 0x51000, 4, 4096, 1, [⟨0, 2, .rw, 0, 0, 2⟩,
      ⟨2, 2, .rw, 0, 0, 2⟩,
      ⟨4, 2, .rw, 0, 0, 2⟩,
      ⟨6, 2, .rw, 0, 0, 2⟩,
      ⟨8, 2, .rw, 0, 0, 2⟩,
      ⟨10, 2, .rw, 0, 0, 2⟩,
      ⟨12, 2, .rw, 0, 0, 2⟩,
      ⟨14, 2, .rw, 0, 0, 2⟩,
      ⟨16, 2, .rw, 0, 0, 2⟩,
      ⟨18, 2, .rw, 0, 0, 2⟩,
      ⟨20, 2, .rw, 0, 0, 2⟩,
      ⟨22, 2, .rw, 0, 0, 2⟩,
      ⟨24, 2, .rw, 0, 0, 2⟩,
      ⟨26, 2, .rw, 0, 0, 2⟩,
      ⟨28, 2, .rw, 0, 0, 2⟩,
      ⟨30, 2, .rw, 0, 0, 2⟩]⟩
  | .PWR_CTRL => -- R427
    ⟨.glob, 0x10000, 0, 1, 1, [⟨0, 1, .wo, 0, 0, 1⟩,
      ⟨1, 1, .wo, 0, 0, 1⟩,
      ⟨2, 1, .wo, 0, 0, 1⟩,
      ⟨3, 1, .wo, 0, 0, 1⟩]⟩
  | .PWR_DRAIN_MS => -- R427
    ⟨.glob, 0x10004, 0, 1, 1, [⟨0, 16, .rw, 10000, 0, 60000⟩]⟩
  | .PWR_CAP => -- R427
    ⟨.glob, 0x10008, 0, 1, 1, [⟨0, 13, .rw, 4400, 0, 8191⟩]⟩
  | .PWR_CAP_CFG => -- R427
    ⟨.glob, 0x1000C, 0, 1, 1, [⟨0, 12, .rwl, 1200, 1200, 2400⟩,
      ⟨16, 13, .rwl, 2400, 1200, 4400⟩]⟩
  | .PWR_LIMIT => -- R427
    ⟨.glob, 0x10010, 0, 1, 1, [⟨0, 13, .ro, 4400, 0, 8191⟩,
      ⟨13, 2, .ro, 0, 0, 3⟩,
      ⟨15, 1, .ro, 0, 0, 1⟩,
      ⟨16, 1, .ro, 0, 0, 1⟩,
      ⟨17, 1, .ro, 0, 0, 1⟩]⟩
  | .PWR_INPUT => -- R427
    ⟨.glob, 0x10014, 0, 1, 1, [⟨0, 13, .ro, 0, 0, 8191⟩,
      ⟨13, 10, .ro, 0, 0, 1023⟩]⟩
  | .PWR_CURRENT => -- R427
    ⟨.glob, 0x10018, 0, 1, 1, [⟨0, 11, .ro, 0, 0, 2047⟩]⟩
  | .PWR_STATUS => -- R427
    ⟨.glob, 0x1001C, 0, 1, 1, [⟨0, 1, .w1c, 0, 0, 1⟩,
      ⟨1, 1, .w1c, 0, 0, 1⟩,
      ⟨2, 1, .w1c, 0, 0, 1⟩,
      ⟨3, 1, .w1c, 0, 0, 1⟩,
      ⟨4, 1, .w1c, 0, 0, 1⟩]⟩
  | .DIE_OPPOINT => -- R427
    ⟨.glob, 0x10020, 4, 4, 1, [⟨0, 3, .ro, 0, 0, 7⟩,
      ⟨3, 5, .ro, 16, 0, 31⟩,
      ⟨8, 1, .ro, 0, 0, 1⟩,
      ⟨9, 4, .ro, 0, 0, 15⟩,
      ⟨13, 11, .ro, 0, 0, 2047⟩]⟩
  | .A1_CFG => -- R427
    ⟨.glob, 0x10030, 0, 1, 1, [⟨0, 10, .rw, 20, 0, 1023⟩]⟩
  | .THERM_CFG => -- R427
    ⟨.glob, 0x10034, 0, 1, 1, [⟨0, 8, .rwl, 105, 100, 110⟩,
      ⟨8, 16, .rw, 500, 1, 60000⟩]⟩
  | .THERM_TEMP => -- R427
    ⟨.glob, 0x10040, 4, 6, 1, [⟨0, 8, .ro, 0, 0, 255⟩,
      ⟨8, 4, .ro, 0, 0, 15⟩]⟩
  | .COOLANT => -- R427
    ⟨.glob, 0x10058, 0, 1, 1, [⟨0, 8, .ro, 0, 0, 255⟩,
      ⟨8, 8, .ro, 0, 0, 255⟩]⟩
  | .MGMT_WATCH => -- R427
    ⟨.glob, 0x1005C, 0, 1, 1, [⟨0, 7, .ro, 0, 0, 127⟩]⟩
  | .AGE_CFG => -- R427
    ⟨.glob, 0x10060, 0, 1, 1, [⟨0, 16, .rw, 90, 0, 65535⟩]⟩
  | .AGEING => -- R427
    ⟨.glob, 0x10100, 4, 78, 1, [⟨0, 16, .ro, 65535, 0, 65535⟩,
      ⟨16, 16, .ro, 65535, 0, 65535⟩]⟩
  | .BOOT_STATUS => -- R448
    ⟨.glob, 0x20000, 0, 1, 1, [⟨0, 4, .ro, 0, 0, 15⟩,
      ⟨4, 4, .ro, 0, 0, 15⟩,
      ⟨8, 8, .ro, 0, 0, 255⟩,
      ⟨16, 4, .ro, 0, 0, 15⟩]⟩
  | .BOOT_CFG => -- R448
    ⟨.glob, 0x20004, 0, 1, 1, [⟨0, 1, .rw, 0, 0, 1⟩,
      ⟨1, 1, .rw, 0, 0, 1⟩,
      ⟨8, 6, .rw, 10, 2, 60⟩]⟩
  | .COLD_RESET => -- R448
    ⟨.glob, 0x20008, 0, 1, 1, [⟨0, 16, .wo, 0, 0, 65535⟩,
      ⟨16, 1, .wo, 0, 0, 1⟩]⟩
  | .BOOT_COUNT => -- R448
    ⟨.glob, 0x2000C, 0, 1, 1, [⟨0, 32, .ro, 0, 0, 2 ^ 32 - 1⟩]⟩
  | .FW_VERSION => -- R448
    ⟨.glob, 0x20010, 0, 1, 1, [⟨0, 32, .ro, 0, 0, 2 ^ 32 - 1⟩]⟩
  | .FW_SVN => -- R448
    ⟨.glob, 0x20014, 0, 1, 1, [⟨0, 8, .ro, 0, 0, 255⟩,
      ⟨8, 8, .ro, 0, 0, 255⟩,
      ⟨16, 4, .ro, 0, 0, 15⟩]⟩
  | .LC_STATE => -- R448
    ⟨.glob, 0x20020, 0, 1, 1, [⟨0, 3, .ro, 0, 0, 7⟩,
      ⟨3, 2, .ro, 0, 0, 3⟩]⟩
  | .LC_REQUEST => -- R448
    ⟨.glob, 0x20024, 0, 1, 1, [⟨0, 3, .rw, 0, 0, 7⟩,
      ⟨3, 1, .ro, 0, 0, 1⟩]⟩
  | .LC_CONFIRM => -- R448
    ⟨.glob, 0x20028, 0, 1, 1, [⟨0, 32, .wo, 0, 0, 2 ^ 32 - 1⟩]⟩
  | .SERIAL_LO => -- R448
    ⟨.glob, 0x20030, 0, 1, 1, [⟨0, 32, .ro, 0, 0, 2 ^ 32 - 1⟩]⟩
  | .SERIAL_HI => -- R448
    ⟨.glob, 0x20034, 0, 1, 1, [⟨0, 32, .ro, 0, 0, 2 ^ 32 - 1⟩]⟩
  | .CFG_SEQ => -- R448
    ⟨.glob, 0x20038, 0, 1, 1, [⟨0, 32, .ro, 0, 0, 2 ^ 32 - 1⟩]⟩
  | .STAGE_CTRL => -- R448
    ⟨.glob, 0x20040, 0, 1, 1, [⟨0, 1, .wo, 0, 0, 1⟩,
      ⟨1, 1, .wo, 0, 0, 1⟩,
      ⟨2, 1, .wo, 0, 0, 1⟩,
      ⟨3, 1, .rw, 0, 0, 1⟩]⟩
  | .STAGE_STATUS => -- R448
    ⟨.glob, 0x20044, 0, 1, 1, [⟨0, 3, .ro, 0, 0, 7⟩,
      ⟨3, 5, .ro, 0, 0, 31⟩,
      ⟨8, 24, .ro, 0, 0, 2 ^ 24 - 1⟩]⟩
  | .STAGE_SERVER => -- R448
    ⟨.glob, 0x20048, 0, 1, 1, [⟨0, 32, .rw, 0, 0, 2 ^ 32 - 1⟩]⟩
  | .STAGE_FILE => -- R448
    ⟨.glob, 0x20050, 4, 16, 1, [⟨0, 32, .rw, 0, 0, 2 ^ 32 - 1⟩]⟩
  | .PCL_CTRL => -- R460
    ⟨.glob, 0x30000, 0, 1, 1, [⟨0, 1, .wo, 0, 0, 1⟩,
      ⟨1, 1, .wo, 0, 0, 1⟩,
      ⟨2, 1, .rw, 0, 0, 1⟩,
      ⟨3, 3, .rw, 0, 0, 6⟩]⟩
  | .PCL_SELECT => -- R460
    ⟨.glob, 0x30004, 0, 1, 1, [⟨0, 5, .rw, 31, 0, 31⟩]⟩
  | .PCL_CONFIRM => -- R460
    ⟨.glob, 0x30008, 0, 1, 1, [⟨0, 32, .wo, 0, 0, 2 ^ 32 - 1⟩]⟩
  | .PCL_STATUS => -- R460
    ⟨.glob, 0x3000C, 0, 1, 1, [⟨0, 3, .ro, 0, 0, 7⟩,
      ⟨3, 4, .ro, 0, 0, 15⟩,
      ⟨7, 3, .ro, 0, 0, 7⟩,
      ⟨10, 7, .ro, 0, 0, 127⟩]⟩
  | .PCL_TIME => -- R460
    ⟨.glob, 0x30010, 0, 1, 1, [⟨0, 32, .ro, 0, 0, 2 ^ 32 - 1⟩]⟩
  | .PCL_RESULT => -- R460
    ⟨.glob, 0x30100, 8, 5, 2, [⟨0, 2, .ro, 0, 0, 3⟩,
      ⟨2, 8, .ro, 0, 0, 255⟩,
      ⟨32, 32, .ro, 0, 0, 2 ^ 32 - 1⟩]⟩
  | .PIN_STATUS => -- R477
    ⟨.glob, 0x10070, 0, 1, 1, [⟨0, 1, .ro, 1, 0, 1⟩,
      ⟨1, 1, .ro, 1, 0, 1⟩,
      ⟨2, 1, .ro, 0, 0, 1⟩,
      ⟨3, 1, .w1c, 0, 0, 1⟩,
      ⟨4, 1, .ro, 0, 0, 1⟩]⟩

def Reg.list0 : List Reg :=
  [.MODULE_IDENT, .MODULE_NUM, .MODULE_STATE, .DIE_STATUS, .ARRAY_SHAPE,
   .STACKS_ONLINE, .TILE_NUM_FLAGS, .TILE_ID, .TILE_STATUS, .TILE_PART,
   .TILE_PARAM_CTRL, .TILE_MBUSY, .TILE_VBUSY, .TILE_PARAM, .TILE_PARAM_ACTIVE,
   .TILE_PROG, .DIE_ACTIVE, .CTX_SLOT, .WDOG_CFG, .WDOG_COUNT,
   .FREEZE_INFO, .FREEZE_CYCLE_LO, .FREEZE_CYCLE_HI, .STALL_SET, .SPILL_TOKENS,
   .SPILL_CYCLES, .SCAN_STATUS, .QUEUE_QUERY, .QUEUE_PART, .QUEUE_OCC]

def Reg.list1 : List Reg :=
  [.MT_STATUS, .MT_PART, .MT_EVENTS, .MT_SA_COUNT, .SW_ROUTE,
   .MT_DESC, .EDGE_SRC_N, .EDGE_SRC_S, .MEA_STATUS, .MEA_TMISS,
   .WC_CFG, .WC_HITS, .WC_MISSES, .WC_MERGES, .WC_PINNED,
   .MT_NUM_FLAGS, .DISPATCH_GROUPS, .DISPATCH_SKIPPED, .DISPATCH_MISS_CYCLES, .SERGE_STATUS,
   .STREAM_CTRL, .STREAM_STATUS, .STREAM_HEAD, .STREAM_TAIL, .STREAM_RESULT,
   .IDLE_CFG, .DISPATCH_STATUS, .FENCE_CNT, .MBOX_STATUS, .MBOX_HEAD]

def Reg.list2 : List Reg :=
  [.STREAM_STALL, .DIE_STALL, .ROUTER_STATUS, .ROUTER_INVOCATIONS, .ROUTER_ACCEPTED,
   .ROUTER_DROPPED, .ROUTER_NAN, .ROUTER_COUNT, .ROUTER_TABLE, .ROUTER_NUM_FLAGS,
   .MIG_RING, .MIG_CPL, .MIG_PROMOTED, .MIG_DEMOTED, .MIG_BYTES,
   .TIER_UE, .MAS_CFG, .NEAR_FRAMES, .NEAR_FREE, .NEAR_RETIRED,
   .POOL_WATER, .POOL_MIN, .BULK_CFG, .BULK_FRAMES, .BULK_FREE,
   .DEEP_DRIVE, .DEEP_EXTENTS, .DEEP_FREE, .MIG_SIZE, .MIG_TAIL]

def Reg.list3 : List Reg :=
  [.MIG_HEAD, .MIG_CPL_TAIL, .MIG_CPL_HEAD, .MIG_STATUS, .BUDGET,
   .FETCH_NEIGHBOUR, .FETCH_DEEP, .FETCH_RETRY, .TAFFETA_STATUS, .TAFFETA_IN_BYTES,
   .TAFFETA_OUT_BYTES, .TAFFETA_ERRS, .INSTALL_CFG, .INSTALL_STATUS, .TAFFETA_DIE_STATUS,
   .TAFFETA_DIE_IN_BYTES, .TAFFETA_DIE_OUT_BYTES, .TAFFETA_DIE_ERRS, .STEWARD_STATUS, .SLOTS_IN_USE,
   .SLOTS_WAITING, .PREFIX_HANDLES, .SCHED_CFG, .SCHED_CHUNK, .CLASS_CFG,
   .CLASS_STATS, .SLOT_QUERY, .SLOT_INFO, .TENANT_BUDGET, .HOST_PORT_CFG]

def Reg.list4 : List Reg :=
  [.HOST_PORT_STATUS, .OWNER_STATUS, .LEASE_CFG, .LEASE_LEFT, .SESSION_CFG,
   .SESSION_QUERY, .SESSION_INFO, .MALFORMED, .AUTH_FAIL, .SEQGAP_CNT,
   .BADSESSION_CNT, .TENANT_WINDOW, .MEM_WINDOW, .CTX_OWNER, .PKG_GROUP,
   .LINK_PLAN, .GROUP_CFG, .LINK_TIMING, .LINK_VC_CFG, .LINK_PORT_CFG,
   .LINK_PORT_STATUS, .LINK_CNT, .LINK_MOD_CNT, .VELVET_EDGE, .VELVET_RETRY,
   .ROUTE, .JOURNAL_JSN, .JOURNAL_ACKED, .FAIL_DOMAIN, .JOURNAL_PARTNER]

def Reg.list5 : List Reg :=
  [.JOURNAL_ALT, .TAKEOVER_SET, .SPARE_LIST, .JOURNAL_TIMING, .JOURNAL_STATUS,
   .TAKEOVER_STATUS, .SERVICE_CFG, .REPAIR_STATUS, .FAILOVER_CNT, .HOLDER_ALT,
   .ERR_CFG, .ERR_RING_STATUS, .ERR_WR, .ERR_RD, .ERR_QUERY,
   .ERR_DATA, .ERR_OVF_VALID, .ERR_LAST, .SCRUB_AGE, .ERR_COUNT,
   .NUM_MODE, .SLOT_MODE, .TIME_REPEAT, .TIMING_PREP, .DET_CYCLES,
   .PKG_MODE, .PWR_CTRL, .PWR_DRAIN_MS, .PWR_CAP, .PWR_CAP_CFG]

def Reg.list6 : List Reg :=
  [.PWR_LIMIT, .PWR_INPUT, .PWR_CURRENT, .PWR_STATUS, .DIE_OPPOINT,
   .A1_CFG, .THERM_CFG, .THERM_TEMP, .COOLANT, .MGMT_WATCH,
   .AGE_CFG, .AGEING, .BOOT_STATUS, .BOOT_CFG, .COLD_RESET,
   .BOOT_COUNT, .FW_VERSION, .FW_SVN, .LC_STATE, .LC_REQUEST,
   .LC_CONFIRM, .SERIAL_LO, .SERIAL_HI, .CFG_SEQ, .STAGE_CTRL,
   .STAGE_STATUS, .STAGE_SERVER, .STAGE_FILE, .PCL_CTRL, .PCL_SELECT]

def Reg.list7 : List Reg :=
  [.PCL_CONFIRM, .PCL_STATUS, .PCL_TIME, .PCL_RESULT, .PIN_STATUS]

/-- Every register once. -/
def Reg.all : List Reg :=
  Reg.list0 ++ Reg.list1 ++ Reg.list2 ++ Reg.list3 ++ Reg.list4 ++ Reg.list5 ++ Reg.list6 ++ Reg.list7

/-- The whole reset value of a register: its fields' reset values in place. -/
def Reg.reset (r : Reg) : Nat := r.info.fields.foldl (fun a f => a + f.reset * 2 ^ f.lo) 0

/-- Some numbers of an indexed register are reserved (R166: stall codes 0 to 11; R331: link counters 0 to 4). -/
def Reg.indexUsed (r : Reg) (i : Nat) : Bool :=
  match r with
  | .STREAM_STALL => i % 16 < 12
  | .LINK_CNT => i % 8 < 5
  | _ => true

namespace F
def MODULE_IDENT_GRADE : Fld := ⟨.MODULE_IDENT, 0, 8⟩
def MODULE_IDENT_STEPPING : Fld := ⟨.MODULE_IDENT, 8, 8⟩
def MODULE_IDENT_PRODUCT : Fld := ⟨.MODULE_IDENT, 16, 16⟩
def MODULE_NUM_MODULE_ID : Fld := ⟨.MODULE_NUM, 0, 13⟩
def MODULE_NUM_ID_VALID : Fld := ⟨.MODULE_NUM, 31, 1⟩
def MODULE_STATE_STATE : Fld := ⟨.MODULE_STATE, 0, 4⟩
def DIE_STATUS_CD0_PSTATE : Fld := ⟨.DIE_STATUS, 0, 2⟩
def DIE_STATUS_CD1_PSTATE : Fld := ⟨.DIE_STATUS, 4, 2⟩
def DIE_STATUS_CD2_PSTATE : Fld := ⟨.DIE_STATUS, 8, 2⟩
def DIE_STATUS_CD3_PSTATE : Fld := ⟨.DIE_STATUS, 12, 2⟩
def DIE_STATUS_CD0_RETIRED : Fld := ⟨.DIE_STATUS, 2, 1⟩
def DIE_STATUS_CD1_RETIRED : Fld := ⟨.DIE_STATUS, 6, 1⟩
def DIE_STATUS_CD2_RETIRED : Fld := ⟨.DIE_STATUS, 10, 1⟩
def DIE_STATUS_CD3_RETIRED : Fld := ⟨.DIE_STATUS, 14, 1⟩
def DIE_STATUS_CD0_RELAY : Fld := ⟨.DIE_STATUS, 3, 1⟩
def DIE_STATUS_CD1_RELAY : Fld := ⟨.DIE_STATUS, 7, 1⟩
def DIE_STATUS_CD2_RELAY : Fld := ⟨.DIE_STATUS, 11, 1⟩
def DIE_STATUS_CD3_RELAY : Fld := ⟨.DIE_STATUS, 15, 1⟩
def ARRAY_SHAPE_LOGICAL_ROWS : Fld := ⟨.ARRAY_SHAPE, 0, 5⟩
def ARRAY_SHAPE_LOGICAL_COLS : Fld := ⟨.ARRAY_SHAPE, 5, 5⟩
def ARRAY_SHAPE_CD0_SPARE_COLS : Fld := ⟨.ARRAY_SHAPE, 16, 4⟩
def ARRAY_SHAPE_CD1_SPARE_COLS : Fld := ⟨.ARRAY_SHAPE, 20, 4⟩
def ARRAY_SHAPE_CD2_SPARE_COLS : Fld := ⟨.ARRAY_SHAPE, 24, 4⟩
def ARRAY_SHAPE_CD3_SPARE_COLS : Fld := ⟨.ARRAY_SHAPE, 28, 4⟩
def STACKS_ONLINE_STACK_ONLINE : Fld := ⟨.STACKS_ONLINE, 0, 20⟩
def TILE_NUM_FLAGS_NV : Fld := ⟨.TILE_NUM_FLAGS, 0, 1⟩
def TILE_NUM_FLAGS_DZ : Fld := ⟨.TILE_NUM_FLAGS, 1, 1⟩
def TILE_NUM_FLAGS_OF : Fld := ⟨.TILE_NUM_FLAGS, 2, 1⟩
def TILE_NUM_FLAGS_UF : Fld := ⟨.TILE_NUM_FLAGS, 3, 1⟩
def TILE_NUM_FLAGS_SAT : Fld := ⟨.TILE_NUM_FLAGS, 4, 1⟩
def TILE_NUM_FLAGS_NAN_IN : Fld := ⟨.TILE_NUM_FLAGS, 5, 1⟩
def TILE_NUM_FLAGS_MXNAN : Fld := ⟨.TILE_NUM_FLAGS, 6, 1⟩
def TILE_ID_Y : Fld := ⟨.TILE_ID, 0, 5⟩
def TILE_ID_X : Fld := ⟨.TILE_ID, 5, 5⟩
def TILE_ID_PHYS_COL : Fld := ⟨.TILE_ID, 10, 5⟩
def TILE_ID_KIND : Fld := ⟨.TILE_ID, 15, 1⟩
def TILE_STATUS_ACTIVE_CTX : Fld := ⟨.TILE_STATUS, 0, 2⟩
def TILE_STATUS_M_WORD : Fld := ⟨.TILE_STATUS, 2, 6⟩
def TILE_STATUS_V_WORD : Fld := ⟨.TILE_STATUS, 8, 6⟩
def TILE_STATUS_BOUND_ERR : Fld := ⟨.TILE_STATUS, 14, 1⟩
def TILE_STATUS_ERR_WORD : Fld := ⟨.TILE_STATUS, 16, 6⟩
def TILE_STATUS_ERR_CTX : Fld := ⟨.TILE_STATUS, 22, 2⟩
def TILE_PART_ACC_BASE : Fld := ⟨.TILE_PART, 0, 4⟩
def TILE_PART_ACC_LEN : Fld := ⟨.TILE_PART, 4, 5⟩
def TILE_PART_MI_BASE : Fld := ⟨.TILE_PART, 12, 4⟩
def TILE_PART_MI_LEN : Fld := ⟨.TILE_PART, 16, 5⟩
def TILE_PARAM_CTRL_COMMIT : Fld := ⟨.TILE_PARAM_CTRL, 0, 1⟩
def TILE_PARAM_CTRL_PENDING : Fld := ⟨.TILE_PARAM_CTRL, 1, 1⟩
def TILE_MBUSY_COUNT : Fld := ⟨.TILE_MBUSY, 0, 32⟩
def TILE_VBUSY_COUNT : Fld := ⟨.TILE_VBUSY, 0, 32⟩
def TILE_PARAM_VALUE : Fld := ⟨.TILE_PARAM, 0, 32⟩
def TILE_PARAM_ACTIVE_VALUE : Fld := ⟨.TILE_PARAM_ACTIVE, 0, 32⟩
def TILE_PROG_WORD : Fld := ⟨.TILE_PROG, 0, 64⟩
def DIE_ACTIVE_SLOT : Fld := ⟨.DIE_ACTIVE, 0, 2⟩
def DIE_ACTIVE_NONE : Fld := ⟨.DIE_ACTIVE, 2, 1⟩
def DIE_ACTIVE_SELECTS : Fld := ⟨.DIE_ACTIVE, 16, 16⟩
def CTX_SLOT_STATE : Fld := ⟨.CTX_SLOT, 0, 3⟩
def CTX_SLOT_TOKENS : Fld := ⟨.CTX_SLOT, 3, 1⟩
def CTX_SLOT_SPILLING : Fld := ⟨.CTX_SLOT, 4, 1⟩
def CTX_SLOT_CTX_ID : Fld := ⟨.CTX_SLOT, 8, 24⟩
def WDOG_CFG_LIMIT_LOG2 : Fld := ⟨.WDOG_CFG, 0, 5⟩
def WDOG_COUNT_COUNT : Fld := ⟨.WDOG_COUNT, 0, 25⟩
def FREEZE_INFO_SLOT : Fld := ⟨.FREEZE_INFO, 0, 2⟩
def FREEZE_INFO_CAUSE : Fld := ⟨.FREEZE_INFO, 2, 2⟩
def FREEZE_INFO_NEW : Fld := ⟨.FREEZE_INFO, 4, 1⟩
def FREEZE_INFO_BLOCKED : Fld := ⟨.FREEZE_INFO, 16, 10⟩
def FREEZE_CYCLE_LO_CYCLE : Fld := ⟨.FREEZE_CYCLE_LO, 0, 32⟩
def FREEZE_CYCLE_HI_CYCLE : Fld := ⟨.FREEZE_CYCLE_HI, 0, 32⟩
def STALL_SET_QID : Fld := ⟨.STALL_SET, 0, 16⟩
def STALL_SET_VALID : Fld := ⟨.STALL_SET, 31, 1⟩
def SPILL_TOKENS_COUNT : Fld := ⟨.SPILL_TOKENS, 0, 32⟩
def SPILL_CYCLES_COUNT : Fld := ⟨.SPILL_CYCLES, 0, 32⟩
def SCAN_STATUS_BUSY : Fld := ⟨.SCAN_STATUS, 0, 1⟩
def SCAN_STATUS_DIR : Fld := ⟨.SCAN_STATUS, 1, 1⟩
def SCAN_STATUS_SLOT : Fld := ⟨.SCAN_STATUS, 2, 2⟩
def SCAN_STATUS_RESULT : Fld := ⟨.SCAN_STATUS, 4, 3⟩
def SCAN_STATUS_PROGRESS : Fld := ⟨.SCAN_STATUS, 8, 24⟩
def QUEUE_QUERY_QID : Fld := ⟨.QUEUE_QUERY, 0, 16⟩
def QUEUE_PART_BASE : Fld := ⟨.QUEUE_PART, 0, 6⟩
def QUEUE_PART_LEN : Fld := ⟨.QUEUE_PART, 6, 7⟩
def QUEUE_PART_EXT_DIR : Fld := ⟨.QUEUE_PART, 13, 2⟩
def QUEUE_PART_EXT_LEN : Fld := ⟨.QUEUE_PART, 15, 5⟩
def QUEUE_PART_EXT_BASE : Fld := ⟨.QUEUE_PART, 20, 7⟩
def QUEUE_OCC_PART_OCC : Fld := ⟨.QUEUE_OCC, 0, 7⟩
def QUEUE_OCC_BLOCKED : Fld := ⟨.QUEUE_OCC, 7, 1⟩
def QUEUE_OCC_EXT_OCC : Fld := ⟨.QUEUE_OCC, 8, 17⟩
def MT_STATUS_ACTIVE_CTX : Fld := ⟨.MT_STATUS, 0, 2⟩
def MT_STATUS_AG_BUSY : Fld := ⟨.MT_STATUS, 2, 4⟩
def MT_STATUS_BOUND_ERR : Fld := ⟨.MT_STATUS, 6, 1⟩
def MT_STATUS_ERR_AG : Fld := ⟨.MT_STATUS, 8, 2⟩
def MT_STATUS_ERR_CTX : Fld := ⟨.MT_STATUS, 10, 2⟩
def MT_STATUS_ERR_KIND : Fld := ⟨.MT_STATUS, 12, 3⟩
def MT_PART_SRAM_BASE : Fld := ⟨.MT_PART, 0, 7⟩
def MT_PART_SRAM_LEN : Fld := ⟨.MT_PART, 7, 8⟩
def MT_EVENTS_COUNT_AG0 : Fld := ⟨.MT_EVENTS, 0, 8⟩
def MT_EVENTS_COUNT_AG1 : Fld := ⟨.MT_EVENTS, 8, 8⟩
def MT_EVENTS_COUNT_AG2 : Fld := ⟨.MT_EVENTS, 16, 8⟩
def MT_EVENTS_COUNT_AG3 : Fld := ⟨.MT_EVENTS, 24, 8⟩
def MT_SA_COUNT_ROWS : Fld := ⟨.MT_SA_COUNT, 0, 32⟩
def SW_ROUTE_OUT_MASK : Fld := ⟨.SW_ROUTE, 0, 4⟩
def SW_ROUTE_LOCAL : Fld := ⟨.SW_ROUTE, 4, 1⟩
def SW_ROUTE_LPORT : Fld := ⟨.SW_ROUTE, 5, 3⟩
def SW_ROUTE_VALID : Fld := ⟨.SW_ROUTE, 8, 1⟩
def MT_DESC_DESC : Fld := ⟨.MT_DESC, 0, 512⟩
def EDGE_SRC_N_SRC : Fld := ⟨.EDGE_SRC_N, 0, 24⟩
def EDGE_SRC_S_SRC : Fld := ⟨.EDGE_SRC_S, 0, 24⟩
def MEA_STATUS_ONLINE : Fld := ⟨.MEA_STATUS, 0, 1⟩
def MEA_STATUS_EDGE : Fld := ⟨.MEA_STATUS, 1, 1⟩
def MEA_STATUS_STACK : Fld := ⟨.MEA_STATUS, 2, 5⟩
def MEA_TMISS_COUNT : Fld := ⟨.MEA_TMISS, 0, 32⟩
def WC_CFG_ENABLE : Fld := ⟨.WC_CFG, 0, 1⟩
def WC_CFG_FLUSH : Fld := ⟨.WC_CFG, 1, 1⟩
def WC_HITS_COUNT : Fld := ⟨.WC_HITS, 0, 32⟩
def WC_MISSES_COUNT : Fld := ⟨.WC_MISSES, 0, 32⟩
def WC_MERGES_COUNT : Fld := ⟨.WC_MERGES, 0, 32⟩
def WC_PINNED_LINES : Fld := ⟨.WC_PINNED, 0, 18⟩
def MT_NUM_FLAGS_NV : Fld := ⟨.MT_NUM_FLAGS, 0, 1⟩
def MT_NUM_FLAGS_DZ : Fld := ⟨.MT_NUM_FLAGS, 1, 1⟩
def MT_NUM_FLAGS_OF : Fld := ⟨.MT_NUM_FLAGS, 2, 1⟩
def MT_NUM_FLAGS_UF : Fld := ⟨.MT_NUM_FLAGS, 3, 1⟩
def MT_NUM_FLAGS_SAT : Fld := ⟨.MT_NUM_FLAGS, 4, 1⟩
def MT_NUM_FLAGS_NAN_IN : Fld := ⟨.MT_NUM_FLAGS, 5, 1⟩
def MT_NUM_FLAGS_MXNAN : Fld := ⟨.MT_NUM_FLAGS, 6, 1⟩
def DISPATCH_GROUPS_VALUE : Fld := ⟨.DISPATCH_GROUPS, 0, 64⟩
def DISPATCH_SKIPPED_VALUE : Fld := ⟨.DISPATCH_SKIPPED, 0, 64⟩
def DISPATCH_MISS_CYCLES_VALUE : Fld := ⟨.DISPATCH_MISS_CYCLES, 0, 64⟩
def SERGE_STATUS_ONLINE : Fld := ⟨.SERGE_STATUS, 0, 1⟩
def SERGE_STATUS_RETIRED : Fld := ⟨.SERGE_STATUS, 1, 1⟩
def SERGE_STATUS_MISMATCHES : Fld := ⟨.SERGE_STATUS, 2, 8⟩
def STREAM_CTRL_START : Fld := ⟨.STREAM_CTRL, 0, 1⟩
def STREAM_CTRL_STOP : Fld := ⟨.STREAM_CTRL, 1, 1⟩
def STREAM_CTRL_ABORT : Fld := ⟨.STREAM_CTRL, 2, 1⟩
def STREAM_CTRL_STEP_MASTER : Fld := ⟨.STREAM_CTRL, 3, 1⟩
def STREAM_CTRL_LOOKAHEAD : Fld := ⟨.STREAM_CTRL, 4, 8⟩
def STREAM_STATUS_STATE : Fld := ⟨.STREAM_STATUS, 0, 3⟩
def STREAM_STATUS_ERR_STATUS : Fld := ⟨.STREAM_STATUS, 3, 3⟩
def STREAM_STATUS_ERR_ENTRY : Fld := ⟨.STREAM_STATUS, 6, 10⟩
def STREAM_STATUS_HELD_CAUSE : Fld := ⟨.STREAM_STATUS, 16, 4⟩
def STREAM_STATUS_STEP_LOW : Fld := ⟨.STREAM_STATUS, 20, 12⟩
def STREAM_HEAD_INDEX : Fld := ⟨.STREAM_HEAD, 0, 10⟩
def STREAM_HEAD_WRAP : Fld := ⟨.STREAM_HEAD, 10, 1⟩
def STREAM_TAIL_INDEX : Fld := ⟨.STREAM_TAIL, 0, 10⟩
def STREAM_TAIL_WRAP : Fld := ⟨.STREAM_TAIL, 10, 1⟩
def STREAM_RESULT_VALUE : Fld := ⟨.STREAM_RESULT, 0, 32⟩
def IDLE_CFG_IDLE_LOG2 : Fld := ⟨.IDLE_CFG, 0, 5⟩
def DISPATCH_STATUS_ACTIVE : Fld := ⟨.DISPATCH_STATUS, 0, 1⟩
def DISPATCH_STATUS_STREAM : Fld := ⟨.DISPATCH_STATUS, 1, 6⟩
def DISPATCH_STATUS_PENDING : Fld := ⟨.DISPATCH_STATUS, 7, 11⟩
def DISPATCH_STATUS_WAITING : Fld := ⟨.DISPATCH_STATUS, 18, 11⟩
def FENCE_CNT_VALUE : Fld := ⟨.FENCE_CNT, 0, 32⟩
def MBOX_STATUS_COUNT : Fld := ⟨.MBOX_STATUS, 0, 5⟩
def MBOX_STATUS_HEAD_SLOT : Fld := ⟨.MBOX_STATUS, 5, 2⟩
def MBOX_STATUS_POP : Fld := ⟨.MBOX_STATUS, 7, 1⟩
def MBOX_HEAD_VALUE : Fld := ⟨.MBOX_HEAD, 0, 32⟩
def STREAM_STALL_COUNT : Fld := ⟨.STREAM_STALL, 0, 64⟩
def DIE_STALL_COUNT : Fld := ⟨.DIE_STALL, 0, 64⟩
def ROUTER_STATUS_SEL_BUSY : Fld := ⟨.ROUTER_STATUS, 0, 4⟩
def ROUTER_STATUS_POST_BUSY : Fld := ⟨.ROUTER_STATUS, 4, 1⟩
def ROUTER_STATUS_POST_SLOT : Fld := ⟨.ROUTER_STATUS, 5, 2⟩
def ROUTER_STATUS_BOUND_ERR : Fld := ⟨.ROUTER_STATUS, 7, 1⟩
def ROUTER_STATUS_ERR_KIND : Fld := ⟨.ROUTER_STATUS, 8, 3⟩
def ROUTER_STATUS_ERR_CTX : Fld := ⟨.ROUTER_STATUS, 11, 2⟩
def ROUTER_INVOCATIONS_COUNT : Fld := ⟨.ROUTER_INVOCATIONS, 0, 32⟩
def ROUTER_ACCEPTED_COUNT : Fld := ⟨.ROUTER_ACCEPTED, 0, 32⟩
def ROUTER_DROPPED_COUNT : Fld := ⟨.ROUTER_DROPPED, 0, 32⟩
def ROUTER_NAN_COUNT : Fld := ⟨.ROUTER_NAN, 0, 32⟩
def ROUTER_COUNT_ACCEPTED : Fld := ⟨.ROUTER_COUNT, 0, 16⟩
def ROUTER_COUNT_DROPPED : Fld := ⟨.ROUTER_COUNT, 16, 16⟩
def ROUTER_TABLE_TABLE : Fld := ⟨.ROUTER_TABLE, 0, 131072⟩
def ROUTER_NUM_FLAGS_NV : Fld := ⟨.ROUTER_NUM_FLAGS, 0, 1⟩
def ROUTER_NUM_FLAGS_DZ : Fld := ⟨.ROUTER_NUM_FLAGS, 1, 1⟩
def ROUTER_NUM_FLAGS_OF : Fld := ⟨.ROUTER_NUM_FLAGS, 2, 1⟩
def ROUTER_NUM_FLAGS_UF : Fld := ⟨.ROUTER_NUM_FLAGS, 3, 1⟩
def ROUTER_NUM_FLAGS_SAT : Fld := ⟨.ROUTER_NUM_FLAGS, 4, 1⟩
def ROUTER_NUM_FLAGS_NAN_IN : Fld := ⟨.ROUTER_NUM_FLAGS, 5, 1⟩
def ROUTER_NUM_FLAGS_MXNAN : Fld := ⟨.ROUTER_NUM_FLAGS, 6, 1⟩
def MIG_RING_VALUE : Fld := ⟨.MIG_RING, 0, 64⟩
def MIG_CPL_VALUE : Fld := ⟨.MIG_CPL, 0, 64⟩
def MIG_PROMOTED_VALUE : Fld := ⟨.MIG_PROMOTED, 0, 64⟩
def MIG_DEMOTED_VALUE : Fld := ⟨.MIG_DEMOTED, 0, 64⟩
def MIG_BYTES_VALUE : Fld := ⟨.MIG_BYTES, 0, 64⟩
def TIER_UE_VALUE : Fld := ⟨.TIER_UE, 0, 64⟩
def MAS_CFG_EPOCH_MS : Fld := ⟨.MAS_CFG, 0, 16⟩
def MAS_CFG_PLACE_EN : Fld := ⟨.MAS_CFG, 16, 1⟩
def NEAR_FRAMES_COUNT : Fld := ⟨.NEAR_FRAMES, 0, 20⟩
def NEAR_FREE_COUNT : Fld := ⟨.NEAR_FREE, 0, 20⟩
def NEAR_RETIRED_COUNT : Fld := ⟨.NEAR_RETIRED, 0, 20⟩
def POOL_WATER_LOW_WATER : Fld := ⟨.POOL_WATER, 0, 16⟩
def POOL_WATER_HIGH_WATER : Fld := ⟨.POOL_WATER, 16, 16⟩
def POOL_MIN_FRAMES : Fld := ⟨.POOL_MIN, 0, 20⟩
def BULK_CFG_STATE : Fld := ⟨.BULK_CFG, 0, 2⟩
def BULK_CFG_DPC2 : Fld := ⟨.BULK_CFG, 2, 1⟩
def BULK_CFG_DIMM_SIZE : Fld := ⟨.BULK_CFG, 3, 2⟩
def BULK_CFG_POP_ERR : Fld := ⟨.BULK_CFG, 5, 1⟩
def BULK_FRAMES_COUNT : Fld := ⟨.BULK_FRAMES, 0, 22⟩
def BULK_FREE_COUNT : Fld := ⟨.BULK_FREE, 0, 22⟩
def DEEP_DRIVE_STATE : Fld := ⟨.DEEP_DRIVE, 0, 3⟩
def DEEP_DRIVE_PORT : Fld := ⟨.DEEP_DRIVE, 3, 1⟩
def DEEP_DRIVE_LINK : Fld := ⟨.DEEP_DRIVE, 4, 3⟩
def DEEP_EXTENTS_COUNT : Fld := ⟨.DEEP_EXTENTS, 0, 25⟩
def DEEP_FREE_COUNT : Fld := ⟨.DEEP_FREE, 0, 25⟩
def MIG_SIZE_LOG2 : Fld := ⟨.MIG_SIZE, 0, 4⟩
def MIG_TAIL_INDEX : Fld := ⟨.MIG_TAIL, 0, 15⟩
def MIG_HEAD_INDEX : Fld := ⟨.MIG_HEAD, 0, 15⟩
def MIG_CPL_TAIL_INDEX : Fld := ⟨.MIG_CPL_TAIL, 0, 15⟩
def MIG_CPL_HEAD_INDEX : Fld := ⟨.MIG_CPL_HEAD, 0, 15⟩
def MIG_STATUS_BUSY : Fld := ⟨.MIG_STATUS, 0, 1⟩
def MIG_STATUS_Q0 : Fld := ⟨.MIG_STATUS, 1, 8⟩
def MIG_STATUS_Q1 : Fld := ⟨.MIG_STATUS, 9, 8⟩
def MIG_STATUS_Q2 : Fld := ⟨.MIG_STATUS, 17, 8⟩
def MIG_STATUS_Q3 : Fld := ⟨.MIG_STATUS, 25, 7⟩
def BUDGET_LIMIT : Fld := ⟨.BUDGET, 0, 20⟩
def BUDGET_WINDOW : Fld := ⟨.BUDGET, 32, 16⟩
def BUDGET_USED : Fld := ⟨.BUDGET, 64, 20⟩
def BUDGET_WIN_USED : Fld := ⟨.BUDGET, 96, 16⟩
def FETCH_NEIGHBOUR_VALUE : Fld := ⟨.FETCH_NEIGHBOUR, 0, 64⟩
def FETCH_DEEP_VALUE : Fld := ⟨.FETCH_DEEP, 0, 64⟩
def FETCH_RETRY_VALUE : Fld := ⟨.FETCH_RETRY, 0, 64⟩
def TAFFETA_STATUS_BUSY : Fld := ⟨.TAFFETA_STATUS, 0, 1⟩
def TAFFETA_STATUS_JOBS : Fld := ⟨.TAFFETA_STATUS, 1, 7⟩
def TAFFETA_STATUS_ONLINE : Fld := ⟨.TAFFETA_STATUS, 8, 1⟩
def TAFFETA_IN_BYTES_COUNT : Fld := ⟨.TAFFETA_IN_BYTES, 0, 64⟩
def TAFFETA_OUT_BYTES_COUNT : Fld := ⟨.TAFFETA_OUT_BYTES, 0, 64⟩
def TAFFETA_ERRS_DECODE_ERR : Fld := ⟨.TAFFETA_ERRS, 0, 16⟩
def TAFFETA_ERRS_CHECK_ERR : Fld := ⟨.TAFFETA_ERRS, 16, 16⟩
def INSTALL_CFG_STAGE_FRAMES : Fld := ⟨.INSTALL_CFG, 0, 12⟩
def INSTALL_CFG_QUERY_US : Fld := ⟨.INSTALL_CFG, 12, 8⟩
def INSTALL_STATUS_ACTIVE : Fld := ⟨.INSTALL_STATUS, 0, 4⟩
def INSTALL_STATUS_PACKAGES : Fld := ⟨.INSTALL_STATUS, 4, 14⟩
def INSTALL_STATUS_LOADED : Fld := ⟨.INSTALL_STATUS, 18, 10⟩
def TAFFETA_DIE_STATUS_BUSY : Fld := ⟨.TAFFETA_DIE_STATUS, 0, 1⟩
def TAFFETA_DIE_STATUS_JOBS : Fld := ⟨.TAFFETA_DIE_STATUS, 1, 7⟩
def TAFFETA_DIE_STATUS_ONLINE : Fld := ⟨.TAFFETA_DIE_STATUS, 8, 1⟩
def TAFFETA_DIE_IN_BYTES_COUNT : Fld := ⟨.TAFFETA_DIE_IN_BYTES, 0, 64⟩
def TAFFETA_DIE_OUT_BYTES_COUNT : Fld := ⟨.TAFFETA_DIE_OUT_BYTES, 0, 64⟩
def TAFFETA_DIE_ERRS_DECODE_ERR : Fld := ⟨.TAFFETA_DIE_ERRS, 0, 16⟩
def TAFFETA_DIE_ERRS_CHECK_ERR : Fld := ⟨.TAFFETA_DIE_ERRS, 16, 16⟩
def STEWARD_STATUS_SIDE : Fld := ⟨.STEWARD_STATUS, 0, 1⟩
def STEWARD_STATUS_STANDBY_READY : Fld := ⟨.STEWARD_STATUS, 1, 1⟩
def STEWARD_STATUS_TAKEOVERS : Fld := ⟨.STEWARD_STATUS, 16, 16⟩
def SLOTS_IN_USE_COUNT : Fld := ⟨.SLOTS_IN_USE, 0, 21⟩
def SLOTS_WAITING_COUNT : Fld := ⟨.SLOTS_WAITING, 0, 21⟩
def PREFIX_HANDLES_COUNT : Fld := ⟨.PREFIX_HANDLES, 0, 21⟩
def SCHED_CFG_MB_MAX : Fld := ⟨.SCHED_CFG, 0, 15⟩
def SCHED_CFG_PREEMPT : Fld := ⟨.SCHED_CFG, 15, 1⟩
def SCHED_CFG_BUBBLE_EN : Fld := ⟨.SCHED_CFG, 16, 1⟩
def SCHED_CFG_PREEMPT_MAX : Fld := ⟨.SCHED_CFG, 17, 4⟩
def SCHED_CHUNK_PREFILL_CHUNK : Fld := ⟨.SCHED_CHUNK, 0, 15⟩
def CLASS_CFG_TTFT_TARGET_MS : Fld := ⟨.CLASS_CFG, 0, 16⟩
def CLASS_CFG_TBT_TARGET_MS : Fld := ⟨.CLASS_CFG, 16, 16⟩
def CLASS_CFG_ADMIT_LIMIT_MS : Fld := ⟨.CLASS_CFG, 32, 16⟩
def CLASS_CFG_PRIORITY : Fld := ⟨.CLASS_CFG, 48, 4⟩
def CLASS_CFG_PREFILL_W : Fld := ⟨.CLASS_CFG, 52, 5⟩
def CLASS_CFG_ENABLED : Fld := ⟨.CLASS_CFG, 57, 1⟩
def CLASS_STATS_TTFT_MET : Fld := ⟨.CLASS_STATS, 0, 32⟩
def CLASS_STATS_TTFT_MISSED : Fld := ⟨.CLASS_STATS, 32, 32⟩
def CLASS_STATS_TBT_MET : Fld := ⟨.CLASS_STATS, 64, 32⟩
def CLASS_STATS_TBT_MISSED : Fld := ⟨.CLASS_STATS, 96, 32⟩
def SLOT_QUERY_SLOT : Fld := ⟨.SLOT_QUERY, 0, 16⟩
def SLOT_INFO_STATE : Fld := ⟨.SLOT_INFO, 0, 3⟩
def SLOT_INFO_CLASS : Fld := ⟨.SLOT_INFO, 4, 4⟩
def SLOT_INFO_TENANT : Fld := ⟨.SLOT_INFO, 8, 12⟩
def SLOT_INFO_PKG_HANDLE : Fld := ⟨.SLOT_INFO, 32, 16⟩
def SLOT_INFO_ADAPTER : Fld := ⟨.SLOT_INFO, 48, 16⟩
def SLOT_INFO_COMMITTED : Fld := ⟨.SLOT_INFO, 64, 32⟩
def SLOT_INFO_DROPPED : Fld := ⟨.SLOT_INFO, 96, 16⟩
def SLOT_INFO_PREEMPTIONS : Fld := ⟨.SLOT_INFO, 112, 8⟩
def SLOT_INFO_FINAL : Fld := ⟨.SLOT_INFO, 120, 4⟩
def TENANT_BUDGET_RATE : Fld := ⟨.TENANT_BUDGET, 0, 32⟩
def TENANT_BUDGET_BURST : Fld := ⟨.TENANT_BUDGET, 32, 32⟩
def TENANT_BUDGET_DEBT : Fld := ⟨.TENANT_BUDGET, 64, 32⟩
def TENANT_BUDGET_LEVEL : Fld := ⟨.TENANT_BUDGET, 96, 32⟩
def HOST_PORT_CFG_SPEED : Fld := ⟨.HOST_PORT_CFG, 0, 2⟩
def HOST_PORT_CFG_PFC_PRIO : Fld := ⟨.HOST_PORT_CFG, 2, 3⟩
def HOST_PORT_CFG_ECN_EN : Fld := ⟨.HOST_PORT_CFG, 5, 1⟩
def HOST_PORT_STATUS_LINK_UP : Fld := ⟨.HOST_PORT_STATUS, 0, 1⟩
def HOST_PORT_STATUS_SPEED_ACT : Fld := ⟨.HOST_PORT_STATUS, 1, 2⟩
def HOST_PORT_STATUS_QPS : Fld := ⟨.HOST_PORT_STATUS, 3, 11⟩
def HOST_PORT_STATUS_PFC_STORM : Fld := ⟨.HOST_PORT_STATUS, 14, 1⟩
def OWNER_STATUS_OWNED : Fld := ⟨.OWNER_STATUS, 0, 1⟩
def OWNER_STATUS_SESSION : Fld := ⟨.OWNER_STATUS, 1, 16⟩
def LEASE_CFG_MS : Fld := ⟨.LEASE_CFG, 0, 16⟩
def LEASE_LEFT_MS : Fld := ⟨.LEASE_LEFT, 0, 16⟩
def SESSION_CFG_HOLD_S : Fld := ⟨.SESSION_CFG, 0, 16⟩
def SESSION_CFG_FINAL_KEEP_S : Fld := ⟨.SESSION_CFG, 16, 16⟩
def SESSION_QUERY_INDEX : Fld := ⟨.SESSION_QUERY, 0, 8⟩
def SESSION_INFO_STATE : Fld := ⟨.SESSION_INFO, 0, 2⟩
def SESSION_INFO_ROLES : Fld := ⟨.SESSION_INFO, 2, 3⟩
def SESSION_INFO_QPS : Fld := ⟨.SESSION_INFO, 5, 3⟩
def SESSION_INFO_GEN : Fld := ⟨.SESSION_INFO, 8, 8⟩
def SESSION_INFO_NEXT_LO : Fld := ⟨.SESSION_INFO, 32, 32⟩
def MALFORMED_COUNT : Fld := ⟨.MALFORMED, 0, 32⟩
def AUTH_FAIL_COUNT : Fld := ⟨.AUTH_FAIL, 0, 32⟩
def SEQGAP_CNT_COUNT : Fld := ⟨.SEQGAP_CNT, 0, 32⟩
def BADSESSION_CNT_COUNT : Fld := ⟨.BADSESSION_CNT, 0, 32⟩
def TENANT_WINDOW_ENABLED : Fld := ⟨.TENANT_WINDOW, 0, 1⟩
def TENANT_WINDOW_GROUPS : Fld := ⟨.TENANT_WINDOW, 32, 64⟩
def MEM_WINDOW_VALID : Fld := ⟨.MEM_WINDOW, 0, 1⟩
def MEM_WINDOW_READ : Fld := ⟨.MEM_WINDOW, 1, 1⟩
def MEM_WINDOW_WRITE : Fld := ⟨.MEM_WINDOW, 2, 1⟩
def MEM_WINDOW_ANY_TENANT : Fld := ⟨.MEM_WINDOW, 3, 1⟩
def MEM_WINDOW_TENANT : Fld := ⟨.MEM_WINDOW, 4, 12⟩
def MEM_WINDOW_RKEY : Fld := ⟨.MEM_WINDOW, 32, 32⟩
def MEM_WINDOW_BASE : Fld := ⟨.MEM_WINDOW, 64, 52⟩
def MEM_WINDOW_PAGES : Fld := ⟨.MEM_WINDOW, 128, 32⟩
def CTX_OWNER_DEDICATED : Fld := ⟨.CTX_OWNER, 0, 1⟩
def CTX_OWNER_TENANT : Fld := ⟨.CTX_OWNER, 1, 12⟩
def PKG_GROUP_GROUP_0 : Fld := ⟨.PKG_GROUP, 0, 6⟩
def PKG_GROUP_GROUP_1 : Fld := ⟨.PKG_GROUP, 8, 6⟩
def PKG_GROUP_GROUP_2 : Fld := ⟨.PKG_GROUP, 16, 6⟩
def PKG_GROUP_GROUP_3 : Fld := ⟨.PKG_GROUP, 24, 6⟩
def LINK_PLAN_PLAN : Fld := ⟨.LINK_PLAN, 0, 3⟩
def GROUP_CFG_CLASS : Fld := ⟨.GROUP_CFG, 0, 2⟩
def GROUP_CFG_PEER : Fld := ⟨.GROUP_CFG, 2, 13⟩
def LINK_TIMING_REORDER_US : Fld := ⟨.LINK_TIMING, 0, 8⟩
def LINK_TIMING_NOROUTE_US : Fld := ⟨.LINK_TIMING, 8, 12⟩
def LINK_TIMING_E2E_DEAD_US : Fld := ⟨.LINK_TIMING, 20, 12⟩
def LINK_VC_CFG_W2 : Fld := ⟨.LINK_VC_CFG, 0, 4⟩
def LINK_VC_CFG_W3 : Fld := ⟨.LINK_VC_CFG, 4, 4⟩
def LINK_PORT_CFG_ENABLE : Fld := ⟨.LINK_PORT_CFG, 0, 1⟩
def LINK_PORT_CFG_RETRAIN : Fld := ⟨.LINK_PORT_CFG, 1, 1⟩
def LINK_PORT_STATUS_STATE : Fld := ⟨.LINK_PORT_STATUS, 0, 3⟩
def LINK_PORT_STATUS_CAUSE : Fld := ⟨.LINK_PORT_STATUS, 3, 3⟩
def LINK_PORT_STATUS_WIDTH : Fld := ⟨.LINK_PORT_STATUS, 6, 2⟩
def LINK_PORT_STATUS_PEER_ID : Fld := ⟨.LINK_PORT_STATUS, 8, 13⟩
def LINK_PORT_STATUS_PEER_SWITCH : Fld := ⟨.LINK_PORT_STATUS, 21, 1⟩
def LINK_PORT_STATUS_GROUP : Fld := ⟨.LINK_PORT_STATUS, 22, 2⟩
def LINK_PORT_STATUS_EYE_MARGIN : Fld := ⟨.LINK_PORT_STATUS, 24, 8⟩
def LINK_CNT_COUNT : Fld := ⟨.LINK_CNT, 0, 64⟩
def LINK_MOD_CNT_COUNT : Fld := ⟨.LINK_MOD_CNT, 0, 64⟩
def VELVET_EDGE_MODULES_UP : Fld := ⟨.VELVET_EDGE, 0, 16⟩
def VELVET_EDGE_STATE : Fld := ⟨.VELVET_EDGE, 16, 2⟩
def VELVET_EDGE_RETRAINS : Fld := ⟨.VELVET_EDGE, 24, 8⟩
def VELVET_RETRY_COUNT : Fld := ⟨.VELVET_RETRY, 0, 64⟩
def ROUTE_PRIMARY : Fld := ⟨.ROUTE, 0, 32⟩
def ROUTE_ALT : Fld := ⟨.ROUTE, 32, 32⟩
def JOURNAL_JSN_VALUE : Fld := ⟨.JOURNAL_JSN, 0, 64⟩
def JOURNAL_ACKED_VALUE : Fld := ⟨.JOURNAL_ACKED, 0, 64⟩
def FAIL_DOMAIN_TRAY : Fld := ⟨.FAIL_DOMAIN, 0, 12⟩
def FAIL_DOMAIN_RACK : Fld := ⟨.FAIL_DOMAIN, 12, 6⟩
def JOURNAL_PARTNER_MODULE : Fld := ⟨.JOURNAL_PARTNER, 0, 13⟩
def JOURNAL_PARTNER_VALID : Fld := ⟨.JOURNAL_PARTNER, 13, 1⟩
def JOURNAL_ALT_MODULE : Fld := ⟨.JOURNAL_ALT, 0, 13⟩
def JOURNAL_ALT_VALID : Fld := ⟨.JOURNAL_ALT, 13, 1⟩
def TAKEOVER_SET_MODULE : Fld := ⟨.TAKEOVER_SET, 0, 13⟩
def TAKEOVER_SET_VALID : Fld := ⟨.TAKEOVER_SET, 13, 1⟩
def SPARE_LIST_MODULE : Fld := ⟨.SPARE_LIST, 0, 13⟩
def SPARE_LIST_VALID : Fld := ⟨.SPARE_LIST, 13, 1⟩
def JOURNAL_TIMING_HB : Fld := ⟨.JOURNAL_TIMING, 0, 8⟩
def JOURNAL_TIMING_TIMEOUT : Fld := ⟨.JOURNAL_TIMING, 8, 8⟩
def JOURNAL_TIMING_REJOIN_S : Fld := ⟨.JOURNAL_TIMING, 16, 16⟩
def JOURNAL_STATUS_STATE : Fld := ⟨.JOURNAL_STATUS, 0, 3⟩
def JOURNAL_STATUS_PARTNER_ACT : Fld := ⟨.JOURNAL_STATUS, 3, 13⟩
def JOURNAL_STATUS_MIRROR_MAX : Fld := ⟨.JOURNAL_STATUS, 16, 16⟩
def TAKEOVER_STATUS_HOME_ACTIVE : Fld := ⟨.TAKEOVER_STATUS, 0, 1⟩
def TAKEOVER_STATUS_ORIGIN : Fld := ⟨.TAKEOVER_STATUS, 1, 13⟩
def TAKEOVER_STATUS_OPEN : Fld := ⟨.TAKEOVER_STATUS, 14, 17⟩
def SERVICE_CFG_POLICY : Fld := ⟨.SERVICE_CFG, 0, 1⟩
def SERVICE_CFG_SPARE : Fld := ⟨.SERVICE_CFG, 1, 1⟩
def SERVICE_CFG_SHARD_K : Fld := ⟨.SERVICE_CFG, 2, 3⟩
def REPAIR_STATUS_STACKS_RETIRED : Fld := ⟨.REPAIR_STATUS, 0, 5⟩
def REPAIR_STATUS_DIES_RETIRED : Fld := ⟨.REPAIR_STATUS, 5, 3⟩
def REPAIR_STATUS_PAIRS_RETIRED : Fld := ⟨.REPAIR_STATUS, 8, 6⟩
def REPAIR_STATUS_COLUMN_REPAIRS : Fld := ⟨.REPAIR_STATUS, 14, 4⟩
def REPAIR_STATUS_SHRUNK : Fld := ⟨.REPAIR_STATUS, 18, 1⟩
def FAILOVER_CNT_COUNT : Fld := ⟨.FAILOVER_CNT, 0, 64⟩
def HOLDER_ALT_H0 : Fld := ⟨.HOLDER_ALT, 0, 13⟩
def HOLDER_ALT_H1 : Fld := ⟨.HOLDER_ALT, 13, 13⟩
def HOLDER_ALT_H2 : Fld := ⟨.HOLDER_ALT, 26, 13⟩
def HOLDER_ALT_COUNT : Fld := ⟨.HOLDER_ALT, 39, 2⟩
def HOLDER_ALT_OUT : Fld := ⟨.HOLDER_ALT, 41, 1⟩
def ERR_CFG_AUTO_RETIRE : Fld := ⟨.ERR_CFG, 0, 1⟩
def ERR_RING_STATUS_UNREAD : Fld := ⟨.ERR_RING_STATUS, 0, 13⟩
def ERR_RING_STATUS_FULL : Fld := ⟨.ERR_RING_STATUS, 13, 1⟩
def ERR_RING_STATUS_OVF_USED : Fld := ⟨.ERR_RING_STATUS, 14, 7⟩
def ERR_WR_SEQ : Fld := ⟨.ERR_WR, 0, 32⟩
def ERR_RD_SEQ : Fld := ⟨.ERR_RD, 0, 32⟩
def ERR_QUERY_RING : Fld := ⟨.ERR_QUERY, 0, 3⟩
def ERR_QUERY_OVF : Fld := ⟨.ERR_QUERY, 3, 1⟩
def ERR_QUERY_INDEX : Fld := ⟨.ERR_QUERY, 4, 12⟩
def ERR_DATA_WORD : Fld := ⟨.ERR_DATA, 0, 32⟩
def ERR_OVF_VALID_VALID : Fld := ⟨.ERR_OVF_VALID, 0, 64⟩
def ERR_LAST_RECORD : Fld := ⟨.ERR_LAST, 0, 512⟩
def SCRUB_AGE_SECONDS : Fld := ⟨.SCRUB_AGE, 0, 32⟩
def ERR_COUNT_COUNT : Fld := ⟨.ERR_COUNT, 0, 64⟩
def NUM_MODE_DEFAULT : Fld := ⟨.NUM_MODE, 0, 1⟩
def SLOT_MODE_LINEN : Fld := ⟨.SLOT_MODE, 0, 16⟩
def TIME_REPEAT_DIE : Fld := ⟨.TIME_REPEAT, 0, 4⟩
def TIMING_PREP_DIE : Fld := ⟨.TIMING_PREP, 0, 4⟩
def DET_CYCLES_COUNT : Fld := ⟨.DET_CYCLES, 0, 64⟩
def PKG_MODE_MODE_0 : Fld := ⟨.PKG_MODE, 0, 2⟩
def PKG_MODE_MODE_1 : Fld := ⟨.PKG_MODE, 2, 2⟩
def PKG_MODE_MODE_2 : Fld := ⟨.PKG_MODE, 4, 2⟩
def PKG_MODE_MODE_3 : Fld := ⟨.PKG_MODE, 6, 2⟩
def PKG_MODE_MODE_4 : Fld := ⟨.PKG_MODE, 8, 2⟩
def PKG_MODE_MODE_5 : Fld := ⟨.PKG_MODE, 10, 2⟩
def PKG_MODE_MODE_6 : Fld := ⟨.PKG_MODE, 12, 2⟩
def PKG_MODE_MODE_7 : Fld := ⟨.PKG_MODE, 14, 2⟩
def PKG_MODE_MODE_8 : Fld := ⟨.PKG_MODE, 16, 2⟩
def PKG_MODE_MODE_9 : Fld := ⟨.PKG_MODE, 18, 2⟩
def PKG_MODE_MODE_10 : Fld := ⟨.PKG_MODE, 20, 2⟩
def PKG_MODE_MODE_11 : Fld := ⟨.PKG_MODE, 22, 2⟩
def PKG_MODE_MODE_12 : Fld := ⟨.PKG_MODE, 24, 2⟩
def PKG_MODE_MODE_13 : Fld := ⟨.PKG_MODE, 26, 2⟩
def PKG_MODE_MODE_14 : Fld := ⟨.PKG_MODE, 28, 2⟩
def PKG_MODE_MODE_15 : Fld := ⟨.PKG_MODE, 30, 2⟩
def PWR_CTRL_DRAIN : Fld := ⟨.PWR_CTRL, 0, 1⟩
def PWR_CTRL_PARK : Fld := ⟨.PWR_CTRL, 1, 1⟩
def PWR_CTRL_READY : Fld := ⟨.PWR_CTRL, 2, 1⟩
def PWR_CTRL_KEEPALIVE : Fld := ⟨.PWR_CTRL, 3, 1⟩
def PWR_DRAIN_MS_MS : Fld := ⟨.PWR_DRAIN_MS, 0, 16⟩
def PWR_CAP_CAP_W : Fld := ⟨.PWR_CAP, 0, 13⟩
def PWR_CAP_CFG_CAPDROP_FLOOR_W : Fld := ⟨.PWR_CAP_CFG, 0, 12⟩
def PWR_CAP_CFG_SAFE_CAP_W : Fld := ⟨.PWR_CAP_CFG, 16, 13⟩
def PWR_LIMIT_LIMIT_W : Fld := ⟨.PWR_LIMIT, 0, 13⟩
def PWR_LIMIT_SOURCE : Fld := ⟨.PWR_LIMIT, 13, 2⟩
def PWR_LIMIT_CAPDROP : Fld := ⟨.PWR_LIMIT, 15, 1⟩
def PWR_LIMIT_PFW : Fld := ⟨.PWR_LIMIT, 16, 1⟩
def PWR_LIMIT_SAFE : Fld := ⟨.PWR_LIMIT, 17, 1⟩
def PWR_INPUT_POWER_W : Fld := ⟨.PWR_INPUT, 0, 13⟩
def PWR_INPUT_VOLTS_DV : Fld := ⟨.PWR_INPUT, 13, 10⟩
def PWR_CURRENT_AMPS_DA : Fld := ⟨.PWR_CURRENT, 0, 11⟩
def PWR_STATUS_PFW_SEEN : Fld := ⟨.PWR_STATUS, 0, 1⟩
def PWR_STATUS_UNDERVOLT : Fld := ⟨.PWR_STATUS, 1, 1⟩
def PWR_STATUS_TRIP : Fld := ⟨.PWR_STATUS, 2, 1⟩
def PWR_STATUS_REFCLK_FAIL : Fld := ⟨.PWR_STATUS, 3, 1⟩
def PWR_STATUS_CAP_REFUSED : Fld := ⟨.PWR_STATUS, 4, 1⟩
def DIE_OPPOINT_POINT : Fld := ⟨.DIE_OPPOINT, 0, 3⟩
def DIE_OPPOINT_ACLK_M : Fld := ⟨.DIE_OPPOINT, 3, 5⟩
def DIE_OPPOINT_THROTTLED : Fld := ⟨.DIE_OPPOINT, 8, 1⟩
def DIE_OPPOINT_GATE_D : Fld := ⟨.DIE_OPPOINT, 9, 4⟩
def DIE_OPPOINT_VCORE_MV : Fld := ⟨.DIE_OPPOINT, 13, 11⟩
def A1_CFG_A1_IDLE_US : Fld := ⟨.A1_CFG, 0, 10⟩
def THERM_CFG_DRAIN_C : Fld := ⟨.THERM_CFG, 0, 8⟩
def THERM_CFG_THERM_DRAIN_MS : Fld := ⟨.THERM_CFG, 8, 16⟩
def THERM_TEMP_TJ_MAX : Fld := ⟨.THERM_TEMP, 0, 8⟩
def THERM_TEMP_SENSORS_OK : Fld := ⟨.THERM_TEMP, 8, 4⟩
def COOLANT_INLET_C : Fld := ⟨.COOLANT, 0, 8⟩
def COOLANT_OUTLET_C : Fld := ⟨.COOLANT, 8, 8⟩
def MGMT_WATCH_SECONDS : Fld := ⟨.MGMT_WATCH, 0, 7⟩
def AGE_CFG_AGE_WARN_DAYS : Fld := ⟨.AGE_CFG, 0, 16⟩
def AGEING_DAYS : Fld := ⟨.AGEING, 0, 16⟩
def AGEING_LOW90 : Fld := ⟨.AGEING, 16, 16⟩
def BOOT_STATUS_STAGE : Fld := ⟨.BOOT_STATUS, 0, 4⟩
def BOOT_STATUS_CAUSE : Fld := ⟨.BOOT_STATUS, 4, 4⟩
def BOOT_STATUS_RECOVERY_TRIES : Fld := ⟨.BOOT_STATUS, 8, 8⟩
def BOOT_STATUS_RESET_CAUSE : Fld := ⟨.BOOT_STATUS, 16, 4⟩
def BOOT_CFG_FORCE_RECOVERY : Fld := ⟨.BOOT_CFG, 0, 1⟩
def BOOT_CFG_AUTO_READY : Fld := ⟨.BOOT_CFG, 1, 1⟩
def BOOT_CFG_BOOT_LIMIT_S : Fld := ⟨.BOOT_CFG, 8, 6⟩
def COLD_RESET_KEY : Fld := ⟨.COLD_RESET, 0, 16⟩
def COLD_RESET_RESTART : Fld := ⟨.COLD_RESET, 16, 1⟩
def BOOT_COUNT_VALUE : Fld := ⟨.BOOT_COUNT, 0, 32⟩
def FW_VERSION_VALUE : Fld := ⟨.FW_VERSION, 0, 32⟩
def FW_SVN_SVN : Fld := ⟨.FW_SVN, 0, 8⟩
def FW_SVN_FLOOR : Fld := ⟨.FW_SVN, 8, 8⟩
def FW_SVN_REVOKED : Fld := ⟨.FW_SVN, 16, 4⟩
def LC_STATE_STATE : Fld := ⟨.LC_STATE, 0, 3⟩
def LC_STATE_EPOCH : Fld := ⟨.LC_STATE, 3, 2⟩
def LC_REQUEST_TARGET : Fld := ⟨.LC_REQUEST, 0, 3⟩
def LC_REQUEST_ARMED : Fld := ⟨.LC_REQUEST, 3, 1⟩
def LC_CONFIRM_CONFIRM : Fld := ⟨.LC_CONFIRM, 0, 32⟩
def SERIAL_LO_VALUE : Fld := ⟨.SERIAL_LO, 0, 32⟩
def SERIAL_HI_VALUE : Fld := ⟨.SERIAL_HI, 0, 32⟩
def CFG_SEQ_VALUE : Fld := ⟨.CFG_SEQ, 0, 32⟩
def STAGE_CTRL_START : Fld := ⟨.STAGE_CTRL, 0, 1⟩
def STAGE_CTRL_COMMIT : Fld := ⟨.STAGE_CTRL, 1, 1⟩
def STAGE_CTRL_ABORT : Fld := ⟨.STAGE_CTRL, 2, 1⟩
def STAGE_CTRL_KIND : Fld := ⟨.STAGE_CTRL, 3, 1⟩
def STAGE_STATUS_STATE : Fld := ⟨.STAGE_STATUS, 0, 3⟩
def STAGE_STATUS_ERR : Fld := ⟨.STAGE_STATUS, 3, 5⟩
def STAGE_STATUS_PROGRESS : Fld := ⟨.STAGE_STATUS, 8, 24⟩
def STAGE_SERVER_VALUE : Fld := ⟨.STAGE_SERVER, 0, 32⟩
def STAGE_FILE_VALUE : Fld := ⟨.STAGE_FILE, 0, 32⟩
def PCL_CTRL_START : Fld := ⟨.PCL_CTRL, 0, 1⟩
def PCL_CTRL_ABORT : Fld := ⟨.PCL_CTRL, 1, 1⟩
def PCL_CTRL_FULL : Fld := ⟨.PCL_CTRL, 2, 1⟩
def PCL_CTRL_TEST_POINT : Fld := ⟨.PCL_CTRL, 3, 3⟩
def PCL_SELECT_ITEMS : Fld := ⟨.PCL_SELECT, 0, 5⟩
def PCL_CONFIRM_CONFIRM : Fld := ⟨.PCL_CONFIRM, 0, 32⟩
def PCL_STATUS_STATE : Fld := ⟨.PCL_STATUS, 0, 3⟩
def PCL_STATUS_REFUSE : Fld := ⟨.PCL_STATUS, 3, 4⟩
def PCL_STATUS_ITEM : Fld := ⟨.PCL_STATUS, 7, 3⟩
def PCL_STATUS_PERCENT : Fld := ⟨.PCL_STATUS, 10, 7⟩
def PCL_TIME_MS : Fld := ⟨.PCL_TIME, 0, 32⟩
def PCL_RESULT_OUTCOME : Fld := ⟨.PCL_RESULT, 0, 2⟩
def PCL_RESULT_FAULTS : Fld := ⟨.PCL_RESULT, 2, 8⟩
def PCL_RESULT_FIRST : Fld := ⟨.PCL_RESULT, 32, 32⟩
def PIN_STATUS_CAPDROP_LVL : Fld := ⟨.PIN_STATUS, 0, 1⟩
def PIN_STATUS_PFW_LVL : Fld := ⟨.PIN_STATUS, 1, 1⟩
def PIN_STATUS_FAULT_OUT : Fld := ⟨.PIN_STATUS, 2, 1⟩
def PIN_STATUS_OVERVOLT : Fld := ⟨.PIN_STATUS, 3, 1⟩
def PIN_STATUS_DIMM_SB_ERR : Fld := ⟨.PIN_STATUS, 4, 1⟩
end F

end Sys2Proof.Machine
end

