-- ==== Sys2Proof/Machine/State.lean ====
section
/-!
DEFINITION. The state of the module: everything the manual gives it, grouped by chapter, as plain data; the
outcomes that are not a next state; and the state after a cold reset.
-/
namespace Sys2Proof.Machine

/-- Why the module stops. No meaning raises a fault today; the type is closed so that claims can list it. -/
inductive Fault where
  /-- A command whose operands reach an address outside every space the manual describes. Safe. -/
  | noSuchAddress
  deriving DecidableEq, Repr

/-- Why a command has no effect in the model. -/
inductive Refusal where
  /-- Raised by an arm of Dispatch.lean for a command that has no meaning yet. Safe. -/
  | notModelled (mnemonic : String)
  /-- Raised when a command names a die, tile, stream, port or slot that the module does not have (R6, R19,
  R21). Safe: the hardware has no such command. -/
  | noSuchUnit (name : String)
  deriving DecidableEq, Repr

/-- The bytes of a bit vector, the lowest first. -/
def bytesOf {n : Nat} (v : BitVec n) : List Byte := (List.range (n / 8)).map (fun k => v.extractLsb' (8 * k) 8)

/-- Fuses and site constants (R6, R33, R429): values that no reset changes. -/
structure Fuses where
  grade : Grade
  stepping : Nat
  serial : Nat
  /-- R33: retired dies, by number. -/
  retiredDies : List Nat
  /-- R23: pairs of physical columns retired by repairs: die, and the western column plus 32 times the eastern one. -/
  repairs : List (Nat × Nat)
  /-- R136: retired Serge pairs: die and pair. -/
  retiredPairs : List (Nat × Nat)
  /-- R360: retired stacks. -/
  retiredStacks : List Nat
  /-- R366: set once capacity has been lost. -/
  shrunk : Bool
  /-- R429, R441: the life-cycle word of each epoch, its pairs in the order FACTORY, PROVISIONED, DEPLOYED, RETURNED from bit
  0, and the RETIRED pair. -/
  lcWords : List Nat
  retiredPair : Nat
  svnFloor : Nat
  /-- R429: revocation bits of the four firmware keys. -/
  revoked : Nat
  /-- R429: the SM3 digests of the firmware signing keys in slots 0 to 3. -/
  keyDigests : List (List Byte)
  /-- R429: the SM3 digests of the epochs' platform root keys. -/
  rootDigests : List (List Byte)
  /-- R429, R443: the epochs whose root digest, and whose identity seed, is burned, by bit; after a retirement every seed fuse is. -/
  roots : Nat
  seeds : Nat
  deriving DecidableEq, Repr

/-- A module as provisioned, of the larger grade: notes/assumptions/11. -/
def Fuses.shipped : Fuses :=
  { grade := .dxg4140, stepping := 1, serial := Config.serial.toNat, retiredDies := [], repairs := [], retiredPairs := [],
    retiredStacks := [], shrunk := false, lcWords := [63, 0, 0, 0], retiredPair := 0, svnFloor := 0, revoked := 0,
    keyDigests := (List.range 4).map (fun k => bytesOf (Config.fwKey k)),
    rootDigests := [Sm3.digest (bytesOf Config.rootKey), [], [], []], roots := 1, seeds := 1 }

/-- The tile arrays, queues, context slots, agents and weight caches of the compute dies (R61 to R134). Keys
are built by the key functions of Machine/Ops.lean. -/
structure Arr where
  /-- R62: per compute tile and context slot. -/
  tiles : SMap TileCtx
  /-- R62: the accumulator bank, 256 rows per compute tile. -/
  acc : SMap AccRow
  /-- R111: per memory tile, context slot and address generator. -/
  ags : SMap AgState
  /-- R83: per queue and context slot. -/
  queues : SMap Queue
  /-- R82: tokens a boundary agent holds for a boundary queue. -/
  feed : SMap (List Tok)
  /-- R126: tokens that left the array through a boundary port. -/
  drain : SMap (List Tok)
  /-- R124: per control output, the input whose message is being forwarded with its tokens left, as 16n + input. -/
  ctlLock : SMap Nat
  /-- R124: per control output, the input last served, plus one. -/
  ctlLast : SMap Nat
  /-- R109: the SRAM of the memory tiles. -/
  sram : Mem
  /-- R87: the image last loaded in full into each slot. -/
  images : SMap CtxImage
  /-- R87: loads in progress: the image, the stream and ring index of the entry, and the tokens dropped. -/
  loads : SMap (CtxImage × Nat × Nat × Nat)
  /-- R89: selects waiting for their switch cycle, in issue order, per die. -/
  selects : SMap (List PendingSelect)
  /-- R103: the scan each die runs. -/
  scans : SMap ScanJob
  /-- R99, R102: freeze messages on their way: die, slot, cause. -/
  messages : List (Nat × Nat × Nat)
  /-- R125: each agent's cached translations, page numbers, oldest first. -/
  trans : SMap (List Nat)
  /-- R128: reads held for non-resident pages. -/
  heldReads : List HeldRead
  /-- R129: weight-cache sets, most recently used way first. -/
  wc : SMap (List WcLine)
  /-- R130: requests that wait for a way of a set whose 16 ways are all pinned, oldest first: die, strip, address, length and
  asker. -/
  wcWait : List (Nat × Nat × Nat × Nat × Asker)
  /-- R162: dies whose idle notice has been posted since a unit last fired. -/
  idlePosted : SMap Bool
  /-- R264: by die, the slot whose wait another slot's micro-batch fills. -/
  bubble : SMap Nat
  /-- R99: each die's 64-bit count of ACLK cycles, and the cycle in which its active slot's watchdog count reached the limit. -/
  cycles : SMap Nat
  wdogAt : SMap Nat
  /-- R396: cycles still to pass as global stalls, by die. -/
  held : SMap Nat
  /-- R162: consecutive idle cycles of each die. -/
  idleFor : SMap Nat
  /-- R404: nanoseconds for which each die has had nothing to do. -/
  restFor : SMap Nat
  /-- R168: the router's invocations, by die and slot. -/
  invs : SMap Invocation
  /-- R169: slots whose selection is complete, oldest first, by die. -/
  routed : SMap (List Nat)
  /-- R183: router summaries that have not reached their mailbox, oldest first, by die: mailbox, slot, value. -/
  sums : SMap (List (Nat × Nat × Nat))
  /-- R387: the packages whose contexts run in Linen mode, as SWITCH_IN found them. -/
  linenPkgs : SMap Bool
  /-- R396, R398: the TIME_REPEAT bits in force. -/
  timeRepeat : Nat
  deriving DecidableEq, Repr

def Arr.reset : Arr :=
  { tiles := [], acc := [], ags := [], queues := [], feed := [], drain := [], ctlLock := [], ctlLast := [],
    sram := [], images := [], loads := [], selects := [], scans := [], messages := [], trans := [],
    heldReads := [], wc := [], wcWait := [], idlePosted := [], bubble := [], cycles := [], wdogAt := [],
    held := [], idleFor := [], restFor := [], invs := [], routed := [], sums := [], linenPkgs := [], timeRepeat := 0 }

/-- The command streams (R135 to R161). -/
structure Strm where
  /-- R137: the command memory, one 64-byte entry a key. -/
  cmdMem : SMap (BitVec 512)
  /-- Per die and stream. -/
  streams : SMap StreamSt
  /-- R156: per die and slot. -/
  dispatches : SMap Dispatch
  /-- R161: per die and mailbox: context slot and value, oldest first. -/
  mboxes : SMap (List (Nat × Nat))
  /-- R161: issued SUMMARY_WAITs in issue order: die, stream, ring index, mailbox, count. -/
  mboxWaits : List (Nat × Nat × Nat × Nat × Nat)
  /-- R136: the time of each pair's last mismatch. -/
  mismatchAt : SMap Nat
  /-- R135: per Serge pair, the stream its command engine served last, by its number in the pair. -/
  served : SMap Nat
  deriving DecidableEq, Repr

def Strm.reset : Strm :=
  { cmdMem := [], streams := [], dispatches := [], mboxes := [], mboxWaits := [], mismatchAt := [], served := [] }

/-- The three memory tiers (R190 to R220). -/
structure Mas where
  /-- R194: mapped pages by page number. -/
  pages : SMap Pte
  /-- Contents of mapped pages by MAS address; every copy of a page holds the same (R196). Unlisted bytes are zero
  (R197, R200). -/
  mem : Mem
  /-- R191, R213: firmware's system span, by MAS address. -/
  sys : Mem
  /-- R193: the leaf tables by span, each by its half of a frame of the system region, and the half that holds the directory. -/
  leaves : SMap Nat
  dirAt : Nat
  /-- Migrations in progress, in arrival order. -/
  jobs : List MigJob
  /-- R207: the page whose transfer each migration engine runs. -/
  work : SMap Nat
  /-- Ring requests whose pages are not all done. -/
  reqs : List MigReq
  /-- R218: retired near frames: stack and frame. -/
  retired : List (Nat × Nat)
  /-- R220: retired stacks whose writable pages still move at the next step boundary of their die. -/
  moving : List Nat
  /-- R219: retired bulk frames. -/
  retiredBulk : List Nat
  /-- R205: the drives' contents, which survive a reset. -/
  drives : SMap Drive
  /-- R205: the next catalogue write sequence. -/
  deepSeq : Nat
  /-- R216: window fills so far. -/
  winSeq : Nat
  /-- R206: the catalogues have still to be read in this start-up. -/
  scanDue : Bool
  /-- R210: when the present epoch of ACCESS began. -/
  epochAt : Nat
  deriving DecidableEq, Repr

def Mas.reset : Mas :=
  { pages := [], mem := [], sys := [], leaves := [], dirAt := 0, jobs := [], work := [], reqs := [], retired := [], moving := [],
    retiredBulk := [], drives := [], deepSeq := 0, winSeq := 0, scanDue := false, epochAt := 0 }

/-- Error records and events (R379 to R383). Keys are built by Machine/Errors.lean. -/
structure Err where
  /-- R380: the records of the five rings: the general part by position, then the overflow slots by class. -/
  records : SMap ErrRec
  /-- R382, R379: firmware's history of detections: class, kind, source, die and time, newest first. -/
  history : List (Nat × Nat × Nat × Nat × Nat)
  /-- R383: per session and class, the end of the current 1 ms window and the records held for it. -/
  windows : SMap (Nat × List Nat)
  /-- R386: when the last complete scrub pass of each memory ended: near, bulk, SRAM, deep. -/
  scrubAt : SMap Nat
  deriving DecidableEq, Repr

def Err.reset : Err := { records := [], history := [], windows := [], scrubAt := [] }

/-- The host command protocol (R272 to R304): sessions by index, with the management session at index 256; queue
pairs by number; the order of key values given out. -/
structure HostSt where
  /-- R280, R302. -/
  sessions : SMap Session
  /-- R279: the generation last given to each session index. -/
  gens : SMap Nat
  /-- R273. -/
  qps : SMap Qp
  /-- R293: the setting of tenant windows, package groups and contexts that each die applies, by die. -/
  dieSetup : SMap Protection
  /-- R289: protection changes not yet applied by every die, oldest first. -/
  changes : List ProtChange
  /-- R297: delivery rings, by session index and ring. -/
  rings : SMap Ring
  /-- R287: the owner's lease deadline, when LEASE_WARN is due, and whether it has been sent. -/
  lease : Option Nat
  warnAt : Nat
  warned : Bool
  /-- R274: per host port, since when the transmitter is paused. -/
  paused : SMap (Option Nat)
  /-- R15: whether every RWL field is sealed. -/
  isSealed : Bool
  /-- R423: per session and kind of POWER event, the end of the current 1 ms and the records collected. -/
  powerHeld : SMap (Nat × List (List Byte))
  /-- R303: the address last written over I3C. -/
  i3cAddr : Nat
  /-- R417: the time of the last management HEARTBEAT. -/
  mgmtSeen : Nat
  deriving DecidableEq, Repr

def HostSt.reset : HostSt :=
  { sessions := [], gens := [], qps := [], dieSetup := [], changes := [], rings := [], lease := none, warnAt := 0, warned := false,
    paused := [], isSealed := false, powerHeld := [], i3cAddr := 0, mgmtSeen := 0 }

/-- Packages and installs (R222 to R249). -/
structure Wts where
  /-- R233: packages by handle; an unlisted handle is ABSENT. -/
  pkgs : SMap Pkg
  /-- R235: installs, oldest first. -/
  jobs : List Inst
  deriving DecidableEq, Repr

def Wts.reset : Wts := { pkgs := [], jobs := [] }

/-- The link ports and the flows between modules (R305 to R332). -/
structure LinkSt where
  ports : SMap Port
  /-- R320, R322: flows by destination or source, virtual channel and flow label: Machine/Links.lean has the key. -/
  tx : SMap TxFlow
  rx : SMap RxFlow
  /-- R322: when a destination last acknowledged, or when its first outstanding flit was sent. -/
  heard : SMap Nat
  /-- R322: destinations declared unreachable, and when the last PROBE went out. -/
  dead : SMap Nat
  /-- R323: messages without a usable port. -/
  waiting : List WaitMsg
  /-- R325: messages delivered and not yet handled, oldest first. -/
  inbox : List InMsg
  /-- R307: times of CRC failures of each UCIe module, by 16 times the edge plus the module. -/
  crcAt : SMap (List Nat)
  /-- R308: velvet traffic on its way, by 8 times the sending die plus the receiving one. -/
  velvet : SMap VelvetPair
  deriving DecidableEq, Repr

def LinkSt.reset : LinkSt :=
  { ports := [], tx := [], rx := [], heard := [], dead := [], waiting := [], inbox := [], crcAt := [], velvet := [] }

/-- The module steward (R250 to R271). -/
structure Stew where
  /-- R251: requests by slot; an unlisted slot is FREE. -/
  reqs : SMap Req
  /-- R262: micro-batches in flight, oldest first, by package handle. -/
  flights : SMap (List Flight)
  /-- R262: EST by package handle and tabulated row count, in nanoseconds. -/
  est : SMap Nat
  /-- R259: prefix handles, by tenant and handle. -/
  prefixes : SMap Pfx
  /-- R255: tenant levels in thousandths of a token. -/
  levels : SMap Int
  /-- R255: writes of RATE, BURST, DEBT and LEVEL since the last tick, oldest first: tenant, word, value. -/
  budgetWrites : List (Nat × Nat × Nat)
  /-- R266: disables in progress. -/
  disables : List Disable
  /-- R266: functions that are disabled: kind and identifier. -/
  disabled : List (FnKind × Nat)
  /-- The order of acceptance. -/
  order : Nat
  /-- R300: final records readable by FINAL_READ: slot, session field, SEQ, record, and until when, once sent. -/
  kept : List (Nat × Nat × Nat × List Byte × Option Nat)
  /-- R185, R357: expert lists outstanding at other modules. -/
  lists : List Remote
  /-- R327: expert lists in assembly. -/
  parts : List Remote
  /-- R359: compute tiles declared faulty: die, y, x. -/
  faulty : List (Nat × Nat × Nat)
  deriving DecidableEq, Repr

def Stew.reset : Stew :=
  { reqs := [], flights := [], est := [], prefixes := [], levels := [], budgetWrites := [], disables := [], disabled := [],
    order := 0, kept := [], lists := [], parts := [], faulty := [] }

/-- The journal, pairing and takeover (R333 to R366). -/
structure Jr where
  /-- R338, R340: records created and not acknowledged, oldest first. -/
  queue : List JRec
  /-- R347: own acknowledged records that are still live, oldest first. -/
  live : List JRec
  /-- R347: records up to this JSN only resynchronise: their acknowledgement has no further effect; and those acknowledged by
  the partner before a change of partner. -/
  resyncTo : Nat
  settled : List Nat
  /-- A change of partner (JOURNAL_PARTNER written while ACTIVE): the old partner, with old and new JSNs. -/
  prior : Option (Nat × List (Nat × Nat))
  /-- R343: the partner's free bytes. -/
  free : Nat
  /-- R343: the partner has refused a batch, up to this JSN. -/
  refused : Bool
  refusedTo : Nat
  /-- R346: the last journal message from and to the partner; R342: the last batch. -/
  heardAt : Nat
  sentAt : Nat
  batchAt : Nat
  /-- R347, R348: the partner in service, once granted. -/
  partner : Option Nat
  /-- R338: the partner's records held, oldest first, with their times of arrival, and the highest JSN without a gap. -/
  mirror : List (JRec × Nat)
  mirrorJsn : Nat
  /-- R343: this module has refused a batch of its partner. -/
  refusing : Bool
  /-- R343, R347: when the last JRNL_ACK and the last JOURNAL error record for holding were sent. -/
  ackAt : Nat
  holdAt : Nat
  /-- R345: per slot, the highest INDEX whose RDMA WRITE has completed, and the slots with progress since the last batch. -/
  written : SMap Nat
  progress : List Nat
  /-- R347: the failed partner whose requests are to be taken; the old partner that the next PAIR_REQ names; the place in
  JOURNAL_ALT asked last and when. -/
  failed : Option Nat
  oldPartner : Nat
  asking : Option Nat
  askedAt : Nat
  /-- R347: old pairs for which this module has granted a PAIR_REQ: member and old partner. -/
  grants : List (Nat × Nat)
  /-- R348: a PAIR_REQ for a first pairing has been sent, and one has been received. -/
  reqSent : Bool
  reqSeen : Bool
  /-- R347, R348: the JSN whose acknowledgement makes the module ACTIVE. -/
  activeAt : Option Nat
  /-- R350: the frozen journal of the origin, and the origin whose requests are taken once the module is ACTIVE. -/
  frozen : List (JRec × Nat)
  taking : Option Nat
  /-- R346: modules of which this module is the home. -/
  origins : List Nat
  /-- R349, R358: the home of this module's old requests. -/
  fencedBy : Option Nat
  /-- R351: the takeover table, by origin and origin slot; context positions assigned to each member; the origins' takeover
  sets. R353: the SUBJECT_KEY of each origin session, by 256 times the origin plus its index. -/
  table : SMap TkReq
  assigned : SMap Nat
  sets : SMap (List Nat)
  subjects : SMap (List Byte)
  /-- R351: assignments whose TAKEOVER_STATE has not arrived: home, origin, origin slot, priority. -/
  assigns : List (Nat × Nat × Nat × Nat)
  /-- R355: the origins' open commands: origin, session, SEQ, opcode; and the end of their hand-back window. -/
  openCmds : List (Nat × Nat × Nat × Nat)
  rejoinBy : Nat
  /-- R364: the failed module whose placement this spare takes over. -/
  spareFor : Option Nat
  deriving DecidableEq, Repr

def Jr.reset : Jr :=
  { queue := [], live := [], resyncTo := 0, settled := [], prior := none, free := 0, refused := false, refusedTo := 0,
    heardAt := 0, sentAt := 0, batchAt := 0, partner := none, mirror := [], mirrorJsn := 0, refusing := false, ackAt := 0,
    holdAt := 0, written := [], progress := [], failed := none, oldPartner := 0, asking := none, askedAt := 0, grants := [],
    reqSent := false, reqSeen := false, activeAt := none, frozen := [], taking := none, origins := [], fencedBy := none,
    table := [], assigned := [], sets := [], subjects := [], assigns := [], openCmds := [], rejoinBy := 0, spareFor := none }

/-- The NOR of a provisioned module: notes/assumptions/11. -/
def Nor.shipped : Nor := { Nor.empty with rootKey := bytesOf Config.rootKey, cert := bytesOf Config.idCert }

/-- Power, boot, life cycle and test (R400 to R460, R469 to R471). -/
structure Boot where
  /-- R428. -/
  nor : Nor
  /-- R438, R440: the settings that the configuration record applied: address and value; and its address entries: TYPE, INDEX,
  prefix length and address. -/
  configured : List (Nat × Nat)
  addrs : List (Nat × Nat × Nat × List Byte)
  /-- R406: the 48 V input is absent or outside its range. -/
  off : Bool
  /-- R430: the end of the soft start, and a READY that waits for it. -/
  softUntil : Option Nat
  readyWaits : Bool
  /-- R469: MOD_RST_N is low. -/
  held : Bool
  /-- R434: when the start-up must have reached Ready. -/
  bootBy : Option Nat
  /-- R435: recovery is under way, and when it was last tried. -/
  recovering : Bool
  triedAt : Nat
  /-- R433, R446: the measurements of the running image and of the applied configuration record. -/
  mFw : List Byte
  mCfg : List Byte
  /-- R431: segment 0 in the boot SRAM of each I/O die, and the segments in the system span. -/
  sram : List Byte
  span : List (List Byte)
  /-- R436: the staged copy with its kind, and when its last block arrived. -/
  staged : Option (Nat × List Byte)
  blockAt : Nat
  /-- R444: when the life-cycle request was armed. -/
  lcAt : Option Nat
  /-- R408: a drain in progress: whether it ends in Parked, and its deadline. -/
  drainTo : Option Bool
  drainBy : Nat
  /-- R416: when the power-fail sequence began. -/
  failAt : Option Nat
  /-- R416, R20: acceptance, admission and step issue have stopped. -/
  stopping : Bool
  /-- R402: REFCLK is absent or outside its tolerance. -/
  refBad : Bool
  /-- R409: when L last rose. -/
  limitAt : Nat
  /-- R411, R413: per compute die, a voltage change in progress: the point it ends at, when it began and when it ends. -/
  slews : SMap (Nat × Nat × Nat)
  /-- R419: when each die last took a thermal step. -/
  steppedAt : SMap Nat
  /-- R422: sensors marked failed: die and sensor. -/
  badSensors : List (Nat × Nat)
  /-- R452, R454: the last measurement found a core rail more than 3 % from its set point. -/
  railsOff : Bool
  /-- R453: a field test that waits for its confirmation: since when, the PCL_CTRL word, and the session. -/
  pclArmed : Option (Nat × Nat × Nat)
  /-- R455. -/
  pclRun : Option PclRun
  deriving DecidableEq, Repr

def Boot.reset : Boot :=
  { nor := Nor.shipped, configured := [], addrs := [], off := false, softUntil := none, readyWaits := false, held := false,
    bootBy := none, recovering := false, triedAt := 0, mFw := [], mCfg := [], sram := [], span := [], staged := none, blockAt := 0, lcAt := none,
    drainTo := none, drainBy := 0, failAt := none, stopping := false, refBad := false, limitAt := 0, slews := [],
    steppedAt := [], badSensors := [], railsOff := false, pclArmed := none, pclRun := none }

/-- The state of the module. `pending` is the queue of commands that wait, first in, first out; `now` is module
time in nanoseconds; `out` is what the module has put on its ports and told its firmware, newest first;
`fresh` counts the free values used (notes/assumptions/2). -/
structure State where
  /-- Commands waiting, first in, first out. -/
  pending : List Instr
  /-- Module time in nanoseconds (notes/assumptions/1). -/
  now : Nat
  /-- What the module has sent and announced, newest first. -/
  out : List Out
  /-- The model's own counter of free values used. -/
  fresh : Nat
  /-- The 32-bit registers, by absolute address; an unlisted one holds its reset value. -/
  regs : SMap Word
  /-- R165: each path's latched high halves, by the address of the high register. -/
  latches : List (Path × Nat × Word)
  /-- Fuses and site constants. -/
  fuses : Fuses
  /-- Tile arrays, queues and slots. -/
  arr : Arr
  /-- Command streams. -/
  strm : Strm
  /-- Memory tiers and the page table. -/
  mas : Mas
  /-- Error records and events. -/
  err : Err
  /-- The host command protocol. -/
  host : HostSt
  /-- Link ports and flows. -/
  link : LinkSt
  /-- Packages and installs. -/
  wts : Wts
  /-- The module steward. -/
  stew : Stew
  /-- The journal, pairing and takeover. -/
  jr : Jr
  /-- Boot, life cycle, power and test. -/
  boot : Boot
  deriving DecidableEq, Repr

/-- The module right after a cold reset (R15, R33): registers at their reset values, memory and queues empty,
no command waiting. -/
def State.reset : State :=
  { pending := [], now := 0, out := [], fresh := 0, regs := [], latches := [], fuses := Fuses.shipped,
    arr := Arr.reset, strm := Strm.reset, mas := Mas.reset, err := Err.reset, host := HostSt.reset,
    link := LinkSt.reset, wts := Wts.reset, stew := Stew.reset, jr := Jr.reset, boot := Boot.reset }

end Sys2Proof.Machine
end

