-- ==== Sys2Proof/Machine/Ops.lean ====
section
/-!
DEFINITION. Named operations over the state that every chapter uses: registers and their fields, keys of the
sparse tables, the outbox, time and free values.
-/
namespace Sys2Proof.Machine

abbrev Res := Host.Outcome State Fault Refusal

/-- The low `w` bits of `n`. -/
def low (n w : Nat) : Nat := n % 2 ^ w
/-- Bits `lo` to `lo + w - 1` of `n`. -/
def bitsOf (n lo w : Nat) : Nat := n / 2 ^ lo % 2 ^ w
/-- Bit `k` of `n`. -/
def bitOf (n k : Nat) : Bool := decide (n / 2 ^ k % 2 = 1)
/-- `n` with bits `lo` to `lo + w - 1` replaced by `v`. -/
def putBits (n lo w v : Nat) : Nat :=
  n - bitsOf n lo w * 2 ^ lo + v % 2 ^ w * 2 ^ lo
def b2n (b : Bool) : Nat := if b then 1 else 0

/-- R29: base address of a window. -/
def winBase : Win → Nat
  | .glob => 0
  | .die n => 0x1000000 * (n + 1)
  | .tile n y x => 0x1000000 * (n + 1) + 0x800000 + (y * 32 + x) * 0x2000

/-- Address of word `k` of instance `i` of a register. -/
def Reg.addr (r : Reg) (i : Nat) (w : Win) (k : Nat) : Nat :=
  winBase w + r.info.base + r.info.stride * i + 4 * k

/-- Reset value of word `k` of a register. -/
def Reg.resetWord (r : Reg) (k : Nat) : Word := BitVec.ofNat 32 (r.reset / 2 ^ (32 * k))

/-- Word `k` of a register. -/
def State.word (s : State) (r : Reg) (i : Nat) (w : Win) (k : Nat) : Word :=
  SMap.getD s.regs (r.addr i w k) (r.resetWord k)

/-- Set word `k` of a register. -/
def State.setWord (s : State) (r : Reg) (i : Nat) (w : Win) (k : Nat) (v : Word) : State :=
  { s with regs := SMap.setD s.regs (r.addr i w k) v (r.resetWord k) }

/-- `n` words from word `k`, as one little-endian number (R28). -/
def State.span (s : State) (r : Reg) (i : Nat) (w : Win) (k : Nat) : Nat → Nat
  | 0 => 0
  | n + 1 => (s.word r i w k).toNat + 2 ^ 32 * s.span r i w (k + 1) n

def State.setSpan (s : State) (r : Reg) (i : Nat) (w : Win) (k v : Nat) : Nat → State
  | 0 => s
  | n + 1 => (s.setWord r i w k (BitVec.ofNat 32 v)).setSpan r i w (k + 1) (v / 2 ^ 32) n

/-- First word and number of words that a field touches. -/
def Fld.firstWord (f : Fld) : Nat := f.lo / 32
def Fld.wordCount (f : Fld) : Nat := (f.lo + f.w - 1) / 32 - f.lo / 32 + 1

/-- The value of a field. -/
def State.rd (s : State) (f : Fld) (i : Nat := 0) (w : Win := .glob) : Nat :=
  bitsOf (s.span f.reg i w f.firstWord f.wordCount) (f.lo % 32) f.w

/-- Set a field. -/
def State.wr (s : State) (f : Fld) (v : Nat) (i : Nat := 0) (w : Win := .glob) : State :=
  s.setSpan f.reg i w f.firstWord
    (putBits (s.span f.reg i w f.firstWord f.wordCount) (f.lo % 32) f.w v) f.wordCount

/-- A field that is one bit, read as a truth value. -/
def State.flag (s : State) (f : Fld) (i : Nat := 0) (w : Win := .glob) : Bool := decide (s.rd f i w = 1)
def State.wrFlag (s : State) (f : Fld) (b : Bool) (i : Nat := 0) (w : Win := .glob) : State :=
  s.wr f (b2n b) i w
/-- Count up by `n`, wrapping at the field's width. -/
def State.bump (s : State) (f : Fld) (n : Nat := 1) (i : Nat := 0) (w : Win := .glob) : State :=
  s.wr f (s.rd f i w + n) i w
/-- Count up by one, saturating at the field's greatest value. -/
def State.bumpSat (s : State) (f : Fld) (i : Nat := 0) (w : Win := .glob) : State :=
  s.wr f (min (s.rd f i w + 1) (2 ^ f.w - 1)) i w
/-- Set bits of a field that already may hold others. -/
def State.orBits (s : State) (f : Fld) (v : Nat) (i : Nat := 0) (w : Win := .glob) : State :=
  s.wr f (s.rd f i w ||| v) i w

/-- The module sends or announces `o`. -/
def State.emit (s : State) (o : Out) : State := { s with out := o :: s.out }
/-- A firmware request is refused; nothing else changes. -/
def State.turnAway (s : State) (why : String) : State := s.emit (.turnedAway why)
/-- Take the next free value. -/
def State.useFree (s : State) : Nat × State := (Config.freeNat s.fresh, { s with fresh := s.fresh + 1 })

/-- R6: logical columns per die. -/
def Grade.cols : Grade → Nat
  | .dxg4140 => 24
  | .dxg4120 => 20
def State.cols (s : State) : Nat := Grade.cols s.fuses.grade
/-- Two ranges [b, b + n) that share an element; an empty range shares none. -/
def overlap (b1 n1 b2 n2 : Nat) : Bool :=
  decide (0 < n1) && decide (0 < n2) && decide (b1 < b2 + n2) && decide (b2 < b1 + n1)
/-- R33: the GRADE byte. -/
def Grade.byte : Grade → Nat
  | .dxg4140 => 0x40
  | .dxg4120 => 0x20

/-- R441: the current epoch, and the life-cycle state. -/
def lcPair (w k : Nat) : Bool := bitOf w (2 * k) || bitOf w (2 * k + 1)
def State.epoch (s : State) : Nat := ((List.range 4).reverse.find? (fun e => decide (s.fuses.lcWords.getD e 0 % 256 ≠ 0))).getD 0
def State.lc (s : State) : LcSt :=
  let w := s.fuses.lcWords.getD s.epoch 0
  if s.fuses.retiredPair % 4 ≠ 0 then .retired
  else if lcPair w 3 then .returned
  else if lcPair w 2 then .deployed
  else if lcPair w 1 then .provisioned
  else if lcPair w 0 then .factory
  else .blank
/-- R441: only a DEPLOYED module serves: in another state nothing brings it to Serving. -/
def State.noServing (s : State) : Bool := decide (s.lc ≠ .deployed)
/-- R205, R443: the identity that a drive's header names: the module's in its epoch. -/
def State.driveIdent (s : State) : Nat := s.fuses.serial + 2 ^ 64 * s.epoch
/-- R448: LC_STATE.STATE. -/
def lcCode : LcSt → Nat
  | .blank => 0
  | .factory => 1
  | .provisioned => 2
  | .deployed => 3
  | .returned => 4
  | .retired => 5
/-- R442: the current epoch's seed and root digest are burned. -/
def State.provisioned (s : State) : Bool := bitOf s.fuses.seeds s.epoch && bitOf s.fuses.roots s.epoch

/-- R32: the window of a die in A2 or A3, or of a retired one, is closed. -/
def State.dieShut (s : State) (d : Nat) : Bool :=
  decide (2 ≤ bitsOf (s.word .DIE_STATUS 0 .glob 0).toNat (4 * d) 2) || s.fuses.retiredDies.contains d
/-- R32: the state that a refusal of a die's window carries: its power state, and 4 more once it is retired. -/
def State.shutState (s : State) (d : Nat) : Nat :=
  (if s.fuses.retiredDies.contains d then 4 else 0) + bitsOf (s.word .DIE_STATUS 0 .glob 0).toNat (4 * d) 2
/-- R32: a request on a die's window acts only while the window is open; the refusal carries the die's state. -/
def State.inDie (s : State) (d : Nat) (what : String) (t : State) : State :=
  if s.dieShut d then s.emit (.windowShut what d (s.shutState d)) else t
/-- R400: only the identity, Muslin-domain and boot blocks answer in Keep-alive, but to start-up's own firmware. -/
def State.blocksShut (s : State) : Bool :=
  decide (s.rd F.MODULE_STATE_STATE = 1) && !(decide (3 ≤ s.rd F.BOOT_STATUS_STAGE ∧ s.rd F.BOOT_STATUS_STAGE ≤ 6))

/-- R22: a logical site holds a compute tile when y + x is even. -/
def isCompute (y x : Nat) : Bool := (y + x) % 2 = 0

/-- R86: slot state codes. -/
def slotCode : SlotSt → Nat
  | .empty => 0
  | .loading => 1
  | .ready => 2
  | .active => 3
  | .frozen => 4
  | .scanning => 5

/-- Keys of the sparse tables. -/
def dieCtx (die c : Nat) : Nat := die * 4 + c
def siteKey (die y x : Nat) : Nat := (die * 32 + y) * 32 + x
def tileKey (die y x c : Nat) : Nat := siteKey die y x * 4 + c
def rowKey (die y x r : Nat) : Nat := siteKey die y x * 256 + r
def agKey (die y x c a : Nat) : Nat := tileKey die y x c * 4 + a
def queueKey (die qid c : Nat) : Nat := (die * 65536 + qid) * 4 + c
def sramKey (die y x off : Nat) : Nat := siteKey die y x * 524288 + off
def streamKey (die st : Nat) : Nat := die * 64 + st
def mboxKey (die m : Nat) : Nat := die * 256 + m
/-- R85: a queue identifier. -/
def qidOf (y x net input : Nat) : Nat := y + 32 * x + 1024 * net + 4096 * input

/-- Guard: the die exists. -/
def onDie (die : Nat) (k : Res) : Res := if die < 4 then k else .refused (.noSuchUnit "die")
/-- Guard: the site exists on this grade. -/
def onSite (s : State) (die y x : Nat) (k : Res) : Res :=
  if die < 4 ∧ y < 24 ∧ x < s.cols then k else .refused (.noSuchUnit "tile")
/-- Guard: the site exists and holds a compute tile, or a memory tile (R22). -/
def onCt (s : State) (die y x : Nat) (k : Res) : Res :=
  if die < 4 ∧ y < 24 ∧ x < s.cols ∧ isCompute y x then k else .refused (.noSuchUnit "compute tile")
def onMt (s : State) (die y x : Nat) (k : Res) : Res :=
  if die < 4 ∧ y < 24 ∧ x < s.cols ∧ ¬ isCompute y x then k else .refused (.noSuchUnit "memory tile")
def onStream (die st : Nat) (k : Res) : Res :=
  if die < 4 ∧ st < 64 then k else .refused (.noSuchUnit "stream")
def onSlot (die c : Nat) (k : Res) : Res :=
  if die < 4 ∧ c < 4 then k else .refused (.noSuchUnit "slot")

/-- The active slot of a die, if one is (R89). -/
def State.active (s : State) (die : Nat) : Option Nat :=
  if s.flag F.DIE_ACTIVE_NONE 0 (.die die) then none else some (s.rd F.DIE_ACTIVE_SLOT 0 (.die die))

def State.slotState (s : State) (die c : Nat) : Nat := s.rd F.CTX_SLOT_STATE c (.die die)
def State.setSlotState (s : State) (die c : Nat) (st : SlotSt) : State :=
  s.wr F.CTX_SLOT_STATE (slotCode st) c (.die die)

/-- R33, R403: a compute die's power state. -/
def diePs (d : Nat) : Fld := ⟨.DIE_STATUS, 4 * d, 2⟩
def State.dieP (s : State) (d : Nat) : Nat := s.rd (diePs d)
/-- R404: work has reached a die: the time it has rested starts again. -/
def State.restEnds (s : State) (d : Nat) : State :=
  { s with arr := { s.arr with restFor := SMap.setD s.arr.restFor d 0 0 } }
def State.setDieP (s : State) (d v : Nat) : State := (s.restEnds d).wr (diePs d) v
/-- R404: work for a die in A1 wakes it. -/
def State.stir (s : State) (d : Nat) : State := if s.dieP d = 1 then s.setDieP d 0 else s.restEnds d

/-- Read a byte of tile SRAM. -/
def State.sramByte (s : State) (die y x off : Nat) : Byte := SMap.getD s.arr.sram (sramKey die y x off) 0
def State.setSramByte (s : State) (die y x off : Nat) (b : Byte) : State :=
  { s with arr := { s.arr with sram := SMap.setD s.arr.sram (sramKey die y x off) b 0 } }
/-- `n` bytes of tile SRAM as one little-endian number (R12). -/
def State.sramRead (s : State) (die y x off : Nat) : Nat → Nat
  | 0 => 0
  | n + 1 => (s.sramByte die y x off).toNat + 256 * s.sramRead die y x (off + 1) n
def State.sramWrite (s : State) (die y x off v : Nat) : Nat → State
  | 0 => s
  | n + 1 => (s.setSramByte die y x off (BitVec.ofNat 8 v)).sramWrite die y x (off + 1) (v / 256) n

end Sys2Proof.Machine
end

