-- ==== Sys2Proof/Machine/Errors.lean ====
section
/-!
DEFINITION. Events to sessions (R299, R300) and error records (R379 to R386): queueing and sending an event, placing a
record in its ring, the 1 ms event windows, and the retirement of records.
-/
namespace Sys2Proof.Machine

def State.session (s : State) (i : Nat) : Option Session := SMap.find? s.host.sessions i
def State.setSession (s : State) (i : Nat) (v : Session) : State :=
  { s with host := { s.host with sessions := SMap.insert s.host.sessions i v } }
def State.dropSession (s : State) (i : Nat) : State :=
  { s with host := { s.host with sessions := SMap.erase s.host.sessions i } }

/-- R302: the index that stands for the management session, and the queue pair number of the MGMT port. -/
def mgmtIndex : Nat := 256
def mgmtQp : Nat := 4096

/-- The SESSION field of a session (R276): index and generation. -/
def sessionField (i gen : Nat) : Nat := i % 256 + 256 * gen

/-- R299: FINAL, COMPLETION and OWNER cannot be masked, and wait rather than be dropped (R300). -/
def evKept (cls : Nat) : Bool := decide (cls ≤ 0x8003)

/-- R302: the classes the management session receives. -/
def mgmtClass (cls : Nat) : Bool := decide (cls = 0x8005 ∨ cls = 0x8006 ∨ cls = 0x8007)

/-- R276: the 64 header bytes of a packet with its TAG zero. -/
def headerBytes (flags op session tenant len seq status credits detail resv : Nat) : List Byte :=
  toBytes 0x444D4358 4 ++ toBytes 1 1 ++ toBytes flags 1 ++ toBytes op 2 ++ toBytes session 2 ++ toBytes tenant 2 ++
  toBytes len 4 ++ toBytes seq 8 ++ toBytes status 2 ++ toBytes credits 2 ++ toBytes detail 4 ++ toBytes resv 16 ++
  toBytes 0 16
/-- R277: the TAG of a packet under a key. -/
def packetTag (key header body : List Byte) : BitVec 128 :=
  BitVec.ofNat 128 (ofBytes ((hmacSm3 key (header ++ body)).take 16))

def State.qp (s : State) (q : Nat) : Option Qp := SMap.find? s.host.qps q
def State.setQp (s : State) (q : Nat) (v : Qp) : State :=
  { s with host := { s.host with qps := SMap.insert s.host.qps q v } }
/-- R275: free entries of a queue pair's receive ring. -/
def State.credits (s : State) (q : Nat) : Nat :=
  match s.qp q with
  | some v => 256 - v.used
  | none => 256

/-- R298: the queue pair on which a session's traffic travels: the one it came on while bound, else another. -/
def sessionVia (v : Session) (q : Option Nat) : Nat :=
  match q with
  | some n => if v.qps.contains n then n else v.qps.headD 0
  | none => v.qps.headD 0

/-- Send what a session's event queue holds, while a queue pair is bound (R280, R299). -/
def State.flushEvents (s : State) (i : Nat) : State :=
  match s.session i with
  | none => s
  | some v =>
    if v.st = .active then
      let step := fun (g : State × Nat × Nat) (e : Ev) =>
        let q := sessionVia v e.qp
        let detail := g.2.2 % 65536 + 65536 * e.count
        let cr := g.1.credits q
        let h := headerBytes 2 e.cls (sessionField i v.gen) 0 e.body.length (g.2.1 + 1) 0 cr detail 0
        (g.1.emit (.event q (sessionField i v.gen) e.cls (g.2.1 + 1) cr detail (packetTag v.keyMh h e.body) e.body), g.2.1 + 1, 0)
      let r := v.events.foldl step (s, v.evSeq, v.evLost)
      r.1.setSession i { v with events := [], evSeq := r.2.1, evLost := r.2.2 }
    else s

/-- R299, R300: queue an event for a session, or drop and count it, and send what can be sent. -/
def State.sendEventOn (s : State) (i cls count : Nat) (qp : Option Nat) (body : List Byte) : State :=
  match s.session i with
  | none => s
  | some v =>
    if v.st = .opening ∨ v.st = .closed then s
    else if i = mgmtIndex ∧ ¬ mgmtClass cls then s
    else if ¬ evKept cls ∧ bitOf v.mask (cls - 0x8001) then s
    else if 1024 ≤ v.events.length ∧ ¬ evKept cls then s.setSession i { v with evLost := v.evLost + 1 }
    else (s.setSession i { v with events := v.events ++ [{ cls := cls, count := count, qp := qp, body := body }] }).flushEvents i
def State.sendEvent (s : State) (i cls count : Nat) (body : List Byte) : State := s.sendEventOn i cls count none body

/-- An event to every session. -/
def State.broadcast (s : State) (cls count : Nat) (body : List Byte) : State :=
  s.host.sessions.foldl (fun s e => s.sendEvent e.1 cls count body) s

/-- R379: an error record of class `cls` found by a unit. -/
def errOf (cls kind source die : Nat) : ErrRec :=
  { time := 0, cls := cls, kind := kind, source := source, die := die, ctx := 0, action := 0, flags := 0, count := 1,
    slot := 0xFFFF, last := 0, addr := 0, step := 0, detail := 0, seq := 0, detail2 := 0 }

/-- R379: the 64 bytes of a record. -/
def recBytes (r : ErrRec) : List Byte :=
  toBytes r.time 8 ++ toBytes r.cls 1 ++ toBytes r.kind 1 ++ toBytes r.source 2 ++ toBytes r.die 1 ++ toBytes r.ctx 1 ++
  toBytes r.action 1 ++ toBytes r.flags 1 ++ toBytes r.count 4 ++ toBytes r.slot 2 ++ toBytes 0 2 ++ toBytes r.last 8 ++
  toBytes r.addr 8 ++ toBytes r.step 4 ++ toBytes r.detail 4 ++ toBytes r.seq 4 ++ toBytes r.detail2 4 ++ toBytes 0 8

/-- R380: entries of a ring's general part. -/
def ringSize (r : Nat) : Nat := if r = 4 then 4032 else 960
/-- Keys of the general part, by sequence number, and of an overflow slot. -/
def errKey (r seq : Nat) : Nat := r * 8192 + seq % ringSize r
def ovfKey (r cls : Nat) : Nat := r * 8192 + 4096 + cls

def State.errAt (s : State) (k : Nat) : Option ErrRec := SMap.find? s.err.records k
def State.setErr (s : State) (k : Nat) (v : ErrRec) : State :=
  { s with err := { s.err with records := SMap.insert s.err.records k v } }

/-- R380, R386: unread records of a ring's general part. -/
def State.errUnread (s : State) (r : Nat) : Nat := (s.rd F.ERR_WR_SEQ r + 2 ^ 32 - s.rd F.ERR_RD_SEQ r) % 2 ^ 32
/-- Sequence numbers of the unread records, newest first. -/
def State.unreadSeqs (s : State) (r : Nat) : List Nat :=
  (List.range (s.errUnread r)).map (fun i => (s.rd F.ERR_WR_SEQ r + 2 ^ 32 - 1 - i) % 2 ^ 32)
def State.ovfUsed (s : State) (r cls : Nat) : Bool := bitOf (s.rd F.ERR_OVF_VALID_VALID r) cls

/-- R386: ERR_RING_STATUS of a ring. -/
def State.errStatus (s : State) (r : Nat) : State :=
  let used := ((List.range 64).filter (fun c => s.ovfUsed r c)).length
  ((s.wr F.ERR_RING_STATUS_UNREAD (s.errUnread r) r).wrFlag F.ERR_RING_STATUS_FULL
    (decide (ringSize r ≤ s.errUnread r)) r).wr F.ERR_RING_STATUS_OVF_USED used r

/-- R381: the newest unread record of a class, in the general part or its overflow slot. -/
def State.foldTarget (s : State) (r cls : Nat) : Option Nat :=
  let general := ((s.unreadSeqs r).map (errKey r)).filter (fun k =>
    match s.errAt k with
    | some v => decide (v.cls = cls)
    | none => false)
  let slot := if s.ovfUsed r cls then [ovfKey r cls] else []
  let ks := slot ++ general
  (ks.foldl (fun (g : Option (Nat × Nat)) k =>
    match s.errAt k with
    | none => g
    | some v =>
      match g with
      | none => some (k, v.last)
      | some (_, t) => if t < v.last then some (k, v.last) else g) none).map (·.1)

/-- R383: sessions learn of a record: at once, or at the end of the 1 ms window of its class. -/
def State.announce (s : State) (cls key : Nat) : State :=
  s.host.sessions.foldl (fun s e =>
    let k := e.1 * 64 + cls
    match SMap.find? s.err.windows k with
    | none =>
      let s1 := match s.errAt key with
        | some v => s.sendEvent e.1 0x8005 1 (recBytes v)
        | none => s
      { s1 with err := { s1.err with windows := SMap.insert s1.err.windows k (s1.now + 1000000, []) } }
    | some (t, held) =>
      if held.contains key then s
      else { s with err := { s.err with windows := SMap.insert s.err.windows k (t, held ++ [key]) } }) s

/-- R379: a second occurrence at the same source within 24 hours. -/
def State.recurs (s : State) (d : ErrRec) : Bool :=
  s.err.history.any (fun h => decide (h.1 = d.cls ∧ h.2.1 = d.kind ∧ h.2.2.1 = d.source ∧ h.2.2.2.1 = d.die ∧
    s.now < h.2.2.2.2 + 86400000000000))

/-- R380: the ring that takes a detection. -/
def ringOf (die : Nat) : Nat := if die < 4 then die else 4

/-- R381: place a detection: append it, fold it into a record of its class, or use the class's overflow slot.
SEQ of an overflow record is not stated: a free value (notes/assumptions/2). -/
def State.placeErr (s : State) (d : ErrRec) : State :=
  let r := ringOf d.die
  let wr := s.rd F.ERR_WR_SEQ r
  let d := { d with time := s.now, last := s.now, count := 1 }
  if s.errUnread r < ringSize r then
    let k := errKey r wr
    let v := { d with seq := wr }
    ((((s.setErr k v).wr F.ERR_WR_SEQ (wr + 1) r).wr F.ERR_LAST_RECORD (ofBytes (recBytes v)) r).errStatus r).announce d.cls k
  else
    match s.foldTarget r d.cls with
    | some k =>
      (match s.errAt k with
       | some v =>
         let v' := { v with count := min (v.count + 1) (2 ^ 32 - 1), last := s.now, flags := v.flags ||| 1 }
         ((s.setErr k v').wr F.ERR_LAST_RECORD (ofBytes (recBytes v')) r).announce d.cls k
       | none => s)
    | none =>
      let f := s.useFree
      let v := { d with flags := d.flags ||| 2, seq := f.1 % 2 ^ 32 }
      let k := ovfKey r d.cls
      ((((f.2.setErr k v).orBits F.ERR_OVF_VALID_VALID (2 ^ d.cls) r).wr F.ERR_LAST_RECORD (ofBytes (recBytes v)) r).errStatus
        r).announce d.cls k

/-- R369, R381, R382: a detection: counted, placed and announced, whatever the ring's state. -/
def State.detect (s : State) (d : ErrRec) : State :=
  let again := s.recurs d
  let d := if again then { d with flags := d.flags ||| 4 } else d
  let s1 := s.bump F.ERR_COUNT_COUNT 1 (64 * ringOf d.die + d.cls)
  let s2 := { s1 with err := { s1.err with
    history := (d.cls, d.kind, d.source, d.die, s.now) :: s1.err.history.filter (fun h =>
      decide (s.now < h.2.2.2.2 + 86400000000000)) } }
  s2.placeErr d

/-- R379: SOURCE of a tile. -/
def tileSource (y x : Nat) : Nat := y + 32 * x
/-- R379: CTX of a slot. -/
def errCtx (c : Nat) : Nat := c + 4

/-- R423: an event of the module, die or port to every session, at most one of each kind in 1 ms; later records are
collected. -/
def State.powerEvent (s : State) (kind unit v0 v1 : Nat) : State :=
  let rec' := toBytes s.now 8 ++ toBytes kind 1 ++ toBytes unit 1 ++ toBytes 0 2 ++ toBytes v0 4 ++ toBytes v1 4 ++ toBytes 0 12
  s.host.sessions.foldl (fun s e =>
    let k := e.1 * 64 + kind
    match SMap.find? s.host.powerHeld k with
    | none =>
      let s1 := s.sendEvent e.1 0x8007 1 rec'
      { s1 with host := { s1.host with powerHeld := SMap.insert s1.host.powerHeld k (s1.now + 1000000, []) } }
    | some (t, held) =>
      { s with host := { s.host with powerHeld := SMap.insert s.host.powerHeld k (t, held ++ [rec']) } }) s

/-- R406, R407: the module changes state, which sends a POWER event of kind STATE. -/
def State.modState (s : State) : Nat := s.rd F.MODULE_STATE_STATE
def State.moduleTo (s : State) (v : Nat) : State :=
  if s.modState = v then s else (s.wr F.MODULE_STATE_STATE v).powerEvent 9 0xFF s.modState v

/-- R33: the words of DIE_STATUS and ARRAY_SHAPE, whose retirement and spare counts are held in fuses. -/
def State.dieStatus (s : State) : Nat :=
  (List.range 4).foldl (fun n d =>
    let v := bitsOf (s.word .DIE_STATUS 0 .glob 0).toNat (4 * d) 2
    let r := s.fuses.retiredDies.contains d
    n + 2 ^ (4 * d) * (v + 4 * b2n r + 8 * b2n (decide (v ≠ 3) && !r))) 0
/-- R23: spare columns left on a die. -/
def State.spareCols (s : State) (d : Nat) : Nat :=
  26 - s.cols - 2 * (s.fuses.repairs.filter (fun e => decide (e.1 = d))).length
def State.arrayShape (s : State) : Nat :=
  24 + 32 * s.cols + (List.range 4).foldl (fun n d => n + 2 ^ (16 + 4 * d) * s.spareCols d) 0
/-- R362, R299: resources have shrunk: a SHRINK event with what the identity registers report. -/
def State.shrink (s : State) : State :=
  let s1 := { s with fuses := { s.fuses with shrunk := true } }
  s1.broadcast 0x8006 1 (toBytes s1.dieStatus 4 ++ toBytes s1.arrayShape 4 ++ toBytes (s1.word .STACKS_ONLINE 0 .glob 0).toNat 4)

/-- ERROR_EVENT_WINDOW (R383, R423): the window of a session and class ends, or with `power` that of a kind of POWER event;
what it holds goes in one event, and another window begins. Nothing happens before its end. -/
def execErrorEventWindow (power : Bool) (i cls : Nat) (s : State) : Res :=
  .next (if power then
    (match SMap.find? s.host.powerHeld (i * 64 + cls) with
     | none => s
     | some (t, held) =>
       if s.now < t then s
       else if held.isEmpty then { s with host := { s.host with powerHeld := SMap.erase s.host.powerHeld (i * 64 + cls) } }
       else
         let recs := held.take 127
         let s1 := s.sendEvent i 0x8007 recs.length recs.flatten
         { s1 with host := { s1.host with
           powerHeld := SMap.insert s1.host.powerHeld (i * 64 + cls) (s1.now + 1000000, []) } })
  else match SMap.find? s.err.windows (i * 64 + cls) with
    | none => s
    | some (t, held) =>
      if s.now < t then s
      else
        let recs := (held.filterMap s.errAt).take 127
        if recs.isEmpty then { s with err := { s.err with windows := SMap.erase s.err.windows (i * 64 + cls) } }
        else
          let s1 := s.sendEvent i 0x8005 recs.length (recs.flatMap recBytes)
          { s1 with err := { s1.err with
            windows := SMap.insert s1.err.windows (i * 64 + cls) (s1.now + 1000000, []) } })

/-- R386: a write of ERR_RD retires the records it passes; it is refused below its value or beyond ERR_WR. -/
def State.retireTo (s : State) (r v : Nat) : Option State :=
  let step := (v + 2 ^ 32 - s.rd F.ERR_RD_SEQ r) % 2 ^ 32
  if s.errUnread r < step then none else some ((s.wr F.ERR_RD_SEQ v r).errStatus r)

/-- R380, R386: clearing bits of ERR_OVF_VALID retires those records. -/
def State.retireOvf (s : State) (r bits : Nat) : State :=
  let v := s.rd F.ERR_OVF_VALID_VALID r
  (s.wr F.ERR_OVF_VALID_VALID (v - (v &&& bits)) r).errStatus r

/-- AUTO_RETIRE (R380): with AUTO_RETIRE set, records whose LAST_TIME is 1 s old are retired: the oldest of the general part
one after another, and any overflow slot. -/
def execAutoRetire (r : Nat) (s : State) : Res :=
  if r < 5 then
    .next (if s.flag F.ERR_CFG_AUTO_RETIRE then
      let old := fun (k : Nat) => match s.errAt k with
        | some v => decide (v.last + 1000000000 ≤ s.now)
        | none => true
      let n := ((s.unreadSeqs r).reverse.takeWhile (fun q => old (errKey r q))).length
      let s1 := (s.wr F.ERR_RD_SEQ (s.rd F.ERR_RD_SEQ r + n) r)
      let bits := (List.range 64).foldl (fun a c => if s.ovfUsed r c && old (ovfKey r c) then a + 2 ^ c else a) 0
      (s1.retireOvf r bits)
    else s)
  else .refused (.noSuchUnit "error ring")

end Sys2Proof.Machine
end

