-- ==== Sys2Proof/Machine/Velvet.lean ====
section
/-!
DEFINITION. Velvet (R19, R20, R308): the ring of the six dies, the route that a pair's traffic takes, and what is on its way.
-/
namespace Sys2Proof.Machine

/-- R19: the dies at the ends of the die-pair edges; 4 and 5 are the I/O dies. -/
def edgeEnds : List (Nat × Nat) := [(0, 4), (0, 1), (1, 5), (2, 4), (2, 3), (3, 5)]
/-- R19: the six edges join the dies in a ring. -/
def velvetRing : List Nat := [4, 0, 1, 5, 3, 2]

/-- Steps from a die to another one way round the ring. -/
def ringSteps (a b : Nat) : Nat := (velvetRing.idxOf b + 6 - velvetRing.idxOf a) % 6
/-- The dies passed on that way. -/
def ringVia (a b : Nat) : List Nat :=
  (List.range (ringSteps a b - 1)).map (fun k => velvetRing.getD ((velvetRing.idxOf a + 1 + k) % 6) 6)

/-- R19: the relaying dies of the preferred and of the alternative route: the shorter way round the ring, then the other; for
the pairs with two equal ways the table names the preferred one. A pair that shares an edge whose modules are all lost goes
round as well (notes/assumptions/103). -/
def routes (a b : Nat) : List (List Nat) :=
  let there := ringVia a b
  let back := (ringVia b a).reverse
  if ringSteps a b < 3 ∨ (ringSteps a b = 3 ∧ (a = 0 ∨ a = 2 ∨ a = 4)) then [there, back] else [back, there]

/-- R307: the edge between two neighbouring dies has a module in service. -/
def State.edgeUp (s : State) (a b : Nat) : Bool :=
  (edgeEnds.zip (List.range 6)).any (fun e => (e.1 == (a, b) || e.1 == (b, a)) && decide (s.rd F.VELVET_EDGE_STATE e.2 ≠ 0))
/-- R20: a compute die relays in A0, A1 and A2 while it is not retired. -/
def State.relays (s : State) (d : Nat) : Bool := decide (4 ≤ d) || (decide (s.dieP d ≤ 2) && !s.fuses.retiredDies.contains d)
/-- A route whose edges are in service and whose dies relay. -/
def State.routeOpen (s : State) (a b : Nat) (via : List Nat) : Bool :=
  let path := a :: via ++ [b]
  via.all s.relays && (path.zip (path.drop 1)).all (fun e => s.edgeUp e.1 e.2)
/-- R19, R20: the route between two dies: the preferred one while it is open, else the alternative one. -/
def State.route (s : State) (a b : Nat) : Option (List Nat) := (routes a b).find? (s.routeOpen a b)
/-- R19: velvet edges between two dies; a pair that no route joins is the farthest. -/
def State.hops (s : State) (a b : Nat) : Nat :=
  if a = b then 0
  else
    match s.route a b with
    | some via => via.length + 1
    | none => 6

/-- R20: the dies in service that the edges no longer connect to ID0; 5 is ID1. -/
def State.cutOff (s : State) : List Nat :=
  (5 :: (List.range 4).filter (fun d => decide (s.dieP d ≤ 2) && !s.fuses.retiredDies.contains d)).filter (fun d => (s.route 4 d).isNone)
/-- R361: whether every velvet edge of a compute die is down. -/
def State.stranded (s : State) (d : Nat) : Bool :=
  (edgeEnds.zip (List.range 6)).all (fun e => !(decide (e.1.1 = d) || decide (e.1.2 = d)) || decide (s.rd F.VELVET_EDGE_STATE e.2 = 0))

/-! ## Traffic between two dies (R308) -/

def State.velvet (s : State) (a b : Nat) : VelvetPair := SMap.getD s.link.velvet (8 * a + b) { via := [], sent := [], held := [] }
def State.setVelvet (s : State) (a b : Nat) (p : VelvetPair) : State :=
  { s with link := { s.link with velvet :=
    if p.sent.isEmpty && p.held.isEmpty then SMap.erase s.link.velvet (8 * a + b) else SMap.insert s.link.velvet (8 * a + b) p } }

/-- R308: what a pair holds leaves on the route of the moment once everything sent on the old route has been acknowledged. -/
def State.velvetFlush (s : State) (a b : Nat) : State :=
  let p := s.velvet a b
  match s.route a b with
  | none => s
  | some via =>
    if p.held.isEmpty || !(p.sent.isEmpty || p.via == via) then s
    else p.held.foldl (fun (s : State) k => s.emit (.fenceSignal b k)) (s.setVelvet a b { via := via, sent := p.sent ++ p.held, held := [] })
/-- R308: a signal for a pair: it joins those held, and leaves at once unless an old route still holds it back. -/
def State.velvetSend (s : State) (a b k : Nat) : State :=
  let p := s.velvet a b
  (s.setVelvet a b { p with held := p.held ++ [k] }).velvetFlush a b
/-- R308: a pair's oldest signal arrives, and is acknowledged. -/
def State.velvetTake (s : State) (a b : Nat) : State :=
  let p := s.velvet a b
  (s.setVelvet a b { p with sent := p.sent.drop 1 }).velvetFlush a b

end Sys2Proof.Machine
end

