-- ==== Sys2Proof/Machine/MasOps.lean ====
section
/-!
DEFINITION. The model address space (R190 to R212): pages and their entries, reading and writing their
contents, frames and pools, pins and holds, and the start of a promotion.
-/
namespace Sys2Proof.Machine

def pageBytes : Nat := 2097152
/-- R190: page number of an address. -/
def pageOf (a : Nat) : Nat := a / pageBytes
/-- R191: the system span. -/
def inSystem (a : Nat) : Bool := decide (0xFFFF000000000 ≤ a)
/-- R190: the address lies in the 52-bit space. -/
def inMas (a : Nat) : Bool := decide (a < 2 ^ 52)

def State.pte (s : State) (pn : Nat) : Option Pte := SMap.find? s.mas.pages pn
def State.setPte (s : State) (pn : Nat) (p : Pte) : State :=
  { s with mas := { s.mas with pages := SMap.insert s.mas.pages pn p } }

/-! ### Page tables (R193, R194) -/

/-- R194: a page-table entry as its 32 bytes hold it; zero for an unmapped page. -/
def pteNat (p : Pte) : Nat :=
  1 + 2 * b2n p.isSealed + 2 ^ 2 * b2n p.near + 2 ^ 3 * b2n p.bulk + 2 ^ 4 * b2n p.deep + 2 ^ 5 * b2n p.moving +
  2 ^ 6 * b2n p.freeing + 2 ^ 7 * b2n p.windowed + 2 ^ 8 * (p.place % 4) + 2 ^ 10 * (p.budget % 1024) + 2 ^ 20 * (p.mwin % 4096) +
  2 ^ 32 * (p.nearStack % 32) + 2 ^ 37 * (p.nearFrame % 65536) + 2 ^ 64 * (p.bulkFrame % 2 ^ 22) + 2 ^ 96 * (p.deepDrive % 16) +
  2 ^ 100 * (p.deepExtent % 2 ^ 25) + 2 ^ 128 * p.check.toNat + 2 ^ 160 * (p.len % 65536) + 2 ^ 176 * (p.access % 256) +
  2 ^ 184 * (p.owner % 65536) + 2 ^ 200 * b2n p.nodeep
def State.pteBytes (s : State) (pn : Nat) : List Byte := toBytes (match s.pte pn with
  | some p => pteNat p
  | none => 0) 32

/-- R193: the span of a page. -/
def spanOf (pn : Nat) : Nat := pn / 32768
/-- Halves of the frames of the system region, numbered over the stacks, frame by frame (notes/assumptions/97): stack, frame and
half. -/
def halfAt (n : Nat) : Nat × Nat × Nat := (n / 2 % 20, n / 40, n % 2)
/-- R193: a directory entry. -/
def State.dirEntry (s : State) (span : Nat) : Nat :=
  match SMap.find? s.mas.leaves span with
  | some n => 1 + 2 * (halfAt n).1 + 2 ^ 6 * (halfAt n).2.1 + 2 ^ 22 * (halfAt n).2.2
  | none => 0
/-- R193: the pages fit in 1,023 leaves. -/
def State.leavesFit (s : State) (pns : List Nat) : Bool :=
  decide ((s.mas.leaves.map (·.1) ++ pns.map spanOf).eraseDups.length ≤ 1023)
/-- The lowest half of the system region that holds no table, on a stack that is not retired (notes/assumptions/97). -/
def State.pickHalf (s : State) : Nat :=
  ((List.range 2080).find? (fun n => decide (n ≠ s.mas.dirAt) && !s.mas.leaves.any (fun e => decide (e.2 = n)) &&
    !s.fuses.retiredStacks.contains (halfAt n).1)).getD 0
/-- A new page: its entry, and the leaf of its span when that is the first page there. -/
def State.newPte (s : State) (pn : Nat) (p : Pte) : State :=
  let s1 : State := if (SMap.find? s.mas.leaves (spanOf pn)).isSome then s
    else { s with mas := { s.mas with leaves := SMap.insert s.mas.leaves (spanOf pn) s.pickHalf } }
  s1.setPte pn p
/-- A page is unmapped; the leaf goes with the last page of its span (notes/assumptions/97). -/
def State.dropPte (s : State) (pn : Nat) : State :=
  let pages := SMap.erase s.mas.pages pn
  { s with mas := { s.mas with
      pages := pages
      leaves := if pages.any (fun e => decide (spanOf e.1 = spanOf pn)) then s.mas.leaves else SMap.erase s.mas.leaves (spanOf pn) } }
/-- R220: the tables on a stack move to other halves of the system region. -/
def State.moveTables (s : State) (k : Nat) : State :=
  let s1 : State := if (halfAt s.mas.dirAt).1 = k then { s with mas := { s.mas with dirAt := s.pickHalf } } else s
  s1.mas.leaves.foldl (fun (s : State) e =>
    if (halfAt e.2).1 = k then { s with mas := { s.mas with leaves := SMap.insert s.mas.leaves e.1 s.pickHalf } } else s) s1

/-! ### Contents -/

def State.masByte (s : State) (a : Nat) : Byte := SMap.getD s.mas.mem a 0
/-- `n` bytes from `a`, as one little-endian number. -/
def State.masNat (s : State) (a : Nat) : Nat → Nat
  | 0 => 0
  | n + 1 => (s.masByte a).toNat + 256 * s.masNat (a + 1) n
def State.masBytes (s : State) (a n : Nat) : List Byte := (List.range n).map (fun i => s.masByte (a + i))
def State.setMasByte (s : State) (a : Nat) (b : Byte) : State :=
  { s with mas := { s.mas with mem := SMap.setD s.mas.mem a b 0 } }
def State.masWrite (s : State) (a : Nat) : List Byte → State
  | [] => s
  | b :: bs => (s.setMasByte a b).masWrite (a + 1) bs
/-- Zero the bytes of [a, a + n). -/
def State.masZero (s : State) (a n : Nat) : State :=
  { s with mas := { s.mas with mem := SMap.keep s.mas.mem (fun k _ => decide (k < a) || decide (a + n ≤ k)) } }
/-- The listed bytes of one page, by offset. -/
def State.pageData (s : State) (pn : Nat) : Mem :=
  (SMap.keep s.mas.mem (fun k _ => decide (pageOf k = pn))).map (fun e => (e.1 % pageBytes, e.2))
/-- Replace a page's contents. -/
def State.setPageData (s : State) (pn : Nat) (d : Mem) : State :=
  let s1 := s.masZero (pn * pageBytes) pageBytes
  d.foldl (fun s e => s.setMasByte (pn * pageBytes + e.1) e.2) s1

/-- Firmware's system span (R191): its own store. -/
def State.sysWrite (s : State) (a : Nat) : List Byte → State
  | [] => s
  | b :: bs => { s with mas := { s.mas with sys := SMap.setD s.mas.sys a b 0 } }.sysWrite (a + 1) bs

/-- R194: a mapped page none of whose copies is left. -/
def pteLost (p : Pte) : Bool := p.isSealed && !p.near && !p.bulk && !p.deep

/-- What an access to a page meets: it may proceed, it waits for the page to become near, or it faults (R128,
R191, R194, R199). -/
inductive Access where
  | ok | wait | fault
  deriving DecidableEq, Repr

/-- A read at an address (R128, R199, R200). -/
def State.readAccess (s : State) (a : Nat) : Access :=
  if inSystem a || !(inMas a) then .fault
  else
    match s.pte (pageOf a) with
    | none => .fault
    | some p => if p.freeing || pteLost p then .fault else if p.near then .ok else .wait

/-- A write at an address: only writable pages before their seal point take it (R128, R196, R198). -/
def State.writeAccess (s : State) (a : Nat) : Access :=
  if inSystem a || !(inMas a) then .fault
  else
    match s.pte (pageOf a) with
    | none => .fault
    | some p => if p.freeing || p.isSealed || p.sealing then .fault else .ok

/-- The pages that a range of `n` bytes touches. -/
def pagesIn (a n : Nat) : List Nat :=
  if n = 0 then [] else (List.range (pageOf (a + n - 1) - pageOf a + 1)).map (· + pageOf a)

/-- The worst access over a range of pages: a fault anywhere, else a wait anywhere. -/
def State.rangeAccess (s : State) (f : State → Nat → Access) (a n : Nat) : Access :=
  let rs := (pagesIn a n).map (fun pn => f s (pn * pageBytes))
  if rs.contains .fault then .fault else if rs.contains .wait then .wait else .ok

/-- R192: frames of a stack that hold MAS pages. -/
def stackFrames : Nat := 34332 - 52

/-- Whether a job holds a near frame. -/
def jobNear (j : MigJob) : Bool := decide (j.kind = .promote) && j.placed

/-- Near frames in use on a stack: near copies and promotions under way. -/
def State.framesUsed (s : State) (stack : Nat) : Nat :=
  SMap.countIf s.mas.pages (fun _ p => p.near && decide (p.nearStack = stack)) +
  (s.mas.jobs.filter (fun (j : MigJob) => jobNear j && decide (j.stack = stack))).length

/-- R192, R218, R220: free frames of a stack that is online. -/
def State.framesFree (s : State) (stack : Nat) : Nat :=
  if bitOf (s.rd F.STACKS_ONLINE_STACK_ONLINE) stack then
    stackFrames - s.framesUsed stack - (s.mas.retired.filter (fun e => e.1 = stack)).length
  else 0

def State.frameTaken (s : State) (stack f : Nat) : Bool :=
  s.mas.pages.any (fun e => e.2.near && decide (e.2.nearStack = stack) && decide (e.2.nearFrame = f)) ||
  s.mas.jobs.any (fun j => jobNear j && decide (j.stack = stack) && decide (j.frame = f)) ||
  s.mas.retired.contains (stack, f)

/-- The lowest free frame of a stack (notes/assumptions/15): frames 0 to 51 are the system region. -/
def State.pickFrame (s : State) (stack : Nat) : Nat :=
  ((List.range stackFrames).find? (fun k => !(s.frameTaken stack (k + 52)))).getD 0 + 52

/-- The stack with the most free frames of a list, ties to the first. -/
def State.fullest (s : State) (ks : List Nat) : Option Nat :=
  (ks.foldl (fun (g : Option (Nat × Nat)) k =>
    let n := s.framesFree k
    if n = 0 then g
    else
      match g with
      | none => some (k, n)
      | some (_, m) => if m < n then some (k, n) else g) none).map (·.1)

/-- R208: the stack for a promotion asked for by a die: its own fullest stack, else the nearest die's lowest stack
with a free frame. -/
def State.pickStack (s : State) (die : Nat) : Option Nat :=
  match s.fullest ((List.range 5).map (· + 5 * die)) with
  | some k => some k
  | none =>
    let free := (List.range 20).filter (fun k => decide (0 < s.framesFree k))
    (free.foldl (fun (g : Option Nat) k =>
      match g with
      | none => some k
      | some j => if s.hops die (k / 5) < s.hops die (j / 5) then some k else g) none)

/-- R210: the pages that the pool holds for placement: near copies of AUTO and LOW pages. -/
def placedPage (p : Pte) : Bool := p.isSealed && p.near && !p.windowed && (decide (p.place = 0) || decide (p.place = 3))
/-- R210, R212: a near page whose frame is the shared pool's: no budget reserves it. -/
def poolPage (p : Pte) : Bool :=
  p.near && !p.windowed &&
  (if p.isSealed then decide (p.place = 0) || decide (p.place = 3) || decide (p.budget = 0) else decide (p.budget = 0))

/-- R212: the sum of the budgets' limits. -/
def State.limits (s : State) : Nat := (List.range 1024).foldl (fun a b => a + s.rd F.BUDGET_LIMIT b) 0

/-- R220, R221: near frames in service that hold MAS pages: retired frames and stacks leave the count. -/
def State.nearFrames (s : State) : Nat :=
  let on := (List.range 20).filter (fun k => bitOf (s.rd F.STACKS_ONLINE_STACK_ONLINE) k)
  on.length * stackFrames - (s.mas.retired.filter (fun e => on.contains e.1)).length

/-- R238: staging frames that running installs hold beside the pages they have mapped and not yet sealed. -/
def State.stagingHeld (s : State) : Nat :=
  (s.wts.jobs.filter (fun (j : Inst) => decide (2 ≤ j.phase ∧ j.phase ≤ 3))).foldl (fun a j =>
    a + (s.rd F.INSTALL_CFG_STAGE_FRAMES - (j.created.filter (fun pn => match s.pte pn with
      | some p => p.near && !p.isSealed
      | none => false)).length)) 0

/-- R338: frames reserved for the partner's mirror region. -/
def State.mirrorFrames (s : State) : Nat := if s.jr.partner.isSome then 8192 else 0

/-- R210: frames of the pool that are free. -/
def State.poolFree (s : State) : Nat :=
  s.nearFrames - s.limits - SMap.countIf s.mas.pages (fun _ p => poolPage p) -
    (s.mas.jobs.filter (fun j => jobNear j && j.pool)).length - s.stagingHeld - s.mirrorFrames

/-- R212: reserved frames of a budget in use by writable and NEAR pages, and window frames in use. -/
def State.budgetUsed (s : State) (b : Nat) : Nat :=
  SMap.countIf s.mas.pages (fun _ p => decide (p.budget = b) && p.near && !p.windowed &&
    (!p.isSealed || decide (p.place = 1)))
def State.windowUsed (s : State) (b : Nat) : Nat :=
  SMap.countIf s.mas.pages (fun _ p => decide (p.budget = b) && p.near && p.windowed)
/-- Promotions under way into frames of a budget: window frames, or its other reserved frames. -/
def State.jobsInto (s : State) (b : Nat) (win : Bool) : Nat :=
  (s.mas.jobs.filter (fun j => jobNear j && !j.pool && decide (j.win = win) && (match s.pte j.page with
    | some p => decide (p.budget = b)
    | none => false))).length
/-- R212: frames that a budget has for `n` more writable or NEAR pages, beside its window ring. -/
def State.budgetHas (s : State) (b n : Nat) : Bool :=
  decide (s.budgetUsed b + s.jobsInto b false + s.rd F.BUDGET_WINDOW b + n ≤ s.rd F.BUDGET_LIMIT b)
/-- Free near frames of all stacks. -/
def State.nearFree (s : State) : Nat := (List.range 20).foldl (fun a k => a + s.framesFree k) 0

/-- R203: free bulk frames. -/
def State.bulkFree (s : State) : Nat :=
  s.rd F.BULK_FRAMES_COUNT - SMap.countIf s.mas.pages (fun _ p => p.bulk) - s.mas.retiredBulk.length -
    (s.mas.jobs.filter (fun (j : MigJob) => decide (j.kind = .demoteBulk ∨ j.kind = .toStream))).length
/-- The lowest free bulk frame (notes/assumptions/15). -/
def State.pickBulk (s : State) : Nat :=
  ((List.range (s.rd F.BULK_FRAMES_COUNT)).find? (fun k =>
    !(s.mas.pages.any (fun e => e.2.bulk && decide (e.2.bulkFrame = k))) && !(s.mas.retiredBulk.contains k) &&
    !(s.mas.jobs.any (fun j => decide (j.kind = .demoteBulk ∨ j.kind = .toStream) && decide (j.frame = k))))).getD 0

/-- R205: page extents 512 to 33,554,303 at most. -/
def maxExtents : Nat := 33554303 - 511

/-- R205: free page extents of a drive, and a drive with one. -/
def State.deepFree (s : State) (d : Nat) : Nat :=
  if s.rd F.DEEP_DRIVE_STATE d = 1 then
    s.rd F.DEEP_EXTENTS_COUNT d - SMap.countIf s.mas.pages (fun _ p => p.deep && decide (p.deepDrive = d)) -
      (match SMap.find? s.mas.drives d with | some v => v.retired.length | none => 0) -
      (s.mas.jobs.filter (fun (j : MigJob) => decide (j.kind = .demoteDeep ∨ j.kind = .copyDeep) && decide (j.stack = d))).length
  else 0
def State.pickDrive (s : State) : Option Nat := (List.range 16).find? (fun d => decide (0 < s.deepFree d))
/-- R205: page extents begin at 512. -/
def State.pickExtent (s : State) (d : Nat) : Nat :=
  ((List.range (s.rd F.DEEP_EXTENTS_COUNT d)).find? (fun k =>
    !(s.mas.pages.any (fun e => e.2.deep && decide (e.2.deepDrive = d) && decide (e.2.deepExtent = k + 512))) &&
    !(match SMap.find? s.mas.drives d with | some v => v.retired.contains (k + 512) | none => false) &&
    !(s.mas.jobs.any (fun j => decide (j.kind = .demoteDeep ∨ j.kind = .copyDeep) && decide (j.stack = d) &&
      decide (j.frame = k + 512))))).getD 0 + 512

def State.setDrive (s : State) (d : Nat) (v : Drive) : State :=
  { s with mas := { s.mas with drives := SMap.insert s.mas.drives d v } }

/-- R148: a page some weight-cache line of which is pinned. -/
def State.pinnedPage (s : State) (pn : Nat) : Bool :=
  s.strm.streams.any (fun e => e.2.pins.any (fun p => p.lines.any (fun l => decide (pageOf l = pn))))
/-- R211: a page held by a group of a dispatch or by a read in progress at an agent. -/
def State.heldPage (s : State) (pn : Nat) : Bool :=
  s.strm.dispatches.any (fun e => e.2.groups.any (fun g => (pagesIn g.waddr g.wlen).contains pn)) ||
  s.arr.heldReads.any (fun r => (pagesIn r.addr r.len).contains pn) ||
  s.arr.wc.any (fun e => e.2.any (fun w => w.filling && decide (pageOf w.line = pn)))
/-- R210, R211, R148: a page whose near copy stays. -/
def State.keptPage (s : State) (pn : Nat) : Bool := s.pinnedPage pn || s.heldPage pn

/-- R195: remove a page from every agent's translation cache and drop its weight-cache lines (R132); a fill in progress ends by
itself (R130). -/
def State.shootdown (s : State) (pn : Nat) : State :=
  let trans := SMap.keep (SMap.mapVals s.arr.trans (fun _ l => l.filter (fun p => decide (p ≠ pn))))
    (fun _ l => !l.isEmpty)
  let wc := SMap.keep (SMap.mapVals s.arr.wc (fun _ l => l.filter (fun w => decide (pageOf w.line ≠ pn) || w.filling)))
    (fun _ l => !l.isEmpty)
  { s with arr := { s.arr with trans := trans, wc := wc } }

/-- R210: ACCESS rises by one, saturating. -/
def State.touch (s : State) (pn : Nat) : State :=
  match s.pte pn with
  | none => s
  | some p => s.setPte pn { p with access := min (p.access + 1) 255 }

def State.jobOf (s : State) (pn : Nat) : Option MigJob := s.mas.jobs.find? (fun j => decide (j.page = pn))

/-! ### The engines (R203, R207) -/

/-- R203, R219: channels that hold the stripes of a bulk frame, in order. -/
def State.bulkChans (s : State) : List Nat :=
  match s.rd F.BULK_CFG_STATE with
  | 1 => List.range 16
  | 2 => List.range 8
  | 3 => (List.range 8).map (· + 8)
  | _ => []
/-- R203: the channel that holds a byte of a page, by its offset: 128 KiB of a page on each of 16 channels. -/
def State.stripe (s : State) (off : Nat) : Option Nat :=
  s.bulkChans[off / (pageBytes / max s.bulkChans.length 1)]?
/-- R203: the engine of ID0 moves the stripes of channels 0 to 7, that of ID1 those of 8 to 15. -/
def State.bulkEngines (s : State) : List Nat := (s.bulkChans.map (· / 8)).eraseDups
/-- R21, R204: the engine of a drive is that of its port. -/
def State.driveEngine (s : State) (d : Nat) : Nat := s.rd F.DEEP_DRIVE_PORT d
/-- The engines that a migration of a page needs, by its source and its target. -/
def State.engines (s : State) (p : Pte) (kind : MigKind) (drive : Nat) : List Nat :=
  let source := if p.near then [] else if p.bulk then s.bulkEngines else [s.driveEngine p.deepDrive]
  match kind with
  | .promote => source
  | .demoteBulk | .toStream => (s.bulkEngines ++ source).eraseDups
  | .demoteDeep | .copyDeep => (s.driveEngine drive :: source).eraseDups
  | .demoteWait => []

/-- R207: whether an engine may run a job now. -/
def runnable (e : Nat) (j : MigJob) : Bool := j.placed && j.left.contains e
/-- R207: the job an engine takes: the highest class, in arrival order. -/
def State.nextWork (s : State) (e : Nat) : Option MigJob :=
  (s.mas.jobs.filter (runnable e)).foldl (fun (g : Option MigJob) (j : MigJob) =>
    match g with
    | none => some j
    | some b => if j.cls < b.cls then some j else g) none
/-- R207: an engine without a transfer takes its next one; a transfer that has started goes on. -/
def State.engineTake (s : State) (e : Nat) : State :=
  let goesOn := (match SMap.find? s.mas.work e with
    | some pn => s.mas.jobs.any (fun (j : MigJob) => decide (j.page = pn) && runnable e j)
    | none => false)
  { s with mas := { s.mas with work :=
    if goesOn then s.mas.work
    else (match s.nextWork e with
      | some j => SMap.insert s.mas.work e j.page
      | none => SMap.erase s.mas.work e) } }
def State.startWork (s : State) : State := (s.engineTake 0).engineTake 1

def State.addJob (s : State) (j : MigJob) : State :=
  { s with mas := { s.mas with jobs := s.mas.jobs ++ [j] } }.startWork
def State.dropJob (s : State) (pn : Nat) : State :=
  { s with mas := { s.mas with jobs := s.mas.jobs.filter (fun (j : MigJob) => decide (j.page ≠ pn)) } }.startWork
/-- Change a page's job in its place. -/
def State.setJob (s : State) (v : MigJob) : State :=
  { s with mas := { s.mas with jobs := s.mas.jobs.map (fun (j : MigJob) => if j.page = v.page then v else j) } }.startWork
def State.setMoving (s : State) (pn : Nat) (b : Bool) : State :=
  match s.pte pn with
  | none => s
  | some p => s.setPte pn { p with moving := b }

/-- R216: the window frame of a budget filled longest ago, without pin or hold. -/
def State.oldestWindow (s : State) (b : Nat) : Option (Nat × Pte) :=
  s.mas.pages.foldl (fun (g : Option (Nat × Pte)) e =>
    if e.2.near && e.2.windowed && decide (e.2.budget = b) && !(s.keptPage e.1) then
      match g with
      | none => some e
      | some h => if e.2.winSeq < h.2.winSeq then some e else g
    else g) none

/-- R195: drop the near copy of a page. -/
def State.dropNear (s : State) (pn : Nat) : State :=
  match s.pte pn with
  | none => s
  | some p => (s.shootdown pn).setPte pn { p with near := false, windowed := false, nearStack := 0, nearFrame := 0 }

/-- R208, R212, R216: the frame a promotion of a page may have: of the pool, of its budget, or of its budget's window ring. -/
inductive FrameOf where
  | pool | budget | window
  deriving DecidableEq, Repr
def frameOf (p : Pte) : FrameOf :=
  if p.place = 2 then .window else if p.place = 1 ∧ p.budget ≠ 0 then .budget else .pool
/-- Whether that pool, budget or window has a frame to give. -/
def State.frameFor (s : State) (p : Pte) : Bool :=
  match frameOf p with
  | .pool => decide (0 < s.poolFree)
  | .budget => s.budgetHas p.budget 1
  | .window => decide (s.windowUsed p.budget + s.jobsInto p.budget true < s.rd F.BUDGET_WINDOW p.budget)
/-- R216: room in the window ring of a STREAM page, from the window frame filled longest ago when none is free. -/
def State.reclaim (s : State) (p : Pte) : State :=
  if frameOf p = .window ∧ !s.frameFor p then
    (match s.oldestWindow p.budget with
     | some v => s.dropNear v.1
     | none => s)
  else s
/-- Give a promotion its frame (R208, R216): a job stays unplaced while none is to be had. -/
def State.placeJob (s : State) (j : MigJob) : State × MigJob :=
  match s.pte j.page with
  | none => (s, j)
  | some p =>
    let s1 := s.reclaim p
    if !s1.frameFor p then (s1, j)
    else
      match s1.pickStack j.die with
      | none => (s1, j)
      | some k => (s1, { j with placed := true, win := decide (frameOf p = .window), pool := decide (frameOf p = .pool),
                                stack := k, frame := s1.pickFrame k })

/-- R208: the promotions that wait for a frame try again, the highest class first. -/
def State.placeWaiting (s : State) : State :=
  [0, 1, 2, 3].foldl (fun (s : State) c =>
    (s.mas.jobs.filter (fun j => decide (j.kind = .promote) && !j.placed && decide (j.cls = c))).foldl (fun (s : State) j =>
      let r := s.placeJob j
      if r.2.placed then r.1.setJob r.2 else r.1) s) s

/-- R207, R208, R215: ask for a sealed page to become near; a request for a page already on its way joins it, and one for a page
whose copy runs for another reason waits for that to end. -/
def State.requestPromotion (s : State) (pn die cls : Nat) : State :=
  match s.pte pn with
  | none => s
  | some p =>
    if p.near || p.freeing || pteLost p then s
    else
      match s.jobOf pn with
      | some j =>
        if j.kind = .promote ∨ j.next.isSome then s else s.setJob { j with next := some (cls, die) }
      | none =>
        let r := s.placeJob { page := pn, kind := .promote, cls := cls, die := die, placed := false, win := false, pool := false,
                              stack := 0, frame := 0, left := s.engines p .promote 0, next := none, retried := false }
        (r.1.addJob r.2).setMoving pn true

def State.requestRange (s : State) (a n die cls : Nat) : State :=
  (pagesIn a n).foldl (fun s pn => s.requestPromotion pn die cls) s

/-- CHECK of a page (R194): CRC-32C over its first LEN × 64 bytes. -/
def State.pageCheck (s : State) (pn len : Nat) : Word := crc32c (s.masBytes (pn * pageBytes) (64 * len))

end Sys2Proof.Machine
end

