-- ==== Sys2Proof/Machine/Num.lean ====
section
/-!
DEFINITION. Number formats and arithmetic (R34 to R58): codes are natural numbers below 2 to the
format's width; a decoded value is a NaN, an infinity or an exact dyadic; every operation computes
the exact result and rounds once.
-/
namespace Sys2Proof.Machine.Num

/-- The numeric flags of R58, bit by bit: NV, DZ, OF, UF, SAT, NAN_IN, MXNAN. -/
abbrev Flags := BitVec 7

def fNV : Flags := 1
def fDZ : Flags := 2
def fOF : Flags := 4
def fUF : Flags := 8
def fSAT : Flags := 16
def fNANIN : Flags := 32
def fMXNAN : Flags := 64

/-- A floating-point layout of R34: exponent bits, mantissa bits, bias, the largest finite magnitude
code, and whether the format has infinities and NaNs. -/
structure FFmt where
  expBits : Nat
  manBits : Nat
  bias : Nat
  maxCode : Nat
  hasInf : Bool
  nanCode : Nat
  deriving DecidableEq, Repr

def fp32 : FFmt := ⟨8, 23, 127, 0x7F7FFFFF, true, 0x7FC00000⟩
def bf16 : FFmt := ⟨8, 7, 127, 0x7F7F, true, 0x7FC0⟩
def fp16 : FFmt := ⟨5, 10, 15, 0x7BFF, true, 0x7E00⟩
def e4m3 : FFmt := ⟨4, 3, 7, 0x7E, false, 0x7F⟩
def e5m2 : FFmt := ⟨5, 2, 15, 0x7B, true, 0x7E⟩
/-- MX elements have neither infinities nor NaNs (R34); `nanCode` is not used for them. -/
def e2m3 : FFmt := ⟨2, 3, 1, 0x1F, false, 0⟩
def e2m1 : FFmt := ⟨2, 1, 1, 0x7, false, 0⟩

def FFmt.width (f : FFmt) : Nat := 1 + f.expBits + f.manBits
def FFmt.signBit (f : FFmt) : Nat := 2 ^ (f.expBits + f.manBits)
/-- The code of +infinity: exponent all ones, mantissa zero. -/
def FFmt.infCode (f : FFmt) : Nat := (2 ^ f.expBits - 1) * 2 ^ f.manBits

/-- A decoded value: `fin neg m e` is (-1)^neg × m × 2^e. -/
inductive Val where
  | nan
  | inf (neg : Bool)
  | fin (neg : Bool) (m : Nat) (e : Int)
  deriving DecidableEq, Repr

/-- R35: the value of a floating-point code; `elem` formats have no special codes. -/
def decode (f : FFmt) (code : Nat) : Val :=
  let c := code % (2 * f.signBit)
  let neg := decide (f.signBit ≤ c)
  let mag := c % f.signBit
  if f.hasInf && decide (f.infCode < mag) then .nan
  else if f.hasInf && decide (mag = f.infCode) then .inf neg
  else if f.expBits = 4 && decide (f.maxCode < mag) then .nan
  else
    let ef := mag / 2 ^ f.manBits
    let mf := mag % 2 ^ f.manBits
    if ef = 0 then .fin neg mf (1 - (f.bias : Int) - (f.manBits : Int))
    else .fin neg (2 ^ f.manBits + mf) ((ef : Int) - (f.bias : Int) - (f.manBits : Int))

/-- Number of bits of a natural number. -/
def bitLen (n : Nat) : Nat := if n = 0 then 0 else Nat.log2 n + 1

/-- R44: m ÷ 2^s rounded to nearest, ties to even. -/
def rneShift (m s : Nat) : Nat :=
  let q := m / 2 ^ s
  let r := m % 2 ^ s
  if 2 * r < 2 ^ s then q
  else if 2 ^ s < 2 * r then q + 1
  else if q % 2 = 0 then q else q + 1

/-- The rounded magnitude code of m × 2^e, as if the exponent range were unbounded above (R45), and
whether the rounding was exact. -/
def roundMag (f : FFmt) (m : Nat) (e : Int) : Nat × Bool :=
  if m = 0 then (0, true)
  else
    let top : Int := e + (bitLen m : Int) - 1
    let emin : Int := 1 - (f.bias : Int)
    let q : Int := max top emin - (f.manBits : Int)
    let (mant, exact) :=
      if q ≤ e then (m * 2 ^ (e - q).toNat, true)
      else
        let s := (q - e).toNat
        (rneShift m s, decide (m % 2 ^ s = 0))
    if top < emin then (mant, exact)
    else ((top - emin).toNat * 2 ^ f.manBits + mant, exact)

/-- A rounded result: its code and the flags it sets (R45, R58). Overflow gives infinity and OF; with
`sat`, or in a format without infinities, the largest finite value and SAT. -/
def roundTo (f : FFmt) (sat : Bool) (neg : Bool) (m : Nat) (e : Int) : Nat × Flags :=
  let (mag, exact) := roundMag f m e
  let s := if neg then f.signBit else 0
  if f.maxCode < mag then
    if f.hasInf && !sat then (s + f.infCode, fOF) else (s + f.maxCode, fSAT)
  else
    let uf := decide (mag < 2 ^ f.manBits) && !exact
    (s + mag, if uf then fUF else 0)

/-- Rounds in a format with infinities, never saturating (R56). -/
def rnd (f : FFmt) (neg : Bool) (m : Nat) (e : Int) : Nat × Flags := roundTo f false neg m e

def infCodeOf (f : FFmt) (neg : Bool) : Nat := (if neg then f.signBit else 0) + f.infCode
def zeroCodeOf (f : FFmt) (neg : Bool) : Nat := if neg then f.signBit else 0

/-- Encodes a value that is exactly representable or must be rounded once. -/
def encode (f : FFmt) (v : Val) : Nat × Flags :=
  match v with
  | .nan => (f.nanCode, 0)
  | .inf n => (infCodeOf f n, 0)
  | .fin n m e => rnd f n m e

/-- Signed integer n with the sign of (-1)^neg × m. -/
def signed (neg : Bool) (m : Nat) : Int := if neg then -(m : Int) else (m : Int)

/-- The exact sum of two finite dyadics, as a signed integer over 2^(min e). -/
def exactAdd (n1 : Bool) (m1 : Nat) (e1 : Int) (n2 : Bool) (m2 : Nat) (e2 : Int) : Int × Int :=
  let e := min e1 e2
  (signed n1 (m1 * 2 ^ (e1 - e).toNat) + signed n2 (m2 * 2 ^ (e2 - e).toNat), e)

/-- R38 and R56: sum of two decoded values rounded once; an exact zero sum is +0 unless both zeros are −0. -/
def addVal (f : FFmt) (a b : Val) : Nat × Flags :=
  match a, b with
  | .nan, _ => (f.nanCode, fNANIN)
  | _, .nan => (f.nanCode, fNANIN)
  | .inf x, .inf y => if x = y then (infCodeOf f x, 0) else (f.nanCode, fNV)
  | .inf x, .fin .. => (infCodeOf f x, 0)
  | .fin .., .inf y => (infCodeOf f y, 0)
  | .fin n1 m1 e1, .fin n2 m2 e2 =>
    let (z, e) := exactAdd n1 m1 e1 n2 m2 e2
    if z = 0 then (zeroCodeOf f (n1 && n2 && decide (m1 = 0) && decide (m2 = 0)), 0)
    else rnd f (decide (z < 0)) z.natAbs e

def negVal : Val → Val
  | .nan => .nan
  | .inf n => .inf (!n)
  | .fin n m e => .fin (!n) m e

/-- The exact product of two decoded values and whether it is infinity × 0. -/
def mulExact (a b : Val) : Val × Bool :=
  match a, b with
  | .nan, _ => (.nan, false)
  | _, .nan => (.nan, false)
  | .inf x, .inf y => (.inf (x != y), false)
  | .inf x, .fin y m _ => if m = 0 then (.nan, true) else (.inf (x != y), false)
  | .fin x m _, .inf y => if m = 0 then (.nan, true) else (.inf (x != y), false)
  | .fin x m e, .fin y m' e' => (.fin (x != y) (m * m') (e + e'), false)

def isNan : Val → Bool
  | .nan => true
  | _ => false

def mulVal (f : FFmt) (a b : Val) : Nat × Flags :=
  let (p, bad) := mulExact a b
  let fl : Flags := (if bad then fNV else 0) ||| (if isNan a || isNan b then fNANIN else 0)
  match p with
  | .nan => (f.nanCode, fl)
  | .inf n => (infCodeOf f n, fl)
  | .fin n m e => if m = 0 then (zeroCodeOf f n, fl) else
      let (c, g) := rnd f n m e
      (c, fl ||| g)

/-- R56: fused multiply-add with one rounding; infinity × 0 sets NV even when the addend is NaN. -/
def fmaVal (f : FFmt) (a b c : Val) : Nat × Flags :=
  let (p, bad) := mulExact a b
  let nanIn : Flags := if isNan a || isNan b || isNan c then fNANIN else 0
  if bad then (f.nanCode, fNV ||| nanIn)
  else if nanIn ≠ 0 then (f.nanCode, nanIn)
  else addVal f p c

def fAdd (f : FFmt) (x y : Nat) : Nat × Flags := addVal f (decode f x) (decode f y)
def fSub (f : FFmt) (x y : Nat) : Nat × Flags := addVal f (decode f x) (negVal (decode f y))
def fMul (f : FFmt) (x y : Nat) : Nat × Flags := mulVal f (decode f x) (decode f y)
def fFma (f : FFmt) (x y z : Nat) : Nat × Flags := fmaVal f (decode f x) (decode f y) (decode f z)

/-- An order key for non-NaN codes: magnitudes with sign. `strict` orders −0 below +0 (R56, min and max). -/
def ordKey (f : FFmt) (strict : Bool) (code : Nat) : Int :=
  let c := code % (2 * f.signBit)
  let mag := c % f.signBit
  if f.signBit ≤ c then (if strict then -(mag : Int) - 1 else -(mag : Int)) else (mag : Int)

/-- R56: min and max; a NaN operand gives the canonical NaN and NAN_IN. -/
def fMinMax (f : FFmt) (isMax : Bool) (x y : Nat) : Nat × Flags :=
  if isNan (decode f x) || isNan (decode f y) then (f.nanCode, fNANIN)
  else if isMax then (if ordKey f true x < ordKey f true y then (y, 0) else (x, 0))
  else (if ordKey f true y < ordKey f true x then (y, 0) else (x, 0))

/-- R74: compare predicates 0 EQ, 1 NE, 2 LT, 3 LE, 4 GT, 5 GE over order keys. -/
def predHolds (p : Nat) (a b : Int) : Bool :=
  if p = 0 then decide (a = b) else if p = 1 then decide (a ≠ b) else if p = 2 then decide (a < b)
  else if p = 3 then decide (a ≤ b) else if p = 4 then decide (b < a) else decide (b ≤ a)

/-- R56: any comparison with a NaN is false, except not-equal. -/
def fCmp (f : FFmt) (p x y : Nat) : Bool × Flags :=
  if isNan (decode f x) || isNan (decode f y) then (decide (p = 1), fNANIN)
  else (predHolds p (ordKey f false x) (ordKey f false y), 0)

/-- Two's complement value of the low w bits of n. -/
def sint (w n : Nat) : Int :=
  let c := n % 2 ^ w
  if 2 ^ (w - 1) ≤ c then (c : Int) - 2 ^ w else (c : Int)

/-- The w-bit code of an integer, modulo 2^w. -/
def ofInt (w : Nat) (z : Int) : Nat := (z % (2 ^ w : Int)).toNat

/-- Nearest integer of m × 2^e, ties to even (R44). -/
def toIntRne (neg : Bool) (m : Nat) (e : Int) : Int :=
  signed neg (if 0 ≤ e then m * 2 ^ e.toNat else rneShift m (-e).toNat)

/-- R46: FP32 to an integer of w bits, saturating with SAT; NaN gives 0, NV and NAN_IN. -/
def toSInt (w : Nat) (v : Val) : Nat × Flags :=
  let lo : Int := -(2 ^ (w - 1) : Int)
  let hi : Int := 2 ^ (w - 1) - 1
  match v with
  | .nan => (0, fNV ||| fNANIN)
  | .inf n => (ofInt w (if n then lo else hi), fSAT)
  | .fin n m e =>
    let z := toIntRne n m e
    if z < lo then (ofInt w lo, fSAT) else if hi < z then (ofInt w hi, fSAT) else (ofInt w z, 0)

/-- R46: narrowing of an FP32 value into a floating-point format. `sat` is the SAT option, ignored by
E4M3, which always saturates, and by BF16, which never does. -/
def narrow (f : FFmt) (sat : Bool) (v : Val) : Nat × Flags :=
  match v with
  | .nan => (f.nanCode, fNANIN)
  | .inf n => if f.hasInf then (infCodeOf f n, 0) else (f.nanCode, fNV)
  | .fin n m e => if m = 0 then (zeroCodeOf f n, 0) else roundTo f (sat && decide (f ≠ bf16)) n m e

/-- R46: widening of a narrow code to FP32, exact; NaN becomes canonical with NAN_IN. -/
def widen (f : FFmt) (code : Nat) : Nat × Flags :=
  match decode f code with
  | .nan => (fp32.nanCode, fNANIN)
  | .inf n => (infCodeOf fp32 n, 0)
  | .fin n m e => if m = 0 then (zeroCodeOf fp32 n, 0) else rnd fp32 n m e

/-- The value of an integer as a decoded value. -/
def intVal (z : Int) : Val := .fin (decide (z < 0)) z.natAbs 0

/-- The FP32 code of an integer, rounded once (R46). -/
def ofIntF32 (z : Int) : Nat × Flags :=
  if z = 0 then (0, 0) else rnd fp32 (decide (z < 0)) z.natAbs 0

/-- R41 and R46: value of an MX element with its scale. `none` stands for the NaN of scale 0xFF. -/
def mxVal (elem : FFmt) (isInt : Bool) (scale code : Nat) : Option Val :=
  if scale % 256 = 255 then none
  else
    let s : Int := ((scale % 256 : Nat) : Int) - 127
    if isInt then
      let z := sint 8 code
      some (.fin (decide (z < 0)) z.natAbs (s - 6))
    else
      match decode elem code with
      | .fin n m e => some (.fin n m (e + s))
      | v => some v

/-- R46: MX element with its scale to FP32. -/
def mxToF32 (elem : FFmt) (isInt : Bool) (scale code : Nat) : Nat × Flags :=
  match mxVal elem isInt scale code with
  | none => (fp32.nanCode, fMXNAN)
  | some (.fin n m e) => if m = 0 then (zeroCodeOf fp32 n, 0) else rnd fp32 n m e
  | some v => encode fp32 v

/-- floor(log2) of m × 2^e for m ≠ 0. -/
def floorLog2 (m : Nat) (e : Int) : Int := e + (bitLen m : Int) - 1

/-- The larger of two finite magnitudes, compared exactly. -/
def magLt (a b : Nat × Int) : Bool :=
  let e := min a.2 b.2
  decide (a.1 * 2 ^ (a.2 - e).toNat < b.1 * 2 ^ (b.2 - e).toNat)

/-- One element of the last step of R47: y = x ÷ 2^e rounded to the element format and clamped. -/
def mxElem (elem : FFmt) (isInt : Bool) (e : Int) (v : Val) : Nat :=
  match v with
  | .fin n m ex =>
    if isInt then
      let z := toIntRne n m (ex - e + 6)
      ofInt 8 (if z < -127 then -127 else if 127 < z then 127 else z)
    else
      let (mag, _) := roundMag elem m (ex - e)
      (if n then elem.signBit else 0) + (if elem.maxCode < mag then elem.maxCode else mag)
  | _ => 0

/-- R47: MX quantisation of decoded values: the scale, the element codes and the flags. -/
def mxQuant (elem : FFmt) (isInt : Bool) (emax : Int) (xs : List Val) : Nat × List Nat × Flags :=
  let anyNan := xs.any isNan
  let anyInf := xs.any (fun v => match v with | .inf _ => true | _ => false)
  if anyNan || anyInf then
    (0xFF, xs.map (fun _ => 0),
      fMXNAN ||| (if anyInf then fNV else 0) ||| (if anyNan then fNANIN else 0))
  else
    let amax := xs.foldl (fun a v => match v with
      | .fin _ m e => if m ≠ 0 && (a.1 = 0 || magLt a (m, e)) then (m, e) else a
      | _ => a) ((0 : Nat), (0 : Int))
    if amax.1 = 0 then
      (0x7F, xs.map (fun v => match v with
        | .fin true _ _ => if isInt then 0 else elem.signBit
        | _ => 0), 0)
    else
      let e := max (floorLog2 amax.1 amax.2 - emax) (-127)
      ((e + 127).toNat, xs.map (mxElem elem isInt e), 0)

/-- Integer square root, bit by bit: the largest r below 2^k with r × r ≤ n, from `r`. -/
def isqrtAux (n : Nat) : Nat → Nat → Nat
  | 0, r => r
  | k + 1, r => let t := r + 2 ^ k; isqrtAux n k (if t * t ≤ n then t else r)

def isqrt (n : Nat) : Nat := isqrtAux n (bitLen n / 2 + 1) 0

/-- R57: the reciprocal, rounded once. The quotient carries a sticky bit, so rounding is exact. -/
def fRcp (x : Nat) : Nat × Flags :=
  match decode fp32 x with
  | .nan => (fp32.nanCode, fNANIN)
  | .inf n => (zeroCodeOf fp32 n, 0)
  | .fin n m e =>
    if m = 0 then (infCodeOf fp32 n, fDZ)
    else
      let q := 2 ^ 80 / m
      let r := 2 ^ 80 % m
      rnd fp32 n (2 * q + (if r = 0 then 0 else 1)) (-e - 81)

/-- R57: the reciprocal square root, rounded once. -/
def fRsqrt (x : Nat) : Nat × Flags :=
  match decode fp32 x with
  | .nan => (fp32.nanCode, fNANIN)
  | .inf n => if n then (fp32.nanCode, fNV) else (0, 0)
  | .fin n m e =>
    if m = 0 then (infCodeOf fp32 n, fDZ)
    else if n then (fp32.nanCode, fNV)
    else
      let (m', e') := if e % 2 = 0 then (m, e) else (2 * m, e - 1)
      let num := 2 ^ 160 / m'
      let q := isqrt num
      let exact := decide (q * q * m' = 2 ^ 160)
      rnd fp32 false (2 * q + (if exact then 0 else 1)) (-(e' / 2) - 81)

/-- ln 2 × 2^160, the constant of the series that evaluates 2^f in `fExp2`. -/
def ln2Fix : Nat := 1013035739299659071135698605846798551586536899366

/-- The exponential series at y × 2^-160, as a fixed-point number with 160 fraction bits. -/
def expSeries (y : Nat) : Nat → Nat → Nat → Nat → Nat
  | 0, _, _, acc => acc
  | fuel + 1, k, term, acc =>
    let t := term * y / 2 ^ 160 / k
    expSeries y fuel (k + 1) t (acc + t)

/-- R57: exp2. The fraction's power of two is evaluated to 150 bits and given a sticky bit; an FP32
result is decided by fewer (notes/assumptions/3). -/
def fExp2 (x : Nat) : Nat × Flags :=
  match decode fp32 x with
  | .nan => (fp32.nanCode, fNANIN)
  | .inf n => if n then (0, 0) else (infCodeOf fp32 false, 0)
  | .fin n m e =>
    if m = 0 then (0x3F800000, 0)
    else if decide (floorLog2 m e < -30) then (0x3F800000, 0)
    else
      let fix := signed n (if 0 ≤ e then m * 2 ^ (e.toNat + 160) else m * 2 ^ 160 / 2 ^ (-e).toNat)
      if (128 * 2 ^ 160 : Int) ≤ fix then (infCodeOf fp32 false, fOF)
      else if fix ≤ (-150 * 2 ^ 160 : Int) then (0, fUF)
      else
        let k := fix / (2 ^ 160 : Int)
        let fr := (fix % (2 ^ 160 : Int)).toNat
        if fr = 0 then rnd fp32 false 1 k
        else
          let y := fr * ln2Fix / 2 ^ 160
          let a := expSeries y 48 1 (2 ^ 160) (2 ^ 160)
          rnd fp32 false (2 * a + 1) (k - 161)

end Sys2Proof.Machine.Num
end

