-- ==== Sys2Proof/Machine/Lanes.lean ====
section
/-!
DEFINITION. Lanes of a vector token (R63, R64), the formats of an operation word (R65) and what each vector
operation does to lanes (R46, R47, R55 to R57, R74 to R76).
-/
namespace Sys2Proof.Machine
open Sys2Proof.Machine.Num

/-- Lane `i` of width `w`. -/
def lane (t : Tok) (w i : Nat) : Nat := (t.extractLsb' (w * i) w).toNat
/-- All lanes of width `w`. -/
def lanes (t : Tok) (w : Nat) : List Nat := (List.range (1024 / w)).map (lane t w)
/-- Lanes laid out from lane `i`, as a number. -/
def packNat (w : Nat) : List Nat → Nat
  | [] => 0
  | v :: vs => v % 2 ^ w + 2 ^ w * packNat w vs
/-- A token of lanes, lane 0 lowest. -/
def packLanes (w : Nat) (vs : List Nat) : Tok := BitVec.ofNat 1024 (packNat w vs)
/-- A token with `n` bits from bit `lo` replaced. -/
def putTok (t : Tok) (lo n v : Nat) : Tok :=
  BitVec.ofNat 1024 (t.toNat - t.toNat / 2 ^ lo % 2 ^ n * 2 ^ lo + v % 2 ^ n * 2 ^ lo)
/-- R63: a 32-bit value broadcast to lanes of width `w` fills them with its low bits. -/
def splat (w v : Nat) : Tok := packLanes w (List.replicate (1024 / w) (v % 2 ^ w))

/-- R65: lane width of a format code; MX formats travel in whole blocks and count as bytes here. -/
def fmtWidth : Nat → Nat
  | 0 => 32
  | 1 => 16
  | 2 => 16
  | 6 => 32
  | _ => 8
/-- R65: the layout of a floating-point format code. -/
def fmtF : Nat → FFmt
  | 1 => bf16
  | 2 => fp16
  | 3 => e4m3
  | 4 => e5m2
  | _ => fp32
def isInt32 (fmt : Nat) : Bool := decide (fmt = 6)

/-- INT32 comparison key. -/
def s32 (x : Nat) : Int := sint 32 x

/-- R74: lane result and flags of an operation on lanes A, B and C. -/
def laneOp (opc fmt imm a b c : Nat) : Nat × Flags :=
  let f := fmtF fmt
  match opc with
  | 0x20 => if isInt32 fmt then ((a + b) % 2 ^ 32, 0) else fAdd f a b
  | 0x21 => if isInt32 fmt then ((a + 2 ^ 32 - b) % 2 ^ 32, 0) else fSub f a b
  | 0x22 => fMul f a b
  | 0x23 => fFma f a b c
  | 0x24 => if isInt32 fmt then (if s32 a ≤ s32 b then a else b, 0) else fMinMax f false a b
  | 0x25 => if isInt32 fmt then (if s32 a ≤ s32 b then b else a, 0) else fMinMax f true a b
  | 0x26 =>
    let ones := 2 ^ fmtWidth fmt - 1
    if isInt32 fmt then (if predHolds (imm % 8) (s32 a) (s32 b) then ones else 0, 0)
    else
      let r := fCmp f (imm % 8) a b
      (if r.1 then ones else 0, r.2)
  | 0x27 => (if c ≠ 0 then a else b, 0)
  | 0x28 => (a &&& b, 0)
  | 0x29 => (a ||| b, 0)
  | 0x2A => (a * 2 ^ (b % 32) % 2 ^ 32, 0)
  | 0x2B => (if imm % 2 = 1 then ofInt 32 (s32 a / (2 ^ (b % 32) : Int)) else a / 2 ^ (b % 32), 0)
  | 0x30 => fExp2 a
  | 0x31 => fRcp a
  | 0x32 => fRsqrt a
  | _ => (a, 0)

/-- Lane by lane, collecting flags. -/
def mapLanes (opc fmt imm : Nat) (a b c : Tok) : Tok × Flags :=
  let w := fmtWidth fmt
  let rs := (List.range (1024 / w)).map (fun i => laneOp opc fmt imm (lane a w i) (lane b w i) (lane c w i))
  (packLanes w (rs.map (·.1)), rs.foldl (fun g r => g ||| r.2) 0)

/-- R46: one lane converted from format code `src` to `dst`: through FP32 exactly, then once. -/
def convLane (src dst : Nat) (sat : Bool) (x : Nat) : Nat × Flags :=
  let up : Nat × Flags :=
    match src with
    | 0 => (x, 0)
    | 5 => ofIntF32 (sint 8 x)
    | 6 => ofIntF32 (sint 32 x)
    | _ => widen (fmtF src) x
  let v := decode fp32 up.1
  let down : Nat × Flags :=
    match dst with
    | 0 => if src = 0 then narrow fp32 false v else (up.1, 0)
    | 5 => toSInt 8 v
    | 6 => toSInt 32 v
    | _ => narrow (fmtF dst) sat v
  (down.1, up.2 ||| down.2)

/-- R64: block slots in a token of MX format code 7, 8 or 9. -/
def mxSlots (fmt : Nat) : Nat := if fmt = 9 then 3 else 4
/-- R42: bits of an MX element. -/
def mxBits (fmt : Nat) : Nat := if fmt = 7 then 4 else if fmt = 8 then 6 else 8
def mxElemFmt (fmt : Nat) : FFmt := if fmt = 7 then e2m1 else e2m3
def mxIsInt (fmt : Nat) : Bool := decide (fmt = 9)
def mxEmax (fmt : Nat) : Int := if fmt = 9 then 0 else 2
/-- R64: first bit of block slot `b`. -/
def mxLo (fmt b : Nat) : Nat := 8 * (mxBits fmt * 4 * b)
def mxScale (t : Tok) (b : Nat) : Nat := lane t 8 (124 + b)
def mxCode (fmt : Nat) (t : Tok) (b i : Nat) : Nat :=
  (t.extractLsb' (mxLo fmt b + mxBits fmt * i) (mxBits fmt)).toNat

/-- R64: the block slots of a token and their scales; every other byte is zero. -/
def mxClean (fmt : Nat) (t : Tok) : Tok :=
  BitVec.ofNat 1024 (t.toNat % 2 ^ mxLo fmt (mxSlots fmt) + t.toNat / 2 ^ 992 % 2 ^ (8 * mxSlots fmt) * 2 ^ 992)

/-- R47 and R64: 32 values quantised into block slot `b` of `dst`. -/
def mxPack (fmt : Nat) (vals : List Val) (dst : Tok) (b : Nat) : Tok × Flags :=
  let r := mxQuant (mxElemFmt fmt) (mxIsInt fmt) (mxEmax fmt) vals
  let t := putTok (mxClean fmt dst) (mxLo fmt b) (32 * mxBits fmt) (packNat (mxBits fmt) r.2.1)
  (putTok t (8 * (124 + b)) 8 r.1, r.2.2)

/-- R74: block slot `b` with its scale to 32 FP32 lanes. -/
def mxUnpack (fmt : Nat) (t : Tok) (b : Nat) : Tok × Flags :=
  let rs := (List.range 32).map (fun i => mxToF32 (mxElemFmt fmt) (mxIsInt fmt) (mxScale t b) (mxCode fmt t b i))
  (packLanes 32 (rs.map (·.1)), rs.foldl (fun g r => g ||| r.2) 0)

/-- R56: one level of the sum tree: lane i plus lane i + n. -/
def sumLevel (n : Nat) (xs : List Nat) : List Nat × Flags :=
  let rs := (List.range n).map (fun i => fAdd fp32 (xs.getD i 0) (xs.getD (i + n) 0))
  (rs.map (·.1), rs.foldl (fun g r => g ||| r.2) 0)

/-- R56: the FP32 sum of 32 lanes, in its fixed order. -/
def sumTree (xs : List Nat) : Nat × Flags :=
  let a := sumLevel 16 xs
  let b := sumLevel 8 a.1
  let c := sumLevel 4 b.1
  let d := sumLevel 2 c.1
  let e := sumLevel 1 d.1
  (e.1.getD 0 0, a.2 ||| b.2 ||| c.2 ||| d.2 ||| e.2)

/-- FP32 maximum or minimum of lanes under R56. -/
def foldMinMax (isMax : Bool) (xs : List Nat) : Nat × Flags :=
  xs.tail.foldl (fun g x => let r := fMinMax fp32 isMax g.1 x; (r.1, g.2 ||| r.2)) (xs.headD 0, 0)
def foldS32 (isMax : Bool) (xs : List Nat) : Nat :=
  xs.tail.foldl (fun g x => if isMax = decide (s32 g ≤ s32 x) then x else g) (xs.headD 0)
def sum32 (xs : List Nat) : Nat := xs.foldl (· + ·) 0 % 2 ^ 32

/-- VRED (R74): the reduction that IMM[1:0] selects. -/
def reduce (fmt imm : Nat) (xs : List Nat) : Nat × Flags :=
  match imm % 4 with
  | 0 => sumTree xs
  | 1 => if isInt32 fmt then (foldS32 true xs, 0) else foldMinMax true xs
  | 2 => if isInt32 fmt then (foldS32 false xs, 0) else foldMinMax false xs
  | _ => (sum32 xs, 0)

/-- VSSEND (R76): the summary of one register. -/
def summary (kind : Nat) (xs : List Nat) : Nat × Flags :=
  match kind % 4 with
  | 0 => foldMinMax true xs
  | 1 => (if xs.any (fun x => decide (x ≠ 0)) then 1 else 0, 0)
  | 2 => ((xs.filter (fun x => decide (x ≠ 0))).length, 0)
  | _ => (sum32 xs, 0)
/-- R76: summaries of an ACCUM word combine by maximum, or, sum, sum. -/
def combineSummary (kind a b : Nat) : Nat × Flags :=
  match kind % 4 with
  | 0 => fMinMax fp32 true a b
  | 1 => (a ||| b, 0)
  | _ => ((a + b) % 2 ^ 32, 0)

/-- VSHUF (R74): the lane that result lane `i` takes. Rotating down moves lane n to lane 0
(notes/assumptions/13). -/
def shufIndex (imm : Nat) (b : Tok) (i : Nat) : Nat :=
  let n := imm % 32
  match imm / 64 % 4 with
  | 0 => (i + n) % 32
  | 1 => n
  | 2 => Nat.xor i n
  | _ => lane b 32 i % 32

end Sys2Proof.Machine
end

