-- ==== Sys2Proof/Machine/Queue.lean ====
section
/-!
DEFINITION. Queues, credits and switches (R79 to R85, R92 to R97, R121 to R127): the token queues of a context,
room and spill, and one forwarding by a switch output.
-/
namespace Sys2Proof.Machine

def State.queue (s : State) (die qid c : Nat) : Queue :=
  SMap.getD s.arr.queues (queueKey die qid c) Queue.empty
def State.setQueue (s : State) (die qid c : Nat) (q : Queue) : State :=
  { s with arr := { s.arr with queues := SMap.setD s.arr.queues (queueKey die qid c) q Queue.empty } }

/-- Fields of a queue identifier (R85). -/
def qidY (q : Nat) : Nat := q % 32
def qidX (q : Nat) : Nat := q / 32 % 32
def qidNet (q : Nat) : Nat := q / 1024 % 4
def qidInput (q : Nat) : Nat := q / 4096 % 16

/-- R83: entries of a queue that contexts may use, by network. -/
def netEntries (net : Nat) : Nat := if net = 0 then 32 else if net = 1 then 64 else 56
/-- R92: tokens that 4 KiB of extension holds, by network. -/
def extTokens (net : Nat) : Nat := if net = 0 then 32 else if net = 1 then 1024 else 4096
/-- R92: capacity of a queue's extension in tokens. -/
def qCap (q : Queue) (net : Nat) : Nat := q.extLen * extTokens net

/-- R93: a queue spills while its extension holds tokens or a spill is being set up. -/
def qSpills (q : Queue) : Bool := q.setup || !q.ext.isEmpty
/-- R93: an arriving token goes to the extension's tail. -/
def qToExt (q : Queue) : Bool := q.armed || !q.ext.isEmpty

/-- R80, R93: tokens that the upstream producer may deliver: none during a spill's set-up; else the entries whose credit has
returned, or room at the extension's tail. -/
def qRoom (q : Queue) (net : Nat) : Nat :=
  if q.setup then 0
  else if qToExt q then qCap q net - q.ext.length else q.len - (q.toks.length + q.freed)

/-- R93: the set-up of a spill begins as the last free entry of a partition with an extension fills. -/
def qFilled (q : Queue) : Queue :=
  if 0 < q.extLen ∧ q.len ≤ q.toks.length then { q with setup := true } else q

/-- R93: a token enters: the extension's tail, or the partition's tail. -/
def qPush (q : Queue) (t : Tok) : Queue :=
  if qToExt q then { q with ext := q.ext ++ [t], waiting := false }
  else qFilled { q with toks := q.toks ++ [t], waiting := false }

/-- R80: the consumer takes the head; the entry is usable again once its credit returns. With an empty extension the partition
then takes arrivals again. -/
def qPop (q : Queue) : Queue :=
  { q with toks := q.toks.tail, freed := q.freed + 1, armed := q.armed && !q.ext.isEmpty }

/-- R93: the set-up ends. Where the partition has not stayed full nothing spills, DEDUCED: notes/assumptions/93. -/
def qSpill (q : Queue) : Queue := { q with setup := false, armed := decide (q.len ≤ q.toks.length) }

/-- R93: the extension's head enters the partition's tail; the spill ends with the last token. -/
def qRefill (q : Queue) : Queue :=
  match q.ext with
  | [] => q
  | t :: rest =>
    let q1 := { q with toks := q.toks ++ [t], ext := rest, freed := q.freed - 1, armed := false }
    if rest.isEmpty then qFilled q1 else q1

/-- R97: partition full, extension full or absent, and a token waits to enter. -/
def qBlocked (q : Queue) (net : Nat) : Bool :=
  decide (q.len ≤ q.toks.length) && decide (qCap q net ≤ q.ext.length) && q.waiting

/-- A token of the context enters a queue; tokens written into an extension are counted (R95). -/
def State.pushTok (s : State) (die qid c : Nat) (t : Tok) : State :=
  let q := s.queue die qid c
  let s' := s.setQueue die qid c (qPush q t)
  if qToExt q then s'.bump F.SPILL_TOKENS_COUNT 1 c (.die die) else s'

def State.pushToks (s : State) (die qid c : Nat) (ts : List Tok) : State :=
  ts.foldl (fun s t => s.pushTok die qid c t) s

def State.roomAt (s : State) (die qid c : Nat) : Nat := qRoom (s.queue die qid c) (qidNet qid)
def State.headTok (s : State) (die qid c : Nat) : Option Tok := (s.queue die qid c).toks.head?
def State.popTok (s : State) (die qid c : Nat) : State := s.setQueue die qid c (qPop (s.queue die qid c))
/-- A producer found no room: the token waits to enter (R97). -/
def State.markWaiting (s : State) (die qid c : Nat) : State :=
  s.setQueue die qid c { s.queue die qid c with waiting := true }

/-- R97, R162: a unit of the context has fired: its watchdog count returns to 0 and the die may post another
idle notice. -/
def State.fired (s : State) (die c : Nat) : State :=
  let s' := s.wr F.WDOG_COUNT_COUNT 0 c (.die die)
  { s' with arr := { s'.arr with
      idlePosted := SMap.setD s'.arr.idlePosted die false false, idleFor := SMap.setD s'.arr.idleFor die 0 0
      restFor := SMap.setD s'.arr.restFor die 0 0 } }

/-- Index of a queue's route register (R133). -/
def routeIndex (c net input : Nat) : Nat := 32 * c + 8 * net + input
def State.routeRd (s : State) (f : Fld) (die y x c net input : Nat) : Nat :=
  s.rd f (routeIndex c net input) (.tile die y x)

/-- R122: the queue bound to a local port of a site in a context. -/
def State.portQueue (s : State) (die y x c net lport : Nat) : Option Nat :=
  ((List.range 8).find? (fun i =>
    s.routeRd F.SW_ROUTE_VALID die y x c net i = 1 && s.routeRd F.SW_ROUTE_LOCAL die y x c net i = 1 &&
    s.routeRd F.SW_ROUTE_LPORT die y x c net i = lport)).map (qidOf y x net)

/-- R126, R127, R167: a boundary port stands beyond the array on this side of the site. The vector network has edge
ports on every column and velvet ports on rows 12j, 12j + 3, 12j + 6 and 12j + 9. The router's score port and identity
port stand west of site (1, 0). -/
def boundaryAt (cols net y x dir : Nat) : Option Nat :=
  if dir = 3 ∧ x = 0 ∧ y = 1 ∧ net < 2 then some (qidOf 29 net net 0)
  else if net ≠ 0 then none
  else if dir = 0 ∧ y = 0 then some (qidOf 24 x 0 0)
  else if dir = 2 ∧ y = 23 then some (qidOf 25 x 0 0)
  else if dir = 3 ∧ x = 0 ∧ y % 3 = 0 then some (qidOf 26 y 0 0)
  else if dir = 1 ∧ x + 1 = cols ∧ y % 3 = 0 then some (qidOf 27 y 0 0)
  else none

/-- R122: the neighbour's queue that an output (0 north, 1 east, 2 south, 3 west) feeds, on the array. -/
def neighbour (cols net y x dir : Nat) : Option Nat :=
  if dir = 0 ∧ 0 < y then some (qidOf (y - 1) x net 2)
  else if dir = 1 ∧ x + 1 < cols then some (qidOf y (x + 1) net 3)
  else if dir = 2 ∧ y < 23 then some (qidOf (y + 1) x net 0)
  else if dir = 3 ∧ 0 < x then some (qidOf y (x - 1) net 1)
  else none

/-- Where a forwarded token goes: the next queue, or out of the array at a boundary port. -/
inductive Dest where
  | queue (qid : Nat)
  | off (qid : Nat)
  deriving DecidableEq, Repr

/-- R126, R127, and notes/assumptions/12 for the weight-cache ports: where a boundary queue's tokens enter. -/
def State.entrySite (s : State) (die qid c : Nat) : Option Nat :=
  let x := qidX qid
  match qidY qid with
  | 24 => some (qidOf 0 x 0 0)
  | 25 => some (qidOf 23 x 0 2)
  | 26 => some (qidOf x 0 0 3)
  | 27 => some (qidOf x (s.cols - 1) 0 1)
  | 28 =>
    if bitOf (s.rd F.EDGE_SRC_N_SRC c (.die die)) x then some (qidOf 0 x 0 0)
    else if bitOf (s.rd F.EDGE_SRC_S_SRC c (.die die)) x then some (qidOf 23 x 0 2) else none
  | _ => none

/-- R123, R124: the destinations of a queue's head token. The control network carries summary messages, which no configuration
routes: west along their row, then north along column 0. -/
def State.dests (s : State) (die qid c : Nat) : List Dest :=
  let y := qidY qid; let x := qidX qid; let net := qidNet qid; let inp := qidInput qid
  if 24 ≤ y then ((s.entrySite die qid c).map Dest.queue).toList
  else
    let valid := s.routeRd F.SW_ROUTE_VALID die y x c net inp = 1
    let isLocal := s.routeRd F.SW_ROUTE_LOCAL die y x c net inp = 1
    let mask := s.routeRd F.SW_ROUTE_OUT_MASK die y x c net inp
    let mask := if net = 2 then (if 0 < x then 8 else if 0 < y then 1 else 0) else mask
    if net ≠ 2 ∧ (isLocal ∨ ¬ valid) then []
    else ((List.range 4).filter (bitOf mask)).filterMap (fun d =>
      match neighbour s.cols net y x d with
      | some q => some (.queue q)
      | none => (boundaryAt s.cols net y x d).map (fun q => if qidY q = 29 then Dest.queue q else Dest.off q))

/-- Key of one control output of one context (R124). -/
def outKey (die qid c dir : Nat) : Nat := (siteKey die (qidY qid) (qidX qid) * 4 + c) * 4 + dir

/-- R124: inputs of the site that route to a control output and hold a token. -/
def State.ctlReady (s : State) (die y x c : Nat) (d : Dest) : List Nat :=
  (List.range 5).filter (fun i => (s.headTok die (qidOf y x 2 i) c).isSome &&
    (s.dests die (qidOf y x 2 i) c).contains d)

/-- R124: the control output may take this input's token: its message is under way, or no message is and this
input is the first ready one after the one last served. -/
def State.ctlMay (s : State) (die qid c dir : Nat) (d : Dest) : Bool :=
  let k := outKey die qid c dir
  let lock := SMap.getD s.arr.ctlLock k 0
  if lock = 0 then
    let last := SMap.getD s.arr.ctlLast k 0
    let ready := s.ctlReady die (qidY qid) (qidX qid) c d
    (ready.filter (fun i => last ≤ i) ++ ready.filter (fun i => i < last)).head? == some (qidInput qid)
  else lock % 16 == qidInput qid

/-- R124: account for one forwarded token of an eight-token message. -/
def State.ctlPass (s : State) (die qid c dir : Nat) : State :=
  let k := outKey die qid c dir
  let lock := SMap.getD s.arr.ctlLock k 0
  let left := if lock = 0 then 7 else lock / 16 - 1
  let lock' := if left = 0 then 0 else 16 * left + qidInput qid
  { s with arr := { s.arr with
      ctlLock := SMap.setD s.arr.ctlLock k lock' 0
      ctlLast := SMap.setD s.arr.ctlLast k (qidInput qid + 1) 0 } }

/-- A token leaves the array at a boundary port and waits for the agents (R126). -/
def State.drainTok (s : State) (die qid c : Nat) (t : Tok) : State :=
  let k := queueKey die qid c
  { s with arr := { s.arr with drain := SMap.setD s.arr.drain k (SMap.getD s.arr.drain k [] ++ [t]) [] } }

/-- R82: a boundary agent moves the tokens it holds into the boundary queue while there is room. -/
def State.refillBoundary (s : State) (die qid c : Nat) : State :=
  let k := queueKey die qid c
  let held := SMap.getD s.arr.feed k []
  let n := s.roomAt die qid c
  let s' := { s with arr := { s.arr with feed := SMap.setD s.arr.feed k (held.drop n) [] } }
  s'.pushToks die qid c (held.take n)

/-- A boundary agent takes tokens for a slot (R82), which wakes the die from A1 (R404); they are held until the slot is READY or
ACTIVE. -/
def State.feedToks (s : State) (die qid c : Nat) (ts : List Tok) : State :=
  let k := queueKey die qid c
  let s0 := if ts.isEmpty then s else s.stir die
  let s' := { s0 with arr := { s0.arr with feed := SMap.setD s0.arr.feed k (SMap.getD s0.arr.feed k [] ++ ts) [] } }
  let st := s.slotState die c
  if st = slotCode .ready ∨ st = slotCode .active then s'.refillBoundary die qid c else s'

/-- R81: every destination of the token has room. -/
def State.destsRoom (s : State) (die c : Nat) (ds : List Dest) : Bool :=
  ds.all (fun d => match d with
    | .queue q => decide (0 < s.roomAt die q c)
    | .off _ => true)

def State.deliver (s : State) (die c : Nat) (ds : List Dest) (t : Tok) : State :=
  ds.foldl (fun s d => match d with
    | .queue q => s.pushTok die q c t
    | .off q => s.drainTok die q c t) s

/-- The direction of a destination seen from a queue's site, for R124. -/
def State.dirOf (s : State) (qid : Nat) (d : Dest) : Nat :=
  ((List.range 4).find? (fun k => match d with
    | .queue q => neighbour s.cols (qidNet qid) (qidY qid) (qidX qid) k == some q
    | .off q => boundaryAt s.cols (qidNet qid) (qidY qid) (qidX qid) k == some q)).getD 0

/-- One firing of a switch output for the queue (R79 to R81, R123, R124): the head token goes to every
destination, or nothing happens and the full destinations are marked. -/
def State.forward (s : State) (die qid : Nat) : State :=
  match s.active die with
  | none => s
  | some c =>
    let s := if 24 ≤ qidY qid then s.refillBoundary die qid c else s
    match s.headTok die qid c with
    | none => s
    | some t =>
      let ds := s.dests die qid c
      if ds.isEmpty then s
      else if qidNet qid = 2 && ds.any (fun d => !(s.ctlMay die qid c (s.dirOf qid d) d)) then s
      else if s.destsRoom die c ds then
        let s1 := (s.popTok die qid c).deliver die c ds t
        let s2 := if qidNet qid = 2 then ds.foldl (fun s d => s.ctlPass die qid c (s.dirOf qid d)) s1 else s1
        s2.fired die c
      else ds.foldl (fun s d => match d with
        | .queue q => if s.roomAt die q c = 0 then s.markWaiting die q c else s
        | .off _ => s) s

/-- TOKEN_FORWARD (R79 to R82, R121, R124, R126, R127). -/
def execTokenForward (die qid : Nat) (s : State) : Res := onDie die (.next (s.forward die qid))

/-- CREDIT_RETURN (R80): an entry freed earlier becomes usable by its producer. -/
def execCreditReturn (die qid c : Nat) (s : State) : Res :=
  onSlot die c
    (let q := s.queue die qid c
     .next (if q.freed = 0 then s else s.setQueue die qid c { q with freed := q.freed - 1 }))

/-- SPILL_START (R93): the set-up of a spill ends, and arriving tokens go to the extension. A set-up goes on only while its
context is active (R96). -/
def execSpillStart (die qid c : Nat) (s : State) : Res :=
  onSlot die c
    (let q := s.queue die qid c
     .next (if s.active die = some c ∧ q.setup then s.setQueue die qid c (qSpill q) else s))

/-- Whether any queue of a slot is spilling (R95, R108). -/
def State.anySpilling (s : State) (die c : Nat) : Bool :=
  s.arr.queues.any (fun e => e.1 / 4 / 65536 = die && e.1 % 4 = c && qSpills e.2)

/-- SPILL_REFILL (R93). -/
def execSpillRefill (die qid c : Nat) (s : State) : Res :=
  onSlot die c
    (let q := s.queue die qid c
     .next (if s.active die = some c ∧ q.toks.length < q.len then s.setQueue die qid c (qRefill q) else s))

end Sys2Proof.Machine
end

