-- ==== Sys2Proof/Machine/Tile.lean ====
section
/-!
DEFINITION. The compute tile's sequencers (R61 to R70): operation words, positions, repeat counts, parameter
sets, operand sources and destinations, bound errors and the freeze they cause.
-/
namespace Sys2Proof.Machine
open Sys2Proof.Machine.Num

def State.tile (s : State) (die y x c : Nat) : TileCtx :=
  SMap.getD s.arr.tiles (tileKey die y x c) TileCtx.empty
def State.setTile (s : State) (die y x c : Nat) (t : TileCtx) : State :=
  { s with arr := { s.arr with tiles := SMap.setD s.arr.tiles (tileKey die y x c) t TileCtx.empty } }

/-- Program word `i` of a context (R62). -/
def State.prog (s : State) (die y x c i : Nat) : Nat := s.rd F.TILE_PROG_WORD (64 * c + i) (.tile die y x)

/-- Fields of an operation word (R65). -/
def opOpc (w : Nat) : Nat := bitsOf w 0 8
def opDst (w : Nat) : Nat := bitsOf w 8 6
def opA (w : Nat) : Nat := bitsOf w 14 6
def opB (w : Nat) : Nat := bitsOf w 20 6
def opC (w : Nat) : Nat := bitsOf w 26 6
def opFmt (w : Nat) : Nat := bitsOf w 32 4
def opMod (w : Nat) : Nat := bitsOf w 36 4
def opImm (w : Nat) : Nat := bitsOf w 40 8
def opRsrc (w : Nat) : Nat := bitsOf w 48 2
def opRepeat (w : Nat) : Nat := bitsOf w 50 12

/-- R67: opcodes of the vector sequencer; 0x01 belongs to the matrix sequencer. -/
def isVecOp (opc : Nat) : Bool := decide (0x20 ≤ opc ∧ opc ≤ 0x3D)
def isMatOp (opc : Nat) : Bool := decide (opc = 0x01)

/-- R67: the first word of the unit at or after `i`. -/
def State.nextWord (s : State) (die y x c i : Nat) (vec : Bool) : Option Nat :=
  (List.range 64).find? (fun k => decide (i ≤ k) &&
    (if vec then isVecOp (opOpc (s.prog die y x c k)) else isMatOp (opOpc (s.prog die y x c k))))

/-- Active parameter register `k`: the matrix sequencer's set is TILE_PARAM_ACTIVE; the vector sequencer, which
can lag by a pass (R70), keeps its own. -/
def State.pm (s : State) (die y x c k : Nat) (vec : Bool) : Nat :=
  if vec then ((s.tile die y x c).vparams.getD k 0).toNat
  else s.rd F.TILE_PARAM_ACTIVE_VALUE (16 * c + k) (.tile die y x)

/-- The staged set of a context. -/
def State.staged (s : State) (die y x c : Nat) : List Word :=
  (List.range 16).map (fun k => BitVec.ofNat 32 (s.rd F.TILE_PARAM_VALUE (16 * c + k) (.tile die y x)))

def State.setActiveParams (s : State) (die y x c : Nat) (ps : List Word) : State :=
  (List.range 16).foldl (fun s k => s.wr F.TILE_PARAM_ACTIVE_VALUE (ps.getD k 0).toNat (16 * c + k) (.tile die y x)) s

/-- R70: a sequencer adopts the pending set; PENDING clears once both have. -/
def State.adopt (s : State) (die y x c : Nat) (vec : Bool) : State :=
  if s.flag F.TILE_PARAM_CTRL_PENDING c (.tile die y x) then
    let t := s.tile die y x c
    let ps := s.staged die y x c
    let t' := if vec then { t with vparams := ps, vAdopted := true } else { t with mAdopted := true }
    let s1 := s.setTile die y x c t'
    let s2 := if vec then s1 else s1.setActiveParams die y x c ps
    if t'.mAdopted && t'.vAdopted then s2.wr F.TILE_PARAM_CTRL_PENDING 0 c (.tile die y x) else s2
  else s

/-- R67, R70: a sequencer that has issued its last word stands at its lowest-indexed one; a set that is pending at this wrap
is due for adoption, and one committed later waits for the next wrap. -/
def State.wrapped (s : State) (die y x c : Nat) (vec : Bool) (t : TileCtx) : TileCtx :=
  let first := (s.nextWord die y x c 0 vec).getD 0
  let due := s.flag F.TILE_PARAM_CTRL_PENDING c (.tile die y x)
  if vec then { t with vWord := first, vEnd := due } else { t with mWord := first, mEnd := due }

/-- R70: a sequencer adopts the set that was pending when it wrapped. -/
def State.adoptDue (s : State) (die y x c : Nat) (vec : Bool) : State :=
  let t := s.tile die y x c
  if (if vec then t.vEnd else t.mEnd) then
    (s.setTile die y x c (if vec then { t with vEnd := false } else { t with mEnd := false })).adopt die y x c vec
  else s

/-- R70: a commit marks the staged set pending. A sequencer without words adopts it at once. A commit while a
set is pending changes nothing. -/
def State.commitParams (s : State) (die y x c : Nat) : State :=
  if s.flag F.TILE_PARAM_CTRL_PENDING c (.tile die y x) then s
  else
    let t := s.tile die y x c
    let s1 := (s.setTile die y x c { t with mAdopted := false, vAdopted := false }).wr
      F.TILE_PARAM_CTRL_PENDING 1 c (.tile die y x)
    let s2 := if (s1.nextWord die y x c 0 false).isNone then s1.adopt die y x c false else s1
    if (s2.nextWord die y x c 0 true).isNone then s2.adopt die y x c true else s2

/-- Queue identifiers of the blocked queues of a context, ascending (R97, R99). -/
def State.blockedQids (s : State) (die c : Nat) : List Nat :=
  (s.arr.queues.filter (fun e => e.1 / 4 / 65536 = die && e.1 % 4 = c &&
    qBlocked e.2 (qidNet (e.1 / 4 % 65536)))).map (fun e => e.1 / 4 % 65536)

/-- R99: the cycle F of a freeze: that in which the watchdog count reached its limit, else the present one
(notes/assumptions/1). -/
def State.freezeCycle (s : State) (die cause : Nat) : Nat :=
  if cause = 1 then SMap.getD s.arr.wdogAt die 0 else SMap.getD s.arr.cycles die 0

/-- R99: the freeze registers. -/
def State.recordFreeze (s : State) (die c cause : Nat) (qids : List Nat) : State :=
  let w := Win.die die
  let f := s.freezeCycle die cause
  let s := ((((s.wr F.FREEZE_INFO_SLOT c 0 w).wr F.FREEZE_INFO_CAUSE cause 0 w).wr F.FREEZE_INFO_NEW 1 0 w).wr
    F.FREEZE_INFO_BLOCKED (min qids.length 1023) 0 w).wr F.FREEZE_CYCLE_LO_CYCLE f 0 w
  let s := s.wr F.FREEZE_CYCLE_HI_CYCLE (f / 2 ^ 32) 0 w
  (List.range 16).foldl (fun s i =>
    match qids[i]? with
    | some q => (s.wr F.STALL_SET_QID q i w).wr F.STALL_SET_VALID 1 i w
    | none => (s.wr F.STALL_SET_QID 0 i w).wr F.STALL_SET_VALID 0 i w) s

/-- R99: the slot is FROZEN, and no slot is ACTIVE if it was the active one. -/
def State.stopSlot (s : State) (die c : Nat) : State :=
  let s' := s.setSlotState die c .frozen
  if s.active die = some c then s'.wr F.DIE_ACTIVE_NONE 1 0 (.die die) else s'

/-- R69, R99, R102: freeze a context. `cause` is coded as FREEZE_INFO.CAUSE; only a watchdog freeze records a
stall set. A freeze message is on its way to the control subsystem. -/
def State.freeze (s : State) (die c cause : Nat) : State :=
  let qids := if cause = 1 then s.blockedQids die c else []
  let s := (s.stopSlot die c).recordFreeze die c cause qids
  { s with arr := { s.arr with messages := s.arr.messages ++ [(die, c, cause)] } }

/-- R69: a bound error of a compute tile: nothing issues, the tile records it and the context is frozen. -/
def State.tileBound (s : State) (die y x c word : Nat) : State :=
  let w := Win.tile die y x
  (((s.wr F.TILE_STATUS_BOUND_ERR 1 0 w).wr F.TILE_STATUS_ERR_WORD word 0 w).wr F.TILE_STATUS_ERR_CTX c 0 w).freeze
    die c 2

/-- R68: the repeat count of a word: its value and the state after a count token is consumed; none while the
named scalar port holds no token. -/
def State.repeatCount (s : State) (die y x c w : Nat) (vec : Bool) : Option (Nat × State) :=
  match opRsrc w with
  | 0 => some (opRepeat w, s)
  | 1 => some (s.pm die y x c (opRepeat w % 16) vec, s)
  | r =>
    match s.portQueue die y x c 1 (r - 2) with
    | none => none
    | some q =>
      match s.headTok die q c with
      | none => none
      | some t => some (lane t 32 0, s.popTok die q c)

/-- What an operand reads: a full token, or a value broadcast to lanes of the operation's width (R63). -/
def State.source (s : State) (die y x c spec width : Nat) : Option Tok :=
  let t := s.tile die y x c
  if spec < 32 then some (SMap.getD t.vregs spec 0)
  else if spec < 36 then
    (s.portQueue die y x c 0 (spec - 32)).bind (fun q => s.headTok die q c)
  else if spec = 42 ∨ spec = 43 then
    ((s.portQueue die y x c 1 (spec - 42)).bind (fun q => s.headTok die q c)).map
      (fun v => splat width (lane v 32 0))
  else if spec = 46 then t.mi.head?
  else if 48 ≤ spec then some (splat width (s.pm die y x c (spec - 48) true))
  else some 0

/-- The iteration consumes the head of each port it names once (R63, notes/assumptions/13). -/
def State.consume (s : State) (die y x c spec : Nat) : State :=
  if 32 ≤ spec ∧ spec < 36 then
    match s.portQueue die y x c 0 (spec - 32) with
    | some q => s.popTok die q c
    | none => s
  else if spec = 42 ∨ spec = 43 then
    match s.portQueue die y x c 1 (spec - 42) with
    | some q => s.popTok die q c
    | none => s
  else if spec = 46 then
    let t := s.tile die y x c
    s.setTile die y x c { t with mi := t.mi.tail }
  else s

def State.consumeAll (s : State) (die y x c : Nat) (specs : List Nat) : State :=
  specs.eraseDups.foldl (fun s sp => s.consume die y x c sp) s

/-- R122: the switch input queue that an output port of a compute tile feeds. -/
def outPort (y x spec : Nat) : Nat :=
  if spec = 44 then qidOf y x 1 4 else qidOf y x 0 (4 + (spec - 40))

/-- R61, R78: entries of MI that the context's partition holds. -/
def State.miCap (s : State) (die y x c : Nat) : Nat := 4 * s.rd F.TILE_PART_MI_LEN c (.tile die y x)

/-- The destination has room (R79). -/
def State.dstRoom (s : State) (die y x c spec : Nat) : Bool :=
  if spec = 40 ∨ spec = 41 ∨ spec = 44 then decide (0 < s.roomAt die (outPort y x spec) c)
  else if spec = 46 then decide ((s.tile die y x c).mi.length < s.miCap die y x c)
  else true

/-- Write a result of lanes of width `w` to its destination (R63): a register, an output port, lane 0 to SO, MI, or nowhere.
A lane narrower than 32 bits leaves on SO with zeros above it, DEDUCED: notes/assumptions/91. -/
def State.writeDst (s : State) (die y x c spec w : Nat) (v : Tok) : State :=
  if spec < 32 then
    let t := s.tile die y x c
    s.setTile die y x c { t with vregs := SMap.setD t.vregs spec v 0 }
  else if spec = 40 ∨ spec = 41 then s.pushTok die (outPort y x spec) c v
  else if spec = 44 then s.pushTok die (outPort y x spec) c (BitVec.ofNat 1024 (lane v w 0))
  else if spec = 46 then
    let t := s.tile die y x c
    s.setTile die y x c { t with mi := t.mi ++ [v] }
  else s

/-- A producer that finds no room makes its token wait at the destination queue (R97). -/
def State.waitDst (s : State) (die y x c spec : Nat) : State :=
  if spec = 40 ∨ spec = 41 ∨ spec = 44 then s.markWaiting die (outPort y x spec) c else s

/-- R58: sticky flags of the context. -/
def State.tileFlags (s : State) (die y x c : Nat) (g : Flags) : State :=
  if g = 0 then s
  else
    let a := F.TILE_NUM_FLAGS_NV
    let all : Fld := { a with w := 7 }
    s.wr all (s.rd all c (.tile die y x) ||| g.toNat) c (.tile die y x)

/-- R68: a specifier advanced by `n` iterations: registers wrap at V31, everything else stays. -/
def stepSpec (spec n : Nat) : Nat := if spec < 32 then (spec + n) % 32 else spec

end Sys2Proof.Machine
end

