-- ==== Sys2Proof/Machine/Router.lean ====
section
/-!
DEFINITION. The Damask router (R167 to R189): tables and their checks, headers, selection, capacity, lists, report,
count array and summary, and remote expert lists.
-/
namespace Sys2Proof.Machine
open Sys2Proof.Machine.Num

/-- `n` bytes of a router table at offset `o`, little-endian; table `t` of slot `c` (R170). -/
def State.tbl (s : State) (die c t o : Nat) : Nat → Nat
  | 0 => 0
  | n + 1 =>
    bitsOf (s.word .ROUTER_TABLE (8 * c + t) (.die die) (o / 4)).toNat (8 * (o % 4)) 8 + 256 * s.tbl die c t (o + 1) n

/-- Fields of a table (R170). -/
def State.tExperts (s : State) (die c t : Nat) : Nat := s.tbl die c t 0 2
def State.tK (s : State) (die c t : Nat) : Nat := s.tbl die c t 2 1
def State.tMode (s : State) (die c t : Nat) : Nat := s.tbl die c t 3 1
def State.tSumId (s : State) (die c t : Nat) : Nat := s.tbl die c t 4 1
def State.tListCap (s : State) (die c t : Nat) : Nat := s.tbl die c t 6 2
def State.tActBase (s : State) (die c t : Nat) : Nat := s.tbl die c t 8 8
def State.tRowBytes (s : State) (die c t : Nat) : Nat := s.tbl die c t 16 4
def State.tListBase (s : State) (die c t : Nat) : Nat := s.tbl die c t 24 8
def State.tListStride (s : State) (die c t : Nat) : Nat := s.tbl die c t 32 8
def State.tReportBase (s : State) (die c t : Nat) : Nat := s.tbl die c t 40 8
def State.tCap (s : State) (die c t e : Nat) : Nat := s.tbl die c t (0x800 + 2 * e) 2
def State.tBias (s : State) (die c t e : Nat) : Nat := s.tbl die c t (0x1000 + 4 * e) 4
def State.tLoc (s : State) (die c t e : Nat) : Nat := s.tbl die c t (0x2000 + 2 * e) 2

def State.inv (s : State) (die c : Nat) : Option Invocation := SMap.find? s.arr.invs (dieCtx die c)
def State.setInv (s : State) (die c : Nat) (v : Invocation) : State :=
  { s with arr := { s.arr with invs := SMap.insert s.arr.invs (dieCtx die c) v } }
def State.routedOf (s : State) (die : Nat) : List Nat := SMap.getD s.arr.routed die []
def State.sumsOf (s : State) (die : Nat) : List (Nat × Nat × Nat) := SMap.getD s.arr.sums die []

/-- R168, R187: an invocation of the slot that has passed selection and has not sent its summary. -/
def State.routerBusy (s : State) (die c : Nat) : Bool := (s.routedOf die).contains c

/-- R189: POST_BUSY and POST_SLOT. -/
def State.postStatus (s : State) (die : Nat) : State :=
  match s.routedOf die with
  | [] => s.wr F.ROUTER_STATUS_POST_BUSY 0 0 (.die die)
  | c :: _ => (s.wr F.ROUTER_STATUS_POST_BUSY 1 0 (.die die)).wr F.ROUTER_STATUS_POST_SLOT c 0 (.die die)

def State.selBusy (s : State) (die c : Nat) (b : Bool) : State :=
  s.wr { F.ROUTER_STATUS_SEL_BUSY with lo := c, w := 1 } (b2n b) 0 (.die die)

/-- R188: the slot's invocation is abandoned. -/
def State.dropInv (s : State) (die c : Nat) : State :=
  let arr := { s.arr with
    invs := SMap.erase s.arr.invs (dieCtx die c)
    routed := SMap.setD s.arr.routed die ((s.routedOf die).filter (· ≠ c)) []
    sums := SMap.setD s.arr.sums die ((s.sumsOf die).filter (fun m => decide (m.2.1 ≠ c))) [] }
  (({ s with arr := arr }).selBusy die c false).postStatus die

/-- R172, R188: a bound error of the router: recorded, the context frozen, no summary. -/
def State.routerBound (s : State) (die c kind : Nat) : State :=
  let w := Win.die die
  ((((s.dropInv die c).wr F.ROUTER_STATUS_BOUND_ERR 1 0 w).wr F.ROUTER_STATUS_ERR_KIND kind 0 w).wr
    F.ROUTER_STATUS_ERR_CTX c 0 w).freeze die c 2

def State.routerFlags (s : State) (die c : Nat) (g : Flags) : State :=
  let all : Fld := { F.ROUTER_NUM_FLAGS_NV with w := 7 }
  if g = 0 then s else s.wr all (s.rd all c (.die die) ||| g.toNat) c (.die die)

/-- R168, R180: the last score token has been consumed; what the edge agents have accepted for the slot and not yet written is
noted. -/
def State.endSelection (s : State) (die c : Nat) (v : Invocation) : State :=
  let held := (s.arr.drain.filter (fun e => decide (e.1 / 4 / 65536 = die) && decide (e.1 % 4 = c))).map (fun e => (e.1, e.2.length))
  let s1 := (s.setInv die c { v with selected := true, writes := held }).selBusy die c false
  ({ s1 with arr := { s1.arr with routed := SMap.setD s1.arr.routed die (s1.routedOf die ++ [c]) [] } }).postStatus die

/-- R172: what a header must satisfy; `h0` and `h1` are its tokens. -/
def State.headerOk (s : State) (die c h0 h1 : Nat) : Bool :=
  let r := h0 % 32768
  let n := h0 / 65536 % 32768
  decide (h0 / 32768 % 2 = 0 ∧ h0 / 2147483648 = 0 ∧ h1 < 8) &&
  decide (r ≤ n ∧ n ≤ 16384) && decide (0 < s.tExperts die c h1) && decide (r * s.tK die c h1 ≤ 65536)

/-- R167: the identity port's and the score port's queues. -/
def identQid : Nat := qidOf 29 1 1 0
def scoreQid : Nat := qidOf 29 0 0 0

/-- R169, R171, R172: the active context's next header is consumed, or is a bound error. -/
def State.routerHeader (s : State) (die : Nat) : State :=
  match s.active die with
  | none => s
  | some c =>
    if (s.inv die c).isSome || (s.sumsOf die).any (fun m => decide (m.2.1 = c)) then s
    else
      match (s.queue die identQid c).toks with
      | t0 :: t1 :: _ =>
        let h0 := lane t0 32 0
        let h1 := lane t1 32 0
        if s.headerOk die c h0 h1 then
          let v : Invocation := { live := h0 % 32768, streamed := h0 / 65536 % 32768, table := h1, consumed := 0, logits := [],
                                  ident := none, rows := [], choices := [], selected := false, ordered := false,
                                  listed := false, writes := [] }
          let s1 := ((((s.popTok die identQid c).popTok die identQid c).setInv die c v).selBusy die c true).fired die c
          if v.streamed = 0 then s1.endSelection die c v else s1
        else s.routerBound die c 0
      | _ => s

/-- Accumulate the flags of a list of results. -/
def codesOf (rs : List (Nat × Flags)) : List Nat × Flags := (rs.map (·.1), rs.foldl (fun g r => g ||| r.2) 0)

def isNanCode (x : Nat) : Bool := isNan (decode fp32 x)

/-- R174: SIGMOID of a logit. -/
def sigmoid (l : Nat) : Nat × Flags :=
  let a := fMul fp32 l 0xBFB8AA3B
  let b := fExp2 a.1
  let c := fAdd fp32 0x3F800000 b.1
  let d := fRcp c.1
  (d.1, a.2 ||| b.2 ||| c.2 ||| d.2)

/-- R174: u_e of SOFTMAX: exp2((l - m) × log2 e), with the difference of equal values +0. -/
def softU (m l : Nat) : Nat × Flags :=
  if isNanCode l then (fp32.nanCode, fNANIN)
  else if ordKey fp32 false l = ordKey fp32 false m then fExp2 0
  else
    let a := fSub fp32 l m
    let b := fMul fp32 a.1 0x3FB8AA3B
    let c := fExp2 b.1
    (c.1, a.2 ||| b.2 ||| c.2)

/-- The logits in groups of 32 lanes, +0 in place of NaNs and of missing lanes (R174 step 3). -/
def softGroups (us : List Nat) : List (List Nat) :=
  (List.range ((us.length + 31) / 32)).map (fun g =>
    (List.range 32).map (fun i => let u := us.getD (32 * g + i) 0; if isNanCode u then 0 else u))

/-- R174: SOFTMAX of a row. -/
def softmax (ls : List Nat) : List Nat × Flags :=
  let good := ls.filter (fun l => !(isNanCode l))
  match good with
  | [] => (ls.map (fun _ => fp32.nanCode), 0)
  | g0 :: gs =>
    let m := gs.foldl (fun a b => if ordKey fp32 true a < ordKey fp32 true b then b else a) g0
    let us := codesOf (ls.map (softU m))
    let sums := (softGroups us.1).map sumTree
    let total := sums.tail.foldl (fun (a : Nat × Flags) b => let r := fAdd fp32 a.1 b.1; (r.1, a.2 ||| b.2 ||| r.2))
      (sums.headD (0, 0))
    let inv := fRcp total.1
    let ss := codesOf (us.1.map (fun u => fMul fp32 u inv.1))
    (ss.1, us.2 ||| total.2 ||| inv.2 ||| ss.2)

/-- R174: the scores of a row. -/
def scores (fn : Nat) (ls : List Nat) : List Nat × Flags :=
  match fn with
  | 1 => softmax ls
  | 2 => codesOf (ls.map sigmoid)
  | _ => (ls, 0)

/-- R175: the index of the largest selection value of those not NaN, lowest index among equals. -/
def bestOf (vs : List (Nat × Nat)) : Option Nat :=
  (vs.foldl (fun (g : Option (Nat × Nat)) v =>
    if isNanCode v.2 then g
    else
      match g with
      | none => some v
      | some w => if ordKey fp32 false w.2 < ordKey fp32 false v.2 then some v else g) none).map (·.1)

/-- R175: up to K experts by selection value. -/
def choose : Nat → List (Nat × Nat) → List Nat
  | 0, _ => []
  | k + 1, vs =>
    match bestOf vs with
    | none => []
    | some e => e :: choose k (vs.filter (fun v => decide (v.1 ≠ e)))

/-- R175, R176: the experts of a row by rank, with preliminary weights. -/
def chooseRow (k mode : Nat) (biases ss : List Nat) : List (Nat × Nat) × Flags :=
  let vs := if bitOf mode 4 then codesOf ((List.range ss.length).map (fun e => fAdd fp32 (ss.getD e 0) (biases.getD e 0)))
    else (ss, 0)
  let es := choose k ((List.range ss.length).map (fun e => (e, vs.1.getD e 0)))
  let cs := es.map (fun e => ss.getD e 0)
  if bitOf mode 2 ∧ cs ≠ [] then
    let p := cs.tail.foldl (fun (a : Nat × Flags) x => let r := fAdd fp32 a.1 x; (r.1, a.2 ||| r.2)) (cs.headD 0, 0)
    let q := fRcp p.1
    let ws := codesOf (cs.map (fun x => fMul fp32 x q.1))
    (es.zip ws.1, vs.2 ||| p.2 ||| q.2 ||| ws.2)
  else (es.zip cs, vs.2)

/-- R174 to R176: a complete live row: its choices, NaN scores and flags. -/
def State.routeRow (s : State) (die c : Nat) (v : Invocation) (slot pos : Nat) : State × Invocation :=
  let t := v.table
  let e := s.tExperts die c t
  let mode := s.tMode die c t
  let ss := scores (mode % 4) (v.logits.take e)
  let ch := chooseRow (s.tK die c t) mode ((List.range e).map (s.tBias die c t)) ss.1
  let nans := (ss.1.filter isNanCode).length
  let s1 := ((s.routerFlags die c (ss.2 ||| ch.2)).bump F.ROUTER_NAN_COUNT nans c (.die die))
  let s2 := (List.range nans).foldl (fun s _ =>
    s.detect { errOf 0x16 6 0 die with ctx := errCtx c, slot := slot }) s1
  let cs := (List.range ch.1.length).map (fun j =>
    let p := ch.1.getD j (0, 0)
    ({ row := v.consumed, slot := slot, pos := pos, rank := j, expert := p.1, weight := p.2, accepted := false } : RChoice))
  (s2, { v with rows := v.rows ++ [{ slot := slot, pos := pos, nans := nans }], choices := v.choices ++ cs })

/-- R173: one score token is consumed, with the row's identity pair when it is a live row's first. None while a token
is missing. -/
def State.selectToken (s : State) (die c : Nat) (v : Invocation) : Option State :=
  match s.headTok die scoreQid c with
  | none => none
  | some tok =>
    let first := decide (v.logits = [])
    let needId := first && decide (v.consumed < v.live)
    let id : Option (Option (Nat × Nat) × State) :=
      if needId then
        (match (s.queue die identQid c).toks with
         | i0 :: i1 :: _ => some (some (lane i0 32 0, lane i1 32 0), (s.popTok die identQid c).popTok die identQid c)
         | _ => none)
      else some (v.ident, s)
    match id with
    | none => none
    | some (pair, s1) =>
      if needId && (match pair with
          | some p => decide (65536 ≤ p.1 ∨ 1048576 ≤ p.2)
          | none => false) then some (s.routerBound die c 0)
      else
        let v1 := { v with logits := v.logits ++ lanes tok 32, ident := pair }
        let s2 := (s1.popTok die scoreQid c).fired die c
        if v1.logits.length < s.tExperts die c v.table then some (s2.setInv die c v1)
        else
          let r := if v.consumed < v.live then s2.routeRow die c v1 (pair.getD (0, 0)).1 (pair.getD (0, 0)).2 else (s2, v1)
          let v2 := { r.2 with consumed := v.consumed + 1, logits := [], ident := none }
          some (if v2.consumed = v.streamed then r.1.endSelection die c v2 else r.1.setInv die c v2)

/-- Consume score tokens of the row under way, up to its end. -/
def State.selectRow (die c : Nat) : Nat → State → State
  | 0, s => s
  | n + 1, s =>
    match s.inv die c with
    | none => s
    | some v =>
      if v.selected then s
      else
        match s.selectToken die c v with
        | none => s
        | some s1 =>
          match s1.inv die c with
          | none => s1
          | some v1 => if v1.consumed = v.consumed then State.selectRow die c n s1 else s1

/-- R177: request slot, then position, then rank. -/
def before (a b : RChoice) : Bool :=
  decide (a.slot < b.slot) || (decide (a.slot = b.slot) && (decide (a.pos < b.pos) ||
    (decide (a.pos = b.pos) && decide (a.rank < b.rank))))
def insertChoice (c : RChoice) : List RChoice → List RChoice
  | [] => [c]
  | d :: l => if before c d then c :: d :: l else d :: insertChoice c l
/-- R177: the processing order. -/
def sortChoices (l : List RChoice) : List RChoice := l.foldr insertChoice []

/-- R177: accept or drop each choice in processing order. -/
def capacity (linen : Bool) (cap : Nat → Nat) : SMap Nat → List RChoice → List RChoice
  | _, [] => []
  | n, c :: l =>
    let k := SMap.getD n c.expert 0
    if linen || decide (k < cap c.expert) then
      { c with accepted := true } :: capacity linen cap (SMap.setD n c.expert (k + 1) 0) l
    else { c with accepted := false } :: capacity linen cap n l

/-- R172: two live rows with the same slot and position. -/
def dupRow : List RRow → Bool
  | [] => false
  | r :: l => l.any (fun q => decide (q.slot = r.slot ∧ q.pos = r.pos)) || dupRow l

/-- R387, R399: whether the slot's context runs in Linen mode. -/
def State.slotLinen (s : State) (die c : Nat) : Bool := bitOf (s.rd F.SLOT_MODE_LINEN) (dieCtx die c)

/-- R177: accepted choices of an expert. -/
def acceptedOf (cs : List RChoice) (e : Nat) : Nat := (cs.filter (fun c => c.accepted && decide (c.expert = e))).length

/-- R168, R172, R177: the ordering and capacity phases of the oldest completed selection. -/
def State.routerCapacity (s : State) (die : Nat) : State :=
  match s.routedOf die with
  | [] => s
  | c :: _ =>
    match s.inv die c with
    | none => s
    | some v =>
      if v.ordered then s
      else if dupRow v.rows then s.routerBound die c 1
      else
        let cs := capacity (s.slotLinen die c) (s.tCap die c v.table) [] (sortChoices v.choices)
        if cs.any (fun x => decide (s.tListCap die c v.table < acceptedOf cs x.expert)) then s.routerBound die c 2
        else s.setInv die c { v with choices := cs, ordered := true }

/-- The choices of one token. -/
def sameTok (a b : RChoice) : Bool := decide (a.slot = b.slot ∧ a.pos = b.pos)

/-- R178: the final weight of an accepted choice, whether it was renormalised, and flags. -/
def finalWeight (renorm : Bool) (all : List RChoice) (c : RChoice) : Nat × Bool × Flags :=
  let mine := all.filter (sameTok c)
  if renorm && mine.any (fun d => !d.accepted) then
    let ps := (mine.filter (·.accepted)).map (·.weight)
    let q := ps.tail.foldl (fun (a : Nat × Flags) x => let r := fAdd fp32 a.1 x; (r.1, a.2 ||| r.2)) (ps.headD 0, 0)
    let i := fRcp q.1
    let w := fMul fp32 c.weight i.1
    (w.1, true, q.2 ||| i.2 ||| w.2)
  else (c.weight, false, 0)

/-- R179: the route tag of an accepted choice. -/
def routeTag (c : RChoice) (w16 : Nat) (remote renormed part : Bool) : Nat :=
  c.slot * 2 ^ 48 + c.pos * 2 ^ 28 + c.rank * 2 ^ 25 + w16 * 2 ^ 9 + 4 * b2n remote + 2 * b2n renormed + b2n part

/-- R178, R179: the tag and the flags of making it. -/
def State.tagOf (s : State) (die c t : Nat) (all : List RChoice) (x : RChoice) : Nat × Flags :=
  let w := finalWeight (bitOf (s.tMode die c t) 3) all x
  let b := narrow bf16 false (decode fp32 w.1)
  let part := (all.filter (sameTok x)).any (fun d => !d.accepted)
  (routeTag x b.1 (bitOf (s.tLoc die c t x.expert) 15) w.2.1 part, w.2.2 ||| b.2)

/-- R180: the address of the n-th entry of an expert's list. -/
def State.listEntry (s : State) (die c t e n : Nat) : Nat :=
  s.tListBase die c t + e * s.tListStride die c t + n * (128 + s.tRowBytes die c t)

/-- R180: every list entry: address, choice. -/
def State.listPlan (s : State) (die c t : Nat) : SMap Nat → List RChoice → List (Nat × RChoice)
  | _, [] => []
  | n, x :: l =>
    if x.accepted then
      let k := SMap.getD n x.expert 0
      (s.listEntry die c t x.expert k, x) :: s.listPlan die c t (SMap.setD n x.expert (k + 1) 0) l
    else s.listPlan die c t n l

/-- R180: the activation row of an entry. An unreadable row is an access fault (R128) and its bytes are not stated: a
free value (notes/assumptions/2). -/
def State.actRow (s : State) (die c a n : Nat) : List Byte × State :=
  match s.rangeAccess State.readAccess a n with
  | .ok => (s.masBytes a n, s)
  | _ => let f := (s.emit (.accessFault (.router die c) a)).useFree; (toBytes f.1 n, f.2)

/-- R180: write one entry. -/
def State.writeEntry (s : State) (die c t : Nat) (all : List RChoice) (a : Nat) (x : RChoice) : State :=
  let tag := s.tagOf die c t all x
  let rb := s.tRowBytes die c t
  let row := s.actRow die c (s.tActBase die c t + x.row * rb) rb
  let head := toBytes tag.1 8 ++ toBytes x.row 4 ++ toBytes x.expert 2 ++ toBytes 0 114
  (row.2.routerFlags die c tag.2).masWrite a (head ++ row.1)

/-- The distinct request slots of the rows, ascending (R182). -/
def slotsOf (rows : List RRow) : List Nat :=
  (rows.map (·.slot)).foldr (fun x l => (l.filter (· < x)) ++ x :: (l.filter (fun y => decide (x < y)))) []

/-- Dropped choices, fully dropped tokens and NaN scores of one slot (R182). -/
def slotStats (rows : List RRow) (cs : List RChoice) (sl : Nat) : Nat × Nat × Nat :=
  let mine := rows.filter (fun r => decide (r.slot = sl))
  let full := mine.filter (fun r =>
    let t := cs.filter (fun c => decide (c.slot = r.slot ∧ c.pos = r.pos))
    !t.isEmpty && t.all (fun c => !c.accepted))
  ((cs.filter (fun c => decide (c.slot = sl) && !c.accepted)).length, full.length, mine.foldl (fun a r => a + r.nans) 0)

/-- R182: the entries of the drop report: the slots with a dropped choice, a fully dropped token or a NaN score. -/
def reportEntries (v : Invocation) : List (Nat × Nat × Nat × Nat) :=
  ((slotsOf v.rows).map (fun sl => (sl, slotStats v.rows v.choices sl))).filter (fun e => decide (e.2 ≠ (0, 0, 0)))
/-- R182: the drop report. -/
def reportBytes (inv k table : Nat) (v : Invocation) : List Byte :=
  let stats := (slotsOf v.rows).map (fun sl => (sl, slotStats v.rows v.choices sl))
  let ents := reportEntries v
  let acc := (v.choices.filter (·.accepted)).length
  toBytes inv 4 ++ toBytes v.live 2 ++ toBytes k 1 ++ toBytes table 1 ++ toBytes acc 4 ++
  toBytes (v.choices.length - acc) 4 ++ toBytes (stats.foldl (fun a e => a + e.2.2.2) 0) 4 ++
  toBytes (stats.foldl (fun a e => a + e.2.2.1) 0) 4 ++ toBytes ents.length 4 ++ toBytes 0 4 ++
  ents.flatMap (fun e => toBytes e.1 2 ++ toBytes 0 2 ++ toBytes e.2.1 4 ++ toBytes e.2.2.1 4 ++ toBytes e.2.2.2 4)

/-- R181: replace the slot's count array. -/
def State.writeCounts (s : State) (die c n : Nat) (cs : List RChoice) : State :=
  (List.range 1024).foldl (fun s e =>
    let mine := cs.filter (fun x => decide (x.expert = e))
    let a := (mine.filter (·.accepted)).length
    let d := if e < n then min (mine.length - a) 65535 else 0
    (s.wr F.ROUTER_COUNT_ACCEPTED (if e < n then a else 0) (1024 * c + e) (.die die)).wr
      F.ROUTER_COUNT_DROPPED d (1024 * c + e) (.die die)) s

/-- R180, R128: the activation rows that the lists copy which are not near yet. -/
def State.rowsAway (s : State) (die c : Nat) (v : Invocation) : List Nat :=
  let rb := s.tRowBytes die c v.table
  ((v.choices.filter (·.accepted)).map (fun x => s.tActBase die c v.table + x.row * rb)).filter (fun a =>
    decide (s.rangeAccess State.readAccess a rb = .wait))

/-- R180 to R183: the list phase of the oldest ordered invocation, once the agents' writes are done and the activation rows are
near: lists, report, count array, counters, and the summary, whose leaving ends the invocation. -/
def State.routerLists (s : State) (die : Nat) : State :=
  match s.routedOf die with
  | [] => s
  | c :: _ =>
    match s.inv die c with
    | none => s
    | some v =>
      if ¬ v.ordered ∨ v.listed ∨ v.writes.any (fun e => decide (0 < e.2)) then s
      else if ¬ (s.rowsAway die c v).isEmpty then
        (s.rowsAway die c v).foldl (fun s a => s.requestRange a (s.tRowBytes die c v.table) die 0) s
      else
        let t := v.table
        let plan := s.listPlan die c t [] v.choices
        let inv := (s.rd F.ROUTER_INVOCATIONS_COUNT c (.die die) + 1) % 2 ^ 32
        let report := reportBytes inv (s.tK die c t) t v
        let size := 128 + s.tRowBytes die c t
        if plan.any (fun e => decide (s.rangeAccess State.writeAccess e.1 size ≠ .ok)) ∨
            s.rangeAccess State.writeAccess (s.tReportBase die c t) report.length ≠ .ok then s.routerBound die c 3
        else
          let acc := (v.choices.filter (·.accepted)).length
          let s1 := plan.foldl (fun s e => s.writeEntry die c t v.choices e.1 e.2) s
          let s2 := (s1.masWrite (s1.tReportBase die c t) report).writeCounts die c (s1.tExperts die c t) v.choices
          let s3 := ((s2.bump F.ROUTER_INVOCATIONS_COUNT 1 c (.die die)).bump F.ROUTER_ACCEPTED_COUNT acc c (.die die)).bump
            F.ROUTER_DROPPED_COUNT (v.choices.length - acc) c (.die die)
          let s4 := s3.setInv die c { v with listed := true }
          { s4 with arr := { s4.arr with
              sums := SMap.setD s4.arr.sums die (s4.sumsOf die ++ [(s4.tSumId die c t, c, acc)]) [] } }

/-- ROUTER_HEADER (R169, R171, R172). -/
def execRouterHeader (die : Nat) (s : State) : Res := onDie die (.next (s.routerHeader die))

/-- ROUTER_SELECTION (R173 to R176): the active slot's invocation consumes the score tokens that are present, up to the
end of the row under way. -/
def execRouterSelection (die : Nat) (s : State) : Res :=
  onDie die (.next (match s.active die with
    | none => s
    | some c => State.selectRow die c 32 s))

/-- ROUTER_CAPACITY (R168, R172, R177). -/
def execRouterCapacity (die : Nat) (s : State) : Res := onDie die (.next (s.routerCapacity die))

/-- Field of an image's table: `n` bytes at offset `o`. -/
def tblNat (ws : List Word) (o : Nat) : Nat → Nat
  | 0 => 0
  | n + 1 => bitsOf (ws.getD (o / 4) 0).toNat (8 * (o % 4)) 8 + 256 * tblNat ws (o + 1) n

/-- R170: the constraints on one table of an image. -/
def tableOk (ws : List Word) : Bool :=
  let e := tblNat ws 0 2
  let k := tblNat ws 2 1
  let mode := tblNat ws 3 1
  let cap := tblNat ws 6 2
  let rb := tblNat ws 16 4
  let stride := tblNat ws 32 8
  decide (ws.length ≤ 4096) && decide (1 ≤ k ∧ k ≤ 8 ∧ k ≤ e ∧ e ≤ 1024) && decide (mode % 4 ≠ 3 ∧ mode < 32) &&
  decide (tblNat ws 4 1 ≤ 0xEF) && decide (tblNat ws 5 1 = 0) && decide (1 ≤ cap) &&
  decide (tblNat ws 8 8 % 128 = 0) && decide (rb % 128 = 0 ∧ 128 ≤ rb ∧ rb ≤ 65536) && decide (tblNat ws 20 4 = 0) &&
  decide (tblNat ws 24 8 % 128 = 0) && decide (stride % 128 = 0 ∧ cap * (128 + rb) ≤ stride) &&
  decide (tblNat ws 40 8 % 64 = 0) && (List.range 52).all (fun i => decide (tblNat ws (48 + 4 * i) 4 = 0)) &&
  (List.range 1024).all (fun x =>
    let c := tblNat ws (0x800 + 2 * x) 2
    let b := tblNat ws (0x1000 + 4 * x) 4
    let l := tblNat ws (0x2000 + 2 * x) 2
    if x < e then decide (1 ≤ c ∧ c ≤ cap) && decide (b % 2147483648 < 0x7F800000) && decide (l / 8192 % 4 = 0)
    else decide (c = 0 ∧ b = 0 ∧ l = 0))

/-- R170: the tables of an image. -/
def tablesOk (ts : List (Nat × List Word)) : Bool :=
  ts.all (fun t => decide (t.1 < 8) && tableOk t.2) && (ts.map (·.1)).eraseDups.length == ts.length

/-- The largest K of an image's tables (R388); 1 when it has none. -/
def maxK (ts : List (Nat × List Word)) : Nat := ts.foldl (fun a t => max a (tblNat t.2 2 1)) 1

/-- R189: a full load writes the slot's tables and clears its counts. -/
def State.loadTables (s : State) (die c : Nat) (ts : List (Nat × List Word)) : State :=
  let w := Win.die die
  let s1 := (List.range 8).foldl (fun s t =>
    let ws := ((ts.find? (fun e => decide (e.1 = t))).map (·.2)).getD []
    (List.range 4096).foldl (fun s i => s.setWord .ROUTER_TABLE (8 * c + t) w i (ws.getD i 0)) s) s
  let s2 := (List.range 1024).foldl (fun s e => s.setWord .ROUTER_COUNT (1024 * c + e) w 0 0) s1
  ((((s2.wr F.ROUTER_INVOCATIONS_COUNT 0 c w).wr F.ROUTER_ACCEPTED_COUNT 0 c w).wr F.ROUTER_DROPPED_COUNT 0 c w).wr
    F.ROUTER_NAN_COUNT 0 c w).wr { F.ROUTER_NUM_FLAGS_NV with w := 7 } 0 c w

end Sys2Proof.Machine
end

