-- ==== Sys2Proof/Machine/Agents.lean ====
section
/-!
DEFINITION. Memory edge agents and the die weight cache (R125 to R132): translation, reads and writes, held
reads, cache lines, fills, pins and flushes.
-/
namespace Sys2Proof.Machine

def agentKey (die k : Nat) : Nat := die * 10 + k
def State.transOf (s : State) (die k : Nat) : List Nat := SMap.getD s.arr.trans (agentKey die k) []

/-- R125, R210: an agent translates a page: a miss is counted, walks the page table and fills the cache of 512
entries. Which entry a full cache gives up is not stated: a free value (notes/assumptions/2). -/
def State.translate (s : State) (die k pn : Nat) : State :=
  if (s.transOf die k).contains pn then s
  else
    let s1 := (s.bump F.MEA_TMISS_COUNT 1 k (.die die)).touch pn
    if (s1.pte pn).isNone then s1
    else
      let l := s1.transOf die k
      let r : List Nat × State :=
        if l.length < 512 then (l, s1) else let f := s1.useFree; (l.eraseIdx (f.1 % 512), f.2)
      { r.2 with arr := { r.2.arr with trans := SMap.setD r.2.arr.trans (agentKey die k) (r.1 ++ [pn]) [] } }

/-! ## Agents -/

/-- R18, R134: the agents of a die that stand on its north edge. -/
def meaNorth (die k : Nat) : Bool := if die < 2 then decide (k < 6) else decide (k < 4)
/-- R125: the die and agent that serve an address whose page is near: the page's stack names the pair, the 256-byte granule the
one of the two. -/
def State.agentOf (s : State) (a : Nat) : Option (Nat × Nat) :=
  match s.pte (pageOf a) with
  | some p => if p.near then some (p.nearStack / 5, 2 * (p.nearStack % 5) + a / 256 % 2) else none
  | none => none
/-- The first granules of a range in a page: two of them meet both agents of its stack. -/
def pageGranules (a n pn : Nat) : List Nat :=
  let lo := max a (pn * pageBytes)
  let next := (lo / 256 + 1) * 256
  if next < min (a + n) ((pn + 1) * pageBytes) then [lo, next] else [lo]

/-- R19, R125: a request for a range that reaches agent `k` of a die: the agent translates each page; a page on another die's
stack is forwarded over velvet to that die's agents, and one on another stack of this die goes to its agents. -/
def State.agentPath (s : State) (die k a n : Nat) : State :=
  (pagesIn a n).foldl (fun s pn =>
    let s1 := s.translate die k pn
    let gs := pageGranules a n pn
    let s2 := match s1.agentOf (gs.headD a) with
      | some (d, _) => if d = die then s1 else s1.emit (.forwarded die d (gs.headD a))
      | none => s1
    gs.foldl (fun s g => match s.agentOf g with
      | some (d, j) => s.translate d j pn
      | none => s) s2) s
/-- The agent of a die that a DMA or prefetch reaches first: the one with the number of the agent that serves the address,
DESIGN CHOICE: notes/assumptions/95. -/
def State.firstAgent (s : State) (a : Nat) : Nat := match s.agentOf a with
  | some (_, j) => j
  | none => a / 256 % 2
def State.dataPath (s : State) (die a n : Nat) : State := s.agentPath die (s.firstAgent a) a n
/-- R130: the agent of a strip's own edge that its fills and reads reach. -/
def State.edgeAgent (s : State) (die strip a : Nat) : Nat :=
  let j := s.firstAgent a
  if meaNorth die j = decide (strip = 0) then j else if strip = 0 then 0 else 9

/-- R231: the weight tokens of R71 that an edge port forms from the packed planes of an MX segment (R230, R42): the 32 blocks of each
chunk, or half chunk of MXFP4, fill the slots of its tokens in order, each scale beside its block (R64). A range holds whole chunks: their
element planes, then their scale planes (notes/assumptions/102). -/
def mxTokens (fmt : Nat) (bs : List Byte) : List Tok :=
  let bb := 4 * mxBits fmt
  let m := 32
  let q := bs.length / (m * (bb + 1))
  let n := mxSlots fmt
  (List.range q).flatMap (fun c => (List.range ((m + n - 1) / n)).map (fun w =>
    (List.range n).foldl (fun (t : Tok) b =>
      if n * w + b < m then
        let k := c * m + n * w + b
        putTok (putTok t (mxLo fmt b) (8 * bb) (ofBytes ((bs.drop (k * bb)).take bb))) (992 + 8 * b) 8
          (ofBytes ((bs.drop (q * m * bb + k)).take 1))
      else t) 0))
/-- Bytes as vector tokens of 128 bytes (R109). -/
def tokensOf : Nat → List Byte → List Tok
  | 0, _ => []
  | f + 1, bs => if bs.isEmpty then [] else BitVec.ofNat 1024 (ofBytes (bs.take 128)) :: tokensOf f (bs.drop 128)
/-- R231: the tokens that a port of a group with a weight format delivers for the bytes it moves. -/
def portToks (fmt : Nat) (bs : List Byte) : List Tok :=
  if 7 ≤ fmt ∧ fmt ≤ 9 then mxTokens fmt bs else tokensOf (bs.length + 1) bs
/-- R231: the execution format of an edge-port group, and of the group of a port; 0 where it carries no weights. -/
def State.groupFmt (s : State) (die c g : Nat) : Nat :=
  match SMap.find? s.arr.images (dieCtx die c) with
  | some img => ((img.wfmts.find? (fun e => decide (e.1 = g))).map (·.2)).getD 0
  | none => 0
def State.portFmt (s : State) (die c qid : Nat) : Nat :=
  match SMap.find? s.arr.images (dieCtx die c) with
  | some img => match img.groups.find? (fun e => e.2.contains qid && img.wfmts.any (fun f => decide (f.1 = e.1))) with
    | some e => s.groupFmt die c e.1
    | none => 0
  | none => 0

/-- R126, R129: whether a boundary queue takes tokens from the agents (`none`) or from a weight-cache strip in a context, as
EDGE_SRC says. The ports with Y = 28 stand for the edge that EDGE_SRC gives to the cache, the north one first
(notes/assumptions/12). -/
def State.portTakes (s : State) (die qid c : Nat) (strip : Option Nat) : Bool :=
  let north := bitOf (s.rd F.EDGE_SRC_N_SRC c (.die die)) (qidX qid)
  let south := bitOf (s.rd F.EDGE_SRC_S_SRC c (.die die)) (qidX qid)
  match qidY qid, strip with
  | 24, none => !north
  | 24, some k => north && decide (k = 0)
  | 25, none => !south
  | 25, some k => south && decide (k ≠ 0)
  | 28, none => false
  | 28, some k => if north then decide (k = 0) else south && decide (k ≠ 0)
  | _, _ => true

/-- Data reaches the asker: tokens of the array go to its boundary queue, if that takes them from this source; other askers are
told. -/
def State.serve (s : State) (via : Option Nat) (who : Asker) (a n : Nat) : State :=
  match who with
  | .array die qid c =>
    if s.portTakes die qid c via then
      (s.feedToks die qid c (portToks (s.portFmt die c qid) (s.masBytes a n))).emit (.readServed who a n)
    else s.turnAway "EDGE_SRC"
  | _ => s.emit (.readServed who a n)

/-- R125, R128, R215: a read at an agent: served, held for the page, or answered with an access fault. `via` is the strip of a
weight-cache port that reads through the agents (R134). -/
def State.agentRead (s : State) (die k a n : Nat) (via : Option Nat) (who : Asker) : State :=
  let s1 := s.agentPath die k a n
  match s1.rangeAccess State.readAccess a n with
  | .fault => s1.emit (.accessFault who a)
  | .ok => s1.serve via who a n
  | .wait =>
    let s2 := s1.requestRange a n die 0
    { s2 with arr := { s2.arr with heldReads :=
        s2.arr.heldReads ++ [{ die := die, agent := k, addr := a, len := n, via := via, asker := who }] } }

/-- R128: an agent's write to a writable page is carried out; any other is an access fault. -/
def State.agentWrite (s : State) (die k a : Nat) (data : List Byte) (who : Asker) : State :=
  let s1 := s.agentPath die k a data.length
  match s1.rangeAccess State.writeAccess a data.length with
  | .ok => s1.masWrite a data
  | _ => s1.emit (.accessFault who a)

def onAgent (die k : Nat) (r : Res) : Res := if die < 4 ∧ k < 10 then r else .refused (.noSuchUnit "agent")

/-- AGENT_READ (R125, R128). -/
def execAgentRead (die k a n : Nat) (who : Asker) (s : State) : Res := onAgent die k (.next (s.agentRead die k a n none who))

/-- AGENT_WRITE (R128, R198). -/
def execAgentWrite (die k a : Nat) (data : List Byte) (who : Asker) (s : State) : Res :=
  onAgent die k (.next (s.agentWrite die k a data who))

/-- AGENT_READ_RESUME (R128, R199, R215): the agent's oldest held read whose pages have all become near is served; one
whose page has been freed or lost faults. -/
def execAgentReadResume (die k : Nat) (s : State) : Res :=
  onAgent die k (.next (match s.arr.heldReads.find? (fun r => decide (r.die = die) && decide (r.agent = k) &&
      decide (s.rangeAccess State.readAccess r.addr r.len ≠ .wait)) with
    | none => s
    | some r =>
      let s1 := { s with arr := { s.arr with heldReads := s.arr.heldReads.erase r } }
      if s.rangeAccess State.readAccess r.addr r.len = .ok then
        (s1.agentPath die k r.addr r.len).serve r.via r.asker r.addr r.len
      else s1.emit (.accessFault r.asker r.addr)))

/-! ## The weight cache -/

/-- R129: line address, and the set of a strip that holds it. -/
def lineOf (a : Nat) : Nat := a / 512 * 512
/-- The lines of a byte range (R129). -/
def linesIn (a n : Nat) : List Nat :=
  if n = 0 then [] else (List.range ((a + n - 1) / 512 - a / 512 + 1)).map (fun i => (a / 512 + i) * 512)
def wcKey (die strip line : Nat) : Nat :=
  ((die * 2 + strip) * 16 + line / 512 % 16) * 256 + line / 8192 % 256
def State.wcSet (s : State) (k : Nat) : List WcLine := SMap.getD s.arr.wc k []
def State.setWc (s : State) (k : Nat) (l : List WcLine) : State :=
  { s with arr := { s.arr with wc := SMap.setD s.arr.wc k l [] } }

/-- R129, R130: room for one more line in a set: an empty way, or the least recently used way without pin or fill. -/
def wcRoom (l : List WcLine) : Option (List WcLine) :=
  if l.length < 16 then some l
  else (l.reverse.find? (fun w => decide (w.pins = 0) && !w.filling)).map (fun w => l.erase w)

/-- R130: a miss: the line is allocated and fetched through the edge's agents; none while every way is pinned. -/
def State.wcAllocate (s : State) (die strip line pins : Nat) (who : List (Asker × Nat × Nat)) : Option State :=
  let k := wcKey die strip line
  (wcRoom (s.wcSet k)).map (fun l =>
    (((s.setWc k ({ line := line, pins := pins, filling := true, waiters := who } :: l)).agentPath die
      (s.edgeAgent die strip line) line 512).requestRange line 512 die 0).bump F.WC_MISSES_COUNT 1 0 (.die die))

/-- R130, R194, R199: a read within one line: a page that may not be read faults; a hit is served, a running fill is joined, a
miss starts a fill, or waits while all 16 ways are pinned. -/
def State.wcReadLine (s : State) (die strip a n : Nat) (who : Asker) : State :=
  let line := lineOf a
  let k := wcKey die strip line
  if s.readAccess line = .fault then s.emit (.accessFault who a)
  else
    match (s.wcSet k).find? (fun w => decide (w.line = line)) with
    | some w =>
      let rest := (s.wcSet k).erase w
      if w.filling then
        (s.setWc k ({ w with waiters := w.waiters ++ [(who, a, n)] } :: rest)).bump F.WC_MERGES_COUNT 1 0 (.die die)
      else ((s.setWc k (w :: rest)).bump F.WC_HITS_COUNT 1 0 (.die die)).serve (some strip) who a n
    | none =>
      match s.wcAllocate die strip line 0 [(who, a, n)] with
      | none => { s with arr := { s.arr with wcWait := s.arr.wcWait ++ [(die, strip, a, n, who)] } }
      | some s1 => s1

/-- WC_READ (R129, R130, R134): a read of a strip, line by line. Reads of writable pages, and all reads while ENABLE is 0, go
through the agents of the strip's edge. -/
def State.wcRead (s : State) (die strip a n : Nat) (who : Asker) : State :=
  let isSealed : Bool := match s.pte (pageOf a) with | some p => p.isSealed | none => false
  if s.rd F.WC_CFG_ENABLE 0 (.die die) = 0 ∨ isSealed = false then s.agentRead die (s.edgeAgent die strip a) a n (some strip) who
  else (linesIn a n).foldl (fun s l =>
    let lo := max a l
    s.wcReadLine die strip lo (min (a + n) (l + 512) - lo) who) s

def onStrip (die strip : Nat) (r : Res) : Res := if die < 4 ∧ strip < 2 then r else .refused (.noSuchUnit "strip")

/-- WC_READ (R130). -/
def execWcRead (die strip a n : Nat) (who : Asker) (s : State) : Res :=
  onStrip die strip (.next (s.wcRead die strip a n who))

/-- R130: requests that waited for a way proceed, in order, where their set now has one. -/
def State.wcRetry (s : State) (die strip : Nat) : State :=
  s.arr.wcWait.foldl (fun (s : State) r =>
    if r.1 = die ∧ r.2.1 = strip ∧ ((wcRoom (s.wcSet (wcKey die strip (lineOf r.2.2.1)))).isSome ∨
        (s.wcSet (wcKey die strip (lineOf r.2.2.1))).any (fun w => decide (w.line = lineOf r.2.2.1))) then
      ({ s with arr := { s.arr with wcWait := s.arr.wcWait.erase r } }).wcReadLine die strip r.2.2.1 r.2.2.2.1 r.2.2.2.2
    else s) s

/-- R130: a line's fill completes, once its page is near; its waiting readers are served. The fill of a page that has been lost
or freed ends, and its readers fault. -/
def State.wcFilled (s : State) (die strip line : Nat) : State :=
  let k := wcKey die strip line
  match (s.wcSet k).find? (fun w => decide (w.line = line)) with
  | none => s
  | some w =>
    if ¬ w.filling then s
    else
      match s.readAccess line with
      | .wait => s
      | .ok =>
        let s1 := s.setWc k ((s.wcSet k).map (fun v => if v = w then { w with filling := false, waiters := [] } else v))
        (w.waiters.foldl (fun s r => s.serve (some strip) r.1 r.2.1 r.2.2) s1).wcRetry die strip
      | .fault =>
        let s1 := s.setWc k ((s.wcSet k).erase w)
        (w.waiters.foldl (fun s r => s.emit (.accessFault r.1 r.2.1)) s1).wcRetry die strip

/-- WC_FILL_COMPLETE (R130). -/
def execWcFillComplete (die strip a : Nat) (s : State) : Res :=
  onStrip die strip (.next (s.wcFilled die strip (lineOf a)))

/-- Sets of one die (R129). -/
def wcOfDie (die k : Nat) : Bool := decide (k / 8192 = die)

/-- R134, R398: drop every unpinned line of a die. A line whose fill is in progress is not yet in the cache and stays. -/
def State.wcDropUnpinned (s : State) (die : Nat) : State :=
  let sets := SMap.mapVals s.arr.wc (fun k l =>
    if wcOfDie die k then l.filter (fun w => decide (0 < w.pins) || w.filling) else l)
  { s with arr := { s.arr with wc := SMap.keep sets (fun _ l => !l.isEmpty) } }

/-- Pinned lines of a die (R134). -/
def State.wcPinned (s : State) (die : Nat) : Nat :=
  s.arr.wc.foldl (fun n e =>
    if wcOfDie die e.1 then n + (e.2.filter (fun w => decide (0 < w.pins))).length else n) 0

/-- R130, R148: pin a line in a strip, starting its fill when it is absent; one that is being filled is a merge. False while its
set is full of pins. -/
def State.wcPin (s : State) (die strip line : Nat) : State × Bool :=
  let k := wcKey die strip line
  match (s.wcSet k).find? (fun w => decide (w.line = line)) with
  | some w =>
    let s1 := s.setWc k ((s.wcSet k).map (fun v => if v = w then { w with pins := w.pins + 1 } else v))
    (s1.bump (if w.filling then F.WC_MERGES_COUNT else F.WC_HITS_COUNT) 1 0 (.die die), true)
  | none =>
    match s.wcAllocate die strip line 1 [] with
    | none => (s, false)
    | some s1 => (s1, true)

/-- R130, R148: one pin of a line ends; a request that waited for a way may then proceed. -/
def State.wcUnpin (s : State) (die strip line : Nat) : State :=
  let k := wcKey die strip line
  (s.setWc k ((s.wcSet k).map (fun v => if v.line = line then { v with pins := v.pins - 1 } else v))).wcRetry die strip

end Sys2Proof.Machine
end

