-- ==== Sys2Proof/Machine/Residue.lean ====
section
/-!
DEFINITION. The residue check (R371): residues mod 7 formed from the operands by a separate checker, and compared with the exact
results before they are rounded. A check changes no result.
-/
namespace Sys2Proof.Machine
open Sys2Proof.Machine.Num

/-- R371: a residue, from 0 to 6. -/
def mod7 (z : Int) : Nat := (z % 7).toNat
/-- The signed significand of a finite value; special values lie outside the check. -/
def sigOf : Val → Int
  | .fin n m _ => signed n m
  | _ => 0
def expOf : Val → Int
  | .fin _ _ e => e
  | _ => 0
def isFin : Val → Bool
  | .fin .. => true
  | _ => false
/-- The residue of a significand shifted left by `k`, from that of the significand: 2^3 is 1 mod 7. -/
def shift7 (r : Nat) (k : Int) : Nat := r * 2 ^ (k % 3).toNat % 7

/-- R371: the checker's residue of a product in units of 2^-`unit`, from its operands'. -/
def prodResidue (unit : Int) (x y : Val) : Nat := shift7 (mod7 (sigOf x) * mod7 (sigOf y)) (expOf x + expOf y + unit)

/-- R371, R49: a row of the fixed-point path agrees with the residues summed along K; rows of the other pairs are checked as they
are formed. -/
def rowResidueOk (r : AccRow) : Bool := r.fp || r.cells.all (fun c => decide (c.res = mod7 c.sum.toInt))
/-- R371, R52: an exact block sum agrees with its products. -/
def blockOk (sum : Int) (xs ys : List Val) : Bool :=
  decide ((xs.zip ys).foldl (fun g p => (g + prodResidue 12 p.1 p.2) % 7) 0 = mod7 sum)
/-- R371, R53: the exact product of two finite values agrees with its operands. -/
def prodOk (x y : Val) : Bool :=
  match mulExact x y with
  | (.fin n m e, _) => !(isFin x && isFin y) || decide (shift7 (mod7 (signed n m)) (e - (expOf x + expOf y)) = prodResidue (-(expOf x + expOf y)) x y)
  | _ => true
/-- R371: the exact sum of two finite values agrees with its operands. -/
def sumOk (x y : Val) : Bool :=
  match x, y with
  | .fin n1 m1 e1, .fin n2 m2 e2 =>
    let z := exactAdd n1 m1 e1 n2 m2 e2
    decide ((shift7 (mod7 (signed n1 m1)) (e1 - z.2) + shift7 (mod7 (signed n2 m2)) (e2 - z.2)) % 7 = mod7 z.1)
  | _, _ => true

/-- R371: one lane of a vector add, multiply or FMA, before rounding. -/
def laneResidueOk (opc fmt a b c : Nat) : Bool :=
  let v := fun (x : Nat) => decode (fmtF fmt) x
  if isInt32 fmt then true
  else match opc with
    | 0x20 => sumOk (v a) (v b)
    | 0x21 => sumOk (v a) (negVal (v b))
    | 0x22 => prodOk (v a) (v b)
    | 0x23 => prodOk (v a) (v b) && sumOk (mulExact (v a) (v b)).1 (v c)
    | _ => true
/-- R371: every lane of an operation on tokens. -/
def lanesResidueOk (opc fmt : Nat) (a b c : Tok) : Bool :=
  let w := fmtWidth fmt
  (List.range (1024 / w)).all (fun i => laneResidueOk opc fmt (lane a w i) (lane b w i) (lane c w i))

/-- R369, R371, R375: on a mismatch the tile sends its fault message, from which FAULT_MESSAGE ends the step. -/
def State.residue (s : State) (die y x c cls : Nat) (ok : Bool) : State :=
  if ok then s else s.emit (.unitFault cls die y x c)

end Sys2Proof.Machine
end

