-- ==== Sys2Proof/Machine/Matrix.lean ====
section
/-!
DEFINITION. The matrix engine (R48 to R53, R67 to R73): chunk geometry, accumulation, and one matrix cycle.
-/
namespace Sys2Proof.Machine
open Sys2Proof.Machine.Num

/-- How a pair of operand formats accumulates (R48). -/
inductive AccKind where
  | fixed | mx | fp
  deriving DecidableEq, Repr

/-- R71: chunk geometry of an operand pair: K per chunk, weight tokens per chunk, activation rows per token. -/
structure Geometry where
  k : Nat
  tokens : Nat
  rows : Nat
  kind : AccKind
  deriving DecidableEq, Repr

/-- R71's table; none for a pair that R48 does not list. -/
def geometry (wf af : Nat) : Option Geometry :=
  if (wf = 3 ∨ wf = 4) ∧ (af = 3 ∨ af = 4) then some ⟨32, 8, 4, .fixed⟩
  else if wf = 5 ∧ af = 5 then some ⟨32, 8, 4, .fixed⟩
  else if wf = 7 ∧ af = 7 then some ⟨64, 16, 2, .mx⟩
  else if wf = 8 ∧ af = 8 then some ⟨32, 8, 4, .mx⟩
  else if wf = 9 ∧ af = 9 then some ⟨32, 11, 3, .mx⟩
  else if wf = 7 ∧ af = 8 then some ⟨32, 8, 4, .mx⟩
  else if wf = 7 ∧ af = 9 then some ⟨32, 8, 3, .mx⟩
  else if (wf = 1 ∧ af = 1) ∨ (wf = 2 ∧ af = 2) then some ⟨16, 8, 4, .fp⟩
  else none

def AccCell.zero : AccCell := { sum := 0, nan := false, pinf := false, ninf := false, run := 0, res := 0 }
def AccRow.blank : AccRow := { fp := false, extent := 0, cells := [] }

/-- The value of an FP8 or INT8 lane. -/
def laneVal (fmt code : Nat) : Val := if fmt = 5 then intVal (sint 8 code) else decode (fmtF fmt) code

/-- R49, R50, R371: one product added exactly to a cell, and its residue to the checker's. -/
def addProduct (x y : Val) (c : AccCell) : AccCell × Flags :=
  if isNan x || isNan y then ({ c with nan := true }, fNANIN)
  else
    match mulExact x y with
    | (.nan, _) => ({ c with nan := true }, fNV)
    | (.inf n, _) =>
      let c' := if n then { c with ninf := true } else { c with pinf := true }
      (c', if c'.pinf && c'.ninf then fNV else 0)
    | (.fin n m e, _) =>
      ({ c with sum := c.sum + BitVec.ofInt 96 (signed n (m * 2 ^ (e + 32).toNat)), res := (c.res + prodResidue 32 x y) % 7 }, 0)

/-- R51, R52: a cell leaves its row: as INT32 when I32 is set, else as FP32. -/
def emitCell (fp i32 : Bool) (c : AccCell) : Nat × Flags :=
  if fp then (c.run, 0)
  else if c.nan || (c.pinf && c.ninf) then (fp32.nanCode, 0)
  else if c.pinf then (infCodeOf fp32 false, 0)
  else if c.ninf then (infCodeOf fp32 true, 0)
  else
    let z := c.sum.toInt
    if i32 then toSInt 32 (.fin (decide (z < 0)) z.natAbs (-32))
    else if z = 0 then (0, 0) else rnd fp32 (decide (z < 0)) z.natAbs (-32)

/-- The exact sum of products of a block pair, in units of 2^-12 (R52). -/
def blockSum (xs ys : List Val) : Int :=
  (xs.zip ys).foldl (fun g p =>
    match p.1, p.2 with
    | .fin n1 m1 e1, .fin n2 m2 e2 => g + signed (n1 != n2) (m1 * m2 * 2 ^ (e1 + e2 + 12).toNat)
    | _, _ => g) 0

/-- R52: one block pair added to a running FP32 sum with one rounding. A block sum beyond the range sets OF whatever the
running sum is. An exactly zero block sum is added as +0, DESIGN CHOICE: notes/assumptions/90. -/
def addBlock (run sw sa : Nat) (xs ys : List Val) : Nat × Flags :=
  if sw = 255 ∨ sa = 255 then (fp32.nanCode, fMXNAN)
  else
    let z := blockSum xs ys
    let e : Int := (sw : Int) + (sa : Int) - 254 - 12
    let v : Val := .fin (decide (z < 0)) z.natAbs e
    let r := if z = 0 then (0, 0) else rnd fp32 (decide (z < 0)) z.natAbs e
    if isNan (decode fp32 run) then (fp32.nanCode, r.2 &&& fOF)
    else if r.2 &&& fOF ≠ 0 then
      let q := addVal fp32 (decode fp32 run) (.inf (decide (z < 0)))
      (q.1, q.2 ||| fOF)
    else addVal fp32 (decode fp32 run) v

/-- R53: one exact product added to a running FP32 sum with one rounding. A sum that is NaN stays NaN. -/
def addRunning (run : Nat) (x y : Val) : Nat × Flags :=
  if isNan (decode fp32 run) then
    (fp32.nanCode, (fmaVal fp32 x y (.fin false 0 0)).2 &&& (fNV ||| fNANIN))
  else fmaVal fp32 x y (decode fp32 run)

/-- An MX element without its scale. -/
def mxElemVal (fmt code : Nat) : Val := (mxVal (mxElemFmt fmt) (mxIsInt fmt) 127 code).getD .nan
/-- The 32 elements of block slot `b` of a token. -/
def mxBlock (fmt : Nat) (t : Tok) (b : Nat) : List Val := (List.range 32).map (fun i => mxElemVal fmt (mxCode fmt t b i))

/-- R71: block `j` of column `n` of a chunk whose columns hold `per` blocks, among the chunk's weight tokens. -/
def weightBlock (wf per : Nat) (toks : List Tok) (n j : Nat) : Nat × List Val :=
  let blk := per * n + j
  let t := toks.getD (blk / mxSlots wf) 0
  (mxScale t (blk % mxSlots wf), mxBlock wf t (blk % mxSlots wf))

/-- One activation row of a chunk added to one cell: column `n` of the weights in `toks`, row `j` of token `act`. -/
def accCell (g : Geometry) (wf af : Nat) (toks : List Tok) (act : Tok) (j n : Nat) (c : AccCell) : AccCell × Flags :=
  match g.kind with
  | .fixed =>
    let wt := toks.getD (n / 4) 0
    (List.range 32).foldl (fun (p : AccCell × Flags) k =>
      let q := addProduct (laneVal wf (lane wt 8 (32 * (n % 4) + k))) (laneVal af (lane act 8 (32 * j + k))) p.1
      (q.1, p.2 ||| q.2)) (c, 0)
  | .mx =>
    let per := g.k / 32
    (List.range per).foldl (fun (p : AccCell × Flags) b =>
      let wb := weightBlock wf per toks n b
      let slot := per * j + b
      let q := addBlock p.1.run wb.1 (mxScale act slot) wb.2 (mxBlock af act slot)
      ({ p.1 with run := q.1 }, p.2 ||| q.2)) (c, 0)
  | .fp =>
    let wt := toks.getD (n / 4) 0
    (List.range 16).foldl (fun (p : AccCell × Flags) k =>
      let q := addRunning p.1.run (decode (fmtF wf) (lane wt 16 (16 * (n % 4) + k)))
        (decode (fmtF af) (lane act 16 (16 * j + k)))
      ({ p.1 with run := q.1 }, p.2 ||| q.2)) (c, 0)

/-- One activation row of a chunk added to an accumulator row. -/
def accRow (g : Geometry) (wf af : Nat) (toks : List Tok) (act : Tok) (j : Nat) (r : AccRow) : AccRow × Flags :=
  let cs := (List.range 32).map (fun n => accCell g wf af toks act j n (r.cells.getD n AccCell.zero))
  ({ r with extent := r.extent + g.k, cells := cs.map (·.1) }, cs.foldl (fun f p => f ||| p.2) 0)

/-- R371: what the checker compares while a row of a chunk is added: each block sum of an MX pair, each product of a BF16 or FP16
pair. -/
def accChecked (g : Geometry) (wf af : Nat) (toks : List Tok) (act : Tok) (j : Nat) : Bool :=
  (List.range 32).all (fun n =>
    match g.kind with
    | .fixed => true
    | .mx =>
      let per := g.k / 32
      (List.range per).all (fun b =>
        let ws := (weightBlock wf per toks n b).2
        let xs := mxBlock af act (per * j + b)
        blockOk (blockSum ws xs) ws xs)
    | .fp => (List.range 16).all (fun k =>
        prodOk (decode (fmtF wf) (lane (toks.getD (n / 4) 0) 16 (16 * (n % 4) + k))) (decode (fmtF af) (lane act 16 (16 * j + k)))))

/-- R72: the row leaves as one token, column n in lane n. -/
def emitRow (i32 : Bool) (r : AccRow) : Tok × Flags :=
  let cs := (List.range 32).map (fun n => emitCell r.fp i32 (r.cells.getD n AccCell.zero))
  (packLanes 32 (cs.map (·.1)), cs.foldl (fun f p => f ||| p.2) 0)

def State.accRowAt (s : State) (die y x r : Nat) : AccRow := SMap.getD s.arr.acc (rowKey die y x r) AccRow.blank
def State.setAccRow (s : State) (die y x r : Nat) (v : AccRow) : State :=
  { s with arr := { s.arr with acc := SMap.setD s.arr.acc (rowKey die y x r) v AccRow.blank } }
/-- R71: accumulator row `m` of the context's partition. -/
def State.accIndex (s : State) (die y x c m : Nat) : Nat := 16 * s.rd F.TILE_PART_ACC_BASE c (.tile die y x) + m

/-- R72: MOD bits of MMAC. -/
def mKeep (w : Nat) : Bool := bitOf (opMod w) 0
def mEmit (w : Nat) : Bool := bitOf (opMod w) 1
def mCont (w : Nat) : Bool := bitOf (opMod w) 2
def mI32 (w : Nat) : Bool := bitOf (opMod w) 3

/-- R69: whether starting the word with M rows and KC chunks is a bound error. -/
def State.mmacBound (s : State) (die y x c w m kc : Nat) (g : Geometry) : Bool :=
  let fp := decide (g.kind ≠ .fixed)
  decide (2 ^ 24 ≤ m) || decide (16 * s.rd F.TILE_PART_ACC_LEN c (.tile die y x) < m) ||
  (mKeep w && decide (kc ≠ 1)) || decide (2 ^ 30 < kc * g.k) ||
  (mCont w && (List.range m).any (fun i =>
    let r := s.accRowAt die y x (s.accIndex die y x c i)
    (r.fp != fp) || decide (2 ^ 30 < r.extent + kc * g.k)))

/-- The next word of the unit, or the wrap (R67). -/
def State.matAdvance (s : State) (die y x c : Nat) : State :=
  let t := s.tile die y x c
  let t' : TileCtx := { t with mLive := false, mRow := 0, mChunk := 0 }
  match s.nextWord die y x c (t.mWord + 1) false with
  | some i => s.setTile die y x c { t' with mWord := i }
  | none => s.setTile die y x c (s.wrapped die y x c false t')

/-- R71: the word and port whose weights may be loaded ahead: this word while it has another chunk, else the
sequencer's next MMAC unless it has KEEP. -/
def State.aheadPort (s : State) (die y x c w : Nat) (t : TileCtx) : Option (Nat × Nat) :=
  if t.mChunk + 1 < t.mChunks then
    if mKeep w then none else (geometry (opFmt w) (opImm w % 16)).map (fun g => (opB w, g.tokens))
  else
    let i := (s.nextWord die y x c (t.mWord + 1) false).orElse (fun _ => s.nextWord die y x c 0 false)
    i.bind (fun k =>
      let w' := s.prog die y x c k
      if mKeep w' then none else (geometry (opFmt w') (opImm w' % 16)).map (fun g => (opB w', g.tokens)))

/-- One weight token of the cycle: into the stationary buffer until it is complete, then into the other one. -/
def State.loadWeight (s : State) (die y x c w : Nat) (g : Geometry) : State :=
  let t := s.tile die y x c
  if !(mKeep w) && decide (t.held.length < g.tokens) then
    match s.source die y x c (opB w) 32 with
    | none => s
    | some tok =>
      let s1 := s.consume die y x c (opB w)
      (s1.setTile die y x c { s1.tile die y x c with held := t.held ++ [tok] }).fired die c
  else
    match s.aheadPort die y x c w t with
    | none => s
    | some (p, n) =>
      if n ≤ t.ahead.length then s
      else
        match s.source die y x c p 32 with
        | none => s
        | some tok =>
          let s1 := s.consume die y x c p
          (s1.setTile die y x c { s1.tile die y x c with ahead := t.ahead ++ [tok] }).fired die c

/-- The position after a chunk: its successor's weights become stationary, or the word ends (R71). -/
def State.endChunk (s : State) (die y x c : Nat) : State :=
  let t := s.tile die y x c
  if t.mChunk + 1 < t.mChunks then
    s.setTile die y x c { t with mChunk := t.mChunk + 1, mRow := 0, held := t.ahead, ahead := [] }
  else s.matAdvance die y x c

/-- One activation row of the cycle (R71, R72): nothing while the weights are incomplete, no activation is
present, or the emitted row has no room. A KEEP word that finds no weights, or fewer than its geometry needs, waits for good,
DESIGN CHOICE: notes/assumptions/106. -/
def State.acceptRow (s : State) (die y x c w : Nat) (g : Geometry) : State :=
  let t := s.tile die y x c
  if t.held.length < g.tokens then s
  else
    match s.source die y x c (opA w) 32 with
    | none => s
    | some act =>
      let m := t.mRow
      let last := decide (t.mChunks ≤ t.mChunk + 1)
      let emits := mEmit w && last
      if emits && !(s.dstRoom die y x c (opDst w)) then s.waitDst die y x c (opDst w)
      else
        let idx := s.accIndex die y x c m
        let old := s.accRowAt die y x idx
        let start := if t.mChunk = 0 && !(mCont w) then { AccRow.blank with fp := decide (g.kind ≠ .fixed) } else old
        let r := accRow g (opFmt w) (opImm w % 16) t.held act (m % g.rows) start
        let done := decide (m % g.rows + 1 = g.rows) || decide (m + 1 = t.mRows)
        let s1 := (if done then s.consume die y x c (opA w) else s).setAccRow die y x idx r.1
        let e := emitRow (mI32 w) r.1
        let s2 := if emits then (s1.writeDst die y x c (opDst w) 32 e.1).tileFlags die y x c e.2 else s1
        let ok := accChecked g (opFmt w) (opImm w % 16) t.held act (m % g.rows) && (!emits || rowResidueOk r.1)
        let s3 := (((s2.tileFlags die y x c r.2).bump F.TILE_MBUSY_COUNT 1 c (.tile die y x)).fired die c).residue die y x c 0x0B ok
        if m + 1 < t.mRows then s3.setTile die y x c { s3.tile die y x c with mRow := m + 1 }
        else s3.endChunk die y x c

/-- R72: a word with M = 0 consumes its weight chunks and discards them, unless KEEP is set. -/
def State.discardChunk (s : State) (die y x c w : Nat) (g : Geometry) : State :=
  let t := s.tile die y x c
  if mKeep w then s.matAdvance die y x c
  else if g.tokens ≤ t.held.length then (s.fired die c).endChunk die y x c
  else s

/-- One cycle of a started word. -/
def State.matCycle (s : State) (die y x c w : Nat) (g : Geometry) : State :=
  let s1 := if (s.tile die y x c).mRows = 0 then s.discardChunk die y x c w g else s.acceptRow die y x c w g
  let t1 := s1.tile die y x c
  if t1.mLive then s1.loadWeight die y x c w g else s1

/-- MMAC (R71, R72): one matrix cycle of the active context's matrix sequencer. A word starts by reading its row
count and chunk count; a bound error freezes the context. -/
def State.matFire (s : State) (die y x : Nat) : State :=
  match s.active die with
  | none => s
  | some c =>
    let s := s.adoptDue die y x c false
    let t := s.tile die y x c
    match s.nextWord die y x c t.mWord false with
    | none => s
    | some i =>
      let w := s.prog die y x c i
      match geometry (opFmt w) (opImm w % 16) with
      | none => s
      | some g =>
        if t.mLive then s.matCycle die y x c w g
        else
          match s.repeatCount die y x c w false with
          | none => s
          | some (m, s1) =>
            let kc := s.pm die y x c (opC w - 48) false
            if s.mmacBound die y x c w m kc g then s.tileBound die y x c i
            else
              let held := if mKeep w then t.held else t.ahead
              let s2 := s1.setTile die y x c { s1.tile die y x c with
                mWord := i, mLive := true, mRows := m, mChunks := kc, mChunk := 0, mRow := 0, held := held,
                ahead := if mKeep w then t.ahead else [] }
              if kc = 0 then (s2.fired die c).matAdvance die y x c else s2.matCycle die y x c w g

/-- MMAC (R71, R72). -/
def execMmac (die y x : Nat) (s : State) : Res := onCt s die y x (.next (s.matFire die y x))

end Sys2Proof.Machine
end

