-- ==== Sys2Proof/Machine/MemTile.lean ====
section
/-!
DEFINITION. The memory tile (R109 to R120): address generators, their descriptors and loop nests, event counts,
and the scatter-accumulate unit.
-/
namespace Sys2Proof.Machine
open Sys2Proof.Machine.Num

def State.ag (s : State) (die y x c a : Nat) : AgState := SMap.getD s.arr.ags (agKey die y x c a) AgState.idle
def State.setAg (s : State) (die y x c a : Nat) (g : AgState) : State :=
  { s with arr := { s.arr with ags := SMap.setD s.arr.ags (agKey die y x c a) g AgState.idle } }

/-- The descriptor an address generator stands at, as a number (R112). -/
def State.descOf (s : State) (die y x c a d : Nat) : Nat := s.rd F.MT_DESC_DESC (16 * c + 4 * a + d) (.tile die y x)

/-- Byte, word and signed word of a descriptor. -/
def dByte (n k : Nat) : Nat := bitsOf n (8 * k) 8
def dWord (n k : Nat) : Nat := bitsOf n (8 * k) 32
def dInt (n k : Nat) : Int := sint 32 (dWord n k)
def dMode (n : Nat) : Nat := dByte n 0
def dNet (n : Nat) : Nat := dByte n 1 % 4
def dPort (n : Nat) : Nat := dByte n 1 / 4 % 8
def dSignal (n : Nat) : Bool := bitOf (dByte n 1) 5
def dLast (n : Nat) : Bool := bitOf (dByte n 1) 7
def dWait (n : Nat) : Nat := dByte n 3
def dBase (n : Nat) : Nat := bitsOf n 32 19
def dStride (n d : Nat) : Int := dInt n (24 + 4 * d)
/-- Bytes of one token of the descriptor's network (R109). -/
def dWidth (n : Nat) : Nat := if dNet n = 0 then 128 else 4

/-- R109: the context's SRAM region: first byte and length. -/
def State.region (s : State) (die y x c : Nat) : Nat × Nat :=
  (4096 * s.rd F.MT_PART_SRAM_BASE c (.tile die y x), 4096 * s.rd F.MT_PART_SRAM_LEN c (.tile die y x))
def inRegion (r : Nat × Nat) (lo : Int) (hi : Int) : Bool :=
  decide ((r.1 : Int) ≤ lo) && decide (hi < (r.1 : Int) + r.2)

/-- R92: the memory tile that hosts the extension of a queue at site (y, x). -/
def extHost (y x dir : Nat) : Nat × Nat :=
  if isCompute y x then
    (match dir with
     | 0 => (y - 1, x)
     | 1 => (y, x + 1)
     | 2 => (y + 1, x)
     | _ => (y, x - 1))
  else (y, x)

/-- R92, R120: byte ranges of the extensions of context `c` that a memory tile hosts. -/
def State.hosted (s : State) (die y x c : Nat) : List (Nat × Nat) :=
  (s.arr.queues.filter (fun e =>
    let q := e.1 / 4 % 65536
    decide (e.1 / 4 / 65536 = die) && decide (e.1 % 4 = c) && decide (0 < e.2.extLen) && decide (qidY q < 24) &&
    decide (extHost (qidY q) (qidX q) e.2.extDir = (y, x)))).map (fun e => (4096 * e.2.extBase, 4096 * e.2.extLen))

/-- R149: a prefetch of some stream that is still writing part of a range of a tile's SRAM. -/
def State.prefetching (s : State) (die y x lo n : Nat) : Bool :=
  s.strm.streams.any (fun e => decide (e.1 / 64 = die) && e.2.flying.any (fun f =>
    let w := f.word.toNat
    decide (f.cls = .prefetch) && decide (bitsOf w 192 8 = 3 ∧ bitsOf w 200 8 = y ∧ bitsOf w 208 8 = x) &&
    decide (bitsOf w 224 32 < lo + n) && decide (lo < bitsOf w 224 32 + f.len)))

/-- R109, R114: the SRAM words that a descriptor's bounds are read from. -/
def boundWords (n : Nat) : List Nat :=
  ((List.range 4).filter (fun d => bitOf (dByte n 2) d)).map (fun d => dWord n (8 + 4 * d) % 2 ^ 19)
/-- R114: the bound of dimension `d`, read at issue. -/
def State.boundOf (s : State) (die y x n d : Nat) : Nat :=
  let f := dWord n (8 + 4 * d)
  if bitOf (dByte n 2) d then s.sramRead die y x (f % 2 ^ 19) 4 else f % 2 ^ 24

/-- R113: lowest and highest byte that a nest touches. -/
def nestRange (n : Nat) (bounds : List Nat) : Int × Int :=
  let ends := (List.range 4).map (fun d => ((bounds.getD d 1 : Int) - 1) * dStride n d)
  let lo := ends.foldl (fun a e => a + min 0 e) (dBase n : Int)
  let hi := ends.foldl (fun a e => a + max 0 e) (dBase n : Int)
  (lo, hi + dWidth n - 1)

/-- R120: whether a nest with these bounds and strides, from `b` on, has an access at an offset from `lo` to `hi`. A dimension is
searched only where the ones after it can still reach. -/
def nestHits (lo hi : Int) : List (Nat × Int) → Int → Bool
  | [], b => decide (lo ≤ b) && decide (b ≤ hi)
  | (n, t) :: rest, b =>
    let down := rest.foldl (fun (a : Int) e => a + min 0 (((e.1 : Int) - 1) * e.2)) 0
    let up := rest.foldl (fun (a : Int) e => a + max 0 (((e.1 : Int) - 1) * e.2)) 0
    if t = 0 then nestHits lo hi rest b
    else
      let first := if 0 < t then (lo - up - b + t - 1) / t else (b - (hi - down) + (-t) - 1) / (-t)
      let last := if 0 < t then (hi - down - b) / t else (b - (lo - up)) / (-t)
      let i0 := (max 0 first).toNat
      let i1 := (min ((n : Int) - 1) last + 1).toNat
      (List.range (i1 - i0)).any (fun k => nestHits lo hi rest (b + ((i0 + k : Nat) : Int) * t))
/-- R120: whether a nest accesses a byte of an extension. -/
def nestInExt (n : Nat) (bounds : List Nat) (e : Nat × Nat) : Bool :=
  !bounds.any (fun b => decide (b = 0)) &&
  nestHits ((e.1 : Int) - dWidth n + 1) ((e.1 : Int) + e.2 - 1) ((List.range 4).reverse.map (fun d => (bounds.getD d 1, dStride n d)))
    (dBase n)

/-- R113: byte offset of the current iteration. -/
def nestAddr (n : Nat) (index : List Nat) : Nat :=
  ((List.range 4).foldl (fun (a : Int) d => a + (index.getD d 0 : Int) * dStride n d) (dBase n : Int)).toNat

/-- R113: the next indices, dimension 0 innermost; none after the last iteration. -/
def nestNext : List Nat → List Nat → Option (List Nat)
  | b :: bs, i :: is => if i + 1 < b then some ((i + 1) :: is) else (nestNext bs is).map (fun r => 0 :: r)
  | _, _ => none

/-- R111: event count of AGa. -/
def evFld (a : Nat) : Fld := { F.MT_EVENTS_COUNT_AG0 with lo := 8 * a }

/-- R115, R119: a bound error of a memory tile: recorded, and the context frozen. -/
def State.mtBound (s : State) (die y x c a kind : Nat) : State :=
  let w := Win.tile die y x
  ((((s.wr F.MT_STATUS_BOUND_ERR 1 0 w).wr F.MT_STATUS_ERR_AG a 0 w).wr F.MT_STATUS_ERR_CTX c 0 w).wr
    F.MT_STATUS_ERR_KIND kind 0 w).freeze die c 2

/-- R111: a finished descriptor completes: it posts its event unless the count stands at 255, and the generator
goes on to its next descriptor. -/
def State.postDesc (s : State) (die y x c a : Nat) : State :=
  let g := s.ag die y x c a
  let n := s.descOf die y x c a g.desc
  let w := Win.tile die y x
  if dSignal n && decide (s.rd (evFld a) c w = 255) then
    s.setAg die y x c a { g with running := false, finished := true }
  else
    let s1 := if dSignal n then s.wr (evFld a) (s.rd (evFld a) c w + 1) c w else s
    let next := if dLast n || decide (g.desc = 3) then 0 else g.desc + 1
    s1.setAg die y x c a { AgState.idle with desc := next }

/-- R111: the WAIT condition is met; the state after it is consumed. -/
def State.takeWait (s : State) (die y x c n : Nat) : Option State :=
  let k := dWait n
  if k = 0 then some s
  else if k ≤ 4 then
    let v := s.rd (evFld (k - 1)) c (.tile die y x)
    if v = 0 then none else some (s.wr (evFld (k - 1)) (v - 1) c (.tile die y x))
  else
    match s.portQueue die y x c 1 (k - 5) with
    | none => none
    | some q => if (s.headTok die q c).isSome then some (s.popTok die q c) else none

/-- AG_DESCRIPTOR_ISSUE (R111 to R115, R120): the active context's generator issues the descriptor it stands at. -/
def State.issueDesc (s : State) (die y x a : Nat) : State :=
  match s.active die with
  | none => s
  | some c =>
    let g := s.ag die y x c a
    let n := s.descOf die y x c a g.desc
    if g.running || g.finished then s
    else if dMode n = 0 then
      s.setAg die y x c a { g with desc := if dLast n || decide (g.desc = 3) then 0 else g.desc + 1 }
    else if (boundWords n).any (fun w => s.prefetching die y x w 4) then s
    else
      match s.takeWait die y x c n with
      | none => s
      | some s1 =>
        let bounds := (List.range 4).map (s.boundOf die y x n)
        let rng := nestRange n bounds
        let scatter := decide (4 ≤ dMode n)
        let empty := bounds.any (fun b => decide (b = 0))
        if (boundWords n).any (fun w => !(inRegion (s.region die y x c) w (w + 3))) then s.mtBound die y x c a 1
        else if bounds.any (fun b => decide (2 ^ 24 ≤ b)) then s.mtBound die y x c a 0
        else if !empty && !scatter && (!(inRegion (s.region die y x c) rng.1 rng.2) ||
            (decide (dMode n ≠ 3) && (s.hosted die y x c).any (nestInExt n bounds))) then
          s.mtBound die y x c a 1
        else
          let s2 := s1.setAg die y x c a { g with running := true, bounds := bounds, index := [0, 0, 0, 0] }
          let s3 := s2.fired die c
          if empty then s3.postDesc die y x c a else s3

/-- After one iteration: the next one, or the nest is finished. -/
def State.nestStep (s : State) (die y x c a : Nat) : State :=
  let g := s.ag die y x c a
  match nestNext g.bounds g.index with
  | some i => s.setAg die y x c a { g with index := i }
  | none => s.setAg die y x c a { g with running := false, finished := true }

/-- The running descriptor of the active context's generator, if it has the mode: context, descriptor. -/
def State.runningDesc (s : State) (die y x a mode : Nat) : Option (Nat × Nat) :=
  match s.active die with
  | none => none
  | some c =>
    let g := s.ag die y x c a
    let n := s.descOf die y x c a g.desc
    if g.running && decide (dMode n = mode) then some (c, n) else none

/-- R113, R149: READ moves one token from SRAM to its output port, once no prefetch is still writing it. -/
def State.agRead (s : State) (die y x a : Nat) : State :=
  match s.runningDesc die y x a 1 with
  | none => s
  | some (c, n) =>
    let q := qidOf y x (dNet n) (4 + dPort n)
    if s.roomAt die q c = 0 then s.markWaiting die q c
    else if s.prefetching die y x (nestAddr n (s.ag die y x c a).index) (dWidth n) then s
    else
      let v := s.sramRead die y x (nestAddr n (s.ag die y x c a).index) (dWidth n)
      ((s.pushTok die q c (BitVec.ofNat 1024 v)).fired die c).nestStep die y x c a

/-- R113: WRITE stores one token from its input port. -/
def State.agWrite (s : State) (die y x a : Nat) : State :=
  match s.runningDesc die y x a 2 with
  | none => s
  | some (c, n) =>
    match s.portQueue die y x c (dNet n) (dPort n) with
    | none => s
    | some q =>
      match s.headTok die q c with
      | none => s
      | some t =>
        (((s.popTok die q c).sramWrite die y x (nestAddr n (s.ag die y x c a).index) t.toNat (dWidth n)).fired
          die c).nestStep die y x c a

/-- R113: FILL writes its pattern across one token. -/
def State.agFill (s : State) (die y x a : Nat) : State :=
  match s.runningDesc die y x a 3 with
  | none => s
  | some (c, n) =>
    let v := (splat 32 (dWord n 40)).toNat
    ((s.sramWrite die y x (nestAddr n (s.ag die y x c a).index) v (dWidth n)).fired die c).nestStep die y x c a

/-- The parts of a route tag that the unit reads (R116): slot, position, choice and BF16 weight. -/
def tagSlot (t : Nat) : Nat := bitsOf t 48 16
def tagPos (t : Nat) : Nat := bitsOf t 28 20
def tagChoice (t : Nat) : Nat := bitsOf t 25 3
def tagWeight (t : Nat) : Nat := bitsOf t 9 16

/-- R109, R116, R119, R120: the target byte offset of a tagged row, or the kind of the bound error. The map's entry and the row
lie in the region, and the row in no extension. -/
def State.scatterTarget (s : State) (die y x c n tag : Nat) (plane : Bool) : Nat ⊕ Nat :=
  let sl := tagSlot tag
  let e := dWord n 40 + 16 * (sl % 2 ^ (dByte n 52 % 16))
  let p := tagPos tag
  let first := s.sramRead die y x (e + 4) 4
  let count := s.sramRead die y x (e + 8) 4
  if ¬ inRegion (s.region die y x c) e (e + 15) then .inr 1
  else if s.sramRead die y x e 2 ≠ sl ∨ ¬ bitOf (s.sramRead die y x (e + 2) 1) 0 then .inr 2
  else if p < first ∨ first + count ≤ p then .inr 3
  else
    let t := dBase n + s.sramRead die y x (e + 12) 4 + (p - first) * dWord n 44 +
      (if plane then tagChoice tag * dWord n 48 else 0)
    if inRegion (s.region die y x c) t (t + 127) && !(s.hosted die y x c).any (fun x => overlap t 128 x.1 x.2) then .inl t
    else .inr 1

def State.mtFlags (s : State) (die y x c : Nat) (g : Flags) : State :=
  let all : Fld := { F.MT_NUM_FLAGS_NV with w := 7 }
  if g = 0 then s else s.wr all (s.rd all c (.tile die y x) ||| g.toNat) c (.tile die y x)

/-- R117, R118: one lane of the stored row: accumulated into `m`, or alone in plane mode. A lane stored alone without a product
is not read as a number, DEDUCED: notes/assumptions/91. -/
def scatterLane (plane mulW : Bool) (w m v : Nat) : Nat × Flags :=
  if plane then (if mulW then fMul fp32 w v else (v, 0))
  else if mulW then fFma fp32 w v m else fAdd fp32 m v

/-- R371: the addition or product of one lane, before rounding. -/
def scatterChecked (plane mulW : Bool) (w m v : Nat) : Bool :=
  if plane then !mulW || laneResidueOk 0x22 0 w v 0
  else if mulW then laneResidueOk 0x23 0 w v m else laneResidueOk 0x20 0 m v 0

/-- R116 to R119: one tagged row, once the row and both halves of its tag are present. -/
def State.scatter (s : State) (die y x a : Nat) (plane : Bool) : State :=
  match s.runningDesc die y x a (if plane then 5 else 4) with
  | none => s
  | some (c, n) =>
    let tp := b2n (bitOf (dByte n 52) 5)
    match s.portQueue die y x c 0 (dPort n), s.portQueue die y x c 1 tp with
    | some vq, some tq =>
      match s.headTok die vq c, (s.queue die tq c).toks with
      | some row, t0 :: t1 :: _ =>
        let tag := lane t0 32 0 + 2 ^ 32 * lane t1 32 0
        match s.scatterTarget die y x c n tag plane with
        | .inr kind => s.mtBound die y x c a kind
        | .inl off =>
          if s.prefetching die y x off 128 then s else
          let w := (widen bf16 (tagWeight tag)).1
          let rs := (List.range 32).map (fun i =>
            scatterLane plane (bitOf (dByte n 52) 4) w (s.sramRead die y x (off + 4 * i) 4) (lane row 32 i))
          let s1 := ((s.popTok die vq c).popTok die tq c).popTok die tq c
          let s2 := s1.sramWrite die y x off (packNat 32 (rs.map (·.1))) 128
          let ok := (List.range 32).all (fun i =>
            scatterChecked plane (bitOf (dByte n 52) 4) w (s.sramRead die y x (off + 4 * i) 4) (lane row 32 i))
          let s3 := ((s2.mtFlags die y x c (rs.foldl (fun g r => g ||| r.2) 0)).bump F.MT_SA_COUNT_ROWS 1 c (.tile die y x)).residue
            die y x c 0x0C ok
          (s3.fired die c).nestStep die y x c a
      | _, _ => s
    | _, _ => s

def onAg (s : State) (die y x a : Nat) (k : Res) : Res :=
  if a < 4 then onMt s die y x k else .refused (.noSuchUnit "address generator")

/-- AG_DESCRIPTOR_ISSUE (R111, R114, R115). -/
def execAgDescriptorIssue (die y x a : Nat) (s : State) : Res := onAg s die y x a (.next (s.issueDesc die y x a))
/-- AG_READ (R113). -/
def execAgRead (die y x a : Nat) (s : State) : Res := onAg s die y x a (.next (s.agRead die y x a))
/-- AG_WRITE (R113). -/
def execAgWrite (die y x a : Nat) (s : State) : Res := onAg s die y x a (.next (s.agWrite die y x a))
/-- AG_FILL (R113). -/
def execAgFill (die y x a : Nat) (s : State) : Res := onAg s die y x a (.next (s.agFill die y x a))
/-- SCATTER_ACC (R116, R117, R119). -/
def execScatterAcc (die y x a : Nat) (s : State) : Res := onAg s die y x a (.next (s.scatter die y x a false))
/-- SCATTER_PLANE (R116, R118, R119). -/
def execScatterPlane (die y x a : Nat) (s : State) : Res := onAg s die y x a (.next (s.scatter die y x a true))
/-- DESCRIPTOR_COMPLETE (R111): a finished descriptor of the active context posts its event, or waits while the
count stands at 255. -/
def execDescriptorComplete (die y x a : Nat) (s : State) : Res :=
  onAg s die y x a (.next (match s.active die with
    | none => s
    | some c => if (s.ag die y x c a).finished then s.postDesc die y x c a else s))

end Sys2Proof.Machine
end

