-- ==== Sys2Proof/Machine/Image.lean ====
section
/-!
DEFINITION. The checks of a context load (R66, R84, R92, R109, R112, R120, R123): which images a slot refuses.
-/
namespace Sys2Proof.Machine

/-- R63: specifiers a vector operation may read, and those it may write. -/
def vecSrcOk (n : Nat) : Bool :=
  decide (n < 36) || decide (n = 42) || decide (n = 43) || decide (n = 46) || decide (n = 47) || decide (48 ≤ n)
def vecDstOk (n : Nat) : Bool :=
  decide (n < 32) || decide (n = 40) || decide (n = 41) || decide (n = 44) || decide (n = 47)
def matDstOk (n : Nat) : Bool := vecDstOk n || decide (n = 46)

/-- R74: formats a vector opcode takes. -/
def vecFmts (opc : Nat) : List Nat :=
  match opc with
  | 0x20 => [0, 1, 6]
  | 0x21 => [0, 1, 6]
  | 0x22 => [0, 1]
  | 0x23 => [0, 1]
  | 0x24 => [0, 1, 3, 4, 6]
  | 0x25 => [0, 1, 3, 4, 6]
  | 0x26 => [0, 1, 3, 4, 6]
  | 0x27 => [0, 1, 2, 3, 4, 5, 6]
  | 0x28 => [6]
  | 0x29 => [6]
  | 0x2A => [6]
  | 0x2B => [6]
  | 0x30 => [0]
  | 0x31 => [0]
  | 0x32 => [0]
  | 0x34 => [0, 1, 2, 3, 4, 5, 6]
  | 0x35 => [0, 1]
  | 0x36 => [7, 8, 9]
  | 0x38 => [0, 6]
  | 0x39 => [0, 6]
  | 0x3A => [0]
  | 0x3C => [0, 6]
  | 0x3D => [0, 1, 2, 3, 4, 5, 6, 7, 8, 9]
  | _ => []

/-- R46: pairs of lane formats between which a conversion exists. Its table names no conversion of a format into itself, so a
load with one is refused, DESIGN CHOICE: notes/assumptions/105. -/
def cvtOk (src dst : Nat) : Bool :=
  decide (src ≠ dst) && decide (src < 7) && decide (dst < 7) &&
  (decide (src = 0) || decide (dst = 0) || (decide (src ≠ 6) && decide (dst ≠ 6)))

/-- R66: the immediate of a vector word holds a value its opcode and format define. -/
def immOk (opc fmt imm : Nat) : Bool :=
  match opc with
  | 0x26 => decide (imm < 6)
  | 0x2B => decide (imm < 2)
  | 0x34 =>
    let a := fmtWidth fmt; let b := fmtWidth (imm % 16)
    let parts := if a < b then b / a else a / b
    cvtOk fmt (imm % 16) && decide (imm < 64) && decide (imm / 16 < parts)
  | 0x35 => decide (7 ≤ imm % 16 ∧ imm % 16 ≤ 9) && decide (imm / 16 % 4 < mxSlots (imm % 16)) &&
      (if fmt = 1 then decide (imm < 128) else decide (imm < 64))
  | 0x36 => decide (imm % 16 = 0) && decide (imm < 64) && decide (imm / 16 < mxSlots fmt)
  | 0x38 => decide (imm / 32 % 2 = 0) && (decide (imm / 64 ≠ 3) || decide (imm % 32 = 0))
  | 0x39 => decide (imm < 4) && (decide (imm = 1) || decide (imm = 2) || (decide (imm = 0) && decide (fmt = 0)) ||
      (decide (imm = 3) && decide (fmt = 6)))
  | 0x3A => decide (imm < 32)
  | 0x3C => true
  | _ => decide (imm = 0)

/-- R65: the repeat fields keep their layout; an immediate count is at least 1 (R66). -/
def repeatOk (w : Nat) : Bool :=
  match opRsrc w with
  | 0 => decide (1 ≤ opRepeat w)
  | 1 => decide (opRepeat w < 16)
  | _ => decide (opRepeat w = 0)

/-- R65, R74, R76: the modifiers of a vector word. -/
def vecModOk (opc fmt m : Nat) : Bool :=
  decide (m < 8) &&
  (if opc = 0x3C then
     (match m % 4 with
      | 0 => decide (fmt = 0)
      | 3 => decide (fmt = 6)
      | _ => true)
   else (decide (m % 2 = 0) || decide (opc = 0x34)) && (decide (m < 4) || decide (opc = 0x3A)))

/-- R66: source and destination fields of a vector word: allowed where used, zero where unused. PM counts among the starting values
of VCOMB, DEDUCED: notes/assumptions/108. -/
def vecOperandsOk (w : Nat) : Bool :=
  let opc := opOpc w
  if opc = 0x3A then
    decide (opA w = 0) && decide (opB w = 0) && (decide (opC w < 32) || decide (opC w = 47) || decide (48 ≤ opC w)) && vecDstOk (opDst w)
  else
    let n := if opc = 0x38 ∧ opImm w / 64 = 3 then 2 else if opc = 0x34 ∨ opc = 0x35 ∨ opc = 0x36 ∨ opc = 0x38 then 1
      else vecArity' opc
    vecSrcOk (opA w) && (if 2 ≤ n then vecSrcOk (opB w) else decide (opB w = 0)) &&
    (if 3 ≤ n then vecSrcOk (opC w) else decide (opC w = 0)) &&
    (if opc = 0x3C then decide (opDst w = 0) else vecDstOk (opDst w))
where
  vecArity' (opc : Nat) : Nat := if opc = 0x23 ∨ opc = 0x27 then 3 else if opc ≤ 0x2B then 2 else 1

/-- R48, R66, R72: an MMAC word. -/
def mmacOk (w : Nat) : Bool :=
  (geometry (opFmt w) (opImm w % 16)).isSome && decide (opImm w < 16) &&
  decide (32 ≤ opA w ∧ opA w < 36) && decide (32 ≤ opB w ∧ opB w < 36) && decide (48 ≤ opC w) &&
  matDstOk (opDst w) && (mEmit w || decide (opDst w = 47)) && (!(mI32 w) || decide (opFmt w = 5)) && repeatOk w

/-- R66: one operation word, for the rules that concern a word alone. -/
def wordOk (w : Nat) : Bool :=
  let opc := opOpc w
  decide (w < 2 ^ 62) &&
  (if opc = 0 then decide (w = 0)
   else if opc = 1 then mmacOk w
   else (vecFmts opc).contains (opFmt w) && immOk opc (opFmt w) (opImm w) && vecModOk opc (opFmt w) (opMod w) &&
     vecOperandsOk w && repeatOk w)

/-- R66: input and output ports a word names. -/
def wordInputs (w : Nat) : List Nat :=
  let srcs := if opOpc w = 0x3A then
      ((List.range 4).filter (bitOf (opImm w))).map (· + 32) ++ (if bitOf (opImm w) 4 then [46] else [])
    else [opA w, opB w, opC w].filter (fun n => decide (32 ≤ n ∧ n < 36) || decide (n = 42) || decide (n = 43) || decide (n = 46))
  srcs ++ (if opRsrc w = 2 then [42] else if opRsrc w = 3 then [43] else [])
def wordOutputs (w : Nat) : List Nat :=
  if opDst w = 40 ∨ opDst w = 41 ∨ opDst w = 44 then [opDst w] else []
def disjoint (a b : List Nat) : Bool := a.all (fun x => !(b.contains x))

/-- R66: a tile's program. -/
def progOk (ws : List Nat) : Bool :=
  decide (ws.length ≤ 64) && ws.all wordOk &&
  (let m := ws.filter (fun w => isMatOp (opOpc w))
   let v := ws.filter (fun w => isVecOp (opOpc w))
   disjoint (m.flatMap wordInputs) (v.flatMap wordInputs) && disjoint (m.flatMap wordOutputs) (v.flatMap wordOutputs))

/-- Slots whose partitions a load must keep clear of (R84): READY, ACTIVE, FROZEN or SCANNING, other than the target. -/
def State.loadedOthers (s : State) (die c : Nat) : List Nat :=
  (List.range 4).filter (fun k => decide (k ≠ c) && decide (2 ≤ s.slotState die k))

/-- R66, R78: one tile of the image. -/
def State.tileOk (s : State) (die c : Nat) (t : TileImage) : Bool :=
  let w := Win.tile die t.y t.x
  decide (t.y < 24 ∧ t.x < s.cols) && isCompute t.y t.x && progOk (t.prog.map (·.toNat)) &&
  decide (t.params.length ≤ 16) &&
  decide (t.accBase + t.accLen ≤ 16 ∧ t.miBase + t.miLen ≤ 16) &&
  (s.loadedOthers die c).all (fun k =>
    !(overlap t.accBase t.accLen (s.rd F.TILE_PART_ACC_BASE k w) (s.rd F.TILE_PART_ACC_LEN k w)) &&
    !(overlap t.miBase t.miLen (s.rd F.TILE_PART_MI_BASE k w) (s.rd F.TILE_PART_MI_LEN k w)))

/-- R112: one descriptor, for the rules that concern it alone. -/
def descOk (n : Nat) : Bool :=
  let mode := dMode n
  let unit := dWidth n
  let scatter := decide (mode = 4 ∨ mode = 5)
  -- bytes 40 to 52 bind only the modes that use them
  decide (mode ≤ 5) && decide (dNet n < 2) && !(bitOf (dByte n 1) 6) && decide (dByte n 2 < 16) && decide (dWait n ≤ 6) &&
  decide (dWord n 4 < 2 ^ 19) && decide (dBase n % unit = 0) &&
  (List.range 4).all (fun d => decide (dWord n (24 + 4 * d) % unit = 0)) &&
  (List.range 4).all (fun d => let f := dWord n (8 + 4 * d)
    if bitOf (dByte n 2) d then decide (f < 2 ^ 19 ∧ f % 4 = 0) else decide (f < 2 ^ 24)) &&
  (if mode = 3 then decide (dByte n 1 % 32 = 0) else true) &&
  (if dNet n = 1 then decide (dPort n < 2) && !scatter else decide (dPort n < 4)) &&
  (if scatter then decide (dByte n 52 % 16 ≤ 10) else true) &&
  decide (bitsOf n (8 * 53) 88 = 0)

/-- R112: the port an address generator's descriptor names, with its network and direction. -/
def descPort (n : Nat) : List (Nat × Nat × Bool) :=
  match dMode n with
  | 1 => [(dNet n, dPort n, true)]
  | 2 => [(dNet n, dPort n, false)]
  | 4 => [(0, dPort n, false), (1, b2n (bitOf (dByte n 52) 5), false)]
  | 5 => [(0, dPort n, false), (1, b2n (bitOf (dByte n 52) 5), false)]
  | _ => []

/-- R112: every port a descriptor names, the one it waits at included. -/
def namedPort (n : Nat) : List (Nat × Nat × Bool) :=
  descPort n ++ (if dMode n ≠ 0 ∧ (dWait n = 5 ∨ dWait n = 6) then [(1, dWait n - 5, false)] else [])

/-- R112, R120: the descriptors of one memory tile: no port named by two generators, no waiting on a data port, and no
nest with fixed bounds that reaches an extension. -/
def mtDescsOk (m : MtImage) (exts : List (Nat × Nat)) : Bool :=
  let ds := m.descs.map (fun e => (e.1, e.2.toNat))
  ds.all (fun e => decide (e.1 < 16) && descOk e.2) &&
  ds.all (fun a => ds.all (fun b => decide (a.1 / 4 = b.1 / 4) ||
    (namedPort a.2).all (fun p => !((namedPort b.2).contains p)))) &&
  ds.all (fun a => if dWait a.2 < 5 then true else
    ds.all (fun b => !((descPort b.2).contains (1, dWait a.2 - 5, false)))) &&
  ds.all (fun e =>
    let n := e.2
    let bounds := (List.range 4).map (fun d => dWord n (8 + 4 * d))
    if dByte n 2 % 16 ≠ 0 ∨ dMode n = 0 ∨ 3 ≤ dMode n then true else exts.all (fun x => !(nestInExt n bounds x)))

/-- R92: extensions of the image that a memory tile hosts, in bytes. -/
def imageExts (img : CtxImage) (y x : Nat) : List (Nat × Nat) :=
  (img.queues.filter (fun q => decide (0 < q.extLen) && decide (qidY q.qid < 24) &&
    decide (extHost (qidY q.qid) (qidX q.qid) q.extDir = (y, x)))).map (fun q => (4096 * q.extBase, 4096 * q.extLen))

/-- Pairs of distinct positions of a list. -/
def pairwise {α : Type} (p : α → α → Bool) : List α → Bool
  | [] => true
  | a :: l => l.all (p a) && pairwise p l

/-- R109, R112, R92: one memory tile of the image. -/
def State.mtOk (s : State) (die c : Nat) (img : CtxImage) (m : MtImage) : Bool :=
  let w := Win.tile die m.y m.x
  let exts := imageExts img m.y m.x
  decide (m.y < 24 ∧ m.x < s.cols) && !(isCompute m.y m.x) && decide (m.sramBase + m.sramLen ≤ 128) &&
  (s.loadedOthers die c).all (fun k =>
    !(overlap m.sramBase m.sramLen (s.rd F.MT_PART_SRAM_BASE k w) (s.rd F.MT_PART_SRAM_LEN k w))) &&
  mtDescsOk m exts && pairwise (fun a b => !(overlap a.1 a.2 b.1 b.2)) exts &&
  exts.all (fun e => decide (4096 * m.sramBase ≤ e.1 ∧ e.1 + e.2 ≤ 4096 * (m.sramBase + m.sramLen)))

/-- R122: a queue identifier that exists on this grade: a site's input of one of the three networks, or a boundary
unit's input 0. -/
def State.qidExists (s : State) (q : Nat) : Bool :=
  let y := qidY q; let x := qidX q; let net := qidNet q; let i := qidInput q
  decide (q < 65536) && decide (net < 3) &&
  (if y < 24 then
     decide (x < s.cols) &&
     (decide (i < 4) ||
      (match net with
       | 0 => decide (i < 6) || (!(isCompute y x) && decide (i < 8))
       | 1 => decide (i = 4) || (!(isCompute y x) && decide (i = 5))
       | _ => decide (i = 4)))
   else decide (y ≤ 29) && decide (i = 0))

/-- R84, R92: one queue of the image. -/
def State.queueOk (s : State) (die c : Nat) (img : CtxImage) (q : QImage) : Bool :=
  let net := qidNet q.qid
  let host := extHost (qidY q.qid) (qidX q.qid) q.extDir
  s.qidExists q.qid && decide (q.base + q.len ≤ netEntries net) &&
  (s.loadedOthers die c).all (fun k =>
    let o := s.queue die q.qid k
    !(overlap q.base q.len o.base o.len)) &&
  decide (q.extLen ≤ 16) && decide (q.extDir < 4) &&
  (if q.extLen = 0 then true
   else decide (qidY q.qid < 24) && img.mts.any (fun m => decide ((m.y, m.x) = host))) &&
  -- R123
  (if q.toPort then decide (q.outMask = 0) else true) && decide (q.outMask < 16) &&
  (if 24 ≤ qidY q.qid then true else
    (List.range 4).all (fun d => !(bitOf q.outMask d) ||
      (neighbour s.cols net (qidY q.qid) (qidX q.qid) d).isSome ||
      (boundaryAt s.cols net (qidY q.qid) (qidX q.qid) d).isSome))

/-- R123: two queues of one site and network: no shared output except on the control network, no shared port. -/
def routesOk (a b : QImage) : Bool :=
  if qidY a.qid ≠ qidY b.qid ∨ qidX a.qid ≠ qidX b.qid ∨ qidNet a.qid ≠ qidNet b.qid ∨ 24 ≤ qidY a.qid then true
  else (decide (qidNet a.qid = 2) || decide (a.outMask &&& b.outMask = 0)) &&
    !(a.toPort && b.toPort && decide (a.lport = b.lport))

/-- Every check of a context load: R66, R84, R92, R109, R112, R120, R123, and that the image is of this grade. -/
def State.imageOk (s : State) (die c : Nat) (img : CtxImage) : Bool :=
  decide (img.grade = s.fuses.grade) &&
  img.tiles.all (s.tileOk die c) && img.mts.all (s.mtOk die c img) && img.queues.all (s.queueOk die c img) &&
  pairwise routesOk img.queues && pairwise (fun (a b : QImage) => decide (a.qid ≠ b.qid)) img.queues &&
  pairwise (fun (a b : TileImage) => decide ((a.y, a.x) ≠ (b.y, b.x))) img.tiles &&
  pairwise (fun (a b : MtImage) => decide ((a.y, a.x) ≠ (b.y, b.x))) img.mts &&
  decide (img.lanes.length ≤ 64)

end Sys2Proof.Machine
end

