-- ==== Sys2Proof/Machine/Context.lean ====
section
/-!
DEFINITION. Context slots (R86 to R107): tokens of a slot, applying a context image, reset-only loads, selects and the
switch cycle, power-down of a die and the watchdog.
-/
namespace Sys2Proof.Machine

/-- Queues of one slot of one die. -/
def ofSlot (die c k : Nat) : Bool := decide (k / 4 / 65536 = die) && decide (k % 4 = c)
/-- Tile contexts of one slot of one die, by tile key. -/
def tileOfSlot (die c k : Nat) : Bool := decide (k / 4 / 1024 = die) && decide (k % 4 = c)
/-- Generators of one slot of one die, by generator key. -/
def agOfSlot (die c k : Nat) : Bool := tileOfSlot die c (k / 4)

/-- R86: tokens a slot holds: partitions, extensions, MI entries, those taken into a combine, and those that have left the
array and wait at its boundary. -/
def State.slotTokens (s : State) (die c : Nat) : Nat :=
  s.arr.queues.foldl (fun n e => if ofSlot die c e.1 then n + e.2.toks.length + e.2.ext.length else n) 0 +
  s.arr.tiles.foldl (fun n e => if tileOfSlot die c e.1 then n + e.2.mi.length + e.2.comb.length else n) 0 +
  s.arr.drain.foldl (fun n e => if ofSlot die c e.1 then n + e.2.length else n) 0

/-- R86: an issued but incomplete operation of a tile: a matrix word between rows, a vector word between iterations, a summary
under way. -/
def midWord (t : TileCtx) : Bool :=
  (t.mLive && (decide (0 < t.mRow) || decide (0 < t.mChunk))) || (t.vLive && decide (0 < t.vIter)) || t.vsum.isSome

/-- R86: whether a slot holds tokens, incomplete operations included. -/
def State.slotHolds (s : State) (die c : Nat) : Bool :=
  decide (0 < s.slotTokens die c) || s.arr.tiles.any (fun e => tileOfSlot die c e.1 && midWord e.2) ||
  s.arr.ags.any (fun e => agOfSlot die c e.1 && (e.2.running || e.2.finished)) || (s.inv die c).isSome

/-- R85, R87: a slot's tokens are dropped and its extensions freed. What the boundary agents hold for the slot stays (R82). -/
def State.dropTokens (s : State) (die c : Nat) : State :=
  let arr := { s.arr with
    queues := SMap.mapVals s.arr.queues (fun k q =>
      if ofSlot die c k then
        { q with toks := [], ext := [], freed := 0, setup := false, armed := false, waiting := false } else q)
    tiles := SMap.mapVals s.arr.tiles (fun k t => if tileOfSlot die c k then { t with mi := [], comb := [] } else t)
    drain := SMap.keep s.arr.drain (fun k _ => !(ofSlot die c k))
    ctlLock := SMap.keep s.arr.ctlLock (fun k _ => !(tileOfSlot die c (k / 4))) }
  { s with arr := arr }

/-- Offset of a register in the tile windows of a die, if it lies in one (R29). -/
def tileOffset (die a : Nat) : Option Nat :=
  let b := 0x1000000 * (die + 1) + 0x800000
  if b ≤ a ∧ a < b + 0x800000 then some ((a - b) % 0x2000) else none

/-- Whether an offset of a tile window belongs to slot `c`'s state that a reset-only load clears: pending flags and event
counts, busy counters, scatter counts, numeric flags, active and staged parameter sets (R88, R133). -/
def resetOffset (c o : Nat) : Bool :=
  decide (o / 4 = 8 + c) || decide (o / 4 = 16 + c) || decide (o / 4 = 20 + c) || decide (o / 4 = 64 + c) ||
  decide (o / 64 = 8 + c) || decide (o / 64 = 12 + c)

/-- Whether an offset of a tile window belongs to slot `c` at all: also partitions, routes, programs and descriptors. -/
def loadOffset (c o : Nat) : Bool :=
  resetOffset c o || decide (o / 4 = 4 + c) || decide (o / 128 = 8 + c) || decide (o / 512 = 4 + c) ||
  decide (o / 1024 = 4 + c)

/-- Clear the tile registers of a die at the offsets `p` selects. -/
def State.clearTileRegs (s : State) (die : Nat) (p : Nat → Bool) : State :=
  { s with regs := SMap.keep s.regs (fun a _ =>
      match tileOffset die a with
      | some o => !(p o)
      | none => true) }

/-- Clear the accumulator rows that a slot's partitions hold (R62, R88). -/
def State.clearAcc (s : State) (die c : Nat) : State :=
  { s with arr := { s.arr with acc := SMap.keep s.arr.acc (fun k _ =>
      let site := k / 256
      let w := Win.tile (site / 1024) (site / 32 % 32) (site % 32)
      !(decide (site / 1024 = die) && decide (16 * s.rd F.TILE_PART_ACC_BASE c w ≤ k % 256) &&
        decide (k % 256 < 16 * (s.rd F.TILE_PART_ACC_BASE c w + s.rd F.TILE_PART_ACC_LEN c w)))) } }

/-- A tile's loaded parameter set, in both copies (R70, R87). -/
def State.loadParams (s : State) (die c : Nat) (t : TileImage) : State :=
  let s1 := (List.range 16).foldl (fun s k =>
    s.wr F.TILE_PARAM_VALUE (t.params.getD k 0).toNat (16 * c + k) (.tile die t.y t.x)) s
  let s2 := s1.setActiveParams die t.y t.x c ((List.range 16).map (fun k => t.params.getD k 0))
  s2.setTile die t.y t.x c { TileCtx.empty with vparams := (List.range 16).map (fun k => t.params.getD k 0) }

/-- R388: a program word as a load in the slot's mode stores it. -/
def linenWord (linen : Bool) (w : Nat) : Nat := if opOpc w = 0x3A then putBits w 38 1 (b2n linen) else w
/-- R388: a descriptor as a load in the slot's mode stores it. -/
def linenDesc (linen : Bool) (n : Nat) : Nat := if linen ∧ dMode n = 4 then putBits n 0 8 5 else n

/-- R388: the planes of the converted descriptors of a memory tile fit its region. The extent of a plane is taken as one
PLANE_STRIDE (notes/assumptions/17). -/
def planesFit (k : Nat) (m : MtImage) : Bool :=
  m.descs.all (fun d =>
    let n := d.2.toNat
    if dMode n ≠ 4 then true
    else
      let ps := dWord n 48
      decide (0 < ps ∧ ps % 128 = 0) && decide (4096 * m.sramBase ≤ dBase n) &&
      decide (dBase n + k * ps ≤ 4096 * (m.sramBase + m.sramLen)))

/-- R387: the mode in which a package's contexts load. -/
def State.pkgLinen (s : State) (pkg : Nat) : Bool := SMap.getD s.arr.linenPkgs pkg false

/-- R66, R84, R92, R112, R123, R170, R388: whether a slot accepts an image. -/
def State.loadOk (s : State) (die c : Nat) (img : CtxImage) : Bool :=
  s.imageOk die c img && tablesOk img.tables && (!(s.pkgLinen img.pkg) || img.mts.all (planesFit (maxK img.tables)))

/-- Write a tile's image. -/
def State.applyTile (s : State) (die c : Nat) (linen : Bool) (t : TileImage) : State :=
  let w := Win.tile die t.y t.x
  let s1 := (List.range t.prog.length).foldl (fun s i =>
    s.wr F.TILE_PROG_WORD (linenWord linen (t.prog.getD i 0).toNat) (64 * c + i) w) s
  let s2 := (((s1.wr F.TILE_PART_ACC_BASE t.accBase c w).wr F.TILE_PART_ACC_LEN t.accLen c w).wr
    F.TILE_PART_MI_BASE t.miBase c w).wr F.TILE_PART_MI_LEN t.miLen c w
  s2.loadParams die c t

/-- Write a memory tile's image. -/
def State.applyMt (s : State) (die c : Nat) (linen : Bool) (m : MtImage) : State :=
  let w := Win.tile die m.y m.x
  let s1 := m.descs.foldl (fun s d => s.wr F.MT_DESC_DESC (linenDesc linen d.2.toNat) (16 * c + d.1) w) s
  (s1.wr F.MT_PART_SRAM_BASE m.sramBase c w).wr F.MT_PART_SRAM_LEN m.sramLen c w

/-- Write a queue's image: its partition, extension and route. -/
def State.applyQueue (s : State) (die c : Nat) (q : QImage) : State :=
  let v : Queue := { Queue.empty with base := q.base, len := q.len, extDir := q.extDir, extLen := q.extLen, extBase := q.extBase }
  let s1 := s.setQueue die q.qid c v
  if 24 ≤ qidY q.qid then s1
  else
    let i := routeIndex c (qidNet q.qid) (qidInput q.qid)
    let w := Win.tile die (qidY q.qid) (qidX q.qid)
    (((s1.wr F.SW_ROUTE_VALID 1 i w).wr F.SW_ROUTE_OUT_MASK q.outMask i w).wrFlag F.SW_ROUTE_LOCAL q.toPort i w).wr
      F.SW_ROUTE_LPORT q.lport i w

/-- R95, R97: the die counters of a slot that a load clears. -/
def State.clearSlotCounts (s : State) (die c : Nat) : State :=
  ((s.wr F.WDOG_COUNT_COUNT 0 c (.die die)).wr F.SPILL_TOKENS_COUNT 0 c (.die die)).wr F.SPILL_CYCLES_COUNT 0 c (.die die)

/-- R182, R399: SLOT_MODE of a slot. -/
def State.setSlotMode (s : State) (die c : Nat) (linen : Bool) : State :=
  s.wr { F.SLOT_MODE_LINEN with lo := dieCtx die c, w := 1 } (b2n linen)

/-- Everything of a slot's tile state but its loaded contents: sequencers, rows, generators (R88). -/
def State.clearUnits (s : State) (die c : Nat) : State :=
  let s1 := s.clearAcc die c
  { s1 with arr := { s1.arr with
      tiles := SMap.keep s1.arr.tiles (fun k _ => !(tileOfSlot die c k))
      ags := SMap.keep s1.arr.ags (fun k _ => !(agOfSlot die c k)) } }

/-- R87: a full load of an image takes effect, and the slot is READY. -/
def State.applyImage (s : State) (die c : Nat) (img : CtxImage) : State :=
  let linen := s.pkgLinen img.pkg
  let s1 := (((s.dropTokens die c).clearUnits die c).clearTileRegs die (loadOffset c)).dropInv die c
  let s2 := { s1 with arr := { s1.arr with
      queues := SMap.keep s1.arr.queues (fun k _ => !(ofSlot die c k))
      images := SMap.insert s1.arr.images (dieCtx die c) img } }
  let s3 := img.tiles.foldl (fun s t => s.applyTile die c linen t) s2
  let s4 := img.mts.foldl (fun s m => s.applyMt die c linen m) s3
  let s5 := img.queues.foldl (fun s q => s.applyQueue die c q) s4
  let s6 := (s5.wr F.EDGE_SRC_N_SRC (img.edgeN % 2 ^ s.cols) c (.die die)).wr F.EDGE_SRC_S_SRC (img.edgeS % 2 ^ s.cols) c (.die die)
  let s7 := ((s6.loadTables die c img.tables).clearSlotCounts die c).setSlotMode die c linen
  (s7.wr F.CTX_SLOT_CTX_ID (img.pkg % 65536 + 65536 * (img.idx % 256)) c (.die die)).setSlotState die c .ready

/-- R88, R188, R189: a reset-only load. -/
def State.resetOnly (s : State) (die c : Nat) : State :=
  let s1 := (((s.dropTokens die c).clearUnits die c).clearTileRegs die (resetOffset c)).dropInv die c
  let s2 := match SMap.find? s1.arr.images (dieCtx die c) with
    | some img => img.tiles.foldl (fun (s : State) t => s.loadParams die c t) s1
    | none => s1
  ((s2.clearSlotCounts die c).wr { F.ROUTER_NUM_FLAGS_NV with w := 7 } 0 c (.die die)).setSlotState die c .ready

/-- R85, R91, R405: a slot becomes EMPTY and its tokens are gone. -/
def State.emptySlot (s : State) (die c : Nat) : State :=
  let s1 := (((s.dropTokens die c).clearUnits die c).dropInv die c).setSlotState die c .empty
  let s2 := { s1 with arr := { s1.arr with
      images := SMap.erase s1.arr.images (dieCtx die c)
      loads := SMap.erase s1.arr.loads (dieCtx die c) } }
  if s.active die = some c then s2.wr F.DIE_ACTIVE_NONE 1 0 (.die die) else s2

def State.emptyDie (s : State) (die : Nat) : State := (List.range 4).foldl (fun s c => s.emptySlot die c) s

/-- R87, R88, R144: whether a slot accepts a load, by its state. -/
def State.loadState (s : State) (die c : Nat) (discard resetOnly : Bool) : Bool :=
  let st := s.slotState die c
  if resetOnly then discard && decide (st = 2 ∨ st = 4)
  else decide (st = 0) || (decide (st = 2) && (discard || !s.slotHolds die c)) || (decide (st = 4) && discard)

/-- R87: a full load begins: the slot is LOADING; its old tokens are gone. -/
def State.beginLoad (s : State) (die c : Nat) (img : CtxImage) (st entry : Nat) : State :=
  let n := s.slotTokens die c
  let s1 := ((s.dropTokens die c).dropInv die c).setSlotState die c .loading
  { s1 with arr := { s1.arr with loads := SMap.insert s1.arr.loads (dieCtx die c) (img, st, entry, n) } }

def State.selectsOf (s : State) (die : Nat) : List PendingSelect := SMap.getD s.arr.selects die []
def State.setSelects (s : State) (die : Nat) (l : List PendingSelect) : State :=
  { s with arr := { s.arr with selects := SMap.setD s.arr.selects die l [] } }

/-- R89, R96: the switch cycle: the old slot becomes READY, and the target, unless it is EMPTY, ACTIVE. -/
def State.switchTo (s : State) (die c : Nat) : State :=
  let s1 := match s.active die with
    | some a => s.setSlotState die a .ready
    | none => s
  let s2 := s1.bump F.DIE_ACTIVE_SELECTS 1 0 (.die die)
  if s.slotState die c = 0 then s2.wr F.DIE_ACTIVE_NONE 1 0 (.die die)
  else ((s2.setSlotState die c .active).wr F.DIE_ACTIVE_SLOT c 0 (.die die)).wr F.DIE_ACTIVE_NONE 0 0 (.die die)

/-- R91: whether a die may enter A2 or A3 on request: no slot holds tokens. Tokens that a boundary agent holds for a slot (R82)
would be lost as well, so they count too, DEDUCED: notes/assumptions/94. -/
def State.dieQuiet (s : State) (die : Nat) : Bool :=
  (List.range 4).all (fun c => !s.slotHolds die c) &&
  !s.arr.feed.any (fun e => decide (e.1 / 4 / 65536 = die) && !e.2.isEmpty)

/-- R88, R101: a slot is stopped and, if it is READY or FROZEN then, reset by a reset-only load. -/
def State.haltSlot (s : State) (die c : Nat) : State :=
  let s1 := if s.active die = some c then s.stopSlot die c else s
  if s1.slotState die c = 2 ∨ s1.slotState die c = 4 then s1.resetOnly die c else s1
/-- R85, R91: before a die's power goes, every slot that holds tokens is reset. -/
def State.haltDie (s : State) (die : Nat) : State :=
  (List.range 4).foldl (fun s c => if s.slotHolds die c then s.haltSlot die c else s) s

/-- R97: an outside transfer into the slot is outstanding: a DMA, prefetch or weight fetch of a stream, a read an agent
holds, or the router's phases after selection (R168). -/
def State.outsideWork (s : State) (die c : Nat) : Bool :=
  s.strm.streams.any (fun e => decide (e.1 / 64 = die) && e.2.flying.any (fun f =>
    decide (f.slot = c) && (decide (f.cls = .dma) || decide (f.cls = .prefetch)))) ||
  (match SMap.find? s.strm.dispatches (dieCtx die c) with
   | some d => d.groups.any (fun g => g.lane.isSome)
   | none => false) ||
  s.arr.heldReads.any (fun r => match r.asker with
    | .array d _ k => decide (d = die ∧ k = c)
    | _ => false) ||
  (s.routedOf die).contains c

/-- WATCHDOG_FREEZE (R97 to R99): the watchdog count of the active slot, which rises with time (Machine/Clock.lean), has reached
the limit: the context is frozen. Otherwise nothing happens. -/
def execWatchdogFreeze (die : Nat) (s : State) : Res :=
  onDie die (.next (match s.active die with
    | none => s
    | some c =>
      if s.rd F.WDOG_COUNT_COUNT c (.die die) < 2 ^ s.rd F.WDOG_CFG_LIMIT_LOG2 0 (.die die) then s else s.freeze die c 1))

end Sys2Proof.Machine
end

