-- ==== Sys2Proof/Machine/Scan.lean ====
section
/-!
DEFINITION. Scan images (R103 to R107, R187): the header and records of a slot's image as bytes in the near tier, the checks of
a scan-in, and the return of an image's state into a slot. The manual names what each record holds; where it gives the record
no layout, the layout is notes/assumptions/18.
-/
namespace Sys2Proof.Machine
open Sys2Proof.Machine.Num

/-! ## Records (R105) -/

/-- R105: a record: its header, its payload, and zeros up to a multiple of 16 bytes. -/
def scanRec (ty id : Nat) (p : List Byte) : List Byte :=
  toBytes ty 2 ++ toBytes id 2 ++ toBytes p.length 4 ++ toBytes 0 8 ++ p ++ toBytes 0 ((16 - p.length % 16) % 16)
/-- A payload of fixed length: bytes that hold nothing are zero. -/
def fixLen (n : Nat) (p : List Byte) : List Byte := p ++ toBytes 0 (n - p.length)
/-- R105: a record that is absent when empty. -/
def scanRec? (ty id : Nat) (p : List Byte) : List Byte := if p.isEmpty then [] else scanRec ty id p
/-- R105: the identifier of a site's record. -/
def siteId (y x : Nat) : Nat := y + 32 * x
/-- R105: bytes of a token by network, and tokens as bytes. -/
def tokBytes (net : Nat) : Nat := if net = 0 then 128 else if net = 1 then 4 else 1
def packToks (w : Nat) (ts : List Tok) : List Byte := ts.flatMap (fun t => toBytes t.toNat w)
/-- The tokens of a payload of `w` bytes each. -/
def unpackToks (w : Nat) (p : List Byte) : List Tok :=
  (List.range (p.length / w)).map (fun i => BitVec.ofNat 1024 (at' p (w * i) w))
/-- Truth values as bits, the first lowest. -/
def packBits (bs : List Bool) : Nat := bs.foldr (fun b n => b2n b + 2 * n) 0

/-- The switch input queues of a site (R122), in ascending identifier. -/
def siteQueues (y x : Nat) : List Nat := (List.range 24).map (fun k => qidOf y x (k % 3) (k / 3))
/-- The control outputs of a site in a slot (R124): input and tokens left of a message half forwarded, and input last served. -/
def State.ctlBytes (s : State) (die y x c : Nat) : List Byte :=
  (List.range 4).flatMap (fun d =>
    let k := outKey die (qidOf y x 2 0) c d
    toBytes (SMap.getD s.arr.ctlLock k 0) 1 ++ toBytes (SMap.getD s.arr.ctlLast k 0) 1)
/-- R104: which queues of a site have a spill in set-up. -/
def State.setupBits (s : State) (die y x c : Nat) : Nat := packBits ((siteQueues y x).map (fun q => (s.queue die q c).setup))

/-! ## Compute tiles -/

/-- CT_STATE (R105). -/
def State.ctState (s : State) (die y x c : Nat) : List Byte :=
  let t := s.tile die y x c
  let w := Win.tile die y x
  let all : Fld := { F.TILE_NUM_FLAGS_NV with w := 7 }
  toBytes t.mWord 1 ++ toBytes t.vWord 1 ++
  toBytes (packBits [t.mLive, t.mEnd, t.vLive, t.vEnd, t.mAdopted, t.vAdopted, s.flag F.TILE_PARAM_CTRL_PENDING c w]) 1 ++
  toBytes (s.rd all c w) 1 ++
  [t.mRows, t.mChunks, t.mChunk, t.mRow, t.vCount, t.vIter].flatMap (fun v => toBytes v 4) ++
  toBytes (b2n t.vsum.isSome) 1 ++ toBytes t.held.length 1 ++ toBytes t.ahead.length 1 ++ toBytes t.comb.length 1 ++
  toBytes (t.vsum.getD 0) 4 ++ fixLen 8 (t.comb.map (fun e => BitVec.ofNat 8 e.1)) ++ s.ctlBytes die y x c ++
  toBytes (s.setupBits die y x c) 4 ++ toBytes (s.rd F.TILE_MBUSY_COUNT c w) 4 ++ toBytes (s.rd F.TILE_VBUSY_COUNT c w) 4 ++
  (List.range 16).flatMap (fun k => toBytes (s.rd F.TILE_PARAM_VALUE (16 * c + k) w) 4) ++
  (List.range 16).flatMap (fun k => toBytes (s.pm die y x c k false) 4) ++
  (List.range 16).flatMap (fun k => toBytes (s.pm die y x c k true) 4)

/-- One cell of a row: the sum, or in its place a value below every sum that names the special ones (R50), or the FP32 running
sum; bit 95 is one bit of the row's extent. -/
def cellBytes (fp : Bool) (extentBit : Bool) (c : AccCell) : List Byte :=
  let v := if fp then c.run
    else if c.nan || c.pinf || c.ninf then 2 ^ 94 + packBits [c.nan, c.pinf, c.ninf]
    else c.sum.toNat
  toBytes (v % 2 ^ 95 + 2 ^ 95 * b2n extentBit) 12
/-- ACC (R105): the tags, then the rows. -/
def State.accBytes (s : State) (die y x c : Nat) : List Byte :=
  let w := Win.tile die y x
  let base := 16 * s.rd F.TILE_PART_ACC_BASE c w
  let rows := (List.range (16 * s.rd F.TILE_PART_ACC_LEN c w)).map (fun r => s.accRowAt die y x (base + r))
  rows.flatMap (fun r => toBytes (b2n r.fp) 1) ++
  rows.flatMap (fun r => (List.range 32).flatMap (fun n =>
    cellBytes r.fp (bitOf (r.extent / 16) n) (r.cells.getD n AccCell.zero)))

/-- Tokens of a port that a combine has taken (R75), which the image keeps at the head of the port. -/
def takenAt (t : TileCtx) (port : Nat) : List Tok := (t.comb.filter (fun e => decide (e.1 = port))).map (·.2)

/-- The records of a compute tile before its queues, in ascending type. -/
def State.ctRecords (s : State) (die y x c : Nat) : List Byte :=
  let t := s.tile die y x c
  let id := siteId y x
  scanRec 0x10 id (s.ctState die y x c) ++
  scanRec 0x11 id ((List.range 32).flatMap (fun k => toBytes (SMap.getD t.vregs k 0).toNat 128)) ++
  scanRec 0x12 id (fixLen 2048 (packToks 128 t.held) ++ fixLen 2048 (packToks 128 t.ahead)) ++
  scanRec 0x13 id (s.accBytes die y x c) ++
  scanRec? 0x14 id (packToks 128 (takenAt t 46 ++ t.mi))

/-! ## Memory tiles -/

/-- MT_STATE (R105). -/
def State.mtState (s : State) (die y x c : Nat) : List Byte :=
  let w := Win.tile die y x
  let all : Fld := { F.MT_NUM_FLAGS_NV with w := 7 }
  (List.range 4).flatMap (fun a =>
    let g := s.ag die y x c a
    toBytes g.desc 1 ++ toBytes (packBits [g.running, g.finished]) 1 ++
    (List.range 4).flatMap (fun d => toBytes (g.bounds.getD d 0) 3) ++ (List.range 4).flatMap (fun d => toBytes (g.index.getD d 0) 3)) ++
  (List.range 4).flatMap (fun a => toBytes (s.rd (evFld a) c w) 1) ++ toBytes (s.rd F.MT_SA_COUNT_ROWS c w) 4 ++
  toBytes (s.rd all c w) 1 ++ toBytes 0 3 ++ s.ctlBytes die y x c ++ toBytes (s.setupBits die y x c) 4
/-- MT_STATE, and MT_SRAM where the scan carries it. -/
def State.mtRecords (s : State) (die y x c : Nat) (sram : Bool) : List Byte :=
  let r := s.region die y x c
  let id := siteId y x
  let bytes := (List.range r.2).map (fun k => s.sramByte die y x (r.1 + k))
  scanRec 0x30 id (fixLen 256 (s.mtState die y x c)) ++
  (if sram then scanRec? 0x31 id bytes else [])

/-! ## Queues, the router and the die -/

/-- R122, R75: the tokens of a queue whose port's combine has taken some. -/
def State.takenQueue (s : State) (die qid c : Nat) : List Tok :=
  let y := qidY qid; let x := qidX qid
  if 24 ≤ y ∨ ¬ isCompute y x ∨ qidNet qid ≠ 0 then []
  else ((List.range 4).filter (fun p => s.portQueue die y x c 0 p == some qid)).flatMap (fun p => takenAt (s.tile die y x c) (32 + p))

/-- R173, R187: the score tokens of the row that the router has begun, which the image keeps at the head of their queue. -/
def State.takenScores (s : State) (die qid c : Nat) : List Tok :=
  if qid ≠ scoreQid then []
  else match s.inv die c with
    | none => []
    | some v => (List.range (v.logits.length / 32)).map (fun k => packLanes 32 ((v.logits.drop (32 * k)).take 32))

/-- QUEUE of one queue. -/
def State.queueRecord (s : State) (die c qid : Nat) : List Byte :=
  scanRec? 0x20 qid (packToks (tokBytes (qidNet qid))
    (s.takenQueue die qid c ++ s.takenScores die qid c ++ (s.queue die qid c).toks))
/-- EXT of one queue. A boundary queue has no extension: tokens that have left the array there and wait stand in its EXT. -/
def State.extRecord (s : State) (die c qid : Nat) : List Byte :=
  scanRec? 0x21 qid (packToks (tokBytes (qidNet qid))
    ((s.queue die qid c).ext ++ SMap.getD s.arr.drain (queueKey die qid c) []))

/-- ROUTER (R187): the phase state, the rows and the choices. -/
def routerBytes (v : Option Invocation) : List Byte :=
  match v with
  | none => fixLen 256 []
  | some v =>
    fixLen 256 (toBytes (1 + packBits [v.selected, v.ordered] * 2) 4 ++ toBytes v.live 4 ++ toBytes v.streamed 4 ++ toBytes v.table 4 ++
      toBytes v.consumed 4 ++ toBytes (v.logits.length / 32) 4 ++ toBytes (b2n v.ident.isSome) 4 ++ toBytes (v.ident.getD (0, 0)).1 4 ++
      toBytes (v.ident.getD (0, 0)).2 4 ++ toBytes v.rows.length 4 ++ toBytes v.choices.length 4) ++
    v.rows.flatMap (fun r => toBytes r.slot 4 ++ toBytes r.pos 4 ++ toBytes r.nans 4 ++ toBytes 0 4) ++
    v.choices.flatMap (fun x => toBytes (x.row + 2 ^ 16 * x.expert + 2 ^ 27 * x.rank + 2 ^ 31 * b2n x.accepted + 2 ^ 32 * x.weight) 8)

/-- DIE_STATE (R105). -/
def State.dieState (s : State) (die c : Nat) : List Byte :=
  fixLen 256 (toBytes (s.rd F.WDOG_COUNT_COUNT c (.die die)) 4 ++ toBytes (s.rd F.SPILL_TOKENS_COUNT c (.die die)) 4 ++
    toBytes (s.rd F.SPILL_CYCLES_COUNT c (.die die)) 4)

/-- R105: the boundary queues of a slot that hold something and the router's unit, by ascending identifier. -/
def State.edgeQids (s : State) (die c : Nat) : List Nat :=
  let ks := (s.arr.queues.map (·.1) ++ s.arr.drain.map (·.1)).filter (fun k => ofSlot die c k && decide (24 ≤ qidY (k / 4 % 65536)))
  (List.range 65536).filter (fun q => decide (q = scoreQid) || ks.contains (queueKey die q c))

/-- R105: the records of a site, in ascending type. -/
def State.siteRecords (s : State) (die c y x : Nat) (sram : Bool) : List Byte :=
  (if isCompute y x then s.ctRecords die y x c else []) ++ (siteQueues y x).flatMap (s.queueRecord die c) ++
  (siteQueues y x).flatMap (s.extRecord die c) ++ (if isCompute y x then [] else s.mtRecords die y x c sram)
/-- R105, R187: the records of a boundary queue, and the router's. -/
def State.edgeRecords (s : State) (die c qid : Nat) : List Byte :=
  s.queueRecord die c qid ++ s.extRecord die c qid ++
  (if qid = scoreQid then scanRec 0x40 qid (routerBytes (s.inv die c)) else [])

/-- R105: every record of a slot's image, in order: the die, the sites in row-major order, the boundary units, END. -/
def State.scanRecords (s : State) (die c : Nat) (sram : Bool) : List Byte :=
  scanRec 0x01 0 (s.dieState die c) ++
  (List.range 24).flatMap (fun y => (List.range s.cols).flatMap (fun x => s.siteRecords die c y x sram)) ++
  (s.edgeQids die c).flatMap (s.edgeRecords die c) ++ scanRec 0xFF 0 []

/-! ## The image (R104) -/

/-- R105: the records that a byte string holds: type, identifier and payload. -/
def parseRecs : Nat → List Byte → List (Nat × Nat × List Byte)
  | 0, _ => []
  | f + 1, bs =>
    if bs.length < 16 then []
    else
      let n := at' bs 4 4
      (at' bs 0 2, at' bs 2 2, (bs.drop 16).take n) :: parseRecs f (bs.drop (16 + (n + 15) / 16 * 16))

/-- R104: the header of an image with this body. -/
def State.scanHeader (s : State) (die c : Nat) (sram : Bool) (body : List Byte) : List Byte :=
  toBytes 0x4E435344 4 ++ toBytes 1 2 ++ toBytes (Grade.byte s.fuses.grade) 1 ++ toBytes (b2n sram) 1 ++
  toBytes (256 * s.rd F.CTX_SLOT_CTX_ID c (.die die)) 4 ++ toBytes (parseRecs body.length body).length 4 ++
  toBytes (64 + body.length) 8 ++ toBytes (s.rd F.FW_VERSION_VALUE) 4 ++ toBytes (crc32c body).toNat 4 ++ toBytes 0 32

/-- R104: a slot's scan image. -/
def State.scanImage (s : State) (die c : Nat) (sram : Bool) : List Byte :=
  let body := s.scanRecords die c sram
  s.scanHeader die c sram body ++ body

/-- R107: the checks of a scan-in that need no more than the image. -/
def State.imageValid (s : State) (img : List Byte) : Bool :=
  let n := at' img 16 8
  decide (at' img 0 4 = 0x4E435344 ∧ at' img 4 2 = 1 ∧ at' img 6 1 = Grade.byte s.fuses.grade ∧
    at' img 24 4 = s.rd F.FW_VERSION_VALUE ∧ 64 ≤ n ∧ n ≤ img.length ∧ at' img 28 4 = (crc32c ((img.take n).drop 64)).toNat)

/-- R107: the checks of a scan-in, with the discard flag. -/
def State.scanInOk (s : State) (die c : Nat) (discard : Bool) (img : List Byte) : Bool :=
  s.imageValid img && decide (s.slotState die c = 2) &&
  decide (at' img 8 4 = 256 * s.rd F.CTX_SLOT_CTX_ID c (.die die)) && (discard || !s.slotHolds die c)

/-! ## Scan-in -/

def State.putCtl (s : State) (die y x c : Nat) (p : List Byte) : State :=
  (List.range 4).foldl (fun (s : State) d =>
    let k := outKey die (qidOf y x 2 0) c d
    { s with arr := { s.arr with
        ctlLock := SMap.setD s.arr.ctlLock k (at' p (2 * d) 1) 0
        ctlLast := SMap.setD s.arr.ctlLast k (at' p (2 * d + 1) 1) 0 } }) s
/-- The set-up marks of a site's queues; a full partition with an extension and no set-up has had its set-up (R93). -/
def State.putSetup (s : State) (die y x c bits : Nat) : State :=
  (List.range 24).foldl (fun (s : State) k =>
    let qid := qidOf y x (k % 3) (k / 3)
    let q := s.queue die qid c
    if q.extLen = 0 then s else s.setQueue die qid c { q with setup := bitOf bits k, armed := q.armed && !bitOf bits k }) s

/-- CT_STATE enters a slot. The weight buffers and MI, which the following records bring, take their lengths from it. -/
def State.putCtState (s : State) (die c y x : Nat) (p : List Byte) : State :=
  let w := Win.tile die y x
  let all : Fld := { F.TILE_NUM_FLAGS_NV with w := 7 }
  let f := at' p 2 1
  let t : TileCtx := { s.tile die y x c with
    mWord := at' p 0 1, vWord := at' p 1 1, mLive := bitOf f 0, mEnd := bitOf f 1, vLive := bitOf f 2, vEnd := bitOf f 3
    mAdopted := bitOf f 4, vAdopted := bitOf f 5, mRows := at' p 4 4, mChunks := at' p 8 4, mChunk := at' p 12 4, mRow := at' p 16 4
    vCount := at' p 20 4, vIter := at' p 24 4, vsum := if at' p 28 1 = 1 then some (at' p 32 4) else none
    held := List.replicate (at' p 29 1) 0, ahead := List.replicate (at' p 30 1) 0
    comb := (List.range (at' p 31 1)).map (fun k => (at' p (36 + k) 1, 0))
    vparams := (List.range 16).map (fun k => BitVec.ofNat 32 (at' p (192 + 4 * k) 4)) }
  let s1 := (((s.setTile die y x c t).putCtl die y x c (p.drop 44)).putSetup die y x c (at' p 52 4)).wr
    F.TILE_PARAM_CTRL_PENDING (b2n (bitOf f 6)) c w
  let s2 := ((s1.wr all (at' p 3 1) c w).wr F.TILE_MBUSY_COUNT (at' p 56 4) c w).wr F.TILE_VBUSY_COUNT (at' p 60 4) c w
  let s3 := (List.range 16).foldl (fun s k => s.wr F.TILE_PARAM_VALUE (at' p (64 + 4 * k) 4) (16 * c + k) w) s2
  s3.setActiveParams die y x c ((List.range 16).map (fun k => BitVec.ofNat 32 (at' p (128 + 4 * k) 4)))

def State.putVregs (s : State) (die c y x : Nat) (p : List Byte) : State :=
  let ts := unpackToks 128 p
  let t := s.tile die y x c
  s.setTile die y x c { t with vregs := (List.range 32).foldl (fun m k => SMap.setD m k (ts.getD k 0) 0) t.vregs }
def State.putWbuf (s : State) (die c y x : Nat) (p : List Byte) : State :=
  let ts := unpackToks 128 p
  let t := s.tile die y x c
  s.setTile die y x c { t with held := ts.take t.held.length, ahead := (ts.drop 16).take t.ahead.length }

/-- A cell of a row from its bytes. -/
def cellOf (fp : Bool) (p : List Byte) : AccCell :=
  let v := ofBytes p % 2 ^ 95
  if fp then { AccCell.zero with run := v }
  else if 2 ^ 94 ≤ v ∧ v < 2 ^ 94 + 8 then { AccCell.zero with nan := bitOf v 0, pinf := bitOf v 1, ninf := bitOf v 2 }
  else
    let z := BitVec.ofNat 96 (v + 2 ^ 95 * (v / 2 ^ 94))
    { AccCell.zero with sum := z, res := mod7 z.toInt }
def State.putAcc (s : State) (die c y x : Nat) (p : List Byte) : State :=
  let w := Win.tile die y x
  let base := 16 * s.rd F.TILE_PART_ACC_BASE c w
  let n := 16 * s.rd F.TILE_PART_ACC_LEN c w
  (List.range n).foldl (fun (s : State) r =>
    let fp := bitOf (at' p r 1) 0
    let row := (p.drop (n + 384 * r)).take 384
    let cells := (List.range 32).map (fun k => (row.drop (12 * k)).take 12)
    let extent := 16 * packBits (cells.map (fun b => bitOf (ofBytes b) 95))
    let v : AccRow := { fp := fp, extent := extent, cells := cells.map (cellOf fp) }
    s.setAccRow die y x (base + r) (if v.extent = 0 ∧ v.fp = false ∧ v.cells.all (fun k => decide (k = AccCell.zero)) then AccRow.blank else v)) s

/-- Tokens at the head of a port that a combine had taken go back to it, in its order. -/
def fillComb (comb : List (Nat × Tok)) (port : Nat) : List Tok → List (Nat × Tok) × List Tok
  | [] => (comb, [])
  | t :: rest => if comb.any (fun e => decide (e.1 = port)) then
      (comb.map (fun e => if e.1 = port then (port, t) else e), rest) else (comb, t :: rest)
def State.putMi (s : State) (die c y x : Nat) (p : List Byte) : State :=
  let t := s.tile die y x c
  let r := fillComb t.comb 46 (unpackToks 128 p)
  s.setTile die y x c { t with comb := r.1, mi := r.2 }

/-- MT_STATE enters a slot. -/
def State.putMtState (s : State) (die c y x : Nat) (p : List Byte) : State :=
  let w := Win.tile die y x
  let all : Fld := { F.MT_NUM_FLAGS_NV with w := 7 }
  let s1 := (List.range 4).foldl (fun (s : State) a =>
    let o := 26 * a
    let f := at' p (o + 1) 1
    let list := fun (b : Nat) => if f = 0 then [] else (List.range 4).map (fun d => at' p (b + 3 * d) 3)
    let g : AgState := { desc := at' p o 1, running := bitOf f 0, finished := bitOf f 1, bounds := list (o + 2), index := list (o + 14) }
    (s.setAg die y x c a g).wr (evFld a) (at' p (104 + a) 1) c w) s
  (((s1.wr F.MT_SA_COUNT_ROWS (at' p 108 4) c w).wr all (at' p 112 1) c w).putCtl die y x c (p.drop 116)).putSetup die y x c (at' p 124 4)
def State.putSram (s : State) (die c y x : Nat) (p : List Byte) : State :=
  let r := s.region die y x c
  s.sramWrite die y x r.1 (ofBytes p) (min p.length r.2)

/-- QUEUE enters a slot; tokens that a combine or the router had taken go back to them. -/
def State.putQueue (s : State) (die c qid : Nat) (p : List Byte) : State :=
  let y := qidY qid; let x := qidX qid
  let ts := unpackToks (tokBytes (qidNet qid)) p
  if qid = scoreQid then
    match s.inv die c with
    | none => s.setQueue die qid c { s.queue die qid c with toks := ts }
    | some v =>
      let n := v.logits.length / 32
      (s.setInv die c { v with logits := (ts.take n).flatMap (fun t => lanes t 32) }).setQueue die qid c
        { s.queue die qid c with toks := ts.drop n }
  else
    let port := if 24 ≤ y ∨ ¬ isCompute y x ∨ qidNet qid ≠ 0 then none
      else (List.range 4).find? (fun k => s.portQueue die y x c 0 k == some qid)
    let r := match port with
      | some k => fillComb (s.tile die y x c).comb (32 + k) ts
      | none => ((s.tile die y x c).comb, ts)
    let s1 := if port.isSome then s.setTile die y x c { s.tile die y x c with comb := r.1 } else s
    let q := s1.queue die qid c
    s1.setQueue die qid c { q with toks := r.2, armed := decide (0 < q.extLen) && !q.setup && decide (q.len ≤ r.2.length) }
/-- EXT enters a slot. -/
def State.putExt (s : State) (die c qid : Nat) (p : List Byte) : State :=
  let ts := unpackToks (tokBytes (qidNet qid)) p
  if 24 ≤ qidY qid then { s with arr := { s.arr with drain := SMap.setD s.arr.drain (queueKey die qid c) ts [] } }
  else s.setQueue die qid c { s.queue die qid c with ext := ts, armed := false }

/-- The router's invocation of an image; the scores of its row under way follow from their queue's record. -/
def routerOf (p : List Byte) : Option Invocation :=
  let f := at' p 0 4
  if f % 2 = 0 then none
  else
    let rows := (List.range (at' p 36 4)).map (fun k =>
      ({ slot := at' p (256 + 16 * k) 4, pos := at' p (260 + 16 * k) 4, nans := at' p (264 + 16 * k) 4 } : RRow))
    let o := 256 + 16 * rows.length
    some { live := at' p 4 4, streamed := at' p 8 4, table := at' p 12 4, consumed := at' p 16 4
           logits := List.replicate (32 * at' p 20 4) 0, listed := false, writes := []
           ident := if at' p 24 4 = 1 then some (at' p 28 4, at' p 32 4) else none
           rows := rows, selected := bitOf f 1, ordered := bitOf f 2
           choices := (List.range (at' p 40 4)).map (fun k =>
             let n := at' p (o + 8 * k) 8
             let row := n % 65536
             let r := rows.getD row { slot := 0, pos := 0, nans := 0 }
             { row := row, slot := r.slot, pos := r.pos, rank := bitsOf n 27 4, expert := bitsOf n 16 11, weight := bitsOf n 32 32,
               accepted := bitOf n 31 }) }
def State.putRouter (s : State) (die c : Nat) (p : List Byte) : State :=
  match routerOf p with
  | none => s
  | some v => s.setInv die c v

/-- One record of an image enters a slot; the router's comes before the queues' so that its taken tokens find it. -/
def State.putRecord (die c : Nat) (s : State) (r : Nat × Nat × List Byte) : State :=
  let y := r.2.1 % 32; let x := r.2.1 / 32 % 32; let p := r.2.2
  match r.1 with
  | 0x01 => ((s.wr F.WDOG_COUNT_COUNT (at' p 0 4) c (.die die)).wr F.SPILL_TOKENS_COUNT (at' p 4 4) c (.die die)).wr
      F.SPILL_CYCLES_COUNT (at' p 8 4) c (.die die)
  | 0x10 => s.putCtState die c y x p
  | 0x11 => s.putVregs die c y x p
  | 0x12 => s.putWbuf die c y x p
  | 0x13 => s.putAcc die c y x p
  | 0x14 => s.putMi die c y x p
  | 0x20 => s.putQueue die c r.2.1 p
  | 0x21 => s.putExt die c r.2.1 p
  | 0x30 => s.putMtState die c y x p
  | 0x31 => s.putSram die c y x p
  | 0x40 => s.putRouter die c p
  | _ => s

/-- R107, R77: the image's state enters the slot. -/
def State.scanApply (s : State) (die c : Nat) (img : List Byte) : State :=
  let s1 := (((s.dropTokens die c).clearUnits die c).clearTileRegs die (resetOffset c)).dropInv die c
  let n := at' img 16 8
  let recs := parseRecs n ((img.take n).drop 64)
  (recs.filter (fun r => decide (r.1 = 0x40)) ++ recs.filter (fun r => decide (r.1 ≠ 0x40))).foldl (State.putRecord die c) s1

end Sys2Proof.Machine
end

