-- ==== Sys2Proof/Machine/Stream.lean ====
section
/-!
DEFINITION. Command streams (R135 to R153): the ring, entries and their checks, value sources and endpoints, issue and
completion, and the entries that act on slots and memory.
-/
namespace Sys2Proof.Machine

/-- Byte, half word, word and double word of an entry (R138). -/
def eB (n k : Nat) : Nat := bitsOf n (8 * k) 8
def eH (n k : Nat) : Nat := bitsOf n (8 * k) 16
def eW (n k : Nat) : Nat := bitsOf n (8 * k) 32
def eD (n k : Nat) : Nat := bitsOf n (8 * k) 64
/-- `len` bytes from byte `k` are zero. -/
def eZero (n k len : Nat) : Bool := decide (bitsOf n (8 * k) (8 * len) = 0)

def eOpc (n : Nat) : Nat := eB n 0
def eNotify (n : Nat) : Bool := bitOf n 8
def eContinue (n : Nat) : Bool := bitOf n 9
def eDiscard (n : Nat) : Bool := bitOf n 10
def eResetOnly (n : Nat) : Bool := bitOf n 11
def eClear (n : Nat) : Bool := bitOf n 12
def eMtSram (n : Nat) : Bool := bitOf n 13
def eSlot (n : Nat) : Nat := eB n 2 % 4
def eTag (n : Nat) : Nat := eW n 4

/-- R139: a value source at byte `k` keeps its layout. -/
def srcOk (n k : Nat) : Bool :=
  decide (eB n k ≤ 4) && eZero n (k + 1) 3 &&
  (match eB n k with
   | 0 => eZero n (k + 8) 4
   | 1 => decide (eD n (k + 4) % 4 = 0)
   | 2 => eZero n (k + 6) 6
   | 3 => eZero n (k + 4) 8
   | _ => decide (eB n (k + 4) < 64) && eZero n (k + 5) 7)

/-- R140: an endpoint at byte `k` keeps its layout. -/
def endOk (n k : Nat) : Bool :=
  decide (eB n k ≤ 2) && eZero n (k + 3) 5 &&
  (match eB n k with
   | 0 => eZero n (k + 1) 2
   | 1 => decide (eB n (k + 1) < 64) && eZero n (k + 2) 1 && eZero n (k + 8) 8
   | _ => decide (eD n (k + 8) < 2 ^ 19))

/-- R138, R141: the entry keeps the rules of its opcode. -/
def entryOk (n : Nat) : Bool :=
  decide (eB n 1 < 64) && decide (eB n 2 < 4) && eZero n 3 1 &&
  (match eOpc n with
   | 0x00 => eZero n 8 56
   | 0x01 => eZero n 20 44
   | 0x02 => eZero n 8 56
   | 0x03 => decide (eB n 8 ≤ 1) && eZero n 9 7 && eZero n 24 40
   | 0x08 => decide (eB n 8 < 64 ∧ 1 ≤ eB n 9 ∧ eB n 9 ≤ 4) && eZero n 10 2 &&
       (List.range 4).all (fun i =>
         if i < eB n 9 then decide (eB n (12 + i) < 16) && srcOk n (16 + 12 * i)
         else decide (eB n (12 + i) = 0) && eZero n (16 + 12 * i) 12)
   | 0x09 => srcOk n 8 && eZero n 20 4 && endOk n 24 && decide (eB n 24 ≠ 1) && eZero n 40 24
   | 0x10 => endOk n 8 && endOk n 24 && srcOk n 40 && eZero n 52 12
   | 0x11 => decide (eB n 24 ≤ 3) && eZero n 27 1 &&
       (if eB n 24 = 3 then decide (eW n 28 < 2 ^ 19) else eZero n 25 2 && eZero n 28 4) && eZero n 32 32
   | 0x12 => eZero n 8 56
   | 0x18 => decide (1 ≤ eH n 8 ∧ eH n 8 ≤ 1024) && decide (eB n 11 < 16) && eZero n 12 4 && eZero n 20 44
   | 0x19 => eZero n 10 2 && srcOk n 12 && endOk n 40 && eZero n 56 8
   | 0x20 => decide (eB n 8 < 64) && decide (eB n 9 < 64 ∨ eB n 9 = 255) && eZero n 10 2 &&
       decide (eB n 16 < 64 ∨ eB n 16 = 255) && decide (eB n 17 < 4 ∨ eB n 17 = 255) && eZero n 18 46
   | 0x21 => decide (1 ≤ eB n 9 ∧ eB n 9 ≤ 16) && eZero n 10 54
   | 0x28 => decide (eB n 8 ≤ 3) && eZero n 9 7 && eZero n 24 40
   | 0x30 => eZero n 16 48
   | _ => false)

def State.stream (s : State) (die st : Nat) : StreamSt := SMap.getD s.strm.streams (streamKey die st) StreamSt.empty
def State.setStream (s : State) (die st : Nat) (v : StreamSt) : State :=
  { s with strm := { s.strm with streams := SMap.setD s.strm.streams (streamKey die st) v StreamSt.empty } }

/-- R137: HEAD and TAIL with their wrap bits, and the number of valid entries. -/
def State.headPtr (s : State) (die st : Nat) : Nat :=
  s.rd F.STREAM_HEAD_INDEX st (.die die) + 1024 * s.rd F.STREAM_HEAD_WRAP st (.die die)
def State.tailPtr (s : State) (die st : Nat) : Nat :=
  s.rd F.STREAM_TAIL_INDEX st (.die die) + 1024 * s.rd F.STREAM_TAIL_WRAP st (.die die)
def State.setHead (s : State) (die st p : Nat) : State :=
  (s.wr F.STREAM_HEAD_INDEX (p % 1024) st (.die die)).wr F.STREAM_HEAD_WRAP (p / 1024 % 2) st (.die die)
def State.setTail (s : State) (die st p : Nat) : State :=
  (s.wr F.STREAM_TAIL_INDEX (p % 1024) st (.die die)).wr F.STREAM_TAIL_WRAP (p / 1024 % 2) st (.die die)
def State.validCount (s : State) (die st : Nat) : Nat := (s.tailPtr die st + 2048 - s.headPtr die st) % 2048

/-- R137: the entry at a ring index. -/
def cmdKey (die st i : Nat) : Nat := (die * 64 + st) * 1024 + i % 1024
def State.cmdAt (s : State) (die st i : Nat) : Nat := (SMap.getD s.strm.cmdMem (cmdKey die st i) 0).toNat

def State.strState (s : State) (die st : Nat) : Nat := s.rd F.STREAM_STATUS_STATE st (.die die)
def State.setStrState (s : State) (die st v : Nat) : State := s.wr F.STREAM_STATUS_STATE v st (.die die)

/-- R404: an entry other than FENCE and SUMMARY_WAIT, for which a die does not rest. -/
def rousing (opc : Nat) : Bool := decide (opc ≠ 0x20) && decide (opc ≠ 0x21)
/-- R166: STATE of a stream that is not stopped: HELD, IDLE or RUN; such an entry at its head wakes the die (R404). -/
def State.refreshStream (s : State) (die st : Nat) : State :=
  if 3 ≤ s.strState die st then s
  else if (s.stream die st).holder.isSome then s.setStrState die st 2
  else if s.validCount die st = 0 then s.setStrState die st 0
  else
    let s1 := s.setStrState die st 1
    if rousing (eOpc (s.cmdAt die st (s.headPtr die st))) then s1.stir die else s1

/-- R136, R166: a Serge pair is retired for good, as the fuses hold it. -/
def State.pairRetired (s : State) (d p : Nat) : Bool := s.fuses.retiredPairs.contains (d, p)
/-- R135, R136: the stream has an entry to issue: its pair runs, and it is neither stopped nor held. -/
def State.canIssue (s : State) (die st : Nat) : Bool :=
  s.flag F.SERGE_STATUS_ONLINE (st / 8) (.die die) && decide (s.strState die st < 3) &&
  (s.stream die st).holder.isNone && decide (0 < s.validCount die st)
/-- R135: no stream of the pair comes before this one in round-robin order: of those, none has an entry to issue, or it has
found that its entry must wait. -/
def State.turn (s : State) (die st : Nat) : Bool :=
  let last := SMap.getD s.strm.served (die * 8 + st / 8) 7
  (List.range ((st % 8 + 7 - last) % 8)).all (fun k =>
    let t := 8 * (st / 8) + (last + 1 + k) % 8
    !(s.canIssue die t && decide (s.strState die t ≠ 2)))
/-- R135: the engine may issue the stream's head entry. -/
def State.mayIssue (s : State) (die st : Nat) : Bool := s.canIssue die st && s.turn die st
/-- R135: the engine has served a stream. -/
def State.serveStream (s : State) (die st : Nat) : State :=
  { s with strm := { s.strm with served := SMap.setD s.strm.served (die * 8 + st / 8) (st % 8) 7 } }

def State.advanceHead (s : State) (die st : Nat) : State :=
  (s.setHead die st ((s.headPtr die st + 1) % 2048)).refreshStream die st

def entryCode (e : EntrySt) : Nat :=
  match e with
  | .ok => 0
  | .refused => 1
  | .fault => 2
  | .bound => 3
  | .timeout => 4

/-- R142: an entry completes: it leaves the stream's open entries; a status other than OK stops the stream unless the entry
carries CONTINUE or the stream is OFFLINE, and is always notified. An entry that held the stream lets it go on. -/
def State.completeEntry (s : State) (die st i n : Nat) (e : EntrySt) : State :=
  let v := s.stream die st
  let held := decide (v.holder = some i)
  let s1 := s.setStream die st { v with flying := v.flying.filter (fun f => decide (f.entry ≠ i)),
                                        holder := if held then none else v.holder }
  let s2 := if held then s1.advanceHead die st else s1
  let s3 := if e ≠ .ok ∨ eNotify n then s2.emit (.notice die st (eTag n) e) else s2
  let s4 := if e ≠ .ok ∧ ¬ eContinue n ∧ s3.strState die st ≠ 5 then
      ((s3.setStrState die st 4).wr F.STREAM_STATUS_ERR_STATUS (entryCode e) st (.die die)).wr
        F.STREAM_STATUS_ERR_ENTRY i st (.die die)
    else s3
  s4.refreshStream die st

/-- What issuing an entry comes to: it completes at once, goes on in flight, goes on and holds the stream, or must wait; the
last two with the cause of R163. A STEP and a SUMMARY_WAIT hold with INPUT_EMPTY: notes/assumptions/44. -/
inductive Issue where
  | done (e : EntrySt) (s : State)
  | fly (s : State) (f : InFlight)
  | hold (cause : Nat) (s : State) (f : InFlight)
  | wait (cause : Nat) (s : State)

/-- R156: a dispatch of this stream whose GROUP entries have not all come. -/
def State.openDispatch (s : State) (die st : Nat) : Option (Nat × Dispatch) :=
  (List.range 4).findSome? (fun c =>
    match SMap.find? s.strm.dispatches (dieCtx die c) with
    | some d => if d.stream = st ∧ d.seen < d.total then some (c, d) else none
    | none => none)

/-- R156, R159: the dispatch of a slot ends with a status; its GROUP entries complete with it, REFUSED when it was cut short. -/
def State.endDispatch (s : State) (die c : Nat) (e : EntrySt) : State :=
  match SMap.find? s.strm.dispatches (dieCtx die c) with
  | none => s
  | some d =>
    let s1 := { s with strm := { s.strm with dispatches := SMap.erase s.strm.dispatches (dieCtx die c) } }
    let fl := (s1.stream die d.stream).flying
    let own := fl.filter (fun f => decide (f.entry = d.entry) || d.entries.contains f.entry)
    own.foldl (fun s f => s.completeEntry die d.stream f.entry f.word.toNat
      (if f.entry = d.entry ∨ e = .refused then e else .ok)) s1

/-- R156: an entry other than GROUP cuts an open dispatch short. -/
def State.cutDispatch (s : State) (die st opc : Nat) : State :=
  match s.openDispatch die st with
  | none => s
  | some (c, _) => if opc = 0x19 then s else s.endDispatch die c .refused

/-- R138: the opcodes whose entry acts on its slot. -/
def usesSlot (opc : Nat) : Bool := decide (opc ≠ 0x00 ∧ opc ≠ 0x12 ∧ opc ≠ 0x20 ∧ opc ≠ 0x30)
/-- R135, R150: the stream has issued an entry of its step. -/
def State.noteStep (s : State) (die st opc c : Nat) : State :=
  let v := s.stream die st
  let used := if v.stepSlots.contains c || !usesSlot opc then v.stepSlots else v.stepSlots ++ [c]
  (s.setStream die st { v with inStep := true, stepSlots := used }).serveStream die st

/-- R135, R138, R143: the stream issues its head entry if that has the opcode: an entry that breaks the rules completes
REFUSED, whatever its opcode. -/
def State.issueHead (s : State) (die st opc : Nat) (run : State → Nat → Nat → Issue) : State :=
  if s.mayIssue die st then
    let i := s.headPtr die st % 1024
    let n := s.cmdAt die st i
    if ¬ entryOk n then (((s.cutDispatch die st 0).serveStream die st).advanceHead die st).completeEntry die st i n .refused
    else if eOpc n ≠ opc then s
    else
      let note := fun (t : State) => t.noteStep die st opc (eSlot n)
      match run (s.cutDispatch die st opc) i n with
      | .done e t => ((note t).advanceHead die st).completeEntry die st i n e
      | .fly t f =>
        let v := (note t).stream die st
        ((note t).setStream die st { v with flying := v.flying ++ [f] }).advanceHead die st
      | .hold cause t f =>
        let v := (note t).stream die st
        (((note t).setStream die st { v with flying := v.flying ++ [f], holder := some i }).refreshStream die st).wr
          F.STREAM_STATUS_HELD_CAUSE cause st (.die die)
      | .wait cause t => (t.setStrState die st 2).wr F.STREAM_STATUS_HELD_CAUSE cause st (.die die)
  else s

def flyOf (i n : Nat) (cls : EClass) (a b len : Nat) : InFlight :=
  { entry := i, word := BitVec.ofNat 512 n, cls := cls, slot := eSlot n, a := a, b := b, len := len }

/-- What a value source gives (R139): a value, a wait for its page, or a fault. -/
inductive SrcVal where
  | value (v : Nat)
  | wait
  | fault
  deriving DecidableEq, Repr

def State.readSource (s : State) (die st c n k : Nat) : SrcVal :=
  match eB n k with
  | 0 => .value (eW n (k + 4))
  | 1 =>
    let a := eD n (k + 4)
    (match s.readAccess a with
     | .ok => .value (s.masNat a 4)
     | .wait => .wait
     | .fault => .fault)
  | 2 =>
    let e := eH n (k + 4)
    if 1024 ≤ e then .fault else .value (s.rd F.ROUTER_COUNT_ACCEPTED (1024 * c + e) (.die die))
  | 3 => .value (s.rd F.STREAM_RESULT_VALUE st (.die die))
  | _ => .value (s.rd F.FENCE_CNT_VALUE (eB n (k + 4)) (.die die))

/-- R139: read a source, or wait for its page (cause NEAR_TIER or BULK_TIER of R163), or complete FAULT. -/
def State.withSource (s : State) (die st n k : Nat) (f : Nat → Issue) : Issue :=
  match s.readSource die st (eSlot n) n k with
  | .value v => f v
  | .wait => .wait 5 (s.requestRange (eD n (k + 4)) 4 die 0)
  | .fault => .done .fault s

def State.image (s : State) (die c : Nat) : Option CtxImage := SMap.find? s.arr.images (dieCtx die c)

/-- R140: the ports of an edge-port group of a slot's context, and the tiles of a parameter set. -/
def State.groupPorts (s : State) (die c g : Nat) : List Nat :=
  match s.image die c with
  | some img => ((img.groups.find? (fun e => decide (e.1 = g))).map (·.2)).getD []
  | none => []
def State.psetTiles (s : State) (die c p : Nat) : Option (List (Nat × Nat)) :=
  match s.image die c with
  | some img => (img.psets.find? (fun e => decide (e.1 = p))).map (·.2)
  | none => none

/-- R109, R140: a range of a memory tile's SRAM inside the slot's region. -/
def State.inTile (s : State) (die y x c off n : Nat) : Bool :=
  decide (y < 24 ∧ x < s.cols) && !(isCompute y x) &&
  inRegion (s.region die y x c) off ((off : Int) + n - 1)

/-- R153: a transfer of `n` bytes stays inside its endpoint. -/
def State.endFits (s : State) (die c n k len : Nat) : Bool :=
  match eB n k with
  | 0 => decide (eD n (k + 8) + len ≤ 2 ^ 52)
  | 1 => true
  | _ => s.inTile die (eB n (k + 1)) (eB n (k + 2)) c (eD n (k + 8)) len

/-- Deal tokens to the ports of a group in turn (notes/assumptions/20). -/
def dealTo (ports : List Nat) (toks : List Tok) (j : Nat) : List Tok :=
  ((List.range toks.length).filter (fun i => decide (i % ports.length = j))).map (fun i => toks.getD i 0)
def State.feedGroup (s : State) (die c : Nat) (ports : List Nat) (toks : List Tok) : State :=
  (List.range ports.length).foldl (fun s j => s.feedToks die (ports.getD j 0) c (dealTo ports toks j)) s

/-- The tokens that have left through a group's ports, in turn, as far as `n` of them are there; and those tokens taken, which
completes an agent's write (R180). -/
def State.drained (s : State) (die c : Nat) (ports : List Nat) (n : Nat) : List Tok :=
  (List.range n).filterMap (fun i =>
    (SMap.getD s.arr.drain (queueKey die (ports.getD (i % ports.length) 0) c) [])[i / ports.length]?)
def State.undrain (s : State) (die c : Nat) (ports : List Nat) (n : Nat) : State :=
  (List.range ports.length).foldl (fun s j =>
    let k := queueKey die (ports.getD j 0) c
    let taken := ((List.range n).filter (fun i => decide (i % ports.length = j))).length
    let gone := min taken (SMap.getD s.arr.drain k []).length
    let invs := SMap.mapVals s.arr.invs (fun d (v : Invocation) => if d = dieCtx die c then
      { v with writes := v.writes.map (fun e => if e.1 = k then (k, e.2 - gone) else e) } else v)
    { s with arr := { s.arr with invs := invs, drain := SMap.setD s.arr.drain k ((SMap.getD s.arr.drain k []).drop taken) [] } }) s

/-- The bytes at an endpoint: a byte list, or a wait, or a fault (R128, R140, R149). -/
inductive EndRead where
  | bytes (bs : List Byte) (s : State)
  | wait (s : State)
  | fault

def State.endRead (s : State) (die c n k len : Nat) : EndRead :=
  match eB n k with
  | 0 =>
    let a := eD n (k + 8)
    (match s.rangeAccess State.readAccess a len with
     | .ok => .bytes (s.masBytes a len) (s.dataPath die a len)
     | .wait => .wait (s.requestRange a len die 0)
     | .fault => .fault)
  | 1 =>
    let ports := s.groupPorts die c (eB n (k + 1))
    let m := (len + 127) / 128
    let toks := s.drained die c ports m
    if ports.isEmpty then .fault
    else if toks.length < m then .wait s
    else .bytes ((toks.flatMap (fun t => toBytes t.toNat 128)).take len) (s.undrain die c ports m)
  | _ => if s.prefetching die (eB n (k + 1)) (eB n (k + 2)) (eD n (k + 8)) len then .wait s
    else .bytes (toBytes (s.sramRead die (eB n (k + 1)) (eB n (k + 2)) (eD n (k + 8)) len) len) s

/-- R140, R231: bytes delivered to the ports of an edge-port group. -/
def State.deliverTo (s : State) (die c g : Nat) (bs : List Byte) : State :=
  s.feedGroup die c (s.groupPorts die c g) (portToks (s.groupFmt die c g) bs)

/-- Write bytes to an endpoint; none where the destination does not take them (R128). -/
def State.endWrite (s : State) (die c n k : Nat) (bs : List Byte) : Option State :=
  match eB n k with
  | 0 =>
    let a := eD n (k + 8)
    if s.rangeAccess State.writeAccess a bs.length = .ok then some ((s.dataPath die a bs.length).masWrite a bs) else none
  | 1 =>
    let ports := s.groupPorts die c (eB n (k + 1))
    if ports.isEmpty ∨ ¬ ports.all (fun q => s.portTakes die q c none) then none
    else some (s.deliverTo die c (eB n (k + 1)) bs)
  | _ => some (s.sramWrite die (eB n (k + 1)) (eB n (k + 2)) (eD n (k + 8)) (ofBytes bs) bs.length)

/-- NOP (R141). -/
def execNop (die st : Nat) (s : State) : Res :=
  onStream die st (.next (s.issueHead die st 0x00 (fun s _ _ => .done .ok s)))

/-- CTX_LOAD (R87, R141, R144) of the image that the entry's address holds; a load that the slot's state or the checks
refuse completes REFUSED. A RESET_ONLY load is the command RESET_ONLY_LOAD. -/
def execCtxLoad (die st : Nat) (img : CtxImage) (s : State) : Res :=
  onStream die st (.next (
    if eResetOnly (s.cmdAt die st (s.headPtr die st)) then s
    else s.issueHead die st 0x01 (fun s i n =>
      let c := eSlot n
      let a := eD n 8
      match s.rangeAccess State.readAccess a (eW n 16) with
      | .fault => .done .fault s
      | r =>
        if s.loadState die c (eDiscard n) false && s.loadOk die c img then
          let s1 := if r = .wait then s.requestRange a (eW n 16) die 0 else s
          .fly (s1.beginLoad die c img st i) (flyOf i n .load a 0 (eW n 16))
        else .done .refused s)))

/-- RESET_ONLY_LOAD (R88, R141). -/
def execResetOnlyLoad (die st : Nat) (s : State) : Res :=
  onStream die st (.next (
    if ¬ eResetOnly (s.cmdAt die st (s.headPtr die st)) then s
    else s.issueHead die st 0x01 (fun s _ n =>
      if s.loadState die (eSlot n) (eDiscard n) true then
        let d := s.slotTokens die (eSlot n)
        .done .ok ((s.resetOnly die (eSlot n)).emit (.loaded die (eSlot n) d))
      else .done .refused s)))

/-- CONTEXT_LOAD_COMPLETE (R87): the image has been read, once its pages are near: the slot is READY, or EMPTY after an
uncorrectable error. -/
def execContextLoadComplete (die c : Nat) (ue : Bool) (s : State) : Res :=
  onSlot die c (.next (match SMap.find? s.arr.loads (dieCtx die c) with
    | none => s
    | some (img, st, i, dropped) =>
      match (s.stream die st).flying.find? (fun f => decide (f.entry = i)) with
      | none =>
        let s1 := { s with arr := { s.arr with loads := SMap.erase s.arr.loads (dieCtx die c) } }
        if ue then s1.emptySlot die c else s1.applyImage die c img
      | some f =>
        if s.rangeAccess State.readAccess f.a f.len = .wait then s
        else
          let s1 := { s with arr := { s.arr with loads := SMap.erase s.arr.loads (dieCtx die c) } }
          if ue then (s1.emptySlot die c).completeEntry die st i f.word.toNat .fault
          else ((s1.applyImage die c img).emit (.loaded die c dropped)).completeEntry die st i f.word.toNat .ok))

/-- CTX_SELECT (R89, R90, R144). -/
def execCtxSelect (die st : Nat) (s : State) : Res :=
  onStream die st (.next (s.issueHead die st 0x02 (fun s i n =>
    let c := eSlot n
    if s.slotState die c = 4 then .done .refused s
    else if s.slotState die c = 3 ∧ (s.selectsOf die).isEmpty then .done .ok s
    else .fly (s.setSelects die (s.selectsOf die ++ [{ stream := st, entry := i, slot := c }])) (flyOf i n .select 0 0 0))))

/-- CONTEXT_SWITCH_CYCLE (R89, R90): the oldest select takes effect, unless its target is LOADING or SCANNING. -/
def execContextSwitchCycle (die : Nat) (s : State) : Res :=
  onDie die (.next (match s.selectsOf die with
    | [] => s
    | p :: rest =>
      let st := s.slotState die p.slot
      if st = 1 ∨ st = 5 then s
      else
        let s1 := s.setSelects die rest
        let word := match (s.stream die p.stream).flying.find? (fun f => decide (f.entry = p.entry)) with
          | some f => f.word.toNat
          | none => 0
        if st = 4 then s1.completeEntry die p.stream p.entry word .refused
        else
          let s2 := if st = 3 then s1 else s1.switchTo die p.slot
          s2.completeEntry die p.stream p.entry word .ok))

/-- SCAN_STATUS of a die (R108). -/
def State.scanStatus (s : State) (die : Nat) (busy dirIn : Bool) (c result progress : Nat) : State :=
  let w := Win.die die
  ((((s.wrFlag F.SCAN_STATUS_BUSY busy 0 w).wrFlag F.SCAN_STATUS_DIR dirIn 0 w).wr F.SCAN_STATUS_SLOT c 0 w).wr
    F.SCAN_STATUS_RESULT result 0 w).wr F.SCAN_STATUS_PROGRESS (min progress (2 ^ 24 - 1)) 0 w

/-- The former state of a slot by its code. -/
def formerSt (n : Nat) : SlotSt := if n = 4 then .frozen else .ready

/-- SCAN (R103, R106, R107, R187): a scan of the entry's slot begins, or is refused, or waits for the die's running scan or
for the slot's router invocation. -/
def execScan (die st : Nat) (s : State) : Res :=
  onStream die st (.next (s.issueHead die st 0x03 (fun s i n =>
    let c := eSlot n
    let dirIn := decide (eB n 8 = 1)
    let former := s.slotState die c
    let a := eD n 16
    let len := if dirIn then s.masNat (a + 16) 8 else 0
    if (SMap.find? s.arr.scans die).isSome || (!dirIn && (s.routerBusy die c)) then .wait 11 s
    else if dirIn ∧ s.rangeAccess State.readAccess a (max 64 len) = .wait then .wait 5 (s.requestRange a (max 64 len) die 0)
    else
      let ok := if dirIn then
          decide (s.rangeAccess State.readAccess a (max 64 len) = .ok) && s.scanInOk die c (eDiscard n) (s.masBytes a len)
        else decide (former = 2 ∨ former = 4)
      if ok then
        let s1 := if dirIn then s.dropTokens die c else s
        let job : ScanJob := { slot := c, isIn := dirIn, clear := eClear n, sram := eMtSram n, discard := eDiscard n,
                               stream := st, entry := i, addr := a, former := former, moved := false, bytes := len, result := 0 }
        let s2 := { s1 with arr := { s1.arr with scans := SMap.insert s1.arr.scans die job } }
        .fly ((s2.setSlotState die c .scanning).scanStatus die true dirIn c 0 0) (flyOf i n .load a 0 0)
      else .done .refused (s.scanStatus die false dirIn c 1 0))))

def State.setScan (s : State) (die : Nat) (j : ScanJob) : State :=
  { s with arr := { s.arr with scans := SMap.insert s.arr.scans die j } }

/-- SCAN_OUT (R104 to R106): the slot's state is written to the image, which must lie in writable pages; an uncorrectable
error while reading the slot makes it fail. -/
def execScanOut (die : Nat) (ue : Bool) (s : State) : Res :=
  onDie die (.next (match SMap.find? s.arr.scans die with
    | none => s
    | some j =>
      if j.isIn || j.moved then s
      else
        let im := s.scanImage die j.slot j.sram
        if ue then s.setScan die { j with moved := true, result := 2 }
        else if s.rangeAccess State.writeAccess j.addr im.length ≠ .ok then s.setScan die { j with moved := true, result := 3 }
        else
          (s.masWrite j.addr im).setScan die { j with moved := true, bytes := im.length, result := 0 }))

/-- SCAN_IN (R107): the image is written into the slot; an uncorrectable error leaves it as after a reset-only load. -/
def execScanIn (die : Nat) (ue : Bool) (s : State) : Res :=
  onDie die (.next (match SMap.find? s.arr.scans die with
    | none => s
    | some j =>
      if ¬ j.isIn ∨ j.moved then s
      else if ue then ((s.resetOnly die j.slot).setSlotState die j.slot .scanning).setScan die { j with moved := true, result := 2 }
      else (s.scanApply die j.slot (s.masBytes j.addr j.bytes)).setScan die { j with moved := true, result := 0 }))

/-- SCAN_COMPLETE (R103, R106, R107): the slot returns to its former state, or is reset with CLEAR, and SCAN_STATUS
records the result. -/
def execScanComplete (die : Nat) (s : State) : Res :=
  onDie die (.next (match SMap.find? s.arr.scans die with
    | none => s
    | some j =>
      if ¬ j.moved then s
      else
        let s1 := { s with arr := { s.arr with scans := SMap.erase s.arr.scans die } }
        let s2 := if j.clear ∧ ¬ j.isIn ∧ j.result = 0 then s1.resetOnly die j.slot
          else s1.setSlotState die j.slot (if j.isIn then .ready else formerSt j.former)
        let word := match (s.stream die j.stream).flying.find? (fun f => decide (f.entry = j.entry)) with
          | some f => f.word.toNat
          | none => 0
        let s3 := s2.scanStatus die false j.isIn j.slot (if j.result = 0 then 0 else 2) (if j.result = 0 then j.bytes / 4096 else 0)
        s3.completeEntry die j.stream j.entry word (if j.result = 0 then .ok else .fault)))

/-- R144: a parameter set that a dispatch in progress on the slot uses for its lanes. -/
def State.psetInUse (s : State) (die c p : Nat) : Bool :=
  (SMap.find? s.strm.dispatches (dieCtx die c)).isSome &&
  (match s.image die c with
   | some img => img.lanes.any (fun l => decide (l.pset = p))
   | none => false)

/-- R70: some tile of a set still has a parameter set pending. -/
def State.psetPending (s : State) (die c : Nat) (tiles : List (Nat × Nat)) : Bool :=
  tiles.any (fun t => s.flag F.TILE_PARAM_CTRL_PENDING c (.tile die t.1 t.2))

/-- R70, R141: write parameter values into every tile of a set and commit them. -/
def State.putParams (s : State) (die c : Nat) (tiles : List (Nat × Nat)) (items : List (Nat × Nat)) : State :=
  tiles.foldl (fun s t =>
    let s1 := items.foldl (fun s e => s.wr F.TILE_PARAM_VALUE e.2 (16 * c + e.1) (.tile die t.1 t.2)) s
    s1.commitParams die t.1 t.2 c) s

/-- PARAM_UPDATE (R141, R144). -/
def execParamUpdate (die st : Nat) (s : State) : Res :=
  onStream die st (.next (s.issueHead die st 0x08 (fun s _ n =>
    let c := eSlot n
    match s.psetTiles die c (eB n 8) with
    | none => .done .refused s
    | some tiles =>
      if s.psetInUse die c (eB n 8) then .wait 3 s
      else if s.psetPending die c tiles then .wait 8 s
      else
        let ks := List.range (eB n 9)
        let vals := ks.map (fun i => s.readSource die st c n (16 + 12 * i))
        if vals.any (fun v => match v with | .fault => true | _ => false) then .done .fault s
        else if vals.any (fun v => match v with | .wait => true | _ => false) then
          .wait 5 (ks.foldl (fun s i => if eB n (16 + 12 * i) = 1 then s.requestRange (eD n (20 + 12 * i)) 4 die 0 else s) s)
        else
          let items := ks.map (fun i => (eB n (12 + i), match s.readSource die st c n (16 + 12 * i) with
            | .value v => v
            | _ => 0))
          .done .ok (s.putParams die c tiles items))))

/-- WRITE_WORD (R141, R152): the value is read; the word is written at its completion. -/
def execWriteWord (die st : Nat) (s : State) : Res :=
  onStream die st (.next (s.issueHead die st 0x09 (fun s i n =>
    s.withSource die st n 8 (fun v =>
      if s.endFits die (eSlot n) n 24 4 then .fly s (flyOf i n .dma v 0 4) else .done .refused s))))

/-- R145: where a DMA or WRITE_WORD entry writes: the space (the MAS, the ports of a slot, or a memory tile), the first byte and
the length. -/
def dmaTarget (f : InFlight) : Nat × Nat × Nat :=
  let n := f.word.toNat
  match eB n 24 with
  | 0 => (0, eD n 32, f.len)
  | 1 => (1 + f.slot, 0, 1)
  | _ => (8 + 256 * eB n 25 + eB n 26, eD n 32, f.len)
/-- R145: a DMA or WRITE_WORD whose destination overlaps that of an earlier open one of its stream waits for it. -/
def dmaBehind (f : InFlight) (earlier : List InFlight) : Bool :=
  let moves := fun (g : InFlight) => decide (g.cls = .dma ∧ eOpc g.word.toNat ≠ 0x28)
  moves f && earlier.any (fun g => moves g && decide ((dmaTarget g).1 = (dmaTarget f).1) &&
    overlap (dmaTarget g).2.1 (dmaTarget g).2.2 (dmaTarget f).2.1 (dmaTarget f).2.2)

/-- DMA_COMPLETE (R141, R143, R145, R374): the transfer of a DMA, WRITE_WORD or COUNTER_READ entry is carried out, once its data
is there, and the entry completes, in any order but that of R145; an access fault completes it FAULT. -/
def execDmaComplete (die st i : Nat) (s : State) : Res :=
  onStream die st (.next (match (s.stream die st).flying.find? (fun f => decide (f.cls = .dma) && decide (f.entry = i)) with
    | none => s
    | some f =>
      if dmaBehind f ((s.stream die st).flying.takeWhile (fun g => decide (g.entry ≠ i))) then s
      else
        let n := f.word.toNat
        let finish := fun (r : Option State) => match r with
          | some t => t.completeEntry die st i n .ok
          | none => s.completeEntry die st i n .fault
        match eOpc n with
        | 0x09 => finish (s.endWrite die f.slot n 24 (toBytes f.a 4))
        | 0x28 =>
          if s.rangeAccess State.writeAccess f.b f.len = .ok then finish (some (s.masWrite f.b (toBytes f.a f.len)))
          else finish none
        | _ =>
          match s.endRead die f.slot n 8 f.len with
          | .wait t => t
          | .fault => finish none
          | .bytes bs t => finish (t.endWrite die f.slot n 24 bs)))

/-- The cache strips of a PREFETCH target (R141). -/
def strips (target : Nat) : List Nat := if target = 2 then [0, 1] else if target = 3 then [] else [target]

/-- R148: pin the lines of a prefetch that are not pinned yet; those whose sets are full of pins stay for later. -/
def State.pinLines (s : State) (die target : Nat) (lines : List Nat) : State × List Nat :=
  lines.foldl (fun (g : State × List Nat) l =>
    let r := (strips target).foldl (fun (h : State × Bool) k =>
      if h.2 then h.1.wcPin die k l else h) (g.1, true)
    if r.2 then (r.1, g.2 ++ [l]) else g) (s, [])
def State.unpinSet (s : State) (die : Nat) (p : PinSet) : State :=
  p.lines.foldl (fun s l => (strips p.target).foldl (fun s k => s.wcUnpin die k l) s) s

/-- R148: every page of a range is sealed. -/
def State.rangeSealed (s : State) (a n : Nat) : Bool :=
  (pagesIn a n).all (fun pn => match s.pte pn with
    | some p => p.isSealed && !p.freeing && !(pteLost p)
    | none => false)

/-- R141, R148: issue a PREFETCH entry: none where it faults; the pins it takes and the entry in flight. -/
def State.startPrefetch (s : State) (die st i n : Nat) : Option (State × InFlight) :=
  let a := eD n 8
  let len := eD n 16
  if ¬ s.rangeSealed a len ∨ inMas (a + len) = false then none
  else
    let s1 := if eB n 24 = 3 then (s.dataPath die a len).requestRange a len die 1 else s.requestRange a len die 1
    let r := s1.pinLines die (eB n 24) (if eB n 24 = 3 then [] else linesIn a len)
    let v := r.1.stream die st
    let pin : PinSet := { tag := eTag n, entry := i, lines := r.2, target := eB n 24, complete := false, released := false }
    some (r.1.setStream die st { v with pins := v.pins ++ [pin] }, flyOf i n .prefetch a 0 len)

/-- The memory-tile target of a PREFETCH lies in the slot's region (R148). -/
def State.prefetchFits (s : State) (die n : Nat) : Bool :=
  if eB n 24 = 3 then s.inTile die (eB n 25) (eB n 26) (eSlot n) (eW n 28) (eD n 16) else true

/-- PREFETCH (R147, R148): one that the lookahead has issued is passed. -/
def execPrefetch (die st : Nat) (s : State) : Res :=
  onStream die st (.next (
    let i := s.headPtr die st % 1024
    let v := s.stream die st
    if s.mayIssue die st && v.looked.contains i then
      let s1 := (s.cutDispatch die st 0x11).serveStream die st
      (s1.setStream die st { s1.stream die st with looked := v.looked.filter (· ≠ i) }).advanceHead die st
    else s.issueHead die st 0x11 (fun s i n =>
      if ¬ s.prefetchFits die n then .done .refused s
      else
        match s.startPrefetch die st i n with
        | none => .done .fault s
        | some (t, f) => .fly t f)))

/-- R147: the ring position of the first PREFETCH ahead of the head that has not been issued, within the lookahead's
reach; a FENCE or STEP stops it, also the one at which the head stands. -/
def State.lookaheadAt (s : State) (die st : Nat) : Nat → Nat → Option Nat
  | 0, _ => none
  | k + 1, p =>
    let i := p % 1024
    let n := s.cmdAt die st i
    if (p + 2048 - s.headPtr die st) % 2048 ≥ s.validCount die st then none
    else if eOpc n = 0x20 ∨ eOpc n = 0x30 then none
    else if eOpc n = 0x11 ∧ entryOk n ∧ ¬ (s.stream die st).looked.contains i then some i
    else s.lookaheadAt die st k ((p + 1) % 2048)

/-- LOOKAHEAD_ISSUE (R147). -/
def execLookaheadIssue (die st : Nat) (s : State) : Res :=
  onStream die st (.next (
    if s.flag F.SERGE_STATUS_ONLINE (st / 8) (.die die) && decide (s.strState die st < 3) then
      let h := eOpc (s.cmdAt die st (s.headPtr die st))
      match (if h = 0x20 ∨ h = 0x30 then none
        else s.lookaheadAt die st (s.rd F.STREAM_CTRL_LOOKAHEAD st (.die die)) ((s.headPtr die st + 1) % 2048)) with
      | none => s
      | some i =>
        let n := s.cmdAt die st i
        let v := s.stream die st
        let s0 := s.setStream die st { v with looked := v.looked ++ [i], inStep := true }
        if ¬ s.prefetchFits die n then s0.completeEntry die st i n .refused
        else
          match s0.startPrefetch die st i n with
          | none => s0.completeEntry die st i n .fault
          | some (t, f) =>
            let w := t.stream die st
            t.setStream die st { w with flying := w.flying ++ [f] }
    else s))

/-- R148: every pinned line of a prefetch is resident. -/
def State.linesReady (s : State) (die : Nat) (p : PinSet) : Bool :=
  p.lines.all (fun l => (strips p.target).all (fun k =>
    (s.wcSet (wcKey die k l)).any (fun w => decide (w.line = l) && !w.filling)))

/-- PREFETCH_COMPLETE (R148, R149): the data of a prefetch is in its target; a release that came earlier takes effect. -/
def execPrefetchComplete (die st i : Nat) (s : State) : Res :=
  onStream die st (.next (
    let v := s.stream die st
    match v.flying.find? (fun f => decide (f.entry = i) && decide (f.cls = .prefetch)),
        v.pins.find? (fun p => decide (p.entry = i) && !p.complete) with
    | some f, some p =>
      let n := f.word.toNat
      let todo := (if p.target = 3 then [] else linesIn f.a f.len).filter (fun l => !(p.lines.contains l))
      let r := s.pinLines die p.target todo
      let p1 := { p with lines := p.lines ++ r.2 }
      let ready := decide (r.2.length = todo.length) && r.1.linesReady die p1 &&
        decide (r.1.rangeAccess State.readAccess f.a f.len = .ok)
      let w := r.1.stream die st
      if ready then
        let s1 := if p.target = 3 then
            r.1.sramWrite die (eB n 25) (eB n 26) (eW n 28) (r.1.masNat f.a f.len) f.len
          else r.1
        let s2 := if p.released then
            (s1.unpinSet die p1).setStream die st { w with pins := w.pins.erase p }
          else s1.setStream die st { w with pins := w.pins.map (fun q => if q = p then { p1 with complete := true } else q) }
        s2.completeEntry die st i n .ok
      else r.1.setStream die st { w with pins := w.pins.map (fun q => if q = p then p1 else q) }
    | _, _ => s))

/-- PF_RELEASE (R148). -/
def execPfRelease (die st : Nat) (s : State) : Res :=
  onStream die st (.next (s.issueHead die st 0x12 (fun s _ n =>
    let v := s.stream die st
    let mine := v.pins.filter (fun p => decide (p.tag = eTag n) && p.complete)
    let s1 := mine.foldl (fun s p => s.unpinSet die p) s
    let rest := (v.pins.filter (fun p => !(decide (p.tag = eTag n) && p.complete))).map (fun p =>
      if p.tag = eTag n then { p with released := true } else p)
    .done .ok (s1.setStream die st { v with pins := rest }))))

/-- FENCE (R143, R146): the stream is held until the wait is met. -/
def execFence (die st : Nat) (s : State) : Res :=
  onStream die st (.next (s.issueHead die st 0x20 (fun s i n => .hold 3 s (flyOf i n .none 0 0 0))))

/-- R146: bit of WAIT_CLASS for a class. -/
def classBit (c : EClass) : Option Nat :=
  match c with
  | .load => some 0
  | .select => some 1
  | .param => some 2
  | .dma => some 3
  | .prefetch => some 4
  | .dispatch => some 5
  | .none => none

/-- The entry that holds a stream, if it has the opcode. -/
def State.holderOf (s : State) (die st opc : Nat) : Option (Nat × Nat) :=
  match (s.stream die st).holder with
  | none => none
  | some i =>
    match (s.stream die st).flying.find? (fun f => decide (f.entry = i)) with
    | none => none
    | some f => if eOpc f.word.toNat = opc then some (i, f.word.toNat) else none

/-- R146: an addition to a fence counter. -/
def State.signalFence (s : State) (die dst k : Nat) : State :=
  if dst = 255 ∨ dst = die then s.bump F.FENCE_CNT_VALUE 1 k (.die die)
  else s.velvetSend die dst k

/-- FENCE_WAIT_MET (R146): the classes of earlier entries first (those that the lookahead has issued ahead of the FENCE come
later), then the counter; then the signal is sent and the stream goes on. -/
def execFenceWaitMet (die st : Nat) (s : State) : Res :=
  onStream die st (.next (match s.holderOf die st 0x20 with
    | none => s
    | some (i, n) =>
      let busy := (s.stream die st).flying.any (fun f => decide (f.entry ≠ i) && !(s.stream die st).looked.contains f.entry &&
        (match classBit f.cls with
         | some b => bitOf (eB n 8) b
         | none => false))
      let below := decide (eB n 9 ≠ 255) && decide (s.rd F.FENCE_CNT_VALUE (eB n 9) (.die die) < eW n 12)
      if busy || below then s
      else
        let s1 := if eB n 16 = 255 then s else s.signalFence die (eB n 17) (eB n 16)
        s1.completeEntry die st i n .ok))

/-- FENCE_SIGNAL (R19, R146, R308): the oldest signal that a die has sent to another arrives there. Without one nothing arrives,
and what the pair holds leaves once a route is open. -/
def execFenceSignal (src die : Nat) (s : State) : Res :=
  onDie die (.next (
    match (s.velvet src die).sent with
    | [] => s.velvetFlush src die
    | k :: _ => (s.velvetTake src die).bump F.FENCE_CNT_VALUE 1 k (.die die)))

/-- 64-bit counters as bytes, in ascending order of their registers (notes/assumptions/19). -/
def State.counterBytes (s : State) (die st c grp : Nat) : List Byte :=
  let w := Win.die die
  match grp with
  | 0 => (List.range 12).flatMap (fun k => toBytes (s.rd F.STREAM_STALL_COUNT (16 * st + k) w) 8)
  | 1 => (List.range 12).flatMap (fun k => toBytes (s.rd F.DIE_STALL_COUNT k w) 8)
  | 2 => toBytes (s.rd F.DISPATCH_GROUPS_VALUE 0 w) 8 ++ toBytes (s.rd F.DISPATCH_SKIPPED_VALUE 0 w) 8 ++
      toBytes (s.rd F.DISPATCH_MISS_CYCLES_VALUE 0 w) 8
  | _ =>
    match s.image die c with
    | none => []
    | some img => img.tiles.flatMap (fun t =>
        toBytes (s.rd F.TILE_MBUSY_COUNT c (.tile die t.y t.x)) 4 ++ toBytes (s.rd F.TILE_VBUSY_COUNT c (.tile die t.y t.x)) 4)

/-- COUNTER_READ (R141, R165): the snapshot is taken at issue. -/
def execCounterRead (die st : Nat) (s : State) : Res :=
  onStream die st (.next (s.issueHead die st 0x28 (fun s i n =>
    let bs := s.counterBytes die st (eSlot n) (eB n 8)
    .fly s (flyOf i n .dma (ofBytes bs) (eD n 16) bs.length))))

/-- STEP (R143, R150): the stream is held until every earlier entry has completed. -/
def execStep (die st : Nat) (s : State) : Res :=
  onStream die st (.next (s.issueHead die st 0x30 (fun s i n => .hold 0 s (flyOf i n .none 0 0 0))))

/-- R148, R150: the stream's pins end, but for those of prefetches issued ahead of the head. -/
def State.releasePins (s : State) (die st : Nat) : State :=
  let v := s.stream die st
  let later := fun (p : PinSet) => v.looked.contains p.entry
  let s1 := (v.pins.filter (fun p => !later p)).foldl (fun s p => s.unpinSet die p) s
  s1.setStream die st { s1.stream die st with pins := v.pins.filter later }

/-- STREAM_TAIL_ADVANCE (R137): the thread writes entries from TAIL on and advances TAIL; an advance that makes more than
1,024 entries valid is refused, and changes nothing. -/
def State.tailAdvance (s : State) (die st p : Nat) (es : List (BitVec 512)) : Option State :=
  if (p + 2048 - s.headPtr die st) % 2048 ≤ 1024 then
    let base := s.tailPtr die st
    let mem := (List.range es.length).foldl (fun m i =>
      SMap.setD m (cmdKey die st (base + i)) (es.getD i 0) 0) s.strm.cmdMem
    some (({ s with strm := { s.strm with cmdMem := mem } }.setTail die st (p % 2048)).refreshStream die st)
  else none

def execStreamTailAdvance (die st p : Nat) (es : List (BitVec 512)) (s : State) : Res :=
  onStream die st (.next (s.inDie die "STREAM_TAIL" ((s.tailAdvance die st p es).getD (s.turnAway "STREAM_TAIL"))))

/-- R166: START, STOP and ABORT of STREAM_CTRL. -/
def State.startStream (s : State) (die st : Nat) : State :=
  if s.strState die st = 3 ∨ s.strState die st = 4 then (s.setStrState die st 1).refreshStream die st else s
def State.stopStream (s : State) (die st : Nat) : State :=
  if s.strState die st < 3 then s.setStrState die st 3 else s
/-- R151: the entries of a stream that are in progress are cancelled, but for DMAs: its selects, its loads, whose slots become
EMPTY, its scan, whose slot returns to its former state, its waits, dispatches and pins. -/
def State.cancelStream (s : State) (die st : Nat) : State :=
  let v := s.stream die st
  let s1 := s.setStream die st { v with holder := none, looked := [], flying := v.flying.filter (fun f => decide (f.cls = .dma)) }
  let s2 := { s1 with strm := { s1.strm with
    mboxWaits := s1.strm.mboxWaits.filter (fun w => !(decide (w.1 = die) && decide (w.2.1 = st)))
    dispatches := SMap.keep s1.strm.dispatches (fun k d => !(decide (k / 4 = die) && decide (d.stream = st))) } }
  let s3 := s2.setSelects die ((s2.selectsOf die).filter (fun p => decide (p.stream ≠ st)))
  let s4 := (List.range 4).foldl (fun (s : State) c => match SMap.find? s.arr.loads (dieCtx die c) with
    | some (_, k, _, _) => if k = st then s.emptySlot die c else s
    | none => s) s3
  let s5 := match SMap.find? s4.arr.scans die with
    | some j =>
      if j.stream = st then
        (({ s4 with arr := { s4.arr with scans := SMap.erase s4.arr.scans die } }).setSlotState die j.slot (formerSt j.former)).scanStatus
          die false j.isIn j.slot 2 0
      else s4
    | none => s4
  let open' := fun (p : PinSet) => !p.complete
  let s6 := ((s5.stream die st).pins.filter open').foldl (fun s p => s.unpinSet die p) s5
  s6.setStream die st { s6.stream die st with pins := (s6.stream die st).pins.filter (fun p => !open' p) }

/-- R166: ABORT: the stream stops with HEAD at TAIL; what it holds or dispatches is cancelled as R151 has it. -/
def State.abortStream (s : State) (die st : Nat) : State :=
  let s1 := s.cancelStream die st
  ((s1.setHead die st (s1.tailPtr die st)).stopStream die st)

end Sys2Proof.Machine
end

