-- ==== Sys2Proof/Machine/Groups.lean ====
section
/-!
DEFINITION. Grouped dispatch, summaries and mailboxes (R156 to R162): dispatches, groups and lanes, summary messages, waits
and the idle notice.
-/
namespace Sys2Proof.Machine

def State.dispatch (s : State) (die c : Nat) : Option Dispatch := SMap.find? s.strm.dispatches (dieCtx die c)
def State.setDispatch (s : State) (die c : Nat) (d : Dispatch) : State :=
  { s with strm := { s.strm with dispatches := SMap.insert s.strm.dispatches (dieCtx die c) d } }

/-- DISPATCH (R144, R156): one at a time for a slot; the slot must have lanes. -/
def execDispatch (die st : Nat) (s : State) : Res :=
  onStream die st (.next (s.issueHead die st 0x18 (fun s i n =>
    let c := eSlot n
    let lanes := match s.image die c with
      | some img => img.lanes.length
      | none => 0
    if (s.dispatch die c).isSome then .wait 3 s
    else if lanes = 0 then .done .refused s
    else
      let d : Dispatch := { stream := st, entry := i, total := eH n 8, seen := 0, doneId := eB n 10, countPm := eB n 11,
                            maxCount := eW n 16, groups := [], entries := [], abandoned := false }
      .fly (s.setDispatch die c d) (flyOf i n .dispatch 0 0 0))))

/-- R158: the lanes of a slot that run no group. -/
def State.freeLane (s : State) (die c : Nat) (d : Dispatch) : Option (Nat × Lane) :=
  match s.image die c with
  | none => none
  | some img =>
    ((List.range img.lanes.length).find? (fun k => !(d.groups.any (fun g => decide (g.lane = some k))))).bind (fun k =>
      (img.lanes[k]?).map (fun l => (k, l)))

/-- R180: the router list that an input endpoint names: the bytes of one entry. -/
def State.listSize (s : State) (die c a : Nat) : Option Nat :=
  ((List.range 8).find? (fun t => decide (0 < s.tExperts die c t) && decide (s.tListBase die c t ≤ a) &&
    decide (a < s.tListBase die c t + s.tExperts die c t * s.tListStride die c t))).map (fun t =>
      128 + s.tRowBytes die c t)

/-- R158, R180: the length of a group's input transfer: from a router list count entries, from any other endpoint not stated: a
free value (notes/assumptions/2). -/
def State.inputLen (s : State) (die c count : Nat) (input : BitVec 128) : Nat × State :=
  match (if eB input.toNat 0 = 0 then s.listSize die c (eD input.toNat 8) else none) with
  | some size => (count * size, s)
  | none => s.useFree

def State.setTodo (s : State) (die c entry : Nat) (todo : Option Nat) : State :=
  match s.dispatch die c with
  | none => s
  | some d => s.setDispatch die c { d with groups := d.groups.map (fun g => if g.entry = entry then { g with todo := todo } else g) }

/-- R158: the transfer of a group's input endpoint into its lane's input port group: done once the data is there. -/
def State.moveInput (s : State) (die c : Nat) (g : GroupRec) : State :=
  match g.todo, g.lane.bind (fun k => (s.image die c).bind (fun img => img.lanes[k]?)) with
  | some n, some l =>
    (match s.endRead die c g.input.toNat 0 n with
     | .wait t => t
     | .fault => (s.setTodo die c g.entry none).emit (.accessFault (.array die 0 c) (eD g.input.toNat 8))
     | .bytes bs t =>
       (t.setTodo die c g.entry none).deliverTo die c l.inputGroup bs)
  | _, _ => s

/-- R158: the lowest free lane takes the earliest pending group whose weights are all resident: its count is written and
committed, and its weights and input start for the lane's ports. -/
def State.assignLane (s : State) (die c : Nat) (d : Dispatch) : State :=
  match s.freeLane die c d,
      d.groups.find? (fun g => g.lane.isNone && decide (s.rangeAccess State.readAccess g.waddr g.wlen = .ok)) with
  | some (k, l), some g =>
    let tiles := (s.psetTiles die c l.pset).getD []
    if s.psetPending die c tiles then s
    else
      let r := s.inputLen die c g.count g.input
      let g1 : GroupRec := { g with lane := some k, todo := some r.1 }
      let d1 := { d with groups := d.groups.map (fun h => if h = g then g1 else h) }
      let s1 := (r.2.setDispatch die c d1).putParams die c tiles [(d.countPm, g.count)]
      let s2 := (s1.dataPath die g.waddr g.wlen).deliverTo die c l.weightGroup (s1.masBytes g.waddr g.wlen)
      (s2.emit (.inputStart die c k g.input)).moveInput die c g1
  | _, _ => s

/-- GROUP_ASSIGN (R158): input transfers under way go on, and a free lane takes a group. -/
def execGroupAssign (die c : Nat) (s : State) : Res :=
  onSlot die c (.next (match s.dispatch die c with
    | none => s
    | some d =>
      let s1 := (d.groups.filter (fun g => g.todo.isSome)).foldl (fun s g => s.moveInput die c g) s
      match s1.dispatch die c with
      | none => s1
      | some d1 => if d1.abandoned then s1 else s1.assignLane die c d1))

/-- R159: the dispatch engine takes a DONE message: the group completes and its lane is free. A group that has no lane is a
bound error of the sending tile's context (R69). -/
def State.groupDone (s : State) (die c value : Nat) : State :=
  match s.dispatch die c with
  | none => s
  | some d =>
    if d.groups.any (fun g => decide (g.index = value) && g.lane.isSome) then
      s.setDispatch die c { d with groups := d.groups.filter (fun g => !(decide (g.index = value) && g.lane.isSome)) }
    else s.freeze die c 2

/-- R159: whether a dispatch of the slot consumes messages with this identifier. -/
def State.takesDone (s : State) (die c id : Nat) : Bool :=
  match s.dispatch die c with
  | some d => decide (d.doneId = id)
  | none => false

/-- DISPATCH_COMPLETE (R159): every group that was not skipped has completed; an abandoned dispatch (R136) ends once its
lanes are free. -/
def execDispatchComplete (die c : Nat) (s : State) : Res :=
  onSlot die c (.next (match s.dispatch die c with
    | none => s
    | some d =>
      if d.abandoned ∧ d.groups.all (fun g => g.lane.isNone) then s.endDispatch die c .fault
      else if d.seen = d.total ∧ d.groups.isEmpty then s.endDispatch die c .ok else s))

def State.mbox (s : State) (die m : Nat) : List (Nat × Nat) := SMap.getD s.strm.mboxes (mboxKey die m) []
def State.setMbox (s : State) (die m : Nat) (l : List (Nat × Nat)) : State :=
  { s with strm := { s.strm with mboxes := SMap.setD s.strm.mboxes (mboxKey die m) l [] } }

/-- R76, R161, R183: the next summary message that has arrived, with the state once it is taken: identifier, slot and value.
It stands at the head of a control queue that forwards nowhere, or comes from the router, named by its queue identifier
(Y = 29, X = 0), whose invocation ends with it (R169); notes/assumptions/21. -/
def State.nextSummary (s : State) (die qid : Nat) : Option (Nat × Nat × Nat × State) :=
  if qid = qidOf 29 0 0 0 then
    match s.sumsOf die with
    | [] => none
    | m :: _ => some (m.1, m.2.1, m.2.2, s.dropInv die m.2.1)
  else
    match s.active die with
    | none => none
    | some c =>
      let toks := ((s.queue die qid c).toks.take 8).map (fun t => t.toNat % 256)
      if qidNet qid ≠ 2 ∨ 24 ≤ qidY qid ∨ toks.length < 8 ∨ ¬ (s.dests die qid c).isEmpty then none
      else
        let value := toks.getD 4 0 + 256 * toks.getD 5 0 + 65536 * toks.getD 6 0 + 16777216 * toks.getD 7 0
        some (toks.getD 0 0, toks.getD 1 0 % 4, value, (List.range 8).foldl (fun s _ => s.popTok die qid c) (s.fired die c))

/-- SUMMARY_MESSAGE (R76, R161): a message that has arrived is consumed by its slot's dispatch, or enters its mailbox, or
waits while the mailbox is full. -/
def execSummaryMessage (die qid : Nat) (s : State) : Res :=
  onDie die (.next (match s.nextSummary die qid with
    | none => s
    | some (id, c, v, t) =>
      if s.takesDone die c id then t.groupDone die c v
      else if 16 ≤ (s.mbox die id).length then s
      else t.setMbox die id (s.mbox die id ++ [(c, v)])))

/-- GROUP_COMPLETE (R159): a message that carries the DONE_ID of its slot's dispatch. -/
def execGroupComplete (die qid : Nat) (s : State) : Res :=
  onDie die (.next (match s.nextSummary die qid with
    | none => s
    | some (id, c, v, t) => if s.takesDone die c id then t.groupDone die c v else s))

/-- SUMMARY_WAIT (R143, R161): the stream is held and waits in turn for its mailbox. -/
def execSummaryWait (die st : Nat) (s : State) : Res :=
  onStream die st (.next (s.issueHead die st 0x21 (fun s i n =>
    .hold 0 { s with strm := { s.strm with mboxWaits := s.strm.mboxWaits ++ [(die, st, i, eB n 8, eB n 9)] } }
      (flyOf i n .none 0 0 0))))

/-- SUMMARY_WAIT_MET (R161): the mailbox holds the values that its first waiter needs: they are taken, the last is left in
STREAM_RESULT and the stream goes on. -/
def execSummaryWaitMet (die m : Nat) (s : State) : Res :=
  onDie die (.next (match s.strm.mboxWaits.find? (fun w => decide (w.1 = die) && decide (w.2.2.2.1 = m)) with
    | none => s
    | some w =>
      let box := s.mbox die m
      let n := w.2.2.2.2
      if box.length < n then s
      else
        let s1 := { s with strm := { s.strm with mboxWaits := s.strm.mboxWaits.erase w } }.setMbox die m (box.drop n)
        let last := (box.getD (n - 1) (0, 0)).2
        let s2 := s1.wr F.STREAM_RESULT_VALUE last w.2.1 (.die die)
        match s2.holderOf die w.2.1 0x21 with
        | some (i, word) => s2.completeEntry die w.2.1 i word .ok
        | none => s2))

/-- POP (R161, R166): a write of MBOX_STATUS.POP discards the head value. -/
def State.popMbox (s : State) (die m : Nat) : State := s.setMbox die m (s.mbox die m).tail

/-- R101: the active context is idle: no queue is blocked and nothing is outstanding outside. -/
def State.idleSlot (s : State) (die : Nat) : Option Nat :=
  match s.active die with
  | none => none
  | some c => if (s.blockedQids die c).isEmpty && !(s.outsideWork die c) then some c else none

/-- R162: the context has been idle for 2^IDLE_LOG2 cycles: the idle notice goes to mailbox 0xFF, once until a unit fires again. -/
def State.idleNotice (s : State) (die : Nat) : State :=
  match s.idleSlot die with
  | none => s
  | some c =>
    if SMap.getD s.arr.idlePosted die false ∨ 16 ≤ (s.mbox die 255).length ∨
        SMap.getD s.arr.idleFor die 0 < 2 ^ s.rd F.IDLE_CFG_IDLE_LOG2 0 (.die die) then s
    else
      let s1 := s.setMbox die 255 (s.mbox die 255 ++ [(c, c)])
      { s1 with arr := { s1.arr with idlePosted := SMap.setD s1.arr.idlePosted die true false } }

end Sys2Proof.Machine
end

