-- ==== Sys2Proof/Machine/Rs.lean ====
section
/-!
DEFINITION. The RS(136,128) code of the link lanes (R309): arithmetic in GF(2^8), encoding, and correction of up to
four byte errors in a codeword.
-/
namespace Sys2Proof.Machine

/-- Product in GF(2^8) modulo x^8 + x^4 + x^3 + x^2 + 1. -/
def gfMul (a b : Nat) : Nat :=
  (List.range 8).foldl (fun acc k =>
    let d := (2 * acc) ^^^ (if 128 ≤ acc then 0x11D else 0)
    d ^^^ (if b / 2 ^ (7 - k) % 2 = 1 then a else 0)) 0
def gfPow (a : Nat) : Nat → Nat
  | 0 => 1
  | n + 1 => gfMul a (gfPow a n)
/-- The inverse: the 254th power. -/
def gfInv (a : Nat) : Nat :=
  let a2 := gfMul a a
  let a4 := gfMul a2 a2
  let a8 := gfMul a4 a4
  let a16 := gfMul a8 a8
  let a32 := gfMul a16 a16
  let a64 := gfMul a32 a32
  let a128 := gfMul a64 a64
  gfMul (gfMul (gfMul a2 a4) (gfMul a8 a16)) (gfMul (gfMul a32 a64) a128)

/-- A polynomial, highest coefficient first, at x. -/
def gfEval (p : List Nat) (x : Nat) : Nat := p.foldl (fun acc c => gfMul acc x ^^^ c) 0

/-- R309: the generator's roots are the powers 0 to 7 of 2. -/
def syndromes (cw : List Nat) : List Nat := (List.range 8).map (fun j => gfEval cw (gfPow 2 j))
def cleanCw (cw : List Nat) : Bool := (syndromes cw).all (· == 0)

/-- Sum of two polynomials, lowest coefficient first. -/
def polyAdd : List Nat → List Nat → List Nat
  | [], q => q
  | p, [] => p
  | a :: p, b :: q => (a ^^^ b) :: polyAdd p q
def polyScale (c : Nat) (p : List Nat) : List Nat := p.map (gfMul c)
def polyShift (n : Nat) (p : List Nat) : List Nat := List.replicate n 0 ++ p
/-- A polynomial, lowest coefficient first, at x. -/
def polyEval (p : List Nat) (x : Nat) : Nat := gfEval p.reverse x

/-- The error locator of a list of syndromes (Berlekamp and Massey): locator, the last one, its length, the shift and the
last discrepancy. -/
def locator (ss : List Nat) : List Nat :=
  ((List.range ss.length).foldl (fun (st : List Nat × List Nat × Nat × Nat × Nat) n =>
    let c := st.1
    let b := st.2.1
    let l := st.2.2.1
    let m := st.2.2.2.1
    let bb := st.2.2.2.2
    let d := (List.range (l + 1)).foldl (fun acc i => acc ^^^ gfMul (c.getD i 0) (if i ≤ n then ss.getD (n - i) 0 else 0)) 0
    if d = 0 then (c, b, l, m + 1, bb)
    else
      let c' := polyAdd c (polyShift m (polyScale (gfMul d (gfInv bb)) b))
      if 2 * l ≤ n then (c', c, n + 1 - l, 1, d) else (c', b, l, m + 1, bb)) ([1], [1], 0, 1, 1)).1

/-- Correct a codeword of 136 symbols: the word and the bytes corrected, or nothing when no codeword lies within four
errors. -/
def rsFix (cw : List Nat) : Option (List Nat × Nat) :=
  let ss := syndromes cw
  if ss.all (· == 0) then some (cw, 0)
  else
    let loc := locator ss
    let omega := (List.range 8).map (fun k =>
      (List.range (k + 1)).foldl (fun acc i => acc ^^^ gfMul (loc.getD i 0) (ss.getD (k - i) 0)) 0)
    let deriv := (List.range loc.length).map (fun i => if i % 2 = 0 then loc.getD (i + 1) 0 else 0)
    let bad := (List.range 136).filter (fun i => polyEval loc (gfInv (gfPow 2 (135 - i))) == 0)
    let fixed := (List.range 136).map (fun i =>
      if bad.contains i then
        let x := gfPow 2 (135 - i)
        let xi := gfInv x
        cw.getD i 0 ^^^ gfMul x (gfMul (polyEval omega xi) (gfInv (polyEval deriv xi)))
      else cw.getD i 0)
    if decide (bad.length ≤ 4) && cleanCw fixed then some (fixed, bad.length) else none

/-- The eight check symbols of 128 data symbols: the remainder of the division by the generator. -/
def rsParity (data : List Nat) : List Nat :=
  let gen := (List.range 8).foldl (fun g j => polyAdd (polyShift 1 g) (polyScale (gfPow 2 j) g)) [1]
  let low := gen.take 8
  let rem := data.foldl (fun (r : List Nat) c =>
    let f := r.getD 7 0 ^^^ c
    polyAdd (polyShift 1 (r.take 7)) (polyScale f low)) (List.replicate 8 0)
  rem.reverse

/-- Symbols at the even or odd places of a byte string. -/
def everyOther (k : Nat) (bs : List Byte) : List Nat :=
  (List.range (bs.length / 2)).map (fun i => (bs.getD (2 * i + k) 0).toNat)
def weave (a b : List Nat) : List Byte :=
  (List.range (2 * a.length)).map (fun i => BitVec.ofNat 8 ((if i % 2 = 0 then a else b).getD (i / 2) 0))

/-- R309: a 256-byte flit with its 16 bytes of parity, and the flit read from 272 received bytes with the count of bytes
corrected. A codeword that cannot be corrected is left as received. -/
def laneEncode (flit : List Byte) : List Byte :=
  flit ++ weave (rsParity (everyOther 0 flit)) (rsParity (everyOther 1 flit))
def laneDecode (raw : List Byte) : List Byte × Nat :=
  let fix := fun k => (rsFix (everyOther k raw)).getD (everyOther k raw, 0)
  let a := fix 0
  let b := fix 1
  ((weave a.1 b.1).take 256, a.2 + b.2)

end Sys2Proof.Machine
end

