-- ==== Sys2Proof/Machine/Links.lean ====
section
/-!
DEFINITION. The link ports (R309 to R324, R331): spraying, transmission under credits, retry, training and faults of a
port, and the flows between modules. Messages and their handlers stand in later files.
-/
namespace Sys2Proof.Machine

/-- R33: the module's own identifier. -/
def State.ownId (s : State) : Nat := s.rd F.MODULE_NUM_MODULE_ID

def State.port (s : State) (p : Nat) : Port := SMap.getD s.link.ports p Port.empty
def State.setPort (s : State) (p : Nat) (v : Port) : State :=
  { s with link := { s.link with ports := SMap.setD s.link.ports p v Port.empty } }
def State.portState (s : State) (p : Nat) : Nat := s.rd F.LINK_PORT_STATUS_STATE p

/-- R310: the first port and the size of each group of a plan. -/
def planGroups : Nat → List (Nat × Nat)
  | 0 => [(0, 32)]
  | 1 => [(0, 28), (28, 4)]
  | 2 => [(0, 24), (24, 8)]
  | 3 => [(0, 16), (16, 16)]
  | 4 => [(0, 8), (8, 8), (16, 8), (24, 8)]
  | 5 => [(0, 16), (16, 8), (24, 8)]
  | _ => []
/-- The group of a port under the plan: its number, first port and size. -/
def State.groupOf (s : State) (p : Nat) : Option (Nat × Nat × Nat) :=
  let gs := planGroups (s.rd F.LINK_PLAN_PLAN)
  ((List.range gs.length).map (fun g => (g, gs.getD g (0, 0)))).find? (fun e => decide (e.2.1 ≤ p) && decide (p < e.2.1 + e.2.2))
/-- R331: GROUP of every port under the plan. -/
def State.portGroups (s : State) : State :=
  (List.range 32).foldl (fun (s : State) p => s.wr F.LINK_PORT_STATUS_GROUP (match s.groupOf p with
    | some (g, _, _) => g
    | none => 0) p) s
/-- R311: the class of a port's group, 0 for none. -/
def State.portClass (s : State) (p : Nat) : Nat :=
  match s.groupOf p with
  | some (g, _, _) => s.rd F.GROUP_CFG_CLASS g
  | none => 0
/-- Lanes in use, from WIDTH. -/
def State.portWidth (s : State) (p : Nat) : Nat :=
  match s.rd F.LINK_PORT_STATUS_WIDTH p with
  | 1 => 1
  | 2 => 2
  | 3 => 4
  | _ => 0

/-- R319, R324: a port takes flits while UP or DEGRADED and not being disabled. -/
def State.portUsable (s : State) (p : Nat) : Bool :=
  decide (p < 32) && (decide (s.portState p = 3) || decide (s.portState p = 4)) && (s.port p).drain.isNone

/-- R319: the ports a message for `m` is sprayed over. -/
def State.routePorts (s : State) (m : Nat) : List Nat :=
  let of := fun mask => (List.range 32).filter (fun p => bitOf mask p && s.portUsable p)
  let a := of (s.rd F.ROUTE_PRIMARY m)
  if a.isEmpty then of (s.rd F.ROUTE_ALT m) else a

/-- R320: the ports of the first `n` rounds, in order: a port of width w takes part in w of every 4 rounds. -/
def sprayOrder (ports : List (Nat × Nat)) (n : Nat) : List Nat :=
  (List.range n).flatMap (fun r => (ports.filter (fun e => decide (r % 4 < e.2))).map (·.1))
/-- The ports of `n` successive flits. -/
def State.sprayOver (s : State) (ports : List Nat) (n : Nat) : List Nat :=
  (sprayOrder (ports.map (fun p => (p, s.portWidth p))) (4 * n + 4)).take n

/-- R316: the 256 bytes of a DATA flit on a hop. -/
def flitBytes (f : Flit) (lseq lack : Nat) : List Byte :=
  let h := 1 + 8 * f.vc + 32 * b2n f.last + 2 ^ 6 * f.dst + 2 ^ 19 * f.src + 2 ^ 32 * lseq + 2 ^ 44 * lack +
    2 ^ 56 * (f.flow % 256) + 2 ^ 64 * (f.fseq % 2 ^ 32)
  let b := toBytes h 12 ++ (f.payload ++ List.replicate (240 - f.payload.length) 0)
  b ++ toBytes (crc32c b).toNat 4

/-- R318: which virtual channel sends next: 0, then 1, then 2 and 3 by weighted round robin; `can v` says that channel v has
a flit and a credit. The new shares are returned. -/
def nextVc (w2 w3 : Nat) (can : Nat → Bool) (s2 s3 : Nat) : Option (Nat × Nat × Nat) :=
  if can 0 then some (0, s2, s3)
  else if can 1 then some (1, s2, s3)
  else
    let fresh := decide (s2 = 0) && decide (s3 = 0) || (!can 2 && decide (s3 = 0)) || (!can 3 && decide (s2 = 0))
    let a := if fresh then w2 else s2
    let b := if fresh then w3 else s3
    if can 2 && decide (0 < a) then some (2, a - 1, b)
    else if can 3 && decide (0 < b) then some (3, a, b - 1)
    else none

/-- R317, R318: send one flit of a port's transmit queue, if the port carries traffic, the replay buffer has room and a
channel has a flit and a credit. -/
def State.sendOne (s : State) (p : Nat) : Option State :=
  let v := s.port p
  if (decide (s.portState p = 3) || decide (s.portState p = 4)) && decide (v.replay.length < 1024) then
    let can := fun c => (v.queue.any (fun f => decide (f.vc = c))) && decide (0 < v.credits.getD c 0)
    match nextVc (s.rd F.LINK_VC_CFG_W2) (s.rd F.LINK_VC_CFG_W3) can v.share2 v.share3 with
    | none => none
    | some (c, s2, s3) =>
      match v.queue.find? (fun f => decide (f.vc = c)) with
      | none => none
      | some f =>
        let lack := (v.expect + 4095) % 4096
        let v' : Port := { v with
          queue := v.queue.erase f, replay := v.replay ++ [(v.next, s.now, f)], next := (v.next + 1) % 4096,
          credits := v.credits.set c (v.credits.getD c 0 - 1), share2 := s2, share3 := s3 }
        some (((s.setPort p v').bump F.LINK_CNT_COUNT 1 (8 * p)).emit (.flit p (flitBytes f v.next lack)))
  else none
/-- Send what a port can send. -/
def State.pumpN (s : State) (p : Nat) : Nat → State
  | 0 => s
  | n + 1 =>
    match s.sendOne p with
    | some s1 => s1.pumpN p n
    | none => s
def State.pump (s : State) (p : Nat) : State := s.pumpN p (s.port p).queue.length

/-- Put flits on ports' transmit queues, then send. -/
def State.enqueue (s : State) (fs : List (Nat × Flit)) : State :=
  let s1 := fs.foldl (fun (s : State) e => s.setPort e.1 { s.port e.1 with queue := (s.port e.1).queue ++ [e.2] }) s
  (List.range 32).foldl (fun s p => if fs.any (fun e => decide (e.1 = p)) then s.pump p else s) s1

/-- Key of a flow (R320): the other module, the virtual channel and the flow label. -/
def flowKey (m vc flow : Nat) : Nat := (m * 4 + vc) * 256 + flow
def State.txFlow (s : State) (k : Nat) : TxFlow := SMap.getD s.link.tx k { next := 0, unacked := [] }
def State.setTx (s : State) (k : Nat) (v : TxFlow) : State :=
  { s with link := { s.link with tx := SMap.setD s.link.tx k v { next := 0, unacked := [] } } }
def State.rxFlow (s : State) (k : Nat) : RxFlow := SMap.getD s.link.rx k RxFlow.empty
def State.setRx (s : State) (k : Nat) (v : RxFlow) : State :=
  { s with link := { s.link with rx := SMap.setD s.link.rx k v RxFlow.empty } }
/-- The flows of one module. -/
def flowOf (m k : Nat) : Bool := decide (k / 1024 = m)
/-- Whether flits to a module are outstanding (R322). -/
def State.outstanding (s : State) (m : Nat) : Bool := s.link.tx.any (fun e => flowOf m e.1 && !e.2.unacked.isEmpty)

/-- R322: whether a destination is declared unreachable. -/
def State.unreachable (s : State) (m : Nat) : Bool := (SMap.find? s.link.dead m).isSome

/-- Cut a byte string into payloads of 240 bytes. -/
def payloads : Nat → List Byte → List (List Byte)
  | 0, _ => []
  | n + 1, bs => if bs.length ≤ 240 then [bs] else bs.take 240 :: payloads n (bs.drop 240)

/-- R320: spray a message over its route. The model uses one flow label, 0, for each destination and virtual channel
(notes/assumptions/22). -/
def State.spray (s : State) (dst vc : Nat) (bytes : List Byte) : State :=
  let ps := payloads (bytes.length / 240 + 1) bytes
  let k := flowKey dst vc 0
  let t := s.txFlow k
  let fl := (List.range ps.length).map (fun i =>
    let f : Flit := { vc := vc, last := decide (i + 1 = ps.length), dst := dst, src := s.ownId, flow := 0,
                      fseq := (t.next + i) % 2 ^ 32, payload := ps.getD i [] }
    f)
  let ports := s.sprayOver (s.routePorts dst) ps.length
  let pairs := ports.zip fl
  let s1 := if s.outstanding dst then s
    else { s with link := { s.link with heard := SMap.insert s.link.heard dst s.now } }
  let sent := pairs.map (fun e => ({ flit := e.2, ports := [e.1] } : SentFlit))
  (s1.setTx k { next := (t.next + ps.length) % 2 ^ 32, unacked := t.unacked ++ sent }).enqueue pairs

/-- R325: the virtual channel of a message type, where the type is known. -/
def msgVc (ty : Nat) : Option Nat :=
  if ty = 4 then some 3
  else if 1 ≤ ty ∧ ty ≤ 7 then some 1
  else if ty = 0x10 ∨ ty = 0x11 then some 2
  else if ty = 0x26 ∨ ty = 0x28 then some 3
  else if 0x20 ≤ ty ∧ ty ≤ 0x2D then some 0
  else if ty = 0x30 ∨ ty = 0x31 then some 1
  else none

/-- R325: the bytes of a message: its 32-byte header and its body. -/
def msgBytes (ty ref : Nat) (arg body : List Byte) : List Byte :=
  toBytes ty 2 ++ toBytes 0 2 ++ toBytes body.length 4 ++ toBytes ref 8 ++ (arg ++ List.replicate (16 - arg.length) 0).take 16 ++ body

/-- R319, R322, R323, R325: hand a message to the links. One to the module itself never leaves it; to an unreachable
destination it completes at once; without a usable port it waits. -/
def State.sendMsg (s : State) (dst ty ref : Nat) (arg body : List Byte) : State :=
  if dst = s.ownId then
    { s with link := { s.link with inbox := s.link.inbox ++ [{ src := dst, ty := ty, ref := ref, arg := arg, body := body }] } }
  else if s.unreachable dst then s.emit (.undelivered dst ty false)
  else
    let vc := (msgVc ty).getD 1
    let b := msgBytes ty ref arg body
    let s1 := s.emit (.message dst ty ref arg body)
    if (s.routePorts dst).isEmpty then
      { s1 with link := { s1.link with
        waiting := s1.link.waiting ++ [{ dst := dst, ty := ty, vc := vc, bytes := b, since := s.now }] } }
    else s1.spray dst vc b

/-- R323: send the waiting messages that have a route now. -/
def State.flushWaiting (s : State) : State :=
  s.link.waiting.foldl (fun (s : State) w =>
    if (s.routePorts w.dst).isEmpty then
      { s with link := { s.link with waiting := s.link.waiting ++ [w] } }
    else s.spray w.dst w.vc w.bytes) { s with link := { s.link with waiting := [] } }

/-- R324: flits taken off a port are sprayed again over the remaining ports of their routes, and counted. Flits without a
route stay with their sender, which resends them under R322. -/
def State.respray (s : State) (p : Nat) : State :=
  let v := s.port p
  let fs := v.replay.map (·.2.2) ++ v.queue
  let s1 := s.setPort p { v with replay := [], queue := [], tries := 0 }
  let place := fun (acc : List (Nat × Flit)) (f : Flit) =>
    let ports := (s1.routePorts f.dst).filter (fun q => decide (q ≠ p))
    let n := (acc.filter (fun e => decide (e.2.dst = f.dst))).length
    match (s1.sprayOver ports (n + 1)).getLast? with
    | some q => acc ++ [(q, f)]
    | none => acc
  (s1.bump F.LINK_MOD_CNT_COUNT fs.length 0).enqueue (fs.foldl place [])

/-- R312: a port changes state; sessions receive a LINK event (R299). -/
def State.portTo (s : State) (p st cause : Nat) : State :=
  ((s.wr F.LINK_PORT_STATUS_STATE st p).wr F.LINK_PORT_STATUS_CAUSE cause p).broadcast 0x8008 1
    (toBytes p 1 ++ toBytes st 1 ++ toBytes cause 1)

/-- R315, R324: a fault of a port: it goes to RETRAIN, or to FAILED on the fourth fault within 10 s; its flits are
resprayed. -/
def State.portFault (s : State) (p cause : Nat) : State :=
  let v := s.port p
  let recent := v.faults.filter (fun t => decide (s.now < t + 10000000000))
  let s1 := s.setPort p { v with faults := s.now :: recent, phase := 0, since := s.now }
  ((s1.portTo p (if 3 ≤ recent.length then 6 else 5) cause).wr F.LINK_PORT_STATUS_WIDTH 0 p).respray p

/-- R312, R331: a port leaves service by command: DISABLED, its flits resprayed. -/
def State.portOff (s : State) (p : Nat) : State :=
  let v := s.port p
  let s1 := (s.setPort p { v with phase := 0, drain := none }).portTo p 0 0
  (s1.wr F.LINK_PORT_STATUS_WIDTH 0 p).respray p

/-- R311, R331: an enabled port whose group has a class begins to look for its partner. -/
def State.portOn (s : State) (p : Nat) : State :=
  if s.portClass p = 0 then s
  else (s.setPort p { Port.empty with since := s.now }).portTo p 1 0

def onPort (p : Nat) (r : Res) : Res := if p < 32 then r else .refused (.noSuchUnit "link port")
/-- R33, R312: a port carries traffic: it is UP or DEGRADED, and the module has its identifier, without which it accepts nothing
but link training. -/
def State.carries (s : State) (p : Nat) : Bool :=
  (decide (s.portState p = 3) || decide (s.portState p = 4)) && s.flag F.MODULE_NUM_ID_VALID
/-- R33: without its identifier the module accepts no message; one delivered before stays in the inbox until it is handled. -/
def State.closed (s : State) (src ty : Nat) : Bool :=
  !s.flag F.MODULE_NUM_ID_VALID && !s.link.inbox.any (fun m => decide (m.src = src) && decide (m.ty = ty))

/-- R313: the largest width that the good lanes support. -/
def widthOf (lanes : Nat) : Nat := if 4 ≤ lanes then 4 else if 2 ≤ lanes then 2 else lanes
def widthCode (w : Nat) : Nat := if w = 4 then 3 else w

/-- R314, R330: what phase 4 finds wrong, as a cause code. -/
def State.identifyFault (s : State) (p : Nat) (q : Partner) : Option Nat :=
  match s.groupOf p with
  | none => some 6
  | some (g, first, size) =>
    if q.cls ≠ s.rd F.GROUP_CFG_CLASS g then some 6
    else if s.rd F.GROUP_CFG_CLASS g = 1 then
      if q.isSwitch ∨ q.id ≠ s.rd F.GROUP_CFG_PEER g ∨ q.offset ≠ p - first ∨ q.size ≠ size then some 4 else none
    else if q.isSwitch then none else some 4

/-- R313: the training bound of a class, in nanoseconds. -/
def trainBound (cls : Nat) : Nat := if cls = 1 then 20000000 else if cls = 2 then 100000000 else 300000000

/-- RETRAIN (R315, R331): a write of 1 to LINK_PORT_CFG.RETRAIN. A port that is being disabled stays so (R330). -/
def State.retrain (s : State) (p : Nat) : State :=
  if (s.portState p = 3 ∨ s.portState p = 4) ∧ (s.port p).drain = none then s.portFault p 0 else s
/-- ENABLE_PORT (R331): a write of LINK_PORT_CFG.ENABLE. -/
def State.enablePort (s : State) (p : Nat) (en : Bool) : State :=
  let s1 := s.wrFlag F.LINK_PORT_CFG_ENABLE en p
  if en then (if s.portState p = 0 ∧ ¬ s.stew.disabled.contains (.linkPort, p) then s1.portOn p else s1)
  else if s.portState p = 0 then s1 else s1.portOff p
/-- R317: everything up to LACK is acknowledged on the hop; the port can send again. -/
def State.hopAck (s : State) (p lack : Nat) : State :=
  let v := s.port p
  let keep := v.replay.filter (fun e => decide (2048 ≤ (lack + 4096 - e.1) % 4096))
  if keep.length < v.replay.length then (s.setPort p { v with replay := keep, tries := 0 }).pump p else s

/-- R317: go-back-N from link sequence `lseq`; eight replays in a row without acknowledgement put the port into
RETRAIN. -/
def State.replayFrom (s : State) (p lseq : Nat) : State :=
  let v := s.port p
  if 8 ≤ v.tries then s.portFault p 3
  else
    let again := v.replay.filter (fun e => decide ((e.1 + 4096 - lseq) % 4096 < 2048))
    let lack := (v.expect + 4095) % 4096
    let s1 := s.setPort p { v with tries := v.tries + 1, replay := v.replay.map (fun e => (e.1, s.now, e.2.2)) }
    let s2 := (s1.bump F.LINK_CNT_COUNT again.length (8 * p + 4)).bump F.LINK_CNT_COUNT again.length (8 * p)
    again.foldl (fun (s : State) e => s.emit (.flit p (flitBytes e.2.2 e.1 lack))) s2

/-- CREDIT_RECEIVE (R318): a CREDIT flit returns `n` credits of a virtual channel, and acknowledges up to `lack`. -/
def execCreditReceive (p vc n lack : Nat) (s : State) : Res :=
  onPort p (.next (
    if s.carries p ∧ vc < 4 then
      let s1 := s.hopAck p lack
      let v := s1.port p
      (s1.setPort p { v with credits := v.credits.set vc (v.credits.getD vc 0 + n) }).pump p
    else s))

/-- R325, R330: a message or flit is discarded, counted and recorded. -/
def State.malformed (s : State) (src : Nat) : State :=
  (s.bump F.LINK_MOD_CNT_COUNT 1 6).detect { errOf 0x1B 0 src 4 with detail := src }

/-- R325: a message whose last flit has been delivered in order. -/
def State.arrive (s : State) (src : Nat) (bytes : List Byte) : State :=
  let ty := ofBytes (bytes.take 2)
  let len := ofBytes ((bytes.drop 4).take 4)
  if (msgVc ty).isNone ∨ bytes.length < 32 + len then s.malformed src
  else
    let m : InMsg := { src := src, ty := ty, ref := ofBytes ((bytes.drop 8).take 8), arg := (bytes.drop 16).take 16,
                       body := (bytes.drop 32).take len }
    { s with link := { s.link with inbox := s.link.inbox ++ [m] } }

/-- R320, R322: deliver a flit in order; after every 64 the receiver acknowledges. -/
def State.deliverFlit (s : State) (k : Nat) (f : Flit) : State :=
  let r := s.rxFlow k
  let bytes := r.part ++ (f.payload ++ List.replicate (240 - f.payload.length) 0)
  let n := r.count + 1
  let r' : RxFlow := { r with
    expect := (r.expect + 1) % 2 ^ 32, part := if f.last then [] else bytes, count := if n = 64 then 0 else n,
    lastAt := s.now }
  let s1 := s.setRx k r'
  let s2 := if n = 64 then s1.emit (.e2eAck f.src f.vc f.flow f.fseq) else s1
  if f.last then s2.arrive f.src bytes else s2

/-- Deliver held flits that have become next in order. -/
def State.deliverHeld (s : State) (k : Nat) : Nat → State
  | 0 => s
  | n + 1 =>
    let r := s.rxFlow k
    match r.store.find? (fun e => decide (e.1 = r.expect)) with
    | some e => ((s.setRx k { r with store := r.store.erase e }).deliverFlit k e.2).deliverHeld k n
    | none => s.setRx k { r with gapSince := if r.store.isEmpty then none else r.gapSince }

/-- R321: flits in the reorder store. -/
def State.reorderUsed (s : State) : Nat := s.link.rx.foldl (fun a e => a + e.2.store.length) 0

/-- R320, R321: a flit reaches its module: delivered, held, or discarded. A duplicate that finds the reorder store full is counted
under both rules. -/
def State.takeFlit (s : State) (f : Flit) : State :=
  if f.src = s.ownId then s.malformed f.src
  else
    let k := flowKey f.src f.vc f.flow
    let r := s.rxFlow k
    if f.fseq = r.expect then (s.deliverFlit k f).deliverHeld k (r.store.length + 1)
    else
      let again := decide (2 ^ 31 ≤ (f.fseq + 2 ^ 32 - r.expect) % 2 ^ 32) || r.store.any (fun e => decide (e.1 = f.fseq))
      let s1 := if again then s.bump F.LINK_MOD_CNT_COUNT 1 3 else s
      if 16384 ≤ s.reorderUsed then s1.bump F.LINK_MOD_CNT_COUNT 1 2
      else if again then s1
      else s.setRx k { r with store := r.store ++ [(f.fseq, f)], gapSince := some (r.gapSince.getD s.now) }

/-- DATA_FLIT_RECEIVE (R309, R317, R318, R320, R321): 272 bytes arrive on a port. Up to four byte errors a codeword are
corrected; a flit that fails its CRC or leaves a gap in LSEQ is answered with a NAK and discarded. -/
def execDataFlitReceive (p : Nat) (raw : List Byte) (s : State) : Res :=
  onPort p (.next (
    if s.carries p then
      let d := laneDecode raw
      let s1 := (s.bump F.LINK_CNT_COUNT 1 (8 * p + 1)).bump F.LINK_CNT_COUNT d.2 (8 * p + 3)
      let v := s1.port p
      let nak := fun (s : State) => if v.nakSent then s
        else ((s.setPort p { v with nakSent := true }).bump F.LINK_CNT_COUNT 1 (8 * p)).emit (.nak p v.expect)
      let n := ofBytes d.1
      if bitsOf n (8 * 252) 32 ≠ (crc32c (d.1.take 252)).toNat then
        nak ((s1.bump F.LINK_CNT_COUNT 1 (8 * p + 2)).detect (errOf 0x11 0 p 4))
      else if bitsOf n 0 3 ≠ 1 then s1
      else
        let lseq := bitsOf n 32 12
        if lseq ≠ v.expect then (if (lseq + 4096 - v.expect) % 4096 < 2048 then nak s1 else s1)
        else
          let s2 := s1.setPort p { v with expect := (v.expect + 1) % 4096, nakSent := false }
          let s3 := s2.hopAck p (bitsOf n 44 12)
          let vc := bitsOf n 3 2
          let s4 := (s3.bump F.LINK_CNT_COUNT 1 (8 * p)).emit (.credit p vc 1 lseq)
          let f : Flit := { vc := vc, last := bitOf n 5, dst := bitsOf n 6 13, src := bitsOf n 19 13,
                            flow := bitsOf n 56 8, fseq := bitsOf n 64 32, payload := (d.1.drop 12).take 240 }
          s4.takeFlit f
    else s))

/-- E2E_ACK_TIMER (R322): 2 µs after the last in-order flit of a flow, the receiver acknowledges. -/
def execE2eAckTimer (src vc flow : Nat) (s : State) : Res :=
  .next (
    let k := flowKey src vc flow
    let r := s.rxFlow k
    if 0 < r.count ∧ r.lastAt + 2000 ≤ s.now then
      (s.setRx k { r with count := 0 }).emit (.e2eAck src vc flow ((r.expect + 2 ^ 32 - 1) % 2 ^ 32))
    else s)

/-- REORDER_TIMEOUT (R322): a gap has lasted REORDER_US; the missing range is named. -/
def execReorderTimeout (src vc flow : Nat) (s : State) : Res :=
  .next (
    let k := flowKey src vc flow
    let r := s.rxFlow k
    match r.gapSince with
    | some t =>
      if t + 1000 * s.rd F.LINK_TIMING_REORDER_US ≤ s.now then
        let first := r.store.foldl (fun a e => min a ((e.1 + 2 ^ 32 - r.expect) % 2 ^ 32)) (2 ^ 32)
        (s.setRx k { r with gapSince := some s.now }).emit
          (.e2eMissing src vc flow r.expect ((r.expect + first + 2 ^ 32 - 1) % 2 ^ 32))
      else s
    | none => s)

/-- E2E_RECEIVE (R322): a destination acknowledges a flow up to `ack`, or names a missing range, which is resent on ports
other than those that carried it, where the route has any. -/
def execE2eReceive (dst vc flow : Nat) (ack : Option Nat) (missing : Option (Nat × Nat)) (s : State) : Res :=
  .next (if !s.flag F.MODULE_NUM_ID_VALID then s else
    let k := flowKey dst vc flow
    let s0 := if (s.txFlow k).unacked.isEmpty then s
      else { s with link := { s.link with heard := SMap.insert s.link.heard dst s.now } }
    let t := s0.txFlow k
    let s1 := match ack with
      | some a => s0.setTx k { t with unacked := t.unacked.filter (fun e =>
          decide (2 ^ 31 ≤ (a + 2 ^ 32 - e.flit.fseq) % 2 ^ 32)) }
      | none => s0
    match missing with
    | none => s1
    | some (lo, hi) =>
      let t1 := s1.txFlow k
      let named := t1.unacked.filter (fun e =>
        decide ((e.flit.fseq + 2 ^ 32 - lo) % 2 ^ 32 ≤ (hi + 2 ^ 32 - lo) % 2 ^ 32))
      let ports := s1.routePorts dst
      let place := fun (acc : List (Nat × Flit)) (e : SentFlit) =>
        let others := ports.filter (fun p => !e.ports.contains p)
        match (s1.sprayOver (if others.isEmpty then ports else others) (acc.length + 1)).getLast? with
        | some q => acc ++ [(q, e.flit)]
        | none => acc
      let placed := named.foldl place []
      let s2 := s1.setTx k { t1 with unacked := t1.unacked.map (fun e =>
        { e with ports := e.ports ++ (placed.filter (fun q => decide (q.2 = e.flit))).map (·.1) }) }
      (s2.bump F.LINK_MOD_CNT_COUNT placed.length 1).enqueue placed)

/-- R322: a destination is silent for E2E_DEAD_US while flits to it are outstanding. -/
def State.e2eSilent (s : State) (m : Nat) : Bool :=
  s.outstanding m && !s.unreachable m &&
  decide (SMap.getD s.link.heard m 0 + 10000 * s.rd F.LINK_TIMING_E2E_DEAD_US ≤ s.now)

/-- R322: the declaration: counted, recorded, and everything held for the destination discarded. What follows for the
issuers stands in Machine/Peers.lean. -/
def State.declareDead (s : State) (m : Nat) : State :=
  let s1 := (s.bump F.LINK_MOD_CNT_COUNT 1 5).detect { errOf 0x12 0 m 4 with detail := m }
  let ports := SMap.mapVals s1.link.ports (fun _ (v : Port) => { v with queue := v.queue.filter (fun f => decide (f.dst ≠ m)) })
  { s1 with link := { s1.link with
    ports := ports, tx := SMap.mapVals s1.link.tx (fun k (v : TxFlow) => if flowOf m k then { v with unacked := [] } else v),
    waiting := s1.link.waiting.filter (fun w => decide (w.dst ≠ m)), dead := SMap.insert s1.link.dead m s1.now } }

/-- PROBE (R322, R325): `inbound`: a PROBE from module `m` arrives: with RESET_FLOWS every flow from it starts again at 0
and what is held is discarded; it is answered. Otherwise the module sends its own PROBE to an unreachable destination, 1 ms
after the last. `time` is the sender's module time in the message. -/
def execProbe (m : Nat) (inbound reset : Bool) (time : Nat) (s : State) : Res :=
  if m < 8192 then
    .next (if inbound then if !s.flag F.MODULE_NUM_ID_VALID then s else
      let s1 := if reset then { s with link := { s.link with rx := SMap.keep s.link.rx (fun k _ => !flowOf m k) } } else s
      s1.sendMsg m 0x31 0 (toBytes time 8 ++ toBytes s1.now 8) []
    else match SMap.find? s.link.dead m with
      | none => s
      | some t =>
        if s.now < t + 1000000 then s
        else
          let b := msgBytes 0x30 0 (toBytes s.now 8 ++ [1#8]) []
          let s1 := { s with link := { s.link with dead := SMap.insert s.link.dead m s.now } }
          let f : Flit := { vc := 1, last := true, dst := m, src := s.ownId, flow := 0, fseq := 0, payload := b }
          (s1.emit (.message m 0x30 0 (toBytes s.now 8 ++ [1#8]) [])).enqueue (((s1.routePorts m).take 1).map (fun p => (p, f))))
  else .refused (.noSuchUnit "module")

/-- PROBE_REPLY (R322): the declaration is cleared and every flow to the destination starts at FSEQ 0. -/
def execProbeReply (m : Nat) (s : State) : Res :=
  if m < 8192 then
    .next (if s.unreachable m ∧ s.flag F.MODULE_NUM_ID_VALID then
      { s with link := { s.link with
        dead := SMap.erase s.link.dead m, tx := SMap.keep s.link.tx (fun k _ => !flowOf m k),
        heard := SMap.erase s.link.heard m } }
    else s)
  else .refused (.noSuchUnit "module")

/-- ROUTE (R319, R331): a write of a routing entry. Flits on ports stay; messages that waited may have a route now. -/
def State.setRoute (s : State) (m primary alt : Nat) : State :=
  ((s.wr F.ROUTE_PRIMARY primary m).wr F.ROUTE_ALT alt m).flushWaiting

/-- MALFORMED_MSG (R325, R327, R330): a message of an unknown type, an inconsistent part, or a flit whose SRC is the
receiver's own identifier, is discarded and counted. The waiting message that it was, if any, leaves the inbox. -/
def State.takeInbox (s : State) (src ty : Nat) : State :=
  match s.link.inbox.find? (fun m => decide (m.src = src) && decide (m.ty = ty)) with
  | some m => { s with link := { s.link with inbox := s.link.inbox.erase m } }
  | none => s
def execMalformedMsg (src ty : Nat) (s : State) : Res := .next ((s.takeInbox src ty).malformed src)

/-- R307: the state of a velvet edge follows its modules in service. -/
def State.edgeState (s : State) (e : Nat) : State :=
  let up := s.rd F.VELVET_EDGE_MODULES_UP e
  let st := if up = 0 then 0 else if up = 0xFFFF then 1 else 2
  if s.rd F.VELVET_EDGE_STATE e = st then s
  else (s.wr F.VELVET_EDGE_STATE st e).broadcast 0x8008 1
    (toBytes (0x80 + e) 1 ++ toBytes (if st = 0 then 1 else if st = 1 then 3 else 4) 1 ++ toBytes 0 1)

def onEdge (e j : Nat) (r : Res) : Res := if e < 6 ∧ j < 16 then r else .refused (.noSuchUnit "velvet module")
def State.crcTimes (s : State) (e j : Nat) : List Nat :=
  (SMap.getD s.link.crcAt (16 * e + j) []).filter (fun t => decide (s.now < t + 1000000))

/-- VELVET_REPLAY (R307): a velvet flit on module `j` of edge `e` fails its CRC, and `n` flits are replayed. -/
def execVelvetReplay (e j n : Nat) (s : State) : Res :=
  onEdge e j (.next (
    let s1 := (s.bump F.VELVET_RETRY_COUNT n e).detect (errOf 0x10 0 e 4)
    { s1 with link := { s1.link with crcAt := SMap.insert s1.link.crcAt (16 * e + j) (s1.now :: s1.crcTimes e j) } }))

end Sys2Proof.Machine
end

