-- ==== Sys2Proof/Machine/Journal.lean ====
section
/-!
DEFINITION. The journal (R338 to R346): records and their bytes, creation and sending, replies that wait for their records,
holding, heartbeats and the partner's mirror. Commits, takeover and pairing stand in later files.
-/
namespace Sys2Proof.Machine

/-- R366: JOURNAL_STATUS.STATE: 0 NONE, 1 PAIRING, 2 RESYNC, 3 ACTIVE, 4 HOLDING, 5 FENCED. -/
def State.jState (s : State) : Nat := s.rd F.JOURNAL_STATUS_STATE
def State.setJState (s : State) (v : Nat) : State := s.wr F.JOURNAL_STATUS_STATE v
/-- R344: tokens commit, replies leave and slots are freed only while ACTIVE. -/
def State.jActive (s : State) : Bool := decide (s.jState = 3)

/-- R338: KIND of a payload. -/
def payKind : JPay → Nat
  | .accept .. => 1
  | .commit .. => 2
  | .final .. => 3
  | .reply .. => 4
  | .session .. => 5
  | .configReg .. => 6
  | .configProt .. => 6
  | .install .. => 7
  | .pfx .. => 8
  | .delivered .. => 9
  | .cancel .. => 10
  | .status .. => 11

/-- R281: the wrapped bytes of a session; the wrapping key and cipher are not given: free values. -/
def wrapped (i n : Nat) : List Byte := (List.range n).map (fun k => BitVec.ofNat 8 (Config.freeNat (2 ^ 64 + i * 4096 + k)))

/-- The bytes of a payload, its fields packed in the order of R338 (widths: notes/assumptions/23). -/
def payBytes : JPay → List Byte
  | .accept session sub tenant desc input =>
      toBytes session 2 ++ toBytes sub 8 ++ toBytes tenant 2 ++ toBytes desc.toNat 64 ++ input
  | .commit toks => toks.flatMap (fun e => toBytes e.1 4 ++ toBytes e.2 4)
  | .final r => r
  | .reply _ _ session seq tag op status detail body =>
      toBytes session 2 ++ toBytes seq 8 ++ toBytes tag.toNat 16 ++ toBytes op 2 ++ toBytes status 2 ++ toBytes detail 4 ++ body
  | .session i v rings => toBytes i 2 ++ (match v with
      | some v => wrapped i (1024 + 64 * v.journal.length + 64 * rings.length)
      | none => [])
  | .configReg a v => toBytes a 4 ++ toBytes v 4
  | .configProt k i v => toBytes k 1 ++ toBytes i 2 ++ toBytes v 32
  | .install h d c => toBytes h 2 ++ d ++ toBytes c 1
  | .pfx h t p r j rel => toBytes h 8 ++ toBytes t 2 ++ toBytes p 8 ++ toBytes r 4 ++ toBytes j 8 ++ toBytes (b2n rel) 1
  | .delivered ms => ms.flatMap (fun e => toBytes e.1 2 ++ toBytes e.2 4)
  | .cancel session sub => toBytes session 2 ++ toBytes sub 8
  | .status session seq body => toBytes session 2 ++ toBytes seq 8 ++ body

/-- R338: the bytes of a record, padded to a multiple of 16. -/
def jrecBytes (r : JRec) : List Byte :=
  let b := payBytes r.pay
  toBytes r.jsn 8 ++ toBytes (payKind r.pay) 1 ++ toBytes 0 1 ++ toBytes r.slot 2 ++ toBytes b.length 4 ++ b ++
  List.replicate ((16 - b.length % 16) % 16) 0
def jrecSize (r : JRec) : Nat := (jrecBytes r).length
def recsSize (rs : List JRec) : Nat := rs.foldl (fun a r => a + jrecSize r) 0

/-- R338: create a record with the next JSN; `origin` as in `JRec`. -/
def State.newRecordFor (s : State) (origin : Option Nat) (slot : Nat) (pay : JPay) : State :=
  let n := s.rd F.JOURNAL_JSN_VALUE + 1
  let s1 := s.wr F.JOURNAL_JSN_VALUE n
  { s1 with jr := { s1.jr with queue := s1.jr.queue ++ [{ jsn := n, slot := slot, pay := pay, sent := none, origin := origin }] } }
def State.newRecord (s : State) (slot : Nat) (pay : JPay) : State := s.newRecordFor none slot pay

/-- The records not yet sent. -/
def State.unsent (s : State) : List JRec := s.jr.queue.filter (fun r => r.sent.isNone)

/-- R343: the 1 GiB reserve. -/
def jrReserve : Nat := 0x40000000
/-- R338: the mirror region. -/
def mirrorBytes : Nat := 0x400000000
/-- R343: a record of `n` bytes would leave less than the reserve free. -/
def State.jrTight (s : State) (n : Nat) : Bool := decide (s.jr.free < recsSize s.unsent + n + jrReserve)

/-- Send a JRNL_RECORDS or RESYNC_DATA message with `rs` and mark them sent; only the first stands for a heartbeat (R346). -/
def State.sendRecords (s : State) (dst ty : Nat) (rs : List JRec) : State :=
  let s1 := s.sendMsg dst ty 0 [] (rs.flatMap jrecBytes)
  let mark := fun (r : JRec) => if rs.any (fun q => decide (q.jsn = r.jsn)) then { r with sent := some s.now } else r
  { s1 with jr := { s1.jr with
    queue := s1.jr.queue.map mark, free := s1.jr.free - recsSize rs, sentAt := if ty = 0x20 then s.now else s1.jr.sentAt,
    batchAt := s.now } }

/-- JOURNAL_BATCH (R342, R343): 1 µs after the last batch, or with 64 KiB waiting, the unsent records leave, with a
DELIVERED record of the slots with progress. After a refused batch they wait for free bytes of their size. -/
def execJournalBatch (s : State) : Res :=
  .next (match s.jr.partner with
    | none => s
    | some p =>
      if (s.unsent.isEmpty ∧ s.jr.progress.isEmpty) ∨ s.jr.refused ∨
        (s.now < s.jr.batchAt + 1000 ∧ recsSize s.unsent < 65536) then s
      else
        let marks := s.jr.progress.map (fun k => (k, SMap.getD s.jr.written k 0))
        let s1 := if marks.isEmpty then s else s.newRecord 0xFFFF (.delivered marks)
        let s2 := { s1 with jr := { s1.jr with progress := [] } }
        s2.sendRecords p 0x20 s2.unsent)

/-- R342: JOURNAL_STATUS.MIRROR_MAX. -/
def State.noteRound (s : State) (t : Nat) : State :=
  s.wr F.JOURNAL_STATUS_MIRROR_MAX (max (s.rd F.JOURNAL_STATUS_MIRROR_MAX) (min ((s.now - t) / 100) 65535))

/-- R346: HB and TIMEOUT in nanoseconds. -/
def State.hbNs (s : State) : Nat := 10000 * s.rd F.JOURNAL_TIMING_HB
def State.timeoutNs (s : State) : Nat := 100000 * s.rd F.JOURNAL_TIMING_TIMEOUT

/-- JOURNAL_HB_TIMER (R346): HB without a journal message to the partner. ARG of a heartbeat is the sender's state. -/
def execJournalHbTimer (s : State) : Res :=
  .next (match s.jr.partner with
    | none => s
    | some p =>
      if s.now < s.jr.sentAt + s.hbNs then s
      else
        let s1 := s.sendMsg p 0x22 0 (toBytes s.jState 1) []
        { s1 with jr := { s1.jr with sentAt := s.now } })

/-- R338, R343: bytes of the partner's records held. -/
def State.mirrorUsed (s : State) : Nat := s.jr.mirror.foldl (fun a e => a + jrecSize e.1) 0
def State.mirrorFree (s : State) : Nat := mirrorBytes - s.mirrorUsed

/-- R340, R343: acknowledge to the partner the highest JSN held without a gap. -/
def State.sendAck (s : State) (p : Nat) : State :=
  let s1 := s.sendMsg p 0x21 0 (toBytes s.jr.mirrorJsn 8 ++ toBytes s.mirrorFree 8) []
  { s1 with jr := { s1.jr with sentAt := s.now, ackAt := s.now } }

/-- REFUSED_BATCH_ACK (R343): while it refuses a batch, the module acknowledges at every HB interval. -/
def execRefusedBatchAck (s : State) : Res :=
  .next (match s.jr.partner with
    | some p => if s.jr.refusing ∧ s.jr.ackAt + s.hbNs ≤ s.now then s.sendAck p else s
    | none => s)

/-- R338: what a new record supersedes: a later register or protection value, a later session state, the records of a slot
taken again, a later prefix state, later progress, and the records of a session that has ended. -/
def supersedes (n o : JRec) : Bool :=
  decide (n.origin = o.origin) &&
  match n.pay, o.pay with
  | .accept .., .accept .. => decide (n.slot = o.slot)
  | .accept .., .commit .. => decide (n.slot = o.slot)
  | .accept .., .final .. => decide (n.slot = o.slot)
  | .accept .., .cancel .. => decide (n.slot = o.slot)
  | .session i _ _, .session j _ _ => decide (i = j)
  | .session i none _, .reply _ _ session _ _ _ _ _ _ => decide (i = session % 256)
  | .configReg a _, .configReg b _ => decide (a = b)
  | .configProt k i _, .configProt l j _ => decide (k = l ∧ i = j)
  | .install h _ _, .install g _ _ => decide (h = g)
  | .pfx h t _ _ _ _, .pfx g u _ _ _ _ => decide (h = g ∧ t = u)
  | .delivered a, .delivered b => b.all (fun e => a.any (fun f => decide (f.1 = e.1)))
  | _, _ => false
/-- R352: an ACCEPT record whose input a prefix handle still needs. -/
def prefixNeeds (rs : List JRec) (r : JRec) : Bool :=
  match r.pay with
  | .accept .. => rs.any (fun q => match q.pay with
    | .pfx _ _ _ _ j _ => decide (j = r.jsn) && decide (q.origin = r.origin)
    | _ => false)
  | _ => false
/-- R338: the records that stay once `r` is held. -/
def keptAfter (r : JRec) (all : List JRec) (o : JRec) : Bool := !supersedes r o || prefixNeeds all o
/-- R338, R340: hold a record of the partner that is next in JSN order. -/
def State.holdRecord (s : State) (r : JRec) : State :=
  if r.jsn = s.jr.mirrorJsn + 1 then
    let all := s.jr.mirror.map (·.1)
    { s with jr := { s.jr with
      mirror := s.jr.mirror.filter (fun e => keptAfter r all e.1) ++ [(r, s.now)], mirrorJsn := r.jsn } }
  else s

/-- R346: a journal message from the partner has arrived. -/
def State.hear (s : State) : State := { s with jr := { s.jr with heardAt := s.now } }
/-- R346: a module is the partner in service. -/
def State.isPartner (s : State) (m : Nat) : Bool := decide (s.jr.partner = some m)

/-- R343, R344, R347: HOLDING; an error record of class JOURNAL at once and for each second. -/
def State.journalError (s : State) (kind : Nat) : State :=
  let s1 := s.detect (errOf 0x19 kind 0 4)
  { s1 with jr := { s1.jr with holdAt := s.now } }

/-- JRNL_HEARTBEAT (R346). -/
def execJrnlHeartbeat (src : Nat) (s : State) : Res :=
  .next (if s.closed src 0x22 then s else
    let s1 := s.takeInbox src 0x22
    if s.isPartner src then s1.hear else s1)

/-- R284: the reply journal holds the latest 1,024 sequence numbers, 64 for the management session (R302). -/
def repLimit (i : Nat) : Nat := if i = mgmtIndex then 64 else 1024
def findRep (v : Session) (seq : Nat) : Option JRep := v.journal.find? (fun r => decide (r.seq = seq))
/-- Set the entry of a sequence number. -/
def putRep (v : Session) (r : JRep) : Session :=
  { v with journal := v.journal.map (fun o => if o.seq = r.seq then r else o) }

/-- R275, R277: a reply leaves on a queue pair, its receive entry reposted; `key` is the session index plus one whose K_MH
tags it, 0 for a zero TAG. -/
def State.sendReply (s : State) (q key session op seq status detail : Nat) (dup : Bool) (body : List Byte) : State :=
  let s1 := match s.qp q with
    | some v => s.setQp q { v with used := v.used - 1 }
    | none => s
  let cr := s1.credits q
  let h := headerBytes (1 + 4 * b2n dup) op session 0 body.length seq status cr detail 0
  let tag := if key = 0 then 0#128
    else match s1.session (key - 1) with
      | some v => packetTag v.keyMh h body
      | none => 0#128
  s1.emit (.reply q session op seq status cr detail dup tag body)

/-- R277, R283, R284: replies that no reply journal keeps: those to OPEN_CONFIRM and ATTACH, and AUTH, SEQGAP, STALE, CONFLICT and
BADSESSION. -/
def unstored (op status : Nat) : Bool := decide (op ≤ 3) || decide (0x20 ≤ status ∧ status ≤ 0x24)
/-- R284, R341: a reply may leave: to the queue pair it was asked on, or another of the session when that is lost, and to the
duplicates that wait. -/
def State.releaseReply (s : State) (q key session seq op status detail : Nat) (body : List Byte) : State :=
  let i := key - 1
  match (if key = 0 ∨ seq = 0 ∨ unstored op status then none else s.session i) with
  | none => s.sendReply q key session op seq status detail false body
  | some v =>
    match findRep v seq with
    | none => s.sendReply q key session op seq status detail false body
    | some r =>
      let s1 := s.setSession i (putRep v { r with reply := some (status, detail, body), waiters := [] })
      let via := if v.qps.contains q ∨ i = mgmtIndex then q else sessionVia v none
      let s2 := s1.sendReply via key session op seq status detail false body
      r.waiters.foldl (fun s w => s.sendReply w key session op seq status detail true body) s2

/-- R341: a reply of a host session is journaled first; one of the management session leaves at once. -/
def State.answer (s : State) (q key session seq : Nat) (tag : BitVec 128) (op status detail : Nat) (body : List Byte) : State :=
  if q = mgmtQp then s.releaseReply q key session seq op status detail body
  else s.newRecord 0xFFFF (.reply q key session seq tag op status detail body)

/-- Answer the command with sequence number `seq` of session `i`. -/
def State.answerSeq (s : State) (i seq status detail : Nat) (body : List Byte) : State :=
  match s.session i with
  | none => s
  | some v =>
    match findRep v seq with
    | none => s
    | some r => s.answer r.qp (i + 1) (sessionField i v.gen) seq r.tag r.op status detail body

/-- R291, R299, R339: a command answered ACCEPTED completes: a STATUS record, whose acknowledgement sends the COMPLETION
event. -/
def State.complete (s : State) (i seq status detail : Nat) : State :=
  let op := match s.session i with
    | some v => ((findRep v seq).map (·.op)).getD 0
    | none => 0
  s.newRecord 0xFFFF (.status i seq (toBytes seq 8 ++ toBytes op 2 ++ toBytes status 2 ++ toBytes detail 4))

/-- R338: a session's state has changed. -/
def State.journalSession (s : State) (i : Nat) : State :=
  if i = mgmtIndex then s else s.newRecord 0xFFFF (.session i (s.session i)
    (s.host.rings.filter (fun e => decide (e.1 / 64 = i))))

/-- R338: a register write has taken effect. -/
def State.journalReg (s : State) (addr value : Nat) : State := s.newRecord 0xFFFF (.configReg addr value)

/-! ## Ownership (R286, R287) -/

/-- R287: the lease starts at its full length. -/
def State.renewLease (s : State) : State :=
  let ns := 1000000 * s.rd F.LEASE_CFG_MS
  { s with host := { s.host with lease := some (s.now + ns), warnAt := s.now + ns * 4 / 5, warned := false } }
def ownerAddr : Nat := Reg.addr .OWNER_STATUS 0 .glob 0
/-- R286: the owner changes; the change is journaled, and sessions learn of it once it is acknowledged. -/
def State.setOwner (s : State) (o : Option Nat) : State :=
  let v := match o with
    | some i => (match s.session i with
      | some v => sessionField i v.gen
      | none => 0)
    | none => 0
  let s1 := (s.wrFlag F.OWNER_STATUS_OWNED o.isSome).wr F.OWNER_STATUS_SESSION v
  let s2 := if o.isSome then s1.renewLease else { s1 with host := { s1.host with lease := none, warned := false } }
  s2.journalReg ownerAddr (s2.word .OWNER_STATUS 0 .glob 0).toNat
/-- R286: the OWNER event. -/
def State.tellOwner (s : State) (word : Nat) : State :=
  s.broadcast 0x8003 1 (toBytes (bitsOf word 1 16) 2 ++ toBytes 0 2)

end Sys2Proof.Machine
end

