-- ==== Sys2Proof/Machine/Philox.lean ====
section
/-!
DEFINITION. The sampling draws of R394: Philox4x32-10 and the FP32 uniforms.
-/
namespace Sys2Proof.Machine

/-- One round of Philox4x32 on the counter words under a key. -/
def philoxRound (c : Nat × Nat × Nat × Nat) (k0 k1 : Nat) : Nat × Nat × Nat × Nat :=
  let p0 := 0xD2511F53 * c.1
  let p1 := 0xCD9E8D57 * c.2.2.1
  ((p1 / 2 ^ 32) ^^^ c.2.1 ^^^ k0, p1 % 2 ^ 32, (p0 / 2 ^ 32) ^^^ c.2.2.2 ^^^ k1, p0 % 2 ^ 32)

/-- `n` rounds, the key rising by its increments between them. -/
def philoxN : Nat → Nat × Nat × Nat × Nat → Nat → Nat → Nat × Nat × Nat × Nat
  | 0, c, _, _ => c
  | n + 1, c, k0, k1 =>
    philoxN n (philoxRound c k0 k1) ((k0 + 0x9E3779B9) % 2 ^ 32) ((k1 + 0xBB67AE85) % 2 ^ 32)

/-- R394: the four output words of call `call` for an output INDEX under SEED. -/
def philoxWords (seed index call : Nat) : List Nat :=
  let c := philoxN 10 (index % 2 ^ 32, call % 2 ^ 32, 0, 0) (seed % 2 ^ 32) (seed / 2 ^ 32 % 2 ^ 32)
  [c.1, c.2.1, c.2.2.1, c.2.2.2]

/-- The FP32 code of m × 2^-24 for m below 2^24, exact. -/
def uniformCode (m : Nat) : Nat :=
  if m = 0 then 0
  else
    let e := Nat.log2 m
    (103 + e) * 2 ^ 23 + (m * 2 ^ (23 - e) - 2 ^ 23)
/-- R394: the draws of a call, (word >> 8) × 2^-24. -/
def uniformDraws (seed index call : Nat) : List Nat := (philoxWords seed index call).map (fun w => uniformCode (w / 256))

end Sys2Proof.Machine
end

