-- ==== Sys2Proof/Machine/Tier.lean ====
section
/-!
DEFINITION. The migration engines (R197 to R220): ring requests and their completions, seals, frees, promotions,
demotions, placement, and what a failed copy, channel, drive or stack does to pages and their migrations.
-/
namespace Sys2Proof.Machine

/-! ## Requests (R213, R214) -/

/-- R214: statuses of a migration request. The codes follow the order in which R214 names them
(notes/assumptions/16). -/
def migOk : Nat := 0
def migNofit : Nat := 1
def migFault : Nat := 2
def migRefused : Nat := 3

/-- Fields of a 32-byte request (R213). -/
def mqOp (r : Nat) : Nat := bitsOf r 0 8
def mqFlags (r : Nat) : Nat := bitsOf r 8 8
def mqBudget (r : Nat) : Nat := bitsOf r 16 16
def mqTag (r : Nat) : Nat := bitsOf r 32 32
def mqAddr (r : Nat) : Nat := bitsOf r 64 64
def mqCount (r : Nat) : Nat := bitsOf r 128 32
def mqArg0 (r : Nat) : Nat := bitsOf r 160 16
def mqArg1 (r : Nat) : Nat := bitsOf r 176 16
def mqReserved (r : Nat) : Nat := bitsOf r 192 64

/-- R213: the request keeps the layout of its operation. -/
def mqValid (op r : Nat) : Bool :=
  decide (mqOp r = op) && decide (mqReserved r = 0) && decide (mqAddr r % pageBytes = 0) &&
  decide (1 ≤ mqCount r ∧ mqCount r ≤ 65536) &&
  decide (mqFlags r % 4 = mqFlags r) && (decide (op = 2) || decide (mqFlags r < 2)) &&
  (if op = 1 ∨ op = 6 then decide (mqBudget r < 1024) else decide (mqBudget r = 0)) &&
  (match op with
   | 2 => decide (1 ≤ mqArg0 r ∧ mqArg0 r ≤ 32768)
   | 6 => decide (mqArg0 r < 4)
   | 7 => decide (mqArg0 r = 1 ∨ mqArg0 r = 2)
   | _ => decide (mqArg0 r = 0)) &&
  (match op with
   | 1 => decide (mqArg1 r < 4096)
   | 2 => decide (mqArg1 r < 4)
   | _ => decide (mqArg1 r = 0))

/-- Pages of a request, in order. -/
def mqPages (r : Nat) : List Nat := (List.range (mqCount r)).map (· + pageOf (mqAddr r))
/-- Pages of a consumed request that are not begun. -/
def mqRest (q : MigReq) : List Nat := (mqPages q.word).drop q.begun

/-- R213: the completion record of a request goes into the completion ring; with NOTIFY the thread is told
(notes/assumptions/16). -/
def State.migComplete (s : State) (r status done : Nat) : State :=
  let t := s.rd F.MIG_CPL_TAIL_INDEX
  let slot := t % 2 ^ s.rd F.MIG_SIZE_LOG2
  let rec16 := toBytes (mqTag r + 2 ^ 32 * status + 2 ^ 64 * done) 16
  let s1 := (s.sysWrite (s.rd F.MIG_CPL_VALUE + 16 * slot) rec16).wr F.MIG_CPL_TAIL_INDEX (t + 1)
  if bitOf (mqFlags r) 0 then s1.emit (.migNotice (mqTag r) status) else s1

/-- A page of the consumed requests of one operation is done, or has failed with a status, which ends its request there. -/
def State.pageDone (s : State) (op pn : Nat) (fail : Option Nat) : State :=
  { s with mas := { s.mas with reqs := s.mas.reqs.map (fun q =>
      if mqOp q.word = op ∧ q.waiting.contains pn then
        match fail with
        | none => { q with waiting := q.waiting.erase pn, pagesDone := q.pagesDone + 1 }
        | some st => { q with waiting := q.waiting.erase pn, begun := mqCount q.word, status := st }
      else q) } }

/-! ## Mapping (R197) -/

/-- R197, R194: the entry of a freshly mapped writable page. -/
def freshPte (budget mwin stack frame : Nat) : Pte :=
  { isSealed := false, near := true, bulk := false, deep := false, moving := false, freeing := false, windowed := false,
    place := 0, budget := budget, mwin := mwin, nearStack := stack, nearFrame := frame, bulkFrame := 0, deepDrive := 0,
    deepExtent := 0, check := 0, len := 32768, access := 0, owner := 0, nodeep := false, sealing := false, winSeq := 0 }

/-- Map one page: a zeroed frame from the fullest stack (notes/assumptions/15). -/
def State.mapPage (s : State) (pn budget mwin : Nat) : State :=
  match s.fullest (List.range 20) with
  | none => s
  | some k => (s.masZero (pn * pageBytes) pageBytes).newPte pn (freshPte budget mwin k (s.pickFrame k))

/-- R197, R212: frames that a mapping of `n` pages needs are there. Budget 0 maps from the pool down to POOL_MIN; another
budget's LIMIT covers its window ring too. -/
def State.mapFits (s : State) (budget n : Nat) : Bool :=
  decide (n ≤ s.nearFree) &&
  (if budget = 0 then decide (s.rd F.POOL_MIN_FRAMES + n ≤ s.poolFree) else s.budgetHas budget n)

/-- A page number that a MAP may take (R191, R197). -/
def State.mappable (s : State) (pn : Nat) : Bool := (s.pte pn).isNone && !(inSystem (pn * pageBytes)) && inMas (pn * pageBytes)

/-- R197, R214: map a range for a budget. Returns the status and the pages mapped. -/
def State.mapRange (s : State) (pns : List Nat) (budget mwin : Nat) : State × Nat × Nat :=
  if ¬ s.mapFits budget pns.length ∨ ¬ s.leavesFit pns then (s, migNofit, 0)
  else
    let good := pns.takeWhile s.mappable
    (good.foldl (fun s pn => s.mapPage pn budget mwin) s,
      if good.length = pns.length then migOk else migFault, good.length)

/-! ## Seals and frees (R198, R199) -/

/-- R198: seal a page: zero its tail, compute CHECK, set SEALED and PLACE. -/
def State.sealPage (s : State) (pn len place : Nat) (nodeep : Bool) : State :=
  match s.pte pn with
  | none => s
  | some p =>
    let s1 := s.masZero (pn * pageBytes + 64 * len) (pageBytes - 64 * len)
    s1.setPte pn { p with isSealed := true, sealing := false, len := len, place := place, nodeep := nodeep,
                          check := s1.pageCheck pn len }

/-- R199, R195: shoot a page down and mark it FREEING; accesses fault from the shootdown on. -/
def State.markFreeing (s : State) (pn : Nat) : Option State :=
  match s.pte pn with
  | none => none
  | some p => if p.freeing then none else some ((s.shootdown pn).setPte pn { p with freeing := true })

/-- R205: clear the catalogue record of a page's deep copy. -/
def State.clearRecord (s : State) (d x : Nat) : State :=
  match SMap.find? s.mas.drives d with
  | none => s
  | some v => s.setDrive d { v with records := SMap.erase v.records x }

/-- R199: release every copy of a page and clear its entry. -/
def State.releasePage (s : State) (pn : Nat) : State :=
  match s.pte pn with
  | none => s
  | some p =>
    let s1 := if p.deep then s.clearRecord p.deepDrive p.deepExtent else s
    ((s1.shootdown pn).masZero (pn * pageBytes) pageBytes).dropPte pn

/-! ## Copies between the tiers (R208, R209) -/

/-- Start a copy of a page to a bulk frame, or to an extent of a drive. -/
def State.copyJob (s : State) (pn : Nat) (kind : MigKind) (cls stack frame : Nat) : State :=
  match s.pte pn with
  | none => s
  | some p =>
    (s.addJob { page := pn, kind := kind, cls := cls, die := 0, placed := true, win := false, pool := false, stack := stack,
                frame := frame, left := s.engines p kind stack, next := none, retried := false }).setMoving pn true

/-- What R209 does with a page's near copy. -/
inductive DemoteResult where
  | dropped | copying | nofit
  deriving DecidableEq, Repr

/-- R209, in order, for a page without a migration. `cls` is the priority class of a copy that must be made first. -/
def State.demote (s : State) (pn cls : Nat) : State × DemoteResult :=
  match s.pte pn with
  | none => (s, .nofit)
  | some p =>
    if p.bulk then (((s.dropNear pn).bump F.MIG_DEMOTED_VALUE), .dropped)
    else if 0 < s.bulkFree then (s.copyJob pn .demoteBulk cls 0 s.pickBulk, .copying)
    else if p.nodeep then (s, .nofit)
    else if p.deep then (((s.dropNear pn).bump F.MIG_DEMOTED_VALUE), .dropped)
    else
      match s.pickDrive with
      | none => (s, .nofit)
      | some d => (s.copyJob pn .demoteDeep cls d (s.pickExtent d), .copying)

/-- An explicit DEMOTE of one page: it waits for pins and holds (R215). -/
def State.demoteRequest (s : State) (pn : Nat) : State × DemoteResult :=
  if s.keptPage pn then
    (s.addJob { page := pn, kind := .demoteWait, cls := 2, die := 0, placed := false, win := false, pool := false, stack := 0,
                frame := 0, left := [], next := none, retried := false }, .copying)
  else s.demote pn 2

/-- R213: set PLACE and BUDGET of a page. -/
def State.setPlace (s : State) (pn place budget : Nat) : State :=
  match s.pte pn with
  | none => s
  | some p => s.setPte pn { p with place := place, budget := budget }

/-- Copies a page has. -/
def pteCopies (p : Pte) : Nat := b2n p.near + b2n p.bulk + b2n p.deep

/-! ## The operations, page by page (R213 to R215) -/

/-- What a request does with one of its pages: the page is done, or waits for a migration or a release; the request waits for what
runs on the page; or it fails there with a status. -/
inductive PageDo where
  | done (s : State)
  | pending (s : State)
  | blocked
  | fail (status : Nat)

/-- DEMOTE of a page. A page with PLACE = NEAR is REFUSED (notes/assumptions/16); one that is not near has nothing to demote. -/
def State.demoteOne (s : State) (pn : Nat) (p : Pte) : PageDo :=
  if !p.isSealed || p.freeing || pteLost p then .fail migFault
  else if !p.near then .done s
  else if p.place = 1 then .fail migRefused
  else
    match s.jobOf pn with
    | some j => if j.kind = .demoteBulk ∨ j.kind = .demoteDeep ∨ j.kind = .demoteWait then .pending s else .blocked
    | none =>
      match s.demoteRequest pn with
      | (t, .dropped) => .done t
      | (t, .copying) => .pending t
      | (_, .nofit) => .fail migNofit
/-- SET_PLACE of a page: setting STREAM first gives it a bulk copy, or is NOFIT when the bulk tier has no room. -/
def State.setPlaceOne (s : State) (pn : Nat) (p : Pte) (place budget : Nat) : PageDo :=
  if p.freeing then .fail migFault
  else if place = 2 ∧ p.isSealed ∧ ¬ p.bulk then
    if pteLost p then .fail migFault
    else if (s.jobOf pn).isSome then .blocked
    else if s.bulkFree = 0 then .fail migNofit
    else .pending (s.copyJob pn .toStream 2 0 s.pickBulk)
  else .done (s.setPlace pn place budget)
/-- DROP of a copy of a page: never the last one, nor a bulk copy without a deep one (R209). -/
def State.dropOne (s : State) (pn : Nat) (p : Pte) (tier : Nat) : PageDo :=
  if p.freeing then .fail migFault
  else if (if tier = 1 then !p.bulk else !p.deep) then .done s
  else if (s.jobOf pn).isSome then .blocked
  else if pteCopies p ≤ 1 ∨ (tier = 1 ∧ ¬ p.deep) then .fail migNofit
  else if tier = 1 then .done (s.setPte pn { p with bulk := false, bulkFrame := 0 })
  else .done ((s.clearRecord p.deepDrive p.deepExtent).setPte pn { p with deep := false, deepDrive := 0, deepExtent := 0 })

/-- R215: an earlier SEAL or FREE has still to act on a page; the state holds the earlier requests. -/
def State.sealsFirst (s : State) (pn : Nat) : Bool :=
  s.mas.reqs.any (fun q => (decide (mqOp q.word = 2) || decide (mqOp q.word = 3)) &&
    (q.waiting.contains pn || (mqRest q).contains pn))

/-- R213: the effect of a request on the next of its pages. -/
def State.pageOp (s : State) (q : MigReq) (pn : Nat) : PageDo :=
  match mqOp q.word, s.pte pn with
  | 3, some p => if p.freeing then .fail migFault else if s.sealsFirst pn then .blocked else
      match s.markFreeing pn with
      | some t => .pending t
      | none => .fail migFault
  | op, o =>
    if s.sealsFirst pn then .blocked
    else match op, o with
      | 1, none =>
        if ¬ s.mapFits (mqBudget q.word) (mqRest q).length ∨ ¬ s.leavesFit (mqRest q) then .fail migNofit
        else if s.mappable pn then .done (s.mapPage pn (mqBudget q.word) (mqArg1 q.word)) else .fail migFault
      | 1, some _ =>
        if ¬ s.mapFits (mqBudget q.word) (mqRest q).length ∨ ¬ s.leavesFit (mqRest q) then .fail migNofit else .fail migFault
      | _, none => .fail migFault
      | 2, some p =>
        if p.isSealed || p.freeing || p.sealing then .fail migFault else .pending (s.setPte pn { p with sealing := true })
      | 4, some p =>
        if p.freeing || pteLost p then .fail migFault
        else if p.near then .done s else .pending (s.requestPromotion pn 0 2)
      | 5, some p => s.demoteOne pn p
      | 6, some p => s.setPlaceOne pn p (mqArg0 q.word % 4) (mqBudget q.word)
      | _, some p => s.dropOne pn p (mqArg0 q.word)

/-- R214: a request goes on from page to page until it waits, fails or has begun them all. Seals and frees begin all their pages
at once; any other operation takes its pages one after the other. -/
def State.runPages : Nat → State → MigReq → State × MigReq
  | 0, s, q => (s, q)
  | n + 1, s, q =>
    match mqRest q with
    | [] => (s, q)
    | pn :: _ =>
      if mqOp q.word ≠ 2 ∧ mqOp q.word ≠ 3 ∧ q.waiting ≠ [] then (s, q)
      else
        match s.pageOp q pn with
        | .done t => State.runPages n t { q with begun := q.begun + 1, pagesDone := q.pagesDone + 1 }
        | .pending t => State.runPages n t { q with begun := q.begun + 1, waiting := q.waiting ++ [pn] }
        | .blocked => (s, q)
        | .fail st => (s, { q with begun := mqCount q.word, status := st })
/-- Every consumed request goes on, in ring order; one with nothing left completes. -/
def State.runReqs (s : State) : State :=
  s.mas.reqs.foldl (fun (s : State) q =>
    let r := State.runPages (mqRest q).length s q
    if (mqRest r.2).isEmpty ∧ r.2.waiting = [] then r.1.migComplete r.2.word r.2.status r.2.pagesDone
    else { r.1 with mas := { r.1.mas with reqs := r.1.mas.reqs ++ [r.2] } }) { s with mas := { s.mas with reqs := [] } }
/-- What a change in the tiers lets go on: promotions that wait for a frame, and the consumed requests. -/
def State.settleMig (s : State) : State := s.placeWaiting.runReqs

/-- R213: the engines take the request at the head of the ring, which firmware has put there. Nothing happens while the ring is
empty; a request that breaks the layout is REFUSED and does nothing. -/
def State.takeRequest (s : State) (op r : Nat) : State :=
  if s.rd F.MIG_HEAD_INDEX = s.rd F.MIG_TAIL_INDEX then s
  else
    let h := s.rd F.MIG_HEAD_INDEX
    let s1 := (s.sysWrite (s.rd F.MIG_RING_VALUE + 32 * (h % 2 ^ s.rd F.MIG_SIZE_LOG2)) (toBytes r 32)).wr F.MIG_HEAD_INDEX (h + 1)
    let q : MigReq := { word := r, begun := 0, waiting := [], pagesDone := 0, status := migOk }
    if mqValid op r then State.runReqs { s1 with mas := { s1.mas with reqs := s1.mas.reqs ++ [q] } }
    else s1.migComplete r migRefused 0

/-- MAP (R197). -/
def execMap (req : BitVec 256) (s : State) : Res := .next (s.takeRequest 1 req.toNat)
/-- SEAL (R198): sealing marks on the writable pages of the range, up to the first page that is not writable. -/
def execSeal (req : BitVec 256) (s : State) : Res := .next (s.takeRequest 2 req.toNat)
/-- FREE (R199). -/
def execFree (req : BitVec 256) (s : State) : Res := .next (s.takeRequest 3 req.toNat)
/-- PROMOTE (R208, R213): a near page is done at once; another joins or starts its promotion in class 2. -/
def execPromote (req : BitVec 256) (s : State) : Res := .next (s.takeRequest 4 req.toNat)
/-- DEMOTE (R209, R213). -/
def execDemote (req : BitVec 256) (s : State) : Res := .next (s.takeRequest 5 req.toNat)
/-- SET_PLACE (R213). -/
def execSetPlace (req : BitVec 256) (s : State) : Res := .next (s.takeRequest 6 req.toNat)
/-- DROP (R213, R209). -/
def execDrop (req : BitVec 256) (s : State) : Res := .next (s.takeRequest 7 req.toNat)

/-- SEAL_FINISH (R198): the accepted writes of a page with a sealing mark have completed. -/
def execSealFinish (pn : Nat) (s : State) : Res :=
  .next (match s.mas.reqs.find? (fun q => decide (mqOp q.word = 2) && q.waiting.contains pn) with
    | none => s
    | some q =>
      let r := q.word
      (((s.sealPage pn (if pn + 1 = pageOf (mqAddr r) + mqCount r then mqArg0 r else 32768) (mqArg1 r % 4)
        (bitOf (mqFlags r) 1)).pageDone 2 pn none)).settleMig)

/-- FREE_RELEASE (R199): a FREEING page with no pin, hold, read or migration left is released. -/
def execFreeRelease (pn : Nat) (s : State) : Res :=
  .next (match s.pte pn with
    | none => s
    | some p =>
      if p.freeing && (s.jobOf pn).isNone && !(s.keptPage pn) then ((s.releasePage pn).pageDone 3 pn none).settleMig
      else s)

/-! ## Ends of migrations (R200, R203, R205, R209, R211, R215) -/

/-- R205: write a page's data and then its catalogue record into an extent. -/
def State.writeDeep (s : State) (pn d x : Nat) : State :=
  match s.pte pn, SMap.find? s.mas.drives d with
  | some p, some v =>
    let q := (s.mas.deepSeq + 1) % 2 ^ 32
    let rc : DeepRec := { page := pn, check := p.check, len := p.len, owner := p.owner, seq := q, data := s.pageData pn }
    { s with mas := { s.mas with deepSeq := q } }.setDrive d { v with records := SMap.insert v.records x rc }
  | _, _ => s

/-- R220: move a page to another frame. -/
def State.movePage (s : State) (pn : Nat) (ks : List Nat) : State :=
  match s.pte pn, s.fullest ks with
  | some p, some k => (s.shootdown pn).setPte pn { p with nearStack := k, nearFrame := s.pickFrame k }
  | _, _ => s

/-- R220: a sealed page leaves a retired stack: a NEAR page moves to another stack, another is demoted, or moves when it cannot
be. One with a migration does so after it. -/
def State.leaveStack (s : State) (pn : Nat) : State :=
  match s.pte pn with
  | none => s
  | some p =>
    if !p.isSealed || !p.near || !s.fuses.retiredStacks.contains p.nearStack || (s.jobOf pn).isSome then s
    else if p.place = 1 ∧ 0 < s.nearFree then s.movePage pn (List.range 20)
    else match s.demote pn 2 with
      | (t, .nofit) => t.movePage pn (List.range 20)
      | (t, _) => t

/-- A page's migration ends: MOVING clears, and a promotion that waited for it is asked for (R215). -/
def State.endJob (s : State) (pn : Nat) : State :=
  match s.jobOf pn with
  | none => s
  | some j =>
    let s1 := ((s.dropJob pn).setMoving pn false).leaveStack pn
    match j.next with
    | some (cls, die) => s1.requestPromotion pn die cls
    | none => s1

/-- R207: engine `e` has done its part of a page's transfer; whether the copy is whole. -/
def State.partDone (s : State) (e : Nat) (j : MigJob) : State × Bool :=
  let s1 : State := { s with mas := { s.mas with work := SMap.erase s.mas.work e } }
  let left := j.left.erase e
  (s1.setJob { j with left := left }, left.isEmpty)

/-- R200, R208: a promoted copy is whole and its CHECK verified: the page becomes near. -/
def State.promoted (s : State) (pn : Nat) (j : MigJob) : State :=
  match s.pte pn with
  | none => s
  | some p =>
    let seq := s.mas.winSeq + 1
    let s1 := s.setPte pn { p with near := true, windowed := j.win, nearStack := j.stack, nearFrame := j.frame, winSeq := seq }
    let s2 := ({ s1 with mas := { s1.mas with winSeq := seq } }).endJob pn
    ((s2.bump F.MIG_PROMOTED_VALUE).bump F.MIG_BYTES_VALUE (64 * p.len)).pageDone 4 pn none

/-- R209, R211: the copy that a demotion needed is whole: the near copy is dropped, unless a pin or hold came meanwhile: then a
DEMOTE waits for it (R215), and placement passes the page over. -/
def State.demoted (s : State) (pn : Nat) : State :=
  if s.keptPage pn then
    if s.mas.reqs.any (fun q => decide (mqOp q.word = 5) && q.waiting.contains pn) then
      match s.jobOf pn with
      | some j => (s.setJob { j with kind := .demoteWait, placed := false, left := [] }).setMoving pn false
      | none => s
    else s.endJob pn
  else (((s.dropNear pn).endJob pn).bump F.MIG_DEMOTED_VALUE).pageDone 5 pn none

/-- R203, R205: a copy to the bulk or deep tier is whole, and becomes valid. -/
def State.transferred (s : State) (pn : Nat) (j : MigJob) : State :=
  match s.pte pn with
  | none => s
  | some p =>
    let bulk := s.setPte pn { p with bulk := true, bulkFrame := j.frame }
    let deep := (s.setPte pn { p with deep := true, deepDrive := j.stack, deepExtent := j.frame }).writeDeep pn j.stack j.frame
    match j.kind with
    | .promote | .demoteWait => s
    | .demoteBulk => (bulk.bump F.MIG_BYTES_VALUE (64 * p.len)).demoted pn
    | .demoteDeep => (deep.bump F.MIG_BYTES_VALUE (64 * p.len)).demoted pn
    | .copyDeep => (deep.bump F.MIG_BYTES_VALUE (64 * p.len)).endJob pn
    | .toStream =>
      let b := match s.mas.reqs.find? (fun q => decide (mqOp q.word = 6) && q.waiting.contains pn) with
        | some q => bulk.setPlace pn 2 (mqBudget q.word)
        | none => bulk
      ((b.bump F.MIG_BYTES_VALUE (64 * p.len)).endJob pn).pageDone 6 pn none

/-- R209 again, for a demotion whose target or pin has gone: `cls` as before. -/
def State.demoteAgain (s : State) (pn cls : Nat) : State :=
  match s.demote pn cls with
  | (t, .dropped) => t.pageDone 5 pn none
  | (t, .copying) => t
  | (t, .nofit) => t.pageDone 5 pn (some migNofit)
/-- R215: an explicit DEMOTE goes on once no pin or hold is left. -/
def State.demoteNow (s : State) (pn : Nat) : State :=
  if s.keptPage pn then s
  else
    match s.pte pn with
    | none => s
    | some p => if p.near then (s.dropJob pn).demoteAgain pn 2 else (s.dropJob pn).pageDone 5 pn none

/-! ## Bad copies (R218, R219) -/

/-- A page's migration after one of its copies has gone: it goes on from another, a demotion whose near copy has gone is over, and
that of a lost page fails. -/
def State.fixJob (s : State) (pn : Nat) : State :=
  match s.jobOf pn, s.pte pn with
  | some j, some p =>
    if pteLost p then
      [4, 5, 6].foldl (fun (s : State) op => s.pageDone op pn (some migFault)) ((s.dropJob pn).setMoving pn false)
    else if (j.kind = .demoteBulk ∨ j.kind = .demoteDeep ∨ j.kind = .demoteWait) ∧ ¬ p.near then
      (s.endJob pn).pageDone 5 pn none
    else s.setJob { j with left := s.engines p j.kind j.stack, retried := false }
  | some _, none => s.dropJob pn
  | none, _ => s

/-- R218: the near copy of a sealed page is dropped and its frame retired; the frame of a writable page is retired. -/
def State.retireNear (s : State) (p : Pte) : State :=
  let fr := (p.nearStack, p.nearFrame)
  { s with mas := { s.mas with retired := if s.mas.retired.contains fr then s.mas.retired else s.mas.retired ++ [fr] } }
/-- R219: a bulk copy is bad: its frame is retired. -/
def State.dropBulkOf (s : State) (pn : Nat) (p : Pte) : State :=
  (({ s with mas := { s.mas with retiredBulk := s.mas.retiredBulk ++ [p.bulkFrame] } }).setPte pn
    { p with bulk := false, bulkFrame := 0 }).fixJob pn
/-- R219: a deep copy is bad: its extent is retired. -/
def State.dropDeepOf (s : State) (pn : Nat) (p : Pte) : State :=
  let s1 := match SMap.find? s.mas.drives p.deepDrive with
    | none => s
    | some v => s.setDrive p.deepDrive
        { v with retired := v.retired ++ [p.deepExtent], records := SMap.erase v.records p.deepExtent }
  (s1.setPte pn { p with deep := false, deepDrive := 0, deepExtent := 0 }).fixJob pn
/-- R219: an error while copying marks the source copy bad. -/
def State.badSource (s : State) (pn : Nat) : State :=
  match s.pte pn with
  | none => s
  | some p =>
    let s1 := s.bump F.TIER_UE_VALUE
    if p.near then ((s1.retireNear p).dropNear pn).fixJob pn
    else if p.bulk then s1.dropBulkOf pn p
    else s1.dropDeepOf pn p

/-- R374: a mismatch on a migration copy repeats it from its source once; a second one marks the source copy bad (R219). -/
def State.repeatCopy (s : State) (pn : Nat) : State :=
  match s.jobOf pn, s.pte pn with
  | some j, some p =>
    if j.retried then s.badSource pn else s.setJob { j with left := s.engines p j.kind j.stack, retried := true }
  | _, _ => s
/-- A migration whose target has gone looks for another, or ends. -/
def State.retarget (s : State) (j : MigJob) : State :=
  let pn := j.page
  let s1 := (s.dropJob pn).setMoving pn false
  match j.kind with
  | .demoteBulk | .demoteDeep => s1.demoteAgain pn j.cls
  | .toStream => if s1.bulkFree = 0 then s1.pageDone 6 pn (some migNofit) else s1.copyJob pn .toStream j.cls 0 s1.pickBulk
  | .copyDeep => match s1.pickDrive with
    | some d => s1.copyJob pn .copyDeep j.cls d (s1.pickExtent d)
    | none => s1
  | .promote | .demoteWait => s
/-- Every page that loses a copy, then every migration whose target has gone. -/
def State.afterLoss (s : State) (hit : Pte → Bool) (drop : Pte → Pte) (target : MigJob → Bool) : State :=
  let pns := (s.mas.pages.filter (fun e => hit e.2)).map (·.1)
  let s1 : State := { s with mas := { s.mas with pages := SMap.mapVals s.mas.pages (fun _ p => if hit p then drop p else p) } }
  let s2 := (s1.mas.jobs.filter target).foldl (fun (s : State) j => s.retarget j) s1
  pns.foldl (fun (s : State) pn => s.fixJob pn) s2

/-- A job that fills a bulk frame, or an extent of a drive. -/
def toBulk (j : MigJob) : Bool := decide (j.kind = .demoteBulk ∨ j.kind = .toStream)
def toDrive (d : Nat) (j : MigJob) : Bool := decide (j.kind = .demoteDeep ∨ j.kind = .copyDeep) && decide (j.stack = d)

/-- R219: every bulk copy is dropped. -/
def State.dropBulk (s : State) : State :=
  ({ s with mas := { s.mas with retiredBulk := [] } }).afterLoss (·.bulk) (fun p => { p with bulk := false, bulkFrame := 0 }) toBulk
/-- R219, R194: a channel goes offline: the bulk tier is restriped over the other die's channels with half the frames; with no
channels left it is offline. -/
def State.channelFail (s : State) (ch : Nat) : State :=
  let st := s.rd F.BULK_CFG_STATE
  let mine := if ch < 8 then 3 else 2
  if st = 1 then ((s.wr F.BULK_CFG_STATE mine).wr F.BULK_FRAMES_COUNT (s.rd F.BULK_FRAMES_COUNT / 2)).dropBulk
  else if st = 0 ∨ st = mine then s
  else ((s.wr F.BULK_CFG_STATE 0).wr F.BULK_FRAMES_COUNT 0).dropBulk
/-- R204, R219: a failed or removed drive loses its extents. -/
def State.driveFail (s : State) (d : Nat) : State :=
  let s1 := (s.wr F.DEEP_DRIVE_STATE 4 d).wr F.DEEP_EXTENTS_COUNT 0 d
  ({ s1 with mas := { s1.mas with drives := SMap.erase s1.mas.drives d } }).afterLoss (fun p => p.deep && decide (p.deepDrive = d))
    (fun p => { p with deep := false, deepDrive := 0, deepExtent := 0 }) (toDrive d)

/-! ## Placement (R209, R210) -/

/-- R210: the pool page that placement takes next: least ACCESS, LOW pages as 0, ties to the lower page. -/
def State.victim (s : State) (skip : List Nat) : Option Nat :=
  let key := fun (p : Pte) => if p.place = 3 then 0 else p.access
  (s.mas.pages.foldl (fun (g : Option (Nat × Nat)) e =>
    if placedPage e.2 && !e.2.moving && !e.2.freeing && !(skip.contains e.1) && !(s.keptPage e.1) && (s.jobOf e.1).isNone then
      match g with
      | none => some (e.1, key e.2)
      | some (_, k) => if key e.2 < k then some (e.1, key e.2) else g
    else g) none).map (·.1)

/-- R210: frames that placement still has to free, and the victims it takes one after the other. -/
def State.placement (s : State) : Nat → List Nat → State
  | 0, _ => s
  | n + 1, skip =>
    let coming := (s.mas.jobs.filter (fun (j : MigJob) => decide (j.kind = .demoteBulk ∨ j.kind = .demoteDeep))).length
    if s.rd F.POOL_WATER_HIGH_WATER ≤ s.poolFree + coming then s
    else
      match s.victim skip with
      | none => s
      | some pn => (s.demote pn 3).1.placement n (pn :: skip)

/-- PLACEMENT_DEMOTION (R210): while PLACE_EN is set and the pool is below LOW_WATER, victims are demoted until
HIGH_WATER frames are free or on their way. -/
def execPlacementDemotion (s : State) : Res :=
  .next (if s.flag F.MAS_CFG_PLACE_EN ∧ s.poolFree < s.rd F.POOL_WATER_LOW_WATER then
    (s.placement s.mas.pages.length []).settleMig else s)

/-- The page with the least ACCESS among those a test allows, ties to the lower page. -/
def State.coldest (s : State) (ok : Pte → Bool) : Option (Nat × Pte) :=
  s.mas.pages.foldl (fun (g : Option (Nat × Pte)) e =>
    if ok e.2 then
      match g with
      | none => some e
      | some h => if e.2.access < h.2.access then some e else g
    else g) none

/-- BULK_TO_DEEP_COPY (R209): class 3 work copies the bulk-only page with the least ACCESS that may have a deep copy; once the
bulk tier is full, the bulk copy of the page with the least ACCESS that has a deep one makes room (notes/assumptions/98). -/
def execBulkToDeepCopy (s : State) : Res :=
  let s1 := if s.bulkFree = 0 then
      (match s.coldest (fun p => p.bulk && p.deep && decide (p.place ≠ 2) && !p.nodeep && !p.moving && !p.freeing) with
       | some (pn, p) => (s.setPte pn { p with bulk := false, bulkFrame := 0 }).settleMig
       | none => s)
    else s
  .next (match s1.coldest (fun p => p.bulk && !p.near && !p.deep && !p.nodeep && !p.moving && !p.freeing), s1.pickDrive with
    | some (pn, _), some d => s1.copyJob pn .copyDeep 3 d (s1.pickExtent d)
    | _, _ => s1)

/-- ACCESS_EPOCH (R210): at the end of an epoch of EPOCH_MS every ACCESS count halves. -/
def execAccessEpoch (s : State) : Res :=
  .next (if s.mas.epochAt + 1000000 * s.rd F.MAS_CFG_EPOCH_MS ≤ s.now then
    { s with mas := { s.mas with pages := SMap.mapVals s.mas.pages (fun _ p => { p with access := p.access / 2 }), epochAt := s.now } }
    else s)

/-! ## Retired stacks (R220) -/

/-- R220: at a step boundary of a die whose slots hold no tokens, the writable pages of its retired stacks move to its
other stacks; a stack waits for the next boundary while a page finds no room. -/
def State.moveRetired (s : State) (die : Nat) : State :=
  let mine := s.mas.moving.filter (fun k => decide (k / 5 = die))
  let here := (s.mas.pages.filter (fun e => e.2.near && !e.2.isSealed && mine.contains e.2.nearStack)).map (·.1)
  let s1 := here.foldl (fun s pn => s.movePage pn ((List.range 5).map (· + 5 * die))) s
  { s1 with mas := { s1.mas with moving := s1.mas.moving.filter (fun k => decide (k / 5 ≠ die) ||
      s1.mas.pages.any (fun e => e.2.near && !e.2.isSealed && decide (e.2.nearStack = k))) } }

/-- R220, R360: a stack leaves service; its sealed pages are demoted, or moved when PLACE is NEAR; promotions into it take another
stack (R215); the tables it held move. Its writable pages move at the next step boundary of the die. -/
def State.retireStack (s : State) (k : Nat) : State :=
  if s.fuses.retiredStacks.contains k then s
  else
    let online := s.rd F.STACKS_ONLINE_STACK_ONLINE
    let s1 := s.wr F.STACKS_ONLINE_STACK_ONLINE (if bitOf online k then online - 2 ^ k else online)
    let s2 := { s1 with
      fuses := { s1.fuses with retiredStacks := s1.fuses.retiredStacks ++ [k] }
      mas := { s1.mas with moving := s1.mas.moving ++ [k] } }
    let s3 := ((List.range 2).foldl (fun s i => s.wr F.MEA_STATUS_ONLINE 0 (2 * (k % 5) + i) (.die (k / 5))) s2)
    let s4 := (s3.mas.jobs.filter (fun j => jobNear j && decide (j.stack = k))).foldl (fun (s : State) j =>
      s.setJob { j with placed := false, win := false, pool := false }) s3
    let here := (s4.mas.pages.filter (fun e => e.2.near && decide (e.2.nearStack = k))).map (·.1)
    (((here.foldl (fun (s : State) pn => s.leaveStack pn) s4).moveTables k).settleMig).shrink

/-! ## The catalogues (R206) -/

/-- R206: the page that a valid catalogue record recreates. -/
def deepPte (d x : Nat) (r : DeepRec) : Pte :=
  { isSealed := true, near := false, bulk := false, deep := true, moving := false, freeing := false, windowed := false,
    place := 0, budget := 0, mwin := 0, nearStack := 0, nearFrame := 0, bulkFrame := 0, deepDrive := d, deepExtent := x,
    check := r.check, len := r.len, access := 0, owner := r.owner, nodeep := false, sealing := false, winSeq := 0 }

/-- R206: CHECK of a record's data. -/
def recordOk (r : DeepRec) : Bool :=
  decide (crc32c ((List.range (64 * r.len)).map (fun i => SMap.getD r.data i 0)) = r.check)

/-- R206, R200: a page is recreated from its record; its bytes beyond LEN × 64 read as zero. -/
def State.recreate (s : State) (d x : Nat) (r : DeepRec) : State :=
  (s.newPte r.page (deepPte d x r)).setPageData r.page (SMap.keep r.data (fun o _ => decide (o < 64 * r.len)))
/-- R206: one catalogue record read at start-up: of two for one page the one with the higher write sequence stands. -/
def State.scanRecord (s : State) (d x : Nat) (r : DeepRec) : State :=
  if !(recordOk r) then s.clearRecord d x
  else
    match s.pte r.page with
    | none => if s.leavesFit [r.page] then s.recreate d x r else s
    | some p =>
      let other := (SMap.find? s.mas.drives p.deepDrive).bind (fun v => SMap.find? v.records p.deepExtent)
      if p.deep ∧ (match other with | some o => o.seq | none => 0) < r.seq then
        (s.clearRecord p.deepDrive p.deepExtent).recreate d x r
      else s.clearRecord d x

/-- DEEP_CATALOGUE_SCAN (R206): at start-up the catalogues of the online drives are read, once. -/
def State.deepScan (s : State) : State :=
  if s.mas.scanDue then
    let s1 : State := { s with mas := { s.mas with scanDue := false } }
    s1.mas.drives.foldl (fun s e =>
      if s.rd F.DEEP_DRIVE_STATE e.1 = 1 then e.2.records.foldl (fun s q => s.scanRecord e.1 q.1 q.2) s else s) s1
  else s
def execDeepCatalogueScan (s : State) : Res := .next s.deepScan

end Sys2Proof.Machine
end

