-- ==== Sys2Proof/Machine/Stew.lean ====
section
/-!
DEFINITION. The module steward (R250 to R270): requests, admission, tenant budgets, prefix handles, micro-batches, commits,
latency tracking, cancels and final statuses.
-/
namespace Sys2Proof.Machine

/-! ## Requests and packages -/

def State.req (s : State) (slot : Nat) : Option Req := SMap.find? s.stew.reqs slot
def State.setReq (s : State) (slot : Nat) (r : Req) : State :=
  { s with stew := { s.stew with reqs := SMap.insert s.stew.reqs slot r } }
def State.freeReq (s : State) (slot : Nat) : State :=
  { s with stew := { s.stew with reqs := SMap.erase s.stew.reqs slot } }
/-- R251: the lowest free slot. -/
def State.lowestSlot (s : State) : Option Nat := (List.range 65536).find? (fun k => (s.req k).isNone)

def State.pkg (s : State) (h : Nat) : Option Pkg := SMap.find? s.wts.pkgs h
def State.setPkg (s : State) (h : Nat) (p : Pkg) : State :=
  { s with wts := { s.wts with pkgs := SMap.insert s.wts.pkgs h p } }
def State.dropPkg (s : State) (h : Nat) : State :=
  { s with wts := { s.wts with pkgs := SMap.erase s.wts.pkgs h } }
def State.loaded (s : State) (h : Nat) : Bool :=
  match s.pkg h with
  | some p => decide (p.st = .loaded)
  | none => false

/-- R244, R199: free both forms of a package, whose handle becomes ABSENT. -/
def State.freePkg (s : State) (h : Nat) : State :=
  match s.pkg h with
  | none => s
  | some p =>
    let mine := (s.mas.pages.filter (fun (e : Nat × Pte) => decide (e.2.owner = h))).map (·.1)
    ((mine.foldl (fun (s : State) pn => (s.markFreeing pn).getD s) s).newRecord 0xFFFF (.install h p.digest 0)).dropPkg h

/-- Fields of the request descriptor (R252). -/
def rqPkg (d : Nat) : Nat := bitsOf d 0 16
def rqAdapter (d : Nat) : Nat := bitsOf d 16 16
def rqClass (d : Nat) : Nat := bitsOf d 32 8
def rqRegister (d : Nat) : Bool := bitOf d 40
def rqPrefix (d : Nat) : Nat := bitsOf d 64 64
def rqPrompt (d : Nat) : Nat := bitsOf d 128 32
def rqMax (d : Nat) : Nat := bitsOf d 160 32
def rqRing (d : Nat) : Nat := bitsOf d 192 16
def rqSeed (d : Nat) : Nat := bitsOf d 256 64
def rqNew (d : Nat) : Nat := bitsOf d 320 64

/-- R252: the checks of stage 2 on the descriptor alone. -/
def State.descriptorOk (s : State) (d : Nat) : Bool :=
  decide (rqClass d < 16) && s.flag F.CLASS_CFG_ENABLED (rqClass d) && decide (bitsOf d 41 7 = 0) &&
  decide (bitsOf d 48 16 = 0) && decide (1 ≤ rqPrompt d) && decide (1 ≤ rqMax d) && decide (rqPrompt d + rqMax d ≤ 2 ^ 20) &&
  decide (bitsOf d 208 48 = 0) && decide (bitsOf d 384 128 = 0) && (rqRegister d == decide (rqNew d ≠ 0))

/-- A request's descriptor as a number. -/
def rqD (r : Req) : Nat := r.desc.toNat
/-- Admitted requests (R251). -/
def admitted (r : Req) : Bool := decide (r.st = .prefill ∨ r.st = .decode)

/-- The distinct dies of a placement, in pipeline order. -/
def placeDies (p : Pkg) : List Nat := p.tmpl.dies.eraseDups
def firstDie (p : Pkg) : Nat := (placeDies p).headD 0
def lastDie (p : Pkg) : Nat := (placeDies p).getLastD 0

/-- A request's priority: its class's, or the one its home gave it (R351). -/
def State.prioOf (s : State) (r : Req) : Nat := r.prio.getD (s.rd F.CLASS_CFG_PRIORITY (rqClass (rqD r)))

/-- R258: a request's deadline in nanoseconds. -/
def State.deadline (s : State) (r : Req) : Nat :=
  if r.tokens.isEmpty then r.accepted.getD s.now + 1000000 * s.rd F.CLASS_CFG_TTFT_TARGET_MS (rqClass (rqD r))
  else r.lastCommit + 1000000 * s.rd F.CLASS_CFG_TBT_TARGET_MS (rqClass (rqD r))

/-- Insert by a strict order, keeping equals in place; the sort of a list by it. -/
def insertBy {α : Type} (lt : α → α → Bool) (a : α) : List α → List α
  | [] => [a]
  | b :: l => if lt a b then a :: b :: l else b :: insertBy lt a l
def sortBy {α : Type} (lt : α → α → Bool) (l : List α) : List α := l.foldr (insertBy lt) []

/-! ## Tenants (R255, R256) -/

def State.level (s : State) (t : Nat) : Int := SMap.getD s.stew.levels t 0
def State.setLevel (s : State) (t : Nat) (v : Int) : State :=
  { s with stew := { s.stew with levels := SMap.setD s.stew.levels t v 0 } }
/-- R256: charge tokens to a tenant; the level saturates. -/
def State.charge (s : State) (t n : Nat) : State := s.setLevel t (max (s.level t - 1000 * (n : Int)) (-(2 ^ 47)))
def tenantCap (burst : Nat) : Int := 1000 * (burst : Int)
/-- R255: one tick's refill. -/
def State.refillOne (s : State) (t : Nat) : State :=
  let cap := tenantCap (s.rd F.TENANT_BUDGET_BURST t)
  let l := s.level t
  if cap ≤ l then s else s.setLevel t (min (l + (s.rd F.TENANT_BUDGET_RATE t : Int)) cap)
/-- R255: check 5. -/
def State.tenantMay (s : State) (t : Nat) : Bool := decide (-(1000 * (s.rd F.TENANT_BUDGET_DEBT t : Int)) < s.level t)
/-- A signed 32-bit value. -/
def signed32 (v : Nat) : Int := if v < 2 ^ 31 then (v : Int) else (v : Int) - 2 ^ 32
/-- R255: apply a write of RATE, BURST, DEBT or LEVEL. -/
def State.budgetApply (s : State) (t word v : Nat) : State :=
  match word with
  | 0 => s.wr F.TENANT_BUDGET_RATE v t
  | 1 => s.wr F.TENANT_BUDGET_BURST v t
  | 2 => s.wr F.TENANT_BUDGET_DEBT v t
  | _ => s.setLevel t (min (1000 * signed32 v) (tenantCap (s.rd F.TENANT_BUDGET_BURST t)))
/-- The LEVEL register (R271): whole tokens, rounded down, saturating at the 32-bit range. -/
def State.levelWord (s : State) (t : Nat) : Nat :=
  let l := s.level t / 1000
  (max (-(2 ^ 31)) (min l (2 ^ 31 - 1)) % 2 ^ 32).toNat
/-- LEVEL (R255): a write of a tenant's LEVEL waits for the tick. -/
def State.budgetWrite (s : State) (t word v : Nat) : State :=
  { s with stew := { s.stew with budgetWrites := s.stew.budgetWrites ++ [(t, word, v)] } }
def execLevel (t v : Nat) (s : State) : Res :=
  if t < 4096 then .next (if s.blocksShut then s.turnAway "LEVEL" else s.budgetWrite t 3 (v % 2 ^ 32)) else .refused (.noSuchUnit "tenant")

/-! ## Prefix handles (R259 to R261) -/

/-- Key of a handle: its tenant and value. -/
def pfxKey (t h : Nat) : Nat := t * 2 ^ 64 + h
def State.pfx (s : State) (t h : Nat) : Option Pfx := SMap.find? s.stew.prefixes (pfxKey t h)
def State.setPfx (s : State) (t h : Nat) (v : Pfx) : State :=
  { s with stew := { s.stew with prefixes := SMap.insert s.stew.prefixes (pfxKey t h) v } }
/-- R259: whether a handle resolves for a request's tenant, model digest and adapter. -/
def State.resolves (s : State) (t h : Nat) (digest : List Byte) (adapter : Nat) : Option Pfx :=
  match s.pfx t h with
  | some v => if !v.released && !v.lost && decide (v.digest = digest) && decide (v.adapter = adapter) then some v else none
  | none => none
/-- R338: a handle's state has changed. -/
def State.journalPfx (s : State) (t h : Nat) : State :=
  match s.pfx t h with
  | some v => s.newRecord 0xFFFF (.pfx h t v.parent v.refs v.acceptJsn v.released)
  | none => s
/-- R261: drop one reference; a RELEASED handle without references frees its pages and its hold on the handle it
continued. A chain has at most 8 handles. -/
def State.unrefPfx (s : State) (t h : Nat) : Nat → State
  | 0 => s
  | n + 1 =>
    match s.pfx t h with
    | none => s
    | some v =>
      let v' := { v with refs := v.refs - 1 }
      if v'.released ∧ v'.refs = 0 then
        let s1 := v.pages.foldl (fun (s : State) pn => (s.markFreeing pn).getD s) s
        let s2 := { s1 with stew := { s1.stew with prefixes := SMap.erase s1.stew.prefixes (pfxKey t h) } }
        if v.parent = 0 then s2 else s2.unrefPfx t v.parent n
      else s.setPfx t h v'
/-- R261: release a handle: whether it exists, and the state after. Its pages go when no reference is left. -/
def State.releasePfx (s : State) (t h : Nat) : Bool × State :=
  match s.pfx t h with
  | none => (false, s)
  | some v =>
    if v.released then (true, s)
    else
      let s1 := (s.setPfx t h { v with released := true, refs := v.refs + 1 }).journalPfx t h
      (true, s1.unrefPfx t h 8)

/-! ## KV pages (R254) -/

/-- Pages that hold the KV of `n` positions. -/
def kvPages (kvb n : Nat) : Nat := (n * kvb + 2097151) / 2097152
/-- R254: a request's reservation. -/
def reservation (kvb d : Nat) : Nat := kvPages kvb (rqPrompt d) + kvPages kvb (rqMax d)
/-- R254: the frames of a budget that reservations may use. -/
def State.kvRoom (s : State) (b : Nat) : Nat :=
  s.rd F.BUDGET_LIMIT b - s.rd F.BUDGET_WINDOW b -
  SMap.countIf s.mas.pages (fun _ p => decide (p.budget = b) && p.isSealed && decide (p.place = 1))
/-- Frames reserved by the admitted requests of a budget. -/
def State.kvReserved (s : State) (b : Nat) : Nat :=
  s.stew.reqs.foldl (fun a e =>
    match s.pkg (rqPkg (rqD e.2)) with
    | some p => if admitted e.2 && decide (p.budget = b) then a + e.2.reserved else a
    | none => a) 0

/-- The first of `n` consecutive page numbers that no page and no request's KV run uses (notes/assumptions/24). -/
def State.pickRun (s : State) (n : Nat) : Nat :=
  let used := s.mas.pages.map (fun (e : Nat × Pte) => (e.1, 1)) ++
    (s.stew.reqs.filter (fun e => decide (0 < e.2.reserved))).map (fun (e : Nat × Req) => (e.2.run, e.2.reserved))
  let starts := 0 :: used.map (fun u => u.1 + u.2)
  let free := starts.filter (fun a => used.all (fun u => decide (a + n ≤ u.1 ∨ u.1 + u.2 ≤ a)))
  match free with
  | [] => 0
  | a :: l => l.foldl min a

/-- R263, R199: a request's writable KV pages are freed. -/
def State.dropKv (s : State) (slot : Nat) : State :=
  match s.req slot with
  | none => s
  | some r =>
    let mine := (List.range r.reserved).map (fun i => r.run + i)
    let s1 := mine.foldl (fun (s : State) pn =>
      match s.pte pn with
      | some p => if p.isSealed then s else (s.markFreeing pn).getD s
      | none => s) s
    s1.setReq slot { r with mapped := 0, omapped := 0, reserved := 0 }

/-! ## Ends of requests (R268, R269) -/

def finalCode : Final → Nat
  | .none => 0
  | .complete => 1
  | .cancelled => 2
  | .nobind => 3
  | .noprefix => 4
  | .noentitle => 5
  | .nofit => 6
  | .expired => 7
  | .bound => 8
  | .deadlock => 9
  | .timeout => 10
  | .aborted => 11
  | .moved => 12

/-- R301: a final record, or the values so far while FINAL is 0 (R291). -/
def finalRecord (slot : Nat) (r : Req) (session by' : Nat) : List Byte :=
  toBytes slot 2 ++ toBytes (finalCode r.final) 1 ++ toBytes (b2n r.pfxRefused) 1 ++ toBytes session 2 ++ toBytes r.tenant 2 ++
  toBytes r.sub 8 ++ toBytes r.tokens.length 4 ++ toBytes r.charged 4 ++ toBytes (r.ttft.getD 0xFFFFFFFF) 4 ++
  toBytes r.maxTbt 4 ++ toBytes r.dropped 4 ++ toBytes r.full 4 ++ toBytes r.nans 4 ++ toBytes (min r.preempts 255) 1 ++
  toBytes 0 1 ++ toBytes by' 2 ++ toBytes 0 16

/-- R265, R268: answer the cancels that wait on a request whose final status is decided. -/
def State.answerCancels (s : State) (r : Req) : State :=
  r.cancels.foldl (fun s c =>
    if r.final = .cancelled then s.answerSeq c.1 c.2 0 0 []
    else s.answerSeq c.1 c.2 2 (finalCode r.final) []) s

/-- R268, R338: a request ends: its KV pages and references go, and its FINAL record is journaled; the final status of a
member's request goes to its home instead (R353). -/
def State.endReq (s : State) (slot : Nat) (f : Final) : State :=
  match s.req slot with
  | none => s
  | some r0 =>
    if r0.st = .ending then s
    else
      let s0 := s.dropKv slot
      let r := { ((s0.req slot).getD r0) with st := .ending, final := f, flying := none, cancels := [] }
      let s1 := s0.setReq slot r
      let s2 := if r.holdsPfx then s1.unrefPfx r.tenant (rqPrefix (rqD r)) 8 else s1
      let s3 := if r.holdsAdapter then
          (match s2.pkg (rqAdapter (rqD r)) with
           | some a =>
             let s3 := s2.setPkg (rqAdapter (rqD r)) { a with bound := a.bound - 1 }
             if a.leaving ∧ a.bound ≤ 1 then s3.freePkg (rqAdapter (rqD r)) else s3
           | none => s2)
        else s2
      let s4 := s3.setReq slot { r with holdsPfx := false, holdsAdapter := false }
      let s5 := s4.answerCancels { r with cancels := r0.cancels }
      let rec' := finalRecord slot r (sessionField r.session r.gen) 0xFFFF
      match r.member with
      | some (home, origin, oslot) =>
        (s5.sendMsg home 0x2B slot (toBytes oslot 2 ++ toBytes 2 1 ++ toBytes origin 2) rec').freeReq slot
      | none => s5.newRecord slot (.final rec')

/-- R254, R197: map the KV pages that a request's positions reach; one that would need a 1,024th leaf ends the request NOFIT
(R193). -/
def State.growKv (s : State) (slot : Nat) : State :=
  match s.req slot with
  | none => s
  | some r =>
    match s.pkg (rqPkg (rqD r)) with
    | none => s
    | some p =>
      let prompt := min (r.done - r.rebuilt) (rqPrompt (rqD r))
      let out := max (r.produced) (r.done - r.rebuilt - rqPrompt (rqD r))
      let a := if r.mapped = 0 ∧ r.reserved < reservation p.tmpl.kvb (rqD r) then 0 else kvPages p.tmpl.kvb prompt
      let b := kvPages p.tmpl.kvb out
      let base := r.run + (if r.reserved < reservation p.tmpl.kvb (rqD r) then 0 else kvPages p.tmpl.kvb (rqPrompt (rqD r)))
      let add := ((List.range a).drop r.mapped).map (fun i => r.run + i) ++ ((List.range b).drop r.omapped).map (fun i => base + i)
      let new := add.filter (fun pn => (s.pte pn).isNone)
      if ¬ s.leavesFit new ∨ s.nearFree < new.length then s.endReq slot .nofit
      else (new.foldl (fun (s : State) pn => s.mapPage pn p.budget 0) s).setReq slot { r with mapped := max a r.mapped, omapped := max b r.omapped }
/-! ## Commit of tokens (R340, R256, R257) -/

/-- R257: note a latency against a class target, in nanoseconds. -/
def State.noteLatency (s : State) (cls ns : Nat) (first : Bool) : State :=
  if first then
    (if ns ≤ 1000000 * s.rd F.CLASS_CFG_TTFT_TARGET_MS cls then s.bump F.CLASS_STATS_TTFT_MET 1 cls
     else s.bump F.CLASS_STATS_TTFT_MISSED 1 cls)
  else if ns ≤ 1000000 * s.rd F.CLASS_CFG_TBT_TARGET_MS cls then s.bump F.CLASS_STATS_TBT_MET 1 cls
  else s.bump F.CLASS_STATS_TBT_MISSED 1 cls

/-- R297, R298: a token waits to be written to its ring: key of a ring. -/
def ringKey (session ring : Nat) : Nat := session * 64 + ring
def State.ringPut (s : State) (k : Nat) (t : RingTok) : State :=
  match SMap.find? s.host.rings k with
  | none => s
  | some g => { s with host := { s.host with rings := SMap.insert s.host.rings k { g with waiting := g.waiting ++ [t] } } }

/-- R262: EST of a placement and row count. -/
def estKey (h n : Nat) : Nat := h * 32768 + n
def State.est (s : State) (h n : Nat) : Nat := SMap.getD s.stew.est (estKey h n) 0
/-- R262: EST moves an eighth of the way to the measurement. -/
def State.measure (s : State) (h key t : Nat) : State :=
  let e := s.est h key
  let v := if e ≤ t then e + (t - e) / 8 else e - (e - t) / 8
  { s with stew := { s.stew with est := SMap.setD s.stew.est (estKey h key) v 0 } }
def State.flightsOf (s : State) (h : Nat) : List Flight := SMap.getD s.stew.flights h []
def State.setFlights (s : State) (h : Nat) (l : List Flight) : State :=
  { s with stew := { s.stew with flights := SMap.setD s.stew.flights h l [] } }

/-- R262: a slot's commit of a stepped micro-batch is complete; the last one measures it. -/
def State.flightCommit (s : State) (h slot : Nat) : State :=
  match (s.flightsOf h).find? (fun f => f.stepped && f.commits.contains slot) with
  | none => s
  | some f =>
    let f' := { f with commits := f.commits.erase slot }
    if f'.commits.isEmpty then
      (s.setFlights h ((s.flightsOf h).erase f)).measure h f.key (s.now - f.since)
    else s.setFlights h ((s.flightsOf h).map (fun g => if g = f then f' else g))

/-- R340, R256, R257: a token of a slot is committed: charged, timed and queued for its ring. The request's last token ends
it COMPLETE; a cancel whose step this was ends it CANCELLED (R265). -/
def State.commitToken (s : State) (slot index value : Nat) : State :=
  match s.req slot with
  | none => s
  | some r =>
    if index ≠ r.tokens.length + 1 then s
    else
      let first := r.tokens.isEmpty
      let span := s.now - (if first then r.accepted.getD s.now else r.lastCommit)
      let last := r.ended && decide (index = r.produced)
      let r' : Req := { r with
        tokens := r.tokens ++ [value], lastCommit := s.now, charged := r.charged + 1,
        ttft := if first then some (min (span / 1000) 0xFFFFFFFE) else r.ttft,
        maxTbt := if first then r.maxTbt else max r.maxTbt (min (span / 1000) 0xFFFFFFFF) }
      let s1 := ((s.setReq slot r').charge r.tenant 1).noteLatency (rqClass (rqD r)) span first
      let s2 := s1.ringPut (ringKey r.session (rqRing (rqD r)))
        { slot := slot, last := last, token := value, index := index, subSeq := r.sub, time := s.now / 1000, origin := none }
      let s3 := s2.flightCommit (rqPkg (rqD r)) slot
      if last then s3.endReq slot .complete
      else if r.cancelled ∧ r.flying = none ∧ index = r.produced then s3.endReq slot .cancelled
      else s3

/-! ## Admission (R253) -/

/-- R293: the protection set-up that a die applies. -/
def State.dieProt (s : State) (die : Nat) : Protection := SMap.getD s.host.dieSetup die Protection.empty
/-- R293: check 1's window, in force at the die. -/
def State.entitled (s : State) (die t h : Nat) : Bool :=
  let p := s.dieProt die
  let w := SMap.getD p.tenants t (false, 0)
  w.1 && bitOf w.2 (SMap.getD p.groups h 0)
/-- R295: whether a tenant's requests may enter every slot of a placement. -/
def State.slotsAdmit (s : State) (die t : Nat) (p : Pkg) : Bool :=
  p.slots.all (fun c => match SMap.find? (s.dieProt die).owners (dieCtx c.1 c.2) with
    | some (true, u) => decide (u = t)
    | _ => true)
/-- R246: check 2. -/
def State.binds (s : State) (r : Req) (p : Pkg) : Bool :=
  let h := rqAdapter (rqD r)
  if h = 0 then true
  else match s.pkg h with
    | some a =>
      decide (a.st = .installed) && !a.leaving && (match a.adapter with
        | some (base, t) => decide (base = p.digest) && (decide (t = 0xFFFF) || decide (t = r.tenant))
        | none => false)
    | none => false
/-- Positions of the prefix a request reads (R253, R259). -/
def State.prefixPositions (s : State) (r : Req) (p : Pkg) : Option Nat :=
  if rqPrefix (rqD r) = 0 then some 0 else (s.resolves r.tenant (rqPrefix (rqD r)) p.digest (rqAdapter (rqD r))).map (·.positions)

/-- R266: a function that admits nothing more on a die. -/
def State.stopsAdmission (s : State) (k : FnKind) (i die : Nat) : Bool :=
  s.stew.disabled.contains (k, i) || s.stew.disables.any (fun d => decide (d.kind = k) && decide (d.id = i) && d.passed.contains die)
/-- R267: a function in which a PREEMPTED request no longer resumes: disabled, or past its deadline. -/
def State.stopsResume (s : State) (k : FnKind) (i _die : Nat) : Bool :=
  s.stew.disabled.contains (k, i) || s.stew.disables.any (fun d => decide (d.kind = k) && decide (d.id = i) && decide (d.deadline ≤ s.now))
/-- Whether one of the functions a request needs is stopped in the sense `stops`. -/
def blockedReq (stops : FnKind → Nat → Nat → Bool) (r : Req) (p : Pkg) : Bool :=
  stops .tenant r.tenant (firstDie p) || stops .model (rqPkg (rqD r)) (firstDie p) ||
  p.slots.any (fun c => stops .die c.1 c.1 || stops .context (dieCtx c.1 c.2) c.1)

/-- R262: the positions a request's prefill covers: its prompt, and for a rebuild its committed tokens and, on a member, the
prefix. -/
def rebuildNeed (r : Req) : Nat := r.rebuilt + rqPrompt (rqD r) + r.tokens.length

/-- R253, R256: admission itself. -/
def State.admitNow (s : State) (slot : Nat) (r : Req) (p : Pkg) : State :=
  let n := reservation p.tmpl.kvb (rqD r)
  let charge := if r.wasAdmitted ∨ r.st = .preempted then 0
    else (rqPrompt (rqD r) * s.rd F.CLASS_CFG_PREFILL_W (rqClass (rqD r)) + 15) / 16
  let takePfx := decide (rqPrefix (rqD r) ≠ 0) && decide (r.st = .waiting) && !r.wasAdmitted
  let takeAd := decide (rqAdapter (rqD r) ≠ 0) && decide (r.st = .waiting)
  let s1 := if takePfx then
      (match s.pfx r.tenant (rqPrefix (rqD r)) with
       | some v => s.setPfx r.tenant (rqPrefix (rqD r)) { v with refs := v.refs + 1 }
       | none => s)
    else s
  let s2 := if takeAd then
      (match s1.pkg (rqAdapter (rqD r)) with
       | some a => s1.setPkg (rqAdapter (rqD r)) { a with bound := a.bound + 1 }
       | none => s1)
    else s1
  let r' : Req := { r with
    st := .prefill, need := rebuildNeed r, done := 0, reserved := n, run := s2.pickRun n, mapped := 0, omapped := 0,
    charged := r.charged + charge, holdsPfx := r.holdsPfx || takePfx, holdsAdapter := r.holdsAdapter || takeAd }
  (s2.setReq slot r').charge r.tenant charge

/-- R263: the admitted request of a budget to evict for `need` frames, if one meets the conditions. -/
def State.evictee (s : State) (b prio need : Nat) : Option Nat :=
  let ok := s.stew.reqs.filter (fun e =>
    match s.pkg (rqPkg (rqD e.2)) with
    | some p => admitted e.2 && decide (p.budget = b) && decide (prio < s.prioOf e.2) &&
        decide (e.2.preempts < s.rd F.SCHED_CFG_PREEMPT_MAX) && decide (need ≤ e.2.reserved) && !e.2.evict
    | none => false)
  (ok.foldl (fun (g : Option (Nat × Nat)) e =>
    match g with
    | none => some (e.1, s.deadline e.2)
    | some (_, t) => if t ≤ s.deadline e.2 then some (e.1, s.deadline e.2) else g) none).map (·.1)

/-- R263: an admitted request of the budget is already marked to leave. -/
def State.evicting (s : State) (b : Nat) : Bool :=
  s.stew.reqs.any (fun e => e.2.evict && (match s.pkg (rqPkg (rqD e.2)) with
    | some p => decide (p.budget = b)
    | none => false))

/-- R253, R263: the checks on one request that waits; `die` is the first die of its placement. -/
def State.admitOne (s : State) (die slot : Nat) : State :=
  match s.req slot with
  | none => s
  | some r =>
    match s.pkg (rqPkg (rqD r)) with
    | none => s
    | some p =>
      let free := s.kvRoom p.budget - s.kvReserved p.budget
      let need := reservation p.tmpl.kvb (rqD r)
      let room := decide (need ≤ free)
      let tryEvict := fun (s : State) =>
        if s.flag F.SCHED_CFG_PREEMPT ∧ ¬ s.evicting p.budget then
          match s.evictee p.budget (s.prioOf r) (need - free) with
          | some v => (match s.req v with
            | some q => s.setReq v { q with evict := true }
            | none => s)
          | none => s
        else s
      if r.st = .preempted then (if room ∧ ¬ blockedReq s.stopsResume r p then s.admitNow slot r p else s)
      else if r.st ≠ .waiting then s
      else match r.accepted with
        | none => s
        | some t =>
          if blockedReq s.stopsAdmission r p then s.endReq slot .aborted
          else if t + 1000000 * s.rd F.CLASS_CFG_ADMIT_LIMIT_MS (rqClass (rqD r)) < s.now then s.endReq slot .expired
          else if ¬ s.entitled die r.tenant (rqPkg (rqD r)) then s.endReq slot .noentitle
          else if ¬ s.binds r p then s.endReq slot .nobind
          else
            match (if r.wasAdmitted then some r.rebuilt else s.prefixPositions r p) with
            | none => s.endReq slot .noprefix
            | some pp =>
              if 2 ^ 20 < pp + rqPrompt (rqD r) + rqMax (rqD r) ∨ s.kvRoom p.budget < need then s.endReq slot .nofit
              else if ¬ r.wasAdmitted ∧ ¬ s.tenantMay r.tenant then s
              else if ¬ s.slotsAdmit die r.tenant p then s
              else if room then s.admitNow slot r p
              else tryEvict s

/-- R253: the order of admission: PRIORITY, a PREEMPTED request first, then acceptance. -/
def State.admitBefore (s : State) (a b : Nat × Req) : Bool :=
  let pa := s.prioOf a.2
  let pb := s.prioOf b.2
  let qa := if a.2.st = .preempted then 0 else 1
  let qb := if b.2.st = .preempted then 0 else 1
  decide (pa < pb ∨ (pa = pb ∧ (qa < qb ∨ (qa = qb ∧ a.2.order < b.2.order))))
def State.admission (s : State) (die h : Nat) : State :=
  let ws := s.stew.reqs.filter (fun e => decide (rqPkg (rqD e.2) = h) && (decide (e.2.st = .waiting) || decide (e.2.st = .preempted)))
  (sortBy s.admitBefore ws).foldl (fun s e => s.admitOne die e.1) s

/-- R263: marked requests leave the micro-batches at the next boundary, unless in flight. -/
def State.evictMarked (s : State) (h : Nat) : State :=
  s.stew.reqs.foldl (fun s e =>
    if e.2.evict && decide (rqPkg (rqD e.2) = h) && admitted e.2 && e.2.flying.isNone then
      let s1 := s.dropKv e.1
      match s1.req e.1 with
      | some r => s1.setReq e.1 { r with st := .preempted, evict := false, preempts := r.preempts + 1 }
      | none => s1
    else s) s

/-! ## Cancels at a boundary (R265) -/

/-- R265: a cancelled request whose cancel can take effect: no step in flight and every produced token committed. One that
produced its final token ends COMPLETE. -/
def cancelDue (r : Req) : Bool :=
  r.cancelled && r.flying.isNone && !r.ended && decide (r.produced = r.tokens.length) && decide (r.st ≠ .ending)
/-- The cancels of a placement that take effect at a boundary of a die; those of WAITING and PREEMPTED requests wait for one of its
`first` die. -/
def State.applyCancels (s : State) (h : Nat) (first : Bool) : State :=
  s.stew.reqs.foldl (fun s e =>
    if cancelDue e.2 && decide (rqPkg (rqD e.2) = h) && (first || admitted e.2) then s.endReq e.1 .cancelled else s) s

/-! ## Micro-batches (R262) -/

/-- Rows a request asks for. -/
def State.rowsOf (s : State) (r : Req) : Nat :=
  if r.st = .decode then 1 else min (r.need - r.done) (s.rd F.SCHED_CHUNK_PREFILL_CHUNK)
/-- R262: requests that may join: admitted, no step in flight, tokens still to produce. -/
def State.candidates (s : State) (h : Nat) : List (Nat × Req) :=
  sortBy (fun (a b : Nat × Req) => decide (s.deadline a.2 < s.deadline b.2 ∨ (s.deadline a.2 = s.deadline b.2 ∧ a.1 < b.1)))
    (s.stew.reqs.filter (fun e => admitted e.2 && decide (rqPkg (rqD e.2) = h) && e.2.flying.isNone && !e.2.ended &&
      !e.2.cancelled && !e.2.evict && e.2.awaitAck.isNone))
/-- The set taken with room for `n` rows: slots with rows, and whether each is in decode. -/
def State.takeRows (s : State) (lanes : Nat) : List (Nat × Req) → Nat → List Nat → List (Nat × Nat × Req)
  | [], _, _ => []
  | e :: l, room, ads =>
    let a := rqAdapter (rqD e.2)
    let ads' := if a = 0 ∨ ads.contains a then ads else ads ++ [a]
    if room = 0 ∨ lanes < ads'.length then []
    else
      let n := min (s.rowsOf e.2) room
      (e.1, n, e.2) :: s.takeRows lanes l (room - n) ads'
/-- The tabulated row count for `n`: the smallest power of two not below it. -/
def tabulated (n : Nat) : Nat := ((List.range 15).map (2 ^ ·)).find? (fun p => decide (n ≤ p)) |>.getD 16384
/-- R262: the sizes tried, largest first. -/
def sizes (limit : Nat) : List Nat :=
  let ps := ((List.range 15).map (2 ^ ·)).filter (fun p => decide (p ≤ limit))
  (if ps.contains limit then ps else ps ++ [limit]).reverse
/-- R262: the micro-batch the steward forms: its size and the rows taken. -/
def State.chooseBatch (s : State) (h : Nat) (p : Pkg) : Nat × List (Nat × Nat × Req) :=
  let limit := min (min (s.rd F.SCHED_CFG_MB_MAX) (65536 / max p.tmpl.maxK 1)) 16384
  let cand := s.candidates h
  let fits := fun (n : Nat) (t : List (Nat × Nat × Req)) =>
    t.all (fun e => !decide (e.2.2.st = .decode) || decide (s.now + s.est h (tabulated n) ≤ s.deadline e.2.2))
  match (sizes limit).find? (fun n => fits n (s.takeRows p.tmpl.lanes cand n [])) with
  | some n => (n, s.takeRows p.tmpl.lanes cand n [])
  | none => (1, s.takeRows p.tmpl.lanes cand 1 [])
/-- R394: the draws of the tokens a micro-batch will sample. -/
def State.emitDraws (s : State) (rows : List (Nat × Nat × Req)) : State :=
  rows.foldl (fun (s : State) e =>
    if e.2.2.st = .decode ∨ e.2.2.done + e.2.1 = e.2.2.need then
      s.emit (.draws e.1 (e.2.2.produced + 1) (uniformDraws (rqSeed (rqD e.2.2)) (e.2.2.produced + 1) 0))
    else s) s
/-- R154: the smallest bucket not below a live extent; a dimension without buckets takes any extent. -/
def bucketAt (bs : List Nat) (n : Nat) : Option Nat :=
  if bs.all (fun b => decide (b = 0)) then some 0 else (bs.filter (fun b => decide (n ≤ b))).min?
/-- R154: the live rows of the pieces that `n` rows are split into, each at most the largest bucket. -/
def rowPieces (bs : List Nat) (n : Nat) : List Nat :=
  let m := bs.foldl max 0
  if m = 0 then [n] else List.replicate (n / m) m ++ (if n % m = 0 then [] else [n % m])
/-- Positions of a request that a step with `n` of its rows reaches. -/
def extentOf (r : Req) (n : Nat) : Nat := if r.st = .decode then r.need + r.produced else r.done + n
/-- R155: whether a slot of the package holds one of its contexts. -/
def State.holdsCtx (s : State) (h : Nat) (p : Pkg) (k : Nat) : Bool :=
  p.slots.any (fun c => (decide (s.slotState c.1 c.2 = 2) || decide (s.slotState c.1 c.2 = 3)) &&
    (match SMap.find? s.arr.images (dieCtx c.1 c.2) with
     | some img => decide (img.pkg = h) && decide (img.idx = k)
     | none => false))
/-- R154: the pieces of a step of a bucket-mode package; none when an extent beside the rows is above every bucket. -/
def State.bucketRuns (s : State) (h : Nat) (p : Pkg) (rows : List (Nat × Nat × Req)) : Option (List Out) :=
  let rs := p.tmpl.buckets.map (·.1)
  let live := rows.foldl (fun a e => a + e.2.1) 0
  let reach := rows.foldl (fun a e => max a (extentOf e.2.2 e.2.1)) 0
  (bucketAt (p.tmpl.buckets.map (·.2.1)) reach).map (fun pos =>
    (rowPieces rs live).map (fun n =>
      let b := (bucketAt rs n).getD 0
      let k := ((p.tmpl.buckets.find? (fun e => decide (e.1 = b) && decide (e.2.1 = pos))).map (·.2.2)).getD 0
      .bucket h k n b pos (!s.holdsCtx h p k)))

/-- R262, R154: form the next micro-batch of a placement, while it has fewer in flight than stages. In bucket mode a step beyond
every bucket ends its requests BOUND. -/
def State.formBatch (s : State) (h : Nat) (p : Pkg) : State :=
  let fs := s.flightsOf h
  if p.tmpl.stages ≤ (fs.filter (fun f => !f.stepped)).length then s
  else
    let b := s.chooseBatch h p
    let runs := if p.bucket then s.bucketRuns h p b.2 else some []
    if b.2.isEmpty then s
    else if runs.isNone then b.2.foldl (fun (s : State) e => s.endReq e.1 .bound) s
    else
      let rows := b.2.map (fun e => (e.1, e.2.1))
      let s1 := b.2.foldl (fun (s : State) e => s.setReq e.1 { e.2.2 with flying := some e.2.1 }) s
      let f : Flight := { rows := rows, key := tabulated b.1, since := s.now, stage := 0, replayed := false, stepped := false,
                          commits := [], drops := [] }
      (runs.getD []).foldl State.emit (((s1.setFlights h (fs ++ [f])).emitDraws b.2).emit (.microBatch h rows))

/-! ## Completion of a step (R150, R260) -/

/-- R260: a request's prompt is complete: seal its run, move it to budget 0 and register the handle, or set
PREFIX_REFUSED. -/
def State.registerPrefix (s : State) (slot : Nat) : State :=
  match s.req slot with
  | none => s
  | some r =>
    match s.pkg (rqPkg (rqD r)) with
    | none => s
    | some p =>
      let parent := if rqPrefix (rqD r) = 0 then none else s.pfx r.tenant (rqPrefix (rqD r))
      if r.st = .ending then s else
      let chain := match parent with
        | some v => v.chain + 1
        | none => 1
      if (s.pfx r.tenant (rqNew (rqD r))).isSome ∨ 1048576 ≤ s.stew.prefixes.length ∨ 8 < chain then
        s.setReq slot { r with pfxRefused := true, registered := true }
      else
        let n := kvPages p.tmpl.kvb (rqPrompt (rqD r))
        let pages := (List.range n).map (fun i => r.run + i)
        let used := (rqPrompt (rqD r) * p.tmpl.kvb + 63) / 64
        let s1 := (List.range n).foldl (fun (s : State) i =>
          let len := if i + 1 = n then used - 32768 * i else 32768
          (s.sealPage (r.run + i) len 0 true).setPlace (r.run + i) 0 0) s
        let s2 := match parent with
          | some v => s1.setPfx r.tenant (rqPrefix (rqD r)) { v with refs := v.refs + 1 }
          | none => s1
        let v : Pfx := { digest := p.digest, adapter := rqAdapter (rqD r),
                         positions := rqPrompt (rqD r) + (match parent with
                           | some v => v.positions
                           | none => 0),
                         pages := pages, parent := rqPrefix (rqD r), refs := 0, released := false, lost := false, chain := chain,
                         input := r.input, acceptJsn := r.acceptJsn }
        let s3 := s2.setPfx r.tenant (rqNew (rqD r)) v
        (s3.setReq slot { r with reserved := r.reserved - n, run := r.run + n, mapped := 0, registered := true }).journalPfx r.tenant (rqNew (rqD r))

/-- One request's part in a completed step; `drops` are the entries of the step's drop reports (R182). -/
def State.stepReq (s : State) (slot rows : Nat) (res : Option StepResult) (drops : List (Nat × Nat × Nat × Nat × Nat)) : State :=
  match s.req slot with
  | none => s
  | some r =>
    let done := if r.st = .prefill then r.done + rows else r.done
    let full := decide (r.st = .prefill) && decide (done = r.need)
    let mine := (drops.filter (fun e => decide (e.2.1 = slot))).map (·.2.2)
    let r1 : Req := { r with
      flying := none, done := done, st := if full then .decode else r.st,
      dropped := mine.foldl (fun n e => n + e.1) r.dropped, full := mine.foldl (fun n e => n + e.2.1) r.full,
      nans := mine.foldl (fun n e => n + e.2.2) r.nans }
    let s0 := if full && r.member.isSome && r.wasAdmitted then s.bump F.FAILOVER_CNT_COUNT 1 2 else s
    let s1 := (s0.setReq slot r1).growKv slot
    let s2 := if full && rqRegister (rqD r) && !r.registered && decide (r.tokens = []) && r.member.isNone then s1.registerPrefix slot else s1
    match s2.req slot, res with
    | some r2, some v =>
      (match v.token with
       | some t =>
         if r2.st = .decode ∧ ¬ r2.ended then
           let i := r2.produced + 1
           let ended := v.eos || decide (i = rqMax (rqD r2))
           match r2.member with
           | some (home, origin, oslot) =>
             (s2.setReq slot { r2 with produced := i, ended := ended, awaitAck := some t }).sendMsg home 0x29 slot
               (toBytes oslot 2 ++ toBytes i 4 ++ toBytes t 4 ++ toBytes (b2n ended) 1 ++ toBytes origin 2) []
           | none => (s2.setReq slot { r2 with produced := i, ended := ended }).newRecord slot (.commit [(i, t)])
         else s2
       | none => s2)
    | _, _ => s2

/-- R262: the micro-batch at the last die has completed its step: its requests move on, and it waits for its commits or is
measured now. -/
def State.completeFlight (s : State) (h : Nat) (f : Flight) (results : List StepResult) : State :=
  let s1 := f.rows.foldl (fun (s : State) e => s.stepReq e.1 e.2 (results.find? (fun r => decide (r.slot = e.1))) f.drops) s
  let waits := (f.rows.map (·.1)).filter (fun k =>
    match s1.req k with
    | some r => decide (r.tokens.length < r.produced) && r.member.isNone
    | none => false)
  if waits.isEmpty then
    (s1.setFlights h ((s1.flightsOf h).erase f)).measure h f.key (s.now - f.since)
  else s1.setFlights h ((s1.flightsOf h).map (fun g => if g = f then { f with stepped := true, commits := waits } else g))

/-- A die has completed a step of a placement: the oldest micro-batch at that stage moves on. -/
def State.advanceFlight (s : State) (die h : Nat) (p : Pkg) (results : List StepResult) : State :=
  let ds := placeDies p
  match (s.flightsOf h).find? (fun f => !f.stepped && decide (ds.getD f.stage 0 = die)) with
  | none => s
  | some f =>
    if f.stage + 1 < ds.length then
      s.setFlights h ((s.flightsOf h).map (fun g => if g = f then { f with stage := f.stage + 1 } else g))
    else s.completeFlight h f results

/-! ## Step boundaries (R150, R289, R266) -/

/-- R289: one die applies a protection change. -/
def ProtChange.applyTo (c : ProtChange) (p : Protection) : Protection :=
  match c.kind with
  | 0 => { p with tenants := SMap.insert p.tenants c.index (bitOf c.value 0, c.value / 2) }
  | 2 => { p with owners := SMap.insert p.owners c.index (bitOf c.value 0, c.value / 2) }
  | 3 => { p with groups := SMap.insert p.groups c.index c.value }
  | _ => p
def State.applyProtection (s : State) (die : Nat) : State :=
  let mine := s.host.changes.filter (fun c => c.waiting.contains die)
  let p := mine.foldl (fun p c => ProtChange.applyTo c p) (s.dieProt die)
  { s with host := { s.host with
    dieSetup := if mine.isEmpty then s.host.dieSetup else SMap.insert s.host.dieSetup die p,
    changes := s.host.changes.map (fun c => { c with waiting := c.waiting.filter (fun d => decide (d ≠ die)) }) } }

/-- R266: whether a disable's function has a part on a die. -/
def State.disableOnDie (s : State) (d : Disable) (die : Nat) : Bool :=
  match d.kind with
  | .die => decide (d.id = die)
  | .context => decide (d.id / 4 = die)
  | .model => match s.pkg d.id with
    | some p => (placeDies p).contains die
    | none => true
  | .tenant => true
  | .linkPort => false
/-- R266 step 1: at the boundary of an affected die admission to the function stops there, and WAITING requests that need it end
ABORTED. -/
def State.stopDisabled (s : State) (die : Nat) : State :=
  let hit := s.stew.disables.filter (fun d => !d.passed.contains die && s.disableOnDie d die)
  if hit.isEmpty then s
  else
    let s1 := { s with stew := { s.stew with
      disables := s.stew.disables.map (fun d => if hit.contains d then { d with passed := d.passed ++ [die] } else d) } }
    s1.stew.reqs.foldl (fun (s : State) e =>
      match s.pkg (rqPkg (rqD e.2)) with
      | some p => if e.2.st = .waiting ∧ blockedReq s.stopsAdmission e.2 p then s.endReq e.1 .aborted else s
      | none => s) s1

/-- Loaded packages whose first die is `die`. -/
def State.placedFirst (s : State) (die : Nat) : List (Nat × Pkg) :=
  s.wts.pkgs.filter (fun e => decide (e.2.st = .loaded) && decide (firstDie e.2 = die))

/-- R264: at the end of a step that filled a bubble, firmware selects the original slot again once its next input has arrived. -/
def State.endBubble (s : State) (die : Nat) : State :=
  match SMap.find? s.arr.bubble die with
  | none => s
  | some c =>
    if s.arr.feed.any (fun e => decide (e.1 / 4 / 65536 = die) && decide (e.1 % 4 = c) && !e.2.isEmpty) then
      ({ s with arr := { s.arr with bubble := SMap.erase s.arr.bubble die } }).emit (.select die c)
    else s

/-- What takes effect at a step boundary of a die (R150): the results of a step that used the slots `step` (R27), protection changes,
disables, cancels, evictions, admission and the next micro-batch, stack moves and TIME_REPEAT. -/
def State.boundary (s : State) (die : Nat) (step : Option (List Nat)) (results : List StepResult) : State :=
  let s1 : State := match step with
    | none => s
    | some used => s.wts.pkgs.foldl (fun (s : State) (e : Nat × Pkg) =>
      if e.2.st = .loaded ∧ e.2.slots.any (fun c => decide (c.1 = die) && used.contains c.2) then s.advanceFlight die e.1 e.2 results
      else s) s
  let s2 := (s1.applyProtection die).stopDisabled die
  let s3 := s2.wts.pkgs.foldl (fun (s : State) e =>
    if (placeDies e.2).contains die then s.applyCancels e.1 (decide (firstDie e.2 = die)) else s) s2
  let s4 := if s3.boot.stopping then s3 else
    (s3.placedFirst die).foldl (fun (s : State) e => ((s.evictMarked e.1).admission die e.1).formBatch e.1 e.2) s3
  let s5 := (if s4.dieQuiet die then s4.moveRetired die else s4).endBubble die
  let bit := 2 ^ die
  let want := bitOf (s5.rd F.TIME_REPEAT_DIE) die
  let have' := bitOf s5.arr.timeRepeat die
  if want = have' then s5
  else { s5 with arr := { s5.arr with timeRepeat := if want then s5.arr.timeRepeat + bit else s5.arr.timeRepeat - bit } }

/-- R150: no STEP_MASTER stream of the die has issued since its last STEP. -/
def State.dieBetweenSteps (s : State) (die : Nat) : Bool :=
  (List.range 64).all (fun st => !(s.flag F.STREAM_CTRL_STEP_MASTER st (.die die)) ||
    !(SMap.getD s.strm.streams (streamKey die st) StreamSt.empty).inStep)

/-- R150: an idle boundary of a die, if no step is in progress there. -/
def State.idleBoundary (s : State) (die : Nat) : State := if s.dieBetweenSteps die then s.boundary die none [] else s
/-- R150: a request for a placement has been accepted: the idle boundaries of its dies. -/
def State.acceptBoundary (s : State) (h : Nat) : State :=
  match s.pkg h with
  | some p => if p.st = .loaded then (placeDies p).foldl (fun s d => s.idleBoundary d) s else s
  | none => s
/-- Micro-batches whose next step is on a die. -/
def State.readyFor (s : State) (die : Nat) : Nat :=
  s.wts.pkgs.foldl (fun n e => n + ((s.flightsOf e.1).filter (fun f => !f.stepped && decide ((placeDies e.2).getD f.stage 0 = die))).length) 0
/-- R150: a step's boundary, and the idle boundaries of the other dies for which a micro-batch has become ready by it. -/
def State.stepBoundary (s : State) (die : Nat) (used : List Nat) (results : List StepResult) : State :=
  let s1 := s.boundary die (some used) results
  ([0, 1, 2, 3].filter (fun d => decide (d ≠ die) && decide (s.readyFor d < s1.readyFor d))).foldl (fun s d => s.idleBoundary d) s1

/-- IDLE_STEP_BOUNDARY (R150). -/
def execIdleStepBoundary (die : Nat) (s : State) : Res :=
  onDie die (.next (s.idleBoundary die))

/-- TENANT_REFILL (R255): a millisecond tick: the refill, the idle boundaries of the dies without a step (R150), `dies` first, since
their order is not stated (notes/assumptions/110), then the writes since the last tick, those of LEVEL last, with BURST as the others leave
it; a WAITING request whose package is not LOADED ends NOENTITLE (R253). -/
def execTenantRefill (dies : List Nat) (s : State) : Res :=
  .next (
    let s1 := (List.range 4096).foldl (fun (s : State) t => if s.rd F.TENANT_BUDGET_RATE t = 0 then s else s.refillOne t) s
    let s2 := s1.stew.reqs.foldl (fun (s : State) e =>
      if e.2.st = .waiting ∧ e.2.accepted.isSome ∧ ¬ s.loaded (rqPkg (rqD e.2)) then s.endReq e.1 .noentitle else s) s1
    let s3 := ((dies ++ [0, 1, 2, 3]).filter (fun d => decide (d < 4))).eraseDups.foldl (fun (s : State) d => s.idleBoundary d) s2
    let ws := s3.stew.budgetWrites
    let s4 := (ws.filter (fun w => decide (w.2.1 < 3)) ++ ws.filter (fun w => decide (3 ≤ w.2.1))).foldl
      (fun (s : State) w => s.budgetApply w.1 w.2.1 w.2.2) s3
    { s4 with stew := { s4.stew with budgetWrites := [] } })

/-! ## Aborted steps (R69, R100, R151, R376, R357) -/

/-- Run a micro-batch's step again on the same die, once; when it was a replay already, each of its requests ends with
`f`. A step that is not to be replayed ends at once. -/
def State.abortFlight (s : State) (h : Nat) (fl : Flight) (replay : Bool) (f : Final) : State :=
  if replay && !fl.replayed then
    let again : Flight := { fl with replayed := true, drops := fl.drops.filter (fun e => decide (e.1 ≠ fl.stage)) }
    (s.setFlights h ((s.flightsOf h).map (fun g => if g = fl then again else g))).emit
      (.microBatch h fl.rows)
  else
    let s1 := s.setFlights h ((s.flightsOf h).erase fl)
    fl.rows.foldl (fun (s : State) e =>
      match s.req e.1 with
      | some r => (s.setReq e.1 { r with flying := none }).endReq e.1 f
      | none => s) s1
/-- The step that runs in a context slot of a die: its package and micro-batch. -/
def State.stepIn (s : State) (die : Nat) (slot : Option Nat) : List (Nat × Flight) :=
  s.wts.pkgs.filterMap (fun e =>
    let here := e.2.slots.any (fun c => decide (c.1 = die) && (match slot with
      | some k => decide (c.2 = k)
      | none => true))
    if here then
      ((s.flightsOf e.1).find? (fun f => !f.stepped && decide ((placeDies e.2).getD f.stage 0 = die))).map (fun f => (e.1, f))
    else none)
/-- R100, R153: firmware aborts the step of a slot and resets the slot, stopped first if it is active, with a reset-only load. -/
def State.abortStep (s : State) (die slot : Nat) (replay : Bool) (f : Final) : State :=
  let s1 := s.haltSlot die slot
  (s1.stepIn die (some slot)).foldl (fun s e => s.abortFlight e.1 e.2 replay f) s1

end Sys2Proof.Machine
end

