-- ==== Sys2Proof/Machine/Steps.lean ====
section
/-!
DEFINITION. Steps of command streams: their completion, deadlines and aborts (R69, R100, R136, R150, R151, R376), moves to a
replica (R268), idle notices (R162, R264), and the writes of stream and tile registers that are rows of their own.
-/
namespace Sys2Proof.Machine

/-- DMA (R141, R153): the length is read at issue; one that is not a multiple of 64 or leaves an endpoint is BOUND, and the
step ends without replay. -/
def execDma (die st : Nat) (s : State) : Res :=
  onStream die st (.next (s.issueHead die st 0x10 (fun s i n =>
    s.withSource die st n 40 (fun len =>
      if len % 64 = 0 ∧ s.endFits die (eSlot n) n 8 len ∧ s.endFits die (eSlot n) n 24 len then
        .fly s (flyOf i n .dma 0 0 len)
      else .done .bound (s.abortStep die (eSlot n) false .bound)))))

/-- R140: a group's input endpoint lies inside the slot's region. -/
def State.inputFits (s : State) (die c n : Nat) : Bool :=
  decide (eB n 40 ≠ 2) || s.inTile die (eB n 41) (eB n 42) c (eD n 48) 1

/-- GROUP (R140, R153, R156, R157, R186): the count is read; 0 skips the group, one above MAX_COUNT ends the dispatch BOUND and
the step without replay; otherwise the group is pending and its pages are asked for. -/
def execGroup (die st : Nat) (s : State) : Res :=
  onStream die st (.next (s.issueHead die st 0x19 (fun s i n =>
    match s.openDispatch die st with
    | none => .done .refused s
    | some (c, d) =>
      if c ≠ eSlot n ∨ ¬ s.inputFits die c n then .done .refused (s.endDispatch die c .refused)
      else
        s.withSource die st n 12 (fun count =>
          let d1 := { d with seen := d.seen + 1, entries := d.entries ++ [i] }
          let f := flyOf i n .none 0 0 0
          let w := Win.die die
          if count = 0 then .fly ((s.setDispatch die c d1).bump F.DISPATCH_SKIPPED_VALUE 1 0 w) f
          else if d.maxCount < count then .done .ok ((s.endDispatch die c .bound).abortStep die c false .bound)
          else if s.rangeAccess State.readAccess (eD n 24) (eD n 32) = .fault then .done .ok (s.endDispatch die c .fault)
          else
            let g : GroupRec := { index := eH n 8, entry := i, count := count, waddr := eD n 24, wlen := eD n 32,
                                  input := BitVec.ofNat 128 (bitsOf n 320 128), lane := none, todo := none }
            let s1 := (s.setDispatch die c { d1 with groups := d1.groups ++ [g] }).bump F.DISPATCH_GROUPS_VALUE 1 0 w
            .fly (s1.requestRange g.waddr g.wlen die 0) f))))

/-- R27, R150: the slots that a STEP closes: those of the stream's entries since its last STEP, and of the streams of the die that
mark no boundary themselves, DESIGN CHOICE: notes/assumptions/96. -/
def State.stepUse (s : State) (die st : Nat) : List Nat :=
  (List.range 64).flatMap (fun t =>
    if t = st ∨ s.flag F.STREAM_CTRL_STEP_MASTER t (.die die) = false then (s.stream die t).stepSlots else [])

/-- STEP_COMPLETE (R148, R150, R151): a STEP whose earlier entries have all completed: the pins end, the step number is
recorded, the next deadline starts, and on a STEP_MASTER stream the die passes a step boundary; `results` is what the
step returns for its requests. -/
def execStepComplete (die st : Nat) (results : List StepResult) (s : State) : Res :=
  onStream die st (.next (match s.holderOf die st 0x30 with
    | none => s
    | some (i, n) =>
      if (s.stream die st).flying.any (fun f => decide (f.entry ≠ i) && !(s.stream die st).looked.contains f.entry) then s
      else
        let s1 := (s.releasePins die st).wr F.STREAM_STATUS_STEP_LOW (eW n 8) st (.die die)
        let v := s1.stream die st
        let limit := if eW n 12 = 0 then none else some (s.now + 1000 * eW n 12)
        let s2 := (s1.setStream die st { v with deadline := limit, inStep := false, stepSlots := [] }).completeEntry die st i n .ok
        if s2.flag F.STREAM_CTRL_STEP_MASTER st (.die die) then s2.stepBoundary die (s.stepUse die st) results else s2))

/-- START, STOP, ABORT (R166): writes of STREAM_CTRL. -/
def execStart (die st : Nat) (s : State) : Res :=
  onStream die st (.next (s.inDie die "START" (s.startStream die st)))
def execStop (die st : Nat) (s : State) : Res :=
  onStream die st (.next (s.inDie die "STOP" (s.stopStream die st)))
def execAbort (die st : Nat) (s : State) : Res :=
  onStream die st (.next (s.inDie die "ABORT" (s.abortStream die st)))
/-- POP (R161, R166): a write of MBOX_STATUS.POP. -/
def execPop (die m : Nat) (s : State) : Res :=
  if die < 4 ∧ m < 256 then .next (s.inDie die "POP" (s.popMbox die m)) else .refused (.noSuchUnit "mailbox")
/-- FLUSH (R134): a write of 1 to WC_CFG.FLUSH. -/
def execFlush (die : Nat) (s : State) : Res :=
  onDie die (.next (s.inDie die "FLUSH" (s.wcDropUnpinned die)))
/-- PARAM_COMMIT (R70): a write of COMMIT. -/
def execParamCommit (die y x c : Nat) (s : State) : Res :=
  if c < 4 then onCt s die y x (.next (s.inDie die "PARAM_COMMIT" (s.commitParams die y x c))) else .refused (.noSuchUnit "slot")

/-- R268, R351: a request goes to a replica on module `m`, which takes it as a member: this module stays its home and keeps
its committed tokens. The local slot records MOVED. -/
def State.moveReq (s : State) (slot m : Nat) : State :=
  match s.req slot with
  | none => s
  | some r =>
    let pp := match s.pfx r.tenant (rqPrefix (rqD r)) with
      | some v => v.positions
      | none => 0
    let t : TkReq := { origin := s.ownId, slot := slot, session := r.session, sub := r.sub, tenant := r.tenant, desc := r.desc,
                       input := r.input, prefixPos := pp, tokens := r.tokens, cancelled := r.cancelled, accepted := r.accepted.getD s.now,
                       admitted := decide (r.st ≠ .waiting), member := some m, delivered := r.tokens.length,
                       placed := r.tokens.length, lastIndex := 0, final := none, acked := false, cancels := r.cancels,
                       lastAt := r.lastCommit, since := none }
    let s1 := { s with jr := { s.jr with table := SMap.insert s.jr.table (s.ownId * 65536 + slot) t } }
    let s2 := s1.sendMsg m 0x27 slot (toBytes s.ownId 2 ++ toBytes slot 2 ++ toBytes (s.rd F.CLASS_CFG_PRIORITY (rqClass (rqD r))) 1) []
    let s3 := s2.sendMsg m 0x28 slot [] (toBytes r.desc.toNat 64 ++ toBytes r.input.length 4 ++ r.input ++ toBytes pp 4 ++
      toBytes r.tokens.length 4 ++ r.tokens.flatMap (fun t => toBytes t 4) ++ toBytes (r.accepted.getD 0) 8)
    (s3.setReq slot { r with cancels := [], flying := none }).endReq slot .moved

/-- R376: end the requests of a micro-batch that may not be replayed here: moved to a replica that accepts, else ABORTED. -/
def State.moveFlight (s : State) (h : Nat) (fl : Flight) (replica : Option Nat) : State :=
  let s1 := s.setFlights h ((s.flightsOf h).erase fl)
  fl.rows.foldl (fun (s : State) e =>
    match s.req e.1, replica with
    | some r, some m => (s.setReq e.1 { r with flying := none }).moveReq e.1 m
    | some r, none => (s.setReq e.1 { r with flying := none }).endReq e.1 .aborted
    | none, _ => s) s1

/-- R376: a step that a detection ends: replayed once on the same die after a reset-only load; a detection during the replay
sends it to a replica. -/
def State.faultStep (s : State) (die slot : Nat) (replica : Option Nat) : State :=
  let s1 := s.haltSlot die slot
  (s1.stepIn die (some slot)).foldl (fun s e =>
    if e.2.replayed then s.moveFlight e.1 e.2 replica else s.abortFlight e.1 e.2 true .aborted) s1

/-- FREEZE_MESSAGE (R69, R99, R100, R102): the oldest freeze message of a die reaches the control subsystem. A deadlock is
recorded and its step replayed once, then ended DEADLOCK; a bound error is recorded and ends its step BOUND; an uncorrectable
error, recorded by its fault message, is handled by R376, `replica` being a module that accepts the step. -/
def execFreezeMessage (die : Nat) (replica : Option Nat) (s : State) : Res :=
  onDie die (.next (match s.arr.messages.find? (fun m => decide (m.1 = die)) with
    | none => s
    | some (d, c, cause) =>
      let s1 := { s with arr := { s.arr with messages := s.arr.messages.erase (d, c, cause) } }
      if cause = 1 then
        (s1.detect { errOf 0x13 0 0 die with ctx := errCtx c, action := 2, detail := s1.rd F.FREEZE_INFO_BLOCKED 0 (.die die) }).abortStep
          die c true .deadlock
      else if cause = 2 then (s1.detect { errOf 0x14 0 0 die with ctx := errCtx c, action := 4 }).abortStep die c false .bound
      else s1.faultStep die c replica))

/-- STEP_DEADLINE (R101, R151): the deadline of a stream's step has passed: the stream stops, its entries but DMAs are
cancelled, the slots the step used are stopped and reset, and the step ends TIMEOUT: replayed once. It yields to a freeze of the
same step. -/
def execStepDeadline (die st : Nat) (s : State) : Res :=
  onStream die st (.next (
    let v := s.stream die st
    match v.deadline with
    | none => s
    | some t =>
      if s.now < t ∨ s.arr.messages.any (fun m => decide (m.1 = die) && v.stepSlots.contains m.2.1) then s
      else
        let i := s.headPtr die st % 1024
        let n := s.cmdAt die st i
        let s1 := s.cancelStream die st
        let s2 := s1.setStream die st { s1.stream die st with deadline := none, inStep := false, stepSlots := [] }
        let s3 := ((s2.setStrState die st 4).wr F.STREAM_STATUS_ERR_STATUS 4 st (.die die)).wr F.STREAM_STATUS_ERR_ENTRY i st (.die die)
        let s4 := (s3.emit (.notice die st (eTag n) .timeout)).detect { errOf 0x15 5 (st / 8) die with action := 2 }
        v.stepSlots.foldl (fun (s : State) c => s.abortStep die c true .timeout) s4))

/-- SERGE_PAIR_REJOIN (R136): a reset pair that passes its self-check rejoins. -/
def execSergePairRejoin (die pair : Nat) (s : State) : Res :=
  if die < 4 ∧ pair < 8 then
    .next (if s.pairRetired die pair then s else s.wr F.SERGE_STATUS_ONLINE 1 pair (.die die))
  else .refused (.noSuchUnit "Serge pair")

/-- R264: the slot of a die, other than the active one, whose context has the ready micro-batch with the earliest deadline. -/
def State.readySlot (s : State) (die : Nat) : Option Nat :=
  let ready := (s.stepIn die none).filterMap (fun e =>
    match s.pkg e.1 with
    | some p =>
      (p.slots.find? (fun c => decide (c.1 = die) && decide (s.active die ≠ some c.2))).map (fun c =>
        (c.2, e.2.rows.foldl (fun a r => match s.req r.1 with
          | some q => min a (s.deadline q)
          | none => a) (2 ^ 64)))
    | none => none)
  (ready.foldl (fun (g : Option (Nat × Nat)) e =>
    match g with
    | none => some e
    | some b => if e.2 < b.2 then some e else g) none).map (·.1)

/-- IDLE_NOTICE (R162, R264): the notice is posted; with BUBBLE_EN the steward selects a slot with a ready micro-batch, with
it clear the notice is discarded. -/
def execIdleNotice (die : Nat) (s : State) : Res :=
  onDie die (.next (
    let s1 := s.idleNotice die
    if (s1.mbox die 255).isEmpty then s1
    else if s1.flag F.SCHED_CFG_BUBBLE_EN then
      match s1.readySlot die with
      | some c =>
        let was := (SMap.find? s1.arr.bubble die).orElse (fun _ => s1.active die)
        let s2 : State := { s1 with arr := { s1.arr with bubble := match was with
          | some o => if o = c then SMap.erase s1.arr.bubble die else SMap.insert s1.arr.bubble die o
          | none => s1.arr.bubble } }
        (s2.popMbox die 255).emit (.select die c)
      | none => s1
    else s1.popMbox die 255))

/-- STEWARD_TAKEOVER (R250): the standby complex takes over; it holds a copy of every change. Micro-batches whose step had not
completed run again; what is in the journal stands. -/
def State.stewardTakeover (s : State) : State :=
  let s1 := ((s.wr F.STEWARD_STATUS_SIDE (1 - s.rd F.STEWARD_STATUS_SIDE)).wr F.STEWARD_STATUS_STANDBY_READY 0).bumpSat
    F.STEWARD_STATUS_TAKEOVERS
  s1.stew.flights.foldl (fun (s : State) e =>
    let again := e.2.map (fun f => if f.stepped then f else { f with drops := f.drops.filter (fun x => decide (x.1 ≠ f.stage)) })
    (again.filter (fun f => !f.stepped)).foldl (fun (s : State) f => s.emit (.microBatch e.1 f.rows)) (s.setFlights e.1 again)) s1

end Sys2Proof.Machine
end

