-- ==== Sys2Proof/Machine/Experts.lean ====
section
/-!
DEFINITION. Expert lists and results between modules (R185, R327, R336, R357), and the row that ends the router's list
phase.
-/
namespace Sys2Proof.Machine

/-- R336: a module is in service for expert lists. -/
def State.inService (s : State) (m : Nat) : Bool := !(s.flag F.HOLDER_ALT_OUT m) && !s.unreachable m
/-- R336: the holder that takes the lists of shards of module `m`. -/
def State.holder (s : State) (m : Nat) : Option Nat :=
  let n := s.rd F.HOLDER_ALT_COUNT m
  let alts := [s.rd F.HOLDER_ALT_H0 m, s.rd F.HOLDER_ALT_H1 m, s.rd F.HOLDER_ALT_H2 m].take n
  (m :: alts).find? s.inService

/-- R325: ARG of an expert message. -/
def partArg (p : ExpertPart) : List Byte :=
  toBytes p.step 4 ++ toBytes p.table 1 ++ toBytes (b2n p.lastPart) 1 ++ toBytes p.expert 2 ++ toBytes p.count 2 ++
  toBytes p.first 2 ++ toBytes p.total 2 ++ toBytes 0 2
/-- R327: entries of `size` bytes in one part. -/
def partEntries (size : Nat) : Nat := 2097216 / size
/-- R327: send a list or result rows in parts. -/
def State.sendParts (s : State) (dst ty : Nat) (p : ExpertPart) (size : Nat) (rows : List Byte) : State :=
  let e := max (partEntries size) 1
  let n := (p.total + e - 1) / e
  (List.range n).foldl (fun s i =>
    let first := i * e
    let count := min e (p.total - first)
    let q := { p with first := first, count := count, lastPart := decide (i + 1 = n) }
    s.sendMsg dst ty 0 (partArg q) ((rows.drop (first * size)).take (count * size))) s

/-- R185, R336: send one expert's list to the holder of its shard; without a holder in service each request of the step ends
ABORTED (R357). -/
def State.sendList (s : State) (die c t e count : Nat) : State :=
  let m := s.tLoc die c t e % 8192
  let size := 128 + s.tRowBytes die c t
  match s.holder m with
  | none => (s.stepIn die (some c)).foldl (fun s f => s.abortFlight f.1 f.2 false .aborted) s
  | some h =>
    let f := s.useFree
    let p : ExpertPart := { step := f.1 % 2 ^ 32, table := t, lastPart := true, expert := e, count := count, first := 0, total := count }
    let r : Remote := { module := h, die := die, slot := c, step := p.step, table := t, expert := e, total := count, got := 0,
                        rows := [] }
    let s1 := f.2
    let s2 := { s1 with stew := { s1.stew with lists := s1.stew.lists ++ [r] } }
    s2.sendParts h 0x10 p size (s.masBytes (s.listEntry die c t e 0) (count * size))

/-- R182: the steward notes the entries of a drop report with the step that runs in the slot. -/
def State.noteDrops (s : State) (die c : Nat) (v : Invocation) : State :=
  (s.stepIn die (some c)).foldl (fun s f =>
    let g : Flight := { f.2 with drops := f.2.drops ++ (reportEntries v).map (fun e => (f.2.stage, e)) }
    s.setFlights f.1 ((s.flightsOf f.1).map (fun h => if h = f.2 then g else h))) s

/-- R185: firmware sends the lists of the experts that LOC places on another module. -/
def State.sendLists (s : State) (die c : Nat) (v : Invocation) : State :=
  ((List.range (s.tExperts die c v.table)).filter (fun e => bitOf (s.tLoc die c v.table e) 15)).foldl (fun (s : State) e =>
    let n := acceptedOf v.choices e
    if n = 0 then s else s.sendList die c v.table e n) s

/-- ROUTER_LISTS (R178 to R183, R185): the list phase, after which the steward has the report's entries and firmware sends the
lists of remote experts. -/
def execRouterLists (die : Nat) (s : State) : Res :=
  onDie die (.next (
    let s1 := s.routerLists die
    match s.routedOf die with
    | [] => s1
    | c :: _ =>
      match s.inv die c, s1.inv die c with
      | some v, some w => if !v.listed && w.listed then (s1.noteDrops die c v).sendLists die c v else s1
      | _, _ => s1))

/-- R327: take a part of a list or of results: the assembly after it, or nothing when it disagrees with the parts before. -/
def takePart (old : Option Remote) (fresh : Remote) (p : ExpertPart) (body : List Byte) : Option Remote :=
  let r := old.getD fresh
  if p.total = r.total ∧ p.first = r.got ∧ 0 < p.count ∧ p.first + p.count ≤ p.total ∧ body.length % p.count = 0 ∧
    128 < body.length / p.count ∧ (r.got = 0 ∨ body.length / p.count = r.rows.length / r.got) ∧
    p.lastPart = decide (p.first + p.count = p.total) then
    some { r with got := r.got + p.count, rows := r.rows ++ body }
  else none

/-- EXPERT_LIST (R185, R327): a part of a list arrives. With the last part the module runs the group once, with count TOTAL;
`data` is the row data that the expert's tiles return. The result rows keep the entries' headers, tags included, and go back
in parts. -/
def execExpertList (src : Nat) (p : ExpertPart) (body data : List Byte) (s : State) : Res :=
  .next (if s.closed src 0x10 then s else
    let s0 := s.takeInbox src 0x10
    let same := fun (r : Remote) => decide (r.module = src) && decide (r.step = p.step) && decide (r.table = p.table) &&
      decide (r.expert = p.expert)
    let old := s0.stew.parts.find? same
    let fresh : Remote := { module := src, die := 4, slot := 0, step := p.step, table := p.table, expert := p.expert,
                            total := p.total, got := 0, rows := [] }
    let rest := s0.stew.parts.filter (fun r => !same r)
    match takePart old fresh p body with
    | none => s0.malformed src
    | some r =>
      if r.got < r.total then { s0 with stew := { s0.stew with parts := rest ++ [r] } }
      else
        let size := r.rows.length / r.total
        let rb := size - 128
        let rows := (List.range r.total).flatMap (fun i =>
          (r.rows.drop (i * size)).take 128 ++ ((data.drop (i * rb)).take rb ++ List.replicate (rb - ((data.drop (i * rb)).take rb).length) 0))
        ({ s0 with stew := { s0.stew with parts := rest } }).sendParts src 0x11 p size rows)

/-- EXPERT_RESULT (R185, R327, R357): result rows of a remote group arrive; with the last part they enter the scatter tile of the waiting
slot: tags at the boundary queue `tagQ`, each as its low and its high scalar token (R116), data tokens at `dataQ`. An inconsistent part
aborts and replays the step. Results nobody waits for are discarded. -/
def execExpertResult (src : Nat) (p : ExpertPart) (body : List Byte) (dataQ tagQ : Nat) (s : State) : Res :=
  .next (if s.closed src 0x11 then s else
    let s0 := s.takeInbox src 0x11
    let same := fun (r : Remote) => decide (r.module = src) && decide (r.step = p.step) && decide (r.table = p.table) &&
      decide (r.expert = p.expert)
    match s0.stew.lists.find? same with
    | none => s0
    | some r =>
      let rest := s0.stew.lists.filter (fun r => !same r)
      match takePart (some r) r p body with
      | none => ({ s0 with stew := { s0.stew with lists := rest } }.malformed src).faultStep r.die r.slot none
      | some r' =>
        if r'.got < r'.total then { s0 with stew := { s0.stew with lists := rest ++ [r'] } }
        else
          let size := r'.rows.length / r'.total
          let s1 := { s0 with stew := { s0.stew with lists := rest } }
          (List.range r'.total).foldl (fun (s : State) i =>
            let ent := (r'.rows.drop (i * size)).take size
            let s2 := s.feedToks r.die tagQ r.slot [BitVec.ofNat 1024 (ofBytes (ent.take 4)),
              BitVec.ofNat 1024 (ofBytes ((ent.drop 4).take 4))]
            s2.feedToks r.die dataQ r.slot ((List.range ((size - 128) / 128)).map (fun j =>
              BitVec.ofNat 1024 (ofBytes ((ent.drop (128 + 128 * j)).take 128))))) s1)

/-- R357: the steps with an expert list outstanding at module `m`, or that met a missing route, are aborted and replayed once;
their lists are forgotten, and results that come later are discarded with them. -/
def State.abortLists (s : State) (m : Nat) : State :=
  let hit := s.stew.lists.filter (fun r => decide (r.module = m))
  let s1 := { s with stew := { s.stew with lists := s.stew.lists.filter (fun r => !(hit.any (fun q =>
    decide (q.die = r.die) && decide (q.slot = r.slot)))) } }
  (hit.map (fun r => (r.die, r.slot))).eraseDups.foldl (fun (s : State) e => s.faultStep e.1 e.2 none) s1

end Sys2Proof.Machine
end

