-- ==== Sys2Proof/Machine/Taffeta.lean ====
section
/-!
DEFINITION. The Taffeta transformation (R225 to R232): coded blocks to the stored form, requantisation, and the re-laid
execution form, on byte strings. What an engine does with them stands in Machine/Install.lean.
-/
namespace Sys2Proof.Machine
open Sys2Proof.Machine.Num

/-- R223: fields of a package header. -/
def hdrGrade (h : List Byte) : Nat := at' h 6 1
def hdrKind (h : List Byte) : Nat := at' h 7 1
def hdrSections (h : List Byte) : Nat := at' h 8 4
def hdrContexts (h : List Byte) : Nat := at' h 12 1
def hdrFlags (h : List Byte) : Nat := at' h 13 1
def hdrMinWindow (h : List Byte) : Nat := at' h 14 2
def hdrExecPages (h : List Byte) : Nat := at' h 16 4
def hdrImagePages (h : List Byte) : Nat := at' h 20 4
def hdrMinLimit (h : List Byte) : Nat := at' h 24 4
def hdrDigest (h : List Byte) : List Byte := (h.drop 32).take 32

/-- R223: the checks of a header against a digest and the grade byte of the module. -/
def headerFits (h digest : List Byte) (grade : Nat) : Bool :=
  decide (64 ≤ h.length) && decide (at' h 0 4 = 0x314B504A) && decide (at' h 4 2 = 1) && decide (hdrKind h ≤ 2) &&
  decide (hdrContexts h ≤ 4) && decide (at' h 28 4 = 0) && decide (hdrDigest h = digest) &&
  (decide (hdrGrade h = grade) && decide (hdrFlags h = 0) || decide (hdrGrade h = 0x60) && decide (hdrFlags h = 1))

/-- R224: the section directory that follows the header. -/
def sectionAt (h : List Byte) (i : Nat) : Section :=
  let o := 64 + 32 * i
  { ty := at' h o 2, place := at' h (o + 2) 1, index := at' h (o + 4) 4, offset := at' h (o + 8) 8, len := at' h (o + 16) 8,
    execOff := at' h (o + 24) 8 }
def sectionsOf (h : List Byte) : List Section := (List.range (hdrSections h)).map (sectionAt h)
/-- R224: the layout of one entry. -/
def sectionOk (h : List Byte) (i : Nat) : Bool :=
  let v := sectionAt h i
  decide (64 + 32 * i + 32 ≤ h.length) && decide (1 ≤ v.ty ∧ v.ty ≤ 5) && decide (v.place < 4) &&
  decide (at' h (64 + 32 * i + 3) 1 = 0) && decide (v.execOff % 64 = 0)

/-- R226: a tensor image header. -/
structure Tensor where
  stored : Nat
  exec : Nat
  sat : Bool
  mx : Bool
  scale : Int
  k : Nat
  n : Nat
  blocks0 : Nat
  blocks1 : Nat
  relayout : Nat
  check : Nat
  deriving DecidableEq, Repr

def isMx (fmt : Nat) : Bool := decide (7 ≤ fmt ∧ fmt ≤ 9)
/-- Bytes of an element of a format that is not MX. -/
def elemBytes (fmt : Nat) : Nat := if fmt = 0 ∨ fmt = 6 then 4 else if fmt = 1 ∨ fmt = 2 then 2 else 1
/-- R42: bytes of a packed block of 32 elements. -/
def blockBytes (fmt : Nat) : Nat := 4 * mxBits fmt
/-- R40, R225: MX blocks of one stored column. -/
def colBlocks (k : Nat) : Nat := (k + 31) / 32
/-- R225: bytes of plane 0 and of the scale plane of a stored form. -/
def plane0 (t : Tensor) : Nat := if t.mx then t.n * colBlocks t.k * blockBytes t.stored else t.n * t.k * elemBytes t.stored
def plane1 (t : Tensor) : Nat := if t.mx then t.n * colBlocks t.k else 0
def blocksIn (n : Nat) : Nat := (n + 65535) / 65536

/-- R226, R228: the header of a TENSOR section, if it is valid. -/
def tensorOf (bs : List Byte) : Option Tensor :=
  let fl := at' bs 6 1
  let se := at' bs 7 1
  let t : Tensor := { stored := at' bs 4 1, exec := at' bs 5 1, sat := bitOf' fl 0, mx := bitOf' fl 1,
                      scale := if se < 128 then (se : Int) else (se : Int) - 256, k := at' bs 8 4, n := at' bs 12 4,
                      blocks0 := at' bs 16 4, blocks1 := at' bs 20 4, relayout := at' bs 24 4, check := at' bs 28 4 }
  if at' bs 0 4 = 0x52544E54 ∧ t.stored ≤ 9 ∧ t.exec ≤ 9 ∧ fl < 4 ∧ t.mx = isMx t.stored ∧ -32 ≤ t.scale ∧ t.scale ≤ 32 ∧
    1 ≤ t.k ∧ t.k ≤ 2 ^ 30 ∧ 1 ≤ t.n ∧ t.n ≤ 2 ^ 20 ∧ t.blocks0 = blocksIn (plane0 t) ∧ t.blocks1 = blocksIn (plane1 t) ∧
    at' bs 32 32 = 0 then some t
  else none
where
  bitOf' (n k : Nat) : Bool := decide (n / 2 ^ k % 2 = 1)

/-- R226: where a plane's tables start, and the offset of one of its blocks from the start of the section
(notes/assumptions/25). -/
def tableAt (t : Tensor) (plane : Nat) : Nat := if plane = 0 then 64 else 64 + 128 + 4 * t.blocks0
def blockAt (bs : List Byte) (t : Tensor) (plane b : Nat) : Nat := at' bs (tableAt t plane + 128 + 4 * b) 4
/-- Bytes of the header and the tables. -/
def tablesEnd (t : Tensor) : Nat := 64 + 128 + 4 * t.blocks0 + (if t.mx then 128 + 4 * t.blocks1 else 0)
/-- R227: decoded bytes of a block. -/
def blockSize (t : Tensor) (plane b : Nat) : Nat := min 65536 ((if plane = 0 then plane0 t else plane1 t) - 65536 * b)

/-- R227: the 256 lengths of a code table. -/
def codeLengths (tb : List Byte) : List Nat := (tb.take 128).flatMap (fun b => [b.toNat % 16, b.toNat / 16])
/-- R228: the lengths do not oversubscribe the code. -/
def codeOk (ls : List Nat) : Bool :=
  decide (ls.foldl (fun a l => if l = 0 then a else a + 2 ^ (15 - l)) 0 ≤ 2 ^ 15)
/-- Symbols in code order: by length, then by value. -/
def codeOrder (ls : List Nat) : List Nat :=
  (List.range 15).flatMap (fun l => (List.range 256).filter (fun y => decide (ls.getD y 0 = l + 1)))
def countLen (ls : List Nat) (l : Nat) : Nat := (ls.filter (fun x => decide (x = l))).length

/-- Bits of a byte string, lowest first (RFC 1951, 3.1.1). -/
def bitsOfBytes (bs : List Byte) : List Bool := bs.flatMap (fun b => (List.range 8).map (fun i => b.getLsbD i))

/-- RFC 1951, 3.2.2: read the bits of one canonical code: `code` is what has been read, of `len` bits, `first` the first code
of that length and `idx` the symbols of shorter codes. The decoded symbols are collected until `left` is 0; what
remains must be zero bits. -/
def huffman (order : List Nat) (counts : Nat → Nat) : List Bool → Nat → Nat → Nat → Nat → Nat → List Byte → Option (List Byte)
  | rest, 0, _, _, _, _, acc => if rest.any id then none else some acc.reverse
  | [], _ + 1, _, _, _, _, _ => none
  | b :: bs, left + 1, code, len, first, idx, acc =>
    let code := 2 * code + (if b then 1 else 0)
    let len := len + 1
    let n := counts len
    if code < first + n then huffman order counts bs left 0 0 0 0 (BitVec.ofNat 8 (order.getD (idx + code - first) 0) :: acc)
    else if 15 ≤ len then none
    else huffman order counts bs (left + 1) code len (2 * (first + n)) (idx + n) acc

/-- R227, R228: decode a coded block of `size` bytes that starts at `o` in its section of `len` bytes. -/
def decodeBlock (bs : List Byte) (len o size : Nat) (table : List Byte) : Option (List Byte) :=
  let w := at' bs o 4
  let n := w % 2 ^ 24
  let mode := w / 2 ^ 24 % 4
  let pay := (bs.drop (o + 4)).take n
  if 2 ^ 26 ≤ w ∨ len < o + 4 + n ∨ codeOk (codeLengths table) = false then none
  else if mode = 0 then (if n < size ∨ (pay.drop size).any (fun b => decide (b ≠ 0)) then none else some (pay.take size))
  else if mode = 1 then
    huffman (codeOrder (codeLengths table)) (countLen (codeLengths table)) (bitsOfBytes pay) size 0 0 0 0 []
  else if mode = 2 then (if n = 0 then some (List.replicate size 0) else none)
  else none

/-- R232: the permitted conversions. -/
def convAllowed (st ex : Nat) : Bool :=
  decide (st = ex) ||
  ([0, 1, 2].contains st && [1, 2, 3, 4].contains ex) || ([0, 1, 2, 3, 4].contains st && isMx ex) ||
  (decide (st = 9) && (decide (ex = 7) || decide (ex = 8))) || (decide (st = 8) && decide (ex = 7)) ||
  (decide (ex = 0) && [1, 2, 3, 4, 5].contains st)

/-- The value of a stored element before scaling. -/
def storedVal (fmt code : Nat) : Val :=
  if fmt = 5 then intVal (sint 8 code) else if fmt = 6 then intVal (sint 32 code) else decode (fmtF fmt) code
/-- R232: multiply by 2^s exactly. -/
def scaleVal (s : Int) : Val → Val
  | .fin n m e => .fin n m (e + s)
  | v => v
def finiteVal : Val → Bool
  | .fin .. => true
  | _ => false

/-- The code of stored element (k, n) of a tensor that is not MX; elements beyond the tensor are zero. -/
def storedCode (bs : List Byte) (t : Tensor) (n k : Nat) : Nat :=
  if n < t.n ∧ k < t.k then at' bs ((n * t.k + k) * elemBytes t.stored) (elemBytes t.stored) else 0
/-- Block j of column n of a stored MX tensor: scale and element codes. A padding block has scale 0x7F (R230). -/
def storedBlock (bs : List Byte) (t : Tensor) (n j : Nat) : Nat × List Nat :=
  if n < t.n ∧ j < colBlocks t.k then
    let b := n * colBlocks t.k + j
    let e := at' bs (b * blockBytes t.stored) (blockBytes t.stored)
    (at' bs (plane0 t + b) 1, (List.range 32).map (fun i => e / 2 ^ (mxBits t.stored * i) % 2 ^ mxBits t.stored))
  else (0x7F, List.replicate 32 0)

/-- R232: block j of column n in an MX execution format: scale, codes and saturations. -/
def execBlock (bs : List Byte) (t : Tensor) (n j : Nat) : Nat × List Nat × Flags :=
  if t.stored = t.exec then ((storedBlock bs t n j).1, (storedBlock bs t n j).2, 0)
  else
    let vals := if isMx t.stored then
        let b := storedBlock bs t n j
        b.2.map (fun c => decode fp32 (mxToF32 (mxElemFmt t.stored) (mxIsInt t.stored) b.1 c).1)
      else (List.range 32).map (fun i => scaleVal t.scale (storedVal t.stored (storedCode bs t n (32 * j + i))))
    mxQuant (mxElemFmt t.exec) (mxIsInt t.exec) (mxEmax t.exec) vals
/-- R232: element (k, n) in an execution format that is not MX: its code and flags. -/
def execCode (bs : List Byte) (t : Tensor) (n k : Nat) : Nat × Flags :=
  let c := storedCode bs t n k
  if t.stored = t.exec then (c, 0)
  else if t.exec = 0 then (if t.stored = 5 then ofIntF32 (sint 8 c) else widen (fmtF t.stored) c)
  else narrow (fmtF t.exec) t.sat (scaleVal t.scale (storedVal t.stored c))

/-- R232: a NaN or an infinity in a stored tensor that is converted. -/
def badValue (bs : List Byte) (t : Tensor) : Bool :=
  if t.stored = t.exec then false
  else if t.mx then (List.range (plane1 t)).any (fun b => decide (at' bs (plane0 t + b) 1 = 255))
  else (List.range (t.n * t.k)).any (fun i =>
    !(finiteVal (storedVal t.stored (at' bs (i * elemBytes t.stored) (elemBytes t.stored)))))

/-- R71: K of a chunk of an execution format; 0 for FP32 and INT32, for which R71 gives none. -/
def chunkK (fmt : Nat) : Nat :=
  if fmt = 3 ∨ fmt = 4 ∨ fmt = 5 then 32 else if fmt = 1 ∨ fmt = 2 then 16 else if fmt = 7 then 64
  else if fmt = 8 ∨ fmt = 9 then 32 else 0

/-- R230: a re-layout descriptor. -/
structure Relayout where
  cols : Nat
  chunkMajor : Bool
  stride : Nat
  base : Nat
  deriving DecidableEq, Repr
def relayoutOf (bs : List Byte) : Option Relayout :=
  let c := at' bs 0 4
  if c % 32 = 0 ∧ 32 ≤ c ∧ c ≤ 4096 ∧ at' bs 4 1 < 2 ∧ at' bs 5 3 = 0 ∧ at' bs 8 8 % 64 = 0 ∧ at' bs 16 8 % 64 = 0 ∧
    at' bs 24 40 = 0 ∧ 64 ≤ bs.length then
    some { cols := c, chunkMajor := decide (at' bs 4 1 = 1), stride := at' bs 8 8, base := at' bs 16 8 }
  else none

/-- R230: (slice, chunk) pairs of a segment in ORDER. -/
def segOrder (r : Relayout) (chunks : Nat) : List (Nat × Nat) :=
  let slices := List.range (r.cols / 32)
  if r.chunkMajor then (List.range chunks).flatMap (fun c => slices.map (fun sl => (sl, c)))
  else slices.flatMap (fun sl => (List.range chunks).map (fun c => (sl, c)))

/-- R230: a segment's bytes and the saturations met. For FP32 and INT32 a chunk is the whole K, DESIGN CHOICE:
notes/assumptions/100. An MX scale is a byte: a scale above 254 is taken modulo 256, DESIGN CHOICE: notes/assumptions/101. -/
def segBytes (bs : List Byte) (t : Tensor) (r : Relayout) (g : Nat) : List Byte × Nat :=
  let kc := if chunkK t.exec = 0 then t.k else chunkK t.exec
  let chunks := (t.k + kc - 1) / kc
  let order := segOrder r chunks
  let sats := fun (f : Flags) => if f &&& fSAT ≠ 0 then 1 else 0
  if isMx t.exec then
    let bl := order.flatMap (fun e => (List.range 32).flatMap (fun i =>
      (List.range (kc / 32)).map (fun j => execBlock bs t (g * r.cols + 32 * e.1 + i) (e.2 * (kc / 32) + j))))
    let elems := bl.flatMap (fun b => toBytes (packNat (mxBits t.exec) b.2.1) (blockBytes t.exec))
    (elems ++ List.replicate ((64 - elems.length % 64) % 64) 0 ++ bl.map (fun b => BitVec.ofNat 8 b.1),
      bl.foldl (fun a b => a + sats b.2.2) 0)
  else
    let cs := order.flatMap (fun e => (List.range 32).flatMap (fun i =>
      (List.range kc).map (fun k => execCode bs t (g * r.cols + 32 * e.1 + i) (e.2 * kc + k))))
    (cs.flatMap (fun c => toBytes c.1 (elemBytes t.exec)), cs.foldl (fun a c => a + sats c.2) 0)

/-- R230: the execution form: segments with their offsets in the section's execution range, and the saturations met. -/
def execForm (bs : List Byte) (t : Tensor) (r : Relayout) : List (Nat × List Byte) × Nat :=
  let segs := (List.range ((t.n + r.cols - 1) / r.cols)).map (fun g => (r.base + g * r.stride, segBytes bs t r g))
  (segs.map (fun e => (e.1, e.2.1)), segs.foldl (fun a e => a + e.2.2) 0)

/-- R223: the length of a package: to the end of its directory and of its last section. -/
def packageLength (sections : List Section) : Nat :=
  sections.foldl (fun a v => max a (v.offset + v.len)) (64 + 32 * sections.length)
/-- R223: the digest of a package whose bytes `f` gives: its bytes 32 to 63 are taken as zero. -/
def packageDigest (f : Nat → Byte) (n : Nat) : List Byte :=
  Sm3.digest ((List.range n).map (fun i => if 32 ≤ i ∧ i < 64 then 0 else f i))

end Sys2Proof.Machine
end

