-- ==== Sys2Proof/Machine/Install.lean ====
section
/-!
DEFINITION. Weight arrival (R233 to R247, R326): installs from their checks to their commit, the messages between suppliers
and requesters, switch-ins and uninstalls.
-/
namespace Sys2Proof.Machine

/-! ## Status codes (R292) -/

def stOk : Nat := 0
def stAccepted : Nat := 1
def stAlready : Nat := 2
def stRefused : Nat := 0x10
def stNofit : Nat := 0x11
def stBusy : Nat := 0x12
def stNosource : Nat := 0x13
def stNoreplica : Nat := 0x14
def stNotowner : Nat := 0x15
def stNotpermitted : Nat := 0x16
def stNotenant : Nat := 0x17
def stNotfound : Nat := 0x18
def stDisabled : Nat := 0x19
def stFault : Nat := 0x1A
def stAuth : Nat := 0x20
def stSeqgap : Nat := 0x21
def stStale : Nat := 0x22
def stConflict : Nat := 0x23
def stBadsession : Nat := 0x24
def stUnknown : Nat := 0x25

/-! ## Installs -/

def State.inst (s : State) (h : Nat) : Option Inst := s.wts.jobs.find? (fun j => decide (j.handle = h))
def State.setInst (s : State) (j : Inst) : State :=
  { s with wts := { s.wts with jobs := s.wts.jobs.map (fun o => if o.handle = j.handle then j else o) } }
def State.dropInst (s : State) (h : Nat) : State :=
  { s with wts := { s.wts with jobs := s.wts.jobs.filter (fun o => decide (o.handle ≠ h)) } }
/-- R235: installs that run; the others wait for a turn. -/
def State.installsRunning (s : State) : Nat := (s.wts.jobs.filter (fun j => decide (1 ≤ j.phase))).length
/-- Answer every command of a list that completes. -/
def State.completeAll (s : State) (us : List (Nat × Nat)) (status detail : Nat) : State :=
  us.foldl (fun s u => s.complete u.1 u.2 status detail) s

/-- R326: PAGE_STATE codes of a package. -/
def pkgCode : PkgSt → Nat
  | .absent => 0
  | .installing => 1
  | .stored => 2
  | .installed => 3
  | .loaded => 4
def State.pkgState (s : State) (h : Nat) : PkgSt :=
  match s.pkg h with
  | some p => p.st
  | none => .absent

/-- Cut a rising list of numbers into runs of consecutive ones: first and length. -/
def runsOf : List Nat → List (Nat × Nat)
  | [] => []
  | a :: l =>
    match runsOf l with
    | (b, n) :: r => if b = a + 1 then (a, n + 1) :: r else (a, 1) :: (b, n) :: r
    | [] => [(a, 1)]

/-- Give the oldest install that waits its turn (R235), taking its staging frames (R238): phase 1 waits for them. -/
def State.stagingRoom (s : State) : Bool :=
  decide (s.rd F.POOL_MIN_FRAMES + s.rd F.INSTALL_CFG_STAGE_FRAMES ≤ s.poolFree)

/-- R240: an install fails: every page it created is freed, the package is as it was, and the commands it serves complete. -/
def State.dropInstall (s : State) (h status detail : Nat) : State :=
  match s.inst h, s.pkg h with
  | some j, p =>
    let s1 := (j.created.foldl (fun (s : State) pn => (s.markFreeing pn).getD s) s).dropInst h
    let s2 := match j.old with
      | some o => s1.setPkg h { o with switching := none }
      | none => s1.dropPkg h
    let waits := match p.bind (·.switching) with
      | some w => w.users
      | none => []
    (s2.completeAll j.users status detail).completeAll waits status detail
  | none, _ => s

/-- R326: ask a supplier for the pages assigned to it, at most 64 at a time. -/
def State.askPages (s : State) (h m : Nat) : State :=
  match s.inst h, s.pkg h with
  | some j, some p =>
    let mine := (j.sources.filter (fun e => decide (e.2 = m))).map (·.1)
    let out := (mine.filter (fun q => j.asked.contains q)).length
    let next := (mine.filter (fun q => !j.asked.contains q && !j.got.any (fun g => decide (g.1 = q)))).take (64 - out)
    let s1 := s.setInst { j with asked := j.asked ++ next }
    (runsOf next).foldl (fun s r => s.sendMsg m 3 h [] (p.digest ++ toBytes r.1 4 ++ toBytes r.2 4)) s1
  | _, _ => s

/-- R236, R237: the page of the own deep tier that holds image page `q`. -/
def State.ownImage (s : State) (h q : Nat) (j : Inst) : Option (Nat × Pte) :=
  let bases := (match j.old with
    | some o => [o.imageBase]
    | none => []) ++ (match s.pkg h with
    | some p => [p.imageBase]
    | none => [])
  bases.findSome? (fun b =>
    match s.pte (pageOf b + q) with
    | some p => if p.isSealed && p.deep && !p.freeing && decide (p.owner = h) then some (pageOf b + q, p) else none
    | none => none)

/-- R236: the hints in preference order that answered holding a page. -/
def holdersOf (j : Inst) (q : Nat) : List Nat := j.hints.filter (fun m => j.answers.any (fun a => decide (a.1 = m) && a.2.2.contains q))

/-! ### Execution pages (R238) -/

/-- Whether the range [a, a + n) of the execution form reaches page `e` of it. -/
def touchesPage (a n e : Nat) : Bool := decide (a < (e + 1) * pageBytes) && decide (e * pageBytes < a + n)
/-- Sections that have an execution range. -/
def execSection (v : Section) : Bool := decide (1 ≤ v.ty ∧ v.ty ≤ 3)
/-- Execution pages that no unfinished section can still reach. -/
def readyPages (p : Pkg) (j : Inst) : List Nat :=
  (List.range p.execPages).filter (fun e => !j.sealedPages.contains e &&
    (List.range p.sections.length).all (fun i => j.done.contains i ||
      (match p.sections[i]? with
       | some v => !execSection v || decide ((e + 1) * pageBytes ≤ v.execOff)
       | none => true)))
/-- LEN of an execution page, in units of 64 bytes, and the PLACE of its first section. -/
def usedLen (j : Inst) (e : Nat) : Nat :=
  max 1 (((j.extents.filter (fun x => touchesPage x.1 x.2.1 e)).foldl (fun a x =>
    max a (min pageBytes (x.1 + x.2.1 - e * pageBytes))) 0 + 63) / 64)
def pagePlace (j : Inst) (e : Nat) : Nat :=
  match j.extents.find? (fun x => touchesPage x.1 x.2.1 e) with
  | some x => x.2.2
  | none => 0

/-- R2: a page range reaches a page that is another's, or lies outside the space of programs. -/
def State.rangeTaken (s : State) (h base n : Nat) : Bool :=
  (0 < n && (inSystem (base + n * pageBytes - 1) || !(inMas (base + n * pageBytes - 1)))) ||
  s.mas.pages.any (fun e => decide (pageOf base ≤ e.1) && decide (e.1 < pageOf base + n) && decide (e.2.owner ≠ h))

/-- Map an execution page, zeroed, from the staging reservation; one that a former install made stays. -/
def State.stagePage (s : State) (h pn : Nat) : State :=
  if (s.pte pn).isSome ∨ ¬ s.leavesFit [pn] then s
  else
    let s1 := s.mapPage pn 0 0
    let s2 := match s1.pte pn with
      | some q => s1.setPte pn { q with owner := h }
      | none => s1
    match s2.inst h with
    | some j => s2.setInst { j with created := j.created ++ [pn] }
    | none => s2

/-- R238: seal one execution page and place it; none when the placement is NOFIT. -/
def State.sealExec (s : State) (h e : Nat) : Option State :=
  match s.inst h, s.pkg h with
  | some j, some p =>
    let pn := pageOf p.execBase + e
    let place := pagePlace j e
    let s0 := s.stagePage h pn
    let mark := fun (s : State) => match s.inst h with
      | some k => s.setInst { k with sealedPages := k.sealedPages ++ [e] }
      | none => s
    match s0.pte pn with
    | none => none
    | some q =>
      if q.isSealed then some (mark (if j.load ∧ place = 1 then s0.setPlace pn 1 j.budget else s0))
      else
        let s2 := mark (s0.sealPage pn (usedLen j e) place false)
        if j.load ∧ place = 1 then some (s2.setPlace pn 1 j.budget)
        else if place = 2 ∧ s2.bulkFree = 0 then none
        else
          match s2.demote pn 2 with
          | (_, .nofit) => none
          | (t, _) => some t
  | _, _ => some s

/-- R239: with every execution page sealed, the named peers are asked to confirm. -/
def State.askConfirms (s : State) (h : Nat) : State :=
  match s.inst h, s.pkg h with
  | some j, some p =>
    if j.phase = 3 ∧ j.sealedPages.length = p.execPages then
      (j.peers.take j.copies).foldl (fun s m => s.sendMsg m 6 h [] p.digest) (s.setInst { j with phase := 4, since := s.now })
    else s
  | _, _ => s

/-- Seal what is complete. -/
def State.sealReady (s : State) (h : Nat) : State :=
  match s.inst h, s.pkg h with
  | some j, some p =>
    let r := (readyPages p j).foldl (fun (g : State × Bool) e =>
      if g.2 then g
      else match g.1.sealExec h e with
        | some t => (t, false)
        | none => (g.1, true)) (s, false)
    if r.2 then r.1.dropInstall h stNofit 0 else r.1.askConfirms h
  | _, _ => s

/-- R2, R196: bytes written where the pages are still writable and the install's. -/
def State.writeStaged (s : State) (h a : Nat) (bs : List Byte) : State :=
  (pagesIn a bs.length).foldl (fun (s : State) pn => match s.pte pn with
    | some q =>
      let lo := max a (pn * pageBytes)
      if !q.isSealed && decide (q.owner = h) then s.masWrite lo ((bs.drop (lo - a)).take ((pn + 1) * pageBytes - lo)) else s
    | none => s) s

/-- Write a finished section's execution form. -/
def State.writeSection (s : State) (h i : Nat) (parts : List (Nat × List Byte)) : State :=
  match s.inst h, s.pkg h with
  | some j, some p =>
    let v := p.sections.getD i { ty := 0, place := 0, index := 0, offset := 0, len := 0, execOff := 0 }
    let n := parts.foldl (fun a e => max a (e.1 + e.2.length)) 0
    let s1 := s.setInst { j with done := j.done ++ [i], extents := j.extents ++ (if n = 0 then [] else [(v.execOff, n, v.place)]) }
    let pns := if n = 0 then [] else pagesIn (p.execBase + v.execOff) n
    let s2 := pns.foldl (fun (s : State) pn => s.stagePage h pn) s1
    (parts.foldl (fun (s : State) e => s.writeStaged h (p.execBase + v.execOff + e.1) e.2) s2).sealReady h
  | _, _ => s

/-! ### Image pages -/

/-- `n` bytes of the image from `o`; missing ones read as 0. -/
def imageBytes (j : Inst) (o n : Nat) : List Byte := (List.range n).map (fun i => SMap.getD j.image (o + i) 0)
/-- Every image page that a byte range spans has been verified (R227). -/
def spanned (j : Inst) (o n : Nat) : Bool := (pagesIn o n).all (fun q => j.got.any (fun g => decide (g.1 = q)))

/-- R224, R245: sections that need no engine: CONTEXT and TEMPLATE sections are copied unchanged; ADAPTER_INFO gives the base
digest in its bytes 0 to 31 and the tenant in bytes 32 and 33 (notes/assumptions/26). -/
def State.copySections (s : State) (h : Nat) : State :=
  match s.pkg h with
  | none => s
  | some p =>
    (List.range p.sections.length).foldl (fun (s : State) i =>
      match s.inst h, p.sections[i]? with
      | some j, some v =>
        if j.done.contains i ∨ !(spanned j v.offset v.len) then s
        else if v.ty = 1 ∨ v.ty = 2 then s.writeSection h i [(0, imageBytes j v.offset v.len)]
        else if v.ty = 5 then
          let b := imageBytes j v.offset v.len
          let s1 := s.setInst { j with done := j.done ++ [i] }
          s1.setPkg h { p with adapter := some (b.take 32, at' b 32 2) }
        else if v.ty = 4 then s.setInst { j with done := j.done ++ [i] }
        else s
      | _, _ => s) s

/-- R222, R235: a verified page of a STAGED image becomes the package's, DEEP only, with PLACE LOW; none when no drive has room. -/
def State.keepStaged (s : State) (h pn : Nat) : Option State :=
  match s.pte pn with
  | none => some s
  | some e =>
    if e.deep then some (((s.dropNear pn).setPte pn { e with owner := h, place := 3, near := false, windowed := false, nearStack := 0,
                                                             nearFrame := 0 }).fixJob pn)
    else match s.pickDrive with
      | none => none
      | some d =>
        let x := s.pickExtent d
        some ((((s.dropNear pn).setPte pn { e with
          owner := h, place := 3, deep := true, deepDrive := d, deepExtent := x, near := false, windowed := false, nearStack := 0,
          nearFrame := 0, bulk := false, bulkFrame := 0 }).writeDeep pn d x).fixJob pn)

/-- R235: a verified image page kept as a sealed page, DEEP only, with PLACE LOW; none when no drive has room. -/
def State.keepPage (s : State) (h q len check : Nat) (data : List Byte) : Option State :=
  match s.pkg h with
  | none => some s
  | some p =>
    let pn := pageOf p.imageBase + q
    if !p.keepImage then some s
    else if (s.pte pn).isSome then s.keepStaged h pn
    else if ¬ s.leavesFit [pn] then none
    else
      match s.pickDrive with
      | none => none
      | some d =>
        let x := s.pickExtent d
        let e : Pte := { deepPte d x { page := pn, check := BitVec.ofNat 32 check, len := len, owner := h, seq := 0, data := [] } with
                         place := 3 }
        let s1 := ((s.newPte pn e).masWrite (pn * pageBytes) data).writeDeep pn d x
        match s1.inst h with
        | some j => some (s1.setInst { j with created := j.created ++ [pn] })
        | none => some s1

/-- R229: an engine's registers: 0 and 1 are ID0 and ID1, 2 to 5 the compute dies. -/
def State.engineIn (s : State) (e n : Nat) : State :=
  if e < 2 then s.bump F.TAFFETA_IN_BYTES_COUNT n e else s.bump F.TAFFETA_DIE_IN_BYTES_COUNT n 0 (.die (e - 2))
def State.engineOut (s : State) (e n : Nat) : State :=
  if e < 2 then s.bump F.TAFFETA_OUT_BYTES_COUNT n e else s.bump F.TAFFETA_DIE_OUT_BYTES_COUNT n 0 (.die (e - 2))
def State.engineErr (s : State) (e : Nat) (check : Bool) : State :=
  if e < 2 then s.bumpSat (if check then F.TAFFETA_ERRS_CHECK_ERR else F.TAFFETA_ERRS_DECODE_ERR) e
  else s.bumpSat (if check then F.TAFFETA_DIE_ERRS_CHECK_ERR else F.TAFFETA_DIE_ERRS_DECODE_ERR) 0 (.die (e - 2))

/-- R223: the header and directory with which the install was begun are those of the image. -/
def headerSame (j : Inst) : Bool :=
  !(spanned j 0 j.header.length) || decide (imageBytes j 0 j.header.length = j.header)
/-- R223: with every page verified, the digest over the package is the expected one. -/
def State.digestSame (s : State) (j : Inst) : Bool :=
  match s.pkg j.handle with
  | some p => decide (j.got.length < p.imagePages) ||
      decide (packageDigest (fun i => SMap.getD j.image i 0) (packageLength p.sections) = p.digest)
  | none => true

/-- Key of a decoded block: section, plane, number. -/
def blockKey (i plane b : Nat) : Nat := (i * 2 + plane) * 2 ^ 40 + b

/-- R228, R230, R232: with the last block of a tensor decoded, its CHECK is verified and its execution form written by engine
`e`. -/
def State.finishTensor (s : State) (e h i : Nat) (t : Tensor) (rl : Section) : State :=
  match s.inst h, s.pkg h with
  | some j, some p =>
    let blk := fun plane n => (List.range n).flatMap (fun b => SMap.getD j.stored (blockKey i plane b) [])
    let form := blk 0 t.blocks0 ++ blk 1 t.blocks1
    let idx := match p.sections[i]? with
      | some v => v.index
      | none => 0
    if (crc32c form).toNat ≠ t.check then (s.engineErr e true).dropInstall h stRefused idx
    else
      match relayoutOf (imageBytes j rl.offset rl.len) with
      | none => (s.engineErr e false).dropInstall h stRefused idx
      | some r =>
        if ¬ convAllowed t.stored t.exec ∨ badValue form t then s.dropInstall h stRefused idx
        else
          let f := execForm form t r
          let n := f.1.foldl (fun a x => a + x.2.length) 0
          ((s.setInst { j with sat := j.sat + f.2 }).engineOut e n).writeSection h i f.1
  | _, _ => s

/-- R227, R230: tensors whose blocks are all decoded are written once their re-layout descriptor has arrived. -/
def State.finishReady (s : State) (e h : Nat) : State :=
  match s.pkg h with
  | none => s
  | some p =>
    (List.range p.sections.length).foldl (fun (s : State) i =>
      match s.inst h, p.sections[i]? with
      | some j, some v =>
        if v.ty ≠ 3 ∨ j.done.contains i ∨ ¬ spanned j v.offset (min 64 v.len) then s
        else
          match tensorOf (imageBytes j v.offset (min 64 v.len)) with
          | none => s
          | some t =>
            let whole := (List.range t.blocks0).all (fun b => (SMap.find? j.stored (blockKey i 0 b)).isSome) &&
              (List.range t.blocks1).all (fun b => (SMap.find? j.stored (blockKey i 1 b)).isSome)
            if !whole then s
            else match p.sections.find? (fun v => decide (v.ty = 4) && decide (v.index = t.relayout)) with
              | none => (s.engineErr e false).dropInstall h stRefused v.index
              | some rl => if spanned j rl.offset rl.len then s.finishTensor e h i t rl else s
      | _, _ => s) s

/-- A verified image page is fed to an engine of those that serve its source (R235, step 3); a package that is not what its header
or its digest says ends the install (R223). -/
def State.feedPage (s : State) (h q len check : Nat) (data : List Byte) (engines : List Nat) : State :=
  match s.inst h with
  | none => s
  | some j =>
    if j.got.any (fun g => decide (g.1 = q)) then s
    else
      let img := ((List.range data.length).zip data).foldl (fun (m : Mem) e => SMap.setD m (q * pageBytes + e.1) e.2 0) j.image
      let s1 := s.setInst { j with got := j.got ++ [(q, len, check)], image := img,
                                      asked := j.asked.filter (fun a => decide (a ≠ q)), fed := j.fed ++ [(q, engines)] }
      let ok := match s1.inst h with
        | some k => headerSame k && s1.digestSame k
        | none => true
      if ok = false then s1.dropInstall h stRefused 0
      else match s1.keepPage h q len check data with
      | none => s1.dropInstall h stNofit 0
      | some s2 => (s2.copySections h).finishReady (engines.headD 0) h

/-- R237: read a page of the own deep tier, or of a STAGED image in the near tier. -/
def State.feedOwn (s : State) (h q pn : Nat) (deep : Bool) : State :=
  match s.pte pn with
  | none => s.dropInstall h stNosource 0
  | some p =>
    let data := s.masBytes (pn * pageBytes) (64 * p.len)
    let s1 := if deep then s.bump F.FETCH_DEEP_VALUE else s
    let engines := if deep then [s.driveEngine p.deepDrive] else [2 + p.nearStack / 5]
    if p.check = crc32c data then s1.feedPage h q p.len p.check.toNat data engines else s1.dropInstall h stNosource 0

/-- R236, R237: give page `q` the source `m`, or its own deep copy, or fail the install. -/
def State.assignPage (s : State) (h q : Nat) (hint : Option Nat) : State :=
  match s.inst h with
  | none => s
  | some j =>
    match hint with
    | some m =>
      let j' : Inst := { j with
        sources := j.sources.filter (fun e => decide (e.1 ≠ q)) ++ [(q, m)]
        asked := j.asked.filter (fun a => decide (a ≠ q)) }
      s.setInst j'
    | none =>
      match s.ownImage h q j with
      | some (pn, _) =>
        let j' : Inst := { j with
          sources := j.sources.filter (fun e => decide (e.1 ≠ q)) ++ [(q, 8192)]
          asked := j.asked.filter (fun a => decide (a ≠ q)) }
        (s.setInst j').feedOwn h q pn true
      | none => s.dropInstall h stNosource 0

/-- R236: every page gets its source; a page without one fails the install before any fetch. -/
def State.assignSources (s : State) (h : Nat) : State :=
  match s.inst h, s.pkg h with
  | some j, some p =>
    let pages := List.range p.imagePages
    let s1 := s.setInst { j with phase := 3, since := s.now }
    if j.staged then
      if pages.all (fun q => match s.pte (pageOf p.imageBase + q) with
          | some e => e.isSealed && e.near && !e.freeing
          | none => false) then
        pages.foldl (fun (s : State) q => s.feedOwn h q (pageOf p.imageBase + q) false) s1
      else s1.dropInstall h stNosource 0
    else if pages.any (fun q => (holdersOf j q).isEmpty && (s.ownImage h q j).isNone) then s1.dropInstall h stNosource 0
    else
      let s2 := pages.foldl (fun (s : State) q => s.assignPage h q (holdersOf j q).head?) s1
      j.hints.eraseDups.foldl (fun (s : State) m => s.askPages h m) s2
  | _, _ => s

/-- R236: the messages of one query: at most 4,096 pages each. -/
def queryParts (pages : Nat) : List (Nat × Nat) :=
  (List.range ((pages + 4095) / 4096)).map (fun i => (4096 * i, min 4096 (pages - 4096 * i)))
/-- Step 2 of R235. -/
def State.startQuery (s : State) (h : Nat) : State :=
  match s.inst h, s.pkg h with
  | some j, some p =>
    let s1 := s.setInst { j with phase := 2, since := s.now }
    if j.staged ∨ j.hints.isEmpty then s1.assignSources h
    else j.hints.eraseDups.foldl (fun (s : State) m =>
      (queryParts p.imagePages).foldl (fun (s : State) q => s.sendMsg m 1 h [] (p.digest ++ toBytes q.1 4 ++ toBytes q.2 4)) s) s1
  | _, _ => s

/-- R235, R238: begin an install, or have it wait for a turn or for its frames. -/
def State.beginInstall (s : State) (h : Nat) : State :=
  match s.inst h with
  | none => s
  | some j =>
    if j.phase = 0 ∧ 8 ≤ s.installsRunning then s
    else if s.stagingRoom then s.startQuery h
    else s.setInst { j with phase := 1, since := if j.phase = 0 then s.now else j.since }
/-- An install has ended: the oldest that waits takes its turn. -/
def State.nextInstall (s : State) : State :=
  match s.wts.jobs.find? (fun j => decide (j.phase = 0)) with
  | some j => s.beginInstall j.handle
  | none => s
/-- A command that may end an install lets the next one begin. -/
def State.thenNext (s : State) (h : Nat) : State := if (s.inst h).isNone then s.nextInstall else s

/-! ### The rows of an install -/

/-- R234: the parameter block. -/
structure InstallArgs where
  handle : Nat
  flags : Nat
  hints : List Nat
  budget : Nat
  copies : Nat
  imageBase : Nat
  execBase : Nat
  limit : Nat
  window : Nat
  digest : List Byte
  peers : List Nat
  deriving DecidableEq, Repr

/-- R234, R291: the block or blocks, if they keep the layout. -/
def installArgs (b : List Byte) : Option InstallArgs :=
  let n := at' b 3 1
  let a : InstallArgs := {
    handle := at' b 0 2, flags := at' b 2 1, budget := at' b 4 2, copies := at' b 6 1, imageBase := at' b 8 8,
    execBase := at' b 16 8, limit := at' b 24 4, window := at' b 28 2, digest := (b.drop 32).take 32,
    peers := (List.range 4).map (fun i => at' b (64 + 2 * i) 2),
    hints := ((List.range 12).map (fun i => at' b (72 + 2 * i) 2) ++ (List.range 4).map (fun i => at' b (96 + 2 * i) 2)).take n }
  if (b.length = if 12 < n then 192 else 96) ∧ n ≤ 16 ∧ 1 ≤ a.handle ∧ a.flags < 8 ∧ a.copies ≤ 3 ∧ at' b 7 1 = 0 ∧
    at' b 30 2 = 0 ∧ a.imageBase % pageBytes = 0 ∧ a.execBase % pageBytes = 0 ∧
    (a.flags % 2 = 0 ∨ (1 ≤ a.budget ∧ a.budget ≤ 1023)) ∧ a.peers.all (fun m => decide (m < 8192)) ∧
    a.hints.all (fun m => decide (m < 8192)) ∧ at' b 104 88 = 0 then some a
  else none

/-- R212, R241: a budget is refused: in use, or leaving the pool too small. -/
def State.budgetRefused (s : State) (b limit : Nat) : Bool :=
  decide (0 < s.rd F.BUDGET_LIMIT b) || decide (s.nearFrames < s.limits + limit + s.rd F.POOL_MIN_FRAMES)
/-- R24: compute dies in service. -/
def State.diesInService (s : State) : List Nat := (List.range 4).filter (fun d => !s.fuses.retiredDies.contains d)
/-- R241: frames that could hold an execution form. -/
def State.allFrames (s : State) : Nat :=
  s.nearFrames + s.rd F.BULK_FRAMES_COUNT + (List.range 16).foldl (fun a d => a + s.rd F.DEEP_EXTENTS_COUNT d) 0

/-- R216: sections whose execution pages are STREAM pages. -/
def streamed (l : List Section) : Bool := l.any (fun v => execSection v && decide (v.place = 2))
/-- R136, R4: streams that a die has left. -/
def State.streamsLeft (s : State) (d : Nat) : Nat :=
  64 - 8 * ((List.range 8).filter (fun q => s.fuses.retiredPairs.contains (d, q))).length
/-- R4, R241: the dies of a package have the streams that its command lists need. -/
def State.streamsFit (s : State) (t : Tmpl) : Bool := t.dies.all (fun d => decide (t.streams ≤ s.streamsLeft d))
/-- R4, R241: contexts, frames and streams that a package needs and the module no longer has. -/
def State.outgrown (s : State) (p : Pkg) : Bool :=
  decide (4 * s.diesInService.length < p.contexts) || decide (s.allFrames < p.execPages) || !s.streamsFit p.tmpl

/-- R235, step 1, R241: what refuses an install before any page changes: a status and its DETAIL. An execution or kept image range
over pages of another owner is REFUSED, as R2 asks (notes/assumptions/99). -/
def State.installRefusal (s : State) (a : InstallArgs) (header : List Byte) : Option (Nat × Nat) :=
  let held := s.wts.pkgs.length
  if ¬ headerFits header a.digest (Grade.byte s.fuses.grade) ∨
    ¬ (List.range (hdrSections header)).all (sectionOk header) then some (stRefused, 0)
  else if (match s.pkg a.handle with
    | some p => decide (p.digest ≠ a.digest)
    | none => false) then some (stRefused, 0)
  else if s.pkgState a.handle = .absent ∧ 8192 ≤ held then some (stNofit, 8192)
  else if s.rangeTaken a.handle a.execBase (hdrExecPages header) ∨
    (bitOf a.flags 1 ∧ ¬ bitOf a.flags 2 ∧ s.rangeTaken a.handle a.imageBase (hdrImagePages header)) then some (stRefused, 0)
  else if 4 * s.diesInService.length < hdrContexts header ∨ s.allFrames < hdrExecPages header ∨
    !(s.streamsFit ((s.pkg a.handle).map (·.tmpl) |>.getD Tmpl.empty)) then some (stNofit, 0)
  else if bitOf a.flags 0 ∧ a.window = 0 ∧ streamed (sectionsOf header) then some (stNofit, 0)
  else if bitOf a.flags 0 ∧ (a.limit < hdrMinLimit header ∨ a.window < hdrMinWindow header ∨ s.budgetRefused a.budget a.limit) then
    some (stNofit, 0)
  else none

/-- The package that an install makes. -/
def installPkg (a : InstallArgs) (header : List Byte) : Pkg :=
  { st := .installing, digest := a.digest, kind := hdrKind header, bucket := bitOf (hdrFlags header) 0, contexts := hdrContexts header,
    execPages := hdrExecPages header, imagePages := hdrImagePages header, minWindow := hdrMinWindow header,
    minLimit := hdrMinLimit header, sections := sectionsOf header, imageBase := a.imageBase, execBase := a.execBase,
    keepImage := bitOf a.flags 1, tmpl := Tmpl.empty, budget := 0, slots := [], switching := none, adapter := none, bound := 0,
    leaving := false }
def newInst (h : Nat) (old : Option Pkg) (users : List (Nat × Nat)) : Inst :=
  { handle := h, load := false, staged := false, hints := [], budget := 0, copies := 0, limit := 0, window := 0, tenant := none,
    peers := [], old := old, phase := 0, since := 0, answers := [], sources := [], asked := [], got := [], image := [], stored := [],
    done := [], extents := [], sealedPages := [], confirmed := [], users := users, created := [], sat := 0, header := [], fed := [] }

/-- R407: what makes a Ready module Serving. -/
def State.serveNow (s : State) : State := if s.modState = 2 then s.moduleTo 3 else s

/-- R223, R234: the header and directory of an image that is staged at an address. -/
def State.stagedHeader (s : State) (a : Nat) : List Byte :=
  let h := s.masBytes a 64
  if hdrSections h ≤ 65536 then s.masBytes a (64 + 32 * hdrSections h) else h

/-- INSTALL (R235, R241), after the checks that every command passes; `header` is the package's header and directory as the module
reads them from its source, and a STAGED image's stand in the near tier: refused, completed at once, joined to an install of the
same package, or accepted. `tenant` is the tenant it acts for. -/
def State.opInstall (s : State) (i seq : Nat) (tenant : Option Nat) (body header : List Byte) : State :=
  match installArgs body with
  | none => s.answerSeq i seq stRefused 0 []
  | some a =>
    let header := if bitOf a.flags 2 then s.stagedHeader a.imageBase else header
    match s.pkg a.handle, s.inst a.handle with
    | some p, some j =>
      if p.digest = a.digest then (s.answerSeq i seq stAccepted 0 []).setInst { j with users := j.users ++ [(i, seq)] }
      else s.answerSeq i seq stRefused 0 []
    | old, _ =>
      match s.installRefusal a header with
      | some (st, d) => s.answerSeq i seq st d []
      | none =>
        if s.pkgState a.handle = .installed ∨ s.pkgState a.handle = .loaded then s.answerSeq i seq stOk 0 []
        else
          let j : Inst := { newInst a.handle old [(i, seq)] with
            load := bitOf a.flags 0, staged := bitOf a.flags 2, hints := a.hints, budget := a.budget, copies := a.copies,
            limit := a.limit, window := a.window, tenant := tenant, peers := a.peers, header := header }
          let s1 := (s.answerSeq i seq stAccepted 0 []).setPkg a.handle (installPkg a header)
          let s2 := { s1 with wts := { s1.wts with jobs := s1.wts.jobs ++ [j] } }
          (if j.load then s2.serveNow else s2).beginInstall a.handle

/-- QUERY_TIMEOUT (R236): QUERY_US have passed: what has not answered holds nothing, and sources are assigned. -/
def execQueryTimeout (h : Nat) (s : State) : Res :=
  .next (match s.inst h with
    | none => s
    | some j =>
      if j.phase = 2 ∧ j.since + 1000 * s.rd F.INSTALL_CFG_QUERY_US ≤ s.now then
        let late := match s.pkg h with
          | some p => (queryParts p.imagePages).length
          | none => 0
        ((s.setInst { j with answers := j.answers.filter (fun a => decide (late ≤ a.2.1)) }).assignSources h).thenNext h
      else s)

/-- STAGE_FRAMES_TIMEOUT (R238): an install that waits for staging frames takes them when the pool has them; after 1 s it
fails NOFIT. -/
def execStageFramesTimeout (h : Nat) (s : State) : Res :=
  .next (match s.inst h with
    | none => s
    | some j =>
      if j.phase ≠ 1 then s
      else if s.stagingRoom then (s.startQuery h).thenNext h
      else if j.since + 1000000000 ≤ s.now then (s.dropInstall h stNofit 0).nextInstall
      else s)

/-- R229: an engine in service: an I/O die's while the module runs, a compute die's while the die does. -/
def State.engineOn (s : State) (e : Nat) : Bool :=
  if e < 2 then decide (2 ≤ s.modState ∧ s.modState ≤ 5)
  else decide (s.rd ⟨.DIE_STATUS, 4 * (e - 2), 2⟩ ≤ 1) && !s.fuses.retiredDies.contains (e - 2)
/-- R229: an engine serves the source of a page that a range of the image spans. -/
def servesBlock (j : Inst) (e o n : Nat) : Bool :=
  (pagesIn o n).any (fun q => j.fed.any (fun f => decide (f.1 = q) && f.2.contains e))
/-- R229: TENSOR sections that an engine has still to expand: those whose first page its source serves. -/
def State.engineJobs (s : State) (e : Nat) : Nat :=
  s.wts.jobs.foldl (fun a j => if j.phase = 3 then a + (match s.pkg j.handle with
    | some p => ((List.range p.sections.length).filter (fun i => !j.done.contains i && (match p.sections[i]? with
        | some v => decide (v.ty = 3) && servesBlock j e v.offset (min 1 v.len)
        | none => false))).length
    | none => 0) else a) 0

/-- TAFFETA_BLOCK_DECODE (R227 to R232): engine `e` decodes block `b` of a plane of section `i`, once every image page that it
spans has arrived; an engine works only on what its own sources deliver. -/
def execTaffetaBlockDecode (e h i plane b : Nat) (s : State) : Res :=
  if 6 ≤ e ∨ 2 ≤ plane then .refused (.noSuchUnit "Taffeta engine")
  else .next (match s.inst h, s.pkg h with
    | some j, some p =>
      (match p.sections[i]? with
       | none => s
       | some v =>
         if v.ty ≠ 3 ∨ j.phase ≠ 3 ∨ j.done.contains i ∨ (SMap.find? j.stored (blockKey i plane b)).isSome then s
         else if ¬ spanned j v.offset (min 64 v.len) ∨ ¬ s.engineOn e then s
         else
           match tensorOf (imageBytes j v.offset (min 64 v.len)) with
           | none => ((s.engineErr e false).dropInstall h stRefused v.index).thenNext h
           | some t =>
             if v.len < tablesEnd t then ((s.engineErr e false).dropInstall h stRefused v.index).thenNext h
             else if ¬ spanned j v.offset (tablesEnd t) then s
             else if (if plane = 0 then t.blocks0 else t.blocks1) ≤ b then s
             else
               let bs := imageBytes j v.offset v.len
               let o := blockAt bs t plane b
               let n := at' bs o 4 % 2 ^ 24
               if o + 4 ≤ v.len ∧ (¬ spanned j (v.offset + o) (min (4 + n) (v.len - o)) ∨
                   ¬ servesBlock j e (v.offset + o) (min (4 + n) (v.len - o))) then s
               else
                 match decodeBlock bs v.len o (blockSize t plane b) ((bs.drop (tableAt t plane)).take 128) with
                 | none => ((s.engineErr e false).dropInstall h stRefused v.index).thenNext h
                 | some out =>
                   let s1 := (s.setInst { j with stored := SMap.insert j.stored (blockKey i plane b) out }).engineIn e (4 + n)
                   (s1.finishReady e h).thenNext h)
    | _, _ => s)

/-- CONFIRM_TIMEOUT (R239): 5 s after step 4 fewer than COPIES peers have confirmed. -/
def execConfirmTimeout (h : Nat) (s : State) : Res :=
  .next (match s.inst h with
    | none => s
    | some j =>
      if j.phase = 4 ∧ j.confirmed.length < j.copies ∧ j.since + 5000000000 ≤ s.now then
        (s.dropInstall h stNoreplica 0).nextInstall
      else s)

/-! ## Switch-ins (R242) -/

/-- R387: the mode a package's switch-in takes. -/
def State.pkgModeLinen (s : State) (h : Nat) : Bool :=
  match s.rd ⟨.PKG_MODE, 2 * (h % 16), 2⟩ (h / 16) with
  | 1 => false
  | 2 => true
  | _ => s.flag F.NUM_MODE_DEFAULT

/-- R242, R295: the slot that a switch-in takes on a die: EMPTY, or READY without tokens, free of other packages, and not
dedicated to another tenant. -/
def State.usableSlot (s : State) (die : Nat) (tenant : Option Nat) (taken : List (Nat × Nat)) : Option Nat :=
  (List.range 4).find? (fun c =>
    let i := dieCtx die c
    (decide (s.slotState die c = 0) || (decide (s.slotState die c = 2) && decide (s.slotTokens die c = 0))) &&
    !taken.contains (die, c) &&
    !s.wts.pkgs.any (fun e => e.2.slots.contains (die, c)) &&
    !s.stopsAdmission .die die die && !s.stopsAdmission .context i die &&
    (if s.flag F.CTX_OWNER_DEDICATED i then decide (tenant = some (s.rd F.CTX_OWNER_TENANT i)) else true))
/-- Slots for the contexts of a package, in order. -/
def State.pickSlots (s : State) (tenant : Option Nat) : List Nat → List (Nat × Nat) → Option (List (Nat × Nat))
  | [], taken => some taken
  | d :: ds, taken =>
    match s.usableSlot d tenant taken with
    | none => none
    | some c => s.pickSlots tenant ds (taken ++ [(d, c)])

/-- R155: the slots that the contexts of a bucket-mode package get: as many as are usable. -/
def State.pickSome (s : State) (tenant : Option Nat) (ds : List Nat) : List (Nat × Nat) :=
  ds.foldl (fun taken d => match s.usableSlot d tenant taken with
    | none => taken
    | some c => taken ++ [(d, c)]) []
/-- R242, R155: the slots a switch-in of a package takes with its contexts on the dies `ds`: one for each context; in bucket mode
one is enough. -/
def State.slotsFor (s : State) (p : Pkg) (tenant : Option Nat) (ds : List Nat) : Option (List (Nat × Nat)) :=
  if p.bucket then
    let l := s.pickSome tenant (ds.take p.contexts)
    if l.isEmpty ∧ 0 < p.contexts then none else some l
  else match s.pickSlots tenant (ds.take p.contexts) [] with
    | some l => if l.length < p.contexts then none else some l
    | none => none
/-- Execution pages of a package: those of its CONTEXT and TEMPLATE sections, then its NEAR pages, each in ascending order. -/
def State.promoteList (s : State) (p : Pkg) : List Nat :=
  let first := p.sections.flatMap (fun v => if v.ty = 1 ∨ v.ty = 2 then pagesIn (p.execBase + v.execOff) v.len else [])
  let all := (List.range p.execPages).map (fun e => pageOf p.execBase + e)
  let near := all.filter (fun pn => match s.pte pn with
    | some e => decide (e.place = 1)
    | none => false)
  (sortBy (fun (a b : Nat) => decide (a < b)) first.eraseDups) ++ near.filter (fun pn => !first.contains pn)

/-- R242: a switch-in ends without success: its reservation is released. -/
def State.failSwitch (s : State) (h status : Nat) : State :=
  match s.pkg h with
  | none => s
  | some p =>
    match p.switching with
    | none => s
    | some w =>
      let s1 := if w.begun then
          let s2 := (s.wr F.BUDGET_LIMIT 0 w.budget).wr F.BUDGET_WINDOW 0 w.budget
          (List.range p.execPages).foldl (fun (s : State) e =>
            match s.pte (pageOf p.execBase + e) with
            | some q => if q.budget = w.budget then s.setPlace (pageOf p.execBase + e) q.place 0 else s
            | none => s) s2
        else s
      let s3 := { s1 with arr := { s1.arr with linenPkgs := SMap.erase s1.arr.linenPkgs h } }
      (s3.setPkg h { p with switching := none, slots := [], budget := 0 }).completeAll w.users status 0

/-- R216: the STREAM pages of a package take the budget of its window ring. -/
def State.streamBudget (s : State) (p : Pkg) (b : Nat) : State :=
  (List.range p.execPages).foldl (fun (s : State) e =>
    match s.pte (pageOf p.execBase + e) with
    | some q => if q.place = 2 then s.setPlace (pageOf p.execBase + e) 2 b else s
    | none => s) s
/-- R212, R216, R241: a LIMIT, WINDOW or budget that a switch-in cannot have; STREAM pages need a window ring. -/
def State.misfit (s : State) (p : Pkg) (budget limit window : Nat) : Bool :=
  decide (limit < p.minLimit) || decide (window < p.minWindow) || s.budgetRefused budget limit ||
  (decide (window = 0) && streamed p.sections) || s.outgrown p

/-- R242: steps 1 to 3 of a switch-in of an INSTALLED package. -/
def State.beginSwitch (s : State) (h : Nat) : State :=
  match s.pkg h with
  | none => s
  | some p =>
    match p.switching with
    | none => s
    | some w =>
      if w.begun ∨ p.st ≠ .installed then s
      else if s.misfit p w.budget w.limit w.window then s.failSwitch h stNofit
      else
        match s.slotsFor p w.tenant p.tmpl.dies with
        | none => s.failSwitch h stNofit
        | some slots =>
            let s1 := (s.wr F.BUDGET_LIMIT w.limit w.budget).wr F.BUDGET_WINDOW w.window w.budget
            let s2 := s1.setPkg h { p with budget := w.budget, slots := slots, switching := some { w with begun := true } }
            let s3 := { s2 with arr := { s2.arr with linenPkgs := SMap.setD s2.arr.linenPkgs h (s.pkgModeLinen h) false } }
            let die := (p.tmpl.dies.headD 0)
            (s3.promoteList p).foldl (fun (s : State) pn =>
              let s4 := match s.pte pn with
                | some q => if q.place = 1 then s.setPlace pn 1 w.budget else s
                | none => s
              s4.requestPromotion pn die 2) (s3.streamBudget p w.budget)

/-- INSTALL_COMMIT (R240): with every execution page sealed and placed and the peers confirmed, the commit record is
written; once the partner holds it, the package is INSTALLED and the install completes, after its switch-in when LOAD is set.
`t` is what the package's templates and contexts record (notes/assumptions/10). -/
def execInstallCommit (h : Nat) (t : Tmpl) (s : State) : Res :=
  .next (match s.inst h, s.pkg h with
    | some j, some p =>
      let pns := (List.range p.execPages).map (fun e => pageOf p.execBase + e)
      if j.phase = 4 ∧ j.copies ≤ j.confirmed.length ∧ pns.all (fun pn => (s.jobOf pn).isNone) then
        (((s.setInst { j with phase := 5 })).setPkg h { p with tmpl := t }).newRecord 0xFFFF (.install h p.digest 3)
      else if j.phase = 5 ∧ s.jActive ∧ ¬ s.jr.queue.any (fun r => match r.pay with
          | .install k _ c => decide (k = h) && decide (c = 3)
          | _ => false) then
        let w : Option Switch := if j.load then
            some { budget := j.budget, limit := j.limit, window := j.window, tenant := j.tenant,
                   users := j.users ++ (match p.switching with
                     | some w => w.users
                     | none => []), begun := false }
          else p.switching
        let s0 := if j.staged ∧ ¬ p.keepImage then
            (List.range p.imagePages).foldl (fun (s : State) q => (s.markFreeing (pageOf p.imageBase + q)).getD s) s
          else s
        let s1 := (s0.setPkg h { p with st := .installed, switching := w }).dropInst h
        let s2 := if j.load then s1 else s1.completeAll j.users stOk 0
        (s2.beginSwitch h).nextInstall
      else s
    | _, _ => s)

/-- SWITCH_IN (R241, R242, R247), after the common checks. -/
def State.opSwitchIn (s : State) (i seq : Nat) (tenant : Option Nat) (b : List Byte) : State :=
  let h := at' b 0 2
  let w : Switch := { budget := at' b 2 2, limit := at' b 4 4, window := at' b 8 2, tenant := tenant, users := [(i, seq)],
                      begun := false }
  if b.length ≠ 10 ∨ w.budget = 0 ∨ 1023 < w.budget then s.answerSeq i seq stRefused 0 []
  else
    match s.pkg h with
    | none => s.answerSeq i seq stNotfound 0 []
    | some p =>
      let misfit := s.misfit p w.budget w.limit w.window
      match p.st, p.switching with
      | .installing, none =>
        ((s.answerSeq i seq stAccepted 0 []).serveNow).setPkg h { p with switching := some w }
      | .installed, none =>
        if p.kind = 2 ∨ p.leaving then s.answerSeq i seq stRefused 0 []
        else if misfit ∨ (s.slotsFor p tenant p.tmpl.dies).isNone then s.answerSeq i seq stNofit 0 []
        else (((s.answerSeq i seq stAccepted 0 []).serveNow).setPkg h { p with switching := some w }).beginSwitch h
      | .stored, none =>
        if misfit then s.answerSeq i seq stNofit 0 []
        else
          let s1 := ((s.answerSeq i seq stAccepted 0 []).serveNow).setPkg h { p with st := .installing, switching := some w }
          let s2 := { s1 with wts := { s1.wts with jobs := s1.wts.jobs ++ [newInst h (some p) []] } }
          s2.beginInstall h
      | _, _ => s.answerSeq i seq stRefused 0 []

/-- Modules that the routing table reaches. -/
def State.routed (s : State) : List Nat :=
  (List.range 8192).filter (fun m => decide (s.rd F.ROUTE_PRIMARY m ≠ 0) || decide (s.rd F.ROUTE_ALT m ≠ 0))

/-- R336: HOLDER_ALT[m] as a message carries it: the entry, then the in-service flag. -/
def State.sendShard (s : State) (dst m : Nat) : State :=
  s.sendMsg dst 0x2D 0 (toBytes m 2 ++ toBytes (s.span .HOLDER_ALT m .glob 0 2 % 2 ^ 41) 8 ++
    toBytes (b2n (!(s.flag F.HOLDER_ALT_OUT m))) 1) []
/-- R364: a spare that has switched in what it holds announces itself as a holder of the failed module's shards. -/
def State.spareDone (s : State) : State :=
  match s.jr.spareFor with
  | none => s
  | some m =>
    if s.wts.pkgs.any (fun e => e.2.switching.isSome) then s
    else
      let n := s.rd F.HOLDER_ALT_COUNT m
      let s1 := (((s.wr F.HOLDER_ALT_H2 (s.rd F.HOLDER_ALT_H1 m) m).wr F.HOLDER_ALT_H1 (s.rd F.HOLDER_ALT_H0 m) m).wr
        F.HOLDER_ALT_H0 s.ownId m).wr F.HOLDER_ALT_COUNT (min (n + 1) 3) m
      let s2 := { s1 with jr := { s1.jr with spareFor := none } }
      s2.routed.foldl (fun (s : State) d => if d = s.ownId then s else s.sendShard d m) s2

/-- SWITCH_IN_LOADED (R242): every NEAR page is readable and every context is loaded in its slot; `refused` says that a
context load of the package was refused, which releases the reservation with NOFIT (R388, R398). -/
def execSwitchInLoaded (h : Nat) (refused : Bool) (s : State) : Res :=
  .next (match s.pkg h with
    | none => s
    | some p =>
      match p.switching with
      | none => s
      | some w =>
        if ¬ w.begun then s
        else if refused then (s.failSwitch h stNofit).spareDone
        else
          let near := (List.range p.execPages).all (fun e => match s.pte (pageOf p.execBase + e) with
            | some q => decide (q.place ≠ 1) || q.near
            | none => true)
          let loaded := (List.range p.contexts).all (fun k => match p.slots[k]? with
            | some (d, c) => (decide (s.slotState d c = 2) || decide (s.slotState d c = 3)) &&
              (match SMap.find? s.arr.images (dieCtx d c) with
               | some img => decide (img.pkg = h) && (decide (img.idx = k) || p.bucket)
               | none => false)
            | none => p.bucket)
          if near && loaded then
            ((s.setPkg h { p with st := .loaded, switching := none }).completeAll w.users stOk 0).spareDone
          else s)

/-- R244: a package is switched out: its NEAR pages become AUTO, its budget is released and it is INSTALLED again. -/
def State.switchOut (s : State) (h : Nat) : State :=
  match s.pkg h with
  | none => s
  | some p =>
    if p.st ≠ .loaded then s
    else
      let s1 := (List.range p.execPages).foldl (fun (s : State) e =>
        match s.pte (pageOf p.execBase + e) with
        | some q => s.setPlace (pageOf p.execBase + e) (if q.place = 1 then 0 else q.place) (if q.budget = p.budget then 0 else q.budget)
        | none => s) s
      let s2 := (s1.wr F.BUDGET_LIMIT 0 p.budget).wr F.BUDGET_WINDOW 0 p.budget
      let s3 := { s2 with arr := { s2.arr with linenPkgs := SMap.erase s2.arr.linenPkgs h } }
      s3.setPkg h { p with st := .installed, slots := [], budget := 0 }

/-- UNINSTALL (R244, R247), after the common checks. -/
def State.opUninstall (s : State) (i seq : Nat) (b : List Byte) : State :=
  let h := at' b 0 2
  if b.length ≠ 2 then s.answerSeq i seq stRefused 0 []
  else
    match s.pkg h with
    | none => s.answerSeq i seq stRefused 0 []
    | some p =>
      if (p.st = .installed ∨ p.st = .stored) ∧ p.switching = none then
        let s1 := s.answerSeq i seq stOk 0 []
        if 0 < p.bound then s1.setPkg h { p with leaving := true } else s1.freePkg h
      else s.answerSeq i seq stRefused 0 []

/-! ## Staging by the host and drives (R291, R205) -/

/-- STAGE_MAP (R197, R291). -/
def State.opStageMap (s : State) (i seq : Nat) (b : List Byte) : State :=
  let a := at' b 0 8
  let n := at' b 8 4
  let w := at' b 12 2
  if b.length ≠ 14 ∨ a % pageBytes ≠ 0 ∨ n = 0 ∨ 4096 ≤ w then s.answerSeq i seq stRefused 0 []
  else
    let pns := (List.range n).map (· + pageOf a)
    if pns.any (fun pn => (s.pte pn).isSome || inSystem (pn * pageBytes) || !(inMas (pn * pageBytes))) then
      s.answerSeq i seq stRefused 0 []
    else
      let m := s.mapRange pns 0 w
      if m.2.1 = migOk then m.1.answerSeq i seq stOk 0 [] else s.answerSeq i seq stNofit 0 []

/-- STAGE_SEAL (R198, R291): the pages before one that is not writable stay sealed. -/
def State.opStageSeal (s : State) (i seq : Nat) (b : List Byte) : State :=
  let a := at' b 0 8
  let n := at' b 8 4
  let len := at' b 12 2
  if b.length ≠ 14 ∨ a % pageBytes ≠ 0 ∨ n = 0 ∨ len = 0 ∨ 32768 < len then s.answerSeq i seq stRefused 0 []
  else
    let pns := (List.range n).map (· + pageOf a)
    let good := pns.takeWhile (fun pn => match s.pte pn with
      | some p => !p.isSealed && !p.freeing && !p.sealing
      | none => false)
    let s1 := good.foldl (fun (s : State) pn => s.sealPage pn (if pn + 1 = pageOf a + n then len else 32768) 0 false) s
    s1.answerSeq i seq (if good.length = n then stOk else stFault) 0 []

/-- ADOPT_DRIVE (R205, R291): a foreign drive's header is rewritten and its catalogue cleared. -/
def State.opAdoptDrive (s : State) (i seq : Nat) (b : List Byte) : State :=
  let d := at' b 0 1
  if b.length ≠ 1 ∨ 16 ≤ d then s.answerSeq i seq stRefused 0 []
  else
    match SMap.find? s.mas.drives d with
    | none => s.answerSeq i seq stRefused 0 []
    | some v =>
      if s.rd F.DEEP_DRIVE_STATE d = 2 then
        let s1 := s.setDrive d { v with header := s.driveIdent, slot := d, records := [] }
        ((s1.wr F.DEEP_DRIVE_STATE 1 d).wr F.DEEP_EXTENTS_COUNT (min v.extents maxExtents) d).answerSeq i seq stOk 0 []
      else s.answerSeq i seq stRefused 0 []

/-! ## Messages between requesters and suppliers (R326) -/

/-- R236: image page `q` of the package with a digest, if this module may supply it: LEN, CHECK and data. -/
def State.supply (s : State) (digest : List Byte) (q : Nat) : Option (Nat × Nat × List Byte) :=
  (s.wts.pkgs.filter (fun (e : Nat × Pkg) => decide (e.2.digest = digest))).findSome? (fun (h, p) =>
    let live := (s.inst h).bind (fun j => (j.got.find? (fun g => decide (g.1 = q))).map (fun g =>
      (g.2.1, g.2.2, imageBytes j (q * pageBytes) (64 * g.2.1))))
    match live with
    | some v => some v
    | none =>
      let pn := pageOf p.imageBase + q
      match s.pte pn with
      | some e => if p.imagePages ≤ q ∨ !e.isSealed ∨ e.freeing ∨ pteLost e ∨ e.owner ≠ h then none
                  else some (e.len, e.check.toNat, s.masBytes (pn * pageBytes) (64 * e.len))
      | none => none)

/-- PAGE_QUERY (R326). -/
def execPageQuery (src ref : Nat) (digest : List Byte) (first count : Nat) (s : State) : Res :=
  .next (if s.closed src 1 then s else
    let s0 := s.takeInbox src 1
    if count = 0 ∨ 4096 < count then s0.malformed src
    else
      let st := match s0.wts.pkgs.find? (fun (e : Nat × Pkg) => decide (e.2.digest = digest)) with
        | some e => pkgCode e.2.st
        | none => 0
      let map := (List.range count).foldl (fun a k => if (s0.supply digest (first + k)).isSome then a + 2 ^ k else a) 0
      s0.sendMsg src 2 ref [] (digest ++ toBytes first 4 ++ toBytes count 4 ++ toBytes st 1 ++ toBytes 0 7 ++
        toBytes map ((count + 7) / 8)))

/-- PAGE_ANSWER (R236): what a hint holds; with the last answer sources are assigned. -/
def execPageAnswer (src h : Nat) (digest : List Byte) (first : Nat) (held : List Bool) (s : State) : Res :=
  .next (if s.closed src 2 then s else
    let s0 := s.takeInbox src 2
    match s0.inst h, s0.pkg h with
    | some j, some p =>
      if j.phase ≠ 2 ∨ p.digest ≠ digest ∨ !j.hints.contains src then s0
      else
        let pages := (List.range held.length).filterMap (fun k => if held.getD k false then some (first + k) else none)
        let a := match j.answers.find? (fun a => decide (a.1 = src)) with
          | some a => (src, a.2.1 + 1, a.2.2 ++ pages)
          | none => (src, 1, pages)
        let all := j.answers.filter (fun a => decide (a.1 ≠ src)) ++ [a]
        let s1 := s0.setInst { j with answers := all }
        let parts := (queryParts p.imagePages).length
        if j.hints.all (fun m => all.any (fun a => decide (a.1 = m) && decide (parts ≤ a.2.1))) then
          (s1.assignSources h).thenNext h
        else s1
    | _, _ => s0)

/-- PAGE_FETCH (R326): the pages in ascending order; one that this module no longer holds is refused. -/
def execPageFetch (src ref : Nat) (digest : List Byte) (first count : Nat) (s : State) : Res :=
  .next (if s.closed src 3 then s else
    let s0 := s.takeInbox src 3
    if count = 0 ∨ 64 < count then s0.malformed src
    else (List.range count).foldl (fun (s : State) k =>
      match s.supply digest (first + k) with
      | some (len, check, data) => s.sendMsg src 4 ref (toBytes (first + k) 4 ++ toBytes check 4 ++ toBytes len 2) data
      | none => s.sendMsg src 5 ref (toBytes (first + k) 4) []) s0)

/-- R237: an unfinished page goes to the next hint in preference order that holds it, then to the own deep tier. -/
def State.reassign (s : State) (h q m : Nat) : State :=
  match s.inst h with
  | none => s
  | some j =>
    let rest := ((j.hints.dropWhile (fun x => decide (x ≠ m))).drop 1).find? (fun x => (holdersOf j q).contains x && decide (x ≠ m))
    let s0 := if rest.isSome ∨ (s.ownImage h q j).isSome then s.bump F.FETCH_RETRY_VALUE else s
    let s1 := s0.assignPage h q rest
    match rest with
    | some x => s1.askPages h x
    | none => s1
/-- R237: a supplier stops serving: each page it had still to send is reassigned. -/
def State.supplierGone (s : State) (m : Nat) : State :=
  s.wts.jobs.foldl (fun (s : State) j =>
    if j.phase ≠ 3 then s
    else
      let mine := (j.sources.filter (fun e => decide (e.2 = m) && !j.got.any (fun g => decide (g.1 = e.1)))).map (·.1)
      (mine.foldl (fun (s : State) q => s.reassign j.handle q m) s).thenNext j.handle) s

/-- R237: supplying modules that no bundle in service reaches any more are replaced, in preference order. -/
def State.bundlesDown (s : State) : State :=
  s.wts.jobs.foldl (fun (s : State) j =>
    if j.phase ≠ 3 then s
    else j.hints.foldl (fun (s : State) m => if (s.routePorts m).isEmpty then s.supplierGone m else s) s) s
/-- R229: the engines of the I/O dies whose ports bring a module's pages. -/
def State.linkEngines (s : State) (m : Nat) : List Nat :=
  let l := ((s.routePorts m).map (· / 16)).eraseDups
  if l.isEmpty then [0, 1] else l

/-- PAGE_DATA (R237, R374): an image page arrives; one that fails its CHECK is reassigned. -/
def execPageData (src h q check : Nat) (data : List Byte) (s : State) : Res :=
  .next (if s.closed src 4 then s else
    let s0 := s.takeInbox src 4
    match s0.inst h with
    | none => s0
    | some j =>
      if j.phase ≠ 3 ∨ !(j.sources.contains (q, src)) ∨ j.got.any (fun g => decide (g.1 = q)) then s0
      else if data.length % 64 = 0 ∧ 0 < data.length ∧ data.length ≤ pageBytes ∧ (crc32c data).toNat = check then
        (((s0.bump F.FETCH_NEIGHBOUR_VALUE).feedPage h q (data.length / 64) check data (s0.linkEngines src)).askPages h src).thenNext h
      else (s0.reassign h q src).thenNext h)

/-- PAGE_REFUSE (R237). -/
def execPageRefuse (src h q : Nat) (s : State) : Res :=
  .next (if s.closed src 5 then s else
    let s0 := s.takeInbox src 5
    match s0.inst h with
    | none => s0
    | some j =>
      if j.phase = 3 ∧ j.sources.contains (q, src) ∧ !(j.got.any (fun g => decide (g.1 = q))) then (s0.reassign h q src).thenNext h
      else s0)

/-- CONFIRM_REQ (R326). -/
def execConfirmReq (src ref : Nat) (digest : List Byte) (s : State) : Res :=
  .next (if s.closed src 6 then s else
    let s0 := s.takeInbox src 6
    let v := match s0.wts.pkgs.find? (fun (e : Nat × Pkg) => decide (e.2.digest = digest)) with
      | some (h, p) => (pkgCode p.st, (List.range p.imagePages).all (fun q => (s0.supply digest q).isSome) && decide (p.st ≠ PkgSt.absent) &&
          ((s0.inst h).isNone || match s0.inst h with
            | some j => decide (j.got.length = p.imagePages)
            | none => true))
      | none => (0, false)
    s0.sendMsg src 7 ref [] (digest ++ toBytes v.1 1 ++ toBytes (b2n v.2) 1))

/-- CONFIRM (R239, R335): a named peer holds the package, or is INSTALLING it with every image page verified. For an expert
shard, `tray` is the peer's tray, which must differ from this module's and from those already counted. -/
def execConfirm (src h tray : Nat) (digest : List Byte) (st : Nat) (allPages : Bool) (s : State) : Res :=
  .next (if s.closed src 7 then s else
    let s0 := s.takeInbox src 7
    match s0.inst h, s0.pkg h with
    | some j, some p =>
      let newTray := p.kind ≠ 1 ∨ (tray ≠ s0.rd F.FAIL_DOMAIN_TRAY ∧ ¬ j.confirmed.any (fun c => decide (c.2 = tray)))
      if j.phase = 4 ∧ p.digest = digest ∧ (j.peers.take j.copies).contains src ∧ ¬ j.confirmed.any (fun c => decide (c.1 = src)) ∧
        (2 ≤ st ∧ st ≤ 4 ∨ (st = 1 ∧ allPages)) ∧ newTray then
        s0.setInst { j with confirmed := j.confirmed ++ [(src, tray)] }
      else s0
    | _, _ => s0)

end Sys2Proof.Machine
end

