-- ==== Sys2Proof/Machine/Locate.lean ====
section
/-!
DEFINITION. Where an address of the management register space leads (R28, R29): the block or window, and the register word in it.
-/
namespace Sys2Proof.Machine

/-- R29: the window of an address and the offset in it; none where no window stands. Spare and retired sites have none. -/
def State.windowAt (s : State) (a : Nat) : Option (Win × Nat) :=
  if a % 4 ≠ 0 ∨ 0x10000000 ≤ a then none
  else if a < 0x1000000 then some (.glob, a)
  else
    let n := a / 0x1000000 - 1
    let o := a % 0x1000000
    if 4 ≤ n then none
    else if o < 0x800000 then some (.die n, o)
    else
      let t := (o - 0x800000) / 0x2000
      let y := t / 32
      let x := t % 32
      if y < 24 ∧ x < s.cols then some (.tile n y x, (o - 0x800000) % 0x2000) else none

/-- Whether a register of a space stands in a window. -/
def inSpace (sp : Space) (w : Win) : Bool :=
  match sp, w with
  | .glob, .glob => true
  | .die, .die _ => true
  | .ct, .tile _ y x => isCompute y x
  | .mt, .tile _ y x => !isCompute y x
  | .tile, .tile _ _ _ => true
  | _, _ => false

/-- The instance and word of a register at an offset. -/
def RegDef.at (d : RegDef) (off : Nat) : Option (Nat × Nat) :=
  if off < d.base then none
  else
    let o := off - d.base
    let i := if d.stride = 0 then 0 else o / d.stride
    let k := (o - i * d.stride) / 4
    if i < d.count ∧ k < d.words then some (i, k) else none

/-- R28: the register word at an address; none where the space is unmapped or reserved. -/
def State.locate (s : State) (a : Nat) : Option (Reg × Nat × Win × Nat) :=
  match s.windowAt a with
  | none => none
  | some (w, off) => Reg.all.findSome? (fun r =>
      if inSpace r.info.space w then
        (match RegDef.at r.info off with
         | some (i, k) => if r.indexUsed i then some (r, i, w, k) else none
         | none => none)
      else none)

/-- Set the word at an address, past every check. -/
def State.poke (s : State) (a v : Nat) : State :=
  match s.locate a with
  | some (r, i, w, k) => s.setWord r i w k (BitVec.ofNat 32 v)
  | none => s

end Sys2Proof.Machine
end

