-- ==== Sys2Proof/Machine/Peers.lean ====
section
/-!
DEFINITION. The journal between partners (R338 to R346), pairing and fencing (R346 to R349), takeover (R350 to R358), spares and
shard holders (R336, R364), and what follows when a module is unreachable or has no route (R322, R323).
-/
namespace Sys2Proof.Machine

/-! ## Settings of R337 -/

/-- R333: the tray-mate is the PEER of the tweed group. -/
def State.trayMate (s : State) : Option Nat :=
  ((List.range 4).find? (fun g => decide (s.rd F.GROUP_CFG_CLASS g = 1))).map (fun g => s.rd F.GROUP_CFG_PEER g)
/-- R337: what the module can check of a partner's identifier. -/
def State.partnerOk (s : State) (m : Nat) : Bool := decide (m ≠ s.ownId) && decide (s.trayMate ≠ some m)
/-- The partner that JOURNAL_PARTNER names, under settings that meet R337. -/
def State.namedPartner (s : State) : Option Nat :=
  let m := s.rd F.JOURNAL_PARTNER_MODULE
  if s.flag F.JOURNAL_PARTNER_VALID && s.flag F.MODULE_NUM_ID_VALID && s.partnerOk m &&
    (List.range 8).all (fun i => !(s.flag F.TAKEOVER_SET_VALID i) || decide (s.rd F.TAKEOVER_SET_MODULE i ≠ s.ownId)) then some m
  else none
/-- JOURNAL_ALT in list order. -/
def State.alternates (s : State) : List Nat :=
  (List.range 4).filterMap (fun i => if s.flag F.JOURNAL_ALT_VALID i then some (s.rd F.JOURNAL_ALT_MODULE i) else none)
/-- R338, R343: the frames of a mirror region. -/
def mirrorRegion : Nat := 8192
/-! ## Requests taken over (R351, R353) -/

def tkKey (o slot : Nat) : Nat := o * 65536 + slot
def State.tk (s : State) (o slot : Nat) : Option TkReq := SMap.find? s.jr.table (tkKey o slot)
def State.setTk (s : State) (t : TkReq) : State :=
  { s with jr := { s.jr with table := SMap.insert s.jr.table (tkKey t.origin t.slot) t } }

/-- R353: the standby session of a request taken over; a request that this module itself moved keeps its session (R268). -/
def State.standby (s : State) (t : TkReq) : Option Nat :=
  let ring := fun i => (SMap.find? s.host.rings (ringKey i (rqRing t.desc.toNat))).isSome
  if t.origin = s.ownId then (if (s.session t.session).isSome && ring t.session then some t.session else none)
  else match SMap.find? s.jr.subjects (256 * t.origin + t.session) with
    | none => none
    | some k => (List.range 256).find? (fun i => match s.session i with
      | some v => decide (v.st = .active) && decide (v.subject = k) && ring i
      | none => false)

/-- R353: place the committed tokens of a request on the ring of the standby session, or hold them. -/
def State.tkPlace (s : State) (o slot : Nat) : State :=
  match s.tk o slot with
  | none => s
  | some t =>
    if t.tokens.length ≤ t.placed then s
    else match s.standby t with
      | none => s.setTk { t with since := some (t.since.getD s.now) }
      | some i =>
        let s1 := (List.range (t.tokens.length - t.placed)).foldl (fun (s : State) k =>
          let n := t.placed + k
          s.ringPut (ringKey i (rqRing t.desc.toNat))
            { slot := t.slot, last := decide (n + 1 = t.lastIndex), token := t.tokens.getD n 0, index := n + 1, subSeq := t.sub,
              time := t.lastAt / 1000, origin := some t.origin }) s
        s1.setTk { t with placed := t.tokens.length, since := none }
/-- Every request taken over. -/
def State.tkPlaceAll (s : State) : State :=
  s.jr.table.foldl (fun (s : State) (e : Nat × TkReq) => s.tkPlace e.2.origin e.2.slot) s
/-- R353, R298: tokens held for HOLD_S without a session are dropped. -/
def State.tkDropHeld (s : State) : State :=
  s.jr.table.foldl (fun (s : State) (e : Nat × TkReq) =>
    match e.2.since with
    | some t => if t + 1000000000 * s.rd F.SESSION_CFG_HOLD_S ≤ s.now then
        s.setTk { e.2 with placed := e.2.tokens.length, delivered := e.2.tokens.length, since := none } else s
    | none => s) s

/-- R353: the home has committed a token: the member hears of it and the token goes to the ring. -/
def State.tkCommit (s : State) (o slot index tok : Nat) : State :=
  match s.tk o slot with
  | none => s
  | some t =>
    if index ≠ t.tokens.length + 1 then s
    else
      let s1 := s.setTk { t with tokens := t.tokens ++ [tok], lastAt := s.now }
      let s2 := match t.member with
        | some m => s1.sendMsg m 0x2A 0 (toBytes slot 2 ++ toBytes index 4 ++ toBytes o 2) []
        | none => s1
      s2.tkPlace o slot

/-- R353: the final record as the home gives it: the origin's slot and session form, and CONTINUED_BY. -/
def homeRecord (rec' : List Byte) (slot session by' : Nat) : List Byte :=
  toBytes slot 2 ++ (rec'.drop 2).take 2 ++ toBytes session 2 ++ (rec'.drop 6).take 40 ++ toBytes by' 2 ++ rec'.drop 48
/-- R301: a final record made by the home itself. -/
def State.tkRecord (s : State) (t : TkReq) (code : Nat) : List Byte :=
  toBytes t.slot 2 ++ toBytes code 1 ++ toBytes 0 1 ++ toBytes t.session 2 ++ toBytes t.tenant 2 ++ toBytes t.sub 8 ++
  toBytes t.tokens.length 4 ++ toBytes 0 4 ++ toBytes 0xFFFFFFFF 4 ++ toBytes 0 18 ++ toBytes s.ownId 2 ++ toBytes 0 16
/-- R265, R353: a request taken over has its final status: journaled, and its cancels are answered. -/
def State.tkFinal (s : State) (t : TkReq) (rec' : List Byte) : State :=
  let code := ofBytes ((rec'.drop 2).take 1)
  let s1 := (s.setTk { t with final := some rec', cancels := [], member := none }).newRecordFor (some t.origin) t.slot (.final rec')
  t.cancels.foldl (fun (s : State) c =>
    if code = 2 then s.answerSeq c.1 c.2 stOk 0 [] else s.answerSeq c.1 c.2 stAlready code []) s1

/-- R351: assign a request to a member of its origin's takeover set; `able` names, by origin slot, the modules that have its
model and adapter LOADED (notes/assumptions/27). Without a member it ends ABORTED. -/
def State.tkAssign (s : State) (able : List (Nat × Nat)) (o slot : Nat) : State :=
  match s.tk o slot with
  | none => s
  | some t =>
    if t.final.isSome then s
    else
      let set := if o = s.ownId then
          (List.range 8).filterMap (fun i => if s.flag F.TAKEOVER_SET_VALID i then some (s.rd F.TAKEOVER_SET_MODULE i) else none)
        else SMap.getD s.jr.sets o []
      let ok := set.filter (fun m => able.contains (slot, m) && s.inService m && decide (m ≠ o ∨ o = s.ownId))
      let load := fun m => SMap.getD s.jr.assigned m 0
      let best := ok.foldl (fun (g : Option Nat) m => match g with
        | none => some m
        | some b => if load m < load b then some m else g) none
      match best with
      | none => s.tkFinal t (s.tkRecord t 11)
      | some m =>
        let n := t.prefixPos + rqPrompt t.desc.toNat + t.tokens.length
        let s1 := s.setTk { t with member := some m }
        let s2 := { s1 with jr := { s1.jr with assigned := SMap.setD s1.jr.assigned m (load m + n) 0 } }
        let s3 := s2.sendMsg m 0x27 0 (toBytes o 2 ++ toBytes slot 2 ++
          toBytes (s.rd F.CLASS_CFG_PRIORITY (rqClass t.desc.toNat)) 1) []
        s3.sendMsg m 0x28 0 [] (toBytes t.desc.toNat 64 ++ toBytes t.input.length 4 ++ t.input ++ toBytes t.prefixPos 4 ++
          toBytes t.tokens.length 4 ++ t.tokens.flatMap (fun t => toBytes t 4) ++ toBytes t.accepted 8)
/-- R351, and the race of a member that fails: its requests are assigned again from the same committed sequences. -/
def State.tkReassign (s : State) (able : List (Nat × Nat)) (m : Nat) : State :=
  s.jr.table.foldl (fun (s : State) (e : Nat × TkReq) =>
    if e.2.member = some m ∧ e.2.final.isNone then s.tkAssign able e.2.origin e.2.slot else s) s

/-! ## Takeover (R350 to R355) -/

/-- R352: the ACCEPT record of a JSN. -/
def acceptAt (rs : List (JRec × Nat)) (origin : Option Nat) (j : Nat) : Option JRec :=
  (rs.find? (fun e => decide (e.1.jsn = j) && decide (e.1.origin = origin) && match e.1.pay with
    | .accept .. => true
    | _ => false)).map (·.1)
/-- R352: positions of a prefix chain, from its PREFIX and ACCEPT records. A chain has at most 8 handles. -/
def chainPositions (rs : List (JRec × Nat)) (origin : Option Nat) (tenant h : Nat) : Nat → Nat
  | 0 => 0
  | n + 1 =>
    if h = 0 then 0
    else match rs.findSome? (fun e => match e.1.pay with
        | .pfx g t parent _ j _ => if g = h ∧ t = tenant ∧ e.1.origin = origin then some (parent, j) else none
        | _ => none) with
      | none => 0
      | some (parent, j) =>
        (match acceptAt rs origin j with
         | some r => (match r.pay with
           | .accept _ _ _ d _ => rqPrompt d.toNat
           | _ => 0)
         | none => 0) + chainPositions rs origin tenant parent n

/-- R350, R351: what the records of a frozen journal say of one request: the later records of its slot. -/
def tkOf (rs : List (JRec × Nat)) (o : Nat) (a : JRec) (at' : Nat) : Option TkReq :=
  match a.pay with
  | .accept session sub tenant desc input =>
    let after := rs.filter (fun e => decide (a.jsn < e.1.jsn) && decide (e.1.origin = a.origin))
    let mine := after.filter (fun e => decide (e.1.slot = a.slot))
    if mine.any (fun e => match e.1.pay with
        | .accept .. => true
        | _ => false) then none
    else
      let toks := mine.flatMap (fun e => match e.1.pay with
        | .commit ts => ts.map (·.2)
        | _ => [])
      let fin := mine.findSome? (fun e => match e.1.pay with
        | .final r => some r
        | _ => none)
      let lastAt := mine.foldl (fun t e => match e.1.pay with
        | .commit _ => max t e.2
        | _ => t) at'
      let done := after.foldl (fun n e => match e.1.pay with
        | .delivered ms => ms.foldl (fun n m => if m.1 = a.slot then max n m.2 else n) n
        | _ => n) 0
      some { origin := a.origin.getD o, slot := a.slot, session := session % 256, sub := sub, tenant := tenant, desc := desc,
             input := input, prefixPos := chainPositions rs a.origin tenant (rqPrefix desc.toNat) 8, tokens := toks,
             cancelled := mine.any (fun e => match e.1.pay with
               | .cancel .. => true
               | _ => false),
             accepted := at', admitted := !toks.isEmpty, member := none, delivered := min done toks.length,
             placed := min done toks.length, lastIndex := 0, final := fin, acked := fin.isSome, cancels := [], lastAt := lastAt,
             since := none }
  | _ => none

/-- R351, R258: the deadline of a request taken over. -/
def State.tkDeadline (s : State) (t : TkReq) : Nat :=
  let c := rqClass t.desc.toNat
  if t.tokens.isEmpty then t.accepted + 1000000 * s.rd F.CLASS_CFG_TTFT_TARGET_MS c
  else t.lastAt + 1000000 * s.rd F.CLASS_CFG_TBT_TARGET_MS c

/-- R338: the value that CONFIG records give a register. -/
def configOf (rs : List (JRec × Nat)) (addr : Nat) : Nat :=
  rs.foldl (fun v e => match e.1.pay with
    | .configReg a w => if a = addr ∧ e.1.origin = none then w else v
    | _ => v) 0
/-- R351: the takeover set in a frozen journal. -/
def setOf (rs : List (JRec × Nat)) : List Nat :=
  (List.range 8).filterMap (fun i =>
    let v := configOf rs (Reg.addr .TAKEOVER_SET i .glob 0)
    if bitOf v 13 then some (v % 8192) else none)
/-- R355: commands other than SUBMIT answered ACCEPTED, without a STATUS record. -/
def openOf (rs : List (JRec × Nat)) (o : Nat) : List (Nat × Nat × Nat × Nat) :=
  rs.filterMap (fun e => match e.1.pay with
    | .reply _ _ session seq _ op status _ _ =>
      if e.1.origin = none ∧ status = 1 ∧ op ≠ 0x40 ∧ ¬ rs.any (fun f => match f.1.pay with
          | .status i q _ => decide (i = session % 256) && decide (q = seq)
          | _ => false) then some (o, session % 256, seq, op) else none
    | _ => none)

/-- R364: the first spare in service after a place in SPARE_LIST is called. -/
def State.callSpare (s : State) (list : List Nat) (failed tray : Nat) : State :=
  match list.find? s.inService with
  | some m => s.sendMsg m 0x2C 0 (toBytes failed 2 ++ toBytes tray 2) []
  | none => s
def State.spares (s : State) : List Nat :=
  (List.range 8).filterMap (fun i => if s.flag F.SPARE_LIST_VALID i then some (s.rd F.SPARE_LIST_MODULE i) else none)

/-- R353: the final record an ended request had at its origin, as the home gives it. -/
def homeView (own : Nat) (t : TkReq) : TkReq :=
  { t with final := t.final.map (fun r => homeRecord r t.slot t.session own) }
/-- R336: the holders of module `o`'s shards, itself first. -/
def State.shardHolders (s : State) (o : Nat) : List Nat :=
  o :: [s.rd F.HOLDER_ALT_H0 o, s.rd F.HOLDER_ALT_H1 o, s.rd F.HOLDER_ALT_H2 o].take (s.rd F.HOLDER_ALT_COUNT o)
/-- R363: the module that takes copies of the lost shards of `o`: on the tray with the most free bulk frames among those that hold
none of them; `tray` is the origin's. -/
def State.restoreTo (s : State) (fleet : Fleet) (o tray : Nat) : Option Nat :=
  let held := tray :: (fleet.trays.filter (fun e => (s.shardHolders o).contains e.1)).map (·.2.1)
  (fleet.trays.foldl (fun (g : Option (Nat × Nat)) e =>
    if held.contains e.2.1 || !s.inService e.1 then g
    else match g with
      | none => some (e.1, e.2.2)
      | some b => if b.2 < e.2.2 then some (e.1, e.2.2) else g) none).map (·.1)
/-- R363: the home's restoration. -/
def State.restore (s : State) (fleet : Fleet) (o tray : Nat) : State :=
  match s.restoreTo fleet o tray with
  | some n => s.emit (.shardsTo o n)
  | none => s

/-- R350: the home, resynchronised, takes the requests of the origin `o`. -/
def State.takeOver (s : State) (fleet : Fleet) (o : Nat) : State :=
  let rs := s.jr.frozen
  let found := rs.filterMap (fun e => tkOf rs o e.1 e.2)
  let ended := found.filter (fun t => t.final.isSome && decide (t.tokens.length ≤ t.delivered))
  let live := found.filter (fun t => !(t.final.isSome && decide (t.tokens.length ≤ t.delivered)))
  let fresh := live.filter (fun t => t.final.isNone)
  let until' := s.now + 1000000000 * s.rd F.SESSION_CFG_FINAL_KEEP_S
  let subs := rs.filterMap (fun e => match e.1.pay with
    | .session i (some v) _ => if e.1.origin = none then some (256 * o + i, v.subject) else none
    | _ => none)
  let s1 := { s with
    jr := { s.jr with
      frozen := [], taking := none, assigned := [], openCmds := s.jr.openCmds ++ openOf rs o
      rejoinBy := s.now + 1000000000 * s.rd F.JOURNAL_TIMING_REJOIN_S
      sets := SMap.insert s.jr.sets o (setOf rs)
      subjects := subs.foldl (fun (m : SMap (List Byte)) (e : Nat × List Byte) => SMap.insert m e.1 e.2) s.jr.subjects
      table := live.foldl (fun (m : SMap TkReq) (t : TkReq) => SMap.insert m (tkKey t.origin t.slot) (homeView s.ownId t)) s.jr.table }
    stew := { s.stew with kept := s.stew.kept ++ ended.map (fun (t : TkReq) =>
      (t.slot, t.session, t.sub, homeRecord (t.final.getD []) t.slot t.session s.ownId, some until')) } }
  let s2 := (((s1.wr F.TAKEOVER_STATUS_ORIGIN o).bump F.FAILOVER_CNT_COUNT 1 0).bump F.FAILOVER_CNT_COUNT fresh.length 1).bump
    F.FAILOVER_CNT_COUNT (live.foldl (fun (n : Nat) (t : TkReq) => n + (t.tokens.length - t.delivered)) 0) 5
  let s3 := s2.routed.foldl (fun (s : State) m => if m = o ∨ m = s.ownId then s else s.sendShard m o) s2
  let tray := bitsOf (configOf rs (Reg.addr .FAIL_DOMAIN 0 .glob 0)) 0 12
  let s4 : State := if s3.flag F.SERVICE_CFG_POLICY && s3.spares.any s3.inService then s3.callSpare s3.spares o tray
    else s3.restore fleet o tray
  let before : TkReq → TkReq → Bool := fun a b => decide (s4.tkDeadline a < s4.tkDeadline b) ||
    (decide (s4.tkDeadline a = s4.tkDeadline b) && decide (a.slot < b.slot))
  let order := sortBy before fresh
  order.foldl (fun (s : State) t => s.tkAssign fleet.able t.origin t.slot) s4.tkPlaceAll

/-! ## Acknowledgements (R340, R341, R344) -/

/-- R251: a slot is freed, with its journal records, but for an ACCEPT record whose input a prefix needs. -/
def State.freeSlot (s : State) (slot : Nat) : State :=
  let s1 := s.freeReq slot
  let mine := fun (r : JRec) => decide (r.slot = slot) && r.origin.isNone
  let keep := s1.jr.live.any (fun r => mine r && prefixNeeds s1.jr.live r)
  { s1 with jr := { s1.jr with
    live := if keep then s1.jr.live else s1.jr.live.filter (fun r => !mine r)
    written := SMap.erase s1.jr.written slot, progress := s1.jr.progress.filter (fun k => decide (k ≠ slot)) } }

/-! ## Closing a session (R280) -/

/-- The session's requests without an acknowledged final status. -/
def State.openRequests (s : State) (i gen : Nat) : List Nat :=
  (s.stew.reqs.filter (fun e => decide (e.2.session = i) && decide (e.2.gen = gen) && e.2.member.isNone && !e.2.finalAcked)).map (·.1)
/-- R300: FINAL_KEEP_S in nanoseconds. -/
def State.keepNs (s : State) : Nat := 1000000000 * s.rd F.SESSION_CFG_FINAL_KEEP_S
/-- R280: the session closes: ownership goes, what is held for it is discarded, and its final records stay readable for
FINAL_KEEP_S. Its keys stay until its last reply has left. -/
def State.endSession (s : State) (i : Nat) : State :=
  match s.session i with
  | none => s
  | some v =>
    let f := sessionField i v.gen
    let s1 := if s.flag F.OWNER_STATUS_OWNED && decide (s.rd F.OWNER_STATUS_SESSION = f) && decide (i ≠ mgmtIndex) then s.setOwner none else s
    let until' := some (s.now + s.keepNs)
    let mine := s1.stew.reqs.filter (fun e => decide (e.2.session = i) && decide (e.2.gen = v.gen) && e.2.member.isNone && e.2.finalAcked)
    let old := s1.stew.kept.map (fun k => if k.2.1 = f then (k.1, k.2.1, k.2.2.1, k.2.2.2.1, until') else k)
    let new' := mine.map (fun (e : Nat × Req) => (e.1, f, e.2.sub, finalRecord e.1 e.2 f 0xFFFF, until'))
    let s2 := { s1 with
      stew := { s1.stew with kept := old ++ new' }
      host := { s1.host with rings := SMap.keep s1.host.rings (fun k _ => decide (k / 64 ≠ i)) } }
    let s3 := mine.foldl (fun (s : State) e => s.freeSlot e.1) s2
    s3.setSession i { v with events := [], held := [], closing := 2 }
/-- The index becomes free, and the session's queue pairs are unbound. -/
def State.forgetSession (s : State) (i : Nat) : State :=
  let s1 := s.dropSession i
  let s2 := { s1 with host := { s1.host with
    qps := SMap.mapVals s1.host.qps (fun _ (q : Qp) => if q.bound = some i then { q with bound := none } else q) } }
  s2.journalSession i
/-- R344: a session that still has slots closes only while the journal is ACTIVE, since its close frees them. -/
def State.mayFree (s : State) (i gen : Nat) : Bool :=
  s.jActive || !s.stew.reqs.any (fun e => decide (e.2.session = i) && decide (e.2.gen = gen) && e.2.member.isNone)
/-- R280: sessions that close and whose last request has its final status: their CLOSE commands are answered. -/
def State.closeReady (s : State) : State :=
  s.host.sessions.foldl (fun (s : State) e =>
    if e.2.closing = 1 ∧ (s.openRequests e.1 e.2.gen).isEmpty ∧ s.mayFree e.1 e.2.gen then
      let s1 := s.endSession e.1
      let cs := e.2.journal.filter (fun r => decide (r.op = 4) && r.reply.isNone && !(s.jr.queue.any (fun q => match q.pay with
        | .reply _ key _ seq _ _ _ _ _ => decide (key = e.1 + 1) && decide (seq = r.seq)
        | _ => false)))
      if cs.isEmpty then s1.forgetSession e.1
      else
        let s2 := cs.foldl (fun (s : State) r => s.answerSeq e.1 r.seq 0 0 []) s1
        if e.1 = mgmtIndex then s2.forgetSession e.1 else s2
    else s) s
/-- The reply to the last CLOSE has left. -/
def State.closeSent (s : State) (i : Nat) : State :=
  match s.session i with
  | some v => if v.closing = 2 ∧ v.journal.all (fun r => decide (r.op ≠ 4) || r.reply.isSome) then s.forgetSession i else s
  | none => s

/-- R294: a memory window changes when the reply that names its RKEY leaves. -/
def State.windowNow (s : State) (rkey : Nat) : State :=
  match (s.jr.live ++ s.jr.queue).findSome? (fun r => match r.pay with
    | .configProt 1 w v => if bitsOf v 32 32 = rkey then some (w, v) else none
    | _ => none) with
  | some (w, v) => s.setSpan .MEM_WINDOW w .glob 0 v 8
  | none => s

/-- What the acknowledgement of a record lets the module do: answer, commit, send. -/
def State.settleOne (s : State) (r : JRec) : State :=
  match r.origin with
  | some o =>
    (match r.pay with
     | .commit ts => ts.foldl (fun (s : State) e => s.tkCommit o r.slot e.1 e.2) s
     | .final _ => (match s.tk o r.slot with
       | some t => s.setTk { t with acked := true }
       | none => s)
     | _ => s)
  | none =>
    match r.pay with
    | .accept session sub _ _ _ => s.answerSeq (session % 256) sub stAccepted r.slot []
    | .commit ts => ts.foldl (fun (s : State) e => s.commitToken r.slot e.1 e.2) s
    | .final rec' =>
      if ofBytes ((rec'.drop 2).take 1) = 12 then s.freeSlot r.slot
      else (match s.req r.slot with
        | some q => s.setReq r.slot { q with finalAcked := true }
        | none => s)
    | .reply q key session seq _ op status detail body =>
      let s1 := s.releaseReply q key session seq op status detail body
      if op = 4 then s1.closeSent (session % 256)
      else if op = 0x21 ∧ status = 0 then s1.windowNow detail
      else if op = 0x40 ∧ status = 1 then
        (match s1.req detail with
         | some v => if v.sub = seq ∧ v.session = session % 256 then
             (s1.setReq detail { v with accepted := some s1.now }).acceptBoundary (rqPkg (rqD v)) else s1
         | none => s1)
      else s1
    | .status i _ body => s.sendEvent i 0x8002 1 body
    | .configReg a v => if a = ownerAddr then s.tellOwner v else s
    | _ => s

/-- R344: while ACTIVE, every acknowledged record takes effect in JSN order and becomes one of the live records. -/
def State.settle (s : State) : State :=
  if s.jActive then
    let n := s.rd F.JOURNAL_ACKED_VALUE
    let done := s.jr.queue.filter (fun r => decide (r.jsn ≤ n))
    let s1 := { s with jr := { s.jr with queue := s.jr.queue.filter (fun r => decide (n < r.jsn)) } }
    (done.foldl (fun (s : State) r =>
      let s2 := { s with jr := { s.jr with live := s.jr.live.filter (keptAfter r s.jr.live) ++ [r] } }
      if r.jsn ≤ s2.jr.resyncTo ∨ s2.jr.settled.contains r.jsn then s2 else s2.settleOne r) s1).closeReady
  else s

/-- R347, R348: the module becomes ACTIVE, and as home begins the takeover. -/
def State.becomeActive (s : State) (fleet : Fleet) : State :=
  let s1 := s.setJState 3
  let s2 := { s1 with jr := { s1.jr with activeAt := none, prior := none } }
  let s3 := match s2.jr.taking with
    | some o => s2.takeOver fleet o
    | none => s2
  s3.settle

/-- R343: the records sent that a JRNL_ACK neither covers nor leaves room for were refused: the module holds until there is
room, then sends them again. -/
def State.refusal (s : State) : State :=
  let n := s.rd F.JOURNAL_ACKED_VALUE
  if s.jr.refused then
    let again := s.jr.queue.filter (fun r => r.sent.isNone && decide (r.jsn ≤ s.jr.refusedTo))
    match s.jr.partner with
    | some p =>
      if recsSize again ≤ s.jr.free then
        let s1 := { s with jr := { s.jr with refused := false } }
        (if s1.jState = 4 then s1.setJState 3 else s1).sendRecords p 0x20 again
      else s
    | none => s
  else
    let out := s.jr.queue.filter (fun r => r.sent.isSome && decide (n < r.jsn))
    if out.isEmpty ∨ recsSize out ≤ s.jr.free then s
    else
      let s1 := { s with jr := { s.jr with
        refused := true, refusedTo := out.foldl (fun (m : Nat) (r : JRec) => max m r.jsn) 0
        queue := s.jr.queue.map (fun (r : JRec) => if n < r.jsn then { r with sent := none } else r) } }
      (if s1.jState = 3 then s1.setJState 4 else s1).journalError 0

/-- R340: the old partner acknowledges while a new pair resynchronises: those records take effect now. -/
def State.priorAck (s : State) (map : List (Nat × Nat)) (jsn : Nat) : State :=
  let now' := (map.filter (fun e => decide (e.1 ≤ jsn))).map (·.2)
  let rs := s.jr.queue.filter (fun r => now'.contains r.jsn && decide (s.jr.resyncTo < r.jsn) && !s.jr.settled.contains r.jsn)
  rs.foldl (fun (s : State) r =>
    ({ s with jr := { s.jr with settled := s.jr.settled ++ [r.jsn] } }).settleOne r) s

/-- R342: the round trips of the records an acknowledgement newly covers. -/
def State.noteRounds (s : State) (old n : Nat) : State :=
  s.jr.queue.foldl (fun (s : State) r =>
    if old < r.jsn ∧ r.jsn ≤ n then (match r.sent with
      | some t => s.noteRound t
      | none => s)
    else s) s

/-- JRNL_ACK (R340 to R344, R347, R348): the partner holds every record up to `jsn` and has `free` bytes of its mirror region.
Acknowledged records take effect; the module may become ACTIVE, and its takeover as home begin. -/
def execJrnlAck (src jsn free : Nat) (fleet : Fleet) (s : State) : Res :=
  .next (if s.closed src 0x21 then s else
    let s0 := s.takeInbox src 0x21
    if s0.isPartner src then
      let s1 := s0.hear
      let old := s1.rd F.JOURNAL_ACKED_VALUE
      let n := max old (min jsn (s1.rd F.JOURNAL_JSN_VALUE))
      let s2 := (s1.wr F.JOURNAL_ACKED_VALUE n).noteRounds old n
      let s3 := { s2 with jr := { s2.jr with free := free } }
      let s4 := match s3.jr.activeAt with
        | some a => if a ≤ n then s3.becomeActive fleet else s3
        | none => s3
      ((s4.settle).refusal).settle
    else match s0.jr.prior with
      | some (p, map) => if p = src then s0.priorAck map jsn else s0
      | none => s0)

/-- JRNL_RECORDS (R338, R343, R346): records of the partner are held and acknowledged, but for a batch that would overflow the
mirror region. Records of a module whose home this module is are answered with FENCE_OUT; any others are discarded. -/
def execJrnlRecords (src : Nat) (recs : List JRec) (s : State) : Res :=
  .next (if s.closed src 0x20 then s else
    let s0 := s.takeInbox src 0x20
    if s0.isPartner src then
      let s1 := s0.hear
      if mirrorBytes < s1.mirrorUsed + recsSize recs then ({ s1 with jr := { s1.jr with refusing := true } }).sendAck src
      else
        let s2 := recs.foldl (fun (s : State) r => s.holdRecord r) { s1 with jr := { s1.jr with refusing := false } }
        s2.sendAck src
    else if s0.jr.origins.contains src then s0.sendMsg src 0x25 0 (toBytes s0.ownId 2) []
    else s0)

/-! ## Pairing (R347, R348) -/

/-- R347: old and new JSNs of records that take the JSNs of a new pair from `n` + 1, in their order. -/
def jsnMap (n : Nat) (rs : List JRec) : List (Nat × Nat) :=
  (rs.zip (List.range rs.length)).map (fun e => (e.1.jsn, n + e.2 + 1))
/-- A record under its new number; a PREFIX record follows its ACCEPT record. -/
def renumber (map : List (Nat × Nat)) (r : JRec) : JRec :=
  let new' := fun (j : Nat) => ((map.find? (fun e => decide (e.1 = j))).map (·.2)).getD j
  { r with
    jsn := new' r.jsn, sent := none
    pay := match r.pay with
      | .pfx h t p c j rel => .pfx h t p c (new' j) rel
      | v => v }

/-- R338, R347, R348: a pair with module `p` begins. The first records are, at a first pairing, the settings of the
configuration record, then the live records and, as home, the frozen journal; those not yet acknowledged follow. An ACTIVE
module that changes its partner does not hold meanwhile. -/
def State.pairWith (s : State) (p size : Nat) (fleet : Fleet) : State :=
  let hold := decide (s.jState ≠ 3)
  let home := if hold then s.jr.failed else none
  let frozen : List JRec := match home with
    | some o => s.jr.mirror.map (fun e => { e.1 with origin := some (e.1.origin.getD o) })
    | none => []
  let first := if s.jState ≤ 1 then
      (s.boot.configured.zip (List.range s.boot.configured.length)).map (fun c =>
        ({ jsn := c.2 + 1, slot := 0xFFFF, pay := .configReg c.1.1 c.1.2, sent := none, origin := none } : JRec)) else []
  let n1 := first.length + s.jr.live.length
  let n := n1 + frozen.length
  let late := jsnMap n s.jr.queue
  let mine := jsnMap first.length s.jr.live ++ late
  let all := first ++ s.jr.live.map (renumber mine) ++ frozen.map (renumber (jsnMap n1 frozen)) ++ s.jr.queue.map (renumber mine)
  let s1 := (((s.wr F.JOURNAL_JSN_VALUE all.length).wr F.JOURNAL_ACKED_VALUE 0).wr F.JOURNAL_STATUS_PARTNER_ACT p).setJState
    (if hold then 2 else 3)
  let s2 := { s1 with jr := { s1.jr with
    queue := all, live := [], resyncTo := n, settled := [], free := size, refused := false, partner := some p
    prior := if hold then none else s.jr.partner.map (fun q => (q, late))
    heardAt := s.now, sentAt := s.now, batchAt := s.now, mirror := [], mirrorJsn := 0, refusing := false, holdAt := s.now
    failed := none, asking := none, reqSent := false, reqSeen := false, activeAt := some n
    frozen := if home.isSome then s.jr.mirror else s.jr.frozen
    taking := home
    origins := match home with
      | some o => if s.jr.origins.contains o then s.jr.origins else s.jr.origins ++ [o]
      | none => s.jr.origins.filter (fun m => decide (m ≠ p)) } }
  let now' := fun (j : Nat) => ((mine.find? (fun e => decide (e.1 = j))).map (·.2)).getD j
  let s3 := { s2 with stew := { s2.stew with
    reqs := SMap.mapVals s2.stew.reqs (fun _ (r : Req) => { r with acceptJsn := now' r.acceptJsn })
    prefixes := SMap.mapVals s2.stew.prefixes (fun _ (v : Pfx) => { v with acceptJsn := now' v.acceptJsn }) } }
  if n = 0 then s3.becomeActive fleet
  else s3.sendRecords p (if s.jState ≤ 1 then 0x20 else 0x26) (all.take n)

/-- R346, R347: send PAIR_REQ to a place in JOURNAL_ALT; beyond the list the module waits. -/
def State.askAlternate (s : State) (k : Nat) : State :=
  match s.alternates[k]? with
  | some a =>
    let s1 := s.sendMsg a 0x23 0 (toBytes s.jr.oldPartner 2 ++ toBytes (s.rd F.JOURNAL_JSN_VALUE) 8) []
    { s1 with jr := { s1.jr with asking := some k, askedAt := s1.now } }
  | none => { s with jr := { s.jr with asking := none, askedAt := s.now } }
/-- R348: send PAIR_REQ for a first pairing to the partner named, with JSN 0. -/
def State.askFirst (s : State) (p : Nat) : State :=
  let s1 := s.sendMsg p 0x23 0 (toBytes p 2 ++ toBytes 0 8) []
  { s1 with jr := { s1.jr with reqSent := true, askedAt := s1.now } }
/-- R348: begin a first pairing, on entering Ready with JOURNAL_STATUS NONE and settings that meet R337. A module whose pool
cannot supply the mirror frames stays PAIRING. -/
def State.startPairing (s : State) : State :=
  if s.jState = 0 ∧ (s.modState = 2 ∨ s.modState = 3) then
    match s.namedPartner with
    | some p =>
      let s1 := s.setJState 1
      if s1.poolFree < mirrorRegion then s1.journalError 0 else s1.askFirst p
    | none => s
  else s

/-- R348: both modules have asked: the one with the lower identifier grants. -/
def State.grantFirst (s : State) (p : Nat) : State :=
  if s.jr.reqSent ∧ s.jr.reqSeen ∧ s.ownId < p ∧ mirrorRegion ≤ s.poolFree then
    (s.sendMsg p 0x24 0 (toBytes p 2 ++ toBytes mirrorBytes 8) []).pairWith p mirrorBytes ⟨[], []⟩
  else s

/-- R358: the records that a home gives back: SESSION, REPLY and CONFIG, from the records it took over. -/
def State.giveBack (s : State) (o : Nat) : List JRec :=
  (s.jr.live ++ s.jr.queue).filter (fun r => decide (r.origin = some o) && match r.pay with
    | .session .. => true
    | .reply .. => true
    | .configReg .. => true
    | .configProt .. => true
    | _ => false)

/-- PAIR_REQ (R347, R348, R355, R358): `old` is the old partner named, `jsn` the sender's last JSN. An alternate grants the
first request for an old pair and fences the other member; it grants a module without requests while it has no partner. A first
pairing is granted by the lower identifier; the home of the sender's requests answers FENCE_OUT and gives back its records and
open commands. A refusal is silent. -/
def execPairReq (src old jsn : Nat) (s : State) : Res :=
  .next (if s.closed src 0x23 then s else
    let s0 := s.takeInbox src 0x23
    let roomy := decide (mirrorRegion ≤ s0.poolFree)
    let grant := fun (s : State) => (s.sendMsg src 0x24 0 (toBytes src 2 ++ toBytes mirrorBytes 8) []).pairWith src mirrorBytes ⟨[], []⟩
    if old = s0.ownId then
      if s0.jr.origins.contains src ∧ s0.jr.partner.isSome then
        let s1 := (s0.sendMsg src 0x25 0 (toBytes s0.ownId 2) []).sendMsg src 0x26 0 [] ((s0.giveBack src).flatMap jrecBytes)
        { s1 with jr := { s1.jr with openCmds := s1.jr.openCmds.filter (fun c => decide (c.1 ≠ src)) } }
      else if s0.namedPartner = some src ∧ jsn = 0 ∧ roomy ∧ ¬ s0.isPartner src ∧ s0.jState ≠ 2 ∧ s0.jState ≠ 4 then
        let s1 := { s0 with jr := { s0.jr with reqSeen := true } }
        let s2 := if s1.jState = 0 then s1.setJState 1 else s1
        (if s2.jr.reqSent then s2 else s2.askFirst src).grantFirst src
      else s0
    else if s0.jr.partner.isSome ∨ ¬ roomy then s0
    else if old = src then grant s0
    else if s0.jr.grants.any (fun g => decide (g = (src, old) ∨ g = (old, src))) then s0
    else
      let s1 := { s0 with jr := { s0.jr with grants := s0.jr.grants ++ [(src, old)] } }
      (grant s1).sendMsg old 0x25 0 (toBytes src 2) [])

/-- PAIR_GRANT (R347, R348, R350): the module asked grants; `granted` is the module named and `size` its mirror region. The new
pair begins, and a module that named a failed partner is the home of its requests. -/
def execPairGrant (src granted size : Nat) (fleet : Fleet) (s : State) : Res :=
  .next (if s.closed src 0x24 then s else
    let s0 := s.takeInbox src 0x24
    let asked := (s0.jr.partner.isNone ∧ s0.jr.asking.isSome ∧ s0.alternates.contains src) ∨
      (s0.jr.reqSent ∧ s0.namedPartner = some src ∧ ¬ s0.isPartner src)
    if granted = s0.ownId ∧ asked then s0.pairWith src size fleet else s0)

/-- PAIR_RETRY (R347, R348): a request for a first pairing is repeated each TIMEOUT; an alternate that does not answer within
TIMEOUT is passed over; each second without a grant the alternates are asked again. -/
def execPairRetry (s : State) : Res :=
  .next (
    if s.jState = 1 ∨ (s.jState = 3 ∧ s.jr.reqSent) then
      match s.namedPartner with
      | some p => if s.jr.askedAt + s.timeoutNs ≤ s.now ∧ mirrorRegion ≤ s.poolFree then s.askFirst p else s
      | none => s
    else if (s.jState = 4 ∨ s.jState = 5) ∧ s.jr.partner.isNone then
      match s.jr.asking with
      | some k => if s.jr.askedAt + s.timeoutNs ≤ s.now then s.askAlternate (k + 1) else s
      | none => if s.jr.askedAt + 1000000000 ≤ s.now then s.askAlternate 0 else s
    else s)

/-- JOURNAL_HOLD_RECORD (R343, R347, R348): each second of holding, or of a first pairing for want of frames, is recorded. -/
def execJournalHoldRecord (s : State) : Res :=
  .next (if (s.jState = 4 ∨ s.jr.refused ∨ (s.jState = 1 ∧ s.poolFree < mirrorRegion)) ∧ s.jr.holdAt + 1000000000 ≤ s.now then
      s.journalError 0
    else s)

/-! ## Losing a partner (R346, R349) -/

/-- R346, R336: the partner is declared failed: its journal is accepted no longer, and the alternates are asked. -/
def State.declareFailed (s : State) (p : Nat) (able : List (Nat × Nat)) : State :=
  let s1 := ((s.bump F.FAILOVER_CNT_COUNT 1 3).wr F.HOLDER_ALT_OUT 1 p).setJState 4
  let s2 := (s1.wr F.JOURNAL_STATUS_PARTNER_ACT 0).journalError 0
  let s3 := { s2 with jr := { s2.jr with
    partner := none, failed := some p, oldPartner := p, activeAt := none, refused := false, prior := none } }
  ((s3.abortLists p).tkReassign able p).askAlternate 0

/-- PARTNER_TIMEOUT (R346): TIMEOUT without a journal message from the partner. -/
def execPartnerTimeout (able : List (Nat × Nat)) (s : State) : Res :=
  .next (match s.jr.partner with
    | some p => if s.jr.heardAt + s.timeoutNs ≤ s.now then s.declareFailed p able else s
    | none => s)

/-- FAULT_NOTICE (R346): the partner has entered Parked after a module fault. -/
def execFaultNotice (src : Nat) (able : List (Nat × Nat)) (s : State) : Res :=
  .next (if s.flag F.MODULE_NUM_ID_VALID ∧ s.isPartner src then s.declareFailed src able else s)

/-- R349: the local record of a slot set FREE. -/
def State.fenceSlot (s : State) (e : Nat × Req) : State :=
  let s1 := s.dropKv e.1
  let s2 := if e.2.holdsPfx then s1.unrefPfx e.2.tenant (rqPrefix (rqD e.2)) 8 else s1
  let rec' := finalRecord e.1 { e.2 with final := .moved } (sessionField e.2.session e.2.gen) 0xFFFF
  let s3 := match e.2.member with
    | some (home, origin, oslot) => s2.sendMsg home 0x2B e.1 (toBytes oslot 2 ++ toBytes 2 1 ++ toBytes origin 2) rec'
    | none => { s2 with stew := { s2.stew with
        kept := s2.stew.kept ++ [(e.1, sessionField e.2.session e.2.gen, e.2.sub, rec',
          some (s2.now + 1000000000 * s2.rd F.SESSION_CFG_FINAL_KEEP_S))] } }
  s3.freeSlot e.1

/-- FENCE_OUT (R349, R358): the home that holds this module's requests is `home`. Every slot becomes FREE without a final status, its held
tokens, committed ones that wait for a ring among them, are discarded, and the module pairs again through its alternates as a module
without requests. One that has paired again since is not fenced a second time by the same home. -/
def execFenceOut (src home : Nat) (s : State) : Res :=
  .next (if s.closed src 0x25 then s else
    let s0 := s.takeInbox src 0x25
    if s0.jr.fencedBy = some home ∧ s0.jr.partner.isSome then s0
    else
      let s1 := s0.stew.reqs.foldl (fun s e => s.fenceSlot e) (s0.bump F.FAILOVER_CNT_COUNT 1 4)
      let s2 := s1.setJState 5
      let s3 := (s2.wr F.JOURNAL_STATUS_PARTNER_ACT 0)
      let s4 := { s3 with
        stew := { s3.stew with flights := [] }
        host := { s3.host with rings := SMap.mapVals s3.host.rings (fun _ (g : Ring) => { g with waiting := [] }) }
        jr := { s3.jr with
          partner := none, failed := none, oldPartner := s3.ownId, fencedBy := some home, activeAt := none, taking := none
          frozen := [], table := [], refused := false, reqSent := false, reqSeen := false, prior := none
          queue := s3.jr.queue.filter (fun r => r.origin.isNone && decide (r.slot = 0xFFFF) && decide (payKind r.pay ≠ 9))
          live := s3.jr.live.filter (fun r => r.origin.isNone && decide (r.slot = 0xFFFF) && decide (payKind r.pay ≠ 9)) } }
      s4.askAlternate 0)

/-! ## After a reset (R355, R358) -/

/-- R293 to R295: a protection change takes its place in the registers; `kind` as in `ProtChange`. -/
def State.protReg (s : State) (kind index value : Nat) : State :=
  match kind with
  | 0 => (s.wr F.TENANT_WINDOW_ENABLED (value % 2) index).wr F.TENANT_WINDOW_GROUPS (value / 2 % 2 ^ 64) index
  | 1 => s.setSpan .MEM_WINDOW index .glob 0 value 8
  | 2 => (s.wr F.CTX_OWNER_DEDICATED (value % 2) index).wr F.CTX_OWNER_TENANT (value / 2 % 4096) index
  | _ =>
    let i := index / 4
    let w := (s.word .PKG_GROUP i .glob 0).toNat
    s.setWord .PKG_GROUP i .glob 0 (BitVec.ofNat 32 (putBits w (8 * (index % 4)) 6 value))

/-- R358: one record of the home's old journal is restored. -/
def State.restoreRec (s : State) (r : JRec) : State :=
  match r.pay with
  | .session i (some v) rings =>
    let s1 := s.setSession i { v with st := .detached, qps := [], held := [], since := s.now, closing := 0 }
    let rs := rings.foldl (fun m (e : Nat × Ring) => SMap.insert m e.1 { e.2 with waiting := [] }) s1.host.rings
    ({ s1 with host := { s1.host with gens := SMap.insert s1.host.gens i v.gen, rings := rs } }).journalSession i
  | .reply q key session seq tag op status detail body =>
    let i := session % 256
    (match (if unstored op status then none else s.session i) with
     | some v =>
       let e : JRep := { seq := seq, tag := tag, op := op, reply := some (status, detail, body), qp := q, waiters := [] }
       let s1 := s.setSession i { v with next := max v.next (seq + 1), journal := v.journal ++ [e] }
       s1.newRecord 0xFFFF (.reply q key session seq tag op status detail body)
     | none => s)
  | .configReg a v =>
    if s.boot.configured.any (fun c => decide (c.1 = a)) then s
    else
      let s0 := match s.locate a with
        | some (.TENANT_BUDGET, i, _, k) => s.budgetApply i k v
        | _ => s.poke a v
      let s1 := s0.newRecord 0xFFFF (.configReg a v)
      { s1 with jr := { s1.jr with settled := s1.jr.settled ++ [s1.rd F.JOURNAL_JSN_VALUE] } }
  | .configProt k i v =>
    let c : ProtChange := { kind := k, index := i, value := v, waiting := [0, 1, 2, 3], session := 0, seq := 0, detail := 0 }
    let s1 := (s.protReg k i v).newRecord 0xFFFF (.configProt k i v)
    (List.range 4).foldl (fun (s : State) d => { s with host := { s.host with
      dieSetup := SMap.insert s.host.dieSetup d (ProtChange.applyTo c (s.dieProt d)) } }) s1
  | _ => s

/-- RESYNC_DATA (R347, R355, R358): a new partner's records are held like any others. From the home of this module's old
requests they restore its sessions, replies and settings, and `open'` lists the commands handed back, which firmware runs
again. -/
def execResyncData (src : Nat) (recs : List JRec) (open' : List (Nat × Nat × Nat)) (s : State) : Res :=
  .next (if s.closed src 0x26 then s else
    let s0 := s.takeInbox src 0x26
    if s0.isPartner src then
      if mirrorBytes < s0.mirrorUsed + recsSize recs then ({ s0 with jr := { s0.jr with refusing := true } }).sendAck src
      else (recs.foldl (fun (s : State) r => s.holdRecord r) { s0 with jr := { s0.jr with refusing := false } }).sendAck src
    else if s0.jr.fencedBy = some src then
      let s1 := recs.foldl (fun (s : State) r => s.restoreRec r) s0
      let s2 := if s1.flag F.OWNER_STATUS_OWNED ∧ s1.host.lease.isNone then s1.renewLease else s1
      open'.foldl (fun (s : State) c => s.emit (.rerun c.1 c.2.1 c.2.2)) s2
    else s0)

/-- REJOIN_EXPIRY (R355): REJOIN_S after the takeover, each open command of an origin completes with FAULT to the standby
session, which has the origin session's subject. -/
def execRejoinExpiry (s : State) : Res :=
  .next (if s.now < s.jr.rejoinBy then s
    else
      let s1 := s.jr.openCmds.foldl (fun (s : State) c =>
        let body := toBytes c.2.2.1 8 ++ toBytes c.2.2.2 2 ++ toBytes stFault 2 ++ toBytes c.1 4
        match SMap.find? s.jr.subjects (256 * c.1 + c.2.1) with
        | none => s
        | some k => match (List.range 256).find? (fun i => match s.session i with
            | some v => decide (v.st = .active) && decide (v.subject = k)
            | none => false) with
          | some i => s.sendEvent i 0x8002 1 body
          | none => s) s
      { s1 with jr := { s1.jr with openCmds := [] } })

/-! ## Members (R351 to R353) -/

/-- The slot here of a request taken over for a home. -/
def State.memberSlot (s : State) (home o oslot : Nat) : Option Nat :=
  (s.stew.reqs.find? (fun e => decide (e.2.member = some (home, o, oslot)) && decide (e.2.st ≠ .ending))).map (·.1)

/-- TAKEOVER_ASSIGN (R351). -/
def execTakeoverAssign (src o oslot prio : Nat) (s : State) : Res :=
  .next (if s.closed src 0x27 then s else
    let s0 := s.takeInbox src 0x27
    let rest := s0.jr.assigns.filter (fun a => decide ((a.1, a.2.1, a.2.2.1) ≠ (src, o, oslot)))
    { s0 with jr := { s0.jr with assigns := rest ++ [(src, o, oslot, prio)] } })

/-- TAKEOVER_STATE (R351, R352): the request takes the lowest free slot here and is rebuilt by a prefill over every position;
with no slot free it ends ABORTED. A state without its TAKEOVER_ASSIGN is discarded. -/
def execTakeoverState (src : Nat) (t : TkState) (s : State) : Res :=
  .next (if s.closed src 0x28 then s else
    let s0 := s.takeInbox src 0x28
    match s0.jr.assigns.find? (fun a => decide ((a.1, a.2.1, a.2.2.1) = (src, t.origin, t.slot))) with
    | none => s0
    | some a =>
      let s1 := { s0 with jr := { s0.jr with assigns := s0.jr.assigns.erase a } }
      let r : Req := {
        st := .waiting, session := t.session, gen := 0, sub := t.sub, qp := 0, tenant := t.tenant, desc := t.desc, input := t.input
        fetching := false, order := s1.stew.order, accepted := some t.accepted, need := 0, done := 0, rebuilt := t.prefixPos
        produced := t.tokens.length, tokens := t.tokens, ended := false, lastCommit := s1.now, ttft := none, maxTbt := 0
        charged := 0, dropped := 0, full := 0, nans := 0, preempts := 0, evict := false, pfxRefused := false, registered := false, reserved := 0
        run := 0, mapped := 0, omapped := 0, flying := none, cancels := [], cancelled := t.cancelled, holdsPfx := false
        holdsAdapter := false, final := .none, finalAcked := false, member := some (src, t.origin, t.slot)
        wasAdmitted := t.admitted, awaitAck := none, prio := some a.2.2.2, acceptJsn := 0 }
      match s1.lowestSlot with
      | none => s1.sendMsg src 0x2B 0 (toBytes t.slot 2 ++ toBytes 2 1 ++ toBytes t.origin 2)
          (finalRecord t.slot { r with final := .aborted } t.session 0xFFFF)
      | some k => ({ s1 with stew := { s1.stew with order := s1.stew.order + 1 } }).setReq k r)

/-- TAKEOVER_TOKEN (R353): the home journals a member's token. -/
def execTakeoverToken (src o oslot index tok : Nat) (last : Bool) (s : State) : Res :=
  .next (if s.closed src 0x29 then s else
    let s0 := s.takeInbox src 0x29
    match s0.tk o oslot with
    | none => s0
    | some t =>
      if t.member ≠ some src ∨ index ≠ t.tokens.length + 1 ∨ s0.jr.queue.any (fun r =>
          decide (r.origin = some o) && decide (r.slot = oslot) && decide (payKind r.pay = 2)) then s0
      else (s0.setTk { t with lastIndex := if last then index else t.lastIndex }).newRecordFor (some o) oslot (.commit [(index, tok)]))

/-- TAKEOVER_ACK (R353, R256): the home has committed the member's token: the member charges it, and may produce the next one;
its last token ends the request, as does a cancel. -/
def execTakeoverAck (src o oslot index : Nat) (s : State) : Res :=
  .next (if s.closed src 0x2A then s else
    let s0 := s.takeInbox src 0x2A
    match s0.memberSlot src o oslot with
    | none => s0
    | some k =>
      match s0.req k with
      | none => s0
      | some r =>
        match r.awaitAck with
        | none => s0
        | some tok =>
          if index ≠ r.produced then s0
          else
            let r' : Req := { r with tokens := r.tokens ++ [tok], awaitAck := none, lastCommit := s0.now, charged := r.charged + 1 }
            let s1 := (s0.setReq k r').charge r.tenant 1
            if r.ended then s1.endReq k .complete
            else if r.cancelled ∧ r.flying = none then s1.endReq k .cancelled
            else s1)

/-- TAKEOVER_CTRL (R265, R351, R353): action 0 cancels and 1 disables a request at its member; action 2 brings its final
record `rec'` to the home, which ends it, or assigns it again when it was MOVED. -/
def execTakeoverCtrl (src o oslot action : Nat) (rec' : List Byte) (able : List (Nat × Nat)) (s : State) : Res :=
  .next (if s.closed src 0x2B then s else
    let s0 := s.takeInbox src 0x2B
    if action = 2 then
      match s0.tk o oslot with
      | none => s0
      | some t =>
        if t.member ≠ some src ∨ t.final.isSome then s0
        else if ofBytes ((rec'.drop 2).take 1) = 12 then s0.tkAssign able o oslot
        else s0.tkFinal t (homeRecord rec' oslot (if o = s0.ownId then ofBytes ((rec'.drop 4).take 2) else t.session) s0.ownId)
    else
      match s0.memberSlot src o oslot with
      | none => s0
      | some k =>
        match s0.req k with
        | none => s0
        | some r => if action = 0 then s0.setReq k { r with cancelled := true }
          else if action = 1 then (s0.setReq k { r with flying := none }).endReq k .aborted
          else s0)

/-! ## Spares and holders (R336, R364) -/

/-- R242, R364: the spare switches in an INSTALLED package with its least LIMIT and WINDOW in the lowest free budget. -/
def State.spareSwitch (s : State) (h : Nat) : State :=
  match s.pkg h with
  | none => s
  | some p =>
    match (List.range 1024).find? (fun b => decide (b ≠ 0) && decide (s.rd F.BUDGET_LIMIT b = 0)) with
    | none => s
    | some b =>
      let w : Switch := { budget := b, limit := p.minLimit, window := p.minWindow, tenant := none, users := [], begun := false }
      (s.setPkg h { p with switching := some w }).beginSwitch h

/-- SPARE_CALL (R364): a spare in Ready takes over the placement of the failed module; one that is not in Ready passes the call
to the next spare. -/
def execSpareCall (src failed tray : Nat) (s : State) : Res :=
  .next (if s.closed src 0x2C then s else
    let s0 := s.takeInbox src 0x2C
    if s0.flag F.SERVICE_CFG_SPARE ∧ s0.modState = 2 ∧ ¬ s0.noServing then
      let s1 := { s0 with jr := { s0.jr with spareFor := some failed } }
      let hs := (s1.wts.pkgs.filter (fun e => decide (e.2.st = .installed) && decide (e.2.kind ≠ 2) && e.2.switching.isNone)).map (·.1)
      let s2 := hs.foldl (fun (s : State) h => (s.serveNow).spareSwitch h) s1
      s2.spareDone
    else s0.callSpare ((s0.spares.dropWhile (fun m => decide (m ≠ s0.ownId))).drop 1) failed tray)

/-! ## Unreachable modules and missing routes (R322, R323) -/

/-- A member's requests whose home is gone end without a status: their home's own home continues them. -/
def State.dropMembersOf (s : State) (m : Nat) : State :=
  s.stew.reqs.foldl (fun (s : State) e =>
    match e.2.member with
    | some (home, _, _) => if home = m then (s.dropKv e.1).freeReq e.1 else s
    | none => s) s

/-- E2E_DEAD (R322, R237, R346, R357): a destination silent for E2E_DEAD_US is declared unreachable; its messages complete, the
steps that wait for it are replayed, its pages are fetched elsewhere, and as partner or member it has failed. -/
def execE2eDead (m : Nat) (able : List (Nat × Nat)) (s : State) : Res :=
  if m < 8192 then
    .next (if s.e2eSilent m then
      let s1 := ((s.declareDead m).abortLists m).supplierGone m
      let s2 := (s1.tkReassign able m).dropMembersOf m
      if s2.isPartner m then s2.declareFailed m able else s2
    else s)
  else .refused (.noSuchUnit "module")

/-- NOROUTE_TIMEOUT (R323, R357): messages that have waited NOROUTE_US for a route to `dst` complete with no route. -/
def execNorouteTimeout (dst : Nat) (s : State) : Res :=
  if dst < 8192 then
    .next (
      let old := s.link.waiting.filter (fun w => decide (w.dst = dst) &&
        decide (w.since + 1000 * s.rd F.LINK_TIMING_NOROUTE_US ≤ s.now))
      if old.isEmpty then s
      else
        let s1 := { s with link := { s.link with waiting := s.link.waiting.filter (fun w => !old.contains w) } }
        let s2 := old.foldl (fun (s : State) w => (s.bump F.LINK_MOD_CNT_COUNT 1 4).emit (.undelivered w.dst w.ty true)) s1
        let s3 := if old.any (fun w => decide (w.ty = 0x10)) then s2.abortLists dst else s2
        if old.any (fun w => decide (1 ≤ w.ty ∧ w.ty ≤ 7)) then s3.supplierGone dst else s3)
  else .refused (.noSuchUnit "module")

end Sys2Proof.Machine
end

