-- ==== Sys2Proof/Machine/Sessions.lean ====
section
/-!
DEFINITION. Queue pairs and delivery rings (R273, R280, R297, R298): the entry of a token, writing and rewriting a ring, losing a
queue pair, and the state of a host port.
-/
namespace Sys2Proof.Machine

/-- R298: the 32 bytes of a token entry. -/
def ringEntry (t : RingTok) : List Byte :=
  toBytes t.slot 2 ++ toBytes (b2n t.last) 1 ++ toBytes 0 1 ++ toBytes t.token 4 ++ toBytes t.index 4 ++ toBytes 0 4 ++
  toBytes t.subSeq 8 ++ toBytes t.time 8
/-- R298: the RDMA WRITE of entry `n` of a ring, with its immediate data. -/
def State.writeToken (s : State) (q ring : Nat) (g : Ring) (n : Nat) (t : RingTok) : State :=
  s.emit (.rdmaWrite q (g.addr + 32 * (n % g.entries)) g.rkey (ring % 64 + 65536 * (n % 65536)) (ringEntry t))
/-- R298: the entries from the consumer counts onward are written again, unchanged, on the queue pair now in use. -/
def State.rewriteRings (s : State) (i : Nat) : State :=
  match s.session i with
  | none => s
  | some v =>
    let q := sessionVia v none
    (s.host.rings.filter (fun e => decide (e.1 / 64 = i))).foldl (fun (s : State) e =>
      (e.2.written.zip (List.range e.2.written.length)).foldl (fun (s : State) t =>
        s.writeToken q e.1 e.2 (e.2.consumed + t.2) t.1) s) s

/-- R280: a queue pair leaves its session; one that has lost its last is DETACHED. -/
def State.unbindQp (s : State) (q : Nat) : State :=
  match s.qp q with
  | none => s
  | some v =>
    let s1 := s.setQp q { v with bound := none, error := true, used := 0 }
    match v.bound with
    | none => s1
    | some i =>
      match s1.session i with
      | none => s1
      | some u =>
        let qs := u.qps.filter (fun k => decide (k ≠ q))
        if qs.isEmpty ∧ u.st = .active then
          (s1.setSession i { u with qps := [], st := .detached, since := s.now }).journalSession i
        else (s1.setSession i { u with qps := qs }).rewriteRings i
/-- R273, R280: a queue pair enters the error state. -/
def State.qpError (s : State) (q : Nat) : State :=
  match s.qp q with
  | none => s
  | some v => if v.error then s else s.unbindQp q

/-- R299, R312: a LINK event about host port `p`, whose port byte is 0x40 to 0x43, with the state and cause codes of R312. DEDUCED
(notes/assumptions/89): a port whose link is up reads UP at either rate, one with SPEED 0 DISABLED. -/
def State.hostLinkEvent (s : State) (p cause : Nat) : State :=
  let st := if s.flag F.HOST_PORT_STATUS_LINK_UP p then 3 else if s.rd F.HOST_PORT_CFG_SPEED p = 0 then 0 else 1
  s.broadcast 0x8008 1 (toBytes (0x40 + p) 1 ++ toBytes st 1 ++ toBytes cause 1)
/-- R272, R280: a host port's link goes down for a cause of R312: its queue pairs enter the error state. -/
def State.hostPortDown (s : State) (p cause : Nat) : State :=
  if s.flag F.HOST_PORT_STATUS_LINK_UP p then
    let s1 := (s.wr F.HOST_PORT_STATUS_LINK_UP 0 p).wr F.HOST_PORT_STATUS_SPEED_ACT 0 p
    let s2 : State := { s1 with host := { s1.host with paused := SMap.erase s1.host.paused p } }
    ((s2.host.qps.filter (fun e => decide (e.2.port = p))).foldl (fun (s : State) e => s.qpError e.1) s2).hostLinkEvent p cause
  else s
/-- R272: a host port's link comes up at a rate within the limit of SPEED; the host ports of a module in FACTORY are disabled
(R441). -/
def State.hostPortUp (s : State) (p rate : Nat) : State :=
  let v := min rate (s.rd F.HOST_PORT_CFG_SPEED p)
  if v = 0 ∨ s.lc = .factory ∨ s.flag F.HOST_PORT_STATUS_LINK_UP p then s
  else ((s.wr F.HOST_PORT_STATUS_LINK_UP 1 p).wr F.HOST_PORT_STATUS_SPEED_ACT v p).hostLinkEvent p 0
/-- R274: line rate of a port in Mb/s. -/
def State.lineRate (s : State) (p : Nat) : Nat := 200000 * s.rd F.HOST_PORT_STATUS_SPEED_ACT p

/-- HOST_PORT_LINK_CHANGE (R272): the link of a host port goes down, or, while the port is powered, comes up at a rate coded as
SPEED. -/
def execHostPortLinkChange (p : Nat) (up : Bool) (rate : Nat) (s : State) : Res :=
  if 4 ≤ p ∨ 2 < rate then .refused (.noSuchUnit "host port")
  else .next (if up then (if s.rd F.BOOT_STATUS_STAGE = 7 then s.hostPortUp p rate else s) else s.hostPortDown p 1)

end Sys2Proof.Machine
end

