-- ==== Sys2Proof/Machine/Rails.lean ====
section
/-!
DEFINITION. What a die, the arrays and the module lose when power goes (R20, R91, R403, R405, R406, R432), module states, the
power limit and the clock stretch (R409 to R414), and the start of a start-up (R431).
-/
namespace Sys2Proof.Machine

/-! ## Dies (R403, R405) -/

/-- Address of a compute die's window (R29). -/
def inWindow (d a : Nat) : Bool := decide (0x1000000 * (d + 1) ≤ a) && decide (a < 0x1000000 * (d + 2))

/-- R165: a stall counter in a die's window: only a cold reset clears it. -/
def stallReg (a : Nat) : Bool := decide (0x102000 ≤ a % 0x1000000) && decide (a % 0x1000000 < 0x104060)
/-- R166: SERGE_STATUS, whose MISMATCHES count since the cold reset. -/
def sergeReg (a : Nat) : Bool := decide (0x100000 ≤ a % 0x1000000) && decide (a % 0x1000000 < 0x100020)

/-- R403: what a die's power-gated array loses: registers, tile state, SRAM, queues, slots, streams and caches. -/
def State.clearDie (s : State) (d : Nat) : State :=
  let a := s.arr
  let t := s.strm
  let arr : Arr := { a with
    tiles := SMap.keep a.tiles (fun k _ => decide (k / 4096 ≠ d))
    acc := SMap.keep a.acc (fun k _ => decide (k / 256 / 1024 ≠ d))
    ags := SMap.keep a.ags (fun k _ => decide (k / 16384 ≠ d))
    queues := SMap.keep a.queues (fun k _ => decide (k / 4 / 65536 ≠ d))
    feed := SMap.keep a.feed (fun k _ => decide (k / 4 / 65536 ≠ d))
    drain := SMap.keep a.drain (fun k _ => decide (k / 4 / 65536 ≠ d))
    ctlLock := SMap.keep a.ctlLock (fun k _ => decide (k / 16384 ≠ d))
    ctlLast := SMap.keep a.ctlLast (fun k _ => decide (k / 16384 ≠ d))
    sram := SMap.keep a.sram (fun k _ => decide (k / 524288 / 1024 ≠ d))
    images := SMap.keep a.images (fun k _ => decide (k / 4 ≠ d))
    loads := SMap.keep a.loads (fun k _ => decide (k / 4 ≠ d))
    selects := SMap.erase a.selects d
    scans := SMap.erase a.scans d
    messages := a.messages.filter (fun m => decide (m.1 ≠ d))
    trans := SMap.keep a.trans (fun k _ => decide (k / 10 ≠ d))
    heldReads := a.heldReads.filter (fun r => decide (r.die ≠ d))
    wc := SMap.keep a.wc (fun k _ => !wcOfDie d k)
    wcWait := a.wcWait.filter (fun r => decide (r.1 ≠ d))
    idlePosted := SMap.erase a.idlePosted d
    bubble := SMap.erase a.bubble d
    cycles := SMap.erase a.cycles d
    wdogAt := SMap.erase a.wdogAt d
    held := SMap.erase a.held d
    idleFor := SMap.erase a.idleFor d
    invs := SMap.keep a.invs (fun k _ => decide (k / 4 ≠ d))
    routed := SMap.erase a.routed d
    sums := SMap.erase a.sums d }
  let strm : Strm := { t with
    cmdMem := SMap.keep t.cmdMem (fun k _ => decide (k / 65536 ≠ d))
    streams := SMap.keep t.streams (fun k _ => decide (k / 64 ≠ d))
    dispatches := SMap.keep t.dispatches (fun k _ => decide (k / 4 ≠ d))
    mboxes := SMap.keep t.mboxes (fun k _ => decide (k / 256 ≠ d))
    mboxWaits := t.mboxWaits.filter (fun w => decide (w.1 ≠ d)) }
  let s1 := { s with arr := arr, strm := strm, link := { s.link with velvet := SMap.keep s.link.velvet (fun k _ => decide (k % 8 ≠ d)) },
                     regs := SMap.keep s.regs (fun k _ => !inWindow d k || stallReg k || sergeReg k) }
  let s2 := (List.range 8).foldl (fun (s : State) p => s.wr F.SERGE_STATUS_ONLINE 0 p (.die d)) s1
  (List.range 10).foldl (fun (s : State) k =>
    if bitOf (s.rd F.STACKS_ONLINE_STACK_ONLINE) (5 * d + k / 2) then s.wr F.MEA_STATUS_ONLINE 1 k (.die d) else s) s2

/-- R403, R194: the near frames of a die are lost: a sealed page keeps its other copies, a writable one is gone. -/
def State.loseNear (s : State) (d : Nat) : State :=
  let s1 := s.mas.pages.foldl (fun (s : State) e =>
    if e.2.near && decide (e.2.nearStack / 5 = d) then
      (if e.2.isSealed then s.dropNear e.1 else ((s.shootdown e.1).masZero (e.1 * pageBytes) pageBytes).dropPte e.1)
    else s) s
  s1.mas.jobs.foldl (fun (s : State) j =>
    if j.kind = .promote then
      (if j.placed ∧ j.stack / 5 = d then s.setJob { j with placed := false, win := false, pool := false } else s)
    else s.fixJob j.page) s1

/-- R220, R403: the stacks of a die and their agents go offline. -/
def State.stacksOff (s : State) (d : Nat) : State :=
  let on := s.rd F.STACKS_ONLINE_STACK_ONLINE
  s.wr F.STACKS_ONLINE_STACK_ONLINE ((List.range 5).foldl (fun n k => if bitOf n (5 * d + k) then n - 2 ^ (5 * d + k) else n) on)

/-- R233: packages whose execution pages are no longer all held become STORED; those LOADED are switched out first when
`all`, or when they have a slot on a die of `dies`. -/
def State.settlePkgs (s : State) (dies : List Nat) : State :=
  s.wts.pkgs.foldl (fun (s : State) e =>
    let hit := e.2.slots.any (fun c => dies.contains c.1)
    let s1 := if e.2.st = .loaded ∧ hit then s.switchOut e.1 else if e.2.switching.isSome ∧ hit then s.failSwitch e.1 stNofit else s
    match s1.pkg e.1 with
    | none => s1
    | some p =>
      let whole := (List.range p.execPages).all (fun k => match s1.pte (pageOf p.execBase + k) with
        | some q => !pteLost q
        | none => false)
      if p.st = .installed ∧ ¬ whole then s1.setPkg e.1 { p with st := .stored } else s1) s

/-- R194, R261, R233: what follows when pages may have lost their last copy: prefix handles and packages that held them. -/
def State.settleLost (s : State) (dies : List Nat) : State :=
  let lost := fun (pn : Nat) => match s.pte pn with
    | some p => pteLost p
    | none => true
  let s1 : State := { s with stew := { s.stew with
    prefixes := SMap.mapVals s.stew.prefixes (fun _ (v : Pfx) => if v.pages.any lost then { v with lost := true } else v) } }
  s1.settlePkgs dies

/-- R91, R403: a die enters A2: its slots become EMPTY and its array loses its state; the near tier keeps its contents. -/
def State.dieToA2 (s : State) (d : Nat) : State :=
  (((s.emptyDie d).clearDie d).setDieP d 2)
/-- R91, R403, R405: a die enters A3 and loses everything; tokens that its slots still hold go by reset-only loads. -/
def State.dieToA3 (s : State) (d : Nat) : State :=
  (((((s.haltDie d).loseNear d).stacksOff d).emptyDie d).clearDie d).setDieP d 3
/-- R136, R166: the streams of a pair are OFFLINE. -/
def State.pairOffline (s : State) (d p : Nat) : State :=
  (List.range 8).foldl (fun (s : State) k => s.wr F.STREAM_STATUS_STATE 5 (8 * p + k) (.die d)) s
/-- R136, R403: a die's array runs: its Serge pairs work, but for those retired, at the core voltage of its point. -/
def State.dieToA0 (s : State) (d : Nat) : State :=
  (List.range 8).foldl (fun (s : State) p =>
    if s.pairRetired d p then s.pairOffline d p else s.wr F.SERGE_STATUS_ONLINE 1 p (.die d)) (s.setDieP d 0)

/-- Every compute die enters A3 (R406). -/
def State.diesOff (s : State) : State :=
  ((List.range 4).foldl (fun (s : State) d => if s.dieP d = 3 then s else s.dieToA3 d) s).settleLost [0, 1, 2, 3]
/-- R406, R91: in Ready the compute dies in service are in A2. -/
def State.diesIdle (s : State) : State :=
  (List.range 4).foldl (fun (s : State) d =>
    if s.dieP d ≤ 1 ∧ s.dieQuiet d then s.dieToA2 d else s) s

/-! ## Module states (R406, R407) -/

/-- R469: whether FAULT_N is driven low. -/
def State.faultLow (s : State) : Bool :=
  !s.boot.off && (s.flag F.PWR_STATUS_TRIP || s.flag F.PWR_STATUS_REFCLK_FAIL ||
    decide (s.rd F.BOOT_STATUS_STAGE = 8) || decide (s.rd F.BOOT_STATUS_STAGE = 9))
/-- The change of FAULT_N between two states. -/
def State.faultFrom (s old : State) : State := if s.faultLow = old.faultLow then s else s.emit (.faultN s.faultLow)

/-- R431, R434: a start-up in progress, or a recovery, ends in stage `st`. -/
def State.endStartup (s : State) (st : Nat) : State :=
  { s.wr F.BOOT_STATUS_STAGE st with boot := { s.boot with bootBy := none, recovering := false, readyWaits := false } }

/-- R407: the module enters Parked: its dies are in A3, no drain or start-up is under way. -/
def State.parkNow (s : State) : State :=
  let s1 := if 1 ≤ s.rd F.BOOT_STATUS_STAGE ∧ s.rd F.BOOT_STATUS_STAGE ≤ 6 then s.endStartup 0 else s
  let s2 := { s1 with boot := { s1.boot with drainTo := none } }
  s2.diesOff.moduleTo 5

/-- R346: the FAULT notice to the journal partner. -/
def State.faultNotify (s : State) : State :=
  match s.jr.partner with
  | some p => s.emit (.faultNotice p)
  | none => s

/-- R266: commands that wait for a disable which will not end are answered FAULT. -/
def State.dropDisables (s : State) : State :=
  let s1 := s.stew.disables.foldl (fun (s : State) d => s.completeAll d.waiters stFault 0) s
  { s1 with stew := { s1.stew with disables := [] } }

/-- R458: a running item ends ABORTED, and the items still to run keep NOT_RUN; `st` is what PCL_STATUS then reads. In the
millisecond in which an item found a fault, the items after it read NOT_RUN. -/
def State.pclStop (s : State) (outcome st : Nat) : State :=
  match s.boot.pclRun with
  | none => s
  | some r =>
    let k := (r.todo.headD (0, 0)).2
    let ms := (s.now - r.began) / 1000000
    let late : Bool := match r.foundAt with
      | some t => decide (t / 1000000 = s.now / 1000000)
      | none => false
    let s1 := if late ∨ s.rd F.PCL_RESULT_OUTCOME k = 2 then s else s.wr F.PCL_RESULT_OUTCOME outcome k
    let s2 := (s1.wr F.PCL_STATUS_STATE st).wr F.PCL_TIME_MS ms
    let rs := (List.range 5).map (fun i =>
      (s2.rd F.PCL_RESULT_OUTCOME i, s2.rd F.PCL_RESULT_FAULTS i, s2.rd F.PCL_RESULT_FIRST i))
    { s2 with boot := { s2.boot with pclRun := none, nor := { s2.boot.nor with pclTime := ms, pcl := rs } } }

/-- R416, R20: steps in progress are abandoned and commit nothing. -/
def State.abandon (s : State) : State :=
  { s with
    stew := { s.stew with
      flights := []
      reqs := SMap.mapVals s.stew.reqs (fun _ (r : Req) => { r with flying := none }) }
    boot := { s.boot with stopping := true } }

/-- R20, R402, R422: a module fault: the module stops serving, tells its partner and enters Parked. -/
def State.moduleFault (s : State) : State :=
  if s.modState = 1 then s.endStartup (if s.rd F.BOOT_STATUS_STAGE = 9 then 9 else 0) |>.moduleTo 5
  else (((s.pclStop 3 5).abandon).faultNotify.dropDisables).parkNow

/-- R233, R240: the packages with a commit record, each STORED; the package of an install in progress is as before it. -/
def State.storedPkgs (s : State) : SMap Pkg :=
  s.wts.pkgs.filterMap (fun (e : Nat × Pkg) =>
    let old := if e.2.st = .installing then (s.inst e.1).bind (·.old) else some e.2
    old.map (fun p => (e.1, { p with st := .stored, slots := [], switching := none, budget := 0, bound := 0, leaving := false })))

/-- R402, R405, R416: core power goes from every die: what only the Muslin domain keeps. Committed packages stay STORED. -/
def State.stopCores (s : State) : State :=
  let s1 := (List.range 4).foldl (fun (s : State) d => s.dieToA3 d) s
  let mgmt := s1.host.sessions.filter (fun e => decide (e.1 = mgmtIndex))
  let on := s1.rd F.BOOT_STATUS_STAGE
  let mas : Mas := { Mas.reset with
    retired := s1.mas.retired, retiredBulk := s1.mas.retiredBulk, drives := s1.mas.drives, deepSeq := s1.mas.deepSeq }
  let host : HostSt := { HostSt.reset with
    sessions := mgmt, gens := s1.host.gens, isSealed := s1.host.isSealed, i3cAddr := s1.host.i3cAddr, mgmtSeen := s1.host.mgmtSeen }
  let s2 : State := { s1 with
    arr := { Arr.reset with linenPkgs := [] }
    strm := { Strm.reset with mismatchAt := s1.strm.mismatchAt }
    mas := mas
    host := host
    link := LinkSt.reset
    stew := Stew.reset
    jr := Jr.reset
    wts := { pkgs := s1.storedPkgs, jobs := [] } }
  let s3 := (List.range 32).foldl (fun (s : State) p =>
    if s.portState p = 0 then s else (s.wr F.LINK_PORT_STATUS_STATE 0 p).wr F.LINK_PORT_STATUS_WIDTH 0 p) s2
  let s3 := (List.range 4).foldl (fun (s : State) p => (s.wr F.HOST_PORT_STATUS_LINK_UP 0 p).wr F.HOST_PORT_STATUS_SPEED_ACT 0 p) s3
  let s4 := ((((s3.wr F.BULK_CFG_STATE 0).wr F.BULK_FRAMES_COUNT 0).setJState 0).wr F.JOURNAL_JSN_VALUE 0).wr F.JOURNAL_ACKED_VALUE 0
  let s5 := (List.range 16).foldl (fun (s : State) d =>
    if s.rd F.DEEP_DRIVE_STATE d = 0 then s else (s.wr F.DEEP_DRIVE_STATE 0 d).wr F.DEEP_EXTENTS_COUNT 0 d) (s4.wr F.JOURNAL_STATUS_PARTNER_ACT 0)
  let s6 := if s5.rd F.STAGE_STATUS_STATE = 0 ∨ s5.rd F.STAGE_STATUS_STATE = 4 ∨ s5.rd F.STAGE_STATUS_STATE = 5 then s5
    else (s5.wr F.STAGE_STATUS_STATE 0).wr F.STAGE_STATUS_PROGRESS 0
  { s6.wr F.BOOT_STATUS_STAGE (if on = 9 then 9 else 0) with
    boot := { s6.boot with drainTo := none, bootBy := none, recovering := false, readyWaits := false, stopping := false
                           sram := [], span := [], failAt := none, staged := none, slews := [] } }

/-! ## Operating points and the power limit (R409 to R414) -/

/-- R411: T of a point, core voltage in mV, and ACLK step, by point. -/
def pointT : Grade → Nat → Nat
  | .dxg4140, p => [4400, 3661, 3034, 2548, 2136, 1793, 1525].getD p 1525
  | .dxg4120, p => [3853, 3237, 2714, 2310, 1966, 1680, 1457].getD p 1457
def pointMv (p : Nat) : Nat := [850, 800, 750, 710, 670, 630, 600].getD p 600
def pointM (p : Nat) : Nat := 16 - 2 * p
/-- R411: scaled load. -/
def gradeS0 : Grade → Nat
  | .dxg4140 => 3000
  | .dxg4120 => 2500
/-- R411: the power at step `m` and core voltage `mv` is at most `l`: (S₀ × m ÷ 16 × (V ÷ 0.85 V)² + F) × 1.0945 ≤ L. -/
def powerFits (g : Grade) (m mv l : Nat) : Bool :=
  decide ((gradeS0 g * m * mv * mv + 1020 * 16 * 722500) * 10945 ≤ l * 10000 * 16 * 722500)

/-- R401: m runs from 4 to 16. -/
def mSteps : List Nat := (List.range 13).map (fun k => 16 - k)
/-- R413: the largest step within `l`, not above `top`. -/
def stretchM (g : Grade) (top mv l : Nat) : Nat := ((mSteps.filter (fun m => decide (m ≤ top))).find? (fun m => powerFits g m mv l)).getD 4
/-- R413: the highest point whose T is at most `l`. -/
def pointFor (g : Grade) (l : Nat) : Nat := ((List.range 7).find? (fun p => decide (pointT g p ≤ l))).getD 6

def State.point (s : State) (d : Nat) : Nat := s.rd F.DIE_OPPOINT_POINT d
def State.vcore (s : State) (d : Nat) : Nat := s.rd F.DIE_OPPOINT_VCORE_MV d
/-- R411: the core regulators slew at 2.5 mV/µs. -/
def slewNs (a b : Nat) : Nat := 400 * (if a ≤ b then b - a else a - b)
/-- Start a voltage change of a die towards a point. -/
def State.slewTo (s : State) (d p : Nat) : State :=
  { s with boot := { s.boot with
    slews := SMap.insert s.boot.slews d (p, s.now, s.now + slewNs (s.vcore d) (pointMv p)) } }
/-- R413, R454: stretch the dies whose point draws more than L, but for a test. -/
def State.stretch (s : State) : State :=
  let l := s.rd F.PWR_LIMIT_LIMIT_W
  (List.range 4).foldl (fun (s : State) d =>
    if s.modState ≠ 6 ∧ s.dieP d ≤ 1 ∧ l < pointT s.fuses.grade (s.point d) then
      let m := stretchM s.fuses.grade (s.rd F.DIE_OPPOINT_ACLK_M d) (s.vcore d) l
      (s.wr F.DIE_OPPOINT_ACLK_M m d).slewTo d (max (s.point d) (pointFor s.fuses.grade l))
    else s) s

/-- R409: the least of the inputs, and which it is: 0 POWER_CAP, 1 CAPDROP_FLOOR, 2 SAFE_CAP. -/
def State.limitGoal (s : State) : Nat × Nat :=
  let cap := (s.rd F.PWR_CAP_CAP_W, 0)
  let a := if s.flag F.PWR_LIMIT_CAPDROP ∧ s.rd F.PWR_CAP_CFG_CAPDROP_FLOOR_W < cap.1 then
    (s.rd F.PWR_CAP_CFG_CAPDROP_FLOOR_W, 1) else cap
  if s.flag F.PWR_LIMIT_SAFE ∧ s.rd F.PWR_CAP_CFG_SAFE_CAP_W < a.1 then (s.rd F.PWR_CAP_CFG_SAFE_CAP_W, 2) else a
/-- R409, R423: L takes a value, with a LIMIT event when it changes. -/
def State.setLimit (s : State) (l src : Nat) : State :=
  let s1 := (s.wr F.PWR_LIMIT_LIMIT_W l).wr F.PWR_LIMIT_SOURCE src
  if s.rd F.PWR_LIMIT_LIMIT_W = l then s1 else s1.powerEvent 1 0xFF l src
/-- R409, R413: an input of the minimum has changed: L falls at once, or begins to rise. -/
def State.updateLimit (s : State) : State :=
  let g := s.limitGoal
  let l := s.rd F.PWR_LIMIT_LIMIT_W
  if g.1 ≤ l then (s.setLimit g.1 g.2).stretch
  else if s.rd F.PWR_LIMIT_SOURCE = 3 then s
  else { s.wr F.PWR_LIMIT_SOURCE 3 with boot := { s.boot with limitAt := s.now } }
/-- R409: L rises at 400 W/ms. -/
def State.raiseLimit (s : State) : State :=
  let g := s.limitGoal
  let l := s.rd F.PWR_LIMIT_LIMIT_W
  if s.rd F.PWR_LIMIT_SOURCE = 3 then
    let up := l + 400 * (s.now - s.boot.limitAt) / 1000000
    let s1 := { s with boot := { s.boot with limitAt := s.now } }
    if g.1 ≤ up then s1.setLimit g.1 g.2 else s1.setLimit up 3
  else s

/-! ## Cold reset and the start of a start-up (R431, R432) -/

/-- R431, R442: phase 1 begins. A module whose life-cycle state boots no firmware stops with LIFECYCLE. -/
def State.lifecycleStops (s : State) : Bool :=
  match s.lc with
  | .blank => true
  | .retired => true
  | .factory => false
  | _ => !s.provisioned
def State.beginStartup (s : State) : State :=
  let n := s.boot.nor.bootCount + 1
  let s1 : State := { s with boot := { s.boot with
    nor := { s.boot.nor with bootCount := n }, readyWaits := false
    bootBy := some (s.now + 1000000000 * s.rd F.BOOT_CFG_BOOT_LIMIT_S) } }
  let s2 := (s1.wr F.BOOT_COUNT_VALUE n).wr F.BOOT_STATUS_CAUSE 0
  if s.lifecycleStops then (((s2.wr F.BOOT_STATUS_CAUSE 11).endStartup 9).moduleTo 1).faultFrom s
  else (s2.wr F.BOOT_STATUS_STAGE 1).faultFrom s

/-- R432: a cold reset: every register at its reset value, near and bulk pages gone; fuses, NOR and drives kept. The fields that
the NOR restores take their values (R448, R457, R477), and the pins are sampled again. -/
def State.coldReset (s : State) (cause : Nat) : State :=
  let n := s.boot.nor
  let t : State := { State.reset with
    pending := s.pending, now := s.now, out := s.out, fresh := s.fresh, fuses := s.fuses
    mas := { Mas.reset with drives := s.mas.drives, deepSeq := s.mas.deepSeq }
    wts := { pkgs := s.storedPkgs, jobs := [] }
    strm := { Strm.reset with mismatchAt := s.strm.mismatchAt }
    err := { Err.reset with scrubAt := (List.range 4).map (fun k => (k, s.now)) }
    host := { HostSt.reset with mgmtSeen := s.now }
    boot := { Boot.reset with nor := n, off := s.boot.off, held := s.boot.held, refBad := s.boot.refBad, softUntil := s.boot.softUntil } }
  let t1 := (((t.wr F.BOOT_STATUS_RESET_CAUSE cause).wrFlag F.BOOT_CFG_AUTO_READY n.autoReady).wrFlag F.PIN_STATUS_OVERVOLT
    n.overvolt).wr F.PCL_TIME_MS n.pclTime
  let t2 := (List.range 5).foldl (fun (t : State) k =>
    let r := n.pcl.getD k (0, 0, 0)
    ((t.wr F.PCL_RESULT_OUTCOME r.1 k).wr F.PCL_RESULT_FAULTS r.2.1 k).wr F.PCL_RESULT_FIRST r.2.2 k) (t1.wr F.BOOT_COUNT_VALUE n.bootCount)
  let t3 := t2
  let capLow := s.rd F.PIN_STATUS_CAPDROP_LVL
  let pfwLow := s.rd F.PIN_STATUS_PFW_LVL
  let t4 := ((t3.wr F.PIN_STATUS_CAPDROP_LVL capLow).wr F.PIN_STATUS_PFW_LVL pfwLow).wr F.PWR_LIMIT_CAPDROP (1 - capLow)
  let t5 := ((t4.wr F.PWR_LIMIT_PFW (1 - pfwLow)).wrFlag F.PWR_STATUS_REFCLK_FAIL s.boot.refBad).updateLimit
  t5.faultFrom s

end Sys2Proof.Machine
end

