-- ==== Sys2Proof/Machine/Drain.lean ====
section
/-!
DEFINITION. Disables of a function with work in flight (R266, R267, R324), retirement of dies (R361), the drain of the module
(R408), and the power-down and wake of a die on request (R91, R403).
-/
namespace Sys2Proof.Machine

/-! ## Work of a function (R266) -/

/-- Whether a request needs a function. -/
def State.touches (s : State) (k : FnKind) (id : Nat) (r : Req) : Bool :=
  let slots := match s.pkg (rqPkg (rqD r)) with
    | some p => p.slots
    | none => []
  match k with
  | .tenant => decide (r.tenant = id)
  | .model => decide (rqPkg (rqD r) = id)
  | .linkPort => false
  | .die => slots.any (fun c => decide (c.1 = id))
  | .context => slots.contains (id / 4, id % 4)
/-- R266, R267: requests that count as work in flight. -/
def inWork (r : Req) : Bool := decide (r.st = .prefill ∨ r.st = .decode ∨ r.st = .preempted)
def State.workOf (s : State) (k : FnKind) (id : Nat) : List Nat :=
  (s.stew.reqs.filter (fun e => inWork e.2 && s.touches k id e.2)).map (·.1)
/-- Flits that a link port still holds. -/
def State.portWork (s : State) (p : Nat) : Bool := !((s.port p).queue.isEmpty && (s.port p).replay.isEmpty)
/-- Whether a disable has ended its work: every affected die has passed a boundary and nothing is in flight. -/
def State.workDone (s : State) (d : Disable) : Bool :=
  if d.kind = .linkPort then !s.portWork d.id
  else [0, 1, 2, 3].all (fun x => !s.disableOnDie d x || d.passed.contains x) && (s.workOf d.kind d.id).isEmpty

/-- R266, R267: start a disable, or join the one in progress with the earlier deadline. -/
def State.startDisable (s : State) (k : FnKind) (id : Nat) (retire : Bool) (deadline : Nat) (users : List (Nat × Nat)) : State :=
  match s.stew.disables.find? (fun d => decide (d.kind = k) && decide (d.id = id)) with
  | some d =>
    let d' : Disable := { d with retire := d.retire || retire, deadline := min d.deadline deadline, waiters := d.waiters ++ users }
    { s with stew := { s.stew with disables := s.stew.disables.map (fun e => if e = d then d' else e) } }
  | none =>
    let d : Disable := { kind := k, id := id, retire := retire, deadline := deadline, since := s.now, passed := [], waiters := users }
    let s1 := { s with stew := { s.stew with disables := s.stew.disables ++ [d] } }
    if k = .linkPort then s1.setPort id { s1.port id with drain := some deadline } else s1

/-- R266 step 3: the running steps of a function are aborted; rows of other requests in the same micro-batches run again. -/
def State.cutFlights (s : State) (k : FnKind) (id : Nat) : State :=
  s.stew.flights.foldl (fun (s : State) e =>
    match s.pkg e.1 with
    | none => s
    | some p =>
      e.2.foldl (fun (s : State) f =>
        let mine := f.rows.filter (fun r => match s.req r.1 with
          | some q => s.touches k id q
          | none => true)
        if f.stepped ∨ mine.isEmpty then s
        else
          let die := (placeDies p).getD f.stage 0
          let s1 := (p.slots.filter (fun c => decide (c.1 = die))).foldl (fun (s : State) c => s.haltSlot c.1 c.2) s
          let rest := f.rows.filter (fun r => !mine.contains r)
          if rest.isEmpty then s1.setFlights e.1 ((s1.flightsOf e.1).erase f)
          else
            let g : Flight := { f with rows := rest, drops := f.drops.filter (fun e => decide (e.1 ≠ f.stage)) }
            (s1.setFlights e.1 ((s1.flightsOf e.1).map (fun h => if h = f then g else h))).emit (.microBatch e.1 rest)) s) s

/-- R266 step 3, R270: requests whose work is left are moved to a replica, else end ABORTED; one taken over for a home goes back to
it; a cancel that is due is applied first. -/
def State.moveWork (s : State) (k : FnKind) (id : Nat) (replica : Option Nat) : State :=
  (s.workOf k id).foldl (fun (s : State) slot =>
    match s.req slot with
    | none => s
    | some r =>
      if cancelDue r then s.endReq slot .cancelled
      else if r.member.isSome then s.endReq slot .moved
      else match replica with
        | some m => s.moveReq slot m
        | none => s.endReq slot .aborted) s

/-! ## What follows a disable (R266, R361, R362) -/

/-- R361: the dies of a placement without the die `d`: the lowest die in service with room takes its contexts. -/
def State.otherDie (s : State) (p : Pkg) (d : Nat) : Option (List Nat) :=
  let alt := (List.range 4).filter (fun e => decide (e ≠ d) && !s.fuses.retiredDies.contains e && decide (s.dieP e ≤ 2))
  (alt.map (fun e => p.tmpl.dies.map (fun x => if x = d then e else x))).find? (fun ds =>
    (s.slotsFor p none ds).isSome)

/-- R244, R361: a package with a context on die `d` is switched out; on retirement it is switched in again on the remaining
dies where it fits. -/
def State.leaveDie (s : State) (d : Nat) (retire : Bool) : State :=
  s.wts.pkgs.foldl (fun (s : State) e =>
    if e.2.slots.any (fun c => decide (c.1 = d)) then
      (if e.2.st = .loaded then
        let s1 := s.switchOut e.1
        match s1.pkg e.1 with
        | none => s1
        | some p =>
          if retire then
            (match s1.otherDie p d with
             | none => s1
             | some ds =>
               let w : Switch := { budget := e.2.budget, limit := s.rd F.BUDGET_LIMIT e.2.budget,
                                   window := s.rd F.BUDGET_WINDOW e.2.budget, tenant := none, users := [], begun := false }
               let q : Pkg := { p with tmpl := { p.tmpl with dies := ds }, switching := some w }
               (s1.setPkg e.1 q).beginSwitch e.1)
          else s1
      else s.failSwitch e.1 stNofit)
    else s) s

/-- R361, R362: a die is retired: its fuse, its work, its power and the packages that no longer fit. -/
def State.fuseDie (s : State) (d : Nat) : State :=
  if s.fuses.retiredDies.contains d then s
  else
    let s1 := { s with fuses := { s.fuses with retiredDies := s.fuses.retiredDies ++ [d] } }
    (((s1.leaveDie d true).dieToA3 d).settleLost []).shrink

/-- R20, R361: once the edges no longer connect the I/O dies with each other and with every compute die in service, the module
handles a module fault, and a die left without an edge is retired. Keep-alive and Parked have nothing to stop. -/
def State.velvetCheck (s : State) : State :=
  if s.cutOff.isEmpty ∨ s.modState = 1 ∨ s.modState = 5 then s
  else (s.cutOff.filter (fun d => decide (d < 4) && s.stranded d)).foldl (fun (s : State) d => s.fuseDie d) s.moduleFault

/-- R20, R361, R362: a die leaves service for good. -/
def State.retireDie (s : State) (d : Nat) : State := (s.fuseDie d).velvetCheck

/-- R406, R407: with nothing LOADED and no switch-in under way, a Serving module is Ready again. -/
def State.restReady (s : State) : State :=
  if s.modState = 3 ∧ ¬ s.wts.pkgs.any (fun e => decide (e.2.st = .loaded) || e.2.switching.isSome) then
    (s.diesIdle).moduleTo 2
  else s

/-- R266: a disable is complete: what follows the drain of its function, and the commands that wait are answered. -/
def State.endDisable (s : State) (d : Disable) : State :=
  let s1 := { s with stew := { s.stew with disables := s.stew.disables.erase d } }
  let mark := fun (s : State) => { s with stew := { s.stew with
    disabled := if s.stew.disabled.contains (d.kind, d.id) then s.stew.disabled else s.stew.disabled ++ [(d.kind, d.id)] } }
  let s2 := match d.kind with
    | .tenant => mark s1
    | .model => s1.switchOut d.id
    | .linkPort => mark (s1.portOff d.id).bundlesDown
    | .die => mark (if d.retire then s1.retireDie d.id else (((s1.leaveDie d.id false).dieToA3 d.id).settleLost []).velvetCheck)
    | .context => mark (if s1.slotState (d.id / 4) (d.id % 4) = 2 ∨ s1.slotState (d.id / 4) (d.id % 4) = 3 then
        s1.haltSlot (d.id / 4) (d.id % 4) else s1)
  s2.completeAll d.waiters stOk 0

/-! ## Draining (R408) -/

/-- R408: DRAIN, PARK, a cap below 1,200 W or a thermal drain: a disable of every LOADED package, or a part in the drain under
way. -/
def State.startDrain (s : State) (parked : Bool) (deadline : Nat) : State :=
  let hs := (s.wts.pkgs.filter (fun e => decide (e.2.st = .loaded))).map (·.1)
  let s1 := hs.foldl (fun (s : State) h => s.startDisable .model h false deadline []) s
  match s.boot.drainTo with
  | some p => { s1 with boot := { s1.boot with drainTo := some (p || parked), drainBy := min s.boot.drainBy deadline } }
  | none => ({ s1 with boot := { s1.boot with drainTo := some parked, drainBy := deadline } }).moduleTo 4

/-- SHARD_UPDATE (R336, R357, R363): HOLDER_ALT of module `m` and whether it is in service. Under DRAIN_PULL a module whose tray-mate
leaves service is itself drained, with a deadline of 60,000 ms, and enters Parked (notes/assumptions/88). -/
def execShardUpdate (src m h0 h1 h2 count : Nat) (inSvc : Bool) (able : List (Nat × Nat)) (s : State) : Res :=
  if m < 8192 ∧ count < 4 then
    .next (if s.closed src 0x2D then s else
      let s0 := s.takeInbox src 0x2D
      let s1 := (((s0.wr F.HOLDER_ALT_H0 h0 m).wr F.HOLDER_ALT_H1 h1 m).wr F.HOLDER_ALT_H2 h2 m).wr F.HOLDER_ALT_COUNT count m
      let was := s0.inService m
      let s2 := s1.wrFlag F.HOLDER_ALT_OUT (!inSvc) m
      if was ∧ ¬ inSvc then
        let s3 := ((s2.abortLists m).supplierGone m).tkReassign able m
        if s3.trayMate = some m ∧ ¬ s3.flag F.SERVICE_CFG_POLICY then
          (if s3.modState = 3 ∨ s3.modState = 4 then s3.startDrain true (s3.now + 60000000000) else if s3.modState = 2 then s3.parkNow else s3)
        else s3
      else s2)
  else .refused (.noSuchUnit "module")

/-- R408: sealed near pages without another copy. -/
def State.nearOnly (s : State) : List Nat :=
  (s.mas.pages.filter (fun e => e.2.isSealed && e.2.near && !e.2.bulk && !e.2.deep && !e.2.freeing)).map (·.1)

/-- R408: no work is left and every package has been switched out: the module becomes Ready, or demotes what would be lost, by
the deadline, and enters Parked. -/
def State.finishDrain (s : State) : State :=
  match s.boot.drainTo with
  | none => s
  | some parked =>
    if s.stew.disables.any (fun d => decide (d.kind = .model)) || s.wts.pkgs.any (fun e => decide (e.2.st = .loaded)) then s
    else
      let s1 := s.wts.pkgs.foldl (fun (s : State) e => if e.2.switching.isSome then s.failSwitch e.1 stRefused else s) s
      if parked then
        let s2 := s1.nearOnly.foldl (fun (s : State) pn => match s.pte pn with
          | some p => if p.moving then s else (s.demote pn 2).1
          | none => s) s1
        if s2.nearOnly.isEmpty ∨ s2.boot.drainBy ≤ s2.now then s2.parkNow else s2
      else ({ s1 with boot := { s1.boot with drainTo := none } }.diesIdle).moduleTo 2

/-- DRAIN_DEADLINE (R266, R324, R408): at a disable's deadline the running steps of its function are aborted and its requests go
to a replica on module `replica`, where one accepts them, or end ABORTED; flits left on a link port are resprayed. -/
def execDrainDeadline (k : FnKind) (id : Nat) (replica : Option Nat) (s : State) : Res :=
  .next (match s.stew.disables.find? (fun d => decide (d.kind = k) && decide (d.id = id)) with
    | none => s
    | some d =>
      if s.now < d.deadline then s
      else if k = .linkPort then s.endDisable d
      else
        let s1 := { s with stew := { s.stew with
          disables := s.stew.disables.map (fun e => if e = d then { d with passed := [0, 1, 2, 3] } else e) } }
        (s1.cutFlights k id).moveWork k id replica)

/-- DISABLE_COMPLETE (R266, R408, R407): no work of the function remains. Without such a disable, a drain whose work is done
goes on. -/
def execDisableComplete (k : FnKind) (id : Nat) (s : State) : Res :=
  .next (match s.stew.disables.find? (fun d => decide (d.kind = k) && decide (d.id = id)) with
    | none => s.finishDrain
    | some d => if s.workDone d then ((s.endDisable d).restReady).finishDrain else s)

/-- STEWARD_TAKEOVER (R250): with no standby that holds a copy both complexes have failed, and with them the module. -/
def execStewardTakeover (s : State) : Res :=
  .next (if ¬ s.flag F.STEWARD_STATUS_STANDBY_READY ∧ 2 ≤ s.modState ∧ s.modState ≤ 4 then s.moduleFault else s.stewardTakeover)

/-- DIE_POWER_DOWN (R20, R91, R403): firmware or the power controller asks for A2, or A3; refused while a slot holds tokens. -/
def execDiePowerDown (die : Nat) (a3 : Bool) (s : State) : Res :=
  onDie die (.next (
    if s.fuses.retiredDies.contains die ∨ 3 ≤ s.dieP die ∨ ¬ s.dieQuiet die then s.turnAway "DIE_POWER_DOWN"
    else if a3 then ((s.dieToA3 die).settleLost [die]).velvetCheck
    else if s.dieP die = 2 then s else s.dieToA2 die))

/-- DIE_WAKE (R403): a die in A2 reaches A0. -/
def execDieWake (die : Nat) (s : State) : Res :=
  onDie die (.next (if s.dieP die = 2 then s.dieToA0 die else s.turnAway "DIE_WAKE"))

/-- R404: a die with nothing to do: no slot ACTIVE or an idle active context, no stream entry to issue or complete, no transfer
and no waiting traffic. -/
def State.dieRests (s : State) (die : Nat) : Bool :=
  (match s.active die with
   | none => true
   | some _ => SMap.getD s.arr.idlePosted die false) &&
  (List.range 64).all (fun st =>
    (s.stream die st).flying.all (fun f => !rousing (eOpc f.word.toNat)) &&
    (decide (s.validCount die st = 0) || !(decide (s.strState die st = 1)) ||
      !rousing (eOpc (s.cmdAt die st (s.headPtr die st))))) &&
  (List.range 4).all (fun c => !s.outsideWork die c) &&
  !s.arr.feed.any (fun e => decide (e.1 / 4 / 65536 = die) && !e.2.isEmpty)

/-- A1_ENTRY (R404): a die idle for A1_IDLE_US enters A1; A1_IDLE_US = 0 keeps it in A0. -/
def execA1Entry (die : Nat) (s : State) : Res :=
  let us := s.rd F.A1_CFG_A1_IDLE_US
  onDie die (.next (if s.dieP die = 0 ∧ us ≠ 0 ∧ s.dieRests die ∧ 1000 * us ≤ SMap.getD s.arr.restFor die 0 then
    s.setDieP die 1 else s))

/-- A1_WAKE (R404): work for the die, or an access to its window; a stream held by the wake counts POWER_CAP. -/
def execA1Wake (die : Nat) (held : Option Nat) (cycles : Nat) (s : State) : Res :=
  onDie die (.next (if s.dieP die = 1 then
      let s1 := s.setDieP die 0
      match held with
      | some st => if st < 64 then s1.bump F.STREAM_STALL_COUNT cycles (16 * st + 10) (.die die) else s1
      | none => s1
    else s))

end Sys2Proof.Machine
end

