-- ==== Sys2Proof/Machine/Integrity.lean ====
section
/-!
DEFINITION. Fault messages and what they lead to (R218, R219, R359 to R361, R375, R376), known-answer tests (R372), patrol scrub
(R377, R378), lockstep (R136), the repair of a tile (R23, R359) and the retirement of stacks (R220, R360).
-/
namespace Sys2Proof.Machine

/-- R361: a die with fewer than four Serge pairs, or without stacks, is retired: a DISABLE with RETIRE and a 50 ms deadline. -/
def State.retireRule (s : State) (die : Nat) : State :=
  let pairs := (s.fuses.retiredPairs.filter (fun e => decide (e.1 = die))).length
  let lost := (s.fuses.retiredStacks.filter (fun k => decide (k / 5 = die))).length
  if s.fuses.retiredDies.contains die ∨ (pairs ≤ 4 ∧ lost < 5) then s
  else s.startDisable .die die true (s.now + 50000000) []

/-- LOCKSTEP_MISMATCH (R136, R250, R361): a Serge pair stops. On a compute die its dispatches are abandoned and the steps of
its streams aborted; a second mismatch within 24 hours retires it. Pairs of the steward (dies 4 and 5) are recorded. -/
def execLockstepMismatch (die pair : Nat) (replica : Option Nat) (s : State) : Res :=
  if die < 4 ∧ pair < 8 then
    .next (
      let k := die * 8 + pair
      let again := match SMap.find? s.strm.mismatchAt k with
        | some t => decide (s.now < t + 86400000000000)
        | none => false
      let w := Win.die die
      let s1 := (s.wr F.SERGE_STATUS_ONLINE 0 pair w).bumpSat F.SERGE_STATUS_MISMATCHES pair w
      let s2 := s1.detect { errOf 0x0E 5 pair die with action := if again then 5 else 2 }
      let sts := (List.range 8).map (· + 8 * pair)
      let s3 := { s2 with strm := { s2.strm with
        mismatchAt := SMap.insert s2.strm.mismatchAt k s.now
        dispatches := SMap.mapVals s2.strm.dispatches (fun c (d : Dispatch) =>
          if c / 4 = die ∧ sts.contains d.stream then { d with abandoned := true } else d) } }
      let s4 := sts.foldl (fun (s : State) st =>
        ((s.stream die st).stepSlots).foldl (fun (s : State) c => s.faultStep die c replica) s) s3
      if again then
        let s5 := s4.pairOffline die pair
        { s5 with fuses := { s5.fuses with
          retiredPairs := if s5.fuses.retiredPairs.contains (die, pair) then s5.fuses.retiredPairs
            else s5.fuses.retiredPairs ++ [(die, pair)] } }.retireRule die
      else s4)
  else if die < 6 ∧ pair < 4 then .next (s.detect { errOf 0x0F 11 pair die with action := 2 })
  else .refused (.noSuchUnit "Serge pair")

/-- STACK_RETIRE (R220, R360, R361, R362). -/
def execStackRetire (k : Nat) (s : State) : Res :=
  if k < 20 then .next ((s.retireStack k).retireRule (k / 5)) else .refused (.noSuchUnit "stack")

/-! ## Pages with a bad copy (R218, R219, R377) -/

/-- R377: requests whose KV state a page held leave their micro-batches and rebuild, as after preemption, without a charge. -/
def State.rebuildKv (s : State) (pn : Nat) : State :=
  s.stew.reqs.foldl (fun (s : State) e =>
    if admitted e.2 && decide (e.2.run ≤ pn) && decide (pn < e.2.run + e.2.reserved) then
      let h := rqPkg (rqD e.2)
      let fs := ((s.flightsOf h).map (fun f => if f.stepped then f else
        { f with rows := f.rows.filter (fun r => decide (r.1 ≠ e.1)) })).filter (fun f => f.stepped || !f.rows.isEmpty)
      let s1 := (s.setFlights h fs).dropKv e.1
      match s1.req e.1 with
      | some r => s1.setReq e.1 { r with st := .preempted, flying := none }
      | none => s1
    else s) s

/-- R218, R377: the near frame of a page is retired. A sealed page drops that copy, and with `again` is promoted afresh from
another; a writable page gets a new zeroed frame, on its die when there is one, and without any frame is gone. -/
def State.badNear (s : State) (pn : Nat) (again : Bool) : State :=
  match s.pte pn with
  | none => s
  | some p =>
    if !p.near then s
    else
      let s1 := s.retireNear p
      if p.isSealed then
        let s2 := (s1.dropNear pn).fixJob pn
        if p.bulk || p.deep then (if again then s2.requestPromotion pn (p.nearStack / 5) 0 else s2) else s2.settleLost []
      else
        let dies := (List.range 5).map (· + 5 * (p.nearStack / 5))
        let s2 := if (s1.fullest dies).isSome then s1.movePage pn dies
          else if 0 < s1.nearFree then
            (match s1.pickStack (p.nearStack / 5) with
             | some k => s1.movePage pn [k]
             | none => s1)
          else (s1.shootdown pn).dropPte pn
        (s2.masZero (pn * pageBytes) pageBytes).rebuildKv pn

/-- R219: the bulk copy of a page is bad. -/
def State.badBulk (s : State) (pn : Nat) : State :=
  match s.pte pn with
  | none => s
  | some p => if p.bulk then ((s.dropBulkOf pn p).settleLost []).settleMig else s
/-- R219: the deep copy of a page is bad. -/
def State.badDeep (s : State) (pn : Nat) : State :=
  match s.pte pn with
  | none => s
  | some p => if p.deep then ((s.dropDeepOf pn p).settleLost []).settleMig else s

/-! ## Ends of transfers (R200, R203, R219) -/

/-- PROMOTION_COMPLETE (R200, R203, R208, R219): the engine `part.1` has done its part of the promotion of page `part.2`. The last part done
and CHECK verified, the page becomes near; with a bad source (`ok` false) that copy is dropped, and the promotion goes on from
the other copy, or the page is lost. -/
def execPromotionComplete (part : Nat × Nat) (ok : Bool) (s : State) : Res :=
  if 2 ≤ part.1 then .refused (.noSuchUnit "migration engine")
  else
    let pn := part.2
    let s0 := s.placeWaiting
    .next (match s0.jobOf pn with
      | none => s0
      | some j =>
        if j.kind ≠ .promote ∨ SMap.find? s0.mas.work part.1 ≠ some pn then s0
        else if ok then
          let r := s0.partDone part.1 j
          if r.2 then (r.1.promoted pn j).settleMig else r.1
        else ((s0.badSource pn).settleLost []).settleMig)

/-- PAGE_TRANSFER_COMPLETE (R203, R205, R209, R219): the engine `part.1` has done its part of the copy of page `part.2`: of a demotion, of a
STREAM page or of class 3. The last part done, the copy is valid, and a demotion drops the near copy; a bad source (`ok` false) is dropped. A DEMOTE
that waited for a pin or hold goes on once that has ended. -/
def execPageTransferComplete (part : Nat × Nat) (ok : Bool) (s : State) : Res :=
  if 2 ≤ part.1 then .refused (.noSuchUnit "migration engine")
  else
    let pn := part.2
    .next (match s.jobOf pn with
    | none => s
    | some j =>
      if j.kind = .demoteWait then (s.demoteNow pn).settleMig
      else if j.kind = .promote ∨ SMap.find? s.mas.work part.1 ≠ some pn then s
      else if ok then
        let r := s.partDone part.1 j
        if r.2 then (r.1.transferred pn j).settleMig else r.1
      else ((s.badSource pn).settleLost []).settleMig)

/-- DDR_CHANNEL_FAIL (R219). -/
def execDdrChannelFail (ch : Nat) (s : State) : Res :=
  if 16 ≤ ch then .refused (.noSuchUnit "channel") else .next (((s.channelFail ch).settleLost []).settleMig)
/-- DRIVE_FAIL (R204, R219). -/
def execDriveFail (d : Nat) (s : State) : Res :=
  if 16 ≤ d then .refused (.noSuchUnit "drive") else .next (((s.driveFail d).settleLost []).settleMig)

/-- R360: a stack with 4 uncorrectable errors within 24 hours is retired. -/
def State.stackRule (s : State) (k : Nat) : State :=
  let n := (s.err.history.filter (fun h => decide ((h.1 = 5 ∨ h.1 = 0x17) ∧ h.2.1 = 4 ∧ h.2.2.1 = k ∧
    s.now < h.2.2.2.2 + 86400000000000))).length
  if k < 20 ∧ 4 ≤ n then (s.retireStack k).retireRule (k / 5) else s

/-- R375: a weight-cache line with an uncorrectable error is dropped and fetched again; its reads wait. -/
def State.refetchLine (s : State) (die a : Nat) : State :=
  (List.range 2).foldl (fun (s : State) strip =>
    let k := wcKey die strip (lineOf a)
    if (s.wcSet k).any (fun w => decide (w.line = lineOf a)) then
      (s.setWc k ((s.wcSet k).map (fun w => if w.line = lineOf a then { w with filling := true } else w))).requestRange (lineOf a)
        512 die 0
    else s) s

/-! ## Detections (R369, R375, R376, R382) -/

/-- R359: a compute tile is declared faulty. -/
def State.declareFaulty (s : State) (die y x : Nat) : State :=
  if s.stew.faulty.contains (die, y, x) then s
  else { s with stew := { s.stew with faulty := s.stew.faulty ++ [(die, y, x)] } }

/-- R379: ACTION of a detection that a fault message brings. -/
def faultAction (cls : Nat) (inReplay : Bool) : Nat :=
  if cls = 1 ∨ cls = 4 ∨ cls = 6 then 1
  else if cls = 3 then 6
  else if cls = 7 ∨ cls = 8 ∨ cls = 0x18 then 5
  else if cls = 2 ∨ cls = 5 ∨ (9 ≤ cls ∧ cls ≤ 0x0C) then (if inReplay then 3 else 2)
  else 0

/-- R369, R376: the reaction to a detection of a class. -/
def State.react (s : State) (cls kind die : Nat) (slot : Option Nat) (addr : Nat) (replica : Option Nat) : State :=
  let onStep := fun (s : State) => match slot with
    | some c => s.faultStep die c replica
    | none => s
  match cls with
  | 0x02 => (match slot with
    | some c => s.freeze die c 3
    | none => s)
  | 0x03 => s.refetchLine die addr
  | 0x05 => onStep ((s.bump F.TIER_UE_VALUE).badNear (pageOf addr) true)
  | 0x07 => onStep ((s.bump F.TIER_UE_VALUE).badBulk (pageOf addr))
  | 0x08 => (fun (s : State) => if kind = 10 then s.badDeep (pageOf addr) else if kind = 4 then s.badNear (pageOf addr) true
      else s.badBulk (pageOf addr)) (s.bump F.TIER_UE_VALUE)
  | 0x09 => if kind = 12 then ((s.repeatCopy (pageOf addr)).settleLost []).settleMig else onStep s
  | 0x0A => onStep s
  | 0x0B => onStep s
  | 0x0C => onStep s
  | 0x18 => (s.bump F.TIER_UE_VALUE).badDeep (pageOf addr)
  | _ => s

/-- FAULT_MESSAGE (R375, R376, R369): a detecting unit's fault message: the detection is recorded, the affected step ends and is
replayed or goes to the module `replica`, and frames, copies, tiles and stacks are treated as their rules say. SOURCE of a
stack is its number. -/
def execFaultMessage (cls kind source die : Nat) (slot : Option Nat) (addr step detail : Nat) (replica : Option Nat)
    (s : State) : Res :=
  if cls = 0 ∨ 0x1D < cls then .refused (.noSuchUnit "fault class")
  else if 15 < kind then .refused (.noSuchUnit "unit kind")
  else if (5 < die ∧ die ≠ 255) ∨ (3 < die ∧ slot.isSome) then .refused (.noSuchUnit "die")
  else .next (
    let inReplay := match slot with
      | some c => (s.stepIn die (some c)).any (fun e => e.2.replayed)
      | none => false
    let d : ErrRec := { errOf cls kind source die with
      ctx := (match slot with
        | some c => errCtx (c % 4)
        | none => 0)
      action := faultAction cls inReplay, addr := addr, step := step, detail := detail }
    let again := s.recurs d || inReplay
    let s1 := s.detect d
    let s2 := if kind = 0 ∧ (cls = 2 ∨ cls = 0x0B ∨ cls = 0x0C) ∧ again ∧ die < 4 then
      s1.declareFaulty die (source % 32) (source / 32) else s1
    let s3 := s2.react cls kind die (slot.map (· % 4)) addr replica
    if cls = 5 ∧ kind = 4 then s3.stackRule source else s3)

/-- R396: with TIME_REPEAT in force on a die, cycles that a test holds a unit are global stalls there. -/
def State.holdAll (s : State) (die n : Nat) : State :=
  if bitOf s.arr.timeRepeat die then
    { s with arr := { s.arr with held := SMap.setD s.arr.held die (SMap.getD s.arr.held die 0 + n) 0 } }
  else s

/-- KNOWN_ANSWER_TEST (R372, R396): a unit's test. A failing unit is faulty: the record names the first and last steps it served
since its last passing test, and its die is repaired under R359. -/
def execKnownAnswerTest (die kind source : Nat) (ok : Bool) (first last : Nat) (s : State) : Res :=
  if 5 < die then .refused (.noSuchUnit "die")
  else .next (
    let s1 := if die < 4 then (s.bump F.DIE_STALL_COUNT 512 11 (.die die)).holdAll die 512 else s
    if ok then s1
    else
      let s2 := s1.detect { errOf 0x0D kind source die with step := first, detail2 := last }
      if kind = 0 ∧ die < 4 then s2.declareFaulty die (source % 32) (source / 32) else s2)

/-- PATROL_SCRUB (R370, R377, R378): scrub of memory `mem` (0 near, 1 bulk, 2 SRAM, 3 deep) ends a pass, corrects an error, or
finds one that it cannot correct in a unit; no step is aborted. -/
def execPatrolScrub (mem : Nat) (out : ScrubOut) (kind source die addr : Nat) (s : State) : Res :=
  if 3 < mem then .refused (.noSuchUnit "memory")
  else .next (match out with
    | .passed => { s with err := { s.err with scrubAt := SMap.insert s.err.scrubAt mem s.now } }
    | .corrected =>
      if mem = 3 then s
      else s.detect { errOf ([4, 6, 1].getD mem 1) kind source die with action := 1, addr := addr }
    | .uncorrectable =>
      let s1 := s.detect { errOf 0x17 kind source die with action := (if mem = 2 then 0 else 5), addr := addr }
      match mem with
      | 0 => ((s1.bump F.TIER_UE_VALUE).badNear (pageOf addr) false).stackRule source
      | 1 => (s1.bump F.TIER_UE_VALUE).badBulk (pageOf addr)
      | 3 => (s1.bump F.TIER_UE_VALUE).badDeep (pageOf addr)
      | _ => s1)

/-! ## Column repair (R23, R359) -/

/-- R22, R23: the physical columns of a die not retired by repairs, from the west. -/
def State.columns (s : State) (die : Nat) : List Nat :=
  let gone := (s.fuses.repairs.filter (fun e => decide (e.1 = die))).flatMap (fun e => [e.2 % 32, e.2 / 32])
  (List.range 26).filter (fun c => !gone.contains c)
/-- R23: the pair to retire for a fault in logical column `x`: the faulty column and its east neighbour, or its west neighbour
when it is the easternmost in use. The neighbour is the next column in use: after an earlier repair the two may lie apart,
DESIGN CHOICE: notes/assumptions/107. -/
def State.repairPair (s : State) (die x : Nat) : Nat :=
  let cs := s.columns die
  if x + 1 = s.cols then cs.getD (x - 1) 0 + 32 * cs.getD x 0 else cs.getD x 0 + 32 * cs.getD (x + 1) 0
/-- R23, R362: fuse the shift. -/
def State.fuseRepair (s : State) (die x : Nat) : State :=
  { s with fuses := { s.fuses with repairs := s.fuses.repairs ++ [(die, s.repairPair die x)] } }.shrink

/-- COLUMN_REPAIR (R23, R91, R359, R361, R362): at a drain point of a die, no slot holding a token, the faulty tile's columns are
retired: the die goes through A2 and back to A0. Without a spare pair the die is retired. -/
def execColumnRepair (die y x : Nat) (s : State) : Res :=
  onSite s die y x (.next (
    if !s.stew.faulty.contains (die, y, x) || !s.dieQuiet die || s.fuses.retiredDies.contains die || decide (2 < s.dieP die) then
      s.turnAway "COLUMN_REPAIR"
    else
      let s1 := { s with stew := { s.stew with faulty := s.stew.faulty.filter (fun t => decide (t.1 ≠ die ∨ t.2.2 ≠ x)) } }
      if s1.spareCols die < 2 then s1.startDisable .die die true (s1.now + 50000000) []
      else ((s1.dieToA2 die).fuseRepair die x).dieToA0 die))

/-! ## Velvet (R20, R307, R361) -/

/-- VELVET_EDGE_LOSS (R20, R307, R361): an edge leaves service, with what that leaves unreachable. -/
def execVelvetEdgeLoss (e : Nat) (s : State) : Res :=
  if e < 6 then .next ((s.wr F.VELVET_EDGE_MODULES_UP 0 e).edgeState e).velvetCheck
  else .refused (.noSuchUnit "velvet edge")

/-- UCIE_RETRAIN (R20, R307): a module in service with 16 CRC failures within 1 ms is retrained; one that fails to retrain stays
out of service until the next cold reset, and the last module takes its edge along. -/
def execUcieRetrain (e j : Nat) (ok : Bool) (s : State) : Res :=
  onEdge e j (.next (
    if 16 ≤ (s.crcTimes e j).length ∧ bitOf (s.rd F.VELVET_EDGE_MODULES_UP e) j then
      let s1 := (s.bumpSat F.VELVET_EDGE_RETRAINS e)
      let s2 := { s1 with link := { s1.link with crcAt := SMap.erase s1.link.crcAt (16 * e + j) } }
      if ok then s2
      else ((s2.wr F.VELVET_EDGE_MODULES_UP (s2.rd F.VELVET_EDGE_MODULES_UP e - 2 ^ j) e).edgeState e).velvetCheck
    else s))

end Sys2Proof.Machine
end

