-- ==== Sys2Proof/Machine/Sm2.lean ====
section
/-!
DEFINITION. SM2 (GB/T 32918) on its recommended curve, as the standard defines it (PRESUMED, notes/assumptions/14): points,
signatures, the key derivation function and the key exchange; and the keys of R445.
-/
namespace Sys2Proof.Machine

namespace Sm2

def p : Nat := 0xFFFFFFFEFFFFFFFFFFFFFFFFFFFFFFFFFFFFFFFF00000000FFFFFFFFFFFFFFFF
def n : Nat := 0xFFFFFFFEFFFFFFFFFFFFFFFFFFFFFFFF7203DF6B21C6052B53BBF40939D54123
def a : Nat := p - 3
def b : Nat := 0x28E9FA9E9D9F5E344D5A9E4BCF6509A7F39789F515AB8F92DDBCBD414D940E93
def gx : Nat := 0x32C4AE2C1F1981195F9904466A39C9948FE30BBFF2660BE1715A4589334C74C7
def gy : Nat := 0xBC3736A2F4F6779C59BDCEE36B692153D0A9877CC62A474002DF32E52139F0A0

/-- Addition of field elements, as the sum of a number and what another leaves to the modulus. -/
def sub (m x y : Nat) : Nat := (x + (m - y % m)) % m
/-- Power modulo m, from the lowest bit of the exponent. -/
def powGo (m : Nat) : Nat → Nat → Nat → Nat → Nat
  | 0, _, _, acc => acc
  | k + 1, x, e, acc => powGo m k (x * x % m) (e / 2) (if e % 2 = 1 then acc * x % m else acc)
def pow (m x e : Nat) : Nat := powGo m 256 (x % m) e 1
/-- Inverse modulo a prime. -/
def inv (m x : Nat) : Nat := pow m x (m - 2)

/-- A point; none is the point at infinity. -/
abbrev Point := Option (Nat × Nat)
def base : Point := some (gx, gy)
def onCurve : Point → Bool
  | none => false
  | some (x, y) => decide (x < p) && decide (y < p) && decide (y * y % p = (x * x % p * x + a * x + b) % p)
/-- Third intersection of a chord or tangent of slope l. -/
def chord (l x1 y1 x2 : Nat) : Point :=
  let x := sub p (sub p (l * l) x1) x2
  some (x, sub p (l * sub p x1 x) y1)
def add : Point → Point → Point
  | none, q => q
  | q, none => q
  | some (x1, y1), some (x2, y2) =>
    if x1 = x2 then
      (if (y1 + y2) % p = 0 then none
       else chord ((3 * x1 * x1 + a) % p * inv p (2 * y1) % p) x1 y1 x2)
    else chord (sub p y2 y1 * inv p (sub p x2 x1) % p) x1 y1 x2
/-- k times a point, from the lowest bit of k. -/
def mulGo : Nat → Nat → Point → Point → Point
  | 0, _, _, acc => acc
  | f + 1, k, q, acc => mulGo f (k / 2) (add q q) (if k % 2 = 1 then add acc q else acc)
def mul (k : Nat) (q : Point) : Point := mulGo 256 k q none
def xOf (q : Point) : Nat := (q.getD (0, 0)).1
def yOf (q : Point) : Nat := (q.getD (0, 0)).2

/-- A number as 32 bytes, the highest first, and back. -/
def toBe (v : Nat) : List Byte := (toBytes v 32).reverse
def ofBe (bs : List Byte) : Nat := ofBytes bs.reverse
/-- A point as 64 bytes, x then y, and back. -/
def pointBytes (q : Point) : List Byte := toBe (xOf q) ++ toBe (yOf q)
def pointOf (bs : List Byte) : Point := some (ofBe (bs.take 32), ofBe ((bs.drop 32).take 32))

/-- The default distinguishing identifier, and Z of a user. -/
def userId : List Byte := [0x31, 0x32, 0x33, 0x34, 0x35, 0x36, 0x37, 0x38, 0x31, 0x32, 0x33, 0x34, 0x35, 0x36, 0x37, 0x38]
def zOf (q : Point) : List Byte :=
  Sm3.digest ([0x00, 0x80] ++ userId ++ toBe a ++ toBe b ++ toBe gx ++ toBe gy ++ pointBytes q)
/-- e of a message. -/
def hash (q : Point) (msg : List Byte) : Nat := ofBe (Sm3.digest (zOf q ++ msg))

/-- Whether r then s is the signature of a message under a public key. -/
def verify (key msg sig : List Byte) : Bool :=
  let q := pointOf key
  let r := ofBe (sig.take 32)
  let s := ofBe ((sig.drop 32).take 32)
  let t := (r + s) % n
  decide (key.length = 64) && decide (sig.length = 64) && onCurve q && decide (1 ≤ r) && decide (r < n) && decide (1 ≤ s) &&
    decide (s < n) && decide (t ≠ 0) && decide ((hash q msg + xOf (add (mul s base) (mul t q))) % n = r)
/-- The signature of a message under a private key with the random number k. -/
def sign (d k : Nat) (msg : List Byte) : List Byte :=
  let r := (hash (mul d base) msg + xOf (mul k base)) % n
  toBe r ++ toBe (inv n (1 + d) * sub n k (r * d) % n)

/-- The key derivation function: `len` bytes. -/
def kdf (z : List Byte) (len : Nat) : List Byte :=
  (((List.range ((len + 31) / 32)).flatMap (fun i => Sm3.digest (z ++ (toBytes (i + 1) 4).reverse))).take len)

/-- The part of a coordinate that the key exchange uses. -/
def bar (x : Nat) : Nat := 2 ^ 127 + x % 2 ^ 127
/-- The responder's side of the key exchange: its private key d and ephemeral r, the initiator's key and ephemeral point. Answers
the 64 bytes of key and the confirmation values S_B and S_A. -/
def respond (d r : Nat) (qa ra : Point) : List Byte × List Byte × List Byte :=
  let rb := mul r base
  let t := (d + bar (xOf rb) * r) % n
  let v := mul t (add qa (mul (bar (xOf ra)) ra))
  let za := zOf qa
  let zb := zOf (mul d base)
  let inner := Sm3.digest (toBe (xOf v) ++ za ++ zb ++ pointBytes ra ++ pointBytes rb)
  (kdf (pointBytes v ++ za ++ zb) 64, Sm3.digest ([0x02] ++ toBe (yOf v) ++ inner), Sm3.digest ([0x03] ++ toBe (yOf v) ++ inner))

end Sm2

/-- The bytes of a name of R445. -/
def ascii (s : String) : List Byte := s.toList.map (fun c => BitVec.ofNat 8 c.toNat)
/-- R445: a private value from 32 bytes of key. -/
def privateOf (k : List Byte) : Nat := 1 + Sm2.ofBe k % (Sm2.n - 1)
/-- R445: the epoch's identity key. -/
def State.ik (s : State) : Nat :=
  privateOf (Sm2.kdf (bytesOf (Config.seed s.epoch) ++ ascii "DCV-IK" ++ toBytes s.epoch 1) 32)
/-- R445: the attestation key of a start-up. -/
def State.ak (s : State) : Nat :=
  privateOf (Sm2.kdf (bytesOf (Config.seed s.epoch) ++ ascii "DCV-AK" ++ s.boot.mFw ++ toBytes (s.rd F.BOOT_COUNT_VALUE) 4) 32)
/-- R445: IK exists from PROVISIONED on, until its seed is gone. -/
def State.hasIk (s : State) : Bool := match s.lc with
  | .provisioned => true
  | .deployed => true
  | .returned => true
  | _ => false

end Sys2Proof.Machine
end

