-- ==== Sys2Proof/Machine/Boot.lean ====
section
/-!
DEFINITION. Boot and life cycle (R428 to R448): the checks of an image and of a configuration record's form, entering and leaving
recovery, staging and commit, life-cycle transitions, and the module reset land.
-/
namespace Sys2Proof.Machine

/-! ## The firmware image (R433, R434) -/

def maxImage : Nat := 62 * 1048576
def imgLength (b : List Byte) : Nat := at' b 16 4
def imgSvn (b : List Byte) : Nat := at' b 12 4
def imgSlot (b : List Byte) : Nat := at' b 22 1
def imgRevoke (b : List Byte) : Nat := bitsOf (at' b 7 1) 4 4
def imgRaises (b : List Byte) : Bool := bitOf (at' b 7 1) 0
def imgVersion (b : List Byte) : Nat := at' b 8 4
/-- R434 check 1. LENGTH is from the header to the bytes that are there (notes/assumptions/28). -/
def imgPresent (b : List Byte) : Bool :=
  decide (at' b 0 4 = 0x574D5844) && decide (at' b 4 2 = 1) && decide (1024 ≤ imgLength b) && decide (imgLength b ≤ maxImage) &&
  decide (imgLength b ≤ b.length)
/-- R434 check 2. -/
def State.imgKey (s : State) (b : List Byte) : Bool :=
  decide (imgSlot b < 4) && decide (Sm3.digest ((b.drop 24).take 64) = s.fuses.keyDigests.getD (imgSlot b) []) &&
  !bitOf s.fuses.revoked (imgSlot b)
/-- R434 check 3. -/
def imgSigned (b : List Byte) : Bool := Sm2.verify ((b.drop 24).take 64) (b.take 960) ((b.drop 960).take 64)
/-- R434 check 5. -/
def State.imgGrade (s : State) (b : List Byte) : Bool := bitOf (at' b 6 1) (match s.fuses.grade with
  | .dxg4140 => 0
  | .dxg4120 => 1)
/-- R434 check 6. -/
def imgDigests (b : List Byte) : Bool := (List.range (at' b 20 2)).all (fun k =>
  let e := 96 + 48 * k
  decide (Sm3.digest ((b.drop (at' b e 4)).take (at' b (e + 4) 4)) = (b.drop (e + 16)).take 32))

/-- R434: the first of checks 1 to 5 that fails, as BOOT_STATUS.CAUSE, or 0. -/
def State.headerCause (s : State) (b : List Byte) : Nat :=
  if !imgPresent b then 1
  else if !s.imgKey b then 2
  else if !imgSigned b then 3
  else if imgSvn b < s.fuses.svnFloor then 4
  else if !s.imgGrade b then 5
  else 0
/-- R434: the first check that fails. -/
def State.imageCause (s : State) (b : List Byte) : Nat :=
  let c := s.headerCause b
  if c ≠ 0 then c else if imgDigests b then 0 else 6

/-- R435, R437: what a verified image's header carries out: REVOKE, never of the slot that signed it, and RAISE_FLOOR. -/
def State.carryOut (s : State) (b : List Byte) : State :=
  let rev := (List.range 4).foldl (fun a k => if bitOf (imgRevoke b) k && decide (k ≠ imgSlot b) && !bitOf a k then a + 2 ^ k else a)
    s.fuses.revoked
  let floor := if imgRaises b then max s.fuses.svnFloor (imgSvn b) else s.fuses.svnFloor
  { s with fuses := { s.fuses with revoked := rev, svnFloor := floor } }

/-! ## Recovery (R434, R435) -/

/-- R433: a segment's offset, length and target. -/
def imgSeg (b : List Byte) (k : Nat) : List Byte := (b.drop (at' b (96 + 48 * k) 4)).take (at' b (100 + 48 * k) 4)
def imgTarget (b : List Byte) (k : Nat) : Nat := at' b (104 + 48 * k) 4
/-- R431: the segments of an image that phase 5 loads into the system span. -/
def imgSpan (b : List Byte) : List (List Byte) :=
  ((List.range (at' b 20 2)).filter (fun k => decide (imgTarget b k = 1))).map (imgSeg b)

/-- R434, R435, R406: recovery begins, with its first attempt, in Keep-alive: only the Muslin domain and the boot ROM of ID0 run;
the limit of the start-up stops. -/
def State.enterRecovery (s : State) (cause : Nat) : State :=
  let s1 := (((s.stopCores.wr F.BOOT_STATUS_STAGE 8).wr F.BOOT_STATUS_CAUSE cause).bumpSat F.BOOT_STATUS_RECOVERY_TRIES).moduleTo 1
  ({ s1 with boot := { s1.boot with recovering := true, triedAt := s.now, bootBy := none } }).faultFrom s

/-- RECOVERY (R435, R447): an attempt of recovery ends. `got` is the image that arrived, none when no server answered or the
transfer failed before a block was written; `whole` that every block arrived. -/
def execRecovery (got : Option (List Byte)) (whole disagree : Bool) (s : State) : Res :=
  .next (if !s.boot.recovering then s
    else match got with
      | none => s
      | some b =>
        let put := fun (s : State) (b : List Byte) => { s with boot := { s.boot with nor := { s.boot.nor with image := b } } }
        if !whole ∨ maxImage < b.length then put s []
        else
          let s1 := put s b
          let c := if disagree then 7 else s1.imageCause b
          if c ≠ 0 then s1.wr F.BOOT_STATUS_CAUSE c
          else
            let s2 := ((s1.carryOut b).wr F.BOOT_CFG_FORCE_RECOVERY 0).wr F.BOOT_STATUS_STAGE 3
            ({ s2 with boot := { s2.boot with
              recovering := false
              bootBy := some (s.now + 1000000000 * s.rd F.BOOT_CFG_BOOT_LIMIT_S) } }).faultFrom s)

/-- RECOVERY_RETRY (R435): 10 s after the last attempt recovery starts again. -/
def execRecoveryRetry (s : State) : Res :=
  .next (if s.boot.recovering ∧ s.boot.triedAt + 10000000000 ≤ s.now then
      ({ s with boot := { s.boot with triedAt := s.now } }).bumpSat F.BOOT_STATUS_RECOVERY_TRIES
    else s)

/-- BOOT_LIMIT (R434): a start-up not Ready within BOOT_LIMIT_S of its READY stops in Parked. -/
def execBootLimit (s : State) : Res :=
  .next (match s.boot.bootBy with
    | none => s
    | some t =>
      if s.now < t ∨ s.rd F.BOOT_STATUS_STAGE = 0 ∨ 6 < s.rd F.BOOT_STATUS_STAGE then s
      else
        let s1 := ((s.wr F.BOOT_STATUS_CAUSE 9).endStartup 9)
        (s1.diesOff.moduleTo 5).faultFrom s)

/-! ## Cold reset (R432, R469) -/

/-- R432: a cold reset, and the start-up that follows with RESTART or AUTO_READY. -/
def State.resetThen (s : State) (cause : Nat) (restart : Bool) : State :=
  let s1 := s.coldReset cause
  if restart ∨ s1.flag F.BOOT_CFG_AUTO_READY then s1.beginStartup else s1

/-- R432, R437, R447, R458: whether a COLD_RESET write is refused in the present state. -/
def State.resetRefused (s : State) : Bool :=
  decide (s.modState = 3 ∨ s.modState = 4 ∨ s.modState = 6) || decide (s.rd F.STAGE_STATUS_STATE = 3) || s.boot.recovering

/-- MOD_RST_N (R469, R476): the land is asserted: a cold reset, in which the module is held. -/
def execModRstN (s : State) : Res :=
  .next (if s.boot.off then { s with boot := { s.boot with held := true } }
    else
      let s1 := s.coldReset 1
      { s1 with boot := { s1.boot with held := true } })
/-- MOD_RST_N_RELEASE (R469, R430): the land is released: Keep-alive, or start-up with AUTO_READY once the soft start has ended. -/
def execModRstNRelease (s : State) : Res :=
  .next (if !s.boot.held then s
    else
      let s1 : State := { s with boot := { s.boot with held := false } }
      if s.boot.off ∨ !(s1.flag F.BOOT_CFG_AUTO_READY) then s1
      else if s.boot.softUntil.isSome then { s1 with boot := { s1.boot with readyWaits := true } }
      else s1.beginStartup)

/-! ## Staging and commit (R436, R437, R448) -/

/-- R436: a START is accepted. -/
def State.mayStage (s : State) : Bool :=
  decide (s.modState = 2 ∨ s.modState = 3 ∨ s.modState = 4 ∨ s.modState = 5) &&
  decide (s.rd F.STAGE_STATUS_STATE = 0 ∨ s.rd F.STAGE_STATUS_STATE = 4 ∨ s.rd F.STAGE_STATUS_STATE = 5)
/-- R436: the fetch begins. -/
def State.stageStart (s : State) : State :=
  let s1 := ((s.wr F.STAGE_STATUS_STATE 1).wr F.STAGE_STATUS_ERR 0).wr F.STAGE_STATUS_PROGRESS 0
  { s1 with boot := { s1.boot with staged := none, blockAt := s.now } }
/-- R436, R437: a fetch or a commit fails. -/
def State.stageFail (s : State) (err : Nat) : State :=
  let s1 := (s.wr F.STAGE_STATUS_STATE 5).wr F.STAGE_STATUS_ERR err
  { s1 with boot := { s1.boot with staged := none } }
/-- R448: the staged copy is discarded. -/
def State.stageDrop (s : State) : State :=
  let s1 := ((s.wr F.STAGE_STATUS_STATE 0).wr F.STAGE_STATUS_ERR 0).wr F.STAGE_STATUS_PROGRESS 0
  { s1 with boot := { s1.boot with staged := none } }
/-- The NOR region of a kind takes its bytes. -/
def State.norPut (s : State) (kind : Nat) (b : List Byte) : State :=
  let n := s.boot.nor
  { s with boot := { s.boot with nor := if kind = 0 then { n with image := b } else { n with config := b } } }
/-- R437: the commit begins: the header is erased before anything else. -/
def State.commitStart (s : State) : State :=
  match s.boot.staged with
  | none => s
  | some (k, _) => ((s.wr F.STAGE_STATUS_STATE 3).wr F.STAGE_STATUS_PROGRESS 0).norPut k []

/-- STAGE_FETCH_TIMEOUT (R436): no block for 2 s. -/
def execStageFetchTimeout (s : State) : Res :=
  .next (if s.rd F.STAGE_STATUS_STATE = 1 ∧ s.boot.blockAt + 2000000000 ≤ s.now then s.stageFail 13 else s)

/-- COMMIT_COMPLETE (R437): the region is written and read back as `back`; when that is the staged copy, an image's REVOKE and
RAISE_FLOOR are carried out. -/
def execCommitComplete (back : List Byte) (s : State) : Res :=
  .next (match s.boot.staged with
    | none => s
    | some (k, b) =>
      if s.rd F.STAGE_STATUS_STATE ≠ 3 then s
      else
        let s1 := (s.norPut k back).wr F.STAGE_STATUS_PROGRESS ((b.length + 4095) / 4096)
        if back = b then
          let s2 := if k = 0 then s1.carryOut b else s1
          let s3 := s2.wr F.STAGE_STATUS_STATE 4
          { s3 with boot := { s3.boot with staged := none } }
        else s1.stageFail 15)

/-! ## The configuration record (R438 to R440) -/

/-- R439: the platform root key, when the module accepts it. -/
def State.rootKey (s : State) : Option (List Byte) :=
  if bitOf s.fuses.roots s.epoch ∧ Sm3.digest s.boot.nor.rootKey = s.fuses.rootDigests.getD s.epoch [] then some s.boot.nor.rootKey
  else none
def cfgLength (b : List Byte) : Nat := at' b 20 4
def cfgSeq (b : List Byte) : Nat := at' b 16 4
def cfgSeals (b : List Byte) : Bool := bitOf (at' b 6 1) 0
/-- R438: a record's entries. -/
def cfgEntries (b : List Byte) : List (List Byte) := (List.range (at' b 24 4)).map (fun k => (b.drop (64 + 32 * k)).take 32)
def allZero (bs : List Byte) : Bool := bs.all (fun x => decide (x = 0))
/-- R438, R440: a record whose header is valid. -/
def State.cfgHeader (s : State) (b : List Byte) : Bool :=
  decide (at' b 0 4 = 0x46435844) && decide (at' b 4 2 = 1) && decide (at' b 6 1 < 2) && decide (at' b 7 1 = 0) &&
  decide (at' b 8 8 = s.fuses.serial) && decide (1 ≤ cfgSeq b) && decide (cfgLength b = 128 + 32 * at' b 24 4) &&
  decide (cfgLength b ≤ 1048576) && decide (cfgLength b ≤ b.length) && allZero ((b.drop 28).take 36)
/-- R440: everything but the REG entries: header, signature and SEQ. -/
def State.cfgOk (s : State) (b : List Byte) : Bool :=
  s.cfgHeader b && (match s.rootKey with
    | some k => Sm2.verify k (b.take (cfgLength b - 64)) ((b.drop (cfgLength b - 64)).take 64)
    | none => false) && decide (s.boot.nor.lastSeq ≤ cfgSeq b)

/-! ## Life cycle (R441 to R444) -/

/-- Burn a pair of the current epoch's word, or of another epoch's. -/
def State.burn (s : State) (e k : Nat) : State :=
  { s with fuses := { s.fuses with lcWords := (List.range 4).map (fun i =>
    if i = e then s.fuses.lcWords.getD i 0 ||| 3 * 4 ^ k else s.fuses.lcWords.getD i 0) } }
/-- R443: into RETIRED: the pair and every unburned seed fuse; then a cold reset. -/
def State.retireModule (s : State) : State :=
  ({ s with fuses := { s.fuses with retiredPair := 3, seeds := 15 } }).resetThen 3 false

/-- R444: a request of the owner is armed. -/
def State.lcArm (s : State) (target : Nat) : State :=
  let s1 := (s.wr F.LC_REQUEST_TARGET target).wr F.LC_REQUEST_ARMED 1
  { s1 with boot := { s1.boot with lcAt := some s.now } }
/-- R444: disarm. -/
def State.lcDisarm (s : State) : State :=
  let s1 := s.wr F.LC_REQUEST_ARMED 0
  { s1 with boot := { s1.boot with lcAt := none } }
/-- R443, R444: the owner's transition to the target, when it and its conditions allow it. -/
def State.lcGo (s : State) (target : Nat) : Option State :=
  if s.rd F.STAGE_STATUS_STATE = 3 then none
  else match s.lc, target with
    | .provisioned, 3 => if s.modState = 2 ∧ s.rd F.CFG_SEQ_VALUE ≠ 0 then some (s.burn s.epoch 2) else none
    | .deployed, 4 => if s.modState = 5 then some (((s.burn s.epoch 3).norPut 1 []).resetThen 3 false) else none
    | .provisioned, 5 => if s.modState = 5 then some s.retireModule else none
    | .deployed, 5 => if s.modState = 5 then some s.retireModule else none
    | _, _ => none
/-- LC_CONFIRM's value: the complement of the LC_REQUEST word as written (notes/assumptions/29). -/
def complement32 (v : Nat) : Nat := 2 ^ 32 - 1 - v % 2 ^ 32
/-- R444: a confirmation: whether it is accepted. -/
def State.lcConfirm (s : State) (v : Nat) : Bool × State :=
  match s.boot.lcAt with
  | none => (false, s)
  | some t =>
    if t + 1000000000 < s.now ∨ v ≠ complement32 (s.rd F.LC_REQUEST_TARGET) then (false, s.lcDisarm)
    else match s.lcDisarm.lcGo (s.rd F.LC_REQUEST_TARGET) with
      | some s1 => (true, s1)
      | none => (false, s.lcDisarm)

/-- LC_ARM_EXPIRY (R444): an armed request not confirmed within 1 s disarms. -/
def execLcArmExpiry (s : State) : Res :=
  .next (match s.boot.lcAt with
    | some t => if t + 1000000000 < s.now then s.lcDisarm else s
    | none => s)

/-- R23: retire a faulty physical column with a neighbour: whether a spare pair was left. -/
def State.repairColumn (s : State) (die c : Nat) : Bool × State :=
  let cs := s.columns die
  match cs.findIdx? (fun x => decide (x = c)) with
  | none => (true, s)
  | some i =>
    if s.spareCols die < 2 then (false, s)
    else
      let j := if i + 1 = s.cols ∨ i + 1 = cs.length then i - 1 else i
      let pair := cs.getD j 0 + 32 * cs.getD (j + 1) 0
      (true, { s with fuses := { s.fuses with repairs := s.fuses.repairs ++ [(die, pair)] } })

/-- R443, R456: the retirement records of a new epoch, taken from the full test: stacks, and columns, for want of spares the die. -/
def State.newRecords (s : State) : State :=
  let s1 : State := { s with fuses := { s.fuses with
    retiredDies := [], retiredPairs := [], shrunk := false
    retiredStacks := ((s.boot.nor.found.filter (fun e => decide (e.1 = 2))).map (fun e => e.2 % 32)).eraseDups } }
  let s2 := (s.boot.nor.found.filter (fun e => decide (e.1 = 0))).foldl (fun (s : State) e =>
    let die := e.2 % 4
    let r := s.repairColumn die (bitsOf e.2 7 5)
    if r.1 ∨ s.fuses.retiredDies.contains die then r.2
    else { s with fuses := { s.fuses with retiredDies := s.fuses.retiredDies ++ [die] } }) s1
  let n : Nor := { s2.boot.nor with bootCount := 0, lastSeq := 0, passed := none, found := [] }
  ({ s2 with boot := { s2.boot with nor := n } }).wr F.BOOT_COUNT_VALUE 0

/-- R443: provisioning of epoch `e`: its seed and root digest are burned and the provisioning area is written. -/
def State.provision (s : State) (e : Nat) (key cert : List Byte) : State :=
  let ds := (List.range 4).map (fun i => if i = e then Sm3.digest key else s.fuses.rootDigests.getD i [])
  let s1 : State := { s with
    fuses := { s.fuses with rootDigests := ds, roots := s.fuses.roots ||| 2 ^ e, seeds := s.fuses.seeds ||| 2 ^ e }
    boot := { s.boot with nor := { s.boot.nor with rootKey := key, cert := cert } } }
  s1.burn e 1

/-- TAP_LIFECYCLE_TRANSITION (R443): a transition by Decvin through the test access port; for provisioning `key` is the platform
root public key and `cert` the identity certificate. One that R443 does not allow has no effect. -/
def execTapLifecycleTransition (target : LcSt) (key cert : List Byte) (s : State) : Res :=
  .next (if s.boot.off then s
    else match s.lc, target with
      | .blank, .factory => s.burn 0 0
      | .factory, .provisioned =>
        if s.boot.nor.passed = some s.epoch then (s.newRecords).provision s.epoch key cert else s.turnAway "TAP_LIFECYCLE_TRANSITION"
      | .returned, .provisioned =>
        if s.boot.nor.passed = some s.epoch ∧ s.epoch < 3 then (s.newRecords).provision (s.epoch + 1) key cert
        else s.turnAway "TAP_LIFECYCLE_TRANSITION"
      | .factory, .retired => s.retireModule
      | .returned, .retired => s.retireModule
      | _, _ => s.turnAway "TAP_LIFECYCLE_TRANSITION")

end Sys2Proof.Machine
end

