-- ==== Sys2Proof/Machine/Percale.lean ====
section
/-!
DEFINITION. The Percale test engine (R449 to R460): acceptance of a test, its run item by item, what each item finds and how a
field test repairs it.
-/
namespace Sys2Proof.Machine

/-- R285: whether a path is the owner session. -/
def State.ownerIndex (s : State) : Option Nat :=
  if s.flag F.OWNER_STATUS_OWNED then some (s.rd F.OWNER_STATUS_SESSION % 256) else none
def State.isOwner (s : State) (p : Path) : Bool := match p with
  | .session i => decide (s.ownerIndex = some i)
  | _ => false

/-- R452: the first condition that a START fails, by its code, or 0. -/
def State.pclRefusal (s : State) (path : Path) (full : Bool) (point : Nat) : Nat :=
  let lcOk := if full then decide (s.lc = .factory ∨ s.lc = .returned) else decide (s.lc = .deployed)
  let stOk := decide (s.modState = 5) || (full && decide (s.modState = 1))
  let pathOk := if full then decide (path = .tap) else s.isOwner path
  if !lcOk then 1
  else if !stOk then 2
  else if !pathOk then 3
  else if s.boot.railsOff then 4
  else if s.rd F.PWR_LIMIT_LIMIT_W < pointT s.fuses.grade (if full then 0 else point) then 5
  else if bitOf (s.rd F.PCL_SELECT_ITEMS) 3 ∧ s.rd F.BULK_CFG_STATE = 0 then 6
  else if s.rd F.STAGE_STATUS_STATE = 3 ∨ s.boot.lcAt.isSome then 7
  else 0

/-- R451: the bound of an item at a point, in nanoseconds. -/
def State.pclBound (s : State) (item point : Nat) : Nat :=
  let dpc := s.rd F.BULK_CFG_DPC2 + 1
  let bytes := 16 * dpc * (64000000000 * 2 ^ (s.rd F.BULK_CFG_DIMM_SIZE - 1))
  match item with
  | 0 => 1200000000 * 16 / pointM point
  | 1 => 10000000 * 16 / pointM point
  | 2 => 300000000
  | 3 => 10 * bytes * 10 / (if dpc = 2 then 7168 else 8192) + 1000000000
  | _ => 4100000000

/-- R450, R449: the points and items of a run. -/
def State.pclPlan (s : State) (full : Bool) (point : Nat) : List (Nat × Nat) :=
  let items := (List.range 5).filter (fun k => bitOf (s.rd F.PCL_SELECT_ITEMS) k)
  if full then items.map (fun k => (0, k)) ++ items.map (fun k => (6, k)) else items.map (fun k => (point, k))

/-- R411: every compute die takes an operating point. -/
def State.pclPoint (s : State) (p : Nat) : State :=
  (List.range 4).foldl (fun (s : State) d =>
    ((s.wr F.DIE_OPPOINT_POINT p d).wr F.DIE_OPPOINT_ACLK_M (pointM p) d).wr F.DIE_OPPOINT_VCORE_MV (pointMv p) d) s

/-- R449: an item begins, and what it covers is overwritten. -/
def State.pclItem (s : State) : State :=
  match s.boot.pclRun with
  | none => s
  | some r =>
    let k := (r.todo.headD (0, 0)).2
    let s1 := (s.wr F.PCL_STATUS_ITEM k).wr F.PCL_STATUS_PERCENT 0
    if k = 2 then ((List.range 4).foldl (fun (s : State) d => s.loseNear d) s1).settleLost []
    else if k = 3 then (s1.dropBulk.settleLost []).settleMig
    else s1

/-- R456, R457: the run ends: STATE DONE, its results go to the NOR, and the module returns. -/
def State.pclFinish (s : State) : State :=
  match s.boot.pclRun with
  | none => s
  | some r =>
    let ms := (s.now - r.began) / 1000000
    let s1 := (s.wr F.PCL_STATUS_STATE 3).wr F.PCL_TIME_MS ms
    let rs := (List.range 5).map (fun i =>
      (s1.rd F.PCL_RESULT_OUTCOME i, s1.rd F.PCL_RESULT_FAULTS i, s1.rd F.PCL_RESULT_FIRST i))
    let pass := r.full && rs.all (fun e => decide (e.1 = 1))
    let n : Nor := { s1.boot.nor with
      pclTime := ms, pcl := rs, passed := if pass then some s1.epoch else s1.boot.nor.passed }
    let s2 := { s1 with boot := { s1.boot with pclRun := none, nor := n } }
    if r.full ∧ r.former = 1 then s2.stopCores.moduleTo 1 else s2.parkNow

/-- R455: an accepted test begins. -/
def State.pclEnter (s : State) (full : Bool) (point : Nat) : State :=
  let plan := s.pclPlan full point
  let first := (plan.headD (point, 0)).1
  let s1 := s.faultNotify
  let s2 := if bitOf (s.rd F.PCL_SELECT_ITEMS) 4 then (List.range 32).foldl (fun (s : State) p =>
    if s.portState p = 0 then s else s.portOff p) s1 else s1
  let s3 := (List.range 4).foldl (fun (s : State) d => if s.fuses.retiredDies.contains d then s else s.dieToA0 d) s2
  let s4 := (List.range 5).foldl (fun (s : State) k =>
    ((s.wr F.PCL_RESULT_OUTCOME 0 k).wr F.PCL_RESULT_FAULTS 0 k).wr F.PCL_RESULT_FIRST 0 k) (s3.pclPoint first)
  let s5 := (s4.wr F.PCL_STATUS_STATE 2).wr F.PCL_STATUS_REFUSE 0
  let nor : Nor := if full then { s5.boot.nor with found := [] } else s5.boot.nor
  let run : PclRun := { full := full, former := s.modState, began := s.now, itemAt := s.now + 50000000, todo := plan, foundAt := none }
  let s6 := ({ s5 with boot := { s5.boot with nor := nor, pclArmed := none, pclRun := some run } }).moduleTo 6
  if plan.isEmpty then s6.pclFinish else s6.pclItem

/-- R452: a request is refused with a code; one refused while a test runs leaves its STATE. -/
def State.pclRefuse (s : State) (code : Nat) : State :=
  let s1 := s.wr F.PCL_STATUS_REFUSE code
  let s2 := if s1.modState = 6 then s1 else s1.wr F.PCL_STATUS_STATE 4
  { s2 with boot := { s2.boot with pclArmed := none } }

/-- R452, R453: a write of START with PCL_CTRL word `w`: whether it is accepted. -/
def State.pclStart (s : State) (path : Path) (w : Nat) : Bool × State :=
  let full := bitOf w 2
  let point := bitsOf w 3 3
  let c := s.pclRefusal path full point
  if c ≠ 0 then (false, s.pclRefuse c)
  else
    let s1 := (s.wr F.PCL_CTRL_FULL (b2n full)).wr F.PCL_CTRL_TEST_POINT point
    if full then (true, s1.pclEnter true 0)
    else
      let s2 := (s1.wr F.PCL_STATUS_STATE 1).wr F.PCL_STATUS_REFUSE 0
      let i := match path with
        | .session i => i
        | _ => 0
      (true, { s2 with boot := { s2.boot with pclArmed := some (s.now, w % 64, i) } })

/-- R453: a write of PCL_CONFIRM: whether it is accepted. -/
def State.pclConfirm (s : State) (path : Path) (v : Nat) : Bool × State :=
  match s.boot.pclArmed with
  | none => (false, s)
  | some (t, w, i) =>
    if t + 1000000000 < s.now ∨ v ≠ complement32 w ∨ path ≠ .session i then (false, s.pclRefuse 3)
    else
      let c := s.pclRefusal path false (bitsOf w 3 3)
      if c ≠ 0 then (false, s.pclRefuse c) else (true, s.pclEnter false (bitsOf w 3 3))

/-- PCL_ARM_EXPIRY (R453): no confirmation within 1 s. -/
def execPclArmExpiry (s : State) : Res :=
  .next (match s.boot.pclArmed with
    | some (t, _, _) => if t + 1000000000 < s.now then s.pclRefuse 3 else s
    | none => s)

/-- R454, R458: the run ends ABORTED and the module returns to Parked. -/
def State.pclAbort (s : State) : State :=
  if s.boot.pclRun.isSome then (s.pclStop 3 5).parkNow else s

/-- R379, R460: the unit of a result word, as R456 repairs it: a tile's die and column, a stack, a channel or a port. -/
def State.pclRepair (s : State) (item unit : Nat) : State :=
  let column := fun (s : State) (die c : Nat) =>
    let r := s.repairColumn die c
    if r.1 then r.2.shrink else s.retireDie die
  match item with
  | 0 => column s (unit % 4) (bitsOf unit 7 5)
  | 1 => if bitsOf unit 2 4 ≤ 2 then column s (unit % 4) ((s.columns (unit % 4)).getD (bitsOf unit 11 5) 0) else s
  | 2 => (s.retireStack (unit % 32)).retireRule (unit % 32 / 5)
  | 3 => ((s.channelFail (unit % 16)).settleLost []).settleMig.shrink
  | _ => (s.portTo (unit % 32) 6 5).shrink

/-- R456, R457: an item has ended with the faults found: counted, recorded and, in a field test, repaired; the next item begins. -/
def State.pclItemDone (s : State) (faults : List Nat) (fail : Bool) : State :=
  match s.boot.pclRun with
  | none => s
  | some r =>
    let p := r.todo.headD (0, 0)
    let k := p.2
    let n := s.rd F.PCL_RESULT_FAULTS k
    let s1 := s.wr F.PCL_RESULT_OUTCOME (if fail ∨ s.rd F.PCL_RESULT_OUTCOME k = 2 then 2 else 1) k
    let s2 := if n = 0 ∧ ¬ faults.isEmpty then s1.wr F.PCL_RESULT_FIRST (faults.headD 0) k else s1
    let s3 := (s2.wr F.PCL_RESULT_FAULTS (min 255 (n + faults.length)) k).wr F.PCL_STATUS_PERCENT 100
    let s4 := if r.full then
        { s3 with boot := { s3.boot with nor := { s3.boot.nor with found := s3.boot.nor.found ++ faults.map (fun u => (k, u)) } } }
      else faults.foldl (fun (s : State) u => s.pclRepair k u) s3
    let rest := r.todo.drop 1
    match rest with
    | [] => s4.pclFinish
    | q :: _ =>
      let move := decide (q.1 ≠ p.1)
      let run : PclRun := { r with
        todo := rest, itemAt := s4.now + (if move then 100000000 else 0)
        foundAt := if faults.isEmpty then r.foundAt else some s4.now }
      let s5 := if move then s4.pclPoint q.1 else s4
      ({ s5 with boot := { s5.boot with pclRun := some run } }).pclItem

/-- PCL_ITEM_COMPLETE (R449, R456, R457): the running item completes with the faulty units found, as FIRST codes them. -/
def execPclItemComplete (faults : List Nat) (s : State) : Res := .next (s.pclItemDone faults (!faults.isEmpty))

/-- PCL_ITEM_TIMEOUT (R451): the running item has not completed within its bound; `found` is the faulty units it had found, and
the unit under test, which ends FAIL. -/
def execPclItemTimeout (found : List Nat × Nat) (s : State) : Res :=
  .next (match s.boot.pclRun with
    | none => s
    | some r =>
      let p := r.todo.headD (0, 0)
      if s.now < r.itemAt + s.pclBound p.2 p.1 then s else s.pclItemDone (found.1.filter (fun u => decide (u ≠ found.2)) ++ [found.2]) true)

/-- PCL_LIMIT_ABORT (R454): a core rail stays off its set point for 10 µs (`why` 0), L falls below T of the running point (1), or
a thermal step falls due (2). -/
def execPclLimitAbort (why : Nat) (s : State) : Res :=
  .next (match s.boot.pclRun with
    | none => s
    | some r =>
      let p := (r.todo.headD (0, 0)).1
      let hit := if why = 0 then true
        else if why = 1 then decide (s.rd F.PWR_LIMIT_LIMIT_W < pointT s.fuses.grade p)
        else (List.range 4).any (fun d => decide (95 ≤ s.rd F.THERM_TEMP_TJ_MAX d))
      if hit then s.pclAbort else s)

end Sys2Proof.Machine
end

