-- ==== Sys2Proof/Machine/Power.lean ====
section
/-!
DEFINITION. Power, clocks and cooling (R400 to R427, R430, R471): requests for a module state, the cap, the power controller, the
rack's signals, power fail, thermal protection, ageing, and the 48 V input.
-/
namespace Sys2Proof.Machine

/-! ## Requests for a module state (R407, R408) -/

/-- R469: nothing runs while the module is Off or held in reset. -/
def State.dark (s : State) : Bool := s.boot.off || s.boot.held
/-- R431: a start-up is in progress. -/
def State.starting (s : State) : Bool := decide (1 ≤ s.rd F.BOOT_STATUS_STAGE ∧ s.rd F.BOOT_STATUS_STAGE ≤ 6)
def msNs (n : Nat) : Nat := 1000000 * n

/-- R407: DRAIN. -/
def State.askDrain (s : State) : Option State :=
  if s.modState = 3 ∨ s.modState = 4 then some (s.startDrain false (s.now + msNs (s.rd F.PWR_DRAIN_MS_MS))) else none
/-- R453, R458: an armed field test is disarmed and refused with code 2. -/
def State.disarmTest (s : State) : State := if s.boot.pclArmed.isSome then s.pclRefuse 2 else s
/-- R407, R435, R458: PARK; in recovery it ends the recovery. -/
def State.askPark (s : State) : Option State :=
  if s.boot.recovering then some (((s.endStartup 9)).faultFrom s)
  else if s.modState = 3 ∨ s.modState = 4 then some (s.startDrain true (s.now + msNs (s.rd F.PWR_DRAIN_MS_MS)))
  else if s.modState = 2 then some s.parkNow
  else if s.modState = 5 then some s.disarmTest
  else none
/-- R407, R402, R421, R426: whether a READY may leave Keep-alive or Parked now. -/
def State.mayReady (s : State) : Bool :=
  decide (s.modState = 1 ∨ s.modState = 5) && !s.starting && !s.boot.recovering && !s.flag F.PWR_STATUS_TRIP && !s.boot.refBad &&
  (List.range 6).all (fun i => decide (s.rd F.THERM_TEMP_TJ_MAX i ≤ 90)) && s.boot.failAt.isNone
/-- R407, R430: READY; during the soft start it waits. -/
def State.askReady (s : State) : Option State :=
  if !s.mayReady then none
  else if s.boot.softUntil.isSome then some { s with boot := { s.boot with readyWaits := true } }
  else some s.beginStartup
/-- R407: KEEPALIVE; it ends a start-up that is in progress (notes/assumptions/85). -/
def State.askKeepalive (s : State) : Option State :=
  if s.modState = 5 then some (s.stopCores.moduleTo 1) else none

/-- R407, R408: the change to Parked that a cap below 1,200 W starts. -/
def State.capPark (s : State) : State :=
  if s.modState = 3 ∨ s.modState = 4 then s.startDrain true (s.now + msNs (s.rd F.PWR_DRAIN_MS_MS))
  else if s.modState = 2 then s.parkNow
  else if s.modState = 5 then s.disarmTest
  else s
/-- R410, R417, R426: a write of POWER_CAP; `rack` when it comes over MGMT or I3C. Whether it is accepted. -/
def State.capWrite (s : State) (rack : Bool) (v : Nat) : Bool × State :=
  if 4400 < v then (false, s)
  else if v < 1200 then
    (false, (((s.wr F.PWR_STATUS_CAP_REFUSED 1).powerEvent 11 0xFF v 0)).capPark)
  else
    let s1 := s.wr F.PWR_CAP_CAP_W v
    let s2 := if rack then s1.wr F.PWR_LIMIT_SAFE 0 else s1
    (true, s2.updateLimit)

/-! ## The power controller (R409 to R414) -/

/-- R411: lower a die by one point: the frequency first, then the voltage. -/
def State.lowerPoint (s : State) (d : Nat) : State :=
  let p := s.point d + 1
  (((s.wr F.DIE_OPPOINT_POINT p d).wr F.DIE_OPPOINT_ACLK_M (pointM p) d)).slewTo d p
/-- R412: the power after raising a die, from power P. -/
def raisedPower (g : Grade) (w p : Nat) : Nat := w + (pointT g (p - 1) - pointT g p)
/-- A die on which the controller or a thermal step may act. -/
def State.steerable (s : State) (d : Nat) : Bool := decide (s.dieP d = 0) && (SMap.find? s.boot.slews d).isNone

/-- R412, R414: the 1 ms comparison for one die at power `w`. -/
def State.steer (s : State) (w d : Nat) : State :=
  let g := s.fuses.grade
  let l := s.rd F.PWR_LIMIT_LIMIT_W
  let p := s.point d
  let gate := s.rd F.DIE_OPPOINT_GATE_D d
  if !s.steerable d || s.flag F.DIE_OPPOINT_THROTTLED d then s
  else if l < w then
    (if p < 6 then s.lowerPoint d else s.wr F.DIE_OPPOINT_GATE_D (min 12 (gate + 1)) d)
  else if 0 < gate then
    (if 16 * w + pointT g 6 ≤ 16 * l then s.wr F.DIE_OPPOINT_GATE_D (gate - 1) d else s)
  else if decide (0 < p) && decide (raisedPower g w p ≤ l) && (match SMap.find? s.boot.steppedAt d with
      | some t => decide (t + 1000000 ≤ s.now)
      | none => true) then s.slewTo d (p - 1)
  else s

/-- POWER_CONTROL_TICK (R412, R409, R414): the measured 1 ms averages: input power in W, voltage in 0.1 V, current in 0.1 A,
coolant inlet and outlet in °C, and whether a core rail is more than 3 % from its set point. In Test the dies keep their point
(R454). -/
def execPowerControlTick (w volts amps inlet outlet : Nat) (railsOff : Bool) (s : State) : Res :=
  .next (if s.dark then s
    else
      let s1 := ((s.wr F.PWR_INPUT_POWER_W w).wr F.PWR_INPUT_VOLTS_DV volts).wr F.PWR_CURRENT_AMPS_DA amps
      let s2 := (s1.wr F.COOLANT_INLET_C inlet).wr F.COOLANT_OUTLET_C outlet
      let s3 := ({ s2 with boot := { s2.boot with railsOff := railsOff } }).raiseLimit
      if s3.modState = 6 then s3 else (List.range 4).foldl (fun (s : State) d => s.steer w d) s3)

/-- VOLTAGE_SLEW_COMPLETE (R411, R413): a core voltage has reached its point, whose frequency is set; the ACLK edges that a
stretch removed are counted under POWER_CAP. -/
def execVoltageSlewComplete (d : Nat) (s : State) : Res :=
  onDie d (.next (match SMap.find? s.boot.slews d with
    | none => s
    | some (p, t0, t1) =>
      if s.now < t1 then s
      else
        let lost := pointM (s.point d) - s.rd F.DIE_OPPOINT_ACLK_M d
        let s1 := s.bump F.DIE_STALL_COUNT (lost * (t1 - t0) / 4) 10 (.die d)
        let s2 := ((s1.wr F.DIE_OPPOINT_VCORE_MV (pointMv p) d).wr F.DIE_OPPOINT_POINT p d).wr F.DIE_OPPOINT_ACLK_M (pointM p) d
        { s2 with boot := { s2.boot with slews := SMap.erase s2.boot.slews d } }))

/-! ## Rack power events (R415 to R417) -/

/-- CAPDROP_N (R415, R426): the input is asserted or released. -/
def execCapdropN (low : Bool) (s : State) : Res :=
  .next (if s.dark then s.wr F.PIN_STATUS_CAPDROP_LVL (b2n (!low))
    else if s.flag F.PWR_LIMIT_CAPDROP = low then s
    else (((s.wr F.PIN_STATUS_CAPDROP_LVL (b2n (!low))).wrFlag F.PWR_LIMIT_CAPDROP low).powerEvent 2 0xFF (b2n low) 0).updateLimit)

/-- R342, R416: the final journal batch. -/
def State.lastBatch (s : State) : State :=
  match s.jr.partner with
  | some p => if s.unsent.isEmpty then s else s.sendRecords p 0x20 s.unsent
  | none => s
/-- R416: at the end of the power-fail sequence only the Muslin domain is powered. -/
def State.failDone (s : State) : State :=
  match s.boot.failAt with
  | some t => if t + 1500000 ≤ s.now then s.stopCores.moduleTo 5 else s
  | none => s
/-- R416: the power-fail sequence begins. -/
def State.powerFail (s : State) : State :=
  if s.dark then s
  else match s.boot.failAt with
    | some _ => s.failDone
    | none =>
      let s1 := ((s.wr F.PWR_STATUS_PFW_SEEN 1).pclStop 3 5).abandon
      let s2 := (s1.lastBatch).faultNotify.powerEvent 3 0xFF 0 0
      { s2 with boot := { s2.boot with failAt := some s.now, drainTo := none } }

/-- PFW_N (R416, R405): the power-fail warning is asserted. Once 1.5 ms have passed the module is in Parked. -/
def execPfwN (s : State) : Res :=
  .next (let s1 := s.wr F.PIN_STATUS_PFW_LVL 0
    if s.dark then s1 else (s1.wr F.PWR_LIMIT_PFW 1).powerFail)
/-- PFW_N_RELEASE (R416). -/
def execPfwNRelease (s : State) : Res :=
  .next ((s.wr F.PIN_STATUS_PFW_LVL 1).wr F.PWR_LIMIT_PFW 0)
/-- UNDERVOLT (R416): an input below 40 V for 100 µs. -/
def execUndervolt (s : State) : Res :=
  .next (if s.dark then s
    else if s.boot.failAt.isSome then (s.wr F.PWR_STATUS_UNDERVOLT 1).powerFail
    else ((s.wr F.PWR_STATUS_UNDERVOLT 1).powerEvent 4 0xFF 0 0).powerFail)
/-- R471, R477: OVERVOLT and its record. -/
def State.noteOvervolt (s : State) (b : Bool) : State :=
  let s1 := s.wrFlag F.PIN_STATUS_OVERVOLT b
  { s1 with boot := { s1.boot with nor := { s1.boot.nor with overvolt := b } } }
/-- OVERVOLT (R471): an input above 59.5 V for 100 µs. -/
def execOvervolt (s : State) : Res := .next (if s.boot.off then s else (s.noteOvervolt true).powerFail)

/-- SAFE_CAP (R417): 60 s since the last management HEARTBEAT. -/
def execSafeCap (s : State) : Res :=
  .next (if s.dark ∨ s.now < s.host.mgmtSeen + 60000000000 ∨ s.flag F.PWR_LIMIT_SAFE then s
    else ((s.wr F.PWR_LIMIT_SAFE 1).powerEvent 8 0xFF 0 0).updateLimit)

/-! ## Temperatures (R419 to R422) -/

/-- R419: junction sensors of a die, compute or I/O. -/
def sensorCount (d : Nat) : Nat := if d < 4 then 8 else 4
def onAnyDie (d : Nat) (r : Res) : Res := if d < 6 then r else .refused (.noSuchUnit "die")
def State.sensorsOk (s : State) (d : Nat) : Nat :=
  sensorCount d - (s.boot.badSensors.filter (fun e => decide (e.1 = d))).length
/-- R422: what a die is treated as reading. -/
def State.reads (s : State) (d tj : Nat) : Nat := if 2 * s.sensorsOk d < sensorCount d then 105 else tj
def State.noteTemp (s : State) (d tj : Nat) : State :=
  (s.wr F.THERM_TEMP_TJ_MAX (s.reads d tj) d).wr F.THERM_TEMP_SENSORS_OK (s.sensorsOk d) d

/-- THROTTLE (R419, R426): a thermal step of a compute die, at most every 50 ms; `tj` is its hottest working sensor. -/
def execThrottle (d tj : Nat) (s : State) : Res :=
  onDie d (.next (
    let s0 := if s.dark then s else s.noteTemp d tj
    let t := s0.reads d tj
    let due : Bool := match SMap.find? s.boot.steppedAt d with
      | some u => decide (u + 50000000 ≤ s.now)
      | none => true
    let stamp := fun (s : State) => { s with boot := { s.boot with steppedAt := SMap.insert s.boot.steppedAt d s.now } }
    let p := s0.point d
    if s.dark || !due then s0
    else if 95 ≤ t then
      (if s0.boot.pclRun.isSome then s0.pclAbort
       else if !s0.steerable d then s0
       else if p < 6 then ((stamp (s0.wr F.DIE_OPPOINT_THROTTLED 1 d)).lowerPoint d).powerEvent 5 d (p + 1) t
       else s0.wr F.DIE_OPPOINT_THROTTLED 1 d)
    else if t ≤ 90 ∧ s0.flag F.DIE_OPPOINT_THROTTLED d ∧ s0.steerable d then
      (if 0 < p ∧ raisedPower s.fuses.grade (s0.rd F.PWR_INPUT_POWER_W) p ≤ s0.rd F.PWR_LIMIT_LIMIT_W then
        let s1 := ((stamp s0).slewTo d (p - 1)).powerEvent 5 d (p - 1) t
        if p = 1 then s1.wr F.DIE_OPPOINT_THROTTLED 0 d else s1
       else s0.wr F.DIE_OPPOINT_THROTTLED 0 d)
    else s0))

/-- R420: a reading of DRAIN_C or more starts a thermal drain. -/
def State.thermDrain (s : State) (d : Nat) : State :=
  if s.rd F.THERM_CFG_DRAIN_C ≤ s.rd F.THERM_TEMP_TJ_MAX d ∧ (s.modState = 3 ∨ s.modState = 4) then
    (s.powerEvent 6 d 0 0).startDrain true (s.now + msNs (s.rd F.THERM_CFG_THERM_DRAIN_MS))
  else s
/-- THERM_DRAIN (R420, R407): a sensor of a die reads `tj`. -/
def execThermDrain (d tj : Nat) (s : State) : Res := onAnyDie d (.next (if s.dark then s else (s.noteTemp d tj).thermDrain d))

/-- THERM_TRIP (R421, R405, R458): a sensor reads `tj`, 115 °C or more: the core rails go, TRIP latches, and the module is in
Keep-alive. -/
def execThermTrip (d tj : Nat) (s : State) : Res :=
  onAnyDie d (.next (
    if s.dark ∨ tj < 115 then s
    else
      let s1 := ((s.noteTemp d tj).wr F.PWR_STATUS_TRIP 1).powerEvent 7 d 0 0
      let s2 := ((s1.pclStop 3 5).abandon.dropDisables).stopCores.moduleTo 1
      s2.faultFrom s))

/-- SENSOR_FAIL (R422): a junction sensor is implausible; `tj` is the hottest of those left. -/
def execSensorFail (d k tj : Nat) (s : State) : Res :=
  if d < 6 ∧ k < sensorCount d then
    .next (if s.dark ∨ s.boot.badSensors.contains (d, k) then s
      else
        let s1 : State := { s with boot := { s.boot with badSensors := s.boot.badSensors ++ [(d, k)] } }
        (((s1.noteTemp d tj).detect { errOf 0x1D (if d < 4 then 4 else 11) k d with detail := tj })).thermDrain d)
  else .refused (.noSuchUnit "sensor")

/-- REGULATOR_FAULT (R422, R405, R20): a regulator is more than 5 % from its set point for 10 µs. -/
def execRegulatorFault (d : Nat) (s : State) : Res :=
  onAnyDie d (.next (if s.dark then s else (s.detect (errOf 0x1D (if d < 4 then 4 else 11) d d)).moduleFault.faultFrom s))

/-- REFCLK_FAIL (R402): the reference clock is absent or out of tolerance. -/
def execRefclkFail (s : State) : Res :=
  .next (if s.dark then { s with boot := { s.boot with refBad := true } }
    else if s.boot.refBad then s
    else
      let s1 : State := { s with boot := { s.boot with refBad := true } }
      ((s1.wr F.PWR_STATUS_REFCLK_FAIL 1).moduleFault).faultFrom s)
/-- REFCLK_RESTORED (R402). -/
def execRefclkRestored (s : State) : Res := .next { s with boot := { s.boot with refBad := false } }

/-! ## Ageing (R424, R425) -/

/-- AGEING (R424, R425, R360): a new prediction for a unit: DAYS and LOW90. One event as LOW90 falls below AGE_WARN_DAYS; a stack
of 30 days or less is retired. -/
def execAgeing (unit days low90 : Nat) (s : State) : Res :=
  if unit < 78 then
    .next (if s.dark then s
      else
        let warn := s.rd F.AGE_CFG_AGE_WARN_DAYS
        let d := min days 0xFFFF
        let l := min low90 0xFFFF
        let was := (SMap.getD s.boot.nor.ages unit (0xFFFF, 0xFFFF)).2
        let s1 := (s.wr F.AGEING_DAYS d unit).wr F.AGEING_LOW90 l unit
        let s2 := { s1 with boot := { s1.boot with nor := { s1.boot.nor with
          ages := SMap.setD s1.boot.nor.ages unit (d, l) (0xFFFF, 0xFFFF) } } }
        let s3 := if l < warn ∧ warn ≤ was then s2.powerEvent 10 unit l 0 else s2
        if 6 ≤ unit ∧ unit < 26 ∧ l ≤ 30 then (s3.retireStack (unit - 6)).retireRule ((unit - 6) / 5) else s3)
  else .refused (.noSuchUnit "ageing unit")

/-! ## The 48 V input (R406, R407, R430) -/

/-- POWER_APPLIED (R430, R432): the input enters its range; a soft start of 30 ms begins. -/
def execPowerApplied (s : State) : Res :=
  .next (if !s.boot.off then s
    else
      let s1 : State := { s with boot := { s.boot with off := false, softUntil := some (s.now + 30000000) } }
      let s2 := s1.coldReset 0
      { s2 with boot := { s2.boot with readyWaits := s2.flag F.BOOT_CFG_AUTO_READY && !s2.boot.held } })
/-- SOFT_START_END (R430, R447, R476): the soft start ends, and a READY that waits proceeds. -/
def execSoftStartEnd (s : State) : Res :=
  .next (match s.boot.softUntil with
    | none => s
    | some t =>
      if s.now < t then s
      else
        let s1 : State := { s with boot := { s.boot with softUntil := none, readyWaits := false } }
        if s.boot.readyWaits ∧ ¬ s.boot.held ∧ s1.mayReady then s1.beginStartup else s1)
/-- POWER_LOSS (R407, R458): the input is lost: the module is Off, and only fuses, the NOR and the drives keep what they hold. -/
def execPowerLoss (s : State) : Res :=
  .next (if s.boot.off then s
    else
      let s1 := s.pclStop 3 5
      let s2 : State := { s1 with boot := { s1.boot with off := true, softUntil := none } }
      (s2.coldReset 0).faultFrom s)

end Sys2Proof.Machine
end

