-- ==== Sys2Proof/Machine/Views.lean ====
section
/-!
DEFINITION. What a register reads: fields that follow from the rest of the state or from the fuses, over the words the state
holds; and the read of an address with its 64-bit latches (R28, R33, R165).
-/
namespace Sys2Proof.Machine

/-- Bits `lo` to `lo + w - 1` of a word take a value that saturates at their width. -/
def putSat (n lo w v : Nat) : Nat := putBits n lo w (min v (2 ^ w - 1))
/-- Word `k` of a number. -/
def wordAt (v k : Nat) : Nat := v / 2 ^ (32 * k) % 2 ^ 32

/-- R22, R23: the physical column of a logical one. -/
def State.physCol (s : State) (die x : Nat) : Nat := (s.columns die).getD x 0
/-- TILE_ID (R78). -/
def State.tileId (s : State) (die y x : Nat) : Nat :=
  y + 32 * x + 1024 * s.physCol die x + 32768 * b2n (!isCompute y x)
/-- TILE_STATUS (R78): the active context and its sequencers' words. -/
def State.tileStatus (s : State) (die y x base : Nat) : Nat :=
  let c := (s.active die).getD 0
  let t := s.tile die y x c
  putBits (putBits (putBits base 0 2 c) 2 6 t.mWord) 8 6 t.vWord
/-- MT_STATUS (R133): the active context, and which of its address generators run an issued descriptor. -/
def State.mtStatus (s : State) (die y x base : Nat) : Nat :=
  let c := (s.active die).getD 0
  let busy := (List.range 4).foldl (fun n a => n + b2n (s.ag die y x c a).running * 2 ^ a) 0
  putBits (putBits base 0 2 c) 2 4 (if (s.active die).isSome then busy else 0)
/-- QUEUE_PART and QUEUE_OCC of a slot, for the queue that QUEUE_QUERY names (R108). -/
def State.queriedQueue (s : State) (die c : Nat) : Queue :=
  SMap.getD s.arr.queues (queueKey die (s.rd F.QUEUE_QUERY_QID 0 (.die die)) c) Queue.empty
def State.queuePart (s : State) (die c : Nat) : Nat :=
  let q := s.queriedQueue die c
  q.base % 64 + 2 ^ 6 * (q.len % 128) + 2 ^ 13 * (q.extDir % 4) + 2 ^ 15 * (q.extLen % 32) + 2 ^ 20 * (q.extBase % 128)
def State.queueOcc (s : State) (die c : Nat) : Nat :=
  let q := s.queriedQueue die c
  q.toks.length + 2 ^ 7 * b2n ((s.blockedQids die c).contains (s.rd F.QUEUE_QUERY_QID 0 (.die die))) + 2 ^ 8 * q.ext.length
/-- MEA_STATUS (R18, R134): the edge and the stack of an agent. -/
def meaSite (die k : Nat) : Nat :=
  2 * b2n (!meaNorth die k) + 4 * (5 * die + k / 2)
/-- DISPATCH_STATUS (R166). -/
def State.dispatchStatus (s : State) (die c : Nat) : Nat :=
  match SMap.find? s.strm.dispatches (dieCtx die c) with
  | none => 0
  | some d =>
    let pending := d.groups.filter (fun g => g.lane.isNone)
    let waits := pending.filter (fun g => (pagesIn g.waddr g.wlen).any (fun pn => match s.pte pn with
      | some p => !p.near
      | none => true))
    1 + 2 * d.stream + 2 ^ 7 * pending.length + 2 ^ 18 * waits.length

/-- MIG_STATUS (R221, R21): whether engine `e` runs a transfer, and the work of each class that waits for it. -/
def State.migStatus (s : State) (e : Nat) : Nat :=
  let q := fun (c : Nat) => (s.mas.jobs.filter (fun (j : MigJob) => decide (j.cls = c) && j.left.contains e &&
    decide (SMap.find? s.mas.work e ≠ some j.page))).length
  let busy := (SMap.find? s.mas.work e).isSome
  putSat (putSat (putSat (putSat (b2n busy) 1 8 (q 0)) 9 8 (q 1)) 17 8 (q 2)) 25 7 (q 3)
/-- BULK_FRAMES and DEEP_EXTENTS (R220, R221): retired frames and extents leave the counts. -/
def State.bulkInService (s : State) : Nat := s.rd F.BULK_FRAMES_COUNT - s.mas.retiredBulk.length
def State.deepInService (s : State) (d : Nat) : Nat :=
  s.rd F.DEEP_EXTENTS_COUNT d - (match SMap.find? s.mas.drives d with
    | some v => v.retired.length
    | none => 0)
/-- BUDGET[b] USED and WIN_USED (R221). -/
def State.budgetWord (s : State) (b k base : Nat) : Nat :=
  if k = 2 then s.budgetUsed b else if k = 3 then s.windowUsed b else base
/-- INSTALL_STATUS (R248). -/
def State.installStatus (s : State) : Nat :=
  s.installsRunning + 2 ^ 4 * s.wts.pkgs.length + 2 ^ 18 * (s.wts.pkgs.filter (fun e => decide (e.2.st = .loaded))).length
/-- TAFFETA_STATUS (R248, R21): the sections that engine `e` has still to expand, and whether it is in service. -/
def State.taffetaStatus (s : State) (e : Nat) : Nat :=
  putSat (b2n (decide (0 < s.engineJobs e)) + 256 * b2n (s.engineOn e)) 1 7 (s.engineJobs e)

def reqCode : ReqSt → Nat
  | .free => 0
  | .waiting => 1
  | .prefill => 2
  | .decode => 3
  | .preempted => 4
  | .ending => 5
/-- SLOT_INFO (R271). -/
def State.slotInfo (s : State) : Nat :=
  match s.req (s.rd F.SLOT_QUERY_SLOT) with
  | none => 0
  | some r =>
    reqCode r.st + 2 ^ 4 * (rqClass (rqD r) % 16) + 2 ^ 8 * (r.tenant % 4096) + 2 ^ 32 * rqPkg (rqD r) + 2 ^ 48 * rqAdapter (rqD r) +
    2 ^ 64 * r.tokens.length + 2 ^ 96 * min r.dropped 65535 + 2 ^ 112 * min r.preempts 255 + 2 ^ 120 * finalCode r.final

/-- HOST_PORT_STATUS.QPS (R304): bound queue pairs of a port. -/
def State.boundQps (s : State) (p : Nat) : Nat := SMap.countIf s.host.qps (fun _ q => decide (q.port = p) && q.bound.isSome)
/-- LEASE_LEFT (R304). -/
def State.leaseLeft (s : State) : Nat := match s.host.lease with
  | some t => (t - s.now) / 1000000
  | none => 0
def sessCode : SessSt → Nat
  | .closed => 0
  | .opening => 1
  | .active => 2
  | .detached => 3
/-- SESSION_INFO (R304). -/
def State.sessionInfo (s : State) : Nat :=
  match s.session (s.rd F.SESSION_QUERY_INDEX) with
  | none => 0
  | some v => sessCode v.st + 2 ^ 2 * (v.roles % 8) + 2 ^ 5 * v.qps.length + 2 ^ 8 * v.gen + 2 ^ 32 * (v.next % 2 ^ 32)

/-- TAKEOVER_STATUS (R366). -/
def State.takeoverStatus (s : State) (base : Nat) : Nat :=
  let n := s.jr.table.length
  putSat (putBits base 0 1 (b2n (decide (0 < n)))) 14 17 (s.jr.table.filter (fun e => e.2.final.isNone)).length
/-- REPAIR_STATUS (R366). -/
def State.repairStatus (s : State) : Nat :=
  s.fuses.retiredStacks.length + 2 ^ 5 * s.fuses.retiredDies.length + 2 ^ 8 * s.fuses.retiredPairs.length +
  2 ^ 14 * s.fuses.repairs.length + 2 ^ 18 * b2n s.fuses.shrunk

/-- ERR_DATA (R386): the record that ERR_QUERY names. -/
def State.errData (s : State) : Nat :=
  let r := s.rd F.ERR_QUERY_RING
  let n := s.rd F.ERR_QUERY_INDEX
  let k := if s.flag F.ERR_QUERY_OVF then ovfKey r n else errKey r n
  match s.errAt k with
  | some v => if !s.flag F.ERR_QUERY_OVF && decide (ringSize r ≤ n) then 0 else ofBytes (recBytes v)
  | none => 0
/-- SCRUB_AGE (R386). -/
def State.scrubAge (s : State) (k : Nat) : Nat := (s.now - SMap.getD s.err.scrubAt k 0) / 1000000000

/-- What word `k` of instance `i` of a register reads. -/
def State.viewNat (s : State) (r : Reg) (i : Nat) (w : Win) (k : Nat) : Nat :=
  let base := (s.word r i w k).toNat
  match w with
  | .tile d y x => match r with
    | .TILE_ID => s.tileId d y x
    | .TILE_STATUS => if isCompute y x then s.tileStatus d y x base else base
    | .MT_STATUS => s.mtStatus d y x base
    | _ => base
  | .die d => match r with
    | .CTX_SLOT => putBits (putBits base 3 1 (b2n (s.slotHolds d i))) 4 1 (b2n (s.anySpilling d i))
    | .QUEUE_PART => s.queuePart d i
    | .QUEUE_OCC => s.queueOcc d i
    | .SERGE_STATUS => putBits base 1 1 (b2n (s.pairRetired d i))
    | .MEA_STATUS => base % 2 + meaSite d i
    | .WC_PINNED => s.wcPinned d
    | .DISPATCH_STATUS => s.dispatchStatus d i
    | .MBOX_STATUS => putBits (putBits base 0 5 (s.mbox d i).length) 5 2 ((s.mbox d i).headD (0, 0)).1
    | .MBOX_HEAD => ((s.mbox d i).headD (0, 0)).2
    | .TAFFETA_DIE_STATUS => s.taffetaStatus (2 + d)
    | _ => base
  | .glob => match r with
    | .MODULE_IDENT => Grade.byte s.fuses.grade + 256 * s.fuses.stepping + 65536 * 0x0D04
    | .DIE_STATUS => s.dieStatus
    | .ARRAY_SHAPE => s.arrayShape
    | .NEAR_FRAMES => s.nearFrames
    | .BULK_FRAMES => s.bulkInService
    | .DEEP_EXTENTS => s.deepInService i
    | .NEAR_FREE => s.poolFree
    | .NEAR_RETIRED => s.mas.retired.length
    | .BULK_FREE => s.bulkFree
    | .DEEP_FREE => s.deepFree i
    | .MIG_STATUS => s.migStatus i
    | .BUDGET => s.budgetWord i k base
    | .TAFFETA_STATUS => s.taffetaStatus i
    | .INSTALL_STATUS => s.installStatus
    | .SLOTS_IN_USE => s.stew.reqs.length
    | .SLOTS_WAITING => SMap.countIf s.stew.reqs (fun _ q => decide (q.st = .waiting))
    | .PREFIX_HANDLES => s.stew.prefixes.length
    | .SLOT_INFO => wordAt s.slotInfo k
    | .TENANT_BUDGET => if k = 3 then s.levelWord i else base
    | .HOST_PORT_STATUS => putBits base 3 11 (s.boundQps i)
    | .LEASE_LEFT => s.leaseLeft
    | .SESSION_INFO => wordAt s.sessionInfo k
    | .TAKEOVER_STATUS => s.takeoverStatus base
    | .REPAIR_STATUS => s.repairStatus
    | .ERR_DATA => wordAt s.errData i
    | .SCRUB_AGE => s.scrubAge i
    | .MGMT_WATCH => min 127 ((s.now - s.host.mgmtSeen) / 1000000000)
    | .FW_SVN => base % 256 + 256 * s.fuses.svnFloor + 65536 * s.fuses.revoked
    | .LC_STATE => lcCode s.lc + 8 * s.epoch
    | .SERIAL_LO => s.fuses.serial % 2 ^ 32
    | .SERIAL_HI => s.fuses.serial / 2 ^ 32 % 2 ^ 32
    | .PIN_STATUS => putBits base 2 1 (b2n s.faultLow)
    | _ => base
def State.view (s : State) (r : Reg) (i : Nat) (w : Win) (k : Nat) : Word := BitVec.ofNat 32 (s.viewNat r i w k)

end Sys2Proof.Machine
end

