-- ==== Sys2Proof/Machine/Access.lean ====
section
/-!
DEFINITION. Access to registers (R15, R28 to R32, R165, R400, R441, R478): who may reach what, reads with their latches, and writes
applied whole or refused whole; the writes that are rows of their own.
-/
namespace Sys2Proof.Machine

/-! ## Rights (R29, R30, R32, R400, R441) -/

def isFirmware : Path → Bool
  | .firmware _ => true
  | _ => false
def isRack : Path → Bool
  | .mgmt => true
  | .i3c => true
  | _ => false

/-- R400, R441: the blocks that answer in the present state. Start-up's own firmware reaches every block from phase 3 on. -/
def State.blockOpen (s : State) (path : Path) (a : Nat) : Bool :=
  if s.lc = .retired then decide (a < 0x10000) || decide (a = 0x20020) || decide (a = 0x20000)
  else if s.modState = 1 then
    decide (a < 0x30000) || (decide (path = .tap) && decide (a / 0x10000 = 3)) ||
    (isFirmware path && decide (3 ≤ s.rd F.BOOT_STATUS_STAGE ∧ s.rd F.BOOT_STATUS_STAGE ≤ 6))
  else true

/-- R29: blocks the rack manager reads. -/
def rackBlock (a : Nat) : Bool := decide (a / 0x10000 = 0 ∨ a / 0x10000 = 1 ∨ a / 0x10000 = 2 ∨ a / 0x10000 = 4)
/-- R29, R427, R436: registers the rack manager writes. -/
def rackWrites : Reg → Bool
  | .PWR_CTRL | .PWR_DRAIN_MS | .PWR_CAP | .PWR_CAP_CFG | .BOOT_CFG | .COLD_RESET | .STAGE_CTRL | .STAGE_SERVER | .STAGE_FILE => true
  | _ => false
/-- R30, R459: what a path may read. The test access port reaches only the Percale block. -/
def State.mayRead (s : State) (path : Path) (a : Nat) : Bool :=
  match path with
  | .firmware _ => true
  | .session _ => true
  | .mgmt => rackBlock a
  | .i3c => rackBlock a
  | .tap => decide (a / 0x10000 = 3) && decide (s.lc = .factory ∨ s.lc = .returned)
/-- R30, R444: what a path may write. -/
def State.mayWrite (s : State) (path : Path) (a : Nat) (r : Reg) : Bool :=
  match path with
  | .firmware _ => decide (r ≠ .LC_REQUEST) && decide (r ≠ .LC_CONFIRM)
  | .session _ => s.isOwner path
  | .mgmt => rackWrites r
  | .i3c => rackWrites r
  | .tap => decide (a / 0x10000 = 3) && decide (s.lc = .factory ∨ s.lc = .returned)

/-- The compute die whose window holds an address. -/
def dieOf (a : Nat) : Option Nat := if a < 0x1000000 ∨ 0x5000000 ≤ a then none else some (a / 0x1000000 - 1)
/-- R32: the state that a refusal of a die's window carries: its power state, or 4 once retired; none when it answers. -/
def State.dieCloses (s : State) (a : Nat) : Option Nat :=
  match dieOf a with
  | none => none
  | some d =>
    if s.dieShut d then some (s.shutState d) else none
/-- R404: an access to the window of a die in A1 wakes it. -/
def State.wakeFor (s : State) (a : Nat) : State :=
  match dieOf a with
  | none => s
  | some d => if s.dieP d = 1 then s.setDieP d 0 else s

/-! ## Reads (R28, R31, R165) -/

/-- R165: the 64-bit counters. -/
def latching : Reg → Bool
  | .DISPATCH_GROUPS | .DISPATCH_SKIPPED | .DISPATCH_MISS_CYCLES | .STREAM_STALL | .DIE_STALL | .MIG_PROMOTED | .MIG_DEMOTED
  | .MIG_BYTES | .TIER_UE | .FETCH_NEIGHBOUR | .FETCH_DEEP | .FETCH_RETRY | .TAFFETA_IN_BYTES | .TAFFETA_OUT_BYTES
  | .TAFFETA_DIE_IN_BYTES | .TAFFETA_DIE_OUT_BYTES | .LINK_CNT | .LINK_MOD_CNT | .VELVET_RETRY | .JOURNAL_JSN | .JOURNAL_ACKED
  | .FAILOVER_CNT | .ERR_COUNT | .DET_CYCLES => true
  | _ => false
/-- A path's latch of the high register at an address. -/
def State.latch (s : State) (path : Path) (a : Nat) : Option Word :=
  (s.latches.find? (fun l => decide (l.1 = path) && decide (l.2.1 = a))).map (·.2.2)
def State.dropLatch (s : State) (path : Path) (a : Nat) : State :=
  { s with latches := s.latches.filter (fun l => !(decide (l.1 = path) && decide (l.2.1 = a))) }

/-- R165: the low half of a counter is read: the high half is latched for the path. -/
def State.readLow (s : State) (path : Path) (r : Reg) (i : Nat) (w : Win) : Word × State :=
  let a := r.addr i w 1
  let s1 := s.dropLatch path a
  (s.view r i w 0, { s1 with latches := (path, a, s.view r i w 1) :: s1.latches })
/-- R165: the high half is read: the path's latch, which the read consumes, or else the live value. -/
def State.readHigh (s : State) (path : Path) (r : Reg) (i : Nat) (w : Win) : Word × State :=
  let a := r.addr i w 1
  match s.latch path a with
  | some v => (v, s.dropLatch path a)
  | none => (s.view r i w 1, s)

/-- R28 to R32: a read: its value, or none with what the refusal carries. -/
def State.readReg (s : State) (path : Path) (a : Nat) : Except Nat Word × State :=
  if !s.mayRead path a || !s.blockOpen path a then (.error 0, s)
  else match s.dieCloses a with
    | some d => (.error d, s)
    | none =>
      match s.locate a with
      | none => (.ok 0, s)
      | some (r, i, w, k) =>
        let s1 := s.wakeFor a
        let v := if latching r ∧ k = 0 then s1.readLow path r i w
          else if latching r ∧ k = 1 then s1.readHigh path r i w
          else (s1.view r i w k, s1)
        (.ok v.1, v.2)

/-! ## Writes (R15, R16, R478) -/

/-- The part of a field in word `k`: its first bit in the word and its width there. -/
def FieldDef.part (f : FieldDef) (k : Nat) : Nat × Nat :=
  let lo := max f.lo (32 * k)
  let hi := min (f.lo + f.w) (32 * k + 32)
  (lo - 32 * k, hi - lo)
/-- Whether a field has bits in word `k`. -/
def FieldDef.inWord (f : FieldDef) (k : Nat) : Bool := decide (max f.lo (32 * k) < min (f.lo + f.w) (32 * k + 32))
/-- R478: whether a write may reach a field. -/
def Acc.writable (isSealed : Bool) : Acc → Bool
  | .ro => false
  | .rwl => !isSealed
  | _ => true
/-- R15: the word after a write of `v` over `old`. -/
def FieldDef.applyWrite (isSealed : Bool) (k v old : Nat) (n : Nat) (f : FieldDef) : Nat :=
  let p := FieldDef.part f k
  match f.acc with
  | .rw => putBits n p.1 p.2 (bitsOf v p.1 p.2)
  | .rwl => if isSealed then n else putBits n p.1 p.2 (bitsOf v p.1 p.2)
  | .w1c => putBits n p.1 p.2 (bitsOf old p.1 p.2 - (bitsOf old p.1 p.2 &&& bitsOf v p.1 p.2))
  | _ => n
def writtenWord (isSealed : Bool) (r : Reg) (k v old : Nat) : Nat :=
  (r.info.fields.filter (fun f => FieldDef.inWord f k)).foldl (fun n f => FieldDef.applyWrite isSealed k v old n f) old
/-- R478: a sealed field would change. -/
def FieldDef.breaksSeal (isSealed : Bool) (k v old : Nat) (f : FieldDef) : Bool :=
  let p := FieldDef.part f k
  isSealed && decide (f.acc = .rwl) && decide (bitsOf v p.1 p.2 ≠ bitsOf old p.1 p.2)
/-- R478: the value of the whole field that the write gives it, which its description may refuse. A range that a description
states without saying that a value outside it is refused is enforced as well: a DESIGN CHOICE (notes/assumptions/104). -/
def State.fieldRefuses (s : State) (r : Reg) (i : Nat) (w : Win) (k v : Nat) (f : FieldDef) : Bool :=
  let whole := s.span r i w 0 r.info.words
  let p := FieldDef.part f k
  let n := bitsOf (putBits whole (32 * k + p.1) p.2 (bitsOf v p.1 p.2)) f.lo f.w
  (decide (f.acc = .rw) || decide (f.acc = .rwl)) && (decide (n < f.least) || decide (f.most < n))
/-- R478: whether a write of word `k` is refused by the general rules. -/
def State.writeRefused (s : State) (r : Reg) (i : Nat) (w : Win) (k v : Nat) : Bool :=
  let fs := r.info.fields.filter (fun f => FieldDef.inWord f k)
  let old := (s.word r i w k).toNat
  !(fs.any (fun f => Acc.writable s.host.isSealed f.acc)) || fs.any (fun f => FieldDef.breaksSeal s.host.isSealed k v old f) ||
  fs.any (fun f => s.fieldRefuses r i w k v f)

/-! ## Registers whose writes act -/

/-- R407: the requests of PWR_CTRL, by bit; one that is refused refuses the write. -/
def State.writePwrCtrl (s : State) (v : Nat) : Option State :=
  let f := fun (g : Option State) (e : Nat × (State → Option State)) => match g with
    | none => none
    | some t => if bitOf v e.1 then e.2 t else some t
  [(0, State.askDrain), (1, State.askPark), (2, State.askReady), (3, State.askKeepalive)].foldl f (some s)
/-- R436, R437, R448: STAGE_CTRL. A commit that runs refuses START and ABORT. -/
def State.writeStageCtrl (s : State) (v : Nat) : Option State :=
  let s0 := s.wr F.STAGE_CTRL_KIND (bitsOf v 3 1)
  let st := s.rd F.STAGE_STATUS_STATE
  let a := if bitOf v 0 then (if s.mayStage then some s0.stageStart else none) else some s0
  let b := if bitOf v 1 then (if st = 2 then a.map State.commitStart else none) else a
  if bitOf v 2 then (if st = 3 ∨ bitOf v 1 then none else b.map State.stageDrop) else b
/-- R432, R437, R448: COLD_RESET. -/
def State.writeColdReset (s : State) (v : Nat) : Option State :=
  if bitsOf v 0 16 ≠ 0xB007 ∨ s.resetRefused then none else some (s.resetThen 2 (bitOf v 16))
/-- R444: LC_REQUEST; a commit in progress refuses it, as does a target that R443 gives the owner from no state. -/
def State.writeLcRequest (s : State) (v : Nat) : Bool × State :=
  let t := bitsOf v 0 3
  let allowed := match s.lc, t with
    | .provisioned, 3 => true
    | .deployed, 4 => true
    | .provisioned, 5 => true
    | .deployed, 5 => true
    | _, _ => false
  if s.rd F.STAGE_STATUS_STATE = 3 ∨ !allowed then (false, s.lcDisarm) else (true, s.lcArm t)
/-- R452, R453, R458, R460: PCL_CTRL: FULL and TEST_POINT, then ABORT or START. With both set ABORT wins and START does nothing:
a DESIGN CHOICE (notes/assumptions/38). -/
def State.writePclCtrl (s : State) (path : Path) (v : Nat) : Bool × State :=
  let s1 := (s.wr F.PCL_CTRL_FULL (bitsOf v 2 1)).wr F.PCL_CTRL_TEST_POINT (bitsOf v 3 3)
  if bitOf v 1 then (true, s1.pclAbort)
  else if bitOf v 0 then s.pclStart path v
  else (true, s1)
/-- R398, R399: TIMING_PREP: refused unless every stream of the dies named is IDLE or STOPPED. -/
def State.writeTimingPrep (s : State) (v : Nat) : Option State :=
  let ds := (List.range 4).filter (fun d => bitOf v d)
  if ds.all (fun d => (List.range 64).all (fun st => decide (s.strState d st = 0 ∨ s.strState d st = 3))) then
    some (ds.foldl (fun (s : State) d =>
      let s1 := s.wcDropUnpinned d
      { s1 with arr := { s1.arr with trans := SMap.keep s1.arr.trans (fun k _ => decide (k / 10 ≠ d)) } }) s)
  else none
/-- R166: STREAM_CTRL. -/
def State.writeStreamCtrl (s : State) (d st v : Nat) : State :=
  let s1 := (s.wr F.STREAM_CTRL_STEP_MASTER (bitsOf v 3 1) st (.die d)).wr F.STREAM_CTRL_LOOKAHEAD (bitsOf v 4 8) st (.die d)
  let s2 := if bitOf v 0 then s1.startStream d st else s1
  let s3 := if bitOf v 1 then s2.stopStream d st else s2
  if bitOf v 2 then s3.abortStream d st else s3
/-- R337, R347, R348: JOURNAL_PARTNER: a new name starts a first pairing. -/
def State.writePartner (s : State) (v : Nat) : Option State :=
  if bitOf v 13 ∧ ¬ s.partnerOk (bitsOf v 0 13) then none
  else
    let changed := decide (s.rd F.JOURNAL_PARTNER_MODULE ≠ bitsOf v 0 13)
    let s1 := (s.wr F.JOURNAL_PARTNER_MODULE (bitsOf v 0 13)).wr F.JOURNAL_PARTNER_VALID (bitsOf v 13 1)
    some (if s1.jState = 0 then s1.startPairing
      else if changed ∧ s1.jState = 3 then
        (match s1.namedPartner with
         | some p => s1.askFirst p
         | none => s1)
      else s1)
/-- R208, R221: whether the migration engines are idle. -/
def State.enginesIdle (s : State) : Bool := s.mas.jobs.isEmpty && s.mas.reqs.isEmpty && decide (s.rd F.MIG_HEAD_INDEX = s.rd F.MIG_TAIL_INDEX)

/-- A write of word `k` of a register that the general rules allow: whether it is accepted, and the state; `n` is the word as R15
gives it. A refused write changes nothing but what its own rule says. -/
def State.writeReg (s : State) (path : Path) (r : Reg) (i : Nat) (w : Win) (k v n : Nat) : Bool × State :=
  let plain := s.setWord r i w k (BitVec.ofNat 32 n)
  let opt := fun (o : Option State) => match o with
    | some t => (true, t)
    | none => (false, s)
  let guard := fun (ok : Bool) (t : State) => if ok then (true, t) else (false, s)
  match r, w with
  | .TILE_PARAM, .tile d y x => guard (!(s.flag F.TILE_PARAM_CTRL_PENDING (i / 16) (.tile d y x))) plain
  | .TILE_PARAM_CTRL, .tile d y x => (true, if bitOf v 0 then s.commitParams d y x i else s)
  | .WC_CFG, .die d => (true, if bitOf v 1 then plain.wcDropUnpinned d else plain)
  | .STREAM_CTRL, .die d => (true, s.writeStreamCtrl d i v)
  | .STREAM_TAIL, .die d => opt (s.tailAdvance d i (v % 2048) [])
  | .MBOX_STATUS, .die d => (true, if bitOf v 7 then s.popMbox d i else s)
  | .POOL_WATER, _ => guard (decide (bitsOf n 0 16 < bitsOf n 16 16)) plain
  | .MIG_RING, _ => guard (s.enginesIdle && (decide (k = 1) || decide (n % 4096 = 0))) plain
  | .MIG_CPL, _ => guard (s.enginesIdle && (decide (k = 1) || decide (n % 4096 = 0))) plain
  | .SCHED_CHUNK, _ => guard (decide (1 ≤ bitsOf n 0 15 ∧ bitsOf n 0 15 ≤ s.rd F.SCHED_CFG_MB_MAX)) plain
  | .TENANT_BUDGET, _ => (true, s.budgetWrite i k (v % 2 ^ 32))
  | .HOST_PORT_CFG, _ =>
    (true, if bitsOf n 0 2 ≠ s.rd F.HOST_PORT_CFG_SPEED i then plain.hostPortDown i 0 else plain)
  | .LINK_PLAN, _ => guard ((List.range 32).all (fun p => decide (s.portState p = 0))) plain.portGroups
  | .GROUP_CFG, _ => guard ((List.range 32).all (fun p => decide (s.portState p = 0))) plain
  | .LINK_PORT_CFG, _ =>
    let s1 := s.enablePort i (bitOf v 0)
    (true, (if bitOf v 1 then s1.retrain i else s1).bundlesDown)
  | .ROUTE, _ => (true, plain.flushWaiting.bundlesDown)
  | .JOURNAL_PARTNER, _ => opt (s.writePartner v)
  | .TAKEOVER_SET, _ => guard (!(bitOf v 13) || decide (bitsOf v 0 13 ≠ s.ownId)) plain
  | .JOURNAL_TIMING, _ => guard (decide (2 * (10 * bitsOf n 0 8) < 100 * bitsOf n 8 8)) plain
  | .ERR_RD, _ => opt (s.retireTo i (v % 2 ^ 32))
  | .ERR_OVF_VALID, _ => (true, s.retireOvf i (v % 2 ^ 32 * 2 ^ (32 * k)))
  | .TIMING_PREP, _ => opt (s.writeTimingPrep v)
  | .PWR_CTRL, _ => opt (s.writePwrCtrl v)
  | .PWR_CAP, _ => s.capWrite (isRack path) (bitsOf v 0 13)
  | .PWR_CAP_CFG, _ => (true, plain.updateLimit)
  | .PWR_STATUS, _ => (true, plain.faultFrom s)
  | .PIN_STATUS, _ => (true, if bitOf v 3 then s.noteOvervolt false else s)
  | .BOOT_CFG, _ =>
    let b := plain.boot
    (true, { plain with boot := { b with nor := { b.nor with autoReady := bitOf v 1 } } })
  | .COLD_RESET, _ => opt (s.writeColdReset v)
  | .LC_REQUEST, _ => s.writeLcRequest v
  | .LC_CONFIRM, _ => s.lcConfirm v
  | .STAGE_CTRL, _ => opt (s.writeStageCtrl v)
  | .PCL_CTRL, _ => s.writePclCtrl path v
  | .PCL_CONFIRM, _ => s.pclConfirm path v
  | _, _ => (true, plain)

/-- R338: registers whose writes the journal holds: settings, not requests. -/
def settles : Reg → Bool
  | .PWR_CTRL | .COLD_RESET | .LC_REQUEST | .LC_CONFIRM | .STAGE_CTRL | .PCL_CTRL | .PCL_CONFIRM | .TIMING_PREP | .ERR_RD
  | .ERR_OVF_VALID | .STREAM_TAIL | .MBOX_STATUS | .TILE_PARAM_CTRL | .PWR_STATUS | .PIN_STATUS => false
  | _ => true

/-- What became of a write: applied; refused with what the refusal carries. -/
inductive Wrote where
  | applied
  | refused (detail : Nat)
  deriving DecidableEq, Repr

/-- R28 to R32, R478: a write on a path: whole or not at all. A setting written is journaled (R338). -/
def State.applyWrite (s : State) (path : Path) (a v : Nat) : Wrote × State :=
  match s.locate a with
  | none => (.refused (if s.blockOpen path a then (s.dieCloses a).getD 0 else 0), s)
  | some (r, i, w, k) =>
    if !s.mayWrite path a r || !s.blockOpen path a then (.refused 0, s)
    else match s.dieCloses a with
      | some d => (.refused d, s)
      | none =>
        if s.writeRefused r i w k (v % 2 ^ 32) then (.refused 0, s)
        else
          let s1 := s.wakeFor a
          let old := (s1.word r i w k).toNat
          let g := s1.writeReg path r i w k (v % 2 ^ 32) (writtenWord s1.host.isSealed r k (v % 2 ^ 32) old)
          if g.1 then
            let held := if r = .TENANT_BUDGET then v % 2 ^ 32 else (g.2.word r i w k).toNat
            (.applied, if settles r && (dieOf a).isNone && decide (s.modState ≠ 1) && !s.starting then g.2.journalReg a held else g.2)
          else (.refused 0, g.2)

/-- R28, R31: the value of the register at an address, for a path that may read it. -/
def State.valueFor (s : State) (path : Path) (a : Nat) : Option Word :=
  if s.mayRead path a && s.blockOpen path a && (s.dieCloses a).isNone then
    (match s.locate a with
     | some (r, i, w, k) => some (s.view r i w k)
     | none => some 0)
  else none
/-- R31, R32: the reply to a write: what became of it, and the register's value just after it. -/
def State.writeReply (s : State) (path : Path) (a : Nat) (ok : Bool) (detail : Nat) : State :=
  s.emit (.written path a ok detail (s.valueFor path a))
/-- Firmware or another path writes, and has its reply. -/
def State.doWrite (s : State) (path : Path) (a v : Nat) : State :=
  if s.dark then s
  else
    let g := s.applyWrite path a v
    match g.1 with
    | .applied => g.2.writeReply path a true 0
    | .refused d => g.2.writeReply path a false d

/-! ## Rows -/

/-- WRITE_REGISTER (R478). -/
def execWriteRegister (path : Path) (addr value : Nat) (s : State) : Res := .next (s.doWrite path addr value)
/-- COUNTER_LOW_READ (R165): the register read is the low one of a counter. -/
def execCounterLowRead (path : Path) (addr : Nat) (s : State) : Res := .next (if s.dark then s else (s.readReg path addr).2)
/-- ERR_RD (R386). -/
def execErrRd (path : Path) (ring seq : Nat) (s : State) : Res :=
  if ring < 5 then .next (s.doWrite path (Reg.addr .ERR_RD ring .glob 0) seq) else .refused (.noSuchUnit "error ring")
/-- ERR_OVF_VALID (R380): a write of one of the ring's two words. -/
def execErrOvfValid (path : Path) (ring half bits : Nat) (s : State) : Res :=
  if ring < 5 ∧ half < 2 then .next (s.doWrite path (Reg.addr .ERR_OVF_VALID ring .glob half) bits)
  else .refused (.noSuchUnit "error ring")
/-- TIMING_PREP (R399, R398). -/
def execTimingPrep (path : Path) (dies : Nat) (s : State) : Res := .next (s.doWrite path (Reg.addr .TIMING_PREP 0 .glob 0) dies)
/-- DRAIN, PARK, READY and KEEPALIVE (R407, R431): writes of PWR_CTRL. -/
def execDrain (path : Path) (s : State) : Res := .next (s.doWrite path (Reg.addr .PWR_CTRL 0 .glob 0) 1)
def execPark (path : Path) (s : State) : Res := .next (s.doWrite path (Reg.addr .PWR_CTRL 0 .glob 0) 2)
def execReady (path : Path) (s : State) : Res := .next (s.doWrite path (Reg.addr .PWR_CTRL 0 .glob 0) 4)
def execKeepalive (path : Path) (s : State) : Res := .next (s.doWrite path (Reg.addr .PWR_CTRL 0 .glob 0) 8)
/-- CAP_W (R410): a write of PWR_CAP. -/
def execCapW (path : Path) (watts : Nat) (s : State) : Res := .next (s.doWrite path (Reg.addr .PWR_CAP 0 .glob 0) watts)
/-- OVERVOLT_CLEAR (R477): a write of 1 to OVERVOLT. -/
def execOvervoltClear (path : Path) (s : State) : Res := .next (s.doWrite path (Reg.addr .PIN_STATUS 0 .glob 0) 8)
/-- KEY (R432): a write of COLD_RESET. -/
def execKey (path : Path) (value : Nat) (s : State) : Res := .next (s.doWrite path (Reg.addr .COLD_RESET 0 .glob 0) value)
/-- STAGE_START (R436), COMMIT (R437), STAGE_ABORT (R448): writes of STAGE_CTRL with a KIND. -/
def execStageStart (path : Path) (kind : Nat) (s : State) : Res :=
  .next (s.doWrite path (Reg.addr .STAGE_CTRL 0 .glob 0) (1 + 8 * (kind % 2)))
def execCommit (path : Path) (kind : Nat) (s : State) : Res :=
  .next (s.doWrite path (Reg.addr .STAGE_CTRL 0 .glob 0) (2 + 8 * (kind % 2)))
def execStageAbort (path : Path) (kind : Nat) (s : State) : Res :=
  .next (s.doWrite path (Reg.addr .STAGE_CTRL 0 .glob 0) (4 + 8 * (kind % 2)))
/-- LC_REQUEST and LC_CONFIRM (R444). -/
def execLcRequest (path : Path) (target : Nat) (s : State) : Res := .next (s.doWrite path (Reg.addr .LC_REQUEST 0 .glob 0) target)
def execLcConfirm (path : Path) (value : Nat) (s : State) : Res := .next (s.doWrite path (Reg.addr .LC_CONFIRM 0 .glob 0) value)
/-- PCL_START (R452, R453): START with FULL and TEST_POINT. -/
def execPclStart (path : Path) (full : Bool) (point : Nat) (s : State) : Res :=
  .next (s.doWrite path (Reg.addr .PCL_CTRL 0 .glob 0) (1 + 4 * b2n full + 8 * (point % 8)))
/-- PCL_CONFIRM (R453). -/
def execPclConfirm (path : Path) (value : Nat) (s : State) : Res := .next (s.doWrite path (Reg.addr .PCL_CONFIRM 0 .glob 0) value)
/-- PCL_ABORT (R458): ABORT with FULL and TEST_POINT as they stand. -/
def execPclAbort (path : Path) (s : State) : Res :=
  .next (s.doWrite path (Reg.addr .PCL_CTRL 0 .glob 0) (2 + 4 * s.rd F.PCL_CTRL_FULL + 8 * s.rd F.PCL_CTRL_TEST_POINT))

/-- I3C_WRITE (R303): a private write sets the address and, with a value, writes the register; a refusal is a NACK. -/
def execI3cWrite (addr : Nat) (value : Option Nat) (s : State) : Res :=
  .next (if s.dark then s
    else
      let s1 : State := { s with host := { s.host with i3cAddr := addr % 2 ^ 32 } }
      match value with
      | none => s1
      | some v =>
        let g := s1.applyWrite .i3c (addr % 2 ^ 32) v
        g.2.emit (.i3cAck (decide (g.1 = .applied))))

end Sys2Proof.Machine
end

