-- ==== Sys2Proof/Machine/Startup.lean ====
section
/-!
DEFINITION. Start-up phase by phase (R431 to R442), the configuration record (R438 to R440), the end of a staged fetch (R436) and
the test access port (R459).
-/
namespace Sys2Proof.Machine

/-! ## The configuration record (R438, R440) -/

/-- R438: an entry of a known type with its zero bytes zero. -/
def entryForm (e : List Byte) : Bool :=
  let i := at' e 2 2
  decide (at' e 4 4 = 0) && (match at' e 0 2 with
    | 1 => decide (i = 0) && allZero (e.drop 16)
    | 2 => decide (i < 4) && allZero (e.drop 16)
    | 3 => decide (i < 4) && decide (at' e 12 4 = 0)
    | 4 => decide (i = 0) && allZero (e.drop 16)
    | _ => false)
/-- R440: a REG entry that would be refused as a firmware write under R15 or R30. -/
def State.entryRefused (s : State) (e : List Byte) : Bool :=
  if at' e 0 2 = 1 then
    (match s.locate (at' e 8 4) with
     | none => true
     | some (r, i, w, k) => !(s.mayWrite (.firmware 0) (at' e 8 4) r) || s.writeRefused r i w k (at' e 12 4))
  else false
/-- R440: a record that the module accepts; `fresh` leaves seals out, as they stand after a cold reset. -/
def State.recordAccepted (s : State) (fresh : Bool) (b : List Byte) : Bool :=
  let t : State := if fresh then { s with host := { s.host with isSealed := false } } else s
  s.cfgOk b && (cfgEntries b).all (fun e => entryForm e && !(t.entryRefused e))
/-- R440: one entry is applied: a firmware write, or an address. -/
def State.applyEntry (s : State) (e : List Byte) : State :=
  if at' e 0 2 = 1 then
    let g := s.applyWrite (.firmware 0) (at' e 8 4) (at' e 12 4)
    match g.1 with
    | .applied => { g.2 with boot := { g.2.boot with configured := g.2.boot.configured ++ [(at' e 8 4, at' e 12 4)] } }
    | .refused _ => g.2
  else
    let a := if at' e 0 2 = 3 then (e.drop 16).take 16 else (e.drop 12).take 4
    { s with boot := { s.boot with addrs := s.boot.addrs ++ [(at' e 0 2, at' e 2 2, at' e 8 4, a)] } }
/-- R440: the record in the NOR is applied in entry order, or its absence is the cause CFG. -/
def State.applyRecord (s : State) : State :=
  let b := s.boot.nor.config
  if s.recordAccepted false b then
    let s0 : State := { s with boot := { s.boot with configured := [], addrs := [] } }
    let s1 := ((cfgEntries b).foldl (fun (s : State) e => s.applyEntry e) s0).wr F.CFG_SEQ_VALUE (cfgSeq b)
    let n : Nor := { s1.boot.nor with lastSeq := cfgSeq b }
    let s2 : State := { s1 with boot := { s1.boot with nor := n, mCfg := Sm3.digest (b.take (cfgLength b)) } }
    if cfgSeals b then { s2 with host := { s2.host with isSealed := true } } else s2
  else s.wr F.BOOT_STATUS_CAUSE 10

/-! ## Phase 4 (R202, R205, R332) -/

/-- R332, R307: the velvet edges as they trained. -/
def State.trainEdges (s : State) (edges : List Nat) : State :=
  (List.range 6).foldl (fun (s : State) e => (s.wr F.VELVET_EDGE_MODULES_UP (edges.getD e 0) e).edgeState e) s
/-- R202, R203: the bulk tier, by what the SPD hubs report; one that is online already stays. -/
def State.trainBulk (s : State) (dimms : List (Nat × Nat × Nat)) : State :=
  if s.rd F.BULK_CFG_STATE ≠ 0 then s
  else
    let d := dimms.headD (0, 0, 0)
    let ok := decide (dimms.length = 16) && dimms.all (fun e => decide (e = d)) && decide (d.1 = 1 ∨ d.1 = 2) &&
      decide (1 ≤ d.2.1 ∧ d.2.1 ≤ 3)
    if ok then
      let frames := d.1 * (64000000000 * 2 ^ (d.2.1 - 1) / 131072)
      ((((s.wr F.BULK_CFG_STATE 1).wr F.BULK_CFG_DPC2 (d.1 - 1)).wr F.BULK_CFG_DIMM_SIZE d.2.1).wr F.BULK_CFG_POP_ERR 0).wr
        F.BULK_FRAMES_COUNT frames
    else s.wr F.BULK_CFG_POP_ERR 1
/-- R204, R205: one drive. A drive online already stays. -/
def State.findDrive (s : State) (f : Nat × Nat × Nat × Bool × Option Drive) : State :=
  let d := f.1
  if 16 ≤ d ∨ s.rd F.DEEP_DRIVE_STATE d = 1 then s
  else
    let s1 := (s.wr F.DEEP_DRIVE_PORT f.2.1 d).wr F.DEEP_DRIVE_LINK f.2.2.1 d
    let s2 := match f.2.2.2.2 with
      | some v => s1.setDrive d v
      | none => s1
    match f.2.2.2.1, SMap.find? s2.mas.drives d with
    | false, _ => s2.wr F.DEEP_DRIVE_STATE 3 d
    | true, none => s2.wr F.DEEP_DRIVE_STATE 2 d
    | true, some v =>
      if v.header = s2.driveIdent ∧ v.slot = d then (s2.wr F.DEEP_DRIVE_STATE 1 d).wr F.DEEP_EXTENTS_COUNT (min v.extents maxExtents) d
      else s2.wr F.DEEP_DRIVE_STATE 2 d
/-- R431: a die in service enters A2 at the core voltage of P0, its trained stacks online with their agents; a stack that fails
its training is retired. -/
def State.trainDie (s : State) (bits d : Nat) : State :=
  if s.fuses.retiredDies.contains d ∨ s.stew.disabled.contains (.die, d) ∨ s.dieP d ≤ 2 then s
  else
    let s1 := (((s.setDieP d 2).wr F.DIE_OPPOINT_POINT 0 d).wr F.DIE_OPPOINT_ACLK_M 16 d).wr F.DIE_OPPOINT_VCORE_MV 850 d
    (List.range 5).foldl (fun (s : State) j =>
      let k := 5 * d + j
      if s.fuses.retiredStacks.contains k then s
      else if bitOf bits k then
        ((s.orBits F.STACKS_ONLINE_STACK_ONLINE (2 ^ k)).wr F.MEA_STATUS_ONLINE 1 (2 * j) (.die d)).wr F.MEA_STATUS_ONLINE 1
          (2 * j + 1) (.die d)
      else s.retireStack k) s1
/-- R431: phase 4. -/
def State.trainTiers (s : State) (f : Found) : State :=
  let s1 := (s.trainEdges f.edges).trainBulk f.dimms
  let s2 := (List.range 4).foldl (fun (s : State) d => s.trainDie f.stackBits d) (s1.wrFlag F.PIN_STATUS_DIMM_SB_ERR f.sbErr)
  let s3 := f.drives.foldl (fun (s : State) e => s.findDrive e) s2
  { s3 with mas := { s3.mas with scanDue := true } }

/-! ## The phases (R431, R434, R442) -/

/-- R240: pages whose OWNER names no package on the module are freed. -/
def State.freeOrphans (s : State) : State :=
  s.mas.pages.foldl (fun (s : State) e =>
    if e.2.owner ≠ 0 ∧ (s.pkg e.2.owner).isNone then (s.markFreeing e.1).getD s else s) s
/-- R431, R206: phase 6, and Ready: the catalogues have been read. -/
def State.reachReady (s : State) (f : Found) : State :=
  let s1 := (List.range 4).foldl (fun (s : State) p => s.hostPortUp p (f.host.getD p 0)) s
  let s2 := (List.range 32).foldl (fun (s : State) p =>
    if s.portState p = 0 ∧ s.flag F.LINK_PORT_CFG_ENABLE p ∧ ¬ s.stew.disabled.contains (.linkPort, p) then s.portOn p else s) s1
  let s3 := ((s2.deepScan.freeOrphans).wr F.BOOT_STATUS_STAGE 7).moduleTo 2
  (({ s3 with boot := { s3.boot with bootBy := none, stopping := false } }).faultFrom s).startPairing

/-- STARTUP_PHASE_COMPLETE (R431, R434, R440, R442): the phase under way ends, and the next begins until Ready. `disagree` says that the
two boot ROMs reached different results; FORCE_RECOVERY enters recovery before the image is looked at; `misread` that a segment read again
does not match, `found` what training found. -/
def execStartupPhaseComplete (disagree misread : Bool) (found : Found) (s : State) : Res :=
  .next (if s.dark then s
    else match s.rd F.BOOT_STATUS_STAGE with
      | 1 =>
        if disagree then (((s.wr F.BOOT_STATUS_CAUSE 11).endStartup 9).moduleTo 1).faultFrom s
        else if s.flag F.BOOT_CFG_FORCE_RECOVERY then s.enterRecovery 8
        else s.wr F.BOOT_STATUS_STAGE 2
      | 2 =>
        let c := if disagree then 7 else s.headerCause s.boot.nor.image
        if c ≠ 0 then s.enterRecovery c else s.wr F.BOOT_STATUS_STAGE 3
      | 3 =>
        let b := s.boot.nor.image
        if disagree then s.enterRecovery 7
        else if !imgDigests b then s.enterRecovery 6
        else
          let s1 := ((s.wr F.FW_VERSION_VALUE (imgVersion b)).wr F.FW_SVN_SVN (imgSvn b)).wr F.BOOT_STATUS_STAGE 4
          { s1 with boot := { s1.boot with mFw := Sm3.digest (b.take 1024), sram := imgSeg b 0 } }
      | 4 => (s.trainTiers found).wr F.BOOT_STATUS_STAGE 5
      | 5 =>
        if misread then s.enterRecovery 6
        else
          let s1 : State := { s with boot := { s.boot with span := imgSpan s.boot.nor.image } }
          ((s1.wr F.STEWARD_STATUS_STANDBY_READY 1).applyRecord).wr F.BOOT_STATUS_STAGE 6
      | 6 => s.reachReady found
      | _ => s)

/-! ## Staging and the test access port -/

/-- STAGE_FETCH_COMPLETE (R436): the file has arrived, or the server has answered with an error. -/
def execStageFetchComplete (got : Option (List Byte)) (s : State) : Res :=
  .next (if s.rd F.STAGE_STATUS_STATE ≠ 1 then s
    else match got with
      | none => s.stageFail 12
      | some b =>
        let k := s.rd F.STAGE_CTRL_KIND
        if (if k = 0 then maxImage else 1048576) < b.length then s.stageFail 14
        else
          let s1 := s.wr F.STAGE_STATUS_PROGRESS ((b.length + 4095) / 4096)
          let c := if k = 0 then s.imageCause b else if s.recordAccepted true b then 0 else 10
          if c ≠ 0 then s1.stageFail c
          else
            let s2 := s1.wr F.STAGE_STATUS_STATE 2
            { s2 with boot := { s2.boot with staged := some (k, b) } })

/-- TAP_INSTRUCTION (R459): in FACTORY and RETURNED every instruction acts; in every other state only IDCODE and BYPASS. The IDCODE
value is not given: a free value. Boundary scan acts on the lands alone. -/
def execTapInstruction (op : TapOp) (s : State) : Res :=
  .next (if s.boot.off then s
    else
      let all := decide (s.lc = .factory ∨ s.lc = .returned)
      match op with
      | .bypass => s
      | .idcode => (s.useFree).2.emit (.tap ((s.useFree).1 % 2 ^ 32))
      | .boundary => s
      | .read a =>
        if all then
          (match s.readReg .tap a with
           | (.ok v, t) => t.emit (.tap v.toNat)
           | (.error _, t) => t.turnAway "read")
        else s
      | .write a v => if all then s.doWrite .tap a v else s)

end Sys2Proof.Machine
end

