-- ==== Sys2Proof/Machine/HostOps.lean ====
section
/-!
DEFINITION. What the commands of R291 do once serialised: sessions (R279, R280), ownership (R286 to R288), protection changes
(R289 to R295), submission and its commands (R265, R291, R296, R297), disables, registers and attestation.
-/
namespace Sys2Proof.Machine

/-! ## Rights (R285, R286, R302) -/

/-- R285: the condition to act for a tenant: TENANT, the tenant's bit, and its window ENABLED as last serialised. -/
def State.mayAct (s : State) (v : Session) (t : Nat) : Bool :=
  bitOf v.roles 1 && decide (t < 4096) && v.tenants.getLsbD t && s.flag F.TENANT_WINDOW_ENABLED t
/-- R285: commands of the owner. -/
def ownerOp (op : Nat) : Bool :=
  decide (0x11 ≤ op ∧ op ≤ 0x14) || decide (0x20 ≤ op ∧ op ≤ 0x23) || decide (0x30 ≤ op ∧ op ≤ 0x35) ||
  decide (op = 0x50 ∨ op = 0x51 ∨ op = 0x61)
/-- R285: commands that must act for a tenant. -/
def tenantOp (op : Nat) : Bool := decide (op = 0x40 ∨ op = 0x41 ∨ op = 0x42 ∨ op = 0x44)
/-- R291: the opcodes. -/
def knownOp (op : Nat) : Bool :=
  ownerOp op || tenantOp op || decide (1 ≤ op ∧ op ≤ 5) || decide (op = 0x10 ∨ op = 0x43 ∨ op = 0x60 ∨ op = 0x62 ∨ op = 0x63)
/-- R302: commands of the management session. -/
def mgmtOp (op : Nat) : Bool := decide (op = 1 ∨ op = 2 ∨ op = 4 ∨ op = 5 ∨ op = 0x60 ∨ op = 0x61 ∨ op = 0x62)
def actBit (p : Pkt) : Bool := bitOf p.flags 3
/-- R285, R302, R441: step 5 of R277: the status of a command that lacks a right. That a life-cycle state without serving answers
NOTPERMITTED is DEDUCED: notes/assumptions/109. -/
def State.rightsRefusal (s : State) (i : Nat) (v : Session) (op : Nat) (p : Pkt) : Option Nat :=
  if !knownOp op then none
  else if i = mgmtIndex then (if mgmtOp op then none else some stNotpermitted)
  else
    let mine := s.isOwner (.session i)
    let act := actBit p || tenantOp op
    if ownerOp op ∧ ¬ mine then some stNotpermitted
    else if op = 0x10 ∧ ¬ mine ∧ ¬ bitOf v.roles 0 then some stNotpermitted
    else if act ∧ ¬ (actBit p ∧ s.mayAct v (p.tenant % 4096)) then some stNotenant
    else if s.noServing ∧ (op = 0x32 ∨ (op = 0x30 ∧ bitOf (at' p.body 2 1) 0)) then some stNotpermitted
    else none
/-- R277 step 6: header fields that must be zero. -/
def headerBad (p : Pkt) : Bool :=
  decide (p.resv ≠ 0 ∨ p.status ≠ 0 ∨ p.credits ≠ 0 ∨ p.detail ≠ 0 ∨ 4096 ≤ p.tenant) || (!actBit p && decide (p.tenant ≠ 0))

/-- R343: a session record of more than 4 KiB would leave less than the reserve. -/
def State.bulky (s : State) (i : Nat) : Bool :=
  let n := jrecSize { jsn := 0, slot := 0xFFFF, sent := none, origin := none
                      pay := .session i (s.session i) (s.host.rings.filter (fun e => decide (e.1 / 64 = i))) }
  decide (4096 < n) && s.jrTight n

/-! ## Opening and closing (R279, R280) -/

/-- R278: the first 640 bytes of a credential have its form. -/
def credForm (c : List Byte) : Bool :=
  decide (c.length = 704) && decide (at' c 0 4 = 0x44435243) && decide (at' c 4 1 = 1) && decide (at' c 5 1 < 8) &&
  allZero ((c.drop 6).take 2) && allZero ((c.drop 592).take 48)
/-- R278, R279: the credential is signed by the platform root, and its key is a point. -/
def State.credGood (s : State) (c : List Byte) : Bool :=
  credForm c && Sm2.onCurve (Sm2.pointOf ((c.drop 16).take 64)) && (match s.rootKey with
    | some k => Sm2.verify k (c.take 640) (c.drop 640)
    | none => false)
/-- R441, R445: whether a session may open on a queue pair in the present life-cycle state. -/
def State.mayOpen (s : State) (q : Nat) : Bool := s.hasIk && (decide (q = mgmtQp) || decide (s.lc ≠ .returned))
/-- R279: the lowest free session index; the MGMT port has its own (R302). -/
def State.freeIndex (s : State) (q : Nat) : Option Nat :=
  if q = mgmtQp then some mgmtIndex else (List.range 256).find? (fun i => (s.session i).isNone)
/-- A free random number below the order of the curve (notes/assumptions/2). -/
def State.freeScalar (s : State) : Nat × State := (1 + s.useFree.1 % (Sm2.n - 1), s.useFree.2)

/-- R279: OPEN with a credential, a point and a nonce: on success the session is OPENING, with its keys. -/
def State.opOpen (s : State) (p : Pkt) : State :=
  let no := fun (st : Nat) => s.answer p.qp 0 0 p.seq p.tag 1 st 0 []
  let c := p.body.take 704
  let roles := at' c 5 1
  if p.body.length ≠ 800 ∨ ¬ s.mayOpen p.qp then no stRefused
  else if ¬ s.credGood c ∨ ¬ Sm2.onCurve (Sm2.pointOf ((p.body.drop 704).take 64)) then no stAuth
  else if (if p.qp = mgmtQp then !bitOf roles 2 else !bitOf roles 0 && !bitOf roles 1) then no stRefused
  else
    match s.freeIndex p.qp with
    | none => no stBusy
    | some i =>
      let gen := SMap.getD s.host.gens i 0 % 255 + 1
      let r := s.freeScalar
      let nonce := r.2.useFree
      let k := Sm2.respond s.ik r.1 (Sm2.pointOf ((c.drop 16).take 64)) (Sm2.pointOf ((p.body.drop 704).take 64))
      let v : Session := {
        st := .opening, gen := gen, roles := roles, tenants := BitVec.ofNat 4096 (ofBytes ((c.drop 80).take 512))
        subject := (c.drop 16).take 64, keyHm := k.1.take 32, keyMh := k.1.drop 32, confirm := k.2.2, next := 1, attach := 0
        qps := [], journal := [], held := [], evSeq := 0, evLost := 0, events := [], mask := 0, since := s.now, closing := 0 }
      let s1 := nonce.2.setSession i v
      let s2 : State := { s1 with host := { s1.host with gens := SMap.insert s1.host.gens i gen } }
      s2.answer p.qp 0 (sessionField i gen) p.seq p.tag 1 stOk 0
        (Sm2.pointBytes (Sm2.mul s.ik Sm2.base) ++ Sm2.pointBytes (Sm2.mul r.1 Sm2.base) ++ toBytes nonce.1 32 ++ k.2.1)

/-- R273: queue pairs bound to sessions, over all host ports. -/
def State.boundAll (s : State) : Nat := SMap.countIf s.host.qps (fun _ q => q.bound.isSome)
/-- Bind a queue pair to a session, which becomes ACTIVE. -/
def State.bindQp (s : State) (i : Nat) (v : Session) (q : Nat) : State :=
  let s1 := s.setSession i { v with st := .active, qps := v.qps ++ [q], since := s.now }
  match s1.qp q with
  | some k => s1.setQp q { k with bound := some i }
  | none => s1

/-- R279: OPEN_CONFIRM with S_A. -/
def State.opOpenConfirm (s : State) (i : Nat) (v : Session) (p : Pkt) : State :=
  let say := fun (s : State) (st : Nat) => s.answer p.qp (i + 1) p.session 0 p.tag 2 st 0 []
  if headerBad p ∨ p.body.length ≠ 32 then say s stRefused
  else if p.body ≠ v.confirm then say s stAuth
  else if p.qp ≠ mgmtQp ∧ (1024 ≤ s.boundAll ∨ s.bulky i) then say s stBusy
  else ((say ((s.bindQp i { v with next := 1 } p.qp).journalSession i) stOk).flushEvents i).tkPlaceAll

/-- R280: ATTACH with its counter; the queue pair on the same host port is replaced. -/
def State.opAttach (s : State) (i : Nat) (v : Session) (p : Pkt) : State :=
  let say := fun (s : State) (st : Nat) => s.answer p.qp (i + 1) p.session 0 p.tag 3 st 0 []
  let portOf := fun (q : Nat) => (s.qp q).map (fun (k : Qp) => k.port)
  if headerBad p ∨ p.body.length ≠ 8 then say s stRefused
  else if at' p.body 0 8 ≤ v.attach then say s stAuth
  else
    let old := v.qps.find? (fun q => decide (portOf q = portOf p.qp))
    if (old = none ∧ 1024 ≤ s.boundAll) ∨ s.bulky i then say s stBusy
    else
      let s1 := match old with
        | some q => (match s.qp q with
          | some k => s.setQp q { k with bound := none, error := true, used := 0 }
          | none => s)
        | none => s
      let v' : Session := { v with attach := at' p.body 0 8, qps := v.qps.filter (fun q => decide (some q ≠ old)) }
      let s2 := say ((s1.bindQp i v' p.qp).journalSession i) stOk
      let s3 := if v.st = .detached ∨ old.isSome then s2.rewriteRings i else s2
      (s3.flushEvents i).tkPlaceAll

/-- R280, R265: every request of the session without a final status is cancelled, and a submission whose input is still fetched
takes no slot. -/
def State.cancelOpen (s : State) (i gen : Nat) : State :=
  (s.openRequests i gen).foldl (fun (s : State) slot => match s.req slot with
    | none => s
    | some r =>
      if r.fetching then (s.answerSeq i r.sub stRefused 0 []).freeReq slot
      else if r.st = .ending ∨ r.cancelled then s
      else (s.newRecord slot (.cancel (sessionField i gen) r.sub)).setReq slot { r with cancelled := true }) s
/-- R280: the session closes once its requests have their final statuses. -/
def State.startClose (s : State) (i : Nat) (v : Session) : State :=
  ((s.setSession i { v with closing := max v.closing 1 }).cancelOpen i v.gen).closeReady
/-- CLOSE. -/
def State.opClose (s : State) (i : Nat) (v : Session) (p : Pkt) : State :=
  if p.body.length ≠ 4 ∨ 1 < at' p.body 0 4 then s.answerSeq i p.seq stRefused 0 []
  else if at' p.body 0 4 = 0 ∧ ¬ (s.openRequests i v.gen).isEmpty then s.answerSeq i p.seq stBusy 0 []
  else s.startClose i v

/-! ## Ownership (R286 to R288, R291) -/

def State.opHeartbeat (s : State) (i : Nat) (p : Pkt) : State :=
  if p.body ≠ [] then s.answerSeq i p.seq stRefused 0 []
  else
    let s1 := if i = mgmtIndex then { s with host := { s.host with mgmtSeen := s.now } }
      else if s.isOwner (.session i) then s.renewLease else s
    s1.answerSeq i p.seq stOk (s1.rd F.OWNER_STATUS_SESSION) []
def State.opClaim (s : State) (i : Nat) (p : Pkt) : State :=
  if p.body ≠ [] then s.answerSeq i p.seq stRefused 0 []
  else if s.isOwner (.session i) then (s.renewLease).answerSeq i p.seq stOk 0 []
  else if s.flag F.OWNER_STATUS_OWNED then s.answerSeq i p.seq stNotowner (s.rd F.OWNER_STATUS_SESSION) []
  else (s.answerSeq i p.seq stOk 0 []).setOwner (some i)
def State.opHandover (s : State) (i : Nat) (p : Pkt) : State :=
  let t := at' p.body 0 2
  if p.body.length ≠ 2 then s.answerSeq i p.seq stRefused 0 []
  else match s.session (t % 256) with
    | none => s.answerSeq i p.seq stNotfound 0 []
    | some u =>
      if sessionField (t % 256) u.gen ≠ t ∨ (u.st ≠ .active ∧ u.st ≠ .detached) ∨ u.closing = 2 then s.answerSeq i p.seq stNotfound 0 []
      else if !bitOf u.roles 0 then s.answerSeq i p.seq stNotpermitted 0 []
      else (s.answerSeq i p.seq stOk 0 []).setOwner (some (t % 256))
def State.opRelease (s : State) (i : Nat) (p : Pkt) : State :=
  if p.body ≠ [] then s.answerSeq i p.seq stRefused 0 [] else (s.answerSeq i p.seq stOk 0 []).setOwner none
def State.opSetLease (s : State) (i : Nat) (p : Pkt) : State :=
  let ms := at' p.body 0 4
  if p.body.length ≠ 4 ∨ ms < 1000 ∨ 60000 < ms then s.answerSeq i p.seq stRefused 0 []
  else ((s.wr F.LEASE_CFG_MS ms).journalReg (Reg.addr .LEASE_CFG 0 .glob 0) ms).answerSeq i p.seq stOk 0 []
def State.opSealConfig (s : State) (i : Nat) (p : Pkt) : State :=
  if p.body ≠ [] then s.answerSeq i p.seq stRefused 0 []
  else ({ s with host := { s.host with isSealed := true } }).answerSeq i p.seq stOk 0 []

/-! ## Protection changes (R289, R293 to R295) -/

/-- R289: the changes that every die in service has applied are answered. -/
def State.protDone (s : State) : State :=
  let live := s.diesInService
  let ready := s.host.changes.filter (fun c => c.waiting.all (fun d => !live.contains d))
  let s1 : State := { s with host := { s.host with
    changes := s.host.changes.filter (fun c => c.waiting.any (fun d => live.contains d)) } }
  ready.foldl (fun (s : State) (c : ProtChange) => s.answerSeq c.session c.seq stOk c.detail []) s1
/-- R289: a change is serialised: journaled, in the registers at once but for a memory window's, and applied by each die without
a step in progress. -/
def State.changeProt (s : State) (i seq kind index value detail : Nat) : State :=
  let s1 := if kind = 1 then s else s.protReg kind index value
  let busy := s1.diesInService.filter (fun d =>
    !(s1.dieBetweenSteps d) || s1.host.changes.any (fun c => c.waiting.contains d))
  let c : ProtChange := { kind := kind, index := index, value := value, waiting := busy, session := i, seq := seq, detail := detail }
  let now' := s1.diesInService.filter (fun d => !busy.contains d)
  let setup := now'.foldl (fun (m : SMap Protection) d => SMap.insert m d (ProtChange.applyTo c (s1.dieProt d))) s1.host.dieSetup
  let s2 : State := { s1 with host := { s1.host with dieSetup := setup, changes := s1.host.changes ++ [c] } }
  (s2.newRecord 0xFFFF (.configProt kind index value)).protDone

def State.opSetTenantWindow (s : State) (i : Nat) (p : Pkt) : State :=
  let b := p.body
  if b.length ≠ 12 ∨ 4096 ≤ at' b 0 2 ∨ 1 < at' b 2 1 ∨ at' b 3 1 ≠ 0 then s.answerSeq i p.seq stRefused 0 []
  else s.changeProt i p.seq 0 (at' b 0 2) (at' b 2 1 + 2 * at' b 4 8) 0
/-- R294: the RKEY is free but for its low 12 bits, the window's number (notes/assumptions/33). -/
def State.opSetMemWindow (s : State) (i : Nat) (p : Pkt) : State :=
  let b := p.body
  let w := at' b 0 2
  if b.length ≠ 20 ∨ w = 0 ∨ 4096 ≤ w ∨ 8 ≤ at' b 2 1 ∨ at' b 3 1 ≠ 0 ∨ 4096 ≤ at' b 4 2 ∨ at' b 6 2 ≠ 0 ∨
    at' b 8 8 % pageBytes ≠ 0 ∨ 2 ^ 52 ≤ at' b 8 8 then s.answerSeq i p.seq stRefused 0 []
  else
    let f := s.useFree
    let key := f.1 % 2 ^ 20 * 4096 + w
    let v := 1 + 2 * at' b 2 1 + 16 * at' b 4 2 + 2 ^ 32 * key + 2 ^ 64 * at' b 8 8 + 2 ^ 128 * at' b 16 4
    f.2.changeProt i p.seq 1 w v key
def State.opSetCtxOwner (s : State) (i : Nat) (p : Pkt) : State :=
  let b := p.body
  if b.length ≠ 6 ∨ 4 ≤ at' b 0 1 ∨ 4 ≤ at' b 1 1 ∨ 1 < at' b 2 1 ∨ at' b 3 1 ≠ 0 ∨ 4096 ≤ at' b 4 2 then
    s.answerSeq i p.seq stRefused 0 []
  else s.changeProt i p.seq 2 (4 * at' b 0 1 + at' b 1 1) (at' b 2 1 + 2 * at' b 4 2) 0
def State.opSetPkgGroup (s : State) (i : Nat) (p : Pkt) : State :=
  let b := p.body
  if b.length ≠ 3 ∨ 64 ≤ at' b 2 1 then s.answerSeq i p.seq stRefused 0 [] else s.changeProt i p.seq 3 (at' b 0 2) (at' b 2 1) 0

/-! ## Submission (R252, R296) -/

/-- R266, R296: a submission for a tenant under DISABLE. -/
def State.tenantDisabled (s : State) (t : Nat) : Bool :=
  s.stew.disabled.contains (.tenant, t) || s.stew.disables.any (fun d => decide (d.kind = .tenant) && decide (d.id = t))
/-- R296: whether a SUBMIT breaks its layout, or names what the module does not have. -/
def State.submitBad (s : State) (i : Nat) (b : List Byte) : Bool :=
  let d := at' b 0 64
  let rkey := at' b 72 4
  let len := at' b 76 4
  decide (b.length < 80) || !(s.descriptorOk d) || !(s.loaded (rqPkg d)) ||
  (SMap.find? s.host.rings (ringKey i (rqRing d))).isNone || decide (64 ≤ rqRing d) ||
  (match s.pkg (rqPkg d) with
   | some p => decide (len ≠ rqPrompt d * p.tmpl.inBytes)
   | none => true) ||
  (if rkey = 0 then decide (8048 < len) || decide (at' b 64 8 ≠ 0) || decide (b.length ≠ 80 + len) else decide (b.length ≠ 80))
/-- A request as it takes its slot. -/
def newReq (s : State) (i gen sub q tenant : Nat) (desc : BitVec 512) (input : List Byte) (fetching : Bool) : Req :=
  { st := .waiting, session := i, gen := gen, sub := sub, qp := q, tenant := tenant, desc := desc, input := input
    fetching := fetching, order := s.stew.order, accepted := none, need := 0, done := 0, rebuilt := 0, produced := 0, tokens := []
    ended := false, lastCommit := 0, ttft := none, maxTbt := 0, charged := 0, dropped := 0, full := 0, nans := 0, preempts := 0
    evict := false, pfxRefused := false, registered := false, reserved := 0, run := 0, mapped := 0, omapped := 0, flying := none, cancels := []
    cancelled := false, holdsPfx := false, holdsAdapter := false, final := .none, finalAcked := false, member := none
    wasAdmitted := false, awaitAck := none, prio := none, acceptJsn := 0 }
/-- R338: the ACCEPT record of a request, whose acknowledgement sends ACCEPTED. -/
def State.accept (s : State) (slot : Nat) (r : Req) : State :=
  let s1 := s.newRecord slot (.accept (sessionField r.session r.gen) r.sub r.tenant r.desc r.input)
  s1.setReq slot { r with fetching := false, acceptJsn := s1.rd F.JOURNAL_JSN_VALUE }
/-- SUBMIT (R296): the checks, the slot, and the input inline or by RDMA READ. -/
def State.opSubmit (s : State) (i : Nat) (v : Session) (p : Pkt) : State :=
  let b := p.body
  let desc : BitVec 512 := BitVec.ofNat 512 (at' b 0 64)
  let len := at' b 76 4
  if s.submitBad i b ∨ v.closing ≠ 0 then s.answerSeq i p.seq stRefused 0 []
  else if s.tenantDisabled p.tenant then s.answerSeq i p.seq stDisabled 0 []
  else if s.jrTight (180 + len) then s.answerSeq i p.seq stBusy 0 []
  else match s.lowestSlot with
    | none => s.answerSeq i p.seq stBusy 0 []
    | some slot =>
      let s1 : State := { s with stew := { s.stew with order := s.stew.order + 1 } }
      if at' b 72 4 = 0 then s1.accept slot (newReq s i v.gen p.seq p.qp p.tenant desc (b.drop 80) false)
      else (s1.setReq slot (newReq s i v.gen p.seq p.qp p.tenant desc [] true)).emit
        (.rdmaRead p.qp (at' b 64 8) (at' b 72 4) len)

/-! ## Requests by name (R265, R291, R353) -/

/-- R265, R291: the accepted local request that a slot, a session field and a SEQ name. -/
def State.findLocal (s : State) (slot field sub : Nat) : Option Req :=
  match s.req slot with
  | none => none
  | some r =>
    if r.sub = sub ∧ sessionField r.session r.gen = field ∧ r.member = none ∧ ¬ r.fetching ∧ r.final ≠ .moved then some r else none
/-- R353: the request taken over that the names mean: generation 0 and the most recently accepted; one this module moved keeps
its own name. -/
def State.findTaken (s : State) (slot field sub : Nat) : Option TkReq :=
  let ok := fun (t : TkReq) => decide (t.slot = slot) && decide (t.sub = sub) && decide (t.session = field % 256) &&
    (if field < 256 then decide (t.origin ≠ s.ownId) else decide (t.origin = s.ownId) &&
      (match s.session (field % 256) with
       | some v => decide (sessionField (field % 256) v.gen = field)
       | none => false))
  let l := (s.jr.table.map (·.2)).filter ok
  l.foldl (fun (g : Option TkReq) (t : TkReq) => match g with
    | none => some t
    | some u => if u.accepted ≤ t.accepted then some t else g) none
/-- R300: a final record that stays readable. -/
def State.findKept (s : State) (slot field sub : Nat) : Option (List Byte) :=
  (s.stew.kept.find? (fun k => decide (k.1 = slot) && decide (k.2.1 = field) && decide (k.2.2.1 = sub) &&
    (match k.2.2.2.2 with
     | some u => decide (s.now < u)
     | none => true))).map (·.2.2.2.1)
def recFinal (b : List Byte) : Nat := at' b 2 1
def recTenant (b : List Byte) : Nat := at' b 6 2

/-- R265, R338: a cancel of a local request is accepted. -/
def State.acceptCancel (s : State) (slot field : Nat) (r : Req) (user : Nat × Nat) : State :=
  (s.newRecord slot (.cancel field r.sub)).setReq slot { r with cancelled := true, cancels := r.cancels ++ [user] }
/-- CANCEL (R265). -/
def State.opCancel (s : State) (i : Nat) (p : Pkt) : State :=
  let b := p.body
  let slot := at' b 0 2
  let field := at' b 2 2
  let sub := at' b 4 8
  if b.length ≠ 12 then s.answerSeq i p.seq stRefused 0 []
  else match s.findLocal slot field sub with
    | some r =>
      if r.tenant ≠ p.tenant then s.answerSeq i p.seq stNotenant 0 []
      else if r.st = .ending then s.answerSeq i p.seq stAlready (finalCode r.final) []
      else s.acceptCancel slot field r (i, p.seq)
    | none =>
      match s.findTaken slot field sub with
      | some t =>
        if t.tenant ≠ p.tenant then s.answerSeq i p.seq stNotenant 0 []
        else (match t.final with
          | some f => s.answerSeq i p.seq stAlready (recFinal f) []
          | none =>
            let s1 := (s.setTk { t with cancelled := true, cancels := t.cancels ++ [(i, p.seq)] }).newRecordFor
              (some t.origin) slot (.cancel field sub)
            match t.member with
            | some m => s1.sendMsg m 0x2B slot (toBytes slot 2 ++ toBytes 0 1 ++ toBytes t.origin 2) []
            | none => s1)
      | none =>
        match s.findKept slot field sub with
        | some f =>
          if recFinal f = 12 then s.answerSeq i p.seq stNotfound 0 []
          else if recTenant f = p.tenant then s.answerSeq i p.seq stAlready (recFinal f) []
          else s.answerSeq i p.seq stNotenant 0 []
        | none => s.answerSeq i p.seq stNotfound 0 []
/-- FINAL_READ (R291, R300, R353). -/
def State.opFinalRead (s : State) (i : Nat) (p : Pkt) : State :=
  let b := p.body
  let slot := at' b 0 2
  let field := at' b 2 2
  let sub := at' b 4 8
  let give := fun (t : Nat) (f : List Byte) =>
    if t = p.tenant then s.answerSeq i p.seq stOk 0 f else s.answerSeq i p.seq stNotenant 0 []
  if b.length ≠ 12 then s.answerSeq i p.seq stRefused 0 []
  else match s.findLocal slot field sub with
    | some r => give r.tenant (finalRecord slot r field 0xFFFF)
    | none =>
      match s.findTaken slot field sub with
      | some t => give t.tenant (t.final.getD (s.tkRecord t 0))
      | none =>
        match s.findKept slot field sub with
        | some f => give (recTenant f) f
        | none => s.answerSeq i p.seq stNotfound 0 []
/-- PREFIX_RELEASE (R261). -/
def State.opPrefixRelease (s : State) (i : Nat) (p : Pkt) : State :=
  if p.body.length ≠ 8 then s.answerSeq i p.seq stRefused 0 []
  else
    let g := s.releasePfx p.tenant (at' p.body 0 8)
    if g.1 then g.2.answerSeq i p.seq stOk 0 [] else s.answerSeq i p.seq stNotfound 0 []

/-- R297: nothing is outstanding on a ring whose consumer count was read as `n`. -/
def ringIdle (g : Ring) (n : Nat) : Bool := g.waiting.isEmpty && decide (g.produced ≤ max g.consumed (min n g.produced))
/-- REG_DELIVERY (R297); `extra` is the consumer count of the old ring, as the module reads it. -/
def State.opRegDelivery (s : State) (i : Nat) (p : Pkt) (extra : List Byte) : State :=
  let b := p.body
  let r := at' b 0 2
  let n := at' b 4 4
  let busy : Bool := match SMap.find? s.host.rings (ringKey i r) with
    | some g => !(ringIdle g (ofBytes extra))
    | none => false
  if b.length ≠ 32 ∨ 64 ≤ r ∨ at' b 2 2 ≠ 0 ∨ n < 64 ∨ 65536 < n ∨ 65536 % n ≠ 0 then s.answerSeq i p.seq stRefused 0 []
  else if busy || s.bulky i then s.answerSeq i p.seq stBusy 0 []
  else
    let g : Ring := { entries := n, addr := at' b 8 8, rkey := at' b 16 4, cRkey := at' b 20 4, cAddr := at' b 24 8, produced := 0
                      consumed := 0, written := [], waiting := [] }
    let s1 : State := { s with host := { s.host with rings := SMap.insert s.host.rings (ringKey i r) g } }
    ((s1.journalSession i).answerSeq i p.seq stOk 0 []).tkPlaceAll

/-! ## Disables (R266, R267, R291) -/

def kindOf : Nat → Option FnKind
  | 0 => some .tenant
  | 1 => some .model
  | 2 => some .linkPort
  | 3 => some .die
  | 4 => some .context
  | _ => none
def idOk (k : FnKind) (id : Nat) : Bool := match k with
  | .tenant => decide (id < 4096)
  | .model => true
  | .linkPort => decide (id < 32)
  | .die => decide (id < 4)
  | .context => decide (id < 16)
/-- DISABLE (R266). A model that is not LOADED has nothing to drain: its disable completes REFUSED. -/
def State.opDisable (s : State) (i : Nat) (p : Pkt) : State :=
  let b := p.body
  let id := at' b 2 2
  let ms := at' b 4 4
  let no := s.answerSeq i p.seq stRefused 0 []
  if b.length ≠ 8 ∨ 1 < at' b 1 1 ∨ 60000 < ms then no
  else match kindOf (at' b 0 1) with
    | none => no
    | some k =>
      if !idOk k id || (decide (at' b 1 1 = 1) && decide (k ≠ .die)) then no
      else
        let s1 := s.answerSeq i p.seq stAccepted 0 []
        if k = .model ∧ ¬ s.loaded id then s1.complete i p.seq stRefused 0
        else s1.startDisable k id (decide (at' b 1 1 = 1)) (s.now + msNs ms) [(i, p.seq)]
/-- ENABLE of a function that is disabled (R291, R312, R403). -/
def State.enableFn (s : State) (k : FnKind) (id : Nat) : State :=
  let s1 : State := { s with stew := { s.stew with disabled := s.stew.disabled.filter (fun d => decide (d ≠ (k, id))) } }
  match k with
  | .linkPort =>
    if s1.flag F.LINK_PORT_CFG_ENABLE id ∧ (s1.portState id = 0 ∨ s1.portState id = 6) then s1.portOn id else s1
  | .die =>
    if s1.dieP id = 3 ∧ 2 ≤ s1.modState ∧ s1.modState ≤ 4 then
      let on := (List.range 5).foldl (fun (a : Nat) j => if s1.fuses.retiredStacks.contains (5 * id + j) then a else a ||| 2 ^ (5 * id + j))
        (s1.rd F.STACKS_ONLINE_STACK_ONLINE)
      let s2 := s1.wr F.STACKS_ONLINE_STACK_ONLINE on
      if s2.modState = 2 then s2.setDieP id 2 else s2.dieToA0 id
    else s1
  | _ => s1
/-- ENABLE (R267, R291). -/
def State.opEnable (s : State) (i : Nat) (p : Pkt) : State :=
  let b := p.body
  let id := at' b 2 2
  let no := s.answerSeq i p.seq stRefused 0 []
  if b.length ≠ 4 ∨ at' b 1 1 ≠ 0 then no
  else match kindOf (at' b 0 1) with
    | none => no
    | some k =>
      if k = .model ∨ ¬ idOk k id ∨ (k = .die ∧ s.fuses.retiredDies.contains id) then no
      else if s.stew.disables.any (fun d => decide (d.kind = k) && decide (d.id = id)) then s.answerSeq i p.seq stBusy 0 []
      else (s.enableFn k id).answerSeq i p.seq stOk 0 []

/-! ## Registers, attestation and events (R291, R299, R446) -/

def pathOf (i : Nat) : Path := if i = mgmtIndex then .mgmt else .session i
/-- REG_READ (R291): a word that is refused refuses the whole, with what R32 gives in DETAIL. -/
def State.readWords (s : State) (path : Path) (a : Nat) : Nat → List Byte → Except Nat (List Byte) × State
  | 0, acc => (.ok acc, s)
  | n + 1, acc =>
    let g := s.readReg path a
    match g.1 with
    | .ok v => g.2.readWords path (a + 4) n (acc ++ toBytes v.toNat 4)
    | .error d => (.error d, g.2)
def State.opRegRead (s : State) (i : Nat) (p : Pkt) : State :=
  let n := at' p.body 4 2
  if p.body.length ≠ 6 ∨ n = 0 ∨ 256 < n then s.answerSeq i p.seq stRefused 0 []
  else
    let g := s.readWords (pathOf i) (at' p.body 0 4) n []
    match g.1 with
    | .ok b => g.2.answerSeq i p.seq stOk 0 b
    | .error d => s.answerSeq i p.seq stRefused d []
/-- REG_WRITE (R31, R291): OK with the value after the write. A refused write is answered with the unchanged value too, where
the session may read the register (R31, R410, and notes/assumptions/36). -/
def State.opRegWrite (s : State) (i : Nat) (p : Pkt) : State :=
  let a := at' p.body 0 4
  if p.body.length ≠ 8 then s.answerSeq i p.seq stRefused 0 []
  else
    let g := s.applyWrite (pathOf i) a (at' p.body 4 4)
    let v := match g.2.valueFor (pathOf i) a with
      | some x => toBytes x.toNat 4
      | none => []
    match g.1 with
    | .refused d => g.2.answerSeq i p.seq stRefused d v
    | .applied => g.2.answerSeq i p.seq stOk 0 v

/-- R445: what IK signs over the attestation key. -/
def State.akBinding (s : State) (ak rom lc : List Byte) : List Byte :=
  ak ++ rom ++ s.boot.mFw ++ lc ++ toBytes s.fuses.serial 8 ++ toBytes (s.rd F.BOOT_COUNT_VALUE) 4
/-- R446: bytes 0 to 319 of the report. -/
def State.reportHead (s : State) (nonce rom lc ak : List Byte) : List Byte :=
  toBytes 0x54415844 4 ++ toBytes 1 2 ++ toBytes (Grade.byte s.fuses.grade) 1 ++ toBytes (lcCode s.lc + 8 * s.epoch) 1 ++
  toBytes s.fuses.serial 8 ++ toBytes (s.rd F.FW_VERSION_VALUE) 4 ++ toBytes (s.rd F.FW_SVN_SVN + 256 * s.fuses.svnFloor) 4 ++
  toBytes (s.rd F.MODULE_NUM_MODULE_ID + 32768 * s.rd F.MODULE_NUM_ID_VALID) 2 ++ toBytes (s.rd F.BOOT_STATUS_RESET_CAUSE) 2 ++
  toBytes (s.rd F.BOOT_COUNT_VALUE) 4 ++ nonce ++ rom ++ s.boot.mFw ++
  (if s.boot.mCfg.isEmpty then List.replicate 32 0 else s.boot.mCfg) ++ lc ++ ak ++ Sm2.pointBytes (Sm2.mul s.ik Sm2.base)
/-- ATTEST (R446). -/
def State.opAttest (s : State) (i : Nat) (p : Pkt) : State :=
  if p.body.length ≠ 32 then s.answerSeq i p.seq stRefused 0 []
  else if s.modState < 2 ∨ 5 < s.modState then
    s.answerSeq i p.seq stRefused (s.word .BOOT_STATUS 0 .glob 0).toNat []
  else
    let a := s.freeScalar
    let b := a.2.freeScalar
    let rom := bytesOf (Config.romDigest s.fuses.stepping)
    let lc := bytesOf (Config.lcDigest s.fuses.lcWords s.fuses.retiredPair s.fuses.svnFloor s.fuses.revoked)
    let ak := Sm2.pointBytes (Sm2.mul s.ak Sm2.base)
    let r := s.reportHead p.body rom lc ak ++ Sm2.sign s.ik a.1 (s.akBinding ak rom lc) ++ s.boot.nor.cert
    b.2.answerSeq i p.seq stOk 0 (r ++ Sm2.sign s.ak b.1 r)
/-- EVENT_CFG (R299). -/
def State.opEventCfg (s : State) (i : Nat) (v : Session) (p : Pkt) : State :=
  if p.body.length ≠ 4 then s.answerSeq i p.seq stRefused 0 []
  else (s.setSession i { v with mask := at' p.body 0 4 }).answerSeq i p.seq stOk 0 []

/-! ## Dispatch by OPCODE (R277 steps 5 and 6, R291) -/

/-- A serialised command of session `i`; `extra` is what the model's command carries beside the packet. -/
def State.applyOp (s : State) (i op : Nat) (p : Pkt) (extra : List Byte) : State :=
  match s.session i with
  | none => s
  | some v =>
    let act := if actBit p then some p.tenant else none
    match s.rightsRefusal i v op p with
    | some st => s.answerSeq i p.seq st 0 []
    | none =>
      if !knownOp op then s.answerSeq i p.seq stUnknown 0 []
      else if headerBad p then s.answerSeq i p.seq stRefused 0 []
      else match op with
        | 0x04 => s.opClose i v p
        | 0x05 => s.opHeartbeat i p
        | 0x10 => s.opClaim i p
        | 0x11 => s.opHandover i p
        | 0x12 => s.opRelease i p
        | 0x13 => s.opSetLease i p
        | 0x14 => s.opSealConfig i p
        | 0x20 => s.opSetTenantWindow i p
        | 0x21 => s.opSetMemWindow i p
        | 0x22 => s.opSetCtxOwner i p
        | 0x23 => s.opSetPkgGroup i p
        | 0x30 => s.opInstall i p.seq act p.body extra
        | 0x31 => s.opUninstall i p.seq p.body
        | 0x32 => s.opSwitchIn i p.seq act p.body
        | 0x33 => s.opStageMap i p.seq p.body
        | 0x34 => s.opStageSeal i p.seq p.body
        | 0x35 => s.opAdoptDrive i p.seq p.body
        | 0x40 => s.opSubmit i v p
        | 0x41 => s.opCancel i p
        | 0x42 => s.opPrefixRelease i p
        | 0x43 => s.opRegDelivery i p extra
        | 0x44 => s.opFinalRead i p
        | 0x50 => s.opDisable i p
        | 0x51 => s.opEnable i p
        | 0x60 => s.opRegRead i p
        | 0x61 => s.opRegWrite i p
        | 0x62 => s.opAttest i p
        | 0x63 => s.opEventCfg i v p
        | _ => s.answerSeq i p.seq stRefused 0 []

end Sys2Proof.Machine
end

