-- ==== Sys2Proof/Machine/Protocol.lean ====
section
/-!
DEFINITION. The host command protocol (R272 to R292, R302): a packet's checks in the order of R277, sequence numbers and duplicates
(R282 to R284), and the rows that are commands of hosts and of the rack manager.
-/
namespace Sys2Proof.Machine

/-! ## Lease (R287, R282) -/

/-- R287: at the deadline the module becomes unowned. -/
def State.leaseDue (s : State) : State :=
  match s.host.lease with
  | some t => if t ≤ s.now ∧ s.flag F.OWNER_STATUS_OWNED then s.setOwner none else s
  | none => s

/-! ## Answers outside the sequence (R277) -/

/-- Reply to packet `p` with OPCODE `op` on its queue pair; `key` is the session index plus one whose key tags it, or 0. -/
def State.sayOn (s : State) (p : Pkt) (key op st : Nat) : State := s.answer p.qp key p.session p.seq p.tag op st 0 []
/-- R277, R283: SEQGAP is counted. -/
def State.saySeqgap (s : State) (p : Pkt) (key op : Nat) : State := (s.bump F.SEQGAP_CNT_COUNT 1).sayOn p key op stSeqgap

/-! ## Sequence (R282 to R284) -/

/-- R277: the command takes its sequence number, and its TAG enters the reply journal. -/
def State.takeSeq (s : State) (i op : Nat) (p : Pkt) (waiters : List Nat) : State :=
  match s.session i with
  | none => s
  | some v =>
    let r : JRep := { seq := p.seq, tag := p.tag, op := op, reply := none, qp := p.qp, waiters := waiters }
    let js := v.journal ++ [r]
    s.setSession i { v with next := v.next + 1, journal := js.drop (js.length - repLimit i) }
/-- R283: serialise a command and then each held command whose turn has come; at most 63 are held. -/
def State.serialise (s : State) (i op : Nat) (p : Pkt) (extra : List Byte) (waiters : List Nat) : Nat → State
  | 0 => s
  | n + 1 =>
    let s1 := ((s.leaseDue).takeSeq i op p waiters).applyOp i op p extra
    match s1.session i with
    | none => s1
    | some v =>
      match v.held.find? (fun h => decide (h.pkt.seq = v.next)) with
      | none => s1
      | some h =>
        let s2 := s1.setSession i { v with held := v.held.filter (fun g => decide (g.pkt.seq ≠ h.pkt.seq)) }
        if v.closing = 2 then s2 else s2.serialise i h.op h.pkt h.extra h.waiters n

/-- R284: a duplicate of a command in the reply journal, or of one older. -/
def State.duplicate (s : State) (i op : Nat) (v : Session) (p : Pkt) : State :=
  match findRep v p.seq with
  | none => s.sayOn p (i + 1) op stStale
  | some r =>
    if r.tag ≠ p.tag then s.sayOn p (i + 1) op stConflict
    else match r.reply with
      | some (st, d, b) => s.sendReply p.qp (i + 1) p.session r.op p.seq st d true b
      | none => s.setSession i (putRep v { r with waiters := r.waiters ++ [p.qp] })
/-- R283, R284: step 4 of R277 for a command in a session. -/
def State.inSequence (s : State) (i op : Nat) (v : Session) (p : Pkt) (extra : List Byte) : State :=
  if p.seq < v.next then s.duplicate i op v p
  else if v.closing = 2 then (s.bump F.BADSESSION_CNT_COUNT 1).sayOn p 0 op stBadsession
  else if p.seq = v.next then s.serialise i op p extra [] 64
  else match v.held.find? (fun h => decide (h.pkt.seq = p.seq)) with
    | some h =>
      if h.pkt.tag ≠ p.tag then s.sayOn p (i + 1) op stConflict
      else
        let h' : HeldCmd := { h with waiters := h.waiters ++ [p.qp] }
        s.setSession i { v with held := v.held.map (fun g => if g.pkt.seq = p.seq then h' else g) }
    | none =>
      if v.next + 63 < p.seq then s.saySeqgap p (i + 1) op
      else
        let h : HeldCmd := { op := op, pkt := p, extra := extra, since := s.now, waiters := [] }
        s.setSession i { v with held := v.held ++ [h] }

/-! ## The checks of R277 -/

/-- R277 step 1 beside MAGIC and VERSION: LENGTH and FLAGS. -/
def wellMade (p : Pkt) : Bool := (decide (p.flags = 0) || decide (p.flags = 8)) && decide (p.len = p.body.length)
/-- The session a queue pair is bound to. -/
def State.boundTo (s : State) (q : Nat) : Option Nat :=
  if q = mgmtQp then (match s.session mgmtIndex with
    | some v => if v.st = .active then some mgmtIndex else none
    | none => none)
  else (s.qp q).bind (·.bound)
/-- R277 step 2: the session that a packet on an unbound queue pair may name, by its opcode. -/
def State.named (s : State) (q op field : Nat) : Option Nat :=
  let i := if q = mgmtQp ∧ op = 2 then mgmtIndex else field % 256
  match s.session i with
  | none => none
  | some v =>
    if sessionField i v.gen ≠ field ∨ v.closing = 2 then none
    else if op = 2 ∧ v.st = .opening then some i
    else if op = 3 ∧ (v.st = .active ∨ v.st = .detached) then some i
    else none
/-- R277 step 3: the TAG that a packet must carry under a key. -/
def goodTag (key : List Byte) (op : Nat) (p : Pkt) : Bool :=
  decide (p.tag = packetTag key (headerBytes p.flags op p.session p.tenant p.len p.seq p.status p.credits p.detail p.resv) p.body)
/-- R277 step 3: a mismatch is answered AUTH and counted; five on a queue pair within 1 s put it in the error state. -/
def State.authFail (s : State) (op : Nat) (p : Pkt) (key : Nat) : State :=
  let s1 := (s.bump F.AUTH_FAIL_COUNT 1).sayOn p key op stAuth
  match s1.qp p.qp with
  | none => s1
  | some v =>
    let ts := (v.auth.filter (fun t => decide (s.now < t + 1000000000))) ++ [s.now]
    let s2 := s1.setQp p.qp { v with auth := ts }
    if 5 ≤ ts.length then s2.qpError p.qp else s2

/-- R277: steps 2 to 6 for a packet that step 1 lets through. -/
def State.checked (s : State) (op : Nat) (p : Pkt) (extra : List Byte) : State :=
  let bad := fun (s : State) => (s.bump F.BADSESSION_CNT_COUNT 1).sayOn p 0 op stBadsession
  let opening := decide (op = 1 ∧ p.session = 0)
  let openIt := fun (s : State) => if p.tag ≠ 0#128 then s.authFail op p 0
    else if headerBad p then s.sayOn p 0 op stRefused
    else s.opOpen p
  match s.boundTo p.qp with
  | some i =>
    (match s.session i with
     | none => bad s
     | some v =>
       if opening ∧ p.qp = mgmtQp then openIt s
       else if p.session ≠ sessionField i v.gen then bad s
       else if !goodTag v.keyHm op p then s.authFail op p (i + 1)
       else if op = 2 ∨ op = 3 then
         (if i = mgmtIndex ∧ op = 3 ∧ p.seq = 0 then s.sayOn p (i + 1) op stNotpermitted else s.sayOn p (i + 1) op stRefused)
       else s.inSequence i op v p extra)
  | none =>
    if opening then openIt s
    else match (if op = 2 ∨ op = 3 then s.named p.qp op p.session else none) with
      | none => bad s
      | some i =>
        match s.session i with
        | none => bad s
        | some v =>
          if !goodTag v.keyHm op p then s.authFail op p (i + 1)
          else if p.seq ≠ 0 then s.sayOn p (i + 1) op stRefused
          else if op = 2 then s.opOpenConfirm i v p
          else if p.qp = mgmtQp then s.sayOn p (i + 1) op stNotpermitted
          else s.opAttach i v p

/-- R274: a packet marked CE asks for a congestion notification, at most one per queue pair per 50 µs. -/
def State.noteCe (s : State) (q : Nat) : State :=
  match s.qp q with
  | none => s
  | some v =>
    let late := match v.cnpAt with
      | some t => decide (t + 50000 ≤ s.now)
      | none => true
    if s.flag F.HOST_PORT_CFG_ECN_EN v.port && late then (s.setQp q { v with cnpAt := some s.now }).emit (.cnp q) else s
/-- R273, R275: a queue pair that takes a SEND: the MGMT port, or one that is connected and not in the error state. -/
def State.qpOpen (s : State) (q : Nat) : Bool :=
  decide (q = mgmtQp) || (match s.qp q with
    | some v => !v.error
    | none => false)
/-- R275: a SEND arrives: RNR when no receive entry is free, an invalid-request NAK and an error beyond 8,192 bytes, else a packet to
check. While the module
is Off or held, or a power-fail sequence runs, nothing is answered. -/
def State.arrivePkt (s : State) (p : Pkt) (k : State → State) : State :=
  if s.dark ∨ s.boot.failAt.isSome ∨ ¬ s.qpOpen p.qp then s
  else
    let s0 := if p.ce then s.noteCe p.qp else s
    match s0.qp p.qp with
    | none => if 8128 < p.body.length then s0 else k s0
    | some v =>
      if 256 ≤ v.used then s0.emit (.hostNak p.qp .notReady)
      else if 8128 < p.body.length then (s0.emit (.hostNak p.qp .invalidRequest)).qpError p.qp
      else k s0
/-- R275: the command occupies its receive entry until its reply has been sent. -/
def State.occupy (s : State) (q : Nat) : State :=
  match s.qp q with
  | some v => s.setQp q { v with used := v.used + 1 }
  | none => s
/-- A command packet with OPCODE `op`. -/
def State.hostCommand (s : State) (op : Nat) (p : Pkt) (extra : List Byte) : State :=
  s.arrivePkt p (fun s =>
    if !wellMade p then s.bump F.MALFORMED_COUNT 1
    else ((s.leaseDue).occupy p.qp).checked op p extra)

/-! ## Rows: packets by opcode (R291) -/

/-- INSTALL (R235); `header` is the package's header page, as the module reads it from its sources or the staged image. -/
def execInstall (p : Pkt) (header : List Byte) (s : State) : Res := .next (s.hostCommand 0x30 p header)
/-- SWITCH_IN (R242). -/
def execSwitchIn (p : Pkt) (s : State) : Res := .next (s.hostCommand 0x32 p [])
/-- UNINSTALL (R244). -/
def execUninstall (p : Pkt) (s : State) : Res := .next (s.hostCommand 0x31 p [])
/-- OPEN (R279). -/
def execOpenSession (p : Pkt) (s : State) : Res := .next (s.hostCommand 0x01 p [])
/-- OPEN_CONFIRM (R279). -/
def execOpenConfirm (p : Pkt) (s : State) : Res := .next (s.hostCommand 0x02 p [])
/-- ATTACH (R280). -/
def execAttach (p : Pkt) (s : State) : Res := .next (s.hostCommand 0x03 p [])
/-- CLOSE (R280). -/
def execClose (p : Pkt) (s : State) : Res := .next (s.hostCommand 0x04 p [])
/-- HEARTBEAT (R287). -/
def execHeartbeat (p : Pkt) (s : State) : Res := .next (s.hostCommand 0x05 p [])
/-- CLAIM (R286). -/
def execClaim (p : Pkt) (s : State) : Res := .next (s.hostCommand 0x10 p [])
/-- HANDOVER (R288). -/
def execHandover (p : Pkt) (s : State) : Res := .next (s.hostCommand 0x11 p [])
/-- RELEASE (R288). -/
def execRelease (p : Pkt) (s : State) : Res := .next (s.hostCommand 0x12 p [])
/-- SET_LEASE (R288). -/
def execSetLease (p : Pkt) (s : State) : Res := .next (s.hostCommand 0x13 p [])
/-- SEAL_CONFIG (R291, R15). -/
def execSealConfig (p : Pkt) (s : State) : Res := .next (s.hostCommand 0x14 p [])
/-- SET_TENANT_WINDOW (R293). -/
def execSetTenantWindow (p : Pkt) (s : State) : Res := .next (s.hostCommand 0x20 p [])
/-- SET_MEM_WINDOW (R294). -/
def execSetMemWindow (p : Pkt) (s : State) : Res := .next (s.hostCommand 0x21 p [])
/-- SET_CTX_OWNER (R295). -/
def execSetCtxOwner (p : Pkt) (s : State) : Res := .next (s.hostCommand 0x22 p [])
/-- SET_PKG_GROUP (R293). -/
def execSetPkgGroup (p : Pkt) (s : State) : Res := .next (s.hostCommand 0x23 p [])
/-- STAGE_MAP (R291). -/
def execStageMap (p : Pkt) (s : State) : Res := .next (s.hostCommand 0x33 p [])
/-- STAGE_SEAL (R291). -/
def execStageSeal (p : Pkt) (s : State) : Res := .next (s.hostCommand 0x34 p [])
/-- ADOPT_DRIVE (R205). -/
def execAdoptDrive (p : Pkt) (s : State) : Res := .next (s.hostCommand 0x35 p [])
/-- SUBMIT (R296). -/
def execSubmit (p : Pkt) (s : State) : Res := .next (s.hostCommand 0x40 p [])
/-- CANCEL (R265). -/
def execCancel (p : Pkt) (s : State) : Res := .next (s.hostCommand 0x41 p [])
/-- PREFIX_RELEASE (R261). -/
def execPrefixRelease (p : Pkt) (s : State) : Res := .next (s.hostCommand 0x42 p [])
/-- REG_DELIVERY (R297); `count` is the host's consumer count of a ring that is replaced, as the module reads it. -/
def execRegDelivery (p : Pkt) (count : Nat) (s : State) : Res := .next (s.hostCommand 0x43 p (toBytes count 8))
/-- FINAL_READ (R291). -/
def execFinalRead (p : Pkt) (s : State) : Res := .next (s.hostCommand 0x44 p [])
/-- DISABLE (R266). -/
def execDisable (p : Pkt) (s : State) : Res := .next (s.hostCommand 0x50 p [])
/-- ENABLE (R291). -/
def execEnable (p : Pkt) (s : State) : Res := .next (s.hostCommand 0x51 p [])
/-- REG_READ (R291). -/
def execRegRead (p : Pkt) (s : State) : Res := .next (s.hostCommand 0x60 p [])
/-- REG_WRITE (R31). -/
def execRegWrite (p : Pkt) (s : State) : Res := .next (s.hostCommand 0x61 p [])
/-- ATTEST (R446). -/
def execAttest (p : Pkt) (s : State) : Res := .next (s.hostCommand 0x62 p [])
/-- EVENT_CFG (R299). -/
def execEventCfg (p : Pkt) (s : State) : Res := .next (s.hostCommand 0x63 p [])
/-- MALFORMED_PACKET (R277): a packet with this MAGIC, VERSION and OPCODE. One that passes step 1 is a command. -/
def execMalformedPacket (magic version op : Nat) (p : Pkt) (s : State) : Res :=
  .next (if magic = 0x444D4358 ∧ version = 1 then s.hostCommand op p []
    else s.arrivePkt p (fun s => s.bump F.MALFORMED_COUNT 1))
/-- UNKNOWN_OP (R291): a packet with any OPCODE. -/
def execUnknownOp (op : Nat) (p : Pkt) (s : State) : Res := .next (s.hostCommand op p [])

/-! ## Rows: deadlines (R279, R280, R283, R287, R289) -/

/-- OPEN_TIMEOUT (R279): a session not confirmed within 1 s is discarded. -/
def execOpenTimeout (i : Nat) (s : State) : Res :=
  if i ≤ mgmtIndex then .next (match s.session i with
    | some v => if v.st = .opening ∧ v.since + 1000000000 ≤ s.now then s.dropSession i else s
    | none => s)
  else .refused (.noSuchUnit "session")
/-- SESSION_HOLD_EXPIRY (R280, R353): a session DETACHED for HOLD_S closes as by CLOSE with FORCE. -/
def execSessionHoldExpiry (i : Nat) (s : State) : Res :=
  if i < 256 then
    .next (match s.session i with
    | some v =>
      if v.st = .detached ∧ v.since + 1000000000 * s.rd F.SESSION_CFG_HOLD_S ≤ s.now then (s.startClose i v).tkDropHeld
      else s.tkDropHeld
    | none => s.tkDropHeld)
  else .refused (.noSuchUnit "session")
/-- LEASE_WARN (R287): at 80 % of the lease the owner is warned, with the milliseconds left. -/
def execLeaseWarn (s : State) : Res :=
  .next (match s.ownerIndex, s.host.lease with
    | some i, some t =>
      if s.host.warnAt ≤ s.now ∧ ¬ s.host.warned then
        ({ s with host := { s.host with warned := true } }).sendEvent i 0x8004 1 (toBytes ((t - s.now + 999999) / 1000000) 4)
      else s
    | _, _ => s)
/-- LEASE_EXPIRY (R287). -/
def execLeaseExpiry (s : State) : Res := .next s.leaseDue
/-- SEQGAP_TIMEOUT (R283): a command held for 100 ms, and each duplicate that waits with it, is answered SEQGAP and consumes
nothing. -/
def execSeqgapTimeout (i seq : Nat) (s : State) : Res :=
  if i ≤ mgmtIndex then
    .next (match s.session i with
    | none => s
    | some v =>
      match v.held.find? (fun h => decide (h.pkt.seq = seq) && decide (h.since + 100000000 ≤ s.now)) with
      | none => s
      | some h =>
        let s1 := s.setSession i { v with held := v.held.filter (fun g => decide (g.pkt.seq ≠ seq)) }
        (h.pkt.qp :: h.waiters).foldl (fun (s : State) q => s.saySeqgap { h.pkt with qp := q } (i + 1) h.op) s1)
  else .refused (.noSuchUnit "session")
/-- PROTECTION_APPLIED (R289): a change that every die in service has applied is answered. -/
def execProtectionApplied (s : State) : Res := .next s.protDone

end Sys2Proof.Machine
end

