-- ==== Sys2Proof/Machine/Delivery.lean ====
section
/-!
DEFINITION. Delivery of tokens and final records (R296 to R300, R345), host RDMA (R294), queue pairs and congestion (R273, R274).
-/
namespace Sys2Proof.Machine

/-- INPUT_FETCH_COMPLETE (R296): the RDMA READ of a submission's input brings `data`, or fails: FAULT, and the slot is free. -/
def execInputFetchComplete (slot : Nat) (data : Option (List Byte)) (s : State) : Res :=
  if slot < 65536 then
    .next (match s.req slot with
    | none => s
    | some r =>
      if !r.fetching then s
      else match data with
        | none => (s.answerSeq r.session r.sub stFault 0 []).freeReq slot
        | some b =>
          let n := match s.pkg (rqPkg (rqD r)) with
            | some p => rqPrompt (rqD r) * p.tmpl.inBytes
            | none => 0
          s.accept slot { r with input := b.take n })
  else .refused (.noSuchUnit "slot")

/-! ## Rings (R298) -/

/-- R298: whether the ring appears full with the count last used. -/
def ringFull (g : Ring) : Bool := decide (g.entries ≤ g.produced - g.consumed)
def State.setRing (s : State) (k : Nat) (g : Ring) : State :=
  { s with host := { s.host with rings := SMap.insert s.host.rings k g } }
/-- R345, R353: a token has been written: what DELIVERED reports, or the home's own count. -/
def State.noteWritten (s : State) (t : RingTok) : State :=
  match t.origin with
  | none => { s with jr := { s.jr with
      written := SMap.insert s.jr.written t.slot t.index
      progress := if s.jr.progress.contains t.slot then s.jr.progress else s.jr.progress ++ [t.slot] } }
  | some o => match s.tk o t.slot with
    | some r => s.setTk { r with delivered := max r.delivered t.index }
    | none => s
/-- R298: the queue pair a token travels on. -/
def State.tokenQp (s : State) (v : Session) (t : RingTok) : Nat :=
  sessionVia v (if t.origin.isNone then (s.req t.slot).map (·.qp) else none)
/-- TOKEN_DELIVERY (R298): the oldest waiting token of a ring is written while the ring has room and the session a queue pair; a
full ring asks for the consumer count. -/
def execTokenDelivery (i ring : Nat) (s : State) : Res :=
  if i < 256 ∧ ring < 64 then
    .next (match s.session i, SMap.find? s.host.rings (ringKey i ring) with
    | some v, some g =>
      (match g.waiting with
       | [] => s
       | t :: l =>
         if v.st ≠ .active then s
         else
           let q := s.tokenQp v t
           if ringFull g then s.emit (.rdmaRead q g.cAddr g.cRkey 8)
           else
             let g' : Ring := { g with produced := g.produced + 1, written := g.written ++ [t], waiting := l }
             ((s.writeToken q ring g g.produced t).setRing (ringKey i ring) g').noteWritten t)
    | _, _ => s)
  else .refused (.noSuchUnit "ring")
/-- CONSUMER_COUNT_READ (R298): while the ring appears full, the count read is used clamped between the one last used and P. -/
def execConsumerCountRead (i ring count : Nat) (s : State) : Res :=
  if i < 256 ∧ ring < 64 then
    .next (match SMap.find? s.host.rings (ringKey i ring) with
    | some g =>
      if ringFull g then
        let c := max g.consumed (min count g.produced)
        s.setRing (ringKey i ring) { g with consumed := c, written := g.written.drop (c - g.consumed) }
      else s
    | none => s)
  else .refused (.noSuchUnit "ring")

/-! ## Final records (R300, R353) -/

/-- Whether a ring still holds back a token of a request. -/
def State.tokenWaits (s : State) (origin : Option Nat) (i ring slot sub : Nat) : Bool :=
  match SMap.find? s.host.rings (ringKey i ring) with
  | some g => g.waiting.any (fun t => decide (t.slot = slot) && decide (t.subSeq = sub) && decide (t.origin = origin))
  | none => false
/-- FINAL_EVENT (R300, R353): once a request's tokens are written and its FINAL record is acknowledged, the event leaves and the
slot is free; the record stays readable. `origin` names the module of a request taken over. -/
def execFinalEvent (origin : Option Nat) (slot : Nat) (s : State) : Res :=
  if 65536 ≤ slot ∨ 8192 ≤ origin.getD 0 then .refused (.noSuchUnit "slot")
  else .next (match origin with
    | none =>
      (match s.req slot with
       | none => s
       | some r =>
         match s.session r.session with
         | none => s
         | some v =>
           if s.jActive ∧ r.finalAcked ∧ r.member = none ∧ v.st = .active ∧ v.gen = r.gen ∧ v.closing ≠ 2 ∧
             ¬ s.tokenWaits none r.session (rqRing (rqD r)) slot r.sub then
             let f := sessionField r.session r.gen
             let b := finalRecord slot r f 0xFFFF
             let s1 := (s.sendEventOn r.session 0x8001 1 (some r.qp) b).freeSlot slot
             { s1 with stew := { s1.stew with kept := s1.stew.kept ++ [(slot, f, r.sub, b, some (s.now + s.keepNs))] } }
           else s)
    | some o =>
      match s.tk o slot with
      | none => s
      | some t =>
        match t.final, s.standby t with
        | some b, some i =>
          if t.acked ∧ t.tokens.length ≤ t.delivered ∧ s.jActive then
            let f := if o = s.ownId then ofBytes ((b.drop 4).take 2) else t.session
            let s1 := s.sendEventOn i 0x8001 1 none b
            { s1 with
              jr := { s1.jr with table := SMap.erase s1.jr.table (tkKey o slot) }
              stew := { s1.stew with kept := s1.stew.kept ++ [(slot, f, t.sub, b, some (s.now + s.keepNs))] } }
          else s
        | _, _ => s)
/-- FINAL_RECORD_EXPIRY (R300). -/
def execFinalRecordExpiry (s : State) : Res :=
  .next { s with stew := { s.stew with kept := s.stew.kept.filter (fun k => match k.2.2.2.2 with
    | some t => decide (s.now < t)
    | none => true) } }

/-! ## Host RDMA (R294) -/

/-- R294: the range lies in the window. -/
def State.inMemWindow (s : State) (w a n : Nat) : Bool :=
  let b := s.rd F.MEM_WINDOW_BASE w
  decide (b ≤ a) && decide (a + n ≤ b + pageBytes * s.rd F.MEM_WINDOW_PAGES w)
/-- R294: every check but the state of the pages. -/
def State.rdmaAllowed (s : State) (v : Session) (write : Bool) (rkey a n : Nat) : Bool :=
  let w := rkey % 4096
  decide (w ≠ 0) && s.flag F.MEM_WINDOW_VALID w && decide (s.rd F.MEM_WINDOW_RKEY w = rkey) &&
  (if write then s.flag F.MEM_WINDOW_WRITE w else s.flag F.MEM_WINDOW_READ w) &&
  (s.mayAct v (s.rd F.MEM_WINDOW_TENANT w) || (s.flag F.MEM_WINDOW_ANY_TENANT w && bitOf v.roles 1)) && s.inMemWindow w a n &&
  (pagesIn a n).all (fun pn => match s.pte pn with
    | some p => decide (p.mwin = w)
    | none => false)
/-- HOST_RDMA_ACCESS (R294): a READ of `n` bytes, or a WRITE of `data`. A READ of a page that is not near asks for its promotion and
is carried out by a later command; a failed check is answered by a NAK and the queue pair enters the error state. -/
def execHostRdmaAccess (q rkey addr n : Nat) (data : Option (List Byte)) (s : State) : Res :=
  .next (
    match s.qp q with
    | none => s
    | some k =>
      if k.error ∨ s.dark ∨ s.boot.failAt.isSome then s
      else
        let nak := (s.emit (.hostNak q .remoteAccess)).qpError q
        match k.bound.bind s.session with
        | none => nak
        | some v =>
          match data with
          | some b =>
            if s.rdmaAllowed v true rkey addr b.length ∧ s.rangeAccess State.writeAccess addr b.length = .ok then
              ((pagesIn addr b.length).foldl (fun (s : State) pn => s.touch pn) s).masWrite addr b
            else nak
          | none =>
            if s.rdmaAllowed v false rkey addr n then
              (match s.rangeAccess State.readAccess addr n with
               | .ok => ((pagesIn addr n).foldl (fun (s : State) pn => s.touch pn) s).emit (.hostData q (s.masBytes addr n))
               | .wait => s.requestRange addr n 0 2
               | .fault => nak)
            else nak)

/-! ## Queue pairs and congestion (R273, R274) -/

/-- CM_CONNECT (R273): a connection request for queue pair `q` on a port: created while fewer than 64 wait to be bound and the
link is up, else rejected. -/
def execCmConnect (q port : Nat) (s : State) : Res :=
  if 4096 ≤ q ∨ 4 ≤ port then .refused (.noSuchUnit "queue pair")
  else .next (
    let busy : Bool := match s.qp q with
      | some v => !v.error
      | none => false
    if !(s.flag F.HOST_PORT_STATUS_LINK_UP port) ∨ s.dark then s
    else if busy ∨ 64 ≤ SMap.countIf s.host.qps (fun _ v => v.bound.isNone && !v.error) then s.emit .reject
    else s.setQp q { port := port, bound := none, error := false, auth := [], used := 0, rate := s.lineRate port, halved := 0
                     raised := s.now, cnpAt := none })
/-- QP_ERROR (R273, R280). -/
def execQpError (q : Nat) (s : State) : Res := if q < 4096 then .next (s.qpError q) else .refused (.noSuchUnit "queue pair")

/-- The pause of a port: since when, or none once the storm has been reported; unlisted while it is not paused. -/
def State.setPause (s : State) (p : Nat) (v : Option (Option Nat)) : State :=
  { s with host := { s.host with paused := match v with
    | some t => SMap.insert s.host.paused p t
    | none => SMap.erase s.host.paused p } }
/-- PFC_PAUSE (R274): a pause frame on a priority, or its end. Pause matters here on PFC_PRIO, which the traffic uses. -/
def execPfcPause (p prio : Nat) (on : Bool) (s : State) : Res :=
  if 4 ≤ p ∨ 8 ≤ prio then .refused (.noSuchUnit "host port")
  else .next (if prio ≠ s.rd F.HOST_PORT_CFG_PFC_PRIO p ∨ ¬ s.flag F.HOST_PORT_STATUS_LINK_UP p then s
    else if on then (if (SMap.find? s.host.paused p).isSome then s else s.setPause p (some (some s.now)))
    else s.setPause p none)
/-- PFC_STORM (R274): paused for 100 ms without a break. -/
def execPfcStorm (p : Nat) (s : State) : Res :=
  if 4 ≤ p then .refused (.noSuchUnit "host port")
  else .next (match SMap.find? s.host.paused p with
    | some (some t) =>
      if t + 100000000 ≤ s.now then ((s.wr F.HOST_PORT_STATUS_PFC_STORM 1 p).setPause p (some none)).hostLinkEvent p 7 else s
    | _ => s)
/-- CNP_RECEIVE (R274): the queue pair's send rate is halved, at most once per 50 µs and never below 1 Gb/s. -/
def execCnpReceive (q : Nat) (s : State) : Res :=
  if 4096 ≤ q then .refused (.noSuchUnit "queue pair")
  else .next (match s.qp q with
    | none => s
    | some v =>
      if v.error ∨ ¬ s.flag F.HOST_PORT_CFG_ECN_EN v.port then s
      else if v.rate = s.lineRate v.port ∨ v.halved + 50000 ≤ s.now then
        s.setQp q { v with rate := max 1000 (v.rate / 2), halved := s.now, raised := s.now }
      else s.setQp q { v with raised := s.now })
/-- RATE_RECOVERY (R274): 55 µs without a notification raise the rate by 5 % of line rate, up to line rate. -/
def execRateRecovery (q : Nat) (s : State) : Res :=
  if 4096 ≤ q then .refused (.noSuchUnit "queue pair")
  else .next (match s.qp q with
    | none => s
    | some v =>
      let line := s.lineRate v.port
      if s.flag F.HOST_PORT_CFG_ECN_EN v.port ∧ v.rate < line ∧ v.raised + 55000 ≤ s.now then
        s.setQp q { v with rate := min line (v.rate + line / 20), raised := s.now }
      else s)

end Sys2Proof.Machine
end

