-- ==== Sys2Proof/Machine/Vector.lean ====
section
/-!
DEFINITION. The vector engine (R67, R68, R74 to R76): one iteration of the vector sequencer for each command.
-/
namespace Sys2Proof.Machine
open Sys2Proof.Machine.Num

/-- The operands, destination and result of one iteration, before anything changes: which ports are consumed,
where the result goes, the width of its lanes, its value and flags. -/
structure VecResult where
  uses : List Nat
  dst : Nat
  lw : Nat
  value : Tok
  flags : Flags
  /-- R371: every exact result agrees with its residue. -/
  checked : Bool
  deriving DecidableEq, Repr

/-- Number of source operands of a lane operation of the table of R74. -/
def vecArity (opc : Nat) : Nat :=
  if opc = 0x23 ∨ opc = 0x27 then 3
  else if opc ≤ 0x2B then 2
  else 1

/-- A destination part that is kept (R74): the register's present value. A port has none: its kept parts are zero, DESIGN
CHOICE (notes/assumptions/92). -/
def State.oldDst (s : State) (die y x c spec : Nat) : Tok :=
  if spec < 32 then SMap.getD (s.tile die y x c).vregs spec 0 else 0

/-- One iteration of an operation that maps lanes, converts, packs, shuffles, reduces or moves; `i` is the
iteration number. None while a source has no token. How INC steps the source of a VCVT with a wider destination and of VMXPK is
DEDUCED: notes/assumptions/92. -/
def State.vecEval (s : State) (die y x c w i : Nat) : Option VecResult :=
  let opc := opOpc w; let fmt := opFmt w; let imm := opImm w
  let inc := bitOf (opMod w) 1
  let k := if inc then i else 0
  let width := fmtWidth fmt
  let src := fun sp => s.source die y x c sp width
  let a := stepSpec (opA w) k; let b := stepSpec (opB w) k; let cc := stepSpec (opC w) k
  let d := stepSpec (opDst w) k
  if opc = 0x34 then
    let dfmt := imm % 16
    let dw := fmtWidth dfmt
    let part := imm / 16 % 4 + k
    let sat := bitOf (opMod w) 0
    if dw < width then
      let r := width / dw
      let dd := stepSpec (opDst w) (if inc then part / r else 0)
      let n := 1024 / width
      (src a).map (fun t =>
        let rs := (List.range n).map (fun j => convLane fmt dfmt sat (lane t width j))
        ⟨[a], dd, dw, putTok (s.oldDst die y x c dd) (part % r * n * dw) (n * dw) (packNat dw (rs.map (·.1))),
          rs.foldl (fun g q => g ||| q.2) 0, true⟩)
    else
      let r := dw / width
      let aa := if r = 1 then a else stepSpec (opA w) (if inc then part / r else 0)
      let n := 1024 / dw
      let first := if r = 1 then 0 else part % r * n
      (src aa).map (fun t =>
        let rs := (List.range n).map (fun j => convLane fmt dfmt sat (lane t width (first + j)))
        ⟨[aa], d, dw, packLanes dw (rs.map (·.1)), rs.foldl (fun g q => g ||| q.2) 0, true⟩)
  else if opc = 0x35 then
    let ef := imm % 16
    let slot := imm / 16 % 4 + k
    let dd := stepSpec (opDst w) (if inc then slot / mxSlots ef else 0)
    let h := if fmt = 1 then 32 * (imm / 64 % 2) else 0
    (src a).map (fun t =>
      let vals := (List.range 32).map (fun j => decode (fmtF fmt) (lane t width (h + j)))
      let r := mxPack ef vals (s.oldDst die y x c dd) (slot % mxSlots ef)
      ⟨[a], dd, 8, r.1, r.2, true⟩)
  else if opc = 0x36 then
    let slot := imm / 16 % 4 + k
    let aa := stepSpec (opA w) (if inc then slot / mxSlots fmt else 0)
    (src aa).map (fun t =>
      let r := mxUnpack fmt t (slot % mxSlots fmt)
      ⟨[aa], d, 32, r.1, r.2, true⟩)
  else if opc = 0x38 then
    let idx := imm / 64 % 4 = 3
    (s.source die y x c a 32).bind (fun t =>
      (if idx then s.source die y x c b 32 else some 0).map (fun u =>
        ⟨if idx then [a, b] else [a], d, 32,
          packLanes 32 ((List.range 32).map (fun j => lane t 32 (shufIndex imm u j))), 0, true⟩))
  else if opc = 0x39 then
    (src a).map (fun t =>
      let r := reduce fmt imm (lanes t 32)
      ⟨[a], d, 32, splat 32 r.1, r.2, true⟩)
  else if opc = 0x3D then (src a).map (fun t => ⟨[a], d, width, t, 0, true⟩)
  else
    let n := vecArity opc
    (src a).bind (fun ta =>
      (if 2 ≤ n then src b else some 0).bind (fun tb =>
        (if 3 ≤ n then src cc else some 0).map (fun tc =>
          let r := mapLanes opc fmt imm ta tb tc
          { uses := [a] ++ (if 2 ≤ n then [b] else []) ++ (if 3 ≤ n then [cc] else []), dst := d, lw := width, value := r.1,
            flags := r.2, checked := lanesResidueOk opc fmt ta tb tc })))

/-- After an iteration: the next one, or the next word of the unit, or the wrap (R67, R68). -/
def State.vecAdvance (s : State) (die y x c : Nat) : State :=
  let t := s.tile die y x c
  if t.vIter + 1 < t.vCount then s.setTile die y x c { t with vIter := t.vIter + 1 }
  else
    let t' : TileCtx := { t with vLive := false, vIter := 0, vCount := 0 }
    match s.nextWord die y x c (t.vWord + 1) true with
    | some i => s.setTile die y x c { t' with vWord := i }
    | none => s.setTile die y x c (s.wrapped die y x c true t')

/-- Account for an issued iteration (R78, R97). -/
def State.vecIssued (s : State) (die y x c : Nat) : State :=
  ((s.bump F.TILE_VBUSY_COUNT 1 c (.tile die y x)).fired die c).vecAdvance die y x c

/-- One iteration of a register-to-register operation: nothing at all while a source is missing or the
destination has no room (R79). -/
def State.vecIterate (s : State) (die y x c w : Nat) : State :=
  match s.vecEval die y x c w (s.tile die y x c).vIter with
  | none => s
  | some r =>
    if s.dstRoom die y x c r.dst then
      ((((s.consumeAll die y x c r.uses).writeDst die y x c r.dst r.lw r.value).tileFlags die y x c r.flags).residue die y x c
        0x0C r.checked).vecIssued die y x c
    else s.waitDst die y x c r.dst

/-- The FP32 lane-wise sum of two tokens. -/
def addTok (a b : Tok) : Tok × Flags := mapLanes 0x20 0 0 a b 0
/-- R36, R479: the lanes of a token read as numbers: a NaN lane becomes the canonical NaN and sets NAN_IN. -/
def readTok (a : Tok) : Tok × Flags :=
  let rs := (lanes a 32).map (fun x => if isNan (decode fp32 x) then (fp32.nanCode, fNANIN) else (x, 0))
  (packLanes 32 (rs.map (·.1)), rs.foldl (fun g r => g ||| r.2) 0)
/-- R75: one more operand of a combine: the first starts the sum, and each addition rounds. -/
def combAdd (g : Option Tok × Flags) (t : Tok) : Option Tok × Flags :=
  let q := match g.1 with
    | none => readTok t
    | some v => addTok v t
  (some q.1, g.2 ||| q.2)

/-- R371: the additions of a combine. -/
def combChecked (start : Option Tok) (ts : List Tok) : Bool :=
  (ts.foldl (fun (g : Option Tok × Bool) t => match g.1 with
    | none => (some t, g.2)
    | some v => (some (addTok v t).1, g.2 && lanesResidueOk 0x20 0 v t 0)) (start, true)).2

/-- R75: ports that VCOMB selects, in ascending order; 46 stands for MI. -/
def combPorts (imm : Nat) : List Nat :=
  ((List.range 4).filter (bitOf imm)).map (· + 32) ++ (if bitOf imm 4 then [46] else [])

/-- R75, fixed order: every selected port holds a token, and they are added in ascending order. -/
def State.combOrdered (s : State) (die y x c w : Nat) : State :=
  let k := if bitOf (opMod w) 1 then (s.tile die y x c).vIter else 0
  let ports := combPorts (opImm w)
  let toks := ports.filterMap (fun p => s.source die y x c p 32)
  let start := if opC w = 47 then none else s.source die y x c (stepSpec (opC w) k) 32
  let d := stepSpec (opDst w) k
  if toks.length < ports.length ∨ (opC w ≠ 47 ∧ start.isNone) then s
  else if ¬ s.dstRoom die y x c d then s.waitDst die y x c d
  else
    let r := (start.toList ++ toks).foldl combAdd (none, 0)
    ((((s.consumeAll die y x c ports).writeDst die y x c d 32 (r.1.getD 0)).tileFlags die y x c r.2).residue die y x c 0x0C
      (combChecked (start.map (fun v => (readTok v).1)) toks)).vecIssued die y x c

/-- R75, arrival order: take every selected port's token that is present and not yet taken, in ascending order;
the result is written once all have been added. The tokens taken are kept in their order, and each addition sets its flags. -/
def State.combArrival (s : State) (die y x c w : Nat) : State :=
  let t := s.tile die y x c
  let k := if bitOf (opMod w) 1 then t.vIter else 0
  let d := stepSpec (opDst w) k
  let ports := combPorts (opImm w)
  let start := if opC w = 47 then none else s.source die y x c (stepSpec (opC w) k) 32
  let ready := ports.filterMap (fun p =>
    if t.comb.any (fun e => decide (e.1 = p)) then none else (s.source die y x c p 32).map (fun u => (p, u)))
  let taken := t.comb ++ ready
  let before := (start.toList ++ t.comb.map (·.2)).foldl combAdd (none, 0)
  let r := (ready.map (·.2)).foldl combAdd (before.1, if t.comb.isEmpty then before.2 else 0)
  let used := ready.map (·.1)
  let ok := combChecked before.1 (ready.map (·.2))
  if taken.length = ports.length then
    if ¬ s.dstRoom die y x c d then s.waitDst die y x c d
    else
      let s1 := (s.consumeAll die y x c used).writeDst die y x c d 32 (r.1.getD 0)
      let t1 := s1.tile die y x c
      (((s1.setTile die y x c { t1 with comb := [] }).tileFlags die y x c r.2).residue die y x c 0x0C ok).vecIssued die y x c
  else if ready.isEmpty then s
  else
    let s1 := s.consumeAll die y x c used
    let t1 := s1.tile die y x c
    (((s1.setTile die y x c { t1 with comb := taken }).tileFlags die y x c r.2).residue die y x c 0x0C ok).fired die c

/-- R76: the eight control tokens of a summary message. -/
def summaryToks (id c y x v : Nat) : List Tok :=
  ([id % 256, c % 4, y, x] ++ [v % 256, v / 256 % 256, v / 65536 % 256, v / 16777216 % 256]).map
    (fun b => BitVec.ofNat 1024 b)

/-- VSSEND (R76): reduce A and send the message, or combine it into the word's running summary when ACCUM is set
and this is not the last iteration. The message waits for room on the control output. -/
def State.summarySend (s : State) (die y x c w : Nat) : State :=
  let t := s.tile die y x c
  let accum := bitOf (opMod w) 2
  let a := stepSpec (opA w) (if accum then t.vIter else 0)
  match s.source die y x c a 32 with
  | none => s
  | some tok =>
    let r := summary (opMod w) (lanes tok 32)
    let v : Nat × Flags :=
      match t.vsum with
      | none => r
      | some p => let q := combineSummary (opMod w) p r.1; (q.1, q.2 ||| r.2)
    let last := decide (t.vCount ≤ t.vIter + 1)
    if accum && !last then
      let s1 := s.consume die y x c a
      let t1 := s1.tile die y x c
      ((s1.setTile die y x c { t1 with vsum := some v.1 }).tileFlags die y x c v.2).vecIssued die y x c
    else
      let q := qidOf y x 2 4
      if s.roomAt die q c < 8 then s.markWaiting die q c
      else
        let s1 := (s.consume die y x c a).pushToks die q c (summaryToks (opImm w) c y x v.1)
        let t1 := s1.tile die y x c
        ((s1.setTile die y x c { t1 with vsum := none }).tileFlags die y x c v.2).vecIssued die y x c

/-- One iteration of the word the vector sequencer stands at. -/
def State.vecFireWord (s : State) (die y x c w : Nat) : State :=
  if opOpc w = 0x3A then
    (if bitOf (opMod w) 2 then s.combOrdered die y x c w else s.combArrival die y x c w)
  else if opOpc w = 0x3C then s.summarySend die y x c w
  else s.vecIterate die y x c w

/-- R67 to R69: the vector sequencer of the active context, if it stands at a word with opcode `opc`, starts the
word by reading its repeat count and issues one iteration. A count of zero skips the word; a count of 2^24 or
more is a bound error. -/
def State.vecFire (s : State) (die y x opc : Nat) : State :=
  match s.active die with
  | none => s
  | some c =>
    let s := s.adoptDue die y x c true
    let t := s.tile die y x c
    match s.nextWord die y x c t.vWord true with
    | none => s
    | some i =>
      let w := s.prog die y x c i
      if opOpc w ≠ opc then s
      else if t.vLive then s.vecFireWord die y x c w
      else
        match s.repeatCount die y x c w true with
        | none => s
        | some (n, s1) =>
          if 2 ^ 24 ≤ n then s.tileBound die y x c i
          else
            let s2 := s1.setTile die y x c { t with vWord := i, vLive := true, vCount := n, vIter := 0, vsum := none }
            if n = 0 then (s2.fired die c).vecAdvance die y x c else s2.vecFireWord die y x c w

/-- VADD (R74, R55, R56). -/
def execVadd (die y x : Nat) (s : State) : Res := onCt s die y x (.next (s.vecFire die y x 0x20))
/-- VSUB (R74, R55, R56). -/
def execVsub (die y x : Nat) (s : State) : Res := onCt s die y x (.next (s.vecFire die y x 0x21))
/-- VMUL (R74, R56). -/
def execVmul (die y x : Nat) (s : State) : Res := onCt s die y x (.next (s.vecFire die y x 0x22))
/-- VFMA (R74, R56). -/
def execVfma (die y x : Nat) (s : State) : Res := onCt s die y x (.next (s.vecFire die y x 0x23))
/-- VMIN (R74, R56). -/
def execVmin (die y x : Nat) (s : State) : Res := onCt s die y x (.next (s.vecFire die y x 0x24))
/-- VMAX (R74, R56). -/
def execVmax (die y x : Nat) (s : State) : Res := onCt s die y x (.next (s.vecFire die y x 0x25))
/-- VCMP (R74, R56). -/
def execVcmp (die y x : Nat) (s : State) : Res := onCt s die y x (.next (s.vecFire die y x 0x26))
/-- VSEL (R74). -/
def execVsel (die y x : Nat) (s : State) : Res := onCt s die y x (.next (s.vecFire die y x 0x27))
/-- VAND (R74). -/
def execVand (die y x : Nat) (s : State) : Res := onCt s die y x (.next (s.vecFire die y x 0x28))
/-- VOR (R74). -/
def execVor (die y x : Nat) (s : State) : Res := onCt s die y x (.next (s.vecFire die y x 0x29))
/-- VSHL (R74). -/
def execVshl (die y x : Nat) (s : State) : Res := onCt s die y x (.next (s.vecFire die y x 0x2A))
/-- VSHR (R74). -/
def execVshr (die y x : Nat) (s : State) : Res := onCt s die y x (.next (s.vecFire die y x 0x2B))
/-- VEXP2 (R57). -/
def execVexp2 (die y x : Nat) (s : State) : Res := onCt s die y x (.next (s.vecFire die y x 0x30))
/-- VRCP (R57). -/
def execVrcp (die y x : Nat) (s : State) : Res := onCt s die y x (.next (s.vecFire die y x 0x31))
/-- VRSQRT (R57). -/
def execVrsqrt (die y x : Nat) (s : State) : Res := onCt s die y x (.next (s.vecFire die y x 0x32))
/-- VCVT (R46, R74). -/
def execVcvt (die y x : Nat) (s : State) : Res := onCt s die y x (.next (s.vecFire die y x 0x34))
/-- VMXPK (R47, R74). -/
def execVmxpk (die y x : Nat) (s : State) : Res := onCt s die y x (.next (s.vecFire die y x 0x35))
/-- VMXUP (R74). -/
def execVmxup (die y x : Nat) (s : State) : Res := onCt s die y x (.next (s.vecFire die y x 0x36))
/-- VSHUF (R74). -/
def execVshuf (die y x : Nat) (s : State) : Res := onCt s die y x (.next (s.vecFire die y x 0x38))
/-- VRED (R56, R74). -/
def execVred (die y x : Nat) (s : State) : Res := onCt s die y x (.next (s.vecFire die y x 0x39))
/-- VCOMB (R75). -/
def execVcomb (die y x : Nat) (s : State) : Res := onCt s die y x (.next (s.vecFire die y x 0x3A))
/-- VSSEND (R76). -/
def execVssend (die y x : Nat) (s : State) : Res := onCt s die y x (.next (s.vecFire die y x 0x3C))
/-- VMOV (R74). -/
def execVmov (die y x : Nat) (s : State) : Res := onCt s die y x (.next (s.vecFire die y x 0x3D))

/-- PARAM_ADOPT (R70): a sequencer of the active context adopts the set that was pending when it wrapped. A sequencer that has
not wrapped since the commit keeps its set. -/
def execParamAdopt (die y x : Nat) (vec : Bool) (s : State) : Res :=
  onCt s die y x (.next (match s.active die with
    | none => s
    | some c => s.adoptDue die y x c vec))

end Sys2Proof.Machine
end

