-- ==== Sys2Proof/Machine/Clock.lean ====
section
/-!
DEFINITION. Time while no command waits (notes/assumptions/1): one MCLK period of 20 ns passes (R401), the dies in A0 count their
ACLK cycles (R399, R411) with the watchdog, spill, idle and stall counts that rise with them (R95, R97, R160, R162 to R164), and a
power-fail sequence that has run its course ends (R416).
-/
namespace Sys2Proof.Machine

/-! ## Which units can fire (R79, R97) -/

/-- The vector sequencer issues its next word, whatever its opcode. -/
def State.vecTurn (s : State) (die y x : Nat) : State :=
  match s.active die with
  | none => s
  | some c =>
    match s.nextWord die y x c (s.tile die y x c).vWord true with
    | none => s
    | some i => s.vecFire die y x (opOpc (s.prog die y x c i))
/-- What the units of a slot's context may do next: sequencers, generators, queues and the router. -/
def State.unitActs (s : State) (die c : Nat) : List (State → State) :=
  match s.image die c with
  | none => []
  | some img =>
    img.tiles.flatMap (fun t => [fun s => s.matFire die t.y t.x, fun s => s.vecTurn die t.y t.x]) ++
    img.mts.flatMap (fun m => (List.range 4).flatMap (fun a =>
      [fun s => s.issueDesc die m.y m.x a, fun s => s.agRead die m.y m.x a, fun s => s.agWrite die m.y m.x a,
       fun s => s.agFill die m.y m.x a, fun s => s.scatter die m.y m.x a false, fun s => s.scatter die m.y m.x a true])) ++
    (s.arr.queues.filter (fun e => ofSlot die c e.1)).map (fun e => fun s => s.forward die (e.1 / 4 % 65536)) ++
    [fun s => s.routerHeader die, State.selectRow die c 1]
/-- An act fires a unit of a slot: it clears a watchdog count of 1 (R97). -/
def State.fires (s : State) (die c : Nat) (act : State → State) : Bool :=
  decide ((act (s.wr F.WDOG_COUNT_COUNT 1 c (.die die))).rd F.WDOG_COUNT_COUNT c (.die die) = 0)
/-- No unit of a slot's context can fire. -/
def State.quiet (s : State) (die c : Nat) : Bool := !(s.unitActs die c).any (s.fires die c)
/-- R97: the active slot is stalled: a queue is blocked, nothing outside is outstanding and no unit can fire. -/
def State.stalled (s : State) (die c : Nat) : Bool :=
  !(s.blockedQids die c).isEmpty && !(s.outsideWork die c) && s.quiet die c
/-- R101: it is idle: nothing is blocked, nothing is outstanding and no unit can fire. -/
def State.idles (s : State) (die c : Nat) : Bool := (s.blockedQids die c).isEmpty && !(s.outsideWork die c) && s.quiet die c

/-! ## Counts of a die over `n` cycles -/

/-- R97, R99: the watchdog count rises to the limit; the cycle in which it gets there is F. -/
def State.wdogCycles (s : State) (die c n : Nat) : State :=
  let v := s.rd F.WDOG_COUNT_COUNT c (.die die)
  let limit := 2 ^ s.rd F.WDOG_CFG_LIMIT_LOG2 0 (.die die)
  if limit ≤ v then s
  else if v + n < limit then s.wr F.WDOG_COUNT_COUNT (v + n) c (.die die)
  else
    let f := SMap.getD s.arr.cycles die 0 + (limit - v)
    let s1 := s.wr F.WDOG_COUNT_COUNT limit c (.die die)
    { s1 with arr := { s1.arr with wdogAt := SMap.setD s1.arr.wdogAt die f 0 } }
/-- R95, R97, R162: what the active slot counts. -/
def State.slotCycles (s : State) (die c n : Nat) : State :=
  let s1 := if s.anySpilling die c then s.bump F.SPILL_CYCLES_COUNT n c (.die die) else s
  if s.stalled die c then s1.wdogCycles die c n
  else
    let k := if s.idles die c then SMap.getD s1.arr.idleFor die 0 + n else 0
    { s1 with arr := { s1.arr with idleFor := SMap.setD s1.arr.idleFor die k 0 } }
/-- R160: the groups of a dispatch that wait for residency. -/
def State.missing (s : State) (d : Dispatch) : List GroupRec :=
  d.groups.filter (fun g => g.lane.isNone && decide (s.rangeAccess State.readAccess g.waddr g.wlen = .wait))
/-- R160, R163, R164: the cause under which a held stream counts a cycle; none while it waits for a dispatch that makes progress. -/
def State.streamCause (s : State) (die st : Nat) : Option Nat :=
  if s.strState die st ≠ 2 then none
  else
    let cause := s.rd F.STREAM_STATUS_HELD_CAUSE st (.die die)
    if cause = 5 ∨ cause = 8 ∨ cause = 11 then some cause
    else match ((s.stream die st).flying.find? (fun f => decide (f.cls = .dispatch))).bind (fun f => s.dispatch die f.slot) with
      | some d => if d.groups.any (fun g => g.lane.isSome) then none else if (s.missing d).isEmpty then some cause else some 2
      | none => some cause
/-- R163, R164: the causes that hold for a unit of the active context. -/
def State.unitCauses (s : State) (die c : Nat) : List Nat :=
  (if s.arr.queues.any (fun e => ofSlot die c e.1 && e.2.waiting) then [1] else []) ++
  (if s.arr.heldReads.any (fun r => match r.asker with
    | .array d _ k => decide (d = die ∧ k = c)
    | _ => false) then [5] else []) ++
  (if s.anySpilling die c then [9] else []) ++
  (if (s.blockedQids die c).isEmpty then [] else [0])
/-- R160, R163, R164: what the streams and the die count. -/
def State.stallCycles (s : State) (die n : Nat) : State :=
  let w := Win.die die
  let mine := (List.range 64).filterMap (fun st => (s.streamCause die st).map (fun k => (st, k)))
  let s1 := mine.foldl (fun (s : State) e => s.bump F.STREAM_STALL_COUNT n (16 * e.1 + e.2) w) s
  let units := match s.active die with
    | some c => s.unitCauses die c
    | none => []
  let s2 := ((mine.map (·.2) ++ units).eraseDups).foldl (fun (s : State) k => s.bump F.DIE_STALL_COUNT n k w) s1
  let miss := (List.range 4).foldl (fun a c => match s.dispatch die c with
    | some d => a + (s.missing d).length
    | none => a) 0
  if miss = 0 then s2 else s2.bump F.DISPATCH_MISS_CYCLES_VALUE (n * miss) 0 w
/-- R404: how long a die in A0 has rested. -/
def State.restCycles (s : State) (d : Nat) : State :=
  let k := if s.dieP d = 0 ∧ s.dieRests d then SMap.getD s.arr.restFor d 0 + 20 else 0
  { s with arr := { s.arr with restFor := SMap.setD s.arr.restFor d k 0 } }
/-- R99, R396, R399: a die in A0 counts 20 ns of ACLK; ACLK is 5 times ACLK_M for each MCLK period. In global stalls, which come
first, nothing else counts. -/
def State.countCycles (s : State) (d : Nat) : State :=
  if s.dieP d = 0 then
    let all := 5 * s.rd F.DIE_OPPOINT_ACLK_M d
    let due := SMap.getD s.arr.held d 0
    let n := all - due
    let s1 := (s.bump F.DET_CYCLES_COUNT n d).stallCycles d n
    let s2 := match s1.active d with
      | some c => s1.slotCycles d c n
      | none => s1
    { s2 with arr := { s2.arr with
      held := SMap.setD s2.arr.held d (due - all) 0
      cycles := SMap.setD s2.arr.cycles d ((SMap.getD s2.arr.cycles d 0 + all) % 2 ^ 64) 0 } }
  else s
/-- One MCLK period passes. -/
def State.tick (s : State) : State :=
  let s1 : State := { s with now := s.now + 20 }
  if s1.dark then s1 else ([0, 1, 2, 3].foldl (fun (s : State) d => (s.countCycles d).restCycles d) s1).failDone

end Sys2Proof.Machine
end

