-- ==== Sys2Proof/Machine/LinkPorts.lean ====
section
/-!
DEFINITION. What takes a link port out of service or brings it back (R312 to R317, R324, R330, R331): training, loss of signal, lane
failures, retraining, enabling and replays; a fetch whose bundle goes down goes on elsewhere (R237).
-/
namespace Sys2Proof.Machine

/-- LINK_TRAINING (R313, R314, R318): an enabled port does the next phase of training; `q` is what it finds of its
partner. Phases 4 and 5 wait for ID_VALID. -/
def execLinkTraining (p : Nat) (q : Partner) (s : State) : Res :=
  onPort p (.next (
    let v := s.port p
    let st := s.portState p
    if st = 1 ∨ st = 2 ∨ st = 5 then
      match v.phase with
      | 0 =>
        if q.lanes = 0 then (if st = 1 then s else s.portTo p 1 1)
        else (s.setPort p { v with phase := 1, since := s.now }).portTo p (if st = 5 then 5 else 2) (s.rd F.LINK_PORT_STATUS_CAUSE p)
      | 1 => s.setPort p { v with phase := 2 }
      | 2 => (s.setPort p { v with phase := 3 }).wr F.LINK_PORT_STATUS_WIDTH (widthCode (widthOf q.lanes)) p
      | 3 =>
        if s.flag F.MODULE_NUM_ID_VALID then
          match s.identifyFault p q with
          | some c => ((s.setPort p { v with phase := 0 }).portTo p 6 c).bundlesDown
          | none =>
            let g := match s.groupOf p with
              | some (g, _, _) => g
              | none => 0
            (((s.setPort p { v with phase := 4 }).wr F.LINK_PORT_STATUS_PEER_ID (if q.isSwitch then 0 else q.id) p).wrFlag
              F.LINK_PORT_STATUS_PEER_SWITCH q.isSwitch p).wr F.LINK_PORT_STATUS_GROUP g p
        else s
      | _ =>
        if q.clean then
          let credits := if q.isSwitch then q.credits else [128, 128, 896, 896]
          let s1 := s.setPort p { Port.empty with faults := v.faults, credits := credits, drain := v.drain }
          let s2 := s1.wr F.LINK_PORT_STATUS_EYE_MARGIN q.eye p
          let s3 := if s.portWidth p = 4 then s2.portTo p 3 0 else s2.portTo p 4 5
          s3.flushWaiting
        else s.setPort p { v with phase := 0 }
    else s))

/-- TRAINING_TIMEOUT (R313): training has outlasted its class bound with a signal present. A port that waits for ID_VALID
is not timed. -/
def execTrainingTimeout (p : Nat) (s : State) : Res :=
  onPort p (.next (
    let v := s.port p
    if (s.portState p = 2 ∨ s.portState p = 5) ∧ 0 < v.phase ∧ v.since + trainBound (s.portClass p) ≤ s.now ∧
      (v.phase ≠ 3 ∨ s.flag F.MODULE_NUM_ID_VALID) then (s.portFault p 2).bundlesDown else s))

/-- LOSS_OF_SIGNAL (R315, R324). -/
def execLossOfSignal (p : Nat) (s : State) : Res :=
  onPort p (.next (if 2 ≤ s.portState p ∧ s.portState p ≤ 4 then (s.portFault p 1).bundlesDown else s))

/-- LANE_FAILURE (R330): one lane of a port that carries traffic fails. -/
def execLaneFailure (p : Nat) (s : State) : Res :=
  onPort p (.next (if s.portState p = 3 ∨ s.portState p = 4 then (s.portFault p 5).bundlesDown else s))

/-- RETRAIN (R315, R331). -/
def execRetrain (p : Nat) (s : State) : Res :=
  onPort p (.next (if s.blocksShut then s.turnAway "RETRAIN" else (s.retrain p).bundlesDown))

/-- ENABLE_PORT (R331). -/
def execEnablePort (p : Nat) (en : Bool) (s : State) : Res :=
  onPort p (.next (if s.blocksShut then s.turnAway "ENABLE_PORT" else (s.enablePort p en).bundlesDown))

/-- NAK_RECEIVE (R317): the flits before the one named are acknowledged, the rest is replayed. -/
def execNakReceive (p lseq : Nat) (s : State) : Res :=
  onPort p (.next (
    if s.carries p then
      let s1 := s.hopAck p ((lseq + 4095) % 4096)
      if (s1.port p).replay.isEmpty then s1 else (s1.replayFrom p lseq).bundlesDown
    else s))

/-- REPLAY_TIMEOUT (R317): the oldest unacknowledged flit was sent 8 µs ago. -/
def execReplayTimeout (p : Nat) (s : State) : Res :=
  onPort p (.next (
    if s.portState p = 3 ∨ s.portState p = 4 then
      match (s.port p).replay with
      | e :: _ => if e.2.1 + 8000 ≤ s.now then (s.replayFrom p e.1).bundlesDown else s
      | [] => s
    else s))

/-- ROUTE (R319, R331): a write of a routing entry. -/
def execRoute (m primary alt : Nat) (s : State) : Res :=
  if m < 8192 then .next (if s.blocksShut then s.turnAway "ROUTE" else (s.setRoute m primary alt).bundlesDown) else .refused (.noSuchUnit "module")

end Sys2Proof.Machine
end

