-- ==== Sys2Proof/Machine/Dispatch.lean ====
section
/-!
DEFINITION. Every command and its meaning.
-/
namespace Sys2Proof.Machine

def exec (i : Instr) (s : State) : Host.Outcome State Fault Refusal :=
  match i with
  | .writeRegister path addr value => Sys2Proof.Machine.execWriteRegister path addr value s
  | .counterLowRead path addr => Sys2Proof.Machine.execCounterLowRead path addr s
  | .velvetEdgeLoss e => Sys2Proof.Machine.execVelvetEdgeLoss e s
  | .mmac die y x => Sys2Proof.Machine.execMmac die y x s
  | .vadd die y x => Sys2Proof.Machine.execVadd die y x s
  | .vsub die y x => Sys2Proof.Machine.execVsub die y x s
  | .vmul die y x => Sys2Proof.Machine.execVmul die y x s
  | .vfma die y x => Sys2Proof.Machine.execVfma die y x s
  | .vmin die y x => Sys2Proof.Machine.execVmin die y x s
  | .vmax die y x => Sys2Proof.Machine.execVmax die y x s
  | .vcmp die y x => Sys2Proof.Machine.execVcmp die y x s
  | .vsel die y x => Sys2Proof.Machine.execVsel die y x s
  | .vand die y x => Sys2Proof.Machine.execVand die y x s
  | .vor die y x => Sys2Proof.Machine.execVor die y x s
  | .vshl die y x => Sys2Proof.Machine.execVshl die y x s
  | .vshr die y x => Sys2Proof.Machine.execVshr die y x s
  | .vexp2 die y x => Sys2Proof.Machine.execVexp2 die y x s
  | .vrcp die y x => Sys2Proof.Machine.execVrcp die y x s
  | .vrsqrt die y x => Sys2Proof.Machine.execVrsqrt die y x s
  | .vcvt die y x => Sys2Proof.Machine.execVcvt die y x s
  | .vmxpk die y x => Sys2Proof.Machine.execVmxpk die y x s
  | .vmxup die y x => Sys2Proof.Machine.execVmxup die y x s
  | .vshuf die y x => Sys2Proof.Machine.execVshuf die y x s
  | .vred die y x => Sys2Proof.Machine.execVred die y x s
  | .vcomb die y x => Sys2Proof.Machine.execVcomb die y x s
  | .vssend die y x => Sys2Proof.Machine.execVssend die y x s
  | .vmov die y x => Sys2Proof.Machine.execVmov die y x s
  | .paramCommit die y x c => Sys2Proof.Machine.execParamCommit die y x c s
  | .paramAdopt die y x vec => Sys2Proof.Machine.execParamAdopt die y x vec s
  | .tokenForward die qid => Sys2Proof.Machine.execTokenForward die qid s
  | .creditReturn die qid c => Sys2Proof.Machine.execCreditReturn die qid c s
  | .ctxLoad die st img => Sys2Proof.Machine.execCtxLoad die st img s
  | .contextLoadComplete die c ue => Sys2Proof.Machine.execContextLoadComplete die c ue s
  | .resetOnlyLoad die st => Sys2Proof.Machine.execResetOnlyLoad die st s
  | .ctxSelect die st => Sys2Proof.Machine.execCtxSelect die st s
  | .contextSwitchCycle die => Sys2Proof.Machine.execContextSwitchCycle die s
  | .diePowerDown die a3 => Sys2Proof.Machine.execDiePowerDown die a3 s
  | .spillStart die qid c => Sys2Proof.Machine.execSpillStart die qid c s
  | .spillRefill die qid c => Sys2Proof.Machine.execSpillRefill die qid c s
  | .watchdogFreeze die => Sys2Proof.Machine.execWatchdogFreeze die s
  | .freezeMessage die replica => Sys2Proof.Machine.execFreezeMessage die replica s
  | .scan die st => Sys2Proof.Machine.execScan die st s
  | .scanOut die ue => Sys2Proof.Machine.execScanOut die ue s
  | .scanIn die ue => Sys2Proof.Machine.execScanIn die ue s
  | .scanComplete die => Sys2Proof.Machine.execScanComplete die s
  | .agDescriptorIssue die y x a => Sys2Proof.Machine.execAgDescriptorIssue die y x a s
  | .agRead die y x a => Sys2Proof.Machine.execAgRead die y x a s
  | .agWrite die y x a => Sys2Proof.Machine.execAgWrite die y x a s
  | .agFill die y x a => Sys2Proof.Machine.execAgFill die y x a s
  | .scatterAcc die y x a => Sys2Proof.Machine.execScatterAcc die y x a s
  | .scatterPlane die y x a => Sys2Proof.Machine.execScatterPlane die y x a s
  | .descriptorComplete die y x a => Sys2Proof.Machine.execDescriptorComplete die y x a s
  | .agentRead die k a n who => Sys2Proof.Machine.execAgentRead die k a n who s
  | .agentReadResume die k => Sys2Proof.Machine.execAgentReadResume die k s
  | .agentWrite die k a data who => Sys2Proof.Machine.execAgentWrite die k a data who s
  | .wcRead die strip a n who => Sys2Proof.Machine.execWcRead die strip a n who s
  | .wcFillComplete die strip a => Sys2Proof.Machine.execWcFillComplete die strip a s
  | .flush die => Sys2Proof.Machine.execFlush die s
  | .nop die st => Sys2Proof.Machine.execNop die st s
  | .paramUpdate die st => Sys2Proof.Machine.execParamUpdate die st s
  | .writeWord die st => Sys2Proof.Machine.execWriteWord die st s
  | .dma die st => Sys2Proof.Machine.execDma die st s
  | .dmaComplete die st idx => Sys2Proof.Machine.execDmaComplete die st idx s
  | .prefetch die st => Sys2Proof.Machine.execPrefetch die st s
  | .prefetchComplete die st idx => Sys2Proof.Machine.execPrefetchComplete die st idx s
  | .pfRelease die st => Sys2Proof.Machine.execPfRelease die st s
  | .lookaheadIssue die st => Sys2Proof.Machine.execLookaheadIssue die st s
  | .dispatch die st => Sys2Proof.Machine.execDispatch die st s
  | .group die st => Sys2Proof.Machine.execGroup die st s
  | .groupAssign die c => Sys2Proof.Machine.execGroupAssign die c s
  | .groupComplete die qid => Sys2Proof.Machine.execGroupComplete die qid s
  | .dispatchComplete die c => Sys2Proof.Machine.execDispatchComplete die c s
  | .fence die st => Sys2Proof.Machine.execFence die st s
  | .fenceWaitMet die st => Sys2Proof.Machine.execFenceWaitMet die st s
  | .fenceSignal src die => Sys2Proof.Machine.execFenceSignal src die s
  | .summaryWait die st => Sys2Proof.Machine.execSummaryWait die st s
  | .summaryWaitMet die m => Sys2Proof.Machine.execSummaryWaitMet die m s
  | .summaryMessage die qid => Sys2Proof.Machine.execSummaryMessage die qid s
  | .counterRead die st => Sys2Proof.Machine.execCounterRead die st s
  | .step die st => Sys2Proof.Machine.execStep die st s
  | .stepComplete die st results => Sys2Proof.Machine.execStepComplete die st results s
  | .idleStepBoundary die => Sys2Proof.Machine.execIdleStepBoundary die s
  | .stepDeadline die st => Sys2Proof.Machine.execStepDeadline die st s
  | .streamTailAdvance die st p es => Sys2Proof.Machine.execStreamTailAdvance die st p es s
  | .start die st => Sys2Proof.Machine.execStart die st s
  | .stop die st => Sys2Proof.Machine.execStop die st s
  | .abort die st => Sys2Proof.Machine.execAbort die st s
  | .pop die m => Sys2Proof.Machine.execPop die m s
  | .idleNotice die => Sys2Proof.Machine.execIdleNotice die s
  | .lockstepMismatch die pair replica => Sys2Proof.Machine.execLockstepMismatch die pair replica s
  | .sergePairRejoin die pair => Sys2Proof.Machine.execSergePairRejoin die pair s
  | .routerHeader die => Sys2Proof.Machine.execRouterHeader die s
  | .routerSelection die => Sys2Proof.Machine.execRouterSelection die s
  | .routerCapacity die => Sys2Proof.Machine.execRouterCapacity die s
  | .routerLists die => Sys2Proof.Machine.execRouterLists die s
  | .expertList src p body data => Sys2Proof.Machine.execExpertList src p body data s
  | .expertResult src p body dataQ tagQ => Sys2Proof.Machine.execExpertResult src p body dataQ tagQ s
  | .map req => Sys2Proof.Machine.execMap req s
  | .seal req => Sys2Proof.Machine.execSeal req s
  | .sealFinish pn => Sys2Proof.Machine.execSealFinish pn s
  | .free req => Sys2Proof.Machine.execFree req s
  | .freeRelease pn => Sys2Proof.Machine.execFreeRelease pn s
  | .promote req => Sys2Proof.Machine.execPromote req s
  | .promotionComplete part ok => Sys2Proof.Machine.execPromotionComplete part ok s
  | .demote req => Sys2Proof.Machine.execDemote req s
  | .setPlace req => Sys2Proof.Machine.execSetPlace req s
  | .drop req => Sys2Proof.Machine.execDrop req s
  | .placementDemotion => Sys2Proof.Machine.execPlacementDemotion s
  | .bulkToDeepCopy => Sys2Proof.Machine.execBulkToDeepCopy s
  | .accessEpoch => Sys2Proof.Machine.execAccessEpoch s
  | .ddrChannelFail ch => Sys2Proof.Machine.execDdrChannelFail ch s
  | .driveFail d => Sys2Proof.Machine.execDriveFail d s
  | .stackRetire k => Sys2Proof.Machine.execStackRetire k s
  | .deepCatalogueScan => Sys2Proof.Machine.execDeepCatalogueScan s
  | .install p header => Sys2Proof.Machine.execInstall p header s
  | .queryTimeout h => Sys2Proof.Machine.execQueryTimeout h s
  | .taffetaBlockDecode e h idx plane b => Sys2Proof.Machine.execTaffetaBlockDecode e h idx plane b s
  | .stageFramesTimeout h => Sys2Proof.Machine.execStageFramesTimeout h s
  | .confirmTimeout h => Sys2Proof.Machine.execConfirmTimeout h s
  | .installCommit h t => Sys2Proof.Machine.execInstallCommit h t s
  | .switchIn p => Sys2Proof.Machine.execSwitchIn p s
  | .switchInLoaded h refused => Sys2Proof.Machine.execSwitchInLoaded h refused s
  | .uninstall p => Sys2Proof.Machine.execUninstall p s
  | .tenantRefill dies => Sys2Proof.Machine.execTenantRefill dies s
  | .level t v => Sys2Proof.Machine.execLevel t v s
  | .stewardTakeover => Sys2Proof.Machine.execStewardTakeover s
  | .drainDeadline k id replica => Sys2Proof.Machine.execDrainDeadline k id replica s
  | .disableComplete k id => Sys2Proof.Machine.execDisableComplete k id s
  | .openSession p => Sys2Proof.Machine.execOpenSession p s
  | .openConfirm p => Sys2Proof.Machine.execOpenConfirm p s
  | .openTimeout idx => Sys2Proof.Machine.execOpenTimeout idx s
  | .attach p => Sys2Proof.Machine.execAttach p s
  | .close p => Sys2Proof.Machine.execClose p s
  | .sessionHoldExpiry idx => Sys2Proof.Machine.execSessionHoldExpiry idx s
  | .heartbeat p => Sys2Proof.Machine.execHeartbeat p s
  | .claim p => Sys2Proof.Machine.execClaim p s
  | .handover p => Sys2Proof.Machine.execHandover p s
  | .release p => Sys2Proof.Machine.execRelease p s
  | .setLease p => Sys2Proof.Machine.execSetLease p s
  | .leaseWarn => Sys2Proof.Machine.execLeaseWarn s
  | .leaseExpiry => Sys2Proof.Machine.execLeaseExpiry s
  | .sealConfig p => Sys2Proof.Machine.execSealConfig p s
  | .setTenantWindow p => Sys2Proof.Machine.execSetTenantWindow p s
  | .setMemWindow p => Sys2Proof.Machine.execSetMemWindow p s
  | .setCtxOwner p => Sys2Proof.Machine.execSetCtxOwner p s
  | .setPkgGroup p => Sys2Proof.Machine.execSetPkgGroup p s
  | .protectionApplied => Sys2Proof.Machine.execProtectionApplied s
  | .stageMap p => Sys2Proof.Machine.execStageMap p s
  | .stageSeal p => Sys2Proof.Machine.execStageSeal p s
  | .adoptDrive p => Sys2Proof.Machine.execAdoptDrive p s
  | .submit p => Sys2Proof.Machine.execSubmit p s
  | .inputFetchComplete slot data => Sys2Proof.Machine.execInputFetchComplete slot data s
  | .cancel p => Sys2Proof.Machine.execCancel p s
  | .prefixRelease p => Sys2Proof.Machine.execPrefixRelease p s
  | .regDelivery p count => Sys2Proof.Machine.execRegDelivery p count s
  | .finalRead p => Sys2Proof.Machine.execFinalRead p s
  | .disable p => Sys2Proof.Machine.execDisable p s
  | .enable p => Sys2Proof.Machine.execEnable p s
  | .regRead p => Sys2Proof.Machine.execRegRead p s
  | .regWrite p => Sys2Proof.Machine.execRegWrite p s
  | .attest p => Sys2Proof.Machine.execAttest p s
  | .eventCfg p => Sys2Proof.Machine.execEventCfg p s
  | .malformedPacket magic version op p => Sys2Proof.Machine.execMalformedPacket magic version op p s
  | .unknownOp op p => Sys2Proof.Machine.execUnknownOp op p s
  | .seqgapTimeout idx seq => Sys2Proof.Machine.execSeqgapTimeout idx seq s
  | .cmConnect q port => Sys2Proof.Machine.execCmConnect q port s
  | .qpError q => Sys2Proof.Machine.execQpError q s
  | .hostRdmaAccess q rkey addr n data => Sys2Proof.Machine.execHostRdmaAccess q rkey addr n data s
  | .tokenDelivery idx ring => Sys2Proof.Machine.execTokenDelivery idx ring s
  | .consumerCountRead idx ring count => Sys2Proof.Machine.execConsumerCountRead idx ring count s
  | .finalEvent origin slot => Sys2Proof.Machine.execFinalEvent origin slot s
  | .finalRecordExpiry => Sys2Proof.Machine.execFinalRecordExpiry s
  | .errorEventWindow power idx cls => Sys2Proof.Machine.execErrorEventWindow power idx cls s
  | .pfcPause p prio on => Sys2Proof.Machine.execPfcPause p prio on s
  | .pfcStorm p => Sys2Proof.Machine.execPfcStorm p s
  | .cnpReceive q => Sys2Proof.Machine.execCnpReceive q s
  | .rateRecovery q => Sys2Proof.Machine.execRateRecovery q s
  | .i3cWrite addr value => Sys2Proof.Machine.execI3cWrite addr value s
  | .linkTraining p q => Sys2Proof.Machine.execLinkTraining p q s
  | .trainingTimeout p => Sys2Proof.Machine.execTrainingTimeout p s
  | .lossOfSignal p => Sys2Proof.Machine.execLossOfSignal p s
  | .retrain p => Sys2Proof.Machine.execRetrain p s
  | .enablePort p en => Sys2Proof.Machine.execEnablePort p en s
  | .nakReceive p lseq => Sys2Proof.Machine.execNakReceive p lseq s
  | .replayTimeout p => Sys2Proof.Machine.execReplayTimeout p s
  | .creditReceive p vc n lack => Sys2Proof.Machine.execCreditReceive p vc n lack s
  | .dataFlitReceive p raw => Sys2Proof.Machine.execDataFlitReceive p raw s
  | .e2eAckTimer src vc flow => Sys2Proof.Machine.execE2eAckTimer src vc flow s
  | .reorderTimeout src vc flow => Sys2Proof.Machine.execReorderTimeout src vc flow s
  | .e2eReceive dst vc flow ack missing => Sys2Proof.Machine.execE2eReceive dst vc flow ack missing s
  | .e2eDead m able => Sys2Proof.Machine.execE2eDead m able s
  | .probe m inbound reset time => Sys2Proof.Machine.execProbe m inbound reset time s
  | .probeReply m => Sys2Proof.Machine.execProbeReply m s
  | .norouteTimeout dst => Sys2Proof.Machine.execNorouteTimeout dst s
  | .route m primary alt => Sys2Proof.Machine.execRoute m primary alt s
  | .pageQuery src ref digest first count => Sys2Proof.Machine.execPageQuery src ref digest first count s
  | .pageAnswer src h digest first held => Sys2Proof.Machine.execPageAnswer src h digest first held s
  | .pageFetch src ref digest first count => Sys2Proof.Machine.execPageFetch src ref digest first count s
  | .pageData src h q check data => Sys2Proof.Machine.execPageData src h q check data s
  | .pageRefuse src h q => Sys2Proof.Machine.execPageRefuse src h q s
  | .confirmReq src ref digest => Sys2Proof.Machine.execConfirmReq src ref digest s
  | .confirm src h tray digest st allPages => Sys2Proof.Machine.execConfirm src h tray digest st allPages s
  | .malformedMsg src ty => Sys2Proof.Machine.execMalformedMsg src ty s
  | .velvetReplay e j n => Sys2Proof.Machine.execVelvetReplay e j n s
  | .ucieRetrain e j ok => Sys2Proof.Machine.execUcieRetrain e j ok s
  | .jrnlRecords src recs => Sys2Proof.Machine.execJrnlRecords src recs s
  | .jrnlAck src jsn free fleet => Sys2Proof.Machine.execJrnlAck src jsn free fleet s
  | .jrnlHeartbeat src => Sys2Proof.Machine.execJrnlHeartbeat src s
  | .journalBatch => Sys2Proof.Machine.execJournalBatch s
  | .journalHbTimer => Sys2Proof.Machine.execJournalHbTimer s
  | .partnerTimeout able => Sys2Proof.Machine.execPartnerTimeout able s
  | .faultNotice src able => Sys2Proof.Machine.execFaultNotice src able s
  | .pairReq src old jsn => Sys2Proof.Machine.execPairReq src old jsn s
  | .pairRetry => Sys2Proof.Machine.execPairRetry s
  | .pairGrant src granted size fleet => Sys2Proof.Machine.execPairGrant src granted size fleet s
  | .fenceOut src home => Sys2Proof.Machine.execFenceOut src home s
  | .resyncData src recs open' => Sys2Proof.Machine.execResyncData src recs open' s
  | .takeoverAssign src o oslot prio => Sys2Proof.Machine.execTakeoverAssign src o oslot prio s
  | .takeoverState src t => Sys2Proof.Machine.execTakeoverState src t s
  | .takeoverToken src o oslot index tok last => Sys2Proof.Machine.execTakeoverToken src o oslot index tok last s
  | .takeoverAck src o oslot index => Sys2Proof.Machine.execTakeoverAck src o oslot index s
  | .takeoverCtrl src o oslot action rec' able => Sys2Proof.Machine.execTakeoverCtrl src o oslot action rec' able s
  | .spareCall src failed tray => Sys2Proof.Machine.execSpareCall src failed tray s
  | .shardUpdate src m h0 h1 h2 count inSvc able => Sys2Proof.Machine.execShardUpdate src m h0 h1 h2 count inSvc able s
  | .rejoinExpiry => Sys2Proof.Machine.execRejoinExpiry s
  | .columnRepair die y x => Sys2Proof.Machine.execColumnRepair die y x s
  | .faultMessage cls kind source die slot addr step detail replica => Sys2Proof.Machine.execFaultMessage cls kind source die slot addr step detail replica s
  | .knownAnswerTest die kind source ok first last => Sys2Proof.Machine.execKnownAnswerTest die kind source ok first last s
  | .patrolScrub mem out kind source die addr => Sys2Proof.Machine.execPatrolScrub mem out kind source die addr s
  | .autoRetire r => Sys2Proof.Machine.execAutoRetire r s
  | .errRd path ring seq => Sys2Proof.Machine.execErrRd path ring seq s
  | .errOvfValid path ring half bits => Sys2Proof.Machine.execErrOvfValid path ring half bits s
  | .timingPrep path dies => Sys2Proof.Machine.execTimingPrep path dies s
  | .drain path => Sys2Proof.Machine.execDrain path s
  | .park path => Sys2Proof.Machine.execPark path s
  | .ready path => Sys2Proof.Machine.execReady path s
  | .keepalive path => Sys2Proof.Machine.execKeepalive path s
  | .capW path watts => Sys2Proof.Machine.execCapW path watts s
  | .powerControlTick w volts amps inlet outlet railsOff => Sys2Proof.Machine.execPowerControlTick w volts amps inlet outlet railsOff s
  | .voltageSlewComplete d => Sys2Proof.Machine.execVoltageSlewComplete d s
  | .capdropN low => Sys2Proof.Machine.execCapdropN low s
  | .pfwN => Sys2Proof.Machine.execPfwN s
  | .undervolt => Sys2Proof.Machine.execUndervolt s
  | .overvolt => Sys2Proof.Machine.execOvervolt s
  | .overvoltClear path => Sys2Proof.Machine.execOvervoltClear path s
  | .safeCap => Sys2Proof.Machine.execSafeCap s
  | .throttle d tj => Sys2Proof.Machine.execThrottle d tj s
  | .thermDrain d tj => Sys2Proof.Machine.execThermDrain d tj s
  | .thermTrip d tj => Sys2Proof.Machine.execThermTrip d tj s
  | .sensorFail d k tj => Sys2Proof.Machine.execSensorFail d k tj s
  | .regulatorFault d => Sys2Proof.Machine.execRegulatorFault d s
  | .refclkFail => Sys2Proof.Machine.execRefclkFail s
  | .a1Entry die => Sys2Proof.Machine.execA1Entry die s
  | .a1Wake die held cycles => Sys2Proof.Machine.execA1Wake die held cycles s
  | .ageing unit days low90 => Sys2Proof.Machine.execAgeing unit days low90 s
  | .powerApplied => Sys2Proof.Machine.execPowerApplied s
  | .softStartEnd => Sys2Proof.Machine.execSoftStartEnd s
  | .powerLoss => Sys2Proof.Machine.execPowerLoss s
  | .startupPhaseComplete disagree misread found => Sys2Proof.Machine.execStartupPhaseComplete disagree misread found s
  | .bootLimit => Sys2Proof.Machine.execBootLimit s
  | .recovery got whole disagree => Sys2Proof.Machine.execRecovery got whole disagree s
  | .recoveryRetry => Sys2Proof.Machine.execRecoveryRetry s
  | .key path value => Sys2Proof.Machine.execKey path value s
  | .modRstN => Sys2Proof.Machine.execModRstN s
  | .stageStart path kind => Sys2Proof.Machine.execStageStart path kind s
  | .stageFetchComplete got => Sys2Proof.Machine.execStageFetchComplete got s
  | .stageFetchTimeout => Sys2Proof.Machine.execStageFetchTimeout s
  | .commit path kind => Sys2Proof.Machine.execCommit path kind s
  | .commitComplete back => Sys2Proof.Machine.execCommitComplete back s
  | .stageAbort path kind => Sys2Proof.Machine.execStageAbort path kind s
  | .lcRequest path target => Sys2Proof.Machine.execLcRequest path target s
  | .lcConfirm path value => Sys2Proof.Machine.execLcConfirm path value s
  | .lcArmExpiry => Sys2Proof.Machine.execLcArmExpiry s
  | .tapInstruction op => Sys2Proof.Machine.execTapInstruction op s
  | .tapLifecycleTransition target key cert => Sys2Proof.Machine.execTapLifecycleTransition target key cert s
  | .pclStart path full point => Sys2Proof.Machine.execPclStart path full point s
  | .pclConfirm path value => Sys2Proof.Machine.execPclConfirm path value s
  | .pclArmExpiry => Sys2Proof.Machine.execPclArmExpiry s
  | .pclAbort path => Sys2Proof.Machine.execPclAbort path s
  | .pclItemComplete faults => Sys2Proof.Machine.execPclItemComplete faults s
  | .pclItemTimeout found => Sys2Proof.Machine.execPclItemTimeout found s
  | .pclLimitAbort why => Sys2Proof.Machine.execPclLimitAbort why s
  | .modRstNRelease => Sys2Proof.Machine.execModRstNRelease s
  | .pfwNRelease => Sys2Proof.Machine.execPfwNRelease s
  | .refclkRestored => Sys2Proof.Machine.execRefclkRestored s
  | .dieWake die => Sys2Proof.Machine.execDieWake die s
  | .pageTransferComplete part ok => Sys2Proof.Machine.execPageTransferComplete part ok s
  | .laneFailure p => Sys2Proof.Machine.execLaneFailure p s
  | .hostPortLinkChange p up rate => Sys2Proof.Machine.execHostPortLinkChange p up rate s
  | .journalHoldRecord => Sys2Proof.Machine.execJournalHoldRecord s
  | .refusedBatchAck => Sys2Proof.Machine.execRefusedBatchAck s

end Sys2Proof.Machine
end

