-- ==== Sys2Proof/Safety.lean ====
section
/-!
DEFINITION. What counts as a safe step, and the invariants that claims use.
-/
namespace Sys2Proof.Machine

/-- A step is safe when it answers a next state: the module neither stops nor meets a command that it cannot have. -/
def State.safeStep (s : State) : Prop := ∃ t, step s = .next t

/-- R6, R33: the identity that fuses and site constants give the module: grade, stepping and serial number. -/
structure Identity where
  grade : Grade
  stepping : Nat
  serial : Nat
  deriving DecidableEq, Repr
def State.identity (s : State) : Identity := { grade := s.fuses.grade, stepping := s.fuses.stepping, serial := s.fuses.serial }

/-- Every byte memory is in its canonical form: the memory tiles' SRAM (R109), the mapped pages (R190) and firmware's system span
(R191). -/
def State.memoriesOk (s : State) : Prop :=
  Memory.wf s.arr.sram = true ∧ Memory.wf s.mas.mem = true ∧ Memory.wf s.mas.sys = true

/-- The fuse fields of two and of four bits hold numbers of that width. -/
def Fuses.inRange (f : Fuses) : Prop := f.retiredPair < 4 ∧ f.seeds < 16

/-- The command `c` completes in `s`: exec answers a next state, of which `P` holds. -/
def Completes (c : Sys2Proof.Instr) (s : State) (P : State → Prop) : Prop := ∃ t, exec c s = .next t ∧ P t

/-- The addresses of a field's words. -/
def Fld.words (f : Fld) (i : Nat := 0) (w : Win := .glob) : List Nat :=
  (List.range f.wordCount).map (fun k => f.reg.addr i w (f.firstWord + k))
/-- Every register word holds in `t` what it holds in `s`, but for those at the addresses listed. -/
def State.regsBut (s t : State) (as : List Nat) : Prop := ∀ r i w k, Reg.addr r i w k ∉ as → t.word r i w k = s.word r i w k

/-- R275, R277: packet `p` arrives well formed, in a receive entry that is free, on a queue pair of a host port bound as `b` says; the
module is powered and no lease runs out. -/
def State.arrives (s : State) (p : Pkt) (b : Option Nat) : Prop :=
  s.dark = false ∧ s.boot.failAt = none ∧ (∀ u, s.host.lease = some u → s.now < u) ∧ p.ce = false ∧ p.qp ≠ mgmtQp ∧
  (∃ k, s.qp p.qp = some k ∧ k.error = false ∧ k.used < 256 ∧ k.bound = b) ∧ p.body.length ≤ 8128 ∧ wellMade p = true
/-- R277, R282, R283: it arrives in session `i`, whose state is `v`, as its next command, with OPCODE `op` and under its key; nothing is
held in the session, which does not close, and the reply journal does not hold the sequence number. -/
def State.inTurn (s : State) (i : Nat) (v : Session) (op : Nat) (p : Pkt) : Prop :=
  s.arrives p (some i) ∧ i < 256 ∧ s.session i = some v ∧ p.session = sessionField i v.gen ∧ goodTag v.keyHm op p = true ∧
  p.seq = v.next ∧ v.held = [] ∧ v.closing = 0 ∧ findRep v p.seq = none ∧ headerBad p = false
/-- R280, R285: it is in turn in the owner's session, and acts for no tenant. -/
def State.ownerTurn (s : State) (i : Nat) (v : Session) (op : Nat) (p : Pkt) : Prop :=
  s.inTurn i v op p ∧ s.ownerIndex = some i ∧ actBit p = false
/-- R285: it is in turn, and acts for a tenant that the session may act for. -/
def State.tenantTurn (s : State) (i : Nat) (v : Session) (op : Nat) (p : Pkt) : Prop :=
  s.inTurn i v op p ∧ actBit p = true ∧ s.mayAct v p.tenant = true
/-- R283: the state in which a serialised command acts: its receive entry is taken and its sequence number consumed. -/
def State.serial (s : State) (i op : Nat) (p : Pkt) : State := (s.occupy p.qp).takeSeq i op p []
/-- R277, R341: the journal of `t` holds a reply to packet `p`: status, detail and body. -/
def State.answered (t : State) (i op : Nat) (p : Pkt) (status detail : Nat) (body : List Byte) : Prop :=
  ∃ r ∈ t.jr.queue, r.pay = .reply p.qp (i + 1) p.session p.seq p.tag op status detail body
/-- A turned-away command of session `i` leaves everything as it was but for its sequence number, its receive entry and its reply. -/
def State.onlyAnswers (s t : State) (i op : Nat) (p : Pkt) : Prop :=
  s.regsBut t F.JOURNAL_JSN_VALUE.words ∧ t = { s.serial i op p with regs := t.regs, jr := t.jr, out := t.out }

/-- R63: vector register `r` of a compute tile's context. -/
def State.vreg (s : State) (die y x c r : Nat) : Tok := SMap.getD (s.tile die y x c).vregs r 0
/-- R58: the seven sticky flags of a context of a compute tile. -/
def allFlags : Fld := { F.TILE_NUM_FLAGS_NV with w := 7 }
/-- R67, R68: at compute tile (y, x) the vector sequencer of the active context `c` stands in word `w`, which it has started. -/
def State.inVecWord (s : State) (die y x c w : Nat) : Prop :=
  die < 4 ∧ y < 24 ∧ x < s.cols ∧ isCompute y x = true ∧ s.active die = some c ∧ (s.tile die y x c).vEnd = false ∧
  (s.tile die y x c).vLive = true ∧ ∃ i, s.nextWord die y x c (s.tile die y x c).vWord true = some i ∧ s.prog die y x c i = w
/-- R67, R71: and the same of the matrix sequencer, in a word with operand formats of geometry `g`. -/
def State.inMatWord (s : State) (die y x c w : Nat) (g : Geometry) : Prop :=
  die < 4 ∧ y < 24 ∧ x < s.cols ∧ isCompute y x = true ∧ s.active die = some c ∧ (s.tile die y x c).mEnd = false ∧
  (s.tile die y x c).mLive = true ∧ (∃ i, s.nextWord die y x c (s.tile die y x c).mWord false = some i ∧ s.prog die y x c i = w) ∧
  geometry (opFmt w) (opImm w % 16) = some g
/-- R67: the commands of the vector sequencer whose operations go from operands to one destination, with their opcodes: lane by lane,
and the others. -/
def laneCommands (die y x : Nat) : List (Sys2Proof.Instr × Nat) :=
  [(.vadd die y x, 0x20), (.vsub die y x, 0x21), (.vmul die y x, 0x22), (.vfma die y x, 0x23), (.vmin die y x, 0x24), (.vmax die y x, 0x25),
   (.vcmp die y x, 0x26), (.vsel die y x, 0x27), (.vand die y x, 0x28), (.vor die y x, 0x29), (.vshl die y x, 0x2A), (.vshr die y x, 0x2B),
   (.vexp2 die y x, 0x30), (.vrcp die y x, 0x31), (.vrsqrt die y x, 0x32)]
def tokenCommands (die y x : Nat) : List (Sys2Proof.Instr × Nat) :=
  [(.vcvt die y x, 0x34), (.vmxpk die y x, 0x35), (.vmxup die y x, 0x36), (.vshuf die y x, 0x38), (.vred die y x, 0x39),
   (.vmov die y x, 0x3D)]
/-- R68, R78, R97, R371: from `s` to `t` one iteration of a vector word has issued: it is counted, its fault message goes out unless the
residue check `ok` holds, and nothing changes but the tile's own context, the queues `qs` of the die by key, the numeric flags, the two
counts and how long the die has idled. -/
def State.vecIterated (s t : State) (die y x c : Nat) (qs : List Nat) (ok : Bool := true) : Prop :=
  t.rd F.TILE_VBUSY_COUNT c (.tile die y x) = (s.rd F.TILE_VBUSY_COUNT c (.tile die y x) + 1) % 2 ^ 32 ∧
  t.rd F.WDOG_COUNT_COUNT c (.die die) = 0 ∧
  (∀ k, k ≠ tileKey die y x c → SMap.find? t.arr.tiles k = SMap.find? s.arr.tiles k) ∧
  (∀ k, k ∉ qs → SMap.find? t.arr.queues k = SMap.find? s.arr.queues k) ∧
  s.regsBut t (allFlags.words c (.tile die y x) ++ F.TILE_VBUSY_COUNT.words c (.tile die y x) ++ F.WDOG_COUNT_COUNT.words c (.die die)) ∧
  t.out = (if ok then s.out else .unitFault 0x0C die y x c :: s.out) ∧
  t = { s with
    arr := { s.arr with tiles := t.arr.tiles, queues := t.arr.queues, idlePosted := t.arr.idlePosted, idleFor := t.arr.idleFor,
                        restFor := t.arr.restFor }
    regs := t.regs
    out := t.out }
/-- R63, R58: and it has written `v` to register `d` and gathered the flags `f`. -/
def State.writesReg (s t : State) (die y x c d : Nat) (v : Tok) (f : Num.Flags) (ok : Bool := true) : Prop :=
  t.vreg die y x c d = v ∧ (∀ r, r ≠ d → t.vreg die y x c r = s.vreg die y x c r) ∧
  t.rd allFlags c (.tile die y x) = s.rd allFlags c (.tile die y x) ||| f.toNat ∧ s.vecIterated t die y x c [] ok

/-- R126, R129: an asker of the arrays stands at a port that takes tokens from this source: the agents, or a strip. -/
def State.takesFrom (s : State) (via : Option Nat) : Asker → Prop
  | .array die qid c => s.portTakes die qid c via = true
  | _ => True
/-- R19: nothing has been announced but accesses forwarded to another die. -/
def State.onlyForwards (s t : State) : Prop := ∀ o ∈ t.out, o ∈ s.out ∨ ∃ d e a, o = .forwarded d e a

/-- R404: the arrays of `t` are those of `s`, but for how long its dies have rested. -/
def State.sameArr (s t : State) : Prop := t.arr = { s.arr with restFor := t.arr.restFor }

/-- R135, R138, R143: stream `st` may issue its head entry: word `n` at ring index `i`, which keeps its opcode's rules. -/
def State.headReady (s : State) (die st i n : Nat) : Prop :=
  die < 4 ∧ st < 64 ∧ s.mayIssue die st = true ∧ i = s.headPtr die st % 1024 ∧ n = s.cmdAt die st i ∧ entryOk n = true
/-- R156: and no grouped dispatch of the stream is open. -/
def State.atHead (s : State) (die st i n : Nat) : Prop := s.headReady die st i n ∧ s.openDispatch die st = none
/-- R137: HEAD has gone on by one entry. -/
def State.headPast (s t : State) (die st : Nat) : Prop := t.headPtr die st = (s.headPtr die st + 1) % 2048
/-- R142: the entry has completed with status `e`: it is notified if it asks for it or did not succeed, and stops its stream unless it
succeeded or carries CONTINUE. -/
def State.entryDone (s t : State) (die st i n : Nat) (e : EntrySt) : Prop :=
  s.headPast t die st ∧ (∀ f ∈ (t.stream die st).flying, f.entry ≠ i) ∧
  (e ≠ .ok ∨ eNotify n = true → .notice die st (eTag n) e ∈ t.out) ∧ (t.strState die st = 4 ↔ e ≠ .ok ∧ eContinue n = false)
/-- R143: the entry has issued and goes on beside the stream. -/
def State.entryFlies (s t : State) (die st i n : Nat) (cls : EClass) : Prop :=
  s.headPast t die st ∧ ∃ f ∈ (t.stream die st).flying, f.entry = i ∧ f.cls = cls ∧ f.word = BitVec.ofNat 512 n ∧ f.slot = eSlot n
/-- R143: the entry has issued and holds the stream. -/
def State.entryHolds (s t : State) (die st i n : Nat) : Prop :=
  t.headPtr die st = s.headPtr die st ∧ (t.stream die st).holder = some i ∧ t.strState die st = 2 ∧
  ∃ f ∈ (t.stream die st).flying, f.entry = i ∧ f.word = BitVec.ofNat 512 n

/-- R142: an entry issued earlier has completed with status `e`. -/
def State.entryOver (s t : State) (die st i n : Nat) (e : EntrySt) : Prop :=
  (∀ f ∈ (t.stream die st).flying, f.entry ≠ i) ∧ (∀ f ∈ (s.stream die st).flying, f.entry ≠ i → f ∈ (t.stream die st).flying) ∧
  (e ≠ .ok ∨ eNotify n = true → .notice die st (eTag n) e ∈ t.out) ∧ (e ≠ .ok → eContinue n = false → t.strState die st = 4)
/-- R141, R143, R145: stream `st` has issued the transfer of entry `i`, with word `n`, and no earlier open one writes where it does;
`len` is its length, `a` and `b` are what its completion needs. -/
def State.transferring (s : State) (die st i n a b len slot : Nat) : Prop :=
  die < 4 ∧ st < 64 ∧ (s.stream die st).holder ≠ some i ∧
  ∃ f, (s.stream die st).flying.find? (fun f => decide (f.cls = .dma) && decide (f.entry = i)) = some f ∧
  dmaBehind f ((s.stream die st).flying.takeWhile (fun g => decide (g.entry ≠ i))) = false ∧
  f.entry = i ∧ f.word.toNat = n ∧ f.a = a ∧ f.b = b ∧ f.len = len ∧ f.slot = slot
/-- A transfer between memory and memory changes of the arrays only what the agents have translated (R125). -/
def State.arrMoved (s t : State) : Prop := t.arr = { s.arr with trans := t.arr.trans, restFor := t.arr.restFor }

/-- Registers whose writes act, or are held to a rule of their own (R478). -/
def actingRegs : List Reg :=
  [.TILE_PARAM, .TILE_PARAM_CTRL, .WC_CFG, .STREAM_CTRL, .STREAM_TAIL, .MBOX_STATUS, .POOL_WATER, .MIG_RING, .MIG_CPL, .SCHED_CHUNK,
   .TENANT_BUDGET, .HOST_PORT_CFG, .LINK_PLAN, .GROUP_CFG, .LINK_PORT_CFG, .ROUTE, .JOURNAL_PARTNER, .TAKEOVER_SET, .JOURNAL_TIMING, .ERR_RD,
   .ERR_OVF_VALID, .TIMING_PREP, .PWR_CTRL, .PWR_CAP, .PWR_CAP_CFG, .PWR_STATUS, .PIN_STATUS, .BOOT_CFG, .COLD_RESET, .LC_REQUEST, .LC_CONFIRM,
   .STAGE_CTRL, .PCL_CTRL, .PCL_CONFIRM]
/-- R28 to R32, R478: a write of `v` to address `a` over `path` reaches word `k` of a register, and no rule refuses it. -/
def State.writes (s : State) (path : Path) (a v : Nat) (r : Reg) (i : Nat) (w : Win) (k : Nat) : Prop :=
  s.dark = false ∧ s.locate a = some (r, i, w, k) ∧ s.mayWrite path a r = true ∧ s.blockOpen path a = true ∧ s.dieCloses a = none ∧
  s.wakeFor a = s ∧ s.writeRefused r i w k (v % 2 ^ 32) = false
/-- R213: the migration ring holds a request, and `r` keeps the layout of operation `op`. -/
def State.ringHas (s : State) (op r : Nat) : Prop := s.rd F.MIG_HEAD_INDEX ≠ s.rd F.MIG_TAIL_INDEX ∧ mqValid op r = true
/-- R213: from `s` to `t` one completion record has gone into the completion ring. -/
def State.migRecord (s t : State) (tag status done : Nat) : Prop :=
  t.rd F.MIG_CPL_TAIL_INDEX = (s.rd F.MIG_CPL_TAIL_INDEX + 1) % 2 ^ F.MIG_CPL_TAIL_INDEX.w ∧
  ∀ k < 16, SMap.getD t.mas.sys (s.rd F.MIG_CPL_VALUE + 16 * (s.rd F.MIG_CPL_TAIL_INDEX % 2 ^ s.rd F.MIG_SIZE_LOG2) + k) 0 =
    (toBytes (tag + 2 ^ 32 * status + 2 ^ 64 * done) 16).getD k 0

/-- R213: request `q` has been taken off the ring and, still open, waits for pages `pns` of its range. -/
def State.requestWaits (s t : State) (r : Nat) (pns : List Nat) : Prop :=
  t.rd F.MIG_HEAD_INDEX = (s.rd F.MIG_HEAD_INDEX + 1) % 2 ^ F.MIG_HEAD_INDEX.w ∧
  ∃ q, t.mas.reqs = [q] ∧ q.word = r ∧ q.waiting = pns ∧ q.begun = mqCount r
/-- R208: no promotion waits for a frame. -/
def State.noneWaits (s : State) : Prop := ∀ j ∈ s.mas.jobs, j.kind = .promote → j.placed = true
/-- Part of the image bytes [a, a + n) stands on another page than `q`, one that has not arrived. -/
def lacksPage (j : Inst) (q a n : Nat) : Prop := ∃ c ∈ pagesIn a n, c ≠ q ∧ ∀ g ∈ j.got, g.1 ≠ c
/-- R207: engine `e` runs the migration `j` of page `pn`, of kind `k`, and its part is the last. -/
def State.lastPart (s : State) (e pn : Nat) (j : MigJob) (k : MigKind) : Prop :=
  e < 2 ∧ SMap.find? s.mas.work e = some pn ∧ s.jobOf pn = some j ∧ j.kind = k ∧ j.left = [e] ∧ j.next = none ∧ s.noneWaits

/-- A count has grown by `n`, wrapping at its width. -/
def State.adds (s t : State) (f : Fld) (n : Nat) (i : Nat := 0) (w : Win := .glob) : Prop := t.rd f i w = (s.rd f i w + n) % 2 ^ f.w
/-- R319, R322: messages to module `m` may go out: it is another module and not declared unreachable. -/
def State.reaches (s : State) (m : Nat) : Prop := m ≠ s.ownId ∧ s.unreachable m = false
/-- R233, R235: the one install of the module is `j`, of package `p` under handle `h`. -/
def State.installing (s : State) (h : Nat) (j : Inst) (p : Pkg) : Prop := s.wts.jobs = [j] ∧ j.handle = h ∧ s.pkg h = some p
/-- R240: it has failed: the package is as before it began, and every command it served completes with `status`. -/
def State.installFailed (t : State) (h : Nat) (j : Inst) (status detail : Nat) : Prop :=
  t.inst h = none ∧ t.pkg h = j.old.map (fun o => { o with switching := none }) ∧
  ∀ u ∈ j.users, ∃ r ∈ t.jr.queue, ∃ op, r.pay = .status u.1 u.2 (toBytes u.2 8 ++ toBytes op 2 ++ toBytes status 2 ++ toBytes detail 4)
/-- R312: a port carries traffic: UP or DEGRADED. -/
def State.portUp (s : State) (p : Nat) : Prop := p < 32 ∧ (s.portState p = 3 ∨ s.portState p = 4)
/-- R315, R324: a fault of port `p` with `cause`: RETRAIN, or FAILED on the fourth within 10 s; its flits are taken off it and counted. -/
def State.portFaulted (s t : State) (p cause : Nat) : Prop :=
  t.portState p = (if ((s.port p).faults.filter (fun a => decide (s.now < a + 10000000000))).length < 3 then 5 else 6) ∧
  t.rd F.LINK_PORT_STATUS_CAUSE p = cause ∧ t.portWidth p = 0 ∧ (t.port p).replay = [] ∧ (t.port p).queue = [] ∧
  s.adds t F.LINK_MOD_CNT_COUNT ((s.port p).replay.length + (s.port p).queue.length) 0
/-- R346: the partner `p` is lost: the module holds, counts it, takes it out of service and asks its first alternate. -/
def State.partnerLost (s t : State) (p : Nat) : Prop :=
  t.jState = 4 ∧ t.jr.partner = none ∧ t.jr.failed = some p ∧ t.flag F.HOLDER_ALT_OUT p = true ∧
  s.adds t F.FAILOVER_CNT_COUNT 1 3 ∧ s.adds t F.ERR_COUNT_COUNT 1 (64 * 4 + 0x19) ∧
  ∀ a, s.alternates[0]? = some a → s.reaches a →
    .message a 0x23 0 (toBytes p 2 ++ toBytes (s.rd F.JOURNAL_JSN_VALUE) 8) [] ∈ t.out
/-- R81: a destination of a forwarded token has room. -/
def State.hasRoom (s : State) (die c : Nat) : Dest → Bool
  | .queue r => decide (0 < s.roomAt die r c)
  | .off _ => true
/-- R79, R93: the tokens that a destination holds: those of its partition, and those of its extension. -/
def State.heldAt (s : State) (die c : Nat) : Dest → List Tok × List Tok
  | .queue r => ((s.queue die r c).toks, (s.queue die r c).ext)
  | .off r => (SMap.getD s.arr.drain (queueKey die r c) [], [])
/-- R93: what a destination holds once a token has entered it: the extension's tail while the queue is spilling, else the partition's. -/
def State.heldWith (s : State) (die c : Nat) (tok : Tok) : Dest → List Tok × List Tok
  | .queue r => if qToExt (s.queue die r c) then ((s.queue die r c).toks, (s.queue die r c).ext ++ [tok])
    else ((s.queue die r c).toks ++ [tok], (s.queue die r c).ext)
  | .off r => (SMap.getD s.arr.drain (queueKey die r c) [] ++ [tok], [])

end Sys2Proof.Machine
end

