-- ==== Sys2Proof/WellFormed.lean ====
section
/-!
DEFINITION. Well-formed commands: every number names a unit that the larger grade has, or fits the field that carries it (R6, R19,
R21, R85, R162, R190, R276, R305).
-/
namespace Sys2Proof

def okDie (n : Nat) : Bool := decide (n < 4)
/-- R21: rows and logical columns of the larger grade. -/
def okSite (y x : Nat) : Bool := decide (y < 24) && decide (x < 24)
def okStream (n : Nat) : Bool := decide (n < 64)
def okSlot (n : Nat) : Bool := decide (n < 4)
def okAg (n : Nat) : Bool := decide (n < 4)
def okMas (n : Nat) : Bool := decide (n < 2 ^ 52)
def okPage (n : Nat) : Bool := decide (n < 2 ^ 31)
def okModule (n : Nat) : Bool := decide (n < 8192)
def okMbox (n : Nat) : Bool := decide (n < 256)
def okHostPort (n : Nat) : Bool := decide (n < 4)
def okLinkPort (n : Nat) : Bool := decide (n < 32)
def okPointer (n : Nat) : Bool := decide (n < 2048)
def okQp (n : Nat) : Bool := decide (n < 4096)
def okHandle (n : Nat) : Bool := decide (n < 65536)
def okReqSlot (n : Nat) : Bool := decide (n < 65536)
def okQid (n : Nat) : Bool := decide (n < 65536)
def okWord (n : Nat) : Bool := decide (n < 2 ^ 32)
def okStrip (n : Nat) : Bool := decide (n < 2)
def okVc (n : Nat) : Bool := decide (n < 4)
def okTenant (n : Nat) : Bool := decide (n < 4096)
def okRing (n : Nat) : Bool := decide (n < 64)
def okSession (n : Nat) : Bool := decide (n ≤ 256)
def okOpt (o : Option Nat) : Bool := match o with
  | some n => okModule n
  | none => true
def okPath (p : Path) : Bool := match p with
  | .session i => okSession i
  | _ => true
/-- R276: the fields of a packet fit. -/
def okPkt (p : Pkt) : Bool :=
  decide (p.qp ≤ 4096) && decide (p.flags < 256) && decide (p.session < 65536) && decide (p.tenant < 65536) &&
  decide (p.len < 2 ^ 32) && decide (p.seq < 2 ^ 64) && decide (p.status < 65536) && decide (p.credits < 65536) &&
  decide (p.detail < 2 ^ 32) && decide (p.resv < 2 ^ 128)

/-- Whether a command is well formed. -/
def Instr.wellFormed (i : Instr) : Bool :=
  match i with
  | .writeRegister path addr value => okPath path && okWord addr && okWord value
  | .counterLowRead path addr => okPath path && okWord addr
  | .velvetEdgeLoss _ => true
  | .mmac die y x => okDie die && okSite y x
  | .vadd die y x => okDie die && okSite y x
  | .vsub die y x => okDie die && okSite y x
  | .vmul die y x => okDie die && okSite y x
  | .vfma die y x => okDie die && okSite y x
  | .vmin die y x => okDie die && okSite y x
  | .vmax die y x => okDie die && okSite y x
  | .vcmp die y x => okDie die && okSite y x
  | .vsel die y x => okDie die && okSite y x
  | .vand die y x => okDie die && okSite y x
  | .vor die y x => okDie die && okSite y x
  | .vshl die y x => okDie die && okSite y x
  | .vshr die y x => okDie die && okSite y x
  | .vexp2 die y x => okDie die && okSite y x
  | .vrcp die y x => okDie die && okSite y x
  | .vrsqrt die y x => okDie die && okSite y x
  | .vcvt die y x => okDie die && okSite y x
  | .vmxpk die y x => okDie die && okSite y x
  | .vmxup die y x => okDie die && okSite y x
  | .vshuf die y x => okDie die && okSite y x
  | .vred die y x => okDie die && okSite y x
  | .vcomb die y x => okDie die && okSite y x
  | .vssend die y x => okDie die && okSite y x
  | .vmov die y x => okDie die && okSite y x
  | .paramCommit die y x c => okDie die && okSite y x && okSlot c
  | .paramAdopt die y x _ => okDie die && okSite y x
  | .tokenForward die qid => okDie die && okQid qid
  | .creditReturn die qid c => okDie die && okQid qid && okSlot c
  | .ctxLoad die st _ => okDie die && okStream st
  | .contextLoadComplete die c _ => okDie die && okSlot c
  | .resetOnlyLoad die st => okDie die && okStream st
  | .ctxSelect die st => okDie die && okStream st
  | .contextSwitchCycle die => okDie die
  | .diePowerDown die _ => okDie die
  | .spillStart die qid c => okDie die && okQid qid && okSlot c
  | .spillRefill die qid c => okDie die && okQid qid && okSlot c
  | .watchdogFreeze die => okDie die
  | .freezeMessage die replica => okDie die && okOpt replica
  | .scan die st => okDie die && okStream st
  | .scanOut die _ => okDie die
  | .scanIn die _ => okDie die
  | .scanComplete die => okDie die
  | .agDescriptorIssue die y x a => okDie die && okSite y x && okAg a
  | .agRead die y x a => okDie die && okSite y x && okAg a
  | .agWrite die y x a => okDie die && okSite y x && okAg a
  | .agFill die y x a => okDie die && okSite y x && okAg a
  | .scatterAcc die y x a => okDie die && okSite y x && okAg a
  | .scatterPlane die y x a => okDie die && okSite y x && okAg a
  | .descriptorComplete die y x a => okDie die && okSite y x && okAg a
  | .agentRead die _ a _ _ => okDie die && okMas a
  | .agentReadResume die _ => okDie die
  | .agentWrite die _ a _ _ => okDie die && okMas a
  | .wcRead die strip a _ _ => okDie die && okStrip strip && okMas a
  | .wcFillComplete die strip a => okDie die && okStrip strip && okMas a
  | .flush die => okDie die
  | .nop die st => okDie die && okStream st
  | .paramUpdate die st => okDie die && okStream st
  | .writeWord die st => okDie die && okStream st
  | .dma die st => okDie die && okStream st
  | .dmaComplete die st _ => okDie die && okStream st
  | .prefetch die st => okDie die && okStream st
  | .prefetchComplete die st _ => okDie die && okStream st
  | .pfRelease die st => okDie die && okStream st
  | .lookaheadIssue die st => okDie die && okStream st
  | .dispatch die st => okDie die && okStream st
  | .group die st => okDie die && okStream st
  | .groupAssign die c => okDie die && okSlot c
  | .groupComplete die qid => okDie die && okQid qid
  | .dispatchComplete die c => okDie die && okSlot c
  | .fence die st => okDie die && okStream st
  | .fenceWaitMet die st => okDie die && okStream st
  | .fenceSignal src die => okDie src && okDie die && decide (src ≠ die)
  | .summaryWait die st => okDie die && okStream st
  | .summaryWaitMet die m => okDie die && okMbox m
  | .summaryMessage die qid => okDie die && okQid qid
  | .counterRead die st => okDie die && okStream st
  | .step die st => okDie die && okStream st
  | .stepComplete die st _ => okDie die && okStream st
  | .idleStepBoundary die => okDie die
  | .stepDeadline die st => okDie die && okStream st
  | .streamTailAdvance die st p _ => okDie die && okStream st && okPointer p
  | .start die st => okDie die && okStream st
  | .stop die st => okDie die && okStream st
  | .abort die st => okDie die && okStream st
  | .pop die m => okDie die && okMbox m
  | .idleNotice die => okDie die
  | .lockstepMismatch die _ replica => okDie die && okOpt replica
  | .sergePairRejoin die _ => okDie die
  | .routerHeader die => okDie die
  | .routerSelection die => okDie die
  | .routerCapacity die => okDie die
  | .routerLists die => okDie die
  | .expertList src _ _ _ => okModule src
  | .expertResult src _ _ _ _ => okModule src
  | .map _ => true
  | .seal _ => true
  | .sealFinish pn => okPage pn
  | .free _ => true
  | .freeRelease pn => okPage pn
  | .promote _ => true
  | .promotionComplete part _ => decide (part.1 < 2) && okPage part.2
  | .demote _ => true
  | .setPlace _ => true
  | .drop _ => true
  | .placementDemotion => true
  | .bulkToDeepCopy => true
  | .accessEpoch => true
  | .ddrChannelFail _ => true
  | .driveFail _ => true
  | .stackRetire _ => true
  | .deepCatalogueScan => true
  | .install p _ => okPkt p
  | .queryTimeout h => okHandle h
  | .taffetaBlockDecode _ h _ _ _ => okHandle h
  | .stageFramesTimeout h => okHandle h
  | .confirmTimeout h => okHandle h
  | .installCommit h _ => okHandle h
  | .switchIn p => okPkt p
  | .switchInLoaded h _ => okHandle h
  | .uninstall p => okPkt p
  | .tenantRefill dies => dies.all (fun d => decide (d < 4))
  | .level t _ => okTenant t
  | .stewardTakeover => true
  | .drainDeadline _ _ replica => okOpt replica
  | .disableComplete _ _ => true
  | .openSession p => okPkt p
  | .openConfirm p => okPkt p
  | .openTimeout idx => okSession idx
  | .attach p => okPkt p
  | .close p => okPkt p
  | .sessionHoldExpiry idx => okSession idx
  | .heartbeat p => okPkt p
  | .claim p => okPkt p
  | .handover p => okPkt p
  | .release p => okPkt p
  | .setLease p => okPkt p
  | .leaseWarn => true
  | .leaseExpiry => true
  | .sealConfig p => okPkt p
  | .setTenantWindow p => okPkt p
  | .setMemWindow p => okPkt p
  | .setCtxOwner p => okPkt p
  | .setPkgGroup p => okPkt p
  | .protectionApplied => true
  | .stageMap p => okPkt p
  | .stageSeal p => okPkt p
  | .adoptDrive p => okPkt p
  | .submit p => okPkt p
  | .inputFetchComplete slot _ => okReqSlot slot
  | .cancel p => okPkt p
  | .prefixRelease p => okPkt p
  | .regDelivery p _ => okPkt p
  | .finalRead p => okPkt p
  | .disable p => okPkt p
  | .enable p => okPkt p
  | .regRead p => okPkt p
  | .regWrite p => okPkt p
  | .attest p => okPkt p
  | .eventCfg p => okPkt p
  | .malformedPacket _ _ _ p => okPkt p
  | .unknownOp _ p => okPkt p
  | .seqgapTimeout idx _ => okSession idx
  | .cmConnect q port => okQp q && okHostPort port
  | .qpError q => okQp q
  | .hostRdmaAccess q _ _ _ _ => okQp q
  | .tokenDelivery idx ring => okSession idx && okRing ring
  | .consumerCountRead idx ring _ => okSession idx && okRing ring
  | .finalEvent origin slot => okOpt origin && okReqSlot slot
  | .finalRecordExpiry => true
  | .errorEventWindow _ _ _ => true
  | .pfcPause p _ _ => okHostPort p
  | .pfcStorm p => okHostPort p
  | .cnpReceive q => okQp q
  | .rateRecovery q => okQp q
  | .i3cWrite addr _ => okWord addr
  | .linkTraining p _ => okLinkPort p
  | .trainingTimeout p => okLinkPort p
  | .lossOfSignal p => okLinkPort p
  | .retrain p => okLinkPort p
  | .enablePort p _ => okLinkPort p
  | .nakReceive p _ => okLinkPort p
  | .replayTimeout p => okLinkPort p
  | .creditReceive p vc _ _ => okLinkPort p && okVc vc
  | .dataFlitReceive p _ => okLinkPort p
  | .e2eAckTimer src vc _ => okModule src && okVc vc
  | .reorderTimeout src vc _ => okModule src && okVc vc
  | .e2eReceive dst vc _ _ _ => okModule dst && okVc vc
  | .e2eDead m _ => okModule m
  | .probe m _ _ _ => okModule m
  | .probeReply m => okModule m
  | .norouteTimeout dst => okModule dst
  | .route m _ _ => okModule m
  | .pageQuery src _ _ _ _ => okModule src
  | .pageAnswer src h _ _ _ => okModule src && okHandle h
  | .pageFetch src _ _ _ _ => okModule src
  | .pageData src h _ _ _ => okModule src && okHandle h
  | .pageRefuse src h _ => okModule src && okHandle h
  | .confirmReq src _ _ => okModule src
  | .confirm src h _ _ st _ => okModule src && okHandle h && okStream st
  | .malformedMsg src _ => okModule src
  | .velvetReplay _ _ _ => true
  | .ucieRetrain _ _ _ => true
  | .jrnlRecords src _ => okModule src
  | .jrnlAck src _ _ _ => okModule src
  | .jrnlHeartbeat src => okModule src
  | .journalBatch => true
  | .journalHbTimer => true
  | .partnerTimeout _ => true
  | .faultNotice src _ => okModule src
  | .pairReq src _ _ => okModule src
  | .pairRetry => true
  | .pairGrant src _ _ _ => okModule src
  | .fenceOut src _ => okModule src
  | .resyncData src _ _ => okModule src
  | .takeoverAssign src _ _ _ => okModule src
  | .takeoverState src _ => okModule src
  | .takeoverToken src _ _ _ _ _ => okModule src
  | .takeoverAck src _ _ _ => okModule src
  | .takeoverCtrl src _ _ _ _ _ => okModule src
  | .spareCall src _ _ => okModule src
  | .shardUpdate src m _ _ _ _ _ _ => okModule src && okModule m
  | .rejoinExpiry => true
  | .columnRepair die y x => okDie die && okSite y x
  | .faultMessage _ _ _ die _ _ _ _ replica => okDie die && okOpt replica
  | .knownAnswerTest die _ _ _ _ _ => okDie die
  | .patrolScrub _ _ _ _ die _ => okDie die
  | .autoRetire _ => true
  | .errRd path _ _ => okPath path
  | .errOvfValid path _ _ bits => okPath path && okWord bits
  | .timingPrep path _ => okPath path
  | .drain path => okPath path
  | .park path => okPath path
  | .ready path => okPath path
  | .keepalive path => okPath path
  | .capW path _ => okPath path
  | .powerControlTick _ _ _ _ _ _ => true
  | .voltageSlewComplete _ => true
  | .capdropN _ => true
  | .pfwN => true
  | .undervolt => true
  | .overvolt => true
  | .overvoltClear path => okPath path
  | .safeCap => true
  | .throttle _ _ => true
  | .thermDrain _ _ => true
  | .thermTrip _ _ => true
  | .sensorFail _ _ _ => true
  | .regulatorFault _ => true
  | .refclkFail => true
  | .a1Entry die => okDie die
  | .a1Wake die _ _ => okDie die
  | .ageing _ _ _ => true
  | .powerApplied => true
  | .softStartEnd => true
  | .powerLoss => true
  | .startupPhaseComplete _ _ _ => true
  | .bootLimit => true
  | .recovery _ _ _ => true
  | .recoveryRetry => true
  | .key path value => okPath path && okWord value
  | .modRstN => true
  | .stageStart path _ => okPath path
  | .stageFetchComplete _ => true
  | .stageFetchTimeout => true
  | .commit path _ => okPath path
  | .commitComplete _ => true
  | .stageAbort path _ => okPath path
  | .lcRequest path _ => okPath path
  | .lcConfirm path value => okPath path && okWord value
  | .lcArmExpiry => true
  | .tapInstruction _ => true
  | .tapLifecycleTransition _ _ _ => true
  | .pclStart path _ _ => okPath path
  | .pclConfirm path value => okPath path && okWord value
  | .pclArmExpiry => true
  | .pclAbort path => okPath path
  | .pclItemComplete _ => true
  | .pclItemTimeout _ => true
  | .pclLimitAbort _ => true
  | .modRstNRelease => true
  | .pfwNRelease => true
  | .refclkRestored => true
  | .dieWake die => okDie die
  | .pageTransferComplete part _ => decide (part.1 < 2) && okPage part.2
  | .laneFailure p => okLinkPort p
  | .hostPortLinkChange p _ _ => okHostPort p
  | .journalHoldRecord => true
  | .refusedBatchAck => true

end Sys2Proof
end

