-- ==== Sys2Proof/Certificates/Slice0/Obligations.lean ====
section
/-!
DEFINITION. The statements for the provers: the block as a whole, then the commands family by family, in the order of the opcode
table's chapters.
-/
open Sys2Proof Sys2Proof.Machine

/-! ## The block -/

/-- A step takes the command at the front of the queue and runs it on the state with the rest of the queue. -/
def Obligations.StepRunsTheFrontCommand : Prop :=
  ∀ (s : State) (c : Instr) (rest : List Instr), s.pending = c :: rest → step s = exec c { s with pending := rest }

/-- With no command waiting, one MCLK period of 20 ns passes and the queue stays empty (the model's choice, notes/assumptions/1);
while the module is Off or held in reset nothing but the time changes. -/
def Obligations.AnEmptyQueueLetsTimePass : Prop :=
  ∀ s : State, s.pending = [] → ∃ t, step s = .next t ∧ t.now = s.now + 20 ∧ t.pending = [] ∧
    (s.dark = true → t = { s with now := s.now + 20 })

/-- R6, R33: no step changes the grade, the stepping or the serial number. -/
def Obligations.IdentityOutlivesEveryStep : Prop :=
  ∀ (v : Identity) (s t : State), s.identity = v → step s = .next t → t.identity = v

/-- R441, R443: fuses only burn: no step clears a life-cycle, retirement, revocation, root or seed fuse, or lowers the floor; and
the fields keep their widths. -/
def Obligations.FusesOnlyBurn : Prop :=
  ∀ s t : State, s.fuses.inRange → step s = .next t →
    t.fuses.inRange ∧
    (∀ e < 4, s.fuses.lcWords.getD e 0 &&& t.fuses.lcWords.getD e 0 = s.fuses.lcWords.getD e 0) ∧
    s.fuses.retiredPair &&& t.fuses.retiredPair = s.fuses.retiredPair ∧
    s.fuses.revoked &&& t.fuses.revoked = s.fuses.revoked ∧
    s.fuses.roots &&& t.fuses.roots = s.fuses.roots ∧
    s.fuses.seeds &&& t.fuses.seeds = s.fuses.seeds ∧
    s.fuses.svnFloor ≤ t.fuses.svnFloor

/-- Every step keeps the byte memories of the tiles, of the mapped pages and of firmware's span in canonical form. -/
def Obligations.ByteMemoriesStayCanonical : Prop :=
  ∀ s t : State, s.memoriesOk → step s = .next t → t.memoriesOk

/-- R15, R33, R478: after a cold reset the byte memories are canonical, the identity is that of the fuses, every slot is EMPTY and no
slot active, nothing is mapped, held or waiting, and the configuration registers hold the values of their descriptions. -/
def Obligations.ResetMeetsTheInvariants : Prop :=
  State.reset.memoriesOk ∧ State.reset.fuses.inRange ∧
  State.reset.identity = { grade := Fuses.shipped.grade, stepping := Fuses.shipped.stepping, serial := Fuses.shipped.serial } ∧
  State.reset.pending = [] ∧ State.reset.mas.pages = [] ∧ State.reset.wts.pkgs = [] ∧ State.reset.stew.reqs = [] ∧
  (∀ d < 4, State.reset.flag F.DIE_ACTIVE_NONE 0 (.die d) = true ∧ (∀ c < 4, State.reset.slotState d c = 0) ∧
    State.reset.rd F.WDOG_CFG_LIMIT_LOG2 0 (.die d) = 16 ∧ State.reset.rd F.IDLE_CFG_IDLE_LOG2 0 (.die d) = 10) ∧
  ∀ e ∈ [(F.MODULE_STATE_STATE, 1), (F.POOL_WATER_LOW_WATER, 0x800), (F.POOL_WATER_HIGH_WATER, 0x1000), (F.POOL_MIN_FRAMES, 0x1000),
      (F.MIG_SIZE_LOG2, 10), (F.INSTALL_CFG_STAGE_FRAMES, 0x100), (F.INSTALL_CFG_QUERY_US, 20), (F.SCHED_CHUNK_PREFILL_CHUNK, 0x800),
      (F.LEASE_CFG_MS, 5000), (F.SESSION_CFG_HOLD_S, 600), (F.SESSION_CFG_FINAL_KEEP_S, 600), (F.LINK_TIMING_REORDER_US, 20),
      (F.LINK_TIMING_NOROUTE_US, 1000), (F.LINK_TIMING_E2E_DEAD_US, 50), (F.JOURNAL_TIMING_HB, 10), (F.JOURNAL_TIMING_TIMEOUT, 10),
      (F.JOURNAL_TIMING_REJOIN_S, 600), (F.PWR_DRAIN_MS_MS, 10000), (F.PWR_CAP_CAP_W, 4400), (F.A1_CFG_A1_IDLE_US, 20),
      (F.AGE_CFG_AGE_WARN_DAYS, 90)],
    State.reset.rd e.1 = e.2

/-! ## Power, clocks and cooling -/

/-- R407, R408, R431: DRAIN and PARK of a Serving module start a drain with the deadline of PWR_DRAIN_MS; PARK of a Ready module
parks it; READY starts it up, or waits for the soft start; KEEPALIVE takes it from Parked to Keep-alive. A request that the state of
the module does not allow is refused: nothing changes but that the reply says so. -/
def Obligations.RequestsChangeTheModuleState : Prop :=
  ∀ (s : State) (path : Path), s.dark = false → s.lc ≠ .retired →
    s.mayWrite path (Reg.addr .PWR_CTRL 0 .glob 0) .PWR_CTRL = true →
    (s.modState = 3 → s.boot.recovering = false → s.boot.drainTo = none →
      Completes (.drain path) s (fun t => t.modState = 4 ∧ t.boot.drainTo = some false ∧
        t.boot.drainBy = s.now + 1000000 * s.rd F.PWR_DRAIN_MS_MS) ∧
      Completes (.park path) s (fun t => t.modState = 4 ∧ t.boot.drainTo = some true ∧
        t.boot.drainBy = s.now + 1000000 * s.rd F.PWR_DRAIN_MS_MS)) ∧
    (s.modState = 2 → s.boot.recovering = false →
      Completes (.park path) s (fun t => t.modState = 5 ∧ t.boot.drainTo = none)) ∧
    (s.mayReady = true → s.boot.softUntil = none →
      Completes (.ready path) s (fun t => t.boot.nor.bootCount = s.boot.nor.bootCount + 1)) ∧
    (s.mayReady = true → s.boot.softUntil ≠ none →
      Completes (.ready path) s (fun t =>
        t = { s with boot := { s.boot with readyWaits := true } }.writeReply path (Reg.addr .PWR_CTRL 0 .glob 0) true 0)) ∧
    (s.boot.recovering = true →
      Completes (.park path) s (fun t => t.boot.recovering = false ∧ t.rd F.BOOT_STATUS_STAGE = 9 ∧ t.mas = s.mas)) ∧
    (s.modState = 5 → Completes (.keepalive path) s (fun t => t.modState = 1)) ∧
    (s.modState ≠ 3 → s.modState ≠ 4 → Completes (.drain path) s (fun t => t = s.writeReply path (Reg.addr .PWR_CTRL 0 .glob 0) false 0)) ∧
    (s.mayReady = false → Completes (.ready path) s (fun t => t = s.writeReply path (Reg.addr .PWR_CTRL 0 .glob 0) false 0)) ∧
    (s.modState ≠ 5 → Completes (.keepalive path) s (fun t => t = s.writeReply path (Reg.addr .PWR_CTRL 0 .glob 0) false 0)) ∧
    (s.modState = 1 → s.boot.recovering = false → Completes (.park path) s (fun t => t = s.writeReply path (Reg.addr .PWR_CTRL 0 .glob 0) false 0))

/-- R410: a write of 1,200 W to 4,400 W to POWER_CAP sets it, and one over a rack path clears SAFE; a lower one is refused, leaves
the cap alone and sets CAP_REFUSED. Here the module is in Keep-alive, where a refused cap parks nothing (R407). -/
def Obligations.PowerCapWritesTakeOrRefuse : Prop :=
  ∀ (s : State) (path : Path) (v : Nat), s.dark = false → s.lc ≠ .retired → s.modState = 1 →
    s.mayWrite path (Reg.addr .PWR_CAP 0 .glob 0) .PWR_CAP = true →
    (1200 ≤ v → v ≤ 4400 → Completes (.capW path v) s (fun t => t.rd F.PWR_CAP_CAP_W = v ∧
      (isRack path = true → t.flag F.PWR_LIMIT_SAFE = false) ∧ t.modState = 1 ∧ t.fuses = s.fuses ∧ t.mas = s.mas ∧ t.arr = s.arr)) ∧
    (v < 1200 → Completes (.capW path v) s (fun t => t.rd F.PWR_CAP_CAP_W = s.rd F.PWR_CAP_CAP_W ∧
      t.flag F.PWR_STATUS_CAP_REFUSED = true ∧ t.modState = 1 ∧ t.fuses = s.fuses ∧ t.mas = s.mas ∧ t.arr = s.arr))

/-- R411, R412, R413: at a comparison above the limit a die that can take a step goes down by one point: its frequency at once, its
voltage after the slew; one at P6 gets one more gated column instead; the measured averages stand in their registers. At the end of a
voltage change the die stands at its point, with that point's voltage and frequency, and the edges that a stretch removed are counted
under POWER_CAP. -/
def Obligations.PointsFollowTheCap : Prop :=
  (∀ (s : State) (w volts amps inlet outlet : Nat) (off : Bool), s.dark = false → s.modState ≠ 6 →
      s.rd F.PWR_LIMIT_SOURCE ≠ 3 → s.rd F.PWR_LIMIT_LIMIT_W < w →
      Completes (.powerControlTick w volts amps inlet outlet off) s (fun t =>
        t.rd F.PWR_INPUT_POWER_W = w % 2 ^ 13 ∧ t.rd F.PWR_INPUT_VOLTS_DV = volts % 2 ^ 10 ∧ t.rd F.PWR_CURRENT_AMPS_DA = amps % 2 ^ 11 ∧
        t.rd F.COOLANT_INLET_C = inlet % 2 ^ 8 ∧ t.rd F.COOLANT_OUTLET_C = outlet % 2 ^ 8 ∧
        (∀ d < 4, s.steerable d = true → s.flag F.DIE_OPPOINT_THROTTLED d = false →
          (s.point d < 6 → t.point d = s.point d + 1 ∧ t.rd F.DIE_OPPOINT_ACLK_M d = pointM (s.point d + 1) ∧
            SMap.find? t.boot.slews d = some (s.point d + 1, s.now, s.now + slewNs (s.vcore d) (pointMv (s.point d + 1)))) ∧
          (s.point d = 6 → t.point d = 6 ∧ t.rd F.DIE_OPPOINT_GATE_D d = min 12 (s.rd F.DIE_OPPOINT_GATE_D d + 1))) ∧
        t = { s with regs := t.regs, boot := { s.boot with railsOff := off, slews := t.boot.slews } })) ∧
  (∀ (s : State) (d p t0 t1 : Nat), d < 4 → SMap.find? s.boot.slews d = some (p, t0, t1) → p ≤ 6 → t1 ≤ s.now →
      Completes (.voltageSlewComplete d) s (fun t =>
        t.point d = p ∧ t.vcore d = pointMv p ∧ t.rd F.DIE_OPPOINT_ACLK_M d = pointM p ∧ SMap.find? t.boot.slews d = none ∧
        t.rd F.DIE_STALL_COUNT 10 (.die d) =
          (s.rd F.DIE_STALL_COUNT 10 (.die d) + (pointM (s.point d) - s.rd F.DIE_OPPOINT_ACLK_M d) * (t1 - t0) / 4) % 2 ^ 64 ∧
        s.regsBut t (F.DIE_OPPOINT_POINT.words d ++ F.DIE_STALL_COUNT.words 10 (.die d)) ∧
        t = { s with regs := t.regs, boot := { s.boot with slews := t.boot.slews } }))

/-- R402, R415, R416, R417, R471, R477: the rack's lands and the input monitors set the bits that report them. -/
def Obligations.RackSignalsAreReported : Prop :=
  ∀ s : State,
    (∀ low : Bool, s.dark = false → s.flag F.PWR_LIMIT_CAPDROP ≠ low →
      Completes (.capdropN low) s (fun t => t.flag F.PWR_LIMIT_CAPDROP = low ∧ t.rd F.PIN_STATUS_CAPDROP_LVL = b2n (!low))) ∧
    (s.dark = false → s.boot.failAt = none → s.boot.pclRun = none →
      Completes .pfwN s (fun t => t.rd F.PIN_STATUS_PFW_LVL = 0 ∧ t.rd F.PWR_LIMIT_PFW = 1 ∧ t.flag F.PWR_STATUS_PFW_SEEN = true ∧
        t.boot.failAt = some s.now ∧ t.boot.stopping = true ∧ t.stew.flights = [] ∧ t.fuses = s.fuses) ∧
      Completes .undervolt s (fun t => t.flag F.PWR_STATUS_UNDERVOLT = true ∧ t.boot.failAt = some s.now ∧ t.fuses = s.fuses) ∧
      Completes .overvolt s (fun t => t.flag F.PIN_STATUS_OVERVOLT = true ∧ t.boot.nor.overvolt = true ∧
        t.boot.failAt = some s.now ∧ t.fuses = s.fuses)) ∧
    Completes .pfwNRelease s (fun t => t.rd F.PIN_STATUS_PFW_LVL = 1 ∧ t.rd F.PWR_LIMIT_PFW = 0 ∧ t = { s with regs := t.regs }) ∧
    (∀ path : Path, s.dark = false → s.lc ≠ .retired →
      s.mayWrite path (Reg.addr .PIN_STATUS 0 .glob 0) .PIN_STATUS = true →
      Completes (.overvoltClear path) s (fun t => t.flag F.PIN_STATUS_OVERVOLT = false ∧ t.boot.nor.overvolt = false ∧
        s.regsBut t F.PIN_STATUS_OVERVOLT.words)) ∧
    (s.dark = false → s.host.mgmtSeen + 60000000000 ≤ s.now → s.flag F.PWR_LIMIT_SAFE = false →
      Completes .safeCap s (fun t => t.flag F.PWR_LIMIT_SAFE = true ∧ t.fuses = s.fuses ∧ t.mas = s.mas)) ∧
    (s.dark = false → s.boot.refBad = false → Completes .refclkFail s (fun t => t.modState = 5)) ∧
    Completes .refclkRestored s (fun t => t = { s with boot := { s.boot with refBad := false } })

/-- R419 to R422, R424, R425: what a reading of a die's junction sensors sets off; and a prediction stands in AGEING and in the NOR,
each saturating at 65,535, while other units and the rest of the module keep what they hold as long as no warning falls due and no
stack is worn out. -/
def Obligations.TemperaturesAndAgeingAreGuarded : Prop :=
  (∀ (s : State) (d tj : Nat), s.dark = false →
      (d < 4 → s.boot.pclRun = none → SMap.find? s.boot.steppedAt d = none → 95 ≤ s.reads d tj → s.steerable d = true → s.point d < 6 →
        Completes (.throttle d tj) s (fun t => t.point d = s.point d + 1 ∧ t.rd F.DIE_OPPOINT_ACLK_M d = pointM (s.point d + 1) ∧
          t.flag F.DIE_OPPOINT_THROTTLED d = true ∧ SMap.find? t.boot.steppedAt d = some s.now ∧ t.fuses = s.fuses ∧ t.mas = s.mas)) ∧
      (d < 6 → s.modState = 3 → s.boot.drainTo = none → s.rd F.THERM_CFG_DRAIN_C ≤ s.reads d tj % 2 ^ 8 →
        Completes (.thermDrain d tj) s (fun t => t.modState = 4 ∧ t.boot.drainTo = some true ∧
          t.boot.drainBy = s.now + 1000000 * s.rd F.THERM_CFG_THERM_DRAIN_MS)) ∧
      (d < 6 → s.reads d tj % 2 ^ 8 < s.rd F.THERM_CFG_DRAIN_C →
        Completes (.thermDrain d tj) s (fun t => t.rd F.THERM_TEMP_TJ_MAX d = s.reads d tj % 2 ^ 8 ∧
          t.rd F.THERM_TEMP_SENSORS_OK d = s.sensorsOk d % 2 ^ 4 ∧ s.regsBut t (F.THERM_TEMP_TJ_MAX.words d) ∧ t = { s with regs := t.regs })) ∧
      (d < 6 → 115 ≤ tj → Completes (.thermTrip d tj) s (fun t => t.modState = 1)) ∧
      (∀ k, d < 6 → k < sensorCount d → (d, k) ∉ s.boot.badSensors → s.modState ≠ 3 → s.modState ≠ 4 →
        Completes (.sensorFail d k tj) s (fun t => (d, k) ∈ t.boot.badSensors ∧
          t.rd F.ERR_COUNT_COUNT (64 * ringOf d + 0x1D) = (s.rd F.ERR_COUNT_COUNT (64 * ringOf d + 0x1D) + 1) % 2 ^ 64)) ∧
      (d < 6 → Completes (.regulatorFault d) s (fun t => t.modState = 5))) ∧
  (∀ (s : State) (unit days low90 : Nat), s.dark = false → unit < 78 → s.rd F.AGE_CFG_AGE_WARN_DAYS ≤ min low90 0xFFFF → 30 < low90 →
      Completes (.ageing unit days low90) s (fun t =>
        t.rd F.AGEING_DAYS unit = min days 0xFFFF ∧ t.rd F.AGEING_LOW90 unit = min low90 0xFFFF ∧
        SMap.getD t.boot.nor.ages unit (0xFFFF, 0xFFFF) = (min days 0xFFFF, min low90 0xFFFF) ∧
        s.regsBut t (F.AGEING_DAYS.words unit) ∧
        t = { s with regs := t.regs, boot := { s.boot with nor := { s.boot.nor with ages := t.boot.nor.ages } } }))

/-- R404: a die that has had nothing to do for A1_IDLE_US enters A1, and with A1_IDLE_US = 0 none does; work wakes it, and a stream held
by the wake counts the cycles under POWER_CAP. R403: a die in A2 is woken into A0, its working Serge pairs online and the streams of the
retired ones OFFLINE. R91, R403: one that holds no tokens and no unfinished operation enters A2 on request, every slot EMPTY and its tile
memory lost, or A3; a request for another is turned away. -/
def Obligations.DiesChangePowerState : Prop :=
  ∀ (s : State) (die : Nat), die < 4 →
    (s.dieP die = 0 → s.rd F.A1_CFG_A1_IDLE_US ≠ 0 → s.dieRests die = true →
      1000 * s.rd F.A1_CFG_A1_IDLE_US ≤ SMap.getD s.arr.restFor die 0 →
      Completes (.a1Entry die) s (fun t => t.dieP die = 1 ∧ s.regsBut t F.DIE_STATUS_CD0_PSTATE.words ∧
        t = { s with regs := t.regs, arr := { s.arr with restFor := SMap.setD s.arr.restFor die 0 0 } })) ∧
    ((s.dieP die ≠ 0 ∨ s.rd F.A1_CFG_A1_IDLE_US = 0 ∨ SMap.getD s.arr.restFor die 0 < 1000 * s.rd F.A1_CFG_A1_IDLE_US) →
      Completes (.a1Entry die) s (fun t => t = s)) ∧
    (s.dieP die = 1 → Completes (.a1Wake die none 0) s (fun t => t.dieP die = 0 ∧ s.regsBut t F.DIE_STATUS_CD0_PSTATE.words ∧
        t = { s with regs := t.regs, arr := { s.arr with restFor := SMap.setD s.arr.restFor die 0 0 } }) ∧
      ∀ st n, st < 64 → Completes (.a1Wake die (some st) n) s (fun t => t.dieP die = 0 ∧
        t.rd F.STREAM_STALL_COUNT (16 * st + 10) (.die die) = (s.rd F.STREAM_STALL_COUNT (16 * st + 10) (.die die) + n) % 2 ^ 64 ∧
        t = { s with regs := t.regs, arr := { s.arr with restFor := SMap.setD s.arr.restFor die 0 0 } })) ∧
    (s.dieP die = 2 → Completes (.dieWake die) s (fun t => t.dieP die = 0 ∧
      (∀ p < 8, s.pairRetired die p = false → t.flag F.SERGE_STATUS_ONLINE p (.die die) = true) ∧
      (∀ p < 8, ∀ k < 8, s.pairRetired die p = true → t.strState die (8 * p + k) = 5) ∧
      t = { s with regs := t.regs, arr := { s.arr with restFor := SMap.setD s.arr.restFor die 0 0 } })) ∧
    (s.dieP die ≠ 2 → Completes (.dieWake die) s (fun t => t = s.turnAway "DIE_WAKE")) ∧
    (die ∉ s.fuses.retiredDies → s.dieP die < 2 → s.dieQuiet die = true →
      Completes (.diePowerDown die false) s (fun t => t.dieP die = 2 ∧ (∀ c < 4, t.slotState die c = 0) ∧
        (∀ y x off, y < 24 → x < 32 → off < 524288 → t.sramByte die y x off = 0) ∧ t.mas.pages = s.mas.pages ∧ t.fuses = s.fuses)) ∧
    (die ∉ s.fuses.retiredDies → s.dieP die = 2 → s.dieQuiet die = true → Completes (.diePowerDown die false) s (fun t => t = s)) ∧
    (die ∉ s.fuses.retiredDies → s.dieP die ≤ 2 → s.dieQuiet die = true →
      Completes (.diePowerDown die true) s (fun t => t.dieP die = 3 ∧ t.fuses = s.fuses)) ∧
    (∀ a3, (die ∈ s.fuses.retiredDies ∨ 3 ≤ s.dieP die ∨ s.dieQuiet die = false) →
      Completes (.diePowerDown die a3) s (fun t => t = s.turnAway "DIE_POWER_DOWN"))

/-- R406, R430, R432, R437, R469: power brings a soft start of 30 ms and a cold reset; its loss, and the assertion of MOD_RST_N, a
cold reset too; the fuses and the drives keep what they hold. COLD_RESET takes the key 0xB007 in a module that neither serves, drains,
tests, commits nor recovers; without RESTART and AUTO_READY the module then stays in Keep-alive. Another key is refused. -/
def Obligations.ColdResetsStartOver : Prop :=
  (∀ s : State,
      (s.boot.off = true → Completes .powerApplied s (fun t => t.boot.off = false ∧ t.boot.softUntil = some (s.now + 30000000) ∧
        t.arr = Arr.reset ∧ t.stew = Stew.reset ∧ t.jr = Jr.reset ∧ t.link = LinkSt.reset ∧ t.mas.drives = s.mas.drives ∧ t.fuses = s.fuses)) ∧
      (∀ u, s.boot.softUntil = some u → u ≤ s.now → s.boot.readyWaits = false →
        Completes .softStartEnd s (fun t => t = { s with boot := { s.boot with softUntil := none, readyWaits := false } })) ∧
      (∀ u, s.boot.softUntil = some u → s.now < u → Completes .softStartEnd s (fun t => t = s)) ∧
      (s.boot.off = false → Completes .powerLoss s (fun t => t.boot.off = true ∧ t.arr = Arr.reset ∧ t.stew = Stew.reset ∧
        t.jr = Jr.reset ∧ t.link = LinkSt.reset ∧ t.mas.drives = s.mas.drives ∧ t.fuses = s.fuses)) ∧
      (s.boot.off = false → Completes .modRstN s (fun t => t.boot.held = true ∧ t.arr = Arr.reset ∧ t.stew = Stew.reset ∧
        t.jr = Jr.reset ∧ t.link = LinkSt.reset ∧ t.mas.drives = s.mas.drives ∧ t.fuses = s.fuses)) ∧
      (s.boot.held = true → s.flag F.BOOT_CFG_AUTO_READY = false →
        Completes .modRstNRelease s (fun t => t = { s with boot := { s.boot with held := false } }))) ∧
  (∀ (s : State) (path : Path), s.dark = false → s.lc ≠ .retired → s.mayWrite path (Reg.addr .COLD_RESET 0 .glob 0) .COLD_RESET = true →
      (s.resetRefused = false → s.boot.nor.autoReady = false →
        Completes (.key path 0xB007) s (fun t => t.modState = 1 ∧ t.rd F.BOOT_STATUS_RESET_CAUSE = 2 ∧ t.arr = Arr.reset ∧ t.strm.cmdMem = [] ∧
          t.mas.pages = [] ∧ t.mas.drives = s.mas.drives ∧ t.wts = { pkgs := s.storedPkgs, jobs := [] } ∧ t.host.sessions = [] ∧ t.link = LinkSt.reset ∧
          t.stew = Stew.reset ∧ t.jr = Jr.reset ∧ t.boot.nor = s.boot.nor ∧ t.fuses = s.fuses)) ∧
      (∀ v, v < 2 ^ 32 → v % 2 ^ 16 ≠ 0xB007 →
        Completes (.key path v) s (fun t => t = s.writeReply path (Reg.addr .COLD_RESET 0 .glob 0) false 0)))

/-! ## Boot, staging and life cycle -/

/-- R431, R434, R435: a phase that succeeds starts the next one, up to Ready; a failed image check starts recovery with its cause, as
FORCE_RECOVERY does before the image is checked; a start-up that outlasts its limit parks the module, and recovery tries again after
10 s. -/
def Obligations.StartUpAdvancesByPhases : Prop :=
  ∀ (s : State) (misread : Bool) (f : Found), s.dark = false →
    (s.rd F.BOOT_STATUS_STAGE = 1 → s.flag F.BOOT_CFG_FORCE_RECOVERY = true →
      Completes (.startupPhaseComplete false misread f) s (fun t => t.rd F.BOOT_STATUS_STAGE = 8 ∧ t.boot.recovering = true ∧
        t.rd F.BOOT_STATUS_CAUSE = 8 ∧ t.modState = 1)) ∧
    (s.rd F.BOOT_STATUS_STAGE = 1 → s.flag F.BOOT_CFG_FORCE_RECOVERY = false →
      Completes (.startupPhaseComplete false misread f) s (fun t => t.rd F.BOOT_STATUS_STAGE = 2 ∧ t = { s with regs := t.regs } ∧
        s.regsBut t F.BOOT_STATUS_STAGE.words)) ∧
    (s.rd F.BOOT_STATUS_STAGE = 2 → s.headerCause s.boot.nor.image = 0 →
      Completes (.startupPhaseComplete false misread f) s (fun t => t.rd F.BOOT_STATUS_STAGE = 3 ∧ t = { s with regs := t.regs } ∧
        s.regsBut t F.BOOT_STATUS_STAGE.words)) ∧
    (s.rd F.BOOT_STATUS_STAGE = 2 → s.headerCause s.boot.nor.image ≠ 0 →
      Completes (.startupPhaseComplete false misread f) s (fun t => t.rd F.BOOT_STATUS_STAGE = 8 ∧ t.boot.recovering = true ∧
        t.rd F.BOOT_STATUS_CAUSE = s.headerCause s.boot.nor.image ∧ t.modState = 1)) ∧
    (s.rd F.BOOT_STATUS_STAGE = 3 → imgDigests s.boot.nor.image = true →
      Completes (.startupPhaseComplete false misread f) s (fun t => t.rd F.BOOT_STATUS_STAGE = 4 ∧
        t.rd F.FW_SVN_SVN = imgSvn s.boot.nor.image % 2 ^ F.FW_SVN_SVN.w ∧ t.boot.mFw = Sm3.digest (s.boot.nor.image.take 1024) ∧
        t.boot.sram = imgSeg s.boot.nor.image 0)) ∧
    (s.rd F.BOOT_STATUS_STAGE = 4 →
      Completes (.startupPhaseComplete false misread f) s (fun t => t.rd F.BOOT_STATUS_STAGE = 5)) ∧
    (s.rd F.BOOT_STATUS_STAGE = 5 →
      Completes (.startupPhaseComplete false false f) s (fun t => t.rd F.BOOT_STATUS_STAGE = 6)) ∧
    (s.rd F.BOOT_STATUS_STAGE = 6 →
      Completes (.startupPhaseComplete false misread f) s (fun t => t.rd F.BOOT_STATUS_STAGE = 7 ∧ t.modState = 2 ∧ t.boot.bootBy = none)) ∧
    (∀ u, s.boot.bootBy = some u → u ≤ s.now → 1 ≤ s.rd F.BOOT_STATUS_STAGE → s.rd F.BOOT_STATUS_STAGE ≤ 6 →
      Completes .bootLimit s (fun t => t.modState = 5)) ∧
    (s.boot.recovering = true → s.boot.triedAt + 10000000000 ≤ s.now →
      Completes .recoveryRetry s (fun t => t.boot.triedAt = s.now ∧
        t.rd F.BOOT_STATUS_RECOVERY_TRIES = min (s.rd F.BOOT_STATUS_RECOVERY_TRIES + 1) 255 ∧ s.regsBut t F.BOOT_STATUS_RECOVERY_TRIES.words)) ∧
    (∀ b : List Byte, s.boot.recovering = true → b.length ≤ maxImage → s.imageCause b = 0 →
      Completes (.recovery (some b) true false) s (fun t => t.rd F.BOOT_STATUS_STAGE = 3 ∧ t.boot.recovering = false ∧
        t.boot.nor.image = b ∧ t.flag F.BOOT_CFG_FORCE_RECOVERY = false ∧ t.fuses = (s.carryOut b).fuses))

/-- R436, R437, R448: staging: START begins a fetch; a fetched copy that passes its checks is STAGED; COMMIT erases the header and
then takes the copy; a read-back that equals it completes the commit; ABORT discards it; no block for 2 s fails the fetch. -/
def Obligations.StagingFetchesAndCommits : Prop :=
  ∀ (s : State) (path : Path) (kind : Nat), s.dark = false → s.lc ≠ .retired → s.modState = 5 → kind < 2 →
    s.mayWrite path (Reg.addr .STAGE_CTRL 0 .glob 0) .STAGE_CTRL = true →
    (s.mayStage = true → Completes (.stageStart path kind) s (fun t => t.rd F.STAGE_STATUS_STATE = 1 ∧ t.rd F.STAGE_STATUS_ERR = 0 ∧
      t.rd F.STAGE_CTRL_KIND = kind ∧ t.boot.staged = none ∧ t.boot.blockAt = s.now ∧
      s.regsBut t (F.STAGE_CTRL_KIND.words ++ F.STAGE_STATUS_STATE.words))) ∧
    (s.rd F.STAGE_STATUS_STATE = 1 → s.boot.blockAt + 2000000000 ≤ s.now →
      Completes .stageFetchTimeout s (fun t => t.rd F.STAGE_STATUS_STATE = 5 ∧ t.rd F.STAGE_STATUS_ERR = 13 ∧ t.boot.staged = none ∧
        s.regsBut t F.STAGE_STATUS_STATE.words)) ∧
    (∀ b : List Byte, s.rd F.STAGE_STATUS_STATE = 1 → s.rd F.STAGE_CTRL_KIND = 0 → b.length ≤ maxImage → s.imageCause b = 0 →
      Completes (.stageFetchComplete (some b)) s (fun t => t.rd F.STAGE_STATUS_STATE = 2 ∧ t.boot.staged = some (0, b) ∧
        t.boot.nor = s.boot.nor ∧ s.regsBut t F.STAGE_STATUS_STATE.words)) ∧
    (∀ b : List Byte, s.rd F.STAGE_STATUS_STATE = 2 → s.boot.staged = some (0, b) →
      Completes (.commit path kind) s (fun t => t.rd F.STAGE_STATUS_STATE = 3 ∧ t.boot.nor.image = [] ∧ t.boot.staged = some (0, b) ∧
        t.fuses = s.fuses)) ∧
    (∀ b : List Byte, s.rd F.STAGE_STATUS_STATE = 3 → s.boot.staged = some (0, b) →
      Completes (.commitComplete b) s (fun t => t.rd F.STAGE_STATUS_STATE = 4 ∧ t.boot.nor.image = b ∧ t.boot.staged = none ∧
        t.fuses = (s.carryOut b).fuses)) ∧
    (s.rd F.STAGE_STATUS_STATE ≠ 3 →
      Completes (.stageAbort path kind) s (fun t => t.rd F.STAGE_STATUS_STATE = 0 ∧ t.boot.staged = none ∧ t.boot.nor = s.boot.nor)) ∧
    (s.rd F.STAGE_STATUS_STATE = 3 →
      Completes (.stageAbort path kind) s (fun t => t = s.writeReply path (Reg.addr .STAGE_CTRL 0 .glob 0) false 0))

/-- R441, R443, R444: a life-cycle request of the owner arms, its confirmation within 1 s with the complement carries it out, and an
armed request expires after 1 s; Decvin's transitions burn their pair through the test access port. -/
def Obligations.LifeCycleMovesForward : Prop :=
  ∀ (s : State) (i : Nat), s.dark = false → s.ownerIndex = some i → s.modState ≠ 1 →
    (s.lc = .provisioned → s.rd F.STAGE_STATUS_STATE ≠ 3 →
      Completes (.lcRequest (.session i) 3) s (fun t => t.boot.lcAt = some s.now ∧ t.rd F.LC_REQUEST_TARGET = 3 ∧
        t.rd F.LC_REQUEST_ARMED = 1 ∧ s.regsBut t F.LC_REQUEST_TARGET.words ∧ t.fuses = s.fuses)) ∧
    (∀ u, s.lc = .provisioned → s.rd F.STAGE_STATUS_STATE ≠ 3 → s.modState = 2 → s.rd F.CFG_SEQ_VALUE ≠ 0 →
      s.boot.lcAt = some u → s.now ≤ u + 1000000000 → s.rd F.LC_REQUEST_TARGET = 3 →
      Completes (.lcConfirm (.session i) 0xFFFFFFFC) s (fun t => t.lc = .deployed ∧ t.epoch = s.epoch ∧ t.boot.lcAt = none)) ∧
    (∀ u, s.lc = .deployed → s.rd F.STAGE_STATUS_STATE ≠ 3 → s.modState = 5 → s.boot.lcAt = some u → s.now ≤ u + 1000000000 →
      s.rd F.LC_REQUEST_TARGET = 4 →
      Completes (.lcConfirm (.session i) 0xFFFFFFFB) s (fun t => t.lc = .returned ∧ t.epoch = s.epoch ∧ t.boot.nor.config = [] ∧
        t.rd F.BOOT_STATUS_RESET_CAUSE = 3)) ∧
    (∀ u, (s.lc = .provisioned ∨ s.lc = .deployed) → s.rd F.STAGE_STATUS_STATE ≠ 3 → s.modState = 5 → s.boot.lcAt = some u →
      s.now ≤ u + 1000000000 → s.rd F.LC_REQUEST_TARGET = 5 →
      Completes (.lcConfirm (.session i) 0xFFFFFFFA) s (fun t => t.lc = .retired ∧ t.fuses.seeds = 15)) ∧
    (∀ u v, s.boot.lcAt = some u → v < 2 ^ 32 → v ≠ complement32 (s.rd F.LC_REQUEST_TARGET) → s.lc ≠ .retired →
      Completes (.lcConfirm (.session i) v) s (fun t => t.boot.lcAt = none ∧ t.rd F.LC_REQUEST_ARMED = 0 ∧ t.fuses = s.fuses)) ∧
    (∀ u, s.boot.lcAt = some u → u + 1000000000 < s.now →
      Completes .lcArmExpiry s (fun t => t.boot.lcAt = none ∧ t.rd F.LC_REQUEST_ARMED = 0 ∧ t.fuses = s.fuses)) ∧
    (s.lc = .blank → ∀ key cert, Completes (.tapLifecycleTransition .factory key cert) s (fun t => t = s.burn 0 0)) ∧
    (s.lc = .factory → s.boot.nor.passed = some s.epoch → ∀ key cert,
      Completes (.tapLifecycleTransition .provisioned key cert) s (fun t => t.boot.nor.rootKey = key ∧ t.boot.nor.cert = cert ∧
        bitOf t.fuses.roots s.epoch = true ∧ bitOf t.fuses.seeds s.epoch = true ∧ t.fuses.rootDigests.getD s.epoch [] = Sm3.digest key)) ∧
    (s.lc = .returned → s.boot.nor.passed = some s.epoch → s.epoch < 3 → ∀ key cert,
      Completes (.tapLifecycleTransition .provisioned key cert) s (fun t => t.boot.nor.rootKey = key ∧ t.boot.nor.cert = cert ∧
        t.epoch = s.epoch + 1 ∧ t.lc = .provisioned ∧ bitOf t.fuses.roots (s.epoch + 1) = true ∧ bitOf t.fuses.seeds (s.epoch + 1) = true ∧
        t.fuses.rootDigests.getD (s.epoch + 1) [] = Sm3.digest key)) ∧
    ((s.lc = .factory ∨ s.lc = .returned) → ∀ key cert,
      Completes (.tapLifecycleTransition .retired key cert) s (fun t => t.lc = .retired ∧ t.fuses.seeds = 15)) ∧
    ((s.lc = .provisioned ∨ s.lc = .deployed ∨ s.lc = .retired) → ∀ target key cert,
      Completes (.tapLifecycleTransition target key cert) s (fun t => t = s.turnAway "TAP_LIFECYCLE_TRANSITION"))

/-- R459: in every life-cycle state BYPASS and boundary scan change nothing in the module and IDCODE answers; in FACTORY and RETURNED
the test access port reads and writes registers, elsewhere an access has no effect. The IDCODE value is a free one (notes/assumptions/2). -/
def Obligations.TestAccessPortIsShut : Prop :=
  ∀ s : State,
    Completes (.tapInstruction .bypass) s (fun t => t = s) ∧ Completes (.tapInstruction .boundary) s (fun t => t = s) ∧
    (s.boot.off = false → Completes (.tapInstruction .idcode) s (fun t =>
      t = { s with fresh := s.fresh + 1, out := .tap (Config.freeNat s.fresh % 2 ^ 32) :: s.out })) ∧
    (s.boot.off = false → s.lc = .factory ∨ s.lc = .returned → ∀ a v,
      Completes (.tapInstruction (.write a v)) s (fun t => t = s.doWrite .tap a v) ∧
      Completes (.tapInstruction (.read a)) s (fun t => ∀ x, (s.readReg .tap a).1 = .ok x → t = (s.readReg .tap a).2.emit (.tap x.toNat))) ∧
    (s.lc ≠ .factory → s.lc ≠ .returned → ∀ a v,
      Completes (.tapInstruction (.read a)) s (fun t => t = s) ∧ Completes (.tapInstruction (.write a v)) s (fun t => t = s))

/-- R452 to R458: a field test is armed by START, begins at its confirmation, and is refused once 1 s has passed; an item that ends is
counted, one past its bound fails, and ABORT or a limit ends the run with the module Parked. -/
def Obligations.PercaleRunsTests : Prop :=
  ∀ (s : State) (i point : Nat), s.dark = false → s.ownerIndex = some i → point ≤ 6 → s.lc ≠ .retired → s.modState ≠ 1 →
    (s.pclRefusal (.session i) false point = 0 →
      Completes (.pclStart (.session i) false point) s (fun t => t.rd F.PCL_STATUS_STATE = 1 ∧ t.rd F.PCL_STATUS_REFUSE = 0 ∧
        t.rd F.PCL_CTRL_TEST_POINT = point ∧ t.boot.pclArmed = some (s.now, 1 + 8 * point, i) ∧ t.fuses = s.fuses ∧ t.mas = s.mas)) ∧
    (∀ u w, s.boot.pclArmed = some (u, w, i) → s.now ≤ u + 1000000000 → w < 64 → s.pclRefusal (.session i) false (bitsOf w 3 3) = 0 →
      Completes (.pclConfirm (.session i) (complement32 w)) s (fun t =>
        t = (s.pclEnter false (bitsOf w 3 3)).writeReply (.session i) (Reg.addr .PCL_CONFIRM 0 .glob 0) true 0)) ∧
    (∀ u w, s.boot.pclArmed = some (u, w, i) → u + 1000000000 < s.now → s.modState ≠ 6 →
      Completes .pclArmExpiry s (fun t => t.rd F.PCL_STATUS_REFUSE = 3 ∧ t.rd F.PCL_STATUS_STATE = 4 ∧ t.boot.pclArmed = none ∧
        t = { s with regs := t.regs, boot := { s.boot with pclArmed := none } })) ∧
    (∀ r, s.boot.pclRun = some r → s.rd F.PCL_CTRL_TEST_POINT ≤ 6 →
      Completes (.pclAbort (.session i)) s (fun t => t.modState = 5 ∧ t.boot.pclRun = none) ∧
      Completes (.pclLimitAbort 0) s (fun t => t.modState = 5 ∧ t.boot.pclRun = none)) ∧
    (∀ r p q rest, s.boot.pclRun = some r → r.todo = p :: q :: rest → q.1 = p.1 → p.2 = 0 → q.2 = 1 → s.rd F.PCL_RESULT_OUTCOME 0 ≠ 2 →
      Completes (.pclItemComplete []) s (fun t => t.rd F.PCL_RESULT_OUTCOME 0 = 1 ∧ t.rd F.PCL_STATUS_ITEM = 1 ∧
        (t.boot.pclRun.map (·.todo)) = some (q :: rest) ∧ t.mas = s.mas ∧ t.fuses = s.fuses)) ∧
    (∀ r faults unit, s.boot.pclRun = some r → r.itemAt + s.pclBound (r.todo.headD (0, 0)).2 (r.todo.headD (0, 0)).1 ≤ s.now →
      Completes (.pclItemTimeout (faults, unit)) s (fun t => t = s.pclItemDone (faults.filter (fun u => decide (u ≠ unit)) ++ [unit]) true))

/-! ## The host command protocol -/

/-- R277, R283: a command packet that arrives in its session's turn, under its key, occupies a receive entry and is serialised with its
OPCODE of R291. -/
def Obligations.PacketsInTurnAreSerialised : Prop :=
  ∀ (s : State) (i : Nat) (v : Session) (p : Pkt) (c : Instr) (op n : Nat) (extra : List Byte), s.inTurn i v op p →
    (c, op, extra) ∈ ([(.close p, 0x04, []), (.heartbeat p, 0x05, []), (.claim p, 0x10, []), (.handover p, 0x11, []), (.release p, 0x12, []),
      (.setLease p, 0x13, []), (.sealConfig p, 0x14, []), (.setTenantWindow p, 0x20, []), (.setMemWindow p, 0x21, []),
      (.setCtxOwner p, 0x22, []), (.setPkgGroup p, 0x23, []), (.install p extra, 0x30, extra), (.uninstall p, 0x31, []),
      (.switchIn p, 0x32, []), (.stageMap p, 0x33, []), (.stageSeal p, 0x34, []), (.adoptDrive p, 0x35, []), (.submit p, 0x40, []),
      (.cancel p, 0x41, []), (.prefixRelease p, 0x42, []), (.regDelivery p n, 0x43, toBytes n 8), (.finalRead p, 0x44, []),
      (.disable p, 0x50, []), (.enable p, 0x51, []), (.regRead p, 0x60, []), (.regWrite p, 0x61, []), (.attest p, 0x62, []),
      (.eventCfg p, 0x63, []), (.unknownOp 0x99 p, 0x99, [])] : List (Instr × Nat × List Byte)) →
    exec c s = .next ((s.occupy p.qp).serialise i op p extra [] 64)

/-- R286 to R288, R291, R15: what the commands about ownership and configuration do, with their reply. -/
def Obligations.OwnershipAndConfigurationCommands : Prop :=
  ∀ (s : State) (i : Nat) (v : Session) (p : Pkt),
    (s.ownerTurn i v 0x05 p → p.body = [] →
      Completes (.heartbeat p) s (fun t => t.host.lease = some (s.now + 1000000 * s.rd F.LEASE_CFG_MS) ∧
        t.answered i 0x05 p 0 (s.rd F.OWNER_STATUS_SESSION) [] ∧ t.arr = s.arr ∧ t.mas = s.mas ∧ t.fuses = s.fuses)) ∧
    (s.inTurn i v 0x10 p → actBit p = false → p.body = [] → s.flag F.OWNER_STATUS_OWNED = false → bitOf v.roles 0 = true →
      Completes (.claim p) s (fun t => t.flag F.OWNER_STATUS_OWNED = true ∧ t.rd F.OWNER_STATUS_SESSION = sessionField i v.gen % 2 ^ 16 ∧
        t.host.lease = some (s.now + 1000000 * s.rd F.LEASE_CFG_MS) ∧ t.answered i 0x10 p 0 0 [])) ∧
    (∀ j u, s.ownerTurn i v 0x11 p → p.body.length = 2 → at' p.body 0 2 = sessionField j u.gen → j < 256 → j ≠ i → s.session j = some u →
      u.st = .active → u.closing = 0 → bitOf u.roles 0 = true →
      Completes (.handover p) s (fun t => t.flag F.OWNER_STATUS_OWNED = true ∧ t.rd F.OWNER_STATUS_SESSION = sessionField j u.gen ∧
        t.answered i 0x11 p 0 0 [])) ∧
    (s.ownerTurn i v 0x12 p → p.body = [] →
      Completes (.release p) s (fun t => t.flag F.OWNER_STATUS_OWNED = false ∧ t.host.lease = none ∧ t.answered i 0x12 p 0 0 [])) ∧
    (s.ownerTurn i v 0x13 p → p.body.length = 4 → 1000 ≤ at' p.body 0 4 → at' p.body 0 4 ≤ 60000 →
      Completes (.setLease p) s (fun t => t.rd F.LEASE_CFG_MS = at' p.body 0 4 ∧ t.host.lease = s.host.lease ∧
        t.answered i 0x13 p 0 0 [])) ∧
    (s.ownerTurn i v 0x14 p → p.body = [] →
      Completes (.sealConfig p) s (fun t => t.host.isSealed = true ∧ t.answered i 0x14 p 0 0 [])) ∧
    (s.inTurn i v 0x63 p → actBit p = false → p.body.length = 4 →
      Completes (.eventCfg p) s (fun t => (t.session i).map (·.mask) = some (at' p.body 0 4) ∧ t.answered i 0x63 p 0 0 []))

/-- R288: HANDOVER to an ACTIVE or DETACHED session with PLATFORM passes ownership in one step, with a fresh lease; to another it
is turned away and nothing changes; RELEASE makes the module unowned; SET_LEASE takes 1,000 to 60,000 ms, from the next renewal. -/
def Obligations.HandoverReleaseAndLease : Prop :=
  ∀ (s : State) (i : Nat) (v : Session) (p : Pkt),
    (∀ j u, s.ownerTurn i v 0x11 p → p.body.length = 2 → at' p.body 0 2 = sessionField j u.gen → j < 256 → s.session j = some u →
      u.st = .active ∨ u.st = .detached → u.closing ≠ 2 →
      (bitOf u.roles 0 = true → Completes (.handover p) s (fun t => t.ownerIndex = some j ∧
        t.rd F.OWNER_STATUS_SESSION = sessionField j u.gen ∧ t.host.lease = some (s.now + 1000000 * s.rd F.LEASE_CFG_MS) ∧
        t.answered i 0x11 p stOk 0 [])) ∧
      (bitOf u.roles 0 = false → Completes (.handover p) s (fun t => t.answered i 0x11 p stNotpermitted 0 [] ∧ s.onlyAnswers t i 0x11 p))) ∧
    (s.ownerTurn i v 0x11 p → p.body.length = 2 →
      (∀ u, s.session (at' p.body 0 2 % 256) = some u → sessionField (at' p.body 0 2 % 256) u.gen = at' p.body 0 2 →
        (u.st ≠ .active ∧ u.st ≠ .detached) ∨ u.closing = 2) →
      Completes (.handover p) s (fun t => t.answered i 0x11 p stNotfound 0 [] ∧ s.onlyAnswers t i 0x11 p)) ∧
    (s.ownerTurn i v 0x12 p → p.body = [] →
      Completes (.release p) s (fun t => t.ownerIndex = none ∧ t.host.lease = none ∧ t.answered i 0x12 p stOk 0 [])) ∧
    (s.ownerTurn i v 0x13 p → p.body.length = 4 → 1000 ≤ at' p.body 0 4 → at' p.body 0 4 ≤ 60000 →
      Completes (.setLease p) s (fun t => t.host.lease = s.host.lease ∧
        t.renewLease.host.lease = some (s.now + 1000000 * at' p.body 0 4) ∧ t.answered i 0x13 p stOk 0 [])) ∧
    (s.ownerTurn i v 0x13 p → p.body.length = 4 → at' p.body 0 4 < 1000 ∨ 60000 < at' p.body 0 4 →
      Completes (.setLease p) s (fun t => t.answered i 0x13 p stRefused 0 [] ∧ s.onlyAnswers t i 0x13 p))

/-- R289, R293 to R295: with every die in service between steps and no change waiting, a protection change is applied and answered at
once; that of a memory window answers its RKEY, free but for the window's number (notes/assumptions/33), and leaves the registers to
the reply. -/
def Obligations.ProtectionChangesApply : Prop :=
  ∀ (s : State) (i : Nat) (v : Session) (p : Pkt), s.host.changes = [] → (∀ d ∈ s.diesInService, s.dieBetweenSteps d = true) →
    (s.ownerTurn i v 0x20 p → p.body.length = 12 → at' p.body 0 2 < 4096 → at' p.body 2 1 ≤ 1 → at' p.body 3 1 = 0 →
      Completes (.setTenantWindow p) s (fun t => t.rd F.TENANT_WINDOW_ENABLED (at' p.body 0 2) = at' p.body 2 1 ∧
        t.rd F.TENANT_WINDOW_GROUPS (at' p.body 0 2) = at' p.body 4 8 ∧ t.answered i 0x20 p 0 0 [] ∧ t.host.changes = [] ∧
        ∀ d ∈ s.diesInService, SMap.find? (t.dieProt d).tenants (at' p.body 0 2) = some (decide (at' p.body 2 1 = 1), at' p.body 4 8))) ∧
    (s.ownerTurn i v 0x21 p → p.body.length = 20 → 0 < at' p.body 0 2 → at' p.body 0 2 < 4096 → at' p.body 2 1 < 8 → at' p.body 3 1 = 0 →
      at' p.body 4 2 < 4096 → at' p.body 6 2 = 0 → at' p.body 8 8 % pageBytes = 0 → at' p.body 8 8 < 2 ^ 52 →
      Completes (.setMemWindow p) s (fun t => t.fresh = s.fresh + 1 ∧ t.host.changes = [] ∧
        t.answered i 0x21 p 0 (Config.freeNat s.fresh % 2 ^ 20 * 4096 + at' p.body 0 2) [] ∧
        s.regsBut t F.JOURNAL_JSN_VALUE.words)) ∧
    (s.ownerTurn i v 0x22 p → p.body.length = 6 → at' p.body 0 1 < 4 → at' p.body 1 1 < 4 → at' p.body 2 1 ≤ 1 → at' p.body 3 1 = 0 →
      at' p.body 4 2 < 4096 →
      Completes (.setCtxOwner p) s (fun t => t.rd F.CTX_OWNER_DEDICATED (4 * at' p.body 0 1 + at' p.body 1 1) = at' p.body 2 1 ∧
        t.rd F.CTX_OWNER_TENANT (4 * at' p.body 0 1 + at' p.body 1 1) = at' p.body 4 2 ∧ t.answered i 0x22 p 0 0 [])) ∧
    (s.ownerTurn i v 0x23 p → p.body.length = 3 → at' p.body 2 1 < 64 →
      Completes (.setPkgGroup p) s (fun t => t.rd ⟨.PKG_GROUP, 8 * (at' p.body 0 2 % 4), 6⟩ (at' p.body 0 2 / 4) = at' p.body 2 1 ∧
        t.answered i 0x23 p 0 0 []))

/-- R31, R291, R446: a register read answers its words, a write the value after it, and an attestation a report with the nonce. -/
def Obligations.RegisterAndAttestationCommands : Prop :=
  ∀ (s : State) (i : Nat) (v : Session) (p : Pkt), s.lc ≠ .retired → s.modState ≠ 1 →
    (s.inTurn i v 0x60 p → actBit p = false → p.body = toBytes (Reg.addr .PWR_CAP 0 .glob 0) 4 ++ toBytes 1 2 →
      Completes (.regRead p) s (fun t => t.answered i 0x60 p 0 0 (toBytes (s.view .PWR_CAP 0 .glob 0).toNat 4) ∧
        s.regsBut t F.JOURNAL_JSN_VALUE.words)) ∧
    (∀ x, s.ownerTurn i v 0x61 p → x ≤ 60000 → p.body = toBytes (Reg.addr .PWR_DRAIN_MS 0 .glob 0) 4 ++ toBytes x 4 →
      Completes (.regWrite p) s (fun t => t.rd F.PWR_DRAIN_MS_MS = x ∧
        t.answered i 0x61 p 0 0 (toBytes (t.view .PWR_DRAIN_MS 0 .glob 0).toNat 4) ∧
        s.regsBut t (F.PWR_DRAIN_MS_MS.words ++ F.JOURNAL_JSN_VALUE.words))) ∧
    (s.inTurn i v 0x62 p → actBit p = false → p.body.length = 32 → 2 ≤ s.modState → s.modState ≤ 5 →
      Completes (.attest p) s (fun t => ∃ b, t.answered i 0x62 p 0 0 b ∧ (b.drop 32).take 32 = p.body))

/-- R277, R291: a packet whose MAGIC or VERSION is wrong is dropped and counted; a known form with an unknown OPCODE is answered
UNKNOWN_OP in its session. -/
def Obligations.BadPacketsAreTurnedAway : Prop :=
  ∀ (s : State) (i : Nat) (v : Session) (p : Pkt) (op magic version : Nat),
    (s.arrives p (some i) → (magic ≠ 0x444D4358 ∨ version ≠ 1) →
      Completes (.malformedPacket magic version op p) s (fun t =>
        t.rd F.MALFORMED_COUNT = (s.rd F.MALFORMED_COUNT + 1) % 2 ^ F.MALFORMED_COUNT.w ∧ t = { s with regs := t.regs } ∧
        s.regsBut t F.MALFORMED_COUNT.words)) ∧
    (s.inTurn i v op p → actBit p = false → knownOp op = false →
      Completes (.unknownOp op p) s (fun t => t.answered i op p stUnknown 0 []))

/-- R279, R280: OPEN makes a session OPENING, OPEN_CONFIRM and ATTACH bind a queue pair and make it ACTIVE, CLOSE of a session without
open requests is answered OK; an OPENING session not confirmed in 1 s goes, and a DETACHED one closes after HOLD_S. -/
def Obligations.SessionsOpenAndClose : Prop :=
  ∀ (s : State) (i : Nat) (v : Session) (p : Pkt),
    (s.arrives p none → p.session = 0 → p.tag = 0#128 → headerBad p = false → p.body.length = 800 → s.mayOpen p.qp = true →
      s.credGood (p.body.take 704) = true → Sm2.onCurve (Sm2.pointOf ((p.body.drop 704).take 64)) = true →
      (bitOf (at' p.body 5 1) 0 = true ∨ bitOf (at' p.body 5 1) 1 = true) → s.freeIndex p.qp = some i →
      Completes (.openSession p) s (fun t => ∃ u, t.session i = some u ∧ u.st = .opening ∧ u.roles = at' p.body 5 1 ∧
        u.gen = SMap.getD s.host.gens i 0 % 255 + 1 ∧ u.since = s.now ∧ t.fresh = s.fresh + 2)) ∧
    (s.arrives p none → i < 256 → s.session i = some v → v.st = .opening → v.closing = 0 → p.session = sessionField i v.gen →
      goodTag v.keyHm 2 p = true → p.seq = 0 → headerBad p = false → p.body = v.confirm → p.body.length = 32 → s.boundAll < 1024 →
      s.bulky i = false → s.jr.table = [] →
      Completes (.openConfirm p) s (fun t => (t.session i).map (·.st) = some .active ∧ (t.qp p.qp).bind (·.bound) = some i)) ∧
    (s.arrives p none → i < 256 → s.session i = some v → v.st = .detached → v.qps = [] → v.closing = 0 → p.session = sessionField i v.gen →
      goodTag v.keyHm 3 p = true → p.seq = 0 → headerBad p = false → p.body.length = 8 → v.attach < at' p.body 0 8 → s.boundAll < 1024 →
      s.bulky i = false → s.jr.table = [] →
      Completes (.attach p) s (fun t => (t.session i).map (·.st) = some .active ∧ (t.session i).map (·.attach) = some (at' p.body 0 8) ∧
        (t.qp p.qp).bind (·.bound) = some i)) ∧
    (s.inTurn i v 0x04 p → actBit p = false → p.body = toBytes 0 4 → s.openRequests i v.gen = [] → s.mayFree i v.gen = true →
      s.jr.queue = [] →
      Completes (.close p) s (fun t => t.answered i 0x04 p 0 0 [])) ∧
    (i ≤ 256 → s.session i = some v → v.st = .opening → v.since + 1000000000 ≤ s.now →
      Completes (.openTimeout i) s (fun t => t.session i = none ∧ t = { s with host := { s.host with sessions := t.host.sessions } })) ∧
    (i < 256 → s.session i = some v → v.st = .detached → v.since + 1000000000 * s.rd F.SESSION_CFG_HOLD_S ≤ s.now →
      Completes (.sessionHoldExpiry i) s (fun t => t = (s.startClose i v).tkDropHeld))

/-- R283, R287, R289: the protocol's deadlines: the lease warning, the end of a lease, a command held for 100 ms, and a protection change
that no die in service still waits with. -/
def Obligations.ProtocolDeadlines : Prop :=
  ∀ (s : State) (i u : Nat) (v : Session),
    (s.ownerIndex = some i → s.host.lease = some u → s.host.warnAt ≤ s.now → s.host.warned = false →
      Completes .leaseWarn s (fun t => t.host.warned = true ∧ t.host.lease = some u ∧ t.regs = s.regs ∧ t.stew = s.stew)) ∧
    (s.host.lease = some u → u ≤ s.now → s.flag F.OWNER_STATUS_OWNED = true →
      Completes .leaseExpiry s (fun t => t.flag F.OWNER_STATUS_OWNED = false ∧ t.host.lease = none ∧ t.stew = s.stew ∧ t.mas = s.mas)) ∧
    (∀ h, i ≤ 256 → s.session i = some v → v.held.find? (fun g => decide (g.pkt.seq = u) && decide (g.since + 100000000 ≤ s.now)) = some h →
      h.waiters = [] →
      Completes (.seqgapTimeout i u) s (fun t => (∀ g ∈ ((t.session i).map (·.held)).getD [], g.pkt.seq ≠ u) ∧
        t.rd F.SEQGAP_CNT_COUNT = (s.rd F.SEQGAP_CNT_COUNT + 1) % 2 ^ F.SEQGAP_CNT_COUNT.w ∧
        (t.session i).map (·.next) = some v.next)) ∧
    (∀ c, s.host.changes = [c] → c.waiting = [] → Completes .protectionApplied s (fun t => t.host.changes = [] ∧
      t = ({ s with host := { s.host with changes := [] } }).answerSeq c.session c.seq 0 c.detail []))

/-- R197, R198, R205, R291: staging by the host: pages are mapped for a memory window, sealed with a zeroed tail, and a foreign drive is
taken over. -/
def Obligations.HostStagingCommands : Prop :=
  ∀ (s : State) (i : Nat) (v : Session) (p : Pkt),
    (∀ a n w, s.ownerTurn i v 0x33 p → p.body = toBytes a 8 ++ toBytes n 4 ++ toBytes w 2 → a < 2 ^ 52 → a % pageBytes = 0 → 0 < n → n < 2 ^ 32 →
      w < 4096 → (∀ k < n, (s.pte (pageOf a + k)).isNone = true ∧ inSystem ((pageOf a + k) * pageBytes) = false ∧
        inMas ((pageOf a + k) * pageBytes) = true) →
      ((s.serial i 0x33 p).mapRange ((List.range n).map (· + pageOf a)) 0 w).2.1 = migOk →
      Completes (.stageMap p) s (fun t => t.answered i 0x33 p 0 0 [] ∧ ∀ k < n, ∃ e, t.pte (pageOf a + k) = some e ∧ e.isSealed = false ∧
        e.mwin = w ∧ e.near = true)) ∧
    (∀ a n len, s.ownerTurn i v 0x34 p → p.body = toBytes a 8 ++ toBytes n 4 ++ toBytes len 2 → a < 2 ^ 52 → a % pageBytes = 0 → 0 < n →
      n < 2 ^ 32 → 0 < len → len ≤ 32768 →
      (∀ k < n, ∃ e, s.pte (pageOf a + k) = some e ∧ e.isSealed = false ∧ e.freeing = false ∧ e.sealing = false) →
      Completes (.stageSeal p) s (fun t => t.answered i 0x34 p 0 0 [] ∧ ∀ k < n, ∃ e, t.pte (pageOf a + k) = some e ∧ e.isSealed = true ∧
        e.len = (if k + 1 = n then len else 32768) ∧
        ∀ b, 64 * e.len ≤ b → b < pageBytes → t.masByte ((pageOf a + k) * pageBytes + b) = 0)) ∧
    (∀ d e, s.ownerTurn i v 0x35 p → p.body = toBytes d 1 → d < 16 → SMap.find? s.mas.drives d = some e → s.rd F.DEEP_DRIVE_STATE d = 2 →
      Completes (.adoptDrive p) s (fun t => t.answered i 0x35 p 0 0 [] ∧ t.rd F.DEEP_DRIVE_STATE d = 1 ∧
        SMap.find? t.mas.drives d = some { e with header := s.driveIdent, slot := d, records := [] }))

/-- R235, R242, R244: an INSTALL that nothing refuses is ACCEPTED and, without staging frames, waits for them; a SWITCH_IN of a package
being installed is ACCEPTED and waits for it; an UNINSTALL of an INSTALLED package that nothing binds frees it. -/
def Obligations.PackageCommandsAct : Prop :=
  ∀ (s : State) (i : Nat) (v : Session) (p : Pkt),
    (∀ header hd a, s.ownerTurn i v 0x30 p → installArgs p.body = some a →
      hd = (if bitOf a.flags 2 then s.stagedHeader a.imageBase else header) → s.pkg a.handle = none → s.inst a.handle = none →
      s.installRefusal a hd = none → bitOf a.flags 0 = false → s.stagingRoom = false → s.installsRunning < 8 →
      Completes (.install p header) s (fun t => t.answered i 0x30 p 1 0 [] ∧ t.pkg a.handle = some (installPkg a hd) ∧
        ∃ j, t.inst a.handle = some j ∧ j.phase = 1 ∧ j.since = s.now ∧ j.header = hd ∧ j.users = [(i, p.seq)])) ∧
    (∀ q, s.ownerTurn i v 0x31 p → p.body.length = 2 → s.pkg (at' p.body 0 2) = some q → q.st = .installed → q.switching = none →
      q.bound = 0 → Completes (.uninstall p) s (fun t => t.answered i 0x31 p 0 0 [] ∧ t.pkg (at' p.body 0 2) = none)) ∧
    (∀ q, s.ownerTurn i v 0x32 p → s.noServing = false → p.body.length = 10 → 1 ≤ at' p.body 2 2 → at' p.body 2 2 ≤ 1023 →
      s.pkg (at' p.body 0 2) = some q → q.st = .installing → q.switching = none →
      Completes (.switchIn p) s (fun t => t.answered i 0x32 p 1 0 [] ∧ ∃ w, t.pkg (at' p.body 0 2) = some { q with switching := some w } ∧
        w.budget = at' p.body 2 2 ∧ w.limit = at' p.body 4 4 ∧ w.window = at' p.body 8 2 ∧ w.users = [(i, p.seq)]))

/-- R251, R265, R296 to R298, R300: what a submission, a cancel, a ring and a final record's read do for the tenant they act for. -/
def Obligations.RequestCommandsAct : Prop :=
  ∀ (s : State) (i : Nat) (v : Session) (p : Pkt),
    (∀ slot, s.tenantTurn i v 0x40 p → s.submitBad i p.body = false → s.tenantDisabled p.tenant = false →
      s.jrTight (180 + at' p.body 76 4) = false → s.lowestSlot = some slot →
      (at' p.body 72 4 = 0 → Completes (.submit p) s (fun t => ∃ r, t.req slot = some r ∧ r.st = .waiting ∧ r.session = i ∧ r.sub = p.seq ∧
        r.tenant = p.tenant ∧ r.input = p.body.drop 80 ∧ r.fetching = false ∧
        ∃ q ∈ t.jr.queue, q.slot = slot ∧ q.pay = .accept p.session p.seq p.tenant r.desc r.input)) ∧
      (at' p.body 72 4 ≠ 0 → Completes (.submit p) s (fun t => ∃ r, t.req slot = some r ∧ r.st = .waiting ∧ r.sub = p.seq ∧ r.fetching = true ∧
        t.out = .rdmaRead p.qp (at' p.body 64 8) (at' p.body 72 4) (at' p.body 76 4) :: s.out))) ∧
    (∀ r, s.tenantTurn i v 0x41 p → p.body.length = 12 → s.findLocal (at' p.body 0 2) (at' p.body 2 2) (at' p.body 4 8) = some r →
      r.tenant = p.tenant → r.st ≠ .ending →
      Completes (.cancel p) s (fun t => t.req (at' p.body 0 2) = some { r with cancelled := true, cancels := r.cancels ++ [(i, p.seq)] } ∧
        ∃ q ∈ t.jr.queue, q.slot = at' p.body 0 2 ∧ q.pay = .cancel (at' p.body 2 2) r.sub)) ∧
    (∀ x, s.tenantTurn i v 0x42 p → p.body.length = 8 → s.pfx p.tenant (at' p.body 0 8) = some x → 0 < x.refs →
      Completes (.prefixRelease p) s (fun t => t.answered i 0x42 p 0 0 [] ∧
        (t.pfx p.tenant (at' p.body 0 8)).map (·.released) = some true ∧ t.mas = s.mas)) ∧
    (∀ n, s.inTurn i v 0x43 p → actBit p = false → p.body.length = 32 → at' p.body 0 2 < 64 → at' p.body 2 2 = 0 → 64 ≤ at' p.body 4 4 →
      at' p.body 4 4 ≤ 65536 → 65536 % at' p.body 4 4 = 0 → SMap.find? s.host.rings (ringKey i (at' p.body 0 2)) = none →
      (s.serial i 0x43 p).bulky i = false → s.jr.table = [] →
      Completes (.regDelivery p n) s (fun t => t.answered i 0x43 p 0 0 [] ∧ ∃ g, SMap.find? t.host.rings (ringKey i (at' p.body 0 2)) = some g ∧
        g.entries = at' p.body 4 4 ∧ g.addr = at' p.body 8 8 ∧ g.rkey = at' p.body 16 4 ∧ g.cRkey = at' p.body 20 4 ∧
        g.cAddr = at' p.body 24 8 ∧ g.produced = 0 ∧ g.consumed = 0)) ∧
    (∀ r, s.tenantTurn i v 0x44 p → p.body.length = 12 → s.findLocal (at' p.body 0 2) (at' p.body 2 2) (at' p.body 4 8) = some r →
      r.tenant = p.tenant →
      Completes (.finalRead p) s (fun t => t.answered i 0x44 p 0 0 (finalRecord (at' p.body 0 2) r (at' p.body 2 2) 0xFFFF) ∧
        t.stew = s.stew))

/-- R266, R267, R291: a DISABLE of a tenant is ACCEPTED and runs to its deadline; a DISABLE that has no work left completes OK; at the
deadline its requests are cut off; an ENABLE ends it. -/
def Obligations.DisableAndEnable : Prop :=
  ∀ (s : State) (i : Nat) (v : Session) (p : Pkt) (id ms : Nat), id < 4096 →
    (s.ownerTurn i v 0x50 p → p.body = toBytes 0 2 ++ toBytes id 2 ++ toBytes ms 4 → ms ≤ 60000 →
      s.stew.disables.find? (fun d => decide (d.kind = .tenant) && decide (d.id = id)) = none →
      Completes (.disable p) s (fun t => t.answered i 0x50 p 1 0 [] ∧ t.stew.disables = s.stew.disables ++
        [{ kind := .tenant, id := id, retire := false, deadline := s.now + 1000000 * ms, since := s.now, passed := [],
           waiters := [(i, p.seq)] }])) ∧
    (s.ownerTurn i v 0x51 p → p.body = toBytes 0 2 ++ toBytes id 2 →
      s.stew.disables.any (fun d => decide (d.kind = .tenant) && decide (d.id = id)) = false →
      Completes (.enable p) s (fun t => t.answered i 0x51 p 0 0 [] ∧ (.tenant, id) ∉ t.stew.disabled)) ∧
    (∀ d, s.stew.disables = [d] → d.kind = .tenant → d.id = id → (∀ x < 4, s.disableOnDie d x = true → x ∈ d.passed) →
      s.workOf .tenant id = [] → s.modState ≠ 3 →
      s.boot.drainTo = none →
      Completes (.disableComplete .tenant id) s (fun t => t.stew.disables = [] ∧ (.tenant, id) ∈ t.stew.disabled ∧ t.mas = s.mas)) ∧
    (∀ d, s.stew.disables = [d] → d.kind = .tenant → d.id = id → d.deadline ≤ s.now → s.stew.flights = [] →
      s.workOf .tenant id = [] →
      Completes (.drainDeadline .tenant id none) s (fun t => t = { s with stew := { s.stew with disables := [{ d with passed := [0, 1, 2, 3] }] } }))

/-- R296, R298, R300: an input that arrives makes its submission accepted, a failed fetch answers FAULT and frees the slot; the oldest
waiting token is written at its place in the ring; a count read moves the ring's consumer on; a final record is sent once it may be, and
readable for FINAL_KEEP_S. -/
def Obligations.TokensAndFinalRecordsAreDelivered : Prop :=
  ∀ (s : State) (i ring slot : Nat), i < 256 → ring < 64 → slot < 65536 →
    (∀ r b q, s.req slot = some r → r.fetching = true → s.pkg (rqPkg (rqD r)) = some q →
      Completes (.inputFetchComplete slot (some b)) s (fun t => ∃ u, t.req slot = some u ∧ u.fetching = false ∧
        u.input = b.take (rqPrompt (rqD r) * q.tmpl.inBytes) ∧ u.acceptJsn = t.rd F.JOURNAL_JSN_VALUE)) ∧
    (∀ r, s.req slot = some r → r.fetching = true → Completes (.inputFetchComplete slot none) s (fun t => t.req slot = none)) ∧
    (∀ v g x l, s.session i = some v → v.st = .active → SMap.find? s.host.rings (ringKey i ring) = some g → g.waiting = x :: l →
      ringFull g = false → x.origin = none →
      Completes (.tokenDelivery i ring) s (fun t =>
        SMap.find? t.host.rings (ringKey i ring) = some { g with produced := g.produced + 1, written := g.written ++ [x], waiting := l } ∧
        t.out = .rdmaWrite (s.tokenQp v x) (g.addr + 32 * (g.produced % g.entries)) g.rkey (ring + 65536 * (g.produced % 65536)) (ringEntry x) :: s.out ∧
        SMap.find? t.jr.written x.slot = some x.index ∧ x.slot ∈ t.jr.progress ∧ t.stew = s.stew ∧ t.regs = s.regs)) ∧
    (∀ g n, SMap.find? s.host.rings (ringKey i ring) = some g → ringFull g = true →
      Completes (.consumerCountRead i ring n) s (fun t => ∃ u, SMap.find? t.host.rings (ringKey i ring) = some u ∧
        u.consumed = max g.consumed (min n g.produced) ∧ u.produced = g.produced ∧ u.waiting = g.waiting ∧
        t = { s with host := { s.host with rings := t.host.rings } })) ∧
    (∀ r v, s.jActive = true → s.req slot = some r → s.session r.session = some v → r.finalAcked = true → r.member = none → v.st = .active → v.gen = r.gen →
      v.closing = 0 → s.tokenWaits none r.session (rqRing (rqD r)) slot r.sub = false →
      Completes (.finalEvent none slot) s (fun t => t.req slot = none ∧
        (slot, sessionField r.session r.gen, r.sub, finalRecord slot r (sessionField r.session r.gen) 0xFFFF, some (s.now + s.keepNs))
          ∈ t.stew.kept ∧ t.regs = s.regs ∧ t.mas = s.mas)) ∧
    Completes .finalRecordExpiry s (fun t => (∀ k ∈ t.stew.kept, k ∈ s.stew.kept ∧ ∀ u, k.2.2.2.2 = some u → s.now < u) ∧
      t = { s with stew := { s.stew with kept := t.stew.kept } })

/-- R272 to R274, R280: connections are made while fewer than 64 wait to be bound, a lost queue pair leaves its session, pauses are
timed, and a send rate is halved at a notification and recovers by 5 % of line rate. -/
def Obligations.QueuePairsAndCongestion : Prop :=
  ∀ (s : State) (q port : Nat), q < 4096 → port < 4 →
    (s.dark = false → s.flag F.HOST_PORT_STATUS_LINK_UP port = true → s.qp q = none →
      SMap.countIf s.host.qps (fun _ v => v.bound.isNone && !v.error) < 64 →
      Completes (.cmConnect q port) s (fun t => ∃ v, t.qp q = some v ∧ v.port = port ∧ v.bound = none ∧ v.error = false ∧ v.used = 0 ∧
        v.rate = s.lineRate port ∧ t = { s with host := { s.host with qps := t.host.qps } })) ∧
    (∀ v i u, s.qp q = some v → v.error = false → v.bound = some i → s.session i = some u → u.st = .active → u.qps = [q] →
      Completes (.qpError q) s (fun t => t.qp q = some { v with bound := none, error := true, used := 0 } ∧
        ∃ x, t.session i = some x ∧ x.st = .detached ∧ x.qps = [] ∧ x.since = s.now)) ∧
    (∀ v, s.qp q = some v → v.error = false → s.flag F.HOST_PORT_CFG_ECN_EN v.port = true →
      (v.rate = s.lineRate v.port ∨ v.halved + 50000 ≤ s.now) →
      Completes (.cnpReceive q) s (fun t => t.qp q = some { v with rate := max 1000 (v.rate / 2), halved := s.now, raised := s.now } ∧
        t = { s with host := { s.host with qps := t.host.qps } })) ∧
    (∀ v, s.qp q = some v → s.flag F.HOST_PORT_CFG_ECN_EN v.port = true → v.rate < s.lineRate v.port → v.raised + 55000 ≤ s.now →
      Completes (.rateRecovery q) s (fun t => t.qp q = some { v with
          rate := min (s.lineRate v.port) (v.rate + s.lineRate v.port / 20), raised := s.now } ∧
        t = { s with host := { s.host with qps := t.host.qps } })) ∧
    (s.flag F.HOST_PORT_STATUS_LINK_UP port = true → SMap.find? s.host.paused port = none →
      Completes (.pfcPause port (s.rd F.HOST_PORT_CFG_PFC_PRIO port) true) s (fun t => SMap.find? t.host.paused port = some (some s.now) ∧
        t = { s with host := { s.host with paused := t.host.paused } })) ∧
    (∀ u, SMap.find? s.host.paused port = some (some u) → u + 100000000 ≤ s.now →
      Completes (.pfcStorm port) s (fun t => t.flag F.HOST_PORT_STATUS_PFC_STORM port = true ∧
        SMap.find? t.host.paused port = some none)) ∧
    (s.flag F.HOST_PORT_STATUS_LINK_UP port = true → s.host.qps = [] →
      Completes (.hostPortLinkChange port false 0) s (fun t => t.flag F.HOST_PORT_STATUS_LINK_UP port = false ∧ t.stew = s.stew)) ∧
    (∀ rate, s.flag F.HOST_PORT_STATUS_LINK_UP port = false → s.rd F.BOOT_STATUS_STAGE = 7 → s.lc ≠ .factory → 0 < rate → rate ≤ 2 →
      0 < s.rd F.HOST_PORT_CFG_SPEED port →
      Completes (.hostPortLinkChange port true rate) s (fun t => t.flag F.HOST_PORT_STATUS_LINK_UP port = true ∧
        t.rd F.HOST_PORT_STATUS_SPEED_ACT port = min rate (s.rd F.HOST_PORT_CFG_SPEED port)))

/-- R294: a host's RDMA access that its window, rights and pages allow reads or writes exactly its range; any other is refused by a NAK,
changes no byte of memory, and puts the queue pair in the error state. -/
def Obligations.HostRdmaIsChecked : Prop :=
  ∀ (s : State) (q rkey a n i : Nat) (k : Qp) (v : Session), s.dark = false → s.boot.failAt = none → s.qp q = some k → k.error = false →
    k.bound = some i → s.session i = some v →
    (∀ b, s.rdmaAllowed v true rkey a b.length = true → s.rangeAccess State.writeAccess a b.length = .ok →
      Completes (.hostRdmaAccess q rkey a n (some b)) s (fun t =>
        (∀ x < b.length, t.masByte (a + x) = b.getD x 0) ∧ (∀ x, x < a ∨ a + b.length ≤ x → t.masByte x = s.masByte x) ∧ t.out = s.out)) ∧
    (s.rdmaAllowed v false rkey a n = true → s.rangeAccess State.readAccess a n = .ok →
      Completes (.hostRdmaAccess q rkey a n none) s (fun t => t.out = .hostData q (s.masBytes a n) :: s.out ∧ t.mas.mem = s.mas.mem)) ∧
    (∀ b, s.rdmaAllowed v true rkey a b.length = false →
      Completes (.hostRdmaAccess q rkey a n (some b)) s (fun t => t.mas = s.mas ∧ .hostNak q .remoteAccess ∈ t.out ∧
        (t.qp q).map (·.error) = some true))

/-! ## Compute tiles -/

/-- R63, R68, R74, R371: an iteration of a lane operation between registers (VADD, VSUB, VMUL, VFMA, VMIN, VMAX, VCMP, VSEL, VAND, VOR,
VSHL, VSHR, VEXP2, VRCP, VRSQRT) completes: it writes to every lane of its destination what the operation gives of the lanes of its
sources, gathers their flags, reports a residue that does not agree, and changes nothing else but its counts. -/
def Obligations.LaneOperationsMapTheirOperands : Prop :=
  ∀ (s : State) (die y x c w : Nat), s.inVecWord die y x c w → opA w < 32 → opB w < 32 → opC w < 32 → opDst w < 32 →
    ∀ p ∈ laneCommands die y x, opOpc w = p.2 →
      let k := if bitOf (opMod w) 1 then (s.tile die y x c).vIter else 0
      let a := s.vreg die y x c (stepSpec (opA w) k)
      let b := s.vreg die y x c (stepSpec (opB w) k)
      let d := s.vreg die y x c (stepSpec (opC w) k)
      let n := fmtWidth (opFmt w)
      Completes p.1 s (fun t =>
        (∀ j < 1024 / n, lane (t.vreg die y x c (stepSpec (opDst w) k)) n j =
          (laneOp p.2 (opFmt w) (opImm w) (lane a n j) (lane b n j) (lane d n j)).1 % 2 ^ n) ∧
        s.writesReg t die y x c (stepSpec (opDst w) k) (t.vreg die y x c (stepSpec (opDst w) k))
          (mapLanes p.2 (opFmt w) (opImm w) a b d).2
          (lanesResidueOk p.2 (opFmt w) a (if 2 ≤ vecArity p.2 then b else 0) (if 3 ≤ vecArity p.2 then d else 0)))

/-- R74: what moves, shuffles, reductions and conversions between registers write. The forms without INC; a conversion writes the part
that IMM selects and keeps the rest of its destination. -/
def Obligations.MovesReductionsAndConversions : Prop :=
  ∀ (s : State) (die y x c w : Nat), s.inVecWord die y x c w → opA w < 32 → opB w < 32 → opDst w < 32 → bitOf (opMod w) 1 = false →
    let a := s.vreg die y x c (opA w)
    let b := s.vreg die y x c (opB w)
    let old := s.vreg die y x c (opDst w)
    (opOpc w = 0x3D → Completes (.vmov die y x) s (fun t => s.writesReg t die y x c (opDst w) a 0)) ∧
    (opOpc w = 0x38 → Completes (.vshuf die y x) s (fun t =>
      (∀ j < 32, lane (t.vreg die y x c (opDst w)) 32 j = lane a 32 (shufIndex (opImm w) b j)) ∧
      s.writesReg t die y x c (opDst w) (t.vreg die y x c (opDst w)) 0)) ∧
    (opOpc w = 0x39 → Completes (.vred die y x) s (fun t =>
      (∀ j < 32, lane (t.vreg die y x c (opDst w)) 32 j = (reduce (opFmt w) (opImm w) (lanes a 32)).1 % 2 ^ 32) ∧
      s.writesReg t die y x c (opDst w) (t.vreg die y x c (opDst w)) (reduce (opFmt w) (opImm w) (lanes a 32)).2)) ∧
    (opOpc w = 0x36 → Completes (.vmxup die y x) s (fun t =>
      let r := mxUnpack (opFmt w) a (opImm w / 16 % 4 % mxSlots (opFmt w))
      s.writesReg t die y x c (opDst w) r.1 r.2)) ∧
    (opOpc w = 0x35 → Completes (.vmxpk die y x) s (fun t =>
      let half := if opFmt w = 1 then 32 * (opImm w / 64 % 2) else 0
      let r := mxPack (opImm w % 16) ((List.range 32).map (fun j => Num.decode (fmtF (opFmt w)) (lane a (fmtWidth (opFmt w)) (half + j)))) old
        (opImm w / 16 % 4 % mxSlots (opImm w % 16))
      s.writesReg t die y x c (opDst w) r.1 r.2)) ∧
    (opOpc w = 0x34 → Completes (.vcvt die y x) s (fun t =>
      let n := fmtWidth (opFmt w)
      let m := fmtWidth (opImm w % 16)
      let part := opImm w / 16 % 4
      let conv := fun j => (convLane (opFmt w) (opImm w % 16) (bitOf (opMod w) 0) (lane a n j)).1 % 2 ^ m
      let v := t.vreg die y x c (opDst w)
      (m < n → (∀ j < 1024 / n, lane v m (part % (n / m) * (1024 / n) + j) = conv j) ∧
        (∀ j < 1024 / m, j / (1024 / n) ≠ part % (n / m) → lane v m j = lane old m j)) ∧
      (n ≤ m → ∀ j < 1024 / m, lane v m j = conv (part % (m / n) * (1024 / m) + j)) ∧
      ∃ f, s.writesReg t die y x c (opDst w) v f))

/-- R63, R79, R81: with operands and destinations of any kind: an iteration that lacks an operand does nothing, one whose destination has
no room leaves its operands where they are and waits there, and any other takes its operands, writes its result and counts. -/
def Obligations.VectorIterationsTakeAllOrNothing : Prop :=
  ∀ (s : State) (die y x c w : Nat), s.inVecWord die y x c w →
    ∀ p ∈ laneCommands die y x ++ tokenCommands die y x, opOpc w = p.2 →
      (s.vecEval die y x c w (s.tile die y x c).vIter = none → Completes p.1 s (fun t => t = s)) ∧
      ∀ r, s.vecEval die y x c w (s.tile die y x c).vIter = some r →
        (s.dstRoom die y x c r.dst = false → Completes p.1 s (fun t => t = s.waitDst die y x c r.dst ∧
          ∀ sp, t.source die y x c sp (fmtWidth (opFmt w)) = s.source die y x c sp (fmtWidth (opFmt w)))) ∧
        (s.dstRoom die y x c r.dst = true → Completes p.1 s (fun t =>
          t = ((((s.consumeAll die y x c r.uses).writeDst die y x c r.dst r.lw r.value).tileFlags die y x c r.flags).residue die y x c
            0x0C r.checked).vecIssued die y x c ∧
          t.rd F.TILE_VBUSY_COUNT c (.tile die y x) = (s.rd F.TILE_VBUSY_COUNT c (.tile die y x) + 1) % 2 ^ 32))

/-- R71, R72, R75, R76: a matrix cycle adds one activation row to one accumulator row, and emits it after the last chunk; VCOMB with
every port present writes the FP32 sum of its starting register, if it has one, and of their tokens in ascending order of ports, in
either order; VSSEND combines the summaries of its iterations with ACCUM and sends the last as eight control tokens. -/
def Obligations.MatrixCombineAndSummary : Prop :=
  ∀ (s : State) (die y x c w : Nat),
    (∀ g act, s.inMatWord die y x c w g → (s.tile die y x c).mRows ≠ 0 → g.tokens ≤ (s.tile die y x c).held.length →
      s.source die y x c (opA w) 32 = some act →
      (mEmit w = true → (s.tile die y x c).mChunks ≤ (s.tile die y x c).mChunk + 1 → s.dstRoom die y x c (opDst w) = true) →
      Completes (.mmac die y x) s (fun t =>
        let u := s.tile die y x c
        let i := s.accIndex die y x c u.mRow
        let start := if u.mChunk = 0 && !(mCont w) then { AccRow.blank with fp := decide (g.kind ≠ .fixed) } else s.accRowAt die y x i
        let r := (accRow g (opFmt w) (opImm w % 16) u.held act (u.mRow % g.rows) start).1
        t.accRowAt die y x i = r ∧ (∀ j, j ≠ i → t.accRowAt die y x j = s.accRowAt die y x j) ∧
        (mEmit w = true → u.mChunks ≤ u.mChunk + 1 → opDst w < 32 → t.vreg die y x c (opDst w) = (emitRow (mI32 w) r).1) ∧
        t.rd F.TILE_MBUSY_COUNT c (.tile die y x) = (s.rd F.TILE_MBUSY_COUNT c (.tile die y x) + 1) % 2 ^ 32 ∧
        t.out = (if accChecked g (opFmt w) (opImm w % 16) u.held act (u.mRow % g.rows) &&
            (!(mEmit w && decide (u.mChunks ≤ u.mChunk + 1)) || rowResidueOk r) then s.out else .unitFault 0x0B die y x c :: s.out) ∧
        t = { s with
          arr := { s.arr with tiles := t.arr.tiles, acc := t.arr.acc, queues := t.arr.queues, idlePosted := t.arr.idlePosted,
                              idleFor := t.arr.idleFor, restFor := t.arr.restFor }
          regs := t.regs
          out := t.out })) ∧
    (∀ (vs : List Tok) (start : Option Tok), s.inVecWord die y x c w → opOpc w = 0x3A → (s.tile die y x c).comb = [] →
      let k := if bitOf (opMod w) 1 then (s.tile die y x c).vIter else 0
      let d := stepSpec (opDst w) k
      (combPorts (opImm w)).map (fun p => s.source die y x c p 32) = vs.map some →
      (if opC w = 47 then start = none else start.isSome = true ∧ s.source die y x c (stepSpec (opC w) k) 32 = start) →
      s.dstRoom die y x c d = true →
      Completes (.vcomb die y x) s (fun t =>
        (d < 32 → t.vreg die y x c d = (start.toList ++ vs).tail.foldl (fun g u => (mapLanes 0x20 0 0 g u 0).1)
            (readTok ((start.toList ++ vs).headD 0)).1 ∧
          s.vecIterated t die y x c ((List.range 65536).map (fun q => queueKey die q c))
            (combChecked (start.map (fun v => (readTok v).1)) vs)) ∧
        (∀ r, r ≠ d → t.vreg die y x c r = s.vreg die y x c r) ∧
        t.rd F.TILE_VBUSY_COUNT c (.tile die y x) = (s.rd F.TILE_VBUSY_COUNT c (.tile die y x) + 1) % 2 ^ 32)) ∧
    (∀ tok, s.inVecWord die y x c w → opOpc w = 0x3C →
      let u := s.tile die y x c
      let one := (summary (opMod w) (lanes tok 32)).1
      let sum := (u.vsum.map (fun p => (combineSummary (opMod w) p one).1)).getD one
      s.source die y x c (stepSpec (opA w) (if bitOf (opMod w) 2 then u.vIter else 0)) 32 = some tok →
      (bitOf (opMod w) 2 = true → u.vIter + 1 < u.vCount → Completes (.vssend die y x) s (fun t =>
        (t.tile die y x c).vsum = some sum ∧ (∀ r, t.vreg die y x c r = s.vreg die y x c r) ∧
        s.vecIterated t die y x c ((List.range 65536).map (fun q => queueKey die q c)))) ∧
      (bitOf (opMod w) 2 = false ∨ u.vCount ≤ u.vIter + 1 → 8 ≤ s.roomAt die (qidOf y x 2 4) c →
        Completes (.vssend die y x) s (fun t =>
          t.queue die (qidOf y x 2 4) c = (summaryToks (opImm w) c y x sum).foldl qPush (s.queue die (qidOf y x 2 4) c) ∧
          (t.tile die y x c).vsum = none ∧ (∀ r, t.vreg die y x c r = s.vreg die y x c r) ∧
          (qToExt (s.queue die (qidOf y x 2 4) c) = false → (s.queue die (qidOf y x 2 4) c).extLen = 0 →
            s.vecIterated t die y x c ((List.range 65536).map (fun q => queueKey die q c))))))

/-- R70: a commit marks the staged parameters pending; a tile without words has both copies at once; a sequencer at its wrap adopts the
pending set. -/
def Obligations.ParametersAreAdoptedAtTheWrap : Prop :=
  ∀ (s : State) (die y x c : Nat), die < 4 → y < 24 → x < s.cols → isCompute y x = true → c < 4 →
    (s.dieShut die = false → s.flag F.TILE_PARAM_CTRL_PENDING c (.tile die y x) = false →
      ((s.nextWord die y x c 0 false).isSome = true → (s.nextWord die y x c 0 true).isSome = true →
        Completes (.paramCommit die y x c) s (fun t => t.flag F.TILE_PARAM_CTRL_PENDING c (.tile die y x) = true ∧
          (t.tile die y x c).mAdopted = false ∧ (t.tile die y x c).vAdopted = false ∧
          (t.tile die y x c).vparams = (s.tile die y x c).vparams ∧ s.regsBut t (F.TILE_PARAM_CTRL_PENDING.words c (.tile die y x)))) ∧
      (s.nextWord die y x c 0 false = none → s.nextWord die y x c 0 true = none →
        Completes (.paramCommit die y x c) s (fun t => t.flag F.TILE_PARAM_CTRL_PENDING c (.tile die y x) = false ∧
          (t.tile die y x c).vparams = s.staged die y x c ∧
          ∀ k < 16, t.rd F.TILE_PARAM_ACTIVE_VALUE (16 * c + k) (.tile die y x) = s.rd F.TILE_PARAM_VALUE (16 * c + k) (.tile die y x)))) ∧
    (s.active die = some c → s.flag F.TILE_PARAM_CTRL_PENDING c (.tile die y x) = true →
      ((s.tile die y x c).vEnd = true → Completes (.paramAdopt die y x true) s (fun t =>
        (t.tile die y x c).vEnd = false ∧ (t.tile die y x c).vparams = s.staged die y x c ∧
        (t.flag F.TILE_PARAM_CTRL_PENDING c (.tile die y x) = !(s.tile die y x c).mAdopted))) ∧
      ((s.tile die y x c).mEnd = true → Completes (.paramAdopt die y x false) s (fun t =>
        (t.tile die y x c).mEnd = false ∧
        (∀ k < 16, t.rd F.TILE_PARAM_ACTIVE_VALUE (16 * c + k) (.tile die y x) = s.rd F.TILE_PARAM_VALUE (16 * c + k) (.tile die y x)) ∧
        (t.flag F.TILE_PARAM_CTRL_PENDING c (.tile die y x) = !(s.tile die y x c).vAdopted))))

/-- R79, R80, R81, R93: a forwarded token leaves its queue and enters the next one, and a full destination holds it; a returned credit
makes a freed entry usable; the last free entry of a partition with an extension starts a spill's set-up, at whose end arriving tokens
go to the extension, and the partition refills from it in order. -/
def Obligations.QueuesMoveTokensInOrder : Prop :=
  ∀ (s : State) (die q c : Nat), die < 4 → q < 65536 → c < 4 →
    (∀ tok r, s.active die = some c → (24 ≤ qidY q → SMap.find? s.arr.feed (queueKey die q c) = none) → qidNet q ≠ 2 →
      s.headTok die q c = some tok → s.dests die q c = [.queue r] → r ≠ q → r < 65536 →
      (0 < s.roomAt die r c → qToExt (s.queue die r c) = false →
        Completes (.tokenForward die q) s (fun t =>
          (t.queue die q c).toks = (s.queue die q c).toks.tail ∧ (t.queue die q c).freed = (s.queue die q c).freed + 1 ∧
          (t.queue die r c).toks = (s.queue die r c).toks ++ [tok] ∧ (t.queue die r c).ext = [] ∧
          ((t.queue die r c).setup = true ↔ 0 < (s.queue die r c).extLen ∧ (s.queue die r c).len ≤ (s.queue die r c).toks.length + 1) ∧
          t.rd F.WDOG_COUNT_COUNT c (.die die) = 0 ∧
          (∀ k, k ≠ queueKey die q c → k ≠ queueKey die r c → SMap.find? t.arr.queues k = SMap.find? s.arr.queues k) ∧
          s.regsBut t (F.WDOG_COUNT_COUNT.words c (.die die)) ∧
          t = { s with
            arr := { s.arr with queues := t.arr.queues, idlePosted := t.arr.idlePosted, idleFor := t.arr.idleFor, restFor := t.arr.restFor }
            regs := t.regs })) ∧
      (s.roomAt die r c = 0 →
        Completes (.tokenForward die q) s (fun t => t = s.setQueue die r c { s.queue die r c with waiting := true }))) ∧
    (0 < (s.queue die q c).freed →
      Completes (.creditReturn die q c) s (fun t => t = s.setQueue die q c { s.queue die q c with freed := (s.queue die q c).freed - 1 })) ∧
    (s.active die = some c → (s.queue die q c).setup = true →
      Completes (.spillStart die q c) s (fun t => (t.queue die q c).setup = false ∧ (t.queue die q c).toks = (s.queue die q c).toks ∧
        ((t.queue die q c).armed = true ↔ (s.queue die q c).len ≤ (s.queue die q c).toks.length) ∧
        (t.queue die q c).ext = (s.queue die q c).ext ∧ t = { s with arr := { s.arr with queues := t.arr.queues } })) ∧
    ((s.queue die q c).setup = false → Completes (.spillStart die q c) s (fun t => t = s)) ∧
    (∀ tok rest, s.active die = some c → (s.queue die q c).toks.length < (s.queue die q c).len → (s.queue die q c).ext = tok :: rest →
      Completes (.spillRefill die q c) s (fun t => (t.queue die q c).toks = (s.queue die q c).toks ++ [tok] ∧
        (t.queue die q c).ext = rest ∧ t = { s with arr := { s.arr with queues := t.arr.queues } }))

/-- R81: a multicast fires only when every destination has room, and then the token enters every one of them at once; a full
destination holds it back for all the others. -/
def Obligations.MulticastsFireWhole : Prop :=
  ∀ (s : State) (die q c : Nat) (tok : Tok), die < 4 → q < 65536 → c < 4 → s.active die = some c → qidY q < 24 → qidX q < s.cols →
    s.headTok die q c = some tok → (qidNet q = 2 → ∀ d ∈ s.dests die q c, s.ctlMay die q c (s.dirOf q d) d = true) →
    (0 < (s.dests die q c).length → (∀ d ∈ s.dests die q c, s.hasRoom die c d = true) →
      Completes (.tokenForward die q) s (fun t => (t.queue die q c).toks = (s.queue die q c).toks.tail ∧
        ∀ d ∈ s.dests die q c, t.heldAt die c d = s.heldWith die c tok d)) ∧
    (∀ f, f ∈ s.dests die q c → s.hasRoom die c f = false →
      Completes (.tokenForward die q) s (fun t => (t.queue die q c).toks = (s.queue die q c).toks ∧
        ∀ d ∈ s.dests die q c, t.heldAt die c d = s.heldAt die c d))

/-! ## Context slots and memory tiles -/

/-- R86 to R90: a context load holds its slot LOADING until the image has been read, when the slot is READY with the image's identity,
or EMPTY after an uncorrectable error; a reset-only load drops the slot's tokens; selects take effect in order at switch cycles. -/
def Obligations.ContextsLoadAndSwitch : Prop :=
  ∀ (s : State) (die st i n : Nat),
    (∀ img, s.atHead die st i n → eOpc n = 0x01 → eResetOnly n = false → s.rangeAccess State.readAccess (eD n 8) (eW n 16) = .ok →
      (s.loadState die (eSlot n) (eDiscard n) false = true → s.loadOk die (eSlot n) img = true →
        Completes (.ctxLoad die st img) s (fun t => s.entryFlies t die st i n .load ∧ t.slotState die (eSlot n) = 1 ∧
          SMap.find? t.arr.loads (dieCtx die (eSlot n)) = some (img, st, i, s.slotTokens die (eSlot n)) ∧ t.mas = s.mas)) ∧
      (s.loadState die (eSlot n) (eDiscard n) false = false ∨ s.loadOk die (eSlot n) img = false →
        Completes (.ctxLoad die st img) s (fun t => s.entryDone t die st i n .refused ∧ s.sameArr t ∧ t.mas = s.mas))) ∧
    (∀ c img dropped f, die < 4 → c < 4 → st < 64 → SMap.find? s.arr.loads (dieCtx die c) = some (img, st, i, dropped) →
      (s.stream die st).flying = [f] → f.entry = i → s.rangeAccess State.readAccess f.a f.len ≠ .wait →
      Completes (.contextLoadComplete die c false) s (fun t => t.slotState die c = 2 ∧ SMap.find? t.arr.images (dieCtx die c) = some img ∧
        SMap.find? t.arr.loads (dieCtx die c) = none ∧
        t.rd F.CTX_SLOT_CTX_ID c (.die die) = img.pkg % 65536 + 65536 * (img.idx % 256) ∧ (t.stream die st).flying = [] ∧ t.mas = s.mas) ∧
      Completes (.contextLoadComplete die c true) s (fun t => t.slotState die c = 0 ∧ SMap.find? t.arr.images (dieCtx die c) = none ∧
        (eContinue f.word.toNat = false → t.strState die st = 4) ∧ .notice die st (eTag f.word.toNat) .fault ∈ t.out)) ∧
    (s.atHead die st i n → eOpc n = 0x01 → eResetOnly n = true →
      (eDiscard n = true → s.slotState die (eSlot n) = 2 ∨ s.slotState die (eSlot n) = 4 →
        Completes (.resetOnlyLoad die st) s (fun t => s.entryDone t die st i n .ok ∧ t.slotState die (eSlot n) = 2 ∧
          t.slotTokens die (eSlot n) = 0 ∧ .loaded die (eSlot n) (s.slotTokens die (eSlot n)) ∈ t.out ∧ t.arr.sram = s.arr.sram ∧
          t.mas = s.mas)) ∧
      (eDiscard n = false → Completes (.resetOnlyLoad die st) s (fun t => s.entryDone t die st i n .refused ∧ s.sameArr t))) ∧
    (s.atHead die st i n → eOpc n = 0x02 →
      (s.slotState die (eSlot n) = 4 → Completes (.ctxSelect die st) s (fun t => s.entryDone t die st i n .refused ∧ s.sameArr t)) ∧
      (s.slotState die (eSlot n) = 3 → s.selectsOf die = [] →
        Completes (.ctxSelect die st) s (fun t => s.entryDone t die st i n .ok ∧ s.sameArr t)) ∧
      (s.slotState die (eSlot n) ≠ 4 → s.slotState die (eSlot n) ≠ 3 ∨ s.selectsOf die ≠ [] →
        Completes (.ctxSelect die st) s (fun t => s.entryFlies t die st i n .select ∧
          t.selectsOf die = s.selectsOf die ++ [{ stream := st, entry := i, slot := eSlot n }]))) ∧
    (∀ p rest, die < 4 → s.selectsOf die = p :: rest → p.slot < 4 → p.stream < 64 →
      (s.slotState die p.slot = 1 ∨ s.slotState die p.slot = 5 → Completes (.contextSwitchCycle die) s (fun t => t = s)) ∧
      (s.slotState die p.slot = 0 → Completes (.contextSwitchCycle die) s (fun t => t.active die = none ∧ t.selectsOf die = rest)) ∧
      (s.slotState die p.slot = 4 → Completes (.contextSwitchCycle die) s (fun t => t.active die = s.active die ∧ t.selectsOf die = rest)) ∧
      (s.slotState die p.slot = 2 → Completes (.contextSwitchCycle die) s (fun t => t.active die = some p.slot ∧ t.slotState die p.slot = 3 ∧
        t.selectsOf die = rest ∧ (∀ a, s.active die = some a → a ≠ p.slot → t.slotState die a = 2) ∧
        t.rd F.DIE_ACTIVE_SELECTS 0 (.die die) = (s.rd F.DIE_ACTIVE_SELECTS 0 (.die die) + 1) % 2 ^ 16 ∧ t.mas = s.mas)))

/-- R97 to R100, R102 to R107: a stall that reaches the watchdog's limit freezes the active context, recording why, in which cycle and
which queues are blocked; firmware takes a freeze message, resets the slot, and runs its step once more or ends its requests; a scan
makes its slot SCANNING, writes its image to its pages or reads it from them, and returns the slot. -/
def Obligations.FreezesAndScans : Prop :=
  ∀ (s : State) (die c : Nat), die < 4 → c < 4 →
    (s.active die = some c →
      (2 ^ s.rd F.WDOG_CFG_LIMIT_LOG2 0 (.die die) ≤ s.rd F.WDOG_COUNT_COUNT c (.die die) →
        Completes (.watchdogFreeze die) s (fun t => t.slotState die c = 4 ∧ t.active die = none ∧
          t.arr.messages = s.arr.messages ++ [(die, c, 1)] ∧
          t.rd F.FREEZE_INFO_SLOT 0 (.die die) = c ∧ t.rd F.FREEZE_INFO_CAUSE 0 (.die die) = 1 ∧ t.rd F.FREEZE_INFO_NEW 0 (.die die) = 1 ∧
          t.rd F.FREEZE_INFO_BLOCKED 0 (.die die) = min (s.blockedQids die c).length 1023 ∧
          t.rd F.FREEZE_CYCLE_LO_CYCLE 0 (.die die) = SMap.getD s.arr.wdogAt die 0 % 2 ^ 32 ∧
          t.rd F.FREEZE_CYCLE_HI_CYCLE 0 (.die die) = SMap.getD s.arr.wdogAt die 0 / 2 ^ 32 % 2 ^ 32 ∧
          (∀ k < 16, ∀ q, (s.blockedQids die c)[k]? = some q → t.rd F.STALL_SET_VALID k (.die die) = 1 ∧
            t.rd F.STALL_SET_QID k (.die die) = q % 2 ^ F.STALL_SET_QID.w) ∧
          (∀ k < 16, (s.blockedQids die c).length ≤ k → t.rd F.STALL_SET_VALID k (.die die) = 0) ∧
          t = { s with arr := { s.arr with messages := t.arr.messages }, regs := t.regs })) ∧
      (s.rd F.WDOG_COUNT_COUNT c (.die die) < 2 ^ s.rd F.WDOG_CFG_LIMIT_LOG2 0 (.die die) →
        Completes (.watchdogFreeze die) s (fun t => t = s))) ∧
    (∀ cause replica, s.arr.messages.find? (fun m => decide (m.1 = die)) = some (die, c, cause) → s.slotState die c = 4 →
      (s.stepIn die (some c) = [] →
        Completes (.freezeMessage die replica) s (fun t => t.arr.messages = s.arr.messages.erase (die, c, cause) ∧
          t.slotState die c = 2 ∧ t.slotTokens die c = 0 ∧
          (cause = 1 → s.adds t F.ERR_COUNT_COUNT 1 (64 * die + 0x13)) ∧ (cause = 2 → s.adds t F.ERR_COUNT_COUNT 1 (64 * die + 0x14)) ∧
          t.mas = s.mas)) ∧
      (∀ h fl, s.stepIn die (some c) = [(h, fl)] → cause = 1 → fl.replayed = false →
        Completes (.freezeMessage die replica) s (fun t => t.slotState die c = 2 ∧ t.slotTokens die c = 0 ∧
          t.flightsOf h = (s.flightsOf h).map (fun g =>
            if g = fl then { fl with replayed := true, drops := fl.drops.filter (fun e => decide (e.1 ≠ fl.stage)) } else g) ∧
          .microBatch h fl.rows ∈ t.out ∧ t.stew.reqs = s.stew.reqs)) ∧
      (∀ h fl slot k r, s.stepIn die (some c) = [(h, fl)] → fl.rows = [(slot, k)] → s.req slot = some r → r.st ≠ .ending →
        r.member = none → cause = 1 ∧ fl.replayed = true ∨ cause = 2 →
        Completes (.freezeMessage die replica) s (fun t => t.slotState die c = 2 ∧ t.flightsOf h = (s.flightsOf h).erase fl ∧
          ∃ u, t.req slot = some u ∧ u.st = .ending ∧ u.final = if cause = 1 then .deadlock else .bound))) ∧
    (∀ st i n, s.atHead die st i n → eOpc n = 0x03 → SMap.find? s.arr.scans die = none →
      (eB n 8 = 0 → s.routerBusy die (eSlot n) = false →
        (s.slotState die (eSlot n) = 2 ∨ s.slotState die (eSlot n) = 4 →
          Completes (.scan die st) s (fun t => s.entryFlies t die st i n .load ∧ t.slotState die (eSlot n) = 5 ∧
            t.flag F.SCAN_STATUS_BUSY 0 (.die die) = true ∧ t.arr.queues = s.arr.queues ∧
            ∃ j, SMap.find? t.arr.scans die = some j ∧ j.slot = eSlot n ∧ j.isIn = false ∧ j.addr = eD n 16 ∧
              j.former = s.slotState die (eSlot n) ∧ j.moved = false)) ∧
        (s.slotState die (eSlot n) ≠ 2 → s.slotState die (eSlot n) ≠ 4 →
          Completes (.scan die st) s (fun t => s.entryDone t die st i n .refused ∧ t.rd F.SCAN_STATUS_RESULT 0 (.die die) = 1 ∧
            s.sameArr t))) ∧
      (eB n 8 = 1 → s.rangeAccess State.readAccess (eD n 16) (max 64 (s.masNat (eD n 16 + 16) 8)) = .ok →
        let img := s.masBytes (eD n 16) (s.masNat (eD n 16 + 16) 8)
        (s.scanInOk die (eSlot n) (eDiscard n) img = true →
          Completes (.scan die st) s (fun t => s.entryFlies t die st i n .load ∧ t.slotState die (eSlot n) = 5 ∧
            t.flag F.SCAN_STATUS_BUSY 0 (.die die) = true ∧ t.slotTokens die (eSlot n) = 0 ∧
            ∃ j, SMap.find? t.arr.scans die = some j ∧ j.slot = eSlot n ∧ j.isIn = true ∧ j.addr = eD n 16 ∧
              j.bytes = img.length ∧ j.moved = false)) ∧
        (s.scanInOk die (eSlot n) (eDiscard n) img = false →
          Completes (.scan die st) s (fun t => s.entryDone t die st i n .refused ∧ t.rd F.SCAN_STATUS_RESULT 0 (.die die) = 1 ∧
            s.sameArr t)))) ∧
    (∀ j, SMap.find? s.arr.scans die = some j → j.moved = false → j.isIn = false →
      let im := s.scanImage die j.slot j.sram
      (s.rangeAccess State.writeAccess j.addr im.length = .ok →
        Completes (.scanOut die false) s (fun t => (∀ k < im.length, t.masByte (j.addr + k) = im.getD k 0) ∧
          (∀ a, a < j.addr ∨ j.addr + im.length ≤ a → t.masByte a = s.masByte a) ∧
          SMap.find? t.arr.scans die = some { j with moved := true, bytes := im.length, result := 0 } ∧ t.regs = s.regs)) ∧
      (s.rangeAccess State.writeAccess j.addr im.length ≠ .ok →
        Completes (.scanOut die false) s (fun t => t = s.setScan die { j with moved := true, result := 3 })) ∧
      Completes (.scanOut die true) s (fun t => t = s.setScan die { j with moved := true, result := 2 })) ∧
    (∀ j, SMap.find? s.arr.scans die = some j → j.moved = false → j.isIn = true → j.slot = c →
      Completes (.scanIn die false) s (fun t => t = (s.scanApply die c (s.masBytes j.addr j.bytes)).setScan die
        { j with moved := true, result := 0 }) ∧
      Completes (.scanIn die true) s (fun t => t.slotState die c = 5 ∧ t.slotTokens die c = 0 ∧
        SMap.find? t.arr.scans die = some { j with moved := true, result := 2 })) ∧
    (∀ j, SMap.find? s.arr.scans die = some j → j.moved = true → j.slot = c → j.stream < 64 →
      Completes (.scanComplete die) s (fun t => SMap.find? t.arr.scans die = none ∧
        t.slotState die c = (if j.isIn || decide (j.former ≠ 4) || (j.clear && decide (j.result = 0)) then 2 else 4) ∧
        t.flag F.SCAN_STATUS_BUSY 0 (.die die) = false ∧ t.rd F.SCAN_STATUS_RESULT 0 (.die die) = (if j.result = 0 then 0 else 2) ∧
        (j.clear = false ∨ j.isIn = true ∨ j.result ≠ 0 → t.arr.queues = s.arr.queues) ∧
        (j.clear = true → j.isIn = false → j.result = 0 → t.slotTokens die c = 0) ∧ t.mas = s.mas))

/-- R110 to R119: an address generator issues its descriptor once its wait is met, moves one token an iteration between SRAM and a port,
freezes its context on a bound error, and posts its event; a tagged row is added to the row it names, or stored in its choice's plane. -/
def Obligations.MemoryTilesRunTheirDescriptors : Prop :=
  ∀ (s : State) (die y x a c n : Nat), die < 4 → y < 24 → x < s.cols → isCompute y x = false → a < 4 → s.active die = some c →
    n = s.descOf die y x c a (s.ag die y x c a).desc →
    ((s.ag die y x c a).running = false → (s.ag die y x c a).finished = false → 1 ≤ dMode n → dMode n ≤ 5 →
      (∀ w ∈ boundWords n, inRegion (s.region die y x c) w (w + 3) = true ∧ s.prefetching die y x w 4 = false) →
      (∀ d < 4, 0 < s.boundOf die y x n d ∧ s.boundOf die y x n d < 2 ^ 24) →
      let bounds := (List.range 4).map (s.boundOf die y x n)
      let fits := inRegion (s.region die y x c) (nestRange n bounds).1 (nestRange n bounds).2
      (s.takeWait die y x c n = none → Completes (.agDescriptorIssue die y x a) s (fun t => t = s)) ∧
      ((s.takeWait die y x c n).isSome = true →
        4 ≤ dMode n ∨ fits = true ∧ (dMode n = 3 ∨ ∀ e ∈ s.hosted die y x c, nestInExt n bounds e = false) →
        Completes (.agDescriptorIssue die y x a) s (fun t => (t.ag die y x c a).running = true ∧ (t.ag die y x c a).index = [0, 0, 0, 0] ∧
          (t.ag die y x c a).bounds = bounds ∧ t.arr.sram = s.arr.sram ∧ t.mas = s.mas ∧
          (1 ≤ dWait n → dWait n ≤ 4 →
            t.rd (evFld (dWait n - 1)) c (.tile die y x) = s.rd (evFld (dWait n - 1)) c (.tile die y x) - 1))) ∧
      ((s.takeWait die y x c n).isSome = true → dMode n ≤ 3 → fits = false →
        Completes (.agDescriptorIssue die y x a) s (fun t => t.slotState die c = 4 ∧ t.active die = none ∧
          t.rd F.MT_STATUS_ERR_KIND 0 (.tile die y x) = 1 ∧ t.rd F.MT_STATUS_ERR_AG 0 (.tile die y x) = a ∧
          t.arr.messages = s.arr.messages ++ [(die, c, 2)] ∧ t.arr.sram = s.arr.sram))) ∧
    ((s.ag die y x c a).running = true →
      let at0 := nestAddr n (s.ag die y x c a).index
      (dMode n = 1 → 0 < s.roomAt die (qidOf y x (dNet n) (4 + dPort n)) c →
        qToExt (s.queue die (qidOf y x (dNet n) (4 + dPort n)) c) = false → s.prefetching die y x at0 (dWidth n) = false →
        Completes (.agRead die y x a) s (fun t =>
          (t.queue die (qidOf y x (dNet n) (4 + dPort n)) c).toks = (s.queue die (qidOf y x (dNet n) (4 + dPort n)) c).toks ++
            [BitVec.ofNat 1024 (s.sramRead die y x at0 (dWidth n))] ∧
          t.ag die y x c a = (s.nestStep die y x c a).ag die y x c a ∧ t.arr.sram = s.arr.sram)) ∧
      (∀ q tok, dMode n = 2 → s.portQueue die y x c (dNet n) (dPort n) = some q → s.headTok die q c = some tok →
        Completes (.agWrite die y x a) s (fun t => t.sramRead die y x at0 (dWidth n) = tok.toNat % 256 ^ dWidth n ∧
          (∀ k, k < at0 ∨ at0 + dWidth n ≤ k → t.sramByte die y x k = s.sramByte die y x k) ∧
          (t.queue die q c).toks = (s.queue die q c).toks.tail)) ∧
      (dMode n = 3 → Completes (.agFill die y x a) s (fun t =>
          t.sramRead die y x at0 (dWidth n) = (splat 32 (dWord n 40)).toNat % 256 ^ dWidth n ∧
          (∀ k, k < at0 ∨ at0 + dWidth n ≤ k → t.sramByte die y x k = s.sramByte die y x k) ∧ t.arr.queues = s.arr.queues)) ∧
      (∀ plane q tq row t0 t1 rest off, dMode n = (if plane then 5 else 4) → s.portQueue die y x c 0 (dPort n) = some q →
        s.portQueue die y x c 1 (b2n (bitOf (dByte n 52) 5)) = some tq → s.headTok die q c = some row →
        (s.queue die tq c).toks = t0 :: t1 :: rest →
        s.scatterTarget die y x c n (lane t0 32 0 + 2 ^ 32 * lane t1 32 0) plane = .inl off → s.prefetching die y x off 128 = false →
        Completes (if plane then .scatterPlane die y x a else .scatterAcc die y x a) s (fun t =>
          (∀ j < 32, t.sramRead die y x (off + 4 * j) 4 =
            (scatterLane plane (bitOf (dByte n 52) 4) (Num.widen Num.bf16 (tagWeight (lane t0 32 0 + 2 ^ 32 * lane t1 32 0))).1
              (s.sramRead die y x (off + 4 * j) 4) (lane row 32 j)).1 % 2 ^ 32) ∧
          (∀ k, k < off ∨ off + 128 ≤ k → t.sramByte die y x k = s.sramByte die y x k) ∧
          t.rd F.MT_SA_COUNT_ROWS c (.tile die y x) = (s.rd F.MT_SA_COUNT_ROWS c (.tile die y x) + 1) % 2 ^ F.MT_SA_COUNT_ROWS.w ∧
          (t.queue die tq c).toks = rest))) ∧
    ((s.ag die y x c a).finished = true →
      let next := { AgState.idle with desc := if dLast n || decide ((s.ag die y x c a).desc = 3) then 0 else (s.ag die y x c a).desc + 1 }
      (dSignal n = false → Completes (.descriptorComplete die y x a) s (fun t => t.ag die y x c a = next ∧ t.regs = s.regs)) ∧
      (dSignal n = true → s.rd (evFld a) c (.tile die y x) = 255 → Completes (.descriptorComplete die y x a) s (fun t =>
        (t.ag die y x c a).finished = true ∧ t.regs = s.regs)) ∧
      (dSignal n = true → s.rd (evFld a) c (.tile die y x) < 255 → Completes (.descriptorComplete die y x a) s (fun t =>
        t.rd (evFld a) c (.tile die y x) = s.rd (evFld a) c (.tile die y x) + 1 ∧ t.ag die y x c a = next)))

/-! ## Memory edge agents and the weight cache -/

/-- R125, R126, R128, R199, R200: an agent serves a read of near pages, holds one whose page is on its way, and answers any other with an
access fault; it writes writable pages only, exactly the bytes it is given. -/
def Obligations.AgentsReadAndWrite : Prop :=
  ∀ (s : State) (die k a n : Nat) (who : Asker), die < 4 → k < 10 →
    (s.takesFrom none who → s.rangeAccess State.readAccess a n = .ok →
      Completes (.agentRead die k a n who) s (fun t => .readServed who a n ∈ t.out ∧ t.mas.mem = s.mas.mem ∧ t.arr.heldReads = s.arr.heldReads)) ∧
    (s.rangeAccess State.readAccess a n = .wait →
      Completes (.agentRead die k a n who) s (fun t => t.arr.heldReads =
        s.arr.heldReads ++ [{ die := die, agent := k, addr := a, len := n, via := none, asker := who }] ∧ t.mas.mem = s.mas.mem ∧
        (.readServed who a n ∈ t.out → .readServed who a n ∈ s.out))) ∧
    (s.rangeAccess State.readAccess a n = .fault →
      Completes (.agentRead die k a n who) s (fun t => t.out.head? = some (.accessFault who a) ∧ t.mas.mem = s.mas.mem ∧
        t.arr.heldReads = s.arr.heldReads)) ∧
    (∀ data, s.rangeAccess State.writeAccess a data.length = .ok →
      Completes (.agentWrite die k a data who) s (fun t => (∀ x < data.length, t.masByte (a + x) = data.getD x 0) ∧
        (∀ x, x < a ∨ a + data.length ≤ x → t.masByte x = s.masByte x) ∧ s.onlyForwards t)) ∧
    (∀ data, s.rangeAccess State.writeAccess a data.length ≠ .ok →
      Completes (.agentWrite die k a data who) s (fun t => t.out.head? = some (.accessFault who a) ∧ t.mas.mem = s.mas.mem)) ∧
    (∀ r, s.arr.heldReads = [r] → r.die = die → r.agent = k →
      (s.takesFrom r.via r.asker → s.rangeAccess State.readAccess r.addr r.len = .ok →
        Completes (.agentReadResume die k) s (fun t => t.arr.heldReads = [] ∧ .readServed r.asker r.addr r.len ∈ t.out ∧
          t.mas.mem = s.mas.mem)) ∧
      (s.rangeAccess State.readAccess r.addr r.len = .fault →
        Completes (.agentReadResume die k) s (fun t => t.arr.heldReads = [] ∧ t.out = .accessFault r.asker r.addr :: s.out ∧ t.mas = s.mas)) ∧
      (s.rangeAccess State.readAccess r.addr r.len = .wait → Completes (.agentReadResume die k) s (fun t => t = s)))

/-- R129, R130, R134: within a line the weight cache serves a hit, joins a request to a fill in progress, starts a fill for a miss, holds a
request while no way of its set is free, and answers one for a page that may not be read with an access fault; it serves the waiting
readers when a fill ends, and gives up its unpinned lines on a flush; with ENABLE at 0, and of writable pages, reads go through the
agents. -/
def Obligations.WeightCacheServesLines : Prop :=
  ∀ (s : State) (die strip a n : Nat) (who : Asker), die < 4 → strip < 2 →
    let k := wcKey die strip (lineOf a)
    (∀ p, s.pte (pageOf a) = some p → p.isSealed = true → s.rd F.WC_CFG_ENABLE 0 (.die die) = 1 → 0 < n → a % 512 + n ≤ 512 →
      (s.readAccess (lineOf a) = .fault →
        Completes (.wcRead die strip a n who) s (fun t => t = s.emit (.accessFault who a))) ∧
      (s.readAccess (lineOf a) ≠ .fault →
        (∀ w, (s.wcSet k).find? (fun v => decide (v.line = lineOf a)) = some w → w.filling = false → s.takesFrom (some strip) who →
          Completes (.wcRead die strip a n who) s (fun t => t.wcSet k = w :: (s.wcSet k).erase w ∧ .readServed who a n ∈ t.out ∧
            s.adds t F.WC_HITS_COUNT 1 0 (.die die) ∧ t.mas = s.mas)) ∧
        (∀ w, (s.wcSet k).find? (fun v => decide (v.line = lineOf a)) = some w → w.filling = true →
          Completes (.wcRead die strip a n who) s (fun t =>
            t.wcSet k = { w with waiters := w.waiters ++ [(who, a, n)] } :: (s.wcSet k).erase w ∧
            s.adds t F.WC_MERGES_COUNT 1 0 (.die die) ∧ t.out = s.out)) ∧
        (∀ l, (s.wcSet k).find? (fun v => decide (v.line = lineOf a)) = none → wcRoom (s.wcSet k) = some l →
          Completes (.wcRead die strip a n who) s (fun t =>
            (∃ w ∈ t.wcSet k, w.line = lineOf a ∧ w.filling = true ∧ w.waiters = [(who, a, n)]) ∧
            s.adds t F.WC_MISSES_COUNT 1 0 (.die die) ∧ (.readServed who a n ∈ t.out → .readServed who a n ∈ s.out))) ∧
        ((s.wcSet k).find? (fun v => decide (v.line = lineOf a)) = none → wcRoom (s.wcSet k) = none →
          Completes (.wcRead die strip a n who) s (fun t =>
            t = { s with arr := { s.arr with wcWait := s.arr.wcWait ++ [(die, strip, a, n, who)] } })))) ∧
    (s.rd F.WC_CFG_ENABLE 0 (.die die) = 0 ∨ (∀ p, s.pte (pageOf a) = some p → p.isSealed = false) →
      Completes (.wcRead die strip a n who) s (fun t => t = s.agentRead die (s.edgeAgent die strip a) a n (some strip) who)) ∧
    (∀ w, s.wcSet k = [w] → w.line = lineOf a → w.filling = true → s.arr.wcWait = [] →
      (s.readAccess (lineOf a) = .ok → (∀ v ∈ w.waiters, s.takesFrom (some strip) v.1) →
        Completes (.wcFillComplete die strip a) s (fun t => t.wcSet k = [{ w with filling := false, waiters := [] }] ∧
          (∀ v ∈ w.waiters, .readServed v.1 v.2.1 v.2.2 ∈ t.out) ∧ t.mas = s.mas)) ∧
      (s.readAccess (lineOf a) = .fault →
        Completes (.wcFillComplete die strip a) s (fun t => t.wcSet k = [] ∧
          (∀ v ∈ w.waiters, .accessFault v.1 v.2.1 ∈ t.out) ∧ t.mas = s.mas)) ∧
      (s.readAccess (lineOf a) = .wait → Completes (.wcFillComplete die strip a) s (fun t => t = s))) ∧
    (s.dieShut die = false → Completes (.flush die) s (fun t => (∀ j w, w ∈ s.wcSet j → 0 < w.pins → w ∈ t.wcSet j) ∧
      (∀ e ∈ t.arr.wc, wcOfDie die e.1 = true → ∀ w ∈ e.2, 0 < w.pins ∨ w.filling = true) ∧
      t = { s with arr := { s.arr with wc := t.arr.wc } }))

/-! ## Command streams -/

/-- R138, R141, R142, R156: entries that complete as they issue, and entries that are refused. -/
def Obligations.StreamEntriesCompleteAtIssue : Prop :=
  ∀ (s : State) (die st i n : Nat),
    (s.atHead die st i n → eOpc n = 0x00 → Completes (.nop die st) s (fun t => s.entryDone t die st i n .ok ∧ s.sameArr t ∧ t.mas = s.mas ∧
      s.regsBut t (F.STREAM_HEAD_INDEX.words st (.die die) ++ F.STREAM_STATUS_STATE.words st (.die die) ++ (diePs die).words))) ∧
    (die < 4 → st < 64 → s.mayIssue die st = true → i = s.headPtr die st % 1024 → n = s.cmdAt die st i → entryOk n = false →
      s.openDispatch die st = none → Completes (.nop die st) s (fun t => s.entryDone t die st i n .refused ∧ s.sameArr t ∧ t.mas = s.mas)) ∧
    (∀ tiles (vs : List Nat), s.atHead die st i n → eOpc n = 0x08 → s.psetTiles die (eSlot n) (eB n 8) = some tiles →
      s.psetInUse die (eSlot n) (eB n 8) = false → s.psetPending die (eSlot n) tiles = false → (∀ p ∈ tiles, p.1 < 24 ∧ p.2 < s.cols) →
      (List.range (eB n 9)).map (fun k => s.readSource die st (eSlot n) n (16 + 12 * k)) = vs.map .value →
      Completes (.paramUpdate die st) s (fun t => s.entryDone t die st i n .ok ∧
        ∀ p ∈ tiles, ∀ k < eB n 9, (∀ j < eB n 9, k < j → eB n (12 + j) ≠ eB n (12 + k)) →
          t.rd F.TILE_PARAM_VALUE (16 * eSlot n + eB n (12 + k)) (.tile die p.1 p.2) = vs.getD k 0 % 2 ^ 32)) ∧
    (s.atHead die st i n → eOpc n = 0x12 →
      Completes (.pfRelease die st) s (fun t => s.entryDone t die st i n .ok ∧
        (t.stream die st).pins = ((s.stream die st).pins.filter (fun p => !(decide (p.tag = eTag n) && p.complete))).map (fun p =>
          if p.tag = eTag n then { p with released := true } else p) ∧ (s.arr.wcWait = [] → t.mas = s.mas))) ∧
    (s.atHead die st i n → eOpc n = 0x18 →
      (s.image die (eSlot n) = none → s.dispatch die (eSlot n) = none →
        Completes (.dispatch die st) s (fun t => s.entryDone t die st i n .refused ∧ s.sameArr t)) ∧
      ((s.dispatch die (eSlot n)).isSome = true → Completes (.dispatch die st) s (fun t => t.headPtr die st = s.headPtr die st ∧
        t.strState die st = 2 ∧ t.rd F.STREAM_STATUS_HELD_CAUSE st (.die die) = 3 ∧ t.strm.dispatches = s.strm.dispatches))) ∧
    (∀ len, s.atHead die st i n → eOpc n = 0x10 → s.readSource die st (eSlot n) n 40 = .value len →
      len % 64 ≠ 0 ∨ s.endFits die (eSlot n) n 8 len = false ∨ s.endFits die (eSlot n) n 24 len = false →
      Completes (.dma die st) s (fun t => s.entryDone t die st i n .bound ∧
        (s.active die = some (eSlot n) → t.active die = none ∧ t.slotState die (eSlot n) = 2) ∧
        (s.stepIn die (some (eSlot n)) = [] → t.mas = s.mas ∧ t.stew = s.stew))) ∧
    (s.atHead die st i n → eOpc n = 0x11 → (s.stream die st).looked.contains i = false → s.prefetchFits die n = true →
      s.rangeSealed (eD n 8) (eD n 16) = false ∨ inMas (eD n 8 + eD n 16) = false →
      Completes (.prefetch die st) s (fun t => s.entryDone t die st i n .fault ∧ t.mas = s.mas ∧ s.sameArr t))

/-- R143, R146, R147, R148, R150, R156, R157, R161, R165: entries that issue and go on beside their stream, and entries that hold it. -/
def Obligations.StreamEntriesIssue : Prop :=
  ∀ (s : State) (die st i n : Nat),
    (∀ v, s.atHead die st i n → eOpc n = 0x09 → s.readSource die st (eSlot n) n 8 = .value v → s.endFits die (eSlot n) n 24 4 = true →
      Completes (.writeWord die st) s (fun t => s.entryFlies t die st i n .dma ∧ (∃ f ∈ (t.stream die st).flying, f.entry = i ∧ f.a = v ∧ f.len = 4) ∧
        t.mas = s.mas ∧ s.sameArr t)) ∧
    (∀ len, s.atHead die st i n → eOpc n = 0x10 → s.readSource die st (eSlot n) n 40 = .value len → len % 64 = 0 →
      s.endFits die (eSlot n) n 8 len = true → s.endFits die (eSlot n) n 24 len = true →
      Completes (.dma die st) s (fun t => s.entryFlies t die st i n .dma ∧ (∃ f ∈ (t.stream die st).flying, f.entry = i ∧ f.len = len) ∧
        t.mas = s.mas ∧ s.sameArr t)) ∧
    (s.atHead die st i n → eOpc n = 0x28 → Completes (.counterRead die st) s (fun t => s.entryFlies t die st i n .dma ∧
      (∃ f ∈ (t.stream die st).flying, f.entry = i ∧ f.b = eD n 16 ∧ f.a = ofBytes (s.counterBytes die st (eSlot n) (eB n 8))) ∧
      t.mas = s.mas ∧ s.sameArr t)) ∧
    (s.atHead die st i n → eOpc n = 0x11 → (s.stream die st).looked.contains i = false → s.prefetchFits die n = true →
      s.rangeSealed (eD n 8) (eD n 16) = true → inMas (eD n 8 + eD n 16) = true →
      Completes (.prefetch die st) s (fun t => s.entryFlies t die st i n .prefetch ∧
        ∃ p ∈ (t.stream die st).pins, p.tag = eTag n ∧ p.entry = i ∧ p.target = eB n 24 ∧ p.complete = false)) ∧
    (die < 4 → st < 64 → s.mayIssue die st = true → i = s.headPtr die st % 1024 → (s.stream die st).looked.contains i = true →
      Completes (.prefetch die st) s (fun t => s.headPast t die st ∧ (t.stream die st).looked = (s.stream die st).looked.filter (· ≠ i) ∧
        s.sameArr t ∧ t.mas = s.mas)) ∧
    (die < 4 → st < 64 → s.flag F.SERGE_STATUS_ONLINE (st / 8) (.die die) = true → s.strState die st < 3 →
      eOpc (s.cmdAt die st (s.headPtr die st)) ≠ 0x20 → eOpc (s.cmdAt die st (s.headPtr die st)) ≠ 0x30 →
      s.lookaheadAt die st (s.rd F.STREAM_CTRL_LOOKAHEAD st (.die die)) ((s.headPtr die st + 1) % 2048) = some i → n = s.cmdAt die st i →
      s.prefetchFits die n = true → s.rangeSealed (eD n 8) (eD n 16) = true → inMas (eD n 8 + eD n 16) = true →
      Completes (.lookaheadIssue die st) s (fun t => t.headPtr die st = s.headPtr die st ∧
        (t.stream die st).looked = (s.stream die st).looked ++ [i] ∧ ∃ f ∈ (t.stream die st).flying, f.entry = i ∧ f.cls = .prefetch)) ∧
    (∀ img, s.atHead die st i n → eOpc n = 0x18 → s.dispatch die (eSlot n) = none → s.image die (eSlot n) = some img → img.lanes ≠ [] →
      Completes (.dispatch die st) s (fun t => s.entryFlies t die st i n .dispatch ∧ ∃ d, t.dispatch die (eSlot n) = some d ∧ d.stream = st ∧
        d.total = eH n 8 ∧ d.doneId = eB n 10 ∧ d.countPm = eB n 11 ∧ d.maxCount = eW n 16 ∧ d.groups = [] ∧ d.seen = 0)) ∧
    (∀ d count, s.headReady die st i n → s.openDispatch die st = some (eSlot n, d) → eOpc n = 0x19 → s.inputFits die (eSlot n) n = true →
      s.readSource die st (eSlot n) n 12 = .value count →
      s.rangeAccess State.readAccess (eD n 24) (eD n 32) ≠ .fault →
      (count = 0 → Completes (.group die st) s (fun t => s.entryFlies t die st i n .none ∧
        t.dispatch die (eSlot n) = some { d with seen := d.seen + 1, entries := d.entries ++ [i] } ∧
        t.rd F.DISPATCH_SKIPPED_VALUE 0 (.die die) = (s.rd F.DISPATCH_SKIPPED_VALUE 0 (.die die) + 1) % 2 ^ F.DISPATCH_SKIPPED_VALUE.w)) ∧
      (0 < count → count ≤ d.maxCount → Completes (.group die st) s (fun t => s.entryFlies t die st i n .none ∧
        ∃ g, t.dispatch die (eSlot n) = some { d with seen := d.seen + 1, entries := d.entries ++ [i], groups := d.groups ++ [g] } ∧
          g.index = eH n 8 ∧ g.count = count ∧ g.waddr = eD n 24 ∧ g.wlen = eD n 32 ∧ g.lane = none)) ∧
      (d.maxCount < count → Completes (.group die st) s (fun t => t.dispatch die (eSlot n) = none))) ∧
    (s.atHead die st i n → eOpc n = 0x20 → Completes (.fence die st) s (fun t => s.entryHolds t die st i n ∧
      t.rd F.STREAM_STATUS_HELD_CAUSE st (.die die) = 3 ∧ s.sameArr t ∧ t.mas = s.mas)) ∧
    (s.atHead die st i n → eOpc n = 0x30 → Completes (.step die st) s (fun t => s.entryHolds t die st i n ∧ s.sameArr t ∧ t.mas = s.mas)) ∧
    (s.atHead die st i n → eOpc n = 0x21 → Completes (.summaryWait die st) s (fun t => s.entryHolds t die st i n ∧
      t.strm.mboxWaits = s.strm.mboxWaits ++ [(die, st, i, eB n 8, eB n 9)] ∧ s.sameArr t))

/-- R145, R146, R148, R150, R151, R158, R159, R161: how issued entries complete. -/
def Obligations.StreamEntriesFinish : Prop :=
  ∀ (s : State) (die st i n : Nat),
    (∀ a b len c, s.transferring die st i n a b len c →
      (eOpc n = 0x10 → eB n 8 = 0 → eB n 24 = 0 → s.rangeAccess State.readAccess (eD n 16) len = .ok →
        s.rangeAccess State.writeAccess (eD n 32) len = .ok →
        Completes (.dmaComplete die st i) s (fun t => s.entryOver t die st i n .ok ∧
          (∀ x < len, t.masByte (eD n 32 + x) = s.masByte (eD n 16 + x)) ∧
          (∀ x, x < eD n 32 ∨ eD n 32 + len ≤ x → t.masByte x = s.masByte x) ∧ s.arrMoved t)) ∧
      (eOpc n = 0x10 → eB n 8 = 0 → eB n 24 = 2 → s.rangeAccess State.readAccess (eD n 16) len = .ok →
        Completes (.dmaComplete die st i) s (fun t => s.entryOver t die st i n .ok ∧
          t.sramRead die (eB n 25) (eB n 26) (eD n 32) len = s.masNat (eD n 16) len ∧ t.mas.mem = s.mas.mem)) ∧
      (eOpc n = 0x28 → s.rangeAccess State.writeAccess b len = .ok →
        Completes (.dmaComplete die st i) s (fun t => s.entryOver t die st i n .ok ∧ t.masNat b len = a % 256 ^ len ∧
          (∀ x, x < b ∨ b + len ≤ x → t.masByte x = s.masByte x) ∧ s.sameArr t)) ∧
      (eOpc n = 0x10 → eB n 8 = 0 → s.rangeAccess State.readAccess (eD n 16) len = .fault →
        Completes (.dmaComplete die st i) s (fun t => s.entryOver t die st i n .fault ∧ t.mas = s.mas ∧ s.sameArr t)) ∧
      (eOpc n = 0x09 → eB n 24 = 0 → s.rangeAccess State.writeAccess (eD n 32) 4 = .ok →
        Completes (.dmaComplete die st i) s (fun t => s.entryOver t die st i n .ok ∧ t.masNat (eD n 32) 4 = a % 2 ^ 32 ∧
          (∀ x, x < eD n 32 ∨ eD n 32 + 4 ≤ x → t.masByte x = s.masByte x) ∧ s.arrMoved t))) ∧
    (∀ f p, die < 4 → st < 64 → (s.stream die st).flying = [f] → f.entry = i → f.cls = .prefetch → (s.stream die st).holder = none →
      (s.stream die st).pins = [p] → p.entry = i → p.complete = false → p.released = false → s.linesReady die p = true →
      (p.target = 3 ∨ ∀ l ∈ linesIn f.a f.len, l ∈ p.lines) → s.rangeAccess State.readAccess f.a f.len = .ok →
      Completes (.prefetchComplete die st i) s (fun t => s.entryOver t die st i f.word.toNat .ok ∧
        (t.stream die st).pins = [{ p with complete := true }] ∧
        (p.target = 3 → t.sramRead die (eB f.word.toNat 25) (eB f.word.toNat 26) (eW f.word.toNat 28) f.len = s.masNat f.a f.len) ∧
        t.mas = s.mas)) ∧
    (∀ c d k l g, die < 4 → c < 4 → s.dispatch die c = some d → d.abandoned = false → s.freeLane die c d = some (k, l) →
      d.groups.find? (fun g => g.lane.isNone && decide (s.rangeAccess State.readAccess g.waddr g.wlen = .ok)) = some g →
      s.psetPending die c ((s.psetTiles die c l.pset).getD []) = false → (∀ h ∈ d.groups, h.todo = none ∧ (h.entry = g.entry → h = g)) →
      Completes (.groupAssign die c) s (fun t => (∃ todo, t.dispatch die c = some { d with
          groups := d.groups.map (fun h => if h = g then { g with lane := some k, todo := todo } else h) }) ∧
        ∀ p ∈ (s.psetTiles die c l.pset).getD [], t.rd F.TILE_PARAM_VALUE (16 * c + d.countPm) (.tile die p.1 p.2) = g.count % 2 ^ 32)) ∧
    (∀ q id c v d u, die < 4 → s.nextSummary die q = some (id, c, v, u) → s.dispatch die c = some d → d.doneId = id →
      (∃ g ∈ d.groups, g.index = v ∧ g.lane.isSome = true) →
      Completes (.groupComplete die q) s (fun t => t.dispatch die c = some { d with
        groups := d.groups.filter (fun g => !(decide (g.index = v) && g.lane.isSome)) } ∧ t.mas = s.mas)) ∧
    (∀ q id c v u, die < 4 → s.nextSummary die q = some (id, c, v, u) → s.takesDone die c id = false →
      ((s.mbox die id).length < 16 → Completes (.summaryMessage die q) s (fun t => t.mbox die id = s.mbox die id ++ [(c, v)] ∧ t.mas = s.mas)) ∧
      (16 ≤ (s.mbox die id).length → Completes (.summaryMessage die q) s (fun t => t = s))) ∧
    (∀ c d, die < 4 → c < 4 → s.dispatch die c = some d → d.abandoned = false → d.seen = d.total → d.groups = [] →
      Completes (.dispatchComplete die c) s (fun t => t.dispatch die c = none ∧ (∀ f ∈ (t.stream die d.stream).flying, f.entry ≠ d.entry) ∧
        s.sameArr t ∧ t.mas = s.mas)) ∧
    (∀ c d, die < 4 → c < 4 → s.dispatch die c = some d → d.abandoned = true → (∀ g ∈ d.groups, g.lane = none) →
      Completes (.dispatchComplete die c) s (fun t => t.dispatch die c = none ∧ s.sameArr t ∧ t.mas = s.mas)) ∧
    (die < 4 → st < 64 → s.holderOf die st 0x20 = some (i, n) → i = s.headPtr die st % 1024 →
      ((∀ f ∈ (s.stream die st).flying, f.entry ≠ i → (s.stream die st).looked.contains f.entry = false →
          ∀ k, classBit f.cls = some k → bitOf (eB n 8) k = false) →
        eB n 9 = 255 ∨ eW n 12 ≤ s.rd F.FENCE_CNT_VALUE (eB n 9) (.die die) →
        Completes (.fenceWaitMet die st) s (fun t => s.headPast t die st ∧ (t.stream die st).holder = none ∧ s.sameArr t ∧
          (eB n 16 = 255 → t.link = s.link ∧ ∀ k < 64, t.rd F.FENCE_CNT_VALUE k (.die die) = s.rd F.FENCE_CNT_VALUE k (.die die)) ∧
          (eB n 16 < 64 → eB n 17 = 255 ∨ eB n 17 = die → s.adds t F.FENCE_CNT_VALUE 1 (eB n 16) (.die die)) ∧
          (eB n 16 < 64 → eB n 17 < 4 → eB n 17 ≠ die → (s.velvet die (eB n 17)).sent = [] → (s.velvet die (eB n 17)).held = [] →
            if (s.route die (eB n 17)).isSome then (t.velvet die (eB n 17)).sent = [eB n 16] ∧ .fenceSignal (eB n 17) (eB n 16) ∈ t.out
            else (t.velvet die (eB n 17)).held = [eB n 16]))) ∧
      (eB n 9 < 64 → s.rd F.FENCE_CNT_VALUE (eB n 9) (.die die) < eW n 12 → Completes (.fenceWaitMet die st) s (fun t => t = s))) ∧
    (∀ src k rest, die < 4 → k < 64 → (s.velvet src die).sent = k :: rest → (s.velvet src die).held = [] →
      Completes (.fenceSignal src die) s (fun t => s.adds t F.FENCE_CNT_VALUE 1 k (.die die) ∧
        (t.velvet src die).sent = rest ∧ (t.velvet src die).held = [] ∧ s.regsBut t (F.FENCE_CNT_VALUE.words k (.die die)))) ∧
    (∀ src k j via, die < 4 → k < 64 → (s.velvet src die).sent = [k] → (s.velvet src die).held = [j] → s.route src die = some via →
      Completes (.fenceSignal src die) s (fun t => s.adds t F.FENCE_CNT_VALUE 1 k (.die die) ∧
        t.velvet src die = { via := via, sent := [j], held := [] } ∧ .fenceSignal die j ∈ t.out)) ∧
    (∀ m c, die < 4 → st < 64 → s.strm.mboxWaits = [(die, st, i, m, c)] → 0 < c →
      (c ≤ (s.mbox die m).length → Completes (.summaryWaitMet die m) s (fun t => t.mbox die m = (s.mbox die m).drop c ∧ t.strm.mboxWaits = [] ∧
        t.rd F.STREAM_RESULT_VALUE st (.die die) = ((s.mbox die m).getD (c - 1) (0, 0)).2 % 2 ^ 32)) ∧
      ((s.mbox die m).length < c → Completes (.summaryWaitMet die m) s (fun t => t = s))) ∧
    (∀ results, die < 4 → st < 64 → s.holderOf die st 0x30 = some (i, n) →
      (∀ f ∈ (s.stream die st).flying, f.entry ≠ i → (s.stream die st).looked.contains f.entry = true) →
      Completes (.stepComplete die st results) s (fun t => ∃ u : State, s.headPast u die st ∧
        (u.stream die st).pins = (s.stream die st).pins.filter (fun p => (s.stream die st).looked.contains p.entry) ∧
        (u.stream die st).holder = none ∧ u.rd F.STREAM_STATUS_STEP_LOW st (.die die) = eW n 8 % 2 ^ 12 ∧ (u.stream die st).inStep = false ∧
        (u.stream die st).deadline = (if eW n 12 = 0 then none else some (s.now + 1000 * eW n 12)) ∧ (s.arr.wcWait = [] → u.mas = s.mas) ∧
        t = if s.flag F.STREAM_CTRL_STEP_MASTER st (.die die) then u.stepBoundary die (s.stepUse die st) results else u)) ∧
    (∀ u, die < 4 → st < 64 → (s.stream die st).deadline = some u → u ≤ s.now → s.arr.messages = [] → s.stew.flights = [] →
      (∀ c ∈ (s.stream die st).stepSlots, c < 4) →
      Completes (.stepDeadline die st) s (fun t => t.strState die st = 4 ∧ t.rd F.STREAM_STATUS_ERR_STATUS st (.die die) = 4 ∧
        (t.stream die st).deadline = none ∧ (t.stream die st).holder = none ∧ (∀ f ∈ (t.stream die st).flying, f.cls = .dma) ∧
        .notice die st (eTag (s.cmdAt die st (s.headPtr die st % 1024))) .timeout ∈ t.out ∧ (s.arr.wcWait = [] → t.mas = s.mas)))

/-- R137, R161, R162, R166: what the control registers of streams and mailboxes do, and the notice of an idle die. -/
def Obligations.StreamsAreControlled : Prop :=
  ∀ (s : State) (die st : Nat), die < 4 → st < 64 → s.dieShut die = false →
    (∀ p es, (p + 2048 - s.headPtr die st) % 2048 ≤ 1024 → es.length ≤ 1024 →
      Completes (.streamTailAdvance die st p es) s (fun t => t.tailPtr die st = p % 2048 ∧ t.headPtr die st = s.headPtr die st ∧
        (∀ k < es.length, t.cmdAt die st (s.tailPtr die st + k) = (es.getD k 0).toNat) ∧ s.sameArr t ∧ t.mas = s.mas)) ∧
    (∀ p es, 1024 < (p + 2048 - s.headPtr die st) % 2048 →
      Completes (.streamTailAdvance die st p es) s (fun t => t = s.turnAway "STREAM_TAIL")) ∧
    (s.strState die st = 3 ∨ s.strState die st = 4 → Completes (.start die st) s (fun t =>
      t.strState die st = (if (s.stream die st).holder.isSome then 2 else if s.validCount die st = 0 then 0 else 1) ∧
      s.regsBut t (F.STREAM_STATUS_STATE.words st (.die die) ++ (diePs die).words) ∧ s.sameArr t ∧
      t = { s with arr := t.arr, regs := t.regs })) ∧
    (s.strState die st < 3 → Completes (.stop die st) s (fun t => t.strState die st = 3 ∧
      s.regsBut t (F.STREAM_STATUS_STATE.words st (.die die)) ∧ t = { s with regs := t.regs })) ∧
    (s.strState die st < 3 → Completes (.abort die st) s (fun t => t.strState die st = 3 ∧ t.headPtr die st = s.tailPtr die st ∧
      (t.stream die st).holder = none ∧ t.validCount die st = 0 ∧ (∀ f ∈ (t.stream die st).flying, f.cls = .dma) ∧
      (∀ p ∈ t.selectsOf die, p.stream ≠ st) ∧ (∀ c < 4, ∀ d, t.dispatch die c = some d → d.stream ≠ st) ∧
      (s.arr.wcWait = [] → t.mas = s.mas))) ∧
    (∀ m < 256, Completes (.pop die m) s (fun t => t.mbox die m = (s.mbox die m).tail ∧
      t = { s with strm := { s.strm with mboxes := t.strm.mboxes } })) ∧
    (∀ c, s.idleSlot die = some c → SMap.getD s.arr.idleFor die 0 < 2 ^ s.rd F.IDLE_CFG_IDLE_LOG2 0 (.die die) → s.mbox die 255 = [] →
      Completes (.idleNotice die) s (fun t => t = s)) ∧
    (∀ c, s.idleSlot die = some c → SMap.getD s.arr.idlePosted die false = false → s.mbox die 255 = [] →
      2 ^ s.rd F.IDLE_CFG_IDLE_LOG2 0 (.die die) ≤ SMap.getD s.arr.idleFor die 0 → s.flag F.SCHED_CFG_BUBBLE_EN = false →
      Completes (.idleNotice die) s (fun t => SMap.getD t.arr.idlePosted die false = true ∧ t.mbox die 255 = [] ∧ t.out = s.out)) ∧
    (∀ c, s.idleSlot die = some c → SMap.getD s.arr.idlePosted die false = false → s.mbox die 255 = [] →
      2 ^ s.rd F.IDLE_CFG_IDLE_LOG2 0 (.die die) ≤ SMap.getD s.arr.idleFor die 0 → s.flag F.SCHED_CFG_BUBBLE_EN = true →
      (∀ d, s.readySlot die = some d → Completes (.idleNotice die) s (fun t => SMap.getD t.arr.idlePosted die false = true ∧
        t.mbox die 255 = [] ∧ t.out = .select die d :: s.out)) ∧
      (s.readySlot die = none → Completes (.idleNotice die) s (fun t => SMap.getD t.arr.idlePosted die false = true ∧
        t.mbox die 255 = [(c, c)] ∧ t.out = s.out)))

/-! ## Registers -/

/-- R15, R28, R30, R32, R165, R303, R386, R398, R478: a write that no rule refuses sets exactly the writable fields of its word, and a
setting is journaled; any other write changes nothing; a read of a counter's low half holds its high half for the path. -/
def Obligations.RegistersReadAndWrite : Prop :=
  ∀ (s : State) (path : Path) (a v : Nat),
    (∀ r i w k, s.writes path a v r i w k → r ∉ actingRegs →
      let u := s.setWord r i w k (BitVec.ofNat 32 (writtenWord s.host.isSealed r k (v % 2 ^ 32) (s.word r i w k).toNat))
      Completes (.writeRegister path a v) s (fun t =>
        t = (if settles r = true ∧ dieOf a = none ∧ s.modState ≠ 1 ∧ s.starting = false then u.journalReg a (u.word r i w k).toNat
          else u).writeReply path a true 0)) ∧
    (s.dark = false → s.locate a = none → Completes (.writeRegister path a v) s (fun t =>
      t = s.writeReply path a false (if s.blockOpen path a then (s.dieCloses a).getD 0 else 0))) ∧
    (∀ r i w k, s.dark = false → s.locate a = some (r, i, w, k) →
      s.mayWrite path a r = false ∨ s.blockOpen path a = false ∨ (s.dieCloses a).isSome = true ∨ s.writeRefused r i w k (v % 2 ^ 32) = true →
      Completes (.writeRegister path a v) s (fun t =>
        t = s.writeReply path a false (if s.mayWrite path a r && s.blockOpen path a then (s.dieCloses a).getD 0 else 0))) ∧
    (∀ r i w, s.dark = false → s.locate a = some (r, i, w, 0) → latching r = true → s.mayRead path a = true → s.blockOpen path a = true →
      s.dieCloses a = none → s.wakeFor a = s →
      Completes (.counterLowRead path a) s (fun t => t = { s with latches := t.latches } ∧ t.latch path (r.addr i w 1) = some (s.view r i w 1) ∧
        ∀ u : State, u.latches = t.latches → (u.readHigh path r i w).1 = s.view r i w 1)) ∧
    (s.dark = false → Completes (.i3cWrite a none) s (fun t => t = { s with host := { s.host with i3cAddr := a % 2 ^ 32 } })) ∧
    (s.dark = false → s.locate (a % 2 ^ 32) = none → Completes (.i3cWrite a (some v)) s (fun t =>
      t = ({ s with host := { s.host with i3cAddr := a % 2 ^ 32 } }).emit (.i3cAck false))) ∧
    (s.dark = false → s.modState = 1 → s.lc ≠ .retired → v ≤ 60000 → Completes (.i3cWrite 0x10004 (some v)) s (fun t =>
      t.rd F.PWR_DRAIN_MS_MS = v ∧ .i3cAck true ∈ t.out ∧ s.regsBut t F.PWR_DRAIN_MS_MS.words)) ∧
    (∀ ring < 5, s.dark = false → s.modState ≠ 1 → s.lc ≠ .retired → s.mayWrite path (Reg.addr .ERR_RD ring .glob 0) .ERR_RD = true →
      ((v % 2 ^ 32 + 2 ^ 32 - s.rd F.ERR_RD_SEQ ring) % 2 ^ 32 ≤ s.errUnread ring →
        Completes (.errRd path ring v) s (fun t => t.rd F.ERR_RD_SEQ ring = v % 2 ^ 32 ∧ t.rd F.ERR_WR_SEQ ring = s.rd F.ERR_WR_SEQ ring ∧
          t.rd F.ERR_RING_STATUS_UNREAD ring = (s.rd F.ERR_WR_SEQ ring + 2 ^ 32 - v % 2 ^ 32) % 2 ^ 32 % 2 ^ F.ERR_RING_STATUS_UNREAD.w ∧
          t.err = s.err)) ∧
      (s.errUnread ring < (v % 2 ^ 32 + 2 ^ 32 - s.rd F.ERR_RD_SEQ ring) % 2 ^ 32 →
        Completes (.errRd path ring v) s (fun t => t = s.writeReply path (Reg.addr .ERR_RD ring .glob 0) false 0))) ∧
    (∀ ring half, ring < 5 → half < 2 → s.dark = false → s.modState ≠ 1 → s.lc ≠ .retired →
      s.mayWrite path (Reg.addr .ERR_OVF_VALID ring .glob half) .ERR_OVF_VALID = true →
      Completes (.errOvfValid path ring half v) s (fun t =>
        (∀ c < 64, t.ovfUsed ring c = (s.ovfUsed ring c && !(decide (c / 32 = half) && bitOf v (c % 32)))) ∧ t.err = s.err)) ∧
    (∀ dies < 16, s.dark = false → s.modState ≠ 1 → s.lc ≠ .retired → s.mayWrite path (Reg.addr .TIMING_PREP 0 .glob 0) .TIMING_PREP = true →
      ((∀ d < 4, bitOf dies d = true → ∀ st < 64, s.strState d st = 0 ∨ s.strState d st = 3) →
        Completes (.timingPrep path dies) s (fun t =>
          t = { s with arr := { s.arr with wc := t.arr.wc, trans := t.arr.trans } }.writeReply path (Reg.addr .TIMING_PREP 0 .glob 0) true 0 ∧
          ∀ d < 4, bitOf dies d = true → (∀ e ∈ t.arr.trans, e.1 / 10 ≠ d) ∧
            ∀ e ∈ t.arr.wc, wcOfDie d e.1 = true → ∀ w ∈ e.2, 0 < w.pins ∨ w.filling = true)) ∧
      (∀ d st, d < 4 → bitOf dies d = true → st < 64 → s.strState d st = 1 →
        Completes (.timingPrep path dies) s (fun t => t = s.writeReply path (Reg.addr .TIMING_PREP 0 .glob 0) false 0)))

/-! ## Detection and repair -/

/-- R23, R136, R359, R369, R372, R377, R379 to R383: a detection is counted whatever its ring holds, and takes a free entry, folds into a
record of its class, or takes the overflow slot of its class; what the units' tests, scrubs, pairs, edges and repairs do. -/
def Obligations.DetectionsAndRepairs : Prop :=
  ∀ (s : State),
    (∀ cls kind source die addr step detail replica, 1 ≤ cls → cls ≤ 0x1D → cls ∉ [3, 5, 7, 8, 0x18] → kind ≤ 15 → (cls = 9 → kind ≠ 12) →
      die ≤ 5 →
      Completes (.faultMessage cls kind source die none addr step detail replica) s (fun t =>
        t.rd F.ERR_COUNT_COUNT (64 * ringOf die + cls) = (s.rd F.ERR_COUNT_COUNT (64 * ringOf die + cls) + 1) % 2 ^ 64 ∧ t.mas = s.mas ∧
        (s.errUnread (ringOf die) < ringSize (ringOf die) →
          t.rd F.ERR_WR_SEQ (ringOf die) = (s.rd F.ERR_WR_SEQ (ringOf die) + 1) % 2 ^ 32 ∧
          ∃ e, t.errAt (errKey (ringOf die) (s.rd F.ERR_WR_SEQ (ringOf die))) = some e ∧ e.cls = cls ∧ e.kind = kind ∧ e.source = source ∧
            e.die = die ∧ e.addr = addr ∧ e.step = step ∧ e.detail = detail ∧ e.time = s.now ∧ e.last = s.now ∧ e.count = 1 ∧
            e.seq = s.rd F.ERR_WR_SEQ (ringOf die)) ∧
        (∀ k e, ringSize (ringOf die) ≤ s.errUnread (ringOf die) → s.foldTarget (ringOf die) cls = some k → s.errAt k = some e →
          t.rd F.ERR_WR_SEQ (ringOf die) = s.rd F.ERR_WR_SEQ (ringOf die) ∧
          t.errAt k = some { e with count := min (e.count + 1) (2 ^ 32 - 1), last := s.now, flags := e.flags ||| 1 }) ∧
        (ringSize (ringOf die) ≤ s.errUnread (ringOf die) → s.foldTarget (ringOf die) cls = none →
          t.ovfUsed (ringOf die) cls = true ∧ (t.errAt (ovfKey (ringOf die) cls)).isSome = true))) ∧
    (∀ cls kind source die c addr step detail replica, kind ≤ 15 → die < 4 → c < 4 →
      (cls = 2 → Completes (.faultMessage cls kind source die (some c) addr step detail replica) s (fun t => t.slotState die c = 4 ∧
        t.arr.messages = s.arr.messages ++ [(die, c, 3)])) ∧
      (0x0A ≤ cls → cls ≤ 0x0C → s.stepIn die (some c) = [] → s.slotState die c = 2 ∨ s.active die = some c →
        Completes (.faultMessage cls kind source die (some c) addr step detail replica) s (fun t => t.slotState die c = 2 ∧
          t.slotTokens die c = 0 ∧ s.adds t F.ERR_COUNT_COUNT 1 (64 * die + cls)))) ∧
    (∀ cls kind source die addr step detail replica, cls = 7 ∨ cls = 8 ∨ cls = 0x18 → kind ≤ 15 → die ≤ 5 → s.pte (pageOf addr) = none →
      Completes (.faultMessage cls kind source die none addr step detail replica) s (fun t => s.adds t F.TIER_UE_VALUE 1 ∧
        s.adds t F.ERR_COUNT_COUNT 1 (64 * ringOf die + cls) ∧ t.mas = s.mas)) ∧
    (∀ die kind source first last, die < 4 → Completes (.knownAnswerTest die kind source true first last) s (fun t =>
        t = (s.bump F.DIE_STALL_COUNT 512 11 (.die die)).holdAll die 512) ∧
      Completes (.knownAnswerTest die 0 source false first last) s (fun t => (die, source % 32, source / 32) ∈ t.stew.faulty ∧
        t.rd F.ERR_COUNT_COUNT (64 * die + 0x0D) = (s.rd F.ERR_COUNT_COUNT (64 * die + 0x0D) + 1) % 2 ^ 64)) ∧
    (∀ mem kind source die addr, mem < 4 → Completes (.patrolScrub mem .passed kind source die addr) s (fun t =>
        SMap.find? t.err.scrubAt mem = some s.now ∧ t = { s with err := { s.err with scrubAt := t.err.scrubAt } }) ∧
      (Completes (.patrolScrub mem .corrected kind source die addr) s (fun t => t.mas = s.mas ∧
        if mem = 3 then t = s else s.adds t F.ERR_COUNT_COUNT 1 (64 * ringOf die + [4, 6, 1].getD mem 1))) ∧
      (mem = 1 ∨ mem = 3 → s.pte (pageOf addr) = none → Completes (.patrolScrub mem .uncorrectable kind source die addr) s (fun t =>
        s.adds t F.TIER_UE_VALUE 1 ∧ s.adds t F.ERR_COUNT_COUNT 1 (64 * ringOf die + 0x17))) ∧
      (mem = 2 → Completes (.patrolScrub mem .uncorrectable kind source die addr) s (fun t => t.mas = s.mas ∧
        t.rd F.ERR_COUNT_COUNT (64 * ringOf die + 0x17) = (s.rd F.ERR_COUNT_COUNT (64 * ringOf die + 0x17) + 1) % 2 ^ 64))) ∧
    (∀ r < 5, (s.flag F.ERR_CFG_AUTO_RETIRE = false → Completes (.autoRetire r) s (fun t => t = s)) ∧
      (∀ e, s.flag F.ERR_CFG_AUTO_RETIRE = true → s.errUnread r = 1 → s.errAt (errKey r ((s.rd F.ERR_WR_SEQ r + 2 ^ 32 - 1) % 2 ^ 32)) = some e →
        (e.last + 1000000000 ≤ s.now → Completes (.autoRetire r) s (fun t => t.errUnread r = 0 ∧ t.err = s.err)) ∧
        (s.now < e.last + 1000000000 → Completes (.autoRetire r) s (fun t => t.errUnread r = 1 ∧ t.err = s.err)))) ∧
    (∀ i cls u, u ≤ s.now →
      (SMap.find? s.err.windows (i * 64 + cls) = some (u, []) → Completes (.errorEventWindow false i cls) s (fun t =>
        SMap.find? t.err.windows (i * 64 + cls) = none ∧ t = { s with err := { s.err with windows := t.err.windows } })) ∧
      (∀ k e, SMap.find? s.err.windows (i * 64 + cls) = some (u, [k]) → s.errAt k = some e → Completes (.errorEventWindow false i cls) s (fun t =>
        SMap.find? t.err.windows (i * 64 + cls) = some (s.now + 1000000, []) ∧ t.err.records = s.err.records)) ∧
      (∀ b, SMap.find? s.host.powerHeld (i * 64 + cls) = some (u, [b]) → Completes (.errorEventWindow true i cls) s (fun t =>
        SMap.find? t.host.powerHeld (i * 64 + cls) = some (s.now + 1000000, []) ∧ t.regs = s.regs))) ∧
    (∀ die pair replica, die < 4 → pair < 8 → (∀ st, 8 * pair ≤ st → st < 8 * pair + 8 → (s.stream die st).stepSlots = []) →
      (SMap.find? s.strm.mismatchAt (die * 8 + pair) = none → Completes (.lockstepMismatch die pair replica) s (fun t =>
        t.rd F.SERGE_STATUS_ONLINE pair (.die die) = 0 ∧ SMap.find? t.strm.mismatchAt (die * 8 + pair) = some s.now ∧ t.fuses = s.fuses ∧
        t.rd F.ERR_COUNT_COUNT (64 * die + 0x0E) = (s.rd F.ERR_COUNT_COUNT (64 * die + 0x0E) + 1) % 2 ^ 64)) ∧
      (∀ u, SMap.find? s.strm.mismatchAt (die * 8 + pair) = some u → s.now < u + 86400000000000 →
        Completes (.lockstepMismatch die pair replica) s (fun t => t.rd F.SERGE_STATUS_ONLINE pair (.die die) = 0 ∧
          t.pairRetired die pair = true ∧ (die, pair) ∈ t.fuses.retiredPairs)) ∧
      (s.pairRetired die pair = false → Completes (.sergePairRejoin die pair) s (fun t =>
        t.rd F.SERGE_STATUS_ONLINE pair (.die die) = 1 ∧ t = { s with regs := t.regs })) ∧
      (s.pairRetired die pair = true → Completes (.sergePairRejoin die pair) s (fun t => t = s))) ∧
    (∀ die pair replica, 4 ≤ die → die < 6 → pair < 4 → Completes (.lockstepMismatch die pair replica) s (fun t =>
      s.adds t F.ERR_COUNT_COUNT 1 (64 * ringOf die + 0x0F) ∧ t.mas = s.mas)) ∧
    (∀ die y x, die < 4 → y < 24 → x < s.cols →
      (s.stew.faulty.contains (die, y, x) = true → s.dieQuiet die = true → s.fuses.retiredDies.contains die = false → s.dieP die ≤ 2 →
        (2 ≤ s.spareCols die → Completes (.columnRepair die y x) s (fun t => t.fuses.repairs = s.fuses.repairs ++ [(die, s.repairPair die x)] ∧
          t.fuses.shrunk = true ∧ t.dieP die = 0 ∧ t.stew.faulty.contains (die, y, x) = false)) ∧
        (s.spareCols die < 2 → Completes (.columnRepair die y x) s (fun t => t.fuses = s.fuses ∧
          ∃ d ∈ t.stew.disables, d.kind = .die ∧ d.id = die ∧ d.retire = true))) ∧
      (s.stew.faulty.contains (die, y, x) = false ∨ s.dieQuiet die = false →
        Completes (.columnRepair die y x) s (fun t => t = s.turnAway "COLUMN_REPAIR"))) ∧
    (∀ e < 6, (s.modState = 5 → Completes (.velvetEdgeLoss e) s (fun t => t.rd F.VELVET_EDGE_MODULES_UP e = 0 ∧ t.rd F.VELVET_EDGE_STATE e = 0 ∧
        t.mas = s.mas)) ∧
      (s.modState = 3 → s.wts.pkgs = [] → (∀ j < 6, s.rd F.VELVET_EDGE_STATE j = 0 ∨ j = e) →
        Completes (.velvetEdgeLoss e) s (fun t => t.modState = 5)))

/-! ## The router -/

/-- R168 to R183, R185, R327: a header that keeps the rules begins an invocation, and any other freezes its context; a row's experts are
chosen by rank; no expert takes more choices than its capacity outside Linen mode; the list phase counts, and posts its summary; lists and results
of other modules gather their parts. -/
def Obligations.RouterSelectsWithinCapacity : Prop :=
  ∀ (s : State) (die c : Nat), die < 4 → c < 4 →
    (∀ t0 t1 rest, s.active die = some c → s.inv die c = none → (s.sumsOf die).any (fun m => decide (m.2.1 = c)) = false →
      (s.queue die identQid c).toks = t0 :: t1 :: rest →
      (s.headerOk die c (lane t0 32 0) (lane t1 32 0) = true →
        Completes (.routerHeader die) s (fun t => (t.queue die identQid c).toks = rest ∧ ∃ v, t.inv die c = some v ∧
          v.live = lane t0 32 0 % 32768 ∧ v.streamed = lane t0 32 0 / 65536 % 32768 ∧ v.table = lane t1 32 0 ∧ v.consumed = 0 ∧ v.rows = [] ∧
          v.choices = [] ∧ (v.selected = true ↔ v.streamed = 0))) ∧
      (s.headerOk die c (lane t0 32 0) (lane t1 32 0) = false →
        Completes (.routerHeader die) s (fun t => t.slotState die c = 4 ∧ t.active die = none ∧ t.inv die c = none ∧
          t.rd F.ROUTER_STATUS_BOUND_ERR 0 (.die die) = 1 ∧ t.rd F.ROUTER_STATUS_ERR_KIND 0 (.die die) = 0 ∧
          t.arr.messages = s.arr.messages ++ [(die, c, 2)]))) ∧
    (∀ v tok i0 i1 rest, s.active die = some c → s.inv die c = some v → v.selected = false → v.logits = [] → v.consumed < v.live → v.table < 8 →
      s.headTok die scoreQid c = some tok → (s.queue die identQid c).toks = i0 :: i1 :: rest → lane i0 32 0 < 65536 → lane i1 32 0 < 1048576 →
      s.tExperts die c v.table ≤ 32 →
      Completes (.routerSelection die) s (fun t =>
        let e := s.tExperts die c v.table
        let ss := (scores (s.tMode die c v.table % 4) ((lanes tok 32).take e)).1
        let ch := (chooseRow (s.tK die c v.table) (s.tMode die c v.table) ((List.range e).map (s.tBias die c v.table)) ss).1
        ∃ u, t.inv die c = some u ∧ u.consumed = v.consumed + 1 ∧ u.logits = [] ∧
          u.rows = v.rows ++ [{ slot := lane i0 32 0, pos := lane i1 32 0, nans := (ss.filter isNanCode).length }] ∧
          u.choices = v.choices ++ (List.range ch.length).map (fun j =>
            ⟨v.consumed, lane i0 32 0, lane i1 32 0, j, (ch.getD j (0, 0)).1, (ch.getD j (0, 0)).2, false⟩))) ∧
    (∀ v rest, s.routedOf die = c :: rest → s.inv die c = some v → v.ordered = false →
      let cs := capacity (s.slotLinen die c) (s.tCap die c v.table) [] (sortChoices v.choices)
      (dupRow v.rows = false → (∀ x ∈ cs, acceptedOf cs x.expert ≤ s.tListCap die c v.table) →
        Completes (.routerCapacity die) s (fun t => t.inv die c = some { v with choices := cs, ordered := true } ∧
          (s.slotLinen die c = false → ∀ e, acceptedOf cs e ≤ s.tCap die c v.table e) ∧ t.regs = s.regs)) ∧
      (∀ x ∈ cs, dupRow v.rows = false → s.tListCap die c v.table < acceptedOf cs x.expert →
        Completes (.routerCapacity die) s (fun t => t.slotState die c = 4 ∧ t.rd F.ROUTER_STATUS_ERR_KIND 0 (.die die) = 2 ∧
          t.inv die c = none)) ∧
      (dupRow v.rows = true → Completes (.routerCapacity die) s (fun t => t.slotState die c = 4 ∧
        t.rd F.ROUTER_STATUS_ERR_KIND 0 (.die die) = 1 ∧ t.inv die c = none))) ∧
    (∀ v rest, s.routedOf die = c :: rest → s.inv die c = some v → v.ordered = true → v.listed = false → v.table < 8 →
      (∀ e ∈ v.writes, e.2 = 0) → s.rowsAway die c v = [] →
      (∀ e ∈ s.listPlan die c v.table [] v.choices, s.rangeAccess State.writeAccess e.1 (128 + s.tRowBytes die c v.table) = .ok) →
      s.rangeAccess State.writeAccess (s.tReportBase die c v.table) (reportBytes ((s.rd F.ROUTER_INVOCATIONS_COUNT c (.die die) + 1) % 2 ^ 32)
        (s.tK die c v.table) v.table v).length = .ok →
      Completes (.routerLists die) s (fun t => t.inv die c = some { v with listed := true } ∧
        t.rd F.ROUTER_INVOCATIONS_COUNT c (.die die) = (s.rd F.ROUTER_INVOCATIONS_COUNT c (.die die) + 1) % 2 ^ 32 ∧
        (s.tSumId die c v.table, c, (v.choices.filter (·.accepted)).length) ∈ t.sumsOf die ∧
        ∀ e < s.tExperts die c v.table, e < 1024 →
          t.rd F.ROUTER_COUNT_ACCEPTED (1024 * c + e) (.die die) = acceptedOf v.choices e % 2 ^ F.ROUTER_COUNT_ACCEPTED.w)) ∧
    (∀ v rest, s.routedOf die = c :: rest → s.inv die c = some v → v.ordered = true → v.listed = false →
      (∃ e ∈ v.writes, 0 < e.2) → Completes (.routerLists die) s (fun t => t = s)) ∧
    (∀ src p body data, s.closed src 0x10 = false → s.stew.parts = [] → p.first = 0 → 0 < p.count → body.length % p.count = 0 →
      128 < body.length / p.count →
      (p.count < p.total → p.lastPart = false →
        Completes (.expertList src p body data) s (fun t =>
          t.stew.parts = [⟨src, 4, 0, p.step, p.table, p.expert, p.total, p.count, body⟩] ∧ t.mas = s.mas)) ∧
      (p.count = p.total → p.lastPart = true →
        Completes (.expertList src p body data) s (fun t => t.stew.parts = [] ∧ t.mas = s.mas ∧ t.arr = s.arr))) ∧
    (∀ src p body q1 q2 r, s.closed src 0x11 = false → s.stew.lists = [r] → r.module = src → r.step = p.step → r.table = p.table → r.expert = p.expert → r.total = p.total →
      r.got = 0 → p.first = 0 → 0 < p.count → body.length % p.count = 0 → 128 < body.length / p.count →
      (p.count < p.total → p.lastPart = false →
        Completes (.expertResult src p body q1 q2) s (fun t => t.stew.lists = [{ r with got := p.count, rows := r.rows ++ body }] ∧ t.arr = s.arr)) ∧
      (p.count = p.total → p.lastPart = true →
        Completes (.expertResult src p body q1 q2) s (fun t => t.stew.lists = [] ∧ t.mas = s.mas)))

/-! ## The memory tiers -/

/-- R197 to R199, R209, R213, R214: what a request of the migration ring does to the pages of its range when no other is open: it is taken
off the ring, goes from page to page, and one that is done records its completion; a request that breaks the layout is refused, and with
an empty ring nothing happens. -/
def Obligations.TierRequestsChangeTheirPages : Prop :=
  ∀ (s : State) (req : BitVec 256), s.mas.reqs = [] →
    let r := req.toNat
    let pn := pageOf (mqAddr r)
    (∀ c ∈ [(Sys2Proof.Instr.map req, 1), (.seal req, 2), (.free req, 3), (.promote req, 4), (.demote req, 5), (.setPlace req, 6), (.drop req, 7)],
      (s.rd F.MIG_HEAD_INDEX = s.rd F.MIG_TAIL_INDEX → Completes c.1 s (fun t => t = s)) ∧
      (s.rd F.MIG_HEAD_INDEX ≠ s.rd F.MIG_TAIL_INDEX → mqValid c.2 r = false →
        Completes c.1 s (fun t => s.migRecord t (mqTag r) migRefused 0 ∧ t.mas.pages = s.mas.pages ∧ t.mas.mem = s.mas.mem)) ∧
      (c.2 ≠ 1 → s.ringHas c.2 r → s.pte pn = none →
        Completes c.1 s (fun t => s.migRecord t (mqTag r) migFault 0 ∧ t.mas.pages = s.mas.pages ∧ t.mas.mem = s.mas.mem))) ∧
    (s.ringHas 1 r → s.mapFits (mqBudget r) (mqCount r) = true → s.leavesFit (mqPages r) = true →
      (∀ p ∈ mqPages r, s.mappable p = true ∧ s.jobOf p = none) →
      Completes (.map req) s (fun t => s.migRecord t (mqTag r) migOk (mqCount r) ∧
        ∀ p ∈ mqPages r, ∃ e, t.pte p = some e ∧ e.isSealed = false ∧ e.near = true ∧ e.budget = mqBudget r ∧ e.mwin = mqArg1 r ∧
          ∀ b < pageBytes, t.masByte (p * pageBytes + b) = 0)) ∧
    (s.ringHas 1 r → s.mapFits (mqBudget r) (mqCount r) = false →
      Completes (.map req) s (fun t => s.migRecord t (mqTag r) migNofit 0 ∧ t.mas.pages = s.mas.pages)) ∧
    (s.ringHas 2 r → (∀ p ∈ mqPages r, ∃ e, s.pte p = some e ∧ e.isSealed = false ∧ e.freeing = false ∧ e.sealing = false) →
      Completes (.seal req) s (fun t => s.requestWaits t r (mqPages r) ∧ (∀ p ∈ mqPages r, (t.pte p).map (·.sealing) = some true) ∧
        t.mas.mem = s.mas.mem)) ∧
    (s.ringHas 3 r → (∀ p ∈ mqPages r, ∃ e, s.pte p = some e ∧ e.freeing = false) →
      Completes (.free req) s (fun t => s.requestWaits t r (mqPages r) ∧
        (∀ p ∈ mqPages r, (t.pte p).map (·.freeing) = some true ∧ t.readAccess (p * pageBytes) = .fault) ∧ t.mas.mem = s.mas.mem)) ∧
    (s.ringHas 4 r → (∀ p ∈ mqPages r, ∃ e, s.pte p = some e ∧ e.near = true ∧ e.freeing = false) →
      Completes (.promote req) s (fun t => s.migRecord t (mqTag r) migOk (mqCount r) ∧ t.mas.pages = s.mas.pages ∧ t.mas.jobs = s.mas.jobs)) ∧
    (∀ e, s.ringHas 4 r → mqCount r = 1 → s.pte pn = some e → e.near = false → e.freeing = false → pteLost e = false → s.jobOf pn = none →
      Completes (.promote req) s (fun t => s.requestWaits t r [pn] ∧ (t.pte pn).map (·.moving) = some true ∧
        ∃ j ∈ t.mas.jobs, j.page = pn ∧ j.kind = .promote ∧ j.cls = 2)) ∧
    (∀ e, s.ringHas 5 r → mqCount r = 1 → s.pte pn = some e → e.isSealed = true → e.freeing = false → e.near = true →
      (e.place = 1 → Completes (.demote req) s (fun t => s.migRecord t (mqTag r) migRefused 0 ∧ t.mas.pages = s.mas.pages)) ∧
      (e.place ≠ 1 → s.jobOf pn = none →
        (e.bulk = true → s.keptPage pn = false →
          Completes (.demote req) s (fun t => s.migRecord t (mqTag r) migOk 1 ∧
            t.pte pn = some { e with near := false, windowed := false, nearStack := 0, nearFrame := 0 } ∧
            s.adds t F.MIG_DEMOTED_VALUE 1 ∧ t.mas.mem = s.mas.mem)) ∧
        (e.bulk = false → 0 < s.bulkFree → s.keptPage pn = false →
          Completes (.demote req) s (fun t => s.requestWaits t r [pn] ∧ t.pte pn = some { e with moving := true } ∧
            ∃ j ∈ t.mas.jobs, j.page = pn ∧ j.kind = .demoteBulk ∧ j.frame = s.pickBulk)) ∧
        (s.keptPage pn = true → Completes (.demote req) s (fun t => s.requestWaits t r [pn] ∧ t.pte pn = some e ∧
          ∃ j ∈ t.mas.jobs, j.page = pn ∧ j.kind = .demoteWait)))) ∧
    (s.ringHas 6 r → (∀ p ∈ mqPages r, ∃ e, s.pte p = some e ∧ e.freeing = false ∧ (mqArg0 r = 2 → e.isSealed = true → e.bulk = true)) →
      Completes (.setPlace req) s (fun t => s.migRecord t (mqTag r) migOk (mqCount r) ∧
        ∀ p ∈ mqPages r, t.pte p = (s.pte p).map (fun e => { e with place := mqArg0 r, budget := mqBudget r }))) ∧
    (∀ e, s.ringHas 6 r → mqCount r = 1 → mqArg0 r = 2 → s.pte pn = some e → e.freeing = false → e.isSealed = true → e.bulk = false →
      pteLost e = false → s.jobOf pn = none →
      (s.bulkFree = 0 → Completes (.setPlace req) s (fun t => s.migRecord t (mqTag r) migNofit 0 ∧ t.mas.pages = s.mas.pages)) ∧
      (0 < s.bulkFree → Completes (.setPlace req) s (fun t => s.requestWaits t r [pn] ∧ t.pte pn = some { e with moving := true } ∧
        ∃ j ∈ t.mas.jobs, j.page = pn ∧ j.kind = .toStream ∧ j.frame = s.pickBulk))) ∧
    (∀ e, s.ringHas 7 r → mqCount r = 1 → s.pte pn = some e → e.freeing = false → s.jobOf pn = none →
      (mqArg0 r = 1 → e.bulk = true →
        (e.deep = true → Completes (.drop req) s (fun t => s.migRecord t (mqTag r) migOk 1 ∧
          t.pte pn = some { e with bulk := false, bulkFrame := 0 })) ∧
        (e.deep = false → Completes (.drop req) s (fun t => s.migRecord t (mqTag r) migNofit 0 ∧ t.mas.pages = s.mas.pages))) ∧
      (mqArg0 r = 2 → e.deep = true →
        (1 < pteCopies e → Completes (.drop req) s (fun t => s.migRecord t (mqTag r) migOk 1 ∧
          t.pte pn = some { e with deep := false, deepDrive := 0, deepExtent := 0 } ∧
          ∀ v, SMap.find? t.mas.drives e.deepDrive = some v → SMap.find? v.records e.deepExtent = none)) ∧
        (pteCopies e ≤ 1 → Completes (.drop req) s (fun t => s.migRecord t (mqTag r) migNofit 0 ∧ t.mas.pages = s.mas.pages))))

/-- R198 to R200, R203, R205 to R207, R209 to R211, R219, R220: how migrations, seals and frees end, and what placement, failed channels,
drives and stacks, and the catalogues do to pages. -/
def Obligations.TiersMoveAndLosePages : Prop :=
  ∀ (s : State) (pn : Nat) (e : Pte), s.pte pn = some e →
    (∀ q, s.mas.reqs = [q] → q.waiting = [pn] → mqRest q = [] → s.noneWaits →
      let len := if pn + 1 = pageOf (mqAddr q.word) + mqCount q.word then mqArg0 q.word else 32768
      (mqOp q.word = 2 → len ≤ 32768 →
        Completes (.sealFinish pn) s (fun t => t.mas.reqs = [] ∧ s.migRecord t (mqTag q.word) q.status (q.pagesDone + 1) ∧
          (∃ u, t.pte pn = some u ∧ u.isSealed = true ∧ u.sealing = false ∧ u.len = len ∧ u.place = mqArg1 q.word % 4 ∧
            u.check = t.pageCheck pn len) ∧
          (∀ b, b < pageBytes → t.masByte (pn * pageBytes + b) = (if b < 64 * len then s.masByte (pn * pageBytes + b) else 0)) ∧
          ∀ x, pageOf x ≠ pn → t.masByte x = s.masByte x)) ∧
      (mqOp q.word = 3 → e.freeing = true → s.jobOf pn = none → s.keptPage pn = false →
        Completes (.freeRelease pn) s (fun t => t.mas.reqs = [] ∧ s.migRecord t (mqTag q.word) q.status (q.pagesDone + 1) ∧
          t.pte pn = none ∧ (∀ b < pageBytes, t.masByte (pn * pageBytes + b) = 0) ∧ ∀ x, pageOf x ≠ pn → t.masByte x = s.masByte x))) ∧
    ((∀ q ∈ s.mas.reqs, pn ∉ q.waiting) → Completes (.sealFinish pn) s (fun t => t = s)) ∧
    (e.freeing = false ∨ (s.jobOf pn).isSome = true ∨ s.keptPage pn = true → Completes (.freeRelease pn) s (fun t => t = s)) ∧
    (∀ g j, s.lastPart g pn j .promote → s.mas.reqs = [] →
      (j.stack ∉ s.fuses.retiredStacks →
        Completes (.promotionComplete (g, pn) true) s (fun t =>
          (∃ u, t.pte pn = some u ∧ u.near = true ∧ u.moving = false ∧ u.nearStack = j.stack ∧ u.nearFrame = j.frame ∧ u.windowed = j.win ∧
            u.bulk = e.bulk ∧ u.deep = e.deep) ∧
          t.jobOf pn = none ∧ s.adds t F.MIG_PROMOTED_VALUE 1 ∧ t.mas.mem = s.mas.mem)) ∧
      (e.isSealed = true → e.near = false → e.bulk = true →
        Completes (.promotionComplete (g, pn) false) s (fun t => (∃ u, t.pte pn = some u ∧ u.bulk = false ∧ u.near = false ∧ u.deep = e.deep) ∧
          t.mas.retiredBulk = s.mas.retiredBulk ++ [e.bulkFrame] ∧ s.adds t F.TIER_UE_VALUE 1 ∧ (t.jobOf pn = none ↔ e.deep = false))) ∧
      (e.isSealed = true → e.near = false → e.bulk = false → e.deep = true →
        Completes (.promotionComplete (g, pn) false) s (fun t => (t.pte pn).map pteLost = some true ∧ t.jobOf pn = none ∧
          s.adds t F.TIER_UE_VALUE 1))) ∧
    (∀ g o j, g < 2 → SMap.find? s.mas.work g = some pn → s.jobOf pn = some j → j.left = [g, o] → s.noneWaits →
      (j.kind = .promote → Completes (.promotionComplete (g, pn) true) s (fun t =>
        t.jobOf pn = some { j with left := [o] } ∧ t.mas.pages = s.mas.pages ∧ t.regs = s.regs)) ∧
      (j.kind ≠ .promote → j.kind ≠ .demoteWait → Completes (.pageTransferComplete (g, pn) true) s (fun t =>
        t.jobOf pn = some { j with left := [o] } ∧ t.mas.pages = s.mas.pages ∧ t.regs = s.regs))) ∧
    (∀ g j, s.lastPart g pn j .demoteBulk → s.mas.reqs = [] →
      (s.keptPage pn = false →
        Completes (.pageTransferComplete (g, pn) true) s (fun t => t.jobOf pn = none ∧ t.mas.mem = s.mas.mem ∧ s.adds t F.MIG_DEMOTED_VALUE 1 ∧
          ∃ u, t.pte pn = some u ∧ u.near = false ∧ u.bulk = true ∧ u.bulkFrame = j.frame ∧ u.moving = false)) ∧
      (e.near = true →
        Completes (.pageTransferComplete (g, pn) false) s (fun t => t.jobOf pn = none ∧ (e.nearStack, e.nearFrame) ∈ t.mas.retired ∧
          s.adds t F.TIER_UE_VALUE 1 ∧ ∃ u, t.pte pn = some u ∧ u.near = false ∧ u.moving = false ∧ u.bulk = e.bulk ∧ u.deep = e.deep))) ∧
    (∀ g j v, s.lastPart g pn j .copyDeep → s.mas.reqs = [] → e.near = false → SMap.find? s.mas.drives j.stack = some v →
      Completes (.pageTransferComplete (g, pn) true) s (fun t => t.jobOf pn = none ∧
        (∃ u, t.pte pn = some u ∧ u.deep = true ∧ u.deepDrive = j.stack ∧ u.deepExtent = j.frame ∧ u.moving = false ∧ u.bulk = e.bulk) ∧
        ∃ w x, SMap.find? t.mas.drives j.stack = some w ∧ SMap.find? w.records j.frame = some x ∧ x.page = pn ∧ x.check = e.check ∧
          x.len = e.len ∧ x.owner = e.owner ∧ x.seq = (s.mas.deepSeq + 1) % 2 ^ 32 ∧ x.data = s.pageData pn)) ∧
    (∀ g j, g < 2 → s.jobOf pn = some j → j.kind = .demoteWait → s.mas.reqs = [] → s.noneWaits →
      (s.keptPage pn = true → Completes (.pageTransferComplete (g, pn) true) s (fun t => t = s)) ∧
      (s.keptPage pn = false → e.near = true → e.bulk = true → Completes (.pageTransferComplete (g, pn) true) s (fun t =>
        t.jobOf pn = none ∧ t.pte pn = some { e with near := false, windowed := false, nearStack := 0, nearFrame := 0 }))) ∧
    (s.flag F.MAS_CFG_PLACE_EN = false ∨ s.rd F.POOL_WATER_LOW_WATER ≤ s.poolFree → Completes .placementDemotion s (fun t => t = s)) ∧
    (s.mas.jobs = [] → s.mas.reqs = [] →
      (s.flag F.MAS_CFG_PLACE_EN = true → s.poolFree < s.rd F.POOL_WATER_LOW_WATER → s.rd F.POOL_WATER_LOW_WATER ≤ s.rd F.POOL_WATER_HIGH_WATER →
        s.victim [] = some pn → e.bulk = true →
        Completes .placementDemotion s (fun t => (t.pte pn).map (·.near) = some false ∧ t.mas.mem = s.mas.mem)) ∧
      (s.mas.pages = [(pn, e)] → e.bulk = true → e.nodeep = false → e.moving = false → e.freeing = false →
        (∀ d, e.near = false → e.deep = false → 0 < s.bulkFree → s.pickDrive = some d →
          Completes .bulkToDeepCopy s (fun t => t.pte pn = some { e with moving := true } ∧
            ∃ j ∈ t.mas.jobs, j.page = pn ∧ j.kind = .copyDeep ∧ j.cls = 3 ∧ j.stack = d ∧ j.frame = s.pickExtent d)) ∧
        (e.deep = true → e.place ≠ 2 → s.bulkFree = 0 →
          Completes .bulkToDeepCopy s (fun t => t.pte pn = some { e with bulk := false, bulkFrame := 0 } ∧ t.mas.jobs = []))) ∧
      (∀ ch < 16, s.rd F.BULK_CFG_STATE = 1 → Completes (.ddrChannelFail ch) s (fun t =>
        t.pte pn = some (if e.bulk then { e with bulk := false, bulkFrame := 0 } else e) ∧
        t.rd F.BULK_CFG_STATE = (if ch < 8 then 3 else 2) ∧ t.rd F.BULK_FRAMES_COUNT = s.rd F.BULK_FRAMES_COUNT / 2)) ∧
      (∀ d < 16, Completes (.driveFail d) s (fun t => t.rd F.DEEP_DRIVE_STATE d = 4 ∧ t.rd F.DEEP_EXTENTS_COUNT d = 0 ∧
        SMap.find? t.mas.drives d = none ∧
        t.pte pn = some (if e.deep ∧ e.deepDrive = d then { e with deep := false, deepDrive := 0, deepExtent := 0 } else e))) ∧
      (∀ k < 20, s.fuses.retiredStacks.contains k = false → (s.fuses.retiredPairs.filter (fun x => decide (x.1 = k / 5))).length ≤ 4 →
        (s.fuses.retiredStacks.filter (fun x => decide (x / 5 = k / 5))).length < 4 →
        Completes (.stackRetire k) s (fun t => k ∈ t.fuses.retiredStacks ∧
          t.fuses.shrunk = true ∧ bitOf (t.rd F.STACKS_ONLINE_STACK_ONLINE) k = false ∧
          (e.isSealed = true → e.near = true → e.nearStack = k → e.place ≠ 1 → e.bulk = true → (t.pte pn).map (·.near) = some false)))) ∧
    (s.mas.epochAt + 1000000 * s.rd F.MAS_CFG_EPOCH_MS ≤ s.now → Completes .accessEpoch s (fun t =>
      t.pte pn = some { e with access := e.access / 2 } ∧ t = { s with mas := { s.mas with pages := t.mas.pages, epochAt := s.now } })) ∧
    (s.now < s.mas.epochAt + 1000000 * s.rd F.MAS_CFG_EPOCH_MS → Completes .accessEpoch s (fun t => t = s)) ∧
    (s.mas.scanDue = false → Completes .deepCatalogueScan s (fun t => t = s)) ∧
    (∀ d v x r, s.mas.scanDue = true → s.mas.drives = [(d, v)] → s.rd F.DEEP_DRIVE_STATE d = 1 → v.records = [(x, r)] →
      s.pte r.page = none → s.leavesFit [r.page] = true →
      (recordOk r = true → Completes .deepCatalogueScan s (fun t => t.pte r.page = some (deepPte d x r) ∧ t.mas.drives = s.mas.drives ∧
        t.mas.scanDue = false ∧ ∀ b < pageBytes, 64 * r.len ≤ b → t.masByte (r.page * pageBytes + b) = 0)) ∧
      (recordOk r = false → Completes .deepCatalogueScan s (fun t => t.pte r.page = none ∧ SMap.find? t.mas.drives d = some { v with records := [] })))

/-! ## Weight arrival and page messages -/

/-- R235 to R242, R229, R232: an install asks for the pages it can have, fails with the status the rules give, commits and is switched
in; the engines decode a block at a time. -/
def Obligations.InstallsFetchAndCommit : Prop :=
  ∀ (s : State) (h : Nat) (j : Inst) (p : Pkg), s.installing h j p →
    (∀ m m2 n pages, j.phase = 2 → j.since + 1000 * s.rd F.INSTALL_CFG_QUERY_US ≤ s.now → j.staged = false → j.hints = [m, m2] → m ≠ m2 →
      j.answers = [(m, n, pages)] → (queryParts p.imagePages).length ≤ n → (∀ q < p.imagePages, q ∈ pages) → 0 < p.imagePages →
      j.sources = [] → j.asked = [] → j.got = [] → s.reaches m →
      Completes (.queryTimeout h) s (fun t => (∃ k, t.inst h = some k ∧ k.phase = 3 ∧
        k.sources = (List.range p.imagePages).map (fun q => (q, m)) ∧ k.asked = List.range (min 64 p.imagePages)) ∧
        .message m 3 h [] (p.digest ++ toBytes 0 4 ++ toBytes (min 64 p.imagePages) 4) ∈ t.out)) ∧
    (j.phase = 2 → s.now < j.since + 1000 * s.rd F.INSTALL_CFG_QUERY_US → Completes (.queryTimeout h) s (fun t => t = s)) ∧
    (∀ m, j.phase = 1 → s.stagingRoom = true → j.staged = false → j.hints = [m] → 0 < p.imagePages → p.imagePages ≤ 4096 → s.reaches m →
      Completes (.stageFramesTimeout h) s (fun t => t.inst h = some { j with phase := 2, since := s.now } ∧
        .message m 1 h [] (p.digest ++ toBytes 0 4 ++ toBytes p.imagePages 4) ∈ t.out)) ∧
    (j.phase = 1 → s.stagingRoom = false →
      Completes (.stageFramesTimeout h) s (fun t => if j.since + 1000000000 ≤ s.now then t.installFailed h j stNofit 0 else t = s)) ∧
    (j.phase = 4 → j.confirmed.length < j.copies →
      Completes (.confirmTimeout h) s (fun t => if j.since + 5000000000 ≤ s.now then t.installFailed h j stNoreplica 0 else t = s)) ∧
    (∀ tm, j.phase = 4 → j.copies ≤ j.confirmed.length → s.mas.jobs = [] →
      Completes (.installCommit h tm) s (fun t => t.inst h = some { j with phase := 5 } ∧ t.pkg h = some { p with tmpl := tm } ∧
        ∃ r ∈ t.jr.queue, r.slot = 0xFFFF ∧ r.pay = .install h p.digest 3)) ∧
    (∀ tm, j.phase = 5 → s.jActive = true → s.jr.queue = [] → j.load = false → p.switching = none →
      Completes (.installCommit h tm) s (fun t => t.inst h = none ∧ t.pkg h = some { p with st := .installed } ∧
        ∀ u ∈ j.users, ∃ r ∈ t.jr.queue, ∃ op, r.pay = .status u.1 u.2 (toBytes u.2 8 ++ toBytes op 2 ++ toBytes stOk 2 ++ toBytes 0 4))) ∧
    (∀ w, p.switching = some w → w.begun = true → w.budget < 1024 → s.jr.spareFor = none →
      Completes (.switchInLoaded h true) s (fun t => t.pkg h = some { p with switching := none, slots := [], budget := 0 } ∧
        t.rd F.BUDGET_LIMIT w.budget = 0) ∧
      ((∀ e < p.execPages, ∀ q, s.pte (pageOf p.execBase + e) = some q → q.place ≠ 1 ∨ q.near = true) →
        (∀ k < p.contexts, ∃ d c img, p.slots[k]? = some (d, c) ∧ (s.slotState d c = 2 ∨ s.slotState d c = 3) ∧
          SMap.find? s.arr.images (dieCtx d c) = some img ∧ img.pkg = h ∧ img.idx = k) →
        Completes (.switchInLoaded h false) s (fun t => t.pkg h = some { p with st := .loaded, switching := none } ∧ t.mas = s.mas))) ∧
    (∀ e i v plane b, e < 6 → s.engineOn e = true → plane < 2 → p.sections[i]? = some v → v.ty = 3 → j.phase = 3 → i ∉ j.done →
      (∀ k w, k ≠ i → p.sections[k]? = some w → w.ty = 3 → k ∈ j.done) →
      SMap.find? j.stored (blockKey i plane b) = none → spanned j v.offset (min 64 v.len) = true →
      (tensorOf (imageBytes j v.offset (min 64 v.len)) = none →
        Completes (.taffetaBlockDecode e h i plane b) s (fun t => t.installFailed h j stRefused v.index)) ∧
      (∀ tn out b', tensorOf (imageBytes j v.offset (min 64 v.len)) = some tn → tablesEnd tn ≤ v.len →
        b < (if plane = 0 then tn.blocks0 else tn.blocks1) →
        spanned j v.offset (tablesEnd tn) = true →
        (let bs := imageBytes j v.offset v.len
         let o := blockAt bs tn plane b
         let n := at' bs o 4 % 2 ^ 24
         spanned j (v.offset + o) (min (4 + n) (v.len - o)) = true → servesBlock j e (v.offset + o) (min (4 + n) (v.len - o)) = true →
         decodeBlock bs v.len o (blockSize tn plane b) ((bs.drop (tableAt tn plane)).take 128) = some out →
         b' < tn.blocks0 → SMap.find? (SMap.insert j.stored (blockKey i plane b) out) (blockKey i 0 b') = none →
         Completes (.taffetaBlockDecode e h i plane b) s (fun t =>
           t.inst h = some { j with stored := SMap.insert j.stored (blockKey i plane b) out } ∧ t.mas = s.mas ∧
           (if e < 2 then s.adds t F.TAFFETA_IN_BYTES_COUNT (4 + n) e
            else s.adds t F.TAFFETA_DIE_IN_BYTES_COUNT (4 + n) 0 (.die (e - 2)))))))

/-- R223, R236, R237, R239, R325, R326: suppliers answer queries, fetches and confirmations from what they hold, and discard the malformed;
requesters take answers, pages and confirmations, and turn to the next source when one fails. -/
def Obligations.PagesAreSuppliedAndTaken : Prop :=
  (∀ (s : State) (src ref first count : Nat) (digest : List Byte), s.reaches src → (∀ ty, s.closed src ty = false) →
    (0 < count → count ≤ 4096 → Completes (.pageQuery src ref digest first count) s (fun t => t.wts = s.wts ∧ t.mas = s.mas ∧
      .message src 2 ref [] (digest ++ toBytes first 4 ++ toBytes count 4 ++
        toBytes (match s.wts.pkgs.find? (fun (e : Nat × Pkg) => decide (e.2.digest = digest)) with | some e => pkgCode e.2.st | none => 0) 1 ++
        toBytes 0 7 ++ toBytes ((List.range count).foldl (fun a k => if (s.supply digest (first + k)).isSome then a + 2 ^ k else a) 0)
          ((count + 7) / 8)) ∈ t.out)) ∧
    (count = 0 ∨ 4096 < count → Completes (.pageQuery src ref digest first count) s (fun t => s.adds t F.LINK_MOD_CNT_COUNT 1 6)) ∧
    (0 < count → count ≤ 64 → Completes (.pageFetch src ref digest first count) s (fun t => t.wts = s.wts ∧ t.mas = s.mas ∧
      ∀ k < count, match s.supply digest (first + k) with
        | some d => .message src 4 ref (toBytes (first + k) 4 ++ toBytes d.2.1 4 ++ toBytes d.1 2) d.2.2 ∈ t.out
        | none => .message src 5 ref (toBytes (first + k) 4) [] ∈ t.out)) ∧
    (count = 0 ∨ 64 < count → Completes (.pageFetch src ref digest first count) s (fun t => s.adds t F.LINK_MOD_CNT_COUNT 1 6)) ∧
    (s.wts.pkgs.find? (fun (e : Nat × Pkg) => decide (e.2.digest = digest)) = none →
      Completes (.confirmReq src ref digest) s (fun t => t.wts = s.wts ∧ .message src 7 ref [] (digest ++ toBytes 0 1 ++ toBytes 0 1) ∈ t.out)) ∧
    (∀ k p, s.wts.pkgs.find? (fun (e : Nat × Pkg) => decide (e.2.digest = digest)) = some (k, p) → p.st ≠ .absent → s.inst k = none →
      Completes (.confirmReq src ref digest) s (fun t => .message src 7 ref [] (digest ++ toBytes (pkgCode p.st) 1 ++
        toBytes (b2n ((List.range p.imagePages).all (fun q => (s.supply digest q).isSome))) 1) ∈ t.out))) ∧
  (∀ (s : State) (src ty : Nat), Completes (.malformedMsg src ty) s (fun t => s.adds t F.LINK_MOD_CNT_COUNT 1 6 ∧
    s.adds t F.ERR_COUNT_COUNT 1 (64 * 4 + 0x1B) ∧ t.link.inbox = (s.takeInbox src ty).link.inbox)) ∧
  (∀ (s : State) (h : Nat) (j : Inst) (p : Pkg) (src : Nat), s.installing h j p → (∀ ty, s.closed src ty = false) →
    (∀ first held m2, j.phase = 2 → src ∈ j.hints → m2 ∈ j.hints → m2 ≠ src → j.answers = [] →
      Completes (.pageAnswer src h p.digest first held) s (fun t => t.mas = s.mas ∧ t.inst h = some { j with answers :=
        [(src, 1, (List.range held.length).filterMap (fun k => if held.getD k false then some (first + k) else none))] })) ∧
    (∀ first held digest, digest ≠ p.digest ∨ j.phase ≠ 2 ∨ src ∉ j.hints →
      Completes (.pageAnswer src h digest first held) s (fun t => t.wts = s.wts ∧ t.mas = s.mas ∧ t.out = s.out)) ∧
    (∀ q data, j.phase = 3 → (q, src) ∈ j.sources → (∀ g ∈ j.got, g.1 ≠ q) → p.keepImage = false → j.got.length + 1 < p.imagePages →
      lacksPage j q 0 j.header.length → (∀ v ∈ p.sections, lacksPage j q v.offset (if v.ty = 3 then min 64 v.len else v.len)) →
      data.length % 64 = 0 → 0 < data.length → data.length ≤ pageBytes →
      Completes (.pageData src h q (crc32c data).toNat data) s (fun t => s.adds t F.FETCH_NEIGHBOUR_VALUE 1 ∧ t.mas = s.mas ∧
        ∃ k, t.inst h = some k ∧ k.got = j.got ++ [(q, data.length / 64, (crc32c data).toNat)] ∧ q ∉ k.asked ∧
          imageBytes k (q * pageBytes) data.length = data)) ∧
    (∀ data, j.phase = 3 → (0, src) ∈ j.sources → (∀ g ∈ j.got, g.1 ≠ 0) → data.length % 64 = 0 → 0 < data.length → data.length ≤ pageBytes →
      0 < j.header.length → j.header.length ≤ data.length → data.take j.header.length ≠ j.header →
      Completes (.pageData src h 0 (crc32c data).toNat data) s (fun t => t.installFailed h j stRefused 0)) ∧
    (∀ q m2 n pages, j.phase = 3 → (q, src) ∈ j.sources → (∀ g ∈ j.got, g.1 ≠ q) → j.hints = [src, m2] → src ≠ m2 →
      j.answers = [(m2, n, pages)] → q ∈ pages →
      (∀ check data, (crc32c data).toNat ≠ check → Completes (.pageData src h q check data) s (fun t => s.adds t F.FETCH_RETRY_VALUE 1 ∧
        ∃ k, t.inst h = some k ∧ (q, m2) ∈ k.sources ∧ (q, src) ∉ k.sources ∧ k.got = j.got)) ∧
      Completes (.pageRefuse src h q) s (fun t => s.adds t F.FETCH_RETRY_VALUE 1 ∧
        ∃ k, t.inst h = some k ∧ (q, m2) ∈ k.sources ∧ (q, src) ∉ k.sources ∧ k.got = j.got)) ∧
    (∀ tray st all, j.phase = 4 → src ∈ j.peers.take j.copies → (∀ c ∈ j.confirmed, c.1 ≠ src) →
      (p.kind = 1 → tray ≠ s.rd F.FAIL_DOMAIN_TRAY ∧ ∀ c ∈ j.confirmed, c.2 ≠ tray) →
      Completes (.confirm src h tray p.digest st all) s (fun t => t.inst h =
        some (if 2 ≤ st ∧ st ≤ 4 ∨ st = 1 ∧ all = true then { j with confirmed := j.confirmed ++ [(src, tray)] } else j))))

/-! ## Links -/

/-- R33, R307, R309, R312 to R324, R330, R331: ports train, fault, retry under NAKs and credits, and deliver messages in order;
destinations fall silent, are probed and come back; routes are set; velvet modules replay and are retrained; a module without its identifier
takes nothing from its links. -/
def Obligations.LinksTrainAndRetry : Prop :=
  (∀ (s : State), s.flag F.MODULE_NUM_ID_VALID = false → s.link.inbox = [] →
    ∀ (src a b n d e : Nat) (x : Bool) (body digest : List Byte) (held : List Bool) (rs : List JRec) (p : ExpertPart) (q : TkState) (f : Fleet),
      ∀ c ∈ ([.pageQuery src a digest b n, .pageAnswer src a digest b held, .pageFetch src a digest b n, .pageData src a b n body,
          .pageRefuse src a b, .confirmReq src a digest, .confirm src a b digest n x, .expertList src p body digest,
          .expertResult src p body a b, .jrnlRecords src rs, .jrnlAck src a b f, .jrnlHeartbeat src, .pairReq src a b, .pairGrant src a b f,
          .fenceOut src a, .resyncData src rs [], .takeoverAssign src a b n, .takeoverState src q, .takeoverToken src a b n d x,
          .takeoverAck src a b n, .takeoverCtrl src a b n body [], .spareCall src a b, .faultNotice src [], .e2eReceive src a b none none] :
          List Sys2Proof.Instr), Completes c s (fun t => t = s)) ∧
  (∀ (s : State) (p : Nat), p < 32 → s.wts.jobs = [] → let v := s.port p
    (∀ q : Partner, s.portState p = 1 → v.phase = 0 → 0 < q.lanes →
      Completes (.linkTraining p q) s (fun t => t.portState p = 2 ∧ (t.port p).phase = 1 ∧ (t.port p).since = s.now)) ∧
    (∀ (q : Partner) c, s.portState p = 2 → v.phase = 3 → s.flag F.MODULE_NUM_ID_VALID = true → s.identifyFault p q = some c → c < 8 →
      Completes (.linkTraining p q) s (fun t => t.portState p = 6 ∧ t.rd F.LINK_PORT_STATUS_CAUSE p = c ∧ (t.port p).phase = 0)) ∧
    (∀ q : Partner, s.portState p = 2 → v.phase = 4 → q.clean = true → q.isSwitch = false → s.link.waiting = [] →
      Completes (.linkTraining p q) s (fun t => t.portState p = (if s.portWidth p = 4 then 3 else 4) ∧
        t.port p = { Port.empty with faults := v.faults, credits := [128, 128, 896, 896], drain := v.drain })) ∧
    (∀ q : Partner, s.portState p = 2 →
      (v.phase = 1 → Completes (.linkTraining p q) s (fun t => t.port p = { v with phase := 2 } ∧ t.regs = s.regs)) ∧
      (v.phase = 2 → Completes (.linkTraining p q) s (fun t => t.port p = { v with phase := 3 } ∧
        t.portWidth p = (if 4 ≤ q.lanes then 4 else if 2 ≤ q.lanes then 2 else q.lanes))) ∧
      (v.phase = 3 → s.flag F.MODULE_NUM_ID_VALID = true → s.identifyFault p q = none →
        Completes (.linkTraining p q) s (fun t => t.port p = { v with phase := 4 } ∧ t.portState p = 2 ∧
          t.flag F.LINK_PORT_STATUS_PEER_SWITCH p = q.isSwitch)) ∧
      (v.phase = 3 → s.flag F.MODULE_NUM_ID_VALID = false → Completes (.linkTraining p q) s (fun t => t = s))) ∧
    (s.portState p = 2 ∨ s.portState p = 5 → 0 < v.phase → (v.phase = 3 → s.flag F.MODULE_NUM_ID_VALID = true) →
      Completes (.trainingTimeout p) s (fun t => if v.since + trainBound (s.portClass p) ≤ s.now then s.portFaulted t p 2 else t = s)) ∧
    (2 ≤ s.portState p → s.portState p ≤ 4 → Completes (.lossOfSignal p) s (fun t => s.portFaulted t p 1)) ∧
    (s.portUp p → Completes (.laneFailure p) s (fun t => s.portFaulted t p 5)) ∧
    (s.portUp p → s.blocksShut = false → v.drain = none → Completes (.retrain p) s (fun t => s.portFaulted t p 0)) ∧
    (s.blocksShut = true → Completes (.retrain p) s (fun t => t = s.turnAway "RETRAIN")) ∧
    (s.blocksShut = false → s.portState p = 0 → s.portClass p ≠ 0 → (.linkPort, p) ∉ s.stew.disabled →
      Completes (.enablePort p true) s (fun t => t.portState p = 1 ∧ t.flag F.LINK_PORT_CFG_ENABLE p = true)) ∧
    (s.blocksShut = false → Completes (.enablePort p false) s (fun t => t.portState p = 0 ∧ t.flag F.LINK_PORT_CFG_ENABLE p = false)) ∧
    (∀ e, s.carries p = true → v.replay = [e] → v.tries < 8 → e.1 < 4096 →
      Completes (.nakReceive p e.1) s (fun t => (t.port p).replay = [(e.1, s.now, e.2.2)] ∧ (t.port p).tries = v.tries + 1 ∧
        s.adds t F.LINK_CNT_COUNT 1 (8 * p + 4) ∧ .flit p (flitBytes e.2.2 e.1 ((v.expect + 4095) % 4096)) ∈ t.out)) ∧
    (∀ e l, s.portUp p → v.replay = e :: l → e.2.1 + 8000 ≤ s.now →
      (v.tries < 8 → Completes (.replayTimeout p) s (fun t => (t.port p).tries = v.tries + 1 ∧
        .flit p (flitBytes e.2.2 e.1 ((v.expect + 4095) % 4096)) ∈ t.out)) ∧
      (8 ≤ v.tries → Completes (.replayTimeout p) s (fun t => s.portFaulted t p 3))) ∧
    (∀ e vc n, s.carries p = true → v.replay = [e] → v.queue = [] → vc < 4 →
      Completes (.creditReceive p vc n e.1) s (fun t => t.port p =
        { v with replay := [], tries := 0, credits := v.credits.set vc (v.credits.getD vc 0 + n) })) ∧
    (∀ raw, s.carries p = true → v.nakSent = false → bitsOf (ofBytes (laneDecode raw).1) (8 * 252) 32 ≠ (crc32c ((laneDecode raw).1.take 252)).toNat →
      Completes (.dataFlitReceive p raw) s (fun t => .nak p v.expect ∈ t.out ∧ (t.port p).nakSent = true ∧ t.link.inbox = s.link.inbox ∧
        s.adds t F.LINK_CNT_COUNT 1 (8 * p + 2) ∧ s.adds t F.ERR_COUNT_COUNT 1 (64 * 4 + 0x11))) ∧
    (∀ (raw : List Byte) (f : Flit) (lack ty ref n : Nat) (arg body : List Byte), s.carries p = true → v.expect < 4096 → v.replay = [] → lack < 4096 →
      laneDecode raw = (flitBytes f v.expect lack, n) → f.vc < 4 → f.dst < 8192 → f.src < 8192 → f.flow < 256 → f.last = true →
      f.src ≠ s.ownId → s.rxFlow (flowKey f.src f.vc f.flow) = { RxFlow.empty with expect := f.fseq } → f.fseq < 2 ^ 32 →
      (msgVc ty).isSome = true → ref < 2 ^ 64 → arg.length = 16 → body.length ≤ 208 →
      f.payload = msgBytes ty ref arg body ++ List.replicate (208 - body.length) 0 →
      Completes (.dataFlitReceive p raw) s (fun t => { src := f.src, ty := ty, ref := ref, arg := arg, body := body } ∈ t.link.inbox ∧
        (t.port p).expect = (v.expect + 1) % 4096 ∧ .credit p f.vc 1 v.expect ∈ t.out ∧
        (t.rxFlow (flowKey f.src f.vc f.flow)).expect = (f.fseq + 1) % 2 ^ 32))) ∧
  (∀ (s : State) (m vc flow : Nat), m < 8192 → vc < 4 → flow < 256 →
    let r := s.rxFlow (flowKey m vc flow)
    let x := s.txFlow (flowKey m vc flow)
    Completes (.e2eAckTimer m vc flow) s (fun t => if 0 < r.count ∧ r.lastAt + 2000 ≤ s.now then
      .e2eAck m vc flow ((r.expect + 2 ^ 32 - 1) % 2 ^ 32) ∈ t.out ∧ (t.rxFlow (flowKey m vc flow)).count = 0 else t = s) ∧
    (∀ a q f, r.gapSince = some a → r.store = [(q, f)] → q < 2 ^ 32 → r.expect < 2 ^ 32 →
      Completes (.reorderTimeout m vc flow) s (fun t => if a + 1000 * s.rd F.LINK_TIMING_REORDER_US ≤ s.now then
        .e2eMissing m vc flow r.expect ((q + 2 ^ 32 - 1) % 2 ^ 32) ∈ t.out ∧ (t.rxFlow (flowKey m vc flow)).gapSince = some s.now else t = s)) ∧
    (∀ e, s.flag F.MODULE_NUM_ID_VALID = true → x.unacked = [e] → e.flit.fseq < 2 ^ 32 →
      Completes (.e2eReceive m vc flow (some e.flit.fseq) none) s (fun t => t.txFlow (flowKey m vc flow) = { x with unacked := [] } ∧
        SMap.find? t.link.heard m = some s.now) ∧
      (∀ a b, s.routePorts m = [a, b] → a ≠ b → e.ports = [a] → s.portWidth b ≠ 0 →
        Completes (.e2eReceive m vc flow none (some (e.flit.fseq, e.flit.fseq))) s (fun t => s.adds t F.LINK_MOD_CNT_COUNT 1 1 ∧
          (t.txFlow (flowKey m vc flow)).unacked = [{ e with ports := [a, b] }]))) ∧
    (s.e2eSilent m = true → s.stew.lists = [] → s.stew.reqs = [] → s.wts.jobs = [] → s.jr.table = [] → s.jr.partner ≠ some m →
      Completes (.e2eDead m []) s (fun t => t.unreachable m = true ∧ (t.txFlow (flowKey m vc flow)).unacked = [] ∧
        s.adds t F.LINK_MOD_CNT_COUNT 1 5 ∧ s.adds t F.ERR_COUNT_COUNT 1 (64 * 4 + 0x12))) ∧
    (s.e2eSilent m = false → Completes (.e2eDead m []) s (fun t => t = s)) ∧
    (∀ reset time, s.flag F.MODULE_NUM_ID_VALID = true → s.reaches m → Completes (.probe m true reset time) s (fun t =>
      .message m 0x31 0 (toBytes time 8 ++ toBytes s.now 8) [] ∈ t.out ∧ (reset = true → t.rxFlow (flowKey m vc flow) = RxFlow.empty))) ∧
    (∀ a reset time, SMap.find? s.link.dead m = some a → Completes (.probe m false reset time) s (fun t => if a + 1000000 ≤ s.now then
      .message m 0x30 0 (toBytes s.now 8 ++ [1#8]) [] ∈ t.out ∧ SMap.find? t.link.dead m = some s.now else t = s)) ∧
    (s.unreachable m = true → s.flag F.MODULE_NUM_ID_VALID = true → Completes (.probeReply m) s (fun t => t.unreachable m = false ∧
      t.txFlow (flowKey m vc flow) = { next := 0, unacked := [] })) ∧
    (∀ w, s.link.waiting = [w] → w.dst = m → 0x20 ≤ w.ty → Completes (.norouteTimeout m) s (fun t =>
      if w.since + 1000 * s.rd F.LINK_TIMING_NOROUTE_US ≤ s.now then t.link.waiting = [] ∧ .undelivered m w.ty true ∈ t.out ∧
        s.adds t F.LINK_MOD_CNT_COUNT 1 4 else t = s)) ∧
    (∀ primary alt, s.blocksShut = false → s.wts.jobs = [] → Completes (.route m primary alt) s (fun t => t.rd F.ROUTE_PRIMARY m = primary % 2 ^ 32 ∧
      t.rd F.ROUTE_ALT m = alt % 2 ^ 32))) ∧
  (∀ (s : State) (e k : Nat), e < 6 → k < 16 →
    (∀ n, Completes (.velvetReplay e k n) s (fun t => s.adds t F.VELVET_RETRY_COUNT n e ∧ s.adds t F.ERR_COUNT_COUNT 1 (64 * 4 + 0x10) ∧
      SMap.find? t.link.crcAt (16 * e + k) = some (s.now :: s.crcTimes e k))) ∧
    (16 ≤ (s.crcTimes e k).length → bitOf (s.rd F.VELVET_EDGE_MODULES_UP e) k = true →
      Completes (.ucieRetrain e k true) s (fun t => SMap.find? t.link.crcAt (16 * e + k) = none ∧
        t.rd F.VELVET_EDGE_MODULES_UP e = s.rd F.VELVET_EDGE_MODULES_UP e ∧
        t.rd F.VELVET_EDGE_RETRAINS e = min (s.rd F.VELVET_EDGE_RETRAINS e + 1) (2 ^ F.VELVET_EDGE_RETRAINS.w - 1)) ∧
      (s.modState = 1 ∨ s.modState = 5 ∨ s.cutOff = [] ∧ s.rd F.VELVET_EDGE_STATE e ≠ 0 ∧ s.rd F.VELVET_EDGE_MODULES_UP e ≠ 2 ^ k →
        Completes (.ucieRetrain e k false) s (fun t => SMap.find? t.link.crcAt (16 * e + k) = none ∧
          t.rd F.VELVET_EDGE_MODULES_UP e = s.rd F.VELVET_EDGE_MODULES_UP e - 2 ^ k ∧
          t.rd F.VELVET_EDGE_STATE e = (if s.rd F.VELVET_EDGE_MODULES_UP e = 2 ^ k then 0 else 2)))) ∧
    (∀ ok, (s.crcTimes e k).length < 16 → Completes (.ucieRetrain e k ok) s (fun t => t = s)))

/-- R321: the reorder store holds 16,384 flits; once it is full, the next expected flit of a flow is still delivered, and any other
is discarded and counted in REORDER_DROP. -/
def Obligations.ReorderStoreIsBounded : Prop :=
  ∀ (s : State) (p : Nat) (raw : List Byte) (f : Flit) (lack n : Nat), p < 32 → s.carries p = true → (s.port p).expect < 4096 → lack < 4096 →
    laneDecode raw = (flitBytes f (s.port p).expect lack, n) → f.vc < 4 → f.dst < 8192 → f.src < 8192 → f.flow < 256 → f.fseq < 2 ^ 32 →
    f.payload.length = 240 → f.src ≠ s.ownId →
    let k := flowKey f.src f.vc f.flow
    let r := s.rxFlow k
    (s.reorderUsed < 16384 → 0 < (f.fseq + 2 ^ 32 - r.expect) % 2 ^ 32 → (f.fseq + 2 ^ 32 - r.expect) % 2 ^ 32 < 2 ^ 31 → r.expect < 2 ^ 32 →
      (∀ e ∈ r.store, e.1 ≠ f.fseq) →
      Completes (.dataFlitReceive p raw) s (fun t => (t.rxFlow k).store = r.store ++ [(f.fseq, f)] ∧ t.link.inbox = s.link.inbox)) ∧
    (16384 ≤ s.reorderUsed → f.fseq = r.expect → f.last = false → (∀ e ∈ r.store, e.1 ≠ (f.fseq + 1) % 2 ^ 32) →
      Completes (.dataFlitReceive p raw) s (fun t => (t.rxFlow k).part = r.part ++ f.payload ∧
        (t.rxFlow k).expect = (f.fseq + 1) % 2 ^ 32)) ∧
    (∀ (ty ref : Nat) (arg body pad : List Byte), 16384 ≤ s.reorderUsed → f.fseq = r.expect → f.last = true → (msgVc ty).isSome = true →
      ref < 2 ^ 64 → arg.length = 16 → body.length < 2 ^ 32 → r.part ++ f.payload = msgBytes ty ref arg body ++ pad →
      Completes (.dataFlitReceive p raw) s (fun t => { src := f.src, ty := ty, ref := ref, arg := arg, body := body } ∈ t.link.inbox)) ∧
    (16384 ≤ s.reorderUsed → f.fseq ≠ r.expect →
      Completes (.dataFlitReceive p raw) s (fun t => t.link.rx = s.link.rx ∧ t.link.inbox = s.link.inbox ∧
        s.adds t F.LINK_MOD_CNT_COUNT 1 2))

/-! ## The journal, partners and takeover -/

/-- R338 to R349, R358: records leave in batches, are held, acknowledged and take effect; partners keep each other's time; pairs form,
are granted, retried and lost; a fenced module gives up its requests and takes back its records. -/
def Obligations.PartnersJournalAndPair : Prop :=
  (∀ (s : State) (src : Nat), s.jr.partner = some src → s.reaches src → (∀ ty, s.closed src ty = false) →
    (∀ r : JRec, r.jsn = s.jr.mirrorJsn + 1 → s.mirrorUsed + recsSize [r] ≤ mirrorBytes → 
      Completes (.jrnlRecords src [r]) s (fun t => (r, s.now) ∈ t.jr.mirror ∧ t.jr.mirrorJsn = r.jsn ∧
        t.jr.heardAt = s.now ∧ t.jr.refusing = false ∧ .message src 0x21 0 (toBytes r.jsn 8 ++ toBytes t.mirrorFree 8) [] ∈ t.out) ∧
      Completes (.resyncData src [r] []) s (fun t => (r, s.now) ∈ t.jr.mirror ∧ t.jr.mirrorJsn = r.jsn ∧
        t.jr.heardAt = s.now ∧ t.jr.refusing = false ∧ .message src 0x21 0 (toBytes r.jsn 8 ++ toBytes t.mirrorFree 8) [] ∈ t.out)) ∧
    (∀ rs, mirrorBytes < s.mirrorUsed + recsSize rs → Completes (.jrnlRecords src rs) s (fun t =>
      t.jr.mirror = s.jr.mirror ∧ t.jr.mirrorJsn = s.jr.mirrorJsn ∧ t.jr.refusing = true)) ∧
    (∀ (r : JRec) jsn free fleet, s.jr.queue = [r] → r.origin = none → r.jsn ≤ jsn → jsn ≤ s.rd F.JOURNAL_JSN_VALUE →
      s.rd F.JOURNAL_ACKED_VALUE ≤ jsn → s.jr.activeAt = none → s.jr.refused = false → s.jr.resyncTo < r.jsn → s.jr.settled = [] →
      s.host.sessions = [] →
      (∀ h d c, r.pay = .install h d c → s.jState = 3 → Completes (.jrnlAck src jsn free fleet) s (fun t =>
        t.rd F.JOURNAL_ACKED_VALUE = jsn ∧ t.jr.heardAt = s.now ∧ t.jr.free = free ∧ t.jr.queue = [] ∧ r ∈ t.jr.live)) ∧
      (∀ qp session seq tag op status d body, r.pay = .reply qp 0 session seq tag op status d body → op ∉ [4, 0x21, 0x40] → s.jState = 3 →
        Completes (.jrnlAck src jsn free fleet) s (fun t => t.jr.queue = [] ∧
          ∃ cr, .reply qp session op seq status cr d false 0 body ∈ t.out)) ∧
      (s.jState ≠ 3 → Completes (.jrnlAck src jsn free fleet) s (fun t => t.rd F.JOURNAL_ACKED_VALUE = jsn ∧ t.jr.queue = [r] ∧
        t.out = s.out))) ∧
    Completes (.jrnlHeartbeat src) s (fun t => t.jr.heardAt = s.now) ∧
    (s.unsent ≠ [] → s.jr.progress = [] → s.jr.refused = false → s.jr.batchAt + 1000 ≤ s.now →
      Completes .journalBatch s (fun t => (∀ r ∈ t.jr.queue, r.sent ≠ none) ∧ t.jr.free = s.jr.free - recsSize s.unsent ∧
        .message src 0x20 0 [] (s.unsent.flatMap jrecBytes) ∈ t.out)) ∧
    (s.jr.refused = true ∨ s.unsent = [] ∧ s.jr.progress = [] → Completes .journalBatch s (fun t => t = s)) ∧
    Completes .journalHbTimer s (fun t => if s.jr.sentAt + s.hbNs ≤ s.now then .message src 0x22 0 (toBytes s.jState 1) [] ∈ t.out ∧
      t.jr.sentAt = s.now else t = s) ∧
    Completes .refusedBatchAck s (fun t => if s.jr.refusing = true ∧ s.jr.ackAt + s.hbNs ≤ s.now then
      .message src 0x21 0 (toBytes s.jr.mirrorJsn 8 ++ toBytes s.mirrorFree 8) [] ∈ t.out ∧ t.jr.ackAt = s.now else t = s) ∧
    (src < 8192 → s.stew.lists = [] → s.jr.table = [] →
      Completes (.partnerTimeout []) s (fun t => if s.jr.heardAt + s.timeoutNs ≤ s.now then s.partnerLost t src else t = s) ∧
      (s.flag F.MODULE_NUM_ID_VALID = true → Completes (.faultNotice src []) s (fun t => s.partnerLost t src)))) ∧
  (∀ (s : State) (src : Nat), s.jr.partner ≠ some src →
    Completes (.jrnlHeartbeat src) s (fun t => t.jr = s.jr) ∧ Completes (.faultNotice src []) s (fun t => t = s) ∧
    (∀ rs, (src ∈ s.jr.origins → s.reaches src → s.closed src 0x20 = false → Completes (.jrnlRecords src rs) s (fun t => t.jr = s.jr ∧
        .message src 0x25 0 (toBytes s.ownId 2) [] ∈ t.out)) ∧
      (src ∉ s.jr.origins → Completes (.jrnlRecords src rs) s (fun t => t.jr = s.jr ∧ t.out = s.out)))) ∧
  (∀ (s : State) (src : Nat), s.jr.partner = none →
    (∀ jsn, mirrorRegion ≤ s.poolFree → s.reaches src → s.closed src 0x23 = false → Completes (.pairReq src src jsn) s (fun t => t.jr.partner = some src ∧
      t.rd F.JOURNAL_STATUS_PARTNER_ACT = src % 2 ^ F.JOURNAL_STATUS_PARTNER_ACT.w ∧
      .message src 0x24 0 (toBytes src 2 ++ toBytes mirrorBytes 8) [] ∈ t.out)) ∧
    (∀ old jsn, s.poolFree < mirrorRegion → old ≠ s.ownId → Completes (.pairReq src old jsn) s (fun t => t.jr = s.jr ∧ t.out = s.out)) ∧
    (∀ k size fleet, s.jr.asking = some k → src ∈ s.alternates → s.closed src 0x24 = false →
      Completes (.pairGrant src s.ownId size fleet) s (fun t => t.jr.partner = some src)) ∧
    (∀ size fleet, s.jr.asking = none → s.jr.reqSent = false → Completes (.pairGrant src s.ownId size fleet) s (fun t => t.jr = s.jr ∧ t.out = s.out)) ∧
    (s.jState = 1 → s.namedPartner = some src → s.reaches src → mirrorRegion ≤ s.poolFree →
      Completes .pairRetry s (fun t => if s.jr.askedAt + s.timeoutNs ≤ s.now then
        .message src 0x23 0 (toBytes src 2 ++ toBytes 0 8) [] ∈ t.out ∧ t.jr.askedAt = s.now else t = s)) ∧
    (∀ k, s.jState = 4 ∨ s.jState = 5 → s.jr.asking = some k → s.alternates[k + 1]? = some src → s.reaches src →
      Completes .pairRetry s (fun t => if s.jr.askedAt + s.timeoutNs ≤ s.now then t.jr.asking = some (k + 1) ∧
        .message src 0x23 0 (toBytes s.jr.oldPartner 2 ++ toBytes (s.rd F.JOURNAL_JSN_VALUE) 8) [] ∈ t.out else t = s)) ∧
    (s.jState = 4 → Completes .journalHoldRecord s (fun t => if s.jr.holdAt + 1000000000 ≤ s.now then t.jr.holdAt = s.now ∧
      s.adds t F.ERR_COUNT_COUNT 1 (64 * 4 + 0x19) else t = s))) ∧
  (∀ (s : State) (src home : Nat), s.closed src 0x25 = false → s.jr.fencedBy ≠ some home ∨ s.jr.partner = none →
    Completes (.fenceOut src home) s (fun t => t.stew.reqs = [] ∧ t.jState = 5 ∧ t.jr.partner = none ∧ t.jr.fencedBy = some home ∧
      s.adds t F.FAILOVER_CNT_COUNT 1 4 ∧ t.jr.table = [])) ∧
  (∀ (s : State) (src : Nat), s.closed src 0x26 = false → s.jr.fencedBy = some src → s.jr.partner ≠ some src →
    (∀ c, Completes (.resyncData src [] [c]) s (fun t => .rerun c.1 c.2.1 c.2.2 ∈ t.out)) ∧
    (∀ (r : JRec) i v rings, r.pay = .session i (some v) rings → Completes (.resyncData src [r] []) s (fun t =>
      t.session i = some { v with st := .detached, qps := [], held := [], since := s.now, closing := 0 })))

/-- R150, R250, R255, R336, R351 to R355, R364: members take requests over and answer their home; spares are called; shard holders
change; commands left open complete with FAULT; tenants' levels refill and are set at the tick; the steward's standby takes over. -/
def Obligations.TakeoverAndStewardAct : Prop :=
  (∀ (s : State) (src o oslot prio : Nat), s.closed src 0x27 = false → Completes (.takeoverAssign src o oslot prio) s (fun t =>
    (src, o, oslot, prio) ∈ t.jr.assigns ∧ t.stew = s.stew ∧
    ∀ a ∈ s.jr.assigns, (a.1, a.2.1, a.2.2.1) ≠ (src, o, oslot) → a ∈ t.jr.assigns)) ∧
  (∀ (s : State) (src prio : Nat) (q : TkState), s.closed src 0x28 = false →
    (∀ k, s.jr.assigns = [(src, q.origin, q.slot, prio)] → s.lowestSlot = some k → Completes (.takeoverState src q) s (fun t =>
      t.jr.assigns = [] ∧ ∃ r, t.req k = some r ∧ r.st = .waiting ∧ r.desc = q.desc ∧ r.input = q.input ∧ r.tokens = q.tokens ∧
        r.rebuilt = q.prefixPos ∧ r.tenant = q.tenant ∧ r.member = some (src, q.origin, q.slot) ∧ r.prio = some prio)) ∧
    (s.jr.assigns = [(src, q.origin, q.slot, prio)] → s.lowestSlot = none → s.reaches src → Completes (.takeoverState src q) s (fun t =>
      ∃ rec', .message src 0x2B 0 (toBytes q.slot 2 ++ toBytes 2 1 ++ toBytes q.origin 2) rec' ∈ t.out ∧ rec'.getD 2 0 = 11)) ∧
    (s.jr.assigns = [] → Completes (.takeoverState src q) s (fun t => t.stew = s.stew ∧ t.jr = s.jr ∧ t.out = s.out))) ∧
  (∀ (s : State) (src o oslot : Nat) (q : TkReq), s.tk o oslot = some q → q.member = some src → q.final = none →
    q.origin = o → q.slot = oslot → s.closed src 0x29 = false → s.closed src 0x2B = false →
    (∀ tok last, s.jr.queue = [] → Completes (.takeoverToken src o oslot (q.tokens.length + 1) tok last) s (fun t =>
      s.adds t F.JOURNAL_JSN_VALUE 1 ∧ (t.jr.queue.map (fun r => (r.origin, r.slot, r.pay))) =
        [(some o, oslot, .commit [(q.tokens.length + 1, tok)])])) ∧
    (∀ index tok last, index ≠ q.tokens.length + 1 → Completes (.takeoverToken src o oslot index tok last) s (fun t => t.jr = s.jr)) ∧
    (∀ (rec' : List Byte) able, o ≠ s.ownId → ofBytes ((rec'.drop 2).take 1) ≠ 12 →
      Completes (.takeoverCtrl src o oslot 2 rec' able) s (fun t => (∃ r ∈ t.jr.queue, r.origin = some o ∧ r.slot = oslot ∧
        r.pay = .final (homeRecord rec' oslot q.session s.ownId)) ∧
        (t.tk o oslot).map (·.final) = some (some (homeRecord rec' oslot q.session s.ownId))))) ∧
  (∀ (s : State) (src o oslot k : Nat) (r : Req), s.stew.reqs = [(k, r)] → r.member = some (src, o, oslot) → r.st ≠ .ending →
    s.closed src 0x2A = false → s.closed src 0x2B = false →
    (∀ tok, r.awaitAck = some tok → r.ended = false → r.cancelled = false → Completes (.takeoverAck src o oslot r.produced) s (fun t =>
      t.req k = some { r with tokens := r.tokens ++ [tok], awaitAck := none, lastCommit := s.now, charged := r.charged + 1 } ∧
      t.level r.tenant = max (s.level r.tenant - 1000) (-(2 ^ 47)))) ∧
    (∀ tok, r.awaitAck = some tok → r.ended = true → Completes (.takeoverAck src o oslot r.produced) s (fun t => t.req k = none)) ∧
    (∀ rec' able, Completes (.takeoverCtrl src o oslot 0 rec' able) s (fun t => t.req k = some { r with cancelled := true }) ∧
      Completes (.takeoverCtrl src o oslot 1 rec' able) s (fun t => t.req k = none))) ∧
  (∀ (s : State) (src failed tray : Nat), failed < 8192 → s.closed src 0x2C = false →
    (∀ m, s.flag F.SERVICE_CFG_SPARE = false → s.spares = [s.ownId, m] → s.inService m = true → s.reaches m →
      Completes (.spareCall src failed tray) s (fun t => .message m 0x2C 0 (toBytes failed 2 ++ toBytes tray 2) [] ∈ t.out)) ∧
    (s.flag F.SERVICE_CFG_SPARE = true → s.modState = 2 → s.noServing = false → s.wts.pkgs = [] →
      Completes (.spareCall src failed tray) s (fun t => t.rd F.HOLDER_ALT_H0 failed = s.ownId ∧
        t.rd F.HOLDER_ALT_H1 failed = s.rd F.HOLDER_ALT_H0 failed ∧ t.rd F.HOLDER_ALT_COUNT failed = min (s.rd F.HOLDER_ALT_COUNT failed + 1) 3 ∧
        t.jr.spareFor = none))) ∧
  (∀ (s : State) (src m h0 h1 h2 count : Nat) (inSvc : Bool), m < 8192 → count < 4 → s.closed src 0x2D = false →
    s.stew.lists = [] → s.wts.jobs = [] → s.jr.table = [] →
    (s.trayMate ≠ some m ∨ s.flag F.SERVICE_CFG_POLICY = true ∨ s.inService m = false ∨ inSvc = true →
      Completes (.shardUpdate src m h0 h1 h2 count inSvc []) s (fun t => t.rd F.HOLDER_ALT_H0 m = h0 % 8192 ∧
        t.rd F.HOLDER_ALT_H1 m = h1 % 8192 ∧ t.rd F.HOLDER_ALT_H2 m = h2 % 8192 ∧ t.rd F.HOLDER_ALT_COUNT m = count ∧
        t.flag F.HOLDER_ALT_OUT m = !inSvc ∧ t.modState = s.modState)) ∧
    (s.trayMate = some m → s.flag F.SERVICE_CFG_POLICY = false → s.inService m = true → s.modState = 3 → s.wts.pkgs = [] → s.boot.drainTo = none →
      Completes (.shardUpdate src m h0 h1 h2 count false []) s (fun t => t.flag F.HOLDER_ALT_OUT m = true ∧ t.modState = 4 ∧
        t.boot.drainTo = some true ∧ t.boot.drainBy = s.now + 60000000000))) ∧
  (∀ (s : State) (o se seq op i : Nat) (k : List Byte) (v : Session), s.jr.openCmds = [(o, se, seq, op)] →
    SMap.find? s.jr.subjects (256 * o + se) = some k → s.session i = some v → v.st = .active → v.subject = k → i < 256 →
    (∀ n < i, ∀ w, s.session n = some w → w.st = .active → w.subject ≠ k) →
    Completes .rejoinExpiry s (fun t => if s.now < s.jr.rejoinBy then t = s else t.jr.openCmds = [] ∧
      t.out = (s.sendEvent i 0x8002 1 (toBytes seq 8 ++ toBytes op 2 ++ toBytes stFault 2 ++ toBytes o 4)).out)) ∧
  (∀ (s : State) (tn : Nat), tn < 4096 →
    (∀ dies, s.stew.reqs = [] → s.stew.budgetWrites = [] → Completes (.tenantRefill dies) s (fun t => t.level tn =
      (if s.rd F.TENANT_BUDGET_RATE tn = 0 ∨ 1000 * (s.rd F.TENANT_BUDGET_BURST tn : Int) ≤ s.level tn then s.level tn
       else min (s.level tn + s.rd F.TENANT_BUDGET_RATE tn) (1000 * (s.rd F.TENANT_BUDGET_BURST tn : Int))))) ∧
    (∀ v dies, s.stew.reqs = [] → s.stew.budgetWrites = [(tn, 3, v)] → Completes (.tenantRefill dies) s (fun t => t.stew.budgetWrites = [] ∧
      t.level tn = min (1000 * signed32 v) (1000 * (s.rd F.TENANT_BUDGET_BURST tn : Int)))) ∧
    (∀ v, s.blocksShut = false → Completes (.level tn v) s (fun t =>
      t.stew.budgetWrites = s.stew.budgetWrites ++ [(tn, 3, v % 2 ^ 32)] ∧ t.stew.levels = s.stew.levels))) ∧
  (∀ (s : State), s.flag F.STEWARD_STATUS_STANDBY_READY = false → 2 ≤ s.modState → s.modState ≤ 4 →
    Completes .stewardTakeover s (fun t => t.modState = 5)) ∧
  (∀ (s : State) (h : Nat) (fs : List Flight), s.flag F.STEWARD_STATUS_STANDBY_READY = true → s.stew.flights = [(h, fs)] →
    Completes .stewardTakeover s (fun t =>
    t.rd F.STEWARD_STATUS_SIDE = 1 - s.rd F.STEWARD_STATUS_SIDE ∧ t.flag F.STEWARD_STATUS_STANDBY_READY = false ∧
    t.rd F.STEWARD_STATUS_TAKEOVERS = min (s.rd F.STEWARD_STATUS_TAKEOVERS + 1) (2 ^ F.STEWARD_STATUS_TAKEOVERS.w - 1) ∧
    t.jr = s.jr ∧ t.flightsOf h = fs.map (fun f => if f.stepped then f else { f with drops := f.drops.filter (fun x => decide (x.1 ≠ f.stage)) }) ∧
    ∀ f ∈ fs, f.stepped = false → .microBatch h f.rows ∈ t.out)) ∧
  (∀ (s : State) (die : Nat), die < 4 →
    (s.dieBetweenSteps die = true → Completes (.idleStepBoundary die) s (fun t =>
      bitOf t.arr.timeRepeat die = bitOf (t.rd F.TIME_REPEAT_DIE) die)) ∧
    (s.dieBetweenSteps die = false → Completes (.idleStepBoundary die) s (fun t => t = s)))
end

