-- ==== Sys2Proof/Laws/Maps.lean ====
section
/-!
SUPPORT. Laws of sparse tables: what a lookup finds after an entry was set or removed, and that every operation keeps the keys
rising and the canonical form.
-/
namespace Sys2Proof.Machine.SMap

variable {α : Type}

theorem find?_erase_self (m : SMap α) (k : Nat) : find? (erase m k) k = none := by
  induction m with
  | nil => rfl
  | cons e m ih => simp only [erase]; split <;> simp_all [find?]

theorem find?_erase_of_ne (m : SMap α) {k j : Nat} (h : j ≠ k) : find? (erase m k) j = find? m j := by
  induction m with
  | nil => rfl
  | cons e m ih => simp only [erase]; split <;> simp_all [find?]; omega

theorem find?_insert_self (m : SMap α) (k : Nat) (a : α) : find? (insert m k a) k = some a := by
  induction m with
  | nil => simp [insert, find?]
  | cons e m ih => simp only [insert]; split <;> (try split) <;> simp_all [find?]

theorem find?_insert_of_ne (m : SMap α) {k j : Nat} (a : α) (h : j ≠ k) : find? (insert m k a) j = find? m j := by
  induction m with
  | nil => simp [insert, find?, Ne.symm h]
  | cons e m ih =>
    simp only [insert]
    split
    · simp_all [find?, Ne.symm h]
    · split <;> simp_all [find?, Ne.symm h]

theorem getD_setD_self [DecidableEq α] (m : SMap α) (k : Nat) (a d : α) : getD (setD m k a d) k d = a := by
  unfold getD setD
  split
  · simp_all [find?_erase_self]
  · simp [find?_insert_self]

theorem getD_setD_of_ne [DecidableEq α] (m : SMap α) {k j : Nat} (a d : α) (h : j ≠ k) (e : α) :
    getD (setD m k a d) j e = getD m j e := by
  unfold getD setD
  split
  · rw [find?_erase_of_ne m h]
  · rw [find?_insert_of_ne m a h]

theorem risesFrom_mono {b c : Nat} (h : b ≤ c) (m : SMap α) (hm : risesFrom c m = true) : risesFrom b m = true := by
  cases m with
  | nil => rfl
  | cons e m => simp_all [risesFrom]; omega

theorem risesFrom_filter (b : Nat) (m : SMap α) (p : Nat × α → Bool) (hm : risesFrom b m = true) :
    risesFrom b (m.filter p) = true := by
  induction m generalizing b with
  | nil => rfl
  | cons e m ih =>
    simp only [risesFrom, Bool.and_eq_true, decide_eq_true_eq] at hm
    simp only [List.filter_cons]
    split
    · simp [risesFrom, hm.1, ih _ hm.2]
    · exact risesFrom_mono (by omega) _ (ih _ hm.2)

theorem erase_eq_filter (m : SMap α) (k : Nat) : erase m k = m.filter (fun e => decide (e.1 ≠ k)) := by
  induction m with
  | nil => rfl
  | cons e m ih => simp only [erase, List.filter_cons]; split <;> simp_all

theorem risesFrom_insert (b : Nat) (m : SMap α) (k : Nat) (a : α) (hb : b ≤ k) (hm : risesFrom b m = true) :
    risesFrom b (insert m k a) = true := by
  induction m generalizing b with
  | nil => simp [insert, risesFrom, hb]
  | cons e m ih =>
    simp only [risesFrom, Bool.and_eq_true, decide_eq_true_eq] at hm
    simp only [insert]
    split
    · simp_all [risesFrom]
    · split
      · simp only [risesFrom, Bool.and_eq_true, decide_eq_true_eq]; exact ⟨hb, by omega, hm.2⟩
      · simp only [risesFrom, Bool.and_eq_true, decide_eq_true_eq]; exact ⟨hm.1, ih _ (by omega) hm.2⟩

theorem mem_insert (m : SMap α) (k : Nat) (a : α) (e : Nat × α) (h : e ∈ insert m k a) : e = (k, a) ∨ e ∈ m := by
  induction m with
  | nil => simp_all [insert]
  | cons q m ih =>
    simp only [insert] at h
    split at h
    · simp_all; tauto
    · split at h
      · simp_all
      · simp only [List.mem_cons] at h ⊢
        rcases h with h | h
        · exact .inr (.inl h)
        · rcases ih h with h | h <;> simp [h]

theorem wfB_nil [DecidableEq α] (d : α) : wfB d ([] : SMap α) = true := rfl

theorem wfB_filter [DecidableEq α] (d : α) (m : SMap α) (p : Nat × α → Bool) (h : wfB d m = true) :
    wfB d (m.filter p) = true := by
  simp only [wfB, Bool.and_eq_true, List.all_eq_true] at h ⊢
  exact ⟨risesFrom_filter 0 m p h.1, fun e he => h.2 e (List.mem_of_mem_filter he)⟩

theorem wfB_keep [DecidableEq α] (d : α) (m : SMap α) (p : Nat → α → Bool) (h : wfB d m = true) : wfB d (keep m p) = true :=
  wfB_filter d m _ h

theorem wfB_erase [DecidableEq α] (d : α) (m : SMap α) (k : Nat) (h : wfB d m = true) : wfB d (erase m k) = true := by
  rw [erase_eq_filter]; exact wfB_filter d m _ h

theorem wfB_insert [DecidableEq α] (d : α) (m : SMap α) (k : Nat) (a : α) (ha : a ≠ d) (h : wfB d m = true) :
    wfB d (insert m k a) = true := by
  simp only [wfB, Bool.and_eq_true, List.all_eq_true] at h ⊢
  refine ⟨risesFrom_insert 0 m k a (Nat.zero_le _) h.1, fun e he => ?_⟩
  rcases mem_insert m k a e he with rfl | he
  · simpa using ha
  · exact h.2 e he

/-- A write keeps the canonical form. -/
theorem wfB_setD [DecidableEq α] (d : α) (m : SMap α) (k : Nat) (a : α) (h : wfB d m = true) : wfB d (setD m k a d) = true := by
  unfold setD
  split
  · exact wfB_erase d m k h
  · exact wfB_insert d m k a ‹_› h

theorem wfB_foldl_setD [DecidableEq α] {β : Type} (d : α) (es : List β) (f : β → Nat) (g : β → α) (m : SMap α)
    (h : wfB d m = true) : wfB d (es.foldl (fun m e => setD m (f e) (g e) d) m) = true := by
  induction es generalizing m with
  | nil => exact h
  | cons e es ih => exact ih _ (wfB_setD d m _ _ h)

end Sys2Proof.Machine.SMap
end

