-- ==== Sys2Proof/Laws/Regs.lean ====
section
/-!
SUPPORT. Laws of registers: bits of a number after some are replaced, words and fields after a write, and what a write of a
register leaves alone.
-/
namespace Sys2Proof.Machine

/-! ## Bits -/

theorem bitsOf_lt (n lo w : Nat) : bitsOf n lo w < 2 ^ w := Nat.mod_lt _ (Nat.two_pow_pos w)

theorem split_bits (n lo w : Nat) : n = n / 2 ^ (lo + w) * 2 ^ (lo + w) + bitsOf n lo w * 2 ^ lo + n % 2 ^ lo := by
  have h1 := Nat.div_add_mod n (2 ^ lo)
  have h2 := Nat.div_add_mod (n / 2 ^ lo) (2 ^ w)
  have h3 : n / 2 ^ (lo + w) = n / 2 ^ lo / 2 ^ w := by rw [Nat.pow_add, Nat.div_div_eq_div_mul]
  rw [h3, bitsOf, Nat.pow_add]
  calc n = 2 ^ lo * (n / 2 ^ lo) + n % 2 ^ lo := h1.symm
    _ = 2 ^ lo * (2 ^ w * (n / 2 ^ lo / 2 ^ w) + n / 2 ^ lo % 2 ^ w) + n % 2 ^ lo := by rw [h2]
    _ = _ := by ring

theorem putBits_eq (n lo w v : Nat) :
    putBits n lo w v = n / 2 ^ (lo + w) * 2 ^ (lo + w) + v % 2 ^ w * 2 ^ lo + n % 2 ^ lo := by
  have h := split_bits n lo w
  unfold putBits
  omega

theorem putBits_div (n lo w v : Nat) : putBits n lo w v / 2 ^ (lo + w) = n / 2 ^ (lo + w) := by
  have hv : v % 2 ^ w < 2 ^ w := Nat.mod_lt _ (Nat.two_pow_pos w)
  have hl : n % 2 ^ lo < 2 ^ lo := Nat.mod_lt _ (Nat.two_pow_pos lo)
  have : v % 2 ^ w * 2 ^ lo + n % 2 ^ lo < 2 ^ (lo + w) := by
    calc v % 2 ^ w * 2 ^ lo + n % 2 ^ lo < v % 2 ^ w * 2 ^ lo + 2 ^ lo := by omega
      _ = (v % 2 ^ w + 1) * 2 ^ lo := by ring
      _ ≤ 2 ^ w * 2 ^ lo := Nat.mul_le_mul_right _ hv
      _ = _ := by rw [Nat.pow_add]; ring
  rw [putBits_eq, Nat.add_assoc, Nat.mul_comm, Nat.mul_add_div (Nat.two_pow_pos _), Nat.div_eq_of_lt this]; rfl

theorem putBits_mod (n lo w v : Nat) : putBits n lo w v % 2 ^ lo = n % 2 ^ lo := by
  rw [putBits_eq, Nat.pow_add]
  have : n / (2 ^ lo * 2 ^ w) * (2 ^ lo * 2 ^ w) + v % 2 ^ w * 2 ^ lo + n % 2 ^ lo
      = n % 2 ^ lo + 2 ^ lo * (n / (2 ^ lo * 2 ^ w) * 2 ^ w + v % 2 ^ w) := by ring
  rw [this, Nat.add_mul_mod_self_left, Nat.mod_mod]

theorem bitsOf_putBits_self (n lo w v : Nat) : bitsOf (putBits n lo w v) lo w = v % 2 ^ w := by
  have h1 := split_bits (putBits n lo w v) lo w
  have h2 := putBits_eq n lo w v
  rw [putBits_div, putBits_mod] at h1
  have h3 : bitsOf (putBits n lo w v) lo w * 2 ^ lo = v % 2 ^ w * 2 ^ lo := by omega
  exact Nat.eq_of_mul_eq_mul_right (Nat.two_pow_pos lo) h3

theorem bitsOf_above (n m lo w lo' w' : Nat) (h : n / 2 ^ (lo + w) = m / 2 ^ (lo + w)) (hl : lo + w ≤ lo') :
    bitsOf n lo' w' = bitsOf m lo' w' := by
  obtain ⟨d, rfl⟩ := Nat.exists_eq_add_of_le hl
  simp only [bitsOf]
  rw [Nat.pow_add _ (lo + w) d, ← Nat.div_div_eq_div_mul, ← Nat.div_div_eq_div_mul, h]

theorem bitsOf_mod (n k lo w : Nat) (h : lo + w ≤ k) : bitsOf (n % 2 ^ k) lo w = bitsOf n lo w := by
  obtain ⟨d, rfl⟩ := Nat.exists_eq_add_of_le h
  simp only [bitsOf]
  rw [show lo + w + d = lo + (w + d) by omega, Nat.pow_add, Nat.mod_mul_right_div_self, Nat.pow_add,
    Nat.mod_mul_right_mod]

theorem bitsOf_below (n m lo lo' w' : Nat) (h : n % 2 ^ lo = m % 2 ^ lo) (hl : lo' + w' ≤ lo) :
    bitsOf n lo' w' = bitsOf m lo' w' := by
  rw [← bitsOf_mod n lo lo' w' hl, h, bitsOf_mod m lo lo' w' hl]

theorem bitsOf_putBits_of_disjoint (n lo w v lo' w' : Nat) (h : lo + w ≤ lo' ∨ lo' + w' ≤ lo) :
    bitsOf (putBits n lo w v) lo' w' = bitsOf n lo' w' := by
  rcases h with h | h
  · exact bitsOf_above _ _ lo w lo' w' (putBits_div n lo w v) h
  · exact bitsOf_below _ _ lo lo' w' (putBits_mod n lo w v) h

/-! ## Words -/

theorem State.word_setWord_self (s : State) (r : Reg) (i : Nat) (w : Win) (k : Nat) (v : Word) :
    (s.setWord r i w k v).word r i w k = v := SMap.getD_setD_self ..

theorem State.word_setWord_of_ne (s : State) (r r' : Reg) (i i' : Nat) (w w' : Win) (k k' : Nat) (v : Word)
    (h : r'.addr i' w' k' ≠ r.addr i w k) : (s.setWord r i w k v).word r' i' w' k' = s.word r' i' w' k' :=
  SMap.getD_setD_of_ne _ _ _ h _

theorem Reg.addr_inj (r : Reg) (i : Nat) (w : Win) {k k' : Nat} (h : r.addr i w k = r.addr i w k') : k = k' := by
  unfold Reg.addr at h; omega

/-- The words of `n` words from `k` that a write of them leaves alone. -/
theorem State.word_setSpan_of_ne (s : State) (r r' : Reg) (i i' : Nat) (w w' : Win) (k k' v n : Nat)
    (h : ∀ j < n, r'.addr i' w' k' ≠ r.addr i w (k + j)) : (s.setSpan r i w k v n).word r' i' w' k' = s.word r' i' w' k' := by
  induction n generalizing s k v with
  | zero => rfl
  | succ n ih =>
    rw [State.setSpan, ih, State.word_setWord_of_ne]
    · simpa using h 0 (by omega)
    · intro j hj
      rw [show k + 1 + j = k + (j + 1) by omega]
      exact h (j + 1) (by omega)

theorem State.span_congr (s t : State) (r : Reg) (i : Nat) (w : Win) (k n : Nat)
    (h : ∀ j < n, s.word r i w (k + j) = t.word r i w (k + j)) : s.span r i w k n = t.span r i w k n := by
  induction n generalizing k with
  | zero => rfl
  | succ n ih =>
    simp only [State.span]
    rw [ih (k + 1) (fun j hj => by rw [show k + 1 + j = k + (j + 1) by omega]; exact h (j + 1) (by omega))]
    rw [show s.word r i w k = t.word r i w k by simpa using h 0 (by omega)]

theorem State.span_setSpan_self (s : State) (r : Reg) (i : Nat) (w : Win) (k v n : Nat) :
    (s.setSpan r i w k v n).span r i w k n = v % 2 ^ (32 * n) := by
  induction n generalizing s k v with
  | zero => simp [State.span, Nat.mod_one]
  | succ n ih =>
    rw [State.setSpan, State.span, ih, State.word_setSpan_of_ne, State.word_setWord_self]
    · have : 2 ^ (32 * (n + 1)) = 2 ^ 32 * 2 ^ (32 * n) := by rw [← Nat.pow_add]; congr 1; ring
      rw [this, Nat.mod_mul]; simp
    · intro j _ h
      have := Reg.addr_inj r i w h; omega

/-! ## Fields -/

/-- The addresses of a field's words. -/
def Fld.at' (f : Fld) (i : Nat) (w : Win) : List Nat := (List.range f.wordCount).map (fun k => f.reg.addr i w (f.firstWord + k))

theorem Fld.fits (f : Fld) : f.lo % 32 + f.w ≤ 32 * f.wordCount := by unfold Fld.wordCount; omega

/-- A field holds what was written, cut to its width. -/
theorem State.rd_wr_self (s : State) (f : Fld) (v i : Nat) (w : Win) : (s.wr f v i w).rd f i w = v % 2 ^ f.w := by
  rw [State.rd, State.wr, State.span_setSpan_self, bitsOf_mod _ _ _ _ f.fits, bitsOf_putBits_self]

/-- A field whose words lie elsewhere keeps its value. -/
theorem State.rd_wr_of_apart (s : State) (f g : Fld) (v i j : Nat) (w w' : Win)
    (h : ∀ a < f.wordCount, ∀ b < g.wordCount, g.reg.addr j w' (g.firstWord + b) ≠ f.reg.addr i w (f.firstWord + a)) :
    (s.wr f v i w).rd g j w' = s.rd g j w' := by
  rw [State.rd, State.wr, State.rd]
  congr 1
  exact State.span_congr _ _ _ _ _ _ _ (fun b hb => State.word_setSpan_of_ne _ _ _ _ _ _ _ _ _ _ _ (fun a ha => h a ha b hb))

/-- Another field of the same words keeps its value. -/
theorem State.rd_wr_same_words (s : State) (f g : Fld) (v i : Nat) (w : Win) (hr : g.reg = f.reg)
    (h1 : g.firstWord = f.firstWord) (h2 : g.wordCount = f.wordCount)
    (h : f.lo % 32 + f.w ≤ g.lo % 32 ∨ g.lo % 32 + g.w ≤ f.lo % 32) : (s.wr f v i w).rd g i w = s.rd g i w := by
  have := g.fits
  rw [State.rd, State.wr, State.rd, hr, h1, h2, State.span_setSpan_self, bitsOf_mod _ _ _ _ (by omega),
    bitsOf_putBits_of_disjoint _ _ _ _ _ _ h]

/-- What a write of a field leaves alone: every register word elsewhere. -/
theorem State.word_wr_of_apart (s : State) (f : Fld) (v i : Nat) (w : Win) (r : Reg) (j : Nat) (w' : Win) (k : Nat)
    (h : ∀ a < f.wordCount, r.addr j w' k ≠ f.reg.addr i w (f.firstWord + a)) :
    (s.wr f v i w).word r j w' k = s.word r j w' k :=
  State.word_setSpan_of_ne _ _ _ _ _ _ _ _ _ _ _ h

theorem State.setSpan_regs_only (s : State) (r : Reg) (i : Nat) (w : Win) (k v n : Nat) :
    s.setSpan r i w k v n = { s with regs := (s.setSpan r i w k v n).regs } := by
  induction n generalizing s k v with
  | zero => rfl
  | succ n ih => rw [State.setSpan, ih]; rfl

/-- A write of a field changes registers only. -/
theorem State.wr_regs_only (s : State) (f : Fld) (v i : Nat) (w : Win) : s.wr f v i w = { s with regs := (s.wr f v i w).regs } :=
  State.setSpan_regs_only ..

end Sys2Proof.Machine
end

