-- ==== Sys2Proof/Laws/State.lean ====
section
/-!
SUPPORT. What each update of the state leaves alone and what it sets: one lemma for each field of the state and each named
update, and that a register field reads the same in states with the same registers.
-/
namespace Sys2Proof.Machine

theorem State.rd_congr {s t : State} (h : t.regs = s.regs) (f : Fld) (i : Nat) (w : Win) : t.rd f i w = s.rd f i w := by
  unfold State.rd
  congr 1
  exact State.span_congr _ _ _ _ _ _ _ (fun b _ => by rw [State.word, State.word, h])

theorem State.flag_congr {s t : State} (h : t.regs = s.regs) (f : Fld) (i : Nat) (w : Win) : t.flag f i w = s.flag f i w := by
  unfold State.flag
  rw [State.rd_congr h]

@[simp] theorem State.out_emit (s : State) (o : Out) : (s.emit o).out = o :: s.out := rfl
@[simp] theorem State.pending_emit (s : State) (o : Out) : (s.emit o).pending = s.pending := rfl
@[simp] theorem State.now_emit (s : State) (o : Out) : (s.emit o).now = s.now := rfl
@[simp] theorem State.fresh_emit (s : State) (o : Out) : (s.emit o).fresh = s.fresh := rfl
@[simp] theorem State.regs_emit (s : State) (o : Out) : (s.emit o).regs = s.regs := rfl
@[simp] theorem State.latches_emit (s : State) (o : Out) : (s.emit o).latches = s.latches := rfl
@[simp] theorem State.fuses_emit (s : State) (o : Out) : (s.emit o).fuses = s.fuses := rfl
@[simp] theorem State.arr_emit (s : State) (o : Out) : (s.emit o).arr = s.arr := rfl
@[simp] theorem State.strm_emit (s : State) (o : Out) : (s.emit o).strm = s.strm := rfl
@[simp] theorem State.mas_emit (s : State) (o : Out) : (s.emit o).mas = s.mas := rfl
@[simp] theorem State.err_emit (s : State) (o : Out) : (s.emit o).err = s.err := rfl
@[simp] theorem State.host_emit (s : State) (o : Out) : (s.emit o).host = s.host := rfl
@[simp] theorem State.link_emit (s : State) (o : Out) : (s.emit o).link = s.link := rfl
@[simp] theorem State.wts_emit (s : State) (o : Out) : (s.emit o).wts = s.wts := rfl
@[simp] theorem State.stew_emit (s : State) (o : Out) : (s.emit o).stew = s.stew := rfl
@[simp] theorem State.jr_emit (s : State) (o : Out) : (s.emit o).jr = s.jr := rfl
@[simp] theorem State.boot_emit (s : State) (o : Out) : (s.emit o).boot = s.boot := rfl
@[simp] theorem State.rd_emit (s : State) (o : Out) (f' : Fld) (i' : Nat) (w' : Win) : (s.emit o).rd f' i' w' = s.rd f' i' w' :=
  State.rd_congr (State.regs_emit ..) f' i' w'
@[simp] theorem State.flag_emit (s : State) (o : Out) (f' : Fld) (i' : Nat) (w' : Win) : (s.emit o).flag f' i' w' = s.flag f' i' w' :=
  State.flag_congr (State.regs_emit ..) f' i' w'

@[simp] theorem State.out_turnAway (s : State) (why : String) : (s.turnAway why).out = .turnedAway why :: s.out := rfl
@[simp] theorem State.pending_turnAway (s : State) (why : String) : (s.turnAway why).pending = s.pending := rfl
@[simp] theorem State.now_turnAway (s : State) (why : String) : (s.turnAway why).now = s.now := rfl
@[simp] theorem State.fresh_turnAway (s : State) (why : String) : (s.turnAway why).fresh = s.fresh := rfl
@[simp] theorem State.regs_turnAway (s : State) (why : String) : (s.turnAway why).regs = s.regs := rfl
@[simp] theorem State.latches_turnAway (s : State) (why : String) : (s.turnAway why).latches = s.latches := rfl
@[simp] theorem State.fuses_turnAway (s : State) (why : String) : (s.turnAway why).fuses = s.fuses := rfl
@[simp] theorem State.arr_turnAway (s : State) (why : String) : (s.turnAway why).arr = s.arr := rfl
@[simp] theorem State.strm_turnAway (s : State) (why : String) : (s.turnAway why).strm = s.strm := rfl
@[simp] theorem State.mas_turnAway (s : State) (why : String) : (s.turnAway why).mas = s.mas := rfl
@[simp] theorem State.err_turnAway (s : State) (why : String) : (s.turnAway why).err = s.err := rfl
@[simp] theorem State.host_turnAway (s : State) (why : String) : (s.turnAway why).host = s.host := rfl
@[simp] theorem State.link_turnAway (s : State) (why : String) : (s.turnAway why).link = s.link := rfl
@[simp] theorem State.wts_turnAway (s : State) (why : String) : (s.turnAway why).wts = s.wts := rfl
@[simp] theorem State.stew_turnAway (s : State) (why : String) : (s.turnAway why).stew = s.stew := rfl
@[simp] theorem State.jr_turnAway (s : State) (why : String) : (s.turnAway why).jr = s.jr := rfl
@[simp] theorem State.boot_turnAway (s : State) (why : String) : (s.turnAway why).boot = s.boot := rfl
@[simp] theorem State.rd_turnAway (s : State) (why : String) (f' : Fld) (i' : Nat) (w' : Win) :
    (s.turnAway why).rd f' i' w' = s.rd f' i' w' :=
  State.rd_congr (State.regs_turnAway ..) f' i' w'
@[simp] theorem State.flag_turnAway (s : State) (why : String) (f' : Fld) (i' : Nat) (w' : Win) :
    (s.turnAway why).flag f' i' w' = s.flag f' i' w' :=
  State.flag_congr (State.regs_turnAway ..) f' i' w'

@[simp] theorem State.regs_setWord (s : State) (r : Reg) (i : Nat) (w : Win) (k : Nat) (v : Word) :
    (s.setWord r i w k v).regs = SMap.setD s.regs (r.addr i w k) v (r.resetWord k) :=
  rfl
@[simp] theorem State.pending_setWord (s : State) (r : Reg) (i : Nat) (w : Win) (k : Nat) (v : Word) :
    (s.setWord r i w k v).pending = s.pending :=
  rfl
@[simp] theorem State.now_setWord (s : State) (r : Reg) (i : Nat) (w : Win) (k : Nat) (v : Word) : (s.setWord r i w k v).now = s.now := rfl
@[simp] theorem State.out_setWord (s : State) (r : Reg) (i : Nat) (w : Win) (k : Nat) (v : Word) : (s.setWord r i w k v).out = s.out := rfl
@[simp] theorem State.fresh_setWord (s : State) (r : Reg) (i : Nat) (w : Win) (k : Nat) (v : Word) :
    (s.setWord r i w k v).fresh = s.fresh :=
  rfl
@[simp] theorem State.latches_setWord (s : State) (r : Reg) (i : Nat) (w : Win) (k : Nat) (v : Word) :
    (s.setWord r i w k v).latches = s.latches :=
  rfl
@[simp] theorem State.fuses_setWord (s : State) (r : Reg) (i : Nat) (w : Win) (k : Nat) (v : Word) :
    (s.setWord r i w k v).fuses = s.fuses :=
  rfl
@[simp] theorem State.arr_setWord (s : State) (r : Reg) (i : Nat) (w : Win) (k : Nat) (v : Word) : (s.setWord r i w k v).arr = s.arr := rfl
@[simp] theorem State.strm_setWord (s : State) (r : Reg) (i : Nat) (w : Win) (k : Nat) (v : Word) : (s.setWord r i w k v).strm = s.strm :=
  rfl
@[simp] theorem State.mas_setWord (s : State) (r : Reg) (i : Nat) (w : Win) (k : Nat) (v : Word) : (s.setWord r i w k v).mas = s.mas := rfl
@[simp] theorem State.err_setWord (s : State) (r : Reg) (i : Nat) (w : Win) (k : Nat) (v : Word) : (s.setWord r i w k v).err = s.err := rfl
@[simp] theorem State.host_setWord (s : State) (r : Reg) (i : Nat) (w : Win) (k : Nat) (v : Word) : (s.setWord r i w k v).host = s.host :=
  rfl
@[simp] theorem State.link_setWord (s : State) (r : Reg) (i : Nat) (w : Win) (k : Nat) (v : Word) : (s.setWord r i w k v).link = s.link :=
  rfl
@[simp] theorem State.wts_setWord (s : State) (r : Reg) (i : Nat) (w : Win) (k : Nat) (v : Word) : (s.setWord r i w k v).wts = s.wts := rfl
@[simp] theorem State.stew_setWord (s : State) (r : Reg) (i : Nat) (w : Win) (k : Nat) (v : Word) : (s.setWord r i w k v).stew = s.stew :=
  rfl
@[simp] theorem State.jr_setWord (s : State) (r : Reg) (i : Nat) (w : Win) (k : Nat) (v : Word) : (s.setWord r i w k v).jr = s.jr := rfl
@[simp] theorem State.boot_setWord (s : State) (r : Reg) (i : Nat) (w : Win) (k : Nat) (v : Word) : (s.setWord r i w k v).boot = s.boot :=
  rfl

@[simp] theorem State.arr_setSramByte (s : State) (die y x off : Nat) (b : Byte) :
    (s.setSramByte die y x off b).arr = { s.arr with sram := SMap.setD s.arr.sram (sramKey die y x off) b 0 } :=
  rfl
@[simp] theorem State.pending_setSramByte (s : State) (die y x off : Nat) (b : Byte) : (s.setSramByte die y x off b).pending = s.pending :=
  rfl
@[simp] theorem State.now_setSramByte (s : State) (die y x off : Nat) (b : Byte) : (s.setSramByte die y x off b).now = s.now := rfl
@[simp] theorem State.out_setSramByte (s : State) (die y x off : Nat) (b : Byte) : (s.setSramByte die y x off b).out = s.out := rfl
@[simp] theorem State.fresh_setSramByte (s : State) (die y x off : Nat) (b : Byte) : (s.setSramByte die y x off b).fresh = s.fresh := rfl
@[simp] theorem State.regs_setSramByte (s : State) (die y x off : Nat) (b : Byte) : (s.setSramByte die y x off b).regs = s.regs := rfl
@[simp] theorem State.latches_setSramByte (s : State) (die y x off : Nat) (b : Byte) : (s.setSramByte die y x off b).latches = s.latches :=
  rfl
@[simp] theorem State.fuses_setSramByte (s : State) (die y x off : Nat) (b : Byte) : (s.setSramByte die y x off b).fuses = s.fuses := rfl
@[simp] theorem State.strm_setSramByte (s : State) (die y x off : Nat) (b : Byte) : (s.setSramByte die y x off b).strm = s.strm := rfl
@[simp] theorem State.mas_setSramByte (s : State) (die y x off : Nat) (b : Byte) : (s.setSramByte die y x off b).mas = s.mas := rfl
@[simp] theorem State.err_setSramByte (s : State) (die y x off : Nat) (b : Byte) : (s.setSramByte die y x off b).err = s.err := rfl
@[simp] theorem State.host_setSramByte (s : State) (die y x off : Nat) (b : Byte) : (s.setSramByte die y x off b).host = s.host := rfl
@[simp] theorem State.link_setSramByte (s : State) (die y x off : Nat) (b : Byte) : (s.setSramByte die y x off b).link = s.link := rfl
@[simp] theorem State.wts_setSramByte (s : State) (die y x off : Nat) (b : Byte) : (s.setSramByte die y x off b).wts = s.wts := rfl
@[simp] theorem State.stew_setSramByte (s : State) (die y x off : Nat) (b : Byte) : (s.setSramByte die y x off b).stew = s.stew := rfl
@[simp] theorem State.jr_setSramByte (s : State) (die y x off : Nat) (b : Byte) : (s.setSramByte die y x off b).jr = s.jr := rfl
@[simp] theorem State.boot_setSramByte (s : State) (die y x off : Nat) (b : Byte) : (s.setSramByte die y x off b).boot = s.boot := rfl
@[simp] theorem State.rd_setSramByte (s : State) (die y x off : Nat) (b : Byte) (f' : Fld) (i' : Nat) (w' : Win) :
    (s.setSramByte die y x off b).rd f' i' w' = s.rd f' i' w' :=
  State.rd_congr (State.regs_setSramByte ..) f' i' w'
@[simp] theorem State.flag_setSramByte (s : State) (die y x off : Nat) (b : Byte) (f' : Fld) (i' : Nat) (w' : Win) :
    (s.setSramByte die y x off b).flag f' i' w' = s.flag f' i' w' :=
  State.flag_congr (State.regs_setSramByte ..) f' i' w'

@[simp] theorem State.arr_setQueue (s : State) (die qid c : Nat) (q : Queue) :
    (s.setQueue die qid c q).arr = { s.arr with queues := SMap.setD s.arr.queues (queueKey die qid c) q Queue.empty } :=
  rfl
@[simp] theorem State.pending_setQueue (s : State) (die qid c : Nat) (q : Queue) : (s.setQueue die qid c q).pending = s.pending := rfl
@[simp] theorem State.now_setQueue (s : State) (die qid c : Nat) (q : Queue) : (s.setQueue die qid c q).now = s.now := rfl
@[simp] theorem State.out_setQueue (s : State) (die qid c : Nat) (q : Queue) : (s.setQueue die qid c q).out = s.out := rfl
@[simp] theorem State.fresh_setQueue (s : State) (die qid c : Nat) (q : Queue) : (s.setQueue die qid c q).fresh = s.fresh := rfl
@[simp] theorem State.regs_setQueue (s : State) (die qid c : Nat) (q : Queue) : (s.setQueue die qid c q).regs = s.regs := rfl
@[simp] theorem State.latches_setQueue (s : State) (die qid c : Nat) (q : Queue) : (s.setQueue die qid c q).latches = s.latches := rfl
@[simp] theorem State.fuses_setQueue (s : State) (die qid c : Nat) (q : Queue) : (s.setQueue die qid c q).fuses = s.fuses := rfl
@[simp] theorem State.strm_setQueue (s : State) (die qid c : Nat) (q : Queue) : (s.setQueue die qid c q).strm = s.strm := rfl
@[simp] theorem State.mas_setQueue (s : State) (die qid c : Nat) (q : Queue) : (s.setQueue die qid c q).mas = s.mas := rfl
@[simp] theorem State.err_setQueue (s : State) (die qid c : Nat) (q : Queue) : (s.setQueue die qid c q).err = s.err := rfl
@[simp] theorem State.host_setQueue (s : State) (die qid c : Nat) (q : Queue) : (s.setQueue die qid c q).host = s.host := rfl
@[simp] theorem State.link_setQueue (s : State) (die qid c : Nat) (q : Queue) : (s.setQueue die qid c q).link = s.link := rfl
@[simp] theorem State.wts_setQueue (s : State) (die qid c : Nat) (q : Queue) : (s.setQueue die qid c q).wts = s.wts := rfl
@[simp] theorem State.stew_setQueue (s : State) (die qid c : Nat) (q : Queue) : (s.setQueue die qid c q).stew = s.stew := rfl
@[simp] theorem State.jr_setQueue (s : State) (die qid c : Nat) (q : Queue) : (s.setQueue die qid c q).jr = s.jr := rfl
@[simp] theorem State.boot_setQueue (s : State) (die qid c : Nat) (q : Queue) : (s.setQueue die qid c q).boot = s.boot := rfl
@[simp] theorem State.rd_setQueue (s : State) (die qid c : Nat) (q : Queue) (f' : Fld) (i' : Nat) (w' : Win) :
    (s.setQueue die qid c q).rd f' i' w' = s.rd f' i' w' :=
  State.rd_congr (State.regs_setQueue ..) f' i' w'
@[simp] theorem State.flag_setQueue (s : State) (die qid c : Nat) (q : Queue) (f' : Fld) (i' : Nat) (w' : Win) :
    (s.setQueue die qid c q).flag f' i' w' = s.flag f' i' w' :=
  State.flag_congr (State.regs_setQueue ..) f' i' w'

@[simp] theorem State.arr_setTile (s : State) (die y x c : Nat) (t : TileCtx) :
    (s.setTile die y x c t).arr = { s.arr with tiles := SMap.setD s.arr.tiles (tileKey die y x c) t TileCtx.empty } :=
  rfl
@[simp] theorem State.pending_setTile (s : State) (die y x c : Nat) (t : TileCtx) : (s.setTile die y x c t).pending = s.pending := rfl
@[simp] theorem State.now_setTile (s : State) (die y x c : Nat) (t : TileCtx) : (s.setTile die y x c t).now = s.now := rfl
@[simp] theorem State.out_setTile (s : State) (die y x c : Nat) (t : TileCtx) : (s.setTile die y x c t).out = s.out := rfl
@[simp] theorem State.fresh_setTile (s : State) (die y x c : Nat) (t : TileCtx) : (s.setTile die y x c t).fresh = s.fresh := rfl
@[simp] theorem State.regs_setTile (s : State) (die y x c : Nat) (t : TileCtx) : (s.setTile die y x c t).regs = s.regs := rfl
@[simp] theorem State.latches_setTile (s : State) (die y x c : Nat) (t : TileCtx) : (s.setTile die y x c t).latches = s.latches := rfl
@[simp] theorem State.fuses_setTile (s : State) (die y x c : Nat) (t : TileCtx) : (s.setTile die y x c t).fuses = s.fuses := rfl
@[simp] theorem State.strm_setTile (s : State) (die y x c : Nat) (t : TileCtx) : (s.setTile die y x c t).strm = s.strm := rfl
@[simp] theorem State.mas_setTile (s : State) (die y x c : Nat) (t : TileCtx) : (s.setTile die y x c t).mas = s.mas := rfl
@[simp] theorem State.err_setTile (s : State) (die y x c : Nat) (t : TileCtx) : (s.setTile die y x c t).err = s.err := rfl
@[simp] theorem State.host_setTile (s : State) (die y x c : Nat) (t : TileCtx) : (s.setTile die y x c t).host = s.host := rfl
@[simp] theorem State.link_setTile (s : State) (die y x c : Nat) (t : TileCtx) : (s.setTile die y x c t).link = s.link := rfl
@[simp] theorem State.wts_setTile (s : State) (die y x c : Nat) (t : TileCtx) : (s.setTile die y x c t).wts = s.wts := rfl
@[simp] theorem State.stew_setTile (s : State) (die y x c : Nat) (t : TileCtx) : (s.setTile die y x c t).stew = s.stew := rfl
@[simp] theorem State.jr_setTile (s : State) (die y x c : Nat) (t : TileCtx) : (s.setTile die y x c t).jr = s.jr := rfl
@[simp] theorem State.boot_setTile (s : State) (die y x c : Nat) (t : TileCtx) : (s.setTile die y x c t).boot = s.boot := rfl
@[simp] theorem State.rd_setTile (s : State) (die y x c : Nat) (t : TileCtx) (f' : Fld) (i' : Nat) (w' : Win) :
    (s.setTile die y x c t).rd f' i' w' = s.rd f' i' w' :=
  State.rd_congr (State.regs_setTile ..) f' i' w'
@[simp] theorem State.flag_setTile (s : State) (die y x c : Nat) (t : TileCtx) (f' : Fld) (i' : Nat) (w' : Win) :
    (s.setTile die y x c t).flag f' i' w' = s.flag f' i' w' :=
  State.flag_congr (State.regs_setTile ..) f' i' w'

@[simp] theorem State.arr_setAg (s : State) (die y x c a : Nat) (g : AgState) :
    (s.setAg die y x c a g).arr = { s.arr with ags := SMap.setD s.arr.ags (agKey die y x c a) g AgState.idle } :=
  rfl
@[simp] theorem State.pending_setAg (s : State) (die y x c a : Nat) (g : AgState) : (s.setAg die y x c a g).pending = s.pending := rfl
@[simp] theorem State.now_setAg (s : State) (die y x c a : Nat) (g : AgState) : (s.setAg die y x c a g).now = s.now := rfl
@[simp] theorem State.out_setAg (s : State) (die y x c a : Nat) (g : AgState) : (s.setAg die y x c a g).out = s.out := rfl
@[simp] theorem State.fresh_setAg (s : State) (die y x c a : Nat) (g : AgState) : (s.setAg die y x c a g).fresh = s.fresh := rfl
@[simp] theorem State.regs_setAg (s : State) (die y x c a : Nat) (g : AgState) : (s.setAg die y x c a g).regs = s.regs := rfl
@[simp] theorem State.latches_setAg (s : State) (die y x c a : Nat) (g : AgState) : (s.setAg die y x c a g).latches = s.latches := rfl
@[simp] theorem State.fuses_setAg (s : State) (die y x c a : Nat) (g : AgState) : (s.setAg die y x c a g).fuses = s.fuses := rfl
@[simp] theorem State.strm_setAg (s : State) (die y x c a : Nat) (g : AgState) : (s.setAg die y x c a g).strm = s.strm := rfl
@[simp] theorem State.mas_setAg (s : State) (die y x c a : Nat) (g : AgState) : (s.setAg die y x c a g).mas = s.mas := rfl
@[simp] theorem State.err_setAg (s : State) (die y x c a : Nat) (g : AgState) : (s.setAg die y x c a g).err = s.err := rfl
@[simp] theorem State.host_setAg (s : State) (die y x c a : Nat) (g : AgState) : (s.setAg die y x c a g).host = s.host := rfl
@[simp] theorem State.link_setAg (s : State) (die y x c a : Nat) (g : AgState) : (s.setAg die y x c a g).link = s.link := rfl
@[simp] theorem State.wts_setAg (s : State) (die y x c a : Nat) (g : AgState) : (s.setAg die y x c a g).wts = s.wts := rfl
@[simp] theorem State.stew_setAg (s : State) (die y x c a : Nat) (g : AgState) : (s.setAg die y x c a g).stew = s.stew := rfl
@[simp] theorem State.jr_setAg (s : State) (die y x c a : Nat) (g : AgState) : (s.setAg die y x c a g).jr = s.jr := rfl
@[simp] theorem State.boot_setAg (s : State) (die y x c a : Nat) (g : AgState) : (s.setAg die y x c a g).boot = s.boot := rfl
@[simp] theorem State.rd_setAg (s : State) (die y x c a : Nat) (g : AgState) (f' : Fld) (i' : Nat) (w' : Win) :
    (s.setAg die y x c a g).rd f' i' w' = s.rd f' i' w' :=
  State.rd_congr (State.regs_setAg ..) f' i' w'
@[simp] theorem State.flag_setAg (s : State) (die y x c a : Nat) (g : AgState) (f' : Fld) (i' : Nat) (w' : Win) :
    (s.setAg die y x c a g).flag f' i' w' = s.flag f' i' w' :=
  State.flag_congr (State.regs_setAg ..) f' i' w'

@[simp] theorem State.arr_setWc (s : State) (k : Nat) (l : List WcLine) :
    (s.setWc k l).arr = { s.arr with wc := SMap.setD s.arr.wc k l [] } :=
  rfl
@[simp] theorem State.pending_setWc (s : State) (k : Nat) (l : List WcLine) : (s.setWc k l).pending = s.pending := rfl
@[simp] theorem State.now_setWc (s : State) (k : Nat) (l : List WcLine) : (s.setWc k l).now = s.now := rfl
@[simp] theorem State.out_setWc (s : State) (k : Nat) (l : List WcLine) : (s.setWc k l).out = s.out := rfl
@[simp] theorem State.fresh_setWc (s : State) (k : Nat) (l : List WcLine) : (s.setWc k l).fresh = s.fresh := rfl
@[simp] theorem State.regs_setWc (s : State) (k : Nat) (l : List WcLine) : (s.setWc k l).regs = s.regs := rfl
@[simp] theorem State.latches_setWc (s : State) (k : Nat) (l : List WcLine) : (s.setWc k l).latches = s.latches := rfl
@[simp] theorem State.fuses_setWc (s : State) (k : Nat) (l : List WcLine) : (s.setWc k l).fuses = s.fuses := rfl
@[simp] theorem State.strm_setWc (s : State) (k : Nat) (l : List WcLine) : (s.setWc k l).strm = s.strm := rfl
@[simp] theorem State.mas_setWc (s : State) (k : Nat) (l : List WcLine) : (s.setWc k l).mas = s.mas := rfl
@[simp] theorem State.err_setWc (s : State) (k : Nat) (l : List WcLine) : (s.setWc k l).err = s.err := rfl
@[simp] theorem State.host_setWc (s : State) (k : Nat) (l : List WcLine) : (s.setWc k l).host = s.host := rfl
@[simp] theorem State.link_setWc (s : State) (k : Nat) (l : List WcLine) : (s.setWc k l).link = s.link := rfl
@[simp] theorem State.wts_setWc (s : State) (k : Nat) (l : List WcLine) : (s.setWc k l).wts = s.wts := rfl
@[simp] theorem State.stew_setWc (s : State) (k : Nat) (l : List WcLine) : (s.setWc k l).stew = s.stew := rfl
@[simp] theorem State.jr_setWc (s : State) (k : Nat) (l : List WcLine) : (s.setWc k l).jr = s.jr := rfl
@[simp] theorem State.boot_setWc (s : State) (k : Nat) (l : List WcLine) : (s.setWc k l).boot = s.boot := rfl
@[simp] theorem State.rd_setWc (s : State) (k : Nat) (l : List WcLine) (f' : Fld) (i' : Nat) (w' : Win) :
    (s.setWc k l).rd f' i' w' = s.rd f' i' w' :=
  State.rd_congr (State.regs_setWc ..) f' i' w'
@[simp] theorem State.flag_setWc (s : State) (k : Nat) (l : List WcLine) (f' : Fld) (i' : Nat) (w' : Win) :
    (s.setWc k l).flag f' i' w' = s.flag f' i' w' :=
  State.flag_congr (State.regs_setWc ..) f' i' w'

@[simp] theorem State.arr_setSelects (s : State) (die : Nat) (l : List PendingSelect) :
    (s.setSelects die l).arr = { s.arr with selects := SMap.setD s.arr.selects die l [] } :=
  rfl
@[simp] theorem State.pending_setSelects (s : State) (die : Nat) (l : List PendingSelect) : (s.setSelects die l).pending = s.pending := rfl
@[simp] theorem State.now_setSelects (s : State) (die : Nat) (l : List PendingSelect) : (s.setSelects die l).now = s.now := rfl
@[simp] theorem State.out_setSelects (s : State) (die : Nat) (l : List PendingSelect) : (s.setSelects die l).out = s.out := rfl
@[simp] theorem State.fresh_setSelects (s : State) (die : Nat) (l : List PendingSelect) : (s.setSelects die l).fresh = s.fresh := rfl
@[simp] theorem State.regs_setSelects (s : State) (die : Nat) (l : List PendingSelect) : (s.setSelects die l).regs = s.regs := rfl
@[simp] theorem State.latches_setSelects (s : State) (die : Nat) (l : List PendingSelect) : (s.setSelects die l).latches = s.latches := rfl
@[simp] theorem State.fuses_setSelects (s : State) (die : Nat) (l : List PendingSelect) : (s.setSelects die l).fuses = s.fuses := rfl
@[simp] theorem State.strm_setSelects (s : State) (die : Nat) (l : List PendingSelect) : (s.setSelects die l).strm = s.strm := rfl
@[simp] theorem State.mas_setSelects (s : State) (die : Nat) (l : List PendingSelect) : (s.setSelects die l).mas = s.mas := rfl
@[simp] theorem State.err_setSelects (s : State) (die : Nat) (l : List PendingSelect) : (s.setSelects die l).err = s.err := rfl
@[simp] theorem State.host_setSelects (s : State) (die : Nat) (l : List PendingSelect) : (s.setSelects die l).host = s.host := rfl
@[simp] theorem State.link_setSelects (s : State) (die : Nat) (l : List PendingSelect) : (s.setSelects die l).link = s.link := rfl
@[simp] theorem State.wts_setSelects (s : State) (die : Nat) (l : List PendingSelect) : (s.setSelects die l).wts = s.wts := rfl
@[simp] theorem State.stew_setSelects (s : State) (die : Nat) (l : List PendingSelect) : (s.setSelects die l).stew = s.stew := rfl
@[simp] theorem State.jr_setSelects (s : State) (die : Nat) (l : List PendingSelect) : (s.setSelects die l).jr = s.jr := rfl
@[simp] theorem State.boot_setSelects (s : State) (die : Nat) (l : List PendingSelect) : (s.setSelects die l).boot = s.boot := rfl
@[simp] theorem State.rd_setSelects (s : State) (die : Nat) (l : List PendingSelect) (f' : Fld) (i' : Nat) (w' : Win) :
    (s.setSelects die l).rd f' i' w' = s.rd f' i' w' :=
  State.rd_congr (State.regs_setSelects ..) f' i' w'
@[simp] theorem State.flag_setSelects (s : State) (die : Nat) (l : List PendingSelect) (f' : Fld) (i' : Nat) (w' : Win) :
    (s.setSelects die l).flag f' i' w' = s.flag f' i' w' :=
  State.flag_congr (State.regs_setSelects ..) f' i' w'

@[simp] theorem State.arr_setAccRow (s : State) (die y x r : Nat) (v : AccRow) :
    (s.setAccRow die y x r v).arr = { s.arr with acc := SMap.setD s.arr.acc (rowKey die y x r) v AccRow.blank } :=
  rfl
@[simp] theorem State.pending_setAccRow (s : State) (die y x r : Nat) (v : AccRow) : (s.setAccRow die y x r v).pending = s.pending := rfl
@[simp] theorem State.now_setAccRow (s : State) (die y x r : Nat) (v : AccRow) : (s.setAccRow die y x r v).now = s.now := rfl
@[simp] theorem State.out_setAccRow (s : State) (die y x r : Nat) (v : AccRow) : (s.setAccRow die y x r v).out = s.out := rfl
@[simp] theorem State.fresh_setAccRow (s : State) (die y x r : Nat) (v : AccRow) : (s.setAccRow die y x r v).fresh = s.fresh := rfl
@[simp] theorem State.regs_setAccRow (s : State) (die y x r : Nat) (v : AccRow) : (s.setAccRow die y x r v).regs = s.regs := rfl
@[simp] theorem State.latches_setAccRow (s : State) (die y x r : Nat) (v : AccRow) : (s.setAccRow die y x r v).latches = s.latches := rfl
@[simp] theorem State.fuses_setAccRow (s : State) (die y x r : Nat) (v : AccRow) : (s.setAccRow die y x r v).fuses = s.fuses := rfl
@[simp] theorem State.strm_setAccRow (s : State) (die y x r : Nat) (v : AccRow) : (s.setAccRow die y x r v).strm = s.strm := rfl
@[simp] theorem State.mas_setAccRow (s : State) (die y x r : Nat) (v : AccRow) : (s.setAccRow die y x r v).mas = s.mas := rfl
@[simp] theorem State.err_setAccRow (s : State) (die y x r : Nat) (v : AccRow) : (s.setAccRow die y x r v).err = s.err := rfl
@[simp] theorem State.host_setAccRow (s : State) (die y x r : Nat) (v : AccRow) : (s.setAccRow die y x r v).host = s.host := rfl
@[simp] theorem State.link_setAccRow (s : State) (die y x r : Nat) (v : AccRow) : (s.setAccRow die y x r v).link = s.link := rfl
@[simp] theorem State.wts_setAccRow (s : State) (die y x r : Nat) (v : AccRow) : (s.setAccRow die y x r v).wts = s.wts := rfl
@[simp] theorem State.stew_setAccRow (s : State) (die y x r : Nat) (v : AccRow) : (s.setAccRow die y x r v).stew = s.stew := rfl
@[simp] theorem State.jr_setAccRow (s : State) (die y x r : Nat) (v : AccRow) : (s.setAccRow die y x r v).jr = s.jr := rfl
@[simp] theorem State.boot_setAccRow (s : State) (die y x r : Nat) (v : AccRow) : (s.setAccRow die y x r v).boot = s.boot := rfl
@[simp] theorem State.rd_setAccRow (s : State) (die y x r : Nat) (v : AccRow) (f' : Fld) (i' : Nat) (w' : Win) :
    (s.setAccRow die y x r v).rd f' i' w' = s.rd f' i' w' :=
  State.rd_congr (State.regs_setAccRow ..) f' i' w'
@[simp] theorem State.flag_setAccRow (s : State) (die y x r : Nat) (v : AccRow) (f' : Fld) (i' : Nat) (w' : Win) :
    (s.setAccRow die y x r v).flag f' i' w' = s.flag f' i' w' :=
  State.flag_congr (State.regs_setAccRow ..) f' i' w'

@[simp] theorem State.arr_setInv (s : State) (die c : Nat) (v : Invocation) :
    (s.setInv die c v).arr = { s.arr with invs := SMap.insert s.arr.invs (dieCtx die c) v } :=
  rfl
@[simp] theorem State.pending_setInv (s : State) (die c : Nat) (v : Invocation) : (s.setInv die c v).pending = s.pending := rfl
@[simp] theorem State.now_setInv (s : State) (die c : Nat) (v : Invocation) : (s.setInv die c v).now = s.now := rfl
@[simp] theorem State.out_setInv (s : State) (die c : Nat) (v : Invocation) : (s.setInv die c v).out = s.out := rfl
@[simp] theorem State.fresh_setInv (s : State) (die c : Nat) (v : Invocation) : (s.setInv die c v).fresh = s.fresh := rfl
@[simp] theorem State.regs_setInv (s : State) (die c : Nat) (v : Invocation) : (s.setInv die c v).regs = s.regs := rfl
@[simp] theorem State.latches_setInv (s : State) (die c : Nat) (v : Invocation) : (s.setInv die c v).latches = s.latches := rfl
@[simp] theorem State.fuses_setInv (s : State) (die c : Nat) (v : Invocation) : (s.setInv die c v).fuses = s.fuses := rfl
@[simp] theorem State.strm_setInv (s : State) (die c : Nat) (v : Invocation) : (s.setInv die c v).strm = s.strm := rfl
@[simp] theorem State.mas_setInv (s : State) (die c : Nat) (v : Invocation) : (s.setInv die c v).mas = s.mas := rfl
@[simp] theorem State.err_setInv (s : State) (die c : Nat) (v : Invocation) : (s.setInv die c v).err = s.err := rfl
@[simp] theorem State.host_setInv (s : State) (die c : Nat) (v : Invocation) : (s.setInv die c v).host = s.host := rfl
@[simp] theorem State.link_setInv (s : State) (die c : Nat) (v : Invocation) : (s.setInv die c v).link = s.link := rfl
@[simp] theorem State.wts_setInv (s : State) (die c : Nat) (v : Invocation) : (s.setInv die c v).wts = s.wts := rfl
@[simp] theorem State.stew_setInv (s : State) (die c : Nat) (v : Invocation) : (s.setInv die c v).stew = s.stew := rfl
@[simp] theorem State.jr_setInv (s : State) (die c : Nat) (v : Invocation) : (s.setInv die c v).jr = s.jr := rfl
@[simp] theorem State.boot_setInv (s : State) (die c : Nat) (v : Invocation) : (s.setInv die c v).boot = s.boot := rfl
@[simp] theorem State.rd_setInv (s : State) (die c : Nat) (v : Invocation) (f' : Fld) (i' : Nat) (w' : Win) :
    (s.setInv die c v).rd f' i' w' = s.rd f' i' w' :=
  State.rd_congr (State.regs_setInv ..) f' i' w'
@[simp] theorem State.flag_setInv (s : State) (die c : Nat) (v : Invocation) (f' : Fld) (i' : Nat) (w' : Win) :
    (s.setInv die c v).flag f' i' w' = s.flag f' i' w' :=
  State.flag_congr (State.regs_setInv ..) f' i' w'

@[simp] theorem State.arr_setScan (s : State) (die : Nat) (j : ScanJob) :
    (s.setScan die j).arr = { s.arr with scans := SMap.insert s.arr.scans die j } :=
  rfl
@[simp] theorem State.pending_setScan (s : State) (die : Nat) (j : ScanJob) : (s.setScan die j).pending = s.pending := rfl
@[simp] theorem State.now_setScan (s : State) (die : Nat) (j : ScanJob) : (s.setScan die j).now = s.now := rfl
@[simp] theorem State.out_setScan (s : State) (die : Nat) (j : ScanJob) : (s.setScan die j).out = s.out := rfl
@[simp] theorem State.fresh_setScan (s : State) (die : Nat) (j : ScanJob) : (s.setScan die j).fresh = s.fresh := rfl
@[simp] theorem State.regs_setScan (s : State) (die : Nat) (j : ScanJob) : (s.setScan die j).regs = s.regs := rfl
@[simp] theorem State.latches_setScan (s : State) (die : Nat) (j : ScanJob) : (s.setScan die j).latches = s.latches := rfl
@[simp] theorem State.fuses_setScan (s : State) (die : Nat) (j : ScanJob) : (s.setScan die j).fuses = s.fuses := rfl
@[simp] theorem State.strm_setScan (s : State) (die : Nat) (j : ScanJob) : (s.setScan die j).strm = s.strm := rfl
@[simp] theorem State.mas_setScan (s : State) (die : Nat) (j : ScanJob) : (s.setScan die j).mas = s.mas := rfl
@[simp] theorem State.err_setScan (s : State) (die : Nat) (j : ScanJob) : (s.setScan die j).err = s.err := rfl
@[simp] theorem State.host_setScan (s : State) (die : Nat) (j : ScanJob) : (s.setScan die j).host = s.host := rfl
@[simp] theorem State.link_setScan (s : State) (die : Nat) (j : ScanJob) : (s.setScan die j).link = s.link := rfl
@[simp] theorem State.wts_setScan (s : State) (die : Nat) (j : ScanJob) : (s.setScan die j).wts = s.wts := rfl
@[simp] theorem State.stew_setScan (s : State) (die : Nat) (j : ScanJob) : (s.setScan die j).stew = s.stew := rfl
@[simp] theorem State.jr_setScan (s : State) (die : Nat) (j : ScanJob) : (s.setScan die j).jr = s.jr := rfl
@[simp] theorem State.boot_setScan (s : State) (die : Nat) (j : ScanJob) : (s.setScan die j).boot = s.boot := rfl
@[simp] theorem State.rd_setScan (s : State) (die : Nat) (j : ScanJob) (f' : Fld) (i' : Nat) (w' : Win) :
    (s.setScan die j).rd f' i' w' = s.rd f' i' w' :=
  State.rd_congr (State.regs_setScan ..) f' i' w'
@[simp] theorem State.flag_setScan (s : State) (die : Nat) (j : ScanJob) (f' : Fld) (i' : Nat) (w' : Win) :
    (s.setScan die j).flag f' i' w' = s.flag f' i' w' :=
  State.flag_congr (State.regs_setScan ..) f' i' w'

@[simp] theorem State.strm_setStream (s : State) (die st : Nat) (v : StreamSt) :
    (s.setStream die st v).strm = { s.strm with streams := SMap.setD s.strm.streams (streamKey die st) v StreamSt.empty } :=
  rfl
@[simp] theorem State.pending_setStream (s : State) (die st : Nat) (v : StreamSt) : (s.setStream die st v).pending = s.pending := rfl
@[simp] theorem State.now_setStream (s : State) (die st : Nat) (v : StreamSt) : (s.setStream die st v).now = s.now := rfl
@[simp] theorem State.out_setStream (s : State) (die st : Nat) (v : StreamSt) : (s.setStream die st v).out = s.out := rfl
@[simp] theorem State.fresh_setStream (s : State) (die st : Nat) (v : StreamSt) : (s.setStream die st v).fresh = s.fresh := rfl
@[simp] theorem State.regs_setStream (s : State) (die st : Nat) (v : StreamSt) : (s.setStream die st v).regs = s.regs := rfl
@[simp] theorem State.latches_setStream (s : State) (die st : Nat) (v : StreamSt) : (s.setStream die st v).latches = s.latches := rfl
@[simp] theorem State.fuses_setStream (s : State) (die st : Nat) (v : StreamSt) : (s.setStream die st v).fuses = s.fuses := rfl
@[simp] theorem State.arr_setStream (s : State) (die st : Nat) (v : StreamSt) : (s.setStream die st v).arr = s.arr := rfl
@[simp] theorem State.mas_setStream (s : State) (die st : Nat) (v : StreamSt) : (s.setStream die st v).mas = s.mas := rfl
@[simp] theorem State.err_setStream (s : State) (die st : Nat) (v : StreamSt) : (s.setStream die st v).err = s.err := rfl
@[simp] theorem State.host_setStream (s : State) (die st : Nat) (v : StreamSt) : (s.setStream die st v).host = s.host := rfl
@[simp] theorem State.link_setStream (s : State) (die st : Nat) (v : StreamSt) : (s.setStream die st v).link = s.link := rfl
@[simp] theorem State.wts_setStream (s : State) (die st : Nat) (v : StreamSt) : (s.setStream die st v).wts = s.wts := rfl
@[simp] theorem State.stew_setStream (s : State) (die st : Nat) (v : StreamSt) : (s.setStream die st v).stew = s.stew := rfl
@[simp] theorem State.jr_setStream (s : State) (die st : Nat) (v : StreamSt) : (s.setStream die st v).jr = s.jr := rfl
@[simp] theorem State.boot_setStream (s : State) (die st : Nat) (v : StreamSt) : (s.setStream die st v).boot = s.boot := rfl
@[simp] theorem State.rd_setStream (s : State) (die st : Nat) (v : StreamSt) (f' : Fld) (i' : Nat) (w' : Win) :
    (s.setStream die st v).rd f' i' w' = s.rd f' i' w' :=
  State.rd_congr (State.regs_setStream ..) f' i' w'
@[simp] theorem State.flag_setStream (s : State) (die st : Nat) (v : StreamSt) (f' : Fld) (i' : Nat) (w' : Win) :
    (s.setStream die st v).flag f' i' w' = s.flag f' i' w' :=
  State.flag_congr (State.regs_setStream ..) f' i' w'

@[simp] theorem State.strm_setDispatch (s : State) (die c : Nat) (d : Dispatch) :
    (s.setDispatch die c d).strm = { s.strm with dispatches := SMap.insert s.strm.dispatches (dieCtx die c) d } :=
  rfl
@[simp] theorem State.pending_setDispatch (s : State) (die c : Nat) (d : Dispatch) : (s.setDispatch die c d).pending = s.pending := rfl
@[simp] theorem State.now_setDispatch (s : State) (die c : Nat) (d : Dispatch) : (s.setDispatch die c d).now = s.now := rfl
@[simp] theorem State.out_setDispatch (s : State) (die c : Nat) (d : Dispatch) : (s.setDispatch die c d).out = s.out := rfl
@[simp] theorem State.fresh_setDispatch (s : State) (die c : Nat) (d : Dispatch) : (s.setDispatch die c d).fresh = s.fresh := rfl
@[simp] theorem State.regs_setDispatch (s : State) (die c : Nat) (d : Dispatch) : (s.setDispatch die c d).regs = s.regs := rfl
@[simp] theorem State.latches_setDispatch (s : State) (die c : Nat) (d : Dispatch) : (s.setDispatch die c d).latches = s.latches := rfl
@[simp] theorem State.fuses_setDispatch (s : State) (die c : Nat) (d : Dispatch) : (s.setDispatch die c d).fuses = s.fuses := rfl
@[simp] theorem State.arr_setDispatch (s : State) (die c : Nat) (d : Dispatch) : (s.setDispatch die c d).arr = s.arr := rfl
@[simp] theorem State.mas_setDispatch (s : State) (die c : Nat) (d : Dispatch) : (s.setDispatch die c d).mas = s.mas := rfl
@[simp] theorem State.err_setDispatch (s : State) (die c : Nat) (d : Dispatch) : (s.setDispatch die c d).err = s.err := rfl
@[simp] theorem State.host_setDispatch (s : State) (die c : Nat) (d : Dispatch) : (s.setDispatch die c d).host = s.host := rfl
@[simp] theorem State.link_setDispatch (s : State) (die c : Nat) (d : Dispatch) : (s.setDispatch die c d).link = s.link := rfl
@[simp] theorem State.wts_setDispatch (s : State) (die c : Nat) (d : Dispatch) : (s.setDispatch die c d).wts = s.wts := rfl
@[simp] theorem State.stew_setDispatch (s : State) (die c : Nat) (d : Dispatch) : (s.setDispatch die c d).stew = s.stew := rfl
@[simp] theorem State.jr_setDispatch (s : State) (die c : Nat) (d : Dispatch) : (s.setDispatch die c d).jr = s.jr := rfl
@[simp] theorem State.boot_setDispatch (s : State) (die c : Nat) (d : Dispatch) : (s.setDispatch die c d).boot = s.boot := rfl
@[simp] theorem State.rd_setDispatch (s : State) (die c : Nat) (d : Dispatch) (f' : Fld) (i' : Nat) (w' : Win) :
    (s.setDispatch die c d).rd f' i' w' = s.rd f' i' w' :=
  State.rd_congr (State.regs_setDispatch ..) f' i' w'
@[simp] theorem State.flag_setDispatch (s : State) (die c : Nat) (d : Dispatch) (f' : Fld) (i' : Nat) (w' : Win) :
    (s.setDispatch die c d).flag f' i' w' = s.flag f' i' w' :=
  State.flag_congr (State.regs_setDispatch ..) f' i' w'

@[simp] theorem State.strm_setMbox (s : State) (die m : Nat) (l : List (Nat × Nat)) :
    (s.setMbox die m l).strm = { s.strm with mboxes := SMap.setD s.strm.mboxes (mboxKey die m) l [] } :=
  rfl
@[simp] theorem State.pending_setMbox (s : State) (die m : Nat) (l : List (Nat × Nat)) : (s.setMbox die m l).pending = s.pending := rfl
@[simp] theorem State.now_setMbox (s : State) (die m : Nat) (l : List (Nat × Nat)) : (s.setMbox die m l).now = s.now := rfl
@[simp] theorem State.out_setMbox (s : State) (die m : Nat) (l : List (Nat × Nat)) : (s.setMbox die m l).out = s.out := rfl
@[simp] theorem State.fresh_setMbox (s : State) (die m : Nat) (l : List (Nat × Nat)) : (s.setMbox die m l).fresh = s.fresh := rfl
@[simp] theorem State.regs_setMbox (s : State) (die m : Nat) (l : List (Nat × Nat)) : (s.setMbox die m l).regs = s.regs := rfl
@[simp] theorem State.latches_setMbox (s : State) (die m : Nat) (l : List (Nat × Nat)) : (s.setMbox die m l).latches = s.latches := rfl
@[simp] theorem State.fuses_setMbox (s : State) (die m : Nat) (l : List (Nat × Nat)) : (s.setMbox die m l).fuses = s.fuses := rfl
@[simp] theorem State.arr_setMbox (s : State) (die m : Nat) (l : List (Nat × Nat)) : (s.setMbox die m l).arr = s.arr := rfl
@[simp] theorem State.mas_setMbox (s : State) (die m : Nat) (l : List (Nat × Nat)) : (s.setMbox die m l).mas = s.mas := rfl
@[simp] theorem State.err_setMbox (s : State) (die m : Nat) (l : List (Nat × Nat)) : (s.setMbox die m l).err = s.err := rfl
@[simp] theorem State.host_setMbox (s : State) (die m : Nat) (l : List (Nat × Nat)) : (s.setMbox die m l).host = s.host := rfl
@[simp] theorem State.link_setMbox (s : State) (die m : Nat) (l : List (Nat × Nat)) : (s.setMbox die m l).link = s.link := rfl
@[simp] theorem State.wts_setMbox (s : State) (die m : Nat) (l : List (Nat × Nat)) : (s.setMbox die m l).wts = s.wts := rfl
@[simp] theorem State.stew_setMbox (s : State) (die m : Nat) (l : List (Nat × Nat)) : (s.setMbox die m l).stew = s.stew := rfl
@[simp] theorem State.jr_setMbox (s : State) (die m : Nat) (l : List (Nat × Nat)) : (s.setMbox die m l).jr = s.jr := rfl
@[simp] theorem State.boot_setMbox (s : State) (die m : Nat) (l : List (Nat × Nat)) : (s.setMbox die m l).boot = s.boot := rfl
@[simp] theorem State.rd_setMbox (s : State) (die m : Nat) (l : List (Nat × Nat)) (f' : Fld) (i' : Nat) (w' : Win) :
    (s.setMbox die m l).rd f' i' w' = s.rd f' i' w' :=
  State.rd_congr (State.regs_setMbox ..) f' i' w'
@[simp] theorem State.flag_setMbox (s : State) (die m : Nat) (l : List (Nat × Nat)) (f' : Fld) (i' : Nat) (w' : Win) :
    (s.setMbox die m l).flag f' i' w' = s.flag f' i' w' :=
  State.flag_congr (State.regs_setMbox ..) f' i' w'

@[simp] theorem State.mas_setPte (s : State) (pn : Nat) (p : Pte) :
    (s.setPte pn p).mas = { s.mas with pages := SMap.insert s.mas.pages pn p } :=
  rfl
@[simp] theorem State.pending_setPte (s : State) (pn : Nat) (p : Pte) : (s.setPte pn p).pending = s.pending := rfl
@[simp] theorem State.now_setPte (s : State) (pn : Nat) (p : Pte) : (s.setPte pn p).now = s.now := rfl
@[simp] theorem State.out_setPte (s : State) (pn : Nat) (p : Pte) : (s.setPte pn p).out = s.out := rfl
@[simp] theorem State.fresh_setPte (s : State) (pn : Nat) (p : Pte) : (s.setPte pn p).fresh = s.fresh := rfl
@[simp] theorem State.regs_setPte (s : State) (pn : Nat) (p : Pte) : (s.setPte pn p).regs = s.regs := rfl
@[simp] theorem State.latches_setPte (s : State) (pn : Nat) (p : Pte) : (s.setPte pn p).latches = s.latches := rfl
@[simp] theorem State.fuses_setPte (s : State) (pn : Nat) (p : Pte) : (s.setPte pn p).fuses = s.fuses := rfl
@[simp] theorem State.arr_setPte (s : State) (pn : Nat) (p : Pte) : (s.setPte pn p).arr = s.arr := rfl
@[simp] theorem State.strm_setPte (s : State) (pn : Nat) (p : Pte) : (s.setPte pn p).strm = s.strm := rfl
@[simp] theorem State.err_setPte (s : State) (pn : Nat) (p : Pte) : (s.setPte pn p).err = s.err := rfl
@[simp] theorem State.host_setPte (s : State) (pn : Nat) (p : Pte) : (s.setPte pn p).host = s.host := rfl
@[simp] theorem State.link_setPte (s : State) (pn : Nat) (p : Pte) : (s.setPte pn p).link = s.link := rfl
@[simp] theorem State.wts_setPte (s : State) (pn : Nat) (p : Pte) : (s.setPte pn p).wts = s.wts := rfl
@[simp] theorem State.stew_setPte (s : State) (pn : Nat) (p : Pte) : (s.setPte pn p).stew = s.stew := rfl
@[simp] theorem State.jr_setPte (s : State) (pn : Nat) (p : Pte) : (s.setPte pn p).jr = s.jr := rfl
@[simp] theorem State.boot_setPte (s : State) (pn : Nat) (p : Pte) : (s.setPte pn p).boot = s.boot := rfl
@[simp] theorem State.rd_setPte (s : State) (pn : Nat) (p : Pte) (f' : Fld) (i' : Nat) (w' : Win) :
    (s.setPte pn p).rd f' i' w' = s.rd f' i' w' :=
  State.rd_congr (State.regs_setPte ..) f' i' w'
@[simp] theorem State.flag_setPte (s : State) (pn : Nat) (p : Pte) (f' : Fld) (i' : Nat) (w' : Win) :
    (s.setPte pn p).flag f' i' w' = s.flag f' i' w' :=
  State.flag_congr (State.regs_setPte ..) f' i' w'

@[simp] theorem State.pending_dropPte (s : State) (pn : Nat) : (s.dropPte pn).pending = s.pending := rfl
@[simp] theorem State.now_dropPte (s : State) (pn : Nat) : (s.dropPte pn).now = s.now := rfl
@[simp] theorem State.out_dropPte (s : State) (pn : Nat) : (s.dropPte pn).out = s.out := rfl
@[simp] theorem State.fresh_dropPte (s : State) (pn : Nat) : (s.dropPte pn).fresh = s.fresh := rfl
@[simp] theorem State.regs_dropPte (s : State) (pn : Nat) : (s.dropPte pn).regs = s.regs := rfl
@[simp] theorem State.latches_dropPte (s : State) (pn : Nat) : (s.dropPte pn).latches = s.latches := rfl
@[simp] theorem State.fuses_dropPte (s : State) (pn : Nat) : (s.dropPte pn).fuses = s.fuses := rfl
@[simp] theorem State.arr_dropPte (s : State) (pn : Nat) : (s.dropPte pn).arr = s.arr := rfl
@[simp] theorem State.strm_dropPte (s : State) (pn : Nat) : (s.dropPte pn).strm = s.strm := rfl
@[simp] theorem State.err_dropPte (s : State) (pn : Nat) : (s.dropPte pn).err = s.err := rfl
@[simp] theorem State.host_dropPte (s : State) (pn : Nat) : (s.dropPte pn).host = s.host := rfl
@[simp] theorem State.link_dropPte (s : State) (pn : Nat) : (s.dropPte pn).link = s.link := rfl
@[simp] theorem State.wts_dropPte (s : State) (pn : Nat) : (s.dropPte pn).wts = s.wts := rfl
@[simp] theorem State.stew_dropPte (s : State) (pn : Nat) : (s.dropPte pn).stew = s.stew := rfl
@[simp] theorem State.jr_dropPte (s : State) (pn : Nat) : (s.dropPte pn).jr = s.jr := rfl
@[simp] theorem State.boot_dropPte (s : State) (pn : Nat) : (s.dropPte pn).boot = s.boot := rfl
@[simp] theorem State.rd_dropPte (s : State) (pn : Nat) (f' : Fld) (i' : Nat) (w' : Win) : (s.dropPte pn).rd f' i' w' = s.rd f' i' w' :=
  State.rd_congr (State.regs_dropPte ..) f' i' w'
@[simp] theorem State.flag_dropPte (s : State) (pn : Nat) (f' : Fld) (i' : Nat) (w' : Win) :
    (s.dropPte pn).flag f' i' w' = s.flag f' i' w' :=
  State.flag_congr (State.regs_dropPte ..) f' i' w'

@[simp] theorem State.mas_setMasByte (s : State) (a : Nat) (b : Byte) :
    (s.setMasByte a b).mas = { s.mas with mem := SMap.setD s.mas.mem a b 0 } :=
  rfl
@[simp] theorem State.pending_setMasByte (s : State) (a : Nat) (b : Byte) : (s.setMasByte a b).pending = s.pending := rfl
@[simp] theorem State.now_setMasByte (s : State) (a : Nat) (b : Byte) : (s.setMasByte a b).now = s.now := rfl
@[simp] theorem State.out_setMasByte (s : State) (a : Nat) (b : Byte) : (s.setMasByte a b).out = s.out := rfl
@[simp] theorem State.fresh_setMasByte (s : State) (a : Nat) (b : Byte) : (s.setMasByte a b).fresh = s.fresh := rfl
@[simp] theorem State.regs_setMasByte (s : State) (a : Nat) (b : Byte) : (s.setMasByte a b).regs = s.regs := rfl
@[simp] theorem State.latches_setMasByte (s : State) (a : Nat) (b : Byte) : (s.setMasByte a b).latches = s.latches := rfl
@[simp] theorem State.fuses_setMasByte (s : State) (a : Nat) (b : Byte) : (s.setMasByte a b).fuses = s.fuses := rfl
@[simp] theorem State.arr_setMasByte (s : State) (a : Nat) (b : Byte) : (s.setMasByte a b).arr = s.arr := rfl
@[simp] theorem State.strm_setMasByte (s : State) (a : Nat) (b : Byte) : (s.setMasByte a b).strm = s.strm := rfl
@[simp] theorem State.err_setMasByte (s : State) (a : Nat) (b : Byte) : (s.setMasByte a b).err = s.err := rfl
@[simp] theorem State.host_setMasByte (s : State) (a : Nat) (b : Byte) : (s.setMasByte a b).host = s.host := rfl
@[simp] theorem State.link_setMasByte (s : State) (a : Nat) (b : Byte) : (s.setMasByte a b).link = s.link := rfl
@[simp] theorem State.wts_setMasByte (s : State) (a : Nat) (b : Byte) : (s.setMasByte a b).wts = s.wts := rfl
@[simp] theorem State.stew_setMasByte (s : State) (a : Nat) (b : Byte) : (s.setMasByte a b).stew = s.stew := rfl
@[simp] theorem State.jr_setMasByte (s : State) (a : Nat) (b : Byte) : (s.setMasByte a b).jr = s.jr := rfl
@[simp] theorem State.boot_setMasByte (s : State) (a : Nat) (b : Byte) : (s.setMasByte a b).boot = s.boot := rfl
@[simp] theorem State.rd_setMasByte (s : State) (a : Nat) (b : Byte) (f' : Fld) (i' : Nat) (w' : Win) :
    (s.setMasByte a b).rd f' i' w' = s.rd f' i' w' :=
  State.rd_congr (State.regs_setMasByte ..) f' i' w'
@[simp] theorem State.flag_setMasByte (s : State) (a : Nat) (b : Byte) (f' : Fld) (i' : Nat) (w' : Win) :
    (s.setMasByte a b).flag f' i' w' = s.flag f' i' w' :=
  State.flag_congr (State.regs_setMasByte ..) f' i' w'

@[simp] theorem State.mas_masZero (s : State) (a n : Nat) :
    (s.masZero a n).mas = { s.mas with mem := SMap.keep s.mas.mem (fun k _ => decide (k < a) || decide (a + n ≤ k)) } :=
  rfl
@[simp] theorem State.pending_masZero (s : State) (a n : Nat) : (s.masZero a n).pending = s.pending := rfl
@[simp] theorem State.now_masZero (s : State) (a n : Nat) : (s.masZero a n).now = s.now := rfl
@[simp] theorem State.out_masZero (s : State) (a n : Nat) : (s.masZero a n).out = s.out := rfl
@[simp] theorem State.fresh_masZero (s : State) (a n : Nat) : (s.masZero a n).fresh = s.fresh := rfl
@[simp] theorem State.regs_masZero (s : State) (a n : Nat) : (s.masZero a n).regs = s.regs := rfl
@[simp] theorem State.latches_masZero (s : State) (a n : Nat) : (s.masZero a n).latches = s.latches := rfl
@[simp] theorem State.fuses_masZero (s : State) (a n : Nat) : (s.masZero a n).fuses = s.fuses := rfl
@[simp] theorem State.arr_masZero (s : State) (a n : Nat) : (s.masZero a n).arr = s.arr := rfl
@[simp] theorem State.strm_masZero (s : State) (a n : Nat) : (s.masZero a n).strm = s.strm := rfl
@[simp] theorem State.err_masZero (s : State) (a n : Nat) : (s.masZero a n).err = s.err := rfl
@[simp] theorem State.host_masZero (s : State) (a n : Nat) : (s.masZero a n).host = s.host := rfl
@[simp] theorem State.link_masZero (s : State) (a n : Nat) : (s.masZero a n).link = s.link := rfl
@[simp] theorem State.wts_masZero (s : State) (a n : Nat) : (s.masZero a n).wts = s.wts := rfl
@[simp] theorem State.stew_masZero (s : State) (a n : Nat) : (s.masZero a n).stew = s.stew := rfl
@[simp] theorem State.jr_masZero (s : State) (a n : Nat) : (s.masZero a n).jr = s.jr := rfl
@[simp] theorem State.boot_masZero (s : State) (a n : Nat) : (s.masZero a n).boot = s.boot := rfl
@[simp] theorem State.rd_masZero (s : State) (a n : Nat) (f' : Fld) (i' : Nat) (w' : Win) : (s.masZero a n).rd f' i' w' = s.rd f' i' w' :=
  State.rd_congr (State.regs_masZero ..) f' i' w'
@[simp] theorem State.flag_masZero (s : State) (a n : Nat) (f' : Fld) (i' : Nat) (w' : Win) :
    (s.masZero a n).flag f' i' w' = s.flag f' i' w' :=
  State.flag_congr (State.regs_masZero ..) f' i' w'

@[simp] theorem State.mas_setDrive (s : State) (d : Nat) (v : Drive) :
    (s.setDrive d v).mas = { s.mas with drives := SMap.insert s.mas.drives d v } :=
  rfl
@[simp] theorem State.pending_setDrive (s : State) (d : Nat) (v : Drive) : (s.setDrive d v).pending = s.pending := rfl
@[simp] theorem State.now_setDrive (s : State) (d : Nat) (v : Drive) : (s.setDrive d v).now = s.now := rfl
@[simp] theorem State.out_setDrive (s : State) (d : Nat) (v : Drive) : (s.setDrive d v).out = s.out := rfl
@[simp] theorem State.fresh_setDrive (s : State) (d : Nat) (v : Drive) : (s.setDrive d v).fresh = s.fresh := rfl
@[simp] theorem State.regs_setDrive (s : State) (d : Nat) (v : Drive) : (s.setDrive d v).regs = s.regs := rfl
@[simp] theorem State.latches_setDrive (s : State) (d : Nat) (v : Drive) : (s.setDrive d v).latches = s.latches := rfl
@[simp] theorem State.fuses_setDrive (s : State) (d : Nat) (v : Drive) : (s.setDrive d v).fuses = s.fuses := rfl
@[simp] theorem State.arr_setDrive (s : State) (d : Nat) (v : Drive) : (s.setDrive d v).arr = s.arr := rfl
@[simp] theorem State.strm_setDrive (s : State) (d : Nat) (v : Drive) : (s.setDrive d v).strm = s.strm := rfl
@[simp] theorem State.err_setDrive (s : State) (d : Nat) (v : Drive) : (s.setDrive d v).err = s.err := rfl
@[simp] theorem State.host_setDrive (s : State) (d : Nat) (v : Drive) : (s.setDrive d v).host = s.host := rfl
@[simp] theorem State.link_setDrive (s : State) (d : Nat) (v : Drive) : (s.setDrive d v).link = s.link := rfl
@[simp] theorem State.wts_setDrive (s : State) (d : Nat) (v : Drive) : (s.setDrive d v).wts = s.wts := rfl
@[simp] theorem State.stew_setDrive (s : State) (d : Nat) (v : Drive) : (s.setDrive d v).stew = s.stew := rfl
@[simp] theorem State.jr_setDrive (s : State) (d : Nat) (v : Drive) : (s.setDrive d v).jr = s.jr := rfl
@[simp] theorem State.boot_setDrive (s : State) (d : Nat) (v : Drive) : (s.setDrive d v).boot = s.boot := rfl
@[simp] theorem State.rd_setDrive (s : State) (d : Nat) (v : Drive) (f' : Fld) (i' : Nat) (w' : Win) :
    (s.setDrive d v).rd f' i' w' = s.rd f' i' w' :=
  State.rd_congr (State.regs_setDrive ..) f' i' w'
@[simp] theorem State.flag_setDrive (s : State) (d : Nat) (v : Drive) (f' : Fld) (i' : Nat) (w' : Win) :
    (s.setDrive d v).flag f' i' w' = s.flag f' i' w' :=
  State.flag_congr (State.regs_setDrive ..) f' i' w'

@[simp] theorem State.pending_addJob (s : State) (j : MigJob) : (s.addJob j).pending = s.pending := rfl
@[simp] theorem State.now_addJob (s : State) (j : MigJob) : (s.addJob j).now = s.now := rfl
@[simp] theorem State.out_addJob (s : State) (j : MigJob) : (s.addJob j).out = s.out := rfl
@[simp] theorem State.fresh_addJob (s : State) (j : MigJob) : (s.addJob j).fresh = s.fresh := rfl
@[simp] theorem State.regs_addJob (s : State) (j : MigJob) : (s.addJob j).regs = s.regs := rfl
@[simp] theorem State.latches_addJob (s : State) (j : MigJob) : (s.addJob j).latches = s.latches := rfl
@[simp] theorem State.fuses_addJob (s : State) (j : MigJob) : (s.addJob j).fuses = s.fuses := rfl
@[simp] theorem State.arr_addJob (s : State) (j : MigJob) : (s.addJob j).arr = s.arr := rfl
@[simp] theorem State.strm_addJob (s : State) (j : MigJob) : (s.addJob j).strm = s.strm := rfl
@[simp] theorem State.err_addJob (s : State) (j : MigJob) : (s.addJob j).err = s.err := rfl
@[simp] theorem State.host_addJob (s : State) (j : MigJob) : (s.addJob j).host = s.host := rfl
@[simp] theorem State.link_addJob (s : State) (j : MigJob) : (s.addJob j).link = s.link := rfl
@[simp] theorem State.wts_addJob (s : State) (j : MigJob) : (s.addJob j).wts = s.wts := rfl
@[simp] theorem State.stew_addJob (s : State) (j : MigJob) : (s.addJob j).stew = s.stew := rfl
@[simp] theorem State.jr_addJob (s : State) (j : MigJob) : (s.addJob j).jr = s.jr := rfl
@[simp] theorem State.boot_addJob (s : State) (j : MigJob) : (s.addJob j).boot = s.boot := rfl
@[simp] theorem State.rd_addJob (s : State) (j : MigJob) (f' : Fld) (i' : Nat) (w' : Win) : (s.addJob j).rd f' i' w' = s.rd f' i' w' :=
  State.rd_congr (State.regs_addJob ..) f' i' w'
@[simp] theorem State.flag_addJob (s : State) (j : MigJob) (f' : Fld) (i' : Nat) (w' : Win) :
    (s.addJob j).flag f' i' w' = s.flag f' i' w' :=
  State.flag_congr (State.regs_addJob ..) f' i' w'

@[simp] theorem State.pending_dropJob (s : State) (pn : Nat) : (s.dropJob pn).pending = s.pending := rfl
@[simp] theorem State.now_dropJob (s : State) (pn : Nat) : (s.dropJob pn).now = s.now := rfl
@[simp] theorem State.out_dropJob (s : State) (pn : Nat) : (s.dropJob pn).out = s.out := rfl
@[simp] theorem State.fresh_dropJob (s : State) (pn : Nat) : (s.dropJob pn).fresh = s.fresh := rfl
@[simp] theorem State.regs_dropJob (s : State) (pn : Nat) : (s.dropJob pn).regs = s.regs := rfl
@[simp] theorem State.latches_dropJob (s : State) (pn : Nat) : (s.dropJob pn).latches = s.latches := rfl
@[simp] theorem State.fuses_dropJob (s : State) (pn : Nat) : (s.dropJob pn).fuses = s.fuses := rfl
@[simp] theorem State.arr_dropJob (s : State) (pn : Nat) : (s.dropJob pn).arr = s.arr := rfl
@[simp] theorem State.strm_dropJob (s : State) (pn : Nat) : (s.dropJob pn).strm = s.strm := rfl
@[simp] theorem State.err_dropJob (s : State) (pn : Nat) : (s.dropJob pn).err = s.err := rfl
@[simp] theorem State.host_dropJob (s : State) (pn : Nat) : (s.dropJob pn).host = s.host := rfl
@[simp] theorem State.link_dropJob (s : State) (pn : Nat) : (s.dropJob pn).link = s.link := rfl
@[simp] theorem State.wts_dropJob (s : State) (pn : Nat) : (s.dropJob pn).wts = s.wts := rfl
@[simp] theorem State.stew_dropJob (s : State) (pn : Nat) : (s.dropJob pn).stew = s.stew := rfl
@[simp] theorem State.jr_dropJob (s : State) (pn : Nat) : (s.dropJob pn).jr = s.jr := rfl
@[simp] theorem State.boot_dropJob (s : State) (pn : Nat) : (s.dropJob pn).boot = s.boot := rfl
@[simp] theorem State.rd_dropJob (s : State) (pn : Nat) (f' : Fld) (i' : Nat) (w' : Win) : (s.dropJob pn).rd f' i' w' = s.rd f' i' w' :=
  State.rd_congr (State.regs_dropJob ..) f' i' w'
@[simp] theorem State.flag_dropJob (s : State) (pn : Nat) (f' : Fld) (i' : Nat) (w' : Win) :
    (s.dropJob pn).flag f' i' w' = s.flag f' i' w' :=
  State.flag_congr (State.regs_dropJob ..) f' i' w'

@[simp] theorem State.err_setErr (s : State) (k : Nat) (v : ErrRec) :
    (s.setErr k v).err = { s.err with records := SMap.insert s.err.records k v } :=
  rfl
@[simp] theorem State.pending_setErr (s : State) (k : Nat) (v : ErrRec) : (s.setErr k v).pending = s.pending := rfl
@[simp] theorem State.now_setErr (s : State) (k : Nat) (v : ErrRec) : (s.setErr k v).now = s.now := rfl
@[simp] theorem State.out_setErr (s : State) (k : Nat) (v : ErrRec) : (s.setErr k v).out = s.out := rfl
@[simp] theorem State.fresh_setErr (s : State) (k : Nat) (v : ErrRec) : (s.setErr k v).fresh = s.fresh := rfl
@[simp] theorem State.regs_setErr (s : State) (k : Nat) (v : ErrRec) : (s.setErr k v).regs = s.regs := rfl
@[simp] theorem State.latches_setErr (s : State) (k : Nat) (v : ErrRec) : (s.setErr k v).latches = s.latches := rfl
@[simp] theorem State.fuses_setErr (s : State) (k : Nat) (v : ErrRec) : (s.setErr k v).fuses = s.fuses := rfl
@[simp] theorem State.arr_setErr (s : State) (k : Nat) (v : ErrRec) : (s.setErr k v).arr = s.arr := rfl
@[simp] theorem State.strm_setErr (s : State) (k : Nat) (v : ErrRec) : (s.setErr k v).strm = s.strm := rfl
@[simp] theorem State.mas_setErr (s : State) (k : Nat) (v : ErrRec) : (s.setErr k v).mas = s.mas := rfl
@[simp] theorem State.host_setErr (s : State) (k : Nat) (v : ErrRec) : (s.setErr k v).host = s.host := rfl
@[simp] theorem State.link_setErr (s : State) (k : Nat) (v : ErrRec) : (s.setErr k v).link = s.link := rfl
@[simp] theorem State.wts_setErr (s : State) (k : Nat) (v : ErrRec) : (s.setErr k v).wts = s.wts := rfl
@[simp] theorem State.stew_setErr (s : State) (k : Nat) (v : ErrRec) : (s.setErr k v).stew = s.stew := rfl
@[simp] theorem State.jr_setErr (s : State) (k : Nat) (v : ErrRec) : (s.setErr k v).jr = s.jr := rfl
@[simp] theorem State.boot_setErr (s : State) (k : Nat) (v : ErrRec) : (s.setErr k v).boot = s.boot := rfl
@[simp] theorem State.rd_setErr (s : State) (k : Nat) (v : ErrRec) (f' : Fld) (i' : Nat) (w' : Win) :
    (s.setErr k v).rd f' i' w' = s.rd f' i' w' :=
  State.rd_congr (State.regs_setErr ..) f' i' w'
@[simp] theorem State.flag_setErr (s : State) (k : Nat) (v : ErrRec) (f' : Fld) (i' : Nat) (w' : Win) :
    (s.setErr k v).flag f' i' w' = s.flag f' i' w' :=
  State.flag_congr (State.regs_setErr ..) f' i' w'

@[simp] theorem State.host_setSession (s : State) (i : Nat) (v : Session) :
    (s.setSession i v).host = { s.host with sessions := SMap.insert s.host.sessions i v } :=
  rfl
@[simp] theorem State.pending_setSession (s : State) (i : Nat) (v : Session) : (s.setSession i v).pending = s.pending := rfl
@[simp] theorem State.now_setSession (s : State) (i : Nat) (v : Session) : (s.setSession i v).now = s.now := rfl
@[simp] theorem State.out_setSession (s : State) (i : Nat) (v : Session) : (s.setSession i v).out = s.out := rfl
@[simp] theorem State.fresh_setSession (s : State) (i : Nat) (v : Session) : (s.setSession i v).fresh = s.fresh := rfl
@[simp] theorem State.regs_setSession (s : State) (i : Nat) (v : Session) : (s.setSession i v).regs = s.regs := rfl
@[simp] theorem State.latches_setSession (s : State) (i : Nat) (v : Session) : (s.setSession i v).latches = s.latches := rfl
@[simp] theorem State.fuses_setSession (s : State) (i : Nat) (v : Session) : (s.setSession i v).fuses = s.fuses := rfl
@[simp] theorem State.arr_setSession (s : State) (i : Nat) (v : Session) : (s.setSession i v).arr = s.arr := rfl
@[simp] theorem State.strm_setSession (s : State) (i : Nat) (v : Session) : (s.setSession i v).strm = s.strm := rfl
@[simp] theorem State.mas_setSession (s : State) (i : Nat) (v : Session) : (s.setSession i v).mas = s.mas := rfl
@[simp] theorem State.err_setSession (s : State) (i : Nat) (v : Session) : (s.setSession i v).err = s.err := rfl
@[simp] theorem State.link_setSession (s : State) (i : Nat) (v : Session) : (s.setSession i v).link = s.link := rfl
@[simp] theorem State.wts_setSession (s : State) (i : Nat) (v : Session) : (s.setSession i v).wts = s.wts := rfl
@[simp] theorem State.stew_setSession (s : State) (i : Nat) (v : Session) : (s.setSession i v).stew = s.stew := rfl
@[simp] theorem State.jr_setSession (s : State) (i : Nat) (v : Session) : (s.setSession i v).jr = s.jr := rfl
@[simp] theorem State.boot_setSession (s : State) (i : Nat) (v : Session) : (s.setSession i v).boot = s.boot := rfl
@[simp] theorem State.rd_setSession (s : State) (i : Nat) (v : Session) (f' : Fld) (i' : Nat) (w' : Win) :
    (s.setSession i v).rd f' i' w' = s.rd f' i' w' :=
  State.rd_congr (State.regs_setSession ..) f' i' w'
@[simp] theorem State.flag_setSession (s : State) (i : Nat) (v : Session) (f' : Fld) (i' : Nat) (w' : Win) :
    (s.setSession i v).flag f' i' w' = s.flag f' i' w' :=
  State.flag_congr (State.regs_setSession ..) f' i' w'

@[simp] theorem State.host_dropSession (s : State) (i : Nat) :
    (s.dropSession i).host = { s.host with sessions := SMap.erase s.host.sessions i } :=
  rfl
@[simp] theorem State.pending_dropSession (s : State) (i : Nat) : (s.dropSession i).pending = s.pending := rfl
@[simp] theorem State.now_dropSession (s : State) (i : Nat) : (s.dropSession i).now = s.now := rfl
@[simp] theorem State.out_dropSession (s : State) (i : Nat) : (s.dropSession i).out = s.out := rfl
@[simp] theorem State.fresh_dropSession (s : State) (i : Nat) : (s.dropSession i).fresh = s.fresh := rfl
@[simp] theorem State.regs_dropSession (s : State) (i : Nat) : (s.dropSession i).regs = s.regs := rfl
@[simp] theorem State.latches_dropSession (s : State) (i : Nat) : (s.dropSession i).latches = s.latches := rfl
@[simp] theorem State.fuses_dropSession (s : State) (i : Nat) : (s.dropSession i).fuses = s.fuses := rfl
@[simp] theorem State.arr_dropSession (s : State) (i : Nat) : (s.dropSession i).arr = s.arr := rfl
@[simp] theorem State.strm_dropSession (s : State) (i : Nat) : (s.dropSession i).strm = s.strm := rfl
@[simp] theorem State.mas_dropSession (s : State) (i : Nat) : (s.dropSession i).mas = s.mas := rfl
@[simp] theorem State.err_dropSession (s : State) (i : Nat) : (s.dropSession i).err = s.err := rfl
@[simp] theorem State.link_dropSession (s : State) (i : Nat) : (s.dropSession i).link = s.link := rfl
@[simp] theorem State.wts_dropSession (s : State) (i : Nat) : (s.dropSession i).wts = s.wts := rfl
@[simp] theorem State.stew_dropSession (s : State) (i : Nat) : (s.dropSession i).stew = s.stew := rfl
@[simp] theorem State.jr_dropSession (s : State) (i : Nat) : (s.dropSession i).jr = s.jr := rfl
@[simp] theorem State.boot_dropSession (s : State) (i : Nat) : (s.dropSession i).boot = s.boot := rfl
@[simp] theorem State.rd_dropSession (s : State) (i : Nat) (f' : Fld) (i' : Nat) (w' : Win) :
    (s.dropSession i).rd f' i' w' = s.rd f' i' w' :=
  State.rd_congr (State.regs_dropSession ..) f' i' w'
@[simp] theorem State.flag_dropSession (s : State) (i : Nat) (f' : Fld) (i' : Nat) (w' : Win) :
    (s.dropSession i).flag f' i' w' = s.flag f' i' w' :=
  State.flag_congr (State.regs_dropSession ..) f' i' w'

@[simp] theorem State.host_setQp (s : State) (q : Nat) (v : Qp) : (s.setQp q v).host = { s.host with qps := SMap.insert s.host.qps q v } :=
  rfl
@[simp] theorem State.pending_setQp (s : State) (q : Nat) (v : Qp) : (s.setQp q v).pending = s.pending := rfl
@[simp] theorem State.now_setQp (s : State) (q : Nat) (v : Qp) : (s.setQp q v).now = s.now := rfl
@[simp] theorem State.out_setQp (s : State) (q : Nat) (v : Qp) : (s.setQp q v).out = s.out := rfl
@[simp] theorem State.fresh_setQp (s : State) (q : Nat) (v : Qp) : (s.setQp q v).fresh = s.fresh := rfl
@[simp] theorem State.regs_setQp (s : State) (q : Nat) (v : Qp) : (s.setQp q v).regs = s.regs := rfl
@[simp] theorem State.latches_setQp (s : State) (q : Nat) (v : Qp) : (s.setQp q v).latches = s.latches := rfl
@[simp] theorem State.fuses_setQp (s : State) (q : Nat) (v : Qp) : (s.setQp q v).fuses = s.fuses := rfl
@[simp] theorem State.arr_setQp (s : State) (q : Nat) (v : Qp) : (s.setQp q v).arr = s.arr := rfl
@[simp] theorem State.strm_setQp (s : State) (q : Nat) (v : Qp) : (s.setQp q v).strm = s.strm := rfl
@[simp] theorem State.mas_setQp (s : State) (q : Nat) (v : Qp) : (s.setQp q v).mas = s.mas := rfl
@[simp] theorem State.err_setQp (s : State) (q : Nat) (v : Qp) : (s.setQp q v).err = s.err := rfl
@[simp] theorem State.link_setQp (s : State) (q : Nat) (v : Qp) : (s.setQp q v).link = s.link := rfl
@[simp] theorem State.wts_setQp (s : State) (q : Nat) (v : Qp) : (s.setQp q v).wts = s.wts := rfl
@[simp] theorem State.stew_setQp (s : State) (q : Nat) (v : Qp) : (s.setQp q v).stew = s.stew := rfl
@[simp] theorem State.jr_setQp (s : State) (q : Nat) (v : Qp) : (s.setQp q v).jr = s.jr := rfl
@[simp] theorem State.boot_setQp (s : State) (q : Nat) (v : Qp) : (s.setQp q v).boot = s.boot := rfl
@[simp] theorem State.rd_setQp (s : State) (q : Nat) (v : Qp) (f' : Fld) (i' : Nat) (w' : Win) :
    (s.setQp q v).rd f' i' w' = s.rd f' i' w' :=
  State.rd_congr (State.regs_setQp ..) f' i' w'
@[simp] theorem State.flag_setQp (s : State) (q : Nat) (v : Qp) (f' : Fld) (i' : Nat) (w' : Win) :
    (s.setQp q v).flag f' i' w' = s.flag f' i' w' :=
  State.flag_congr (State.regs_setQp ..) f' i' w'

@[simp] theorem State.host_setRing (s : State) (k : Nat) (g : Ring) :
    (s.setRing k g).host = { s.host with rings := SMap.insert s.host.rings k g } :=
  rfl
@[simp] theorem State.pending_setRing (s : State) (k : Nat) (g : Ring) : (s.setRing k g).pending = s.pending := rfl
@[simp] theorem State.now_setRing (s : State) (k : Nat) (g : Ring) : (s.setRing k g).now = s.now := rfl
@[simp] theorem State.out_setRing (s : State) (k : Nat) (g : Ring) : (s.setRing k g).out = s.out := rfl
@[simp] theorem State.fresh_setRing (s : State) (k : Nat) (g : Ring) : (s.setRing k g).fresh = s.fresh := rfl
@[simp] theorem State.regs_setRing (s : State) (k : Nat) (g : Ring) : (s.setRing k g).regs = s.regs := rfl
@[simp] theorem State.latches_setRing (s : State) (k : Nat) (g : Ring) : (s.setRing k g).latches = s.latches := rfl
@[simp] theorem State.fuses_setRing (s : State) (k : Nat) (g : Ring) : (s.setRing k g).fuses = s.fuses := rfl
@[simp] theorem State.arr_setRing (s : State) (k : Nat) (g : Ring) : (s.setRing k g).arr = s.arr := rfl
@[simp] theorem State.strm_setRing (s : State) (k : Nat) (g : Ring) : (s.setRing k g).strm = s.strm := rfl
@[simp] theorem State.mas_setRing (s : State) (k : Nat) (g : Ring) : (s.setRing k g).mas = s.mas := rfl
@[simp] theorem State.err_setRing (s : State) (k : Nat) (g : Ring) : (s.setRing k g).err = s.err := rfl
@[simp] theorem State.link_setRing (s : State) (k : Nat) (g : Ring) : (s.setRing k g).link = s.link := rfl
@[simp] theorem State.wts_setRing (s : State) (k : Nat) (g : Ring) : (s.setRing k g).wts = s.wts := rfl
@[simp] theorem State.stew_setRing (s : State) (k : Nat) (g : Ring) : (s.setRing k g).stew = s.stew := rfl
@[simp] theorem State.jr_setRing (s : State) (k : Nat) (g : Ring) : (s.setRing k g).jr = s.jr := rfl
@[simp] theorem State.boot_setRing (s : State) (k : Nat) (g : Ring) : (s.setRing k g).boot = s.boot := rfl
@[simp] theorem State.rd_setRing (s : State) (k : Nat) (g : Ring) (f' : Fld) (i' : Nat) (w' : Win) :
    (s.setRing k g).rd f' i' w' = s.rd f' i' w' :=
  State.rd_congr (State.regs_setRing ..) f' i' w'
@[simp] theorem State.flag_setRing (s : State) (k : Nat) (g : Ring) (f' : Fld) (i' : Nat) (w' : Win) :
    (s.setRing k g).flag f' i' w' = s.flag f' i' w' :=
  State.flag_congr (State.regs_setRing ..) f' i' w'

@[simp] theorem State.link_setPort (s : State) (p : Nat) (v : Port) :
    (s.setPort p v).link = { s.link with ports := SMap.setD s.link.ports p v Port.empty } :=
  rfl
@[simp] theorem State.pending_setPort (s : State) (p : Nat) (v : Port) : (s.setPort p v).pending = s.pending := rfl
@[simp] theorem State.now_setPort (s : State) (p : Nat) (v : Port) : (s.setPort p v).now = s.now := rfl
@[simp] theorem State.out_setPort (s : State) (p : Nat) (v : Port) : (s.setPort p v).out = s.out := rfl
@[simp] theorem State.fresh_setPort (s : State) (p : Nat) (v : Port) : (s.setPort p v).fresh = s.fresh := rfl
@[simp] theorem State.regs_setPort (s : State) (p : Nat) (v : Port) : (s.setPort p v).regs = s.regs := rfl
@[simp] theorem State.latches_setPort (s : State) (p : Nat) (v : Port) : (s.setPort p v).latches = s.latches := rfl
@[simp] theorem State.fuses_setPort (s : State) (p : Nat) (v : Port) : (s.setPort p v).fuses = s.fuses := rfl
@[simp] theorem State.arr_setPort (s : State) (p : Nat) (v : Port) : (s.setPort p v).arr = s.arr := rfl
@[simp] theorem State.strm_setPort (s : State) (p : Nat) (v : Port) : (s.setPort p v).strm = s.strm := rfl
@[simp] theorem State.mas_setPort (s : State) (p : Nat) (v : Port) : (s.setPort p v).mas = s.mas := rfl
@[simp] theorem State.err_setPort (s : State) (p : Nat) (v : Port) : (s.setPort p v).err = s.err := rfl
@[simp] theorem State.host_setPort (s : State) (p : Nat) (v : Port) : (s.setPort p v).host = s.host := rfl
@[simp] theorem State.wts_setPort (s : State) (p : Nat) (v : Port) : (s.setPort p v).wts = s.wts := rfl
@[simp] theorem State.stew_setPort (s : State) (p : Nat) (v : Port) : (s.setPort p v).stew = s.stew := rfl
@[simp] theorem State.jr_setPort (s : State) (p : Nat) (v : Port) : (s.setPort p v).jr = s.jr := rfl
@[simp] theorem State.boot_setPort (s : State) (p : Nat) (v : Port) : (s.setPort p v).boot = s.boot := rfl
@[simp] theorem State.rd_setPort (s : State) (p : Nat) (v : Port) (f' : Fld) (i' : Nat) (w' : Win) :
    (s.setPort p v).rd f' i' w' = s.rd f' i' w' :=
  State.rd_congr (State.regs_setPort ..) f' i' w'
@[simp] theorem State.flag_setPort (s : State) (p : Nat) (v : Port) (f' : Fld) (i' : Nat) (w' : Win) :
    (s.setPort p v).flag f' i' w' = s.flag f' i' w' :=
  State.flag_congr (State.regs_setPort ..) f' i' w'

@[simp] theorem State.link_setTx (s : State) (k : Nat) (v : TxFlow) :
    (s.setTx k v).link = { s.link with tx := SMap.setD s.link.tx k v { next := 0, unacked := [] } } :=
  rfl
@[simp] theorem State.pending_setTx (s : State) (k : Nat) (v : TxFlow) : (s.setTx k v).pending = s.pending := rfl
@[simp] theorem State.now_setTx (s : State) (k : Nat) (v : TxFlow) : (s.setTx k v).now = s.now := rfl
@[simp] theorem State.out_setTx (s : State) (k : Nat) (v : TxFlow) : (s.setTx k v).out = s.out := rfl
@[simp] theorem State.fresh_setTx (s : State) (k : Nat) (v : TxFlow) : (s.setTx k v).fresh = s.fresh := rfl
@[simp] theorem State.regs_setTx (s : State) (k : Nat) (v : TxFlow) : (s.setTx k v).regs = s.regs := rfl
@[simp] theorem State.latches_setTx (s : State) (k : Nat) (v : TxFlow) : (s.setTx k v).latches = s.latches := rfl
@[simp] theorem State.fuses_setTx (s : State) (k : Nat) (v : TxFlow) : (s.setTx k v).fuses = s.fuses := rfl
@[simp] theorem State.arr_setTx (s : State) (k : Nat) (v : TxFlow) : (s.setTx k v).arr = s.arr := rfl
@[simp] theorem State.strm_setTx (s : State) (k : Nat) (v : TxFlow) : (s.setTx k v).strm = s.strm := rfl
@[simp] theorem State.mas_setTx (s : State) (k : Nat) (v : TxFlow) : (s.setTx k v).mas = s.mas := rfl
@[simp] theorem State.err_setTx (s : State) (k : Nat) (v : TxFlow) : (s.setTx k v).err = s.err := rfl
@[simp] theorem State.host_setTx (s : State) (k : Nat) (v : TxFlow) : (s.setTx k v).host = s.host := rfl
@[simp] theorem State.wts_setTx (s : State) (k : Nat) (v : TxFlow) : (s.setTx k v).wts = s.wts := rfl
@[simp] theorem State.stew_setTx (s : State) (k : Nat) (v : TxFlow) : (s.setTx k v).stew = s.stew := rfl
@[simp] theorem State.jr_setTx (s : State) (k : Nat) (v : TxFlow) : (s.setTx k v).jr = s.jr := rfl
@[simp] theorem State.boot_setTx (s : State) (k : Nat) (v : TxFlow) : (s.setTx k v).boot = s.boot := rfl
@[simp] theorem State.rd_setTx (s : State) (k : Nat) (v : TxFlow) (f' : Fld) (i' : Nat) (w' : Win) :
    (s.setTx k v).rd f' i' w' = s.rd f' i' w' :=
  State.rd_congr (State.regs_setTx ..) f' i' w'
@[simp] theorem State.flag_setTx (s : State) (k : Nat) (v : TxFlow) (f' : Fld) (i' : Nat) (w' : Win) :
    (s.setTx k v).flag f' i' w' = s.flag f' i' w' :=
  State.flag_congr (State.regs_setTx ..) f' i' w'

@[simp] theorem State.link_setRx (s : State) (k : Nat) (v : RxFlow) :
    (s.setRx k v).link = { s.link with rx := SMap.setD s.link.rx k v RxFlow.empty } :=
  rfl
@[simp] theorem State.pending_setRx (s : State) (k : Nat) (v : RxFlow) : (s.setRx k v).pending = s.pending := rfl
@[simp] theorem State.now_setRx (s : State) (k : Nat) (v : RxFlow) : (s.setRx k v).now = s.now := rfl
@[simp] theorem State.out_setRx (s : State) (k : Nat) (v : RxFlow) : (s.setRx k v).out = s.out := rfl
@[simp] theorem State.fresh_setRx (s : State) (k : Nat) (v : RxFlow) : (s.setRx k v).fresh = s.fresh := rfl
@[simp] theorem State.regs_setRx (s : State) (k : Nat) (v : RxFlow) : (s.setRx k v).regs = s.regs := rfl
@[simp] theorem State.latches_setRx (s : State) (k : Nat) (v : RxFlow) : (s.setRx k v).latches = s.latches := rfl
@[simp] theorem State.fuses_setRx (s : State) (k : Nat) (v : RxFlow) : (s.setRx k v).fuses = s.fuses := rfl
@[simp] theorem State.arr_setRx (s : State) (k : Nat) (v : RxFlow) : (s.setRx k v).arr = s.arr := rfl
@[simp] theorem State.strm_setRx (s : State) (k : Nat) (v : RxFlow) : (s.setRx k v).strm = s.strm := rfl
@[simp] theorem State.mas_setRx (s : State) (k : Nat) (v : RxFlow) : (s.setRx k v).mas = s.mas := rfl
@[simp] theorem State.err_setRx (s : State) (k : Nat) (v : RxFlow) : (s.setRx k v).err = s.err := rfl
@[simp] theorem State.host_setRx (s : State) (k : Nat) (v : RxFlow) : (s.setRx k v).host = s.host := rfl
@[simp] theorem State.wts_setRx (s : State) (k : Nat) (v : RxFlow) : (s.setRx k v).wts = s.wts := rfl
@[simp] theorem State.stew_setRx (s : State) (k : Nat) (v : RxFlow) : (s.setRx k v).stew = s.stew := rfl
@[simp] theorem State.jr_setRx (s : State) (k : Nat) (v : RxFlow) : (s.setRx k v).jr = s.jr := rfl
@[simp] theorem State.boot_setRx (s : State) (k : Nat) (v : RxFlow) : (s.setRx k v).boot = s.boot := rfl
@[simp] theorem State.rd_setRx (s : State) (k : Nat) (v : RxFlow) (f' : Fld) (i' : Nat) (w' : Win) :
    (s.setRx k v).rd f' i' w' = s.rd f' i' w' :=
  State.rd_congr (State.regs_setRx ..) f' i' w'
@[simp] theorem State.flag_setRx (s : State) (k : Nat) (v : RxFlow) (f' : Fld) (i' : Nat) (w' : Win) :
    (s.setRx k v).flag f' i' w' = s.flag f' i' w' :=
  State.flag_congr (State.regs_setRx ..) f' i' w'

@[simp] theorem State.wts_setPkg (s : State) (h : Nat) (p : Pkg) : (s.setPkg h p).wts = { s.wts with pkgs := SMap.insert s.wts.pkgs h p } :=
  rfl
@[simp] theorem State.pending_setPkg (s : State) (h : Nat) (p : Pkg) : (s.setPkg h p).pending = s.pending := rfl
@[simp] theorem State.now_setPkg (s : State) (h : Nat) (p : Pkg) : (s.setPkg h p).now = s.now := rfl
@[simp] theorem State.out_setPkg (s : State) (h : Nat) (p : Pkg) : (s.setPkg h p).out = s.out := rfl
@[simp] theorem State.fresh_setPkg (s : State) (h : Nat) (p : Pkg) : (s.setPkg h p).fresh = s.fresh := rfl
@[simp] theorem State.regs_setPkg (s : State) (h : Nat) (p : Pkg) : (s.setPkg h p).regs = s.regs := rfl
@[simp] theorem State.latches_setPkg (s : State) (h : Nat) (p : Pkg) : (s.setPkg h p).latches = s.latches := rfl
@[simp] theorem State.fuses_setPkg (s : State) (h : Nat) (p : Pkg) : (s.setPkg h p).fuses = s.fuses := rfl
@[simp] theorem State.arr_setPkg (s : State) (h : Nat) (p : Pkg) : (s.setPkg h p).arr = s.arr := rfl
@[simp] theorem State.strm_setPkg (s : State) (h : Nat) (p : Pkg) : (s.setPkg h p).strm = s.strm := rfl
@[simp] theorem State.mas_setPkg (s : State) (h : Nat) (p : Pkg) : (s.setPkg h p).mas = s.mas := rfl
@[simp] theorem State.err_setPkg (s : State) (h : Nat) (p : Pkg) : (s.setPkg h p).err = s.err := rfl
@[simp] theorem State.host_setPkg (s : State) (h : Nat) (p : Pkg) : (s.setPkg h p).host = s.host := rfl
@[simp] theorem State.link_setPkg (s : State) (h : Nat) (p : Pkg) : (s.setPkg h p).link = s.link := rfl
@[simp] theorem State.stew_setPkg (s : State) (h : Nat) (p : Pkg) : (s.setPkg h p).stew = s.stew := rfl
@[simp] theorem State.jr_setPkg (s : State) (h : Nat) (p : Pkg) : (s.setPkg h p).jr = s.jr := rfl
@[simp] theorem State.boot_setPkg (s : State) (h : Nat) (p : Pkg) : (s.setPkg h p).boot = s.boot := rfl
@[simp] theorem State.rd_setPkg (s : State) (h : Nat) (p : Pkg) (f' : Fld) (i' : Nat) (w' : Win) :
    (s.setPkg h p).rd f' i' w' = s.rd f' i' w' :=
  State.rd_congr (State.regs_setPkg ..) f' i' w'
@[simp] theorem State.flag_setPkg (s : State) (h : Nat) (p : Pkg) (f' : Fld) (i' : Nat) (w' : Win) :
    (s.setPkg h p).flag f' i' w' = s.flag f' i' w' :=
  State.flag_congr (State.regs_setPkg ..) f' i' w'

@[simp] theorem State.wts_dropPkg (s : State) (h : Nat) : (s.dropPkg h).wts = { s.wts with pkgs := SMap.erase s.wts.pkgs h } := rfl
@[simp] theorem State.pending_dropPkg (s : State) (h : Nat) : (s.dropPkg h).pending = s.pending := rfl
@[simp] theorem State.now_dropPkg (s : State) (h : Nat) : (s.dropPkg h).now = s.now := rfl
@[simp] theorem State.out_dropPkg (s : State) (h : Nat) : (s.dropPkg h).out = s.out := rfl
@[simp] theorem State.fresh_dropPkg (s : State) (h : Nat) : (s.dropPkg h).fresh = s.fresh := rfl
@[simp] theorem State.regs_dropPkg (s : State) (h : Nat) : (s.dropPkg h).regs = s.regs := rfl
@[simp] theorem State.latches_dropPkg (s : State) (h : Nat) : (s.dropPkg h).latches = s.latches := rfl
@[simp] theorem State.fuses_dropPkg (s : State) (h : Nat) : (s.dropPkg h).fuses = s.fuses := rfl
@[simp] theorem State.arr_dropPkg (s : State) (h : Nat) : (s.dropPkg h).arr = s.arr := rfl
@[simp] theorem State.strm_dropPkg (s : State) (h : Nat) : (s.dropPkg h).strm = s.strm := rfl
@[simp] theorem State.mas_dropPkg (s : State) (h : Nat) : (s.dropPkg h).mas = s.mas := rfl
@[simp] theorem State.err_dropPkg (s : State) (h : Nat) : (s.dropPkg h).err = s.err := rfl
@[simp] theorem State.host_dropPkg (s : State) (h : Nat) : (s.dropPkg h).host = s.host := rfl
@[simp] theorem State.link_dropPkg (s : State) (h : Nat) : (s.dropPkg h).link = s.link := rfl
@[simp] theorem State.stew_dropPkg (s : State) (h : Nat) : (s.dropPkg h).stew = s.stew := rfl
@[simp] theorem State.jr_dropPkg (s : State) (h : Nat) : (s.dropPkg h).jr = s.jr := rfl
@[simp] theorem State.boot_dropPkg (s : State) (h : Nat) : (s.dropPkg h).boot = s.boot := rfl
@[simp] theorem State.rd_dropPkg (s : State) (h : Nat) (f' : Fld) (i' : Nat) (w' : Win) : (s.dropPkg h).rd f' i' w' = s.rd f' i' w' :=
  State.rd_congr (State.regs_dropPkg ..) f' i' w'
@[simp] theorem State.flag_dropPkg (s : State) (h : Nat) (f' : Fld) (i' : Nat) (w' : Win) : (s.dropPkg h).flag f' i' w' = s.flag f' i' w' :=
  State.flag_congr (State.regs_dropPkg ..) f' i' w'

@[simp] theorem State.wts_setInst (s : State) (j : Inst) :
    (s.setInst j).wts = { s.wts with jobs := s.wts.jobs.map (fun o => if o.handle = j.handle then j else o) } :=
  rfl
@[simp] theorem State.pending_setInst (s : State) (j : Inst) : (s.setInst j).pending = s.pending := rfl
@[simp] theorem State.now_setInst (s : State) (j : Inst) : (s.setInst j).now = s.now := rfl
@[simp] theorem State.out_setInst (s : State) (j : Inst) : (s.setInst j).out = s.out := rfl
@[simp] theorem State.fresh_setInst (s : State) (j : Inst) : (s.setInst j).fresh = s.fresh := rfl
@[simp] theorem State.regs_setInst (s : State) (j : Inst) : (s.setInst j).regs = s.regs := rfl
@[simp] theorem State.latches_setInst (s : State) (j : Inst) : (s.setInst j).latches = s.latches := rfl
@[simp] theorem State.fuses_setInst (s : State) (j : Inst) : (s.setInst j).fuses = s.fuses := rfl
@[simp] theorem State.arr_setInst (s : State) (j : Inst) : (s.setInst j).arr = s.arr := rfl
@[simp] theorem State.strm_setInst (s : State) (j : Inst) : (s.setInst j).strm = s.strm := rfl
@[simp] theorem State.mas_setInst (s : State) (j : Inst) : (s.setInst j).mas = s.mas := rfl
@[simp] theorem State.err_setInst (s : State) (j : Inst) : (s.setInst j).err = s.err := rfl
@[simp] theorem State.host_setInst (s : State) (j : Inst) : (s.setInst j).host = s.host := rfl
@[simp] theorem State.link_setInst (s : State) (j : Inst) : (s.setInst j).link = s.link := rfl
@[simp] theorem State.stew_setInst (s : State) (j : Inst) : (s.setInst j).stew = s.stew := rfl
@[simp] theorem State.jr_setInst (s : State) (j : Inst) : (s.setInst j).jr = s.jr := rfl
@[simp] theorem State.boot_setInst (s : State) (j : Inst) : (s.setInst j).boot = s.boot := rfl
@[simp] theorem State.rd_setInst (s : State) (j : Inst) (f' : Fld) (i' : Nat) (w' : Win) : (s.setInst j).rd f' i' w' = s.rd f' i' w' :=
  State.rd_congr (State.regs_setInst ..) f' i' w'
@[simp] theorem State.flag_setInst (s : State) (j : Inst) (f' : Fld) (i' : Nat) (w' : Win) :
    (s.setInst j).flag f' i' w' = s.flag f' i' w' :=
  State.flag_congr (State.regs_setInst ..) f' i' w'

@[simp] theorem State.wts_dropInst (s : State) (h : Nat) :
    (s.dropInst h).wts = { s.wts with jobs := s.wts.jobs.filter (fun o => decide (o.handle ≠ h)) } :=
  rfl
@[simp] theorem State.pending_dropInst (s : State) (h : Nat) : (s.dropInst h).pending = s.pending := rfl
@[simp] theorem State.now_dropInst (s : State) (h : Nat) : (s.dropInst h).now = s.now := rfl
@[simp] theorem State.out_dropInst (s : State) (h : Nat) : (s.dropInst h).out = s.out := rfl
@[simp] theorem State.fresh_dropInst (s : State) (h : Nat) : (s.dropInst h).fresh = s.fresh := rfl
@[simp] theorem State.regs_dropInst (s : State) (h : Nat) : (s.dropInst h).regs = s.regs := rfl
@[simp] theorem State.latches_dropInst (s : State) (h : Nat) : (s.dropInst h).latches = s.latches := rfl
@[simp] theorem State.fuses_dropInst (s : State) (h : Nat) : (s.dropInst h).fuses = s.fuses := rfl
@[simp] theorem State.arr_dropInst (s : State) (h : Nat) : (s.dropInst h).arr = s.arr := rfl
@[simp] theorem State.strm_dropInst (s : State) (h : Nat) : (s.dropInst h).strm = s.strm := rfl
@[simp] theorem State.mas_dropInst (s : State) (h : Nat) : (s.dropInst h).mas = s.mas := rfl
@[simp] theorem State.err_dropInst (s : State) (h : Nat) : (s.dropInst h).err = s.err := rfl
@[simp] theorem State.host_dropInst (s : State) (h : Nat) : (s.dropInst h).host = s.host := rfl
@[simp] theorem State.link_dropInst (s : State) (h : Nat) : (s.dropInst h).link = s.link := rfl
@[simp] theorem State.stew_dropInst (s : State) (h : Nat) : (s.dropInst h).stew = s.stew := rfl
@[simp] theorem State.jr_dropInst (s : State) (h : Nat) : (s.dropInst h).jr = s.jr := rfl
@[simp] theorem State.boot_dropInst (s : State) (h : Nat) : (s.dropInst h).boot = s.boot := rfl
@[simp] theorem State.rd_dropInst (s : State) (h : Nat) (f' : Fld) (i' : Nat) (w' : Win) : (s.dropInst h).rd f' i' w' = s.rd f' i' w' :=
  State.rd_congr (State.regs_dropInst ..) f' i' w'
@[simp] theorem State.flag_dropInst (s : State) (h : Nat) (f' : Fld) (i' : Nat) (w' : Win) :
    (s.dropInst h).flag f' i' w' = s.flag f' i' w' :=
  State.flag_congr (State.regs_dropInst ..) f' i' w'

@[simp] theorem State.stew_setReq (s : State) (slot : Nat) (r : Req) :
    (s.setReq slot r).stew = { s.stew with reqs := SMap.insert s.stew.reqs slot r } :=
  rfl
@[simp] theorem State.pending_setReq (s : State) (slot : Nat) (r : Req) : (s.setReq slot r).pending = s.pending := rfl
@[simp] theorem State.now_setReq (s : State) (slot : Nat) (r : Req) : (s.setReq slot r).now = s.now := rfl
@[simp] theorem State.out_setReq (s : State) (slot : Nat) (r : Req) : (s.setReq slot r).out = s.out := rfl
@[simp] theorem State.fresh_setReq (s : State) (slot : Nat) (r : Req) : (s.setReq slot r).fresh = s.fresh := rfl
@[simp] theorem State.regs_setReq (s : State) (slot : Nat) (r : Req) : (s.setReq slot r).regs = s.regs := rfl
@[simp] theorem State.latches_setReq (s : State) (slot : Nat) (r : Req) : (s.setReq slot r).latches = s.latches := rfl
@[simp] theorem State.fuses_setReq (s : State) (slot : Nat) (r : Req) : (s.setReq slot r).fuses = s.fuses := rfl
@[simp] theorem State.arr_setReq (s : State) (slot : Nat) (r : Req) : (s.setReq slot r).arr = s.arr := rfl
@[simp] theorem State.strm_setReq (s : State) (slot : Nat) (r : Req) : (s.setReq slot r).strm = s.strm := rfl
@[simp] theorem State.mas_setReq (s : State) (slot : Nat) (r : Req) : (s.setReq slot r).mas = s.mas := rfl
@[simp] theorem State.err_setReq (s : State) (slot : Nat) (r : Req) : (s.setReq slot r).err = s.err := rfl
@[simp] theorem State.host_setReq (s : State) (slot : Nat) (r : Req) : (s.setReq slot r).host = s.host := rfl
@[simp] theorem State.link_setReq (s : State) (slot : Nat) (r : Req) : (s.setReq slot r).link = s.link := rfl
@[simp] theorem State.wts_setReq (s : State) (slot : Nat) (r : Req) : (s.setReq slot r).wts = s.wts := rfl
@[simp] theorem State.jr_setReq (s : State) (slot : Nat) (r : Req) : (s.setReq slot r).jr = s.jr := rfl
@[simp] theorem State.boot_setReq (s : State) (slot : Nat) (r : Req) : (s.setReq slot r).boot = s.boot := rfl
@[simp] theorem State.rd_setReq (s : State) (slot : Nat) (r : Req) (f' : Fld) (i' : Nat) (w' : Win) :
    (s.setReq slot r).rd f' i' w' = s.rd f' i' w' :=
  State.rd_congr (State.regs_setReq ..) f' i' w'
@[simp] theorem State.flag_setReq (s : State) (slot : Nat) (r : Req) (f' : Fld) (i' : Nat) (w' : Win) :
    (s.setReq slot r).flag f' i' w' = s.flag f' i' w' :=
  State.flag_congr (State.regs_setReq ..) f' i' w'

@[simp] theorem State.stew_freeReq (s : State) (slot : Nat) : (s.freeReq slot).stew = { s.stew with reqs := SMap.erase s.stew.reqs slot } :=
  rfl
@[simp] theorem State.pending_freeReq (s : State) (slot : Nat) : (s.freeReq slot).pending = s.pending := rfl
@[simp] theorem State.now_freeReq (s : State) (slot : Nat) : (s.freeReq slot).now = s.now := rfl
@[simp] theorem State.out_freeReq (s : State) (slot : Nat) : (s.freeReq slot).out = s.out := rfl
@[simp] theorem State.fresh_freeReq (s : State) (slot : Nat) : (s.freeReq slot).fresh = s.fresh := rfl
@[simp] theorem State.regs_freeReq (s : State) (slot : Nat) : (s.freeReq slot).regs = s.regs := rfl
@[simp] theorem State.latches_freeReq (s : State) (slot : Nat) : (s.freeReq slot).latches = s.latches := rfl
@[simp] theorem State.fuses_freeReq (s : State) (slot : Nat) : (s.freeReq slot).fuses = s.fuses := rfl
@[simp] theorem State.arr_freeReq (s : State) (slot : Nat) : (s.freeReq slot).arr = s.arr := rfl
@[simp] theorem State.strm_freeReq (s : State) (slot : Nat) : (s.freeReq slot).strm = s.strm := rfl
@[simp] theorem State.mas_freeReq (s : State) (slot : Nat) : (s.freeReq slot).mas = s.mas := rfl
@[simp] theorem State.err_freeReq (s : State) (slot : Nat) : (s.freeReq slot).err = s.err := rfl
@[simp] theorem State.host_freeReq (s : State) (slot : Nat) : (s.freeReq slot).host = s.host := rfl
@[simp] theorem State.link_freeReq (s : State) (slot : Nat) : (s.freeReq slot).link = s.link := rfl
@[simp] theorem State.wts_freeReq (s : State) (slot : Nat) : (s.freeReq slot).wts = s.wts := rfl
@[simp] theorem State.jr_freeReq (s : State) (slot : Nat) : (s.freeReq slot).jr = s.jr := rfl
@[simp] theorem State.boot_freeReq (s : State) (slot : Nat) : (s.freeReq slot).boot = s.boot := rfl
@[simp] theorem State.rd_freeReq (s : State) (slot : Nat) (f' : Fld) (i' : Nat) (w' : Win) : (s.freeReq slot).rd f' i' w' = s.rd f' i' w' :=
  State.rd_congr (State.regs_freeReq ..) f' i' w'
@[simp] theorem State.flag_freeReq (s : State) (slot : Nat) (f' : Fld) (i' : Nat) (w' : Win) :
    (s.freeReq slot).flag f' i' w' = s.flag f' i' w' :=
  State.flag_congr (State.regs_freeReq ..) f' i' w'

@[simp] theorem State.stew_setLevel (s : State) (t : Nat) (v : Int) :
    (s.setLevel t v).stew = { s.stew with levels := SMap.setD s.stew.levels t v 0 } :=
  rfl
@[simp] theorem State.pending_setLevel (s : State) (t : Nat) (v : Int) : (s.setLevel t v).pending = s.pending := rfl
@[simp] theorem State.now_setLevel (s : State) (t : Nat) (v : Int) : (s.setLevel t v).now = s.now := rfl
@[simp] theorem State.out_setLevel (s : State) (t : Nat) (v : Int) : (s.setLevel t v).out = s.out := rfl
@[simp] theorem State.fresh_setLevel (s : State) (t : Nat) (v : Int) : (s.setLevel t v).fresh = s.fresh := rfl
@[simp] theorem State.regs_setLevel (s : State) (t : Nat) (v : Int) : (s.setLevel t v).regs = s.regs := rfl
@[simp] theorem State.latches_setLevel (s : State) (t : Nat) (v : Int) : (s.setLevel t v).latches = s.latches := rfl
@[simp] theorem State.fuses_setLevel (s : State) (t : Nat) (v : Int) : (s.setLevel t v).fuses = s.fuses := rfl
@[simp] theorem State.arr_setLevel (s : State) (t : Nat) (v : Int) : (s.setLevel t v).arr = s.arr := rfl
@[simp] theorem State.strm_setLevel (s : State) (t : Nat) (v : Int) : (s.setLevel t v).strm = s.strm := rfl
@[simp] theorem State.mas_setLevel (s : State) (t : Nat) (v : Int) : (s.setLevel t v).mas = s.mas := rfl
@[simp] theorem State.err_setLevel (s : State) (t : Nat) (v : Int) : (s.setLevel t v).err = s.err := rfl
@[simp] theorem State.host_setLevel (s : State) (t : Nat) (v : Int) : (s.setLevel t v).host = s.host := rfl
@[simp] theorem State.link_setLevel (s : State) (t : Nat) (v : Int) : (s.setLevel t v).link = s.link := rfl
@[simp] theorem State.wts_setLevel (s : State) (t : Nat) (v : Int) : (s.setLevel t v).wts = s.wts := rfl
@[simp] theorem State.jr_setLevel (s : State) (t : Nat) (v : Int) : (s.setLevel t v).jr = s.jr := rfl
@[simp] theorem State.boot_setLevel (s : State) (t : Nat) (v : Int) : (s.setLevel t v).boot = s.boot := rfl
@[simp] theorem State.rd_setLevel (s : State) (t : Nat) (v : Int) (f' : Fld) (i' : Nat) (w' : Win) :
    (s.setLevel t v).rd f' i' w' = s.rd f' i' w' :=
  State.rd_congr (State.regs_setLevel ..) f' i' w'
@[simp] theorem State.flag_setLevel (s : State) (t : Nat) (v : Int) (f' : Fld) (i' : Nat) (w' : Win) :
    (s.setLevel t v).flag f' i' w' = s.flag f' i' w' :=
  State.flag_congr (State.regs_setLevel ..) f' i' w'

@[simp] theorem State.stew_setPfx (s : State) (t h : Nat) (v : Pfx) :
    (s.setPfx t h v).stew = { s.stew with prefixes := SMap.insert s.stew.prefixes (pfxKey t h) v } :=
  rfl
@[simp] theorem State.pending_setPfx (s : State) (t h : Nat) (v : Pfx) : (s.setPfx t h v).pending = s.pending := rfl
@[simp] theorem State.now_setPfx (s : State) (t h : Nat) (v : Pfx) : (s.setPfx t h v).now = s.now := rfl
@[simp] theorem State.out_setPfx (s : State) (t h : Nat) (v : Pfx) : (s.setPfx t h v).out = s.out := rfl
@[simp] theorem State.fresh_setPfx (s : State) (t h : Nat) (v : Pfx) : (s.setPfx t h v).fresh = s.fresh := rfl
@[simp] theorem State.regs_setPfx (s : State) (t h : Nat) (v : Pfx) : (s.setPfx t h v).regs = s.regs := rfl
@[simp] theorem State.latches_setPfx (s : State) (t h : Nat) (v : Pfx) : (s.setPfx t h v).latches = s.latches := rfl
@[simp] theorem State.fuses_setPfx (s : State) (t h : Nat) (v : Pfx) : (s.setPfx t h v).fuses = s.fuses := rfl
@[simp] theorem State.arr_setPfx (s : State) (t h : Nat) (v : Pfx) : (s.setPfx t h v).arr = s.arr := rfl
@[simp] theorem State.strm_setPfx (s : State) (t h : Nat) (v : Pfx) : (s.setPfx t h v).strm = s.strm := rfl
@[simp] theorem State.mas_setPfx (s : State) (t h : Nat) (v : Pfx) : (s.setPfx t h v).mas = s.mas := rfl
@[simp] theorem State.err_setPfx (s : State) (t h : Nat) (v : Pfx) : (s.setPfx t h v).err = s.err := rfl
@[simp] theorem State.host_setPfx (s : State) (t h : Nat) (v : Pfx) : (s.setPfx t h v).host = s.host := rfl
@[simp] theorem State.link_setPfx (s : State) (t h : Nat) (v : Pfx) : (s.setPfx t h v).link = s.link := rfl
@[simp] theorem State.wts_setPfx (s : State) (t h : Nat) (v : Pfx) : (s.setPfx t h v).wts = s.wts := rfl
@[simp] theorem State.jr_setPfx (s : State) (t h : Nat) (v : Pfx) : (s.setPfx t h v).jr = s.jr := rfl
@[simp] theorem State.boot_setPfx (s : State) (t h : Nat) (v : Pfx) : (s.setPfx t h v).boot = s.boot := rfl
@[simp] theorem State.rd_setPfx (s : State) (t h : Nat) (v : Pfx) (f' : Fld) (i' : Nat) (w' : Win) :
    (s.setPfx t h v).rd f' i' w' = s.rd f' i' w' :=
  State.rd_congr (State.regs_setPfx ..) f' i' w'
@[simp] theorem State.flag_setPfx (s : State) (t h : Nat) (v : Pfx) (f' : Fld) (i' : Nat) (w' : Win) :
    (s.setPfx t h v).flag f' i' w' = s.flag f' i' w' :=
  State.flag_congr (State.regs_setPfx ..) f' i' w'

@[simp] theorem State.stew_setFlights (s : State) (h : Nat) (l : List Flight) :
    (s.setFlights h l).stew = { s.stew with flights := SMap.setD s.stew.flights h l [] } :=
  rfl
@[simp] theorem State.pending_setFlights (s : State) (h : Nat) (l : List Flight) : (s.setFlights h l).pending = s.pending := rfl
@[simp] theorem State.now_setFlights (s : State) (h : Nat) (l : List Flight) : (s.setFlights h l).now = s.now := rfl
@[simp] theorem State.out_setFlights (s : State) (h : Nat) (l : List Flight) : (s.setFlights h l).out = s.out := rfl
@[simp] theorem State.fresh_setFlights (s : State) (h : Nat) (l : List Flight) : (s.setFlights h l).fresh = s.fresh := rfl
@[simp] theorem State.regs_setFlights (s : State) (h : Nat) (l : List Flight) : (s.setFlights h l).regs = s.regs := rfl
@[simp] theorem State.latches_setFlights (s : State) (h : Nat) (l : List Flight) : (s.setFlights h l).latches = s.latches := rfl
@[simp] theorem State.fuses_setFlights (s : State) (h : Nat) (l : List Flight) : (s.setFlights h l).fuses = s.fuses := rfl
@[simp] theorem State.arr_setFlights (s : State) (h : Nat) (l : List Flight) : (s.setFlights h l).arr = s.arr := rfl
@[simp] theorem State.strm_setFlights (s : State) (h : Nat) (l : List Flight) : (s.setFlights h l).strm = s.strm := rfl
@[simp] theorem State.mas_setFlights (s : State) (h : Nat) (l : List Flight) : (s.setFlights h l).mas = s.mas := rfl
@[simp] theorem State.err_setFlights (s : State) (h : Nat) (l : List Flight) : (s.setFlights h l).err = s.err := rfl
@[simp] theorem State.host_setFlights (s : State) (h : Nat) (l : List Flight) : (s.setFlights h l).host = s.host := rfl
@[simp] theorem State.link_setFlights (s : State) (h : Nat) (l : List Flight) : (s.setFlights h l).link = s.link := rfl
@[simp] theorem State.wts_setFlights (s : State) (h : Nat) (l : List Flight) : (s.setFlights h l).wts = s.wts := rfl
@[simp] theorem State.jr_setFlights (s : State) (h : Nat) (l : List Flight) : (s.setFlights h l).jr = s.jr := rfl
@[simp] theorem State.boot_setFlights (s : State) (h : Nat) (l : List Flight) : (s.setFlights h l).boot = s.boot := rfl
@[simp] theorem State.rd_setFlights (s : State) (h : Nat) (l : List Flight) (f' : Fld) (i' : Nat) (w' : Win) :
    (s.setFlights h l).rd f' i' w' = s.rd f' i' w' :=
  State.rd_congr (State.regs_setFlights ..) f' i' w'
@[simp] theorem State.flag_setFlights (s : State) (h : Nat) (l : List Flight) (f' : Fld) (i' : Nat) (w' : Win) :
    (s.setFlights h l).flag f' i' w' = s.flag f' i' w' :=
  State.flag_congr (State.regs_setFlights ..) f' i' w'

@[simp] theorem State.stew_budgetWrite (s : State) (t word v : Nat) :
    (s.budgetWrite t word v).stew = { s.stew with budgetWrites := s.stew.budgetWrites ++ [(t, word, v)] } :=
  rfl
@[simp] theorem State.pending_budgetWrite (s : State) (t word v : Nat) : (s.budgetWrite t word v).pending = s.pending := rfl
@[simp] theorem State.now_budgetWrite (s : State) (t word v : Nat) : (s.budgetWrite t word v).now = s.now := rfl
@[simp] theorem State.out_budgetWrite (s : State) (t word v : Nat) : (s.budgetWrite t word v).out = s.out := rfl
@[simp] theorem State.fresh_budgetWrite (s : State) (t word v : Nat) : (s.budgetWrite t word v).fresh = s.fresh := rfl
@[simp] theorem State.regs_budgetWrite (s : State) (t word v : Nat) : (s.budgetWrite t word v).regs = s.regs := rfl
@[simp] theorem State.latches_budgetWrite (s : State) (t word v : Nat) : (s.budgetWrite t word v).latches = s.latches := rfl
@[simp] theorem State.fuses_budgetWrite (s : State) (t word v : Nat) : (s.budgetWrite t word v).fuses = s.fuses := rfl
@[simp] theorem State.arr_budgetWrite (s : State) (t word v : Nat) : (s.budgetWrite t word v).arr = s.arr := rfl
@[simp] theorem State.strm_budgetWrite (s : State) (t word v : Nat) : (s.budgetWrite t word v).strm = s.strm := rfl
@[simp] theorem State.mas_budgetWrite (s : State) (t word v : Nat) : (s.budgetWrite t word v).mas = s.mas := rfl
@[simp] theorem State.err_budgetWrite (s : State) (t word v : Nat) : (s.budgetWrite t word v).err = s.err := rfl
@[simp] theorem State.host_budgetWrite (s : State) (t word v : Nat) : (s.budgetWrite t word v).host = s.host := rfl
@[simp] theorem State.link_budgetWrite (s : State) (t word v : Nat) : (s.budgetWrite t word v).link = s.link := rfl
@[simp] theorem State.wts_budgetWrite (s : State) (t word v : Nat) : (s.budgetWrite t word v).wts = s.wts := rfl
@[simp] theorem State.jr_budgetWrite (s : State) (t word v : Nat) : (s.budgetWrite t word v).jr = s.jr := rfl
@[simp] theorem State.boot_budgetWrite (s : State) (t word v : Nat) : (s.budgetWrite t word v).boot = s.boot := rfl
@[simp] theorem State.rd_budgetWrite (s : State) (t word v : Nat) (f' : Fld) (i' : Nat) (w' : Win) :
    (s.budgetWrite t word v).rd f' i' w' = s.rd f' i' w' :=
  State.rd_congr (State.regs_budgetWrite ..) f' i' w'
@[simp] theorem State.flag_budgetWrite (s : State) (t word v : Nat) (f' : Fld) (i' : Nat) (w' : Win) :
    (s.budgetWrite t word v).flag f' i' w' = s.flag f' i' w' :=
  State.flag_congr (State.regs_budgetWrite ..) f' i' w'

@[simp] theorem State.jr_setTk (s : State) (t : TkReq) :
    (s.setTk t).jr = { s.jr with table := SMap.insert s.jr.table (tkKey t.origin t.slot) t } :=
  rfl
@[simp] theorem State.pending_setTk (s : State) (t : TkReq) : (s.setTk t).pending = s.pending := rfl
@[simp] theorem State.now_setTk (s : State) (t : TkReq) : (s.setTk t).now = s.now := rfl
@[simp] theorem State.out_setTk (s : State) (t : TkReq) : (s.setTk t).out = s.out := rfl
@[simp] theorem State.fresh_setTk (s : State) (t : TkReq) : (s.setTk t).fresh = s.fresh := rfl
@[simp] theorem State.regs_setTk (s : State) (t : TkReq) : (s.setTk t).regs = s.regs := rfl
@[simp] theorem State.latches_setTk (s : State) (t : TkReq) : (s.setTk t).latches = s.latches := rfl
@[simp] theorem State.fuses_setTk (s : State) (t : TkReq) : (s.setTk t).fuses = s.fuses := rfl
@[simp] theorem State.arr_setTk (s : State) (t : TkReq) : (s.setTk t).arr = s.arr := rfl
@[simp] theorem State.strm_setTk (s : State) (t : TkReq) : (s.setTk t).strm = s.strm := rfl
@[simp] theorem State.mas_setTk (s : State) (t : TkReq) : (s.setTk t).mas = s.mas := rfl
@[simp] theorem State.err_setTk (s : State) (t : TkReq) : (s.setTk t).err = s.err := rfl
@[simp] theorem State.host_setTk (s : State) (t : TkReq) : (s.setTk t).host = s.host := rfl
@[simp] theorem State.link_setTk (s : State) (t : TkReq) : (s.setTk t).link = s.link := rfl
@[simp] theorem State.wts_setTk (s : State) (t : TkReq) : (s.setTk t).wts = s.wts := rfl
@[simp] theorem State.stew_setTk (s : State) (t : TkReq) : (s.setTk t).stew = s.stew := rfl
@[simp] theorem State.boot_setTk (s : State) (t : TkReq) : (s.setTk t).boot = s.boot := rfl
@[simp] theorem State.rd_setTk (s : State) (t : TkReq) (f' : Fld) (i' : Nat) (w' : Win) : (s.setTk t).rd f' i' w' = s.rd f' i' w' :=
  State.rd_congr (State.regs_setTk ..) f' i' w'
@[simp] theorem State.flag_setTk (s : State) (t : TkReq) (f' : Fld) (i' : Nat) (w' : Win) : (s.setTk t).flag f' i' w' = s.flag f' i' w' :=
  State.flag_congr (State.regs_setTk ..) f' i' w'

@[simp] theorem State.pending_setSpan (s : State) (r : Reg) (i : Nat) (w : Win) (k v n : Nat) :
    (s.setSpan r i w k v n).pending = s.pending :=
  by rw [State.setSpan_regs_only]
@[simp] theorem State.now_setSpan (s : State) (r : Reg) (i : Nat) (w : Win) (k v n : Nat) : (s.setSpan r i w k v n).now = s.now :=
  by rw [State.setSpan_regs_only]
@[simp] theorem State.out_setSpan (s : State) (r : Reg) (i : Nat) (w : Win) (k v n : Nat) : (s.setSpan r i w k v n).out = s.out :=
  by rw [State.setSpan_regs_only]
@[simp] theorem State.fresh_setSpan (s : State) (r : Reg) (i : Nat) (w : Win) (k v n : Nat) : (s.setSpan r i w k v n).fresh = s.fresh :=
  by rw [State.setSpan_regs_only]
@[simp] theorem State.latches_setSpan (s : State) (r : Reg) (i : Nat) (w : Win) (k v n : Nat) :
    (s.setSpan r i w k v n).latches = s.latches :=
  by rw [State.setSpan_regs_only]
@[simp] theorem State.fuses_setSpan (s : State) (r : Reg) (i : Nat) (w : Win) (k v n : Nat) : (s.setSpan r i w k v n).fuses = s.fuses :=
  by rw [State.setSpan_regs_only]
@[simp] theorem State.arr_setSpan (s : State) (r : Reg) (i : Nat) (w : Win) (k v n : Nat) : (s.setSpan r i w k v n).arr = s.arr :=
  by rw [State.setSpan_regs_only]
@[simp] theorem State.strm_setSpan (s : State) (r : Reg) (i : Nat) (w : Win) (k v n : Nat) : (s.setSpan r i w k v n).strm = s.strm :=
  by rw [State.setSpan_regs_only]
@[simp] theorem State.mas_setSpan (s : State) (r : Reg) (i : Nat) (w : Win) (k v n : Nat) : (s.setSpan r i w k v n).mas = s.mas :=
  by rw [State.setSpan_regs_only]
@[simp] theorem State.err_setSpan (s : State) (r : Reg) (i : Nat) (w : Win) (k v n : Nat) : (s.setSpan r i w k v n).err = s.err :=
  by rw [State.setSpan_regs_only]
@[simp] theorem State.host_setSpan (s : State) (r : Reg) (i : Nat) (w : Win) (k v n : Nat) : (s.setSpan r i w k v n).host = s.host :=
  by rw [State.setSpan_regs_only]
@[simp] theorem State.link_setSpan (s : State) (r : Reg) (i : Nat) (w : Win) (k v n : Nat) : (s.setSpan r i w k v n).link = s.link :=
  by rw [State.setSpan_regs_only]
@[simp] theorem State.wts_setSpan (s : State) (r : Reg) (i : Nat) (w : Win) (k v n : Nat) : (s.setSpan r i w k v n).wts = s.wts :=
  by rw [State.setSpan_regs_only]
@[simp] theorem State.stew_setSpan (s : State) (r : Reg) (i : Nat) (w : Win) (k v n : Nat) : (s.setSpan r i w k v n).stew = s.stew :=
  by rw [State.setSpan_regs_only]
@[simp] theorem State.jr_setSpan (s : State) (r : Reg) (i : Nat) (w : Win) (k v n : Nat) : (s.setSpan r i w k v n).jr = s.jr :=
  by rw [State.setSpan_regs_only]
@[simp] theorem State.boot_setSpan (s : State) (r : Reg) (i : Nat) (w : Win) (k v n : Nat) : (s.setSpan r i w k v n).boot = s.boot :=
  by rw [State.setSpan_regs_only]

@[simp] theorem State.pending_wr (s : State) (f : Fld) (v i : Nat) (w : Win) : (s.wr f v i w).pending = s.pending :=
  by rw [State.wr_regs_only]
@[simp] theorem State.now_wr (s : State) (f : Fld) (v i : Nat) (w : Win) : (s.wr f v i w).now = s.now := by rw [State.wr_regs_only]
@[simp] theorem State.out_wr (s : State) (f : Fld) (v i : Nat) (w : Win) : (s.wr f v i w).out = s.out := by rw [State.wr_regs_only]
@[simp] theorem State.fresh_wr (s : State) (f : Fld) (v i : Nat) (w : Win) : (s.wr f v i w).fresh = s.fresh := by rw [State.wr_regs_only]
@[simp] theorem State.latches_wr (s : State) (f : Fld) (v i : Nat) (w : Win) : (s.wr f v i w).latches = s.latches :=
  by rw [State.wr_regs_only]
@[simp] theorem State.fuses_wr (s : State) (f : Fld) (v i : Nat) (w : Win) : (s.wr f v i w).fuses = s.fuses := by rw [State.wr_regs_only]
@[simp] theorem State.arr_wr (s : State) (f : Fld) (v i : Nat) (w : Win) : (s.wr f v i w).arr = s.arr := by rw [State.wr_regs_only]
@[simp] theorem State.strm_wr (s : State) (f : Fld) (v i : Nat) (w : Win) : (s.wr f v i w).strm = s.strm := by rw [State.wr_regs_only]
@[simp] theorem State.mas_wr (s : State) (f : Fld) (v i : Nat) (w : Win) : (s.wr f v i w).mas = s.mas := by rw [State.wr_regs_only]
@[simp] theorem State.err_wr (s : State) (f : Fld) (v i : Nat) (w : Win) : (s.wr f v i w).err = s.err := by rw [State.wr_regs_only]
@[simp] theorem State.host_wr (s : State) (f : Fld) (v i : Nat) (w : Win) : (s.wr f v i w).host = s.host := by rw [State.wr_regs_only]
@[simp] theorem State.link_wr (s : State) (f : Fld) (v i : Nat) (w : Win) : (s.wr f v i w).link = s.link := by rw [State.wr_regs_only]
@[simp] theorem State.wts_wr (s : State) (f : Fld) (v i : Nat) (w : Win) : (s.wr f v i w).wts = s.wts := by rw [State.wr_regs_only]
@[simp] theorem State.stew_wr (s : State) (f : Fld) (v i : Nat) (w : Win) : (s.wr f v i w).stew = s.stew := by rw [State.wr_regs_only]
@[simp] theorem State.jr_wr (s : State) (f : Fld) (v i : Nat) (w : Win) : (s.wr f v i w).jr = s.jr := by rw [State.wr_regs_only]
@[simp] theorem State.boot_wr (s : State) (f : Fld) (v i : Nat) (w : Win) : (s.wr f v i w).boot = s.boot := by rw [State.wr_regs_only]

@[simp] theorem State.pending_wrFlag (s : State) (f : Fld) (b : Bool) (i : Nat) (w : Win) : (s.wrFlag f b i w).pending = s.pending :=
  State.pending_wr _ _ _ _ _
@[simp] theorem State.now_wrFlag (s : State) (f : Fld) (b : Bool) (i : Nat) (w : Win) : (s.wrFlag f b i w).now = s.now :=
  State.now_wr _ _ _ _ _
@[simp] theorem State.out_wrFlag (s : State) (f : Fld) (b : Bool) (i : Nat) (w : Win) : (s.wrFlag f b i w).out = s.out :=
  State.out_wr _ _ _ _ _
@[simp] theorem State.fresh_wrFlag (s : State) (f : Fld) (b : Bool) (i : Nat) (w : Win) : (s.wrFlag f b i w).fresh = s.fresh :=
  State.fresh_wr _ _ _ _ _
@[simp] theorem State.latches_wrFlag (s : State) (f : Fld) (b : Bool) (i : Nat) (w : Win) : (s.wrFlag f b i w).latches = s.latches :=
  State.latches_wr _ _ _ _ _
@[simp] theorem State.fuses_wrFlag (s : State) (f : Fld) (b : Bool) (i : Nat) (w : Win) : (s.wrFlag f b i w).fuses = s.fuses :=
  State.fuses_wr _ _ _ _ _
@[simp] theorem State.arr_wrFlag (s : State) (f : Fld) (b : Bool) (i : Nat) (w : Win) : (s.wrFlag f b i w).arr = s.arr :=
  State.arr_wr _ _ _ _ _
@[simp] theorem State.strm_wrFlag (s : State) (f : Fld) (b : Bool) (i : Nat) (w : Win) : (s.wrFlag f b i w).strm = s.strm :=
  State.strm_wr _ _ _ _ _
@[simp] theorem State.mas_wrFlag (s : State) (f : Fld) (b : Bool) (i : Nat) (w : Win) : (s.wrFlag f b i w).mas = s.mas :=
  State.mas_wr _ _ _ _ _
@[simp] theorem State.err_wrFlag (s : State) (f : Fld) (b : Bool) (i : Nat) (w : Win) : (s.wrFlag f b i w).err = s.err :=
  State.err_wr _ _ _ _ _
@[simp] theorem State.host_wrFlag (s : State) (f : Fld) (b : Bool) (i : Nat) (w : Win) : (s.wrFlag f b i w).host = s.host :=
  State.host_wr _ _ _ _ _
@[simp] theorem State.link_wrFlag (s : State) (f : Fld) (b : Bool) (i : Nat) (w : Win) : (s.wrFlag f b i w).link = s.link :=
  State.link_wr _ _ _ _ _
@[simp] theorem State.wts_wrFlag (s : State) (f : Fld) (b : Bool) (i : Nat) (w : Win) : (s.wrFlag f b i w).wts = s.wts :=
  State.wts_wr _ _ _ _ _
@[simp] theorem State.stew_wrFlag (s : State) (f : Fld) (b : Bool) (i : Nat) (w : Win) : (s.wrFlag f b i w).stew = s.stew :=
  State.stew_wr _ _ _ _ _
@[simp] theorem State.jr_wrFlag (s : State) (f : Fld) (b : Bool) (i : Nat) (w : Win) : (s.wrFlag f b i w).jr = s.jr := State.jr_wr _ _ _ _ _
@[simp] theorem State.boot_wrFlag (s : State) (f : Fld) (b : Bool) (i : Nat) (w : Win) : (s.wrFlag f b i w).boot = s.boot :=
  State.boot_wr _ _ _ _ _

@[simp] theorem State.pending_bump (s : State) (f : Fld) (n i : Nat) (w : Win) : (s.bump f n i w).pending = s.pending :=
  State.pending_wr _ _ _ _ _
@[simp] theorem State.now_bump (s : State) (f : Fld) (n i : Nat) (w : Win) : (s.bump f n i w).now = s.now := State.now_wr _ _ _ _ _
@[simp] theorem State.out_bump (s : State) (f : Fld) (n i : Nat) (w : Win) : (s.bump f n i w).out = s.out := State.out_wr _ _ _ _ _
@[simp] theorem State.fresh_bump (s : State) (f : Fld) (n i : Nat) (w : Win) : (s.bump f n i w).fresh = s.fresh := State.fresh_wr _ _ _ _ _
@[simp] theorem State.latches_bump (s : State) (f : Fld) (n i : Nat) (w : Win) : (s.bump f n i w).latches = s.latches :=
  State.latches_wr _ _ _ _ _
@[simp] theorem State.fuses_bump (s : State) (f : Fld) (n i : Nat) (w : Win) : (s.bump f n i w).fuses = s.fuses := State.fuses_wr _ _ _ _ _
@[simp] theorem State.arr_bump (s : State) (f : Fld) (n i : Nat) (w : Win) : (s.bump f n i w).arr = s.arr := State.arr_wr _ _ _ _ _
@[simp] theorem State.strm_bump (s : State) (f : Fld) (n i : Nat) (w : Win) : (s.bump f n i w).strm = s.strm := State.strm_wr _ _ _ _ _
@[simp] theorem State.mas_bump (s : State) (f : Fld) (n i : Nat) (w : Win) : (s.bump f n i w).mas = s.mas := State.mas_wr _ _ _ _ _
@[simp] theorem State.err_bump (s : State) (f : Fld) (n i : Nat) (w : Win) : (s.bump f n i w).err = s.err := State.err_wr _ _ _ _ _
@[simp] theorem State.host_bump (s : State) (f : Fld) (n i : Nat) (w : Win) : (s.bump f n i w).host = s.host := State.host_wr _ _ _ _ _
@[simp] theorem State.link_bump (s : State) (f : Fld) (n i : Nat) (w : Win) : (s.bump f n i w).link = s.link := State.link_wr _ _ _ _ _
@[simp] theorem State.wts_bump (s : State) (f : Fld) (n i : Nat) (w : Win) : (s.bump f n i w).wts = s.wts := State.wts_wr _ _ _ _ _
@[simp] theorem State.stew_bump (s : State) (f : Fld) (n i : Nat) (w : Win) : (s.bump f n i w).stew = s.stew := State.stew_wr _ _ _ _ _
@[simp] theorem State.jr_bump (s : State) (f : Fld) (n i : Nat) (w : Win) : (s.bump f n i w).jr = s.jr := State.jr_wr _ _ _ _ _
@[simp] theorem State.boot_bump (s : State) (f : Fld) (n i : Nat) (w : Win) : (s.bump f n i w).boot = s.boot := State.boot_wr _ _ _ _ _

@[simp] theorem State.pending_bumpSat (s : State) (f : Fld) (i : Nat) (w : Win) : (s.bumpSat f i w).pending = s.pending :=
  State.pending_wr _ _ _ _ _
@[simp] theorem State.now_bumpSat (s : State) (f : Fld) (i : Nat) (w : Win) : (s.bumpSat f i w).now = s.now := State.now_wr _ _ _ _ _
@[simp] theorem State.out_bumpSat (s : State) (f : Fld) (i : Nat) (w : Win) : (s.bumpSat f i w).out = s.out := State.out_wr _ _ _ _ _
@[simp] theorem State.fresh_bumpSat (s : State) (f : Fld) (i : Nat) (w : Win) : (s.bumpSat f i w).fresh = s.fresh :=
  State.fresh_wr _ _ _ _ _
@[simp] theorem State.latches_bumpSat (s : State) (f : Fld) (i : Nat) (w : Win) : (s.bumpSat f i w).latches = s.latches :=
  State.latches_wr _ _ _ _ _
@[simp] theorem State.fuses_bumpSat (s : State) (f : Fld) (i : Nat) (w : Win) : (s.bumpSat f i w).fuses = s.fuses :=
  State.fuses_wr _ _ _ _ _
@[simp] theorem State.arr_bumpSat (s : State) (f : Fld) (i : Nat) (w : Win) : (s.bumpSat f i w).arr = s.arr := State.arr_wr _ _ _ _ _
@[simp] theorem State.strm_bumpSat (s : State) (f : Fld) (i : Nat) (w : Win) : (s.bumpSat f i w).strm = s.strm := State.strm_wr _ _ _ _ _
@[simp] theorem State.mas_bumpSat (s : State) (f : Fld) (i : Nat) (w : Win) : (s.bumpSat f i w).mas = s.mas := State.mas_wr _ _ _ _ _
@[simp] theorem State.err_bumpSat (s : State) (f : Fld) (i : Nat) (w : Win) : (s.bumpSat f i w).err = s.err := State.err_wr _ _ _ _ _
@[simp] theorem State.host_bumpSat (s : State) (f : Fld) (i : Nat) (w : Win) : (s.bumpSat f i w).host = s.host := State.host_wr _ _ _ _ _
@[simp] theorem State.link_bumpSat (s : State) (f : Fld) (i : Nat) (w : Win) : (s.bumpSat f i w).link = s.link := State.link_wr _ _ _ _ _
@[simp] theorem State.wts_bumpSat (s : State) (f : Fld) (i : Nat) (w : Win) : (s.bumpSat f i w).wts = s.wts := State.wts_wr _ _ _ _ _
@[simp] theorem State.stew_bumpSat (s : State) (f : Fld) (i : Nat) (w : Win) : (s.bumpSat f i w).stew = s.stew := State.stew_wr _ _ _ _ _
@[simp] theorem State.jr_bumpSat (s : State) (f : Fld) (i : Nat) (w : Win) : (s.bumpSat f i w).jr = s.jr := State.jr_wr _ _ _ _ _
@[simp] theorem State.boot_bumpSat (s : State) (f : Fld) (i : Nat) (w : Win) : (s.bumpSat f i w).boot = s.boot := State.boot_wr _ _ _ _ _

@[simp] theorem State.pending_orBits (s : State) (f : Fld) (v i : Nat) (w : Win) : (s.orBits f v i w).pending = s.pending :=
  State.pending_wr _ _ _ _ _
@[simp] theorem State.now_orBits (s : State) (f : Fld) (v i : Nat) (w : Win) : (s.orBits f v i w).now = s.now := State.now_wr _ _ _ _ _
@[simp] theorem State.out_orBits (s : State) (f : Fld) (v i : Nat) (w : Win) : (s.orBits f v i w).out = s.out := State.out_wr _ _ _ _ _
@[simp] theorem State.fresh_orBits (s : State) (f : Fld) (v i : Nat) (w : Win) : (s.orBits f v i w).fresh = s.fresh :=
  State.fresh_wr _ _ _ _ _
@[simp] theorem State.latches_orBits (s : State) (f : Fld) (v i : Nat) (w : Win) : (s.orBits f v i w).latches = s.latches :=
  State.latches_wr _ _ _ _ _
@[simp] theorem State.fuses_orBits (s : State) (f : Fld) (v i : Nat) (w : Win) : (s.orBits f v i w).fuses = s.fuses :=
  State.fuses_wr _ _ _ _ _
@[simp] theorem State.arr_orBits (s : State) (f : Fld) (v i : Nat) (w : Win) : (s.orBits f v i w).arr = s.arr := State.arr_wr _ _ _ _ _
@[simp] theorem State.strm_orBits (s : State) (f : Fld) (v i : Nat) (w : Win) : (s.orBits f v i w).strm = s.strm := State.strm_wr _ _ _ _ _
@[simp] theorem State.mas_orBits (s : State) (f : Fld) (v i : Nat) (w : Win) : (s.orBits f v i w).mas = s.mas := State.mas_wr _ _ _ _ _
@[simp] theorem State.err_orBits (s : State) (f : Fld) (v i : Nat) (w : Win) : (s.orBits f v i w).err = s.err := State.err_wr _ _ _ _ _
@[simp] theorem State.host_orBits (s : State) (f : Fld) (v i : Nat) (w : Win) : (s.orBits f v i w).host = s.host := State.host_wr _ _ _ _ _
@[simp] theorem State.link_orBits (s : State) (f : Fld) (v i : Nat) (w : Win) : (s.orBits f v i w).link = s.link := State.link_wr _ _ _ _ _
@[simp] theorem State.wts_orBits (s : State) (f : Fld) (v i : Nat) (w : Win) : (s.orBits f v i w).wts = s.wts := State.wts_wr _ _ _ _ _
@[simp] theorem State.stew_orBits (s : State) (f : Fld) (v i : Nat) (w : Win) : (s.orBits f v i w).stew = s.stew := State.stew_wr _ _ _ _ _
@[simp] theorem State.jr_orBits (s : State) (f : Fld) (v i : Nat) (w : Win) : (s.orBits f v i w).jr = s.jr := State.jr_wr _ _ _ _ _
@[simp] theorem State.boot_orBits (s : State) (f : Fld) (v i : Nat) (w : Win) : (s.orBits f v i w).boot = s.boot := State.boot_wr _ _ _ _ _

@[simp] theorem State.pending_setSlotState (s : State) (die c : Nat) (st : SlotSt) : (s.setSlotState die c st).pending = s.pending :=
  State.pending_wr _ _ _ _ _
@[simp] theorem State.now_setSlotState (s : State) (die c : Nat) (st : SlotSt) : (s.setSlotState die c st).now = s.now :=
  State.now_wr _ _ _ _ _
@[simp] theorem State.out_setSlotState (s : State) (die c : Nat) (st : SlotSt) : (s.setSlotState die c st).out = s.out :=
  State.out_wr _ _ _ _ _
@[simp] theorem State.fresh_setSlotState (s : State) (die c : Nat) (st : SlotSt) : (s.setSlotState die c st).fresh = s.fresh :=
  State.fresh_wr _ _ _ _ _
@[simp] theorem State.latches_setSlotState (s : State) (die c : Nat) (st : SlotSt) : (s.setSlotState die c st).latches = s.latches :=
  State.latches_wr _ _ _ _ _
@[simp] theorem State.fuses_setSlotState (s : State) (die c : Nat) (st : SlotSt) : (s.setSlotState die c st).fuses = s.fuses :=
  State.fuses_wr _ _ _ _ _
@[simp] theorem State.arr_setSlotState (s : State) (die c : Nat) (st : SlotSt) : (s.setSlotState die c st).arr = s.arr :=
  State.arr_wr _ _ _ _ _
@[simp] theorem State.strm_setSlotState (s : State) (die c : Nat) (st : SlotSt) : (s.setSlotState die c st).strm = s.strm :=
  State.strm_wr _ _ _ _ _
@[simp] theorem State.mas_setSlotState (s : State) (die c : Nat) (st : SlotSt) : (s.setSlotState die c st).mas = s.mas :=
  State.mas_wr _ _ _ _ _
@[simp] theorem State.err_setSlotState (s : State) (die c : Nat) (st : SlotSt) : (s.setSlotState die c st).err = s.err :=
  State.err_wr _ _ _ _ _
@[simp] theorem State.host_setSlotState (s : State) (die c : Nat) (st : SlotSt) : (s.setSlotState die c st).host = s.host :=
  State.host_wr _ _ _ _ _
@[simp] theorem State.link_setSlotState (s : State) (die c : Nat) (st : SlotSt) : (s.setSlotState die c st).link = s.link :=
  State.link_wr _ _ _ _ _
@[simp] theorem State.wts_setSlotState (s : State) (die c : Nat) (st : SlotSt) : (s.setSlotState die c st).wts = s.wts :=
  State.wts_wr _ _ _ _ _
@[simp] theorem State.stew_setSlotState (s : State) (die c : Nat) (st : SlotSt) : (s.setSlotState die c st).stew = s.stew :=
  State.stew_wr _ _ _ _ _
@[simp] theorem State.jr_setSlotState (s : State) (die c : Nat) (st : SlotSt) : (s.setSlotState die c st).jr = s.jr := State.jr_wr _ _ _ _ _
@[simp] theorem State.boot_setSlotState (s : State) (die c : Nat) (st : SlotSt) : (s.setSlotState die c st).boot = s.boot :=
  State.boot_wr _ _ _ _ _

@[simp] theorem State.pending_setJState (s : State) (v : Nat) : (s.setJState v).pending = s.pending := State.pending_wr _ _ _ _ _
@[simp] theorem State.now_setJState (s : State) (v : Nat) : (s.setJState v).now = s.now := State.now_wr _ _ _ _ _
@[simp] theorem State.out_setJState (s : State) (v : Nat) : (s.setJState v).out = s.out := State.out_wr _ _ _ _ _
@[simp] theorem State.fresh_setJState (s : State) (v : Nat) : (s.setJState v).fresh = s.fresh := State.fresh_wr _ _ _ _ _
@[simp] theorem State.latches_setJState (s : State) (v : Nat) : (s.setJState v).latches = s.latches := State.latches_wr _ _ _ _ _
@[simp] theorem State.fuses_setJState (s : State) (v : Nat) : (s.setJState v).fuses = s.fuses := State.fuses_wr _ _ _ _ _
@[simp] theorem State.arr_setJState (s : State) (v : Nat) : (s.setJState v).arr = s.arr := State.arr_wr _ _ _ _ _
@[simp] theorem State.strm_setJState (s : State) (v : Nat) : (s.setJState v).strm = s.strm := State.strm_wr _ _ _ _ _
@[simp] theorem State.mas_setJState (s : State) (v : Nat) : (s.setJState v).mas = s.mas := State.mas_wr _ _ _ _ _
@[simp] theorem State.err_setJState (s : State) (v : Nat) : (s.setJState v).err = s.err := State.err_wr _ _ _ _ _
@[simp] theorem State.host_setJState (s : State) (v : Nat) : (s.setJState v).host = s.host := State.host_wr _ _ _ _ _
@[simp] theorem State.link_setJState (s : State) (v : Nat) : (s.setJState v).link = s.link := State.link_wr _ _ _ _ _
@[simp] theorem State.wts_setJState (s : State) (v : Nat) : (s.setJState v).wts = s.wts := State.wts_wr _ _ _ _ _
@[simp] theorem State.stew_setJState (s : State) (v : Nat) : (s.setJState v).stew = s.stew := State.stew_wr _ _ _ _ _
@[simp] theorem State.jr_setJState (s : State) (v : Nat) : (s.setJState v).jr = s.jr := State.jr_wr _ _ _ _ _
@[simp] theorem State.boot_setJState (s : State) (v : Nat) : (s.setJState v).boot = s.boot := State.boot_wr _ _ _ _ _

end Sys2Proof.Machine
end

