-- ==== Sys2Proof/Laws/Frames.lean ====
section
/-!
SUPPORT. What the shared operations can change: sending a message touches the links, an event the sessions, a detection the error
records, a journal record the journal; and nothing else.
-/
namespace Sys2Proof.Machine

/-! ## Folds -/

/-- A fold of operations that each keep a transitive relation keeps it. -/
theorem State.foldl_keeps {β : Type} (R : State → State → Prop) (hr : ∀ s, R s s) (ht : ∀ s t u, R s t → R t u → R s u)
    (f : State → β → State) (h : ∀ t b, R t (f t b)) (l : List β) (s : State) : R s (l.foldl f s) := by
  induction l generalizing s with
  | nil => exact hr s
  | cons b l ih => exact ht _ _ _ (h s b) (ih _)

/-! ## Links -/

/-- From `s` to `t` only registers, the links and the outbox have changed. -/
def State.onlyLinks (s t : State) : Prop := t = { s with regs := t.regs, link := t.link, out := t.out }
theorem State.onlyLinks_refl (s : State) : s.onlyLinks s := rfl
theorem State.onlyLinks_trans (s t u : State) (h : s.onlyLinks t) (k : t.onlyLinks u) : s.onlyLinks u := by
  unfold State.onlyLinks at *
  rw [k, h]
theorem State.onlyLinks_wr (s : State) (f : Fld) (v i : Nat) (w : Win) : s.onlyLinks (s.wr f v i w) := by
  unfold State.onlyLinks
  rw [State.wr_regs_only]
theorem State.onlyLinks_foldl {β : Type} (f : State → β → State) (h : ∀ (t : State) b, t.onlyLinks (f t b)) (l : List β) (s : State) :
    s.onlyLinks (l.foldl f s) := State.foldl_keeps _ State.onlyLinks_refl State.onlyLinks_trans f h l s

theorem State.onlyLinks_sendOne (s t : State) (p : Nat) (h : s.sendOne p = some t) : s.onlyLinks t := by
  unfold State.sendOne at h
  dsimp only at h
  split at h
  · split at h
    · cases h
    · split at h
      · cases h
      · cases h
        exact State.onlyLinks_trans _ _ _ (State.onlyLinks_trans _ _ _ (show s.onlyLinks (s.setPort p _) from rfl)
          (State.onlyLinks_wr _ _ _ _ _)) rfl
  · cases h

theorem State.onlyLinks_pumpN (n : Nat) (s : State) (p : Nat) : s.onlyLinks (s.pumpN p n) := by
  induction n generalizing s with
  | zero => exact s.onlyLinks_refl
  | succ n ih =>
    unfold State.pumpN
    split
    · next s1 h => exact State.onlyLinks_trans _ _ _ (s.onlyLinks_sendOne s1 p h) (ih s1)
    · exact s.onlyLinks_refl

theorem State.onlyLinks_enqueue (s : State) (fs : List (Nat × Flit)) : s.onlyLinks (s.enqueue fs) := by
  unfold State.enqueue
  refine State.onlyLinks_trans _ _ _ (State.onlyLinks_foldl _ (fun t e => ?_) fs s) (State.onlyLinks_foldl _ (fun t p => ?_) _ _)
  · rfl
  · split
    · exact t.onlyLinks_pumpN _ p
    · exact t.onlyLinks_refl

theorem State.onlyLinks_spray (s : State) (dst vc : Nat) (bytes : List Byte) : s.onlyLinks (s.spray dst vc bytes) := by
  unfold State.spray
  refine State.onlyLinks_trans _ _ _ ?_ (State.onlyLinks_enqueue _ _)
  refine State.onlyLinks_trans _ _ _ ?_ rfl
  split <;> rfl

/-- R319 to R325: handing a message to the links changes only the links, their counts and the outbox. -/
theorem State.onlyLinks_sendMsg (s : State) (dst ty ref : Nat) (arg body : List Byte) : s.onlyLinks (s.sendMsg dst ty ref arg body) := by
  unfold State.sendMsg
  split
  · rfl
  · split
    · rfl
    · dsimp only
      split
      · rfl
      · exact State.onlyLinks_trans _ _ _ (show s.onlyLinks (s.emit _) from rfl) (State.onlyLinks_spray _ _ _ _)

/-! ## Events -/

/-- From `s` to `t` only the host protocol and the outbox have changed. -/
def State.onlyHost (s t : State) : Prop := t = { s with host := t.host, out := t.out }
theorem State.onlyHost_refl (s : State) : s.onlyHost s := rfl
theorem State.onlyHost_trans (s t u : State) (h : s.onlyHost t) (k : t.onlyHost u) : s.onlyHost u := by
  unfold State.onlyHost at *
  rw [k, h]
theorem State.onlyHost_foldl {β : Type} (f : State → β → State) (h : ∀ (t : State) b, t.onlyHost (f t b)) (l : List β) (s : State) :
    s.onlyHost (l.foldl f s) := State.foldl_keeps _ State.onlyHost_refl State.onlyHost_trans f h l s

theorem State.onlyHost_flushEvents (s : State) (i : Nat) : s.onlyHost (s.flushEvents i) := by
  unfold State.flushEvents
  split
  · rfl
  · next v _ =>
    split
    · dsimp only
      refine State.onlyHost_trans _ _ _ ?_ rfl
      generalize v.evSeq = a, v.evLost = b
      generalize v.events = es
      suffices h : ∀ g : State × Nat × Nat, s.onlyHost g.1 → s.onlyHost (es.foldl (fun (g : State × Nat × Nat) (e : Ev) =>
          (g.1.emit (.event (sessionVia v e.qp) (sessionField i v.gen) e.cls (g.2.1 + 1) (g.1.credits (sessionVia v e.qp))
            (g.2.2 % 65536 + 65536 * e.count) (packetTag v.keyMh (headerBytes 2 e.cls (sessionField i v.gen) 0 e.body.length
            (g.2.1 + 1) 0 (g.1.credits (sessionVia v e.qp)) (g.2.2 % 65536 + 65536 * e.count) 0) e.body) e.body),
            g.2.1 + 1, 0)) g).1 from h (s, a, b) rfl
      induction es with
      | nil => exact fun g h => h
      | cons e es ih => exact fun g h => ih _ (State.onlyHost_trans _ _ _ h rfl)
    · rfl

theorem State.onlyHost_sendEventOn (s : State) (i cls count : Nat) (qp : Option Nat) (body : List Byte) :
    s.onlyHost (s.sendEventOn i cls count qp body) := by
  unfold State.sendEventOn
  split
  · rfl
  · repeat' split
    all_goals first | rfl | exact State.onlyHost_trans _ _ _ (show s.onlyHost (s.setSession i _) from rfl) (State.onlyHost_flushEvents _ _)

/-- R299: an event to every session changes only the host protocol and the outbox. -/
theorem State.onlyHost_broadcast (s : State) (cls count : Nat) (body : List Byte) : s.onlyHost (s.broadcast cls count body) :=
  by
  unfold State.broadcast
  exact State.onlyHost_foldl _ (fun t _ => t.onlyHost_sendEventOn _ cls count none body) _ _

/-! ## Detections -/

/-- From `s` to `t` only registers, the error records, the host protocol, the outbox and the count of free values have changed. -/
def State.onlyErr (s t : State) : Prop := t = { s with regs := t.regs, err := t.err, host := t.host, out := t.out, fresh := t.fresh }
theorem State.onlyErr_refl (s : State) : s.onlyErr s := rfl
theorem State.onlyErr_trans (s t u : State) (h : s.onlyErr t) (k : t.onlyErr u) : s.onlyErr u := by
  unfold State.onlyErr at *
  rw [k, h]
theorem State.onlyErr_foldl {β : Type} (f : State → β → State) (h : ∀ (t : State) b, t.onlyErr (f t b)) (l : List β) (s : State) :
    s.onlyErr (l.foldl f s) := State.foldl_keeps _ State.onlyErr_refl State.onlyErr_trans f h l s
theorem State.onlyErr_wr (s : State) (f : Fld) (v i : Nat) (w : Win) : s.onlyErr (s.wr f v i w) := by
  unfold State.onlyErr
  rw [State.wr_regs_only]
theorem State.onlyErr_of_onlyHost {s t : State} (h : s.onlyHost t) : s.onlyErr t := by
  unfold State.onlyErr State.onlyHost at *
  rw [h]

theorem State.onlyErr_announce (s : State) (cls key : Nat) : s.onlyErr (s.announce cls key) := by
  unfold State.announce
  refine State.onlyErr_foldl _ (fun t e => ?_) _ _
  dsimp only
  split
  · refine State.onlyErr_trans _ _ _ ?_ rfl
    split
    · exact State.onlyErr_of_onlyHost (t.onlyHost_sendEventOn _ _ _ _ _)
    · rfl
  · split <;> rfl

theorem State.onlyErr_errStatus (s : State) (r : Nat) : s.onlyErr (s.errStatus r) :=
  State.onlyErr_trans _ _ _ (State.onlyErr_trans _ _ _ (State.onlyErr_wr _ _ _ _ _) (State.onlyErr_wr _ _ _ _ _))
    (State.onlyErr_wr _ _ _ _ _)

theorem State.onlyErr_placeErr (s : State) (d : ErrRec) : s.onlyErr (s.placeErr d) := by
  unfold State.placeErr
  dsimp only
  split
  · refine State.onlyErr_trans _ _ _ (State.onlyErr_trans _ _ _ (State.onlyErr_trans _ _ _ (State.onlyErr_trans _ _ _ ?_
      (State.onlyErr_wr _ _ _ _ _)) (State.onlyErr_wr _ _ _ _ _)) (State.onlyErr_errStatus _ _)) (State.onlyErr_announce _ _ _)
    rfl
  · split
    · split
      · refine State.onlyErr_trans _ _ _ (State.onlyErr_trans _ _ _ ?_ (State.onlyErr_wr _ _ _ _ _)) (State.onlyErr_announce _ _ _)
        rfl
      · rfl
    · refine State.onlyErr_trans _ _ _ (State.onlyErr_trans _ _ _ (State.onlyErr_trans _ _ _ (State.onlyErr_trans _ _ _ ?_
        (State.onlyErr_wr _ _ _ _ _)) (State.onlyErr_wr _ _ _ _ _)) (State.onlyErr_errStatus _ _)) (State.onlyErr_announce _ _ _)
      rfl

/-- R369, R380 to R383: a detection changes only its registers, the error records, the host protocol and the outbox. -/
theorem State.onlyErr_detect (s : State) (d : ErrRec) : s.onlyErr (s.detect d) := by
  unfold State.detect
  dsimp only
  refine State.onlyErr_trans _ _ _ ?_ (State.onlyErr_placeErr _ _)
  exact State.onlyErr_trans _ _ _ (State.onlyErr_wr _ _ _ _ _) rfl

/-! ## The journal -/

/-- From `s` to `t` only registers and the journal have changed. -/
def State.onlyJournal (s t : State) : Prop := t = { s with regs := t.regs, jr := t.jr }

/-- R338: a journal record changes only JOURNAL_JSN and the journal. -/
theorem State.onlyJournal_newRecordFor (s : State) (origin : Option Nat) (slot : Nat) (pay : JPay) :
    s.onlyJournal (s.newRecordFor origin slot pay) := by
  unfold State.onlyJournal State.newRecordFor
  dsimp only
  rw [State.wr_regs_only]
theorem State.onlyJournal_complete (s : State) (i seq status detail : Nat) : s.onlyJournal (s.complete i seq status detail) :=
  State.onlyJournal_newRecordFor ..
theorem State.jr_newRecord (s : State) (slot : Nat) (pay : JPay) : (s.newRecord slot pay).jr =
    { s.jr with queue := s.jr.queue ++ [{ jsn := s.rd F.JOURNAL_JSN_VALUE + 1, slot := slot, pay := pay, sent := none, origin := none }] } := by
  unfold State.newRecord State.newRecordFor
  dsimp only
  rw [State.jr_wr]

end Sys2Proof.Machine
end

