-- ==== Sys2Proof/Laws/Memory.lean ====
section
/-!
SUPPORT. Laws of the byte memories: every operation keeps their canonical form, a read after a write gives what was written, and a
write leaves every other byte and every other part of the state alone.
-/
namespace Sys2Proof.Machine

/-! ## Canonical form -/

theorem State.wf_setMasByte (s : State) (a : Nat) (b : Byte) (h : Memory.wf s.mas.mem = true) :
    Memory.wf (s.setMasByte a b).mas.mem = true := SMap.wfB_setD _ _ _ _ h

theorem State.wf_masWrite (bs : List Byte) (s : State) (a : Nat) (h : Memory.wf s.mas.mem = true) :
    Memory.wf (s.masWrite a bs).mas.mem = true := by
  induction bs generalizing s a with
  | nil => exact h
  | cons b bs ih => exact ih _ _ (s.wf_setMasByte a b h)

theorem State.wf_masZero (s : State) (a n : Nat) (h : Memory.wf s.mas.mem = true) :
    Memory.wf (s.masZero a n).mas.mem = true := by
  rw [State.mas_masZero]
  exact SMap.wfB_keep (0 : Byte) s.mas.mem (fun k _ => decide (k < a) || decide (a + n ≤ k)) h

theorem State.wf_setPageData (s : State) (pn : Nat) (d : Mem) (h : Memory.wf s.mas.mem = true) :
    Memory.wf (s.setPageData pn d).mas.mem = true := by
  unfold State.setPageData
  have h1 := s.wf_masZero (pn * pageBytes) pageBytes h
  generalize s.masZero (pn * pageBytes) pageBytes = t at h1
  induction d generalizing t with
  | nil => exact h1
  | cons e d ih => exact ih _ (t.wf_setMasByte _ _ h1)

theorem State.wf_setSramByte (s : State) (die y x off : Nat) (b : Byte) (h : Memory.wf s.arr.sram = true) :
    Memory.wf (s.setSramByte die y x off b).arr.sram = true := SMap.wfB_setD _ _ _ _ h

theorem State.wf_sramWrite (n : Nat) (s : State) (die y x off v : Nat) (h : Memory.wf s.arr.sram = true) :
    Memory.wf (s.sramWrite die y x off v n).arr.sram = true := by
  induction n generalizing s off v with
  | zero => exact h
  | succ n ih => exact ih _ _ _ (s.wf_setSramByte die y x off _ h)

theorem State.wf_sysWrite (bs : List Byte) (s : State) (a : Nat) (h : Memory.wf s.mas.sys = true) :
    Memory.wf (s.sysWrite a bs).mas.sys = true := by
  induction bs generalizing s a with
  | nil => exact h
  | cons b bs ih => exact ih _ _ (SMap.wfB_setD _ _ _ _ h)

/-! ## One byte -/

theorem State.masByte_setMasByte_self (s : State) (a : Nat) (b : Byte) : (s.setMasByte a b).masByte a = b :=
  SMap.getD_setD_self ..
theorem State.masByte_setMasByte_of_ne (s : State) (a c : Nat) (b : Byte) (h : c ≠ a) : (s.setMasByte a b).masByte c = s.masByte c :=
  SMap.getD_setD_of_ne _ _ _ h _

/-- A byte outside the bytes written keeps its value. -/
theorem State.masByte_masWrite_of_outside (bs : List Byte) (s : State) (a c : Nat) (h : c < a ∨ a + bs.length ≤ c) :
    (s.masWrite a bs).masByte c = s.masByte c := by
  induction bs generalizing s a with
  | nil => rfl
  | cons b bs ih =>
    rw [List.length_cons] at h
    rw [State.masWrite, ih _ _ (by omega), State.masByte_setMasByte_of_ne _ _ _ _ (by omega)]

/-- A byte written holds what was written. -/
theorem State.masByte_masWrite_of_inside (bs : List Byte) (s : State) (a k : Nat) (h : k < bs.length) :
    (s.masWrite a bs).masByte (a + k) = bs.getD k 0 := by
  induction bs generalizing s a k with
  | nil => exact absurd h (by simp)
  | cons b bs ih =>
    rw [State.masWrite]
    cases k with
    | zero => rw [State.masByte_masWrite_of_outside _ _ _ _ (by omega), Nat.add_zero, State.masByte_setMasByte_self]; rfl
    | succ k => rw [show a + (k + 1) = a + 1 + k by omega, ih _ _ _ (by simpa using h)]; rfl

theorem SMap.find?_keep {α : Type} (m : SMap α) (p : Nat → α → Bool) (q : Nat → Bool) (hp : ∀ k v, p k v = q k) (k : Nat) :
    SMap.find? (SMap.keep m p) k = if q k then SMap.find? m k else none := by
  induction m with
  | nil => simp [SMap.keep, SMap.find?]
  | cons e m ih =>
    unfold SMap.keep at *
    by_cases he : e.1 = k
    · subst he
      cases hq : q e.1 with
      | true => simp [hp, hq, SMap.find?]
      | false => rw [hq] at ih; simpa [List.filter_cons, hp, hq, SMap.find?] using ih
    · cases hq : q e.1 with
      | true => simpa [List.filter_cons, hp, hq, SMap.find?, he] using ih
      | false => simpa [List.filter_cons, hp, hq, SMap.find?, he] using ih

/-- R197: the bytes of a zeroed range read as zero, and every other byte as before. -/
theorem State.masByte_masZero (s : State) (a n c : Nat) :
    (s.masZero a n).masByte c = if a ≤ c ∧ c < a + n then 0 else s.masByte c := by
  unfold State.masByte SMap.getD State.masZero
  rw [SMap.find?_keep _ _ (fun k => decide (k < a) || decide (a + n ≤ k)) (fun _ _ => rfl)]
  by_cases h : a ≤ c ∧ c < a + n
  · rw [if_pos h, if_neg (by simp; omega)]; rfl
  · rw [if_neg h, if_pos (by simp; omega)]

/-! ## What else changes: nothing -/

theorem State.masWrite_mem_only (bs : List Byte) (s : State) (a : Nat) :
    s.masWrite a bs = { s with mas := { s.mas with mem := (s.masWrite a bs).mas.mem } } := by
  induction bs generalizing s a with
  | nil => rfl
  | cons b bs ih => rw [State.masWrite, ih]; rfl

theorem State.sysWrite_sys_only (bs : List Byte) (s : State) (a : Nat) :
    s.sysWrite a bs = { s with mas := { s.mas with sys := (s.sysWrite a bs).mas.sys } } := by
  induction bs generalizing s a with
  | nil => rfl
  | cons b bs ih => rw [State.sysWrite, ih]

theorem State.sramWrite_sram_only (n : Nat) (s : State) (die y x off v : Nat) :
    s.sramWrite die y x off v n = { s with arr := { s.arr with sram := (s.sramWrite die y x off v n).arr.sram } } := by
  induction n generalizing s off v with
  | zero => rfl
  | succ n ih => rw [State.sramWrite, ih]; rfl

end Sys2Proof.Machine
end

