-- ==== Sys2Proof/Laws/Scan.lean ====
section
/-!
SUPPORT. How long the byte strings of a scan image are (R104, R105).
-/
namespace Sys2Proof.Machine

/-- R105: how long the byte strings of a scan image are. -/
theorem length_toBytes (n k : Nat) : (toBytes n k).length = k := by
  induction k generalizing n with
  | zero => rfl
  | succ k ih => simp [toBytes, ih]
/-- A concatenation of pieces of at most, or of exactly, `b` bytes. -/
theorem length_flatMap_le {α : Type} (l : List α) (f : α → List Byte) (b : Nat) (h : ∀ a ∈ l, (f a).length ≤ b) :
    (l.flatMap f).length ≤ l.length * b := by
  induction l with
  | nil => simp
  | cons a l ih =>
    have h1 := h a (by simp)
    have h2 := ih (fun x hx => h x (by simp [hx]))
    rw [List.flatMap_cons, List.length_append, List.length_cons, Nat.succ_mul]; omega
theorem length_flatMap_eq {α : Type} (l : List α) (f : α → List Byte) (b : Nat) (h : ∀ a ∈ l, (f a).length = b) :
    (l.flatMap f).length = l.length * b := by
  induction l with
  | nil => simp
  | cons a l ih =>
    have h1 := h a (by simp)
    have h2 := ih (fun x hx => h x (by simp [hx]))
    rw [List.flatMap_cons, List.length_append, List.length_cons, Nat.succ_mul]; omega
theorem length_fixLen (n : Nat) (p : List Byte) : (fixLen n p).length = max n p.length := by
  simp only [fixLen, List.length_append, length_toBytes]; omega
theorem length_scanRec_le (ty id : Nat) (p : List Byte) : (scanRec ty id p).length ≤ p.length + 31 := by
  simp only [scanRec, List.length_append, length_toBytes]; omega

end Sys2Proof.Machine
end

