-- ==== Sys2Proof/Machine/Lands.lean ====
section
/-!
DEFINITION. The land grid array (R17, R463 to R467): the name of a site, and the row and column of each signal land.
-/
namespace Sys2Proof.Machine

/-- R17: the letters of row names, in order. -/
def landLetters : List String :=
  ["A", "B", "C", "D", "E", "F", "G", "H", "J", "K", "L", "M", "N", "P", "T", "U", "V", "W", "Y"]
/-- R17, R463: the name of row `n`, counted from 1: single letters, then pairs in the same order. -/
def landRow (n : Nat) : String :=
  let k := n - 1
  if k < 19 then landLetters.getD k "" else landLetters.getD (k / 19 - 1) "" ++ landLetters.getD (k % 19) ""
/-- R17: the name of a site. -/
def landName (site : Nat × Nat) : String := landRow site.1 ++ toString site.2
/-- R463: the sites of the array: row and column from 1. -/
def landSite (site : Nat × Nat) : Bool :=
  decide (1 ≤ site.1 ∧ site.1 ≤ 133) && decide (1 ≤ site.2 ∧ site.2 ≤ 114)

/-- The four conductors of a lane. -/
inductive LaneWire where
  | txP | txN | rxP | rxN
  deriving DecidableEq, Repr
/-- R465: columns of a lane from its first: TX, a gap, RX. -/
def laneCol : LaneWire → Nat
  | .txP => 0
  | .txN => 1
  | .rxP => 3
  | .rxN => 4
/-- R465: link port Lk, lane j. -/
def linkLand (k j : Nat) (w : LaneWire) : Nat × Nat :=
  (8 * (k % 16) + 1 + 2 * j, (if k < 16 then 2 else 109) + laneCol w)
/-- R465: host port Ep, lane j of 0 and 1. -/
def hostLand (p j : Nat) (w : LaneWire) : Nat × Nat := (129 + 2 * j, [2, 8, 103, 109].getD p 2 + laneCol w)
/-- R466: deep-tier lane l of root port p. -/
def deepLand (p l : Nat) : LaneWire → Nat × Nat
  | .txP => (8 * l + 1, 22 + 70 * p)
  | .txN => (8 * l + 1, 23 + 70 * p)
  | .rxP => (8 * l + 5, 22 + 70 * p)
  | .rxN => (8 * l + 5, 23 + 70 * p)
/-- R466: PERST_N number i of root port p. -/
def perstLand (p i : Nat) : Nat × Nat := (16 * i + 3, if p = 0 then 24 else 91)
/-- R466: the lanes and the PERST_N of link i at a width. -/
def deepLink (width i : Nat) : List Nat × Nat :=
  ((List.range width).map (fun l => width * i + l), width / 2 * i)

/-- R466: signals of a DDR5 subchannel: `nibble k s` is DQ s of nibble k, DQS_T for s = 4 and DQS_C for s = 5. -/
inductive DdrWire where
  | nibble (k s : Nat)
  | ca (n : Nat)
  | cs (n : Nat)
  | ck0T | ck0C | ck1T | ck1C
  | alertOrReset
  deriving DecidableEq, Repr
/-- R466: row within the subchannel and block column. -/
def ddrPlace : DdrWire → Nat × Nat
  | .nibble k s => (1 + k / 2, (if k % 2 = 0 then 1 else 8) + s)
  | .ca n => (6, 1 + n)
  | .cs n => (7, 1 + n)
  | .ck0T => (7, 6)
  | .ck0C => (7, 7)
  | .ck1T => (7, 9)
  | .ck1C => (7, 10)
  | .alertOrReset => (7, 12)
/-- R466: a signal of subchannel A (`b` false) or B of channel Dn. -/
def ddrLand (n : Nat) (b : Bool) (w : DdrWire) : Nat × Nat :=
  (16 * (n % 8) + (if b then 8 else 0) + (ddrPlace w).1, (if n < 8 then 7 else 93) + (ddrPlace w).2)

/-- R467: the sideband lands, all in row A, by signal. -/
def sidebandLands : List (String × Nat) :=
  [("REFCLK_P", 52), ("REFCLK_N", 53), ("CAPDROP_N", 55), ("PFW_N", 56), ("MOD_RST_N", 57), ("PRSNT_N", 58), ("FAULT_N", 59)] ++
  [("I3C_SCL", 61), ("I3C_SDA", 62), ("MGMT_TX_P", 64), ("MGMT_TX_N", 65), ("MGMT_RX_P", 66), ("MGMT_RX_N", 67)] ++
  [("TCK", 69), ("TMS", 70), ("TDI", 71), ("TDO", 72), ("TRST_N", 73)] ++
  [("DIMM_SCL0", 76), ("DIMM_SDA0", 77), ("DIMM_SCL1", 79), ("DIMM_SDA1", 80)]
def sidebandLand (name : String) : Option (Nat × Nat) := (sidebandLands.find? (fun e => e.1 == name)).map (fun e => (1, e.2))

end Sys2Proof.Machine
end

