-- ==== Sys2Proof/Tests/Slice0.lean ====
section
/-!
SUPPORT. Checks of the model's own reading of the spec: ill-formed commands that WellFormed refuses, worked examples of the
spec, and for every statement of Certificates/Slice0/Obligations.lean with hypotheses the concrete states and operands that
meet them, clause by clause (`test_meets_…`).
-/
namespace Sys2Proof.Tests
open Sys2Proof Sys2Proof.Machine
set_option Elab.async false
set_option linter.unusedVariables false

/-! ## WellFormed refuses each kind of ill-formed number -/

theorem test_wellFormed_takes : Instr.wellFormed (.mmac 3 23 23) = true := by decide
theorem test_wellFormed_die : Instr.wellFormed (.mmac 4 0 0) = false := by decide
theorem test_wellFormed_site : Instr.wellFormed (.mmac 0 24 0) = false ∧ Instr.wellFormed (.mmac 0 0 24) = false := by decide
theorem test_wellFormed_stream : Instr.wellFormed (.nop 0 64) = false := by decide
theorem test_wellFormed_slot : Instr.wellFormed (.creditReturn 0 0 4) = false := by decide
theorem test_wellFormed_qid : Instr.wellFormed (.tokenForward 0 65536) = false := by decide
theorem test_wellFormed_generator : Instr.wellFormed (.agRead 0 0 1 4) = false := by decide
theorem test_wellFormed_mailbox : Instr.wellFormed (.pop 0 256) = false := by decide
theorem test_wellFormed_pointer : Instr.wellFormed (.streamTailAdvance 0 0 2048 []) = false := by decide
theorem test_wellFormed_replica : Instr.wellFormed (.lockstepMismatch 0 0 (some 8192)) = false := by decide
theorem test_wellFormed_strip : Instr.wellFormed (.wcFillComplete 0 2 0) = false := by decide
theorem test_wellFormed_mas : Instr.wellFormed (.wcFillComplete 0 0 (2 ^ 52)) = false := by decide
theorem test_wellFormed_page : Instr.wellFormed (.sealFinish (2 ^ 31)) = false := by decide
theorem test_wellFormed_word : Instr.wellFormed (.counterLowRead .mgmt (2 ^ 32)) = false := by decide
theorem test_wellFormed_path : Instr.wellFormed (.counterLowRead (.session 257) 0) = false := by decide
theorem test_wellFormed_handle : Instr.wellFormed (.queryTimeout 65536) = false := by decide
theorem test_wellFormed_requestSlot : Instr.wellFormed (.inputFetchComplete 65536 none) = false := by decide
theorem test_wellFormed_tenant : Instr.wellFormed (.level 4096 0) = false := by decide
theorem test_wellFormed_session : Instr.wellFormed (.openTimeout 257) = false := by decide
theorem test_wellFormed_ring : Instr.wellFormed (.tokenDelivery 0 64) = false := by decide
theorem test_wellFormed_queuePair : Instr.wellFormed (.cmConnect 4096 0) = false := by decide
theorem test_wellFormed_hostPort : Instr.wellFormed (.cmConnect 0 4) = false := by decide
theorem test_wellFormed_linkPort : Instr.wellFormed (.trainingTimeout 32) = false := by decide
theorem test_wellFormed_channel : Instr.wellFormed (.e2eAckTimer 0 4 0) = false := by decide
theorem test_wellFormed_module : Instr.wellFormed (.e2eAckTimer 8192 0 0) = false := by decide
theorem test_wellFormed_packet : Instr.wellFormed (.install
    { qp := 4097, flags := 0, session := 0, tenant := 0, len := 0, seq := 0, status := 0, credits := 0, detail := 0, resv := 0, tag := 0, body := [],
      ce := false } []) = false := by decide

/-! ## Worked examples of the spec -/

open Sys2Proof.Machine.Num in
/-- 02_number_formats, FP32 to E4M3: 0.3, 0.005, 500.0 and +Infinity, with saturation. -/
theorem test_narrow_e4m3 :
    (narrow e4m3 true (decode fp32 0x3E99999A)).1 = 0x2A ∧ narrow e4m3 true (decode fp32 0x3BA3D70A) = (0x03, fUF) ∧
    narrow e4m3 true (decode fp32 0x43FA0000) = (0x7E, fSAT) ∧ narrow e4m3 true (decode fp32 0x7F800000) = (0x7F, fNV) := by decide +kernel

open Sys2Proof.Machine.Num in
/-- 02_number_formats, one MXFP4 block: 5.2, -1.1, 2.5, 0.3, -0.25, 0.07 and zeros. -/
theorem test_mx_block :
    mxQuant e2m1 false 2 ((([0x40A66666, 0xBF8CCCCD, 0x40200000, 0x3E99999A, 0xBE800000, 0x3D8F5C29] : List Nat) ++ List.replicate 26 0).map (decode fp32)) =
      (0x7F, [7, 0xA, 4, 1, 8, 0] ++ List.replicate 26 0, 0) := by decide +kernel

/-- 02_number_formats, an exact FP8 sum: 448 × 448, 2⁻⁹ × 2⁻⁹ and -448 × 448 leave 2⁻¹⁸. -/
theorem test_exact_fp8_sum :
    (emitCell false false (addProduct (laneVal 3 0xFE) (laneVal 3 0x7E) (addProduct (laneVal 3 0x01) (laneVal 3 0x01)
      (addProduct (laneVal 3 0x7E) (laneVal 3 0x7E) AccCell.zero).1).1).1).1 = 0x36800000 := by decide +kernel

/-- 16_power_clocks_and_wear, a cap halved: at 0.85 V step 5 is the largest within 2,200 W, and P4 the highest point. -/
theorem test_cap_halved :
    stretchM .dxg4140 16 850 2200 = 5 ∧ pointT .dxg4140 4 ≤ 2200 ∧ 2200 < pointT .dxg4140 3 := by decide +kernel

/-- R394: the known answer of Philox4x32-10 for a key and a counter of zeros. -/
theorem test_philox_zero : philoxWords 0 0 0 = [0x6627E8D5, 0xE169C58D, 0xBC57AC4C, 0x9B00DBD8] := by decide +kernel

/-- 19_package_signals_and_attach: TX_P and RX_N of a link lane, and an address signal of a DDR5 channel. -/
theorem test_lands :
    landName (linkLand 5 2 .txP) = "BG2" ∧ landName (linkLand 21 3 .rxN) = "BJ113" ∧ landName (ddrLand 10 true (.ca 5)) = "BH99" := by decide

/-! ## States and operands for the witnesses -/

/-- R33: a module with its identifier. -/
def wIdent (s : State) : State := s.wrFlag F.MODULE_NUM_ID_VALID true
theorem wHeard {s : State} {a : Nat} (h : s.flag F.MODULE_NUM_ID_VALID = true) : ∀ ty, s.closed a ty = false := fun _ => by
  simp [State.closed, h]
/-- A module in a state of R407. -/
def wMod (n : Nat) : State := State.reset.wr F.MODULE_STATE_STATE n
/-- A module whose configuration session `i` owns. -/
def wOwned (n i : Nat) : State := ((wMod n).wrFlag F.OWNER_STATUS_OWNED true).wr F.OWNER_STATUS_SESSION i
/-- A module with life-cycle word `w`. -/
def wLc (s : State) (w : Nat) : State := { s with fuses := { s.fuses with lcWords := [w, 0, 0, 0] } }
/-- The public key of the private number 1. -/
def wKey : List Byte := toBytes 8429026473700038520107240704196401427771037567655649700079599073991508187158289247987595722269141161003138297893806973326626127366555630813907674888848434 64
/-- R433: a firmware image that the key with private number 1 signed, and a module that takes that key. -/
def wHead : List Byte :=
  toBytes 0x574D5844 4 ++ toBytes 1 2 ++ toBytes 1 1 ++ toBytes 1 1 ++ toBytes 7 4 ++ toBytes 3 4 ++ toBytes 1024 4 ++ toBytes 0 2 ++
  toBytes 0 1 ++ toBytes 0 1 ++ wKey ++ List.replicate 872 0
def wImage : List Byte := wHead ++
  toBytes 8262332983425225029258802522384006163613147563090789998229128631376780980866985125244537448039822744732306146491784466753329455192474892419801854300699140 64
def wKeyed (s : State) : State := { s with fuses := { s.fuses with keyDigests := [toBytes 47595495997533918562236333261000377433398613401942059309650083819073327407927 32] } }
theorem wImage_signed : imgSigned wImage = true := by decide +kernel
def wFound : Found := { edges := [], stackBits := 0, dimms := [], sbErr := false, drives := [], host := [] }
/-- A session with the given roles, bound to queue pair 5; a host whose commands carry its tags. -/
def wSess (roles : Nat) : Session :=
  { st := .active, gen := 1, roles := roles, tenants := 2#4096, subject := [], keyHm := [], keyMh := [], confirm := [], next := 1, attach := 0,
    qps := [5], journal := [], held := [], evSeq := 0, evLost := 0, events := [], mask := 0, since := 0, closing := 0 }
def wQp (b : Option Nat) : Qp :=
  { port := 0, bound := b, error := false, auth := [], used := 0, rate := 1000, halved := 0, raised := 0, cnpAt := none }
def wHost (s : State) (v : Session) : State := { s with host := { s.host with sessions := [(0, v)], qps := [(5, wQp (some 0))] } }
def wOwner (s : State) : State :=
  ((wHost s (wSess 7)).wrFlag F.OWNER_STATUS_OWNED true).wr F.OWNER_STATUS_SESSION (sessionField 0 1)
def wTenant (s : State) : State := (wOwner s).wrFlag F.TENANT_WINDOW_ENABLED true 1
def wPkt (op flags tenant seq : Nat) (body : List Byte) : Pkt :=
  { qp := 5, flags := flags, session := sessionField 0 1, tenant := tenant, len := body.length, seq := seq, status := 0, credits := 0, detail := 0,
    resv := 0, tag := packetTag [] (headerBytes flags op (sessionField 0 1) tenant body.length seq 0 0 0 0) body, body := body, ce := false }
def wArr (s : State) (p : Pkt) (b : Option Nat) : Bool :=
  !s.dark && s.boot.failAt.isNone && s.host.lease.isNone && !p.ce && decide (p.qp ≠ mgmtQp) && (match s.qp p.qp with
    | some k => !k.error && decide (k.used < 256) && decide (k.bound = b)
    | none => false) && decide (p.body.length ≤ 8128) && wellMade p
theorem wArr_of {s : State} {p : Pkt} {b : Option Nat} (h : wArr s p b = true) : s.arrives p b := by
  simp only [wArr, Bool.and_eq_true, Bool.not_eq_true', Option.isNone_iff_eq_none, decide_eq_true_eq] at h
  obtain ⟨⟨⟨⟨⟨⟨⟨a, c⟩, l⟩, d⟩, e⟩, q⟩, f⟩, g⟩ := h
  refine ⟨a, c, fun u hu => ?_, d, e, ?_, f, g⟩
  · rw [l] at hu; cases hu
  · cases hq : s.qp p.qp with
    | none => rw [hq] at q; cases q
    | some k =>
      rw [hq] at q
      simp only [Bool.and_eq_true, Bool.not_eq_true', decide_eq_true_eq] at q
      exact ⟨k, rfl, q.1.1, q.1.2, q.2⟩
def wTurn (s : State) (i : Nat) (v : Session) (p : Pkt) : Bool :=
  wArr s p (some i) && decide (i < 256 ∧ s.session i = some v ∧ p.session = sessionField i v.gen ∧ v.keyHm = [] ∧
    p.seq = v.next ∧ v.held = [] ∧ v.closing = 0 ∧ findRep v p.seq = none ∧ headerBad p = false)
theorem wPkt_good (op f t n : Nat) (b : List Byte) : goodTag [] op (wPkt op f t n b) = true := decide_eq_true rfl
theorem wTurn_of {s : State} {i : Nat} {v : Session} {op f t n : Nat} {b : List Byte} (h : wTurn s i v (wPkt op f t n b) = true) :
    s.inTurn i v op (wPkt op f t n b) := by
  rw [wTurn, Bool.and_eq_true, decide_eq_true_eq] at h
  obtain ⟨a, c, d, e, k, g⟩ := h
  exact ⟨wArr_of a, c, d, e, k ▸ wPkt_good op f t n b, g⟩
theorem wOwn_of {s : State} {i : Nat} {v : Session} {op f t n : Nat} {b : List Byte}
    (h : (wTurn s i v (wPkt op f t n b) && decide (s.ownerIndex = some i ∧ actBit (wPkt op f t n b) = false)) = true) :
    s.ownerTurn i v op (wPkt op f t n b) := by
  rw [Bool.and_eq_true, decide_eq_true_eq] at h
  exact ⟨wTurn_of h.1, h.2⟩
theorem wTen_of {s : State} {i : Nat} {v : Session} {op f t n : Nat} {b : List Byte}
    (h : (wTurn s i v (wPkt op f t n b) &&
      decide (actBit (wPkt op f t n b) = true ∧ s.mayAct v (wPkt op f t n b).tenant = true)) = true) :
    s.tenantTurn i v op (wPkt op f t n b) := by
  rw [Bool.and_eq_true, decide_eq_true_eq] at h
  exact ⟨wTurn_of h.1, h.2⟩
/-- A Serving module with its stacks online. -/
def wNear : State := (wMod 3).wr F.STACKS_ONLINE_STACK_ONLINE 1048575
/-- A page-table entry: a writable near page in the given frame. -/
def wPte (stack frame : Nat) : Pte :=
  { isSealed := false, near := true, bulk := false, deep := false, moving := false, freeing := false, windowed := false, place := 0, budget := 0,
    mwin := 0, nearStack := stack, nearFrame := frame, bulkFrame := 0, deepDrive := 0, deepExtent := 0, check := 0, len := 0, access := 0, owner := 0,
    nodeep := false, sealing := false, winSeq := 0 }
def wDrive : Drive := { header := 5, slot := 3, extents := 16, records := [], retired := [] }
/-- R223: a package header with two contexts and one execution page. -/
def wHeader : List Byte :=
  toBytes 0x314B504A 4 ++ toBytes 1 2 ++ toBytes (Grade.byte .dxg4140) 1 ++ toBytes 0 1 ++ toBytes 0 4 ++ toBytes 1 1 ++ toBytes 0 1 ++ toBytes 0 2 ++
  toBytes 1 4 ++ toBytes 1 4 ++ toBytes 0 4 ++ toBytes 0 4 ++ List.replicate 32 7#8
def wBlock (handle flags : Nat) : List Byte :=
  toBytes handle 2 ++ toBytes flags 1 ++ toBytes 0 1 ++ toBytes 1 2 ++ toBytes 1 1 ++ toBytes 0 1 ++ toBytes 0 8 ++ toBytes 0x40000000 8 ++
  toBytes 1 4 ++ toBytes 0 2 ++ toBytes 0 2 ++ List.replicate 32 7#8 ++ List.replicate 32 0
def wPkg (st : PkgSt) : Pkg :=
  { st := st, digest := List.replicate 32 7#8, kind := 0, bucket := false, contexts := 1, execPages := 1, imagePages := 1, minWindow := 0, minLimit := 0,
    sections := [], imageBase := 0, execBase := 0x40000000, keepImage := false, tmpl := Tmpl.empty, budget := 1, slots := [], switching := none,
    adapter := none, bound := 0, leaving := false }
def wPkgs (s : State) (l : List (Nat × Pkg)) : State := { s with wts := { s.wts with pkgs := l } }
/-- R278: a credential for the holder with private number 3, signed by the platform root with private number 1. -/
def wCredHead : List Byte :=
  toBytes 0x44435243 4 ++ toBytes 1 1 ++ toBytes 3 1 ++ List.replicate 10 0 ++
  toBytes 12096476506575520873875251536316809430034722464694268500045482699945246565053342989449086003699395691060551474131856697621197627779227743735103212903759785 64 ++ List.replicate 512 0 ++
  List.replicate 48 0
def wCred : List Byte := wCredHead ++
  toBytes 6268489361415028648604231230004501133516106941783545501774186775643932914103368957032169119348824365128104956840633849709040890974324300963194913677925734 64
def wRooted (s : State) : State :=
  { s with fuses := { s.fuses with rootDigests := [toBytes 47595495997533918562236333261000377433398613401942059309650083819073327407927 32] },
           boot := { s.boot with nor := { s.boot.nor with rootKey := wKey } } }
def wOpen : Pkt :=
  { qp := 5, flags := 0, session := 0, tenant := 0, len := 800, seq := 0, status := 0, credits := 0, detail := 0, resv := 0, tag := 0#128,
    body := wCred ++
      toBytes 6724514797801071275377899482594847955694400457964374233305445131096967141777475550805055570755048409958252534649620838676877257967701675489377085496379847 64 ++ List.replicate 32 1#8, ce := false }

theorem wCred_verified : Sm2.verify wKey (wCred.take 640) (wCred.drop 640) = true := by decide +kernel
def wOpenState : State := { wRooted (wMod 3) with host := { HostSt.reset with qps := [(5, wQp none)] } }
theorem wOpenState_rootKey : wOpenState.rootKey = some wKey := by decide +kernel
theorem wCred_good : wOpenState.credGood (wOpen.body.take 704) = true := by
  have h : wOpen.body.take 704 = wCred := by decide +kernel
  rw [h, State.credGood, wOpenState_rootKey]
  simp only [wCred_verified, Bool.and_true]
  decide +kernel

/-- A descriptor of a request for package 1 with a prompt of two positions and at most three tokens; and such a request. -/
def wDesc : Nat := 1 + 2 ^ 128 * 2 + 2 ^ 160 * 3
def wReq : Req := newReq State.reset 0 1 7 5 1 (BitVec.ofNat 512 wDesc) [] false
def wReqs (s : State) (l : List (Nat × Req)) : State := { s with stew := { s.stew with reqs := l } }
def wRing : Ring := { entries := 64, addr := 4096, rkey := 9, cRkey := 8, cAddr := 512, produced := 0, consumed := 0, written := [], waiting := [] }
def wPfx : Pfx :=
  { digest := [], adapter := 0, positions := 4, pages := [], parent := 0, refs := 2, released := false, lost := false, chain := 0, input := [],
    acceptJsn := 0 }
/-- R65: an operation word. -/
def wOp (opc dst a b c fmt mod imm : Nat) : Nat :=
  opc + 2 ^ 8 * dst + 2 ^ 14 * a + 2 ^ 20 * b + 2 ^ 26 * c + 2 ^ 32 * fmt + 2 ^ 36 * mod + 2 ^ 40 * imm
/-- Compute tile (0, 0) of die 0 with slot 0 active and program word 0, which both sequencers have started. -/
def wTile (w : Nat) : State := ((wMod 3).wrFlag F.DIE_ACTIVE_NONE false 0 (.die 0)).wr F.TILE_PROG_WORD w 0 (.tile 0 0 0)
def wVec (w : Nat) : State := (wTile w).setTile 0 0 0 0 { TileCtx.empty with vLive := true, vCount := 3, vregs :=
  [(1, BitVec.ofNat 1024 (2 ^ 1023 / 3)), (2, splat 32 0x3FC00001), (3, splat 16 0xC0A1), (31, splat 8 0x5D)] }
theorem wVec_of {s : State} {die y x c w : Nat}
    (h : decide (die < 4 ∧ y < 24 ∧ x < s.cols ∧ isCompute y x = true ∧ s.active die = some c ∧ (s.tile die y x c).vEnd = false ∧
      (s.tile die y x c).vLive = true ∧ (s.nextWord die y x c (s.tile die y x c).vWord true).map (fun i => s.prog die y x c i) = some w) = true) :
    s.inVecWord die y x c w := by
  obtain ⟨a, b, e, f, g, k, l, m⟩ := of_decide_eq_true h
  exact ⟨a, b, e, f, g, k, l, Option.map_eq_some_iff.mp m⟩
theorem wMat_of {s : State} {die y x c w : Nat} {g : Geometry}
    (h : decide (die < 4 ∧ y < 24 ∧ x < s.cols ∧ isCompute y x = true ∧ s.active die = some c ∧ (s.tile die y x c).mEnd = false ∧
      (s.tile die y x c).mLive = true ∧ (s.nextWord die y x c (s.tile die y x c).mWord false).map (fun i => s.prog die y x c i) = some w ∧
      geometry (opFmt w) (opImm w % 16) = some g) = true) : s.inMatWord die y x c w g := by
  obtain ⟨a, b, e, f, k, l, m, n, o⟩ := of_decide_eq_true h
  exact ⟨a, b, e, f, k, l, m, Option.map_eq_some_iff.mp n, o⟩
/-- Stream 3 of die 0 with one entry, and room on its ring. -/
def wEntry (s : State) (n : Nat) : State :=
  { ((s.wrFlag F.SERGE_STATUS_ONLINE true 0 (.die 0)).wr F.STREAM_TAIL_INDEX 1 3 (.die 0)).wr F.STREAM_STATUS_STATE 1 3 (.die 0) with
    strm := { s.strm with cmdMem := [(cmdKey 0 3 0, BitVec.ofNat 512 n)] } }
def wHeadB (s : State) (die st i n : Nat) : Bool :=
  decide (die < 4 ∧ st < 64 ∧ s.mayIssue die st = true ∧ i = s.headPtr die st % 1024 ∧ n = s.cmdAt die st i ∧ entryOk n = true)
theorem wReady_of {s : State} {die st i n : Nat} (h : wHeadB s die st i n = true) : s.headReady die st i n := by
  rw [wHeadB, decide_eq_true_eq] at h; exact h
theorem wAtHead_of {s : State} {die st i n : Nat} (h : (wHeadB s die st i n && (s.openDispatch die st).isNone) = true) :
    s.atHead die st i n := by
  rw [Bool.and_eq_true, Option.isNone_iff_eq_none] at h
  exact ⟨wReady_of h.1, h.2⟩
def wSlot (s : State) (st : Nat) : State := s.wr F.CTX_SLOT_STATE st 1 (.die 0)
def wImg : CtxImage :=
  { pkg := 1, idx := 2, grade := .dxg4140, linen := false, tiles := [], mts := [], queues := [], edgeN := 0, edgeS := 0, psets := [], groups := [],
    wfmts := [], lanes := [], tables := [] }
def wFly (entry n : Nat) (cls : EClass) (a b len : Nat) : InFlight :=
  { entry := entry, word := BitVec.ofNat 512 n, cls := cls, slot := eSlot n, a := a, b := b, len := len }
def wFlying (s : State) (f : InFlight) : State := s.setStream 0 3 { StreamSt.empty with flying := [f] }
def wPages (s : State) (l : List (Nat × Pte)) : State := { s with mas := { s.mas with pages := l } }
def wJob (isIn moved : Bool) : ScanJob :=
  { slot := 1, isIn := isIn, clear := false, sram := false, discard := false, stream := 3, entry := 0, addr := 0x40000000, former := 2, moved := moved,
    bytes := 0, result := 0 }
def wScan (s : State) (j : ScanJob) : State := { s with arr := { s.arr with scans := [(0, j)] } }
/-- R104, R107: the header of a scan image without records, and the bytes it takes in memory at an address. -/
def wScanHdr : List Byte :=
  toBytes 0x4E435344 4 ++ toBytes 1 2 ++ toBytes (Grade.byte .dxg4140) 1 ++ toBytes 0 9 ++ toBytes 64 8 ++ toBytes 0 40
def wHdrMem : SMap Byte := ((List.range 64).map (fun k => (0x40000000 + k, wScanHdr.getD k 0))).filter (fun e => decide (e.2 ≠ 0))
/-- R112: a descriptor whose four loops run once; `e` is the word at byte 40. And memory tile (0, 1) of die 0 with it in AG1. -/
def wAgWord (mode net port base flags e : Nat) : Nat :=
  mode + 2 ^ 8 * (net + 4 * port) + 2 ^ 32 * base + 2 ^ 64 + 2 ^ 96 + 2 ^ 128 + 2 ^ 160 + 2 ^ 8 * flags + 2 ^ 320 * e
def wMt (n : Nat) : State :=
  (((wMod 3).wrFlag F.DIE_ACTIVE_NONE false 0 (.die 0)).wr F.MT_PART_SRAM_LEN 1 0 (.tile 0 0 1)).wr F.MT_DESC_DESC n 4 (.tile 0 0 1)
def wAg (s : State) (running finished : Bool) : State :=
  s.setAg 0 0 1 0 1 { desc := 0, running := running, finished := finished, bounds := [1, 1, 1, 1], index := [0, 0, 0, 0] }
/-- And a queue on each of its local ports of the vector and the scalar network. -/
def wMtPort (s : State) (net : Nat) (toks : List Tok) : State :=
  (((s.wr F.SW_ROUTE_VALID 1 (8 * net + 5) (.tile 0 0 1)).wr F.SW_ROUTE_LOCAL 1 (8 * net + 5) (.tile 0 0 1)).setQueue 0 (qidOf 0 1 net 5) 0
    { Queue.empty with len := 4, toks := toks })
def wTag0 : Tok := BitVec.ofNat 1024 (0x3F80 * 512)
def wLine (filling : Bool) (pins : Nat) : WcLine := { line := 0x40000200, pins := pins, filling := filling, waiters := [] }
def wCache (s : State) (l : List WcLine) : State :=
  { wPages (s.wr F.WC_CFG_ENABLE 1 0 (.die 0)) [(512, { wPte 0 52 with isSealed := true })] with
    arr := { s.arr with wc := [(wcKey 0 1 0x40000200, l)] } }
def wLane : Lane := { pset := 0, weightGroup := 0, inputGroup := 0 }
def wGroup (lane : Option Nat) : GroupRec := { index := 4, entry := 0, count := 1, waddr := 0x40000000, wlen := 64, input := 0, lane := lane, todo := none }
def wDisp (seen : Nat) (gs : List GroupRec) : Dispatch :=
  { stream := 3, entry := 9, total := 2, seen := seen, doneId := 6, countPm := 0, maxCount := 8, groups := gs, entries := [], abandoned := false }
def wDispatch (s : State) (d : Dispatch) : State :=
  { s with strm := { s.strm with dispatches := [(dieCtx 0 1, d)] }, arr := { s.arr with images := [(dieCtx 0 1, { wImg with lanes := [wLane] })] } }
theorem wTrans_of {s : State} {die st i n a b len slot : Nat}
    (h : decide (die < 4 ∧ st < 64 ∧ (s.stream die st).holder ≠ some i ∧
      (match (s.stream die st).flying.find? (fun f => decide (f.cls = .dma) && decide (f.entry = i)) with
        | some f => decide (dmaBehind f ((s.stream die st).flying.takeWhile (fun g => decide (g.entry ≠ i))) = false ∧
            f.entry = i ∧ f.word.toNat = n ∧ f.a = a ∧ f.b = b ∧ f.len = len ∧ f.slot = slot)
        | none => false) = true) = true) : s.transferring die st i n a b len slot := by
  obtain ⟨x, y, z, w⟩ := of_decide_eq_true h
  split at w
  · next f g => exact ⟨x, y, z, f, g, of_decide_eq_true w⟩
  · cases w
theorem wWrites_of {s : State} {path : Path} {a v : Nat} {r : Reg} {i : Nat} {w : Win} {k : Nat}
    (h : decide (s.dark = false ∧ s.locate a = some (r, i, w, k) ∧ s.mayWrite path a r = true ∧ s.blockOpen path a = true ∧
      s.dieCloses a = none) = true) (g : s.wakeFor a = s) (e : s.writeRefused r i w k (v % 2 ^ 32) = false) : s.writes path a v r i w k := by
  obtain ⟨b, c, d, f, j⟩ := of_decide_eq_true h
  exact ⟨b, c, d, f, j, g, e⟩
/-- R170: a router table of slot 0 of die 0: two experts, one choice, SUM_ID 6; its lists, rows and report in page 512. -/
def wTable : State :=
  ((((((((wPages wNear [(512, wPte 0 52)]).wrFlag F.DIE_ACTIVE_NONE false 0 (.die 0)).setWord .ROUTER_TABLE 3 (.die 0) 0 0x10002).setWord
    .ROUTER_TABLE 3 (.die 0) 1 0x40006).setWord .ROUTER_TABLE 3 (.die 0) 2 0x40001000).setWord .ROUTER_TABLE 3 (.die 0) 4 64).setWord
    .ROUTER_TABLE 3 (.die 0) 6 0x40000000).setWord .ROUTER_TABLE 3 (.die 0) 8 0x1000).setWord .ROUTER_TABLE 3 (.die 0) 10 0x40002000 |>.setWord
    .ROUTER_TABLE 3 (.die 0) 0x200 0x10001
def wInv (rows : List RRow) (cs : List RChoice) (ordered : Bool) : Invocation :=
  { live := 2, streamed := 2, table := 3, consumed := rows.length, logits := [], ident := none, rows := rows, choices := cs,
    selected := ordered, ordered := ordered, listed := false, writes := [] }
def wRouted (v : Invocation) : State :=
  { wTable with arr := { wTable.arr with invs := [(0, v)], routed := [(0, [0])] } }
def wRow (sl : Nat) : RRow := { slot := sl, pos := 5, nans := 0 }
def wChoice (r e : Nat) (acc : Bool) : RChoice := { row := r, slot := 7 + r, pos := 5, rank := 0, expert := e, weight := 0x3F800000, accepted := acc }
theorem wEach {s : State} {l : List Nat} {P : Pte → Prop} [DecidablePred P]
    (h : l.all (fun pn => match s.pte pn with | some e => decide (P e) | none => false) = true) : ∀ pn ∈ l, ∃ e, s.pte pn = some e ∧ P e := by
  intro pn hp
  have k := List.all_eq_true.mp h pn hp
  cases e : s.pte pn with
  | none => rw [e] at k; cases k
  | some v => rw [e] at k; exact ⟨v, rfl, of_decide_eq_true k⟩
/-- The request that waits on the migration ring; its 32 bytes for page 512 and `n` pages; and a sealed page with near and bulk copies. -/
def wRingS (s : State) : State := s.wr F.MIG_TAIL_INDEX 1
def wMq (op n arg0 arg1 budget : Nat) : BitVec 256 :=
  BitVec.ofNat 256 (op + 2 ^ 16 * budget + 2 ^ 32 * 77 + 2 ^ 64 * 0x40000000 + 2 ^ 128 * n + 2 ^ 160 * arg0 + 2 ^ 176 * arg1)
def wSealed : Pte := { wPte 0 52 with isSealed := true, bulk := true, bulkFrame := 9, len := 1 }
/-- A record of page 512 on a drive. -/
def wDeepRec : DeepRec := { page := 512, check := 0, len := 1, owner := 0, seq := 4, data := [] }
/-- An install of package 1 from modules 6 and 9, in the given phase. -/
def wInst (phase : Nat) : Inst :=
  { handle := 1, load := false, staged := false, hints := [6, 9], budget := 0, copies := 1, limit := 0, window := 0, tenant := none, peers := [6],
    old := none, phase := phase, since := 0, answers := [], sources := [], asked := [], got := [], image := [], stored := [], done := [],
    extents := [], sealedPages := [], confirmed := [], users := [(0, 5)], created := [], sat := 0, header := [], fed := [] }
def wInstS (s : State) (j : Inst) (p : Pkg) : State := { s with wts := { s.wts with pkgs := [(1, p)], jobs := [j] } }
/-- R226: a tensor of one MX block, whose plane 1 is one block of zeros. -/
def wTensor : List Byte :=
  toBytes 0x52544E54 4 ++ toBytes 7 1 ++ toBytes 7 1 ++ toBytes 2 1 ++ toBytes 0 1 ++ toBytes 32 4 ++ toBytes 1 4 ++ toBytes 1 4 ++ toBytes 1 4 ++
  List.replicate 40 0 ++ List.replicate 260 0 ++ toBytes 328 4 ++ toBytes (2 * 2 ^ 24) 4
def wSection : Section := { ty := 3, place := 0, index := 0, offset := 0, len := 332, execOff := 0 }
theorem wOnly {v : Section} {j : Inst} : ∀ k w, k ≠ 0 → [v][k]? = some w → w.ty = 3 → k ∈ j.done := fun k _ hk hw => by
  cases k with
  | zero => exact absurd rfl hk
  | succ k => cases hw
def wMem (bs : List Byte) : Mem := SMap.keep ((List.range bs.length).map (fun i => (i, bs.getD i 0))) (fun _ b => decide (b ≠ 0))
def wSwitch : Switch := { budget := 9, limit := 4, window := 0, tenant := none, users := [], begun := true }
/-- Port 3 in a state, with its own record. -/
def wPort (st : Nat) (v : Port) : State := (wMod 3).wr F.LINK_PORT_STATUS_STATE st 3 |>.setPort 3 v
def wPartner : Partner :=
  { lanes := 4, isSwitch := false, id := 0, cls := 2, offset := 0, size := 0, credits := [], eye := 0, clean := true }
def wFlit (n : Nat) : Flit := { vc := 1, last := true, dst := 0, src := 6, flow := 0, fseq := n, payload := [] }
def wProbe : Flit := { wFlit 9 with payload := msgBytes 0x30 0 (List.replicate 16 5#8) [] ++ List.replicate 208 0 }
def wTx (l : List SentFlit) : State := { wMod 3 with link := { LinkSt.reset with tx := [(flowKey 6 1 0, { next := 4, unacked := l })] } }
/-- R309: forced evaluation of the syndromes and of 2439438078-32C, for whole flits. -/
def wFold (f : Nat → Nat → Nat) : List Nat → Nat → Nat
  | [], a => a
  | c :: l, 0 => wFold f l (f 0 c)
  | c :: l, n + 1 => wFold f l (f (n + 1) c)
theorem wFold_eq (f : Nat → Nat → Nat) (l : List Nat) (a : Nat) : wFold f l a = l.foldl f a := by
  induction l generalizing a with
  | nil => cases a <;> rfl
  | cons c l ih => cases a <;> simp [wFold, ih]
def wClean (cw : List Nat) : Bool := (List.range 8).all (fun j => wFold (fun acc c => gfMul acc (gfPow 2 j) ^^^ c) cw 0 == 0)
theorem wClean_fix {cw : List Nat} (h : wClean cw = true) : rsFix cw = some (cw, 0) := by
  have : (syndromes cw).all (· == 0) = true := by
    simpa [wClean, syndromes, gfEval, wFold_eq] using h
  simp only [rsFix, this, if_true]
def wCrc : List Byte → Nat → Nat
  | [], a => a
  | b :: l, 0 => wCrc l (crcByte 0 b).toNat
  | b :: l, n + 1 => wCrc l (crcByte (BitVec.ofNat 32 (n + 1)) b).toNat
theorem wCrc_eq (l : List Byte) (a : BitVec 32) : wCrc l a.toNat = (l.foldl crcByte a).toNat := by
  induction l generalizing a with
  | nil => cases h : a.toNat <;> simp [wCrc, h]
  | cons b l ih =>
    have e : wCrc (b :: l) a.toNat = wCrc l (crcByte a b).toNat := by
      cases h : a.toNat with
      | zero => have : a = 0 := BitVec.eq_of_toNat_eq (by simpa using h)
                simp [wCrc, this]
      | succ n => have : a = BitVec.ofNat 32 (n + 1) := BitVec.eq_of_toNat_eq (by rw [BitVec.toNat_ofNat, ← h, Nat.mod_eq_of_lt a.isLt])
                  simp only [wCrc, ← this]
    rw [e, ih]; rfl
/-- The 272 bytes of the flit of wProbe with LSEQ 7 and LACK 4095. -/
def wRaw : List Byte := toBytes
  5385969968714100167166246771036422615970953428501577814715330801444895737647672510088326651313943051564986622115630829169544925953918491777780928639573289649768018428892328786849485898136855684772883749053212268722945475267312072017166305055861410157689097950401951026078984270759769956879342847413872002642163975925586659534077566919328202116133720163405587351440748456178978934455199196810267214440802093616488650554920925795108558548910336718188931344440975268605166712409951090978692756944599802341030265990171120259098597241268240137892387133055898420668841185534630077790813427143644244112392777216640763144458505002510838006817188344600532886749225 272
/-- A received flit decodes when its two codewords are clean and its words are those of the flit. -/
theorem wDecode {raw : List Byte} {f : Flit} {ls la n : Nat} (ha : wClean (everyOther 0 raw) = true) (hb : wClean (everyOther 1 raw) = true)
    (hc : wCrc ((flitBytes f ls la).take 252) 0xFFFFFFFF = 0xFFFFFFFF - n) (hn : n ≤ 0xFFFFFFFF)
    (hl : (f.payload ++ List.replicate (240 - f.payload.length) 0).length = 240)
    (hw : (weave (everyOther 0 raw) (everyOther 1 raw)).take 256 = (flitBytes f ls la).take 252 ++ toBytes n 4) :
    laneDecode raw = (flitBytes f ls la, 0) := by
  have a := wClean_fix ha
  have b := wClean_fix hb
  have c : (crc32c ((flitBytes f ls la).take 252)).toNat = n := by
    have h := wCrc_eq ((flitBytes f ls la).take 252) 0xFFFFFFFF#32
    rw [show (0xFFFFFFFF#32).toNat = 0xFFFFFFFF from rfl, hc] at h
    rw [crc32c, BitVec.toNat_not, ← h]; omega
  have d : flitBytes f ls la = (flitBytes f ls la).take 252 ++ toBytes n 4 := by
    have e : (flitBytes f ls la) = (flitBytes f ls la).take 252 ++ toBytes (crc32c ((flitBytes f ls la).take 252)).toNat 4 := by
      have len : ∀ (b : List Byte) (z : List Byte), b.length = 252 → (b ++ z).take 252 = b := by
        intro b z h; rw [← h, List.take_left']; rfl
      unfold flitBytes
      dsimp only
      rw [len _ _ (by rw [List.length_append, hl]; simp [toBytes])]
    rw [c] at e; exact e
  have l : ((laneDecode raw).1 = (flitBytes f ls la).take 252 ++ toBytes n 4) := by
    simp only [laneDecode, a, b, Option.getD_some]; exact hw
  have m : (laneDecode raw).2 = 0 := by simp only [laneDecode, a, b, Option.getD_some]
  exact Prod.ext (l.trans d.symm) m
theorem wRaw_decode : laneDecode wRaw = (flitBytes wProbe 7 4095, 0) :=
  wDecode (n := 2439438078) (by decide +kernel) (by decide +kernel) (by decide +kernel) (by decide) (by decide +kernel) (by decide +kernel)
/-- The same flit when it is not the last of its message. -/
def wRaw2 : List Byte := toBytes
  453965950214407045730703090922250484257117189215732038251813811077719010040837409728488934107292305006025420112770914948315463425056363245131276160159903532637127848098062112450110943570570150789099481998661503281157613470023528953923444839958434216885825597433536810896873736937708505134690390195130107905427331084513483982989507685596924487360816887779117842903600673352082700166701008909191025316638209679821636581736452535062635690950191172106689442005164721330147906874376099330676028004789192339916108485602457558755834096505514626121611384557208241742219724586945638573274457505856841785706088789388829919714041475337654905267828779195798547070985 272
theorem wRaw2_decode : laneDecode wRaw2 = (flitBytes { wProbe with last := false } 7 4095, 0) :=
  wDecode (n := 510341564) (by decide +kernel) (by decide +kernel) (by decide +kernel) (by decide) (by decide +kernel) (by decide +kernel)
/-- A reorder store that is full with the held flits of another flow. -/
def wStore (n : Nat) : List (Nat × Flit) := List.replicate n (11, wFlit 11)
def wHeld (n : Nat) (r : RxFlow) : State :=
  { wIdent (wPort 3 { Port.empty with expect := 7 }) with link := { (wPort 3 { Port.empty with expect := 7 }).link with
    rx := [(flowKey 6 1 0, r), (flowKey 6 1 1, { RxFlow.empty with store := wStore n })] } }
theorem wHeld_used (n : Nat) (r : RxFlow) : (wHeld n r).reorderUsed = r.store.length + n := by
  simp [State.reorderUsed, wHeld, wStore]
def wZeros : List Byte := List.replicate 272 0
theorem wZeros_bad : bitsOf (ofBytes (laneDecode wZeros).1) (8 * 252) 32 ≠ (crc32c ((laneDecode wZeros).1.take 252)).toNat := by
  have a := wClean_fix (show wClean (everyOther 0 wZeros) = true by decide +kernel)
  have b := wClean_fix (show wClean (everyOther 1 wZeros) = true by decide +kernel)
  have l : (laneDecode wZeros).1 = List.replicate 256 0 := by
    simp only [laneDecode, a, b, Option.getD_some]; decide +kernel
  have c : (crc32c ((List.replicate 256 0).take 252)).toNat ≠ 0 := by
    have h := wCrc_eq ((List.replicate 256 0).take 252) 0xFFFFFFFF#32
    rw [crc32c, BitVec.toNat_not, ← h]
    decide +kernel
  rw [l, show bitsOf (ofBytes (List.replicate 256 0)) (8 * 252) 32 = 0 by decide +kernel]
  exact fun h => c h.symm
/-- Module 6 as the partner in service; a record of the journal; and one of any size. -/
def wPair (st : Nat) (j : Jr) : State := { (wNear.wr F.JOURNAL_STATUS_STATE st).wr F.JOURNAL_JSN_VALUE 9 with jr := j }
def wJr : Jr := { Jr.reset with partner := some 6 }
def wRec (p : JPay) : JRec := { jsn := 5, slot := 0xFFFF, pay := p, sent := none, origin := none }
def wInstRec : JRec := wRec (.install 1 (List.replicate 32 7#8) 3)
theorem wBig (s : State) (n : Nat) : n < s.mirrorUsed + recsSize [wRec (.final (List.replicate (n + 1) 0))] := by
  simp only [recsSize, jrecSize, jrecBytes, wRec, payBytes, List.foldl_cons, List.foldl_nil, List.length_append, List.length_replicate]
  omega
def wTkReq : TkReq :=
  { origin := 4, slot := 7, session := 2, sub := 5, tenant := 1, desc := BitVec.ofNat 512 wDesc, input := [1#8], prefixPos := 0, tokens := [11],
    cancelled := false, accepted := 0, admitted := true, member := some 6, delivered := 0, placed := 0, lastIndex := 0, final := none, acked := false,
    cancels := [], lastAt := 0, since := none }
def wTkState : TkState :=
  { slot := 7, origin := 4, session := 2, sub := 5, tenant := 1, desc := BitVec.ofNat 512 wDesc, input := [1#8], prefixPos := 0, tokens := [11],
    accepted := 0, admitted := true, cancelled := false }
def wFlight (stepped : Bool) : Flight :=
  { rows := [(0, 3)], key := 0, since := 0, stage := 2, replayed := false, stepped := stepped, commits := [], drops := [] }
/-- Every request slot of R251 in use. -/
def wFullReqs (n : Nat) : List (Nat × Req) := (List.range n).map (fun k => (k, wReq))
theorem wFullReqs_find (n k : Nat) (h : k < n) (a : Nat) : SMap.find? ((List.range' a n).map (fun k => (k, wReq))) (a + k) = some wReq := by
  induction n generalizing a k with
  | zero => omega
  | succ n ih =>
    rw [List.range'_succ, List.map_cons, SMap.find?]
    by_cases e : a = a + k
    · simp [← e]
    · rw [if_neg e]
      have := ih (k - 1) (by omega) (a + 1)
      rw [show a + 1 + (k - 1) = a + k by omega] at this
      exact this
def wFullS (n : Nat) : State := { wReqs (wIdent wNear) (wFullReqs n) with jr := { Jr.reset with assigns := [(6, 4, 7, 2)] } }
theorem wFullS_none (n : Nat) (hn : 65536 ≤ n) : (wFullS n).lowestSlot = none := by
  rw [State.lowestSlot, List.find?_eq_none]
  intro k hk
  have h := wFullReqs_find n k (Nat.lt_of_lt_of_le (List.mem_range.mp hk) hn) 0
  rw [← List.range_eq_range', Nat.zero_add] at h
  have : (wFullS n).req k = some wReq := h
  rw [this]; decide
theorem wFullS_closed (n : Nat) : (wFullS n).closed 6 0x28 = false := by
  have : (wFullS 0).closed 6 0x28 = false := by decide +kernel
  exact this
theorem wFullS_reaches (n : Nat) : (wFullS n).reaches 6 := by
  have : (wFullS 0).reaches 6 := ⟨by decide +kernel, by decide +kernel⟩
  exact this
/-! A slot whose arrays hold nothing has a scan image of less than 16 MB, which eight pages can take. -/
/-- States whose arrays hold nothing. -/
def wBare (s : State) : Prop := s.arr.tiles = [] ∧ s.arr.queues = [] ∧ s.arr.drain = [] ∧ s.arr.invs = [] ∧ s.fuses.grade = .dxg4140 ∧
  ∀ y < 24, ∀ x < 32, ∀ c < 4, s.rd F.TILE_PART_ACC_LEN c (.tile 0 y x) = 0
theorem wCt_len {s : State} (h : wBare s) (y x : Nat) (hy : y < 24) (hx : x < 32) : (s.ctRecords 0 y x 1).length ≤ 9000 := by
  obtain ⟨ht, _, _, _, _, ha⟩ := h
  have e : s.tile 0 y x 1 = TileCtx.empty := by simp [State.tile, ht, SMap.getD, SMap.find?]
  have a : (s.accBytes 0 y x 1) = [] := by simp [State.accBytes, ha y hy x hx 1 (by decide)]
  have r32 : ∀ f : Nat → Nat, ((List.range 32).flatMap (fun k => toBytes (f k) 128)).length = 4096 := fun f => by
    rw [length_flatMap_eq _ _ 128 (fun _ _ => length_toBytes _ _)]; decide
  have r16 : ∀ f : Nat → Nat, ((List.range 16).flatMap (fun k => toBytes (f k) 4)).length = 64 := fun f => by
    rw [length_flatMap_eq _ _ 4 (fun _ _ => length_toBytes _ _)]; decide
  have ctl : (s.ctlBytes 0 y x 1).length = 8 := by
    rw [State.ctlBytes, length_flatMap_eq _ _ 2 (fun _ _ => by simp only [List.length_append, length_toBytes])]; decide
  have six : ∀ l : List Nat, (l.flatMap (fun v => toBytes v 4)).length = l.length * 4 := fun l => length_flatMap_eq _ _ 4 (fun _ _ => length_toBytes _ _)
  have st : (s.ctState 0 y x 1).length ≤ 300 := by
    simp only [State.ctState, e, List.length_append, length_toBytes, length_fixLen, r16, ctl, six, TileCtx.empty]; decide
  have h1 := length_scanRec_le 0x10 (siteId y x) (s.ctState 0 y x 1)
  have h2 := length_scanRec_le 0x11 (siteId y x) ((List.range 32).flatMap (fun k => toBytes (SMap.getD TileCtx.empty.vregs k 0).toNat 128))
  have h3 := length_scanRec_le 0x12 (siteId y x) (fixLen 2048 (packToks 128 TileCtx.empty.held) ++ fixLen 2048 (packToks 128 TileCtx.empty.ahead))
  have h4 := length_scanRec_le 0x13 (siteId y x) []
  rw [r32 (fun k => (SMap.getD TileCtx.empty.vregs k 0).toNat)] at h2
  simp only [List.length_append, length_fixLen] at h3
  have h5 : (packToks 128 TileCtx.empty.held).length = 0 := rfl
  have h6 : (packToks 128 TileCtx.empty.ahead).length = 0 := rfl
  rw [h5, h6] at h3
  have h7 : scanRec? 0x14 (siteId y x) (packToks 128 (takenAt TileCtx.empty 46 ++ TileCtx.empty.mi)) = [] := rfl
  simp only [State.ctRecords, e, a, h7, List.length_append, List.length_nil] at *
  omega
theorem wMt_len (s : State) (y x : Nat) : (s.mtRecords 0 y x 1 false).length ≤ 1000 := by
  have ctl : (s.ctlBytes 0 y x 1).length = 8 := by
    rw [State.ctlBytes, length_flatMap_eq _ _ 2 (fun _ _ => by simp only [List.length_append, length_toBytes])]; decide
  have q4 : ∀ (f : Nat → Nat) (n : Nat), ((List.range 4).flatMap (fun k => toBytes (f k) n)).length = 4 * n := fun f n => by
    rw [length_flatMap_eq _ _ n (fun _ _ => length_toBytes _ _)]; rfl
  have ag : ((List.range 4).flatMap (fun a =>
      let g := s.ag 0 y x 1 a
      toBytes g.desc 1 ++ toBytes (packBits [g.running, g.finished]) 1 ++
      (List.range 4).flatMap (fun d => toBytes (g.bounds.getD d 0) 3) ++ (List.range 4).flatMap (fun d => toBytes (g.index.getD d 0) 3))).length = 104 := by
    rw [length_flatMap_eq _ _ 26 (fun _ _ => by simp only [List.length_append, length_toBytes, q4])]; decide
  have h := length_scanRec_le 0x30 (siteId y x) (fixLen 256 (s.mtState 0 y x 1))
  have hm : (s.mtState 0 y x 1).length ≤ 256 := by
    simp only [State.mtState, List.length_append, length_toBytes, ctl]
    rw [ag, q4]
    decide
  rw [length_fixLen] at h
  simp only [State.mtRecords, Bool.false_eq_true, if_false, List.append_nil]
  omega
theorem wQ_len {s : State} (h : wBare s) (q : Nat) : s.queueRecord 0 1 q = [] ∧ s.extRecord 0 1 q = [] := by
  obtain ⟨ht, hq, hd, hi, _, _⟩ := h
  have e : ∀ y x, s.tile 0 y x 1 = TileCtx.empty := fun y x => by simp [State.tile, ht, SMap.getD, SMap.find?]
  have f : s.queue 0 q 1 = Queue.empty := by simp [State.queue, hq, SMap.getD, SMap.find?]
  have g : s.takenQueue 0 q 1 = [] := by
    simp only [State.takenQueue, e]
    split
    · rfl
    · exact List.flatMap_eq_nil_iff.mpr (fun _ _ => rfl)
  have k : s.takenScores 0 q 1 = [] := by
    simp only [State.takenScores, State.inv, hi, SMap.find?]; split <;> rfl
  constructor
  · rw [State.queueRecord, f, g, k]; rfl
  · rw [State.extRecord, f, hd]; rfl
theorem wImage_len {s : State} (h : wBare s) : 0 < (s.scanImage 0 1 false).length ∧ (s.scanImage 0 1 false).length ≤ 16000000 := by
  have hq := wQ_len h
  have site : ∀ y < 24, ∀ x < 32, (s.siteRecords 0 1 y x false).length ≤ 10000 := by
    intro y hy x hx
    have h1 := wCt_len h y x hy hx
    have h2 := wMt_len s y x
    have h3 : (siteQueues y x).flatMap (s.queueRecord 0 1) = [] := List.flatMap_eq_nil_iff.mpr (fun q _ => (hq q).1)
    have h4 : (siteQueues y x).flatMap (s.extRecord 0 1) = [] := List.flatMap_eq_nil_iff.mpr (fun q _ => (hq q).2)
    rw [State.siteRecords, h3, h4]
    split <;> simp only [List.append_nil, List.nil_append] <;> omega
  have cols : s.cols ≤ 32 := by rw [State.cols, h.2.2.2.2.1]; decide
  have sites : ((List.range 24).flatMap (fun y => (List.range s.cols).flatMap (fun x => s.siteRecords 0 1 y x false))).length ≤ 24 * (32 * 10000) := by
    refine Nat.le_trans (length_flatMap_le _ _ (32 * 10000) ?_) (by simp)
    intro y hy
    refine Nat.le_trans (length_flatMap_le _ _ 10000 ?_) (Nat.mul_le_mul_right _ (by simpa using cols))
    intro x hx
    exact site y (List.mem_range.mp hy) x (by have := List.mem_range.mp hx; omega)
  have edge : s.edgeQids 0 1 = [scoreQid] := by
    rw [State.edgeQids, h.2.1, h.2.2.1]; decide +kernel
  have edges : ((s.edgeQids 0 1).flatMap (s.edgeRecords 0 1)).length ≤ 400 := by
    have r : s.inv 0 1 = none := by simp [State.inv, h.2.2.2.1, SMap.find?]
    have := length_scanRec_le 0x40 scoreQid (routerBytes (s.inv 0 1))
    rw [edge]
    have rb : (routerBytes none).length = 256 := by rw [routerBytes, length_fixLen]; rfl
    simp only [List.flatMap_cons, List.flatMap_nil, State.edgeRecords, (hq _).1, (hq _).2, if_true, List.nil_append, List.append_nil]
    rw [r] at *; omega
  have die := length_scanRec_le 0x01 0 (s.dieState 0 1)
  have ds : (s.dieState 0 1).length = 256 := by
    rw [State.dieState, length_fixLen]; simp only [List.length_append, length_toBytes]; decide
  have fin : (scanRec 0xFF 0 []).length = 16 := rfl
  have hd : ∀ b, (s.scanHeader 0 1 false b).length = 64 := fun b => by
    simp only [State.scanHeader, List.length_append, length_toBytes]
  simp only [State.scanImage, List.length_append, hd, State.scanRecords, fin] at *
  omega

theorem wPages_access (a n : Nat) (s : State) (k : Nat) (h0 : 0 < n) (hk : 0 < k) (hp : pageOf (a + n - 1) < pageOf a + k)
    (h : ∀ i < k, s.writeAccess ((i + pageOf a) * pageBytes) = .ok) : s.rangeAccess State.writeAccess a n = .ok := by
  have e : ∀ r ∈ (pagesIn a n).map (fun pn => s.writeAccess (pn * pageBytes)), r = Access.ok := by
    intro r hr
    obtain ⟨pn, hpn, rfl⟩ := List.mem_map.mp hr
    rw [pagesIn, if_neg (Nat.ne_of_gt h0)] at hpn
    obtain ⟨i, hi, rfl⟩ := List.mem_map.mp hpn
    exact h i (by have := List.mem_range.mp hi; omega)
  have f : ((pagesIn a n).map (fun pn => s.writeAccess (pn * pageBytes))).contains .fault = false := by
    rw [Bool.eq_false_iff]; intro hc; have := e _ (List.contains_iff_mem.mp hc); cases this
  have w : ((pagesIn a n).map (fun pn => s.writeAccess (pn * pageBytes))).contains .wait = false := by
    rw [Bool.eq_false_iff]; intro hc; have := e _ (List.contains_iff_mem.mp hc); cases this
  simp only [State.rangeAccess, f, w]; rfl
theorem wFirst_access (a n : Nat) (s : State) (h0 : 0 < n) (h : s.writeAccess (pageOf a * pageBytes) = .fault) :
    s.rangeAccess State.writeAccess a n ≠ .ok := by
  have f : ((pagesIn a n).map (fun pn => s.writeAccess (pn * pageBytes))).contains .fault = true := by
    rw [pagesIn, if_neg (Nat.ne_of_gt h0)]
    refine List.contains_iff_mem.mpr (List.mem_map.mpr ⟨pageOf a, List.mem_map.mpr ⟨0, by simp, by simp⟩, h⟩)
  rw [State.rangeAccess, f, if_pos rfl]; decide
def wRoomy : State := wScan (wPages wNear ((List.range 8).map (fun k => (512 + k, wPte 0 (52 + k))))) (wJob false false)
def wRoomless : State := wScan wNear (wJob false false)
theorem wRoomy_acc : ∀ y < 24, ∀ x < 32, ∀ c < 4, wRoomy.rd F.TILE_PART_ACC_LEN c (.tile 0 y x) = 0 := by decide +kernel
theorem wRoomy_bare : wBare wRoomy := ⟨rfl, rfl, rfl, rfl, rfl, wRoomy_acc⟩
theorem wRoomy_pages : ∀ i < 8, wRoomy.writeAccess ((i + pageOf 0x40000000) * pageBytes) = .ok := by decide +kernel
theorem wRoomy_any (n : Nat) (h : 0 < n ∧ n ≤ 16000000) : wRoomy.rangeAccess State.writeAccess 0x40000000 n = .ok :=
  wPages_access 0x40000000 n wRoomy 8 h.1 (by decide) (by simp only [pageOf, pageBytes]; omega) wRoomy_pages
theorem wRoomy_room : wRoomy.rangeAccess State.writeAccess 0x40000000 (wRoomy.scanImage 0 1 false).length = .ok :=
  wRoomy_any _ (wImage_len wRoomy_bare)
theorem wRoomless_acc : ∀ y < 24, ∀ x < 32, ∀ c < 4, wRoomless.rd F.TILE_PART_ACC_LEN c (.tile 0 y x) = 0 := by decide +kernel
theorem wRoomless_bare : wBare wRoomless := ⟨rfl, rfl, rfl, rfl, rfl, wRoomless_acc⟩
theorem wRoomless_first : wRoomless.writeAccess (pageOf 0x40000000 * pageBytes) = .fault := by decide +kernel
theorem wRoomless_room : wRoomless.rangeAccess State.writeAccess 0x40000000 (wRoomless.scanImage 0 1 false).length ≠ .ok :=
  wFirst_access 0x40000000 _ wRoomless (wImage_len wRoomless_bare).1 wRoomless_first

/-! ## Witnesses: every clause has states that meet its hypotheses -/

theorem test_meets_RequestsChangeTheModuleState :
    (∃ (s : State) (path : Path), s.dark = false ∧ s.lc ≠ .retired ∧ s.mayWrite path (Reg.addr .PWR_CTRL 0 .glob 0) .PWR_CTRL = true ∧ s.modState = 3 ∧
      s.boot.recovering = false ∧ s.boot.drainTo = none) ∧
    (∃ (s : State) (path : Path), s.dark = false ∧ s.lc ≠ .retired ∧ s.mayWrite path (Reg.addr .PWR_CTRL 0 .glob 0) .PWR_CTRL = true ∧ s.modState = 2 ∧
      s.boot.recovering = false) ∧
    (∃ (s : State) (path : Path), s.dark = false ∧ s.lc ≠ .retired ∧ s.mayWrite path (Reg.addr .PWR_CTRL 0 .glob 0) .PWR_CTRL = true ∧
      s.mayReady = true ∧ s.boot.softUntil = none ∧ s.modState ≠ 3 ∧ s.modState ≠ 4 ∧ s.modState ≠ 5) ∧
    (∃ (s : State) (path : Path), s.dark = false ∧ s.lc ≠ .retired ∧ s.mayWrite path (Reg.addr .PWR_CTRL 0 .glob 0) .PWR_CTRL = true ∧
      s.mayReady = true ∧ s.boot.softUntil ≠ none) ∧
    (∃ (s : State) (path : Path), s.dark = false ∧ s.lc ≠ .retired ∧ s.mayWrite path (Reg.addr .PWR_CTRL 0 .glob 0) .PWR_CTRL = true ∧
      s.modState = 5) ∧
    (∃ (s : State) (path : Path), s.dark = false ∧ s.lc ≠ .retired ∧ s.mayWrite path (Reg.addr .PWR_CTRL 0 .glob 0) .PWR_CTRL = true ∧
      s.mayReady = false) ∧
    (∃ (s : State) (path : Path), s.dark = false ∧ s.lc ≠ .retired ∧ s.mayWrite path (Reg.addr .PWR_CTRL 0 .glob 0) .PWR_CTRL = true ∧ s.modState = 1 ∧
      s.boot.recovering = false) ∧
    (∃ (s : State) (path : Path), s.dark = false ∧ s.lc ≠ .retired ∧ s.mayWrite path (Reg.addr .PWR_CTRL 0 .glob 0) .PWR_CTRL = true ∧
      s.boot.recovering = true) :=
  ⟨⟨wMod 3, .mgmt, by decide +kernel⟩,
   ⟨wMod 2, .mgmt, by decide +kernel⟩,
   ⟨wMod 1, .mgmt, by decide +kernel⟩,
   ⟨{ wMod 5 with boot := { Boot.reset with softUntil := some 1 } }, .mgmt, by decide +kernel⟩,
   ⟨wMod 5, .mgmt, by decide +kernel⟩,
   ⟨wMod 2, .mgmt, by decide +kernel⟩,
   ⟨wMod 1, .mgmt, by decide +kernel⟩,
   ⟨{ wMod 1 with boot := { Boot.reset with recovering := true } }, .mgmt, by decide +kernel⟩⟩
theorem test_meets_PowerCapWritesTakeOrRefuse :
    (∃ (s : State) (path : Path) (v : Nat), s.dark = false ∧ s.lc ≠ .retired ∧ s.modState = 1 ∧
      s.mayWrite path (Reg.addr .PWR_CAP 0 .glob 0) .PWR_CAP = true ∧ 1200 ≤ v ∧ v ≤ 4400) ∧
    (∃ (s : State) (path : Path) (v : Nat), s.dark = false ∧ s.lc ≠ .retired ∧ s.modState = 1 ∧
      s.mayWrite path (Reg.addr .PWR_CAP 0 .glob 0) .PWR_CAP = true ∧ v < 1200) :=
  ⟨⟨wMod 1, .mgmt, 1200, by decide +kernel⟩,
   ⟨wMod 1, .mgmt, 1199, by decide +kernel⟩⟩
theorem test_meets_PointsFollowTheCap :
    (∃ (s : State) (w : Nat) (volts : Nat) (amps : Nat) (inlet : Nat) (outlet : Nat) (off : Bool), s.dark = false ∧ s.modState ≠ 6 ∧
      s.rd F.PWR_LIMIT_SOURCE ≠ 3 ∧ s.rd F.PWR_LIMIT_LIMIT_W < w) ∧
    (∃ (s : State) (d : Nat) (p : Nat) (t0 : Nat) (t1 : Nat), d < 4 ∧ SMap.find? s.boot.slews d = some (p, t0, t1) ∧ p ≤ 6 ∧ t1 ≤ s.now) :=
  ⟨⟨(wMod 3).wr F.DIE_STATUS_CD0_PSTATE 0, 4500, 480, 900, 30, 40, false, by decide +kernel⟩,
   ⟨{ wMod 3 with now := 20, boot := { Boot.reset with slews := [(3, (6, 0, 20))] } }, 3, 6, 0, 20, by decide +kernel⟩⟩
theorem test_meets_RackSignalsAreReported :
    (∃ (s : State) (low : Bool), s.dark = false ∧ s.flag F.PWR_LIMIT_CAPDROP ≠ low) ∧
    (∃ (s : State), s.dark = false ∧ s.boot.failAt = none ∧ s.boot.pclRun = none) ∧
    (∃ (s : State) (path : Path), s.dark = false ∧ s.lc ≠ .retired ∧ s.mayWrite path (Reg.addr .PIN_STATUS 0 .glob 0) .PIN_STATUS = true) ∧
    (∃ (s : State), s.dark = false ∧ s.host.mgmtSeen + 60000000000 ≤ s.now ∧ s.flag F.PWR_LIMIT_SAFE = false) ∧
    (∃ (s : State), s.dark = false ∧ s.boot.refBad = false) :=
  ⟨⟨wMod 3, true, by decide +kernel⟩,
   ⟨wMod 3, by decide +kernel⟩,
   ⟨wMod 3, .firmware 0, by decide +kernel⟩,
   ⟨{ wMod 3 with now := 60000000000 }, by decide +kernel⟩,
   ⟨wMod 3, by decide +kernel⟩⟩
theorem test_meets_TemperaturesAndAgeingAreGuarded :
    (∃ (s : State) (d : Nat) (tj : Nat), s.dark = false ∧ d < 4 ∧ s.boot.pclRun = none ∧ SMap.find? s.boot.steppedAt d = none ∧ 95 ≤ s.reads d tj ∧
      s.steerable d = true ∧ s.point d < 6) ∧
    (∃ (s : State) (d : Nat) (tj : Nat), s.dark = false ∧ d < 6 ∧ s.modState = 3 ∧ s.boot.drainTo = none ∧
      s.rd F.THERM_CFG_DRAIN_C ≤ s.reads d tj % 2 ^ 8) ∧
    (∃ (s : State) (d : Nat) (tj : Nat), s.dark = false ∧ d < 6 ∧ s.reads d tj % 2 ^ 8 < s.rd F.THERM_CFG_DRAIN_C) ∧
    (∃ (s : State) (d : Nat) (tj : Nat), s.dark = false ∧ d < 6 ∧ 115 ≤ tj) ∧
    (∃ (s : State) (d : Nat) (tj : Nat) (k : Nat), s.dark = false ∧ d < 6 ∧ k < sensorCount d ∧ (d, k) ∉ s.boot.badSensors ∧ s.modState ≠ 3 ∧
      s.modState ≠ 4) ∧
    (∃ (s : State) (d : Nat) (tj : Nat), s.dark = false ∧ d < 6) ∧
    (∃ (s : State) (unit : Nat) (days : Nat) (low90 : Nat), s.dark = false ∧ unit < 78 ∧ s.rd F.AGE_CFG_AGE_WARN_DAYS ≤ min low90 0xFFFF ∧
      30 < low90) :=
  ⟨⟨((wMod 3).wr F.DIE_STATUS_CD0_PSTATE 0).wr F.DIE_OPPOINT_POINT 5, 0, 95, by decide +kernel⟩,
   ⟨(wMod 3).wr F.THERM_CFG_DRAIN_C 105, 5, 105, by decide +kernel⟩,
   ⟨wMod 3, 5, 0, by decide +kernel⟩,
   ⟨wMod 3, 5, 115, by decide +kernel⟩,
   ⟨wMod 1, 5, 30, 0, by decide +kernel⟩,
   ⟨wMod 3, 5, 30, by decide +kernel⟩,
   ⟨wMod 3, 77, 100, 90, by decide +kernel⟩⟩
theorem test_meets_DiesChangePowerState :
    (∃ (s : State) (die : Nat), die < 4 ∧ s.dieP die = 0 ∧ s.rd F.A1_CFG_A1_IDLE_US ≠ 0 ∧ s.dieRests die = true ∧
      1000 * s.rd F.A1_CFG_A1_IDLE_US ≤ SMap.getD s.arr.restFor die 0) ∧
    (∃ (s : State) (die : Nat), die < 4 ∧
      (s.dieP die ≠ 0 ∨ s.rd F.A1_CFG_A1_IDLE_US = 0 ∨ SMap.getD s.arr.restFor die 0 < 1000 * s.rd F.A1_CFG_A1_IDLE_US)) ∧
    (∃ (s : State) (die : Nat) (st : Nat) (n : Nat), die < 4 ∧ s.dieP die = 1 ∧ st < 64) ∧
    (∃ (s : State) (die : Nat), die < 4 ∧ s.dieP die = 2 ∧ die ∉ s.fuses.retiredDies ∧ s.dieQuiet die = true) ∧
    (∃ (s : State) (die : Nat), die < 4 ∧ s.dieP die ≠ 2) ∧
    (∃ (s : State) (die : Nat), die < 4 ∧ die ∉ s.fuses.retiredDies ∧ s.dieP die < 2 ∧ s.dieQuiet die = true) ∧
    (∃ (s : State) (die : Nat), die < 4 ∧ die ∉ s.fuses.retiredDies ∧ s.dieP die ≤ 2 ∧ s.dieQuiet die = true) ∧
    (∃ (s : State) (die : Nat) (a3 : Bool), die < 4 ∧ (die ∈ s.fuses.retiredDies ∨ 3 ≤ s.dieP die ∨ s.dieQuiet die = false)) :=
  ⟨⟨{ (wMod 3).wr F.DIE_STATUS_CD0_PSTATE 0 with arr := { Arr.reset with restFor := [(0, 20000)] } }, 0, by decide +kernel⟩,
   ⟨{ (wMod 3).wr F.DIE_STATUS_CD0_PSTATE 0 with arr := { Arr.reset with restFor := [(0, 19999)] } }, 0, by decide +kernel⟩,
   ⟨((wMod 3).wr F.DIE_STATUS_CD0_PSTATE 1).wr F.STREAM_STALL_COUNT 5 (16*63+10) (.die 0), 0, 63, 7, by decide +kernel⟩,
   ⟨(wMod 3).wr F.DIE_STATUS_CD0_PSTATE 2, 0, by decide +kernel⟩,
   ⟨(wMod 3).wr F.DIE_STATUS_CD0_PSTATE 1, 0, by decide +kernel⟩,
   ⟨((wMod 3).wr F.DIE_STATUS_CD0_PSTATE 1).setSramByte 0 0 0 5 7#8, 0, by decide +kernel⟩,
   ⟨(wMod 3).wr F.DIE_STATUS_CD0_PSTATE 2, 0, by decide +kernel⟩,
   ⟨(wMod 3).setQueue 0 5 0 { Queue.empty with toks := [1] }, 0, true, by decide +kernel⟩⟩
theorem test_meets_ColdResetsStartOver :
    (∃ (s : State), s.boot.off = true) ∧
    (∃ (s : State) (u : _), s.boot.softUntil = some u ∧ u ≤ s.now ∧ s.boot.readyWaits = false) ∧
    (∃ (s : State) (u : _), s.boot.softUntil = some u ∧ s.now < u) ∧
    (∃ (s : State), s.boot.off = false) ∧
    (∃ (s : State), s.boot.held = true ∧ s.flag F.BOOT_CFG_AUTO_READY = false) ∧
    (∃ (s : State) (path : Path), s.dark = false ∧ s.lc ≠ .retired ∧ s.mayWrite path (Reg.addr .COLD_RESET 0 .glob 0) .COLD_RESET = true ∧
      s.resetRefused = false ∧ s.boot.nor.autoReady = false) ∧
    (∃ (s : State) (path : Path) (v : _), s.dark = false ∧ s.lc ≠ .retired ∧ s.mayWrite path (Reg.addr .COLD_RESET 0 .glob 0) .COLD_RESET = true ∧
      v < 2 ^ 32 ∧ v % 2 ^ 16 ≠ 0xB007) :=
  ⟨⟨{ wMod 1 with boot := { Boot.reset with off := true } }, by decide +kernel⟩,
   ⟨{ wMod 1 with now := 30, boot := { Boot.reset with softUntil := some 30 } }, 30, by decide +kernel⟩,
   ⟨{ wMod 1 with now := 29, boot := { Boot.reset with softUntil := some 30 } }, 30, by decide +kernel⟩,
   ⟨wMod 3, by decide +kernel⟩,
   ⟨({ wMod 1 with boot := { Boot.reset with held := true } }).wrFlag F.BOOT_CFG_AUTO_READY false, by decide +kernel⟩,
   ⟨wMod 5, .mgmt, by decide +kernel⟩,
   ⟨wMod 5, .mgmt, 0xB006, by decide +kernel⟩⟩
theorem test_meets_StartUpAdvancesByPhases_1 :
    (∃ (s : State) (misread : Bool) (f : Found), s.dark = false ∧ s.rd F.BOOT_STATUS_STAGE = 1 ∧ s.flag F.BOOT_CFG_FORCE_RECOVERY = false) ∧
    (∃ (s : State) (misread : Bool) (f : Found), s.dark = false ∧ s.rd F.BOOT_STATUS_STAGE = 2 ∧ s.headerCause s.boot.nor.image = 0) ∧
    (∃ (s : State) (misread : Bool) (f : Found), s.dark = false ∧ s.rd F.BOOT_STATUS_STAGE = 2 ∧ s.headerCause s.boot.nor.image ≠ 0) ∧
    (∃ (s : State) (misread : Bool) (f : Found), s.dark = false ∧ s.rd F.BOOT_STATUS_STAGE = 3 ∧ imgDigests s.boot.nor.image = true) ∧
    (∃ (s : State) (misread : Bool) (f : Found), s.dark = false ∧ s.rd F.BOOT_STATUS_STAGE = 4) ∧
    (∃ (s : State) (misread : Bool) (f : Found), s.dark = false ∧ s.rd F.BOOT_STATUS_STAGE = 5) :=
  ⟨⟨(wMod 1).wr F.BOOT_STATUS_STAGE 1, false, wFound, by decide +kernel⟩,
   ⟨{ wKeyed ((wMod 1).wr F.BOOT_STATUS_STAGE 2) with boot := { Boot.reset with nor := { Nor.shipped with image := wImage } } }, false, wFound, by refine ⟨by decide +kernel, by decide +kernel, ?_⟩; rw [State.headerCause]; dsimp only; rw [wImage_signed]; decide +kernel⟩,
   ⟨(wMod 1).wr F.BOOT_STATUS_STAGE 2, false, wFound, by decide +kernel⟩,
   ⟨{ (wMod 1).wr F.BOOT_STATUS_STAGE 3 with boot := { Boot.reset with nor := { Nor.shipped with image := wImage } } }, false, wFound,
     by decide +kernel⟩,
   ⟨(wMod 1).wr F.BOOT_STATUS_STAGE 4, false, wFound, by decide +kernel⟩,
   ⟨(wMod 1).wr F.BOOT_STATUS_STAGE 5, false, wFound, by decide +kernel⟩⟩
theorem test_meets_StartUpAdvancesByPhases_2 :
    (∃ (s : State) (misread : Bool) (f : Found) (u : _), s.dark = false ∧ s.boot.bootBy = some u ∧ u ≤ s.now ∧ 1 ≤ s.rd F.BOOT_STATUS_STAGE ∧
      s.rd F.BOOT_STATUS_STAGE ≤ 6) ∧
    (∃ (s : State) (misread : Bool) (f : Found), s.dark = false ∧ s.boot.recovering = true ∧ s.boot.triedAt + 10000000000 ≤ s.now) ∧
    (∃ (s : State) (misread : Bool) (f : Found) (b : List Byte), s.dark = false ∧ s.boot.recovering = true ∧ b.length ≤ maxImage ∧
      s.imageCause b = 0) ∧
    (∃ (s : State) (misread : Bool) (f : Found), s.dark = false ∧ s.rd F.BOOT_STATUS_STAGE = 1 ∧ s.flag F.BOOT_CFG_FORCE_RECOVERY = true) ∧
    (∃ (s : State) (misread : Bool) (f : Found), s.dark = false ∧ s.rd F.BOOT_STATUS_STAGE = 6) :=
  ⟨⟨{ (wMod 1).wr F.BOOT_STATUS_STAGE 6 with now := 9, boot := { Boot.reset with bootBy := some 9 } }, false, wFound, 9, by decide +kernel⟩,
   ⟨{ wMod 1 with now := 10000000000, boot := { Boot.reset with recovering := true } }, false, wFound, by decide +kernel⟩,
   ⟨{ wKeyed (wMod 1) with boot := { Boot.reset with recovering := true } }, false, wFound, wImage, by refine ⟨by decide +kernel, by decide +kernel, by decide +kernel, ?_⟩; rw [State.imageCause, State.headerCause, wImage_signed]; decide +kernel⟩,
   ⟨((wMod 1).wr F.BOOT_STATUS_STAGE 1).wrFlag F.BOOT_CFG_FORCE_RECOVERY true, false, wFound, by decide +kernel⟩,
   ⟨(wMod 1).wr F.BOOT_STATUS_STAGE 6, false, wFound, by decide +kernel⟩⟩
theorem test_meets_StagingFetchesAndCommits :
    (∃ (s : State) (path : Path) (kind : Nat), s.dark = false ∧ s.lc ≠ .retired ∧ s.modState = 5 ∧ kind < 2 ∧
      s.mayWrite path (Reg.addr .STAGE_CTRL 0 .glob 0) .STAGE_CTRL = true ∧ s.mayStage = true ∧ s.rd F.STAGE_STATUS_STATE ≠ 3) ∧
    (∃ (s : State) (path : Path) (kind : Nat), s.dark = false ∧ s.lc ≠ .retired ∧ s.modState = 5 ∧ kind < 2 ∧
      s.mayWrite path (Reg.addr .STAGE_CTRL 0 .glob 0) .STAGE_CTRL = true ∧ s.rd F.STAGE_STATUS_STATE = 1 ∧ s.boot.blockAt + 2000000000 ≤ s.now) ∧
    (∃ (s : State) (path : Path) (kind : Nat) (b : List Byte), s.dark = false ∧ s.lc ≠ .retired ∧ s.modState = 5 ∧ kind < 2 ∧
      s.mayWrite path (Reg.addr .STAGE_CTRL 0 .glob 0) .STAGE_CTRL = true ∧ s.rd F.STAGE_STATUS_STATE = 1 ∧ s.rd F.STAGE_CTRL_KIND = 0 ∧
      b.length ≤ maxImage ∧ s.imageCause b = 0) ∧
    (∃ (s : State) (path : Path) (kind : Nat) (b : List Byte), s.dark = false ∧ s.lc ≠ .retired ∧ s.modState = 5 ∧ kind < 2 ∧
      s.mayWrite path (Reg.addr .STAGE_CTRL 0 .glob 0) .STAGE_CTRL = true ∧ s.rd F.STAGE_STATUS_STATE = 2 ∧ s.boot.staged = some (0, b)) ∧
    (∃ (s : State) (path : Path) (kind : Nat) (b : List Byte), s.dark = false ∧ s.lc ≠ .retired ∧ s.modState = 5 ∧ kind < 2 ∧
      s.mayWrite path (Reg.addr .STAGE_CTRL 0 .glob 0) .STAGE_CTRL = true ∧ s.rd F.STAGE_STATUS_STATE = 3 ∧ s.boot.staged = some (0, b)) :=
  ⟨⟨wMod 5, .mgmt, 1, by decide +kernel⟩,
   ⟨{ (wMod 5).wr F.STAGE_STATUS_STATE 1 with now := 2000000000 }, .mgmt, 0, by decide +kernel⟩,
   ⟨wKeyed ((wMod 5).wr F.STAGE_STATUS_STATE 1), .mgmt, 0, wImage, by refine ⟨by decide +kernel, by decide +kernel, by decide +kernel, (by decide), by decide +kernel, by decide +kernel, by decide +kernel, (by decide +kernel), ?_⟩; rw [State.imageCause, State.headerCause, wImage_signed]; decide +kernel⟩,
   ⟨{ (wMod 5).wr F.STAGE_STATUS_STATE 2 with boot := { Boot.reset with staged := some (0, wImage) } }, .mgmt, 0, wImage, by decide +kernel⟩,
   ⟨{ (wMod 5).wr F.STAGE_STATUS_STATE 3 with boot := { Boot.reset with staged := some (0, wImage) } }, .mgmt, 0, wImage, by decide +kernel⟩⟩
theorem test_meets_LifeCycleMovesForward_1 :
    (∃ (s : State) (i : Nat), s.dark = false ∧ s.ownerIndex = some i ∧ s.modState ≠ 1 ∧ s.lc = .provisioned ∧ s.rd F.STAGE_STATUS_STATE ≠ 3) ∧
    (∃ (s : State) (i : Nat) (u : _), s.dark = false ∧ s.ownerIndex = some i ∧ s.modState ≠ 1 ∧ s.lc = .provisioned ∧ s.rd F.STAGE_STATUS_STATE ≠ 3 ∧
      s.modState = 2 ∧ s.rd F.CFG_SEQ_VALUE ≠ 0 ∧ s.boot.lcAt = some u ∧ s.now ≤ u + 1000000000 ∧ s.rd F.LC_REQUEST_TARGET = 3) ∧
    (∃ (s : State) (i : Nat) (u : _) (v : _), s.dark = false ∧ s.ownerIndex = some i ∧ s.modState ≠ 1 ∧ s.boot.lcAt = some u ∧ v < 2 ^ 32 ∧
      v ≠ complement32 (s.rd F.LC_REQUEST_TARGET) ∧ s.lc ≠ .retired) ∧
    (∃ (s : State) (i : Nat) (u : _), s.dark = false ∧ s.ownerIndex = some i ∧ s.modState ≠ 1 ∧ s.boot.lcAt = some u ∧ u + 1000000000 < s.now) ∧
    (∃ (s : State) (i : Nat) (key : List Byte) (cert : List Byte), s.dark = false ∧ s.ownerIndex = some i ∧ s.modState ≠ 1 ∧ s.lc = .blank) ∧
    (∃ (s : State) (i : Nat) (key : List Byte) (cert : List Byte), s.dark = false ∧ s.ownerIndex = some i ∧ s.modState ≠ 1 ∧ s.lc = .factory ∧
      s.boot.nor.passed = some s.epoch) :=
  ⟨⟨wLc (wOwned 2 7) 15, 7, by decide +kernel⟩,
   ⟨{ (wLc (wOwned 2 7) 15).wr F.CFG_SEQ_VALUE 1 |>.wr F.LC_REQUEST_TARGET 3 with now := 1000000000, boot := { Boot.reset with lcAt := some 0 } }, 7,
     0, by decide +kernel⟩,
   ⟨{ (wOwned 2 7).wr F.LC_REQUEST_TARGET 3 with boot := { Boot.reset with lcAt := some 0 } }, 7, 0, 0, by decide +kernel⟩,
   ⟨{ wOwned 2 7 with now := 1000000001, boot := { Boot.reset with lcAt := some 0 } }, 7, 0, by decide +kernel⟩,
   ⟨wLc (wOwned 2 7) 0, 7, [], [], by decide +kernel⟩,
   ⟨{ wLc (wOwned 2 7) 3 with boot := { Boot.reset with nor := { Nor.shipped with passed := some 0 } } }, 7, [1], [], by decide +kernel⟩⟩
theorem test_meets_LifeCycleMovesForward_2 :
    (∃ (s : State) (i : Nat) (u : _), s.dark = false ∧ s.ownerIndex = some i ∧ s.modState ≠ 1 ∧ s.lc = .deployed ∧ s.rd F.STAGE_STATUS_STATE ≠ 3 ∧
      s.modState = 5 ∧ s.boot.lcAt = some u ∧ s.now ≤ u + 1000000000 ∧ s.rd F.LC_REQUEST_TARGET = 4) ∧
    (∃ (s : State) (i : Nat) (u : _), s.dark = false ∧ s.ownerIndex = some i ∧ s.modState ≠ 1 ∧ (s.lc = .provisioned ∨ s.lc = .deployed) ∧
      s.rd F.STAGE_STATUS_STATE ≠ 3 ∧ s.modState = 5 ∧ s.boot.lcAt = some u ∧ s.now ≤ u + 1000000000 ∧ s.rd F.LC_REQUEST_TARGET = 5) ∧
    (∃ (s : State) (i : Nat) (key : List Byte) (cert : List Byte), s.dark = false ∧ s.ownerIndex = some i ∧ s.modState ≠ 1 ∧ s.lc = .returned ∧
      s.boot.nor.passed = some s.epoch ∧ s.epoch < 3) ∧
    (∃ (s : State) (i : Nat) (key : List Byte) (cert : List Byte), s.dark = false ∧ s.ownerIndex = some i ∧ s.modState ≠ 1 ∧
      (s.lc = .factory ∨ s.lc = .returned)) ∧
    (∃ (s : State) (i : Nat) (target : LcSt) (key : List Byte) (cert : List Byte), s.dark = false ∧ s.ownerIndex = some i ∧ s.modState ≠ 1 ∧
      (s.lc = .provisioned ∨ s.lc = .deployed ∨ s.lc = .retired)) :=
  ⟨⟨{ (wOwned 5 7).wr F.LC_REQUEST_TARGET 4 with boot := { Boot.reset with lcAt := some 0 } }, 7, 0, by decide +kernel⟩,
   ⟨{ (wOwned 5 7).wr F.LC_REQUEST_TARGET 5 with boot := { Boot.reset with lcAt := some 0 } }, 7, 0, by decide +kernel⟩,
   ⟨{ wLc (wOwned 2 7) 255 with boot := { Boot.reset with nor := { Nor.shipped with passed := some 0 } } }, 7, [1], [], by decide +kernel⟩,
   ⟨wLc (wOwned 2 7) 3, 7, [1], [], by decide +kernel⟩,
   ⟨wOwned 2 7, 7, .factory, [1], [], by decide +kernel⟩⟩
theorem test_meets_TestAccessPortIsShut :
    (∃ (s : State) (a : Nat) (v : Nat), s.boot.off = false ∧ s.lc ≠ .factory ∧ s.lc ≠ .returned) ∧
    (∃ (s : State) (a : Nat) (v : Nat), s.boot.off = false ∧ (s.lc = .factory ∨ s.lc = .returned)) :=
  ⟨⟨wMod 1, 0x30000, 1, by decide +kernel⟩,
   ⟨wLc (wMod 1) 3, Reg.addr .PWR_CAP 0 .glob 0, 1300, by decide +kernel⟩⟩
theorem test_meets_PercaleRunsTests :
    (∃ (s : State) (i : Nat) (point : Nat), s.dark = false ∧ s.ownerIndex = some i ∧ point ≤ 6 ∧ s.lc ≠ .retired ∧ s.modState ≠ 1 ∧
      s.pclRefusal (.session i) false point = 0) ∧
    (∃ (s : State) (i : Nat) (point : Nat) (u : _) (w : _), s.dark = false ∧ s.ownerIndex = some i ∧ point ≤ 6 ∧ s.lc ≠ .retired ∧ s.modState ≠ 1 ∧
      s.boot.pclArmed = some (u, w, i) ∧ s.now ≤ u + 1000000000 ∧ w < 64 ∧ s.pclRefusal (.session i) false (bitsOf w 3 3) = 0) ∧
    (∃ (s : State) (i : Nat) (point : Nat) (u : _) (w : _), s.dark = false ∧ s.ownerIndex = some i ∧ point ≤ 6 ∧ s.lc ≠ .retired ∧ s.modState ≠ 1 ∧
      s.boot.pclArmed = some (u, w, i) ∧ u + 1000000000 < s.now ∧ s.modState ≠ 6) ∧
    (∃ (s : State) (i : Nat) (point : Nat) (r : PclRun), s.dark = false ∧ s.ownerIndex = some i ∧ point ≤ 6 ∧ s.lc ≠ .retired ∧ s.modState ≠ 1 ∧
      s.boot.pclRun = some r ∧ s.rd F.PCL_CTRL_TEST_POINT ≤ 6) ∧
    (∃ (s : State) (i : Nat) (point : Nat) (r : PclRun) (p : Nat × Nat) (q : Nat × Nat) (rest : List (Nat × Nat)), s.dark = false ∧
      s.ownerIndex = some i ∧ point ≤ 6 ∧ s.lc ≠ .retired ∧ s.modState ≠ 1 ∧ s.boot.pclRun = some r ∧ r.todo = p :: q :: rest ∧ q.1 = p.1 ∧ p.2 = 0 ∧
      q.2 = 1 ∧ s.rd F.PCL_RESULT_OUTCOME 0 ≠ 2) ∧
    (∃ (s : State) (i : Nat) (point : Nat) (r : PclRun) (faults : List Nat) (unit : Nat), s.dark = false ∧ s.ownerIndex = some i ∧ point ≤ 6 ∧
      s.lc ≠ .retired ∧ s.modState ≠ 1 ∧ s.boot.pclRun = some r ∧ r.itemAt + s.pclBound (r.todo.headD (0, 0)).2 (r.todo.headD (0, 0)).1 ≤ s.now) :=
  ⟨⟨(wOwned 5 7).wr F.BULK_CFG_STATE 1, 7, 6, by decide +kernel⟩,
   ⟨{ (wOwned 5 7).wr F.BULK_CFG_STATE 1 with now := 1000000000, boot := { Boot.reset with pclArmed := some (0, 49, 7) } }, 7, 6, 0, 49,
     by decide +kernel⟩,
   ⟨{ wOwned 5 7 with now := 1000000001, boot := { Boot.reset with pclArmed := some (0, 49, 7) } }, 7, 6, 0, 49, by decide +kernel⟩,
   ⟨{ wOwned 6 7 with boot := { Boot.reset with pclRun := some ⟨false, 5, 0, 0, [(0, 0), (0, 1)], none⟩ } }, 7, 0, ⟨false, 5, 0, 0, [(0, 0), (0, 1)],
     none⟩, by decide +kernel⟩,
   ⟨{ wOwned 6 7 with boot := { Boot.reset with pclRun := some ⟨false, 5, 0, 0, [(0, 0), (0, 1)], none⟩ } }, 7, 0, ⟨false, 5, 0, 0, [(0, 0), (0, 1)],
     none⟩, (0, 0), (0, 1), [], by decide +kernel⟩,
   ⟨{ wOwned 6 7 with now := 4100000000, boot := { Boot.reset with pclRun := some ⟨false, 5, 0, 0, [(0, 4)], none⟩ } }, 7, 0, ⟨false, 5, 0, 0, [(0,
     4)], none⟩, [3, 5], 3, by decide +kernel⟩⟩
theorem test_meets_PacketsInTurnAreSerialised : ∃ (s : State) (i : Nat) (v : Session) (p : Pkt) (c : Instr) (op : Nat) (n : Nat) (extra : List Byte),
    s.inTurn i v op p ∧
    (c, op, extra) ∈ ([(.close p, 0x04, []), (.heartbeat p, 0x05, []), (.claim p, 0x10, []), (.handover p, 0x11, []), (.release p, 0x12, []),
      (.setLease p, 0x13, []), (.sealConfig p, 0x14, []), (.setTenantWindow p, 0x20, []), (.setMemWindow p, 0x21, []), (.setCtxOwner p, 0x22, []),
      (.setPkgGroup p, 0x23, []), (.install p extra, 0x30, extra), (.uninstall p, 0x31, []), (.switchIn p, 0x32, []), (.stageMap p, 0x33, []),
      (.stageSeal p, 0x34, []), (.adoptDrive p, 0x35, []), (.submit p, 0x40, []), (.cancel p, 0x41, []), (.prefixRelease p, 0x42, []),
      (.regDelivery p n, 0x43, toBytes n 8), (.finalRead p, 0x44, []), (.disable p, 0x50, []), (.enable p, 0x51, []), (.regRead p, 0x60, []),
      (.regWrite p, 0x61, []), (.attest p, 0x62, []), (.eventCfg p, 0x63, []), (.unknownOp 0x99 p, 0x99, [])] : List (Instr × Nat × List Byte)) :=
  ⟨(wOwner (wMod 3)), 0, wSess 7, (wPkt 5 0 0 1 ([])), .heartbeat (wPkt 5 0 0 1 ([])), 5, 0, [], by refine ⟨wTurn_of (by decide +kernel), ?_⟩; simp⟩
theorem test_meets_OwnershipAndConfigurationCommands :
    (∃ (s : State) (i : Nat) (v : Session) (p : Pkt), s.ownerTurn i v 0x05 p ∧ p.body = []) ∧
    (∃ (s : State) (i : Nat) (v : Session) (p : Pkt), s.inTurn i v 0x10 p ∧ actBit p = false ∧ p.body = [] ∧ s.flag F.OWNER_STATUS_OWNED = false ∧
      bitOf v.roles 0 = true) ∧
    (∃ (s : State) (i : Nat) (v : Session) (p : Pkt) (j : Nat) (u : Session), s.ownerTurn i v 0x11 p ∧ p.body.length = 2 ∧
      at' p.body 0 2 = sessionField j u.gen ∧ j < 256 ∧ j ≠ i ∧ s.session j = some u ∧ u.st = .active ∧ u.closing = 0 ∧ bitOf u.roles 0 = true) ∧
    (∃ (s : State) (i : Nat) (v : Session) (p : Pkt), s.ownerTurn i v 0x12 p ∧ p.body = []) ∧
    (∃ (s : State) (i : Nat) (v : Session) (p : Pkt), s.ownerTurn i v 0x13 p ∧ p.body.length = 4 ∧ 1000 ≤ at' p.body 0 4 ∧ at' p.body 0 4 ≤ 60000) ∧
    (∃ (s : State) (i : Nat) (v : Session) (p : Pkt), s.ownerTurn i v 0x14 p ∧ p.body = []) ∧
    (∃ (s : State) (i : Nat) (v : Session) (p : Pkt), s.inTurn i v 0x63 p ∧ actBit p = false ∧ p.body.length = 4) :=
  ⟨⟨(wOwner (wMod 3)), 0, wSess 7, (wPkt 5 0 0 1 ([])), wOwn_of (by decide +kernel), by decide +kernel⟩,
   ⟨(wHost (wMod 3) (wSess 7)), 0, wSess 7, (wPkt 0x10 0 0 1 ([])), wTurn_of (by decide +kernel), by decide +kernel⟩,
   ⟨{ (wOwner (wMod 3)) with host := { (wOwner (wMod 3)).host with sessions := [(0, wSess 7), (1, wSess 1)] } }, 0, wSess 7,
     (wPkt 0x11 0 0 1 (toBytes (sessionField 1 1) 2)), 1, wSess 1, wOwn_of (by decide +kernel), by decide +kernel⟩,
   ⟨(wOwner (wMod 3)), 0, wSess 7, (wPkt 0x12 0 0 1 ([])), wOwn_of (by decide +kernel), by decide +kernel⟩,
   ⟨(wOwner (wMod 3)), 0, wSess 7, (wPkt 0x13 0 0 1 (toBytes 60000 4)), wOwn_of (by decide +kernel), by decide +kernel⟩,
   ⟨(wOwner (wMod 3)), 0, wSess 7, (wPkt 0x14 0 0 1 ([])), wOwn_of (by decide +kernel), by decide +kernel⟩,
   ⟨(wHost (wMod 3) (wSess 0)), 0, wSess 0, (wPkt 0x63 0 0 1 (toBytes 9 4)), wTurn_of (by decide +kernel), by decide +kernel⟩⟩
theorem test_meets_HandoverReleaseAndLease_1 :
    (∃ (s : State) (i : Nat) (v : Session) (p : Pkt) (j : Nat) (u : Session), s.ownerTurn i v 0x11 p ∧ p.body.length = 2 ∧
      at' p.body 0 2 = sessionField j u.gen ∧ j < 256 ∧ s.session j = some u ∧ (u.st = .active ∨ u.st = .detached) ∧ u.closing ≠ 2 ∧
      bitOf u.roles 0 = true) ∧
    (∃ (s : State) (i : Nat) (v : Session) (p : Pkt) (j : Nat) (u : Session), s.ownerTurn i v 0x11 p ∧ p.body.length = 2 ∧
      at' p.body 0 2 = sessionField j u.gen ∧ j < 256 ∧ s.session j = some u ∧ (u.st = .active ∨ u.st = .detached) ∧ u.closing ≠ 2 ∧
      bitOf u.roles 0 = true) ∧
    (∃ (s : State) (i : Nat) (v : Session) (p : Pkt) (j : Nat) (u : Session), s.ownerTurn i v 0x11 p ∧ p.body.length = 2 ∧
      at' p.body 0 2 = sessionField j u.gen ∧ j < 256 ∧ s.session j = some u ∧ (u.st = .active ∨ u.st = .detached) ∧ u.closing ≠ 2 ∧
      bitOf u.roles 0 = true) ∧
    (∃ (s : State) (i : Nat) (v : Session) (p : Pkt) (j : Nat) (u : Session), s.ownerTurn i v 0x11 p ∧ p.body.length = 2 ∧
      at' p.body 0 2 = sessionField j u.gen ∧ j < 256 ∧ s.session j = some u ∧ (u.st = .active ∨ u.st = .detached) ∧ u.closing ≠ 2 ∧
      bitOf u.roles 0 = false) ∧
    (∃ (s : State) (i : Nat) (v : Session) (p : Pkt), s.ownerTurn i v 0x11 p ∧ p.body.length = 2 ∧ (∀ u,
      s.session (at' p.body 0 2 % 256) = some u → sessionField (at' p.body 0 2 % 256) u.gen = at' p.body 0 2 → (u.st ≠ .active ∧
      u.st ≠ .detached) ∨ u.closing = 2)) :=
  ⟨⟨{ (wOwner (wMod 3)) with host := { (wOwner (wMod 3)).host with sessions := [(0, wSess 7), (1, wSess 1)] } }, 0, wSess 7,
    (wPkt 0x11 0 0 1 (toBytes (sessionField 1 1) 2)), 1, wSess 1, wOwn_of (by decide +kernel), by decide +kernel⟩,
   ⟨{ (wOwner (wMod 3)) with host := { (wOwner (wMod 3)).host with sessions := [(0, wSess 7), (1, { wSess 1 with st := .detached })] } }, 0, wSess 7,
     (wPkt 0x11 0 0 1 (toBytes (sessionField 1 1) 2)), 1, { wSess 1 with st := .detached }, wOwn_of (by decide +kernel), by decide +kernel⟩,
   ⟨(wOwner (wMod 3)), 0, wSess 7, (wPkt 0x11 0 0 1 (toBytes (sessionField 0 1) 2)), 0, wSess 7, wOwn_of (by decide +kernel), by decide +kernel⟩,
   ⟨{ (wOwner (wMod 3)) with host := { (wOwner (wMod 3)).host with sessions := [(0, wSess 7), (1, wSess 6)] } }, 0, wSess 7,
     (wPkt 0x11 0 0 1 (toBytes (sessionField 1 1) 2)), 1, wSess 6, wOwn_of (by decide +kernel), by decide +kernel⟩,
   ⟨(wOwner (wMod 3)), 0, wSess 7, (wPkt 0x11 0 0 1 (toBytes (sessionField 1 1) 2)), by refine ⟨wOwn_of (by decide +kernel), by decide +kernel, ?_⟩; intro u h; cases h⟩⟩
theorem test_meets_HandoverReleaseAndLease_2 :
    (∃ (s : State) (i : Nat) (v : Session) (p : Pkt), s.ownerTurn i v 0x12 p ∧ p.body = []) ∧
    (∃ (s : State) (i : Nat) (v : Session) (p : Pkt), s.ownerTurn i v 0x13 p ∧ p.body.length = 4 ∧ 1000 ≤ at' p.body 0 4 ∧ at' p.body 0 4 ≤ 60000) ∧
    (∃ (s : State) (i : Nat) (v : Session) (p : Pkt), s.ownerTurn i v 0x13 p ∧ p.body.length = 4 ∧ 1000 ≤ at' p.body 0 4 ∧ at' p.body 0 4 ≤ 60000) ∧
    (∃ (s : State) (i : Nat) (v : Session) (p : Pkt), s.ownerTurn i v 0x13 p ∧ p.body.length = 4 ∧ (at' p.body 0 4 < 1000 ∨ 60000 < at' p.body 0 4)) ∧
    (∃ (s : State) (i : Nat) (v : Session) (p : Pkt), s.ownerTurn i v 0x13 p ∧ p.body.length = 4 ∧
      (at' p.body 0 4 < 1000 ∨ 60000 < at' p.body 0 4)) :=
  ⟨⟨(wOwner (wMod 3)), 0, wSess 7, (wPkt 0x12 0 0 1 ([])), wOwn_of (by decide +kernel), by decide +kernel⟩,
   ⟨(wOwner (wMod 3)), 0, wSess 7, (wPkt 0x13 0 0 1 (toBytes 1000 4)), wOwn_of (by decide +kernel), by decide +kernel⟩,
   ⟨(wOwner (wMod 3)), 0, wSess 7, (wPkt 0x13 0 0 1 (toBytes 60000 4)), wOwn_of (by decide +kernel), by decide +kernel⟩,
   ⟨(wOwner (wMod 3)), 0, wSess 7, (wPkt 0x13 0 0 1 (toBytes 999 4)), wOwn_of (by decide +kernel), by decide +kernel⟩,
   ⟨(wOwner (wMod 3)), 0, wSess 7, (wPkt 0x13 0 0 1 (toBytes 60001 4)), wOwn_of (by decide +kernel), by decide +kernel⟩⟩
theorem test_meets_ProtectionChangesApply :
    (∃ (s : State) (i : Nat) (v : Session) (p : Pkt), s.host.changes = [] ∧ (∀ d ∈ s.diesInService, s.dieBetweenSteps d = true) ∧
      s.ownerTurn i v 0x20 p ∧ p.body.length = 12 ∧ at' p.body 0 2 < 4096 ∧ at' p.body 2 1 ≤ 1 ∧ at' p.body 3 1 = 0) ∧
    (∃ (s : State) (i : Nat) (v : Session) (p : Pkt), s.host.changes = [] ∧ (∀ d ∈ s.diesInService, s.dieBetweenSteps d = true) ∧
      s.ownerTurn i v 0x21 p ∧ p.body.length = 20 ∧ 0 < at' p.body 0 2 ∧ at' p.body 0 2 < 4096 ∧ at' p.body 2 1 < 8 ∧ at' p.body 3 1 = 0 ∧
      at' p.body 4 2 < 4096 ∧ at' p.body 6 2 = 0 ∧ at' p.body 8 8 % pageBytes = 0 ∧ at' p.body 8 8 < 2 ^ 52) ∧
    (∃ (s : State) (i : Nat) (v : Session) (p : Pkt), s.host.changes = [] ∧ (∀ d ∈ s.diesInService, s.dieBetweenSteps d = true) ∧
      s.ownerTurn i v 0x22 p ∧ p.body.length = 6 ∧ at' p.body 0 1 < 4 ∧ at' p.body 1 1 < 4 ∧ at' p.body 2 1 ≤ 1 ∧ at' p.body 3 1 = 0 ∧
      at' p.body 4 2 < 4096) ∧
    (∃ (s : State) (i : Nat) (v : Session) (p : Pkt), s.host.changes = [] ∧ (∀ d ∈ s.diesInService, s.dieBetweenSteps d = true) ∧
      s.ownerTurn i v 0x23 p ∧ p.body.length = 3 ∧ at' p.body 2 1 < 64) :=
  ⟨⟨(wOwner (wMod 3)), 0, wSess 7, (wPkt 0x20 0 0 1 (toBytes 4095 2 ++ toBytes 1 1 ++ toBytes 0 1 ++ toBytes 5 8)), by decide +kernel,
    by decide +kernel, wOwn_of (by decide +kernel), by decide +kernel⟩,
   ⟨(wOwner (wMod 3)), 0, wSess 7,
     (wPkt 0x21 0 0 1 (toBytes 4095 2 ++ toBytes 7 1 ++ toBytes 0 1 ++ toBytes 3 2 ++ toBytes 0 2 ++ toBytes 0x200000 8 ++ toBytes 9 4)),
     by decide +kernel, by decide +kernel, wOwn_of (by decide +kernel), by decide +kernel⟩,
   ⟨(wOwner (wMod 3)), 0, wSess 7, (wPkt 0x22 0 0 1 (toBytes 3 1 ++ toBytes 3 1 ++ toBytes 1 1 ++ toBytes 0 1 ++ toBytes 9 2)), by decide +kernel,
     by decide +kernel, wOwn_of (by decide +kernel), by decide +kernel⟩,
   ⟨(wOwner (wMod 3)), 0, wSess 7, (wPkt 0x23 0 0 1 (toBytes 65535 2 ++ toBytes 63 1)), by decide +kernel, by decide +kernel,
     wOwn_of (by decide +kernel), by decide +kernel⟩⟩
theorem test_meets_RegisterAndAttestationCommands :
    (∃ (s : State) (i : Nat) (v : Session) (p : Pkt), s.lc ≠ .retired ∧ s.modState ≠ 1 ∧ s.inTurn i v 0x60 p ∧ actBit p = false ∧
      p.body = toBytes (Reg.addr .PWR_CAP 0 .glob 0) 4 ++ toBytes 1 2) ∧
    (∃ (s : State) (i : Nat) (v : Session) (p : Pkt) (x : _), s.lc ≠ .retired ∧ s.modState ≠ 1 ∧ s.ownerTurn i v 0x61 p ∧ x ≤ 60000 ∧
      p.body = toBytes (Reg.addr .PWR_DRAIN_MS 0 .glob 0) 4 ++ toBytes x 4) ∧
    (∃ (s : State) (i : Nat) (v : Session) (p : Pkt), s.lc ≠ .retired ∧ s.modState ≠ 1 ∧ s.inTurn i v 0x62 p ∧ actBit p = false ∧ p.body.length = 32 ∧
      2 ≤ s.modState ∧ s.modState ≤ 5) :=
  ⟨⟨(wHost (wMod 3) (wSess 1)), 0, wSess 1, (wPkt 0x60 0 0 1 (toBytes (Reg.addr .PWR_CAP 0 .glob 0) 4 ++ toBytes 1 2)), by decide +kernel,
    by decide +kernel, wTurn_of (by decide +kernel), by decide +kernel⟩,
   ⟨(wOwner (wMod 3)), 0, wSess 7, (wPkt 0x61 0 0 1 (toBytes (Reg.addr .PWR_DRAIN_MS 0 .glob 0) 4 ++ toBytes 60000 4)), 60000, by decide +kernel,
     by decide +kernel, wOwn_of (by decide +kernel), by decide +kernel⟩,
   ⟨(wHost (wMod 3) (wSess 1)), 0, wSess 1, (wPkt 0x62 0 0 1 (List.replicate 32 9)), by decide +kernel, by decide +kernel,
     wTurn_of (by decide +kernel), by decide +kernel⟩⟩
theorem test_meets_BadPacketsAreTurnedAway :
    (∃ (s : State) (i : Nat) (v : Session) (p : Pkt) (op : Nat) (magic : Nat) (version : Nat), s.arrives p (some i) ∧
      (magic ≠ 0x444D4358 ∨ version ≠ 1)) ∧
    (∃ (s : State) (i : Nat) (v : Session) (p : Pkt) (op : Nat) (magic : Nat) (version : Nat), s.inTurn i v op p ∧ actBit p = false ∧
      knownOp op = false) :=
  ⟨⟨(wHost (wMod 3) (wSess 1)), 0, wSess 1, (wPkt 5 0 0 1 ([])), 5, 0, 1, wArr_of (by decide +kernel), by decide +kernel⟩,
   ⟨(wHost (wMod 3) (wSess 1)), 0, wSess 1, (wPkt 0x99 0 0 1 ([])), 0x99, 0, 1, wTurn_of (by decide +kernel), by decide +kernel⟩⟩
theorem test_meets_SessionsOpenAndClose :
    (∃ (s : State) (i : Nat) (v : Session) (p : Pkt), s.arrives p none ∧ p.session = 0 ∧ p.tag = 0#128 ∧ headerBad p = false ∧ p.body.length = 800 ∧
      s.mayOpen p.qp = true ∧ s.credGood (p.body.take 704) = true ∧ Sm2.onCurve (Sm2.pointOf ((p.body.drop 704).take 64)) = true ∧
      (bitOf (at' p.body 5 1) 0 = true ∨ bitOf (at' p.body 5 1) 1 = true) ∧ s.freeIndex p.qp = some i) ∧
    (∃ (s : State) (i : Nat) (v : Session) (p : Pkt), s.arrives p none ∧ i < 256 ∧ s.session i = some v ∧ v.st = .opening ∧ v.closing = 0 ∧
      p.session = sessionField i v.gen ∧ goodTag v.keyHm 2 p = true ∧ p.seq = 0 ∧ headerBad p = false ∧ p.body = v.confirm ∧ p.body.length = 32 ∧
      s.boundAll < 1024 ∧ s.bulky i = false ∧ s.jr.table = []) ∧
    (∃ (s : State) (i : Nat) (v : Session) (p : Pkt), s.arrives p none ∧ i < 256 ∧ s.session i = some v ∧ v.st = .detached ∧ v.qps = [] ∧
      v.closing = 0 ∧ p.session = sessionField i v.gen ∧ goodTag v.keyHm 3 p = true ∧ p.seq = 0 ∧ headerBad p = false ∧ p.body.length = 8 ∧
      v.attach < at' p.body 0 8 ∧ s.boundAll < 1024 ∧ s.bulky i = false ∧ s.jr.table = []) ∧
    (∃ (s : State) (i : Nat) (v : Session) (p : Pkt), s.inTurn i v 0x04 p ∧ actBit p = false ∧ p.body = toBytes 0 4 ∧ s.openRequests i v.gen = [] ∧
      s.mayFree i v.gen = true ∧ s.jr.queue = []) ∧
    (∃ (s : State) (i : Nat) (v : Session) (p : Pkt), i ≤ 256 ∧ s.session i = some v ∧ v.st = .opening ∧ v.since + 1000000000 ≤ s.now) ∧
    (∃ (s : State) (i : Nat) (v : Session) (p : Pkt), i < 256 ∧ s.session i = some v ∧ v.st = .detached ∧
      v.since + 1000000000 * s.rd F.SESSION_CFG_HOLD_S ≤ s.now) :=
  ⟨⟨wOpenState, 0, wSess 7, wOpen, wArr_of (by decide +kernel), by decide +kernel, by decide +kernel, by decide +kernel, (by decide +kernel),
    by decide +kernel, wCred_good, by decide +kernel⟩,
   ⟨{ wMod 3 with host := { (wMod 3).host with qps := [(5, wQp none)], sessions := [(0, { wSess 3 with st := .opening, qps := [], confirm := List.replicate 32 3 })] } },
     0, { wSess 3 with st := .opening, qps := [], confirm := List.replicate 32 3 }, wPkt 2 0 0 0 (List.replicate 32 3), wArr_of (by decide +kernel),
     by decide +kernel⟩,
   ⟨{ wMod 3 with host := { (wMod 3).host with qps := [(5, wQp none)], sessions := [(0, { wSess 3 with st := .detached, qps := [] })] } }, 0,
     { wSess 3 with st := .detached, qps := [] }, wPkt 3 0 0 0 (toBytes 1 8), wArr_of (by decide +kernel), by decide +kernel⟩,
   ⟨(wHost (wMod 3) (wSess 3)), 0, wSess 3, (wPkt 4 0 0 1 (toBytes 0 4)), wTurn_of (by decide +kernel), by decide +kernel⟩,
   ⟨{ { wMod 3 with host := { (wMod 3).host with qps := [(5, wQp none)], sessions := [(0, { wSess 3 with st := .opening })] } } with now := 1000000000 },
     0, { wSess 3 with st := .opening }, wPkt 3 0 0 0 [], by decide +kernel⟩,
   ⟨{ { wMod 3 with host := { (wMod 3).host with qps := [(5, wQp none)], sessions := [(0, { wSess 3 with st := .detached })] } } with now := 600000000000 },
     0, { wSess 3 with st := .detached }, wPkt 3 0 0 0 [], by decide +kernel⟩⟩
theorem test_meets_ProtocolDeadlines :
    (∃ (s : State) (i : Nat) (u : Nat) (v : Session), s.ownerIndex = some i ∧ s.host.lease = some u ∧ s.host.warnAt ≤ s.now ∧ s.host.warned = false) ∧
    (∃ (s : State) (i : Nat) (u : Nat) (v : Session), s.host.lease = some u ∧ u ≤ s.now ∧ s.flag F.OWNER_STATUS_OWNED = true) ∧
    (∃ (s : State) (i : Nat) (u : Nat) (v : Session) (h : HeldCmd), i ≤ 256 ∧ s.session i = some v ∧
      v.held.find? (fun g => decide (g.pkt.seq = u) && decide (g.since + 100000000 ≤ s.now)) = some h ∧ h.waiters = []) ∧
    (∃ (s : State) (i : Nat) (u : Nat) (v : Session) (c : ProtChange), s.host.changes = [c] ∧ c.waiting = []) :=
  ⟨⟨{ (wOwner (wMod 3)) with host := { (wOwner (wMod 3)).host with lease := some 9 } }, 0, 9, wSess 7, by decide +kernel⟩,
   ⟨{ (wOwner (wMod 3)) with now := 9, host := { (wOwner (wMod 3)).host with lease := some 9 } }, 0, 9, wSess 7, by decide +kernel⟩,
   ⟨{ { wMod 3 with host := { (wMod 3).host with qps := [(5, wQp none)], sessions := [(0, { wSess 3 with held := [{ op := 5, pkt := wPkt 5 0 0 3 [], extra := [], since := 0, waiters := [] }] })] } } with now := 100000000 },
     0, 3, { wSess 3 with held := [{ op := 5, pkt := wPkt 5 0 0 3 [], extra := [], since := 0, waiters := [] }] },
     { op := 5, pkt := wPkt 5 0 0 3 [], extra := [], since := 0, waiters := [] }, by decide +kernel⟩,
   ⟨{ (wOwner (wMod 3)) with host := { (wOwner (wMod 3)).host with changes := [⟨0, 1, 1, [], 0, 1, 0⟩] } }, 0, 9, wSess 7, ⟨0, 1, 1, [], 0, 1, 0⟩,
     by decide +kernel⟩⟩
theorem test_meets_HostStagingCommands :
    (∃ (s : State) (i : Nat) (v : Session) (p : Pkt) (a : _) (n : Nat) (w : _), s.ownerTurn i v 0x33 p ∧
      p.body = toBytes a 8 ++ toBytes n 4 ++ toBytes w 2 ∧ a < 2 ^ 52 ∧ a % pageBytes = 0 ∧ 0 < n ∧ n < 2 ^ 32 ∧ w < 4096 ∧ (∀ k < n,
      (s.pte (pageOf a + k)).isNone = true ∧ inSystem ((pageOf a + k) * pageBytes) = false ∧ inMas ((pageOf a + k) * pageBytes) = true) ∧
      ((s.serial i 0x33 p).mapRange ((List.range n).map (· + pageOf a)) 0 w).2.1 = migOk) ∧
    (∃ (s : State) (i : Nat) (v : Session) (p : Pkt) (a : _) (n : Nat) (len : _), s.ownerTurn i v 0x34 p ∧
      p.body = toBytes a 8 ++ toBytes n 4 ++ toBytes len 2 ∧ a < 2 ^ 52 ∧ a % pageBytes = 0 ∧ 0 < n ∧ n < 2 ^ 32 ∧ 0 < len ∧ len ≤ 32768 ∧ (∀ k < n,
      ∃ e, s.pte (pageOf a + k) = some e ∧ e.isSealed = false ∧ e.freeing = false ∧ e.sealing = false)) ∧
    (∃ (s : State) (i : Nat) (v : Session) (p : Pkt) (d : _) (e : _), s.ownerTurn i v 0x35 p ∧ p.body = toBytes d 1 ∧ d < 16 ∧
      SMap.find? s.mas.drives d = some e ∧ s.rd F.DEEP_DRIVE_STATE d = 2) :=
  ⟨⟨wOwner wNear, 0, wSess 7, (wPkt 0x33 0 0 1 (toBytes 0x40000000 8 ++ toBytes 2 4 ++ toBytes 3 2)), 0x40000000, 2, 3, wOwn_of (by decide +kernel),
    by decide +kernel⟩,
   ⟨{ wOwner wNear with mas := { Mas.reset with pages := [(512, wPte 0 52), (513, wPte 0 53)] } }, 0, wSess 7,
     (wPkt 0x34 0 0 1 (toBytes 0x40000000 8 ++ toBytes 2 4 ++ toBytes 32767 2)), 0x40000000, 2, 32767, wOwn_of (by decide +kernel),
     by decide +kernel⟩,
   ⟨{ (wOwner wNear).wr F.DEEP_DRIVE_STATE 2 3 with mas := { Mas.reset with drives := [(3, wDrive)] } }, 0, wSess 7, (wPkt 0x35 0 0 1 (toBytes 3 1)),
     3, wDrive, wOwn_of (by decide +kernel), by decide +kernel⟩⟩
theorem test_meets_PackageCommandsAct :
    (∃ (s : State) (i : Nat) (v : Session) (p : Pkt) (header : _) (hd : List Byte) (a : _), s.ownerTurn i v 0x30 p ∧ installArgs p.body = some a ∧
      hd = (if bitOf a.flags 2 then s.stagedHeader a.imageBase else header) ∧ s.pkg a.handle = none ∧ s.inst a.handle = none ∧
      s.installRefusal a hd = none ∧ bitOf a.flags 0 = false ∧ s.stagingRoom = false ∧ s.installsRunning < 8) ∧
    (∃ (s : State) (i : Nat) (v : Session) (p : Pkt) (q : _), s.ownerTurn i v 0x31 p ∧ p.body.length = 2 ∧ s.pkg (at' p.body 0 2) = some q ∧
      q.st = .installed ∧ q.switching = none ∧ q.bound = 0) ∧
    (∃ (s : State) (i : Nat) (v : Session) (p : Pkt) (q : _), s.ownerTurn i v 0x32 p ∧ s.noServing = false ∧ p.body.length = 10 ∧ 1 ≤ at' p.body 2 2 ∧
      at' p.body 2 2 ≤ 1023 ∧ s.pkg (at' p.body 0 2) = some q ∧ q.st = .installing ∧ q.switching = none) :=
  ⟨⟨wOwner (wNear.wr F.POOL_MIN_FRAMES 16777215), 0, wSess 7, (wPkt 0x30 0 0 1 (wBlock 1 0)), wHeader, wHeader, (installArgs (wBlock 1 0)).getD ⟨0, 0,
    [], 0, 0, 0, 0, 0, 0, [], []⟩, wOwn_of (by decide +kernel), by decide +kernel⟩,
   ⟨wPkgs (wOwner wNear) [(1, wPkg .installed)], 0, wSess 7, (wPkt 0x31 0 0 1 (toBytes 1 2)), wPkg .installed, wOwn_of (by decide +kernel),
     by decide +kernel⟩,
   ⟨wPkgs (wOwner wNear) [(1, wPkg .installing)], 0, wSess 7, (wPkt 0x32 0 0 1 (toBytes 1 2 ++ toBytes 1023 2 ++ toBytes 4 4 ++ toBytes 0 2)),
     wPkg .installing, wOwn_of (by decide +kernel), by decide +kernel⟩⟩
theorem test_meets_RequestCommandsAct :
    (∃ (s : State) (i : Nat) (v : Session) (p : Pkt) (slot : _), s.tenantTurn i v 0x40 p ∧ s.submitBad i p.body = false ∧
      s.tenantDisabled p.tenant = false ∧ s.jrTight (180 + at' p.body 76 4) = false ∧ s.lowestSlot = some slot ∧ at' p.body 72 4 = 0) ∧
    (∃ (s : State) (i : Nat) (v : Session) (p : Pkt) (slot : _), s.tenantTurn i v 0x40 p ∧ s.submitBad i p.body = false ∧
      s.tenantDisabled p.tenant = false ∧ s.jrTight (180 + at' p.body 76 4) = false ∧ s.lowestSlot = some slot ∧ at' p.body 72 4 ≠ 0) ∧
    (∃ (s : State) (i : Nat) (v : Session) (p : Pkt) (r : _), s.tenantTurn i v 0x41 p ∧ p.body.length = 12 ∧
      s.findLocal (at' p.body 0 2) (at' p.body 2 2) (at' p.body 4 8) = some r ∧ r.tenant = p.tenant ∧ r.st ≠ .ending) ∧
    (∃ (s : State) (i : Nat) (v : Session) (p : Pkt) (x : _), s.tenantTurn i v 0x42 p ∧ p.body.length = 8 ∧ s.pfx p.tenant (at' p.body 0 8) = some x ∧
      0 < x.refs) ∧
    (∃ (s : State) (i : Nat) (v : Session) (p : Pkt) (n : Nat), s.inTurn i v 0x43 p ∧ actBit p = false ∧ p.body.length = 32 ∧ at' p.body 0 2 < 64 ∧
      at' p.body 2 2 = 0 ∧ 64 ≤ at' p.body 4 4 ∧ at' p.body 4 4 ≤ 65536 ∧ 65536 % at' p.body 4 4 = 0 ∧
      SMap.find? s.host.rings (ringKey i (at' p.body 0 2)) = none ∧ (s.serial i 0x43 p).bulky i = false ∧ s.jr.table = []) ∧
    (∃ (s : State) (i : Nat) (v : Session) (p : Pkt) (r : _), s.tenantTurn i v 0x44 p ∧ p.body.length = 12 ∧
      s.findLocal (at' p.body 0 2) (at' p.body 2 2) (at' p.body 4 8) = some r ∧ r.tenant = p.tenant) :=
  ⟨⟨(wPkgs ({ wTenant (wMod 3) with host := { (wTenant (wMod 3)).host with rings := [(ringKey 0 0, wRing)] }, jr := { Jr.reset with free := 8589934592 } } |>.wrFlag F.CLASS_CFG_ENABLED true 0) [(1,
    { wPkg .loaded with tmpl := { Tmpl.empty with inBytes := 2 } })]), 0, wSess 7,
    (wPkt 0x40 8 1 1 (toBytes wDesc 64 ++ toBytes 0 8 ++ toBytes 0 4 ++ toBytes 4 4 ++ List.replicate 4 5)), 0, wTen_of (by decide +kernel),
    by decide +kernel⟩,
   ⟨(wPkgs ({ wTenant (wMod 3) with host := { (wTenant (wMod 3)).host with rings := [(ringKey 0 0, wRing)] }, jr := { Jr.reset with free := 8589934592 } } |>.wrFlag F.CLASS_CFG_ENABLED true 0) [(1,
     { wPkg .loaded with tmpl := { Tmpl.empty with inBytes := 2 } })]), 0, wSess 7,
     (wPkt 0x40 8 1 1 (toBytes wDesc 64 ++ toBytes 4096 8 ++ toBytes 77 4 ++ toBytes 4 4)), 0, wTen_of (by decide +kernel), by decide +kernel⟩,
   ⟨(wReqs (wTenant (wMod 3)) [(0, wReq)]), 0, wSess 7, (wPkt 0x41 8 1 1 (toBytes 0 2 ++ toBytes (sessionField 0 1) 2 ++ toBytes 7 8)), wReq,
     wTen_of (by decide +kernel), by decide +kernel⟩,
   ⟨{ wTenant (wMod 3) with stew := { Stew.reset with prefixes := [(pfxKey 1 9, wPfx)] } }, 0, wSess 7, (wPkt 0x42 8 1 1 (toBytes 9 8)), wPfx,
     wTen_of (by decide +kernel), by decide +kernel⟩,
   ⟨(wOwner (wMod 3)), 0, wSess 7,
     (wPkt 0x43 0 0 1 (toBytes 63 2 ++ toBytes 0 2 ++ toBytes 65536 4 ++ toBytes 1 8 ++ toBytes 2 4 ++ toBytes 3 4 ++ toBytes 4 8)), 0,
     wTurn_of (by decide +kernel), by decide +kernel⟩,
   ⟨(wReqs (wTenant (wMod 3)) [(0, wReq)]), 0, wSess 7, (wPkt 0x44 8 1 1 (toBytes 0 2 ++ toBytes (sessionField 0 1) 2 ++ toBytes 7 8)), wReq,
     wTen_of (by decide +kernel), by decide +kernel⟩⟩
theorem test_meets_DisableAndEnable :
    (∃ (s : State) (i : Nat) (v : Session) (p : Pkt) (id : Nat) (ms : Nat), id < 4096 ∧ s.ownerTurn i v 0x50 p ∧
      p.body = toBytes 0 2 ++ toBytes id 2 ++ toBytes ms 4 ∧ ms ≤ 60000 ∧
      s.stew.disables.find? (fun d => decide (d.kind = .tenant) && decide (d.id = id)) = none) ∧
    (∃ (s : State) (i : Nat) (v : Session) (p : Pkt) (id : Nat) (ms : Nat), id < 4096 ∧ s.ownerTurn i v 0x51 p ∧ p.body = toBytes 0 2 ++ toBytes id 2 ∧
      s.stew.disables.any (fun d => decide (d.kind = .tenant) && decide (d.id = id)) = false) ∧
    (∃ (s : State) (i : Nat) (v : Session) (p : Pkt) (id : Nat) (ms : Nat) (d : _), id < 4096 ∧ s.stew.disables = [d] ∧ d.kind = .tenant ∧ d.id = id ∧
      (∀ x < 4, s.disableOnDie d x = true → x ∈ d.passed) ∧ s.workOf .tenant id = [] ∧ s.modState ≠ 3 ∧ s.boot.drainTo = none) ∧
    (∃ (s : State) (i : Nat) (v : Session) (p : Pkt) (id : Nat) (ms : Nat) (d : _), id < 4096 ∧ s.stew.disables = [d] ∧ d.kind = .tenant ∧ d.id = id ∧
      d.deadline ≤ s.now ∧ s.stew.flights = [] ∧ s.workOf .tenant id = []) :=
  ⟨⟨(wOwner (wMod 3)), 0, wSess 7, (wPkt 0x50 0 0 1 (toBytes 0 2 ++ toBytes 9 2 ++ toBytes 60000 4)), 9, 60000, by decide +kernel,
    wOwn_of (by decide +kernel), by decide +kernel⟩,
   ⟨{ (wOwner (wMod 3)) with stew := { Stew.reset with disabled := [(.tenant, 9)] } }, 0, wSess 7, (wPkt 0x51 0 0 1 (toBytes 0 2 ++ toBytes 9 2)), 9,
     0, by decide +kernel, wOwn_of (by decide +kernel), by decide +kernel⟩,
   ⟨{ wOwner (wMod 2) with stew := { Stew.reset with disables := [({ kind := .tenant, id := 9, retire := false, deadline := 5, since := 0, passed := [0, 1, 2, 3], waiters := [(0, 3)] } : Disable)] } },
     0, wSess 7, (wPkt 0x51 0 0 1 ([])), 9, 0,
     ({ kind := .tenant, id := 9, retire := false, deadline := 5, since := 0, passed := [0, 1, 2, 3], waiters := [(0, 3)] } : Disable),
     by decide +kernel⟩,
   ⟨{ wOwner (wMod 3) with now := 5, stew := { Stew.reset with disables := [({ kind := .tenant, id := 9, retire := false, deadline := 5, since := 0, passed := [], waiters := [(0, 3)] } : Disable)] } },
     0, wSess 7, (wPkt 0x51 0 0 1 ([])), 9, 0,
     ({ kind := .tenant, id := 9, retire := false, deadline := 5, since := 0, passed := [], waiters := [(0, 3)] } : Disable), by decide +kernel⟩⟩
theorem test_meets_TokensAndFinalRecordsAreDelivered :
    (∃ (s : State) (i : Nat) (ring : Nat) (slot : Nat) (r : _) (b : List Byte) (q : _), i < 256 ∧ ring < 64 ∧ slot < 65536 ∧ s.req slot = some r ∧
      r.fetching = true ∧ s.pkg (rqPkg (rqD r)) = some q) ∧
    (∃ (s : State) (i : Nat) (ring : Nat) (slot : Nat) (r : _), i < 256 ∧ ring < 64 ∧ slot < 65536 ∧ s.req slot = some r ∧ r.fetching = true) ∧
    (∃ (s : State) (i : Nat) (ring : Nat) (slot : Nat) (v : _) (g : _) (x : _) (l : List RingTok), i < 256 ∧ ring < 64 ∧ slot < 65536 ∧
      s.session i = some v ∧ v.st = .active ∧ SMap.find? s.host.rings (ringKey i ring) = some g ∧ g.waiting = x :: l ∧ ringFull g = false ∧
      x.origin = none) ∧
    (∃ (s : State) (i : Nat) (ring : Nat) (slot : Nat) (g : _) (n : Nat), i < 256 ∧ ring < 64 ∧ slot < 65536 ∧
      SMap.find? s.host.rings (ringKey i ring) = some g ∧ ringFull g = true) ∧
    (∃ (s : State) (i : Nat) (ring : Nat) (slot : Nat) (r : _) (v : _), i < 256 ∧ ring < 64 ∧ slot < 65536 ∧ s.jActive = true ∧ s.req slot = some r ∧
      s.session r.session = some v ∧ r.finalAcked = true ∧ r.member = none ∧ v.st = .active ∧ v.gen = r.gen ∧ v.closing = 0 ∧
      s.tokenWaits none r.session (rqRing (rqD r)) slot r.sub = false) :=
  ⟨⟨wPkgs (wReqs (wTenant (wMod 3)) [(0, { wReq with fetching := true })]) [(1, wPkg .loaded)], 0, 2, 0, { wReq with fetching := true }, [1],
    wPkg .loaded, by decide +kernel⟩,
   ⟨(wReqs (wTenant (wMod 3)) [(0, { wReq with fetching := true })]), 0, 2, 0, { wReq with fetching := true }, by decide +kernel⟩,
   ⟨({ wHost (wMod 3) (wSess 7) with host := { (wHost (wMod 3) (wSess 7)).host with rings := [(ringKey 0 2, { wRing with waiting := [{ slot := 4, last := true, token := 7, index := 3, subSeq := 7, time := 9, origin := none }] })] } }),
     0, 2, 4, wSess 7, { wRing with waiting := [{ slot := 4, last := true, token := 7, index := 3, subSeq := 7, time := 9, origin := none }] },
     { slot := 4, last := true, token := 7, index := 3, subSeq := 7, time := 9, origin := none }, [], by decide +kernel⟩,
   ⟨({ wHost (wMod 3) (wSess 7) with host := { (wHost (wMod 3) (wSess 7)).host with rings := [(ringKey 0 2, { wRing with produced := 64 })] } }), 0,
     2, 4, { wRing with produced := 64 }, 9, by decide +kernel⟩,
   ⟨((wReqs (wTenant (wMod 3)) [(0, { wReq with finalAcked := true, final := .complete })])).wr F.JOURNAL_STATUS_STATE 3, 0, 2, 0,
     { wReq with finalAcked := true, final := .complete }, wSess 7, by decide +kernel⟩⟩
theorem test_meets_QueuePairsAndCongestion :
    (∃ (s : State) (q : Nat) (port : Nat), q < 4096 ∧ port < 4 ∧ s.dark = false ∧ s.flag F.HOST_PORT_STATUS_LINK_UP port = true ∧ s.qp q = none ∧
      SMap.countIf s.host.qps (fun _ v => v.bound.isNone && !v.error) < 64) ∧
    (∃ (s : State) (q : Nat) (port : Nat) (v : Qp) (i : Nat) (u : Session), q < 4096 ∧ port < 4 ∧ s.qp q = some v ∧ v.error = false ∧
      v.bound = some i ∧ s.session i = some u ∧ u.st = .active ∧ u.qps = [q]) ∧
    (∃ (s : State) (q : Nat) (port : Nat) (v : Qp), q < 4096 ∧ port < 4 ∧ s.qp q = some v ∧ v.error = false ∧
      s.flag F.HOST_PORT_CFG_ECN_EN v.port = true ∧ (v.rate = s.lineRate v.port ∨ v.halved + 50000 ≤ s.now)) ∧
    (∃ (s : State) (q : Nat) (port : Nat) (v : Qp), q < 4096 ∧ port < 4 ∧ s.qp q = some v ∧ s.flag F.HOST_PORT_CFG_ECN_EN v.port = true ∧
      v.rate < s.lineRate v.port ∧ v.raised + 55000 ≤ s.now) ∧
    (∃ (s : State) (q : Nat) (port : Nat), q < 4096 ∧ port < 4 ∧ s.flag F.HOST_PORT_STATUS_LINK_UP port = true ∧
      SMap.find? s.host.paused port = none) ∧
    (∃ (s : State) (q : Nat) (port : Nat) (u : Nat), q < 4096 ∧ port < 4 ∧ SMap.find? s.host.paused port = some (some u) ∧ u + 100000000 ≤ s.now) ∧
    (∃ (s : State) (q : Nat) (port : Nat), q < 4096 ∧ port < 4 ∧ s.flag F.HOST_PORT_STATUS_LINK_UP port = true ∧ s.host.qps = []) ∧
    (∃ (s : State) (q : Nat) (port : Nat) (rate : _), q < 4096 ∧ port < 4 ∧ s.flag F.HOST_PORT_STATUS_LINK_UP port = false ∧
      s.rd F.BOOT_STATUS_STAGE = 7 ∧ s.lc ≠ .factory ∧ 0 < rate ∧ rate ≤ 2 ∧ 0 < s.rd F.HOST_PORT_CFG_SPEED port) :=
  ⟨⟨(((wMod 3).wrFlag F.HOST_PORT_STATUS_LINK_UP true 3).wrFlag F.HOST_PORT_CFG_ECN_EN true 3 |>.wr F.HOST_PORT_STATUS_SPEED_ACT 2 3), 4095, 3,
    by decide +kernel⟩,
   ⟨wHost (wMod 3) (wSess 7), 5, 3, wQp (some 0), 0, wSess 7, by decide +kernel⟩,
   ⟨(((({ wMod 3 with host := { HostSt.reset with qps := [(5, { wQp none with port := 3, rate := 400000 })] } })).wrFlag F.HOST_PORT_STATUS_LINK_UP true 3).wrFlag F.HOST_PORT_CFG_ECN_EN true 3 |>.wr F.HOST_PORT_STATUS_SPEED_ACT 2 3),
     5, 3, { wQp none with port := 3, rate := 400000 }, by decide +kernel⟩,
   ⟨{ (((({ wMod 3 with host := { HostSt.reset with qps := [(5, { wQp none with port := 3 })] } })).wrFlag F.HOST_PORT_STATUS_LINK_UP true 3).wrFlag F.HOST_PORT_CFG_ECN_EN true 3 |>.wr F.HOST_PORT_STATUS_SPEED_ACT 2 3) with now := 55000 },
     5, 3, { wQp none with port := 3 }, by decide +kernel⟩,
   ⟨(((wMod 3).wrFlag F.HOST_PORT_STATUS_LINK_UP true 3).wrFlag F.HOST_PORT_CFG_ECN_EN true 3 |>.wr F.HOST_PORT_STATUS_SPEED_ACT 2 3), 5, 3,
     by decide +kernel⟩,
   ⟨{ wMod 3 with now := 100000000, host := { HostSt.reset with paused := [(3, some 0)] } }, 5, 3, 0, by decide +kernel⟩,
   ⟨(((wMod 3).wrFlag F.HOST_PORT_STATUS_LINK_UP true 3).wrFlag F.HOST_PORT_CFG_ECN_EN true 3 |>.wr F.HOST_PORT_STATUS_SPEED_ACT 2 3), 5, 3,
     by decide +kernel⟩,
   ⟨((wMod 3).wr F.BOOT_STATUS_STAGE 7).wr F.HOST_PORT_CFG_SPEED 2 3, 5, 3, 1, by decide +kernel⟩⟩
theorem test_meets_HostRdmaIsChecked :
    (∃ (s : State) (q : Nat) (rkey : Nat) (a : Nat) (n : Nat) (i : Nat) (k : Qp) (v : Session) (b : List Byte), s.dark = false ∧ s.boot.failAt = none ∧
      s.qp q = some k ∧ k.error = false ∧ k.bound = some i ∧ s.session i = some v ∧ s.rdmaAllowed v true rkey a b.length = true ∧
      s.rangeAccess State.writeAccess a b.length = .ok) ∧
    (∃ (s : State) (q : Nat) (rkey : Nat) (a : Nat) (n : Nat) (i : Nat) (k : Qp) (v : Session), s.dark = false ∧ s.boot.failAt = none ∧
      s.qp q = some k ∧ k.error = false ∧ k.bound = some i ∧ s.session i = some v ∧ s.rdmaAllowed v false rkey a n = true ∧
      s.rangeAccess State.readAccess a n = .ok) ∧
    (∃ (s : State) (q : Nat) (rkey : Nat) (a : Nat) (n : Nat) (i : Nat) (k : Qp) (v : Session) (b : List Byte), s.dark = false ∧ s.boot.failAt = none ∧
      s.qp q = some k ∧ k.error = false ∧ k.bound = some i ∧ s.session i = some v ∧ s.rdmaAllowed v true rkey a b.length = false) :=
  ⟨⟨{ (((((wTenant wNear).wrFlag F.MEM_WINDOW_VALID true 3).wr F.MEM_WINDOW_RKEY 4099 3).wrFlag F.MEM_WINDOW_WRITE true 3).wrFlag F.MEM_WINDOW_READ true 3).wr F.MEM_WINDOW_TENANT 1 3 |>.wr F.MEM_WINDOW_PAGES 1 3 |>.wr F.MEM_WINDOW_BASE 0x40000000 3 with mas := { Mas.reset with pages := [(512, { wPte 0 52 with mwin := 3 })] } },
    5, 4099, 0x40000010, 8, 0, wQp (some 0), wSess 7, [1, 2], by decide +kernel⟩,
   ⟨{ (((((wTenant wNear).wrFlag F.MEM_WINDOW_VALID true 3).wr F.MEM_WINDOW_RKEY 4099 3).wrFlag F.MEM_WINDOW_WRITE true 3).wrFlag F.MEM_WINDOW_READ true 3).wr F.MEM_WINDOW_TENANT 1 3 |>.wr F.MEM_WINDOW_PAGES 1 3 |>.wr F.MEM_WINDOW_BASE 0x40000000 3 with mas := { Mas.reset with pages := [(512, { wPte 0 52 with mwin := 3 })] } },
     5, 4099, 0x40000010, 8, 0, wQp (some 0), wSess 7, by decide +kernel⟩,
   ⟨{ (((((wTenant wNear).wrFlag F.MEM_WINDOW_VALID true 3).wr F.MEM_WINDOW_RKEY 4099 3).wrFlag F.MEM_WINDOW_WRITE true 3).wrFlag F.MEM_WINDOW_READ true 3).wr F.MEM_WINDOW_TENANT 1 3 |>.wr F.MEM_WINDOW_PAGES 1 3 |>.wr F.MEM_WINDOW_BASE 0x40000000 3 with mas := { Mas.reset with pages := [(512, { wPte 0 52 with mwin := 3 })] } },
     5, 4098, 0x40000010, 8, 0, wQp (some 0), wSess 7, [1, 2], by decide +kernel⟩⟩
theorem test_meets_LaneOperationsMapTheirOperands : ∃ (s : State) (die : Nat) (y : Nat) (x : Nat) (c : Nat) (w : Nat) (p : Sys2Proof.Instr × Nat),
    s.inVecWord die y x c w ∧
    opA w < 32 ∧
    opB w < 32 ∧
    opC w < 32 ∧
    opDst w < 32 ∧
    p ∈ laneCommands die y x ∧
    opOpc w = p.2 :=
  ⟨wVec (wOp 32 31 1 2 3 0 2 0), 0, 0, 0, 0, wOp 32 31 1 2 3 0 2 0, (.vadd 0 0 0, 32), wVec_of (by decide +kernel), by decide +kernel,
    by decide +kernel, by decide +kernel, by decide +kernel, by simp [laneCommands], by decide +kernel⟩
theorem test_meets_MovesReductionsAndConversions :
    (∃ (s : State) (die : Nat) (y : Nat) (x : Nat) (c : Nat) (w : Nat), s.inVecWord die y x c w ∧ opA w < 32 ∧ opB w < 32 ∧ opDst w < 32 ∧
      bitOf (opMod w) 1 = false ∧ opOpc w = 0x3D) ∧
    (∃ (s : State) (die : Nat) (y : Nat) (x : Nat) (c : Nat) (w : Nat), s.inVecWord die y x c w ∧ opA w < 32 ∧ opB w < 32 ∧ opDst w < 32 ∧
      bitOf (opMod w) 1 = false ∧ opOpc w = 0x38) ∧
    (∃ (s : State) (die : Nat) (y : Nat) (x : Nat) (c : Nat) (w : Nat), s.inVecWord die y x c w ∧ opA w < 32 ∧ opB w < 32 ∧ opDst w < 32 ∧
      bitOf (opMod w) 1 = false ∧ opOpc w = 0x39) ∧
    (∃ (s : State) (die : Nat) (y : Nat) (x : Nat) (c : Nat) (w : Nat), s.inVecWord die y x c w ∧ opA w < 32 ∧ opB w < 32 ∧ opDst w < 32 ∧
      bitOf (opMod w) 1 = false ∧ opOpc w = 0x36) ∧
    (∃ (s : State) (die : Nat) (y : Nat) (x : Nat) (c : Nat) (w : Nat), s.inVecWord die y x c w ∧ opA w < 32 ∧ opB w < 32 ∧ opDst w < 32 ∧
      bitOf (opMod w) 1 = false ∧ opOpc w = 0x35) ∧
    (∃ (s : State) (die : Nat) (y : Nat) (x : Nat) (c : Nat) (w : Nat), s.inVecWord die y x c w ∧ opA w < 32 ∧ opB w < 32 ∧ opDst w < 32 ∧
      bitOf (opMod w) 1 = false ∧ opOpc w = 0x34) ∧
    (∃ (s : State) (die : Nat) (y : Nat) (x : Nat) (c : Nat) (w : Nat), s.inVecWord die y x c w ∧ opA w < 32 ∧ opB w < 32 ∧ opDst w < 32 ∧
      bitOf (opMod w) 1 = false ∧ opOpc w = 0x34) ∧
    (∃ (s : State) (die : Nat) (y : Nat) (x : Nat) (c : Nat) (w : Nat), s.inVecWord die y x c w ∧ opA w < 32 ∧ opB w < 32 ∧ opDst w < 32 ∧
      bitOf (opMod w) 1 = false ∧ opOpc w = 0x34) :=
  ⟨⟨wVec (wOp 61 31 1 2 0 0 0 0), 0, 0, 0, 0, wOp 61 31 1 2 0 0 0 0, wVec_of (by decide +kernel), by decide +kernel⟩,
   ⟨wVec (wOp 56 31 1 2 0 6 0 0xC3), 0, 0, 0, 0, wOp 56 31 1 2 0 6 0 0xC3, wVec_of (by decide +kernel), by decide +kernel⟩,
   ⟨wVec (wOp 57 31 1 2 0 0 0 1), 0, 0, 0, 0, wOp 57 31 1 2 0 0 0 1, wVec_of (by decide +kernel), by decide +kernel⟩,
   ⟨wVec (wOp 54 31 1 2 0 7 0 16), 0, 0, 0, 0, wOp 54 31 1 2 0 7 0 16, wVec_of (by decide +kernel), by decide +kernel⟩,
   ⟨wVec (wOp 53 31 1 2 0 1 0 0x57), 0, 0, 0, 0, wOp 53 31 1 2 0 1 0 0x57, wVec_of (by decide +kernel), by decide +kernel⟩,
   ⟨wVec (wOp 52 31 1 2 0 0 0 0x11), 0, 0, 0, 0, wOp 52 31 1 2 0 0 0 0x11, wVec_of (by decide +kernel), by decide +kernel⟩,
   ⟨wVec (wOp 52 31 1 2 0 1 0 0x10), 0, 0, 0, 0, wOp 52 31 1 2 0 1 0 0x10, wVec_of (by decide +kernel), by decide +kernel⟩,
   ⟨wVec (wOp 52 31 1 2 0 0 0 0x23), 0, 0, 0, 0, wOp 52 31 1 2 0 0 0 0x23, wVec_of (by decide +kernel), by decide +kernel⟩⟩
theorem test_meets_VectorIterationsTakeAllOrNothing :
    (∃ (s : State) (die : Nat) (y : Nat) (x : Nat) (c : Nat) (w : Nat) (p : Sys2Proof.Instr × Nat), s.inVecWord die y x c w ∧
      p ∈ laneCommands die y x ++ tokenCommands die y x ∧ opOpc w = p.2 ∧ s.vecEval die y x c w (s.tile die y x c).vIter = none) ∧
    (∃ (s : State) (die : Nat) (y : Nat) (x : Nat) (c : Nat) (w : Nat) (p : Sys2Proof.Instr × Nat) (r : VecResult), s.inVecWord die y x c w ∧
      p ∈ laneCommands die y x ++ tokenCommands die y x ∧ opOpc w = p.2 ∧ s.vecEval die y x c w (s.tile die y x c).vIter = some r ∧
      s.dstRoom die y x c r.dst = false) ∧
    (∃ (s : State) (die : Nat) (y : Nat) (x : Nat) (c : Nat) (w : Nat) (p : Sys2Proof.Instr × Nat) (r : VecResult), s.inVecWord die y x c w ∧
      p ∈ laneCommands die y x ++ tokenCommands die y x ∧ opOpc w = p.2 ∧ s.vecEval die y x c w (s.tile die y x c).vIter = some r ∧
      s.dstRoom die y x c r.dst = true) :=
  ⟨⟨wVec (wOp 0x20 31 32 2 3 0 0 0), 0, 0, 0, 0, wOp 0x20 31 32 2 3 0 0 0, (.vadd 0 0 0, 32), wVec_of (by decide +kernel), by simp [laneCommands],
    by decide +kernel⟩,
   ⟨wVec (wOp 0x20 40 1 2 3 0 0 0), 0, 0, 0, 0, wOp 0x20 40 1 2 3 0 0 0, (.vadd 0 0 0, 32),
     ((wVec (wOp 0x20 40 1 2 3 0 0 0)).vecEval 0 0 0 0 (wOp 0x20 40 1 2 3 0 0 0) 0).getD ⟨[], 0, 0, 0, 0, true⟩, wVec_of (by decide +kernel),
     by simp [laneCommands], by decide +kernel⟩,
   ⟨wVec (wOp 0x20 31 1 2 3 0 0 0), 0, 0, 0, 0, wOp 0x20 31 1 2 3 0 0 0, (.vadd 0 0 0, 32),
     ((wVec (wOp 0x20 31 1 2 3 0 0 0)).vecEval 0 0 0 0 (wOp 0x20 31 1 2 3 0 0 0) 0).getD ⟨[], 0, 0, 0, 0, true⟩, wVec_of (by decide +kernel),
     by simp [laneCommands], by decide +kernel⟩⟩
theorem test_meets_MatrixCombineAndSummary :
    (∃ (s : State) (die : Nat) (y : Nat) (x : Nat) (c : Nat) (w : Nat) (g : Geometry) (act : _), s.inMatWord die y x c w g ∧
      (s.tile die y x c).mRows ≠ 0 ∧ g.tokens ≤ (s.tile die y x c).held.length ∧ s.source die y x c (opA w) 32 = some act ∧
      (mEmit w = true → (s.tile die y x c).mChunks ≤ (s.tile die y x c).mChunk + 1 → s.dstRoom die y x c (opDst w) = true)) ∧
    (∃ (s : State) (die : Nat) (y : Nat) (x : Nat) (c : Nat) (w : Nat) (vs : List Tok) (start : Option Tok) (k : _) (d : _), s.inVecWord die y x c w ∧
      opOpc w = 0x3A ∧ (s.tile die y x c).comb = [] ∧ k = (if bitOf (opMod w) 1 then (s.tile die y x c).vIter else 0) ∧ d = (stepSpec (opDst w) k) ∧
      (combPorts (opImm w)).map (fun p => s.source die y x c p 32) = vs.map some ∧ (if opC w = 47 then start = none else start.isSome = true ∧
      s.source die y x c (stepSpec (opC w) k) 32 = start) ∧ s.dstRoom die y x c d = true) ∧
    (∃ (s : State) (die : Nat) (y : Nat) (x : Nat) (c : Nat) (w : Nat) (vs : List Tok) (start : Option Tok) (k : _) (d : _), s.inVecWord die y x c w ∧
      opOpc w = 0x3A ∧ (s.tile die y x c).comb = [] ∧ k = (if bitOf (opMod w) 1 then (s.tile die y x c).vIter else 0) ∧ d = (stepSpec (opDst w) k) ∧
      (combPorts (opImm w)).map (fun p => s.source die y x c p 32) = vs.map some ∧ (if opC w = 47 then start = none else start.isSome = true ∧
      s.source die y x c (stepSpec (opC w) k) 32 = start) ∧ s.dstRoom die y x c d = true) ∧
    (∃ (s : State) (die : Nat) (y : Nat) (x : Nat) (c : Nat) (w : Nat) (vs : List Tok) (start : Option Tok) (k : _) (d : _), s.inVecWord die y x c w ∧
      opOpc w = 0x3A ∧ (s.tile die y x c).comb = [] ∧ k = (if bitOf (opMod w) 1 then (s.tile die y x c).vIter else 0) ∧ d = (stepSpec (opDst w) k) ∧
      (combPorts (opImm w)).map (fun p => s.source die y x c p 32) = vs.map some ∧ (if opC w = 47 then start = none else start.isSome = true ∧
      s.source die y x c (stepSpec (opC w) k) 32 = start) ∧ s.dstRoom die y x c d = true) ∧
    (∃ (s : State) (die : Nat) (y : Nat) (x : Nat) (c : Nat) (w : Nat) (tok : _) (u : _), s.inVecWord die y x c w ∧ opOpc w = 0x3C ∧
      u = (s.tile die y x c) ∧ s.source die y x c (stepSpec (opA w) (if bitOf (opMod w) 2 then u.vIter else 0)) 32 = some tok ∧
      (bitOf (opMod w) 2 = false ∨ u.vCount ≤ u.vIter + 1) ∧ 8 ≤ s.roomAt die (qidOf y x 2 4) c) ∧
    (∃ (s : State) (die : Nat) (y : Nat) (x : Nat) (c : Nat) (w : Nat) (tok : _) (u : _), s.inVecWord die y x c w ∧ opOpc w = 0x3C ∧
      u = (s.tile die y x c) ∧ s.source die y x c (stepSpec (opA w) (if bitOf (opMod w) 2 then u.vIter else 0)) 32 = some tok ∧
      bitOf (opMod w) 2 = true ∧ u.vIter + 1 < u.vCount) ∧
    (∃ (s : State) (die : Nat) (y : Nat) (x : Nat) (c : Nat) (w : Nat) (tok : _) (u : _), s.inVecWord die y x c w ∧ opOpc w = 0x3C ∧
      u = (s.tile die y x c) ∧ s.source die y x c (stepSpec (opA w) (if bitOf (opMod w) 2 then u.vIter else 0)) 32 = some tok ∧
      (bitOf (opMod w) 2 = false ∨ u.vCount ≤ u.vIter + 1) ∧ 8 ≤ s.roomAt die (qidOf y x 2 4) c) ∧
    (∃ (s : State) (die : Nat) (y : Nat) (x : Nat) (c : Nat) (w : Nat) (g : Geometry) (act : _), s.inMatWord die y x c w g ∧
      (s.tile die y x c).mRows ≠ 0 ∧ g.tokens ≤ (s.tile die y x c).held.length ∧ s.source die y x c (opA w) 32 = some act ∧
      (mEmit w = true → (s.tile die y x c).mChunks ≤ (s.tile die y x c).mChunk + 1 → s.dstRoom die y x c (opDst w) = true)) :=
  ⟨⟨(wTile (wOp 1 31 1 0 0 3 2 3)).setTile 0 0 0 0 { TileCtx.empty with mLive := true, mRows := 2, mChunks := 1, held := List.replicate 8 (splat 8 0x39), vregs := [(1, splat 8 0x41)] },
    0, 0, 0, 0, wOp 1 31 1 0 0 3 2 3, ⟨32, 8, 4, .fixed⟩, splat 8 0x41, wMat_of (by decide +kernel), by decide +kernel⟩,
   ⟨(((((wVec (wOp 0x3A 31 0 0 47 0 0 17)).setTile 0 0 0 0 { TileCtx.empty with vLive := true, vCount := 3, mi := [splat 32 0x3FC00001] }).wr F.SW_ROUTE_VALID 1 5 (.tile 0 0 0)).wr F.SW_ROUTE_LOCAL 1 5 (.tile 0 0 0)).setQueue 0 (qidOf 0 0 0 5) 0 { Queue.empty with len := 2, toks := [splat 32 0x40000001] }),
     0, 0, 0, 0, wOp 0x3A 31 0 0 47 0 0 17, [splat 32 0x40000001, splat 32 0x3FC00001], none,
     (if bitOf (opMod (wOp 0x3A 31 0 0 47 0 0 17)) 1 then (((((((wVec (wOp 0x3A 31 0 0 47 0 0 17)).setTile 0 0 0 0 { TileCtx.empty with vLive := true, vCount := 3, mi := [splat 32 0x3FC00001] }).wr F.SW_ROUTE_VALID 1 5 (.tile 0 0 0)).wr F.SW_ROUTE_LOCAL 1 5 (.tile 0 0 0)).setQueue 0 (qidOf 0 0 0 5) 0 { Queue.empty with len := 2, toks := [splat 32 0x40000001] })).tile (0) (0) (0) (0)).vIter else 0),
     (stepSpec (opDst (wOp 0x3A 31 0 0 47 0 0 17)) ((if bitOf (opMod (wOp 0x3A 31 0 0 47 0 0 17)) 1 then (((((((wVec (wOp 0x3A 31 0 0 47 0 0 17)).setTile 0 0 0 0 { TileCtx.empty with vLive := true, vCount := 3, mi := [splat 32 0x3FC00001] }).wr F.SW_ROUTE_VALID 1 5 (.tile 0 0 0)).wr F.SW_ROUTE_LOCAL 1 5 (.tile 0 0 0)).setQueue 0 (qidOf 0 0 0 5) 0 { Queue.empty with len := 2, toks := [splat 32 0x40000001] })).tile (0) (0) (0) (0)).vIter else 0))),
     wVec_of (by decide +kernel), by decide +kernel⟩,
   ⟨(((((wVec (wOp 0x3A 30 0 0 9 0 6 17)).setTile 0 0 0 0 { TileCtx.empty with vLive := true, vCount := 3, vIter := 1, vregs := [(10, splat 32 0x7F800001)], mi := [splat 32 0x3FC00001] }).wr F.SW_ROUTE_VALID 1 5 (.tile 0 0 0)).wr F.SW_ROUTE_LOCAL 1 5 (.tile 0 0 0)).setQueue 0 (qidOf 0 0 0 5) 0 { Queue.empty with len := 2, toks := [splat 32 0x40000001] }),
     0, 0, 0, 0, wOp 0x3A 30 0 0 9 0 6 17, [splat 32 0x40000001, splat 32 0x3FC00001], some (splat 32 0x7F800001),
     (if bitOf (opMod (wOp 0x3A 30 0 0 9 0 6 17)) 1 then (((((((wVec (wOp 0x3A 30 0 0 9 0 6 17)).setTile 0 0 0 0 { TileCtx.empty with vLive := true, vCount := 3, vIter := 1, vregs := [(10, splat 32 0x7F800001)], mi := [splat 32 0x3FC00001] }).wr F.SW_ROUTE_VALID 1 5 (.tile 0 0 0)).wr F.SW_ROUTE_LOCAL 1 5 (.tile 0 0 0)).setQueue 0 (qidOf 0 0 0 5) 0 { Queue.empty with len := 2, toks := [splat 32 0x40000001] })).tile (0) (0) (0) (0)).vIter else 0),
     (stepSpec (opDst (wOp 0x3A 30 0 0 9 0 6 17)) ((if bitOf (opMod (wOp 0x3A 30 0 0 9 0 6 17)) 1 then (((((((wVec (wOp 0x3A 30 0 0 9 0 6 17)).setTile 0 0 0 0 { TileCtx.empty with vLive := true, vCount := 3, vIter := 1, vregs := [(10, splat 32 0x7F800001)], mi := [splat 32 0x3FC00001] }).wr F.SW_ROUTE_VALID 1 5 (.tile 0 0 0)).wr F.SW_ROUTE_LOCAL 1 5 (.tile 0 0 0)).setQueue 0 (qidOf 0 0 0 5) 0 { Queue.empty with len := 2, toks := [splat 32 0x40000001] })).tile (0) (0) (0) (0)).vIter else 0))),
     wVec_of (by decide +kernel), by decide +kernel⟩,
   ⟨((((((wVec (wOp 0x3A 40 0 0 47 0 4 17)).setTile 0 0 0 0 { TileCtx.empty with vLive := true, vCount := 3, mi := [splat 32 0x3FC00001] }).wr F.SW_ROUTE_VALID 1 5 (.tile 0 0 0)).wr F.SW_ROUTE_LOCAL 1 5 (.tile 0 0 0)).setQueue 0 (qidOf 0 0 0 5) 0 { Queue.empty with len := 2, toks := [splat 32 0x40000001] })).setQueue 0 (qidOf 0 0 0 4) 0 { Queue.empty with len := 2 },
     0, 0, 0, 0, wOp 0x3A 40 0 0 47 0 4 17, [splat 32 0x40000001, splat 32 0x3FC00001], none,
     (if bitOf (opMod (wOp 0x3A 40 0 0 47 0 4 17)) 1 then ((((((((wVec (wOp 0x3A 40 0 0 47 0 4 17)).setTile 0 0 0 0 { TileCtx.empty with vLive := true, vCount := 3, mi := [splat 32 0x3FC00001] }).wr F.SW_ROUTE_VALID 1 5 (.tile 0 0 0)).wr F.SW_ROUTE_LOCAL 1 5 (.tile 0 0 0)).setQueue 0 (qidOf 0 0 0 5) 0 { Queue.empty with len := 2, toks := [splat 32 0x40000001] })).setQueue 0 (qidOf 0 0 0 4) 0 { Queue.empty with len := 2 }).tile (0) (0) (0) (0)).vIter else 0),
     (stepSpec (opDst (wOp 0x3A 40 0 0 47 0 4 17)) ((if bitOf (opMod (wOp 0x3A 40 0 0 47 0 4 17)) 1 then ((((((((wVec (wOp 0x3A 40 0 0 47 0 4 17)).setTile 0 0 0 0 { TileCtx.empty with vLive := true, vCount := 3, mi := [splat 32 0x3FC00001] }).wr F.SW_ROUTE_VALID 1 5 (.tile 0 0 0)).wr F.SW_ROUTE_LOCAL 1 5 (.tile 0 0 0)).setQueue 0 (qidOf 0 0 0 5) 0 { Queue.empty with len := 2, toks := [splat 32 0x40000001] })).setQueue 0 (qidOf 0 0 0 4) 0 { Queue.empty with len := 2 }).tile (0) (0) (0) (0)).vIter else 0))),
     wVec_of (by decide +kernel), by decide +kernel⟩,
   ⟨(wVec (wOp 0x3C 0 1 0 0 0 0 0)).setQueue 0 (qidOf 0 0 2 4) 0 { Queue.empty with len := 8 }, 0, 0, 0, 0, wOp 0x3C 0 1 0 0 0 0 0,
     BitVec.ofNat 1024 (2 ^ 1023 / 3),
     (((wVec (wOp 0x3C 0 1 0 0 0 0 0)).setQueue 0 (qidOf 0 0 2 4) 0 { Queue.empty with len := 8 }).tile (0) (0) (0) (0)), wVec_of (by decide +kernel),
     by decide +kernel⟩,
   ⟨((wVec (wOp 0x3C 0 1 0 0 0 4 0)).setQueue 0 (qidOf 0 0 2 4) 0 { Queue.empty with len := 8 }).setTile 0 0 0 0 { TileCtx.empty with vLive := true, vCount := 3, vIter := 1, vsum := some 0x3F800000, vregs := [(2, BitVec.ofNat 1024 (2 ^ 1023 / 3))] },
     0, 0, 0, 0, wOp 0x3C 0 1 0 0 0 4 0, BitVec.ofNat 1024 (2 ^ 1023 / 3),
     ((((wVec (wOp 0x3C 0 1 0 0 0 4 0)).setQueue 0 (qidOf 0 0 2 4) 0 { Queue.empty with len := 8 }).setTile 0 0 0 0 { TileCtx.empty with vLive := true, vCount := 3, vIter := 1, vsum := some 0x3F800000, vregs := [(2, BitVec.ofNat 1024 (2 ^ 1023 / 3))] }).tile (0) (0) (0) (0)),
     wVec_of (by decide +kernel), by decide +kernel⟩,
   ⟨((wVec (wOp 0x3C 0 1 0 0 0 4 0)).setQueue 0 (qidOf 0 0 2 4) 0 { Queue.empty with len := 4, extLen := 9, setup := false, armed := true }).setTile 0 0 0 0 { TileCtx.empty with vLive := true, vCount := 3, vIter := 2, vsum := some 0x3F800000, vregs := [(3, BitVec.ofNat 1024 (2 ^ 1023 / 3))] },
     0, 0, 0, 0, wOp 0x3C 0 1 0 0 0 4 0, BitVec.ofNat 1024 (2 ^ 1023 / 3),
     ((((wVec (wOp 0x3C 0 1 0 0 0 4 0)).setQueue 0 (qidOf 0 0 2 4) 0 { Queue.empty with len := 4, extLen := 9, setup := false, armed := true }).setTile 0 0 0 0 { TileCtx.empty with vLive := true, vCount := 3, vIter := 2, vsum := some 0x3F800000, vregs := [(3, BitVec.ofNat 1024 (2 ^ 1023 / 3))] }).tile (0) (0) (0) (0)),
     wVec_of (by decide +kernel), by decide +kernel⟩,
   ⟨((wTile (wOp 1 40 1 0 0 3 2 3)).setTile 0 0 0 0 { TileCtx.empty with mLive := true, mRows := 2, mChunks := 1, held := List.replicate 8 (splat 8 0x39), vregs := [(1, splat 8 0x41)] }).setQueue 0 (qidOf 0 0 0 4) 0 { Queue.empty with len := 2 },
     0, 0, 0, 0, wOp 1 40 1 0 0 3 2 3, ⟨32, 8, 4, .fixed⟩, splat 8 0x41, wMat_of (by decide +kernel), by decide +kernel⟩⟩
theorem test_meets_ParametersAreAdoptedAtTheWrap :
    (∃ (s : State) (die : Nat) (y : Nat) (x : Nat) (c : Nat), die < 4 ∧ y < 24 ∧ x < s.cols ∧ isCompute y x = true ∧ c < 4 ∧ s.dieShut die = false ∧
      s.flag F.TILE_PARAM_CTRL_PENDING c (.tile die y x) = false ∧ (s.nextWord die y x c 0 false).isSome = true ∧
      (s.nextWord die y x c 0 true).isSome = true) ∧
    (∃ (s : State) (die : Nat) (y : Nat) (x : Nat) (c : Nat), die < 4 ∧ y < 24 ∧ x < s.cols ∧ isCompute y x = true ∧ c < 4 ∧ s.dieShut die = false ∧
      s.flag F.TILE_PARAM_CTRL_PENDING c (.tile die y x) = false ∧ s.nextWord die y x c 0 false = none ∧ s.nextWord die y x c 0 true = none) ∧
    (∃ (s : State) (die : Nat) (y : Nat) (x : Nat) (c : Nat), die < 4 ∧ y < 24 ∧ x < s.cols ∧ isCompute y x = true ∧ c < 4 ∧ s.active die = some c ∧
      s.flag F.TILE_PARAM_CTRL_PENDING c (.tile die y x) = true ∧ (s.tile die y x c).vEnd = true ∧ (s.tile die y x c).mEnd = true) :=
  ⟨⟨(((wTile 0x20).wr F.TILE_PROG_WORD 1 1 (.tile 0 0 0)).wr F.TILE_PARAM_VALUE 7 2 (.tile 0 0 0)).wr F.DIE_STATUS_CD0_PSTATE 0, 0, 0, 0, 0,
    by decide +kernel⟩,
   ⟨(((wMod 3).wrFlag F.DIE_ACTIVE_NONE false 0 (.die 0)).wr F.TILE_PARAM_VALUE 7 2 (.tile 0 0 0)).wr F.DIE_STATUS_CD0_PSTATE 0, 0, 0, 0, 0,
     by decide +kernel⟩,
   ⟨(((((wTile 0x20).wr F.TILE_PROG_WORD 1 1 (.tile 0 0 0)).wr F.TILE_PARAM_VALUE 7 2 (.tile 0 0 0))).wrFlag F.TILE_PARAM_CTRL_PENDING true 0 (.tile 0 0 0)).setTile 0 0 0 0 { TileCtx.empty with vEnd := true, mEnd := true },
     0, 0, 0, 0, by decide +kernel⟩⟩
theorem test_meets_QueuesMoveTokensInOrder :
    (∃ (s : State) (die : Nat) (q : Nat) (c : Nat) (tok : _) (r : _), die < 4 ∧ q < 65536 ∧ c < 4 ∧ s.active die = some c ∧
      (24 ≤ qidY q → SMap.find? s.arr.feed (queueKey die q c) = none) ∧ qidNet q ≠ 2 ∧ s.headTok die q c = some tok ∧ s.dests die q c = [.queue r] ∧
      r ≠ q ∧ r < 65536 ∧ 0 < s.roomAt die r c ∧ qToExt (s.queue die r c) = false) ∧
    (∃ (s : State) (die : Nat) (q : Nat) (c : Nat) (tok : _) (r : _), die < 4 ∧ q < 65536 ∧ c < 4 ∧ s.active die = some c ∧
      (24 ≤ qidY q → SMap.find? s.arr.feed (queueKey die q c) = none) ∧ qidNet q ≠ 2 ∧ s.headTok die q c = some tok ∧ s.dests die q c = [.queue r] ∧
      r ≠ q ∧ r < 65536 ∧ s.roomAt die r c = 0) ∧
    (∃ (s : State) (die : Nat) (q : Nat) (c : Nat), die < 4 ∧ q < 65536 ∧ c < 4 ∧ 0 < (s.queue die q c).freed) ∧
    (∃ (s : State) (die : Nat) (q : Nat) (c : Nat), die < 4 ∧ q < 65536 ∧ c < 4 ∧ s.active die = some c ∧ (s.queue die q c).setup = true) ∧
    (∃ (s : State) (die : Nat) (q : Nat) (c : Nat) (tok : _) (rest : _), die < 4 ∧ q < 65536 ∧ c < 4 ∧ s.active die = some c ∧
      (s.queue die q c).toks.length < (s.queue die q c).len ∧ (s.queue die q c).ext = tok :: rest) ∧
    (∃ (s : State) (die : Nat) (q : Nat) (c : Nat), die < 4 ∧ q < 65536 ∧ c < 4 ∧ (s.queue die q c).setup = false) :=
  ⟨⟨((((wTile 0).wr F.SW_ROUTE_VALID 1 4 (.tile 0 0 0)).wr F.SW_ROUTE_OUT_MASK 2 4 (.tile 0 0 0)).setQueue 0 (qidOf 0 0 0 4) 0 { Queue.empty with len := 2, toks := [5, 6] }).setQueue 0 (qidOf 0 1 0 3) 0 { Queue.empty with len := 2, toks := [9] },
    0, qidOf 0 0 0 4, 0, 5, qidOf 0 1 0 3, by decide +kernel⟩,
   ⟨(((wTile 0).wr F.SW_ROUTE_VALID 1 4 (.tile 0 0 0)).wr F.SW_ROUTE_OUT_MASK 2 4 (.tile 0 0 0)).setQueue 0 (qidOf 0 0 0 4) 0 { Queue.empty with len := 2, toks := [5, 6] },
     0, qidOf 0 0 0 4, 0, 5, qidOf 0 1 0 3, by decide +kernel⟩,
   ⟨(wTile 0).setQueue 0 (qidOf 0 0 0 4) 0 { Queue.empty with len := 2, freed := 1 }, 0, qidOf 0 0 0 4, 0, by decide +kernel⟩,
   ⟨(wTile 0).setQueue 0 (qidOf 0 0 0 4) 0 { Queue.empty with len := 1, extLen := 1, toks := [5], setup := true }, 0, qidOf 0 0 0 4, 0,
     by decide +kernel⟩,
   ⟨(wTile 0).setQueue 0 (qidOf 0 0 0 4) 0 { Queue.empty with len := 1, extLen := 1, ext := [5], armed := true }, 0, qidOf 0 0 0 4, 0, 5, [],
     by decide +kernel⟩,
   ⟨wTile 0, 0, qidOf 0 0 0 4, 0, by decide +kernel⟩⟩
theorem test_meets_MulticastsFireWhole :
    (∃ (s : State) (die : Nat) (q : Nat) (c : Nat) (tok : Tok), die < 4 ∧ q < 65536 ∧ c < 4 ∧ s.active die = some c ∧ qidY q < 24 ∧ qidX q < s.cols ∧
      s.headTok die q c = some tok ∧ (qidNet q = 2 → ∀ d ∈ s.dests die q c, s.ctlMay die q c (s.dirOf q d) d = true) ∧ 0 < (s.dests die q c).length ∧
      (∀ d ∈ s.dests die q c, s.hasRoom die c d = true)) ∧
    (∃ (s : State) (die : Nat) (q : Nat) (c : Nat) (tok : Tok) (f : Dest), die < 4 ∧ q < 65536 ∧ c < 4 ∧ s.active die = some c ∧ qidY q < 24 ∧
      qidX q < s.cols ∧ s.headTok die q c = some tok ∧ (qidNet q = 2 → ∀ d ∈ s.dests die q c, s.ctlMay die q c (s.dirOf q d) d = true) ∧
      f ∈ s.dests die q c ∧ s.hasRoom die c f = false) ∧
    (∃ (s : State) (die : Nat) (q : Nat) (c : Nat) (tok : Tok) (f : Dest), die < 4 ∧ q < 65536 ∧ c < 4 ∧ s.active die = some c ∧ qidY q < 24 ∧
      qidX q < s.cols ∧ s.headTok die q c = some tok ∧ (qidNet q = 2 → ∀ d ∈ s.dests die q c, s.ctlMay die q c (s.dirOf q d) d = true) ∧
      f ∈ s.dests die q c ∧ s.hasRoom die c f = false) :=
  ⟨⟨(((((wTile 0).wr F.SW_ROUTE_VALID 1 4 (.tile 0 0 0)).wr F.SW_ROUTE_OUT_MASK 7 4 (.tile 0 0 0)).setQueue 0 (qidOf 0 0 0 4) 0 { Queue.empty with len := 2, toks := [5, 6] }).setQueue 0 (qidOf 0 1 0 3) 0 { Queue.empty with len := 2, toks := [9] }).setQueue 0 (qidOf 1 0 0 0) 0 { Queue.empty with len := 1, toks := [9], extLen := 1, ext := [7], armed := true },
    0, qidOf 0 0 0 4, 0, 5, by decide +kernel⟩,
   ⟨((((wTile 0).wr F.SW_ROUTE_VALID 1 4 (.tile 0 0 0)).wr F.SW_ROUTE_OUT_MASK 7 4 (.tile 0 0 0)).setQueue 0 (qidOf 0 0 0 4) 0 { Queue.empty with len := 2, toks := [5, 6] }).setQueue 0 (qidOf 0 1 0 3) 0 { Queue.empty with len := 2, toks := [9] },
     0, qidOf 0 0 0 4, 0, 5, .queue (qidOf 1 0 0 0), by decide +kernel⟩,
   ⟨((((wTile 0).wr F.SW_ROUTE_VALID 1 4 (.tile 0 0 0)).wr F.SW_ROUTE_OUT_MASK 7 4 (.tile 0 0 0)).setQueue 0 (qidOf 0 0 0 4) 0 { Queue.empty with len := 2, toks := [5, 6] }).setQueue 0 (qidOf 1 0 0 0) 0 { Queue.empty with len := 1, toks := [9], extLen := 1, ext := [7], armed := true },
     0, qidOf 0 0 0 4, 0, 5, .queue (qidOf 0 1 0 3), by decide +kernel⟩⟩
theorem test_meets_ContextsLoadAndSwitch_1 :
    (∃ (s : State) (die : Nat) (st : Nat) (i : Nat) (n : Nat) (img : CtxImage), s.atHead die st i n ∧ eOpc n = 0x01 ∧ eResetOnly n = false ∧
      s.rangeAccess State.readAccess (eD n 8) (eW n 16) = .ok ∧ s.loadState die (eSlot n) (eDiscard n) false = true ∧
      s.loadOk die (eSlot n) img = true) ∧
    (∃ (s : State) (die : Nat) (st : Nat) (i : Nat) (n : Nat) (img : CtxImage), s.atHead die st i n ∧ eOpc n = 0x01 ∧ eResetOnly n = false ∧
      s.rangeAccess State.readAccess (eD n 8) (eW n 16) = .ok ∧
      (s.loadState die (eSlot n) (eDiscard n) false = false ∨ s.loadOk die (eSlot n) img = false)) ∧
    (∃ (s : State) (die : Nat) (st : Nat) (i : Nat) (n : Nat) (c : _) (img : _) (dropped : _) (f : _), die < 4 ∧ c < 4 ∧ st < 64 ∧
      SMap.find? s.arr.loads (dieCtx die c) = some (img, st, i, dropped) ∧ (s.stream die st).flying = [f] ∧ f.entry = i ∧
      s.rangeAccess State.readAccess f.a f.len ≠ .wait) ∧
    (∃ (s : State) (die : Nat) (st : Nat) (i : Nat) (n : Nat), s.atHead die st i n ∧ eOpc n = 0x01 ∧ eResetOnly n = true ∧ eDiscard n = true ∧
      (s.slotState die (eSlot n) = 2 ∨ s.slotState die (eSlot n) = 4)) ∧
    (∃ (s : State) (die : Nat) (st : Nat) (i : Nat) (n : Nat), s.atHead die st i n ∧ eOpc n = 0x01 ∧ eResetOnly n = true ∧ eDiscard n = false) ∧
    (∃ (s : State) (die : Nat) (st : Nat) (i : Nat) (n : Nat), s.atHead die st i n ∧ eOpc n = 0x02 ∧ s.slotState die (eSlot n) = 4) :=
  ⟨⟨wEntry (wPages wNear [(512, wPte 0 52)]) (0x01 + 2 ^ 16 + 2 ^ 64 * 0x40000000 + 2 ^ 128 * 4096), 0, 3, 0,
    0x01 + 2 ^ 16 + 2 ^ 64 * 0x40000000 + 2 ^ 128 * 4096, wImg, wAtHead_of (by decide +kernel), by decide +kernel⟩,
   ⟨wSlot (wEntry (wPages wNear [(512, wPte 0 52)]) (0x01 + 2 ^ 16 + 2 ^ 64 * 0x40000000 + 2 ^ 128 * 4096)) 3, 0, 3, 0,
     0x01 + 2 ^ 16 + 2 ^ 64 * 0x40000000 + 2 ^ 128 * 4096, wImg, wAtHead_of (by decide +kernel), by decide +kernel⟩,
   ⟨wFlying ({ wNear with arr := { Arr.reset with loads := [(dieCtx 0 1, (wImg, 3, 0, 4))] } }) (wFly 0 (0x01 + 2 ^ 16 + 2 ^ 64 * 0x40000000 + 2 ^ 128 * 4096) .load 0x40000000 0 4096),
     0, 3, 0, 0, 1, wImg, 4, wFly 0 (0x01 + 2 ^ 16 + 2 ^ 64 * 0x40000000 + 2 ^ 128 * 4096) .load 0x40000000 0 4096, by decide +kernel⟩,
   ⟨wSlot (wEntry wNear (0x01 + 2 ^ 11 + 2 ^ 10 + 2 ^ 16)) 4, 0, 3, 0, 0x01 + 2 ^ 11 + 2 ^ 10 + 2 ^ 16, wAtHead_of (by decide +kernel),
     by decide +kernel⟩,
   ⟨wSlot (wEntry wNear (0x01 + 2 ^ 11 + 2 ^ 16)) 4, 0, 3, 0, 0x01 + 2 ^ 11 + 2 ^ 16, wAtHead_of (by decide +kernel), by decide +kernel⟩,
   ⟨wSlot (wEntry wNear (0x02 + 2 ^ 16)) 4, 0, 3, 0, 0x02 + 2 ^ 16, wAtHead_of (by decide +kernel), by decide +kernel⟩⟩
theorem test_meets_ContextsLoadAndSwitch_2 :
    (∃ (s : State) (die : Nat) (st : Nat) (i : Nat) (n : Nat), s.atHead die st i n ∧ eOpc n = 0x02 ∧ s.slotState die (eSlot n) ≠ 4 ∧
      (s.slotState die (eSlot n) ≠ 3 ∨ s.selectsOf die ≠ [])) ∧
    (∃ (s : State) (die : Nat) (st : Nat) (i : Nat) (n : Nat) (p : PendingSelect) (rest : List PendingSelect), die < 4 ∧ s.selectsOf die = p :: rest ∧
      p.slot < 4 ∧ p.stream < 64 ∧ (s.slotState die p.slot = 1 ∨ s.slotState die p.slot = 5)) ∧
    (∃ (s : State) (die : Nat) (st : Nat) (i : Nat) (n : Nat) (p : PendingSelect) (rest : List PendingSelect), die < 4 ∧ s.selectsOf die = p :: rest ∧
      p.slot < 4 ∧ p.stream < 64 ∧ s.slotState die p.slot = 2) ∧
    (∃ (s : State) (die : Nat) (st : Nat) (i : Nat) (n : Nat), s.atHead die st i n ∧ eOpc n = 0x02 ∧ s.slotState die (eSlot n) = 3 ∧
      s.selectsOf die = []) ∧
    (∃ (s : State) (die : Nat) (st : Nat) (i : Nat) (n : Nat) (p : PendingSelect) (rest : List PendingSelect), die < 4 ∧ s.selectsOf die = p :: rest ∧
      p.slot < 4 ∧ p.stream < 64 ∧ s.slotState die p.slot = 0) ∧
    (∃ (s : State) (die : Nat) (st : Nat) (i : Nat) (n : Nat) (p : PendingSelect) (rest : List PendingSelect), die < 4 ∧ s.selectsOf die = p :: rest ∧
      p.slot < 4 ∧ p.stream < 64 ∧ s.slotState die p.slot = 4) :=
  ⟨⟨wSlot (wEntry ({ wNear with arr := { Arr.reset with selects := [(0, [⟨5, 6, 2⟩])] } }) (0x02 + 2 ^ 16)) 2, 0, 3, 0, 0x02 + 2 ^ 16,
    wAtHead_of (by decide +kernel), by decide +kernel⟩,
   ⟨wSlot ({ wNear with arr := { Arr.reset with selects := [(0, [⟨5, 6, 1⟩])] } }) 5, 0, 3, 0, 0, ⟨5, 6, 1⟩, [], by decide +kernel⟩,
   ⟨wSlot ({ (wNear.wrFlag F.DIE_ACTIVE_NONE false 0 (.die 0)).wr F.CTX_SLOT_STATE 3 0 (.die 0) with arr := { Arr.reset with selects := [(0, [⟨5, 6, 1⟩])] } }) 2,
     0, 3, 0, 0, ⟨5, 6, 1⟩, [], by decide +kernel⟩,
   ⟨wSlot (wEntry wNear (0x02 + 2 ^ 16)) 3, 0, 3, 0, 0x02 + 2 ^ 16, wAtHead_of (by decide +kernel), by decide +kernel⟩,
   ⟨wSlot ({ wNear with arr := { Arr.reset with selects := [(0, [⟨5, 6, 1⟩])] } }) 0, 0, 3, 0, 0, ⟨5, 6, 1⟩, [], by decide +kernel⟩,
   ⟨wSlot ({ wNear with arr := { Arr.reset with selects := [(0, [⟨5, 6, 1⟩])] } }) 4, 0, 3, 0, 0, ⟨5, 6, 1⟩, [], by decide +kernel⟩⟩
theorem test_meets_FreezesAndScans_1 :
    (∃ (s : State) (die : Nat) (c : Nat), die < 4 ∧ c < 4 ∧ s.active die = some c ∧
      2 ^ s.rd F.WDOG_CFG_LIMIT_LOG2 0 (.die die) ≤ s.rd F.WDOG_COUNT_COUNT c (.die die)) ∧
    (∃ (s : State) (die : Nat) (c : Nat), die < 4 ∧ c < 4 ∧ s.active die = some c ∧
      s.rd F.WDOG_COUNT_COUNT c (.die die) < 2 ^ s.rd F.WDOG_CFG_LIMIT_LOG2 0 (.die die)) ∧
    (∃ (s : State) (die : Nat) (c : Nat) (cause : _) (replica : Option Nat), die < 4 ∧ c < 4 ∧
      s.arr.messages.find? (fun m => decide (m.1 = die)) = some (die, c, cause) ∧ s.slotState die c = 4 ∧ s.stepIn die (some c) = []) ∧
    (∃ (s : State) (die : Nat) (c : Nat) (st : Nat) (i : Nat) (n : Nat), die < 4 ∧ c < 4 ∧ s.atHead die st i n ∧ eOpc n = 0x03 ∧
      SMap.find? s.arr.scans die = none ∧ eB n 8 = 0 ∧ s.routerBusy die (eSlot n) = false ∧
      (s.slotState die (eSlot n) = 2 ∨ s.slotState die (eSlot n) = 4)) ∧
    (∃ (s : State) (die : Nat) (c : Nat) (st : Nat) (i : Nat) (n : Nat), die < 4 ∧ c < 4 ∧ s.atHead die st i n ∧ eOpc n = 0x03 ∧
      SMap.find? s.arr.scans die = none ∧ eB n 8 = 0 ∧ s.routerBusy die (eSlot n) = false ∧ s.slotState die (eSlot n) ≠ 2 ∧
      s.slotState die (eSlot n) ≠ 4) ∧
    (∃ (s : State) (die : Nat) (c : Nat) (j : _), die < 4 ∧ c < 4 ∧ SMap.find? s.arr.scans die = some j ∧ j.moved = true ∧ j.slot = c ∧
      j.stream < 64) ∧
    (∃ (s : State) (die : Nat) (c : Nat) (cause : _) (replica : Option Nat) (h : Nat) (fl : Flight), die < 4 ∧ c < 4 ∧
      s.arr.messages.find? (fun m => decide (m.1 = die)) = some (die, c, cause) ∧ s.slotState die c = 4 ∧ s.stepIn die (some c) = [(h, fl)] ∧
      cause = 1 ∧ fl.replayed = false) ∧
    (∃ (s : State) (die : Nat) (c : Nat) (cause : _) (replica : Option Nat) (h : Nat) (fl : Flight) (slot : Nat) (k : Nat) (r : Req), die < 4 ∧ c < 4 ∧
      s.arr.messages.find? (fun m => decide (m.1 = die)) = some (die, c, cause) ∧ s.slotState die c = 4 ∧ s.stepIn die (some c) = [(h, fl)] ∧
      fl.rows = [(slot, k)] ∧ s.req slot = some r ∧ r.st ≠ .ending ∧ r.member = none ∧ (cause = 1 ∧ fl.replayed = true ∨ cause = 2)) :=
  ⟨⟨(((wTile 0).setQueue 0 (qidOf 0 0 0 4) 0 { Queue.empty with len := 1, toks := [5], waiting := true }).wr F.WDOG_COUNT_COUNT 65536 0 (.die 0)), 0,
    0, by decide +kernel⟩,
   ⟨wTile 0, 0, 0, by decide +kernel⟩,
   ⟨wSlot ({ wNear with arr := { Arr.reset with messages := [(0, 1, 2)] } }) 4, 0, 1, 2, none, by decide +kernel⟩,
   ⟨wSlot (wEntry wNear (0x03 + 2 ^ 16 + 2 ^ 128 * 0x40000000)) 4, 0, 0, 3, 0, 0x03 + 2 ^ 16 + 2 ^ 128 * 0x40000000, by decide +kernel,
     by decide +kernel, wAtHead_of (by decide +kernel), by decide +kernel⟩,
   ⟨wSlot (wEntry wNear (0x03 + 2 ^ 16 + 2 ^ 128 * 0x40000000)) 3, 0, 0, 3, 0, 0x03 + 2 ^ 16 + 2 ^ 128 * 0x40000000, by decide +kernel,
     by decide +kernel, wAtHead_of (by decide +kernel), by decide +kernel⟩,
   ⟨wSlot (wScan wNear (wJob true true)) 5, 0, 1, wJob true true, by decide +kernel⟩,
   ⟨wSlot (wPkgs ({ wNear with arr := { Arr.reset with messages := [(0, 1, 1)] }, stew := { Stew.reset with reqs := [(0, wReq)], flights := [(1, [{ rows := [(0, 3)], key := 0, since := 0, stage := 0, replayed := false, stepped := false, commits := [], drops := [] }])] } }) [(1,
     { wPkg .loaded with slots := [(0, 1)], tmpl := { Tmpl.empty with dies := [0] } })]) 4, 0, 1, 1, none, 1,
     { rows := [(0, 3)], key := 0, since := 0, stage := 0, replayed := false, stepped := false, commits := [], drops := [] }, by decide +kernel⟩,
   ⟨wSlot (wPkgs ({ wNear with arr := { Arr.reset with messages := [(0, 1, 1)] }, stew := { Stew.reset with reqs := [(0, wReq)], flights := [(1, [{ rows := [(0, 3)], key := 0, since := 0, stage := 0, replayed := true, stepped := false, commits := [], drops := [] }])] } }) [(1,
     { wPkg .loaded with slots := [(0, 1)], tmpl := { Tmpl.empty with dies := [0] } })]) 4, 0, 1, 1, none, 1,
     { rows := [(0, 3)], key := 0, since := 0, stage := 0, replayed := true, stepped := false, commits := [], drops := [] }, 0, 3, wReq,
     by decide +kernel⟩⟩
theorem test_meets_FreezesAndScans_2 :
    (∃ (s : State) (die : Nat) (c : Nat) (cause : _) (replica : Option Nat) (h : Nat) (fl : Flight) (slot : Nat) (k : Nat) (r : Req), die < 4 ∧ c < 4 ∧
      s.arr.messages.find? (fun m => decide (m.1 = die)) = some (die, c, cause) ∧ s.slotState die c = 4 ∧ s.stepIn die (some c) = [(h, fl)] ∧
      fl.rows = [(slot, k)] ∧ s.req slot = some r ∧ r.st ≠ .ending ∧ r.member = none ∧ (cause = 1 ∧ fl.replayed = true ∨ cause = 2)) ∧
    (∃ (s : State) (die : Nat) (c : Nat) (st : Nat) (i : Nat) (n : Nat) (img : _), die < 4 ∧ c < 4 ∧ s.atHead die st i n ∧ eOpc n = 0x03 ∧
      SMap.find? s.arr.scans die = none ∧ eB n 8 = 1 ∧ s.rangeAccess State.readAccess (eD n 16) (max 64 (s.masNat (eD n 16 + 16) 8)) = .ok ∧
      img = (s.masBytes (eD n 16) (s.masNat (eD n 16 + 16) 8)) ∧ s.scanInOk die (eSlot n) (eDiscard n) img = true) ∧
    (∃ (s : State) (die : Nat) (c : Nat) (st : Nat) (i : Nat) (n : Nat) (img : _), die < 4 ∧ c < 4 ∧ s.atHead die st i n ∧ eOpc n = 0x03 ∧
      SMap.find? s.arr.scans die = none ∧ eB n 8 = 1 ∧ s.rangeAccess State.readAccess (eD n 16) (max 64 (s.masNat (eD n 16 + 16) 8)) = .ok ∧
      img = (s.masBytes (eD n 16) (s.masNat (eD n 16 + 16) 8)) ∧ s.scanInOk die (eSlot n) (eDiscard n) img = false) ∧
    (∃ (s : State) (die : Nat) (c : Nat) (st : Nat) (i : Nat) (n : Nat) (img : _), die < 4 ∧ c < 4 ∧ s.atHead die st i n ∧ eOpc n = 0x03 ∧
      SMap.find? s.arr.scans die = none ∧ eB n 8 = 1 ∧ s.rangeAccess State.readAccess (eD n 16) (max 64 (s.masNat (eD n 16 + 16) 8)) = .ok ∧
      img = (s.masBytes (eD n 16) (s.masNat (eD n 16 + 16) 8)) ∧ s.scanInOk die (eSlot n) (eDiscard n) img = false) ∧
    (∃ (s : State) (die : Nat) (c : Nat) (j : ScanJob) (im : _), die < 4 ∧ c < 4 ∧ SMap.find? s.arr.scans die = some j ∧ j.moved = false ∧
      j.isIn = false ∧ im = (s.scanImage die j.slot j.sram) ∧ s.rangeAccess State.writeAccess j.addr im.length = .ok) ∧
    (∃ (s : State) (die : Nat) (c : Nat) (j : ScanJob) (im : _), die < 4 ∧ c < 4 ∧ SMap.find? s.arr.scans die = some j ∧ j.moved = false ∧
      j.isIn = false ∧ im = (s.scanImage die j.slot j.sram) ∧ s.rangeAccess State.writeAccess j.addr im.length ≠ .ok) ∧
    (∃ (s : State) (die : Nat) (c : Nat) (j : ScanJob), die < 4 ∧ c < 4 ∧ SMap.find? s.arr.scans die = some j ∧ j.moved = false ∧ j.isIn = false) ∧
    (∃ (s : State) (die : Nat) (c : Nat) (j : ScanJob), die < 4 ∧ c < 4 ∧ SMap.find? s.arr.scans die = some j ∧ j.moved = false ∧ j.isIn = true ∧
      j.slot = c) :=
  ⟨⟨wSlot (wPkgs ({ wNear with arr := { Arr.reset with messages := [(0, 1, 2)] }, stew := { Stew.reset with reqs := [(0, wReq)], flights := [(1, [{ rows := [(0, 3)], key := 0, since := 0, stage := 0, replayed := false, stepped := false, commits := [], drops := [] }])] } }) [(1,
    { wPkg .loaded with slots := [(0, 1)], tmpl := { Tmpl.empty with dies := [0] } })]) 4, 0, 1, 2, none, 1,
    { rows := [(0, 3)], key := 0, since := 0, stage := 0, replayed := false, stepped := false, commits := [], drops := [] }, 0, 3, wReq,
    by decide +kernel⟩,
   ⟨wSlot (wEntry { wPages wNear [(512, wPte 0 52)] with mas := { (wPages wNear [(512, wPte 0 52)]).mas with mem := wHdrMem } } (0x03 + 2 ^ 16 + 2 ^ 64 + 2 ^ 128 * 0x40000000)) 2,
     0, 0, 3, 0, 0x03 + 2 ^ 16 + 2 ^ 64 + 2 ^ 128 * 0x40000000,
     ((wSlot (wEntry { wPages wNear [(512, wPte 0 52)] with mas := { (wPages wNear [(512, wPte 0 52)]).mas with mem := wHdrMem } } (0x03 + 2 ^ 16 + 2 ^ 64 + 2 ^ 128 * 0x40000000)) 2).masBytes (eD (0x03 + 2 ^ 16 + 2 ^ 64 + 2 ^ 128 * 0x40000000) 16) ((wSlot (wEntry { wPages wNear [(512, wPte 0 52)] with mas := { (wPages wNear [(512, wPte 0 52)]).mas with mem := wHdrMem } } (0x03 + 2 ^ 16 + 2 ^ 64 + 2 ^ 128 * 0x40000000)) 2).masNat (eD (0x03 + 2 ^ 16 + 2 ^ 64 + 2 ^ 128 * 0x40000000) 16 + 16) 8)),
     by decide +kernel, by decide +kernel, wAtHead_of (by decide +kernel), by decide +kernel⟩,
   ⟨wSlot (wEntry { wPages wNear [(512, wPte 0 52)] with mas := { (wPages wNear [(512, wPte 0 52)]).mas with mem := wHdrMem } } (0x03 + 2 ^ 16 + 2 ^ 64 + 2 ^ 128 * 0x40000000)) 4,
     0, 0, 3, 0, 0x03 + 2 ^ 16 + 2 ^ 64 + 2 ^ 128 * 0x40000000,
     ((wSlot (wEntry { wPages wNear [(512, wPte 0 52)] with mas := { (wPages wNear [(512, wPte 0 52)]).mas with mem := wHdrMem } } (0x03 + 2 ^ 16 + 2 ^ 64 + 2 ^ 128 * 0x40000000)) 4).masBytes (eD (0x03 + 2 ^ 16 + 2 ^ 64 + 2 ^ 128 * 0x40000000) 16) ((wSlot (wEntry { wPages wNear [(512, wPte 0 52)] with mas := { (wPages wNear [(512, wPte 0 52)]).mas with mem := wHdrMem } } (0x03 + 2 ^ 16 + 2 ^ 64 + 2 ^ 128 * 0x40000000)) 4).masNat (eD (0x03 + 2 ^ 16 + 2 ^ 64 + 2 ^ 128 * 0x40000000) 16 + 16) 8)),
     by decide +kernel, by decide +kernel, wAtHead_of (by decide +kernel), by decide +kernel⟩,
   ⟨wSlot (wEntry { wPages wNear [(512, wPte 0 52)] with mas := { (wPages wNear [(512, wPte 0 52)]).mas with mem := [] } } (0x03 + 2 ^ 16 + 2 ^ 64 + 2 ^ 128 * 0x40000000)) 2,
     0, 0, 3, 0, 0x03 + 2 ^ 16 + 2 ^ 64 + 2 ^ 128 * 0x40000000,
     ((wSlot (wEntry { wPages wNear [(512, wPte 0 52)] with mas := { (wPages wNear [(512, wPte 0 52)]).mas with mem := [] } } (0x03 + 2 ^ 16 + 2 ^ 64 + 2 ^ 128 * 0x40000000)) 2).masBytes (eD (0x03 + 2 ^ 16 + 2 ^ 64 + 2 ^ 128 * 0x40000000) 16) ((wSlot (wEntry { wPages wNear [(512, wPte 0 52)] with mas := { (wPages wNear [(512, wPte 0 52)]).mas with mem := [] } } (0x03 + 2 ^ 16 + 2 ^ 64 + 2 ^ 128 * 0x40000000)) 2).masNat (eD (0x03 + 2 ^ 16 + 2 ^ 64 + 2 ^ 128 * 0x40000000) 16 + 16) 8)),
     by decide +kernel, by decide +kernel, wAtHead_of (by decide +kernel), by decide +kernel⟩,
   ⟨wRoomy, 0, 1, wJob false false, ((wRoomy).scanImage (0) (wJob false false).slot (wJob false false).sram), by exact ⟨by decide, by decide, by decide +kernel, (by decide), by decide, rfl, wRoomy_room⟩⟩,
   ⟨wRoomless, 0, 1, wJob false false, ((wRoomless).scanImage (0) (wJob false false).slot (wJob false false).sram), by exact ⟨by decide, by decide, by decide +kernel, (by decide), by decide, rfl, wRoomless_room⟩⟩,
   ⟨wRoomless, 0, 1, wJob false false, by decide +kernel⟩,
   ⟨wSlot (wScan { wPages wNear [(512, wPte 0 52)] with mas := { (wPages wNear [(512, wPte 0 52)]).mas with mem := wHdrMem } } { wJob true false with bytes := 64 }) 5,
     0, 1, { wJob true false with bytes := 64 }, by decide +kernel⟩⟩
theorem test_meets_MemoryTilesRunTheirDescriptors_1 :
    (∃ (s : State) (die : Nat) (y : Nat) (x : Nat) (a : Nat) (c : Nat) (n : Nat) (bounds : _) (fits : _), die < 4 ∧ y < 24 ∧ x < s.cols ∧
      isCompute y x = false ∧ a < 4 ∧ s.active die = some c ∧ n = s.descOf die y x c a (s.ag die y x c a).desc ∧ (s.ag die y x c a).running = false ∧
      (s.ag die y x c a).finished = false ∧ 1 ≤ dMode n ∧ dMode n ≤ 5 ∧ (∀ w ∈ boundWords n, inRegion (s.region die y x c) w (w + 3) = true ∧
      s.prefetching die y x w 4 = false) ∧ (∀ d < 4, 0 < s.boundOf die y x n d ∧ s.boundOf die y x n d < 2 ^ 24) ∧
      bounds = ((List.range 4).map (s.boundOf die y x n)) ∧ fits = (inRegion (s.region die y x c) (nestRange n bounds).1 (nestRange n bounds).2) ∧
      (s.takeWait die y x c n).isSome = true ∧ (4 ≤ dMode n ∨ fits = true ∧ (dMode n = 3 ∨ ∀ e ∈ s.hosted die y x c, nestInExt n bounds e = false))) ∧
    (∃ (s : State) (die : Nat) (y : Nat) (x : Nat) (a : Nat) (c : Nat) (n : Nat) (bounds : _) (fits : _), die < 4 ∧ y < 24 ∧ x < s.cols ∧
      isCompute y x = false ∧ a < 4 ∧ s.active die = some c ∧ n = s.descOf die y x c a (s.ag die y x c a).desc ∧ (s.ag die y x c a).running = false ∧
      (s.ag die y x c a).finished = false ∧ 1 ≤ dMode n ∧ dMode n ≤ 5 ∧ (∀ w ∈ boundWords n, inRegion (s.region die y x c) w (w + 3) = true ∧
      s.prefetching die y x w 4 = false) ∧ (∀ d < 4, 0 < s.boundOf die y x n d ∧ s.boundOf die y x n d < 2 ^ 24) ∧
      bounds = ((List.range 4).map (s.boundOf die y x n)) ∧ fits = (inRegion (s.region die y x c) (nestRange n bounds).1 (nestRange n bounds).2) ∧
      (s.takeWait die y x c n).isSome = true ∧ dMode n ≤ 3 ∧ fits = false) ∧
    (∃ (s : State) (die : Nat) (y : Nat) (x : Nat) (a : Nat) (c : Nat) (n : Nat) (at0 : _), die < 4 ∧ y < 24 ∧ x < s.cols ∧ isCompute y x = false ∧
      a < 4 ∧ s.active die = some c ∧ n = s.descOf die y x c a (s.ag die y x c a).desc ∧ (s.ag die y x c a).running = true ∧
      at0 = (nestAddr n (s.ag die y x c a).index) ∧ dMode n = 1 ∧ 0 < s.roomAt die (qidOf y x (dNet n) (4 + dPort n)) c ∧
      qToExt (s.queue die (qidOf y x (dNet n) (4 + dPort n)) c) = false ∧ s.prefetching die y x at0 (dWidth n) = false) ∧
    (∃ (s : State) (die : Nat) (y : Nat) (x : Nat) (a : Nat) (c : Nat) (n : Nat) (q : _) (tok : Tok), die < 4 ∧ y < 24 ∧ x < s.cols ∧
      isCompute y x = false ∧ a < 4 ∧ s.active die = some c ∧ n = s.descOf die y x c a (s.ag die y x c a).desc ∧ (s.ag die y x c a).running = true ∧
      dMode n = 2 ∧ s.portQueue die y x c (dNet n) (dPort n) = some q ∧ s.headTok die q c = some tok) ∧
    (∃ (s : State) (die : Nat) (y : Nat) (x : Nat) (a : Nat) (c : Nat) (n : Nat), die < 4 ∧ y < 24 ∧ x < s.cols ∧ isCompute y x = false ∧ a < 4 ∧
      s.active die = some c ∧ n = s.descOf die y x c a (s.ag die y x c a).desc ∧ (s.ag die y x c a).running = true ∧ dMode n = 3) :=
  ⟨⟨wMt (wAgWord 1 0 0 3968 0 0), 0, 0, 1, 1, 0, wAgWord 1 0 0 3968 0 0,
    ((List.range 4).map ((wMt (wAgWord 1 0 0 3968 0 0)).boundOf (0) (0) (1) (wAgWord 1 0 0 3968 0 0))),
    (inRegion ((wMt (wAgWord 1 0 0 3968 0 0)).region (0) (0) (1) (0)) (nestRange (wAgWord 1 0 0 3968 0 0) (((List.range 4).map ((wMt (wAgWord 1 0 0 3968 0 0)).boundOf (0) (0) (1) (wAgWord 1 0 0 3968 0 0))))).1 (nestRange (wAgWord 1 0 0 3968 0 0) (((List.range 4).map ((wMt (wAgWord 1 0 0 3968 0 0)).boundOf (0) (0) (1) (wAgWord 1 0 0 3968 0 0))))).2),
    by decide +kernel⟩,
   ⟨wMt (wAgWord 1 0 0 3969 0 0), 0, 0, 1, 1, 0, wAgWord 1 0 0 3969 0 0,
     ((List.range 4).map ((wMt (wAgWord 1 0 0 3969 0 0)).boundOf (0) (0) (1) (wAgWord 1 0 0 3969 0 0))),
     (inRegion ((wMt (wAgWord 1 0 0 3969 0 0)).region (0) (0) (1) (0)) (nestRange (wAgWord 1 0 0 3969 0 0) (((List.range 4).map ((wMt (wAgWord 1 0 0 3969 0 0)).boundOf (0) (0) (1) (wAgWord 1 0 0 3969 0 0))))).1 (nestRange (wAgWord 1 0 0 3969 0 0) (((List.range 4).map ((wMt (wAgWord 1 0 0 3969 0 0)).boundOf (0) (0) (1) (wAgWord 1 0 0 3969 0 0))))).2),
     by decide +kernel⟩,
   ⟨(wAg (wMt (wAgWord 1 0 0 128 0 0)) true false).setQueue 0 (qidOf 0 1 0 4) 0 { Queue.empty with len := 2 }, 0, 0, 1, 1, 0, wAgWord 1 0 0 128 0 0,
     (nestAddr (wAgWord 1 0 0 128 0 0) (((wAg (wMt (wAgWord 1 0 0 128 0 0)) true false).setQueue 0 (qidOf 0 1 0 4) 0 { Queue.empty with len := 2 }).ag (0) (0) (1) (0) (1)).index),
     by decide +kernel⟩,
   ⟨wMtPort (wAg (wMt (wAgWord 2 0 0 128 0 0)) true false) 0 [7, 8], 0, 0, 1, 1, 0, wAgWord 2 0 0 128 0 0, qidOf 0 1 0 5, 7, by decide +kernel⟩,
   ⟨wAg (wMt (wAgWord 3 0 0 128 0 77)) true false, 0, 0, 1, 1, 0, wAgWord 3 0 0 128 0 77, by decide +kernel⟩⟩
theorem test_meets_MemoryTilesRunTheirDescriptors_2 :
    (∃ (s : State) (die : Nat) (y : Nat) (x : Nat) (a : Nat) (c : Nat) (n : Nat) (plane : _) (q : _) (tq : _) (row : _) (t0 : _) (t1 : _) (rest : _) (off : _),
      die < 4 ∧ y < 24 ∧ x < s.cols ∧ isCompute y x = false ∧ a < 4 ∧ s.active die = some c ∧ n = s.descOf die y x c a (s.ag die y x c a).desc ∧
      (s.ag die y x c a).running = true ∧ dMode n = (if plane then 5 else 4) ∧ s.portQueue die y x c 0 (dPort n) = some q ∧
      s.portQueue die y x c 1 (b2n (bitOf (dByte n 52) 5)) = some tq ∧ s.headTok die q c = some row ∧ (s.queue die tq c).toks = t0 :: t1 :: rest ∧
      s.scatterTarget die y x c n (lane t0 32 0 + 2 ^ 32 * lane t1 32 0) plane = .inl off ∧ s.prefetching die y x off 128 = false) ∧
    (∃ (s : State) (die : Nat) (y : Nat) (x : Nat) (a : Nat) (c : Nat) (n : Nat), die < 4 ∧ y < 24 ∧ x < s.cols ∧ isCompute y x = false ∧ a < 4 ∧
      s.active die = some c ∧ n = s.descOf die y x c a (s.ag die y x c a).desc ∧ (s.ag die y x c a).finished = true ∧ dSignal n = true ∧
      s.rd (evFld a) c (.tile die y x) = 255) ∧
    (∃ (s : State) (die : Nat) (y : Nat) (x : Nat) (a : Nat) (c : Nat) (n : Nat), die < 4 ∧ y < 24 ∧ x < s.cols ∧ isCompute y x = false ∧ a < 4 ∧
      s.active die = some c ∧ n = s.descOf die y x c a (s.ag die y x c a).desc ∧ (s.ag die y x c a).finished = true ∧ dSignal n = true ∧
      s.rd (evFld a) c (.tile die y x) < 255) ∧
    (∃ (s : State) (die : Nat) (y : Nat) (x : Nat) (a : Nat) (c : Nat) (n : Nat), die < 4 ∧ y < 24 ∧ x < s.cols ∧ isCompute y x = false ∧ a < 4 ∧
      s.active die = some c ∧ n = s.descOf die y x c a (s.ag die y x c a).desc ∧ (s.ag die y x c a).running = false ∧
      (s.ag die y x c a).finished = false ∧ 1 ≤ dMode n ∧ dMode n ≤ 5 ∧ (∀ w ∈ boundWords n, inRegion (s.region die y x c) w (w + 3) = true ∧
      s.prefetching die y x w 4 = false) ∧ (∀ d < 4, 0 < s.boundOf die y x n d ∧ s.boundOf die y x n d < 2 ^ 24) ∧ s.takeWait die y x c n = none) ∧
    (∃ (s : State) (die : Nat) (y : Nat) (x : Nat) (a : Nat) (c : Nat) (n : Nat), die < 4 ∧ y < 24 ∧ x < s.cols ∧ isCompute y x = false ∧ a < 4 ∧
      s.active die = some c ∧ n = s.descOf die y x c a (s.ag die y x c a).desc ∧ (s.ag die y x c a).finished = true ∧ dSignal n = false) :=
  ⟨⟨((wMtPort (wMtPort (wAg (wMt (wAgWord 4 0 0 0 0 2048)) true false) 0 [splat 32 0x40000001]) 1 [wTag0, 0,
    7]).sramWrite 0 0 1 2050 1 1).sramWrite 0 0 1 2056 1 4, 0, 0, 1, 1, 0, wAgWord 4 0 0 0 0 2048, false, qidOf 0 1 0 5, qidOf 0 1 1 5,
    splat 32 0x40000001, wTag0, 0, [7], 0, by decide +kernel⟩,
   ⟨(wAg (wMt (wAgWord 1 0 0 0 32 0)) false true).wr (evFld 1) 255 0 (.tile 0 0 1), 0, 0, 1, 1, 0, wAgWord 1 0 0 0 32 0, by decide +kernel⟩,
   ⟨(wAg (wMt (wAgWord 1 0 0 0 32 0)) false true).wr (evFld 1) 254 0 (.tile 0 0 1), 0, 0, 1, 1, 0, wAgWord 1 0 0 0 32 0, by decide +kernel⟩,
   ⟨wMt (wAgWord 1 0 0 128 65536 0), 0, 0, 1, 1, 0, wAgWord 1 0 0 128 65536 0, by decide +kernel⟩,
   ⟨wAg (wMt (wAgWord 1 0 0 0 0 0)) false true, 0, 0, 1, 1, 0, wAgWord 1 0 0 0 0 0, by decide +kernel⟩⟩
theorem test_meets_AgentsReadAndWrite :
    (∃ (s : State) (die : Nat) (k : Nat) (a : Nat) (n : Nat) (who : Asker), die < 4 ∧ k < 10 ∧ s.takesFrom none who ∧
      s.rangeAccess State.readAccess a n = .ok) ∧
    (∃ (s : State) (die : Nat) (k : Nat) (a : Nat) (n : Nat) (who : Asker), die < 4 ∧ k < 10 ∧ s.rangeAccess State.readAccess a n = .wait) ∧
    (∃ (s : State) (die : Nat) (k : Nat) (a : Nat) (n : Nat) (who : Asker), die < 4 ∧ k < 10 ∧ s.rangeAccess State.readAccess a n = .fault) ∧
    (∃ (s : State) (die : Nat) (k : Nat) (a : Nat) (n : Nat) (who : Asker) (data : List Byte), die < 4 ∧ k < 10 ∧
      s.rangeAccess State.writeAccess a data.length = .ok) ∧
    (∃ (s : State) (die : Nat) (k : Nat) (a : Nat) (n : Nat) (who : Asker) (data : List Byte), die < 4 ∧ k < 10 ∧
      s.rangeAccess State.writeAccess a data.length ≠ .ok) ∧
    (∃ (s : State) (die : Nat) (k : Nat) (a : Nat) (n : Nat) (who : Asker) (r : HeldRead), die < 4 ∧ k < 10 ∧ s.arr.heldReads = [r] ∧ r.die = die ∧
      r.agent = k ∧ s.takesFrom r.via r.asker ∧ s.rangeAccess State.readAccess r.addr r.len = .ok) ∧
    (∃ (s : State) (die : Nat) (k : Nat) (a : Nat) (n : Nat) (who : Asker) (r : HeldRead), die < 4 ∧ k < 10 ∧ s.arr.heldReads = [r] ∧ r.die = die ∧
      r.agent = k ∧ s.rangeAccess State.readAccess r.addr r.len = .fault) ∧
    (∃ (s : State) (die : Nat) (k : Nat) (a : Nat) (n : Nat) (who : Asker) (r : HeldRead), die < 4 ∧ k < 10 ∧ s.arr.heldReads = [r] ∧ r.die = die ∧
      r.agent = k ∧ s.rangeAccess State.readAccess r.addr r.len = .wait) :=
  ⟨⟨wPages wNear [(512, wPte 6 52), (513, { wPte 0 0 with near := false, bulk := true })], 0, 9, 0x401FFFF0, 16, .otherDie 3, by decide +kernel,
    by decide +kernel, trivial, by decide +kernel⟩,
   ⟨wPages wNear [(512, wPte 6 52), (513, { wPte 0 0 with near := false, bulk := true })], 0, 9, 0x401FFFF0, 17, .otherDie 3, by decide +kernel⟩,
   ⟨wPages wNear [(512, wPte 6 52), (513, { wPte 0 0 with near := false, bulk := true })], 0, 9, 0x403FFFF0, 17, .otherDie 3, by decide +kernel⟩,
   ⟨wPages wNear [(512, wPte 6 52), (513, { wPte 0 0 with near := false, bulk := true })], 0, 9, 0x401FFFF0, 16, .otherDie 3, [1, 2],
     by decide +kernel⟩,
   ⟨wPages wNear [(512, wPte 6 52), (513, { wPte 0 0 with near := false, bulk := true })], 0, 9, 0x403FFFFF, 16, .otherDie 3, [1, 2],
     by decide +kernel⟩,
   ⟨{ wPages wNear [(512, wPte 6 52), (513, { wPte 0 0 with near := false, bulk := true })] with arr := { Arr.reset with heldReads := [{ die := 0, agent := 9, via := none, addr := 0x40000000, len := 64, asker := .otherDie 3 }] } },
     0, 9, 0x401FFFF0, 16, .otherDie 3, { die := 0, agent := 9, via := none, addr := 0x40000000, len := 64, asker := .otherDie 3 }, by decide +kernel,
     by decide +kernel, by decide +kernel, (by decide +kernel), by decide +kernel, trivial, by decide +kernel⟩,
   ⟨{ wPages wNear [(512, wPte 6 52), (513, { wPte 0 0 with near := false, bulk := true })] with arr := { Arr.reset with heldReads := [{ die := 0, agent := 9, via := none, addr := 0x40400000, len := 64, asker := .otherDie 3 }] } },
     0, 9, 0x401FFFF0, 16, .otherDie 3, { die := 0, agent := 9, via := none, addr := 0x40400000, len := 64, asker := .otherDie 3 },
     by decide +kernel⟩,
   ⟨{ wPages wNear [(512, wPte 6 52), (513, { wPte 0 0 with near := false, bulk := true })] with arr := { Arr.reset with heldReads := [{ die := 0, agent := 9, via := none, addr := 0x40200000, len := 64, asker := .otherDie 3 }] } },
     0, 9, 0x401FFFF0, 16, .otherDie 3, { die := 0, agent := 9, via := none, addr := 0x40200000, len := 64, asker := .otherDie 3 },
     by decide +kernel⟩⟩
theorem test_meets_WeightCacheServesLines_1 :
    (∃ (s : State) (die : Nat) (strip : Nat) (a : Nat) (n : Nat) (who : Asker) (k : _) (p : _) (w : _), die < 4 ∧ strip < 2 ∧
      k = (wcKey die strip (lineOf a)) ∧ s.pte (pageOf a) = some p ∧ p.isSealed = true ∧ s.rd F.WC_CFG_ENABLE 0 (.die die) = 1 ∧ 0 < n ∧
      a % 512 + n ≤ 512 ∧ s.readAccess (lineOf a) ≠ .fault ∧ (s.wcSet k).find? (fun v => decide (v.line = lineOf a)) = some w ∧ w.filling = false ∧
      s.takesFrom (some strip) who) ∧
    (∃ (s : State) (die : Nat) (strip : Nat) (a : Nat) (n : Nat) (who : Asker) (k : _) (p : _) (w : _), die < 4 ∧ strip < 2 ∧
      k = (wcKey die strip (lineOf a)) ∧ s.pte (pageOf a) = some p ∧ p.isSealed = true ∧ s.rd F.WC_CFG_ENABLE 0 (.die die) = 1 ∧ 0 < n ∧
      a % 512 + n ≤ 512 ∧ s.readAccess (lineOf a) ≠ .fault ∧ (s.wcSet k).find? (fun v => decide (v.line = lineOf a)) = some w ∧ w.filling = true) ∧
    (∃ (s : State) (die : Nat) (strip : Nat) (a : Nat) (n : Nat) (who : Asker) (k : _) (p : _) (l : List WcLine), die < 4 ∧ strip < 2 ∧
      k = (wcKey die strip (lineOf a)) ∧ s.pte (pageOf a) = some p ∧ p.isSealed = true ∧ s.rd F.WC_CFG_ENABLE 0 (.die die) = 1 ∧ 0 < n ∧
      a % 512 + n ≤ 512 ∧ s.readAccess (lineOf a) ≠ .fault ∧ (s.wcSet k).find? (fun v => decide (v.line = lineOf a)) = none ∧
      wcRoom (s.wcSet k) = some l) ∧
    (∃ (s : State) (die : Nat) (strip : Nat) (a : Nat) (n : Nat) (who : Asker) (k : _) (p : _), die < 4 ∧ strip < 2 ∧
      k = (wcKey die strip (lineOf a)) ∧ s.pte (pageOf a) = some p ∧ p.isSealed = true ∧ s.rd F.WC_CFG_ENABLE 0 (.die die) = 1 ∧ 0 < n ∧
      a % 512 + n ≤ 512 ∧ s.readAccess (lineOf a) ≠ .fault ∧ (s.wcSet k).find? (fun v => decide (v.line = lineOf a)) = none ∧
      wcRoom (s.wcSet k) = none) ∧
    (∃ (s : State) (die : Nat) (strip : Nat) (a : Nat) (n : Nat) (who : Asker), die < 4 ∧ strip < 2 ∧ (s.rd F.WC_CFG_ENABLE 0 (.die die) = 0 ∨ (∀ p,
      s.pte (pageOf a) = some p → p.isSealed = false))) :=
  ⟨⟨wCache wNear [wLine false 0], 0, 1, 0x40000210, 16, .otherDie 3, (wcKey (0) (1) (lineOf (0x40000210))), { wPte 0 52 with isSealed := true },
    wLine false 0, by decide +kernel, by decide +kernel, by decide +kernel, (by decide +kernel), by decide +kernel, by decide +kernel,
    by decide +kernel, (by decide +kernel), by decide +kernel, by decide +kernel, by decide +kernel, trivial⟩,
   ⟨wCache wNear [wLine true 0], 0, 1, 0x40000210, 16, .otherDie 3, (wcKey (0) (1) (lineOf (0x40000210))), { wPte 0 52 with isSealed := true },
     wLine true 0, by decide +kernel⟩,
   ⟨wCache wNear [], 0, 1, 0x40000210, 16, .otherDie 3, (wcKey (0) (1) (lineOf (0x40000210))), { wPte 0 52 with isSealed := true }, [],
     by decide +kernel⟩,
   ⟨wCache wNear ((List.range 16).map (fun k => { wLine false 1 with line := 0x40000200 + 65536 * 64 * (k + 1) })), 0, 1, 0x40000210, 16, .otherDie 3,
     (wcKey (0) (1) (lineOf (0x40000210))), { wPte 0 52 with isSealed := true }, by decide +kernel⟩,
   ⟨wPages (wNear.wr F.WC_CFG_ENABLE 0 0 (.die 0)) [(512, wPte 0 52)], 0, 1, 0x40000210, 16, .otherDie 3, by decide +kernel⟩⟩
theorem test_meets_WeightCacheServesLines_2 :
    (∃ (s : State) (die : Nat) (strip : Nat) (a : Nat) (n : Nat) (who : Asker) (k : _) (w : _), die < 4 ∧ strip < 2 ∧
      k = (wcKey die strip (lineOf a)) ∧ s.wcSet k = [w] ∧ w.line = lineOf a ∧ w.filling = true ∧ s.arr.wcWait = [] ∧ s.readAccess (lineOf a) = .ok ∧
      (∀ v ∈ w.waiters, s.takesFrom (some strip) v.1)) ∧
    (∃ (s : State) (die : Nat) (strip : Nat) (a : Nat) (n : Nat) (who : Asker), die < 4 ∧ strip < 2 ∧ s.dieShut die = false) ∧
    (∃ (s : State) (die : Nat) (strip : Nat) (a : Nat) (n : Nat) (who : Asker) (p : _), die < 4 ∧ strip < 2 ∧ s.pte (pageOf a) = some p ∧
      p.isSealed = true ∧ s.rd F.WC_CFG_ENABLE 0 (.die die) = 1 ∧ 0 < n ∧ a % 512 + n ≤ 512 ∧ s.readAccess (lineOf a) = .fault) ∧
    (∃ (s : State) (die : Nat) (strip : Nat) (a : Nat) (n : Nat) (who : Asker) (k : _) (w : _), die < 4 ∧ strip < 2 ∧
      k = (wcKey die strip (lineOf a)) ∧ s.wcSet k = [w] ∧ w.line = lineOf a ∧ w.filling = true ∧ s.arr.wcWait = [] ∧
      s.readAccess (lineOf a) = .fault) ∧
    (∃ (s : State) (die : Nat) (strip : Nat) (a : Nat) (n : Nat) (who : Asker) (k : _) (w : _), die < 4 ∧ strip < 2 ∧
      k = (wcKey die strip (lineOf a)) ∧ s.wcSet k = [w] ∧ w.line = lineOf a ∧ w.filling = true ∧ s.arr.wcWait = [] ∧
      s.readAccess (lineOf a) = .wait) :=
  ⟨⟨wCache wNear [{ wLine true 0 with waiters := [(.otherDie 3, 0x40000210, 16)] }], 0, 1, 0x40000210, 16, .otherDie 3, (wcKey (0) (1) (lineOf (0x40000210))), { wLine true 0 with waiters := [(.otherDie 3, 0x40000210, 16)] }, by decide +kernel, by decide +kernel, by decide +kernel, (by decide +kernel), by decide +kernel, by decide +kernel, by decide +kernel, (by decide +kernel), by intro v h; rw [List.mem_singleton.mp h]; trivial⟩,
   ⟨wCache (wNear.wr F.DIE_STATUS_CD0_PSTATE 0) [wLine false 0, wLine false 1], 0, 1, 0x40000210, 16, .otherDie 3, by decide +kernel⟩,
   ⟨wPages (wNear.wr F.WC_CFG_ENABLE 1 0 (.die 0)) [(512, { wPte 0 52 with isSealed := true, near := false })], 0, 1, 0x40000210, 16, .otherDie 3,
     { wPte 0 52 with isSealed := true, near := false }, by decide +kernel⟩,
   ⟨wPages (wCache wNear [{ wLine true 0 with waiters := [(.otherDie 3, 0x40000210, 16)] }]) [(512,
     { wPte 0 52 with isSealed := true, near := false })], 0, 1, 0x40000210, 16, .otherDie 3, (wcKey (0) (1) (lineOf (0x40000210))),
     { wLine true 0 with waiters := [(.otherDie 3, 0x40000210, 16)] }, by decide +kernel⟩,
   ⟨wPages (wCache wNear [{ wLine true 0 with waiters := [(.otherDie 3, 0x40000210, 16)] }]) [(512,
     { wPte 0 52 with isSealed := true, near := false, bulk := true })], 0, 1, 0x40000210, 16, .otherDie 3, (wcKey (0) (1) (lineOf (0x40000210))),
     { wLine true 0 with waiters := [(.otherDie 3, 0x40000210, 16)] }, by decide +kernel⟩⟩
theorem test_meets_StreamEntriesCompleteAtIssue :
    (∃ (s : State) (die : Nat) (st : Nat) (i : Nat) (n : Nat), s.atHead die st i n ∧ eOpc n = 0x00) ∧
    (∃ (s : State) (die : Nat) (st : Nat) (i : Nat) (n : Nat), die < 4 ∧ st < 64 ∧ s.mayIssue die st = true ∧ i = s.headPtr die st % 1024 ∧
      n = s.cmdAt die st i ∧ entryOk n = false ∧ s.openDispatch die st = none) ∧
    (∃ (s : State) (die : Nat) (st : Nat) (i : Nat) (n : Nat) (tiles : _) (vs : List Nat), s.atHead die st i n ∧ eOpc n = 0x08 ∧
      s.psetTiles die (eSlot n) (eB n 8) = some tiles ∧ s.psetInUse die (eSlot n) (eB n 8) = false ∧ s.psetPending die (eSlot n) tiles = false ∧
      (∀ p ∈ tiles, p.1 < 24 ∧ p.2 < s.cols) ∧ (List.range (eB n 9)).map (fun k => s.readSource die st (eSlot n) n (16 + 12 * k)) = vs.map .value) ∧
    (∃ (s : State) (die : Nat) (st : Nat) (i : Nat) (n : Nat), s.atHead die st i n ∧ eOpc n = 0x12) ∧
    (∃ (s : State) (die : Nat) (st : Nat) (i : Nat) (n : Nat), s.atHead die st i n ∧ eOpc n = 0x18 ∧ s.image die (eSlot n) = none ∧
      s.dispatch die (eSlot n) = none) ∧
    (∃ (s : State) (die : Nat) (st : Nat) (i : Nat) (n : Nat), s.atHead die st i n ∧ eOpc n = 0x18 ∧ (s.dispatch die (eSlot n)).isSome = true) ∧
    (∃ (s : State) (die : Nat) (st : Nat) (i : Nat) (n : Nat) (len : Nat), s.atHead die st i n ∧ eOpc n = 0x10 ∧
      s.readSource die st (eSlot n) n 40 = .value len ∧
      (len % 64 ≠ 0 ∨ s.endFits die (eSlot n) n 8 len = false ∨ s.endFits die (eSlot n) n 24 len = false)) ∧
    (∃ (s : State) (die : Nat) (st : Nat) (i : Nat) (n : Nat), s.atHead die st i n ∧ eOpc n = 0x11 ∧ (s.stream die st).looked.contains i = false ∧
      s.prefetchFits die n = true ∧ (s.rangeSealed (eD n 8) (eD n 16) = false ∨ inMas (eD n 8 + eD n 16) = false)) :=
  ⟨⟨wEntry wNear (2 ^ 8), 0, 3, 0, 2 ^ 8, wAtHead_of (by decide +kernel), by decide +kernel⟩,
   ⟨wEntry wNear (2 ^ 511), 0, 3, 0, 2 ^ 511, by decide +kernel⟩,
   ⟨wEntry ({ wNear with arr := { Arr.reset with images := [(dieCtx 0 1, { wImg with psets := [(2, [(0, 0), (1, 1)])], lanes := [] })] } }) (0x08 + 2 ^ 16 + 2 ^ 64 * 2 + 2 ^ 72 + 2 ^ 96 * 5 + 2 ^ 160 * 77),
     0, 3, 0, 0x08 + 2 ^ 16 + 2 ^ 64 * 2 + 2 ^ 72 + 2 ^ 96 * 5 + 2 ^ 160 * 77, [(0, 0), (1, 1)], [77], wAtHead_of (by decide +kernel),
     by decide +kernel⟩,
   ⟨wEntry wNear 0x12, 0, 3, 0, 0x12, wAtHead_of (by decide +kernel), by decide +kernel⟩,
   ⟨wEntry wNear (0x18 + 2 ^ 16 + 2 ^ 64 * 2 + 2 ^ 80 * 6 + 2 ^ 128 * 8), 0, 3, 0, 0x18 + 2 ^ 16 + 2 ^ 64 * 2 + 2 ^ 80 * 6 + 2 ^ 128 * 8,
     wAtHead_of (by decide +kernel), by decide +kernel⟩,
   ⟨wEntry (wDispatch wNear (wDisp 2 [])) (0x18 + 2 ^ 16 + 2 ^ 64 * 2 + 2 ^ 80 * 6 + 2 ^ 128 * 8), 0, 3, 0,
     0x18 + 2 ^ 16 + 2 ^ 64 * 2 + 2 ^ 80 * 6 + 2 ^ 128 * 8, wAtHead_of (by decide +kernel), by decide +kernel⟩,
   ⟨wEntry wNear (0x10 + 2 ^ 128 * 0x40000000 + 2 ^ 256 * 0x40000040 + 2 ^ 352 * 65), 0, 3, 0,
     0x10 + 2 ^ 128 * 0x40000000 + 2 ^ 256 * 0x40000040 + 2 ^ 352 * 65, 65, wAtHead_of (by decide +kernel), by decide +kernel⟩,
   ⟨wEntry wNear (0x11 + 2 ^ 32 * 4 + 2 ^ 64 * 0x40000000 + 2 ^ 128 * 1024), 0, 3, 0, 0x11 + 2 ^ 32 * 4 + 2 ^ 64 * 0x40000000 + 2 ^ 128 * 1024,
     wAtHead_of (by decide +kernel), by decide +kernel⟩⟩
theorem test_meets_StreamEntriesIssue_1 :
    (∃ (s : State) (die : Nat) (st : Nat) (i : Nat) (n : Nat) (v : Nat), s.atHead die st i n ∧ eOpc n = 0x09 ∧
      s.readSource die st (eSlot n) n 8 = .value v ∧ s.endFits die (eSlot n) n 24 4 = true) ∧
    (∃ (s : State) (die : Nat) (st : Nat) (i : Nat) (n : Nat) (len : Nat), s.atHead die st i n ∧ eOpc n = 0x10 ∧
      s.readSource die st (eSlot n) n 40 = .value len ∧ len % 64 = 0 ∧ s.endFits die (eSlot n) n 8 len = true ∧
      s.endFits die (eSlot n) n 24 len = true) ∧
    (∃ (s : State) (die : Nat) (st : Nat) (i : Nat) (n : Nat), s.atHead die st i n ∧ eOpc n = 0x28) ∧
    (∃ (s : State) (die : Nat) (st : Nat) (i : Nat) (n : Nat), s.atHead die st i n ∧ eOpc n = 0x11 ∧ (s.stream die st).looked.contains i = false ∧
      s.prefetchFits die n = true ∧ s.rangeSealed (eD n 8) (eD n 16) = true ∧ inMas (eD n 8 + eD n 16) = true) ∧
    (∃ (s : State) (die : Nat) (st : Nat) (i : Nat) (n : Nat), die < 4 ∧ st < 64 ∧ s.mayIssue die st = true ∧ i = s.headPtr die st % 1024 ∧
      (s.stream die st).looked.contains i = true) ∧
    (∃ (s : State) (die : Nat) (st : Nat) (i : Nat) (n : Nat), die < 4 ∧ st < 64 ∧ s.flag F.SERGE_STATUS_ONLINE (st / 8) (.die die) = true ∧
      s.strState die st < 3 ∧ eOpc (s.cmdAt die st (s.headPtr die st)) ≠ 0x20 ∧ eOpc (s.cmdAt die st (s.headPtr die st)) ≠ 0x30 ∧
      s.lookaheadAt die st (s.rd F.STREAM_CTRL_LOOKAHEAD st (.die die)) ((s.headPtr die st + 1) % 2048) = some i ∧ n = s.cmdAt die st i ∧
      s.prefetchFits die n = true ∧ s.rangeSealed (eD n 8) (eD n 16) = true ∧ inMas (eD n 8 + eD n 16) = true) ∧
    (∃ (s : State) (die : Nat) (st : Nat) (i : Nat) (n : Nat) (img : _), s.atHead die st i n ∧ eOpc n = 0x18 ∧ s.dispatch die (eSlot n) = none ∧
      s.image die (eSlot n) = some img ∧ img.lanes ≠ []) :=
  ⟨⟨wEntry wNear (0x09 + 2 ^ 96 * 77 + 2 ^ 256 * 0x40000000), 0, 3, 0, 0x09 + 2 ^ 96 * 77 + 2 ^ 256 * 0x40000000, 77, wAtHead_of (by decide +kernel),
    by decide +kernel⟩,
   ⟨wEntry wNear (0x10 + 2 ^ 128 * 0x40000000 + 2 ^ 256 * 0x40000040 + 2 ^ 352 * 64), 0, 3, 0,
     0x10 + 2 ^ 128 * 0x40000000 + 2 ^ 256 * 0x40000040 + 2 ^ 352 * 64, 64, wAtHead_of (by decide +kernel), by decide +kernel⟩,
   ⟨wEntry wNear (0x28 + 2 ^ 64 * 1 + 2 ^ 128 * 0x40000000), 0, 3, 0, 0x28 + 2 ^ 64 * 1 + 2 ^ 128 * 0x40000000, wAtHead_of (by decide +kernel),
     by decide +kernel⟩,
   ⟨wEntry (wPages wNear [(512, { wPte 0 52 with isSealed := true })]) (0x11 + 2 ^ 32 * 4 + 2 ^ 64 * 0x40000000 + 2 ^ 128 * 1024), 0, 3, 0,
     0x11 + 2 ^ 32 * 4 + 2 ^ 64 * 0x40000000 + 2 ^ 128 * 1024, wAtHead_of (by decide +kernel), by decide +kernel⟩,
   ⟨(wEntry (wPages wNear [(512,
     { wPte 0 52 with isSealed := true })]) (0x11 + 2 ^ 32 * 4 + 2 ^ 64 * 0x40000000 + 2 ^ 128 * 1024)).setStream 0 3 { StreamSt.empty with looked := [0] },
     0, 3, 0, 0x11 + 2 ^ 32 * 4 + 2 ^ 64 * 0x40000000 + 2 ^ 128 * 1024, by decide +kernel⟩,
   ⟨{ ((wEntry (wPages wNear [(512, { wPte 0 52 with isSealed := true })]) 0).wr F.STREAM_TAIL_INDEX 2 3 (.die 0)).wr F.STREAM_CTRL_LOOKAHEAD 8 3 (.die 0) with strm := { Strm.reset with cmdMem := [(cmdKey 0 3 1, BitVec.ofNat 512 (0x11 + 2 ^ 32 * 4 + 2 ^ 64 * 0x40000000 + 2 ^ 128 * 1024))] } },
     0, 3, 1, 0x11 + 2 ^ 32 * 4 + 2 ^ 64 * 0x40000000 + 2 ^ 128 * 1024, by decide +kernel⟩,
   ⟨wEntry ({ wNear with arr := { Arr.reset with images := [(dieCtx 0 1, { wImg with lanes := [wLane] })] } }) (0x18 + 2 ^ 16 + 2 ^ 64 * 2 + 2 ^ 80 * 6 + 2 ^ 128 * 8),
     0, 3, 0, 0x18 + 2 ^ 16 + 2 ^ 64 * 2 + 2 ^ 80 * 6 + 2 ^ 128 * 8, { wImg with lanes := [wLane] }, wAtHead_of (by decide +kernel),
     by decide +kernel⟩⟩
theorem test_meets_StreamEntriesIssue_2 :
    (∃ (s : State) (die : Nat) (st : Nat) (i : Nat) (n : Nat) (d : _) (count : _), s.headReady die st i n ∧ s.openDispatch die st = some (eSlot n, d) ∧
      eOpc n = 0x19 ∧ s.inputFits die (eSlot n) n = true ∧ s.readSource die st (eSlot n) n 12 = .value count ∧
      s.rangeAccess State.readAccess (eD n 24) (eD n 32) ≠ .fault ∧ count = 0) ∧
    (∃ (s : State) (die : Nat) (st : Nat) (i : Nat) (n : Nat) (d : _) (count : _), s.headReady die st i n ∧ s.openDispatch die st = some (eSlot n, d) ∧
      eOpc n = 0x19 ∧ s.inputFits die (eSlot n) n = true ∧ s.readSource die st (eSlot n) n 12 = .value count ∧
      s.rangeAccess State.readAccess (eD n 24) (eD n 32) ≠ .fault ∧ 0 < count ∧ count ≤ d.maxCount) ∧
    (∃ (s : State) (die : Nat) (st : Nat) (i : Nat) (n : Nat) (d : _) (count : _), s.headReady die st i n ∧ s.openDispatch die st = some (eSlot n, d) ∧
      eOpc n = 0x19 ∧ s.inputFits die (eSlot n) n = true ∧ s.readSource die st (eSlot n) n 12 = .value count ∧
      s.rangeAccess State.readAccess (eD n 24) (eD n 32) ≠ .fault ∧ d.maxCount < count) ∧
    (∃ (s : State) (die : Nat) (st : Nat) (i : Nat) (n : Nat), s.atHead die st i n ∧ eOpc n = 0x20) ∧
    (∃ (s : State) (die : Nat) (st : Nat) (i : Nat) (n : Nat), s.atHead die st i n ∧ eOpc n = 0x30) ∧
    (∃ (s : State) (die : Nat) (st : Nat) (i : Nat) (n : Nat), s.atHead die st i n ∧ eOpc n = 0x21) :=
  ⟨⟨wEntry (wDispatch (wPages wNear [(512,
    wPte 0 52)]) (wDisp 1 [])) (0x19 + 2 ^ 16 + 2 ^ 64 * 4 + 2 ^ 128 * 0 + 2 ^ 192 * 0x40000000 + 2 ^ 256 * 64), 0, 3, 0,
    0x19 + 2 ^ 16 + 2 ^ 64 * 4 + 2 ^ 128 * 0 + 2 ^ 192 * 0x40000000 + 2 ^ 256 * 64, wDisp 1 [], 0, wReady_of (by decide +kernel), by decide +kernel⟩,
   ⟨wEntry (wDispatch (wPages wNear [(512,
     wPte 0 52)]) (wDisp 1 [])) (0x19 + 2 ^ 16 + 2 ^ 64 * 4 + 2 ^ 128 * 8 + 2 ^ 192 * 0x40000000 + 2 ^ 256 * 64), 0, 3, 0,
     0x19 + 2 ^ 16 + 2 ^ 64 * 4 + 2 ^ 128 * 8 + 2 ^ 192 * 0x40000000 + 2 ^ 256 * 64, wDisp 1 [], 8, wReady_of (by decide +kernel), by decide +kernel⟩,
   ⟨wEntry (wDispatch (wPages wNear [(512,
     wPte 0 52)]) (wDisp 1 [])) (0x19 + 2 ^ 16 + 2 ^ 64 * 4 + 2 ^ 128 * 9 + 2 ^ 192 * 0x40000000 + 2 ^ 256 * 64), 0, 3, 0,
     0x19 + 2 ^ 16 + 2 ^ 64 * 4 + 2 ^ 128 * 9 + 2 ^ 192 * 0x40000000 + 2 ^ 256 * 64, wDisp 1 [], 9, wReady_of (by decide +kernel), by decide +kernel⟩,
   ⟨wEntry wNear (0x20 + 2 ^ 64 + 2 ^ 72 * 3 + 2 ^ 96 * 5 + 2 ^ 128 * 7 + 2 ^ 136 * 255), 0, 3, 0,
     0x20 + 2 ^ 64 + 2 ^ 72 * 3 + 2 ^ 96 * 5 + 2 ^ 128 * 7 + 2 ^ 136 * 255, wAtHead_of (by decide +kernel), by decide +kernel⟩,
   ⟨wEntry wNear 0x30, 0, 3, 0, 0x30, wAtHead_of (by decide +kernel), by decide +kernel⟩,
   ⟨wEntry wNear (0x21 + 2 ^ 64 * 6 + 2 ^ 72), 0, 3, 0, 0x21 + 2 ^ 64 * 6 + 2 ^ 72, wAtHead_of (by decide +kernel), by decide +kernel⟩⟩
theorem test_meets_StreamEntriesFinish_1 :
    (∃ (s : State) (die : Nat) (st : Nat) (i : Nat) (n : Nat) (a : _) (b : _) (len : _) (c : _), s.transferring die st i n a b len c ∧ eOpc n = 0x10 ∧
      eB n 8 = 0 ∧ eB n 24 = 0 ∧ s.rangeAccess State.readAccess (eD n 16) len = .ok ∧ s.rangeAccess State.writeAccess (eD n 32) len = .ok) ∧
    (∃ (s : State) (die : Nat) (st : Nat) (i : Nat) (n : Nat) (a : _) (b : _) (len : _) (c : _), s.transferring die st i n a b len c ∧ eOpc n = 0x10 ∧
      eB n 8 = 0 ∧ s.rangeAccess State.readAccess (eD n 16) len = .fault) ∧
    (∃ (s : State) (die : Nat) (st : Nat) (i : Nat) (n : Nat) (a : _) (b : _) (len : _) (c : _), s.transferring die st i n a b len c ∧ eOpc n = 0x09 ∧
      eB n 24 = 0 ∧ s.rangeAccess State.writeAccess (eD n 32) 4 = .ok) ∧
    (∃ (s : State) (die : Nat) (st : Nat) (i : Nat) (n : Nat) (f : _) (p : PinSet), die < 4 ∧ st < 64 ∧ (s.stream die st).flying = [f] ∧ f.entry = i ∧
      f.cls = .prefetch ∧ (s.stream die st).holder = none ∧ (s.stream die st).pins = [p] ∧ p.entry = i ∧ p.complete = false ∧ p.released = false ∧
      s.linesReady die p = true ∧ (p.target = 3 ∨ ∀ l ∈ linesIn f.a f.len, l ∈ p.lines) ∧ s.rangeAccess State.readAccess f.a f.len = .ok) ∧
    (∃ (s : State) (die : Nat) (st : Nat) (i : Nat) (n : Nat) (f : _) (p : PinSet), die < 4 ∧ st < 64 ∧ (s.stream die st).flying = [f] ∧ f.entry = i ∧
      f.cls = .prefetch ∧ (s.stream die st).holder = none ∧ (s.stream die st).pins = [p] ∧ p.entry = i ∧ p.complete = false ∧ p.released = false ∧
      s.linesReady die p = true ∧ (p.target = 3 ∨ ∀ l ∈ linesIn f.a f.len, l ∈ p.lines) ∧ s.rangeAccess State.readAccess f.a f.len = .ok) ∧
    (∃ (s : State) (die : Nat) (st : Nat) (i : Nat) (n : Nat) (c : _) (d : _) (k : Nat) (l : _) (g : _), die < 4 ∧ c < 4 ∧ s.dispatch die c = some d ∧
      d.abandoned = false ∧ s.freeLane die c d = some (k, l) ∧
      d.groups.find? (fun g => g.lane.isNone && decide (s.rangeAccess State.readAccess g.waddr g.wlen = .ok)) = some g ∧
      s.psetPending die c ((s.psetTiles die c l.pset).getD []) = false ∧ (∀ h ∈ d.groups, h.todo = none ∧ (h.entry = g.entry → h = g))) ∧
    (∃ (s : State) (die : Nat) (st : Nat) (i : Nat) (n : Nat) (q : _) (id : _) (c : _) (v : _) (d : _) (u : _), die < 4 ∧
      s.nextSummary die q = some (id, c, v, u) ∧ s.dispatch die c = some d ∧ d.doneId = id ∧ (∃ g ∈ d.groups, g.index = v ∧ g.lane.isSome = true)) :=
  ⟨⟨wFlying (wPages wNear [(512,
    wPte 0 52)]) (wFly 0 (0x10 + 2 ^ 128 * 0x40000000 + 2 ^ 256 * 0x40000040 + 2 ^ 352 * 64) .dma 0 0 64) |>.setMasByte 0x40000000 9, 0, 3, 0,
    0x10 + 2 ^ 128 * 0x40000000 + 2 ^ 256 * 0x40000040 + 2 ^ 352 * 64, 0, 0, 64, 0, wTrans_of (by decide +kernel), by decide +kernel⟩,
   ⟨wFlying (wNear) (wFly 0 (0x10 + 2 ^ 128 * 0x40000000 + 2 ^ 256 * 0x40000040 + 2 ^ 352 * 64) .dma 0 0 64), 0, 3, 0,
     0x10 + 2 ^ 128 * 0x40000000 + 2 ^ 256 * 0x40000040 + 2 ^ 352 * 64, 0, 0, 64, 0, wTrans_of (by decide +kernel), by decide +kernel⟩,
   ⟨wFlying (wPages wNear [(512, wPte 0 52)]) (wFly 0 (0x09 + 2 ^ 96 * 77 + 2 ^ 256 * 0x40000000) .dma 77 0 4), 0, 3, 0,
     0x09 + 2 ^ 96 * 77 + 2 ^ 256 * 0x40000000, 77, 0, 4, 0, wTrans_of (by decide +kernel), by decide +kernel⟩,
   ⟨(wCache (wNear) [wLine false 1]).setStream 0 3 { StreamSt.empty with flying := [wFly 0 (0x11 + 2 ^ 192) .prefetch 0x40000200 0 64], pins := [{ tag := 4, entry := 0, lines := [0x40000200], target := 1, complete := false, released := false }] },
     0, 3, 0, 0x11 + 2 ^ 192, wFly 0 (0x11 + 2 ^ 192) .prefetch 0x40000200 0 64,
     { tag := 4, entry := 0, lines := [0x40000200], target := 1, complete := false, released := false }, by decide +kernel⟩,
   ⟨((wCache (wNear) [wLine false 1]).setStream 0 3 { StreamSt.empty with flying := [wFly 0 (0x11 + 2 ^ 192 * 3 + 2 ^ 208 * 1 + 2 ^ 224 * 256) .prefetch 0x40000200 0 64], pins := [{ tag := 4, entry := 0, lines := [], target := 3, complete := false, released := false }] }).setMasByte 0x40000201 9,
     0, 3, 0, 0x11 + 2 ^ 192 * 3 + 2 ^ 208 * 1 + 2 ^ 224 * 256, wFly 0 (0x11 + 2 ^ 192 * 3 + 2 ^ 208 * 1 + 2 ^ 224 * 256) .prefetch 0x40000200 0 64,
     { tag := 4, entry := 0, lines := [], target := 3, complete := false, released := false }, by decide +kernel⟩,
   ⟨wDispatch (wPages wNear [(512, wPte 0 52)]) (wDisp 2 [wGroup none]), 0, 3, 0, 0, 1, wDisp 2 [wGroup none], 0, wLane, wGroup none,
     by decide +kernel⟩,
   ⟨{ (wDispatch (wPages wNear [(512, wPte 0 52)]) (wDisp 2 [wGroup (some 0)])) with arr := { (wDispatch (wPages wNear [(512, wPte 0 52)]) (wDisp 2 [wGroup (some 0)])).arr with sums := [(0, [(6, 1, 4)])] } },
     0, 3, 0, 0, qidOf 29 0 0 0, 6, 1, 4, wDisp 2 [wGroup (some 0)], wDispatch (wPages wNear [(512, wPte 0 52)]) (wDisp 2 [wGroup (some 0)]),
     by refine ⟨by decide, by rfl, by rfl, by rfl, wGroup (some 0), by decide, by decide, by decide⟩⟩⟩
theorem test_meets_StreamEntriesFinish_2 :
    (∃ (s : State) (die : Nat) (st : Nat) (i : Nat) (n : Nat) (q : _) (id : _) (c : _) (v : _) (u : _), die < 4 ∧ s.nextSummary die q = some (id, c,
      v, u) ∧ s.takesDone die c id = false ∧ (s.mbox die id).length < 16) ∧
    (∃ (s : State) (die : Nat) (st : Nat) (i : Nat) (n : Nat) (q : _) (id : _) (c : _) (v : _) (u : _), die < 4 ∧ s.nextSummary die q = some (id, c,
      v, u) ∧ s.takesDone die c id = false ∧ 16 ≤ (s.mbox die id).length) ∧
    (∃ (s : State) (die : Nat) (st : Nat) (i : Nat) (n : Nat) (c : _) (d : _), die < 4 ∧ c < 4 ∧ s.dispatch die c = some d ∧ d.abandoned = false ∧
      d.seen = d.total ∧ d.groups = []) ∧
    (∃ (s : State) (die : Nat) (st : Nat) (i : Nat) (n : Nat), die < 4 ∧ st < 64 ∧ s.holderOf die st 0x20 = some (i, n) ∧ i = s.headPtr die st % 1024 ∧
      (∀ f ∈ (s.stream die st).flying, f.entry ≠ i → (s.stream die st).looked.contains f.entry = false → ∀ k,
      classBit f.cls = some k → bitOf (eB n 8) k = false) ∧ (eB n 9 = 255 ∨ eW n 12 ≤ s.rd F.FENCE_CNT_VALUE (eB n 9) (.die die))) ∧
    (∃ (s : State) (die : Nat) (st : Nat) (i : Nat) (n : Nat), die < 4 ∧ st < 64 ∧ s.holderOf die st 0x20 = some (i, n) ∧ i = s.headPtr die st % 1024 ∧
      eB n 9 < 64 ∧ s.rd F.FENCE_CNT_VALUE (eB n 9) (.die die) < eW n 12) ∧
    (∃ (s : State) (die : Nat) (st : Nat) (i : Nat) (n : Nat) (m : _) (c : _), die < 4 ∧ st < 64 ∧ s.strm.mboxWaits = [(die, st, i, m, c)] ∧ 0 < c ∧
      c ≤ (s.mbox die m).length) ∧
    (∃ (s : State) (die : Nat) (st : Nat) (i : Nat) (n : Nat) (m : _) (c : _), die < 4 ∧ st < 64 ∧ s.strm.mboxWaits = [(die, st, i, m, c)] ∧ 0 < c ∧
      (s.mbox die m).length < c) :=
  ⟨⟨{ (wNear) with arr := { (wNear).arr with sums := [(0, [(6, 1, 4)])] } }, 0, 3, 0, 0, qidOf 29 0 0 0, 6, 1, 4, wNear, by refine ⟨by decide, by rfl,
    by decide +kernel, by decide +kernel⟩⟩,
   ⟨{ (wNear.setMbox 0 6 (List.replicate 16 (1, 1))) with arr := { (wNear.setMbox 0 6 (List.replicate 16 (1, 1))).arr with sums := [(0, [(6, 1, 4)])] } },
     0, 3, 0, 0, qidOf 29 0 0 0, 6, 1, 4, wNear.setMbox 0 6 (List.replicate 16 (1, 1)), by refine ⟨by decide, by rfl, by decide +kernel,
     by decide +kernel⟩⟩,
   ⟨wDispatch (wFlying wNear (wFly 9 0x18 .dispatch 0 0 0)) (wDisp 2 []), 0, 3, 0, 0, 1, wDisp 2 [], by decide +kernel⟩,
   ⟨(wEntry (wNear) (0x20 + 2 ^ 64 + 2 ^ 72 * 255 + 2 ^ 96 * 5 + 2 ^ 128 * 7 + 2 ^ 136 * 255)).setStream 0 3 { StreamSt.empty with flying := [wFly 0 (0x20 + 2 ^ 64 + 2 ^ 72 * 255 + 2 ^ 96 * 5 + 2 ^ 128 * 7 + 2 ^ 136 * 255) .none 0 0 0], holder := some 0, inStep := true, pins := [] },
     0, 3, 0, 0x20 + 2 ^ 64 + 2 ^ 72 * 255 + 2 ^ 96 * 5 + 2 ^ 128 * 7 + 2 ^ 136 * 255, by decide +kernel⟩,
   ⟨(wEntry (wNear) (0x20 + 2 ^ 64 + 2 ^ 72 * 3 + 2 ^ 96 * 5 + 2 ^ 128 * 7 + 2 ^ 136 * 255)).setStream 0 3 { StreamSt.empty with flying := [wFly 0 (0x20 + 2 ^ 64 + 2 ^ 72 * 3 + 2 ^ 96 * 5 + 2 ^ 128 * 7 + 2 ^ 136 * 255) .none 0 0 0], holder := some 0, inStep := true, pins := [] },
     0, 3, 0, 0x20 + 2 ^ 64 + 2 ^ 72 * 3 + 2 ^ 96 * 5 + 2 ^ 128 * 7 + 2 ^ 136 * 255, by decide +kernel⟩,
   ⟨{ wNear.setMbox 0 6 [(1, 4), (2, 5)] with strm := { (wNear.setMbox 0 6 [(1, 4), (2, 5)]).strm with mboxWaits := [(0, 3, 0, 6, 2)] } }, 0, 3, 0, 0,
     6, 2, by decide +kernel⟩,
   ⟨{ wNear.setMbox 0 6 [(1, 4)] with strm := { (wNear.setMbox 0 6 [(1, 4)]).strm with mboxWaits := [(0, 3, 0, 6, 2)] } }, 0, 3, 0, 0, 6, 2,
     by decide +kernel⟩⟩
theorem test_meets_StreamEntriesFinish_3 :
    (∃ (s : State) (die : Nat) (st : Nat) (i : Nat) (n : Nat) (results : List StepResult), die < 4 ∧ st < 64 ∧ s.holderOf die st 0x30 = some (i, n) ∧
      (∀ f ∈ (s.stream die st).flying, f.entry ≠ i → (s.stream die st).looked.contains f.entry = true)) ∧
    (∃ (s : State) (die : Nat) (st : Nat) (i : Nat) (n : Nat) (u : _), die < 4 ∧ st < 64 ∧ (s.stream die st).deadline = some u ∧ u ≤ s.now ∧
      s.arr.messages = [] ∧ s.stew.flights = [] ∧ (∀ c ∈ (s.stream die st).stepSlots, c < 4)) ∧
    (∃ (s : State) (die : Nat) (st : Nat) (i : Nat) (n : Nat) (a : _) (b : _) (len : _) (c : _), s.transferring die st i n a b len c ∧ eOpc n = 0x10 ∧
      eB n 8 = 0 ∧ eB n 24 = 2 ∧ s.rangeAccess State.readAccess (eD n 16) len = .ok) ∧
    (∃ (s : State) (die : Nat) (st : Nat) (i : Nat) (n : Nat) (a : _) (b : _) (len : _) (c : _), s.transferring die st i n a b len c ∧ eOpc n = 0x28 ∧
      s.rangeAccess State.writeAccess b len = .ok) ∧
    (∃ (s : State) (die : Nat) (st : Nat) (i : Nat) (n : Nat) (c : _) (d : _), die < 4 ∧ c < 4 ∧ s.dispatch die c = some d ∧ d.abandoned = true ∧
      (∀ g ∈ d.groups, g.lane = none)) ∧
    (∃ (s : State) (die : Nat) (st : Nat) (i : Nat) (n : Nat) (src : Nat) (k : Nat) (rest : List Nat), die < 4 ∧ k < 64 ∧
      (s.velvet src die).sent = k :: rest ∧ (s.velvet src die).held = []) ∧
    (∃ (s : State) (die : Nat) (st : Nat) (i : Nat) (n : Nat) (src : Nat) (k : Nat) (j : Nat) (via : List Nat), die < 4 ∧ k < 64 ∧
      (s.velvet src die).sent = [k] ∧ (s.velvet src die).held = [j] ∧ s.route src die = some via) :=
  ⟨⟨(wEntry (wNear) (0x30 + 2 ^ 64 * 5000 + 2 ^ 96 * 3)).setStream 0 3 { StreamSt.empty with flying := [wFly 0 (0x30 + 2 ^ 64 * 5000 + 2 ^ 96 * 3) .none 0 0 0], holder := some 0, inStep := true, pins := [] },
    0, 3, 0, 0x30 + 2 ^ 64 * 5000 + 2 ^ 96 * 3, [], by decide +kernel⟩,
   ⟨(wEntry ({ wNear with now := 9 }) (0x30 + 2 ^ 64 * 5000 + 2 ^ 96 * 3)).setStream 0 3 { StreamSt.empty with flying := [wFly 0 (0x30 + 2 ^ 64 * 5000 + 2 ^ 96 * 3) .none 0 0 0], holder := some 0, deadline := some 9, stepSlots := [1] },
     0, 3, 0, 0x30 + 2 ^ 64 * 5000 + 2 ^ 96 * 3, 9, by decide +kernel⟩,
   ⟨wFlying (wPages wNear [(512,
     wPte 0 52)]) (wFly 0 (0x10 + 2 ^ 128 * 0x40000000 + 2 ^ 192 * 2 + 2 ^ 208 + 2 ^ 256 * 64 + 2 ^ 352 * 64) .dma 0 0 64) |>.setMasByte 0x40000001 9,
     0, 3, 0, 0x10 + 2 ^ 128 * 0x40000000 + 2 ^ 192 * 2 + 2 ^ 208 + 2 ^ 256 * 64 + 2 ^ 352 * 64, 0, 0, 64, 0, wTrans_of (by decide +kernel),
     by decide +kernel⟩,
   ⟨wFlying (wPages wNear [(512, wPte 0 52)]) (wFly 0 (0x28 + 2 ^ 64 * 1 + 2 ^ 128 * 0x40000000) .dma 77 0x40000000 8), 0, 3, 0,
     0x28 + 2 ^ 64 * 1 + 2 ^ 128 * 0x40000000, 77, 0x40000000, 8, 0, wTrans_of (by decide +kernel), by decide +kernel⟩,
   ⟨wDispatch (wFlying wNear (wFly 9 0x18 .dispatch 0 0 0)) { wDisp 2 [wGroup none] with abandoned := true }, 0, 3, 0, 0, 1,
     { wDisp 2 [wGroup none] with abandoned := true }, by decide +kernel⟩,
   ⟨{ wMod 3 with link := { LinkSt.reset with velvet := [(8, { via := [], sent := [63, 5], held := [] })] } }, 0, 3, 0, 0, 1, 63, [5],
     by decide +kernel⟩,
   ⟨{ (wMod 3).wr F.VELVET_EDGE_STATE 2 1 with link := { LinkSt.reset with velvet := [(8, { via := [], sent := [63], held := [7] })] } }, 0, 3, 0, 0,
     1, 63, 7, [], by decide +kernel⟩⟩
theorem test_meets_StreamsAreControlled_1 :
    (∃ (s : State) (die : Nat) (st : Nat) (p : _) (es : List (BitVec 512)), die < 4 ∧ st < 64 ∧ s.dieShut die = false ∧
      (p + 2048 - s.headPtr die st) % 2048 ≤ 1024 ∧ es.length ≤ 1024) ∧
    (∃ (s : State) (die : Nat) (st : Nat) (p : Nat) (es : List (BitVec 512)), die < 4 ∧ st < 64 ∧ s.dieShut die = false ∧
      1024 < (p + 2048 - s.headPtr die st) % 2048) ∧
    (∃ (s : State) (die : Nat) (st : Nat), die < 4 ∧ st < 64 ∧ s.dieShut die = false ∧ (s.strState die st = 3 ∨ s.strState die st = 4)) ∧
    (∃ (s : State) (die : Nat) (st : Nat), die < 4 ∧ st < 64 ∧ s.dieShut die = false ∧ s.strState die st < 3) ∧
    (∃ (s : State) (die : Nat) (st : Nat) (m : _), die < 4 ∧ st < 64 ∧ s.dieShut die = false ∧ m < 256) :=
  ⟨⟨wNear.wr F.DIE_STATUS_CD0_PSTATE 0, 0, 3, 1024, [7, 8], by decide +kernel⟩,
   ⟨wNear.wr F.DIE_STATUS_CD0_PSTATE 0, 0, 3, 1025, [7, 8], by decide +kernel⟩,
   ⟨(wNear.wr F.DIE_STATUS_CD0_PSTATE 0).wr F.STREAM_STATUS_STATE 4 3 (.die 0), 0, 3, by decide +kernel⟩,
   ⟨(wNear.wr F.DIE_STATUS_CD0_PSTATE 0).wr F.STREAM_STATUS_STATE 2 3 (.die 0) |>.setStream 0 3 { StreamSt.empty with flying := [wFly 0 0 .none 0 0 0], holder := some 0 } |>.wr F.STREAM_TAIL_INDEX 9 3 (.die 0),
     0, 3, by decide +kernel⟩,
   ⟨(wNear.wr F.DIE_STATUS_CD0_PSTATE 0).setMbox 0 255 [(1, 2), (3, 4)], 0, 3, 255, by decide +kernel⟩⟩
theorem test_meets_StreamsAreControlled_2 :
    (∃ (s : State) (die : Nat) (st : Nat) (c : _), die < 4 ∧ st < 64 ∧ s.dieShut die = false ∧ s.idleSlot die = some c ∧
      SMap.getD s.arr.idlePosted die false = false ∧ s.mbox die 255 = [] ∧ 2 ^ s.rd F.IDLE_CFG_IDLE_LOG2 0 (.die die) ≤ SMap.getD s.arr.idleFor die 0 ∧
      s.flag F.SCHED_CFG_BUBBLE_EN = false) ∧
    (∃ (s : State) (die : Nat) (st : Nat) (c : _) (d : _), die < 4 ∧ st < 64 ∧ s.dieShut die = false ∧ s.idleSlot die = some c ∧
      SMap.getD s.arr.idlePosted die false = false ∧ s.mbox die 255 = [] ∧ 2 ^ s.rd F.IDLE_CFG_IDLE_LOG2 0 (.die die) ≤ SMap.getD s.arr.idleFor die 0 ∧
      s.flag F.SCHED_CFG_BUBBLE_EN = true ∧ s.readySlot die = some d) ∧
    (∃ (s : State) (die : Nat) (st : Nat) (c : _), die < 4 ∧ st < 64 ∧ s.dieShut die = false ∧ s.idleSlot die = some c ∧
      SMap.getD s.arr.idleFor die 0 < 2 ^ s.rd F.IDLE_CFG_IDLE_LOG2 0 (.die die) ∧ s.mbox die 255 = []) ∧
    (∃ (s : State) (die : Nat) (st : Nat) (c : _), die < 4 ∧ st < 64 ∧ s.dieShut die = false ∧ s.idleSlot die = some c ∧
      SMap.getD s.arr.idlePosted die false = false ∧ s.mbox die 255 = [] ∧ 2 ^ s.rd F.IDLE_CFG_IDLE_LOG2 0 (.die die) ≤ SMap.getD s.arr.idleFor die 0 ∧
      s.flag F.SCHED_CFG_BUBBLE_EN = true ∧ s.readySlot die = none) :=
  ⟨⟨{ (((wTile 0).wrFlag F.SCHED_CFG_BUBBLE_EN false).wr F.DIE_STATUS_CD0_PSTATE 0) with arr := { ((((wTile 0).wrFlag F.SCHED_CFG_BUBBLE_EN false).wr F.DIE_STATUS_CD0_PSTATE 0)).arr with idleFor := [(0, 1024)] } },
    0, 3, 0, by decide +kernel⟩,
   ⟨{ wPkgs (((wTile 0).wrFlag F.SCHED_CFG_BUBBLE_EN true).wr F.DIE_STATUS_CD0_PSTATE 0) [(1, { wPkg .loaded with slots := [(0, 1)], tmpl := { Tmpl.empty with dies := [0] } })] with arr := { (wTile 0).arr with idleFor := [(0, 1024)] }, stew := { Stew.reset with reqs := [(0, wReq)], flights := [(1, [{ rows := [(0, 3)], key := 0, since := 0, stage := 0, replayed := false, stepped := false, commits := [], drops := [] }])] } },
     0, 3, 0, 1, by decide +kernel⟩,
   ⟨{ (((wTile 0).wrFlag F.SCHED_CFG_BUBBLE_EN true).wr F.DIE_STATUS_CD0_PSTATE 0) with arr := { ((((wTile 0).wrFlag F.SCHED_CFG_BUBBLE_EN true).wr F.DIE_STATUS_CD0_PSTATE 0)).arr with idleFor := [(0, 1023)] } },
     0, 3, 0, by decide +kernel⟩,
   ⟨{ (((wTile 0).wrFlag F.SCHED_CFG_BUBBLE_EN true).wr F.DIE_STATUS_CD0_PSTATE 0) with arr := { ((((wTile 0).wrFlag F.SCHED_CFG_BUBBLE_EN true).wr F.DIE_STATUS_CD0_PSTATE 0)).arr with idleFor := [(0, 1024)] } },
     0, 3, 0, by decide +kernel⟩⟩
theorem test_meets_RegistersReadAndWrite_1 :
    (∃ (s : State) (path : Path) (a : Nat) (v : Nat) (r : _) (i : Nat) (w : _) (k : Nat), s.writes path a v r i w k ∧ r ∉ actingRegs) ∧
    (∃ (s : State) (path : Path) (a : Nat) (v : Nat), s.dark = false ∧ s.locate a = none) ∧
    (∃ (s : State) (path : Path) (a : Nat) (v : Nat) (r : Reg) (i : Nat) (w : Win) (k : Nat), s.dark = false ∧ s.locate a = some (r, i, w, k) ∧
      (s.mayWrite path a r = false ∨ s.blockOpen path a = false ∨ (s.dieCloses a).isSome = true ∨ s.writeRefused r i w k (v % 2 ^ 32) = true)) ∧
    (∃ (s : State) (path : Path) (a : Nat) (v : Nat) (r : Reg) (i : Nat) (w : _), s.dark = false ∧ s.locate a = some (r, i, w, 0) ∧ latching r = true ∧
      s.mayRead path a = true ∧ s.blockOpen path a = true ∧ s.dieCloses a = none ∧ s.wakeFor a = s) ∧
    (∃ (s : State) (path : Path) (a : Nat) (v : Nat), s.dark = false) ∧
    (∃ (s : State) (path : Path) (a : Nat) (v : Nat), s.dark = false ∧ s.locate (a % 2 ^ 32) = none) :=
  ⟨⟨wOwned 3 7, .session 7, Reg.addr .AGE_CFG 0 .glob 0, 80, .AGE_CFG, 0, .glob, 0, wWrites_of (by decide +kernel) (by rfl) (by decide +kernel),
    by decide +kernel⟩,
   ⟨wMod 3, .mgmt, 0xFFFFFFFC, 80, by decide +kernel⟩,
   ⟨wMod 3, .session 4, Reg.addr .PWR_CAP 0 .glob 0, 80, .PWR_CAP, 0, .glob, 0, by decide +kernel⟩,
   ⟨wMod 3, .mgmt, Reg.addr .ERR_COUNT 0 .glob 0, 0, .ERR_COUNT, 0, .glob, by decide +kernel, by decide +kernel, by decide +kernel,
     (by decide +kernel), by decide +kernel, by decide +kernel, by rfl⟩,
   ⟨wMod 3, .mgmt, 0x10004, 0, by decide +kernel⟩,
   ⟨wMod 3, .mgmt, 0xFFFFFFFC, 0, by decide +kernel⟩⟩
theorem test_meets_RegistersReadAndWrite_2 :
    (∃ (s : State) (path : Path) (a : Nat) (v : Nat), s.dark = false ∧ s.modState = 1 ∧ s.lc ≠ .retired ∧ v ≤ 60000) ∧
    (∃ (s : State) (path : Path) (a : Nat) (v : Nat) (ring : _), ring < 5 ∧ s.dark = false ∧ s.modState ≠ 1 ∧ s.lc ≠ .retired ∧
      s.mayWrite path (Reg.addr .ERR_RD ring .glob 0) .ERR_RD = true ∧ (v % 2 ^ 32 + 2 ^ 32 - s.rd F.ERR_RD_SEQ ring) % 2 ^ 32 ≤ s.errUnread ring) ∧
    (∃ (s : State) (path : Path) (a : Nat) (v : Nat) (ring : _), ring < 5 ∧ s.dark = false ∧ s.modState ≠ 1 ∧ s.lc ≠ .retired ∧
      s.mayWrite path (Reg.addr .ERR_RD ring .glob 0) .ERR_RD = true ∧ s.errUnread ring < (v % 2 ^ 32 + 2 ^ 32 - s.rd F.ERR_RD_SEQ ring) % 2 ^ 32) ∧
    (∃ (s : State) (path : Path) (a : Nat) (v : Nat) (ring : _) (half : _), ring < 5 ∧ half < 2 ∧ s.dark = false ∧ s.modState ≠ 1 ∧ s.lc ≠ .retired ∧
      s.mayWrite path (Reg.addr .ERR_OVF_VALID ring .glob half) .ERR_OVF_VALID = true) ∧
    (∃ (s : State) (path : Path) (a : Nat) (v : Nat) (dies : _), dies < 16 ∧ s.dark = false ∧ s.modState ≠ 1 ∧ s.lc ≠ .retired ∧
      s.mayWrite path (Reg.addr .TIMING_PREP 0 .glob 0) .TIMING_PREP = true ∧ (∀ d < 4, bitOf dies d = true → ∀ st < 64,
      s.strState d st = 0 ∨ s.strState d st = 3)) ∧
    (∃ (s : State) (path : Path) (a : Nat) (v : Nat) (dies : _) (d : _) (st : Nat), dies < 16 ∧ s.dark = false ∧ s.modState ≠ 1 ∧ s.lc ≠ .retired ∧
      s.mayWrite path (Reg.addr .TIMING_PREP 0 .glob 0) .TIMING_PREP = true ∧ d < 4 ∧ bitOf dies d = true ∧ st < 64 ∧ s.strState d st = 1) :=
  ⟨⟨wMod 1, .mgmt, 0x10004, 60000, by decide +kernel⟩,
   ⟨wOwned 3 7 |>.wr F.ERR_WR_SEQ 4 4, .session 7, 0, 4, 4, by decide +kernel⟩,
   ⟨wOwned 3 7 |>.wr F.ERR_WR_SEQ 4 4, .session 7, 0, 5, 4, by decide +kernel⟩,
   ⟨wOwned 3 7 |>.wr ⟨.ERR_OVF_VALID, 0, 64⟩ 0xFFFFFFFFFFFFFFFF 4, .session 7, 0, 5, 4, 1, by decide +kernel⟩,
   ⟨{ wOwned 3 7 with arr := { Arr.reset with trans := [(0, [4]), (10, [5])], wc := [(0, [wLine false 0])] } }, .session 7, 0, 5, 1,
     by decide +kernel⟩,
   ⟨wOwned 3 7 |>.wr F.STREAM_STATUS_STATE 1 3 (.die 0), .session 7, 0, 5, 1, 0, 3, by decide +kernel⟩⟩
theorem test_meets_DetectionsAndRepairs_1 :
    (∃ (s : State) (cls : Nat) (kind : Nat) (source : Nat) (die : Nat) (addr : Nat) (step : Nat) (detail : Nat) (replica : Option Nat), 1 ≤ cls ∧
      cls ≤ 0x1D ∧ cls ∉ [3, 5, 7, 8, 0x18] ∧ kind ≤ 15 ∧ (cls = 9 → kind ≠ 12) ∧ die ≤ 5) ∧
    (∃ (s : State) (die : Nat) (kind : Nat) (source : Nat) (first : Nat) (last : Nat), die < 4) ∧
    (∃ (s : State) (mem : Nat) (kind : Nat) (source : Nat) (die : Nat) (addr : Nat), mem < 4) ∧
    (∃ (s : State) (mem : Nat) (kind : Nat) (source : Nat) (die : Nat) (addr : Nat), mem < 4 ∧ mem = 2) ∧
    (∃ (s : State) (r : _), r < 5 ∧ s.flag F.ERR_CFG_AUTO_RETIRE = false) ∧
    (∃ (s : State) (r : _) (e : ErrRec), r < 5 ∧ s.flag F.ERR_CFG_AUTO_RETIRE = true ∧ s.errUnread r = 1 ∧
      s.errAt (errKey r ((s.rd F.ERR_WR_SEQ r + 2 ^ 32 - 1) % 2 ^ 32)) = some e ∧ e.last + 1000000000 ≤ s.now) ∧
    (∃ (s : State) (r : _) (e : ErrRec), r < 5 ∧ s.flag F.ERR_CFG_AUTO_RETIRE = true ∧ s.errUnread r = 1 ∧
      s.errAt (errKey r ((s.rd F.ERR_WR_SEQ r + 2 ^ 32 - 1) % 2 ^ 32)) = some e ∧ s.now < e.last + 1000000000) :=
  ⟨⟨wMod 3, 0x1D, 15, 3, 5, 9, 8, 7, none, by decide +kernel⟩,
   ⟨wMod 3, 3, 0, 33, 0, 0, by decide +kernel⟩,
   ⟨wMod 3, 3, 0, 0, 0, 0, by decide +kernel⟩,
   ⟨wMod 3, 2, 0, 0, 3, 0, by decide +kernel⟩,
   ⟨{ (((((wMod 3).wr F.ERR_WR_SEQ 5 2).wr F.ERR_RD_SEQ 4 2).setErr (errKey 2 4) { time := 0, cls := 4, kind := 0, source := 0, die := 0, ctx := 0, action := 0, flags := 0, count := 1, slot := 0, last := 0, addr := 0, step := 0, detail := 0, seq := 4, detail2 := 0 })).wrFlag F.ERR_CFG_AUTO_RETIRE false with now := 9 },
     2, by decide +kernel⟩,
   ⟨{ (((((wMod 3).wr F.ERR_WR_SEQ 5 2).wr F.ERR_RD_SEQ 4 2).setErr (errKey 2 4) { time := 0, cls := 4, kind := 0, source := 0, die := 0, ctx := 0, action := 0, flags := 0, count := 1, slot := 0, last := 0, addr := 0, step := 0, detail := 0, seq := 4, detail2 := 0 })).wrFlag F.ERR_CFG_AUTO_RETIRE true with now := 1000000000 },
     2, { time := 0, cls := 4, kind := 0, source := 0, die := 0, ctx := 0, action := 0, flags := 0, count := 1, slot := 0, last := 0, addr := 0, step := 0, detail := 0, seq := 4, detail2 := 0 },
     by decide +kernel⟩,
   ⟨{ (((((wMod 3).wr F.ERR_WR_SEQ 5 2).wr F.ERR_RD_SEQ 4 2).setErr (errKey 2 4) { time := 0, cls := 4, kind := 0, source := 0, die := 0, ctx := 0, action := 0, flags := 0, count := 1, slot := 0, last := 0, addr := 0, step := 0, detail := 0, seq := 4, detail2 := 0 })).wrFlag F.ERR_CFG_AUTO_RETIRE true with now := 999999999 },
     2, { time := 0, cls := 4, kind := 0, source := 0, die := 0, ctx := 0, action := 0, flags := 0, count := 1, slot := 0, last := 0, addr := 0, step := 0, detail := 0, seq := 4, detail2 := 0 },
     by decide +kernel⟩⟩
theorem test_meets_DetectionsAndRepairs_2 :
    (∃ (s : State) (i : Nat) (cls : Nat) (u : Nat), u ≤ s.now ∧ SMap.find? s.err.windows (i * 64 + cls) = some (u, [])) ∧
    (∃ (s : State) (i : Nat) (cls : Nat) (u : Nat) (k : Nat) (e : ErrRec), u ≤ s.now ∧ SMap.find? s.err.windows (i * 64 + cls) = some (u, [k]) ∧
      s.errAt k = some e) ∧
    (∃ (s : State) (i : Nat) (cls : Nat) (u : Nat) (b : _), u ≤ s.now ∧ SMap.find? s.host.powerHeld (i * 64 + cls) = some (u, [b])) ∧
    (∃ (s : State) (die : Nat) (pair : Nat) (replica : Option Nat), die < 4 ∧ pair < 8 ∧ (∀ st,
      8 * pair ≤ st → st < 8 * pair + 8 → (s.stream die st).stepSlots = []) ∧ SMap.find? s.strm.mismatchAt (die * 8 + pair) = none) ∧
    (∃ (s : State) (die : Nat) (pair : Nat) (replica : Option Nat) (u : Nat), die < 4 ∧ pair < 8 ∧ (∀ st,
      8 * pair ≤ st → st < 8 * pair + 8 → (s.stream die st).stepSlots = []) ∧ SMap.find? s.strm.mismatchAt (die * 8 + pair) = some u ∧
      s.now < u + 86400000000000) ∧
    (∃ (s : State) (die : Nat) (pair : Nat) (replica : Option Nat), die < 4 ∧ pair < 8 ∧ (∀ st,
      8 * pair ≤ st → st < 8 * pair + 8 → (s.stream die st).stepSlots = []) ∧ s.pairRetired die pair = false) ∧
    (∃ (s : State) (die : Nat) (pair : Nat) (replica : Option Nat), die < 4 ∧ pair < 8 ∧ (∀ st,
      8 * pair ≤ st → st < 8 * pair + 8 → (s.stream die st).stepSlots = []) ∧ s.pairRetired die pair = true) :=
  ⟨⟨{ wMod 3 with err := { Err.reset with windows := [(3 * 64 + 4, (0, []))], records := [(77, { time := 0, cls := 4, kind := 0, source := 0, die := 0, ctx := 0, action := 0, flags := 0, count := 1, slot := 0, last := 0, addr := 0, step := 0, detail := 0, seq := 4, detail2 := 0 })] } },
    3, 4, 0, by decide +kernel⟩,
   ⟨{ wMod 3 with err := { Err.reset with windows := [(3 * 64 + 4, (0, [77]))], records := [(77, { time := 0, cls := 4, kind := 0, source := 0, die := 0, ctx := 0, action := 0, flags := 0, count := 1, slot := 0, last := 0, addr := 0, step := 0, detail := 0, seq := 4, detail2 := 0 })] } },
     3, 4, 0, 77,
     { time := 0, cls := 4, kind := 0, source := 0, die := 0, ctx := 0, action := 0, flags := 0, count := 1, slot := 0, last := 0, addr := 0, step := 0, detail := 0, seq := 4, detail2 := 0 },
     by decide +kernel⟩,
   ⟨{ wMod 3 with host := { HostSt.reset with powerHeld := [(3 * 64 + 4, (0, [[1#8]]))] } }, 3, 4, 0, [1#8], by decide +kernel⟩,
   ⟨wMod 3, 3, 7, none, by refine ⟨by decide, by decide, ?_, by decide +kernel⟩; intro st _ _; rfl⟩,
   ⟨{ wMod 3 with now := 86400000000008, strm := { Strm.reset with mismatchAt := [(31, 9)] } }, 3, 7, none, 9, by refine ⟨by decide, by decide, ?_, by decide +kernel, by decide +kernel⟩; intro st _ _; rfl⟩,
   ⟨wMod 3, 3, 7, none, by refine ⟨by decide, by decide, ?_, by decide +kernel⟩; intro st _ _; rfl⟩,
   ⟨{ wMod 3 with fuses := { Fuses.shipped with retiredPairs := [(3, 7)] } }, 3, 7, none, by refine ⟨by decide, by decide, ?_, by decide +kernel⟩; intro st _ _; rfl⟩⟩
theorem test_meets_DetectionsAndRepairs_3 :
    (∃ (s : State) (die : Nat) (y : _) (x : _), die < 4 ∧ y < 24 ∧ x < s.cols ∧ s.stew.faulty.contains (die, y, x) = true ∧ s.dieQuiet die = true ∧
      s.fuses.retiredDies.contains die = false ∧ s.dieP die ≤ 2 ∧ 2 ≤ s.spareCols die) ∧
    (∃ (s : State) (die : Nat) (y : _) (x : _), die < 4 ∧ y < 24 ∧ x < s.cols ∧ s.stew.faulty.contains (die, y, x) = true ∧ s.dieQuiet die = true ∧
      s.fuses.retiredDies.contains die = false ∧ s.dieP die ≤ 2 ∧ s.spareCols die < 2) ∧
    (∃ (s : State) (die : Nat) (y : _) (x : _), die < 4 ∧ y < 24 ∧ x < s.cols ∧ (s.stew.faulty.contains (die, y,
      x) = false ∨ s.dieQuiet die = false)) ∧
    (∃ (s : State) (e : _), e < 6 ∧ s.modState = 5) ∧
    (∃ (s : State) (e : _), e < 6 ∧ s.modState = 3 ∧ s.wts.pkgs = [] ∧ (∀ j < 6, s.rd F.VELVET_EDGE_STATE j = 0 ∨ j = e)) ∧
    (∃ (s : State) (cls : Nat) (kind : Nat) (source : Nat) (die : Nat) (c : Nat) (addr : Nat) (step : Nat) (detail : Nat) (replica : Option Nat),
      kind ≤ 15 ∧ die < 4 ∧ c < 4 ∧ cls = 2) ∧
    (∃ (s : State) (cls : Nat) (kind : Nat) (source : Nat) (die : Nat) (c : Nat) (addr : Nat) (step : Nat) (detail : Nat) (replica : Option Nat),
      kind ≤ 15 ∧ die < 4 ∧ c < 4 ∧ 0x0A ≤ cls ∧ cls ≤ 0x0C ∧ s.stepIn die (some c) = [] ∧ (s.slotState die c = 2 ∨ s.active die = some c)) :=
  ⟨⟨{ (wMod 3).wr F.DIE_STATUS_CD1_PSTATE 0 with stew := { Stew.reset with faulty := [(1, 23, 0)] } }, 1, 23, 0, by decide +kernel⟩,
   ⟨{ (wMod 3).wr F.DIE_STATUS_CD1_PSTATE 0 with fuses := { Fuses.shipped with repairs := List.replicate 9 (1, 0) }, stew := { Stew.reset with faulty := [(1, 23, 0)] } },
     1, 23, 0, by decide +kernel⟩,
   ⟨wMod 3, 3, 23, 0, by decide +kernel⟩,
   ⟨wMod 5, 5, by decide +kernel⟩,
   ⟨(wMod 3).wr F.VELVET_EDGE_STATE 2 5, 5, by decide +kernel⟩,
   ⟨wSlot (wMod 3) 2, 2, 0, 3, 0, 1, 9, 8, 7, none, by decide +kernel⟩,
   ⟨wSlot ((wMod 3).setQueue 0 5 1 { Queue.empty with toks := [1] }) 2, 0x0B, 0, 3, 0, 1, 9, 8, 7, none, by decide +kernel⟩⟩
theorem test_meets_DetectionsAndRepairs_4 :
    (∃ (s : State) (cls : Nat) (kind : Nat) (source : Nat) (die : Nat) (addr : Nat) (step : Nat) (detail : Nat) (replica : Option Nat),
      (cls = 7 ∨ cls = 8 ∨ cls = 0x18) ∧ kind ≤ 15 ∧ die ≤ 5 ∧ s.pte (pageOf addr) = none) ∧
    (∃ (s : State) (mem : Nat) (kind : Nat) (source : Nat) (die : Nat) (addr : Nat), mem < 4) ∧
    (∃ (s : State) (mem : Nat) (kind : Nat) (source : Nat) (die : Nat) (addr : Nat), mem < 4) ∧
    (∃ (s : State) (mem : Nat) (kind : Nat) (source : Nat) (die : Nat) (addr : Nat), mem < 4 ∧ (mem = 1 ∨ mem = 3) ∧ s.pte (pageOf addr) = none) ∧
    (∃ (s : State) (mem : Nat) (kind : Nat) (source : Nat) (die : Nat) (addr : Nat), mem < 4 ∧ (mem = 1 ∨ mem = 3) ∧ s.pte (pageOf addr) = none) ∧
    (∃ (s : State) (die : Nat) (pair : Nat) (replica : Option Nat), 4 ≤ die ∧ die < 6 ∧ pair < 4) :=
  ⟨⟨wMod 3, 8, 0, 3, 5, 9, 8, 7, none, by decide +kernel⟩,
   ⟨wMod 3, 1, 0, 0, 0, 0, by decide +kernel⟩,
   ⟨wMod 3, 3, 0, 0, 0, 0, by decide +kernel⟩,
   ⟨wMod 3, 3, 0, 0, 0, 0, by decide +kernel⟩,
   ⟨wMod 3, 1, 0, 0, 0, 0, by decide +kernel⟩,
   ⟨wMod 3, 5, 3, none, by decide +kernel⟩⟩
theorem test_meets_RouterSelectsWithinCapacity_1 :
    (∃ (s : State) (die : Nat) (c : Nat) (t0 : _) (t1 : _) (rest : _), die < 4 ∧ c < 4 ∧ s.active die = some c ∧ s.inv die c = none ∧
      (s.sumsOf die).any (fun m => decide (m.2.1 = c)) = false ∧ (s.queue die identQid c).toks = t0 :: t1 :: rest ∧
      s.headerOk die c (lane t0 32 0) (lane t1 32 0) = true) ∧
    (∃ (s : State) (die : Nat) (c : Nat) (t0 : _) (t1 : _) (rest : _), die < 4 ∧ c < 4 ∧ s.active die = some c ∧ s.inv die c = none ∧
      (s.sumsOf die).any (fun m => decide (m.2.1 = c)) = false ∧ (s.queue die identQid c).toks = t0 :: t1 :: rest ∧
      s.headerOk die c (lane t0 32 0) (lane t1 32 0) = false) ∧
    (∃ (s : State) (die : Nat) (c : Nat) (v : _) (tok : _) (i0 : _) (i1 : _) (rest : List Tok), die < 4 ∧ c < 4 ∧ s.active die = some c ∧
      s.inv die c = some v ∧ v.selected = false ∧ v.logits = [] ∧ v.consumed < v.live ∧ v.table < 8 ∧ s.headTok die scoreQid c = some tok ∧
      (s.queue die identQid c).toks = i0 :: i1 :: rest ∧ lane i0 32 0 < 65536 ∧ lane i1 32 0 < 1048576 ∧ s.tExperts die c v.table ≤ 32) ∧
    (∃ (s : State) (die : Nat) (c : Nat) (v : _) (rest : List Nat) (cs : _), die < 4 ∧ c < 4 ∧ s.routedOf die = c :: rest ∧ s.inv die c = some v ∧
      v.ordered = false ∧ cs = (capacity (s.slotLinen die c) (s.tCap die c v.table) [] (sortChoices v.choices)) ∧ dupRow v.rows = false ∧ (∀ x ∈ cs,
      acceptedOf cs x.expert ≤ s.tListCap die c v.table)) ∧
    (∃ (s : State) (die : Nat) (c : Nat) (v : _) (rest : List Nat), die < 4 ∧ c < 4 ∧ s.routedOf die = c :: rest ∧ s.inv die c = some v ∧
      v.ordered = false ∧ dupRow v.rows = true) ∧
    (∃ (s : State) (die : Nat) (c : Nat) (v : _) (rest : List Nat), die < 4 ∧ c < 4 ∧ s.routedOf die = c :: rest ∧ s.inv die c = some v ∧
      v.ordered = true ∧ v.listed = false ∧ v.table < 8 ∧ (∀ e ∈ v.writes, e.2 = 0) ∧ s.rowsAway die c v = [] ∧
      (∀ e ∈ s.listPlan die c v.table [] v.choices, s.rangeAccess State.writeAccess e.1 (128 + s.tRowBytes die c v.table) = .ok) ∧
      s.rangeAccess State.writeAccess (s.tReportBase die c v.table) (reportBytes ((s.rd F.ROUTER_INVOCATIONS_COUNT c (.die die) + 1) % 2 ^ 32) (s.tK die c v.table) v.table v).length = .ok) :=
  ⟨⟨(((wTable.setQueue 0 identQid 0 { Queue.empty with len := 9, toks := [0x20002, 3, 0, 5] }).setQueue 0 scoreQid 0 { Queue.empty with len := 4, toks := [] })),
    0, 0, 0x20002, 3, [0, 5], by decide +kernel⟩,
   ⟨(((wTable.setQueue 0 identQid 0 { Queue.empty with len := 9, toks := [0x20002, 8, 0, 5] }).setQueue 0 scoreQid 0 { Queue.empty with len := 4, toks := [] })),
     0, 0, 0x20002, 8, [0, 5], by decide +kernel⟩,
   ⟨{ (((wTable.setQueue 0 identQid 0 { Queue.empty with len := 9, toks := [7, 5] }).setQueue 0 scoreQid 0 { Queue.empty with len := 4, toks := [0x3F8000003F000000] })) with arr := { ((((wTable.setQueue 0 identQid 0 { Queue.empty with len := 9, toks := [7, 5] }).setQueue 0 scoreQid 0 { Queue.empty with len := 4, toks := [0x3F8000003F000000] }))).arr with invs := [(0, wInv [] [] false)] } },
     0, 0, wInv [] [] false, 0x3F8000003F000000, 7, 5, [], by decide +kernel⟩,
   ⟨wRouted (wInv [wRow 7, wRow 8] [wChoice 0 1 false, wChoice 1 1 false] false), 0, 0, wInv [wRow 7, wRow 8] [wChoice 0 1 false,
     wChoice 1 1 false] false, [], (capacity ((wRouted (wInv [wRow 7, wRow 8] [wChoice 0 1 false,
     wChoice 1 1 false] false)).slotLinen (0) (0)) ((wRouted (wInv [wRow 7, wRow 8] [wChoice 0 1 false,
     wChoice 1 1 false] false)).tCap (0) (0) (wInv [wRow 7, wRow 8] [wChoice 0 1 false,
     wChoice 1 1 false] false).table) [] (sortChoices (wInv [wRow 7, wRow 8] [wChoice 0 1 false, wChoice 1 1 false] false).choices)),
     by decide +kernel⟩,
   ⟨wRouted (wInv [wRow 7, wRow 7] [wChoice 0 1 false, wChoice 1 1 false] false), 0, 0, wInv [wRow 7, wRow 7] [wChoice 0 1 false,
     wChoice 1 1 false] false, [], by decide +kernel⟩,
   ⟨wRouted (wInv [wRow 7, wRow 8] [wChoice 0 1 true, wChoice 1 1 false] true), 0, 0, wInv [wRow 7, wRow 8] [wChoice 0 1 true,
     wChoice 1 1 false] true, [], by decide +kernel⟩⟩
theorem test_meets_RouterSelectsWithinCapacity_2 :
    (∃ (s : State) (die : Nat) (c : Nat) (src : Nat) (p : ExpertPart) (body : List Byte) (data : List Byte), die < 4 ∧ c < 4 ∧
      s.closed src 0x10 = false ∧ s.stew.parts = [] ∧ p.first = 0 ∧ 0 < p.count ∧ body.length % p.count = 0 ∧ 128 < body.length / p.count ∧
      p.count < p.total ∧ p.lastPart = false) ∧
    (∃ (s : State) (die : Nat) (c : Nat) (src : _) (p : ExpertPart) (body : List Byte) (q1 : Nat) (q2 : Nat) (r : Remote), die < 4 ∧ c < 4 ∧
      s.closed src 0x11 = false ∧ s.stew.lists = [r] ∧ r.module = src ∧ r.step = p.step ∧ r.table = p.table ∧ r.expert = p.expert ∧ r.total = p.total ∧
      r.got = 0 ∧ p.first = 0 ∧ 0 < p.count ∧ body.length % p.count = 0 ∧ 128 < body.length / p.count ∧ p.count < p.total ∧ p.lastPart = false) ∧
    (∃ (s : State) (die : Nat) (c : Nat) (src : _) (p : ExpertPart) (body : List Byte) (q1 : Nat) (q2 : Nat) (r : Remote), die < 4 ∧ c < 4 ∧
      s.closed src 0x11 = false ∧ s.stew.lists = [r] ∧ r.module = src ∧ r.step = p.step ∧ r.table = p.table ∧ r.expert = p.expert ∧ r.total = p.total ∧
      r.got = 0 ∧ p.first = 0 ∧ 0 < p.count ∧ body.length % p.count = 0 ∧ 128 < body.length / p.count ∧ p.count = p.total ∧ p.lastPart = true) ∧
    (∃ (s : State) (die : Nat) (c : Nat) (v : _) (rest : List Nat) (cs : _) (x : _), die < 4 ∧ c < 4 ∧ s.routedOf die = c :: rest ∧
      s.inv die c = some v ∧ v.ordered = false ∧ cs = (capacity (s.slotLinen die c) (s.tCap die c v.table) [] (sortChoices v.choices)) ∧ x ∈ cs ∧
      dupRow v.rows = false ∧ s.tListCap die c v.table < acceptedOf cs x.expert) ∧
    (∃ (s : State) (die : Nat) (c : Nat) (v : _) (rest : List Nat), die < 4 ∧ c < 4 ∧ s.routedOf die = c :: rest ∧ s.inv die c = some v ∧
      v.ordered = true ∧ v.listed = false ∧ (∃ e ∈ v.writes, 0 < e.2)) ∧
    (∃ (s : State) (die : Nat) (c : Nat) (src : Nat) (p : ExpertPart) (body : List Byte) (data : List Byte), die < 4 ∧ c < 4 ∧
      s.closed src 0x10 = false ∧ s.stew.parts = [] ∧ p.first = 0 ∧ 0 < p.count ∧ body.length % p.count = 0 ∧ 128 < body.length / p.count ∧
      p.count = p.total ∧ p.lastPart = true) :=
  ⟨⟨wIdent (wNear), 0, 0, 6, { step := 5, table := 3, lastPart := false, expert := 9, count := 1, first := 0, total := 2 }, List.replicate 192 7#8,
    [], by decide +kernel⟩,
   ⟨wIdent ({ wNear with stew := { Stew.reset with lists := [{ module := 6, die := 0, slot := 1, step := 5, table := 3, expert := 9, total := 2, got := 0, rows := [] }] } }),
     0, 0, 6, { step := 5, table := 3, lastPart := false, expert := 9, count := 1, first := 0, total := 2 }, List.replicate 192 7#8, 3, 4,
     { module := 6, die := 0, slot := 1, step := 5, table := 3, expert := 9, total := 2, got := 0, rows := [] }, by decide +kernel⟩,
   ⟨wIdent ({ wNear with stew := { Stew.reset with lists := [{ module := 6, die := 0, slot := 1, step := 5, table := 3, expert := 9, total := 2, got := 0, rows := [] }] } }),
     0, 0, 6, { step := 5, table := 3, lastPart := true, expert := 9, count := 2, first := 0, total := 2 }, List.replicate 384 7#8, 3, 4,
     { module := 6, die := 0, slot := 1, step := 5, table := 3, expert := 9, total := 2, got := 0, rows := [] }, by decide +kernel⟩,
   ⟨(wRouted (wInv [wRow 7, wRow 8] [wChoice 0 1 false, wChoice 1 1 false] false)).setWord .ROUTER_TABLE 3 (.die 0) 1 6, 0, 0, wInv [wRow 7,
     wRow 8] [wChoice 0 1 false, wChoice 1 1 false] false, [], (capacity (((wRouted (wInv [wRow 7, wRow 8] [wChoice 0 1 false,
     wChoice 1 1 false] false)).setWord .ROUTER_TABLE 3 (.die 0) 1 6).slotLinen (0) (0)) (((wRouted (wInv [wRow 7, wRow 8] [wChoice 0 1 false,
     wChoice 1 1 false] false)).setWord .ROUTER_TABLE 3 (.die 0) 1 6).tCap (0) (0) (wInv [wRow 7, wRow 8] [wChoice 0 1 false,
     wChoice 1 1 false] false).table) [] (sortChoices (wInv [wRow 7, wRow 8] [wChoice 0 1 false, wChoice 1 1 false] false).choices)),
     wChoice 0 1 true, by decide +kernel⟩,
   ⟨wRouted ({ wInv [wRow 7, wRow 8] [wChoice 0 1 true, wChoice 1 1 false] true with writes := [(0, 1)] }), 0, 0,
     { wInv [wRow 7, wRow 8] [wChoice 0 1 true, wChoice 1 1 false] true with writes := [(0, 1)] }, [], by decide +kernel⟩,
   ⟨wIdent (wNear), 0, 0, 6, { step := 5, table := 3, lastPart := true, expert := 9, count := 2, first := 0, total := 2 }, List.replicate 384 7#8, [],
     by decide +kernel⟩⟩
theorem test_meets_TierRequestsChangeTheirPages_1 :
    (∃ (s : State) (req : BitVec 256) (r : _), s.mas.reqs = [] ∧ r = (req.toNat) ∧ s.ringHas 1 r ∧ s.mapFits (mqBudget r) (mqCount r) = true ∧
      s.leavesFit (mqPages r) = true ∧ (∀ p ∈ mqPages r, s.mappable p = true ∧ s.jobOf p = none)) ∧
    (∃ (s : State) (req : BitVec 256) (r : _), s.mas.reqs = [] ∧ r = (req.toNat) ∧ s.ringHas 2 r ∧ (∀ p ∈ mqPages r, ∃ e, s.pte p = some e ∧
      e.isSealed = false ∧ e.freeing = false ∧ e.sealing = false)) ∧
    (∃ (s : State) (req : BitVec 256) (r : _), s.mas.reqs = [] ∧ r = (req.toNat) ∧ s.ringHas 3 r ∧ (∀ p ∈ mqPages r, ∃ e, s.pte p = some e ∧
      e.freeing = false)) ∧
    (∃ (s : State) (req : BitVec 256) (r : _), s.mas.reqs = [] ∧ r = (req.toNat) ∧ s.ringHas 4 r ∧ (∀ p ∈ mqPages r, ∃ e, s.pte p = some e ∧
      e.near = true ∧ e.freeing = false)) ∧
    (∃ (s : State) (req : BitVec 256) (r : _) (pn : _) (e : _), s.mas.reqs = [] ∧ r = (req.toNat) ∧ pn = (pageOf (mqAddr r)) ∧ s.ringHas 4 r ∧
      mqCount r = 1 ∧ s.pte pn = some e ∧ e.near = false ∧ e.freeing = false ∧ pteLost e = false ∧ s.jobOf pn = none) ∧
    (∃ (s : State) (req : BitVec 256) (r : _) (pn : _) (e : _), s.mas.reqs = [] ∧ r = (req.toNat) ∧ pn = (pageOf (mqAddr r)) ∧ s.ringHas 5 r ∧
      mqCount r = 1 ∧ s.pte pn = some e ∧ e.isSealed = true ∧ e.freeing = false ∧ e.near = true ∧ e.place = 1) ∧
    (∃ (s : State) (req : BitVec 256) (r : _) (pn : _) (e : _), s.mas.reqs = [] ∧ r = (req.toNat) ∧ pn = (pageOf (mqAddr r)) ∧ s.ringHas 5 r ∧
      mqCount r = 1 ∧ s.pte pn = some e ∧ e.isSealed = true ∧ e.freeing = false ∧ e.near = true ∧ e.place ≠ 1 ∧ s.jobOf pn = none ∧ e.bulk = true ∧
      s.keptPage pn = false) :=
  ⟨⟨wRingS (wPages (wNear) []), wMq 1 2 0 5 0, ((wMq 1 2 0 5 0).toNat), by decide +kernel, by decide +kernel, ⟨by decide +kernel, by decide +kernel⟩,
    by decide +kernel⟩,
   ⟨wRingS (wPages (wNear) [(512, wPte 0 52), (513, wPte 0 53)]), wMq 2 2 32768 3 0, ((wMq 2 2 32768 3 0).toNat), by decide +kernel,
     by decide +kernel, ⟨by decide +kernel, by decide +kernel⟩, by decide +kernel⟩,
   ⟨wRingS (wPages (wNear) [(512, wPte 0 52), (513, wSealed)]), wMq 3 2 0 0 0, ((wMq 3 2 0 0 0).toNat), by decide +kernel, by decide +kernel,
     ⟨by decide +kernel, by decide +kernel⟩, by decide +kernel⟩,
   ⟨wRingS (wPages (wNear) [(512, wPte 0 52), (513, wSealed)]), wMq 4 2 0 0 0, ((wMq 4 2 0 0 0).toNat), by decide +kernel, by decide +kernel,
     ⟨by decide +kernel, by decide +kernel⟩, by decide +kernel⟩,
   ⟨wRingS (wPages (wNear) [(512, { wSealed with near := false })]), wMq 4 1 0 0 0, ((wMq 4 1 0 0 0).toNat),
     (pageOf (mqAddr (((wMq 4 1 0 0 0).toNat)))), { wSealed with near := false }, by decide +kernel, by decide +kernel, by decide +kernel,
     ⟨by decide +kernel, by decide +kernel⟩, by decide +kernel⟩,
   ⟨wRingS (wPages (wNear) [(512, { wSealed with place := 1 })]), wMq 5 1 0 0 0, ((wMq 5 1 0 0 0).toNat), (pageOf (mqAddr (((wMq 5 1 0 0 0).toNat)))),
     { wSealed with place := 1 }, by decide +kernel, by decide +kernel, by decide +kernel, ⟨by decide +kernel, by decide +kernel⟩, by decide +kernel⟩,
   ⟨wRingS (wPages (wNear) [(512, wSealed)]), wMq 5 1 0 0 0, ((wMq 5 1 0 0 0).toNat), (pageOf (mqAddr (((wMq 5 1 0 0 0).toNat)))), wSealed,
     by decide +kernel, by decide +kernel, by decide +kernel, ⟨by decide +kernel, by decide +kernel⟩, by decide +kernel⟩⟩
theorem test_meets_TierRequestsChangeTheirPages_2 :
    (∃ (s : State) (req : BitVec 256) (r : _), s.mas.reqs = [] ∧ r = (req.toNat) ∧ s.ringHas 6 r ∧ (∀ p ∈ mqPages r, ∃ e, s.pte p = some e ∧
      e.freeing = false ∧ (mqArg0 r = 2 → e.isSealed = true → e.bulk = true))) ∧
    (∃ (s : State) (req : BitVec 256) (r : _) (pn : _) (e : _), s.mas.reqs = [] ∧ r = (req.toNat) ∧ pn = (pageOf (mqAddr r)) ∧ s.ringHas 7 r ∧
      mqCount r = 1 ∧ s.pte pn = some e ∧ e.freeing = false ∧ s.jobOf pn = none ∧ mqArg0 r = 1 ∧ e.bulk = true ∧ e.deep = true) ∧
    (∃ (s : State) (req : BitVec 256) (r : _) (pn : _) (e : _), s.mas.reqs = [] ∧ r = (req.toNat) ∧ pn = (pageOf (mqAddr r)) ∧ s.ringHas 7 r ∧
      mqCount r = 1 ∧ s.pte pn = some e ∧ e.freeing = false ∧ s.jobOf pn = none ∧ mqArg0 r = 2 ∧ e.deep = true ∧ pteCopies e ≤ 1) ∧
    (∃ (s : State) (req : BitVec 256) (c : Sys2Proof.Instr × Nat), s.mas.reqs = [] ∧ c ∈ [(Sys2Proof.Instr.map req, 1), (.seal req, 2), (.free req,
      3), (.promote req, 4), (.demote req, 5), (.setPlace req, 6), (.drop req, 7)] ∧ s.rd F.MIG_HEAD_INDEX = s.rd F.MIG_TAIL_INDEX) ∧
    (∃ (s : State) (req : BitVec 256) (r : _) (c : Sys2Proof.Instr × Nat), s.mas.reqs = [] ∧ r = (req.toNat) ∧ c ∈ [(Sys2Proof.Instr.map req, 1),
      (.seal req, 2), (.free req, 3), (.promote req, 4), (.demote req, 5), (.setPlace req, 6), (.drop req, 7)] ∧
      s.rd F.MIG_HEAD_INDEX ≠ s.rd F.MIG_TAIL_INDEX ∧ mqValid c.2 r = false) ∧
    (∃ (s : State) (req : BitVec 256) (r : _) (pn : _) (c : Sys2Proof.Instr × Nat), s.mas.reqs = [] ∧ r = (req.toNat) ∧ pn = (pageOf (mqAddr r)) ∧
      c ∈ [(Sys2Proof.Instr.map req, 1), (.seal req, 2), (.free req, 3), (.promote req, 4), (.demote req, 5), (.setPlace req, 6), (.drop req, 7)] ∧
      c.2 ≠ 1 ∧ s.ringHas c.2 r ∧ s.pte pn = none) ∧
    (∃ (s : State) (req : BitVec 256) (r : _), s.mas.reqs = [] ∧ r = (req.toNat) ∧ s.ringHas 1 r ∧ s.mapFits (mqBudget r) (mqCount r) = false) :=
  ⟨⟨wRingS (wPages (wNear) [(512, wPte 0 52), (513, wSealed)]), wMq 6 2 3 0 9, ((wMq 6 2 3 0 9).toNat), by decide +kernel, by decide +kernel,
    ⟨by decide +kernel, by decide +kernel⟩, by decide +kernel⟩,
   ⟨wRingS (wPages (wNear) [(512, { wSealed with deep := true, deepDrive := 2, deepExtent := 513 })]), wMq 7 1 1 0 0, ((wMq 7 1 1 0 0).toNat),
     (pageOf (mqAddr (((wMq 7 1 1 0 0).toNat)))), { wSealed with deep := true, deepDrive := 2, deepExtent := 513 }, by decide +kernel,
     by decide +kernel, by decide +kernel, ⟨by decide +kernel, by decide +kernel⟩, by decide +kernel⟩,
   ⟨wRingS (wPages (wNear) [(512, { wSealed with near := false, bulk := false, bulkFrame := 0, deep := true, deepDrive := 2, deepExtent := 513 })]),
     wMq 7 1 2 0 0, ((wMq 7 1 2 0 0).toNat), (pageOf (mqAddr (((wMq 7 1 2 0 0).toNat)))),
     { wSealed with near := false, bulk := false, bulkFrame := 0, deep := true, deepDrive := 2, deepExtent := 513 }, by decide +kernel,
     by decide +kernel, by decide +kernel, ⟨by decide +kernel, by decide +kernel⟩, by decide +kernel⟩,
   ⟨wPages wNear [(512, wPte 0 52)], wMq 2 1 0 0 0, (.seal (wMq 2 1 0 0 0), 2), by decide +kernel⟩,
   ⟨wRingS (wPages (wNear) [(512, wPte 0 52)]), wMq 5 0 0 0 0, ((wMq 5 0 0 0 0).toNat), (.demote (wMq 5 0 0 0 0), 5), by decide +kernel⟩,
   ⟨wRingS (wPages (wNear) []), wMq 3 1 0 0 0, ((wMq 3 1 0 0 0).toNat), (pageOf (mqAddr (((wMq 3 1 0 0 0).toNat)))), (.free (wMq 3 1 0 0 0), 3),
     by decide +kernel, by decide +kernel, by decide +kernel, (by decide +kernel), by decide +kernel, ⟨by decide +kernel, by decide +kernel⟩,
     by decide +kernel⟩,
   ⟨wRingS ((wPages (wMod 3) []).wr F.STACKS_ONLINE_STACK_ONLINE 0), wMq 1 1 0 0 0, ((wMq 1 1 0 0 0).toNat), by decide +kernel, by decide +kernel,
     ⟨by decide +kernel, by decide +kernel⟩, by decide +kernel⟩⟩
theorem test_meets_TierRequestsChangeTheirPages_3 :
    (∃ (s : State) (req : BitVec 256) (r : _) (pn : _) (e : _), s.mas.reqs = [] ∧ r = (req.toNat) ∧ pn = (pageOf (mqAddr r)) ∧ s.ringHas 5 r ∧
      mqCount r = 1 ∧ s.pte pn = some e ∧ e.isSealed = true ∧ e.freeing = false ∧ e.near = true ∧ e.place ≠ 1 ∧ s.jobOf pn = none ∧ e.bulk = false ∧
      0 < s.bulkFree ∧ s.keptPage pn = false) ∧
    (∃ (s : State) (req : BitVec 256) (r : _) (pn : _) (e : _), s.mas.reqs = [] ∧ r = (req.toNat) ∧ pn = (pageOf (mqAddr r)) ∧ s.ringHas 6 r ∧
      mqCount r = 1 ∧ mqArg0 r = 2 ∧ s.pte pn = some e ∧ e.freeing = false ∧ e.isSealed = true ∧ e.bulk = false ∧ pteLost e = false ∧
      s.jobOf pn = none ∧ s.bulkFree = 0) ∧
    (∃ (s : State) (req : BitVec 256) (r : _) (pn : _) (e : _), s.mas.reqs = [] ∧ r = (req.toNat) ∧ pn = (pageOf (mqAddr r)) ∧ s.ringHas 6 r ∧
      mqCount r = 1 ∧ mqArg0 r = 2 ∧ s.pte pn = some e ∧ e.freeing = false ∧ e.isSealed = true ∧ e.bulk = false ∧ pteLost e = false ∧
      s.jobOf pn = none ∧ 0 < s.bulkFree) ∧
    (∃ (s : State) (req : BitVec 256) (r : _) (pn : _) (e : _), s.mas.reqs = [] ∧ r = (req.toNat) ∧ pn = (pageOf (mqAddr r)) ∧ s.ringHas 7 r ∧
      mqCount r = 1 ∧ s.pte pn = some e ∧ e.freeing = false ∧ s.jobOf pn = none ∧ mqArg0 r = 1 ∧ e.bulk = true ∧ e.deep = false) ∧
    (∃ (s : State) (req : BitVec 256) (r : _) (pn : _) (e : _), s.mas.reqs = [] ∧ r = (req.toNat) ∧ pn = (pageOf (mqAddr r)) ∧ s.ringHas 7 r ∧
      mqCount r = 1 ∧ s.pte pn = some e ∧ e.freeing = false ∧ s.jobOf pn = none ∧ mqArg0 r = 2 ∧ e.deep = true ∧ 1 < pteCopies e) ∧
    (∃ (s : State) (req : BitVec 256) (r : _) (pn : _) (e : _), s.mas.reqs = [] ∧ r = (req.toNat) ∧ pn = (pageOf (mqAddr r)) ∧ s.ringHas 5 r ∧
      mqCount r = 1 ∧ s.pte pn = some e ∧ e.isSealed = true ∧ e.freeing = false ∧ e.near = true ∧ e.place ≠ 1 ∧ s.jobOf pn = none ∧
      s.keptPage pn = true) :=
  ⟨⟨wRingS (wPages (wNear.wr F.BULK_FRAMES_COUNT 100) [(512, { wSealed with bulk := false, bulkFrame := 0 })]), wMq 5 1 0 0 0,
    ((wMq 5 1 0 0 0).toNat), (pageOf (mqAddr (((wMq 5 1 0 0 0).toNat)))), { wSealed with bulk := false, bulkFrame := 0 }, by decide +kernel,
    by decide +kernel, by decide +kernel, ⟨by decide +kernel, by decide +kernel⟩, by decide +kernel⟩,
   ⟨wRingS (wPages (wNear) [(512, { wSealed with bulk := false, bulkFrame := 0 })]), wMq 6 1 2 0 0, ((wMq 6 1 2 0 0).toNat),
     (pageOf (mqAddr (((wMq 6 1 2 0 0).toNat)))), { wSealed with bulk := false, bulkFrame := 0 }, by decide +kernel, by decide +kernel,
     by decide +kernel, ⟨by decide +kernel, by decide +kernel⟩, by decide +kernel⟩,
   ⟨wRingS (wPages (wNear.wr F.BULK_FRAMES_COUNT 100) [(512, { wSealed with bulk := false, bulkFrame := 0 })]), wMq 6 1 2 0 0,
     ((wMq 6 1 2 0 0).toNat), (pageOf (mqAddr (((wMq 6 1 2 0 0).toNat)))), { wSealed with bulk := false, bulkFrame := 0 }, by decide +kernel,
     by decide +kernel, by decide +kernel, ⟨by decide +kernel, by decide +kernel⟩, by decide +kernel⟩,
   ⟨wRingS (wPages (wNear) [(512, wSealed)]), wMq 7 1 1 0 0, ((wMq 7 1 1 0 0).toNat), (pageOf (mqAddr (((wMq 7 1 1 0 0).toNat)))), wSealed,
     by decide +kernel, by decide +kernel, by decide +kernel, ⟨by decide +kernel, by decide +kernel⟩, by decide +kernel⟩,
   ⟨(fun s : State => { s with mas := { s.mas with drives := [(2, { wDrive with records := [(513, wDeepRec)] })] } }) (wRingS (wPages (wNear) [(512,
     { wSealed with deep := true, deepDrive := 2, deepExtent := 513 })])), wMq 7 1 2 0 0, ((wMq 7 1 2 0 0).toNat),
     (pageOf (mqAddr (((wMq 7 1 2 0 0).toNat)))), { wSealed with deep := true, deepDrive := 2, deepExtent := 513 }, by decide +kernel,
     by decide +kernel, by decide +kernel, ⟨by decide +kernel, by decide +kernel⟩, by decide +kernel⟩,
   ⟨(wRingS (wPages (wNear) [(512,
     wSealed)])).setStream 0 3 { StreamSt.empty with pins := [{ tag := 4, entry := 0, lines := [0x40000200], target := 1, complete := true, released := false }] },
     wMq 5 1 0 0 0, ((wMq 5 1 0 0 0).toNat), (pageOf (mqAddr (((wMq 5 1 0 0 0).toNat)))), wSealed, by decide +kernel, by decide +kernel,
     by decide +kernel, ⟨by decide +kernel, by decide +kernel⟩, by decide +kernel⟩⟩
theorem test_meets_TiersMoveAndLosePages_1 :
    (∃ (s : State) (pn : Nat) (e : Pte) (q : MigReq) (len : _), s.pte pn = some e ∧ s.mas.reqs = [q] ∧ q.waiting = [pn] ∧ mqRest q = [] ∧ s.noneWaits ∧
      len = (if pn + 1 = pageOf (mqAddr q.word) + mqCount q.word then mqArg0 q.word else 32768) ∧ mqOp q.word = 2 ∧ len ≤ 32768) ∧
    (∃ (s : State) (pn : Nat) (e : Pte) (q : MigReq), s.pte pn = some e ∧ s.mas.reqs = [q] ∧ q.waiting = [pn] ∧ mqRest q = [] ∧ s.noneWaits ∧
      mqOp q.word = 3 ∧ e.freeing = true ∧ s.jobOf pn = none ∧ s.keptPage pn = false) ∧
    (∃ (s : State) (pn : Nat) (e : Pte), s.pte pn = some e ∧ (∀ q ∈ s.mas.reqs, pn ∉ q.waiting)) ∧
    (∃ (s : State) (pn : Nat) (e : Pte), s.pte pn = some e ∧ (e.freeing = false ∨ (s.jobOf pn).isSome = true ∨ s.keptPage pn = true)) ∧
    (∃ (s : State) (pn : Nat) (e : Pte), s.pte pn = some e ∧ (e.freeing = false ∨ (s.jobOf pn).isSome = true ∨ s.keptPage pn = true)) ∧
    (∃ (s : State) (pn : Nat) (e : Pte) (g : Nat) (j : MigJob), s.pte pn = some e ∧ s.lastPart g pn j .promote ∧ s.mas.reqs = [] ∧
      j.stack ∉ s.fuses.retiredStacks) ∧
    (∃ (s : State) (pn : Nat) (e : Pte) (g : Nat) (j : MigJob), s.pte pn = some e ∧ s.lastPart g pn j .promote ∧ s.mas.reqs = [] ∧ e.isSealed = true ∧
      e.near = false ∧ e.bulk = true) :=
  ⟨⟨{ wNear with mas := { Mas.reset with pages := [(512, { wPte 0 52 with sealing := true })], mem := [(0x40000001, 7#8), (0x40000100, 9#8), (0x41000000, 1#8)], jobs := [], reqs := [({ word := (wMq 2 1 2 1 0).toNat, begun := 1, waiting := [512], pagesDone := 0, status := 0 } : MigReq)] } }, 512, { wPte 0 52 with sealing := true }, ({ word := (wMq 2 1 2 1 0).toNat, begun := 1, waiting := [512], pagesDone := 0, status := 0 } : MigReq), (if (512) + 1 = pageOf (mqAddr (({ word := (wMq 2 1 2 1 0).toNat, begun := 1, waiting := [512], pagesDone := 0, status := 0 } : MigReq)).word) + mqCount (({ word := (wMq 2 1 2 1 0).toNat, begun := 1, waiting := [512], pagesDone := 0, status := 0 } : MigReq)).word then mqArg0 (({ word := (wMq 2 1 2 1 0).toNat, begun := 1, waiting := [512], pagesDone := 0, status := 0 } : MigReq)).word else 32768), by decide +kernel, by decide +kernel, by decide +kernel, by decide +kernel, by unfold State.noneWaits; decide +kernel, by decide +kernel⟩,
   ⟨{ wNear with mas := { Mas.reset with pages := [(512, { wSealed with freeing := true })], mem := [(0x40000001, 7#8), (0x40000100, 9#8), (0x41000000, 1#8)], jobs := [], reqs := [({ word := (wMq 3 1 0 0 0).toNat, begun := 1, waiting := [512], pagesDone := 0, status := 0 } : MigReq)] } }, 512, { wSealed with freeing := true }, ({ word := (wMq 3 1 0 0 0).toNat, begun := 1, waiting := [512], pagesDone := 0, status := 0 } : MigReq), by decide +kernel, by decide +kernel, by decide +kernel, by decide +kernel, by unfold State.noneWaits; decide +kernel, by decide +kernel⟩,
   ⟨{ wNear with mas := { Mas.reset with pages := [(512, { wPte 0 52 with sealing := true })], mem := [(0x40000001, 7#8), (0x40000100, 9#8), (0x41000000, 1#8)], jobs := [], reqs := [] } },
     512, { wPte 0 52 with sealing := true }, by decide +kernel⟩,
   ⟨{ wNear with mas := { Mas.reset with pages := [(512, wSealed)], mem := [(0x40000001, 7#8), (0x40000100, 9#8), (0x41000000, 1#8)], jobs := [], reqs := [] } },
     512, wSealed, by decide +kernel⟩,
   ⟨{ wNear with mas := { Mas.reset with pages := [(512, { wSealed with freeing := true })], mem := [(0x40000001, 7#8), (0x40000100, 9#8), (0x41000000, 1#8)], jobs := [{ page := 512, kind := .promote, cls := 2, die := 0, placed := true, win := false, pool := false, stack := 3, frame := 60, left := [1], next := none, retried := false }], reqs := [] } },
     512, { wSealed with freeing := true }, by decide +kernel⟩,
   ⟨{ wNear with mas := { Mas.reset with pages := [(512, { wSealed with near := false, moving := true })], mem := [(0x40000001, 7#8), (0x40000100, 9#8), (0x41000000, 1#8)], jobs := [{ page := 512, kind := .promote, cls := 2, die := 0, placed := true, win := false, pool := false, stack := 3, frame := 60, left := [1], next := none, retried := false }], reqs := [], work := [(1, 512)] } }, 512, { wSealed with near := false, moving := true }, 1, { page := 512, kind := .promote, cls := 2, die := 0, placed := true, win := false, pool := false, stack := 3, frame := 60, left := [1], next := none, retried := false }, by decide +kernel, by unfold State.lastPart State.noneWaits; decide +kernel, by decide +kernel⟩,
   ⟨{ wNear with mas := { Mas.reset with pages := [(512, { wSealed with near := false, moving := true })], mem := [(0x40000001, 7#8), (0x40000100, 9#8), (0x41000000, 1#8)], jobs := [{ page := 512, kind := .promote, cls := 2, die := 0, placed := true, win := false, pool := false, stack := 3, frame := 60, left := [1], next := none, retried := false }], reqs := [], work := [(1, 512)] } }, 512, { wSealed with near := false, moving := true }, 1, { page := 512, kind := .promote, cls := 2, die := 0, placed := true, win := false, pool := false, stack := 3, frame := 60, left := [1], next := none, retried := false }, by decide +kernel, by unfold State.lastPart State.noneWaits; decide +kernel, by decide +kernel⟩⟩
theorem test_meets_TiersMoveAndLosePages_2 :
    (∃ (s : State) (pn : Nat) (e : Pte) (g : Nat) (j : MigJob), s.pte pn = some e ∧ s.lastPart g pn j .promote ∧ s.mas.reqs = [] ∧ e.isSealed = true ∧
      e.near = false ∧ e.bulk = true) ∧
    (∃ (s : State) (pn : Nat) (e : Pte) (g : Nat) (j : MigJob), s.pte pn = some e ∧ s.lastPart g pn j .promote ∧ s.mas.reqs = [] ∧ e.isSealed = true ∧
      e.near = false ∧ e.bulk = false ∧ e.deep = true) ∧
    (∃ (s : State) (pn : Nat) (e : Pte) (g : Nat) (o : Nat) (j : MigJob), s.pte pn = some e ∧ g < 2 ∧ SMap.find? s.mas.work g = some pn ∧
      s.jobOf pn = some j ∧ j.left = [g, o] ∧ s.noneWaits ∧ j.kind = .promote) ∧
    (∃ (s : State) (pn : Nat) (e : Pte) (g : Nat) (o : Nat) (j : MigJob), s.pte pn = some e ∧ g < 2 ∧ SMap.find? s.mas.work g = some pn ∧
      s.jobOf pn = some j ∧ j.left = [g, o] ∧ s.noneWaits ∧ j.kind ≠ .promote ∧ j.kind ≠ .demoteWait) ∧
    (∃ (s : State) (pn : Nat) (e : Pte) (g : Nat) (j : MigJob), s.pte pn = some e ∧ s.lastPart g pn j .demoteBulk ∧ s.mas.reqs = [] ∧
      s.keptPage pn = false ∧ e.near = true) ∧
    (∃ (s : State) (pn : Nat) (e : Pte) (g : Nat) (j : MigJob) (v : Drive), s.pte pn = some e ∧ s.lastPart g pn j .copyDeep ∧ s.mas.reqs = [] ∧
      e.near = false ∧ SMap.find? s.mas.drives j.stack = some v) ∧
    (∃ (s : State) (pn : Nat) (e : Pte) (g : Nat) (j : MigJob), s.pte pn = some e ∧ g < 2 ∧ s.jobOf pn = some j ∧ j.kind = .demoteWait ∧
      s.mas.reqs = [] ∧ s.noneWaits ∧ s.keptPage pn = true) :=
  ⟨⟨{ wNear with mas := { Mas.reset with pages := [(512, { wSealed with near := false, moving := true, deep := true, deepDrive := 2, deepExtent := 513 })], mem := [(0x40000001, 7#8), (0x40000100, 9#8), (0x41000000, 1#8)], jobs := [{ page := 512, kind := .promote, cls := 2, die := 0, placed := true, win := false, pool := false, stack := 3, frame := 60, left := [1], next := none, retried := false }], reqs := [], work := [(1, 512)] } }, 512, { wSealed with near := false, moving := true, deep := true, deepDrive := 2, deepExtent := 513 }, 1, { page := 512, kind := .promote, cls := 2, die := 0, placed := true, win := false, pool := false, stack := 3, frame := 60, left := [1], next := none, retried := false }, by decide +kernel, by unfold State.lastPart State.noneWaits; decide +kernel, by decide +kernel⟩,
   ⟨{ wNear with mas := { Mas.reset with pages := [(512, { wSealed with near := false, bulk := false, bulkFrame := 0, moving := true, deep := true, deepDrive := 2, deepExtent := 513 })], mem := [(0x40000001, 7#8), (0x40000100, 9#8), (0x41000000, 1#8)], jobs := [{ page := 512, kind := .promote, cls := 2, die := 0, placed := true, win := false, pool := false, stack := 3, frame := 60, left := [1], next := none, retried := false }], reqs := [], work := [(1, 512)] } }, 512, { wSealed with near := false, bulk := false, bulkFrame := 0, moving := true, deep := true, deepDrive := 2, deepExtent := 513 }, 1, { page := 512, kind := .promote, cls := 2, die := 0, placed := true, win := false, pool := false, stack := 3, frame := 60, left := [1], next := none, retried := false }, by decide +kernel, by unfold State.lastPart State.noneWaits; decide +kernel, by decide +kernel⟩,
   ⟨{ wNear with mas := { Mas.reset with pages := [(512, { wSealed with near := false, moving := true })], mem := [(0x40000001, 7#8), (0x40000100, 9#8), (0x41000000, 1#8)], jobs := [{ page := 512, kind := .promote, cls := 2, die := 0, placed := true, win := false, pool := false, stack := 3, frame := 60, left := [1, 0], next := none, retried := false }], reqs := [], work := [(1, 512)] } }, 512, { wSealed with near := false, moving := true }, 1, 0, { page := 512, kind := .promote, cls := 2, die := 0, placed := true, win := false, pool := false, stack := 3, frame := 60, left := [1, 0], next := none, retried := false }, by decide +kernel, by decide +kernel, by decide +kernel, (by decide +kernel), by decide +kernel, by unfold State.noneWaits; decide +kernel, by decide +kernel⟩,
   ⟨{ wNear with mas := { Mas.reset with pages := [(512, { wSealed with near := false, moving := true })], mem := [(0x40000001, 7#8), (0x40000100, 9#8), (0x41000000, 1#8)], jobs := [{ page := 512, kind := .copyDeep, cls := 2, die := 0, placed := true, win := false, pool := false, stack := 3, frame := 60, left := [1, 0], next := none, retried := false }], reqs := [], work := [(1, 512)] } }, 512, { wSealed with near := false, moving := true }, 1, 0, { page := 512, kind := .copyDeep, cls := 2, die := 0, placed := true, win := false, pool := false, stack := 3, frame := 60, left := [1, 0], next := none, retried := false }, by decide +kernel, by decide +kernel, by decide +kernel, (by decide +kernel), by decide +kernel, by unfold State.noneWaits; decide +kernel, by decide +kernel⟩,
   ⟨{ wNear with mas := { Mas.reset with pages := [(512, { wSealed with bulk := false, bulkFrame := 0, moving := true })], mem := [(0x40000001, 7#8), (0x40000100, 9#8), (0x41000000, 1#8)], jobs := [{ page := 512, kind := .demoteBulk, cls := 2, die := 0, placed := true, win := false, pool := false, stack := 3, frame := 60, left := [1], next := none, retried := false }], reqs := [], work := [(1, 512)] } }, 512, { wSealed with bulk := false, bulkFrame := 0, moving := true }, 1, { page := 512, kind := .demoteBulk, cls := 2, die := 0, placed := true, win := false, pool := false, stack := 3, frame := 60, left := [1], next := none, retried := false }, by decide +kernel, by unfold State.lastPart State.noneWaits; decide +kernel, by decide +kernel⟩,
   ⟨{ (wNear.wr F.DEEP_DRIVE_STATE 1 2) with mas := { Mas.reset with pages := [(512, { wSealed with near := false, moving := true })], mem := [(0x40000001, 7#8), (0x40000100, 9#8), (0x41000000, 1#8)], jobs := [{ page := 512, kind := .copyDeep, cls := 2, die := 0, placed := true, win := false, pool := false, stack := 2, frame := 514, left := [1], next := none, retried := false }], reqs := [], work := [(1, 512)], drives := [(2, wDrive)], deepSeq := 4294967295 } }, 512, { wSealed with near := false, moving := true }, 1, { page := 512, kind := .copyDeep, cls := 2, die := 0, placed := true, win := false, pool := false, stack := 2, frame := 514, left := [1], next := none, retried := false }, wDrive, by decide +kernel, by unfold State.lastPart State.noneWaits; decide +kernel, by decide +kernel⟩,
   ⟨({ wNear with mas := { Mas.reset with pages := [(512, { wSealed with moving := true })], mem := [(0x40000001, 7#8), (0x40000100, 9#8), (0x41000000, 1#8)], jobs := [{ page := 512, kind := .demoteWait, cls := 2, die := 0, placed := false, win := false, pool := false, stack := 0, frame := 0, left := [], next := none, retried := false }], reqs := [] } }).setStream 0 3 { StreamSt.empty with pins := [{ tag := 4, entry := 0, lines := [0x40000200], target := 1, complete := true, released := false }] }, 512, { wSealed with moving := true }, 1, { page := 512, kind := .demoteWait, cls := 2, die := 0, placed := false, win := false, pool := false, stack := 0, frame := 0, left := [], next := none, retried := false }, by decide +kernel, by decide +kernel, by decide +kernel, (by decide +kernel), by decide +kernel, by unfold State.noneWaits; decide +kernel, by decide +kernel⟩⟩
theorem test_meets_TiersMoveAndLosePages_3 :
    (∃ (s : State) (pn : Nat) (e : Pte) (g : Nat) (j : MigJob), s.pte pn = some e ∧ g < 2 ∧ s.jobOf pn = some j ∧ j.kind = .demoteWait ∧
      s.mas.reqs = [] ∧ s.noneWaits ∧ s.keptPage pn = false ∧ e.near = true ∧ e.bulk = true) ∧
    (∃ (s : State) (pn : Nat) (e : Pte), s.pte pn = some e ∧ (s.flag F.MAS_CFG_PLACE_EN = false ∨ s.rd F.POOL_WATER_LOW_WATER ≤ s.poolFree)) ∧
    (∃ (s : State) (pn : Nat) (e : Pte), s.pte pn = some e ∧ s.mas.jobs = [] ∧ s.mas.reqs = [] ∧ s.flag F.MAS_CFG_PLACE_EN = true ∧
      s.poolFree < s.rd F.POOL_WATER_LOW_WATER ∧ s.rd F.POOL_WATER_LOW_WATER ≤ s.rd F.POOL_WATER_HIGH_WATER ∧ s.victim [] = some pn ∧ e.bulk = true) ∧
    (∃ (s : State) (pn : Nat) (e : Pte) (d : Nat), s.pte pn = some e ∧ s.mas.jobs = [] ∧ s.mas.reqs = [] ∧ s.mas.pages = [(pn, e)] ∧ e.bulk = true ∧
      e.nodeep = false ∧ e.moving = false ∧ e.freeing = false ∧ e.near = false ∧ e.deep = false ∧ 0 < s.bulkFree ∧ s.pickDrive = some d) ∧
    (∃ (s : State) (pn : Nat) (e : Pte), s.pte pn = some e ∧ s.mas.jobs = [] ∧ s.mas.reqs = [] ∧ s.mas.pages = [(pn, e)] ∧ e.bulk = true ∧
      e.nodeep = false ∧ e.moving = false ∧ e.freeing = false ∧ e.deep = true ∧ e.place ≠ 2 ∧ s.bulkFree = 0) ∧
    (∃ (s : State) (pn : Nat) (e : Pte) (ch : _), s.pte pn = some e ∧ s.mas.jobs = [] ∧ s.mas.reqs = [] ∧ ch < 16 ∧ s.rd F.BULK_CFG_STATE = 1) ∧
    (∃ (s : State) (pn : Nat) (e : Pte) (d : Nat), s.pte pn = some e ∧ s.mas.jobs = [] ∧ s.mas.reqs = [] ∧ d < 16) :=
  ⟨⟨{ wNear with mas := { Mas.reset with pages := [(512, wSealed)], mem := [(0x40000001, 7#8), (0x40000100, 9#8), (0x41000000, 1#8)], jobs := [{ page := 512, kind := .demoteWait, cls := 2, die := 0, placed := false, win := false, pool := false, stack := 0, frame := 0, left := [], next := none, retried := false }], reqs := [] } }, 512, wSealed, 1, { page := 512, kind := .demoteWait, cls := 2, die := 0, placed := false, win := false, pool := false, stack := 0, frame := 0, left := [], next := none, retried := false }, by decide +kernel, by decide +kernel, by decide +kernel, (by decide +kernel), by decide +kernel, by unfold State.noneWaits; decide +kernel, by decide +kernel⟩,
   ⟨{ (wNear.wrFlag F.MAS_CFG_PLACE_EN false) with mas := { Mas.reset with pages := [(512, wSealed)], mem := [(0x40000001, 7#8), (0x40000100, 9#8), (0x41000000, 1#8)], jobs := [], reqs := [] } },
     512, wSealed, by decide +kernel⟩,
   ⟨{ (((((wMod 3).wr F.STACKS_ONLINE_STACK_ONLINE 1).wrFlag F.MAS_CFG_PLACE_EN true).wr F.POOL_WATER_LOW_WATER 0xFFFF).wr F.POOL_WATER_HIGH_WATER 0xFFFF) with mas := { Mas.reset with pages := [(512, wSealed)], mem := [(0x40000001, 7#8), (0x40000100, 9#8), (0x41000000, 1#8)], jobs := [], reqs := [] } },
     512, wSealed, by decide +kernel⟩,
   ⟨{ ((wNear.wr F.DEEP_DRIVE_STATE 1 2).wr F.DEEP_EXTENTS_COUNT 4 2).wr F.BULK_FRAMES_COUNT 100 with mas := { Mas.reset with pages := [(512, { wSealed with near := false })] } },
     512, { wSealed with near := false }, 2, by decide +kernel⟩,
   ⟨{ wNear with mas := { Mas.reset with pages := [(512, { wSealed with near := false, deep := true, deepDrive := 2, deepExtent := 513 })], mem := [(0x40000001, 7#8), (0x40000100, 9#8), (0x41000000, 1#8)], jobs := [], reqs := [] } },
     512, { wSealed with near := false, deep := true, deepDrive := 2, deepExtent := 513 }, by decide +kernel⟩,
   ⟨{ ((wNear.wr F.BULK_CFG_STATE 1).wr F.BULK_FRAMES_COUNT 100) with mas := { Mas.reset with pages := [(512, wSealed)], mem := [(0x40000001, 7#8), (0x40000100, 9#8), (0x41000000, 1#8)], jobs := [], reqs := [] } },
     512, wSealed, 8, by decide +kernel⟩,
   ⟨{ wNear with mas := { Mas.reset with pages := [(512, { wSealed with deep := true, deepDrive := 15 })], mem := [(0x40000001, 7#8), (0x40000100, 9#8), (0x41000000, 1#8)], jobs := [], reqs := [] } },
     512, { wSealed with deep := true, deepDrive := 15 }, 15, by decide +kernel⟩⟩
theorem test_meets_TiersMoveAndLosePages_4 :
    (∃ (s : State) (pn : Nat) (e : Pte) (k : Nat), s.pte pn = some e ∧ s.mas.jobs = [] ∧ s.mas.reqs = [] ∧ k < 20 ∧
      s.fuses.retiredStacks.contains k = false ∧ (s.fuses.retiredPairs.filter (fun x => decide (x.1 = k / 5))).length ≤ 4 ∧
      (s.fuses.retiredStacks.filter (fun x => decide (x / 5 = k / 5))).length < 4) ∧
    (∃ (s : State) (pn : Nat) (e : Pte), s.pte pn = some e ∧ s.mas.epochAt + 1000000 * s.rd F.MAS_CFG_EPOCH_MS ≤ s.now) ∧
    (∃ (s : State) (pn : Nat) (e : Pte), s.pte pn = some e ∧ s.now < s.mas.epochAt + 1000000 * s.rd F.MAS_CFG_EPOCH_MS) ∧
    (∃ (s : State) (pn : Nat) (e : Pte), s.pte pn = some e ∧ s.mas.scanDue = false) ∧
    (∃ (s : State) (pn : Nat) (e : Pte) (d : Nat) (v : Drive) (x : _) (r : DeepRec), s.pte pn = some e ∧ s.mas.scanDue = true ∧ s.mas.drives = [(d,
      v)] ∧ s.rd F.DEEP_DRIVE_STATE d = 1 ∧ v.records = [(x, r)] ∧ s.pte r.page = none ∧ s.leavesFit [r.page] = true ∧ recordOk r = true) ∧
    (∃ (s : State) (pn : Nat) (e : Pte) (d : Nat) (v : Drive) (x : _) (r : DeepRec), s.pte pn = some e ∧ s.mas.scanDue = true ∧ s.mas.drives = [(d,
      v)] ∧ s.rd F.DEEP_DRIVE_STATE d = 1 ∧ v.records = [(x, r)] ∧ s.pte r.page = none ∧ s.leavesFit [r.page] = true ∧ recordOk r = false) :=
  ⟨⟨{ wNear with mas := { Mas.reset with pages := [(512, wSealed)], mem := [(0x40000001, 7#8), (0x40000100, 9#8), (0x41000000, 1#8)], jobs := [], reqs := [] } },
    512, wSealed, 19, by decide +kernel⟩,
   ⟨{ ({ wNear with mas := { Mas.reset with pages := [(512, { wSealed with access := 9 })], mem := [(0x40000001, 7#8), (0x40000100, 9#8), (0x41000000, 1#8)], jobs := [], reqs := [] } }) with now := 100000000000 },
     512, { wSealed with access := 9 }, by decide +kernel⟩,
   ⟨{ wNear with mas := { Mas.reset with pages := [(512, { wSealed with access := 9 })], mem := [(0x40000001, 7#8), (0x40000100, 9#8), (0x41000000, 1#8)], jobs := [], reqs := [] } },
     512, { wSealed with access := 9 }, by decide +kernel⟩,
   ⟨{ wNear with mas := { Mas.reset with pages := [(512, wSealed)], mem := [(0x40000001, 7#8), (0x40000100, 9#8), (0x41000000, 1#8)], jobs := [], reqs := [] } },
     512, wSealed, by decide +kernel⟩,
   ⟨{ (wNear.wr F.DEEP_DRIVE_STATE 1 2) with mas := { Mas.reset with pages := [(512, wSealed)], mem := [(0x40000001, 7#8), (0x40000100, 9#8), (0x41000000, 1#8)], jobs := [], reqs := [], scanDue := true, drives := [(2, { header := 5, slot := 3, extents := 16, records := [(513, { page := 600, check := crc32c ((List.range 64).map (fun i => SMap.getD [(3, 8#8)] i 0)), len := 1, owner := 0, seq := 4, data := [(3, 8#8)] })], retired := [] })] } },
     512, wSealed, 2,
     { header := 5, slot := 3, extents := 16, records := [(513, { page := 600, check := crc32c ((List.range 64).map (fun i => SMap.getD [(3, 8#8)] i 0)), len := 1, owner := 0, seq := 4, data := [(3, 8#8)] })], retired := [] },
     513, { page := 600, check := crc32c ((List.range 64).map (fun i => SMap.getD [(3, 8#8)] i 0)), len := 1, owner := 0, seq := 4, data := [(3, 8#8)] },
     by decide +kernel⟩,
   ⟨{ (wNear.wr F.DEEP_DRIVE_STATE 1 2) with mas := { Mas.reset with pages := [(512, wSealed)], mem := [(0x40000001, 7#8), (0x40000100, 9#8), (0x41000000, 1#8)], jobs := [], reqs := [], scanDue := true, drives := [(2, { header := 5, slot := 3, extents := 16, records := [(513, { page := 600, check := 0, len := 1, owner := 0, seq := 4, data := [(3, 8#8)] })], retired := [] })] } },
     512, wSealed, 2,
     { header := 5, slot := 3, extents := 16, records := [(513, { page := 600, check := 0, len := 1, owner := 0, seq := 4, data := [(3, 8#8)] })], retired := [] },
     513, { page := 600, check := 0, len := 1, owner := 0, seq := 4, data := [(3, 8#8)] }, by decide +kernel⟩⟩
theorem test_meets_InstallsFetchAndCommit_1 :
    (∃ (s : State) (h : Nat) (j : Inst) (p : Pkg) (m : Nat) (m2 : Nat) (n : Nat) (pages : List Nat), s.installing h j p ∧ j.phase = 2 ∧
      j.since + 1000 * s.rd F.INSTALL_CFG_QUERY_US ≤ s.now ∧ j.staged = false ∧ j.hints = [m, m2] ∧ m ≠ m2 ∧ j.answers = [(m, n, pages)] ∧
      (queryParts p.imagePages).length ≤ n ∧ (∀ q < p.imagePages, q ∈ pages) ∧ 0 < p.imagePages ∧ j.sources = [] ∧ j.asked = [] ∧ j.got = [] ∧
      s.reaches m) ∧
    (∃ (s : State) (h : Nat) (j : Inst) (p : Pkg), s.installing h j p ∧ j.phase = 2 ∧ s.now < j.since + 1000 * s.rd F.INSTALL_CFG_QUERY_US) ∧
    (∃ (s : State) (h : Nat) (j : Inst) (p : Pkg) (m : _), s.installing h j p ∧ j.phase = 1 ∧ s.stagingRoom = true ∧ j.staged = false ∧ j.hints = [m] ∧
      0 < p.imagePages ∧ p.imagePages ≤ 4096 ∧ s.reaches m) ∧
    (∃ (s : State) (h : Nat) (j : Inst) (p : Pkg), s.installing h j p ∧ j.phase = 1 ∧ s.stagingRoom = false) ∧
    (∃ (s : State) (h : Nat) (j : Inst) (p : Pkg), s.installing h j p ∧ j.phase = 4 ∧ j.confirmed.length < j.copies) ∧
    (∃ (s : State) (h : Nat) (j : Inst) (p : Pkg) (tm : Tmpl), s.installing h j p ∧ j.phase = 4 ∧ j.copies ≤ j.confirmed.length ∧ s.mas.jobs = []) :=
  ⟨⟨wInstS ({ wMod 3 with now := 1000000000 }) ({ wInst 2 with answers := [(6, 1, [0])] }) (wPkg .installed), 1,
    { wInst 2 with answers := [(6, 1, [0])] }, wPkg .installed, 6, 9, 1, [0], ⟨rfl, rfl, rfl⟩, by decide +kernel, by decide +kernel,
    by decide +kernel, (by decide +kernel), by decide +kernel, by decide +kernel, by decide +kernel, (by decide +kernel), by decide +kernel,
    by decide +kernel, by decide +kernel, (by decide +kernel), ⟨by decide +kernel, by decide +kernel⟩⟩,
   ⟨wInstS (wMod 3) ({ wInst 2 with since := 1 }) (wPkg .installed), 1, { wInst 2 with since := 1 }, wPkg .installed, ⟨rfl, rfl, rfl⟩,
     by decide +kernel⟩,
   ⟨wInstS (wNear) ({ wInst 1 with hints := [6] }) (wPkg .installed), 1, { wInst 1 with hints := [6] }, wPkg .installed, 6, ⟨rfl, rfl, rfl⟩,
     by decide +kernel, by decide +kernel, by decide +kernel, (by decide +kernel), by decide +kernel, by decide +kernel, ⟨by decide +kernel,
     by decide +kernel⟩⟩,
   ⟨wInstS (wMod 3) (wInst 1) (wPkg .installed), 1, wInst 1, wPkg .installed, ⟨rfl, rfl, rfl⟩, by decide +kernel⟩,
   ⟨wInstS (wMod 3) (wInst 4) (wPkg .installed), 1, wInst 4, wPkg .installed, ⟨rfl, rfl, rfl⟩, by decide +kernel⟩,
   ⟨wInstS (wMod 3) ({ wInst 4 with confirmed := [(6, 2)] }) (wPkg .installed), 1, { wInst 4 with confirmed := [(6, 2)] }, wPkg .installed,
     Tmpl.empty, ⟨rfl, rfl, rfl⟩, by decide +kernel⟩⟩
theorem test_meets_InstallsFetchAndCommit_2 :
    (∃ (s : State) (h : Nat) (j : Inst) (p : Pkg) (tm : Tmpl), s.installing h j p ∧ j.phase = 5 ∧ s.jActive = true ∧ s.jr.queue = [] ∧ j.load = false ∧
      p.switching = none) ∧
    (∃ (s : State) (h : Nat) (j : Inst) (p : Pkg) (w : _), s.installing h j p ∧ p.switching = some w ∧ w.begun = true ∧ w.budget < 1024 ∧
      s.jr.spareFor = none) ∧
    (∃ (s : State) (h : Nat) (j : Inst) (p : Pkg) (w : _), s.installing h j p ∧ p.switching = some w ∧ w.begun = true ∧ w.budget < 1024 ∧
      s.jr.spareFor = none ∧ (∀ e < p.execPages, ∀ q, s.pte (pageOf p.execBase + e) = some q → q.place ≠ 1 ∨ q.near = true) ∧ (∀ k < p.contexts,
      ∃ d c img, p.slots[k]? = some (d, c) ∧ (s.slotState d c = 2 ∨ s.slotState d c = 3) ∧ SMap.find? s.arr.images (dieCtx d c) = some img ∧
      img.pkg = h ∧ img.idx = k)) ∧
    (∃ (s : State) (h : Nat) (j : Inst) (p : Pkg) (e : _) (i : Nat) (v : _) (plane : _) (b : Nat), s.installing h j p ∧ e < 6 ∧ s.engineOn e = true ∧
      plane < 2 ∧ p.sections[i]? = some v ∧ v.ty = 3 ∧ j.phase = 3 ∧ i ∉ j.done ∧ (∀ k w, k ≠ i → p.sections[k]? = some w → w.ty = 3 → k ∈ j.done) ∧
      SMap.find? j.stored (blockKey i plane b) = none ∧ spanned j v.offset (min 64 v.len) = true ∧
      tensorOf (imageBytes j v.offset (min 64 v.len)) = none) ∧
    (∃ (s : State) (h : Nat) (j : Inst) (p : Pkg) (e : _) (i : Nat) (v : _) (plane : _) (b : Nat) (tn : Tensor) (out : List Byte) (b' : _) (bs : _) (o : _) (n : _),
      s.installing h j p ∧ e < 6 ∧ s.engineOn e = true ∧ plane < 2 ∧ p.sections[i]? = some v ∧ v.ty = 3 ∧ j.phase = 3 ∧ i ∉ j.done ∧ (∀ k w,
      k ≠ i → p.sections[k]? = some w → w.ty = 3 → k ∈ j.done) ∧ SMap.find? j.stored (blockKey i plane b) = none ∧
      spanned j v.offset (min 64 v.len) = true ∧ tensorOf (imageBytes j v.offset (min 64 v.len)) = some tn ∧ tablesEnd tn ≤ v.len ∧
      b < (if plane = 0 then tn.blocks0 else tn.blocks1) ∧ spanned j v.offset (tablesEnd tn) = true ∧ bs = (imageBytes j v.offset v.len) ∧
      o = (blockAt bs tn plane b) ∧ n = (at' bs o 4 % 2 ^ 24) ∧ spanned j (v.offset + o) (min (4 + n) (v.len - o)) = true ∧
      servesBlock j e (v.offset + o) (min (4 + n) (v.len - o)) = true ∧
      decodeBlock bs v.len o (blockSize tn plane b) ((bs.drop (tableAt tn plane)).take 128) = some out ∧ b' < tn.blocks0 ∧
      SMap.find? (SMap.insert j.stored (blockKey i plane b) out) (blockKey i 0 b') = none) :=
  ⟨⟨wInstS ((wMod 3).wr F.JOURNAL_STATUS_STATE 3) (wInst 5) (wPkg .installed), 1, wInst 5, wPkg .installed, Tmpl.empty, ⟨rfl, rfl, rfl⟩,
    by decide +kernel⟩,
   ⟨wInstS (wMod 3) (wInst 5) ({ wPkg .installed with switching := some wSwitch }), 1, wInst 5, { wPkg .installed with switching := some wSwitch },
     wSwitch, ⟨rfl, rfl, rfl⟩, by decide +kernel⟩,
   ⟨wInstS ((wNear.wr F.CTX_SLOT_STATE 2 1 (.die 0)) |> fun s => { s with arr := { s.arr with images := [(dieCtx 0 1, { wImg with idx := 0 })] } }) (wInst 5) ({ wPkg .installed with switching := some wSwitch, slots := [(0, 1)] }), 1, wInst 5, { wPkg .installed with switching := some wSwitch, slots := [(0, 1)] }, wSwitch, by refine ⟨by exact ⟨rfl, rfl, rfl⟩, by decide +kernel, by decide +kernel, by decide +kernel, by decide +kernel, (by intro e _ q h; cases h), by intro k hk; obtain rfl := Nat.lt_one_iff.mp hk; exact ⟨0, 1, { wImg with idx := 0 }, by decide +kernel, by decide +kernel, by decide +kernel, (by decide +kernel), by decide +kernel⟩⟩⟩,
   ⟨wInstS (wMod 3) ({ wInst 3 with image := wMem [1#8], got := [(0, 8, 0)], fed := [(0, [1])] }) ({ wPkg .installed with sections := [wSection] }),
     1, { wInst 3 with image := wMem [1#8], got := [(0, 8, 0)], fed := [(0, [1])] }, { wPkg .installed with sections := [wSection] }, 1, 0, wSection,
     0, 7, ⟨rfl, rfl, rfl⟩, by decide +kernel, by decide +kernel, by decide +kernel, (by decide +kernel), by decide +kernel, by decide +kernel,
     by decide +kernel, wOnly, by decide +kernel⟩,
   ⟨wInstS (wMod 3) ({ wInst 3 with image := wMem wTensor, got := [(0, 8, 0)], fed := [(0, [1])] }) ({ wPkg .installed with sections := [wSection] }),
     1, { wInst 3 with image := wMem wTensor, got := [(0, 8, 0)], fed := [(0, [1])] }, { wPkg .installed with sections := [wSection] }, 1, 0,
     wSection, 1, 0,
     { stored := 7, exec := 7, sat := false, mx := true, scale := 0, k := 32, n := 1, blocks0 := 1, blocks1 := 1, relayout := 0, check := 0 }, [0], 0,
     (imageBytes ({ wInst 3 with image := wMem wTensor, got := [(0, 8, 0)], fed := [(0, [1])] }) (wSection).offset (wSection).len),
     (blockAt ((imageBytes ({ wInst 3 with image := wMem wTensor, got := [(0, 8, 0)], fed := [(0, [1])] }) (wSection).offset (wSection).len)) ({ stored := 7, exec := 7, sat := false, mx := true, scale := 0, k := 32, n := 1, blocks0 := 1, blocks1 := 1, relayout := 0, check := 0 }) (1) (0)),
     (at' ((imageBytes ({ wInst 3 with image := wMem wTensor, got := [(0, 8, 0)], fed := [(0, [1])] }) (wSection).offset (wSection).len)) ((blockAt ((imageBytes ({ wInst 3 with image := wMem wTensor, got := [(0, 8, 0)], fed := [(0, [1])] }) (wSection).offset (wSection).len)) ({ stored := 7, exec := 7, sat := false, mx := true, scale := 0, k := 32, n := 1, blocks0 := 1, blocks1 := 1, relayout := 0, check := 0 }) (1) (0))) 4 % 2 ^ 24),
     ⟨rfl, rfl, rfl⟩, by decide +kernel, by decide +kernel, by decide +kernel, (by decide +kernel), by decide +kernel, by decide +kernel,
     by decide +kernel, wOnly, by decide +kernel⟩⟩
theorem test_meets_PagesAreSuppliedAndTaken_1 :
    (∃ (s : State) (src : Nat) (ref : Nat) (first : Nat) (count : Nat) (digest : List Byte), s.reaches src ∧ (∀ ty, s.closed src ty = false) ∧
      0 < count ∧ count ≤ 4096) ∧
    (∃ (s : State) (src : Nat) (ref : Nat) (first : Nat) (count : Nat) (digest : List Byte), s.reaches src ∧ (∀ ty, s.closed src ty = false) ∧
      (count = 0 ∨ 4096 < count)) ∧
    (∃ (s : State) (src : Nat) (ref : Nat) (first : Nat) (count : Nat) (digest : List Byte), s.reaches src ∧ (∀ ty, s.closed src ty = false) ∧
      0 < count ∧ count ≤ 64) ∧
    (∃ (s : State) (src : Nat) (ref : Nat) (first : Nat) (count : Nat) (digest : List Byte), s.reaches src ∧ (∀ ty, s.closed src ty = false) ∧
      (count = 0 ∨ 64 < count)) ∧
    (∃ (s : State) (src : Nat) (ref : Nat) (first : Nat) (count : Nat) (digest : List Byte), s.reaches src ∧ (∀ ty, s.closed src ty = false) ∧
      s.wts.pkgs.find? (fun (e : Nat × Pkg) => decide (e.2.digest = digest)) = none) ∧
    (∃ (s : State) (src : Nat) (ref : Nat) (first : Nat) (count : Nat) (digest : List Byte) (k : Nat) (p : _), s.reaches src ∧ (∀ ty,
      s.closed src ty = false) ∧ s.wts.pkgs.find? (fun (e : Nat × Pkg) => decide (e.2.digest = digest)) = some (k, p) ∧ p.st ≠ .absent ∧
      s.inst k = none) ∧
    (∃ (s : State) (h : Nat) (j : Inst) (p : Pkg) (src : Nat) (first : Nat) (held : List Bool) (m2 : _), s.installing h j p ∧ (∀ ty,
      s.closed src ty = false) ∧ j.phase = 2 ∧ src ∈ j.hints ∧ m2 ∈ j.hints ∧ m2 ≠ src ∧ j.answers = []) :=
  ⟨⟨wIdent (wPkgs (wMod 3) [(1, wPkg .installed)]), 6, 3, 0, 9, List.replicate 32 7#8, ⟨by decide +kernel, by decide +kernel⟩,
    wHeard (by decide +kernel), by decide +kernel⟩,
   ⟨wIdent (wPkgs (wMod 3) [(1, wPkg .installed)]), 6, 3, 0, 4097, List.replicate 32 7#8, ⟨by decide +kernel, by decide +kernel⟩,
     wHeard (by decide +kernel), by decide +kernel⟩,
   ⟨wIdent (wInstS (wMod 3) ({ wInst 3 with got := [(1, 1, 5)], image := [(2097153, 6#8)] }) (wPkg .installed)), 6, 3, 0, 3, List.replicate 32 7#8,
     ⟨by decide +kernel, by decide +kernel⟩, wHeard (by decide +kernel), by decide +kernel⟩,
   ⟨wIdent (wPkgs (wMod 3) [(1, wPkg .installed)]), 6, 3, 0, 65, List.replicate 32 7#8, ⟨by decide +kernel, by decide +kernel⟩,
     wHeard (by decide +kernel), by decide +kernel⟩,
   ⟨wIdent (wMod 3), 6, 3, 0, 0, List.replicate 32 7#8, ⟨by decide +kernel, by decide +kernel⟩, wHeard (by decide +kernel), by decide +kernel⟩,
   ⟨wIdent (wPkgs (wMod 3) [(1, wPkg .installed)]), 6, 3, 0, 0, List.replicate 32 7#8, 1, wPkg .installed, ⟨by decide +kernel, by decide +kernel⟩,
     wHeard (by decide +kernel), by decide +kernel⟩,
   ⟨wIdent (wInstS (wMod 3) (wInst 2) (wPkg .installed)), 1, wInst 2, wPkg .installed, 6, 3, [true, false, true], 9, ⟨rfl, rfl, rfl⟩,
     wHeard (by decide +kernel), by decide +kernel⟩⟩
theorem test_meets_PagesAreSuppliedAndTaken_2 :
    (∃ (s : State) (h : Nat) (j : Inst) (p : Pkg) (src : Nat) (first : Nat) (held : List Bool) (digest : _), s.installing h j p ∧ (∀ ty,
      s.closed src ty = false) ∧ (digest ≠ p.digest ∨ j.phase ≠ 2 ∨ src ∉ j.hints)) ∧
    (∃ (s : State) (h : Nat) (j : Inst) (p : Pkg) (src : Nat) (q : Nat) (data : List Byte), s.installing h j p ∧ (∀ ty, s.closed src ty = false) ∧
      j.phase = 3 ∧ (q, src) ∈ j.sources ∧ (∀ g ∈ j.got, g.1 ≠ q) ∧ p.keepImage = false ∧ j.got.length + 1 < p.imagePages ∧
      lacksPage j q 0 j.header.length ∧ (∀ v ∈ p.sections, lacksPage j q v.offset (if v.ty = 3 then min 64 v.len else v.len)) ∧ data.length % 64 = 0 ∧
      0 < data.length ∧ data.length ≤ pageBytes) ∧
    (∃ (s : State) (h : Nat) (j : Inst) (p : Pkg) (src : Nat) (q : _) (m2 : _) (n : Nat) (pages : _) (check : _) (data : _), s.installing h j p ∧
      (∀ ty, s.closed src ty = false) ∧ j.phase = 3 ∧ (q, src) ∈ j.sources ∧ (∀ g ∈ j.got, g.1 ≠ q) ∧ j.hints = [src, m2] ∧ src ≠ m2 ∧
      j.answers = [(m2, n, pages)] ∧ q ∈ pages ∧ (crc32c data).toNat ≠ check) ∧
    (∃ (s : State) (h : Nat) (j : Inst) (p : Pkg) (src : Nat) (q : _) (m2 : _) (n : Nat) (pages : _), s.installing h j p ∧ (∀ ty,
      s.closed src ty = false) ∧ j.phase = 3 ∧ (q, src) ∈ j.sources ∧ (∀ g ∈ j.got, g.1 ≠ q) ∧ j.hints = [src, m2] ∧ src ≠ m2 ∧ j.answers = [(m2, n,
      pages)] ∧ q ∈ pages) ∧
    (∃ (s : State) (h : Nat) (j : Inst) (p : Pkg) (src : Nat) (tray : _) (st : Nat) (all : Bool), s.installing h j p ∧ (∀ ty,
      s.closed src ty = false) ∧ j.phase = 4 ∧ src ∈ j.peers.take j.copies ∧ (∀ c ∈ j.confirmed, c.1 ≠ src) ∧
      (p.kind = 1 → tray ≠ s.rd F.FAIL_DOMAIN_TRAY ∧ ∀ c ∈ j.confirmed, c.2 ≠ tray)) ∧
    (∃ (s : State) (h : Nat) (j : Inst) (p : Pkg) (src : Nat) (data : List Byte), s.installing h j p ∧ (∀ ty, s.closed src ty = false) ∧ j.phase = 3 ∧
      (0, src) ∈ j.sources ∧ (∀ g ∈ j.got, g.1 ≠ 0) ∧ data.length % 64 = 0 ∧ 0 < data.length ∧ data.length ≤ pageBytes ∧ 0 < j.header.length ∧
      j.header.length ≤ data.length ∧ data.take j.header.length ≠ j.header) :=
  ⟨⟨wIdent (wInstS (wMod 3) (wInst 2) (wPkg .installed)), 1, wInst 2, wPkg .installed, 7, 3, [true, false, true], [], ⟨rfl, rfl, rfl⟩,
    wHeard (by decide +kernel), by decide +kernel⟩,
   ⟨wIdent (wInstS (wMod 3) ({ wInst 3 with sources := [(1, 6)], asked := [1], header := [1#8] }) ({ wPkg .installed with sections := [wSection], imagePages := 3 })), 1, { wInst 3 with sources := [(1, 6)], asked := [1], header := [1#8] }, { wPkg .installed with sections := [wSection], imagePages := 3 }, 6, 1, List.replicate 64 8#8, ⟨rfl, rfl, rfl⟩, wHeard (by decide +kernel), by decide +kernel, by decide +kernel, by decide +kernel, (by decide +kernel), by decide +kernel, by unfold lacksPage; decide +kernel, by unfold lacksPage; decide +kernel, by decide +kernel⟩,
   ⟨wIdent (wInstS (wMod 3) ({ wInst 3 with sources := [(0, 6)], asked := [0], hints := [6, 9], answers := [(9, 1, [0])] }) (wPkg .installed)), 1,
     { wInst 3 with sources := [(0, 6)], asked := [0], hints := [6, 9], answers := [(9, 1, [0])] }, wPkg .installed, 6, 0, 9, 1, [0], 0, [1#8], ⟨rfl,
     rfl, rfl⟩, wHeard (by decide +kernel), by decide +kernel⟩,
   ⟨wIdent (wInstS (wMod 3) ({ wInst 3 with sources := [(0, 6)], asked := [0], hints := [6, 9], answers := [(9, 1, [0])] }) (wPkg .installed)), 1,
     { wInst 3 with sources := [(0, 6)], asked := [0], hints := [6, 9], answers := [(9, 1, [0])] }, wPkg .installed, 6, 0, 9, 1, [0], ⟨rfl, rfl, rfl⟩,
     wHeard (by decide +kernel), by decide +kernel⟩,
   ⟨wIdent (wInstS (wMod 3) (wInst 4) ({ wPkg .installed with kind := 1 })), 1, wInst 4, { wPkg .installed with kind := 1 }, 6, 4, 1, true, ⟨rfl, rfl,
     rfl⟩, wHeard (by decide +kernel), by decide +kernel⟩,
   ⟨wIdent (wInstS (wMod 3) ({ wInst 3 with sources := [(0, 6)], asked := [0], header := [2#8] }) ({ wPkg .installed with sections := [wSection] })),
     1, { wInst 3 with sources := [(0, 6)], asked := [0], header := [2#8] }, { wPkg .installed with sections := [wSection] }, 6,
     List.replicate 64 8#8, ⟨rfl, rfl, rfl⟩, wHeard (by decide +kernel), by decide +kernel⟩⟩
theorem test_meets_LinksTrainAndRetry_1 :
    (∃ (s : State) (p : Nat) (v : _) (q : Partner), p < 32 ∧ s.wts.jobs = [] ∧ v = (s.port p) ∧ s.portState p = 1 ∧ v.phase = 0 ∧ 0 < q.lanes) ∧
    (∃ (s : State) (p : Nat) (v : _) (q : Partner) (c : _), p < 32 ∧ s.wts.jobs = [] ∧ v = (s.port p) ∧ s.portState p = 2 ∧ v.phase = 3 ∧
      s.flag F.MODULE_NUM_ID_VALID = true ∧ s.identifyFault p q = some c ∧ c < 8) ∧
    (∃ (s : State) (p : Nat) (v : _) (q : Partner), p < 32 ∧ s.wts.jobs = [] ∧ v = (s.port p) ∧ s.portState p = 2 ∧ v.phase = 4 ∧ q.clean = true ∧
      q.isSwitch = false ∧ s.link.waiting = []) ∧
    (∃ (s : State) (p : Nat) (v : _), p < 32 ∧ s.wts.jobs = [] ∧ v = (s.port p) ∧ (s.portState p = 2 ∨ s.portState p = 5) ∧ 0 < v.phase ∧
      (v.phase = 3 → s.flag F.MODULE_NUM_ID_VALID = true)) ∧
    (∃ (s : State) (p : Nat), p < 32 ∧ s.wts.jobs = [] ∧ 2 ≤ s.portState p ∧ s.portState p ≤ 4) ∧
    (∃ (s : State) (p : Nat), p < 32 ∧ s.wts.jobs = [] ∧ s.portUp p) ∧
    (∃ (s : State) (p : Nat) (v : _), p < 32 ∧ s.wts.jobs = [] ∧ v = (s.port p) ∧ s.portUp p ∧ s.blocksShut = false ∧ v.drain = none) ∧
    (∃ (s : State) (p : Nat), p < 32 ∧ s.wts.jobs = [] ∧ s.blocksShut = true) :=
  ⟨⟨wPort 1 Port.empty, 3, ((wPort 1 Port.empty).port (3)), wPartner, by decide +kernel⟩,
   ⟨wPort 2 { Port.empty with phase := 3 } |>.wrFlag F.MODULE_NUM_ID_VALID true, 3,
     ((wPort 2 { Port.empty with phase := 3 } |>.wrFlag F.MODULE_NUM_ID_VALID true).port (3)), wPartner, 6, by decide +kernel⟩,
   ⟨wPort 2 { Port.empty with phase := 4 }, 3, ((wPort 2 { Port.empty with phase := 4 }).port (3)), wPartner, by decide +kernel⟩,
   ⟨{ wPort 5 { Port.empty with phase := 4, faults := [1] } with now := 0xFFFFFFFFFF }, 3,
     (({ wPort 5 { Port.empty with phase := 4, faults := [1] } with now := 0xFFFFFFFFFF }).port (3)), by decide +kernel⟩,
   ⟨wPort 3 { Port.empty with replay := [(9, 0, wFlit 2)] }, 3, by decide +kernel⟩,
   ⟨wPort 4 Port.empty, 3, by decide +kernel, by decide +kernel, ⟨by decide +kernel, by decide +kernel⟩⟩,
   ⟨wPort 4 { Port.empty with faults := [0, 0, 0] }, 3, ((wPort 4 { Port.empty with faults := [0, 0, 0] }).port (3)), by decide +kernel,
     by decide +kernel, by decide +kernel, ⟨by decide +kernel, by decide +kernel⟩, by decide +kernel⟩,
   ⟨wMod 1, 3, by decide +kernel⟩⟩
theorem test_meets_LinksTrainAndRetry_2 :
    (∃ (s : State) (p : Nat), p < 32 ∧ s.wts.jobs = [] ∧ s.blocksShut = false ∧ s.portState p = 0 ∧ s.portClass p ≠ 0 ∧ (.linkPort,
      p) ∉ s.stew.disabled) ∧
    (∃ (s : State) (p : Nat), p < 32 ∧ s.wts.jobs = [] ∧ s.blocksShut = false) ∧
    (∃ (s : State) (p : Nat) (v : _) (e : _), p < 32 ∧ s.wts.jobs = [] ∧ v = (s.port p) ∧ s.carries p = true ∧ v.replay = [e] ∧ v.tries < 8 ∧
      e.1 < 4096) ∧
    (∃ (s : State) (p : Nat) (v : _) (e : _) (l : List (Nat × Nat × Flit)), p < 32 ∧ s.wts.jobs = [] ∧ v = (s.port p) ∧ s.portUp p ∧
      v.replay = e :: l ∧ e.2.1 + 8000 ≤ s.now ∧ v.tries < 8) ∧
    (∃ (s : State) (p : Nat) (v : _) (e : _) (l : List (Nat × Nat × Flit)), p < 32 ∧ s.wts.jobs = [] ∧ v = (s.port p) ∧ s.portUp p ∧
      v.replay = e :: l ∧ e.2.1 + 8000 ≤ s.now ∧ 8 ≤ v.tries) ∧
    (∃ (s : State) (p : Nat) (v : _) (e : _) (vc : _) (n : Nat), p < 32 ∧ s.wts.jobs = [] ∧ v = (s.port p) ∧ s.carries p = true ∧ v.replay = [e] ∧
      v.queue = [] ∧ vc < 4) ∧
    (∃ (s : State) (p : Nat) (v : _) (raw : List Byte), p < 32 ∧ s.wts.jobs = [] ∧ v = (s.port p) ∧ s.carries p = true ∧ v.nakSent = false ∧
      bitsOf (ofBytes (laneDecode raw).1) (8 * 252) 32 ≠ (crc32c ((laneDecode raw).1.take 252)).toNat) ∧
    (∃ (s : State) (p : Nat) (v : _) (raw : List Byte) (f : Flit) (lack : Nat) (ty : Nat) (ref : Nat) (n : Nat) (arg : List Byte) (body : List Byte),
      p < 32 ∧ s.wts.jobs = [] ∧ v = (s.port p) ∧ s.carries p = true ∧ v.expect < 4096 ∧ v.replay = [] ∧ lack < 4096 ∧
      laneDecode raw = (flitBytes f v.expect lack, n) ∧ f.vc < 4 ∧ f.dst < 8192 ∧ f.src < 8192 ∧ f.flow < 256 ∧ f.last = true ∧ f.src ≠ s.ownId ∧
      s.rxFlow (flowKey f.src f.vc f.flow) = { RxFlow.empty with expect := f.fseq } ∧ f.fseq < 2 ^ 32 ∧ (msgVc ty).isSome = true ∧ ref < 2 ^ 64 ∧
      arg.length = 16 ∧ body.length ≤ 208 ∧ f.payload = msgBytes ty ref arg body ++ List.replicate (208 - body.length) 0) :=
  ⟨⟨(wMod 3).wr F.GROUP_CFG_CLASS 2, 3, by decide +kernel⟩,
   ⟨wPort 3 Port.empty, 3, by decide +kernel⟩,
   ⟨wIdent (wPort 3 { Port.empty with replay := [(9, 0, wFlit 2)], tries := 7 }), 3,
     ((wIdent (wPort 3 { Port.empty with replay := [(9, 0, wFlit 2)], tries := 7 })).port (3)), (9, 0, wFlit 2), by decide +kernel⟩,
   ⟨{ wPort 3 { Port.empty with replay := [(9, 0, wFlit 2), (10, 0, wFlit 3)], tries := 7 } with now := 8000 }, 3,
     (({ wPort 3 { Port.empty with replay := [(9, 0, wFlit 2), (10, 0, wFlit 3)], tries := 7 } with now := 8000 }).port (3)), (9, 0, wFlit 2), [(10,
     0, wFlit 3)], by decide +kernel, by decide +kernel, by decide +kernel, ⟨by decide +kernel, by decide +kernel⟩, by decide +kernel⟩,
   ⟨{ wPort 3 { Port.empty with replay := [(9, 0, wFlit 2)], tries := 8 } with now := 8000 }, 3,
     (({ wPort 3 { Port.empty with replay := [(9, 0, wFlit 2)], tries := 8 } with now := 8000 }).port (3)), (9, 0, wFlit 2), [], by decide +kernel,
     by decide +kernel, by decide +kernel, ⟨by decide +kernel, by decide +kernel⟩, by decide +kernel⟩,
   ⟨wIdent (wPort 3 { Port.empty with replay := [(9, 0, wFlit 2)], tries := 8 }), 3,
     ((wIdent (wPort 3 { Port.empty with replay := [(9, 0, wFlit 2)], tries := 8 })).port (3)), (9, 0, wFlit 2), 3, 9, by decide +kernel⟩,
   ⟨wIdent (wPort 3 Port.empty), 3, ((wIdent (wPort 3 Port.empty)).port (3)), wZeros, by decide +kernel, by decide +kernel, by decide +kernel,
     (by decide +kernel), by decide +kernel, wZeros_bad⟩,
   ⟨wIdent (wPort 3 { Port.empty with expect := 7 } |>.setRx (flowKey 6 1 0) { RxFlow.empty with expect := 9 }), 3,
     ((wIdent (wPort 3 { Port.empty with expect := 7 } |>.setRx (flowKey 6 1 0) { RxFlow.empty with expect := 9 })).port (3)), wRaw, wProbe, 4095,
     0x30, 0, 0, List.replicate 16 5#8, [], by decide +kernel, by decide +kernel, by decide +kernel, (by decide +kernel), by decide +kernel,
     by decide +kernel, by decide +kernel, wRaw_decode, by decide +kernel⟩⟩
theorem test_meets_LinksTrainAndRetry_3 :
    (∃ (s : State) (m : Nat) (vc : Nat) (flow : Nat), m < 8192 ∧ vc < 4 ∧ flow < 256) ∧
    (∃ (s : State) (m : Nat) (vc : Nat) (flow : Nat) (r : _) (a : _) (q : _) (f : _), m < 8192 ∧ vc < 4 ∧ flow < 256 ∧
      r = (s.rxFlow (flowKey m vc flow)) ∧ r.gapSince = some a ∧ r.store = [(q, f)] ∧ q < 2 ^ 32 ∧ r.expect < 2 ^ 32) ∧
    (∃ (s : State) (m : Nat) (vc : Nat) (flow : Nat) (x : _) (e : SentFlit), m < 8192 ∧ vc < 4 ∧ flow < 256 ∧ x = (s.txFlow (flowKey m vc flow)) ∧
      s.flag F.MODULE_NUM_ID_VALID = true ∧ x.unacked = [e] ∧ e.flit.fseq < 2 ^ 32) ∧
    (∃ (s : State) (m : Nat) (vc : Nat) (flow : Nat) (x : _) (e : SentFlit) (a : _) (b : _), m < 8192 ∧ vc < 4 ∧ flow < 256 ∧
      x = (s.txFlow (flowKey m vc flow)) ∧ s.flag F.MODULE_NUM_ID_VALID = true ∧ x.unacked = [e] ∧ e.flit.fseq < 2 ^ 32 ∧ s.routePorts m = [a, b] ∧
      a ≠ b ∧ e.ports = [a] ∧ s.portWidth b ≠ 0) ∧
    (∃ (s : State) (m : Nat) (vc : Nat) (flow : Nat), m < 8192 ∧ vc < 4 ∧ flow < 256 ∧ s.e2eSilent m = true ∧ s.stew.lists = [] ∧ s.stew.reqs = [] ∧
      s.wts.jobs = [] ∧ s.jr.table = [] ∧ s.jr.partner ≠ some m) ∧
    (∃ (s : State) (m : Nat) (vc : Nat) (flow : Nat), m < 8192 ∧ vc < 4 ∧ flow < 256 ∧ s.e2eSilent m = false) ∧
    (∃ (s : State) (m : Nat) (vc : Nat) (flow : Nat) (reset : Bool) (time : Nat), m < 8192 ∧ vc < 4 ∧ flow < 256 ∧
      s.flag F.MODULE_NUM_ID_VALID = true ∧ s.reaches m) ∧
    (∃ (s : State) (m : Nat) (vc : Nat) (flow : Nat) (a : _) (reset : Bool) (time : Nat), m < 8192 ∧ vc < 4 ∧ flow < 256 ∧
      SMap.find? s.link.dead m = some a) :=
  ⟨⟨wMod 3, 6, 1, 0, by decide +kernel⟩,
   ⟨wMod 3 |>.setRx (flowKey 6 1 0) { RxFlow.empty with expect := 9, gapSince := some 0, store := [(11, wFlit 11)] }, 6, 1, 0,
     ((wMod 3 |>.setRx (flowKey 6 1 0) { RxFlow.empty with expect := 9, gapSince := some 0, store := [(11, wFlit 11)] }).rxFlow (flowKey (6) (1) (0))), 0,
     11, wFlit 11, by decide +kernel⟩,
   ⟨wIdent (wTx [{ flit := wFlit 3, ports := [2] }]), 6, 1, 0, ((wIdent (wTx [{ flit := wFlit 3, ports := [2] }])).txFlow (flowKey (6) (1) (0))),
     { flit := wFlit 3, ports := [2] }, by decide +kernel⟩,
   ⟨wIdent ((((((wTx [{ flit := wFlit 3, ports := [1] }]).wr F.ROUTE_PRIMARY 6 6).wr F.LINK_PORT_STATUS_STATE 3 1).wr F.LINK_PORT_STATUS_STATE 3 2).wr F.LINK_PORT_STATUS_WIDTH 3 1).wr F.LINK_PORT_STATUS_WIDTH 3 2),
     6, 1, 0, ((wIdent ((((((wTx [{ flit := wFlit 3, ports := [1] }]).wr F.ROUTE_PRIMARY 6 6).wr F.LINK_PORT_STATUS_STATE 3 1).wr F.LINK_PORT_STATUS_STATE 3 2).wr F.LINK_PORT_STATUS_WIDTH 3 1).wr F.LINK_PORT_STATUS_WIDTH 3 2)).txFlow (flowKey (6) (1) (0))),
     { flit := wFlit 3, ports := [1] }, 1, 2, by decide +kernel⟩,
   ⟨{ wTx [{ flit := wFlit 3, ports := [2] }] with now := 0xFFFFFFFFFF }, 6, 1, 0, by decide +kernel⟩,
   ⟨wTx [{ flit := wFlit 3, ports := [2] }], 6, 1, 0, by decide +kernel⟩,
   ⟨wIdent (wMod 3 |>.setRx (flowKey 6 1 0) { RxFlow.empty with expect := 9 }), 6, 1, 0, true, 77, by decide +kernel, by decide +kernel,
     by decide +kernel, by decide +kernel, ⟨by decide +kernel, by decide +kernel⟩⟩,
   ⟨{ wMod 3 with now := 1000000, link := { LinkSt.reset with dead := [(6, 0)] } }, 6, 1, 0, 0, true, 77, by decide +kernel⟩⟩
theorem test_meets_LinksTrainAndRetry_4 :
    (∃ (s : State) (m : Nat) (vc : Nat) (flow : Nat), m < 8192 ∧ vc < 4 ∧ flow < 256 ∧ s.unreachable m = true ∧ s.flag F.MODULE_NUM_ID_VALID = true) ∧
    (∃ (s : State) (m : Nat) (vc : Nat) (flow : Nat) (w : WaitMsg), m < 8192 ∧ vc < 4 ∧ flow < 256 ∧ s.link.waiting = [w] ∧ w.dst = m ∧ 0x20 ≤ w.ty) ∧
    (∃ (s : State) (m : Nat) (vc : Nat) (flow : Nat) (primary : Nat) (alt : Nat), m < 8192 ∧ vc < 4 ∧ flow < 256 ∧ s.blocksShut = false ∧
      s.wts.jobs = []) ∧
    (∃ (s : State) (e : Nat) (k : Nat) (n : Nat), e < 6 ∧ k < 16) ∧
    (∃ (s : State) (e : Nat) (k : Nat), e < 6 ∧ k < 16 ∧ 16 ≤ (s.crcTimes e k).length ∧ bitOf (s.rd F.VELVET_EDGE_MODULES_UP e) k = true) ∧
    (∃ (s : State) (e : Nat) (k : Nat) (ok : Bool), e < 6 ∧ k < 16 ∧ (s.crcTimes e k).length < 16) ∧
    (∃ (s : State) (src : Nat) (a : Nat) (b : Nat) (n : Nat) (d : Nat) (e : Nat) (x : Bool) (body : List Byte) (digest : List Byte) (held : List Bool) (rs : List JRec) (p : ExpertPart) (q : TkState) (f : Fleet) (c : Sys2Proof.Instr),
      s.flag F.MODULE_NUM_ID_VALID = false ∧ s.link.inbox = [] ∧ c ∈ ([.pageQuery src a digest b n, .pageAnswer src a digest b held,
      .pageFetch src a digest b n, .pageData src a b n body, .pageRefuse src a b, .confirmReq src a digest, .confirm src a b digest n x,
      .expertList src p body digest, .expertResult src p body a b, .jrnlRecords src rs, .jrnlAck src a b f, .jrnlHeartbeat src, .pairReq src a b,
      .pairGrant src a b f, .fenceOut src a, .resyncData src rs [], .takeoverAssign src a b n, .takeoverState src q, .takeoverToken src a b n d x,
      .takeoverAck src a b n, .takeoverCtrl src a b n body [], .spareCall src a b, .faultNotice src [],
      .e2eReceive src a b none none] : List Sys2Proof.Instr)) ∧
    (∃ (s : State) (p : Nat) (v : _) (q : Partner), p < 32 ∧ s.wts.jobs = [] ∧ v = (s.port p) ∧ s.portState p = 2 ∧ v.phase = 1) :=
  ⟨⟨wIdent ({ wMod 3 with now := 1000000, link := { LinkSt.reset with dead := [(6, 0)] } }), 6, 1, 0, by decide +kernel⟩,
   ⟨{ wMod 3 with now := 0xFFFFFFFF, link := { LinkSt.reset with waiting := [⟨6, 0x20, 0, [], 0⟩] } }, 6, 1, 0, ⟨6, 0x20, 0, [], 0⟩,
     by decide +kernel⟩,
   ⟨wMod 3, 6, 1, 0, 5, 0xFFFFFFFFF, by decide +kernel⟩,
   ⟨wMod 3, 5, 15, 9, by decide +kernel⟩,
   ⟨{ (wMod 3).wr F.VELVET_EDGE_MODULES_UP 0x8000 5 with link := { LinkSt.reset with crcAt := [(95, List.replicate 16 0)] } }, 5, 15,
     by decide +kernel⟩,
   ⟨wMod 3, 5, 15, false, by decide +kernel⟩,
   ⟨wMod 3, 6, 3, 0, 9, 1, 2, true, [1#8], List.replicate 32 7#8, [true], [],
     { step := 5, table := 3, lastPart := true, expert := 9, count := 1, first := 0, total := 2 }, wTkState, { able := [], trays := [] },
     (.pageQuery (6) (3) (List.replicate 32 7#8) (0) (9)), by decide +kernel, by decide +kernel, List.Mem.head _⟩,
   ⟨wPort 2 { Port.empty with phase := 1 }, 3, ((wPort 2 { Port.empty with phase := 1 }).port (3)), wPartner, by decide +kernel⟩⟩
theorem test_meets_LinksTrainAndRetry_5 :
    (∃ (s : State) (p : Nat) (v : _) (q : Partner), p < 32 ∧ s.wts.jobs = [] ∧ v = (s.port p) ∧ s.portState p = 2 ∧ v.phase = 2) ∧
    (∃ (s : State) (p : Nat) (v : _) (q : Partner), p < 32 ∧ s.wts.jobs = [] ∧ v = (s.port p) ∧ s.portState p = 2 ∧ v.phase = 3 ∧
      s.flag F.MODULE_NUM_ID_VALID = false) ∧
    (∃ (s : State) (p : Nat) (v : _) (q : Partner), p < 32 ∧ s.wts.jobs = [] ∧ v = (s.port p) ∧ s.portState p = 2 ∧ v.phase = 3 ∧
      s.flag F.MODULE_NUM_ID_VALID = true ∧ s.identifyFault p q = none) ∧
    (∃ (s : State) (e : Nat) (k : Nat), e < 6 ∧ k < 16 ∧ 16 ≤ (s.crcTimes e k).length ∧ bitOf (s.rd F.VELVET_EDGE_MODULES_UP e) k = true ∧
      (s.modState = 1 ∨ s.modState = 5 ∨ s.cutOff = [] ∧ s.rd F.VELVET_EDGE_STATE e ≠ 0 ∧ s.rd F.VELVET_EDGE_MODULES_UP e ≠ 2 ^ k)) :=
  ⟨⟨wPort 2 { Port.empty with phase := 2 }, 3, ((wPort 2 { Port.empty with phase := 2 }).port (3)), wPartner, by decide +kernel⟩,
   ⟨wPort 2 { Port.empty with phase := 3 }, 3, ((wPort 2 { Port.empty with phase := 3 }).port (3)), wPartner, by decide +kernel⟩,
   ⟨(wIdent (wPort 2 { Port.empty with phase := 3 })).wr F.GROUP_CFG_CLASS 2, 3,
     (((wIdent (wPort 2 { Port.empty with phase := 3 })).wr F.GROUP_CFG_CLASS 2).port (3)), { wPartner with isSwitch := true }, by decide +kernel⟩,
   ⟨{ (wMod 5).wr F.VELVET_EDGE_MODULES_UP 0x8001 5 with link := { LinkSt.reset with crcAt := [(95, List.replicate 16 0)] } }, 5, 15,
     by decide +kernel⟩⟩
theorem test_meets_ReorderStoreIsBounded :
    (∃ (s : State) (p : Nat) (raw : List Byte) (f : Flit) (lack : Nat) (n : Nat) (k : _) (r : _), p < 32 ∧ s.carries p = true ∧
      (s.port p).expect < 4096 ∧ lack < 4096 ∧ laneDecode raw = (flitBytes f (s.port p).expect lack, n) ∧ f.vc < 4 ∧ f.dst < 8192 ∧ f.src < 8192 ∧
      f.flow < 256 ∧ f.fseq < 2 ^ 32 ∧ f.payload.length = 240 ∧ f.src ≠ s.ownId ∧ k = (flowKey f.src f.vc f.flow) ∧ r = (s.rxFlow k) ∧
      s.reorderUsed < 16384 ∧ 0 < (f.fseq + 2 ^ 32 - r.expect) % 2 ^ 32 ∧ (f.fseq + 2 ^ 32 - r.expect) % 2 ^ 32 < 2 ^ 31 ∧ r.expect < 2 ^ 32 ∧
      (∀ e ∈ r.store, e.1 ≠ f.fseq)) ∧
    (∃ (s : State) (p : Nat) (raw : List Byte) (f : Flit) (lack : Nat) (n : Nat) (k : _) (r : _), p < 32 ∧ s.carries p = true ∧
      (s.port p).expect < 4096 ∧ lack < 4096 ∧ laneDecode raw = (flitBytes f (s.port p).expect lack, n) ∧ f.vc < 4 ∧ f.dst < 8192 ∧ f.src < 8192 ∧
      f.flow < 256 ∧ f.fseq < 2 ^ 32 ∧ f.payload.length = 240 ∧ f.src ≠ s.ownId ∧ k = (flowKey f.src f.vc f.flow) ∧ r = (s.rxFlow k) ∧
      16384 ≤ s.reorderUsed ∧ f.fseq = r.expect ∧ f.last = false ∧ (∀ e ∈ r.store, e.1 ≠ (f.fseq + 1) % 2 ^ 32)) ∧
    (∃ (s : State) (p : Nat) (raw : List Byte) (f : Flit) (lack : Nat) (n : Nat) (k : _) (r : _) (ty : Nat) (ref : Nat) (arg : List Byte) (body : List Byte) (pad : List Byte),
      p < 32 ∧ s.carries p = true ∧ (s.port p).expect < 4096 ∧ lack < 4096 ∧ laneDecode raw = (flitBytes f (s.port p).expect lack, n) ∧ f.vc < 4 ∧
      f.dst < 8192 ∧ f.src < 8192 ∧ f.flow < 256 ∧ f.fseq < 2 ^ 32 ∧ f.payload.length = 240 ∧ f.src ≠ s.ownId ∧ k = (flowKey f.src f.vc f.flow) ∧
      r = (s.rxFlow k) ∧ 16384 ≤ s.reorderUsed ∧ f.fseq = r.expect ∧ f.last = true ∧ (msgVc ty).isSome = true ∧ ref < 2 ^ 64 ∧ arg.length = 16 ∧
      body.length < 2 ^ 32 ∧ r.part ++ f.payload = msgBytes ty ref arg body ++ pad) ∧
    (∃ (s : State) (p : Nat) (raw : List Byte) (f : Flit) (lack : Nat) (n : Nat) (k : _) (r : _), p < 32 ∧ s.carries p = true ∧
      (s.port p).expect < 4096 ∧ lack < 4096 ∧ laneDecode raw = (flitBytes f (s.port p).expect lack, n) ∧ f.vc < 4 ∧ f.dst < 8192 ∧ f.src < 8192 ∧
      f.flow < 256 ∧ f.fseq < 2 ^ 32 ∧ f.payload.length = 240 ∧ f.src ≠ s.ownId ∧ k = (flowKey f.src f.vc f.flow) ∧ r = (s.rxFlow k) ∧
      16384 ≤ s.reorderUsed ∧ f.fseq ≠ r.expect) ∧
    (∃ (s : State) (p : Nat) (raw : List Byte) (f : Flit) (lack : Nat) (n : Nat) (k : _) (r : _), p < 32 ∧ s.carries p = true ∧
      (s.port p).expect < 4096 ∧ lack < 4096 ∧ laneDecode raw = (flitBytes f (s.port p).expect lack, n) ∧ f.vc < 4 ∧ f.dst < 8192 ∧ f.src < 8192 ∧
      f.flow < 256 ∧ f.fseq < 2 ^ 32 ∧ f.payload.length = 240 ∧ f.src ≠ s.ownId ∧ k = (flowKey f.src f.vc f.flow) ∧ r = (s.rxFlow k) ∧
      16384 ≤ s.reorderUsed ∧ f.fseq ≠ r.expect) :=
  ⟨⟨wHeld 16383 ({ RxFlow.empty with expect := 8 }), 3, wRaw, wProbe, 4095, 0, (flowKey (wProbe).src (wProbe).vc (wProbe).flow), ((wHeld 16383 ({ RxFlow.empty with expect := 8 })).rxFlow ((flowKey (wProbe).src (wProbe).vc (wProbe).flow))), by decide +kernel, by decide +kernel, by decide +kernel, by decide +kernel, wRaw_decode, by decide +kernel, by decide +kernel, by decide +kernel, (by decide +kernel), by decide +kernel, by decide +kernel, by decide +kernel, (by decide +kernel), by decide +kernel, (by rw [wHeld_used]; decide), by decide +kernel⟩,
   ⟨wHeld 16384 ({ RxFlow.empty with expect := 9 }), 3, wRaw2, { wProbe with last := false }, 4095, 0, (flowKey ({ wProbe with last := false }).src ({ wProbe with last := false }).vc ({ wProbe with last := false }).flow), ((wHeld 16384 ({ RxFlow.empty with expect := 9 })).rxFlow ((flowKey ({ wProbe with last := false }).src ({ wProbe with last := false }).vc ({ wProbe with last := false }).flow))), by refine ⟨by decide, by decide +kernel, by decide +kernel, by decide, wRaw2_decode, ?_⟩; refine ⟨by decide, by decide, by decide, (by decide), by decide, ?_⟩; refine ⟨by decide +kernel, by decide +kernel, rfl, rfl, ?_, by decide +kernel, by decide, by decide +kernel⟩; rw [wHeld_used]; decide⟩,
   ⟨wHeld 16384 ({ RxFlow.empty with expect := 9 }), 3, wRaw, wProbe, 4095, 0, (flowKey (wProbe).src (wProbe).vc (wProbe).flow), ((wHeld 16384 ({ RxFlow.empty with expect := 9 })).rxFlow ((flowKey (wProbe).src (wProbe).vc (wProbe).flow))), 0x30, 0, List.replicate 16 5#8, [], List.replicate 208 0, by decide +kernel, by decide +kernel, by decide +kernel, by decide +kernel, wRaw_decode, by decide +kernel, by decide +kernel, by decide +kernel, (by decide +kernel), by decide +kernel, by decide +kernel, by decide +kernel, (by decide +kernel), by decide +kernel, (by rw [wHeld_used]; decide), by decide +kernel⟩,
   ⟨wHeld 16384 ({ RxFlow.empty with expect := 8 }), 3, wRaw, wProbe, 4095, 0, (flowKey (wProbe).src (wProbe).vc (wProbe).flow), ((wHeld 16384 ({ RxFlow.empty with expect := 8 })).rxFlow ((flowKey (wProbe).src (wProbe).vc (wProbe).flow))), by decide +kernel, by decide +kernel, by decide +kernel, by decide +kernel, wRaw_decode, by decide +kernel, by decide +kernel, by decide +kernel, (by decide +kernel), by decide +kernel, by decide +kernel, by decide +kernel, (by decide +kernel), by decide +kernel, (by rw [wHeld_used]; decide), by decide +kernel⟩,
   ⟨wHeld 16384 ({ RxFlow.empty with expect := 10 }), 3, wRaw, wProbe, 4095, 0, (flowKey (wProbe).src (wProbe).vc (wProbe).flow), ((wHeld 16384 ({ RxFlow.empty with expect := 10 })).rxFlow ((flowKey (wProbe).src (wProbe).vc (wProbe).flow))), by decide +kernel, by decide +kernel, by decide +kernel, by decide +kernel, wRaw_decode, by decide +kernel, by decide +kernel, by decide +kernel, (by decide +kernel), by decide +kernel, by decide +kernel, by decide +kernel, (by decide +kernel), by decide +kernel, (by rw [wHeld_used]; decide), by decide +kernel⟩⟩
theorem test_meets_PartnersJournalAndPair_1 :
    (∃ (s : State) (src : Nat) (r : JRec), s.jr.partner = some src ∧ s.reaches src ∧ (∀ ty, s.closed src ty = false) ∧ r.jsn = s.jr.mirrorJsn + 1 ∧
      s.mirrorUsed + recsSize [r] ≤ mirrorBytes) ∧
    (∃ (s : State) (src : Nat) (rs : List JRec), s.jr.partner = some src ∧ s.reaches src ∧ (∀ ty, s.closed src ty = false) ∧
      mirrorBytes < s.mirrorUsed + recsSize rs) ∧
    (∃ (s : State) (src : Nat) (r : JRec) (jsn : _) (free : Nat) (fleet : Fleet) (h : _) (d : _) (c : _), s.jr.partner = some src ∧ s.reaches src ∧
      (∀ ty, s.closed src ty = false) ∧ s.jr.queue = [r] ∧ r.origin = none ∧ r.jsn ≤ jsn ∧ jsn ≤ s.rd F.JOURNAL_JSN_VALUE ∧
      s.rd F.JOURNAL_ACKED_VALUE ≤ jsn ∧ s.jr.activeAt = none ∧ s.jr.refused = false ∧ s.jr.resyncTo < r.jsn ∧ s.jr.settled = [] ∧
      s.host.sessions = [] ∧ r.pay = .install h d c ∧ s.jState = 3) ∧
    (∃ (s : State) (src : Nat) (r : JRec) (jsn : _) (free : Nat) (fleet : Fleet) (qp : Nat) (session : Nat) (seq : Nat) (tag : _) (op : Nat) (status : Nat) (d : _) (body : _),
      s.jr.partner = some src ∧ s.reaches src ∧ (∀ ty, s.closed src ty = false) ∧ s.jr.queue = [r] ∧ r.origin = none ∧ r.jsn ≤ jsn ∧
      jsn ≤ s.rd F.JOURNAL_JSN_VALUE ∧ s.rd F.JOURNAL_ACKED_VALUE ≤ jsn ∧ s.jr.activeAt = none ∧ s.jr.refused = false ∧ s.jr.resyncTo < r.jsn ∧
      s.jr.settled = [] ∧ s.host.sessions = [] ∧ r.pay = .reply qp 0 session seq tag op status d body ∧ op ∉ [4, 0x21, 0x40] ∧ s.jState = 3) ∧
    (∃ (s : State) (src : Nat) (r : JRec) (jsn : _) (free : Nat) (fleet : Fleet), s.jr.partner = some src ∧ s.reaches src ∧ (∀ ty,
      s.closed src ty = false) ∧ s.jr.queue = [r] ∧ r.origin = none ∧ r.jsn ≤ jsn ∧ jsn ≤ s.rd F.JOURNAL_JSN_VALUE ∧ s.rd F.JOURNAL_ACKED_VALUE ≤ jsn ∧
      s.jr.activeAt = none ∧ s.jr.refused = false ∧ s.jr.resyncTo < r.jsn ∧ s.jr.settled = [] ∧ s.host.sessions = [] ∧ s.jState ≠ 3) ∧
    (∃ (s : State) (src : Nat), s.jr.partner = some src ∧ s.reaches src ∧ (∀ ty, s.closed src ty = false)) ∧
    (∃ (s : State) (src : Nat), s.jr.partner = some src ∧ s.reaches src ∧ (∀ ty, s.closed src ty = false) ∧ s.unsent ≠ [] ∧ s.jr.progress = [] ∧
      s.jr.refused = false ∧ s.jr.batchAt + 1000 ≤ s.now) ∧
    (∃ (s : State) (src : Nat), s.jr.partner = some src ∧ s.reaches src ∧ (∀ ty, s.closed src ty = false) ∧ (s.jr.refused = true ∨ s.unsent = [] ∧
      s.jr.progress = [])) :=
  ⟨⟨wIdent (wPair 3 { wJr with mirrorJsn := 4 }), 6, wInstRec, by decide +kernel, ⟨by decide +kernel, by decide +kernel⟩, wHeard (by decide +kernel),
    by decide +kernel⟩,
   ⟨wIdent (wPair 3 { wJr with mirrorJsn := 4 }), 6, [wRec (.final (List.replicate (mirrorBytes + 1) 0))], by exact ⟨rfl, ⟨by decide +kernel, by decide +kernel⟩, wHeard (by decide +kernel), wBig _ mirrorBytes⟩⟩,
   ⟨wIdent (wPair 3 { wJr with queue := [wInstRec] }), 6, wInstRec, 5, 4096, { able := [], trays := [] }, 1, List.replicate 32 7#8, 3,
     by decide +kernel, ⟨by decide +kernel, by decide +kernel⟩, wHeard (by decide +kernel), by decide +kernel⟩,
   ⟨wIdent (wPair 3 { wJr with queue := [wRec (.reply 5 0 2 7 0 9 0 0 [1#8])] }), 6, wRec (.reply 5 0 2 7 0 9 0 0 [1#8]), 5, 4096,
     { able := [], trays := [] }, 5, 2, 7, 0, 9, 0, 0, [1#8], by decide +kernel, ⟨by decide +kernel, by decide +kernel⟩, wHeard (by decide +kernel),
     by decide +kernel⟩,
   ⟨wIdent (wPair 4 { wJr with queue := [wInstRec] }), 6, wInstRec, 5, 4096, { able := [], trays := [] }, by decide +kernel, ⟨by decide +kernel,
     by decide +kernel⟩, wHeard (by decide +kernel), by decide +kernel⟩,
   ⟨wIdent (wPair 3 wJr), 6, by decide +kernel, ⟨by decide +kernel, by decide +kernel⟩, wHeard (by decide +kernel)⟩,
   ⟨wIdent ({ wPair 3 { wJr with queue := [wInstRec] } with now := 1000 }), 6, by decide +kernel, ⟨by decide +kernel, by decide +kernel⟩,
     wHeard (by decide +kernel), by decide +kernel⟩,
   ⟨wIdent (wPair 3 wJr), 6, by decide +kernel, ⟨by decide +kernel, by decide +kernel⟩, wHeard (by decide +kernel), by decide +kernel⟩⟩
theorem test_meets_PartnersJournalAndPair_2 :
    (∃ (s : State) (src : Nat), s.jr.partner = some src ∧ s.reaches src ∧ (∀ ty, s.closed src ty = false)) ∧
    (∃ (s : State) (src : Nat), s.jr.partner = some src ∧ s.reaches src ∧ (∀ ty, s.closed src ty = false)) ∧
    (∃ (s : State) (src : Nat), s.jr.partner = some src ∧ s.reaches src ∧ (∀ ty, s.closed src ty = false) ∧ src < 8192 ∧ s.stew.lists = [] ∧
      s.jr.table = [] ∧ s.flag F.MODULE_NUM_ID_VALID = true) ∧
    (∃ (s : State) (src : Nat), s.jr.partner ≠ some src) ∧
    (∃ (s : State) (src : Nat) (rs : List JRec), s.jr.partner ≠ some src ∧ src ∈ s.jr.origins ∧ s.reaches src ∧ s.closed src 0x20 = false) ∧
    (∃ (s : State) (src : Nat) (rs : List JRec), s.jr.partner ≠ some src ∧ src ∉ s.jr.origins) ∧
    (∃ (s : State) (src : Nat) (jsn : Nat), s.jr.partner = none ∧ mirrorRegion ≤ s.poolFree ∧ s.reaches src ∧ s.closed src 0x23 = false) ∧
    (∃ (s : State) (src : Nat) (old : Nat) (jsn : Nat), s.jr.partner = none ∧ s.poolFree < mirrorRegion ∧ old ≠ s.ownId) :=
  ⟨⟨wIdent (wPair 3 wJr), 6, by decide +kernel, ⟨by decide +kernel, by decide +kernel⟩, wHeard (by decide +kernel)⟩,
   ⟨wIdent (wPair 3 wJr), 6, by decide +kernel, ⟨by decide +kernel, by decide +kernel⟩, wHeard (by decide +kernel)⟩,
   ⟨wIdent (wPair 3 wJr), 6, by decide +kernel, ⟨by decide +kernel, by decide +kernel⟩, wHeard (by decide +kernel), by decide +kernel⟩,
   ⟨wPair 3 wJr, 5, by decide +kernel⟩,
   ⟨wIdent (wPair 3 { wJr with origins := [5] }), 5, [wInstRec], by decide +kernel, by decide +kernel, ⟨by decide +kernel, by decide +kernel⟩,
     by decide +kernel⟩,
   ⟨wPair 3 wJr, 5, [wInstRec], by decide +kernel⟩,
   ⟨wIdent (wNear), 6, 9, by decide +kernel, by decide +kernel, ⟨by decide +kernel, by decide +kernel⟩, by decide +kernel⟩,
   ⟨wMod 3 |>.wr F.STACKS_ONLINE_STACK_ONLINE 0, 6, 9, 9, by decide +kernel⟩⟩
theorem test_meets_PartnersJournalAndPair_3 :
    (∃ (s : State) (src : Nat) (k : Nat) (size : Nat) (fleet : Fleet), s.jr.partner = none ∧ s.jr.asking = some k ∧ src ∈ s.alternates ∧
      s.closed src 0x24 = false) ∧
    (∃ (s : State) (src : Nat) (size : Nat) (fleet : Fleet), s.jr.partner = none ∧ s.jr.asking = none ∧ s.jr.reqSent = false) ∧
    (∃ (s : State) (src : Nat), s.jr.partner = none ∧ s.jState = 1 ∧ s.namedPartner = some src ∧ s.reaches src ∧ mirrorRegion ≤ s.poolFree) ∧
    (∃ (s : State) (src : Nat) (k : Nat), s.jr.partner = none ∧ (s.jState = 4 ∨ s.jState = 5) ∧ s.jr.asking = some k ∧
      s.alternates[k + 1]? = some src ∧ s.reaches src) ∧
    (∃ (s : State) (src : Nat), s.jr.partner = none ∧ s.jState = 4) ∧
    (∃ (s : State) (src : Nat) (home : Nat), s.closed src 0x25 = false ∧ (s.jr.fencedBy ≠ some home ∨ s.jr.partner = none)) ∧
    (∃ (s : State) (src : Nat) (c : Nat × Nat × Nat), s.closed src 0x26 = false ∧ s.jr.fencedBy = some src ∧ s.jr.partner ≠ some src) ∧
    (∃ (s : State) (src : Nat) (r : JRec) (i : Nat) (v : Session) (rings : List (Nat × Ring)), s.closed src 0x26 = false ∧ s.jr.fencedBy = some src ∧
      s.jr.partner ≠ some src ∧ r.pay = .session i (some v) rings) :=
  ⟨⟨wIdent (({ wPair 4 { wJr with partner := none, asking := some 0 } with now := 0xFFFFFFFFFF } |>.wrFlag F.JOURNAL_ALT_VALID true 1 |>.wr F.JOURNAL_ALT_MODULE 6 1)),
    6, 0, 0, { able := [], trays := [] }, by decide +kernel⟩,
   ⟨wNear, 6, 0, { able := [], trays := [] }, by decide +kernel⟩,
   ⟨({ wPair 1 { wJr with partner := none } with now := 0xFFFFFFFFFF } |>.wrFlag F.JOURNAL_PARTNER_VALID true |>.wr F.JOURNAL_PARTNER_MODULE 6 |>.wrFlag F.MODULE_NUM_ID_VALID true ),
     6, by decide +kernel, by decide +kernel, by decide +kernel, ⟨by decide +kernel, by decide +kernel⟩, by decide +kernel⟩,
   ⟨({ wPair 4 { wJr with partner := none, asking := some 0 } with now := 0xFFFFFFFFFF } |>.wrFlag F.JOURNAL_ALT_VALID true 1 |>.wr F.JOURNAL_ALT_MODULE 6 1 |>.wrFlag F.JOURNAL_ALT_VALID true 0 |>.wr F.JOURNAL_ALT_MODULE 8 0),
     6, 0, by decide +kernel, by decide +kernel, by decide +kernel, by decide +kernel, ⟨by decide +kernel, by decide +kernel⟩⟩,
   ⟨{ wPair 4 { wJr with partner := none } with now := 1000000000 }, 6, by decide +kernel⟩,
   ⟨wIdent (wReqs (wPair 3 wJr) [(3, wReq)]), 6, 2, by decide +kernel⟩,
   ⟨wIdent (wPair 1 { wJr with partner := none, fencedBy := some 6 }), 6, (1, 2, 3), by decide +kernel⟩,
   ⟨wIdent (wPair 1 { wJr with partner := none, fencedBy := some 6 }), 6, wRec (.session 3 (some (wSess 7)) []), 3, wSess 7, [], by decide +kernel⟩⟩
theorem test_meets_TakeoverAndStewardAct_1 :
    (∃ (s : State) (src : Nat) (o : Nat) (oslot : Nat) (prio : Nat), s.closed src 0x27 = false) ∧
    (∃ (s : State) (src : Nat) (prio : Nat) (q : TkState) (k : Nat), s.closed src 0x28 = false ∧ s.jr.assigns = [(src, q.origin, q.slot, prio)] ∧
      s.lowestSlot = some k) ∧
    (∃ (s : State) (src : Nat) (prio : Nat) (q : TkState), s.closed src 0x28 = false ∧ s.jr.assigns = [(src, q.origin, q.slot, prio)] ∧
      s.lowestSlot = none ∧ s.reaches src) ∧
    (∃ (s : State) (src : Nat) (prio : Nat) (q : TkState), s.closed src 0x28 = false ∧ s.jr.assigns = []) ∧
    (∃ (s : State) (src : Nat) (o : Nat) (oslot : Nat) (q : TkReq) (tok : Nat) (last : Bool), s.tk o oslot = some q ∧ q.member = some src ∧
      q.final = none ∧ q.origin = o ∧ q.slot = oslot ∧ s.closed src 0x29 = false ∧ s.closed src 0x2B = false ∧ s.jr.queue = []) ∧
    (∃ (s : State) (src : Nat) (o : Nat) (oslot : Nat) (q : TkReq) (index : Nat) (tok : Nat) (last : Bool), s.tk o oslot = some q ∧
      q.member = some src ∧ q.final = none ∧ q.origin = o ∧ q.slot = oslot ∧ s.closed src 0x29 = false ∧ s.closed src 0x2B = false ∧
      index ≠ q.tokens.length + 1) ∧
    (∃ (s : State) (src : Nat) (o : Nat) (oslot : Nat) (q : TkReq) (rec' : List Byte) (able : List (Nat × Nat)), s.tk o oslot = some q ∧
      q.member = some src ∧ q.final = none ∧ q.origin = o ∧ q.slot = oslot ∧ s.closed src 0x29 = false ∧ s.closed src 0x2B = false ∧ o ≠ s.ownId ∧
      ofBytes ((rec'.drop 2).take 1) ≠ 12) ∧
    (∃ (s : State) (src : Nat) (o : Nat) (oslot : Nat) (k : Nat) (r : Req) (tok : _), s.stew.reqs = [(k, r)] ∧ r.member = some (src, o, oslot) ∧
      r.st ≠ .ending ∧ s.closed src 0x2A = false ∧ s.closed src 0x2B = false ∧ r.awaitAck = some tok ∧ r.ended = false ∧ r.cancelled = false) :=
  ⟨⟨wIdent ({ wNear with jr := { Jr.reset with assigns := [(6, 4, 7, 2), (6, 4, 8, 3)] } }), 6, 4, 7, 1, by decide +kernel⟩,
   ⟨wIdent ({ wNear with jr := { Jr.reset with assigns := [(6, 4, 7, 2)] } }), 6, 2, wTkState, 0, by decide +kernel⟩,
   ⟨wFullS 65536, 6, 2, wTkState, by exact ⟨wFullS_closed _, rfl, wFullS_none _ (Nat.le_refl _), wFullS_reaches _⟩⟩,
   ⟨wIdent (wNear), 6, 2, wTkState, by decide +kernel⟩,
   ⟨wIdent ({ wPair 3 wJr with jr := { wJr with table := [(tkKey 4 7, wTkReq)] } }), 6, 4, 7, wTkReq, 9, false, by decide +kernel⟩,
   ⟨wIdent ({ wPair 3 wJr with jr := { wJr with table := [(tkKey 4 7, wTkReq)] } }), 6, 4, 7, wTkReq, 1, 9, false, by decide +kernel⟩,
   ⟨wIdent ({ wPair 3 wJr with jr := { wJr with table := [(tkKey 4 7, wTkReq)] } }), 6, 4, 7, wTkReq, List.replicate 64 3#8, [], by decide +kernel⟩,
   ⟨wIdent (wReqs (wPair 3 wJr) [(3, { wReq with st := .decode, member := some (6, 4, 7), awaitAck := some 11, ended := false })]), 6, 4, 7, 3,
     { wReq with st := .decode, member := some (6, 4, 7), awaitAck := some 11, ended := false }, 11, by decide +kernel⟩⟩
theorem test_meets_TakeoverAndStewardAct_2 :
    (∃ (s : State) (src : Nat) (o : Nat) (oslot : Nat) (k : Nat) (r : Req) (tok : _), s.stew.reqs = [(k, r)] ∧ r.member = some (src, o, oslot) ∧
      r.st ≠ .ending ∧ s.closed src 0x2A = false ∧ s.closed src 0x2B = false ∧ r.awaitAck = some tok ∧ r.ended = true) ∧
    (∃ (s : State) (src : Nat) (o : Nat) (oslot : Nat) (k : Nat) (r : Req) (rec' : List Byte) (able : List (Nat × Nat)), s.stew.reqs = [(k, r)] ∧
      r.member = some (src, o, oslot) ∧ r.st ≠ .ending ∧ s.closed src 0x2A = false ∧ s.closed src 0x2B = false) ∧
    (∃ (s : State) (src : Nat) (failed : Nat) (tray : Nat) (m : _), failed < 8192 ∧ s.closed src 0x2C = false ∧ s.flag F.SERVICE_CFG_SPARE = false ∧
      s.spares = [s.ownId, m] ∧ s.inService m = true ∧ s.reaches m) ∧
    (∃ (s : State) (src : Nat) (failed : Nat) (tray : Nat), failed < 8192 ∧ s.closed src 0x2C = false ∧ s.flag F.SERVICE_CFG_SPARE = true ∧
      s.modState = 2 ∧ s.noServing = false ∧ s.wts.pkgs = []) ∧
    (∃ (s : State) (src : Nat) (m : Nat) (h0 : Nat) (h1 : Nat) (h2 : Nat) (count : Nat) (inSvc : Bool), m < 8192 ∧ count < 4 ∧
      s.closed src 0x2D = false ∧ s.stew.lists = [] ∧ s.wts.jobs = [] ∧ s.jr.table = [] ∧
      (s.trayMate ≠ some m ∨ s.flag F.SERVICE_CFG_POLICY = true ∨ s.inService m = false ∨ inSvc = true)) ∧
    (∃ (s : State) (o : Nat) (se : Nat) (seq : Nat) (op : Nat) (i : Nat) (k : List Byte) (v : Session), s.jr.openCmds = [(o, se, seq, op)] ∧
      SMap.find? s.jr.subjects (256 * o + se) = some k ∧ s.session i = some v ∧ v.st = .active ∧ v.subject = k ∧ i < 256 ∧ (∀ n < i, ∀ w,
      s.session n = some w → w.st = .active → w.subject ≠ k)) ∧
    (∃ (s : State) (tn : Nat) (dies : List Nat), tn < 4096 ∧ s.stew.reqs = [] ∧ s.stew.budgetWrites = []) ∧
    (∃ (s : State) (tn : Nat) (v : _) (dies : List Nat), tn < 4096 ∧ s.stew.reqs = [] ∧ s.stew.budgetWrites = [(tn, 3, v)]) :=
  ⟨⟨wIdent (wReqs (wPair 3 wJr) [(3, { wReq with st := .decode, member := some (6, 4, 7), awaitAck := some 11, ended := true })]), 6, 4, 7, 3,
    { wReq with st := .decode, member := some (6, 4, 7), awaitAck := some 11, ended := true }, 11, by decide +kernel⟩,
   ⟨wIdent (wReqs (wPair 3 wJr) [(3, { wReq with st := .decode, member := some (6, 4, 7), awaitAck := some 11, ended := false })]), 6, 4, 7, 3,
     { wReq with st := .decode, member := some (6, 4, 7), awaitAck := some 11, ended := false }, [], [], by decide +kernel⟩,
   ⟨wIdent ((((wNear.wrFlag F.SPARE_LIST_VALID true 0).wrFlag F.SPARE_LIST_VALID true 1).wr F.SPARE_LIST_MODULE 6 1).wr F.SPARE_LIST_MODULE (wNear.ownId) 0),
     8, 8191, 3, 6, by decide +kernel, by decide +kernel, by decide +kernel, (by decide +kernel), by decide +kernel, ⟨by decide +kernel,
     by decide +kernel⟩⟩,
   ⟨wIdent (((wMod 2).wrFlag F.SERVICE_CFG_SPARE true)), 8, 8191, 3, by decide +kernel⟩,
   ⟨wIdent (wNear), 8, 8191, 1, 2, 3, 3, false, by decide +kernel⟩,
   ⟨{ wHost wNear { wSess 7 with subject := [5#8] } with jr := { Jr.reset with openCmds := [(4, 2, 7, 9)], subjects := [(256 * 4 + 2, [5#8])] } }, 4, 2, 7, 9, 0, [5#8], { wSess 7 with subject := [5#8] }, by refine ⟨rfl, by decide +kernel, by decide +kernel, by decide +kernel, (by decide +kernel), by decide +kernel, ?_⟩; intro n hn; cases hn⟩,
   ⟨(wNear.wr F.TENANT_BUDGET_RATE 70 4095).wr F.TENANT_BUDGET_BURST 9 4095, 4095, [2, 0], by decide +kernel⟩,
   ⟨{ wNear with stew := { Stew.reset with budgetWrites := [(4095, 3, 0xFFFFFFFF)] } }, 4095, 0xFFFFFFFF, [2, 0], by decide +kernel⟩⟩
theorem test_meets_TakeoverAndStewardAct_3 :
    (∃ (s : State) (tn : Nat) (v : Nat), tn < 4096 ∧ s.blocksShut = false) ∧
    (∃ (s : State) (h : Nat) (fs : List Flight), s.flag F.STEWARD_STATUS_STANDBY_READY = true ∧ s.stew.flights = [(h, fs)]) ∧
    (∃ (s : State) (die : Nat), die < 4 ∧ s.dieBetweenSteps die = true) ∧
    (∃ (s : State) (die : Nat), die < 4 ∧ s.dieBetweenSteps die = false) ∧
    (∃ (s : State) (src : Nat) (m : Nat) (h0 : Nat) (h1 : Nat) (h2 : Nat) (count : Nat) (inSvc : Bool), m < 8192 ∧ count < 4 ∧
      s.closed src 0x2D = false ∧ s.stew.lists = [] ∧ s.wts.jobs = [] ∧ s.jr.table = [] ∧ s.trayMate = some m ∧ s.flag F.SERVICE_CFG_POLICY = false ∧
      s.inService m = true ∧ s.modState = 3 ∧ s.wts.pkgs = [] ∧ s.boot.drainTo = none) ∧
    (∃ (s : State), s.flag F.STEWARD_STATUS_STANDBY_READY = false ∧ 2 ≤ s.modState ∧ s.modState ≤ 4) :=
  ⟨⟨wNear, 4095, 0xFFFFFFFF, by decide +kernel⟩,
   ⟨({ wNear with stew := { Stew.reset with flights := [(1, [wFlight true, wFlight false])] } }).wr F.STEWARD_STATUS_STANDBY_READY 1, 1,
     [wFlight true, wFlight false], by decide +kernel⟩,
   ⟨wNear.wr F.TIME_REPEAT_DIE 8, 3, by decide +kernel⟩,
   ⟨(wNear.wrFlag F.STREAM_CTRL_STEP_MASTER true 63 (.die 3)).setStream 3 63 { StreamSt.empty with inStep := true }, 3, by decide +kernel⟩,
   ⟨wIdent ((((wMod 3).wr F.GROUP_CFG_CLASS 1).wr F.GROUP_CFG_PEER 8191)), 8, 8191, 1, 2, 3, 3, false, by decide +kernel⟩,
   ⟨wMod 3, by decide +kernel⟩⟩

/-! ## Witnesses of the statements about every step -/

/-- A state with one command waiting, and one with time only. -/
def wWaits (c : Sys2Proof.Instr) (s : State) : State := { s with pending := [c] }
def wGoes (s : State) : Bool := match step s with
  | .next _ => true
  | _ => false
theorem wNext {s : State} (h : wGoes s = true) : ∃ t, step s = .next t := by
  unfold wGoes at h
  cases e : step s with
  | next t => exact ⟨t, rfl⟩
  | _ => rw [e] at h; cases h
/-- A module about to leave DEPLOYED at its owner's confirmation, which burns a life-cycle pair. -/
def wBurns : State := { (wOwned 5 7).wr F.LC_REQUEST_TARGET 4 with boot := { Boot.reset with lcAt := some 0 } }
theorem wBurns_goes : ∃ t, step (wWaits (.lcConfirm (.session 7) 0xFFFFFFFB) wBurns) = .next t := wNext (by decide +kernel)
theorem test_meets_StepRunsTheFrontCommand : ∃ (s : State) (c : Sys2Proof.Instr) (rest : List Sys2Proof.Instr), s.pending = c :: rest :=
  ⟨wWaits (.nop 0 63) wNear, _, _, rfl⟩
theorem test_meets_AnEmptyQueueLetsTimePass : (∃ s : State, s.pending = []) ∧ ∃ s : State, s.pending = [] ∧ s.dark = true :=
  ⟨⟨wNear, rfl⟩, { wNear with boot := { Boot.reset with held := true } }, rfl, by decide +kernel⟩
theorem test_meets_IdentityOutlivesEveryStep : ∃ (v : Identity) (s t : State), s.identity = v ∧ step s = .next t :=
  wBurns_goes.elim fun t h => ⟨_, _, t, rfl, h⟩
theorem test_meets_FusesOnlyBurn : ∃ s t : State, s.fuses.inRange ∧ step s = .next t :=
  wBurns_goes.elim fun t h => ⟨_, t, ⟨by decide +kernel, by decide +kernel⟩, h⟩
theorem test_meets_ByteMemoriesStayCanonical : ∃ s t : State, s.memoriesOk ∧ step s = .next t :=
  wBurns_goes.elim fun t h => ⟨_, t, ⟨by decide +kernel, by decide +kernel, by decide +kernel⟩, h⟩

end Sys2Proof.Tests
end

section
/-!
PROOF. R81: a multicast fires whole. A queue's head token goes to destinations that all differ and are none of them the queue itself;
so what one delivery does to a destination, the others leave alone, and a firing enters the token at every destination once. A token
that does not fire marks full destinations and moves nothing.
-/
namespace Sys2Proof.Machine

/-! ## Where the outputs of a site lead -/

theorem qidY_qidOf {y : Nat} (hy : y < 32) (x net input : Nat) : qidY (qidOf y x net input) = y := by
  unfold qidY qidOf; omega
theorem qidX_qidOf {y x : Nat} (hy : y < 32) (hx : x < 32) (net input : Nat) : qidX (qidOf y x net input) = x := by
  unfold qidX qidOf; omega
theorem qidInput_qidOf {y x net input : Nat} (hy : y < 32) (hx : x < 32) (hn : net < 4) (hi : input < 16) :
    qidInput (qidOf y x net input) = input := by
  unfold qidInput qidOf; omega

theorem State.cols_le (s : State) : s.cols ≤ 24 := by
  unfold State.cols; cases s.fuses.grade <;> decide

/-- R122: the destination that an output (0 north, 1 east, 2 south, 3 west) of a site feeds. -/
def outDest (cols net y x dir : Nat) : Option Dest :=
  match neighbour cols net y x dir with
  | some r => some (.queue r)
  | none => (boundaryAt cols net y x dir).map (fun r => if qidY r = 29 then Dest.queue r else Dest.off r)

/-- The output through which a destination is reached: a neighbour's queue tells it by its input, a boundary port by its row. -/
def destDir : Dest → Nat
  | .queue r => if qidY r = 29 then 3 else (qidInput r + 2) % 4
  | .off r => if qidY r = 24 then 0 else if qidY r = 25 then 2 else if qidY r = 26 then 3 else 1

section
variable {cols net y x dir r : Nat} (hc : cols ≤ 24) (hn : net < 4) (hy : y < 24) (hx : x < cols)
include hc hn hy hx

/-- R122: a neighbour's queue lies at another site of the array, and its input faces the output that feeds it. -/
theorem neighbour_facts (h : neighbour cols net y x dir = some r) :
    qidY r < 24 ∧ (qidInput r + 2) % 4 = dir ∧ (qidY r ≠ y ∨ qidX r ≠ x) := by
  have facts : ∀ y' x' i, y' < 24 → x' < 24 → i < 4 → qidOf y' x' net i = r → (i + 2) % 4 = dir → y' ≠ y ∨ x' ≠ x →
      qidY r < 24 ∧ (qidInput r + 2) % 4 = dir ∧ (qidY r ≠ y ∨ qidX r ≠ x) := by
    rintro y' x' i hy' hx' hi rfl hd hne
    rw [qidY_qidOf (by omega), qidX_qidOf (by omega) (by omega), qidInput_qidOf (by omega) (by omega) hn (by omega)]
    exact ⟨hy', hd, hne⟩
  unfold neighbour at h
  split_ifs at h with north east south west
  · exact facts (y - 1) x 2 (by omega) (by omega) (by omega) (Option.some.inj h) (by omega) (by omega)
  · exact facts y (x + 1) 3 (by omega) (by omega) (by omega) (Option.some.inj h) (by omega) (by omega)
  · exact facts (y + 1) x 0 (by omega) (by omega) (by omega) (Option.some.inj h) (by omega) (by omega)
  · exact facts y (x - 1) 1 (by omega) (by omega) (by omega) (Option.some.inj h) (by omega) (by omega)

omit hc hx hn hy in
/-- R126, R127: a boundary port stands beyond the rows of the array, in a row of its own for each side. -/
theorem boundaryAt_facts (h : boundaryAt cols net y x dir = some r) :
    24 ≤ qidY r ∧ destDir (if qidY r = 29 then Dest.queue r else Dest.off r) = dir := by
  have facts : ∀ row k n, row < 32 → 24 ≤ row → qidOf row k n 0 = r →
      destDir (if row = 29 then Dest.queue r else Dest.off r) = dir →
      24 ≤ qidY r ∧ destDir (if qidY r = 29 then Dest.queue r else Dest.off r) = dir := by
    rintro row k n hrow hge rfl hd
    rw [qidY_qidOf hrow]
    exact ⟨hge, hd⟩
  unfold boundaryAt at h
  split_ifs at h with score vector north south west east
  all_goals obtain rfl := Option.some.inj h
  · exact facts 29 net net (by omega) (by omega) rfl (by simp [destDir, qidY_qidOf, score])
  · exact facts 24 x 0 (by omega) (by omega) rfl (by simp [destDir, qidY_qidOf, north])
  · exact facts 25 x 0 (by omega) (by omega) rfl (by simp [destDir, qidY_qidOf, south])
  · exact facts 26 y 0 (by omega) (by omega) rfl (by simp [destDir, qidY_qidOf, west])
  · exact facts 27 y 0 (by omega) (by omega) rfl (by simp [destDir, qidY_qidOf, east])

/-- The destination of an output tells which output it is, and is no queue of the output's own site. -/
theorem outDest_facts {d : Dest} (h : outDest cols net y x dir = some d) :
    destDir d = dir ∧ ∀ q, qidY q = y → qidX q = x → d ≠ .queue q := by
  unfold outDest at h
  split at h
  next r hr =>
    obtain ⟨hrow, hdir, hsite⟩ := neighbour_facts hc hn hy hx hr
    obtain rfl := Option.some.inj h
    refine ⟨by rw [destDir, if_neg (by omega), hdir], ?_⟩
    rintro q rfl rfl hq
    obtain rfl := Dest.queue.inj hq
    omega
  next =>
    obtain ⟨r, hr, rfl⟩ := Option.map_eq_some_iff.mp h
    obtain ⟨hrow, hdir⟩ := boundaryAt_facts hr
    refine ⟨hdir, ?_⟩
    rintro q rfl - hq
    split at hq
    · obtain rfl := Dest.queue.inj hq
      omega
    · cases hq

end

/-- R123, R124: the head token of a switch input goes to the destinations of some outputs of its site. -/
theorem State.dests_eq_outDest (s : State) (die q c : Nat) (hy : qidY q < 24) :
    ∃ dirs : List Nat, dirs.Nodup ∧ s.dests die q c = dirs.filterMap (outDest s.cols (qidNet q) (qidY q) (qidX q)) := by
  unfold State.dests
  rw [if_neg (by omega)]
  dsimp only
  split
  · exact ⟨[], List.nodup_nil, rfl⟩
  · exact ⟨_, List.nodup_range.filter _, rfl⟩

theorem State.dests_nodup (s : State) (die q c : Nat) (hy : qidY q < 24) (hx : qidX q < s.cols) : (s.dests die q c).Nodup := by
  obtain ⟨dirs, hnodup, heq⟩ := s.dests_eq_outDest die q c hy
  rw [heq]
  refine hnodup.filterMap fun a b d ha hb => ?_
  have hn : qidNet q < 4 := Nat.mod_lt _ (by decide)
  exact (outDest_facts s.cols_le hn hy hx ha).1.symm.trans (outDest_facts s.cols_le hn hy hx hb).1

theorem State.self_notMem_dests (s : State) (die q c : Nat) (hy : qidY q < 24) (hx : qidX q < s.cols) :
    Dest.queue q ∉ s.dests die q c := by
  obtain ⟨dirs, -, heq⟩ := s.dests_eq_outDest die q c hy
  rw [heq, List.mem_filterMap]
  rintro ⟨dir, -, h⟩
  exact (outDest_facts s.cols_le (Nat.mod_lt _ (by decide)) hy hx h).2 q rfl rfl rfl

/-! ## Queues and the tokens at a boundary port -/

theorem queueKey_ne {r r' : Nat} (die c : Nat) (h : r' ≠ r) : queueKey die r' c ≠ queueKey die r c := by
  unfold queueKey; omega

@[simp] theorem State.queue_setQueue_self (s : State) (die r c : Nat) (v : Queue) : (s.setQueue die r c v).queue die r c = v :=
  SMap.getD_setD_self ..
theorem State.queue_setQueue_of_ne (s : State) (die c : Nat) (v : Queue) {r r' : Nat} (h : r' ≠ r) :
    (s.setQueue die r c v).queue die r' c = s.queue die r' c :=
  SMap.getD_setD_of_ne _ _ _ (queueKey_ne die c h) _

/-- From `s` to `t` what stands at a destination is unchanged: its queue, or the tokens that wait at its boundary port. -/
def State.sameAt (s t : State) (die c : Nat) : Dest → Prop
  | .queue r => t.queue die r c = s.queue die r c
  | .off r => SMap.getD t.arr.drain (queueKey die r c) [] = SMap.getD s.arr.drain (queueKey die r c) []

theorem State.sameAt_refl (s : State) (die c : Nat) (d : Dest) : s.sameAt s die c d := by cases d <;> rfl
theorem State.sameAt_trans (s t u : State) {die c : Nat} {d : Dest} (h : s.sameAt t die c d) (k : t.sameAt u die c d) :
    s.sameAt u die c d := by
  cases d with
  | queue r => exact Eq.trans k h
  | off r => exact Eq.trans k h
theorem State.sameAt_of_tables {s t : State} (hq : t.arr.queues = s.arr.queues) (hd : t.arr.drain = s.arr.drain) (die c : Nat) (d : Dest) :
    s.sameAt t die c d := by
  cases d with
  | queue r => exact congrArg (SMap.getD · (queueKey die r c) Queue.empty) hq
  | off r => exact congrArg (SMap.getD · (queueKey die r c) []) hd
theorem State.sameAt_of_arr {s t : State} (h : t.arr = s.arr) (die c : Nat) (d : Dest) : s.sameAt t die c d :=
  State.sameAt_of_tables (by rw [h]) (by rw [h]) die c d
theorem State.sameAt_setQueue (s : State) (die c : Nat) (v : Queue) {r : Nat} {d : Dest} (h : d ≠ .queue r) :
    s.sameAt (s.setQueue die r c v) die c d := by
  cases d with
  | queue r' => exact s.queue_setQueue_of_ne die c v fun e => h (congrArg Dest.queue e)
  | off r' => rfl

theorem State.heldAt_of_sameAt {s t : State} {die c : Nat} {d : Dest} (h : s.sameAt t die c d) : t.heldAt die c d = s.heldAt die c d := by
  cases d with
  | queue r => simp only [State.heldAt, show t.queue die r c = s.queue die r c from h]
  | off r => exact congrArg (·, []) h
theorem State.heldWith_of_sameAt {s t : State} {die c : Nat} {d : Dest} (tok : Tok) (h : s.sameAt t die c d) :
    t.heldWith die c tok d = s.heldWith die c tok d := by
  cases d with
  | queue r => simp only [State.heldWith, show t.queue die r c = s.queue die r c from h]
  | off r => exact congrArg (· ++ [tok], []) h

/-! ## One delivery, and the deliveries of a firing -/

theorem qFilled_held (v : Queue) : (qFilled v).toks = v.toks ∧ (qFilled v).ext = v.ext := by
  unfold qFilled; split <;> exact ⟨rfl, rfl⟩

/-- R93: a token that enters a queue goes to the extension's tail, or to the partition's. -/
theorem qPush_held (v : Queue) (tok : Tok) :
    ((qPush v tok).toks, (qPush v tok).ext) = if qToExt v then (v.toks, v.ext ++ [tok]) else (v.toks ++ [tok], v.ext) := by
  unfold qPush
  split
  · rfl
  · rw [(qFilled_held _).1, (qFilled_held _).2]

theorem State.arr_pushTok (s : State) (die r c : Nat) (tok : Tok) :
    (s.pushTok die r c tok).arr = (s.setQueue die r c (qPush (s.queue die r c) tok)).arr := by
  unfold State.pushTok
  dsimp only
  split
  · rw [State.arr_bump]
  · rfl

theorem State.deliver_cons (s : State) (die c : Nat) (d : Dest) (ds : List Dest) (tok : Tok) :
    s.deliver die c (d :: ds) tok = (s.deliver die c [d] tok).deliver die c ds tok := rfl

theorem State.heldAt_deliver_one (s : State) (die c : Nat) (d : Dest) (tok : Tok) :
    (s.deliver die c [d] tok).heldAt die c d = s.heldWith die c tok d := by
  cases d with
  | queue r =>
    have pushed := State.heldAt_of_sameAt (State.sameAt_of_arr (s.arr_pushTok die r c tok) die c (.queue r))
    refine pushed.trans ?_
    rw [State.heldAt, State.queue_setQueue_self, qPush_held, State.heldWith]
  | off r => exact congrArg (·, []) (SMap.getD_setD_self ..)

theorem State.sameAt_deliver_one (s : State) (die c : Nat) (tok : Tok) {d e : Dest} (h : e ≠ d) :
    s.sameAt (s.deliver die c [d] tok) die c e := by
  cases d with
  | queue r =>
    exact State.sameAt_trans _ _ _ (s.sameAt_setQueue die c _ h) (State.sameAt_of_arr (s.arr_pushTok die r c tok) die c e)
  | off r =>
    cases e with
    | queue r' => rfl
    | off r' => exact SMap.getD_setD_of_ne _ _ _ (queueKey_ne die c fun k => h (congrArg Dest.off k)) _

/-- What is no destination is left alone. -/
theorem State.sameAt_deliver (s : State) (die c : Nat) (tok : Tok) {ds : List Dest} {e : Dest} (h : e ∉ ds) :
    s.sameAt (s.deliver die c ds tok) die c e := by
  induction ds generalizing s with
  | nil => exact s.sameAt_refl die c e
  | cons d ds ih =>
    obtain ⟨hd, hds⟩ := not_or.mp (List.mem_cons.not.mp h)
    rw [State.deliver_cons]
    exact State.sameAt_trans _ _ _ (s.sameAt_deliver_one die c tok hd) (ih _ hds)

/-- Where destinations differ, the token enters each of them once. -/
theorem State.heldAt_deliver (s : State) (die c : Nat) (tok : Tok) {ds : List Dest} (hnodup : ds.Nodup) {d : Dest} (h : d ∈ ds) :
    (s.deliver die c ds tok).heldAt die c d = s.heldWith die c tok d := by
  induction ds generalizing s with
  | nil => cases h
  | cons e ds ih =>
    obtain ⟨he, hds⟩ := List.nodup_cons.mp hnodup
    rw [State.deliver_cons]
    by_cases hde : d = e
    · subst hde
      rw [State.heldAt_of_sameAt (State.sameAt_deliver _ die c tok he), State.heldAt_deliver_one]
    · rw [ih _ hds (List.mem_of_ne_of_mem hde h), State.heldWith_of_sameAt tok (s.sameAt_deliver_one die c tok hde)]

/-! ## One firing -/

theorem State.destsRoom_iff (s : State) (die c : Nat) (ds : List Dest) :
    s.destsRoom die c ds = true ↔ ∀ d ∈ ds, s.hasRoom die c d = true := by
  unfold State.destsRoom
  rw [List.all_eq_true]
  refine forall₂_congr fun d _ => ?_
  cases d <;> rfl

/-- R124: accounting for messages at the control outputs moves no token. -/
theorem State.sameAt_ctlPasses (s : State) (die q c : Nat) (dir : State → Dest → Nat) (ds : List Dest) (d : Dest) :
    s.sameAt (ds.foldl (fun s d => s.ctlPass die q c (dir s d)) s) die c d := by
  refine State.foldl_keeps (fun s t => s.sameAt t die c d) (fun s => s.sameAt_refl die c d) (fun s t u => s.sameAt_trans t u) _
    (fun t e => ?_) ds s
  exact State.sameAt_of_tables rfl rfl die c d

theorem State.sameAt_fired (s : State) (die c : Nat) (d : Dest) : s.sameAt (s.fired die c) die c d :=
  State.sameAt_of_tables (by simp [State.fired]) (by simp [State.fired]) die c d

/-- R97: a token that waits to enter a queue changes what no destination holds. -/
theorem State.heldAt_markWaiting (s : State) (die r c : Nat) (d : Dest) : (s.markWaiting die r c).heldAt die c d = s.heldAt die c d := by
  by_cases h : d = .queue r
  · subst h
    simp only [State.heldAt, State.markWaiting, State.queue_setQueue_self]
  · exact State.heldAt_of_sameAt (s.sameAt_setQueue die c _ h)

theorem State.toks_of_heldAt {s t : State} {die q c : Nat} (h : t.heldAt die c (.queue q) = s.heldAt die c (.queue q)) :
    (t.queue die q c).toks = (s.queue die q c).toks := congrArg Prod.fst h

/-- R124: a token that may pass every control output it goes to is not held back by one. -/
theorem ctl_not_held {s : State} {die q c : Nat}
    (hctl : qidNet q = 2 → ∀ d ∈ s.dests die q c, s.ctlMay die q c (s.dirOf q d) d = true) :
    (qidNet q = 2 && (s.dests die q c).any (fun d => !(s.ctlMay die q c (s.dirOf q d) d))) = false := by
  simpa using hctl

section
variable {s : State} {die q c : Nat} {tok : Tok} (hactive : s.active die = some c) (hy : qidY q < 24)
  (hhead : s.headTok die q c = some tok)
  (hctl : qidNet q = 2 → ∀ d ∈ s.dests die q c, s.ctlMay die q c (s.dirOf q d) d = true)
include hactive hy hhead hctl

/-- R81: with room at every destination the head token leaves its queue and is delivered; what follows moves no token. -/
theorem State.forward_fires (hne : s.dests die q c ≠ []) (hroom : ∀ d ∈ s.dests die q c, s.hasRoom die c d = true) (d : Dest) :
    ((s.popTok die q c).deliver die c (s.dests die q c) tok).sameAt (s.forward die q) die c d := by
  simp only [State.forward, hactive, if_neg (Nat.not_le.mpr hy), hhead, ctl_not_held hctl, (s.destsRoom_iff die c _).mpr hroom,
    List.isEmpty_iff, hne, if_true, Bool.false_eq_true, if_false]
  refine State.sameAt_trans _ _ _ ?_ (State.sameAt_fired _ die c d)
  split
  · exact State.sameAt_ctlPasses _ die q c (fun s d => s.dirOf q d) _ d
  · exact State.sameAt_refl _ die c d

/-- R81: with a full destination no destination receives anything. -/
theorem State.forward_waits {f : Dest} (hf : f ∈ s.dests die q c) (hfull : s.hasRoom die c f = false) (d : Dest) :
    (s.forward die q).heldAt die c d = s.heldAt die c d := by
  have hroom : s.destsRoom die c (s.dests die q c) = false := by
    rw [Bool.eq_false_iff, Ne, s.destsRoom_iff]
    exact fun h => by simp [h f hf] at hfull
  simp only [State.forward, hactive, if_neg (Nat.not_le.mpr hy), hhead, ctl_not_held hctl, hroom, List.isEmpty_iff, List.ne_nil_of_mem hf,
    Bool.false_eq_true, if_false]
  refine State.foldl_keeps (fun s t => t.heldAt die c d = s.heldAt die c d) (fun _ => rfl) (fun _ _ _ h k => k.trans h) _
    (fun t e => ?_) _ s
  cases e with
  | queue r =>
    dsimp only
    split
    · exact t.heldAt_markWaiting die r c d
    · rfl
  | off r => rfl

end

theorem completes_tokenForward {die : Nat} (hdie : die < 4) (q : Nat) (s : State) {P : State → Prop} (h : P (s.forward die q)) :
    Completes (.tokenForward die q) s P :=
  ⟨s.forward die q, if_pos hdie, h⟩

/-- Settles O40: a queue's destinations differ from each other and from the queue, so a firing delivers to each of them once. -/
theorem multicastsFireWhole : Obligations.MulticastsFireWhole := by
  intro s die q c tok hdie _ _ hactive hy hx hhead hctl
  refine ⟨fun hlen hroom => completes_tokenForward hdie q s ⟨?_, fun d hd => ?_⟩,
    fun f hf hfull => completes_tokenForward hdie q s ⟨?_, fun d _ => ?_⟩⟩
  · have fired := State.forward_fires hactive hy hhead hctl (List.length_pos_iff.mp hlen) hroom (.queue q)
    have kept := (s.popTok die q c).sameAt_deliver die c tok (s.self_notMem_dests die q c hy hx)
    have popped : ((s.popTok die q c).queue die q c).toks = (s.queue die q c).toks.tail := by
      rw [State.popTok, State.queue_setQueue_self, qPop]
    exact (State.toks_of_heldAt (State.heldAt_of_sameAt (State.sameAt_trans _ _ _ kept fired))).trans popped
  · have fired := State.forward_fires hactive hy hhead hctl (List.length_pos_iff.mp hlen) hroom d
    have hdq : d ≠ .queue q := fun h => s.self_notMem_dests die q c hy hx (h ▸ hd)
    rw [State.heldAt_of_sameAt fired, State.heldAt_deliver _ die c tok (s.dests_nodup die q c hy hx) hd]
    exact State.heldWith_of_sameAt tok (s.sameAt_setQueue die c _ hdq)
  · exact State.toks_of_heldAt (State.forward_waits hactive hy hhead hctl hf hfull (.queue q))
  · exact State.forward_waits hactive hy hhead hctl hf hfull d

end Sys2Proof.Machine
end

section
/-!
PROOF. R288: HANDOVER, RELEASE and SET_LEASE. A command in turn passes every check of R277 and acts in the state in which its sequence
number is consumed; what an owner's command then does to owner, lease and journal is read off the state it leaves.
-/
namespace Sys2Proof.Machine

/-! ## The state in which a serialised command acts -/

/-- R277: session `i`, with state `v`, once it has taken the sequence number of packet `p`. -/
def takenSeq (i op : Nat) (p : Pkt) (v : Session) : Session :=
  let js := v.journal ++ [{ seq := p.seq, tag := p.tag, op := op, reply := none, qp := p.qp, waiters := [] }]
  { v with next := v.next + 1, journal := js.drop (js.length - repLimit i) }
/-- Session `k`, with state `u`, once session `i` has taken the sequence number of packet `p`. -/
def afterTurn (k i op : Nat) (p : Pkt) (u : Session) : Session := if k = i then takenSeq i op p u else u

section
variable (k i op : Nat) (p : Pkt) (u : Session)

@[simp] theorem afterTurn_self : afterTurn i i op p u = takenSeq i op p u := if_pos rfl
@[simp] theorem st_afterTurn : (afterTurn k i op p u).st = u.st := by unfold afterTurn; split <;> rfl
@[simp] theorem gen_afterTurn : (afterTurn k i op p u).gen = u.gen := by unfold afterTurn; split <;> rfl
@[simp] theorem roles_afterTurn : (afterTurn k i op p u).roles = u.roles := by unfold afterTurn; split <;> rfl
@[simp] theorem closing_afterTurn : (afterTurn k i op p u).closing = u.closing := by unfold afterTurn; split <;> rfl
@[simp] theorem gen_takenSeq : (takenSeq i op p u).gen = u.gen := rfl
@[simp] theorem held_takenSeq : (takenSeq i op p u).held = u.held := rfl

end

/-- R284: the reply journal holds the command whose sequence number has just been taken. -/
theorem findRep_takenSeq {i : Nat} (op : Nat) {p : Pkt} {v : Session} (hi : i < 256) (hnew : findRep v p.seq = none) :
    findRep (takenSeq i op p v) p.seq = some { seq := p.seq, tag := p.tag, op := op, reply := none, qp := p.qp, waiters := [] } := by
  have hlimit : repLimit i = 1024 := if_neg (by unfold mgmtIndex; omega)
  have hold : ∀ r ∈ v.journal.drop (v.journal.length + 1 - 1024), ¬ r.seq = p.seq := fun r hr => by
    simpa using List.find?_eq_none.mp hnew r (List.mem_of_mem_drop hr)
  simp only [takenSeq, findRep, hlimit, List.length_append, List.length_singleton]
  rw [List.drop_append_of_le_length (by omega), List.find?_append, List.find?_eq_none.mpr (by simpa using hold)]
  simp

theorem State.occupy_qps_only (s : State) (q : Nat) : s.occupy q = { s with host := { s.host with qps := (s.occupy q).host.qps } } := by
  unfold State.occupy; split <;> rfl
theorem State.takeSeq_sessions_only (s : State) (i op : Nat) (p : Pkt) (ws : List Nat) :
    s.takeSeq i op p ws = { s with host := { s.host with sessions := (s.takeSeq i op p ws).host.sessions } } := by
  unfold State.takeSeq; split <;> rfl
/-- R275, R283: a serialised command has changed the sessions and the queue pairs only. -/
theorem State.serial_host_only (s : State) (i op : Nat) (p : Pkt) :
    s.serial i op p = { s with host := { s.host with sessions := (s.serial i op p).host.sessions, qps := (s.occupy p.qp).host.qps } } := by
  unfold State.serial
  rw [State.takeSeq_sessions_only, State.occupy_qps_only]

@[simp] theorem State.regs_serial (s : State) (i op : Nat) (p : Pkt) : (s.serial i op p).regs = s.regs := by rw [State.serial_host_only]
@[simp] theorem State.now_serial (s : State) (i op : Nat) (p : Pkt) : (s.serial i op p).now = s.now := by rw [State.serial_host_only]
@[simp] theorem State.lease_serial (s : State) (i op : Nat) (p : Pkt) : (s.serial i op p).host.lease = s.host.lease := by
  rw [State.serial_host_only]
@[simp] theorem State.rd_serial (s : State) (i op : Nat) (p : Pkt) (f : Fld) (j : Nat) (w : Win) :
    (s.serial i op p).rd f j w = s.rd f j w := State.rd_congr (s.regs_serial i op p) f j w
@[simp] theorem State.ownerIndex_serial (s : State) (i op : Nat) (p : Pkt) : (s.serial i op p).ownerIndex = s.ownerIndex := by
  unfold State.ownerIndex State.flag
  simp only [State.rd_serial]

@[simp] theorem State.session_occupy (s : State) (q k : Nat) : (s.occupy q).session k = s.session k := by
  rw [State.occupy_qps_only]; rfl
theorem State.session_serial (s : State) (i op : Nat) (p : Pkt) (k : Nat) :
    (s.serial i op p).session k = (s.session k).map (afterTurn k i op p) := by
  unfold State.serial State.takeSeq
  rw [State.session_occupy]
  split
  next hnone =>
    rw [State.session_occupy]
    cases hk : s.session k with
    | none => rfl
    | some u => simp [afterTurn, show k ≠ i from fun h => by simp [← h, hk] at hnone]
  next v hv =>
    by_cases hki : k = i
    · subst hki
      rw [hv, Option.map_some, afterTurn_self]
      exact SMap.find?_insert_self ..
    · have hkeep : ((s.occupy p.qp).setSession i (takenSeq i op p v)).session k = s.session k :=
        (SMap.find?_insert_of_ne _ _ hki).trans (s.session_occupy p.qp k)
      refine hkeep.trans ?_
      cases s.session k <;> simp [afterTurn, hki]
theorem State.session_serial_self {s : State} {i : Nat} {v : Session} (h : s.session i = some v) (op : Nat) (p : Pkt) :
    (s.serial i op p).session i = some (takenSeq i op p v) := by
  rw [State.session_serial, h, Option.map_some, afterTurn_self]

/-! ## A command in turn passes the checks of R277 -/

/-- R287: a lease that has not run out leaves the owner in place. -/
theorem State.leaseDue_of_running {s : State} (h : ∀ u, s.host.lease = some u → s.now < u) : s.leaseDue = s := by
  unfold State.leaseDue
  split
  next u hu => exact if_neg fun ⟨hle, _⟩ => absurd (h u hu) (by omega)
  next => rfl

/-- R275: a packet that arrives is checked. -/
theorem State.hostCommand_of_arrives {s : State} {p : Pkt} {b : Option Nat} (h : s.arrives p b) (op : Nat) (extra : List Byte) :
    s.hostCommand op p extra = (s.occupy p.qp).checked op p extra := by
  obtain ⟨hdark, hfail, hlease, hce, hq, ⟨k, hk, herr, hused, -⟩, hlen, hmade⟩ := h
  have hopen : s.qpOpen p.qp = true := by simp [State.qpOpen, hk, herr]
  simp [State.hostCommand, State.arrivePkt, hdark, hfail, hopen, hce, hk, Nat.not_le.mpr hused, Nat.not_lt.mpr hlen, hmade,
    State.leaseDue_of_running hlease]

/-- A receive entry that is taken leaves a queue pair bound as it was. -/
theorem State.boundTo_occupy {s : State} {q : Nat} (hq : q ≠ mgmtQp) {k : Qp} (hk : s.qp q = some k) : (s.occupy q).boundTo q = k.bound := by
  have hself : (s.occupy q).qp q = some { k with used := k.used + 1 } := by
    simp only [State.occupy, hk]
    exact SMap.find?_insert_self ..
  simp [State.boundTo, hq, hself]

section
variable {s : State} {i op : Nat} {v : Session} {p : Pkt} (h : s.inTurn i v op p)
include h

/-- R277 steps 2 to 4: a command in turn, not of those that open sessions, is serialised. -/
theorem State.hostCommand_of_inTurn (hop : 3 < op) (extra : List Byte) :
    s.hostCommand op p extra = (s.occupy p.qp).serialise i op p extra [] 64 := by
  obtain ⟨harr, -, hv, hsess, htag, hseq, -, hclosing, -, -⟩ := h
  rw [State.hostCommand_of_arrives harr]
  obtain ⟨-, -, -, -, hq, ⟨k, hk, -, -, hbound⟩, -, -⟩ := harr
  have hto : (s.occupy p.qp).boundTo p.qp = some i := (State.boundTo_occupy hq hk).trans hbound
  simp [State.checked, hto, hv, hq, hsess, htag, show op ≠ 2 by omega, show op ≠ 3 by omega, State.inSequence, hseq, hclosing]

/-- R283: with nothing held in its session, a command in turn does what its operation does in the serial state. -/
theorem State.hostCommand_eq_applyOp (hop : 3 < op) (extra : List Byte)
    (hs : ((s.serial i op p).applyOp i op p extra).host.sessions = (s.serial i op p).host.sessions) :
    s.hostCommand op p extra = (s.serial i op p).applyOp i op p extra := by
  rw [State.hostCommand_of_inTurn h hop]
  obtain ⟨⟨-, -, hlease, -⟩, -, hv, -, -, -, hheld, -⟩ := h
  have hdue : (s.occupy p.qp).leaseDue = s.occupy p.qp :=
    State.leaseDue_of_running (by rw [State.occupy_qps_only]; exact hlease)
  have happ : ((s.serial i op p).applyOp i op p extra).session i = some (takenSeq i op p v) := by
    rw [State.session, hs]
    exact State.session_serial_self hv op p
  have hstart : ((s.occupy p.qp).leaseDue).takeSeq i op p [] = s.serial i op p := by rw [hdue]; rfl
  rw [State.serialise, hstart]
  simp only [happ, held_takenSeq, hheld, List.find?_nil]

/-- R284, R341: in any state with the sessions of the serial one, its answer is a record of the journal. -/
theorem State.answerSeq_of_inTurn {t : State} (ht : t.host.sessions = (s.serial i op p).host.sessions) (status detail : Nat)
    (body : List Byte) : t.answerSeq i p.seq status detail body =
      t.newRecord 0xFFFF (.reply p.qp (i + 1) p.session p.seq p.tag op status detail body) := by
  obtain ⟨⟨-, -, -, -, hq, -⟩, hi, hv, hsess, -, -, -, -, hnew, -⟩ := h
  have hvt : t.session i = some (takenSeq i op p v) := by
    rw [State.session, ht]
    exact State.session_serial_self hv op p
  simp [State.answerSeq, hvt, findRep_takenSeq op hi hnew, State.answer, hq, hsess]

end

/-! ## The rights of the three commands (R285) -/

/-- R288, R291: the commands about ownership, with their opcodes and what they do once serialised. -/
def ownershipCommands : List ((Pkt → Instr) × Nat × (State → Nat → Pkt → State)) :=
  [(.handover, 0x11, State.opHandover), (.release, 0x12, State.opRelease), (.setLease, 0x13, State.opSetLease)]
theorem handover_mem : (.handover, 0x11, State.opHandover) ∈ ownershipCommands := .head _
theorem release_mem : (.release, 0x12, State.opRelease) ∈ ownershipCommands := .tail _ (.head _)
theorem setLease_mem : (.setLease, 0x13, State.opSetLease) ∈ ownershipCommands := .tail _ (.tail _ (.head _))

section
variable {c : Pkt → Instr} {op : Nat} {f : State → Nat → Pkt → State} (hc : (c, op, f) ∈ ownershipCommands)
include hc

theorem ownershipCommands_cases : (c = .handover ∧ op = 0x11 ∧ f = State.opHandover) ∨ (c = .release ∧ op = 0x12 ∧ f = State.opRelease) ∨
    (c = .setLease ∧ op = 0x13 ∧ f = State.opSetLease) := by
  simpa [ownershipCommands] using hc

theorem exec_ownershipCommand (p : Pkt) (s : State) : exec (c p) s = .next (s.hostCommand op p []) := by
  obtain ⟨rfl, rfl, -⟩ | ⟨rfl, rfl, -⟩ | ⟨rfl, rfl, -⟩ := ownershipCommands_cases hc <;> rfl

variable {s : State} {i : Nat} {v : Session} {p : Pkt} (h : s.ownerTurn i v op p)
include h

/-- R277 step 5, R285: in turn in the owner's session, such a command has its rights. -/
theorem State.rightsRefusal_of_ownerTurn : (s.serial i op p).rightsRefusal i (takenSeq i op p v) op p = none := by
  obtain ⟨⟨-, hi, -⟩, howner, hact⟩ := h
  have hmine : (s.serial i op p).isOwner (.session i) = true := by simp [State.isOwner, howner]
  have hne : i ≠ mgmtIndex := by unfold mgmtIndex; omega
  obtain ⟨-, rfl, -⟩ | ⟨-, rfl, -⟩ | ⟨-, rfl, -⟩ := ownershipCommands_cases hc <;>
    simp [State.rightsRefusal, knownOp, ownerOp, tenantOp, hne, hmine, hact]

/-- R277 step 6: its header stands, so its operation acts. -/
theorem State.applyOp_of_ownerTurn : (s.serial i op p).applyOp i op p [] = f (s.serial i op p) i p := by
  have hrights := State.rightsRefusal_of_ownerTurn hc h
  obtain ⟨⟨-, -, hv, -, -, -, -, -, -, hhead⟩, -, -⟩ := h
  obtain ⟨-, rfl, rfl⟩ | ⟨-, rfl, rfl⟩ | ⟨-, rfl, rfl⟩ := ownershipCommands_cases hc <;>
    simp [State.applyOp, State.session_serial_self hv, hrights, hhead, knownOp, ownerOp]

end

/-! ## What a journal record leaves alone -/

@[simp] theorem State.host_newRecord (s : State) (slot : Nat) (pay : JPay) : (s.newRecord slot pay).host = s.host := by
  rw [State.newRecord, State.onlyJournal_newRecordFor s none slot pay]
@[simp] theorem State.now_newRecord (s : State) (slot : Nat) (pay : JPay) : (s.newRecord slot pay).now = s.now := by
  rw [State.newRecord, State.onlyJournal_newRecordFor s none slot pay]
/-- R338: of the registers a new record changes only JOURNAL_JSN. -/
theorem State.regsBut_newRecord (s : State) (slot : Nat) (pay : JPay) : s.regsBut (s.newRecord slot pay) F.JOURNAL_JSN_VALUE.words := by
  intro r j w k hk
  refine State.word_wr_of_apart s F.JOURNAL_JSN_VALUE _ 0 .glob r j w k fun a ha heq => hk ?_
  exact List.mem_map.mpr ⟨a, List.mem_range.mpr ha, heq.symm⟩
theorem State.rd_newRecord_of_apart (s : State) (slot : Nat) (pay : JPay) (f : Fld)
    (h : ∀ b < f.wordCount, f.reg.addr 0 .glob (f.firstWord + b) ∉ F.JOURNAL_JSN_VALUE.words) :
    (s.newRecord slot pay).rd f = s.rd f := by
  unfold State.rd
  rw [State.span_congr _ s _ _ _ _ _ fun b hb => s.regsBut_newRecord slot pay _ _ _ _ (h b hb)]
@[simp] theorem State.rd_owned_newRecord (s : State) (slot : Nat) (pay : JPay) :
    (s.newRecord slot pay).rd F.OWNER_STATUS_OWNED = s.rd F.OWNER_STATUS_OWNED := s.rd_newRecord_of_apart slot pay _ (by decide)
@[simp] theorem State.rd_owner_newRecord (s : State) (slot : Nat) (pay : JPay) :
    (s.newRecord slot pay).rd F.OWNER_STATUS_SESSION = s.rd F.OWNER_STATUS_SESSION := s.rd_newRecord_of_apart slot pay _ (by decide)
@[simp] theorem State.rd_leaseMs_newRecord (s : State) (slot : Nat) (pay : JPay) :
    (s.newRecord slot pay).rd F.LEASE_CFG_MS = s.rd F.LEASE_CFG_MS := s.rd_newRecord_of_apart slot pay _ (by decide)
theorem State.answered_newRecord (s : State) (i op : Nat) (p : Pkt) (status detail : Nat) (body : List Byte) :
    (s.newRecord 0xFFFF (.reply p.qp (i + 1) p.session p.seq p.tag op status detail body)).answered i op p status detail body := by
  rw [State.answered, State.jr_newRecord]
  exact ⟨_, List.mem_append_right _ List.mem_cons_self, rfl⟩
theorem State.mem_queue_newRecord {s : State} {r : JRec} (h : r ∈ s.jr.queue) (slot : Nat) (pay : JPay) :
    r ∈ (s.newRecord slot pay).jr.queue := by
  rw [State.jr_newRecord]
  exact List.mem_append_left _ h

/-- R288: a reply in the serial state is all that a command turned away leaves. -/
theorem State.onlyAnswers_newRecord (s : State) (i op : Nat) (p : Pkt) (slot : Nat) (pay : JPay) :
    s.onlyAnswers ((s.serial i op p).newRecord slot pay) i op p := by
  refine ⟨fun r j w k hk => ?_, ?_⟩
  · rw [(s.serial i op p).regsBut_newRecord slot pay r j w k hk, State.word, State.word, State.regs_serial]
  · conv_lhs => rw [State.newRecord, State.onlyJournal_newRecordFor (s.serial i op p) none slot pay]
    rfl

/-! ## A change of the owner -/

section
variable (s : State) (o : Option Nat)

@[simp] theorem State.sessions_setOwner : (s.setOwner o).host.sessions = s.host.sessions := by
  cases o <;> simp [State.setOwner, State.journalReg, State.renewLease]
theorem State.mem_queue_setOwner {r : JRec} (h : r ∈ s.jr.queue) : r ∈ (s.setOwner o).jr.queue := by
  refine State.mem_queue_newRecord ?_ _ _
  cases o <;> simpa [State.renewLease] using h
theorem State.answered_setOwner {i op : Nat} {p : Pkt} {status detail : Nat} {body : List Byte}
    (h : s.answered i op p status detail body) : (s.setOwner o).answered i op p status detail body := by
  obtain ⟨r, hr, hpay⟩ := h
  exact ⟨r, s.mem_queue_setOwner o hr, hpay⟩

@[simp] theorem State.rd_renewLease (f : Fld) (j : Nat) (w : Win) : s.renewLease.rd f j w = s.rd f j w :=
  State.rd_congr (s := s) (t := s.renewLease) rfl f j w

/-- R286: OWNED tells whether there is an owner. -/
@[simp] theorem State.rd_owned_setOwner : (s.setOwner o).rd F.OWNER_STATUS_OWNED = b2n o.isSome := by
  have hwritten : ∀ n, ((s.wrFlag F.OWNER_STATUS_OWNED o.isSome).wr F.OWNER_STATUS_SESSION n).rd F.OWNER_STATUS_OWNED = b2n o.isSome := by
    intro n
    rw [State.rd_wr_same_words _ F.OWNER_STATUS_SESSION F.OWNER_STATUS_OWNED _ _ _ rfl rfl rfl (by decide), State.wrFlag, State.rd_wr_self]
    cases o <;> rfl
  refine (State.rd_owned_newRecord _ _ _).trans ?_
  cases o with
  | none => exact (State.rd_congr (s := (s.wrFlag F.OWNER_STATUS_OWNED false).wr F.OWNER_STATUS_SESSION 0) rfl _ _ _).trans (hwritten 0)
  | some j => exact (State.rd_renewLease _ _ _ _).trans (hwritten _)

section
variable {j : Nat} {u : Session} (hu : s.session j = some u)
include hu

/-- R286: SESSION names the owner. -/
theorem State.rd_owner_setOwner : (s.setOwner (some j)).rd F.OWNER_STATUS_SESSION = sessionField j u.gen % 2 ^ 16 := by
  simp only [State.setOwner, State.journalReg, hu, Option.isSome_some, if_true, State.rd_owner_newRecord, State.rd_renewLease]
  exact State.rd_wr_self ..

/-- R287: an owner's lease starts at its full length. -/
theorem State.lease_setOwner : (s.setOwner (some j)).host.lease = some (s.now + 1000000 * s.rd F.LEASE_CFG_MS) := by
  have hms : ∀ n, ((s.wrFlag F.OWNER_STATUS_OWNED true).wr F.OWNER_STATUS_SESSION n).rd F.LEASE_CFG_MS = s.rd F.LEASE_CFG_MS := by
    intro n
    rw [State.rd_wr_of_apart _ _ _ _ _ _ _ _ (by decide), State.wrFlag, State.rd_wr_of_apart _ _ _ _ _ _ _ _ (by decide)]
  simp [State.setOwner, State.journalReg, hu, State.renewLease, hms]

theorem State.ownerIndex_setOwner (hj : j < 256) : (s.setOwner (some j)).ownerIndex = some j := by
  have hindex : sessionField j u.gen % 256 = j := by unfold sessionField; omega
  simp [State.ownerIndex, State.flag, b2n, s.rd_owner_setOwner hu, hindex]

end

@[simp] theorem State.ownerIndex_setOwner_none : (s.setOwner none).ownerIndex = none := by
  simp [State.ownerIndex, State.flag, b2n]
/-- R288: without an owner there is no lease. -/
@[simp] theorem State.lease_setOwner_none : (s.setOwner none).host.lease = none := by
  simp [State.setOwner, State.journalReg]

end

/-! ## How the three commands end -/

/-- `n` bytes hold a number below 256 to the `n`. -/
theorem at'_lt (bs : List Byte) (o n : Nat) : at' bs o n < 256 ^ n := by
  have hbytes : ∀ l : List Byte, ofBytes l < 256 ^ l.length := fun l => by
    induction l with
    | nil => decide
    | cons b l ih =>
      have := b.isLt
      rw [ofBytes, List.length_cons, Nat.pow_succ]
      omega
  exact (hbytes _).trans_le (Nat.pow_le_pow_right (by decide) (List.length_take_le ..))

section
variable {c : Pkt → Instr} {op : Nat} {f : State → Nat → Pkt → State} (hc : (c, op, f) ∈ ownershipCommands)
  {s : State} {i : Nat} {v : Session} {p : Pkt} (h : s.ownerTurn i v op p)
include hc h

/-- R283: the command ends as its operation does, when that leaves the sessions as they are. -/
theorem completes_ownershipCommand {P : State → Prop} (hs : (f (s.serial i op p) i p).host.sessions = (s.serial i op p).host.sessions)
    (hP : P (f (s.serial i op p) i p)) : Completes (c p) s P := by
  have hop : 3 < op := by rcases ownershipCommands_cases hc with h | h | h <;> omega
  have happ := State.applyOp_of_ownerTurn hc h
  refine ⟨_, exec_ownershipCommand hc p s, ?_⟩
  rwa [State.hostCommand_eq_applyOp h.1 hop [] (by rwa [happ]), happ]

/-- R277: a command that its operation turns away is answered and changes nothing else. -/
theorem completes_turnedAway {status : Nat} (hf : f (s.serial i op p) i p = (s.serial i op p).answerSeq i p.seq status 0 []) :
    Completes (c p) s (fun t => t.answered i op p status 0 [] ∧ s.onlyAnswers t i op p) := by
  rw [State.answerSeq_of_inTurn h.1 rfl] at hf
  refine completes_ownershipCommand hc h ?_ ?_
  · rw [hf, State.host_newRecord]
  · rw [hf]
    exact ⟨State.answered_newRecord .., State.onlyAnswers_newRecord ..⟩

/-- R286: a command that changes the owner is answered OK, and the change acts on a state with the sessions of the serial one and with
the time and the lease's length as before. -/
theorem completes_setOwner {o : Option Nat} {P : State → Prop}
    (hf : f (s.serial i op p) i p = ((s.serial i op p).answerSeq i p.seq stOk 0 []).setOwner o)
    (hP : ∀ t : State, t.host.sessions = (s.serial i op p).host.sessions → t.now = s.now → t.rd F.LEASE_CFG_MS = s.rd F.LEASE_CFG_MS →
      (t.setOwner o).answered i op p stOk 0 [] → P (t.setOwner o)) : Completes (c p) s P := by
  rw [State.answerSeq_of_inTurn h.1 rfl] at hf
  refine completes_ownershipCommand hc h ?_ ?_
  · rw [hf, State.sessions_setOwner, State.host_newRecord]
  · rw [hf]
    exact hP _ (by simp) (by simp) (by simp) (State.answered_setOwner _ o (State.answered_newRecord ..))

end

/-! ## HANDOVER -/

/-- R288: whether an ACTIVE or DETACHED target `u` becomes the owner depends on its PLATFORM right alone. -/
theorem State.opHandover_of_target {s : State} {p : Pkt} {u : Session} (i : Nat) (hlen : p.body.length = 2)
    (hu : s.session (at' p.body 0 2 % 256) = some u) (hnames : sessionField (at' p.body 0 2 % 256) u.gen = at' p.body 0 2)
    (hst : u.st = .active ∨ u.st = .detached) (hopen : u.closing ≠ 2) :
    s.opHandover i p = if bitOf u.roles 0 = true then (s.answerSeq i p.seq stOk 0 []).setOwner (some (at' p.body 0 2 % 256))
      else s.answerSeq i p.seq stNotpermitted 0 [] := by
  have hgood : ¬ (sessionField (at' p.body 0 2 % 256) u.gen ≠ at' p.body 0 2 ∨ (u.st ≠ .active ∧ u.st ≠ .detached) ∨ u.closing = 2) := by
    tauto
  simp only [State.opHandover, hlen, hu, hgood]
  cases bitOf u.roles 0 <;> simp

/-- R288: no ACTIVE or DETACHED session carries the target's name. -/
theorem State.opHandover_of_noTarget {s : State} {p : Pkt} (i : Nat) (hlen : p.body.length = 2)
    (hnone : ∀ u, s.session (at' p.body 0 2 % 256) = some u → sessionField (at' p.body 0 2 % 256) u.gen = at' p.body 0 2 →
      (u.st ≠ .active ∧ u.st ≠ .detached) ∨ u.closing = 2) :
    s.opHandover i p = s.answerSeq i p.seq stNotfound 0 [] := by
  simp only [State.opHandover, hlen]
  cases hu : s.session (at' p.body 0 2 % 256) with
  | none => simp
  | some u =>
    have hbad : sessionField (at' p.body 0 2 % 256) u.gen ≠ at' p.body 0 2 ∨ (u.st ≠ .active ∧ u.st ≠ .detached) ∨ u.closing = 2 := by
      have := hnone u hu
      tauto
    simp [hbad]

section
variable {s : State} {i : Nat} {v : Session} {p : Pkt} (h : s.ownerTurn i v 0x11 p) (hlen : p.body.length = 2)
include h hlen

/-- R288: HANDOVER to a session that may own the module: ownership passes with a fresh lease. One that may not is turned away. -/
theorem completes_handover {j : Nat} {u : Session} (hnames : at' p.body 0 2 = sessionField j u.gen) (hj : j < 256)
    (hu : s.session j = some u) (hst : u.st = .active ∨ u.st = .detached) (hopen : u.closing ≠ 2) :
    (bitOf u.roles 0 = true → Completes (.handover p) s (fun t => t.ownerIndex = some j ∧
      t.rd F.OWNER_STATUS_SESSION = sessionField j u.gen ∧ t.host.lease = some (s.now + 1000000 * s.rd F.LEASE_CFG_MS) ∧
      t.answered i 0x11 p stOk 0 [])) ∧
    (bitOf u.roles 0 = false →
      Completes (.handover p) s (fun t => t.answered i 0x11 p stNotpermitted 0 [] ∧ s.onlyAnswers t i 0x11 p)) := by
  have hindex : at' p.body 0 2 % 256 = j := by rw [hnames, sessionField]; omega
  have hserial : (s.serial i 0x11 p).session j = some (afterTurn j i 0x11 p u) := by rw [State.session_serial, hu, Option.map_some]
  have hop := State.opHandover_of_target (s := s.serial i 0x11 p) i hlen (by rwa [hindex])
    (by rw [hindex, gen_afterTurn, hnames]) (by simpa using hst) (by simpa using hopen)
  rw [roles_afterTurn, hindex] at hop
  refine ⟨fun hroles => ?_, fun hroles => ?_⟩
  · rw [if_pos hroles] at hop
    refine completes_setOwner handover_mem h hop fun t hsessions hnow hms hanswer => ?_
    have htarget : t.session j = some (afterTurn j i 0x11 p u) := by rw [State.session, hsessions]; exact hserial
    have hfit : sessionField j (afterTurn j i 0x11 p u).gen < 2 ^ 16 := by
      rw [gen_afterTurn, ← hnames]
      exact at'_lt p.body 0 2
    refine ⟨t.ownerIndex_setOwner htarget hj, ?_, ?_, hanswer⟩
    · rw [t.rd_owner_setOwner htarget, Nat.mod_eq_of_lt hfit, gen_afterTurn]
    · rw [t.lease_setOwner htarget, hnow, hms]
  · rw [hroles, if_neg (by decide)] at hop
    exact completes_turnedAway handover_mem h hop

/-- R288: HANDOVER to no such session is answered NOTFOUND. -/
theorem completes_handover_noTarget
    (hnone : ∀ u, s.session (at' p.body 0 2 % 256) = some u → sessionField (at' p.body 0 2 % 256) u.gen = at' p.body 0 2 →
      (u.st ≠ .active ∧ u.st ≠ .detached) ∨ u.closing = 2) :
    Completes (.handover p) s (fun t => t.answered i 0x11 p stNotfound 0 [] ∧ s.onlyAnswers t i 0x11 p) := by
  refine completes_turnedAway handover_mem h (State.opHandover_of_noTarget i hlen fun u hu => ?_)
  rw [State.session_serial, Option.map_eq_some_iff] at hu
  obtain ⟨w, hw, rfl⟩ := hu
  simpa using hnone w hw

end

/-! ## RELEASE and SET_LEASE -/

/-- R288: RELEASE makes the module unowned. -/
theorem completes_release {s : State} {i : Nat} {v : Session} {p : Pkt} (h : s.ownerTurn i v 0x12 p) (hbody : p.body = []) :
    Completes (.release p) s (fun t => t.ownerIndex = none ∧ t.host.lease = none ∧ t.answered i 0x12 p stOk 0 []) := by
  have hop : (s.serial i 0x12 p).opRelease i p = ((s.serial i 0x12 p).answerSeq i p.seq stOk 0 []).setOwner none :=
    if_neg (not_not.mpr hbody)
  exact completes_setOwner release_mem h hop fun t _ _ _ hanswer =>
    ⟨t.ownerIndex_setOwner_none, t.lease_setOwner_none, hanswer⟩

section
variable {s : State} {i : Nat} {v : Session} {p : Pkt} (h : s.ownerTurn i v 0x13 p)
include h

/-- R288: SET_LEASE leaves the running lease; the next renewal takes the new length. -/
theorem completes_setLease (hlen : p.body.length = 4) (hlow : 1000 ≤ at' p.body 0 4) (hhigh : at' p.body 0 4 ≤ 60000) :
    Completes (.setLease p) s (fun t => t.host.lease = s.host.lease ∧
      t.renewLease.host.lease = some (s.now + 1000000 * at' p.body 0 4) ∧ t.answered i 0x13 p stOk 0 []) := by
  have hop : (s.serial i 0x13 p).opSetLease i p = (((s.serial i 0x13 p).wr F.LEASE_CFG_MS (at' p.body 0 4)).journalReg
      (Reg.addr .LEASE_CFG 0 .glob 0) (at' p.body 0 4)).answerSeq i p.seq stOk 0 [] := by
    simp [State.opSetLease, hlen, Nat.not_lt.mpr hlow, Nat.not_lt.mpr hhigh]
  rw [State.answerSeq_of_inTurn h.1 (by simp [State.journalReg])] at hop
  have hms : at' p.body 0 4 % 2 ^ F.LEASE_CFG_MS.w = at' p.body 0 4 := Nat.mod_eq_of_lt (hhigh.trans_lt (by decide))
  refine completes_ownershipCommand setLease_mem h ?_ ?_ <;> rw [hop]
  · simp [State.journalReg]
  · refine ⟨by simp [State.journalReg], ?_, State.answered_newRecord ..⟩
    simp [State.renewLease, State.journalReg, State.rd_wr_self, hms]

/-- R288: SET_LEASE out of range is turned away. -/
theorem completes_setLease_outOfRange (hrange : at' p.body 0 4 < 1000 ∨ 60000 < at' p.body 0 4) :
    Completes (.setLease p) s (fun t => t.answered i 0x13 p stRefused 0 [] ∧ s.onlyAnswers t i 0x13 p) :=
  completes_turnedAway setLease_mem h (by simp [State.opSetLease, hrange])

end

/-- Settles O21: each of the three commands is in turn, acts on the serial state, and leaves what R288 says. -/
theorem handoverReleaseAndLease : Obligations.HandoverReleaseAndLease := by
  intro s i v p
  exact ⟨fun j u h hlen hnames hj hu hst hopen => completes_handover h hlen hnames hj hu hst hopen,
    completes_handover_noTarget, completes_release, completes_setLease,
    fun h _ hrange => completes_setLease_outOfRange h hrange⟩

end Sys2Proof.Machine
end

section
/-!
PROOF. R321: the reorder store is bounded. The bytes of a flit read back as the flit, and taking it off its hop leaves the flows, the
inbox and every register but the port's counts as they were. What becomes of it is then a matter of its flow alone: it is next in
order, it is held, or it is discarded.
-/
namespace Sys2Proof.Machine

/-! ## Reading numbers out of bytes -/

theorem ofBytes_append (a b : List Byte) : ofBytes (a ++ b) = ofBytes a + 256 ^ a.length * ofBytes b := by
  induction a with
  | nil => simp [ofBytes]
  | cons x a ih => rw [List.cons_append, ofBytes, ih, ofBytes, List.length_cons, pow_succ]; ring

theorem ofBytes_toBytes (v k : Nat) : ofBytes (toBytes v k) = v % 256 ^ k := by
  induction k generalizing v with
  | zero => simp [toBytes, ofBytes, Nat.mod_one]
  | succ k ih => rw [toBytes, ofBytes, ih, BitVec.toNat_ofNat, pow_succ' 256 k, Nat.mod_mul]

/-- Bits of a number that stands at the front of a byte string. -/
theorem bitsOf_toBytes_append (v k lo w : Nat) (bs : List Byte) (h : lo + w ≤ 8 * k) :
    bitsOf (ofBytes (toBytes v k ++ bs)) lo w = bitsOf v lo w := by
  have hk : 256 ^ k = 2 ^ (8 * k) := by rw [pow_mul]; rfl
  rw [ofBytes_append, ofBytes_toBytes, length_toBytes, hk, ← bitsOf_mod _ (8 * k) lo w h, Nat.add_mul_mod_self_left, Nat.mod_mod,
    bitsOf_mod _ _ _ _ h]

/-- A number of four bytes that stands behind a byte string. -/
theorem bitsOf_append_toBytes (bs : List Byte) (x : BitVec 32) :
    bitsOf (ofBytes (bs ++ toBytes x.toNat 4)) (8 * bs.length) 32 = x.toNat := by
  have hlow : ofBytes bs < 2 ^ (8 * bs.length) := by
    induction bs with
    | nil => simp [ofBytes]
    | cons b bs ih =>
      have hb := b.isLt
      rw [ofBytes, List.length_cons, Nat.mul_succ, pow_add]
      omega
  have hk : 256 ^ bs.length = 2 ^ (8 * bs.length) := by rw [pow_mul]; rfl
  rw [ofBytes_append, ofBytes_toBytes, hk, bitsOf, Nat.add_mul_div_left _ _ (Nat.two_pow_pos _), Nat.div_eq_of_lt hlow, Nat.zero_add,
    show 256 ^ 4 = 2 ^ 32 from rfl, Nat.mod_mod, Nat.mod_eq_of_lt x.isLt]

/-! ## The bytes of a flit (R316) -/

/-- R316: the fields of a DATA flit hold what their widths allow, and its payload is whole. -/
structure FlitSized (f : Flit) : Prop where
  vc : f.vc < 4
  dst : f.dst < 8192
  src : f.src < 8192
  flow : f.flow < 256
  fseq : f.fseq < 2 ^ 32
  payload : f.payload.length = 240

/-- R316: the header of a DATA flit, as a number. -/
def flitHead (f : Flit) (lseq lack : Nat) : Nat :=
  1 + 8 * f.vc + 32 * b2n f.last + 2 ^ 6 * f.dst + 2 ^ 19 * f.src + 2 ^ 32 * lseq + 2 ^ 44 * lack +
    2 ^ 56 * (f.flow % 256) + 2 ^ 64 * (f.fseq % 2 ^ 32)
/-- R316: the bytes of a DATA flit that its CRC covers. -/
def flitCovered (f : Flit) (lseq lack : Nat) : List Byte := toBytes (flitHead f lseq lack) 12 ++ f.payload
/-- R316: the flit that 256 bytes carry. -/
def flitRead (bs : List Byte) : Flit :=
  { vc := bitsOf (ofBytes bs) 3 2, last := bitOf (ofBytes bs) 5, dst := bitsOf (ofBytes bs) 6 13, src := bitsOf (ofBytes bs) 19 13,
    flow := bitsOf (ofBytes bs) 56 8, fseq := bitsOf (ofBytes bs) 64 32, payload := (bs.drop 12).take 240 }

section
variable {f : Flit} {lseq lack : Nat} (hf : FlitSized f)
include hf

theorem flitBytes_eq : flitBytes f lseq lack = flitCovered f lseq lack ++ toBytes (crc32c (flitCovered f lseq lack)).toNat 4 := by
  simp [flitBytes, flitCovered, flitHead, hf.payload]

theorem length_flitCovered : (flitCovered f lseq lack).length = 252 := by simp [flitCovered, length_toBytes, hf.payload]

/-- The CRC of a flit's bytes is the one they carry. -/
theorem crc_flitBytes : bitsOf (ofBytes (flitBytes f lseq lack)) (8 * 252) 32 = (crc32c ((flitBytes f lseq lack).take 252)).toNat := by
  have hlen := length_flitCovered (lseq := lseq) (lack := lack) hf
  have hcrc := bitsOf_append_toBytes (flitCovered f lseq lack) (crc32c (flitCovered f lseq lack))
  rw [hlen] at hcrc
  rw [flitBytes_eq hf, hcrc, List.take_left' hlen]

theorem bitsOf_flitBytes {lo w : Nat} (h : lo + w ≤ 96) :
    bitsOf (ofBytes (flitBytes f lseq lack)) lo w = bitsOf (flitHead f lseq lack) lo w := by
  rw [flitBytes_eq hf, flitCovered, List.append_assoc, bitsOf_toBytes_append _ 12 _ _ _ h]

/-- R316: each field of the header stands where it is read. -/
theorem fields_flitHead (hlseq : lseq < 4096) (hlack : lack < 4096) :
    let h := flitHead f lseq lack
    bitsOf h 0 3 = 1 ∧ bitsOf h 3 2 = f.vc ∧ bitsOf h 5 1 = b2n f.last ∧ bitsOf h 6 13 = f.dst ∧ bitsOf h 19 13 = f.src ∧
      bitsOf h 32 12 = lseq ∧ bitsOf h 44 12 = lack ∧ bitsOf h 56 8 = f.flow ∧ bitsOf h 64 32 = f.fseq := by
  obtain ⟨hvc, hdst, hsrc, hflow, hfseq, -⟩ := hf
  have hlast : b2n f.last < 2 := by cases f.last <;> decide
  simp only [flitHead, bitsOf]
  omega

/-- R316: the bytes of a flit on a hop read back as the flit. -/
theorem flitRead_flitBytes (hlseq : lseq < 4096) (hlack : lack < 4096) : flitRead (flitBytes f lseq lack) = f := by
  obtain ⟨-, hvc, hlast, hdst, hsrc, -, -, hflow, hfseq⟩ := fields_flitHead hf hlseq hlack
  have hlastBit : bitOf (ofBytes (flitBytes f lseq lack)) 5 = f.last := by
    have h := bitsOf_flitBytes (lseq := lseq) (lack := lack) hf (lo := 5) (w := 1) (by decide)
    rw [hlast] at h
    rw [bitOf, show ofBytes (flitBytes f lseq lack) / 2 ^ 5 % 2 = b2n f.last from h]
    cases f.last <;> rfl
  have hpayload : ((flitBytes f lseq lack).drop 12).take 240 = f.payload := by
    rw [flitBytes_eq hf, flitCovered, List.append_assoc, List.drop_left' (length_toBytes _ 12), List.take_left' hf.payload]
  simp [flitRead, bitsOf_flitBytes hf, hvc, hlastBit, hdst, hsrc, hflow, hfseq, hpayload]

end

/-! ## Off the hop -/

/-- The words of the counts of a port. -/
def portCounts (p : Nat) : List Nat := (List.range 8).flatMap fun c => F.LINK_CNT_COUNT.words (8 * p + c)

theorem portCounts_bounds {p a : Nat} (hp : p < 32) (h : a ∈ portCounts p) : 0x300400 ≤ a ∧ a < 0x300C00 := by
  obtain ⟨c, hc, ha⟩ := List.mem_flatMap.mp h
  obtain ⟨k, hk, rfl⟩ := List.mem_map.mp ha
  have hc := List.mem_range.mp hc
  have hk : k < 2 := List.mem_range.mp hk
  have : F.LINK_CNT_COUNT.reg.addr (8 * p + c) .glob (F.LINK_CNT_COUNT.firstWord + k) = 0x300400 + 8 * (8 * p + c) + 4 * k := by
    simp [Reg.addr, F.LINK_CNT_COUNT, Reg.info, winBase, Fld.firstWord]
  omega

/-- A write of a field leaves alone every word but the field's own. -/
theorem State.regsBut_wr (s : State) {f : Fld} {i : Nat} {w : Win} {as : List Nat} (h : f.words i w ⊆ as) (v : Nat) :
    s.regsBut (s.wr f v i w) as := fun r j w' k hk =>
  s.word_wr_of_apart f v i w r j w' k fun a ha heq => hk (h (List.mem_map.mpr ⟨a, List.mem_range.mpr ha, heq.symm⟩))

/-- A field none of whose words has changed reads as before. -/
theorem State.rd_of_regsBut {s t : State} {as : List Nat} (h : s.regsBut t as) {f : Fld} {i : Nat} {w : Win}
    (hf : ∀ a ∈ f.words i w, a ∉ as) : t.rd f i w = s.rd f i w := by
  unfold State.rd
  rw [State.span_congr t s _ _ _ _ _ fun b hb => h _ _ _ _ (hf _ (List.mem_map.mpr ⟨b, List.mem_range.mpr hb, rfl⟩))]

/-- What traffic on the hop of port `p` leaves alone: flows at their receiver, the inbox, and every register but the port's counts. -/
structure State.OnHop (s : State) (p : Nat) (t : State) : Prop where
  rx : t.link.rx = s.link.rx
  inbox : t.link.inbox = s.link.inbox
  regs : s.regsBut t (portCounts p)

section
variable {s t u : State} {p : Nat}

theorem State.OnHop.refl (s : State) (p : Nat) : s.OnHop p s := ⟨rfl, rfl, fun _ _ _ _ _ => rfl⟩
theorem State.OnHop.trans (h : s.OnHop p t) (k : t.OnHop p u) : s.OnHop p u :=
  ⟨k.rx.trans h.rx, k.inbox.trans h.inbox, fun r i w j hj => (k.regs r i w j hj).trans (h.regs r i w j hj)⟩

theorem State.OnHop.count (h : s.OnHop p t) (n : Nat) {c : Nat} (hc : c < 8) : s.OnHop p (t.bump F.LINK_CNT_COUNT n (8 * p + c)) :=
  h.trans ⟨by simp, by simp, t.regsBut_wr (fun _ ha => List.mem_flatMap.mpr ⟨c, List.mem_range.mpr hc, ha⟩) _⟩
theorem State.OnHop.setPort (h : s.OnHop p t) (v : Port) : s.OnHop p (t.setPort p v) := h.trans ⟨rfl, rfl, fun _ _ _ _ _ => rfl⟩
theorem State.OnHop.emit (h : s.OnHop p t) (o : Out) : s.OnHop p (t.emit o) := h.trans ⟨rfl, rfl, fun _ _ _ _ _ => rfl⟩

theorem State.onHop_sendOne (h : s.sendOne p = some t) : s.OnHop p t := by
  unfold State.sendOne at h
  dsimp only at h
  split at h
  · split at h
    · cases h
    · split at h
      · cases h
      · cases h
        exact (((State.OnHop.refl s p).setPort _).count 1 (c := 0) (by decide)).emit _
  · cases h

theorem State.onHop_pumpN (n : Nat) (s : State) (p : Nat) : s.OnHop p (s.pumpN p n) := by
  induction n generalizing s with
  | zero => exact .refl s p
  | succ n ih =>
    unfold State.pumpN
    split
    · next s1 h => exact (State.onHop_sendOne h).trans (ih s1)
    · exact .refl s p

theorem State.OnHop.hopAck (h : s.OnHop p t) (lack : Nat) : s.OnHop p (t.hopAck p lack) := by
  unfold State.hopAck
  dsimp only
  split
  · exact (h.setPort _).trans (State.onHop_pumpN _ _ _)
  · exact h

/-- What the hop leaves of a flow. -/
theorem State.OnHop.rxFlow (h : s.OnHop p t) (k : Nat) : t.rxFlow k = s.rxFlow k := by rw [State.rxFlow, h.rx, State.rxFlow]
theorem State.OnHop.reorderUsed (h : s.OnHop p t) : t.reorderUsed = s.reorderUsed := by rw [State.reorderUsed, h.rx, State.reorderUsed]
theorem State.OnHop.ownId (h : s.OnHop p t) (hp : p < 32) : t.ownId = s.ownId :=
  State.rd_of_regsBut h.regs fun a ha hmem => by
    have := portCounts_bounds hp hmem
    have : a = 4 := List.mem_singleton.mp ha
    omega
/-- The counts of the module stand apart from those of its ports. -/
theorem State.OnHop.rd_modCount (h : s.OnHop p t) (hp : p < 32) (i : Nat) :
    t.rd F.LINK_MOD_CNT_COUNT i = s.rd F.LINK_MOD_CNT_COUNT i :=
  State.rd_of_regsBut h.regs fun a ha hmem => by
    have hlow := portCounts_bounds hp hmem
    obtain ⟨k, -, rfl⟩ := List.mem_map.mp ha
    simp [Reg.addr, F.LINK_MOD_CNT_COUNT, Reg.info, winBase] at hlow
    omega

end

/-- R317, R318: the state once port `p` has taken a flit in order off the hop: counted with its `n` bytes corrected, what it acknowledges
released, and its credit returned. -/
def State.offHop (s : State) (p n vc lack : Nat) : State :=
  let v := s.port p
  let counted := (s.bump F.LINK_CNT_COUNT 1 (8 * p + 1)).bump F.LINK_CNT_COUNT n (8 * p + 3)
  let taken := counted.setPort p { v with expect := (v.expect + 1) % 4096, nakSent := false }
  ((taken.hopAck p lack).bump F.LINK_CNT_COUNT 1 (8 * p)).emit (.credit p vc 1 v.expect)

theorem State.onHop_offHop (s : State) (p n vc lack : Nat) : s.OnHop p (s.offHop p n vc lack) :=
  ((((((State.OnHop.refl s p).count 1 (c := 1) (by decide)).count n (c := 3) (by decide)).setPort _).hopAck lack).count 1 (c := 0)
    (by decide)).emit _

/-- R317: an intact flit of the expected LSEQ is taken off the hop and reaches its module. -/
theorem exec_dataFlitReceive_inOrder {s : State} {p n lack : Nat} {raw : List Byte} {f : Flit} (hf : FlitSized f) (hp : p < 32)
    (hcarries : s.carries p = true) (hlseq : (s.port p).expect < 4096) (hlack : lack < 4096)
    (hraw : laneDecode raw = (flitBytes f (s.port p).expect lack, n)) :
    exec (.dataFlitReceive p raw) s = .next ((s.offHop p n f.vc lack).takeFlit f) := by
  obtain ⟨hkind, hvc, -, -, -, hseq, hack, -, -⟩ := fields_flitHead hf hlseq hlack
  have hport : ((s.bump F.LINK_CNT_COUNT 1 (8 * p + 1)).bump F.LINK_CNT_COUNT n (8 * p + 3)).port p = s.port p := by simp [State.port]
  have hread := flitRead_flitBytes hf hlseq hlack
  rw [flitRead] at hread
  change execDataFlitReceive p raw s = _
  simp only [execDataFlitReceive, onPort, hp, hcarries, if_true, hraw, hport, hread, crc_flitBytes hf, ne_eq, not_true, if_false]
  simp only [bitsOf_flitBytes hf, Nat.reduceAdd, Nat.reduceLeDiff, hkind, hvc, hseq, hack, not_true, if_false, State.offHop]

/-! ## The bytes of a message (R325) -/

theorem take_drop_middle {a b c bs : List Byte} (hbs : bs = a ++ (b ++ c)) {m n : Nat} (ha : a.length = m) (hb : b.length = n) :
    (bs.drop m).take n = b := by rw [hbs, List.drop_left' ha, List.take_left' hb]

/-- R325: the types that are known have small codes. -/
theorem lt_of_msgVc_isSome {ty : Nat} (h : (msgVc ty).isSome = true) : ty < 0x32 := by
  by_contra hge
  revert h
  unfold msgVc
  rw [if_neg (by omega), if_neg (by omega), if_neg (by omega), if_neg (by omega), if_neg (by omega), if_neg (by omega)]
  decide

/-- R325: what the receiver of a message makes of its bytes. -/
theorem fields_msgBytes {bs : List Byte} {ty ref : Nat} {arg body pad : List Byte} (hbs : bs = msgBytes ty ref arg body ++ pad)
    (hty : ty < 2 ^ 16) (href : ref < 2 ^ 64) (harg : arg.length = 16) (hbody : body.length < 2 ^ 32) :
    ofBytes (bs.take 2) = ty ∧ ofBytes ((bs.drop 4).take 4) = body.length ∧ ofBytes ((bs.drop 8).take 8) = ref ∧
      (bs.drop 16).take 16 = arg ∧ (bs.drop 32).take body.length = body ∧ 32 + body.length ≤ bs.length := by
  have hsplit : bs = toBytes ty 2 ++ (toBytes 0 2 ++ (toBytes body.length 4 ++ (toBytes ref 8 ++ (arg ++ (body ++ pad))))) := by
    simp [hbs, msgBytes, harg]
  have htyBytes : (bs.drop 0).take 2 = toBytes ty 2 := take_drop_middle (a := []) hsplit rfl (length_toBytes _ _)
  have hlenBytes : (bs.drop 4).take 4 = toBytes body.length 4 :=
    take_drop_middle (a := toBytes ty 2 ++ toBytes 0 2) (by rw [hsplit, List.append_assoc]) (by simp [length_toBytes]) (length_toBytes _ _)
  have hrefBytes : (bs.drop 8).take 8 = toBytes ref 8 :=
    take_drop_middle (a := toBytes ty 2 ++ toBytes 0 2 ++ toBytes body.length 4) (c := arg ++ (body ++ pad))
      (by simp only [hsplit, List.append_assoc]) (by simp [length_toBytes]) (length_toBytes _ _)
  have hargBytes : (bs.drop 16).take 16 = arg :=
    take_drop_middle (a := toBytes ty 2 ++ toBytes 0 2 ++ toBytes body.length 4 ++ toBytes ref 8) (c := body ++ pad)
      (by simp only [hsplit, List.append_assoc]) (by simp [length_toBytes]) harg
  have hbodyBytes : (bs.drop 32).take body.length = body :=
    take_drop_middle (a := toBytes ty 2 ++ toBytes 0 2 ++ toBytes body.length 4 ++ toBytes ref 8 ++ arg) (c := pad)
      (by simp only [hsplit, List.append_assoc]) (by simp [length_toBytes, harg]) rfl
  rw [List.drop_zero] at htyBytes
  rw [htyBytes, hlenBytes, hrefBytes, ofBytes_toBytes, ofBytes_toBytes, ofBytes_toBytes]
  have hlength : bs.length = 32 + body.length + pad.length := by
    simp only [hsplit, List.length_append, length_toBytes, harg]
    omega
  exact ⟨Nat.mod_eq_of_lt hty, Nat.mod_eq_of_lt hbody, Nat.mod_eq_of_lt href, hargBytes, hbodyBytes, hlength ▸ Nat.le_add_right ..⟩

/-! ## At the module -/

section
variable (s : State) (src : Nat) (bs : List Byte)

@[simp] theorem State.link_detect (d : ErrRec) : (s.detect d).link = s.link := by rw [s.onlyErr_detect d]
@[simp] theorem State.link_malformed : (s.malformed src).link = s.link := by simp [State.malformed]

/-- R325: the end of a message leaves the flows as they are, and at most adds to the inbox. -/
@[simp] theorem State.rx_arrive : (s.arrive src bs).link.rx = s.link.rx := by
  unfold State.arrive
  dsimp only
  split
  · rw [State.link_malformed]
  · rfl
theorem State.inbox_arrive : s.link.inbox ⊆ (s.arrive src bs).link.inbox := by
  unfold State.arrive
  dsimp only
  split
  · rw [State.link_malformed]
    exact List.Subset.refl _
  · exact List.subset_append_left _ _

/-- R325: a message of a known type enters the inbox. -/
theorem State.mem_inbox_arrive {ty ref : Nat} {arg body pad : List Byte} (hbs : bs = msgBytes ty ref arg body ++ pad)
    (hty : (msgVc ty).isSome = true) (href : ref < 2 ^ 64) (harg : arg.length = 16) (hbody : body.length < 2 ^ 32) :
    { src := src, ty := ty, ref := ref, arg := arg, body := body } ∈ (s.arrive src bs).link.inbox := by
  obtain ⟨hcode, hlen, hreference, hargument, hbytes, hwhole⟩ :=
    fields_msgBytes hbs ((lt_of_msgVc_isSome hty).trans (by decide)) href harg hbody
  have hknown : ¬ ((msgVc ty).isNone = true ∨ bs.length < 32 + body.length) := by
    rintro (hnone | hshort)
    · rw [Option.isNone_iff_eq_none.mp hnone] at hty
      cases hty
    · omega
  simp only [State.arrive, hcode, hlen, hreference, hargument, hbytes, if_neg hknown]
  exact List.mem_append_right _ (List.mem_singleton.mpr rfl)

end

/-- R316: the payload of a flit, made whole. -/
def wholePayload (f : Flit) : List Byte := f.payload ++ List.replicate (240 - f.payload.length) 0

theorem wholePayload_of_sized {f : Flit} (hf : FlitSized f) : wholePayload f = f.payload := by simp [wholePayload, hf.payload]

/-- R320, R322: a flow once its receiver has delivered flit `f` in order at time `now`. -/
def rxAdvance (r : RxFlow) (f : Flit) (now : Nat) : RxFlow :=
  { r with
    expect := (r.expect + 1) % 2 ^ 32, part := if f.last then [] else r.part ++ wholePayload f,
    count := if r.count + 1 = 64 then 0 else r.count + 1, lastAt := now }

section
variable (s : State) (k : Nat) (f : Flit)

@[simp] theorem State.rxFlow_setRx_self (r : RxFlow) : (s.setRx k r).rxFlow k = r := SMap.getD_setD_self ..

/-- R320, R322: a flit in order advances its flow; after that only an acknowledgement leaves, and a last flit ends its message. -/
theorem State.deliverFlit_eq : ∃ t : State, t.link = (s.setRx k (rxAdvance (s.rxFlow k) f s.now)).link ∧
    s.deliverFlit k f = if f.last then t.arrive f.src ((s.rxFlow k).part ++ wholePayload f) else t := by
  refine ⟨_, ?_, rfl⟩
  split
  · next hcount => simp [rxAdvance, wholePayload, hcount]
  · next hcount => simp [rxAdvance, wholePayload, hcount]

theorem State.rxFlow_deliverFlit : (s.deliverFlit k f).rxFlow k = rxAdvance (s.rxFlow k) f s.now := by
  obtain ⟨t, hlink, heq⟩ := s.deliverFlit_eq k f
  have hrx : (s.deliverFlit k f).link.rx = (s.setRx k (rxAdvance (s.rxFlow k) f s.now)).link.rx := by
    rw [heq, ← hlink]
    split
    · rw [State.rx_arrive]
    · rfl
  rw [State.rxFlow, hrx]
  exact s.rxFlow_setRx_self k _

theorem State.inbox_deliverFlit : s.link.inbox ⊆ (s.deliverFlit k f).link.inbox := by
  obtain ⟨t, hlink, heq⟩ := s.deliverFlit_eq k f
  have hinbox : s.link.inbox = t.link.inbox := by rw [hlink, State.link_setRx]
  rw [heq, hinbox]
  split
  · exact t.inbox_arrive _ _
  · exact List.Subset.refl _

/-- R325: the last flit of a message puts it in the inbox. -/
theorem State.mem_inbox_deliverFlit {ty ref : Nat} {arg body pad : List Byte} (hlast : f.last = true)
    (hbs : (s.rxFlow k).part ++ wholePayload f = msgBytes ty ref arg body ++ pad)
    (hty : (msgVc ty).isSome = true) (href : ref < 2 ^ 64) (harg : arg.length = 16) (hbody : body.length < 2 ^ 32) :
    { src := f.src, ty := ty, ref := ref, arg := arg, body := body } ∈ (s.deliverFlit k f).link.inbox := by
  obtain ⟨t, -, heq⟩ := s.deliverFlit_eq k f
  rw [heq, if_pos hlast]
  exact t.mem_inbox_arrive _ _ hbs hty href harg hbody

/-- R320: with no held flit next in order, the flow keeps its place. -/
theorem State.deliverHeld_of_none_next (n : Nat) (h : ∀ e ∈ (s.rxFlow k).store, e.1 ≠ (s.rxFlow k).expect) :
    ∃ g, (s.deliverHeld k (n + 1)).rxFlow k = { s.rxFlow k with gapSince := g } := by
  have hnone : (s.rxFlow k).store.find? (fun e => decide (e.1 = (s.rxFlow k).expect)) = none := by simpa using h
  unfold State.deliverHeld
  dsimp only
  rw [hnone]
  exact ⟨_, s.rxFlow_setRx_self k _⟩

/-- R320: delivering held flits takes no message out of the inbox. -/
theorem State.inbox_deliverHeld (n : Nat) : s.link.inbox ⊆ (s.deliverHeld k n).link.inbox := by
  induction n generalizing s with
  | zero => exact List.Subset.refl _
  | succ n ih =>
    unfold State.deliverHeld
    dsimp only
    split
    · exact List.Subset.trans (State.inbox_deliverFlit (s.setRx k _) k _) (ih _)
    · exact List.Subset.refl _

end

/-! ## Next in order, held or discarded (R321) -/

section
variable {s : State} {f : Flit} {k : Nat} {r : RxFlow} (hother : f.src ≠ s.ownId) (hk : k = flowKey f.src f.vc f.flow)
  (hr : s.rxFlow k = r)
include hother hk hr

/-- R320: the flit that its flow expects is delivered, whatever the store holds. -/
theorem State.takeFlit_of_next (hnext : f.fseq = r.expect) :
    s.takeFlit f = (s.deliverFlit k f).deliverHeld k (r.store.length + 1) := by
  subst hk hr
  rw [State.takeFlit, if_neg hother]
  exact if_pos hnext

/-- R320: where no held flit follows it, its flow advances by it alone. -/
theorem State.rxFlow_takeFlit_of_next (hnext : f.fseq = r.expect) (hgap : ∀ e ∈ r.store, e.1 ≠ (f.fseq + 1) % 2 ^ 32) :
    ∃ g, (s.takeFlit f).rxFlow k = { rxAdvance r f s.now with gapSince := g } := by
  have hadvanced := s.rxFlow_deliverFlit k f
  rw [hr] at hadvanced
  have hnone : ∀ e ∈ ((s.deliverFlit k f).rxFlow k).store, e.1 ≠ ((s.deliverFlit k f).rxFlow k).expect := by
    rw [hadvanced]
    rw [hnext] at hgap
    exact hgap
  rw [State.takeFlit_of_next hother hk hr hnext, ← hadvanced]
  exact State.deliverHeld_of_none_next _ k _ hnone

/-- R321: a flit ahead of its turn, and not held yet, is held while there is room. -/
theorem State.takeFlit_of_ahead (hroom : s.reorderUsed < 16384) (hnext : f.fseq ≠ r.expect)
    (hahead : (f.fseq + 2 ^ 32 - r.expect) % 2 ^ 32 < 2 ^ 31) (hnew : ∀ e ∈ r.store, e.1 ≠ f.fseq) :
    ∃ g, s.takeFlit f = s.setRx k { r with store := r.store ++ [(f.fseq, f)], gapSince := g } := by
  have hfirst : (decide (2 ^ 31 ≤ (f.fseq + 2 ^ 32 - r.expect) % 2 ^ 32) || r.store.any fun e => decide (e.1 = f.fseq)) = false := by
    simpa using ⟨hahead, fun a b h => hnew (a, b) h⟩
  subst hk hr
  simp only [State.takeFlit, if_neg hother, if_neg hnext, hfirst, if_neg (not_le.mpr hroom)]
  exact ⟨_, rfl⟩

/-- R321: with the store full any other flit is discarded and counted; one that has come before counts as a duplicate too. -/
theorem State.takeFlit_of_full (hfull : 16384 ≤ s.reorderUsed) (hnext : f.fseq ≠ r.expect) :
    s.takeFlit f = s.bump F.LINK_MOD_CNT_COUNT 1 2 ∨ s.takeFlit f = (s.bump F.LINK_MOD_CNT_COUNT 1 3).bump F.LINK_MOD_CNT_COUNT 1 2 := by
  subst hk hr
  simp only [State.takeFlit, if_neg hother, if_neg hnext, if_pos hfull]
  split
  · exact .inr rfl
  · exact .inl rfl

theorem State.link_takeFlit_of_full (hfull : 16384 ≤ s.reorderUsed) (hnext : f.fseq ≠ r.expect) : (s.takeFlit f).link = s.link := by
  rcases State.takeFlit_of_full hother hk hr hfull hnext with h | h <;> simp [h]

/-- R321: REORDER_DROP counts it once. -/
theorem State.adds_takeFlit_of_full (hfull : 16384 ≤ s.reorderUsed) (hnext : f.fseq ≠ r.expect) :
    s.adds (s.takeFlit f) F.LINK_MOD_CNT_COUNT 1 2 := by
  rcases State.takeFlit_of_full hother hk hr hfull hnext with h | h
  · rw [State.adds, h, State.bump, State.rd_wr_self]
  · have hapart : (s.bump F.LINK_MOD_CNT_COUNT 1 3).rd F.LINK_MOD_CNT_COUNT 2 = s.rd F.LINK_MOD_CNT_COUNT 2 :=
      State.rd_wr_of_apart _ _ _ _ _ _ _ _ (by decide)
    rw [State.adds, h, State.bump, State.rd_wr_self, hapart]

end

/-- Settles O58: off its hop a flit finds its flow as it was, and the flow alone tells whether it is delivered, held or discarded. -/
theorem reorderStoreIsBounded : Obligations.ReorderStoreIsBounded := by
  intro s p raw f lack n hp hcarries hlseq hlack hraw hvc hdst hsrc hflow hfseq hpayload hother k r
  have hf : FlitSized f := ⟨hvc, hdst, hsrc, hflow, hfseq, hpayload⟩
  have hexec := exec_dataFlitReceive_inOrder hf hp hcarries hlseq hlack hraw
  have hhop := s.onHop_offHop p n f.vc lack
  generalize s.offHop p n f.vc lack = u at hexec hhop
  have hown : f.src ≠ u.ownId := by rwa [hhop.ownId hp]
  have hused := hhop.reorderUsed
  have hr : u.rxFlow k = r := hhop.rxFlow k
  refine ⟨fun hroom hpos hahead _ hnew => ?_, fun _ hnext hlast hgap => ?_,
    fun ty ref arg body pad _ hnext hlast hty href harg hbody hbytes => ?_, fun hfull hnext => ?_⟩
  · have hne : f.fseq ≠ r.expect := by
      intro heq
      simp [heq] at hpos
    obtain ⟨g, hheld⟩ := State.takeFlit_of_ahead hown rfl hr (hused ▸ hroom) hne hahead hnew
    refine ⟨_, hexec, ?_, ?_⟩
    · rw [hheld, State.rxFlow_setRx_self]
    · rw [hheld, State.link_setRx, hhop.inbox]
  · obtain ⟨g, hadvanced⟩ := State.rxFlow_takeFlit_of_next hown rfl hr hnext hgap
    refine ⟨_, hexec, ?_, ?_⟩
    · simp [k, hadvanced, rxAdvance, hlast, wholePayload_of_sized hf]
    · simp [k, hadvanced, rxAdvance, hnext]
  · refine ⟨_, hexec, ?_⟩
    rw [State.takeFlit_of_next hown rfl hr hnext]
    refine State.inbox_deliverHeld _ _ _ (u.mem_inbox_deliverFlit k f (pad := pad) hlast ?_ hty href harg hbody)
    rw [hr, wholePayload_of_sized hf, hbytes]
  · have hlink := State.link_takeFlit_of_full hown rfl hr (hused ▸ hfull) hnext
    refine ⟨_, hexec, ?_, ?_, ?_⟩
    · rw [hlink, hhop.rx]
    · rw [hlink, hhop.inbox]
    · have hadds := State.adds_takeFlit_of_full hown rfl hr (hused ▸ hfull) hnext
      rwa [State.adds, hhop.rd_modCount hp] at hadds

end Sys2Proof.Machine
end

section
/-!
PROOF. What every step keeps (R6, R33, R109, R190, R191, R441, R443). One relation between states says it: time and the queue of
commands stand, what has been sent stays sent, fuses only burn, and each byte memory stays canonical. Every operation of the model
leads from a state to one so related, and so does every command.
-/
namespace Sys2Proof.Machine

-- The many short lemmas are checked one after another, without a thread for each.
set_option Elab.async false

/-- R441, R443: from `f` to `g` no fuse is cleared, the floor does not sink, and the identity stands. -/
structure Fuses.burnsTo (f g : Fuses) : Prop where
  grade : g.grade = f.grade
  stepping : g.stepping = f.stepping
  serial : g.serial = f.serial
  words : ∀ e < 4, f.lcWords.getD e 0 &&& g.lcWords.getD e 0 = f.lcWords.getD e 0
  revoked : f.revoked &&& g.revoked = f.revoked
  roots : f.roots &&& g.roots = f.roots
  floor : f.svnFloor ≤ g.svnFloor
  ranged : f.inRange → g.inRange ∧ f.retiredPair &&& g.retiredPair = f.retiredPair ∧ f.seeds &&& g.seeds = f.seeds

theorem Fuses.burnsTo.refl (f : Fuses) : f.burnsTo f where
  grade := rfl
  stepping := rfl
  serial := rfl
  words _ _ := Nat.and_self _
  revoked := Nat.and_self _
  roots := Nat.and_self _
  floor := le_rfl
  ranged h := ⟨h, Nat.and_self _, Nat.and_self _⟩

theorem and_eq_trans {a b c : Nat} (h : a &&& b = a) (k : b &&& c = b) : a &&& c = a := by
  rw [← h, Nat.and_assoc, k]

theorem Fuses.burnsTo.trans {f g k : Fuses} (h : f.burnsTo g) (h' : g.burnsTo k) : f.burnsTo k where
  grade := h'.grade.trans h.grade
  stepping := h'.stepping.trans h.stepping
  serial := h'.serial.trans h.serial
  words e he := and_eq_trans (h.words e he) (h'.words e he)
  revoked := and_eq_trans h.revoked h'.revoked
  roots := and_eq_trans h.roots h'.roots
  floor := h.floor.trans h'.floor
  ranged hf := by
    obtain ⟨hg, hpair, hseeds⟩ := h.ranged hf
    obtain ⟨hk, hpair', hseeds'⟩ := h'.ranged hg
    exact ⟨hk, and_eq_trans hpair hpair', and_eq_trans hseeds hseeds'⟩

/-- What an operation may do to the block as a whole: from `s` to `t` time and the queue of commands stand, the outbox only grows,
fuses only burn, and each byte memory stays canonical. -/
structure State.leadsTo (s t : State) : Prop where
  now : t.now = s.now
  pending : t.pending = s.pending
  out : s.out <:+ t.out
  fuses : s.fuses.burnsTo t.fuses
  sram : Memory.wf s.arr.sram = true → Memory.wf t.arr.sram = true
  mem : Memory.wf s.mas.mem = true → Memory.wf t.mas.mem = true
  sys : Memory.wf s.mas.sys = true → Memory.wf t.mas.sys = true

theorem State.leadsTo.refl (s : State) : s.leadsTo s := ⟨rfl, rfl, List.suffix_rfl, .refl _, id, id, id⟩
theorem State.leadsTo.trans {s t u : State} (h : s.leadsTo t) (k : t.leadsTo u) : s.leadsTo u :=
  ⟨k.now.trans h.now, k.pending.trans h.pending, h.out.trans k.out, h.fuses.trans k.fuses, k.sram ∘ h.sram, k.mem ∘ h.mem, k.sys ∘ h.sys⟩

/-- The same of an operation that answers a state with something else, may answer none, or answers a step's outcome. -/
def State.leadsToFst {α : Type} (s : State) (p : State × α) : Prop := s.leadsTo p.1
def State.leadsToSnd {α : Type} (s : State) (p : α × State) : Prop := s.leadsTo p.2
def State.leadsToSome (s : State) (o : Option State) : Prop := ∀ t, o = some t → s.leadsTo t
def State.leadsToSomeFst {α : Type} (s : State) (o : Option (State × α)) : Prop := ∀ t x, o = some (t, x) → s.leadsTo t
def State.leadsToSomeSnd {α : Type} (s : State) (o : Option (α × State)) : Prop := ∀ x t, o = some (x, t) → s.leadsTo t
def State.leadsToRes (s : State) (r : Res) : Prop := ∀ t, r = .next t → s.leadsTo t
def State.leadsToIssue (s : State) : Issue → Prop
  | .done _ t => s.leadsTo t
  | .fly t _ => s.leadsTo t
  | .hold _ t _ => s.leadsTo t
  | .wait _ t => s.leadsTo t
def State.leadsToPage (s : State) : PageDo → Prop
  | .done t => s.leadsTo t
  | .pending t => s.leadsTo t
  | _ => True
def State.leadsToRead (s : State) : EndRead → Prop
  | .bytes _ t => s.leadsTo t
  | .wait t => s.leadsTo t
  | .fault => True

section
variable {s₀ s t u : State}

/-! What leaves the view of the relation alone: updates of the other fields of the state, of its arrays and of its tiers. -/

section
variable {fresh : Nat} {regs : SMap Word} {latches : List (Path × Nat × Word)} {strm : Strm} {err : Err} {host : HostSt} {link : LinkSt}
  {wts : Wts} {stew : Stew} {jr : Jr} {boot : Boot}

theorem State.leadsTo.same (h : s₀.leadsTo t) : s₀.leadsTo { t with
    fresh := fresh, regs := regs, latches := latches, strm := strm, err := err, host := host, link := link, wts := wts, stew := stew
    jr := jr, boot := boot } :=
  ⟨h.now, h.pending, h.out, h.fuses, h.sram, h.mem, h.sys⟩

theorem State.leadsTo.sameArr {arr : Arr} (h : s₀.leadsTo t) (hsram : arr.sram = t.arr.sram := by rfl) : s₀.leadsTo { t with
    fresh := fresh, regs := regs, latches := latches, arr := arr, strm := strm, err := err, host := host, link := link, wts := wts
    stew := stew, jr := jr, boot := boot } :=
  ⟨h.now, h.pending, h.out, h.fuses, fun hs => hsram ▸ h.sram hs, h.mem, h.sys⟩

theorem State.leadsTo.sameMas {mas : Mas} (h : s₀.leadsTo t) (hmem : mas.mem = t.mas.mem := by rfl) (hsys : mas.sys = t.mas.sys := by rfl) :
    s₀.leadsTo { t with
    fresh := fresh, regs := regs, latches := latches, strm := strm, mas := mas, err := err, host := host, link := link, wts := wts
    stew := stew, jr := jr, boot := boot } :=
  ⟨h.now, h.pending, h.out, h.fuses, h.sram, fun hs => hmem ▸ h.mem hs, fun hs => hsys ▸ h.sys hs⟩

end

theorem State.leadsTo.foldl {β : Type} {l : List β} {f : State → β → State} (h : s₀.leadsTo s)
    (hf : ∀ t b, s₀.leadsTo t → s₀.leadsTo (f t b)) : s₀.leadsTo (l.foldl f s) := by
  induction l generalizing s with
  | nil => exact h
  | cons b l ih => exact ih (hf s b h)

/-! Of the forms in which operations are written: a choice, a name for a value, an option, and the answers of `leadsToRes` and others. -/

theorem of_ite {α : Type} {P : α → Prop} {c : Prop} [Decidable c] {x y : α} (hx : P x) (hy : P y) : P (if c then x else y) := by
  split
  · exact hx
  · exact hy

section
variable {α : Type} {c : Prop} [Decidable c]
theorem State.leadsTo.ite (hs : s₀.leadsTo s) (ht : s₀.leadsTo t) : s₀.leadsTo (if c then s else t) := of_ite hs ht
theorem State.leadsToFst.ite {p q : State × α} (hp : s₀.leadsToFst p) (hq : s₀.leadsToFst q) : s₀.leadsToFst (if c then p else q) :=
  of_ite hp hq
theorem State.leadsToSnd.ite {p q : α × State} (hp : s₀.leadsToSnd p) (hq : s₀.leadsToSnd q) : s₀.leadsToSnd (if c then p else q) :=
  of_ite hp hq
theorem State.leadsToSome.ite {o o' : Option State} (h : s₀.leadsToSome o) (h' : s₀.leadsToSome o') :
    s₀.leadsToSome (if c then o else o') := of_ite h h'
theorem State.leadsToSomeFst.ite {o o' : Option (State × α)} (h : s₀.leadsToSomeFst o) (h' : s₀.leadsToSomeFst o') :
    s₀.leadsToSomeFst (if c then o else o') := of_ite h h'
theorem State.leadsToSomeSnd.ite {o o' : Option (α × State)} (h : s₀.leadsToSomeSnd o) (h' : s₀.leadsToSomeSnd o') :
    s₀.leadsToSomeSnd (if c then o else o') := of_ite h h'
theorem State.leadsToRes.ite {r r' : Res} (h : s₀.leadsToRes r) (h' : s₀.leadsToRes r') : s₀.leadsToRes (if c then r else r') :=
  of_ite h h'
theorem State.leadsToIssue.ite {r r' : Issue} (h : s₀.leadsToIssue r) (h' : s₀.leadsToIssue r') :
    s₀.leadsToIssue (if c then r else r') := of_ite h h'
theorem State.leadsToPage.ite {r r' : PageDo} (h : s₀.leadsToPage r) (h' : s₀.leadsToPage r') :
    s₀.leadsToPage (if c then r else r') := of_ite h h'
theorem State.leadsToRead.ite {r r' : EndRead} (h : s₀.leadsToRead r) (h' : s₀.leadsToRead r') :
    s₀.leadsToRead (if c then r else r') := of_ite h h'
end

section
variable {α : Type} {x : α}
theorem State.leadsToFst.of_eq {p : State × α} (h : s₀.leadsToFst p) (e : p = (t, x)) : s₀.leadsTo t := by subst e; exact h
theorem State.leadsToSnd.of_eq {p : α × State} (h : s₀.leadsToSnd p) (e : p = (x, t)) : s₀.leadsTo t := by subst e; exact h
theorem State.leadsTo.someFst (h : s₀.leadsTo t) : s₀.leadsToSomeFst (some (t, x)) := by
  rintro _ _ ⟨⟩
  exact h
theorem State.leadsTo.someSnd (h : s₀.leadsTo t) : s₀.leadsToSomeSnd (some (x, t)) := by
  rintro _ _ ⟨⟩
  exact h
theorem State.leadsToSomeFst.none : s₀.leadsToSomeFst (none : Option (State × α)) := fun _ _ e => nomatch e
theorem State.leadsToSomeSnd.none : s₀.leadsToSomeSnd (none : Option (α × State)) := fun _ _ e => nomatch e
end

theorem State.leadsTo.some (h : s₀.leadsTo t) : s₀.leadsToSome (some t) := by
  rintro _ ⟨⟩
  exact h
theorem State.leadsToSome.none : s₀.leadsToSome none := fun _ e => nomatch e
theorem State.leadsToSome.getD {o : Option State} (h : s₀.leadsToSome o) (ht : s₀.leadsTo t) : s₀.leadsTo (o.getD t) := by
  cases o with
  | none => exact ht
  | some t' => exact h t' rfl
theorem State.leadsTo.next (h : s₀.leadsTo t) : s₀.leadsToRes (.next t) := by
  rintro _ ⟨⟩
  exact h
theorem State.leadsToRes.refused {r : Refusal} : s₀.leadsToRes (.refused r) := fun _ e => nomatch e
theorem State.leadsTo.done {e : EntrySt} (h : s₀.leadsTo t) : s₀.leadsToIssue (.done e t) := h
theorem State.leadsTo.fly {f : InFlight} (h : s₀.leadsTo t) : s₀.leadsToIssue (.fly t f) := h
theorem State.leadsTo.hold {k : Nat} {f : InFlight} (h : s₀.leadsTo t) : s₀.leadsToIssue (.hold k t f) := h
theorem State.leadsTo.wait {k : Nat} (h : s₀.leadsTo t) : s₀.leadsToIssue (.wait k t) := h
theorem State.leadsTo.donePage (h : s₀.leadsTo t) : s₀.leadsToPage (.done t) := h
theorem State.leadsTo.pendingPage (h : s₀.leadsTo t) : s₀.leadsToPage (.pending t) := h
theorem State.leadsToPage.blocked : s₀.leadsToPage .blocked := trivial
theorem State.leadsToPage.fail {st : Nat} : s₀.leadsToPage (.fail st) := trivial
theorem State.leadsTo.readBytes {bs : List Byte} (h : s₀.leadsTo t) : s₀.leadsToRead (.bytes bs t) := h
theorem State.leadsTo.readWait (h : s₀.leadsTo t) : s₀.leadsToRead (.wait t) := h
theorem State.leadsToRead.fault : s₀.leadsToRead .fault := trivial
theorem State.leadsToRead.of_wait {r : EndRead} (h : s₀.leadsToRead r) (e : r = .wait t) : s₀.leadsTo t := by subst e; exact h
theorem State.leadsToRead.of_bytes {r : EndRead} {bs : List Byte} (h : s₀.leadsToRead r) (e : r = .bytes bs t) : s₀.leadsTo t := by
  subst e; exact h
theorem State.leadsToPage.of_done {r : PageDo} (h : s₀.leadsToPage r) (e : r = .done t) : s₀.leadsTo t := by subst e; exact h
theorem State.leadsToPage.of_pending {r : PageDo} (h : s₀.leadsToPage r) (e : r = .pending t) : s₀.leadsTo t := by subst e; exact h
theorem State.leadsToSome.map {o : Option State} {f : State → State} (h : s₀.leadsToSome o) (hf : ∀ t, s₀.leadsTo t → s₀.leadsTo (f t)) :
    s₀.leadsToSome (o.map f) := by
  cases o with
  | none => exact .none
  | some t => exact (hf t (h t rfl)).some

/-! The guards of commands. -/

section
variable {r : Res} {n m y x : Nat}
theorem State.leadsToRes.onDie (h : s₀.leadsToRes r) : s₀.leadsToRes (onDie n r) := .ite h .refused
theorem State.leadsToRes.onSite (h : s₀.leadsToRes r) : s₀.leadsToRes (onSite s n y x r) := .ite h .refused
theorem State.leadsToRes.onCt (h : s₀.leadsToRes r) : s₀.leadsToRes (onCt s n y x r) := .ite h .refused
theorem State.leadsToRes.onMt (h : s₀.leadsToRes r) : s₀.leadsToRes (onMt s n y x r) := .ite h .refused
theorem State.leadsToRes.onAg (h : s₀.leadsToRes r) : s₀.leadsToRes (onAg s n y x m r) := .ite h.onMt .refused
theorem State.leadsToRes.onStream (h : s₀.leadsToRes r) : s₀.leadsToRes (onStream n m r) := .ite h .refused
theorem State.leadsToRes.onSlot (h : s₀.leadsToRes r) : s₀.leadsToRes (onSlot n m r) := .ite h .refused
theorem State.leadsToRes.onAgent (h : s₀.leadsToRes r) : s₀.leadsToRes (onAgent n m r) := .ite h .refused
theorem State.leadsToRes.onStrip (h : s₀.leadsToRes r) : s₀.leadsToRes (onStrip n m r) := .ite h .refused
theorem State.leadsToRes.onPort (h : s₀.leadsToRes r) : s₀.leadsToRes (onPort n r) := .ite h .refused
theorem State.leadsToRes.onEdge (h : s₀.leadsToRes r) : s₀.leadsToRes (onEdge n m r) := .ite h .refused
theorem State.leadsToRes.onAnyDie (h : s₀.leadsToRes r) : s₀.leadsToRes (onAnyDie n r) := .ite h .refused
end

/-! What changes the fuses: each burns some, and clears none. -/

theorem State.leadsTo.burn_of {f : Fuses} (h : s₀.leadsTo s) (hf : s.fuses.burnsTo f) : s₀.leadsTo { s with fuses := f } :=
  h.trans ⟨rfl, rfl, List.suffix_rfl, hf, id, id, id⟩


theorem State.leadsTo.setWord {r : Reg} {i : Nat} {w : Win} {k : Nat} {v : Word} (hs : s₀.leadsTo s) : s₀.leadsTo (s.setWord r i w k v) :=
  hs.same

theorem State.leadsTo.setSpan {r : Reg} {i : Nat} {w : Win} {k v n : Nat} (hs : s₀.leadsTo s) : s₀.leadsTo (s.setSpan r i w k v n) := by
  rw [State.setSpan_regs_only]
  exact hs.same

theorem State.leadsTo.wr {f : Fld} {v i : Nat} {w : Win} (hs : s₀.leadsTo s) : s₀.leadsTo (s.wr f v i w) :=
  hs.setSpan

theorem State.leadsTo.wrFlag {f : Fld} {b : Bool} {i : Nat} {w : Win} (hs : s₀.leadsTo s) : s₀.leadsTo (s.wrFlag f b i w) :=
  hs.wr

theorem State.leadsTo.bump {f : Fld} {n i : Nat} {w : Win} (hs : s₀.leadsTo s) : s₀.leadsTo (s.bump f n i w) :=
  hs.wr

theorem State.leadsTo.bumpSat {f : Fld} {i : Nat} {w : Win} (hs : s₀.leadsTo s) : s₀.leadsTo (s.bumpSat f i w) :=
  hs.wr

theorem State.leadsTo.orBits {f : Fld} {v i : Nat} {w : Win} (hs : s₀.leadsTo s) : s₀.leadsTo (s.orBits f v i w) :=
  hs.wr

theorem State.leadsTo.emit {o : Out} (hs : s₀.leadsTo s) : s₀.leadsTo (s.emit o) :=
  hs.trans ⟨rfl, rfl, List.suffix_cons o s.out, .refl _, id, id, id⟩

theorem State.leadsTo.turnAway {why : String} (hs : s₀.leadsTo s) : s₀.leadsTo (s.turnAway why) :=
  hs.emit

theorem State.leadsTo.useFree (hs : s₀.leadsTo s) : s₀.leadsToSnd (s.useFree) :=
  hs.same

theorem State.leadsTo.inDie {d : Nat} {what : String} (hs : s₀.leadsTo s) (ht : s₀.leadsTo t) : s₀.leadsTo (s.inDie d what t) := by
  unfold State.inDie
  exact .ite hs.emit ht

theorem State.leadsTo.setSlotState {die c : Nat} {st : SlotSt} (hs : s₀.leadsTo s) : s₀.leadsTo (s.setSlotState die c st) :=
  hs.wr

theorem State.leadsTo.restEnds {d : Nat} (hs : s₀.leadsTo s) : s₀.leadsTo (s.restEnds d) :=
  hs.sameArr

theorem State.leadsTo.setDieP {d v : Nat} (hs : s₀.leadsTo s) : s₀.leadsTo (s.setDieP d v) :=
  hs.restEnds.wr

theorem State.leadsTo.stir {d : Nat} (hs : s₀.leadsTo s) : s₀.leadsTo (s.stir d) :=
  .ite hs.setDieP hs.restEnds

theorem State.leadsTo.setSramByte {die y x off : Nat} {b : Byte} (hs : s₀.leadsTo s) : s₀.leadsTo (s.setSramByte die y x off b) :=
  hs.trans ⟨rfl, rfl, List.suffix_rfl, .refl _, s.wf_setSramByte die y x off b, id, id⟩

theorem State.leadsTo.sramWrite {die y x off v n : Nat} (hs : s₀.leadsTo s) : s₀.leadsTo (s.sramWrite die y x off v n) := by
  induction n generalizing s off v with
  | zero => exact hs
  | succ n ih => exact ih hs.setSramByte

theorem State.leadsTo.setSession {i : Nat} {v : Session} (hs : s₀.leadsTo s) : s₀.leadsTo (s.setSession i v) :=
  hs.same

theorem State.leadsTo.dropSession {i : Nat} (hs : s₀.leadsTo s) : s₀.leadsTo (s.dropSession i) :=
  hs.same

theorem State.leadsTo.setQp {q : Nat} {v : Qp} (hs : s₀.leadsTo s) : s₀.leadsTo (s.setQp q v) :=
  hs.same

theorem State.leadsTo.flushEvents {i : Nat} (hs : s₀.leadsTo s) : s₀.leadsTo (s.flushEvents i) := by
  unfold State.flushEvents
  split
  · exact hs
  · next v _ =>
    refine .ite (State.leadsTo.setSession ?_) hs
    suffices sends : ∀ (es : List Ev) (g : State × Nat × Nat), s₀.leadsTo g.1 → s₀.leadsTo (es.foldl _ g).1 from sends _ (s, _, _) hs
    intro es
    induction es with
    | nil => exact fun g hg => hg
    | cons e es ih => exact fun g hg => ih _ hg.emit

theorem State.leadsTo.sendEventOn {i cls count : Nat} {qp : Option Nat} {body : List Byte} (hs : s₀.leadsTo s) : s₀.leadsTo (s.sendEventOn i cls count qp body) := by
  delta State.sendEventOn
  split
  · exact hs
  · exact .ite hs (.ite hs (.ite hs (.ite hs.setSession hs.setSession.flushEvents)))

theorem State.leadsTo.sendEvent {i cls count : Nat} {body : List Byte} (hs : s₀.leadsTo s) : s₀.leadsTo (s.sendEvent i cls count body) :=
  hs.sendEventOn

theorem State.leadsTo.broadcast {cls count : Nat} {body : List Byte} (hs : s₀.leadsTo s) : s₀.leadsTo (s.broadcast cls count body) :=
  hs.foldl (fun _ _ hs => hs.sendEvent)

theorem State.leadsTo.setErr {k : Nat} {v : ErrRec} (hs : s₀.leadsTo s) : s₀.leadsTo (s.setErr k v) :=
  hs.same

theorem State.leadsTo.errStatus {r : Nat} (hs : s₀.leadsTo s) : s₀.leadsTo (s.errStatus r) := by
  delta State.errStatus
  extract_lets used
  exact hs.wr.wrFlag.wr

theorem State.leadsTo.announce {cls key : Nat} (hs : s₀.leadsTo s) : s₀.leadsTo (s.announce cls key) := by
  delta State.announce
  refine hs.foldl (fun s e hs => ?_)
  extract_lets k s1 src src'
  have hs1 : s₀.leadsTo s1 := by
    unfold s1
    split
    · exact hs.sendEvent
    · exact hs
  split
  · exact hs1.same
  · exact .ite hs hs.same

theorem State.leadsTo.placeErr {d : ErrRec} (hs : s₀.leadsTo s) : s₀.leadsTo (s.placeErr d) := by
  delta State.placeErr
  extract_lets r wr d' k v f v' k'
  have hf : s₀.leadsToSnd f := hs.useFree
  refine .ite hs.setErr.wr.wr.errStatus.announce ?_
  split
  · split
    · extract_lets v''
      exact hs.setErr.wr.announce
    · exact hs
  · exact hf.setErr.orBits.wr.errStatus.announce

theorem State.leadsTo.detect {d : ErrRec} (hs : s₀.leadsTo s) : s₀.leadsTo (s.detect d) := by
  delta State.detect
  extract_lets again d' s1 src s2
  have hs1 : s₀.leadsTo s1 := hs.bump
  have hs2 : s₀.leadsTo s2 := hs1.same
  exact hs2.placeErr

theorem State.leadsTo.powerEvent {kind unit v0 v1 : Nat} (hs : s₀.leadsTo s) : s₀.leadsTo (s.powerEvent kind unit v0 v1) := by
  delta State.powerEvent
  extract_lets rec'
  refine hs.foldl (fun s e hs => ?_)
  extract_lets k s1 src src'
  have hs1 : s₀.leadsTo s1 := hs.sendEvent
  split
  · exact hs1.same
  · exact hs.same

theorem State.leadsTo.moduleTo {v : Nat} (hs : s₀.leadsTo s) : s₀.leadsTo (s.moduleTo v) :=
  .ite hs hs.wr.powerEvent

theorem Fuses.burnsTo_shrunk (f : Fuses) : f.burnsTo { f with shrunk := true } := { Fuses.burnsTo.refl f with }

theorem State.leadsTo.shrink (hs : s₀.leadsTo s) : s₀.leadsTo s.shrink := by
  unfold State.shrink
  exact (hs.burn_of s.fuses.burnsTo_shrunk).broadcast

theorem State.leadsTo.execErrorEventWindow {power : Bool} {i cls : Nat} (hs : s₀.leadsTo s) : s₀.leadsToRes (execErrorEventWindow power i cls s) := by
  delta Machine.execErrorEventWindow
  extract_lets src src'
  refine State.leadsTo.next (.ite ?_ ?_)
  · split
    · exact hs
    · extract_lets recs s1 src''
      have hs1 : s₀.leadsTo s1 := hs.sendEvent
      exact .ite hs (.ite hs.same hs1.same)
  · split
    · exact hs
    · extract_lets recs s1 src''
      have hs1 : s₀.leadsTo s1 := hs.sendEvent
      exact .ite hs (.ite hs.same hs1.same)

theorem State.leadsTo.retireTo {r v : Nat} (hs : s₀.leadsTo s) : s₀.leadsToSome (s.retireTo r v) := by
  delta State.retireTo
  extract_lets step
  exact .ite (.none) hs.wr.errStatus.some

theorem State.leadsTo.retireOvf {r bits : Nat} (hs : s₀.leadsTo s) : s₀.leadsTo (s.retireOvf r bits) := by
  delta State.retireOvf
  extract_lets v
  exact hs.wr.errStatus

theorem State.leadsTo.execAutoRetire {r : Nat} (hs : s₀.leadsTo s) : s₀.leadsToRes (execAutoRetire r s) := by
  delta Machine.execAutoRetire
  extract_lets old n s1 bits
  have hs1 : s₀.leadsTo s1 := hs.wr
  exact .ite (State.leadsTo.next (.ite hs1.retireOvf hs)) (.refused)

theorem State.leadsTo.setVelvet {a b : Nat} {p : VelvetPair} (hs : s₀.leadsTo s) : s₀.leadsTo (s.setVelvet a b p) :=
  hs.same

theorem State.leadsTo.velvetFlush {a b : Nat} (hs : s₀.leadsTo s) : s₀.leadsTo (s.velvetFlush a b) := by
  delta State.velvetFlush
  extract_lets p
  split
  · exact hs
  · exact .ite hs (hs.setVelvet.foldl (fun s k hs => hs.emit))

theorem State.leadsTo.velvetSend {a b k : Nat} (hs : s₀.leadsTo s) : s₀.leadsTo (s.velvetSend a b k) := by
  delta State.velvetSend
  extract_lets p
  exact hs.setVelvet.velvetFlush

theorem State.leadsTo.velvetTake {a b : Nat} (hs : s₀.leadsTo s) : s₀.leadsTo (s.velvetTake a b) := by
  delta State.velvetTake
  extract_lets p
  exact hs.setVelvet.velvetFlush

theorem State.leadsTo.setPte {pn : Nat} {p : Pte} (hs : s₀.leadsTo s) : s₀.leadsTo (s.setPte pn p) :=
  hs.sameMas

theorem State.leadsTo.newPte {pn : Nat} {p : Pte} (hs : s₀.leadsTo s) : s₀.leadsTo (s.newPte pn p) := by
  delta State.newPte
  extract_lets src s1
  have hs1 : s₀.leadsTo s1 := .ite hs hs.sameMas
  exact hs1.setPte

theorem State.leadsTo.dropPte {pn : Nat} (hs : s₀.leadsTo s) : s₀.leadsTo (s.dropPte pn) := by
  delta State.dropPte
  extract_lets pages src
  exact hs.sameMas

theorem State.leadsTo.moveTables {k : Nat} (hs : s₀.leadsTo s) : s₀.leadsTo (s.moveTables k) := by
  delta State.moveTables
  extract_lets src s1
  have hs1 : s₀.leadsTo s1 := .ite hs.sameMas hs
  exact hs1.foldl (fun s e hs => .ite hs.sameMas hs)

theorem State.leadsTo.setMasByte {a : Nat} {b : Byte} (hs : s₀.leadsTo s) : s₀.leadsTo (s.setMasByte a b) :=
  hs.trans ⟨rfl, rfl, List.suffix_rfl, .refl _, id, s.wf_setMasByte a b, id⟩

theorem State.leadsTo.masWrite {a : Nat} {bs : List Byte} (hs : s₀.leadsTo s) : s₀.leadsTo (s.masWrite a bs) := by
  induction bs generalizing s a with
  | nil => exact hs
  | cons b bs ih => exact ih hs.setMasByte

theorem State.leadsTo.masZero {a n : Nat} (hs : s₀.leadsTo s) : s₀.leadsTo (s.masZero a n) :=
  hs.trans ⟨rfl, rfl, List.suffix_rfl, .refl _, id, s.wf_masZero a n, id⟩

theorem State.leadsTo.setPageData {pn : Nat} {d : Mem} (hs : s₀.leadsTo s) : s₀.leadsTo (s.setPageData pn d) := by
  delta State.setPageData
  extract_lets s1
  have hs1 : s₀.leadsTo s1 := hs.masZero
  exact hs1.foldl (fun s e hs => hs.setMasByte)

theorem State.leadsTo.sysWrite {a : Nat} {bs : List Byte} (hs : s₀.leadsTo s) : s₀.leadsTo (s.sysWrite a bs) := by
  refine hs.trans ⟨?_, ?_, ?_, ?_, ?_, ?_, s.wf_sysWrite bs a⟩ <;> rw [State.sysWrite_sys_only]
  · exact .refl _
  · exact id
  · exact id

theorem State.leadsTo.setDrive {d : Nat} {v : Drive} (hs : s₀.leadsTo s) : s₀.leadsTo (s.setDrive d v) :=
  hs.sameMas

theorem State.leadsTo.shootdown {pn : Nat} (hs : s₀.leadsTo s) : s₀.leadsTo (s.shootdown pn) := by
  delta State.shootdown
  extract_lets trans wc src
  exact hs.sameArr

theorem State.leadsTo.touch {pn : Nat} (hs : s₀.leadsTo s) : s₀.leadsTo (s.touch pn) := by
  delta State.touch
  split
  · exact hs
  · exact hs.setPte

theorem State.leadsTo.engineTake {e : Nat} (hs : s₀.leadsTo s) : s₀.leadsTo (s.engineTake e) := by
  delta State.engineTake
  extract_lets goesOn src
  exact hs.sameMas

theorem State.leadsTo.startWork (hs : s₀.leadsTo s) : s₀.leadsTo (s.startWork) :=
  hs.engineTake.engineTake

theorem State.leadsTo.addJob {j : MigJob} (hs : s₀.leadsTo s) : s₀.leadsTo (s.addJob j) :=
  hs.sameMas.startWork

theorem State.leadsTo.dropJob {pn : Nat} (hs : s₀.leadsTo s) : s₀.leadsTo (s.dropJob pn) :=
  hs.sameMas.startWork

theorem State.leadsTo.setJob {v : MigJob} (hs : s₀.leadsTo s) : s₀.leadsTo (s.setJob v) :=
  hs.sameMas.startWork

theorem State.leadsTo.setMoving {pn : Nat} {b : Bool} (hs : s₀.leadsTo s) : s₀.leadsTo (s.setMoving pn b) := by
  delta State.setMoving
  split
  · exact hs
  · exact hs.setPte

theorem State.leadsTo.dropNear {pn : Nat} (hs : s₀.leadsTo s) : s₀.leadsTo (s.dropNear pn) := by
  delta State.dropNear
  split
  · exact hs
  · exact hs.shootdown.setPte

theorem State.leadsTo.reclaim {p : Pte} (hs : s₀.leadsTo s) : s₀.leadsTo (s.reclaim p) := by
  delta State.reclaim
  refine .ite ?_ hs
  split
  · exact hs.dropNear
  · exact hs

theorem State.leadsTo.placeJob {j : MigJob} (hs : s₀.leadsTo s) : s₀.leadsToFst (s.placeJob j) := by
  delta State.placeJob
  split
  · exact hs
  · extract_lets s1
    have hs1 : s₀.leadsTo s1 := hs.reclaim
    refine .ite hs1 ?_
    split
    · exact hs1
    · exact hs1

theorem State.leadsTo.placeWaiting (hs : s₀.leadsTo s) : s₀.leadsTo (s.placeWaiting) := by
  delta State.placeWaiting
  refine hs.foldl (fun s c hs => hs.foldl (fun s j hs => ?_))
  extract_lets r
  have hr : s₀.leadsToFst r := hs.placeJob
  exact .ite hr.setJob hr

theorem State.leadsTo.requestPromotion {pn die cls : Nat} (hs : s₀.leadsTo s) : s₀.leadsTo (s.requestPromotion pn die cls) := by
  delta State.requestPromotion
  split
  · exact hs
  · extract_lets r
    have hr : s₀.leadsToFst r := hs.placeJob
    refine .ite hs ?_
    split
    · exact .ite hs hs.setJob
    · exact hr.addJob.setMoving

theorem State.leadsTo.requestRange {a n die cls : Nat} (hs : s₀.leadsTo s) : s₀.leadsTo (s.requestRange a n die cls) :=
  hs.foldl (fun _ _ hs => hs.requestPromotion)

theorem State.leadsTo.setQueue {die qid c : Nat} {q : Queue} (hs : s₀.leadsTo s) : s₀.leadsTo (s.setQueue die qid c q) :=
  hs.sameArr

theorem State.leadsTo.pushTok {die qid c : Nat} {t : Tok} (hs : s₀.leadsTo s) : s₀.leadsTo (s.pushTok die qid c t) := by
  delta State.pushTok
  extract_lets q s'
  have hs' : s₀.leadsTo s' := hs.setQueue
  exact .ite hs'.bump hs'

theorem State.leadsTo.pushToks {die qid c : Nat} {ts : List Tok} (hs : s₀.leadsTo s) : s₀.leadsTo (s.pushToks die qid c ts) :=
  hs.foldl (fun _ _ hs => hs.pushTok)

theorem State.leadsTo.popTok {die qid c : Nat} (hs : s₀.leadsTo s) : s₀.leadsTo (s.popTok die qid c) :=
  hs.setQueue

theorem State.leadsTo.markWaiting {die qid c : Nat} (hs : s₀.leadsTo s) : s₀.leadsTo (s.markWaiting die qid c) :=
  hs.setQueue

theorem State.leadsTo.fired {die c : Nat} (hs : s₀.leadsTo s) : s₀.leadsTo (s.fired die c) := by
  delta State.fired
  extract_lets s' src
  have hs' : s₀.leadsTo s' := hs.wr
  exact hs'.sameArr

theorem State.leadsTo.ctlPass {die qid c dir : Nat} (hs : s₀.leadsTo s) : s₀.leadsTo (s.ctlPass die qid c dir) := by
  delta State.ctlPass
  extract_lets k lock left lock' src
  exact hs.sameArr

theorem State.leadsTo.drainTok {die qid c : Nat} {t : Tok} (hs : s₀.leadsTo s) : s₀.leadsTo (s.drainTok die qid c t) := by
  delta State.drainTok
  extract_lets k src
  exact hs.sameArr

theorem State.leadsTo.refillBoundary {die qid c : Nat} (hs : s₀.leadsTo s) : s₀.leadsTo (s.refillBoundary die qid c) := by
  delta State.refillBoundary
  extract_lets k held n src s'
  have hs' : s₀.leadsTo s' := hs.sameArr
  exact hs'.pushToks

theorem State.leadsTo.feedToks {die qid c : Nat} {ts : List Tok} (hs : s₀.leadsTo s) : s₀.leadsTo (s.feedToks die qid c ts) := by
  delta State.feedToks
  extract_lets k s0 src s' st
  have hs0 : s₀.leadsTo s0 := .ite hs hs.stir
  have hs' : s₀.leadsTo s' := hs0.sameArr
  exact .ite hs'.refillBoundary hs'

theorem State.leadsTo.deliver {die c : Nat} {ds : List Dest} {t : Tok} (hs : s₀.leadsTo s) : s₀.leadsTo (s.deliver die c ds t) := by
  delta State.deliver
  refine hs.foldl (fun s d hs => ?_)
  split
  · exact hs.pushTok
  · exact hs.drainTok

theorem State.leadsTo.forward {die qid : Nat} (hs : s₀.leadsTo s) : s₀.leadsTo (s.forward die qid) := by
  delta State.forward
  split
  · exact hs
  · extract_lets s' ds
    have hs' : s₀.leadsTo s' := .ite hs.refillBoundary hs
    split
    · exact hs'
    · extract_lets s1 s2
      have hs1 : s₀.leadsTo s1 := hs'.popTok.deliver
      have hs2 : s₀.leadsTo s2 := .ite (hs1.foldl (fun s d hs => hs.ctlPass)) hs1
      refine .ite hs' (.ite hs' (.ite hs2.fired (hs'.foldl (fun s d hs => ?_))))
      split
      · exact .ite hs.markWaiting hs
      · exact hs

theorem State.leadsTo.execTokenForward {die qid : Nat} (hs : s₀.leadsTo s) : s₀.leadsToRes (execTokenForward die qid s) :=
  State.leadsToRes.onDie hs.forward.next

theorem State.leadsTo.execCreditReturn {die qid c : Nat} (hs : s₀.leadsTo s) : s₀.leadsToRes (execCreditReturn die qid c s) := by
  delta Machine.execCreditReturn
  extract_lets q
  exact State.leadsToRes.onSlot (State.leadsTo.next (.ite hs hs.setQueue))

theorem State.leadsTo.execSpillStart {die qid c : Nat} (hs : s₀.leadsTo s) : s₀.leadsToRes (execSpillStart die qid c s) := by
  delta Machine.execSpillStart
  extract_lets q
  exact State.leadsToRes.onSlot (State.leadsTo.next (.ite hs.setQueue hs))

theorem State.leadsTo.execSpillRefill {die qid c : Nat} (hs : s₀.leadsTo s) : s₀.leadsToRes (execSpillRefill die qid c s) := by
  delta Machine.execSpillRefill
  extract_lets q
  exact State.leadsToRes.onSlot (State.leadsTo.next (.ite hs.setQueue hs))

theorem State.leadsTo.setTile {die y x c : Nat} {t : TileCtx} (hs : s₀.leadsTo s) : s₀.leadsTo (s.setTile die y x c t) :=
  hs.sameArr

theorem State.leadsTo.setActiveParams {die y x c : Nat} {ps : List Word} (hs : s₀.leadsTo s) : s₀.leadsTo (s.setActiveParams die y x c ps) :=
  hs.foldl (fun _ _ hs => hs.wr)

theorem State.leadsTo.adopt {die y x c : Nat} {vec : Bool} (hs : s₀.leadsTo s) : s₀.leadsTo (s.adopt die y x c vec) := by
  delta State.adopt
  extract_lets t ps t' s1 s2
  have hs1 : s₀.leadsTo s1 := hs.setTile
  have hs2 : s₀.leadsTo s2 := .ite hs1 hs1.setActiveParams
  exact .ite (.ite hs2.wr hs2) hs

theorem State.leadsTo.adoptDue {die y x c : Nat} {vec : Bool} (hs : s₀.leadsTo s) : s₀.leadsTo (s.adoptDue die y x c vec) := by
  delta State.adoptDue
  extract_lets t
  exact .ite hs.setTile.adopt hs

theorem State.leadsTo.commitParams {die y x c : Nat} (hs : s₀.leadsTo s) : s₀.leadsTo (s.commitParams die y x c) := by
  delta State.commitParams
  extract_lets t s1 s2
  have hs1 : s₀.leadsTo s1 := hs.setTile.wr
  have hs2 : s₀.leadsTo s2 := .ite hs1.adopt hs1
  exact .ite hs (.ite hs2.adopt hs2)

theorem State.leadsTo.recordFreeze {die c cause : Nat} {qids : List Nat} (hs : s₀.leadsTo s) : s₀.leadsTo (s.recordFreeze die c cause qids) := by
  delta State.recordFreeze
  extract_lets w f s' s''
  have hs' : s₀.leadsTo s' := hs.wr.wr.wr.wr.wr
  have hs'' : s₀.leadsTo s'' := hs'.wr
  refine hs''.foldl (fun s i hs => ?_)
  split
  · exact hs.wr.wr
  · exact hs.wr.wr

theorem State.leadsTo.stopSlot {die c : Nat} (hs : s₀.leadsTo s) : s₀.leadsTo (s.stopSlot die c) := by
  delta State.stopSlot
  extract_lets s'
  have hs' : s₀.leadsTo s' := hs.setSlotState
  exact .ite hs'.wr hs'

theorem State.leadsTo.freeze {die c cause : Nat} (hs : s₀.leadsTo s) : s₀.leadsTo (s.freeze die c cause) := by
  delta State.freeze
  extract_lets qids s' src
  have hs' : s₀.leadsTo s' := hs.stopSlot.recordFreeze
  exact hs'.sameArr

theorem State.leadsTo.tileBound {die y x c word : Nat} (hs : s₀.leadsTo s) : s₀.leadsTo (s.tileBound die y x c word) := by
  delta State.tileBound
  extract_lets w
  exact hs.wr.wr.wr.freeze

theorem State.leadsTo.repeatCount {die y x c w : Nat} {vec : Bool} (hs : s₀.leadsTo s) : s₀.leadsToSomeSnd (s.repeatCount die y x c w vec) := by
  delta State.repeatCount
  split
  · exact hs.someSnd
  · exact hs.someSnd
  · split
    · exact .none
    · split
      · exact .none
      · exact hs.popTok.someSnd

theorem State.leadsTo.consume {die y x c spec : Nat} (hs : s₀.leadsTo s) : s₀.leadsTo (s.consume die y x c spec) := by
  delta State.consume
  extract_lets t
  refine .ite ?_ (.ite ?_ (.ite hs.setTile hs))
  · split
    · exact hs.popTok
    · exact hs
  · split
    · exact hs.popTok
    · exact hs

theorem State.leadsTo.consumeAll {die y x c : Nat} {specs : List Nat} (hs : s₀.leadsTo s) : s₀.leadsTo (s.consumeAll die y x c specs) :=
  hs.foldl (fun _ _ hs => hs.consume)

theorem State.leadsTo.writeDst {die y x c spec w : Nat} {v : Tok} (hs : s₀.leadsTo s) : s₀.leadsTo (s.writeDst die y x c spec w v) := by
  delta State.writeDst
  extract_lets t
  exact .ite hs.setTile (.ite hs.pushTok (.ite hs.pushTok (.ite hs.setTile hs)))

theorem State.leadsTo.waitDst {die y x c spec : Nat} (hs : s₀.leadsTo s) : s₀.leadsTo (s.waitDst die y x c spec) :=
  .ite hs.markWaiting hs

theorem State.leadsTo.tileFlags {die y x c : Nat} {g : Num.Flags} (hs : s₀.leadsTo s) : s₀.leadsTo (s.tileFlags die y x c g) := by
  delta State.tileFlags
  extract_lets a all
  exact .ite hs hs.wr

theorem State.leadsTo.setInv {die c : Nat} {v : Invocation} (hs : s₀.leadsTo s) : s₀.leadsTo (s.setInv die c v) :=
  hs.sameArr

theorem State.leadsTo.postStatus {die : Nat} (hs : s₀.leadsTo s) : s₀.leadsTo (s.postStatus die) := by
  delta State.postStatus
  split
  · exact hs.wr
  · exact hs.wr.wr

theorem State.leadsTo.selBusy {die c : Nat} {b : Bool} (hs : s₀.leadsTo s) : s₀.leadsTo (s.selBusy die c b) :=
  hs.wr

theorem State.leadsTo.dropInv {die c : Nat} (hs : s₀.leadsTo s) : s₀.leadsTo (s.dropInv die c) := by
  delta State.dropInv
  extract_lets src arr
  exact hs.sameArr.selBusy.postStatus

theorem State.leadsTo.routerBound {die c kind : Nat} (hs : s₀.leadsTo s) : s₀.leadsTo (s.routerBound die c kind) := by
  delta State.routerBound
  extract_lets w
  exact hs.dropInv.wr.wr.wr.freeze

theorem State.leadsTo.routerFlags {die c : Nat} {g : Num.Flags} (hs : s₀.leadsTo s) : s₀.leadsTo (s.routerFlags die c g) := by
  delta State.routerFlags
  extract_lets src all
  exact .ite hs hs.wr

theorem State.leadsTo.endSelection {die c : Nat} {v : Invocation} (hs : s₀.leadsTo s) : s₀.leadsTo (s.endSelection die c v) := by
  delta State.endSelection
  extract_lets held s1 src
  have hs1 : s₀.leadsTo s1 := hs.setInv.selBusy
  exact hs1.sameArr.postStatus

theorem State.leadsTo.routerHeader {die : Nat} (hs : s₀.leadsTo s) : s₀.leadsTo (s.routerHeader die) := by
  delta State.routerHeader
  split
  · exact hs
  · refine .ite hs ?_
    split
    · extract_lets h0 h1 v s1
      have hs1 : s₀.leadsTo s1 := hs.popTok.popTok.setInv.selBusy.fired
      exact .ite (.ite hs1.endSelection hs1) hs.routerBound
    · exact hs

theorem State.leadsTo.routeRow {die c : Nat} {v : Invocation} {slot pos : Nat} (hs : s₀.leadsTo s) : s₀.leadsToFst (s.routeRow die c v slot pos) := by
  delta State.routeRow
  extract_lets t e mode ss ch nans s1 src s2 cs
  have hs1 : s₀.leadsTo s1 := hs.routerFlags.bump
  have hs2 : s₀.leadsTo s2 := hs1.foldl (fun s x hs => hs.detect)
  exact hs2

theorem State.leadsTo.selectToken {die c : Nat} {v : Invocation} (hs : s₀.leadsTo s) : s₀.leadsToSome (s.selectToken die c v) := by
  delta State.selectToken
  extract_lets first needId id
  have hid : s₀.leadsToSomeSnd id := by
    unfold id
    refine .ite ?_ hs.someSnd
    split
    · exact hs.popTok.popTok.someSnd
    · exact .none
  split
  · exact .none
  · clear_value id
    split
    · exact .none
    · next pair s1 =>
        have hs1 : s₀.leadsTo s1 := hid _ _ rfl
        extract_lets v1 s2 r src v2
        have hs2 : s₀.leadsTo s2 := hs1.popTok.fired
        have hr : s₀.leadsToFst r := .ite hs2.routeRow hs2
        exact .ite hs.routerBound.some (.ite hs2.setInv.some (State.leadsTo.some (.ite hr.endSelection hr.setInv)))

theorem State.leadsTo.selectRow {die c n : Nat} (hs : s₀.leadsTo s) : s₀.leadsTo (State.selectRow die c n s) := by
  induction n generalizing s with
  | zero => exact hs
  | succ n ih =>
    unfold State.selectRow
    split
    · exact hs
    · next v _ =>
      refine .ite hs ?_
      split
      · exact hs
      · next s1 es1 =>
        have hs1 : s₀.leadsTo s1 := hs.selectToken _ es1
        split
        · exact hs1
        · exact .ite (ih hs1) hs1

theorem State.leadsTo.routerCapacity {die : Nat} (hs : s₀.leadsTo s) : s₀.leadsTo (s.routerCapacity die) := by
  delta State.routerCapacity
  split
  · exact hs
  · split
    · exact hs
    · extract_lets cs
      exact .ite hs (.ite hs.routerBound (.ite hs.routerBound hs.setInv))

theorem State.leadsTo.actRow {die c a n : Nat} (hs : s₀.leadsTo s) : s₀.leadsToSnd (s.actRow die c a n) := by
  delta State.actRow
  extract_lets f
  have hf : s₀.leadsToSnd f := hs.emit.useFree
  split
  · exact hs
  · exact hf

theorem State.leadsTo.writeEntry {die c t : Nat} {all : List RChoice} {a : Nat} {x : RChoice} (hs : s₀.leadsTo s) : s₀.leadsTo (s.writeEntry die c t all a x) := by
  delta State.writeEntry
  extract_lets tag rb row head
  have hrow : s₀.leadsToSnd row := hs.actRow
  exact hrow.routerFlags.masWrite

theorem State.leadsTo.writeCounts {die c n : Nat} {cs : List RChoice} (hs : s₀.leadsTo s) : s₀.leadsTo (s.writeCounts die c n cs) := by
  delta State.writeCounts
  refine hs.foldl (fun s e hs => ?_)
  extract_lets mine a d
  exact hs.wr.wr

theorem State.leadsTo.routerLists {die : Nat} (hs : s₀.leadsTo s) : s₀.leadsTo (s.routerLists die) := by
  delta State.routerLists
  split
  · exact hs
  · extract_lets inv
    split
    · exact hs
    · extract_lets t plan report size acc s1 s2 s3 s4 _
      have hs1 : s₀.leadsTo s1 := hs.foldl fun s e hs => hs.writeEntry
      have hs2 : s₀.leadsTo s2 := hs1.masWrite.writeCounts
      have hs3 : s₀.leadsTo s3 := hs2.bump.bump.bump
      have hs4 : s₀.leadsTo s4 := hs3.setInv
      clear_value s4
      exact .ite hs (.ite (hs.foldl fun s a hs => hs.requestRange) (.ite hs.routerBound hs4.sameArr))

theorem State.leadsTo.execRouterHeader {die : Nat} (hs : s₀.leadsTo s) : s₀.leadsToRes (execRouterHeader die s) :=
  State.leadsToRes.onDie hs.routerHeader.next

theorem State.leadsTo.execRouterSelection {die : Nat} (hs : s₀.leadsTo s) : s₀.leadsToRes (execRouterSelection die s) := by
  delta Machine.execRouterSelection
  refine State.leadsToRes.onDie (State.leadsTo.next ?_)
  split
  · exact hs
  · exact hs.selectRow

theorem State.leadsTo.execRouterCapacity {die : Nat} (hs : s₀.leadsTo s) : s₀.leadsToRes (execRouterCapacity die s) :=
  State.leadsToRes.onDie hs.routerCapacity.next

theorem State.leadsTo.loadTables {die c : Nat} {ts : List (Nat × List Word)} (hs : s₀.leadsTo s) : s₀.leadsTo (s.loadTables die c ts) := by
  delta State.loadTables
  extract_lets w s1 s2 src
  have hs1 : s₀.leadsTo s1 := by
    unfold s1
    refine hs.foldl (fun s t hs => ?_)
    extract_lets ws
    exact hs.foldl (fun s i hs => hs.setWord)
  have hs2 : s₀.leadsTo s2 := hs1.foldl (fun s e hs => hs.setWord)
  exact hs2.wr.wr.wr.wr.wr

theorem State.leadsTo.translate {die k pn : Nat} (hs : s₀.leadsTo s) : s₀.leadsTo (s.translate die k pn) := by
  delta State.translate
  extract_lets s1 l f r src src'
  have hs1 : s₀.leadsTo s1 := hs.bump.touch
  have hf : s₀.leadsToSnd f := hs1.useFree
  have hr : s₀.leadsToSnd r := .ite hs1 hf
  have hsrc : s₀.leadsTo src := hr
  exact .ite hs (.ite hs1 hsrc.sameArr)

theorem State.leadsTo.agentPath {die k a n : Nat} (hs : s₀.leadsTo s) : s₀.leadsTo (s.agentPath die k a n) := by
  delta State.agentPath
  refine hs.foldl (fun s pn hs => ?_)
  extract_lets s1 gs s2
  have hs1 : s₀.leadsTo s1 := hs.translate
  have hs2 : s₀.leadsTo s2 := by
    unfold s2
    split
    · exact .ite hs1 hs1.emit
    · exact hs1
  refine hs2.foldl (fun s g hs => ?_)
  split
  · exact hs.translate
  · exact hs

theorem State.leadsTo.dataPath {die a n : Nat} (hs : s₀.leadsTo s) : s₀.leadsTo (s.dataPath die a n) :=
  hs.agentPath

theorem State.leadsTo.serve {via : Option Nat} {who : Asker} {a n : Nat} (hs : s₀.leadsTo s) : s₀.leadsTo (s.serve via who a n) := by
  delta State.serve
  split
  · exact .ite hs.feedToks.emit hs.turnAway
  · exact hs.emit

theorem State.leadsTo.agentRead {die k a n : Nat} {via : Option Nat} {who : Asker} (hs : s₀.leadsTo s) : s₀.leadsTo (s.agentRead die k a n via who) := by
  delta State.agentRead
  extract_lets s1 s2 src
  have hs1 : s₀.leadsTo s1 := hs.agentPath
  have hs2 : s₀.leadsTo s2 := hs1.requestRange
  split
  · exact hs1.emit
  · exact hs1.serve
  · exact hs2.sameArr

theorem State.leadsTo.agentWrite {die k a : Nat} {data : List Byte} {who : Asker} (hs : s₀.leadsTo s) : s₀.leadsTo (s.agentWrite die k a data who) := by
  delta State.agentWrite
  extract_lets s1
  have hs1 : s₀.leadsTo s1 := hs.agentPath
  split
  · exact hs1.masWrite
  · exact hs1.emit

theorem State.leadsTo.execAgentRead {die k a n : Nat} {who : Asker} (hs : s₀.leadsTo s) : s₀.leadsToRes (execAgentRead die k a n who s) :=
  State.leadsToRes.onAgent hs.agentRead.next

theorem State.leadsTo.execAgentWrite {die k a : Nat} {data : List Byte} {who : Asker} (hs : s₀.leadsTo s) : s₀.leadsToRes (execAgentWrite die k a data who s) :=
  State.leadsToRes.onAgent hs.agentWrite.next

theorem State.leadsTo.execAgentReadResume {die k : Nat} (hs : s₀.leadsTo s) : s₀.leadsToRes (execAgentReadResume die k s) := by
  delta Machine.execAgentReadResume
  extract_lets src
  refine State.leadsToRes.onAgent (State.leadsTo.next ?_)
  split
  · exact hs
  · extract_lets s1
    have hs1 : s₀.leadsTo s1 := hs.sameArr
    exact .ite hs1.agentPath.serve hs1.emit

theorem State.leadsTo.setWc {k : Nat} {l : List WcLine} (hs : s₀.leadsTo s) : s₀.leadsTo (s.setWc k l) :=
  hs.sameArr

theorem State.leadsTo.wcAllocate {die strip line pins : Nat} {who : List (Asker × Nat × Nat)} (hs : s₀.leadsTo s) :
    s₀.leadsToSome (s.wcAllocate die strip line pins who) := by
  rintro t e
  obtain ⟨l, -, rfl⟩ := Option.map_eq_some_iff.mp e
  exact hs.setWc.agentPath.requestRange.bump

theorem State.leadsTo.wcReadLine {die strip a n : Nat} {who : Asker} (hs : s₀.leadsTo s) : s₀.leadsTo (s.wcReadLine die strip a n who) := by
  delta State.wcReadLine
  extract_lets line k src
  refine .ite hs.emit ?_
  split
  · extract_lets rest
    exact .ite hs.setWc.bump hs.setWc.bump.serve
  · split
    · exact hs.sameArr
    · next s1 es1 =>
        have hs1 : s₀.leadsTo s1 := hs.wcAllocate _ es1
        exact hs1

theorem State.leadsTo.wcRead {die strip a n : Nat} {who : Asker} (hs : s₀.leadsTo s) : s₀.leadsTo (s.wcRead die strip a n who) := by
  delta State.wcRead
  extract_lets isSealed
  refine .ite hs.agentRead (hs.foldl (fun s l hs => ?_))
  extract_lets lo
  exact hs.wcReadLine

theorem State.leadsTo.execWcRead {die strip a n : Nat} {who : Asker} (hs : s₀.leadsTo s) : s₀.leadsToRes (execWcRead die strip a n who s) :=
  State.leadsToRes.onStrip hs.wcRead.next

theorem State.leadsTo.wcRetry {die strip : Nat} (hs : s₀.leadsTo s) : s₀.leadsTo (s.wcRetry die strip) :=
  hs.foldl (fun s r hs => .ite hs.sameArr.wcReadLine hs)

theorem State.leadsTo.wcFilled {die strip line : Nat} (hs : s₀.leadsTo s) : s₀.leadsTo (s.wcFilled die strip line) := by
  delta State.wcFilled
  extract_lets k
  split
  · exact hs
  · extract_lets s1 s1'
    have hs1 : s₀.leadsTo s1 := hs.setWc
    have hs1' : s₀.leadsTo s1' := hs.setWc
    refine .ite hs ?_
    split
    · exact hs
    · exact .wcRetry (hs1.foldl (fun s r hs => hs.serve))
    · exact .wcRetry (hs1'.foldl (fun s r hs => hs.emit))

theorem State.leadsTo.execWcFillComplete {die strip a : Nat} (hs : s₀.leadsTo s) : s₀.leadsToRes (execWcFillComplete die strip a s) :=
  State.leadsToRes.onStrip hs.wcFilled.next

theorem State.leadsTo.wcDropUnpinned {die : Nat} (hs : s₀.leadsTo s) : s₀.leadsTo (s.wcDropUnpinned die) := by
  delta State.wcDropUnpinned
  extract_lets sets src
  exact hs.sameArr

theorem State.leadsTo.wcPin {die strip line : Nat} (hs : s₀.leadsTo s) : s₀.leadsToFst (s.wcPin die strip line) := by
  delta State.wcPin
  extract_lets k
  split
  · extract_lets s1
    have hs1 : s₀.leadsTo s1 := hs.setWc
    exact hs1.bump
  · split
    · exact hs
    · next s1 es1 =>
        have hs1 : s₀.leadsTo s1 := hs.wcAllocate _ es1
        exact hs1

theorem State.leadsTo.wcUnpin {die strip line : Nat} (hs : s₀.leadsTo s) : s₀.leadsTo (s.wcUnpin die strip line) := by
  delta State.wcUnpin
  extract_lets k
  exact hs.setWc.wcRetry

theorem State.leadsTo.residue {die y x c cls : Nat} {ok : Bool} (hs : s₀.leadsTo s) : s₀.leadsTo (s.residue die y x c cls ok) :=
  .ite hs hs.emit

theorem State.leadsTo.setAccRow {die y x r : Nat} {v : AccRow} (hs : s₀.leadsTo s) : s₀.leadsTo (s.setAccRow die y x r v) :=
  hs.sameArr

theorem State.leadsTo.matAdvance {die y x c : Nat} (hs : s₀.leadsTo s) : s₀.leadsTo (s.matAdvance die y x c) := by
  delta State.matAdvance
  extract_lets t t'
  split
  · exact hs.setTile
  · exact hs.setTile

theorem State.leadsTo.loadWeight {die y x c w : Nat} {g : Geometry} (hs : s₀.leadsTo s) : s₀.leadsTo (s.loadWeight die y x c w g) := by
  delta State.loadWeight
  extract_lets t s1 src
  have hs1 : s₀.leadsTo s1 := hs.consume
  refine .ite ?_ ?_
  · split
    · exact hs
    · exact hs1.setTile.fired
  · split
    · exact hs
    · extract_lets s1' src'
      have hs1' : s₀.leadsTo s1' := hs.consume
      refine .ite hs ?_
      split
      · exact hs
      · exact hs1'.setTile.fired

theorem State.leadsTo.endChunk {die y x c : Nat} (hs : s₀.leadsTo s) : s₀.leadsTo (s.endChunk die y x c) := by
  delta State.endChunk
  extract_lets t
  exact .ite hs.setTile hs.matAdvance

theorem State.leadsTo.acceptRow {die y x c w : Nat} {g : Geometry} (hs : s₀.leadsTo s) : s₀.leadsTo (s.acceptRow die y x c w g) := by
  delta State.acceptRow
  extract_lets t m last emits idx old src start done
  refine .ite hs ?_
  split
  · exact hs
  · extract_lets r s1 e s2 ok s3 src'
    have hs1 : s₀.leadsTo s1 := .setAccRow (.ite hs.consume hs)
    have hs2 : s₀.leadsTo s2 := .ite hs1.writeDst.tileFlags hs1
    have hs3 : s₀.leadsTo s3 := hs2.tileFlags.bump.fired.residue
    exact .ite hs.waitDst (.ite hs3.setTile hs3.endChunk)

theorem State.leadsTo.discardChunk {die y x c w : Nat} {g : Geometry} (hs : s₀.leadsTo s) : s₀.leadsTo (s.discardChunk die y x c w g) := by
  delta State.discardChunk
  extract_lets t
  exact .ite hs.matAdvance (.ite hs.fired.endChunk hs)

theorem State.leadsTo.matCycle {die y x c w : Nat} {g : Geometry} (hs : s₀.leadsTo s) : s₀.leadsTo (s.matCycle die y x c w g) := by
  delta State.matCycle
  extract_lets s1 t1
  have hs1 : s₀.leadsTo s1 := .ite hs.discardChunk hs.acceptRow
  exact .ite hs1.loadWeight hs1

theorem State.leadsTo.matFire {die y x : Nat} (hs : s₀.leadsTo s) : s₀.leadsTo (s.matFire die y x) := by
  delta State.matFire
  split
  · exact hs
  · extract_lets s' t
    have hs' : s₀.leadsTo s' := hs.adoptDue
    split
    · exact hs'
    · extract_lets w kc held
      split
      · exact hs'
      · refine .ite hs'.matCycle ?_
        split
        · exact hs'
        · next m s1 es1 =>
            have hs1 : s₀.leadsTo s1 := hs'.repeatCount _ _ es1
            extract_lets src s2
            have hs2 : s₀.leadsTo s2 := hs1.setTile
            exact .ite hs'.tileBound (.ite hs2.fired.matAdvance hs2.matCycle)

theorem State.leadsTo.execMmac {die y x : Nat} (hs : s₀.leadsTo s) : s₀.leadsToRes (execMmac die y x s) :=
  State.leadsToRes.onCt hs.matFire.next

theorem State.leadsTo.setAg {die y x c a : Nat} {g : AgState} (hs : s₀.leadsTo s) : s₀.leadsTo (s.setAg die y x c a g) :=
  hs.sameArr

theorem State.leadsTo.mtBound {die y x c a kind : Nat} (hs : s₀.leadsTo s) : s₀.leadsTo (s.mtBound die y x c a kind) := by
  delta State.mtBound
  extract_lets w
  exact hs.wr.wr.wr.wr.freeze

theorem State.leadsTo.postDesc {die y x c a : Nat} (hs : s₀.leadsTo s) : s₀.leadsTo (s.postDesc die y x c a) := by
  delta State.postDesc
  extract_lets g n w s1 next src
  have hs1 : s₀.leadsTo s1 := .ite hs.wr hs
  exact .ite hs.setAg hs1.setAg

theorem State.leadsTo.takeWait {die y x c n : Nat} (hs : s₀.leadsTo s) : s₀.leadsToSome (s.takeWait die y x c n) := by
  delta State.takeWait
  extract_lets k v
  refine .ite hs.some (.ite (.ite (.none) hs.wr.some) ?_)
  split
  · exact .none
  · exact .ite hs.popTok.some (.none)

theorem State.leadsTo.issueDesc {die y x a : Nat} (hs : s₀.leadsTo s) : s₀.leadsTo (s.issueDesc die y x a) := by
  delta State.issueDesc
  split
  · exact hs
  · extract_lets g n bounds rng scatter empty
    refine .ite hs (.ite hs.setAg (.ite hs ?_))
    split
    · exact hs
    · next s1 es1 =>
        have hs1 : s₀.leadsTo s1 := hs.takeWait _ es1
        extract_lets s2 s3
        have hs2 : s₀.leadsTo s2 := hs1.setAg
        have hs3 : s₀.leadsTo s3 := hs2.fired
        exact .ite hs.mtBound (.ite hs.mtBound (.ite hs.mtBound (.ite hs3.postDesc hs3)))

theorem State.leadsTo.nestStep {die y x c a : Nat} (hs : s₀.leadsTo s) : s₀.leadsTo (s.nestStep die y x c a) := by
  delta State.nestStep
  extract_lets g
  split
  · exact hs.setAg
  · exact hs.setAg

theorem State.leadsTo.agRead {die y x a : Nat} (hs : s₀.leadsTo s) : s₀.leadsTo (s.agRead die y x a) := by
  delta State.agRead
  split
  · exact hs
  · extract_lets q v
    exact .ite hs.markWaiting (.ite hs hs.pushTok.fired.nestStep)

theorem State.leadsTo.agWrite {die y x a : Nat} (hs : s₀.leadsTo s) : s₀.leadsTo (s.agWrite die y x a) := by
  delta State.agWrite
  split
  · exact hs
  · split
    · exact hs
    · split
      · exact hs
      · exact hs.popTok.sramWrite.fired.nestStep

theorem State.leadsTo.agFill {die y x a : Nat} (hs : s₀.leadsTo s) : s₀.leadsTo (s.agFill die y x a) := by
  delta State.agFill
  split
  · exact hs
  · extract_lets v
    exact hs.sramWrite.fired.nestStep

theorem State.leadsTo.mtFlags {die y x c : Nat} {g : Num.Flags} (hs : s₀.leadsTo s) : s₀.leadsTo (s.mtFlags die y x c g) := by
  delta State.mtFlags
  extract_lets src all
  exact .ite hs hs.wr

theorem State.leadsTo.scatter {die y x a : Nat} {plane : Bool} (hs : s₀.leadsTo s) : s₀.leadsTo (s.scatter die y x a plane) := by
  delta State.scatter
  split
  · exact hs
  · extract_lets tp
    split
    · extract_lets s1
      have hs1 : s₀.leadsTo s1 := hs.popTok.popTok.popTok
      split
      · extract_lets tag w
        split
        · exact hs.mtBound
        · extract_lets rs s2 ok s3
          have hs2 : s₀.leadsTo s2 := hs1.sramWrite
          have hs3 : s₀.leadsTo s3 := hs2.mtFlags.bump.residue
          exact .ite hs hs3.fired.nestStep
      · exact hs
    · exact hs

theorem State.leadsTo.execAgDescriptorIssue {die y x a : Nat} (hs : s₀.leadsTo s) : s₀.leadsToRes (execAgDescriptorIssue die y x a s) :=
  State.leadsToRes.onAg hs.issueDesc.next

theorem State.leadsTo.execAgRead {die y x a : Nat} (hs : s₀.leadsTo s) : s₀.leadsToRes (execAgRead die y x a s) :=
  State.leadsToRes.onAg hs.agRead.next

theorem State.leadsTo.execAgWrite {die y x a : Nat} (hs : s₀.leadsTo s) : s₀.leadsToRes (execAgWrite die y x a s) :=
  State.leadsToRes.onAg hs.agWrite.next

theorem State.leadsTo.execAgFill {die y x a : Nat} (hs : s₀.leadsTo s) : s₀.leadsToRes (execAgFill die y x a s) :=
  State.leadsToRes.onAg hs.agFill.next

theorem State.leadsTo.execScatterAcc {die y x a : Nat} (hs : s₀.leadsTo s) : s₀.leadsToRes (execScatterAcc die y x a s) :=
  State.leadsToRes.onAg hs.scatter.next

theorem State.leadsTo.execScatterPlane {die y x a : Nat} (hs : s₀.leadsTo s) : s₀.leadsToRes (execScatterPlane die y x a s) :=
  State.leadsToRes.onAg hs.scatter.next

theorem State.leadsTo.execDescriptorComplete {die y x a : Nat} (hs : s₀.leadsTo s) : s₀.leadsToRes (execDescriptorComplete die y x a s) := by
  delta Machine.execDescriptorComplete
  refine State.leadsToRes.onAg (State.leadsTo.next ?_)
  split
  · exact hs
  · exact .ite hs.postDesc hs

theorem State.leadsTo.dropTokens {die c : Nat} (hs : s₀.leadsTo s) : s₀.leadsTo (s.dropTokens die c) := by
  delta State.dropTokens
  extract_lets src arr
  exact hs.sameArr

theorem State.leadsTo.clearTileRegs {die : Nat} {p : Nat → Bool} (hs : s₀.leadsTo s) : s₀.leadsTo (s.clearTileRegs die p) :=
  hs.same

theorem State.leadsTo.clearAcc {die c : Nat} (hs : s₀.leadsTo s) : s₀.leadsTo (s.clearAcc die c) :=
  hs.sameArr

theorem State.leadsTo.loadParams {die c : Nat} {t : TileImage} (hs : s₀.leadsTo s) : s₀.leadsTo (s.loadParams die c t) := by
  delta State.loadParams
  extract_lets s1 s2 src
  have hs1 : s₀.leadsTo s1 := hs.foldl (fun s k hs => hs.wr)
  have hs2 : s₀.leadsTo s2 := hs1.setActiveParams
  exact hs2.setTile

theorem State.leadsTo.applyTile {die c : Nat} {linen : Bool} {t : TileImage} (hs : s₀.leadsTo s) : s₀.leadsTo (s.applyTile die c linen t) := by
  delta State.applyTile
  extract_lets w s1 s2
  have hs1 : s₀.leadsTo s1 := hs.foldl (fun s i hs => hs.wr)
  have hs2 : s₀.leadsTo s2 := hs1.wr.wr.wr.wr
  exact hs2.loadParams

theorem State.leadsTo.applyMt {die c : Nat} {linen : Bool} {m : MtImage} (hs : s₀.leadsTo s) : s₀.leadsTo (s.applyMt die c linen m) := by
  delta State.applyMt
  extract_lets w s1
  have hs1 : s₀.leadsTo s1 := hs.foldl (fun s d hs => hs.wr)
  exact hs1.wr.wr

theorem State.leadsTo.applyQueue {die c : Nat} {q : QImage} (hs : s₀.leadsTo s) : s₀.leadsTo (s.applyQueue die c q) := by
  delta State.applyQueue
  extract_lets src v s1 i w
  have hs1 : s₀.leadsTo s1 := hs.setQueue
  exact .ite hs1 hs1.wr.wr.wrFlag.wr

theorem State.leadsTo.clearSlotCounts {die c : Nat} (hs : s₀.leadsTo s) : s₀.leadsTo (s.clearSlotCounts die c) :=
  hs.wr.wr.wr

theorem State.leadsTo.setSlotMode {die c : Nat} {linen : Bool} (hs : s₀.leadsTo s) : s₀.leadsTo (s.setSlotMode die c linen) :=
  hs.wr

theorem State.leadsTo.clearUnits {die c : Nat} (hs : s₀.leadsTo s) : s₀.leadsTo (s.clearUnits die c) := by
  delta State.clearUnits
  extract_lets s1 src
  have hs1 : s₀.leadsTo s1 := hs.clearAcc
  exact hs1.sameArr

theorem State.leadsTo.applyImage {die c : Nat} {img : CtxImage} (hs : s₀.leadsTo s) : s₀.leadsTo (s.applyImage die c img) := by
  delta State.applyImage
  extract_lets linen s1 src s2 s3 s4 s5 s6 s7
  have hs1 : s₀.leadsTo s1 := hs.dropTokens.clearUnits.clearTileRegs.dropInv
  have hs2 : s₀.leadsTo s2 := hs1.sameArr
  have hs3 : s₀.leadsTo s3 := hs2.foldl (fun s t hs => hs.applyTile)
  have hs4 : s₀.leadsTo s4 := hs3.foldl (fun s m hs => hs.applyMt)
  have hs5 : s₀.leadsTo s5 := hs4.foldl (fun s q hs => hs.applyQueue)
  have hs6 : s₀.leadsTo s6 := hs5.wr.wr
  have hs7 : s₀.leadsTo s7 := hs6.loadTables.clearSlotCounts.setSlotMode
  exact hs7.wr.setSlotState

theorem State.leadsTo.resetOnly {die c : Nat} (hs : s₀.leadsTo s) : s₀.leadsTo (s.resetOnly die c) := by
  delta State.resetOnly
  extract_lets s1 s2 src
  have hs1 : s₀.leadsTo s1 := hs.dropTokens.clearUnits.clearTileRegs.dropInv
  have hs2 : s₀.leadsTo s2 := by
    unfold s2
    split
    · exact hs1.foldl (fun s t hs => hs.loadParams)
    · exact hs1
  exact hs2.clearSlotCounts.wr.setSlotState

theorem State.leadsTo.emptySlot {die c : Nat} (hs : s₀.leadsTo s) : s₀.leadsTo (s.emptySlot die c) := by
  delta State.emptySlot
  extract_lets s1 src s2
  have hs1 : s₀.leadsTo s1 := hs.dropTokens.clearUnits.dropInv.setSlotState
  have hs2 : s₀.leadsTo s2 := hs1.sameArr
  exact .ite hs2.wr hs2

theorem State.leadsTo.emptyDie {die : Nat} (hs : s₀.leadsTo s) : s₀.leadsTo (s.emptyDie die) :=
  hs.foldl (fun _ _ hs => hs.emptySlot)

theorem State.leadsTo.beginLoad {die c : Nat} {img : CtxImage} {st entry : Nat} (hs : s₀.leadsTo s) : s₀.leadsTo (s.beginLoad die c img st entry) := by
  delta State.beginLoad
  extract_lets n s1 src
  have hs1 : s₀.leadsTo s1 := hs.dropTokens.dropInv.setSlotState
  exact hs1.sameArr

theorem State.leadsTo.setSelects {die : Nat} {l : List PendingSelect} (hs : s₀.leadsTo s) : s₀.leadsTo (s.setSelects die l) :=
  hs.sameArr

theorem State.leadsTo.switchTo {die c : Nat} (hs : s₀.leadsTo s) : s₀.leadsTo (s.switchTo die c) := by
  delta State.switchTo
  extract_lets s1 s2
  have hs1 : s₀.leadsTo s1 := by
    unfold s1
    split
    · exact hs.setSlotState
    · exact hs
  have hs2 : s₀.leadsTo s2 := hs1.bump
  exact .ite hs2.wr hs2.setSlotState.wr.wr

theorem State.leadsTo.haltSlot {die c : Nat} (hs : s₀.leadsTo s) : s₀.leadsTo (s.haltSlot die c) := by
  delta State.haltSlot
  extract_lets s1
  have hs1 : s₀.leadsTo s1 := .ite hs.stopSlot hs
  exact .ite hs1.resetOnly hs1

theorem State.leadsTo.haltDie {die : Nat} (hs : s₀.leadsTo s) : s₀.leadsTo (s.haltDie die) :=
  hs.foldl (fun _ _ hs => .ite hs.haltSlot hs)

theorem State.leadsTo.execWatchdogFreeze {die : Nat} (hs : s₀.leadsTo s) : s₀.leadsToRes (execWatchdogFreeze die s) := by
  delta Machine.execWatchdogFreeze
  refine State.leadsToRes.onDie (State.leadsTo.next ?_)
  split
  · exact hs
  · exact .ite hs hs.freeze

theorem State.leadsTo.putCtl {die y x c : Nat} {p : List Byte} (hs : s₀.leadsTo s) : s₀.leadsTo (s.putCtl die y x c p) := by
  delta State.putCtl
  refine hs.foldl (fun s d hs => ?_)
  extract_lets k src
  exact hs.sameArr

theorem State.leadsTo.putSetup {die y x c bits : Nat} (hs : s₀.leadsTo s) : s₀.leadsTo (s.putSetup die y x c bits) := by
  delta State.putSetup
  refine hs.foldl (fun s k hs => ?_)
  extract_lets qid q
  exact .ite hs hs.setQueue

theorem State.leadsTo.putCtState {die c y x : Nat} {p : List Byte} (hs : s₀.leadsTo s) : s₀.leadsTo (s.putCtState die c y x p) := by
  delta State.putCtState
  extract_lets w src all f src' t s1 s2 s3
  have hs1 : s₀.leadsTo s1 := hs.setTile.putCtl.putSetup.wr
  have hs2 : s₀.leadsTo s2 := hs1.wr.wr.wr
  have hs3 : s₀.leadsTo s3 := hs2.foldl (fun s k hs => hs.wr)
  exact hs3.setActiveParams

theorem State.leadsTo.putVregs {die c y x : Nat} {p : List Byte} (hs : s₀.leadsTo s) : s₀.leadsTo (s.putVregs die c y x p) := by
  delta State.putVregs
  extract_lets ts t
  exact hs.setTile

theorem State.leadsTo.putWbuf {die c y x : Nat} {p : List Byte} (hs : s₀.leadsTo s) : s₀.leadsTo (s.putWbuf die c y x p) := by
  delta State.putWbuf
  extract_lets ts t
  exact hs.setTile

theorem State.leadsTo.putAcc {die c y x : Nat} {p : List Byte} (hs : s₀.leadsTo s) : s₀.leadsTo (s.putAcc die c y x p) := by
  delta State.putAcc
  extract_lets w base n
  refine hs.foldl (fun s r hs => ?_)
  extract_lets fp row cells extent v
  exact hs.setAccRow

theorem State.leadsTo.putMi {die c y x : Nat} {p : List Byte} (hs : s₀.leadsTo s) : s₀.leadsTo (s.putMi die c y x p) := by
  delta State.putMi
  extract_lets t r
  exact hs.setTile

theorem State.leadsTo.putMtState {die c y x : Nat} {p : List Byte} (hs : s₀.leadsTo s) : s₀.leadsTo (s.putMtState die c y x p) := by
  delta State.putMtState
  extract_lets w src all s1
  have hs1 : s₀.leadsTo s1 := by
    unfold s1
    refine hs.foldl (fun s a hs => ?_)
    extract_lets o f list g
    exact hs.setAg.wr
  exact hs1.wr.wr.putCtl.putSetup

theorem State.leadsTo.putSram {die c y x : Nat} {p : List Byte} (hs : s₀.leadsTo s) : s₀.leadsTo (s.putSram die c y x p) := by
  delta State.putSram
  extract_lets r
  exact hs.sramWrite

theorem State.leadsTo.putQueue {die c qid : Nat} {p : List Byte} (hs : s₀.leadsTo s) : s₀.leadsTo (s.putQueue die c qid p) := by
  delta State.putQueue
  extract_lets y x ts src port r src' s1 q
  have hs1 : s₀.leadsTo s1 := .ite hs.setTile hs
  refine .ite ?_ hs1.setQueue
  split
  · exact hs.setQueue
  · extract_lets n
    exact hs.setInv.setQueue

theorem State.leadsTo.putExt {die c qid : Nat} {p : List Byte} (hs : s₀.leadsTo s) : s₀.leadsTo (s.putExt die c qid p) := by
  delta State.putExt
  extract_lets ts src src'
  exact .ite hs.sameArr hs.setQueue

theorem State.leadsTo.putRouter {die c : Nat} {p : List Byte} (hs : s₀.leadsTo s) : s₀.leadsTo (s.putRouter die c p) := by
  delta State.putRouter
  split
  · exact hs
  · exact hs.setInv

theorem State.leadsTo.putRecord {die c : Nat} {r : Nat × Nat × List Byte} (hs : s₀.leadsTo s) : s₀.leadsTo (State.putRecord die c s r) := by
  delta Machine.State.putRecord
  extract_lets y x p
  split
  · exact hs.wr.wr.wr
  · exact hs.putCtState
  · exact hs.putVregs
  · exact hs.putWbuf
  · exact hs.putAcc
  · exact hs.putMi
  · exact hs.putQueue
  · exact hs.putExt
  · exact hs.putMtState
  · exact hs.putSram
  · exact hs.putRouter
  · exact hs

theorem State.leadsTo.scanApply {die c : Nat} {img : List Byte} (hs : s₀.leadsTo s) : s₀.leadsTo (s.scanApply die c img) := by
  delta State.scanApply
  extract_lets s1 n recs
  have hs1 : s₀.leadsTo s1 := hs.dropTokens.clearUnits.clearTileRegs.dropInv
  exact hs1.foldl (fun s r hs => hs.putRecord)

theorem State.leadsTo.setStream {die st : Nat} {v : StreamSt} (hs : s₀.leadsTo s) : s₀.leadsTo (s.setStream die st v) :=
  hs.same

theorem State.leadsTo.setHead {die st p : Nat} (hs : s₀.leadsTo s) : s₀.leadsTo (s.setHead die st p) :=
  hs.wr.wr

theorem State.leadsTo.setTail {die st p : Nat} (hs : s₀.leadsTo s) : s₀.leadsTo (s.setTail die st p) :=
  hs.wr.wr

theorem State.leadsTo.setStrState {die st v : Nat} (hs : s₀.leadsTo s) : s₀.leadsTo (s.setStrState die st v) :=
  hs.wr

theorem State.leadsTo.refreshStream {die st : Nat} (hs : s₀.leadsTo s) : s₀.leadsTo (s.refreshStream die st) := by
  delta State.refreshStream
  extract_lets s1
  have hs1 : s₀.leadsTo s1 := hs.setStrState
  exact .ite hs (.ite hs.setStrState (.ite hs.setStrState (.ite hs1.stir hs1)))

theorem State.leadsTo.serveStream {die st : Nat} (hs : s₀.leadsTo s) : s₀.leadsTo (s.serveStream die st) :=
  hs.same

theorem State.leadsTo.advanceHead {die st : Nat} (hs : s₀.leadsTo s) : s₀.leadsTo (s.advanceHead die st) :=
  hs.setHead.refreshStream

theorem State.leadsTo.completeEntry {die st i n : Nat} {e : EntrySt} (hs : s₀.leadsTo s) : s₀.leadsTo (s.completeEntry die st i n e) := by
  delta State.completeEntry
  extract_lets v held s1 s2 s3 s4
  have hs1 : s₀.leadsTo s1 := hs.setStream
  have hs2 : s₀.leadsTo s2 := .ite hs1.advanceHead hs1
  have hs3 : s₀.leadsTo s3 := .ite hs2.emit hs2
  have hs4 : s₀.leadsTo s4 := .ite hs3.setStrState.wr.wr hs3
  exact hs4.refreshStream

theorem State.leadsTo.endDispatch {die c : Nat} {e : EntrySt} (hs : s₀.leadsTo s) : s₀.leadsTo (s.endDispatch die c e) := by
  delta State.endDispatch
  extract_lets src s1
  have hs1 : s₀.leadsTo s1 := hs.same
  split
  · exact hs
  · extract_lets fl own
    exact hs1.foldl (fun s f hs => hs.completeEntry)

theorem State.leadsTo.cutDispatch {die st opc : Nat} (hs : s₀.leadsTo s) : s₀.leadsTo (s.cutDispatch die st opc) := by
  delta State.cutDispatch
  split
  · exact hs
  · exact .ite hs hs.endDispatch

theorem State.leadsTo.noteStep {die st opc c : Nat} (hs : s₀.leadsTo s) : s₀.leadsTo (s.noteStep die st opc c) := by
  delta State.noteStep
  extract_lets v used
  exact hs.setStream.serveStream

theorem State.leadsTo.issueHead {die st opc : Nat} {run : State → Nat → Nat → Issue} (hs : s₀.leadsTo s)
    (hrun : ∀ t i n, s₀.leadsTo t → s₀.leadsToIssue (run t i n)) : s₀.leadsTo (s.issueHead die st opc run) := by
  unfold State.issueHead
  extract_lets i n note
  refine .ite (.ite hs.cutDispatch.serveStream.advanceHead.completeEntry (.ite hs ?_)) hs
  have hissue := hrun (s.cutDispatch die st opc) i n hs.cutDispatch
  generalize run (s.cutDispatch die st opc) i n = issue at hissue
  cases issue with
  | done e t => exact State.leadsTo.completeEntry (State.leadsTo.advanceHead (State.leadsTo.noteStep hissue))
  | fly t f => exact State.leadsTo.advanceHead (State.leadsTo.setStream (State.leadsTo.noteStep hissue))
  | hold k t f => exact State.leadsTo.wr (State.leadsTo.refreshStream (State.leadsTo.setStream (State.leadsTo.noteStep hissue)))
  | wait k t => exact State.leadsTo.wr (State.leadsTo.setStrState hissue)

theorem State.leadsTo.withSource {die st n k : Nat} {f : Nat → Issue} (hs : s₀.leadsTo s) (hf : ∀ v, s₀.leadsToIssue (f v)) :
    s₀.leadsToIssue (s.withSource die st n k f) := by
  unfold State.withSource
  split
  · exact hf _
  · exact hs.requestRange.wait
  · exact hs.done

theorem State.leadsTo.feedGroup {die c : Nat} {ports : List Nat} {toks : List Tok} (hs : s₀.leadsTo s) : s₀.leadsTo (s.feedGroup die c ports toks) :=
  hs.foldl (fun _ _ hs => hs.feedToks)

theorem State.leadsTo.undrain {die c : Nat} {ports : List Nat} {n : Nat} (hs : s₀.leadsTo s) : s₀.leadsTo (s.undrain die c ports n) := by
  delta State.undrain
  refine hs.foldl (fun s j hs => ?_)
  extract_lets k taken gone invs src
  exact hs.sameArr

theorem State.leadsTo.endRead {die c n k len : Nat} (hs : s₀.leadsTo s) : s₀.leadsToRead (s.endRead die c n k len) := by
  delta State.endRead
  extract_lets a ports m toks
  split
  · split
    · exact hs.dataPath.readBytes
    · exact hs.requestRange.readWait
    · exact .fault
  · exact .ite (.fault) (.ite hs.readWait hs.undrain.readBytes)
  · exact .ite hs.readWait hs.readBytes

theorem State.leadsTo.deliverTo {die c g : Nat} {bs : List Byte} (hs : s₀.leadsTo s) : s₀.leadsTo (s.deliverTo die c g bs) :=
  hs.feedGroup

theorem State.leadsTo.endWrite {die c n k : Nat} {bs : List Byte} (hs : s₀.leadsTo s) : s₀.leadsToSome (s.endWrite die c n k bs) := by
  delta State.endWrite
  extract_lets a ports
  split
  · exact .ite hs.dataPath.masWrite.some (.none)
  · exact .ite (.none) hs.deliverTo.some
  · exact hs.sramWrite.some

theorem State.leadsTo.execNop {die st : Nat} (hs : s₀.leadsTo s) : s₀.leadsToRes (execNop die st s) :=
  State.leadsToRes.onStream (State.leadsTo.next (hs.issueHead (fun _ _ _ hs => hs.done)))

theorem State.leadsTo.execCtxLoad {die st : Nat} {img : CtxImage} (hs : s₀.leadsTo s) : s₀.leadsToRes (execCtxLoad die st img s) := by
  delta Machine.execCtxLoad
  refine State.leadsToRes.onStream (State.leadsTo.next (.ite hs (hs.issueHead (fun s i n hs => ?_))))
  extract_lets c a
  split
  · exact hs.done
  · extract_lets s1
    have hs1 : s₀.leadsTo s1 := .ite hs.requestRange hs
    exact .ite hs1.beginLoad.fly hs.done

theorem State.leadsTo.execResetOnlyLoad {die st : Nat} (hs : s₀.leadsTo s) : s₀.leadsToRes (execResetOnlyLoad die st s) := by
  delta Machine.execResetOnlyLoad
  refine State.leadsToRes.onStream (State.leadsTo.next (.ite hs (hs.issueHead (fun s x n hs => .ite ?_ hs.done))))
  extract_lets d
  exact hs.resetOnly.emit.done

theorem State.leadsTo.execContextLoadComplete {die c : Nat} {ue : Bool} (hs : s₀.leadsTo s) : s₀.leadsToRes (execContextLoadComplete die c ue s) := by
  delta Machine.execContextLoadComplete
  extract_lets src s1
  have hs1 : s₀.leadsTo s1 := hs.sameArr
  refine State.leadsToRes.onSlot (State.leadsTo.next ?_)
  split
  · exact hs
  · split
    · exact .ite hs1.emptySlot hs1.applyImage
    · exact .ite hs (.ite hs1.emptySlot.completeEntry hs1.applyImage.emit.completeEntry)

theorem State.leadsTo.execCtxSelect {die st : Nat} (hs : s₀.leadsTo s) : s₀.leadsToRes (execCtxSelect die st s) := by
  delta Machine.execCtxSelect
  refine State.leadsToRes.onStream (State.leadsTo.next (hs.issueHead (fun s i n hs => ?_)))
  extract_lets c
  exact .ite hs.done (.ite hs.done hs.setSelects.fly)

theorem State.leadsTo.execContextSwitchCycle {die : Nat} (hs : s₀.leadsTo s) : s₀.leadsToRes (execContextSwitchCycle die s) := by
  delta Machine.execContextSwitchCycle
  refine State.leadsToRes.onDie (State.leadsTo.next ?_)
  split
  · exact hs
  · extract_lets st s1 word s2
    have hs1 : s₀.leadsTo s1 := hs.setSelects
    have hs2 : s₀.leadsTo s2 := .ite hs1 hs1.switchTo
    exact .ite hs (.ite hs1.completeEntry hs2.completeEntry)

theorem State.leadsTo.scanStatus {die : Nat} {busy dirIn : Bool} {c result progress : Nat} (hs : s₀.leadsTo s) : s₀.leadsTo (s.scanStatus die busy dirIn c result progress) := by
  delta State.scanStatus
  extract_lets w
  exact hs.wrFlag.wrFlag.wr.wr.wr

theorem State.leadsTo.execScan {die st : Nat} (hs : s₀.leadsTo s) : s₀.leadsToRes (execScan die st s) := by
  delta Machine.execScan
  refine State.leadsToRes.onStream (State.leadsTo.next (hs.issueHead (fun s i n hs => ?_)))
  extract_lets c dirIn former a len ok s1 job src s2
  have hs1 : s₀.leadsTo s1 := .ite hs.dropTokens hs
  have hs2 : s₀.leadsTo s2 := hs1.sameArr
  exact .ite hs.wait (.ite hs.requestRange.wait (.ite hs2.setSlotState.scanStatus.fly hs.scanStatus.done))

theorem State.leadsTo.setScan {die : Nat} {j : ScanJob} (hs : s₀.leadsTo s) : s₀.leadsTo (s.setScan die j) :=
  hs.sameArr

theorem State.leadsTo.execScanOut {die : Nat} {ue : Bool} (hs : s₀.leadsTo s) : s₀.leadsToRes (execScanOut die ue s) := by
  delta Machine.execScanOut
  refine State.leadsToRes.onDie (State.leadsTo.next ?_)
  split
  · exact hs
  · extract_lets im
    exact .ite hs (.ite hs.setScan (.ite hs.setScan hs.masWrite.setScan))

theorem State.leadsTo.execScanIn {die : Nat} {ue : Bool} (hs : s₀.leadsTo s) : s₀.leadsToRes (execScanIn die ue s) := by
  delta Machine.execScanIn
  refine State.leadsToRes.onDie (State.leadsTo.next ?_)
  split
  · exact hs
  · exact .ite hs (.ite hs.resetOnly.setSlotState.setScan hs.scanApply.setScan)

theorem State.leadsTo.execScanComplete {die : Nat} (hs : s₀.leadsTo s) : s₀.leadsToRes (execScanComplete die s) := by
  delta Machine.execScanComplete
  extract_lets src s1
  have hs1 : s₀.leadsTo s1 := hs.sameArr
  refine State.leadsToRes.onDie (State.leadsTo.next ?_)
  split
  · exact hs
  · extract_lets s2 word s3
    have hs2 : s₀.leadsTo s2 := .ite hs1.resetOnly hs1.setSlotState
    have hs3 : s₀.leadsTo s3 := hs2.scanStatus
    exact .ite hs hs3.completeEntry

theorem State.leadsTo.putParams {die c : Nat} {tiles items : List (Nat × Nat)} (hs : s₀.leadsTo s) : s₀.leadsTo (s.putParams die c tiles items) := by
  delta State.putParams
  refine hs.foldl (fun s t hs => ?_)
  extract_lets s1
  have hs1 : s₀.leadsTo s1 := hs.foldl (fun s e hs => hs.wr)
  exact hs1.commitParams

theorem State.leadsTo.execParamUpdate {die st : Nat} (hs : s₀.leadsTo s) : s₀.leadsToRes (execParamUpdate die st s) := by
  delta Machine.execParamUpdate
  refine State.leadsToRes.onStream (State.leadsTo.next (hs.issueHead (fun s x n hs => ?_)))
  extract_lets c ks vals items
  split
  · exact hs.done
  · exact .ite hs.wait (.ite hs.wait (.ite hs.done (.ite (State.leadsTo.wait (hs.foldl (fun s i hs => .ite hs.requestRange hs))) hs.putParams.done)))

theorem State.leadsTo.execWriteWord {die st : Nat} (hs : s₀.leadsTo s) : s₀.leadsToRes (execWriteWord die st s) :=
  State.leadsToRes.onStream (State.leadsTo.next (hs.issueHead (fun _ _ _ hs => hs.withSource (fun _ => .ite hs.fly hs.done))))

theorem State.leadsTo.execDmaComplete {die st i : Nat} (hs : s₀.leadsTo s) : s₀.leadsToRes (execDmaComplete die st i s) := by
  unfold Machine.execDmaComplete
  refine State.leadsToRes.onStream (State.leadsTo.next ?_)
  split
  · exact hs
  · extract_lets n finish
    have hfinish : ∀ r, s₀.leadsToSome r → s₀.leadsTo (finish r) := by
      intro r hr
      cases r with
      | none => exact hs.completeEntry
      | some t => exact (hr t rfl).completeEntry
    refine .ite hs ?_
    split
    · exact hfinish _ hs.endWrite
    · exact .ite (hfinish _ hs.masWrite.some) (hfinish _ .none)
    · split
      · next t et => exact hs.endRead.of_wait et
      · exact hfinish _ .none
      · next bs t et => exact hfinish _ (hs.endRead.of_bytes et).endWrite

theorem State.leadsTo.pinLines {die target : Nat} {lines : List Nat} (hs : s₀.leadsTo s) :
    s₀.leadsToFst (s.pinLines die target lines) := by
  have pins : ∀ (ks : List Nat) (l : Nat) (h : State × Bool), s₀.leadsTo h.1 →
      s₀.leadsTo (ks.foldl (fun (h : State × Bool) k => if h.2 then h.1.wcPin die k l else h) h).1 := by
    intro ks l h hh
    induction ks generalizing h with
    | nil => exact hh
    | cons k ks ih => exact ih _ (State.leadsToFst.ite hh.wcPin hh)
  have all : ∀ (ls : List Nat) (g : State × List Nat), s₀.leadsTo g.1 → s₀.leadsToFst (ls.foldl (fun (g : State × List Nat) l =>
      let r := (strips target).foldl (fun (h : State × Bool) k => if h.2 then h.1.wcPin die k l else h) (g.1, true)
      if r.2 then (r.1, g.2 ++ [l]) else g) g) := by
    intro ls
    induction ls with
    | nil => exact fun g hg => hg
    | cons l ls ih => exact fun g hg => ih _ (State.leadsToFst.ite (pins _ l (g.1, true) hg) hg)
  exact all lines (s, []) hs

theorem State.leadsTo.unpinSet {die : Nat} {p : PinSet} (hs : s₀.leadsTo s) : s₀.leadsTo (s.unpinSet die p) :=
  hs.foldl (fun _ _ hs => hs.foldl (fun _ _ hs => hs.wcUnpin))

theorem State.leadsTo.startPrefetch {die st i n : Nat} (hs : s₀.leadsTo s) : s₀.leadsToSomeFst (s.startPrefetch die st i n) := by
  delta State.startPrefetch
  extract_lets a len s1 r v pin
  have hs1 : s₀.leadsTo s1 := .ite hs.dataPath.requestRange hs.requestRange
  have hr : s₀.leadsToFst r := hs1.pinLines
  exact .ite (.none) hr.setStream.someFst

theorem State.leadsTo.execPrefetch {die st : Nat} (hs : s₀.leadsTo s) : s₀.leadsToRes (execPrefetch die st s) := by
  delta Machine.execPrefetch
  extract_lets i v s1 src
  have hs1 : s₀.leadsTo s1 := hs.cutDispatch.serveStream
  refine State.leadsToRes.onStream (State.leadsTo.next (.ite hs1.setStream.advanceHead (hs.issueHead (fun s i n hs => .ite hs.done ?_))))
  split
  · exact hs.done
  · next t f et =>
      have ht : s₀.leadsTo t := hs.startPrefetch _ _ et
      exact ht.fly

theorem State.leadsTo.execLookaheadIssue {die st : Nat} (hs : s₀.leadsTo s) : s₀.leadsToRes (execLookaheadIssue die st s) := by
  delta Machine.execLookaheadIssue
  extract_lets h v
  refine State.leadsToRes.onStream (State.leadsTo.next (.ite ?_ hs))
  split
  · exact hs
  · extract_lets n s0
    have hs0 : s₀.leadsTo s0 := hs.setStream
    refine .ite hs0.completeEntry ?_
    split
    · exact hs0.completeEntry
    · next t f et =>
        have ht : s₀.leadsTo t := hs0.startPrefetch _ _ et
        extract_lets w
        exact ht.setStream

theorem State.leadsTo.execPrefetchComplete {die st i : Nat} (hs : s₀.leadsTo s) : s₀.leadsToRes (execPrefetchComplete die st i s) := by
  delta Machine.execPrefetchComplete
  extract_lets v
  refine State.leadsToRes.onStream (State.leadsTo.next ?_)
  split
  · extract_lets n todo r p1 ready w s1 s2
    have hr : s₀.leadsToFst r := hs.pinLines
    have hs1 : s₀.leadsTo s1 := .ite hr.sramWrite hr
    have hs2 : s₀.leadsTo s2 := .ite hs1.unpinSet.setStream hs1.setStream
    exact .ite hs2.completeEntry hr.setStream
  · exact hs

theorem State.leadsTo.execPfRelease {die st : Nat} (hs : s₀.leadsTo s) : s₀.leadsToRes (execPfRelease die st s) := by
  delta Machine.execPfRelease
  refine State.leadsToRes.onStream (State.leadsTo.next (hs.issueHead (fun s x n hs => ?_)))
  extract_lets v mine s1 rest
  have hs1 : s₀.leadsTo s1 := hs.foldl (fun s p hs => hs.unpinSet)
  exact hs1.setStream.done

theorem State.leadsTo.execFence {die st : Nat} (hs : s₀.leadsTo s) : s₀.leadsToRes (execFence die st s) :=
  State.leadsToRes.onStream (State.leadsTo.next (hs.issueHead (fun _ _ _ hs => hs.hold)))

theorem State.leadsTo.signalFence {die dst k : Nat} (hs : s₀.leadsTo s) : s₀.leadsTo (s.signalFence die dst k) :=
  .ite hs.bump hs.velvetSend

theorem State.leadsTo.execFenceWaitMet {die st : Nat} (hs : s₀.leadsTo s) : s₀.leadsToRes (execFenceWaitMet die st s) := by
  delta Machine.execFenceWaitMet
  refine State.leadsToRes.onStream (State.leadsTo.next ?_)
  split
  · exact hs
  · extract_lets busy below s1
    have hs1 : s₀.leadsTo s1 := .ite hs hs.signalFence
    exact .ite hs hs1.completeEntry

theorem State.leadsTo.execFenceSignal {src die : Nat} (hs : s₀.leadsTo s) : s₀.leadsToRes (execFenceSignal src die s) := by
  delta Machine.execFenceSignal
  refine State.leadsToRes.onDie (State.leadsTo.next ?_)
  split
  · exact hs.velvetFlush
  · exact hs.velvetTake.bump

theorem State.leadsTo.execCounterRead {die st : Nat} (hs : s₀.leadsTo s) : s₀.leadsToRes (execCounterRead die st s) := by
  delta Machine.execCounterRead
  refine State.leadsToRes.onStream (State.leadsTo.next (hs.issueHead (fun s i n hs => ?_)))
  extract_lets bs
  exact hs.fly

theorem State.leadsTo.execStep {die st : Nat} (hs : s₀.leadsTo s) : s₀.leadsToRes (execStep die st s) :=
  State.leadsToRes.onStream (State.leadsTo.next (hs.issueHead (fun _ _ _ hs => hs.hold)))

theorem State.leadsTo.releasePins {die st : Nat} (hs : s₀.leadsTo s) : s₀.leadsTo (s.releasePins die st) := by
  delta State.releasePins
  extract_lets v later s1 src
  have hs1 : s₀.leadsTo s1 := hs.foldl (fun s p hs => hs.unpinSet)
  exact hs1.setStream

theorem State.leadsTo.tailAdvance {die st p : Nat} {es : List (BitVec 512)} (hs : s₀.leadsTo s) : s₀.leadsToSome (s.tailAdvance die st p es) := by
  delta State.tailAdvance
  extract_lets base mem src
  exact .ite hs.same.setTail.refreshStream.some (.none)

theorem State.leadsTo.execStreamTailAdvance {die st p : Nat} {es : List (BitVec 512)} (hs : s₀.leadsTo s) : s₀.leadsToRes (execStreamTailAdvance die st p es s) :=
  State.leadsToRes.onStream (State.leadsTo.next (hs.inDie (State.leadsToSome.getD hs.tailAdvance hs.turnAway)))

theorem State.leadsTo.startStream {die st : Nat} (hs : s₀.leadsTo s) : s₀.leadsTo (s.startStream die st) :=
  .ite hs.setStrState.refreshStream hs

theorem State.leadsTo.stopStream {die st : Nat} (hs : s₀.leadsTo s) : s₀.leadsTo (s.stopStream die st) :=
  .ite hs.setStrState hs

theorem State.leadsTo.cancelStream {die st : Nat} (hs : s₀.leadsTo s) : s₀.leadsTo (s.cancelStream die st) := by
  delta State.cancelStream
  extract_lets v s1 src s2 s3 s4 src' s5 open' s6 src''
  have hs1 : s₀.leadsTo s1 := hs.setStream
  have hs2 : s₀.leadsTo s2 := hs1.same
  have hs3 : s₀.leadsTo s3 := hs2.setSelects
  have hs4 : s₀.leadsTo s4 := by
    unfold s4
    refine hs3.foldl (fun s c hs => ?_)
    split
    · exact .ite hs.emptySlot hs
    · exact hs
  have hs5 : s₀.leadsTo s5 := by
    unfold s5
    split
    · exact .ite hs4.sameArr.setSlotState.scanStatus hs4
    · exact hs4
  have hs6 : s₀.leadsTo s6 := hs5.foldl (fun s p hs => hs.unpinSet)
  exact hs6.setStream

theorem State.leadsTo.abortStream {die st : Nat} (hs : s₀.leadsTo s) : s₀.leadsTo (s.abortStream die st) := by
  delta State.abortStream
  extract_lets s1
  have hs1 : s₀.leadsTo s1 := hs.cancelStream
  exact hs1.setHead.stopStream

theorem State.leadsTo.setDispatch {die c : Nat} {d : Dispatch} (hs : s₀.leadsTo s) : s₀.leadsTo (s.setDispatch die c d) :=
  hs.same

theorem State.leadsTo.execDispatch {die st : Nat} (hs : s₀.leadsTo s) : s₀.leadsToRes (execDispatch die st s) := by
  delta Machine.execDispatch
  refine State.leadsToRes.onStream (State.leadsTo.next (hs.issueHead (fun s i n hs => ?_)))
  extract_lets c lanes d
  exact .ite hs.wait (.ite hs.done hs.setDispatch.fly)

theorem State.leadsTo.inputLen {die c count : Nat} {input : BitVec 128} (hs : s₀.leadsTo s) : s₀.leadsToSnd (s.inputLen die c count input) := by
  delta State.inputLen
  split
  · exact hs
  · exact hs.useFree

theorem State.leadsTo.setTodo {die c entry : Nat} {todo : Option Nat} (hs : s₀.leadsTo s) : s₀.leadsTo (s.setTodo die c entry todo) := by
  delta State.setTodo
  split
  · exact hs
  · exact hs.setDispatch

theorem State.leadsTo.moveInput {die c : Nat} {g : GroupRec} (hs : s₀.leadsTo s) : s₀.leadsTo (s.moveInput die c g) := by
  unfold State.moveInput
  split
  · split
    · next t et => exact hs.endRead.of_wait et
    · exact hs.setTodo.emit
    · next bs t et => exact (hs.endRead.of_bytes et).setTodo.deliverTo
  · exact hs

theorem State.leadsTo.assignLane {die c : Nat} {d : Dispatch} (hs : s₀.leadsTo s) : s₀.leadsTo (s.assignLane die c d) := by
  delta State.assignLane
  split
  · extract_lets tiles r g1 d1 s1 s2
    have hr : s₀.leadsToSnd r := hs.inputLen
    have hs1 : s₀.leadsTo s1 := hr.setDispatch.putParams
    have hs2 : s₀.leadsTo s2 := hs1.dataPath.deliverTo
    exact .ite hs hs2.emit.moveInput
  · exact hs

theorem State.leadsTo.execGroupAssign {die c : Nat} (hs : s₀.leadsTo s) : s₀.leadsToRes (execGroupAssign die c s) := by
  delta Machine.execGroupAssign
  refine State.leadsToRes.onSlot (State.leadsTo.next ?_)
  split
  · exact hs
  · extract_lets s1
    have hs1 : s₀.leadsTo s1 := hs.foldl (fun s g hs => hs.moveInput)
    split
    · exact hs1
    · exact .ite hs1 hs1.assignLane

theorem State.leadsTo.groupDone {die c value : Nat} (hs : s₀.leadsTo s) : s₀.leadsTo (s.groupDone die c value) := by
  delta State.groupDone
  split
  · exact hs
  · exact .ite hs.setDispatch hs.freeze

theorem State.leadsTo.execDispatchComplete {die c : Nat} (hs : s₀.leadsTo s) : s₀.leadsToRes (execDispatchComplete die c s) := by
  delta Machine.execDispatchComplete
  refine State.leadsToRes.onSlot (State.leadsTo.next ?_)
  split
  · exact hs
  · exact .ite hs.endDispatch (.ite hs.endDispatch hs)

theorem State.leadsTo.setMbox {die m : Nat} {l : List (Nat × Nat)} (hs : s₀.leadsTo s) : s₀.leadsTo (s.setMbox die m l) :=
  hs.same

theorem State.leadsTo.of_nextSummary {die qid i c v : Nat} (hs : s₀.leadsTo s) (e : s.nextSummary die qid = Option.some (i, c, v, t)) :
    s₀.leadsTo t := by
  unfold State.nextSummary at e
  split at e
  · split at e
    · cases e
    · cases e
      exact hs.dropInv
  · split at e
    · cases e
    · dsimp only at e
      split at e
      · cases e
      · cases e
        exact State.leadsTo.foldl hs.fired fun t _ ht => ht.popTok

theorem State.leadsTo.execSummaryMessage {die qid : Nat} (hs : s₀.leadsTo s) : s₀.leadsToRes (execSummaryMessage die qid s) := by
  unfold Machine.execSummaryMessage
  refine State.leadsToRes.onDie (State.leadsTo.next ?_)
  split
  · exact hs
  · next i c v t et =>
    have ht := hs.of_nextSummary et
    exact .ite ht.groupDone (.ite hs ht.setMbox)

theorem State.leadsTo.execGroupComplete {die qid : Nat} (hs : s₀.leadsTo s) : s₀.leadsToRes (execGroupComplete die qid s) := by
  unfold Machine.execGroupComplete
  refine State.leadsToRes.onDie (State.leadsTo.next ?_)
  split
  · exact hs
  · next i c v t et => exact .ite (hs.of_nextSummary et).groupDone hs

theorem State.leadsTo.execSummaryWait {die st : Nat} (hs : s₀.leadsTo s) : s₀.leadsToRes (execSummaryWait die st s) :=
  State.leadsToRes.onStream (State.leadsTo.next (hs.issueHead (fun _ _ _ hs => hs.same.hold)))

theorem State.leadsTo.execSummaryWaitMet {die m : Nat} (hs : s₀.leadsTo s) : s₀.leadsToRes (execSummaryWaitMet die m s) := by
  delta Machine.execSummaryWaitMet
  extract_lets box src
  refine State.leadsToRes.onDie (State.leadsTo.next ?_)
  split
  · exact hs
  · extract_lets n s1 last s2
    have hs1 : s₀.leadsTo s1 := hs.same.setMbox
    have hs2 : s₀.leadsTo s2 := hs1.wr
    refine .ite hs ?_
    split
    · exact hs2.completeEntry
    · exact hs2

theorem State.leadsTo.popMbox {die m : Nat} (hs : s₀.leadsTo s) : s₀.leadsTo (s.popMbox die m) :=
  hs.setMbox

theorem State.leadsTo.idleNotice {die : Nat} (hs : s₀.leadsTo s) : s₀.leadsTo (s.idleNotice die) := by
  delta State.idleNotice
  split
  · exact hs
  · extract_lets s1 src
    have hs1 : s₀.leadsTo s1 := hs.setMbox
    exact .ite hs hs1.sameArr

theorem State.leadsTo.setPort {p : Nat} {v : Port} (hs : s₀.leadsTo s) : s₀.leadsTo (s.setPort p v) :=
  hs.same

theorem State.leadsTo.portGroups (hs : s₀.leadsTo s) : s₀.leadsTo (s.portGroups) :=
  hs.foldl (fun _ _ hs => hs.wr)

theorem State.leadsTo.sendOne {p : Nat} (hs : s₀.leadsTo s) : s₀.leadsToSome (s.sendOne p) := by
  delta State.sendOne
  extract_lets v can lack
  refine .ite ?_ (.none)
  split
  · exact .none
  · split
    · exact .none
    · extract_lets v'
      exact hs.setPort.bump.emit.some

theorem State.leadsTo.pumpN {p n : Nat} (hs : s₀.leadsTo s) : s₀.leadsTo (s.pumpN p n) := by
  induction n generalizing s with
  | zero => exact hs
  | succ n ih =>
    unfold State.pumpN
    split
    · next s1 es1 => exact ih (hs.sendOne _ es1)
    · exact hs

theorem State.leadsTo.pump {p : Nat} (hs : s₀.leadsTo s) : s₀.leadsTo (s.pump p) :=
  hs.pumpN

theorem State.leadsTo.enqueue {fs : List (Nat × Flit)} (hs : s₀.leadsTo s) : s₀.leadsTo (s.enqueue fs) := by
  delta State.enqueue
  extract_lets s1
  have hs1 : s₀.leadsTo s1 := hs.foldl (fun s e hs => hs.setPort)
  exact hs1.foldl (fun s p hs => .ite hs.pump hs)

theorem State.leadsTo.setTx {k : Nat} {v : TxFlow} (hs : s₀.leadsTo s) : s₀.leadsTo (s.setTx k v) :=
  hs.same

theorem State.leadsTo.setRx {k : Nat} {v : RxFlow} (hs : s₀.leadsTo s) : s₀.leadsTo (s.setRx k v) :=
  hs.same

theorem State.leadsTo.spray {dst vc : Nat} {bytes : List Byte} (hs : s₀.leadsTo s) : s₀.leadsTo (s.spray dst vc bytes) := by
  delta State.spray
  extract_lets ps k t fl ports pairs src s1 sent
  have hs1 : s₀.leadsTo s1 := .ite hs hs.same
  exact hs1.setTx.enqueue

theorem State.leadsTo.sendMsg {dst ty ref : Nat} {arg body : List Byte} (hs : s₀.leadsTo s) : s₀.leadsTo (s.sendMsg dst ty ref arg body) := by
  delta State.sendMsg
  extract_lets src vc b s1 src'
  have hs1 : s₀.leadsTo s1 := hs.emit
  exact .ite hs.same (.ite hs.emit (.ite hs1.same hs1.spray))

theorem State.leadsTo.flushWaiting (hs : s₀.leadsTo s) : s₀.leadsTo (s.flushWaiting) :=
  hs.same.foldl (fun _ _ hs => .ite hs.same hs.spray)

theorem State.leadsTo.respray {p : Nat} (hs : s₀.leadsTo s) : s₀.leadsTo (s.respray p) := by
  delta State.respray
  extract_lets v fs s1 place
  have hs1 : s₀.leadsTo s1 := hs.setPort
  exact hs1.bump.enqueue

theorem State.leadsTo.portTo {p st cause : Nat} (hs : s₀.leadsTo s) : s₀.leadsTo (s.portTo p st cause) :=
  hs.wr.wr.broadcast

theorem State.leadsTo.portFault {p cause : Nat} (hs : s₀.leadsTo s) : s₀.leadsTo (s.portFault p cause) := by
  delta State.portFault
  extract_lets v recent s1
  have hs1 : s₀.leadsTo s1 := hs.setPort
  exact hs1.portTo.wr.respray

theorem State.leadsTo.portOff {p : Nat} (hs : s₀.leadsTo s) : s₀.leadsTo (s.portOff p) := by
  delta State.portOff
  extract_lets v s1
  have hs1 : s₀.leadsTo s1 := hs.setPort.portTo
  exact hs1.wr.respray

theorem State.leadsTo.portOn {p : Nat} (hs : s₀.leadsTo s) : s₀.leadsTo (s.portOn p) :=
  .ite hs hs.setPort.portTo

theorem State.leadsTo.retrain {p : Nat} (hs : s₀.leadsTo s) : s₀.leadsTo (s.retrain p) :=
  .ite hs.portFault hs

theorem State.leadsTo.enablePort {p : Nat} {en : Bool} (hs : s₀.leadsTo s) : s₀.leadsTo (s.enablePort p en) := by
  delta State.enablePort
  extract_lets s1
  have hs1 : s₀.leadsTo s1 := hs.wrFlag
  exact .ite (.ite hs1.portOn hs1) (.ite hs1 hs1.portOff)

theorem State.leadsTo.hopAck {p lack : Nat} (hs : s₀.leadsTo s) : s₀.leadsTo (s.hopAck p lack) := by
  delta State.hopAck
  extract_lets v keep
  exact .ite hs.setPort.pump hs

theorem State.leadsTo.replayFrom {p lseq : Nat} (hs : s₀.leadsTo s) : s₀.leadsTo (s.replayFrom p lseq) := by
  delta State.replayFrom
  extract_lets v again lack s1 s2
  have hs1 : s₀.leadsTo s1 := hs.setPort
  have hs2 : s₀.leadsTo s2 := hs1.bump.bump
  exact .ite hs.portFault (hs2.foldl (fun s e hs => hs.emit))

theorem State.leadsTo.execCreditReceive {p vc n lack : Nat} (hs : s₀.leadsTo s) : s₀.leadsToRes (execCreditReceive p vc n lack s) := by
  delta Machine.execCreditReceive
  extract_lets s1 v
  have hs1 : s₀.leadsTo s1 := hs.hopAck
  exact State.leadsToRes.onPort (State.leadsTo.next (.ite hs1.setPort.pump hs))

theorem State.leadsTo.malformed {src : Nat} (hs : s₀.leadsTo s) : s₀.leadsTo (s.malformed src) :=
  hs.bump.detect

theorem State.leadsTo.arrive {src : Nat} {bytes : List Byte} (hs : s₀.leadsTo s) : s₀.leadsTo (s.arrive src bytes) := by
  delta State.arrive
  extract_lets ty len m src'
  exact .ite hs.malformed hs.same

theorem State.leadsTo.deliverFlit {k : Nat} {f : Flit} (hs : s₀.leadsTo s) : s₀.leadsTo (s.deliverFlit k f) := by
  delta State.deliverFlit
  extract_lets r bytes n r' s1 s2
  have hs1 : s₀.leadsTo s1 := hs.setRx
  have hs2 : s₀.leadsTo s2 := .ite hs1.emit hs1
  exact .ite hs2.arrive hs2

theorem State.leadsTo.deliverHeld {k n : Nat} (hs : s₀.leadsTo s) : s₀.leadsTo (s.deliverHeld k n) := by
  induction n generalizing s with
  | zero => exact hs
  | succ n ih =>
    unfold State.deliverHeld
    dsimp only
    split
    · exact ih hs.setRx.deliverFlit
    · exact hs.setRx

theorem State.leadsTo.takeFlit {f : Flit} (hs : s₀.leadsTo s) : s₀.leadsTo (s.takeFlit f) := by
  delta State.takeFlit
  extract_lets k r again s1
  have hs1 : s₀.leadsTo s1 := .ite hs.bump hs
  exact .ite hs.malformed (.ite hs.deliverFlit.deliverHeld (.ite hs1.bump (.ite hs1 hs.setRx)))

theorem State.leadsTo.execDataFlitReceive {p : Nat} {raw : List Byte} (hs : s₀.leadsTo s) : s₀.leadsToRes (execDataFlitReceive p raw s) := by
  delta Machine.execDataFlitReceive
  extract_lets d s1 v nak n lseq s2 s3 vc s4 f
  have hs1 : s₀.leadsTo s1 := hs.bump.bump
  have hs2 : s₀.leadsTo s2 := hs1.setPort
  have hs3 : s₀.leadsTo s3 := hs2.hopAck
  have hs4 : s₀.leadsTo s4 := hs3.bump.emit
  exact State.leadsToRes.onPort (State.leadsTo.next (.ite (.ite (.ite hs1.bump.detect hs1.bump.detect.setPort.bump.emit) (.ite hs1 (.ite (.ite (.ite hs1 hs1.setPort.bump.emit) hs1) hs4.takeFlit))) hs))

theorem State.leadsTo.execE2eAckTimer {src vc flow : Nat} (hs : s₀.leadsTo s) : s₀.leadsToRes (execE2eAckTimer src vc flow s) := by
  delta Machine.execE2eAckTimer
  extract_lets k r
  exact State.leadsTo.next (.ite hs.setRx.emit hs)

theorem State.leadsTo.execReorderTimeout {src vc flow : Nat} (hs : s₀.leadsTo s) : s₀.leadsToRes (execReorderTimeout src vc flow s) := by
  delta Machine.execReorderTimeout
  extract_lets k r first
  refine State.leadsTo.next ?_
  split
  · exact .ite hs.setRx.emit hs
  · exact hs

theorem State.leadsTo.execE2eReceive {dst vc flow : Nat} {ack : Option Nat} {missing : Option (Nat × Nat)} (hs : s₀.leadsTo s) : s₀.leadsToRes (execE2eReceive dst vc flow ack missing s) := by
  delta Machine.execE2eReceive
  extract_lets k src s0 t s1 t1 ports place
  have hs0 : s₀.leadsTo s0 := .ite hs hs.same
  have hs1 : s₀.leadsTo s1 := by
    unfold s1
    split
    · exact hs0.setTx
    · exact hs0
  refine State.leadsTo.next (.ite hs ?_)
  split
  · exact hs1
  · extract_lets named placed s2
    have hs2 : s₀.leadsTo s2 := hs1.setTx
    exact hs2.bump.enqueue

theorem State.leadsTo.declareDead {m : Nat} (hs : s₀.leadsTo s) : s₀.leadsTo (s.declareDead m) := by
  delta State.declareDead
  extract_lets src s1 ports src'
  have hs1 : s₀.leadsTo s1 := hs.bump.detect
  exact hs1.same

theorem State.leadsTo.execProbe {m : Nat} {inbound reset : Bool} {time : Nat} (hs : s₀.leadsTo s) : s₀.leadsToRes (execProbe m inbound reset time s) := by
  delta Machine.execProbe
  extract_lets src s1 b s1' f
  have hs1 : s₀.leadsTo s1 := .ite hs.same hs
  have hs1' : s₀.leadsTo s1' := hs.same
  refine .ite (State.leadsTo.next (.ite (.ite hs hs1.sendMsg) ?_)) (.refused)
  split
  · exact hs
  · exact .ite hs hs1'.emit.enqueue

theorem State.leadsTo.execProbeReply {m : Nat} (hs : s₀.leadsTo s) : s₀.leadsToRes (execProbeReply m s) :=
  .ite (State.leadsTo.next (.ite hs.same hs)) (.refused)

theorem State.leadsTo.setRoute {m primary alt : Nat} (hs : s₀.leadsTo s) : s₀.leadsTo (s.setRoute m primary alt) :=
  hs.wr.wr.flushWaiting

theorem State.leadsTo.takeInbox {src ty : Nat} (hs : s₀.leadsTo s) : s₀.leadsTo (s.takeInbox src ty) := by
  delta State.takeInbox
  extract_lets src'
  split
  · exact hs.same
  · exact hs

theorem State.leadsTo.execMalformedMsg {src ty : Nat} (hs : s₀.leadsTo s) : s₀.leadsToRes (execMalformedMsg src ty s) :=
  hs.takeInbox.malformed.next

theorem State.leadsTo.edgeState {e : Nat} (hs : s₀.leadsTo s) : s₀.leadsTo (s.edgeState e) := by
  delta State.edgeState
  extract_lets up st
  exact .ite hs hs.wr.broadcast

theorem State.leadsTo.execVelvetReplay {e j n : Nat} (hs : s₀.leadsTo s) : s₀.leadsToRes (execVelvetReplay e j n s) := by
  delta Machine.execVelvetReplay
  extract_lets s1 src
  have hs1 : s₀.leadsTo s1 := hs.bump.detect
  exact State.leadsToRes.onEdge hs1.same.next

theorem State.leadsTo.setJState {v : Nat} (hs : s₀.leadsTo s) : s₀.leadsTo (s.setJState v) :=
  hs.wr

theorem State.leadsTo.newRecordFor {origin : Option Nat} {slot : Nat} {pay : JPay} (hs : s₀.leadsTo s) : s₀.leadsTo (s.newRecordFor origin slot pay) := by
  delta State.newRecordFor
  extract_lets n s1 src
  have hs1 : s₀.leadsTo s1 := hs.wr
  exact hs1.same

theorem State.leadsTo.newRecord {slot : Nat} {pay : JPay} (hs : s₀.leadsTo s) : s₀.leadsTo (s.newRecord slot pay) :=
  hs.newRecordFor

theorem State.leadsTo.sendRecords {dst ty : Nat} {rs : List JRec} (hs : s₀.leadsTo s) : s₀.leadsTo (s.sendRecords dst ty rs) := by
  delta State.sendRecords
  extract_lets s1 mark src
  have hs1 : s₀.leadsTo s1 := hs.sendMsg
  exact hs1.same

theorem State.leadsTo.execJournalBatch (hs : s₀.leadsTo s) : s₀.leadsToRes (execJournalBatch s) := by
  delta Machine.execJournalBatch
  extract_lets marks s1 src s2
  have hs1 : s₀.leadsTo s1 := .ite hs hs.newRecord
  have hs2 : s₀.leadsTo s2 := hs1.same
  refine State.leadsTo.next ?_
  split
  · exact hs
  · exact .ite hs hs2.sendRecords

theorem State.leadsTo.noteRound {t : Nat} (hs : s₀.leadsTo s) : s₀.leadsTo (s.noteRound t) :=
  hs.wr

theorem State.leadsTo.execJournalHbTimer (hs : s₀.leadsTo s) : s₀.leadsToRes (execJournalHbTimer s) := by
  delta Machine.execJournalHbTimer
  refine State.leadsTo.next ?_
  split
  · exact hs
  · extract_lets s1 src
    have hs1 : s₀.leadsTo s1 := hs.sendMsg
    exact .ite hs hs1.same

theorem State.leadsTo.sendAck {p : Nat} (hs : s₀.leadsTo s) : s₀.leadsTo (s.sendAck p) := by
  delta State.sendAck
  extract_lets s1 src
  have hs1 : s₀.leadsTo s1 := hs.sendMsg
  exact hs1.same

theorem State.leadsTo.execRefusedBatchAck (hs : s₀.leadsTo s) : s₀.leadsToRes (execRefusedBatchAck s) := by
  delta Machine.execRefusedBatchAck
  refine State.leadsTo.next ?_
  split
  · exact .ite hs.sendAck hs
  · exact hs

theorem State.leadsTo.holdRecord {r : JRec} (hs : s₀.leadsTo s) : s₀.leadsTo (s.holdRecord r) := by
  delta State.holdRecord
  extract_lets all src
  exact .ite hs.same hs

theorem State.leadsTo.hear (hs : s₀.leadsTo s) : s₀.leadsTo (s.hear) :=
  hs.same

theorem State.leadsTo.journalError {kind : Nat} (hs : s₀.leadsTo s) : s₀.leadsTo (s.journalError kind) := by
  delta State.journalError
  extract_lets s1 src
  have hs1 : s₀.leadsTo s1 := hs.detect
  exact hs1.same

theorem State.leadsTo.execJrnlHeartbeat {src : Nat} (hs : s₀.leadsTo s) : s₀.leadsToRes (execJrnlHeartbeat src s) := by
  delta Machine.execJrnlHeartbeat
  extract_lets s1
  have hs1 : s₀.leadsTo s1 := hs.takeInbox
  exact State.leadsTo.next (.ite hs (.ite hs1.hear hs1))

theorem State.leadsTo.sendReply {q key session op seq status detail : Nat} {dup : Bool} {body : List Byte} (hs : s₀.leadsTo s) : s₀.leadsTo (s.sendReply q key session op seq status detail dup body) := by
  delta State.sendReply
  extract_lets s1 cr h tag
  have hs1 : s₀.leadsTo s1 := by
    unfold s1
    split
    · exact hs.setQp
    · exact hs
  exact hs1.emit

theorem State.leadsTo.releaseReply {q key session seq op status detail : Nat} {body : List Byte} (hs : s₀.leadsTo s) : s₀.leadsTo (s.releaseReply q key session seq op status detail body) := by
  delta State.releaseReply
  extract_lets i
  split
  · exact hs.sendReply
  · extract_lets via
    split
    · exact hs.sendReply
    · extract_lets s1 s2
      have hs1 : s₀.leadsTo s1 := hs.setSession
      have hs2 : s₀.leadsTo s2 := hs1.sendReply
      exact hs2.foldl (fun s w hs => hs.sendReply)

theorem State.leadsTo.answer {q key session seq : Nat} {tag : BitVec 128} {op status detail : Nat} {body : List Byte} (hs : s₀.leadsTo s) : s₀.leadsTo (s.answer q key session seq tag op status detail body) :=
  .ite hs.releaseReply hs.newRecord

theorem State.leadsTo.answerSeq {i seq status detail : Nat} {body : List Byte} (hs : s₀.leadsTo s) : s₀.leadsTo (s.answerSeq i seq status detail body) := by
  delta State.answerSeq
  split
  · exact hs
  · split
    · exact hs
    · exact hs.answer

theorem State.leadsTo.complete {i seq status detail : Nat} (hs : s₀.leadsTo s) : s₀.leadsTo (s.complete i seq status detail) := by
  delta State.complete
  extract_lets op
  exact hs.newRecord

theorem State.leadsTo.journalSession {i : Nat} (hs : s₀.leadsTo s) : s₀.leadsTo (s.journalSession i) :=
  .ite hs hs.newRecord

theorem State.leadsTo.journalReg {addr value : Nat} (hs : s₀.leadsTo s) : s₀.leadsTo (s.journalReg addr value) :=
  hs.newRecord

theorem State.leadsTo.renewLease (hs : s₀.leadsTo s) : s₀.leadsTo (s.renewLease) := by
  delta State.renewLease
  extract_lets ns src
  exact hs.same

theorem State.leadsTo.setOwner {o : Option Nat} (hs : s₀.leadsTo s) : s₀.leadsTo (s.setOwner o) := by
  delta State.setOwner
  extract_lets v s1 src s2
  have hs1 : s₀.leadsTo s1 := hs.wrFlag.wr
  have hs2 : s₀.leadsTo s2 := .ite hs1.renewLease hs1.same
  exact hs2.journalReg

theorem State.leadsTo.tellOwner {word : Nat} (hs : s₀.leadsTo s) : s₀.leadsTo (s.tellOwner word) :=
  hs.broadcast

theorem State.leadsTo.migComplete {r status done : Nat} (hs : s₀.leadsTo s) : s₀.leadsTo (s.migComplete r status done) := by
  delta State.migComplete
  extract_lets t slot rec16 s1
  have hs1 : s₀.leadsTo s1 := hs.sysWrite.wr
  exact .ite hs1.emit hs1

theorem State.leadsTo.pageDone {op pn : Nat} {fail : Option Nat} (hs : s₀.leadsTo s) : s₀.leadsTo (s.pageDone op pn fail) :=
  hs.sameMas

theorem State.leadsTo.mapPage {pn budget mwin : Nat} (hs : s₀.leadsTo s) : s₀.leadsTo (s.mapPage pn budget mwin) := by
  delta State.mapPage
  split
  · exact hs
  · exact hs.masZero.newPte

theorem State.leadsTo.mapRange {pns : List Nat} {budget mwin : Nat} (hs : s₀.leadsTo s) : s₀.leadsToFst (s.mapRange pns budget mwin) := by
  delta State.mapRange
  extract_lets good
  exact .ite hs (hs.foldl (fun s pn hs => hs.mapPage))

theorem State.leadsTo.sealPage {pn len place : Nat} {nodeep : Bool} (hs : s₀.leadsTo s) : s₀.leadsTo (s.sealPage pn len place nodeep) := by
  delta State.sealPage
  extract_lets s1
  have hs1 : s₀.leadsTo s1 := hs.masZero
  split
  · exact hs
  · exact hs1.setPte

theorem State.leadsTo.markFreeing {pn : Nat} (hs : s₀.leadsTo s) : s₀.leadsToSome (s.markFreeing pn) := by
  delta State.markFreeing
  split
  · exact .none
  · exact .ite (.none) hs.shootdown.setPte.some

theorem State.leadsTo.clearRecord {d x : Nat} (hs : s₀.leadsTo s) : s₀.leadsTo (s.clearRecord d x) := by
  delta State.clearRecord
  split
  · exact hs
  · exact hs.setDrive

theorem State.leadsTo.releasePage {pn : Nat} (hs : s₀.leadsTo s) : s₀.leadsTo (s.releasePage pn) := by
  delta State.releasePage
  split
  · exact hs
  · extract_lets s1
    have hs1 : s₀.leadsTo s1 := .ite hs.clearRecord hs
    exact hs1.shootdown.masZero.dropPte

theorem State.leadsTo.copyJob {pn : Nat} {kind : MigKind} {cls stack frame : Nat} (hs : s₀.leadsTo s) : s₀.leadsTo (s.copyJob pn kind cls stack frame) := by
  delta State.copyJob
  split
  · exact hs
  · exact hs.addJob.setMoving

theorem State.leadsTo.demote {pn cls : Nat} (hs : s₀.leadsTo s) : s₀.leadsToFst (s.demote pn cls) := by
  delta State.demote
  split
  · exact hs
  · refine .ite hs.dropNear.bump (.ite hs.copyJob (.ite hs (.ite hs.dropNear.bump ?_)))
    split
    · exact hs
    · exact hs.copyJob

theorem State.leadsTo.demoteRequest {pn : Nat} (hs : s₀.leadsTo s) : s₀.leadsToFst (s.demoteRequest pn) :=
  .ite hs.addJob hs.demote

theorem State.leadsTo.setPlace {pn place budget : Nat} (hs : s₀.leadsTo s) : s₀.leadsTo (s.setPlace pn place budget) := by
  delta State.setPlace
  split
  · exact hs
  · exact hs.setPte

theorem State.leadsTo.demoteOne {pn : Nat} {p : Pte} (hs : s₀.leadsTo s) : s₀.leadsToPage (s.demoteOne pn p) := by
  delta State.demoteOne
  refine .ite (.fail) (.ite hs.donePage (.ite (.fail) ?_))
  split
  · exact .ite hs.pendingPage (.blocked)
  · split
    · next t et =>
        have ht : s₀.leadsTo t := State.leadsToFst.of_eq hs.demoteRequest et
        exact ht.donePage
    · next t et =>
        have ht : s₀.leadsTo t := State.leadsToFst.of_eq hs.demoteRequest et
        exact ht.pendingPage
    · next fst efst =>
        have hfst : s₀.leadsTo fst := State.leadsToFst.of_eq hs.demoteRequest efst
        exact .fail

theorem State.leadsTo.setPlaceOne {pn : Nat} {p : Pte} {place budget : Nat} (hs : s₀.leadsTo s) : s₀.leadsToPage (s.setPlaceOne pn p place budget) :=
  .ite (.fail) (.ite (.ite (.fail) (.ite (.blocked) (.ite (.fail) hs.copyJob.pendingPage))) hs.setPlace.donePage)

theorem State.leadsTo.dropOne {pn : Nat} {p : Pte} {tier : Nat} (hs : s₀.leadsTo s) : s₀.leadsToPage (s.dropOne pn p tier) :=
  .ite (.fail) (.ite hs.donePage (.ite (.blocked) (.ite (.fail) (.ite hs.setPte.donePage hs.clearRecord.setPte.donePage))))

theorem State.leadsTo.pageOp {q : MigReq} {pn : Nat} (hs : s₀.leadsTo s) : s₀.leadsToPage (s.pageOp q pn) := by
  delta State.pageOp
  split
  · refine .ite (.fail) (.ite (.blocked) ?_)
    split
    · next t et =>
        have ht : s₀.leadsTo t := hs.markFreeing _ et
        exact ht.pendingPage
    · exact .fail
  · refine .ite (.blocked) ?_
    split
    · exact .ite (.fail) (.ite hs.mapPage.donePage (.fail))
    · exact .ite (.fail) (.fail)
    · exact .fail
    · exact .ite (.fail) hs.setPte.pendingPage
    · exact .ite (.fail) (.ite hs.donePage hs.requestPromotion.pendingPage)
    · exact hs.demoteOne
    · exact hs.setPlaceOne
    · exact hs.dropOne

theorem State.leadsTo.runPages {n : Nat} {q : MigReq} (hs : s₀.leadsTo s) : s₀.leadsToFst (State.runPages n s q) := by
  induction n generalizing s q with
  | zero => exact hs
  | succ n ih =>
    unfold State.runPages
    split
    · exact hs
    · refine .ite hs ?_
      split
      · next t et => exact ih (hs.pageOp.of_done et)
      · next t et => exact ih (hs.pageOp.of_pending et)
      · exact hs
      · exact hs

theorem State.leadsTo.runReqs (hs : s₀.leadsTo s) : s₀.leadsTo (s.runReqs) := by
  delta State.runReqs
  extract_lets src
  refine hs.sameMas.foldl (fun s q hs => ?_)
  extract_lets r src' src''
  have hr : s₀.leadsToFst r := hs.runPages
  have hsrc' : s₀.leadsTo src' := hr
  exact .ite hr.migComplete hsrc'.sameMas

theorem State.leadsTo.settleMig (hs : s₀.leadsTo s) : s₀.leadsTo (s.settleMig) :=
  hs.placeWaiting.runReqs

theorem State.leadsTo.takeRequest {op r : Nat} (hs : s₀.leadsTo s) : s₀.leadsTo (s.takeRequest op r) := by
  delta State.takeRequest
  extract_lets h s1 q src
  have hs1 : s₀.leadsTo s1 := hs.sysWrite.wr
  exact .ite hs (.ite hs1.sameMas.runReqs hs1.migComplete)

theorem State.leadsTo.execMap {req : BitVec 256} (hs : s₀.leadsTo s) : s₀.leadsToRes (execMap req s) :=
  hs.takeRequest.next

theorem State.leadsTo.execSeal {req : BitVec 256} (hs : s₀.leadsTo s) : s₀.leadsToRes (execSeal req s) :=
  hs.takeRequest.next

theorem State.leadsTo.execFree {req : BitVec 256} (hs : s₀.leadsTo s) : s₀.leadsToRes (execFree req s) :=
  hs.takeRequest.next

theorem State.leadsTo.execPromote {req : BitVec 256} (hs : s₀.leadsTo s) : s₀.leadsToRes (execPromote req s) :=
  hs.takeRequest.next

theorem State.leadsTo.execDemote {req : BitVec 256} (hs : s₀.leadsTo s) : s₀.leadsToRes (execDemote req s) :=
  hs.takeRequest.next

theorem State.leadsTo.execSetPlace {req : BitVec 256} (hs : s₀.leadsTo s) : s₀.leadsToRes (execSetPlace req s) :=
  hs.takeRequest.next

theorem State.leadsTo.execDrop {req : BitVec 256} (hs : s₀.leadsTo s) : s₀.leadsToRes (execDrop req s) :=
  hs.takeRequest.next

theorem State.leadsTo.execSealFinish {pn : Nat} (hs : s₀.leadsTo s) : s₀.leadsToRes (execSealFinish pn s) := by
  delta Machine.execSealFinish
  refine State.leadsTo.next ?_
  split
  · exact hs
  · extract_lets r
    exact hs.sealPage.pageDone.settleMig

theorem State.leadsTo.execFreeRelease {pn : Nat} (hs : s₀.leadsTo s) : s₀.leadsToRes (execFreeRelease pn s) := by
  delta Machine.execFreeRelease
  refine State.leadsTo.next ?_
  split
  · exact hs
  · exact .ite hs.releasePage.pageDone.settleMig hs

theorem State.leadsTo.writeDeep {pn d x : Nat} (hs : s₀.leadsTo s) : s₀.leadsTo (s.writeDeep pn d x) := by
  delta State.writeDeep
  extract_lets q src
  split
  · extract_lets rc
    exact hs.sameMas.setDrive
  · exact hs

theorem State.leadsTo.movePage {pn : Nat} {ks : List Nat} (hs : s₀.leadsTo s) : s₀.leadsTo (s.movePage pn ks) := by
  delta State.movePage
  split
  · exact hs.shootdown.setPte
  · exact hs

theorem State.leadsTo.leaveStack {pn : Nat} (hs : s₀.leadsTo s) : s₀.leadsTo (s.leaveStack pn) := by
  delta State.leaveStack
  split
  · exact hs
  · refine .ite hs (.ite hs.movePage ?_)
    have hdemote : s₀.leadsToFst (s.demote pn 2) := hs.demote
    generalize s.demote pn 2 = r at hdemote
    obtain ⟨t, result⟩ := r
    cases result with
    | nofit => exact State.leadsTo.movePage hdemote
    | _ => exact hdemote

theorem State.leadsTo.endJob {pn : Nat} (hs : s₀.leadsTo s) : s₀.leadsTo (s.endJob pn) := by
  delta State.endJob
  extract_lets s1
  have hs1 : s₀.leadsTo s1 := hs.dropJob.setMoving.leaveStack
  split
  · exact hs
  · split
    · exact hs1.requestPromotion
    · exact hs1

theorem State.leadsTo.partDone {e : Nat} {j : MigJob} (hs : s₀.leadsTo s) : s₀.leadsToFst (s.partDone e j) := by
  delta State.partDone
  extract_lets src s1 left
  have hs1 : s₀.leadsTo s1 := hs.sameMas
  exact hs1.setJob

theorem State.leadsTo.promoted {pn : Nat} {j : MigJob} (hs : s₀.leadsTo s) : s₀.leadsTo (s.promoted pn j) := by
  delta State.promoted
  extract_lets seq
  split
  · exact hs
  · extract_lets s1 src s2
    have hs1 : s₀.leadsTo s1 := hs.setPte
    have hs2 : s₀.leadsTo s2 := hs1.sameMas.endJob
    exact hs2.bump.bump.pageDone

theorem State.leadsTo.demoted {pn : Nat} (hs : s₀.leadsTo s) : s₀.leadsTo (s.demoted pn) := by
  delta State.demoted
  refine .ite (.ite ?_ hs.endJob) hs.dropNear.endJob.bump.pageDone
  split
  · exact hs.setJob.setMoving
  · exact hs

theorem State.leadsTo.transferred {pn : Nat} {j : MigJob} (hs : s₀.leadsTo s) : s₀.leadsTo (s.transferred pn j) := by
  delta State.transferred
  split
  · exact hs
  · extract_lets bulk deep b
    have hbulk : s₀.leadsTo bulk := hs.setPte
    have hdeep : s₀.leadsTo deep := hs.setPte.writeDeep
    have hb : s₀.leadsTo b := by
      unfold b
      split
      · exact hbulk.setPlace
      · exact hbulk
    split
    · exact hs
    · exact hs
    · exact hbulk.bump.demoted
    · exact hdeep.bump.demoted
    · exact hdeep.bump.endJob
    · exact hb.bump.endJob.pageDone

theorem State.leadsTo.demoteAgain {pn cls : Nat} (hs : s₀.leadsTo s) : s₀.leadsTo (s.demoteAgain pn cls) := by
  delta State.demoteAgain
  split
  · next t et =>
      have ht : s₀.leadsTo t := State.leadsToFst.of_eq hs.demote et
      exact ht.pageDone
  · next t et =>
      have ht : s₀.leadsTo t := State.leadsToFst.of_eq hs.demote et
      exact ht
  · next t et =>
      have ht : s₀.leadsTo t := State.leadsToFst.of_eq hs.demote et
      exact ht.pageDone

theorem State.leadsTo.demoteNow {pn : Nat} (hs : s₀.leadsTo s) : s₀.leadsTo (s.demoteNow pn) := by
  delta State.demoteNow
  refine .ite hs ?_
  split
  · exact hs
  · exact .ite hs.dropJob.demoteAgain hs.dropJob.pageDone

theorem State.leadsTo.fixJob {pn : Nat} (hs : s₀.leadsTo s) : s₀.leadsTo (s.fixJob pn) := by
  delta State.fixJob
  split
  · exact .ite (hs.dropJob.setMoving.foldl (fun s op hs => hs.pageDone)) (.ite hs.endJob.pageDone hs.setJob)
  · exact hs.dropJob
  · exact hs

theorem State.leadsTo.retireNear {p : Pte} (hs : s₀.leadsTo s) : s₀.leadsTo (s.retireNear p) := by
  delta State.retireNear
  extract_lets fr src
  exact hs.sameMas

theorem State.leadsTo.dropBulkOf {pn : Nat} {p : Pte} (hs : s₀.leadsTo s) : s₀.leadsTo (s.dropBulkOf pn p) :=
  hs.sameMas.setPte.fixJob

theorem State.leadsTo.dropDeepOf {pn : Nat} {p : Pte} (hs : s₀.leadsTo s) : s₀.leadsTo (s.dropDeepOf pn p) := by
  delta State.dropDeepOf
  extract_lets s1
  have hs1 : s₀.leadsTo s1 := by
    unfold s1
    split
    · exact hs
    · exact hs.setDrive
  exact hs1.setPte.fixJob

theorem State.leadsTo.badSource {pn : Nat} (hs : s₀.leadsTo s) : s₀.leadsTo (s.badSource pn) := by
  delta State.badSource
  extract_lets s1
  have hs1 : s₀.leadsTo s1 := hs.bump
  split
  · exact hs
  · exact .ite hs1.retireNear.dropNear.fixJob (.ite hs1.dropBulkOf hs1.dropDeepOf)

theorem State.leadsTo.repeatCopy {pn : Nat} (hs : s₀.leadsTo s) : s₀.leadsTo (s.repeatCopy pn) := by
  delta State.repeatCopy
  split
  · exact .ite hs.badSource hs.setJob
  · exact hs

theorem State.leadsTo.retarget {j : MigJob} (hs : s₀.leadsTo s) : s₀.leadsTo (s.retarget j) := by
  delta State.retarget
  extract_lets pn s1
  have hs1 : s₀.leadsTo s1 := hs.dropJob.setMoving
  split
  · exact hs1.demoteAgain
  · exact hs1.demoteAgain
  · exact .ite hs1.pageDone hs1.copyJob
  · split
    · exact hs1.copyJob
    · exact hs1
  · exact hs
  · exact hs

theorem State.leadsTo.afterLoss {hit : Pte → Bool} {drop : Pte → Pte} {target : MigJob → Bool} (hs : s₀.leadsTo s) : s₀.leadsTo (s.afterLoss hit drop target) := by
  delta State.afterLoss
  extract_lets pns src s1 s2
  have hs1 : s₀.leadsTo s1 := hs.sameMas
  have hs2 : s₀.leadsTo s2 := hs1.foldl (fun s j hs => hs.retarget)
  exact hs2.foldl (fun s pn hs => hs.fixJob)

theorem State.leadsTo.dropBulk (hs : s₀.leadsTo s) : s₀.leadsTo (s.dropBulk) :=
  hs.sameMas.afterLoss

theorem State.leadsTo.channelFail {ch : Nat} (hs : s₀.leadsTo s) : s₀.leadsTo (s.channelFail ch) := by
  delta State.channelFail
  extract_lets st mine
  exact .ite hs.wr.wr.dropBulk (.ite hs hs.wr.wr.dropBulk)

theorem State.leadsTo.driveFail {d : Nat} (hs : s₀.leadsTo s) : s₀.leadsTo (s.driveFail d) := by
  delta State.driveFail
  extract_lets s1 src
  have hs1 : s₀.leadsTo s1 := hs.wr.wr
  exact hs1.sameMas.afterLoss

theorem State.leadsTo.placement {n : Nat} {skip : List Nat} (hs : s₀.leadsTo s) : s₀.leadsTo (s.placement n skip) := by
  induction n generalizing s skip with
  | zero => exact hs
  | succ n ih =>
    unfold State.placement
    refine .ite hs ?_
    split
    · exact hs
    · exact ih hs.demote

theorem State.leadsTo.execPlacementDemotion (hs : s₀.leadsTo s) : s₀.leadsToRes (execPlacementDemotion s) :=
  State.leadsTo.next (.ite hs.placement.settleMig hs)

theorem State.leadsTo.execBulkToDeepCopy (hs : s₀.leadsTo s) : s₀.leadsToRes (execBulkToDeepCopy s) := by
  delta Machine.execBulkToDeepCopy
  extract_lets s1
  have hs1 : s₀.leadsTo s1 := by
    unfold s1
    refine .ite ?_ hs
    split
    · exact hs.setPte.settleMig
    · exact hs
  refine State.leadsTo.next ?_
  split
  · exact hs1.copyJob
  · exact hs1

theorem State.leadsTo.execAccessEpoch (hs : s₀.leadsTo s) : s₀.leadsToRes (execAccessEpoch s) :=
  State.leadsTo.next (.ite hs.sameMas hs)

theorem State.leadsTo.moveRetired {die : Nat} (hs : s₀.leadsTo s) : s₀.leadsTo (s.moveRetired die) := by
  delta State.moveRetired
  extract_lets mine here s1 src
  have hs1 : s₀.leadsTo s1 := hs.foldl (fun s pn hs => hs.movePage)
  exact hs1.sameMas

theorem Fuses.burnsTo_retiredStacks (f : Fuses) (l : List Nat) : f.burnsTo { f with retiredStacks := l } := { Fuses.burnsTo.refl f with }

theorem State.leadsTo.retireStack {k : Nat} (hs : s₀.leadsTo s) : s₀.leadsTo (s.retireStack k) := by
  unfold State.retireStack
  extract_lets online s1 _ _ s2 s3 s4 here
  have hs1 : s₀.leadsTo s1 := hs.wr
  have hs2 : s₀.leadsTo s2 := State.leadsTo.sameMas (hs1.burn_of (s1.fuses.burnsTo_retiredStacks (s1.fuses.retiredStacks ++ [k])))
  have hs3 : s₀.leadsTo s3 := hs2.foldl fun t i ht => ht.wr
  have hs4 : s₀.leadsTo s4 := hs3.foldl fun t j ht => ht.setJob
  exact .ite hs (State.leadsTo.foldl hs4 fun t pn ht => ht.leaveStack).moveTables.settleMig.shrink

theorem State.leadsTo.recreate {d x : Nat} {r : DeepRec} (hs : s₀.leadsTo s) : s₀.leadsTo (s.recreate d x r) :=
  hs.newPte.setPageData

theorem State.leadsTo.scanRecord {d x : Nat} {r : DeepRec} (hs : s₀.leadsTo s) : s₀.leadsTo (s.scanRecord d x r) := by
  delta State.scanRecord
  refine .ite hs.clearRecord ?_
  split
  · exact .ite hs.recreate hs
  · extract_lets other
    exact .ite hs.clearRecord.recreate hs.clearRecord

theorem State.leadsTo.deepScan (hs : s₀.leadsTo s) : s₀.leadsTo (s.deepScan) := by
  delta State.deepScan
  extract_lets src s1
  have hs1 : s₀.leadsTo s1 := hs.sameMas
  exact .ite (hs1.foldl (fun s e hs => .ite (hs.foldl (fun s q hs => hs.scanRecord)) hs)) hs

theorem State.leadsTo.execDeepCatalogueScan (hs : s₀.leadsTo s) : s₀.leadsToRes (execDeepCatalogueScan s) :=
  hs.deepScan.next

theorem State.leadsTo.setReq {slot : Nat} {r : Req} (hs : s₀.leadsTo s) : s₀.leadsTo (s.setReq slot r) :=
  hs.same

theorem State.leadsTo.freeReq {slot : Nat} (hs : s₀.leadsTo s) : s₀.leadsTo (s.freeReq slot) :=
  hs.same

theorem State.leadsTo.setPkg {h : Nat} {p : Pkg} (hs : s₀.leadsTo s) : s₀.leadsTo (s.setPkg h p) :=
  hs.same

theorem State.leadsTo.dropPkg {h : Nat} (hs : s₀.leadsTo s) : s₀.leadsTo (s.dropPkg h) :=
  hs.same

theorem State.leadsTo.freePkg {h : Nat} (hs : s₀.leadsTo s) : s₀.leadsTo (s.freePkg h) := by
  delta State.freePkg
  extract_lets mine
  split
  · exact hs
  · exact .dropPkg (.newRecord (hs.foldl (fun s pn hs => State.leadsToSome.getD hs.markFreeing hs)))

theorem State.leadsTo.setLevel {t : Nat} {v : Int} (hs : s₀.leadsTo s) : s₀.leadsTo (s.setLevel t v) :=
  hs.same

theorem State.leadsTo.charge {t n : Nat} (hs : s₀.leadsTo s) : s₀.leadsTo (s.charge t n) :=
  hs.setLevel

theorem State.leadsTo.refillOne {t : Nat} (hs : s₀.leadsTo s) : s₀.leadsTo (s.refillOne t) := by
  delta State.refillOne
  extract_lets cap l
  exact .ite hs hs.setLevel

theorem State.leadsTo.budgetApply {t word v : Nat} (hs : s₀.leadsTo s) : s₀.leadsTo (s.budgetApply t word v) := by
  delta State.budgetApply
  split
  · exact hs.wr
  · exact hs.wr
  · exact hs.wr
  · exact hs.setLevel

theorem State.leadsTo.budgetWrite {t word v : Nat} (hs : s₀.leadsTo s) : s₀.leadsTo (s.budgetWrite t word v) :=
  hs.same

theorem State.leadsTo.execLevel {t v : Nat} (hs : s₀.leadsTo s) : s₀.leadsToRes (execLevel t v s) :=
  .ite (State.leadsTo.next (.ite hs.turnAway hs.budgetWrite)) (.refused)

theorem State.leadsTo.setPfx {t h : Nat} {v : Pfx} (hs : s₀.leadsTo s) : s₀.leadsTo (s.setPfx t h v) :=
  hs.same

theorem State.leadsTo.journalPfx {t h : Nat} (hs : s₀.leadsTo s) : s₀.leadsTo (s.journalPfx t h) := by
  delta State.journalPfx
  split
  · exact hs.newRecord
  · exact hs

theorem State.leadsTo.unrefPfx {i h n : Nat} (hs : s₀.leadsTo s) : s₀.leadsTo (s.unrefPfx i h n) := by
  induction n generalizing s h with
  | zero => exact hs
  | succ n ih =>
    unfold State.unrefPfx
    split
    · exact hs
    · next v _ =>
      have hfree : s₀.leadsTo (v.pages.foldl (fun (s : State) pn => (s.markFreeing pn).getD s) s) :=
        hs.foldl fun t pn ht => ht.markFreeing.getD ht
      exact .ite (.ite (hfree.same) (ih (hfree.same))) hs.setPfx

theorem State.leadsTo.releasePfx {t h : Nat} (hs : s₀.leadsTo s) : s₀.leadsToSnd (s.releasePfx t h) := by
  delta State.releasePfx
  split
  · exact hs
  · extract_lets s1
    have hs1 : s₀.leadsTo s1 := hs.setPfx.journalPfx
    exact .ite hs hs1.unrefPfx

theorem State.leadsTo.dropKv {slot : Nat} (hs : s₀.leadsTo s) : s₀.leadsTo (s.dropKv slot) := by
  delta State.dropKv
  split
  · exact hs
  · extract_lets mine s1
    have hs1 : s₀.leadsTo s1 := by
      unfold s1
      refine hs.foldl (fun s pn hs => ?_)
      split
      · exact .ite hs (State.leadsToSome.getD hs.markFreeing hs)
      · exact hs
    exact hs1.setReq

theorem State.leadsTo.answerCancels {r : Req} (hs : s₀.leadsTo s) : s₀.leadsTo (s.answerCancels r) :=
  hs.foldl (fun _ _ hs => .ite hs.answerSeq hs.answerSeq)

theorem State.leadsTo.endReq {slot : Nat} {f : Final} (hs : s₀.leadsTo s) : s₀.leadsTo (s.endReq slot f) := by
  delta State.endReq
  extract_lets s0
  have hs0 : s₀.leadsTo s0 := hs.dropKv
  split
  · exact hs
  · extract_lets src r s1 s2 s3 s4 s5 rec'
    have hs1 : s₀.leadsTo s1 := hs0.setReq
    have hs2 : s₀.leadsTo s2 := .ite hs1.unrefPfx hs1
    have hs3 : s₀.leadsTo s3 := by
      unfold s3
      refine .ite ?_ hs2
      split
      · extract_lets s3'
        have hs3' : s₀.leadsTo s3' := hs2.setPkg
        exact .ite hs3'.freePkg hs3'
      · exact hs2
    have hs4 : s₀.leadsTo s4 := hs3.setReq
    have hs5 : s₀.leadsTo s5 := hs4.answerCancels
    refine .ite hs ?_
    split
    · exact hs5.sendMsg.freeReq
    · exact hs5.newRecord

theorem State.leadsTo.growKv {slot : Nat} (hs : s₀.leadsTo s) : s₀.leadsTo (s.growKv slot) := by
  delta State.growKv
  split
  · exact hs
  · extract_lets prompt out
    split
    · exact hs
    · extract_lets a b base add new
      exact .ite hs.endReq (.setReq (hs.foldl (fun s pn hs => hs.mapPage)))

theorem State.leadsTo.noteLatency {cls ns : Nat} {first : Bool} (hs : s₀.leadsTo s) : s₀.leadsTo (s.noteLatency cls ns first) :=
  .ite (.ite hs.bump hs.bump) (.ite hs.bump hs.bump)

theorem State.leadsTo.ringPut {k : Nat} {t : RingTok} (hs : s₀.leadsTo s) : s₀.leadsTo (s.ringPut k t) := by
  delta State.ringPut
  extract_lets src
  split
  · exact hs
  · exact hs.same

theorem State.leadsTo.measure {h key t : Nat} (hs : s₀.leadsTo s) : s₀.leadsTo (s.measure h key t) := by
  delta State.measure
  extract_lets e v src
  exact hs.same

theorem State.leadsTo.setFlights {h : Nat} {l : List Flight} (hs : s₀.leadsTo s) : s₀.leadsTo (s.setFlights h l) :=
  hs.same

theorem State.leadsTo.flightCommit {h slot : Nat} (hs : s₀.leadsTo s) : s₀.leadsTo (s.flightCommit h slot) := by
  delta State.flightCommit
  split
  · exact hs
  · extract_lets f'
    exact .ite hs.setFlights.measure hs.setFlights

theorem State.leadsTo.commitToken {slot index value : Nat} (hs : s₀.leadsTo s) : s₀.leadsTo (s.commitToken slot index value) := by
  delta State.commitToken
  split
  · exact hs
  · extract_lets first span last r' s1 s2 s3
    have hs1 : s₀.leadsTo s1 := hs.setReq.charge.noteLatency
    have hs2 : s₀.leadsTo s2 := hs1.ringPut
    have hs3 : s₀.leadsTo s3 := hs2.flightCommit
    exact .ite hs (.ite hs3.endReq (.ite hs3.endReq hs3))

theorem State.leadsTo.admitNow {slot : Nat} {r : Req} {p : Pkg} (hs : s₀.leadsTo s) : s₀.leadsTo (s.admitNow slot r p) := by
  delta State.admitNow
  extract_lets n charge takePfx takeAd s1 s2 r'
  have hs1 : s₀.leadsTo s1 := by
    unfold s1
    refine .ite ?_ hs
    split
    · exact hs.setPfx
    · exact hs
  have hs2 : s₀.leadsTo s2 := by
    unfold s2
    refine .ite ?_ hs1
    split
    · exact hs1.setPkg
    · exact hs1
  exact hs2.setReq.charge

theorem State.leadsTo.admitOne {die slot : Nat} (hs : s₀.leadsTo s) : s₀.leadsTo (s.admitOne die slot) := by
  delta State.admitOne
  split
  · exact hs
  · split
    · exact hs
    · extract_lets free need room tryEvict
      refine .ite (.ite hs.admitNow hs) (.ite hs ?_)
      split
      · exact hs
      · refine .ite hs.endReq (.ite hs.endReq (.ite hs.endReq (.ite hs.endReq ?_)))
        split
        · exact hs.endReq
        · refine .ite hs.endReq (.ite hs (.ite hs (.ite hs.admitNow ?_)))
          unfold tryEvict
          refine .ite ?_ hs
          split
          · split
            · exact hs.setReq
            · exact hs
          · exact hs

theorem State.leadsTo.admission {die h : Nat} (hs : s₀.leadsTo s) : s₀.leadsTo (s.admission die h) := by
  delta State.admission
  extract_lets ws
  exact hs.foldl (fun s e hs => hs.admitOne)

theorem State.leadsTo.evictMarked {h : Nat} (hs : s₀.leadsTo s) : s₀.leadsTo (s.evictMarked h) := by
  delta State.evictMarked
  refine hs.foldl (fun s e hs => .ite ?_ hs)
  extract_lets s1
  have hs1 : s₀.leadsTo s1 := hs.dropKv
  split
  · exact hs1.setReq
  · exact hs1

theorem State.leadsTo.applyCancels {h : Nat} {first : Bool} (hs : s₀.leadsTo s) : s₀.leadsTo (s.applyCancels h first) :=
  hs.foldl (fun _ _ hs => .ite hs.endReq hs)

theorem State.leadsTo.emitDraws {rows : List (Nat × Nat × Req)} (hs : s₀.leadsTo s) : s₀.leadsTo (s.emitDraws rows) :=
  hs.foldl (fun _ _ hs => .ite hs.emit hs)

theorem State.leadsTo.formBatch {h : Nat} {p : Pkg} (hs : s₀.leadsTo s) : s₀.leadsTo (s.formBatch h p) := by
  delta State.formBatch
  extract_lets fs b runs rows s1 f
  have hs1 : s₀.leadsTo s1 := hs.foldl (fun s e hs => hs.setReq)
  exact .ite hs (.ite hs (.ite (hs.foldl (fun s e hs => hs.endReq)) (hs1.setFlights.emitDraws.emit.foldl (fun s o hs => hs.emit))))

theorem State.leadsTo.registerPrefix {slot : Nat} (hs : s₀.leadsTo s) : s₀.leadsTo (s.registerPrefix slot) := by
  delta State.registerPrefix
  split
  · exact hs
  · extract_lets parent chain
    split
    · exact hs
    · extract_lets n pages used s1 s2 v s3
      have hs1 : s₀.leadsTo s1 := by
        unfold s1
        refine hs.foldl (fun s i hs => ?_)
        extract_lets len
        exact hs.sealPage.setPlace
      have hs2 : s₀.leadsTo s2 := by
        unfold s2
        clear_value parent
        split
        · exact hs1.setPfx
        · exact hs1
      have hs3 : s₀.leadsTo s3 := hs2.setPfx
      exact .ite hs (.ite hs.setReq hs3.setReq.journalPfx)

theorem State.leadsTo.stepReq {slot rows : Nat} {res : Option StepResult} {drops : List (Nat × Nat × Nat × Nat × Nat)} (hs : s₀.leadsTo s) : s₀.leadsTo (s.stepReq slot rows res drops) := by
  delta State.stepReq
  extract_lets mine
  split
  · exact hs
  · extract_lets done full r1 s0 s1 s2
    have hs0 : s₀.leadsTo s0 := .ite hs.bump hs
    have hs1 : s₀.leadsTo s1 := hs0.setReq.growKv
    have hs2 : s₀.leadsTo s2 := .ite hs1.registerPrefix hs1
    split
    · extract_lets i ended
      split
      · refine .ite ?_ hs2
        split
        · exact hs2.setReq.sendMsg
        · exact hs2.setReq.newRecord
      · exact hs2
    · exact hs2

theorem State.leadsTo.completeFlight {h : Nat} {f : Flight} {results : List StepResult} (hs : s₀.leadsTo s) : s₀.leadsTo (s.completeFlight h f results) := by
  delta State.completeFlight
  extract_lets s1 waits
  have hs1 : s₀.leadsTo s1 := hs.foldl (fun s e hs => hs.stepReq)
  exact .ite hs1.setFlights.measure hs1.setFlights

theorem State.leadsTo.advanceFlight {die h : Nat} {p : Pkg} {results : List StepResult} (hs : s₀.leadsTo s) : s₀.leadsTo (s.advanceFlight die h p results) := by
  delta State.advanceFlight
  extract_lets ds
  split
  · exact hs
  · exact .ite hs.setFlights hs.completeFlight

theorem State.leadsTo.applyProtection {die : Nat} (hs : s₀.leadsTo s) : s₀.leadsTo (s.applyProtection die) := by
  delta State.applyProtection
  extract_lets mine p src
  exact hs.same

theorem State.leadsTo.stopDisabled {die : Nat} (hs : s₀.leadsTo s) : s₀.leadsTo (s.stopDisabled die) := by
  delta State.stopDisabled
  extract_lets hit src s1
  have hs1 : s₀.leadsTo s1 := hs.same
  refine .ite hs (hs1.foldl (fun s e hs => ?_))
  split
  · exact .ite hs.endReq hs
  · exact hs

theorem State.leadsTo.endBubble {die : Nat} (hs : s₀.leadsTo s) : s₀.leadsTo (s.endBubble die) := by
  delta State.endBubble
  extract_lets src
  split
  · exact hs
  · exact .ite hs.sameArr.emit hs

theorem State.leadsTo.boundary {die : Nat} {step : Option (List Nat)} {results : List StepResult} (hs : s₀.leadsTo s) : s₀.leadsTo (s.boundary die step results) := by
  delta State.boundary
  extract_lets s1 s2 s3 s4 s5 bit want have' src
  have hs1 : s₀.leadsTo s1 := by
    unfold s1
    split
    · exact hs
    · exact hs.foldl (fun s e hs => .ite hs.advanceFlight hs)
  have hs2 : s₀.leadsTo s2 := hs1.applyProtection.stopDisabled
  have hs3 : s₀.leadsTo s3 := hs2.foldl (fun s e hs => .ite hs.applyCancels hs)
  have hs4 : s₀.leadsTo s4 := .ite hs3 (hs3.foldl (fun s e hs => hs.evictMarked.admission.formBatch))
  have hs5 : s₀.leadsTo s5 := .endBubble (.ite hs4.moveRetired hs4)
  exact .ite hs5 hs5.sameArr

theorem State.leadsTo.idleBoundary {die : Nat} (hs : s₀.leadsTo s) : s₀.leadsTo (s.idleBoundary die) :=
  .ite hs.boundary hs

theorem State.leadsTo.acceptBoundary {h : Nat} (hs : s₀.leadsTo s) : s₀.leadsTo (s.acceptBoundary h) := by
  delta State.acceptBoundary
  split
  · exact .ite (hs.foldl (fun s d hs => hs.idleBoundary)) hs
  · exact hs

theorem State.leadsTo.stepBoundary {die : Nat} {used : List Nat} {results : List StepResult} (hs : s₀.leadsTo s) : s₀.leadsTo (s.stepBoundary die used results) := by
  delta State.stepBoundary
  extract_lets s1
  have hs1 : s₀.leadsTo s1 := hs.boundary
  exact hs1.foldl (fun s d hs => hs.idleBoundary)

theorem State.leadsTo.execIdleStepBoundary {die : Nat} (hs : s₀.leadsTo s) : s₀.leadsToRes (execIdleStepBoundary die s) :=
  State.leadsToRes.onDie hs.idleBoundary.next

theorem State.leadsTo.execTenantRefill {dies : List Nat} (hs : s₀.leadsTo s) : s₀.leadsToRes (execTenantRefill dies s) := by
  delta Machine.execTenantRefill
  extract_lets s1 s2 s3 ws s4 src
  have hs1 : s₀.leadsTo s1 := hs.foldl (fun s t hs => .ite hs hs.refillOne)
  have hs2 : s₀.leadsTo s2 := hs1.foldl (fun s e hs => .ite hs.endReq hs)
  have hs3 : s₀.leadsTo s3 := hs2.foldl (fun s d hs => hs.idleBoundary)
  have hs4 : s₀.leadsTo s4 := hs3.foldl (fun s w hs => hs.budgetApply)
  exact hs4.same.next

theorem State.leadsTo.abortFlight {h : Nat} {fl : Flight} {replay : Bool} {f : Final} (hs : s₀.leadsTo s) : s₀.leadsTo (s.abortFlight h fl replay f) := by
  delta State.abortFlight
  extract_lets again s1
  have hs1 : s₀.leadsTo s1 := hs.setFlights
  refine .ite hs.setFlights.emit (hs1.foldl (fun s e hs => ?_))
  split
  · exact hs.setReq.endReq
  · exact hs

theorem State.leadsTo.abortStep {die slot : Nat} {replay : Bool} {f : Final} (hs : s₀.leadsTo s) : s₀.leadsTo (s.abortStep die slot replay f) := by
  delta State.abortStep
  extract_lets s1
  have hs1 : s₀.leadsTo s1 := hs.haltSlot
  exact hs1.foldl (fun s e hs => hs.abortFlight)

theorem State.leadsTo.execDma {die st : Nat} (hs : s₀.leadsTo s) : s₀.leadsToRes (execDma die st s) :=
  State.leadsToRes.onStream (State.leadsTo.next (hs.issueHead (fun _ _ _ hs => hs.withSource (fun _ => .ite hs.fly hs.abortStep.done))))

theorem State.leadsTo.execGroup {die st : Nat} (hs : s₀.leadsTo s) : s₀.leadsToRes (execGroup die st s) := by
  delta Machine.execGroup
  extract_lets w
  refine State.leadsToRes.onStream (State.leadsTo.next (hs.issueHead (fun s i n hs => ?_)))
  extract_lets f
  split
  · exact hs.done
  · extract_lets d1
    refine .ite hs.endDispatch.done (hs.withSource (fun count => .ite hs.setDispatch.bump.fly (.ite hs.endDispatch.abortStep.done (.ite hs.endDispatch.done ?_))))
    extract_lets g s1
    have hs1 : s₀.leadsTo s1 := hs.setDispatch.bump
    exact hs1.requestRange.fly

theorem State.leadsTo.execStepComplete {die st : Nat} {results : List StepResult} (hs : s₀.leadsTo s) : s₀.leadsToRes (execStepComplete die st results s) := by
  delta Machine.execStepComplete
  refine State.leadsToRes.onStream (State.leadsTo.next ?_)
  split
  · exact hs
  · extract_lets s1 v limit s2
    have hs1 : s₀.leadsTo s1 := hs.releasePins.wr
    have hs2 : s₀.leadsTo s2 := hs1.setStream.completeEntry
    exact .ite hs (.ite hs2.stepBoundary hs2)

theorem State.leadsTo.execStart {die st : Nat} (hs : s₀.leadsTo s) : s₀.leadsToRes (execStart die st s) :=
  State.leadsToRes.onStream (State.leadsTo.next (hs.inDie hs.startStream))

theorem State.leadsTo.execStop {die st : Nat} (hs : s₀.leadsTo s) : s₀.leadsToRes (execStop die st s) :=
  State.leadsToRes.onStream (State.leadsTo.next (hs.inDie hs.stopStream))

theorem State.leadsTo.execAbort {die st : Nat} (hs : s₀.leadsTo s) : s₀.leadsToRes (execAbort die st s) :=
  State.leadsToRes.onStream (State.leadsTo.next (hs.inDie hs.abortStream))

theorem State.leadsTo.execPop {die m : Nat} (hs : s₀.leadsTo s) : s₀.leadsToRes (execPop die m s) :=
  .ite (State.leadsTo.next (hs.inDie hs.popMbox)) (.refused)

theorem State.leadsTo.execFlush {die : Nat} (hs : s₀.leadsTo s) : s₀.leadsToRes (execFlush die s) :=
  State.leadsToRes.onDie (State.leadsTo.next (hs.inDie hs.wcDropUnpinned))

theorem State.leadsTo.execParamCommit {die y x c : Nat} (hs : s₀.leadsTo s) : s₀.leadsToRes (execParamCommit die y x c s) :=
  .ite (State.leadsToRes.onCt (State.leadsTo.next (hs.inDie hs.commitParams))) (.refused)

theorem State.leadsTo.moveReq {slot m : Nat} (hs : s₀.leadsTo s) : s₀.leadsTo (s.moveReq slot m) := by
  delta State.moveReq
  extract_lets src
  split
  · exact hs
  · extract_lets pp t s1 s2 s3
    have hs1 : s₀.leadsTo s1 := hs.same
    have hs2 : s₀.leadsTo s2 := hs1.sendMsg
    have hs3 : s₀.leadsTo s3 := hs2.sendMsg
    exact hs3.setReq.endReq

theorem State.leadsTo.moveFlight {h : Nat} {fl : Flight} {replica : Option Nat} (hs : s₀.leadsTo s) : s₀.leadsTo (s.moveFlight h fl replica) := by
  delta State.moveFlight
  extract_lets s1
  have hs1 : s₀.leadsTo s1 := hs.setFlights
  refine hs1.foldl (fun s e hs => ?_)
  split
  · exact hs.setReq.moveReq
  · exact hs.setReq.endReq
  · exact hs

theorem State.leadsTo.faultStep {die slot : Nat} {replica : Option Nat} (hs : s₀.leadsTo s) : s₀.leadsTo (s.faultStep die slot replica) := by
  delta State.faultStep
  extract_lets s1
  have hs1 : s₀.leadsTo s1 := hs.haltSlot
  exact hs1.foldl (fun s e hs => .ite hs.moveFlight hs.abortFlight)

theorem State.leadsTo.execFreezeMessage {die : Nat} {replica : Option Nat} (hs : s₀.leadsTo s) : s₀.leadsToRes (execFreezeMessage die replica s) := by
  delta Machine.execFreezeMessage
  extract_lets src src' src''
  refine State.leadsToRes.onDie (State.leadsTo.next ?_)
  split
  · exact hs
  · extract_lets s1
    have hs1 : s₀.leadsTo s1 := hs.sameArr
    exact .ite hs1.detect.abortStep (.ite hs1.detect.abortStep hs1.faultStep)

theorem State.leadsTo.execStepDeadline {die st : Nat} (hs : s₀.leadsTo s) : s₀.leadsToRes (execStepDeadline die st s) := by
  delta Machine.execStepDeadline
  extract_lets v i n s1 src s2 s3 src' s4
  have hs1 : s₀.leadsTo s1 := hs.cancelStream
  have hs2 : s₀.leadsTo s2 := hs1.setStream
  have hs3 : s₀.leadsTo s3 := hs2.setStrState.wr.wr
  have hs4 : s₀.leadsTo s4 := hs3.emit.detect
  refine State.leadsToRes.onStream (State.leadsTo.next ?_)
  split
  · exact hs
  · exact .ite hs (hs4.foldl (fun s c hs => hs.abortStep))

theorem State.leadsTo.execSergePairRejoin {die pair : Nat} (hs : s₀.leadsTo s) : s₀.leadsToRes (execSergePairRejoin die pair s) :=
  .ite (State.leadsTo.next (.ite hs hs.wr)) (.refused)

theorem State.leadsTo.execIdleNotice {die : Nat} (hs : s₀.leadsTo s) : s₀.leadsToRes (execIdleNotice die s) := by
  delta Machine.execIdleNotice
  extract_lets s1 was src
  have hs1 : s₀.leadsTo s1 := hs.idleNotice
  refine State.leadsToRes.onDie (State.leadsTo.next (.ite hs1 (.ite ?_ hs1.popMbox)))
  split
  · extract_lets s2
    have hs2 : s₀.leadsTo s2 := hs1.sameArr
    exact hs2.popMbox.emit
  · exact hs1

theorem State.leadsTo.stewardTakeover (hs : s₀.leadsTo s) : s₀.leadsTo (s.stewardTakeover) := by
  delta State.stewardTakeover
  extract_lets s1
  have hs1 : s₀.leadsTo s1 := hs.wr.wr.bumpSat
  refine hs1.foldl (fun s e hs => ?_)
  extract_lets again
  exact hs.setFlights.foldl (fun s f hs => hs.emit)

theorem State.leadsTo.sendParts {dst ty : Nat} {p : ExpertPart} {size : Nat} {rows : List Byte} (hs : s₀.leadsTo s) : s₀.leadsTo (s.sendParts dst ty p size rows) := by
  delta State.sendParts
  extract_lets e n
  refine hs.foldl (fun s i hs => ?_)
  extract_lets first count q
  exact hs.sendMsg

theorem State.leadsTo.sendList {die c t e count : Nat} (hs : s₀.leadsTo s) : s₀.leadsTo (s.sendList die c t e count) := by
  delta State.sendList
  extract_lets m size f p s1 src
  have hf : s₀.leadsToSnd f := hs.useFree
  have hs1 : s₀.leadsTo s1 := hf
  split
  · exact hs.foldl (fun s f hs => hs.abortFlight)
  · extract_lets r s2
    have hs2 : s₀.leadsTo s2 := hs1.same
    exact hs2.sendParts

theorem State.leadsTo.noteDrops {die c : Nat} {v : Invocation} (hs : s₀.leadsTo s) : s₀.leadsTo (s.noteDrops die c v) := by
  delta State.noteDrops
  refine hs.foldl (fun s f hs => ?_)
  extract_lets src g
  exact hs.setFlights

theorem State.leadsTo.sendLists {die c : Nat} {v : Invocation} (hs : s₀.leadsTo s) : s₀.leadsTo (s.sendLists die c v) := by
  delta State.sendLists
  refine hs.foldl (fun s e hs => ?_)
  extract_lets n
  exact .ite hs hs.sendList

theorem State.leadsTo.execRouterLists {die : Nat} (hs : s₀.leadsTo s) : s₀.leadsToRes (execRouterLists die s) := by
  delta Machine.execRouterLists
  extract_lets s1
  have hs1 : s₀.leadsTo s1 := hs.routerLists
  refine State.leadsToRes.onDie (State.leadsTo.next ?_)
  split
  · exact hs1
  · split
    · exact .ite hs1.noteDrops.sendLists hs1
    · exact hs1

theorem State.leadsTo.execExpertList {src : Nat} {p : ExpertPart} {body data : List Byte} (hs : s₀.leadsTo s) : s₀.leadsToRes (execExpertList src p body data s) := by
  delta Machine.execExpertList
  extract_lets s0 same old fresh rest src'
  have hs0 : s₀.leadsTo s0 := hs.takeInbox
  refine State.leadsTo.next (.ite hs ?_)
  split
  · exact hs0.malformed
  · extract_lets size rb rows
    exact .ite hs0.same hs0.same.sendParts

theorem State.leadsTo.execExpertResult {src : Nat} {p : ExpertPart} {body : List Byte} {dataQ tagQ : Nat} (hs : s₀.leadsTo s) : s₀.leadsToRes (execExpertResult src p body dataQ tagQ s) := by
  delta Machine.execExpertResult
  extract_lets s0 same rest src' s1
  have hs0 : s₀.leadsTo s0 := hs.takeInbox
  have hs1 : s₀.leadsTo s1 := hs0.same
  refine State.leadsTo.next (.ite hs ?_)
  split
  · exact hs0
  · split
    · exact hs0.same.malformed.faultStep
    · extract_lets size
      refine .ite hs0.same (hs1.foldl (fun s i hs => ?_))
      extract_lets ent s2
      have hs2 : s₀.leadsTo s2 := hs.feedToks
      exact hs2.feedToks

theorem State.leadsTo.abortLists {m : Nat} (hs : s₀.leadsTo s) : s₀.leadsTo (s.abortLists m) := by
  delta State.abortLists
  extract_lets hit src s1
  have hs1 : s₀.leadsTo s1 := hs.same
  exact hs1.foldl (fun s e hs => hs.faultStep)

theorem State.leadsTo.setInst {j : Inst} (hs : s₀.leadsTo s) : s₀.leadsTo (s.setInst j) :=
  hs.same

theorem State.leadsTo.dropInst {h : Nat} (hs : s₀.leadsTo s) : s₀.leadsTo (s.dropInst h) :=
  hs.same

theorem State.leadsTo.completeAll {us : List (Nat × Nat)} {status detail : Nat} (hs : s₀.leadsTo s) : s₀.leadsTo (s.completeAll us status detail) :=
  hs.foldl (fun _ _ hs => hs.complete)

theorem State.leadsTo.dropInstall {h status detail : Nat} (hs : s₀.leadsTo s) : s₀.leadsTo (s.dropInstall h status detail) := by
  delta State.dropInstall
  split
  · extract_lets s1 s2 waits
    have hs1 : s₀.leadsTo s1 := .dropInst (hs.foldl (fun s pn hs => State.leadsToSome.getD hs.markFreeing hs))
    have hs2 : s₀.leadsTo s2 := by
      unfold s2
      split
      · exact hs1.setPkg
      · exact hs1.dropPkg
    exact hs2.completeAll.completeAll
  · exact hs

theorem State.leadsTo.askPages {h m : Nat} (hs : s₀.leadsTo s) : s₀.leadsTo (s.askPages h m) := by
  delta State.askPages
  split
  · extract_lets mine out next s1
    have hs1 : s₀.leadsTo s1 := hs.setInst
    exact hs1.foldl (fun s r hs => hs.sendMsg)
  · exact hs

theorem State.leadsTo.stagePage {h pn : Nat} (hs : s₀.leadsTo s) : s₀.leadsTo (s.stagePage h pn) := by
  delta State.stagePage
  extract_lets s1 s2
  have hs1 : s₀.leadsTo s1 := hs.mapPage
  have hs2 : s₀.leadsTo s2 := by
    unfold s2
    split
    · exact hs1.setPte
    · exact hs1
  refine .ite hs ?_
  split
  · exact hs2.setInst
  · exact hs2

theorem State.leadsTo.sealExec {h e : Nat} (hs : s₀.leadsTo s) : s₀.leadsToSome (s.sealExec h e) := by
  delta State.sealExec
  extract_lets mark
  have hmark : ∀ t, s₀.leadsTo t → s₀.leadsTo (mark t) := by
    intro t ht
    unfold mark
    split
    · exact ht.setInst
    · exact ht
  split
  · extract_lets pn place s0 s2
    have hs0 : s₀.leadsTo s0 := hs.stagePage
    have hs2 : s₀.leadsTo s2 := hmark _ hs0.sealPage
    split
    · exact .none
    · refine .ite (hmark _ (.ite hs0.setPlace hs0)).some (.ite hs2.setPlace.some (.ite .none ?_))
      have hdemote : s₀.leadsToFst (s2.demote pn 2) := hs2.demote
      generalize s2.demote pn 2 = r at hdemote
      obtain ⟨t, result⟩ := r
      cases result with
      | nofit => exact .none
      | _ => exact State.leadsTo.some hdemote
  · exact hs.some

theorem State.leadsTo.askConfirms {h : Nat} (hs : s₀.leadsTo s) : s₀.leadsTo (s.askConfirms h) := by
  delta State.askConfirms
  split
  · exact .ite (hs.setInst.foldl (fun s m hs => hs.sendMsg)) hs
  · exact hs

theorem State.leadsTo.sealReady {h : Nat} (hs : s₀.leadsTo s) : s₀.leadsTo (s.sealReady h) := by
  unfold State.sealReady
  split
  · next j p _ _ =>
    extract_lets r
    have hr : s₀.leadsToFst r := by
      unfold r
      suffices seals : ∀ (l : List Nat) (g : State × Bool), s₀.leadsTo g.1 → s₀.leadsTo (l.foldl _ g).1 from seals _ (s, false) hs
      intro l
      induction l with
      | nil => exact fun g hg => hg
      | cons e l ih =>
        refine fun g hg => ih _ (State.leadsToFst.ite hg ?_)
        split
        · next t et => exact hg.sealExec _ et
        · exact hg
    exact .ite hr.dropInstall hr.askConfirms
  · exact hs

theorem State.leadsTo.writeStaged {h a : Nat} {bs : List Byte} (hs : s₀.leadsTo s) : s₀.leadsTo (s.writeStaged h a bs) := by
  delta State.writeStaged
  refine hs.foldl (fun s pn hs => ?_)
  extract_lets lo
  split
  · exact .ite hs.masWrite hs
  · exact hs

theorem State.leadsTo.writeSection {h i : Nat} {parts : List (Nat × List Byte)} (hs : s₀.leadsTo s) : s₀.leadsTo (s.writeSection h i parts) := by
  delta State.writeSection
  extract_lets n
  split
  · extract_lets v s1 pns s2
    have hs1 : s₀.leadsTo s1 := hs.setInst
    have hs2 : s₀.leadsTo s2 := hs1.foldl (fun s pn hs => hs.stagePage)
    exact .sealReady (hs2.foldl (fun s e hs => hs.writeStaged))
  · exact hs

theorem State.leadsTo.copySections {h : Nat} (hs : s₀.leadsTo s) : s₀.leadsTo (s.copySections h) := by
  delta State.copySections
  split
  · exact hs
  · refine hs.foldl (fun s i hs => ?_)
    split
    · extract_lets b s1
      have hs1 : s₀.leadsTo s1 := hs.setInst
      exact .ite hs (.ite hs.writeSection (.ite hs1.setPkg (.ite hs.setInst hs)))
    · exact hs

theorem State.leadsTo.keepStaged {h pn : Nat} (hs : s₀.leadsTo s) : s₀.leadsToSome (s.keepStaged h pn) := by
  delta State.keepStaged
  split
  · exact hs.some
  · refine .ite hs.dropNear.setPte.fixJob.some ?_
    split
    · exact .none
    · extract_lets x
      exact hs.dropNear.setPte.writeDeep.fixJob.some

theorem State.leadsTo.keepPage {h q len check : Nat} {data : List Byte} (hs : s₀.leadsTo s) : s₀.leadsToSome (s.keepPage h q len check data) := by
  delta State.keepPage
  split
  · exact hs.some
  · extract_lets pn
    refine .ite hs.some (.ite hs.keepStaged (.ite (.none) ?_))
    split
    · exact .none
    · extract_lets x src e s1
      have hs1 : s₀.leadsTo s1 := hs.newPte.masWrite.writeDeep
      split
      · exact hs1.setInst.some
      · exact hs1.some

theorem State.leadsTo.engineIn {e n : Nat} (hs : s₀.leadsTo s) : s₀.leadsTo (s.engineIn e n) :=
  .ite hs.bump hs.bump

theorem State.leadsTo.engineOut {e n : Nat} (hs : s₀.leadsTo s) : s₀.leadsTo (s.engineOut e n) :=
  .ite hs.bump hs.bump

theorem State.leadsTo.engineErr {e : Nat} {check : Bool} (hs : s₀.leadsTo s) : s₀.leadsTo (s.engineErr e check) :=
  .ite hs.bumpSat hs.bumpSat

theorem State.leadsTo.finishTensor {e h i : Nat} {t : Tensor} {rl : Section} (hs : s₀.leadsTo s) : s₀.leadsTo (s.finishTensor e h i t rl) := by
  delta State.finishTensor
  split
  · extract_lets blk form idx
    refine .ite hs.engineErr.dropInstall ?_
    split
    · exact hs.engineErr.dropInstall
    · extract_lets f n
      exact .ite hs.dropInstall hs.setInst.engineOut.writeSection
  · exact hs

theorem State.leadsTo.finishReady {e h : Nat} (hs : s₀.leadsTo s) : s₀.leadsTo (s.finishReady e h) := by
  delta State.finishReady
  split
  · exact hs
  · refine hs.foldl (fun s i hs => ?_)
    split
    · refine .ite hs ?_
      split
      · exact hs
      · extract_lets whole
        refine .ite hs ?_
        split
        · exact hs.engineErr.dropInstall
        · exact .ite hs.finishTensor hs
    · exact hs

theorem State.leadsTo.feedPage {h q len check : Nat} {data : List Byte} {engines : List Nat} (hs : s₀.leadsTo s) : s₀.leadsTo (s.feedPage h q len check data engines) := by
  delta State.feedPage
  split
  · exact hs
  · extract_lets img s1 ok
    have hs1 : s₀.leadsTo s1 := hs.setInst
    refine .ite hs (.ite hs1.dropInstall ?_)
    split
    · exact hs1.dropInstall
    · next s2 es2 =>
        have hs2 : s₀.leadsTo s2 := hs1.keepPage _ es2
        exact hs2.copySections.finishReady

theorem State.leadsTo.feedOwn {h q pn : Nat} {deep : Bool} (hs : s₀.leadsTo s) : s₀.leadsTo (s.feedOwn h q pn deep) := by
  delta State.feedOwn
  extract_lets s1
  have hs1 : s₀.leadsTo s1 := .ite hs.bump hs
  split
  · exact hs.dropInstall
  · extract_lets data engines
    exact .ite hs1.feedPage hs1.dropInstall

theorem State.leadsTo.assignPage {h q : Nat} {hint : Option Nat} (hs : s₀.leadsTo s) : s₀.leadsTo (s.assignPage h q hint) := by
  delta State.assignPage
  split
  · exact hs
  · extract_lets j'
    split
    · extract_lets j''
      exact hs.setInst
    · split
      · exact hs.setInst.feedOwn
      · exact hs.dropInstall

theorem State.leadsTo.assignSources {h : Nat} (hs : s₀.leadsTo s) : s₀.leadsTo (s.assignSources h) := by
  delta State.assignSources
  split
  · extract_lets pages s1 s2
    have hs1 : s₀.leadsTo s1 := hs.setInst
    have hs2 : s₀.leadsTo s2 := hs1.foldl (fun s q hs => hs.assignPage)
    exact .ite (.ite (hs1.foldl (fun s q hs => hs.feedOwn)) hs1.dropInstall) (.ite hs1.dropInstall (hs2.foldl (fun s m hs => hs.askPages)))
  · exact hs

theorem State.leadsTo.startQuery {h : Nat} (hs : s₀.leadsTo s) : s₀.leadsTo (s.startQuery h) := by
  delta State.startQuery
  split
  · extract_lets s1
    have hs1 : s₀.leadsTo s1 := hs.setInst
    exact .ite hs1.assignSources (hs1.foldl (fun s m hs => hs.foldl (fun s q hs => hs.sendMsg)))
  · exact hs

theorem State.leadsTo.beginInstall {h : Nat} (hs : s₀.leadsTo s) : s₀.leadsTo (s.beginInstall h) := by
  delta State.beginInstall
  split
  · exact hs
  · exact .ite hs (.ite hs.startQuery hs.setInst)

theorem State.leadsTo.nextInstall (hs : s₀.leadsTo s) : s₀.leadsTo (s.nextInstall) := by
  delta State.nextInstall
  split
  · exact hs.beginInstall
  · exact hs

theorem State.leadsTo.thenNext {h : Nat} (hs : s₀.leadsTo s) : s₀.leadsTo (s.thenNext h) :=
  .ite hs.nextInstall hs

theorem State.leadsTo.serveNow (hs : s₀.leadsTo s) : s₀.leadsTo (s.serveNow) :=
  .ite hs.moduleTo hs

theorem State.leadsTo.opInstall {i seq : Nat} {tenant : Option Nat} {body header : List Byte} (hs : s₀.leadsTo s) : s₀.leadsTo (s.opInstall i seq tenant body header) := by
  delta State.opInstall
  split
  · exact hs.answerSeq
  · extract_lets header' s1 src
    have hs1 : s₀.leadsTo s1 := hs.answerSeq.setPkg
    split
    · exact .ite hs.answerSeq.setInst hs.answerSeq
    · extract_lets src' j s2
      have hs2 : s₀.leadsTo s2 := hs1.same
      split
      · exact hs.answerSeq
      · exact .ite hs.answerSeq (.beginInstall (.ite hs2.serveNow hs2))

theorem State.leadsTo.execQueryTimeout {h : Nat} (hs : s₀.leadsTo s) : s₀.leadsToRes (execQueryTimeout h s) := by
  delta Machine.execQueryTimeout
  extract_lets late
  refine State.leadsTo.next ?_
  split
  · exact hs
  · exact .ite hs.setInst.assignSources.thenNext hs

theorem State.leadsTo.execStageFramesTimeout {h : Nat} (hs : s₀.leadsTo s) : s₀.leadsToRes (execStageFramesTimeout h s) := by
  delta Machine.execStageFramesTimeout
  refine State.leadsTo.next ?_
  split
  · exact hs
  · exact .ite hs (.ite hs.startQuery.thenNext (.ite hs.dropInstall.nextInstall hs))

theorem State.leadsTo.execTaffetaBlockDecode {e h i plane b : Nat} (hs : s₀.leadsTo s) : s₀.leadsToRes (execTaffetaBlockDecode e h i plane b s) := by
  delta Machine.execTaffetaBlockDecode
  refine .ite (.refused) (State.leadsTo.next ?_)
  split
  · split
    · exact hs
    · extract_lets bs
      refine .ite hs (.ite hs ?_)
      split
      · exact hs.engineErr.dropInstall.thenNext
      · extract_lets o n
        refine .ite hs.engineErr.dropInstall.thenNext (.ite hs (.ite hs (.ite hs ?_)))
        split
        · exact hs.engineErr.dropInstall.thenNext
        · extract_lets s1
          have hs1 : s₀.leadsTo s1 := hs.setInst.engineIn
          exact hs1.finishReady.thenNext
  · exact hs

theorem State.leadsTo.execConfirmTimeout {h : Nat} (hs : s₀.leadsTo s) : s₀.leadsToRes (execConfirmTimeout h s) := by
  delta Machine.execConfirmTimeout
  refine State.leadsTo.next ?_
  split
  · exact hs
  · exact .ite hs.dropInstall.nextInstall hs

theorem State.leadsTo.failSwitch {h status : Nat} (hs : s₀.leadsTo s) : s₀.leadsTo (s.failSwitch h status) := by
  delta State.failSwitch
  split
  · exact hs
  · split
    · exact hs
    · extract_lets s2 s1 src s3
      have hs2 : s₀.leadsTo s2 := hs.wr.wr
      have hs1 : s₀.leadsTo s1 := by
        unfold s1
        refine .ite (hs2.foldl (fun s e hs => ?_)) hs
        split
        · exact .ite hs.setPlace hs
        · exact hs
      have hs3 : s₀.leadsTo s3 := hs1.sameArr
      exact hs3.setPkg.completeAll

theorem State.leadsTo.streamBudget {p : Pkg} {b : Nat} (hs : s₀.leadsTo s) : s₀.leadsTo (s.streamBudget p b) := by
  delta State.streamBudget
  refine hs.foldl (fun s e hs => ?_)
  split
  · exact .ite hs.setPlace hs
  · exact hs

theorem State.leadsTo.beginSwitch {h : Nat} (hs : s₀.leadsTo s) : s₀.leadsTo (s.beginSwitch h) := by
  delta State.beginSwitch
  split
  · exact hs
  · extract_lets die
    split
    · exact hs
    · extract_lets s1
      have hs1 : s₀.leadsTo s1 := hs.wr.wr
      refine .ite hs (.ite hs.failSwitch ?_)
      split
      · exact hs.failSwitch
      · extract_lets s2 src s3
        have hs2 : s₀.leadsTo s2 := hs1.setPkg
        have hs3 : s₀.leadsTo s3 := hs2.sameArr
        refine hs3.streamBudget.foldl (fun s pn hs => ?_)
        extract_lets s4
        have hs4 : s₀.leadsTo s4 := by
          unfold s4
          split
          · exact .ite hs.setPlace hs
          · exact hs
        exact hs4.requestPromotion

theorem State.leadsTo.execInstallCommit {h : Nat} {t : Tmpl} (hs : s₀.leadsTo s) : s₀.leadsToRes (execInstallCommit h t s) := by
  delta Machine.execInstallCommit
  refine State.leadsTo.next ?_
  split
  · extract_lets pns w s0 s1 s2
    have hs0 : s₀.leadsTo s0 := .ite (hs.foldl (fun s q hs => State.leadsToSome.getD hs.markFreeing hs)) hs
    have hs1 : s₀.leadsTo s1 := hs0.setPkg.dropInst
    have hs2 : s₀.leadsTo s2 := .ite hs1 hs1.completeAll
    exact .ite hs.setInst.setPkg.newRecord (.ite hs2.beginSwitch.nextInstall hs)
  · exact hs

theorem State.leadsTo.opSwitchIn {i seq : Nat} {tenant : Option Nat} {b : List Byte} (hs : s₀.leadsTo s) : s₀.leadsTo (s.opSwitchIn i seq tenant b) := by
  delta State.opSwitchIn
  extract_lets h w
  refine .ite hs.answerSeq ?_
  split
  · exact hs.answerSeq
  · extract_lets misfit s1 src s2
    have hs1 : s₀.leadsTo s1 := hs.answerSeq.serveNow.setPkg
    have hs2 : s₀.leadsTo s2 := hs1.same
    split
    · exact hs.answerSeq.serveNow.setPkg
    · exact .ite hs.answerSeq (.ite hs.answerSeq hs.answerSeq.serveNow.setPkg.beginSwitch)
    · exact .ite hs.answerSeq hs2.beginInstall
    · exact hs.answerSeq

theorem State.leadsTo.sendShard {dst m : Nat} (hs : s₀.leadsTo s) : s₀.leadsTo (s.sendShard dst m) :=
  hs.sendMsg

theorem State.leadsTo.spareDone (hs : s₀.leadsTo s) : s₀.leadsTo (s.spareDone) := by
  delta State.spareDone
  split
  · exact hs
  · extract_lets n s1 src s2
    have hs1 : s₀.leadsTo s1 := hs.wr.wr.wr.wr
    have hs2 : s₀.leadsTo s2 := hs1.same
    exact .ite hs (hs2.foldl (fun s d hs => .ite hs hs.sendShard))

theorem State.leadsTo.execSwitchInLoaded {h : Nat} {refused : Bool} (hs : s₀.leadsTo s) : s₀.leadsToRes (execSwitchInLoaded h refused s) := by
  delta Machine.execSwitchInLoaded
  refine State.leadsTo.next ?_
  split
  · exact hs
  · extract_lets near loaded
    split
    · exact hs
    · exact .ite hs (.ite hs.failSwitch.spareDone (.ite hs.setPkg.completeAll.spareDone hs))

theorem State.leadsTo.switchOut {h : Nat} (hs : s₀.leadsTo s) : s₀.leadsTo (s.switchOut h) := by
  delta State.switchOut
  split
  · exact hs
  · extract_lets s1 s2 src s3
    have hs1 : s₀.leadsTo s1 := by
      unfold s1
      refine hs.foldl (fun s e hs => ?_)
      split
      · exact hs.setPlace
      · exact hs
    have hs2 : s₀.leadsTo s2 := hs1.wr.wr
    have hs3 : s₀.leadsTo s3 := hs2.sameArr
    exact .ite hs hs3.setPkg

theorem State.leadsTo.opUninstall {i seq : Nat} {b : List Byte} (hs : s₀.leadsTo s) : s₀.leadsTo (s.opUninstall i seq b) := by
  delta State.opUninstall
  extract_lets h s1
  have hs1 : s₀.leadsTo s1 := hs.answerSeq
  refine .ite hs.answerSeq ?_
  split
  · exact hs.answerSeq
  · exact .ite (.ite hs1.setPkg hs1.freePkg) hs.answerSeq

theorem State.leadsTo.opStageMap {i seq : Nat} {b : List Byte} (hs : s₀.leadsTo s) : s₀.leadsTo (s.opStageMap i seq b) := by
  delta State.opStageMap
  extract_lets a n w pns m
  have hm : s₀.leadsToFst m := hs.mapRange
  exact .ite hs.answerSeq (.ite hs.answerSeq (.ite hm.answerSeq hs.answerSeq))

theorem State.leadsTo.opStageSeal {i seq : Nat} {b : List Byte} (hs : s₀.leadsTo s) : s₀.leadsTo (s.opStageSeal i seq b) := by
  delta State.opStageSeal
  extract_lets a n len pns good s1
  have hs1 : s₀.leadsTo s1 := hs.foldl (fun s pn hs => hs.sealPage)
  exact .ite hs.answerSeq hs1.answerSeq

theorem State.leadsTo.opAdoptDrive {i seq : Nat} {b : List Byte} (hs : s₀.leadsTo s) : s₀.leadsTo (s.opAdoptDrive i seq b) := by
  delta State.opAdoptDrive
  extract_lets d
  refine .ite hs.answerSeq ?_
  split
  · exact hs.answerSeq
  · extract_lets s1
    have hs1 : s₀.leadsTo s1 := hs.setDrive
    exact .ite hs1.wr.wr.answerSeq hs.answerSeq

theorem State.leadsTo.execPageQuery {src ref : Nat} {digest : List Byte} {first count : Nat} (hs : s₀.leadsTo s) : s₀.leadsToRes (execPageQuery src ref digest first count s) := by
  delta Machine.execPageQuery
  extract_lets s0 st map
  have hs0 : s₀.leadsTo s0 := hs.takeInbox
  exact State.leadsTo.next (.ite hs (.ite hs0.malformed hs0.sendMsg))

theorem State.leadsTo.execPageAnswer {src h : Nat} {digest : List Byte} {first : Nat} {held : List Bool} (hs : s₀.leadsTo s) : s₀.leadsToRes (execPageAnswer src h digest first held s) := by
  delta Machine.execPageAnswer
  extract_lets s0 pages
  have hs0 : s₀.leadsTo s0 := hs.takeInbox
  refine State.leadsTo.next (.ite hs ?_)
  split
  · extract_lets a all s1 parts
    have hs1 : s₀.leadsTo s1 := hs0.setInst
    exact .ite hs0 (.ite hs1.assignSources.thenNext hs1)
  · exact hs0

theorem State.leadsTo.execPageFetch {src ref : Nat} {digest : List Byte} {first count : Nat} (hs : s₀.leadsTo s) : s₀.leadsToRes (execPageFetch src ref digest first count s) := by
  delta Machine.execPageFetch
  extract_lets s0
  have hs0 : s₀.leadsTo s0 := hs.takeInbox
  refine State.leadsTo.next (.ite hs (.ite hs0.malformed (hs0.foldl (fun s k hs => ?_))))
  split
  · exact hs.sendMsg
  · exact hs.sendMsg

theorem State.leadsTo.reassign {h q m : Nat} (hs : s₀.leadsTo s) : s₀.leadsTo (s.reassign h q m) := by
  delta State.reassign
  split
  · exact hs
  · extract_lets rest s0 s1
    have hs0 : s₀.leadsTo s0 := .ite hs.bump hs
    have hs1 : s₀.leadsTo s1 := hs0.assignPage
    clear_value rest
    split
    · exact hs1.askPages
    · exact hs1

theorem State.leadsTo.supplierGone {m : Nat} (hs : s₀.leadsTo s) : s₀.leadsTo (s.supplierGone m) := by
  delta State.supplierGone
  refine hs.foldl (fun s j hs => .ite hs ?_)
  extract_lets mine
  exact .thenNext (hs.foldl (fun s q hs => hs.reassign))

theorem State.leadsTo.bundlesDown (hs : s₀.leadsTo s) : s₀.leadsTo (s.bundlesDown) :=
  hs.foldl (fun _ _ hs => .ite hs (hs.foldl (fun _ _ hs => .ite hs.supplierGone hs)))

theorem State.leadsTo.execPageData {src h q check : Nat} {data : List Byte} (hs : s₀.leadsTo s) : s₀.leadsToRes (execPageData src h q check data s) := by
  delta Machine.execPageData
  extract_lets s0
  have hs0 : s₀.leadsTo s0 := hs.takeInbox
  refine State.leadsTo.next (.ite hs ?_)
  split
  · exact hs0
  · exact .ite hs0 (.ite hs0.bump.feedPage.askPages.thenNext hs0.reassign.thenNext)

theorem State.leadsTo.execPageRefuse {src h q : Nat} (hs : s₀.leadsTo s) : s₀.leadsToRes (execPageRefuse src h q s) := by
  delta Machine.execPageRefuse
  extract_lets s0
  have hs0 : s₀.leadsTo s0 := hs.takeInbox
  refine State.leadsTo.next (.ite hs ?_)
  split
  · exact hs0
  · exact .ite hs0.reassign.thenNext hs0

theorem State.leadsTo.execConfirmReq {src ref : Nat} {digest : List Byte} (hs : s₀.leadsTo s) : s₀.leadsToRes (execConfirmReq src ref digest s) := by
  delta Machine.execConfirmReq
  extract_lets s0 v
  have hs0 : s₀.leadsTo s0 := hs.takeInbox
  exact State.leadsTo.next (.ite hs hs0.sendMsg)

theorem State.leadsTo.execConfirm {src h tray : Nat} {digest : List Byte} {st : Nat} {allPages : Bool} (hs : s₀.leadsTo s) : s₀.leadsToRes (execConfirm src h tray digest st allPages s) := by
  delta Machine.execConfirm
  extract_lets s0
  have hs0 : s₀.leadsTo s0 := hs.takeInbox
  refine State.leadsTo.next (.ite hs ?_)
  split
  · extract_lets newTray
    exact .ite hs0.setInst hs0
  · exact hs0

theorem State.leadsTo.poke {a v : Nat} (hs : s₀.leadsTo s) : s₀.leadsTo (s.poke a v) := by
  delta State.poke
  split
  · exact hs.setWord
  · exact hs

theorem State.leadsTo.setTk {t : TkReq} (hs : s₀.leadsTo s) : s₀.leadsTo (s.setTk t) :=
  hs.same

theorem State.leadsTo.tkPlace {o slot : Nat} (hs : s₀.leadsTo s) : s₀.leadsTo (s.tkPlace o slot) := by
  delta State.tkPlace
  split
  · exact hs
  · refine .ite hs ?_
    split
    · exact hs.setTk
    · extract_lets s1
      have hs1 : s₀.leadsTo s1 := by
        unfold s1
        refine hs.foldl (fun s k hs => ?_)
        extract_lets n
        exact hs.ringPut
      exact hs1.setTk

theorem State.leadsTo.tkPlaceAll (hs : s₀.leadsTo s) : s₀.leadsTo (s.tkPlaceAll) :=
  hs.foldl (fun _ _ hs => hs.tkPlace)

theorem State.leadsTo.tkDropHeld (hs : s₀.leadsTo s) : s₀.leadsTo (s.tkDropHeld) := by
  delta State.tkDropHeld
  refine hs.foldl (fun s e hs => ?_)
  extract_lets src
  split
  · exact .ite hs.setTk hs
  · exact hs

theorem State.leadsTo.tkCommit {o slot index tok : Nat} (hs : s₀.leadsTo s) : s₀.leadsTo (s.tkCommit o slot index tok) := by
  delta State.tkCommit
  split
  · exact hs
  · extract_lets s1 s2
    have hs1 : s₀.leadsTo s1 := hs.setTk
    have hs2 : s₀.leadsTo s2 := by
      unfold s2
      split
      · exact hs1.sendMsg
      · exact hs1
    exact .ite hs hs2.tkPlace

theorem State.leadsTo.tkFinal {t : TkReq} {rec' : List Byte} (hs : s₀.leadsTo s) : s₀.leadsTo (s.tkFinal t rec') := by
  delta State.tkFinal
  extract_lets code s1
  have hs1 : s₀.leadsTo s1 := hs.setTk.newRecordFor
  exact hs1.foldl (fun s c hs => .ite hs.answerSeq hs.answerSeq)

theorem State.leadsTo.tkAssign {able : List (Nat × Nat)} {o slot : Nat} (hs : s₀.leadsTo s) : s₀.leadsTo (s.tkAssign able o slot) := by
  delta State.tkAssign
  extract_lets set ok load best
  split
  · exact hs
  · extract_lets n
    refine .ite hs ?_
    clear_value best
    split
    · exact hs.tkFinal
    · extract_lets s1 src s2 s3
      have hs1 : s₀.leadsTo s1 := hs.setTk
      have hs2 : s₀.leadsTo s2 := hs1.same
      have hs3 : s₀.leadsTo s3 := hs2.sendMsg
      exact hs3.sendMsg

theorem State.leadsTo.tkReassign {able : List (Nat × Nat)} {m : Nat} (hs : s₀.leadsTo s) : s₀.leadsTo (s.tkReassign able m) :=
  hs.foldl (fun _ _ hs => .ite hs.tkAssign hs)

theorem State.leadsTo.callSpare {list : List Nat} {failed tray : Nat} (hs : s₀.leadsTo s) : s₀.leadsTo (s.callSpare list failed tray) := by
  delta State.callSpare
  split
  · exact hs.sendMsg
  · exact hs

theorem State.leadsTo.restore {fleet : Fleet} {o tray : Nat} (hs : s₀.leadsTo s) : s₀.leadsTo (s.restore fleet o tray) := by
  delta State.restore
  split
  · exact hs.emit
  · exact hs

theorem State.leadsTo.takeOver {fleet : Fleet} {o : Nat} (hs : s₀.leadsTo s) : s₀.leadsTo (s.takeOver fleet o) := by
  delta State.takeOver
  extract_lets rs found ended live fresh until' subs src src' s1 s2 s3 tray s4 before order
  have hs1 : s₀.leadsTo s1 := hs.same
  have hs2 : s₀.leadsTo s2 := hs1.wr.bump.bump.bump
  have hs3 : s₀.leadsTo s3 := hs2.foldl (fun s m hs => .ite hs hs.sendShard)
  have hs4 : s₀.leadsTo s4 := .ite hs3.callSpare hs3.restore
  exact hs4.tkPlaceAll.foldl (fun s t hs => hs.tkAssign)

theorem State.leadsTo.freeSlot {slot : Nat} (hs : s₀.leadsTo s) : s₀.leadsTo (s.freeSlot slot) := by
  delta State.freeSlot
  extract_lets s1 mine keep src
  have hs1 : s₀.leadsTo s1 := hs.freeReq
  exact hs1.same

theorem State.leadsTo.endSession {i : Nat} (hs : s₀.leadsTo s) : s₀.leadsTo (s.endSession i) := by
  delta State.endSession
  extract_lets until'
  split
  · exact hs
  · extract_lets f s1 mine old new' src src' s2 s3
    have hs1 : s₀.leadsTo s1 := .ite hs.setOwner hs
    have hs2 : s₀.leadsTo s2 := hs1.same
    have hs3 : s₀.leadsTo s3 := hs2.foldl (fun s e hs => hs.freeSlot)
    exact hs3.setSession

theorem State.leadsTo.forgetSession {i : Nat} (hs : s₀.leadsTo s) : s₀.leadsTo (s.forgetSession i) := by
  delta State.forgetSession
  extract_lets s1 src s2
  have hs1 : s₀.leadsTo s1 := hs.dropSession
  have hs2 : s₀.leadsTo s2 := hs1.same
  exact hs2.journalSession

theorem State.leadsTo.closeReady (hs : s₀.leadsTo s) : s₀.leadsTo (s.closeReady) := by
  delta State.closeReady
  refine hs.foldl (fun s e hs => .ite ?_ hs)
  extract_lets s1 cs s2
  have hs1 : s₀.leadsTo s1 := hs.endSession
  have hs2 : s₀.leadsTo s2 := hs1.foldl (fun s r hs => hs.answerSeq)
  exact .ite hs1.forgetSession (.ite hs2.forgetSession hs2)

theorem State.leadsTo.closeSent {i : Nat} (hs : s₀.leadsTo s) : s₀.leadsTo (s.closeSent i) := by
  delta State.closeSent
  split
  · exact .ite hs.forgetSession hs
  · exact hs

theorem State.leadsTo.windowNow {rkey : Nat} (hs : s₀.leadsTo s) : s₀.leadsTo (s.windowNow rkey) := by
  delta State.windowNow
  split
  · exact hs.setSpan
  · exact hs

theorem State.leadsTo.settleOne {r : JRec} (hs : s₀.leadsTo s) : s₀.leadsTo (s.settleOne r) := by
  delta State.settleOne
  split
  · split
    · exact hs.foldl (fun s e hs => hs.tkCommit)
    · split
      · exact hs.setTk
      · exact hs
    · exact hs
  · split
    · exact hs.answerSeq
    · exact hs.foldl (fun s e hs => hs.commitToken)
    · refine .ite hs.freeSlot ?_
      split
      · exact hs.setReq
      · exact hs
    · extract_lets s1
      have hs1 : s₀.leadsTo s1 := hs.releaseReply
      refine .ite hs1.closeSent (.ite hs1.windowNow (.ite ?_ hs1))
      split
      · exact .ite hs1.setReq.acceptBoundary hs1
      · exact hs1
    · exact hs.sendEvent
    · exact .ite hs.tellOwner hs
    · exact hs

theorem State.leadsTo.settle (hs : s₀.leadsTo s) : s₀.leadsTo (s.settle) := by
  delta State.settle
  extract_lets n done src s1
  have hs1 : s₀.leadsTo s1 := hs.same
  refine .ite (.closeReady (hs1.foldl (fun s r hs => ?_))) hs
  extract_lets src' s2
  have hs2 : s₀.leadsTo s2 := hs.same
  exact .ite hs2 hs2.settleOne

theorem State.leadsTo.becomeActive {fleet : Fleet} (hs : s₀.leadsTo s) : s₀.leadsTo (s.becomeActive fleet) := by
  delta State.becomeActive
  extract_lets s1 src s2 s3
  have hs1 : s₀.leadsTo s1 := hs.setJState
  have hs2 : s₀.leadsTo s2 := hs1.same
  have hs3 : s₀.leadsTo s3 := by
    unfold s3
    split
    · exact hs2.takeOver
    · exact hs2
  exact hs3.settle

theorem State.leadsTo.refusal (hs : s₀.leadsTo s) : s₀.leadsTo (s.refusal) := by
  delta State.refusal
  extract_lets n again src s1 out s1'
  have hs1 : s₀.leadsTo s1 := hs.same
  have hs1' : s₀.leadsTo s1' := hs.same
  refine .ite ?_ (.ite hs (.journalError (.ite hs1'.setJState hs1')))
  split
  · exact .ite (.sendRecords (.ite hs1.setJState hs1)) hs
  · exact hs

theorem State.leadsTo.priorAck {map : List (Nat × Nat)} {jsn : Nat} (hs : s₀.leadsTo s) : s₀.leadsTo (s.priorAck map jsn) := by
  delta State.priorAck
  extract_lets now' rs
  exact hs.foldl (fun s r hs => hs.same.settleOne)

theorem State.leadsTo.noteRounds {old n : Nat} (hs : s₀.leadsTo s) : s₀.leadsTo (s.noteRounds old n) := by
  delta State.noteRounds
  refine hs.foldl (fun s r hs => .ite ?_ hs)
  split
  · exact hs.noteRound
  · exact hs

theorem State.leadsTo.execJrnlAck {src jsn free : Nat} {fleet : Fleet} (hs : s₀.leadsTo s) : s₀.leadsToRes (execJrnlAck src jsn free fleet s) := by
  delta Machine.execJrnlAck
  extract_lets s0 s1 old n s2 src' s3 s4
  have hs0 : s₀.leadsTo s0 := hs.takeInbox
  have hs1 : s₀.leadsTo s1 := hs0.hear
  have hs2 : s₀.leadsTo s2 := hs1.wr.noteRounds
  have hs3 : s₀.leadsTo s3 := hs2.same
  have hs4 : s₀.leadsTo s4 := by
    unfold s4
    split
    · exact .ite hs3.becomeActive hs3
    · exact hs3
  refine State.leadsTo.next (.ite hs (.ite hs4.settle.refusal.settle ?_))
  split
  · exact .ite hs0.priorAck hs0
  · exact hs0

theorem State.leadsTo.execJrnlRecords {src : Nat} {recs : List JRec} (hs : s₀.leadsTo s) : s₀.leadsToRes (execJrnlRecords src recs s) := by
  delta Machine.execJrnlRecords
  extract_lets s0 s1 src' s2
  have hs0 : s₀.leadsTo s0 := hs.takeInbox
  have hs1 : s₀.leadsTo s1 := hs0.hear
  have hs2 : s₀.leadsTo s2 := hs1.same.foldl (fun s r hs => hs.holdRecord)
  exact State.leadsTo.next (.ite hs (.ite (.ite hs1.same.sendAck hs2.sendAck) (.ite hs0.sendMsg hs0)))

theorem State.leadsTo.pairWith {p size : Nat} {fleet : Fleet} (hs : s₀.leadsTo s) : s₀.leadsTo (s.pairWith p size fleet) := by
  delta State.pairWith
  extract_lets hold home frozen first n1 n late mine all s1 src s2 now' src' s3
  have hs1 : s₀.leadsTo s1 := hs.wr.wr.wr.setJState
  have hs2 : s₀.leadsTo s2 := hs1.same
  have hs3 : s₀.leadsTo s3 := hs2.same
  exact .ite hs3.becomeActive hs3.sendRecords

theorem State.leadsTo.askAlternate {k : Nat} (hs : s₀.leadsTo s) : s₀.leadsTo (s.askAlternate k) := by
  delta State.askAlternate
  extract_lets src
  split
  · extract_lets s1 src'
    have hs1 : s₀.leadsTo s1 := hs.sendMsg
    exact hs1.same
  · exact hs.same

theorem State.leadsTo.askFirst {p : Nat} (hs : s₀.leadsTo s) : s₀.leadsTo (s.askFirst p) := by
  delta State.askFirst
  extract_lets s1 src
  have hs1 : s₀.leadsTo s1 := hs.sendMsg
  exact hs1.same

theorem State.leadsTo.startPairing (hs : s₀.leadsTo s) : s₀.leadsTo (s.startPairing) := by
  delta State.startPairing
  extract_lets s1
  have hs1 : s₀.leadsTo s1 := hs.setJState
  refine .ite ?_ hs
  split
  · exact .ite hs1.journalError hs1.askFirst
  · exact hs

theorem State.leadsTo.grantFirst {p : Nat} (hs : s₀.leadsTo s) : s₀.leadsTo (s.grantFirst p) :=
  .ite hs.sendMsg.pairWith hs

theorem State.leadsTo.execPairReq {src old jsn : Nat} (hs : s₀.leadsTo s) : s₀.leadsToRes (execPairReq src old jsn s) := by
  delta Machine.execPairReq
  extract_lets s0 roomy grant s1 src' src'' s1' s2 s1''
  have hs0 : s₀.leadsTo s0 := hs.takeInbox
  have hs1 : s₀.leadsTo s1 := hs0.sendMsg.sendMsg
  have hs1' : s₀.leadsTo s1' := hs0.same
  have hs2 : s₀.leadsTo s2 := .ite hs1'.setJState hs1'
  have hs1'' : s₀.leadsTo s1'' := hs0.same
  exact State.leadsTo.next (.ite hs (.ite (.ite hs1.same (.ite (.grantFirst (.ite hs2 hs2.askFirst)) hs0)) (.ite hs0 (.ite hs0.sendMsg.pairWith (.ite hs0 hs1''.sendMsg.pairWith.sendMsg)))))

theorem State.leadsTo.execPairGrant {src granted size : Nat} {fleet : Fleet} (hs : s₀.leadsTo s) : s₀.leadsToRes (execPairGrant src granted size fleet s) := by
  delta Machine.execPairGrant
  extract_lets s0 asked
  have hs0 : s₀.leadsTo s0 := hs.takeInbox
  exact State.leadsTo.next (.ite hs (.ite hs0.pairWith hs0))

theorem State.leadsTo.execPairRetry (hs : s₀.leadsTo s) : s₀.leadsToRes (execPairRetry s) := by
  delta Machine.execPairRetry
  refine State.leadsTo.next (.ite ?_ (.ite ?_ hs))
  · split
    · exact .ite hs.askFirst hs
    · exact hs
  · split
    · exact .ite hs.askAlternate hs
    · exact .ite hs.askAlternate hs

theorem State.leadsTo.execJournalHoldRecord (hs : s₀.leadsTo s) : s₀.leadsToRes (execJournalHoldRecord s) :=
  State.leadsTo.next (.ite hs.journalError hs)

theorem State.leadsTo.declareFailed {p : Nat} {able : List (Nat × Nat)} (hs : s₀.leadsTo s) : s₀.leadsTo (s.declareFailed p able) := by
  delta State.declareFailed
  extract_lets s1 s2 src s3
  have hs1 : s₀.leadsTo s1 := hs.bump.wr.setJState
  have hs2 : s₀.leadsTo s2 := hs1.wr.journalError
  have hs3 : s₀.leadsTo s3 := hs2.same
  exact hs3.abortLists.tkReassign.askAlternate

theorem State.leadsTo.execPartnerTimeout {able : List (Nat × Nat)} (hs : s₀.leadsTo s) : s₀.leadsToRes (execPartnerTimeout able s) := by
  delta Machine.execPartnerTimeout
  refine State.leadsTo.next ?_
  split
  · exact .ite hs.declareFailed hs
  · exact hs

theorem State.leadsTo.execFaultNotice {src : Nat} {able : List (Nat × Nat)} (hs : s₀.leadsTo s) : s₀.leadsToRes (execFaultNotice src able s) :=
  State.leadsTo.next (.ite hs.declareFailed hs)

theorem State.leadsTo.fenceSlot {e : Nat × Req} (hs : s₀.leadsTo s) : s₀.leadsTo (s.fenceSlot e) := by
  delta State.fenceSlot
  extract_lets s1 s2 src rec' src' s3
  have hs1 : s₀.leadsTo s1 := hs.dropKv
  have hs2 : s₀.leadsTo s2 := .ite hs1.unrefPfx hs1
  have hs3 : s₀.leadsTo s3 := by
    unfold s3
    split
    · exact hs2.sendMsg
    · exact hs2.same
  exact hs3.freeSlot

theorem State.leadsTo.execFenceOut {src home : Nat} (hs : s₀.leadsTo s) : s₀.leadsToRes (execFenceOut src home s) := by
  delta Machine.execFenceOut
  extract_lets s0 s1 s2 s3 src' src'' src''' s4
  have hs0 : s₀.leadsTo s0 := hs.takeInbox
  have hs1 : s₀.leadsTo s1 := hs0.bump.foldl (fun s e hs => hs.fenceSlot)
  have hs2 : s₀.leadsTo s2 := hs1.setJState
  have hs3 : s₀.leadsTo s3 := hs2.wr
  have hs4 : s₀.leadsTo s4 := hs3.same
  exact State.leadsTo.next (.ite hs (.ite hs0 hs4.askAlternate))

theorem State.leadsTo.protReg {kind index value : Nat} (hs : s₀.leadsTo s) : s₀.leadsTo (s.protReg kind index value) := by
  delta State.protReg
  extract_lets i w
  split
  · exact hs.wr.wr
  · exact hs.setSpan
  · exact hs.wr.wr
  · exact hs.setWord

theorem State.leadsTo.restoreRec {r : JRec} (hs : s₀.leadsTo s) : s₀.leadsTo (s.restoreRec r) := by
  delta State.restoreRec
  split
  · extract_lets s1 rs src
    have hs1 : s₀.leadsTo s1 := hs.setSession
    exact hs1.same.journalSession
  · extract_lets i e
    split
    · extract_lets s1
      have hs1 : s₀.leadsTo s1 := hs.setSession
      exact hs1.newRecord
    · exact hs
  · extract_lets s0 s1 src
    have hs0 : s₀.leadsTo s0 := by
      unfold s0
      split
      · exact hs.budgetApply
      · exact hs.poke
    have hs1 : s₀.leadsTo s1 := hs0.newRecord
    exact .ite hs hs1.same
  · extract_lets c s1
    have hs1 : s₀.leadsTo s1 := hs.protReg.newRecord
    exact hs1.foldl (fun s d hs => hs.same)
  · exact hs

theorem State.leadsTo.execResyncData {src : Nat} {recs : List JRec} {open' : List (Nat × Nat × Nat)} (hs : s₀.leadsTo s) : s₀.leadsToRes (execResyncData src recs open' s) := by
  delta Machine.execResyncData
  extract_lets s0 src' s1 s2
  have hs0 : s₀.leadsTo s0 := hs.takeInbox
  have hs1 : s₀.leadsTo s1 := hs0.foldl (fun s r hs => hs.restoreRec)
  have hs2 : s₀.leadsTo s2 := .ite hs1.renewLease hs1
  exact State.leadsTo.next (.ite hs (.ite (.ite hs0.same.sendAck (.sendAck (hs0.same.foldl (fun s r hs => hs.holdRecord)))) (.ite (hs2.foldl (fun s c hs => hs.emit)) hs0)))

theorem State.leadsTo.execRejoinExpiry (hs : s₀.leadsTo s) : s₀.leadsToRes (execRejoinExpiry s) := by
  delta Machine.execRejoinExpiry
  extract_lets s1 src
  have hs1 : s₀.leadsTo s1 := by
    unfold s1
    refine hs.foldl (fun s c hs => ?_)
    extract_lets body
    split
    · exact hs
    · split
      · exact hs.sendEvent
      · exact hs
  exact State.leadsTo.next (.ite hs hs1.same)

theorem State.leadsTo.execTakeoverAssign {src o oslot prio : Nat} (hs : s₀.leadsTo s) : s₀.leadsToRes (execTakeoverAssign src o oslot prio s) := by
  delta Machine.execTakeoverAssign
  extract_lets s0 rest src'
  have hs0 : s₀.leadsTo s0 := hs.takeInbox
  exact State.leadsTo.next (.ite hs hs0.same)

theorem State.leadsTo.execTakeoverState {src : Nat} {t : TkState} (hs : s₀.leadsTo s) : s₀.leadsToRes (execTakeoverState src t s) := by
  delta Machine.execTakeoverState
  extract_lets s0 src'
  have hs0 : s₀.leadsTo s0 := hs.takeInbox
  refine State.leadsTo.next (.ite hs ?_)
  split
  · exact hs0
  · extract_lets s1 r src''
    have hs1 : s₀.leadsTo s1 := hs0.same
    split
    · exact hs1.sendMsg
    · exact hs1.same.setReq

theorem State.leadsTo.execTakeoverToken {src o oslot index tok : Nat} {last : Bool} (hs : s₀.leadsTo s) : s₀.leadsToRes (execTakeoverToken src o oslot index tok last s) := by
  delta Machine.execTakeoverToken
  extract_lets s0
  have hs0 : s₀.leadsTo s0 := hs.takeInbox
  refine State.leadsTo.next (.ite hs ?_)
  split
  · exact hs0
  · exact .ite hs0 hs0.setTk.newRecordFor

theorem State.leadsTo.execTakeoverAck {src o oslot index : Nat} (hs : s₀.leadsTo s) : s₀.leadsToRes (execTakeoverAck src o oslot index s) := by
  delta Machine.execTakeoverAck
  extract_lets s0
  have hs0 : s₀.leadsTo s0 := hs.takeInbox
  refine State.leadsTo.next (.ite hs ?_)
  split
  · exact hs0
  · split
    · exact hs0
    · split
      · exact hs0
      · extract_lets r' s1
        have hs1 : s₀.leadsTo s1 := hs0.setReq.charge
        exact .ite hs0 (.ite hs1.endReq (.ite hs1.endReq hs1))

theorem State.leadsTo.execTakeoverCtrl {src o oslot action : Nat} {rec' : List Byte} {able : List (Nat × Nat)} (hs : s₀.leadsTo s) : s₀.leadsToRes (execTakeoverCtrl src o oslot action rec' able s) := by
  delta Machine.execTakeoverCtrl
  extract_lets s0
  have hs0 : s₀.leadsTo s0 := hs.takeInbox
  refine State.leadsTo.next (.ite hs (.ite ?_ ?_))
  · split
    · exact hs0
    · exact .ite hs0 (.ite hs0.tkAssign hs0.tkFinal)
  · split
    · exact hs0
    · split
      · exact hs0
      · exact .ite hs0.setReq (.ite hs0.setReq.endReq hs0)

theorem State.leadsTo.spareSwitch {h : Nat} (hs : s₀.leadsTo s) : s₀.leadsTo (s.spareSwitch h) := by
  delta State.spareSwitch
  split
  · exact hs
  · split
    · exact hs
    · extract_lets w
      exact hs.setPkg.beginSwitch

theorem State.leadsTo.execSpareCall {src failed tray : Nat} (hs : s₀.leadsTo s) : s₀.leadsToRes (execSpareCall src failed tray s) := by
  delta Machine.execSpareCall
  extract_lets s0 src' s1 hs' s2
  have hs0 : s₀.leadsTo s0 := hs.takeInbox
  have hs1 : s₀.leadsTo s1 := hs0.same
  have hs2 : s₀.leadsTo s2 := hs1.foldl (fun s h hs => hs.serveNow.spareSwitch)
  exact State.leadsTo.next (.ite hs (.ite hs2.spareDone hs0.callSpare))

theorem State.leadsTo.dropMembersOf {m : Nat} (hs : s₀.leadsTo s) : s₀.leadsTo (s.dropMembersOf m) := by
  delta State.dropMembersOf
  refine hs.foldl (fun s e hs => ?_)
  split
  · exact .ite hs.dropKv.freeReq hs
  · exact hs

theorem State.leadsTo.execE2eDead {m : Nat} {able : List (Nat × Nat)} (hs : s₀.leadsTo s) : s₀.leadsToRes (execE2eDead m able s) := by
  delta Machine.execE2eDead
  extract_lets s1 s2
  have hs1 : s₀.leadsTo s1 := hs.declareDead.abortLists.supplierGone
  have hs2 : s₀.leadsTo s2 := hs1.tkReassign.dropMembersOf
  exact .ite (State.leadsTo.next (.ite (.ite hs2.declareFailed hs2) hs)) (.refused)

theorem State.leadsTo.execNorouteTimeout {dst : Nat} (hs : s₀.leadsTo s) : s₀.leadsToRes (execNorouteTimeout dst s) := by
  delta Machine.execNorouteTimeout
  extract_lets old src s1 s2 s3
  have hs1 : s₀.leadsTo s1 := hs.same
  have hs2 : s₀.leadsTo s2 := hs1.foldl (fun s w hs => hs.bump.emit)
  have hs3 : s₀.leadsTo s3 := .ite hs2.abortLists hs2
  exact .ite (State.leadsTo.next (.ite hs (.ite hs3.supplierGone hs3))) (.refused)

theorem State.leadsTo.writeToken {q ring : Nat} {g : Sys2Proof.Ring} {n : Nat} {t : RingTok} (hs : s₀.leadsTo s) : s₀.leadsTo (s.writeToken q ring g n t) :=
  hs.emit

theorem State.leadsTo.rewriteRings {i : Nat} (hs : s₀.leadsTo s) : s₀.leadsTo (s.rewriteRings i) := by
  delta State.rewriteRings
  split
  · exact hs
  · extract_lets q
    exact hs.foldl (fun s e hs => hs.foldl (fun s t hs => hs.writeToken))

theorem State.leadsTo.unbindQp {q : Nat} (hs : s₀.leadsTo s) : s₀.leadsTo (s.unbindQp q) := by
  delta State.unbindQp
  split
  · exact hs
  · extract_lets s1
    have hs1 : s₀.leadsTo s1 := hs.setQp
    split
    · exact hs1
    · split
      · exact hs1
      · extract_lets qs
        exact .ite hs1.setSession.journalSession hs1.setSession.rewriteRings

theorem State.leadsTo.qpError {q : Nat} (hs : s₀.leadsTo s) : s₀.leadsTo (s.qpError q) := by
  delta State.qpError
  split
  · exact hs
  · exact .ite hs hs.unbindQp

theorem State.leadsTo.hostLinkEvent {p cause : Nat} (hs : s₀.leadsTo s) : s₀.leadsTo (s.hostLinkEvent p cause) := by
  delta State.hostLinkEvent
  extract_lets st
  exact hs.broadcast

theorem State.leadsTo.hostPortDown {p cause : Nat} (hs : s₀.leadsTo s) : s₀.leadsTo (s.hostPortDown p cause) := by
  delta State.hostPortDown
  extract_lets s1 src s2
  have hs1 : s₀.leadsTo s1 := hs.wr.wr
  have hs2 : s₀.leadsTo s2 := hs1.same
  exact .ite (.hostLinkEvent (hs2.foldl (fun s e hs => hs.qpError))) hs

theorem State.leadsTo.hostPortUp {p rate : Nat} (hs : s₀.leadsTo s) : s₀.leadsTo (s.hostPortUp p rate) := by
  delta State.hostPortUp
  extract_lets v
  exact .ite hs hs.wr.wr.hostLinkEvent

theorem State.leadsTo.execHostPortLinkChange {p : Nat} {up : Bool} {rate : Nat} (hs : s₀.leadsTo s) : s₀.leadsToRes (execHostPortLinkChange p up rate s) :=
  .ite (.refused) (State.leadsTo.next (.ite (.ite hs.hostPortUp hs) hs.hostPortDown))

theorem State.leadsTo.clearDie {d : Nat} (hs : s₀.leadsTo s) : s₀.leadsTo (s.clearDie d) := by
  unfold State.clearDie
  extract_lets a t arr strm _ s1 s2
  have hs1 : s₀.leadsTo s1 := hs.trans ⟨rfl, rfl, List.suffix_rfl, .refl _, SMap.wfB_keep (0 : Byte) a.sram (fun k _ => decide (k / 524288 / 1024 ≠ d)), id, id⟩
  have hs2 : s₀.leadsTo s2 := hs1.foldl fun t p ht => ht.wr
  exact hs2.foldl fun t k ht => .ite ht.wr ht

theorem State.leadsTo.loseNear {d : Nat} (hs : s₀.leadsTo s) : s₀.leadsTo (s.loseNear d) := by
  delta State.loseNear
  extract_lets s1
  have hs1 : s₀.leadsTo s1 := hs.foldl (fun s e hs => .ite (.ite hs.dropNear hs.shootdown.masZero.dropPte) hs)
  exact hs1.foldl (fun s j hs => .ite (.ite hs.setJob hs) hs.fixJob)

theorem State.leadsTo.stacksOff {d : Nat} (hs : s₀.leadsTo s) : s₀.leadsTo (s.stacksOff d) := by
  delta State.stacksOff
  extract_lets on
  exact hs.wr

theorem State.leadsTo.settlePkgs {dies : List Nat} (hs : s₀.leadsTo s) : s₀.leadsTo (s.settlePkgs dies) := by
  delta State.settlePkgs
  refine hs.foldl (fun s e hs => ?_)
  extract_lets hit s1
  have hs1 : s₀.leadsTo s1 := .ite hs.switchOut (.ite hs.failSwitch hs)
  split
  · exact hs1
  · extract_lets whole
    exact .ite hs1.setPkg hs1

theorem State.leadsTo.settleLost {dies : List Nat} (hs : s₀.leadsTo s) : s₀.leadsTo (s.settleLost dies) := by
  delta State.settleLost
  extract_lets lost src s1
  have hs1 : s₀.leadsTo s1 := hs.same
  exact hs1.settlePkgs

theorem State.leadsTo.dieToA2 {d : Nat} (hs : s₀.leadsTo s) : s₀.leadsTo (s.dieToA2 d) :=
  hs.emptyDie.clearDie.setDieP

theorem State.leadsTo.dieToA3 {d : Nat} (hs : s₀.leadsTo s) : s₀.leadsTo (s.dieToA3 d) :=
  hs.haltDie.loseNear.stacksOff.emptyDie.clearDie.setDieP

theorem State.leadsTo.pairOffline {d p : Nat} (hs : s₀.leadsTo s) : s₀.leadsTo (s.pairOffline d p) :=
  hs.foldl (fun _ _ hs => hs.wr)

theorem State.leadsTo.dieToA0 {d : Nat} (hs : s₀.leadsTo s) : s₀.leadsTo (s.dieToA0 d) :=
  hs.setDieP.foldl (fun _ _ hs => .ite hs.pairOffline hs.wr)

theorem State.leadsTo.diesOff (hs : s₀.leadsTo s) : s₀.leadsTo (s.diesOff) :=
  .settleLost (hs.foldl (fun _ _ hs => .ite hs hs.dieToA3))

theorem State.leadsTo.diesIdle (hs : s₀.leadsTo s) : s₀.leadsTo (s.diesIdle) :=
  hs.foldl (fun _ _ hs => .ite hs.dieToA2 hs)

theorem State.leadsTo.faultFrom {old : Machine.State} (hs : s₀.leadsTo s) : s₀.leadsTo (s.faultFrom old) :=
  .ite hs hs.emit

theorem State.leadsTo.endStartup {st : Nat} (hs : s₀.leadsTo s) : s₀.leadsTo (s.endStartup st) := by
  delta State.endStartup
  extract_lets src src'
  have hsrc : s₀.leadsTo src := hs.wr
  exact hsrc.same

theorem State.leadsTo.parkNow (hs : s₀.leadsTo s) : s₀.leadsTo (s.parkNow) := by
  delta State.parkNow
  extract_lets s1 src s2
  have hs1 : s₀.leadsTo s1 := .ite hs.endStartup hs
  have hs2 : s₀.leadsTo s2 := hs1.same
  exact hs2.diesOff.moduleTo

theorem State.leadsTo.faultNotify (hs : s₀.leadsTo s) : s₀.leadsTo (s.faultNotify) := by
  delta State.faultNotify
  split
  · exact hs.emit
  · exact hs

theorem State.leadsTo.dropDisables (hs : s₀.leadsTo s) : s₀.leadsTo (s.dropDisables) := by
  delta State.dropDisables
  extract_lets s1 src
  have hs1 : s₀.leadsTo s1 := hs.foldl (fun s d hs => hs.completeAll)
  exact hs1.same

theorem State.leadsTo.pclStop {outcome st : Nat} (hs : s₀.leadsTo s) : s₀.leadsTo (s.pclStop outcome st) := by
  delta State.pclStop
  split
  · exact hs
  · extract_lets k ms late s1 s2 rs src src'
    have hs1 : s₀.leadsTo s1 := .ite hs hs.wr
    have hs2 : s₀.leadsTo s2 := hs1.wr.wr
    exact hs2.same

theorem State.leadsTo.abandon (hs : s₀.leadsTo s) : s₀.leadsTo (s.abandon) :=
  hs.same

theorem State.leadsTo.moduleFault (hs : s₀.leadsTo s) : s₀.leadsTo (s.moduleFault) :=
  .ite hs.endStartup.moduleTo hs.pclStop.abandon.faultNotify.dropDisables.parkNow

theorem State.leadsTo.stopCores (hs : s₀.leadsTo s) : s₀.leadsTo s.stopCores := by
  unfold State.stopCores
  extract_lets s1 mgmt on _ mas _ host _ _ s2 s3 s3' s4 s5 s6
  have hs1 : s₀.leadsTo s1 := hs.foldl fun t d ht => ht.dieToA3
  have hs2 : s₀.leadsTo s2 := hs1.trans ⟨rfl, rfl, List.suffix_rfl, .refl _, fun _ => rfl, fun _ => rfl, fun _ => rfl⟩
  have hs3 : s₀.leadsTo s3 := hs2.foldl fun t p ht => .ite ht ht.wr.wr
  have hs3' : s₀.leadsTo s3' := hs3.foldl fun t p ht => ht.wr.wr
  have hs4 : s₀.leadsTo s4 := hs3'.wr.wr.setJState.wr.wr
  have hs5 : s₀.leadsTo s5 := hs4.wr.foldl fun t d ht => .ite ht ht.wr.wr
  have hs6 : s₀.leadsTo s6 := .ite hs5 hs5.wr.wr
  exact hs6.wr.same

theorem State.leadsTo.slewTo {d p : Nat} (hs : s₀.leadsTo s) : s₀.leadsTo (s.slewTo d p) :=
  hs.same

theorem State.leadsTo.stretch (hs : s₀.leadsTo s) : s₀.leadsTo (s.stretch) := by
  delta State.stretch
  extract_lets l
  refine hs.foldl (fun s d hs => .ite ?_ hs)
  extract_lets m
  exact hs.wr.slewTo

theorem State.leadsTo.setLimit {l src : Nat} (hs : s₀.leadsTo s) : s₀.leadsTo (s.setLimit l src) := by
  delta State.setLimit
  extract_lets s1
  have hs1 : s₀.leadsTo s1 := hs.wr.wr
  exact .ite hs1 hs1.powerEvent

theorem State.leadsTo.updateLimit (hs : s₀.leadsTo s) : s₀.leadsTo (s.updateLimit) := by
  delta State.updateLimit
  extract_lets g l src src'
  have hsrc : s₀.leadsTo src := hs.wr
  exact .ite hs.setLimit.stretch (.ite hs hsrc.same)

theorem State.leadsTo.raiseLimit (hs : s₀.leadsTo s) : s₀.leadsTo (s.raiseLimit) := by
  delta State.raiseLimit
  extract_lets g l up src s1
  have hs1 : s₀.leadsTo s1 := hs.same
  exact .ite (.ite hs1.setLimit hs1.setLimit) hs

theorem State.leadsTo.beginStartup (hs : s₀.leadsTo s) : s₀.leadsTo (s.beginStartup) := by
  delta State.beginStartup
  extract_lets n src src' s1 s2
  have hs1 : s₀.leadsTo s1 := hs.same
  have hs2 : s₀.leadsTo s2 := hs1.wr.wr
  exact .ite hs2.wr.endStartup.moduleTo.faultFrom hs2.wr.faultFrom

theorem State.leadsTo.coldReset {cause : Nat} (hs : s₀.leadsTo s) : s₀.leadsTo (s.coldReset cause) := by
  unfold State.coldReset
  extract_lets n _ _ _ _ _ _ t t1 t2 t3 capLow pfwLow t4 t5
  have ht : s₀.leadsTo t := hs.trans ⟨rfl, rfl, List.suffix_rfl, .refl _, fun _ => rfl, fun _ => rfl, fun _ => rfl⟩
  have ht1 : s₀.leadsTo t1 := ht.wr.wrFlag.wrFlag.wr
  have ht2 : s₀.leadsTo t2 := ht1.wr.foldl fun t k ht => ht.wr.wr.wr
  have ht4 : s₀.leadsTo t4 := ht2.wr.wr.wr
  have ht5 : s₀.leadsTo t5 := ht4.wr.wrFlag.updateLimit
  exact ht5.faultFrom

theorem State.leadsTo.startDisable {k : FnKind} {id : Nat} {retire : Bool} {deadline : Nat} {users : List (Nat × Nat)} (hs : s₀.leadsTo s) : s₀.leadsTo (s.startDisable k id retire deadline users) := by
  delta State.startDisable
  extract_lets src d s1 src'
  have hs1 : s₀.leadsTo s1 := hs.same
  split
  · extract_lets d'
    exact hs.same
  · exact .ite hs1.setPort hs1

theorem State.leadsTo.cutFlights {k : FnKind} {id : Nat} (hs : s₀.leadsTo s) : s₀.leadsTo (s.cutFlights k id) := by
  delta State.cutFlights
  refine hs.foldl (fun s e hs => ?_)
  split
  · exact hs
  · refine hs.foldl (fun s f hs => ?_)
    extract_lets mine die s1 rest g
    have hs1 : s₀.leadsTo s1 := hs.foldl (fun s c hs => hs.haltSlot)
    exact .ite hs (.ite hs1.setFlights hs1.setFlights.emit)

theorem State.leadsTo.moveWork {k : FnKind} {id : Nat} {replica : Option Nat} (hs : s₀.leadsTo s) : s₀.leadsTo (s.moveWork k id replica) := by
  delta State.moveWork
  refine hs.foldl (fun s slot hs => ?_)
  split
  · exact hs
  · refine .ite hs.endReq (.ite hs.endReq ?_)
    split
    · exact hs.moveReq
    · exact hs.endReq

theorem State.leadsTo.leaveDie {d : Nat} {retire : Bool} (hs : s₀.leadsTo s) : s₀.leadsTo (s.leaveDie d retire) := by
  delta State.leaveDie
  refine hs.foldl (fun s e hs => .ite (.ite ?_ hs.failSwitch) hs)
  extract_lets s1 w
  have hs1 : s₀.leadsTo s1 := hs.switchOut
  split
  · exact hs1
  · extract_lets src
    refine .ite ?_ hs1
    split
    · exact hs1
    · extract_lets q
      exact hs1.setPkg.beginSwitch

theorem Fuses.burnsTo_retiredDies (f : Fuses) (l : List Nat) : f.burnsTo { f with retiredDies := l } := { Fuses.burnsTo.refl f with }

theorem State.leadsTo.fuseDie {d : Nat} (hs : s₀.leadsTo s) : s₀.leadsTo (s.fuseDie d) := by
  unfold State.fuseDie
  exact .ite hs (hs.burn_of (s.fuses.burnsTo_retiredDies _)).leaveDie.dieToA3.settleLost.shrink

theorem State.leadsTo.velvetCheck (hs : s₀.leadsTo s) : s₀.leadsTo (s.velvetCheck) :=
  .ite hs (hs.moduleFault.foldl (fun _ _ hs => hs.fuseDie))

theorem State.leadsTo.retireDie {d : Nat} (hs : s₀.leadsTo s) : s₀.leadsTo (s.retireDie d) :=
  hs.fuseDie.velvetCheck

theorem State.leadsTo.restReady (hs : s₀.leadsTo s) : s₀.leadsTo (s.restReady) :=
  .ite hs.diesIdle.moduleTo hs

theorem State.leadsTo.endDisable {d : Disable} (hs : s₀.leadsTo s) : s₀.leadsTo (s.endDisable d) := by
  delta State.endDisable
  extract_lets src s1 mark s2
  have hs1 : s₀.leadsTo s1 := hs.same
  have hs2 : s₀.leadsTo s2 := by
    unfold s2
    split
    · exact hs1.same
    · exact hs1.switchOut
    · exact hs1.portOff.bundlesDown.same
    · exact .same (.ite hs1.retireDie hs1.leaveDie.dieToA3.settleLost.velvetCheck)
    · exact .same (.ite hs1.haltSlot hs1)
  exact hs2.completeAll

theorem State.leadsTo.startDrain {parked : Bool} {deadline : Nat} (hs : s₀.leadsTo s) : s₀.leadsTo (s.startDrain parked deadline) := by
  delta State.startDrain
  extract_lets hs' s1 src
  have hs1 : s₀.leadsTo s1 := hs.foldl (fun s h hs => hs.startDisable)
  split
  · exact hs1.same
  · exact hs1.same.moduleTo

theorem State.leadsTo.execShardUpdate {src m h0 h1 h2 count : Nat} {inSvc : Bool} {able : List (Nat × Nat)} (hs : s₀.leadsTo s) : s₀.leadsToRes (execShardUpdate src m h0 h1 h2 count inSvc able s) := by
  delta Machine.execShardUpdate
  extract_lets s0 s1 was s2 s3
  have hs0 : s₀.leadsTo s0 := hs.takeInbox
  have hs1 : s₀.leadsTo s1 := hs0.wr.wr.wr.wr
  have hs2 : s₀.leadsTo s2 := hs1.wrFlag
  have hs3 : s₀.leadsTo s3 := hs2.abortLists.supplierGone.tkReassign
  exact .ite (State.leadsTo.next (.ite hs (.ite (.ite (.ite hs3.startDrain (.ite hs3.parkNow hs3)) hs3) hs2))) (.refused)

theorem State.leadsTo.finishDrain (hs : s₀.leadsTo s) : s₀.leadsTo (s.finishDrain) := by
  delta State.finishDrain
  extract_lets s1 s2 src
  have hs1 : s₀.leadsTo s1 := hs.foldl (fun s e hs => .ite hs.failSwitch hs)
  have hs2 : s₀.leadsTo s2 := by
    unfold s2
    refine hs1.foldl (fun s pn hs => ?_)
    split
    · exact .ite hs hs.demote
    · exact hs
  split
  · exact hs
  · exact .ite hs (.ite (.ite hs2.parkNow hs2) hs1.same.diesIdle.moduleTo)

theorem State.leadsTo.execDrainDeadline {k : FnKind} {id : Nat} {replica : Option Nat} (hs : s₀.leadsTo s) : s₀.leadsToRes (execDrainDeadline k id replica s) := by
  delta Machine.execDrainDeadline
  extract_lets src
  refine State.leadsTo.next ?_
  split
  · exact hs
  · extract_lets s1
    have hs1 : s₀.leadsTo s1 := hs.same
    exact .ite hs (.ite hs.endDisable hs1.cutFlights.moveWork)

theorem State.leadsTo.execDisableComplete {k : FnKind} {id : Nat} (hs : s₀.leadsTo s) : s₀.leadsToRes (execDisableComplete k id s) := by
  delta Machine.execDisableComplete
  refine State.leadsTo.next ?_
  split
  · exact hs.finishDrain
  · exact .ite hs.endDisable.restReady.finishDrain hs

theorem State.leadsTo.execStewardTakeover (hs : s₀.leadsTo s) : s₀.leadsToRes (execStewardTakeover s) :=
  State.leadsTo.next (.ite hs.moduleFault hs.stewardTakeover)

theorem State.leadsTo.execDiePowerDown {die : Nat} {a3 : Bool} (hs : s₀.leadsTo s) : s₀.leadsToRes (execDiePowerDown die a3 s) :=
  State.leadsToRes.onDie (State.leadsTo.next (.ite hs.turnAway (.ite hs.dieToA3.settleLost.velvetCheck (.ite hs hs.dieToA2))))

theorem State.leadsTo.execDieWake {die : Nat} (hs : s₀.leadsTo s) : s₀.leadsToRes (execDieWake die s) :=
  State.leadsToRes.onDie (State.leadsTo.next (.ite hs.dieToA0 hs.turnAway))

theorem State.leadsTo.execA1Entry {die : Nat} (hs : s₀.leadsTo s) : s₀.leadsToRes (execA1Entry die s) := by
  delta Machine.execA1Entry
  extract_lets us
  exact State.leadsToRes.onDie (State.leadsTo.next (.ite hs.setDieP hs))

theorem State.leadsTo.execA1Wake {die : Nat} {held : Option Nat} {cycles : Nat} (hs : s₀.leadsTo s) : s₀.leadsToRes (execA1Wake die held cycles s) := by
  delta Machine.execA1Wake
  extract_lets s1
  have hs1 : s₀.leadsTo s1 := hs.setDieP
  refine State.leadsToRes.onDie (State.leadsTo.next (.ite ?_ hs))
  split
  · exact .ite hs1.bump hs1
  · exact hs1

theorem State.leadsTo.retireRule {die : Nat} (hs : s₀.leadsTo s) : s₀.leadsTo (s.retireRule die) := by
  delta State.retireRule
  extract_lets pairs lost
  exact .ite hs hs.startDisable

theorem Fuses.burnsTo_retiredPairs (f : Fuses) (l : List (Nat × Nat)) : f.burnsTo { f with retiredPairs := l } :=
  { Fuses.burnsTo.refl f with }

theorem State.leadsTo.execLockstepMismatch {die pair : Nat} {replica : Option Nat} (hs : s₀.leadsTo s) :
    s₀.leadsToRes (execLockstepMismatch die pair replica s) := by
  unfold Machine.execLockstepMismatch
  extract_lets k again w s1 _ s2 sts _ s3 s4 s5
  have hs1 : s₀.leadsTo s1 := hs.wr.bumpSat
  have hs2 : s₀.leadsTo s2 := hs1.detect
  clear_value s2
  have hs3 : s₀.leadsTo s3 := hs2.same
  have hs4 : s₀.leadsTo s4 := hs3.foldl fun t st ht => ht.foldl fun t c ht => ht.faultStep
  have hs5 : s₀.leadsTo s5 := hs4.pairOffline
  clear_value s5
  exact .ite (State.leadsTo.next (.ite (hs5.burn_of (s5.fuses.burnsTo_retiredPairs _)).retireRule hs4)) (.ite hs.detect.next .refused)

theorem State.leadsTo.execStackRetire {k : Nat} (hs : s₀.leadsTo s) : s₀.leadsToRes (execStackRetire k s) :=
  .ite hs.retireStack.retireRule.next (.refused)

theorem State.leadsTo.rebuildKv {pn : Nat} (hs : s₀.leadsTo s) : s₀.leadsTo (s.rebuildKv pn) := by
  delta State.rebuildKv
  refine hs.foldl (fun s e hs => .ite ?_ hs)
  extract_lets h fs s1
  have hs1 : s₀.leadsTo s1 := hs.setFlights.dropKv
  split
  · exact hs1.setReq
  · exact hs1

theorem State.leadsTo.badNear {pn : Nat} {again : Bool} (hs : s₀.leadsTo s) : s₀.leadsTo (s.badNear pn again) := by
  delta State.badNear
  split
  · exact hs
  · extract_lets s1 s2 dies s2'
    have hs1 : s₀.leadsTo s1 := hs.retireNear
    have hs2 : s₀.leadsTo s2 := hs1.dropNear.fixJob
    have hs2' : s₀.leadsTo s2' := by
      unfold s2'
      refine .ite hs1.movePage (.ite ?_ hs1.shootdown.dropPte)
      split
      · exact hs1.movePage
      · exact hs1
    exact .ite hs (.ite (.ite (.ite hs2.requestPromotion hs2) hs2.settleLost) hs2'.masZero.rebuildKv)

theorem State.leadsTo.badBulk {pn : Nat} (hs : s₀.leadsTo s) : s₀.leadsTo (s.badBulk pn) := by
  delta State.badBulk
  split
  · exact hs
  · exact .ite hs.dropBulkOf.settleLost.settleMig hs

theorem State.leadsTo.badDeep {pn : Nat} (hs : s₀.leadsTo s) : s₀.leadsTo (s.badDeep pn) := by
  delta State.badDeep
  split
  · exact hs
  · exact .ite hs.dropDeepOf.settleLost.settleMig hs

theorem State.leadsTo.execPromotionComplete {part : Nat × Nat} {ok : Bool} (hs : s₀.leadsTo s) : s₀.leadsToRes (execPromotionComplete part ok s) := by
  delta Machine.execPromotionComplete
  extract_lets pn s0
  have hs0 : s₀.leadsTo s0 := hs.placeWaiting
  refine .ite (.refused) (State.leadsTo.next ?_)
  split
  · exact hs0
  · extract_lets r
    have hr : s₀.leadsToFst r := hs0.partDone
    exact .ite hs0 (.ite (.ite hr.promoted.settleMig hr) hs0.badSource.settleLost.settleMig)

theorem State.leadsTo.execPageTransferComplete {part : Nat × Nat} {ok : Bool} (hs : s₀.leadsTo s) : s₀.leadsToRes (execPageTransferComplete part ok s) := by
  delta Machine.execPageTransferComplete
  extract_lets pn
  refine .ite (.refused) (State.leadsTo.next ?_)
  split
  · exact hs
  · extract_lets r
    have hr : s₀.leadsToFst r := hs.partDone
    exact .ite hs.demoteNow.settleMig (.ite hs (.ite (.ite hr.transferred.settleMig hr) hs.badSource.settleLost.settleMig))

theorem State.leadsTo.execDdrChannelFail {ch : Nat} (hs : s₀.leadsTo s) : s₀.leadsToRes (execDdrChannelFail ch s) :=
  .ite (.refused) hs.channelFail.settleLost.settleMig.next

theorem State.leadsTo.execDriveFail {d : Nat} (hs : s₀.leadsTo s) : s₀.leadsToRes (execDriveFail d s) :=
  .ite (.refused) hs.driveFail.settleLost.settleMig.next

theorem State.leadsTo.stackRule {k : Nat} (hs : s₀.leadsTo s) : s₀.leadsTo (s.stackRule k) := by
  delta State.stackRule
  extract_lets n
  exact .ite hs.retireStack.retireRule hs

theorem State.leadsTo.refetchLine {die a : Nat} (hs : s₀.leadsTo s) : s₀.leadsTo (s.refetchLine die a) := by
  delta State.refetchLine
  refine hs.foldl (fun s strip hs => ?_)
  extract_lets k
  exact .ite hs.setWc.requestRange hs

theorem State.leadsTo.declareFaulty {die y x : Nat} (hs : s₀.leadsTo s) : s₀.leadsTo (s.declareFaulty die y x) :=
  .ite hs hs.same

theorem State.leadsTo.react {cls kind die : Nat} {slot : Option Nat} {addr : Nat} {replica : Option Nat} (hs : s₀.leadsTo s) : s₀.leadsTo (s.react cls kind die slot addr replica) := by
  delta State.react
  extract_lets onStep
  split
  · split
    · exact hs.freeze
    · exact hs
  · exact hs.refetchLine
  · unfold onStep
    split
    · exact hs.bump.badNear.faultStep
    · exact hs.bump.badNear
  · unfold onStep
    split
    · exact hs.bump.badBulk.faultStep
    · exact hs.bump.badBulk
  · exact .ite hs.bump.badDeep (.ite hs.bump.badNear hs.bump.badBulk)
  · refine .ite hs.repeatCopy.settleLost.settleMig ?_
    unfold onStep
    split
    · exact hs.faultStep
    · exact hs
  · unfold onStep
    split
    · exact hs.faultStep
    · exact hs
  · unfold onStep
    split
    · exact hs.faultStep
    · exact hs
  · unfold onStep
    split
    · exact hs.faultStep
    · exact hs
  · exact hs.bump.badDeep
  · exact hs

theorem State.leadsTo.execFaultMessage {cls kind source die : Nat} {slot : Option Nat} {addr step detail : Nat} {replica : Option Nat} (hs : s₀.leadsTo s) : s₀.leadsToRes (execFaultMessage cls kind source die slot addr step detail replica s) := by
  delta Machine.execFaultMessage
  extract_lets inReplay src d again s1 s2 s3
  have hs1 : s₀.leadsTo s1 := hs.detect
  have hs2 : s₀.leadsTo s2 := .ite hs1.declareFaulty hs1
  have hs3 : s₀.leadsTo s3 := hs2.react
  exact .ite (.refused) (.ite (.refused) (.ite (.refused) (State.leadsTo.next (.ite hs3.stackRule hs3))))

theorem State.leadsTo.holdAll {die n : Nat} (hs : s₀.leadsTo s) : s₀.leadsTo (s.holdAll die n) :=
  .ite hs.sameArr hs

theorem State.leadsTo.execKnownAnswerTest {die kind source : Nat} {ok : Bool} {first last : Nat} (hs : s₀.leadsTo s) : s₀.leadsToRes (execKnownAnswerTest die kind source ok first last s) := by
  delta Machine.execKnownAnswerTest
  extract_lets s1 src s2
  have hs1 : s₀.leadsTo s1 := .ite hs.bump.holdAll hs
  have hs2 : s₀.leadsTo s2 := hs1.detect
  exact .ite (.refused) (State.leadsTo.next (.ite hs1 (.ite hs2.declareFaulty hs2)))

theorem State.leadsTo.execPatrolScrub {mem : Nat} {out : ScrubOut} {kind source die addr : Nat} (hs : s₀.leadsTo s) : s₀.leadsToRes (execPatrolScrub mem out kind source die addr s) := by
  delta Machine.execPatrolScrub
  extract_lets src src' src'' s1
  have hs1 : s₀.leadsTo s1 := hs.detect
  refine .ite (.refused) (State.leadsTo.next ?_)
  split
  · exact hs.same
  · exact .ite hs hs.detect
  · split
    · exact hs1.bump.badNear.stackRule
    · exact hs1.bump.badBulk
    · exact hs1.bump.badDeep
    · exact hs1

theorem Fuses.burnsTo_repairs (f : Fuses) (l : List (Nat × Nat)) : f.burnsTo { f with repairs := l } := { Fuses.burnsTo.refl f with }

theorem State.leadsTo.fuseRepair {die x : Nat} (hs : s₀.leadsTo s) : s₀.leadsTo (s.fuseRepair die x) := by
  unfold State.fuseRepair
  exact (hs.burn_of (s.fuses.burnsTo_repairs _)).shrink

theorem State.leadsTo.execColumnRepair {die y x : Nat} (hs : s₀.leadsTo s) : s₀.leadsToRes (execColumnRepair die y x s) := by
  delta Machine.execColumnRepair
  extract_lets src s1
  have hs1 : s₀.leadsTo s1 := hs.same
  exact State.leadsToRes.onSite (State.leadsTo.next (.ite hs.turnAway (.ite hs1.startDisable hs1.dieToA2.fuseRepair.dieToA0)))

theorem State.leadsTo.execVelvetEdgeLoss {e : Nat} (hs : s₀.leadsTo s) : s₀.leadsToRes (execVelvetEdgeLoss e s) :=
  .ite hs.wr.edgeState.velvetCheck.next (.refused)

theorem State.leadsTo.execUcieRetrain {e j : Nat} {ok : Bool} (hs : s₀.leadsTo s) : s₀.leadsToRes (execUcieRetrain e j ok s) := by
  delta Machine.execUcieRetrain
  extract_lets s1 src s2
  have hs1 : s₀.leadsTo s1 := hs.bumpSat
  have hs2 : s₀.leadsTo s2 := hs1.same
  exact State.leadsToRes.onEdge (State.leadsTo.next (.ite (.ite hs2 hs2.wr.edgeState.velvetCheck) hs))

/-- R429: a sum that sets a clear bit keeps those that are set. -/
theorem land_add_two_pow {a k : Nat} (h : bitOf a k = false) : a &&& (a + 2 ^ k) = a := by
  have hclear : a / 2 ^ k % 2 = 0 := by
    have := Nat.mod_two_eq_zero_or_one (a / 2 ^ k)
    simp [bitOf] at h
    omega
  refine Nat.eq_of_testBit_eq fun j => ?_
  rw [Nat.testBit_and]
  rcases lt_trichotomy j k with hj | rfl | hj
  · rw [Nat.add_comm a, Nat.testBit_two_pow_add_gt hj, Bool.and_self]
  · rw [Nat.testBit_eq_decide_div_mod_eq, hclear]
    rfl
  · obtain ⟨d, rfl⟩ := Nat.exists_eq_add_of_le hj
    have habove : (a + 2 ^ k) / 2 ^ (k + 1) = a / 2 ^ (k + 1) := by
      rw [Nat.pow_succ, ← Nat.div_div_eq_div_mul, ← Nat.div_div_eq_div_mul, Nat.add_div_right _ (Nat.two_pow_pos k)]
      omega
    rw [Nat.succ_eq_add_one, Nat.add_comm (k + 1) d, Nat.testBit_add, Nat.testBit_add, habove, Bool.and_self]

theorem State.leadsTo.carryOut {b : List Byte} (hs : s₀.leadsTo s) : s₀.leadsTo (s.carryOut b) := by
  unfold State.carryOut
  extract_lets rev floor
  have hrev : s.fuses.revoked &&& rev = s.fuses.revoked := by
    unfold rev
    generalize List.range 4 = l
    suffices hl : ∀ a, s.fuses.revoked &&& a = s.fuses.revoked → s.fuses.revoked &&& l.foldl (fun a k =>
        if bitOf (imgRevoke b) k && decide (k ≠ imgSlot b) && !bitOf a k then a + 2 ^ k else a) a = s.fuses.revoked from
      hl _ (Nat.and_self _)
    induction l with
    | nil => exact fun a ha => ha
    | cons k l ih =>
      refine fun a ha => ih _ ?_
      dsimp only
      split
      next hk => exact and_eq_trans ha (land_add_two_pow (by simp_all))
      next => exact ha
  have hfloor : s.fuses.svnFloor ≤ floor := by
    unfold floor
    split
    · exact le_max_left _ _
    · exact le_rfl
  exact hs.burn_of { Fuses.burnsTo.refl s.fuses with revoked := hrev, floor := hfloor }

theorem State.leadsTo.enterRecovery {cause : Nat} (hs : s₀.leadsTo s) : s₀.leadsTo (s.enterRecovery cause) := by
  delta State.enterRecovery
  extract_lets s1 src
  have hs1 : s₀.leadsTo s1 := hs.stopCores.wr.wr.bumpSat.moduleTo
  exact hs1.same.faultFrom

theorem State.leadsTo.execRecovery {got : Option (List Byte)} {whole disagree : Bool} (hs : s₀.leadsTo s) : s₀.leadsToRes (execRecovery got whole disagree s) := by
  delta Machine.execRecovery
  extract_lets put
  refine State.leadsTo.next (.ite hs ?_)
  split
  · exact hs
  · extract_lets s1 c s2 src
    have hs1 : s₀.leadsTo s1 := hs.same
    have hs2 : s₀.leadsTo s2 := hs1.carryOut.wr.wr
    exact .ite hs.same (.ite hs1.wr hs2.same.faultFrom)

theorem State.leadsTo.execRecoveryRetry (hs : s₀.leadsTo s) : s₀.leadsToRes (execRecoveryRetry s) :=
  State.leadsTo.next (.ite hs.same.bumpSat hs)

theorem State.leadsTo.execBootLimit (hs : s₀.leadsTo s) : s₀.leadsToRes (execBootLimit s) := by
  delta Machine.execBootLimit
  extract_lets s1
  have hs1 : s₀.leadsTo s1 := hs.wr.endStartup
  refine State.leadsTo.next ?_
  split
  · exact hs
  · exact .ite hs hs1.diesOff.moduleTo.faultFrom

theorem State.leadsTo.resetThen {cause : Nat} {restart : Bool} (hs : s₀.leadsTo s) : s₀.leadsTo (s.resetThen cause restart) := by
  delta State.resetThen
  extract_lets s1
  have hs1 : s₀.leadsTo s1 := hs.coldReset
  exact .ite hs1.beginStartup hs1

theorem State.leadsTo.execModRstN (hs : s₀.leadsTo s) : s₀.leadsToRes (execModRstN s) := by
  delta Machine.execModRstN
  extract_lets src s1 src'
  have hs1 : s₀.leadsTo s1 := hs.coldReset
  exact State.leadsTo.next (.ite hs.same hs1.same)

theorem State.leadsTo.execModRstNRelease (hs : s₀.leadsTo s) : s₀.leadsToRes (execModRstNRelease s) := by
  delta Machine.execModRstNRelease
  extract_lets src s1 src'
  have hs1 : s₀.leadsTo s1 := hs.same
  exact State.leadsTo.next (.ite hs (.ite hs1 (.ite hs1.same hs1.beginStartup)))

theorem State.leadsTo.stageStart (hs : s₀.leadsTo s) : s₀.leadsTo (s.stageStart) := by
  delta State.stageStart
  extract_lets s1 src
  have hs1 : s₀.leadsTo s1 := hs.wr.wr.wr
  exact hs1.same

theorem State.leadsTo.stageFail {err : Nat} (hs : s₀.leadsTo s) : s₀.leadsTo (s.stageFail err) := by
  delta State.stageFail
  extract_lets s1 src
  have hs1 : s₀.leadsTo s1 := hs.wr.wr
  exact hs1.same

theorem State.leadsTo.stageDrop (hs : s₀.leadsTo s) : s₀.leadsTo (s.stageDrop) := by
  delta State.stageDrop
  extract_lets s1 src
  have hs1 : s₀.leadsTo s1 := hs.wr.wr.wr
  exact hs1.same

theorem State.leadsTo.norPut {kind : Nat} {b : List Byte} (hs : s₀.leadsTo s) : s₀.leadsTo (s.norPut kind b) := by
  delta State.norPut
  extract_lets n src
  exact hs.same

theorem State.leadsTo.commitStart (hs : s₀.leadsTo s) : s₀.leadsTo (s.commitStart) := by
  delta State.commitStart
  split
  · exact hs
  · exact hs.wr.wr.norPut

theorem State.leadsTo.execStageFetchTimeout (hs : s₀.leadsTo s) : s₀.leadsToRes (execStageFetchTimeout s) :=
  State.leadsTo.next (.ite hs.stageFail hs)

theorem State.leadsTo.execCommitComplete {back : List Byte} (hs : s₀.leadsTo s) : s₀.leadsToRes (execCommitComplete back s) := by
  delta Machine.execCommitComplete
  refine State.leadsTo.next ?_
  split
  · exact hs
  · extract_lets s1 s2 s3 src
    have hs1 : s₀.leadsTo s1 := hs.norPut.wr
    have hs2 : s₀.leadsTo s2 := .ite hs1.carryOut hs1
    have hs3 : s₀.leadsTo s3 := hs2.wr
    exact .ite hs (.ite hs3.same hs1.stageFail)

theorem land_lor_self (a b : Nat) : a &&& (a ||| b) = a := by
  refine Nat.eq_of_testBit_eq fun j => ?_
  cases h : a.testBit j <;> simp [h]

theorem Fuses.burnsTo_lcWords (f : Fuses) (e k : Nat) : f.burnsTo { f with lcWords := (List.range 4).map (fun i =>
    if i = e then f.lcWords.getD i 0 ||| 3 * 4 ^ k else f.lcWords.getD i 0) } :=
  { Fuses.burnsTo.refl f with
    words := fun i hi => by
      have hget : ((List.range 4).map (fun i => if i = e then f.lcWords.getD i 0 ||| 3 * 4 ^ k else f.lcWords.getD i 0)).getD i 0 =
          if i = e then f.lcWords.getD i 0 ||| 3 * 4 ^ k else f.lcWords.getD i 0 := by
        simp [List.getD_eq_getElem?_getD, hi]
      rw [hget]
      split
      · exact land_lor_self ..
      · exact Nat.and_self _ }

theorem State.leadsTo.burn {e k : Nat} (hs : s₀.leadsTo s) : s₀.leadsTo (s.burn e k) := hs.burn_of (s.fuses.burnsTo_lcWords e k)

theorem and_of_lt_two_pow {n w : Nat} (h : n < 2 ^ w) : n &&& (2 ^ w - 1) = n := by
  rw [Nat.and_two_pow_sub_one_eq_mod, Nat.mod_eq_of_lt h]

theorem Fuses.burnsTo_retired (f : Fuses) : f.burnsTo { f with retiredPair := 3, seeds := 15 } :=
  { Fuses.burnsTo.refl f with
    ranged := fun h => ⟨⟨Nat.le_refl 4, Nat.lt_succ_self 15⟩, and_of_lt_two_pow (w := 2) h.1, and_of_lt_two_pow (w := 4) h.2⟩ }

theorem State.leadsTo.retireModule (hs : s₀.leadsTo s) : s₀.leadsTo s.retireModule := by
  unfold State.retireModule
  exact (hs.burn_of s.fuses.burnsTo_retired).resetThen

theorem State.leadsTo.lcArm {target : Nat} (hs : s₀.leadsTo s) : s₀.leadsTo (s.lcArm target) := by
  delta State.lcArm
  extract_lets s1 src
  have hs1 : s₀.leadsTo s1 := hs.wr.wr
  exact hs1.same

theorem State.leadsTo.lcDisarm (hs : s₀.leadsTo s) : s₀.leadsTo (s.lcDisarm) := by
  delta State.lcDisarm
  extract_lets s1 src
  have hs1 : s₀.leadsTo s1 := hs.wr
  exact hs1.same

theorem State.leadsTo.lcGo {target : Nat} (hs : s₀.leadsTo s) : s₀.leadsToSome (s.lcGo target) := by
  delta State.lcGo
  refine .ite (.none) ?_
  split
  · exact .ite hs.burn.some (.none)
  · exact .ite hs.burn.norPut.resetThen.some (.none)
  · exact .ite hs.retireModule.some (.none)
  · exact .ite hs.retireModule.some (.none)
  · exact .none

theorem State.leadsTo.lcConfirm {v : Nat} (hs : s₀.leadsTo s) : s₀.leadsToSnd (s.lcConfirm v) := by
  delta State.lcConfirm
  split
  · exact hs
  · refine .ite hs.lcDisarm ?_
    split
    · next s1 es1 =>
        have hs1 : s₀.leadsTo s1 := hs.lcDisarm.lcGo _ es1
        exact hs1
    · exact hs.lcDisarm

theorem State.leadsTo.execLcArmExpiry (hs : s₀.leadsTo s) : s₀.leadsToRes (execLcArmExpiry s) := by
  delta Machine.execLcArmExpiry
  refine State.leadsTo.next ?_
  split
  · exact .ite hs.lcDisarm hs
  · exact hs

theorem State.leadsTo.repairColumn {die c : Nat} (hs : s₀.leadsTo s) : s₀.leadsToSnd (s.repairColumn die c) := by
  unfold State.repairColumn
  dsimp only
  split
  · exact hs
  · exact .ite hs (hs.burn_of (s.fuses.burnsTo_repairs _))

theorem State.leadsTo.newRecords (hs : s₀.leadsTo s) : s₀.leadsTo s.newRecords := by
  unfold State.newRecords
  extract_lets _ s1 s2 _ n
  have hs1 : s₀.leadsTo s1 := hs.burn_of { Fuses.burnsTo.refl s.fuses with }
  have hs2 : s₀.leadsTo s2 := hs1.foldl fun t e ht =>
    .ite ht.repairColumn (ht.burn_of (t.fuses.burnsTo_retiredDies _))
  exact State.leadsTo.wr (hs2.same)

theorem State.epoch_lt (s : State) : s.epoch < 4 := by
  unfold State.epoch
  cases h : (List.range 4).reverse.find? (fun e => decide (s.fuses.lcWords.getD e 0 % 256 ≠ 0)) with
  | none => decide
  | some e => simpa using List.mem_of_find?_eq_some h

theorem Fuses.burnsTo_provisioned (f : Fuses) (ds : List (List Byte)) {e : Nat} (he : e < 4) :
    f.burnsTo { f with rootDigests := ds, roots := f.roots ||| 2 ^ e, seeds := f.seeds ||| 2 ^ e } :=
  { Fuses.burnsTo.refl f with
    roots := land_lor_self ..
    ranged := fun h => ⟨⟨h.1, Nat.or_lt_two_pow (n := 4) h.2 (Nat.pow_lt_pow_right (by decide) he)⟩, Nat.and_self _,
      land_lor_self ..⟩ }

theorem State.leadsTo.provision {e : Nat} {key cert : List Byte} (he : e < 4) (hs : s₀.leadsTo s) :
    s₀.leadsTo (s.provision e key cert) := by
  unfold State.provision
  exact State.leadsTo.burn ((hs.burn_of (s.fuses.burnsTo_provisioned _ he)).same)

theorem State.leadsTo.execTapLifecycleTransition {target : LcSt} {key cert : List Byte} (hs : s₀.leadsTo s) :
    s₀.leadsToRes (execTapLifecycleTransition target key cert s) := by
  delta Machine.execTapLifecycleTransition
  refine State.leadsTo.next (.ite hs ?_)
  split
  · exact hs.burn
  · exact .ite (hs.newRecords.provision s.epoch_lt) hs.turnAway
  · split
    next h => exact hs.newRecords.provision (Nat.succ_lt_succ h.2)
    next => exact hs.turnAway
  · exact hs.retireModule
  · exact hs.retireModule
  · exact hs.turnAway

theorem State.leadsTo.pclPoint {p : Nat} (hs : s₀.leadsTo s) : s₀.leadsTo (s.pclPoint p) :=
  hs.foldl (fun _ _ hs => hs.wr.wr.wr)

theorem State.leadsTo.pclItem (hs : s₀.leadsTo s) : s₀.leadsTo (s.pclItem) := by
  delta State.pclItem
  split
  · exact hs
  · extract_lets k s1
    have hs1 : s₀.leadsTo s1 := hs.wr.wr
    exact .ite (.settleLost (hs1.foldl (fun s d hs => hs.loseNear))) (.ite hs1.dropBulk.settleLost.settleMig hs1)

theorem State.leadsTo.pclFinish (hs : s₀.leadsTo s) : s₀.leadsTo (s.pclFinish) := by
  delta State.pclFinish
  split
  · exact hs
  · extract_lets ms s1 rs pass src n src' s2
    have hs1 : s₀.leadsTo s1 := hs.wr.wr
    have hs2 : s₀.leadsTo s2 := hs1.same
    exact .ite hs2.stopCores.moduleTo hs2.parkNow

theorem State.leadsTo.pclEnter {full : Bool} {point : Nat} (hs : s₀.leadsTo s) : s₀.leadsTo (s.pclEnter full point) := by
  delta State.pclEnter
  extract_lets plan first s1 s2 s3 s4 s5 src nor run src' s6
  have hs1 : s₀.leadsTo s1 := hs.faultNotify
  have hs2 : s₀.leadsTo s2 := .ite (hs1.foldl (fun s p hs => .ite hs hs.portOff)) hs1
  have hs3 : s₀.leadsTo s3 := hs2.foldl (fun s d hs => .ite hs hs.dieToA0)
  have hs4 : s₀.leadsTo s4 := hs3.pclPoint.foldl (fun s k hs => hs.wr.wr.wr)
  have hs5 : s₀.leadsTo s5 := hs4.wr.wr
  have hs6 : s₀.leadsTo s6 := hs5.same.moduleTo
  exact .ite hs6.pclFinish hs6.pclItem

theorem State.leadsTo.pclRefuse {code : Nat} (hs : s₀.leadsTo s) : s₀.leadsTo (s.pclRefuse code) := by
  delta State.pclRefuse
  extract_lets s1 s2 src
  have hs1 : s₀.leadsTo s1 := hs.wr
  have hs2 : s₀.leadsTo s2 := .ite hs1 hs1.wr
  exact hs2.same

theorem State.leadsTo.pclStart {path : Sys2Proof.Path} {w : Nat} (hs : s₀.leadsTo s) : s₀.leadsToSnd (s.pclStart path w) := by
  delta State.pclStart
  extract_lets full point c s1 s2 i src
  have hs1 : s₀.leadsTo s1 := hs.wr.wr
  have hs2 : s₀.leadsTo s2 := hs1.wr.wr
  exact .ite hs.pclRefuse (.ite hs1.pclEnter hs2.same)

theorem State.leadsTo.pclConfirm {path : Sys2Proof.Path} {v : Nat} (hs : s₀.leadsTo s) : s₀.leadsToSnd (s.pclConfirm path v) := by
  delta State.pclConfirm
  split
  · exact hs
  · extract_lets c
    exact .ite hs.pclRefuse (.ite hs.pclRefuse hs.pclEnter)

theorem State.leadsTo.execPclArmExpiry (hs : s₀.leadsTo s) : s₀.leadsToRes (execPclArmExpiry s) := by
  delta Machine.execPclArmExpiry
  refine State.leadsTo.next ?_
  split
  · exact .ite hs.pclRefuse hs
  · exact hs

theorem State.leadsTo.pclAbort (hs : s₀.leadsTo s) : s₀.leadsTo (s.pclAbort) :=
  .ite hs.pclStop.parkNow hs

theorem State.leadsTo.pclRepair {item unit : Nat} (hs : s₀.leadsTo s) : s₀.leadsTo (s.pclRepair item unit) := by
  delta State.pclRepair
  extract_lets column
  split
  · unfold column
    extract_lets r
    have hr : s₀.leadsToSnd r := hs.repairColumn
    exact .ite hr.shrink hs.retireDie
  · refine .ite ?_ hs
    unfold column
    extract_lets r
    have hr : s₀.leadsToSnd r := hs.repairColumn
    exact .ite hr.shrink hs.retireDie
  · exact hs.retireStack.retireRule
  · exact hs.channelFail.settleLost.settleMig.shrink
  · exact hs.portTo.shrink

theorem State.leadsTo.pclItemDone {faults : List Nat} {fail : Bool} (hs : s₀.leadsTo s) : s₀.leadsTo (s.pclItemDone faults fail) := by
  delta State.pclItemDone
  split
  · exact hs
  · extract_lets p k n s1 s2 s3 src src' s4 rest
    have hs1 : s₀.leadsTo s1 := hs.wr
    have hs2 : s₀.leadsTo s2 := .ite hs1.wr hs1
    have hs3 : s₀.leadsTo s3 := hs2.wr.wr
    have hs4 : s₀.leadsTo s4 := .ite hs3.same (hs3.foldl (fun s u hs => hs.pclRepair))
    clear_value rest
    split
    · exact hs4.pclFinish
    · extract_lets move run s5 src''
      have hs5 : s₀.leadsTo s5 := .ite hs4.pclPoint hs4
      exact hs5.same.pclItem

theorem State.leadsTo.execPclItemComplete {faults : List Nat} (hs : s₀.leadsTo s) : s₀.leadsToRes (execPclItemComplete faults s) :=
  hs.pclItemDone.next

theorem State.leadsTo.execPclItemTimeout {found : List Nat × Nat} (hs : s₀.leadsTo s) : s₀.leadsToRes (execPclItemTimeout found s) := by
  delta Machine.execPclItemTimeout
  refine State.leadsTo.next ?_
  split
  · exact hs
  · extract_lets p
    exact .ite hs hs.pclItemDone

theorem State.leadsTo.execPclLimitAbort {why : Nat} (hs : s₀.leadsTo s) : s₀.leadsToRes (execPclLimitAbort why s) := by
  delta Machine.execPclLimitAbort
  refine State.leadsTo.next ?_
  split
  · exact hs
  · extract_lets p hit
    exact .ite hs.pclAbort hs

theorem State.leadsTo.askDrain (hs : s₀.leadsTo s) : s₀.leadsToSome (s.askDrain) :=
  .ite hs.startDrain.some (.none)

theorem State.leadsTo.disarmTest (hs : s₀.leadsTo s) : s₀.leadsTo (s.disarmTest) :=
  .ite hs.pclRefuse hs

theorem State.leadsTo.askPark (hs : s₀.leadsTo s) : s₀.leadsToSome (s.askPark) :=
  .ite hs.endStartup.faultFrom.some (.ite hs.startDrain.some (.ite hs.parkNow.some (.ite hs.disarmTest.some (.none))))

theorem State.leadsTo.askReady (hs : s₀.leadsTo s) : s₀.leadsToSome (s.askReady) :=
  .ite (.none) (.ite hs.same.some hs.beginStartup.some)

theorem State.leadsTo.askKeepalive (hs : s₀.leadsTo s) : s₀.leadsToSome (s.askKeepalive) :=
  .ite hs.stopCores.moduleTo.some (.none)

theorem State.leadsTo.capPark (hs : s₀.leadsTo s) : s₀.leadsTo (s.capPark) :=
  .ite hs.startDrain (.ite hs.parkNow (.ite hs.disarmTest hs))

theorem State.leadsTo.capWrite {rack : Bool} {v : Nat} (hs : s₀.leadsTo s) : s₀.leadsToSnd (s.capWrite rack v) := by
  delta State.capWrite
  extract_lets s1 s2
  have hs1 : s₀.leadsTo s1 := hs.wr
  have hs2 : s₀.leadsTo s2 := .ite hs1.wr hs1
  exact .ite hs (.ite hs.wr.powerEvent.capPark hs2.updateLimit)

theorem State.leadsTo.lowerPoint {d : Nat} (hs : s₀.leadsTo s) : s₀.leadsTo (s.lowerPoint d) := by
  delta State.lowerPoint
  extract_lets p
  exact hs.wr.wr.slewTo

theorem State.leadsTo.steer {w d : Nat} (hs : s₀.leadsTo s) : s₀.leadsTo (s.steer w d) := by
  delta State.steer
  extract_lets g l p gate
  exact .ite hs (.ite (.ite hs.lowerPoint hs.wr) (.ite (.ite hs.wr hs) (.ite hs.slewTo hs)))

theorem State.leadsTo.execPowerControlTick {w volts amps inlet outlet : Nat} {railsOff : Bool} (hs : s₀.leadsTo s) : s₀.leadsToRes (execPowerControlTick w volts amps inlet outlet railsOff s) := by
  delta Machine.execPowerControlTick
  extract_lets s1 s2 src s3
  have hs1 : s₀.leadsTo s1 := hs.wr.wr.wr
  have hs2 : s₀.leadsTo s2 := hs1.wr.wr
  have hs3 : s₀.leadsTo s3 := hs2.same.raiseLimit
  exact State.leadsTo.next (.ite hs (.ite hs3 (hs3.foldl (fun s d hs => hs.steer))))

theorem State.leadsTo.execVoltageSlewComplete {d : Nat} (hs : s₀.leadsTo s) : s₀.leadsToRes (execVoltageSlewComplete d s) := by
  delta Machine.execVoltageSlewComplete
  extract_lets lost
  refine State.leadsToRes.onDie (State.leadsTo.next ?_)
  split
  · exact hs
  · extract_lets s1 s2 src
    have hs1 : s₀.leadsTo s1 := hs.bump
    have hs2 : s₀.leadsTo s2 := hs1.wr.wr.wr
    exact .ite hs hs2.same

theorem State.leadsTo.execCapdropN {low : Bool} (hs : s₀.leadsTo s) : s₀.leadsToRes (execCapdropN low s) :=
  State.leadsTo.next (.ite hs.wr (.ite hs hs.wr.wrFlag.powerEvent.updateLimit))

theorem State.leadsTo.lastBatch (hs : s₀.leadsTo s) : s₀.leadsTo (s.lastBatch) := by
  delta State.lastBatch
  split
  · exact .ite hs hs.sendRecords
  · exact hs

theorem State.leadsTo.failDone (hs : s₀.leadsTo s) : s₀.leadsTo (s.failDone) := by
  delta State.failDone
  split
  · exact .ite hs.stopCores.moduleTo hs
  · exact hs

theorem State.leadsTo.powerFail (hs : s₀.leadsTo s) : s₀.leadsTo (s.powerFail) := by
  delta State.powerFail
  extract_lets s1 s2 src
  have hs1 : s₀.leadsTo s1 := hs.wr.pclStop.abandon
  have hs2 : s₀.leadsTo s2 := hs1.lastBatch.faultNotify.powerEvent
  refine .ite hs ?_
  split
  · exact hs.failDone
  · exact hs2.same

theorem State.leadsTo.execPfwN (hs : s₀.leadsTo s) : s₀.leadsToRes (execPfwN s) := by
  delta Machine.execPfwN
  extract_lets s1
  have hs1 : s₀.leadsTo s1 := hs.wr
  exact State.leadsTo.next (.ite hs1 hs1.wr.powerFail)

theorem State.leadsTo.execPfwNRelease (hs : s₀.leadsTo s) : s₀.leadsToRes (execPfwNRelease s) :=
  hs.wr.wr.next

theorem State.leadsTo.execUndervolt (hs : s₀.leadsTo s) : s₀.leadsToRes (execUndervolt s) :=
  State.leadsTo.next (.ite hs (.ite hs.wr.powerFail hs.wr.powerEvent.powerFail))

theorem State.leadsTo.noteOvervolt {b : Bool} (hs : s₀.leadsTo s) : s₀.leadsTo (s.noteOvervolt b) := by
  delta State.noteOvervolt
  extract_lets s1 src src'
  have hs1 : s₀.leadsTo s1 := hs.wrFlag
  exact hs1.same

theorem State.leadsTo.execOvervolt (hs : s₀.leadsTo s) : s₀.leadsToRes (execOvervolt s) :=
  State.leadsTo.next (.ite hs hs.noteOvervolt.powerFail)

theorem State.leadsTo.execSafeCap (hs : s₀.leadsTo s) : s₀.leadsToRes (execSafeCap s) :=
  State.leadsTo.next (.ite hs hs.wr.powerEvent.updateLimit)

theorem State.leadsTo.noteTemp {d tj : Nat} (hs : s₀.leadsTo s) : s₀.leadsTo (s.noteTemp d tj) :=
  hs.wr.wr

theorem State.leadsTo.execThrottle {d tj : Nat} (hs : s₀.leadsTo s) : s₀.leadsToRes (execThrottle d tj s) := by
  delta Machine.execThrottle
  extract_lets s0 t due stamp p s1
  have hs0 : s₀.leadsTo s0 := .ite hs hs.noteTemp
  have hs1 : s₀.leadsTo s1 := hs0.same.slewTo.powerEvent
  exact State.leadsToRes.onDie (State.leadsTo.next (.ite hs0 (.ite (.ite hs0.pclAbort (.ite hs0 (.ite hs0.wr.same.lowerPoint.powerEvent hs0.wr))) (.ite (.ite (.ite hs1.wr hs1) hs0.wr) hs0))))

theorem State.leadsTo.thermDrain {d : Nat} (hs : s₀.leadsTo s) : s₀.leadsTo (s.thermDrain d) :=
  .ite hs.powerEvent.startDrain hs

theorem State.leadsTo.execThermDrain {d tj : Nat} (hs : s₀.leadsTo s) : s₀.leadsToRes (execThermDrain d tj s) :=
  State.leadsToRes.onAnyDie (State.leadsTo.next (.ite hs hs.noteTemp.thermDrain))

theorem State.leadsTo.execThermTrip {d tj : Nat} (hs : s₀.leadsTo s) : s₀.leadsToRes (execThermTrip d tj s) := by
  delta Machine.execThermTrip
  extract_lets s1 s2
  have hs1 : s₀.leadsTo s1 := hs.noteTemp.wr.powerEvent
  have hs2 : s₀.leadsTo s2 := hs1.pclStop.abandon.dropDisables.stopCores.moduleTo
  exact State.leadsToRes.onAnyDie (State.leadsTo.next (.ite hs hs2.faultFrom))

theorem State.leadsTo.execSensorFail {d k tj : Nat} (hs : s₀.leadsTo s) : s₀.leadsToRes (execSensorFail d k tj s) := by
  delta Machine.execSensorFail
  extract_lets src s1 src'
  have hs1 : s₀.leadsTo s1 := hs.same
  exact .ite (State.leadsTo.next (.ite hs hs1.noteTemp.detect.thermDrain)) (.refused)

theorem State.leadsTo.execRegulatorFault {d : Nat} (hs : s₀.leadsTo s) : s₀.leadsToRes (execRegulatorFault d s) :=
  State.leadsToRes.onAnyDie (State.leadsTo.next (.ite hs hs.detect.moduleFault.faultFrom))

theorem State.leadsTo.execRefclkFail (hs : s₀.leadsTo s) : s₀.leadsToRes (execRefclkFail s) := by
  delta Machine.execRefclkFail
  extract_lets src s1
  have hs1 : s₀.leadsTo s1 := hs.same
  exact State.leadsTo.next (.ite hs.same (.ite hs hs1.wr.moduleFault.faultFrom))

theorem State.leadsTo.execRefclkRestored (hs : s₀.leadsTo s) : s₀.leadsToRes (execRefclkRestored s) :=
  hs.same.next

theorem State.leadsTo.execAgeing {unit days low90 : Nat} (hs : s₀.leadsTo s) : s₀.leadsToRes (execAgeing unit days low90 s) := by
  delta Machine.execAgeing
  extract_lets warn d l was s1 src src' s2 s3
  have hs1 : s₀.leadsTo s1 := hs.wr.wr
  have hs2 : s₀.leadsTo s2 := hs1.same
  have hs3 : s₀.leadsTo s3 := .ite hs2.powerEvent hs2
  exact .ite (State.leadsTo.next (.ite hs (.ite hs3.retireStack.retireRule hs3))) (.refused)

theorem State.leadsTo.execPowerApplied (hs : s₀.leadsTo s) : s₀.leadsToRes (execPowerApplied s) := by
  delta Machine.execPowerApplied
  extract_lets src s1 s2 src'
  have hs1 : s₀.leadsTo s1 := hs.same
  have hs2 : s₀.leadsTo s2 := hs1.coldReset
  exact State.leadsTo.next (.ite hs hs2.same)

theorem State.leadsTo.execSoftStartEnd (hs : s₀.leadsTo s) : s₀.leadsToRes (execSoftStartEnd s) := by
  delta Machine.execSoftStartEnd
  extract_lets src s1
  have hs1 : s₀.leadsTo s1 := hs.same
  refine State.leadsTo.next ?_
  split
  · exact hs
  · exact .ite hs (.ite hs1.beginStartup hs1)

theorem State.leadsTo.execPowerLoss (hs : s₀.leadsTo s) : s₀.leadsToRes (execPowerLoss s) := by
  delta Machine.execPowerLoss
  extract_lets s1 src s2
  have hs1 : s₀.leadsTo s1 := hs.pclStop
  have hs2 : s₀.leadsTo s2 := hs1.same
  exact State.leadsTo.next (.ite hs hs2.coldReset.faultFrom)

theorem State.leadsTo.wakeFor {a : Nat} (hs : s₀.leadsTo s) : s₀.leadsTo (s.wakeFor a) := by
  delta State.wakeFor
  split
  · exact hs
  · exact .ite hs.setDieP hs

theorem State.leadsTo.dropLatch {path : Sys2Proof.Path} {a : Nat} (hs : s₀.leadsTo s) : s₀.leadsTo (s.dropLatch path a) :=
  hs.same

theorem State.leadsTo.readLow {path : Sys2Proof.Path} {r : Reg} {i : Nat} {w : Win} (hs : s₀.leadsTo s) : s₀.leadsToSnd (s.readLow path r i w) := by
  delta State.readLow
  extract_lets a s1
  have hs1 : s₀.leadsTo s1 := hs.dropLatch
  exact hs1.same

theorem State.leadsTo.readHigh {path : Sys2Proof.Path} {r : Reg} {i : Nat} {w : Win} (hs : s₀.leadsTo s) : s₀.leadsToSnd (s.readHigh path r i w) := by
  delta State.readHigh
  extract_lets a
  split
  · exact hs.dropLatch
  · exact hs

theorem State.leadsTo.readReg {path : Sys2Proof.Path} {a : Nat} (hs : s₀.leadsTo s) : s₀.leadsToSnd (s.readReg path a) := by
  delta State.readReg
  extract_lets s1
  have hs1 : s₀.leadsTo s1 := hs.wakeFor
  refine .ite hs ?_
  split
  · exact hs
  · split
    · exact hs
    · extract_lets v
      have hv : s₀.leadsToSnd v := .ite hs1.readLow (.ite hs1.readHigh hs1)
      exact hv

theorem State.leadsTo.writePwrCtrl {v : Nat} (hs : s₀.leadsTo s) : s₀.leadsToSome (s.writePwrCtrl v) := by
  have act : ∀ (g : Option State) (k : Nat) (f : State → Option State), (∀ t, s₀.leadsTo t → s₀.leadsToSome (f t)) →
      s₀.leadsToSome g → s₀.leadsToSome (match g with
        | .none => .none
        | .some t => if bitOf v k then f t else .some t) := by
    intro g k f hf hg
    cases g with
    | none => exact .none
    | some t => exact .ite (hf t (hg t rfl)) (hg t rfl).some
  exact act _ 3 _ (fun t ht => ht.askKeepalive) (act _ 2 _ (fun t ht => ht.askReady) (act _ 1 _ (fun t ht => ht.askPark)
    (act _ 0 _ (fun t ht => ht.askDrain) hs.some)))

theorem State.leadsTo.writeStageCtrl {v : Nat} (hs : s₀.leadsTo s) : s₀.leadsToSome (s.writeStageCtrl v) := by
  unfold State.writeStageCtrl
  extract_lets s0 st a b
  have hs0 : s₀.leadsTo s0 := hs.wr
  have ha : s₀.leadsToSome a := .ite (.ite hs0.stageStart.some .none) hs0.some
  have hb : s₀.leadsToSome b := .ite (.ite (ha.map fun t ht => ht.commitStart) .none) ha
  exact .ite (.ite .none (hb.map fun t ht => ht.stageDrop)) hb

theorem State.leadsTo.writeColdReset {v : Nat} (hs : s₀.leadsTo s) : s₀.leadsToSome (s.writeColdReset v) :=
  .ite (.none) hs.resetThen.some

theorem State.leadsTo.writeLcRequest {v : Nat} (hs : s₀.leadsTo s) : s₀.leadsToSnd (s.writeLcRequest v) := by
  delta State.writeLcRequest
  extract_lets t allowed
  exact .ite hs.lcDisarm hs.lcArm

theorem State.leadsTo.writePclCtrl {path : Sys2Proof.Path} {v : Nat} (hs : s₀.leadsTo s) : s₀.leadsToSnd (s.writePclCtrl path v) := by
  delta State.writePclCtrl
  extract_lets s1
  have hs1 : s₀.leadsTo s1 := hs.wr.wr
  exact .ite hs1.pclAbort (.ite hs.pclStart hs1)

theorem State.leadsTo.writeTimingPrep {v : Nat} (hs : s₀.leadsTo s) : s₀.leadsToSome (s.writeTimingPrep v) := by
  delta State.writeTimingPrep
  extract_lets ds
  refine .ite (State.leadsTo.some (hs.foldl (fun s d hs => ?_))) (.none)
  extract_lets s1 src
  have hs1 : s₀.leadsTo s1 := hs.wcDropUnpinned
  exact hs1.sameArr

theorem State.leadsTo.writeStreamCtrl {d st v : Nat} (hs : s₀.leadsTo s) : s₀.leadsTo (s.writeStreamCtrl d st v) := by
  delta State.writeStreamCtrl
  extract_lets s1 s2 s3
  have hs1 : s₀.leadsTo s1 := hs.wr.wr
  have hs2 : s₀.leadsTo s2 := .ite hs1.startStream hs1
  have hs3 : s₀.leadsTo s3 := .ite hs2.stopStream hs2
  exact .ite hs3.abortStream hs3

theorem State.leadsTo.writePartner {v : Nat} (hs : s₀.leadsTo s) : s₀.leadsToSome (s.writePartner v) := by
  delta State.writePartner
  extract_lets changed s1
  have hs1 : s₀.leadsTo s1 := hs.wr.wr
  refine .ite (.none) (State.leadsTo.some (.ite hs1.startPairing (.ite ?_ hs1)))
  split
  · exact hs1.askFirst
  · exact hs1

theorem State.leadsTo.writeReg {path : Path} {r : Reg} {i : Nat} {w : Win} {k v n : Nat} (hs : s₀.leadsTo s) :
    s₀.leadsToSnd (s.writeReg path r i w k v n) := by
  delta State.writeReg
  have hret : s₀.leadsToSome (s.retireTo i (v % 2 ^ 32)) := hs.retireTo
  generalize s.retireTo i (v % 2 ^ 32) = oret at hret ⊢
  extract_lets plain opt guard s1 b _
  have hplain : s₀.leadsTo plain := hs.setWord
  have hopt : ∀ o, s₀.leadsToSome o → s₀.leadsToSnd (opt o) := by
    intro o ho
    cases o with
    | none => exact hs
    | some t => exact ho t rfl
  have hguard : ∀ ok t, s₀.leadsTo t → s₀.leadsToSnd (guard ok t) := fun ok t ht => .ite ht hs
  have hs1 : s₀.leadsTo s1 := hs.enablePort
  clear_value plain opt guard s1
  cases oret
  all_goals cases r with
  | TILE_PARAM =>
    cases w with
    | tile _ _ _ => exact hguard _ _ hplain
    | _ => exact hplain
  | TILE_PARAM_CTRL =>
    cases w with
    | tile _ _ _ => exact State.leadsTo.ite hs.commitParams hs
    | _ => exact hplain
  | WC_CFG =>
    cases w with
    | die _ => exact State.leadsTo.ite hplain.wcDropUnpinned hplain
    | _ => exact hplain
  | STREAM_CTRL =>
    cases w with
    | die _ => exact hs.writeStreamCtrl
    | _ => exact hplain
  | STREAM_TAIL =>
    cases w with
    | die _ => exact hopt _ hs.tailAdvance
    | _ => exact hplain
  | MBOX_STATUS =>
    cases w with
    | die _ => exact State.leadsTo.ite hs.popMbox hs
    | _ => exact hplain
  | POOL_WATER => exact hguard _ _ hplain
  | MIG_RING => exact hguard _ _ hplain
  | MIG_CPL => exact hguard _ _ hplain
  | SCHED_CHUNK => exact hguard _ _ hplain
  | TENANT_BUDGET => exact hs.budgetWrite
  | HOST_PORT_CFG => exact State.leadsTo.ite hplain.hostPortDown hplain
  | LINK_PLAN => exact hguard _ _ hplain.portGroups
  | GROUP_CFG => exact hguard _ _ hplain
  | LINK_PORT_CFG => exact State.leadsTo.bundlesDown (.ite hs1.retrain hs1)
  | ROUTE => exact hplain.flushWaiting.bundlesDown
  | JOURNAL_PARTNER => exact hopt _ hs.writePartner
  | TAKEOVER_SET => exact hguard _ _ hplain
  | JOURNAL_TIMING => exact hguard _ _ hplain
  | ERR_RD => exact hopt _ hret
  | ERR_OVF_VALID => exact hs.retireOvf
  | TIMING_PREP => exact hopt _ hs.writeTimingPrep
  | PWR_CTRL => exact hopt _ hs.writePwrCtrl
  | PWR_CAP => exact hs.capWrite
  | PWR_CAP_CFG => exact hplain.updateLimit
  | PWR_STATUS => exact hplain.faultFrom
  | PIN_STATUS => exact State.leadsTo.ite hs.noteOvervolt hs
  | BOOT_CFG => exact hplain.same
  | COLD_RESET => exact hopt _ hs.writeColdReset
  | LC_REQUEST => exact hs.writeLcRequest
  | LC_CONFIRM => exact hs.lcConfirm
  | STAGE_CTRL => exact hopt _ hs.writeStageCtrl
  | PCL_CTRL => exact hs.writePclCtrl
  | PCL_CONFIRM => exact hs.pclConfirm
  | _ => exact hplain

theorem State.leadsTo.applyWrite {path : Sys2Proof.Path} {a v : Nat} (hs : s₀.leadsTo s) : s₀.leadsToSnd (s.applyWrite path a v) := by
  delta State.applyWrite
  extract_lets s1
  have hs1 : s₀.leadsTo s1 := hs.wakeFor
  split
  · exact hs
  · extract_lets old g held
    have hg : s₀.leadsToSnd g := hs1.writeReg
    refine .ite hs ?_
    split
    · exact hs
    · exact .ite hs (.ite (State.leadsTo.ite hg.journalReg hg) hg)

theorem State.leadsTo.writeReply {path : Sys2Proof.Path} {a : Nat} {ok : Bool} {detail : Nat} (hs : s₀.leadsTo s) : s₀.leadsTo (s.writeReply path a ok detail) :=
  hs.emit

theorem State.leadsTo.doWrite {path : Sys2Proof.Path} {a v : Nat} (hs : s₀.leadsTo s) : s₀.leadsTo (s.doWrite path a v) := by
  delta State.doWrite
  extract_lets g
  have hg : s₀.leadsToSnd g := hs.applyWrite
  refine .ite hs ?_
  split
  · exact hg.writeReply
  · exact hg.writeReply

theorem State.leadsTo.execWriteRegister {path : Sys2Proof.Path} {addr value : Nat} (hs : s₀.leadsTo s) : s₀.leadsToRes (execWriteRegister path addr value s) :=
  hs.doWrite.next

theorem State.leadsTo.execCounterLowRead {path : Sys2Proof.Path} {addr : Nat} (hs : s₀.leadsTo s) : s₀.leadsToRes (execCounterLowRead path addr s) :=
  State.leadsTo.next (.ite hs hs.readReg)

theorem State.leadsTo.execErrRd {path : Sys2Proof.Path} {ring seq : Nat} (hs : s₀.leadsTo s) : s₀.leadsToRes (execErrRd path ring seq s) :=
  .ite hs.doWrite.next (.refused)

theorem State.leadsTo.execErrOvfValid {path : Sys2Proof.Path} {ring half bits : Nat} (hs : s₀.leadsTo s) : s₀.leadsToRes (execErrOvfValid path ring half bits s) :=
  .ite hs.doWrite.next (.refused)

theorem State.leadsTo.execTimingPrep {path : Sys2Proof.Path} {dies : Nat} (hs : s₀.leadsTo s) : s₀.leadsToRes (execTimingPrep path dies s) :=
  hs.doWrite.next

theorem State.leadsTo.execDrain {path : Sys2Proof.Path} (hs : s₀.leadsTo s) : s₀.leadsToRes (execDrain path s) :=
  hs.doWrite.next

theorem State.leadsTo.execPark {path : Sys2Proof.Path} (hs : s₀.leadsTo s) : s₀.leadsToRes (execPark path s) :=
  hs.doWrite.next

theorem State.leadsTo.execReady {path : Sys2Proof.Path} (hs : s₀.leadsTo s) : s₀.leadsToRes (execReady path s) :=
  hs.doWrite.next

theorem State.leadsTo.execKeepalive {path : Sys2Proof.Path} (hs : s₀.leadsTo s) : s₀.leadsToRes (execKeepalive path s) :=
  hs.doWrite.next

theorem State.leadsTo.execCapW {path : Sys2Proof.Path} {watts : Nat} (hs : s₀.leadsTo s) : s₀.leadsToRes (execCapW path watts s) :=
  hs.doWrite.next

theorem State.leadsTo.execOvervoltClear {path : Sys2Proof.Path} (hs : s₀.leadsTo s) : s₀.leadsToRes (execOvervoltClear path s) :=
  hs.doWrite.next

theorem State.leadsTo.execKey {path : Sys2Proof.Path} {value : Nat} (hs : s₀.leadsTo s) : s₀.leadsToRes (execKey path value s) :=
  hs.doWrite.next

theorem State.leadsTo.execStageStart {path : Sys2Proof.Path} {kind : Nat} (hs : s₀.leadsTo s) : s₀.leadsToRes (execStageStart path kind s) :=
  hs.doWrite.next

theorem State.leadsTo.execCommit {path : Sys2Proof.Path} {kind : Nat} (hs : s₀.leadsTo s) : s₀.leadsToRes (execCommit path kind s) :=
  hs.doWrite.next

theorem State.leadsTo.execStageAbort {path : Sys2Proof.Path} {kind : Nat} (hs : s₀.leadsTo s) : s₀.leadsToRes (execStageAbort path kind s) :=
  hs.doWrite.next

theorem State.leadsTo.execLcRequest {path : Sys2Proof.Path} {target : Nat} (hs : s₀.leadsTo s) : s₀.leadsToRes (execLcRequest path target s) :=
  hs.doWrite.next

theorem State.leadsTo.execLcConfirm {path : Sys2Proof.Path} {value : Nat} (hs : s₀.leadsTo s) : s₀.leadsToRes (execLcConfirm path value s) :=
  hs.doWrite.next

theorem State.leadsTo.execPclStart {path : Sys2Proof.Path} {full : Bool} {point : Nat} (hs : s₀.leadsTo s) : s₀.leadsToRes (execPclStart path full point s) :=
  hs.doWrite.next

theorem State.leadsTo.execPclConfirm {path : Sys2Proof.Path} {value : Nat} (hs : s₀.leadsTo s) : s₀.leadsToRes (execPclConfirm path value s) :=
  hs.doWrite.next

theorem State.leadsTo.execPclAbort {path : Sys2Proof.Path} (hs : s₀.leadsTo s) : s₀.leadsToRes (execPclAbort path s) :=
  hs.doWrite.next

theorem State.leadsTo.execI3cWrite {addr : Nat} {value : Option Nat} (hs : s₀.leadsTo s) : s₀.leadsToRes (execI3cWrite addr value s) := by
  delta Machine.execI3cWrite
  extract_lets src s1
  have hs1 : s₀.leadsTo s1 := hs.same
  refine State.leadsTo.next (.ite hs ?_)
  split
  · exact hs1
  · extract_lets g
    have hg : s₀.leadsToSnd g := hs1.applyWrite
    exact hg.emit

theorem State.leadsTo.applyEntry {e : List Byte} (hs : s₀.leadsTo s) : s₀.leadsTo (s.applyEntry e) := by
  delta State.applyEntry
  extract_lets g src src' a src''
  have hg : s₀.leadsToSnd g := hs.applyWrite
  have hsrc : s₀.leadsTo src := hg
  refine .ite ?_ hs.same
  split
  · exact hsrc.same
  · exact hg

theorem State.leadsTo.applyRecord (hs : s₀.leadsTo s) : s₀.leadsTo (s.applyRecord) := by
  delta State.applyRecord
  extract_lets b src s0 s1 src' n src'' s2 src'''
  have hs0 : s₀.leadsTo s0 := hs.same
  have hs1 : s₀.leadsTo s1 := .wr (hs0.foldl (fun s e hs => hs.applyEntry))
  have hs2 : s₀.leadsTo s2 := hs1.same
  exact .ite (.ite hs2.same hs2) hs.wr

theorem State.leadsTo.trainEdges {edges : List Nat} (hs : s₀.leadsTo s) : s₀.leadsTo (s.trainEdges edges) :=
  hs.foldl (fun _ _ hs => hs.wr.edgeState)

theorem State.leadsTo.trainBulk {dimms : List (Nat × Nat × Nat)} (hs : s₀.leadsTo s) : s₀.leadsTo (s.trainBulk dimms) := by
  delta State.trainBulk
  extract_lets d ok frames
  exact .ite hs (.ite hs.wr.wr.wr.wr.wr hs.wr)

theorem State.leadsTo.findDrive {f : Nat × Nat × Nat × Bool × Option Drive} (hs : s₀.leadsTo s) : s₀.leadsTo (s.findDrive f) := by
  delta State.findDrive
  extract_lets d s1 s2
  have hs1 : s₀.leadsTo s1 := hs.wr.wr
  have hs2 : s₀.leadsTo s2 := by
    unfold s2
    split
    · exact hs1.setDrive
    · exact hs1
  refine .ite hs ?_
  split
  · exact hs2.wr
  · exact hs2.wr
  · exact .ite hs2.wr.wr hs2.wr

theorem State.leadsTo.trainDie {bits d : Nat} (hs : s₀.leadsTo s) : s₀.leadsTo (s.trainDie bits d) := by
  delta State.trainDie
  extract_lets s1
  have hs1 : s₀.leadsTo s1 := hs.setDieP.wr.wr.wr
  refine .ite hs (hs1.foldl (fun s j hs => ?_))
  extract_lets k
  exact .ite hs (.ite hs.orBits.wr.wr hs.retireStack)

theorem State.leadsTo.trainTiers {f : Found} (hs : s₀.leadsTo s) : s₀.leadsTo (s.trainTiers f) := by
  delta State.trainTiers
  extract_lets s1 s2 s3 src
  have hs1 : s₀.leadsTo s1 := hs.trainEdges.trainBulk
  have hs2 : s₀.leadsTo s2 := hs1.wrFlag.foldl (fun s d hs => hs.trainDie)
  have hs3 : s₀.leadsTo s3 := hs2.foldl (fun s e hs => hs.findDrive)
  exact hs3.sameMas

theorem State.leadsTo.freeOrphans (hs : s₀.leadsTo s) : s₀.leadsTo (s.freeOrphans) :=
  hs.foldl (fun _ _ hs => .ite (State.leadsToSome.getD hs.markFreeing hs) hs)

theorem State.leadsTo.reachReady {f : Found} (hs : s₀.leadsTo s) : s₀.leadsTo (s.reachReady f) := by
  delta State.reachReady
  extract_lets s1 s2 s3 src
  have hs1 : s₀.leadsTo s1 := hs.foldl (fun s p hs => hs.hostPortUp)
  have hs2 : s₀.leadsTo s2 := hs1.foldl (fun s p hs => .ite hs.portOn hs)
  have hs3 : s₀.leadsTo s3 := hs2.deepScan.freeOrphans.wr.moduleTo
  exact hs3.same.faultFrom.startPairing

theorem State.leadsTo.execStartupPhaseComplete {disagree misread : Bool} {found : Found} (hs : s₀.leadsTo s) : s₀.leadsToRes (execStartupPhaseComplete disagree misread found s) := by
  delta Machine.execStartupPhaseComplete
  extract_lets c b s1 src src' s1'
  have hs1 : s₀.leadsTo s1 := hs.wr.wr.wr
  have hs1' : s₀.leadsTo s1' := hs.same
  refine State.leadsTo.next (.ite hs ?_)
  split
  · exact .ite hs.wr.endStartup.moduleTo.faultFrom (.ite hs.enterRecovery hs.wr)
  · exact .ite hs.enterRecovery hs.wr
  · exact .ite hs.enterRecovery (.ite hs.enterRecovery hs1.same)
  · exact hs.trainTiers.wr
  · exact .ite hs.enterRecovery hs1'.wr.applyRecord.wr
  · exact hs.reachReady
  · exact hs

theorem State.leadsTo.execStageFetchComplete {got : Option (List Byte)} (hs : s₀.leadsTo s) : s₀.leadsToRes (execStageFetchComplete got s) := by
  delta Machine.execStageFetchComplete
  extract_lets k
  refine State.leadsTo.next (.ite hs ?_)
  split
  · exact hs.stageFail
  · extract_lets s1 c s2 src
    have hs1 : s₀.leadsTo s1 := hs.wr
    have hs2 : s₀.leadsTo s2 := hs1.wr
    exact .ite hs.stageFail (.ite hs1.stageFail hs2.same)

theorem State.leadsTo.execTapInstruction {op : TapOp} (hs : s₀.leadsTo s) : s₀.leadsToRes (execTapInstruction op s) := by
  delta Machine.execTapInstruction
  extract_lets all
  refine State.leadsTo.next (.ite hs ?_)
  split
  · exact hs
  · exact hs.useFree.emit
  · exact hs
  · refine .ite ?_ hs
    split
    · next v t et =>
        have ht : s₀.leadsTo t := State.leadsToSnd.of_eq hs.readReg et
        exact ht.emit
    · next a t et =>
        have ht : s₀.leadsTo t := State.leadsToSnd.of_eq hs.readReg et
        exact ht.turnAway
  · exact .ite hs.doWrite hs

theorem State.leadsTo.freeScalar (hs : s₀.leadsTo s) : s₀.leadsToSnd (s.freeScalar) :=
  hs.useFree

theorem State.leadsTo.opOpen {p : Pkt} (hs : s₀.leadsTo s) : s₀.leadsTo (s.opOpen p) := by
  delta State.opOpen
  extract_lets no c roles r nonce k
  have hr : s₀.leadsToSnd r := hs.freeScalar
  have hnonce : s₀.leadsToSnd nonce := hr.useFree
  refine .ite hs.answer (.ite hs.answer (.ite hs.answer ?_))
  split
  · exact hs.answer
  · extract_lets gen v s1 src s2
    have hs1 : s₀.leadsTo s1 := hnonce.setSession
    have hs2 : s₀.leadsTo s2 := hs1.same
    exact hs2.answer

theorem State.leadsTo.bindQp {i : Nat} {v : Session} {q : Nat} (hs : s₀.leadsTo s) : s₀.leadsTo (s.bindQp i v q) := by
  delta State.bindQp
  extract_lets s1
  have hs1 : s₀.leadsTo s1 := hs.setSession
  split
  · exact hs1.setQp
  · exact hs1

theorem State.leadsTo.opOpenConfirm {i : Nat} {v : Session} {p : Pkt} (hs : s₀.leadsTo s) : s₀.leadsTo (s.opOpenConfirm i v p) := by
  delta State.opOpenConfirm
  extract_lets say
  exact .ite hs.answer (.ite hs.answer (.ite hs.answer hs.bindQp.journalSession.answer.flushEvents.tkPlaceAll))

theorem State.leadsTo.opAttach {i : Nat} {v : Session} {p : Pkt} (hs : s₀.leadsTo s) : s₀.leadsTo (s.opAttach i v p) := by
  delta State.opAttach
  extract_lets say portOf old s1 v' s2 s3
  have hs1 : s₀.leadsTo s1 := by
    unfold s1
    clear_value old
    split
    · split
      · exact hs.setQp
      · exact hs
    · exact hs
  have hs2 : s₀.leadsTo s2 := hs1.bindQp.journalSession.answer
  have hs3 : s₀.leadsTo s3 := .ite hs2.rewriteRings hs2
  exact .ite hs.answer (.ite hs.answer (.ite hs.answer hs3.flushEvents.tkPlaceAll))

theorem State.leadsTo.cancelOpen {i gen : Nat} (hs : s₀.leadsTo s) : s₀.leadsTo (s.cancelOpen i gen) := by
  delta State.cancelOpen
  refine hs.foldl (fun s slot hs => ?_)
  split
  · exact hs
  · exact .ite hs.answerSeq.freeReq (.ite hs hs.newRecord.setReq)

theorem State.leadsTo.startClose {i : Nat} {v : Session} (hs : s₀.leadsTo s) : s₀.leadsTo (s.startClose i v) :=
  hs.setSession.cancelOpen.closeReady

theorem State.leadsTo.opClose {i : Nat} {v : Session} {p : Pkt} (hs : s₀.leadsTo s) : s₀.leadsTo (s.opClose i v p) :=
  .ite hs.answerSeq (.ite hs.answerSeq hs.startClose)

theorem State.leadsTo.opHeartbeat {i : Nat} {p : Pkt} (hs : s₀.leadsTo s) : s₀.leadsTo (s.opHeartbeat i p) := by
  delta State.opHeartbeat
  extract_lets src s1
  have hs1 : s₀.leadsTo s1 := .ite hs.same (.ite hs.renewLease hs)
  exact .ite hs.answerSeq hs1.answerSeq

theorem State.leadsTo.opClaim {i : Nat} {p : Pkt} (hs : s₀.leadsTo s) : s₀.leadsTo (s.opClaim i p) :=
  .ite hs.answerSeq (.ite hs.renewLease.answerSeq (.ite hs.answerSeq hs.answerSeq.setOwner))

theorem State.leadsTo.opHandover {i : Nat} {p : Pkt} (hs : s₀.leadsTo s) : s₀.leadsTo (s.opHandover i p) := by
  delta State.opHandover
  extract_lets t
  refine .ite hs.answerSeq ?_
  split
  · exact hs.answerSeq
  · exact .ite hs.answerSeq (.ite hs.answerSeq hs.answerSeq.setOwner)

theorem State.leadsTo.opRelease {i : Nat} {p : Pkt} (hs : s₀.leadsTo s) : s₀.leadsTo (s.opRelease i p) :=
  .ite hs.answerSeq hs.answerSeq.setOwner

theorem State.leadsTo.opSetLease {i : Nat} {p : Pkt} (hs : s₀.leadsTo s) : s₀.leadsTo (s.opSetLease i p) := by
  delta State.opSetLease
  extract_lets ms
  exact .ite hs.answerSeq hs.wr.journalReg.answerSeq

theorem State.leadsTo.opSealConfig {i : Nat} {p : Pkt} (hs : s₀.leadsTo s) : s₀.leadsTo (s.opSealConfig i p) :=
  .ite hs.answerSeq hs.same.answerSeq

theorem State.leadsTo.protDone (hs : s₀.leadsTo s) : s₀.leadsTo (s.protDone) := by
  delta State.protDone
  extract_lets live ready src s1
  have hs1 : s₀.leadsTo s1 := hs.same
  exact hs1.foldl (fun s c hs => hs.answerSeq)

theorem State.leadsTo.changeProt {i seq kind index value detail : Nat} (hs : s₀.leadsTo s) : s₀.leadsTo (s.changeProt i seq kind index value detail) := by
  delta State.changeProt
  extract_lets s1 busy c now' setup src s2
  have hs1 : s₀.leadsTo s1 := .ite hs hs.protReg
  have hs2 : s₀.leadsTo s2 := hs1.same
  exact hs2.newRecord.protDone

theorem State.leadsTo.opSetTenantWindow {i : Nat} {p : Pkt} (hs : s₀.leadsTo s) : s₀.leadsTo (s.opSetTenantWindow i p) := by
  delta State.opSetTenantWindow
  extract_lets b
  exact .ite hs.answerSeq hs.changeProt

theorem State.leadsTo.opSetMemWindow {i : Nat} {p : Pkt} (hs : s₀.leadsTo s) : s₀.leadsTo (s.opSetMemWindow i p) := by
  delta State.opSetMemWindow
  extract_lets b w f key v
  have hf : s₀.leadsToSnd f := hs.useFree
  exact .ite hs.answerSeq hf.changeProt

theorem State.leadsTo.opSetCtxOwner {i : Nat} {p : Pkt} (hs : s₀.leadsTo s) : s₀.leadsTo (s.opSetCtxOwner i p) := by
  delta State.opSetCtxOwner
  extract_lets b
  exact .ite hs.answerSeq hs.changeProt

theorem State.leadsTo.opSetPkgGroup {i : Nat} {p : Pkt} (hs : s₀.leadsTo s) : s₀.leadsTo (s.opSetPkgGroup i p) := by
  delta State.opSetPkgGroup
  extract_lets b
  exact .ite hs.answerSeq hs.changeProt

theorem State.leadsTo.accept {slot : Nat} {r : Req} (hs : s₀.leadsTo s) : s₀.leadsTo (s.accept slot r) := by
  delta State.accept
  extract_lets s1
  have hs1 : s₀.leadsTo s1 := hs.newRecord
  exact hs1.setReq

theorem State.leadsTo.opSubmit {i : Nat} {v : Session} {p : Pkt} (hs : s₀.leadsTo s) : s₀.leadsTo (s.opSubmit i v p) := by
  delta State.opSubmit
  extract_lets b desc len src s1
  have hs1 : s₀.leadsTo s1 := hs.same
  refine .ite hs.answerSeq (.ite hs.answerSeq (.ite hs.answerSeq ?_))
  split
  · exact hs.answerSeq
  · exact .ite hs1.accept hs1.setReq.emit

theorem State.leadsTo.acceptCancel {slot field : Nat} {r : Req} {user : Nat × Nat} (hs : s₀.leadsTo s) : s₀.leadsTo (s.acceptCancel slot field r user) :=
  hs.newRecord.setReq

theorem State.leadsTo.opCancel {i : Nat} {p : Pkt} (hs : s₀.leadsTo s) : s₀.leadsTo (s.opCancel i p) := by
  delta State.opCancel
  extract_lets b slot field sub
  refine .ite hs.answerSeq ?_
  split
  · exact .ite hs.answerSeq (.ite hs.answerSeq hs.acceptCancel)
  · split
    · extract_lets s1
      have hs1 : s₀.leadsTo s1 := hs.setTk.newRecordFor
      refine .ite hs.answerSeq ?_
      split
      · exact hs.answerSeq
      · split
        · exact hs1.sendMsg
        · exact hs1
    · split
      · exact .ite hs.answerSeq (.ite hs.answerSeq hs.answerSeq)
      · exact hs.answerSeq

theorem State.leadsTo.opFinalRead {i : Nat} {p : Pkt} (hs : s₀.leadsTo s) : s₀.leadsTo (s.opFinalRead i p) := by
  delta State.opFinalRead
  extract_lets b slot field sub give
  refine .ite hs.answerSeq ?_
  split
  · exact .ite hs.answerSeq hs.answerSeq
  · split
    · exact .ite hs.answerSeq hs.answerSeq
    · split
      · exact .ite hs.answerSeq hs.answerSeq
      · exact hs.answerSeq

theorem State.leadsTo.opPrefixRelease {i : Nat} {p : Pkt} (hs : s₀.leadsTo s) : s₀.leadsTo (s.opPrefixRelease i p) := by
  delta State.opPrefixRelease
  extract_lets g
  have hg : s₀.leadsToSnd g := hs.releasePfx
  exact .ite hs.answerSeq (.ite hg.answerSeq hs.answerSeq)

theorem State.leadsTo.opRegDelivery {i : Nat} {p : Pkt} {extra : List Byte} (hs : s₀.leadsTo s) : s₀.leadsTo (s.opRegDelivery i p extra) := by
  delta State.opRegDelivery
  extract_lets b r n busy g src s1
  have hs1 : s₀.leadsTo s1 := hs.same
  exact .ite hs.answerSeq (.ite hs.answerSeq hs1.journalSession.answerSeq.tkPlaceAll)

theorem State.leadsTo.opDisable {i : Nat} {p : Pkt} (hs : s₀.leadsTo s) : s₀.leadsTo (s.opDisable i p) := by
  delta State.opDisable
  extract_lets b id ms no s1
  have hno : s₀.leadsTo no := hs.answerSeq
  have hs1 : s₀.leadsTo s1 := hs.answerSeq
  refine .ite hno ?_
  split
  · exact hno
  · exact .ite hno (.ite hs1.complete hs1.startDisable)

theorem State.leadsTo.enableFn {k : FnKind} {id : Nat} (hs : s₀.leadsTo s) : s₀.leadsTo (s.enableFn k id) := by
  delta State.enableFn
  extract_lets src s1 on s2
  have hs1 : s₀.leadsTo s1 := hs.same
  have hs2 : s₀.leadsTo s2 := hs1.wr
  split
  · exact .ite hs1.portOn hs1
  · exact .ite (.ite hs2.setDieP hs2.dieToA0) hs1
  · exact hs1

theorem State.leadsTo.opEnable {i : Nat} {p : Pkt} (hs : s₀.leadsTo s) : s₀.leadsTo (s.opEnable i p) := by
  delta State.opEnable
  extract_lets b id no
  have hno : s₀.leadsTo no := hs.answerSeq
  refine .ite hno ?_
  split
  · exact hno
  · exact .ite hno (.ite hs.answerSeq hs.enableFn.answerSeq)

theorem State.leadsTo.readWords {path : Path} {i n : Nat} {acc : List Byte} (hs : s₀.leadsTo s) :
    s₀.leadsToSnd (s.readWords path i n acc) := by
  induction n generalizing s i acc with
  | zero => exact hs
  | succ n ih =>
    unfold State.readWords
    dsimp only
    split
    · exact ih hs.readReg
    · exact hs.readReg

theorem State.leadsTo.opRegRead {i : Nat} {p : Pkt} (hs : s₀.leadsTo s) : s₀.leadsTo (s.opRegRead i p) := by
  delta State.opRegRead
  extract_lets n g
  have hg : s₀.leadsToSnd g := hs.readWords
  refine .ite hs.answerSeq ?_
  split
  · exact hg.answerSeq
  · exact hs.answerSeq

theorem State.leadsTo.opRegWrite {i : Nat} {p : Pkt} (hs : s₀.leadsTo s) : s₀.leadsTo (s.opRegWrite i p) := by
  delta State.opRegWrite
  extract_lets a g v
  have hg : s₀.leadsToSnd g := hs.applyWrite
  refine .ite hs.answerSeq ?_
  split
  · exact hg.answerSeq
  · exact hg.answerSeq

theorem State.leadsTo.opAttest {i : Nat} {p : Pkt} (hs : s₀.leadsTo s) : s₀.leadsTo (s.opAttest i p) := by
  delta State.opAttest
  extract_lets a b rom lc ak r
  have ha : s₀.leadsToSnd a := hs.freeScalar
  have hb : s₀.leadsToSnd b := ha.freeScalar
  exact .ite hs.answerSeq (.ite hs.answerSeq hb.answerSeq)

theorem State.leadsTo.opEventCfg {i : Nat} {v : Session} {p : Pkt} (hs : s₀.leadsTo s) : s₀.leadsTo (s.opEventCfg i v p) :=
  .ite hs.answerSeq hs.setSession.answerSeq

theorem State.leadsTo.applyOp {i op : Nat} {p : Pkt} {extra : List Byte} (hs : s₀.leadsTo s) : s₀.leadsTo (s.applyOp i op p extra) := by
  delta State.applyOp
  extract_lets act
  split
  · exact hs
  · split
    · exact hs.answerSeq
    · refine .ite hs.answerSeq (.ite hs.answerSeq ?_)
      split
      · exact hs.opClose
      · exact hs.opHeartbeat
      · exact hs.opClaim
      · exact hs.opHandover
      · exact hs.opRelease
      · exact hs.opSetLease
      · exact hs.opSealConfig
      · exact hs.opSetTenantWindow
      · exact hs.opSetMemWindow
      · exact hs.opSetCtxOwner
      · exact hs.opSetPkgGroup
      · exact hs.opInstall
      · exact hs.opUninstall
      · exact hs.opSwitchIn
      · exact hs.opStageMap
      · exact hs.opStageSeal
      · exact hs.opAdoptDrive
      · exact hs.opSubmit
      · exact hs.opCancel
      · exact hs.opPrefixRelease
      · exact hs.opRegDelivery
      · exact hs.opFinalRead
      · exact hs.opDisable
      · exact hs.opEnable
      · exact hs.opRegRead
      · exact hs.opRegWrite
      · exact hs.opAttest
      · exact hs.opEventCfg
      · exact hs.answerSeq

theorem State.leadsTo.leaseDue (hs : s₀.leadsTo s) : s₀.leadsTo (s.leaseDue) := by
  delta State.leaseDue
  split
  · exact .ite hs.setOwner hs
  · exact hs

theorem State.leadsTo.sayOn {p : Pkt} {key op st : Nat} (hs : s₀.leadsTo s) : s₀.leadsTo (s.sayOn p key op st) :=
  hs.answer

theorem State.leadsTo.saySeqgap {p : Pkt} {key op : Nat} (hs : s₀.leadsTo s) : s₀.leadsTo (s.saySeqgap p key op) :=
  hs.bump.sayOn

theorem State.leadsTo.takeSeq {i op : Nat} {p : Pkt} {waiters : List Nat} (hs : s₀.leadsTo s) : s₀.leadsTo (s.takeSeq i op p waiters) := by
  delta State.takeSeq
  extract_lets r
  split
  · exact hs
  · extract_lets js
    exact hs.setSession

theorem State.leadsTo.serialise {i op : Nat} {p : Pkt} {extra : List Byte} {waiters : List Nat} {n : Nat} (hs : s₀.leadsTo s) :
    s₀.leadsTo (s.serialise i op p extra waiters n) := by
  induction n generalizing s op p extra waiters with
  | zero => exact hs
  | succ n ih =>
    unfold State.serialise
    extract_lets s1
    have hs1 : s₀.leadsTo s1 := hs.leaseDue.takeSeq.applyOp
    split
    · exact hs1
    · split
      · exact hs1
      · exact .ite hs1.setSession (ih hs1.setSession)

theorem State.leadsTo.duplicate {i op : Nat} {v : Session} {p : Pkt} (hs : s₀.leadsTo s) : s₀.leadsTo (s.duplicate i op v p) := by
  delta State.duplicate
  split
  · exact hs.sayOn
  · refine .ite hs.sayOn ?_
    split
    · exact hs.sendReply
    · exact hs.setSession

theorem State.leadsTo.inSequence {i op : Nat} {v : Session} {p : Pkt} {extra : List Byte} (hs : s₀.leadsTo s) : s₀.leadsTo (s.inSequence i op v p extra) := by
  delta State.inSequence
  extract_lets h
  refine .ite hs.duplicate (.ite hs.bump.sayOn (.ite hs.serialise ?_))
  split
  · extract_lets h'
    exact .ite hs.sayOn hs.setSession
  · exact .ite hs.saySeqgap hs.setSession

theorem State.leadsTo.authFail {op : Nat} {p : Pkt} {key : Nat} (hs : s₀.leadsTo s) : s₀.leadsTo (s.authFail op p key) := by
  delta State.authFail
  extract_lets s1
  have hs1 : s₀.leadsTo s1 := hs.bump.sayOn
  split
  · exact hs1
  · extract_lets ts s2
    have hs2 : s₀.leadsTo s2 := hs1.setQp
    exact .ite hs2.qpError hs2

theorem State.leadsTo.checked {op : Nat} {p : Pkt} {extra : List Byte} (hs : s₀.leadsTo s) : s₀.leadsTo (s.checked op p extra) := by
  delta State.checked
  extract_lets bad opening openIt
  split
  · split
    · exact hs.bump.sayOn
    · exact .ite (.ite hs.authFail (.ite hs.sayOn hs.opOpen)) (.ite hs.bump.sayOn (.ite hs.authFail (.ite (.ite hs.sayOn hs.sayOn) hs.inSequence)))
  · refine .ite (.ite hs.authFail (.ite hs.sayOn hs.opOpen)) ?_
    split
    · exact hs.bump.sayOn
    · split
      · exact hs.bump.sayOn
      · exact .ite hs.authFail (.ite hs.sayOn (.ite hs.opOpenConfirm (.ite hs.sayOn hs.opAttach)))

theorem State.leadsTo.noteCe {q : Nat} (hs : s₀.leadsTo s) : s₀.leadsTo (s.noteCe q) := by
  delta State.noteCe
  split
  · exact hs
  · extract_lets late
    exact .ite hs.setQp.emit hs

theorem State.leadsTo.arrivePkt {p : Pkt} {k : State → State} (hs : s₀.leadsTo s) (hk : ∀ t, s₀.leadsTo t → s₀.leadsTo (k t)) :
    s₀.leadsTo (s.arrivePkt p k) := by
  unfold State.arrivePkt
  extract_lets s0
  have hs0 : s₀.leadsTo s0 := .ite hs.noteCe hs
  refine .ite hs ?_
  split
  · exact .ite hs0 (hk s0 hs0)
  · exact .ite hs0.emit (.ite hs0.emit.qpError (hk s0 hs0))

theorem State.leadsTo.occupy {q : Nat} (hs : s₀.leadsTo s) : s₀.leadsTo (s.occupy q) := by
  delta State.occupy
  split
  · exact hs.setQp
  · exact hs

theorem State.leadsTo.hostCommand {op : Nat} {p : Pkt} {extra : List Byte} (hs : s₀.leadsTo s) : s₀.leadsTo (s.hostCommand op p extra) :=
  hs.arrivePkt (fun _ hs => .ite hs.bump hs.leaseDue.occupy.checked)

theorem State.leadsTo.execInstall {p : Pkt} {header : List Byte} (hs : s₀.leadsTo s) : s₀.leadsToRes (execInstall p header s) :=
  hs.hostCommand.next

theorem State.leadsTo.execSwitchIn {p : Pkt} (hs : s₀.leadsTo s) : s₀.leadsToRes (execSwitchIn p s) :=
  hs.hostCommand.next

theorem State.leadsTo.execUninstall {p : Pkt} (hs : s₀.leadsTo s) : s₀.leadsToRes (execUninstall p s) :=
  hs.hostCommand.next

theorem State.leadsTo.execOpenSession {p : Pkt} (hs : s₀.leadsTo s) : s₀.leadsToRes (execOpenSession p s) :=
  hs.hostCommand.next

theorem State.leadsTo.execOpenConfirm {p : Pkt} (hs : s₀.leadsTo s) : s₀.leadsToRes (execOpenConfirm p s) :=
  hs.hostCommand.next

theorem State.leadsTo.execAttach {p : Pkt} (hs : s₀.leadsTo s) : s₀.leadsToRes (execAttach p s) :=
  hs.hostCommand.next

theorem State.leadsTo.execClose {p : Pkt} (hs : s₀.leadsTo s) : s₀.leadsToRes (execClose p s) :=
  hs.hostCommand.next

theorem State.leadsTo.execHeartbeat {p : Pkt} (hs : s₀.leadsTo s) : s₀.leadsToRes (execHeartbeat p s) :=
  hs.hostCommand.next

theorem State.leadsTo.execClaim {p : Pkt} (hs : s₀.leadsTo s) : s₀.leadsToRes (execClaim p s) :=
  hs.hostCommand.next

theorem State.leadsTo.execHandover {p : Pkt} (hs : s₀.leadsTo s) : s₀.leadsToRes (execHandover p s) :=
  hs.hostCommand.next

theorem State.leadsTo.execRelease {p : Pkt} (hs : s₀.leadsTo s) : s₀.leadsToRes (execRelease p s) :=
  hs.hostCommand.next

theorem State.leadsTo.execSetLease {p : Pkt} (hs : s₀.leadsTo s) : s₀.leadsToRes (execSetLease p s) :=
  hs.hostCommand.next

theorem State.leadsTo.execSealConfig {p : Pkt} (hs : s₀.leadsTo s) : s₀.leadsToRes (execSealConfig p s) :=
  hs.hostCommand.next

theorem State.leadsTo.execSetTenantWindow {p : Pkt} (hs : s₀.leadsTo s) : s₀.leadsToRes (execSetTenantWindow p s) :=
  hs.hostCommand.next

theorem State.leadsTo.execSetMemWindow {p : Pkt} (hs : s₀.leadsTo s) : s₀.leadsToRes (execSetMemWindow p s) :=
  hs.hostCommand.next

theorem State.leadsTo.execSetCtxOwner {p : Pkt} (hs : s₀.leadsTo s) : s₀.leadsToRes (execSetCtxOwner p s) :=
  hs.hostCommand.next

theorem State.leadsTo.execSetPkgGroup {p : Pkt} (hs : s₀.leadsTo s) : s₀.leadsToRes (execSetPkgGroup p s) :=
  hs.hostCommand.next

theorem State.leadsTo.execStageMap {p : Pkt} (hs : s₀.leadsTo s) : s₀.leadsToRes (execStageMap p s) :=
  hs.hostCommand.next

theorem State.leadsTo.execStageSeal {p : Pkt} (hs : s₀.leadsTo s) : s₀.leadsToRes (execStageSeal p s) :=
  hs.hostCommand.next

theorem State.leadsTo.execAdoptDrive {p : Pkt} (hs : s₀.leadsTo s) : s₀.leadsToRes (execAdoptDrive p s) :=
  hs.hostCommand.next

theorem State.leadsTo.execSubmit {p : Pkt} (hs : s₀.leadsTo s) : s₀.leadsToRes (execSubmit p s) :=
  hs.hostCommand.next

theorem State.leadsTo.execCancel {p : Pkt} (hs : s₀.leadsTo s) : s₀.leadsToRes (execCancel p s) :=
  hs.hostCommand.next

theorem State.leadsTo.execPrefixRelease {p : Pkt} (hs : s₀.leadsTo s) : s₀.leadsToRes (execPrefixRelease p s) :=
  hs.hostCommand.next

theorem State.leadsTo.execRegDelivery {p : Pkt} {count : Nat} (hs : s₀.leadsTo s) : s₀.leadsToRes (execRegDelivery p count s) :=
  hs.hostCommand.next

theorem State.leadsTo.execFinalRead {p : Pkt} (hs : s₀.leadsTo s) : s₀.leadsToRes (execFinalRead p s) :=
  hs.hostCommand.next

theorem State.leadsTo.execDisable {p : Pkt} (hs : s₀.leadsTo s) : s₀.leadsToRes (execDisable p s) :=
  hs.hostCommand.next

theorem State.leadsTo.execEnable {p : Pkt} (hs : s₀.leadsTo s) : s₀.leadsToRes (execEnable p s) :=
  hs.hostCommand.next

theorem State.leadsTo.execRegRead {p : Pkt} (hs : s₀.leadsTo s) : s₀.leadsToRes (execRegRead p s) :=
  hs.hostCommand.next

theorem State.leadsTo.execRegWrite {p : Pkt} (hs : s₀.leadsTo s) : s₀.leadsToRes (execRegWrite p s) :=
  hs.hostCommand.next

theorem State.leadsTo.execAttest {p : Pkt} (hs : s₀.leadsTo s) : s₀.leadsToRes (execAttest p s) :=
  hs.hostCommand.next

theorem State.leadsTo.execEventCfg {p : Pkt} (hs : s₀.leadsTo s) : s₀.leadsToRes (execEventCfg p s) :=
  hs.hostCommand.next

theorem State.leadsTo.execMalformedPacket {magic version op : Nat} {p : Pkt} (hs : s₀.leadsTo s) : s₀.leadsToRes (execMalformedPacket magic version op p s) :=
  State.leadsTo.next (.ite hs.hostCommand (hs.arrivePkt (fun _ hs => hs.bump)))

theorem State.leadsTo.execUnknownOp {op : Nat} {p : Pkt} (hs : s₀.leadsTo s) : s₀.leadsToRes (execUnknownOp op p s) :=
  hs.hostCommand.next

theorem State.leadsTo.execOpenTimeout {i : Nat} (hs : s₀.leadsTo s) : s₀.leadsToRes (execOpenTimeout i s) := by
  delta Machine.execOpenTimeout
  refine .ite (State.leadsTo.next ?_) (.refused)
  split
  · exact .ite hs.dropSession hs
  · exact hs

theorem State.leadsTo.execSessionHoldExpiry {i : Nat} (hs : s₀.leadsTo s) : s₀.leadsToRes (execSessionHoldExpiry i s) := by
  delta Machine.execSessionHoldExpiry
  refine .ite (State.leadsTo.next ?_) (.refused)
  split
  · exact .ite hs.startClose.tkDropHeld hs.tkDropHeld
  · exact hs.tkDropHeld

theorem State.leadsTo.execLeaseWarn (hs : s₀.leadsTo s) : s₀.leadsToRes (execLeaseWarn s) := by
  delta Machine.execLeaseWarn
  extract_lets src
  refine State.leadsTo.next ?_
  split
  · exact .ite hs.same.sendEvent hs
  · exact hs

theorem State.leadsTo.execLeaseExpiry (hs : s₀.leadsTo s) : s₀.leadsToRes (execLeaseExpiry s) :=
  hs.leaseDue.next

theorem State.leadsTo.execSeqgapTimeout {i seq : Nat} (hs : s₀.leadsTo s) : s₀.leadsToRes (execSeqgapTimeout i seq s) := by
  delta Machine.execSeqgapTimeout
  refine .ite (State.leadsTo.next ?_) (.refused)
  split
  · exact hs
  · extract_lets s1
    have hs1 : s₀.leadsTo s1 := hs.setSession
    split
    · exact hs
    · extract_lets src
      exact hs1.foldl (fun s q hs => hs.saySeqgap)

theorem State.leadsTo.execProtectionApplied (hs : s₀.leadsTo s) : s₀.leadsToRes (execProtectionApplied s) :=
  hs.protDone.next

theorem State.leadsTo.execInputFetchComplete {slot : Nat} {data : Option (List Byte)} (hs : s₀.leadsTo s) : s₀.leadsToRes (execInputFetchComplete slot data s) := by
  delta Machine.execInputFetchComplete
  refine .ite (State.leadsTo.next ?_) (.refused)
  split
  · exact hs
  · extract_lets n
    refine .ite hs ?_
    split
    · exact hs.answerSeq.freeReq
    · exact hs.accept

theorem State.leadsTo.setRing {k : Nat} {g : Sys2Proof.Ring} (hs : s₀.leadsTo s) : s₀.leadsTo (s.setRing k g) :=
  hs.same

theorem State.leadsTo.noteWritten {t : RingTok} (hs : s₀.leadsTo s) : s₀.leadsTo (s.noteWritten t) := by
  delta State.noteWritten
  extract_lets src
  split
  · exact hs.same
  · split
    · exact hs.setTk
    · exact hs

theorem State.leadsTo.execTokenDelivery {i ring : Nat} (hs : s₀.leadsTo s) : s₀.leadsToRes (execTokenDelivery i ring s) := by
  delta Machine.execTokenDelivery
  refine .ite (State.leadsTo.next ?_) (.refused)
  split
  · split
    · exact hs
    · extract_lets q g'
      exact .ite hs (.ite hs.emit hs.writeToken.setRing.noteWritten)
  · exact hs

theorem State.leadsTo.execConsumerCountRead {i ring count : Nat} (hs : s₀.leadsTo s) : s₀.leadsToRes (execConsumerCountRead i ring count s) := by
  delta Machine.execConsumerCountRead
  refine .ite (State.leadsTo.next ?_) (.refused)
  split
  · extract_lets c
    exact .ite hs.setRing hs
  · exact hs

theorem State.leadsTo.execFinalEvent {origin : Option Nat} {slot : Nat} (hs : s₀.leadsTo s) : s₀.leadsToRes (execFinalEvent origin slot s) := by
  delta Machine.execFinalEvent
  refine .ite (.refused) (State.leadsTo.next ?_)
  split
  · split
    · exact hs
    · extract_lets f b s1 src
      have hs1 : s₀.leadsTo s1 := hs.sendEventOn.freeSlot
      split
      · exact hs
      · exact .ite hs1.same hs
  · split
    · exact hs
    · split
      · extract_lets f s1 src src'
        have hs1 : s₀.leadsTo s1 := hs.sendEventOn
        exact .ite hs1.same hs
      · exact hs

theorem State.leadsTo.execFinalRecordExpiry (hs : s₀.leadsTo s) : s₀.leadsToRes (execFinalRecordExpiry s) :=
  hs.same.next

theorem State.leadsTo.execHostRdmaAccess {q rkey addr n : Nat} {data : Option (List Byte)} (hs : s₀.leadsTo s) : s₀.leadsToRes (execHostRdmaAccess q rkey addr n data s) := by
  delta Machine.execHostRdmaAccess
  extract_lets nak
  have hnak : s₀.leadsTo nak := hs.emit.qpError
  refine State.leadsTo.next ?_
  split
  · exact hs
  · refine .ite hs ?_
    split
    · exact hnak
    · split
      · exact .ite (.masWrite (hs.foldl (fun s pn hs => hs.touch))) hnak
      · refine .ite ?_ hnak
        split
        · exact .emit (hs.foldl (fun s pn hs => hs.touch))
        · exact hs.requestRange
        · exact hnak

theorem State.leadsTo.execCmConnect {q port : Nat} (hs : s₀.leadsTo s) : s₀.leadsToRes (execCmConnect q port s) := by
  delta Machine.execCmConnect
  extract_lets busy
  exact .ite (.refused) (State.leadsTo.next (.ite hs (.ite hs.emit hs.setQp)))

theorem State.leadsTo.execQpError {q : Nat} (hs : s₀.leadsTo s) : s₀.leadsToRes (execQpError q s) :=
  .ite hs.qpError.next (.refused)

theorem State.leadsTo.setPause {p : Nat} {v : Option (Option Nat)} (hs : s₀.leadsTo s) : s₀.leadsTo (s.setPause p v) :=
  hs.same

theorem State.leadsTo.execPfcPause {p prio : Nat} {on : Bool} (hs : s₀.leadsTo s) : s₀.leadsToRes (execPfcPause p prio on s) :=
  .ite (.refused) (State.leadsTo.next (.ite hs (.ite (.ite hs hs.setPause) hs.setPause)))

theorem State.leadsTo.execPfcStorm {p : Nat} (hs : s₀.leadsTo s) : s₀.leadsToRes (execPfcStorm p s) := by
  delta Machine.execPfcStorm
  refine .ite (.refused) (State.leadsTo.next ?_)
  split
  · exact .ite hs.wr.setPause.hostLinkEvent hs
  · exact hs

theorem State.leadsTo.execCnpReceive {q : Nat} (hs : s₀.leadsTo s) : s₀.leadsToRes (execCnpReceive q s) := by
  delta Machine.execCnpReceive
  refine .ite (.refused) (State.leadsTo.next ?_)
  split
  · exact hs
  · exact .ite hs (.ite hs.setQp hs.setQp)

theorem State.leadsTo.execRateRecovery {q : Nat} (hs : s₀.leadsTo s) : s₀.leadsToRes (execRateRecovery q s) := by
  delta Machine.execRateRecovery
  refine .ite (.refused) (State.leadsTo.next ?_)
  split
  · exact hs
  · extract_lets line
    exact .ite hs.setQp hs

theorem State.leadsTo.vecAdvance {die y x c : Nat} (hs : s₀.leadsTo s) : s₀.leadsTo (s.vecAdvance die y x c) := by
  delta State.vecAdvance
  extract_lets t t'
  refine .ite hs.setTile ?_
  split
  · exact hs.setTile
  · exact hs.setTile

theorem State.leadsTo.vecIssued {die y x c : Nat} (hs : s₀.leadsTo s) : s₀.leadsTo (s.vecIssued die y x c) :=
  hs.bump.fired.vecAdvance

theorem State.leadsTo.vecIterate {die y x c w : Nat} (hs : s₀.leadsTo s) : s₀.leadsTo (s.vecIterate die y x c w) := by
  delta State.vecIterate
  split
  · exact hs
  · exact .ite hs.consumeAll.writeDst.tileFlags.residue.vecIssued hs.waitDst

theorem State.leadsTo.combOrdered {die y x c w : Nat} (hs : s₀.leadsTo s) : s₀.leadsTo (s.combOrdered die y x c w) := by
  delta State.combOrdered
  extract_lets k ports toks start d r
  exact .ite hs (.ite hs.waitDst hs.consumeAll.writeDst.tileFlags.residue.vecIssued)

theorem State.leadsTo.combArrival {die y x c w : Nat} (hs : s₀.leadsTo s) : s₀.leadsTo (s.combArrival die y x c w) := by
  delta State.combArrival
  extract_lets t k d ports start ready taken before r used ok s1 t1 s1' t1'
  have hs1 : s₀.leadsTo s1 := hs.consumeAll.writeDst
  have hs1' : s₀.leadsTo s1' := hs.consumeAll
  exact .ite (.ite hs.waitDst hs1.setTile.tileFlags.residue.vecIssued) (.ite hs hs1'.setTile.tileFlags.residue.fired)

theorem State.leadsTo.summarySend {die y x c w : Nat} (hs : s₀.leadsTo s) : s₀.leadsTo (s.summarySend die y x c w) := by
  delta State.summarySend
  extract_lets t accum a last s1 t1 q
  have hs1 : s₀.leadsTo s1 := hs.consume
  split
  · exact hs
  · extract_lets r v s1' t1'
    have hs1' : s₀.leadsTo s1' := hs.consume.pushToks
    exact .ite hs1.setTile.tileFlags.vecIssued (.ite hs.markWaiting hs1'.setTile.tileFlags.vecIssued)

theorem State.leadsTo.vecFireWord {die y x c w : Nat} (hs : s₀.leadsTo s) : s₀.leadsTo (s.vecFireWord die y x c w) :=
  .ite (.ite hs.combOrdered hs.combArrival) (.ite hs.summarySend hs.vecIterate)

theorem State.leadsTo.vecFire {die y x opc : Nat} (hs : s₀.leadsTo s) : s₀.leadsTo (s.vecFire die y x opc) := by
  delta State.vecFire
  split
  · exact hs
  · extract_lets s' t
    have hs' : s₀.leadsTo s' := hs.adoptDue
    split
    · exact hs'
    · extract_lets w
      refine .ite hs' (.ite hs'.vecFireWord ?_)
      split
      · exact hs'
      · next n s1 es1 =>
          have hs1 : s₀.leadsTo s1 := hs'.repeatCount _ _ es1
          extract_lets s2
          have hs2 : s₀.leadsTo s2 := hs1.setTile
          exact .ite hs'.tileBound (.ite hs2.fired.vecAdvance hs2.vecFireWord)

theorem State.leadsTo.execVadd {die y x : Nat} (hs : s₀.leadsTo s) : s₀.leadsToRes (execVadd die y x s) :=
  State.leadsToRes.onCt hs.vecFire.next

theorem State.leadsTo.execVsub {die y x : Nat} (hs : s₀.leadsTo s) : s₀.leadsToRes (execVsub die y x s) :=
  State.leadsToRes.onCt hs.vecFire.next

theorem State.leadsTo.execVmul {die y x : Nat} (hs : s₀.leadsTo s) : s₀.leadsToRes (execVmul die y x s) :=
  State.leadsToRes.onCt hs.vecFire.next

theorem State.leadsTo.execVfma {die y x : Nat} (hs : s₀.leadsTo s) : s₀.leadsToRes (execVfma die y x s) :=
  State.leadsToRes.onCt hs.vecFire.next

theorem State.leadsTo.execVmin {die y x : Nat} (hs : s₀.leadsTo s) : s₀.leadsToRes (execVmin die y x s) :=
  State.leadsToRes.onCt hs.vecFire.next

theorem State.leadsTo.execVmax {die y x : Nat} (hs : s₀.leadsTo s) : s₀.leadsToRes (execVmax die y x s) :=
  State.leadsToRes.onCt hs.vecFire.next

theorem State.leadsTo.execVcmp {die y x : Nat} (hs : s₀.leadsTo s) : s₀.leadsToRes (execVcmp die y x s) :=
  State.leadsToRes.onCt hs.vecFire.next

theorem State.leadsTo.execVsel {die y x : Nat} (hs : s₀.leadsTo s) : s₀.leadsToRes (execVsel die y x s) :=
  State.leadsToRes.onCt hs.vecFire.next

theorem State.leadsTo.execVand {die y x : Nat} (hs : s₀.leadsTo s) : s₀.leadsToRes (execVand die y x s) :=
  State.leadsToRes.onCt hs.vecFire.next

theorem State.leadsTo.execVor {die y x : Nat} (hs : s₀.leadsTo s) : s₀.leadsToRes (execVor die y x s) :=
  State.leadsToRes.onCt hs.vecFire.next

theorem State.leadsTo.execVshl {die y x : Nat} (hs : s₀.leadsTo s) : s₀.leadsToRes (execVshl die y x s) :=
  State.leadsToRes.onCt hs.vecFire.next

theorem State.leadsTo.execVshr {die y x : Nat} (hs : s₀.leadsTo s) : s₀.leadsToRes (execVshr die y x s) :=
  State.leadsToRes.onCt hs.vecFire.next

theorem State.leadsTo.execVexp2 {die y x : Nat} (hs : s₀.leadsTo s) : s₀.leadsToRes (execVexp2 die y x s) :=
  State.leadsToRes.onCt hs.vecFire.next

theorem State.leadsTo.execVrcp {die y x : Nat} (hs : s₀.leadsTo s) : s₀.leadsToRes (execVrcp die y x s) :=
  State.leadsToRes.onCt hs.vecFire.next

theorem State.leadsTo.execVrsqrt {die y x : Nat} (hs : s₀.leadsTo s) : s₀.leadsToRes (execVrsqrt die y x s) :=
  State.leadsToRes.onCt hs.vecFire.next

theorem State.leadsTo.execVcvt {die y x : Nat} (hs : s₀.leadsTo s) : s₀.leadsToRes (execVcvt die y x s) :=
  State.leadsToRes.onCt hs.vecFire.next

theorem State.leadsTo.execVmxpk {die y x : Nat} (hs : s₀.leadsTo s) : s₀.leadsToRes (execVmxpk die y x s) :=
  State.leadsToRes.onCt hs.vecFire.next

theorem State.leadsTo.execVmxup {die y x : Nat} (hs : s₀.leadsTo s) : s₀.leadsToRes (execVmxup die y x s) :=
  State.leadsToRes.onCt hs.vecFire.next

theorem State.leadsTo.execVshuf {die y x : Nat} (hs : s₀.leadsTo s) : s₀.leadsToRes (execVshuf die y x s) :=
  State.leadsToRes.onCt hs.vecFire.next

theorem State.leadsTo.execVred {die y x : Nat} (hs : s₀.leadsTo s) : s₀.leadsToRes (execVred die y x s) :=
  State.leadsToRes.onCt hs.vecFire.next

theorem State.leadsTo.execVcomb {die y x : Nat} (hs : s₀.leadsTo s) : s₀.leadsToRes (execVcomb die y x s) :=
  State.leadsToRes.onCt hs.vecFire.next

theorem State.leadsTo.execVssend {die y x : Nat} (hs : s₀.leadsTo s) : s₀.leadsToRes (execVssend die y x s) :=
  State.leadsToRes.onCt hs.vecFire.next

theorem State.leadsTo.execVmov {die y x : Nat} (hs : s₀.leadsTo s) : s₀.leadsToRes (execVmov die y x s) :=
  State.leadsToRes.onCt hs.vecFire.next

theorem State.leadsTo.execParamAdopt {die y x : Nat} {vec : Bool} (hs : s₀.leadsTo s) : s₀.leadsToRes (execParamAdopt die y x vec s) := by
  delta Machine.execParamAdopt
  refine State.leadsToRes.onCt (State.leadsTo.next ?_)
  split
  · exact hs
  · exact hs.adoptDue

theorem State.leadsTo.vecTurn {die y x : Nat} (hs : s₀.leadsTo s) : s₀.leadsTo (s.vecTurn die y x) := by
  delta State.vecTurn
  split
  · exact hs
  · split
    · exact hs
    · exact hs.vecFire

theorem State.leadsTo.wdogCycles {die c n : Nat} (hs : s₀.leadsTo s) : s₀.leadsTo (s.wdogCycles die c n) := by
  delta State.wdogCycles
  extract_lets v limit f s1 src
  have hs1 : s₀.leadsTo s1 := hs.wr
  exact .ite hs (.ite hs.wr hs1.sameArr)

theorem State.leadsTo.slotCycles {die c n : Nat} (hs : s₀.leadsTo s) : s₀.leadsTo (s.slotCycles die c n) := by
  delta State.slotCycles
  extract_lets s1 k src
  have hs1 : s₀.leadsTo s1 := .ite hs.bump hs
  exact .ite hs1.wdogCycles hs1.sameArr

theorem State.leadsTo.stallCycles {die n : Nat} (hs : s₀.leadsTo s) : s₀.leadsTo (s.stallCycles die n) := by
  delta State.stallCycles
  extract_lets w mine s1 units s2 miss
  have hs1 : s₀.leadsTo s1 := hs.foldl (fun s e hs => hs.bump)
  have hs2 : s₀.leadsTo s2 := hs1.foldl (fun s k hs => hs.bump)
  exact .ite hs2 hs2.bump

theorem State.leadsTo.restCycles {d : Nat} (hs : s₀.leadsTo s) : s₀.leadsTo (s.restCycles d) := by
  delta State.restCycles
  extract_lets k src
  exact hs.sameArr

theorem State.leadsTo.countCycles {d : Nat} (hs : s₀.leadsTo s) : s₀.leadsTo (s.countCycles d) := by
  delta State.countCycles
  extract_lets all due n s1 s2 src
  have hs1 : s₀.leadsTo s1 := hs.bump.stallCycles
  have hs2 : s₀.leadsTo s2 := by
    unfold s2
    split
    · exact hs1.slotCycles
    · exact hs1
  exact .ite hs2.sameArr hs

theorem State.leadsTo.execLinkTraining {p : Nat} {q : Partner} (hs : s₀.leadsTo s) : s₀.leadsToRes (execLinkTraining p q s) := by
  delta Machine.execLinkTraining
  extract_lets v st g credits src s1 s2 s3
  have hs1 : s₀.leadsTo s1 := hs.setPort
  have hs2 : s₀.leadsTo s2 := hs1.wr
  have hs3 : s₀.leadsTo s3 := .ite hs2.portTo hs2.portTo
  refine State.leadsToRes.onPort (State.leadsTo.next (.ite ?_ hs))
  split
  · exact .ite (.ite hs hs.portTo) hs.setPort.portTo
  · exact hs.setPort
  · exact hs.setPort.wr
  · refine .ite ?_ hs
    split
    · exact hs.setPort.portTo.bundlesDown
    · exact hs.setPort.wr.wrFlag.wr
  · exact .ite hs3.flushWaiting hs.setPort

theorem State.leadsTo.execTrainingTimeout {p : Nat} (hs : s₀.leadsTo s) : s₀.leadsToRes (execTrainingTimeout p s) := by
  delta Machine.execTrainingTimeout
  extract_lets v
  exact State.leadsToRes.onPort (State.leadsTo.next (.ite hs.portFault.bundlesDown hs))

theorem State.leadsTo.execLossOfSignal {p : Nat} (hs : s₀.leadsTo s) : s₀.leadsToRes (execLossOfSignal p s) :=
  State.leadsToRes.onPort (State.leadsTo.next (.ite hs.portFault.bundlesDown hs))

theorem State.leadsTo.execLaneFailure {p : Nat} (hs : s₀.leadsTo s) : s₀.leadsToRes (execLaneFailure p s) :=
  State.leadsToRes.onPort (State.leadsTo.next (.ite hs.portFault.bundlesDown hs))

theorem State.leadsTo.execRetrain {p : Nat} (hs : s₀.leadsTo s) : s₀.leadsToRes (execRetrain p s) :=
  State.leadsToRes.onPort (State.leadsTo.next (.ite hs.turnAway hs.retrain.bundlesDown))

theorem State.leadsTo.execEnablePort {p : Nat} {en : Bool} (hs : s₀.leadsTo s) : s₀.leadsToRes (execEnablePort p en s) :=
  State.leadsToRes.onPort (State.leadsTo.next (.ite hs.turnAway hs.enablePort.bundlesDown))

theorem State.leadsTo.execNakReceive {p lseq : Nat} (hs : s₀.leadsTo s) : s₀.leadsToRes (execNakReceive p lseq s) := by
  delta Machine.execNakReceive
  extract_lets s1
  have hs1 : s₀.leadsTo s1 := hs.hopAck
  exact State.leadsToRes.onPort (State.leadsTo.next (.ite (.ite hs1 hs1.replayFrom.bundlesDown) hs))

theorem State.leadsTo.execReplayTimeout {p : Nat} (hs : s₀.leadsTo s) : s₀.leadsToRes (execReplayTimeout p s) := by
  delta Machine.execReplayTimeout
  refine State.leadsToRes.onPort (State.leadsTo.next (.ite ?_ hs))
  split
  · exact .ite hs.replayFrom.bundlesDown hs
  · exact hs

theorem State.leadsTo.execRoute {m primary alt : Nat} (hs : s₀.leadsTo s) : s₀.leadsToRes (execRoute m primary alt s) :=
  .ite (State.leadsTo.next (.ite hs.turnAway hs.setRoute.bundlesDown)) (.refused)

theorem State.leadsTo.exec {i : Instr} (hs : s₀.leadsTo s) : s₀.leadsToRes (exec i s) := by
  delta Machine.exec
  split
  · exact hs.execWriteRegister
  · exact hs.execCounterLowRead
  · exact hs.execVelvetEdgeLoss
  · exact hs.execMmac
  · exact hs.execVadd
  · exact hs.execVsub
  · exact hs.execVmul
  · exact hs.execVfma
  · exact hs.execVmin
  · exact hs.execVmax
  · exact hs.execVcmp
  · exact hs.execVsel
  · exact hs.execVand
  · exact hs.execVor
  · exact hs.execVshl
  · exact hs.execVshr
  · exact hs.execVexp2
  · exact hs.execVrcp
  · exact hs.execVrsqrt
  · exact hs.execVcvt
  · exact hs.execVmxpk
  · exact hs.execVmxup
  · exact hs.execVshuf
  · exact hs.execVred
  · exact hs.execVcomb
  · exact hs.execVssend
  · exact hs.execVmov
  · exact hs.execParamCommit
  · exact hs.execParamAdopt
  · exact hs.execTokenForward
  · exact hs.execCreditReturn
  · exact hs.execCtxLoad
  · exact hs.execContextLoadComplete
  · exact hs.execResetOnlyLoad
  · exact hs.execCtxSelect
  · exact hs.execContextSwitchCycle
  · exact hs.execDiePowerDown
  · exact hs.execSpillStart
  · exact hs.execSpillRefill
  · exact hs.execWatchdogFreeze
  · exact hs.execFreezeMessage
  · exact hs.execScan
  · exact hs.execScanOut
  · exact hs.execScanIn
  · exact hs.execScanComplete
  · exact hs.execAgDescriptorIssue
  · exact hs.execAgRead
  · exact hs.execAgWrite
  · exact hs.execAgFill
  · exact hs.execScatterAcc
  · exact hs.execScatterPlane
  · exact hs.execDescriptorComplete
  · exact hs.execAgentRead
  · exact hs.execAgentReadResume
  · exact hs.execAgentWrite
  · exact hs.execWcRead
  · exact hs.execWcFillComplete
  · exact hs.execFlush
  · exact hs.execNop
  · exact hs.execParamUpdate
  · exact hs.execWriteWord
  · exact hs.execDma
  · exact hs.execDmaComplete
  · exact hs.execPrefetch
  · exact hs.execPrefetchComplete
  · exact hs.execPfRelease
  · exact hs.execLookaheadIssue
  · exact hs.execDispatch
  · exact hs.execGroup
  · exact hs.execGroupAssign
  · exact hs.execGroupComplete
  · exact hs.execDispatchComplete
  · exact hs.execFence
  · exact hs.execFenceWaitMet
  · exact hs.execFenceSignal
  · exact hs.execSummaryWait
  · exact hs.execSummaryWaitMet
  · exact hs.execSummaryMessage
  · exact hs.execCounterRead
  · exact hs.execStep
  · exact hs.execStepComplete
  · exact hs.execIdleStepBoundary
  · exact hs.execStepDeadline
  · exact hs.execStreamTailAdvance
  · exact hs.execStart
  · exact hs.execStop
  · exact hs.execAbort
  · exact hs.execPop
  · exact hs.execIdleNotice
  · exact hs.execLockstepMismatch
  · exact hs.execSergePairRejoin
  · exact hs.execRouterHeader
  · exact hs.execRouterSelection
  · exact hs.execRouterCapacity
  · exact hs.execRouterLists
  · exact hs.execExpertList
  · exact hs.execExpertResult
  · exact hs.execMap
  · exact hs.execSeal
  · exact hs.execSealFinish
  · exact hs.execFree
  · exact hs.execFreeRelease
  · exact hs.execPromote
  · exact hs.execPromotionComplete
  · exact hs.execDemote
  · exact hs.execSetPlace
  · exact hs.execDrop
  · exact hs.execPlacementDemotion
  · exact hs.execBulkToDeepCopy
  · exact hs.execAccessEpoch
  · exact hs.execDdrChannelFail
  · exact hs.execDriveFail
  · exact hs.execStackRetire
  · exact hs.execDeepCatalogueScan
  · exact hs.execInstall
  · exact hs.execQueryTimeout
  · exact hs.execTaffetaBlockDecode
  · exact hs.execStageFramesTimeout
  · exact hs.execConfirmTimeout
  · exact hs.execInstallCommit
  · exact hs.execSwitchIn
  · exact hs.execSwitchInLoaded
  · exact hs.execUninstall
  · exact hs.execTenantRefill
  · exact hs.execLevel
  · exact hs.execStewardTakeover
  · exact hs.execDrainDeadline
  · exact hs.execDisableComplete
  · exact hs.execOpenSession
  · exact hs.execOpenConfirm
  · exact hs.execOpenTimeout
  · exact hs.execAttach
  · exact hs.execClose
  · exact hs.execSessionHoldExpiry
  · exact hs.execHeartbeat
  · exact hs.execClaim
  · exact hs.execHandover
  · exact hs.execRelease
  · exact hs.execSetLease
  · exact hs.execLeaseWarn
  · exact hs.execLeaseExpiry
  · exact hs.execSealConfig
  · exact hs.execSetTenantWindow
  · exact hs.execSetMemWindow
  · exact hs.execSetCtxOwner
  · exact hs.execSetPkgGroup
  · exact hs.execProtectionApplied
  · exact hs.execStageMap
  · exact hs.execStageSeal
  · exact hs.execAdoptDrive
  · exact hs.execSubmit
  · exact hs.execInputFetchComplete
  · exact hs.execCancel
  · exact hs.execPrefixRelease
  · exact hs.execRegDelivery
  · exact hs.execFinalRead
  · exact hs.execDisable
  · exact hs.execEnable
  · exact hs.execRegRead
  · exact hs.execRegWrite
  · exact hs.execAttest
  · exact hs.execEventCfg
  · exact hs.execMalformedPacket
  · exact hs.execUnknownOp
  · exact hs.execSeqgapTimeout
  · exact hs.execCmConnect
  · exact hs.execQpError
  · exact hs.execHostRdmaAccess
  · exact hs.execTokenDelivery
  · exact hs.execConsumerCountRead
  · exact hs.execFinalEvent
  · exact hs.execFinalRecordExpiry
  · exact hs.execErrorEventWindow
  · exact hs.execPfcPause
  · exact hs.execPfcStorm
  · exact hs.execCnpReceive
  · exact hs.execRateRecovery
  · exact hs.execI3cWrite
  · exact hs.execLinkTraining
  · exact hs.execTrainingTimeout
  · exact hs.execLossOfSignal
  · exact hs.execRetrain
  · exact hs.execEnablePort
  · exact hs.execNakReceive
  · exact hs.execReplayTimeout
  · exact hs.execCreditReceive
  · exact hs.execDataFlitReceive
  · exact hs.execE2eAckTimer
  · exact hs.execReorderTimeout
  · exact hs.execE2eReceive
  · exact hs.execE2eDead
  · exact hs.execProbe
  · exact hs.execProbeReply
  · exact hs.execNorouteTimeout
  · exact hs.execRoute
  · exact hs.execPageQuery
  · exact hs.execPageAnswer
  · exact hs.execPageFetch
  · exact hs.execPageData
  · exact hs.execPageRefuse
  · exact hs.execConfirmReq
  · exact hs.execConfirm
  · exact hs.execMalformedMsg
  · exact hs.execVelvetReplay
  · exact hs.execUcieRetrain
  · exact hs.execJrnlRecords
  · exact hs.execJrnlAck
  · exact hs.execJrnlHeartbeat
  · exact hs.execJournalBatch
  · exact hs.execJournalHbTimer
  · exact hs.execPartnerTimeout
  · exact hs.execFaultNotice
  · exact hs.execPairReq
  · exact hs.execPairRetry
  · exact hs.execPairGrant
  · exact hs.execFenceOut
  · exact hs.execResyncData
  · exact hs.execTakeoverAssign
  · exact hs.execTakeoverState
  · exact hs.execTakeoverToken
  · exact hs.execTakeoverAck
  · exact hs.execTakeoverCtrl
  · exact hs.execSpareCall
  · exact hs.execShardUpdate
  · exact hs.execRejoinExpiry
  · exact hs.execColumnRepair
  · exact hs.execFaultMessage
  · exact hs.execKnownAnswerTest
  · exact hs.execPatrolScrub
  · exact hs.execAutoRetire
  · exact hs.execErrRd
  · exact hs.execErrOvfValid
  · exact hs.execTimingPrep
  · exact hs.execDrain
  · exact hs.execPark
  · exact hs.execReady
  · exact hs.execKeepalive
  · exact hs.execCapW
  · exact hs.execPowerControlTick
  · exact hs.execVoltageSlewComplete
  · exact hs.execCapdropN
  · exact hs.execPfwN
  · exact hs.execUndervolt
  · exact hs.execOvervolt
  · exact hs.execOvervoltClear
  · exact hs.execSafeCap
  · exact hs.execThrottle
  · exact hs.execThermDrain
  · exact hs.execThermTrip
  · exact hs.execSensorFail
  · exact hs.execRegulatorFault
  · exact hs.execRefclkFail
  · exact hs.execA1Entry
  · exact hs.execA1Wake
  · exact hs.execAgeing
  · exact hs.execPowerApplied
  · exact hs.execSoftStartEnd
  · exact hs.execPowerLoss
  · exact hs.execStartupPhaseComplete
  · exact hs.execBootLimit
  · exact hs.execRecovery
  · exact hs.execRecoveryRetry
  · exact hs.execKey
  · exact hs.execModRstN
  · exact hs.execStageStart
  · exact hs.execStageFetchComplete
  · exact hs.execStageFetchTimeout
  · exact hs.execCommit
  · exact hs.execCommitComplete
  · exact hs.execStageAbort
  · exact hs.execLcRequest
  · exact hs.execLcConfirm
  · exact hs.execLcArmExpiry
  · exact hs.execTapInstruction
  · exact hs.execTapLifecycleTransition
  · exact hs.execPclStart
  · exact hs.execPclConfirm
  · exact hs.execPclArmExpiry
  · exact hs.execPclAbort
  · exact hs.execPclItemComplete
  · exact hs.execPclItemTimeout
  · exact hs.execPclLimitAbort
  · exact hs.execModRstNRelease
  · exact hs.execPfwNRelease
  · exact hs.execRefclkRestored
  · exact hs.execDieWake
  · exact hs.execPageTransferComplete
  · exact hs.execLaneFailure
  · exact hs.execHostPortLinkChange
  · exact hs.execJournalHoldRecord
  · exact hs.execRefusedBatchAck

end

/-! ## The tick and the step -/

/-- One MCLK period leads on from the state of the next period. -/
theorem State.tick_leads (s : State) : ({ s with now := s.now + 20 } : State).leadsTo s.tick :=
  .ite (.refl _) (State.leadsTo.failDone (.foldl (.refl _) fun _ _ ht => ht.countCycles.restCycles))

/-- A step starts from a state with the fuses and memories of the one before it, and leads on from there. -/
theorem step_leads {s t : State} (h : step s = .next t) :
    ∃ u : State, u.fuses = s.fuses ∧ u.arr = s.arr ∧ u.mas = s.mas ∧ u.leadsTo t := by
  unfold step at h
  split at h
  case h_1 =>
    obtain rfl : s.tick = t := by injection h
    exact ⟨{ s with now := s.now + 20 }, rfl, rfl, rfl, s.tick_leads⟩
  case h_2 c rest _ => exact ⟨{ s with pending := rest }, rfl, rfl, rfl, State.leadsTo.exec (.refl _) t h⟩

/-- R441, R443: a step only burns fuses. -/
theorem step_burns {s t : State} (h : step s = .next t) : s.fuses.burnsTo t.fuses := by
  obtain ⟨u, hf, _, _, hu⟩ := step_leads h
  exact hf ▸ hu.fuses

/-- Settles O1: this is how `step` is defined. -/
theorem stepRunsTheFrontCommand : Obligations.StepRunsTheFrontCommand := by
  intro s c rest hp
  simp only [step, hp]

/-- Settles O2: the tick adds its 20 ns, and nothing it runs touches the time or the queue. -/
theorem anEmptyQueueLetsTimePass : Obligations.AnEmptyQueueLetsTimePass := by
  intro s hp
  refine ⟨s.tick, by simp only [step, hp], s.tick_leads.now, s.tick_leads.pending.trans hp, fun hd => ?_⟩
  exact if_pos hd

/-- Settles O3: the identity is read from fuses, and burning leaves these as they are. -/
theorem identityOutlivesEveryStep : Obligations.IdentityOutlivesEveryStep := by
  intro v s t hv h
  have hb := step_burns h
  rw [← hv, State.identity, State.identity, hb.grade, hb.stepping, hb.serial]

/-- Settles O4: each burn sets bits or raises the floor, and burning composes. -/
theorem fusesOnlyBurn : Obligations.FusesOnlyBurn := by
  intro s t hr h
  have hb := step_burns h
  obtain ⟨hr', hpair, hseeds⟩ := hb.ranged hr
  exact ⟨hr', hb.words, hpair, hb.revoked, hb.roots, hseeds, hb.floor⟩

/-- Settles O5: the byte memories are changed by writes and erasures alone, which keep the canonical form. -/
theorem byteMemoriesStayCanonical : Obligations.ByteMemoriesStayCanonical := by
  intro s t ⟨hsram, hmem, hsys⟩ h
  obtain ⟨u, _, harr, hmas, hu⟩ := step_leads h
  exact ⟨hu.sram (harr ▸ hsram), hu.mem (hmas ▸ hmem), hu.sys (hmas ▸ hsys)⟩

/-- Settles O6: each part is a field or a register of the fixed reset state. -/
theorem resetMeetsTheInvariants : Obligations.ResetMeetsTheInvariants := by
  refine ⟨⟨rfl, rfl, rfl⟩, ⟨by decide, by decide⟩, rfl, rfl, rfl, rfl, rfl, ?_, ?_⟩
  · decide
  · decide

end Sys2Proof.Machine
end

section
/-!
PROOF. What an operation can change at most: the parts of the state that it may write are listed, and every other part stands.
-/
namespace Sys2Proof.Machine

set_option Elab.async false

/-- The parts of the state that operations write. -/
inductive Part where
  | out | fresh | regs | latches | fuses | arr | strm | mas | err | host | link | wts | stew | jr | boot
  deriving DecidableEq

/-- Two states hold the same in a part. -/
def State.agrees (s t : State) : Part → Prop
  | .out => t.out = s.out
  | .fresh => t.fresh = s.fresh
  | .regs => t.regs = s.regs
  | .latches => t.latches = s.latches
  | .fuses => t.fuses = s.fuses
  | .arr => t.arr = s.arr
  | .strm => t.strm = s.strm
  | .mas => t.mas = s.mas
  | .err => t.err = s.err
  | .host => t.host = s.host
  | .link => t.link = s.link
  | .wts => t.wts = s.wts
  | .stew => t.stew = s.stew
  | .jr => t.jr = s.jr
  | .boot => t.boot = s.boot

/-- From `s` to `t` at most the parts `may` have changed. -/
structure State.only (s : State) (may : List Part) (t : State) : Prop where
  now : t.now = s.now
  pending : t.pending = s.pending
  agrees : ∀ p, p ∉ may → s.agrees t p

section
variable {s₀ s t u : State} {may qs : List Part}

theorem State.agrees.refl (s : State) (p : Part) : s.agrees s p := by cases p <;> rfl
theorem State.agrees.trans {p : Part} (h : s.agrees t p) (k : t.agrees u p) : s.agrees u p := by
  cases p <;> exact Eq.trans k h
theorem State.only.refl : s.only may s := ⟨rfl, rfl, fun p _ => .refl s p⟩
theorem State.only.trans (h : s.only may t) (k : t.only may u) : s.only may u :=
  ⟨k.now.trans h.now, k.pending.trans h.pending, fun p hp => (h.agrees p hp).trans (k.agrees p hp)⟩
theorem State.only.mono (h : s.only may t) (hps : may ⊆ qs) : s.only qs t := ⟨h.now, h.pending, fun p hp => h.agrees p fun hq => hp (hps hq)⟩

section
variable (h : s.only may t)
include h
theorem State.only.out (hp : .out ∉ may := by decide) : t.out = s.out := h.agrees _ hp
theorem State.only.fresh (hp : .fresh ∉ may := by decide) : t.fresh = s.fresh := h.agrees _ hp
theorem State.only.regs (hp : .regs ∉ may := by decide) : t.regs = s.regs := h.agrees _ hp
theorem State.only.latches (hp : .latches ∉ may := by decide) : t.latches = s.latches := h.agrees _ hp
theorem State.only.fuses (hp : .fuses ∉ may := by decide) : t.fuses = s.fuses := h.agrees _ hp
theorem State.only.arr (hp : .arr ∉ may := by decide) : t.arr = s.arr := h.agrees _ hp
theorem State.only.strm (hp : .strm ∉ may := by decide) : t.strm = s.strm := h.agrees _ hp
theorem State.only.mas (hp : .mas ∉ may := by decide) : t.mas = s.mas := h.agrees _ hp
theorem State.only.err (hp : .err ∉ may := by decide) : t.err = s.err := h.agrees _ hp
theorem State.only.host (hp : .host ∉ may := by decide) : t.host = s.host := h.agrees _ hp
theorem State.only.link (hp : .link ∉ may := by decide) : t.link = s.link := h.agrees _ hp
theorem State.only.wts (hp : .wts ∉ may := by decide) : t.wts = s.wts := h.agrees _ hp
theorem State.only.stew (hp : .stew ∉ may := by decide) : t.stew = s.stew := h.agrees _ hp
theorem State.only.jr (hp : .jr ∉ may := by decide) : t.jr = s.jr := h.agrees _ hp
theorem State.only.boot (hp : .boot ∉ may := by decide) : t.boot = s.boot := h.agrees _ hp
end

/-- The same of an operation that answers a state with something else, or may answer none. -/
def State.onlyFst {α : Type} (s : State) (may : List Part) (p : State × α) : Prop := s.only may p.1
def State.onlySnd {α : Type} (s : State) (may : List Part) (p : α × State) : Prop := s.only may p.2
def State.onlySome (s : State) (may : List Part) (o : Option State) : Prop := ∀ t, o = some t → s.only may t
def State.onlySomeFst {α : Type} (s : State) (may : List Part) (o : Option (State × α)) : Prop := ∀ t x, o = some (t, x) → s.only may t
def State.onlySomeSnd {α : Type} (s : State) (may : List Part) (o : Option (α × State)) : Prop := ∀ x t, o = some (x, t) → s.only may t

def State.onlyPage (s : State) (may : List Part) : PageDo → Prop
  | .done t => s.only may t
  | .pending t => s.only may t
  | _ => True
def State.onlyRead (s : State) (may : List Part) : EndRead → Prop
  | .bytes _ t => s.only may t
  | .wait t => s.only may t
  | .fault => True

/-! An operation known to change `qs` at most, run where `may` may change. -/

theorem State.only.step (qs : List Part) (hs : s₀.only may s) (h : ∀ {s₀ : State}, s₀.only qs s → s₀.only qs t) (hq : qs ⊆ may) : s₀.only may t :=
  hs.trans ((h (s₀ := s) .refl).mono hq)
section
variable {α : Type}
theorem State.only.stepFst {p : State × α} (qs : List Part) (hs : s₀.only may s) (h : ∀ {s₀ : State}, s₀.only qs s → s₀.onlyFst qs p)
    (hq : qs ⊆ may) : s₀.onlyFst may p := hs.trans (State.only.mono (h (s₀ := s) .refl) hq)
theorem State.only.stepSnd {p : α × State} (qs : List Part) (hs : s₀.only may s) (h : ∀ {s₀ : State}, s₀.only qs s → s₀.onlySnd qs p)
    (hq : qs ⊆ may) : s₀.onlySnd may p := hs.trans (State.only.mono (h (s₀ := s) .refl) hq)
theorem State.only.stepSome {o : Option State} (qs : List Part) (hs : s₀.only may s) (h : ∀ {s₀ : State}, s₀.only qs s → s₀.onlySome qs o)
    (hq : qs ⊆ may) : s₀.onlySome may o := fun t e => hs.trans ((h (s₀ := s) .refl t e).mono hq)
theorem State.only.stepSomeFst {o : Option (State × α)} (qs : List Part) (hs : s₀.only may s)
    (h : ∀ {s₀ : State}, s₀.only qs s → s₀.onlySomeFst qs o) (hq : qs ⊆ may) : s₀.onlySomeFst may o :=
  fun t x e => hs.trans ((h (s₀ := s) .refl t x e).mono hq)
theorem State.only.stepSomeSnd {o : Option (α × State)} (qs : List Part) (hs : s₀.only may s)
    (h : ∀ {s₀ : State}, s₀.only qs s → s₀.onlySomeSnd qs o) (hq : qs ⊆ may) : s₀.onlySomeSnd may o :=
  fun x t e => hs.trans ((h (s₀ := s) .refl x t e).mono hq)
end

/-! An update of parts. -/

theorem State.only.same {out : List Out} {fresh : Nat} {regs : SMap Word} {latches : List (Path × Nat × Word)} {fuses : Fuses} {arr : Arr}
    {strm : Strm} {mas : Mas} {err : Err} {host : HostSt} {link : LinkSt} {wts : Wts} {stew : Stew} {jr : Jr} {boot : Boot}
    (hs : s₀.only may s)
    (hout : Part.out ∈ may ∨ out = s.out := by first | exact .inl (by decide) | exact .inr rfl)
    (hfresh : Part.fresh ∈ may ∨ fresh = s.fresh := by first | exact .inl (by decide) | exact .inr rfl)
    (hregs : Part.regs ∈ may ∨ regs = s.regs := by first | exact .inl (by decide) | exact .inr rfl)
    (hlatches : Part.latches ∈ may ∨ latches = s.latches := by first | exact .inl (by decide) | exact .inr rfl)
    (hfuses : Part.fuses ∈ may ∨ fuses = s.fuses := by first | exact .inl (by decide) | exact .inr rfl)
    (harr : Part.arr ∈ may ∨ arr = s.arr := by first | exact .inl (by decide) | exact .inr rfl)
    (hstrm : Part.strm ∈ may ∨ strm = s.strm := by first | exact .inl (by decide) | exact .inr rfl)
    (hmas : Part.mas ∈ may ∨ mas = s.mas := by first | exact .inl (by decide) | exact .inr rfl)
    (herr : Part.err ∈ may ∨ err = s.err := by first | exact .inl (by decide) | exact .inr rfl)
    (hhost : Part.host ∈ may ∨ host = s.host := by first | exact .inl (by decide) | exact .inr rfl)
    (hlink : Part.link ∈ may ∨ link = s.link := by first | exact .inl (by decide) | exact .inr rfl)
    (hwts : Part.wts ∈ may ∨ wts = s.wts := by first | exact .inl (by decide) | exact .inr rfl)
    (hstew : Part.stew ∈ may ∨ stew = s.stew := by first | exact .inl (by decide) | exact .inr rfl)
    (hjr : Part.jr ∈ may ∨ jr = s.jr := by first | exact .inl (by decide) | exact .inr rfl)
    (hboot : Part.boot ∈ may ∨ boot = s.boot := by first | exact .inl (by decide) | exact .inr rfl) :
    s₀.only may { s with
      out := out, fresh := fresh, regs := regs, latches := latches, fuses := fuses, arr := arr, strm := strm, mas := mas, err := err
      host := host, link := link, wts := wts, stew := stew, jr := jr, boot := boot } := by
  refine hs.trans ⟨rfl, rfl, fun p hp => ?_⟩
  cases p with
  | out => exact hout.resolve_left hp
  | fresh => exact hfresh.resolve_left hp
  | regs => exact hregs.resolve_left hp
  | latches => exact hlatches.resolve_left hp
  | fuses => exact hfuses.resolve_left hp
  | arr => exact harr.resolve_left hp
  | strm => exact hstrm.resolve_left hp
  | mas => exact hmas.resolve_left hp
  | err => exact herr.resolve_left hp
  | host => exact hhost.resolve_left hp
  | link => exact hlink.resolve_left hp
  | wts => exact hwts.resolve_left hp
  | stew => exact hstew.resolve_left hp
  | jr => exact hjr.resolve_left hp
  | boot => exact hboot.resolve_left hp

/-! The forms in which operations are written: a choice, a fold, an option. -/

theorem State.only.foldl {β : Type} {l : List β} {f : State → β → State} (h : s₀.only may s)
    (hf : ∀ t b, s₀.only may t → s₀.only may (f t b)) : s₀.only may (l.foldl f s) := by
  induction l generalizing s with
  | nil => exact h
  | cons b l ih => exact ih (hf s b h)

section
variable {α : Type} {x : α} {c : Prop} [Decidable c]
theorem State.only.ite (hs : s₀.only may s) (ht : s₀.only may t) : s₀.only may (if c then s else t) := of_ite hs ht
theorem State.onlyFst.ite {p q : State × α} (hp : s₀.onlyFst may p) (hq : s₀.onlyFst may q) : s₀.onlyFst may (if c then p else q) := of_ite hp hq
theorem State.onlySnd.ite {p q : α × State} (hp : s₀.onlySnd may p) (hq : s₀.onlySnd may q) : s₀.onlySnd may (if c then p else q) := of_ite hp hq
theorem State.onlySome.ite {o o' : Option State} (h : s₀.onlySome may o) (h' : s₀.onlySome may o') :
    s₀.onlySome may (if c then o else o') := of_ite h h'
theorem State.onlySomeFst.ite {o o' : Option (State × α)} (h : s₀.onlySomeFst may o) (h' : s₀.onlySomeFst may o') :
    s₀.onlySomeFst may (if c then o else o') := of_ite h h'
theorem State.onlySomeSnd.ite {o o' : Option (α × State)} (h : s₀.onlySomeSnd may o) (h' : s₀.onlySomeSnd may o') :
    s₀.onlySomeSnd may (if c then o else o') := of_ite h h'
theorem State.onlyFst.of_eq {p : State × α} (h : s₀.onlyFst may p) (e : p = (t, x)) : s₀.only may t := by subst e; exact h
theorem State.onlySnd.of_eq {p : α × State} (h : s₀.onlySnd may p) (e : p = (x, t)) : s₀.only may t := by subst e; exact h
theorem State.only.someFst (h : s₀.only may t) : s₀.onlySomeFst may (some (t, x)) := by
  rintro _ _ ⟨⟩
  exact h
theorem State.only.someSnd (h : s₀.only may t) : s₀.onlySomeSnd may (some (x, t)) := by
  rintro _ _ ⟨⟩
  exact h
theorem State.onlySomeFst.none : s₀.onlySomeFst may (none : Option (State × α)) := fun _ _ e => nomatch e
theorem State.onlySomeSnd.none : s₀.onlySomeSnd may (none : Option (α × State)) := fun _ _ e => nomatch e
end

theorem State.only.some (h : s₀.only may t) : s₀.onlySome may (some t) := by
  rintro _ ⟨⟩
  exact h
theorem State.onlySome.none : s₀.onlySome may none := fun _ e => nomatch e
theorem State.onlySome.getD {o : Option State} (h : s₀.onlySome may o) (ht : s₀.only may t) : s₀.only may (o.getD t) := by
  cases o with
  | none => exact ht
  | some t' => exact h t' rfl
theorem State.onlySome.map {o : Option State} {f : State → State} (h : s₀.onlySome may o) (hf : ∀ t, s₀.only may t → s₀.only may (f t)) :
    s₀.onlySome may (o.map f) := by
  cases o with
  | none => exact .none
  | some t => exact (hf t (h t rfl)).some
theorem State.only.stepPage {r : PageDo} (qs : List Part) (hs : s₀.only may s) (h : ∀ {s₀ : State}, s₀.only qs s → s₀.onlyPage qs r)
    (hq : qs ⊆ may) : s₀.onlyPage may r := by
  have hr := h (s₀ := s) .refl
  cases r with
  | done t => exact hs.trans (State.only.mono hr hq)
  | pending t => exact hs.trans (State.only.mono hr hq)
  | _ => trivial
theorem State.only.stepRead {r : EndRead} (qs : List Part) (hs : s₀.only may s) (h : ∀ {s₀ : State}, s₀.only qs s → s₀.onlyRead qs r)
    (hq : qs ⊆ may) : s₀.onlyRead may r := by
  have hr := h (s₀ := s) .refl
  cases r with
  | bytes b t => exact hs.trans (State.only.mono hr hq)
  | wait t => exact hs.trans (State.only.mono hr hq)
  | fault => trivial
theorem State.onlyPage.ite {c : Prop} [Decidable c] {r r' : PageDo} (h : s₀.onlyPage may r) (h' : s₀.onlyPage may r') :
    s₀.onlyPage may (if c then r else r') := of_ite h h'
theorem State.onlyRead.ite {c : Prop} [Decidable c] {r r' : EndRead} (h : s₀.onlyRead may r) (h' : s₀.onlyRead may r') :
    s₀.onlyRead may (if c then r else r') := of_ite h h'
theorem State.only.donePage (h : s₀.only may t) : s₀.onlyPage may (.done t) := h
theorem State.only.pendingPage (h : s₀.only may t) : s₀.onlyPage may (.pending t) := h
theorem State.onlyPage.blocked : s₀.onlyPage may .blocked := trivial
theorem State.onlyPage.fail {st : Nat} : s₀.onlyPage may (.fail st) := trivial
theorem State.only.readBytes {bs : List Byte} (h : s₀.only may t) : s₀.onlyRead may (.bytes bs t) := h
theorem State.only.readWait (h : s₀.only may t) : s₀.onlyRead may (.wait t) := h
theorem State.onlyRead.fault : s₀.onlyRead may .fault := trivial
theorem State.onlyRead.of_wait {r : EndRead} (h : s₀.onlyRead may r) (e : r = .wait t) : s₀.only may t := by subst e; exact h
theorem State.onlyRead.of_bytes {r : EndRead} {bs : List Byte} (h : s₀.onlyRead may r) (e : r = .bytes bs t) : s₀.only may t := by
  subst e; exact h
theorem State.onlyPage.of_done {r : PageDo} (h : s₀.onlyPage may r) (e : r = .done t) : s₀.only may t := by subst e; exact h
theorem State.onlyPage.of_pending {r : PageDo} (h : s₀.onlyPage may r) (e : r = .pending t) : s₀.only may t := by subst e; exact h

/-! What each operation of the model may change. -/

theorem State.only.setSpan {r : Reg} {i : Nat} {w : Win} {k v n : Nat} (hs : s₀.only may s) (hps : [.regs] ⊆ may := by decide) :
    s₀.only may (s.setSpan r i w k v n) := by
  refine hs.step [.regs] (fun {s₀} hs => ?_) hps
  rw [State.setSpan_regs_only]
  exact hs.same

theorem State.only.wr {f : Fld} {v i : Nat} {w : Win} (hs : s₀.only may s) (hps : [.regs] ⊆ may := by decide) :
    s₀.only may (s.wr f v i w) :=
  hs.step [.regs] (fun hs => hs.setSpan) hps

theorem State.only.wrFlag {f : Fld} {b : Bool} {i : Nat} {w : Win} (hs : s₀.only may s) (hps : [.regs] ⊆ may := by decide) :
    s₀.only may (s.wrFlag f b i w) :=
  hs.step [.regs] (fun hs => hs.wr) hps

theorem State.only.bump {f : Fld} {n i : Nat} {w : Win} (hs : s₀.only may s) (hps : [.regs] ⊆ may := by decide) :
    s₀.only may (s.bump f n i w) :=
  hs.step [.regs] (fun hs => hs.wr) hps

theorem State.only.orBits {f : Fld} {v i : Nat} {w : Win} (hs : s₀.only may s) (hps : [.regs] ⊆ may := by decide) :
    s₀.only may (s.orBits f v i w) :=
  hs.step [.regs] (fun hs => hs.wr) hps

theorem State.only.emit {o : Out} (hs : s₀.only may s) (hps : [.out] ⊆ may := by decide) :
    s₀.only may (s.emit o) :=
  hs.step [.out] (fun hs => hs.same) hps

theorem State.only.useFree (hs : s₀.only may s) (hps : [.fresh] ⊆ may := by decide) :
    s₀.onlySnd may (s.useFree) :=
  hs.stepSnd [.fresh] (fun hs => hs.same) hps

theorem State.only.setSlotState {die c : Nat} {st : SlotSt} (hs : s₀.only may s) (hps : [.regs] ⊆ may := by decide) :
    s₀.only may (s.setSlotState die c st) :=
  hs.step [.regs] (fun hs => hs.wr) hps

theorem State.only.restEnds {d : Nat} (hs : s₀.only may s) (hps : [.arr] ⊆ may := by decide) :
    s₀.only may (s.restEnds d) :=
  hs.step [.arr] (fun hs => hs.same) hps

theorem State.only.setDieP {d v : Nat} (hs : s₀.only may s) (hps : [.regs, .arr] ⊆ may := by decide) :
    s₀.only may (s.setDieP d v) :=
  hs.step [.regs, .arr] (fun hs => hs.restEnds.wr) hps

theorem State.only.stir {d : Nat} (hs : s₀.only may s) (hps : [.regs, .arr] ⊆ may := by decide) :
    s₀.only may (s.stir d) :=
  hs.step [.regs, .arr] (fun hs => .ite hs.setDieP hs.restEnds) hps

theorem State.only.setSession {i : Nat} {v : Session} (hs : s₀.only may s) (hps : [.host] ⊆ may := by decide) :
    s₀.only may (s.setSession i v) :=
  hs.step [.host] (fun hs => hs.same) hps

theorem State.only.setQp {q : Nat} {v : Qp} (hs : s₀.only may s) (hps : [.host] ⊆ may := by decide) :
    s₀.only may (s.setQp q v) :=
  hs.step [.host] (fun hs => hs.same) hps

theorem State.only.flushEvents {i : Nat} (hs : s₀.only may s) (hps : [.out, .host] ⊆ may := by decide) :
    s₀.only may (s.flushEvents i) := by
  refine hs.step [.out, .host] (fun {s₀} hs => ?_) hps
  unfold State.flushEvents
  split
  · exact hs
  · next v _ =>
    refine .ite (State.only.setSession ?_) hs
    suffices sends : ∀ (es : List Ev) (g : State × Nat × Nat), s₀.only [.out, .host] g.1 → s₀.only [.out, .host] (es.foldl _ g).1 from sends _ (s, _, _) hs
    intro es
    induction es with
    | nil => exact fun g hg => hg
    | cons e es ih => exact fun g hg => ih _ hg.emit

theorem State.only.sendEventOn {i cls count : Nat} {qp : Option Nat} {body : List Byte} (hs : s₀.only may s) (hps : [.out, .host] ⊆ may := by decide) :
    s₀.only may (s.sendEventOn i cls count qp body) := by
  refine hs.step [.out, .host] (fun {s₀} hs => ?_) hps
  delta State.sendEventOn
  split
  · exact hs
  · exact .ite hs (.ite hs (.ite hs (.ite hs.setSession hs.setSession.flushEvents)))

theorem State.only.sendEvent {i cls count : Nat} {body : List Byte} (hs : s₀.only may s) (hps : [.out, .host] ⊆ may := by decide) :
    s₀.only may (s.sendEvent i cls count body) :=
  hs.step [.out, .host] (fun hs => hs.sendEventOn) hps

theorem State.only.broadcast {cls count : Nat} {body : List Byte} (hs : s₀.only may s) (hps : [.out, .host] ⊆ may := by decide) :
    s₀.only may (s.broadcast cls count body) :=
  hs.step [.out, .host] (fun hs => hs.foldl (fun s e hs => hs.sendEvent)) hps

theorem State.only.setErr {k : Nat} {v : ErrRec} (hs : s₀.only may s) (hps : [.err] ⊆ may := by decide) :
    s₀.only may (s.setErr k v) :=
  hs.step [.err] (fun hs => hs.same) hps

theorem State.only.errStatus {r : Nat} (hs : s₀.only may s) (hps : [.regs] ⊆ may := by decide) :
    s₀.only may (s.errStatus r) := by
  refine hs.step [.regs] (fun {s₀} hs => ?_) hps
  delta State.errStatus
  extract_lets used
  exact hs.wr.wrFlag.wr

theorem State.only.announce {cls key : Nat} (hs : s₀.only may s) (hps : [.out, .err, .host] ⊆ may := by decide) :
    s₀.only may (s.announce cls key) := by
  refine hs.step [.out, .err, .host] (fun {s₀} hs => ?_) hps
  delta State.announce
  refine hs.foldl (fun s e hs => ?_)
  extract_lets k s1 src src'
  have hs1 : s₀.only [.out, .err, .host] s1 := by
    unfold s1
    split
    · exact hs.sendEvent
    · exact hs
  split
  · exact hs1.same
  · exact .ite hs hs.same

theorem State.only.placeErr {d : ErrRec} (hs : s₀.only may s) (hps : [.out, .fresh, .regs, .err, .host] ⊆ may := by decide) :
    s₀.only may (s.placeErr d) := by
  refine hs.step [.out, .fresh, .regs, .err, .host] (fun {s₀} hs => ?_) hps
  delta State.placeErr
  extract_lets r wr d' k v f v' k'
  have hf : s₀.onlySnd [.out, .fresh, .regs, .err, .host] f := hs.useFree
  refine .ite hs.setErr.wr.wr.errStatus.announce ?_
  split
  · split
    · extract_lets v''
      exact hs.setErr.wr.announce
    · exact hs
  · exact hf.setErr.orBits.wr.errStatus.announce

theorem State.only.detect {d : ErrRec} (hs : s₀.only may s) (hps : [.out, .fresh, .regs, .err, .host] ⊆ may := by decide) :
    s₀.only may (s.detect d) := by
  refine hs.step [.out, .fresh, .regs, .err, .host] (fun {s₀} hs => ?_) hps
  delta State.detect
  extract_lets again d' s1 src s2
  have hs1 : s₀.only [.out, .fresh, .regs, .err, .host] s1 := hs.bump
  have hs2 : s₀.only [.out, .fresh, .regs, .err, .host] s2 := hs1.same
  exact hs2.placeErr

theorem State.only.powerEvent {kind unit v0 v1 : Nat} (hs : s₀.only may s) (hps : [.out, .host] ⊆ may := by decide) :
    s₀.only may (s.powerEvent kind unit v0 v1) := by
  refine hs.step [.out, .host] (fun {s₀} hs => ?_) hps
  delta State.powerEvent
  extract_lets rec'
  refine hs.foldl (fun s e hs => ?_)
  extract_lets k s1 src src'
  have hs1 : s₀.only [.out, .host] s1 := hs.sendEvent
  split
  · exact hs1.same
  · exact hs.same

theorem State.only.moduleTo {v : Nat} (hs : s₀.only may s) (hps : [.out, .regs, .host] ⊆ may := by decide) :
    s₀.only may (s.moduleTo v) :=
  hs.step [.out, .regs, .host] (fun hs => .ite hs hs.wr.powerEvent) hps

theorem State.only.setPte {pn : Nat} {p : Pte} (hs : s₀.only may s) (hps : [.mas] ⊆ may := by decide) :
    s₀.only may (s.setPte pn p) :=
  hs.step [.mas] (fun hs => hs.same) hps

theorem State.only.newPte {pn : Nat} {p : Pte} (hs : s₀.only may s) (hps : [.mas] ⊆ may := by decide) :
    s₀.only may (s.newPte pn p) := by
  refine hs.step [.mas] (fun {s₀} hs => ?_) hps
  delta State.newPte
  extract_lets src s1
  have hs1 : s₀.only [.mas] s1 := .ite hs hs.same
  exact hs1.setPte

theorem State.only.dropPte {pn : Nat} (hs : s₀.only may s) (hps : [.mas] ⊆ may := by decide) :
    s₀.only may (s.dropPte pn) := by
  refine hs.step [.mas] (fun {s₀} hs => ?_) hps
  delta State.dropPte
  extract_lets pages src
  exact hs.same

theorem State.only.masZero {a n : Nat} (hs : s₀.only may s) (hps : [.mas] ⊆ may := by decide) :
    s₀.only may (s.masZero a n) :=
  hs.step [.mas] (fun hs => hs.same) hps

theorem State.only.shootdown {pn : Nat} (hs : s₀.only may s) (hps : [.arr] ⊆ may := by decide) :
    s₀.only may (s.shootdown pn) := by
  refine hs.step [.arr] (fun {s₀} hs => ?_) hps
  delta State.shootdown
  extract_lets trans wc src
  exact hs.same

theorem State.only.touch {pn : Nat} (hs : s₀.only may s) (hps : [.mas] ⊆ may := by decide) :
    s₀.only may (s.touch pn) := by
  refine hs.step [.mas] (fun {s₀} hs => ?_) hps
  delta State.touch
  split
  · exact hs
  · exact hs.setPte

theorem State.only.engineTake {e : Nat} (hs : s₀.only may s) (hps : [.mas] ⊆ may := by decide) :
    s₀.only may (s.engineTake e) := by
  refine hs.step [.mas] (fun {s₀} hs => ?_) hps
  delta State.engineTake
  extract_lets goesOn src
  exact hs.same

theorem State.only.startWork (hs : s₀.only may s) (hps : [.mas] ⊆ may := by decide) :
    s₀.only may (s.startWork) :=
  hs.step [.mas] (fun hs => hs.engineTake.engineTake) hps

theorem State.only.addJob {j : MigJob} (hs : s₀.only may s) (hps : [.mas] ⊆ may := by decide) :
    s₀.only may (s.addJob j) :=
  hs.step [.mas] (fun hs => hs.same.startWork) hps

theorem State.only.dropJob {pn : Nat} (hs : s₀.only may s) (hps : [.mas] ⊆ may := by decide) :
    s₀.only may (s.dropJob pn) :=
  hs.step [.mas] (fun hs => hs.same.startWork) hps

theorem State.only.setJob {v : MigJob} (hs : s₀.only may s) (hps : [.mas] ⊆ may := by decide) :
    s₀.only may (s.setJob v) :=
  hs.step [.mas] (fun hs => hs.same.startWork) hps

theorem State.only.setMoving {pn : Nat} {b : Bool} (hs : s₀.only may s) (hps : [.mas] ⊆ may := by decide) :
    s₀.only may (s.setMoving pn b) := by
  refine hs.step [.mas] (fun {s₀} hs => ?_) hps
  delta State.setMoving
  split
  · exact hs
  · exact hs.setPte

theorem State.only.dropNear {pn : Nat} (hs : s₀.only may s) (hps : [.arr, .mas] ⊆ may := by decide) :
    s₀.only may (s.dropNear pn) := by
  refine hs.step [.arr, .mas] (fun {s₀} hs => ?_) hps
  delta State.dropNear
  split
  · exact hs
  · exact hs.shootdown.setPte

theorem State.only.reclaim {p : Pte} (hs : s₀.only may s) (hps : [.arr, .mas] ⊆ may := by decide) :
    s₀.only may (s.reclaim p) := by
  refine hs.step [.arr, .mas] (fun {s₀} hs => ?_) hps
  delta State.reclaim
  refine .ite ?_ hs
  split
  · exact hs.dropNear
  · exact hs

theorem State.only.placeJob {j : MigJob} (hs : s₀.only may s) (hps : [.arr, .mas] ⊆ may := by decide) :
    s₀.onlyFst may (s.placeJob j) := by
  refine hs.stepFst [.arr, .mas] (fun {s₀} hs => ?_) hps
  delta State.placeJob
  split
  · exact hs
  · extract_lets s1
    have hs1 : s₀.only [.arr, .mas] s1 := hs.reclaim
    refine .ite hs1 ?_
    split
    · exact hs1
    · exact hs1

theorem State.only.requestPromotion {pn die cls : Nat} (hs : s₀.only may s) (hps : [.arr, .mas] ⊆ may := by decide) :
    s₀.only may (s.requestPromotion pn die cls) := by
  refine hs.step [.arr, .mas] (fun {s₀} hs => ?_) hps
  delta State.requestPromotion
  split
  · exact hs
  · extract_lets r
    have hr : s₀.onlyFst [.arr, .mas] r := hs.placeJob
    refine .ite hs ?_
    split
    · exact .ite hs hs.setJob
    · exact hr.addJob.setMoving

theorem State.only.requestRange {a n die cls : Nat} (hs : s₀.only may s) (hps : [.arr, .mas] ⊆ may := by decide) :
    s₀.only may (s.requestRange a n die cls) :=
  hs.step [.arr, .mas] (fun hs => hs.foldl (fun s pn hs => hs.requestPromotion)) hps

theorem State.only.setQueue {die qid c : Nat} {q : Queue} (hs : s₀.only may s) (hps : [.arr] ⊆ may := by decide) :
    s₀.only may (s.setQueue die qid c q) :=
  hs.step [.arr] (fun hs => hs.same) hps

theorem State.only.pushTok {die qid c : Nat} {t : Tok} (hs : s₀.only may s) (hps : [.regs, .arr] ⊆ may := by decide) :
    s₀.only may (s.pushTok die qid c t) := by
  refine hs.step [.regs, .arr] (fun {s₀} hs => ?_) hps
  delta State.pushTok
  extract_lets q s'
  have hs' : s₀.only [.regs, .arr] s' := hs.setQueue
  exact .ite hs'.bump hs'

theorem State.only.popTok {die qid c : Nat} (hs : s₀.only may s) (hps : [.arr] ⊆ may := by decide) :
    s₀.only may (s.popTok die qid c) :=
  hs.step [.arr] (fun hs => hs.setQueue) hps

theorem State.only.fired {die c : Nat} (hs : s₀.only may s) (hps : [.regs, .arr] ⊆ may := by decide) :
    s₀.only may (s.fired die c) := by
  refine hs.step [.regs, .arr] (fun {s₀} hs => ?_) hps
  delta State.fired
  extract_lets s' src
  have hs' : s₀.only [.regs, .arr] s' := hs.wr
  exact hs'.same

theorem State.only.setTile {die y x c : Nat} {t : TileCtx} (hs : s₀.only may s) (hps : [.arr] ⊆ may := by decide) :
    s₀.only may (s.setTile die y x c t) :=
  hs.step [.arr] (fun hs => hs.same) hps

theorem State.only.setActiveParams {die y x c : Nat} {ps : List Word} (hs : s₀.only may s) (hps : [.regs] ⊆ may := by decide) :
    s₀.only may (s.setActiveParams die y x c ps) :=
  hs.step [.regs] (fun hs => hs.foldl (fun s k hs => hs.wr)) hps

theorem State.only.stopSlot {die c : Nat} (hs : s₀.only may s) (hps : [.regs] ⊆ may := by decide) :
    s₀.only may (s.stopSlot die c) := by
  refine hs.step [.regs] (fun {s₀} hs => ?_) hps
  delta State.stopSlot
  extract_lets s'
  have hs' : s₀.only [.regs] s' := hs.setSlotState
  exact .ite hs'.wr hs'

theorem State.only.consume {die y x c spec : Nat} (hs : s₀.only may s) (hps : [.arr] ⊆ may := by decide) :
    s₀.only may (s.consume die y x c spec) := by
  refine hs.step [.arr] (fun {s₀} hs => ?_) hps
  delta State.consume
  extract_lets t
  refine .ite ?_ (.ite ?_ (.ite hs.setTile hs))
  · split
    · exact hs.popTok
    · exact hs
  · split
    · exact hs.popTok
    · exact hs

theorem State.only.consumeAll {die y x c : Nat} {specs : List Nat} (hs : s₀.only may s) (hps : [.arr] ⊆ may := by decide) :
    s₀.only may (s.consumeAll die y x c specs) :=
  hs.step [.arr] (fun hs => hs.foldl (fun s sp hs => hs.consume)) hps

theorem State.only.writeDst {die y x c spec w : Nat} {v : Tok} (hs : s₀.only may s) (hps : [.regs, .arr] ⊆ may := by decide) :
    s₀.only may (s.writeDst die y x c spec w v) := by
  refine hs.step [.regs, .arr] (fun {s₀} hs => ?_) hps
  delta State.writeDst
  extract_lets t
  exact .ite hs.setTile (.ite hs.pushTok (.ite hs.pushTok (.ite hs.setTile hs)))

theorem State.only.tileFlags {die y x c : Nat} {g : Num.Flags} (hs : s₀.only may s) (hps : [.regs] ⊆ may := by decide) :
    s₀.only may (s.tileFlags die y x c g) := by
  refine hs.step [.regs] (fun {s₀} hs => ?_) hps
  delta State.tileFlags
  extract_lets a all
  exact .ite hs hs.wr

theorem State.only.postStatus {die : Nat} (hs : s₀.only may s) (hps : [.regs] ⊆ may := by decide) :
    s₀.only may (s.postStatus die) := by
  refine hs.step [.regs] (fun {s₀} hs => ?_) hps
  delta State.postStatus
  split
  · exact hs.wr
  · exact hs.wr.wr

theorem State.only.selBusy {die c : Nat} {b : Bool} (hs : s₀.only may s) (hps : [.regs] ⊆ may := by decide) :
    s₀.only may (s.selBusy die c b) :=
  hs.step [.regs] (fun hs => hs.wr) hps

theorem State.only.dropInv {die c : Nat} (hs : s₀.only may s) (hps : [.regs, .arr] ⊆ may := by decide) :
    s₀.only may (s.dropInv die c) := by
  refine hs.step [.regs, .arr] (fun {s₀} hs => ?_) hps
  delta State.dropInv
  extract_lets src arr
  exact hs.same.selBusy.postStatus

theorem State.only.translate {die k pn : Nat} (hs : s₀.only may s) (hps : [.fresh, .regs, .arr, .mas] ⊆ may := by decide) :
    s₀.only may (s.translate die k pn) := by
  refine hs.step [.fresh, .regs, .arr, .mas] (fun {s₀} hs => ?_) hps
  delta State.translate
  extract_lets s1 l f r src src'
  have hs1 : s₀.only [.fresh, .regs, .arr, .mas] s1 := hs.bump.touch
  have hf : s₀.onlySnd [.fresh, .regs, .arr, .mas] f := hs1.useFree
  have hr : s₀.onlySnd [.fresh, .regs, .arr, .mas] r := .ite hs1 hf
  have hsrc : s₀.only [.fresh, .regs, .arr, .mas] src := hr
  exact .ite hs (.ite hs1 hsrc.same)

theorem State.only.agentPath {die k a n : Nat} (hs : s₀.only may s) (hps : [.out, .fresh, .regs, .arr, .mas] ⊆ may := by decide) :
    s₀.only may (s.agentPath die k a n) := by
  refine hs.step [.out, .fresh, .regs, .arr, .mas] (fun {s₀} hs => ?_) hps
  delta State.agentPath
  refine hs.foldl (fun s pn hs => ?_)
  extract_lets s1 gs s2
  have hs1 : s₀.only [.out, .fresh, .regs, .arr, .mas] s1 := hs.translate
  have hs2 : s₀.only [.out, .fresh, .regs, .arr, .mas] s2 := by
    unfold s2
    split
    · exact .ite hs1 hs1.emit
    · exact hs1
  refine hs2.foldl (fun s g hs => ?_)
  split
  · exact hs.translate
  · exact hs

theorem State.only.dataPath {die a n : Nat} (hs : s₀.only may s) (hps : [.out, .fresh, .regs, .arr, .mas] ⊆ may := by decide) :
    s₀.only may (s.dataPath die a n) :=
  hs.step [.out, .fresh, .regs, .arr, .mas] (fun hs => hs.agentPath) hps

theorem State.only.setWc {k : Nat} {l : List WcLine} (hs : s₀.only may s) (hps : [.arr] ⊆ may := by decide) :
    s₀.only may (s.setWc k l) :=
  hs.step [.arr] (fun hs => hs.same) hps

theorem State.only.wcAllocate {die strip line pins : Nat} {who : List (Asker × Nat × Nat)} (hs : s₀.only may s) (hps : [.out, .fresh, .regs, .arr, .mas] ⊆ may := by decide) :
    s₀.onlySome may (s.wcAllocate die strip line pins who) := by
  refine hs.stepSome [.out, .fresh, .regs, .arr, .mas] (fun {s₀} hs => ?_) hps
  rintro t e
  obtain ⟨l, -, rfl⟩ := Option.map_eq_some_iff.mp e
  exact hs.setWc.agentPath.requestRange.bump

theorem State.only.wcPin {die strip line : Nat} (hs : s₀.only may s) (hps : [.out, .fresh, .regs, .arr, .mas] ⊆ may := by decide) :
    s₀.onlyFst may (s.wcPin die strip line) := by
  refine hs.stepFst [.out, .fresh, .regs, .arr, .mas] (fun {s₀} hs => ?_) hps
  delta State.wcPin
  extract_lets k
  split
  · extract_lets s1
    have hs1 : s₀.only [.out, .fresh, .regs, .arr, .mas] s1 := hs.setWc
    exact hs1.bump
  · split
    · exact hs
    · next s1 es1 =>
        have hs1 : s₀.only [.out, .fresh, .regs, .arr, .mas] s1 := (hs.wcAllocate) _ es1
        exact hs1

theorem State.only.dropTokens {die c : Nat} (hs : s₀.only may s) (hps : [.arr] ⊆ may := by decide) :
    s₀.only may (s.dropTokens die c) := by
  refine hs.step [.arr] (fun {s₀} hs => ?_) hps
  delta State.dropTokens
  extract_lets src arr
  exact hs.same

theorem State.only.clearTileRegs {die : Nat} {p : Nat → Bool} (hs : s₀.only may s) (hps : [.regs] ⊆ may := by decide) :
    s₀.only may (s.clearTileRegs die p) :=
  hs.step [.regs] (fun hs => hs.same) hps

theorem State.only.clearAcc {die c : Nat} (hs : s₀.only may s) (hps : [.arr] ⊆ may := by decide) :
    s₀.only may (s.clearAcc die c) :=
  hs.step [.arr] (fun hs => hs.same) hps

theorem State.only.loadParams {die c : Nat} {t : TileImage} (hs : s₀.only may s) (hps : [.regs, .arr] ⊆ may := by decide) :
    s₀.only may (s.loadParams die c t) := by
  refine hs.step [.regs, .arr] (fun {s₀} hs => ?_) hps
  delta State.loadParams
  extract_lets s1 s2 src
  have hs1 : s₀.only [.regs, .arr] s1 := hs.foldl (fun s k hs => hs.wr)
  have hs2 : s₀.only [.regs, .arr] s2 := hs1.setActiveParams
  exact hs2.setTile

theorem State.only.clearSlotCounts {die c : Nat} (hs : s₀.only may s) (hps : [.regs] ⊆ may := by decide) :
    s₀.only may (s.clearSlotCounts die c) :=
  hs.step [.regs] (fun hs => hs.wr.wr.wr) hps

theorem State.only.clearUnits {die c : Nat} (hs : s₀.only may s) (hps : [.arr] ⊆ may := by decide) :
    s₀.only may (s.clearUnits die c) := by
  refine hs.step [.arr] (fun {s₀} hs => ?_) hps
  delta State.clearUnits
  extract_lets s1 src
  have hs1 : s₀.only [.arr] s1 := hs.clearAcc
  exact hs1.same

theorem State.only.resetOnly {die c : Nat} (hs : s₀.only may s) (hps : [.regs, .arr] ⊆ may := by decide) :
    s₀.only may (s.resetOnly die c) := by
  refine hs.step [.regs, .arr] (fun {s₀} hs => ?_) hps
  delta State.resetOnly
  extract_lets s1 s2 src
  have hs1 : s₀.only [.regs, .arr] s1 := hs.dropTokens.clearUnits.clearTileRegs.dropInv
  have hs2 : s₀.only [.regs, .arr] s2 := by
    unfold s2
    split
    · exact hs1.foldl (fun s t hs => hs.loadParams)
    · exact hs1
  exact hs2.clearSlotCounts.wr.setSlotState

theorem State.only.emptySlot {die c : Nat} (hs : s₀.only may s) (hps : [.regs, .arr] ⊆ may := by decide) :
    s₀.only may (s.emptySlot die c) := by
  refine hs.step [.regs, .arr] (fun {s₀} hs => ?_) hps
  delta State.emptySlot
  extract_lets s1 src s2
  have hs1 : s₀.only [.regs, .arr] s1 := hs.dropTokens.clearUnits.dropInv.setSlotState
  have hs2 : s₀.only [.regs, .arr] s2 := hs1.same
  exact .ite hs2.wr hs2

theorem State.only.emptyDie {die : Nat} (hs : s₀.only may s) (hps : [.regs, .arr] ⊆ may := by decide) :
    s₀.only may (s.emptyDie die) :=
  hs.step [.regs, .arr] (fun hs => hs.foldl (fun s c hs => hs.emptySlot)) hps

theorem State.only.haltSlot {die c : Nat} (hs : s₀.only may s) (hps : [.regs, .arr] ⊆ may := by decide) :
    s₀.only may (s.haltSlot die c) := by
  refine hs.step [.regs, .arr] (fun {s₀} hs => ?_) hps
  delta State.haltSlot
  extract_lets s1
  have hs1 : s₀.only [.regs, .arr] s1 := .ite hs.stopSlot hs
  exact .ite hs1.resetOnly hs1

theorem State.only.haltDie {die : Nat} (hs : s₀.only may s) (hps : [.regs, .arr] ⊆ may := by decide) :
    s₀.only may (s.haltDie die) :=
  hs.step [.regs, .arr] (fun hs => hs.foldl (fun s c hs => .ite hs.haltSlot hs)) hps

theorem State.only.setStrState {die st v : Nat} (hs : s₀.only may s) (hps : [.regs] ⊆ may := by decide) :
    s₀.only may (s.setStrState die st v) :=
  hs.step [.regs] (fun hs => hs.wr) hps

theorem State.only.refreshStream {die st : Nat} (hs : s₀.only may s) (hps : [.regs, .arr] ⊆ may := by decide) :
    s₀.only may (s.refreshStream die st) := by
  refine hs.step [.regs, .arr] (fun {s₀} hs => ?_) hps
  delta State.refreshStream
  extract_lets s1
  have hs1 : s₀.only [.regs, .arr] s1 := hs.setStrState
  exact .ite hs (.ite hs.setStrState (.ite hs.setStrState (.ite hs1.stir hs1)))

theorem State.only.pinLines {die target : Nat} {lines : List Nat} (hs : s₀.only may s) (hps : [.out, .fresh, .regs, .arr, .mas] ⊆ may := by decide) :
    s₀.onlyFst may (s.pinLines die target lines) := by
  refine hs.stepFst [.out, .fresh, .regs, .arr, .mas] (fun {s₀} hs => ?_) hps
  have pins : ∀ (ks : List Nat) (l : Nat) (h : State × Bool), s₀.only [.out, .fresh, .regs, .arr, .mas] h.1 →
      s₀.only [.out, .fresh, .regs, .arr, .mas] (ks.foldl (fun (h : State × Bool) k => if h.2 then h.1.wcPin die k l else h) h).1 := by
    intro ks l h hh
    induction ks generalizing h with
    | nil => exact hh
    | cons k ks ih => exact ih _ (State.onlyFst.ite hh.wcPin hh)
  have all : ∀ (ls : List Nat) (g : State × List Nat), s₀.only [.out, .fresh, .regs, .arr, .mas] g.1 → s₀.onlyFst [.out, .fresh, .regs, .arr, .mas] (ls.foldl (fun (g : State × List Nat) l =>
      let r := (strips target).foldl (fun (h : State × Bool) k => if h.2 then h.1.wcPin die k l else h) (g.1, true)
      if r.2 then (r.1, g.2 ++ [l]) else g) g) := by
    intro ls
    induction ls with
    | nil => exact fun g hg => hg
    | cons l ls ih => exact fun g hg => ih _ (State.onlyFst.ite (pins _ l (g.1, true) hg) hg)
  exact all lines (s, []) hs

theorem State.only.setPort {p : Nat} {v : Port} (hs : s₀.only may s) (hps : [.link] ⊆ may := by decide) :
    s₀.only may (s.setPort p v) :=
  hs.step [.link] (fun hs => hs.same) hps

theorem State.only.sendOne {p : Nat} (hs : s₀.only may s) (hps : [.out, .regs, .link] ⊆ may := by decide) :
    s₀.onlySome may (s.sendOne p) := by
  refine hs.stepSome [.out, .regs, .link] (fun {s₀} hs => ?_) hps
  delta State.sendOne
  extract_lets v can lack
  refine .ite ?_ (.none)
  split
  · exact .none
  · split
    · exact .none
    · extract_lets v'
      exact hs.setPort.bump.emit.some

theorem State.only.pumpN {p n : Nat} (hs : s₀.only may s) (hps : [.out, .regs, .link] ⊆ may := by decide) :
    s₀.only may (s.pumpN p n) := by
  refine hs.step [.out, .regs, .link] (fun {s₀} hs => ?_) hps
  clear hps
  rename_i hs₁
  clear hs₁
  induction n generalizing s with
  | zero => exact hs
  | succ n ih =>
    unfold State.pumpN
    split
    · next s1 es1 => exact ih ((hs.sendOne) _ es1)
    · exact hs

theorem State.only.pump {p : Nat} (hs : s₀.only may s) (hps : [.out, .regs, .link] ⊆ may := by decide) :
    s₀.only may (s.pump p) :=
  hs.step [.out, .regs, .link] (fun hs => hs.pumpN) hps

theorem State.only.enqueue {fs : List (Nat × Flit)} (hs : s₀.only may s) (hps : [.out, .regs, .link] ⊆ may := by decide) :
    s₀.only may (s.enqueue fs) := by
  refine hs.step [.out, .regs, .link] (fun {s₀} hs => ?_) hps
  delta State.enqueue
  extract_lets s1
  have hs1 : s₀.only [.out, .regs, .link] s1 := hs.foldl (fun s e hs => hs.setPort)
  exact hs1.foldl (fun s p hs => .ite hs.pump hs)

theorem State.only.setTx {k : Nat} {v : TxFlow} (hs : s₀.only may s) (hps : [.link] ⊆ may := by decide) :
    s₀.only may (s.setTx k v) :=
  hs.step [.link] (fun hs => hs.same) hps

theorem State.only.spray {dst vc : Nat} {bytes : List Byte} (hs : s₀.only may s) (hps : [.out, .regs, .link] ⊆ may := by decide) :
    s₀.only may (s.spray dst vc bytes) := by
  refine hs.step [.out, .regs, .link] (fun {s₀} hs => ?_) hps
  delta State.spray
  extract_lets ps k t fl ports pairs src s1 sent
  have hs1 : s₀.only [.out, .regs, .link] s1 := .ite hs hs.same
  exact hs1.setTx.enqueue

theorem State.only.sendMsg {dst ty ref : Nat} {arg body : List Byte} (hs : s₀.only may s) (hps : [.out, .regs, .link] ⊆ may := by decide) :
    s₀.only may (s.sendMsg dst ty ref arg body) := by
  refine hs.step [.out, .regs, .link] (fun {s₀} hs => ?_) hps
  delta State.sendMsg
  extract_lets src vc b s1 src'
  have hs1 : s₀.only [.out, .regs, .link] s1 := hs.emit
  exact .ite hs.same (.ite hs.emit (.ite hs1.same hs1.spray))

theorem State.only.setJState {v : Nat} (hs : s₀.only may s) (hps : [.regs] ⊆ may := by decide) :
    s₀.only may (s.setJState v) :=
  hs.step [.regs] (fun hs => hs.wr) hps

theorem State.only.newRecordFor {origin : Option Nat} {slot : Nat} {pay : JPay} (hs : s₀.only may s) (hps : [.regs, .jr] ⊆ may := by decide) :
    s₀.only may (s.newRecordFor origin slot pay) := by
  refine hs.step [.regs, .jr] (fun {s₀} hs => ?_) hps
  delta State.newRecordFor
  extract_lets n s1 src
  have hs1 : s₀.only [.regs, .jr] s1 := hs.wr
  exact hs1.same

theorem State.only.newRecord {slot : Nat} {pay : JPay} (hs : s₀.only may s) (hps : [.regs, .jr] ⊆ may := by decide) :
    s₀.only may (s.newRecord slot pay) :=
  hs.step [.regs, .jr] (fun hs => hs.newRecordFor) hps

theorem State.only.sendRecords {dst ty : Nat} {rs : List JRec} (hs : s₀.only may s) (hps : [.out, .regs, .link, .jr] ⊆ may := by decide) :
    s₀.only may (s.sendRecords dst ty rs) := by
  refine hs.step [.out, .regs, .link, .jr] (fun {s₀} hs => ?_) hps
  delta State.sendRecords
  extract_lets s1 mark src
  have hs1 : s₀.only [.out, .regs, .link, .jr] s1 := hs.sendMsg
  exact hs1.same

theorem State.only.journalError {kind : Nat} (hs : s₀.only may s) (hps : [.out, .fresh, .regs, .err, .host, .jr] ⊆ may := by decide) :
    s₀.only may (s.journalError kind) := by
  refine hs.step [.out, .fresh, .regs, .err, .host, .jr] (fun {s₀} hs => ?_) hps
  delta State.journalError
  extract_lets s1 src
  have hs1 : s₀.only [.out, .fresh, .regs, .err, .host, .jr] s1 := hs.detect
  exact hs1.same

theorem State.only.sendReply {q key session op seq status detail : Nat} {dup : Bool} {body : List Byte} (hs : s₀.only may s) (hps : [.out, .host] ⊆ may := by decide) :
    s₀.only may (s.sendReply q key session op seq status detail dup body) := by
  refine hs.step [.out, .host] (fun {s₀} hs => ?_) hps
  delta State.sendReply
  extract_lets s1 cr h tag
  have hs1 : s₀.only [.out, .host] s1 := by
    unfold s1
    split
    · exact hs.setQp
    · exact hs
  exact hs1.emit

theorem State.only.releaseReply {q key session seq op status detail : Nat} {body : List Byte} (hs : s₀.only may s) (hps : [.out, .host] ⊆ may := by decide) :
    s₀.only may (s.releaseReply q key session seq op status detail body) := by
  refine hs.step [.out, .host] (fun {s₀} hs => ?_) hps
  delta State.releaseReply
  extract_lets i
  split
  · exact hs.sendReply
  · extract_lets via
    split
    · exact hs.sendReply
    · extract_lets s1 s2
      have hs1 : s₀.only [.out, .host] s1 := hs.setSession
      have hs2 : s₀.only [.out, .host] s2 := hs1.sendReply
      exact hs2.foldl (fun s w hs => hs.sendReply)

theorem State.only.answer {q key session seq : Nat} {tag : BitVec 128} {op status detail : Nat} {body : List Byte} (hs : s₀.only may s) (hps : [.out, .regs, .host, .jr] ⊆ may := by decide) :
    s₀.only may (s.answer q key session seq tag op status detail body) :=
  hs.step [.out, .regs, .host, .jr] (fun hs => .ite hs.releaseReply hs.newRecord) hps

theorem State.only.answerSeq {i seq status detail : Nat} {body : List Byte} (hs : s₀.only may s) (hps : [.out, .regs, .host, .jr] ⊆ may := by decide) :
    s₀.only may (s.answerSeq i seq status detail body) := by
  refine hs.step [.out, .regs, .host, .jr] (fun {s₀} hs => ?_) hps
  delta State.answerSeq
  split
  · exact hs
  · split
    · exact hs
    · exact hs.answer

theorem State.only.complete {i seq status detail : Nat} (hs : s₀.only may s) (hps : [.regs, .jr] ⊆ may := by decide) :
    s₀.only may (s.complete i seq status detail) := by
  refine hs.step [.regs, .jr] (fun {s₀} hs => ?_) hps
  delta State.complete
  extract_lets op
  exact hs.newRecord

theorem State.only.journalSession {i : Nat} (hs : s₀.only may s) (hps : [.regs, .jr] ⊆ may := by decide) :
    s₀.only may (s.journalSession i) :=
  hs.step [.regs, .jr] (fun hs => .ite hs hs.newRecord) hps

theorem State.only.journalReg {addr value : Nat} (hs : s₀.only may s) (hps : [.regs, .jr] ⊆ may := by decide) :
    s₀.only may (s.journalReg addr value) :=
  hs.step [.regs, .jr] (fun hs => hs.newRecord) hps

theorem State.only.renewLease (hs : s₀.only may s) (hps : [.host] ⊆ may := by decide) :
    s₀.only may (s.renewLease) := by
  refine hs.step [.host] (fun {s₀} hs => ?_) hps
  delta State.renewLease
  extract_lets ns src
  exact hs.same

theorem State.only.setOwner {o : Option Nat} (hs : s₀.only may s) (hps : [.regs, .host, .jr] ⊆ may := by decide) :
    s₀.only may (s.setOwner o) := by
  refine hs.step [.regs, .host, .jr] (fun {s₀} hs => ?_) hps
  delta State.setOwner
  extract_lets v s1 src s2
  have hs1 : s₀.only [.regs, .host, .jr] s1 := hs.wrFlag.wr
  have hs2 : s₀.only [.regs, .host, .jr] s2 := .ite hs1.renewLease hs1.same
  exact hs2.journalReg

theorem State.only.pageDone {op pn : Nat} {fail : Option Nat} (hs : s₀.only may s) (hps : [.mas] ⊆ may := by decide) :
    s₀.only may (s.pageDone op pn fail) :=
  hs.step [.mas] (fun hs => hs.same) hps

theorem State.only.mapPage {pn budget mwin : Nat} (hs : s₀.only may s) (hps : [.mas] ⊆ may := by decide) :
    s₀.only may (s.mapPage pn budget mwin) := by
  refine hs.step [.mas] (fun {s₀} hs => ?_) hps
  delta State.mapPage
  split
  · exact hs
  · exact hs.masZero.newPte

theorem State.only.sealPage {pn len place : Nat} {nodeep : Bool} (hs : s₀.only may s) (hps : [.mas] ⊆ may := by decide) :
    s₀.only may (s.sealPage pn len place nodeep) := by
  refine hs.step [.mas] (fun {s₀} hs => ?_) hps
  delta State.sealPage
  extract_lets s1
  have hs1 : s₀.only [.mas] s1 := hs.masZero
  split
  · exact hs
  · exact hs1.setPte

theorem State.only.markFreeing {pn : Nat} (hs : s₀.only may s) (hps : [.arr, .mas] ⊆ may := by decide) :
    s₀.onlySome may (s.markFreeing pn) := by
  refine hs.stepSome [.arr, .mas] (fun {s₀} hs => ?_) hps
  delta State.markFreeing
  split
  · exact .none
  · exact .ite (.none) hs.shootdown.setPte.some

theorem State.only.copyJob {pn : Nat} {kind : MigKind} {cls stack frame : Nat} (hs : s₀.only may s) (hps : [.mas] ⊆ may := by decide) :
    s₀.only may (s.copyJob pn kind cls stack frame) := by
  refine hs.step [.mas] (fun {s₀} hs => ?_) hps
  delta State.copyJob
  split
  · exact hs
  · exact hs.addJob.setMoving

theorem State.only.demote {pn cls : Nat} (hs : s₀.only may s) (hps : [.regs, .arr, .mas] ⊆ may := by decide) :
    s₀.onlyFst may (s.demote pn cls) := by
  refine hs.stepFst [.regs, .arr, .mas] (fun {s₀} hs => ?_) hps
  delta State.demote
  split
  · exact hs
  · refine .ite hs.dropNear.bump (.ite hs.copyJob (.ite hs (.ite hs.dropNear.bump ?_)))
    split
    · exact hs
    · exact hs.copyJob

theorem State.only.setPlace {pn place budget : Nat} (hs : s₀.only may s) (hps : [.mas] ⊆ may := by decide) :
    s₀.only may (s.setPlace pn place budget) := by
  refine hs.step [.mas] (fun {s₀} hs => ?_) hps
  delta State.setPlace
  split
  · exact hs
  · exact hs.setPte

theorem State.only.movePage {pn : Nat} {ks : List Nat} (hs : s₀.only may s) (hps : [.arr, .mas] ⊆ may := by decide) :
    s₀.only may (s.movePage pn ks) := by
  refine hs.step [.arr, .mas] (fun {s₀} hs => ?_) hps
  delta State.movePage
  split
  · exact hs.shootdown.setPte
  · exact hs

theorem State.only.leaveStack {pn : Nat} (hs : s₀.only may s) (hps : [.regs, .arr, .mas] ⊆ may := by decide) :
    s₀.only may (s.leaveStack pn) := by
  refine hs.step [.regs, .arr, .mas] (fun {s₀} hs => ?_) hps
  delta State.leaveStack
  split
  · exact hs
  · refine .ite hs (.ite hs.movePage ?_)
    have hdemote : s₀.onlyFst [.regs, .arr, .mas] (s.demote pn 2) := hs.demote
    generalize s.demote pn 2 = r at hdemote
    obtain ⟨t, result⟩ := r
    cases result with
    | nofit => exact State.only.movePage hdemote
    | _ => exact hdemote

theorem State.only.endJob {pn : Nat} (hs : s₀.only may s) (hps : [.regs, .arr, .mas] ⊆ may := by decide) :
    s₀.only may (s.endJob pn) := by
  refine hs.step [.regs, .arr, .mas] (fun {s₀} hs => ?_) hps
  delta State.endJob
  extract_lets s1
  have hs1 : s₀.only [.regs, .arr, .mas] s1 := hs.dropJob.setMoving.leaveStack
  split
  · exact hs
  · split
    · exact hs1.requestPromotion
    · exact hs1

theorem State.only.fixJob {pn : Nat} (hs : s₀.only may s) (hps : [.regs, .arr, .mas] ⊆ may := by decide) :
    s₀.only may (s.fixJob pn) := by
  refine hs.step [.regs, .arr, .mas] (fun {s₀} hs => ?_) hps
  delta State.fixJob
  split
  · exact .ite (hs.dropJob.setMoving.foldl (fun s op hs => hs.pageDone)) (.ite hs.endJob.pageDone hs.setJob)
  · exact hs.dropJob
  · exact hs

theorem State.only.moveRetired {die : Nat} (hs : s₀.only may s) (hps : [.arr, .mas] ⊆ may := by decide) :
    s₀.only may (s.moveRetired die) := by
  refine hs.step [.arr, .mas] (fun {s₀} hs => ?_) hps
  delta State.moveRetired
  extract_lets mine here s1 src
  have hs1 : s₀.only [.arr, .mas] s1 := hs.foldl (fun s pn hs => hs.movePage)
  exact hs1.same

theorem State.only.setReq {slot : Nat} {r : Req} (hs : s₀.only may s) (hps : [.stew] ⊆ may := by decide) :
    s₀.only may (s.setReq slot r) :=
  hs.step [.stew] (fun hs => hs.same) hps

theorem State.only.freeReq {slot : Nat} (hs : s₀.only may s) (hps : [.stew] ⊆ may := by decide) :
    s₀.only may (s.freeReq slot) :=
  hs.step [.stew] (fun hs => hs.same) hps

theorem State.only.setPkg {h : Nat} {p : Pkg} (hs : s₀.only may s) (hps : [.wts] ⊆ may := by decide) :
    s₀.only may (s.setPkg h p) :=
  hs.step [.wts] (fun hs => hs.same) hps

theorem State.only.dropPkg {h : Nat} (hs : s₀.only may s) (hps : [.wts] ⊆ may := by decide) :
    s₀.only may (s.dropPkg h) :=
  hs.step [.wts] (fun hs => hs.same) hps

theorem State.only.freePkg {h : Nat} (hs : s₀.only may s) (hps : [.regs, .arr, .mas, .wts, .jr] ⊆ may := by decide) :
    s₀.only may (s.freePkg h) := by
  refine hs.step [.regs, .arr, .mas, .wts, .jr] (fun {s₀} hs => ?_) hps
  delta State.freePkg
  extract_lets mine
  split
  · exact hs
  · exact .dropPkg (.newRecord (hs.foldl (fun s pn hs => State.onlySome.getD hs.markFreeing hs)))

theorem State.only.setPfx {t h : Nat} {v : Pfx} (hs : s₀.only may s) (hps : [.stew] ⊆ may := by decide) :
    s₀.only may (s.setPfx t h v) :=
  hs.step [.stew] (fun hs => hs.same) hps

theorem State.only.unrefPfx {i h n : Nat} (hs : s₀.only may s) (hps : [.arr, .mas, .stew] ⊆ may := by decide) :
    s₀.only may (s.unrefPfx i h n) := by
  refine hs.step [.arr, .mas, .stew] (fun {s₀} hs => ?_) hps
  clear hps
  rename_i hs₁
  clear hs₁
  induction n generalizing s h with
  | zero => exact hs
  | succ n ih =>
    unfold State.unrefPfx
    split
    · exact hs
    · next v _ =>
      have hfree : s₀.only [.arr, .mas, .stew] (v.pages.foldl (fun (s : State) pn => (s.markFreeing pn).getD s) s) :=
        hs.foldl fun t pn ht => ht.markFreeing.getD ht
      exact .ite (.ite (hfree.same) (ih (hfree.same))) hs.setPfx

theorem State.only.dropKv {slot : Nat} (hs : s₀.only may s) (hps : [.arr, .mas, .stew] ⊆ may := by decide) :
    s₀.only may (s.dropKv slot) := by
  refine hs.step [.arr, .mas, .stew] (fun {s₀} hs => ?_) hps
  delta State.dropKv
  split
  · exact hs
  · extract_lets mine s1
    have hs1 : s₀.only [.arr, .mas, .stew] s1 := by
      unfold s1
      refine hs.foldl (fun s pn hs => ?_)
      split
      · exact .ite hs (State.onlySome.getD hs.markFreeing hs)
      · exact hs
    exact hs1.setReq

theorem State.only.answerCancels {r : Req} (hs : s₀.only may s) (hps : [.out, .regs, .host, .jr] ⊆ may := by decide) :
    s₀.only may (s.answerCancels r) :=
  hs.step [.out, .regs, .host, .jr] (fun hs => hs.foldl (fun s c hs => .ite hs.answerSeq hs.answerSeq)) hps

theorem State.only.endReq {slot : Nat} {f : Final} (hs : s₀.only may s) (hps : [.out, .regs, .arr, .mas, .host, .link, .wts, .stew, .jr] ⊆ may := by decide) :
    s₀.only may (s.endReq slot f) := by
  refine hs.step [.out, .regs, .arr, .mas, .host, .link, .wts, .stew, .jr] (fun {s₀} hs => ?_) hps
  delta State.endReq
  extract_lets s0
  have hs0 : s₀.only [.out, .regs, .arr, .mas, .host, .link, .wts, .stew, .jr] s0 := hs.dropKv
  split
  · exact hs
  · extract_lets src r s1 s2 s3 s4 s5 rec'
    have hs1 : s₀.only [.out, .regs, .arr, .mas, .host, .link, .wts, .stew, .jr] s1 := hs0.setReq
    have hs2 : s₀.only [.out, .regs, .arr, .mas, .host, .link, .wts, .stew, .jr] s2 := .ite hs1.unrefPfx hs1
    have hs3 : s₀.only [.out, .regs, .arr, .mas, .host, .link, .wts, .stew, .jr] s3 := by
      unfold s3
      refine .ite ?_ hs2
      split
      · extract_lets s3'
        have hs3' : s₀.only [.out, .regs, .arr, .mas, .host, .link, .wts, .stew, .jr] s3' := hs2.setPkg
        exact .ite hs3'.freePkg hs3'
      · exact hs2
    have hs4 : s₀.only [.out, .regs, .arr, .mas, .host, .link, .wts, .stew, .jr] s4 := hs3.setReq
    have hs5 : s₀.only [.out, .regs, .arr, .mas, .host, .link, .wts, .stew, .jr] s5 := hs4.answerCancels
    refine .ite hs ?_
    split
    · exact hs5.sendMsg.freeReq
    · exact hs5.newRecord

theorem State.only.setFlights {h : Nat} {l : List Flight} (hs : s₀.only may s) (hps : [.stew] ⊆ may := by decide) :
    s₀.only may (s.setFlights h l) :=
  hs.step [.stew] (fun hs => hs.same) hps

theorem State.only.endBubble {die : Nat} (hs : s₀.only may s) (hps : [.out, .arr] ⊆ may := by decide) :
    s₀.only may (s.endBubble die) := by
  refine hs.step [.out, .arr] (fun {s₀} hs => ?_) hps
  delta State.endBubble
  extract_lets src
  split
  · exact hs
  · exact .ite hs.same.emit hs

theorem State.only.abortFlight {h : Nat} {fl : Flight} {replay : Bool} {f : Final} (hs : s₀.only may s) (hps : [.out, .regs, .arr, .mas, .host, .link, .wts, .stew, .jr] ⊆ may := by decide) :
    s₀.only may (s.abortFlight h fl replay f) := by
  refine hs.step [.out, .regs, .arr, .mas, .host, .link, .wts, .stew, .jr] (fun {s₀} hs => ?_) hps
  delta State.abortFlight
  extract_lets again s1
  have hs1 : s₀.only [.out, .regs, .arr, .mas, .host, .link, .wts, .stew, .jr] s1 := hs.setFlights
  refine .ite hs.setFlights.emit (hs1.foldl (fun s e hs => ?_))
  split
  · exact hs.setReq.endReq
  · exact hs

theorem State.only.abortStep {die slot : Nat} {replay : Bool} {f : Final} (hs : s₀.only may s) (hps : [.out, .regs, .arr, .mas, .host, .link, .wts, .stew, .jr] ⊆ may := by decide) :
    s₀.only may (s.abortStep die slot replay f) := by
  refine hs.step [.out, .regs, .arr, .mas, .host, .link, .wts, .stew, .jr] (fun {s₀} hs => ?_) hps
  delta State.abortStep
  extract_lets s1
  have hs1 : s₀.only [.out, .regs, .arr, .mas, .host, .link, .wts, .stew, .jr] s1 := hs.haltSlot
  exact hs1.foldl (fun s e hs => hs.abortFlight)

theorem State.only.completeAll {us : List (Nat × Nat)} {status detail : Nat} (hs : s₀.only may s) (hps : [.regs, .jr] ⊆ may := by decide) :
    s₀.only may (s.completeAll us status detail) :=
  hs.step [.regs, .jr] (fun hs => hs.foldl (fun s u hs => hs.complete)) hps

theorem State.only.failSwitch {h status : Nat} (hs : s₀.only may s) (hps : [.regs, .arr, .mas, .wts, .jr] ⊆ may := by decide) :
    s₀.only may (s.failSwitch h status) := by
  refine hs.step [.regs, .arr, .mas, .wts, .jr] (fun {s₀} hs => ?_) hps
  delta State.failSwitch
  split
  · exact hs
  · split
    · exact hs
    · extract_lets s2 s1 src s3
      have hs2 : s₀.only [.regs, .arr, .mas, .wts, .jr] s2 := hs.wr.wr
      have hs1 : s₀.only [.regs, .arr, .mas, .wts, .jr] s1 := by
        unfold s1
        refine .ite (hs2.foldl (fun s e hs => ?_)) hs
        split
        · exact .ite hs.setPlace hs
        · exact hs
      have hs3 : s₀.only [.regs, .arr, .mas, .wts, .jr] s3 := hs1.same
      exact hs3.setPkg.completeAll

theorem State.only.switchOut {h : Nat} (hs : s₀.only may s) (hps : [.regs, .arr, .mas, .wts] ⊆ may := by decide) :
    s₀.only may (s.switchOut h) := by
  refine hs.step [.regs, .arr, .mas, .wts] (fun {s₀} hs => ?_) hps
  delta State.switchOut
  split
  · exact hs
  · extract_lets s1 s2 src s3
    have hs1 : s₀.only [.regs, .arr, .mas, .wts] s1 := by
      unfold s1
      refine hs.foldl (fun s e hs => ?_)
      split
      · exact hs.setPlace
      · exact hs
    have hs2 : s₀.only [.regs, .arr, .mas, .wts] s2 := hs1.wr.wr
    have hs3 : s₀.only [.regs, .arr, .mas, .wts] s3 := hs2.same
    exact .ite hs hs3.setPkg

theorem State.only.askFirst {p : Nat} (hs : s₀.only may s) (hps : [.out, .regs, .link, .jr] ⊆ may := by decide) :
    s₀.only may (s.askFirst p) := by
  refine hs.step [.out, .regs, .link, .jr] (fun {s₀} hs => ?_) hps
  delta State.askFirst
  extract_lets s1 src
  have hs1 : s₀.only [.out, .regs, .link, .jr] s1 := hs.sendMsg
  exact hs1.same

theorem State.only.startPairing (hs : s₀.only may s) (hps : [.out, .fresh, .regs, .err, .host, .link, .jr] ⊆ may := by decide) :
    s₀.only may (s.startPairing) := by
  refine hs.step [.out, .fresh, .regs, .err, .host, .link, .jr] (fun {s₀} hs => ?_) hps
  delta State.startPairing
  extract_lets s1
  have hs1 : s₀.only [.out, .fresh, .regs, .err, .host, .link, .jr] s1 := hs.setJState
  refine .ite ?_ hs
  split
  · exact .ite hs1.journalError hs1.askFirst
  · exact hs

theorem State.only.writeToken {q ring : Nat} {g : Sys2Proof.Ring} {n : Nat} {t : RingTok} (hs : s₀.only may s) (hps : [.out] ⊆ may := by decide) :
    s₀.only may (s.writeToken q ring g n t) :=
  hs.step [.out] (fun hs => hs.emit) hps

theorem State.only.rewriteRings {i : Nat} (hs : s₀.only may s) (hps : [.out] ⊆ may := by decide) :
    s₀.only may (s.rewriteRings i) := by
  refine hs.step [.out] (fun {s₀} hs => ?_) hps
  delta State.rewriteRings
  split
  · exact hs
  · extract_lets q
    exact hs.foldl (fun s e hs => hs.foldl (fun s t hs => hs.writeToken))

theorem State.only.unbindQp {q : Nat} (hs : s₀.only may s) (hps : [.out, .regs, .host, .jr] ⊆ may := by decide) :
    s₀.only may (s.unbindQp q) := by
  refine hs.step [.out, .regs, .host, .jr] (fun {s₀} hs => ?_) hps
  delta State.unbindQp
  split
  · exact hs
  · extract_lets s1
    have hs1 : s₀.only [.out, .regs, .host, .jr] s1 := hs.setQp
    split
    · exact hs1
    · split
      · exact hs1
      · extract_lets qs
        exact .ite hs1.setSession.journalSession hs1.setSession.rewriteRings

theorem State.only.qpError {q : Nat} (hs : s₀.only may s) (hps : [.out, .regs, .host, .jr] ⊆ may := by decide) :
    s₀.only may (s.qpError q) := by
  refine hs.step [.out, .regs, .host, .jr] (fun {s₀} hs => ?_) hps
  delta State.qpError
  split
  · exact hs
  · exact .ite hs hs.unbindQp

theorem State.only.hostLinkEvent {p cause : Nat} (hs : s₀.only may s) (hps : [.out, .host] ⊆ may := by decide) :
    s₀.only may (s.hostLinkEvent p cause) := by
  refine hs.step [.out, .host] (fun {s₀} hs => ?_) hps
  delta State.hostLinkEvent
  extract_lets st
  exact hs.broadcast

theorem State.only.clearDie {d : Nat} (hs : s₀.only may s) (hps : [.regs, .arr, .strm, .link] ⊆ may := by decide) :
    s₀.only may (s.clearDie d) := by
  refine hs.step [.regs, .arr, .strm, .link] (fun {s₀} hs => ?_) hps
  delta State.clearDie
  extract_lets a t arr strm src s1 s2
  have hs1 : s₀.only [.regs, .arr, .strm, .link] s1 := hs.same
  have hs2 : s₀.only [.regs, .arr, .strm, .link] s2 := hs1.foldl (fun s p hs => hs.wr)
  exact hs2.foldl (fun s k hs => .ite hs.wr hs)

theorem State.only.loseNear {d : Nat} (hs : s₀.only may s) (hps : [.regs, .arr, .mas] ⊆ may := by decide) :
    s₀.only may (s.loseNear d) := by
  refine hs.step [.regs, .arr, .mas] (fun {s₀} hs => ?_) hps
  delta State.loseNear
  extract_lets s1
  have hs1 : s₀.only [.regs, .arr, .mas] s1 := hs.foldl (fun s e hs => .ite (.ite hs.dropNear hs.shootdown.masZero.dropPte) hs)
  exact hs1.foldl (fun s j hs => .ite (.ite hs.setJob hs) hs.fixJob)

theorem State.only.stacksOff {d : Nat} (hs : s₀.only may s) (hps : [.regs] ⊆ may := by decide) :
    s₀.only may (s.stacksOff d) := by
  refine hs.step [.regs] (fun {s₀} hs => ?_) hps
  delta State.stacksOff
  extract_lets on
  exact hs.wr

theorem State.only.settlePkgs {dies : List Nat} (hs : s₀.only may s) (hps : [.regs, .arr, .mas, .wts, .jr] ⊆ may := by decide) :
    s₀.only may (s.settlePkgs dies) := by
  refine hs.step [.regs, .arr, .mas, .wts, .jr] (fun {s₀} hs => ?_) hps
  delta State.settlePkgs
  refine hs.foldl (fun s e hs => ?_)
  extract_lets hit s1
  have hs1 : s₀.only [.regs, .arr, .mas, .wts, .jr] s1 := .ite hs.switchOut (.ite hs.failSwitch hs)
  split
  · exact hs1
  · extract_lets whole
    exact .ite hs1.setPkg hs1

theorem State.only.settleLost {dies : List Nat} (hs : s₀.only may s) (hps : [.regs, .arr, .mas, .wts, .stew, .jr] ⊆ may := by decide) :
    s₀.only may (s.settleLost dies) := by
  refine hs.step [.regs, .arr, .mas, .wts, .stew, .jr] (fun {s₀} hs => ?_) hps
  delta State.settleLost
  extract_lets lost src s1
  have hs1 : s₀.only [.regs, .arr, .mas, .wts, .stew, .jr] s1 := hs.same
  exact hs1.settlePkgs

theorem State.only.dieToA3 {d : Nat} (hs : s₀.only may s) (hps : [.regs, .arr, .strm, .mas, .link] ⊆ may := by decide) :
    s₀.only may (s.dieToA3 d) :=
  hs.step [.regs, .arr, .strm, .mas, .link] (fun hs => hs.haltDie.loseNear.stacksOff.emptyDie.clearDie.setDieP) hps

theorem State.only.diesOff (hs : s₀.only may s) (hps : [.regs, .arr, .strm, .mas, .link, .wts, .stew, .jr] ⊆ may := by decide) :
    s₀.only may (s.diesOff) :=
  hs.step [.regs, .arr, .strm, .mas, .link, .wts, .stew, .jr] (fun hs => .settleLost (hs.foldl (fun s d hs => .ite hs hs.dieToA3))) hps

theorem State.only.faultFrom {old : Machine.State} (hs : s₀.only may s) (hps : [.out] ⊆ may := by decide) :
    s₀.only may (s.faultFrom old) :=
  hs.step [.out] (fun hs => .ite hs hs.emit) hps

theorem State.only.endStartup {st : Nat} (hs : s₀.only may s) (hps : [.regs, .boot] ⊆ may := by decide) :
    s₀.only may (s.endStartup st) := by
  refine hs.step [.regs, .boot] (fun {s₀} hs => ?_) hps
  delta State.endStartup
  extract_lets src src'
  have hsrc : s₀.only [.regs, .boot] src := hs.wr
  exact hsrc.same

theorem State.only.faultNotify (hs : s₀.only may s) (hps : [.out] ⊆ may := by decide) :
    s₀.only may (s.faultNotify) := by
  refine hs.step [.out] (fun {s₀} hs => ?_) hps
  delta State.faultNotify
  split
  · exact hs.emit
  · exact hs

theorem State.only.pclStop {outcome st : Nat} (hs : s₀.only may s) (hps : [.regs, .boot] ⊆ may := by decide) :
    s₀.only may (s.pclStop outcome st) := by
  refine hs.step [.regs, .boot] (fun {s₀} hs => ?_) hps
  delta State.pclStop
  split
  · exact hs
  · extract_lets k ms late s1 s2 rs src src'
    have hs1 : s₀.only [.regs, .boot] s1 := .ite hs hs.wr
    have hs2 : s₀.only [.regs, .boot] s2 := hs1.wr.wr
    exact hs2.same

theorem State.only.abandon (hs : s₀.only may s) (hps : [.stew, .boot] ⊆ may := by decide) :
    s₀.only may (s.abandon) :=
  hs.step [.stew, .boot] (fun hs => hs.same) hps

theorem State.only.stopCores (hs : s₀.only may s) (hps : [.regs, .arr, .strm, .mas, .host, .link, .wts, .stew, .jr, .boot] ⊆ may := by decide) :
    s₀.only may (s.stopCores) := by
  refine hs.step [.regs, .arr, .strm, .mas, .host, .link, .wts, .stew, .jr, .boot] (fun {s₀} hs => ?_) hps
  delta State.stopCores
  extract_lets s1 mgmt on src mas src' host src'' src''' s2 s3 s3' s4 s5 s6 src'''' src'''''
  have hs1 : s₀.only [.regs, .arr, .strm, .mas, .host, .link, .wts, .stew, .jr, .boot] s1 := hs.foldl (fun s d hs => hs.dieToA3)
  have hs2 : s₀.only [.regs, .arr, .strm, .mas, .host, .link, .wts, .stew, .jr, .boot] s2 := hs1.same
  have hs3 : s₀.only [.regs, .arr, .strm, .mas, .host, .link, .wts, .stew, .jr, .boot] s3 := hs2.foldl (fun s p hs => .ite hs hs.wr.wr)
  have hs3' : s₀.only [.regs, .arr, .strm, .mas, .host, .link, .wts, .stew, .jr, .boot] s3' := hs3.foldl (fun s p hs => hs.wr.wr)
  have hs4 : s₀.only [.regs, .arr, .strm, .mas, .host, .link, .wts, .stew, .jr, .boot] s4 := hs3'.wr.wr.setJState.wr.wr
  have hs5 : s₀.only [.regs, .arr, .strm, .mas, .host, .link, .wts, .stew, .jr, .boot] s5 := hs4.wr.foldl (fun s d hs => .ite hs hs.wr.wr)
  have hs6 : s₀.only [.regs, .arr, .strm, .mas, .host, .link, .wts, .stew, .jr, .boot] s6 := .ite hs5 hs5.wr.wr
  have hsrc'''' : s₀.only [.regs, .arr, .strm, .mas, .host, .link, .wts, .stew, .jr, .boot] src'''' := hs6.wr
  exact hsrc''''.same

theorem State.only.slewTo {d p : Nat} (hs : s₀.only may s) (hps : [.boot] ⊆ may := by decide) :
    s₀.only may (s.slewTo d p) :=
  hs.step [.boot] (fun hs => hs.same) hps

theorem State.only.stretch (hs : s₀.only may s) (hps : [.regs, .boot] ⊆ may := by decide) :
    s₀.only may (s.stretch) := by
  refine hs.step [.regs, .boot] (fun {s₀} hs => ?_) hps
  delta State.stretch
  extract_lets l
  refine hs.foldl (fun s d hs => .ite ?_ hs)
  extract_lets m
  exact hs.wr.slewTo

theorem State.only.setLimit {l src : Nat} (hs : s₀.only may s) (hps : [.out, .regs, .host] ⊆ may := by decide) :
    s₀.only may (s.setLimit l src) := by
  refine hs.step [.out, .regs, .host] (fun {s₀} hs => ?_) hps
  delta State.setLimit
  extract_lets s1
  have hs1 : s₀.only [.out, .regs, .host] s1 := hs.wr.wr
  exact .ite hs1 hs1.powerEvent

theorem State.only.updateLimit (hs : s₀.only may s) (hps : [.out, .regs, .host, .boot] ⊆ may := by decide) :
    s₀.only may (s.updateLimit) := by
  refine hs.step [.out, .regs, .host, .boot] (fun {s₀} hs => ?_) hps
  delta State.updateLimit
  extract_lets g l src src'
  have hsrc : s₀.only [.out, .regs, .host, .boot] src := hs.wr
  exact .ite hs.setLimit.stretch (.ite hs hsrc.same)

theorem State.only.beginStartup (hs : s₀.only may s) (hps : [.out, .regs, .host, .boot] ⊆ may := by decide) :
    s₀.only may (s.beginStartup) := by
  refine hs.step [.out, .regs, .host, .boot] (fun {s₀} hs => ?_) hps
  delta State.beginStartup
  extract_lets n src src' s1 s2
  have hs1 : s₀.only [.out, .regs, .host, .boot] s1 := hs.same
  have hs2 : s₀.only [.out, .regs, .host, .boot] s2 := hs1.wr.wr
  exact .ite hs2.wr.endStartup.moduleTo.faultFrom hs2.wr.faultFrom

theorem State.only.startDisable {k : FnKind} {id : Nat} {retire : Bool} {deadline : Nat} {users : List (Nat × Nat)} (hs : s₀.only may s) (hps : [.link, .stew] ⊆ may := by decide) :
    s₀.only may (s.startDisable k id retire deadline users) := by
  refine hs.step [.link, .stew] (fun {s₀} hs => ?_) hps
  delta State.startDisable
  extract_lets src d s1 src'
  have hs1 : s₀.only [.link, .stew] s1 := hs.same
  split
  · extract_lets d'
    exact hs.same
  · exact .ite hs1.setPort hs1

theorem State.only.lcArm {target : Nat} (hs : s₀.only may s) (hps : [.regs, .boot] ⊆ may := by decide) :
    s₀.only may (s.lcArm target) := by
  refine hs.step [.regs, .boot] (fun {s₀} hs => ?_) hps
  delta State.lcArm
  extract_lets s1 src
  have hs1 : s₀.only [.regs, .boot] s1 := hs.wr.wr
  exact hs1.same

theorem State.only.lowerPoint {d : Nat} (hs : s₀.only may s) (hps : [.regs, .boot] ⊆ may := by decide) :
    s₀.only may (s.lowerPoint d) := by
  refine hs.step [.regs, .boot] (fun {s₀} hs => ?_) hps
  delta State.lowerPoint
  extract_lets p
  exact hs.wr.wr.slewTo

theorem State.only.lastBatch (hs : s₀.only may s) (hps : [.out, .regs, .link, .jr] ⊆ may := by decide) :
    s₀.only may (s.lastBatch) := by
  refine hs.step [.out, .regs, .link, .jr] (fun {s₀} hs => ?_) hps
  delta State.lastBatch
  split
  · exact .ite hs hs.sendRecords
  · exact hs

theorem State.only.failDone (hs : s₀.only may s) (hps : [.out, .regs, .arr, .strm, .mas, .host, .link, .wts, .stew, .jr, .boot] ⊆ may := by decide) :
    s₀.only may (s.failDone) := by
  refine hs.step [.out, .regs, .arr, .strm, .mas, .host, .link, .wts, .stew, .jr, .boot] (fun {s₀} hs => ?_) hps
  delta State.failDone
  split
  · exact .ite hs.stopCores.moduleTo hs
  · exact hs

theorem State.only.powerFail (hs : s₀.only may s) (hps : [.out, .regs, .arr, .strm, .mas, .host, .link, .wts, .stew, .jr, .boot] ⊆ may := by decide) :
    s₀.only may (s.powerFail) := by
  refine hs.step [.out, .regs, .arr, .strm, .mas, .host, .link, .wts, .stew, .jr, .boot] (fun {s₀} hs => ?_) hps
  delta State.powerFail
  extract_lets s1 s2 src
  have hs1 : s₀.only [.out, .regs, .arr, .strm, .mas, .host, .link, .wts, .stew, .jr, .boot] s1 := hs.wr.pclStop.abandon
  have hs2 : s₀.only [.out, .regs, .arr, .strm, .mas, .host, .link, .wts, .stew, .jr, .boot] s2 := hs1.lastBatch.faultNotify.powerEvent
  refine .ite hs ?_
  split
  · exact hs.failDone
  · exact hs2.same

theorem State.only.noteOvervolt {b : Bool} (hs : s₀.only may s) (hps : [.regs, .boot] ⊆ may := by decide) :
    s₀.only may (s.noteOvervolt b) := by
  refine hs.step [.regs, .boot] (fun {s₀} hs => ?_) hps
  delta State.noteOvervolt
  extract_lets s1 src src'
  have hs1 : s₀.only [.regs, .boot] s1 := hs.wrFlag
  exact hs1.same

theorem State.only.noteTemp {d tj : Nat} (hs : s₀.only may s) (hps : [.regs] ⊆ may := by decide) :
    s₀.only may (s.noteTemp d tj) :=
  hs.step [.regs] (fun hs => hs.wr.wr) hps

theorem State.only.vecAdvance {die y x c : Nat} (hs : s₀.only may s) (hps : [.arr] ⊆ may := by decide) :
    s₀.only may (s.vecAdvance die y x c) := by
  refine hs.step [.arr] (fun {s₀} hs => ?_) hps
  delta State.vecAdvance
  extract_lets t t'
  refine .ite hs.setTile ?_
  split
  · exact hs.setTile
  · exact hs.setTile

theorem State.only.vecIssued {die y x c : Nat} (hs : s₀.only may s) (hps : [.regs, .arr] ⊆ may := by decide) :
    s₀.only may (s.vecIssued die y x c) :=
  hs.step [.regs, .arr] (fun hs => hs.bump.fired.vecAdvance) hps

end

end Sys2Proof.Machine
end

section
/-!
PROOF. Tools for the statements about single commands: where registers lie, how a written register is reached, and how a field reads
after a choice, a fold, or an update of other parts.
-/
namespace Sys2Proof.Machine

set_option Elab.async false

/-! ## Registers lie apart (R29) -/

/-- The end of a register's addresses in its window. -/
def Reg.limit (r : Reg) : Nat := r.info.base + r.info.stride * (r.info.count - 1) + 4 * r.info.words
/-- Whether one window may hold registers of both spaces. -/
def Space.shares : Space → Space → Bool
  | .glob, .glob | .die, .die | .ct, .ct | .mt, .mt | .tile, .tile | .ct, .tile | .tile, .ct | .mt, .tile | .tile, .mt => true
  | _, _ => false
/-- The bytes that a window of a space spans. -/
def Space.size : Space → Nat
  | .glob => 0x1000000
  | .die => 0x800000
  | _ => 0x2000
/-- Word `k` of instance `i` of a register stands in window `w`. -/
structure Reg.Has (r : Reg) (i : Nat) (w : Win) (k : Nat) : Prop where
  index : i < r.info.count
  word : k < r.info.words
  space : inSpace r.info.space w = true
  tile : ∀ n y x, w = .tile n y x → y < 32 ∧ x < 32

theorem Reg.mem_all (r : Reg) : r ∈ Reg.all := by cases r <;> decide

/-- Whether two registers are the same one, or of spaces that share no window, or take addresses one after the other. -/
def Reg.clear (r r' : Reg) : Bool :=
  decide (r = r') || !r.info.space.shares r'.info.space || decide (r.limit ≤ r'.info.base) || decide (r'.limit ≤ r.info.base)
theorem Reg.clear_all : (Reg.all.all fun r => Reg.all.all r.clear) = true := by decide +kernel
theorem Reg.fit_all : (Reg.all.all fun r =>
    decide (r.limit ≤ r.info.space.size) && (decide (r.info.stride = 0 ∧ r.info.count = 1) || decide (4 * r.info.words ≤ r.info.stride))) = true := by decide +kernel

theorem Reg.clear_of_ne {r r' : Reg} (h : r ≠ r') (hs : r.info.space.shares r'.info.space = true) :
    r.limit ≤ r'.info.base ∨ r'.limit ≤ r.info.base := by
  have hc := List.all_eq_true.mp (List.all_eq_true.mp Reg.clear_all r r.mem_all) r' r'.mem_all
  simpa [Reg.clear, h, hs] using hc
theorem Reg.limit_le_size (r : Reg) : r.limit ≤ r.info.space.size := by
  have hc := List.all_eq_true.mp Reg.fit_all r r.mem_all
  simp only [Bool.and_eq_true, decide_eq_true_eq] at hc
  exact hc.1
theorem Reg.words_le_stride (r : Reg) (h : r.info.stride ≠ 0 ∨ 1 < r.info.count) : 4 * r.info.words ≤ r.info.stride := by
  have hc := List.all_eq_true.mp Reg.fit_all r r.mem_all
  simp only [Bool.and_eq_true, Bool.or_eq_true, decide_eq_true_eq] at hc
  obtain ⟨_, ⟨_, _⟩ | hc⟩ := hc
  · omega
  · exact hc

/-- The address of a word in its window. -/
theorem Reg.Has.offset {r : Reg} {i k : Nat} {w : Win} (h : r.Has i w k) : r.info.base + r.info.stride * i + 4 * k + 4 ≤ r.limit := by
  have h1 : r.info.stride * i ≤ r.info.stride * (r.info.count - 1) := Nat.mul_le_mul_left _ (by have := h.index; omega)
  have h2 := h.word
  unfold Reg.limit
  omega

theorem Win.eq_of_base {w w' : Win} {o o' : Nat} {sp sp' : Space} (h : winBase w + o = winBase w' + o') (hs : inSpace sp w = true)
    (hs' : inSpace sp' w' = true) (ho : o < sp.size) (ho' : o' < sp'.size) (ht : ∀ n y x, w = .tile n y x → y < 32 ∧ x < 32)
    (ht' : ∀ n y x, w' = .tile n y x → y < 32 ∧ x < 32) : w = w' ∧ sp.shares sp' = true := by
  cases w with
  | glob =>
    cases w' with
    | glob => cases sp <;> cases sp' <;> simp_all [inSpace, Space.shares]
    | die n => cases sp <;> simp_all [inSpace, winBase, Space.size]; omega
    | tile n y x => cases sp <;> simp_all [inSpace, winBase, Space.size]; omega
  | die n =>
    cases w' with
    | glob => cases sp' <;> simp_all [inSpace, winBase, Space.size]; omega
    | die m => cases sp <;> cases sp' <;> simp_all [inSpace, winBase, Space.size, Space.shares]; omega
    | tile m y x =>
      have := ht' m y x rfl
      have : sp'.size = 0x2000 := by cases sp' <;> simp_all [inSpace, Space.size]
      cases sp <;> simp_all [inSpace, winBase, Space.size]; omega
  | tile n y x =>
    have hyx := ht n y x rfl
    have hsz : sp.size = 0x2000 := by cases sp <;> simp_all [inSpace, Space.size]
    cases w' with
    | glob => cases sp' <;> simp_all [inSpace, winBase, Space.size]; omega
    | die m => cases sp' <;> simp_all [inSpace, winBase, Space.size]; omega
    | tile m y' x' =>
      have hyx' := ht' m y' x' rfl
      have hsz' : sp'.size = 0x2000 := by cases sp' <;> simp_all [inSpace, Space.size]
      simp only [winBase] at h
      obtain rfl : n = m := by omega
      obtain ⟨rfl, rfl⟩ : y = y' ∧ x = x' := by omega
      refine ⟨rfl, ?_⟩
      cases sp <;> cases sp' <;> simp_all [inSpace, Space.shares]

/-- R29: an address leads to one word only. -/
theorem Reg.Has.unique {r r' : Reg} {i i' k k' : Nat} {w w' : Win} (h : r.Has i w k) (h' : r'.Has i' w' k')
    (he : r.addr i w k = r'.addr i' w' k') : r = r' ∧ i = i' ∧ w = w' ∧ k = k' := by
  have ho := h.offset
  have ho' := h'.offset
  have hl := r.limit_le_size
  have hl' := r'.limit_le_size
  simp only [Reg.addr, Nat.add_assoc] at he
  obtain ⟨rfl, hsh⟩ := Win.eq_of_base he h.space h'.space (by omega) (by omega) h.tile h'.tile
  obtain rfl : r = r' := by
    by_contra hne
    have := Reg.clear_of_ne hne hsh
    omega
  have hk := h.word
  have hk' := h'.word
  have hi := h.index
  have hi' := h'.index
  have hii : i = i' := by
    by_contra hne
    have hw := r.words_le_stride (by omega)
    rcases Nat.lt_or_gt_of_ne hne with hlt | hlt
    · have := Nat.mul_le_mul_left r.info.stride (show i + 1 ≤ i' from hlt)
      rw [Nat.mul_add] at this
      omega
    · have := Nat.mul_le_mul_left r.info.stride (show i' + 1 ≤ i from hlt)
      rw [Nat.mul_add] at this
      omega
  subst hii
  exact ⟨rfl, rfl, rfl, by omega⟩

/-! ## The register at an address (R28, R29) -/

theorem Reg.aligned_all : (Reg.all.all fun r => decide (r.info.base % 4 = 0) && decide (r.info.stride % 4 = 0)) = true := by decide +kernel
theorem Reg.aligned (r : Reg) : r.info.base % 4 = 0 ∧ r.info.stride % 4 = 0 := by
  have hc := List.all_eq_true.mp Reg.aligned_all r r.mem_all
  simpa only [Bool.and_eq_true, decide_eq_true_eq] using hc

/-- A window of the module as it stands: the module's, a die's, a tile's. -/
def State.HasWin (s : State) : Win → Prop
  | .glob => True
  | .die d => d < 4
  | .tile d y x => d < 4 ∧ y < 24 ∧ x < s.cols

theorem RegDef.at_some {d : RegDef} {off i k : Nat} (h : d.at off = some (i, k)) (hoff : off % 4 = 0) (hb : d.base % 4 = 0)
    (hs : d.stride % 4 = 0) : i < d.count ∧ k < d.words ∧ off = d.base + d.stride * i + 4 * k := by
  unfold RegDef.at at h
  by_cases hlt : off < d.base
  · simp [hlt] at h
  · simp only [hlt, if_false] at h
    generalize hq : (if d.stride = 0 then 0 else (off - d.base) / d.stride) = q at h
    by_cases hik : q < d.count ∧ (off - d.base - q * d.stride) / 4 < d.words
    · obtain ⟨rfl, rfl⟩ : q = i ∧ (off - d.base - q * d.stride) / 4 = k := by simpa [hik] using h
      have hdiv : q * d.stride ≤ off - d.base := by
        rw [← hq]
        split
        · omega
        · exact Nat.div_mul_le_self ..
      have hmul : q * d.stride % 4 = 0 := by rw [Nat.mul_mod, hs, Nat.mul_zero, Nat.zero_mod]
      rw [Nat.mul_comm d.stride]
      exact ⟨hik.1, hik.2, by omega⟩
    · simp [hik] at h

theorem RegDef.at_addr {r : Reg} {i k : Nat} {w : Win} (h : r.Has i w k) :
    RegDef.at r.info (r.info.base + r.info.stride * i + 4 * k) = some (i, k) := by
  have hi := h.index
  have hk := h.word
  have hidx : (if r.info.stride = 0 then 0 else (r.info.stride * i + 4 * k) / r.info.stride) = i := by
    split
    · next h0 =>
      by_contra hne
      have := r.words_le_stride (by omega)
      omega
    · next h0 =>
      have := r.words_le_stride (.inl h0)
      rw [Nat.mul_add_div (by omega), Nat.div_eq_of_lt (by omega), Nat.add_zero]
  have hsub : r.info.base + r.info.stride * i + 4 * k - r.info.base = r.info.stride * i + 4 * k := by omega
  have hw : (r.info.stride * i + 4 * k - i * r.info.stride) / 4 = k := by rw [Nat.mul_comm i]; omega
  unfold RegDef.at
  rw [if_neg (by omega)]
  simp only [hsub, hidx, hw, hi, hk, and_self, if_true]

/-- A window that stands leads back to itself, with the offset in it. -/
theorem State.windowAt_base {s : State} {w : Win} {o : Nat} {sp : Space} (hw : s.HasWin w) (hs : inSpace sp w = true) (ho : o < sp.size)
    (h4 : o % 4 = 0) : s.windowAt (winBase w + o) = some (w, o) := by
  cases w with
  | glob =>
    have : sp.size = 0x1000000 := by cases sp <;> simp_all [inSpace, Space.size]
    rw [State.windowAt, winBase]
    rw [if_neg (by omega), if_pos (by omega), Nat.zero_add]
  | die d =>
    have : sp.size = 0x800000 := by cases sp <;> simp_all [inSpace, Space.size]
    have hd : d < 4 := hw
    rw [State.windowAt, winBase]
    rw [if_neg (by omega), if_neg (by omega), if_neg (by omega), if_pos (by omega)]
    congr 3 <;> omega
  | tile d y x =>
    have : sp.size = 0x2000 := by cases sp <;> simp_all [inSpace, Space.size]
    obtain ⟨hd, hy', hx⟩ := hw
    have hx' := s.cols_le
    rw [State.windowAt, winBase]
    have hy : (0x1000000 * (d + 1) + 0x800000 + (y * 32 + x) * 0x2000 + o) % 0x1000000 = 0x800000 + (y * 32 + x) * 0x2000 + o := by omega
    have ht : (0x800000 + (y * 32 + x) * 0x2000 + o - 0x800000) / 0x2000 = y * 32 + x := by omega
    rw [if_neg (by omega), if_neg (by omega), if_neg (by omega), hy, if_neg (by omega), ht]
    have hyx : (y * 32 + x) / 32 = y ∧ (y * 32 + x) % 32 = x := by omega
    have hn : (0x1000000 * (d + 1) + 0x800000 + (y * 32 + x) * 0x2000 + o) / 0x1000000 - 1 = d := by omega
    have hoff : (0x800000 + (y * 32 + x) * 0x2000 + o - 0x800000) % 0x2000 = o := by omega
    rw [hn, hoff]
    dsimp only
    rw [hyx.1, hyx.2]
    exact if_pos ⟨hy', hx⟩

theorem findSome?_eq_some_of_unique {α β : Type} {l : List α} {f : α → Option β} {a : α} {b : β} (ha : a ∈ l) (hb : f a = some b)
    (h : ∀ x ∈ l, f x ≠ none → x = a) : l.findSome? f = some b := by
  induction l with
  | nil => cases ha
  | cons x l ih =>
    rw [List.findSome?_cons]
    cases hx : f x with
    | none =>
      refine ih ?_ fun y hy => h y (List.mem_cons_of_mem _ hy)
      rcases List.mem_cons.mp ha with rfl | hal
      · rw [hx] at hb; cases hb
      · exact hal
    | some c =>
      obtain rfl := h x List.mem_cons_self (by simp [hx])
      rw [← hx, hb]

/-- R28: the address of a word leads to that word. -/
theorem State.locate_addr {s : State} {r : Reg} {i k : Nat} {w : Win} (h : r.Has i w k) (hw : s.HasWin w) (hu : r.indexUsed i = true) :
    s.locate (r.addr i w k) = some (r, i, w, k) := by
  have ho := h.offset
  have hl := r.limit_le_size
  have hmul : r.info.stride * i % 4 = 0 := by rw [Nat.mul_mod, r.aligned.2, Nat.zero_mul, Nat.zero_mod]
  have hb := r.aligned.1
  have haddr : r.addr i w k = winBase w + (r.info.base + r.info.stride * i + 4 * k) := by simp only [Reg.addr, Nat.add_assoc]
  rw [State.locate, haddr, State.windowAt_base hw h.space (by omega) (by omega)]
  refine findSome?_eq_some_of_unique r.mem_all (by simp only [h.space, RegDef.at_addr h, hu, if_true]) fun r' _ hne => ?_
  by_cases hs : inSpace r'.info.space w = true
  · simp only [hs, if_true] at hne
    cases hat : RegDef.at r'.info (r.info.base + r.info.stride * i + 4 * k) with
    | none => simp [hat] at hne
    | some p =>
      obtain ⟨i', k'⟩ := p
      obtain ⟨hi', hk', hoff⟩ := RegDef.at_some hat (by omega) r'.aligned.1 r'.aligned.2
      have h' : r'.Has i' w k' := ⟨hi', hk', hs, h.tile⟩
      exact (h'.unique h (by simp only [Reg.addr, Nat.add_assoc]; omega)).1
  · simp [hs] at hne

/-! ## Fields lie apart -/

/-- A field of instance `i` of its register stands in window `w`. -/
def Fld.In (f : Fld) (i : Nat) (w : Win) : Prop := ∀ k < f.wordCount, f.reg.Has i w (f.firstWord + k)

theorem Fld.in_glob {f : Fld} {i : Nat} (hi : i < f.reg.info.count) (hs : f.reg.info.space = .glob := by rfl)
    (hw : f.firstWord + f.wordCount ≤ f.reg.info.words := by decide) : f.In i .glob := fun k hk =>
  ⟨hi, by omega, by rw [hs]; rfl, by intro _ _ _ h; cases h⟩
theorem Fld.in_die {f : Fld} {i d : Nat} (hi : i < f.reg.info.count) (hs : f.reg.info.space = .die := by rfl)
    (hw : f.firstWord + f.wordCount ≤ f.reg.info.words := by decide) : f.In i (.die d) := fun k hk =>
  ⟨hi, by omega, by rw [hs]; rfl, by intro _ _ _ h; cases h⟩
theorem Fld.in_tile {f : Fld} {i d y x : Nat} (hi : i < f.reg.info.count) (hy : y < 32) (hx : x < 32)
    (hs : inSpace f.reg.info.space (.tile d y x) = true)
    (hw : f.firstWord + f.wordCount ≤ f.reg.info.words := by decide) : f.In i (.tile d y x) := fun k hk =>
  ⟨hi, by omega, hs, by intro _ _ _ h; cases h; exact ⟨hy, hx⟩⟩

/-- A write of a field leaves every word of another register, instance or window alone. -/
theorem State.word_wr_other {s : State} {f : Fld} {v i j k : Nat} {w w' : Win} {r : Reg} (hf : f.In i w) (hr : r.Has j w' k)
    (h : r ≠ f.reg ∨ j ≠ i ∨ w' ≠ w) : (s.wr f v i w).word r j w' k = s.word r j w' k := by
  refine s.word_wr_of_apart f v i w r j w' k fun a ha he => ?_
  obtain ⟨hreg, hi, hw, _⟩ := hr.unique (hf a ha) he
  rcases h with h | h | h
  · exact h hreg
  · exact h hi
  · exact h hw
/-- A write of a field leaves the fields of another register, instance or window alone. -/
theorem State.rd_wr_other {s : State} {f g : Fld} {v i j : Nat} {w w' : Win} (hf : f.In i w) (hg : g.In j w')
    (h : g.reg ≠ f.reg ∨ j ≠ i ∨ w' ≠ w) : (s.wr f v i w).rd g j w' = s.rd g j w' := by
  unfold State.rd
  rw [State.span_congr _ _ _ _ _ _ _ fun b hb => State.word_wr_other hf (hg b hb) h]

/-- Whether two fields at known places share no word, or share words and no bit. -/
def Fld.apart (f : Fld) (i : Nat) (w : Win) (g : Fld) (j : Nat) (w' : Win) : Bool :=
  (List.range f.wordCount).all (fun a => (List.range g.wordCount).all (fun b =>
    decide (g.reg.addr j w' (g.firstWord + b) ≠ f.reg.addr i w (f.firstWord + a)))) ||
  (decide (g.reg = f.reg) && decide (j = i) && decide (w' = w) && decide (g.firstWord = f.firstWord) && decide (g.wordCount = f.wordCount) &&
    (decide (f.lo % 32 + f.w ≤ g.lo % 32) || decide (g.lo % 32 + g.w ≤ f.lo % 32)))
theorem State.rd_wr_apart (s : State) {f g : Fld} (v : Nat) {i j : Nat} {w w' : Win} (h : f.apart i w g j w' = true) :
    (s.wr f v i w).rd g j w' = s.rd g j w' := by
  simp only [Fld.apart, Bool.or_eq_true, Bool.and_eq_true, List.all_eq_true, List.mem_range, decide_eq_true_eq] at h
  rcases h with h | ⟨⟨⟨⟨⟨hr, rfl⟩, rfl⟩, h1⟩, h2⟩, hb⟩
  · exact s.rd_wr_of_apart _ _ _ _ _ _ _ h
  · exact s.rd_wr_same_words _ _ _ _ _ hr h1 h2 hb
/-- A flag after a write of its field. -/
theorem State.flag_wr_self (s : State) (f : Fld) (v i : Nat) (w : Win) : (s.wr f v i w).flag f i w = decide (v % 2 ^ f.w = 1) := by
  rw [State.flag, State.rd_wr_self]
theorem State.flag_wr_apart (s : State) {f g : Fld} (v : Nat) {i j : Nat} {w w' : Win} (h : f.apart i w g j w' = true) :
    (s.wr f v i w).flag g j w' = s.flag g j w' := by
  rw [State.flag, State.rd_wr_apart s v h, State.flag]
theorem State.flag_congr_rd {s t : State} {f : Fld} {i : Nat} {w : Win} (h : t.rd f i w = s.rd f i w) : t.flag f i w = s.flag f i w := by
  rw [State.flag, h, State.flag]

/-- Whether two fields of one register share words and no bit. -/
def Fld.beside (f g : Fld) : Bool :=
  decide (g.reg = f.reg) && decide (g.firstWord = f.firstWord) && decide (g.wordCount = f.wordCount) &&
    (decide (f.lo % 32 + f.w ≤ g.lo % 32) || decide (g.lo % 32 + g.w ≤ f.lo % 32))
theorem State.rd_wr_beside {s : State} {f g : Fld} {v i : Nat} {w : Win} (h : f.beside g = true := by decide) :
    (s.wr f v i w).rd g i w = s.rd g i w := by
  simp only [Fld.beside, Bool.or_eq_true, Bool.and_eq_true, decide_eq_true_eq] at h
  obtain ⟨⟨⟨hr, h1⟩, h2⟩, hb⟩ := h
  exact s.rd_wr_same_words _ _ _ _ _ hr h1 h2 hb
/-- A field holds what was written where that fits. -/
theorem State.rd_wr_fits {s : State} {f : Fld} {v i : Nat} {w : Win} (h : v < 2 ^ f.w) : (s.wr f v i w).rd f i w = v := by
  rw [State.rd_wr_self, Nat.mod_eq_of_lt h]

/-! ## Writes of registers (R28, R478) -/

/-- A write that reaches word `k` of a register, with `g` what the register does with it. -/
theorem State.applyWrite_of_writes {s : State} {path : Path} {a v : Nat} {r : Reg} {i k : Nat} {w : Win} (h : s.writes path a v r i w k)
    {g : Bool × State} (hg : s.writeReg path r i w k (v % 2 ^ 32)
      (writtenWord s.host.isSealed r k (v % 2 ^ 32) (s.word r i w k).toNat) = g) :
    s.applyWrite path a v = if g.1 then (.applied, if settles r && (dieOf a).isNone && decide (s.modState ≠ 1) && !s.starting then
      g.2.journalReg a (if r = .TENANT_BUDGET then v % 2 ^ 32 else (g.2.word r i w k).toNat) else g.2) else (.refused 0, g.2) := by
  obtain ⟨_, hloc, hmay, hopen, hdie, hwake, href⟩ := h
  simp only [State.applyWrite, hloc, hmay, hopen, hdie, hwake, href, hg, Bool.not_true, Bool.or_self, Bool.false_eq_true, if_false]

/-- The reply to a write that the register takes, when the journal does not hold it. -/
theorem State.doWrite_of_taken {s t : State} {path : Path} {a v : Nat} {r : Reg} {i k : Nat} {w : Win} (h : s.writes path a v r i w k)
    (hg : s.writeReg path r i w k (v % 2 ^ 32) (writtenWord s.host.isSealed r k (v % 2 ^ 32) (s.word r i w k).toNat) = (true, t))
    (hs : (settles r && (dieOf a).isNone && decide (s.modState ≠ 1) && !s.starting) = false) :
    s.doWrite path a v = t.writeReply path a true 0 := by
  simp only [State.doWrite, h.1, State.applyWrite_of_writes h hg, hs, if_true, if_false, Bool.false_eq_true]
theorem State.doWrite_of_refused {s t : State} {path : Path} {a v : Nat} {r : Reg} {i k : Nat} {w : Win} (h : s.writes path a v r i w k)
    (hg : s.writeReg path r i w k (v % 2 ^ 32) (writtenWord s.host.isSealed r k (v % 2 ^ 32) (s.word r i w k).toNat) = (false, t)) :
    s.doWrite path a v = t.writeReply path a false 0 := by
  simp only [State.doWrite, h.1, State.applyWrite_of_writes h hg, if_false, Bool.false_eq_true]

/-- R441: below 0x30000 every block answers but in a retired module. -/
theorem State.blockOpen_of_lt {s : State} (path : Path) {a : Nat} (hlc : s.lc ≠ .retired) (ha : a < 0x30000) :
    s.blockOpen path a = true := by
  simp [State.blockOpen, hlc, ha]
/-- R32, R404: only the windows of dies are closed by their power state, or wake them. -/
theorem State.dieCloses_glob {s : State} {a : Nat} (ha : a < 0x1000000) : s.dieCloses a = none := by
  simp [State.dieCloses, dieOf, ha]
theorem State.wakeFor_glob {s : State} {a : Nat} (ha : a < 0x1000000) : s.wakeFor a = s := by
  simp [State.wakeFor, dieOf, ha]
/-- A write below 0x30000 that the path may do reaches its register. -/
theorem State.writes_low {s : State} {path : Path} {a v : Nat} {r : Reg} {i k : Nat} {w : Win} (hd : s.dark = false) (hlc : s.lc ≠ .retired)
    (hloc : s.locate a = some (r, i, w, k)) (hmay : s.mayWrite path a r = true) (ha : a < 0x30000)
    (href : s.writeRefused r i w k (v % 2 ^ 32) = false) : s.writes path a v r i w k :=
  ⟨hd, hloc, hmay, s.blockOpen_of_lt path hlc ha, State.dieCloses_glob (by omega), State.wakeFor_glob (by omega), href⟩

theorem Reg.has_glob {r : Reg} {i k : Nat} (hi : i < r.info.count) (hk : k < r.info.words) (hs : r.info.space = .glob := by rfl) :
    r.Has i .glob k := ⟨hi, hk, by rw [hs]; rfl, by nofun⟩
theorem Reg.has_die {r : Reg} {i k d : Nat} (hi : i < r.info.count) (hk : k < r.info.words) (hs : r.info.space = .die := by rfl) :
    r.Has i (.die d) k := ⟨hi, hk, by rw [hs]; rfl, by nofun⟩
theorem Reg.has_tile {r : Reg} {i k d y x : Nat} (hi : i < r.info.count) (hk : k < r.info.words) (hy : y < 32) (hx : x < 32)
    (hs : inSpace r.info.space (.tile d y x) = true) : r.Has i (.tile d y x) k :=
  ⟨hi, hk, hs, by intro _ _ _ h; cases h; exact ⟨hy, hx⟩⟩

/-! ## Fields after a choice and after a fold -/

theorem State.rd_of_ite {c : Prop} [Decidable c] {s t u : State} {f : Fld} {i : Nat} {w : Win} (hs : s.rd f i w = u.rd f i w)
    (ht : t.rd f i w = u.rd f i w) : (if c then s else t).rd f i w = u.rd f i w := by
  split
  · exact hs
  · exact ht
theorem State.rd_of_foldl {β : Type} {g : State → β → State} {l : List β} {f : Fld} {i : Nat} {w : Win} (s : State)
    (h : ∀ t, ∀ b ∈ l, (g t b).rd f i w = t.rd f i w) : (l.foldl g s).rd f i w = s.rd f i w := by
  induction l generalizing s with
  | nil => rfl
  | cons b l ih =>
    rw [List.foldl_cons, ih _ fun t c hc => h t c (List.mem_cons_of_mem _ hc)]
    exact h s b List.mem_cons_self

/-! Fields after an update of another part of the state. -/

section
variable (s : State) (f : Fld) (i : Nat) (w : Win)
@[simp] theorem State.rd_with_boot (b : Boot) : ({ s with boot := b } : State).rd f i w = s.rd f i w := State.rd_congr (s := s) (by rfl) f i w
@[simp] theorem State.rd_slewTo (d p : Nat) : (s.slewTo d p).rd f i w = s.rd f i w := State.rd_congr (s := s) (by rfl) f i w
end

/-! Words after several updates. -/

section
variable {s t u : State} {as bs : List Nat}
theorem State.regsBut.refl : s.regsBut s as := fun _ _ _ _ _ => rfl
theorem State.regsBut.trans (h : s.regsBut t as) (k : t.regsBut u as) : s.regsBut u as := fun r i w n ha => (k r i w n ha).trans (h r i w n ha)
theorem State.regsBut.mono (h : s.regsBut t as) (hs : as ⊆ bs) : s.regsBut t bs := fun r i w n ha => h r i w n fun hm => ha (hs hm)
theorem State.regsBut.of_regs (h : s.regsBut t as) (e : u.regs = t.regs) : s.regsBut u as := fun r i w n ha => by
  rw [← h r i w n ha, State.word, State.word, e]
theorem State.regsBut.wr (h : s.regsBut t as) {f : Fld} {v i : Nat} {w : Win} (hf : f.words i w ⊆ as) : s.regsBut (t.wr f v i w) as :=
  h.trans (t.regsBut_wr hf v)
theorem State.regsBut.setBoot (h : s.regsBut t as) {b : Boot} : s.regsBut { t with boot := b } as := h.of_regs rfl
theorem State.regsBut.ite {c : Prop} [Decidable c] (h : s.regsBut t as) (k : s.regsBut u as) : s.regsBut (if c then t else u) as :=
  of_ite (P := fun v => s.regsBut v as) h k
end

/-- Two states that agree in every part are the same state. -/
theorem State.eq_of_only {s t u : State} {may : List Part} (h : s.only may t) (hu : s.only may u) (hp : ∀ p ∈ may, t.agrees u p) : u = t := by
  have ha : ∀ p, t.agrees u p := fun p => by
    by_cases hm : p ∈ may
    · exact hp p hm
    · have h1 := h.agrees p hm
      have h2 := hu.agrees p hm
      cases p <;> exact Eq.trans h2 (Eq.symm h1)
  have hnow := hu.now.trans h.now.symm
  have hpend := hu.pending.trans h.pending.symm
  have h1 : u.out = t.out := ha .out
  have h2 : u.fresh = t.fresh := ha .fresh
  have h3 : u.regs = t.regs := ha .regs
  have h4 : u.latches = t.latches := ha .latches
  have h5 : u.fuses = t.fuses := ha .fuses
  have h6 : u.arr = t.arr := ha .arr
  have h7 : u.strm = t.strm := ha .strm
  have h8 : u.mas = t.mas := ha .mas
  have h9 : u.err = t.err := ha .err
  have h10 : u.host = t.host := ha .host
  have h11 : u.link = t.link := ha .link
  have h12 : u.wts = t.wts := ha .wts
  have h13 : u.stew = t.stew := ha .stew
  have h14 : u.jr = t.jr := ha .jr
  have h15 : u.boot = t.boot := ha .boot
  cases u
  cases t
  congr

end Sys2Proof.Machine
end

section
/-!
PROOF. The registers that an operation writes lie at or above an address, and every word below it stands. The module's own state, its
power, its pins, its boot and its tests have their registers lowest (R29), so that little reaches them.
-/
namespace Sys2Proof.Machine

set_option Elab.async false

/-- From `s` to `t` no register word below address `lim` has changed. -/
def State.above (s : State) (lim : Nat) (t : State) : Prop := ∀ r i w k, Reg.addr r i w k < lim → t.word r i w k = s.word r i w k

section
variable {s₀ s t u : State} {lim : Nat}

theorem State.above.refl : s.above lim s := fun _ _ _ _ _ => rfl
theorem State.above.trans (h : s.above lim t) (k : t.above lim u) : s.above lim u := fun r i w n ha => (k r i w n ha).trans (h r i w n ha)
theorem State.above.mono {c : Nat} (h : s.above c t) (hb : lim ≤ c) : s.above lim t := fun r i w n ha => h r i w n (Nat.lt_of_lt_of_le ha hb)
theorem State.above.of_regs (hs : s₀.above lim s) (h : t.regs = s.regs) : s₀.above lim t := fun r i w n ha => by
  rw [← hs r i w n ha, State.word, State.word, h]
theorem State.above.rd (h : s.above lim t) (f : Fld) (i : Nat) (w : Win) (hf : ∀ a ∈ f.words i w, a < lim := by decide) :
    t.rd f i w = s.rd f i w := by
  unfold State.rd
  rw [State.span_congr t s _ _ _ _ _ fun k hk => h _ _ _ _ (hf _ (List.mem_map.mpr ⟨k, List.mem_range.mpr hk, rfl⟩))]
theorem State.above.flag (h : s.above lim t) (f : Fld) (i : Nat) (w : Win) (hf : ∀ a ∈ f.words i w, a < lim := by decide) :
    t.flag f i w = s.flag f i w := by
  rw [State.flag, h.rd f i w hf, State.flag]
theorem State.above.modState (h : s.above lim t) (hb : 12 ≤ lim := by decide) : t.modState = s.modState :=
  (h.mono hb).rd F.MODULE_STATE_STATE 0 .glob

/-- A write of a field writes no word below the field's register. -/
theorem State.above.wr {f : Fld} {v i : Nat} {w : Win} (hs : s₀.above lim s) (hb : lim ≤ winBase w + f.reg.info.base := by decide) :
    s₀.above lim (s.wr f v i w) := hs.trans fun r j w' k ha => s.word_wr_of_apart f v i w r j w' k fun a _ he => by
  rw [he] at ha
  unfold Reg.addr at ha
  omega
theorem State.above.setWord {r : Reg} {i k : Nat} {w : Win} {v : Word} (hs : s₀.above lim s)
    (hb : lim ≤ winBase w + r.info.base := by decide) : s₀.above lim (s.setWord r i w k v) := hs.trans fun r' j w' k' ha =>
  s.word_setWord_of_ne r r' i j w w' k k' v fun he => by
    rw [he] at ha
    unfold Reg.addr at ha
    omega
theorem State.above.wrFlag {f : Fld} {v : Bool} {i : Nat} {w : Win} (hs : s₀.above lim s) (hb : lim ≤ winBase w + f.reg.info.base := by decide) :
    s₀.above lim (s.wrFlag f v i w) := hs.wr hb
theorem State.above.bump {f : Fld} {n i : Nat} {w : Win} (hs : s₀.above lim s) (hb : lim ≤ winBase w + f.reg.info.base := by decide) :
    s₀.above lim (s.bump f n i w) := hs.wr hb
theorem State.above.bumpSat {f : Fld} {i : Nat} {w : Win} (hs : s₀.above lim s) (hb : lim ≤ winBase w + f.reg.info.base := by decide) :
    s₀.above lim (s.bumpSat f i w) := hs.wr hb
theorem State.above.orBits {f : Fld} {v i : Nat} {w : Win} (hs : s₀.above lim s) (hb : lim ≤ winBase w + f.reg.info.base := by decide) :
    s₀.above lim (s.orBits f v i w) := hs.wr hb

/-- The windows of dies and of their tiles lie above the module's own registers. -/
theorem Win.base_of_die {w : Win} (hw : w ≠ .glob) : 0x1000000 ≤ winBase w := by
  cases w with
  | glob => exact absurd rfl hw
  | die n => exact Nat.le_mul_of_pos_right _ (Nat.succ_pos n)
  | tile n y x => exact Nat.le_trans (Nat.le_mul_of_pos_right _ (Nat.succ_pos n)) (Nat.le_trans (Nat.le_add_right ..) (Nat.le_add_right ..))
section
variable {f : Fld} {v i : Nat} {w : Win} (hs : s₀.above lim s) (hb : lim ≤ 0x1000000 := by decide) (hw : w ≠ .glob := by nofun)
include hs hb hw
theorem State.above.wrDie : s₀.above lim (s.wr f v i w) := hs.wr (Nat.le_trans hb (Nat.le_trans (Win.base_of_die hw) (Nat.le_add_right ..)))
theorem State.above.setWordDie {r : Reg} {k : Nat} {x : Word} : s₀.above lim (s.setWord r i w k x) :=
  hs.setWord (Nat.le_trans hb (Nat.le_trans (Win.base_of_die hw) (Nat.le_add_right ..)))
theorem State.above.wrFlagDie {x : Bool} : s₀.above lim (s.wrFlag f x i w) := hs.wrDie hb hw
theorem State.above.bumpDie : s₀.above lim (s.bump f v i w) := hs.wrDie hb hw
theorem State.above.bumpSatDie : s₀.above lim (s.bumpSat f i w) := hs.wrDie hb hw
theorem State.above.orBitsDie : s₀.above lim (s.orBits f v i w) := hs.wrDie hb hw
end

theorem State.above.same {out : List Out} {fresh : Nat} {latches : List (Path × Nat × Word)} {fuses : Fuses} {arr : Arr}
    {strm : Strm} {mas : Mas} {err : Err} {host : HostSt} {link : LinkSt} {wts : Wts} {stew : Stew} {jr : Jr} {boot : Boot}
    (hs : s₀.above lim s) : s₀.above lim { s with
      out := out, fresh := fresh, latches := latches, fuses := fuses, arr := arr, strm := strm, mas := mas, err := err
      host := host, link := link, wts := wts, stew := stew, jr := jr, boot := boot } := hs.of_regs rfl

/-- The same of an operation that answers a state with something else, or may answer none. -/
def State.aboveFst {α : Type} (s : State) (lim : Nat) (p : State × α) : Prop := s.above lim p.1
def State.aboveSnd {α : Type} (s : State) (lim : Nat) (p : α × State) : Prop := s.above lim p.2
def State.aboveSome (s : State) (lim : Nat) (o : Option State) : Prop := ∀ t, o = some t → s.above lim t
def State.aboveSomeFst {α : Type} (s : State) (lim : Nat) (o : Option (State × α)) : Prop := ∀ t x, o = some (t, x) → s.above lim t
def State.aboveSomeSnd {α : Type} (s : State) (lim : Nat) (o : Option (α × State)) : Prop := ∀ x t, o = some (x, t) → s.above lim t

def State.abovePage (s : State) (lim : Nat) : PageDo → Prop
  | .done t => s.above lim t
  | .pending t => s.above lim t
  | _ => True
def State.aboveRead (s : State) (lim : Nat) : EndRead → Prop
  | .bytes _ t => s.above lim t
  | .wait t => s.above lim t
  | .fault => True

/-! An operation known to leave what lies below `c` alone leaves what lies below a lower address alone. -/

theorem State.above.step (c : Nat) (hs : s₀.above lim s) (h : ∀ {s₀ : State}, s₀.above c s → s₀.above c t) (hq : lim ≤ c) : s₀.above lim t :=
  hs.trans ((h (s₀ := s) .refl).mono hq)
section
variable {α : Type}
theorem State.above.stepFst {p : State × α} (c : Nat) (hs : s₀.above lim s) (h : ∀ {s₀ : State}, s₀.above c s → s₀.aboveFst c p)
    (hq : lim ≤ c) : s₀.aboveFst lim p := hs.trans (State.above.mono (h (s₀ := s) .refl) hq)
theorem State.above.stepSnd {p : α × State} (c : Nat) (hs : s₀.above lim s) (h : ∀ {s₀ : State}, s₀.above c s → s₀.aboveSnd c p)
    (hq : lim ≤ c) : s₀.aboveSnd lim p := hs.trans (State.above.mono (h (s₀ := s) .refl) hq)
theorem State.above.stepSome {o : Option State} (c : Nat) (hs : s₀.above lim s) (h : ∀ {s₀ : State}, s₀.above c s → s₀.aboveSome c o)
    (hq : lim ≤ c) : s₀.aboveSome lim o := fun t e => hs.trans ((h (s₀ := s) .refl t e).mono hq)
theorem State.above.stepSomeFst {o : Option (State × α)} (c : Nat) (hs : s₀.above lim s)
    (h : ∀ {s₀ : State}, s₀.above c s → s₀.aboveSomeFst c o) (hq : lim ≤ c) : s₀.aboveSomeFst lim o :=
  fun t x e => hs.trans ((h (s₀ := s) .refl t x e).mono hq)
theorem State.above.stepSomeSnd {o : Option (α × State)} (c : Nat) (hs : s₀.above lim s)
    (h : ∀ {s₀ : State}, s₀.above c s → s₀.aboveSomeSnd c o) (hq : lim ≤ c) : s₀.aboveSomeSnd lim o :=
  fun x t e => hs.trans ((h (s₀ := s) .refl x t e).mono hq)
end

/-! The forms in which operations are written: a choice, a fold, an option. -/

theorem State.above.foldl {β : Type} {l : List β} {f : State → β → State} (h : s₀.above lim s)
    (hf : ∀ t e, s₀.above lim t → s₀.above lim (f t e)) : s₀.above lim (l.foldl f s) := by
  induction l generalizing s with
  | nil => exact h
  | cons e l ih => exact ih (hf s e h)

section
variable {α : Type} {x : α} {c : Prop} [Decidable c]
theorem State.above.ite (hs : s₀.above lim s) (ht : s₀.above lim t) : s₀.above lim (if c then s else t) := of_ite hs ht
theorem State.aboveFst.ite {p q : State × α} (hp : s₀.aboveFst lim p) (hq : s₀.aboveFst lim q) : s₀.aboveFst lim (if c then p else q) := of_ite hp hq
theorem State.aboveSnd.ite {p q : α × State} (hp : s₀.aboveSnd lim p) (hq : s₀.aboveSnd lim q) : s₀.aboveSnd lim (if c then p else q) := of_ite hp hq
theorem State.aboveSome.ite {o o' : Option State} (h : s₀.aboveSome lim o) (h' : s₀.aboveSome lim o') :
    s₀.aboveSome lim (if c then o else o') := of_ite h h'
theorem State.aboveSomeFst.ite {o o' : Option (State × α)} (h : s₀.aboveSomeFst lim o) (h' : s₀.aboveSomeFst lim o') :
    s₀.aboveSomeFst lim (if c then o else o') := of_ite h h'
theorem State.aboveSomeSnd.ite {o o' : Option (α × State)} (h : s₀.aboveSomeSnd lim o) (h' : s₀.aboveSomeSnd lim o') :
    s₀.aboveSomeSnd lim (if c then o else o') := of_ite h h'
theorem State.aboveFst.of_eq {p : State × α} (h : s₀.aboveFst lim p) (e : p = (t, x)) : s₀.above lim t := by subst e; exact h
theorem State.aboveSnd.of_eq {p : α × State} (h : s₀.aboveSnd lim p) (e : p = (x, t)) : s₀.above lim t := by subst e; exact h
theorem State.above.someFst (h : s₀.above lim t) : s₀.aboveSomeFst lim (some (t, x)) := by
  rintro _ _ ⟨⟩
  exact h
theorem State.above.someSnd (h : s₀.above lim t) : s₀.aboveSomeSnd lim (some (x, t)) := by
  rintro _ _ ⟨⟩
  exact h
theorem State.aboveSomeFst.none : s₀.aboveSomeFst lim (none : Option (State × α)) := fun _ _ e => nomatch e
theorem State.aboveSomeSnd.none : s₀.aboveSomeSnd lim (none : Option (α × State)) := fun _ _ e => nomatch e
end

theorem State.above.some (h : s₀.above lim t) : s₀.aboveSome lim (some t) := by
  rintro _ ⟨⟩
  exact h
theorem State.aboveSome.none : s₀.aboveSome lim none := fun _ e => nomatch e
theorem State.aboveSome.getD {o : Option State} (h : s₀.aboveSome lim o) (ht : s₀.above lim t) : s₀.above lim (o.getD t) := by
  cases o with
  | none => exact ht
  | some t' => exact h t' rfl
theorem State.aboveSome.map {o : Option State} {f : State → State} (h : s₀.aboveSome lim o) (hf : ∀ t, s₀.above lim t → s₀.above lim (f t)) :
    s₀.aboveSome lim (o.map f) := by
  cases o with
  | none => exact .none
  | some t => exact (hf t (h t rfl)).some
theorem State.above.stepPage {r : PageDo} (c : Nat) (hs : s₀.above lim s) (h : ∀ {s₀ : State}, s₀.above c s → s₀.abovePage c r)
    (hq : lim ≤ c) : s₀.abovePage lim r := by
  have hr := h (s₀ := s) .refl
  cases r with
  | done t => exact hs.trans (State.above.mono hr hq)
  | pending t => exact hs.trans (State.above.mono hr hq)
  | _ => trivial
theorem State.above.stepRead {r : EndRead} (c : Nat) (hs : s₀.above lim s) (h : ∀ {s₀ : State}, s₀.above c s → s₀.aboveRead c r)
    (hq : lim ≤ c) : s₀.aboveRead lim r := by
  have hr := h (s₀ := s) .refl
  cases r with
  | bytes lim t => exact hs.trans (State.above.mono hr hq)
  | wait t => exact hs.trans (State.above.mono hr hq)
  | fault => trivial
theorem State.abovePage.ite {c : Prop} [Decidable c] {r r' : PageDo} (h : s₀.abovePage lim r) (h' : s₀.abovePage lim r') :
    s₀.abovePage lim (if c then r else r') := of_ite h h'
theorem State.aboveRead.ite {c : Prop} [Decidable c] {r r' : EndRead} (h : s₀.aboveRead lim r) (h' : s₀.aboveRead lim r') :
    s₀.aboveRead lim (if c then r else r') := of_ite h h'
theorem State.above.donePage (h : s₀.above lim t) : s₀.abovePage lim (.done t) := h
theorem State.above.pendingPage (h : s₀.above lim t) : s₀.abovePage lim (.pending t) := h
theorem State.abovePage.blocked : s₀.abovePage lim .blocked := trivial
theorem State.abovePage.fail {st : Nat} : s₀.abovePage lim (.fail st) := trivial
theorem State.above.readBytes {bs : List Byte} (h : s₀.above lim t) : s₀.aboveRead lim (.bytes bs t) := h
theorem State.above.readWait (h : s₀.above lim t) : s₀.aboveRead lim (.wait t) := h
theorem State.aboveRead.fault : s₀.aboveRead lim .fault := trivial
theorem State.aboveRead.of_wait {r : EndRead} (h : s₀.aboveRead lim r) (e : r = .wait t) : s₀.above lim t := by subst e; exact h
theorem State.aboveRead.of_bytes {r : EndRead} {bs : List Byte} (h : s₀.aboveRead lim r) (e : r = .bytes bs t) : s₀.above lim t := by
  subst e; exact h
theorem State.abovePage.of_done {r : PageDo} (h : s₀.abovePage lim r) (e : r = .done t) : s₀.above lim t := by subst e; exact h
theorem State.abovePage.of_pending {r : PageDo} (h : s₀.abovePage lim r) (e : r = .pending t) : s₀.above lim t := by subst e; exact h

theorem State.above.setSpan {r : Reg} {i k v n : Nat} {w : Win} (hs : s₀.above lim s)
    (hb : lim ≤ winBase w + r.info.base := by decide) : s₀.above lim (s.setSpan r i w k v n) := by
  induction n generalizing s k v with
  | zero => exact hs
  | succ n ih => exact ih (hs.setWord hb)

/-! The lowest register that each operation of the model writes. -/

theorem State.above.emit {o : Out} (hs : s₀.above lim s) : s₀.above lim (s.emit o) :=
  hs.of_regs (State.only.emit (.refl (may := [.out]))).regs

theorem State.above.useFree (hs : s₀.above lim s) : s₀.aboveSnd lim (s.useFree) :=
  hs.of_regs (State.only.regs (State.only.useFree (.refl (may := [.fresh]))))

theorem State.above.setErr {k : Nat} {v : ErrRec} (hs : s₀.above lim s) : s₀.above lim (s.setErr k v) :=
  hs.of_regs (State.only.setErr (.refl (may := [.err]))).regs

theorem State.above.errStatus {r : Nat} (hs : s₀.above lim s) (hb : lim ≤ 0x40010 := by decide) :
    s₀.above lim (s.errStatus r) := by
  refine hs.step 0x40010 (fun {s₀} hs => ?_) hb
  delta State.errStatus
  extract_lets used
  exact hs.wr.wrFlag.wr

theorem State.above.announce {cls key : Nat} (hs : s₀.above lim s) : s₀.above lim (s.announce cls key) :=
  hs.of_regs (State.only.announce (.refl (may := [.out, .err, .host]))).regs

theorem State.above.placeErr {d : ErrRec} (hs : s₀.above lim s) (hb : lim ≤ 0x40010 := by decide) :
    s₀.above lim (s.placeErr d) := by
  refine hs.step 0x40010 (fun {s₀} hs => ?_) hb
  delta State.placeErr
  extract_lets r wr d' k v f v' k'
  have hf : s₀.aboveSnd 0x40010 f := hs.useFree
  refine .ite hs.setErr.wr.wr.errStatus.announce ?_
  split
  · split
    · extract_lets v''
      exact hs.setErr.wr.announce
    · exact hs
  · exact hf.setErr.orBits.wr.errStatus.announce

theorem State.above.detect {d : ErrRec} (hs : s₀.above lim s) (hb : lim ≤ 0x40010 := by decide) :
    s₀.above lim (s.detect d) := by
  refine hs.step 0x40010 (fun {s₀} hs => ?_) hb
  delta State.detect
  extract_lets again d' s1 src s2
  have hs1 : s₀.above 0x40010 s1 := hs.bump
  have hs2 : s₀.above 0x40010 s2 := hs1.same
  exact hs2.placeErr

theorem State.above.powerEvent {kind unit v0 v1 : Nat} (hs : s₀.above lim s) : s₀.above lim (s.powerEvent kind unit v0 v1) :=
  hs.of_regs (State.only.powerEvent (.refl (may := [.out, .host]))).regs

theorem State.above.setPort {p : Nat} {v : Port} (hs : s₀.above lim s) : s₀.above lim (s.setPort p v) :=
  hs.of_regs (State.only.setPort (.refl (may := [.link]))).regs

theorem State.above.sendOne {p : Nat} (hs : s₀.above lim s) (hb : lim ≤ 0x300400 := by decide) :
    s₀.aboveSome lim (s.sendOne p) := by
  refine hs.stepSome 0x300400 (fun {s₀} hs => ?_) hb
  delta State.sendOne
  extract_lets v can lack
  refine .ite ?_ (.none)
  split
  · exact .none
  · split
    · exact .none
    · extract_lets v'
      exact hs.setPort.bump.emit.some

theorem State.above.pumpN {p n : Nat} (hs : s₀.above lim s) (hb : lim ≤ 0x300400 := by decide) :
    s₀.above lim (s.pumpN p n) := by
  refine hs.step 0x300400 (fun {s₀} hs => ?_) hb
  clear hb
  rename_i hs₁
  clear hs₁
  induction n generalizing s with
  | zero => exact hs
  | succ n ih =>
    unfold State.pumpN
    split
    · next s1 es1 => exact ih ((hs.sendOne) _ es1)
    · exact hs

theorem State.above.pump {p : Nat} (hs : s₀.above lim s) (hb : lim ≤ 0x300400 := by decide) :
    s₀.above lim (s.pump p) :=
  hs.step 0x300400 (fun hs => hs.pumpN) hb

theorem State.above.enqueue {fs : List (Nat × Flit)} (hs : s₀.above lim s) (hb : lim ≤ 0x300400 := by decide) :
    s₀.above lim (s.enqueue fs) := by
  refine hs.step 0x300400 (fun {s₀} hs => ?_) hb
  delta State.enqueue
  extract_lets s1
  have hs1 : s₀.above 0x300400 s1 := hs.foldl (fun s e hs => hs.setPort)
  exact hs1.foldl (fun s p hs => .ite hs.pump hs)

theorem State.above.setTx {k : Nat} {v : TxFlow} (hs : s₀.above lim s) : s₀.above lim (s.setTx k v) :=
  hs.of_regs (State.only.setTx (.refl (may := [.link]))).regs

theorem State.above.spray {dst vc : Nat} {bytes : List Byte} (hs : s₀.above lim s) (hb : lim ≤ 0x300400 := by decide) :
    s₀.above lim (s.spray dst vc bytes) := by
  refine hs.step 0x300400 (fun {s₀} hs => ?_) hb
  delta State.spray
  extract_lets ps k t fl ports pairs src s1 sent
  have hs1 : s₀.above 0x300400 s1 := .ite hs hs.same
  exact hs1.setTx.enqueue

theorem State.above.sendMsg {dst ty ref : Nat} {arg body : List Byte} (hs : s₀.above lim s) (hb : lim ≤ 0x300400 := by decide) :
    s₀.above lim (s.sendMsg dst ty ref arg body) := by
  refine hs.step 0x300400 (fun {s₀} hs => ?_) hb
  delta State.sendMsg
  extract_lets src vc b s1 src'
  have hs1 : s₀.above 0x300400 s1 := hs.emit
  exact .ite hs.same (.ite hs.emit (.ite hs1.same hs1.spray))

theorem State.above.setJState {v : Nat} (hs : s₀.above lim s) (hb : lim ≤ 0x40001C := by decide) :
    s₀.above lim (s.setJState v) :=
  hs.step 0x40001C (fun hs => hs.wr) hb

theorem State.above.sendRecords {dst ty : Nat} {rs : List JRec} (hs : s₀.above lim s) (hb : lim ≤ 0x300400 := by decide) :
    s₀.above lim (s.sendRecords dst ty rs) := by
  refine hs.step 0x300400 (fun {s₀} hs => ?_) hb
  delta State.sendRecords
  extract_lets s1 mark src
  have hs1 : s₀.above 0x300400 s1 := hs.sendMsg
  exact hs1.same

theorem State.above.journalError {kind : Nat} (hs : s₀.above lim s) (hb : lim ≤ 0x40010 := by decide) :
    s₀.above lim (s.journalError kind) := by
  refine hs.step 0x40010 (fun {s₀} hs => ?_) hb
  delta State.journalError
  extract_lets s1 src
  have hs1 : s₀.above 0x40010 s1 := hs.detect
  exact hs1.same

theorem State.above.askFirst {p : Nat} (hs : s₀.above lim s) (hb : lim ≤ 0x300400 := by decide) :
    s₀.above lim (s.askFirst p) := by
  refine hs.step 0x300400 (fun {s₀} hs => ?_) hb
  delta State.askFirst
  extract_lets s1 src
  have hs1 : s₀.above 0x300400 s1 := hs.sendMsg
  exact hs1.same

theorem State.above.startPairing (hs : s₀.above lim s) (hb : lim ≤ 0x40010 := by decide) :
    s₀.above lim (s.startPairing) := by
  refine hs.step 0x40010 (fun {s₀} hs => ?_) hb
  delta State.startPairing
  extract_lets s1
  have hs1 : s₀.above 0x40010 s1 := hs.setJState
  refine .ite ?_ hs
  split
  · exact .ite hs1.journalError hs1.askFirst
  · exact hs

theorem State.above.faultFrom {old : Machine.State} (hs : s₀.above lim s) : s₀.above lim (s.faultFrom old) :=
  hs.of_regs (State.only.faultFrom (.refl (may := [.out]))).regs

theorem State.above.faultNotify (hs : s₀.above lim s) : s₀.above lim (s.faultNotify) :=
  hs.of_regs (State.only.faultNotify (.refl (may := [.out]))).regs

theorem State.above.pclStop {outcome st : Nat} (hs : s₀.above lim s) (hb : lim ≤ 0x3000C := by decide) :
    s₀.above lim (s.pclStop outcome st) := by
  refine hs.step 0x3000C (fun {s₀} hs => ?_) hb
  delta State.pclStop
  split
  · exact hs
  · extract_lets k ms late s1 s2 rs src src'
    have hs1 : s₀.above 0x3000C s1 := .ite hs hs.wr
    have hs2 : s₀.above 0x3000C s2 := hs1.wr.wr
    exact hs2.same

theorem State.above.abandon (hs : s₀.above lim s) : s₀.above lim (s.abandon) :=
  hs.of_regs (State.only.abandon (.refl (may := [.stew, .boot]))).regs

theorem State.above.lastBatch (hs : s₀.above lim s) (hb : lim ≤ 0x300400 := by decide) :
    s₀.above lim (s.lastBatch) := by
  refine hs.step 0x300400 (fun {s₀} hs => ?_) hb
  delta State.lastBatch
  split
  · exact .ite hs hs.sendRecords
  · exact hs

end

end Sys2Proof.Machine
end

section
/-!
PROOF. Requests for a module state (R407, R408, R435).
-/
namespace Sys2Proof.Machine

set_option Elab.async false

section
variable {s t : State} {path : Path}

/-- R406: a change of the module state sets MODULE_STATE. -/
theorem State.only_powerEvent (s : State) (kind unit v0 v1 : Nat) : s.only [.out, .host] (s.powerEvent kind unit v0 v1) :=
  State.only.powerEvent .refl
@[simp] theorem State.rd_powerEvent (s : State) (kind unit v0 v1 : Nat) (f : Fld) (i : Nat) (w : Win) :
    (s.powerEvent kind unit v0 v1).rd f i w = s.rd f i w := State.rd_congr (s.only_powerEvent kind unit v0 v1).regs f i w
@[simp] theorem State.modState_moduleTo (s : State) (v : Nat) : (s.moduleTo v).modState = if s.modState = v then v else v % 16 := by
  unfold State.moduleTo
  split
  · assumption
  · exact (State.rd_powerEvent ..).trans (State.rd_wr_self ..)
theorem State.only_moduleTo (s : State) (v : Nat) : s.only [.out, .regs, .host] (s.moduleTo v) := State.only.moduleTo .refl

/-! ## The write of a request -/

theorem State.writes_PWR_CTRL (hd : s.dark = false) (hlc : s.lc ≠ .retired)
    (hm : s.mayWrite path (Reg.addr .PWR_CTRL 0 .glob 0) .PWR_CTRL = true) (v : Nat) :
    s.writes path (Reg.addr .PWR_CTRL 0 .glob 0) v .PWR_CTRL 0 .glob 0 := by
  refine State.writes_low hd hlc (State.locate_addr (Reg.has_glob (by decide) (by decide)) trivial rfl) hm (by decide) ?_
  simp [State.writeRefused, Reg.info, FieldDef.inWord, Acc.writable, FieldDef.breaksSeal, State.fieldRefuses]

/-- R407: a request that is taken, and one that is refused. -/
theorem State.writeReg_PWR_CTRL (s : State) (path : Path) (i : Nat) (w : Win) (k v n : Nat) :
    s.writeReg path .PWR_CTRL i w k v n = (match s.writePwrCtrl v with | some t => (true, t) | none => (false, s)) := rfl
theorem State.doWrite_request {v : Nat} (hw : s.writes path (Reg.addr .PWR_CTRL 0 .glob 0) v .PWR_CTRL 0 .glob 0) (hv : v < 16)
    (h : s.writePwrCtrl v = some t) : s.doWrite path (Reg.addr .PWR_CTRL 0 .glob 0) v = t.writeReply path (Reg.addr .PWR_CTRL 0 .glob 0) true 0 :=
  State.doWrite_of_taken hw (by rw [Nat.mod_eq_of_lt (by omega), State.writeReg_PWR_CTRL, h]) rfl
theorem State.doWrite_request_refused {v : Nat} (hw : s.writes path (Reg.addr .PWR_CTRL 0 .glob 0) v .PWR_CTRL 0 .glob 0) (hv : v < 16)
    (h : s.writePwrCtrl v = none) : s.doWrite path (Reg.addr .PWR_CTRL 0 .glob 0) v = s.writeReply path (Reg.addr .PWR_CTRL 0 .glob 0) false 0 :=
  State.doWrite_of_refused hw (by rw [Nat.mod_eq_of_lt (by omega), State.writeReg_PWR_CTRL, h])

theorem State.writePwrCtrl_drain (s : State) : s.writePwrCtrl 1 = s.askDrain := by
  cases h : s.askDrain <;> simp [State.writePwrCtrl, bitOf, h]
theorem State.writePwrCtrl_park (s : State) : s.writePwrCtrl 2 = s.askPark := by
  cases h : s.askPark <;> simp [State.writePwrCtrl, bitOf, h]
theorem State.writePwrCtrl_ready (s : State) : s.writePwrCtrl 4 = s.askReady := by
  cases h : s.askReady <;> simp [State.writePwrCtrl, bitOf, h]
theorem State.writePwrCtrl_keepalive (s : State) : s.writePwrCtrl 8 = s.askKeepalive := by
  simp [State.writePwrCtrl, bitOf]

/-! ## What the requests do -/

/-- R407, R408: a drain of a module that serves. -/
theorem State.modState_startDrain (s : State) (parked : Bool) (deadline : Nat) (h : s.boot.drainTo = none) :
    (s.startDrain parked deadline).modState = 4 := by
  simp [State.startDrain, h]
theorem State.boot_startDrain (s : State) (parked : Bool) (deadline : Nat) (h : s.boot.drainTo = none) :
    (s.startDrain parked deadline).boot = { s.boot with drainTo := some parked, drainBy := deadline } := by
  have hdis : s.only [.link, .stew] ((s.wts.pkgs.filter (fun e => decide (e.2.st = .loaded))).map (·.1) |>.foldl
      (fun (s : State) h => s.startDisable .model h false deadline []) s) := .foldl .refl fun _ _ ht => ht.startDisable
  simp only [State.startDrain, h]
  rw [(State.only_moduleTo _ 4).boot, hdis.boot]
/-- R407: the module enters Parked. -/
theorem State.modState_parkNow (s : State) : s.parkNow.modState = 5 := by
  simp [State.parkNow]
theorem State.drainTo_parkNow (s : State) : s.parkNow.boot.drainTo = none := by
  unfold State.parkNow
  dsimp only
  rw [(State.only_moduleTo _ 5).boot, (State.only.diesOff (.refl (may := [.regs, .arr, .strm, .mas, .link, .wts, .stew, .jr]))).boot]
/-- R431: the start of a start-up counts it. -/
theorem State.bootCount_beginStartup (s : State) : s.beginStartup.boot.nor.bootCount = s.boot.nor.bootCount + 1 := by
  have hend : ∀ (t : State), (t.endStartup 9).boot.nor = t.boot.nor := fun _ => rfl
  have hfault : ∀ (t : State), (t.faultFrom s).boot = t.boot := fun t => (State.only.faultFrom (.refl (may := [.out]))).boot
  simp only [State.beginStartup]
  split
  · rw [hfault, (State.only_moduleTo _ 1).boot, hend]
    simp
  · rw [hfault]
    simp
/-- R435: PARK ends a recovery. -/
theorem State.endStartup_fields (s : State) (v : Nat) :
    (s.endStartup v).boot.recovering = false ∧ (s.endStartup v).rd F.BOOT_STATUS_STAGE = v % 16 ∧ (s.endStartup v).mas = s.mas := by
  refine ⟨rfl, ?_, by simp [State.endStartup]⟩
  exact (State.rd_congr rfl _ _ _).trans (State.rd_wr_self s F.BOOT_STATUS_STAGE v 0 .glob)
end

/-- Settles O7: each request reaches PWR_CTRL, and the module state alone decides whether it is taken. -/
theorem requestsChangeTheModuleState : Obligations.RequestsChangeTheModuleState := by
  intro s path hd hlc hm
  have hw := State.writes_PWR_CTRL hd hlc hm
  have taken : ∀ {v t}, v < 16 → s.writePwrCtrl v = some t →
      (.next (s.doWrite path (Reg.addr .PWR_CTRL 0 .glob 0) v) : Res) = .next (t.writeReply path (Reg.addr .PWR_CTRL 0 .glob 0) true 0) :=
    fun hv h => congrArg _ (State.doWrite_request (hw _) hv h)
  have refused : ∀ {v}, v < 16 → s.writePwrCtrl v = none →
      (.next (s.doWrite path (Reg.addr .PWR_CTRL 0 .glob 0) v) : Res) = .next (s.writeReply path (Reg.addr .PWR_CTRL 0 .glob 0) false 0) :=
    fun hv h => congrArg _ (State.doWrite_request_refused (hw _) hv h)
  refine ⟨fun h3 hr hn => ⟨?_, ?_⟩, fun h2 hr => ?_, fun hm hn => ?_, fun hm hn => ?_, fun hr => ?_, fun h5 => ?_, fun h3 h4 => ?_, fun hm => ?_,
    fun h5 => ?_, fun h1 hr => ?_⟩
  · refine ⟨_, taken (by decide) (by rw [State.writePwrCtrl_drain, State.askDrain, if_pos (.inl h3)]), ?_⟩
    exact ⟨State.modState_startDrain _ _ _ hn, by simp [State.writeReply, State.boot_startDrain _ _ _ hn],
      by simp [State.writeReply, State.boot_startDrain _ _ _ hn, msNs]⟩
  · refine ⟨_, taken (by decide) (by rw [State.writePwrCtrl_park, State.askPark, if_neg (by simp [hr]), if_pos (.inl h3)]), ?_⟩
    exact ⟨State.modState_startDrain _ _ _ hn, by simp [State.writeReply, State.boot_startDrain _ _ _ hn],
      by simp [State.writeReply, State.boot_startDrain _ _ _ hn, msNs]⟩
  · refine ⟨_, taken (by decide) (by
      rw [State.writePwrCtrl_park, State.askPark, if_neg (by simp [hr]), if_neg (by omega), if_pos h2]), ?_⟩
    exact ⟨s.modState_parkNow, s.drainTo_parkNow⟩
  · refine ⟨_, taken (by decide) (by rw [State.writePwrCtrl_ready, State.askReady, if_neg (by simp [hm]), if_neg (by simp [hn])]), ?_⟩
    exact s.bootCount_beginStartup
  · refine ⟨_, taken (by decide) (by
      rw [State.writePwrCtrl_ready, State.askReady, if_neg (by simp [hm]), if_pos (Option.isSome_iff_ne_none.mpr hn)]), rfl⟩
  · refine ⟨_, taken (by decide) (by rw [State.writePwrCtrl_park, State.askPark, if_pos hr]), ?_⟩
    obtain ⟨hrec, hstage, hmas⟩ := s.endStartup_fields 9
    have hf := State.only.faultFrom (old := s) (.refl (s := s.endStartup 9) (may := [.out]))
    exact ⟨(congrArg _ hf.boot).trans hrec, (State.rd_congr hf.regs _ _ _).trans hstage, hf.mas.trans hmas⟩
  · refine ⟨_, taken (by decide) (by rw [State.writePwrCtrl_keepalive, State.askKeepalive, if_pos h5]), ?_⟩
    exact (State.modState_moduleTo _ 1).trans (by split <;> rfl)
  · exact ⟨_, refused (by decide) (by rw [State.writePwrCtrl_drain, State.askDrain, if_neg (by omega)]), rfl⟩
  · exact ⟨_, refused (by decide) (by rw [State.writePwrCtrl_ready, State.askReady, if_pos (by simp [hm])]), rfl⟩
  · exact ⟨_, refused (by decide) (by rw [State.writePwrCtrl_keepalive, State.askKeepalive, if_neg h5]), rfl⟩
  · refine ⟨_, refused (by decide) (by
      rw [State.writePwrCtrl_park, State.askPark, if_neg (by simp [hr]), if_neg (by omega), if_neg (by omega), if_neg (by omega)]), rfl⟩
end Sys2Proof.Machine
end

section
/-!
PROOF. The power cap, the limit and the operating points (R407, R409 to R413).
-/
namespace Sys2Proof.Machine

set_option Elab.async false

section
variable {s : State} {path : Path} {f : Fld} {i : Nat} {w : Win}

/-- R409, R413: what a change of the limit writes: LIMIT_W and SOURCE of PWR_LIMIT, and the ACLK step of dies. -/
theorem State.rd_setLimit (s : State) (l src : Nat) (hl : F.PWR_LIMIT_LIMIT_W.apart 0 .glob f i w = true)
    (hs : F.PWR_LIMIT_SOURCE.apart 0 .glob f i w = true) : (s.setLimit l src).rd f i w = s.rd f i w := by
  have h : ((s.wr F.PWR_LIMIT_LIMIT_W l).wr F.PWR_LIMIT_SOURCE src).rd f i w = s.rd f i w := by
    rw [State.rd_wr_apart _ _ hs, State.rd_wr_apart _ _ hl]
  unfold State.setLimit
  exact State.rd_of_ite h ((State.rd_powerEvent ..).trans h)
theorem State.rd_stretch (s : State) (hd : ∀ d < 4, F.DIE_OPPOINT_ACLK_M.apart d .glob f i w = true) : s.stretch.rd f i w = s.rd f i w := by
  unfold State.stretch
  exact State.rd_of_foldl s fun t d hd' => State.rd_of_ite ((State.rd_slewTo ..).trans (t.rd_wr_apart _ (hd d (List.mem_range.mp hd')))) rfl
theorem State.rd_updateLimit (s : State) (hl : F.PWR_LIMIT_LIMIT_W.apart 0 .glob f i w = true := by decide)
    (hs : F.PWR_LIMIT_SOURCE.apart 0 .glob f i w = true := by decide)
    (hd : ∀ d < 4, F.DIE_OPPOINT_ACLK_M.apart d .glob f i w = true := by decide) : s.updateLimit.rd f i w = s.rd f i w := by
  unfold State.updateLimit
  exact State.rd_of_ite ((State.rd_stretch _ hd).trans (State.rd_setLimit s _ _ hl hs)) (State.rd_of_ite rfl ((State.rd_with_boot ..).trans (s.rd_wr_apart _ hs)))

theorem State.writes_PWR_CAP (hd : s.dark = false) (hlc : s.lc ≠ .retired)
    (hm : s.mayWrite path (Reg.addr .PWR_CAP 0 .glob 0) .PWR_CAP = true) (v : Nat) :
    s.writes path (Reg.addr .PWR_CAP 0 .glob 0) v .PWR_CAP 0 .glob 0 := by
  refine State.writes_low hd hlc (State.locate_addr (Reg.has_glob (by decide) (by decide)) trivial rfl) hm (by decide) ?_
  have hlt : ∀ n, ¬ 8191 < bitsOf n 0 13 := fun n => Nat.not_lt.mpr (Nat.le_of_lt_succ (bitsOf_lt n 0 13))
  simp [State.writeRefused, Reg.info, FieldDef.inWord, Acc.writable, FieldDef.breaksSeal, State.fieldRefuses, hlt]

/-- R410: a write of POWER_CAP in Keep-alive does what `capWrite` does, and nothing is journaled. -/
theorem State.doWrite_PWR_CAP {v : Nat} (hw : s.writes path (Reg.addr .PWR_CAP 0 .glob 0) v .PWR_CAP 0 .glob 0) (h1 : s.modState = 1) (hv : v < 2 ^ 13) :
    s.doWrite path (Reg.addr .PWR_CAP 0 .glob 0) v =
      (s.capWrite (isRack path) v).2.writeReply path (Reg.addr .PWR_CAP 0 .glob 0) (s.capWrite (isRack path) v).1 0 := by
  have hb : bitsOf (v % 2 ^ 32) 0 13 = v := by simp only [bitsOf]; omega
  have hg : ∀ n, s.writeReg path .PWR_CAP 0 .glob 0 (v % 2 ^ 32) n = s.capWrite (isRack path) (bitsOf (v % 2 ^ 32) 0 13) := fun _ => rfl
  rw [hb] at hg
  cases h : s.capWrite (isRack path) v with
  | mk ok t =>
    cases ok with
    | true => exact State.doWrite_of_taken hw ((hg _).trans h) (by simp [h1])
    | false => exact State.doWrite_of_refused hw ((hg _).trans h)
end

/-- Settles O8: the cap is written or left alone, and what follows in Keep-alive is at most a new limit. -/
theorem powerCapWritesTakeOrRefuse : Obligations.PowerCapWritesTakeOrRefuse := by
  intro s path v hd hlc h1 hm
  have hw := State.writes_PWR_CAP hd hlc hm v
  refine ⟨fun hlo hhi => ?_, fun hlo => ?_⟩
  · refine ⟨_, rfl, ?_⟩
    rw [State.doWrite_PWR_CAP hw h1 (by omega)]
    have hcap : s.capWrite (isRack path) v = (true, (if isRack path then (s.wr F.PWR_CAP_CAP_W v).wr F.PWR_LIMIT_SAFE 0
      else s.wr F.PWR_CAP_CAP_W v).updateLimit) := by
      rw [State.capWrite, if_neg (by omega), if_neg (by omega)]
    rw [hcap]
    generalize hu : (if isRack path then (s.wr F.PWR_CAP_CAP_W v).wr F.PWR_LIMIT_SAFE 0 else s.wr F.PWR_CAP_CAP_W v) = u
    have hou : s.only [.regs] u := hu ▸ .ite (State.only.refl.wr.wr) State.only.refl.wr
    have hol : s.only [.out, .regs, .host, .boot] u.updateLimit := (hou.mono (by decide)).updateLimit
    refine ⟨?_, fun hr => ?_, ?_, hol.fuses, hol.mas, hol.arr⟩
    · have hv : u.rd F.PWR_CAP_CAP_W = v := by
        subst hu
        have h : (s.wr F.PWR_CAP_CAP_W v).rd F.PWR_CAP_CAP_W = v := (State.rd_wr_self ..).trans (Nat.mod_eq_of_lt (by change v < 2 ^ 13; omega))
        split
        · exact (State.rd_wr_apart _ _ (by decide)).trans h
        · exact h
      exact (State.rd_updateLimit u).trans hv
    · subst hu
      rw [if_pos hr]
      exact (State.flag_congr_rd (State.rd_updateLimit _)).trans (State.flag_wr_self ..)
    · have hu1 : u.modState = s.modState := by
        subst hu
        exact State.rd_of_ite ((State.rd_wr_apart _ _ (by decide)).trans (State.rd_wr_apart _ _ (by decide))) (State.rd_wr_apart _ _ (by decide))
      exact (State.rd_updateLimit u).trans (hu1.trans h1)
  · refine ⟨_, rfl, ?_⟩
    rw [State.doWrite_PWR_CAP hw h1 (by omega)]
    have hcap : s.capWrite (isRack path) v = (false, ((s.wr F.PWR_STATUS_CAP_REFUSED 1).powerEvent 11 0xFF v 0).capPark) := by
      rw [State.capWrite, if_neg (by omega), if_pos hlo]
    have hm1 : ((s.wr F.PWR_STATUS_CAP_REFUSED 1).powerEvent 11 0xFF v 0).modState = 1 :=
      (State.rd_powerEvent ..).trans ((State.rd_wr_apart _ _ (by decide)).trans h1)
    have hpark : ((s.wr F.PWR_STATUS_CAP_REFUSED 1).powerEvent 11 0xFF v 0).capPark = (s.wr F.PWR_STATUS_CAP_REFUSED 1).powerEvent 11 0xFF v 0 := by
      rw [State.capPark, if_neg (by omega), if_neg (by omega), if_neg (by omega)]
    rw [hcap, hpark]
    have hol : s.only [.out, .regs, .host] ((s.wr F.PWR_STATUS_CAP_REFUSED 1).powerEvent 11 0xFF v 0) := State.only.refl.wr.powerEvent
    exact ⟨(State.rd_powerEvent ..).trans (State.rd_wr_apart _ _ (by decide)),
      (State.flag_congr_rd (State.rd_powerEvent ..)).trans (State.flag_wr_self ..), hm1, hol.fuses, hol.mas, hol.arr⟩
end Sys2Proof.Machine
end

section
/-!
PROOF. The power controller: points go down one step, and a slew ends at its point (R411 to R413).
-/
namespace Sys2Proof.Machine

set_option Elab.async false

section
variable {s t u : State} {w d e : Nat}

/-- R411, R412: what the controller reads of a die, and changes of it. -/
structure State.sameDie (d : Nat) (s t : State) : Prop where
  word : t.word .DIE_OPPOINT d .glob 0 = s.word .DIE_OPPOINT d .glob 0
  slews : SMap.find? t.boot.slews d = SMap.find? s.boot.slews d
  power : t.dieP d = s.dieP d
  limit : t.rd F.PWR_LIMIT_LIMIT_W = s.rd F.PWR_LIMIT_LIMIT_W
  now : t.now = s.now

theorem State.sameDie.refl : State.sameDie d s s := ⟨rfl, rfl, rfl, rfl, rfl⟩
theorem State.sameDie.trans (h : State.sameDie d s t) (k : State.sameDie d t u) : State.sameDie d s u :=
  ⟨k.word.trans h.word, k.slews.trans h.slews, k.power.trans h.power, k.limit.trans h.limit, k.now.trans h.now⟩
/-- A field of DIE_OPPOINT is a part of its word. -/
theorem State.sameDie.rd (h : State.sameDie d s t) {f : Fld} (hr : f.reg = .DIE_OPPOINT) (hw : f.firstWord = 0) (hc : f.wordCount = 1) :
    t.rd f d = s.rd f d := by
  unfold State.rd
  rw [hr, hw, hc, State.span_congr t s _ _ _ _ _ fun b hb => ?_]
  obtain rfl : b = 0 := by omega
  exact h.word
theorem State.sameDie.point (h : State.sameDie d s t) : t.point d = s.point d := h.rd rfl rfl rfl
theorem State.sameDie.vcore (h : State.sameDie d s t) : t.vcore d = s.vcore d := h.rd rfl rfl rfl
theorem State.sameDie.flag (h : State.sameDie d s t) : t.flag F.DIE_OPPOINT_THROTTLED d = s.flag F.DIE_OPPOINT_THROTTLED d :=
  State.flag_congr_rd (h.rd rfl rfl rfl)
theorem State.sameDie.steerable (h : State.sameDie d s t) : t.steerable d = s.steerable d := by
  rw [State.steerable, State.steerable, h.power, h.slews]

/-- A write of a field of one die's DIE_OPPOINT is not seen by another die, nor is a slew. -/
theorem State.sameDie.wr (h : State.sameDie d s t) {f : Fld} {v : Nat} (he : e < 4) (hd : d < 4) (hne : d ≠ e) (hf : f.reg = .DIE_OPPOINT)
    (hw : f.firstWord = 0) (hc : f.wordCount = 1) : State.sameDie d s (t.wr f v e) := by
  have hin : f.In e .glob := Fld.in_glob (by rw [hf]; exact he) (by rw [hf]; rfl) (by rw [hf, hw, hc]; decide)
  refine h.trans ⟨State.word_wr_other hin (Reg.has_glob hd (by decide)) (.inr (.inl hne)), by simp, ?_, ?_, by simp⟩
  · exact State.rd_wr_other hin (by interval_cases d <;> exact Fld.in_glob (by decide)) (.inl (by rw [hf]; interval_cases d <;> decide))
  · exact State.rd_wr_other hin (Fld.in_glob (by decide)) (.inl (by rw [hf]; decide))
theorem State.sameDie.slewTo (h : State.sameDie d s t) {p : Nat} (hne : d ≠ e) : State.sameDie d s (t.slewTo e p) := by
  refine h.trans ⟨rfl, ?_, State.rd_slewTo .., State.rd_slewTo .., rfl⟩
  exact SMap.find?_insert_of_ne _ _ hne
theorem State.sameDie.ite {c : Prop} [Decidable c] (h : State.sameDie d s t) (k : State.sameDie d s u) :
    State.sameDie d s (if c then t else u) := of_ite h k

/-- R412: the controller acts on one die at a time. -/
theorem State.sameDie.steer (he : e < 4) (hd : d < 4) (hne : d ≠ e) : State.sameDie d s (s.steer w e) := by
  have hrefl : State.sameDie d s s := .refl
  have hgate : ∀ v, State.sameDie d s (s.wr F.DIE_OPPOINT_GATE_D v e) := fun v => hrefl.wr he hd hne rfl rfl rfl
  have hlower : State.sameDie d s (s.lowerPoint e) := ((hrefl.wr he hd hne rfl rfl rfl).wr he hd hne rfl rfl rfl).slewTo hne
  unfold State.steer
  exact .ite hrefl (.ite (.ite hlower (hgate _)) (.ite (.ite (hgate _) hrefl) (.ite (hrefl.slewTo hne) hrefl)))

/-- R412: what the controller does to a die that draws too much. -/
theorem State.steer_lower (hs : s.steerable d = true) (ht : s.flag F.DIE_OPPOINT_THROTTLED d = false) (hl : s.rd F.PWR_LIMIT_LIMIT_W < w)
    (hp : s.point d < 6) : s.steer w d = s.lowerPoint d := by
  simp only [State.steer, hs, ht, hl, hp, if_true, Bool.not_true, Bool.or_false, Bool.false_eq_true, if_false]
theorem State.steer_gate (hs : s.steerable d = true) (ht : s.flag F.DIE_OPPOINT_THROTTLED d = false) (hl : s.rd F.PWR_LIMIT_LIMIT_W < w)
    (hp : s.point d = 6) : s.steer w d = s.wr F.DIE_OPPOINT_GATE_D (min 12 (s.rd F.DIE_OPPOINT_GATE_D d + 1)) d := by
  simp only [State.steer, hs, ht, hl, hp, if_true, Bool.not_true, Bool.or_false, Bool.false_eq_true, if_false, lt_irrefl]

/-- R412: in a round of the controller a die is seen once, as it was before the round, and left as that leaves it. -/
theorem State.sameDie_steers (hd : d < 4) {l : List Nat} (hl : ∀ e ∈ l, e < 4) (hn : l.Nodup) (hm : d ∈ l) (s : State) :
    ∃ u, State.sameDie d s u ∧ State.sameDie d (u.steer w d) (l.foldl (fun (s : State) d => s.steer w d) s) := by
  have others : ∀ (l : List Nat) (s : State), (∀ e ∈ l, e < 4) → d ∉ l → State.sameDie d s (l.foldl (fun (s : State) d => s.steer w d) s) := by
    intro l
    induction l with
    | nil => exact fun s _ _ => .refl
    | cons e l ih =>
      intro s hl hd'
      have hne : d ≠ e := fun h => hd' (h ▸ List.mem_cons_self)
      exact (State.sameDie.steer (hl e List.mem_cons_self) hd hne).trans
        (ih _ (fun a ha => hl a (List.mem_cons_of_mem _ ha)) fun h => hd' (List.mem_cons_of_mem _ h))
  induction l generalizing s with
  | nil => cases hm
  | cons e l ih =>
    have hl' : ∀ a ∈ l, a < 4 := fun a ha => hl a (List.mem_cons_of_mem _ ha)
    obtain ⟨hel, hn'⟩ := List.nodup_cons.mp hn
    by_cases hde : d = e
    · subst hde
      exact ⟨s, .refl, others l _ hl' hel⟩
    · obtain ⟨u, hu, hv⟩ := ih hl' hn' ((List.mem_cons.mp hm).resolve_left hde) (s.steer w e)
      exact ⟨u, (State.sameDie.steer (hl e List.mem_cons_self) hd hde).trans hu, hv⟩

/-- R412: the controller changes operating points and slews only. -/
structure State.steered (s t : State) : Prop where
  only : s.only [.regs, .boot] t
  boot : t.boot = { s.boot with slews := t.boot.slews }

theorem State.steered.refl : s.steered s := ⟨.refl, rfl⟩
theorem State.steered.trans (h : s.steered t) (k : t.steered u) : s.steered u := ⟨h.only.trans k.only, by rw [k.boot, h.boot]⟩
theorem State.steered.wr (h : s.steered t) {f : Fld} {v i : Nat} : s.steered (t.wr f v i) := h.trans ⟨State.only.refl.wr, by simp⟩
theorem State.steered.slewTo (h : s.steered t) {p : Nat} : s.steered (t.slewTo d p) := h.trans ⟨State.only.refl.slewTo, rfl⟩
theorem State.steered.ite {c : Prop} [Decidable c] (h : s.steered t) (k : s.steered u) : s.steered (if c then t else u) := of_ite h k
theorem State.steered.steer (h : s.steered t) : s.steered (t.steer w d) := by
  unfold State.steer
  exact .ite h (.ite (.ite h.wr.wr.slewTo h.wr) (.ite (.ite h.wr h) (.ite h.slewTo h)))
theorem State.steered.foldl {l : List Nat} (h : s.steered t) : s.steered (l.foldl (fun (s : State) d => s.steer w d) t) := by
  induction l generalizing t with
  | nil => exact h
  | cons d l ih => exact ih h.steer

/-- R412: and it leaves the averages where they stand. -/
theorem State.rd_steer (s : State) {f : Fld} {i : Nat} (hd : d < 4) (hf : f.In i .glob) (hne : f.reg ≠ .DIE_OPPOINT) :
    (s.steer w d).rd f i = s.rd f i := by
  have hwr : ∀ (t : State) (g : Fld) (v : Nat), g.reg = .DIE_OPPOINT → g.firstWord = 0 → g.wordCount = 1 → (t.wr g v d).rd f i = t.rd f i :=
    fun t g v hg hw hc => State.rd_wr_other (Fld.in_glob (by rw [hg]; exact hd) (by rw [hg]; rfl) (by rw [hg, hw, hc]; decide)) hf (.inl (hg ▸ hne))
  unfold State.steer
  refine State.rd_of_ite rfl (State.rd_of_ite (State.rd_of_ite ?_ (hwr s _ _ rfl rfl rfl)) (State.rd_of_ite (State.rd_of_ite (hwr s _ _ rfl rfl rfl) rfl)
    (State.rd_of_ite (State.rd_slewTo ..) rfl)))
  exact (State.rd_slewTo ..).trans ((hwr _ _ _ rfl rfl rfl).trans (hwr _ _ _ rfl rfl rfl))

/-- R411: a die one point lower. -/
theorem State.lowerPoint_fields (s : State) (d : Nat) (hp : s.point d < 6) :
    (s.lowerPoint d).point d = s.point d + 1 ∧ (s.lowerPoint d).rd F.DIE_OPPOINT_ACLK_M d = pointM (s.point d + 1) ∧
    SMap.find? (s.lowerPoint d).boot.slews d = some (s.point d + 1, s.now, s.now + slewNs (s.vcore d) (pointMv (s.point d + 1))) := by
  have hm : pointM (s.point d + 1) < 2 ^ 5 := Nat.lt_of_le_of_lt (Nat.sub_le ..) (by decide)
  have hv : ((s.wr F.DIE_OPPOINT_POINT (s.point d + 1) d).wr F.DIE_OPPOINT_ACLK_M (pointM (s.point d + 1)) d).vcore d = s.vcore d :=
    Eq.trans State.rd_wr_beside State.rd_wr_beside
  refine ⟨(State.rd_slewTo ..).trans (Eq.trans State.rd_wr_beside (State.rd_wr_fits (Nat.lt_of_lt_of_le (Nat.succ_lt_succ hp) (by decide)))),
    (State.rd_slewTo ..).trans (State.rd_wr_fits hm), ?_⟩
  rw [State.lowerPoint, State.slewTo, hv]
  simp only [SMap.find?_insert_self, State.now_wr]
end

/-- Settles O9: the round sees each die once, and the end of a slew writes the die's own fields. -/
theorem pointsFollowTheCap : Obligations.PointsFollowTheCap := by
  refine ⟨fun s w volts amps inlet outlet off hd h6 hsrc hl => ?_, fun s d p t0 t1 hd hfind hp ht => ?_⟩
  · refine ⟨_, rfl, ?_⟩
    rw [if_neg (by simp [hd])]
    dsimp only
    generalize hs2 : ((((s.wr F.PWR_INPUT_POWER_W w).wr F.PWR_INPUT_VOLTS_DV volts).wr F.PWR_CURRENT_AMPS_DA amps).wr F.COOLANT_INLET_C inlet).wr
      F.COOLANT_OUTLET_C outlet = s2
    have hreg : s.regsBut s2 [0x10014, 0x10018, 0x10058] :=
      hs2 ▸ State.regsBut.wr (State.regsBut.wr (State.regsBut.wr (State.regsBut.wr (State.regsBut.wr .refl (by decide)) (by decide)) (by decide)) (by decide)) (by decide)
    have ho2 : s.only [.regs] s2 := hs2 ▸ State.only.refl.wr.wr.wr.wr.wr
    generalize hs3 : ({ s2 with boot := { s2.boot with railsOff := off } } : State) = s3
    have hrd : ∀ f i, s3.rd f i = s2.rd f i := fun f i => hs3 ▸ State.rd_with_boot ..
    have hraise : s3.raiseLimit = s3 := if_neg fun h => hsrc (((hrd ..).trans (State.rd_of_regsBut hreg (by decide))).symm.trans h)
    have h3 : s3.modState ≠ 6 := fun h => h6 (((hrd ..).trans (State.rd_of_regsBut hreg (by decide))).symm.trans h)
    rw [hraise, if_neg h3]
    have hst : s3.steered ((List.range 4).foldl (fun (s : State) d => s.steer w d) s3) := State.steered.refl.foldl
    have hmeas : ∀ {f : Fld}, f.In 0 .glob → f.reg ≠ .DIE_OPPOINT → 
        ((List.range 4).foldl (fun (s : State) d => s.steer w d) s3).rd f = s2.rd f := fun hf hne =>
      (State.rd_of_foldl s3 fun t d hd => t.rd_steer (List.mem_range.mp hd) hf hne).trans (hrd ..)
    refine ⟨?_, ?_, ?_, ?_, ?_, fun d hd hsteer hthr => ?_, ?_⟩
    · exact (hmeas (Fld.in_glob (by decide)) (by decide)).trans (hs2 ▸ Eq.trans (State.rd_wr_apart _ _ (by decide)) (Eq.trans (State.rd_wr_apart _ _ (by decide))
        (Eq.trans (State.rd_wr_apart _ _ (by decide)) (Eq.trans State.rd_wr_beside (State.rd_wr_self ..)))))
    · exact (hmeas (Fld.in_glob (by decide)) (by decide)).trans (hs2 ▸ Eq.trans (State.rd_wr_apart _ _ (by decide)) (Eq.trans (State.rd_wr_apart _ _ (by decide))
        (Eq.trans (State.rd_wr_apart _ _ (by decide)) (State.rd_wr_self ..))))
    · exact (hmeas (Fld.in_glob (by decide)) (by decide)).trans (hs2 ▸ Eq.trans (State.rd_wr_apart _ _ (by decide)) (Eq.trans (State.rd_wr_apart _ _ (by decide))
        (State.rd_wr_self ..)))
    · exact (hmeas (Fld.in_glob (by decide)) (by decide)).trans (hs2 ▸ Eq.trans State.rd_wr_beside (State.rd_wr_self ..))
    · exact (hmeas (Fld.in_glob (by decide)) (by decide)).trans (hs2 ▸ State.rd_wr_self ..)
    · obtain ⟨u, hu, hv⟩ := State.sameDie_steers (w := w) hd (l := List.range 4) (fun e he => List.mem_range.mp he) List.nodup_range
        (List.mem_range.mpr hd) s3
      have hsu : State.sameDie d s u := State.sameDie.trans (t := s3) ⟨?_, ?_, ?_, ?_, ?_⟩ hu
      · have hsu' : u.steerable d = true := hsu.steerable.trans hsteer
        have hthr' := hsu.flag.trans hthr
        have hl' : u.rd F.PWR_LIMIT_LIMIT_W < w := hsu.limit ▸ hl
        refine ⟨fun hp => ?_, fun hp => ?_⟩
        · have hp' : u.point d < 6 := hsu.point ▸ hp
          obtain ⟨h1, h2, h3⟩ := u.lowerPoint_fields d hp'
          rw [State.steer_lower hsu' hthr' hl' hp'] at hv
          refine ⟨?_, ?_, ?_⟩
          · rw [hv.point, h1, hsu.point]
          · rw [hv.rd rfl rfl rfl, h2, hsu.point]
          · rw [hv.slews, h3, hsu.point, hsu.vcore, hsu.now]
        · have hp' : u.point d = 6 := hsu.point.trans hp
          rw [State.steer_gate hsu' hthr' hl' hp'] at hv
          refine ⟨?_, ?_⟩
          · exact hv.point.trans (Eq.trans State.rd_wr_beside hp')
          · rw [hv.rd rfl rfl rfl, State.rd_wr_fits (by change _ < 2 ^ 4; omega), hsu.rd rfl rfl rfl]
      · have haddr : Reg.addr .DIE_OPPOINT d .glob 0 ∉ [0x10014, 0x10018, 0x10058] := by interval_cases d <;> decide
        exact hs3 ▸ hreg _ _ _ _ haddr
      · exact hs3 ▸ hs2 ▸ rfl
      · exact (hrd ..).trans (State.rd_of_regsBut hreg (by interval_cases d <;> decide))
      · exact (hrd ..).trans (State.rd_of_regsBut hreg (by decide))
      · exact hs3 ▸ ho2.now
    · have ho3 : s.only [.regs, .boot] s3 := hs3 ▸ (ho2.mono (by decide)).same
      refine State.eq_of_only (may := [.regs, .boot]) State.only.refl.same (ho3.trans hst.only) fun p hp => ?_
      have hboot : s3.boot = { s.boot with railsOff := off } := by rw [← hs3, ho2.boot]
      rcases List.mem_cons.mp hp with rfl | hp
      · rfl
      · obtain rfl := List.mem_singleton.mp hp
        exact hst.boot.trans (by rw [hboot])
  · have hexec : exec (.voltageSlewComplete d) s = .next
        (let s2 := (((s.bump F.DIE_STALL_COUNT ((pointM (s.point d) - s.rd F.DIE_OPPOINT_ACLK_M d) * (t1 - t0) / 4) 10 (.die d)).wr
          F.DIE_OPPOINT_VCORE_MV (pointMv p) d).wr F.DIE_OPPOINT_POINT p d).wr F.DIE_OPPOINT_ACLK_M (pointM p) d
        { s2 with boot := { s2.boot with slews := SMap.erase s2.boot.slews d } }) := by
      change onDie d _ = _
      rw [onDie, if_pos hd, hfind]
      dsimp only
      rw [if_neg (Nat.not_lt.mpr ht)]
    refine ⟨_, hexec, ?_⟩
    dsimp only
    have hstall : F.DIE_STALL_COUNT.In 10 (.die d) := Fld.in_die (by decide)
    have hwords : ∀ {f : Fld}, f.reg = .DIE_OPPOINT → f.firstWord = 0 → f.wordCount = 1 →
        f.words d ⊆ F.DIE_OPPOINT_POINT.words d ++ F.DIE_STALL_COUNT.words 10 (.die d) := by
      intro f hr hw hc a ha
      refine List.mem_append_left _ ?_
      rwa [Fld.words, hr, hw, hc] at ha
    refine ⟨?_, ?_, ?_, SMap.find?_erase_self .., ?_, ?_, ?_⟩
    · exact (State.rd_with_boot ..).trans (Eq.trans State.rd_wr_beside (State.rd_wr_fits (Nat.lt_of_le_of_lt hp (by decide))))
    · refine (State.rd_with_boot ..).trans (Eq.trans State.rd_wr_beside (Eq.trans State.rd_wr_beside (State.rd_wr_fits ?_)))
      interval_cases p <;> decide
    · exact (State.rd_with_boot ..).trans (State.rd_wr_fits (Nat.lt_of_le_of_lt (Nat.sub_le ..) (by decide)))
    · have hother : ∀ {f : Fld} {t : State} {v : Nat}, f.reg = .DIE_OPPOINT → f.firstWord = 0 → f.wordCount = 1 →
          (t.wr f v d).rd F.DIE_STALL_COUNT 10 (.die d) = t.rd F.DIE_STALL_COUNT 10 (.die d) := fun hr hw hc =>
        State.rd_wr_other (Fld.in_glob (by rw [hr]; exact hd) (by rw [hr]; rfl) (by rw [hr, hw, hc]; decide)) hstall (.inl (by rw [hr]; decide))
      exact (State.rd_with_boot ..).trans ((hother rfl rfl rfl).trans ((hother rfl rfl rfl).trans ((hother rfl rfl rfl).trans (State.rd_wr_self ..))))
    · refine State.regsBut.setBoot (State.regsBut.wr (State.regsBut.wr (State.regsBut.wr (State.regsBut.wr .refl ?_) (hwords rfl rfl rfl)) (hwords rfl rfl rfl))
        (hwords rfl rfl rfl))
      exact fun a ha => List.mem_append_right _ ha
    · refine State.eq_of_only (may := [.regs, .boot]) State.only.refl.same (State.only.refl.bump.wr.wr.wr.same) fun p hp => ?_
      rcases List.mem_cons.mp hp with rfl | hp
      · rfl
      · obtain rfl := List.mem_singleton.mp hp
        simp [State.agrees, State.bump]
end Sys2Proof.Machine
end

section
/-!
PROOF. The lands of the rack and the input monitors (R405, R408, R416, R417, R434, R477).
-/
namespace Sys2Proof.Machine

set_option Elab.async false

section
variable {s : State} {path : Path}

theorem State.only.dark {t : State} {may : List Part} (h : s.only may t) (hp : .boot ∉ may := by decide) : t.dark = s.dark := by
  rw [State.dark, h.boot hp, State.dark]
/-- R416: the power-fail sequence leaves the module's own power registers alone but for PFW_SEEN. -/
theorem State.above_powerFail (hd : s.dark = false) (hf : s.boot.failAt = none) : (s.wr F.PWR_STATUS_PFW_SEEN 1).above 0x3000C s.powerFail := by
  simp only [State.powerFail, hd, hf, Bool.false_eq_true, if_false]
  exact State.above.refl.pclStop.abandon.lastBatch.faultNotify.powerEvent.same
/-- R416: the power-fail sequence stops the serving firmware, and no test runs that it would stop too. -/
theorem State.boot_powerFail (hd : s.dark = false) (hf : s.boot.failAt = none) (hp : s.boot.pclRun = none) :
    s.powerFail.boot = { s.boot with stopping := true, failAt := some s.now, drainTo := none } := by
  have hstop : (s.wr F.PWR_STATUS_PFW_SEEN 1).pclStop 3 5 = s.wr F.PWR_STATUS_PFW_SEEN 1 := by
    have : (s.wr F.PWR_STATUS_PFW_SEEN 1).boot.pclRun = none := hp
    rw [State.pclStop, this]
  have hboot : ((((s.wr F.PWR_STATUS_PFW_SEEN 1).abandon.lastBatch).faultNotify).powerEvent 3 0xFF 0 0).boot =
      (s.wr F.PWR_STATUS_PFW_SEEN 1).abandon.boot := (State.only.refl (may := [.out, .regs, .host, .link, .jr])).lastBatch.faultNotify.powerEvent.boot
  simp only [State.powerFail, hd, hf, Bool.false_eq_true, if_false, hstop, hboot]
  rfl
theorem State.flights_powerFail (hd : s.dark = false) (hf : s.boot.failAt = none) : s.powerFail.stew.flights = [] := by
  have hstew : (((((s.wr F.PWR_STATUS_PFW_SEEN 1).pclStop 3 5).abandon.lastBatch).faultNotify).powerEvent 3 0xFF 0 0).stew =
      ((s.wr F.PWR_STATUS_PFW_SEEN 1).pclStop 3 5).abandon.stew :=
    (State.only.refl (may := [.out, .regs, .host, .link, .jr])).lastBatch.faultNotify.powerEvent.stew
  simp only [State.powerFail, hd, hf, Bool.false_eq_true, if_false, hstew]
  rfl
theorem execPfwN_of_dark (hd : s.dark = false) : execPfwN s = .next (((s.wr F.PIN_STATUS_PFW_LVL 0).wr F.PWR_LIMIT_PFW 1).powerFail) := by
  have hd1 : ¬ (s.wr F.PIN_STATUS_PFW_LVL 0).dark = true := Bool.eq_false_iff.mp hd
  exact congrArg Host.Outcome.next (if_neg hd1)
theorem State.only_powerFail : s.only [.out, .regs, .arr, .strm, .mas, .host, .link, .wts, .stew, .jr, .boot] s.powerFail :=
  State.only.refl.powerFail

/-- R434: after a module fault the module is in Parked. -/
theorem State.modState_moduleFault (s : State) : s.moduleFault.modState = 5 := by
  unfold State.moduleFault
  split
  · rw [State.modState_moduleTo]
    exact ite_self _
  · exact State.modState_parkNow _

/-- R433: reporting the fault land writes nothing. -/
theorem State.modState_faultFrom (s old : State) : (s.faultFrom old).modState = s.modState := State.rd_of_ite rfl rfl

theorem State.flag_noteOvervolt (s : State) (b : Bool) : (s.noteOvervolt b).flag F.PIN_STATUS_OVERVOLT = b := by
  refine (State.flag_congr_rd (State.rd_with_boot ..)).trans ((State.flag_wr_self ..).trans ?_)
  cases b <;> rfl

theorem State.writes_PIN_STATUS (hd : s.dark = false) (hlc : s.lc ≠ .retired)
    (hm : s.mayWrite path (Reg.addr .PIN_STATUS 0 .glob 0) .PIN_STATUS = true) :
    s.writes path (Reg.addr .PIN_STATUS 0 .glob 0) 8 .PIN_STATUS 0 .glob 0 := by
  refine State.writes_low hd hlc (State.locate_addr (Reg.has_glob (by decide) (by decide)) trivial rfl) hm (by decide) ?_
  simp [State.writeRefused, Reg.info, FieldDef.inWord, Acc.writable, FieldDef.breaksSeal, State.fieldRefuses]
theorem State.writeReg_PIN_STATUS (s : State) (path : Path) (i : Nat) (w : Win) (k v n : Nat) :
    s.writeReg path .PIN_STATUS i w k v n = (true, if bitOf v 3 then s.noteOvervolt false else s) := rfl
/-- R478: OVERVOLT is cleared by writing 1 to it. -/
theorem State.doWrite_PIN_STATUS (hw : s.writes path (Reg.addr .PIN_STATUS 0 .glob 0) 8 .PIN_STATUS 0 .glob 0) :
    s.doWrite path (Reg.addr .PIN_STATUS 0 .glob 0) 8 = (s.noteOvervolt false).writeReply path (Reg.addr .PIN_STATUS 0 .glob 0) true 0 :=
  State.doWrite_of_taken hw (State.writeReg_PIN_STATUS ..) (by simp [settles])
end

/-- Settles O10: each land writes the bit that reports it, and what follows leaves that bit alone. -/
theorem rackSignalsAreReported : Obligations.RackSignalsAreReported := by
  intro s
  refine ⟨fun low hd hl => ⟨_, rfl, ?_⟩, fun hd hf hp => ⟨⟨_, execPfwN_of_dark hd, ?_⟩, ⟨_, rfl, ?_⟩, ⟨_, rfl, ?_⟩⟩, ⟨_, rfl, ?_, ?_, rfl⟩,
    fun path hd hlc hm => ⟨_, rfl, ?_⟩, fun hd hm hs => ⟨_, rfl, ?_⟩, fun hd hr => ⟨_, rfl, ?_⟩, ⟨_, rfl, rfl⟩⟩
  case refine_1 =>
    simp only [hd, hl, Bool.false_eq_true, if_false]
    refine ⟨?_, ?_⟩
    · rw [State.flag_congr_rd ((State.rd_updateLimit _).trans (State.rd_powerEvent ..)), State.wrFlag, State.flag_wr_self]
      cases low <;> rfl
    · rw [State.rd_updateLimit, State.rd_powerEvent, State.wrFlag, State.rd_wr_apart _ _ (by decide), State.rd_wr_self]
      cases low <;> rfl
  case refine_2 =>
    have hu : s.only [.regs] ((s.wr F.PIN_STATUS_PFW_LVL 0).wr F.PWR_LIMIT_PFW 1) := State.only.refl.wr.wr
    have hlvl : ((s.wr F.PIN_STATUS_PFW_LVL 0).wr F.PWR_LIMIT_PFW 1).rd F.PIN_STATUS_PFW_LVL = 0 := by
      rw [State.rd_wr_apart _ _ (by decide), State.rd_wr_self]; rfl
    have hpfw : ((s.wr F.PIN_STATUS_PFW_LVL 0).wr F.PWR_LIMIT_PFW 1).rd F.PWR_LIMIT_PFW = 1 := by rw [State.rd_wr_self]; rfl
    generalize (s.wr F.PIN_STATUS_PFW_LVL 0).wr F.PWR_LIMIT_PFW 1 = u at hu hlvl hpfw
    have hdu : u.dark = false := hu.dark.trans hd
    have hfu : u.boot.failAt = none := by rw [hu.boot, hf]
    have hab := State.above_powerFail hdu hfu
    have hb := State.boot_powerFail hdu hfu (by rw [hu.boot, hp])
    refine ⟨?_, ?_, ?_, ?_, ?_, State.flights_powerFail hdu hfu, ?_⟩
    · rw [hab.rd F.PIN_STATUS_PFW_LVL 0 .glob, State.rd_wr_apart _ _ (by decide), hlvl]
    · rw [hab.rd F.PWR_LIMIT_PFW 0 .glob, State.rd_wr_apart _ _ (by decide), hpfw]
    · rw [hab.flag F.PWR_STATUS_PFW_SEEN 0 .glob, State.flag_wr_self]; rfl
    · rw [hb, hu.now]
    · rw [hb]
    · exact State.only_powerFail.fuses.trans hu.fuses
  case refine_3 =>
    have hd1 : ((s.wr F.PWR_STATUS_UNDERVOLT 1).powerEvent 4 0xFF 0 0).dark = false := by
      rw [State.dark, (State.only_powerEvent ..).boot]; exact hd
    have hb1 : ((s.wr F.PWR_STATUS_UNDERVOLT 1).powerEvent 4 0xFF 0 0).boot = s.boot := (State.only_powerEvent ..).boot
    have hf1 : ((s.wr F.PWR_STATUS_UNDERVOLT 1).powerEvent 4 0xFF 0 0).boot.failAt = none := by rw [hb1, hf]
    simp only [hd, hf, Bool.false_eq_true, Option.isSome_none, if_false]
    refine ⟨?_, ?_, ?_⟩
    · rw [(State.above_powerFail hd1 hf1).flag F.PWR_STATUS_UNDERVOLT 0 .glob, State.flag_wr_apart _ _ (by decide), State.flag_congr_rd (State.rd_powerEvent ..), State.flag_wr_self]
      rfl
    · rw [State.boot_powerFail hd1 hf1 (by rw [hb1, hp]), (State.only_powerEvent ..).now]; rfl
    · exact (State.only.refl (may := [.out, .regs, .arr, .strm, .mas, .host, .link, .wts, .stew, .jr, .boot])).wr.powerEvent.powerFail.fuses
  case refine_4 =>
    have hoff : s.boot.off = false := (Bool.or_eq_false_iff.mp hd).1
    have hd1 : (s.noteOvervolt true).dark = false := hd
    have hb := State.boot_powerFail hd1 hf hp
    simp only [hoff, Bool.false_eq_true, if_false]
    refine ⟨?_, ?_, ?_, ?_⟩
    · rw [(State.above_powerFail hd1 hf).flag F.PIN_STATUS_OVERVOLT 0 .glob, State.flag_wr_apart _ _ (by decide), State.flag_noteOvervolt]
    · rw [hb]; rfl
    · rw [hb]; rfl
    · exact (State.only.refl (may := [.out, .regs, .arr, .strm, .mas, .host, .link, .wts, .stew, .jr, .boot])).noteOvervolt.powerFail.fuses
  case refine_5 =>
    rw [State.rd_wr_apart _ _ (by decide), State.rd_wr_self]; rfl
  case refine_6 => rw [State.rd_wr_self]; rfl
  case refine_7 =>
    rw [State.doWrite_PIN_STATUS (State.writes_PIN_STATUS hd hlc hm)]
    refine ⟨State.flag_noteOvervolt s false, rfl, ?_⟩
    exact (State.regsBut.refl.wr (f := F.PIN_STATUS_OVERVOLT) (v := 0) (List.Subset.refl _)).of_regs rfl
  case refine_8 =>
    have hnow : ¬ s.now < s.host.mgmtSeen + 60000000000 := by omega
    simp only [hd, hnow, hs, Bool.false_eq_true, or_self, if_false]
    have hol := (State.only.refl (s := s) (may := [.out, .regs, .host, .boot])).wr (f := F.PWR_LIMIT_SAFE) (v := 1) (i := 0) (w := .glob) |>.powerEvent
      (kind := 8) (unit := 0xFF) (v0 := 0) (v1 := 0) |>.updateLimit
    refine ⟨?_, hol.fuses, hol.mas⟩
    rw [State.flag_congr_rd ((State.rd_updateLimit _).trans (State.rd_powerEvent ..)), State.flag_wr_self]; rfl
  case refine_9 =>
    simp only [hd, hr, Bool.false_eq_true, if_false]
    exact (State.modState_faultFrom ..).trans (State.modState_moduleFault _)
end Sys2Proof.Machine
end

section
/-!
PROOF. Start-up and recovery (R431, R434, R435, R442).
-/
namespace Sys2Proof.Machine

set_option Elab.async false

section
variable {s : State} {f : Fld} {i : Nat} {w : Win}

theorem State.rd_moduleTo (s : State) (v : Nat) (h : F.MODULE_STATE_STATE.apart 0 .glob f i w = true) : (s.moduleTo v).rd f i w = s.rd f i w :=
  State.rd_of_ite rfl ((State.rd_powerEvent ..).trans (s.rd_wr_apart _ h))
theorem State.modState_moduleTo_fits (s : State) {v : Nat} (h : v < 16) : (s.moduleTo v).modState = v := by
  rw [State.modState_moduleTo, Nat.mod_eq_of_lt h, ite_self]
theorem State.rd_faultFrom (s old : State) (f : Fld) (i : Nat) (w : Win) : (s.faultFrom old).rd f i w = s.rd f i w :=
  State.rd_congr (State.only.refl (may := [.out])).faultFrom.regs f i w

/-- R435: recovery starts in Keep-alive at STAGE 8 with its cause. -/
theorem State.enterRecovery_fields (s : State) {cause : Nat} (hc : cause < 16) : (s.enterRecovery cause).rd F.BOOT_STATUS_STAGE = 8 ∧
    (s.enterRecovery cause).boot.recovering = true ∧ (s.enterRecovery cause).rd F.BOOT_STATUS_CAUSE = cause ∧
    (s.enterRecovery cause).modState = 1 := by
  unfold State.enterRecovery
  extract_lets s1
  have hrd : ∀ g, F.MODULE_STATE_STATE.apart 0 .glob g 0 .glob = true → F.BOOT_STATUS_RECOVERY_TRIES.apart 0 .glob g 0 .glob = true →
      s1.rd g = ((s.stopCores.wr F.BOOT_STATUS_STAGE 8).wr F.BOOT_STATUS_CAUSE cause).rd g := fun g hm ht =>
    (State.rd_moduleTo _ _ hm).trans (State.rd_wr_apart _ _ ht)
  refine ⟨?_, by rw [(State.only.refl (may := [.out])).faultFrom.boot], ?_, ?_⟩
  · rw [State.rd_faultFrom, State.rd_with_boot, hrd _ (by decide) (by decide), State.rd_wr_apart _ _ (by decide), State.rd_wr_self]; rfl
  · rw [State.rd_faultFrom, State.rd_with_boot, hrd _ (by decide) (by decide), State.rd_wr_self]
    exact Nat.mod_eq_of_lt hc
  · exact (State.modState_faultFrom ..).trans ((State.rd_with_boot ..).trans (State.modState_moduleTo_fits _ (by decide)))

/-- R431: at Ready the start-up is over. -/
theorem State.reachReady_fields (s : State) (found : Found) : (s.reachReady found).rd F.BOOT_STATUS_STAGE = 7 ∧
    (s.reachReady found).modState = 2 ∧ (s.reachReady found).boot.bootBy = none := by
  unfold State.reachReady
  extract_lets s1 s2 s3
  generalize hu : ({ s3 with boot := { s3.boot with bootBy := none, stopping := false } } : State) = u
  have hab : u.above 0x20004 ((u.faultFrom s).startPairing) := State.above.refl.faultFrom.startPairing
  refine ⟨?_, ?_, ?_⟩
  · rw [hab.rd F.BOOT_STATUS_STAGE 0 .glob, ← hu, State.rd_with_boot, State.rd_moduleTo _ _ (by decide), State.rd_wr_self]; rfl
  · rw [hab.modState, ← hu]
    exact (State.rd_with_boot ..).trans (State.modState_moduleTo_fits _ (by decide))
  · rw [(State.only.refl (s := u) (may := [.out, .fresh, .regs, .err, .host, .link, .jr])).faultFrom.startPairing.boot, ← hu]

theorem State.headerCause_lt (s : State) (b : List Byte) : s.headerCause b < 16 := by
  unfold State.headerCause
  split_ifs <;> decide
end

/-- Settles O14: phase by phase, each by what it writes. -/
theorem startUpAdvancesByPhases : Obligations.StartUpAdvancesByPhases := by
  intro s misread found hd
  refine ⟨fun hs hf => ⟨_, rfl, ?_⟩, fun hs hf => ⟨_, rfl, ?_⟩, fun hs hc => ⟨_, rfl, ?_⟩, fun hs hc => ⟨_, rfl, ?_⟩, fun hs hi => ⟨_, rfl, ?_⟩,
    fun hs => ⟨_, rfl, ?_⟩, fun hs => ⟨_, rfl, ?_⟩, fun hs => ⟨_, rfl, ?_⟩, fun u hu hn h1 h6 => ⟨_, rfl, ?_⟩, fun hr ht => ⟨_, rfl, ?_⟩,
    fun b hr hb hc => ⟨_, rfl, ?_⟩⟩
  case refine_1 =>
    simp only [hd, hs, hf, Bool.false_eq_true, if_false, if_true]
    exact State.enterRecovery_fields s (by decide)
  case refine_2 =>
    simp only [hd, hs, hf, Bool.false_eq_true, if_false]
    exact ⟨State.rd_wr_fits (by decide), rfl, State.regsBut.refl.wr (List.Subset.refl _)⟩
  case refine_3 =>
    simp only [hd, hs, hc, Bool.false_eq_true, ne_eq, not_true_eq_false, if_false]
    exact ⟨State.rd_wr_fits (by decide), rfl, State.regsBut.refl.wr (List.Subset.refl _)⟩
  case refine_4 =>
    simp only [hd, hs, hc, Bool.false_eq_true, ne_eq, not_false_eq_true, if_false, if_true]
    exact State.enterRecovery_fields s (State.headerCause_lt ..)
  case refine_5 =>
    simp only [hd, hs, hi, Bool.false_eq_true, Bool.not_true, if_false]
    refine ⟨?_, ?_, trivial, trivial⟩
    · rw [State.rd_with_boot, State.rd_wr_self]; rfl
    · rw [State.rd_with_boot, State.rd_wr_apart _ _ (by decide), State.rd_wr_self]
  case refine_6 =>
    simp only [hd, hs, Bool.false_eq_true, if_false]
    exact State.rd_wr_fits (by decide)
  case refine_7 =>
    simp only [hd, hs, Bool.false_eq_true, if_false]
    exact State.rd_wr_fits (by decide)
  case refine_8 =>
    simp only [hd, hs, Bool.false_eq_true, if_false]
    exact State.reachReady_fields s found
  case refine_9 =>
    have hgo : ¬ (s.now < u ∨ s.rd F.BOOT_STATUS_STAGE = 0 ∨ 6 < s.rd F.BOOT_STATUS_STAGE) := by omega
    simp only [hu, hgo, if_false]
    exact (State.modState_faultFrom ..).trans (State.modState_moduleTo_fits _ (by decide))
  case refine_10 =>
    rw [if_pos ⟨hr, ht⟩]
    have hrd : ({ s with boot := { s.boot with triedAt := s.now } } : State).rd F.BOOT_STATUS_RECOVERY_TRIES = s.rd F.BOOT_STATUS_RECOVERY_TRIES :=
      State.rd_with_boot ..
    refine ⟨rfl, ?_, State.regsBut.refl.setBoot.wr (List.Subset.refl _)⟩
    rw [State.bumpSat, State.rd_wr_fits, hrd]
    · rfl
    · exact Nat.lt_of_le_of_lt (Nat.min_le_right ..) (by decide)
  case refine_11 =>
    have hlen : ¬ maxImage < b.length := Nat.not_lt.mpr hb
    rw [if_neg (by rw [hr]; nofun)]
    dsimp only
    rw [if_neg (by simp [hlen]), if_neg]
    case hnc => exact not_not_intro hc
    have hof := fun (t : State) => (State.only.refl (s := t) (may := [.out])).faultFrom (old := s)
    refine ⟨?_, ?_, ?_, ?_, ?_⟩
    · rw [State.rd_faultFrom, State.rd_with_boot, State.rd_wr_self]; rfl
    · rw [(hof _).boot]
    · rw [(hof _).boot]; rfl
    · rw [State.flag_congr_rd ((State.rd_faultFrom ..).trans (State.rd_with_boot ..)), State.flag_wr_apart _ _ (by decide), State.flag_wr_self]; rfl
    · rw [(hof _).fuses]; rfl
end Sys2Proof.Machine
end

section
/-!
PROOF. Cold resets (R406, R430, R432, R437, R469).
-/
namespace Sys2Proof.Machine

set_option Elab.async false

section
variable {s t : State} {path : Path}

/-- R432: what a cold reset starts from: every register at its reset value, and the parts that the fuses, the NOR and the drives keep. -/
def State.restarted (s : State) : State :=
  { State.reset with
    pending := s.pending, now := s.now, out := s.out, fresh := s.fresh, fuses := s.fuses
    mas := { Mas.reset with drives := s.mas.drives, deepSeq := s.mas.deepSeq }
    wts := { pkgs := s.storedPkgs, jobs := [] }
    strm := { Strm.reset with mismatchAt := s.strm.mismatchAt }
    err := { Err.reset with scrubAt := (List.range 4).map (fun k => (k, s.now)) }
    host := { HostSt.reset with mgmtSeen := s.now }
    boot := { Boot.reset with nor := s.boot.nor, off := s.boot.off, held := s.boot.held, refBad := s.boot.refBad, softUntil := s.boot.softUntil } }
/-- The registers that a cold reset writes after it: the cause, what the NOR restores, and the pins. -/
def State.restored (s : State) (cause : Nat) : State :=
  let n := s.boot.nor
  let t1 := (((s.restarted.wr F.BOOT_STATUS_RESET_CAUSE cause).wrFlag F.BOOT_CFG_AUTO_READY n.autoReady).wrFlag F.PIN_STATUS_OVERVOLT
    n.overvolt).wr F.PCL_TIME_MS n.pclTime
  let t2 := (List.range 5).foldl (fun (t : State) k =>
    let r := n.pcl.getD k (0, 0, 0)
    ((t.wr F.PCL_RESULT_OUTCOME r.1 k).wr F.PCL_RESULT_FAULTS r.2.1 k).wr F.PCL_RESULT_FIRST r.2.2 k) (t1.wr F.BOOT_COUNT_VALUE n.bootCount)
  let capLow := s.rd F.PIN_STATUS_CAPDROP_LVL
  let pfwLow := s.rd F.PIN_STATUS_PFW_LVL
  let t4 := ((t2.wr F.PIN_STATUS_CAPDROP_LVL capLow).wr F.PIN_STATUS_PFW_LVL pfwLow).wr F.PWR_LIMIT_CAPDROP (1 - capLow)
  (t4.wr F.PWR_LIMIT_PFW (1 - pfwLow)).wrFlag F.PWR_STATUS_REFCLK_FAIL s.boot.refBad
theorem State.coldReset_eq (s : State) (cause : Nat) : s.coldReset cause = ((s.restored cause).updateLimit).faultFrom s := rfl
theorem State.only_restored (s : State) (cause : Nat) : s.restarted.only [.regs] (s.restored cause) := by
  unfold State.restored
  extract_lets n t1 t2 capLow pfwLow t4
  have ht1 : s.restarted.only [.regs] t1 := State.only.refl.wr.wrFlag.wrFlag.wr
  have ht2 : s.restarted.only [.regs] t2 := ht1.wr.foldl fun t k ht => ht.wr.wr.wr
  exact ht2.wr.wr.wr.wr.wrFlag

/-! A change of the limit keeps what the NOR holds, and without sessions it sends nothing. -/

theorem State.powerEvent_of_no_sessions (h : s.host.sessions = []) (kind unit v0 v1 : Nat) : s.powerEvent kind unit v0 v1 = s := by
  rw [State.powerEvent, h]
  rfl
theorem State.sessions_updateLimit (h : s.host.sessions = []) : s.updateLimit.host.sessions = [] := by
  have hset : ∀ l src, (s.setLimit l src).host.sessions = [] := fun l src => by
    have hw : ((s.wr F.PWR_LIMIT_LIMIT_W l).wr F.PWR_LIMIT_SOURCE src).host.sessions = [] := h
    exact of_ite (P := fun t : State => t.host.sessions = []) hw (by rw [State.powerEvent_of_no_sessions hw]; exact hw)
  have hstr : ∀ t : State, t.stretch.host = t.host := fun t => (State.only.refl (may := [.regs, .boot])).stretch.host
  unfold State.updateLimit
  exact of_ite (P := fun t : State => t.host.sessions = []) (by rw [hstr]; exact hset ..) (of_ite (P := fun t : State => t.host.sessions = []) h h)

/-- What of the boot part a change of the limit leaves: everything but its own time and the slews it starts. -/
def Boot.limitOnly (b c : Boot) : Prop := c = { b with limitAt := c.limitAt, slews := c.slews }
theorem Boot.limitOnly.slew {b c : Boot} (h : b.limitOnly c) (l : SMap (Nat × Nat × Nat)) : b.limitOnly { c with slews := l } := by
  have e := congrArg (fun x : Boot => { x with slews := l }) h
  exact e
theorem State.boot_updateLimit (s : State) : s.boot.limitOnly s.updateLimit.boot := by
  have hset : ∀ l src, (s.setLimit l src).boot = s.boot := fun l src => (State.only.refl (may := [.out, .regs, .host])).setLimit.boot
  have hstr : ∀ t : State, t.boot.limitOnly t.stretch.boot := fun t => by
    unfold State.stretch
    refine List.foldlRecOn (motive := fun u : State => t.boot.limitOnly u.boot) _ _ rfl fun u hu d _ => ?_
    exact of_ite (P := fun v : State => t.boot.limitOnly v.boot) (hu.slew _) hu
  unfold State.updateLimit
  refine of_ite (P := fun v : State => s.boot.limitOnly v.boot) ?_ (of_ite (P := fun v : State => s.boot.limitOnly v.boot) rfl rfl)
  have := hstr (s.setLimit s.limitGoal.1 s.limitGoal.2)
  rw [hset] at this
  exact this

/-- R432: what a cold reset leaves. -/
structure State.startedOver (s : State) (cause : Nat) (t : State) : Prop where
  others : s.restarted.only [.out, .regs, .host, .boot] t
  boot : s.restarted.boot.limitOnly t.boot
  sessions : t.host.sessions = []
  rest : ∀ f : Fld, (F.PWR_LIMIT_LIMIT_W.apart 0 .glob f 0 .glob = true) → (F.PWR_LIMIT_SOURCE.apart 0 .glob f 0 .glob = true) →
    (∀ d < 4, F.DIE_OPPOINT_ACLK_M.apart d .glob f 0 .glob = true) → t.rd f = (s.restored cause).rd f
theorem State.startedOver_coldReset (s : State) (cause : Nat) : s.startedOver cause (s.coldReset cause) := by
  rw [State.coldReset_eq]
  have hr := s.only_restored cause
  have hf : ∀ t : State, t.only [.out] (t.faultFrom s) := fun t => State.only.refl.faultFrom
  refine ⟨(hr.mono (by decide)).updateLimit.faultFrom, ?_, ?_, fun f hl hs hd => ?_⟩
  · rw [(hf _).boot, ← hr.boot]
    exact State.boot_updateLimit _
  · rw [(hf _).host]
    exact State.sessions_updateLimit (by rw [hr.host]; rfl)
  · rw [State.rd_faultFrom, State.rd_updateLimit _ hl hs hd]

theorem State.modState_restored (s : State) (cause : Nat) : (s.restored cause).modState = 1 := by
  have h : s.restarted.above 0xC (s.restored cause) := by
    unfold State.restored
    extract_lets n t1 t2 capLow pfwLow t4
    have ht1 : s.restarted.above 0xC t1 := State.above.refl.wr.wrFlag.wrFlag.wr
    have ht2 : s.restarted.above 0xC t2 := ht1.wr.foldl fun t k ht => ht.wr.wr.wr
    exact ht2.wr.wr.wr.wr.wrFlag
  exact h.modState.trans ((State.rd_congr (s := State.reset) (by rfl) F.MODULE_STATE_STATE 0 .glob).trans (by decide))
theorem State.startedOver.modState {cause : Nat} (h : s.startedOver cause t) : t.modState = 1 :=
  (h.rest F.MODULE_STATE_STATE (by decide) (by decide) (by decide)).trans (s.modState_restored cause)
/-- The registers of boot and reset are written first. -/
theorem State.rd_restored (s : State) (cause : Nat) {f : Fld} (hf : ∀ g ∈ [F.PIN_STATUS_OVERVOLT, F.PCL_TIME_MS, F.BOOT_COUNT_VALUE,
      F.PIN_STATUS_CAPDROP_LVL, F.PIN_STATUS_PFW_LVL, F.PWR_LIMIT_CAPDROP, F.PWR_LIMIT_PFW, F.PWR_STATUS_REFCLK_FAIL],
      g.apart 0 .glob f 0 .glob = true)
    (hp : ∀ k < 5, ∀ g ∈ [F.PCL_RESULT_OUTCOME, F.PCL_RESULT_FAULTS, F.PCL_RESULT_FIRST], g.apart k .glob f 0 .glob = true) :
    (s.restored cause).rd f = ((s.restarted.wr F.BOOT_STATUS_RESET_CAUSE cause).wrFlag F.BOOT_CFG_AUTO_READY s.boot.nor.autoReady).rd f := by
  simp only [List.forall_mem_cons, List.not_mem_nil, false_imp_iff, implies_true, and_true] at hf hp
  obtain ⟨h1, h2, h3, h4, h5, h6, h7, h8⟩ := hf
  unfold State.restored
  simp only [State.wrFlag]
  rw [State.rd_wr_apart _ _ h8, State.rd_wr_apart _ _ h7, State.rd_wr_apart _ _ h6, State.rd_wr_apart _ _ h5, State.rd_wr_apart _ _ h4,
    State.rd_of_foldl _ fun t k hk => ?_, State.rd_wr_apart _ _ h3, State.rd_wr_apart _ _ h2, State.rd_wr_apart _ _ h1]
  obtain ⟨ho, hc, hg⟩ := hp k (List.mem_range.mp hk)
  rw [State.rd_wr_apart _ _ hg, State.rd_wr_apart _ _ hc, State.rd_wr_apart _ _ ho]
theorem State.startedOver.autoReady {cause : Nat} (h : s.startedOver cause t) : t.flag F.BOOT_CFG_AUTO_READY = s.boot.nor.autoReady := by
  rw [State.flag_congr_rd ((h.rest F.BOOT_CFG_AUTO_READY (by decide) (by decide) (by decide)).trans
    (s.rd_restored cause (by decide) (by decide))), State.wrFlag, State.flag_wr_self]
  cases s.boot.nor.autoReady <;> rfl
theorem State.startedOver.cause {cause : Nat} (h : s.startedOver cause t) (hc : cause < 16) : t.rd F.BOOT_STATUS_RESET_CAUSE = cause := by
  rw [h.rest F.BOOT_STATUS_RESET_CAUSE (by decide) (by decide) (by decide), s.rd_restored cause (by decide) (by decide), State.wrFlag,
    State.rd_wr_apart _ _ (by decide), State.rd_wr_fits hc]

/-! ## The key (R437) -/

theorem State.writes_COLD_RESET (hd : s.dark = false) (hlc : s.lc ≠ .retired)
    (hm : s.mayWrite path (Reg.addr .COLD_RESET 0 .glob 0) .COLD_RESET = true) (v : Nat) :
    s.writes path (Reg.addr .COLD_RESET 0 .glob 0) v .COLD_RESET 0 .glob 0 := by
  refine State.writes_low hd hlc (State.locate_addr (Reg.has_glob (by decide) (by decide)) trivial rfl) hm (by decide) ?_
  have hlt : ∀ n, ¬ 65535 < bitsOf n 0 16 := fun n => Nat.not_lt.mpr (Nat.le_of_lt_succ (bitsOf_lt n 0 16))
  simp [State.writeRefused, Reg.info, FieldDef.inWord, Acc.writable, FieldDef.breaksSeal, State.fieldRefuses, hlt]
theorem State.writeReg_COLD_RESET (s : State) (path : Path) (i : Nat) (w : Win) (k v n : Nat) :
    s.writeReg path .COLD_RESET i w k v n = (match s.writeColdReset v with | some t => (true, t) | none => (false, s)) := rfl
end

/-- Settles O13: a cold reset starts from one state, and what it writes after it is registers. -/
theorem coldResetsStartOver : Obligations.ColdResetsStartOver := by
  refine ⟨fun s => ⟨fun hoff => ⟨_, rfl, ?_⟩, fun u hu hn hw => ⟨_, rfl, ?_⟩, fun u hu hn => ⟨_, rfl, ?_⟩, fun hoff => ⟨_, rfl, ?_⟩,
    fun hoff => ⟨_, rfl, ?_⟩, fun hh ha => ⟨_, rfl, ?_⟩⟩, fun s path hd hlc hm => ⟨fun hr ha => ⟨_, rfl, ?_⟩, fun v hv hk => ⟨_, rfl, ?_⟩⟩⟩
  case refine_1 =>
    simp only [hoff, Bool.not_true, Bool.false_eq_true, if_false]
    generalize hu : ({ s with boot := { s.boot with off := false, softUntil := some (s.now + 30000000) } } : State) = u
    obtain ⟨ho, hb, -, -⟩ := State.startedOver_coldReset u 0
    have hb' := hb
    unfold Boot.limitOnly at hb'
    refine ⟨?_, ?_, ho.arr, ho.stew, ho.jr, ho.link, ?_, ?_⟩
    · rw [hb', ← hu]; rfl
    · rw [hb', ← hu]; rfl
    · rw [ho.mas, ← hu]; rfl
    · rw [ho.fuses, ← hu]; rfl
  case refine_2 =>
    have hnow : ¬ s.now < u := Nat.not_lt.mpr hn
    simp only [hu, hw, hnow, Bool.false_eq_true, false_and, if_false]
  case refine_3 => simp only [hu, hn, if_true]
  case refine_4 =>
    simp only [hoff, Bool.false_eq_true, if_false]
    have hp : s.only [.regs, .boot] (s.pclStop 3 5) := State.only.refl.pclStop
    generalize hu : ({ s.pclStop 3 5 with boot := { (s.pclStop 3 5).boot with off := true, softUntil := none } } : State) = u
    obtain ⟨ho, hb, -, -⟩ := State.startedOver_coldReset u 0
    have hf : (u.coldReset 0).only [.out] ((u.coldReset 0).faultFrom s) := State.only.refl.faultFrom
    refine ⟨?_, hf.arr.trans ho.arr, hf.stew.trans ho.stew, hf.jr.trans ho.jr, hf.link.trans ho.link, ?_, ?_⟩
    · unfold Boot.limitOnly at hb
      rw [hf.boot, hb, ← hu]; rfl
    · rw [hf.mas, ho.mas, ← hp.mas, ← hu]; rfl
    · rw [hf.fuses, ho.fuses, ← hp.fuses, ← hu]; rfl
  case refine_5 =>
    simp only [hoff, Bool.false_eq_true, if_false]
    obtain ⟨ho, -, -, -⟩ := State.startedOver_coldReset s 1
    refine ⟨trivial, ho.arr, ho.stew, ho.jr, ho.link, ?_, ho.fuses⟩
    rw [ho.mas]; rfl
  case refine_6 =>
    have hf : ({ s with boot := { s.boot with held := false } } : State).flag F.BOOT_CFG_AUTO_READY = false :=
      (State.flag_congr_rd (State.rd_with_boot ..)).trans ha
    simp only [hh, hf, Bool.not_true, Bool.not_false, Bool.false_eq_true, if_false, or_true, if_true]
  case refine_7 =>
    have hgo := State.startedOver_coldReset s 2
    have hkey : s.writeReg path .COLD_RESET 0 .glob 0 (0xB007 % 2 ^ 32) = fun _ => (true, s.coldReset 2) := by
      funext n
      have hrun : s.writeColdReset 0xB007 = some (s.coldReset 2) := by
        simp [State.writeColdReset, hr, State.resetThen, hgo.autoReady, ha, bitsOf, bitOf]
      exact (State.writeReg_COLD_RESET ..).trans (by rw [Nat.mod_eq_of_lt (by decide), hrun])
    rw [State.doWrite_of_taken (State.writes_COLD_RESET hd hlc hm _) (congrFun hkey _) (by simp [settles])]
    obtain ⟨ho, hb, hs, -⟩ := id hgo
    unfold Boot.limitOnly at hb
    have hdrives : (s.coldReset 2).mas.drives = s.mas.drives := by rw [ho.mas]; rfl
    have hnor : (s.coldReset 2).boot.nor = s.boot.nor := by rw [hb]; rfl
    refine ⟨hgo.modState, hgo.cause (by decide), ho.arr, ?_, ?_, ?_, ho.wts, hs, ho.link, ho.stew, ho.jr, hnor, ho.fuses⟩
    · exact (congrArg Strm.cmdMem ho.strm).trans rfl
    · exact (congrArg Mas.pages ho.mas).trans rfl
    · exact hdrives
  case refine_8 =>
    have hrun : s.writeColdReset v = none := by
      have : bitsOf v 0 16 ≠ 0xB007 := by simpa [bitsOf] using hk
      simp [State.writeColdReset, this]
    rw [State.doWrite_of_refused (t := s) (State.writes_COLD_RESET hd hlc hm _)
      ((State.writeReg_COLD_RESET ..).trans (by rw [Nat.mod_eq_of_lt hv, hrun]))]
end Sys2Proof.Machine
end

section
/-!
PROOF. The life cycle (R441 to R444).
-/
namespace Sys2Proof.Machine

set_option Elab.async false

/-! ## The life-cycle words -/

theorem bitOf_eq_testBit (n k : Nat) : bitOf n k = n.testBit k := (Nat.testBit_eq_decide_div_mod_eq).symm
/-- Burning pair `k` sets that pair and leaves the others. -/
theorem lcPair_lor {w k j : Nat} (hk : k < 4) (hj : j < 4) : lcPair (w ||| 3 * 4 ^ k) j = (lcPair w j || decide (j = k)) := by
  have hb : ∀ k < 4, ∀ j < 4, (3 * 4 ^ k).testBit (2 * j) = decide (j = k) ∧ (3 * 4 ^ k).testBit (2 * j + 1) = decide (j = k) := by decide
  obtain ⟨h0, h1⟩ := hb k hk j hj
  simp only [lcPair, bitOf_eq_testBit, Nat.testBit_lor, h0, h1]
  cases w.testBit (2 * j) <;> cases w.testBit (2 * j + 1) <;> cases decide (j = k) <;> rfl
theorem lcPair_of_low {w j : Nat} (hj : j < 4) (hw : w % 256 = 0) : lcPair w j = false := by
  have hlow : ∀ i < 8, bitOf w i = false := fun i hi => by
    have h := Nat.testBit_mod_two_pow w 8 i
    rw [show w % 2 ^ 8 = 0 from hw, Nat.zero_testBit, decide_eq_true hi, Bool.true_and] at h
    rw [bitOf_eq_testBit, ← h]
  simp [lcPair, hlow (2 * j) (by omega), hlow (2 * j + 1) (by omega)]

section
variable {s t : State}

/-- The life-cycle word of an epoch. -/
def State.lcWord (s : State) (e : Nat) : Nat := s.fuses.lcWords.getD e 0
/-- R441: the epoch is the last whose word has a burned pair, or the first. -/
theorem State.epoch_cases (s : State) : s.epoch < 4 ∧ (∀ e < 4, s.epoch < e → s.lcWord e % 256 = 0) ∧ (s.epoch = 0 ∨ s.lcWord s.epoch % 256 ≠ 0) := by
  unfold State.epoch State.lcWord
  rw [show (List.range 4).reverse = [3, 2, 1, 0] from rfl]
  simp only [List.find?]
  by_cases h3 : s.fuses.lcWords.getD 3 0 % 256 = 0
  · by_cases h2 : s.fuses.lcWords.getD 2 0 % 256 = 0
    · by_cases h1 : s.fuses.lcWords.getD 1 0 % 256 = 0
      · have hall : ∀ e < 4, 0 < e → s.fuses.lcWords.getD e 0 % 256 = 0 := fun e he h0 => by
          obtain rfl | rfl | rfl : e = 1 ∨ e = 2 ∨ e = 3 := by omega
          · exact h1
          · exact h2
          · exact h3
        by_cases h0 : s.fuses.lcWords.getD 0 0 % 256 = 0
        · simpa only [h3, h2, h1, h0, ne_eq, not_true_eq_false, decide_false, Option.getD_none] using ⟨by decide, hall, .inl trivial⟩
        · simpa only [h3, h2, h1, h0, ne_eq, not_true_eq_false, not_false_eq_true, decide_false, decide_true, Option.getD_some] using
            ⟨by decide, hall, .inl trivial⟩
      · simp only [h3, h2, h1, ne_eq, not_true_eq_false, not_false_eq_true, decide_false, decide_true, Option.getD_some]
        refine ⟨by decide, fun e he h0 => ?_, .inr trivial⟩
        obtain rfl | rfl : e = 2 ∨ e = 3 := by omega
        · exact h2
        · exact h3
    · simp only [h3, h2, ne_eq, not_true_eq_false, not_false_eq_true, decide_false, decide_true, Option.getD_some]
      refine ⟨by decide, fun e he h0 => ?_, .inr trivial⟩
      obtain rfl : e = 3 := by omega
      exact h3
  · simp only [h3, ne_eq, not_false_eq_true, decide_true, Option.getD_some]
    exact ⟨by decide, fun e he h0 => by omega, .inr trivial⟩
theorem State.epoch_eq {e : Nat} (he : e < 4) (hw : s.lcWord e % 256 ≠ 0) (hmax : ∀ k < 4, e < k → s.lcWord k % 256 = 0) : s.epoch = e := by
  obtain ⟨hlt, hz, hn⟩ := s.epoch_cases
  have h1 : ¬ s.epoch < e := fun h => hw (hz e he h)
  have h2 : ¬ e < s.epoch := fun h => hn.elim (by omega) fun hn => hn (hmax _ hlt h)
  omega

theorem State.lcWord_burn (s : State) (e k : Nat) {i : Nat} (hi : i < 4) :
    (s.burn e k).lcWord i = if i = e then s.lcWord i ||| 3 * 4 ^ k else s.lcWord i := by
  simp [State.lcWord, State.burn, List.getD_eq_getElem?_getD, hi]
/-- R443: a pair burned in the epoch, or in one after it, makes that the epoch. -/
theorem State.epoch_burn {e k : Nat} (he : e < 4) (hk : k < 4) (hs : s.epoch ≤ e) : (s.burn e k).epoch = e := by
  refine State.epoch_eq he ?_ fun j hj hej => ?_
  · rw [State.lcWord_burn s e k he, if_pos rfl]
    intro h0
    have := lcPair_of_low hk h0
    rw [lcPair_lor hk hk] at this
    simp at this
  · rw [State.lcWord_burn s e k hj, if_neg (by omega)]
    exact s.epoch_cases.2.1 j hj (by omega)

/-- R441: the state by its pairs. -/
theorem State.lc_eq (s : State) : s.lc = if s.fuses.retiredPair % 4 ≠ 0 then .retired else if lcPair (s.lcWord s.epoch) 3 then .returned
    else if lcPair (s.lcWord s.epoch) 2 then .deployed else if lcPair (s.lcWord s.epoch) 1 then .provisioned
    else if lcPair (s.lcWord s.epoch) 0 then .factory else .blank := rfl
theorem State.lc_congr (h : t.fuses = s.fuses) : t.lc = s.lc ∧ t.epoch = s.epoch := by
  rw [State.lc_eq, State.lc_eq, State.lcWord, State.lcWord, State.epoch, State.epoch, h]
  exact ⟨rfl, rfl⟩
theorem State.lc_burn {e k : Nat} (he : e < 4) (hk : k < 4) (hs : s.epoch ≤ e) (hr : s.lc ≠ .retired)
    (hhigh : ∀ j < 4, k < j → lcPair (s.lcWord e) j = false) :
    (s.burn e k).lc = [LcSt.factory, .provisioned, .deployed, .returned].getD k .blank := by
  have hpair : s.fuses.retiredPair % 4 = 0 := by
    by_contra h
    exact hr (by rw [State.lc_eq, if_pos h])
  have hpair' : (s.burn e k).fuses.retiredPair % 4 = 0 := hpair
  rw [State.lc_eq, State.epoch_burn he hk hs, State.lcWord_burn s e k he, if_pos rfl, hpair']
  have hj : ∀ j < 4, k < j → lcPair (s.lcWord e ||| 3 * 4 ^ k) j = false := fun j hj hkj => by
    rw [lcPair_lor hk hj, hhigh j hj hkj, Bool.false_or, decide_eq_false (by omega)]
  have hk' : lcPair (s.lcWord e ||| 3 * 4 ^ k) k = true := by rw [lcPair_lor hk hk]; simp
  generalize s.lcWord e ||| 3 * 4 ^ k = x at hj hk' ⊢
  obtain rfl | rfl | rfl | rfl : k = 0 ∨ k = 1 ∨ k = 2 ∨ k = 3 := by omega
  · simp [hk', hj 1 (by decide) (by decide), hj 2 (by decide) (by decide), hj 3 (by decide) (by decide)]
  · simp [hk', hj 2 (by decide) (by decide), hj 3 (by decide) (by decide)]
  · simp [hk', hj 3 (by decide) (by decide)]
  · simp [hk']
/-- R441: a provisioned module's word has no later pair. -/
theorem State.lcPair_of_provisioned (h : s.lc = .provisioned) : lcPair (s.lcWord s.epoch) 3 = false := by
  rw [State.lc_eq] at h
  split_ifs at h with h1 h2
  all_goals exact Bool.eq_false_iff.mpr h2
theorem State.lc_of_retired (h : s.fuses.retiredPair = 3) : s.lc = .retired := by
  rw [State.lc_eq, h]
  rfl

/-! ## The writes of a request and of its confirmation (R444) -/

section
variable {i : Nat}
theorem State.mayWrite_owner (ho : s.ownerIndex = some i) (a : Nat) (r : Reg) : s.mayWrite (.session i) a r = true := by
  simp [State.mayWrite, State.isOwner, ho]
theorem State.writes_LC_REQUEST (hd : s.dark = false) (hlc : s.lc ≠ .retired) (ho : s.ownerIndex = some i) :
    s.writes (.session i) (Reg.addr .LC_REQUEST 0 .glob 0) 3 .LC_REQUEST 0 .glob 0 := by
  refine State.writes_low hd hlc (State.locate_addr (Reg.has_glob (by decide) (by decide)) trivial rfl) (State.mayWrite_owner ho ..) (by decide) ?_
  have hlt : ∀ n, ¬ 7 < bitsOf n 0 3 := fun n => Nat.not_lt.mpr (Nat.le_of_lt_succ (bitsOf_lt n 0 3))
  simp [State.writeRefused, Reg.info, FieldDef.inWord, Acc.writable, FieldDef.breaksSeal, State.fieldRefuses, hlt]
theorem State.writes_LC_CONFIRM (hd : s.dark = false) (hlc : s.lc ≠ .retired) (ho : s.ownerIndex = some i) (v : Nat) :
    s.writes (.session i) (Reg.addr .LC_CONFIRM 0 .glob 0) v .LC_CONFIRM 0 .glob 0 := by
  refine State.writes_low hd hlc (State.locate_addr (Reg.has_glob (by decide) (by decide)) trivial rfl) (State.mayWrite_owner ho ..) (by decide) ?_
  have hlt : ∀ n, ¬ 4294967295 < bitsOf n 0 32 := fun n => Nat.not_lt.mpr (Nat.le_of_lt_succ (bitsOf_lt n 0 32))
  simp [State.writeRefused, Reg.info, FieldDef.inWord, Acc.writable, FieldDef.breaksSeal, State.fieldRefuses, hlt]
theorem State.writeReg_LC_REQUEST (s : State) (path : Path) (i : Nat) (w : Win) (k v n : Nat) :
    s.writeReg path .LC_REQUEST i w k v n = s.writeLcRequest v := rfl
theorem State.writeReg_LC_CONFIRM (s : State) (path : Path) (i : Nat) (w : Win) (k v n : Nat) :
    s.writeReg path .LC_CONFIRM i w k v n = s.lcConfirm v := rfl
/-- R444: what becomes of a confirmation is what `lcConfirm` says, and nothing of it is journaled. -/
theorem State.doWrite_LC_CONFIRM (hd : s.dark = false) (hlc : s.lc ≠ .retired) (ho : s.ownerIndex = some i) {v : Nat} (hv : v < 2 ^ 32) :
    s.doWrite (.session i) (Reg.addr .LC_CONFIRM 0 .glob 0) v =
      (s.lcConfirm v).2.writeReply (.session i) (Reg.addr .LC_CONFIRM 0 .glob 0) (s.lcConfirm v).1 0 := by
  have hg : ∀ n, s.writeReg (.session i) .LC_CONFIRM 0 .glob 0 (v % 2 ^ 32) n = s.lcConfirm v := fun n => by
    rw [State.writeReg_LC_CONFIRM, Nat.mod_eq_of_lt hv]
  cases h : s.lcConfirm v with
  | mk ok t =>
    cases ok with
    | true => exact State.doWrite_of_taken (State.writes_LC_CONFIRM hd hlc ho v) ((hg _).trans h) rfl
    | false => exact State.doWrite_of_refused (State.writes_LC_CONFIRM hd hlc ho v) ((hg _).trans h)
/-- R444: a confirmation in time of an armed target that its conditions allow carries it out. -/
theorem State.lcConfirm_of_go {u v : Nat} (hu : s.boot.lcAt = some u) (hn : s.now ≤ u + 1000000000)
    (hv : v = complement32 (s.rd F.LC_REQUEST_TARGET)) (hg : s.lcDisarm.lcGo (s.rd F.LC_REQUEST_TARGET) = some t) : s.lcConfirm v = (true, t) := by
  have h : ¬ (u + 1000000000 < s.now ∨ v ≠ complement32 (s.rd F.LC_REQUEST_TARGET)) := by
    rintro (h | h)
    · omega
    · exact h hv
  simp only [State.lcConfirm, hu, h, if_false, hg]
theorem State.lcDisarm_fields (s : State) : s.lcDisarm.boot.lcAt = none ∧ s.lcDisarm.rd F.LC_REQUEST_ARMED = 0 ∧ s.lcDisarm.fuses = s.fuses :=
  ⟨rfl, (State.rd_with_boot ..).trans (s.rd_wr_self ..), rfl⟩
theorem State.rd_writeReply (s : State) (path : Path) (a : Nat) (ok : Bool) (detail : Nat) (f : Fld) (i : Nat) (w : Win) :
    (s.writeReply path a ok detail).rd f i w = s.rd f i w := State.rd_congr (s := s) (by rfl) f i w
theorem State.lcArm_fields (s : State) {target : Nat} (h : target < 8) : (s.lcArm target).boot.lcAt = some s.now ∧
    (s.lcArm target).rd F.LC_REQUEST_TARGET = target ∧ (s.lcArm target).rd F.LC_REQUEST_ARMED = 1 ∧
    s.regsBut (s.lcArm target) F.LC_REQUEST_TARGET.words ∧ (s.lcArm target).fuses = s.fuses := by
  refine ⟨rfl, ?_, ?_, ?_, (State.only.refl (may := [.regs, .boot])).lcArm.fuses⟩
  · exact (State.rd_with_boot ..).trans ((State.rd_wr_apart _ _ (by decide)).trans (State.rd_wr_fits h))
  · exact (State.rd_with_boot ..).trans (State.rd_wr_fits (by decide))
  · exact ((State.regsBut.refl.wr (f := F.LC_REQUEST_TARGET) (List.Subset.refl _)).wr (f := F.LC_REQUEST_ARMED) (List.Subset.refl _)).setBoot
theorem State.rd_lcDisarm (s : State) (f : Fld) (hf : F.LC_REQUEST_ARMED.apart 0 .glob f 0 .glob = true := by decide) :
    s.lcDisarm.rd f = s.rd f := (State.rd_with_boot ..).trans (s.rd_wr_apart _ hf)
end

/-! ## What a transition leaves -/

/-- R431: a start-up keeps what the cold reset before it left of the fuses, of its cause, and of the configuration. -/
theorem State.beginStartup_keeps (s : State) : s.beginStartup.fuses = s.fuses ∧ s.beginStartup.boot.nor.config = s.boot.nor.config ∧
    s.beginStartup.rd F.BOOT_STATUS_RESET_CAUSE = s.rd F.BOOT_STATUS_RESET_CAUSE := by
  refine ⟨(State.only.refl (may := [.out, .regs, .host, .boot])).beginStartup.fuses, ?_, ?_⟩
  · have hf : ∀ t : State, (t.faultFrom s).boot = t.boot := fun t => (State.only.refl (may := [.out])).faultFrom.boot
    have hm : ∀ t : State, (t.moduleTo 1).boot = t.boot := fun t => (t.only_moduleTo 1).boot
    unfold State.beginStartup
    refine of_ite (P := fun t : State => t.boot.nor.config = s.boot.nor.config) ?_ ?_
    · rw [hf, hm]; rfl
    · rw [hf]; rfl
  · have hw : ∀ (t : State) (f : Fld) (v : Nat), f.apart 0 .glob F.BOOT_STATUS_RESET_CAUSE 0 .glob = true →
        (t.wr f v).rd F.BOOT_STATUS_RESET_CAUSE = t.rd F.BOOT_STATUS_RESET_CAUSE := fun t f v h => State.rd_wr_apart _ _ h
    unfold State.beginStartup
    extract_lets n src src' s1 s2
    have h2 : s2.rd F.BOOT_STATUS_RESET_CAUSE = s.rd F.BOOT_STATUS_RESET_CAUSE := by
      exact (hw _ _ _ (by decide)).trans ((hw _ _ _ (by decide)).trans (State.rd_with_boot ..))
    refine State.rd_of_ite ?_ ?_
    · rw [State.rd_faultFrom, State.rd_moduleTo _ _ (by decide)]
      exact (State.rd_with_boot ..).trans ((hw _ _ _ (by decide)).trans ((hw _ _ _ (by decide)).trans h2))
    · rw [State.rd_faultFrom, hw _ _ _ (by decide), h2]
theorem State.resetThen_keeps (s : State) {cause : Nat} (hc : cause < 16) (restart : Bool) : (s.resetThen cause restart).fuses = s.fuses ∧
    (s.resetThen cause restart).boot.nor.config = s.boot.nor.config ∧ (s.resetThen cause restart).rd F.BOOT_STATUS_RESET_CAUSE = cause := by
  have hgo := s.startedOver_coldReset cause
  have hb := hgo.boot
  unfold Boot.limitOnly at hb
  have hcfg : (s.coldReset cause).boot.nor.config = s.boot.nor.config := by rw [hb]; rfl
  obtain ⟨h1, h2, h3⟩ := (s.coldReset cause).beginStartup_keeps
  unfold State.resetThen
  refine of_ite (P := fun t : State => t.fuses = s.fuses ∧ t.boot.nor.config = s.boot.nor.config ∧ t.rd F.BOOT_STATUS_RESET_CAUSE = cause)
    ⟨h1.trans hgo.others.fuses, h2.trans hcfg, h3.trans (hgo.cause hc)⟩ ⟨hgo.others.fuses, hcfg, hgo.cause hc⟩
theorem State.retireModule_fields (s : State) : s.retireModule.lc = .retired ∧ s.retireModule.fuses.seeds = 15 := by
  have h : s.retireModule.fuses = { s.fuses with retiredPair := 3, seeds := 15 } := (State.resetThen_keeps _ (by decide) _).1
  exact ⟨State.lc_of_retired (by rw [h]), by rw [h]⟩

/-- R443: the records of a new epoch leave the life-cycle words. -/
theorem State.newRecords_keeps (s : State) : s.newRecords.fuses.lcWords = s.fuses.lcWords ∧ s.newRecords.fuses.retiredPair = s.fuses.retiredPair := by
  have hrep : ∀ (t : State) (d c : Nat), (t.repairColumn d c).2.fuses.lcWords = t.fuses.lcWords ∧
      (t.repairColumn d c).2.fuses.retiredPair = t.fuses.retiredPair := fun t d c => by
    unfold State.repairColumn
    dsimp only
    split
    · exact ⟨rfl, rfl⟩
    · exact of_ite (P := fun r : Bool × State => r.2.fuses.lcWords = t.fuses.lcWords ∧ r.2.fuses.retiredPair = t.fuses.retiredPair) ⟨rfl, rfl⟩ ⟨rfl, rfl⟩
  unfold State.newRecords
  extract_lets src s1 s2 src' n src''
  have h2 : s2.fuses.lcWords = s.fuses.lcWords ∧ s2.fuses.retiredPair = s.fuses.retiredPair := by
    refine List.foldlRecOn (motive := fun u : State => u.fuses.lcWords = s.fuses.lcWords ∧ u.fuses.retiredPair = s.fuses.retiredPair)
      _ _ ⟨rfl, rfl⟩ fun u hu e _ => ?_
    obtain ⟨h1, h2⟩ := hrep u (e.2 % 4) (bitsOf e.2 7 5)
    exact of_ite (P := fun v : State => v.fuses.lcWords = s.fuses.lcWords ∧ v.fuses.retiredPair = s.fuses.retiredPair)
      ⟨h1.trans hu.1, h2.trans hu.2⟩ hu
  exact h2
theorem bitOf_lor_two_pow (a e : Nat) : bitOf (a ||| 2 ^ e) e = true := by
  rw [bitOf_eq_testBit, Nat.testBit_lor, Nat.testBit_two_pow_self, Bool.or_true]
/-- R443: provisioning burns the epoch's seed and root, and writes the provisioning area. -/
theorem State.provision_fields (s : State) {e : Nat} (he : e < 4) (key cert : List Byte) : (s.provision e key cert).boot.nor.rootKey = key ∧
    (s.provision e key cert).boot.nor.cert = cert ∧ bitOf (s.provision e key cert).fuses.roots e = true ∧
    bitOf (s.provision e key cert).fuses.seeds e = true ∧ (s.provision e key cert).fuses.rootDigests.getD e [] = Sm3.digest key := by
  refine ⟨rfl, rfl, bitOf_lor_two_pow .., bitOf_lor_two_pow .., ?_⟩
  simp [State.provision, State.burn, List.getD_eq_getElem?_getD, he]
/-- R443: the next epoch, whose word is empty, is provisioned. -/
theorem State.provision_next (h : s.lc = .returned) (he : s.epoch < 3) (key cert : List Byte) :
    (s.newRecords.provision (s.epoch + 1) key cert).epoch = s.epoch + 1 ∧ (s.newRecords.provision (s.epoch + 1) key cert).lc = .provisioned := by
  generalize hu : ({ s.newRecords with
    fuses := { s.newRecords.fuses with
      rootDigests := (List.range 4).map (fun i => if i = s.epoch + 1 then Sm3.digest key else s.newRecords.fuses.rootDigests.getD i [])
      roots := s.newRecords.fuses.roots ||| 2 ^ (s.epoch + 1), seeds := s.newRecords.fuses.seeds ||| 2 ^ (s.epoch + 1) }
    boot := { s.newRecords.boot with nor := { s.newRecords.boot.nor with rootKey := key, cert := cert } } } : State) = u
  have hprov : s.newRecords.provision (s.epoch + 1) key cert = u.burn (s.epoch + 1) 1 := by rw [← hu]; rfl
  obtain ⟨hw, hr⟩ := s.newRecords_keeps
  have hword : ∀ e, u.lcWord e = s.lcWord e := fun e => by rw [← hu, State.lcWord, State.lcWord, ← hw]
  have hpair : u.fuses.retiredPair = s.fuses.retiredPair := by rw [← hu, ← hr]
  have hep : u.epoch = s.epoch := by rw [← hu, State.epoch, State.epoch, ← hw]
  have hlc : u.lc = .returned := by rw [State.lc_eq, hep, hword, hpair, ← State.lc_eq, h]
  have hle : u.epoch ≤ s.epoch + 1 := by omega
  rw [hprov]
  refine ⟨State.epoch_burn (by omega) (by decide) hle, ?_⟩
  rw [State.lc_burn (by omega) (by decide) hle (by rw [hlc]; nofun) fun j hj _ => ?_]
  · rfl
  · rw [hword]
    exact lcPair_of_low hj (s.epoch_cases.2.1 _ (by omega) (by omega))
end

/-- Settles O16: what a request arms, what a confirmation carries out, and what the test access port burns. -/
theorem lifeCycleMovesForward : Obligations.LifeCycleMovesForward := by
  intro s i hd ho h1
  have hoff : s.boot.off = false := (Bool.or_eq_false_iff.mp hd).1
  refine ⟨fun hlc hst => ⟨_, rfl, ?_⟩, fun u hlc hst hm hq hu hn ht => ⟨_, rfl, ?_⟩, fun u hlc hst hm hu hn ht => ⟨_, rfl, ?_⟩,
    fun u hlc hst hm hu hn ht => ⟨_, rfl, ?_⟩, fun u v hu hv hne hlc => ⟨_, rfl, ?_⟩, fun u hu hn => ⟨_, rfl, ?_⟩,
    fun hlc key cert => ⟨_, rfl, ?_⟩, fun hlc hp key cert => ⟨_, rfl, ?_⟩, fun hlc hp he key cert => ⟨_, rfl, ?_⟩,
    fun hlc key cert => ⟨_, rfl, ?_⟩, fun hlc target key cert => ⟨_, rfl, ?_⟩⟩
  case refine_1 =>
    have hrun : s.writeLcRequest 3 = (true, s.lcArm 3) := by simp [State.writeLcRequest, bitsOf, hlc, hst]
    rw [State.doWrite_of_taken (State.writes_LC_REQUEST hd (by rw [hlc]; nofun) ho) ((State.writeReg_LC_REQUEST ..).trans hrun) rfl]
    obtain ⟨h1, h2, h3, h4, h5⟩ := s.lcArm_fields (target := 3) (by decide)
    exact ⟨h1, (State.rd_writeReply ..).trans h2, (State.rd_writeReply ..).trans h3, h4.of_regs rfl, h5⟩
  case refine_2 =>
    have hgo : s.lcDisarm.lcGo (s.rd F.LC_REQUEST_TARGET) = some (s.lcDisarm.burn s.lcDisarm.epoch 2) := by
      have hst' : s.lcDisarm.rd F.STAGE_STATUS_STATE ≠ 3 := by rwa [s.rd_lcDisarm F.STAGE_STATUS_STATE]
      have hq' : s.lcDisarm.rd F.CFG_SEQ_VALUE ≠ 0 := by rwa [s.rd_lcDisarm F.CFG_SEQ_VALUE]
      have hm' : s.lcDisarm.modState = 2 := (State.rd_lcDisarm s _).trans hm
      simp [State.lcGo, hst', ht, hq', hm', (State.lc_congr s.lcDisarm_fields.2.2).1, hlc]
    rw [State.doWrite_LC_CONFIRM hd (by rw [hlc]; nofun) ho (by decide), State.lcConfirm_of_go hu hn (by rw [ht]; rfl) hgo]
    obtain ⟨hl, he⟩ := State.lc_congr s.lcDisarm_fields.2.2
    refine ⟨?_, ?_, rfl⟩
    · refine (State.lc_burn (State.epoch_cases _).1 (by decide) (Nat.le_refl _) (by rw [hl, hlc]; nofun) fun j hj h2 => ?_).trans rfl
      obtain rfl : j = 3 := by omega
      exact State.lcPair_of_provisioned (hl.trans hlc)
    · exact (State.epoch_burn (State.epoch_cases _).1 (by decide) (Nat.le_refl _)).trans he
  case refine_3 =>
    have hgo : s.lcDisarm.lcGo (s.rd F.LC_REQUEST_TARGET) = some (((s.lcDisarm.burn s.lcDisarm.epoch 3).norPut 1 []).resetThen 3 false) := by
      have hst' : s.lcDisarm.rd F.STAGE_STATUS_STATE ≠ 3 := by rwa [s.rd_lcDisarm F.STAGE_STATUS_STATE]
      have hm' : s.lcDisarm.modState = 5 := (State.rd_lcDisarm s _).trans hm
      simp [State.lcGo, hst', ht, hm', (State.lc_congr s.lcDisarm_fields.2.2).1, hlc]
    rw [State.doWrite_LC_CONFIRM hd (by rw [hlc]; nofun) ho (by decide), State.lcConfirm_of_go hu hn (by rw [ht]; rfl) hgo]
    obtain ⟨hl, he⟩ := State.lc_congr s.lcDisarm_fields.2.2
    obtain ⟨hf, hc, hr⟩ := ((s.lcDisarm.burn s.lcDisarm.epoch 3).norPut 1 []).resetThen_keeps (cause := 3) (by decide) false
    obtain ⟨hl', he'⟩ := State.lc_congr (t := ((s.lcDisarm.burn s.lcDisarm.epoch 3).norPut 1 []).resetThen 3 false)
      (s := s.lcDisarm.burn s.lcDisarm.epoch 3) (hf.trans rfl)
    refine ⟨?_, ?_, hc, hr⟩
    · exact hl'.trans ((State.lc_burn (State.epoch_cases _).1 (by decide) (Nat.le_refl _) (by rw [hl, hlc]; nofun)
        fun j hj h2 => absurd hj (by omega)).trans rfl)
    · exact he'.trans ((State.epoch_burn (State.epoch_cases _).1 (by decide) (Nat.le_refl _)).trans he)
  case refine_4 =>
    have hgo : s.lcDisarm.lcGo (s.rd F.LC_REQUEST_TARGET) = some s.lcDisarm.retireModule := by
      have hst' : s.lcDisarm.rd F.STAGE_STATUS_STATE ≠ 3 := by rwa [s.rd_lcDisarm F.STAGE_STATUS_STATE]
      have hm' : s.lcDisarm.modState = 5 := (State.rd_lcDisarm s _).trans hm
      rcases hlc with hlc | hlc <;> simp [State.lcGo, hst', ht, hm', (State.lc_congr s.lcDisarm_fields.2.2).1, hlc]
    have hnr : s.lc ≠ .retired := by rcases hlc with hlc | hlc <;> rw [hlc] <;> nofun
    rw [State.doWrite_LC_CONFIRM hd hnr ho (by decide), State.lcConfirm_of_go hu hn (by rw [ht]; rfl) hgo]
    exact s.lcDisarm.retireModule_fields
  case refine_5 =>
    have hrun : s.lcConfirm v = (false, s.lcDisarm) := by simp [State.lcConfirm, hu, hne]
    rw [State.doWrite_LC_CONFIRM hd hlc ho hv, hrun]
    exact s.lcDisarm_fields
  case refine_6 =>
    simp only [hu, hn, if_true]
    exact s.lcDisarm_fields
  case refine_7 => simp only [hoff, hlc, Bool.false_eq_true, if_false]
  case refine_8 =>
    simp only [hoff, hlc, hp, Bool.false_eq_true, if_false, if_true]
    exact State.provision_fields _ s.epoch_cases.1 key cert
  case refine_9 =>
    simp only [hoff, hlc, hp, he, Bool.false_eq_true, and_self, if_false, if_true]
    obtain ⟨h1, h2, h3, h4, h5⟩ := State.provision_fields s.newRecords (e := s.epoch + 1) (by omega) key cert
    obtain ⟨h6, h7⟩ := State.provision_next hlc he key cert
    exact ⟨h1, h2, h6, h7, h3, h4, h5⟩
  case refine_10 =>
    rcases hlc with hlc | hlc
    · simp only [hoff, hlc, Bool.false_eq_true, if_false]
      exact s.retireModule_fields
    · simp only [hoff, hlc, Bool.false_eq_true, if_false]
      exact s.retireModule_fields
  case refine_11 =>
    rcases hlc with hlc | hlc | hlc <;> simp only [hoff, hlc, Bool.false_eq_true, if_false]
end Sys2Proof.Machine
end

section
/-!
PROOF. The test access port (R459).
-/
namespace Sys2Proof.Machine

set_option Elab.async false

/-- Settles O17: by the instruction, and by whether the life-cycle state opens the port. -/
theorem testAccessPortIsShut : Obligations.TestAccessPortIsShut := by
  refine fun s => ⟨⟨_, rfl, ite_self _⟩, ⟨_, rfl, ite_self _⟩, fun hoff => ⟨_, rfl, ?_⟩, fun hoff hlc a v => ⟨⟨_, rfl, ?_⟩, ⟨_, rfl, ?_⟩⟩,
    fun hf hr a v => ⟨⟨_, rfl, ?_⟩, ⟨_, rfl, ?_⟩⟩⟩
  · rw [hoff]
    rfl
  · simp only [hoff, hlc, decide_true, if_true, Bool.false_eq_true, if_false]
  · intro x hx
    simp only [hoff, hlc, decide_true, if_true, Bool.false_eq_true, if_false]
    generalize s.readReg .tap a = r at hx ⊢
    obtain ⟨_, t⟩ := r
    obtain rfl : _ = _ := hx
    rfl
  · simp only [hf, hr, or_self, decide_false, Bool.false_eq_true, if_false, ite_self]
  · simp only [hf, hr, or_self, decide_false, Bool.false_eq_true, if_false, ite_self]
end Sys2Proof.Machine
end

section
/-!
PROOF. Staging and committing a copy (R436, R437, R448).
-/
namespace Sys2Proof.Machine

set_option Elab.async false

section
variable {s : State} {path : Path} {v : Nat}

theorem State.writes_STAGE_CTRL (hd : s.dark = false) (hlc : s.lc ≠ .retired)
    (hm : s.mayWrite path (Reg.addr .STAGE_CTRL 0 .glob 0) .STAGE_CTRL = true) (v : Nat) :
    s.writes path (Reg.addr .STAGE_CTRL 0 .glob 0) v .STAGE_CTRL 0 .glob 0 := by
  refine State.writes_low hd hlc (State.locate_addr (Reg.has_glob (by decide) (by decide)) trivial rfl) hm (by decide) ?_
  have hlt : ∀ n, ¬ 1 < bitsOf n 3 1 := fun n => Nat.not_lt.mpr (Nat.le_of_lt_succ (bitsOf_lt n 3 1))
  simp [State.writeRefused, Reg.info, FieldDef.inWord, Acc.writable, FieldDef.breaksSeal, State.fieldRefuses, hlt]
theorem State.writeReg_STAGE_CTRL (s : State) (path : Path) (i : Nat) (w : Win) (k v n : Nat) :
    s.writeReg path .STAGE_CTRL i w k v n = (match s.writeStageCtrl v with | some t => (true, t) | none => (false, s)) := rfl
theorem State.doWrite_STAGE_CTRL {t : State} (hw : s.writes path (Reg.addr .STAGE_CTRL 0 .glob 0) v .STAGE_CTRL 0 .glob 0) (hv : v < 16)
    (h : s.writeStageCtrl v = some t) : s.doWrite path (Reg.addr .STAGE_CTRL 0 .glob 0) v = t.writeReply path (Reg.addr .STAGE_CTRL 0 .glob 0) true 0 :=
  State.doWrite_of_taken hw (by rw [Nat.mod_eq_of_lt (by omega), State.writeReg_STAGE_CTRL, h]) rfl
theorem State.doWrite_STAGE_CTRL_refused (hw : s.writes path (Reg.addr .STAGE_CTRL 0 .glob 0) v .STAGE_CTRL 0 .glob 0) (hv : v < 16)
    (h : s.writeStageCtrl v = none) : s.doWrite path (Reg.addr .STAGE_CTRL 0 .glob 0) v = s.writeReply path (Reg.addr .STAGE_CTRL 0 .glob 0) false 0 :=
  State.doWrite_of_refused hw (by rw [Nat.mod_eq_of_lt (by omega), State.writeReg_STAGE_CTRL, h])

/-! What STAGE_CTRL asks for (R448). -/

theorem State.writeStageCtrl_start {kind : Nat} (hk : kind < 2) (h : s.mayStage = true) :
    s.writeStageCtrl (1 + 8 * (kind % 2)) = some (s.wr F.STAGE_CTRL_KIND kind).stageStart := by
  obtain rfl | rfl : kind = 0 ∨ kind = 1 := by omega
  · simp [State.writeStageCtrl, bitOf, bitsOf, h]
  · simp [State.writeStageCtrl, bitOf, bitsOf, h]
theorem State.writeStageCtrl_commit {kind : Nat} (hk : kind < 2) (h : s.rd F.STAGE_STATUS_STATE = 2) :
    s.writeStageCtrl (2 + 8 * (kind % 2)) = some (s.wr F.STAGE_CTRL_KIND kind).commitStart := by
  obtain rfl | rfl : kind = 0 ∨ kind = 1 := by omega
  · simp [State.writeStageCtrl, bitOf, bitsOf, h]
  · simp [State.writeStageCtrl, bitOf, bitsOf, h]
theorem State.writeStageCtrl_abort {kind : Nat} (hk : kind < 2) :
    s.writeStageCtrl (4 + 8 * (kind % 2)) = if s.rd F.STAGE_STATUS_STATE = 3 then none else some (s.wr F.STAGE_CTRL_KIND kind).stageDrop := by
  obtain rfl | rfl : kind = 0 ∨ kind = 1 := by omega
  · simp [State.writeStageCtrl, bitOf, bitsOf]
  · simp [State.writeStageCtrl, bitOf, bitsOf]

/-! What each step of staging leaves. -/

theorem State.stageStart_fields (s : State) : s.stageStart.rd F.STAGE_STATUS_STATE = 1 ∧ s.stageStart.rd F.STAGE_STATUS_ERR = 0 ∧
    s.stageStart.rd F.STAGE_CTRL_KIND = s.rd F.STAGE_CTRL_KIND ∧ s.stageStart.boot.staged = none ∧ s.stageStart.boot.blockAt = s.now ∧
    s.regsBut s.stageStart F.STAGE_STATUS_STATE.words := by
  refine ⟨?_, ?_, ?_, rfl, rfl, ?_⟩
  · exact (State.rd_with_boot ..).trans ((State.rd_wr_beside).trans ((State.rd_wr_beside).trans (State.rd_wr_fits (by decide))))
  · exact (State.rd_with_boot ..).trans ((State.rd_wr_beside).trans (State.rd_wr_fits (by decide)))
  · exact (State.rd_with_boot ..).trans ((State.rd_wr_apart _ _ (by decide)).trans ((State.rd_wr_apart _ _ (by decide)).trans
      (State.rd_wr_apart _ _ (by decide))))
  · exact (((State.regsBut.refl.wr (f := F.STAGE_STATUS_STATE) (List.Subset.refl _)).wr (f := F.STAGE_STATUS_ERR) (List.Subset.refl _)).wr
      (f := F.STAGE_STATUS_PROGRESS) (List.Subset.refl _)).setBoot
theorem State.stageFail_fields (s : State) {err : Nat} (he : err < 32) : (s.stageFail err).rd F.STAGE_STATUS_STATE = 5 ∧
    (s.stageFail err).rd F.STAGE_STATUS_ERR = err ∧ (s.stageFail err).boot.staged = none ∧
    s.regsBut (s.stageFail err) F.STAGE_STATUS_STATE.words := by
  refine ⟨?_, ?_, rfl, ?_⟩
  · exact (State.rd_with_boot ..).trans ((State.rd_wr_beside).trans (State.rd_wr_fits (by decide)))
  · exact (State.rd_with_boot ..).trans (State.rd_wr_fits he)
  · exact ((State.regsBut.refl.wr (f := F.STAGE_STATUS_STATE) (List.Subset.refl _)).wr (f := F.STAGE_STATUS_ERR) (List.Subset.refl _)).setBoot
theorem State.commitStart_fields {b : List Byte} (h : s.boot.staged = some (0, b)) : s.commitStart.rd F.STAGE_STATUS_STATE = 3 ∧
    s.commitStart.boot.nor.image = [] ∧ s.commitStart.boot.staged = some (0, b) ∧ s.commitStart.fuses = s.fuses := by
  rw [State.commitStart, h]
  exact ⟨(State.rd_with_boot ..).trans ((State.rd_wr_beside).trans (State.rd_wr_fits (by decide))), rfl, h, rfl⟩
theorem State.stageDrop_fields (s : State) : s.stageDrop.rd F.STAGE_STATUS_STATE = 0 ∧ s.stageDrop.boot.staged = none ∧
    s.stageDrop.boot.nor = s.boot.nor :=
  ⟨(State.rd_with_boot ..).trans ((State.rd_wr_beside).trans ((State.rd_wr_beside).trans (State.rd_wr_fits (by decide)))), rfl, rfl⟩
end

/-- Settles O15: step by step. -/
theorem stagingFetchesAndCommits : Obligations.StagingFetchesAndCommits := by
  intro s path kind hd hlc h5 hk hm
  have hw := State.writes_STAGE_CTRL hd hlc hm
  refine ⟨fun hs => ⟨_, rfl, ?_⟩, fun hs hb => ⟨_, rfl, ?_⟩, fun b hs hk hb hc => ⟨_, rfl, ?_⟩, fun b hs hb => ⟨_, rfl, ?_⟩,
    fun b hs hb => ⟨_, rfl, ?_⟩, fun hs => ⟨_, rfl, ?_⟩, fun hs => ⟨_, rfl, ?_⟩⟩
  case refine_1 =>
    rw [State.doWrite_STAGE_CTRL (hw _) (by omega) (State.writeStageCtrl_start hk hs)]
    obtain ⟨h1, h2, h3, h4, h5, h6⟩ := (s.wr F.STAGE_CTRL_KIND kind).stageStart_fields
    refine ⟨(State.rd_writeReply ..).trans h1, (State.rd_writeReply ..).trans h2, ?_, h4, h5, ?_⟩
    · exact (State.rd_writeReply ..).trans (h3.trans (State.rd_wr_fits hk))
    · exact ((State.regsBut.refl.wr (List.subset_append_left ..)).trans (h6.mono (List.subset_append_right ..))).of_regs rfl
  case refine_2 =>
    rw [if_pos ⟨hs, hb⟩]
    exact s.stageFail_fields (by decide)
  case refine_3 =>
    have hlen : ¬ maxImage < b.length := Nat.not_lt.mpr hb
    simp only [hs, hk, hlen, hc, ne_eq, not_true_eq_false, if_true, if_false]
    refine ⟨?_, trivial, rfl, ?_⟩
    · exact (State.rd_with_boot ..).trans (State.rd_wr_fits (by decide))
    · exact ((State.regsBut.refl.wr (f := F.STAGE_STATUS_PROGRESS) (List.Subset.refl _)).wr (f := F.STAGE_STATUS_STATE) (List.Subset.refl _)).setBoot
  case refine_4 =>
    rw [State.doWrite_STAGE_CTRL (hw _) (by omega) (State.writeStageCtrl_commit hk hs)]
    obtain ⟨h1, h2, h3, h4⟩ := State.commitStart_fields (s := s.wr F.STAGE_CTRL_KIND kind) hb
    exact ⟨(State.rd_writeReply ..).trans h1, h2, h3, h4⟩
  case refine_5 =>
    simp only [hb, hs, ne_eq, not_true_eq_false, if_true, if_false]
    refine ⟨(State.rd_with_boot ..).trans (State.rd_wr_fits (by decide)), rfl, trivial, rfl⟩
  case refine_6 =>
    have hrun : s.writeStageCtrl (4 + 8 * (kind % 2)) = some (s.wr F.STAGE_CTRL_KIND kind).stageDrop := by rw [State.writeStageCtrl_abort hk, if_neg hs]
    rw [State.doWrite_STAGE_CTRL (hw _) (by omega) hrun]
    obtain ⟨h1, h2, h3⟩ := (s.wr F.STAGE_CTRL_KIND kind).stageDrop_fields
    exact ⟨(State.rd_writeReply ..).trans h1, h2, h3⟩
  case refine_7 =>
    rw [State.doWrite_STAGE_CTRL_refused (hw _) (by omega) (by rw [State.writeStageCtrl_abort hk, if_pos hs])]
end Sys2Proof.Machine
end

section
/-!
PROOF. Which registers an operation writes, at places that exist; and what a detection writes (R379 to R386).
-/
namespace Sys2Proof.Machine

set_option Elab.async false

/-- From `s` to `t` only words of the registers `rs` have changed. -/
def State.within (s : State) (rs : List Reg) (t : State) : Prop := ∀ r i w k, r ∉ rs → r.Has i w k → t.word r i w k = s.word r i w k

section
variable {s₀ s t u : State} {rs qs : List Reg}

theorem State.within.refl : s.within rs s := fun _ _ _ _ _ _ => rfl
theorem State.within.trans (h : s.within rs t) (k : t.within rs u) : s.within rs u := fun r i w n hr hh => (k r i w n hr hh).trans (h r i w n hr hh)
theorem State.within.mono (h : s.within rs t) (hs : rs ⊆ qs := by decide) : s.within qs t := fun r i w n hr hh => h r i w n (fun hm => hr (hs hm)) hh
theorem State.within.of_regs (h : s.within rs t) (e : u.regs = t.regs) : s.within rs u := fun r i w n hr hh => by
  rw [← h r i w n hr hh, State.word, State.word, e]
theorem State.within.wr {f : Fld} {v i : Nat} {w : Win} (h : s.within rs t) (hf : f.In i w) (hr : f.reg ∈ rs := by decide) :
    s.within rs (t.wr f v i w) := h.trans fun _ _ _ _ hn hh => State.word_wr_other hf hh (.inl fun he => hn (he ▸ hr))
theorem State.within.ite {c : Prop} [Decidable c] (h : s.within rs t) (k : s.within rs u) : s.within rs (if c then t else u) :=
  of_ite (P := fun v => s.within rs v) h k
theorem State.within.foldl {β : Type} {l : List β} {f : State → β → State} (h : s.within rs t)
    (hf : ∀ u, ∀ e ∈ l, s.within rs u → s.within rs (f u e)) : s.within rs (l.foldl f t) :=
  List.foldlRecOn (motive := s.within rs) _ _ h fun u hu e he => hf u e he hu
theorem State.within.rd (h : s.within rs t) {f : Fld} {i : Nat} {w : Win} (hf : f.In i w) (hr : f.reg ∉ rs := by decide) :
    t.rd f i w = s.rd f i w := by
  unfold State.rd
  rw [State.span_congr t s _ _ _ _ _ fun k hk => h _ _ _ _ hr (hf k hk)]
theorem State.within.flag (h : s.within rs t) {f : Fld} {i : Nat} {w : Win} (hf : f.In i w) (hr : f.reg ∉ rs := by decide) :
    t.flag f i w = s.flag f i w := State.flag_congr_rd (h.rd hf hr)
end

section
variable (s : State) (d : ErrRec)

theorem ringOf_lt (die : Nat) : ringOf die < 5 := by
  unfold ringOf
  split <;> omega
/-- The registers of the error rings. -/
def ringRegs : List Reg := [.ERR_RING_STATUS, .ERR_WR, .ERR_LAST, .ERR_OVF_VALID]
theorem State.within_announce (cls key : Nat) : s.within [] (s.announce cls key) :=
  State.within.refl.of_regs (State.only.refl (may := [.out, .host, .err])).announce.regs
theorem State.within_errStatus {r : Nat} (hr : r < 5) : s.within ringRegs (s.errStatus r) :=
  have hin : ∀ f : Fld, f.reg = .ERR_RING_STATUS → f.firstWord + f.wordCount ≤ 1 → f.In r .glob := fun f hf hw =>
    Fld.in_glob (by rw [hf]; exact hr) (by rw [hf]; rfl) (by rw [hf]; exact hw)
  ((State.within.refl.wr (hin _ rfl (by decide))).wr (hin _ rfl (by decide))).wr (hin _ rfl (by decide))
/-- R380 to R383: a record is placed in the ring of its die. -/
theorem State.within_placeErr : s.within ringRegs (s.placeErr d) := by
  have hr := ringOf_lt d.die
  have hwr : F.ERR_WR_SEQ.In (ringOf d.die) .glob := Fld.in_glob hr
  have hlast : F.ERR_LAST_RECORD.In (ringOf d.die) .glob := Fld.in_glob hr
  have hovf : F.ERR_OVF_VALID_VALID.In (ringOf d.die) .glob := Fld.in_glob hr
  have hset : ∀ (u : State) k v, u.within ringRegs (u.setErr k v) := fun u k v => State.within.refl.of_regs rfl
  have hend : ∀ (u : State) cls k, u.within ringRegs (u.announce cls k) := fun u cls k => (u.within_announce cls k).mono
  have hstat : ∀ u : State, u.within ringRegs (u.errStatus (ringOf d.die)) := fun u => u.within_errStatus hr
  unfold State.placeErr
  dsimp only
  refine .ite (((((hset _ _ _).wr hwr).wr hlast).trans (hstat _)).trans (hend _ _ _)) ?_
  split
  · split
    · exact ((hset _ _ _).wr hlast).trans (hend _ _ _)
    · exact .refl
  · have hfree : s.within ringRegs s.useFree.2 := State.within.refl.of_regs rfl
    exact ((((hfree.trans (hset _ _ _)).wr hovf).wr hlast).trans (hstat _)).trans (hend _ _ _)
theorem State.within_detect (hd : d.cls < 64) : s.within (.ERR_COUNT :: ringRegs) (s.detect d) := by
  have hr := ringOf_lt d.die
  have hcount : F.ERR_COUNT_COUNT.In (64 * ringOf d.die + d.cls) .glob := Fld.in_glob (by change _ < 320; omega)
  unfold State.detect
  extract_lets again d' s1 src s2
  have hd' : d'.die = d.die ∧ d'.cls = d.cls := by
    unfold d'
    split <;> exact ⟨rfl, rfl⟩
  have h1 : s.within (.ERR_COUNT :: ringRegs) s1 := State.within.refl.wr (by rw [hd'.1, hd'.2]; exact hcount)
  exact (h1.of_regs (u := s2) rfl).trans (s2.within_placeErr _).mono
/-- R386: a detection counts. -/
theorem State.adds_detect (hd : d.cls < 64) : s.adds (s.detect d) F.ERR_COUNT_COUNT 1 (64 * ringOf d.die + d.cls) := by
  have hr := ringOf_lt d.die
  have hcount : F.ERR_COUNT_COUNT.In (64 * ringOf d.die + d.cls) .glob := Fld.in_glob (by change _ < 320; omega)
  unfold State.detect
  extract_lets again d' s1 src s2
  have hd' : d'.die = d.die ∧ d'.cls = d.cls := by
    unfold d'
    split <;> exact ⟨rfl, rfl⟩
  have h1 : s1.rd F.ERR_COUNT_COUNT (64 * ringOf d.die + d.cls) = (s.rd F.ERR_COUNT_COUNT (64 * ringOf d.die + d.cls) + 1) % 2 ^ 64 := by
    unfold s1
    rw [hd'.1, hd'.2, State.bump, State.rd_wr_self]
    rfl
  have h2 : s2.rd F.ERR_COUNT_COUNT (64 * ringOf d.die + d.cls) = s1.rd F.ERR_COUNT_COUNT (64 * ringOf d.die + d.cls) :=
    State.rd_congr (s := s1) rfl ..
  exact ((s2.within_placeErr d').rd hcount).trans (h2.trans h1)
end
end Sys2Proof.Machine
end

section
/-!
PROOF. Temperatures and ageing (R419 to R422, R424, R425).
-/
namespace Sys2Proof.Machine

set_option Elab.async false

section
variable {s : State} {d tj : Nat}

theorem thermTemp_in (hd : d < 6) : F.THERM_TEMP_TJ_MAX.In d .glob ∧ F.THERM_TEMP_SENSORS_OK.In d .glob := ⟨Fld.in_glob hd, Fld.in_glob hd⟩
/-- R419: a reading is noted in THERM_TEMP alone. -/
theorem State.within_noteTemp (s : State) (hd : d < 6) (tj : Nat) : s.within [.THERM_TEMP] (s.noteTemp d tj) :=
  (State.within.refl.wr (thermTemp_in hd).1).wr (thermTemp_in hd).2
theorem State.noteTemp_fields (s : State) (d tj : Nat) : (s.noteTemp d tj).rd F.THERM_TEMP_TJ_MAX d = s.reads d tj % 2 ^ 8 ∧
    (s.noteTemp d tj).rd F.THERM_TEMP_SENSORS_OK d = s.sensorsOk d % 2 ^ 4 :=
  ⟨Eq.trans State.rd_wr_beside (State.rd_wr_self ..), State.rd_wr_self ..⟩
theorem State.only_noteTemp (s : State) (d tj : Nat) : s.only [.regs] (s.noteTemp d tj) := State.only.refl.wr.wr
theorem State.reads_noteTemp (s : State) (d tj : Nat) : (s.noteTemp d tj).reads d tj = s.reads d tj := rfl

/-- R420: a drain begins in a module that serves; one in another state stays there. -/
theorem State.thermDrain_of_hot (h3 : s.modState = 3) (hn : s.boot.drainTo = none) (ht : s.rd F.THERM_CFG_DRAIN_C ≤ s.rd F.THERM_TEMP_TJ_MAX d) :
    (s.thermDrain d).modState = 4 ∧ (s.thermDrain d).boot.drainTo = some true ∧
      (s.thermDrain d).boot.drainBy = s.now + 1000000 * s.rd F.THERM_CFG_THERM_DRAIN_MS := by
  have hb : (s.powerEvent 6 d 0 0).boot = s.boot := (s.only_powerEvent ..).boot
  have hn' : (s.powerEvent 6 d 0 0).boot.drainTo = none := by rw [hb, hn]
  rw [State.thermDrain, if_pos ⟨ht, .inl h3⟩]
  refine ⟨State.modState_startDrain _ _ _ hn', ?_, ?_⟩
  · rw [State.boot_startDrain _ _ _ hn']
  · rw [State.boot_startDrain _ _ _ hn']
    rfl
theorem State.thermDrain_of_cool (ht : s.rd F.THERM_TEMP_TJ_MAX d < s.rd F.THERM_CFG_DRAIN_C) : s.thermDrain d = s := by
  rw [State.thermDrain, if_neg (by omega)]
theorem State.thermDrain_of_idle (h3 : s.modState ≠ 3) (h4 : s.modState ≠ 4) : s.thermDrain d = s := by
  rw [State.thermDrain, if_neg (by simp [h3, h4])]

/-- R419: a thermal step of a die that may take one. -/
theorem execThrottle_step (hd : s.dark = false) (h4 : d < 4) (hp : s.boot.pclRun = none) (hn : SMap.find? s.boot.steppedAt d = none)
    (ht : 95 ≤ s.reads d tj) (hs : (s.noteTemp d tj).steerable d = true) (h6 : (s.noteTemp d tj).point d < 6) :
    execThrottle d tj s = .next (({ (s.noteTemp d tj).wr F.DIE_OPPOINT_THROTTLED 1 d with
      boot := { s.boot with steppedAt := SMap.insert s.boot.steppedAt d s.now } }.lowerPoint d).powerEvent 5 d ((s.noteTemp d tj).point d + 1)
        (s.reads d tj)) := by
  have hp' : (s.noteTemp d tj).boot.pclRun.isSome = false := by rw [(s.only_noteTemp d tj).boot, hp]; rfl
  simp only [execThrottle, onDie, h4, if_true, hd, Bool.false_eq_true, if_false, hn, State.reads_noteTemp, Bool.not_true, Bool.or_self, ht, hp', hs, h6]
  rfl
theorem State.throttled_fields (s : State) (d v w : Nat) (hp : s.point d < 6) {b : Boot} :
    let u := (({ s.wr F.DIE_OPPOINT_THROTTLED 1 d with boot := b } : State).lowerPoint d).powerEvent 5 d v w
    u.point d = s.point d + 1 ∧ u.rd F.DIE_OPPOINT_ACLK_M d = pointM (s.point d + 1) ∧ u.flag F.DIE_OPPOINT_THROTTLED d = true ∧
      u.boot.steppedAt = b.steppedAt ∧ s.only [.out, .regs, .host, .boot] u := by
  generalize hx : ({ s.wr F.DIE_OPPOINT_THROTTLED 1 d with boot := b } : State) = x
  have hpx : x.point d = s.point d := by
    subst hx
    exact (State.rd_with_boot ..).trans State.rd_wr_beside
  have hfx : x.flag F.DIE_OPPOINT_THROTTLED d = true := by
    subst hx
    exact (State.flag_congr_rd (State.rd_with_boot ..)).trans (State.flag_wr_self ..)
  have hbx : x.boot = b := by rw [← hx]
  have hox : s.only [.out, .regs, .host, .boot] x := by
    subst hx
    exact State.only.same (State.only.refl.wr)
  obtain ⟨h1, h2, -⟩ := x.lowerPoint_fields d (by rw [hpx]; exact hp)
  refine ⟨(State.rd_powerEvent ..).trans (hpx ▸ h1), (State.rd_powerEvent ..).trans (hpx ▸ h2), ?_, ?_, hox.lowerPoint.powerEvent⟩
  · rw [State.flag_congr_rd (State.rd_powerEvent ..), ← hfx]
    exact State.flag_congr_rd ((State.rd_slewTo ..).trans (Eq.trans State.rd_wr_beside State.rd_wr_beside))
  · rw [(State.only_powerEvent ..).boot, ← hbx]
    rfl
end

/-- Settles O11: a reading is noted first, and what follows depends on it. -/
theorem temperaturesAndAgeingAreGuarded : Obligations.TemperaturesAndAgeingAreGuarded := by
  refine ⟨fun s d tj hd => ⟨fun h4 hp hn ht hs h6 => ?_, fun h6 h3 hn ht => ?_, fun h6 ht => ?_, fun h6 ht => ?_, fun k h6 hk hb h3 h4 => ?_, fun h6 => ?_⟩,
    fun s unit days low90 hd hu hw hl => ?_⟩
  case refine_1 =>
    have hin := s.within_noteTemp (d := d) (by omega) tj
    have hpt : (s.noteTemp d tj).point d = s.point d := hin.rd (Fld.in_glob h4)
    have hpw : (s.noteTemp d tj).dieP d = s.dieP d := hin.rd (by interval_cases d <;> exact Fld.in_glob (by decide)) (by interval_cases d <;> decide)
    have hst : (s.noteTemp d tj).steerable d = true := by
      rw [State.steerable, hpw, (s.only_noteTemp d tj).boot, ← State.steerable, hs]
    refine ⟨_, execThrottle_step hd h4 hp hn ht hst (hpt ▸ h6), ?_⟩
    obtain ⟨h1, h2, h3, h5, hol⟩ := (s.noteTemp d tj).throttled_fields d ((s.noteTemp d tj).point d + 1) (s.reads d tj) (hpt ▸ h6)
      (b := { s.boot with steppedAt := SMap.insert s.boot.steppedAt d s.now })
    refine ⟨hpt ▸ h1, hpt ▸ h2, h3, ?_, hol.fuses.trans (s.only_noteTemp d tj).fuses, hol.mas.trans (s.only_noteTemp d tj).mas⟩
    rw [h5, SMap.find?_insert_self]
  case refine_2 =>
    have hin := s.within_noteTemp h6 tj
    have hol := s.only_noteTemp d tj
    have hm : (s.noteTemp d tj).modState = 3 := (hin.rd (Fld.in_glob (by decide))).trans h3
    have ht' : (s.noteTemp d tj).rd F.THERM_CFG_DRAIN_C ≤ (s.noteTemp d tj).rd F.THERM_TEMP_TJ_MAX d := by
      rw [hin.rd (Fld.in_glob (by decide)), (s.noteTemp_fields d tj).1]
      exact ht
    obtain ⟨h1, h2, h4⟩ := State.thermDrain_of_hot hm (by rw [hol.boot, hn]) ht'
    have hexec : execThermDrain d tj s = .next ((s.noteTemp d tj).thermDrain d) := by
      simp only [execThermDrain, onAnyDie, h6, if_true, hd, Bool.false_eq_true, if_false]
    refine ⟨_, hexec, h1, h2, ?_⟩
    rw [h4, hol.now, hin.rd (Fld.in_glob (by decide))]
  case refine_3 =>
    have hin := s.within_noteTemp h6 tj
    have hc : (s.noteTemp d tj).rd F.THERM_TEMP_TJ_MAX d < (s.noteTemp d tj).rd F.THERM_CFG_DRAIN_C := by
      rw [hin.rd (f := F.THERM_CFG_DRAIN_C) (Fld.in_glob (by decide)), (s.noteTemp_fields d tj).1]
      exact ht
    have hexec : execThermDrain d tj s = .next (s.noteTemp d tj) := by
      simp only [execThermDrain, onAnyDie, h6, if_true, hd, Bool.false_eq_true, if_false, State.thermDrain_of_cool hc]
    exact ⟨_, hexec, (s.noteTemp_fields d tj).1, (s.noteTemp_fields d tj).2,
      (State.regsBut.refl.wr (f := F.THERM_TEMP_TJ_MAX) (List.Subset.refl _)).wr (f := F.THERM_TEMP_SENSORS_OK) (List.Subset.refl _), rfl⟩
  case refine_4 =>
    have hexec : execThermTrip d tj s = .next ((((((((s.noteTemp d tj).wr F.PWR_STATUS_TRIP 1).powerEvent 7 d 0 0).pclStop 3 5).abandon.dropDisables).stopCores).moduleTo 1).faultFrom s) := by
      have ht' : ¬ tj < 115 := by omega
      simp only [execThermTrip, onAnyDie, h6, if_true, hd, ht', Bool.false_eq_true, or_self, if_false]
    exact ⟨_, hexec, (State.modState_faultFrom ..).trans (State.modState_moduleTo_fits _ (by decide))⟩
  case refine_5 =>
    generalize hu : ({ s with boot := { s.boot with badSensors := s.boot.badSensors ++ [(d, k)] } } : State) = u
    generalize he : ({ errOf 0x1D (if d < 4 then 4 else 11) k d with detail := tj } : ErrRec) = e
    have hcls : e.cls = 0x1D ∧ e.die = d := by rw [← he]; exact ⟨rfl, rfl⟩
    have hm : ((u.noteTemp d tj).detect e).modState = s.modState := by
      refine ((((u.within_noteTemp h6 tj).mono (qs := .THERM_TEMP :: .ERR_COUNT :: ringRegs)).trans
        (((u.noteTemp d tj).within_detect e (by rw [hcls.1]; decide)).mono)).rd (Fld.in_glob (by decide))).trans ?_
      rw [← hu]
      exact State.rd_with_boot ..
    have hexec : execSensorFail d k tj s = .next ((u.noteTemp d tj).detect e) := by
      have hb' : s.boot.badSensors.contains (d, k) = false := by simpa using hb
      simp only [execSensorFail, h6, hk, and_self, if_true, hd, hb', Bool.false_eq_true, or_self, if_false, hu, he]
      rw [State.thermDrain_of_idle (by rw [hm]; exact h3) (by rw [hm]; exact h4)]
    refine ⟨_, hexec, ?_, ?_⟩
    · have hol : u.only [.out, .fresh, .regs, .err, .host] ((u.noteTemp d tj).detect e) := State.only.refl.noteTemp.detect
      rw [hol.boot, ← hu]
      exact List.mem_append_right _ (List.mem_singleton_self _)
    · have hadd := (u.noteTemp d tj).adds_detect e (by rw [hcls.1]; decide)
      rw [hcls.1, hcls.2] at hadd
      have hr := ringOf_lt d
      have hin : F.ERR_COUNT_COUNT.In (64 * ringOf d + 0x1D) .glob := Fld.in_glob (by change _ < 320; omega)
      rw [hadd, (u.within_noteTemp h6 tj).rd hin, ← hu, State.rd_with_boot]
      rfl
  case refine_6 =>
    have hexec : execRegulatorFault d s = .next ((s.detect (errOf 0x1D (if d < 4 then 4 else 11) d d)).moduleFault.faultFrom s) := by
      simp only [execRegulatorFault, onAnyDie, h6, if_true, hd, Bool.false_eq_true, if_false]
    exact ⟨_, hexec, (State.modState_faultFrom ..).trans (State.modState_moduleFault _)⟩
  case refine_7 =>
    have hev : ¬ (min low90 0xFFFF < s.rd F.AGE_CFG_AGE_WARN_DAYS ∧
        s.rd F.AGE_CFG_AGE_WARN_DAYS ≤ (SMap.getD s.boot.nor.ages unit (0xFFFF, 0xFFFF)).2) := by omega
    have hold : ¬ (6 ≤ unit ∧ unit < 26 ∧ min low90 0xFFFF ≤ 30) := by omega
    have hexec : execAgeing unit days low90 s = .next ({ (s.wr F.AGEING_DAYS (min days 0xFFFF) unit).wr F.AGEING_LOW90 (min low90 0xFFFF) unit with
        boot := { s.boot with nor := { s.boot.nor with
          ages := SMap.setD s.boot.nor.ages unit (min days 0xFFFF, min low90 0xFFFF) (0xFFFF, 0xFFFF) } } }) := by
      simp only [execAgeing, hu, if_true, hd, Bool.false_eq_true, if_false, hev, hold]
      rfl
    refine ⟨_, hexec, ?_, ?_, SMap.getD_setD_self .., ?_, rfl⟩
    · exact (State.rd_with_boot ..).trans (Eq.trans State.rd_wr_beside (State.rd_wr_fits (by change _ < 2 ^ 16; omega)))
    · exact (State.rd_with_boot ..).trans (State.rd_wr_fits (by change _ < 2 ^ 16; omega))
    · exact ((State.regsBut.refl.wr (f := F.AGEING_DAYS) (List.Subset.refl _)).wr (f := F.AGEING_LOW90) (List.Subset.refl _)).setBoot
end Sys2Proof.Machine
end

section
/-!
PROOF. The power states of dies (R403, R404): a die that powers down can leave the module with a velvet network that no longer connects
its dies, and the module fault that follows retires a die (R20, R361).
-/
namespace Sys2Proof.Machine

set_option Elab.async false

/-- A Ready module with compute dies 0 and 1 in A0 and no edge of the velvet network trained. -/
def edgelessModule : State := ((State.reset.wr F.MODULE_STATE_STATE 2).wr (diePs 0) 0).wr (diePs 1) 0

/-- R20, R361: after die 0 has entered A3, die 1 is found without an edge, and is retired. -/
theorem retiredDies_edgelessModule : (((edgelessModule.dieToA3 0).settleLost [0]).velvetCheck).fuses.retiredDies = [1] := by decide +kernel

/-- Refutes O12: a request that takes die 0 of a module without velvet edges into A3 burns the retirement fuse of die 1. -/
theorem not_diesChangePowerState : ¬ Obligations.DiesChangePowerState := by
  intro h
  obtain ⟨-, -, -, -, -, -, -, ha3, -⟩ := h edgelessModule 0 (by decide)
  obtain ⟨t, ht, -, hf⟩ := ha3 (by decide) (by decide +kernel) (by decide +kernel)
  have hexec : exec (.diePowerDown 0 true) edgelessModule = .next (((edgelessModule.dieToA3 0).settleLost [0]).velvetCheck) := by
    have hgo : ¬ (edgelessModule.fuses.retiredDies.contains 0 = true ∨ 3 ≤ edgelessModule.dieP 0 ∨ ¬ edgelessModule.dieQuiet 0 = true) := by
      decide +kernel
    change onDie 0 _ = _
    rw [if_neg hgo, if_pos rfl]
    exact if_pos (by decide)
  obtain rfl : _ = t := Host.Outcome.next.inj (hexec.symm.trans ht)
  have hnone : edgelessModule.fuses.retiredDies = [] := rfl
  have := retiredDies_edgelessModule
  rw [hf, hnone] at this
  nomatch this
end Sys2Proof.Machine
end

section
/-!
PROOF. Percale tests (R449 to R458).
-/
namespace Sys2Proof.Machine

set_option Elab.async false

section
variable {s : State} {i v : Nat}

theorem State.rd_lt (s : State) (f : Fld) (i : Nat) (w : Win) : s.rd f i w < 2 ^ f.w := bitsOf_lt ..
/-- R441: in a module that is neither retired nor in Keep-alive every block answers. -/
theorem State.blockOpen_of_running (hlc : s.lc ≠ .retired) (h1 : s.modState ≠ 1) (path : Path) (a : Nat) : s.blockOpen path a = true := by
  simp [State.blockOpen, hlc, h1]
/-- A write of one of the module's own registers that no rule refuses reaches it. -/
theorem State.writes_running {path : Path} {a v : Nat} {r : Reg} {i k : Nat} {w : Win} (hd : s.dark = false) (hlc : s.lc ≠ .retired) (h1 : s.modState ≠ 1)
    (hloc : s.locate a = some (r, i, w, k)) (hmay : s.mayWrite path a r = true) (ha : a < 0x1000000)
    (href : s.writeRefused r i w k (v % 2 ^ 32) = false) : s.writes path a v r i w k :=
  ⟨hd, hloc, hmay, State.blockOpen_of_running hlc h1 path a, State.dieCloses_glob ha, State.wakeFor_glob ha, href⟩
theorem State.writes_PCL_CTRL (hd : s.dark = false) (hlc : s.lc ≠ .retired) (h1 : s.modState ≠ 1) (ho : s.ownerIndex = some i)
    (hv : v < 64) (hp : bitsOf v 3 3 ≤ 6) : s.writes (.session i) (Reg.addr .PCL_CTRL 0 .glob 0) v .PCL_CTRL 0 .glob 0 := by
  refine State.writes_running hd hlc h1 (State.locate_addr (Reg.has_glob (by decide) (by decide)) trivial rfl) (State.mayWrite_owner ho ..) (by decide) ?_
  have hlt : ∀ n, ¬ 1 < bitsOf n 2 1 := fun n => Nat.not_lt.mpr (Nat.le_of_lt_succ (bitsOf_lt n 2 1))
  have hpart : (FieldDef.part ⟨3, 3, .rw, 0, 0, 6⟩ 0) = (3, 3) := by decide
  have hpoint : ∀ n, bitsOf (putBits n 3 3 (bitsOf v 3 3)) 3 3 ≤ 6 := fun n => by
    rw [bitsOf_putBits_self]
    exact Nat.le_trans (Nat.mod_le _ _) hp
  rw [Nat.mod_eq_of_lt (by omega)]
  simp [State.writeRefused, Reg.info, FieldDef.inWord, Acc.writable, FieldDef.breaksSeal, State.fieldRefuses, hlt, hpart, hpoint]
theorem State.writes_PCL_CONFIRM (hd : s.dark = false) (hlc : s.lc ≠ .retired) (h1 : s.modState ≠ 1) (ho : s.ownerIndex = some i) (v : Nat) :
    s.writes (.session i) (Reg.addr .PCL_CONFIRM 0 .glob 0) v .PCL_CONFIRM 0 .glob 0 := by
  refine State.writes_running hd hlc h1 (State.locate_addr (Reg.has_glob (by decide) (by decide)) trivial rfl) (State.mayWrite_owner ho ..) (by decide) ?_
  have hlt : ∀ n, ¬ 4294967295 < bitsOf n 0 32 := fun n => Nat.not_lt.mpr (Nat.le_of_lt_succ (bitsOf_lt n 0 32))
  simp [State.writeRefused, Reg.info, FieldDef.inWord, Acc.writable, FieldDef.breaksSeal, State.fieldRefuses, hlt]
/-- A write that reaches a register which is no setting does what the register does with it, and is answered. -/
theorem State.doWrite_of_request {path : Path} {a : Nat} {r : Reg} {j k : Nat} {w : Win} {g : Bool × State} (hw : s.writes path a v r j w k)
    (hg : ∀ n, s.writeReg path r j w k (v % 2 ^ 32) n = g) (hs : settles r = false) : s.doWrite path a v = g.2.writeReply path a g.1 0 := by
  obtain ⟨ok, t⟩ := g
  cases ok with
  | true => exact State.doWrite_of_taken hw (hg _) (by simp [hs])
  | false => exact State.doWrite_of_refused hw (hg _)
theorem State.writeReg_PCL_CTRL (s : State) (path : Path) (i : Nat) (w : Win) (k v n : Nat) :
    s.writeReg path .PCL_CTRL i w k v n = s.writePclCtrl path v := rfl
theorem State.writeReg_PCL_CONFIRM (s : State) (path : Path) (i : Nat) (w : Win) (k v n : Nat) :
    s.writeReg path .PCL_CONFIRM i w k v n = s.pclConfirm path v := rfl

/-! ## Arming, confirming and ending a test -/

/-- R452: START of a field test that nothing refuses arms it. -/
theorem State.pclStart_fields {point : Nat} (hp : point ≤ 6) (hr : s.pclRefusal (.session i) false point = 0) :
    (s.pclStart (.session i) (1 + 8 * point)).1 = true ∧ (s.pclStart (.session i) (1 + 8 * point)).2.rd F.PCL_STATUS_STATE = 1 ∧
    (s.pclStart (.session i) (1 + 8 * point)).2.rd F.PCL_STATUS_REFUSE = 0 ∧ (s.pclStart (.session i) (1 + 8 * point)).2.rd F.PCL_CTRL_TEST_POINT = point ∧
    (s.pclStart (.session i) (1 + 8 * point)).2.boot.pclArmed = some (s.now, 1 + 8 * point, i) ∧
    s.only [.regs, .boot] (s.pclStart (.session i) (1 + 8 * point)).2 := by
  have hb : bitOf (1 + 8 * point) 2 = false := by simp [bitOf]; omega
  have hbits : bitsOf (1 + 8 * point) 3 3 = point := by simp only [bitsOf]; omega
  have hmod : (1 + 8 * point) % 64 = 1 + 8 * point := Nat.mod_eq_of_lt (by omega)
  simp only [State.pclStart, hb, hbits, hr, hmod, ne_eq, not_true_eq_false, if_false, Bool.false_eq_true]
  refine ⟨trivial, ?_, ?_, ?_, trivial, State.only.same (State.only.refl.wr.wr.wr.wr)⟩
  · exact (State.rd_with_boot ..).trans (Eq.trans State.rd_wr_beside (State.rd_wr_fits (by decide)))
  · exact (State.rd_with_boot ..).trans (State.rd_wr_fits (by decide))
  · exact (State.rd_with_boot ..).trans ((State.rd_wr_apart _ _ (by decide)).trans ((State.rd_wr_apart _ _ (by decide)).trans
      (State.rd_wr_fits (Nat.lt_of_le_of_lt hp (by decide)))))
theorem complement32_lt (w : Nat) : complement32 w < 2 ^ 32 := by
  unfold complement32
  omega
theorem State.pclConfirm_taken {u w : Nat} (ha : s.boot.pclArmed = some (u, w, i)) (hn : s.now ≤ u + 1000000000)
    (hr : s.pclRefusal (.session i) false (bitsOf w 3 3) = 0) :
    s.pclConfirm (.session i) (complement32 w) = (true, s.pclEnter false (bitsOf w 3 3)) := by
  have hgo : ¬ (u + 1000000000 < s.now ∨ complement32 w ≠ complement32 w ∨ (Path.session i) ≠ .session i) := by simp; omega
  rw [State.pclConfirm, ha]
  dsimp only
  rw [if_neg hgo, hr]
  rfl
/-- R452: a refused test that was only armed. -/
theorem State.pclRefuse_fields (h6 : s.modState ≠ 6) {code : Nat} (hc : code < 16) : (s.pclRefuse code).rd F.PCL_STATUS_REFUSE = code ∧
    (s.pclRefuse code).rd F.PCL_STATUS_STATE = 4 ∧ (s.pclRefuse code).boot.pclArmed = none ∧
    s.pclRefuse code = { s with regs := (s.pclRefuse code).regs, boot := { s.boot with pclArmed := none } } := by
  have h6' : ¬ (s.wr F.PCL_STATUS_REFUSE code).modState = 6 := fun h => h6 ((State.rd_wr_apart _ _ (by decide)).symm.trans h)
  rw [State.pclRefuse]
  dsimp only
  rw [if_neg h6']
  exact ⟨(State.rd_with_boot ..).trans (Eq.trans State.rd_wr_beside (State.rd_wr_fits hc)), (State.rd_with_boot ..).trans (State.rd_wr_fits (by decide)),
    rfl, rfl⟩

theorem State.pclRun_pclStop (s : State) (outcome st : Nat) : (s.pclStop outcome st).boot.pclRun = none := by
  unfold State.pclStop
  split
  · assumption
  · rfl
theorem State.pclRun_parkNow (s : State) : s.parkNow.boot.pclRun = s.boot.pclRun := by
  unfold State.parkNow
  extract_lets s1 src s2
  have h1 : s1.boot.pclRun = s.boot.pclRun := of_ite (P := fun t : State => t.boot.pclRun = s.boot.pclRun) rfl rfl
  have hoff : s2.diesOff.boot = s2.boot := (State.only.refl (may := [.regs, .arr, .strm, .mas, .link, .wts, .stew, .jr])).diesOff.boot
  rw [(State.only_moduleTo ..).boot, hoff]
  exact h1
/-- R454: a test that is ended leaves the module Parked. -/
theorem State.pclAbort_fields {r : PclRun} (h : s.boot.pclRun = some r) : s.pclAbort.modState = 5 ∧ s.pclAbort.boot.pclRun = none := by
  rw [State.pclAbort, h]
  exact ⟨State.modState_parkNow _, (State.pclRun_parkNow _).trans (State.pclRun_pclStop ..)⟩

/-! ## An item that ends (R453) -/

/-- R453: an item without faults counts as passed where it has not failed, and the next one at its point begins. -/
theorem State.pclItemDone_passed {r : PclRun} {p q : Nat × Nat} {rest : List (Nat × Nat)} (h : s.boot.pclRun = some r) (ht : r.todo = p :: q :: rest)
    (hpt : q.1 = p.1) (hp : p.2 = 0) (hq : q.2 = 1) (ho : s.rd F.PCL_RESULT_OUTCOME 0 ≠ 2) :
    let t := s.pclItemDone [] false
    t.rd F.PCL_RESULT_OUTCOME 0 = 1 ∧ t.rd F.PCL_STATUS_ITEM = 1 ∧ t.boot.pclRun.map (·.todo) = some (q :: rest) ∧ s.only [.regs, .boot] t := by
  have hrun : s.pclItemDone [] false = (let s3 := ((s.wr F.PCL_RESULT_OUTCOME 1).wr F.PCL_RESULT_FAULTS (min 255 (s.rd F.PCL_RESULT_FAULTS))).wr F.PCL_STATUS_PERCENT 100
      let s4 := if r.full then { s3 with boot := { s3.boot with nor := { s3.boot.nor with found := s3.boot.nor.found ++ [] } } } else s3
      ({ s4 with boot := { s4.boot with pclRun := some { r with todo := q :: rest, itemAt := s4.now + 0, foundAt := r.foundAt } } } : State).pclItem) := by
    simp only [State.pclItemDone, h, ht, List.headD_cons, hp, ho, hpt, List.drop_one, List.tail_cons, List.isEmpty_nil, List.map_nil, List.foldl_nil,
      List.length_nil, Bool.false_eq_true, not_true_eq_false, and_false, or_false, if_false, if_true, ne_eq, decide_false, Nat.add_zero]
  extract_lets t
  change t = _ at hrun
  extract_lets s3 src nor s4 at hrun
  generalize hu : ({ s4 with boot := { s4.boot with pclRun := some { r with todo := q :: rest, itemAt := s4.now + 0, foundAt := r.foundAt } } } : State) = u at hrun
  have hrun4 : u.boot.pclRun = some { r with todo := q :: rest, itemAt := s4.now + 0, foundAt := r.foundAt } := by rw [← hu]
  have h4 : s4.rd F.PCL_RESULT_OUTCOME 0 = s3.rd F.PCL_RESULT_OUTCOME 0 := State.rd_of_ite (State.rd_with_boot ..) rfl
  have hou : u.rd F.PCL_RESULT_OUTCOME 0 = 1 := by
    rw [← hu, State.rd_with_boot, h4]
    exact (State.rd_wr_apart _ _ (by decide)).trans (Eq.trans State.rd_wr_beside (State.rd_wr_fits (by decide)))
  have hol : s.only [.regs, .boot] u := by
    have h3 : s.only [.regs, .boot] s3 := State.only.refl.wr.wr.wr
    have h4 : s.only [.regs, .boot] s4 := .ite h3.same h3
    rw [← hu]
    exact h4.same
  have hitem : u.pclItem = (u.wr F.PCL_STATUS_ITEM 1).wr F.PCL_STATUS_PERCENT 0 := by
    simp only [State.pclItem, hrun4, List.headD_cons, hq]
    rfl
  rw [hrun, hitem]
  refine ⟨?_, ?_, ?_, hol.wr.wr⟩
  · exact (State.rd_wr_apart _ _ (by decide)).trans ((State.rd_wr_apart _ _ (by decide)).trans hou)
  · exact Eq.trans State.rd_wr_beside (State.rd_wr_fits (by decide))
  · rw [(State.only.refl (s := u) (may := [.regs])).wr.wr.boot, hrun4]
    rfl
end

/-- Settles O18: by the write that asks for it, or the item that ends. -/
theorem percaleRunsTests : Obligations.PercaleRunsTests := by
  intro s i point hd ho hp hlc h1
  refine ⟨fun hr => ⟨_, rfl, ?_⟩, fun u w ha hn hw hr => ⟨_, rfl, ?_⟩, fun u w ha hn h6 => ⟨_, rfl, ?_⟩, fun r hr ht => ⟨⟨_, rfl, ?_⟩, ⟨_, rfl, ?_⟩⟩,
    fun r p q rest hr ht hpt hp0 hq1 ho => ⟨_, rfl, ?_⟩, fun r faults unit hr ht => ⟨_, rfl, ?_⟩⟩
  case refine_1 =>
    obtain ⟨h0, h2, h3, h4, h5, h6⟩ := State.pclStart_fields hp hr
    have hv : 1 + 4 * b2n false + 8 * (point % 8) = 1 + 8 * point := by rw [Nat.mod_eq_of_lt (by omega)]; rfl
    have hb1 : bitOf (1 + 8 * point) 1 = false := by simp [bitOf]; omega
    have hb0 : bitOf (1 + 8 * point) 0 = true := by simp [bitOf]; omega
    have hw : s.writes (.session i) (Reg.addr .PCL_CTRL 0 .glob 0) (1 + 8 * point) .PCL_CTRL 0 .glob 0 :=
      State.writes_PCL_CTRL hd hlc h1 ho (by omega) (by simp only [bitsOf]; omega)
    rw [hv, State.doWrite_of_request hw (g := s.pclStart (.session i) (1 + 8 * point)) (fun n => by
      rw [State.writeReg_PCL_CTRL, Nat.mod_eq_of_lt (by omega), State.writePclCtrl, hb1, hb0]; rfl) rfl]
    exact ⟨(State.rd_writeReply ..).trans h2, (State.rd_writeReply ..).trans h3, (State.rd_writeReply ..).trans h4, h5, h6.fuses, h6.mas⟩
  case refine_2 =>
    rw [State.doWrite_of_request (State.writes_PCL_CONFIRM hd hlc h1 ho _) (g := (true, s.pclEnter false (bitsOf w 3 3))) (fun n => by
      rw [State.writeReg_PCL_CONFIRM, Nat.mod_eq_of_lt (complement32_lt w), State.pclConfirm_taken ha hn hr]) rfl]
  case refine_3 =>
    simp only [ha, hn, if_true]
    exact State.pclRefuse_fields h6 (by decide)
  case refine_4 =>
    generalize hx : 2 + 4 * s.rd F.PCL_CTRL_FULL + 8 * s.rd F.PCL_CTRL_TEST_POINT = x
    have hf : s.rd F.PCL_CTRL_FULL < 2 ^ 1 := State.rd_lt ..
    have hb1 : bitOf x 1 = true := by simp [bitOf]; omega
    have hw : s.writes (.session i) (Reg.addr .PCL_CTRL 0 .glob 0) x .PCL_CTRL 0 .glob 0 :=
      State.writes_PCL_CTRL hd hlc h1 ho (by omega) (by simp only [bitsOf]; omega)
    generalize hu : (s.wr F.PCL_CTRL_FULL (bitsOf x 2 1)).wr F.PCL_CTRL_TEST_POINT (bitsOf x 3 3) = u
    have hur : u.boot.pclRun = some r := by rw [← hu, (State.only.refl (may := [.regs])).wr.wr.boot, hr]
    rw [State.doWrite_of_request hw (g := (true, u.pclAbort)) (fun n => by
      rw [State.writeReg_PCL_CTRL, Nat.mod_eq_of_lt (by omega), State.writePclCtrl, hb1, ← hu]; rfl) rfl]
    obtain ⟨h2, h3⟩ := State.pclAbort_fields hur
    exact ⟨(State.rd_writeReply ..).trans h2, h3⟩
  case refine_5 =>
    simp only [hr, if_true]
    exact State.pclAbort_fields hr
  case refine_6 =>
    obtain ⟨h2, h3, h4, h5⟩ := State.pclItemDone_passed hr ht hpt hp0 hq1 ho
    exact ⟨h2, h3, h4, h5.mas, h5.fuses⟩
  case refine_7 => simp only [hr, Nat.not_lt.mpr ht, if_false]
end Sys2Proof.Machine
end

section
/-!
PROOF. Command packets in turn (R277, R283, R291).
-/
namespace Sys2Proof.Machine

set_option Elab.async false

/-- R291: the commands of a session, each with its opcode and what else it carries. -/
def sessionCommands (p : Pkt) (n : Nat) (extra : List Byte) : List (Instr × Nat × List Byte) :=
  [(.close p, 0x04, []), (.heartbeat p, 0x05, []), (.claim p, 0x10, []), (.handover p, 0x11, []), (.release p, 0x12, []),
    (.setLease p, 0x13, []), (.sealConfig p, 0x14, []), (.setTenantWindow p, 0x20, []), (.setMemWindow p, 0x21, []),
    (.setCtxOwner p, 0x22, []), (.setPkgGroup p, 0x23, []), (.install p extra, 0x30, extra), (.uninstall p, 0x31, []),
    (.switchIn p, 0x32, []), (.stageMap p, 0x33, []), (.stageSeal p, 0x34, []), (.adoptDrive p, 0x35, []), (.submit p, 0x40, []),
    (.cancel p, 0x41, []), (.prefixRelease p, 0x42, []), (.regDelivery p n, 0x43, toBytes n 8), (.finalRead p, 0x44, []),
    (.disable p, 0x50, []), (.enable p, 0x51, []), (.regRead p, 0x60, []), (.regWrite p, 0x61, []), (.attest p, 0x62, []),
    (.eventCfg p, 0x63, []), (.unknownOp 0x99 p, 0x99, [])]
theorem exec_sessionCommands (s : State) (p : Pkt) (n : Nat) (extra : List Byte) :
    ∀ e ∈ sessionCommands p n extra, exec e.1 s = .next (s.hostCommand e.2.1 p e.2.2) := by
  simp only [sessionCommands, List.forall_mem_cons, List.not_mem_nil, false_imp_iff, implies_true, and_true]
  exact ⟨rfl, rfl, rfl, rfl, rfl, rfl, rfl, rfl, rfl, rfl, rfl, rfl, rfl, rfl, rfl, rfl, rfl, rfl, rfl, rfl, rfl, rfl, rfl, rfl, rfl, rfl, rfl, rfl, rfl⟩
theorem opcode_sessionCommands (p : Pkt) (n : Nat) (extra : List Byte) : ∀ e ∈ sessionCommands p n extra, 3 < e.2.1 := by
  simp only [sessionCommands, List.forall_mem_cons, List.not_mem_nil, false_imp_iff, implies_true, and_true]
  decide

/-- Settles O19: a command is sent under its opcode, and one in turn passes the checks. -/
theorem packetsInTurnAreSerialised : Obligations.PacketsInTurnAreSerialised := by
  intro s i v p c op n extra h hm
  have hexec := exec_sessionCommands s p n extra (c, op, extra) hm
  rw [hexec, State.hostCommand_of_inTurn h (opcode_sessionCommands p n extra _ hm)]
end Sys2Proof.Machine
end

section
/-!
PROOF. Commands of a session: in turn, with the rights of R285, a command does what its operation does in the serial state (R277, R283).
-/
namespace Sys2Proof.Machine

set_option Elab.async false

section
variable {s t : State} {i op : Nat} {v : Session} {p : Pkt}

/-- R277 steps 2 to 4: a command in turn, not of those that open sessions, is serialised. -/
theorem State.hostCommand_of_turn (h : s.inTurn i v op p) (hop : op ∉ [1, 2, 3]) (extra : List Byte) :
    s.hostCommand op p extra = (s.occupy p.qp).serialise i op p extra [] 64 := by
  simp only [List.mem_cons, List.not_mem_nil, or_false, not_or] at hop
  obtain ⟨h1, h2, h3⟩ := hop
  obtain ⟨harr, -, hv, hsess, htag, hseq, -, hclosing, -, -⟩ := h
  rw [State.hostCommand_of_arrives harr]
  obtain ⟨-, -, -, -, hq, ⟨k, hk, -, -, hbound⟩, -, -⟩ := harr
  have hto : (s.occupy p.qp).boundTo p.qp = some i := (State.boundTo_occupy hq hk).trans hbound
  simp [State.checked, hto, hv, hq, hsess, htag, h1, h2, h3, State.inSequence, hseq, hclosing]
/-- R283: a command in turn does what its operation does in the serial state, when that holds no command back. -/
theorem State.hostCommand_of_held (h : s.inTurn i v op p) (hop : op ∉ [1, 2, 3]) (extra : List Byte)
    (hs : ∀ w, ((s.serial i op p).applyOp i op p extra).session i = some w → w.held = []) :
    s.hostCommand op p extra = (s.serial i op p).applyOp i op p extra := by
  rw [State.hostCommand_of_turn h hop]
  obtain ⟨⟨-, -, hlease, -⟩, -, hv, -⟩ := h
  have hdue : (s.occupy p.qp).leaseDue = s.occupy p.qp := State.leaseDue_of_running (by rw [State.occupy_qps_only]; exact hlease)
  have hstart : ((s.occupy p.qp).leaseDue).takeSeq i op p [] = s.serial i op p := by rw [hdue]; rfl
  rw [State.serialise, hstart]
  cases hk : ((s.serial i op p).applyOp i op p extra).session i with
  | none => simp only
  | some w => simp only [hs w hk, List.find?_nil]
/-- The session of a command in turn holds nothing back in the serial state. -/
theorem State.held_of_sessions (h : s.inTurn i v op p) (hs : t.host.sessions = (s.serial i op p).host.sessions) :
    ∀ w, t.session i = some w → w.held = [] := fun w hw => by
  obtain ⟨-, -, hv, -, -, -, hheld, -⟩ := h
  rw [State.session, hs, ← State.session, State.session_serial_self hv, Option.some.injEq] at hw
  rw [← hw, held_takenSeq, hheld]

/-! ## Rights (R285) -/

theorem State.isOwner_serial (ho : s.ownerIndex = some i) (j n : Nat) (q : Pkt) : (s.serial j n q).isOwner (.session i) = true := by
  simp [State.isOwner, ho]
theorem ne_mgmtIndex (hi : i < 256) : i ≠ mgmtIndex := by
  unfold mgmtIndex
  omega
/-- The owner may do what only the owner may. -/
theorem State.rights_of_owner (h : s.ownerTurn i v op p) (hop : ownerOp op = true)
    (hserve : op ≠ 0x32 ∧ (op = 0x30 → bitOf (at' p.body 2 1) 0 = false) ∨ (s.serial i op p).noServing = false) :
    (s.serial i op p).rightsRefusal i (takenSeq i op p v) op p = none := by
  obtain ⟨⟨-, hi, -⟩, ho, ha⟩ := h
  have htop : tenantOp op = false := by
    simp only [ownerOp, Bool.or_eq_true, decide_eq_true_eq] at hop
    simp only [tenantOp, decide_eq_false_iff_not]
    omega
  have h10 : op ≠ 0x10 := fun h => by subst h; exact absurd hop (by decide)
  have hno : ¬ ((s.serial i op p).noServing = true ∧ (op = 0x32 ∨ (op = 0x30 ∧ bitOf (at' p.body 2 1) 0 = true))) := by
    rintro ⟨hn, h32 | ⟨h30, hb⟩⟩
    · rcases hserve with h | h
      · exact h.1 h32
      · rw [h] at hn
        exact absurd hn (by decide)
    · rcases hserve with h | h
      · rw [h.2 h30] at hb
        exact absurd hb (by decide)
      · rw [h] at hn
        exact absurd hn (by decide)
  simp [State.rightsRefusal, ne_mgmtIndex hi, State.isOwner_serial ho, ha, htop, h10, hno]
/-- What needs neither ownership nor a tenant every session may do. -/
theorem State.rights_of_any (h : s.inTurn i v op p) (ha : actBit p = false) (hop : ownerOp op = false) (htop : tenantOp op = false) (h10 : op ≠ 0x10) :
    (s.serial i op p).rightsRefusal i (takenSeq i op p v) op p = none := by
  obtain ⟨-, hi, -⟩ := h
  have h32 : ¬ (op = 0x32 ∨ (op = 0x30 ∧ bitOf (at' p.body 2 1) 0 = true)) := by
    rintro (rfl | ⟨rfl, -⟩)
    · exact absurd hop (by decide)
    · exact absurd hop (by decide)
  simp [State.rightsRefusal, ne_mgmtIndex hi, ha, hop, htop, h10, h32]
/-- R285: who may act for a tenant may do what is done for one. -/
theorem State.rights_of_tenant (h : s.tenantTurn i v op p) (hop : ownerOp op = false) (h10 : op ≠ 0x10) :
    (s.serial i op p).rightsRefusal i (takenSeq i op p v) op p = none := by
  obtain ⟨⟨-, hi, -, -, -, -, -, -, -, hhead⟩, ha, hmay⟩ := h
  have htenant : p.tenant % 4096 = p.tenant := by
    simp only [headerBad, Bool.or_eq_false_iff, decide_eq_false_iff_not] at hhead
    omega
  have hmay' : (s.serial i op p).mayAct (takenSeq i op p v) p.tenant = true := by
    simpa only [State.mayAct, State.flag, State.rd_serial, takenSeq] using hmay
  have h32 : ¬ (op = 0x32 ∨ (op = 0x30 ∧ bitOf (at' p.body 2 1) 0 = true)) := by
    rintro (rfl | ⟨rfl, -⟩)
    · exact absurd hop (by decide)
    · exact absurd hop (by decide)
  simp [State.rightsRefusal, ne_mgmtIndex hi, ha, hop, h10, h32, htenant, hmay']

/-! ## The operation, its answer and the command -/

/-- R277 step 6: with its rights a command with a good header is not turned away before its operation. -/
theorem State.session_of_turn (h : s.inTurn i v op p) : (s.serial i op p).session i = some (takenSeq i op p v) :=
  State.session_serial_self h.2.2.1 op p
theorem headerBad_of_turn (h : s.inTurn i v op p) : headerBad p = false := by
  obtain ⟨-, -, -, -, -, -, -, -, -, hhead⟩ := h
  exact hhead
/-- R284: a command answers as long as its session keeps its generation and its reply journal. -/
theorem State.answerSeq_of_session (h : s.inTurn i v op p) {w : Session} (hw : t.session i = some w) (hgen : w.gen = v.gen)
    (hjournal : w.journal = (takenSeq i op p v).journal) (status detail : Nat) (body : List Byte) :
    t.answerSeq i p.seq status detail body = t.newRecord 0xFFFF (.reply p.qp (i + 1) p.session p.seq p.tag op status detail body) := by
  obtain ⟨⟨-, -, -, -, hq, -⟩, hi, hv, hsess, -, -, -, -, hnew, -⟩ := h
  have hrep := findRep_takenSeq op hi hnew
  rw [findRep, ← hjournal, ← findRep] at hrep
  simp [State.answerSeq, hw, hrep, State.answer, hq, hsess, hgen]
/-- R277, R283: a command in turn ends as its operation does in the serial state, when its session then holds nothing back. -/
theorem completes_command {c : Instr} {extra : List Byte} {P : State → Prop} (hexec : exec c s = .next (s.hostCommand op p extra))
    (h : s.inTurn i v op p) (hop : op ∉ [1, 2, 3]) (happ : (s.serial i op p).applyOp i op p extra = t)
    (hheld : ∀ w, t.session i = some w → w.held = []) (hP : P t) : Completes c s P := by
  refine ⟨_, hexec, ?_⟩
  rwa [State.hostCommand_of_held h hop extra (by rwa [happ]), happ]
/-- The same of a command that leaves the sessions to the reply. -/
theorem completes_answer {c : Instr} {extra : List Byte} {P : State → Prop} (hexec : exec c s = .next (s.hostCommand op p extra))
    (h : s.inTurn i v op p) (hop : op ∉ [1, 2, 3]) {status detail : Nat} {body : List Byte}
    (happ : (s.serial i op p).applyOp i op p extra = t.answerSeq i p.seq status detail body)
    (hs : t.host.sessions = (s.serial i op p).host.sessions)
    (hP : P (t.newRecord 0xFFFF (.reply p.qp (i + 1) p.session p.seq p.tag op status detail body))) : Completes c s P := by
  rw [State.answerSeq_of_inTurn h hs] at happ
  refine completes_command hexec h hop happ (State.held_of_sessions h ?_) hP
  rw [State.host_newRecord, hs]
end
end Sys2Proof.Machine
end

section
/-!
PROOF. Ownership and configuration commands (R282, R286 to R288, R292, R299).
-/
namespace Sys2Proof.Machine

set_option Elab.async false

section
variable {s : State} {i : Nat} {v : Session} {p : Pkt}

/-- R282, R287: the owner's HEARTBEAT renews the lease and answers with the owner. -/
theorem completes_heartbeat (h : s.ownerTurn i v 0x05 p) (hb : p.body = []) :
    Completes (.heartbeat p) s (fun t => t.host.lease = some (s.now + 1000000 * s.rd F.LEASE_CFG_MS) ∧
      t.answered i 0x05 p 0 (s.rd F.OWNER_STATUS_SESSION) [] ∧ t.arr = s.arr ∧ t.mas = s.mas ∧ t.fuses = s.fuses) := by
  have ⟨hturn, howner, hact⟩ := h
  have hi : i < 256 := hturn.2.1
  have hr := State.rights_of_any hturn hact (by decide) (by decide) (by decide)
  have happ : (s.serial i 0x05 p).applyOp i 0x05 p [] =
      (s.serial i 0x05 p).renewLease.answerSeq i p.seq stOk (s.rd F.OWNER_STATUS_SESSION) [] := by
    simp [State.applyOp, State.session_of_turn hturn, hr, headerBad_of_turn hturn, knownOp, State.opHeartbeat, hb, ne_mgmtIndex hi,
      State.isOwner_serial howner]
  refine completes_answer rfl hturn (by decide) happ rfl ⟨?_, State.answered_newRecord .., ?_⟩
  · simp [State.renewLease]
  · rw [State.newRecord, State.onlyJournal_newRecordFor, State.renewLease, State.serial_host_only]
    exact ⟨rfl, rfl, rfl⟩
/-- R286: CLAIM of an unowned module makes its session the owner. -/
theorem completes_claim (h : s.inTurn i v 0x10 p) (hact : actBit p = false) (hb : p.body = []) (hfree : s.flag F.OWNER_STATUS_OWNED = false)
    (hroles : bitOf v.roles 0 = true) :
    Completes (.claim p) s (fun t => t.flag F.OWNER_STATUS_OWNED = true ∧ t.rd F.OWNER_STATUS_SESSION = sessionField i v.gen % 2 ^ 16 ∧
      t.host.lease = some (s.now + 1000000 * s.rd F.LEASE_CFG_MS) ∧ t.answered i 0x10 p 0 0 []) := by
  have hi : i < 256 := h.2.1
  have hsess := State.session_of_turn h
  have howned : (s.serial i 0x10 p).flag F.OWNER_STATUS_OWNED = false := by rwa [State.flag, State.rd_serial, ← State.flag]
  have hmine : (s.serial i 0x10 p).isOwner (.session i) = false := by simp [State.isOwner, State.ownerIndex, howned]
  have hr : (s.serial i 0x10 p).rightsRefusal i (takenSeq i 0x10 p v) 0x10 p = none := by
    have : bitOf (takenSeq i 0x10 p v).roles 0 = true := hroles
    simp [State.rightsRefusal, ne_mgmtIndex hi, hact, knownOp, ownerOp, tenantOp, this]
  have happ : (s.serial i 0x10 p).applyOp i 0x10 p [] = ((s.serial i 0x10 p).answerSeq i p.seq stOk 0 []).setOwner (some i) := by
    simp [State.applyOp, hsess, hr, headerBad_of_turn h, knownOp, State.opClaim, hb, hmine, howned]
  rw [State.answerSeq_of_inTurn h rfl] at happ
  refine completes_command rfl h (by decide) happ (State.held_of_sessions h (by simp)) ?_
  generalize hu : (s.serial i 0x10 p).newRecord 0xFFFF _ = u
  have hsessu : u.session i = some (takenSeq i 0x10 p v) := by rw [← hu, State.session, State.host_newRecord]; exact hsess
  refine ⟨?_, ?_, ?_, State.answered_setOwner _ _ ?_⟩
  · simp [State.flag, b2n]
  · rw [u.rd_owner_setOwner hsessu, gen_takenSeq]
  · rw [u.lease_setOwner hsessu, ← hu, State.now_newRecord, State.rd_leaseMs_newRecord, State.now_serial, State.rd_serial]
  · rw [← hu]
    exact State.answered_newRecord ..
/-- R292: SEAL_CONFIG seals the configuration. -/
theorem completes_sealConfig (h : s.ownerTurn i v 0x14 p) (hb : p.body = []) :
    Completes (.sealConfig p) s (fun t => t.host.isSealed = true ∧ t.answered i 0x14 p 0 0 []) := by
  have hr := State.rights_of_owner h (by decide) (.inl ⟨by decide, fun h => absurd h (by decide)⟩)
  have hturn := h.1
  have happ : (s.serial i 0x14 p).applyOp i 0x14 p [] =
      ({ s.serial i 0x14 p with host := { (s.serial i 0x14 p).host with isSealed := true } } : State).answerSeq i p.seq stOk 0 [] := by
    simp [State.applyOp, State.session_of_turn hturn, hr, headerBad_of_turn hturn, knownOp, ownerOp, State.opSealConfig, hb]
  exact completes_answer rfl hturn (by decide) happ rfl ⟨by rw [State.host_newRecord], State.answered_newRecord ..⟩
/-- R299: EVENT_CFG sets its session's mask. -/
theorem completes_eventCfg (h : s.inTurn i v 0x63 p) (hact : actBit p = false) (hlen : p.body.length = 4) :
    Completes (.eventCfg p) s (fun t => (t.session i).map (·.mask) = some (at' p.body 0 4) ∧ t.answered i 0x63 p 0 0 []) := by
  have hr := State.rights_of_any h hact (by decide) (by decide) (by decide)
  have happ : (s.serial i 0x63 p).applyOp i 0x63 p [] =
      ((s.serial i 0x63 p).setSession i { takenSeq i 0x63 p v with mask := at' p.body 0 4 }).answerSeq i p.seq stOk 0 [] := by
    simp [State.applyOp, State.session_of_turn h, hr, headerBad_of_turn h, knownOp, State.opEventCfg, hlen]
  have hw : ((s.serial i 0x63 p).setSession i { takenSeq i 0x63 p v with mask := at' p.body 0 4 }).session i =
      some { takenSeq i 0x63 p v with mask := at' p.body 0 4 } := SMap.find?_insert_self ..
  rw [State.answerSeq_of_session h hw rfl rfl] at happ
  have hnew : ∀ q : JPay, (((s.serial i 0x63 p).setSession i { takenSeq i 0x63 p v with mask := at' p.body 0 4 }).newRecord 0xFFFF q).session i =
      some { takenSeq i 0x63 p v with mask := at' p.body 0 4 } := fun q => by rw [State.session, State.host_newRecord]; exact hw
  refine completes_command rfl h (by decide) happ (fun w hw' => ?_) ⟨?_, State.answered_newRecord ..⟩
  · rw [hnew, Option.some.injEq] at hw'
    obtain ⟨-, -, -, -, -, -, hheld, -⟩ := h
    rw [← hw']
    exact hheld
  · rw [hnew]
    rfl
end

/-- Settles O20: each command acts in the serial state with the rights of its session, and is answered. -/
theorem ownershipAndConfigurationCommands : Obligations.OwnershipAndConfigurationCommands := by
  intro s i v p
  refine ⟨completes_heartbeat, completes_claim, fun j u h hlen hnames hj _ hu hst hclosing hroles => ?_, fun h hb => ?_,
    fun h hlen hlow hhigh => ?_, completes_sealConfig, completes_eventCfg⟩
  · obtain ⟨t, ht, hindex, howner, -, hans⟩ := (completes_handover h hlen hnames hj hu (.inl hst) (by omega)).1 hroles
    refine ⟨t, ht, ?_, howner, hans⟩
    cases hf : t.flag F.OWNER_STATUS_OWNED with
    | true => rfl
    | false => exact absurd hindex (by simp [State.ownerIndex, hf])
  · obtain ⟨t, ht, hindex, hlease, hans⟩ := completes_release h hb
    refine ⟨t, ht, ?_, hlease, hans⟩
    cases hf : t.flag F.OWNER_STATUS_OWNED with
    | false => rfl
    | true => exact absurd hindex (by simp [State.ownerIndex, hf])
  · have hop : (s.serial i 0x13 p).opSetLease i p = (((s.serial i 0x13 p).wr F.LEASE_CFG_MS (at' p.body 0 4)).journalReg
        (Reg.addr .LEASE_CFG 0 .glob 0) (at' p.body 0 4)).answerSeq i p.seq stOk 0 [] := by
      simp [State.opSetLease, hlen, Nat.not_lt.mpr hlow, Nat.not_lt.mpr hhigh]
    have hms : at' p.body 0 4 % 2 ^ F.LEASE_CFG_MS.w = at' p.body 0 4 := Nat.mod_eq_of_lt (hhigh.trans_lt (by decide))
    rw [State.answerSeq_of_inTurn h.1 (by simp [State.journalReg])] at hop
    refine completes_ownershipCommand setLease_mem h ?_ ?_ <;> rw [hop]
    · simp [State.journalReg]
    · refine ⟨?_, by simp [State.journalReg], State.answered_newRecord ..⟩
      simp [State.journalReg, State.rd_wr_self, hms]
end Sys2Proof.Machine
end

section
/-!
PROOF. Packets that are no commands, and commands with an unknown OPCODE (R277, R291).
-/
namespace Sys2Proof.Machine

set_option Elab.async false

section
variable {s : State} {i : Nat} {v : Session} {p : Pkt}

/-- R275: a packet that arrives reaches the check of its header. -/
theorem State.arrivePkt_of_arrives {b : Option Nat} (h : s.arrives p b) (k : State → State) : s.arrivePkt p k = k s := by
  obtain ⟨hdark, hfail, -, hce, -, ⟨q, hq, herr, hused, -⟩, hlen, -⟩ := h
  have hopen : s.qpOpen p.qp = true := by simp [State.qpOpen, hq, herr]
  simp [State.arrivePkt, hdark, hfail, hopen, hce, hq, Nat.not_le.mpr hused, Nat.not_lt.mpr hlen]
/-- R277: a packet of another form is dropped and counted. -/
theorem completes_malformedPacket {op magic version : Nat} (h : s.arrives p (some i)) (hbad : magic ≠ 0x444D4358 ∨ version ≠ 1) :
    Completes (.malformedPacket magic version op p) s (fun t =>
      t.rd F.MALFORMED_COUNT = (s.rd F.MALFORMED_COUNT + 1) % 2 ^ F.MALFORMED_COUNT.w ∧ t = { s with regs := t.regs } ∧
      s.regsBut t F.MALFORMED_COUNT.words) := by
  have hnot : ¬ (magic = 0x444D4358 ∧ version = 1) := by tauto
  refine ⟨_, rfl, ?_⟩
  rw [if_neg hnot, State.arrivePkt_of_arrives h]
  exact ⟨State.rd_wr_self .., State.wr_regs_only .., State.regsBut.refl.wr (by simp)⟩
/-- R291: an unknown OPCODE is answered, whatever the session may do. -/
theorem completes_unknownOp {op : Nat} (h : s.inTurn i v op p) (hop : knownOp op = false) :
    Completes (.unknownOp op p) s (fun t => t.answered i op p stUnknown 0 []) := by
  have hnone : op ∉ [1, 2, 3] := by
    intro hmem
    fin_cases hmem <;> exact absurd hop (by decide)
  have happ : (s.serial i op p).applyOp i op p [] = (s.serial i op p).answerSeq i p.seq stUnknown 0 [] := by
    simp [State.applyOp, State.session_of_turn h, State.rightsRefusal, hop]
  exact completes_answer rfl h hnone happ rfl (State.answered_newRecord ..)
end

/-- Settles O24: the check of the header comes before everything else, that of the OPCODE before rights and layout. -/
theorem badPacketsAreTurnedAway : Obligations.BadPacketsAreTurnedAway :=
  fun _ _ _ _ _ _ _ => ⟨completes_malformedPacket, fun h _ => completes_unknownOp h⟩
end Sys2Proof.Machine
end

section
/-!
PROOF. Register reads and writes of a session, and attestation (R31, R291, R446).
-/
namespace Sys2Proof.Machine

set_option Elab.async false

/-- Bytes written little end first read back as their number. -/
theorem at'_toBytes_append {n k : Nat} (bs : List Byte) (h : n < 256 ^ k) : at' (toBytes n k ++ bs) 0 k = n := by
  rw [at', List.drop_zero, List.take_left' (length_toBytes n k), ofBytes_toBytes, Nat.mod_eq_of_lt h]
theorem at'_append_toBytes {n k o : Nat} (bs : List Byte) (ho : bs.length = o) (h : n < 256 ^ k) : at' (bs ++ toBytes n k) o k = n := by
  rw [at', List.drop_left' ho, List.take_of_length_le (length_toBytes n k).le, ofBytes_toBytes, Nat.mod_eq_of_lt h]

section
variable {s : State} {i : Nat} {v : Session} {p : Pkt}

/-! ## REG_READ -/

/-- R31: a register of the module that counts nothing is read without an effect. -/
theorem State.readReg_glob {path : Path} {a k : Nat} {r : Reg} {j : Nat} (hmay : s.mayRead path a = true) (hopen : s.blockOpen path a = true)
    (ha : a < 0x1000000) (hloc : s.locate a = some (r, j, .glob, k)) (hlatch : latching r = false) :
    s.readReg path a = (.ok (s.view r j .glob k), s) := by
  simp [State.readReg, hmay, hopen, State.dieCloses_glob ha, hloc, State.wakeFor_glob ha, hlatch]
theorem lc_serial (s : State) (i op : Nat) (p : Pkt) : (s.serial i op p).lc = s.lc := by
  rw [State.serial_host_only]
  rfl
theorem modState_serial (s : State) (i op : Nat) (p : Pkt) : (s.serial i op p).modState = s.modState := s.rd_serial i op p ..
/-- R31: REG_READ of POWER_CAP answers its word. -/
theorem completes_regRead (hlc : s.lc ≠ .retired) (h1 : s.modState ≠ 1) (h : s.inTurn i v 0x60 p) (hact : actBit p = false)
    (hb : p.body = toBytes (Reg.addr .PWR_CAP 0 .glob 0) 4 ++ toBytes 1 2) :
    Completes (.regRead p) s (fun t => t.answered i 0x60 p 0 0 (toBytes (s.view .PWR_CAP 0 .glob 0).toNat 4) ∧
      s.regsBut t F.JOURNAL_JSN_VALUE.words) := by
  have hi : pathOf i = .session i := if_neg (ne_mgmtIndex h.2.1)
  have hr := State.rights_of_any h hact (by decide) (by decide) (by decide)
  have haddr : at' p.body 0 4 = Reg.addr .PWR_CAP 0 .glob 0 := by rw [hb]; exact at'_toBytes_append _ (by decide)
  have hcount : at' p.body 4 2 = 1 := by rw [hb]; exact at'_append_toBytes _ (length_toBytes ..) (by decide)
  have hlen : p.body.length = 6 := by rw [hb]; rfl
  have hread : (s.serial i 0x60 p).readReg (.session i) (Reg.addr .PWR_CAP 0 .glob 0) = (.ok (s.view .PWR_CAP 0 .glob 0), s.serial i 0x60 p) := by
    have hopen := State.blockOpen_of_running (s := s.serial i 0x60 p) (by rwa [lc_serial]) (by rwa [modState_serial])
    rw [State.readReg_glob rfl (hopen ..) (by decide) (State.locate_addr (Reg.has_glob (by decide) (by decide)) trivial rfl) rfl]
    simp only [State.view, State.viewNat, State.word, State.regs_serial]
  have happ : (s.serial i 0x60 p).applyOp i 0x60 p [] =
      (s.serial i 0x60 p).answerSeq i p.seq stOk 0 (toBytes (s.view .PWR_CAP 0 .glob 0).toNat 4) := by
    simp [State.applyOp, State.session_of_turn h, hr, headerBad_of_turn h, knownOp, State.opRegRead, hlen, hcount, haddr, hi,
      State.readWords, hread]
  refine completes_answer rfl h (by decide) happ rfl ⟨State.answered_newRecord .., fun r j w k hk => ?_⟩
  rw [State.regsBut_newRecord _ _ _ r j w k hk, State.word, State.word, State.regs_serial]

/-! ## REG_WRITE -/

theorem State.writeReg_PWR_DRAIN_MS (s : State) (path : Path) (j : Nat) (w : Win) (k v n : Nat) :
    s.writeReg path .PWR_DRAIN_MS j w k v n = (true, s.setWord .PWR_DRAIN_MS j w k (BitVec.ofNat 32 n)) := rfl
/-- R427: the word that a write of PWR_DRAIN_MS leaves holds the deadline in its field. -/
theorem State.setWord_PWR_DRAIN_MS (s : State) {x : Nat} (hx : x ≤ 60000) :
    s.setWord .PWR_DRAIN_MS 0 .glob 0
      (BitVec.ofNat 32 (writtenWord s.host.isSealed .PWR_DRAIN_MS 0 (x % 2 ^ 32) (s.word .PWR_DRAIN_MS 0 .glob 0).toNat)) = s.wr F.PWR_DRAIN_MS_MS x := by
  have hfield : bitsOf x 0 16 = x := by simp only [bitsOf]; omega
  have hpart : FieldDef.part ⟨0, 16, .rw, 10000, 0, 60000⟩ 0 = (0, 16) := by decide
  have hwritten : writtenWord s.host.isSealed .PWR_DRAIN_MS 0 x (s.word .PWR_DRAIN_MS 0 .glob 0).toNat =
      putBits (s.word .PWR_DRAIN_MS 0 .glob 0).toNat 0 16 x := by
    simp [writtenWord, Reg.info, FieldDef.inWord, FieldDef.applyWrite, hpart, hfield]
  rw [Nat.mod_eq_of_lt (by omega), hwritten]
  rfl
theorem State.writes_PWR_DRAIN_MS {path : Path} {x : Nat} (hd : s.dark = false) (hlc : s.lc ≠ .retired)
    (hmay : s.mayWrite path (Reg.addr .PWR_DRAIN_MS 0 .glob 0) .PWR_DRAIN_MS = true) (hx : x ≤ 60000) :
    s.writes path (Reg.addr .PWR_DRAIN_MS 0 .glob 0) x .PWR_DRAIN_MS 0 .glob 0 := by
  refine State.writes_low hd hlc (State.locate_addr (Reg.has_glob (by decide) (by decide)) trivial rfl) hmay (by decide) ?_
  have hfield : bitsOf x 0 16 = x := by simp only [bitsOf]; omega
  have hpart : FieldDef.part ⟨0, 16, .rw, 10000, 0, 60000⟩ 0 = (0, 16) := by decide
  have hin : ∀ n, bitsOf (putBits n 0 16 x) 0 16 ≤ 60000 := fun n => by
    rw [bitsOf_putBits_self]
    exact (Nat.mod_le _ _).trans hx
  rw [Nat.mod_eq_of_lt (by omega)]
  simp [State.writeRefused, Reg.info, FieldDef.inWord, Acc.writable, FieldDef.breaksSeal, State.fieldRefuses, hpart, hfield, hin]
/-- R31, R338: what a write of PWR_DRAIN_MS leaves before its answer: the deadline, and a journal record where settings are journaled. -/
theorem State.applyWrite_PWR_DRAIN_MS {path : Path} {x : Nat} (hd : s.dark = false) (hlc : s.lc ≠ .retired)
    (hmay : s.mayWrite path (Reg.addr .PWR_DRAIN_MS 0 .glob 0) .PWR_DRAIN_MS = true) (hx : x ≤ 60000) :
    ∃ t, s.applyWrite path (Reg.addr .PWR_DRAIN_MS 0 .glob 0) x = (.applied, t) ∧
      (t = s.wr F.PWR_DRAIN_MS_MS x ∨ ∃ n, t = (s.wr F.PWR_DRAIN_MS_MS x).journalReg (Reg.addr .PWR_DRAIN_MS 0 .glob 0) n) := by
  have hw := State.writes_PWR_DRAIN_MS hd hlc hmay hx
  have hg := State.writeReg_PWR_DRAIN_MS s path 0 .glob 0 (x % 2 ^ 32)
    (writtenWord s.host.isSealed .PWR_DRAIN_MS 0 (x % 2 ^ 32) (s.word .PWR_DRAIN_MS 0 .glob 0).toNat)
  rw [State.setWord_PWR_DRAIN_MS s hx] at hg
  rw [State.applyWrite_of_writes hw hg, if_pos rfl]
  refine ⟨_, rfl, ?_⟩
  split
  · exact .inr ⟨_, rfl⟩
  · exact .inl rfl
/-- R31: REG_WRITE of PWR_DRAIN_MS sets it and answers its value. -/
theorem completes_regWrite (hlc : s.lc ≠ .retired) (h1 : s.modState ≠ 1) {x : Nat} (h : s.ownerTurn i v 0x61 p) (hx : x ≤ 60000)
    (hb : p.body = toBytes (Reg.addr .PWR_DRAIN_MS 0 .glob 0) 4 ++ toBytes x 4) :
    Completes (.regWrite p) s (fun t => t.rd F.PWR_DRAIN_MS_MS = x ∧
      t.answered i 0x61 p 0 0 (toBytes (t.view .PWR_DRAIN_MS 0 .glob 0).toNat 4) ∧
      s.regsBut t (F.PWR_DRAIN_MS_MS.words ++ F.JOURNAL_JSN_VALUE.words)) := by
  have hr := State.rights_of_owner h (by decide) (.inl ⟨by decide, fun h => absurd h (by decide)⟩)
  obtain ⟨hturn, howner, -⟩ := h
  have hi : pathOf i = .session i := if_neg (ne_mgmtIndex hturn.2.1)
  have haddr : at' p.body 0 4 = Reg.addr .PWR_DRAIN_MS 0 .glob 0 := by rw [hb]; exact at'_toBytes_append _ (by decide)
  have hval : at' p.body 4 4 = x := by rw [hb]; exact at'_append_toBytes _ (length_toBytes ..) (by omega)
  have hlen : p.body.length = 8 := by rw [hb]; simp [length_toBytes]
  have hdark : (s.serial i 0x61 p).dark = false := by
    rw [← hturn.1.1, State.serial_host_only]
    rfl
  obtain ⟨t, happly, ht⟩ := State.applyWrite_PWR_DRAIN_MS (s := s.serial i 0x61 p) (path := .session i) hdark (by rwa [lc_serial])
    (State.mayWrite_owner (by simpa using howner) ..) hx
  have hsess : t.host.sessions = (s.serial i 0x61 p).host.sessions := by
    rcases ht with rfl | ⟨n, rfl⟩
    · simp
    · simp [State.journalReg]
  have honly : (s.serial i 0x61 p).only [.regs, .jr] t := by
    rcases ht with rfl | ⟨n, rfl⟩
    · exact State.only.refl.wr
    · exact State.only.refl.wr.journalReg
  have hregs : (s.serial i 0x61 p).regsBut t (F.PWR_DRAIN_MS_MS.words ++ F.JOURNAL_JSN_VALUE.words) := by
    rcases ht with rfl | ⟨n, rfl⟩
    · exact State.regsBut.refl.wr (by simp)
    · exact (State.regsBut.refl.wr (by simp)).trans (State.regsBut.mono (State.regsBut_newRecord _ _ _) (by simp))
  have hrd : t.rd F.PWR_DRAIN_MS_MS = x := by
    rcases ht with rfl | ⟨n, rfl⟩
    · exact State.rd_wr_fits (show x < 2 ^ 16 by omega)
    · exact (State.rd_newRecord_of_apart _ _ _ _ (by decide)).trans (State.rd_wr_fits (show x < 2 ^ 16 by omega))
  have hopen : t.blockOpen (.session i) (Reg.addr .PWR_DRAIN_MS 0 .glob 0) = true := by
    refine State.blockOpen_of_lt _ ?_ (by decide)
    rw [State.lc, State.epoch, honly.fuses]
    rwa [← lc_serial] at hlc
  have hvalue : t.valueFor (.session i) (Reg.addr .PWR_DRAIN_MS 0 .glob 0) = some (t.view .PWR_DRAIN_MS 0 .glob 0) := by
    have hmay : t.mayRead (.session i) (Reg.addr .PWR_DRAIN_MS 0 .glob 0) = true := rfl
    simp only [State.valueFor, hmay, hopen, State.dieCloses_glob (s := t) (show Reg.addr .PWR_DRAIN_MS 0 .glob 0 < 0x1000000 by decide),
      State.locate_addr (s := t) (Reg.has_glob (r := .PWR_DRAIN_MS) (i := 0) (k := 0) (by decide) (by decide)) trivial rfl,
      Option.isNone_none, Bool.and_self, if_true]
  have happ : (s.serial i 0x61 p).applyOp i 0x61 p [] = t.answerSeq i p.seq stOk 0 (toBytes (t.view .PWR_DRAIN_MS 0 .glob 0).toNat 4) := by
    simp [State.applyOp, State.session_of_turn hturn, hr, headerBad_of_turn hturn, knownOp, ownerOp, State.opRegWrite, hlen, hval, haddr, hi,
      happly, hvalue]
  refine completes_answer rfl hturn (by decide) happ hsess ⟨?_, ?_, fun r j w k hk => ?_⟩
  · rw [State.rd_newRecord_of_apart _ _ _ _ (by decide), hrd]
  · have hview : ∀ q : JPay, (t.newRecord 0xFFFF q).view .PWR_DRAIN_MS 0 .glob 0 = t.view .PWR_DRAIN_MS 0 .glob 0 := fun q => by
      simp only [State.view, State.viewNat]
      rw [State.regsBut_newRecord t 0xFFFF q _ _ _ _ (by decide)]
    rw [hview]
    exact State.answered_newRecord ..
  · rw [List.mem_append, not_or] at hk
    rw [State.regsBut_newRecord t _ _ r j w k hk.2, hregs r j w k (by simp [hk.1, hk.2]), State.word, State.word, State.regs_serial]

/-! ## ATTEST -/

/-- R446: bytes 0 to 31 of the report. -/
def State.reportStart (s : State) : List Byte :=
  toBytes 0x54415844 4 ++ toBytes 1 2 ++ toBytes (Grade.byte s.fuses.grade) 1 ++ toBytes (lcCode s.lc + 8 * s.epoch) 1 ++
  toBytes s.fuses.serial 8 ++ toBytes (s.rd F.FW_VERSION_VALUE) 4 ++ toBytes (s.rd F.FW_SVN_SVN + 256 * s.fuses.svnFloor) 4 ++
  toBytes (s.rd F.MODULE_NUM_MODULE_ID + 32768 * s.rd F.MODULE_NUM_ID_VALID) 2 ++ toBytes (s.rd F.BOOT_STATUS_RESET_CAUSE) 2 ++
  toBytes (s.rd F.BOOT_COUNT_VALUE) 4
theorem length_reportStart (s : State) : s.reportStart.length = 32 := by
  simp only [State.reportStart, List.length_append, length_toBytes]
/-- R446: the nonce stands at byte 32 of the report. -/
theorem nonce_reportHead (s : State) (nonce rom lc ak : List Byte) : ∃ b, s.reportHead nonce rom lc ak = s.reportStart ++ (nonce ++ b) := by
  simp only [State.reportHead, State.reportStart, List.append_assoc]
  exact ⟨_, rfl⟩
theorem completes_attest (h : s.inTurn i v 0x62 p) (hact : actBit p = false) (hlen : p.body.length = 32) (hlow : 2 ≤ s.modState)
    (hhigh : s.modState ≤ 5) :
    Completes (.attest p) s (fun t => ∃ b, t.answered i 0x62 p 0 0 b ∧ (b.drop 32).take 32 = p.body) := by
  have hr := State.rights_of_any h hact (by decide) (by decide) (by decide)
  have hst : ¬ ((s.serial i 0x62 p).modState < 2 ∨ 5 < (s.serial i 0x62 p).modState) := by rw [modState_serial]; omega
  have happ : (s.serial i 0x62 p).applyOp i 0x62 p [] = (s.serial i 0x62 p).opAttest i p := by
    simp [State.applyOp, State.session_of_turn h, hr, headerBad_of_turn h, knownOp]
  obtain ⟨b, hhead⟩ := nonce_reportHead (s.serial i 0x62 p) p.body (bytesOf (Config.romDigest (s.serial i 0x62 p).fuses.stepping))
    (bytesOf (Config.lcDigest (s.serial i 0x62 p).fuses.lcWords (s.serial i 0x62 p).fuses.retiredPair (s.serial i 0x62 p).fuses.svnFloor
      (s.serial i 0x62 p).fuses.revoked)) (Sm2.pointBytes (Sm2.mul (s.serial i 0x62 p).ak Sm2.base))
  rw [State.opAttest, if_neg (not_not.mpr hlen), if_neg hst] at happ
  refine completes_answer rfl h (by decide) happ rfl ⟨_, State.answered_newRecord .., ?_⟩
  simp only [hhead, List.append_assoc]
  rw [List.drop_left' (length_reportStart _), List.take_left' hlen]
end

/-- Settles O23: each command acts in the serial state, and its answer carries what was read, written and measured. -/
theorem registerAndAttestationCommands : Obligations.RegisterAndAttestationCommands := fun _ _ _ _ hlc h1 =>
  ⟨completes_regRead hlc h1, fun _ => completes_regWrite hlc h1, completes_attest⟩
end Sys2Proof.Machine
end

section
/-!
PROOF. Protection changes (R289, R293 to R295).
-/
namespace Sys2Proof.Machine

set_option Elab.async false

/-! ## A change that every die applies at once (R289) -/

/-- R289: the protection of every die in service once `c` is applied. -/
def State.setupAfter (s : State) (c : ProtChange) : SMap Protection :=
  s.diesInService.foldl (fun m d => SMap.insert m d (ProtChange.applyTo c (s.dieProt d))) s.host.dieSetup
/-- R289: the state in which a change that no die waits with is answered. -/
def State.changed (s : State) (c : ProtChange) : State :=
  ({ s with host := { s.host with dieSetup := s.setupAfter c, changes := [] } } : State).newRecord 0xFFFF (.configProt c.kind c.index c.value)

section
variable {s t : State}

/-- R289: the only change, which no die waits with, is answered. -/
theorem State.protDone_of_single {c : ProtChange} (h : s.host.changes = [c]) (hc : c.waiting = []) :
    s.protDone = ({ s with host := { s.host with changes := [] } } : State).answerSeq c.session c.seq stOk c.detail [] := by
  simp only [State.protDone, h, hc, List.filter_cons, List.filter_nil, List.all_nil, List.any_nil, if_true, if_false, Bool.false_eq_true,
    List.foldl_cons, List.foldl_nil]
theorem State.changeProt_of_between {i seq kind index value detail : Nat} (ht : (if kind = 1 then s else s.protReg kind index value) = t) (hchanges : t.host.changes = [])
    (hfree : ∀ d ∈ t.diesInService, t.dieBetweenSteps d = true) :
    s.changeProt i seq kind index value detail = (t.changed ⟨kind, index, value, [], i, seq, detail⟩).answerSeq i seq stOk detail [] := by
  have hbusy : t.diesInService.filter (fun d => !(t.dieBetweenSteps d) || t.host.changes.any (fun c => c.waiting.contains d)) = [] :=
    List.filter_eq_nil_iff.mpr fun d hd => by simp [hfree d hd, hchanges]
  have hall : t.diesInService.filter (fun d => !([] : List Nat).contains d) = t.diesInService := List.filter_eq_self.mpr fun _ _ => rfl
  simp only [State.changeProt, ht, hbusy, hall]
  rw [State.protDone_of_single (c := ⟨kind, index, value, [], i, seq, detail⟩) (by rw [State.host_newRecord, hchanges]; rfl) rfl]
  rfl
/-- A change of the registers leaves what decides whether a die is between its steps. -/
theorem State.dieBetweenSteps_wr {f : Fld} {n j : Nat} (hf : f.In j .glob) (d : Nat) :
    (s.wr f n j).dieBetweenSteps d = s.dieBetweenSteps d := by
  have hstep : ∀ st ∈ List.range 64, (s.wr f n j).flag F.STREAM_CTRL_STEP_MASTER st (.die d) = s.flag F.STREAM_CTRL_STEP_MASTER st (.die d) :=
    fun st hst => State.flag_congr_rd (State.rd_wr_other hf (Fld.in_die (List.mem_range.mp hst)) (.inr (.inr nofun)))
  simp only [State.dieBetweenSteps]
  rw [Bool.eq_iff_iff, List.all_eq_true, List.all_eq_true]
  exact forall₂_congr fun st hst => by rw [hstep st hst, State.strm_wr]
theorem SMap.find?_foldl_insert {α : Type} (g : Nat → α) {d : Nat} {l : List Nat} (hd : d ∈ l) (m : SMap α) :
    SMap.find? (l.foldl (fun m d => SMap.insert m d (g d)) m) d = some (g d) := by
  induction l using List.reverseRecOn with
  | nil => exact absurd hd List.not_mem_nil
  | append_singleton l e ih =>
    rw [List.foldl_append]
    by_cases hde : d = e
    · subst hde
      exact SMap.find?_insert_self ..
    · refine (SMap.find?_insert_of_ne _ _ hde).trans (ih ?_)
      simpa [hde] using hd
/-- R289: a die in service has the change. -/
theorem State.dieProt_changed (c : ProtChange) {d : Nat} (hd : d ∈ s.diesInService) : (s.changed c).dieProt d = ProtChange.applyTo c (s.dieProt d) := by
  rw [State.dieProt, State.changed, State.host_newRecord, SMap.getD]
  simp only [State.setupAfter]
  rw [SMap.find?_foldl_insert _ hd]
  rfl
/-- R338: a record changes no field of another register. -/
theorem State.rd_newRecord_other {f : Fld} {j : Nat} {w : Win} (hf : f.In j w) (h : f.reg ≠ .JOURNAL_JSN) (slot : Nat) (q : JPay) :
    (s.newRecord slot q).rd f j w = s.rd f j w := by
  have hregs : (s.newRecord slot q).regs = (s.wr F.JOURNAL_JSN_VALUE (s.rd F.JOURNAL_JSN_VALUE + 1)).regs := rfl
  have hj : F.JOURNAL_JSN_VALUE.In 0 .glob := Fld.in_glob (by decide)
  rw [State.rd_congr hregs, State.rd_wr_other hj hf (.inl h)]
theorem State.rd_changed {f : Fld} {j : Nat} {w : Win} (hf : f.In j w) (h : f.reg ≠ .JOURNAL_JSN) (c : ProtChange) :
    (s.changed c).rd f j w = s.rd f j w := by
  rw [State.changed, State.rd_newRecord_other hf h]
  refine State.rd_congr ?_ f j w
  rfl
end

/-! ## The four commands -/

section
variable {s t : State} {i : Nat} {v : Session} {p : Pkt}

/-- R289: with every die between steps, a change acts on the registers and the dies at once, and is answered. -/
theorem completes_changeProt {c : Instr} {op kind index value detail : Nat} {u : State} {P : State → Prop}
    (hexec : exec c s = .next (s.hostCommand op p [])) (h : s.inTurn i v op p) (hop : op ∉ [1, 2, 3])
    (happ : (s.serial i op p).applyOp i op p [] = u.changeProt i p.seq kind index value detail)
    (ht : (if kind = 1 then u else u.protReg kind index value) = t) (hhost : t.host = (s.serial i op p).host)
    (hfuses : t.fuses = s.fuses) (hchanges : s.host.changes = []) (hsteps : ∀ d, t.dieBetweenSteps d = s.dieBetweenSteps d)
    (hfree : ∀ d ∈ s.diesInService, s.dieBetweenSteps d = true)
    (hP : ∀ q : JPay, ((t.changed ⟨kind, index, value, [], i, p.seq, detail⟩).newRecord 0xFFFF q).answered i op p 0 detail [] →
      P ((t.changed ⟨kind, index, value, [], i, p.seq, detail⟩).newRecord 0xFFFF q)) : Completes c s P := by
  have hdies : t.diesInService = s.diesInService := by rw [State.diesInService, hfuses, State.diesInService]
  have hnone : t.host.changes = [] := by
    rw [hhost, State.serial_host_only]
    exact hchanges
  rw [State.changeProt_of_between ht hnone fun d hd => by rw [hsteps]; exact hfree d (hdies ▸ hd)] at happ
  refine completes_answer hexec h hop happ ?_ (hP _ (State.answered_newRecord ..))
  rw [State.changed, State.host_newRecord, ← hhost]
theorem State.changes_changed (c : ProtChange) : (t.changed c).host.changes = [] := by
  rw [State.changed, State.host_newRecord]
theorem State.dieProt_newRecord (slot : Nat) (q : JPay) (d : Nat) : (t.newRecord slot q).dieProt d = t.dieProt d := by
  rw [State.dieProt, State.host_newRecord, State.dieProt]
theorem State.dieBetweenSteps_serial (op d : Nat) : (s.serial i op p).dieBetweenSteps d = s.dieBetweenSteps d := by
  simp only [State.dieBetweenSteps, State.flag, State.rd_serial]
  rw [State.serial_host_only]
theorem State.fuses_serial (op : Nat) : (s.serial i op p).fuses = s.fuses := by
  rw [State.serial_host_only]

section
variable (hchanges : s.host.changes = []) (hfree : ∀ d ∈ s.diesInService, s.dieBetweenSteps d = true)
include hchanges hfree

/-- R293: SET_TENANT_WINDOW. -/
theorem completes_setTenantWindow (h : s.ownerTurn i v 0x20 p) (hlen : p.body.length = 12) (hid : at' p.body 0 2 < 4096)
    (hon : at' p.body 2 1 ≤ 1) (hres : at' p.body 3 1 = 0) :
    Completes (.setTenantWindow p) s (fun t => t.rd F.TENANT_WINDOW_ENABLED (at' p.body 0 2) = at' p.body 2 1 ∧
      t.rd F.TENANT_WINDOW_GROUPS (at' p.body 0 2) = at' p.body 4 8 ∧ t.answered i 0x20 p 0 0 [] ∧ t.host.changes = [] ∧
      ∀ d ∈ s.diesInService, SMap.find? (t.dieProt d).tenants (at' p.body 0 2) = some (decide (at' p.body 2 1 = 1), at' p.body 4 8)) := by
  have hr := State.rights_of_owner h (by decide) (.inl ⟨by decide, fun h => absurd h (by decide)⟩)
  obtain ⟨hturn, -, -⟩ := h
  have hbit : (at' p.body 2 1 + 2 * at' p.body 4 8) % 2 = at' p.body 2 1 := by omega
  have hgroups : (at' p.body 2 1 + 2 * at' p.body 4 8) / 2 = at' p.body 4 8 := by omega
  have hwide : at' p.body 4 8 % 2 ^ 64 = at' p.body 4 8 := Nat.mod_eq_of_lt (at'_lt p.body 4 8)
  have hin : F.TENANT_WINDOW_ENABLED.In (at' p.body 0 2) .glob := Fld.in_glob hid
  have hin' : F.TENANT_WINDOW_GROUPS.In (at' p.body 0 2) .glob := Fld.in_glob hid
  have happ : (s.serial i 0x20 p).applyOp i 0x20 p [] = (s.serial i 0x20 p).changeProt i p.seq 0 (at' p.body 0 2)
      (at' p.body 2 1 + 2 * at' p.body 4 8) 0 := by
    simp [State.applyOp, State.session_of_turn hturn, hr, headerBad_of_turn hturn, knownOp, ownerOp, State.opSetTenantWindow, hlen,
      Nat.not_le.mpr hid, Nat.not_lt.mpr hon, hres]
  have hreg : (if (0 : Nat) = 1 then s.serial i 0x20 p
      else (s.serial i 0x20 p).protReg 0 (at' p.body 0 2) (at' p.body 2 1 + 2 * at' p.body 4 8)) =
      ((s.serial i 0x20 p).wr F.TENANT_WINDOW_ENABLED (at' p.body 2 1) (at' p.body 0 2)).wr F.TENANT_WINDOW_GROUPS (at' p.body 4 8)
        (at' p.body 0 2) := by
    simp only [State.protReg, hbit, hgroups, hwide]
    rfl
  refine completes_changeProt rfl hturn (by decide) happ hreg (by simp) (by simp [State.fuses_serial]) hchanges (fun d => ?_) hfree
    fun q hans => ⟨?_, ?_, hans, ?_, fun d hd => ?_⟩
  · rw [State.dieBetweenSteps_wr hin', State.dieBetweenSteps_wr hin, State.dieBetweenSteps_serial]
  · have hapart : ∀ a < F.TENANT_WINDOW_GROUPS.wordCount, ∀ b < F.TENANT_WINDOW_ENABLED.wordCount,
        F.TENANT_WINDOW_ENABLED.reg.addr (at' p.body 0 2) .glob (F.TENANT_WINDOW_ENABLED.firstWord + b) ≠
          F.TENANT_WINDOW_GROUPS.reg.addr (at' p.body 0 2) .glob (F.TENANT_WINDOW_GROUPS.firstWord + a) := fun a _ b hb he => by
      have hword := Reg.addr_inj .TENANT_WINDOW _ _ he
      simp only [show F.TENANT_WINDOW_ENABLED.firstWord = 0 from rfl, show F.TENANT_WINDOW_GROUPS.firstWord = 1 from rfl,
        show F.TENANT_WINDOW_ENABLED.wordCount = 1 from rfl] at hword hb
      omega
    rw [State.rd_newRecord_other hin nofun, State.rd_changed hin nofun, State.rd_wr_of_apart _ _ _ _ _ _ _ _ hapart,
      State.rd_wr_fits (show _ < 2 ^ 1 by omega)]
  · rw [State.rd_newRecord_other hin' nofun, State.rd_changed hin' nofun, State.rd_wr_fits (at'_lt p.body 4 8)]
  · rw [State.host_newRecord, State.changes_changed]
  · rw [State.dieProt_newRecord, State.dieProt_changed _ (by simpa [State.diesInService, State.fuses_serial] using hd)]
    simp only [ProtChange.applyTo, SMap.find?_insert_self, hgroups]
    simp [bitOf, hbit]
/-- R294: SET_MEM_WINDOW. -/
theorem completes_setMemWindow (h : s.ownerTurn i v 0x21 p) (hlen : p.body.length = 20) (hpos : 0 < at' p.body 0 2) (hid : at' p.body 0 2 < 4096)
    (hrights : at' p.body 2 1 < 8) (hres : at' p.body 3 1 = 0) (htenant : at' p.body 4 2 < 4096) (hres2 : at' p.body 6 2 = 0)
    (halign : at' p.body 8 8 % pageBytes = 0) (hbase : at' p.body 8 8 < 2 ^ 52) :
    Completes (.setMemWindow p) s (fun t => t.fresh = s.fresh + 1 ∧ t.host.changes = [] ∧
      t.answered i 0x21 p 0 (Config.freeNat s.fresh % 2 ^ 20 * 4096 + at' p.body 0 2) [] ∧ s.regsBut t F.JOURNAL_JSN_VALUE.words) := by
  have hr := State.rights_of_owner h (by decide) (.inl ⟨by decide, fun h => absurd h (by decide)⟩)
  obtain ⟨hturn, -, -⟩ := h
  have hfresh : (s.serial i 0x21 p).fresh = s.fresh := by rw [State.serial_host_only]
  have happ : (s.serial i 0x21 p).applyOp i 0x21 p [] = ({ s.serial i 0x21 p with fresh := s.fresh + 1 } : State).changeProt i p.seq 1 (at' p.body 0 2)
      (1 + 2 * at' p.body 2 1 + 16 * at' p.body 4 2 + 2 ^ 32 * (Config.freeNat s.fresh % 2 ^ 20 * 4096 + at' p.body 0 2) +
        2 ^ 64 * at' p.body 8 8 + 2 ^ 128 * at' p.body 16 4) (Config.freeNat s.fresh % 2 ^ 20 * 4096 + at' p.body 0 2) := by
    have hgood : ¬ (p.body.length ≠ 20 ∨ at' p.body 0 2 = 0 ∨ 4096 ≤ at' p.body 0 2 ∨ 8 ≤ at' p.body 2 1 ∨ at' p.body 3 1 ≠ 0 ∨
        4096 ≤ at' p.body 4 2 ∨ at' p.body 6 2 ≠ 0 ∨ at' p.body 8 8 % pageBytes ≠ 0 ∨ 2 ^ 52 ≤ at' p.body 8 8) := by omega
    simp only [State.applyOp, State.session_of_turn hturn, hr, headerBad_of_turn hturn, Bool.false_eq_true, if_false]
    simp only [State.opSetMemWindow, if_neg hgood, State.useFree, hfresh]
    rfl
  refine completes_changeProt (t := { s.serial i 0x21 p with fresh := s.fresh + 1 }) rfl hturn (by decide) happ rfl rfl (State.fuses_serial _)
    hchanges (State.dieBetweenSteps_serial _) hfree fun q hans => ⟨?_, ?_, hans, fun r j w k hk => ?_⟩
  · simp [State.changed, State.newRecord, State.newRecordFor]
  · rw [State.host_newRecord, State.changes_changed]
  · rw [State.regsBut_newRecord _ _ _ r j w k hk, State.changed, State.regsBut_newRecord _ _ _ r j w k hk]
    simp only [State.word, State.regs_serial]
/-- R295: SET_CTX_OWNER. -/
theorem completes_setCtxOwner (h : s.ownerTurn i v 0x22 p) (hlen : p.body.length = 6) (hdie : at' p.body 0 1 < 4) (hctx : at' p.body 1 1 < 4)
    (hon : at' p.body 2 1 ≤ 1) (hres : at' p.body 3 1 = 0) (htenant : at' p.body 4 2 < 4096) :
    Completes (.setCtxOwner p) s (fun t => t.rd F.CTX_OWNER_DEDICATED (4 * at' p.body 0 1 + at' p.body 1 1) = at' p.body 2 1 ∧
      t.rd F.CTX_OWNER_TENANT (4 * at' p.body 0 1 + at' p.body 1 1) = at' p.body 4 2 ∧ t.answered i 0x22 p 0 0 []) := by
  have hr := State.rights_of_owner h (by decide) (.inl ⟨by decide, fun h => absurd h (by decide)⟩)
  obtain ⟨hturn, -, -⟩ := h
  generalize hidx : 4 * at' p.body 0 1 + at' p.body 1 1 = n
  have hn : n < 16 := by omega
  have hbit : (at' p.body 2 1 + 2 * at' p.body 4 2) % 2 = at' p.body 2 1 := by omega
  have htwo : (at' p.body 2 1 + 2 * at' p.body 4 2) / 2 % 4096 = at' p.body 4 2 := by omega
  have hin : F.CTX_OWNER_DEDICATED.In n .glob := Fld.in_glob hn
  have hin' : F.CTX_OWNER_TENANT.In n .glob := Fld.in_glob hn
  have happ : (s.serial i 0x22 p).applyOp i 0x22 p [] =
      (s.serial i 0x22 p).changeProt i p.seq 2 n (at' p.body 2 1 + 2 * at' p.body 4 2) 0 := by
    simp [State.applyOp, State.session_of_turn hturn, hr, headerBad_of_turn hturn, knownOp, ownerOp, State.opSetCtxOwner, hlen,
      Nat.not_le.mpr hdie, Nat.not_le.mpr hctx, Nat.not_lt.mpr hon, hres, Nat.not_le.mpr htenant, hidx]
  have hreg : (if (2 : Nat) = 1 then s.serial i 0x22 p
      else (s.serial i 0x22 p).protReg 2 n (at' p.body 2 1 + 2 * at' p.body 4 2)) =
      ((s.serial i 0x22 p).wr F.CTX_OWNER_DEDICATED (at' p.body 2 1) n).wr F.CTX_OWNER_TENANT (at' p.body 4 2) n := by
    simp only [State.protReg, hbit, htwo]
    rfl
  refine completes_changeProt rfl hturn (by decide) happ hreg (by simp) (by simp [State.fuses_serial]) hchanges (fun d => ?_) hfree
    fun q hans => ⟨?_, ?_, hans⟩
  · rw [State.dieBetweenSteps_wr hin', State.dieBetweenSteps_wr hin, State.dieBetweenSteps_serial]
  · rw [State.rd_newRecord_other hin nofun, State.rd_changed hin nofun, State.rd_wr_beside, State.rd_wr_fits (show _ < 2 ^ 1 by omega)]
  · rw [State.rd_newRecord_other hin' nofun, State.rd_changed hin' nofun, State.rd_wr_fits (show _ < 2 ^ 12 by omega)]
/-- R295: SET_PKG_GROUP. -/
theorem completes_setPkgGroup (h : s.ownerTurn i v 0x23 p) (hlen : p.body.length = 3) (hgroup : at' p.body 2 1 < 64) :
    Completes (.setPkgGroup p) s (fun t => t.rd ⟨.PKG_GROUP, 8 * (at' p.body 0 2 % 4), 6⟩ (at' p.body 0 2 / 4) = at' p.body 2 1 ∧
      t.answered i 0x23 p 0 0 []) := by
  have hr := State.rights_of_owner h (by decide) (.inl ⟨by decide, fun h => absurd h (by decide)⟩)
  obtain ⟨hturn, -, -⟩ := h
  have hn : at' p.body 0 2 / 4 < 16384 := by have := at'_lt p.body 0 2; omega
  have hk : at' p.body 0 2 % 4 < 4 := Nat.mod_lt _ (by decide)
  have hfirst : (⟨.PKG_GROUP, 8 * (at' p.body 0 2 % 4), 6⟩ : Fld).firstWord = 0 := by unfold Fld.firstWord; simp only; omega
  have hcount : (⟨.PKG_GROUP, 8 * (at' p.body 0 2 % 4), 6⟩ : Fld).wordCount = 1 := by unfold Fld.wordCount; simp only; omega
  have hlo : 8 * (at' p.body 0 2 % 4) % 32 = 8 * (at' p.body 0 2 % 4) := by omega
  have hin : (⟨.PKG_GROUP, 8 * (at' p.body 0 2 % 4), 6⟩ : Fld).In (at' p.body 0 2 / 4) .glob := 
    Fld.in_glob hn rfl (by rw [hfirst, hcount]; exact Nat.le_refl 1)
  have happ : (s.serial i 0x23 p).applyOp i 0x23 p [] = (s.serial i 0x23 p).changeProt i p.seq 3 (at' p.body 0 2) (at' p.body 2 1) 0 := by
    simp [State.applyOp, State.session_of_turn hturn, hr, headerBad_of_turn hturn, knownOp, ownerOp, State.opSetPkgGroup, hlen,
      Nat.not_le.mpr hgroup]
  have hreg : (if (3 : Nat) = 1 then s.serial i 0x23 p else (s.serial i 0x23 p).protReg 3 (at' p.body 0 2) (at' p.body 2 1)) =
      (s.serial i 0x23 p).wr ⟨.PKG_GROUP, 8 * (at' p.body 0 2 % 4), 6⟩ (at' p.body 2 1) (at' p.body 0 2 / 4) := by
    simp only [State.protReg, State.wr, hfirst, hcount, hlo, State.setSpan, State.span]
    rfl
  refine completes_changeProt rfl hturn (by decide) happ hreg (by simp) (by simp [State.fuses_serial]) hchanges (fun d => ?_) hfree
    fun q hans => ⟨?_, hans⟩
  · rw [State.dieBetweenSteps_wr hin, State.dieBetweenSteps_serial]
  · rw [State.rd_newRecord_other hin nofun, State.rd_changed hin nofun, State.rd_wr_fits (show _ < 2 ^ 6 by omega)]
end
end

/-- Settles O22: no die waits, so the change acts at once and is answered. -/
theorem protectionChangesApply : Obligations.ProtectionChangesApply := fun _ _ _ _ hchanges hfree =>
  ⟨completes_setTenantWindow hchanges hfree, completes_setMemWindow hchanges hfree, completes_setCtxOwner hchanges hfree,
    completes_setPkgGroup hchanges hfree⟩
end Sys2Proof.Machine
end

section
/-!
PROOF. Sessions are opened, confirmed, attached, closed and end by time (R279, R280).
-/
namespace Sys2Proof.Machine

set_option Elab.async false

section
variable {s t : State} {i : Nat} {v : Session} {p : Pkt}

/-! ## A packet on an unbound queue pair (R277) -/

theorem State.boundTo_none (h : s.arrives p none) : (s.occupy p.qp).boundTo p.qp = none := by
  obtain ⟨-, -, -, -, hq, ⟨k, hk, -, -, hbound⟩, -⟩ := h
  rw [State.boundTo_occupy hq hk, hbound]
theorem State.qp_occupy {q : Nat} {k : Qp} (hk : s.qp q = some k) : (s.occupy q).qp q = some { k with used := k.used + 1 } := by
  simp only [State.occupy, hk]
  exact SMap.find?_insert_self ..
theorem State.bulky_occupy (q : Nat) : (s.occupy q).bulky i = s.bulky i := by
  rw [State.occupy_qps_only]
  rfl
theorem SMap.countIf_insert_le {α : Type} {q : Nat} {b : α} {f : Nat → α → Bool} (hf : f q b = false) (m : SMap α) :
    SMap.countIf (SMap.insert m q b) f ≤ SMap.countIf m f := by
  induction m with
  | nil => simp [SMap.insert, SMap.countIf, hf]
  | cons e m ih =>
    obtain ⟨k, a⟩ := e
    simp only [SMap.countIf] at ih ⊢
    rw [SMap.insert]
    split
    · simp only [List.filter_cons, hf, Bool.false_eq_true, if_false]
      split <;> simp
    · split
      · simp [List.filter_cons, hf]
      · simp only [List.filter_cons]
        split
        · exact Nat.succ_le_succ ih
        · exact ih
/-- R275: a packet on an unbound queue pair leaves the number of bound ones. -/
theorem State.boundAll_occupy (h : s.arrives p none) : (s.occupy p.qp).boundAll ≤ s.boundAll := by
  obtain ⟨-, -, -, -, -, ⟨k, hk, -, -, hbound⟩, -⟩ := h
  simp only [State.boundAll, State.occupy, hk]
  exact SMap.countIf_insert_le (by simp [hbound]) _
/-- A record changes no session and no queue pair. -/
theorem State.session_newRecord (slot : Nat) (q : JPay) (j : Nat) : (s.newRecord slot q).session j = s.session j := by
  rw [State.session, State.host_newRecord, State.session]
theorem State.qp_newRecord (slot : Nat) (q : JPay) (j : Nat) : (s.newRecord slot q).qp j = s.qp j := by
  rw [State.qp, State.host_newRecord, State.qp]
theorem State.answer_host {q key session seq : Nat} {tag : BitVec 128} {op status detail : Nat} {body : List Byte} (hq : q ≠ mgmtQp) :
    (s.answer q key session seq tag op status detail body).host = s.host := by
  rw [State.answer, if_neg hq, State.host_newRecord]

/-! ## OPEN -/

/-- R279: an opened session stands as it was made, once the answer is given. -/
theorem State.session_opened {q : Nat} (hq : q ≠ mgmtQp) (u : Session) (gens : SMap Nat) (key field seq : Nat) (tag : BitVec 128) (op st d : Nat)
    (b : List Byte) : (({ s.setSession i u with host := { (s.setSession i u).host with gens := gens } } : State).answer q key field seq tag op st d
      b).session i = some u := by
  rw [State.session, State.answer_host hq]
  exact SMap.find?_insert_self ..
theorem State.fresh_opened {q : Nat} (hq : q ≠ mgmtQp) (u : Session) (gens : SMap Nat) (key field seq : Nat) (tag : BitVec 128) (op st d : Nat)
    (b : List Byte) : (({ s.setSession i u with host := { (s.setSession i u).host with gens := gens } } : State).answer q key field seq tag op st d
      b).fresh = s.fresh := by
  rw [State.answer, if_neg hq]
  simp [State.newRecord, State.newRecordFor, State.setSession]
/-- R279: OPEN of a good credential makes a session OPENING. -/
theorem completes_openSession (h : s.arrives p none) (hsess : p.session = 0) (htag : p.tag = 0#128) (hhead : headerBad p = false)
    (hlen : p.body.length = 800) (hmay : s.mayOpen p.qp = true) (hcred : s.credGood (p.body.take 704) = true)
    (hcurve : Sm2.onCurve (Sm2.pointOf ((p.body.drop 704).take 64)) = true)
    (hroles : bitOf (at' p.body 5 1) 0 = true ∨ bitOf (at' p.body 5 1) 1 = true) (hfree : s.freeIndex p.qp = some i) :
    Completes (.openSession p) s (fun t => ∃ u, t.session i = some u ∧ u.st = .opening ∧ u.roles = at' p.body 5 1 ∧
      u.gen = SMap.getD s.host.gens i 0 % 255 + 1 ∧ u.since = s.now ∧ t.fresh = s.fresh + 2) := by
  refine ⟨_, rfl, ?_⟩
  have hbound := State.boundTo_none h
  have hq : p.qp ≠ mgmtQp := h.2.2.2.2.1
  have hbyte : at' (p.body.take 704) 5 1 = at' p.body 5 1 := by
    simp only [at', List.drop_take, List.take_take]
    rfl
  have hmay' : (s.occupy p.qp).mayOpen p.qp = true := by rw [← hmay, State.occupy_qps_only]; rfl
  have hcred' : (s.occupy p.qp).credGood (p.body.take 704) = true := by rw [← hcred, State.occupy_qps_only]; rfl
  have hfree' : (s.occupy p.qp).freeIndex p.qp = some i := by rw [← hfree, State.occupy_qps_only]; rfl
  have hgens : (s.occupy p.qp).host.gens = s.host.gens := by rw [State.occupy_qps_only]
  have hfresh : (s.occupy p.qp).fresh = s.fresh := by rw [State.occupy_qps_only]
  have hnow : (s.occupy p.qp).now = s.now := by rw [State.occupy_qps_only]
  rw [State.hostCommand_of_arrives h]
  simp only [State.checked, hbound, hsess, htag, hhead, decide_true, and_self, if_true, if_false, ne_eq, not_true_eq_false, Bool.false_eq_true]
  have hrefused : ¬ (p.body.length ≠ 800 ∨ ¬ (s.occupy p.qp).mayOpen p.qp = true) := by simp [hlen, hmay']
  have hauth : ¬ (¬ (s.occupy p.qp).credGood (p.body.take 704) = true ∨ ¬ Sm2.onCurve (Sm2.pointOf ((p.body.drop 704).take 64)) = true) := by
    simp [hcred', hcurve]
  have hrole : (!bitOf (at' p.body 5 1) 0 && !bitOf (at' p.body 5 1) 1) = false := by
    rcases hroles with h | h <;> simp [h]
  simp only [State.opOpen, if_neg hrefused, if_neg hauth, if_neg hq, hbyte, hrole, hfree', hgens, Bool.false_eq_true, if_false]
  exact ⟨_, State.session_opened hq .., rfl, rfl, rfl, hnow, (State.fresh_opened hq ..).trans (by rw [← hfresh]; rfl)⟩

/-! ## OPEN_CONFIRM and ATTACH -/

/-- R279: an unbound packet that names a session which may be bound is handled for it. -/
theorem State.checked_of_named {op : Nat} (h : s.arrives p none) (hi : i < 256) (hv : s.session i = some v) (hclosing : v.closing = 0)
    (hsess : p.session = sessionField i v.gen) (htag : goodTag v.keyHm op p = true) (hseq : p.seq = 0)
    (hop : op = 2 ∧ v.st = .opening ∨ op = 3 ∧ v.st = .detached) :
    s.hostCommand op p [] = if op = 2 then (s.occupy p.qp).opOpenConfirm i v p else (s.occupy p.qp).opAttach i v p := by
  have hbound := State.boundTo_none h
  have hq : p.qp ≠ mgmtQp := h.2.2.2.2.1
  have hindex : sessionField i v.gen % 256 = i := by simp only [sessionField]; omega
  have hv' : (s.occupy p.qp).session i = some v := by rw [State.session_occupy]; exact hv
  have hnamed : (s.occupy p.qp).named p.qp op p.session = some i := by
    rcases hop with ⟨rfl, hst⟩ | ⟨rfl, hst⟩ <;> simp [State.named, hq, hsess, hindex, hv, hclosing, hst]
  have hopening : decide (op = 1 ∧ p.session = 0) = false := by
    rcases hop with ⟨rfl, -⟩ | ⟨rfl, -⟩ <;> rfl
  have hnames : (if op = 2 ∨ op = 3 then (s.occupy p.qp).named p.qp op p.session else none) = some i := by
    rw [if_pos (by rcases hop with h | h <;> simp [h.1]), hnamed]
  rw [State.hostCommand_of_arrives h]
  simp only [State.checked, hbound, hopening, hnames, hv', htag, hseq, hq, Bool.not_true, Bool.false_eq_true, if_false, ne_eq,
    not_true_eq_false]
/-- R280: what a session holds once it is bound to a queue pair. -/
def boundSession (v : Session) (q now : Nat) : Session := { v with st := .active, qps := v.qps ++ [q], since := now }
theorem State.session_bindQp (i : Nat) (v : Session) (q : Nat) : (s.bindQp i v q).session i = some (boundSession v q s.now) := by
  rw [State.bindQp]
  split
  · exact SMap.find?_insert_self ..
  · exact SMap.find?_insert_self ..
theorem State.qp_bindQp {q : Nat} {k : Qp} (hk : s.qp q = some k) (i : Nat) (v : Session) : (s.bindQp i v q).qp q = some { k with bound := some i } := by
  have hk' : (s.setSession i (boundSession v q s.now)).qp q = some k := hk
  simp only [State.bindQp]
  rw [show (s.setSession i { v with st := .active, qps := v.qps ++ [q], since := s.now }).qp q = some k from hk]
  exact SMap.find?_insert_self ..
/-- What only sends leaves everything but what it has sent. -/
theorem foldl_emits {α β : Type} {l : List α} {step : State × β → α → State × β} (h : ∀ g e, ∃ o, (step g e).1 = g.1.emit o) (g : State × β) :
    ∃ out, (l.foldl step g).1 = { g.1 with out := out } := by
  induction l generalizing g with
  | nil => exact ⟨_, rfl⟩
  | cons e l ih =>
    obtain ⟨o, ho⟩ := h g e
    obtain ⟨out, hout⟩ := ih (step g e)
    exact ⟨out, by rw [List.foldl_cons, hout, ho]; rfl⟩
/-- R299: events that waited are sent; a session stays what it is and queue pairs keep their entries. -/
theorem State.flushEvents_keeps {w : Session} (hw : s.session i = some w) :
    (∃ u, (s.flushEvents i).session i = some u ∧ u.st = w.st ∧ u.attach = w.attach) ∧ (s.flushEvents i).host.qps = s.host.qps ∧
    (s.flushEvents i).jr = s.jr := by
  simp only [State.flushEvents, hw]
  split
  · generalize hr : w.events.foldl _ (s, w.evSeq, w.evLost) = r
    obtain ⟨out, hout⟩ : ∃ out, r.1 = { s with out := out } := by
      rw [← hr]
      exact foldl_emits (fun _ _ => ⟨_, rfl⟩) _
    simp only [hout]
    exact ⟨⟨_, SMap.find?_insert_self .., rfl, rfl⟩, rfl, rfl⟩
  · exact ⟨⟨w, hw, rfl, rfl⟩, rfl, rfl⟩
theorem State.jr_bindQp (s : State) (i : Nat) (v : Session) (q : Nat) : (s.bindQp i v q).jr = s.jr := by
  rw [State.bindQp]
  split <;> rfl
theorem State.table_newRecord (s : State) (slot : Nat) (q : JPay) : (s.newRecord slot q).jr.table = s.jr.table := by
  rw [State.jr_newRecord]
theorem State.jr_occupy (s : State) (q : Nat) : (s.occupy q).jr = s.jr := by rw [State.occupy_qps_only]
theorem State.table_bound (htable : s.jr.table = []) (q : Nat) (w : Session) (a b : Nat) (x y : JPay) :
    (((((s.occupy q).bindQp i w q).newRecord a x).newRecord b y)).jr.table = [] := by
  rw [State.table_newRecord, State.table_newRecord, State.jr_bindQp, State.jr_occupy, htable]
/-- R280: what a packet that was bound leaves: the session ACTIVE on its queue pair. -/
theorem State.settled (htable : t.jr.table = []) {w : Session} (hw : t.session i = some w) {k : Qp} {q : Nat} (hk : t.qp q = some k) :
    ∃ u, ((t.flushEvents i).tkPlaceAll).session i = some u ∧ u.st = w.st ∧ u.attach = w.attach ∧ ((t.flushEvents i).tkPlaceAll).qp q = some k := by
  obtain ⟨⟨u, hu, hst, hattach⟩, hqps, hjr⟩ := State.flushEvents_keeps hw
  have hplace : (t.flushEvents i).tkPlaceAll = t.flushEvents i := by rw [State.tkPlaceAll, hjr, htable]; rfl
  rw [hplace]
  exact ⟨u, hu, hst, hattach, by rw [State.qp, hqps, ← State.qp, hk]⟩
/-- R279: OPEN_CONFIRM with the right confirmation binds the queue pair and makes the session ACTIVE. -/
theorem completes_openConfirm (h : s.arrives p none) (hi : i < 256) (hv : s.session i = some v) (hst : v.st = .opening) (hclosing : v.closing = 0)
    (hsess : p.session = sessionField i v.gen) (htag : goodTag v.keyHm 2 p = true) (hseq : p.seq = 0) (hhead : headerBad p = false)
    (hconfirm : p.body = v.confirm) (hlen : p.body.length = 32) (hall : s.boundAll < 1024) (hbulky : s.bulky i = false)
    (htable : s.jr.table = []) :
    Completes (.openConfirm p) s (fun t => (t.session i).map (·.st) = some .active ∧ (t.qp p.qp).bind (·.bound) = some i) := by
  have hq : p.qp ≠ mgmtQp := h.2.2.2.2.1
  obtain ⟨k, hk, -⟩ := h.2.2.2.2.2.1
  have hbound := Nat.not_le.mpr ((State.boundAll_occupy h).trans_lt hall)
  have hmgmt : i ≠ mgmtIndex := ne_mgmtIndex hi
  refine ⟨_, rfl, ?_⟩
  rw [State.checked_of_named h hi hv hclosing hsess htag hseq (.inl ⟨rfl, hst⟩), if_pos rfl]
  have hlay : ¬ (headerBad p = true ∨ p.body.length ≠ 32) := by simp [hhead, hlen]
  have hbusy : ¬ (p.qp ≠ mgmtQp ∧ (1024 ≤ (s.occupy p.qp).boundAll ∨ (s.occupy p.qp).bulky i = true)) := by simp [hbound, State.bulky_occupy, hbulky]
  simp only [State.opOpenConfirm, if_neg hlay, if_neg (not_not.mpr hconfirm), if_neg hbusy]
  rw [State.answer, if_neg hq, State.journalSession, if_neg hmgmt]
  obtain ⟨u, hu, hust, -, hqp⟩ := State.settled (i := i) (State.table_bound htable _ _ _ _ _ _)
    ((State.session_newRecord ..).trans ((State.session_newRecord ..).trans (State.session_bindQp ..)))
    ((State.qp_newRecord ..).trans ((State.qp_newRecord ..).trans (State.qp_bindQp (State.qp_occupy hk) i { v with next := 1 })))
  rw [hu, hqp]
  exact ⟨congrArg some hust, rfl⟩
theorem foldl_outs {α : Type} {l : List α} {step : State → α → State} (h : ∀ g e, ∃ out, step g e = { g with out := out }) (s : State) :
    ∃ out, l.foldl step s = { s with out := out } := by
  induction l generalizing s with
  | nil => exact ⟨_, rfl⟩
  | cons e l ih =>
    obtain ⟨o, ho⟩ := h s e
    obtain ⟨out, hout⟩ := ih (step s e)
    exact ⟨out, by rw [List.foldl_cons, hout, ho]⟩
/-- R280: writing the rings again only sends. -/
theorem State.rewriteRings_out (s : State) (i : Nat) : ∃ out, s.rewriteRings i = { s with out := out } := by
  rw [State.rewriteRings]
  split
  · exact ⟨_, rfl⟩
  · exact foldl_outs (fun g e => foldl_outs (fun g e => ⟨_, rfl⟩) g) s
theorem State.settled_rings (htable : t.jr.table = []) {w : Session} (hw : t.session i = some w) {k : Qp} {q : Nat} (hk : t.qp q = some k) :
    ∃ u, (((t.rewriteRings i).flushEvents i).tkPlaceAll).session i = some u ∧ u.st = w.st ∧ u.attach = w.attach ∧
      (((t.rewriteRings i).flushEvents i).tkPlaceAll).qp q = some k := by
  obtain ⟨out, hout⟩ := t.rewriteRings_out i
  rw [hout]
  exact State.settled (t := { t with out := out }) htable hw hk
/-- R280: ATTACH with a counter that has risen binds the queue pair and makes the session ACTIVE again. -/
theorem completes_attach (h : s.arrives p none) (hi : i < 256) (hv : s.session i = some v) (hst : v.st = .detached) (hqps : v.qps = [])
    (hclosing : v.closing = 0) (hsess : p.session = sessionField i v.gen) (htag : goodTag v.keyHm 3 p = true) (hseq : p.seq = 0)
    (hhead : headerBad p = false) (hlen : p.body.length = 8) (hrise : v.attach < at' p.body 0 8) (hall : s.boundAll < 1024)
    (hbulky : s.bulky i = false) (htable : s.jr.table = []) :
    Completes (.attach p) s (fun t => (t.session i).map (·.st) = some .active ∧ (t.session i).map (·.attach) = some (at' p.body 0 8) ∧
      (t.qp p.qp).bind (·.bound) = some i) := by
  have hq : p.qp ≠ mgmtQp := h.2.2.2.2.1
  obtain ⟨k, hk, -⟩ := h.2.2.2.2.2.1
  have hbound := Nat.not_le.mpr ((State.boundAll_occupy h).trans_lt hall)
  have hmgmt : i ≠ mgmtIndex := ne_mgmtIndex hi
  refine ⟨_, rfl, ?_⟩
  rw [State.checked_of_named h hi hv hclosing hsess htag hseq (.inr ⟨rfl, hst⟩), if_neg (by decide)]
  have hlay : ¬ (headerBad p = true ∨ p.body.length ≠ 8) := by simp [hhead, hlen]
  have hbusy : ¬ (True ∧ 1024 ≤ (s.occupy p.qp).boundAll ∨ (s.occupy p.qp).bulky i = true) := by simp [hbound, State.bulky_occupy, hbulky]
  simp only [State.opAttach, if_neg hlay, if_neg (Nat.not_le.mpr hrise), hqps, List.find?_nil, if_neg hbusy, hst, true_or, if_true,
    List.filter_nil]
  rw [State.answer, if_neg hq, State.journalSession, if_neg hmgmt]
  have hw := State.session_bindQp (s := s.occupy p.qp) i { v with attach := at' p.body 0 8, qps := [], st := .detached } p.qp
  have hk' := State.qp_bindQp (State.qp_occupy hk) i { v with attach := at' p.body 0 8, qps := [], st := .detached }
  generalize hb : (s.occupy p.qp).bindQp i _ p.qp = b at hw hk' ⊢
  have htab : b.jr.table = [] := by rw [← hb, State.jr_bindQp, State.jr_occupy, htable]
  rw [← State.session_newRecord 0xFFFF (.session i (b.session i) (b.host.rings.filter (fun e => decide (e.1 / 64 = i))))] at hw
  rw [← State.qp_newRecord 0xFFFF (.session i (b.session i) (b.host.rings.filter (fun e => decide (e.1 / 64 = i))))] at hk'
  rw [← State.table_newRecord b 0xFFFF (.session i (b.session i) (b.host.rings.filter (fun e => decide (e.1 / 64 = i))))] at htab
  generalize b.newRecord 0xFFFF _ = c at hw hk' htab ⊢
  rw [← State.session_newRecord 0xFFFF (.reply p.qp (i + 1) p.session 0 p.tag 3 stOk 0 [])] at hw
  rw [← State.qp_newRecord 0xFFFF (.reply p.qp (i + 1) p.session 0 p.tag 3 stOk 0 [])] at hk'
  rw [← State.table_newRecord c 0xFFFF (.reply p.qp (i + 1) p.session 0 p.tag 3 stOk 0 [])] at htab
  generalize c.newRecord 0xFFFF _ = d at hw hk' htab ⊢
  obtain ⟨u, hu, hust, hattach, hqp⟩ := State.settled_rings htab hw hk'
  rw [hu, hqp]
  exact ⟨congrArg some hust, congrArg some hattach, rfl⟩

/-! ## CLOSE: what the end of another session leaves alone -/

/-- What the end of other sessions leaves of session `i`: the session, its requests or fewer, the records that wait, with no further reply
to it, and the state of the journal. -/
structure Aside (i : Nat) (s t : State) : Prop where
  session : t.session i = s.session i
  queue : ∀ q ∈ s.jr.queue, q ∈ t.jr.queue
  fresh : ∀ q ∈ t.jr.queue, q ∈ s.jr.queue ∨ ∀ a f n g o x y b, q.pay ≠ .reply a (i + 1) f n g o x y b
  reqs : ∀ e ∈ t.stew.reqs, e ∈ s.stew.reqs
  active : t.jActive = s.jActive
theorem Aside.refl : Aside i s s := ⟨rfl, fun _ h => h, fun _ h => .inl h, fun _ h => h, rfl⟩
theorem Aside.trans {u : State} (h : Aside i s t) (k : Aside i t u) : Aside i s u where
  session := k.session.trans h.session
  queue q hq := k.queue q (h.queue q hq)
  fresh q hq := (k.fresh q hq).elim (h.fresh q) .inr
  reqs e he := h.reqs e (k.reqs e he)
  active := k.active.trans h.active
theorem Aside.foldl {α : Type} {l : List α} {g : State → α → State} (h : ∀ s, ∀ e ∈ l, Aside i s (g s e)) (s : State) : Aside i s (l.foldl g s) :=
  List.foldlRecOn l g .refl fun _ ht e he => ht.trans (h _ e he)
theorem Aside.of_eq (hs : t.session i = s.session i) (hj : t.jr.queue = s.jr.queue) (hr : t.stew.reqs = s.stew.reqs) (hg : t.regs = s.regs) : Aside i s t :=
  ⟨hs, fun _ h => hj ▸ h, fun _ h => .inl (hj ▸ h), fun _ h => hr ▸ h, by rw [State.jActive, State.jState, State.rd_congr hg]; rfl⟩
theorem Aside.newRecord (s : State) (slot : Nat) {pay : JPay} (h : ∀ a f n g o x y b, pay ≠ .reply a (i + 1) f n g o x y b) :
    Aside i s (s.newRecord slot pay) where
  session := State.session_newRecord ..
  queue q hq := State.mem_queue_newRecord hq ..
  fresh q hq := by
    rw [State.jr_newRecord] at hq
    rcases List.mem_append.mp hq with hq | hq
    · exact .inl hq
    · rw [List.mem_singleton] at hq
      exact .inr (by rw [hq]; exact h)
  reqs e he := by rwa [State.newRecord, State.onlyJournal_newRecordFor] at he
  active := by
    have hin : F.JOURNAL_STATUS_STATE.In 0 .glob := Fld.in_glob (by decide)
    rw [State.jActive, State.jState, State.rd_newRecord_other hin nofun]
    rfl
theorem Aside.setSession {j : Nat} (h : j ≠ i) (s : State) (u : Session) : Aside i s (s.setSession j u) :=
  .of_eq (SMap.find?_insert_of_ne _ _ (Ne.symm h)) rfl rfl rfl
theorem Aside.freeSlot (s : State) (slot : Nat) : Aside i s (s.freeSlot slot) :=
  ⟨rfl, fun _ h => h, fun _ h => .inl h, fun e he => by
    have he : e ∈ SMap.erase s.stew.reqs slot := he
    rw [SMap.erase_eq_filter] at he
    exact (List.mem_filter.mp he).1, rfl⟩
theorem Aside.setOwner_none (s : State) : Aside i s (s.setOwner none) := by
  refine Aside.trans ?_ (Aside.newRecord _ _ nofun)
  refine ⟨rfl, fun _ h => h, fun _ h => .inl h, fun _ h => h, ?_⟩
  have h1 : F.OWNER_STATUS_OWNED.apart 0 .glob F.JOURNAL_STATUS_STATE 0 .glob = true := by decide
  have h2 : F.OWNER_STATUS_SESSION.apart 0 .glob F.JOURNAL_STATUS_STATE 0 .glob = true := by decide
  have hrd : ((s.wrFlag F.OWNER_STATUS_OWNED false).wr F.OWNER_STATUS_SESSION 0).rd F.JOURNAL_STATUS_STATE = s.rd F.JOURNAL_STATUS_STATE := by
    rw [State.rd_wr_apart _ _ h2, State.wrFlag, State.rd_wr_apart _ _ h1]
  exact congrArg (fun n => decide (n = 3)) hrd
theorem Aside.sendReply {s : State} {q key session op seq status detail : Nat} {dup : Bool} {body : List Byte} :
    Aside i s (s.sendReply q key session op seq status detail dup body) := by
  unfold State.sendReply
  split <;> exact .of_eq rfl rfl rfl rfl
theorem Aside.endSession {j : Nat} (h : j ≠ i) (s : State) : Aside i s (s.endSession j) := by
  rw [State.endSession]
  split
  · exact .refl
  · refine Aside.trans (Aside.trans ?_ (Aside.foldl (fun u e _ => Aside.freeSlot u e.1) _)) (Aside.setSession h _ _)
    split
    · exact (Aside.setOwner_none s).trans (.of_eq rfl rfl rfl rfl)
    · exact .of_eq rfl rfl rfl rfl
theorem Aside.releaseReply {j : Nat} (h : j ≠ i) {s : State} {q session seq op status detail : Nat} {body : List Byte} :
    Aside i s (s.releaseReply q (j + 1) session seq op status detail body) := by
  rw [State.releaseReply]
  split
  · exact .sendReply
  · split
    · exact .sendReply
    · exact ((Aside.setSession (by simpa using h) _ _).trans .sendReply).trans (Aside.foldl (fun _ _ _ => .sendReply) _)
theorem Aside.answerSeq {j : Nat} (h : j ≠ i) {s : State} {seq status detail : Nat} {body : List Byte} :
    Aside i s (s.answerSeq j seq status detail body) := by
  rw [State.answerSeq]
  split
  · exact .refl
  · split
    · exact .refl
    · rw [State.answer]
      split
      · exact .releaseReply h
      · refine .newRecord _ _ fun a f n g o x y b heq => h ?_
        injection heq with _ hkey
        omega
theorem Aside.forgetSession {j : Nat} (h : j ≠ i) (s : State) : Aside i s (s.forgetSession j) := by
  have hdrop : Aside i s (s.dropSession j) := .of_eq (SMap.find?_erase_of_ne _ (Ne.symm h)) rfl rfl rfl
  rw [State.forgetSession, State.journalSession]
  split
  · exact hdrop.trans (.of_eq rfl rfl rfl rfl)
  · refine Aside.trans ?_ (Aside.newRecord _ _ nofun)
    exact hdrop.trans (.of_eq rfl rfl rfl rfl)

/-- R280: the CLOSE commands of a session that no answer is under way for. -/
def State.closings (s : State) (e : Nat × Session) : List JRep :=
  e.2.journal.filter (fun r => decide (r.op = 4) && r.reply.isNone && !(s.jr.queue.any (fun q => match q.pay with
    | .reply _ key _ seq _ _ _ _ _ => decide (key = e.1 + 1) && decide (seq = r.seq)
    | _ => false)))
/-- R280: what the end of a session whose requests are over does. -/
def State.closeOne (s : State) (e : Nat × Session) : State :=
  if e.2.closing = 1 ∧ (s.openRequests e.1 e.2.gen).isEmpty ∧ s.mayFree e.1 e.2.gen then
    let s1 := s.endSession e.1
    if (s.closings e).isEmpty then s1.forgetSession e.1
    else
      let s2 := (s.closings e).foldl (fun (s : State) r => s.answerSeq e.1 r.seq 0 0 []) s1
      if e.1 = mgmtIndex then s2.forgetSession e.1 else s2
  else s
theorem State.closeReady_eq (s : State) : s.closeReady = s.host.sessions.foldl State.closeOne s := rfl
theorem Aside.closeOne {e : Nat × Session} (h : e.1 ≠ i) (s : State) : Aside i s (s.closeOne e) := by
  rw [State.closeOne]
  split
  · dsimp only
    split
    · exact (Aside.endSession h s).trans (.forgetSession h _)
    · have hall := (Aside.endSession h s).trans (Aside.foldl (l := s.closings e)
        (fun _ r _ => .answerSeq (seq := r.seq) (status := 0) (detail := 0) (body := []) h) _)
      split
      · exact hall.trans (.forgetSession h _)
      · exact hall
  · exact .refl
/-! ## CLOSE: the answer of the session that closes -/

/-- What every further end of a session keeps of session `i`: the records that wait, and that it holds no command back. -/
structure Kept (i : Nat) (s t : State) : Prop where
  queue : ∀ q ∈ s.jr.queue, q ∈ t.jr.queue
  held : (∀ w, s.session i = some w → w.held = []) → ∀ w, t.session i = some w → w.held = []
theorem Kept.refl : Kept i s s := ⟨fun _ h => h, fun h => h⟩
theorem Kept.trans {u : State} (h : Kept i s t) (k : Kept i t u) : Kept i s u := ⟨fun q hq => k.queue q (h.queue q hq), fun hs => k.held (h.held hs)⟩
theorem Kept.foldl {α : Type} {l : List α} {g : State → α → State} (h : ∀ s, ∀ e ∈ l, Kept i s (g s e)) (s : State) : Kept i s (l.foldl g s) :=
  List.foldlRecOn l g .refl fun _ ht e he => ht.trans (h _ e he)
theorem Aside.kept (h : Aside i s t) : Kept i s t := ⟨h.queue, fun hs w hw => hs w (h.session ▸ hw)⟩
theorem Kept.setSession {w : Session} (hw : w.held = []) : Kept i s (s.setSession i w) :=
  ⟨fun _ h => h, fun _ u hu => by
    rw [State.session, State.setSession, SMap.find?_insert_self, Option.some.injEq] at hu
    rw [← hu, hw]⟩
theorem Kept.sendReply {q key session op seq status detail : Nat} {dup : Bool} {body : List Byte} :
    Kept i s (s.sendReply q key session op seq status detail dup body) := Aside.sendReply.kept
theorem Kept.releaseReply {q session seq op status detail : Nat} {body : List Byte} :
    Kept i s (s.releaseReply q (i + 1) session seq op status detail body) := by
  rw [State.releaseReply]
  split
  · exact .sendReply
  next v hv =>
    split
    · exact .sendReply
    next r hr =>
      have hsame : s.session i = some v := by
        split at hv
        · exact absurd hv nofun
        · exact hv
      have hset : Kept i s (s.setSession i (putRep v { r with reply := some (status, detail, body), waiters := [] })) :=
        ⟨fun _ h => h, fun h w hw => by
          rw [State.session, State.setSession, SMap.find?_insert_self, Option.some.injEq] at hw
          rw [← hw]
          exact h v hsame⟩
      exact (hset.trans .sendReply).trans (Kept.foldl (fun _ _ _ => .sendReply) _)
theorem Kept.answerSeq {seq status detail : Nat} {body : List Byte} : Kept i s (s.answerSeq i seq status detail body) := by
  rw [State.answerSeq]
  split
  · exact .refl
  · split
    · exact .refl
    · rw [State.answer]
      split
      · exact .releaseReply
      · exact ⟨fun q hq => State.mem_queue_newRecord hq .., fun h w hw => h w (State.session_newRecord .. ▸ hw)⟩
theorem Kept.endSession (s : State) : Kept i s (s.endSession i) := by
  rw [State.endSession]
  split
  · exact .refl
  · refine Kept.trans (Aside.kept (Aside.trans ?_ (Aside.foldl (fun u e _ => Aside.freeSlot u e.1) _))) (.setSession rfl)
    split
    · exact (Aside.setOwner_none s).trans (.of_eq rfl rfl rfl rfl)
    · exact .of_eq rfl rfl rfl rfl
theorem Kept.forgetSession (s : State) : Kept i s (s.forgetSession i) := by
  have hdrop : (s.forgetSession i).host.sessions = SMap.erase s.host.sessions i := by
    rw [State.forgetSession, State.journalSession]
    split
    · rfl
    · rw [State.host_newRecord]; rfl
  refine ⟨fun q hq => ?_, fun _ w hw => ?_⟩
  · rw [State.forgetSession, State.journalSession]
    split
    · exact hq
    · exact State.mem_queue_newRecord hq ..
  · rw [State.session, hdrop, SMap.find?_erase_self] at hw
    exact absurd hw nofun
theorem Kept.closeOne (s : State) (e : Nat × Session) : Kept i s (s.closeOne e) := by
  by_cases he : e.1 = i
  · rw [State.closeOne, he]
    split
    · dsimp only
      split
      · exact (Kept.endSession s).trans (.forgetSession _)
      · have hall := (Kept.endSession s).trans (Kept.foldl (i := i) (l := s.closings e)
          (fun _ r _ => .answerSeq (seq := r.seq) (status := 0) (detail := 0) (body := [])) _)
        split
        · exact hall.trans (.forgetSession _)
        · exact hall
    · exact .refl
  · exact (Aside.closeOne he s).kept

/-- The reply journal of session `i` still holds the command with packet `p` alone under its sequence number, unanswered. -/
def Unanswered (i op : Nat) (p : Pkt) (gen : Nat) (t : State) : Prop :=
  ∃ w, t.session i = some w ∧ w.gen = gen ∧
    findRep w p.seq = some { seq := p.seq, tag := p.tag, op := op, reply := none, qp := p.qp, waiters := [] }
theorem findRep_putRep {v : Session} {r : JRep} {seq : Nat} (h : r.seq ≠ seq) : findRep (putRep v r) seq = findRep v seq := by
  simp only [findRep, putRep]
  induction v.journal with
  | nil => rfl
  | cons o js ih =>
    rw [List.map_cons, List.find?_cons, List.find?_cons, ih]
    by_cases ho : o.seq = r.seq
    · simp [ho, h]
    · simp [ho]
theorem Unanswered.answerSeq {op' gen : Nat} (h : Unanswered i op' p gen s) {seq status detail : Nat} {body : List Byte} (hseq : seq ≠ p.seq) :
    Unanswered i op' p gen (s.answerSeq i seq status detail body) := by
  obtain ⟨w, hw, hgen, hrep⟩ := h
  rw [State.answerSeq, hw]
  dsimp only
  split
  · exact ⟨w, hw, hgen, hrep⟩
  next r hr =>
    rw [State.answer]
    split
    · rw [State.releaseReply]
      have hsend : ∀ {t : State} {q key session op status detail : Nat} {dup : Bool}, Unanswered i op' p gen t →
          Unanswered i op' p gen (t.sendReply q key session op seq status detail dup body) := fun ⟨w, hw, h⟩ =>
        ⟨w, (Aside.sendReply (i := i)).session.trans hw, h⟩
      split
      · exact hsend ⟨w, hw, hgen, hrep⟩
      next v hv =>
        split
        · exact hsend ⟨w, hw, hgen, hrep⟩
        next r' hr' =>
          have hvw : v = w := by
            split at hv
            · exact absurd hv nofun
            · rw [Nat.add_sub_cancel, hw, Option.some.injEq] at hv
              exact hv.symm
          have hrseq : r'.seq = seq := by simpa using List.find?_some hr'
          refine List.foldlRecOn _ _ (hsend ⟨putRep v { r' with reply := some (status, detail, body), waiters := [] }, SMap.find?_insert_self .., ?_, ?_⟩)
            fun _ h _ _ => hsend h
          · rw [← hgen, ← hvw]
            rfl
          · rw [findRep_putRep (by simpa [hrseq] using hseq), hvw, hrep]
    · exact ⟨w, (State.session_newRecord ..).trans hw, hgen, hrep⟩
/-- R280: with its requests over, a session that closes answers its CLOSE. -/
theorem State.closeOne_answers {w : Session} (hq : p.qp ≠ mgmtQp) (hi : i < 256) (hclosing : w.closing = 1)
    (hreqs : s.openRequests i w.gen = []) (hfree : s.mayFree i w.gen = true) (hw : s.session i = some w)
    (hqueue : ∀ q ∈ s.jr.queue, ∀ a f n g o x y b, q.pay ≠ .reply a (i + 1) f n g o x y b)
    (hsess : p.session = sessionField i w.gen) (l : List JRep) (hjournal : w.journal = l ++ [{ seq := p.seq, tag := p.tag, op := 4, reply := none, qp := p.qp, waiters := [] }])
    (hnew : ∀ r ∈ l, r.seq ≠ p.seq) : (s.closeOne (i, w)).answered i 4 p 0 0 [] := by
  have hcond : w.closing = 1 ∧ (s.openRequests i w.gen).isEmpty = true ∧ s.mayFree i w.gen = true := ⟨hclosing, by rw [hreqs]; rfl, hfree⟩
  have hnone : (s.jr.queue.any (fun q => match q.pay with
      | .reply _ key _ seq _ _ _ _ _ => decide (key = i + 1) && decide (seq = p.seq)
      | _ => false)) = false := by
    rw [List.any_eq_false]
    intro q hmem
    split
    next a key f n g o x y b hpay =>
      have hkey : key ≠ i + 1 := fun hkey => hqueue q hmem a f n g o x y b (hkey ▸ hpay)
      simp [hkey]
    · simp
  have hcs : s.closings (i, w) = (l.filter (fun r => decide (r.op = 4) && r.reply.isNone && !(s.jr.queue.any (fun q => match q.pay with
      | .reply _ key _ seq _ _ _ _ _ => decide (key = i + 1) && decide (seq = r.seq)
      | _ => false)))) ++ [{ seq := p.seq, tag := p.tag, op := 4, reply := none, qp := p.qp, waiters := [] }] := by
    rw [State.closings, hjournal, List.filter_append, List.filter_singleton]
    simp [hnone]
  have hseqs : ∀ r ∈ l.filter (fun r => decide (r.op = 4) && r.reply.isNone && !(s.jr.queue.any (fun q => match q.pay with
      | .reply _ key _ seq _ _ _ _ _ => decide (key = i + 1) && decide (seq = r.seq)
      | _ => false))), r.seq ≠ p.seq := fun r hr => hnew r (List.mem_filter.mp hr).1
  generalize l.filter _ = cs at hcs hseqs
  have hend : Unanswered i 4 p w.gen (s.endSession i) := by
    refine ⟨{ w with events := [], held := [], closing := 2 }, ?_, rfl, ?_⟩
    · rw [State.endSession, hw]
      exact SMap.find?_insert_self ..
    · have hl : l.find? (fun r => decide (r.seq = p.seq)) = none := List.find?_eq_none.mpr (by simpa using hnew)
      simp [findRep, hjournal, List.find?_append, hl]
  have hfold : Unanswered i 4 p w.gen (cs.foldl (fun s r => s.answerSeq i r.seq 0 0 []) (s.endSession i)) :=
    List.foldlRecOn cs _ hend fun _ h r hr => h.answerSeq (hseqs r hr)
  have hmore : (cs ++ [({ seq := p.seq, tag := p.tag, op := 4, reply := none, qp := p.qp, waiters := [] } : JRep)]).isEmpty = false := by simp
  rw [State.closeOne, if_pos hcond]
  simp only [hcs, hmore, Bool.false_eq_true, if_false, ne_mgmtIndex hi, List.foldl_append, List.foldl_cons, List.foldl_nil]
  generalize cs.foldl _ (s.endSession i) = t at hfold ⊢
  obtain ⟨u, hu, hgen, hrep⟩ := hfold
  simp only [State.answerSeq, hu, hrep, State.answer, if_neg hq, hgen, ← hsess]
  exact State.answered_newRecord ..
/-- A table lists a key first with the entry it has. -/
theorem SMap.split_of_find? {α : Type} {m : SMap α} {k : Nat} {x : α} (h : SMap.find? m k = some x) :
    ∃ a b, m = a ++ (k, x) :: b ∧ ∀ e ∈ a, e.1 ≠ k := by
  induction m with
  | nil => exact absurd h nofun
  | cons e m ih =>
    obtain ⟨j, y⟩ := e
    rw [SMap.find?] at h
    split at h
    next hj =>
      rw [Option.some.injEq] at h
      exact ⟨[], m, by rw [hj, h]; rfl, by simp⟩
    next hj =>
      obtain ⟨a, b, rfl, ha⟩ := ih h
      exact ⟨(j, y) :: a, b, rfl, by simpa [hj] using ha⟩
/-- R280: through the ends of all sessions, a session that closes answers its CLOSE and holds nothing back. -/
theorem State.closeReady_answers {w : Session} (hq : p.qp ≠ mgmtQp) (hi : i < 256) (hclosing : w.closing = 1)
    (hreqs : s.openRequests i w.gen = []) (hfree : s.mayFree i w.gen = true) (hw : s.session i = some w) (hqueue : s.jr.queue = [])
    (hsess : p.session = sessionField i w.gen) (hheld : w.held = []) (l : List JRep)
    (hjournal : w.journal = l ++ [{ seq := p.seq, tag := p.tag, op := 4, reply := none, qp := p.qp, waiters := [] }])
    (hnew : ∀ r ∈ l, r.seq ≠ p.seq) :
    s.closeReady.answered i 4 p 0 0 [] ∧ ∀ u, s.closeReady.session i = some u → u.held = [] := by
  obtain ⟨a, b, hsplit, ha⟩ := SMap.split_of_find? hw
  have haside : Aside i s (a.foldl State.closeOne s) := Aside.foldl (fun u e he => .closeOne (ha e he) u) s
  have hempty : ∀ {t : State}, Aside i s t → ∀ q ∈ t.jr.queue, ∀ a f n g o x y b, q.pay ≠ .reply a (i + 1) f n g o x y b := fun h q hm =>
    (h.fresh q hm).elim (fun hin => absurd hin (by rw [hqueue]; exact List.not_mem_nil)) id
  have hreqs' : (a.foldl State.closeOne s).openRequests i w.gen = [] := by
    rw [State.openRequests, List.map_eq_nil_iff, List.filter_eq_nil_iff] at hreqs ⊢
    exact fun e he => hreqs e (haside.reqs e he)
  have hfree' : (a.foldl State.closeOne s).mayFree i w.gen = true := by
    simp only [State.mayFree, haside.active, Bool.or_eq_true, Bool.not_eq_true', List.any_eq_false] at hfree ⊢
    exact hfree.imp_right fun h e he => h e (haside.reqs e he)
  have hans := State.closeOne_answers hq hi hclosing hreqs' hfree' (haside.session.trans hw) (hempty haside) hsess l hjournal hnew
  have hrest : Kept i ((a.foldl State.closeOne s).closeOne (i, w)) s.closeReady := by
    rw [State.closeReady_eq, hsplit, List.foldl_append, List.foldl_cons]
    exact Kept.foldl (fun u e _ => .closeOne u e) _
  refine ⟨?_, hrest.held ((Kept.closeOne _ _).held fun u hu => ?_)⟩
  · obtain ⟨r, hr, hpay⟩ := hans
    exact ⟨r, hrest.queue r hr, hpay⟩
  · rw [haside.session, hw, Option.some.injEq] at hu
    rw [← hu, hheld]
/-- R280: CLOSE of a session without open requests is answered OK. -/
theorem completes_close (h : s.inTurn i v 0x04 p) (hact : actBit p = false) (hb : p.body = toBytes 0 4) (hreqs : s.openRequests i v.gen = [])
    (hfree : s.mayFree i v.gen = true) (hqueue : s.jr.queue = []) :
    Completes (.close p) s (fun t => t.answered i 0x04 p 0 0 []) := by
  have hr := State.rights_of_any h hact (by decide) (by decide) (by decide)
  have hserial : ∀ f : State → Prop, f { s with host := (s.serial i 4 p).host } → f (s.serial i 4 p) := fun f hf => by
    rw [State.serial_host_only] at hf ⊢
    exact hf
  have happ : (s.serial i 0x04 p).applyOp i 0x04 p [] = (s.serial i 0x04 p).startClose i (takenSeq i 4 p v) := by
    have hword : at' p.body 0 4 = 0 := by rw [hb]; rfl
    have hlen : p.body.length = 4 := by rw [hb]; rfl
    have hopen : (s.serial i 4 p).openRequests i v.gen = [] := hserial (fun t => t.openRequests i v.gen = []) hreqs
    simp [State.applyOp, State.session_of_turn h, hr, headerBad_of_turn h, knownOp, State.opClose, hlen, hword, hopen]
  obtain ⟨⟨-, -, -, -, hq, -⟩, hi, hv, hsess, -, -, hheld, hclosing, hnew, -⟩ := id h
  have hlimit : repLimit i = 1024 := if_neg (ne_mgmtIndex hi)
  have hclose : (s.serial i 4 p).startClose i (takenSeq i 4 p v) =
      ((s.serial i 4 p).setSession i { takenSeq i 4 p v with closing := 1 }).closeReady := by
    have hcancel : (((s.serial i 4 p).setSession i { takenSeq i 4 p v with closing := 1 }).cancelOpen i v.gen) =
        (s.serial i 4 p).setSession i { takenSeq i 4 p v with closing := 1 } := by
      have hnone : ((s.serial i 4 p).setSession i { takenSeq i 4 p v with closing := 1 }).openRequests i v.gen = [] :=
        hserial (fun t => t.openRequests i v.gen = []) hreqs
      rw [State.cancelOpen, hnone]
      rfl
    have hmax : max (takenSeq i 4 p v).closing 1 = 1 := by rw [show (takenSeq i 4 p v).closing = 0 from hclosing]; rfl
    rw [State.startClose, hmax]
    exact congrArg State.closeReady hcancel
  have hans := State.closeReady_answers (s := (s.serial i 4 p).setSession i { takenSeq i 4 p v with closing := 1 })
    (w := { takenSeq i 4 p v with closing := 1 }) hq hi rfl (hserial (fun t => t.openRequests i v.gen = []) hreqs)
    (hserial (fun t => t.mayFree i v.gen = true) hfree) (SMap.find?_insert_self ..) (hserial (fun t => t.jr.queue = []) hqueue) hsess
    (by exact hheld) (v.journal.drop (v.journal.length + 1 - 1024))
    (by
      simp only [takenSeq, hlimit, List.length_append, List.length_singleton]
      rw [List.drop_append_of_le_length (by omega)])
    (fun r hr => by simpa using List.find?_eq_none.mp hnew r (List.mem_of_mem_drop hr))
  rw [hclose] at happ
  exact completes_command rfl h (by decide) happ hans.2 hans.1
end

/-- Settles O25: a session is found by what its packet names, and changed by its own command or its deadline. -/
theorem sessionsOpenAndClose : Obligations.SessionsOpenAndClose := by
  intro s i v p
  refine ⟨completes_openSession, completes_openConfirm, completes_attach, completes_close, fun hi hv hst hdue => ?_, fun hi hv hst hdue => ?_⟩
  · refine ⟨s.dropSession i, ?_, SMap.find?_erase_self .., rfl⟩
    change execOpenTimeout i s = _
    simp [execOpenTimeout, show i ≤ mgmtIndex from hi, hv, hst, hdue]
  · refine ⟨_, ?_, rfl⟩
    change execSessionHoldExpiry i s = _
    simp [execSessionHoldExpiry, hi, hv, hst, hdue]
end Sys2Proof.Machine
end

section
/-!
PROOF. The protocol's deadlines (R283, R287, R289).
-/
namespace Sys2Proof.Machine

set_option Elab.async false

section
variable {s : State} {i u : Nat} {v : Session}

/-- R299: an event changes only the sessions and what has been sent. -/
theorem State.flushEvents_sessions (s : State) (i : Nat) : ∃ ses, (s.flushEvents i).host = { s.host with sessions := ses } := by
  rw [State.flushEvents]
  split
  · exact ⟨_, rfl⟩
  next v hv =>
    split
    · dsimp only
      generalize hr : v.events.foldl _ (s, v.evSeq, v.evLost) = r
      obtain ⟨out, hout⟩ : ∃ out, r.1 = { s with out := out } := by
        rw [← hr]
        exact foldl_emits (fun _ _ => ⟨_, rfl⟩) _
      rw [hout]
      exact ⟨_, rfl⟩
    · exact ⟨_, rfl⟩
theorem State.sendEvent_sessions (s : State) (i cls count : Nat) (body : List Byte) :
    ∃ ses, (s.sendEvent i cls count body).host = { s.host with sessions := ses } := by
  rw [State.sendEvent, State.sendEventOn]
  split
  · exact ⟨_, rfl⟩
  · refine of_ite (P := fun t : State => ∃ ses, t.host = { s.host with sessions := ses }) ⟨_, rfl⟩ ?_
    refine of_ite (P := fun t : State => ∃ ses, t.host = { s.host with sessions := ses }) ⟨_, rfl⟩ ?_
    refine of_ite (P := fun t : State => ∃ ses, t.host = { s.host with sessions := ses }) ⟨_, rfl⟩ ?_
    refine of_ite (P := fun t : State => ∃ ses, t.host = { s.host with sessions := ses }) ⟨_, rfl⟩ ?_
    obtain ⟨ses, h⟩ := State.flushEvents_sessions (s.setSession i _) i
    exact ⟨ses, h⟩
/-- R287: the warning of a lease. -/
theorem completes_leaseWarn (ho : s.ownerIndex = some i) (hl : s.host.lease = some u) (hdue : s.host.warnAt ≤ s.now) (hw : s.host.warned = false) :
    Completes .leaseWarn s (fun t => t.host.warned = true ∧ t.host.lease = some u ∧ t.regs = s.regs ∧ t.stew = s.stew) := by
  refine ⟨_, rfl, ?_⟩
  rw [ho, hl]
  simp only [hdue, hw, Bool.false_eq_true, not_false_eq_true, and_self, if_true]
  generalize hs1 : ({ s with host := { s.host with warned := true } } : State) = s1
  obtain ⟨ses, hhost⟩ := s1.sendEvent_sessions i 0x8004 1 (toBytes ((u - s.now + 999999) / 1000000) 4)
  have honly : s1.only [.out, .host] (s1.sendEvent i 0x8004 1 (toBytes ((u - s.now + 999999) / 1000000) 4)) := State.only.refl.sendEvent
  rw [hhost, honly.regs, honly.stew, ← hs1]
  exact ⟨rfl, hl, rfl, rfl⟩
/-- R287: the end of a lease. -/
theorem completes_leaseExpiry (hl : s.host.lease = some u) (hdue : u ≤ s.now) (ho : s.flag F.OWNER_STATUS_OWNED = true) :
    Completes .leaseExpiry s (fun t => t.flag F.OWNER_STATUS_OWNED = false ∧ t.host.lease = none ∧ t.stew = s.stew ∧ t.mas = s.mas) := by
  refine ⟨_, rfl, ?_⟩
  rw [State.leaseDue, hl]
  simp only [hdue, ho, and_self, if_true]
  have honly : s.only [.regs, .host, .jr] (s.setOwner none) := State.only.refl.setOwner
  refine ⟨?_, s.lease_setOwner_none, honly.stew, honly.mas⟩
  simp [State.flag, b2n]
/-- R283: a command held for 100 ms is answered SEQGAP and dropped. -/
theorem completes_seqgapTimeout {h : HeldCmd} (hi : i ≤ 256) (hv : s.session i = some v)
    (hh : v.held.find? (fun g => decide (g.pkt.seq = u) && decide (g.since + 100000000 ≤ s.now)) = some h) (hw : h.waiters = []) :
    Completes (.seqgapTimeout i u) s (fun t => (∀ g ∈ ((t.session i).map (·.held)).getD [], g.pkt.seq ≠ u) ∧
      t.rd F.SEQGAP_CNT_COUNT = (s.rd F.SEQGAP_CNT_COUNT + 1) % 2 ^ F.SEQGAP_CNT_COUNT.w ∧
      (t.session i).map (·.next) = some v.next) := by
  refine ⟨_, if_pos (show i ≤ mgmtIndex from hi), ?_⟩
  simp only [hv, hh, hw, List.foldl_cons, List.foldl_nil]
  generalize hs1 : s.setSession i { v with held := v.held.filter (fun g => decide (g.pkt.seq ≠ u)) } = s1
  have hses : s1.session i = some { v with held := v.held.filter (fun g => decide (g.pkt.seq ≠ u)) } := by
    rw [← hs1]
    exact SMap.find?_insert_self ..
  have hcount : (s1.bump F.SEQGAP_CNT_COUNT).rd F.SEQGAP_CNT_COUNT = (s.rd F.SEQGAP_CNT_COUNT + 1) % 2 ^ F.SEQGAP_CNT_COUNT.w := by
    rw [State.bump, State.rd_wr_self, ← hs1]
    exact congrArg (fun n => (n + 1) % 2 ^ F.SEQGAP_CNT_COUNT.w) (State.rd_congr (s := s) rfl _ _ _)
  have hin : F.SEQGAP_CNT_COUNT.In 0 .glob := Fld.in_glob (by decide)
  have hans : ∀ (q field seq : Nat) (tag : BitVec 128) (op : Nat),
      (((s1.bump F.SEQGAP_CNT_COUNT).answer q (i + 1) field seq tag op stSeqgap 0 []).session i = s1.session i) ∧
      ((s1.bump F.SEQGAP_CNT_COUNT).answer q (i + 1) field seq tag op stSeqgap 0 []).rd F.SEQGAP_CNT_COUNT =
        (s1.bump F.SEQGAP_CNT_COUNT).rd F.SEQGAP_CNT_COUNT := fun q field seq tag op => by
    rw [State.answer]
    split
    · have hunstored : i + 1 = 0 ∨ seq = 0 ∨ unstored op stSeqgap = true := .inr (.inr (by simp [unstored, stSeqgap]))
      rw [State.releaseReply, if_pos hunstored]
      exact ⟨Aside.sendReply.session, State.rd_congr (State.only.refl (may := [.out, .host])).sendReply.regs _ _ _⟩
    · exact ⟨State.session_newRecord .., State.rd_newRecord_other hin nofun ..⟩
  obtain ⟨hsame, hrd⟩ := hans h.pkt.qp h.pkt.session h.pkt.seq h.pkt.tag h.op
  rw [State.saySeqgap, State.sayOn, hsame, hrd, hses, hcount]
  refine ⟨fun g hg => ?_, rfl, rfl⟩
  simpa using (List.mem_filter.mp hg).2
/-- R284: an answer leaves the changes that wait. -/
theorem State.changes_sendReply (s : State) (q key session op seq status detail : Nat) (dup : Bool) (body : List Byte) :
    (s.sendReply q key session op seq status detail dup body).host.changes = s.host.changes := by
  unfold State.sendReply
  split <;> rfl
theorem State.changes_answerSeq (s : State) (i seq status detail : Nat) (body : List Byte) :
    (s.answerSeq i seq status detail body).host.changes = s.host.changes := by
  rw [State.answerSeq]
  split
  · rfl
  · split
    · rfl
    · rw [State.answer]
      split
      · rw [State.releaseReply]
        split
        · exact State.changes_sendReply ..
        · split
          · exact State.changes_sendReply ..
          · refine List.foldlRecOn (motive := fun t : State => t.host.changes = s.host.changes) _ _ (State.changes_sendReply ..) fun t ht w _ => ?_
            rw [State.changes_sendReply, ht]
      · rw [State.host_newRecord]
end

/-- Settles O26: at its deadline each acts on what has fallen due. -/
theorem protocolDeadlines : Obligations.ProtocolDeadlines := fun _ _ _ _ =>
  ⟨completes_leaseWarn, completes_leaseExpiry, fun _ => completes_seqgapTimeout,
    fun _ hc hnone => ⟨_, rfl, by rw [State.protDone_of_single hc hnone, State.changes_answerSeq], State.protDone_of_single hc hnone⟩⟩
end Sys2Proof.Machine
end

section
/-!
PROOF. Mapping pages (R197): every page of a range that fits takes a frame of a stack with a free one.
-/
namespace Sys2Proof.Machine

set_option Elab.async false

/-! ## Counting over a table -/

theorem SMap.countIf_insert_new {α : Type} {m : SMap α} {k : Nat} (h : SMap.find? m k = none) (a : α) (p : Nat → α → Bool) :
    SMap.countIf (SMap.insert m k a) p = SMap.countIf m p + (if p k a = true then 1 else 0) := by
  simp only [SMap.countIf]
  induction m with
  | nil => simp only [SMap.insert, List.filter_singleton]; split <;> simp_all
  | cons e m ih =>
    obtain ⟨j, b⟩ := e
    rw [SMap.find?] at h
    split at h
    · exact absurd h nofun
    next hj =>
      rw [SMap.insert, if_neg hj]
      split
      · simp only [List.filter_cons]
        by_cases hp : p k a = true <;> by_cases hb : p j b = true <;> simp [hp, hb]
      · simp only [List.filter_cons]
        by_cases hb : p j b = true
        · simp [hb, ih h]
          omega
        · simp [hb, ih h]

section
variable {s : State} {pn budget mwin : Nat}

/-! ## Stacks with free frames (R192) -/

/-- The state of the search for the fullest stack. -/
def fuller (s : State) (g : Option (Nat × Nat)) (k : Nat) : Option (Nat × Nat) :=
  if s.framesFree k = 0 then g
  else match g with
    | none => some (k, s.framesFree k)
    | some (_, m) => if m < s.framesFree k then some (k, s.framesFree k) else g
theorem State.fullest_eq (s : State) (ks : List Nat) : s.fullest ks = (ks.foldl (fuller s) none).map (·.1) := rfl
theorem State.fullest_free {ks : List Nat} {k : Nat} (h : s.fullest ks = some k) : k ∈ ks ∧ 0 < s.framesFree k := by
  have hall : ∀ e, ks.foldl (fuller s) none = some e → e.1 ∈ ks ∧ 0 < s.framesFree e.1 :=
    List.foldlRecOn (motive := fun g => ∀ e, g = some e → e.1 ∈ ks ∧ 0 < s.framesFree e.1) ks (fuller s) (fun _ h => by exact absurd h nofun) fun g hg j hj e he => by
      unfold fuller at he
      split at he
      · exact hg e he
      next hpos =>
        have hnew : some (j, s.framesFree j) = some e → e.1 ∈ ks ∧ 0 < s.framesFree e.1 := fun h => by
          rw [← Option.some.inj h]
          exact ⟨hj, Nat.pos_of_ne_zero hpos⟩
        split at he
        · exact hnew he
        · split at he
          · exact hnew he
          · exact hg e he
  rw [State.fullest_eq, Option.map_eq_some_iff] at h
  obtain ⟨e, he, rfl⟩ := h
  exact hall e he
theorem fuller_isSome {g : Option (Nat × Nat)} {k : Nat} (h : g.isSome = true ∨ 0 < s.framesFree k) : (fuller s g k).isSome = true := by
  unfold fuller
  split
  next hzero => exact h.resolve_right (by omega)
  · cases g with
    | none => rfl
    | some e => dsimp only; split <;> rfl
theorem State.fullest_isSome {ks : List Nat} {k : Nat} (hk : k ∈ ks) (h : 0 < s.framesFree k) : ∃ j, s.fullest ks = some j := by
  obtain ⟨a, b, rfl⟩ := List.append_of_mem hk
  have hsome : ((a ++ k :: b).foldl (fuller s) none).isSome = true := by
    rw [List.foldl_append, List.foldl_cons]
    exact List.foldlRecOn (motive := fun g => g.isSome = true) b (fuller s) (fuller_isSome (.inr h)) fun g hg j _ => fuller_isSome (.inl hg)
  obtain ⟨e, he⟩ := Option.isSome_iff_exists.mp hsome
  exact ⟨e.1, by rw [State.fullest_eq, he]; rfl⟩
theorem State.nearFree_eq_sum (s : State) : s.nearFree = ((List.range 20).map s.framesFree).sum := by
  rw [State.nearFree, List.sum_eq_foldl, List.foldl_map]
/-- With a free frame anywhere a page is mapped. -/
theorem State.fullest_of_nearFree (h : 0 < s.nearFree) : ∃ k, s.fullest (List.range 20) = some k := by
  rw [State.nearFree_eq_sum] at h
  obtain ⟨n, hn, hpos⟩ : ∃ n ∈ (List.range 20).map s.framesFree, 0 < n := by
    by_contra hnone
    push Not at hnone
    have : ((List.range 20).map s.framesFree).sum = 0 := List.sum_eq_zero fun n hn => Nat.le_zero.mp (hnone n hn)
    omega
  obtain ⟨k, hk, rfl⟩ := List.mem_map.mp hn
  exact State.fullest_isSome hk hpos

/-! ## Mapping one page -/

theorem State.mapPage_of_fullest {k : Nat} (h : s.fullest (List.range 20) = some k) :
    s.mapPage pn budget mwin = (s.masZero (pn * pageBytes) pageBytes).newPte pn (freshPte budget mwin k (s.pickFrame k)) := by
  rw [State.mapPage, h]
theorem State.newPte_keeps (p : Pte) : (s.newPte pn p).mas.pages = SMap.insert s.mas.pages pn p ∧ (s.newPte pn p).mas.jobs = s.mas.jobs ∧
    (s.newPte pn p).mas.retired = s.mas.retired ∧ (s.newPte pn p).mas.mem = s.mas.mem ∧ (s.newPte pn p).regs = s.regs := by
  unfold State.newPte
  split <;> exact ⟨rfl, rfl, rfl, rfl, rfl⟩
/-- R192: mapping a page takes one frame of its stack. -/
theorem State.framesFree_mapPage {k : Nat} (hk : s.fullest (List.range 20) = some k) (hnone : s.pte pn = none) (j : Nat) :
    (s.mapPage pn budget mwin).framesFree j = if j = k then s.framesFree j - 1 else s.framesFree j := by
  obtain ⟨hpages, hjobs, hretired, -, hregs⟩ := State.newPte_keeps (s := s.masZero (pn * pageBytes) pageBytes) (pn := pn) (freshPte budget mwin k (s.pickFrame k))
  have hcount := SMap.countIf_insert_new (m := s.mas.pages) hnone (freshPte budget mwin k (s.pickFrame k))
    (fun _ (p : Pte) => p.near && decide (p.nearStack = j))
  rw [State.mapPage_of_fullest hk]
  simp only [State.framesFree, State.framesUsed, hjobs, hretired, hpages, State.rd_congr hregs]
  simp only [State.mas_masZero, State.rd_masZero, hcount]
  by_cases hjk : j = k
  · subst hjk
    simp [freshPte]
    split <;> omega
  · simp [freshPte, Ne.symm hjk, hjk]
/-- Mapping a page takes one free frame of the module. -/
theorem State.nearFree_mapPage (h : 0 < s.nearFree) (hnone : s.pte pn = none) : (s.mapPage pn budget mwin).nearFree + 1 = s.nearFree := by
  obtain ⟨k, hk⟩ := State.fullest_of_nearFree h
  obtain ⟨hmem, hpos⟩ := State.fullest_free hk
  have hother : ∀ {l : List Nat}, k ∉ l → l.map (s.mapPage pn budget mwin).framesFree = l.map s.framesFree := fun hl =>
    List.map_congr_left fun j hj => by rw [State.framesFree_mapPage hk hnone, if_neg (ne_of_mem_of_not_mem hj hl)]
  obtain ⟨a, b, hsplit⟩ := List.append_of_mem hmem
  have hnodup : (a ++ k :: b).Nodup := hsplit ▸ List.nodup_range
  have ha : k ∉ a := fun h => (List.nodup_append.mp hnodup).2.2 k h k List.mem_cons_self rfl
  have hb : k ∉ b := (List.nodup_cons.mp (List.nodup_append.mp hnodup).2.1).1
  rw [State.nearFree_eq_sum, State.nearFree_eq_sum, hsplit, List.map_append, List.map_append, List.map_cons, List.map_cons, hother ha, hother hb,
    State.framesFree_mapPage hk hnone, if_pos rfl, List.sum_append, List.sum_append, List.sum_cons, List.sum_cons]
  omega
theorem State.pte_mapPage (h : 0 < s.nearFree) : ∃ k f, ∀ p, (s.mapPage pn budget mwin).pte p = if p = pn then some (freshPte budget mwin k f) else s.pte p := by
  obtain ⟨k, hk⟩ := State.fullest_of_nearFree h
  refine ⟨k, s.pickFrame k, fun p => ?_⟩
  rw [State.mapPage_of_fullest hk, State.pte, (State.newPte_keeps _).1]
  split
  next hp =>
    subst hp
    exact SMap.find?_insert_self ..
  next hp => exact SMap.find?_insert_of_ne _ _ hp
theorem State.masByte_mapPage (h : 0 < s.nearFree) (c : Nat) :
    (s.mapPage pn budget mwin).masByte c = if pn * pageBytes ≤ c ∧ c < pn * pageBytes + pageBytes then 0 else s.masByte c := by
  obtain ⟨k, hk⟩ := State.fullest_of_nearFree h
  rw [← State.masByte_masZero, State.mapPage_of_fullest hk, State.masByte, (State.newPte_keeps _).2.2.2.1, State.masByte]

/-! ## Mapping a range -/

/-- R197: every page of a range that is not mapped and has frames is mapped, zeroed and writable; every other page keeps its entry. -/
theorem State.mapPages_maps {l : List Nat} (hnd : l.Nodup) {s : State} (hfree : l.length ≤ s.nearFree) (hnone : ∀ p ∈ l, s.pte p = none) :
    (∀ p ∈ l, ∃ k f, (l.foldl (fun s p => s.mapPage p budget mwin) s).pte p = some (freshPte budget mwin k f)) ∧
    (∀ p, p ∉ l → (l.foldl (fun s p => s.mapPage p budget mwin) s).pte p = s.pte p) ∧
    (∀ c, s.masByte c = 0 → (l.foldl (fun s p => s.mapPage p budget mwin) s).masByte c = 0) ∧
    (∀ p ∈ l, ∀ b < pageBytes, (l.foldl (fun s p => s.mapPage p budget mwin) s).masByte (p * pageBytes + b) = 0) := by
  induction l generalizing s with
  | nil => exact ⟨nofun, fun _ _ => rfl, fun _ h => h, nofun⟩
  | cons q l ih =>
    rw [List.length_cons] at hfree
    obtain ⟨hq, hnd⟩ := List.nodup_cons.mp hnd
    have hpos : 0 < s.nearFree := by omega
    have hless := State.nearFree_mapPage (budget := budget) (mwin := mwin) hpos (hnone q List.mem_cons_self)
    obtain ⟨k, f, hpte⟩ := State.pte_mapPage (pn := q) (budget := budget) (mwin := mwin) hpos
    have hbyte := State.masByte_mapPage (pn := q) (budget := budget) (mwin := mwin) hpos
    obtain ⟨hin, hout, hzero, hpage⟩ := ih hnd (s := s.mapPage q budget mwin) (by omega) fun p hp => by
      rw [hpte, if_neg (ne_of_mem_of_not_mem hp hq)]
      exact hnone p (List.mem_cons_of_mem _ hp)
    rw [List.foldl_cons]
    refine ⟨fun p hp => ?_, fun p hp => ?_, fun c hc => hzero c ?_, fun p hp b hb => ?_⟩
    · rcases List.mem_cons.mp hp with rfl | hp
      · exact ⟨k, f, by rw [hout p hq, hpte, if_pos rfl]⟩
      · exact hin p hp
    · rw [List.mem_cons, not_or] at hp
      rw [hout p hp.2, hpte, if_neg hp.1]
    · rw [hbyte, hc, ite_self]
    · rcases List.mem_cons.mp hp with rfl | hp
      · exact hzero _ (by rw [hbyte, if_pos (by omega)])
      · exact hpage p hp b hb
theorem takeWhile_eq_self {α : Type} {p : α → Bool} {l : List α} (h : ∀ x ∈ l, p x = true) : l.takeWhile p = l := by
  induction l with
  | nil => rfl
  | cons x l ih => rw [List.takeWhile_cons, if_pos (h x List.mem_cons_self), ih fun y hy => h y (List.mem_cons_of_mem _ hy)]
/-- R197: a mapping of mappable pages that fits maps each of them. -/
theorem State.mapRange_of_mappable {l : List Nat} (hfits : s.mapFits budget l.length = true) (hleaves : s.leavesFit l = true)
    (hmap : ∀ p ∈ l, s.mappable p = true) :
    s.mapRange l budget mwin = (l.foldl (fun s p => s.mapPage p budget mwin) s, migOk, l.length) := by
  simp [State.mapRange, hfits, hleaves, takeWhile_eq_self hmap]
theorem State.nearFree_of_mapFits {n : Nat} (h : s.mapFits budget n = true) : n ≤ s.nearFree := by
  simp only [State.mapFits, Bool.and_eq_true, decide_eq_true_eq] at h
  exact h.1
end
end Sys2Proof.Machine
end

section
/-!
PROOF. Staging by the host: pages are mapped, sealed, and a foreign drive is taken over (R197, R198, R205, R291).
-/
namespace Sys2Proof.Machine

set_option Elab.async false

section
variable {s : State} {i : Nat} {v : Session} {p : Pkt}

theorem State.mas_serial (op : Nat) : (s.serial i op p).mas = s.mas := by rw [State.serial_host_only]
theorem State.pte_serial (op pn : Nat) : (s.serial i op p).pte pn = s.pte pn := by rw [State.pte, State.mas_serial, State.pte]
theorem State.mas_newRecord (slot : Nat) (q : JPay) : (s.newRecord slot q).mas = s.mas := by
  rw [State.newRecord, State.onlyJournal_newRecordFor]
/-- The fields of a body of three numbers. -/
theorem at'_three {a n w x y z : Nat} {b : List Byte} (hb : b = toBytes a x ++ toBytes n y ++ toBytes w z) (ha : a < 256 ^ x) (hn : n < 256 ^ y)
    (hw : w < 256 ^ z) : at' b 0 x = a ∧ at' b x y = n ∧ at' b (x + y) z = w ∧ b.length = x + y + z := by
  subst hb
  refine ⟨?_, ?_, at'_append_toBytes _ (by simp [length_toBytes]) hw, by simp [length_toBytes, Nat.add_assoc]⟩
  · rw [List.append_assoc]
    exact at'_toBytes_append _ ha
  · rw [at', List.append_assoc, List.drop_left' (length_toBytes ..), List.take_left' (length_toBytes ..), ofBytes_toBytes, Nat.mod_eq_of_lt hn]

/-! ## STAGE_MAP -/

/-- R197: STAGE_MAP maps its pages for a memory window. -/
theorem completes_stageMap {a n w : Nat} (h : s.ownerTurn i v 0x33 p) (hb : p.body = toBytes a 8 ++ toBytes n 4 ++ toBytes w 2) (ha : a < 2 ^ 52)
    (halign : a % pageBytes = 0) (hn : 0 < n) (hn2 : n < 2 ^ 32) (hw : w < 4096)
    (hfree : ∀ k < n, (s.pte (pageOf a + k)).isNone = true ∧ inSystem ((pageOf a + k) * pageBytes) = false ∧
      inMas ((pageOf a + k) * pageBytes) = true)
    (hok : ((s.serial i 0x33 p).mapRange ((List.range n).map (· + pageOf a)) 0 w).2.1 = migOk) :
    Completes (.stageMap p) s (fun t => t.answered i 0x33 p 0 0 [] ∧ ∀ k < n, ∃ e, t.pte (pageOf a + k) = some e ∧ e.isSealed = false ∧
      e.mwin = w ∧ e.near = true) := by
  have hr := State.rights_of_owner h (by decide) (.inl ⟨by decide, fun h => absurd h (by decide)⟩)
  obtain ⟨hturn, -, -⟩ := h
  obtain ⟨h0, h8, h12, hlen⟩ := at'_three hb (by omega) (by omega) (by omega)
  have hmem : ∀ q ∈ (List.range n).map (· + pageOf a), ∃ k < n, q = pageOf a + k := fun q hq => by
    obtain ⟨k, hk, rfl⟩ := List.mem_map.mp hq
    exact ⟨k, List.mem_range.mp hk, Nat.add_comm ..⟩
  have hmap : ∀ q ∈ (List.range n).map (· + pageOf a), (s.serial i 0x33 p).mappable q = true := fun q hq => by
    obtain ⟨k, hk, rfl⟩ := hmem q hq
    obtain ⟨h1, h2, h3⟩ := hfree k hk
    simp [State.mappable, State.pte_serial, h1, h2, h3, -Option.isNone_iff_eq_none]
  have hnone : ∀ q ∈ (List.range n).map (· + pageOf a), (s.serial i 0x33 p).pte q = none := fun q hq => by
    obtain ⟨k, hk, rfl⟩ := hmem q hq
    rw [State.pte_serial]
    exact Option.isNone_iff_eq_none.mp (hfree k hk).1
  have hfits : (s.serial i 0x33 p).mapFits 0 ((List.range n).map (· + pageOf a)).length = true ∧
      (s.serial i 0x33 p).leavesFit ((List.range n).map (· + pageOf a)) = true := by
    by_contra hnot
    rw [State.mapRange, if_pos (by tauto)] at hok
    exact absurd hok (show migNofit ≠ migOk by decide)
  have hrange := State.mapRange_of_mappable (mwin := w) hfits.1 hfits.2 hmap
  have hnd : ((List.range n).map (· + pageOf a)).Nodup := List.nodup_range.map fun x y h => by simpa using h
  obtain ⟨hin, -⟩ := State.mapPages_maps (budget := 0) (mwin := w) hnd (State.nearFree_of_mapFits hfits.1) hnone
  have honly : (s.serial i 0x33 p).only [.mas] (((List.range n).map (· + pageOf a)).foldl (fun s q => s.mapPage q 0 w) (s.serial i 0x33 p)) :=
    State.only.refl.foldl fun _ _ h => h.mapPage
  have hbad : ((List.range n).map (· + pageOf a)).any (fun pn => ((s.serial i 0x33 p).pte pn).isSome || inSystem (pn * pageBytes) ||
      !(inMas (pn * pageBytes))) = false := by
    rw [List.any_eq_false]
    intro q hq
    obtain ⟨k, hk, rfl⟩ := hmem q hq
    obtain ⟨h1, h2, h3⟩ := hfree k hk
    simp [State.pte_serial, Option.isNone_iff_eq_none.mp h1, h2, h3]
  have happ : (s.serial i 0x33 p).applyOp i 0x33 p [] =
      (((List.range n).map (· + pageOf a)).foldl (fun s q => s.mapPage q 0 w) (s.serial i 0x33 p)).answerSeq i p.seq stOk 0 [] := by
    have hlay : ¬ (p.body.length ≠ 14 ∨ a % pageBytes ≠ 0 ∨ n = 0 ∨ 4096 ≤ w) := by omega
    have h12' : at' p.body 12 2 = w := h12
    simp only [State.applyOp, State.session_of_turn hturn, hr, headerBad_of_turn hturn, Bool.false_eq_true, if_false]
    simp [knownOp, ownerOp, State.opStageMap, h0, h8, h12', -List.map_map, if_neg hlay, hbad, hrange]
  refine completes_answer rfl hturn (by decide) happ (by rw [honly.host]) ⟨State.answered_newRecord .., fun k hk => ?_⟩
  obtain ⟨stack, frame, he⟩ := hin (pageOf a + k) (List.mem_map.mpr ⟨k, List.mem_range.mpr hk, Nat.add_comm ..⟩)
  exact ⟨freshPte 0 w stack frame, by rw [State.pte, State.mas_newRecord]; exact he, rfl, rfl, rfl⟩

/-! ## STAGE_SEAL -/

/-- R198: the entry of a page once it is sealed. -/
def sealedPte (e : Pte) (len place : Nat) (nodeep : Bool) (check : Word) : Pte :=
  { e with isSealed := true, sealing := false, len := len, place := place, nodeep := nodeep, check := check }
/-- R198: what sealing does to pages and bytes. -/
theorem State.pte_sealPage {pn : Nat} {e : Pte} (he : s.pte pn = some e) (len place : Nat) (nodeep : Bool) (q : Nat) :
    (s.sealPage pn len place nodeep).pte q = if q = pn then some (sealedPte e len place nodeep
      ((s.masZero (pn * pageBytes + 64 * len) (pageBytes - 64 * len)).pageCheck pn len)) else s.pte q := by
  rw [State.sealPage, he]
  dsimp only
  split
  next hq =>
    subst hq
    exact SMap.find?_insert_self ..
  next hq => exact SMap.find?_insert_of_ne _ _ hq
theorem State.masByte_sealPage {pn : Nat} {e : Pte} (he : s.pte pn = some e) (len place : Nat) (nodeep : Bool) (c : Nat) :
    (s.sealPage pn len place nodeep).masByte c =
      if pn * pageBytes + 64 * len ≤ c ∧ c < pn * pageBytes + 64 * len + (pageBytes - 64 * len) then 0 else s.masByte c := by
  rw [State.sealPage, he, ← State.masByte_masZero]
  rfl
/-- R198: the pages of a list are sealed, each with its length and a zeroed tail; every other page keeps its entry. -/
theorem State.sealPages_seal (len : Nat → Nat) (place : Nat) (nodeep : Bool) {l : List Nat} (hnd : l.Nodup) {s : State}
    (hpte : ∀ q ∈ l, ∃ e, s.pte q = some e) :
    (∀ q ∈ l, ∃ e, (l.foldl (fun s q => s.sealPage q (len q) place nodeep) s).pte q = some e ∧ e.isSealed = true ∧ e.len = len q) ∧
    (∀ q, q ∉ l → (l.foldl (fun s q => s.sealPage q (len q) place nodeep) s).pte q = s.pte q) ∧
    (∀ c, s.masByte c = 0 → (l.foldl (fun s q => s.sealPage q (len q) place nodeep) s).masByte c = 0) ∧
    (∀ q ∈ l, ∀ b, 64 * len q ≤ b → b < pageBytes → (l.foldl (fun s q => s.sealPage q (len q) place nodeep) s).masByte (q * pageBytes + b) = 0) := by
  induction l generalizing s with
  | nil => exact ⟨nofun, fun _ _ => rfl, fun _ h => h, nofun⟩
  | cons x l ih =>
    obtain ⟨hx, hnd⟩ := List.nodup_cons.mp hnd
    obtain ⟨e, he⟩ := hpte x List.mem_cons_self
    have hbyte := State.masByte_sealPage he (len x) place nodeep
    obtain ⟨hin, hout, hzero, htail⟩ := ih hnd (s := s.sealPage x (len x) place nodeep) fun q hq => by
      rw [State.pte_sealPage he, if_neg (ne_of_mem_of_not_mem hq hx)]
      exact hpte q (List.mem_cons_of_mem _ hq)
    rw [List.foldl_cons]
    refine ⟨fun q hq => ?_, fun q hq => ?_, fun c hc => hzero c (by rw [hbyte, hc, ite_self]), fun q hq b hb hb2 => ?_⟩
    · rcases List.mem_cons.mp hq with rfl | hq
      · exact ⟨_, by rw [hout q hx, State.pte_sealPage he, if_pos rfl], rfl, rfl⟩
      · exact hin q hq
    · rw [List.mem_cons, not_or] at hq
      rw [hout q hq.2, State.pte_sealPage he, if_neg hq.1]
    · rcases List.mem_cons.mp hq with rfl | hq
      · exact hzero _ (by rw [hbyte, if_pos (by omega)])
      · exact htail q hq b hb hb2
/-- R198: STAGE_SEAL seals its pages, the last with LENGTH. -/
theorem completes_stageSeal {a n len : Nat} (h : s.ownerTurn i v 0x34 p) (hb : p.body = toBytes a 8 ++ toBytes n 4 ++ toBytes len 2)
    (ha : a < 2 ^ 52) (halign : a % pageBytes = 0) (hn : 0 < n) (hn2 : n < 2 ^ 32) (hlen0 : 0 < len) (hlen : len ≤ 32768)
    (hpte : ∀ k < n, ∃ e, s.pte (pageOf a + k) = some e ∧ e.isSealed = false ∧ e.freeing = false ∧ e.sealing = false) :
    Completes (.stageSeal p) s (fun t => t.answered i 0x34 p 0 0 [] ∧ ∀ k < n, ∃ e, t.pte (pageOf a + k) = some e ∧ e.isSealed = true ∧
      e.len = (if k + 1 = n then len else 32768) ∧
      ∀ b, 64 * e.len ≤ b → b < pageBytes → t.masByte ((pageOf a + k) * pageBytes + b) = 0) := by
  have hr := State.rights_of_owner h (by decide) (.inl ⟨by decide, fun h => absurd h (by decide)⟩)
  obtain ⟨hturn, -, -⟩ := h
  obtain ⟨h0, h8, h12, hbytes⟩ := at'_three hb (by omega) (by omega) (by omega)
  have hmem : ∀ q ∈ (List.range n).map (· + pageOf a), ∃ k < n, q = pageOf a + k := fun q hq => by
    obtain ⟨k, hk, rfl⟩ := List.mem_map.mp hq
    exact ⟨k, List.mem_range.mp hk, Nat.add_comm ..⟩
  have hnd : ((List.range n).map (· + pageOf a)).Nodup := List.nodup_range.map fun x y h => by simpa using h
  obtain ⟨hin, -, -, htail⟩ := State.sealPages_seal (fun pn => if pn + 1 = pageOf a + n then len else 32768) 0 false hnd
    (s := s.serial i 0x34 p) fun q hq => by
      obtain ⟨k, hk, rfl⟩ := hmem q hq
      obtain ⟨e, he, -⟩ := hpte k hk
      exact ⟨e, by rw [State.pte_serial, he]⟩
  have honly : (s.serial i 0x34 p).only [.mas] (((List.range n).map (· + pageOf a)).foldl
      (fun s q => s.sealPage q (if q + 1 = pageOf a + n then len else 32768) 0 false) (s.serial i 0x34 p)) :=
    State.only.refl.foldl fun _ _ h => h.sealPage
  have happ : (s.serial i 0x34 p).applyOp i 0x34 p [] = (((List.range n).map (· + pageOf a)).foldl
      (fun s q => s.sealPage q (if q + 1 = pageOf a + n then len else 32768) 0 false) (s.serial i 0x34 p)).answerSeq i p.seq stOk 0 [] := by
    have hlay : ¬ (p.body.length ≠ 14 ∨ a % pageBytes ≠ 0 ∨ n = 0 ∨ len = 0 ∨ 32768 < len) := by omega
    have h12' : at' p.body 12 2 = len := h12
    simp only [State.applyOp, State.session_of_turn hturn, hr, headerBad_of_turn hturn, Bool.false_eq_true, if_false]
    simp only [State.opStageSeal, h0, h8, h12', if_neg hlay]
    rw [takeWhile_eq_self ?hall, List.length_map, List.length_range, if_pos rfl]
    · rfl
    case hall =>
      intro q hq
      obtain ⟨k, hk, rfl⟩ := hmem q hq
      obtain ⟨e, he, h1, h2, h3⟩ := hpte k hk
      simp only [State.pte_serial, he, h1, h2, h3, Bool.not_false, Bool.and_self]
  refine completes_answer rfl hturn (by decide) happ (by rw [honly.host]) ⟨State.answered_newRecord .., fun k hk => ?_⟩
  have hk' : pageOf a + k ∈ (List.range n).map (· + pageOf a) := List.mem_map.mpr ⟨k, List.mem_range.mpr hk, Nat.add_comm ..⟩
  obtain ⟨e, he, hsealed, helen⟩ := hin _ hk'
  have hcond : (if pageOf a + k + 1 = pageOf a + n then len else 32768) = if k + 1 = n then len else 32768 :=
    if_congr (by omega) rfl rfl
  refine ⟨e, by rw [State.pte, State.mas_newRecord]; exact he, hsealed, helen.trans hcond, fun b hb hb2 => ?_⟩
  rw [State.masByte, State.mas_newRecord]
  refine htail _ hk' b ?_ hb2
  rwa [← helen]

/-! ## ADOPT_DRIVE -/

/-- R205: ADOPT_DRIVE takes over a foreign drive. -/
theorem completes_adoptDrive {d : Nat} {e : Drive} (h : s.ownerTurn i v 0x35 p) (hb : p.body = toBytes d 1) (hd : d < 16)
    (he : SMap.find? s.mas.drives d = some e) (hstate : s.rd F.DEEP_DRIVE_STATE d = 2) :
    Completes (.adoptDrive p) s (fun t => t.answered i 0x35 p 0 0 [] ∧ t.rd F.DEEP_DRIVE_STATE d = 1 ∧
      SMap.find? t.mas.drives d = some { e with header := s.driveIdent, slot := d, records := [] }) := by
  have hr := State.rights_of_owner h (by decide) (.inl ⟨by decide, fun h => absurd h (by decide)⟩)
  obtain ⟨hturn, -, -⟩ := h
  have hbyte : at' p.body 0 1 = d := by
    rw [hb, ← List.append_nil (toBytes d 1)]
    exact at'_toBytes_append _ (by omega)
  have hlay : ¬ (p.body.length ≠ 1 ∨ 16 ≤ d) := by rw [hb, length_toBytes]; omega
  have hident : (s.serial i 0x35 p).driveIdent = s.driveIdent := by
    rw [State.serial_host_only]
    rfl
  have happ : (s.serial i 0x35 p).applyOp i 0x35 p [] =
      ((((s.serial i 0x35 p).setDrive d { e with header := s.driveIdent, slot := d, records := [] }).wr F.DEEP_DRIVE_STATE 1 d).wr
        F.DEEP_EXTENTS_COUNT (min e.extents maxExtents) d).answerSeq i p.seq stOk 0 [] := by
    simp only [State.applyOp, State.session_of_turn hturn, hr, headerBad_of_turn hturn, Bool.false_eq_true, if_false]
    simp only [State.opAdoptDrive, hbyte, if_neg hlay, State.mas_serial, he, State.rd_serial, hstate, if_true, hident]
    rfl
  have hin : F.DEEP_DRIVE_STATE.In d .glob := Fld.in_glob hd
  have hin' : F.DEEP_EXTENTS_COUNT.In d .glob := Fld.in_glob hd
  refine completes_answer rfl hturn (by decide) happ (by simp [State.setDrive]) ⟨State.answered_newRecord .., ?_, ?_⟩
  · rw [State.rd_newRecord_other hin nofun, State.rd_wr_other hin' hin (.inl nofun), State.rd_wr_fits (show 1 < 2 ^ 3 by decide)]
  · rw [State.mas_newRecord, State.mas_wr, State.mas_wr]
    exact SMap.find?_insert_self ..
end

/-- Settles O27: nothing refuses the command, so it acts on its pages or its drive and is answered. -/
theorem hostStagingCommands : Obligations.HostStagingCommands := fun _ _ _ _ =>
  ⟨fun _ _ _ => completes_stageMap, fun _ _ _ => completes_stageSeal, fun _ _ => completes_adoptDrive⟩
end Sys2Proof.Machine
end

section
/-!
PROOF. INSTALL, SWITCH_IN and UNINSTALL (R235, R242, R244).
-/
namespace Sys2Proof.Machine

set_option Elab.async false

section
variable {s t : State} {i : Nat} {v : Session} {p : Pkt}

/-! ## Answers that go on -/

/-- R299: an event to any session leaves what every session holds back, and the records that wait. -/
theorem Kept.flushEvents (s : State) (j : Nat) : Kept i s (s.flushEvents j) := by
  refine ⟨fun q hq => ?_, fun h w hw => ?_⟩
  · have honly : s.only [.out, .host] (s.flushEvents j) := State.only.refl.flushEvents
    rwa [honly.jr]
  · by_cases hji : j = i
    · subst hji
      rw [State.flushEvents] at hw
      split at hw
      · exact h w hw
      next v hv =>
        split at hw
        · dsimp only at hw
          rw [State.session, State.setSession, SMap.find?_insert_self, Option.some.injEq] at hw
          rw [← hw]
          exact h v hv
        · exact h w hw
    · obtain ⟨ses, hses⟩ := State.flushEvents_sessions s j
      refine h w ?_
      rw [← hw, State.flushEvents]
      split
      · rfl
      next v hv =>
        split
        · dsimp only
          generalize hr : v.events.foldl _ (s, v.evSeq, v.evLost) = r
          obtain ⟨out, hout⟩ : ∃ out, r.1 = { s with out := out } := by
            rw [← hr]
            exact foldl_emits (fun _ _ => ⟨_, rfl⟩) _
          rw [hout]
          exact (SMap.find?_insert_of_ne _ _ (Ne.symm hji)).symm
        · rfl
theorem Kept.setSession_of {j : Nat} {w : Session} (h : ∀ x, s.session j = some x → w.held = x.held) (hj : (s.session j).isSome = true) :
    Kept i s (s.setSession j w) := by
  refine ⟨fun _ h => h, fun hs u hu => ?_⟩
  rw [State.session, State.setSession] at hu
  by_cases hji : j = i
  · subst hji
    rw [SMap.find?_insert_self, Option.some.injEq] at hu
    obtain ⟨x, hx⟩ := Option.isSome_iff_exists.mp hj
    rw [← hu, h x hx]
    exact hs x hx
  · rw [SMap.find?_insert_of_ne _ _ (Ne.symm hji)] at hu
    exact hs u hu
theorem Kept.sendEvent (s : State) (j cls count : Nat) (body : List Byte) : Kept i s (s.sendEvent j cls count body) := by
  rw [State.sendEvent, State.sendEventOn]
  split
  · exact .refl
  next v hv =>
    have hset : ∀ w : Session, w.held = v.held → Kept i s (s.setSession j w) := fun w hw =>
      .setSession_of (fun x hx => by rw [hw, Option.some.inj (hv.symm.trans hx)]) (by rw [hv]; rfl)
    refine of_ite (P := Kept i s) .refl (of_ite (P := Kept i s) .refl (of_ite (P := Kept i s) .refl (of_ite (P := Kept i s) ?_ ?_)))
    · exact hset _ rfl
    · refine Kept.trans ?_ (Kept.flushEvents _ _)
      exact hset _ rfl
theorem Kept.powerEvent (s : State) (kind unit v0 v1 : Nat) : Kept i s (s.powerEvent kind unit v0 v1) := by
  refine Kept.foldl (fun s e _ => ?_) s
  dsimp only
  split
  · exact (Kept.sendEvent ..).trans ⟨fun _ h => h, fun h => h⟩
  · exact ⟨fun _ h => h, fun h => h⟩
theorem Kept.moduleTo (s : State) (n : Nat) : Kept i s (s.moduleTo n) := by
  rw [State.moduleTo]
  split
  · exact .refl
  · refine Kept.trans ?_ (.powerEvent ..)
    exact ⟨fun _ h => h, fun h => h⟩
theorem Kept.serveNow (s : State) : Kept i s s.serveNow := by
  rw [State.serveNow]
  split
  · exact .moduleTo ..
  · exact .refl
theorem Kept.answered (h : Kept i s t) {op status detail : Nat} {body : List Byte} (ha : s.answered i op p status detail body) :
    t.answered i op p status detail body := by
  obtain ⟨r, hr, hpay⟩ := ha
  exact ⟨r, h.queue r hr, hpay⟩
/-- A command that is answered and then goes on, where going on keeps what its session holds. -/
theorem completes_andOn {c : Instr} {op : Nat} {extra : List Byte} {P : State → Prop} (hexec : exec c s = .next (s.hostCommand op p extra))
    (h : s.inTurn i v op p) (hop : op ∉ [1, 2, 3]) {status detail : Nat} {body : List Byte} {g : State → State}
    (happ : (s.serial i op p).applyOp i op p extra = g ((s.serial i op p).answerSeq i p.seq status detail body))
    (hg : ∀ q : JPay, Kept i ((s.serial i op p).newRecord 0xFFFF q) (g ((s.serial i op p).newRecord 0xFFFF q)))
    (hP : ∀ q : JPay, (g ((s.serial i op p).newRecord 0xFFFF q)).answered i op p status detail body → P (g ((s.serial i op p).newRecord 0xFFFF q))) :
    Completes c s P := by
  rw [State.answerSeq_of_inTurn h rfl] at happ
  refine completes_command hexec h hop happ ((hg _).held (State.held_of_sessions h ?_)) (hP _ ((hg _).answered (State.answered_newRecord ..)))
  rw [State.host_newRecord]
theorem State.wts_serial (op : Nat) : (s.serial i op p).wts = s.wts := by rw [State.serial_host_only]
theorem State.wts_newRecord (slot : Nat) (q : JPay) : (s.newRecord slot q).wts = s.wts := by
  rw [State.newRecord, State.onlyJournal_newRecordFor]
theorem State.pkg_serial (op h : Nat) : (s.serial i op p).pkg h = s.pkg h := by rw [State.pkg, State.wts_serial, State.pkg]

/-! ## UNINSTALL -/

theorem Kept.freePkg (s : State) (h : Nat) : Kept i s (s.freePkg h) := by
  rw [State.freePkg]
  split
  · exact .refl
  · refine Kept.trans (Kept.trans ?_ (Aside.newRecord _ _ (by intros; exact nofun)).kept) ⟨fun _ h => h, fun h => h⟩
    refine Kept.foldl (fun u pn _ => ?_) s
    rw [State.markFreeing]
    split
    · exact .refl
    · split
      · exact .refl
      · exact ⟨fun _ h => h, fun h => h⟩
/-- R244: UNINSTALL of an INSTALLED package that nothing binds frees it. -/
theorem completes_uninstall {q : Pkg} (h : s.ownerTurn i v 0x31 p) (hlen : p.body.length = 2) (hq : s.pkg (at' p.body 0 2) = some q)
    (hst : q.st = .installed) (hsw : q.switching = none) (hbound : q.bound = 0) :
    Completes (.uninstall p) s (fun t => t.answered i 0x31 p 0 0 [] ∧ t.pkg (at' p.body 0 2) = none) := by
  have hr := State.rights_of_owner h (by decide) (.inl ⟨by decide, fun h => absurd h (by decide)⟩)
  obtain ⟨hturn, -, -⟩ := h
  have happ : (s.serial i 0x31 p).applyOp i 0x31 p [] = ((s.serial i 0x31 p).answerSeq i p.seq stOk 0 []).freePkg (at' p.body 0 2) := by
    simp [State.applyOp, State.session_of_turn hturn, hr, headerBad_of_turn hturn, knownOp, ownerOp, State.opUninstall, hlen, State.pkg_serial,
      hq, hst, hsw, hbound]
  refine completes_andOn (g := fun u => u.freePkg (at' p.body 0 2)) rfl hturn (by decide) happ (fun _ => .freePkg ..) fun r hans => ⟨hans, ?_⟩
  have hpkg : ((s.serial i 0x31 p).newRecord 0xFFFF r).pkg (at' p.body 0 2) = some q := by
    rw [State.pkg, State.wts_newRecord, ← State.pkg, State.pkg_serial, hq]
  rw [State.freePkg, hpkg]
  exact SMap.find?_erase_self ..

/-! ## SWITCH_IN -/

/-- R242: SWITCH_IN of a package being installed waits for it. -/
theorem completes_switchIn {q : Pkg} (h : s.ownerTurn i v 0x32 p) (hserve : s.noServing = false) (hlen : p.body.length = 10)
    (hlow : 1 ≤ at' p.body 2 2) (hhigh : at' p.body 2 2 ≤ 1023) (hq : s.pkg (at' p.body 0 2) = some q) (hst : q.st = .installing)
    (hsw : q.switching = none) :
    Completes (.switchIn p) s (fun t => t.answered i 0x32 p 1 0 [] ∧ ∃ w, t.pkg (at' p.body 0 2) = some { q with switching := some w } ∧
      w.budget = at' p.body 2 2 ∧ w.limit = at' p.body 4 4 ∧ w.window = at' p.body 8 2 ∧ w.users = [(i, p.seq)]) := by
  have hserve' : (s.serial i 0x32 p).noServing = false := by rw [State.noServing, lc_serial]; exact hserve
  have hr := State.rights_of_owner h (by decide) (.inr hserve')
  obtain ⟨hturn, -, hact⟩ := h
  have hlay : ¬ (p.body.length ≠ 10 ∨ at' p.body 2 2 = 0 ∨ 1023 < at' p.body 2 2) := by omega
  have happ : (s.serial i 0x32 p).applyOp i 0x32 p [] = (((s.serial i 0x32 p).answerSeq i p.seq stAccepted 0 []).serveNow).setPkg (at' p.body 0 2)
      { q with switching := some ⟨at' p.body 2 2, at' p.body 4 4, at' p.body 8 2, none, [(i, p.seq)], false⟩ } := by
    simp only [State.applyOp, State.session_of_turn hturn, hr, headerBad_of_turn hturn, hact, Bool.false_eq_true, if_false]
    simp only [State.opSwitchIn, if_neg hlay, State.pkg_serial, hq, hst, hsw]
    rfl
  refine completes_andOn (g := fun u => (u.serveNow).setPkg (at' p.body 0 2)
      { q with switching := some ⟨at' p.body 2 2, at' p.body 4 4, at' p.body 8 2, none, [(i, p.seq)], false⟩ }) rfl hturn (by decide) happ
    (fun _ => (Kept.serveNow _).trans ⟨fun _ h => h, fun h => h⟩) fun r hans => ⟨hans, _, SMap.find?_insert_self .., rfl, rfl, rfl, rfl⟩

/-! ## INSTALL -/



/-- R238: the room for staging depends on the pool's registers, the pages and the installs that fetch. -/
theorem State.stagingRoom_congr (hrd : ∀ (f : Fld) (n : Nat), f.In n .glob → f.reg ≠ .JOURNAL_JSN → t.rd f n = s.rd f n)
    (hmas : t.mas = s.mas) (hpartner : t.jr.partner = s.jr.partner) 
    (hjobs : t.wts.jobs.filter (fun j => decide (2 ≤ j.phase ∧ j.phase ≤ 3)) = s.wts.jobs.filter (fun j => decide (2 ≤ j.phase ∧ j.phase ≤ 3))) :
    t.stagingRoom = s.stagingRoom := by
  have hmin : t.rd F.POOL_MIN_FRAMES = s.rd F.POOL_MIN_FRAMES := hrd _ 0 (Fld.in_glob (by decide)) nofun
  have hframes : t.rd F.INSTALL_CFG_STAGE_FRAMES = s.rd F.INSTALL_CFG_STAGE_FRAMES := hrd _ 0 (Fld.in_glob (by decide)) nofun
  have honline : t.rd F.STACKS_ONLINE_STACK_ONLINE = s.rd F.STACKS_ONLINE_STACK_ONLINE := hrd _ 0 (Fld.in_glob (by decide)) nofun
  have hlimits : t.limits = s.limits := by
    rw [State.limits, State.limits]
    exact List.foldl_ext _ _ _ fun a b hb => by rw [hrd F.BUDGET_LIMIT b (Fld.in_glob (List.mem_range.mp hb)) nofun]
  have hheld : t.stagingHeld = s.stagingHeld := by
    simp only [State.stagingHeld, hjobs, hframes, State.pte, hmas]
  have hmirror : t.mirrorFrames = s.mirrorFrames := by rw [State.mirrorFrames, hpartner, State.mirrorFrames]
  have hfree : t.poolFree = s.poolFree := by simp only [State.poolFree, State.nearFrames, honline, hlimits, hheld, hmas, hmirror]
  simp only [State.stagingRoom, hmin, hframes, hfree]
/-- R235: the install that INSTALL makes of its arguments. -/
def installJob (a : InstallArgs) (header : List Byte) (users : List (Nat × Nat)) : Inst :=
  { newInst a.handle none users with
    load := bitOf a.flags 0, staged := bitOf a.flags 2, hints := a.hints, budget := a.budget, copies := a.copies,
    limit := a.limit, window := a.window, tenant := none, peers := a.peers, header := header }
/-- R235: a state with that install. -/
def State.withInstall (s : State) (a : InstallArgs) (header : List Byte) (j : Inst) : State :=
  { s.setPkg a.handle (installPkg a header) with wts := { (s.setPkg a.handle (installPkg a header)).wts with jobs := s.wts.jobs ++ [j] } }
/-- R238: without staging frames the install waits for them. -/
theorem State.beginInstall_waits {a : InstallArgs} {hd : List Byte} {users : List (Nat × Nat)} (hinst : s.inst a.handle = none)
    (hroom : s.stagingRoom = false) (hrun : s.installsRunning < 8) :
    (s.withInstall a hd (installJob a hd users)).beginInstall a.handle =
      s.withInstall a hd { installJob a hd users with phase := 1, since := s.now } := by
  have hnone : s.wts.jobs.find? (fun j => decide (j.handle = a.handle)) = none := hinst
  generalize hw : s.withInstall a hd (installJob a hd users) = w
  have hwjobs : w.wts.jobs = s.wts.jobs ++ [installJob a hd users] := by rw [← hw]; rfl
  have hbegun : w.inst a.handle = some (installJob a hd users) := by
    rw [State.inst, hwjobs, List.find?_append, hnone]
    simp [installJob, newInst]
  have hwroom : w.stagingRoom = false := by
    have hregs : w.regs = s.regs := by rw [← hw]; rfl
    rw [← hroom]
    refine State.stagingRoom_congr (fun f n _ _ => State.rd_congr hregs ..) (by rw [← hw]; rfl) (by rw [← hw]; rfl) ?_
    rw [hwjobs, List.filter_append]
    simp [installJob, newInst]
  have hwrun : w.installsRunning = s.installsRunning := by
    rw [State.installsRunning, hwjobs, List.filter_append]
    simp [State.installsRunning, installJob, newInst]
  have hphase : ¬ ((installJob a hd users).phase = 0 ∧ 8 ≤ w.installsRunning) := by rw [hwrun]; omega
  have hwnow : w.now = s.now := by rw [← hw]; rfl
  have hmap : s.wts.jobs.map (fun o => if o.handle = a.handle then { installJob a hd users with phase := 1, since := s.now } else o) = s.wts.jobs :=
    (List.map_congr_left fun o ho => if_neg (by simpa using List.find?_eq_none.mp hnone o ho)).trans (List.map_id _)
  rw [State.beginInstall, hbegun]
  simp only [if_neg hphase, hwroom, Bool.false_eq_true, if_false, hwnow]
  have hlast : [installJob a hd users].map (fun o => if o.handle = a.handle then { installJob a hd users with phase := 1, since := s.now } else o) =
      [{ installJob a hd users with phase := 1, since := s.now }] := by
    rw [List.map_singleton, if_pos (show (installJob a hd users).handle = a.handle from rfl)]
  have hset : w.setInst { installJob a hd users with phase := 1, since := s.now } = { w with wts := { w.wts with
      jobs := s.wts.jobs ++ [{ installJob a hd users with phase := 1, since := s.now }] } } := by
    rw [State.setInst, hwjobs, List.map_append]
    exact congrArg (fun l => { w with wts := { w.wts with jobs := l } }) (congrArg₂ _ hmap hlast)
  rw [show (installJob a hd users).phase = 0 from rfl, if_pos rfl]
  rw [hset, ← hw]
  rfl
theorem installArgs_flags {b : List Byte} {a : InstallArgs} (h : installArgs b = some a) : a.flags = at' b 2 1 := by
  obtain ⟨-, h⟩ := Option.ite_none_right_eq_some.mp h
  rw [← Option.some.inj h]
/-- R235, R238: INSTALL that nothing refuses is ACCEPTED and, without staging frames, waits for them. -/
theorem completes_install {header hd : List Byte} {a : InstallArgs} (h : s.ownerTurn i v 0x30 p) (ha : installArgs p.body = some a)
    (hhd : hd = (if bitOf a.flags 2 then s.stagedHeader a.imageBase else header)) (hpkg : s.pkg a.handle = none) (hinst : s.inst a.handle = none)
    (hrefuse : s.installRefusal a hd = none) (hload : bitOf a.flags 0 = false) (hroom : s.stagingRoom = false) (hrun : s.installsRunning < 8) :
    Completes (.install p header) s (fun t => t.answered i 0x30 p 1 0 [] ∧ t.pkg a.handle = some (installPkg a hd) ∧
      ∃ j, t.inst a.handle = some j ∧ j.phase = 1 ∧ j.since = s.now ∧ j.header = hd ∧ j.users = [(i, p.seq)]) := by
  have hr := State.rights_of_owner h (by decide) (.inl ⟨by decide, fun _ => by rw [← installArgs_flags ha, hload]⟩)
  obtain ⟨hturn, -, hact⟩ := h
  have hrefuse' : (s.serial i 0x30 p).installRefusal a hd = none := by
    rw [← hrefuse, State.serial_host_only]
    rfl
  have hinst' : (s.serial i 0x30 p).inst a.handle = none := by rw [State.inst, State.wts_serial]; exact hinst
  have hpkg' : (s.serial i 0x30 p).pkg a.handle = none := by rw [State.pkg_serial, hpkg]
  have hstate : (s.serial i 0x30 p).pkgState a.handle = .absent := by rw [State.pkgState, hpkg']
  have hhead : (if bitOf a.flags 2 = true then (s.serial i 0x30 p).stagedHeader a.imageBase else header) = hd := by
    rw [hhd, State.serial_host_only]
    rfl
  have happ : (s.serial i 0x30 p).applyOp i 0x30 p header =
      (((s.serial i 0x30 p).answerSeq i p.seq stAccepted 0 []).withInstall a hd (installJob a hd [(i, p.seq)])).beginInstall a.handle := by
    simp only [State.applyOp, State.session_of_turn hturn, hr, headerBad_of_turn hturn, hact, Bool.false_eq_true, if_false]
    simp only [State.opInstall, ha, hhead, hpkg', hinst', hrefuse', hstate, hload, Bool.false_eq_true, if_false, reduceCtorEq, or_self]
    simp only [State.withInstall, installJob, hload]
    rfl
  rw [State.answerSeq_of_inTurn hturn rfl] at happ
  generalize hu : (s.serial i 0x30 p).newRecord 0xFFFF _ = u at happ
  have hwts : u.wts = s.wts := by rw [← hu, State.wts_newRecord, State.wts_serial]
  have hroom' : u.stagingRoom = false := by
    rw [← hroom]
    refine State.stagingRoom_congr (fun f n hf hne => ?_) ?_ ?_ (by rw [hwts])
    · rw [← hu, State.rd_newRecord_other hf hne, State.rd_serial]
    · rw [← hu, State.mas_newRecord, State.mas_serial]
    · rw [← hu, State.jr_newRecord, State.serial_host_only]
  rw [State.beginInstall_waits (by rw [State.inst, hwts]; exact hinst) hroom' (by rw [State.installsRunning, hwts]; exact hrun)] at happ
  refine completes_command rfl hturn (by decide) happ (State.held_of_sessions hturn ?_) ?_
  · have hsess : u.host.sessions = (s.serial i 0x30 p).host.sessions := by rw [← hu, State.host_newRecord]
    exact hsess
  have hans : u.answered i 0x30 p 1 0 [] := by rw [← hu]; exact State.answered_newRecord ..
  have hnone : s.wts.jobs.find? (fun j => decide (j.handle = a.handle)) = none := hinst
  refine ⟨hans, SMap.find?_insert_self .., { installJob a hd [(i, p.seq)] with phase := 1, since := u.now }, ?_, rfl, ?_, rfl, rfl⟩
  · have hjobs : (u.withInstall a hd { installJob a hd [(i, p.seq)] with phase := 1, since := u.now }).wts.jobs =
        s.wts.jobs ++ [{ installJob a hd [(i, p.seq)] with phase := 1, since := u.now }] := by
      rw [← hwts]
      rfl
    rw [State.inst, hjobs, List.find?_append, hnone]
    simp [installJob, newInst]
  · have hnow : u.now = s.now := by rw [← hu, State.now_newRecord, State.now_serial]
    exact hnow
end

/-- Settles O28: the command is answered, and what it does next keeps its answer. -/
theorem packageCommandsAct : Obligations.PackageCommandsAct := fun _ _ _ _ =>
  ⟨fun _ _ _ => completes_install, fun _ => completes_uninstall, fun _ => completes_switchIn⟩
end Sys2Proof.Machine
end

section
/-!
PROOF. SUBMIT, CANCEL, PREFIX_RELEASE, REG_DELIVERY and FINAL_READ (R251, R265, R296 to R298, R300).
-/
namespace Sys2Proof.Machine

set_option Elab.async false

section
variable {s t : State} {i : Nat} {v : Session} {p : Pkt}

theorem State.stew_serial (op : Nat) : (s.serial i op p).stew = s.stew := by rw [State.serial_host_only]
theorem State.jr_serial (op : Nat) : (s.serial i op p).jr = s.jr := by rw [State.serial_host_only]
theorem State.stew_newRecord (slot : Nat) (q : JPay) : (s.newRecord slot q).stew = s.stew := by
  rw [State.newRecord, State.onlyJournal_newRecordFor]
theorem State.out_serial (op : Nat) : (s.serial i op p).out = s.out := by rw [State.serial_host_only]
/-- R338: the new record waits at the end. -/
theorem State.new_mem_newRecord (slot : Nat) (q : JPay) : ∃ r ∈ (s.newRecord slot q).jr.queue, r.slot = slot ∧ r.pay = q := by
  rw [State.jr_newRecord]
  exact ⟨_, List.mem_append_right _ List.mem_cons_self, rfl, rfl⟩

/-! ## SUBMIT -/

/-- R296: a submission that nothing turns away takes the lowest free slot. -/
theorem State.applyOp_submit {slot : Nat} (h : s.tenantTurn i v 0x40 p) (hbad : s.submitBad i p.body = false)
    (hdisabled : s.tenantDisabled p.tenant = false) (htight : s.jrTight (180 + at' p.body 76 4) = false) (hslot : s.lowestSlot = some slot) :
    ∃ u : State, u.host = (s.serial i 0x40 p).host ∧ u.stew.reqs = s.stew.reqs ∧ u.out = s.out ∧
      ∀ desc, desc = BitVec.ofNat 512 (at' p.body 0 64) → (s.serial i 0x40 p).applyOp i 0x40 p [] = if at' p.body 72 4 = 0 then
        u.accept slot (newReq (s.serial i 0x40 p) i v.gen p.seq p.qp p.tenant desc (p.body.drop 80) false)
      else (u.setReq slot (newReq (s.serial i 0x40 p) i v.gen p.seq p.qp p.tenant desc [] true)).emit
        (.rdmaRead p.qp (at' p.body 64 8) (at' p.body 72 4) (at' p.body 76 4)) := by
  have hr := State.rights_of_tenant h (by decide) (by decide)
  obtain ⟨hturn, -, -⟩ := h
  have hclosing : v.closing = 0 := hturn.2.2.2.2.2.2.2.1
  have hbad' : (s.serial i 0x40 p).submitBad i p.body = false := by
    rw [← hbad, State.serial_host_only]
    rfl
  have hdisabled' : (s.serial i 0x40 p).tenantDisabled p.tenant = false := by
    rw [← hdisabled, State.serial_host_only]
    rfl
  have htight' : (s.serial i 0x40 p).jrTight (180 + at' p.body 76 4) = false := by
    rw [← htight, State.serial_host_only]
    rfl
  have hslot' : (s.serial i 0x40 p).lowestSlot = some slot := by
    rw [← hslot, State.serial_host_only]
    rfl
  have hlay : ¬ ((s.serial i 0x40 p).submitBad i p.body = true ∨ (takenSeq i 0x40 p v).closing ≠ 0) := by
    simp [hbad', show (takenSeq i 0x40 p v).closing = 0 from hclosing]
  refine ⟨{ s.serial i 0x40 p with stew := { (s.serial i 0x40 p).stew with order := (s.serial i 0x40 p).stew.order + 1 } }, rfl, ?_,
    State.out_serial _, fun desc hdesc => ?_⟩
  · exact congrArg (fun w => w.reqs) (State.stew_serial 0x40)
  · simp only [State.applyOp, State.session_of_turn hturn, hr, headerBad_of_turn hturn, Bool.false_eq_true, if_false]
    simp only [State.opSubmit, if_neg hlay, hdisabled', htight', hslot', Bool.false_eq_true, if_false, hdesc]
    rfl
/-- R296: a submission with its input inline is accepted. -/
theorem completes_submit_inline {slot : Nat} (h : s.tenantTurn i v 0x40 p) (hbad : s.submitBad i p.body = false)
    (hdisabled : s.tenantDisabled p.tenant = false) (htight : s.jrTight (180 + at' p.body 76 4) = false) (hslot : s.lowestSlot = some slot)
    (hkey : at' p.body 72 4 = 0) :
    Completes (.submit p) s (fun t => ∃ r, t.req slot = some r ∧ r.st = .waiting ∧ r.session = i ∧ r.sub = p.seq ∧
      r.tenant = p.tenant ∧ r.input = p.body.drop 80 ∧ r.fetching = false ∧
      ∃ q ∈ t.jr.queue, q.slot = slot ∧ q.pay = .accept p.session p.seq p.tenant r.desc r.input) := by
  obtain ⟨u, hhost, -, -, happ⟩ := State.applyOp_submit h hbad hdisabled htight hslot
  have happ := happ _ rfl
  rw [if_pos hkey, State.accept] at happ
  have hturn := h.1
  have hsess : p.session = sessionField i v.gen := hturn.2.2.2.1
  refine completes_command rfl hturn (by decide) happ (State.held_of_sessions hturn ?_)
    ⟨_, SMap.find?_insert_self .., rfl, rfl, rfl, rfl, rfl, rfl, ?_⟩
  · have hs : (u.newRecord slot (.accept (sessionField i v.gen) p.seq p.tenant (BitVec.ofNat 512 (at' p.body 0 64)) (p.body.drop 80))).host.sessions =
        (s.serial i 0x40 p).host.sessions := by rw [State.host_newRecord, hhost]
    exact hs
  · rw [hsess]
    exact u.new_mem_newRecord slot (.accept (sessionField i v.gen) p.seq p.tenant (BitVec.ofNat 512 (at' p.body 0 64)) (p.body.drop 80))
/-- R296: another submission's input is fetched. -/
theorem completes_submit_fetch {slot : Nat} (h : s.tenantTurn i v 0x40 p) (hbad : s.submitBad i p.body = false)
    (hdisabled : s.tenantDisabled p.tenant = false) (htight : s.jrTight (180 + at' p.body 76 4) = false) (hslot : s.lowestSlot = some slot)
    (hkey : at' p.body 72 4 ≠ 0) :
    Completes (.submit p) s (fun t => ∃ r, t.req slot = some r ∧ r.st = .waiting ∧ r.sub = p.seq ∧ r.fetching = true ∧
      t.out = .rdmaRead p.qp (at' p.body 64 8) (at' p.body 72 4) (at' p.body 76 4) :: s.out) := by
  obtain ⟨u, hhost, -, hout, happ⟩ := State.applyOp_submit h hbad hdisabled htight hslot
  have happ := happ _ rfl
  rw [if_neg hkey] at happ
  refine completes_command rfl h.1 (by decide) happ (State.held_of_sessions h.1 (congrArg (fun w => w.sessions) hhost))
    ⟨_, SMap.find?_insert_self .., rfl, rfl, rfl, ?_⟩
  rw [← hout]
  rfl

/-! ## CANCEL and FINAL_READ -/

theorem State.findLocal_serial (op slot field sub : Nat) : (s.serial i op p).findLocal slot field sub = s.findLocal slot field sub := by
  rw [State.serial_host_only]
  rfl
/-- R265: CANCEL of an own request in progress is accepted. -/
theorem completes_cancel {r : Req} (h : s.tenantTurn i v 0x41 p) (hlen : p.body.length = 12)
    (hr : s.findLocal (at' p.body 0 2) (at' p.body 2 2) (at' p.body 4 8) = some r) (htenant : r.tenant = p.tenant) (hst : r.st ≠ .ending) :
    Completes (.cancel p) s (fun t => t.req (at' p.body 0 2) = some { r with cancelled := true, cancels := r.cancels ++ [(i, p.seq)] } ∧
      ∃ q ∈ t.jr.queue, q.slot = at' p.body 0 2 ∧ q.pay = .cancel (at' p.body 2 2) r.sub) := by
  have hrights := State.rights_of_tenant h (by decide) (by decide)
  obtain ⟨hturn, -, -⟩ := h
  have happ : (s.serial i 0x41 p).applyOp i 0x41 p [] = (s.serial i 0x41 p).acceptCancel (at' p.body 0 2) (at' p.body 2 2) r (i, p.seq) := by
    simp [State.applyOp, State.session_of_turn hturn, hrights, headerBad_of_turn hturn, knownOp, ownerOp, tenantOp, State.opCancel, hlen,
      State.findLocal_serial, hr, htenant, hst]
  rw [State.acceptCancel] at happ
  refine completes_command rfl hturn (by decide) happ (State.held_of_sessions hturn ?_) ⟨SMap.find?_insert_self .., ?_⟩
  · have hs := congrArg (fun w => w.sessions) ((s.serial i 0x41 p).host_newRecord (at' p.body 0 2) (.cancel (at' p.body 2 2) r.sub))
    exact hs
  · exact (s.serial i 0x41 p).new_mem_newRecord (at' p.body 0 2) (.cancel (at' p.body 2 2) r.sub)
/-- R300: FINAL_READ of an own request answers its record. -/
theorem completes_finalRead {r : Req} (h : s.tenantTurn i v 0x44 p) (hlen : p.body.length = 12)
    (hr : s.findLocal (at' p.body 0 2) (at' p.body 2 2) (at' p.body 4 8) = some r) (htenant : r.tenant = p.tenant) :
    Completes (.finalRead p) s (fun t => t.answered i 0x44 p 0 0 (finalRecord (at' p.body 0 2) r (at' p.body 2 2) 0xFFFF) ∧ t.stew = s.stew) := by
  have hrights := State.rights_of_tenant h (by decide) (by decide)
  obtain ⟨hturn, -, -⟩ := h
  have happ : (s.serial i 0x44 p).applyOp i 0x44 p [] =
      (s.serial i 0x44 p).answerSeq i p.seq stOk 0 (finalRecord (at' p.body 0 2) r (at' p.body 2 2) 0xFFFF) := by
    simp [State.applyOp, State.session_of_turn hturn, hrights, headerBad_of_turn hturn, knownOp, ownerOp, tenantOp, State.opFinalRead, hlen,
      State.findLocal_serial, hr, htenant]
  exact completes_answer rfl hturn (by decide) happ rfl
    ⟨State.answered_newRecord .., by rw [State.stew_newRecord, State.stew_serial]⟩

/-! ## PREFIX_RELEASE -/

/-- R261: releasing a prefix that others still refer to marks it released. -/
theorem State.releasePfx_refd {n k : Nat} {x : Pfx} (hx : s.pfx n k = some x) (hrefs : 0 < x.refs) :
    (s.releasePfx n k).1 = true ∧ ((s.releasePfx n k).2.pfx n k).map (·.released) = some true ∧ (s.releasePfx n k).2.mas = s.mas ∧
      (s.releasePfx n k).2.host = s.host := by
  by_cases hrel : x.released = true
  · simp [State.releasePfx, hx, hrel]
  · have hjournal : ∀ (u : State) (y : Pfx), u.pfx n k = some y → ((u.journalPfx n k).pfx n k = some y ∧ (u.journalPfx n k).mas = u.mas ∧
        (u.journalPfx n k).host = u.host) := fun u y hy => by
      rw [State.journalPfx, hy]
      exact ⟨by rw [State.pfx, State.stew_newRecord]; exact hy, State.mas_newRecord .., State.host_newRecord ..⟩
    obtain ⟨hpfx, hmas, hhost⟩ := hjournal (s.setPfx n k { x with released := true, refs := x.refs + 1 }) _ (SMap.find?_insert_self ..)
    have hleft : ¬ (True ∧ x.refs + 1 - 1 = 0) := by omega
    rw [State.releasePfx, hx]
    simp only [hrel, Bool.false_eq_true, if_false, State.unrefPfx, hpfx, if_neg hleft]
    refine ⟨trivial, ?_, hmas, hhost⟩
    rw [State.pfx, State.setPfx]
    rw [SMap.find?_insert_self]
    rfl
/-- R261: PREFIX_RELEASE. -/
theorem completes_prefixRelease {x : Pfx} (h : s.tenantTurn i v 0x42 p) (hlen : p.body.length = 8) (hx : s.pfx p.tenant (at' p.body 0 8) = some x)
    (hrefs : 0 < x.refs) :
    Completes (.prefixRelease p) s (fun t => t.answered i 0x42 p 0 0 [] ∧
      (t.pfx p.tenant (at' p.body 0 8)).map (·.released) = some true ∧ t.mas = s.mas) := by
  have hrights := State.rights_of_tenant h (by decide) (by decide)
  obtain ⟨hturn, -, -⟩ := h
  have hx' : (s.serial i 0x42 p).pfx p.tenant (at' p.body 0 8) = some x := by rw [State.pfx, State.stew_serial]; exact hx
  obtain ⟨hok, hrel, hmas, hhost⟩ := State.releasePfx_refd hx' hrefs
  have happ : (s.serial i 0x42 p).applyOp i 0x42 p [] =
      ((s.serial i 0x42 p).releasePfx p.tenant (at' p.body 0 8)).2.answerSeq i p.seq stOk 0 [] := by
    simp [State.applyOp, State.session_of_turn hturn, hrights, headerBad_of_turn hturn, knownOp, ownerOp, tenantOp, State.opPrefixRelease, hlen, hok]
  refine completes_answer rfl hturn (by decide) happ (by rw [hhost]) ⟨State.answered_newRecord .., ?_, ?_⟩
  · rw [State.pfx, State.stew_newRecord]
    exact hrel
  · rw [State.mas_newRecord, hmas, State.mas_serial]

/-! ## REG_DELIVERY -/

/-- R297: a ring as REG_DELIVERY makes it. -/
def newRing (b : List Byte) : Ring := ⟨at' b 4 4, at' b 8 8, at' b 16 4, at' b 20 4, at' b 24 8, 0, 0, [], []⟩
/-- R297: REG_DELIVERY makes the ring. -/
theorem completes_regDelivery {n : Nat} (h : s.inTurn i v 0x43 p) (hact : actBit p = false) (hlen : p.body.length = 32) (hring : at' p.body 0 2 < 64)
    (hres : at' p.body 2 2 = 0) (hlow : 64 ≤ at' p.body 4 4) (hhigh : at' p.body 4 4 ≤ 65536) (hdiv : 65536 % at' p.body 4 4 = 0)
    (hnew : SMap.find? s.host.rings (ringKey i (at' p.body 0 2)) = none) (hbulky : (s.serial i 0x43 p).bulky i = false) (htable : s.jr.table = []) :
    Completes (.regDelivery p n) s (fun t => t.answered i 0x43 p 0 0 [] ∧ ∃ g, SMap.find? t.host.rings (ringKey i (at' p.body 0 2)) = some g ∧
      g.entries = at' p.body 4 4 ∧ g.addr = at' p.body 8 8 ∧ g.rkey = at' p.body 16 4 ∧ g.cRkey = at' p.body 20 4 ∧
      g.cAddr = at' p.body 24 8 ∧ g.produced = 0 ∧ g.consumed = 0) := by
  have hrights := State.rights_of_any h hact (by decide) (by decide) (by decide)
  have hnew' : SMap.find? (s.serial i 0x43 p).host.rings (ringKey i (at' p.body 0 2)) = none := by
    rw [← hnew, State.serial_host_only]
  have hlay : ¬ (p.body.length ≠ 32 ∨ 64 ≤ at' p.body 0 2 ∨ at' p.body 2 2 ≠ 0 ∨ at' p.body 4 4 < 64 ∨ 65536 < at' p.body 4 4 ∨
    65536 % at' p.body 4 4 ≠ 0) := by omega
  generalize hw : ({ s.serial i 0x43 p with host := { (s.serial i 0x43 p).host with
    rings := SMap.insert (s.serial i 0x43 p).host.rings (ringKey i (at' p.body 0 2)) (newRing p.body) } } : State) = w
  have hjournal : w.journalSession i = w.newRecord 0xFFFF (.session i (w.session i) (w.host.rings.filter (fun e => decide (e.1 / 64 = i)))) :=
    if_neg (ne_mgmtIndex h.2.1)
  have happ : (s.serial i 0x43 p).applyOp i 0x43 p (toBytes n 8) = ((w.journalSession i).answerSeq i p.seq stOk 0 []).tkPlaceAll := by
    rw [← hw]
    simp only [State.applyOp, State.session_of_turn h, hrights, headerBad_of_turn h, Bool.false_eq_true, if_false]
    simp only [State.opRegDelivery, if_neg hlay, hnew', hbulky, Bool.or_self, Bool.false_eq_true, if_false]
    rfl
  have hsess : (w.journalSession i).host.sessions = (s.serial i 0x43 p).host.sessions := by rw [hjournal, State.host_newRecord, ← hw]
  have htab : ((w.journalSession i).newRecord 0xFFFF (.reply p.qp (i + 1) p.session p.seq p.tag 0x43 stOk 0 [])).jr.table = [] := by
    have hjr : w.jr = s.jr := by rw [← hw]; exact State.jr_serial 0x43
    rw [State.table_newRecord, hjournal, State.table_newRecord, hjr, htable]
  rw [State.answerSeq_of_inTurn h hsess, State.tkPlaceAll, htab, List.foldl_nil] at happ
  refine completes_command rfl h (by decide) happ (State.held_of_sessions h (by rw [State.host_newRecord, hsess]))
    ⟨State.answered_newRecord .., newRing p.body, ?_, rfl, rfl, rfl, rfl, rfl, rfl, rfl⟩
  rw [State.host_newRecord, hjournal, State.host_newRecord, ← hw]
  exact SMap.find?_insert_self ..
end

/-- Settles O29: each command acts in the serial state for the tenant it is for. -/
theorem requestCommandsAct : Obligations.RequestCommandsAct := fun _ _ _ _ =>
  ⟨fun _ h hbad hdis htight hslot => ⟨completes_submit_inline h hbad hdis htight hslot, completes_submit_fetch h hbad hdis htight hslot⟩,
    fun _ => completes_cancel, fun _ => completes_prefixRelease, fun _ => completes_regDelivery, fun _ => completes_finalRead⟩
end Sys2Proof.Machine
end

section
/-!
PROOF. DISABLE and ENABLE of a tenant (R266, R267, R291).
-/
namespace Sys2Proof.Machine

set_option Elab.async false

section
variable {s : State} {i : Nat} {v : Session} {p : Pkt} {id ms : Nat}

/-- R266: DISABLE of a tenant is ACCEPTED and runs to its deadline. -/
theorem completes_disable (hid : id < 4096) (h : s.ownerTurn i v 0x50 p) (hb : p.body = toBytes 0 2 ++ toBytes id 2 ++ toBytes ms 4)
    (hms : ms ≤ 60000) (hnone : s.stew.disables.find? (fun d => decide (d.kind = .tenant) && decide (d.id = id)) = none) :
    Completes (.disable p) s (fun t => t.answered i 0x50 p 1 0 [] ∧ t.stew.disables = s.stew.disables ++
      [{ kind := .tenant, id := id, retire := false, deadline := s.now + 1000000 * ms, since := s.now, passed := [], waiters := [(i, p.seq)] }]) := by
  have hr := State.rights_of_owner h (by decide) (.inl ⟨by decide, fun h => absurd h (by decide)⟩)
  obtain ⟨hturn, -, -⟩ := h
  obtain ⟨-, h2, h4, hlen⟩ := at'_three hb (by decide) (by omega) (by omega)
  have h4 : at' p.body 4 4 = ms := h4
  have hbyte0 : at' p.body 0 1 = 0 := by rw [hb]; rfl
  have hbyte1 : at' p.body 1 1 = 0 := by rw [hb]; rfl
  have happ : (s.serial i 0x50 p).applyOp i 0x50 p [] =
      ((s.serial i 0x50 p).answerSeq i p.seq stAccepted 0 []).startDisable .tenant id false (s.now + msNs ms) [(i, p.seq)] := by
    simp only [State.applyOp, State.session_of_turn hturn, hr, headerBad_of_turn hturn, Bool.false_eq_true, if_false]
    simp [State.opDisable, h2, h4, show p.body.length = 8 from hlen, Nat.not_lt.mpr hms, hbyte0, hbyte1, kindOf, idOk, hid, knownOp, ownerOp]
  have hstart : ∀ q : JPay, ((s.serial i 0x50 p).newRecord 0xFFFF q).startDisable .tenant id false (s.now + msNs ms) [(i, p.seq)] =
      { (s.serial i 0x50 p).newRecord 0xFFFF q with stew := { s.stew with disables := s.stew.disables ++
        [⟨.tenant, id, false, s.now + msNs ms, s.now, [], [(i, p.seq)]⟩] } } := fun q => by
    have hstew : ((s.serial i 0x50 p).newRecord 0xFFFF q).stew = s.stew := by rw [State.stew_newRecord, State.stew_serial]
    rw [State.startDisable, hstew, hnone]
    simp only [State.now_newRecord, State.now_serial, reduceCtorEq, if_false]
  refine completes_andOn (g := fun u => u.startDisable .tenant id false (s.now + msNs ms) [(i, p.seq)]) rfl hturn (by decide) happ (fun q => ?_)
    fun q hans => ⟨hans, ?_⟩
  · rw [hstart]
    exact ⟨fun _ h => h, fun h => h⟩
  · rw [hstart]
    rfl
/-- R267: ENABLE of a tenant ends its disable. -/
theorem completes_enable (hid : id < 4096) (h : s.ownerTurn i v 0x51 p) (hb : p.body = toBytes 0 2 ++ toBytes id 2)
    (hnone : s.stew.disables.any (fun d => decide (d.kind = .tenant) && decide (d.id = id)) = false) :
    Completes (.enable p) s (fun t => t.answered i 0x51 p 0 0 [] ∧ (.tenant, id) ∉ t.stew.disabled) := by
  have hr := State.rights_of_owner h (by decide) (.inl ⟨by decide, fun h => absurd h (by decide)⟩)
  obtain ⟨hturn, -, -⟩ := h
  have h2 : at' p.body 2 2 = id := by rw [hb]; exact at'_append_toBytes _ (length_toBytes ..) (by omega)
  have hbyte0 : at' p.body 0 1 = 0 := by rw [hb]; rfl
  have hbyte1 : at' p.body 1 1 = 0 := by rw [hb]; rfl
  have hlen : p.body.length = 4 := by rw [hb]; simp [length_toBytes]
  have happ : (s.serial i 0x51 p).applyOp i 0x51 p [] = ({ s.serial i 0x51 p with stew := { (s.serial i 0x51 p).stew with
      disabled := s.stew.disabled.filter (fun d => decide (d ≠ (.tenant, id))) } } : State).answerSeq i p.seq stOk 0 [] := by
    simp only [State.applyOp, State.session_of_turn hturn, hr, headerBad_of_turn hturn, Bool.false_eq_true, if_false]
    have hnone' := hnone
    simp only [List.any_eq_false, Bool.and_eq_true, decide_eq_true_eq, not_and] at hnone'
    simp [State.opEnable, h2, hlen, hbyte0, hbyte1, kindOf, idOk, hid, knownOp, ownerOp, State.enableFn, State.stew_serial]
    intro x hx hk hxid
    exact absurd hxid (hnone' x hx hk)
  refine completes_answer rfl hturn (by decide) happ rfl ⟨State.answered_newRecord .., ?_⟩
  rw [State.stew_newRecord]
  simp
/-- R266: a disable whose work is done is marked and ends. -/
theorem completes_disableComplete {d : Disable} (hds : s.stew.disables = [d]) (hk : d.kind = .tenant) (hd : d.id = id)
    (hpassed : ∀ x < 4, s.disableOnDie d x = true → x ∈ d.passed) (hwork : s.workOf .tenant id = []) (h3 : s.modState ≠ 3)
    (hdrain : s.boot.drainTo = none) :
    Completes (.disableComplete .tenant id) s (fun t => t.stew.disables = [] ∧ (.tenant, id) ∈ t.stew.disabled ∧ t.mas = s.mas) := by
  refine ⟨_, rfl, ?_⟩
  have hfind : s.stew.disables.find? (fun d => decide (d.kind = .tenant) && decide (d.id = id)) = some d := by simp [hds, hk, hd]
  have hdone : s.workDone d = true := by
    have hall : [0, 1, 2, 3].all (fun x => !s.disableOnDie d x || d.passed.contains x) = true := by
      rw [List.all_eq_true]
      intro x hx
      have hx4 : x < 4 := by fin_cases hx <;> decide
      cases hon : s.disableOnDie d x with
      | false => rfl
      | true => simpa using hpassed x hx4 hon
    rw [State.workDone, hk, hd, if_neg nofun, hall, hwork]
    rfl
  simp only [hfind, hdone, if_true]
  generalize hm : ({ s with stew := { s.stew with disables := [], disabled := if s.stew.disabled.contains (.tenant, id) then s.stew.disabled
    else s.stew.disabled ++ [(.tenant, id)] } } : State) = m
  have hend : s.endDisable d = m.completeAll d.waiters stOk 0 := by
    rw [← hm]
    simp only [State.endDisable, hk, hd, hds]
    simp
  have honly : m.only [.regs, .jr] (s.endDisable d) := by rw [hend]; exact State.only.refl.completeAll
  have hstate : (s.endDisable d).modState = s.modState := by
    have hin : F.MODULE_STATE_STATE.In 0 .glob := Fld.in_glob (by decide)
    have hall : (m.completeAll d.waiters stOk 0).rd F.MODULE_STATE_STATE = m.rd F.MODULE_STATE_STATE :=
      List.foldlRecOn (motive := fun u : State => u.rd F.MODULE_STATE_STATE = m.rd F.MODULE_STATE_STATE) _ _ rfl fun u hu e _ =>
        (State.rd_newRecord_other hin nofun ..).trans hu
    rw [hend, State.modState, hall, ← hm]
    rfl
  have hrest : (s.endDisable d).restReady = s.endDisable d := if_neg fun h => h3 (hstate ▸ h.1)
  have hfin : (s.endDisable d).finishDrain = s.endDisable d := by
    rw [State.finishDrain, honly.boot, ← hm]
    simp only [hdrain]
  rw [hrest, hfin, honly.stew, honly.mas, ← hm]
  refine ⟨rfl, ?_, rfl⟩
  dsimp only
  split
  next h => simpa using h
  · simp
/-- R266: at its deadline a disable without work stands passed by every die. -/
theorem completes_drainDeadline {d : Disable} (hds : s.stew.disables = [d]) (hk : d.kind = .tenant) (hd : d.id = id) (hdue : d.deadline ≤ s.now)
    (hflights : s.stew.flights = []) (hwork : s.workOf .tenant id = []) :
    Completes (.drainDeadline .tenant id none) s
      (fun t => t = { s with stew := { s.stew with disables := [{ d with passed := [0, 1, 2, 3] }] } }) := by
  refine ⟨_, rfl, ?_⟩
  have hfind : s.stew.disables.find? (fun d => decide (d.kind = .tenant) && decide (d.id = id)) = some d := by simp [hds, hk, hd]
  have hmap : s.stew.disables.map (fun e => if e = d then { d with passed := [0, 1, 2, 3] } else e) = [{ d with passed := [0, 1, 2, 3] }] := by
    rw [hds, List.map_singleton, if_pos rfl]
  simp only [hfind, if_neg (Nat.not_lt.mpr hdue), reduceCtorEq, if_false, hmap]
  have hcut : ({ s with stew := { s.stew with disables := [{ d with passed := [0, 1, 2, 3] }] } } : State).cutFlights .tenant id =
      { s with stew := { s.stew with disables := [{ d with passed := [0, 1, 2, 3] }] } } := by
    rw [State.cutFlights]
    simp only [hflights, List.foldl_nil]
  have hnone : ({ s with stew := { s.stew with disables := [{ d with passed := [0, 1, 2, 3] }] } } : State).workOf .tenant id = [] := hwork
  rw [hcut, State.moveWork, hnone]
  rfl
end

/-- Settles O30: a disable of a tenant touches only the steward's lists. -/
theorem disableAndEnable : Obligations.DisableAndEnable := fun _ _ _ _ _ _ hid =>
  ⟨completes_disable hid, completes_enable hid, fun _ => completes_disableComplete, fun _ => completes_drainDeadline⟩
end Sys2Proof.Machine
end

section
/-!
PROOF. Inputs, tokens and final records (R296, R298, R300).
-/
namespace Sys2Proof.Machine

set_option Elab.async false

section
variable {s : State} {i ring slot : Nat}

/-- R296: an input that arrives makes its submission accepted. -/
theorem completes_inputFetch {r : Req} {b : List Byte} {q : Pkg} (hslot : slot < 65536) (hr : s.req slot = some r) (hf : r.fetching = true)
    (hq : s.pkg (rqPkg (rqD r)) = some q) :
    Completes (.inputFetchComplete slot (some b)) s (fun t => ∃ u, t.req slot = some u ∧ u.fetching = false ∧
      u.input = b.take (rqPrompt (rqD r) * q.tmpl.inBytes) ∧ u.acceptJsn = t.rd F.JOURNAL_JSN_VALUE) := by
  refine ⟨_, if_pos hslot, ?_⟩
  simp only [hr, hf, hq, Bool.not_true, Bool.false_eq_true, if_false]
  exact ⟨_, SMap.find?_insert_self .., rfl, rfl, (State.rd_congr rfl F.JOURNAL_JSN_VALUE 0 .glob).symm⟩
/-- R296: a submission whose input cannot be fetched gives its slot back. -/
theorem completes_inputFault {r : Req} (hslot : slot < 65536) (hr : s.req slot = some r) (hf : r.fetching = true) :
    Completes (.inputFetchComplete slot none) s (fun t => t.req slot = none) := by
  refine ⟨_, if_pos hslot, ?_⟩
  simp only [hr, hf, Bool.not_true, Bool.false_eq_true, if_false]
  exact SMap.find?_erase_self ..
/-- R298: the oldest waiting token is written at its place. -/
theorem completes_tokenDelivery {v : Session} {g : Ring} {x : RingTok} {l : List RingTok} (hi : i < 256) (hring : ring < 64) (hv : s.session i = some v)
    (hst : v.st = .active) (hg : SMap.find? s.host.rings (ringKey i ring) = some g) (hw : g.waiting = x :: l) (hfull : ringFull g = false)
    (hown : x.origin = none) :
    Completes (.tokenDelivery i ring) s (fun t =>
      SMap.find? t.host.rings (ringKey i ring) = some { g with produced := g.produced + 1, written := g.written ++ [x], waiting := l } ∧
      t.out = .rdmaWrite (s.tokenQp v x) (g.addr + 32 * (g.produced % g.entries)) g.rkey (ring + 65536 * (g.produced % 65536)) (ringEntry x) :: s.out ∧
      SMap.find? t.jr.written x.slot = some x.index ∧ x.slot ∈ t.jr.progress ∧ t.stew = s.stew ∧ t.regs = s.regs) := by
  refine ⟨_, if_pos ⟨hi, hring⟩, ?_⟩
  simp only [hv, hg, hw, hst, ne_eq, not_true_eq_false, if_false, hfull, Bool.false_eq_true, State.noteWritten, hown]
  refine ⟨SMap.find?_insert_self .., ?_, SMap.find?_insert_self .., ?_, rfl, rfl⟩
  · have hout : (s.writeToken (s.tokenQp v x) ring g g.produced x).out = .rdmaWrite (s.tokenQp v x) (g.addr + 32 * (g.produced % g.entries)) g.rkey
        (ring % 64 + 65536 * (g.produced % 65536)) (ringEntry x) :: s.out := rfl
    rw [Nat.mod_eq_of_lt hring] at hout
    exact hout
  · split
    next h => simpa using h
    · exact List.mem_append_right _ List.mem_cons_self
/-- R297: a count read moves the consumer of a full ring on. -/
theorem completes_consumerCountRead {g : Ring} {n : Nat} (hi : i < 256) (hring : ring < 64)
    (hg : SMap.find? s.host.rings (ringKey i ring) = some g) (hfull : ringFull g = true) :
    Completes (.consumerCountRead i ring n) s (fun t => ∃ u, SMap.find? t.host.rings (ringKey i ring) = some u ∧
      u.consumed = max g.consumed (min n g.produced) ∧ u.produced = g.produced ∧ u.waiting = g.waiting ∧
      t = { s with host := { s.host with rings := t.host.rings } }) := by
  refine ⟨_, if_pos ⟨hi, hring⟩, ?_⟩
  simp only [hg, hfull, if_true]
  exact ⟨_, SMap.find?_insert_self .., rfl, rfl, rfl, rfl⟩
/-- R300: a final record is sent once it may be, and stays readable for FINAL_KEEP_S. -/
theorem completes_finalEvent {r : Req} {v : Session} (hslot : slot < 65536) (hactive : s.jActive = true) (hr : s.req slot = some r)
    (hv : s.session r.session = some v) (hacked : r.finalAcked = true) (hown : r.member = none) (hst : v.st = .active) (hgen : v.gen = r.gen)
    (hclosing : v.closing = 0) (hwait : s.tokenWaits none r.session (rqRing (rqD r)) slot r.sub = false) :
    Completes (.finalEvent none slot) s (fun t => t.req slot = none ∧
      (slot, sessionField r.session r.gen, r.sub, finalRecord slot r (sessionField r.session r.gen) 0xFFFF, some (s.now + s.keepNs))
        ∈ t.stew.kept ∧ t.regs = s.regs ∧ t.mas = s.mas) := by
  refine ⟨_, if_neg (by simp; omega), ?_⟩
  simp only [hr, hv, hactive, hacked, hown, hst, hgen, hclosing, hwait, Bool.false_eq_true, not_false_eq_true, ne_eq, and_self,
    if_true, show ¬ (0 : Nat) = 2 by decide]
  have honly : s.only [.out, .host] (s.sendEventOn r.session 0x8001 1 (some r.qp) (finalRecord slot r (sessionField r.session r.gen) 0xFFFF)) :=
    State.only.refl.sendEventOn
  exact ⟨SMap.find?_erase_self .., List.mem_append_right _ List.mem_cons_self, honly.regs, honly.mas⟩
/-- R300: expired records go. -/
theorem completes_finalRecordExpiry (s : State) : Completes .finalRecordExpiry s (fun t =>
    (∀ k ∈ t.stew.kept, k ∈ s.stew.kept ∧ ∀ u, k.2.2.2.2 = some u → s.now < u) ∧ t = { s with stew := { s.stew with kept := t.stew.kept } }) := by
  refine ⟨_, rfl, fun k hk => ?_, rfl⟩
  obtain ⟨hmem, hlive⟩ := List.mem_filter.mp hk
  refine ⟨hmem, fun u hu => ?_⟩
  rw [hu] at hlive
  simpa using hlive
end

/-- Settles O31: each delivery changes its slot, its ring or the kept records. -/
theorem tokensAndFinalRecordsAreDelivered : Obligations.TokensAndFinalRecordsAreDelivered := fun s _ _ _ hi hring hslot =>
  ⟨fun _ _ _ => completes_inputFetch hslot, fun _ => completes_inputFault hslot, fun _ _ _ _ => completes_tokenDelivery hi hring,
    fun _ _ => completes_consumerCountRead hi hring, fun _ _ => completes_finalEvent hslot, completes_finalRecordExpiry s⟩
end Sys2Proof.Machine
end

section
/-!
PROOF. Queue pairs, congestion, and the RDMA accesses of hosts (R272 to R274, R280, R294, R312).
-/
namespace Sys2Proof.Machine

set_option Elab.async false

section
variable {s : State} {q port : Nat}

/-- R299: a broadcast leaves the queue pairs and the pauses. -/
theorem State.broadcast_sessions (s : State) (cls count : Nat) (body : List Byte) :
    ∃ ses, (s.broadcast cls count body).host = { s.host with sessions := ses } := by
  rw [State.broadcast]
  generalize s.host.sessions = l
  induction l generalizing s with
  | nil => exact ⟨_, rfl⟩
  | cons e l ih =>
    obtain ⟨_, h⟩ := State.sendEvent_sessions s e.1 cls count body
    obtain ⟨ses, k⟩ := ih (s.sendEvent e.1 cls count body)
    exact ⟨ses, by rw [List.foldl_cons, k, h]⟩
theorem State.paused_hostLinkEvent (s : State) (p cause : Nat) : (s.hostLinkEvent p cause).host.paused = s.host.paused := by
  obtain ⟨ses, h⟩ := State.broadcast_sessions s 0x8008 1 (toBytes (0x40 + p) 1 ++
    toBytes (if s.flag F.HOST_PORT_STATUS_LINK_UP p then 3 else if s.rd F.HOST_PORT_CFG_SPEED p = 0 then 0 else 1) 1 ++ toBytes cause 1)
  exact congrArg (·.paused) h
theorem State.rd_hostLinkEvent (s : State) (p cause : Nat) (f : Fld) (i : Nat) (w : Win) :
    (s.hostLinkEvent p cause).rd f i w = s.rd f i w :=
  State.rd_congr (State.only.refl (may := [.out, .host])).hostLinkEvent.regs ..
theorem State.flag_hostLinkEvent (s : State) (p cause : Nat) (f : Fld) (i : Nat) (w : Win) :
    (s.hostLinkEvent p cause).flag f i w = s.flag f i w := State.flag_congr_rd (State.rd_hostLinkEvent ..)

theorem not_refused {n m : Nat} {a b : Nat} (h : n < m) (k : a < b) : ¬ (m ≤ n ∨ b ≤ a) := by omega

theorem completes_cmConnect (hq : q < 4096) (hp : port < 4) (hdark : s.dark = false) (hup : s.flag F.HOST_PORT_STATUS_LINK_UP port = true)
    (hnew : s.qp q = none) (hroom : SMap.countIf s.host.qps (fun _ v => v.bound.isNone && !v.error) < 64) :
    Completes (.cmConnect q port) s (fun t => ∃ v, t.qp q = some v ∧ v.port = port ∧ v.bound = none ∧ v.error = false ∧ v.used = 0 ∧
      v.rate = s.lineRate port ∧ t = { s with host := { s.host with qps := t.host.qps } }) := by
  refine ⟨_, if_neg (not_refused hq hp), ?_⟩
  simp only [hup, hdark, hnew, Bool.not_true, Bool.false_eq_true, or_self, false_or, if_false, if_neg (Nat.not_le.mpr hroom)]
  exact ⟨_, SMap.find?_insert_self .., rfl, rfl, rfl, rfl, rfl, rfl⟩
/-- R280: a queue pair that fails leaves its session; one bound to a session enters the error state whatever else the session has. -/
theorem State.qp_unbindQp {v : Qp} (h : s.qp q = some v) : (s.unbindQp q).qp q = some { v with bound := none, error := true, used := 0 } := by
  have hset : (s.setQp q { v with bound := none, error := true, used := 0 }).qp q = some { v with bound := none, error := true, used := 0 } :=
    SMap.find?_insert_self ..
  rw [State.unbindQp]
  simp only [h]
  split
  · exact hset
  split
  · exact hset
  split
  · rw [State.journalSession]
    split
    · exact hset
    · rw [State.qp_newRecord]
      exact hset
  · obtain ⟨out, hout⟩ := State.rewriteRings_out ((s.setQp q { v with bound := none, error := true, used := 0 }).setSession
      _ { (_ : Session) with qps := _ }) _
    rw [hout]
    exact hset
theorem completes_qpError {v : Qp} {i : Nat} {u : Session} (hq : q < 4096) (hv : s.qp q = some v) (herr : v.error = false) (hb : v.bound = some i)
    (hu : s.session i = some u) (hst : u.st = .active) (hqps : u.qps = [q]) :
    Completes (.qpError q) s (fun t => t.qp q = some { v with bound := none, error := true, used := 0 } ∧
      ∃ x, t.session i = some x ∧ x.st = .detached ∧ x.qps = [] ∧ x.since = s.now) := by
  refine ⟨_, if_pos hq, ?_⟩
  rw [State.qpError]
  simp only [hv, herr, Bool.false_eq_true, if_false]
  refine ⟨State.qp_unbindQp hv, ?_⟩
  have hu' : (s.setQp q { v with bound := none, error := true, used := 0 }).session i = some u := hu
  rw [State.unbindQp]
  simp only [hv, hb, hu', hqps, hst, List.filter_cons, List.filter_nil, ne_eq, not_true_eq_false, decide_false, Bool.false_eq_true, if_false,
    List.isEmpty_nil, and_self, if_true]
  have hx : ((s.setQp q { v with bound := none, error := true, used := 0 }).setSession i
      { u with qps := [], st := .detached, since := s.now }).session i = some { u with qps := [], st := .detached, since := s.now } :=
    SMap.find?_insert_self ..
  refine ⟨{ u with qps := [], st := .detached, since := s.now }, ?_, rfl, rfl, rfl⟩
  rw [State.journalSession]
  split
  · exact hx
  · rw [State.session_newRecord]
    exact hx
theorem completes_cnpReceive {v : Qp} (hq : q < 4096) (hv : s.qp q = some v) (herr : v.error = false)
    (hecn : s.flag F.HOST_PORT_CFG_ECN_EN v.port = true) (hdue : v.rate = s.lineRate v.port ∨ v.halved + 50000 ≤ s.now) :
    Completes (.cnpReceive q) s (fun t => t.qp q = some { v with rate := max 1000 (v.rate / 2), halved := s.now, raised := s.now } ∧
      t = { s with host := { s.host with qps := t.host.qps } }) := by
  refine ⟨_, if_neg (Nat.not_le.mpr hq), ?_⟩
  simp only [hv, herr, hecn, Bool.false_eq_true, not_true_eq_false, or_self, if_false, if_pos hdue]
  exact ⟨SMap.find?_insert_self .., rfl⟩
theorem completes_rateRecovery {v : Qp} (hq : q < 4096) (hv : s.qp q = some v) (hecn : s.flag F.HOST_PORT_CFG_ECN_EN v.port = true)
    (hlow : v.rate < s.lineRate v.port) (hdue : v.raised + 55000 ≤ s.now) :
    Completes (.rateRecovery q) s (fun t => t.qp q = some { v with
        rate := min (s.lineRate v.port) (v.rate + s.lineRate v.port / 20), raised := s.now } ∧
      t = { s with host := { s.host with qps := t.host.qps } }) := by
  refine ⟨_, if_neg (Nat.not_le.mpr hq), ?_⟩
  simp only [hv, hecn, hlow, hdue, and_self, if_true]
  exact ⟨SMap.find?_insert_self .., rfl⟩
theorem completes_pfcPause (hp : port < 4) (hup : s.flag F.HOST_PORT_STATUS_LINK_UP port = true)
    (hnew : SMap.find? s.host.paused port = none) :
    Completes (.pfcPause port (s.rd F.HOST_PORT_CFG_PFC_PRIO port) true) s (fun t => SMap.find? t.host.paused port = some (some s.now) ∧
      t = { s with host := { s.host with paused := t.host.paused } }) := by
  refine ⟨_, if_neg (not_refused hp (State.rd_lt s F.HOST_PORT_CFG_PFC_PRIO port .glob)), ?_⟩
  simp only [ne_eq, not_true_eq_false, hup, or_self, if_false, if_true, hnew, Option.isSome_none, Bool.false_eq_true]
  exact ⟨SMap.find?_insert_self .., rfl⟩
theorem completes_pfcStorm {u : Nat} (hp : port < 4) (hpause : SMap.find? s.host.paused port = some (some u)) (hdue : u + 100000000 ≤ s.now) :
    Completes (.pfcStorm port) s (fun t => t.flag F.HOST_PORT_STATUS_PFC_STORM port = true ∧ SMap.find? t.host.paused port = some none) := by
  refine ⟨_, if_neg (Nat.not_le.mpr hp), ?_⟩
  simp only [hpause, if_pos hdue]
  refine ⟨?_, ?_⟩
  · rw [State.flag_hostLinkEvent]
    have h : ∀ t : State, (t.setPause port (some none)).flag F.HOST_PORT_STATUS_PFC_STORM port = t.flag F.HOST_PORT_STATUS_PFC_STORM port :=
      fun _ => rfl
    rw [h, State.flag_wr_self]
    rfl
  · rw [State.paused_hostLinkEvent]
    exact SMap.find?_insert_self ..
theorem State.flag_hostPortBits (s : State) (v w : Nat) :
    ((s.wr F.HOST_PORT_STATUS_LINK_UP v port).wr F.HOST_PORT_STATUS_SPEED_ACT w port).flag F.HOST_PORT_STATUS_LINK_UP port =
      decide (v % 2 = 1) := by
  rw [State.flag_congr_rd State.rd_wr_beside, State.flag_wr_self]
  rfl
theorem completes_hostPortDown (hp : port < 4) (hup : s.flag F.HOST_PORT_STATUS_LINK_UP port = true) (hqps : s.host.qps = []) :
    Completes (.hostPortLinkChange port false 0) s (fun t => t.flag F.HOST_PORT_STATUS_LINK_UP port = false ∧ t.stew = s.stew) := by
  refine ⟨_, if_neg (not_refused hp (by decide)), ?_⟩
  have hq : ((s.wr F.HOST_PORT_STATUS_LINK_UP 0 port).wr F.HOST_PORT_STATUS_SPEED_ACT 0 port).host.qps = [] := hqps
  simp only [Bool.false_eq_true, if_false, State.hostPortDown, hup, if_true, hq, List.filter_nil, List.foldl_nil]
  refine ⟨?_, (State.only.refl (may := [.out, .host])).hostLinkEvent.stew⟩
  rw [State.flag_hostLinkEvent]
  have hzero : decide (0 % 2 = 1) = false := rfl
  rw [← hzero, ← State.flag_hostPortBits (port := port) s 0 0]
  exact State.flag_congr_rd (State.rd_congr rfl ..)
theorem completes_hostPortUp {rate : Nat} (hp : port < 4) (hdown : s.flag F.HOST_PORT_STATUS_LINK_UP port = false)
    (hstage : s.rd F.BOOT_STATUS_STAGE = 7) (hlc : s.lc ≠ .factory) (hpos : 0 < rate) (hrate : rate ≤ 2)
    (hspeed : 0 < s.rd F.HOST_PORT_CFG_SPEED port) :
    Completes (.hostPortLinkChange port true rate) s (fun t => t.flag F.HOST_PORT_STATUS_LINK_UP port = true ∧
      t.rd F.HOST_PORT_STATUS_SPEED_ACT port = min rate (s.rd F.HOST_PORT_CFG_SPEED port)) := by
  refine ⟨_, if_neg (not_refused hp (Nat.lt_succ_of_le hrate)), ?_⟩
  have hcond : ¬ (min rate (s.rd F.HOST_PORT_CFG_SPEED port) = 0 ∨ s.lc = .factory ∨ s.flag F.HOST_PORT_STATUS_LINK_UP port) := by
    rw [hdown]
    simp only [hlc, Bool.false_eq_true, or_self, or_false]
    omega
  simp only [if_true, hstage, State.hostPortUp, if_neg hcond]
  rw [State.flag_hostLinkEvent, State.rd_hostLinkEvent]
  exact ⟨State.flag_hostPortBits s 1 _, State.rd_wr_fits (show _ < 2 ^ 2 by omega)⟩

/-! ## RDMA accesses -/

/-- Serving pages changes no byte of them and sends nothing. -/
theorem State.touched (s : State) (l : List Nat) :
    (l.foldl (fun (s : State) pn => s.touch pn) s).mas.mem = s.mas.mem ∧ (l.foldl (fun (s : State) pn => s.touch pn) s).out = s.out := by
  induction l generalizing s with
  | nil => exact ⟨rfl, rfl⟩
  | cons pn l ih =>
    obtain ⟨hm, ho⟩ := ih (s.touch pn)
    have h : (s.touch pn).mas.mem = s.mas.mem ∧ (s.touch pn).out = s.out := by
      rw [State.touch]
      split
      · exact ⟨rfl, rfl⟩
      · exact ⟨rfl, rfl⟩
    exact ⟨hm.trans h.1, ho.trans h.2⟩
theorem State.masByte_congr {s t : State} (h : t.mas.mem = s.mas.mem) (a : Nat) : t.masByte a = s.masByte a := by
  rw [State.masByte, State.masByte, h]
theorem State.out_masWrite (s : State) (a : Nat) (b : List Byte) : (s.masWrite a b).out = s.out := by rw [State.masWrite_mem_only]

section
variable {rkey a n i : Nat} {k : Qp} {v : Session}

theorem completes_hostWrite {b : List Byte} (hdark : s.dark = false) (hfail : s.boot.failAt = none) (hk : s.qp q = some k) (herr : k.error = false)
    (hb : k.bound = some i) (hv : s.session i = some v) (hallowed : s.rdmaAllowed v true rkey a b.length = true)
    (hrange : s.rangeAccess State.writeAccess a b.length = .ok) :
    Completes (.hostRdmaAccess q rkey a n (some b)) s (fun t =>
      (∀ x < b.length, t.masByte (a + x) = b.getD x 0) ∧ (∀ x, x < a ∨ a + b.length ≤ x → t.masByte x = s.masByte x) ∧ t.out = s.out) := by
  refine ⟨_, rfl, ?_⟩
  simp only [hk, herr, hdark, hfail, hb, hv, Option.bind_some, Option.isSome_none, Bool.false_eq_true, or_self, if_false, hallowed, hrange,
    and_self, if_true]
  obtain ⟨hmem, hout⟩ := State.touched s (pagesIn a b.length)
  exact ⟨fun x hx => State.masByte_masWrite_of_inside b _ a x hx,
    fun x hx => (State.masByte_masWrite_of_outside b _ a x hx).trans (State.masByte_congr hmem x), (State.out_masWrite ..).trans hout⟩
theorem completes_hostRead (hdark : s.dark = false) (hfail : s.boot.failAt = none) (hk : s.qp q = some k) (herr : k.error = false)
    (hb : k.bound = some i) (hv : s.session i = some v) (hallowed : s.rdmaAllowed v false rkey a n = true)
    (hrange : s.rangeAccess State.readAccess a n = .ok) :
    Completes (.hostRdmaAccess q rkey a n none) s (fun t => t.out = .hostData q (s.masBytes a n) :: s.out ∧ t.mas.mem = s.mas.mem) := by
  refine ⟨_, rfl, ?_⟩
  simp only [hk, herr, hdark, hfail, hb, hv, Option.bind_some, Option.isSome_none, Bool.false_eq_true, or_self, if_false, hallowed, hrange,
    if_true]
  obtain ⟨hmem, hout⟩ := State.touched s (pagesIn a n)
  exact ⟨congrArg _ hout, hmem⟩
/-- What a queue pair's failure sends comes before what has been sent: nothing is taken back. -/
theorem State.mem_out_rewriteRings (s : State) (i : Nat) {o : Out} (h : o ∈ s.out) : o ∈ (s.rewriteRings i).out := by
  have step : ∀ {α : Type} (l : List α) (g : State → α → State), (∀ t e, o ∈ t.out → o ∈ (g t e).out) → ∀ t : State, o ∈ t.out →
      o ∈ (l.foldl g t).out := by
    intro α l g hg
    induction l with
    | nil => exact fun _ h => h
    | cons e l ih => exact fun t h => ih _ (hg t e h)
  rw [State.rewriteRings]
  split
  · exact h
  · exact step _ _ (fun t e h => step _ _ (fun t e h => List.mem_cons_of_mem _ h) t h) s h
theorem State.mem_out_unbindQp (s : State) (q : Nat) {o : Out} (h : o ∈ s.out) : o ∈ (s.unbindQp q).out := by
  rw [State.unbindQp]
  split
  · exact h
  dsimp only
  split
  · exact h
  split
  · exact h
  split
  · rw [State.journalSession]
    split
    · exact h
    · rw [State.newRecord, State.onlyJournal_newRecordFor]
      exact h
  · exact State.mem_out_rewriteRings _ _ h
theorem completes_hostNak {b : List Byte} (hdark : s.dark = false) (hfail : s.boot.failAt = none) (hk : s.qp q = some k) (herr : k.error = false)
    (hb : k.bound = some i) (hv : s.session i = some v) (hrefused : s.rdmaAllowed v true rkey a b.length = false) :
    Completes (.hostRdmaAccess q rkey a n (some b)) s (fun t => t.mas = s.mas ∧ .hostNak q .remoteAccess ∈ t.out ∧
      (t.qp q).map (·.error) = some true) := by
  refine ⟨_, rfl, ?_⟩
  have hk' : (s.emit (.hostNak q .remoteAccess)).qp q = some k := hk
  simp only [hk, herr, hdark, hfail, hb, hv, Option.bind_some, Option.isSome_none, Bool.false_eq_true, or_self, if_false, hrefused, false_and]
  refine ⟨(State.only.refl (may := [.out, .regs, .host, .jr])).emit.qpError.mas, ?_⟩
  rw [State.qpError]
  simp only [hk', herr, Bool.false_eq_true, if_false]
  rw [State.qp_unbindQp hk']
  exact ⟨State.mem_out_unbindQp _ q List.mem_cons_self, rfl⟩
end
end

/-- Settles O32: each event of a queue pair or port changes what it names. -/
theorem queuePairsAndCongestion : Obligations.QueuePairsAndCongestion := fun _ _ _ hq hp =>
  ⟨completes_cmConnect hq hp, fun _ _ _ => completes_qpError hq, fun _ => completes_cnpReceive hq, fun _ => completes_rateRecovery hq,
    completes_pfcPause hp, fun _ => completes_pfcStorm hp, completes_hostPortDown hp, fun _ => completes_hostPortUp hp⟩
/-- Settles O33: an access that the window allows reads or writes its range, and a refused WRITE is a NAK. -/
theorem hostRdmaIsChecked : Obligations.HostRdmaIsChecked := fun _ _ _ _ _ _ _ _ hdark hfail hk herr hb hv =>
  ⟨fun _ => completes_hostWrite hdark hfail hk herr hb hv, completes_hostRead hdark hfail hk herr hb hv,
    fun _ => completes_hostNak hdark hfail hk herr hb hv⟩
end Sys2Proof.Machine
end

section
/-!
PROOF. What a command of the array moves: tile contexts and queues by key, and register words by address. Each operation of the array's
sequencers and queues extends such a frame, and the frame of a whole command is put together from them.
-/
namespace Sys2Proof.Machine

set_option Elab.async false

theorem SMap.find?_setD_of_ne {α : Type} [DecidableEq α] (m : SMap α) {k j : Nat} (a d : α) (h : j ≠ k) :
    SMap.find? (SMap.setD m k a d) j = SMap.find? m j := by
  rw [SMap.setD]
  split
  · exact SMap.find?_erase_of_ne _ h
  · exact SMap.find?_insert_of_ne _ _ h

/-- From `s` to `t` nothing changes but the tile contexts `tks`, the queues `qs`, the register words `as`, how long the dies have idled,
and what has been sent. -/
structure State.moved (s t : State) (tks qs as : List Nat) : Prop where
  tiles : ∀ k, k ∉ tks → SMap.find? t.arr.tiles k = SMap.find? s.arr.tiles k
  queues : ∀ k, k ∉ qs → SMap.find? t.arr.queues k = SMap.find? s.arr.queues k
  regs : s.regsBut t as
  rest : t = { s with
    arr := { s.arr with tiles := t.arr.tiles, queues := t.arr.queues, idlePosted := t.arr.idlePosted, idleFor := t.arr.idleFor,
                        restFor := t.arr.restFor }
    regs := t.regs
    out := t.out }

section
variable {s t u : State} {tks qs as : List Nat} {die y x c : Nat}

theorem State.moved.refl : s.moved s tks qs as := ⟨fun _ _ => rfl, fun _ _ => rfl, .refl, rfl⟩
theorem State.moved.trans (h : s.moved t tks qs as) (k : t.moved u tks qs as) : s.moved u tks qs as where
  tiles _ hk := (k.tiles _ hk).trans (h.tiles _ hk)
  queues _ hk := (k.queues _ hk).trans (h.queues _ hk)
  regs := h.regs.trans k.regs
  rest := by
    have hu := k.rest
    rw [h.rest] at hu
    exact hu
theorem State.moved.mono {tks' qs' as' : List Nat} (h : s.moved t tks qs as) (h1 : tks ⊆ tks') (h2 : qs ⊆ qs') (h3 : as ⊆ as') :
    s.moved t tks' qs' as' :=
  ⟨fun k hk => h.tiles k fun hm => hk (h1 hm), fun k hk => h.queues k fun hm => hk (h2 hm), h.regs.mono h3, h.rest⟩
theorem State.moved.setTile (h : s.moved t tks qs as) {v : TileCtx} (hk : tileKey die y x c ∈ tks) :
    s.moved (t.setTile die y x c v) tks qs as :=
  h.trans ⟨fun _ hne => SMap.find?_setD_of_ne _ _ _ fun he => hne (he ▸ hk), fun _ _ => rfl, .of_regs .refl rfl, rfl⟩
theorem State.moved.setQueue (h : s.moved t tks qs as) {q : Nat} {v : Queue} (hk : queueKey die q c ∈ qs) :
    s.moved (t.setQueue die q c v) tks qs as :=
  h.trans ⟨fun _ _ => rfl, fun _ hne => SMap.find?_setD_of_ne _ _ _ fun he => hne (he ▸ hk), .of_regs .refl rfl, rfl⟩
theorem State.moved.wr (h : s.moved t tks qs as) {f : Fld} {v i : Nat} {w : Win} (hf : f.words i w ⊆ as) : s.moved (t.wr f v i w) tks qs as :=
  h.trans (by
    have hwr := t.wr_regs_only f v i w
    generalize ht : t.wr f v i w = t' at hwr ⊢
    have hregs : t.regsBut t' as := ht ▸ State.regsBut.refl.wr hf
    rw [hwr] at hregs ⊢
    exact ⟨fun _ _ => rfl, fun _ _ => rfl, hregs, rfl⟩)
theorem State.moved.bump (h : s.moved t tks qs as) {f : Fld} {n i : Nat} {w : Win} (hf : f.words i w ⊆ as) :
    s.moved (t.bump f n i w) tks qs as := h.wr hf
theorem State.moved.emit (h : s.moved t tks qs as) {o : Out} : s.moved (t.emit o) tks qs as :=
  h.trans ⟨fun _ _ => rfl, fun _ _ => rfl, .of_regs .refl rfl, rfl⟩
theorem State.moved.fired (h : s.moved t tks qs as) (hf : F.WDOG_COUNT_COUNT.words c (.die die) ⊆ as) :
    s.moved (t.fired die c) tks qs as :=
  (h.wr (v := 0) hf).trans ⟨fun _ _ => rfl, fun _ _ => rfl, .of_regs .refl rfl, rfl⟩
theorem State.moved.residue (h : s.moved t tks qs as) {cls : Nat} {ok : Bool} : s.moved (t.residue die y x c cls ok) tks qs as := by
  rw [State.residue]
  split
  · exact h
  · exact h.emit
theorem State.moved.tileFlags (h : s.moved t tks qs as) {g : Num.Flags} (hf : allFlags.words c (.tile die y x) ⊆ as) :
    s.moved (t.tileFlags die y x c g) tks qs as := by
  rw [State.tileFlags]
  split
  · exact h
  · exact h.wr (f := allFlags) hf
theorem State.moved.vecAdvance (h : s.moved t tks qs as) (hk : tileKey die y x c ∈ tks) : s.moved (t.vecAdvance die y x c) tks qs as := by
  rw [State.vecAdvance]
  dsimp only
  split
  · exact h.setTile hk
  split
  · exact h.setTile hk
  · exact h.setTile hk
theorem State.moved.vecIssued (h : s.moved t tks qs as) (hk : tileKey die y x c ∈ tks)
    (hf : F.TILE_VBUSY_COUNT.words c (.tile die y x) ⊆ as) (hw : F.WDOG_COUNT_COUNT.words c (.die die) ⊆ as) :
    s.moved (t.vecIssued die y x c) tks qs as := ((h.bump hf).fired hw).vecAdvance hk
theorem State.moved.foldl {α : Type} {l : List α} {g : State → α → State} (h : s.moved t tks qs as)
    (hg : ∀ t, ∀ e ∈ l, s.moved t tks qs as → s.moved (g t e) tks qs as) : s.moved (l.foldl g t) tks qs as := by
  induction l generalizing t with
  | nil => exact h
  | cons e l ih => exact ih (hg t e List.mem_cons_self h) fun t e he => hg t e (List.mem_cons_of_mem _ he)
theorem State.moved.popTok (h : s.moved t tks qs as) {q : Nat} (hk : queueKey die q c ∈ qs) : s.moved (t.popTok die q c) tks qs as :=
  h.setQueue hk

/-! ## Tile contexts -/

@[simp] theorem State.tile_setTile_self (s : State) (die y x c : Nat) (v : TileCtx) : (s.setTile die y x c v).tile die y x c = v :=
  SMap.getD_setD_self ..
theorem State.tile_congr {s t : State} (h : t.arr.tiles = s.arr.tiles) (die y x c : Nat) : t.tile die y x c = s.tile die y x c := by
  rw [State.tile, State.tile, h]
theorem State.tile_wr (s : State) (f : Fld) (v i : Nat) (w : Win) (die y x c : Nat) : (s.wr f v i w).tile die y x c = s.tile die y x c :=
  State.tile_congr (by rw [State.wr_regs_only]) ..
theorem State.tile_setQueue (s : State) (die q c : Nat) (v : Queue) (die' y x c' : Nat) :
    (s.setQueue die q c v).tile die' y x c' = s.tile die' y x c' := rfl
theorem State.tile_tileFlags (s : State) (die y x c : Nat) (g : Num.Flags) : (s.tileFlags die y x c g).tile die y x c = s.tile die y x c := by
  rw [State.tileFlags]
  split
  · rfl
  · exact State.tile_wr ..
theorem State.tile_residue (s : State) (die y x c cls : Nat) (ok : Bool) (c' : Nat) :
    (s.residue die y x c cls ok).tile die y x c' = s.tile die y x c' := by
  rw [State.residue]
  split <;> rfl
theorem State.tile_bump_fired (s : State) (die y x c : Nat) :
    ((s.bump F.TILE_VBUSY_COUNT 1 c (.tile die y x)).fired die c).tile die y x c = s.tile die y x c :=
  (State.tile_wr ..).trans (State.tile_wr ..)

/-- R68: the next iteration, word or wrap concerns the sequencer alone. -/
theorem State.tile_vecAdvance (s : State) (die y x c : Nat) :
    ((s.vecAdvance die y x c).tile die y x c).vregs = (s.tile die y x c).vregs ∧
    ((s.vecAdvance die y x c).tile die y x c).vsum = (s.tile die y x c).vsum := by
  rw [State.vecAdvance]
  dsimp only
  split
  · rw [State.tile_setTile_self]
    exact ⟨rfl, rfl⟩
  split
  · rw [State.tile_setTile_self]
    exact ⟨rfl, rfl⟩
  · rw [State.tile_setTile_self]
    exact ⟨rfl, rfl⟩
theorem State.tile_vecIssued (s : State) (die y x c : Nat) :
    ((s.vecIssued die y x c).tile die y x c).vregs = (s.tile die y x c).vregs ∧
    ((s.vecIssued die y x c).tile die y x c).vsum = (s.tile die y x c).vsum := by
  have h := State.tile_vecAdvance ((s.bump F.TILE_VBUSY_COUNT 1 c (.tile die y x)).fired die c) die y x c
  rw [State.tile_bump_fired] at h
  exact h

/-! ## Registers of a tile after an issue -/

theorem State.regs_vecAdvance (s : State) (die y x c : Nat) : (s.vecAdvance die y x c).regs = s.regs :=
  (State.only.refl (s := s) (may := [.arr])).vecAdvance.regs

/-- R61: a context of a compute tile. -/
structure CtxSite (y x c : Nat) : Prop where
  row : y < 24
  col : x < 24
  compute : isCompute y x = true
  ctx : c < 4

theorem CtxSite.has (h : CtxSite y x c) {f : Fld} {i : Nat} (hi : i < f.reg.info.count) (hs : f.reg.info.space = .ct := by rfl)
    (hw : f.firstWord + f.wordCount ≤ f.reg.info.words := by decide) : f.In i (.tile die y x) :=
  Fld.in_tile hi (by have := h.row; omega) (by have := h.col; omega) (by rw [hs]; exact h.compute) hw
theorem State.active_lt (h : s.active die = some c) : c < 4 := by
  rw [State.active] at h
  split at h
  · cases h
  · cases h
    exact State.rd_lt s F.DIE_ACTIVE_SLOT 0 (.die die)
/-- R97: an issue clears the watchdog's count and touches no other register. -/
theorem State.rd_fired (h : CtxSite y x c) (s : State) {f : Fld} {i : Nat} (hf : f.In i (.tile die y x)) :
    (s.fired die c).rd f i (.tile die y x) = s.rd f i (.tile die y x) := by
  have hsame : ∀ t : State, ∀ a : Arr, ({ t with arr := a } : State).rd f i (.tile die y x) = t.rd f i (.tile die y x) :=
    fun t a => State.rd_congr (show ({ t with arr := a } : State).regs = t.regs from rfl) ..
  rw [State.fired, hsame]
  exact State.rd_wr_other (Fld.in_die h.ctx) hf (.inr (.inr nofun))
theorem State.rd_fired_wdog (s : State) (die c : Nat) : (s.fired die c).rd F.WDOG_COUNT_COUNT c (.die die) = 0 := by
  have hsame : ∀ t : State, ∀ a : Arr, ({ t with arr := a } : State).rd F.WDOG_COUNT_COUNT c (.die die) = t.rd F.WDOG_COUNT_COUNT c (.die die) :=
    fun t a => State.rd_congr (show ({ t with arr := a } : State).regs = t.regs from rfl) ..
  rw [State.fired, hsame]
  exact State.rd_wr_fits (show 0 < 2 ^ 25 by decide)
theorem State.rd_residue (s : State) (die y x c cls : Nat) (ok : Bool) (f : Fld) (i : Nat) (w : Win) :
    (s.residue die y x c cls ok).rd f i w = s.rd f i w := by
  rw [State.residue]
  split
  · rfl
  · exact State.rd_congr (show (s.emit (.unitFault cls die y x c)).regs = s.regs from rfl) ..
/-- R58: the flags of an operation are gathered. -/
theorem State.rd_tileFlags_flags (s : State) (die y x c : Nat) (g : Num.Flags) :
    (s.tileFlags die y x c g).rd allFlags c (.tile die y x) = s.rd allFlags c (.tile die y x) ||| g.toNat := by
  rw [State.tileFlags]
  split
  next h => rw [h]; exact (Nat.or_zero _).symm
  · exact State.rd_wr_fits (f := allFlags) (Nat.or_lt_two_pow (State.rd_lt s allFlags c _) g.isLt)
theorem State.rd_tileFlags (h : CtxSite y x c) (s : State) (g : Num.Flags) {f : Fld} {i : Nat} (hf : f.In i (.tile die y x))
    (hne : f.reg ≠ .TILE_NUM_FLAGS) : (s.tileFlags die y x c g).rd f i (.tile die y x) = s.rd f i (.tile die y x) := by
  rw [State.tileFlags]
  split
  · rfl
  · exact State.rd_wr_other (f := allFlags) (h.has h.ctx) hf (.inl hne)
theorem State.rd_vecIssued (h : CtxSite y x c) (s : State) {f : Fld} {i : Nat} (hf : f.In i (.tile die y x)) (hne : f.reg ≠ .TILE_VBUSY) :
    (s.vecIssued die y x c).rd f i (.tile die y x) = s.rd f i (.tile die y x) := by
  rw [State.vecIssued, State.rd_congr (State.regs_vecAdvance ..), State.rd_fired h _ hf]
  exact State.rd_wr_other (h.has h.ctx) hf (.inl hne)
theorem State.rd_vecIssued_busy (h : CtxSite y x c) (s : State) : (s.vecIssued die y x c).rd F.TILE_VBUSY_COUNT c (.tile die y x) =
    (s.rd F.TILE_VBUSY_COUNT c (.tile die y x) + 1) % 2 ^ 32 := by
  rw [State.vecIssued, State.rd_congr (State.regs_vecAdvance ..), State.rd_fired h _ (h.has h.ctx)]
  exact State.rd_wr_self ..
theorem State.rd_vecIssued_wdog (s : State) (die y x c : Nat) : (s.vecIssued die y x c).rd F.WDOG_COUNT_COUNT c (.die die) = 0 := by
  rw [State.vecIssued, State.rd_congr (State.regs_vecAdvance ..), State.rd_fired_wdog]
end
end Sys2Proof.Machine
end

section
/-!
PROOF. The vector sequencer (R63, R67, R68, R74, R79, R371): an iteration between registers, lane by lane, and iterations with operands
and destinations of any kind.
-/
namespace Sys2Proof.Machine

set_option Elab.async false

/-! ## Lanes of tokens -/

theorem lane_eq (t : Tok) (w j : Nat) : lane t w j = t.toNat / 2 ^ (w * j) % 2 ^ w := by
  rw [lane, BitVec.extractLsb'_toNat, Nat.shiftRight_eq_div_pow]
/-- A number laid out in lanes: what stands in a lane is the value there. -/
theorem packNat_lane (w : Nat) (vs : List Nat) (j : Nat) : packNat w vs / 2 ^ (w * j) % 2 ^ w = vs.getD j 0 % 2 ^ w := by
  induction vs generalizing j with
  | nil => simp [packNat]
  | cons v vs ih =>
    have hpos : 0 < 2 ^ w := Nat.two_pow_pos w
    cases j with
    | zero => simp [packNat, Nat.add_mul_mod_self_left]
    | succ j =>
      rw [List.getD_cons_succ, ← ih j, packNat, Nat.mul_succ, Nat.add_comm (w * j), Nat.pow_add, ← Nat.div_div_eq_div_mul,
        Nat.add_mul_div_left _ _ hpos, Nat.div_eq_of_lt (Nat.mod_lt v hpos), Nat.zero_add]
/-- A number cut to 1024 bits keeps the lanes that lie in them. -/
theorem lane_ofNat {w j : Nat} (n : Nat) (h : w * (j + 1) ≤ 1024) : lane (BitVec.ofNat 1024 n) w j = n / 2 ^ (w * j) % 2 ^ w := by
  obtain ⟨r, hr⟩ := Nat.exists_eq_add_of_le h
  rw [lane_eq, BitVec.toNat_ofNat, hr, Nat.pow_add, Nat.mul_succ, Nat.pow_add, Nat.mul_assoc, Nat.mod_mul_right_div_self,
    Nat.mod_mul_right_mod]
theorem lane_packLanes {w j : Nat} (vs : List Nat) (h : w * (j + 1) ≤ 1024) : lane (packLanes w vs) w j = vs.getD j 0 % 2 ^ w := by
  rw [packLanes, lane_ofNat _ h, packNat_lane]
theorem lane_fits {w j : Nat} (h : j < 1024 / w) : w * (j + 1) ≤ 1024 := (Nat.mul_le_mul_left w h).trans (Nat.mul_div_le 1024 w)
theorem lane_packLanes_map {w j n : Nat} (f : Nat → Nat) (hj : j < n) (h : w * (j + 1) ≤ 1024) :
    lane (packLanes w ((List.range n).map f)) w j = f j % 2 ^ w := by
  rw [lane_packLanes _ h, List.getD_eq_getElem _ _ (by simpa using hj), List.getElem_map, List.getElem_range]
theorem lane_splat (v : Nat) {j : Nat} (hj : j < 32) : lane (splat 32 v) 32 j = v % 2 ^ 32 := by
  rw [splat, lane_packLanes _ (lane_fits hj), List.getD_eq_getElem _ _ (by simpa using hj), List.getElem_replicate, Nat.mod_mod]

/-! ## The lanes of an operation -/

/-- R74: the opcodes of lane operations. -/
def laneOps : List Nat := [0x20, 0x21, 0x22, 0x23, 0x24, 0x25, 0x26, 0x27, 0x28, 0x29, 0x2A, 0x2B, 0x30, 0x31, 0x32]
theorem mem_laneOps {die y x : Nat} {p : Sys2Proof.Instr × Nat} (hp : p ∈ laneCommands die y x) : p.2 ∈ laneOps :=
  List.mem_map_of_mem (f := Prod.snd) hp
/-- R74: an operation with fewer operands does not look at the others. -/
theorem laneOp_operands {o : Nat} (ho : o ∈ laneOps) (fmt imm a b c : Nat) :
    laneOp o fmt imm a (if 2 ≤ vecArity o then b else 0) (if 3 ≤ vecArity o then c else 0) = laneOp o fmt imm a b c :=
  (List.map_inj_left (f := fun o => laneOp o fmt imm a (if 2 ≤ vecArity o then b else 0) (if 3 ≤ vecArity o then c else 0))
    (g := fun o => laneOp o fmt imm a b c)).mp rfl o ho
theorem lane_zero (w j : Nat) : lane 0 w j = 0 := by
  rw [lane_eq, BitVec.ofNat_eq_ofNat, BitVec.toNat_zero, Nat.zero_div, Nat.zero_mod]
theorem mapLanes_operands {o : Nat} (ho : o ∈ laneOps) (fmt imm : Nat) (a b c : Tok) :
    mapLanes o fmt imm a (if 2 ≤ vecArity o then b else 0) (if 3 ≤ vecArity o then c else 0) = mapLanes o fmt imm a b c := by
  have hlane : ∀ i, laneOp o fmt imm (lane a (fmtWidth fmt) i) (lane (if 2 ≤ vecArity o then b else 0) (fmtWidth fmt) i)
      (lane (if 3 ≤ vecArity o then c else 0) (fmtWidth fmt) i) =
      laneOp o fmt imm (lane a (fmtWidth fmt) i) (lane b (fmtWidth fmt) i) (lane c (fmtWidth fmt) i) := fun i => by
    rw [apply_ite (lane · (fmtWidth fmt) i), apply_ite (lane · (fmtWidth fmt) i), lane_zero]
    exact laneOp_operands ho ..
  simp only [mapLanes, hlane]
theorem lane_mapLanes (o fmt imm : Nat) (a b c : Tok) {j : Nat} (hj : j < 1024 / fmtWidth fmt) :
    lane (mapLanes o fmt imm a b c).1 (fmtWidth fmt) j =
      (laneOp o fmt imm (lane a (fmtWidth fmt) j) (lane b (fmtWidth fmt) j) (lane c (fmtWidth fmt) j)).1 % 2 ^ fmtWidth fmt := by
  rw [mapLanes]
  dsimp only
  rw [List.map_map]
  exact lane_packLanes_map _ hj (lane_fits hj)

section
variable {s : State} {die y x c w : Nat}

/-! ## The sequencer in a started word -/

theorem State.inVecWord.site (h : s.inVecWord die y x c w) : CtxSite y x c := by
  obtain ⟨_, hy, hx, hct, hc, _⟩ := h
  exact ⟨hy, hx.trans_le s.cols_le, hct, State.active_lt hc⟩
theorem State.vecFire_of_inVecWord (h : s.inVecWord die y x c w) : s.vecFire die y x (opOpc w) = s.vecFireWord die y x c w := by
  obtain ⟨_, _, _, _, hc, hend, hlive, i, hi, hw⟩ := h
  have hadopt : s.adoptDue die y x c true = s := by
    rw [State.adoptDue]
    simp only [if_true, hend, Bool.false_eq_true, if_false]
  rw [State.vecFire]
  simp only [hc, hadopt, hi, hw, hlive, ne_eq, not_true_eq_false, if_false, if_true]
theorem exec_vector {p : Sys2Proof.Instr × Nat} (hp : p ∈ laneCommands die y x ++ tokenCommands die y x) :
    exec p.1 s = onCt s die y x (.next (s.vecFire die y x p.2)) :=
  (List.map_inj_left (f := fun p : Sys2Proof.Instr × Nat => exec p.1 s)
    (g := fun p => onCt s die y x (.next (s.vecFire die y x p.2)))).mp rfl p hp
theorem onCt_of_inVecWord (h : s.inVecWord die y x c w) (r : Res) : onCt s die y x r = r := by
  obtain ⟨hdie, hy, hx, hct, _⟩ := h
  exact if_pos ⟨hdie, hy, hx, hct⟩
/-- Neither VCOMB nor VSSEND is among the commands from operands to one destination. -/
theorem vector_ops {p : Sys2Proof.Instr × Nat} (hp : p ∈ laneCommands die y x ++ tokenCommands die y x) : p.2 ≠ 0x3A ∧ p.2 ≠ 0x3C :=
  (by decide : ∀ o ∈ laneOps ++ [0x34, 0x35, 0x36, 0x38, 0x39, 0x3D], o ≠ 0x3A ∧ o ≠ 0x3C) p.2
    (List.mem_map_of_mem (f := Prod.snd) hp : p.2 ∈ laneOps ++ [0x34, 0x35, 0x36, 0x38, 0x39, 0x3D])
theorem completes_vector {p : Sys2Proof.Instr × Nat} {P : State → Prop} (h : s.inVecWord die y x c w)
    (hp : p ∈ laneCommands die y x ++ tokenCommands die y x) (ho : opOpc w = p.2) (hP : P (s.vecIterate die y x c w)) :
    Completes p.1 s P := by
  obtain ⟨h1, h2⟩ := vector_ops hp
  refine ⟨_, (exec_vector hp).trans (onCt_of_inVecWord h _), ?_⟩
  rw [← ho, State.vecFire_of_inVecWord h, State.vecFireWord, if_neg (ho ▸ h1), if_neg (ho ▸ h2)]
  exact hP

/-! ## What an iteration writes -/

theorem consume_register {r : Nat} (hr : r < 32) (s : State) : s.consume die y x c r = s := by
  rw [State.consume, if_neg (by omega), if_neg (by omega), if_neg (by omega)]
theorem consumeAll_registers {rs : List Nat} (hrs : ∀ r ∈ rs, r < 32) (s : State) : s.consumeAll die y x c rs = s := by
  rw [State.consumeAll]
  have h : ∀ l : List Nat, (∀ r ∈ l, r < 32) → l.foldl (fun s sp => s.consume die y x c sp) s = s := by
    intro l hl
    induction l with
    | nil => rfl
    | cons r l ih =>
      rw [List.foldl_cons, consume_register (hl r List.mem_cons_self)]
      exact ih fun q hq => hl q (List.mem_cons_of_mem _ hq)
  exact h _ fun r hr => hrs r (List.mem_eraseDups.mp hr)
theorem State.vreg_congr {s t : State} (h : (t.tile die y x c).vregs = (s.tile die y x c).vregs) (r : Nat) :
    t.vreg die y x c r = s.vreg die y x c r := by
  rw [State.vreg, State.vreg, h]
/-- R63: a register written holds what was written, the others what they held. -/
theorem State.vreg_writeDst {d : Nat} (hd : d < 32) (s : State) (lw : Nat) (v : Tok) :
    (s.writeDst die y x c d lw v).vreg die y x c d = v ∧
    ∀ r, r ≠ d → (s.writeDst die y x c d lw v).vreg die y x c r = s.vreg die y x c r := by
  rw [State.writeDst, if_pos hd]
  dsimp only
  refine ⟨?_, fun r hr => ?_⟩
  · rw [State.vreg, State.tile_setTile_self]
    exact SMap.getD_setD_self ..
  · rw [State.vreg, State.tile_setTile_self]
    exact SMap.getD_setD_of_ne _ _ _ hr _
theorem State.moved_writeDst {d : Nat} (hd : d < 32) (s : State) (lw : Nat) (v : Tok) :
    s.moved (s.writeDst die y x c d lw v) [tileKey die y x c] [] [] := by
  rw [State.writeDst, if_pos hd]
  exact State.moved.refl.setTile List.mem_cons_self

/-- R58, R63, R68, R371: an iteration that has written a register, gathered its flags and reported its residue. -/
def State.issued (s : State) (die y x c d lw : Nat) (v : Tok) (f : Num.Flags) (ok : Bool) : State :=
  (((s.writeDst die y x c d lw v).tileFlags die y x c f).residue die y x c 0x0C ok).vecIssued die y x c

/-- The registers of a tile's context that an iteration writes. -/
def issueWords (die y x c : Nat) : List Nat :=
  allFlags.words c (.tile die y x) ++ F.TILE_VBUSY_COUNT.words c (.tile die y x) ++ F.WDOG_COUNT_COUNT.words c (.die die)
theorem allFlags_issueWords : allFlags.words c (.tile die y x) ⊆ issueWords die y x c := by
  rw [issueWords, List.append_assoc]
  exact List.subset_append_left ..
theorem busy_issueWords : F.TILE_VBUSY_COUNT.words c (.tile die y x) ⊆ issueWords die y x c := by
  rw [issueWords, List.append_assoc]
  exact List.Subset.trans (List.subset_append_left ..) (List.subset_append_right ..)
theorem wdog_issueWords : F.WDOG_COUNT_COUNT.words c (.die die) ⊆ issueWords die y x c := List.subset_append_right ..

/-- R68: an issue, as the frame of its parts. -/
theorem State.moved.issue {t : State} {qs : List Nat} (h : s.moved t [tileKey die y x c] qs (issueWords die y x c)) {f : Num.Flags} {ok : Bool} :
    s.moved (((t.tileFlags die y x c f).residue die y x c 0x0C ok).vecIssued die y x c) [tileKey die y x c] qs (issueWords die y x c) :=
  ((h.tileFlags allFlags_issueWords).residue).vecIssued List.mem_cons_self busy_issueWords wdog_issueWords
theorem State.out_vecIssued (s : State) (die y x c : Nat) : (s.vecIssued die y x c).out = s.out :=
  (State.only.refl (s := s) (may := [.regs, .arr])).vecIssued.out
theorem State.out_tileFlags (s : State) (die y x c : Nat) (f : Num.Flags) : (s.tileFlags die y x c f).out = s.out :=
  (State.only.refl (s := s) (may := [.regs])).tileFlags.out
theorem State.out_residue (s : State) (die y x c : Nat) (ok : Bool) :
    (s.residue die y x c 0x0C ok).out = if ok then s.out else .unitFault 0x0C die y x c :: s.out := by
  rw [State.residue]
  cases ok <;> rfl
/-- R68, R97: what an issue counts and sends. -/
theorem State.vecIterated_of_moved (hsite : CtxSite y x c) {u : State} {qs : List Nat} {f : Num.Flags} {ok : Bool}
    (h : s.moved u [tileKey die y x c] qs (issueWords die y x c)) (hout : u.out = s.out)
    (hbusy : u.rd F.TILE_VBUSY_COUNT c (.tile die y x) = s.rd F.TILE_VBUSY_COUNT c (.tile die y x)) :
    s.vecIterated (((u.tileFlags die y x c f).residue die y x c 0x0C ok).vecIssued die y x c) die y x c qs ok := by
  have hm := h.issue (f := f) (ok := ok)
  refine ⟨?_, State.rd_vecIssued_wdog .., fun k hk => hm.tiles k (by simpa using hk), hm.queues, hm.regs, ?_, hm.rest⟩
  · rw [State.rd_vecIssued_busy hsite, State.rd_residue, State.rd_tileFlags hsite _ _ (f := F.TILE_VBUSY_COUNT) (hsite.has hsite.ctx) nofun,
      hbusy]
  · rw [State.out_vecIssued, State.out_residue, State.out_tileFlags, hout]
theorem State.writesReg_issued (hsite : CtxSite y x c) {d : Nat} (hd : d < 32) (lw : Nat) (v : Tok) (f : Num.Flags) (ok : Bool) :
    s.writesReg (s.issued die y x c d lw v f ok) die y x c d v f ok := by
  have hregs : ((s.issued die y x c d lw v f ok).tile die y x c).vregs = ((s.writeDst die y x c d lw v).tile die y x c).vregs := by
    rw [State.issued, (State.tile_vecIssued ..).1, State.tile_residue, State.tile_tileFlags]
  have hw : (s.writeDst die y x c d lw v).regs = s.regs := by rw [State.writeDst, if_pos hd]; rfl
  have hout : (s.writeDst die y x c d lw v).out = s.out := by rw [State.writeDst, if_pos hd]; rfl
  obtain ⟨hself, hother⟩ := State.vreg_writeDst (die := die) (y := y) (x := x) (c := c) hd s lw v
  refine ⟨(State.vreg_congr hregs d).trans hself, fun r hr => (State.vreg_congr hregs r).trans (hother r hr), ?_,
    State.vecIterated_of_moved hsite ((State.moved_writeDst hd s lw v).mono (List.Subset.refl _) (List.Subset.refl _) (List.nil_subset _)) hout
      (State.rd_congr hw ..)⟩
  rw [State.issued, State.rd_vecIssued hsite _ (f := allFlags) (hsite.has hsite.ctx) nofun, State.rd_residue, State.rd_tileFlags_flags, State.rd_congr hw]
theorem State.writesReg.value {t : State} {d : Nat} {v : Tok} {f : Num.Flags} {ok : Bool} (h : s.writesReg t die y x c d v f ok) :
    s.writesReg t die y x c d (t.vreg die y x c d) f ok := by
  rw [h.1]
  exact h
theorem State.dstRoom_register {d : Nat} (hd : d < 32) (s : State) : s.dstRoom die y x c d = true := by
  rw [State.dstRoom, if_neg (by omega), if_neg (by omega)]
/-- R63, R68: an iteration between registers writes its result. -/
theorem completes_registers {p : Sys2Proof.Instr × Nat} {r : VecResult} {P : State → Prop} (h : s.inVecWord die y x c w)
    (hp : p ∈ laneCommands die y x ++ tokenCommands die y x) (ho : opOpc w = p.2)
    (hr : s.vecEval die y x c w (s.tile die y x c).vIter = some r) (huses : ∀ q ∈ r.uses, q < 32) (hd : r.dst < 32)
    (hP : ∀ t, s.writesReg t die y x c r.dst r.value r.flags r.checked → P t) : Completes p.1 s P := by
  refine completes_vector h hp ho ?_
  rw [State.vecIterate]
  simp only [hr, State.dstRoom_register hd, if_true]
  rw [consumeAll_registers huses]
  exact hP _ (State.writesReg_issued h.site hd _ _ _ _)
theorem stepSpec_lt {r : Nat} (hr : r < 32) (k : Nat) : stepSpec r k < 32 := by
  rw [stepSpec, if_pos hr]
  exact Nat.mod_lt _ (by decide)
theorem stepSpec_zero {r : Nat} (hr : r < 32) : stepSpec r 0 = r := by
  rw [stepSpec, if_pos hr, Nat.add_zero, Nat.mod_eq_of_lt hr]
theorem source_register {r : Nat} (hr : r < 32) (width : Nat) : s.source die y x c r width = some (s.vreg die y x c r) := by
  rw [State.source]
  exact if_pos hr

/-! ## Lane operations -/

theorem vecEval_lane (ho : opOpc w ∈ laneOps) (ha : opA w < 32) (hb : opB w < 32) (hc : opC w < 32) (i : Nat) :
    let k := if bitOf (opMod w) 1 then i else 0
    let a := s.vreg die y x c (stepSpec (opA w) k)
    let b := if 2 ≤ vecArity (opOpc w) then s.vreg die y x c (stepSpec (opB w) k) else 0
    let d := if 3 ≤ vecArity (opOpc w) then s.vreg die y x c (stepSpec (opC w) k) else 0
    s.vecEval die y x c w i = some
      { uses := [stepSpec (opA w) k] ++ (if 2 ≤ vecArity (opOpc w) then [stepSpec (opB w) k] else []) ++
          (if 3 ≤ vecArity (opOpc w) then [stepSpec (opC w) k] else []),
        dst := stepSpec (opDst w) k, lw := fmtWidth (opFmt w), value := (mapLanes (opOpc w) (opFmt w) (opImm w) a b d).1,
        flags := (mapLanes (opOpc w) (opFmt w) (opImm w) a b d).2, checked := lanesResidueOk (opOpc w) (opFmt w) a b d } := by
  have hne : ∀ o ∈ laneOps, o ≠ 0x34 ∧ o ≠ 0x35 ∧ o ≠ 0x36 ∧ o ≠ 0x38 ∧ o ≠ 0x39 ∧ o ≠ 0x3D := by decide
  obtain ⟨h1, h2, h3, h4, h5, h6⟩ := hne _ ho
  intro k a b d
  have hif : ∀ (q : Prop) [Decidable q] (v : Tok), (if q then some v else some 0) = some (if q then v else 0) :=
    fun q _ v => (apply_ite some q v 0).symm
  have hsrc : ∀ {r : Nat}, r < 32 → ∀ j width, s.source die y x c (stepSpec r j) width = some (s.vreg die y x c (stepSpec r j)) :=
    fun hr j => source_register (stepSpec_lt hr j)
  rw [State.vecEval]
  simp only [h1, h2, h3, h4, h5, h6, if_false, hsrc ha, hsrc hb, hsrc hc, Option.bind_some, Option.map_some, hif]
  rfl
end

/-- Settles O34: each iteration of a lane operation writes the lanes of its result. -/
theorem laneOperationsMapTheirOperands : Obligations.LaneOperationsMapTheirOperands := by
  intro s die y x c w h ha hb hc hd p hp ho k a b d n
  have hops : opOpc w ∈ laneOps := ho ▸ mem_laneOps hp
  refine completes_registers h (List.mem_append_left _ hp) ho (vecEval_lane hops ha hb hc _) ?_ (stepSpec_lt hd k) fun t ht => ?_
  · intro q hq
    rw [List.mem_append, List.mem_append, List.mem_singleton] at hq
    rcases hq with (rfl | hq) | hq
    · exact stepSpec_lt ha _
    · split at hq
      · exact List.mem_singleton.mp hq ▸ stepSpec_lt hb _
      · cases hq
    · split at hq
      · exact List.mem_singleton.mp hq ▸ stepSpec_lt hc _
      · cases hq
  · dsimp only at ht
    rw [mapLanes_operands hops, ho] at ht
    exact ⟨fun j hj => ht.1 ▸ lane_mapLanes _ _ _ _ _ _ hj, ht.value⟩
end Sys2Proof.Machine
end

section
/-!
PROOF. Moves, shuffles, reductions and conversions between registers (R46, R47, R74), and vector iterations with operands and
destinations of any kind (R63, R79, R81).
-/
namespace Sys2Proof.Machine

set_option Elab.async false

/-! ## A part of a token replaced -/

/-- Bits that agree give fields that agree. -/
theorem bits_congr {n k m a b : Nat} (h : ∀ i < m, n.testBit (a + i) = k.testBit (b + i)) : n / 2 ^ a % 2 ^ m = k / 2 ^ b % 2 ^ m := by
  refine Nat.eq_of_testBit_eq fun i => ?_
  rw [Nat.testBit_mod_two_pow, Nat.testBit_mod_two_pow, Nat.testBit_div_two_pow, Nat.testBit_div_two_pow]
  by_cases hi : i < m
  · rw [Nat.add_comm i a, Nat.add_comm i b, h i hi]
  · simp [hi]
/-- `n` with `len` bits from bit `lo` replaced, as its three parts. -/
theorem replaced_eq (n lo len v : Nat) : n - n / 2 ^ lo % 2 ^ len * 2 ^ lo + v % 2 ^ len * 2 ^ lo =
    2 ^ lo * (2 ^ len * (n / 2 ^ lo / 2 ^ len) + v % 2 ^ len) + n % 2 ^ lo := by
  have h1 := Nat.div_add_mod n (2 ^ lo)
  have h2 := Nat.div_add_mod (n / 2 ^ lo) (2 ^ len)
  generalize n / 2 ^ lo / 2 ^ len = c at *
  generalize n / 2 ^ lo % 2 ^ len = b at *
  rw [← h2, Nat.mul_add] at h1
  rw [Nat.mul_add, Nat.mul_comm b, Nat.mul_comm (v % 2 ^ len)]
  omega
theorem testBit_replaced (n lo len v i : Nat) : (n - n / 2 ^ lo % 2 ^ len * 2 ^ lo + v % 2 ^ len * 2 ^ lo).testBit i =
    if lo ≤ i ∧ i < lo + len then v.testBit (i - lo) else n.testBit i := by
  rw [replaced_eq, Nat.testBit_two_pow_mul_add _ (Nat.mod_lt _ (Nat.two_pow_pos lo)),
    Nat.testBit_two_pow_mul_add _ (Nat.mod_lt _ (Nat.two_pow_pos len)), Nat.testBit_mod_two_pow, Nat.testBit_mod_two_pow,
    Nat.testBit_div_two_pow, Nat.testBit_div_two_pow]
  by_cases h1 : i < lo
  · rw [if_pos h1, if_neg (by omega)]
    simp [h1]
  · rw [if_neg h1]
    by_cases h2 : i - lo < len
    · rw [if_pos h2, if_pos (by omega)]
      simp [h2]
    · rw [if_neg h2, if_neg (by omega), show i - lo - len + len + lo = i by omega]
theorem lane_putTok_inside {t : Tok} {lo len v m i j : Nat} (hfit : m * (j + 1) ≤ 1024) (hj : m * j = lo + m * i) (hi : m * (i + 1) ≤ len) :
    lane (putTok t lo len v) m j = v / 2 ^ (m * i) % 2 ^ m := by
  rw [putTok, lane_ofNat _ hfit]
  refine bits_congr fun k hk => ?_
  rw [Nat.mul_succ] at hi
  rw [testBit_replaced, if_pos (by omega), show m * j + k - lo = m * i + k by omega]
theorem lane_putTok_outside {t : Tok} {lo len v m j : Nat} (hfit : m * (j + 1) ≤ 1024) (hj : m * (j + 1) ≤ lo ∨ lo + len ≤ m * j) :
    lane (putTok t lo len v) m j = lane t m j := by
  rw [putTok, lane_ofNat _ hfit, lane_eq]
  refine bits_congr fun k hk => ?_
  rw [Nat.mul_succ] at hj
  rw [testBit_replaced, if_neg (by omega)]

theorem fmtWidth_cases (f : Nat) : fmtWidth f = 8 ∨ fmtWidth f = 16 ∨ fmtWidth f = 32 := by
  rw [fmtWidth.eq_def]
  split <;> simp

section
variable {s : State} {die y x c w : Nat}

/-! ## Moves, shuffles, reductions and MX formats -/

theorem vecEval_mov (ho : opOpc w = 0x3D) (ha : opA w < 32) (hd : opDst w < 32) (hinc : bitOf (opMod w) 1 = false) (i : Nat) :
    s.vecEval die y x c w i = some ⟨[opA w], opDst w, fmtWidth (opFmt w), s.vreg die y x c (opA w), 0, true⟩ := by
  simp [State.vecEval, ho, hinc, stepSpec_zero ha, stepSpec_zero hd, source_register ha]
theorem completes_vmov (h : s.inVecWord die y x c w) (ha : opA w < 32) (hd : opDst w < 32) (hinc : bitOf (opMod w) 1 = false)
    (ho : opOpc w = 0x3D) : Completes (.vmov die y x) s (fun t => s.writesReg t die y x c (opDst w) (s.vreg die y x c (opA w)) 0) :=
  completes_registers (p := (.vmov die y x, 0x3D)) h (by simp [laneCommands, tokenCommands]) ho (vecEval_mov ho ha hd hinc _) (by simpa using ha)
    hd fun _ ht => ht
/-- R74: a shuffle by an immediate looks at no index. -/
theorem shufIndex_imm {imm : Nat} (h : imm / 64 % 4 ≠ 3) (b : Tok) : shufIndex imm (0#1024) = shufIndex imm b := by
  funext i
  have hlt : imm / 64 % 4 < 4 := Nat.mod_lt _ (by decide)
  generalize hk : imm / 64 % 4 = k at h hlt
  rw [shufIndex, shufIndex, hk]
  match k, h, hlt with
  | 0, _, _ => rfl
  | 1, _, _ => rfl
  | 2, _, _ => rfl
  | 3, h, _ => exact absurd rfl h
theorem vecEval_shuf (ho : opOpc w = 0x38) (ha : opA w < 32) (hb : opB w < 32) (hd : opDst w < 32) (hinc : bitOf (opMod w) 1 = false) (i : Nat) :
    s.vecEval die y x c w i = some ⟨if opImm w / 64 % 4 = 3 then [opA w, opB w] else [opA w], opDst w, 32,
      packLanes 32 ((List.range 32).map (fun j => lane (s.vreg die y x c (opA w)) 32 (shufIndex (opImm w) (s.vreg die y x c (opB w)) j))), 0,
      true⟩ := by
  by_cases hidx : opImm w / 64 % 4 = 3
  · simp [State.vecEval, ho, hinc, stepSpec_zero ha, stepSpec_zero hb, stepSpec_zero hd, source_register ha, source_register hb, hidx]
  · simp [State.vecEval, ho, hinc, stepSpec_zero ha, stepSpec_zero hd, source_register ha, hidx, shufIndex_imm hidx (s.vreg die y x c (opB w))]
theorem completes_vshuf (h : s.inVecWord die y x c w) (ha : opA w < 32) (hb : opB w < 32) (hd : opDst w < 32)
    (hinc : bitOf (opMod w) 1 = false) (ho : opOpc w = 0x38) :
    Completes (.vshuf die y x) s (fun t =>
      (∀ j < 32, lane (t.vreg die y x c (opDst w)) 32 j =
        lane (s.vreg die y x c (opA w)) 32 (shufIndex (opImm w) (s.vreg die y x c (opB w)) j)) ∧
      s.writesReg t die y x c (opDst w) (t.vreg die y x c (opDst w)) 0) := by
  refine completes_registers (p := (.vshuf die y x, 0x38)) h (by simp [laneCommands, tokenCommands]) ho (vecEval_shuf ho ha hb hd hinc _) ?_
    hd fun t ht => ⟨fun j hj => ?_, ht.value⟩
  · dsimp only
    split
    · simp [ha, hb]
    · simp [ha]
  · dsimp only at ht
    rw [ht.1, lane_packLanes_map _ hj (by omega), lane_eq, Nat.mod_mod]
theorem vecEval_red (ho : opOpc w = 0x39) (ha : opA w < 32) (hd : opDst w < 32) (hinc : bitOf (opMod w) 1 = false) (i : Nat) :
    s.vecEval die y x c w i = some ⟨[opA w], opDst w, 32, splat 32 (reduce (opFmt w) (opImm w) (lanes (s.vreg die y x c (opA w)) 32)).1,
      (reduce (opFmt w) (opImm w) (lanes (s.vreg die y x c (opA w)) 32)).2, true⟩ := by
  simp [State.vecEval, ho, hinc, stepSpec_zero ha, stepSpec_zero hd, source_register ha]
theorem completes_vred (h : s.inVecWord die y x c w) (ha : opA w < 32) (hd : opDst w < 32) (hinc : bitOf (opMod w) 1 = false)
    (ho : opOpc w = 0x39) :
    Completes (.vred die y x) s (fun t =>
      (∀ j < 32, lane (t.vreg die y x c (opDst w)) 32 j = (reduce (opFmt w) (opImm w) (lanes (s.vreg die y x c (opA w)) 32)).1 % 2 ^ 32) ∧
      s.writesReg t die y x c (opDst w) (t.vreg die y x c (opDst w)) (reduce (opFmt w) (opImm w) (lanes (s.vreg die y x c (opA w)) 32)).2) := by
  refine completes_registers (p := (.vred die y x, 0x39)) h (by simp [laneCommands, tokenCommands]) ho (vecEval_red ho ha hd hinc _)
    (by simpa using ha) hd fun t ht => ⟨fun j hj => ?_, ht.value⟩
  dsimp only at ht
  rw [ht.1, lane_splat _ hj]
theorem vecEval_mxup (ho : opOpc w = 0x36) (ha : opA w < 32) (hd : opDst w < 32) (hinc : bitOf (opMod w) 1 = false) (i : Nat) :
    s.vecEval die y x c w i = some ⟨[opA w], opDst w, 32,
      (mxUnpack (opFmt w) (s.vreg die y x c (opA w)) (opImm w / 16 % 4 % mxSlots (opFmt w))).1,
      (mxUnpack (opFmt w) (s.vreg die y x c (opA w)) (opImm w / 16 % 4 % mxSlots (opFmt w))).2, true⟩ := by
  simp [State.vecEval, ho, hinc, stepSpec_zero ha, stepSpec_zero hd, source_register ha]
theorem completes_vmxup (h : s.inVecWord die y x c w) (ha : opA w < 32) (hd : opDst w < 32) (hinc : bitOf (opMod w) 1 = false)
    (ho : opOpc w = 0x36) :
    Completes (.vmxup die y x) s (fun t =>
      let r := mxUnpack (opFmt w) (s.vreg die y x c (opA w)) (opImm w / 16 % 4 % mxSlots (opFmt w))
      s.writesReg t die y x c (opDst w) r.1 r.2) :=
  completes_registers (p := (.vmxup die y x, 0x36)) h (by simp [laneCommands, tokenCommands]) ho (vecEval_mxup ho ha hd hinc _)
    (by simpa using ha) hd fun _ ht => ht
theorem oldDst_register {r : Nat} (hr : r < 32) (s : State) : s.oldDst die y x c r = s.vreg die y x c r := if_pos hr
theorem vecEval_mxpk (ho : opOpc w = 0x35) (ha : opA w < 32) (hd : opDst w < 32) (hinc : bitOf (opMod w) 1 = false) (i : Nat) :
    let half := if opFmt w = 1 then 32 * (opImm w / 64 % 2) else 0
    let r := mxPack (opImm w % 16)
      ((List.range 32).map (fun j => Num.decode (fmtF (opFmt w)) (lane (s.vreg die y x c (opA w)) (fmtWidth (opFmt w)) (half + j))))
      (s.vreg die y x c (opDst w)) (opImm w / 16 % 4 % mxSlots (opImm w % 16))
    s.vecEval die y x c w i = some ⟨[opA w], opDst w, 8, r.1, r.2, true⟩ := by
  simp [State.vecEval, ho, hinc, stepSpec_zero ha, stepSpec_zero hd, source_register ha, oldDst_register hd]
theorem completes_vmxpk (h : s.inVecWord die y x c w) (ha : opA w < 32) (hd : opDst w < 32) (hinc : bitOf (opMod w) 1 = false)
    (ho : opOpc w = 0x35) :
    Completes (.vmxpk die y x) s (fun t =>
      let half := if opFmt w = 1 then 32 * (opImm w / 64 % 2) else 0
      let r := mxPack (opImm w % 16)
        ((List.range 32).map (fun j => Num.decode (fmtF (opFmt w)) (lane (s.vreg die y x c (opA w)) (fmtWidth (opFmt w)) (half + j))))
        (s.vreg die y x c (opDst w)) (opImm w / 16 % 4 % mxSlots (opImm w % 16))
      s.writesReg t die y x c (opDst w) r.1 r.2) :=
  completes_registers (p := (.vmxpk die y x, 0x35)) h (by simp [laneCommands, tokenCommands]) ho (vecEval_mxpk ho ha hd hinc _)
    (by simpa using ha) hd fun _ ht => ht

/-! ## Conversions -/

/-- R46, R74: a lane of register `a` converted as word `w` says. -/
def convOf (w : Nat) (a : Tok) (j : Nat) : Nat × Num.Flags := convLane (opFmt w) (opImm w % 16) (bitOf (opMod w) 0) (lane a (fmtWidth (opFmt w)) j)
/-- R74: what a conversion leaves in its destination: the part that IMM selects of a narrower format, or all of a wider one. -/
def convTok (w : Nat) (a old : Tok) : Tok :=
  let n := fmtWidth (opFmt w)
  let m := fmtWidth (opImm w % 16)
  let part := opImm w / 16 % 4
  if m < n then
    putTok old (part % (n / m) * (1024 / n) * m) (1024 / n * m) (packNat m ((List.range (1024 / n)).map (fun j => (convOf w a j).1)))
  else packLanes m ((List.range (1024 / m)).map (fun j => (convOf w a (part % (m / n) * (1024 / m) + j)).1))
theorem vecEval_cvt (ho : opOpc w = 0x34) (ha : opA w < 32) (hd : opDst w < 32) (hinc : bitOf (opMod w) 1 = false) (i : Nat) :
    ∃ lw f, s.vecEval die y x c w i =
      some ⟨[opA w], opDst w, lw, convTok w (s.vreg die y x c (opA w)) (s.vreg die y x c (opDst w)), f, true⟩ := by
  by_cases hmn : fmtWidth (opImm w % 16) < fmtWidth (opFmt w)
  · refine ⟨fmtWidth (opImm w % 16), ?_, ?_⟩
    rotate_left
    · simp only [State.vecEval, ho, hinc, if_true, if_false, Bool.false_eq_true, stepSpec_zero ha, stepSpec_zero hd, source_register ha,
        oldDst_register hd, hmn, convTok, Option.map_some, List.map_map, Nat.add_zero]
      rfl
  · have hfirst : (if fmtWidth (opImm w % 16) / fmtWidth (opFmt w) = 1 then 0
        else opImm w / 16 % 4 % (fmtWidth (opImm w % 16) / fmtWidth (opFmt w)) * (1024 / fmtWidth (opImm w % 16))) =
        opImm w / 16 % 4 % (fmtWidth (opImm w % 16) / fmtWidth (opFmt w)) * (1024 / fmtWidth (opImm w % 16)) := by
      split
      next h => rw [h, Nat.mod_one, Nat.zero_mul]
      · rfl
    refine ⟨fmtWidth (opImm w % 16), ?_, ?_⟩
    rotate_left
    · simp only [State.vecEval, ho, hinc, if_true, if_false, Bool.false_eq_true, stepSpec_zero ha, stepSpec_zero hd, source_register ha, ite_self,
        hmn, convTok, Option.map_some, List.map_map, Nat.add_zero, hfirst]
      rfl
theorem parts_fit {m n : Nat} (hm : m = 8 ∨ m = 16 ∨ m = 32) (hn : n = 8 ∨ n = 16 ∨ n = 32) (h : m < n) (part : Nat) {j : Nat}
    (hj : j < 1024 / n) : m * (part % (n / m) * (1024 / n) + j + 1) ≤ 1024 := by
  rcases hm with rfl | rfl | rfl <;> rcases hn with rfl | rfl | rfl <;> norm_num at hj ⊢ <;> omega
theorem parts_apart {m n : Nat} (hm : m = 8 ∨ m = 16 ∨ m = 32) (hn : n = 8 ∨ n = 16 ∨ n = 32) (h : m < n) {part j : Nat}
    (hne : j / (1024 / n) ≠ part % (n / m)) : m * (j + 1) ≤ part % (n / m) * (1024 / n) * m ∨
      part % (n / m) * (1024 / n) * m + 1024 / n * m ≤ m * j := by
  rcases hm with rfl | rfl | rfl <;> rcases hn with rfl | rfl | rfl <;> norm_num at hne ⊢ <;> omega
section
variable {a old : Tok} {j : Nat}

theorem lane_convTok_part (h : fmtWidth (opImm w % 16) < fmtWidth (opFmt w)) (hj : j < 1024 / fmtWidth (opFmt w)) :
    lane (convTok w a old) (fmtWidth (opImm w % 16))
      (opImm w / 16 % 4 % (fmtWidth (opFmt w) / fmtWidth (opImm w % 16)) * (1024 / fmtWidth (opFmt w)) + j) =
      (convOf w a j).1 % 2 ^ fmtWidth (opImm w % 16) := by
  rw [convTok]
  simp only [if_pos h]
  rw [lane_putTok_inside (i := j) (parts_fit (fmtWidth_cases _) (fmtWidth_cases _) h _ hj) (by ring)
    (by rw [Nat.mul_comm _ (j + 1)]; exact Nat.mul_le_mul_right _ hj), packNat_lane, List.getD_eq_getElem _ _ (by simpa using hj),
    List.getElem_map, List.getElem_range]
theorem lane_convTok_kept (h : fmtWidth (opImm w % 16) < fmtWidth (opFmt w)) (hj : j < 1024 / fmtWidth (opImm w % 16))
    (hne : j / (1024 / fmtWidth (opFmt w)) ≠ opImm w / 16 % 4 % (fmtWidth (opFmt w) / fmtWidth (opImm w % 16))) :
    lane (convTok w a old) (fmtWidth (opImm w % 16)) j = lane old (fmtWidth (opImm w % 16)) j := by
  rw [convTok]
  simp only [if_pos h]
  exact lane_putTok_outside (lane_fits hj) (parts_apart (fmtWidth_cases _) (fmtWidth_cases _) h hne)
theorem lane_convTok_wide (h : fmtWidth (opFmt w) ≤ fmtWidth (opImm w % 16)) (hj : j < 1024 / fmtWidth (opImm w % 16)) :
    lane (convTok w a old) (fmtWidth (opImm w % 16)) j =
      (convOf w a (opImm w / 16 % 4 % (fmtWidth (opImm w % 16) / fmtWidth (opFmt w)) * (1024 / fmtWidth (opImm w % 16)) + j)).1 %
        2 ^ fmtWidth (opImm w % 16) := by
  rw [convTok]
  simp only [if_neg (Nat.not_lt.mpr h)]
  exact lane_packLanes_map _ hj (lane_fits hj)
end
theorem completes_vcvt (h : s.inVecWord die y x c w) (ha : opA w < 32) (hd : opDst w < 32) (hinc : bitOf (opMod w) 1 = false)
    (ho : opOpc w = 0x34) :
    Completes (.vcvt die y x) s (fun t =>
      let v := t.vreg die y x c (opDst w)
      v = convTok w (s.vreg die y x c (opA w)) (s.vreg die y x c (opDst w)) ∧ ∃ f, s.writesReg t die y x c (opDst w) v f) := by
  obtain ⟨lw, f, hr⟩ := vecEval_cvt (s := s) (die := die) (y := y) (x := x) (c := c) ho ha hd hinc (s.tile die y x c).vIter
  exact completes_registers (p := (.vcvt die y x, 0x34)) h (by simp [laneCommands, tokenCommands]) ho hr (by simpa using ha) hd
    fun t ht => ⟨ht.1, f, ht.value⟩
theorem Completes.mono {i : Sys2Proof.Instr} {P Q : State → Prop} (h : Completes i s P) (hPQ : ∀ t, P t → Q t) : Completes i s Q := by
  obtain ⟨t, ht, hP⟩ := h
  exact ⟨t, ht, hPQ t hP⟩

/-! ## Operands and destinations of any kind -/

/-- R97: a producer that waits takes nothing: every operand reads as before. -/
theorem source_waitDst (d sp width : Nat) : (s.waitDst die y x c d).source die y x c sp width = s.source die y x c sp width := by
  rw [State.waitDst]
  split
  · have hhead : ∀ q, (s.markWaiting die (outPort y x d) c).headTok die q c = s.headTok die q c := fun q => by
      rw [State.headTok, State.headTok, State.markWaiting]
      by_cases hq : q = outPort y x d
      · rw [hq, State.queue_setQueue_self]
      · rw [State.queue_setQueue_of_ne _ _ _ _ hq]
    have hport : ∀ net p, (s.markWaiting die (outPort y x d) c).portQueue die y x c net p = s.portQueue die y x c net p := fun _ _ => rfl
    have htile : (s.markWaiting die (outPort y x d) c).tile die y x c = s.tile die y x c := rfl
    have hpm : ∀ k, (s.markWaiting die (outPort y x d) c).pm die y x c k true = s.pm die y x c k true := fun _ => rfl
    simp only [State.source, hhead, hport, htile, hpm]
  · rfl
theorem rd_busy_consume (s : State) (sp : Nat) :
    (s.consume die y x c sp).rd F.TILE_VBUSY_COUNT c (.tile die y x) = s.rd F.TILE_VBUSY_COUNT c (.tile die y x) :=
  State.rd_congr (State.only.refl (s := s) (may := [.arr])).consume.regs ..
theorem rd_busy_consumeAll (s : State) (l : List Nat) :
    (s.consumeAll die y x c l).rd F.TILE_VBUSY_COUNT c (.tile die y x) = s.rd F.TILE_VBUSY_COUNT c (.tile die y x) :=
  State.rd_congr (State.only.refl (s := s) (may := [.arr])).consumeAll.regs ..
/-- R81: a token that spills is counted by its die. -/
theorem rd_pushTok (hsite : CtxSite y x c) (s : State) (q : Nat) (v : Tok) {f : Fld} {i : Nat} (hf : f.In i (.tile die y x)) :
    (s.pushTok die q c v).rd f i (.tile die y x) = s.rd f i (.tile die y x) := by
  have hqueue : ∀ v, (s.setQueue die q c v).rd f i (.tile die y x) = s.rd f i (.tile die y x) := fun v => State.rd_setQueue ..
  rw [State.pushTok]
  split
  · exact (State.rd_wr_other (Fld.in_die hsite.ctx) hf (.inr (.inr nofun))).trans (hqueue _)
  · exact hqueue _
theorem rd_writeDst (hsite : CtxSite y x c) (s : State) (d lw : Nat) (v : Tok) {f : Fld} {i : Nat} (hf : f.In i (.tile die y x)) :
    (s.writeDst die y x c d lw v).rd f i (.tile die y x) = s.rd f i (.tile die y x) := by
  rw [State.writeDst]
  dsimp only
  split
  · exact State.rd_setTile ..
  split
  · exact rd_pushTok hsite _ _ _ hf
  split
  · exact rd_pushTok hsite _ _ _ hf
  split
  · exact State.rd_setTile ..
  · rfl
end

/-- Settles O35: each operation writes what its evaluation gives. -/
theorem movesReductionsAndConversions : Obligations.MovesReductionsAndConversions := fun _ _ _ _ _ w h ha hb hd hinc =>
  ⟨completes_vmov h ha hd hinc, completes_vshuf h ha hb hd hinc, completes_vred h ha hd hinc, completes_vmxup h ha hd hinc,
    completes_vmxpk h ha hd hinc, fun ho => (completes_vcvt h ha hd hinc ho).mono fun t ⟨hv, hf⟩ =>
      ⟨fun hmn => ⟨fun j hj => hv ▸ lane_convTok_part hmn hj, fun j hj hne => hv ▸ lane_convTok_kept hmn hj hne⟩,
        fun hmn j hj => hv ▸ lane_convTok_wide hmn hj, hf⟩⟩
/-- Settles O36: an iteration does nothing, waits, or takes its operands and writes. -/
theorem vectorIterationsTakeAllOrNothing : Obligations.VectorIterationsTakeAllOrNothing := by
  intro s die y x c w h p hp ho
  refine ⟨fun hnone => completes_vector h hp ho ?_, fun r hr => ⟨fun hfull => completes_vector h hp ho ?_, fun hroom =>
    completes_vector h hp ho ?_⟩⟩
  · rw [State.vecIterate]
    simp only [hnone]
  · rw [State.vecIterate]
    simp only [hr, hfull, Bool.false_eq_true, if_false]
    exact ⟨trivial, fun _ => source_waitDst ..⟩
  · rw [State.vecIterate]
    simp only [hr, hroom, if_true]
    refine ⟨trivial, ?_⟩
    have hbusy : F.TILE_VBUSY_COUNT.In c (.tile die y x) := h.site.has h.site.ctx
    rw [State.rd_vecIssued_busy h.site, State.rd_residue, State.rd_tileFlags h.site _ _ hbusy nofun, rd_writeDst h.site _ _ _ _ hbusy,
      rd_busy_consumeAll]
end Sys2Proof.Machine
end

section
/-!
PROOF. Matrix cycles (R71, R72), combines (R75) and summaries (R76).
-/
namespace Sys2Proof.Machine

set_option Elab.async false

/-- The queues of context `c` on a die. -/
def ctxQueues (die c : Nat) : List Nat := (List.range 65536).map (fun q => queueKey die q c)
theorem mem_ctxQueues {q : Nat} (die c : Nat) (h : q < 65536) : queueKey die q c ∈ ctxQueues die c :=
  List.mem_map_of_mem (f := fun q => queueKey die q c) (List.mem_range.mpr h)
theorem qidOf_lt {y x net input : Nat} (hy : y < 24) (hx : x < 24) (hn : net < 4) (hi : input < 12) : qidOf y x net input < 65536 := by
  unfold qidOf; omega
theorem qidOf_net_ne {y x net net' input input' : Nat} (hy : y < 24) (hx : x < 24) (hn : net < 4) (hn' : net' < 4) (h : net ≠ net') :
    qidOf y x net input ≠ qidOf y x net' input' := by
  unfold qidOf; omega

section
variable {s t u : State} {die y x c : Nat} {tks as : List Nat}

/-- R83: a port's queue is one of its own tile's switch. -/
theorem State.portQueue_eq {net lport q : Nat} (h : s.portQueue die y x c net lport = some q) : ∃ i < 8, q = qidOf y x net i := by
  obtain ⟨i, hi, rfl⟩ := Option.map_eq_some_iff.mp h
  exact ⟨i, List.mem_range.mp (List.mem_of_find?_eq_some hi), rfl⟩
theorem State.portQueue_lt (hsite : CtxSite y x c) {net lport q : Nat} (hn : net < 4) (h : s.portQueue die y x c net lport = some q) :
    q < 65536 := by
  obtain ⟨i, hi, rfl⟩ := State.portQueue_eq h
  exact qidOf_lt hsite.row hsite.col hn (by omega)

/-! ## Taking operands -/

theorem State.moved.consume (hsite : CtxSite y x c) (h : s.moved t tks (ctxQueues die c) as) (hk : tileKey die y x c ∈ tks) {sp : Nat} :
    s.moved (t.consume die y x c sp) tks (ctxQueues die c) as := by
  rw [State.consume]
  split
  · split
    next q hq => exact h.popTok (mem_ctxQueues die c (State.portQueue_lt hsite (by decide) hq))
    · exact h
  split
  · split
    next q hq => exact h.popTok (mem_ctxQueues die c (State.portQueue_lt hsite (by decide) hq))
    · exact h
  split
  · exact h.setTile hk
  · exact h
theorem State.moved.consumeAll (hsite : CtxSite y x c) (h : s.moved t tks (ctxQueues die c) as) (hk : tileKey die y x c ∈ tks) {l : List Nat} :
    s.moved (t.consumeAll die y x c l) tks (ctxQueues die c) as :=
  h.foldl fun _ _ _ ht => ht.consume hsite hk
theorem State.tile_popTok (s : State) (die q c die' y x c' : Nat) : (s.popTok die q c).tile die' y x c' = s.tile die' y x c' := rfl
/-- R63: taking an operand leaves the registers of the tile. -/
theorem vregs_consume (s : State) (sp : Nat) : ((s.consume die y x c sp).tile die y x c).vregs = (s.tile die y x c).vregs := by
  rw [State.consume]
  split
  · split <;> rfl
  split
  · split <;> rfl
  split
  · dsimp only
    rw [State.tile_setTile_self]
  · rfl
theorem vregs_consumeAll (s : State) (l : List Nat) :
    ((s.consumeAll die y x c l).tile die y x c).vregs = (s.tile die y x c).vregs := by
  rw [State.consumeAll]
  generalize l.eraseDups = l
  induction l generalizing s with
  | nil => rfl
  | cons r l ih => exact (ih _).trans (vregs_consume ..)
theorem out_consume (s : State) (sp : Nat) : (s.consume die y x c sp).out = s.out := (State.only.refl (s := s) (may := [.arr])).consume.out
theorem out_consumeAll (s : State) (l : List Nat) : (s.consumeAll die y x c l).out = s.out :=
  (State.only.refl (s := s) (may := [.arr])).consumeAll.out
/-- A consumed operand of a tile's ports leaves the queues of its control network. -/
theorem queue_consume_ctl (hsite : CtxSite y x c) (s : State) (sp input : Nat) :
    (s.consume die y x c sp).queue die (qidOf y x 2 input) c = s.queue die (qidOf y x 2 input) c := by
  have hpop : ∀ net lport q, net < 2 → s.portQueue die y x c net lport = some q →
      (s.popTok die q c).queue die (qidOf y x 2 input) c = s.queue die (qidOf y x 2 input) c := fun net lport q hn hq => by
    obtain ⟨i, _, rfl⟩ := State.portQueue_eq hq
    exact State.queue_setQueue_of_ne _ _ _ _ (qidOf_net_ne hsite.row hsite.col (by decide) (by omega) (by omega))
  rw [State.consume]
  split
  · split
    next q hq => exact hpop 0 _ q (by decide) hq
    · rfl
  split
  · split
    next q hq => exact hpop 1 _ q (by decide) hq
    · rfl
  split <;> rfl

/-! ## Summaries -/

theorem State.vecFire_summary {w : Nat} (h : s.inVecWord die y x c w) (ho : opOpc w = 0x3C) :
    exec (.vssend die y x) s = .next (s.summarySend die y x c w) := by
  have hexec : exec (.vssend die y x) s = onCt s die y x (.next (s.vecFire die y x 0x3C)) := rfl
  have hfire := State.vecFire_of_inVecWord h
  rw [ho, State.vecFireWord, ho, if_neg (by decide), if_pos rfl] at hfire
  rw [hexec, onCt_of_inVecWord h, hfire]
/-- R76: the running summary after one more iteration. -/
theorem summary_step (m : Nat) (v : Option Nat) (one : Nat × Num.Flags) :
    (match v with
      | none => one
      | some p => ((combineSummary m p one.1).1, (combineSummary m p one.1).2 ||| one.2)).1 =
    (v.map (fun p => (combineSummary m p one.1).1)).getD one.1 := by
  cases v <;> rfl
/-- R76, R68: an iteration of VSSEND ends with the running summary `v`. -/
def State.summed (u : State) (die y x c : Nat) (v : Option Nat) (f : Num.Flags) : State :=
  ((u.setTile die y x c { u.tile die y x c with vsum := v }).tileFlags die y x c f).vecIssued die y x c
theorem State.tile_summed (u : State) (v : Option Nat) (f : Num.Flags) :
    ((u.summed die y x c v f).tile die y x c).vsum = v ∧ ((u.summed die y x c v f).tile die y x c).vregs = (u.tile die y x c).vregs := by
  rw [State.summed, (State.tile_vecIssued ..).1, (State.tile_vecIssued ..).2, State.tile_tileFlags, State.tile_setTile_self]
  exact ⟨rfl, rfl⟩
theorem State.queue_summed (u : State) (v : Option Nat) (f : Num.Flags) (q : Nat) : (u.summed die y x c v f).queue die q c = u.queue die q c := by
  have hm : u.moved (u.summed die y x c v f) [tileKey die y x c] [] (issueWords die y x c) :=
    (State.moved.refl.setTile List.mem_cons_self).issue (ok := true)
  rw [State.queue, State.queue, SMap.getD, SMap.getD, hm.queues _ List.not_mem_nil]
theorem State.vecIterated_summed (hsite : CtxSite y x c) {qs : List Nat} (h : s.moved u [tileKey die y x c] qs (issueWords die y x c))
    (hout : u.out = s.out) (hbusy : u.rd F.TILE_VBUSY_COUNT c (.tile die y x) = s.rd F.TILE_VBUSY_COUNT c (.tile die y x)) (v : Option Nat)
    (f : Num.Flags) : s.vecIterated (u.summed die y x c v f) die y x c qs :=
  State.vecIterated_of_moved hsite (f := f) (ok := true) (h.setTile List.mem_cons_self) hout ((State.rd_setTile ..).trans hbusy)
theorem completes_vssend_more {w : Nat} {tok : Tok} (h : s.inVecWord die y x c w) (ho : opOpc w = 0x3C)
    (hsrc : s.source die y x c (stepSpec (opA w) (if bitOf (opMod w) 2 then (s.tile die y x c).vIter else 0)) 32 = some tok)
    (hacc : bitOf (opMod w) 2 = true) (hmore : (s.tile die y x c).vIter + 1 < (s.tile die y x c).vCount) :
    Completes (.vssend die y x) s (fun t =>
      (t.tile die y x c).vsum = some (((s.tile die y x c).vsum.map (fun p => (combineSummary (opMod w) p
        (summary (opMod w) (lanes tok 32)).1).1)).getD (summary (opMod w) (lanes tok 32)).1) ∧
      (∀ r, t.vreg die y x c r = s.vreg die y x c r) ∧ s.vecIterated t die y x c (ctxQueues die c)) := by
  refine ⟨_, State.vecFire_summary h ho, ?_⟩
  have hlast : decide ((s.tile die y x c).vCount ≤ (s.tile die y x c).vIter + 1) = false := decide_eq_false (by omega)
  rw [State.summarySend]
  dsimp only
  rw [hsrc]
  simp only [hacc, hlast, Bool.not_false, Bool.and_self, if_true]
  refine ⟨(State.tile_summed ..).1.trans (congrArg some (summary_step ..)), State.vreg_congr ((State.tile_summed ..).2.trans (vregs_consume ..)), ?_⟩
  exact State.vecIterated_summed h.site (State.moved.refl.consume h.site List.mem_cons_self) (out_consume ..) (rd_busy_consume ..) ..

/-! ## Tokens that stay out of the extension -/

/-- R81: without an extension a queue keeps its tokens. -/
theorem qPush_kept {q : Queue} (hext : qToExt q = false) (hlen : q.extLen = 0) (v : Tok) :
    qToExt (qPush q v) = false ∧ (qPush q v).extLen = 0 := by
  rw [qPush, if_neg (by rw [hext]; exact Bool.false_ne_true), qFilled, if_neg (by dsimp only; omega)]
  exact ⟨hext, hlen⟩
theorem State.queue_pushTok (s : State) (q : Nat) (v : Tok) : (s.pushTok die q c v).queue die q c = qPush (s.queue die q c) v := by
  have hset : (s.setQueue die q c (qPush (s.queue die q c) v)).queue die q c = qPush (s.queue die q c) v := State.queue_setQueue_self ..
  rw [State.pushTok]
  split
  · rw [State.queue, State.bump, State.wr_regs_only]
    exact hset
  · exact hset
theorem State.queue_pushToks (q : Nat) (vs : List Tok) (s : State) :
    (s.pushToks die q c vs).queue die q c = vs.foldl qPush (s.queue die q c) := by
  rw [State.pushToks]
  induction vs generalizing s with
  | nil => rfl
  | cons v vs ih => rw [List.foldl_cons, List.foldl_cons, ih, State.queue_pushTok]
theorem State.tile_pushTok (s : State) (q : Nat) (v : Tok) : (s.pushTok die q c v).tile die y x c = s.tile die y x c := by
  rw [State.pushTok]
  split
  · exact State.tile_wr ..
  · rfl
theorem State.tile_pushToks (q : Nat) (vs : List Tok) (s : State) : (s.pushToks die q c vs).tile die y x c = s.tile die y x c := by
  rw [State.pushToks]
  induction vs generalizing s with
  | nil => rfl
  | cons v vs ih => exact (ih _).trans (State.tile_pushTok ..)
/-- Tokens pushed into a queue without an extension change that queue alone. -/
theorem State.pushToks_kept (q : Nat) (vs : List Tok) (s : State) (hext : qToExt (s.queue die q c) = false)
    (hlen : (s.queue die q c).extLen = 0) (hq : q < 65536) :
    s.moved (s.pushToks die q c vs) tks (ctxQueues die c) as ∧ (s.pushToks die q c vs).out = s.out ∧ (s.pushToks die q c vs).regs = s.regs := by
  rw [State.pushToks]
  induction vs generalizing s with
  | nil => exact ⟨.refl, rfl, rfl⟩
  | cons v vs ih =>
    have hpush : s.pushTok die q c v = s.setQueue die q c (qPush (s.queue die q c) v) := if_neg (by rw [hext]; exact Bool.false_ne_true)
    obtain ⟨hext', hlen'⟩ := qPush_kept hext hlen v
    rw [← State.queue_pushTok] at hext' hlen'
    obtain ⟨hm, hout, hregs⟩ := ih _ hext' hlen'
    rw [List.foldl_cons]
    rw [hpush] at hm hout hregs ⊢
    exact ⟨(State.moved.refl.setQueue (mem_ctxQueues die c hq)).trans hm, hout, hregs⟩
theorem completes_vssend_last {w : Nat} {tok : Tok} (h : s.inVecWord die y x c w) (ho : opOpc w = 0x3C)
    (hsrc : s.source die y x c (stepSpec (opA w) (if bitOf (opMod w) 2 then (s.tile die y x c).vIter else 0)) 32 = some tok)
    (hlast : bitOf (opMod w) 2 = false ∨ (s.tile die y x c).vCount ≤ (s.tile die y x c).vIter + 1) (hroom : 8 ≤ s.roomAt die (qidOf y x 2 4) c) :
    let sum := ((s.tile die y x c).vsum.map (fun p => (combineSummary (opMod w) p (summary (opMod w) (lanes tok 32)).1).1)).getD
      (summary (opMod w) (lanes tok 32)).1
    Completes (.vssend die y x) s (fun t =>
      t.queue die (qidOf y x 2 4) c = (summaryToks (opImm w) c y x sum).foldl qPush (s.queue die (qidOf y x 2 4) c) ∧
      (t.tile die y x c).vsum = none ∧ (∀ r, t.vreg die y x c r = s.vreg die y x c r) ∧
      (qToExt (s.queue die (qidOf y x 2 4) c) = false → (s.queue die (qidOf y x 2 4) c).extLen = 0 →
        s.vecIterated t die y x c (ctxQueues die c))) := by
  refine ⟨_, State.vecFire_summary h ho, ?_⟩
  have hmore : (bitOf (opMod w) 2 && !decide ((s.tile die y x c).vCount ≤ (s.tile die y x c).vIter + 1)) = false := by
    rcases hlast with hl | hl <;> simp [hl]
  rw [State.summarySend]
  dsimp only
  rw [hsrc]
  simp only [hmore, Bool.false_eq_true, if_false, if_neg (Nat.not_lt.mpr hroom)]
  have hq := queue_consume_ctl h.site s (stepSpec (opA w) (if bitOf (opMod w) 2 then (s.tile die y x c).vIter else 0)) 4 (die := die)
  refine ⟨(State.queue_summed ..).trans ((State.queue_pushToks ..).trans ?_), (State.tile_summed ..).1,
    State.vreg_congr ((State.tile_summed ..).2.trans ?_), fun hext hlen => ?_⟩
  · rw [hq]
    exact congrArg (fun n => (summaryToks (opImm w) c y x n).foldl qPush _) (summary_step ..)
  · rw [State.tile_pushToks]
    exact vregs_consume ..
  · obtain ⟨hm, hout, hregs⟩ := State.pushToks_kept (tks := [tileKey die y x c]) (as := issueWords die y x c) (qidOf y x 2 4) _ _ (hq.symm ▸ hext) (hq.symm ▸ hlen)
      (qidOf_lt h.site.row h.site.col (by decide) (by decide))
    exact State.vecIterated_summed h.site ((State.moved.refl.consume h.site List.mem_cons_self).trans hm) (hout.trans (out_consume ..))
      ((State.rd_congr hregs ..).trans (rd_busy_consume ..)) ..

/-! ## Combines -/

theorem filterMap_of_map_some {α β : Type} {f : α → Option β} {l : List α} {vs : List β} (h : l.map f = vs.map some) : l.filterMap f = vs := by
  have hid : l.filterMap f = (l.map f).filterMap id := by rw [List.filterMap_map]; rfl
  rw [hid, h, List.filterMap_map]
  exact List.filterMap_some ..
theorem filterMap_pairs {α β : Type} {f : α → Option β} {l : List α} {vs : List β} (h : l.map f = vs.map some) :
    l.filterMap (fun p => (f p).map (fun u => (p, u))) = l.zip vs := by
  induction l generalizing vs with
  | nil => rfl
  | cons p l ih =>
    cases vs with
    | nil => cases h
    | cons v vs =>
      obtain ⟨hp, hl⟩ := List.cons.inj h
      rw [List.filterMap_cons, hp, List.zip_cons_cons, ← ih hl]
      rfl
/-- R75: the flags of a combine do not enter its sum. -/
theorem combAdd_value (l : List Tok) (v : Option Tok) (f g : Num.Flags) : (l.foldl combAdd (v, f)).1 = (l.foldl combAdd (v, g)).1 := by
  induction l generalizing v f g with
  | nil => rfl
  | cons t l ih => exact ih _ _ _
/-- The FP32 sum of operands, the first of which starts it. -/
def combSum (l : List Tok) : Tok := l.tail.foldl (fun g u => (mapLanes 0x20 0 0 g u 0).1) (readTok (l.headD 0)).1
theorem combAdd_started (l : List Tok) (v : Tok) (f : Num.Flags) :
    (l.foldl combAdd (some v, f)).1 = some (l.foldl (fun g u => (mapLanes 0x20 0 0 g u 0).1) v) := by
  induction l generalizing v f with
  | nil => rfl
  | cons t l ih =>
    rw [List.foldl_cons, List.foldl_cons]
    exact ih (mapLanes 0x20 0 0 v t 0).1 _
theorem packNat_zeros (w n : Nat) : packNat w (List.replicate n 0) = 0 := by
  induction n with
  | zero => rfl
  | succ n ih => rw [List.replicate_succ, packNat, ih, Nat.zero_mod, Nat.mul_zero]
theorem readTok_zero : (readTok 0).1 = 0 := by
  have hlanes : lanes 0 32 = List.replicate 32 0 := by
    rw [lanes, ← List.length_range (n := 32), ← List.map_const']
    exact List.map_congr_left fun j _ => lane_zero 32 j
  have hnan : Num.isNan (Num.decode Num.fp32 0) = false := by decide +kernel
  rw [readTok, hlanes]
  simp only [List.map_replicate, hnan, Bool.false_eq_true, if_false]
  rw [packLanes, packNat_zeros]
  rfl
theorem combAdd_sum (l : List Tok) (f : Num.Flags) : (l.foldl combAdd (none, f)).1.getD 0 = combSum l := by
  cases l with
  | nil => exact readTok_zero.symm
  | cons t l => exact congrArg (·.getD 0) (combAdd_started l (readTok t).1 _)

/-- R63: a register that is not the destination keeps its value. -/
theorem State.vreg_writeDst_other {d r : Nat} (hr : r ≠ d) (s : State) (lw : Nat) (v : Tok) :
    (s.writeDst die y x c d lw v).vreg die y x c r = s.vreg die y x c r := by
  by_cases hd : d < 32
  · exact (State.vreg_writeDst hd s lw v).2 r hr
  rw [State.writeDst, if_neg hd]
  split
  · exact State.vreg_congr (by rw [State.tile_pushTok]) r
  split
  · exact State.vreg_congr (by rw [State.tile_pushTok]) r
  split
  · dsimp only
    exact State.vreg_congr (by rw [State.tile_setTile_self]) r
  · rfl
theorem State.out_writeDst (s : State) (d lw : Nat) (v : Tok) : (s.writeDst die y x c d lw v).out = s.out :=
  (State.only.refl (s := s) (may := [.regs, .arr])).writeDst.out
/-- R75: what a combine leaves, once its sum is written. -/
theorem State.combined (hsite : CtxSite y x c) {l : List Nat} {d : Nat} {v : Tok} {f : Num.Flags} {ok : Bool}
    (hvregs : (u.tile die y x c).vregs = (((s.consumeAll die y x c l).writeDst die y x c d 32 v).tile die y x c).vregs)
    (hregs : u.regs = ((s.consumeAll die y x c l).writeDst die y x c d 32 v).regs)
    (hout : u.out = ((s.consumeAll die y x c l).writeDst die y x c d 32 v).out)
    (hm : d < 32 → s.moved u [tileKey die y x c] (ctxQueues die c) (issueWords die y x c)) {t : State}
    (ht : ((u.tileFlags die y x c f).residue die y x c 0x0C ok).vecIssued die y x c = t) :
    (d < 32 → t.vreg die y x c d = v ∧ s.vecIterated t die y x c (ctxQueues die c) ok) ∧
    (∀ r, r ≠ d → t.vreg die y x c r = s.vreg die y x c r) ∧
    t.rd F.TILE_VBUSY_COUNT c (.tile die y x) = (s.rd F.TILE_VBUSY_COUNT c (.tile die y x) + 1) % 2 ^ 32 := by
  have hbusy : u.rd F.TILE_VBUSY_COUNT c (.tile die y x) = s.rd F.TILE_VBUSY_COUNT c (.tile die y x) := by
    rw [State.rd_congr hregs, rd_writeDst hsite _ _ _ _ (hsite.has hsite.ctx), rd_busy_consumeAll]
  have hv : ∀ r, t.vreg die y x c r = ((s.consumeAll die y x c l).writeDst die y x c d 32 v).vreg die y x c r := fun r => by
    rw [← ht]
    refine State.vreg_congr ?_ r
    rw [(State.tile_vecIssued ..).1, State.tile_residue, State.tile_tileFlags, hvregs]
  refine ⟨fun hd => ⟨(hv d).trans (State.vreg_writeDst hd _ _ _).1, ?_⟩, fun r hr => ?_, ?_⟩
  · rw [← ht]
    exact State.vecIterated_of_moved hsite (hm hd) (hout.trans ((State.out_writeDst ..).trans (out_consumeAll ..))) hbusy
  · rw [hv, State.vreg_writeDst_other hr]
    exact State.vreg_congr (vregs_consumeAll ..) r
  · rw [← ht, State.rd_vecIssued_busy hsite, State.rd_residue, State.rd_tileFlags hsite _ _ (f := F.TILE_VBUSY_COUNT) (hsite.has hsite.ctx) nofun,
      hbusy]
theorem State.moved_written (hsite : CtxSite y x c) (s : State) (l : List Nat) {d : Nat} (hd : d < 32) (v : Tok) :
    s.moved ((s.consumeAll die y x c l).writeDst die y x c d 32 v) [tileKey die y x c] (ctxQueues die c) (issueWords die y x c) :=
  (State.moved.refl.consumeAll hsite List.mem_cons_self).trans
    ((State.moved_writeDst hd _ 32 v).mono (List.Subset.refl _) (List.nil_subset _) (List.nil_subset _))
theorem State.vecFire_combine {w : Nat} (h : s.inVecWord die y x c w) (ho : opOpc w = 0x3A) :
    exec (.vcomb die y x) s = .next (if bitOf (opMod w) 2 then s.combOrdered die y x c w else s.combArrival die y x c w) := by
  have hexec : exec (.vcomb die y x) s = onCt s die y x (.next (s.vecFire die y x 0x3A)) := rfl
  have hfire := State.vecFire_of_inVecWord h
  rw [ho, State.vecFireWord, ho, if_pos rfl] at hfire
  rw [hexec, onCt_of_inVecWord h, hfire]
theorem completes_vcomb {w : Nat} {vs : List Tok} {start : Option Tok} (h : s.inVecWord die y x c w) (ho : opOpc w = 0x3A)
    (hcomb : (s.tile die y x c).comb = []) :
    let k := if bitOf (opMod w) 1 then (s.tile die y x c).vIter else 0
    let d := stepSpec (opDst w) k
    (combPorts (opImm w)).map (fun p => s.source die y x c p 32) = vs.map some →
    (if opC w = 47 then start = none else start.isSome = true ∧ s.source die y x c (stepSpec (opC w) k) 32 = start) →
    s.dstRoom die y x c d = true →
    Completes (.vcomb die y x) s (fun t =>
      (d < 32 → t.vreg die y x c d = combSum (start.toList ++ vs) ∧
        s.vecIterated t die y x c (ctxQueues die c) (combChecked (start.map (fun v => (readTok v).1)) vs)) ∧
      (∀ r, r ≠ d → t.vreg die y x c r = s.vreg die y x c r) ∧
      t.rd F.TILE_VBUSY_COUNT c (.tile die y x) = (s.rd F.TILE_VBUSY_COUNT c (.tile die y x) + 1) % 2 ^ 32) := by
  intro k d hports hstart hroom
  have hst : (if opC w = 47 then none else s.source die y x c (stepSpec (opC w) k) 32) = start := by
    split at hstart
    next h => rw [if_pos h, hstart]
    next h => rw [if_neg h, hstart.2]
  have hlen : vs.length = (combPorts (opImm w)).length := by
    have := congrArg List.length hports
    simpa using this.symm
  refine ⟨_, State.vecFire_combine h ho, ?_⟩
  split
  · rw [State.combOrdered]
    dsimp only
    rw [filterMap_of_map_some hports, hst]
    have hready : ¬ (vs.length < (combPorts (opImm w)).length ∨ opC w ≠ 47 ∧ start.isNone) := by
      split at hstart
      next h => simp [h, hlen]
      next h =>
        obtain ⟨v, hv⟩ := Option.isSome_iff_exists.mp hstart.1
        simp [hlen, hv]
    rw [if_neg hready, if_neg (by rw [hroom]; simp), combAdd_sum]
    exact State.combined h.site rfl rfl rfl (fun hd => State.moved_written h.site s _ hd _) rfl
  · have hnone : (combPorts (opImm w)).filterMap (fun p => if ([] : List (Nat × Tok)).any (fun e => decide (e.1 = p)) then none
        else (s.source die y x c p 32).map (fun u => (p, u))) = (combPorts (opImm w)).zip vs := filterMap_pairs hports
    rw [State.combArrival]
    dsimp only
    have hfst : ((combPorts (opImm w)).zip vs).map (·.1) = combPorts (opImm w) := List.map_fst_zip (by omega)
    have hsnd : ((combPorts (opImm w)).zip vs).map (·.2) = vs := List.map_snd_zip (by omega)
    have hall : ((combPorts (opImm w)).zip vs).length = (combPorts (opImm w)).length := by rw [List.length_zip]; omega
    rw [hcomb, hst, hnone, List.nil_append, hfst, hsnd, List.map_nil, List.append_nil, if_pos hall, if_neg (by rw [hroom]; simp)]
    have hsum : (vs.foldl combAdd ((start.toList.foldl combAdd (none, 0)).1,
        if ([] : List (Nat × Tok)).isEmpty then (start.toList.foldl combAdd (none, 0)).2 else 0)).1.getD 0 = combSum (start.toList ++ vs) := by
      rw [← combAdd_sum _ 0, List.foldl_append]
      rfl
    have hbefore : (start.toList.foldl combAdd (none, 0)).1 = start.map (fun v => (readTok v).1) := by cases start <;> rfl
    rw [hsum, hbefore]
    refine State.combined (l := combPorts (opImm w)) h.site ?_ ?_ ?_ (fun hd => ?_) rfl
    · rw [State.tile_setTile_self]
    · rfl
    · rfl
    · exact (State.moved_written h.site s _ hd _).setTile List.mem_cons_self

/-! ## Matrix cycles -/

/-- From `s` to `t` nothing changes but the tiles' contexts, accumulators and queues, the registers, and what has been sent. -/
def State.inArrays (s t : State) : Prop :=
  t = { s with
    arr := { s.arr with tiles := t.arr.tiles, acc := t.arr.acc, queues := t.arr.queues, idlePosted := t.arr.idlePosted,
                        idleFor := t.arr.idleFor, restFor := t.arr.restFor }
    regs := t.regs
    out := t.out }
theorem State.inArrays.trans (h : s.inArrays t) (k : t.inArrays u) : s.inArrays u := by
  unfold State.inArrays at *
  rw [h] at k
  exact k
theorem State.inArrays.wr (s : State) (f : Fld) (v i : Nat) (w : Win) : s.inArrays (s.wr f v i w) := by
  have hwr := s.wr_regs_only f v i w
  generalize s.wr f v i w = t at hwr ⊢
  rw [hwr]
  rfl
theorem State.inArrays.fired (s : State) (die c : Nat) : s.inArrays (s.fired die c) :=
  (State.inArrays.wr s F.WDOG_COUNT_COUNT 0 c (.die die)).trans rfl
theorem State.inArrays.residue (s : State) (die y x c cls : Nat) (ok : Bool) : s.inArrays (s.residue die y x c cls ok) := by
  rw [State.residue]
  split <;> rfl

/-- R71, R72: what the steps of a matrix cycle besides its accumulation leave alone. -/
structure State.cycled (s t : State) (die y x c : Nat) : Prop where
  frame : s.inArrays t
  acc : t.arr.acc = s.arr.acc
  busy : t.rd F.TILE_MBUSY_COUNT c (.tile die y x) = s.rd F.TILE_MBUSY_COUNT c (.tile die y x)
  sent : t.out = s.out

theorem State.cycled.refl : s.cycled s die y x c := ⟨rfl, rfl, rfl, rfl⟩
theorem State.cycled.trans (h : s.cycled t die y x c) (k : t.cycled u die y x c) : s.cycled u die y x c :=
  ⟨h.frame.trans k.frame, k.acc.trans h.acc, k.busy.trans h.busy, k.sent.trans h.sent⟩
theorem State.cycled.setTile (h : s.cycled t die y x c) {v : TileCtx} : s.cycled (t.setTile die y x c v) die y x c :=
  h.trans ⟨rfl, rfl, State.rd_setTile .., rfl⟩
theorem State.cycled.setQueue (h : s.cycled t die y x c) {q : Nat} {v : Queue} : s.cycled (t.setQueue die q c v) die y x c :=
  h.trans ⟨rfl, rfl, State.rd_setQueue .., rfl⟩
theorem State.cycled.wr (h : s.cycled t die y x c) {f : Fld} {v i : Nat} {w : Win}
    (hb : (t.wr f v i w).rd F.TILE_MBUSY_COUNT c (.tile die y x) = t.rd F.TILE_MBUSY_COUNT c (.tile die y x)) :
    s.cycled (t.wr f v i w) die y x c :=
  h.trans ⟨.wr .., by rw [State.arr_wr], hb, State.out_wr ..⟩
theorem State.cycled.fired (hsite : CtxSite y x c) (h : s.cycled t die y x c) : s.cycled (t.fired die c) die y x c :=
  (h.wr (v := 0) (State.rd_wr_other (Fld.in_die hsite.ctx) (hsite.has hsite.ctx) (.inr (.inr nofun)))).trans
    ⟨rfl, rfl, State.rd_congr rfl F.TILE_MBUSY_COUNT c (.tile die y x), rfl⟩
theorem State.cycled.tileFlags (hsite : CtxSite y x c) (h : s.cycled t die y x c) {g : Num.Flags} :
    s.cycled (t.tileFlags die y x c g) die y x c := by
  rw [State.tileFlags]
  split
  · exact h
  · exact h.wr (f := allFlags) (State.rd_wr_other (hsite.has hsite.ctx) (hsite.has hsite.ctx) (.inl nofun))
theorem State.cycled.consume (h : s.cycled t die y x c) {sp : Nat} : s.cycled (t.consume die y x c sp) die y x c := by
  rw [State.consume]
  split
  · split
    · exact h.setQueue
    · exact h
  split
  · split
    · exact h.setQueue
    · exact h
  split
  · exact h.setTile
  · exact h
theorem State.cycled.pushTok (hsite : CtxSite y x c) (h : s.cycled t die y x c) {q : Nat} {v : Tok} :
    s.cycled (t.pushTok die q c v) die y x c := by
  rw [State.pushTok]
  split
  · exact h.setQueue.wr (State.rd_wr_other (Fld.in_die hsite.ctx) (hsite.has hsite.ctx) (.inr (.inr nofun)))
  · exact h.setQueue
theorem State.cycled.writeDst (hsite : CtxSite y x c) (h : s.cycled t die y x c) {d lw : Nat} {v : Tok} :
    s.cycled (t.writeDst die y x c d lw v) die y x c := by
  rw [State.writeDst]
  split
  · exact h.setTile
  split
  · exact h.pushTok hsite
  split
  · exact h.pushTok hsite
  split
  · exact h.setTile
  · exact h
theorem State.cycled.matAdvance (h : s.cycled t die y x c) : s.cycled (t.matAdvance die y x c) die y x c := by
  rw [State.matAdvance]
  dsimp only
  split
  · exact h.setTile
  · exact h.setTile
theorem State.cycled.endChunk (h : s.cycled t die y x c) : s.cycled (t.endChunk die y x c) die y x c := by
  rw [State.endChunk]
  split
  · exact h.setTile
  · exact h.matAdvance
theorem State.cycled.loadWeight (hsite : CtxSite y x c) (h : s.cycled t die y x c) {w : Nat} {g : Geometry} :
    s.cycled (t.loadWeight die y x c w g) die y x c := by
  rw [State.loadWeight]
  dsimp only
  split
  · split
    · exact h
    · exact h.consume.setTile.fired hsite
  split
  · exact h
  split
  · exact h
  split
  · exact h
  · exact h.consume.setTile.fired hsite

/-! A matrix cycle leaves the vector registers but for an emitted row. -/

theorem State.tile_fired (s : State) (die' c' : Nat) : (s.fired die' c').tile die y x c = s.tile die y x c := State.tile_wr ..
theorem vregs_matAdvance (s : State) : ((s.matAdvance die y x c).tile die y x c).vregs = (s.tile die y x c).vregs := by
  rw [State.matAdvance]
  dsimp only
  split
  · rw [State.tile_setTile_self]
  · rw [State.tile_setTile_self]
    rfl
theorem vregs_endChunk (s : State) : ((s.endChunk die y x c).tile die y x c).vregs = (s.tile die y x c).vregs := by
  rw [State.endChunk]
  split
  · rw [State.tile_setTile_self]
  · exact vregs_matAdvance s
theorem vregs_loadWeight (s : State) (w : Nat) (g : Geometry) :
    ((s.loadWeight die y x c w g).tile die y x c).vregs = (s.tile die y x c).vregs := by
  have hload : ∀ (sp : Nat) (f : TileCtx → TileCtx), (∀ v, (f v).vregs = v.vregs) →
      ((((s.consume die y x c sp).setTile die y x c (f ((s.consume die y x c sp).tile die y x c))).fired die c).tile die y x c).vregs =
        (s.tile die y x c).vregs := fun sp f hf => by
    rw [State.tile_fired, State.tile_setTile_self, hf]
    exact vregs_consume ..
  rw [State.loadWeight]
  dsimp only
  split
  · split
    · rfl
    next tok _ => exact hload _ (fun v => { v with held := (s.tile die y x c).held ++ [tok] }) fun _ => rfl
  split
  · rfl
  split
  · rfl
  split
  · rfl
  next tok _ => exact hload _ (fun v => { v with ahead := (s.tile die y x c).ahead ++ [tok] }) fun _ => rfl

/-! The accumulator -/

theorem rowKey_inj {i j : Nat} (h : j ≠ i) : rowKey die y x j ≠ rowKey die y x i := by unfold rowKey; omega
theorem State.accRowAt_congr {s t : State} (h : t.arr.acc = s.arr.acc) (j : Nat) : t.accRowAt die y x j = s.accRowAt die y x j := by
  rw [State.accRowAt, State.accRowAt, h]
theorem State.accRowAt_setAccRow (s : State) (i : Nat) (r : AccRow) : (s.setAccRow die y x i r).accRowAt die y x i = r := SMap.getD_setD_self ..
theorem State.accRowAt_setAccRow_of_ne (s : State) {i j : Nat} (r : AccRow) (h : j ≠ i) :
    (s.setAccRow die y x i r).accRowAt die y x j = s.accRowAt die y x j := SMap.getD_setD_of_ne _ _ _ (rowKey_inj h) _
theorem State.matFire_of_inMatWord {w : Nat} {g : Geometry} (h : s.inMatWord die y x c w g) :
    exec (.mmac die y x) s = .next (s.matCycle die y x c w g) := by
  obtain ⟨hdie, hy, hx, hct, hc, hend, hlive, ⟨i, hi, hw⟩, hg⟩ := h
  have hadopt : s.adoptDue die y x c false = s := by
    rw [State.adoptDue]
    simp only [Bool.false_eq_true, if_false, hend]
  have hexec : exec (.mmac die y x) s = .next (s.matFire die y x) := if_pos ⟨hdie, hy, hx, hct⟩
  rw [hexec, State.matFire]
  simp only [hc, hadopt, hi, hw, hg, hlive, if_true]
theorem State.inMatWord.site {w : Nat} {g : Geometry} (h : s.inMatWord die y x c w g) : CtxSite y x c := by
  obtain ⟨_, hy, hx, hct, hc, _⟩ := h
  exact ⟨hy, hx.trans_le s.cols_le, hct, State.active_lt hc⟩
/-- R78, R97, R371: a matrix cycle is counted and its residue reported. -/
def State.counted (s : State) (die y x c : Nat) (f : Num.Flags) (ok : Bool) : State :=
  (((s.tileFlags die y x c f).bump F.TILE_MBUSY_COUNT 1 c (.tile die y x)).fired die c).residue die y x c 0x0B ok
theorem State.tile_counted (s : State) (f : Num.Flags) (ok : Bool) : (s.counted die y x c f ok).tile die y x c = s.tile die y x c := by
  rw [State.counted, State.tile_residue, State.tile_fired, State.bump, State.tile_wr, State.tile_tileFlags]
theorem State.counted_keeps (hsite : CtxSite y x c) (s : State) (f : Num.Flags) (ok : Bool) :
    s.inArrays (s.counted die y x c f ok) ∧ (s.counted die y x c f ok).arr.acc = s.arr.acc ∧
    (s.counted die y x c f ok).rd F.TILE_MBUSY_COUNT c (.tile die y x) = (s.rd F.TILE_MBUSY_COUNT c (.tile die y x) + 1) % 2 ^ 32 ∧
    (s.counted die y x c f ok).out = if ok then s.out else .unitFault 0x0B die y x c :: s.out := by
  have hf : s.cycled (s.tileFlags die y x c f) die y x c := State.cycled.refl.tileFlags hsite
  have hfired : ((s.tileFlags die y x c f).bump F.TILE_MBUSY_COUNT 1 c (.tile die y x)).cycled
      (((s.tileFlags die y x c f).bump F.TILE_MBUSY_COUNT 1 c (.tile die y x)).fired die c) die y x c := State.cycled.refl.fired hsite
  have hbump : ((s.tileFlags die y x c f).bump F.TILE_MBUSY_COUNT 1 c (.tile die y x)).out = s.out := (State.out_wr ..).trans hf.sent
  refine ⟨((hf.frame.trans (.wr ..)).trans hfired.frame).trans (.residue ..), ?_, ?_, ?_⟩
  · have hres : (s.counted die y x c f ok).arr.acc =
        (((s.tileFlags die y x c f).bump F.TILE_MBUSY_COUNT 1 c (.tile die y x)).fired die c).arr.acc := by
      rw [State.counted, State.residue]
      split <;> rfl
    rw [hres, hfired.acc, State.bump, State.arr_wr, hf.acc]
  · rw [State.counted, State.rd_residue, hfired.busy, State.bump, State.rd_wr_self, hf.busy]
    rfl
  · rw [State.counted, State.residue]
    cases ok
    · exact congrArg (Out.unitFault 0x0B die y x c :: ·) (hfired.sent.trans hbump)
    · exact hfired.sent.trans hbump

/-- R71: the row that a matrix cycle accumulates. -/
def State.cycleRow (s : State) (die y x c w : Nat) (g : Geometry) (act : Tok) : AccRow :=
  let u := s.tile die y x c
  (accRow g (opFmt w) (opImm w % 16) u.held act (u.mRow % g.rows)
    (if u.mChunk = 0 && !(mCont w) then { AccRow.blank with fp := decide (g.kind ≠ .fixed) }
      else s.accRowAt die y x (s.accIndex die y x c u.mRow))).1
/-- R71, R371: what a matrix cycle leaves. -/
structure State.rowCycle (s t : State) (die y x c : Nat) (i : Nat) (r : AccRow) (emits : Bool) (d : Nat) (e : Tok) (ok : Bool) : Prop where
  frame : s.inArrays t
  row : t.accRowAt die y x i = r
  rows : ∀ j, j ≠ i → t.accRowAt die y x j = s.accRowAt die y x j
  emitted : emits = true → d < 32 → t.vreg die y x c d = e
  busy : t.rd F.TILE_MBUSY_COUNT c (.tile die y x) = (s.rd F.TILE_MBUSY_COUNT c (.tile die y x) + 1) % 2 ^ 32
  sent : t.out = if ok then s.out else .unitFault 0x0B die y x c :: s.out
theorem State.rowCycle.cycled {i d : Nat} {r : AccRow} {emits ok : Bool} {e : Tok} (h : s.rowCycle t die y x c i r emits d e ok)
    (k : t.cycled u die y x c) (hv : (u.tile die y x c).vregs = (t.tile die y x c).vregs) : s.rowCycle u die y x c i r emits d e ok where
  frame := h.frame.trans k.frame
  row := (State.accRowAt_congr k.acc i).trans h.row
  rows j hj := (State.accRowAt_congr k.acc j).trans (h.rows j hj)
  emitted he hd := (State.vreg_congr hv d).trans (h.emitted he hd)
  busy := k.busy.trans h.busy
  sent := k.sent.trans h.sent
/-- R71, R72: the accumulation of a cycle, its emission and its count. -/
theorem State.rowCycle_of_parts (hsite : CtxSite y x c) (hA : s.cycled t die y x c) (i d : Nat) (r : AccRow) (emits ok : Bool) (e : Tok)
    (f f' : Num.Flags) :
    s.rowCycle ((if emits then ((t.setAccRow die y x i r).writeDst die y x c d 32 e).tileFlags die y x c f else t.setAccRow die y x i r).counted
      die y x c f' ok) die y x c i r emits d e ok := by
  have hset : s.inArrays (t.setAccRow die y x i r) := hA.frame.trans rfl
  have hC : (t.setAccRow die y x i r).cycled (if emits then ((t.setAccRow die y x i r).writeDst die y x c d 32 e).tileFlags die y x c f
      else t.setAccRow die y x i r) die y x c := by
    split
    · exact (State.cycled.refl.writeDst hsite).tileFlags hsite
    · exact .refl
  have hE : emits = true → d < 32 → (if emits then ((t.setAccRow die y x i r).writeDst die y x c d 32 e).tileFlags die y x c f
      else t.setAccRow die y x i r).vreg die y x c d = e := fun he hd => by
    rw [if_pos he]
    exact (State.vreg_congr (by rw [State.tile_tileFlags]) d).trans (State.vreg_writeDst hd _ _ _).1
  generalize (if emits then ((t.setAccRow die y x i r).writeDst die y x c d 32 e).tileFlags die y x c f else t.setAccRow die y x i r) = u
    at hC hE ⊢
  obtain ⟨hframe, hacc, hbusy, hout⟩ := State.counted_keeps (die := die) hsite u f' ok
  have hsetbusy : (t.setAccRow die y x i r).rd F.TILE_MBUSY_COUNT c (.tile die y x) = t.rd F.TILE_MBUSY_COUNT c (.tile die y x) :=
    State.rd_congr rfl ..
  refine ⟨(hset.trans hC.frame).trans hframe, ?_, fun j hj => ?_, fun he hd => ?_, ?_, ?_⟩
  · rw [State.accRowAt_congr (hacc.trans hC.acc), State.accRowAt_setAccRow]
  · rw [State.accRowAt_congr (hacc.trans hC.acc), State.accRowAt_setAccRow_of_ne _ _ hj, State.accRowAt_congr hA.acc]
  · exact (State.vreg_congr (by rw [State.tile_counted]) d).trans (hE he hd)
  · rw [hbusy, hC.busy, hsetbusy, hA.busy]
  · have hu : u.out = s.out := hC.sent.trans hA.sent
    rw [hout, hu]
theorem State.rowCycle_acceptRow (hsite : CtxSite y x c) {w : Nat} {g : Geometry} {act : Tok} (hheld : g.tokens ≤ (s.tile die y x c).held.length)
    (hsrc : s.source die y x c (opA w) 32 = some act)
    (hroom : mEmit w = true → (s.tile die y x c).mChunks ≤ (s.tile die y x c).mChunk + 1 → s.dstRoom die y x c (opDst w) = true) :
    s.rowCycle (s.acceptRow die y x c w g) die y x c (s.accIndex die y x c (s.tile die y x c).mRow) (s.cycleRow die y x c w g act)
      (mEmit w && decide ((s.tile die y x c).mChunks ≤ (s.tile die y x c).mChunk + 1)) (opDst w) (emitRow (mI32 w) (s.cycleRow die y x c w g act)).1
      (accChecked g (opFmt w) (opImm w % 16) (s.tile die y x c).held act ((s.tile die y x c).mRow % g.rows) &&
        (!(mEmit w && decide ((s.tile die y x c).mChunks ≤ (s.tile die y x c).mChunk + 1)) || rowResidueOk (s.cycleRow die y x c w g act))) := by
  have hgo : (mEmit w && decide ((s.tile die y x c).mChunks ≤ (s.tile die y x c).mChunk + 1) && !(s.dstRoom die y x c (opDst w))) = false := by
    cases he : mEmit w
    · rfl
    · by_cases hl : (s.tile die y x c).mChunks ≤ (s.tile die y x c).mChunk + 1
      · simp [hroom he hl]
      · simp [hl]
  rw [State.acceptRow]
  dsimp only
  rw [if_neg (Nat.not_lt.mpr hheld), hsrc]
  dsimp only
  rw [hgo, if_neg Bool.false_ne_true]
  have hA : ∀ b : Prop, [Decidable b] → s.cycled (if b then s.consume die y x c (opA w) else s) die y x c := fun b _ => by
    split
    · exact State.cycled.refl.consume
    · exact .refl
  split
  · exact (State.rowCycle_of_parts hsite (hA _) _ _ _ _ _ _ _ _).cycled State.cycled.refl.setTile (by rw [State.tile_setTile_self]; rfl)
  · exact (State.rowCycle_of_parts hsite (hA _) _ _ _ _ _ _ _ _).cycled State.cycled.refl.endChunk (vregs_endChunk _)
theorem State.rowCycle.matCycle {w : Nat} {g : Geometry} {i d : Nat} {r : AccRow} {emits ok : Bool} {e : Tok} (hsite : CtxSite y x c)
    (hrows : (s.tile die y x c).mRows ≠ 0) (h : s.rowCycle (s.acceptRow die y x c w g) die y x c i r emits d e ok) :
    s.rowCycle (s.matCycle die y x c w g) die y x c i r emits d e ok := by
  rw [State.matCycle]
  simp only [if_neg hrows]
  split
  · exact h.cycled (State.cycled.refl.loadWeight hsite) (vregs_loadWeight ..)
  · exact h
theorem completes_mmac {w : Nat} {g : Geometry} {act : Tok} (h : s.inMatWord die y x c w g) (hrows : (s.tile die y x c).mRows ≠ 0)
    (hheld : g.tokens ≤ (s.tile die y x c).held.length) (hsrc : s.source die y x c (opA w) 32 = some act)
    (hroom : mEmit w = true → (s.tile die y x c).mChunks ≤ (s.tile die y x c).mChunk + 1 → s.dstRoom die y x c (opDst w) = true) :
    Completes (.mmac die y x) s (fun t =>
      let u := s.tile die y x c
      let i := s.accIndex die y x c u.mRow
      let r := s.cycleRow die y x c w g act
      t.accRowAt die y x i = r ∧ (∀ j, j ≠ i → t.accRowAt die y x j = s.accRowAt die y x j) ∧
      (mEmit w = true → u.mChunks ≤ u.mChunk + 1 → opDst w < 32 → t.vreg die y x c (opDst w) = (emitRow (mI32 w) r).1) ∧
      t.rd F.TILE_MBUSY_COUNT c (.tile die y x) = (s.rd F.TILE_MBUSY_COUNT c (.tile die y x) + 1) % 2 ^ 32 ∧
      t.out = (if accChecked g (opFmt w) (opImm w % 16) u.held act (u.mRow % g.rows) &&
        (!(mEmit w && decide (u.mChunks ≤ u.mChunk + 1)) || rowResidueOk r) then s.out else .unitFault 0x0B die y x c :: s.out) ∧
      s.inArrays t) := by
  have hcycle := (State.rowCycle_acceptRow h.site hheld hsrc hroom).matCycle h.site hrows
  refine ⟨_, State.matFire_of_inMatWord h, hcycle.row, hcycle.rows, fun he hl hd => hcycle.emitted ?_ hd, hcycle.busy, hcycle.sent, hcycle.frame⟩
  rw [he, decide_eq_true hl]
  rfl
end

/-- Settles O37: a matrix cycle, a combine and a summary, each by what its step leaves. -/
theorem matrixCombineAndSummary : Obligations.MatrixCombineAndSummary := fun _ _ _ _ _ _ =>
  ⟨fun _ _ h hrows hheld hsrc hroom => completes_mmac h hrows hheld hsrc hroom, fun _ _ h ho hcomb => completes_vcomb h ho hcomb,
    fun _ h ho hsrc => ⟨completes_vssend_more h ho hsrc, completes_vssend_last h ho hsrc⟩⟩
end Sys2Proof.Machine
end

section
/-!
PROOF. Parameters (R70): a commit, and the adoption at a sequencer's wrap.
-/
namespace Sys2Proof.Machine

set_option Elab.async false

section
variable {s : State} {die y x c : Nat}

/-- R78: parameter `k` of context `c`. -/
theorem param_lt (hsite : CtxSite y x c) {k : Nat} (hk : k < 16) : 16 * c + k < 64 := by
  have := hsite.ctx
  omega

/-! ## Copies of the parameters -/

/-- R78: the active copies written from index 0 on read as written, and a field of another register as before. -/
theorem State.rd_activeParams (hsite : CtxSite y x c) (ps : List Word) {n : Nat} (hn : n ≤ 16) (s : State) :
    let t := (List.range n).foldl (fun s k => s.wr F.TILE_PARAM_ACTIVE_VALUE (ps.getD k 0).toNat (16 * c + k) (.tile die y x)) s
    (∀ k < n, t.rd F.TILE_PARAM_ACTIVE_VALUE (16 * c + k) (.tile die y x) = (ps.getD k 0).toNat) ∧
    (∀ {f : Fld} {i : Nat}, f.In i (.tile die y x) → f.reg ≠ .TILE_PARAM_ACTIVE → t.rd f i (.tile die y x) = s.rd f i (.tile die y x)) ∧
    t.arr = s.arr := by
  induction n with
  | zero => exact ⟨fun _ hk => absurd hk (by omega), fun _ _ => rfl, rfl⟩
  | succ n ih =>
    obtain ⟨hnew, hother, harr⟩ := ih (by omega)
    have hin : ∀ {k}, k ≤ n → F.TILE_PARAM_ACTIVE_VALUE.In (16 * c + k) (.tile die y x) :=
      fun hk => hsite.has (show _ < 64 from param_lt hsite (by omega))
    dsimp only
    rw [List.range_succ, List.foldl_append, List.foldl_cons, List.foldl_nil]
    refine ⟨fun k hk => ?_, fun hf hne => ?_, (State.arr_wr ..).trans harr⟩
    · by_cases he : k = n
      · rw [he]
        exact State.rd_wr_fits (f := F.TILE_PARAM_ACTIVE_VALUE) (ps.getD n 0).isLt
      · rw [State.rd_wr_other (hin (Nat.le_refl n)) (hin (by omega)) (.inr (.inl (by omega)))]
        exact hnew k (by omega)
    · rw [State.rd_wr_other (hin (Nat.le_refl n)) hf (.inl hne)]
      exact hother hf hne
theorem State.staged_get (s : State) {k : Nat} (hk : k < 16) :
    ((s.staged die y x c).getD k 0).toNat = s.rd F.TILE_PARAM_VALUE (16 * c + k) (.tile die y x) := by
  rw [State.staged, List.getD_eq_getElem _ _ (by simpa using hk), List.getElem_map, List.getElem_range, BitVec.toNat_ofNat]
  exact Nat.mod_eq_of_lt (State.rd_lt s F.TILE_PARAM_VALUE _ _)
theorem State.staged_congr {s t : State} (h : ∀ k < 16, t.rd F.TILE_PARAM_VALUE (16 * c + k) (.tile die y x) =
    s.rd F.TILE_PARAM_VALUE (16 * c + k) (.tile die y x)) : t.staged die y x c = s.staged die y x c :=
  List.map_congr_left fun k hk => by rw [h k (List.mem_range.mp hk)]
theorem State.nextWord_congr {s t : State} {i : Nat} {vec : Bool} (h : ∀ k < 64, t.rd F.TILE_PROG_WORD (64 * c + k) (.tile die y x) =
    s.rd F.TILE_PROG_WORD (64 * c + k) (.tile die y x)) : t.nextWord die y x c i vec = s.nextWord die y x c i vec :=
  List.find?_congr fun k hk => by rw [State.prog, State.prog, h k (List.mem_range.mp hk)]

/-! ## Adoption -/

/-- R70: the tile's context after a sequencer has adopted. -/
def adopted (t : TileCtx) (ps : List Word) (vec : Bool) : TileCtx :=
  if vec then { t with vparams := ps, vAdopted := true } else { t with mAdopted := true }
/-- R70: what an adoption of pending parameters leaves: the copies of the sequencer, and PENDING until both have adopted. -/
structure State.adopts (s t : State) (die y x c : Nat) (vec : Bool) : Prop where
  ctx : t.tile die y x c = adopted (s.tile die y x c) (s.staged die y x c) vec
  pending : t.flag F.TILE_PARAM_CTRL_PENDING c (.tile die y x) = !((t.tile die y x c).mAdopted && (t.tile die y x c).vAdopted)
  active : vec = false → ∀ k < 16, t.rd F.TILE_PARAM_ACTIVE_VALUE (16 * c + k) (.tile die y x) =
    s.rd F.TILE_PARAM_VALUE (16 * c + k) (.tile die y x)
  kept : vec = true → ∀ k < 16, t.rd F.TILE_PARAM_ACTIVE_VALUE (16 * c + k) (.tile die y x) =
    s.rd F.TILE_PARAM_ACTIVE_VALUE (16 * c + k) (.tile die y x)
  others : ∀ {f : Fld} {i : Nat}, f.In i (.tile die y x) → f.reg ≠ .TILE_PARAM_ACTIVE → f.reg ≠ .TILE_PARAM_CTRL →
    t.rd f i (.tile die y x) = s.rd f i (.tile die y x)
/-- R70: PENDING is cleared once both sequencers have adopted. -/
theorem State.adopts.settle (hsite : CtxSite y x c) {u : State} {vec : Bool}
    (htile : u.tile die y x c = adopted (s.tile die y x c) (s.staged die y x c) vec)
    (hpending : u.flag F.TILE_PARAM_CTRL_PENDING c (.tile die y x) = true)
    (hactive : vec = false → ∀ k < 16, u.rd F.TILE_PARAM_ACTIVE_VALUE (16 * c + k) (.tile die y x) =
      s.rd F.TILE_PARAM_VALUE (16 * c + k) (.tile die y x))
    (hkept : vec = true → ∀ k < 16, u.rd F.TILE_PARAM_ACTIVE_VALUE (16 * c + k) (.tile die y x) =
      s.rd F.TILE_PARAM_ACTIVE_VALUE (16 * c + k) (.tile die y x))
    (hothers : ∀ {f : Fld} {i : Nat}, f.In i (.tile die y x) → f.reg ≠ .TILE_PARAM_ACTIVE → u.rd f i (.tile die y x) = s.rd f i (.tile die y x)) :
    s.adopts (if (adopted (s.tile die y x c) (s.staged die y x c) vec).mAdopted && (adopted (s.tile die y x c) (s.staged die y x c) vec).vAdopted
      then u.wr F.TILE_PARAM_CTRL_PENDING 0 c (.tile die y x) else u) die y x c vec := by
  have hctrl : F.TILE_PARAM_CTRL_PENDING.In c (.tile die y x) := hsite.has hsite.ctx
  have hin : ∀ {k}, k < 16 → F.TILE_PARAM_ACTIVE_VALUE.In (16 * c + k) (.tile die y x) := fun hk => hsite.has (show _ < 64 from param_lt hsite hk)
  rw [← htile]
  split
  next h =>
    have hrd : ∀ {f : Fld} {i : Nat}, f.In i (.tile die y x) → f.reg ≠ .TILE_PARAM_CTRL →
        (u.wr F.TILE_PARAM_CTRL_PENDING 0 c (.tile die y x)).rd f i (.tile die y x) = u.rd f i (.tile die y x) :=
      fun hf hne => State.rd_wr_other hctrl hf (.inl hne)
    refine ⟨(State.tile_wr ..).trans htile, ?_, fun hv k hk => (hrd (hin hk) nofun).trans (hactive hv k hk),
      fun hv k hk => (hrd (hin hk) nofun).trans (hkept hv k hk), fun hf h1 h2 => (hrd hf h2).trans (hothers hf h1)⟩
    rw [State.flag_wr_self, State.tile_wr, h]
    rfl
  next h => exact ⟨htile, by rw [hpending, Bool.eq_false_iff.mpr h]; rfl, hactive, hkept, fun hf h1 _ => hothers hf h1⟩
theorem State.adopts_adopt (hsite : CtxSite y x c) (s : State) (vec : Bool)
    (hpending : s.flag F.TILE_PARAM_CTRL_PENDING c (.tile die y x) = true) : s.adopts (s.adopt die y x c vec) die y x c vec := by
  have hset : ∀ v, (s.setTile die y x c v).tile die y x c = v := fun _ => State.tile_setTile_self ..
  cases vec
  · have hadopt : s.adopt die y x c false = (if (adopted (s.tile die y x c) (s.staged die y x c) false).mAdopted &&
        (adopted (s.tile die y x c) (s.staged die y x c) false).vAdopted
        then ((s.setTile die y x c (adopted (s.tile die y x c) (s.staged die y x c) false)).setActiveParams die y x c
          (s.staged die y x c)).wr F.TILE_PARAM_CTRL_PENDING 0 c (.tile die y x)
        else (s.setTile die y x c (adopted (s.tile die y x c) (s.staged die y x c) false)).setActiveParams die y x c (s.staged die y x c)) := by
      rw [State.adopt, if_pos hpending]
      rfl
    obtain ⟨hnew, hother, harr⟩ := State.rd_activeParams (die := die) hsite (s.staged die y x c) (Nat.le_refl 16)
      (s.setTile die y x c (adopted (s.tile die y x c) (s.staged die y x c) false))
    rw [hadopt]
    refine State.adopts.settle hsite ((State.tile_congr (congrArg (·.tiles) harr) ..).trans (hset _)) ?_
      (fun _ k hk => (hnew k hk).trans (State.staged_get s hk)) nofun fun hf hne => (hother hf hne).trans (State.rd_setTile ..)
    exact (State.flag_congr_rd ((hother (f := F.TILE_PARAM_CTRL_PENDING) (hsite.has hsite.ctx) nofun).trans (State.rd_setTile ..))).trans hpending
  · have hadopt : s.adopt die y x c true = (if (adopted (s.tile die y x c) (s.staged die y x c) true).mAdopted &&
        (adopted (s.tile die y x c) (s.staged die y x c) true).vAdopted
        then (s.setTile die y x c (adopted (s.tile die y x c) (s.staged die y x c) true)).wr F.TILE_PARAM_CTRL_PENDING 0 c (.tile die y x)
        else s.setTile die y x c (adopted (s.tile die y x c) (s.staged die y x c) true)) := by
      rw [State.adopt, if_pos hpending]
      rfl
    rw [hadopt]
    exact State.adopts.settle hsite (hset _) ((State.flag_congr_rd (State.rd_setTile ..)).trans hpending) nofun
      (fun _ _ _ => State.rd_setTile ..) fun _ _ => State.rd_setTile ..

/-! ## PARAM_COMMIT and PARAM_ADOPT -/

/-- R70: a commit has marked the staged parameters pending, and neither sequencer has adopted. -/
def State.committed (s : State) (die y x c : Nat) : State :=
  (s.setTile die y x c { s.tile die y x c with mAdopted := false, vAdopted := false }).wr F.TILE_PARAM_CTRL_PENDING 1 c (.tile die y x)
theorem State.tile_committed (s : State) : (s.committed die y x c).tile die y x c = { s.tile die y x c with mAdopted := false, vAdopted := false } :=
  (State.tile_wr ..).trans (State.tile_setTile_self ..)
theorem State.pending_committed (s : State) : (s.committed die y x c).flag F.TILE_PARAM_CTRL_PENDING c (.tile die y x) = true := by
  rw [State.committed, State.flag_wr_self]
  rfl
theorem State.rd_committed (hsite : CtxSite y x c) (s : State) {f : Fld} {i : Nat} (hf : f.In i (.tile die y x)) (hne : f.reg ≠ .TILE_PARAM_CTRL) :
    (s.committed die y x c).rd f i (.tile die y x) = s.rd f i (.tile die y x) := by
  rw [State.committed, State.rd_wr_other (hsite.has hsite.ctx) hf (.inl hne), State.rd_setTile]
theorem prog_in (hsite : CtxSite y x c) {k : Nat} (hk : k < 64) : F.TILE_PROG_WORD.In (64 * c + k) (.tile die y x) :=
  hsite.has (show 64 * c + k < 256 by have := hsite.ctx; omega)
theorem State.nextWord_committed (hsite : CtxSite y x c) (s : State) (i : Nat) (vec : Bool) :
    (s.committed die y x c).nextWord die y x c i vec = s.nextWord die y x c i vec :=
  State.nextWord_congr fun _ hk => s.rd_committed hsite (prog_in hsite hk) nofun
theorem exec_paramCommit (hdie : die < 4) (hy : y < 24) (hx : x < s.cols) (hct : isCompute y x = true) (hc : c < 4) (hopen : s.dieShut die = false)
    (hidle : s.flag F.TILE_PARAM_CTRL_PENDING c (.tile die y x) = false) :
    exec (.paramCommit die y x c) s = .next (
      let s2 := if (s.nextWord die y x c 0 false).isNone then (s.committed die y x c).adopt die y x c false else s.committed die y x c
      if (s2.nextWord die y x c 0 true).isNone then s2.adopt die y x c true else s2) := by
  have hsite : CtxSite y x c := ⟨hy, hx.trans_le s.cols_le, hct, hc⟩
  have hexec : exec (.paramCommit die y x c) s = .next (s.inDie die "PARAM_COMMIT" (s.commitParams die y x c)) :=
    (if_pos hc).trans (if_pos ⟨hdie, hy, hx, hct⟩)
  rw [hexec, State.inDie, hopen, if_neg Bool.false_ne_true, State.commitParams, hidle, if_neg Bool.false_ne_true,
    ← s.nextWord_committed hsite 0 false]
  rfl
theorem completes_paramCommit_pending (hdie : die < 4) (hy : y < 24) (hx : x < s.cols) (hct : isCompute y x = true) (hc : c < 4)
    (hopen : s.dieShut die = false) (hidle : s.flag F.TILE_PARAM_CTRL_PENDING c (.tile die y x) = false)
    (hm : (s.nextWord die y x c 0 false).isSome = true) (hv : (s.nextWord die y x c 0 true).isSome = true) :
    Completes (.paramCommit die y x c) s (fun t => t.flag F.TILE_PARAM_CTRL_PENDING c (.tile die y x) = true ∧
      (t.tile die y x c).mAdopted = false ∧ (t.tile die y x c).vAdopted = false ∧
      (t.tile die y x c).vparams = (s.tile die y x c).vparams ∧ s.regsBut t (F.TILE_PARAM_CTRL_PENDING.words c (.tile die y x))) := by
  have hsite : CtxSite y x c := ⟨hy, hx.trans_le s.cols_le, hct, hc⟩
  have hsome : ∀ {o : Option Nat}, o.isSome = true → ¬ o.isNone = true := fun ho hn => by simp_all
  refine ⟨_, exec_paramCommit hdie hy hx hct hc hopen hidle, ?_⟩
  dsimp only
  rw [if_neg (hsome hm), s.nextWord_committed hsite, if_neg (hsome hv), s.tile_committed]
  exact ⟨s.pending_committed, rfl, rfl, rfl, (State.regsBut.of_regs .refl rfl).wr (List.Subset.refl _)⟩
theorem completes_paramCommit_adopted (hdie : die < 4) (hy : y < 24) (hx : x < s.cols) (hct : isCompute y x = true) (hc : c < 4)
    (hopen : s.dieShut die = false) (hidle : s.flag F.TILE_PARAM_CTRL_PENDING c (.tile die y x) = false)
    (hm : s.nextWord die y x c 0 false = none) (hv : s.nextWord die y x c 0 true = none) :
    Completes (.paramCommit die y x c) s (fun t => t.flag F.TILE_PARAM_CTRL_PENDING c (.tile die y x) = false ∧
      (t.tile die y x c).vparams = s.staged die y x c ∧
      ∀ k < 16, t.rd F.TILE_PARAM_ACTIVE_VALUE (16 * c + k) (.tile die y x) = s.rd F.TILE_PARAM_VALUE (16 * c + k) (.tile die y x)) := by
  have hsite : CtxSite y x c := ⟨hy, hx.trans_le s.cols_le, hct, hc⟩
  have hparam : ∀ {k}, k < 16 → F.TILE_PARAM_VALUE.In (16 * c + k) (.tile die y x) := fun hk => hsite.has (show _ < 64 from param_lt hsite hk)
  have h1 := (s.committed die y x c).adopts_adopt hsite false s.pending_committed
  have hflag : ((s.committed die y x c).adopt die y x c false).flag F.TILE_PARAM_CTRL_PENDING c (.tile die y x) = true := by
    rw [h1.pending, h1.ctx, s.tile_committed]
    rfl
  have h2 := ((s.committed die y x c).adopt die y x c false).adopts_adopt hsite true hflag
  have hnone : ((s.committed die y x c).adopt die y x c false).nextWord die y x c 0 true = none :=
    (State.nextWord_congr fun k hk => h1.others (prog_in hsite hk) nofun nofun).trans ((s.nextWord_committed hsite 0 true).trans hv)
  have hstaged : ((s.committed die y x c).adopt die y x c false).staged die y x c = s.staged die y x c :=
    State.staged_congr fun k hk => (h1.others (hparam hk) nofun nofun).trans (s.rd_committed hsite (hparam hk) nofun)
  refine ⟨_, exec_paramCommit hdie hy hx hct hc hopen hidle, ?_⟩
  dsimp only
  rw [hm, Option.isNone_none, if_pos rfl, hnone, Option.isNone_none, if_pos rfl]
  refine ⟨?_, ?_, fun k hk => ?_⟩
  · rw [h2.pending, h2.ctx, h1.ctx]
    rfl
  · rw [h2.ctx]
    exact hstaged
  · rw [h2.kept rfl k hk, h1.active rfl k hk, s.rd_committed hsite (hparam hk) nofun]
theorem exec_paramAdopt (hdie : die < 4) (hy : y < 24) (hx : x < s.cols) (hct : isCompute y x = true) (hact : s.active die = some c)
    (vec : Bool) : exec (.paramAdopt die y x vec) s = .next (s.adoptDue die y x c vec) := by
  have hexec : exec (.paramAdopt die y x vec) s = .next (match s.active die with
    | none => s
    | some c => s.adoptDue die y x c vec) := if_pos ⟨hdie, hy, hx, hct⟩
  rw [hexec, hact]
theorem completes_paramAdopt_vec (hdie : die < 4) (hy : y < 24) (hx : x < s.cols) (hct : isCompute y x = true) (hact : s.active die = some c)
    (hpending : s.flag F.TILE_PARAM_CTRL_PENDING c (.tile die y x) = true) (hend : (s.tile die y x c).vEnd = true) :
    Completes (.paramAdopt die y x true) s (fun t =>
      (t.tile die y x c).vEnd = false ∧ (t.tile die y x c).vparams = s.staged die y x c ∧
      (t.flag F.TILE_PARAM_CTRL_PENDING c (.tile die y x) = !(s.tile die y x c).mAdopted)) := by
  have hsite : CtxSite y x c := ⟨hy, hx.trans_le s.cols_le, hct, State.active_lt hact⟩
  have h := (s.setTile die y x c { s.tile die y x c with vEnd := false }).adopts_adopt hsite true
    ((State.flag_congr_rd (State.rd_setTile ..)).trans hpending)
  refine ⟨_, exec_paramAdopt hdie hy hx hct hact true, ?_⟩
  rw [State.adoptDue]
  simp only [hend, if_true]
  rw [h.pending, h.ctx, State.tile_setTile_self]
  exact ⟨rfl, State.staged_congr fun _ _ => State.rd_setTile .., by simp [adopted]⟩
theorem completes_paramAdopt_mat (hdie : die < 4) (hy : y < 24) (hx : x < s.cols) (hct : isCompute y x = true) (hact : s.active die = some c)
    (hpending : s.flag F.TILE_PARAM_CTRL_PENDING c (.tile die y x) = true) (hend : (s.tile die y x c).mEnd = true) :
    Completes (.paramAdopt die y x false) s (fun t =>
      (t.tile die y x c).mEnd = false ∧
      (∀ k < 16, t.rd F.TILE_PARAM_ACTIVE_VALUE (16 * c + k) (.tile die y x) = s.rd F.TILE_PARAM_VALUE (16 * c + k) (.tile die y x)) ∧
      (t.flag F.TILE_PARAM_CTRL_PENDING c (.tile die y x) = !(s.tile die y x c).vAdopted)) := by
  have hsite : CtxSite y x c := ⟨hy, hx.trans_le s.cols_le, hct, State.active_lt hact⟩
  have h := (s.setTile die y x c { s.tile die y x c with mEnd := false }).adopts_adopt hsite false
    ((State.flag_congr_rd (State.rd_setTile ..)).trans hpending)
  refine ⟨_, exec_paramAdopt hdie hy hx hct hact false, ?_⟩
  rw [State.adoptDue]
  simp only [hend, Bool.false_eq_true, if_false, if_true]
  rw [h.pending, h.ctx, State.tile_setTile_self]
  exact ⟨rfl, fun k hk => (h.active rfl k hk).trans (State.rd_setTile ..), by simp [adopted]⟩
end

/-- Settles O38: a commit and an adoption, by what each leaves pending and copied. -/
theorem parametersAreAdoptedAtTheWrap : Obligations.ParametersAreAdoptedAtTheWrap := fun _ _ _ _ _ hdie hy hx hct hc =>
  ⟨fun hopen hidle => ⟨completes_paramCommit_pending hdie hy hx hct hc hopen hidle, completes_paramCommit_adopted hdie hy hx hct hc hopen hidle⟩,
    fun hact hpending => ⟨completes_paramAdopt_vec hdie hy hx hct hact hpending, completes_paramAdopt_mat hdie hy hx hct hact hpending⟩⟩
end Sys2Proof.Machine
end

section
/-!
PROOF. Queues (R79 to R81, R93): a token forwarded from one queue to the next, a returned credit, and the spill's set-up and refill.
-/
namespace Sys2Proof.Machine

set_option Elab.async false

theorem SMap.erase_of_find?_none {α : Type} {m : SMap α} {k : Nat} (h : SMap.find? m k = none) : SMap.erase m k = m := by
  induction m with
  | nil => rfl
  | cons e m ih =>
    rw [SMap.find?] at h
    rw [SMap.erase]
    split at h
    · cases h
    next hne => rw [if_neg hne, ih h]

section
variable {s : State} {die q c : Nat}

/-- R85: a boundary queue without tokens held outside takes none in. -/
theorem State.refillBoundary_empty (h : SMap.find? s.arr.feed (queueKey die q c) = none) : s.refillBoundary die q c = s := by
  have hfeed : SMap.getD s.arr.feed (queueKey die q c) [] = [] := by rw [SMap.getD, h]; rfl
  have hset : SMap.setD s.arr.feed (queueKey die q c) ([] : List Tok) [] = s.arr.feed := by
    rw [SMap.setD, if_pos rfl, SMap.erase_of_find?_none h]
  rw [State.refillBoundary]
  simp only [hfeed, List.drop_nil, List.take_nil, hset]
  rfl
/-- R79: a forwarding of the active context with one destination queue. -/
theorem State.forward_one {tok : Tok} {r : Nat} (hact : s.active die = some c)
    (hfeed : 24 ≤ qidY q → SMap.find? s.arr.feed (queueKey die q c) = none) (hnet : qidNet q ≠ 2) (hhead : s.headTok die q c = some tok)
    (hdests : s.dests die q c = [.queue r]) : s.forward die q =
      if s.roomAt die r c = 0 then s.setQueue die r c { s.queue die r c with waiting := true }
      else ((s.popTok die q c).pushTok die r c tok).fired die c := by
  have hrefill : (if 24 ≤ qidY q then s.refillBoundary die q c else s) = s := by
    split
    next hy => exact State.refillBoundary_empty (hfeed hy)
    · rfl
  rw [State.forward]
  simp only [hact, hrefill, hhead, hdests, hnet, List.isEmpty_cons, decide_false, Bool.false_and, Bool.false_eq_true, if_false,
    State.destsRoom, List.all_cons, List.all_nil, Bool.and_true, decide_eq_true_eq, Nat.pos_iff_ne_zero, ne_eq, ite_not, List.foldl_cons,
    List.foldl_nil]
  split
  · rfl
  · rfl
theorem State.queue_fired (s : State) (k d c' : Nat) : (s.fired die c).queue d k c' = s.queue d k c' := by
  rw [State.queue, State.queue, SMap.getD, SMap.getD,
    ((State.moved.refl (tks := []) (qs := []) (s := s)).fired (die := die) (c := c) (List.Subset.refl _)).queues _ List.not_mem_nil]
/-- R97: a firing changes the die's idle times and its watchdog's count. -/
theorem State.fired_frame (s : State) : s.fired die c = { s with
    arr := { s.arr with idlePosted := (s.fired die c).arr.idlePosted, idleFor := (s.fired die c).arr.idleFor,
                        restFor := (s.fired die c).arr.restFor }
    regs := (s.fired die c).regs } := by
  have hwr := s.wr_regs_only F.WDOG_COUNT_COUNT 0 c (.die die)
  rw [State.fired]
  generalize s.wr F.WDOG_COUNT_COUNT 0 c (.die die) = t at hwr ⊢
  rw [hwr]
theorem qRoom_pos {v : Queue} {net : Nat} (h : 0 < qRoom v net) : v.setup = false := by
  rw [qRoom] at h
  cases hs : v.setup
  · rfl
  · rw [hs] at h
    exact absurd h (by simp)
/-- R93: a token that enters a partition whose extension holds none; the last free entry starts a spill's set-up. -/
theorem qPush_partition {v : Queue} (hext : qToExt v = false) (hsetup : v.setup = false) (tok : Tok) :
    (qPush v tok).toks = v.toks ++ [tok] ∧ (qPush v tok).ext = [] ∧
    ((qPush v tok).setup = true ↔ 0 < v.extLen ∧ v.len ≤ v.toks.length + 1) := by
  have hnil : v.ext = [] := by
    rw [qToExt, Bool.or_eq_false_iff, Bool.not_eq_false'] at hext
    exact List.isEmpty_iff.mp hext.2
  rw [qPush, if_neg (by rw [hext]; exact Bool.false_ne_true), (qFilled_held _).1, (qFilled_held _).2]
  refine ⟨rfl, hnil, ?_⟩
  rw [qFilled]
  simp only [List.length_append, List.length_cons, List.length_nil, Nat.zero_add]
  split
  next h => exact ⟨fun _ => h, fun _ => rfl⟩
  next h => exact ⟨fun hs => absurd (hs.symm.trans hsetup) Bool.false_ne_true.symm, fun hp => absurd hp h⟩
theorem completes_forward_room {tok : Tok} {r : Nat} (hdie : die < 4) (hact : s.active die = some c)
    (hfeed : 24 ≤ qidY q → SMap.find? s.arr.feed (queueKey die q c) = none) (hnet : qidNet q ≠ 2) (hhead : s.headTok die q c = some tok)
    (hdests : s.dests die q c = [.queue r]) (hne : r ≠ q) (hroom : 0 < s.roomAt die r c) (hext : qToExt (s.queue die r c) = false) :
    Completes (.tokenForward die q) s (fun t =>
      (t.queue die q c).toks = (s.queue die q c).toks.tail ∧ (t.queue die q c).freed = (s.queue die q c).freed + 1 ∧
      (t.queue die r c).toks = (s.queue die r c).toks ++ [tok] ∧ (t.queue die r c).ext = [] ∧
      ((t.queue die r c).setup = true ↔ 0 < (s.queue die r c).extLen ∧ (s.queue die r c).len ≤ (s.queue die r c).toks.length + 1) ∧
      t.rd F.WDOG_COUNT_COUNT c (.die die) = 0 ∧
      (∀ k, k ≠ queueKey die q c → k ≠ queueKey die r c → SMap.find? t.arr.queues k = SMap.find? s.arr.queues k) ∧
      s.regsBut t (F.WDOG_COUNT_COUNT.words c (.die die)) ∧
      t = { s with
        arr := { s.arr with queues := t.arr.queues, idlePosted := t.arr.idlePosted, idleFor := t.arr.idleFor, restFor := t.arr.restFor }
        regs := t.regs }) := by
  refine completes_tokenForward hdie q s ?_
  rw [State.forward_one hact hfeed hnet hhead hdests, if_neg (by omega)]
  have hr : (s.popTok die q c).queue die r c = s.queue die r c := State.queue_setQueue_of_ne _ _ _ _ hne
  have hpush : (s.popTok die q c).pushTok die r c tok = (s.popTok die q c).setQueue die r c (qPush (s.queue die r c) tok) := by
    rw [State.pushTok, hr]
    exact if_neg (by rw [hext]; exact Bool.false_ne_true)
  rw [hpush]
  have hmoved : s.moved (((s.popTok die q c).setQueue die r c (qPush (s.queue die r c) tok)).fired die c) [] [queueKey die q c, queueKey die r c]
      (F.WDOG_COUNT_COUNT.words c (.die die)) :=
    (((State.moved.refl.popTok List.mem_cons_self).setQueue (List.mem_cons_of_mem _ List.mem_cons_self)).fired (List.Subset.refl _))
  obtain ⟨htoks, hnil, hsetup⟩ := qPush_partition hext (qRoom_pos hroom) tok
  rw [State.queue_fired, State.queue_fired, State.queue_setQueue_self, State.queue_setQueue_of_ne _ _ _ _ (Ne.symm hne), State.popTok, State.queue_setQueue_self]
  refine ⟨rfl, rfl, htoks, hnil, hsetup, State.rd_fired_wdog .., fun k h1 h2 => hmoved.queues k (by simp [h1, h2]), hmoved.regs, ?_⟩
  exact State.fired_frame _
theorem completes_forward_full {tok : Tok} {r : Nat} (hdie : die < 4) (hact : s.active die = some c)
    (hfeed : 24 ≤ qidY q → SMap.find? s.arr.feed (queueKey die q c) = none) (hnet : qidNet q ≠ 2) (hhead : s.headTok die q c = some tok)
    (hdests : s.dests die q c = [.queue r]) (hfull : s.roomAt die r c = 0) :
    Completes (.tokenForward die q) s (fun t => t = s.setQueue die r c { s.queue die r c with waiting := true }) := by
  refine completes_tokenForward hdie q s ?_
  rw [State.forward_one hact hfeed hnet hhead hdests, if_pos hfull]
theorem completes_creditReturn (hdie : die < 4) (hc : c < 4) (hfreed : 0 < (s.queue die q c).freed) :
    Completes (.creditReturn die q c) s (fun t => t = s.setQueue die q c { s.queue die q c with freed := (s.queue die q c).freed - 1 }) :=
  ⟨_, if_pos ⟨hdie, hc⟩, if_neg (by omega)⟩
theorem completes_spillStart (hdie : die < 4) (hc : c < 4) (hact : s.active die = some c) (hsetup : (s.queue die q c).setup = true) :
    Completes (.spillStart die q c) s (fun t => (t.queue die q c).setup = false ∧ (t.queue die q c).toks = (s.queue die q c).toks ∧
      ((t.queue die q c).armed = true ↔ (s.queue die q c).len ≤ (s.queue die q c).toks.length) ∧
      (t.queue die q c).ext = (s.queue die q c).ext ∧ t = { s with arr := { s.arr with queues := t.arr.queues } }) := by
  refine ⟨_, if_pos ⟨hdie, hc⟩, ?_⟩
  dsimp only
  rw [if_pos ⟨hact, hsetup⟩, State.queue_setQueue_self]
  exact ⟨rfl, rfl, decide_eq_true_iff, rfl, rfl⟩
theorem completes_spillStart_idle (hdie : die < 4) (hc : c < 4) (hsetup : (s.queue die q c).setup = false) :
    Completes (.spillStart die q c) s (fun t => t = s) := by
  refine ⟨_, if_pos ⟨hdie, hc⟩, if_neg ?_⟩
  rw [hsetup]
  exact fun h => Bool.false_ne_true h.2
theorem qRefill_held {v : Queue} {tok : Tok} {rest : List Tok} (h : v.ext = tok :: rest) :
    (qRefill v).toks = v.toks ++ [tok] ∧ (qRefill v).ext = rest := by
  rw [qRefill, h]
  dsimp only
  split
  · exact qFilled_held _
  · exact ⟨rfl, rfl⟩
theorem completes_spillRefill {tok : Tok} {rest : List Tok} (hdie : die < 4) (hc : c < 4) (hact : s.active die = some c)
    (hroom : (s.queue die q c).toks.length < (s.queue die q c).len) (hext : (s.queue die q c).ext = tok :: rest) :
    Completes (.spillRefill die q c) s (fun t => (t.queue die q c).toks = (s.queue die q c).toks ++ [tok] ∧
      (t.queue die q c).ext = rest ∧ t = { s with arr := { s.arr with queues := t.arr.queues } }) := by
  refine ⟨_, if_pos ⟨hdie, hc⟩, ?_⟩
  obtain ⟨htoks, hrest⟩ := qRefill_held hext
  dsimp only
  rw [if_pos ⟨hact, hroom⟩, State.queue_setQueue_self]
  exact ⟨htoks, hrest, rfl⟩
end

/-- Settles O39: each queue command, by what it leaves in the queues it names. -/
theorem queuesMoveTokensInOrder : Obligations.QueuesMoveTokensInOrder := fun _ _ _ _ hdie _ hc =>
  ⟨fun _ _ hact hfeed hnet hhead hdests hne _ => ⟨completes_forward_room hdie hact hfeed hnet hhead hdests hne,
      completes_forward_full hdie hact hfeed hnet hhead hdests⟩,
    completes_creditReturn hdie hc, completes_spillStart hdie hc, completes_spillStart_idle hdie hc, fun _ _ => completes_spillRefill hdie hc⟩
end Sys2Proof.Machine
end

section
/-!
PROOF. Command streams (R135, R137, R138, R142, R143, R166): what the steps of a stream change, and what issuing and completing an entry
leaves.
-/
namespace Sys2Proof.Machine

set_option Elab.async false

/-- The register words that a stream's steps write: its HEAD and STATUS, and its die's power state. -/
def streamWords (die st : Nat) : List Nat :=
  F.STREAM_HEAD_INDEX.words st (.die die) ++ F.STREAM_STATUS_STATE.words st (.die die) ++ (diePs die).words
/-- The registers that a stream's steps write. -/
def streamRegs : List Reg := [.STREAM_HEAD, .STREAM_STATUS, .DIE_STATUS]

/-- From `s` to `t` stream `st` of a die has taken steps of its own: its record, its HEAD and STATUS have changed, its die has stirred, and
messages have gone out. -/
structure State.ticks (s t : State) (die st : Nat) : Prop where
  words : s.regsBut t (streamWords die st)
  within : s.within streamRegs t
  arr : s.sameArr t
  strm : t.strm = { s.strm with streams := t.strm.streams, served := t.strm.served }
  streams : ∀ k, k ≠ streamKey die st → SMap.find? t.strm.streams k = SMap.find? s.strm.streams k
  rest : t = { s with arr := t.arr, regs := t.regs, strm := t.strm, out := t.out }
  sent : ∀ o ∈ s.out, o ∈ t.out

section
variable {s t u : State} {die st : Nat}

theorem State.sameArr.trans (h : s.sameArr t) (k : t.sameArr u) : s.sameArr u := by
  unfold State.sameArr at *
  rw [h] at k
  exact k
theorem State.ticks.refl : s.ticks s die st := ⟨.refl, .refl, rfl, rfl, fun _ _ => rfl, rfl, fun _ h => h⟩
theorem State.ticks.trans (h : s.ticks t die st) (k : t.ticks u die st) : s.ticks u die st where
  words := h.words.trans k.words
  within := h.within.trans k.within
  arr := h.arr.trans k.arr
  strm := by
    have hu := k.strm
    rw [h.strm] at hu
    exact hu
  streams n hn := (k.streams n hn).trans (h.streams n hn)
  rest := by
    have hu := k.rest
    rw [h.rest] at hu
    exact hu
  sent o ho := k.sent o (h.sent o ho)

/-- A stream of a die. -/
structure StreamSite (die st : Nat) : Prop where
  die : die < 4
  st : st < 64

theorem StreamSite.has (h : StreamSite die st) {f : Fld} (hi : f.reg.info.count = 64 := by rfl) (hs : f.reg.info.space = .die := by rfl)
    (hw : f.firstWord + f.wordCount ≤ f.reg.info.words := by decide) : f.In st (.die die) := Fld.in_die (hi ▸ h.st) hs hw
theorem diePs_in (h : die < 4) : (diePs die).In 0 .glob := by
  have h0 : ∀ d < 4, (diePs d).firstWord + (diePs d).wordCount ≤ (diePs d).reg.info.words := by decide
  exact Fld.in_glob (f := diePs die) (show 0 < 1 by decide) rfl (h0 die h)
theorem State.ticks.wr (h : s.ticks t die st) {f : Fld} {v i : Nat} {w : Win} (hin : f.In i w) (hw : f.words i w ⊆ streamWords die st)
    (hr : f.reg ∈ streamRegs := by decide) : s.ticks (t.wr f v i w) die st := by
  refine h.trans ?_
  have hwr := t.wr_regs_only f v i w
  have hwords : t.regsBut (t.wr f v i w) (streamWords die st) := State.regsBut.refl.wr hw
  have hwithin : t.within streamRegs (t.wr f v i w) := State.within.refl.wr hin hr
  generalize t.wr f v i w = t' at hwr hwords hwithin ⊢
  rw [hwr] at hwords hwithin ⊢
  exact ⟨hwords, hwithin, rfl, rfl, fun _ _ => rfl, rfl, fun _ h => h⟩
theorem State.ticks.status (hsite : StreamSite die st) (h : s.ticks t die st) {f : Fld} {v : Nat} (hr : f.reg = .STREAM_STATUS := by rfl)
    (hw : f.firstWord = 0 ∧ f.wordCount = 1 := by decide) : s.ticks (t.wr f v st (.die die)) die st := by
  have hwords : f.words st (.die die) = F.STREAM_STATUS_STATE.words st (.die die) := by
    rw [Fld.words, Fld.words, hr, hw.1, hw.2]
    rfl
  refine h.wr (Fld.in_die (by rw [hr]; exact hsite.st) (by rw [hr]; rfl) (by rw [hw.1, hw.2, hr]; decide)) ?_ (by rw [hr]; decide)
  rw [hwords, streamWords, List.append_assoc]
  exact List.Subset.trans (List.subset_append_left ..) (List.subset_append_right ..)
theorem State.ticks.head (hsite : StreamSite die st) (h : s.ticks t die st) {p : Nat} : s.ticks (t.setHead die st p) die st := by
  have hw : F.STREAM_HEAD_INDEX.words st (.die die) ⊆ streamWords die st := by
    rw [streamWords, List.append_assoc]
    exact List.subset_append_left ..
  exact (h.wr (f := F.STREAM_HEAD_INDEX) hsite.has hw).wr (f := F.STREAM_HEAD_WRAP) hsite.has hw
theorem State.ticks.setStream (h : s.ticks t die st) {v : StreamSt} : s.ticks (t.setStream die st v) die st :=
  h.trans ⟨.of_regs .refl rfl, .of_regs .refl rfl, rfl, rfl, fun _ hk => SMap.find?_setD_of_ne _ _ _ hk, rfl, fun _ h => h⟩
theorem State.ticks.emit (h : s.ticks t die st) {o : Out} : s.ticks (t.emit o) die st :=
  h.trans ⟨.of_regs .refl rfl, .of_regs .refl rfl, rfl, rfl, fun _ _ => rfl, rfl, fun _ h => List.mem_cons_of_mem _ h⟩
theorem State.ticks.restEnds (h : s.ticks t die st) : s.ticks (t.restEnds die) die st :=
  h.trans ⟨.of_regs .refl rfl, .of_regs .refl rfl, rfl, rfl, fun _ _ => rfl, rfl, fun _ h => h⟩
theorem State.ticks.serveStream (h : s.ticks t die st) : s.ticks (t.serveStream die st) die st :=
  h.trans ⟨.of_regs .refl rfl, .of_regs .refl rfl, rfl, rfl, fun _ _ => rfl, rfl, fun _ h => h⟩
theorem State.ticks.stir (hsite : StreamSite die st) (h : s.ticks t die st) : s.ticks (t.stir die) die st := by
  rw [State.stir]
  split
  · exact h.restEnds.wr (f := diePs die) (diePs_in hsite.die) (by rw [streamWords]; exact List.subset_append_right ..)
      (show Reg.DIE_STATUS ∈ streamRegs by decide)
  · exact h.restEnds
theorem State.ticks.refreshStream (hsite : StreamSite die st) (h : s.ticks t die st) : s.ticks (t.refreshStream die st) die st := by
  rw [State.refreshStream]
  split
  · exact h
  split
  · exact h.status hsite
  split
  · exact h.status hsite
  dsimp only
  split
  · exact (h.status hsite).stir hsite
  · exact h.status hsite
theorem State.ticks.advanceHead (hsite : StreamSite die st) (h : s.ticks t die st) : s.ticks (t.advanceHead die st) die st :=
  (h.head hsite).refreshStream hsite
theorem State.ticks.completeEntry (hsite : StreamSite die st) (h : s.ticks t die st) {i n : Nat} {e : EntrySt} :
    s.ticks (t.completeEntry die st i n e) die st := by
  delta State.completeEntry
  extract_lets v held s1 s2 s3 s4
  have h1 : s.ticks s1 die st := h.setStream
  have h2 : s.ticks s2 die st := of_ite (P := fun t : State => s.ticks t die st) (h1.advanceHead hsite) h1
  have h3 : s.ticks s3 die st := of_ite (P := fun t : State => s.ticks t die st) h2.emit h2
  have h4 : s.ticks s4 die st := of_ite (P := fun t : State => s.ticks t die st) (((h3.status hsite).status hsite).status hsite) h3
  exact h4.refreshStream hsite
theorem State.ticks.noteStep (h : s.ticks t die st) {opc c : Nat} : s.ticks (t.noteStep die st opc c) die st := h.setStream.serveStream

/-! ## A stream's record and status -/

@[simp] theorem State.stream_setStream (s : State) (v : StreamSt) : (s.setStream die st v).stream die st = v := SMap.getD_setD_self ..
theorem State.stream_congr (h : t.strm.streams = s.strm.streams) (die st : Nat) : t.stream die st = s.stream die st := by
  rw [State.stream, State.stream, h]
theorem State.stream_refreshStream (s : State) (die st die' st' : Nat) : (s.refreshStream die st).stream die' st' = s.stream die' st' :=
  State.stream_congr (congrArg (·.streams) (State.only.refl (s := s) (may := [.regs, .arr])).refreshStream.strm) ..
theorem State.stream_wr (s : State) (f : Fld) (v i : Nat) (w : Win) (die st : Nat) : (s.wr f v i w).stream die st = s.stream die st :=
  State.stream_congr (by rw [State.wr_regs_only]) ..
theorem State.stream_advanceHead (s : State) (die st die' st' : Nat) : (s.advanceHead die st).stream die' st' = s.stream die' st' := by
  rw [State.advanceHead, State.stream_refreshStream, State.setHead, State.stream_wr, State.stream_wr]
theorem State.strState_lt (s : State) (die st : Nat) : s.strState die st < 8 := State.rd_lt s F.STREAM_STATUS_STATE st _
theorem State.strState_setStrState (s : State) {v : Nat} (h : v < 8) : (s.setStrState die st v).strState die st = v := State.rd_wr_fits h
/-- R404: a die that stirs leaves the state of its streams. -/
theorem State.rd_stir (hdie : die < 4) (s : State) {f : Fld} {i : Nat} {w : Win} (hf : f.In i w) (hr : f.reg ≠ .DIE_STATUS) :
    (s.stir die).rd f i w = s.rd f i w := by
  have hrest : (s.restEnds die).rd f i w = s.rd f i w := State.rd_congr (show (s.restEnds die).regs = s.regs from rfl) ..
  rw [State.stir]
  split
  · exact (State.rd_wr_other (diePs_in hdie) hf (.inl hr)).trans hrest
  · exact hrest
/-- R166: STATE of a stream that is not stopped follows its holder and its entries; a stopped one keeps it. -/
theorem State.strState_refreshStream (hsite : StreamSite die st) (s : State) : (s.refreshStream die st).strState die st =
    if 3 ≤ s.strState die st then s.strState die st
    else if (s.stream die st).holder.isSome then 2 else if s.validCount die st = 0 then 0 else 1 := by
  have hset : ∀ v < 8, (s.setStrState die st v).strState die st = v := fun v hv => State.strState_setStrState s hv
  rw [State.refreshStream]
  split
  · rfl
  split
  · exact hset 2 (by decide)
  split
  · exact hset 0 (by decide)
  dsimp only
  split
  · exact (State.rd_stir hsite.die _ (hsite.has (f := F.STREAM_STATUS_STATE)) nofun).trans (hset 1 (by decide))
  · exact hset 1 (by decide)
theorem State.strState_refreshStream_run (hsite : StreamSite die st) {s : State} (h : s.strState die st < 3) :
    (s.refreshStream die st).strState die st < 3 := by
  rw [State.strState_refreshStream hsite, if_neg (by omega)]
  split
  · decide
  split
  · decide
  · decide
theorem State.headPtr_congr (h1 : t.rd F.STREAM_HEAD_INDEX st (.die die) = s.rd F.STREAM_HEAD_INDEX st (.die die))
    (h2 : t.rd F.STREAM_HEAD_WRAP st (.die die) = s.rd F.STREAM_HEAD_WRAP st (.die die)) : t.headPtr die st = s.headPtr die st := by
  rw [State.headPtr, State.headPtr, h1, h2]
theorem State.headPtr_refreshStream (hsite : StreamSite die st) (s : State) : (s.refreshStream die st).headPtr die st = s.headPtr die st := by
  have hstate : ∀ v {f : Fld}, f.In st (.die die) → f.reg = .STREAM_HEAD → (s.setStrState die st v).rd f st (.die die) = s.rd f st (.die die) :=
    fun v f hf hr => State.rd_wr_other (hsite.has (f := F.STREAM_STATUS_STATE)) hf (.inl (by rw [hr]; nofun))
  have hset : ∀ v, (s.setStrState die st v).headPtr die st = s.headPtr die st := fun v =>
    State.headPtr_congr (hstate v hsite.has rfl) (hstate v hsite.has rfl)
  have hstir : ∀ t : State, (t.stir die).headPtr die st = t.headPtr die st := fun t =>
    State.headPtr_congr (State.rd_stir hsite.die t (hsite.has (f := F.STREAM_HEAD_INDEX)) nofun)
      (State.rd_stir hsite.die t (hsite.has (f := F.STREAM_HEAD_WRAP)) nofun)
  rw [State.refreshStream]
  split
  · rfl
  split
  · exact hset 2
  split
  · exact hset 0
  dsimp only
  split
  · exact (hstir _).trans (hset 1)
  · exact hset 1
theorem State.headPtr_setHead (s : State) {p : Nat} (h : p < 2048) : (s.setHead die st p).headPtr die st = p := by
  have h1 : (s.setHead die st p).rd F.STREAM_HEAD_INDEX st (.die die) = p % 1024 := by
    rw [State.setHead, State.rd_wr_beside]
    exact State.rd_wr_fits (show p % 1024 < 2 ^ 10 by omega)
  have h2 : (s.setHead die st p).rd F.STREAM_HEAD_WRAP st (.die die) = p / 1024 % 2 := State.rd_wr_fits (show p / 1024 % 2 < 2 ^ 1 by omega)
  rw [State.headPtr, h1, h2]
  omega
theorem State.headPtr_advanceHead (hsite : StreamSite die st) (s : State) :
    (s.advanceHead die st).headPtr die st = (s.headPtr die st + 1) % 2048 := by
  rw [State.advanceHead, State.headPtr_refreshStream hsite, State.headPtr_setHead _ (by omega)]
theorem State.strState_setHead (hsite : StreamSite die st) (s : State) (p : Nat) : (s.setHead die st p).strState die st = s.strState die st :=
  (State.rd_wr_other (hsite.has (f := F.STREAM_HEAD_WRAP)) (hsite.has (f := F.STREAM_STATUS_STATE)) (.inl nofun)).trans
    (State.rd_wr_other (hsite.has (f := F.STREAM_HEAD_INDEX)) (hsite.has (f := F.STREAM_STATUS_STATE)) (.inl nofun))
theorem State.strState_advanceHead_run (hsite : StreamSite die st) {s : State} (h : s.strState die st < 3) :
    (s.advanceHead die st).strState die st < 3 :=
  State.strState_refreshStream_run hsite ((State.strState_setHead hsite ..).symm ▸ h)

/-! ## Completion -/

/-- R142: an entry that completes. -/
structure State.completes (s t : State) (die st i n : Nat) (e : EntrySt) : Prop where
  ticks : s.ticks t die st
  record : t.stream die st = { s.stream die st with
    flying := (s.stream die st).flying.filter (fun f => decide (f.entry ≠ i))
    holder := if (s.stream die st).holder = some i then none else (s.stream die st).holder }
  head : t.headPtr die st = if (s.stream die st).holder = some i then (s.headPtr die st + 1) % 2048 else s.headPtr die st
  notice : e ≠ .ok ∨ eNotify n = true → .notice die st (eTag n) e ∈ t.out
  stops : e ≠ .ok → eContinue n = false → s.strState die st ≠ 5 → t.strState die st = 4
  runs : s.strState die st < 3 → ¬ (e ≠ .ok ∧ eContinue n = false) → t.strState die st < 3
  error : e ≠ .ok → eContinue n = false → s.strState die st ≠ 5 → t.rd F.STREAM_STATUS_ERR_STATUS st (.die die) = entryCode e
theorem State.completes_completeEntry (hsite : StreamSite die st) (s : State) (i n : Nat) (e : EntrySt) :
    s.completes (s.completeEntry die st i n e) die st i n e := by
  have hticks : s.ticks (s.completeEntry die st i n e) die st := State.ticks.refl.completeEntry hsite
  revert hticks
  delta State.completeEntry
  extract_lets v held s1 s2 s3 s4
  intro hticks
  have hstream1 : s1.stream die st = { v with
      flying := v.flying.filter (fun f => decide (f.entry ≠ i)), holder := if held then none else v.holder } := State.stream_setStream ..
  have hheld : held = true ↔ v.holder = some i := decide_eq_true_iff
  have hstream2 : s2.stream die st = s1.stream die st := by
    rcases hh : held with _ | _ <;> simp only [s2, hh, if_true, Bool.false_eq_true, if_false, State.stream_advanceHead]
  have hhead2 : s2.headPtr die st = if v.holder = some i then (s.headPtr die st + 1) % 2048 else s.headPtr die st := by
    rcases hh : held with _ | _
    · rw [if_neg fun he => Bool.false_ne_true (hh.symm.trans (hheld.mpr he))]
      simp only [s2, hh, Bool.false_eq_true, if_false]
      exact State.headPtr_congr (State.rd_setStream ..) (State.rd_setStream ..)
    · rw [if_pos (hheld.mp hh)]
      simp only [s2, hh, if_true]
      rw [State.headPtr_advanceHead hsite]
      exact congrArg (fun p => (p + 1) % 2048) (State.headPtr_congr (State.rd_setStream ..) (State.rd_setStream ..))
  have hstate1 : s1.strState die st = s.strState die st := State.rd_setStream ..
  have hstate2 : s2.strState die st = s.strState die st ∨ s2.strState die st < 3 ∧ s.strState die st < 3 := by
    rcases hh : held with _ | _
    · simp only [s2, hh, Bool.false_eq_true, if_false]
      exact .inl hstate1
    · simp only [s2, hh, if_true]
      by_cases h3 : s.strState die st < 3
      · exact .inr ⟨State.strState_advanceHead_run hsite (hstate1 ▸ h3), h3⟩
      · left
        rw [State.advanceHead, State.strState_refreshStream hsite, State.strState_setHead hsite, if_pos (by omega), hstate1]
  have hthree : s3.regs = s2.regs ∧ s3.strm = s2.strm := by
    simp only [s3]
    split
    · exact ⟨rfl, rfl⟩
    · exact ⟨rfl, rfl⟩
  have hstate3 : s3.strState die st = s2.strState die st := State.rd_congr hthree.1 ..
  have hhead3 : s3.headPtr die st = s2.headPtr die st := State.headPtr_congr (State.rd_congr hthree.1 ..) (State.rd_congr hthree.1 ..)
  have hstream3 : s3.stream die st = s2.stream die st := State.stream_congr (congrArg (·.streams) hthree.2) ..
  have hnotice3 : e ≠ .ok ∨ eNotify n = true → .notice die st (eTag n) e ∈ s3.out := fun h => by
    simp only [s3, if_pos h]
    exact List.mem_cons_self
  have hstatus : ∀ {f g : Fld} {v : Nat} (u : State), f.reg = .STREAM_STATUS → g.reg = .STREAM_HEAD → f.In st (.die die) → g.In st (.die die) →
      (u.wr f v st (.die die)).rd g st (.die die) = u.rd g st (.die die) := fun u hf hg h1 h2 => State.rd_wr_other h1 h2 (.inl (by rw [hf, hg]; nofun))
  have hhead4 : s4.headPtr die st = s3.headPtr die st := by
    simp only [s4]
    split
    · refine State.headPtr_congr ?_ ?_ <;>
        rw [hstatus _ rfl rfl hsite.has hsite.has, hstatus _ rfl rfl hsite.has hsite.has, State.setStrState, hstatus _ rfl rfl hsite.has hsite.has]
    · rfl
  have hstream4 : s4.stream die st = s3.stream die st := by
    simp only [s4]
    split
    · rw [State.stream_wr, State.stream_wr, State.setStrState, State.stream_wr]
    · rfl
  have hout4 : s4.out = s3.out := by
    simp only [s4]
    split
    · rw [State.out_wr, State.out_wr, State.setStrState, State.out_wr]
    · rfl
  have hstop4 : e ≠ .ok ∧ ¬ eContinue n ∧ s3.strState die st ≠ 5 → s4.strState die st = 4 ∧
      s4.rd F.STREAM_STATUS_ERR_STATUS st (.die die) = entryCode e := fun h => by
    simp only [s4, if_pos h]
    refine ⟨?_, ?_⟩
    · rw [State.strState, State.rd_wr_beside, State.rd_wr_beside]
      exact State.strState_setStrState _ (by decide)
    · rw [State.rd_wr_beside]
      exact State.rd_wr_fits (show entryCode e < 2 ^ 3 by cases e <;> decide)
  have hstopped : e ≠ .ok → eContinue n = false → s.strState die st ≠ 5 → s4.strState die st = 4 ∧
      s4.rd F.STREAM_STATUS_ERR_STATUS st (.die die) = entryCode e := fun h1 h2 h3 => hstop4 ⟨h1, by rw [h2]; exact Bool.false_ne_true, by omega⟩
  have hstays : s4.strState die st = 4 → s4.refreshStream die st = s4 := fun h => by
    rw [State.refreshStream, if_pos (by omega)]
  refine ⟨hticks, ?_, ?_, fun h => ?_, fun h1 h2 h3 => ?_, fun h1 h2 => ?_, fun h1 h2 h3 => ?_⟩
  · rw [State.stream_refreshStream, hstream4, hstream3, hstream2, hstream1]
    simp only [hheld]
    rfl
  · rw [State.headPtr_refreshStream hsite, hhead4, hhead3, hhead2]
  · rw [(State.only.refl (s := s4) (may := [.regs, .arr])).refreshStream.out, hout4]
    exact hnotice3 h
  · rw [hstays (hstopped h1 h2 h3).1]
    exact (hstopped h1 h2 h3).1
  · refine State.strState_refreshStream_run hsite ?_
    have hs4 : s4 = s3 := if_neg fun h => h2 ⟨h.1, by simpa using h.2.1⟩
    rw [hs4]
    omega
  · rw [hstays (hstopped h1 h2 h3).1]
    exact (hstopped h1 h2 h3).2

/-! ## Issue -/

/-- R135: an entry that may issue finds its stream running and not held. -/
theorem State.mayIssue_runs (h : s.mayIssue die st = true) : s.strState die st < 3 ∧ (s.stream die st).holder = none ∧
    0 < s.validCount die st ∧ s.flag F.SERGE_STATUS_ONLINE (st / 8) (.die die) = true := by
  rw [State.mayIssue, State.canIssue] at h
  simp only [Bool.and_eq_true, decide_eq_true_eq, Option.isNone_iff_eq_none] at h
  obtain ⟨⟨⟨⟨h1, h2⟩, h3⟩, h4⟩, _⟩ := h
  exact ⟨h2, h3, h4, h1⟩
theorem State.cutDispatch_none (h : s.openDispatch die st = none) (opc : Nat) : s.cutDispatch die st opc = s := by
  rw [State.cutDispatch, h]
theorem State.atHead.site {i n : Nat} (h : s.atHead die st i n) : StreamSite die st := ⟨h.1.1, h.1.2.1⟩
theorem State.atHead.runs {i n : Nat} (h : s.atHead die st i n) : s.strState die st < 3 ∧ (s.stream die st).holder = none := by
  obtain ⟨⟨_, _, hissue, _⟩, _⟩ := h
  exact ⟨(State.mayIssue_runs hissue).1, (State.mayIssue_runs hissue).2.1⟩
/-- R135: a command of the stream that issues its head entry. -/
theorem State.issueHead_of_atHead {i n opc : Nat} (h : s.atHead die st i n) (ho : eOpc n = opc) (run : State → Nat → Nat → Issue) :
    s.issueHead die st opc run = (match run s i n with
      | .done e t => (((t.noteStep die st opc (eSlot n)).advanceHead die st).completeEntry die st i n e)
      | .fly t f => ((t.noteStep die st opc (eSlot n)).setStream die st { (t.noteStep die st opc (eSlot n)).stream die st with
          flying := ((t.noteStep die st opc (eSlot n)).stream die st).flying ++ [f] }).advanceHead die st
      | .hold cause t f => (((t.noteStep die st opc (eSlot n)).setStream die st { (t.noteStep die st opc (eSlot n)).stream die st with
          flying := ((t.noteStep die st opc (eSlot n)).stream die st).flying ++ [f], holder := some i }).refreshStream die st).wr
            F.STREAM_STATUS_HELD_CAUSE cause st (.die die)
      | .wait cause t => (t.setStrState die st 2).wr F.STREAM_STATUS_HELD_CAUSE cause st (.die die)) := by
  obtain ⟨⟨_, _, hissue, hi, hn, hok⟩, hopen⟩ := h
  rw [State.issueHead, if_pos hissue]
  dsimp only
  rw [← hi, ← hn, if_neg (by rw [hok]; simp), if_neg (by rw [ho]; simp), State.cutDispatch_none hopen] <;> rfl
end
end Sys2Proof.Machine
end

section
/-!
PROOF. Requests that wait for a way of the weight cache (R130). A pin that ends lets one proceed, and its data is delivered to the port that
its asker names; the slot of that port is no field of the module that the statements about streams bound. Delivery to a port that spills counts
the slot's SPILL_TOKENS (R93), and in a state whose waiting request names a slot beyond the die's four, that counter lies in the register block
of a stream.
-/
namespace Sys2Proof.Machine

set_option Elab.async false

/-- A writable page in the near tier, in frame 0 of stack 0. -/
def nearPage : Pte :=
  { isSealed := false, near := true, bulk := false, deep := false, moving := false, freeing := false, windowed := false, place := 0, budget := 0,
    mwin := 0, nearStack := 0, nearFrame := 0, bulkFrame := 0, deepDrive := 0, deepExtent := 0, check := 0, len := 0, access := 0, owner := 0,
    nodeep := false, sealing := false, winSeq := 0 }
/-- The slot number whose SPILL_TOKENS would stand at the address of stream 0's instance of `r`, on die 0. -/
def slotAt (r : Reg) : Nat := (r.info.base - (Reg.info .SPILL_TOKENS).base) / 4
/-- An empty queue whose arrivals go to its extension. -/
def spillingQueue : Queue := { Queue.empty with len := 1, extLen := 1, armed := true }
/-- The registers of `s`, stream 0 of die 0 with the record `v` and the command `n` at ring index 1; line 0 of the cache is pinned, and a
request for it waits whose asker's slot counts its SPILL_TOKENS in `r`. -/
def waitingAt (s : State) (v : StreamSt) (n : BitVec 512) (r : Reg) : State := { s.setSlotState 0 (slotAt r) .active with
  strm := { s.strm with streams := [(streamKey 0 0, v)], cmdMem := [(cmdKey 0 0 1, n)] }
  mas := { s.mas with pages := [(0, nearPage)] }
  arr := { s.arr with
    queues := [(queueKey 0 0 (slotAt r), spillingQueue)]
    wc := [(wcKey 0 0 0, [{ line := 0, pins := 1, filling := false, waiters := [] }])]
    wcWait := [(0, 0, 0, 1, .array 0 0 (slotAt r))] } }
/-- The pins of one prefetch, of line 0 in strip 0. -/
def pinnedLine (complete : Bool) : StreamSt := { StreamSt.empty with
  pins := [{ tag := 0, entry := 5, lines := [0], target := 0, complete := complete, released := false }] }
/-- HEAD of stream 0 of die 0 after a command. -/
def headAfter (c : Sys2Proof.Instr) (s : State) : Nat :=
  match exec c s with
  | .next t => t.headPtr 0 0
  | _ => 0
theorem headAfter_of_next {c : Sys2Proof.Instr} {s t : State} (h : exec c s = .next t) : headAfter c s = t.headPtr 0 0 := by
  rw [headAfter, h]

/-- Stream 0 of die 0 at a PF_RELEASE, the second entry of its ring. -/
def releasing : State := waitingAt
  ((((State.reset.wr F.SERGE_STATUS_ONLINE 1 0 (.die 0)).wr F.STREAM_HEAD_INDEX 1 0 (.die 0)).wr F.STREAM_TAIL_INDEX 2 0 (.die 0)).wr
    F.STREAM_STATUS_STATE 1 0 (.die 0)) (pinnedLine true) 0x12 .STREAM_HEAD
theorem atHead_releasing : releasing.atHead 0 0 1 0x12 :=
  ⟨⟨by decide, by decide, by decide +kernel, by decide +kernel, by decide +kernel, by decide +kernel⟩, by decide +kernel⟩
theorem headAfter_releasing : releasing.headPtr 0 0 = 1 ∧ headAfter (.pfRelease 0 0) releasing = 3 := by decide +kernel
/-- Refutes O46: the request that a PF_RELEASE lets proceed moves the stream's HEAD on before the entry completes. -/
theorem not_streamEntriesCompleteAtIssue : ¬ Obligations.StreamEntriesCompleteAtIssue := by
  intro h
  obtain ⟨-, -, -, hrelease, -⟩ := h releasing 0 0 1 0x12
  obtain ⟨t, ht, ⟨hpast, -⟩, -⟩ := hrelease atHead_releasing (by decide)
  obtain ⟨hbefore, hafter⟩ := headAfter_releasing
  rw [headAfter_of_next ht, hpast, hbefore] at hafter
  exact absurd hafter (by decide)

/-- Stream 0 of die 0, running with nothing on its ring that is not yet issued, HEAD and TAIL apart. -/
def aborting : State := waitingAt (((State.reset.wr (diePs 0) 0).wr F.STREAM_TAIL_INDEX 1 0 (.die 0)).wr F.STREAM_STATUS_STATE 1 0 (.die 0))
  (pinnedLine false) 0 .STREAM_TAIL
theorem headAfter_aborting : aborting.tailPtr 0 0 = 1 ∧ headAfter (.abort 0 0) aborting = 2 := by decide +kernel
/-- Refutes O49: the request that an ABORT lets proceed moves the stream's TAIL on before HEAD follows it. -/
theorem not_streamsAreControlled : ¬ Obligations.StreamsAreControlled := by
  intro h
  obtain ⟨-, -, -, -, habort, -⟩ := h aborting 0 0 (by decide) (by decide) (by decide +kernel)
  obtain ⟨t, ht, -, hhead, -⟩ := habort (by decide +kernel)
  obtain ⟨hbefore, hafter⟩ := headAfter_aborting
  rw [headAfter_of_next ht, hhead, hbefore] at hafter
  exact absurd hafter (by decide)

/-- Stream 0 of die 0, held by a STEP at ring index 1. -/
def stepping : State := waitingAt ((State.reset.wr F.STREAM_HEAD_INDEX 1 0 (.die 0)).wr F.STREAM_STATUS_STATE 2 0 (.die 0))
  { pinnedLine false with flying := [flyOf 1 0x30 .none 0 0 0], holder := some 1 } 0x30 .STREAM_HEAD
theorem headAfter_stepping : stepping.headPtr 0 0 = 1 ∧ headAfter (.stepComplete 0 0 []) stepping = 3 ∧
    stepping.flag F.STREAM_CTRL_STEP_MASTER 0 (.die 0) = false := by decide +kernel
/-- Refutes O48: the request that a STEP's end lets proceed moves the stream's HEAD on before the STEP completes. -/
theorem not_streamEntriesFinish : ¬ Obligations.StreamEntriesFinish := by
  intro h
  obtain ⟨-, -, -, -, -, -, -, -, -, -, -, hstep, -⟩ := h stepping 0 0 1 0x30
  obtain ⟨t, ht, u, hpast, -, -, -, -, -, -, htu⟩ := hstep [] (by decide) (by decide) (by decide +kernel) (by decide +kernel)
  obtain ⟨hbefore, hafter, hmaster⟩ := headAfter_stepping
  rw [hmaster, if_neg Bool.false_ne_true] at htu
  rw [headAfter_of_next ht, htu, hpast, hbefore] at hafter
  exact absurd hafter (by decide)
end Sys2Proof.Machine
end

section
/-!
PROOF. The way to the near tier (R19, R125, R129, R130): which registers the agents and the weight cache of a die count in.
-/
namespace Sys2Proof.Machine

set_option Elab.async false

section
variable {s₀ s t : State}

/-- The registers in which the agents and the weight caches count. -/
def pathRegs : List Reg := [.MEA_TMISS, .WC_HITS, .WC_MISSES, .WC_MERGES]

theorem State.within.bump {rs : List Reg} {f : Fld} {n i : Nat} {w : Win} (h : s₀.within rs s) (hf : f.In i w) (hr : f.reg ∈ rs := by decide) :
    s₀.within rs (s.bump f n i w) := h.wr hf hr
theorem State.within.requestRange {rs : List Reg} {a n die cls : Nat} (h : s₀.within rs s) : s₀.within rs (s.requestRange a n die cls) :=
  h.of_regs ((State.only.refl (s := s) (may := [.arr, .mas])).requestRange.regs)
theorem tmiss_in {d k : Nat} (hk : k < 10) : F.MEA_TMISS_COUNT.In k (.die d) := Fld.in_die hk
theorem State.within.translate {rs : List Reg} {d k pn : Nat} (h : s₀.within rs s) (hk : k < 10) (hr : Reg.MEA_TMISS ∈ rs := by decide) :
    s₀.within rs (s.translate d k pn) := by
  delta State.translate
  extract_lets s1 l f r src src'
  have h1 : s₀.within rs s1 := (h.bump (tmiss_in hk) hr).of_regs ((State.only.refl (may := [.mas])).touch.regs)
  have hr : s₀.within rs r.2 := by
    unfold r
    split
    · exact h1
    · exact h1.of_regs rfl
  exact .ite h (.ite h1 (hr.of_regs rfl))
theorem State.agentOf_lt {a d j : Nat} (h : s.agentOf a = some (d, j)) : j < 10 := by
  rw [State.agentOf] at h
  split at h
  · split at h
    · simp only [Option.some.injEq, Prod.mk.injEq] at h
      omega
    · cases h
  · cases h
theorem State.within.agentPath {rs : List Reg} {d k a n : Nat} (h : s₀.within rs s) (hk : k < 10) (hr : Reg.MEA_TMISS ∈ rs := by decide) :
    s₀.within rs (s.agentPath d k a n) := by
  delta State.agentPath
  refine h.foldl fun u pn _ hu => ?_
  extract_lets s1 gs s2
  have h1 : s₀.within rs s1 := hu.translate hk hr
  have h2 : s₀.within rs s2 := by
    unfold s2
    split
    · exact .ite h1 (h1.of_regs rfl)
    · exact h1
  refine h2.foldl fun v g _ hv => ?_
  split
  next hg => exact hv.translate (State.agentOf_lt hg) hr
  · exact hv
theorem State.firstAgent_lt (s : State) (a : Nat) : s.firstAgent a < 10 := by
  rw [State.firstAgent]
  split
  next h => exact State.agentOf_lt h
  · omega
theorem State.edgeAgent_lt (s : State) (d strip a : Nat) : s.edgeAgent d strip a < 10 := by
  delta State.edgeAgent
  have := s.firstAgent_lt a
  extract_lets j
  split
  · exact this
  split <;> omega
theorem State.within.dataPath {rs : List Reg} {d a n : Nat} (h : s₀.within rs s) (hr : Reg.MEA_TMISS ∈ rs := by decide) :
    s₀.within rs (s.dataPath d a n) := h.agentPath (s.firstAgent_lt a) hr
theorem State.within_wcAllocate {d strip line pins : Nat} {who : List (Asker × Nat × Nat)} (h : s.wcAllocate d strip line pins who = some t) :
    s.within pathRegs t := by
  rw [State.wcAllocate, Option.map_eq_some_iff] at h
  obtain ⟨l, -, rfl⟩ := h
  refine (State.within.requestRange (State.within.agentPath ?_ (s.edgeAgent_lt d strip line))).bump (Fld.in_die (by decide))
  exact State.within.refl.of_regs rfl
theorem State.within.wcPin {d strip line : Nat} (h : s₀.within pathRegs s) : s₀.within pathRegs (s.wcPin d strip line).1 := by
  delta State.wcPin
  extract_lets k
  split
  next v _ =>
    cases hv : v.filling
    · exact (h.of_regs rfl).bump (f := F.WC_HITS_COUNT) (Fld.in_die (by decide))
    · exact (h.of_regs rfl).bump (f := F.WC_MERGES_COUNT) (Fld.in_die (by decide))
  · split
    · exact h
    next hw => exact h.trans (State.within_wcAllocate hw)
theorem State.within.pinLines {d target : Nat} {lines : List Nat} (h : s₀.within pathRegs s) :
    s₀.within pathRegs (s.pinLines d target lines).1 := by
  rw [State.pinLines]
  refine List.foldlRecOn (motive := fun g : State × List Nat => s₀.within pathRegs g.1) _ _ h fun g hg l _ => ?_
  have hpin : ∀ ks : List Nat, s₀.within pathRegs (ks.foldl (fun (h : State × Bool) k => if h.2 then h.1.wcPin d k l else h) (g.1, true)).1 :=
    fun ks => List.foldlRecOn (motive := fun h : State × Bool => s₀.within pathRegs h.1) _ _ hg fun h hh k _ => by
      split
      · exact hh.wcPin
      · exact hh
  dsimp only
  split
  · exact hpin _
  · exact hg
end
end Sys2Proof.Machine
end

section
/-!
PROOF. Entries that issue and go on, or hold their stream (R141 to R148, R156, R161).
-/
namespace Sys2Proof.Machine

set_option Elab.async false

section
variable {s t u : State} {die st i n opc c : Nat} {f : InFlight}

/-- R143: the stream has issued the in-flight entry `f` of its head, and HEAD goes on. -/
def State.flown (s : State) (die st opc c : Nat) (f : InFlight) : State :=
  ((s.noteStep die st opc c).setStream die st { (s.noteStep die st opc c).stream die st with
    flying := ((s.noteStep die st opc c).stream die st).flying ++ [f] }).advanceHead die st
/-- R143: the stream has issued the entry `f` of its head at ring index `i`, and is held by it. -/
def State.heldBy (s : State) (die st opc c i cause : Nat) (f : InFlight) : State :=
  (((s.noteStep die st opc c).setStream die st { (s.noteStep die st opc c).stream die st with
    flying := ((s.noteStep die st opc c).stream die st).flying ++ [f], holder := some i }).refreshStream die st).wr
      F.STREAM_STATUS_HELD_CAUSE cause st (.die die)

theorem State.issueHead_of_ready (h : s.headReady die st i n) (ho : eOpc n = opc) (hcut : s.cutDispatch die st opc = s)
    (run : State → Nat → Nat → Issue) :
    s.issueHead die st opc run = (match run s i n with
      | .done e t => (((t.noteStep die st opc (eSlot n)).advanceHead die st).completeEntry die st i n e)
      | .fly t f => t.flown die st opc (eSlot n) f
      | .hold cause t f => t.heldBy die st opc (eSlot n) i cause f
      | .wait cause t => (t.setStrState die st 2).wr F.STREAM_STATUS_HELD_CAUSE cause st (.die die)) := by
  obtain ⟨-, -, hissue, hi, hn, hok⟩ := h
  rw [State.issueHead, if_pos hissue]
  dsimp only
  rw [← hi, ← hn, if_neg (by rw [hok]; simp), if_neg (by rw [ho]; simp), hcut]
  rfl
theorem State.headReady.site (h : s.headReady die st i n) : StreamSite die st := ⟨h.1, h.2.1⟩
theorem issues_fly {P : State → Prop} {run : State → Nat → Nat → Issue} (h : s.headReady die st i n) (ho : eOpc n = opc)
    (hcut : s.cutDispatch die st opc = s) (hrun : run s i n = .fly t f) (hP : P (t.flown die st opc (eSlot n) f)) :
    ∃ u, onStream die st (.next (s.issueHead die st opc run)) = .next u ∧ P u := by
  refine ⟨_, if_pos ⟨h.1, h.2.1⟩, ?_⟩
  rw [State.issueHead_of_ready h ho hcut, hrun]
  exact hP
theorem issues_hold {P : State → Prop} {run : State → Nat → Nat → Issue} {cause : Nat} (h : s.headReady die st i n) (ho : eOpc n = opc)
    (hcut : s.cutDispatch die st opc = s) (hrun : run s i n = .hold cause t f) (hP : P (t.heldBy die st opc (eSlot n) i cause f)) :
    ∃ u, onStream die st (.next (s.issueHead die st opc run)) = .next u ∧ P u := by
  refine ⟨_, if_pos ⟨h.1, h.2.1⟩, ?_⟩
  rw [State.issueHead_of_ready h ho hcut, hrun]
  exact hP

theorem State.stream_serveStream (s : State) : (s.serveStream die st).stream die st = s.stream die st := rfl
theorem State.ticks.dispatch (h : s.ticks t die st) (c : Nat) : t.dispatch die c = s.dispatch die c := by
  rw [State.dispatch, State.dispatch, h.strm]
theorem State.ticks.mas (h : s.ticks t die st) : t.mas = s.mas := by rw [h.rest]
theorem State.ticks_flown (hsite : StreamSite die st) (s : State) : s.ticks (s.flown die st opc c f) die st :=
  (State.ticks.refl.noteStep.setStream).advanceHead hsite
theorem State.headPtr_flown (hsite : StreamSite die st) (s : State) : (s.flown die st opc c f).headPtr die st = (s.headPtr die st + 1) % 2048 :=
  (State.headPtr_advanceHead hsite _).trans (congrArg (fun p => (p + 1) % 2048)
    (State.headPtr_congr (State.rd_congr (s := s) rfl ..) (State.rd_congr (s := s) rfl ..)))
theorem State.stream_noteStep (s : State) : ∃ ks, (s.noteStep die st opc c).stream die st = { s.stream die st with inStep := true, stepSlots := ks } :=
  ⟨_, (State.stream_serveStream _).trans (State.stream_setStream ..)⟩
theorem State.stream_flown (s : State) : ∃ ks, (s.flown die st opc c f).stream die st =
    { s.stream die st with inStep := true, stepSlots := ks, flying := (s.stream die st).flying ++ [f] } := by
  obtain ⟨ks, hks⟩ := State.stream_noteStep (die := die) (st := st) (opc := opc) (c := c) s
  refine ⟨ks, ?_⟩
  rw [State.flown, State.stream_advanceHead, State.stream_setStream, hks]
theorem State.flying_flown (s : State) : ((s.flown die st opc c f).stream die st).flying = (s.stream die st).flying ++ [f] := by
  obtain ⟨_, h⟩ := State.stream_flown (die := die) (st := st) (opc := opc) (c := c) (f := f) s
  rw [h]
theorem State.mem_flying_flown (s : State) : f ∈ ((s.flown die st opc c f).stream die st).flying := by
  rw [State.flying_flown]
  exact List.mem_append_right _ (List.mem_singleton_self f)
theorem State.entryFlies_flown {cls : EClass} {a b len : Nat} (hsite : StreamSite die st) (h : t.headPtr die st = s.headPtr die st) :
    s.entryFlies (t.flown die st opc c (flyOf i n cls a b len)) die st i n cls :=
  ⟨(State.headPtr_flown hsite t).trans (congrArg (fun p => (p + 1) % 2048) h), _, State.mem_flying_flown t, rfl, rfl, rfl, rfl⟩

theorem State.ticks_heldBy (hsite : StreamSite die st) (s : State) {cause : Nat} : s.ticks (s.heldBy die st opc c i cause f) die st :=
  ((State.ticks.refl.noteStep.setStream).refreshStream hsite).status hsite
theorem State.entryHolds_heldBy {cause a b len : Nat} {cls : EClass} (hsite : StreamSite die st) (hhead : t.headPtr die st = s.headPtr die st)
    (hrun : t.strState die st < 3) : s.entryHolds (t.heldBy die st opc c i cause (flyOf i n cls a b len)) die st i n := by
  obtain ⟨ks, hks⟩ := State.stream_noteStep (die := die) (st := st) (opc := opc) (c := c) t
  have hstream : (t.heldBy die st opc c i cause (flyOf i n cls a b len)).stream die st = { t.stream die st with
      inStep := true, stepSlots := ks, flying := (t.stream die st).flying ++ [flyOf i n cls a b len], holder := some i } := by
    rw [State.heldBy, State.stream_wr, State.stream_refreshStream, State.stream_setStream, hks]
  have hcause : ∀ {g : Fld} (v : State), g.reg = .STREAM_HEAD → g.In st (.die die) →
      (v.wr F.STREAM_STATUS_HELD_CAUSE cause st (.die die)).rd g st (.die die) = v.rd g st (.die die) := fun v hr hg =>
    State.rd_wr_other (hsite.has (f := F.STREAM_STATUS_HELD_CAUSE)) hg (.inl (by rw [hr]; nofun))
  refine ⟨?_, ?_, ?_, ?_⟩
  · rw [State.heldBy]
    refine (State.headPtr_congr (hcause _ rfl hsite.has) (hcause _ rfl hsite.has)).trans ((State.headPtr_refreshStream hsite _).trans ?_)
    exact (State.headPtr_congr (State.rd_congr (s := t) rfl ..) (State.rd_congr (s := t) rfl ..)).trans hhead
  · rw [hstream]
  · rw [State.heldBy, State.strState, State.rd_wr_beside]
    refine (State.strState_refreshStream hsite _).trans ?_
    have hstate : ∀ v, ((t.noteStep die st opc c).setStream die st v).strState die st = t.strState die st := fun v => State.rd_congr (s := t) rfl ..
    rw [hstate, if_neg (by omega), State.stream_setStream]
    rfl
  · exact ⟨_, by rw [hstream]; exact List.mem_append_right _ (List.mem_singleton_self _), rfl, rfl⟩
theorem State.rd_heldCause (s : State) {cause : Nat} (h : cause < 16) :
    (s.heldBy die st opc c i cause f).rd F.STREAM_STATUS_HELD_CAUSE st (.die die) = cause := State.rd_wr_fits h

/-! ## Open dispatches -/

theorem State.openDispatch_some {d : Dispatch} (h : s.openDispatch die st = some (c, d)) :
    s.dispatch die c = some d ∧ d.stream = st := by
  rw [State.openDispatch] at h
  obtain ⟨k, -, hk⟩ := List.exists_of_findSome?_eq_some h
  split at hk
  next e he =>
    split at hk
    next hd =>
      simp only [Option.some.injEq, Prod.mk.injEq] at hk
      obtain ⟨rfl, rfl⟩ := hk
      exact ⟨he, hd.1⟩
    · cases hk
  · cases hk
/-- The dispatch of a slot is taken off it. -/
def State.dropDispatch (s : State) (die c : Nat) : State :=
  { s with strm := { s.strm with dispatches := SMap.erase s.strm.dispatches (dieCtx die c) } }
/-- R156, R159: a dispatch that ends leaves its slot; of its stream only the record, the status and the notices change. -/
theorem State.endDispatch_some {d : Dispatch} {e : EntrySt} (hsite : StreamSite die d.stream) (h : s.dispatch die c = some d) :
    (s.dropDispatch die c).ticks (s.endDispatch die c e) die d.stream ∧
    ((s.stream die d.stream).holder = none → (s.endDispatch die c e).headPtr die d.stream = s.headPtr die d.stream) := by
  rw [State.dispatch] at h
  rw [State.endDispatch, h]
  have hbegin : (s.dropDispatch die c).ticks (s.dropDispatch die c) die d.stream ∧ ((s.stream die d.stream).holder = none →
      ((s.dropDispatch die c).stream die d.stream).holder = none ∧
      (s.dropDispatch die c).headPtr die d.stream = s.headPtr die d.stream) := ⟨.refl, fun h => ⟨h, rfl⟩⟩
  have hend := fun own : List InFlight => List.foldlRecOn (motive := fun u : State => (s.dropDispatch die c).ticks u die d.stream ∧
      ((s.stream die d.stream).holder = none → (u.stream die d.stream).holder = none ∧ u.headPtr die d.stream = s.headPtr die d.stream)) own
    (fun s f => s.completeEntry die d.stream f.entry f.word.toNat (if f.entry = d.entry ∨ e = .refused then e else .ok)) hbegin
    fun u ⟨hticks, hfree⟩ f _ => by
      have hc := State.completes_completeEntry hsite u f.entry f.word.toNat (if f.entry = d.entry ∨ e = .refused then e else .ok)
      refine ⟨hticks.trans hc.ticks, fun hnone => ?_⟩
      obtain ⟨hholder, hhead⟩ := hfree hnone
      have hother : ¬ (u.stream die d.stream).holder = some f.entry := by
        rw [hholder]
        nofun
      exact ⟨by rw [hc.record]; simp [hholder], by rw [hc.head, if_neg hother, hhead]⟩
  exact ⟨(hend _).1, fun hnone => ((hend _).2 hnone).2⟩
theorem State.dispatch_endDispatch {d : Dispatch} {e : EntrySt} (hsite : StreamSite die d.stream) (h : s.dispatch die c = some d) :
    (s.endDispatch die c e).dispatch die c = none := by
  rw [(State.endDispatch_some hsite h).1.dispatch]
  exact SMap.find?_erase_self ..
/-- R156: a dispatch that is cut short leaves HEAD, the arrays but for the rest of the die, and memory. -/
theorem State.cutDispatch_kept (hsite : StreamSite die st) (hfree : (s.stream die st).holder = none) :
    (s.cutDispatch die st opc).headPtr die st = s.headPtr die st ∧ s.sameArr (s.cutDispatch die st opc) ∧ (s.cutDispatch die st opc).mas = s.mas := by
  rw [State.cutDispatch]
  split
  · exact ⟨rfl, rfl, rfl⟩
  next c d hd =>
    split
    · exact ⟨rfl, rfl, rfl⟩
    · obtain ⟨hsome, rfl⟩ := State.openDispatch_some hd
      obtain ⟨hticks, hhead⟩ := State.endDispatch_some (e := .refused) hsite hsome
      exact ⟨hhead hfree, hticks.arr, hticks.mas⟩

/-! ## The entries -/

theorem State.headPtr_of_within {rs : List Reg} (hsite : StreamSite die st) (h : s.within rs t) (hr : Reg.STREAM_HEAD ∉ rs := by decide) :
    t.headPtr die st = s.headPtr die st :=
  State.headPtr_congr (h.rd (f := F.STREAM_HEAD_INDEX) hsite.has hr) (h.rd (f := F.STREAM_HEAD_WRAP) hsite.has hr)
/-- R156: the dispatch that a DISPATCH entry of word `n` at ring index `i` of stream `st` opens. -/
def dispatchOf (st i n : Nat) : Dispatch :=
  { stream := st, entry := i, total := eH n 8, seen := 0, doneId := eB n 10, countPm := eB n 11, maxCount := eW n 16, groups := [], entries := []
    abandoned := false }
/-- R157: the dispatch once it has seen the GROUP entry at ring index `i`. -/
def groupedBy (d : Dispatch) (i : Nat) : Dispatch := { d with seen := d.seen + 1, entries := d.entries ++ [i] }
/-- R157: the group that a GROUP entry of word `n` at ring index `i` leaves pending, for `count` rows. -/
def groupOf (i n count : Nat) : GroupRec :=
  { index := eH n 8, entry := i, count := count, waddr := eD n 24, wlen := eD n 32, input := BitVec.ofNat 128 (bitsOf n 320 128), lane := none
    todo := none }
theorem State.dispatch_setDispatch (s : State) (d : Dispatch) : (s.setDispatch die c d).dispatch die c = some d := SMap.find?_insert_self ..
theorem State.withSource_value {k v : Nat} (h : s.readSource die st (eSlot n) n k = .value v) (run : Nat → Issue) :
    s.withSource die st n k run = run v := by
  rw [State.withSource, h]
/-- R141, R148: a PREFETCH entry that issues changes no stream but its own record, which names its pins. -/
theorem State.startPrefetch_issues (hsite : StreamSite die st) (hsealed : s.rangeSealed (eD n 8) (eD n 16) = true)
    (hmas : inMas (eD n 8 + eD n 16) = true) : ∃ t p, s.startPrefetch die st i n = some (t, flyOf i n .prefetch (eD n 8) 0 (eD n 16)) ∧
      t.headPtr die st = s.headPtr die st ∧ t.stream die st = { s.stream die st with pins := (s.stream die st).pins ++ [p] } ∧
      p.tag = eTag n ∧ p.entry = i ∧ p.target = eB n 24 ∧ p.complete = false := by
  generalize hv : s.startPrefetch die st i n = v
  delta State.startPrefetch at hv
  extract_lets a len s1 r w pin at hv
  rw [if_neg (by rw [hsealed, hmas]; simp)] at hv
  have h1 : s.within pathRegs s1 := of_ite (P := fun t : State => s.within pathRegs t) State.within.refl.dataPath.requestRange
    State.within.refl.requestRange
  have ho1 : s.only [.out, .fresh, .regs, .arr, .mas] s1 := of_ite (P := fun t : State => s.only [.out, .fresh, .regs, .arr, .mas] t)
    (State.only.refl.dataPath.requestRange) State.only.refl.requestRange
  have hr : s.within pathRegs r.1 := h1.pinLines
  have hor : s.only [.out, .fresh, .regs, .arr, .mas] r.1 := ho1.pinLines
  refine ⟨_, pin, hv.symm, ?_, ?_, rfl, rfl, rfl, rfl⟩
  · exact (State.headPtr_congr (State.rd_setStream ..) (State.rd_setStream ..)).trans (State.headPtr_of_within hsite hr)
  · rw [State.stream_setStream]
    have hw : w = s.stream die st := State.stream_congr (congrArg (·.streams) hor.strm) ..
    rw [hw]
end

/-- Settles O47: an entry that issues goes on its stream's list and HEAD passes it; one that holds stays at HEAD. -/
theorem streamEntriesIssue : Obligations.StreamEntriesIssue := by
  unfold Obligations.StreamEntriesIssue
  intro s die st i n
  refine ⟨?writeWord, ?dma, ?counter, ?prefetch, ?passed, ?lookahead, ?dispatch, ?group, ?fence, ?step, ?wait⟩
  case writeWord =>
    intro v h ho hv hfits
    refine issues_fly h.1 ho (State.cutDispatch_none h.2 _) (t := s) ((State.withSource_value hv _).trans (if_pos hfits)) ?_
    exact ⟨State.entryFlies_flown h.site rfl, ⟨_, State.mem_flying_flown s, rfl, rfl, rfl⟩, (State.ticks_flown h.site s).mas,
      (State.ticks_flown h.site s).arr⟩
  case dma =>
    intro len h ho hv hlen hfrom hto
    refine issues_fly h.1 ho (State.cutDispatch_none h.2 _) (t := s) ((State.withSource_value hv _).trans (if_pos ⟨hlen, hfrom, hto⟩)) ?_
    exact ⟨State.entryFlies_flown h.site rfl, ⟨_, State.mem_flying_flown s, rfl, rfl⟩, (State.ticks_flown h.site s).mas,
      (State.ticks_flown h.site s).arr⟩
  case counter =>
    intro h ho
    refine issues_fly h.1 ho (State.cutDispatch_none h.2 _) (t := s) rfl ?_
    exact ⟨State.entryFlies_flown h.site rfl, ⟨_, State.mem_flying_flown s, rfl, rfl, rfl⟩, (State.ticks_flown h.site s).mas,
      (State.ticks_flown h.site s).arr⟩
  case prefetch =>
    intro h ho hlook hfits hsealed hmas
    obtain ⟨t, p, hstart, hhead, hstream, hp⟩ := State.startPrefetch_issues (i := i) h.site hsealed hmas
    have hother : ¬ (s.mayIssue die st && (s.stream die st).looked.contains (s.headPtr die st % 1024)) = true := by
      rw [← h.1.2.2.2.1, hlook]
      simp
    have hexec : exec (.prefetch die st) s = onStream die st (.next (s.issueHead die st 0x11 fun s i n =>
        if ¬ s.prefetchFits die n then .done .refused s
        else match s.startPrefetch die st i n with
          | none => .done .fault s
          | some (t, f) => .fly t f)) := congrArg (fun t => onStream die st (.next t)) (if_neg hother)
    rw [Completes, hexec]
    refine issues_fly h.1 ho (State.cutDispatch_none h.2 _) (t := t) (f := flyOf i n .prefetch (eD n 8) 0 (eD n 16)) ?_
      ⟨State.entryFlies_flown h.site hhead, p, ?_, hp⟩
    · rw [if_neg (by rw [hfits]; simp), hstart]
    · obtain ⟨ks, hks⟩ := State.stream_flown (die := die) (st := st) (opc := 0x11) (c := eSlot n)
        (f := flyOf i n .prefetch (eD n 8) 0 (eD n 16)) t
      rw [hks, hstream]
      exact List.mem_append_right _ (List.mem_singleton_self p)
  case passed =>
    intro hdie hst hissue hi hlook
    have hsite : StreamSite die st := ⟨hdie, hst⟩
    obtain ⟨hhead, harr, hmas⟩ := State.cutDispatch_kept (opc := 0x11) hsite (State.mayIssue_runs hissue).2.1
    refine ⟨_, (if_pos ⟨hdie, hst⟩).trans (congrArg Host.Outcome.next (if_pos (by rw [← hi, hissue, hlook]; rfl))), ?_⟩
    generalize s.cutDispatch die st 0x11 = t at hhead harr hmas ⊢
    refine ⟨?_, ?_, ?_, ?_⟩
    · exact (State.headPtr_advanceHead hsite _).trans (congrArg (fun p => (p + 1) % 2048)
        ((State.headPtr_congr (State.rd_congr (s := t) rfl ..) (State.rd_congr (s := t) rfl ..)).trans hhead))
    · rw [State.stream_advanceHead, State.stream_setStream, hi]
    · exact harr.trans (State.ticks.refl.serveStream.setStream.advanceHead hsite).arr
    · exact (State.ticks.refl.serveStream.setStream.advanceHead hsite).mas.trans hmas
  case lookahead =>
    intro hdie hst hon hrun hfence hstep hlook hn hfits hsealed hmas
    have hsite : StreamSite die st := ⟨hdie, hst⟩
    obtain ⟨t, p, hstart, hhead, hstream, -⟩ := State.startPrefetch_issues (i := i) (n := n)
      (s := s.setStream die st { s.stream die st with looked := (s.stream die st).looked ++ [i], inStep := true }) hsite hsealed hmas
    refine ⟨t.setStream die st { t.stream die st with flying := (t.stream die st).flying ++ [flyOf i n .prefetch (eD n 8) 0 (eD n 16)] },
      (if_pos ⟨hdie, hst⟩).trans (congrArg Host.Outcome.next ?_), ?_, ?_, ?_⟩
    · rw [if_pos (by rw [hon, decide_eq_true hrun]; rfl)]
      dsimp only at hstart ⊢
      rw [if_neg (by simp [hfence, hstep]), hlook]
      dsimp only
      rw [← hn, if_neg (by rw [hfits]; simp), hstart]
    · exact (State.headPtr_congr (State.rd_setStream ..) (State.rd_setStream ..)).trans (hhead.trans
        (State.headPtr_congr (State.rd_setStream ..) (State.rd_setStream ..)))
    · rw [State.stream_setStream, hstream, State.stream_setStream]
    · exact ⟨_, by rw [State.stream_setStream]; exact List.mem_append_right _ (List.mem_singleton_self _), rfl, rfl⟩
  case dispatch =>
    intro img h ho hnone himg hlanes
    refine issues_fly h.1 ho (State.cutDispatch_none h.2 _) (t := s.setDispatch die (eSlot n) (dispatchOf st i n))
      (f := flyOf i n .dispatch 0 0 0) ?_ ⟨State.entryFlies_flown h.site rfl, dispatchOf st i n, ?_, rfl, rfl, rfl, rfl, rfl, rfl, rfl⟩
    · dsimp only
      rw [himg, hnone, if_neg nofun, if_neg fun he => hlanes (List.length_eq_zero_iff.mp he)]
      rfl
    · rw [(State.ticks_flown h.site _).dispatch]
      exact State.dispatch_setDispatch ..
  case group =>
    intro d count h hopen ho hfits hsrc haccess
    have hcut : s.cutDispatch die st 0x19 = s := by
      rw [State.cutDispatch, hopen]
      rfl
    obtain ⟨hd, rfl⟩ := State.openDispatch_some hopen
    have hslot : ¬ (eSlot n ≠ eSlot n ∨ ¬ s.inputFits die (eSlot n) n = true) := by simp [hfits]
    have hcount : ∀ {f : Fld} (e : Dispatch), Reg.STREAM_HEAD ≠ f.reg → f.In 0 (.die die) →
        ((s.setDispatch die (eSlot n) e).bump f 1 0 (.die die)).headPtr die d.stream = s.headPtr die d.stream := fun e hf hin =>
      State.headPtr_congr ((State.rd_wr_other hin (h.site.has (f := F.STREAM_HEAD_INDEX)) (.inl hf)).trans (State.rd_congr (s := s) rfl ..))
        ((State.rd_wr_other hin (h.site.has (f := F.STREAM_HEAD_WRAP)) (.inl hf)).trans (State.rd_congr (s := s) rfl ..))
    have hdispatch : ∀ (f : Fld) (e : Dispatch), ((s.setDispatch die (eSlot n) e).bump f 1 0 (.die die)).dispatch die (eSlot n) = some e :=
      fun f e => (congrArg (fun m : Strm => SMap.find? m.dispatches (dieCtx die (eSlot n))) (State.strm_wr ..)).trans
        (State.dispatch_setDispatch s e)
    refine ⟨fun hzero => ?_, fun hpos hmax => ?_, fun hmax => ?_⟩
    · refine issues_fly h ho hcut (t := (s.setDispatch die (eSlot n) (groupedBy d i)).bump F.DISPATCH_SKIPPED_VALUE 1 0 (.die die))
        (f := flyOf i n .none 0 0 0) ?_ ⟨State.entryFlies_flown h.site (hcount _ nofun (Fld.in_die (by decide))), ?_, ?_⟩
      · dsimp only
        rw [hopen]
        dsimp only
        rw [if_neg hslot, State.withSource_value hsrc, if_pos hzero]
        rfl
      · rw [(State.ticks_flown h.site _).dispatch]
        exact hdispatch ..
      · refine ((State.ticks_flown h.site _).within.rd (f := F.DISPATCH_SKIPPED_VALUE) (Fld.in_die (by decide))).trans ?_
        exact State.rd_wr_self ..
    · refine issues_fly h ho hcut (t := ((s.setDispatch die (eSlot n) { groupedBy d i with groups := d.groups ++ [groupOf i n count] }).bump
          F.DISPATCH_GROUPS_VALUE 1 0 (.die die)).requestRange (eD n 24) (eD n 32) die 0)
        (f := flyOf i n .none 0 0 0) ?_ ⟨State.entryFlies_flown h.site ?_, groupOf i n count, ?_, rfl, rfl, rfl, rfl, rfl⟩
      · dsimp only
        rw [hopen]
        dsimp only
        rw [if_neg hslot, State.withSource_value hsrc, if_neg (by omega), if_neg (by omega), if_neg haccess]
        rfl
      · refine (State.headPtr_of_within h.site (State.within.refl (rs := [])).requestRange).trans ?_
        exact hcount _ nofun (Fld.in_die (by decide))
      · rw [(State.ticks_flown h.site _).dispatch]
        refine (congrArg (fun m : Strm => SMap.find? m.dispatches (dieCtx die (eSlot n)))
          ((State.only.refl (may := [.arr, .mas])).requestRange.strm)).trans ?_
        exact hdispatch ..
    · refine ⟨_, if_pos ⟨h.1, h.2.1⟩, ?_⟩
      have hfault : ¬ count = 0 := by omega
      rw [State.issueHead_of_ready h ho hcut]
      simp only [hopen]
      rw [if_neg hslot, State.withSource_value hsrc, if_neg hfault, if_pos hmax]
      dsimp only
      rw [((State.ticks.refl.noteStep.advanceHead h.site).completeEntry h.site).dispatch]
      refine (congrArg (fun m : Strm => SMap.find? m.dispatches (dieCtx die (eSlot n)))
          ((State.only.refl (may := [.out, .regs, .arr, .mas, .host, .link, .wts, .stew, .jr])).abortStep.strm)).trans ?_
      exact State.dispatch_endDispatch h.site hd
  case fence =>
    intro h ho
    refine issues_hold h.1 ho (State.cutDispatch_none h.2 _) (t := s) rfl ?_
    exact ⟨State.entryHolds_heldBy h.site rfl h.runs.1, State.rd_heldCause s (by decide), (State.ticks_heldBy h.site s).arr,
      (State.ticks_heldBy h.site s).mas⟩
  case step =>
    intro h ho
    refine issues_hold h.1 ho (State.cutDispatch_none h.2 _) (t := s) rfl ?_
    exact ⟨State.entryHolds_heldBy h.site rfl h.runs.1, (State.ticks_heldBy h.site s).arr, (State.ticks_heldBy h.site s).mas⟩
  case wait =>
    intro h ho
    refine issues_hold h.1 ho (State.cutDispatch_none h.2 _)
      (t := { s with strm := { s.strm with mboxWaits := s.strm.mboxWaits ++ [(die, st, i, eB n 8, eB n 9)] } }) rfl ?_
    have hticks := State.ticks_heldBy (opc := 0x21) (c := eSlot n) (i := i) (cause := 0) (f := flyOf i n .none 0 0 0) h.site
      { s with strm := { s.strm with mboxWaits := s.strm.mboxWaits ++ [(die, st, i, eB n 8, eB n 9)] } }
    exact ⟨State.entryHolds_heldBy h.site rfl h.runs.1, congrArg Strm.mboxWaits hticks.strm, hticks.arr⟩
end Sys2Proof.Machine
end

section
/-!
PROOF. A load that ends (R87, R142): the stream of its entry may be OFFLINE, and stays so when the entry completes FAULT.
-/
namespace Sys2Proof.Machine

set_option Elab.async false

/-- An image of no tile and no queue. -/
def bareImage : CtxImage :=
  { pkg := 0, idx := 0, grade := .dxg4140, linen := false, tiles := [], mts := [], queues := [], edgeN := 0, edgeS := 0, psets := [], groups := []
    wfmts := [], lanes := [], tables := [] }
/-- Slot 0 of die 0 is LOADING for entry 0 of stream 0, which is OFFLINE. -/
def offlineLoading : State := { (State.reset.setStrState 0 0 5).setSlotState 0 0 .loading with
  strm := { State.reset.strm with streams := [(streamKey 0 0, { StreamSt.empty with flying := [flyOf 0 0x01 .load 0 0 0] })] }
  arr := { State.reset.arr with loads := [(dieCtx 0 0, (bareImage, 0, 0, 0))] } }
/-- The state of stream 0 of die 0 after a command. -/
def strStateAfter (c : Sys2Proof.Instr) (s : State) : Nat :=
  match exec c s with
  | .next t => t.strState 0 0
  | _ => 0
theorem strStateAfter_of_next {c : Sys2Proof.Instr} {s t : State} (h : exec c s = .next t) : strStateAfter c s = t.strState 0 0 := by
  rw [strStateAfter, h]
theorem strStateAfter_offlineLoading : strStateAfter (.contextLoadComplete 0 0 true) offlineLoading = 5 := by decide +kernel
/-- Refutes O41: a load of an OFFLINE stream that ends with an uncorrectable error leaves the stream OFFLINE. -/
theorem not_contextsLoadAndSwitch : ¬ Obligations.ContextsLoadAndSwitch := by
  intro h
  obtain ⟨-, hload, -⟩ := h offlineLoading 0 0 0 0
  obtain ⟨-, t, ht, -, -, hstop, -⟩ := hload 0 bareImage 0 (flyOf 0 0x01 .load 0 0 0) (by decide) (by decide) (by decide) (by decide +kernel)
    (by decide +kernel) rfl (by decide +kernel)
  have hstate := strStateAfter_offlineLoading
  rw [strStateAfter_of_next ht, hstop (by decide +kernel)] at hstate
  exact absurd hstate (by decide)
end Sys2Proof.Machine
end

section
/-!
PROOF. Reads of the agents and of the weight cache (R129, R130, R134). The port that a read feeds is an asker of the read's own: nothing bounds
its context slot, and of a slot beyond the die's four the edge sources lie at the addresses of other registers. A read that is counted in such
a register, by the agent's TMISS or the strip's hit count, changes whether the port takes it, before it is served.
-/
namespace Sys2Proof.Machine

set_option Elab.async false

/-- The slot number whose EDGE_SRC_N would stand at the address of instance 0 of `r`, on die 0. -/
def edgeSlotAt (r : Reg) : Nat := (r.info.base - (Reg.info .EDGE_SRC_N).base) / 4
/-- The port of column 0 at the north edge of die 0, in the slot whose edge sources are the register `r`. -/
def northPort (r : Reg) : Asker := .array 0 (qidOf 24 0 0 0) (edgeSlotAt r)
/-- Whether a command completes with the first byte served to `who`. -/
def servesFirst (c : Sys2Proof.Instr) (s : State) (who : Asker) : Bool :=
  match exec c s with
  | .next t => decide (.readServed who 0 1 ∈ t.out)
  | _ => false
theorem servesFirst_of_next {c : Sys2Proof.Instr} {s t : State} {who : Asker} (h : exec c s = .next t) (hm : .readServed who 0 1 ∈ t.out) :
    servesFirst c s who = true := by
  rw [servesFirst, h]
  exact decide_eq_true hm

/-- Page 0 is mapped near, and nothing has been counted. -/
def agentServing : State := { State.reset with mas := { State.reset.mas with pages := [(0, nearPage)] } }
theorem takes_agentServing : agentServing.takesFrom none (northPort .MEA_TMISS) ∧ agentServing.rangeAccess State.readAccess 0 1 = .ok :=
  ⟨show State.portTakes agentServing 0 _ _ none = true by decide +kernel, by decide +kernel⟩
theorem servesFirst_agentServing : servesFirst (.agentRead 0 0 0 1 (northPort .MEA_TMISS)) agentServing (northPort .MEA_TMISS) = false := by
  decide +kernel
/-- Refutes O44: the miss that agent 0 counts for the read turns the port's edge to the strip, and the read is not served. -/
theorem not_agentsReadAndWrite : ¬ Obligations.AgentsReadAndWrite := by
  intro h
  obtain ⟨hread, -⟩ := h agentServing 0 0 0 1 (northPort .MEA_TMISS) (by decide) (by decide)
  obtain ⟨t, ht, hserved, -⟩ := hread takes_agentServing.1 takes_agentServing.2
  exact absurd (servesFirst_of_next ht hserved) (by rw [servesFirst_agentServing]; decide)

/-- The line of page 0 at address 0, read. -/
def firstLine : WcLine := { line := 0, pins := 0, filling := false, waiters := [] }
/-- Page 0 is sealed and near, its first line stands in the cache, and strip 0 has served one hit. -/
def cacheServing : State := { (State.reset.wr F.WC_CFG_ENABLE 1 0 (.die 0)).wr F.WC_HITS_COUNT 1 0 (.die 0) with
  mas := { State.reset.mas with pages := [(0, { nearPage with isSealed := true })] }
  arr := { State.reset.arr with wc := [(wcKey 0 0 0, [firstLine])] } }
theorem takes_cacheServing : cacheServing.takesFrom (some 0) (northPort .WC_HITS) ∧
    cacheServing.pte (pageOf 0) = some { nearPage with isSealed := true } ∧ cacheServing.rd F.WC_CFG_ENABLE 0 (.die 0) = 1 ∧
    cacheServing.readAccess (lineOf 0) ≠ .fault ∧
    (cacheServing.wcSet (wcKey 0 0 (lineOf 0))).find? (fun v => decide (v.line = lineOf 0)) = some firstLine :=
  ⟨show State.portTakes cacheServing 0 _ _ (some 0) = true by decide +kernel, rfl, by decide +kernel, by decide +kernel, by decide +kernel⟩
theorem servesFirst_cacheServing : servesFirst (.wcRead 0 0 0 1 (northPort .WC_HITS)) cacheServing (northPort .WC_HITS) = false := by
  decide +kernel
/-- Refutes O45: the hit that strip 0 counts turns the port's edge away from the strip, and the hit is not served. -/
theorem not_weightCacheServesLines : ¬ Obligations.WeightCacheServesLines := by
  intro h
  obtain ⟨htakes, hpte, henable, haccess, hfind⟩ := takes_cacheServing
  obtain ⟨hline, -⟩ := h cacheServing 0 0 0 1 (northPort .WC_HITS) (by decide) (by decide)
  obtain ⟨-, hno⟩ := hline _ hpte rfl henable (by decide) (by decide)
  obtain ⟨hhit, -⟩ := hno haccess
  obtain ⟨t, ht, -, hserved, -⟩ := hhit _ hfind rfl htakes
  exact absurd (servesFirst_of_next ht hserved) (by rw [servesFirst_cacheServing]; decide)
end Sys2Proof.Machine
end

section
/-!
PROOF. Messages on the links (R317 to R325): what handing one over writes and leaves, and that it is sent.
-/
namespace Sys2Proof.Machine

set_option Elab.async false

section
variable {s₀ s t : State} {rs : List Reg}

/-- What has left the module stays on record. -/
theorem State.leadsTo.mem_out (h : s.leadsTo t) {o : Out} (ho : o ∈ s.out) : o ∈ t.out := h.out.subset ho
theorem linkCount_in {p c : Nat} (hp : p < 32) (hc : c < 8) : F.LINK_CNT_COUNT.In (8 * p + c) .glob := Fld.in_glob (by
  simp [F.LINK_CNT_COUNT, Reg.info]; omega)
theorem State.within.setPort {p : Nat} {v : Port} (h : s₀.within rs s) : s₀.within rs (s.setPort p v) := h.of_regs rfl
theorem State.within.sendOne {p : Nat} (h : s₀.within rs s) (ht : s.sendOne p = some t) (hp : p < 32) (hr : Reg.LINK_CNT ∈ rs := by decide) :
    s₀.within rs t := by
  unfold State.sendOne at ht
  dsimp only at ht
  split at ht
  case isFalse => cases ht
  case isTrue =>
    split at ht
    · cases ht
    · split at ht
      · cases ht
      · cases ht
        exact (h.setPort.bump (linkCount_in hp (c := 0) (by decide)) hr).of_regs rfl
theorem State.within.pumpN {p n : Nat} (h : s₀.within rs s) (hp : p < 32) (hr : Reg.LINK_CNT ∈ rs := by decide) : s₀.within rs (s.pumpN p n) := by
  induction n generalizing s with
  | zero => exact h
  | succ n ih =>
    unfold State.pumpN
    split
    · next s1 h1 => exact ih (h.sendOne h1 hp hr)
    · exact h
theorem State.within.enqueue {fs : List (Nat × Flit)} (h : s₀.within rs s) (hr : Reg.LINK_CNT ∈ rs := by decide) : s₀.within rs (s.enqueue fs) :=
  (h.foldl fun _ _ _ hu => hu.setPort).foldl fun _ _ hp hu => .ite (hu.pumpN (List.mem_range.mp hp) hr) hu
theorem State.within.setTx {k : Nat} {v : TxFlow} (h : s₀.within rs s) : s₀.within rs (s.setTx k v) := h.of_regs rfl
theorem State.within.spray {dst vc : Nat} {bytes : List Byte} (h : s₀.within rs s) (hr : Reg.LINK_CNT ∈ rs := by decide) :
    s₀.within rs (s.spray dst vc bytes) := by
  rw [State.spray]
  refine State.within.enqueue (State.within.setTx ?_) hr
  exact .ite h (h.of_regs rfl)
/-- R320: a message counts the flits sent, and changes no other register. -/
theorem State.within.sendMsg {dst ty ref : Nat} {arg body : List Byte} (h : s₀.within rs s) (hr : Reg.LINK_CNT ∈ rs := by decide) :
    s₀.within rs (s.sendMsg dst ty ref arg body) := by
  have hemit : s₀.within rs (s.emit (.message dst ty ref arg body)) := h.of_regs rfl
  exact .ite (h.of_regs rfl) (.ite (h.of_regs rfl) (.ite (h.of_regs rfl) (State.within.spray hemit hr)))
theorem State.jr_sendMsg (s : State) (dst ty ref : Nat) (arg body : List Byte) : (s.sendMsg dst ty ref arg body).jr = s.jr :=
  (State.only.refl (s := s) (may := [.out, .regs, .link])).sendMsg.jr
theorem State.now_sendMsg (s : State) (dst ty ref : Nat) (arg body : List Byte) : (s.sendMsg dst ty ref arg body).now = s.now :=
  (State.only.refl (s := s) (may := [.out, .regs, .link])).sendMsg.now
/-- R325: a message for a module that is reached is sent. -/
theorem State.mem_sendMsg {dst ty ref : Nat} {arg body : List Byte} (h : s.reaches dst) :
    .message dst ty ref arg body ∈ (s.sendMsg dst ty ref arg body).out := by
  obtain ⟨hown, hdead⟩ := h
  rw [State.sendMsg, if_neg hown, if_neg (by rw [hdead]; decide)]
  dsimp only
  have hsent : .message dst ty ref arg body ∈ (s.emit (.message dst ty ref arg body)).out := List.mem_cons_self
  split
  · exact hsent
  · exact (State.leadsTo.refl _).spray.mem_out hsent
/-- The message that arrives leaves the inbox. -/
theorem State.takeInbox_eq (s : State) (src ty : Nat) : ∃ box, s.takeInbox src ty = { s with link := { s.link with inbox := box } } := by
  rw [State.takeInbox]
  split
  · exact ⟨_, rfl⟩
  · exact ⟨s.link.inbox, rfl⟩
end
end Sys2Proof.Machine
end

section
/-!
PROOF. The journal of a pair (R346, R347). Records of the partner are held and acknowledged whether they come in JRNL_RECORDS or in
RESYNC_DATA, but only the first is noted as a sign of life.
-/
namespace Sys2Proof.Machine

set_option Elab.async false

/-- A module with its identifier 0, at time 5, whose partner is module 1, last heard at time 0. -/
def paired : State := { State.reset.wr F.MODULE_NUM_ID_VALID 1 with now := 5, jr := { State.reset.jr with partner := some 1, heardAt := 0 } }
/-- The first record of the partner. -/
def firstRecord : JRec := { jsn := 1, slot := 0, pay := .delivered [], sent := none, origin := none }
/-- When a module last heard its partner, after a command. -/
def heardAfter (c : Sys2Proof.Instr) (s : State) : Nat :=
  match exec c s with
  | .next t => t.jr.heardAt
  | _ => 0
theorem heardAfter_of_next {c : Sys2Proof.Instr} {s t : State} (h : exec c s = .next t) : heardAfter c s = t.jr.heardAt := by
  rw [heardAfter, h]
theorem paired_reaches : paired.reaches 1 := ⟨by decide +kernel, by decide +kernel⟩
theorem paired_open (ty : Nat) : paired.closed 1 ty = false := by
  have hid : paired.flag F.MODULE_NUM_ID_VALID = true := by decide +kernel
  rw [State.closed, hid]
  rfl
theorem paired_room : firstRecord.jsn = paired.jr.mirrorJsn + 1 ∧ paired.mirrorUsed + recsSize [firstRecord] ≤ mirrorBytes := by decide +kernel
theorem heardAfter_paired : heardAfter (.resyncData 1 [firstRecord] []) paired = 0 := by decide +kernel
/-- Refutes O59: a RESYNC_DATA of the partner is held, but leaves the time the partner was last heard. -/
theorem not_partnersJournalAndPair : ¬ Obligations.PartnersJournalAndPair := by
  intro h
  obtain ⟨hpartner, -⟩ := h
  obtain ⟨hhold, -⟩ := hpartner paired 1 rfl paired_reaches paired_open
  obtain ⟨-, t, ht, -, -, hheard, -⟩ := hhold firstRecord paired_room.1 paired_room.2
  rw [← heardAfter_of_next ht, heardAfter_paired] at hheard
  exact absurd hheard (by decide)
end Sys2Proof.Machine
end

section
/-!
PROOF. The bits of a register: a write of a field leaves the fields of the same register that share no bit with it, whatever words they
stand in.
-/
namespace Sys2Proof.Machine

set_option Elab.async false

section
variable (s : State) (f g : Fld) (r : Reg) (v i : Nat) (w : Win)

/-- Bit `b` of an instance of a register. -/
def State.regBit (b : Nat) : Bool := (s.word r i w (b / 32)).toNat.testBit (b % 32)

theorem testBit_bitsOf (n lo w j : Nat) : (bitsOf n lo w).testBit j = (decide (j < w) && n.testBit (lo + j)) := by
  rw [bitsOf, Nat.testBit_mod_two_pow, Nat.testBit_div_two_pow, Nat.add_comm]
theorem testBit_putBits_of_disjoint {n lo w v b : Nat} (h : b < lo ∨ lo + w ≤ b) : (putBits n lo w v).testBit b = n.testBit b := by
  have hbit := congrArg (Nat.testBit · 0) (bitsOf_putBits_of_disjoint n lo w v b 1 (by omega))
  simpa only [testBit_bitsOf, Nat.lt_one_iff, decide_true, Bool.true_and, Nat.add_zero] using hbit
theorem State.testBit_span (k n b : Nat) : (s.span r i w k n).testBit b = (decide (b < 32 * n) && s.regBit r i w (32 * k + b)) := by
  induction n generalizing k b with
  | zero => simp [State.span]
  | succ n ih =>
    have hlt : (s.word r i w k).toNat < 2 ^ 32 := (s.word r i w k).isLt
    rw [State.span, Nat.add_comm, Nat.testBit_two_pow_mul_add _ hlt]
    split
    · next h =>
      rw [State.regBit, show (32 * k + b) / 32 = k by omega, show (32 * k + b) % 32 = b by omega, decide_eq_true (by omega), Bool.true_and]
    · next h =>
      rw [ih, show 32 * (k + 1) + (b - 32) = 32 * k + b by omega]
      congr 1
      exact decide_eq_decide.mpr (by omega)
theorem State.testBit_rd (j : Nat) : (s.rd f i w).testBit j = (decide (j < f.w) && s.regBit f.reg i w (f.lo + j)) := by
  have hfits := f.fits
  have hfirst : f.firstWord = f.lo / 32 := rfl
  rw [State.rd, testBit_bitsOf, State.testBit_span, show 32 * f.firstWord + (f.lo % 32 + j) = f.lo + j by omega]
  by_cases h : j < f.w
  · rw [decide_eq_true (show f.lo % 32 + j < 32 * f.wordCount by omega), Bool.true_and]
  · rw [decide_eq_false h, Bool.false_and, Bool.false_and]
theorem State.regBit_wr_of_disjoint {b : Nat} (h : b < f.lo ∨ f.lo + f.w ≤ b) : (s.wr f v i w).regBit f.reg i w b = s.regBit f.reg i w b := by
  have hfits := f.fits
  have hfirst : f.firstWord = f.lo / 32 := rfl
  by_cases hin : 32 * f.firstWord ≤ b ∧ b < 32 * (f.firstWord + f.wordCount)
  · obtain ⟨d, rfl⟩ := Nat.exists_eq_add_of_le hin.1
    have hd : d < 32 * f.wordCount := by omega
    have hspan := congrArg (Nat.testBit · d) (s.span_setSpan_self f.reg i w f.firstWord
      (putBits (s.span f.reg i w f.firstWord f.wordCount) (f.lo % 32) f.w v) f.wordCount)
    simp only [State.testBit_span, Nat.testBit_mod_two_pow, hd, decide_true, Bool.true_and] at hspan
    rw [State.wr, hspan, testBit_putBits_of_disjoint (by omega), State.testBit_span, decide_eq_true hd, Bool.true_and]
  · rw [State.regBit, State.word_wr_of_apart, State.regBit]
    intro a ha he
    have := Reg.addr_inj f.reg i w he
    omega
/-- A field keeps its value when a field of the same register that shares no bit with it is written. -/
theorem State.rd_wr_disjoint (hr : g.reg = f.reg) (h : g.lo + g.w ≤ f.lo ∨ f.lo + f.w ≤ g.lo) : (s.wr f v i w).rd g i w = s.rd g i w := by
  refine Nat.eq_of_testBit_eq fun j => ?_
  rw [State.testBit_rd, State.testBit_rd, hr]
  by_cases hj : j < g.w
  · rw [State.regBit_wr_of_disjoint _ _ _ _ _ (by omega)]
  · rw [decide_eq_false hj, Bool.false_and, Bool.false_and]
end
end Sys2Proof.Machine
end

section
/-!
PROOF. Takeover, spares, shard holders, tenant ticks and the standby of the steward (R150, R250, R255, R351 to R355, R364).
-/
namespace Sys2Proof.Machine

set_option Elab.async false

/-- `u` is `s` but for the waiting messages. -/
structure State.Inboxed (s u : State) : Prop where
  regs : u.regs = s.regs
  jr : u.jr = s.jr
  stew : u.stew = s.stew
  out : u.out = s.out
  now : u.now = s.now
  wts : u.wts = s.wts
  boot : u.boot = s.boot
  mas : u.mas = s.mas
  dead : u.link.dead = s.link.dead

theorem State.inboxed_takeInbox (s : State) (src ty : Nat) : s.Inboxed (s.takeInbox src ty) := by
  obtain ⟨box, hbox⟩ := s.takeInbox_eq src ty
  rw [hbox]
  exact ⟨rfl, rfl, rfl, rfl, rfl, rfl, rfl, rfl, rfl⟩

section
variable {s u : State} {src o oslot : Nat} (h : s.Inboxed u)
include h

theorem State.Inboxed.rd (f : Fld) (i : Nat) (w : Win) : u.rd f i w = s.rd f i w := State.rd_congr h.regs ..
theorem State.Inboxed.flag (f : Fld) (i : Nat) (w : Win) : u.flag f i w = s.flag f i w := State.flag_congr_rd (h.rd ..)
theorem State.Inboxed.ownId : u.ownId = s.ownId := h.rd ..
theorem State.Inboxed.modState : u.modState = s.modState := h.rd ..
theorem State.Inboxed.reaches {m : Nat} (hm : s.reaches m) : u.reaches m := by
  rw [State.reaches, h.ownId, State.unreachable, h.dead]
  exact hm
theorem State.Inboxed.inService (m : Nat) : u.inService m = s.inService m := by
  rw [State.inService, h.flag, State.unreachable, h.dead, State.inService, State.unreachable]
theorem State.Inboxed.tk : u.tk o oslot = s.tk o oslot := by rw [State.tk, h.jr, State.tk]
theorem State.Inboxed.req (k : Nat) : u.req k = s.req k := by rw [State.req, h.stew, State.req]
theorem State.Inboxed.lowestSlot : u.lowestSlot = s.lowestSlot := by simp only [State.lowestSlot, h.req]
theorem State.Inboxed.memberSlot : u.memberSlot src o oslot = s.memberSlot src o oslot := by rw [State.memberSlot, h.stew, State.memberSlot]
end

section
variable {s t : State} {src o oslot prio k : Nat}

/-! ## Members (R351 to R353) -/

theorem completes_takeoverAssign (hopen : s.closed src 0x27 = false) : Completes (.takeoverAssign src o oslot prio) s (fun t =>
    (src, o, oslot, prio) ∈ t.jr.assigns ∧ t.stew = s.stew ∧
    ∀ a ∈ s.jr.assigns, (a.1, a.2.1, a.2.2.1) ≠ (src, o, oslot) → a ∈ t.jr.assigns) := by
  refine ⟨_, congrArg Host.Outcome.next (if_neg (by simp [hopen])), ?_⟩
  have hu := s.inboxed_takeInbox src 0x27
  generalize s.takeInbox src 0x27 = u at hu ⊢
  refine ⟨List.mem_append_right _ (List.mem_singleton_self _), hu.stew, fun a ha hne => List.mem_append_left _ ?_⟩
  exact List.mem_filter.mpr ⟨hu.jr ▸ ha, decide_eq_true hne⟩

section
variable {q : TkState}

theorem finalRecord_code (slot : Nat) (r : Req) (session by' : Nat) :
    (finalRecord slot r session by').getD 2 0 = BitVec.ofNat 8 (finalCode r.final) := by
  simp [finalRecord, toBytes]
/-- R351: the state of a request whose assignment is the only one. -/
theorem completes_takeoverState_slot (hopen : s.closed src 0x28 = false) (ha : s.jr.assigns = [(src, q.origin, q.slot, prio)])
    (hk : s.lowestSlot = some k) : Completes (.takeoverState src q) s (fun t =>
      t.jr.assigns = [] ∧ ∃ r, t.req k = some r ∧ r.st = .waiting ∧ r.desc = q.desc ∧ r.input = q.input ∧ r.tokens = q.tokens ∧
        r.rebuilt = q.prefixPos ∧ r.tenant = q.tenant ∧ r.member = some (src, q.origin, q.slot) ∧ r.prio = some prio) := by
  refine ⟨_, congrArg Host.Outcome.next (if_neg (by simp [hopen])), ?_⟩
  have hu := s.inboxed_takeInbox src 0x28
  generalize s.takeInbox src 0x28 = u at hu ⊢
  have hlow : ∀ j, State.lowestSlot { u with jr := j } = some k := fun _ => hu.lowestSlot.trans hk
  dsimp only
  rw [hu.jr, ha, List.find?_cons_of_pos (by simp)]
  dsimp only
  rw [hlow]
  exact ⟨List.erase_cons_head .., _, SMap.find?_insert_self .., rfl, rfl, rfl, rfl, rfl, rfl, rfl, rfl⟩
/-- R352: with no slot free the request ends ABORTED. -/
theorem completes_takeoverState_none (hopen : s.closed src 0x28 = false) (ha : s.jr.assigns = [(src, q.origin, q.slot, prio)])
    (hk : s.lowestSlot = none) (hreach : s.reaches src) : Completes (.takeoverState src q) s (fun t =>
      ∃ rec', .message src 0x2B 0 (toBytes q.slot 2 ++ toBytes 2 1 ++ toBytes q.origin 2) rec' ∈ t.out ∧ rec'.getD 2 0 = 11) := by
  refine ⟨_, congrArg Host.Outcome.next (if_neg (by simp [hopen])), ?_⟩
  have hu := s.inboxed_takeInbox src 0x28
  generalize s.takeInbox src 0x28 = u at hu ⊢
  have hlow : ∀ j, State.lowestSlot { u with jr := j } = none := fun _ => hu.lowestSlot.trans hk
  have hr : ∀ j, State.reaches { u with jr := j } src := fun _ => hu.reaches hreach
  dsimp only
  rw [hu.jr, ha, List.find?_cons_of_pos (by simp)]
  dsimp only
  rw [hlow]
  exact ⟨_, State.mem_sendMsg (hr _), finalRecord_code ..⟩
theorem completes_takeoverState_unassigned (hopen : s.closed src 0x28 = false) (ha : s.jr.assigns = []) :
    Completes (.takeoverState src q) s (fun t => t.stew = s.stew ∧ t.jr = s.jr ∧ t.out = s.out) := by
  refine ⟨_, congrArg Host.Outcome.next (if_neg (by simp [hopen])), ?_⟩
  have hu := s.inboxed_takeInbox src 0x28
  generalize s.takeInbox src 0x28 = u at hu ⊢
  dsimp only
  rw [hu.jr, ha]
  exact ⟨hu.stew, hu.jr, hu.out⟩
end

section
variable {q : TkReq}

/-- R353: a home journals the next token of a member. -/
theorem completes_takeoverToken {tok : Nat} {last : Bool} (hq : s.tk o oslot = some q) (hm : q.member = some src)
    (hopen : s.closed src 0x29 = false) (hqueue : s.jr.queue = []) :
    Completes (.takeoverToken src o oslot (q.tokens.length + 1) tok last) s (fun t =>
      s.adds t F.JOURNAL_JSN_VALUE 1 ∧ (t.jr.queue.map (fun r => (r.origin, r.slot, r.pay))) =
        [(some o, oslot, .commit [(q.tokens.length + 1, tok)])]) := by
  refine ⟨_, congrArg Host.Outcome.next (if_neg (by simp [hopen])), ?_⟩
  have hu := s.inboxed_takeInbox src 0x29
  generalize s.takeInbox src 0x29 = u at hu ⊢
  dsimp only
  rw [hu.tk, hq]
  dsimp only
  rw [if_neg (by simp [hm, hu.jr, hqueue])]
  refine ⟨(State.rd_wr_self ..).trans ?_, ?_⟩
  · exact congrArg (fun v => (v + 1) % _) (hu.rd F.JOURNAL_JSN_VALUE 0 .glob)
  · simp [State.newRecordFor, State.jr_wr, State.setTk, hu.jr, hqueue]
theorem completes_takeoverToken_other {index tok : Nat} {last : Bool} (hq : s.tk o oslot = some q) (hopen : s.closed src 0x29 = false)
    (hi : index ≠ q.tokens.length + 1) : Completes (.takeoverToken src o oslot index tok last) s (fun t => t.jr = s.jr) := by
  refine ⟨_, congrArg Host.Outcome.next (if_neg (by simp [hopen])), ?_⟩
  have hu := s.inboxed_takeInbox src 0x29
  generalize s.takeInbox src 0x29 = u at hu ⊢
  dsimp only
  rw [hu.tk, hq]
  dsimp only
  rw [if_pos (by simp [hi])]
  exact hu.jr
end

/-- The records waiting stay, and the requests taken over stay as they are. -/
def State.keepsQueue (s t : State) : Prop := t.jr.table = s.jr.table ∧ s.jr.queue ⊆ t.jr.queue
theorem State.keepsQueue.trans {u : State} (h : s.keepsQueue t) (h' : t.keepsQueue u) : s.keepsQueue u :=
  ⟨h'.1.trans h.1, fun _ hr => h'.2 (h.2 hr)⟩
theorem State.keepsQueue_newRecord (s : State) (slot : Nat) (pay : JPay) : s.keepsQueue (s.newRecord slot pay) := by
  rw [State.keepsQueue, State.newRecord, State.newRecordFor]
  dsimp only
  rw [State.jr_wr]
  exact ⟨rfl, List.subset_append_left _ _⟩
theorem State.keepsQueue_answerSeq (s : State) (i seq status detail : Nat) (body : List Byte) :
    s.keepsQueue (s.answerSeq i seq status detail body) := by
  unfold State.answerSeq
  split
  · exact ⟨rfl, List.Subset.refl _⟩
  · split
    · exact ⟨rfl, List.Subset.refl _⟩
    · unfold State.answer
      split
      · rw [State.keepsQueue, (State.only.refl (may := [.out, .host])).releaseReply.jr]
        exact ⟨rfl, List.Subset.refl _⟩
      · exact State.keepsQueue_newRecord ..
/-- R353: the final record of a request taken over is journaled and kept. -/
theorem State.tkFinal_journals (s : State) (q : TkReq) (rec' : List Byte) :
    (∃ r ∈ (s.tkFinal q rec').jr.queue, r.origin = some q.origin ∧ r.slot = q.slot ∧ r.pay = .final rec') ∧
    ((s.tkFinal q rec').tk q.origin q.slot).map (·.final) = some (some rec') := by
  rw [State.tkFinal]
  have hkeep : ∀ u : State, u.keepsQueue (q.cancels.foldl (fun (s : State) c =>
      if ofBytes ((rec'.drop 2).take 1) = 2 then s.answerSeq c.1 c.2 stOk 0 []
      else s.answerSeq c.1 c.2 stAlready (ofBytes ((rec'.drop 2).take 1)) []) u) := fun u =>
    List.foldlRecOn (motive := u.keepsQueue) _ _ ⟨rfl, List.Subset.refl _⟩ fun v hv c _ =>
      hv.trans (of_ite (P := v.keepsQueue) (v.keepsQueue_answerSeq ..) (v.keepsQueue_answerSeq ..))
  obtain ⟨htable, hqueue⟩ := hkeep ((s.setTk { q with final := some rec', cancels := [], member := none }).newRecordFor (some q.origin) q.slot
    (.final rec'))
  refine ⟨⟨_, hqueue (List.mem_append_right _ (List.mem_singleton_self _)), rfl, rfl, rfl⟩, ?_⟩
  rw [State.tk, htable, State.newRecordFor]
  dsimp only
  rw [State.jr_wr]
  exact congrArg (Option.map TkReq.final) (SMap.find?_insert_self ..)
/-- R353: the member's final record comes home. -/
theorem completes_takeoverCtrl_final {q : TkReq} {rec' : List Byte} {able : List (Nat × Nat)} (hq : s.tk o oslot = some q)
    (hm : q.member = some src) (hf : q.final = none) (ho : q.origin = o) (hs : q.slot = oslot) (hopen : s.closed src 0x2B = false)
    (hown : o ≠ s.ownId) (hmoved : ofBytes ((rec'.drop 2).take 1) ≠ 12) :
    Completes (.takeoverCtrl src o oslot 2 rec' able) s (fun t => (∃ r ∈ t.jr.queue, r.origin = some o ∧ r.slot = oslot ∧
        r.pay = .final (homeRecord rec' oslot q.session s.ownId)) ∧
        (t.tk o oslot).map (·.final) = some (some (homeRecord rec' oslot q.session s.ownId))) := by
  refine ⟨_, congrArg Host.Outcome.next (if_neg (by simp [hopen])), ?_⟩
  have hu := s.inboxed_takeInbox src 0x2B
  generalize s.takeInbox src 0x2B = u at hu ⊢
  dsimp only
  rw [if_pos rfl, hu.tk, hq]
  simp only
  rw [if_neg (by simp [hm, hf]), if_neg hmoved, hu.ownId, if_neg hown]
  subst ho hs
  exact u.tkFinal_journals q _

/-! ## The member's side (R353, R256) -/

section
variable {r : Req} (hreqs : s.stew.reqs = [(k, r)]) (hm : r.member = some (src, o, oslot)) (hst : r.st ≠ .ending)
include hreqs hm hst

theorem State.memberSlot_only : s.memberSlot src o oslot = some k := by
  rw [State.memberSlot, hreqs, List.find?_cons_of_pos (by simp [hm, hst])]
  rfl
omit hm hst in
theorem State.req_only : s.req k = some r := by
  rw [State.req, hreqs, SMap.find?, if_pos rfl]
/-- R353: the home's acknowledgement of the token that waits. -/
theorem completes_takeoverAck {tok : Nat} (hopen : s.closed src 0x2A = false) (hw : r.awaitAck = some tok) (he : r.ended = false)
    (hc : r.cancelled = false) : Completes (.takeoverAck src o oslot r.produced) s (fun t =>
      t.req k = some { r with tokens := r.tokens ++ [tok], awaitAck := none, lastCommit := s.now, charged := r.charged + 1 } ∧
      t.level r.tenant = max (s.level r.tenant - 1000) (-(2 ^ 47))) := by
  refine ⟨_, congrArg Host.Outcome.next (if_neg (by simp [hopen])), ?_⟩
  have hu := s.inboxed_takeInbox src 0x2A
  generalize s.takeInbox src 0x2A = u at hu ⊢
  dsimp only
  rw [hu.memberSlot, State.memberSlot_only hreqs hm hst]
  dsimp only
  rw [hu.req, State.req_only hreqs]
  dsimp only
  rw [hw]
  dsimp only
  rw [if_neg (by simp), if_neg (by simp [he]), if_neg (by simp [hc])]
  have hlevel : ∀ q, (u.setReq k q).level r.tenant = s.level r.tenant := fun _ => by
    rw [State.level, State.level, ← hu.stew]
    rfl
  refine ⟨?_, ?_⟩
  · rw [hu.now]
    exact SMap.find?_insert_self ..
  · rw [State.charge, State.level, State.setLevel, SMap.getD_setD_self, hlevel]
    rfl
omit hreqs hst hm in
theorem State.member_dropKv {u : State} (hr : u.req k = some r) : ((u.dropKv k).req k).map (·.member) = some r.member := by
  unfold State.dropKv
  rw [hr]
  exact congrArg (Option.map Req.member) (SMap.find?_insert_self ..)
omit hreqs hst hm in
/-- R351: a request taken over for a home leaves its slot when it ends. -/
theorem State.req_endReq_member {u : State} {f : Final} (hr : u.req k = some r) (hst : r.st ≠ .ending) (hm : r.member.isSome = true) :
    (u.endReq k f).req k = none := by
  have hdrop := State.member_dropKv hr
  obtain ⟨r1, hr1, hmem⟩ := Option.map_eq_some_iff.mp hdrop
  unfold State.endReq
  rw [hr]
  dsimp only
  rw [if_neg hst, hr1]
  dsimp only [Option.getD]
  rw [hmem]
  obtain ⟨m, hm⟩ := Option.isSome_iff_exists.mp hm
  rw [hm]
  exact SMap.find?_erase_self ..
theorem completes_takeoverAck_last {tok : Nat} (hopen : s.closed src 0x2A = false) (hw : r.awaitAck = some tok) (he : r.ended = true) :
    Completes (.takeoverAck src o oslot r.produced) s (fun t => t.req k = none) := by
  refine ⟨_, congrArg Host.Outcome.next (if_neg (by simp [hopen])), ?_⟩
  have hu := s.inboxed_takeInbox src 0x2A
  generalize s.takeInbox src 0x2A = u at hu ⊢
  dsimp only
  rw [hu.memberSlot, State.memberSlot_only hreqs hm hst]
  dsimp only
  rw [hu.req, State.req_only hreqs]
  dsimp only
  rw [hw]
  dsimp only
  rw [if_neg (by simp), if_pos he]
  exact State.req_endReq_member (SMap.find?_insert_self ..) hst (by rw [hm]; rfl)
theorem completes_takeoverCtrl_cancel {rec' : List Byte} {able : List (Nat × Nat)} (hopen : s.closed src 0x2B = false) :
    Completes (.takeoverCtrl src o oslot 0 rec' able) s (fun t => t.req k = some { r with cancelled := true }) := by
  refine ⟨_, congrArg Host.Outcome.next (if_neg (by simp [hopen])), ?_⟩
  have hu := s.inboxed_takeInbox src 0x2B
  generalize s.takeInbox src 0x2B = u at hu ⊢
  dsimp only
  rw [if_neg (by decide), hu.memberSlot, State.memberSlot_only hreqs hm hst]
  dsimp only
  rw [hu.req, State.req_only hreqs]
  exact SMap.find?_insert_self ..
theorem completes_takeoverCtrl_disable {rec' : List Byte} {able : List (Nat × Nat)} (hopen : s.closed src 0x2B = false) :
    Completes (.takeoverCtrl src o oslot 1 rec' able) s (fun t => t.req k = none) := by
  refine ⟨_, congrArg Host.Outcome.next (if_neg (by simp [hopen])), ?_⟩
  have hu := s.inboxed_takeInbox src 0x2B
  generalize s.takeInbox src 0x2B = u at hu ⊢
  dsimp only
  rw [if_neg (by decide), hu.memberSlot, State.memberSlot_only hreqs hm hst]
  dsimp only
  rw [hu.req, State.req_only hreqs]
  exact State.req_endReq_member (r := { r with flying := none }) (SMap.find?_insert_self ..) hst (by rw [hm]; rfl)
end

/-! ## Spares and holders (R336, R364) -/

theorem State.spares_congr {u : State} (h : u.regs = s.regs) : u.spares = s.spares := by
  have hrd : ∀ f i, u.rd f i .glob = s.rd f i .glob := fun _ _ => State.rd_congr h ..
  exact List.filterMap_congr fun i _ => by rw [State.flag_congr_rd (hrd _ i), hrd]
/-- R364: a module that is no spare passes the call to the next one. -/
theorem completes_spareCall_next {failed tray m : Nat} (hopen : s.closed src 0x2C = false) (hspare : s.flag F.SERVICE_CFG_SPARE = false)
    (hs : s.spares = [s.ownId, m]) (hin : s.inService m = true) (hreach : s.reaches m) :
    Completes (.spareCall src failed tray) s (fun t => .message m 0x2C 0 (toBytes failed 2 ++ toBytes tray 2) [] ∈ t.out) := by
  refine ⟨_, congrArg Host.Outcome.next (if_neg (by simp [hopen])), ?_⟩
  have hu := s.inboxed_takeInbox src 0x2C
  generalize s.takeInbox src 0x2C = u at hu ⊢
  dsimp only
  rw [if_neg (by rw [hu.flag, hspare]; simp), State.spares_congr hu.regs, hs, hu.ownId, List.dropWhile_cons_of_neg (by simp),
    List.drop_one, List.tail_cons, State.callSpare, List.find?_cons_of_pos (by rw [hu.inService, hin])]
  exact State.mem_sendMsg (hu.reaches hreach)
theorem holder_in {f : Fld} {m : Nat} (hm : m < 8192) (hr : f.reg = .HOLDER_ALT) (hw : f.firstWord + f.wordCount ≤ 2) : f.In m .glob :=
  Fld.in_glob (by rw [hr]; exact hm) (by rw [hr]; rfl) (by rw [hr]; exact hw)
/-- R336: what a holder is told of another. -/
theorem State.within.sendShards {s₀ : State} {l : List Nat} {m : Nat} {rs : List Reg} (h : s₀.within rs s) (hr : Reg.LINK_CNT ∈ rs := by decide) :
    s₀.within rs (l.foldl (fun (s : State) d => if d = s.ownId then s else s.sendShard d m) s) :=
  h.foldl fun _ _ _ hu => .ite hu (hu.sendMsg hr)
theorem State.jr_sendShards (s : State) (l : List Nat) (m : Nat) :
    (l.foldl (fun (s : State) d => if d = s.ownId then s else s.sendShard d m) s).jr = s.jr :=
  List.foldlRecOn (motive := fun t : State => t.jr = s.jr) _ _ rfl fun (u : State) hu d _ =>
    of_ite (P := fun t : State => t.jr = s.jr) hu ((u.jr_sendMsg ..).trans hu)
/-- R364: with nothing left to switch in, the spare holds what the failed module held. -/
theorem State.spareDone_holds {failed : Nat} (hf : failed < 8192) (hs : s.jr.spareFor = some failed) (hp : s.wts.pkgs = []) :
    s.spareDone.rd F.HOLDER_ALT_H0 failed = s.ownId ∧ s.spareDone.rd F.HOLDER_ALT_H1 failed = s.rd F.HOLDER_ALT_H0 failed ∧
    s.spareDone.rd F.HOLDER_ALT_COUNT failed = min (s.rd F.HOLDER_ALT_COUNT failed + 1) 3 ∧ s.spareDone.jr.spareFor = none := by
  unfold State.spareDone
  rw [hs]
  dsimp only
  rw [hp, List.any_nil, if_neg Bool.false_ne_true]
  have hown : s.ownId < 2 ^ 13 := State.rd_lt ..
  have hold : s.rd F.HOLDER_ALT_H0 failed < 2 ^ 13 := State.rd_lt ..
  set v := (((s.wr F.HOLDER_ALT_H2 (s.rd F.HOLDER_ALT_H1 failed) failed).wr F.HOLDER_ALT_H1 (s.rd F.HOLDER_ALT_H0 failed) failed).wr
    F.HOLDER_ALT_H0 s.ownId failed).wr F.HOLDER_ALT_COUNT (min (s.rd F.HOLDER_ALT_COUNT failed + 1) 3) failed with hv
  have hsent : v.within [.LINK_CNT] _ := (State.within.refl (s := v)).of_regs (u := { v with jr := { v.jr with spareFor := none } }) rfl
    |>.sendShards (l := State.routed { v with jr := { v.jr with spareFor := none } }) (m := failed)
  refine ⟨?_, ?_, ?_, ?_⟩
  · rw [hsent.rd (Fld.in_glob hf), hv, State.rd_wr_disjoint _ F.HOLDER_ALT_COUNT F.HOLDER_ALT_H0 _ _ _ rfl (by decide), State.rd_wr_self]
    exact Nat.mod_eq_of_lt hown
  · rw [hsent.rd (Fld.in_glob hf), hv, State.rd_wr_disjoint _ F.HOLDER_ALT_COUNT F.HOLDER_ALT_H1 _ _ _ rfl (by decide),
      State.rd_wr_disjoint _ F.HOLDER_ALT_H0 F.HOLDER_ALT_H1 _ _ _ rfl (by decide), State.rd_wr_self]
    exact Nat.mod_eq_of_lt hold
  · rw [hsent.rd (Fld.in_glob hf), hv, State.rd_wr_self]
    exact Nat.mod_eq_of_lt (by show _ < 4; omega)
  · rw [State.jr_sendShards]
/-- R364: a spare in Ready without packages takes the failed module's place. -/
theorem completes_spareCall_own {failed tray : Nat} (hf : failed < 8192) (hopen : s.closed src 0x2C = false)
    (hspare : s.flag F.SERVICE_CFG_SPARE = true) (hready : s.modState = 2) (hserving : s.noServing = false) (hpkgs : s.wts.pkgs = []) :
    Completes (.spareCall src failed tray) s (fun t => t.rd F.HOLDER_ALT_H0 failed = s.ownId ∧
        t.rd F.HOLDER_ALT_H1 failed = s.rd F.HOLDER_ALT_H0 failed ∧ t.rd F.HOLDER_ALT_COUNT failed = min (s.rd F.HOLDER_ALT_COUNT failed + 1) 3 ∧
        t.jr.spareFor = none) := by
  refine ⟨_, congrArg Host.Outcome.next (if_neg (by simp [hopen])), ?_⟩
  have hu := s.inboxed_takeInbox src 0x2C
  have hlc : (s.takeInbox src 0x2C).noServing = s.noServing := by
    obtain ⟨box, hbox⟩ := s.takeInbox_eq src 0x2C
    rw [hbox]
    rfl
  generalize s.takeInbox src 0x2C = u at hu hlc ⊢
  have hup : u.wts.pkgs = [] := hu.wts ▸ hpkgs
  dsimp only
  rw [if_pos ⟨(hu.flag ..).trans hspare, hu.modState.trans hready, by rw [hlc, hserving]; decide⟩, hup]
  obtain ⟨h0, h1, hcount, hfor⟩ := State.spareDone_holds (s := { u with jr := { u.jr with spareFor := some failed } }) hf rfl hup
  exact ⟨h0.trans hu.ownId, h1.trans (hu.rd ..), hcount.trans (congrArg (fun n => min (n + 1) 3) (hu.rd ..)), hfor⟩

section
variable {m h0 h1 h2 count : Nat} {inSvc : Bool}

/-- R336: the entry of module `m` in HOLDER_ALT. -/
def State.setHolder (s : State) (m h0 h1 h2 count : Nat) (inSvc : Bool) : State :=
  ((((s.wr F.HOLDER_ALT_H0 h0 m).wr F.HOLDER_ALT_H1 h1 m).wr F.HOLDER_ALT_H2 h2 m).wr F.HOLDER_ALT_COUNT count m).wrFlag
    F.HOLDER_ALT_OUT (!inSvc) m
theorem State.only_setHolder : s.only [.regs] (s.setHolder m h0 h1 h2 count inSvc) := State.only.refl.wr.wr.wr.wr.wrFlag
theorem State.within_setHolder (hm : m < 8192) : s.within [.HOLDER_ALT] (s.setHolder m h0 h1 h2 count inSvc) :=
  ((((State.within.refl.wr (Fld.in_glob hm)).wr (Fld.in_glob hm)).wr (Fld.in_glob hm)).wr (Fld.in_glob hm)).wr (Fld.in_glob hm)
theorem State.holds_setHolder (hc : count < 4) : (s.setHolder m h0 h1 h2 count inSvc).rd F.HOLDER_ALT_H0 m = h0 % 8192 ∧
    (s.setHolder m h0 h1 h2 count inSvc).rd F.HOLDER_ALT_H1 m = h1 % 8192 ∧ (s.setHolder m h0 h1 h2 count inSvc).rd F.HOLDER_ALT_H2 m = h2 % 8192 ∧
    (s.setHolder m h0 h1 h2 count inSvc).rd F.HOLDER_ALT_COUNT m = count ∧
    (s.setHolder m h0 h1 h2 count inSvc).flag F.HOLDER_ALT_OUT m = !inSvc := by
  rw [State.setHolder, State.wrFlag]
  refine ⟨?_, ?_, ?_, ?_, ?_⟩
  · rw [State.rd_wr_disjoint _ F.HOLDER_ALT_OUT F.HOLDER_ALT_H0 _ _ _ rfl (by decide),
      State.rd_wr_disjoint _ F.HOLDER_ALT_COUNT F.HOLDER_ALT_H0 _ _ _ rfl (by decide),
      State.rd_wr_disjoint _ F.HOLDER_ALT_H2 F.HOLDER_ALT_H0 _ _ _ rfl (by decide),
      State.rd_wr_disjoint _ F.HOLDER_ALT_H1 F.HOLDER_ALT_H0 _ _ _ rfl (by decide), State.rd_wr_self]
    rfl
  · rw [State.rd_wr_disjoint _ F.HOLDER_ALT_OUT F.HOLDER_ALT_H1 _ _ _ rfl (by decide),
      State.rd_wr_disjoint _ F.HOLDER_ALT_COUNT F.HOLDER_ALT_H1 _ _ _ rfl (by decide),
      State.rd_wr_disjoint _ F.HOLDER_ALT_H2 F.HOLDER_ALT_H1 _ _ _ rfl (by decide), State.rd_wr_self]
    rfl
  · rw [State.rd_wr_disjoint _ F.HOLDER_ALT_OUT F.HOLDER_ALT_H2 _ _ _ rfl (by decide),
      State.rd_wr_disjoint _ F.HOLDER_ALT_COUNT F.HOLDER_ALT_H2 _ _ _ rfl (by decide), State.rd_wr_self]
    rfl
  · rw [State.rd_wr_disjoint _ F.HOLDER_ALT_OUT F.HOLDER_ALT_COUNT _ _ _ rfl (by decide), State.rd_wr_self]
    exact Nat.mod_eq_of_lt hc
  · rw [State.flag_wr_self]
    cases inSvc <;> rfl
theorem State.trayMate_of_within (h : s.within [.HOLDER_ALT] t) : t.trayMate = s.trayMate := by
  have hclass : ∀ g < 4, t.rd F.GROUP_CFG_CLASS g = s.rd F.GROUP_CFG_CLASS g := fun g hg => h.rd (Fld.in_glob hg)
  have hpeer : ∀ g < 4, t.rd F.GROUP_CFG_PEER g = s.rd F.GROUP_CFG_PEER g := fun g hg => h.rd (Fld.in_glob hg)
  simp only [State.trayMate, show List.range 4 = [0, 1, 2, 3] from rfl, List.find?_cons, hclass 0 (by decide), hclass 1 (by decide),
    hclass 2 (by decide), hclass 3 (by decide)]
  split
  · exact congrArg some (hpeer 0 (by decide))
  · split
    · exact congrArg some (hpeer 1 (by decide))
    · split
      · exact congrArg some (hpeer 2 (by decide))
      · split
        · exact congrArg some (hpeer 3 (by decide))
        · rfl

/-- What a module out of service held up, when nothing was held up. -/
theorem State.abortLists_nil (h : s.stew.lists = []) (m : Nat) : s.abortLists m = s := by
  simp only [State.abortLists, h, List.filter_nil, List.map_nil, List.eraseDups_nil, List.foldl_nil]
  rw [← h]
theorem State.supplierGone_nil (h : s.wts.jobs = []) (m : Nat) : s.supplierGone m = s := by
  rw [State.supplierGone, h, List.foldl_nil]
theorem State.tkReassign_nil (h : s.jr.table = []) (m : Nat) : s.tkReassign [] m = s := by
  rw [State.tkReassign, h, List.foldl_nil]

section
variable (hm : m < 8192) (hc : count < 4) (hopen : s.closed src 0x2D = false) (hlists : s.stew.lists = []) (hjobs : s.wts.jobs = [])
  (htable : s.jr.table = [])
include hm hc hopen hlists hjobs htable

/-- R336: an update is taken; what a module that leaves service held up is nothing. -/
theorem exec_shardUpdate : ∃ u, s.Inboxed u ∧ exec (.shardUpdate src m h0 h1 h2 count inSvc []) s = .next (
    let t := u.setHolder m h0 h1 h2 count inSvc
    if s.inService m = true ∧ inSvc = false then
      (if s.trayMate = some m ∧ ¬ s.flag F.SERVICE_CFG_POLICY = true then
        (if s.modState = 3 ∨ s.modState = 4 then t.startDrain true (t.now + 60000000000) else if s.modState = 2 then t.parkNow else t)
      else t)
    else t) := by
  have hu := s.inboxed_takeInbox src 0x2D
  refine ⟨s.takeInbox src 0x2D, hu, (if_pos ⟨hm, hc⟩).trans (congrArg Host.Outcome.next ((if_neg (by simp [hopen])).trans ?_))⟩
  generalize s.takeInbox src 0x2D = u at hu ⊢
  have hset : u.setHolder m h0 h1 h2 count inSvc = ((((u.wr F.HOLDER_ALT_H0 h0 m).wr F.HOLDER_ALT_H1 h1 m).wr F.HOLDER_ALT_H2 h2 m).wr
    F.HOLDER_ALT_COUNT count m).wrFlag F.HOLDER_ALT_OUT (!inSvc) m := rfl
  have honly := u.only_setHolder (m := m) (h0 := h0) (h1 := h1) (h2 := h2) (count := count) (inSvc := inSvc)
  have hin := u.within_setHolder (h0 := h0) (h1 := h1) (h2 := h2) (count := count) (inSvc := inSvc) hm
  dsimp only
  rw [← hset]
  generalize u.setHolder m h0 h1 h2 count inSvc = t at honly hin ⊢
  have hmate : t.trayMate = s.trayMate := (State.trayMate_of_within hin).trans (State.trayMate_of_within fun _ _ _ _ _ _ => by
    rw [State.word, hu.regs, State.word])
  have hpolicy : t.flag F.SERVICE_CFG_POLICY = s.flag F.SERVICE_CFG_POLICY := (hin.flag (Fld.in_glob (by decide))).trans (hu.flag ..)
  have hstate : t.modState = s.modState := (hin.rd (f := F.MODULE_STATE_STATE) (Fld.in_glob (by decide))).trans hu.modState
  rw [hu.inService, State.abortLists_nil (by rw [honly.stew, hu.stew, hlists]), State.supplierGone_nil (by rw [honly.wts, hu.wts, hjobs]),
    State.tkReassign_nil (by rw [honly.jr, hu.jr, htable]), hmate, hpolicy, hstate]
  simp only [Bool.not_eq_true]
theorem completes_shardUpdate (h : s.trayMate ≠ some m ∨ s.flag F.SERVICE_CFG_POLICY = true ∨ s.inService m = false ∨ inSvc = true) :
    Completes (.shardUpdate src m h0 h1 h2 count inSvc []) s (fun t => t.rd F.HOLDER_ALT_H0 m = h0 % 8192 ∧
        t.rd F.HOLDER_ALT_H1 m = h1 % 8192 ∧ t.rd F.HOLDER_ALT_H2 m = h2 % 8192 ∧ t.rd F.HOLDER_ALT_COUNT m = count ∧
        t.flag F.HOLDER_ALT_OUT m = !inSvc ∧ t.modState = s.modState) := by
  obtain ⟨u, hu, hexec⟩ := exec_shardUpdate (h0 := h0) (h1 := h1) (h2 := h2) (inSvc := inSvc) hm hc hopen hlists hjobs htable
  have hplain : ∀ a, (if s.inService m = true ∧ inSvc = false then (if s.trayMate = some m ∧ ¬ s.flag F.SERVICE_CFG_POLICY = true then a
      else u.setHolder m h0 h1 h2 count inSvc) else u.setHolder m h0 h1 h2 count inSvc) = u.setHolder m h0 h1 h2 count inSvc := fun a => by
    by_cases hout : s.inService m = true ∧ inSvc = false
    · rw [if_pos hout, if_neg]
      rintro ⟨hmate, hpolicy⟩
      rcases h with h | h | h | h
      · exact h hmate
      · exact hpolicy h
      · exact absurd hout.1 (by rw [h]; decide)
      · exact absurd hout.2 (by rw [h]; decide)
    · exact if_neg hout
  obtain ⟨hh0, hh1, hh2, hhc, hhout⟩ := u.holds_setHolder (m := m) (h0 := h0) (h1 := h1) (h2 := h2) (inSvc := inSvc) hc
  refine ⟨_, hexec.trans (congrArg Host.Outcome.next (hplain _)), hh0, hh1, hh2, hhc, hhout, ?_⟩
  exact ((u.within_setHolder hm).rd (f := F.MODULE_STATE_STATE) (Fld.in_glob (by decide))).trans hu.modState
/-- R363: the tray-mate of a module that leaves service drains itself. -/
theorem completes_shardUpdate_drain (hmate : s.trayMate = some m) (hpolicy : s.flag F.SERVICE_CFG_POLICY = false)
    (hin : s.inService m = true) (hserving : s.modState = 3) (hpkgs : s.wts.pkgs = []) (hdrain : s.boot.drainTo = none) :
    Completes (.shardUpdate src m h0 h1 h2 count false []) s (fun t => t.flag F.HOLDER_ALT_OUT m = true ∧ t.modState = 4 ∧
        t.boot.drainTo = some true ∧ t.boot.drainBy = s.now + 60000000000) := by
  obtain ⟨u, hu, hexec⟩ := exec_shardUpdate (h0 := h0) (h1 := h1) (h2 := h2) (inSvc := false) hm hc hopen hlists hjobs htable
  obtain ⟨-, -, -, -, hhout⟩ := u.holds_setHolder (m := m) (h0 := h0) (h1 := h1) (h2 := h2) (inSvc := false) hc
  have honly := u.only_setHolder (m := m) (h0 := h0) (h1 := h1) (h2 := h2) (count := count) (inSvc := false)
  dsimp only at hexec
  rw [if_pos ⟨hin, rfl⟩, if_pos ⟨hmate, by rw [hpolicy]; decide⟩, if_pos (.inl hserving)] at hexec
  refine ⟨_, hexec, ?_⟩
  generalize u.setHolder m h0 h1 h2 count false = t at honly hhout ⊢
  have hnone : t.boot.drainTo = none := by rw [honly.boot, hu.boot, hdrain]
  refine ⟨?_, State.modState_startDrain _ _ _ hnone, by rw [State.boot_startDrain _ _ _ hnone], ?_⟩
  · refine (State.flag_congr_rd ?_).trans hhout
    have htp : t.wts.pkgs = [] := by rw [honly.wts, hu.wts, hpkgs]
    rw [State.startDrain, hnone]
    dsimp only
    rw [htp, List.filter_nil, List.map_nil, List.foldl_nil]
    have hwr : ∀ v : State, v.regs = t.regs → (v.moduleTo 4).rd F.HOLDER_ALT_OUT m = t.rd F.HOLDER_ALT_OUT m := fun v hv =>
      (State.rd_of_ite rfl ((State.rd_powerEvent ..).trans (State.rd_wr_other (f := F.MODULE_STATE_STATE) (Fld.in_glob (by decide))
        (Fld.in_glob hm) (.inl (by decide))))).trans (State.rd_congr hv ..)
    exact hwr _ rfl
  · rw [State.boot_startDrain _ _ _ hnone]
    exact congrArg (· + 60000000000) (honly.now.trans hu.now)
end
end

/-! ## Open commands of an origin (R355) -/

theorem completes_rejoinExpiry {se seq op i : Nat} {key : List Byte} {v : Session} (hopen : s.jr.openCmds = [(o, se, seq, op)])
    (hkey : SMap.find? s.jr.subjects (256 * o + se) = some key) (hv : s.session i = some v) (hactive : v.st = .active)
    (hsub : v.subject = key) (hi : i < 256) (hfirst : ∀ n < i, ∀ w, s.session n = some w → w.st = .active → w.subject ≠ key) :
    Completes .rejoinExpiry s (fun t => if s.now < s.jr.rejoinBy then t = s else t.jr.openCmds = [] ∧
      t.out = (s.sendEvent i 0x8002 1 (toBytes seq 8 ++ toBytes op 2 ++ toBytes stFault 2 ++ toBytes o 4)).out) := by
  refine ⟨_, rfl, ?_⟩
  split
  · rfl
  · refine ⟨rfl, ?_⟩
    have hfind : ∀ p : Nat → Bool, p i = true → (∀ n < i, p n = false) → (List.range 256).find? p = some i := fun p hp hn =>
      List.find?_range_eq_some.mpr ⟨hp, List.mem_range.mpr hi, fun n hlt => by rw [hn n hlt]; rfl⟩
    dsimp only
    rw [hopen, List.foldl_cons, List.foldl_nil]
    dsimp only
    rw [hkey]
    dsimp only
    rw [hfind]
    · rw [hv]
      simp [hactive, hsub]
    · intro n hn
      cases hw : s.session n with
      | none => rfl
      | some w =>
        by_cases ha : w.st = .active
        · simp [ha, hfirst n hn w hw ha]
        · simp [ha]

/-! ## Tenants (R255) -/

section
variable {tn : Nat}

/-- R255: a level after a tick, of a tenant with this rate and burst. -/
def refilled (rate burst : Nat) (level : Int) : Int :=
  if rate = 0 ∨ 1000 * (burst : Int) ≤ level then level else min (level + rate) (1000 * (burst : Int))
/-- Only levels of tenants differ. -/
def State.onlyLevels (s t : State) : Prop := t = { s with stew := { s.stew with levels := t.stew.levels } }
theorem State.onlyLevels.trans {u : State} (h : s.onlyLevels t) (h' : t.onlyLevels u) : s.onlyLevels u := by
  rw [State.onlyLevels] at h h' ⊢
  rw [h', h]
theorem State.onlyLevels.regs (h : s.onlyLevels t) : t.regs = s.regs := by
  rw [State.onlyLevels] at h
  have hregs := congrArg State.regs h
  exact hregs
theorem State.onlyLevels.reqs (h : s.onlyLevels t) : t.stew.reqs = s.stew.reqs := by
  rw [State.onlyLevels] at h
  have hreqs := congrArg (·.stew.reqs) h
  exact hreqs
theorem State.onlyLevels.writes (h : s.onlyLevels t) : t.stew.budgetWrites = s.stew.budgetWrites := by
  rw [State.onlyLevels] at h
  have hwrites := congrArg (·.stew.budgetWrites) h
  exact hwrites
theorem State.onlyLevels_tick (s : State) (n : Nat) : s.onlyLevels (if s.rd F.TENANT_BUDGET_RATE n = 0 then s else s.refillOne n) :=
  of_ite (P := s.onlyLevels) rfl (of_ite (P := s.onlyLevels) rfl rfl)
theorem State.level_tick (s : State) (n : Nat) : (if s.rd F.TENANT_BUDGET_RATE n = 0 then s else s.refillOne n).level tn =
    if n = tn then refilled (s.rd F.TENANT_BUDGET_RATE tn) (s.rd F.TENANT_BUDGET_BURST tn) (s.level tn) else s.level tn := by
  by_cases hn : n = tn
  · subst hn
    rw [if_pos rfl, refilled]
    by_cases hr : s.rd F.TENANT_BUDGET_RATE n = 0
    · rw [if_pos hr, if_pos (.inl hr)]
    · rw [if_neg hr, State.refillOne]
      by_cases hb : tenantCap (s.rd F.TENANT_BUDGET_BURST n) ≤ s.level n
      · rw [if_pos hb, if_pos (.inr hb)]
      · rw [if_neg hb]
        exact (SMap.getD_setD_self ..).trans (if_neg (not_or.mpr ⟨hr, hb⟩)).symm
  · rw [if_neg hn]
    refine of_ite (P := fun t : State => t.level tn = s.level tn) rfl (of_ite (P := fun t : State => t.level tn = s.level tn) rfl ?_)
    exact SMap.getD_setD_of_ne _ _ _ (Ne.symm hn) _
theorem State.refill_all {l : List Nat} (hl : l.Nodup) (s : State) :
    s.onlyLevels (l.foldl (fun (s : State) t => if s.rd F.TENANT_BUDGET_RATE t = 0 then s else s.refillOne t) s) ∧
    (l.foldl (fun (s : State) t => if s.rd F.TENANT_BUDGET_RATE t = 0 then s else s.refillOne t) s).level tn =
      if tn ∈ l then refilled (s.rd F.TENANT_BUDGET_RATE tn) (s.rd F.TENANT_BUDGET_BURST tn) (s.level tn) else s.level tn := by
  induction l generalizing s with
  | nil => exact ⟨rfl, (if_neg List.not_mem_nil).symm⟩
  | cons n l ih =>
    obtain ⟨hn, hl⟩ := List.nodup_cons.mp hl
    rw [List.foldl_cons]
    have hstep := s.onlyLevels_tick n
    have hlevel := s.level_tick (tn := tn) n
    generalize (if s.rd F.TENANT_BUDGET_RATE n = 0 then s else s.refillOne n) = u at hstep hlevel
    obtain ⟨hrest, hval⟩ := ih hl u
    refine ⟨hstep.trans hrest, hval.trans ?_⟩
    have hrd : ∀ f, u.rd f tn = s.rd f tn := fun f => State.rd_congr hstep.regs ..
    rw [hrd, hrd, hlevel]
    by_cases htn : n = tn
    · subst htn
      rw [if_neg hn, if_pos rfl, if_pos List.mem_cons_self]
    · rw [if_neg htn]
      simp only [List.mem_cons, Ne.symm htn, false_or]

/-- Registers, requests and tenants stay. -/
structure State.restful (s t : State) : Prop where
  regs : t.regs = s.regs
  levels : t.stew.levels = s.stew.levels
  reqs : t.stew.reqs = s.stew.reqs
  writes : t.stew.budgetWrites = s.stew.budgetWrites

theorem State.restful.trans {u : State} (h : s.restful t) (h' : t.restful u) : s.restful u :=
  ⟨h'.regs.trans h.regs, h'.levels.trans h.levels, h'.reqs.trans h.reqs, h'.writes.trans h.writes⟩
theorem State.restful.of_only {u : State} (h : s.restful t) (h' : t.only [.out, .arr, .mas, .host] u) : s.restful u :=
  h.trans ⟨h'.regs, by rw [h'.stew], by rw [h'.stew], by rw [h'.stew]⟩
theorem State.restful_stopDisabled (h : s.stew.reqs = []) (die : Nat) : s.restful (s.stopDisabled die) := by
  rw [State.stopDisabled]
  dsimp only
  split
  · exact ⟨rfl, rfl, rfl, rfl⟩
  · rw [h, List.foldl_nil]
    exact ⟨rfl, rfl, rfl.trans h.symm, rfl⟩
theorem State.applyCancels_nil (h : s.stew.reqs = []) (pkg : Nat) (first : Bool) : s.applyCancels pkg first = s := by
  rw [State.applyCancels, h, List.foldl_nil]
theorem State.evictMarked_nil (h : s.stew.reqs = []) (pkg : Nat) : s.evictMarked pkg = s := by
  rw [State.evictMarked, h, List.foldl_nil]
theorem State.admission_nil (h : s.stew.reqs = []) (die pkg : Nat) : s.admission die pkg = s := by
  rw [State.admission, h]
  rfl
theorem State.chooseBatch_nil (h : s.stew.reqs = []) (pkg : Nat) (p : Pkg) : (s.chooseBatch pkg p).2 = [] := by
  have hcand : s.candidates pkg = [] := by
    rw [State.candidates, h]
    rfl
  rw [State.chooseBatch]
  dsimp only
  rw [hcand]
  split <;> rfl
theorem State.formBatch_nil (h : s.stew.reqs = []) (pkg : Nat) (p : Pkg) : s.formBatch pkg p = s := by
  rw [State.formBatch]
  dsimp only
  rw [State.chooseBatch_nil h]
  exact (ite_self _).symm ▸ rfl
/-- R150: with no request, an idle boundary starts nothing. -/
theorem State.restful_boundary (h : s.stew.reqs = []) (die : Nat) : s.restful (s.boundary die none []) := by
  delta State.boundary
  extract_lets s1 s2 s3 s4 s5 bit want has
  have hprot : s.restful (s1.applyProtection die) := ⟨rfl, rfl, rfl, rfl⟩
  have h2 : s.restful s2 := hprot.trans (State.restful_stopDisabled (hprot.reqs.trans h) die)
  have hreqs : s2.stew.reqs = [] := h2.reqs.trans h
  have h3 : s3 = s2 := List.foldlRecOn (motive := (· = s2)) _ _ rfl fun u hu e _ => by
    rw [hu, State.applyCancels_nil hreqs, ite_self]
  have h4 : s4 = s2 := of_ite (P := (· = s2)) h3 (List.foldlRecOn (motive := (· = s2)) _ _ h3 fun u hu e _ => by
    rw [hu, State.evictMarked_nil hreqs, State.admission_nil hreqs, State.formBatch_nil hreqs])
  have h5 : s.restful s5 := h2.of_only
    ((of_ite (P := s2.only [.out, .arr, .mas, .host]) (h4 ▸ State.only.refl.moveRetired) (h4 ▸ State.only.refl)).endBubble)
  split
  · exact h5
  · exact ⟨h5.regs, h5.levels, h5.reqs, h5.writes⟩
theorem State.restful_idleBoundaries (h : s.stew.reqs = []) (l : List Nat) :
    s.restful (l.foldl (fun (s : State) d => s.idleBoundary d) s) :=
  List.foldlRecOn (motive := s.restful) _ _ ⟨rfl, rfl, rfl, rfl⟩ fun _ hu d _ =>
    of_ite (P := s.restful) (hu.trans (State.restful_boundary (hu.reqs.trans h) d)) hu
/-- R255: a tick with no request up to the writes that wait. -/
theorem exec_tenantRefill (htn : tn < 4096) (hreqs : s.stew.reqs = []) (dies : List Nat) : ∃ u : State,
    u.stew.budgetWrites = s.stew.budgetWrites ∧ u.rd F.TENANT_BUDGET_BURST tn = s.rd F.TENANT_BUDGET_BURST tn ∧
    u.level tn = refilled (s.rd F.TENANT_BUDGET_RATE tn) (s.rd F.TENANT_BUDGET_BURST tn) (s.level tn) ∧
    exec (.tenantRefill dies) s = .next (
      let t := (s.stew.budgetWrites.filter (fun w => decide (w.2.1 < 3)) ++ s.stew.budgetWrites.filter (fun w => decide (3 ≤ w.2.1))).foldl
        (fun (s : State) w => s.budgetApply w.1 w.2.1 w.2.2) u
      { t with stew := { t.stew with budgetWrites := [] } }) := by
  obtain ⟨hlevels, hval⟩ := s.refill_all (tn := tn) (List.nodup_range (n := 4096))
  rw [if_pos (List.mem_range.mpr htn)] at hval
  rw [show exec (.tenantRefill dies) s = execTenantRefill dies s from rfl, execTenantRefill]
  dsimp only
  generalize (List.range 4096).foldl (fun (s : State) t => if s.rd F.TENANT_BUDGET_RATE t = 0 then s else s.refillOne t) s = v at hlevels hval
  have hvreqs : v.stew.reqs = [] := hlevels.reqs.trans hreqs
  rw [hvreqs, List.foldl_nil]
  have hrest := State.restful_idleBoundaries hvreqs ((dies ++ [0, 1, 2, 3]).filter (fun d => decide (d < 4))).eraseDups
  generalize ((dies ++ [0, 1, 2, 3]).filter (fun d => decide (d < 4))).eraseDups.foldl (fun (s : State) d => s.idleBoundary d) v = u at hrest
  have hw : u.stew.budgetWrites = s.stew.budgetWrites := hrest.writes.trans hlevels.writes
  refine ⟨u, hw, ?_, ?_, by rw [hw]⟩
  · exact State.rd_congr (hrest.regs.trans hlevels.regs) ..
  · rw [State.level, hrest.levels]
    exact hval
theorem completes_tenantRefill (htn : tn < 4096) (hreqs : s.stew.reqs = []) (hw : s.stew.budgetWrites = []) (dies : List Nat) :
    Completes (.tenantRefill dies) s (fun t => t.level tn =
      (if s.rd F.TENANT_BUDGET_RATE tn = 0 ∨ 1000 * (s.rd F.TENANT_BUDGET_BURST tn : Int) ≤ s.level tn then s.level tn
       else min (s.level tn + s.rd F.TENANT_BUDGET_RATE tn) (1000 * (s.rd F.TENANT_BUDGET_BURST tn : Int)))) := by
  obtain ⟨u, -, -, hlevel, hexec⟩ := exec_tenantRefill htn hreqs dies
  refine ⟨_, hexec, ?_⟩
  rw [hw]
  exact hlevel
theorem completes_tenantRefill_write (htn : tn < 4096) (hreqs : s.stew.reqs = []) {v : Nat} (hw : s.stew.budgetWrites = [(tn, 3, v)])
    (dies : List Nat) : Completes (.tenantRefill dies) s (fun t => t.stew.budgetWrites = [] ∧
      t.level tn = min (1000 * signed32 v) (1000 * (s.rd F.TENANT_BUDGET_BURST tn : Int))) := by
  obtain ⟨u, -, hburst, -, hexec⟩ := exec_tenantRefill htn hreqs dies
  refine ⟨_, hexec, rfl, ?_⟩
  rw [hw]
  refine (SMap.getD_setD_self ..).trans ?_
  rw [hburst]
  rfl
theorem completes_level (htn : tn < 4096) (hopen : s.blocksShut = false) (v : Nat) : Completes (.level tn v) s (fun t =>
    t.stew.budgetWrites = s.stew.budgetWrites ++ [(tn, 3, v % 2 ^ 32)] ∧ t.stew.levels = s.stew.levels) :=
  ⟨_, (if_pos htn).trans (congrArg Host.Outcome.next (if_neg (by rw [hopen]; decide))), rfl, rfl⟩
end

/-! ## The standby steward and idle boundaries (R150, R250) -/

theorem completes_stewardTakeover_fault (hready : s.flag F.STEWARD_STATUS_STANDBY_READY = false) (h2 : 2 ≤ s.modState) (h4 : s.modState ≤ 4) :
    Completes .stewardTakeover s (fun t => t.modState = 5) :=
  ⟨_, congrArg Host.Outcome.next (if_pos ⟨by rw [hready]; decide, h2, h4⟩), State.modState_moduleFault _⟩
theorem emits_fold (l : List Flight) (h : Nat) (s : State) : ∃ out,
    l.foldl (fun (s : State) f => s.emit (.microBatch h f.rows)) s = { s with out := out } ∧ ∀ f ∈ l, .microBatch h f.rows ∈ out := by
  induction l generalizing s with
  | nil => exact ⟨_, rfl, fun _ hf => absurd hf List.not_mem_nil⟩
  | cons f l ih =>
    obtain ⟨out, hout, hmem⟩ := ih (s.emit (.microBatch h f.rows))
    have hsuffix : ∀ (l : List Flight) (u : State), u.out ⊆ (l.foldl (fun (s : State) f => s.emit (.microBatch h f.rows)) u).out := fun l u =>
      List.foldlRecOn (motive := fun t : State => u.out ⊆ t.out) _ _ (List.Subset.refl _) fun _ ht _ _ _ ho => List.mem_cons_of_mem _ (ht ho)
    refine ⟨out, hout, fun g hg => ?_⟩
    rcases List.mem_cons.mp hg with rfl | hg
    · have hfirst := hsuffix l (s.emit (.microBatch h g.rows)) List.mem_cons_self
      rw [hout] at hfirst
      exact hfirst
    · exact hmem g hg
/-- R250: the flight as the standby runs it again. -/
def rerun (f : Flight) : Flight := if f.stepped then f else { f with drops := f.drops.filter (fun x => decide (x.1 ≠ f.stage)) }
theorem rows_rerun (f : Flight) : (rerun f).rows = f.rows := by
  rw [rerun]
  split <;> rfl
theorem stepped_rerun (f : Flight) : (rerun f).stepped = f.stepped := by
  rw [rerun]
  split <;> rfl
/-- R250: the registers of the complex that takes over. -/
def State.sideTaken (s : State) : State :=
  ((s.wr F.STEWARD_STATUS_SIDE (1 - s.rd F.STEWARD_STATUS_SIDE)).wr F.STEWARD_STATUS_STANDBY_READY 0).bumpSat F.STEWARD_STATUS_TAKEOVERS
theorem State.only_sideTaken (s : State) : s.only [.regs] s.sideTaken := State.only.refl.wr.wr.wr
theorem State.rd_sideTaken (s : State) : s.sideTaken.rd F.STEWARD_STATUS_SIDE = 1 - s.rd F.STEWARD_STATUS_SIDE ∧
    s.sideTaken.flag F.STEWARD_STATUS_STANDBY_READY = false ∧
    s.sideTaken.rd F.STEWARD_STATUS_TAKEOVERS = min (s.rd F.STEWARD_STATUS_TAKEOVERS + 1) (2 ^ F.STEWARD_STATUS_TAKEOVERS.w - 1) := by
  unfold State.sideTaken State.bumpSat
  refine ⟨?_, ?_, ?_⟩
  · rw [State.rd_wr_beside, State.rd_wr_beside]
    exact State.rd_wr_fits (show _ < 2 by omega)
  · rw [State.flag_congr_rd State.rd_wr_beside, State.flag_wr_self]
    rfl
  · refine (State.rd_wr_fits (lt_of_le_of_lt (Nat.min_le_right _ _) (by decide))).trans ?_
    rw [State.rd_wr_beside, State.rd_wr_beside]
theorem State.stewardTakeover_of_flights {h : Nat} {fs : List Flight} (hfs : s.stew.flights = [(h, fs)]) : ∃ out,
    s.stewardTakeover = { s.sideTaken.setFlights h (fs.map rerun) with out := out } ∧
    ∀ f ∈ (fs.map rerun).filter (fun f => !f.stepped), .microBatch h f.rows ∈ out := by
  obtain ⟨out, hout, hmem⟩ := emits_fold ((fs.map rerun).filter (fun f => !f.stepped)) h (s.sideTaken.setFlights h (fs.map rerun))
  refine ⟨out, ?_, hmem⟩
  have honly := s.only_sideTaken
  change s.sideTaken.stew.flights.foldl _ s.sideTaken = _
  rw [honly.stew, hfs, List.foldl_cons, List.foldl_nil]
  exact hout
theorem completes_stewardTakeover {h : Nat} {fs : List Flight} (hready : s.flag F.STEWARD_STATUS_STANDBY_READY = true)
    (hfs : s.stew.flights = [(h, fs)]) : Completes .stewardTakeover s (fun t =>
    t.rd F.STEWARD_STATUS_SIDE = 1 - s.rd F.STEWARD_STATUS_SIDE ∧ t.flag F.STEWARD_STATUS_STANDBY_READY = false ∧
    t.rd F.STEWARD_STATUS_TAKEOVERS = min (s.rd F.STEWARD_STATUS_TAKEOVERS + 1) (2 ^ F.STEWARD_STATUS_TAKEOVERS.w - 1) ∧
    t.jr = s.jr ∧ t.flightsOf h = fs.map (fun f => if f.stepped then f else { f with drops := f.drops.filter (fun x => decide (x.1 ≠ f.stage)) }) ∧
    ∀ f ∈ fs, f.stepped = false → .microBatch h f.rows ∈ t.out) := by
  obtain ⟨out, ht, hmem⟩ := State.stewardTakeover_of_flights hfs
  have hexec : exec .stewardTakeover s = .next s.stewardTakeover := congrArg Host.Outcome.next (if_neg (by simp [hready]))
  rw [ht] at hexec
  refine ⟨_, hexec, ?_⟩
  have hrd : ∀ (u : State) f, State.rd { u.setFlights h (fs.map rerun) with out := out } f = u.rd f := fun u f =>
    (State.rd_congr (s := u.setFlights h (fs.map rerun)) (t := { u.setFlights h (fs.map rerun) with out := out }) rfl ..).trans
      (State.rd_congr (s := u) (t := u.setFlights h (fs.map rerun)) rfl ..)
  obtain ⟨hside, hstandby, hcount⟩ := s.rd_sideTaken
  refine ⟨(hrd ..).trans hside, (State.flag_congr_rd (hrd ..)).trans hstandby, (hrd ..).trans hcount, ?_, ?_, fun f hf hs => ?_⟩
  · exact s.only_sideTaken.jr
  · exact SMap.getD_setD_self ..
  · have hin := hmem (rerun f) (List.mem_filter.mpr ⟨List.mem_map_of_mem hf, by rw [stepped_rerun, hs]; rfl⟩)
    rw [rows_rerun] at hin
    exact hin
theorem bitOf_add_bit {n d : Nat} (h : bitOf n d = false) : bitOf (n + 2 ^ d) d = true := by
  rw [bitOf, decide_eq_false_iff_not] at h
  rw [bitOf, Nat.add_div_right _ (Nat.two_pow_pos d), decide_eq_true_eq]
  omega
theorem bitOf_sub_bit {n d : Nat} (h : bitOf n d = true) : bitOf (n - 2 ^ d) d = false := by
  rw [bitOf, decide_eq_true_eq] at h
  have hsub : (n - 2 ^ d) / 2 ^ d = n / 2 ^ d - 1 := by simpa using Nat.sub_mul_div n (2 ^ d) 1
  rw [bitOf, hsub, decide_eq_false_iff_not]
  omega
/-- R150: a boundary ends with TIME_REPEAT taken over. -/
theorem State.timeRepeat_boundary (s : State) (die : Nat) : bitOf (s.boundary die none []).arr.timeRepeat die =
    bitOf ((s.boundary die none []).rd F.TIME_REPEAT_DIE) die := by
  delta State.boundary
  extract_lets s1 s2 s3 s4 s5 bit want has
  split
  · next heq => exact heq.symm
  · next hne =>
    have hset : ∀ a : Arr, State.rd { s5 with arr := a } F.TIME_REPEAT_DIE = s5.rd F.TIME_REPEAT_DIE := fun _ => rfl
    rw [hset]
    change bitOf (if want = true then s5.arr.timeRepeat + bit else s5.arr.timeRepeat - bit) die = want
    cases hw : want with
    | true => exact bitOf_add_bit (by rw [hw] at hne; simpa using Ne.symm hne)
    | false => exact bitOf_sub_bit (by rw [hw] at hne; simpa using Ne.symm hne)
theorem completes_idleStepBoundary {die : Nat} (hd : die < 4) (hb : s.dieBetweenSteps die = true) :
    Completes (.idleStepBoundary die) s (fun t => bitOf t.arr.timeRepeat die = bitOf (t.rd F.TIME_REPEAT_DIE) die) :=
  ⟨_, (if_pos hd).trans (congrArg Host.Outcome.next (if_pos hb)), s.timeRepeat_boundary die⟩
theorem completes_idleStepBoundary_inStep {die : Nat} (hd : die < 4) (hb : s.dieBetweenSteps die = false) :
    Completes (.idleStepBoundary die) s (fun t => t = s) :=
  ⟨_, (if_pos hd).trans (congrArg Host.Outcome.next (if_neg (by rw [hb]; decide))), rfl⟩
end

/-- Settles O60: holds; members, spares, holders, ticks and the standby steward, command by command. -/
theorem takeoverAndStewardAct : Obligations.TakeoverAndStewardAct := by
  unfold Obligations.TakeoverAndStewardAct
  refine ⟨fun s src o oslot prio hopen => completes_takeoverAssign hopen, fun s src prio q hopen => ⟨fun k ha hk =>
    completes_takeoverState_slot hopen ha hk, fun ha hk hr => completes_takeoverState_none hopen ha hk hr, completes_takeoverState_unassigned hopen⟩,
    fun s src o oslot q hq hm hf ho hslot htoken hctrl => ⟨fun tok last hqueue => completes_takeoverToken hq hm htoken hqueue,
      fun index tok last hi => completes_takeoverToken_other hq htoken hi,
      fun rec' able hown hmoved => completes_takeoverCtrl_final hq hm hf ho hslot hctrl hown hmoved⟩,
    fun s src o oslot k r hreqs hm hst hack hctrl => ⟨fun tok hw he hc => completes_takeoverAck hreqs hm hst hack hw he hc,
      fun tok hw he => completes_takeoverAck_last hreqs hm hst hack hw he,
      fun rec' able => ⟨completes_takeoverCtrl_cancel hreqs hm hst hctrl, completes_takeoverCtrl_disable hreqs hm hst hctrl⟩⟩,
    fun s src failed tray hfailed hopen => ⟨fun m hspare hs hin hr => completes_spareCall_next hopen hspare hs hin hr,
      fun hspare hready hserving hpkgs => completes_spareCall_own hfailed hopen hspare hready hserving hpkgs⟩,
    fun s src m h0 h1 h2 count inSvc hm hc hopen hlists hjobs htable => ⟨completes_shardUpdate hm hc hopen hlists hjobs htable,
      fun hmate hpolicy hin hserving hpkgs hdrain => completes_shardUpdate_drain hm hc hopen hlists hjobs htable hmate hpolicy hin hserving hpkgs
        hdrain⟩,
    fun s o se seq op i key v hopen hkey hv hactive hsub hi hfirst => completes_rejoinExpiry hopen hkey hv hactive hsub hi hfirst,
    fun s tn htn => ⟨fun dies hreqs hw => completes_tenantRefill htn hreqs hw dies, fun v dies hreqs hw =>
      completes_tenantRefill_write htn hreqs hw dies, fun v hopen => completes_level htn hopen v⟩,
    fun s hready h2 h4 => completes_stewardTakeover_fault hready h2 h4, fun s h fs hready hfs => completes_stewardTakeover hready hfs,
    fun s die hd => ⟨fun hb => completes_idleStepBoundary hd hb, fun hb => completes_idleStepBoundary_inStep hd hb⟩⟩
end Sys2Proof.Machine
end

section
/-!
PROOF. Suppliers and requesters of image pages (R235 to R239, R326).
-/
namespace Sys2Proof.Machine

set_option Elab.async false

/-! ## Suppliers (R326) -/

section
variable {s t u : State} {src ref first count : Nat} {digest : List Byte}

/-- A module's declarations of unreachable ones outlast what it sends. -/
theorem State.dead_sendOne {p : Nat} (h : s.sendOne p = some t) : t.link.dead = s.link.dead := by
  unfold State.sendOne at h
  dsimp only at h
  split at h
  · split at h
    · cases h
    · split at h
      · cases h
      · cases h
        simp [State.setPort, State.emit]
  · cases h
theorem State.dead_pumpN {p n : Nat} (s : State) : (s.pumpN p n).link.dead = s.link.dead := by
  induction n generalizing s with
  | zero => rfl
  | succ n ih =>
    unfold State.pumpN
    split
    · next s1 h => exact (ih s1).trans (State.dead_sendOne h)
    · rfl
theorem State.dead_enqueue (s : State) (fs : List (Nat × Flit)) : (s.enqueue fs).link.dead = s.link.dead :=
  List.foldlRecOn (motive := fun t : State => t.link.dead = s.link.dead) _ _
    (List.foldlRecOn (motive := fun t : State => t.link.dead = s.link.dead) _ _ rfl fun _ hu _ _ => hu)
    fun u hu _ _ => of_ite (P := fun t : State => t.link.dead = s.link.dead) ((State.dead_pumpN u).trans hu) hu
theorem State.dead_heard (s : State) (dst k : Nat) (v : TxFlow) :
    (State.setTx (if s.outstanding dst = true then s else { s with link := { s.link with heard := SMap.insert s.link.heard dst s.now } }) k
      v).link.dead = s.link.dead := by
  split <;> rfl
theorem State.dead_sendMsg (s : State) (dst ty ref : Nat) (arg body : List Byte) : (s.sendMsg dst ty ref arg body).link.dead = s.link.dead := by
  rw [State.sendMsg]
  dsimp only
  split
  · rfl
  · split
    · rfl
    · split
      · rfl
      · unfold State.spray
        dsimp only
        rw [State.dead_enqueue]
        exact State.dead_heard _ _ _ _
/-- A module reached before a message is reached after it. -/
theorem State.reaches_sendMsg {m dst ty : Nat} {arg body : List Byte} (h : s.reaches m) : (s.sendMsg dst ty ref arg body).reaches m := by
  obtain ⟨hown, hdead⟩ := h
  have hid : (s.sendMsg dst ty ref arg body).ownId = s.ownId :=
    ((State.within.refl (s := s) (rs := [.LINK_CNT])).sendMsg).rd (f := F.MODULE_NUM_MODULE_ID) (Fld.in_glob (by decide))
  refine ⟨hid ▸ hown, ?_⟩
  rw [State.unreachable, State.dead_sendMsg]
  exact hdead
theorem State.supply_congr (hw : t.wts = s.wts) (hm : t.mas = s.mas) (q : Nat) : t.supply digest q = s.supply digest q := by
  have hbytes : t.masBytes = s.masBytes := by
    funext a n
    exact List.map_congr_left fun i _ => State.masByte_congr (by rw [hm]) _
  simp only [State.supply, State.inst, State.pte, hw, hm, hbytes]

theorem completes_pageQuery (hreach : s.reaches src) (hopen : s.closed src 1 = false) (h0 : 0 < count) (h1 : count ≤ 4096) :
    Completes (.pageQuery src ref digest first count) s (fun t => t.wts = s.wts ∧ t.mas = s.mas ∧
      .message src 2 ref [] (digest ++ toBytes first 4 ++ toBytes count 4 ++
        toBytes (match s.wts.pkgs.find? (fun (e : Nat × Pkg) => decide (e.2.digest = digest)) with | some e => pkgCode e.2.st | none => 0) 1 ++
        toBytes 0 7 ++ toBytes ((List.range count).foldl (fun a k => if (s.supply digest (first + k)).isSome then a + 2 ^ k else a) 0)
          ((count + 7) / 8)) ∈ t.out) := by
  refine ⟨_, congrArg Host.Outcome.next (if_neg (by simp [hopen])), ?_⟩
  have hu := s.inboxed_takeInbox src 1
  generalize s.takeInbox src 1 = u at hu ⊢
  have honly := fun ty arg body => (State.only.refl (s := u) (may := [.out, .regs, .link])).sendMsg (dst := src) (ty := ty) (ref := ref)
    (arg := arg) (body := body)
  rw [if_neg (by omega), hu.wts]
  simp only [State.supply_congr hu.wts hu.mas]
  exact ⟨(honly ..).wts.trans hu.wts, (honly ..).mas.trans hu.mas, State.mem_sendMsg (hu.reaches hreach)⟩
theorem State.adds_malformed (s : State) (src : Nat) : s.adds (s.malformed src) F.LINK_MOD_CNT_COUNT 1 6 ∧
    s.adds (s.malformed src) F.ERR_COUNT_COUNT 1 (64 * 4 + 0x1B) ∧ (s.malformed src).link.inbox = s.link.inbox := by
  rw [State.malformed]
  set d : ErrRec := { errOf 0x1B 0 src 4 with detail := src } with hd
  have hclass : d.cls < 64 := show 0x1B < 64 by decide
  have hcount : (s.bump F.LINK_MOD_CNT_COUNT 1 6).adds ((s.bump F.LINK_MOD_CNT_COUNT 1 6).detect d) F.ERR_COUNT_COUNT 1 (64 * 4 + 0x1B) :=
    (s.bump F.LINK_MOD_CNT_COUNT 1 6).adds_detect d hclass
  have hlink := ((State.only.refl (s := s) (may := [.out, .fresh, .regs, .host, .err])).bump (f := F.LINK_MOD_CNT_COUNT) (n := 1) (i := 6)
    (w := .glob)).detect (d := d)
  refine ⟨?_, ?_, congrArg (·.inbox) hlink.link⟩
  · exact (((s.bump F.LINK_MOD_CNT_COUNT 1 6).within_detect d hclass).rd (Fld.in_glob (by decide))).trans (State.rd_wr_self ..)
  · rw [State.adds, State.bump, State.rd_wr_other (f := F.LINK_MOD_CNT_COUNT) (Fld.in_glob (by decide)) (Fld.in_glob (by decide))
      (.inl (by decide))] at hcount
    exact hcount
theorem completes_malformedMsg (s : State) (src ty : Nat) : Completes (.malformedMsg src ty) s (fun t => s.adds t F.LINK_MOD_CNT_COUNT 1 6 ∧
    s.adds t F.ERR_COUNT_COUNT 1 (64 * 4 + 0x1B) ∧ t.link.inbox = (s.takeInbox src ty).link.inbox) := by
  refine ⟨_, rfl, ?_⟩
  have hu := s.inboxed_takeInbox src ty
  obtain ⟨hmod, herr, hbox⟩ := (s.takeInbox src ty).adds_malformed src
  rw [State.adds, hu.rd] at hmod herr
  exact ⟨hmod, herr, hbox⟩
theorem completes_pageQuery_malformed (hopen : s.closed src 1 = false) (h : count = 0 ∨ 4096 < count) :
    Completes (.pageQuery src ref digest first count) s (fun t => s.adds t F.LINK_MOD_CNT_COUNT 1 6) := by
  refine ⟨_, congrArg Host.Outcome.next (if_neg (by simp [hopen])), ?_⟩
  have hu := s.inboxed_takeInbox src 1
  generalize s.takeInbox src 1 = u at hu ⊢
  rw [if_pos h]
  obtain ⟨hadds, -⟩ := u.adds_malformed src
  rw [State.adds, hu.rd] at hadds
  exact hadds
theorem completes_pageFetch_malformed (hopen : s.closed src 3 = false) (h : count = 0 ∨ 64 < count) :
    Completes (.pageFetch src ref digest first count) s (fun t => s.adds t F.LINK_MOD_CNT_COUNT 1 6) := by
  refine ⟨_, congrArg Host.Outcome.next (if_neg (by simp [hopen])), ?_⟩
  have hu := s.inboxed_takeInbox src 3
  generalize s.takeInbox src 3 = u at hu ⊢
  rw [if_pos h]
  obtain ⟨hadds, -⟩ := u.adds_malformed src
  rw [State.adds, hu.rd] at hadds
  exact hadds
/-- R326: what is sent for one page. -/
def State.answerPage (s : State) (src ref : Nat) (digest : List Byte) (q : Nat) : State :=
  match s.supply digest q with
  | some (len, check, data) => s.sendMsg src 4 ref (toBytes q 4 ++ toBytes check 4 ++ toBytes len 2) data
  | none => s.sendMsg src 5 ref (toBytes q 4) []
/-- The message that answers for one page. -/
def pageReply (src ref q : Nat) : Option (Nat × Nat × List Byte) → Out
  | some d => .message src 4 ref (toBytes q 4 ++ toBytes d.2.1 4 ++ toBytes d.1 2) d.2.2
  | none => .message src 5 ref (toBytes q 4) []
theorem State.only_answerPage {q : Nat} : s.only [.out, .regs, .link] (s.answerPage src ref digest q) := by
  unfold State.answerPage
  split
  · exact State.only.refl.sendMsg
  · exact State.only.refl.sendMsg
theorem State.leadsTo_answerPage {q : Nat} : s.leadsTo (s.answerPage src ref digest q) := by
  unfold State.answerPage
  split
  · exact (State.leadsTo.refl s).sendMsg
  · exact (State.leadsTo.refl s).sendMsg
theorem State.answerPage_sends (h : s.reaches src) (q : Nat) :
    (s.answerPage src ref digest q).reaches src ∧ pageReply src ref q (s.supply digest q) ∈ (s.answerPage src ref digest q).out := by
  unfold State.answerPage
  split
  · next len check data hs =>
    rw [hs]
    exact ⟨State.reaches_sendMsg h, State.mem_sendMsg h⟩
  · next hs =>
    rw [hs]
    exact ⟨State.reaches_sendMsg h, State.mem_sendMsg h⟩
theorem State.answerPages_send (l : List Nat) (h : s.reaches src) :
    (l.foldl (fun (s : State) k => s.answerPage src ref digest (first + k)) s).wts = s.wts ∧
    (l.foldl (fun (s : State) k => s.answerPage src ref digest (first + k)) s).mas = s.mas ∧
    ∀ k ∈ l, pageReply src ref (first + k) (s.supply digest (first + k)) ∈
      (l.foldl (fun (s : State) k => s.answerPage src ref digest (first + k)) s).out := by
  induction l generalizing s with
  | nil => exact ⟨rfl, rfl, fun _ hk => absurd hk List.not_mem_nil⟩
  | cons k l ih =>
    rw [List.foldl_cons]
    obtain ⟨hreach, hfirst⟩ := s.answerPage_sends (ref := ref) (digest := digest) h (first + k)
    have honly := s.only_answerPage (src := src) (ref := ref) (digest := digest) (q := first + k)
    obtain ⟨hwts, hmas, hrest⟩ := ih hreach
    refine ⟨hwts.trans honly.wts, hmas.trans honly.mas, fun j hj => ?_⟩
    rcases List.mem_cons.mp hj with rfl | hj
    · have hlater : (s.answerPage src ref digest (first + j)).leadsTo
          (l.foldl (fun (s : State) k => s.answerPage src ref digest (first + k)) (s.answerPage src ref digest (first + j))) :=
        List.foldlRecOn (motive := fun t : State => (s.answerPage src ref digest (first + j)).leadsTo t) _ _ (.refl _) fun _ hu _ _ =>
          hu.trans State.leadsTo_answerPage
      exact hlater.mem_out hfirst
    · rw [← State.supply_congr honly.wts honly.mas]
      exact hrest j hj
theorem completes_pageFetch (hreach : s.reaches src) (hopen : s.closed src 3 = false) (h0 : 0 < count) (h1 : count ≤ 64) :
    Completes (.pageFetch src ref digest first count) s (fun t => t.wts = s.wts ∧ t.mas = s.mas ∧
      ∀ k < count, match s.supply digest (first + k) with
        | some d => .message src 4 ref (toBytes (first + k) 4 ++ toBytes d.2.1 4 ++ toBytes d.1 2) d.2.2 ∈ t.out
        | none => .message src 5 ref (toBytes (first + k) 4) [] ∈ t.out) := by
  refine ⟨_, congrArg Host.Outcome.next (if_neg (by simp [hopen])), ?_⟩
  have hu := s.inboxed_takeInbox src 3
  generalize s.takeInbox src 3 = u at hu ⊢
  rw [if_neg (by omega)]
  obtain ⟨hwts, hmas, hsent⟩ := State.answerPages_send (ref := ref) (digest := digest) (first := first) (List.range count) (hu.reaches hreach)
  refine ⟨hwts.trans hu.wts, hmas.trans hu.mas, fun k hk => ?_⟩
  have hk := hsent k (List.mem_range.mpr hk)
  rw [State.supply_congr hu.wts hu.mas] at hk
  split
  · next hs =>
    rw [hs] at hk
    exact hk
  · next hs =>
    rw [hs] at hk
    exact hk
theorem completes_confirmReq_none (hreach : s.reaches src) (hopen : s.closed src 6 = false)
    (hp : s.wts.pkgs.find? (fun (e : Nat × Pkg) => decide (e.2.digest = digest)) = none) :
    Completes (.confirmReq src ref digest) s (fun t => t.wts = s.wts ∧ .message src 7 ref [] (digest ++ toBytes 0 1 ++ toBytes 0 1) ∈ t.out) := by
  refine ⟨_, congrArg Host.Outcome.next (if_neg (by simp [hopen])), ?_⟩
  have hu := s.inboxed_takeInbox src 6
  generalize s.takeInbox src 6 = u at hu ⊢
  dsimp only
  rw [hu.wts, hp]
  have honly := fun body => (State.only.refl (s := u) (may := [.out, .regs, .link])).sendMsg (dst := src) (ty := 7) (ref := ref) (arg := [])
    (body := body)
  exact ⟨(honly _).wts.trans hu.wts, State.mem_sendMsg (hu.reaches hreach)⟩
theorem completes_confirmReq {k : Nat} {p : Pkg} (hreach : s.reaches src) (hopen : s.closed src 6 = false)
    (hp : s.wts.pkgs.find? (fun (e : Nat × Pkg) => decide (e.2.digest = digest)) = some (k, p)) (hst : p.st ≠ .absent) (hk : s.inst k = none) :
    Completes (.confirmReq src ref digest) s (fun t => .message src 7 ref [] (digest ++ toBytes (pkgCode p.st) 1 ++
        toBytes (b2n ((List.range p.imagePages).all (fun q => (s.supply digest q).isSome))) 1) ∈ t.out) := by
  refine ⟨_, congrArg Host.Outcome.next (if_neg (by simp [hopen])), ?_⟩
  have hu := s.inboxed_takeInbox src 6
  generalize s.takeInbox src 6 = u at hu ⊢
  have hinst : u.inst k = none := by rw [State.inst, hu.wts]; exact hk
  have hmem := fun body => State.mem_sendMsg (ty := 7) (ref := ref) (arg := []) (body := body) (hu.reaches hreach)
  dsimp only
  rw [hu.wts, hp]
  dsimp only
  rw [hinst]
  simp only [State.supply_congr hu.wts hu.mas, Option.isNone_none, Bool.true_or, Bool.and_true, decide_eq_true hst]
  exact hmem _
end

/-! ## Requesters (R235 to R239) -/

section
variable {s t u : State} {h src m q : Nat} {j k : Inst} {p : Pkg}

theorem State.installing.inst (hi : s.installing h j p) : s.inst h = some j := by
  obtain ⟨hjobs, hh, -⟩ := hi
  rw [State.inst, hjobs, List.find?_cons_of_pos (by simp [hh])]
theorem State.installing.pkg (hi : s.installing h j p) : s.pkg h = some p := hi.2.2
theorem State.installing.congr (hi : s.installing h j p) (hw : t.wts = s.wts) : t.installing h j p := by
  rw [State.installing, State.pkg, hw]
  exact hi
theorem State.installing.setInst (hi : s.installing h j p) (hk : k.handle = h) : (s.setInst k).installing h k p := by
  obtain ⟨hjobs, hh, hp⟩ := hi
  refine ⟨?_, hk, hp⟩
  rw [State.setInst]
  dsimp only
  rw [hjobs, List.map_cons, if_pos (hh.trans hk.symm), List.map_nil]
theorem State.installing.thenNext (hi : s.installing h j p) : s.thenNext h = s := by
  rw [State.thenNext, hi.inst]
  rfl
/-- R235, R236: a module is asked for pages that have not come and are not asked for. -/
theorem State.installing.askPages (hi : s.installing h j p) (m : Nat) : ∃ next : List Nat, (∀ q ∈ next, ∀ g ∈ j.got, g.1 ≠ q) ∧
    (s.askPages h m).installing h { j with asked := j.asked ++ next } p ∧ s.within [.LINK_CNT] (s.askPages h m) ∧
    (s.askPages h m).mas = s.mas := by
  unfold State.askPages
  rw [hi.inst, hi.pkg]
  dsimp only
  generalize hnext : List.take _ (List.filter (fun q => !j.asked.contains q && !j.got.any fun g => decide (g.1 = q)) _) = next
  have hset := hi.setInst (k := { j with asked := j.asked ++ next }) hi.2.1
  have honly : (s.setInst { j with asked := j.asked ++ next }).only [.out, .regs, .link] ((runsOf next).foldl (fun (s : State) r =>
      s.sendMsg m 3 h [] (p.digest ++ toBytes r.1 4 ++ toBytes r.2 4)) (s.setInst { j with asked := j.asked ++ next })) :=
    State.only.refl.foldl fun _ _ hu => hu.sendMsg
  refine ⟨next, fun q hq g hg hgq => ?_, hset.congr honly.wts, ?_, honly.mas⟩
  · rw [← hnext] at hq
    obtain ⟨-, hcond⟩ := List.mem_filter.mp (List.mem_of_mem_take hq)
    simp only [Bool.and_eq_true, Bool.not_eq_true', List.any_eq_false, decide_eq_true_eq] at hcond
    exact hcond.2 g hg hgq
  · have hset : s.within [.LINK_CNT] (s.setInst { j with asked := j.asked ++ next }) := State.within.refl.of_regs rfl
    exact hset.foldl fun _ _ _ hu => hu.sendMsg

theorem completes_pageAnswer (hi : s.installing h j p) (hopen : s.closed src 2 = false) {first : Nat} {held : List Bool} {m2 : Nat}
    (hphase : j.phase = 2) (hsrc : src ∈ j.hints) (hm2 : m2 ∈ j.hints) (hne : m2 ≠ src) (hans : j.answers = []) :
    Completes (.pageAnswer src h p.digest first held) s (fun t => t.mas = s.mas ∧ t.inst h = some { j with answers :=
        [(src, 1, (List.range held.length).filterMap (fun k => if held.getD k false then some (first + k) else none))] }) := by
  refine ⟨_, congrArg Host.Outcome.next (if_neg (by simp [hopen])), ?_⟩
  have hu := s.inboxed_takeInbox src 2
  generalize s.takeInbox src 2 = u at hu ⊢
  have hiu := hi.congr hu.wts
  dsimp only
  rw [hiu.inst, hiu.pkg]
  dsimp only
  rw [if_neg (by simp [hphase, hsrc]), hans, List.find?_nil]
  dsimp only
  rw [List.filter_nil, List.nil_append, if_neg]
  · have hset := fun a => (hiu.setInst (k := { j with answers := a }) hi.2.1).inst
    exact ⟨hu.mas, hset _⟩
  · intro hall
    have h2 := List.all_eq_true.mp hall m2 hm2
    simp [Ne.symm hne] at h2
theorem completes_pageAnswer_other (hi : s.installing h j p) (hopen : s.closed src 2 = false) {first : Nat} {held : List Bool}
    {digest : List Byte} (hother : digest ≠ p.digest ∨ j.phase ≠ 2 ∨ src ∉ j.hints) :
    Completes (.pageAnswer src h digest first held) s (fun t => t.wts = s.wts ∧ t.mas = s.mas ∧ t.out = s.out) := by
  refine ⟨_, congrArg Host.Outcome.next (if_neg (by simp [hopen])), ?_⟩
  have hu := s.inboxed_takeInbox src 2
  generalize s.takeInbox src 2 = u at hu ⊢
  have hiu := hi.congr hu.wts
  dsimp only
  rw [hiu.inst, hiu.pkg]
  dsimp only
  rw [if_pos]
  · exact ⟨hu.wts, hu.mas, hu.out⟩
  · rcases hother with hd | hph | hs
    · exact .inr (.inl (Ne.symm hd))
    · exact .inl hph
    · exact .inr (.inr (by simpa using hs))
theorem completes_confirm (hi : s.installing h j p) (hopen : s.closed src 7 = false) {tray st : Nat} {all : Bool} (hphase : j.phase = 4)
    (hpeer : src ∈ j.peers.take j.copies) (hnew : ∀ c ∈ j.confirmed, c.1 ≠ src)
    (htray : p.kind = 1 → tray ≠ s.rd F.FAIL_DOMAIN_TRAY ∧ ∀ c ∈ j.confirmed, c.2 ≠ tray) :
    Completes (.confirm src h tray p.digest st all) s (fun t => t.inst h =
        some (if 2 ≤ st ∧ st ≤ 4 ∨ st = 1 ∧ all = true then { j with confirmed := j.confirmed ++ [(src, tray)] } else j)) := by
  refine ⟨_, congrArg Host.Outcome.next (if_neg (by simp [hopen])), ?_⟩
  have hu := s.inboxed_takeInbox src 7
  generalize s.takeInbox src 7 = u at hu ⊢
  have hiu := hi.congr hu.wts
  dsimp only
  rw [hiu.inst, hiu.pkg]
  dsimp only
  by_cases hst : 2 ≤ st ∧ st ≤ 4 ∨ st = 1 ∧ all = true
  · rw [if_pos hst, if_pos]
    · exact (hiu.setInst (k := { j with confirmed := j.confirmed ++ [(src, tray)] }) hi.2.1).inst
    · refine ⟨hphase, rfl, by simpa using hpeer, by simpa using fun x hx => hnew (src, x) hx rfl, hst, ?_⟩
      by_cases hk : p.kind = 1
      · obtain ⟨hown, hother⟩ := htray hk
        exact .inr ⟨by rw [hu.rd]; exact hown, by simpa using fun x hx => hother (x, tray) hx rfl⟩
      · exact .inl hk
  · rw [if_neg hst, if_neg fun hc => hst hc.2.2.2.2.1]
    exact hiu.inst

/-! ### A page that has to come from elsewhere (R237) -/

theorem State.reassign_next (hi : s.installing h j p) {m2 n : Nat} {pages : List Nat} (hhints : j.hints = [src, m2]) (hne : src ≠ m2)
    (hans : j.answers = [(m2, n, pages)]) (hq : q ∈ pages) :
    s.adds ((s.reassign h q src).thenNext h) F.FETCH_RETRY_VALUE 1 ∧
    ∃ k, ((s.reassign h q src).thenNext h).inst h = some k ∧ (q, m2) ∈ k.sources ∧ (q, src) ∉ k.sources ∧ k.got = j.got := by
  unfold State.reassign
  rw [hi.inst]
  dsimp only
  have hrest : ((j.hints.dropWhile (fun x => decide (x ≠ src))).drop 1).find? (fun x => (holdersOf j q).contains x && decide (x ≠ src)) =
      some m2 := by
    have hheld : m2 ∈ holdersOf j q := List.mem_filter.mpr ⟨by rw [hhints]; simp, by rw [hans]; simp [hq]⟩
    rw [hhints, List.dropWhile_cons_of_neg (by simp), List.drop_one, List.tail_cons, List.find?_cons_of_pos]
    simp [hheld, Ne.symm hne]
  rw [hrest, if_pos (.inl rfl)]
  dsimp only
  have hb := hi.congr (t := s.bump F.FETCH_RETRY_VALUE) ((State.only.refl (s := s) (may := [.regs])).bump.wts)
  have hassign : (s.bump F.FETCH_RETRY_VALUE).assignPage h q (some m2) = (s.bump F.FETCH_RETRY_VALUE).setInst { j with
      sources := j.sources.filter (fun e => decide (e.1 ≠ q)) ++ [(q, m2)], asked := j.asked.filter (fun a => decide (a ≠ q)) } := by
    unfold State.assignPage
    rw [hb.inst]
  rw [hassign]
  have hset := hb.setInst (k := { j with
    sources := j.sources.filter (fun e => decide (e.1 ≠ q)) ++ [(q, m2)], asked := j.asked.filter (fun a => decide (a ≠ q)) }) hi.2.1
  obtain ⟨next, -, hasked, hcount, -⟩ := hset.askPages m2
  rw [hasked.thenNext]
  refine ⟨?_, _, hasked.inst, by simp, by simp [hne], rfl⟩
  refine (hcount.rd (f := F.FETCH_RETRY_VALUE) (Fld.in_glob (by decide))).trans ?_
  exact State.rd_wr_self s F.FETCH_RETRY_VALUE _ 0 .glob
section
variable (hi : s.installing h j p) (hphase : j.phase = 3) (hfrom : (q, src) ∈ j.sources) (hnew : ∀ g ∈ j.got, g.1 ≠ q)
include hi hphase hfrom hnew

theorem completes_pageData_bad (hopen : s.closed src 4 = false) {m2 n : Nat} {pages : List Nat} (hhints : j.hints = [src, m2])
    (hne : src ≠ m2) (hans : j.answers = [(m2, n, pages)]) (hq : q ∈ pages) {check : Nat} {data : List Byte}
    (hbad : (crc32c data).toNat ≠ check) : Completes (.pageData src h q check data) s (fun t => s.adds t F.FETCH_RETRY_VALUE 1 ∧
        ∃ k, t.inst h = some k ∧ (q, m2) ∈ k.sources ∧ (q, src) ∉ k.sources ∧ k.got = j.got) := by
  refine ⟨_, congrArg Host.Outcome.next (if_neg (by simp [hopen])), ?_⟩
  have hu := s.inboxed_takeInbox src 4
  generalize s.takeInbox src 4 = u at hu ⊢
  have hiu := hi.congr hu.wts
  obtain ⟨hadds, hinst⟩ := State.reassign_next hiu hhints hne hans hq
  rw [State.adds, hu.rd] at hadds
  dsimp only
  rw [hiu.inst]
  dsimp only
  rw [if_neg (by simpa [hphase, hfrom] using fun x y hx => hnew (q, x, y) hx rfl), if_neg fun hc => hbad hc.2.2.2]
  exact ⟨hadds, hinst⟩
theorem completes_pageRefuse (hopen : s.closed src 5 = false) {m2 n : Nat} {pages : List Nat} (hhints : j.hints = [src, m2])
    (hne : src ≠ m2) (hans : j.answers = [(m2, n, pages)]) (hq : q ∈ pages) :
    Completes (.pageRefuse src h q) s (fun t => s.adds t F.FETCH_RETRY_VALUE 1 ∧
        ∃ k, t.inst h = some k ∧ (q, m2) ∈ k.sources ∧ (q, src) ∉ k.sources ∧ k.got = j.got) := by
  refine ⟨_, congrArg Host.Outcome.next (if_neg (by simp [hopen])), ?_⟩
  have hu := s.inboxed_takeInbox src 5
  generalize s.takeInbox src 5 = u at hu ⊢
  have hiu := hi.congr hu.wts
  obtain ⟨hadds, hinst⟩ := State.reassign_next hiu hhints hne hans hq
  rw [State.adds, hu.rd] at hadds
  dsimp only
  rw [hiu.inst]
  dsimp only
  rw [if_pos (by simpa [hphase, hfrom] using fun a b c hab he => hnew (a, b, c) hab he)]
  exact ⟨hadds, hinst⟩
end

/-! ### A page that arrives (R223, R235) -/

theorem getD_pageFold_of_not_mem {l : List (Nat × Byte)} {base i : Nat} (h : i ∉ l.map (·.1)) (m : Mem) :
    SMap.getD (l.foldl (fun (m : Mem) e => SMap.setD m (base + e.1) e.2 0) m) (base + i) 0 = SMap.getD m (base + i) 0 := by
  induction l generalizing m with
  | nil => rfl
  | cons e l ih =>
    rw [List.map_cons, List.mem_cons, not_or] at h
    rw [List.foldl_cons, ih h.2, SMap.getD_setD_of_ne]
    have := h.1
    omega
theorem getD_pageFold {l : List (Nat × Byte)} {base i : Nat} {b : Byte} (hl : (l.map (·.1)).Nodup) (h : (i, b) ∈ l) (m : Mem) :
    SMap.getD (l.foldl (fun (m : Mem) e => SMap.setD m (base + e.1) e.2 0) m) (base + i) 0 = b := by
  induction l generalizing m with
  | nil => exact absurd h List.not_mem_nil
  | cons e l ih =>
    rw [List.map_cons, List.nodup_cons] at hl
    rw [List.foldl_cons]
    rcases List.mem_cons.mp h with rfl | h
    · rw [getD_pageFold_of_not_mem hl.1]
      exact SMap.getD_setD_self ..
    · exact ih hl.2 h _

section
variable {len check : Nat} {data : List Byte} {engines : List Nat}

/-- An install with a further page (R235). -/
def withPage (j : Inst) (q len check : Nat) (data : List Byte) (engines : List Nat) : Inst := { j with
  got := j.got ++ [(q, len, check)], asked := j.asked.filter (fun a => decide (a ≠ q)), fed := j.fed ++ [(q, engines)]
  image := ((List.range data.length).zip data).foldl (fun (m : Mem) e => SMap.setD m (q * pageBytes + e.1) e.2 0) j.image }
theorem imageBytes_withPage : imageBytes (withPage j q len check data engines) (q * pageBytes) data.length = data := by
  refine List.ext_getElem (by simp [imageBytes]) fun i hi hd => ?_
  simp only [imageBytes, List.getElem_map, List.getElem_range]
  refine getD_pageFold (by rw [List.map_fst_zip (by simp)]; exact List.nodup_range) ?_ _
  have hz : i < ((List.range data.length).zip data).length := by simpa using hd
  have hmem := List.getElem_mem hz
  simpa using hmem
theorem spanned_withPage {a n : Nat} (hl : lacksPage j q a n) : spanned (withPage j q len check data engines) a n = false := by
  obtain ⟨c, hc, hne, hnot⟩ := hl
  refine List.all_eq_false.mpr ⟨c, hc, ?_⟩
  simp only [withPage, List.any_append, List.any_cons, List.any_nil, Bool.or_false, Bool.or_eq_true, decide_eq_true_eq, not_or,
    List.any_eq_true, not_exists, not_and]
  exact ⟨hnot, Ne.symm hne⟩
variable (hi : s.installing h j p) (hnew : ∀ g ∈ j.got, g.1 ≠ q)
include hi hnew

theorem State.installing.feedPage_differs (hdiff : (headerSame (withPage j q len check data engines) &&
    (s.setInst (withPage j q len check data engines)).digestSame (withPage j q len check data engines)) = false) :
    s.feedPage h q len check data engines = (s.setInst (withPage j q len check data engines)).dropInstall h stRefused 0 := by
  have hinst := (hi.setInst (k := withPage j q len check data engines) hi.2.1).inst
  unfold withPage at hinst hdiff ⊢
  unfold State.feedPage
  rw [hi.inst]
  dsimp only
  rw [if_neg (by simpa using fun x y hx => hnew (q, x, y) hx rfl), hinst]
  dsimp only
  rw [if_pos hdiff]
theorem State.installing.feedPage_same (hkeep : p.keepImage = false) (hsame : (headerSame (withPage j q len check data engines) &&
    (s.setInst (withPage j q len check data engines)).digestSame (withPage j q len check data engines)) = true) :
    s.feedPage h q len check data engines =
      ((s.setInst (withPage j q len check data engines)).copySections h).finishReady (engines.headD 0) h := by
  have hset := hi.setInst (k := withPage j q len check data engines) hi.2.1
  have hinst := hset.inst
  have hkept : (s.setInst (withPage j q len check data engines)).keepPage h q len check data =
      some (s.setInst (withPage j q len check data engines)) := by
    rw [State.keepPage, hset.pkg]
    dsimp only
    rw [if_pos (by rw [hkeep]; rfl)]
  unfold withPage at hinst hsame hkept ⊢
  unfold State.feedPage
  rw [hi.inst]
  dsimp only
  rw [if_neg (by simpa using fun x y hx => hnew (q, x, y) hx rfl), hinst]
  dsimp only
  rw [if_neg (by rw [hsame]; decide), hkept]
omit hnew in
/-- R227: sections that are not whole yet wait. -/
theorem State.installing.copySections_waits (hsec : ∀ v ∈ p.sections, v.ty ≠ 3 → spanned j v.offset v.len = false) : s.copySections h = s := by
  rw [State.copySections, hi.pkg]
  refine List.foldlRecOn (motive := fun t : State => t = s) _ _ rfl fun u hu i _ => ?_
  subst hu
  rw [hi.inst]
  cases hv : p.sections[i]? with
  | none => rfl
  | some v =>
    dsimp only
    by_cases hty : v.ty = 3
    · rw [if_neg (c := v.ty = 1 ∨ v.ty = 2) (by omega), if_neg (c := v.ty = 5) (by omega), if_neg (c := v.ty = 4) (by omega), ite_self]
    · rw [if_pos (.inr (by rw [hsec v (List.mem_of_getElem? hv) hty]; rfl))]
omit hnew in
theorem State.installing.finishReady_waits {e : Nat} (hsec : ∀ v ∈ p.sections, v.ty = 3 → spanned j v.offset (min 64 v.len) = false) :
    s.finishReady e h = s := by
  rw [State.finishReady, hi.pkg]
  refine List.foldlRecOn (motive := fun t : State => t = s) _ _ rfl fun u hu i _ => ?_
  subst hu
  rw [hi.inst]
  cases hv : p.sections[i]? with
  | none => rfl
  | some v =>
    dsimp only
    rw [if_pos]
    by_cases hty : v.ty = 3
    · exact .inr (.inr (by rw [hsec v (List.mem_of_getElem? hv) hty]; decide))
    · exact .inl hty
/-- R223, R227, R245: a page that completes no section of a package that keeps no image. -/
theorem State.installing.feedPage_waits (hkeep : p.keepImage = false) (hmore : j.got.length + 1 < p.imagePages)
    (hhead : lacksPage j q 0 j.header.length)
    (hsec : ∀ v ∈ p.sections, lacksPage j q v.offset (if v.ty = 3 then min 64 v.len else v.len)) :
    s.feedPage h q len check data engines = s.setInst (withPage j q len check data engines) := by
  have hset := hi.setInst (k := withPage j q len check data engines) hi.2.1
  have hdigest : (s.setInst (withPage j q len check data engines)).digestSame (withPage j q len check data engines) = true := by
    have hpkg : (s.setInst (withPage j q len check data engines)).pkg (withPage j q len check data engines).handle = some p :=
      (congrArg _ hi.2.1).trans hset.pkg
    rw [State.digestSame, hpkg]
    dsimp only
    rw [decide_eq_true (by simpa [withPage] using hmore), Bool.true_or]
  have hheader : headerSame (withPage j q len check data engines) = true := by
    rw [headerSame, show (withPage j q len check data engines).header = j.header from rfl, spanned_withPage hhead]
    rfl
  rw [hi.feedPage_same hnew hkeep (by rw [hheader, hdigest]; rfl), hset.copySections_waits, hset.finishReady_waits]
  · intro v hv hty
    have hlacks := hsec v hv
    rw [if_pos hty] at hlacks
    exact spanned_withPage hlacks
  · intro v hv hty
    have hlacks := hsec v hv
    rw [if_neg hty] at hlacks
    exact spanned_withPage hlacks
end

theorem completes_pageData (hi : s.installing h j p) (hopen : s.closed src 4 = false) {data : List Byte} (hphase : j.phase = 3)
    (hfrom : (q, src) ∈ j.sources) (hnew : ∀ g ∈ j.got, g.1 ≠ q) (hkeep : p.keepImage = false) (hmore : j.got.length + 1 < p.imagePages)
    (hhead : lacksPage j q 0 j.header.length)
    (hsec : ∀ v ∈ p.sections, lacksPage j q v.offset (if v.ty = 3 then min 64 v.len else v.len))
    (h64 : data.length % 64 = 0) (h0 : 0 < data.length) (hpage : data.length ≤ pageBytes) :
    Completes (.pageData src h q (crc32c data).toNat data) s (fun t => s.adds t F.FETCH_NEIGHBOUR_VALUE 1 ∧ t.mas = s.mas ∧
        ∃ k, t.inst h = some k ∧ k.got = j.got ++ [(q, data.length / 64, (crc32c data).toNat)] ∧ q ∉ k.asked ∧
          imageBytes k (q * pageBytes) data.length = data) := by
  refine ⟨_, congrArg Host.Outcome.next (if_neg (by simp [hopen])), ?_⟩
  have hu := s.inboxed_takeInbox src 4
  generalize s.takeInbox src 4 = u at hu ⊢
  have hiu := hi.congr hu.wts
  dsimp only
  rw [hiu.inst]
  dsimp only
  rw [if_neg (by simpa [hphase, hfrom] using fun x y hx => hnew (q, x, y) hx rfl), if_pos ⟨h64, h0, hpage, rfl⟩]
  have hbump := (State.only.refl (s := u) (may := [.regs])).bump (f := F.FETCH_NEIGHBOUR_VALUE) (n := 1) (i := 0) (w := .glob)
  have hb := hiu.congr hbump.wts
  rw [hb.feedPage_waits hnew hkeep hmore hhead hsec]
  have hset := hb.setInst (k := withPage j q (data.length / 64) (crc32c data).toNat data (u.linkEngines src)) hi.2.1
  obtain ⟨next, hnext, hasked, hcount, hmas⟩ := hset.askPages src
  rw [hasked.thenNext]
  refine ⟨?_, hmas.trans (hbump.mas.trans hu.mas), _, hasked.inst, rfl, ?_, ?_⟩
  · refine (hcount.rd (f := F.FETCH_NEIGHBOUR_VALUE) (Fld.in_glob (by decide))).trans ((State.rd_wr_self u _ _ 0 .glob).trans ?_)
    rw [hu.rd]
  · intro hq
    rcases List.mem_append.mp hq with hq | hq
    · simpa using (List.mem_filter.mp hq).2
    · exact hnext q hq (q, data.length / 64, (crc32c data).toNat) (List.mem_append_right _ (List.mem_singleton_self _)) rfl
  · exact imageBytes_withPage (j := j) (len := data.length / 64) (check := (crc32c data).toNat) (engines := u.linkEngines src)

/-- The commands that wait for an end are told of it. -/
theorem State.completeAll_journals (us : List (Nat × Nat)) (s : State) (status detail : Nat) :
    s.jr.queue ⊆ (s.completeAll us status detail).jr.queue ∧ ∀ x ∈ us, ∃ r ∈ (s.completeAll us status detail).jr.queue, ∃ op,
      r.pay = .status x.1 x.2 (toBytes x.2 8 ++ toBytes op 2 ++ toBytes status 2 ++ toBytes detail 4) := by
  induction us generalizing s with
  | nil => exact ⟨List.Subset.refl _, fun _ hx => absurd hx List.not_mem_nil⟩
  | cons x us ih =>
    obtain ⟨hkeep, hrest⟩ := ih (s.complete x.1 x.2 status detail)
    rw [show s.completeAll (x :: us) status detail = (s.complete x.1 x.2 status detail).completeAll us status detail from rfl]
    have hfirst : s.keepsQueue (s.complete x.1 x.2 status detail) := State.keepsQueue_newRecord ..
    refine ⟨fun r hr => hkeep (hfirst.2 hr), fun y hy => ?_⟩
    rcases List.mem_cons.mp hy with rfl | hy
    · exact ⟨_, hkeep (List.mem_append_right _ (List.mem_singleton_self _)), _, rfl⟩
    · exact hrest y hy
/-- R223, R241: an install that fails leaves what was there before, and its commands complete. -/
theorem State.installing.dropInstall_fails (hi : s.installing h j p) (status detail : Nat) :
    (s.dropInstall h status detail).wts.jobs = [] ∧ (s.dropInstall h status detail).installFailed h j status detail := by
  unfold State.dropInstall
  rw [hi.inst]
  dsimp only
  have hpages : s.only [.arr, .mas] (j.created.foldl (fun (s : State) pn => (s.markFreeing pn).getD s) s) :=
    State.only.refl.foldl fun v _ hv => by
      cases hm : v.markFreeing _ with
      | none => exact hv
      | some w => exact hv.markFreeing (by decide) w hm
  generalize j.created.foldl (fun (s : State) pn => (s.markFreeing pn).getD s) s = v at hpages ⊢
  have hjobs : (v.dropInst h).wts.jobs = [] := by
    rw [State.dropInst]
    dsimp only
    rw [hpages.wts, hi.1, List.filter_cons_of_neg (by simp [hi.2.1]), List.filter_nil]
  have hend : ∀ (w : State) (waits : List (Nat × Nat)), w.wts.jobs = [] → w.pkg h = j.old.map (fun o => { o with switching := none }) →
      ((w.completeAll j.users status detail).completeAll waits status detail).wts.jobs = [] ∧
      ((w.completeAll j.users status detail).completeAll waits status detail).installFailed h j status detail := by
    intro w waits hwjobs hwpkg
    have hall := ((State.only.refl (s := w) (may := [.regs, .jr])).completeAll (us := j.users) (status := status)
      (detail := detail)).completeAll (us := waits) (status := status) (detail := detail)
    obtain ⟨-, husers⟩ := w.completeAll_journals j.users status detail
    obtain ⟨hkeep, -⟩ := (w.completeAll j.users status detail).completeAll_journals waits status detail
    refine ⟨by rw [hall.wts]; exact hwjobs, ?_, by rw [State.pkg, hall.wts]; exact hwpkg, fun x hx => ?_⟩
    · rw [State.inst, hall.wts, hwjobs, List.find?_nil]
    · obtain ⟨r, hr, hop⟩ := husers x hx
      exact ⟨r, hkeep hr, hop⟩
  refine hend _ _ ?_ ?_
  · cases j.old with
    | none => exact hjobs
    | some o => exact hjobs
  · cases j.old with
    | none => exact SMap.find?_erase_self ..
    | some o => exact SMap.find?_insert_self ..
theorem pagesIn_first {n : Nat} (h0 : 0 < n) (h1 : n ≤ pageBytes) : pagesIn 0 n = [0] := by
  have hlast : pageOf (0 + n - 1) = 0 := Nat.div_eq_of_lt (by omega)
  rw [pagesIn, if_neg (by omega), hlast]
  rfl
theorem completes_pageData_header (hi : s.installing h j p) (hopen : s.closed src 4 = false) {data : List Byte} (hphase : j.phase = 3)
    (hfrom : (0, src) ∈ j.sources) (hnew : ∀ g ∈ j.got, g.1 ≠ 0) (h64 : data.length % 64 = 0) (h0 : 0 < data.length)
    (hpage : data.length ≤ pageBytes) (hh0 : 0 < j.header.length) (hh : j.header.length ≤ data.length)
    (hdiff : data.take j.header.length ≠ j.header) :
    Completes (.pageData src h 0 (crc32c data).toNat data) s (fun t => t.installFailed h j stRefused 0) := by
  refine ⟨_, congrArg Host.Outcome.next (if_neg (by simp [hopen])), ?_⟩
  have hu := s.inboxed_takeInbox src 4
  generalize s.takeInbox src 4 = u at hu ⊢
  have hiu := hi.congr hu.wts
  dsimp only
  rw [hiu.inst]
  dsimp only
  rw [if_neg (by simpa [hphase, hfrom] using fun x y hx => hnew (0, x, y) hx rfl), if_pos ⟨h64, h0, hpage, rfl⟩]
  have hb := hiu.congr (t := u.bump F.FETCH_NEIGHBOUR_VALUE) ((State.only.refl (s := u) (may := [.regs])).bump.wts)
  have hheader : headerSame (withPage j 0 (data.length / 64) (crc32c data).toNat data (u.linkEngines src)) = false := by
    have hspanned : spanned (withPage j 0 (data.length / 64) (crc32c data).toNat data (u.linkEngines src)) 0 j.header.length = true := by
      rw [spanned, pagesIn_first hh0 (by omega)]
      simp [withPage]
    have hbytes : imageBytes (withPage j 0 (data.length / 64) (crc32c data).toNat data (u.linkEngines src)) 0 j.header.length =
        data.take j.header.length := by
      have hall := imageBytes_withPage (j := j) (q := 0) (len := data.length / 64) (check := (crc32c data).toNat) (data := data)
        (engines := u.linkEngines src)
      rw [Nat.zero_mul] at hall
      rw [← congrArg (List.take j.header.length) hall, imageBytes, imageBytes, ← List.map_take, List.take_range, Nat.min_eq_left hh]
    rw [headerSame, show (withPage j 0 (data.length / 64) (crc32c data).toNat data (u.linkEngines src)).header = j.header from rfl, hspanned,
      hbytes, decide_eq_false hdiff]
    rfl
  rw [hb.feedPage_differs hnew (by rw [hheader]; rfl)]
  have hset := hb.setInst (k := withPage j 0 (data.length / 64) (crc32c data).toNat data (u.linkEngines src)) hi.2.1
  obtain ⟨hjobs, hnone, hpkg, husers⟩ := hset.dropInstall_fails stRefused 0
  generalize State.dropInstall _ h stRefused 0 = t at hjobs hnone hpkg husers ⊢
  have hask : t.askPages h src = t := by
    rw [State.askPages, hnone]
  have hnext : t.thenNext h = t := by
    rw [State.thenNext, hnone, State.nextInstall, hjobs]
    rfl
  rw [hask, hnext]
  exact ⟨hnone, hpkg, husers⟩
end

/-- Settles O56: holds; what suppliers answer, and what requesters take, message by message. -/
theorem pagesAreSuppliedAndTaken : Obligations.PagesAreSuppliedAndTaken := by
  unfold Obligations.PagesAreSuppliedAndTaken
  refine ⟨fun s src ref first count digest hreach hopen => ⟨fun h0 h1 => completes_pageQuery hreach (hopen 1) h0 h1,
    fun h => completes_pageQuery_malformed (hopen 1) h, fun h0 h1 => completes_pageFetch hreach (hopen 3) h0 h1,
    fun h => completes_pageFetch_malformed (hopen 3) h, fun hp => completes_confirmReq_none hreach (hopen 6) hp,
    fun k p hp hst hk => completes_confirmReq hreach (hopen 6) hp hst hk⟩, completes_malformedMsg, fun s h j p src hi hopen => ⟨?_, ?_, ?_, ?_, ?_, ?_⟩⟩
  · exact fun first held m2 hphase hsrc hm2 hne hans => completes_pageAnswer hi (hopen 2) hphase hsrc hm2 hne hans
  · exact fun first held digest hother => completes_pageAnswer_other hi (hopen 2) hother
  · exact fun q data hphase hfrom hnew hkeep hmore hhead hsec h64 h0 hpage =>
      completes_pageData hi (hopen 4) hphase hfrom hnew hkeep hmore hhead hsec h64 h0 hpage
  · exact fun data hphase hfrom hnew h64 h0 hpage hh0 hh hdiff =>
      completes_pageData_header hi (hopen 4) hphase hfrom hnew h64 h0 hpage hh0 hh hdiff
  · exact fun q m2 n pages hphase hfrom hnew hhints hne hans hq => ⟨fun check data hbad =>
      completes_pageData_bad hi hphase hfrom hnew (hopen 4) hhints hne hans hq hbad,
      completes_pageRefuse hi hphase hfrom hnew (hopen 5) hhints hne hans hq⟩
  · exact fun tray st all hphase hpeer hnew htray => completes_confirm hi (hopen 7) hphase hpeer hnew htray
end Sys2Proof.Machine
end

section
/-!
PROOF. Memory tiles: descriptors, loop nests and the scatter-accumulate unit (R109 to R120).
-/
namespace Sys2Proof.Machine

set_option Elab.async false

section
variable {s t u : State} {die y x c a q : Nat}

/-! ## Registers and queues of a memory tile -/

/-- R109: a context of a memory tile. -/
structure MtSite (y x c : Nat) : Prop where
  row : y < 24
  col : x < 24
  memory : isCompute y x = false
  ctx : c < 4

theorem MtSite.has (h : MtSite y x c) {f : Fld} {i : Nat} (hi : i < f.reg.info.count) (hs : f.reg.info.space = .mt := by rfl)
    (hw : f.firstWord + f.wordCount ≤ f.reg.info.words := by decide) : f.In i (.tile die y x) :=
  Fld.in_tile hi (by have := h.row; omega) (by have := h.col; omega) (by rw [hs]; exact (congrArg Bool.not h.memory).trans rfl) hw
theorem evFld_in (h : MtSite y x c) {k : Nat} (hk : k < 4) : (evFld k).In c (.tile die y x) := by
  obtain rfl | rfl | rfl | rfl : k = 0 ∨ k = 1 ∨ k = 2 ∨ k = 3 := by omega
  all_goals exact h.has h.ctx
theorem State.rd_evFld_lt (s : State) (k i : Nat) (w : Win) : s.rd (evFld k) i w < 256 := s.rd_lt (evFld k) i w
theorem State.rd_fired_tile (hc : c < 4) (s : State) {f : Fld} {i : Nat} (hf : f.In i (.tile die y x)) :
    (s.fired die c).rd f i (.tile die y x) = s.rd f i (.tile die y x) := by
  have hsame : ∀ t : State, ∀ a : Arr, ({ t with arr := a } : State).rd f i (.tile die y x) = t.rd f i (.tile die y x) :=
    fun t a => State.rd_congr (show ({ t with arr := a } : State).regs = t.regs from rfl) ..
  rw [State.fired, hsame]
  exact State.rd_wr_other (Fld.in_die hc) hf (.inr (.inr nofun))
theorem State.arr_fired (s : State) : (s.fired die c).arr.sram = s.arr.sram ∧ (s.fired die c).arr.ags = s.arr.ags ∧
    (s.fired die c).arr.queues = s.arr.queues ∧ (s.fired die c).mas = s.mas := by
  rw [State.fired_frame]; exact ⟨rfl, rfl, rfl, rfl⟩
theorem State.sram_ags_pushTok (s : State) (v : Tok) : (s.pushTok die q c v).arr.sram = s.arr.sram ∧ (s.pushTok die q c v).arr.ags = s.arr.ags := by
  rw [State.pushTok]
  split
  · rw [State.bump, State.wr_regs_only]
    exact ⟨rfl, rfl⟩
  · exact ⟨rfl, rfl⟩
theorem State.queue_popTok_of_ne (s : State) {q q' : Nat} (h : q' ≠ q) : (s.popTok die q c).queue die q' c = s.queue die q' c := by
  have hk : queueKey die q' c ≠ queueKey die q c := by unfold queueKey; omega
  exact SMap.getD_setD_of_ne _ _ _ hk _
theorem State.toks_popTok (s : State) : ((s.popTok die q c).queue die q c).toks = (s.queue die q c).toks.tail :=
  congrArg Queue.toks (State.queue_setQueue_self ..)
/-- R83: the ports of a tile on two networks have different queues. -/
theorem State.portQueue_ne {net net' p p' q q' : Nat} (hy : y < 24) (hx : x < 24) (hn : net < 4) (hn' : net' < 4) (hne : net ≠ net')
    (h : s.portQueue die y x c net p = some q) (h' : s.portQueue die y x c net' p' = some q') : q ≠ q' := by
  obtain ⟨i, -, rfl⟩ := State.portQueue_eq h
  obtain ⟨j, -, rfl⟩ := State.portQueue_eq h'
  exact qidOf_net_ne hy hx hn hn' hne

/-! ## Bytes of a tile's memory -/

theorem sramKey_inj {i j : Nat} (h : j ≠ i) : sramKey die y x j ≠ sramKey die y x i := by unfold sramKey; omega
theorem State.sramByte_congr (h : t.arr.sram = s.arr.sram) (k : Nat) : t.sramByte die y x k = s.sramByte die y x k := by
  rw [State.sramByte, State.sramByte, h]
theorem State.sramRead_congr (h : t.arr.sram = s.arr.sram) (k n : Nat) : t.sramRead die y x k n = s.sramRead die y x k n := by
  induction n generalizing k with
  | zero => rfl
  | succ n ih => rw [State.sramRead, State.sramRead, ih, State.sramByte_congr h]
theorem State.sramByte_sramWrite_outside (n : Nat) : ∀ (s : State) (off v k : Nat), k < off ∨ off + n ≤ k →
    (s.sramWrite die y x off v n).sramByte die y x k = s.sramByte die y x k := by
  induction n with
  | zero => exact fun _ _ _ _ _ => rfl
  | succ n ih =>
    intro s off v k hk
    rw [State.sramWrite, ih _ _ _ _ (by omega)]
    have hne : k ≠ off := by omega
    exact SMap.getD_setD_of_ne _ _ _ (sramKey_inj hne) _
/-- Byte `j` of what was written holds byte `j` of the value. -/
theorem State.sramByte_sramWrite (n : Nat) : ∀ (s : State) (off v j : Nat), j < n →
    ((s.sramWrite die y x off v n).sramByte die y x (off + j)).toNat = v / 256 ^ j % 256 := by
  induction n with
  | zero => exact fun _ _ _ _ h => absurd h (Nat.not_lt_zero _)
  | succ n ih =>
    intro s off v j hj
    rw [State.sramWrite]
    cases j with
    | zero =>
      rw [State.sramByte_sramWrite_outside _ _ _ _ _ (.inl (by omega))]
      have hb : (s.setSramByte die y x off (BitVec.ofNat 8 v)).sramByte die y x (off + 0) = BitVec.ofNat 8 v := SMap.getD_setD_self ..
      rw [hb, BitVec.toNat_ofNat, Nat.pow_zero, Nat.div_one]
    | succ j =>
      rw [show off + (j + 1) = off + 1 + j by omega, ih _ _ _ _ (by omega), Nat.div_div_eq_div_mul, Nat.pow_succ, Nat.mul_comm 256]
/-- A part of what was written reads as that part of the value. -/
theorem State.sramRead_sramWrite (s : State) (off v : Nat) {n : Nat} (m : Nat) : ∀ j, j + m ≤ n →
    (s.sramWrite die y x off v n).sramRead die y x (off + j) m = v / 256 ^ j % 256 ^ m := by
  induction m with
  | zero => intro j _; rw [State.sramRead, Nat.pow_zero, Nat.mod_one]
  | succ m ih =>
    intro j hj
    rw [State.sramRead, State.sramByte_sramWrite _ _ _ _ _ (by omega), Nat.add_assoc, ih (j + 1) (by omega), Nat.pow_succ 256 j,
      ← Nat.div_div_eq_div_mul, Nat.pow_succ 256 m, Nat.mul_comm (256 ^ m), Nat.mod_mul]
theorem State.sramRead_sramWrite_self (s : State) (off v n : Nat) :
    (s.sramWrite die y x off v n).sramRead die y x off n = v % 256 ^ n :=
  (State.sramRead_sramWrite (n := n) s off v n 0 (by omega)).trans (by rw [Nat.pow_zero, Nat.div_one])
theorem State.queue_sramWrite (s : State) (off v n q : Nat) : (s.sramWrite die y x off v n).queue die q c = s.queue die q c := by
  rw [State.sramWrite_sram_only]; rfl
theorem State.regs_sramWrite (s : State) (off v n : Nat) : (s.sramWrite die y x off v n).regs = s.regs := by
  rw [State.sramWrite_sram_only]

/-! ## Address generators -/

theorem State.ag_congr (h : t.arr.ags = s.arr.ags) : t.ag die y x c a = s.ag die y x c a := by rw [State.ag, State.ag, h]
theorem State.ag_setAg (s : State) (g : AgState) : (s.setAg die y x c a g).ag die y x c a = g := SMap.getD_setD_self ..
theorem State.nestStep_ags_only (s : State) : s.nestStep die y x c a = { s with arr := { s.arr with ags := (s.nestStep die y x c a).arr.ags } } := by
  rw [State.nestStep]
  split <;> rfl
theorem State.ag_nestStep_congr (h : t.arr.ags = s.arr.ags) : (t.nestStep die y x c a).ag die y x c a = (s.nestStep die y x c a).ag die y x c a := by
  rw [State.nestStep, State.nestStep, State.ag_congr h]
  split
  · rw [State.ag_setAg, State.ag_setAg]
  · rw [State.ag_setAg, State.ag_setAg]
/-- R113: an iteration that has fired leaves memory, queues and registers of the tile as they are. -/
theorem State.stepped (s : State) : ((s.fired die c).nestStep die y x c a).arr.sram = s.arr.sram ∧
    ((s.fired die c).nestStep die y x c a).arr.queues = s.arr.queues ∧
    ((s.fired die c).nestStep die y x c a).ag die y x c a = (s.nestStep die y x c a).ag die y x c a ∧
    ∀ q, ((s.fired die c).nestStep die y x c a).queue die q c = s.queue die q c := by
  obtain ⟨hsram, hags, hqueues, -⟩ := State.arr_fired (die := die) (c := c) s
  have hq : ((s.fired die c).nestStep die y x c a).arr.queues = s.arr.queues := by rw [State.nestStep_ags_only]; exact hqueues
  refine ⟨by rw [State.nestStep_ags_only]; exact hsram, hq, State.ag_nestStep_congr hags, fun q => ?_⟩
  rw [State.queue, State.queue, hq]
theorem State.rd_stepped (hc : c < 4) (s : State) {f : Fld} {i : Nat} (hf : f.In i (.tile die y x)) :
    ((s.fired die c).nestStep die y x c a).rd f i (.tile die y x) = s.rd f i (.tile die y x) := by
  rw [State.rd_congr (t := (s.fired die c).nestStep die y x c a) (s := s.fired die c) (by rw [State.nestStep_ags_only]),
    State.rd_fired_tile hc s hf]

/-! ## Freezing a context (R97 to R99, R119) -/

theorem State.within_recordFreeze (s : State) (cause : Nat) (qids : List Nat) :
    s.within [.FREEZE_INFO, .FREEZE_CYCLE_LO, .FREEZE_CYCLE_HI, .STALL_SET] (s.recordFreeze die c cause qids) := by
  rw [State.recordFreeze]
  refine State.within.foldl ?_ fun u i hi hu => ?_
  · have hin : ∀ f : Fld, f.reg ∈ [Reg.FREEZE_INFO, .FREEZE_CYCLE_LO, .FREEZE_CYCLE_HI] → f.wordCount = 1 ∧ f.firstWord = 0 →
        f.In 0 (.die die) := by
      intro f hf hw
      simp only [List.mem_cons, List.not_mem_nil, or_false] at hf
      rcases hf with hf | hf | hf
      all_goals exact Fld.in_die (by rw [hf]; decide) (by rw [hf]; rfl) (by rw [hw.1, hw.2, hf]; decide)
    exact ((((((State.within.refl.wr (hin _ (by decide) (by decide))).wr (hin _ (by decide) (by decide))).wr
      (hin _ (by decide) (by decide))).wr (hin _ (by decide) (by decide))).wr (hin _ (by decide) (by decide))).wr
      (hin _ (by decide) (by decide)))
  · have hin : i < 16 := List.mem_range.mp hi
    split
    · exact (hu.wr (f := F.STALL_SET_QID) (Fld.in_die hin)).wr (f := F.STALL_SET_VALID) (Fld.in_die hin)
    · exact (hu.wr (f := F.STALL_SET_QID) (Fld.in_die hin)).wr (f := F.STALL_SET_VALID) (Fld.in_die hin)
theorem State.arr_recordFreeze (s : State) (cause : Nat) (qids : List Nat) : (s.recordFreeze die c cause qids).arr = s.arr := by
  have hfold : ∀ (l : List Nat) (u : State), (l.foldl (fun s i =>
      match qids[i]? with
      | some q => (s.wr F.STALL_SET_QID q i (.die die)).wr F.STALL_SET_VALID 1 i (.die die)
      | none => (s.wr F.STALL_SET_QID 0 i (.die die)).wr F.STALL_SET_VALID 0 i (.die die)) u).arr = u.arr := by
    intro l
    induction l with
    | nil => exact fun _ => rfl
    | cons i l ih =>
      intro u
      rw [List.foldl_cons, ih]
      split
      · rw [State.arr_wr, State.arr_wr]
      · rw [State.arr_wr, State.arr_wr]
  rw [State.recordFreeze]
  refine (hfold _ _).trans ?_
  simp only [State.arr_wr]
/-- R97, R98: a freeze of the die's active context stops the die, and gives notice to firmware. -/
theorem State.freeze_active (hc : c < 4) (hact : s.active die = some c) (cause : Nat) :
    (s.freeze die c cause).slotState die c = 4 ∧ (s.freeze die c cause).active die = none ∧
    (s.freeze die c cause).arr.messages = s.arr.messages ++ [(die, c, cause)] ∧ (s.freeze die c cause).arr.sram = s.arr.sram := by
  have hstop : s.stopSlot die c = (s.setSlotState die c .frozen).wr F.DIE_ACTIVE_NONE 1 0 (.die die) := if_pos hact
  have hregs := (s.stopSlot die c).within_recordFreeze (die := die) (c := c) cause (if cause = 1 then s.blockedQids die c else [])
  have harr := (s.stopSlot die c).arr_recordFreeze (die := die) (c := c) cause (if cause = 1 then s.blockedQids die c else [])
  have hstopArr : (s.stopSlot die c).arr = s.arr := by rw [hstop, State.arr_wr, State.arr_setSlotState]
  rw [hstopArr] at harr
  rw [State.freeze]
  generalize (s.stopSlot die c).recordFreeze die c cause (if cause = 1 then s.blockedQids die c else []) = u at hregs harr ⊢
  have hone : F.DIE_ACTIVE_NONE.In 0 (.die die) := Fld.in_die (by decide)
  have hslot : u.slotState die c = 4 := by
    rw [State.slotState, hregs.rd (f := F.CTX_SLOT_STATE) (Fld.in_die hc), hstop,
      State.rd_wr_other hone (Fld.in_die hc) (.inl (by decide)), State.setSlotState]
    exact State.rd_wr_fits (f := F.CTX_SLOT_STATE) (show 4 < 2 ^ 3 by decide)
  have hnone : u.active die = none := by
    rw [State.active, if_pos]
    rw [hregs.flag hone, hstop, State.flag_wr_self]
    rfl
  have hsram : u.arr.sram = s.arr.sram := congrArg Arr.sram harr
  exact ⟨hslot, hnone, congrArg (· ++ [(die, c, cause)]) (congrArg Arr.messages harr), hsram⟩
theorem State.rd_freeze_tile {cause : Nat} (hc : c < 4) {f : Fld} {i : Nat} (hf : f.In i (.tile die y x))
    (hspace : f.reg ∉ [Reg.FREEZE_INFO, .FREEZE_CYCLE_LO, .FREEZE_CYCLE_HI, .STALL_SET]) :
    (s.freeze die c cause).rd f i (.tile die y x) = s.rd f i (.tile die y x) := by
  have hstop : (s.stopSlot die c).rd f i (.tile die y x) = s.rd f i (.tile die y x) := by
    have hslot : (s.setSlotState die c .frozen).rd f i (.tile die y x) = s.rd f i (.tile die y x) :=
      State.rd_wr_other (Fld.in_die hc) hf (.inr (.inr nofun))
    rw [State.stopSlot]
    split
    · rw [State.rd_wr_other (Fld.in_die (by decide)) hf (.inr (.inr nofun)), hslot]
    · exact hslot
  have hrec := ((s.stopSlot die c).within_recordFreeze (die := die) (c := c) cause (if cause = 1 then s.blockedQids die c else [])).rd hf hspace
  refine Eq.trans ?_ (hrec.trans hstop)
  rw [State.freeze]
  generalize (s.stopSlot die c).recordFreeze die c cause (if cause = 1 then s.blockedQids die c else []) = u
  have hsame : ∀ a : Arr, ({ u with arr := a } : State).rd f i (.tile die y x) = u.rd f i (.tile die y x) :=
    fun a => State.rd_congr (show ({ u with arr := a } : State).regs = u.regs from rfl) ..
  exact hsame _

/-- R115, R119: a bound error. -/
theorem State.mtBound_stops (hsite : MtSite y x c) (hact : s.active die = some c) (ha : a < 4) {kind : Nat} (hkind : kind < 8) :
    (s.mtBound die y x c a kind).slotState die c = 4 ∧ (s.mtBound die y x c a kind).active die = none ∧
    (s.mtBound die y x c a kind).rd F.MT_STATUS_ERR_KIND 0 (.tile die y x) = kind ∧
    (s.mtBound die y x c a kind).rd F.MT_STATUS_ERR_AG 0 (.tile die y x) = a ∧
    (s.mtBound die y x c a kind).arr.messages = s.arr.messages ++ [(die, c, 2)] ∧
    (s.mtBound die y x c a kind).arr.sram = s.arr.sram := by
  have hin : ∀ f : Fld, f.reg = .MT_STATUS → f.wordCount = 1 ∧ f.firstWord = 0 → f.In 0 (.tile die y x) := fun f hf hw =>
    hsite.has (by rw [hf]; decide) (by rw [hf]; rfl) (by rw [hw.1, hw.2, hf]; decide)
  have hagIn := hin F.MT_STATUS_ERR_AG rfl (by decide)
  have hkindIn := hin F.MT_STATUS_ERR_KIND rfl (by decide)
  have hregs : s.within [.MT_STATUS] ((((s.wr F.MT_STATUS_BOUND_ERR 1 0 (.tile die y x)).wr F.MT_STATUS_ERR_AG a 0 (.tile die y x)).wr
      F.MT_STATUS_ERR_CTX c 0 (.tile die y x)).wr F.MT_STATUS_ERR_KIND kind 0 (.tile die y x)) :=
    (((State.within.refl.wr (hin _ rfl (by decide))).wr hagIn).wr (hin _ rfl (by decide))).wr hkindIn
  have hk : ((((s.wr F.MT_STATUS_BOUND_ERR 1 0 (.tile die y x)).wr F.MT_STATUS_ERR_AG a 0 (.tile die y x)).wr F.MT_STATUS_ERR_CTX c 0
      (.tile die y x)).wr F.MT_STATUS_ERR_KIND kind 0 (.tile die y x)).rd F.MT_STATUS_ERR_KIND 0 (.tile die y x) = kind :=
    State.rd_wr_fits (f := F.MT_STATUS_ERR_KIND) hkind
  have hg : ((((s.wr F.MT_STATUS_BOUND_ERR 1 0 (.tile die y x)).wr F.MT_STATUS_ERR_AG a 0 (.tile die y x)).wr F.MT_STATUS_ERR_CTX c 0
      (.tile die y x)).wr F.MT_STATUS_ERR_KIND kind 0 (.tile die y x)).rd F.MT_STATUS_ERR_AG 0 (.tile die y x) = a := by
    rw [State.rd_wr_beside, State.rd_wr_beside]
    exact State.rd_wr_fits (f := F.MT_STATUS_ERR_AG) ha
  have harr : ((((s.wr F.MT_STATUS_BOUND_ERR 1 0 (.tile die y x)).wr F.MT_STATUS_ERR_AG a 0 (.tile die y x)).wr F.MT_STATUS_ERR_CTX c 0
      (.tile die y x)).wr F.MT_STATUS_ERR_KIND kind 0 (.tile die y x)).arr = s.arr := by simp only [State.arr_wr]
  rw [State.mtBound]
  generalize (((s.wr F.MT_STATUS_BOUND_ERR 1 0 (.tile die y x)).wr F.MT_STATUS_ERR_AG a 0 (.tile die y x)).wr F.MT_STATUS_ERR_CTX c 0
      (.tile die y x)).wr F.MT_STATUS_ERR_KIND kind 0 (.tile die y x) = u at hregs hk hg harr ⊢
  have hactU : u.active die = some c := by
    rw [State.active, hregs.flag (f := F.DIE_ACTIVE_NONE) (Fld.in_die (by decide)),
      hregs.rd (f := F.DIE_ACTIVE_SLOT) (Fld.in_die (by decide))]
    exact hact
  obtain ⟨h1, h2, h3, h4⟩ := State.freeze_active hsite.ctx hactU 2
  rw [harr] at h3 h4
  exact ⟨h1, h2, (State.rd_freeze_tile hsite.ctx hkindIn (by decide)).trans hk, (State.rd_freeze_tile hsite.ctx hagIn (by decide)).trans hg, h3, h4⟩

/-! ## The clauses -/

/-- A generator of a memory tile, and its active context. -/
structure State.AtAg (s : State) (die y x c a : Nat) : Prop where
  onDie : die < 4
  site : MtSite y x c
  col : x < s.cols
  gen : a < 4
  act : s.active die = some c

theorem State.AtAg.onAg (h : s.AtAg die y x c a) (k : Res) : onAg s die y x a k = k := by
  rw [Sys2Proof.Machine.onAg, if_pos h.gen, onMt, if_pos ⟨h.onDie, h.site.row, h.col, by rw [h.site.memory]; exact Bool.false_ne_true⟩]
theorem State.AtAg.runningDesc (h : s.AtAg die y x c a) (hrun : (s.ag die y x c a).running = true) {mode : Nat}
    (hm : dMode (s.descOf die y x c a (s.ag die y x c a).desc) = mode) :
    s.runningDesc die y x a mode = some (c, s.descOf die y x c a (s.ag die y x c a).desc) := by
  rw [State.runningDesc, h.act]
  exact if_pos (by rw [hrun, decide_eq_true hm]; rfl)

section
variable {n : Nat} (h : s.AtAg die y x c a)
include h

/-- R111, R114, R115: a descriptor whose bounds can be read issues once its wait is met, or is refused. -/
theorem issueDesc_of_bounds (hn : n = s.descOf die y x c a (s.ag die y x c a).desc) (hrun : (s.ag die y x c a).running = false)
    (hfin : (s.ag die y x c a).finished = false) (hmode : 1 ≤ dMode n)
    (hwords : ∀ w ∈ boundWords n, inRegion (s.region die y x c) w (w + 3) = true ∧ s.prefetching die y x w 4 = false)
    (hbounds : ∀ d < 4, 0 < s.boundOf die y x n d ∧ s.boundOf die y x n d < 2 ^ 24) :
    (s.takeWait die y x c n = none → s.issueDesc die y x a = s) ∧
    (∀ s1, s.takeWait die y x c n = some s1 → s.issueDesc die y x a =
      if decide (dMode n < 4) && (!(inRegion (s.region die y x c) (nestRange n ((List.range 4).map (s.boundOf die y x n))).1
          (nestRange n ((List.range 4).map (s.boundOf die y x n))).2) ||
        (decide (dMode n ≠ 3) && (s.hosted die y x c).any (nestInExt n ((List.range 4).map (s.boundOf die y x n))))) then
        s.mtBound die y x c a 1
      else (s1.setAg die y x c a { s.ag die y x c a with
        running := true, bounds := (List.range 4).map (s.boundOf die y x n), index := [0, 0, 0, 0] }).fired die c) := by
  have hread : (boundWords n).any (fun w => s.prefetching die y x w 4) = false :=
    List.any_eq_false.mpr fun w hw => by rw [(hwords w hw).2]; exact Bool.false_ne_true
  have hin : (boundWords n).any (fun w => !(inRegion (s.region die y x c) w (w + 3))) = false :=
    List.any_eq_false.mpr fun w hw => by rw [(hwords w hw).1]; exact Bool.false_ne_true
  have hbig : ((List.range 4).map (s.boundOf die y x n)).any (fun b => decide (2 ^ 24 ≤ b)) = false := by
    refine List.any_eq_false.mpr fun b hb => ?_
    obtain ⟨d, hd, rfl⟩ := List.mem_map.mp hb
    have := (hbounds d (List.mem_range.mp hd)).2
    rw [decide_eq_true_iff]
    omega
  have hempty : ((List.range 4).map (s.boundOf die y x n)).any (fun b => decide (b = 0)) = false := by
    refine List.any_eq_false.mpr fun b hb => ?_
    obtain ⟨d, hd, rfl⟩ := List.mem_map.mp hb
    have := (hbounds d (List.mem_range.mp hd)).1
    rw [decide_eq_true_iff]
    omega
  have hscatter : (!decide (4 ≤ dMode n)) = decide (dMode n < 4) := by
    rw [← decide_not]; exact decide_eq_decide.mpr (by omega)
  have hrest : s.issueDesc die y x a = match s.takeWait die y x c n with
      | none => s
      | some s1 =>
        if decide (dMode n < 4) && (!(inRegion (s.region die y x c) (nestRange n ((List.range 4).map (s.boundOf die y x n))).1
            (nestRange n ((List.range 4).map (s.boundOf die y x n))).2) ||
          (decide (dMode n ≠ 3) && (s.hosted die y x c).any (nestInExt n ((List.range 4).map (s.boundOf die y x n))))) then
          s.mtBound die y x c a 1
        else (s1.setAg die y x c a { s.ag die y x c a with
          running := true, bounds := (List.range 4).map (s.boundOf die y x n), index := [0, 0, 0, 0] }).fired die c := by
    rw [State.issueDesc, h.act]
    simp only [← hn, hrun, hfin, Bool.or_false, Bool.false_eq_true, if_false, hread, hin, hbig, hempty, hscatter, Bool.not_false,
      Bool.true_and, show ¬ dMode n = 0 by omega] <;> rfl
  exact ⟨fun hw => by rw [hrest, hw], fun s1 hw => by rw [hrest, hw]⟩

omit h in
theorem State.takeWait_keeps {s1 : State} (hw : s.takeWait die y x c n = some s1) : s1.arr.sram = s.arr.sram ∧ s1.mas = s.mas := by
  rw [State.takeWait] at hw
  split at hw
  · cases hw; exact ⟨rfl, rfl⟩
  split at hw
  · dsimp only at hw
    split at hw
    · cases hw
    · cases hw
      rw [State.wr_regs_only]
      exact ⟨rfl, rfl⟩
  split at hw
  · cases hw
  split at hw
  · cases hw; exact ⟨rfl, rfl⟩
  · cases hw
omit h in
/-- R111: a met condition on an event count takes one event. -/
theorem State.takeWait_event (hsite : MtSite y x c) {s1 : State} (hw : s.takeWait die y x c n = some s1) (h1 : 1 ≤ dWait n) (h4 : dWait n ≤ 4) :
    s1.rd (evFld (dWait n - 1)) c (.tile die y x) = s.rd (evFld (dWait n - 1)) c (.tile die y x) - 1 := by
  rw [State.takeWait] at hw
  simp only [if_neg (show ¬ dWait n = 0 by omega), if_pos h4] at hw
  split at hw
  · cases hw
  · cases hw
    have hlt := s.rd_evFld_lt (dWait n - 1) c (.tile die y x)
    exact State.rd_wr_fits (f := evFld (dWait n - 1)) (show _ < 2 ^ 8 by omega)

theorem completes_issueDesc (hn : n = s.descOf die y x c a (s.ag die y x c a).desc) (hrun : (s.ag die y x c a).running = false)
    (hfin : (s.ag die y x c a).finished = false) (hmode : 1 ≤ dMode n)
    (hwords : ∀ w ∈ boundWords n, inRegion (s.region die y x c) w (w + 3) = true ∧ s.prefetching die y x w 4 = false)
    (hbounds : ∀ d < 4, 0 < s.boundOf die y x n d ∧ s.boundOf die y x n d < 2 ^ 24) :
    let bounds := (List.range 4).map (s.boundOf die y x n)
    let fits := inRegion (s.region die y x c) (nestRange n bounds).1 (nestRange n bounds).2
    (s.takeWait die y x c n = none → Completes (.agDescriptorIssue die y x a) s (fun t => t = s)) ∧
    ((s.takeWait die y x c n).isSome = true →
      4 ≤ dMode n ∨ fits = true ∧ (dMode n = 3 ∨ ∀ e ∈ s.hosted die y x c, nestInExt n bounds e = false) →
      Completes (.agDescriptorIssue die y x a) s (fun t => (t.ag die y x c a).running = true ∧ (t.ag die y x c a).index = [0, 0, 0, 0] ∧
        (t.ag die y x c a).bounds = bounds ∧ t.arr.sram = s.arr.sram ∧ t.mas = s.mas ∧
        (1 ≤ dWait n → dWait n ≤ 4 →
          t.rd (evFld (dWait n - 1)) c (.tile die y x) = s.rd (evFld (dWait n - 1)) c (.tile die y x) - 1))) ∧
    ((s.takeWait die y x c n).isSome = true → dMode n ≤ 3 → fits = false →
      Completes (.agDescriptorIssue die y x a) s (fun t => t.slotState die c = 4 ∧ t.active die = none ∧
        t.rd F.MT_STATUS_ERR_KIND 0 (.tile die y x) = 1 ∧ t.rd F.MT_STATUS_ERR_AG 0 (.tile die y x) = a ∧
        t.arr.messages = s.arr.messages ++ [(die, c, 2)] ∧ t.arr.sram = s.arr.sram)) := by
  intro bounds fits
  obtain ⟨hnone, hsome⟩ := issueDesc_of_bounds h hn hrun hfin hmode hwords hbounds
  refine ⟨fun hw => ⟨_, h.onAg _, hnone hw⟩, fun hw hok => ⟨_, h.onAg _, ?_⟩, fun hw hm hout => ⟨_, h.onAg _, ?_⟩⟩
  · obtain ⟨s1, hs1⟩ := Option.isSome_iff_exists.mp hw
    obtain ⟨hsram, hmas⟩ := State.takeWait_keeps hs1
    rw [hsome s1 hs1, if_neg]
    · obtain ⟨hsramF, hags, -, hmasF⟩ := State.arr_fired (die := die) (c := c) (s1.setAg die y x c a { s.ag die y x c a with
        running := true, bounds := bounds, index := [0, 0, 0, 0] })
      rw [State.ag_congr hags, State.ag_setAg]
      refine ⟨rfl, rfl, rfl, hsramF.trans hsram, hmasF.trans hmas, fun h1 h4 => ?_⟩
      have hev : dWait n - 1 < 4 := by omega
      rw [State.rd_fired_tile h.site.ctx _ (evFld_in h.site hev)]
      exact (State.rd_setAg ..).trans (State.takeWait_event h.site hs1 h1 h4)
    · rcases hok with hm | ⟨hin, hext⟩
      · rw [decide_eq_false (show ¬ dMode n < 4 by omega)]
        exact Bool.false_ne_true
      · rw [show inRegion _ _ _ = true from hin]
        rcases hext with hm | hext
        · rw [decide_eq_false (show ¬ dMode n ≠ 3 from fun hne => hne hm), Bool.false_and, Bool.not_true, Bool.or_false, Bool.and_false]
          exact Bool.false_ne_true
        · rw [List.any_eq_false.mpr fun e he => by rw [hext e he]; exact Bool.false_ne_true, Bool.and_false, Bool.not_true, Bool.or_false,
            Bool.and_false]
          exact Bool.false_ne_true
  · obtain ⟨s1, hs1⟩ := Option.isSome_iff_exists.mp hw
    rw [hsome s1 hs1, if_pos]
    · exact State.mtBound_stops h.site h.act h.gen (by decide)
    · rw [show inRegion _ _ _ = false from hout, decide_eq_true (show dMode n < 4 by omega)]
      rfl

/-- R113: READ. -/
theorem completes_agRead (hrun : (s.ag die y x c a).running = true) (hn : n = s.descOf die y x c a (s.ag die y x c a).desc) (hm : dMode n = 1)
    (hroom : 0 < s.roomAt die (qidOf y x (dNet n) (4 + dPort n)) c) (hext : qToExt (s.queue die (qidOf y x (dNet n) (4 + dPort n)) c) = false)
    (hpre : s.prefetching die y x (nestAddr n (s.ag die y x c a).index) (dWidth n) = false) :
    Completes (.agRead die y x a) s (fun t =>
      (t.queue die (qidOf y x (dNet n) (4 + dPort n)) c).toks = (s.queue die (qidOf y x (dNet n) (4 + dPort n)) c).toks ++
        [BitVec.ofNat 1024 (s.sramRead die y x (nestAddr n (s.ag die y x c a).index) (dWidth n))] ∧
      t.ag die y x c a = (s.nestStep die y x c a).ag die y x c a ∧ t.arr.sram = s.arr.sram) := by
  refine ⟨_, h.onAg _, ?_⟩
  rw [State.agRead, h.runningDesc hrun (hn ▸ hm), ← hn]
  dsimp only
  rw [if_neg hroom.ne', if_neg (by rw [hpre]; exact Bool.false_ne_true)]
  generalize BitVec.ofNat 1024 (s.sramRead die y x (nestAddr n (s.ag die y x c a).index) (dWidth n)) = v
  generalize qidOf y x (dNet n) (4 + dPort n) = q at *
  obtain ⟨hsram, -, hag, hq⟩ := State.stepped (die := die) (y := y) (x := x) (c := c) (a := a) (s.pushTok die q c v)
  obtain ⟨hpsram, hpags⟩ := State.sram_ags_pushTok (die := die) (c := c) (q := q) s v
  refine ⟨?_, hag.trans (State.ag_nestStep_congr hpags), hsram.trans hpsram⟩
  rw [hq, State.queue_pushTok]
  exact (qPush_partition hext (qRoom_pos hroom) v).1
/-- R113: WRITE. -/
theorem completes_agWrite (hrun : (s.ag die y x c a).running = true) (hn : n = s.descOf die y x c a (s.ag die y x c a).desc) (hm : dMode n = 2)
    {tok : Tok} (hq : s.portQueue die y x c (dNet n) (dPort n) = some q) (htok : s.headTok die q c = some tok) :
    Completes (.agWrite die y x a) s (fun t =>
      t.sramRead die y x (nestAddr n (s.ag die y x c a).index) (dWidth n) = tok.toNat % 256 ^ dWidth n ∧
      (∀ k, k < nestAddr n (s.ag die y x c a).index ∨ nestAddr n (s.ag die y x c a).index + dWidth n ≤ k →
        t.sramByte die y x k = s.sramByte die y x k) ∧
      (t.queue die q c).toks = (s.queue die q c).toks.tail) := by
  refine ⟨_, h.onAg _, ?_⟩
  rw [State.agWrite, h.runningDesc hrun (hn ▸ hm), ← hn]
  simp only [hq, htok]
  generalize nestAddr n (s.ag die y x c a).index = off
  obtain ⟨hsram, -, -, hqueue⟩ := State.stepped (die := die) (y := y) (x := x) (c := c) (a := a)
    ((s.popTok die q c).sramWrite die y x off tok.toNat (dWidth n))
  refine ⟨?_, fun k hk => ?_, ?_⟩
  · rw [State.sramRead_congr hsram, State.sramRead_sramWrite_self]
  · rw [State.sramByte_congr hsram, State.sramByte_sramWrite_outside _ _ _ _ _ hk]
    exact State.sramByte_congr rfl k
  · rw [hqueue, State.queue_sramWrite, State.toks_popTok]
/-- R113: FILL. -/
theorem completes_agFill (hrun : (s.ag die y x c a).running = true) (hn : n = s.descOf die y x c a (s.ag die y x c a).desc) (hm : dMode n = 3) :
    Completes (.agFill die y x a) s (fun t =>
      t.sramRead die y x (nestAddr n (s.ag die y x c a).index) (dWidth n) = (splat 32 (dWord n 40)).toNat % 256 ^ dWidth n ∧
      (∀ k, k < nestAddr n (s.ag die y x c a).index ∨ nestAddr n (s.ag die y x c a).index + dWidth n ≤ k →
        t.sramByte die y x k = s.sramByte die y x k) ∧
      t.arr.queues = s.arr.queues) := by
  refine ⟨_, h.onAg _, ?_⟩
  rw [State.agFill, h.runningDesc hrun (hn ▸ hm), ← hn]
  dsimp only
  generalize nestAddr n (s.ag die y x c a).index = off
  generalize (splat 32 (dWord n 40)).toNat = v
  obtain ⟨hsram, hqueues, -, -⟩ := State.stepped (die := die) (y := y) (x := x) (c := c) (a := a) (s.sramWrite die y x off v (dWidth n))
  refine ⟨?_, fun k hk => ?_, ?_⟩
  · rw [State.sramRead_congr hsram, State.sramRead_sramWrite_self]
  · rw [State.sramByte_congr hsram, State.sramByte_sramWrite_outside _ _ _ _ _ hk]
  · rw [hqueues, State.sramWrite_sram_only]
/-- R111: a finished descriptor posts its event, or waits. -/
theorem completes_descriptor (hfin : (s.ag die y x c a).finished = true) (hn : n = s.descOf die y x c a (s.ag die y x c a).desc) :
    let next := { AgState.idle with desc := if dLast n || decide ((s.ag die y x c a).desc = 3) then 0 else (s.ag die y x c a).desc + 1 }
    (dSignal n = false → Completes (.descriptorComplete die y x a) s (fun t => t.ag die y x c a = next ∧ t.regs = s.regs)) ∧
    (dSignal n = true → s.rd (evFld a) c (.tile die y x) = 255 → Completes (.descriptorComplete die y x a) s (fun t =>
      (t.ag die y x c a).finished = true ∧ t.regs = s.regs)) ∧
    (dSignal n = true → s.rd (evFld a) c (.tile die y x) < 255 → Completes (.descriptorComplete die y x a) s (fun t =>
      t.rd (evFld a) c (.tile die y x) = s.rd (evFld a) c (.tile die y x) + 1 ∧ t.ag die y x c a = next)) := by
  intro next
  have hexec : execDescriptorComplete die y x a s = .next (s.postDesc die y x c a) := by
    rw [execDescriptorComplete, h.onAg, h.act]
    exact congrArg Host.Outcome.next (if_pos hfin)
  refine ⟨fun hsig => ⟨_, hexec, ?_⟩, fun hsig hfull => ⟨_, hexec, ?_⟩, fun hsig hroom => ⟨_, hexec, ?_⟩⟩
  · simp only [State.postDesc, ← hn, hsig, Bool.false_and, Bool.false_eq_true, if_false]
    rw [State.ag_setAg]
    exact ⟨rfl, rfl⟩
  · simp only [State.postDesc, ← hn, hsig, hfull, decide_true, Bool.and_true, if_true]
    rw [State.ag_setAg]
    exact ⟨rfl, rfl⟩
  · simp only [State.postDesc, ← hn, hsig, decide_eq_false hroom.ne, Bool.and_false, Bool.false_eq_true, if_false, if_true]
    rw [State.ag_setAg]
    refine ⟨(State.rd_setAg ..).trans ?_, rfl⟩
    exact State.rd_wr_fits (f := evFld a) (show _ < 2 ^ 8 by omega)

omit h in
/-- R116: what counting a row with its flags leaves. -/
theorem State.rows_counted (hsite : MtSite y x c) (s : State) (g : Num.Flags) (ok : Bool) :
    (((s.mtFlags die y x c g).bump F.MT_SA_COUNT_ROWS 1 c (.tile die y x)).residue die y x c 0x0C ok).arr = s.arr ∧
    (((s.mtFlags die y x c g).bump F.MT_SA_COUNT_ROWS 1 c (.tile die y x)).residue die y x c 0x0C ok).rd F.MT_SA_COUNT_ROWS c (.tile die y x) =
      (s.rd F.MT_SA_COUNT_ROWS c (.tile die y x) + 1) % 2 ^ F.MT_SA_COUNT_ROWS.w := by
  have hflags : (s.mtFlags die y x c g).arr = s.arr ∧
      (s.mtFlags die y x c g).rd F.MT_SA_COUNT_ROWS c (.tile die y x) = s.rd F.MT_SA_COUNT_ROWS c (.tile die y x) := by
    rw [State.mtFlags]
    dsimp only
    split
    · exact ⟨rfl, rfl⟩
    · exact ⟨State.arr_wr .., State.rd_wr_other (f := { F.MT_NUM_FLAGS_NV with w := 7 }) (hsite.has hsite.ctx) (hsite.has hsite.ctx)
        (.inl (by decide))⟩
  obtain ⟨harr, hrd⟩ := hflags
  refine ⟨?_, ?_⟩
  · have hb : ((s.mtFlags die y x c g).bump F.MT_SA_COUNT_ROWS 1 c (.tile die y x)).arr = s.arr := (State.arr_wr ..).trans harr
    rw [State.residue]
    split
    · exact hb
    · exact hb
  · rw [State.rd_residue, State.bump, State.rd_wr_self, hrd]
/-- R116 to R118: a tagged row. -/
theorem completes_scatter (hrun : (s.ag die y x c a).running = true) (hn : n = s.descOf die y x c a (s.ag die y x c a).desc) {plane : Bool}
    {q tq : Nat} {row t0 t1 : Tok} {rest : List Tok} {off : Nat} (hm : dMode n = (if plane then 5 else 4))
    (hq : s.portQueue die y x c 0 (dPort n) = some q) (htq : s.portQueue die y x c 1 (b2n (bitOf (dByte n 52) 5)) = some tq)
    (hrow : s.headTok die q c = some row) (htag : (s.queue die tq c).toks = t0 :: t1 :: rest)
    (hoff : s.scatterTarget die y x c n (lane t0 32 0 + 2 ^ 32 * lane t1 32 0) plane = .inl off)
    (hpre : s.prefetching die y x off 128 = false) :
    Completes (if plane then .scatterPlane die y x a else .scatterAcc die y x a) s (fun t =>
      (∀ j < 32, t.sramRead die y x (off + 4 * j) 4 =
        (scatterLane plane (bitOf (dByte n 52) 4) (Num.widen Num.bf16 (tagWeight (lane t0 32 0 + 2 ^ 32 * lane t1 32 0))).1
          (s.sramRead die y x (off + 4 * j) 4) (lane row 32 j)).1 % 2 ^ 32) ∧
      (∀ k, k < off ∨ off + 128 ≤ k → t.sramByte die y x k = s.sramByte die y x k) ∧
      t.rd F.MT_SA_COUNT_ROWS c (.tile die y x) = (s.rd F.MT_SA_COUNT_ROWS c (.tile die y x) + 1) % 2 ^ F.MT_SA_COUNT_ROWS.w ∧
      (t.queue die tq c).toks = rest) := by
  have hexec : exec (if plane then .scatterPlane die y x a else .scatterAcc die y x a) s = .next (s.scatter die y x a plane) := by
    cases plane
    · exact h.onAg _
    · exact h.onAg _
  refine ⟨_, hexec, ?_⟩
  rw [State.scatter, h.runningDesc hrun (hn ▸ hm), ← hn]
  simp only [hq, htq, hrow, htag, hoff, hpre, Bool.false_eq_true, if_false]
  generalize hval : (List.range 32).map (fun i => scatterLane plane (bitOf (dByte n 52) 4)
    (Num.widen Num.bf16 (tagWeight (lane t0 32 0 + 2 ^ 32 * lane t1 32 0))).1 (s.sramRead die y x (off + 4 * i) 4) (lane row 32 i)) = rs
  generalize (List.range 32).all _ = ok
  generalize List.foldl _ (0 : Num.Flags) rs = g
  have hne : q ≠ tq := State.portQueue_ne h.site.row h.site.col (by decide) (by decide) (by decide) hq htq
  generalize hpop : ((s.popTok die q c).popTok die tq c).popTok die tq c = s1
  have hpopToks : (s1.queue die tq c).toks = rest := by
    rw [← hpop, State.toks_popTok, State.toks_popTok, State.queue_popTok_of_ne _ hne.symm, htag]
    rfl
  have hpopSram : s1.arr.sram = s.arr.sram := by rw [← hpop]; rfl
  have hpopRegs : s1.regs = s.regs := by rw [← hpop]; rfl
  obtain ⟨harr, hrows⟩ := State.rows_counted (die := die) h.site (s1.sramWrite die y x off (packNat 32 (rs.map (·.1))) 128) g ok
  generalize hs3 : State.residue _ die y x c 0x0C ok = s3 at harr hrows ⊢
  obtain ⟨hsram, hqueues, -, -⟩ := State.stepped (die := die) (y := y) (x := x) (c := c) (a := a) s3
  rw [harr] at hsram hqueues
  refine ⟨fun j hj => ?_, fun k hk => ?_, ?_, ?_⟩
  · rw [State.sramRead_congr hsram, State.sramRead_sramWrite _ _ _ _ _ (by omega), show 256 ^ (4 * j) = 2 ^ (32 * j) by
      rw [Nat.pow_mul, Nat.pow_mul], show 256 ^ 4 = 2 ^ 32 from rfl, packNat_lane, ← hval]
    simp [List.getD, hj]
  · rw [State.sramByte_congr hsram, State.sramByte_sramWrite_outside _ _ _ _ _ hk, State.sramByte_congr hpopSram]
  · rw [State.rd_stepped h.site.ctx _ (h.site.has h.site.ctx), hrows, State.rd_congr (State.regs_sramWrite ..), State.rd_congr hpopRegs]
  · rw [State.queue, hqueues]
    exact (congrArg Queue.toks (State.queue_sramWrite ..)).trans hpopToks

end
end

/-- Settles O43: the address generators' steps, one after another. -/
theorem memoryTilesRunTheirDescriptors : Obligations.MemoryTilesRunTheirDescriptors := by
  intro s die y x a c n hdie hy hx hmt ha hact hn
  have h : s.AtAg die y x c a := ⟨hdie, ⟨hy, hx.trans_le s.cols_le, hmt, State.active_lt hact⟩, hx, ha, hact⟩
  refine ⟨fun hrun hfin h1 _ hwords hbounds => completes_issueDesc h hn hrun hfin h1 hwords hbounds, fun hrun => ⟨?_, ?_, ?_, ?_⟩,
    fun hfin => completes_descriptor h hfin hn⟩
  · exact fun hm hroom hext hpre => completes_agRead h hrun hn hm hroom hext hpre
  · exact fun q tok hm hq htok => completes_agWrite h hrun hn hm hq htok
  · exact fun hm => completes_agFill h hrun hn hm
  · exact fun plane q tq row t0 t1 rest off hm hq htq hrow htag hoff hpre => completes_scatter h hrun hn hm hq htq hrow htag hoff hpre

end Sys2Proof.Machine
end

section
/-!
PROOF. Watchdog freezes, freeze messages and scans (R97 to R107).
-/
namespace Sys2Proof.Machine

set_option Elab.async false

section
variable {s t u : State} {die c : Nat}

/-! ## What a freeze records (R99) -/

/-- The stall set's entry `i`. -/
def State.stallEntry (s : State) (die : Nat) (qids : List Nat) (i : Nat) : State :=
  match qids[i]? with
  | some q => (s.wr F.STALL_SET_QID q i (.die die)).wr F.STALL_SET_VALID 1 i (.die die)
  | none => (s.wr F.STALL_SET_QID 0 i (.die die)).wr F.STALL_SET_VALID 0 i (.die die)
theorem State.rd_stallEntry_other {qids : List Nat} {i k : Nat} {f : Fld} (hi : i < 16) (hf : f.In k (.die die)) (hk : k ≠ i) :
    (s.stallEntry die qids i).rd f k (.die die) = s.rd f k (.die die) := by
  have hin : ∀ g : Fld, g.reg = .STALL_SET → g.wordCount = 1 ∧ g.firstWord = 0 → g.In i (.die die) := fun g hg hw =>
    Fld.in_die (by rw [hg]; exact hi) (by rw [hg]; rfl) (by rw [hw.1, hw.2, hg]; decide)
  have hq := hin F.STALL_SET_QID rfl (by decide)
  have hv := hin F.STALL_SET_VALID rfl (by decide)
  rw [State.stallEntry]
  split
  · rw [State.rd_wr_other hv hf (.inr (.inl hk)), State.rd_wr_other hq hf (.inr (.inl hk))]
  · rw [State.rd_wr_other hv hf (.inr (.inl hk)), State.rd_wr_other hq hf (.inr (.inl hk))]
theorem State.rd_stallEntry {qids : List Nat} {i : Nat} :
    (∀ q, qids[i]? = some q → (s.stallEntry die qids i).rd F.STALL_SET_VALID i (.die die) = 1 ∧
      (s.stallEntry die qids i).rd F.STALL_SET_QID i (.die die) = q % 2 ^ F.STALL_SET_QID.w) ∧
    (qids[i]? = none → (s.stallEntry die qids i).rd F.STALL_SET_VALID i (.die die) = 0) := by
  refine ⟨fun q hq => ?_, fun hq => ?_⟩
  · rw [State.stallEntry, hq]
    refine ⟨State.rd_wr_self .., ?_⟩
    dsimp only
    rw [State.rd_wr_beside]
    exact State.rd_wr_self ..
  · rw [State.stallEntry, hq]
    exact State.rd_wr_self ..
theorem State.rd_stallEntries (qids : List Nat) (m : Nat) (hm : m ≤ 16) {k : Nat} (hk : k < m) :
    (∀ q, qids[k]? = some q → ((List.range m).foldl (fun u i => u.stallEntry die qids i) s).rd F.STALL_SET_VALID k (.die die) = 1 ∧
      ((List.range m).foldl (fun u i => u.stallEntry die qids i) s).rd F.STALL_SET_QID k (.die die) = q % 2 ^ F.STALL_SET_QID.w) ∧
    (qids[k]? = none → ((List.range m).foldl (fun u i => u.stallEntry die qids i) s).rd F.STALL_SET_VALID k (.die die) = 0) := by
  induction m with
  | zero => omega
  | succ m ih =>
    rw [List.range_succ, List.foldl_append, List.foldl_cons, List.foldl_nil]
    by_cases hlast : k = m
    · rw [hlast]
      exact State.rd_stallEntry
    · have hm16 : m < 16 := by omega
      have hk16 : k < 16 := by omega
      rw [State.rd_stallEntry_other hm16 (Fld.in_die (f := F.STALL_SET_VALID) hk16) hlast,
        State.rd_stallEntry_other hm16 (Fld.in_die (f := F.STALL_SET_QID) hk16) hlast]
      exact ih (by omega) (by omega)
/-- What the freeze registers hold after a freeze of context `c` for a cause. -/
structure State.recorded (t : State) (die c cause cycle : Nat) (qids : List Nat) : Prop where
  slot : t.rd F.FREEZE_INFO_SLOT 0 (.die die) = c
  cause : t.rd F.FREEZE_INFO_CAUSE 0 (.die die) = cause
  new : t.rd F.FREEZE_INFO_NEW 0 (.die die) = 1
  blocked : t.rd F.FREEZE_INFO_BLOCKED 0 (.die die) = min qids.length 1023
  low : t.rd F.FREEZE_CYCLE_LO_CYCLE 0 (.die die) = cycle % 2 ^ 32
  high : t.rd F.FREEZE_CYCLE_HI_CYCLE 0 (.die die) = cycle / 2 ^ 32 % 2 ^ 32
  stalled : ∀ k < 16, ∀ q, qids[k]? = some q → t.rd F.STALL_SET_VALID k (.die die) = 1 ∧
    t.rd F.STALL_SET_QID k (.die die) = q % 2 ^ F.STALL_SET_QID.w
  others : ∀ k < 16, qids.length ≤ k → t.rd F.STALL_SET_VALID k (.die die) = 0
theorem State.recorded_recordFreeze {cause : Nat} (hc : c < 4) (hcause : cause < 4) (s : State) (qids : List Nat) :
    (s.recordFreeze die c cause qids).recorded die c cause (s.freezeCycle die cause) qids := by
  have hin : ∀ f : Fld, f.reg ∈ [Reg.FREEZE_INFO, .FREEZE_CYCLE_LO, .FREEZE_CYCLE_HI] → f.wordCount = 1 ∧ f.firstWord = 0 →
      f.In 0 (.die die) := by
    intro f hf hw
    simp only [List.mem_cons, List.not_mem_nil, or_false] at hf
    rcases hf with hf | hf | hf
    all_goals exact Fld.in_die (by rw [hf]; decide) (by rw [hf]; rfl) (by rw [hw.1, hw.2, hf]; decide)
  have hrec : s.recordFreeze die c cause qids = (List.range 16).foldl (fun u i => u.stallEntry die qids i)
      (((((((s.wr F.FREEZE_INFO_SLOT c 0 (.die die)).wr F.FREEZE_INFO_CAUSE cause 0 (.die die)).wr F.FREEZE_INFO_NEW 1 0 (.die die)).wr
        F.FREEZE_INFO_BLOCKED (min qids.length 1023) 0 (.die die)).wr F.FREEZE_CYCLE_LO_CYCLE (s.freezeCycle die cause) 0 (.die die)).wr
        F.FREEZE_CYCLE_HI_CYCLE (s.freezeCycle die cause / 2 ^ 32) 0 (.die die))) := rfl
  rw [hrec]
  generalize s.freezeCycle die cause = cycle
  generalize hu : ((((((s.wr F.FREEZE_INFO_SLOT c 0 (.die die)).wr F.FREEZE_INFO_CAUSE cause 0 (.die die)).wr F.FREEZE_INFO_NEW 1 0
    (.die die)).wr F.FREEZE_INFO_BLOCKED (min qids.length 1023) 0 (.die die)).wr F.FREEZE_CYCLE_LO_CYCLE cycle 0 (.die die)).wr
    F.FREEZE_CYCLE_HI_CYCLE (cycle / 2 ^ 32) 0 (.die die)) = u
  have hstall : u.within [.STALL_SET] ((List.range 16).foldl (fun u i => u.stallEntry die qids i) u) :=
    State.within.refl.foldl fun v i hi hv => by
      have hi16 : i < 16 := List.mem_range.mp hi
      rw [State.stallEntry]
      split
      · exact (hv.wr (f := F.STALL_SET_QID) (Fld.in_die hi16)).wr (f := F.STALL_SET_VALID) (Fld.in_die hi16)
      · exact (hv.wr (f := F.STALL_SET_QID) (Fld.in_die hi16)).wr (f := F.STALL_SET_VALID) (Fld.in_die hi16)
  have hinfo : ∀ f : Fld, f.reg = .FREEZE_INFO → f.wordCount = 1 ∧ f.firstWord = 0 →
      ((List.range 16).foldl (fun u i => u.stallEntry die qids i) u).rd f 0 (.die die) =
      ((((s.wr F.FREEZE_INFO_SLOT c 0 (.die die)).wr F.FREEZE_INFO_CAUSE cause 0 (.die die)).wr F.FREEZE_INFO_NEW 1 0 (.die die)).wr
        F.FREEZE_INFO_BLOCKED (min qids.length 1023) 0 (.die die)).rd f 0 (.die die) := by
    intro f hf hw
    have hfin := hin f (by rw [hf]; decide) hw
    rw [hstall.rd hfin (by rw [hf]; decide), ← hu, State.rd_wr_other (hin _ (by decide) (by decide)) hfin (.inl (by rw [hf]; decide)),
      State.rd_wr_other (hin _ (by decide) (by decide)) hfin (.inl (by rw [hf]; decide))]
  have hmin : min qids.length 1023 < 2 ^ 10 := by omega
  refine ⟨?_, ?_, ?_, ?_, ?_, ?_, fun k hk => (State.rd_stallEntries qids 16 (Nat.le_refl _) hk).1, fun k hk hlen =>
    (State.rd_stallEntries qids 16 (Nat.le_refl _) hk).2 (List.getElem?_eq_none hlen)⟩
  · rw [hinfo _ rfl (by decide), State.rd_wr_beside, State.rd_wr_beside, State.rd_wr_beside]
    exact State.rd_wr_fits (f := F.FREEZE_INFO_SLOT) hc
  · rw [hinfo _ rfl (by decide), State.rd_wr_beside, State.rd_wr_beside]
    exact State.rd_wr_fits (f := F.FREEZE_INFO_CAUSE) hcause
  · rw [hinfo _ rfl (by decide), State.rd_wr_beside]
    exact State.rd_wr_self ..
  · rw [hinfo _ rfl (by decide)]
    exact State.rd_wr_fits (f := F.FREEZE_INFO_BLOCKED) hmin
  · rw [hstall.rd (hin _ (by decide) (by decide)), ← hu,
      State.rd_wr_other (hin _ (by decide) (by decide)) (hin _ (by decide) (by decide)) (.inl (by decide))]
    exact State.rd_wr_self ..
  · rw [hstall.rd (hin _ (by decide) (by decide)), ← hu]
    exact State.rd_wr_self ..
theorem State.recorded.congr {cause cycle : Nat} {qids : List Nat} (h : s.recorded die c cause cycle qids) (hregs : t.regs = s.regs) :
    t.recorded die c cause cycle qids := by
  obtain ⟨h1, h2, h3, h4, h5, h6, h7, h8⟩ := h
  have hrd : ∀ f i w, t.rd f i w = s.rd f i w := fun f i w => State.rd_congr hregs ..
  exact ⟨(hrd ..).trans h1, (hrd ..).trans h2, (hrd ..).trans h3, (hrd ..).trans h4, (hrd ..).trans h5, (hrd ..).trans h6,
    fun k hk q hq => ⟨(hrd ..).trans (h7 k hk q hq).1, (hrd ..).trans (h7 k hk q hq).2⟩, fun k hk hq => (hrd ..).trans (h8 k hk hq)⟩
theorem State.freezeCycle_congr (h : t.arr = s.arr) (cause : Nat) : t.freezeCycle die cause = s.freezeCycle die cause := by
  rw [State.freezeCycle, State.freezeCycle, h]
/-- `t` is `s` but for registers. -/
def State.regsOnly (s t : State) : Prop := t = { s with regs := t.regs }
theorem State.regsOnly.wr (h : s.regsOnly t) {f : Fld} {v i : Nat} {w : Win} : s.regsOnly (t.wr f v i w) := by
  have hw := t.wr_regs_only f v i w
  unfold State.regsOnly at *
  generalize t.wr f v i w = u at hw ⊢
  rw [hw, h]
theorem State.regsOnly.refl : s.regsOnly s := rfl
theorem State.regsOnly.stopSlot (h : s.regsOnly t) : s.regsOnly (t.stopSlot die c) := by
  rw [State.stopSlot]
  split
  · exact (State.regsOnly.wr h).wr
  · exact h.wr
theorem State.regsOnly.recordFreeze (h : s.regsOnly t) {cause : Nat} {qids : List Nat} : s.regsOnly (t.recordFreeze die c cause qids) := by
  rw [State.recordFreeze]
  refine List.foldlRecOn (motive := s.regsOnly) _ _ (State.regsOnly.wr (State.regsOnly.wr (State.regsOnly.wr (State.regsOnly.wr
    (State.regsOnly.wr (State.regsOnly.wr h)))))) fun u hu i _ => ?_
  split
  · exact hu.wr.wr
  · exact hu.wr.wr
/-- R99: a freeze of the active context changes registers, and leaves a message. -/
theorem State.freeze_frame (s : State) (cause : Nat) : s.freeze die c cause =
    { s with arr := { s.arr with messages := (s.freeze die c cause).arr.messages }, regs := (s.freeze die c cause).regs } := by
  have h := (State.regsOnly.refl (s := s)).stopSlot (die := die) (c := c) |>.recordFreeze (die := die) (c := c) (cause := cause)
    (qids := if cause = 1 then s.blockedQids die c else [])
  rw [State.freeze]
  unfold State.regsOnly at h
  generalize (s.stopSlot die c).recordFreeze die c cause (if cause = 1 then s.blockedQids die c else []) = u at h ⊢
  rw [h]
theorem completes_watchdogFreeze (hdie : die < 4) (hact : s.active die = some c) :
    (2 ^ s.rd F.WDOG_CFG_LIMIT_LOG2 0 (.die die) ≤ s.rd F.WDOG_COUNT_COUNT c (.die die) →
      Completes (.watchdogFreeze die) s (fun t => t.slotState die c = 4 ∧ t.active die = none ∧
        t.arr.messages = s.arr.messages ++ [(die, c, 1)] ∧
        t.recorded die c 1 (SMap.getD s.arr.wdogAt die 0) (s.blockedQids die c) ∧
        t = { s with arr := { s.arr with messages := t.arr.messages }, regs := t.regs })) ∧
    (s.rd F.WDOG_COUNT_COUNT c (.die die) < 2 ^ s.rd F.WDOG_CFG_LIMIT_LOG2 0 (.die die) →
      Completes (.watchdogFreeze die) s (fun t => t = s)) := by
  have hexec : execWatchdogFreeze die s = .next (if s.rd F.WDOG_COUNT_COUNT c (.die die) < 2 ^ s.rd F.WDOG_CFG_LIMIT_LOG2 0 (.die die) then s
      else s.freeze die c 1) := by
    rw [execWatchdogFreeze, onDie, if_pos hdie, hact]
  have hc := State.active_lt hact
  refine ⟨fun hlim => ⟨_, hexec, ?_⟩, fun hlim => ⟨_, hexec, if_pos hlim⟩⟩
  rw [if_neg (Nat.not_lt.mpr hlim)]
  obtain ⟨hslot, hnone, hmsg, -⟩ := State.freeze_active hc hact 1
  refine ⟨hslot, hnone, hmsg, ?_, State.freeze_frame s 1⟩
  have hrec := State.recorded_recordFreeze (die := die) (cause := 1) hc (by decide) (s.stopSlot die c) (s.blockedQids die c)
  have hcycle : (s.stopSlot die c).freezeCycle die 1 = SMap.getD s.arr.wdogAt die 0 :=
    State.freezeCycle_congr (by rw [(State.regsOnly.refl (s := s)).stopSlot (die := die) (c := c)]) 1
  rw [hcycle] at hrec
  refine hrec.congr ?_
  rw [State.freeze]
  exact rfl

/-! ## A slot's reset (R102) -/

/-- No queue, tile or boundary of the slot holds a token. -/
structure State.emptied (s : State) (die c : Nat) : Prop where
  queues : ∀ e ∈ s.arr.queues, ofSlot die c e.1 = true → e.2.toks = [] ∧ e.2.ext = []
  tiles : ∀ e ∈ s.arr.tiles, tileOfSlot die c e.1 = true → e.2.mi = [] ∧ e.2.comb = []
  drain : ∀ e ∈ s.arr.drain, ofSlot die c e.1 = false
theorem foldl_add_zero {α : Type} {p : α → Bool} {f : α → Nat} {l : List α} (h : ∀ e ∈ l, p e = true → f e = 0) (n : Nat) :
    l.foldl (fun n e => if p e then n + f e else n) n = n := by
  induction l with
  | nil => rfl
  | cons e l ih =>
    rw [List.foldl_cons]
    have hone : (if p e then n + f e else n) = n := by
      split
      next hp => rw [h e List.mem_cons_self hp, Nat.add_zero]
      · rfl
    rw [hone]
    exact ih fun e he => h e (List.mem_cons_of_mem _ he)
theorem State.emptied.tokens (h : s.emptied die c) : s.slotTokens die c = 0 := by
  have hq := foldl_add_zero (p := fun e : Nat × Queue => ofSlot die c e.1) (f := fun e => e.2.toks.length + e.2.ext.length)
    (fun e he hp => by rw [(h.queues e he hp).1, (h.queues e he hp).2]; rfl) 0
  have ht := foldl_add_zero (p := fun e : Nat × TileCtx => tileOfSlot die c e.1) (f := fun e => e.2.mi.length + e.2.comb.length)
    (fun e he hp => by rw [(h.tiles e he hp).1, (h.tiles e he hp).2]; rfl) 0
  have hd := foldl_add_zero (p := fun e : Nat × List Tok => ofSlot die c e.1) (f := fun e => e.2.length)
    (fun e he hp => absurd hp (by rw [h.drain e he]; exact Bool.false_ne_true)) 0
  rw [State.slotTokens]
  simp only [Nat.add_assoc]
  rw [hq, ht, Nat.zero_add, Nat.zero_add]
  exact hd
theorem State.emptied.congr (h : s.emptied die c) (hq : t.arr.queues = s.arr.queues) (ht : t.arr.tiles = s.arr.tiles)
    (hd : t.arr.drain = s.arr.drain) : t.emptied die c := ⟨hq ▸ h.queues, ht ▸ h.tiles, hd ▸ h.drain⟩
theorem State.emptied_dropTokens (s : State) : (s.dropTokens die c).emptied die c := by
  refine ⟨fun e he hs => ?_, fun e he hs => ?_, fun e he => ?_⟩
  · obtain ⟨e0, -, rfl⟩ := List.mem_map.mp he
    dsimp only at hs ⊢
    rw [if_pos hs]
    exact ⟨rfl, rfl⟩
  · obtain ⟨e0, -, rfl⟩ := List.mem_map.mp he
    dsimp only at hs ⊢
    rw [if_pos hs]
    exact ⟨rfl, rfl⟩
  · simpa using (List.mem_filter.mp he).2
theorem State.emptied.clearUnits (h : s.emptied die c) : (s.clearUnits die c).emptied die c :=
  ⟨h.queues, fun e he => h.tiles e (List.mem_filter.mp he).1, h.drain⟩
theorem mem_erase_of {α : Type} {m : SMap α} {k : Nat} {e : Nat × α} (h : e ∈ SMap.erase m k) : e ∈ m := by
  induction m with
  | nil => exact h
  | cons e0 m ih =>
    rw [SMap.erase] at h
    split at h
    · exact List.mem_cons_of_mem _ (ih h)
    · rcases List.mem_cons.mp h with rfl | h
      · exact List.mem_cons_self
      · exact List.mem_cons_of_mem _ (ih h)
theorem mem_insert_of {α : Type} {m : SMap α} {k : Nat} {a : α} {e : Nat × α} (h : e ∈ SMap.insert m k a) : e = (k, a) ∨ e ∈ m := by
  induction m with
  | nil => exact .inl (List.mem_singleton.mp h)
  | cons e0 m ih =>
    rw [SMap.insert] at h
    split at h
    · rcases List.mem_cons.mp h with rfl | h
      · exact .inl rfl
      · exact .inr (List.mem_cons_of_mem _ h)
    split at h
    · rcases List.mem_cons.mp h with rfl | h
      · exact .inl rfl
      · exact .inr h
    · rcases List.mem_cons.mp h with rfl | h
      · exact .inr List.mem_cons_self
      · exact (ih h).imp_right (List.mem_cons_of_mem _)
theorem mem_setD_of {α : Type} [DecidableEq α] {m : SMap α} {k : Nat} {a d : α} {e : Nat × α} (h : e ∈ SMap.setD m k a d) :
    e = (k, a) ∨ e ∈ m := by
  rw [SMap.setD] at h
  split at h
  · exact .inr (mem_erase_of h)
  · exact mem_insert_of h

/-- What a slot's reset leaves of the rest: the module's own registers, and the messages to firmware. -/
structure State.resets (s t : State) (die c : Nat) : Prop where
  empties : s.emptied die c → t.emptied die c
  above : s.above 0x1000000 t
  messages : t.arr.messages = s.arr.messages
  scans : t.arr.scans = s.arr.scans
theorem State.resets.refl : s.resets s die c := ⟨id, .refl, rfl, rfl⟩
theorem State.resets.trans (h : s.resets t die c) (k : t.resets u die c) : s.resets u die c :=
  ⟨k.empties ∘ h.empties, h.above.trans k.above, k.messages.trans h.messages, k.scans.trans h.scans⟩
theorem State.resets.wr (h : s.resets t die c) {f : Fld} {v i : Nat} {w : Win} (hb : 0x1000000 ≤ winBase w) : s.resets (t.wr f v i w) die c :=
  h.trans ⟨fun hd => hd.congr (congrArg Arr.queues (State.arr_wr ..)) (congrArg Arr.tiles (State.arr_wr ..)) (congrArg Arr.drain (State.arr_wr ..)),
    State.above.refl.wr (Nat.le_trans hb (Nat.le_add_right ..)), congrArg Arr.messages (State.arr_wr ..), congrArg Arr.scans (State.arr_wr ..)⟩
theorem le_winBase_die (die : Nat) : 0x1000000 ≤ winBase (.die die) := by rw [winBase]; omega
theorem le_winBase_tile (die y x : Nat) : 0x1000000 ≤ winBase (.tile die y x) := by rw [winBase]; omega
theorem State.regs_clearTileRegs (s : State) (p : Nat → Bool) :
    (s.clearTileRegs die p).regs = SMap.keep s.regs (fun a _ => (tileOffset die a).all (fun o => !(p o))) := by
  rw [State.clearTileRegs]
  dsimp only
  refine congrArg (SMap.keep s.regs) (funext fun a => funext fun _ => ?_)
  generalize tileOffset die a = o
  cases o
  · rfl
  · rfl
theorem State.resets.clearTileRegs (h : s.resets t die c) {p : Nat → Bool} : s.resets (t.clearTileRegs die p) die c := by
  refine h.trans ⟨fun hd => hd.congr rfl rfl rfl, fun r i w k ha => ?_, rfl, rfl⟩
  have hnone : tileOffset die (r.addr i w k) = none := if_neg (by omega)
  rw [State.word, State.word, SMap.getD, SMap.getD, State.regs_clearTileRegs, SMap.find?_keep _ _ (fun a => (tileOffset die a).all (fun o => !(p o))) (fun _ _ => rfl), hnone]
  rfl
theorem State.resets.loadParams (h : s.resets t die c) {img : TileImage} : s.resets (t.loadParams die c img) die c := by
  have hset : ∀ (v : State) (ps : List Word), s.resets v die c →
      s.resets (v.setTile die img.y img.x c { TileCtx.empty with vparams := ps }) die c := fun v ps hv => hv.trans
    ⟨fun hd => ⟨hd.queues, fun e he => by
        rcases mem_setD_of he with rfl | he
        · exact fun _ => ⟨rfl, rfl⟩
        · exact hd.tiles e he, hd.drain⟩, State.above.refl.of_regs rfl, rfl, rfl⟩
  rw [State.loadParams]
  refine hset _ _ ?_
  rw [State.setActiveParams]
  refine List.foldlRecOn (motive := fun v => s.resets v die c) _ _ ?_ fun v hv _ _ => hv.wr (le_winBase_tile ..)
  exact List.foldlRecOn (motive := fun v => s.resets v die c) _ _ h fun v hv _ _ => hv.wr (le_winBase_tile ..)
theorem State.resets.dropInv (h : s.resets t die c) : s.resets (t.dropInv die c) die c := by
  delta State.dropInv
  extract_lets src arr
  have hbusy : s.resets (({ t with arr := arr } : State).selBusy die c false) die c := by
    refine State.resets.wr (h.trans ?_) (le_winBase_die die)
    exact ⟨fun hd => hd.congr rfl rfl rfl, State.above.refl.of_regs rfl, rfl, rfl⟩
  rw [State.postStatus]
  split
  · exact hbusy.wr (le_winBase_die die)
  · exact (hbusy.wr (le_winBase_die die)).wr (le_winBase_die die)
theorem State.resets_resetOnly (s : State) : (s.dropTokens die c).resets (s.resetOnly die c) die c := by
  have h1 : (s.dropTokens die c).resets ((((s.dropTokens die c).clearUnits die c).clearTileRegs die (resetOffset c)).dropInv die c) die c := by
    refine State.resets.dropInv (State.resets.clearTileRegs ?_)
    exact ⟨fun hd => hd.clearUnits, State.above.refl.of_regs rfl, rfl, rfl⟩
  delta State.resetOnly
  extract_lets s1 s2
  have h2 : (s.dropTokens die c).resets s2 die c := by
    unfold s2
    split
    · exact List.foldlRecOn (motive := fun v => (s.dropTokens die c).resets v die c) _ _ h1 fun v hv _ _ => hv.loadParams
    · exact h1
  exact (((h2.wr (le_winBase_die die)).wr (le_winBase_die die)).wr (le_winBase_die die)).wr (le_winBase_die die) |>.wr (le_winBase_die die)
/-- R102: a slot that is reset is READY and holds no token; the module's registers and the messages stand. -/
structure State.slotReset (s t : State) (die c : Nat) : Prop where
  ready : t.slotState die c = 2
  tokens : t.slotTokens die c = 0
  above : s.above 0x1000000 t
  messages : t.arr.messages = s.arr.messages
  scans : t.arr.scans = s.arr.scans
theorem State.slotState_setSlotState (s : State) (st : SlotSt) : (s.setSlotState die c st).slotState die c = slotCode st :=
  State.rd_wr_fits (f := F.CTX_SLOT_STATE) (by cases st <;> decide)
theorem State.slotReset_resetOnly (s : State) : s.slotReset (s.resetOnly die c) die c := by
  have h := State.resets_resetOnly (die := die) (c := c) s
  refine ⟨?_, (h.empties (State.emptied_dropTokens s)).tokens, h.above, h.messages, h.scans⟩
  rw [State.resetOnly]
  exact State.slotState_setSlotState _ .ready
theorem State.slotReset_haltSlot (hc : c < 4) (h : s.slotState die c = 4) : s.slotReset (s.haltSlot die c) die c := by
  have hstop : (s.stopSlot die c).slotState die c = 4 := by
    have hset : (s.setSlotState die c .frozen).slotState die c = 4 := State.slotState_setSlotState _ .frozen
    rw [State.stopSlot]
    split
    · rw [State.slotState, State.rd_wr_other (f := F.DIE_ACTIVE_NONE) (Fld.in_die (by decide)) (Fld.in_die hc) (.inl (by decide))]
      exact hset
    · exact hset
  have habove : s.above 0x1000000 (s.stopSlot die c) := by
    rw [State.stopSlot]
    have hb := fun n => Nat.le_trans (le_winBase_die die) (Nat.le_add_right _ n)
    split
    · exact (State.above.wr State.above.refl (hb _)).wr (hb _)
    · exact State.above.wr State.above.refl (hb _)
  have harr : (s.stopSlot die c).arr = s.arr := by rw [(State.regsOnly.refl (s := s)).stopSlot (die := die) (c := c)]
  delta State.haltSlot
  extract_lets s1
  have h1 : s1.slotState die c = 4 ∧ s.above 0x1000000 s1 ∧ s1.arr = s.arr := by
    unfold s1
    split
    · exact ⟨hstop, habove, harr⟩
    · exact ⟨h, .refl, rfl⟩
  obtain ⟨hslot, hab, ha⟩ := h1
  rw [if_pos (.inr hslot)]
  have hr := State.slotReset_resetOnly (die := die) (c := c) s1
  exact ⟨hr.ready, hr.tokens, hab.trans hr.above, hr.messages.trans (congrArg Arr.messages ha), hr.scans.trans (congrArg Arr.scans ha)⟩

/-! ## Requests that end (R244) -/

theorem State.within_newRecord (s : State) (slot : Nat) (pay : JPay) : s.within [.JOURNAL_JSN] (s.newRecord slot pay) := by
  rw [State.newRecord, State.newRecordFor]
  exact (State.within.refl.wr (f := F.JOURNAL_JSN_VALUE) (Fld.in_glob (by decide))).of_regs rfl
theorem State.within_freePkg (s : State) (h : Nat) : s.within [.JOURNAL_JSN] (s.freePkg h) := by
  have hfree : ∀ l : List Nat, (l.foldl (fun (s : State) pn => (s.markFreeing pn).getD s) s).regs = s.regs := fun l =>
    ((State.only.refl (s := s) (may := [.arr, .mas])).foldl fun _ _ hs => State.onlySome.getD hs.markFreeing hs).regs
  have hdrop : ∀ v : State, v.within [.JOURNAL_JSN] (v.dropPkg h) := fun v => State.within.refl.of_regs rfl
  rw [State.freePkg]
  split
  · exact .refl
  · exact ((State.within.refl.of_regs (hfree _)).trans (State.within_newRecord _ _ _)).trans (hdrop _)
theorem State.within_answerSeq (s : State) (i seq status detail : Nat) (body : List Byte) :
    s.within [.JOURNAL_JSN] (s.answerSeq i seq status detail body) := by
  rw [State.answerSeq]
  split
  · exact .refl
  split
  · exact .refl
  rw [State.answer]
  split
  · exact State.within.refl.of_regs (State.only.refl (may := [.out, .host])).releaseReply.regs
  · exact State.within_newRecord _ _ _
theorem State.within_answerCancels (s : State) (r : Req) : s.within [.JOURNAL_JSN] (s.answerCancels r) :=
  State.within.refl.foldl fun v e _ hv => by
    split
    · exact hv.trans (State.within_answerSeq _ _ _ _ _ _)
    · exact hv.trans (State.within_answerSeq _ _ _ _ _ _)
theorem State.flights_unrefPfx (i : Nat) (n : Nat) : ∀ (s : State) (h : Nat), (s.unrefPfx i h n).stew.flights = s.stew.flights := by
  induction n with
  | zero => exact fun _ _ => rfl
  | succ n ih =>
    intro s h
    rw [State.unrefPfx]
    split
    · rfl
    next v _ =>
      have hfree : (v.pages.foldl (fun (s : State) pn => (s.markFreeing pn).getD s) s).stew.flights = s.stew.flights :=
        congrArg Stew.flights ((State.only.refl (s := s) (may := [.arr, .mas])).foldl fun _ _ hs => State.onlySome.getD hs.markFreeing hs).stew
      dsimp only
      split
      · split
        · exact hfree
        · exact (ih _ _).trans hfree
      · rfl
theorem State.flights_dropKv (s : State) (k : Nat) : (s.dropKv k).stew.flights = s.stew.flights := by
  rw [State.dropKv]
  split
  · rfl
  · dsimp only
    change (List.foldl _ _ _ : State).stew.flights = _
    refine congrArg Stew.flights (List.foldlRecOn (motive := fun v : State => v.stew = s.stew) _ _ rfl fun v hv pn _ => ?_)
    split
    · split
      · exact hv
      · exact (State.onlySome.getD (State.only.refl (s := v) (may := [.arr, .mas])).markFreeing .refl).stew.trans hv
    · exact hv
/-- R244: a request of the module that ends: its record says so, and a final record is on its way; the dies keep their registers. -/
structure State.reqEnded (s t : State) (k : Nat) (f : Final) : Prop where
  req : ∃ r, t.req k = some r ∧ r.st = .ending ∧ r.final = f
  flights : t.stew.flights = s.stew.flights
  regs : s.within [.JOURNAL_JSN] t
theorem State.reqEnded_endReq {k : Nat} {r : Req} {f : Final} (hr : s.req k = some r) (hst : r.st ≠ .ending) (hm : r.member = none) :
    s.reqEnded (s.endReq k f) k f := by
  obtain ⟨r1, hr1, hmem⟩ := Option.map_eq_some_iff.mp (State.member_dropKv hr)
  delta State.endReq
  rw [hr]
  change s.reqEnded (if r.st = .ending then s else _) k f
  rw [if_neg hst]
  extract_lets s0 rKept r' s1 s2 s3 s4 s5 rec'
  have hr'st : r'.st = .ending ∧ r'.final = f := ⟨rfl, rfl⟩
  have hr'm : r'.member = none := by
    have hget : (s0.req k).getD r = r1 := congrArg (fun o : Option Req => o.getD r) hr1
    exact (congrArg Req.member hget).trans (hmem.trans hm)
  have h1 : s.within [.JOURNAL_JSN] s1 ∧ s1.stew.flights = s.stew.flights :=
    ⟨State.within.refl.of_regs (State.only.refl (s := s) (may := [.arr, .mas, .stew])).dropKv.regs, State.flights_dropKv s k⟩
  have h2 : s.within [.JOURNAL_JSN] s2 ∧ s2.stew.flights = s.stew.flights := by
    unfold s2
    split
    · exact ⟨h1.1.of_regs (State.only.refl (s := s1) (may := [.arr, .mas, .stew])).unrefPfx.regs, (State.flights_unrefPfx ..).trans h1.2⟩
    · exact h1
  have h3 : s.within [.JOURNAL_JSN] s3 ∧ s3.stew.flights = s.stew.flights := by
    unfold s3
    split
    · split
      next a _ =>
        have hset : s.within [.JOURNAL_JSN] (s2.setPkg (rqAdapter (rqD r')) { a with bound := a.bound - 1 }) := h2.1.of_regs rfl
        dsimp only
        split
        · exact ⟨hset.trans (State.within_freePkg _ _),
            (congrArg Stew.flights (State.only.refl (may := [.regs, .arr, .mas, .wts, .jr])).freePkg.stew).trans h2.2⟩
        · exact ⟨hset, h2.2⟩
      · exact h2
    · exact h2
  have h4 : s.within [.JOURNAL_JSN] s4 := h3.1.of_regs rfl
  have hstew : (s5.newRecord k (.final rec')).stew = s4.stew := (State.stew_newRecord ..).trans
    (State.only.refl (may := [.out, .regs, .host, .jr])).answerCancels.stew
  rw [hr'm]
  refine ⟨⟨{ r' with holdsPfx := false, holdsAdapter := false }, ?_, hr'st⟩, ?_, ?_⟩
  · rw [State.req, hstew]
    exact SMap.find?_insert_self ..
  · rw [hstew]
    exact h3.2
  · exact (h4.trans (State.within_answerCancels _ _)).trans (State.within_newRecord _ _ _)

/-! ## Freeze messages (R100) -/

theorem ringOf_die (hdie : die < 4) : ringOf die = die := by
  unfold ringOf
  split <;> omega
theorem errCount_words : ∀ i < 320, ∀ a ∈ F.ERR_COUNT_COUNT.words i .glob, a < 0x1000000 := by decide +kernel

/-- The messages without that of a freeze. -/
def State.messageTaken (s : State) (die c cause : Nat) : State :=
  { s with arr := { s.arr with messages := s.arr.messages.erase (die, c, cause) } }
/-- R100: firmware has taken the message of a freeze, and recorded its detection. -/
structure State.noticed (s u : State) (die c cause : Nat) : Prop where
  slot : u.slotState die c = s.slotState die c
  arr : u.arr = { s.arr with messages := s.arr.messages.erase (die, c, cause) }
  wts : u.wts = s.wts
  stew : u.stew = s.stew
  mas : u.mas = s.mas
  watchdog : cause = 1 → s.adds u F.ERR_COUNT_COUNT 1 (64 * die + 0x13)
  bound : cause = 2 → s.adds u F.ERR_COUNT_COUNT 1 (64 * die + 0x14)
theorem State.noticed_detect {cause : Nat} {d : ErrRec} (hc : c < 4) (hd : d.cls < 64) (hdd : d.die = die) (hdie : die < 4)
    (hcls : cause = 1 ∧ d.cls = 0x13 ∨ cause = 2 ∧ d.cls = 0x14) : s.noticed ((s.messageTaken die c cause).detect d) die c cause := by
  have hdet := State.adds_detect (s.messageTaken die c cause) d hd
  rw [hdd, ringOf_die hdie] at hdet
  have hwithin := State.within_detect (s.messageTaken die c cause) d hd
  have honly := (State.only.refl (s := s.messageTaken die c cause) (may := [.out, .fresh, .regs, .err, .host])).detect (d := d)
  refine ⟨(hwithin.rd (f := F.CTX_SLOT_STATE) (Fld.in_die hc)).trans (State.rd_congr (s := s) rfl ..), honly.arr, honly.wts, honly.stew,
    honly.mas, fun h1 => ?_, fun h2 => ?_⟩
  · rcases hcls with ⟨-, hcls⟩ | ⟨h2, -⟩
    · rw [hcls] at hdet
      exact hdet
    · omega
  · rcases hcls with ⟨h1, -⟩ | ⟨-, hcls⟩
    · omega
    · rw [hcls] at hdet
      exact hdet
theorem execFreezeMessage_noticed {cause : Nat} {replica : Option Nat} (hdie : die < 4) (hc : c < 4)
    (hmsg : s.arr.messages.find? (fun m => decide (m.1 = die)) = some (die, c, cause)) : ∃ u, s.noticed u die c cause ∧
      execFreezeMessage die replica s = .next (if cause = 1 then u.abortStep die c true .deadlock
        else if cause = 2 then u.abortStep die c false .bound else u.faultStep die c replica) := by
  have hexec : ∀ {x y : State}, x = y → execFreezeMessage die replica s = .next x → execFreezeMessage die replica s = .next y :=
    fun h he => h ▸ he
  by_cases h1 : cause = 1
  · refine ⟨_, State.noticed_detect (d := { errOf 0x13 0 0 die with
      ctx := errCtx c, action := 2, detail := (s.messageTaken die c cause).rd F.FREEZE_INFO_BLOCKED 0 (.die die) }) hc (show 0x13 < 64 by decide) rfl hdie (.inl ⟨h1, rfl⟩), ?_⟩
    rw [execFreezeMessage, onDie, if_pos hdie, hmsg, if_pos h1]
    exact congrArg Host.Outcome.next (if_pos h1)
  by_cases h2 : cause = 2
  · refine ⟨_, State.noticed_detect (d := { errOf 0x14 0 0 die with ctx := errCtx c, action := 4 }) hc
      (show 0x14 < 64 by decide) rfl hdie (.inr ⟨h2, rfl⟩), ?_⟩
    rw [execFreezeMessage, onDie, if_pos hdie, hmsg, if_neg h1, if_pos h2]
    exact congrArg Host.Outcome.next ((if_neg h1).trans (if_pos h2))
  · refine ⟨s.messageTaken die c cause, ⟨State.rd_congr (s := s) rfl .., rfl, rfl, rfl, rfl, fun h => absurd h h1, fun h => absurd h h2⟩, ?_⟩
    rw [execFreezeMessage, onDie, if_pos hdie, hmsg, if_neg h1, if_neg h2]
    exact congrArg Host.Outcome.next ((if_neg h1).trans (if_neg h2))
theorem State.stepIn_congr (hw : t.wts = s.wts) (hs : t.stew = s.stew) (slot : Option Nat) : t.stepIn die slot = s.stepIn die slot := by
  simp only [State.stepIn, State.flightsOf, hw, hs]

section
variable {cause : Nat} {replica : Option Nat} (hdie : die < 4) (hc : c < 4)
  (hmsg : s.arr.messages.find? (fun m => decide (m.1 = die)) = some (die, c, cause)) (h4 : s.slotState die c = 4)
include hdie hc hmsg h4

/-- R100: after the message the slot is reset, with the steps that were in it still to deal with. -/
theorem halted_of_message : ∃ u v, s.noticed u die c cause ∧ u.slotReset v die c ∧ v.wts = s.wts ∧ v.stew = s.stew ∧ v.mas = s.mas ∧
    execFreezeMessage die replica s = .next (
      if cause = 1 then (s.stepIn die (some c)).foldl (fun s e => s.abortFlight e.1 e.2 true .deadlock) v
      else if cause = 2 then (s.stepIn die (some c)).foldl (fun s e => s.abortFlight e.1 e.2 false .bound) v
      else (s.stepIn die (some c)).foldl (fun s e =>
        if e.2.replayed then s.moveFlight e.1 e.2 replica else s.abortFlight e.1 e.2 true .aborted) v) := by
  obtain ⟨u, hu, hexec⟩ := execFreezeMessage_noticed (replica := replica) hdie hc hmsg
  have honly := (State.only.refl (s := u) (may := [.regs, .arr])).haltSlot (die := die) (c := c)
  have hw := honly.wts.trans hu.wts
  have hs := honly.stew.trans hu.stew
  refine ⟨u, u.haltSlot die c, hu, State.slotReset_haltSlot hc (hu.slot.trans h4), hw, hs, honly.mas.trans hu.mas, hexec.trans ?_⟩
  simp only [State.abortStep, State.faultStep, State.stepIn_congr hw hs]

theorem completes_freezeMessage_none (hnone : s.stepIn die (some c) = []) :
    Completes (.freezeMessage die replica) s (fun t => t.arr.messages = s.arr.messages.erase (die, c, cause) ∧
      t.slotState die c = 2 ∧ t.slotTokens die c = 0 ∧
      (cause = 1 → s.adds t F.ERR_COUNT_COUNT 1 (64 * die + 0x13)) ∧ (cause = 2 → s.adds t F.ERR_COUNT_COUNT 1 (64 * die + 0x14)) ∧
      t.mas = s.mas) := by
  obtain ⟨u, v, hu, hv, -, -, hmas, hexec⟩ := halted_of_message (replica := replica) hdie hc hmsg h4
  refine ⟨v, hexec.trans (by rw [hnone]; simp only [List.foldl_nil, ite_self]), ?_⟩
  have hcount : ∀ i < 320, s.adds u F.ERR_COUNT_COUNT 1 i → s.adds v F.ERR_COUNT_COUNT 1 i := fun i hi h =>
    (hv.above.rd F.ERR_COUNT_COUNT i .glob (errCount_words i hi)).trans h
  refine ⟨hv.messages.trans (congrArg Arr.messages hu.arr), hv.ready, hv.tokens, fun h1 => hcount _ (by omega) (hu.watchdog h1),
    fun h2 => hcount _ (by omega) (hu.bound h2), hmas⟩
theorem completes_freezeMessage_replay {h : Nat} {fl : Flight} (hone : s.stepIn die (some c) = [(h, fl)]) (h1 : cause = 1)
    (hfl : fl.replayed = false) :
    Completes (.freezeMessage die replica) s (fun t => t.slotState die c = 2 ∧ t.slotTokens die c = 0 ∧
      t.flightsOf h = (s.flightsOf h).map (fun g =>
        if g = fl then { fl with replayed := true, drops := fl.drops.filter (fun e => decide (e.1 ≠ fl.stage)) } else g) ∧
      .microBatch h fl.rows ∈ t.out ∧ t.stew.reqs = s.stew.reqs) := by
  obtain ⟨u, v, hu, hv, -, hstew, -, hexec⟩ := halted_of_message (replica := replica) hdie hc hmsg h4
  rw [if_pos h1, hone] at hexec
  refine ⟨_, hexec, ?_⟩
  rw [List.foldl_cons, List.foldl_nil, State.abortFlight]
  simp only [hfl, Bool.not_false, Bool.and_true, if_true]
  have hfo : v.flightsOf h = s.flightsOf h := by rw [State.flightsOf, State.flightsOf, hstew]
  have hreqs : v.stew.reqs = s.stew.reqs := congrArg Stew.reqs hstew
  refine ⟨(State.rd_congr (s := v) rfl ..).trans hv.ready, hv.tokens, ?_, List.mem_cons_self, hreqs⟩
  exact (SMap.getD_setD_self ..).trans (by rw [hfo])
theorem completes_freezeMessage_end {h : Nat} {fl : Flight} {slot k : Nat} {r : Req} (hone : s.stepIn die (some c) = [(h, fl)])
    (hrows : fl.rows = [(slot, k)]) (hr : s.req slot = some r) (hst : r.st ≠ .ending) (hm : r.member = none)
    (hcause : cause = 1 ∧ fl.replayed = true ∨ cause = 2) :
    Completes (.freezeMessage die replica) s (fun t => t.slotState die c = 2 ∧ t.flightsOf h = (s.flightsOf h).erase fl ∧
      ∃ u, t.req slot = some u ∧ u.st = .ending ∧ u.final = if cause = 1 then .deadlock else .bound) := by
  obtain ⟨u, v, hu, hv, -, hstew, -, hexec⟩ := halted_of_message (replica := replica) hdie hc hmsg h4
  rw [hone] at hexec
  have hfo : v.flightsOf h = s.flightsOf h := by rw [State.flightsOf, State.flightsOf, hstew]
  have hreq : v.req slot = some r := by rw [State.req, hstew]; exact hr
  have hend : ∀ f, ((v.setFlights h ((v.flightsOf h).erase fl)).setReq slot { r with flying := none }).reqEnded
      (fl.rows.foldl (fun (s : State) e =>
        match s.req e.1 with
        | some r => (s.setReq e.1 { r with flying := none }).endReq e.1 f
        | none => s) (v.setFlights h ((v.flightsOf h).erase fl))) slot f := fun f => by
    rw [hrows, List.foldl_cons, List.foldl_nil]
    have hreq' : (v.setFlights h ((v.flightsOf h).erase fl)).req slot = some r := hreq
    dsimp only
    rw [hreq']
    exact State.reqEnded_endReq (r := { r with flying := none }) (SMap.find?_insert_self ..) hst hm
  have hfacts : ∀ (f : Final) (t : State), ((v.setFlights h ((v.flightsOf h).erase fl)).setReq slot { r with flying := none }).reqEnded t slot f →
      t.slotState die c = 2 ∧ t.flightsOf h = (s.flightsOf h).erase fl ∧ ∃ u, t.req slot = some u ∧ u.st = .ending ∧ u.final = f :=
    fun f t ht => by
      refine ⟨?_, ?_, ht.req⟩
      · rw [State.slotState, ht.regs.rd (f := F.CTX_SLOT_STATE) (Fld.in_die hc)]
        exact (State.rd_congr (s := v) rfl ..).trans hv.ready
      · rw [State.flightsOf, ht.flights]
        exact (SMap.getD_setD_self ..).trans (by rw [hfo])
  rcases hcause with ⟨h1, hrep⟩ | h2
  · rw [if_pos h1, List.foldl_cons, List.foldl_nil, State.abortFlight] at hexec
    simp only [hrep, Bool.not_true, Bool.and_false, Bool.false_eq_true, if_false] at hexec
    refine ⟨_, hexec, ?_⟩
    rw [if_pos h1]
    exact hfacts .deadlock _ (hend .deadlock)
  · rw [if_neg (by omega), if_pos h2, List.foldl_cons, List.foldl_nil, State.abortFlight] at hexec
    simp only [Bool.false_and, Bool.false_eq_true, if_false] at hexec
    refine ⟨_, hexec, ?_⟩
    rw [if_neg (by omega)]
    exact hfacts .bound _ (hend .bound)

end

/-! ## Scans (R102 to R107) -/

/-- R142: an entry that completes as it issues. -/
theorem issues_done {P : State → Prop} {run : State → Nat → Nat → Issue} {st i n opc : Nat} {e : EntrySt} (h : s.atHead die st i n)
    (ho : eOpc n = opc) (hrun : run s i n = .done e t)
    (hP : P (((t.noteStep die st opc (eSlot n)).advanceHead die st).completeEntry die st i n e)) :
    ∃ u, onStream die st (.next (s.issueHead die st opc run)) = .next u ∧ P u := by
  refine ⟨_, if_pos ⟨h.1.1, h.1.2.1⟩, ?_⟩
  rw [State.issueHead_of_atHead h ho, hrun]
  exact hP
theorem State.entryDone_refused {st i n opc c : Nat} {e : EntrySt} (h : s.atHead die st i n) (he : e ≠ .ok)
    (hw : s.within [.SCAN_STATUS] t) (hs : t.strm = s.strm) :
    s.entryDone (((t.noteStep die st opc c).advanceHead die st).completeEntry die st i n e) die st i n e := by
  have hsite := h.site
  obtain ⟨hrun, hhold⟩ := h.runs
  have hstate : (t.noteStep die st opc c).strState die st = s.strState die st :=
    (State.rd_congr (s := t) rfl ..).trans (hw.rd hsite.has)
  have hhead : (t.noteStep die st opc c).headPtr die st = s.headPtr die st :=
    (State.headPtr_congr (State.rd_congr (s := t) rfl ..) (State.rd_congr (s := t) rfl ..)).trans
      (State.headPtr_congr (hw.rd hsite.has) (hw.rd hsite.has))
  have hholder : (((t.noteStep die st opc c).advanceHead die st).stream die st).holder = none := by
    obtain ⟨ks, hks⟩ := State.stream_noteStep (die := die) (st := st) (opc := opc) (c := c) t
    rw [State.stream_advanceHead, hks]
    exact (congrArg StreamSt.holder (State.stream_congr (congrArg Strm.streams hs) die st)).trans hhold
  have hstate' : ((t.noteStep die st opc c).advanceHead die st).strState die st < 3 :=
    State.strState_advanceHead_run hsite (by rw [hstate]; exact hrun)
  have hdone := State.completes_completeEntry hsite ((t.noteStep die st opc c).advanceHead die st) i n e
  refine ⟨?_, ?_, hdone.notice, fun h4 => ⟨he, ?_⟩, fun ⟨_, hcont⟩ => hdone.stops he hcont (by omega)⟩
  · rw [State.headPast, hdone.head, if_neg (by rw [hholder]; nofun), State.headPtr_advanceHead hsite, hhead]
  · intro f hf
    rw [hdone.record] at hf
    simpa using (List.mem_filter.mp hf).2
  · by_contra hcont
    have := hdone.runs hstate' (fun hb => hcont hb.2)
    omega

theorem State.within_scanStatus (s : State) (busy dirIn : Bool) (c result progress : Nat) :
    s.within [.SCAN_STATUS] (s.scanStatus die busy dirIn c result progress) := by
  have hin : ∀ f : Fld, f.reg = .SCAN_STATUS → f.wordCount = 1 ∧ f.firstWord = 0 → f.In 0 (.die die) := fun f hf hw =>
    Fld.in_die (by rw [hf]; decide) (by rw [hf]; rfl) (by rw [hw.1, hw.2, hf]; decide)
  exact ((((State.within.refl.wr (hin _ rfl (by decide))).wr (hin _ rfl (by decide))).wr (hin _ rfl (by decide))).wr
    (hin _ rfl (by decide))).wr (hin _ rfl (by decide))
theorem State.rd_scanStatus (s : State) (busy dirIn : Bool) (c : Nat) {result progress : Nat} (hr : result < 8) :
    (s.scanStatus die busy dirIn c result progress).flag F.SCAN_STATUS_BUSY 0 (.die die) = busy ∧
    (s.scanStatus die busy dirIn c result progress).rd F.SCAN_STATUS_RESULT 0 (.die die) = result := by
  refine ⟨?_, ?_⟩
  · rw [State.scanStatus, State.flag, State.rd_wr_beside, State.rd_wr_beside, State.rd_wr_beside, State.wrFlag, State.wrFlag,
      State.rd_wr_beside, State.rd_wr_self]
    cases busy <;> decide
  · rw [State.scanStatus, State.rd_wr_beside]
    exact State.rd_wr_fits (f := F.SCAN_STATUS_RESULT) hr
theorem State.regsOnly.scanStatus (h : s.regsOnly t) {busy dirIn : Bool} {c result progress : Nat} :
    s.regsOnly (t.scanStatus die busy dirIn c result progress) := h.wr.wr.wr.wr.wr

/-- R102: the scan that an accepted entry starts. -/
def scanJob (st i n former len : Nat) : ScanJob :=
  { slot := eSlot n, isIn := decide (eB n 8 = 1), clear := eClear n, sram := eMtSram n, discard := eDiscard n, stream := st, entry := i
    addr := eD n 16, former := former, moved := false, bytes := len, result := 0 }
/-- R102: the state at the start of a scan from `s`, whose slot `s0` gives. -/
def State.scanStarted (s : State) (die st i n former len : Nat) : State :=
  (({ s with arr := { s.arr with scans := SMap.insert s.arr.scans die (scanJob st i n former len) } } : State).setSlotState die (eSlot n)
    .scanning).scanStatus die true (decide (eB n 8 = 1)) (eSlot n) 0 0
theorem eSlot_lt (n : Nat) : eSlot n < 4 := Nat.mod_lt _ (by decide)
/-- R102: a scan that its entry has started. -/
theorem scan_started {st i n former len : Nat} (h : s.atHead die st i n) (hregs : t.regs = s.regs) (hstrm : t.strm = s.strm) :
    let u := (t.scanStarted die st i n former len).flown die st 0x03 (eSlot n) (flyOf i n .load (eD n 16) 0 0)
    s.entryFlies u die st i n .load ∧ u.slotState die (eSlot n) = 5 ∧ u.flag F.SCAN_STATUS_BUSY 0 (.die die) = true ∧
    u.arr.queues = t.arr.queues ∧ (t.emptied die (eSlot n) → u.slotTokens die (eSlot n) = 0) ∧
    SMap.find? u.arr.scans die = some (scanJob st i n former len) := by
  intro u
  have hsite := h.site
  have hticks := State.ticks_flown (opc := 0x03) (c := eSlot n) (f := flyOf i n .load (eD n 16) 0 0) hsite (t.scanStarted die st i n former len)
  have hin : ∀ f : Fld, f.reg = .SCAN_STATUS → f.wordCount = 1 ∧ f.firstWord = 0 → f.In 0 (.die die) := fun f hf hw =>
    Fld.in_die (by rw [hf]; decide) (by rw [hf]; rfl) (by rw [hw.1, hw.2, hf]; decide)
  have hslotIn : F.CTX_SLOT_STATE.In (eSlot n) (.die die) := Fld.in_die (eSlot_lt n)
  have hwithin : s.within [.CTX_SLOT, .SCAN_STATUS] (t.scanStarted die st i n former len) := by
    refine State.within.trans ?_ (State.within.mono (State.within_scanStatus _ _ _ _ _ _) (by decide))
    exact ((State.within.refl (s := s)).of_regs (u := { t with arr := { t.arr with
      scans := SMap.insert t.arr.scans die (scanJob st i n former len) } }) hregs).wr hslotIn
  have harr : (t.scanStarted die st i n former len).arr =
      { t.arr with scans := SMap.insert t.arr.scans die (scanJob st i n former len) } := by
    rw [State.scanStarted, (State.regsOnly.refl (s := State.setSlotState ..)).scanStatus, State.arr_setSlotState]
  have hu : ∃ a, u.arr = { t.arr with scans := SMap.insert t.arr.scans die (scanJob st i n former len), restFor := a } := by
    have hsame : u.arr = { (t.scanStarted die st i n former len).arr with restFor := u.arr.restFor } := hticks.arr
    exact ⟨u.arr.restFor, hsame.trans (by rw [harr])⟩
  obtain ⟨a, hu⟩ := hu
  obtain ⟨hbusy, -⟩ := State.rd_scanStatus (die := die) (({ t with arr := { t.arr with
    scans := SMap.insert t.arr.scans die (scanJob st i n former len) } } : State).setSlotState die (eSlot n) .scanning) true
    (decide (eB n 8 = 1)) (eSlot n) (progress := 0) (show 0 < 8 by decide)
  refine ⟨State.entryFlies_flown hsite ?_, ?_, ?_, by rw [hu], fun he => ?_, ?_⟩
  · exact State.headPtr_congr (hwithin.rd hsite.has) (hwithin.rd hsite.has)
  · rw [State.slotState, hticks.within.rd hslotIn]
    refine ((State.within_scanStatus _ _ _ _ _ _).rd hslotIn).trans ?_
    exact State.slotState_setSlotState _ .scanning
  · rw [hticks.within.flag (hin F.SCAN_STATUS_BUSY rfl (by decide))]
    exact hbusy
  · exact (he.congr (t := u) (by rw [hu]) (by rw [hu]) (by rw [hu])).tokens
  · rw [hu]
    exact SMap.find?_insert_self ..

section
variable {st i n : Nat} (h : s.atHead die st i n) (ho : eOpc n = 0x03) (hfree : SMap.find? s.arr.scans die = none)
include h ho hfree

omit ho hfree in
/-- R102: an entry that is refused. -/
theorem scan_refused {dirIn : Bool} :
    s.entryDone ((((s.scanStatus die false dirIn (eSlot n) 1 0).noteStep die st 0x03 (eSlot n)).advanceHead die st).completeEntry die st i n .refused)
      die st i n .refused ∧
    ((((s.scanStatus die false dirIn (eSlot n) 1 0).noteStep die st 0x03 (eSlot n)).advanceHead die st).completeEntry die st i n .refused).rd
      F.SCAN_STATUS_RESULT 0 (.die die) = 1 ∧
    s.sameArr ((((s.scanStatus die false dirIn (eSlot n) 1 0).noteStep die st 0x03 (eSlot n)).advanceHead die st).completeEntry die st i n .refused) := by
  have hframe := (State.regsOnly.refl (s := s)).scanStatus (die := die) (busy := false) (dirIn := dirIn) (c := eSlot n) (result := 1) (progress := 0)
  obtain ⟨-, hres⟩ := State.rd_scanStatus (die := die) s false dirIn (eSlot n) (progress := 0) (show 1 < 8 by decide)
  have hdone := State.entryDone_refused (e := .refused) (opc := 0x03) (c := eSlot n) h nofun (State.within_scanStatus s false dirIn (eSlot n) 1 0)
    (by rw [hframe])
  have hticks := ((State.ticks.refl (s := s.scanStatus die false dirIn (eSlot n) 1 0)).noteStep (opc := 0x03) (c := eSlot n)).advanceHead h.site
    |>.completeEntry h.site (i := i) (n := n) (e := .refused)
  refine ⟨hdone, ?_, ?_⟩
  · rw [hticks.within.rd (f := F.SCAN_STATUS_RESULT) (Fld.in_die (by decide))]
    exact hres
  · have harr := hticks.arr
    unfold State.sameArr at harr ⊢
    rw [harr, hframe]
theorem completes_scanOut_start (hdir : eB n 8 = 0) (hbusy : s.routerBusy die (eSlot n) = false) :
    (s.slotState die (eSlot n) = 2 ∨ s.slotState die (eSlot n) = 4 →
      Completes (.scan die st) s (fun t => s.entryFlies t die st i n .load ∧ t.slotState die (eSlot n) = 5 ∧
        t.flag F.SCAN_STATUS_BUSY 0 (.die die) = true ∧ t.arr.queues = s.arr.queues ∧
        ∃ j, SMap.find? t.arr.scans die = some j ∧ j.slot = eSlot n ∧ j.isIn = false ∧ j.addr = eD n 16 ∧
          j.former = s.slotState die (eSlot n) ∧ j.moved = false)) ∧
    (s.slotState die (eSlot n) ≠ 2 → s.slotState die (eSlot n) ≠ 4 →
      Completes (.scan die st) s (fun t => s.entryDone t die st i n .refused ∧ t.rd F.SCAN_STATUS_RESULT 0 (.die die) = 1 ∧
        s.sameArr t)) := by
  have hin : decide (eB n 8 = 1) = false := decide_eq_false (by omega)
  refine ⟨fun hst => ?_, fun h2 h4 => ?_⟩
  · obtain ⟨hfly, hslot, hflag, hq, -, hj⟩ := scan_started (t := s) (former := s.slotState die (eSlot n)) (len := 0) h rfl rfl
    refine issues_fly h.1 ho (State.cutDispatch_none h.2 _) (t := s.scanStarted die st i n (s.slotState die (eSlot n)) 0)
      (f := flyOf i n .load (eD n 16) 0 0) ?_ ⟨hfly, hslot, hflag, hq, _, hj, rfl, hin, rfl, rfl, rfl⟩
    dsimp only
    rw [if_neg (by rw [hfree, hin, hbusy]; nofun), if_neg (by rw [hin]; exact fun hh => Bool.false_ne_true hh.1)]
    simp only [hin, Bool.false_eq_true, if_false, decide_eq_true hst, if_true, State.scanStarted, scanJob]
  · refine issues_done h ho (e := .refused) ?_ (scan_refused (dirIn := false) h)
    dsimp only
    rw [if_neg (by rw [hfree, hin, hbusy]; nofun), if_neg (by rw [hin]; exact fun hh => Bool.false_ne_true hh.1)]
    simp only [hin, Bool.false_eq_true, if_false]
    rw [if_neg (by rw [decide_eq_true_iff]; omega)]
theorem completes_scanIn_start (hdir : eB n 8 = 1)
    (hok : s.rangeAccess State.readAccess (eD n 16) (max 64 (s.masNat (eD n 16 + 16) 8)) = .ok) :
    let img := s.masBytes (eD n 16) (s.masNat (eD n 16 + 16) 8)
    (s.scanInOk die (eSlot n) (eDiscard n) img = true →
      Completes (.scan die st) s (fun t => s.entryFlies t die st i n .load ∧ t.slotState die (eSlot n) = 5 ∧
        t.flag F.SCAN_STATUS_BUSY 0 (.die die) = true ∧ t.slotTokens die (eSlot n) = 0 ∧
        ∃ j, SMap.find? t.arr.scans die = some j ∧ j.slot = eSlot n ∧ j.isIn = true ∧ j.addr = eD n 16 ∧
          j.bytes = img.length ∧ j.moved = false)) ∧
    (s.scanInOk die (eSlot n) (eDiscard n) img = false →
      Completes (.scan die st) s (fun t => s.entryDone t die st i n .refused ∧ t.rd F.SCAN_STATUS_RESULT 0 (.die die) = 1 ∧
        s.sameArr t)) := by
  intro img
  have hin : decide (eB n 8 = 1) = true := decide_eq_true hdir
  have hlen : img.length = s.masNat (eD n 16 + 16) 8 := by simp [img, State.masBytes]
  refine ⟨fun hgood => ?_, fun hbad => ?_⟩
  · have hgood' : s.scanInOk die (eSlot n) (eDiscard n) (s.masBytes (eD n 16) (s.masNat (eD n 16 + 16) 8)) = true := hgood
    obtain ⟨hfly, hslot, hflag, -, htok, hj⟩ := scan_started (t := s.dropTokens die (eSlot n)) (former := s.slotState die (eSlot n))
      (len := s.masNat (eD n 16 + 16) 8) h rfl rfl
    refine issues_fly h.1 ho (State.cutDispatch_none h.2 _)
      (t := (s.dropTokens die (eSlot n)).scanStarted die st i n (s.slotState die (eSlot n)) (s.masNat (eD n 16 + 16) 8))
      (f := flyOf i n .load (eD n 16) 0 0) ?_
      ⟨hfly, hslot, hflag, htok (State.emptied_dropTokens s), _, hj, rfl, hin, rfl, hlen.symm, rfl⟩
    dsimp only
    rw [if_neg (by rw [hfree, hin]; nofun), if_neg (by rw [if_pos hin, hok]; exact fun hh => nomatch hh.2)]
    simp only [hin, if_true, hok, decide_true, Bool.true_and, hgood',
      State.scanStarted, scanJob]
  · have hbad' : s.scanInOk die (eSlot n) (eDiscard n) (s.masBytes (eD n 16) (s.masNat (eD n 16 + 16) 8)) = false := hbad
    refine issues_done h ho (e := .refused) ?_ (scan_refused (dirIn := true) h)
    dsimp only
    rw [if_neg (by rw [hfree, hin]; nofun), if_neg (by rw [if_pos hin, hok]; exact fun hh => nomatch hh.2)]
    simp only [hin, if_true, hbad', Bool.and_false, Bool.false_eq_true, if_false]

end

/-! ## How a scan moves its image, and ends (R104 to R107) -/

theorem completes_scanOut {j : ScanJob} (hdie : die < 4) (hj : SMap.find? s.arr.scans die = some j) (hm : j.moved = false) (hin : j.isIn = false) :
    let im := s.scanImage die j.slot j.sram
    (s.rangeAccess State.writeAccess j.addr im.length = .ok →
      Completes (.scanOut die false) s (fun t => (∀ k < im.length, t.masByte (j.addr + k) = im.getD k 0) ∧
        (∀ a, a < j.addr ∨ j.addr + im.length ≤ a → t.masByte a = s.masByte a) ∧
        SMap.find? t.arr.scans die = some { j with moved := true, bytes := im.length, result := 0 } ∧ t.regs = s.regs)) ∧
    (s.rangeAccess State.writeAccess j.addr im.length ≠ .ok →
      Completes (.scanOut die false) s (fun t => t = s.setScan die { j with moved := true, result := 3 })) ∧
    Completes (.scanOut die true) s (fun t => t = s.setScan die { j with moved := true, result := 2 }) := by
  intro im
  have hexec : ∀ ue, execScanOut die ue s = .next (if ue then s.setScan die { j with moved := true, result := 2 }
      else if s.rangeAccess State.writeAccess j.addr im.length ≠ .ok then s.setScan die { j with moved := true, result := 3 }
      else (s.masWrite j.addr im).setScan die { j with moved := true, bytes := im.length, result := 0 }) := fun ue => by
    rw [execScanOut, onDie, if_pos hdie, hj]
    exact congrArg Host.Outcome.next (if_neg (by rw [hm, hin]; exact Bool.false_ne_true))
  refine ⟨fun hok => ⟨_, hexec false, ?_⟩, fun hno => ⟨_, hexec false, ?_⟩, _, hexec true, rfl⟩
  · rw [if_neg Bool.false_ne_true, if_neg (fun h => h hok)]
    have hin : ∀ k < im.length, (s.masWrite j.addr im).masByte (j.addr + k) = im.getD k 0 := State.masByte_masWrite_of_inside im s j.addr
    have hout : ∀ a, a < j.addr ∨ j.addr + im.length ≤ a → (s.masWrite j.addr im).masByte a = s.masByte a :=
      State.masByte_masWrite_of_outside im s j.addr
    have hregs : (s.masWrite j.addr im).regs = s.regs := by rw [State.masWrite_mem_only]
    generalize s.masWrite j.addr im = v at hin hout hregs ⊢
    exact ⟨hin, hout, SMap.find?_insert_self .., hregs⟩
  · exact (if_neg Bool.false_ne_true).trans (if_pos hno)
theorem completes_scanIn {j : ScanJob} (hdie : die < 4) (hj : SMap.find? s.arr.scans die = some j) (hm : j.moved = false) (hin : j.isIn = true)
    (hslot : j.slot = c) :
    Completes (.scanIn die false) s (fun t => t = (s.scanApply die c (s.masBytes j.addr j.bytes)).setScan die
      { j with moved := true, result := 0 }) ∧
    Completes (.scanIn die true) s (fun t => t.slotState die c = 5 ∧ t.slotTokens die c = 0 ∧
      SMap.find? t.arr.scans die = some { j with moved := true, result := 2 }) := by
  subst hslot
  have hexec : ∀ ue, execScanIn die ue s = .next (if ue then
      ((s.resetOnly die j.slot).setSlotState die j.slot .scanning).setScan die { j with moved := true, result := 2 }
      else (s.scanApply die j.slot (s.masBytes j.addr j.bytes)).setScan die { j with moved := true, result := 0 }) := fun ue => by
    rw [execScanIn, onDie, if_pos hdie, hj]
    exact congrArg Host.Outcome.next (if_neg (by rw [hm, hin]; simp))
  refine ⟨⟨_, hexec false, if_neg Bool.false_ne_true⟩, _, hexec true, ?_⟩
  rw [if_pos rfl]
  have hempty := (State.resets_resetOnly (die := die) (c := j.slot) s).empties (State.emptied_dropTokens s)
  have harr : ((s.resetOnly die j.slot).setSlotState die j.slot .scanning).arr = (s.resetOnly die j.slot).arr := State.arr_setSlotState ..
  have hstate := State.slotState_setSlotState (die := die) (c := j.slot) (s.resetOnly die j.slot) .scanning
  generalize (s.resetOnly die j.slot).setSlotState die j.slot .scanning = u at harr hstate ⊢
  refine ⟨(State.rd_congr (show (u.setScan die { j with moved := true, result := 2 }).regs = u.regs from rfl) ..).trans hstate, ?_,
    SMap.find?_insert_self ..⟩
  have hemptyU : u.emptied die j.slot := hempty.congr (congrArg Arr.queues harr) (congrArg Arr.tiles harr) (congrArg Arr.drain harr)
  exact (hemptyU.congr (t := u.setScan die { j with moved := true, result := 2 }) rfl rfl rfl).tokens
theorem completes_scanComplete {j : ScanJob} (hdie : die < 4) (hc : c < 4) (hj : SMap.find? s.arr.scans die = some j) (hm : j.moved = true)
    (hslot : j.slot = c) (hst : j.stream < 64) :
    Completes (.scanComplete die) s (fun t => SMap.find? t.arr.scans die = none ∧
      t.slotState die c = (if j.isIn || decide (j.former ≠ 4) || (j.clear && decide (j.result = 0)) then 2 else 4) ∧
      t.flag F.SCAN_STATUS_BUSY 0 (.die die) = false ∧ t.rd F.SCAN_STATUS_RESULT 0 (.die die) = (if j.result = 0 then 0 else 2) ∧
      (j.clear = false ∨ j.isIn = true ∨ j.result ≠ 0 → t.arr.queues = s.arr.queues) ∧
      (j.clear = true → j.isIn = false → j.result = 0 → t.slotTokens die c = 0) ∧ t.mas = s.mas) := by
  subst hslot
  have hsite : StreamSite die j.stream := ⟨hdie, hst⟩
  show ∃ t, execScanComplete die s = .next t ∧ _
  rw [execScanComplete, onDie, if_pos hdie, hj]
  refine ⟨_, congrArg Host.Outcome.next (if_neg (by rw [hm]; simp)), ?_⟩
  extract_lets arrKept s1 s2 word s3
  have hres : (if j.result = 0 then 0 else 2) < 8 := by split <;> decide
  have hticks : s3.ticks (s3.completeEntry die j.stream j.entry word (if j.result = 0 then .ok else .fault)) die j.stream :=
    State.ticks.refl.completeEntry hsite
  have hin : ∀ f : Fld, f.reg = .SCAN_STATUS → f.wordCount = 1 ∧ f.firstWord = 0 → f.In 0 (.die die) := fun f hf hw =>
    Fld.in_die (by rw [hf]; decide) (by rw [hf]; rfl) (by rw [hw.1, hw.2, hf]; decide)
  obtain ⟨hbusy, hresult⟩ := State.rd_scanStatus (die := die) s2 false j.isIn j.slot (progress := if j.result = 0 then j.bytes / 4096 else 0) hres
  have hs3 : s3.arr = s2.arr ∧ s3.mas = s2.mas := by
    unfold s3
    rw [(State.regsOnly.refl (s := s2)).scanStatus]
    exact ⟨rfl, rfl⟩
  generalize s3.completeEntry die j.stream j.entry word (if j.result = 0 then .ok else .fault) = v at hticks ⊢
  obtain ⟨a, ha⟩ : ∃ a, v.arr = { s2.arr with restFor := a } := by
    have hsame : v.arr = { s3.arr with restFor := v.arr.restFor } := hticks.arr
    exact ⟨_, hsame.trans (by rw [hs3.1])⟩
  have hs2 : s2.mas = s.mas ∧ SMap.find? s2.arr.scans die = none ∧
      s2.slotState die j.slot = (if j.isIn || decide (j.former ≠ 4) || (j.clear && decide (j.result = 0)) then 2 else 4) ∧
      (j.clear = false ∨ j.isIn = true ∨ j.result ≠ 0 → s2.arr.queues = s.arr.queues) ∧
      (j.clear = true → j.isIn = false → j.result = 0 → s2.emptied die j.slot) := by
    unfold s2
    split
    next hclear =>
      obtain ⟨hcl, hni, h0⟩ := hclear
      have hreset := State.resets_resetOnly (die := die) (c := j.slot) s1
      have hready := State.slotReset_resetOnly (die := die) (c := j.slot) s1
      refine ⟨(State.only.refl (s := s1) (may := [.regs, .arr])).resetOnly.mas, ?_, ?_, fun h => ?_, fun _ _ _ =>
        hreset.empties (State.emptied_dropTokens s1)⟩
      · rw [hready.scans]
        exact SMap.find?_erase_self ..
      · rw [hready.ready, if_pos (by rw [hcl, decide_eq_true h0]; simp)]
      · simp [hcl, hni, h0] at h
    next hkeep =>
      refine ⟨by rw [State.mas_setSlotState], ?_, ?_, fun _ => by rw [State.arr_setSlotState], fun h1 h2 h3 =>
        absurd ⟨h1, by rw [h2]; exact Bool.false_ne_true, h3⟩ hkeep⟩
      · rw [State.arr_setSlotState]
        exact SMap.find?_erase_self ..
      · rw [State.slotState_setSlotState]
        cases hisIn : j.isIn
        · by_cases hf : j.former = 4
          · have hno : (j.clear && decide (j.result = 0)) = false := by
              by_contra h
              rw [Bool.not_eq_false, Bool.and_eq_true, decide_eq_true_iff] at h
              exact hkeep ⟨h.1, by rw [hisIn]; exact Bool.false_ne_true, h.2⟩
            rw [hno, hf]
            rfl
          · rw [decide_eq_true hf, formerSt, if_neg hf]
            rfl
        · rfl
  obtain ⟨hmas, hscans, hstate, hqueues, hempty⟩ := hs2
  refine ⟨by rw [ha]; exact hscans, ?_, ?_, ?_, fun h => by rw [ha]; exact hqueues h, fun h1 h2 h3 =>
    ((hempty h1 h2 h3).congr (t := v) (by rw [ha]) (by rw [ha]) (by rw [ha])).tokens, hticks.mas.trans (hs3.2.trans hmas)⟩
  · rw [State.slotState, hticks.within.rd (f := F.CTX_SLOT_STATE) (Fld.in_die hc)]
    exact ((State.within_scanStatus _ _ _ _ _ _).rd (f := F.CTX_SLOT_STATE) (Fld.in_die hc)).trans hstate
  · rw [hticks.within.flag (hin F.SCAN_STATUS_BUSY rfl (by decide))]
    exact hbusy
  · rw [hticks.within.rd (hin F.SCAN_STATUS_RESULT rfl (by decide))]
    exact hresult

end

/-- Settles O42: the watchdog, firmware's answer to a freeze, and the scans, in turn. -/
theorem freezesAndScans : Obligations.FreezesAndScans := by
  intro s die c hdie hc
  refine ⟨fun hact => ?_, fun cause replica hmsg h4 => ⟨fun h => completes_freezeMessage_none hdie hc hmsg h4 h,
    fun h fl hone h1 hfl => completes_freezeMessage_replay hdie hc hmsg h4 hone h1 hfl,
    fun h fl slot k r hone hrows hr hst hm hcause => completes_freezeMessage_end hdie hc hmsg h4 hone hrows hr hst hm hcause⟩,
    fun st i n h ho hfree => ⟨fun hdir hbusy => completes_scanOut_start h ho hfree hdir hbusy,
      fun hdir hok => completes_scanIn_start h ho hfree hdir hok⟩,
    fun j hj hm hin => completes_scanOut hdie hj hm hin, fun j hj hm hin hslot => completes_scanIn hdie hj hm hin hslot,
    fun j hj hm hslot hst => completes_scanComplete hdie hc hj hm hslot hst⟩
  obtain ⟨hfreeze, hkeeps⟩ := completes_watchdogFreeze hdie hact
  refine ⟨fun hlim => ?_, hkeeps⟩
  obtain ⟨t, ht, hslot, hnone, hmsg, hrec, hframe⟩ := hfreeze hlim
  exact ⟨t, ht, hslot, hnone, hmsg, hrec.slot, hrec.cause, hrec.new, hrec.blocked, hrec.low, hrec.high, hrec.stalled, hrec.others, hframe⟩

end Sys2Proof.Machine
end

section
/-!
PROOF. Registers: writes, refusals and the latches of counters (R15, R28 to R32, R165, R303, R386, R398, R478).
-/
namespace Sys2Proof.Machine

set_option Elab.async false

section
variable {s t : State} {path : Path} {a v : Nat}

/-- R478: a write of a register that does not act sets its word. -/
theorem State.writeReg_plain {r : Reg} (hr : r ∉ actingRegs) (s : State) (path : Path) (i : Nat) (w : Win) (k v n : Nat) :
    s.writeReg path r i w k v n = (true, s.setWord r i w k (BitVec.ofNat 32 n)) := by
  cases r
  case TILE_PARAM | TILE_PARAM_CTRL | WC_CFG | STREAM_CTRL | STREAM_TAIL | MBOX_STATUS | POOL_WATER | MIG_RING | MIG_CPL | SCHED_CHUNK |
      TENANT_BUDGET | HOST_PORT_CFG | LINK_PLAN | GROUP_CFG | LINK_PORT_CFG | ROUTE | JOURNAL_PARTNER | TAKEOVER_SET | JOURNAL_TIMING | ERR_RD |
      ERR_OVF_VALID | TIMING_PREP | PWR_CTRL | PWR_CAP | PWR_CAP_CFG | PWR_STATUS | PIN_STATUS | BOOT_CFG | COLD_RESET | LC_REQUEST | LC_CONFIRM |
      STAGE_CTRL | PCL_CTRL | PCL_CONFIRM => exact absurd (by decide) hr
  all_goals rfl

/-! ## Writes that are refused, and reads of counters -/

/-- R31: what a refused write answers. -/
theorem State.doWrite_refused {d : Nat} (hd : s.dark = false) (h : s.applyWrite path a v = (.refused d, s)) :
    s.doWrite path a v = s.writeReply path a false d := by
  simp only [State.doWrite, hd, Bool.false_eq_true, if_false, h]
theorem State.applyWrite_unlocated (h : s.locate a = none) :
    s.applyWrite path a v = (.refused (if s.blockOpen path a then (s.dieCloses a).getD 0 else 0), s) := by
  rw [State.applyWrite, h]
theorem State.applyWrite_not_allowed {r : Reg} {i k : Nat} {w : Win} (hloc : s.locate a = some (r, i, w, k))
    (h : s.mayWrite path a r = false ∨ s.blockOpen path a = false ∨ (s.dieCloses a).isSome = true ∨ s.writeRefused r i w k (v % 2 ^ 32) = true) :
    s.applyWrite path a v = (.refused (if s.mayWrite path a r && s.blockOpen path a then (s.dieCloses a).getD 0 else 0), s) := by
  simp only [State.applyWrite, hloc]
  generalize v % 2 ^ 32 = x at h ⊢
  by_cases hmay : s.mayWrite path a r = true
  · by_cases hopen : s.blockOpen path a = true
    · rw [hmay, hopen]
      cases hdie : s.dieCloses a with
      | some d => rfl
      | none =>
        have href : s.writeRefused r i w k x = true := by
          simpa [hmay, hopen, hdie] using h
        simp [href]
    · simp [hopen]
  · simp [hmay]
/-- R165: the read of a counter's low word holds its high word. -/
theorem State.readReg_low {r : Reg} {i : Nat} {w : Win} (hloc : s.locate a = some (r, i, w, 0)) (hl : latching r = true)
    (hmay : s.mayRead path a = true) (hopen : s.blockOpen path a = true) (hdie : s.dieCloses a = none) (hwake : s.wakeFor a = s) :
    (s.readReg path a).2 = (s.readLow path r i w).2 := by
  simp only [State.readReg, hloc, hl, hmay, hopen, hdie, hwake, Bool.not_true, Bool.or_self, Bool.false_eq_true, if_false, and_self, if_true]
theorem State.latch_readLow (s : State) (path : Path) (r : Reg) (i : Nat) (w : Win) :
    (s.readLow path r i w).2.latch path (r.addr i w 1) = some (s.view r i w 1) := by
  rw [State.readLow, State.latch]
  simp

/-! ## The error rings' registers (R380, R386) -/

/-- A bit stays when those of a mask are taken away, unless the mask has it. -/
theorem testBit_sub_and (c : Nat) : ∀ n b : Nat, (n - (n &&& b)).testBit c = (n.testBit c && !b.testBit c) := by
  have hmod : ∀ n b : Nat, (n &&& b) % 2 = n % 2 * (b % 2) := fun n b => by
    rw [Nat.and_mod_two_pow (n := 1) |> fun h => (show (n &&& b) % 2 = (n % 2 &&& b % 2) from h)]
    rcases Nat.mod_two_eq_zero_or_one n with h | h <;> rcases Nat.mod_two_eq_zero_or_one b with h' | h' <;> rw [h, h'] <;> rfl
  have hle : ∀ n b : Nat, n &&& b ≤ n := fun n b => Nat.and_le_left
  induction c with
  | zero =>
    intro n b
    have h1 := hmod n b
    have h2 := hle n b
    rcases Nat.mod_two_eq_zero_or_one n with h | h
    · rw [h, Nat.zero_mul] at h1
      simp only [Nat.testBit_zero, h]
      rw [decide_eq_false (show ¬ (n - (n &&& b)) % 2 = 1 by omega)]
      rfl
    · rw [h, Nat.one_mul] at h1
      simp only [Nat.testBit_zero, h]
      rcases Nat.mod_two_eq_zero_or_one b with h' | h'
      · rw [decide_eq_true (show (n - (n &&& b)) % 2 = 1 by omega), h']
        rfl
      · rw [decide_eq_false (show ¬ (n - (n &&& b)) % 2 = 1 by omega), h']
        rfl
  | succ c ih =>
    intro n b
    have hdiv : (n &&& b) / 2 = n / 2 &&& b / 2 := Nat.and_div_two
    have h1 := hmod n b
    have h2 := hle n b
    have h3 : n % 2 * (b % 2) ≤ n % 2 := by
      rcases Nat.mod_two_eq_zero_or_one b with h' | h' <;> rw [h'] <;> omega
    rw [Nat.testBit_succ, Nat.testBit_succ, Nat.testBit_succ, ← ih, ← hdiv, show (n - (n &&& b)) / 2 = n / 2 - (n &&& b) / 2 by omega]

/-- R386, R380: the addresses of the rings' registers reach them. -/
theorem State.writes_ERR_RD {ring : Nat} (hr : ring < 5) (hd : s.dark = false) (h1 : s.modState ≠ 1) (hlc : s.lc ≠ .retired)
    (hmay : s.mayWrite path (Reg.addr .ERR_RD ring .glob 0) .ERR_RD = true) :
    s.writes path (Reg.addr .ERR_RD ring .glob 0) v .ERR_RD ring .glob 0 := by
  have haddr : Reg.addr .ERR_RD ring .glob 0 < 0x1000000 := by
    simp only [Reg.addr, winBase, Reg.info]
    omega
  refine State.writes_running hd hlc h1 (State.locate_addr (Reg.has_glob hr (by decide)) trivial rfl) hmay haddr ?_
  have hlt : ∀ n, ¬ 4294967295 < bitsOf n 0 32 := fun n => Nat.not_lt.mpr (Nat.le_of_lt_succ (bitsOf_lt n 0 32))
  simp [State.writeRefused, Reg.info, FieldDef.inWord, Acc.writable, FieldDef.breaksSeal, State.fieldRefuses, hlt]
theorem State.writes_ERR_OVF_VALID {ring half : Nat} (hr : ring < 5) (hh : half < 2) (hd : s.dark = false) (h1 : s.modState ≠ 1)
    (hlc : s.lc ≠ .retired) (hmay : s.mayWrite path (Reg.addr .ERR_OVF_VALID ring .glob half) .ERR_OVF_VALID = true) :
    s.writes path (Reg.addr .ERR_OVF_VALID ring .glob half) v .ERR_OVF_VALID ring .glob half := by
  have haddr : Reg.addr .ERR_OVF_VALID ring .glob half < 0x1000000 := by
    simp only [Reg.addr, winBase, Reg.info]
    omega
  refine State.writes_running hd hlc h1 (State.locate_addr (Reg.has_glob hr hh) trivial rfl) hmay haddr ?_
  obtain rfl | rfl : half = 0 ∨ half = 1 := by omega
  · simp [State.writeRefused, Reg.info, FieldDef.inWord, Acc.writable, FieldDef.breaksSeal, State.fieldRefuses]
  · simp [State.writeRefused, Reg.info, FieldDef.inWord, Acc.writable, FieldDef.breaksSeal, State.fieldRefuses]
theorem State.writes_TIMING_PREP (hd : s.dark = false) (h1 : s.modState ≠ 1) (hlc : s.lc ≠ .retired)
    (hmay : s.mayWrite path (Reg.addr .TIMING_PREP 0 .glob 0) .TIMING_PREP = true) :
    s.writes path (Reg.addr .TIMING_PREP 0 .glob 0) v .TIMING_PREP 0 .glob 0 := by
  refine State.writes_running hd hlc h1 (State.locate_addr (Reg.has_glob (by decide) (by decide)) trivial rfl) hmay (by decide) ?_
  simp [State.writeRefused, Reg.info, FieldDef.inWord, Acc.writable, FieldDef.breaksSeal, State.fieldRefuses]
theorem State.writeReg_ERR_RD_taken {i v : Nat} {r : Reg} (hr : r = .ERR_RD) (h : s.retireTo i (v % 2 ^ 32) = some t) (path : Path) (w : Win)
    (k n : Nat) : s.writeReg path r i w k v n = (true, t) := by
  delta State.writeReg
  rw [h, hr]
theorem State.writeReg_ERR_RD_refused {i v : Nat} {r : Reg} (hr : r = .ERR_RD) (h : s.retireTo i (v % 2 ^ 32) = none) (path : Path) (w : Win)
    (k n : Nat) : s.writeReg path r i w k v n = (false, s) := by
  delta State.writeReg
  rw [h, hr]
theorem State.writeReg_ERR_OVF_VALID (s : State) (path : Path) (i : Nat) (w : Win) (k v n : Nat) :
    s.writeReg path .ERR_OVF_VALID i w k v n = (true, s.retireOvf i (v % 2 ^ 32 * 2 ^ (32 * k))) := rfl
theorem State.writeReg_TIMING_PREP_taken {v : Nat} (h : s.writeTimingPrep v = some t) (path : Path) (i : Nat) (w : Win) (k n : Nat) :
    s.writeReg path .TIMING_PREP i w k v n = (true, t) := by
  delta State.writeReg
  rw [h]
theorem State.writeReg_TIMING_PREP_refused {v : Nat} (h : s.writeTimingPrep v = none) (path : Path) (i : Nat) (w : Win) (k n : Nat) :
    s.writeReg path .TIMING_PREP i w k v n = (false, s) := by
  delta State.writeReg
  rw [h]
theorem State.err_writeReply (s : State) (path : Path) (a : Nat) (ok : Bool) (d : Nat) : (s.writeReply path a ok d).err = s.err := rfl
theorem ring_in {ring : Nat} (hr : ring < 5) {f : Fld} (hi : f.reg.info.count = 5 := by rfl) (hs : f.reg.info.space = .glob := by rfl)
    (hw : f.firstWord + f.wordCount ≤ f.reg.info.words := by decide) : f.In ring .glob := Fld.in_glob (hi ▸ hr) hs hw
/-- R386: a ring's status follows its indices; the indices and the valid bits stay. -/
theorem State.errStatus_keeps {ring : Nat} (hr : ring < 5) (s : State) {f : Fld} (hf : f.In ring .glob) (hne : f.reg ≠ .ERR_RING_STATUS) :
    (s.errStatus ring).rd f ring .glob = s.rd f ring .glob := by
  have hst : F.ERR_RING_STATUS_UNREAD.In ring .glob := ring_in hr
  rw [State.errStatus]
  rw [State.rd_wr_other (ring_in hr (f := F.ERR_RING_STATUS_OVF_USED)) hf (.inl hne), State.wrFlag,
    State.rd_wr_other (ring_in hr (f := F.ERR_RING_STATUS_FULL)) hf (.inl hne), State.rd_wr_other hst hf (.inl hne)]
theorem State.err_errStatus (s : State) (ring : Nat) : (s.errStatus ring).err = s.err :=
  (State.only.refl (s := s) (may := [.regs])).errStatus.err
theorem State.rd_errStatus_unread (s : State) (ring : Nat) :
    (s.errStatus ring).rd F.ERR_RING_STATUS_UNREAD ring = s.errUnread ring % 2 ^ F.ERR_RING_STATUS_UNREAD.w := by
  rw [State.errStatus]
  rw [State.rd_wr_beside, State.wrFlag, State.rd_wr_beside]
  exact State.rd_wr_self ..

theorem completes_errRd {ring : Nat} (hr : ring < 5) (hd : s.dark = false) (h1 : s.modState ≠ 1) (hlc : s.lc ≠ .retired)
    (hmay : s.mayWrite path (Reg.addr .ERR_RD ring .glob 0) .ERR_RD = true) :
    ((v % 2 ^ 32 + 2 ^ 32 - s.rd F.ERR_RD_SEQ ring) % 2 ^ 32 ≤ s.errUnread ring →
      Completes (.errRd path ring v) s (fun t => t.rd F.ERR_RD_SEQ ring = v % 2 ^ 32 ∧ t.rd F.ERR_WR_SEQ ring = s.rd F.ERR_WR_SEQ ring ∧
        t.rd F.ERR_RING_STATUS_UNREAD ring = (s.rd F.ERR_WR_SEQ ring + 2 ^ 32 - v % 2 ^ 32) % 2 ^ 32 % 2 ^ F.ERR_RING_STATUS_UNREAD.w ∧
        t.err = s.err)) ∧
    (s.errUnread ring < (v % 2 ^ 32 + 2 ^ 32 - s.rd F.ERR_RD_SEQ ring) % 2 ^ 32 →
      Completes (.errRd path ring v) s (fun t => t = s.writeReply path (Reg.addr .ERR_RD ring .glob 0) false 0)) := by
  have hw := State.writes_ERR_RD (v := v) hr hd h1 hlc hmay
  have hmod : v % 2 ^ 32 % 2 ^ 32 = v % 2 ^ 32 := Nat.mod_mod ..
  refine ⟨fun hfit => ⟨_, if_pos hr, ?_⟩, fun hover => ⟨_, if_pos hr, ?_⟩⟩
  · have hret : s.retireTo ring (v % 2 ^ 32 % 2 ^ 32) = some ((s.wr F.ERR_RD_SEQ (v % 2 ^ 32) ring).errStatus ring) := by
      rw [hmod]
      exact if_neg (Nat.not_lt.mpr hfit)
    rw [State.doWrite_of_request hw (fun n => State.writeReg_ERR_RD_taken rfl hret path .glob 0 n) rfl]
    dsimp only
    have hrd : (s.wr F.ERR_RD_SEQ (v % 2 ^ 32) ring).rd F.ERR_RD_SEQ ring = v % 2 ^ 32 := (State.rd_wr_self ..).trans hmod
    have hwr : (s.wr F.ERR_RD_SEQ (v % 2 ^ 32) ring).rd F.ERR_WR_SEQ ring = s.rd F.ERR_WR_SEQ ring :=
      State.rd_wr_other (ring_in hr) (ring_in hr) (.inl (by decide))
    refine ⟨?_, ?_, ?_, by rw [State.err_writeReply, State.err_errStatus, State.wr_regs_only]⟩
    · rw [State.rd_writeReply, State.errStatus_keeps hr _ (ring_in hr) (by decide), hrd]
    · rw [State.rd_writeReply, State.errStatus_keeps hr _ (ring_in hr) (by decide), hwr]
    · rw [State.rd_writeReply, State.rd_errStatus_unread, State.errUnread, hrd, hwr]
  · have hret : s.retireTo ring (v % 2 ^ 32 % 2 ^ 32) = none := by
      rw [hmod]
      exact if_pos hover
    exact State.doWrite_of_request hw (fun n => State.writeReg_ERR_RD_refused rfl hret path .glob 0 n) rfl
theorem completes_errOvfValid {ring half : Nat} (hr : ring < 5) (hh : half < 2) (hd : s.dark = false) (h1 : s.modState ≠ 1)
    (hlc : s.lc ≠ .retired) (hmay : s.mayWrite path (Reg.addr .ERR_OVF_VALID ring .glob half) .ERR_OVF_VALID = true) :
    Completes (.errOvfValid path ring half v) s (fun t =>
      (∀ c < 64, t.ovfUsed ring c = (s.ovfUsed ring c && !(decide (c / 32 = half) && bitOf v (c % 32)))) ∧ t.err = s.err) := by
  have hw := State.writes_ERR_OVF_VALID (v := v) hr hh hd h1 hlc hmay
  refine ⟨_, if_pos ⟨hr, hh⟩, ?_⟩
  rw [State.doWrite_of_request hw (fun n => State.writeReg_ERR_OVF_VALID s path ring .glob half (v % 2 ^ 32) n) rfl]
  refine ⟨fun c hc => ?_, by rw [State.err_writeReply, State.retireOvf, State.err_errStatus, State.wr_regs_only]⟩
  have hfit : s.rd F.ERR_OVF_VALID_VALID ring - (s.rd F.ERR_OVF_VALID_VALID ring &&& v % 2 ^ 32 % 2 ^ 32 * 2 ^ (32 * half)) < 2 ^ 64 :=
    Nat.lt_of_le_of_lt (Nat.sub_le ..) (s.rd_lt F.ERR_OVF_VALID_VALID ring .glob)
  rw [State.ovfUsed, State.rd_writeReply, State.retireOvf]
  dsimp only
  rw [State.errStatus_keeps hr _ (ring_in hr) (by decide), State.rd_wr_fits (f := F.ERR_OVF_VALID_VALID) hfit, State.ovfUsed, bitOf_eq_testBit,
    bitOf_eq_testBit, bitOf_eq_testBit, testBit_sub_and, Nat.mod_mod, Nat.testBit_mul_two_pow]
  congr 2
  rw [Nat.testBit_mod_two_pow]
  by_cases hhalf : c / 32 = half
  · rw [decide_eq_true hhalf, decide_eq_true (show 32 * half ≤ c by omega), decide_eq_true (show c - 32 * half < 32 by omega),
      show c - 32 * half = c % 32 by omega]
    rfl
  · rw [decide_eq_false hhalf]
    by_cases hlow : 32 * half ≤ c
    · rw [decide_eq_false (show ¬ c - 32 * half < 32 by omega)]
      simp
    · rw [decide_eq_false hlow]
      rfl

/-! ## TIMING_PREP (R398, R399) -/

/-- R399: a die is prepared: what its agents and its weight cache hold is dropped. -/
def State.prepDie (s : State) (d : Nat) : State :=
  let s1 := s.wcDropUnpinned d
  { s1 with arr := { s1.arr with trans := SMap.keep s1.arr.trans (fun k _ => decide (k / 10 ≠ d)) } }
/-- R399: a die's agents hold no translation, and its weight cache nothing but pinned lines and fills. -/
def State.bare (s : State) (d : Nat) : Prop :=
  (∀ e ∈ s.arr.trans, e.1 / 10 ≠ d) ∧ ∀ e ∈ s.arr.wc, wcOfDie d e.1 = true → ∀ w ∈ e.2, 0 < w.pins ∨ w.filling = true
theorem State.bare_prepDie (s : State) (d : Nat) : (s.prepDie d).bare d := by
  refine ⟨fun e he => by simpa using (List.mem_filter.mp he).2, fun e he hd w hw => ?_⟩
  obtain ⟨e0, -, rfl⟩ := List.mem_map.mp (List.mem_filter.mp he).1
  dsimp only at hd hw
  rw [if_pos hd] at hw
  simpa using (List.mem_filter.mp hw).2
theorem State.bare.prepDie {d : Nat} (h : s.bare d) (d' : Nat) : (s.prepDie d').bare d := by
  refine ⟨fun e he => h.1 e (List.mem_filter.mp he).1, fun e he hd w hw => ?_⟩
  obtain ⟨e0, he0, rfl⟩ := List.mem_map.mp (List.mem_filter.mp he).1
  dsimp only at hd hw
  split at hw
  · exact h.2 e0 he0 hd w (List.mem_filter.mp hw).1
  · exact h.2 e0 he0 hd w hw
theorem State.prepDie_frame (s : State) (d : Nat) :
    s.prepDie d = { s with arr := { s.arr with wc := (s.prepDie d).arr.wc, trans := (s.prepDie d).arr.trans } } := rfl
theorem State.prepDies (ds : List Nat) : ∀ s : State, (∀ d ∈ ds, (ds.foldl State.prepDie s).bare d) ∧
    (∀ d, s.bare d → (ds.foldl State.prepDie s).bare d) ∧
    ds.foldl State.prepDie s = { s with arr := { s.arr with wc := (ds.foldl State.prepDie s).arr.wc, trans := (ds.foldl State.prepDie s).arr.trans } } := by
  induction ds with
  | nil => exact fun s => ⟨nofun, fun _ h => h, rfl⟩
  | cons d ds ih =>
    intro s
    obtain ⟨hbare, hkeep, hframe⟩ := ih (s.prepDie d)
    rw [List.foldl_cons]
    refine ⟨fun d' hd' => ?_, fun d' hd' => hkeep d' (hd'.prepDie d), ?_⟩
    · rcases List.mem_cons.mp hd' with rfl | hd'
      · exact hkeep d' (State.bare_prepDie s d')
      · exact hbare d' hd'
    · generalize ds.foldl State.prepDie (s.prepDie d) = u at hframe ⊢
      rw [hframe, State.prepDie_frame]
theorem completes_timingPrep {dies : Nat} (hdies : dies < 16) (hd : s.dark = false) (h1 : s.modState ≠ 1) (hlc : s.lc ≠ .retired)
    (hmay : s.mayWrite path (Reg.addr .TIMING_PREP 0 .glob 0) .TIMING_PREP = true) :
    ((∀ d < 4, bitOf dies d = true → ∀ st < 64, s.strState d st = 0 ∨ s.strState d st = 3) →
      Completes (.timingPrep path dies) s (fun t =>
        t = { s with arr := { s.arr with wc := t.arr.wc, trans := t.arr.trans } }.writeReply path (Reg.addr .TIMING_PREP 0 .glob 0) true 0 ∧
        ∀ d < 4, bitOf dies d = true → (∀ e ∈ t.arr.trans, e.1 / 10 ≠ d) ∧
          ∀ e ∈ t.arr.wc, wcOfDie d e.1 = true → ∀ w ∈ e.2, 0 < w.pins ∨ w.filling = true)) ∧
    (∀ d st, d < 4 → bitOf dies d = true → st < 64 → s.strState d st = 1 →
      Completes (.timingPrep path dies) s (fun t => t = s.writeReply path (Reg.addr .TIMING_PREP 0 .glob 0) false 0)) := by
  have hw := State.writes_TIMING_PREP (v := dies) hd h1 hlc hmay
  have hmod : dies % 2 ^ 32 = dies := Nat.mod_eq_of_lt (by omega)
  have hmem : ∀ d, d ∈ (List.range 4).filter (fun d => bitOf dies d) ↔ d < 4 ∧ bitOf dies d = true := fun d => by
    rw [List.mem_filter, List.mem_range]
  refine ⟨fun hidle => ⟨_, rfl, ?_⟩, fun d st hd4 hbit hst hrun => ⟨_, rfl, ?_⟩⟩
  · have hprep : s.writeTimingPrep (dies % 2 ^ 32) = some (((List.range 4).filter (fun d => bitOf dies d)).foldl State.prepDie s) := by
      rw [hmod]
      refine if_pos (List.all_eq_true.mpr fun d hmemd => List.all_eq_true.mpr fun st hst => decide_eq_true ?_)
      obtain ⟨hd4, hbit⟩ := (hmem d).mp hmemd
      exact hidle d hd4 hbit st (List.mem_range.mp hst)
    rw [State.doWrite_of_request hw (fun n => State.writeReg_TIMING_PREP_taken hprep path 0 .glob 0 n) rfl]
    dsimp only
    obtain ⟨hbare, -, hframe⟩ := State.prepDies ((List.range 4).filter (fun d => bitOf dies d)) s
    generalize ((List.range 4).filter (fun d => bitOf dies d)).foldl State.prepDie s = u at hbare hframe ⊢
    refine ⟨?_, fun d hd4 hbit => hbare d ((hmem d).mpr ⟨hd4, hbit⟩)⟩
    have harr : (u.writeReply path (Reg.addr .TIMING_PREP 0 .glob 0) true 0).arr = u.arr := rfl
    rw [harr, ← hframe]
  · have hprep : s.writeTimingPrep (dies % 2 ^ 32) = none := by
      rw [hmod]
      refine if_neg fun hall => ?_
      have hone := of_decide_eq_true (List.all_eq_true.mp (List.all_eq_true.mp hall d ((hmem d).mpr ⟨hd4, hbit⟩)) st (List.mem_range.mpr hst))
      rw [hrun] at hone
      exact absurd hone (by decide)
    exact State.doWrite_of_request hw (fun n => State.writeReg_TIMING_PREP_refused hprep path 0 .glob 0 n) rfl

/-! ## Writes over I3C (R303) -/

/-- R303: the address of a private write. -/
def State.i3cAt (s : State) (a : Nat) : State := { s with host := { s.host with i3cAddr := a % 2 ^ 32 } }
theorem execI3cWrite_value (hd : s.dark = false) :
    execI3cWrite a (some v) s = .next (((s.i3cAt a).applyWrite .i3c (a % 2 ^ 32) v).2.emit
      (.i3cAck (decide (((s.i3cAt a).applyWrite .i3c (a % 2 ^ 32) v).1 = .applied)))) := by
  rw [execI3cWrite, if_neg (by rw [hd]; exact Bool.false_ne_true)]
  rfl
theorem completes_i3cWrite_none (hd : s.dark = false) :
    Completes (.i3cWrite a none) s (fun t => t = { s with host := { s.host with i3cAddr := a % 2 ^ 32 } }) :=
  ⟨_, rfl, if_neg (by rw [hd]; exact Bool.false_ne_true)⟩
theorem completes_i3cWrite_unlocated (hd : s.dark = false) (hloc : s.locate (a % 2 ^ 32) = none) :
    Completes (.i3cWrite a (some v)) s (fun t => t = ({ s with host := { s.host with i3cAddr := a % 2 ^ 32 } }).emit (.i3cAck false)) := by
  refine ⟨_, execI3cWrite_value hd, ?_⟩
  have hloc' : (s.i3cAt a).locate (a % 2 ^ 32) = none := hloc
  rw [State.applyWrite_unlocated hloc']
  rfl
theorem completes_i3cWrite_drainMs (hd : s.dark = false) (h1 : s.modState = 1) (hlc : s.lc ≠ .retired) (hv : v ≤ 60000) :
    Completes (.i3cWrite 0x10004 (some v)) s (fun t =>
      t.rd F.PWR_DRAIN_MS_MS = v ∧ .i3cAck true ∈ t.out ∧ s.regsBut t F.PWR_DRAIN_MS_MS.words) := by
  refine ⟨_, execI3cWrite_value hd, ?_⟩
  have hregs : (s.i3cAt 0x10004).regs = s.regs := rfl
  have h1' : (s.i3cAt 0x10004).modState = 1 := (State.rd_congr hregs ..).trans h1
  have haddr : 0x10004 % 2 ^ 32 = Reg.addr .PWR_DRAIN_MS 0 .glob 0 := by decide
  have hw := State.writes_PWR_DRAIN_MS (s := s.i3cAt 0x10004) (path := .i3c) (x := v) hd hlc rfl hv
  have hg := State.writeReg_PWR_DRAIN_MS (s.i3cAt 0x10004) .i3c 0 .glob 0 (v % 2 ^ 32)
    (writtenWord (s.i3cAt 0x10004).host.isSealed .PWR_DRAIN_MS 0 (v % 2 ^ 32) ((s.i3cAt 0x10004).word .PWR_DRAIN_MS 0 .glob 0).toNat)
  rw [State.setWord_PWR_DRAIN_MS _ hv] at hg
  have happly : (s.i3cAt 0x10004).applyWrite .i3c (0x10004 % 2 ^ 32) v = (.applied, (s.i3cAt 0x10004).wr F.PWR_DRAIN_MS_MS v) := by
    rw [haddr, State.applyWrite_of_writes hw hg, if_pos rfl, if_neg (by simp [h1'])]
  rw [happly]
  have hlt : v < 2 ^ 16 := by omega
  have hrd : ((s.i3cAt 0x10004).wr F.PWR_DRAIN_MS_MS v).rd F.PWR_DRAIN_MS_MS = v := State.rd_wr_fits (f := F.PWR_DRAIN_MS_MS) hlt
  have hbut : (s.i3cAt 0x10004).regsBut ((s.i3cAt 0x10004).wr F.PWR_DRAIN_MS_MS v) F.PWR_DRAIN_MS_MS.words :=
    (State.regsBut.refl).wr (List.Subset.refl _)
  generalize (s.i3cAt 0x10004).wr F.PWR_DRAIN_MS_MS v = u at hrd hbut ⊢
  exact ⟨(State.rd_congr (show (u.emit (.i3cAck true)).regs = u.regs from rfl) ..).trans hrd, List.mem_cons_self, hbut⟩

/-- R165: a read of a counter's low half. -/
theorem completes_counterLowRead {r : Reg} {i : Nat} {w : Win} (hd : s.dark = false) (hloc : s.locate a = some (r, i, w, 0))
    (hl : latching r = true) (hmay : s.mayRead path a = true) (hopen : s.blockOpen path a = true) (hdie : s.dieCloses a = none)
    (hwake : s.wakeFor a = s) :
    Completes (.counterLowRead path a) s (fun t => t = { s with latches := t.latches } ∧ t.latch path (r.addr i w 1) = some (s.view r i w 1) ∧
      ∀ u : State, u.latches = t.latches → (u.readHigh path r i w).1 = s.view r i w 1) := by
  refine ⟨(s.readReg path a).2, congrArg Host.Outcome.next (if_neg (by rw [hd]; exact Bool.false_ne_true)), ?_⟩
  rw [State.readReg_low hloc hl hmay hopen hdie hwake]
  have hlatch := State.latch_readLow s path r i w
  refine ⟨rfl, hlatch, fun u hu => ?_⟩
  have hu' : u.latch path (r.addr i w 1) = some (s.view r i w 1) := by
    rw [State.latch, hu]
    exact hlatch
  rw [State.readHigh, hu']

end

/-- Settles O50: the general rules of writes, and the registers with a rule of their own. -/
theorem registersReadAndWrite : Obligations.RegistersReadAndWrite := by
  intro s path a v
  refine ⟨fun r i w k hw hr => ?_, fun hd hloc => ⟨_, rfl, State.doWrite_refused hd (State.applyWrite_unlocated hloc)⟩,
    fun r i w k hd hloc h => ⟨_, rfl, State.doWrite_refused hd (State.applyWrite_not_allowed hloc h)⟩,
    fun r i w hd hloc hl hmay hopen hdie hwake => completes_counterLowRead hd hloc hl hmay hopen hdie hwake,
    completes_i3cWrite_none, completes_i3cWrite_unlocated, completes_i3cWrite_drainMs,
    fun ring hr hd h1 hlc hmay => completes_errRd hr hd h1 hlc hmay,
    fun ring half hr hh hd h1 hlc hmay => completes_errOvfValid hr hh hd h1 hlc hmay,
    fun dies hdies hd h1 hlc hmay => completes_timingPrep hdies hd h1 hlc hmay⟩
  intro u
  refine ⟨_, rfl, ?_⟩
  have hne : r ≠ .TENANT_BUDGET := fun h => hr (by rw [h]; decide)
  have hcond : (settles r && (dieOf a).isNone && decide (s.modState ≠ 1) && !s.starting) = true ↔
      settles r = true ∧ dieOf a = none ∧ s.modState ≠ 1 ∧ s.starting = false := by
    simp only [Bool.and_eq_true, Option.isNone_iff_eq_none, decide_eq_true_eq, Bool.not_eq_true', and_assoc]
  have happly := State.applyWrite_of_writes hw (State.writeReg_plain hr s path i w k (v % 2 ^ 32)
    (writtenWord s.host.isSealed r k (v % 2 ^ 32) (s.word r i w k).toNat))
  simp only [State.doWrite, hw.1, happly, Bool.false_eq_true, if_false, if_true, if_neg hne, hcond]
  rfl

end Sys2Proof.Machine
end
